-- ==== Sys2Proof/Word.lean ====
section
/-! DEFINITION. The plainest arithmetic of the model, and sparse tables in one canonical form.

A table (`Tab`) is a list of (key, value) pairs, keys strictly rising; a key that is not listed reads as the
default its reader names, and writing that default removes the entry, so that equal contents are equal lists. -/

namespace Sys2Proof

/-- A byte of capture memory or of a long entry. -/
abbrev Byte := BitVec 8

/-- `2^48`: the modulus of every count of R9, and the units of one second of TIME96 (R8). -/
def two48 : Nat := 2 ^ 48

/-- A 48-bit value: the low 48 bits (R9, R10). -/
def wrap48 (n : Nat) : Nat := n % two48

/-- A signed number as the two's-complement code of `w` bits. -/
def toTwos (w : Nat) (v : Int) : Nat := (v % (2 ^ w : Nat)).toNat

/-- The signed number a two's-complement code of `w` bits stands for. -/
def ofTwos (w n : Nat) : Int :=
  if n % 2 ^ w < 2 ^ (w - 1) then ((n % 2 ^ w : Nat) : Int) else ((n % 2 ^ w : Nat) : Int) - ((2 ^ w : Nat) : Int)

/-- Bits `[hi:lo]` of a number. -/
def bitsOf (hi lo n : Nat) : Nat := n / 2 ^ lo % 2 ^ (hi + 1 - lo)

/-- Bit `i` of a number. -/
def bitOf (n i : Nat) : Bool := n / 2 ^ i % 2 == 1

/-- A number with bit `i` set, or cleared. -/
def setBitTo (n i : Nat) (b : Bool) : Nat :=
  if bitOf n i == b then n else if b then n + 2 ^ i else n - 2 ^ i

/-- How many of the low `w` bits of a number are set. -/
def countBits : Nat → Nat → Nat
  | 0, _ => 0
  | w + 1, n => n % 2 + countBits w (n / 2)

/-- Ceiling of a quotient. -/
def ceilDiv (a b : Nat) : Nat := (a + (b - 1)) / b

/-- Distance of two numbers. -/
def absDiff (a b : Nat) : Nat := (a - b) + (b - a)

/-- A number held between two bounds. -/
def clampInt (lo hi v : Int) : Int := if v < lo then lo else if hi < v then hi else v

/-- Whether a number is a power of two. -/
def isPow2 (n : Nat) : Bool := n != 0 && n == 2 ^ n.log2

/-- Little-endian bytes of a number, `k` of them. -/
def leBytes : Nat → Nat → List Byte
  | 0, _ => []
  | k + 1, n => BitVec.ofNat 8 n :: leBytes k (n / 256)

/-- The number that little-endian bytes spell. -/
def ofLeBytes : List Byte → Nat
  | [] => 0
  | b :: bs => b.toNat + 256 * ofLeBytes bs

/-- Quotient rounded to the nearest integer, exact halves to the nearest even (R5). -/
def roundEven (a : Int) (b : Nat) : Int :=
  let q := a / (b : Int)
  let r := a % (b : Int)
  if 2 * r < (b : Int) then q
  else if (b : Int) < 2 * r then q + 1
  else if q % 2 = 0 then q else q + 1

/-- Integer square root, bit by bit from bit `k - 1` down. -/
def isqrtFrom : Nat → Nat → Nat → Nat
  | 0, r, _ => r
  | k + 1, r, x => if (r + 2 ^ k) * (r + 2 ^ k) ≤ x then isqrtFrom k (r + 2 ^ k) x else isqrtFrom k r x

/-- Square root rounded to the nearest integer, of a number below 2^128. -/
def sqrtRound (x : Nat) : Nat :=
  let r := isqrtFrom 64 0 x
  if r * r + r < x then r + 1 else r

/-- A sparse table: (key, value) pairs, keys strictly rising. -/
abbrev Tab (α : Type) := List (Nat × α)

namespace Tab

/-- The value listed for a key, if any. -/
def find? {α : Type} : Tab α → Nat → Option α
  | [], _ => none
  | (k, v) :: r, i => if k = i then some v else find? r i

/-- The value of a key: what is listed, else the default. -/
def get {α : Type} (dflt : α) (l : Tab α) (i : Nat) : α := (find? l i).getD dflt

/-- A table without a key. -/
def del {α : Type} (l : Tab α) (i : Nat) : Tab α := l.filter (fun p => p.1 != i)

/-- A table with a value listed for a key. -/
def put {α : Type} : Tab α → Nat → α → Tab α
  | [], i, v => [(i, v)]
  | (k, w) :: r, i, v =>
    if k = i then (i, v) :: r
    else if i < k then (i, v) :: (k, w) :: r
    else (k, w) :: put r i v

/-- A table in which a key reads as a value: the default is not listed. -/
def set {α : Type} [DecidableEq α] (dflt : α) (l : Tab α) (i : Nat) (v : α) : Tab α :=
  if v = dflt then del l i else put l i v

/-- The canonical form, its order half: keys strictly rising. -/
abbrev Sorted {α : Type} (l : Tab α) : Prop := l.Pairwise (fun a b => a.1 < b.1)

/-- The canonical form: keys strictly rising, no entry equal to the default. -/
abbrev Wf {α : Type} [DecidableEq α] (dflt : α) (l : Tab α) : Prop :=
  Sorted l ∧ ∀ p ∈ l, p.2 ≠ dflt

end Tab
end Sys2Proof
end

