-- ==== Sys2Proof/Syntax.lean ====
section
/-! DEFINITION. The commands of the block: one constructor for each row of the command table. The first operand `t` of
every command is its instant in module time, in units of 2^-48 s (log entry 2); the others are what the outside world
decides: which unit, which path, what was measured, what data came (log entry 3). -/

namespace Sys2Proof

/-- What the outside decides for an entry write whose own command has operands beside its path (log entry 3): the wake source that fires
in the same clock, a flag (flash written, image right), an image's version and the islands it does not accept, what the scan of a volume's
open reels finds. -/
structure Outside where
  wake : Nat := 256
  flag : Bool := true
  version : Nat := 0
  requires : Nat := 0
  found : List (Nat × Nat × Nat × Nat) := []
deriving DecidableEq, Repr

/-- The commands. -/
inductive Instr where
  /-- ENTRY_WRITE (R401): A write to a dictionary entry with no row of its own is range- and type-checked and applied immediately, staged for a cut, shadowed or rejected according to its takes-effect form. -/
  | entryWrite (t path ix sub : Nat) (v : Int) (o : Outside)
  /-- HOD_WRITE (R24): Samples or records of a write stream are packed into the stream's present 4 KiB hod block, continuing into the next block when the record is longer than the space left. -/
  | hodWrite (t stream : Nat)
  /-- HOD_BLOCK_LEAVE (R24): A hod block leaves for the Capture Store when it is full or at the first 1 us tick after its first byte was written, carrying only its written bytes. -/
  | hodBlockLeave (t stream : Nat)
  /-- HOD_STREAM_RESUME (R26): Once at least 256 KiB of the hod buffer is free again, a discarding stream resumes at its next block boundary. -/
  | hodStreamResume (t stream : Nat)
  /-- VOLUNTARY_STALL_START (R27): A deferred voluntary Capture Store stall starts once hod occupancy is at or below 4 MiB and the buffer has drained from the previous stall. -/
  | voluntaryStallStart (t kind chan durNs : Nat)
  /-- PIPELINE_CROSSING_OVERFLOW (R19): A pipeline crossing that overflows through a fault discards whole words, records the samples as a gap and raises a fault. -/
  | pipelineCrossingOverflow (t isl inst first count : Nat)
  /-- CUT_COMMIT (R29): Writing 0x01 to mod.cut_commit closes the staged set, checks CUT_BUSY and CUT_NOTHING_STAGED, and sets mod.cut_state to 2. -/
  | cutCommit (t path : Nat)
  /-- CUT_ABORT (R31): Writing 0x02 to mod.cut_commit cancels a committed cut not yet at its commit point, leaving the set staged, or answers ALREADY_DONE. -/
  | cutAbort (t path : Nat)
  /-- CUT_DISCARD_STAGED (R31): Writing 0x03 to mod.cut_commit discards the staged set. -/
  | cutDiscardStaged (t path : Nat)
  /-- CUT_COMMIT_POINT (R29): At most 2 us after an accepted commit write, the Supervisor checks T and every island's part, and then distributes T or rejects the whole set. -/
  | cutCommitPoint (t : Nat)
  /-- CUT_APPLY (R28): Each affected island applies the committed set at its first block boundary whose first sample is at or after T and writes a cut record. -/
  | cutApply (t isl first : Nat)
  /-- SUPERVISOR_RESTART (R40): The Supervisor restarts while the data path runs on its last applied configuration and uncommitted cuts are discarded. -/
  | supervisorRestart (t : Nat) (faulted : Bool)
  /-- SUPERVISOR_RETURN (R40): On the Supervisor's return, cuts that passed their commit point read applied and functions that lost engine cuts decide afresh. -/
  | supervisorReturn (t : Nat) (o : Outside)
  /-- EPS_WINDOW_END (R37): At the end of each pwr.eps_window the energy per analysed complex sample over the window is computed into pwr.eps_live. -/
  | epsWindowEnd (t analysisUj moduleUj : Nat)
  /-- AUX_ENTER_RANGE (R70): 3.3 V AUX enters its range, the always-on domain leaves reset, trims hold 0 V and the slot straps are sampled. -/
  | auxEnterRange (t straps converters : Nat)
  /-- AUX_QUALIFIED (R53): AUX has been in range for 1 ms, so the 12 V regulators may start. -/
  | auxQualified (t : Nat)
  /-- AUX_LOSS (R51): AUX leaves its range and the module stops completely, releasing relays within 3 ms and MEMS arrays within 10 ms. -/
  | auxLoss (t : Nat)
  /-- V12_GOOD (R54): 12 V rises above the brown-out threshold and below the overvoltage threshold, and the core start proceeds. -/
  | v12Good (t : Nat)
  /-- V12_BROWNOUT (R54): 12 V falling below 10.8 V drops PWR_GOOD within 10 us, shuts down the core rails and releases the MEMS drive. -/
  | v12Brownout (t : Nat)
  /-- V12_OVERVOLTAGE (R51): 12 V rising above 13.2 V acts as a brown-out and raises RAIL_FAULT. -/
  | v12Overvoltage (t : Nat)
  /-- RAIL_OUT_OF_REGULATION (R54): A module rail leaving its regulation window drops PWR_GOOD and shuts down the core rails with RAIL_FAULT. -/
  | railOutOfRegulation (t rail milliVolt centiAmp : Nat)
  /-- PWR_GOOD_RISE (R70): PWR_GOOD rises with the core rails up, and the island PLLs lock at 400 MHz. -/
  | pwrGoodRise (t : Nat)
  /-- POWER_LOSS_LOG_WRITE (R55): Within 5 ms of a power loss the Supervisor writes the power-loss entry and clears the flash flag. -/
  | powerLossLogWrite (t : Nat)
  /-- RESET_N_ASSERT (R57): RESET_N low for 12 or more filter samples resets the module, releasing relays and MEMS arrays while trims and TIME96 continue. -/
  | resetNAssert (t samples : Nat)
  /-- RESET_N_RELEASE (R72): RESET_N rising restarts the engine from the top of the start-up sequence and resamples the slot straps. -/
  | resetNRelease (t straps : Nat)
  /-- MOD_RESET (R72): Writing 0x01 to mod.reset resets the module as RESET_N does. -/
  | modReset (t path : Nat)
  /-- MOD_RESET_RESTART (R72): 10 ms after a mod.reset write, the engine restarts from the top of Table 3.1. -/
  | modResetRestart (t straps : Nat)
  /-- PERST_N_ASSERT (R316): PERST_N resets the host endpoint, closes every host-target ring discarding its backlog, and resets the MSI-X table. -/
  | perstNAssert (t : Nat)
  /-- PERST_N_RELEASE (R71): PERST_N rising starts host link training, and the endpoint answers configuration within 100 ms. -/
  | perstNRelease (t : Nat)
  /-- HOST_LINK_UP (R70): The host PCIe link comes up, bit 2 of mod.bringup is set and the BAR0 mirror is served. -/
  | hostLinkUp (t gen width : Nat)
  /-- THERMAL_THROTTLE (R61): The hottest die sensor reaching hw.temp_throttle lowers island clocks, drives THERM_N low and announces degradation. -/
  | thermalThrottle (t : Nat) (temp : Int) (others : List Int)
  /-- THERMAL_TRIP (R61): The die reaching 110 C drops PWR_GOOD, shuts down the core rails and holds the trip in the always-on domain. -/
  | thermalTrip (t : Nat) (temp : Int)
  /-- HW_RESTART (R61): Writing 0x01 to hw.restart restarts the core after a trip when the die reads below 90 C, and otherwise is rejected with RESTART_REFUSED. -/
  | hwRestart (t path : Nat)
  /-- DIE_COOL_START (R61): A start held while the die reads 90 C or above proceeds once the sensor falls below 90 C. -/
  | dieCoolStart (t : Nat) (temp : Int)
  /-- INLET_OVER_GRADE (R61): The inlet sensor rising above the grade's maximum logs INLET_OVER_GRADE once per excursion. -/
  | inletOverGrade (t : Nat) (temp : Int)
  /-- BYPASS_INSERT (R63): The Course Fabric drives a MEMS array from the through state toward inserted, and the request is refused if the array is forced. -/
  | bypassInsert (t dim : Nat)
  /-- BYPASS_RELEASE (R62): A MEMS array's drive is removed and the array returns toward the through state. -/
  | bypassRelease (t dim : Nat)
  /-- BYPASS_TRANSITION_DONE (R63): A MEMS array reaches its commanded state and its change is counted. -/
  | bypassTransitionDone (t dim : Nat)
  /-- BYPASS_STUCK (R63): An array that has not reached its commanded state in 10 ms is reported stuck and driven back to the through state. -/
  | bypassStuck (t dim : Nat)
  /-- HW_BYPASS_FORCE (R64): Writing 1 to hw.bypass_force holds that array in the through state, returning it at once if it is inserted. -/
  | hwBypassForce (t path dim : Nat)
  /-- ECAT_WATCHDOG_EXPIRY (R65): The slave controller's own watchdog expires and it releases the relays within 3 ms. -/
  | ecatWatchdogExpiry (t : Nat)
  /-- RELAY_FAULT (R69): A relay state that disagrees with its drive after 4 ms raises RELAY_FAULT. -/
  | relayFault (t : Nat)
  /-- ECAT_SLAVE_READY (R70): The EtherCAT slave controller becomes ready and enters INIT. -/
  | ecatSlaveReady (t : Nat)
  /-- BOOT_IMAGE_SELECT (R73): The boot ROM picks and checks the image named by mod.boot_select and boots it, or falls back to the other image. -/
  | bootImageSelect (t : Nat) (okA okB : Bool)
  /-- SUPERVISOR_START (R70): The Supervisor starts running, serves the dictionary, loads stored trims and reaches PRE-OP. -/
  | supervisorStart (t : Nat)
  /-- TRIAL_WATCHDOG_EXPIRY (R74): A trial image that has not reached rushes service within 1 s is marked failed and the Supervisor restarts into the other image. -/
  | trialWatchdogExpiry (t : Nat) (ok : Bool)
  /-- RUSHES_START (R70): At the later of P + 0.4 s and the Supervisor running, rushes service begins, TIME96 starts and mod.service reads 1. -/
  | rushesStart (t : Nat)
  /-- BRINGUP_STEP_DONE (R80): A background bring-up step completes and sets its bit in mod.bringup. -/
  | bringupStepDone (t step bad : Nat)
  /-- BRINGUP_TIMEOUT (R84): A gating step not complete at P + 20 s, or P + 60 s with the memory test, is treated as failed and handled by its own outcome. -/
  | bringupTimeout (t step bad : Nat)
  /-- FABRIC_PORT_DARK (R80): A ring port that has not trained within 2 s of its dimension's insertion is found dark for link discovery. -/
  | fabricPortDark (t port : Nat)
  /-- MOD_CHANGEOVER (R81): Writing 0x01 to mod.changeover commits the changeover cut, or is rejected with NOT_READY, CUT_BUSY or answered ALREADY_DONE. -/
  | modChangeover (t path : Nat)
  /-- CHANGEOVER_COMPLETE (R83): All islands reach nominal clock and full width, the changeover gap ends on every lane and mod.service reads 3. -/
  | changeoverComplete (t first : Nat)
  /-- LANE_CALIBRATION_DONE (R102): A converter lane's receiver calibration ends, releasing its link from state 1, or marking it faulty and its link down. -/
  | laneCalibrationDone (t lane : Nat) (ok : Bool)
  /-- LANE_CDR_LOCK (R100): All lanes of a link show CDR lock and the link moves to state 2. -/
  | laneCdrLock (t link : Nat)
  /-- LANE_LOCK (R100): All lanes of a link reach sync-header lock or code-group synchronisation and the link moves to state 3. -/
  | laneLock (t link : Nat) (prbs : List (Nat × Nat))
  /-- MULTIBLOCK_LOCK (R100): A link reaches extended-multiblock lock or checks ILAS, then waits for SYSREF or keeps its clock, or is rejected on mismatch. -/
  | multiblockLock (t link measured : Nat) (arrivals ilas : List Nat)
  /-- LINK_NO_LOCK (R100): A link that has not left state 1, 2 or 3 within 10 ms raises LINK_NO_LOCK or SHS_MODE once. -/
  | linkNoLock (t link : Nat) (headersValid : Bool)
  /-- SYSREF_EDGE (R96): A SYSREF edge is sampled and sets, monitors or realigns the multiblock clock of each link on the port, or opens a spacing measurement. -/
  | sysrefEdge (t port edgePs : Nat)
  /-- SYSREF_ABSENT (R100): A link waiting 10 ms in state 4 without an accepted edge raises SYSREF_ABSENT once. -/
  | sysrefAbsent (t link : Nat)
  /-- MULTIBLOCK_RELEASE (R98): At the release offset after each multiblock-clock edge, the link's data is released on all lanes and stamped with TIME96. -/
  | multiblockRelease (t link measured : Nat) (arrivals : List Nat) (codes : List (Nat × List Nat)) (octets : List (List Nat))
  /-- LANE_FAULT (R103): A lane fault condition faults its link, discards from the faulting multiblock onward, and opens a gap. -/
  | laneFault (t lane cond : Nat)
  /-- RELINK_COMPLETE (R104): A faulted link releases again, closing its gap with exact length. -/
  | relinkComplete (t link : Nat)
  /-- CRC_ERROR (R105): A CRC-12 error on a lane flags the multiblock's samples or discards them as a gap according to itk.crc_check. -/
  | crcError (t lane multiblock samples : Nat)
  /-- DDC_OUTPUT (R120): A DDC releases an output sample on its grid, stamped with its input instant and carrying OVR, CRC, UNSETTLED and SAT flags. -/
  | ddcOutput (t ddc ne ecc : Nat)
  /-- DDC_DRAIN_TIMEOUT (R122): A stop drain lasting beyond 50 us discards the unreleased outputs as a gap and completes the stop. -/
  | ddcDrainTimeout (t ddc : Nat)
  /-- DETECTOR_WINDOW_CLOSE (R128): A closed detector window updates the peak, mean and envelope entries and writes a detector record to its ring. -/
  | detectorWindowClose (t ddc : Nat)
  /-- DDC_FAULT (R132): A DDC parity or uncorrectable memory error fails the DDC, opens a gap and engages the standby DDC within 30 us. -/
  | ddcFault (t ddc : Nat)
  /-- DDC_SELFTEST_DONE (R132): The Supervisor's test of a failed DDC ends, and the DDC rejoins or stays failed with the standby in place. -/
  | ddcSelftestDone (t ddc : Nat) (ok : Bool)
  /-- DDC_STANDBY_FAIL (R133): The standby DDC fails while covering a DDC, which then stops with NO_STANDBY and a degradation event. -/
  | ddcStandbyFail (t : Nat)
  /-- REAL_TO_COMPLEX_PARITY (R134): A parity error in a real-to-complex section resets it with a gap, and a third failure within 1 s holds it down. -/
  | realToComplexParity (t link first lost : Nat)
  /-- CHN_REPOINT (R135): Writing a DDC number to chn.repoint starts the shadowed repointing sequence with the standby DDC. -/
  | chnRepoint (t path ddc : Nat)
  /-- CHN_REPOINT_ABORT (R136): Writing 0xFF to chn.repoint aborts the running DDC repointing or answers ALREADY_DONE. -/
  | chnRepointAbort (t path : Nat)
  /-- DDC_REPOINT_HANDOVER (R135): At a cut block boundary after the shadow has settled, output moves between the DDC and the standby. -/
  | ddcRepointHandover (t ddc first : Nat)
  /-- DDC_UPDATE_DONE (R135): The DDC's microcode, coefficients or calibration are loaded and self-tested and it restarts in shadow. -/
  | ddcUpdateDone (t : Nat) (ok : Bool)
  /-- SPE_FRAME_DONE (R155): A core completes a frame, whose bins go to masks and density with the frame's flags. -/
  | speFrameDone (t layer m core : Nat) (bins : List (Int × Int)) (exponent eccCore eccPool : Nat)
  /-- TRACE_CLOSE (R153): A trace closes after C frames, or early as PARTIAL, and is written as a spectrum record when records are enabled. -/
  | traceClose (t layer : Nat)
  /-- LAYER_STOP_TIMEOUT (R159): A frame of a stopped layer not complete 50 us after T is discarded into a gap and the stop completes. -/
  | layerStopTimeout (t layer : Nat)
  /-- LAYER_MEM_ERROR (R162): An uncorrectable layer-pool error loses the frames that read the word as a gap. -/
  | layerMemError (t layer m lost : Nat)
  /-- CORE_FAULT (R163): A core failure loses its frames in flight, stops dispatch to it, and engages the standby core when the lane needs it. -/
  | coreFault (t core layer m lost : Nat)
  /-- CORE_SELFTEST_DONE (R163): The Supervisor's test of a failed core ends, and the core rejoins or stays out. -/
  | coreSelftestDone (t core : Nat) (ok : Bool)
  /-- CORE_STANDBY_FAIL (R164): The standby core fails while covering a core, which then stays out of service with CORE_NO_STANDBY. -/
  | coreStandbyFail (t : Nat)
  /-- SPE_REPOINT (R165): Writing a core number to spe.repoint starts the core repointing sequence with the standby core. -/
  | speRepoint (t path core : Nat)
  /-- SPE_REPOINT_ABORT (R166): Writing 0xFF to spe.repoint aborts the running core repointing or answers ALREADY_DONE. -/
  | speRepointAbort (t path : Nat)
  /-- CORE_REPOINT_HANDOVER (R165): At a frame boundary the scheduler share moves between the core and the standby. -/
  | coreRepointHandover (t core first : Nat)
  /-- CORE_UPDATE_DONE (R165): The core's update is loaded and self-tested. -/
  | coreUpdateDone (t : Nat) (ok : Bool)
  /-- SPE_USER_COEF (R146): A write to spe.user_coef stores one staged user-window coefficient and increments the index. -/
  | speUserCoef (t path : Nat) (v : Int)
  /-- COND_EVENT (R171): A condition finds a crossing, pulse, runt, timeout, slew, over-range, input edge or mask fail and emits a time-stamped event. -/
  | condEvent (t cond index ecc : Nat) (rising : Bool)
  /-- COND_TIMEOUT_EXPIRY (R172): A timeout condition fires when no return crossing follows an upward crossing within time a. -/
  | condTimeoutExpiry (t cond : Nat)
  /-- TRG_COND_SOFT (R177): Writing a condition number to trg.cond_soft produces one software event at the next Trigger Unit block. -/
  | trgCondSoft (t path cond : Nat)
  /-- SEQUENCER_EVENT (R188): The sequencer processes a queued event at its due instant and advances, resets or fires the chain. -/
  | sequencerEvent (t chain : Nat)
  /-- MASK_RESTART (R182): Writing 1 to trg.mask_cmd restarts a stopped mask at the next block boundary. -/
  | maskRestart (t path mask : Nat)
  /-- MASK_CLEAR_COUNTS (R182): Writing 2 to trg.mask_cmd clears the mask's counts. -/
  | maskClearCounts (t path mask : Nat)
  /-- TRG_BP_VALUE (R180): A write to trg.bp_value stores one staged breakpoint and increments the index. -/
  | trgBpValue (t path v : Nat)
  /-- TOUT_PULSE (R190): A TOUT pulse begins at the fire's event time plus its delay, extending a pulse in progress. -/
  | toutPulse (t tout : Nat)
  /-- MAG_ARM (R198): The arm command allocates the magazine at the next Trigger Unit block boundary and starts its history. -/
  | magArm (t path : Nat)
  /-- MAG_DISARM (R198): The disarm command stops the magazine at the boundary, closing an open take PARTIAL or answering ALREADY_DONE. -/
  | magDisarm (t path : Nat)
  /-- MAG_FREE (R198): The free command requests release of the magazine's memory and enters state 5. -/
  | magFree (t path : Nat)
  /-- MAG_FREE_RELEASE (R198): Once every delivery from the magazine completes, its memory is released and it returns idle. -/
  | magFreeRelease (t mag : Nat)
  /-- MAG_FORCE_TRIGGER (R198): The force-trigger command fires the magazine at the boundary time with completing condition 0xFF. -/
  | magForceTrigger (t path : Nat)
  /-- MAG_CLEAR (R198): The clear command deletes all takes and resets the next take index to 0. -/
  | magClear (t path : Nat)
  /-- TAKE_COMPLETE (R199): A take's data and log entry are committed, a take-complete record is written and the take is delivered to its ring. -/
  | takeComplete (t mag take : Nat)
  /-- MASK_TABLE_RELOAD (R206): An uncorrectable mask-table error suspends the mask until the table is reloaded from the shadow. -/
  | maskTableReload (t mask : Nat)
  /-- QUEUE_ERROR (R206): An uncorrectable condition-queue error loses its events and resets every chain naming the condition. -/
  | queueError (t cond : Nat)
  /-- BANK_FAULT (R206): A parity fault in condition logic fails the instance, which the Supervisor resets within 50 us. -/
  | bankFault (t inst : Nat)
  /-- PLANE_FRAME_SETTLE (R217): When the last frame of a plane frame is incremented, the buffers swap and decay sweep and export start. -/
  | planeFrameSettle (t plane ecc : Nat)
  /-- PLANE_EXPORT (R219): The settled buffer is exported as a plane record with payload and written into a Viewport handle. -/
  | planeExport (t plane : Nat)
  /-- PLANE_MEM_ERROR (R227): An uncorrectable plane-memory error zeroes the word in both buffers and raises PLANE_MEM_ERROR. -/
  | planeMemError (t plane word : Nat)
  /-- DENSITY_FAULT (R227): A parity fault in increment logic resets the plane within 50 us and clears its buffers. -/
  | densityFault (t plane : Nat)
  /-- HPD_PLUG (R234): DP_HPD high for 100 ms is a plug and starts mode selection and link training. -/
  | hpdPlug (t rate lanes kHz htotal vtotal : Nat) (listed : List Nat) (edid : List Byte)
  /-- HPD_IRQ (R234): A low pulse of 0.25-2 ms is an IRQ_HPD, reading link status and retraining if lock was lost. -/
  | hpdIrq (t lowUs : Nat) (lost : Bool)
  /-- HPD_UNPLUG (R234): A low of more than 2 ms is an unplug, idling the lanes. -/
  | hpdUnplug (t : Nat)
  /-- DP_LINK_TRAINED (R233): Link training ends, succeeding or retrying at lower rate, lanes or bit depth until the output goes dark. -/
  | dpLinkTrained (t : Nat) (ok : Bool)
  /-- VP_ENABLE (R235): Writing vp.enable starts or stops the timing generator and puts the island asleep when off. -/
  | vpEnable (t path v : Nat)
  /-- VP_COMMIT (R243): Writing a bit map to vp.commit commits the staged layers, palettes or cursor for frame f + 1 or f + 2. -/
  | vpCommit (t path map : Nat)
  /-- VP_LATCH_POINT (R244): At the end of the last active line, pending commits apply, roll heads are fixed, and release and free records are posted. -/
  | vpLatchPoint (t : Nat)
  /-- VP_ALLOC (R240): Writing 1 to vp.alloc_cmd allocates a frame buffer handle in the pool. -/
  | vpAlloc (t path : Nat)
  /-- VP_FREE_REQUEST (R242): Writing 2 to vp.alloc_cmd requests a handle's free, completed at the latch after it leaves scan. -/
  | vpFreeRequest (t path : Nat)
  /-- VP_CURSOR_PIXEL (R239): A write to vp.cursor_pixel stores one staged cursor pixel and increments the index. -/
  | vpCursorPixel (t path v : Nat)
  /-- READBACK_CHECK (R248): The read-back receiver compares a frame's CRCs and on mismatch posts a record and may retrain after three. -/
  | readbackCheck (t red green blue : Nat)
  /-- VP_UNDERRUN (R249): A layer line not arrived in time aborts the frame, which counts as its latch point. -/
  | vpUnderrun (t layer line : Nat)
  /-- COMPOSER_FAULT (R250): A composer parity fault resets the composer within 50 us with frames aborted meanwhile. -/
  | composerFault (t : Nat)
  /-- REGULATOR_REFILL (R267): At every 1 us boundary each port's token bucket gains its rate up to its depth. -/
  | regulatorRefill (t : Nat)
  /-- SUBCHANNEL_COMMAND (R269): A sub-channel chooses and issues its next command by priority level. -/
  | subchannelCommand (t chan sub : Nat) (arrivals : List (List Nat)) (corrected : Bool)
  /-- REFRESH_DUE (R271): A same-bank refresh falls due within tREFI and is issued. -/
  | refreshDue (t chan rank : Nat)
  /-- MR4_READ (R271): Every 1 ms MR4 is read from every rank, doubling or restoring the refresh rate and reporting DRAM_HOT. -/
  | mr4Read (t chan field : Nat) (temp : Int)
  /-- ROW_ACTIVATE (R272): An activate updates the bank's row table and queues a neighbour refresh when a count reaches the threshold. -/
  | rowActivate (t chan sub rank bank row : Nat)
  /-- NEIGHBOUR_REFRESH (R272): Rows at distances 1 and 2 of the row are refreshed and its count reset. -/
  | neighbourRefresh (t chan sub rank bank row : Nat)
  /-- ROW_TABLE_CLEAR (R272): Every 32 ms all row-disturbance tables are cleared. -/
  | rowTableClear (t : Nat)
  /-- UNCORRECTABLE_BURST (R274): An uncorrectable burst is lost as zeros, recorded, and the rank sparing begins with a 20 us stall. -/
  | uncorrectableBurst (t addr : Nat)
  /-- SPARING_STALL_END (R275): After the sparing stall, service resumes with the spare serving below the migration cursor. -/
  | sparingStallEnd (t chan : Nat)
  /-- MIGRATION_COMPLETE (R275): The migration cursor reaches the end of the rank, the map names the spare and the rank is retired. -/
  | migrationComplete (t chan : Nat)
  /-- CE_LIMIT_SPARE (R276): A rank's corrected errors exceeding cap.ce_limit in 24 h start a migration without an error. -/
  | ceLimitSpare (t chan rank : Nat)
  /-- PATROL_SCRUB (R273): Patrol scrub reads all capture memory once per cap.scrub_hours. -/
  | patrolScrub (t chan rank corrected : Nat) (lost : List Nat)
  /-- RETRAIN_DUE (R278): A channel's retraining falls due by period or temperature change and waits under R27. -/
  | retrainDue (t chan : Nat) (temp : Int)
  /-- RETRAIN_START (R278): A due retraining takes its channel out of service once the hod buffer allows. -/
  | retrainStart (t chan : Nat)
  /-- RETRAIN_DONE (R278): Retraining completes, queued blocks issue, or failure spares a rank or retires the channel. -/
  | retrainDone (t chan result rank : Nat)
  /-- CS_START (R265): The start command allocates a capture stream's region and log at the next 1 us boundary and starts j = 0. -/
  | csStart (t path cs : Nat)
  /-- CS_STOP (R265): The stop command ends a capture stream at the next 1 us boundary. -/
  | csStop (t path cs : Nat)
  /-- CS_FREE (R265): The free command requests release of a stream's region and log. -/
  | csFree (t path cs : Nat)
  /-- CS_FREE_RELEASE (R265): Once reads in progress complete, a freeing stream's memory is released. -/
  | csFreeRelease (t cs : Nat)
  /-- CAPTURE_IDLE_SLEEP (R282): All ports idle for cap.idle_sr microseconds put the island to sleep in self-refresh. -/
  | captureIdleSleep (t : Nat)
  /-- CAPTURE_WAKE (R282): A request wakes the sleeping Capture Store within 3 us. -/
  | captureWake (t port : Nat)
  /-- RING_OPEN (R296): The open command checks the ring context, allocates the backlog and enters state 1. -/
  | ringOpen (t path : Nat)
  /-- RING_CLOSE (R296): The close command enters state 3 and drains the backlog, or closes a failed ring at once. -/
  | ringClose (t path : Nat)
  /-- RING_CLOSE_DRAIN_END (R296): When the backlog is empty or 50 us have passed, the remainder is discarded and the ring enters state 0. -/
  | ringCloseDrainEnd (t ring : Nat)
  /-- RING_PAUSE (R296): The pause command stops delivery of an open ring. -/
  | ringPause (t path : Nat)
  /-- RING_RESUME (R296): The resume command restarts delivery of a paused ring. -/
  | ringResume (t path : Nat)
  /-- RING_RECORD (R294): A producer's record enters the ring's backlog and is written into ring space, or is held or discarded with a gap marker. -/
  | ringRecord (t ring : Nat)
  /-- RING_SPACE_AVAILABLE (R291): Held records in a backlog are written once ring space frees, followed by the producer-index write-back. -/
  | ringSpaceAvailable (t ring : Nat)
  /-- RING_DOORBELL (R292): A doorbell write returns space by setting ci, ignored with RING_DOORBELL if it moves backwards or passes pi. -/
  | ringDoorbell (t ring ci : Nat)
  /-- MSIX_MESSAGE (R293): A ring's message falls due by count or by mod_us and is sent, or sets its pending bit when masked. -/
  | msixMessage (t ring : Nat)
  /-- MSIX_UNMASK (R293): Unmasking a vector sends its pending message. -/
  | msixUnmask (t vector : Nat)
  /-- RING_CONTEXT_ERROR (R316): An uncorrectable ring-context error puts the ring in state 5 and discards its records. -/
  | ringContextError (t ring : Nat)
  /-- HOST_LINK_LOSS (R316): Loss of the host link puts host-target rings in state 4 under their policy. -/
  | hostLinkLoss (t : Nat)
  /-- DRIVE_INSERT (R300): STO_PRSNT_N low with refclock running begins the drive attach sequence. -/
  | driveInsert (t drive : Nat)
  /-- DRIVE_ATTACH_DONE (R300): The attach sequence completes, the drive is attached or refused, and it joins the volume if its label matches. -/
  | driveAttachDone (t drive reason gen width lbas granted health mdts : Nat) (cache : Bool) (label : List Nat) (dir : List (List Nat))
  /-- DRIVE_DETACH (R300): A str.drive_cmd detach removes the drive. -/
  | driveDetach (t path drive : Nat)
  /-- DRIVE_ATTACH_CMD (R300): A str.drive_cmd attach starts the attach sequence for the drive. -/
  | driveAttachCmd (t path drive : Nat)
  /-- NVME_COMPLETION_POLL (R302): Every 1 us completion queues are polled and completed units free their spool slots. -/
  | nvmeCompletionPoll (t drive : Nat) (done : List (Nat × Nat))
  /-- NVME_COMMAND_TIMEOUT (R303): A command incomplete after str.nvme_timeout is aborted, and after a second timeout the drive is lost. -/
  | nvmeCommandTimeout (t drive id : Nat)
  /-- NVME_HEALTH_POLL (R302): Every 60 s the health log of each drive is read. -/
  | nvmeHealthPoll (t drive warning : Nat)
  /-- DRIVE_LOST (R304): A lost drive is reset, reels close their extent and continue on surviving members. -/
  | driveLost (t drive : Nat) (gone : Bool)
  /-- VOL_FORMAT (R306): str.vol_cmd = 1 formats every attached drive into a new volume. -/
  | volFormat (t path : Nat)
  /-- VOL_MOUNT (R306): str.vol_cmd = 2 mounts the volume from matching labels and recovers open reels. -/
  | volMount (t path : Nat) (found : List (Nat × Nat × Nat × Nat))
  /-- VOL_UNMOUNT (R306): str.vol_cmd = 3 unmounts the volume. -/
  | volUnmount (t path : Nat)
  /-- REEL_OPEN (R311): The open command writes a reel's directory entry and allocates its first extent. -/
  | reelOpen (t path : Nat)
  /-- REEL_START (R311): The start command begins recording at j = 0 with the reel slate, or is rejected with REEL_RATE. -/
  | reelStart (t path : Nat)
  /-- REEL_CLOSE (R311): The close command ends recording, flushes units and finalises the directory entry. -/
  | reelClose (t path : Nat)
  /-- REEL_DELETE (R311): The delete command deallocates a reel's extents and frees its entry. -/
  | reelDelete (t path : Nat)
  /-- REEL_UNIT_CLOSE (R310): A unit closes with header and records written and is submitted as NVMe writes. -/
  | reelUnitClose (t reel : Nat) (annex : Bool)
  /-- SPOOL_SLOT_FREE (R310): A freed spool slot ends a spool-full gap for a reel that was discarding samples. -/
  | spoolSlotFree (t reel : Nat)
  /-- PB_START (R313): The playback start command commits at a 1 us boundary and schedules release from T0. -/
  | pbStart (t path pb : Nat)
  /-- PB_STOP (R313): The playback stop command ends the channel at the next 1 us boundary. -/
  | pbStop (t path pb : Nat)
  /-- PB_PASS (R314): Each playback pass begins and writes a playback record, restarting at the next sample instant when looping. -/
  | pbPass (t pb : Nat)
  /-- PB_RELEASE (R313): A staged sample is released at its instant, or a cause 12 underflow gap is formed. -/
  | pbRelease (t pb : Nat) (staged : Bool) (v : Int × Int × Nat)
  /-- REF_INVALID (R328): A reference input fails activity or frequency and becomes invalid. -/
  | refInvalid (t input cause : Nat) (ppb : Int)
  /-- REF_VALID (R328): An input that has passed both tests for tb.ref_wait becomes valid. -/
  | refValid (t input : Nat) (ppb phi : Int)
  /-- REF_SWITCHOVER_DONE (R329): Lock on the new input is confirmed, the loop returns to state 2 and REF_SWITCH is raised. -/
  | refSwitchoverDone (t : Nat) (abPhase : Int)
  /-- SLEW_DONE (R336): A phase slew reaches zero offset and the loop returns to locked. -/
  | slewDone (t : Nat)
  /-- TIME_STEP (R336): At the first tick after it is decided, TIME96 and the loop phase move by the step, realigning links with a step-window gap. -/
  | timeStep (t : Nat)
  /-- PLL_HOP (R322): A hop request retunes an island PLL from a stored entry or a full search, gating or clamping its clock. -/
  | pllHop (t pll kHz : Nat)
  /-- PLL_HOP_LOCK (R322): A hopping PLL confirms lock, its clock resumes and a new search result is stored. -/
  | pllHopLock (t pll band fine postdiv : Nat)
  /-- PLL_LOSS_OF_LOCK (R326): An unrequested loss of lock relocks the PLL, falling back to 400 MHz or failing the island. -/
  | pllLossOfLock (t pll fails : Nat)
  /-- PPS_EDGE (R334): A PPS edge is stamped and, after averaging, its offset is removed by slew or step. -/
  | ppsEdge (t : Nat)
  /-- PPS_LOST (R334): No PPS edge for 2 s raises PPS_LOST and holds over. -/
  | ppsLost (t : Nat)
  /-- DC_SYNC0_SAMPLE (R334): A SYNC0 edge serves as a DC time sample averaged and removed like a PPS offset. -/
  | dcSync0Sample (t dcNs : Nat)
  /-- TIME_SET_AT_PPS (R335): tb.time_set_cmd = 1 applies tb.time_set_sec as a whole-second step at the next PPS edge. -/
  | timeSetAtPps (t path : Nat)
  /-- TIME_SET_AT_SECOND (R335): tb.time_set_cmd = 2 applies tb.time_set_sec at the next second boundary of the counter. -/
  | timeSetAtSecond (t path : Nat)
  /-- SYSREF_FIRE (R338): Writing 1 to tb.sysref_fire issues a burst of pulses from the first grid edge at least 1 us later. -/
  | sysrefFire (t path port : Nat)
  /-- IM_ARM (R357): The arm command starts a measurement, block or gate on an idle channel. -/
  | imArm (t path chan : Nat)
  /-- IM_ABORT (R357): The abort command ends work before its commit point, delivering a truncated result, or answers ALREADY_DONE. -/
  | imAbort (t path chan : Nat)
  /-- IM_CLEAR (R357): The clear command zeroes an idle channel's counts and last results. -/
  | imClear (t path chan : Nat)
  /-- IM_CHAN_DISABLE (R357): Setting im.chan_enable to 0 drains the channel's work in flight. -/
  | imChanDisable (t path chan : Nat)
  /-- IM_DRAIN_END (R357): A draining or cut-affected channel's work reaches its commit point or 50 us and is delivered. -/
  | imDrainEnd (t chan : Nat)
  /-- IM_EDGE_STAMP (R347): An input site stamps an edge after calibrating its interpolator, and channels on the site take starts or stops. -/
  | imEdgeStamp (t site edge k c1 c2 code : Nat)
  /-- IM_TIMEOUT (R351): No stop accepted by the window close ends the measurement with TIMEOUT. -/
  | imTimeout (t chan : Nat)
  /-- IM_GATE_END (R355): A frequency gate ends and the least-squares frequency is computed. -/
  | imGateEnd (t chan : Nat)
  /-- IM_FREQ_READY (R356): Within 2 us of a gate's end the frequency record is written. -/
  | imFreqReady (t chan : Nat)
  /-- HELLO_SEND (R367): Every 100 us a trained port sends a hello packet. -/
  | helloSend (t port : Nat)
  /-- HELLO_RECEIVE (R367): A hello arrives and the port comes up or is refused for cabling, identity or version. -/
  | helloReceive (t port w0 w1 : Nat) (body : List Byte)
  /-- PORT_DOWN (R370): A port goes down on loss of signal, codeword errors or 1 ms without hello, and traffic reroutes. -/
  | portDown (t port cause codewords : Nat)
  /-- LINK_STATE_FLOOD (R374): Every 10 ms, or on a port change, a module floods its link-state packet. -/
  | linkStateFlood (t : Nat)
  /-- LINK_STATE_RECEIVE (R374): A link-state packet updates the map and recomputes routes and broadcast extents. -/
  | linkStateReceive (t port w0 w1 : Nat) (body : List Byte)
  /-- KEYSTONE_CLAIM (R375): A keystone claim is flooded or received and the better key is adopted. -/
  | keystoneClaim (t port w0 w1 : Nat) (body : List Byte) (delta : Int)
  /-- TIMING_MARKER (R377): A timing marker departs or arrives on a port and is stamped. -/
  | timingMarker (t port dir stamp seq credit corrected lost : Nat)
  /-- TIME_REPORT_RECEIVE (R377): A time report gives a sample of link delay and child offset. -/
  | timeReportReceive (t port w0 w1 : Nat) (body : List Byte)
  /-- TIME_OFFSET_AVERAGE (R379): After cf.time_avg samples the averaged offset is removed by slew or step. -/
  | timeOffsetAverage (t : Nat) (ppb : Int)
  /-- STEP_NOTICE_RECEIVE (R379): A step notice schedules a step at its named tick, or at the next tick when late. -/
  | stepNoticeReceive (t port w0 w1 : Nat) (body : List Byte)
  /-- CF_JOIN (R373): cf.cmd = 1 starts a join: insert, train, receive the map, measure and step to system time. -/
  | cfJoin (t path : Nat)
  /-- AUTO_JOIN_START (R372): At rushes service or the changeover, by cf.auto_join, the module starts a join itself. -/
  | autoJoinStart (t : Nat)
  /-- JOIN_COMPLETE (R373): The join finishes with the module stepped to system time and cf.state 4, or isolated on failure. -/
  | joinComplete (t : Nat) (ok : Bool)
  /-- CF_LEAVE (R391): cf.cmd = 2 broadcasts leaving and releases the arrays after 50 us. -/
  | cfLeave (t path : Nat)
  /-- CF_LEAVE_RELEASE (R391): 50 us after a leave the module stops forwarding and releases both arrays. -/
  | cfLeaveRelease (t : Nat)
  /-- CF_PREPARE_SLOT (R392): cf.cmd = 3 prepares the named slot so neighbours route round it. -/
  | cfPrepareSlot (t path : Nat)
  /-- CF_RELEASE_SLOT (R392): cf.cmd = 4 ends the preparation of the named slot. -/
  | cfReleaseSlot (t path : Nat)
  /-- PREPARE_LAPSE (R392): A preparation ends 120 s after it was made with CF_PREPARE_LAPSED. -/
  | prepareLapse (t slot : Nat)
  /-- BCAST_ORIGINATE (R382): A waiting fire leaves as a trigger packet when its scope's origination rules allow. -/
  | bcastOriginate (t scope : Nat)
  /-- TRIGGER_PACKET_RECEIVE (R381): A trigger packet arrives, produces remote events, forwards copies and detects sequence gaps. -/
  | triggerPacketReceive (t port w0 w1 : Nat) (body : List Byte)
  /-- EVENT_PACKET_RECEIVE (R384): A fabric event packet is received and written into cf.event_ring. -/
  | eventPacketReceive (t port w0 w1 : Nat) (body : List Byte)
  /-- RDA_READ (R385): cf.rda_cmd = 1 sends a dictionary read request to a remote module. -/
  | rdaRead (t path : Nat)
  /-- RDA_WRITE (R385): cf.rda_cmd = 2 sends a dictionary write request to a remote module. -/
  | rdaWrite (t path : Nat)
  /-- RDA_RESPONSE (R385): A dictionary response arrives and completes the remote request. -/
  | rdaResponse (t port w0 w1 : Nat) (body : List Byte)
  /-- RDA_TIMEOUT (R385): No response within cf.rda_timeout ends the request in state 3. -/
  | rdaTimeout (t : Nat)
  /-- FABRIC_DICT_REQUEST (R413): A remote dictionary read or write is served on path 3 under the target's access rules. -/
  | fabricDictRequest (t port w0 w1 : Nat) (body : List Byte) (o : Outside)
  /-- FABRIC_DATA_RECEIVE (R386): A ring-data or copy-data packet is written to its destination and acknowledged. -/
  | fabricDataReceive (t port w0 w1 : Nat) (body : List Byte) (lens : List Nat) (lost : Nat)
  /-- FABRIC_ACK_RECEIVE (R387): An acknowledgement advances the source ring or copy. -/
  | fabricAckReceive (t port w0 w1 : Nat) (body : List Byte)
  /-- FABRIC_RETRANSMIT (R387): A data packet unacknowledged for 20 us is sent again. -/
  | fabricRetransmit (t dest : Nat)
  /-- DESTINATION_UNREACHABLE (R386): A destination unreachable beyond cf.data_timeout puts the source ring in state 4. -/
  | destinationUnreachable (t dest : Nat)
  /-- COPY_START (R388): cf.copy_cmd = 1 starts a copy of remote capture memory. -/
  | copyStart (t path : Nat)
  /-- COPY_ABORT (R388): cf.copy_cmd = 2 stops the copy before its last acknowledgement or answers ALREADY_DONE. -/
  | copyAbort (t path : Nat)
  /-- SDO_UPLOAD (R416): An SDO upload reads an entry over CoE, or aborts. -/
  | sdoUpload (t ix sub : Nat) (complete : Bool)
  /-- SDO_DOWNLOAD (R416): An SDO download writes an entry over CoE, or aborts. -/
  | sdoDownload (t ix sub : Nat) (complete : Bool) (data : List Byte) (o : Outside)
  /-- SDO_INFO (R416): The SDO information service returns object lists and descriptions. -/
  | sdoInfo (t kind ix sub : Nat)
  /-- BAR0_READ (R410): A BAR0 read returns an entry's value and status, latching the upper bytes for a consistent second read. -/
  | bar0Read (t offset width : Nat)
  /-- BAR0_WRITE (R410): A BAR0 write assembles and submits an entry value, or sets write_rejected. -/
  | bar0Write (t offset width value : Nat) (o : Outside)
  /-- BULK_WORD_READ (R411): A read of dict.bulk_word returns 8 bytes of a long entry and advances the offset. -/
  | bulkWordRead (t path : Nat)
  /-- BULK_WORD_WRITE (R411): A write of dict.bulk_word assembles 8 bytes and advances the offset. -/
  | bulkWordWrite (t path value : Nat)
  /-- BULK_LEN_SUBMIT (R411): Writing dict.bulk_len submits the assembled bytes as one write to the long entry. -/
  | bulkLenSubmit (t path len : Nat)
  /-- ECAT_STATE_REQUEST (R415): The master requests an EtherCAT state, accepted or refused with an AL status code. -/
  | ecatStateRequest (t state sm2 sm3 : Nat)
  /-- PDO_CYCLE (R418): RxPDO values are applied and TxPDO values latched, at buffer access or SYNC0. -/
  | pdoCycle (t : Nat) (rx tx : Bool) (outputs : List Byte)
  /-- SM2_WATCHDOG (R419): The SM2 watchdog expires in OP and the slave drops to SAFE-OP. -/
  | sm2Watchdog (t : Nat)
  /-- EMERGENCY_SEND (R420): A queued emergency leaves, at most one per 1 ms. -/
  | emergencySend (t : Nat)
  /-- ERROR_HISTORY_CLEAR (R421): Writing 0 to 0x1003.0 clears the error history. -/
  | errorHistoryClear (t path : Nat)
  /-- FOE_WRITE_IMAGE (R422): An FoE write of IMAGE places a firmware image in the slot not running. -/
  | foeWriteImage (t length version requires : Nat) (ok : Bool)
  /-- FOE_READ (R422): An FoE read returns ESI.XML, DICT.DSC or FAULTLOG. -/
  | foeRead (t file : Nat)
  /-- PWR_SLEEP (R430): Writing 1 to pwr.sleep requests module sleep, refused while work forbids it. -/
  | pwrSleep (t path wake : Nat)
  /-- MODULE_IDLE_TIMEOUT (R430): Expiry of pwr.module_idle_s requests module sleep. -/
  | moduleIdleTimeout (t wake : Nat)
  /-- SLEEP_ENTRY_DONE (R431): Islands drained, DRAM in self-refresh and optics off, pwr.state reads 2. -/
  | sleepEntryDone (t : Nat)
  /-- WAKE_SOURCE (R431): An enabled wake source wakes the sleeping module. -/
  | wakeSource (t source : Nat)
  /-- WAKE_TIMER_EXPIRY (R431): pwr.wake_timer seconds after entry to sleep, the timer wake source fires. -/
  | wakeTimerExpiry (t : Nat)
  /-- MODULE_WAKE_DONE (R431): Islands are back at their points, pwr.state reads 3 and a wake record is written. -/
  | moduleWakeDone (t : Nat)
  /-- ISLAND_IDLE_TIMEOUT (R433): An island idle for pwr.isl_idle_us is gated, and after ten times that goes asleep or off. -/
  | islandIdleTimeout (t isl : Nat) (request : Bool)
  /-- ISLAND_WAKE (R434): A write, cut, request or word wakes an island, which applies its shadow and waiting cut. -/
  | islandWake (t isl : Nat)
  /-- GOVERNOR_PERIOD (R439): Every pwr.gov_period the governor reads its monitors and sets operating points, widths and the DRAM rate. -/
  | governorPeriod (t moduleW : Nat) (temp : Int) (loads mws : List Nat) (traffic : Nat)
  /-- CAP_STEP_RELEASE (R442): Once per second below 95 % of the cap, the deepest cap step is released. -/
  | capStepRelease (t : Nat)
  /-- ISLAND_POINT_CHANGE (R437): An island changes operating point, ordering regulator slew and PLL hop in hardware. -/
  | islandPointChange (t isl : Nat)
  /-- DROOP_STRETCH (R437): An island voltage below its point's minimum stretches the clock. -/
  | droopStretch (t isl : Nat)
  /-- DRAM_COOL_RETURN (R444): After 16 MR4 reads at or below 85 C, the DRAM returns one point per second. -/
  | dramCoolReturn (t : Nat)
  /-- CAL_CALIBRATE (R457): cal.cmd = 1 starts a two-run calibration of the selected object. -/
  | calCalibrate (t path : Nat)
  /-- CAL_ABORT (R457): cal.cmd = 2 stops a calibration before its commit point or answers ALREADY_DONE. -/
  | calAbort (t path : Nat)
  /-- CAL_SAVE (R459): cal.cmd = 3 saves trims, calibrated values and certificate to flash. -/
  | calSave (t path : Nat) (flashOk : Bool)
  /-- CAL_RESTORE (R459): cal.cmd = 4 restores the saved values at the next engine cut. -/
  | calRestore (t path : Nat)
  /-- CAL_RUN_DONE (R456): A calibration run completes and, after two, the results are accepted and applied or retried. -/
  | calRunDone (t obj : Nat) (raw : Int) (edges spread : Nat) (margins : List Nat)
  /-- TRIM_LOOP_STEP (R458): A trim loop measures after settling and steps the code toward its target. -/
  | trimLoopStep (t trim : Nat) (measured : Int)
  /-- CAL_OBJECT_DUE (R461): An object becomes due by age, temperature or change, and self objects are recalibrated. -/
  | calObjectDue (t obj converters : Nat)
  /-- CTR_FREEZE (R473): Writing 1 to ctr.freeze, or a freeze-chain fire, latches every counter at the next tick. -/
  | ctrFreeze (t path : Nat)
  /-- CTR_RELEASE (R473): Writing 0 to ctr.freeze releases the frozen view at the next tick. -/
  | ctrRelease (t path : Nat)
  /-- CTR_FLAGS_CLEAR (R469): Writing 1 to the wrap bit of ctr.flags clears it. -/
  | ctrFlagsClear (t path : Nat)
  /-- CTR_SNAP_CMD (R474): Writing 1 to ctr.snap_cmd takes a snapshot at the next tick. -/
  | ctrSnapCmd (t path : Nat)
  /-- SNAP_PERIOD_TICK (R474): At every multiple of ctr.snap_period a snapshot is taken, or skipped if both banks are in use. -/
  | snapPeriodTick (t : Nat)
  /-- SAMPLER_CROSSING (R476): A watched counter passing base + kP writes a sample record. -/
  | samplerCrossing (t sampler count skid context : Nat)
  /-- FLT_REPOINT (R488): Writing flt.repoint starts the repointing of an instance by engine cut, update, self-test and rejoin. -/
  | fltRepoint (t path value : Nat)
  /-- FLT_REPOINT_ABORT (R488): Writing 0xFFFF to flt.repoint aborts the running repointing or answers ALREADY_DONE. -/
  | fltRepointAbort (t path : Nat)
  /-- REPOINT_SELFTEST_DONE (R488): An updated instance passes or fails its self-test and rejoins at the next cut. -/
  | repointSelftestDone (t : Nat) (ok : Bool)
  /-- STANDBY_SELFTEST (R485): Every 10 s idle standbys and spare ranks are self-tested, and a failure marks them failed. -/
  | standbySelftest (t unit : Nat) (ok : Bool)
  /-- IMG_ALLOCATE_STAGING (R489): flt.img_cmd = 1 allocates a 16 MiB staging region. -/
  | imgAllocateStaging (t path : Nat)
  /-- IMG_INSTALL (R489): flt.img_cmd = 2 checks the staged image and installs it as trial, or rejects it with IMAGE_INVALID. -/
  | imgInstall (t path version requires : Nat) (ok : Bool)
  /-- IMG_SWITCH (R490): flt.img_cmd = 3 restarts the Supervisor into the trial image and starts the repointing round. -/
  | imgSwitch (t path : Nat)
  /-- IMG_ABORT_SWITCH (R491): flt.img_cmd = 4 reverts a switch before confirmation or answers ALREADY_DONE. -/
  | imgAbortSwitch (t path : Nat)
  /-- UPDATE_CONFIRM (R491): The last instance of the round rejoins and the image is confirmed. -/
  | updateConfirm (t : Nat)
  /-- UPDATE_REVERT (R491): The switch reverts, repointing instances back in reverse order. -/
  | updateRevert (t : Nat)
  /-- DISABLE_DRAIN_END (R487): A disabled function's drain ends, or 50 us pass and the remainder is discarded with DRAIN_FORCED. -/
  | disableDrainEnd (t isl inst left : Nat)
  /-- FLT_LOG_CLEAR (R493): Writing 0x01 to flt.log_clear empties the fault log. -/
  | fltLogClear (t path : Nat)
  /-- HOST_BAR2_READ (R289): A host read of a BAR2 offset is served from capture memory through port 17, returning zeros outside allocations and a poisoned completion for a lost burst. -/
  | hostBar2Read (t addr len : Nat)
  /-- HOST_BAR2_WRITE (R289): A host write to a BAR2 offset is applied to capture memory through port 18, or discarded and counted outside every allocation. -/
  | hostBar2Write (t addr : Nat) (data : List Byte)
  /-- TIME_LOOP_LOCK (R339): The time loop confirms lock on its acquired input and moves from state 1 (acquiring) to state 2 (locked). -/
  | timeLoopLock (t : Nat)
  /-- PORT_TRAINED (R367): A ring port finishes training and starts exchanging hello packets. -/
  | portTrained (t port : Nat)
  /-- IM_GATE_START (R355): A frequency gate begins at the tick, start edge or grid instant that im.gate_align selects after the arm, and counting and stamping start. -/
  | imGateStart (t chan : Nat)
  /-- CHANNEL_RETIREMENT_STALL_END (R280): The full stall of up to 50 us that retires a DDR5 channel ends and service resumes on the remaining channels. -/
  | channelRetirementStallEnd (t : Nat)
  /-- ERROR_REGISTER_EXPIRY (R421): Ten seconds after the last qualifying fault or condition ends, its bits of 0x1001 clear and, when the register returns to 0, an emergency with code 0x0000 is sent. -/
  | errorRegisterExpiry (t : Nat)
  /-- TAKE_MEMORY_ERROR (R206): An uncorrectable error in the take memory history becomes a gap in every take that holds the word. -/
  | takeMemoryError (t mag first count : Nat)
  /-- PALETTE_ECC_ERROR (R250): An uncorrectable palette or cursor memory error is repaired from the Supervisor's shadow within 20 us. -/
  | paletteEccError (t : Nat)
  /-- DISPLAY_FRAME_START (R235): At the start of its first active line a display frame begins, and vp.frame increments. -/
  | displayFrameStart (t ecc : Nat)
deriving DecidableEq, Repr

end Sys2Proof
end

