-- ==== Sys2Proof/WellFormed.lean ====
section
/-! DEFINITION. Which commands name things the module has: a path of R403, and units within the numbers of the spec's tables. -/

namespace Sys2Proof

/-- An access path (R403). -/
def okPath (path : Nat) : Bool := 1 ≤ path && path ≤ 4

/-- A ring port (R368). -/
def okPort (port : Nat) : Bool := port < 4

/-- A stamping site, by its code (Table 13.1). -/
def okSite (site : Nat) : Bool := (0x10 ≤ site && site ≤ 0x2E) || (0x30 ≤ site && site ≤ 0x37)

/-- A PLL (Table 12.2). -/
def okPll (pll : Nat) : Bool := (1 ≤ pll && pll ≤ 0x0C) || (0x10 ≤ pll && pll ≤ 0x1A)

/-- A calibration object: kind and instance (Table 17.1). -/
def okCalObj (obj : Nat) : Bool :=
  let kind := obj / 256
  let count := if kind = 1 || kind = 6 then 16 else if kind = 2 then 9 else if kind = 3 || kind = 4 || kind = 7 then 4
    else if kind = 5 then 8 else if kind = 8 then 6 else if kind = 9 then 1 else 0
  obj % 256 < count

/-- A well-formed command: its path and its units exist. -/
def Instr.wf (i : Instr) : Bool :=
  match i with
  | .entryWrite _ path _ _ _ _ => okPath path
  | .hodWrite _ stream => 1 ≤ stream / 2 ^ 24 && stream / 2 ^ 24 ≤ 9
  | .hodBlockLeave _ stream => 1 ≤ stream / 2 ^ 24 && stream / 2 ^ 24 ≤ 9
  | .hodStreamResume _ stream => 1 ≤ stream / 2 ^ 24 && stream / 2 ^ 24 ≤ 9
  | .voluntaryStallStart _ _ chan _ => chan < 8
  | .pipelineCrossingOverflow _ isl inst _ _ => (isl = 1 && inst < 16) || (isl = 2 && (inst < 32 || (0x80 ≤ inst && inst < 0x84))) || (isl = 3 && inst < 16)
  | .cutCommit _ path => okPath path
  | .cutAbort _ path => okPath path
  | .cutDiscardStaged _ path => okPath path
  | .cutCommitPoint _ => true
  | .cutApply _ isl _ => 1 ≤ isl && isl ≤ 12
  | .supervisorRestart _ _ => true
  | .supervisorReturn _ _ => true
  | .epsWindowEnd _ _ _ => true
  | .auxEnterRange _ _ _ => true
  | .auxQualified _ => true
  | .auxLoss _ => true
  | .v12Good _ => true
  | .v12Brownout _ => true
  | .v12Overvoltage _ => true
  | .railOutOfRegulation _ rail _ _ => 1 ≤ rail && rail ≤ 8
  | .pwrGoodRise _ => true
  | .powerLossLogWrite _ => true
  | .resetNAssert _ _ => true
  | .resetNRelease _ _ => true
  | .modReset _ path => okPath path
  | .modResetRestart _ _ => true
  | .perstNAssert _ => true
  | .perstNRelease _ => true
  | .hostLinkUp _ _ _ => true
  | .thermalThrottle _ _ _ => true
  | .thermalTrip _ _ => true
  | .hwRestart _ path => okPath path
  | .dieCoolStart _ _ => true
  | .inletOverGrade _ _ => true
  | .bypassInsert _ dim => dim < 2
  | .bypassRelease _ dim => dim < 2
  | .bypassTransitionDone _ dim => dim < 2
  | .bypassStuck _ dim => dim < 2
  | .hwBypassForce _ path dim => okPath path && dim < 2
  | .ecatWatchdogExpiry _ => true
  | .relayFault _ => true
  | .ecatSlaveReady _ => true
  | .bootImageSelect _ _ _ => true
  | .supervisorStart _ => true
  | .trialWatchdogExpiry _ _ => true
  | .rushesStart _ => true
  | .bringupStepDone _ _ _ => true
  | .bringupTimeout _ _ _ => true
  | .fabricPortDark _ port => okPort port
  | .modChangeover _ path => okPath path
  | .changeoverComplete _ _ => true
  | .laneCalibrationDone _ lane _ => lane < 64
  | .laneCdrLock _ link => link < 16
  | .laneLock _ link _ => link < 16
  | .multiblockLock _ link _ _ _ => link < 16
  | .linkNoLock _ link _ => link < 16
  | .sysrefEdge _ port _ => port < 4
  | .sysrefAbsent _ link => link < 16
  | .multiblockRelease _ link _ _ _ _ => link < 16
  | .laneFault _ lane _ => lane < 64
  | .relinkComplete _ link => link < 16
  | .crcError _ lane _ _ => lane < 64
  | .ddcOutput _ ddc _ _ => ddc < 33
  | .ddcDrainTimeout _ ddc => ddc < 33
  | .detectorWindowClose _ ddc => ddc < 33
  | .ddcFault _ ddc => ddc < 32
  | .ddcSelftestDone _ ddc _ => ddc < 32
  | .ddcStandbyFail _ => true
  | .realToComplexParity _ link _ _ => link < 16 || (0x40 ≤ link && link < 0x44)
  | .chnRepoint _ path _ => okPath path
  | .chnRepointAbort _ path => okPath path
  | .ddcRepointHandover _ ddc _ => ddc < 32
  | .ddcUpdateDone _ _ => true
  | .speFrameDone _ layer _ core _ _ _ _ => layer < 16 && core < 33
  | .traceClose _ layer => layer < 16
  | .layerStopTimeout _ layer => layer < 16
  | .layerMemError _ layer _ _ => layer < 16
  | .coreFault _ core layer _ _ => core < 32 && layer < 16
  | .coreSelftestDone _ core _ => core < 32
  | .coreStandbyFail _ => true
  | .speRepoint _ path _ => okPath path
  | .speRepointAbort _ path => okPath path
  | .coreRepointHandover _ core _ => core < 32
  | .coreUpdateDone _ _ => true
  | .speUserCoef _ path _ => okPath path
  | .condEvent _ cond _ _ _ => cond < 64
  | .condTimeoutExpiry _ cond => cond < 64
  | .trgCondSoft _ path _ => okPath path
  | .sequencerEvent _ chain => chain < 16
  | .maskRestart _ path mask => okPath path && mask < 64
  | .maskClearCounts _ path mask => okPath path && mask < 64
  | .trgBpValue _ path _ => okPath path
  | .toutPulse _ tout => tout < 4
  | .magArm _ path => okPath path
  | .magDisarm _ path => okPath path
  | .magFree _ path => okPath path
  | .magFreeRelease _ mag => mag < 256
  | .magForceTrigger _ path => okPath path
  | .magClear _ path => okPath path
  | .takeComplete _ mag _ => mag < 256
  | .maskTableReload _ mask => mask < 64
  | .queueError _ cond => cond < 64
  | .bankFault _ inst => inst < 5
  | .planeFrameSettle _ plane _ => plane < 4
  | .planeExport _ plane => plane < 4
  | .planeMemError _ plane _ => plane < 4
  | .densityFault _ plane => plane < 4
  | .hpdPlug _ _ _ _ _ _ _ _ => true
  | .hpdIrq _ _ _ => true
  | .hpdUnplug _ => true
  | .dpLinkTrained _ _ => true
  | .vpEnable _ path _ => okPath path
  | .vpCommit _ path _ => okPath path
  | .vpLatchPoint _ => true
  | .vpAlloc _ path => okPath path
  | .vpFreeRequest _ path => okPath path
  | .vpCursorPixel _ path _ => okPath path
  | .readbackCheck _ red green blue => red < 65536 && green < 65536 && blue < 65536
  | .vpUnderrun _ layer _ => layer < 4
  | .composerFault _ => true
  | .regulatorRefill _ => true
  | .subchannelCommand _ chan sub _ _ => chan < 8 && sub < 2
  | .refreshDue _ chan rank => chan < 8 && rank < 5
  | .mr4Read _ chan _ _ => chan < 8
  | .rowActivate _ chan sub rank bank row => chan < 8 && sub < 2 && rank < 5 && bank < 32 && row < 16384
  | .neighbourRefresh _ chan sub rank bank row => chan < 8 && sub < 2 && rank < 5 && bank < 32 && row < 16384
  | .rowTableClear _ => true
  | .uncorrectableBurst _ addr => addr < 2 ^ 37
  | .sparingStallEnd _ chan => chan < 8
  | .migrationComplete _ chan => chan < 8
  | .ceLimitSpare _ chan rank => chan < 8 && rank < 5
  | .patrolScrub _ chan rank _ _ => chan < 8 && rank < 5
  | .retrainDue _ chan _ => chan < 8
  | .retrainStart _ chan => chan < 8
  | .retrainDone _ chan result rank => chan < 8 && result < 3 && rank < 5
  | .csStart _ path cs => okPath path && cs < 4
  | .csStop _ path cs => okPath path && cs < 4
  | .csFree _ path cs => okPath path && cs < 4
  | .csFreeRelease _ cs => cs < 4
  | .captureIdleSleep _ => true
  | .captureWake _ port => port < 24
  | .ringOpen _ path => okPath path
  | .ringClose _ path => okPath path
  | .ringCloseDrainEnd _ ring => ring < 65536
  | .ringPause _ path => okPath path
  | .ringResume _ path => okPath path
  | .ringRecord _ ring => ring < 65536
  | .ringSpaceAvailable _ ring => ring < 65536
  | .ringDoorbell _ ring _ => ring < 65536
  | .msixMessage _ ring => ring < 65536
  | .msixUnmask _ vector => vector < 2048
  | .ringContextError _ ring => ring < 65536
  | .hostLinkLoss _ => true
  | .driveInsert _ drive => drive < 8
  | .driveAttachDone _ drive _ _ _ _ _ _ _ _ _ _ => drive < 8
  | .driveDetach _ path _ => okPath path
  | .driveAttachCmd _ path _ => okPath path
  | .nvmeCompletionPoll _ drive _ => drive < 8
  | .nvmeCommandTimeout _ drive _ => drive < 8
  | .nvmeHealthPoll _ drive _ => drive < 8
  | .driveLost _ drive _ => drive < 8
  | .volFormat _ path => okPath path
  | .volMount _ path _ => okPath path
  | .volUnmount _ path => okPath path
  | .reelOpen _ path => okPath path
  | .reelStart _ path => okPath path
  | .reelClose _ path => okPath path
  | .reelDelete _ path => okPath path
  | .reelUnitClose _ reel _ => reel < 4096
  | .spoolSlotFree _ reel => reel < 4096
  | .pbStart _ path pb => okPath path && pb < 4
  | .pbStop _ path pb => okPath path && pb < 4
  | .pbPass _ pb => pb < 4
  | .pbRelease _ pb _ _ => pb < 4
  | .refInvalid _ input cause _ => input < 2 && (cause = 3 || cause = 4)
  | .refValid _ input _ _ => input < 2
  | .refSwitchoverDone _ _ => true
  | .slewDone _ => true
  | .timeStep _ => true
  | .pllHop _ pll _ => okPll pll
  | .pllHopLock _ pll _ _ _ => okPll pll
  | .pllLossOfLock _ pll _ => okPll pll
  | .ppsEdge _ => true
  | .ppsLost _ => true
  | .dcSync0Sample _ _ => true
  | .timeSetAtPps _ path => okPath path
  | .timeSetAtSecond _ path => okPath path
  | .sysrefFire _ path port => okPath path && port < 4
  | .imArm _ path chan => okPath path && chan < 10
  | .imAbort _ path chan => okPath path && chan < 10
  | .imClear _ path chan => okPath path && chan < 10
  | .imChanDisable _ path chan => okPath path && chan < 10
  | .imDrainEnd _ chan => chan < 10
  | .imEdgeStamp _ site edge _ _ _ _ => okSite site && edge < 2
  | .imTimeout _ chan => chan < 10
  | .imGateEnd _ chan => chan = 8 || chan = 9
  | .imFreqReady _ chan => chan = 8 || chan = 9
  | .helloSend _ port => okPort port
  | .helloReceive _ port _ _ _ => okPort port
  | .portDown _ port _ _ => okPort port
  | .linkStateFlood _ => true
  | .linkStateReceive _ port _ _ _ => okPort port
  | .keystoneClaim _ port _ _ _ _ => port < 5
  | .timingMarker _ port dir _ _ _ _ _ => okPort port && dir < 2
  | .timeReportReceive _ port _ _ _ => okPort port
  | .timeOffsetAverage _ _ => true
  | .stepNoticeReceive _ port _ _ _ => okPort port
  | .cfJoin _ path => okPath path
  | .autoJoinStart _ => true
  | .joinComplete _ _ => true
  | .cfLeave _ path => okPath path
  | .cfLeaveRelease _ => true
  | .cfPrepareSlot _ path => okPath path
  | .cfReleaseSlot _ path => okPath path
  | .prepareLapse _ _ => true
  | .bcastOriginate _ scope => scope < 2
  | .triggerPacketReceive _ port _ _ _ => okPort port
  | .eventPacketReceive _ port _ _ _ => okPort port
  | .rdaRead _ path => okPath path
  | .rdaWrite _ path => okPath path
  | .rdaResponse _ port _ _ _ => okPort port
  | .rdaTimeout _ => true
  | .fabricDictRequest _ port _ _ _ _ => okPort port
  | .fabricDataReceive _ port _ _ _ _ _ => okPort port
  | .fabricAckReceive _ port _ _ _ => okPort port
  | .fabricRetransmit _ dest => dest < 1024
  | .destinationUnreachable _ dest => dest < 1024
  | .copyStart _ path => okPath path
  | .copyAbort _ path => okPath path
  | .sdoUpload _ _ _ _ => true
  | .sdoDownload _ _ _ _ _ _ => true
  | .sdoInfo _ _ _ _ => true
  | .bar0Read _ _ _ => true
  | .bar0Write _ _ _ _ _ => true
  | .bulkWordRead _ path => okPath path
  | .bulkWordWrite _ path _ => okPath path
  | .bulkLenSubmit _ path _ => okPath path
  | .ecatStateRequest _ _ _ _ => true
  | .pdoCycle _ _ _ _ => true
  | .sm2Watchdog _ => true
  | .emergencySend _ => true
  | .errorHistoryClear _ path => okPath path
  | .foeWriteImage _ _ _ _ _ => true
  | .foeRead _ _ => true
  | .pwrSleep _ path _ => okPath path
  | .moduleIdleTimeout _ _ => true
  | .sleepEntryDone _ => true
  | .wakeSource _ _ => true
  | .wakeTimerExpiry _ => true
  | .moduleWakeDone _ => true
  | .islandIdleTimeout _ isl _ => 1 ≤ isl && isl ≤ 12
  | .islandWake _ isl => 1 ≤ isl && isl ≤ 12
  | .governorPeriod _ _ _ _ _ _ => true
  | .capStepRelease _ => true
  | .islandPointChange _ isl => 6 ≤ isl && isl ≤ 12
  | .droopStretch _ isl => 1 ≤ isl && isl ≤ 12
  | .dramCoolReturn _ => true
  | .calCalibrate _ path => okPath path
  | .calAbort _ path => okPath path
  | .calSave _ path _ => okPath path
  | .calRestore _ path => okPath path
  | .calRunDone _ obj _ _ _ _ => okCalObj obj
  | .trimLoopStep _ trim _ => trim < 16
  | .calObjectDue _ obj _ => okCalObj obj
  | .ctrFreeze _ path => okPath path
  | .ctrRelease _ path => okPath path
  | .ctrFlagsClear _ path => okPath path
  | .ctrSnapCmd _ path => okPath path
  | .snapPeriodTick _ => true
  | .samplerCrossing _ sampler _ _ _ => sampler < 16
  | .fltRepoint _ path _ => okPath path
  | .fltRepointAbort _ path => okPath path
  | .repointSelftestDone _ _ => true
  | .standbySelftest _ unit _ => unit < 2 || (0x10 ≤ unit && unit < 0x18)
  | .imgAllocateStaging _ path => okPath path
  | .imgInstall _ path _ _ _ => okPath path
  | .imgSwitch _ path => okPath path
  | .imgAbortSwitch _ path => okPath path
  | .updateConfirm _ => true
  | .updateRevert _ => true
  | .disableDrainEnd _ _ _ _ => true
  | .fltLogClear _ path => okPath path
  | .hostBar2Read _ addr len => addr + len ≤ 2 ^ 37
  | .hostBar2Write _ addr data => addr + data.length ≤ 2 ^ 37
  | .timeLoopLock _ => true
  | .portTrained _ port => okPort port
  | .imGateStart _ chan => chan = 8 || chan = 9
  | .channelRetirementStallEnd _ => true
  | .errorRegisterExpiry _ => true
  | .takeMemoryError _ mag _ _ => mag < 256
  | .paletteEccError _ => true
  | .displayFrameStart _ _ => true

end Sys2Proof
end

