-- ==== Sys2Proof/Config.lean ====
section
/-! DEFINITION. What the spec leaves open: constants without a body, so that no proof can see their values (log entry 6).
Each is applied to the operands it depends on, or to the counter `drawn` of the state. -/

namespace Sys2Proof.Config

/-- A fresh open value of the given number of bits. -/
opaque freeValue (bits drawn : Nat) : Nat

/-- Numerically controlled oscillator: how far the last of the 25 bits of a sine lies from the exact value at a 48-bit phase, which R114 leaves
open; taken as −1, 0 or 1. -/
opaque ncoLast (phase : Nat) : Int

/-- A tap of a filter that the running image carries (R116): code of `chn.coef_sel`, tap number. The coefficients are the image's own; what R116
fixes for every image is made of them in `filterTap`. -/
opaque imageTap (code tap : Nat) : Int

/-- A tap of the fractional-delay interpolator (R124 lists none): fraction, tap number. -/
opaque interpTap (frac tap : Nat) : Int

/-- Whether the host's read completion boundary is 128 bytes and not 64 (R289 names both; the host's root complex has one). -/
opaque wideReadBoundary : Bool

/-- Bytes of a description file of the running image (R426): file 0 ESI.XML, 1 DICT.DSC. -/
opaque descByte (file offset : Nat) : Nat

/-- Length of a description file of the running image. -/
opaque descLength (file : Nat) : Nat

/-- The description revision an image of a version carries (R426). -/
opaque descRev (version : Nat) : Nat

/-- How an island's slots fall into their classes (R470), which depends on its work clock by clock: the counter, the instant. -/
opaque slotShare (counter instant : Nat) : Nat

/-- The loop delay of a ring port as the factory measured it, fs (Table 17.1). -/
opaque factoryLoop (port : Nat) : Int

end Sys2Proof.Config
end

