-- ==== Sys2Proof/Machine/Index.lean ====
section
/-! DEFINITION. The index of every entry of the dictionary, by the name the spec gives it (R397). -/

namespace Sys2Proof.Ix

/-- `mod.cut_commit`. -/
@[simp, reducible] def modCutCommit : Nat := 0x2040
/-- `mod.cut_at_sec`. -/
@[simp, reducible] def modCutAtSec : Nat := 0x2041
/-- `mod.cut_at_frac`. -/
@[simp, reducible] def modCutAtFrac : Nat := 0x2041
/-- `mod.cut_seq`. -/
@[simp, reducible] def modCutSeq : Nat := 0x2042
/-- `mod.cut_state`. -/
@[simp, reducible] def modCutState : Nat := 0x2043
/-- `pwr.eps_window`. -/
@[simp, reducible] def pwrEpsWindow : Nat := 0x2120
/-- `pwr.eps_live`. -/
@[simp, reducible] def pwrEpsLive : Nat := 0x2121
/-- `pwr.analysis_energy`. -/
@[simp, reducible] def pwrAnalysisEnergy : Nat := 0x2122
/-- `pwr.analysed_samples`. -/
@[simp, reducible] def pwrAnalysedSamples : Nat := 0x2123
/-- `pwr.module_energy`. -/
@[simp, reducible] def pwrModuleEnergy : Nat := 0x2124
/-- `mod.part`. -/
@[simp, reducible] def modPart : Nat := 0x2000
/-- `mod.grade`. -/
@[simp, reducible] def modGrade : Nat := 0x2000
/-- `mod.serial`. -/
@[simp, reducible] def modSerial : Nat := 0x2000
/-- `mod.hw_issue`. -/
@[simp, reducible] def modHwIssue : Nat := 0x2000
/-- `mod.slot_id`. -/
@[simp, reducible] def modSlotId : Nat := 0x2000
/-- `mod.conv_present`. -/
@[simp, reducible] def modConvPresent : Nat := 0x2000
/-- `mod.drive_present`. -/
@[simp, reducible] def modDrivePresent : Nat := 0x2000
/-- `hw.rail_mv`. -/
@[simp, reducible] def hwRailMv : Nat := 0x2010
/-- `hw.rail_ma`. -/
@[simp, reducible] def hwRailMa : Nat := 0x2011
/-- `hw.temp`. -/
@[simp, reducible] def hwTemp : Nat := 0x2012
/-- `hw.temp_throttle`. -/
@[simp, reducible] def hwTempThrottle : Nat := 0x2013
/-- `hw.temp_trip`. -/
@[simp, reducible] def hwTempTrip : Nat := 0x2014
/-- `hw.restart`. -/
@[simp, reducible] def hwRestart : Nat := 0x2015
/-- `hw.bypass_state`. -/
@[simp, reducible] def hwBypassState : Nat := 0x2018
/-- `hw.bypass_force`. -/
@[simp, reducible] def hwBypassForce : Nat := 0x2019
/-- `hw.bypass_cycles`. -/
@[simp, reducible] def hwBypassCycles : Nat := 0x201A
/-- `hw.ecat_relay`. -/
@[simp, reducible] def hwEcatRelay : Nat := 0x201B
/-- `hw.unlogged_loss`. -/
@[simp, reducible] def hwUnloggedLoss : Nat := 0x201C
/-- `mod.service`. -/
@[simp, reducible] def modService : Nat := 0x2050
/-- `mod.bringup`. -/
@[simp, reducible] def modBringup : Nat := 0x2051
/-- `mod.changeover_auto`. -/
@[simp, reducible] def modChangeoverAuto : Nat := 0x2052
/-- `mod.changeover`. -/
@[simp, reducible] def modChangeover : Nat := 0x2053
/-- `mod.changeover_sec`. -/
@[simp, reducible] def modChangeoverSec : Nat := 0x2054
/-- `mod.changeover_frac`. -/
@[simp, reducible] def modChangeoverFrac : Nat := 0x2054
/-- `mod.memtest`. -/
@[simp, reducible] def modMemtest : Nat := 0x2055
/-- `mod.boot_select`. -/
@[simp, reducible] def modBootSelect : Nat := 0x2056
/-- `mod.boot_image`. -/
@[simp, reducible] def modBootImage : Nat := 0x2057
/-- `mod.image_state`. -/
@[simp, reducible] def modImageState : Nat := 0x2058
/-- `mod.boot_count`. -/
@[simp, reducible] def modBootCount : Nat := 0x2059
/-- `mod.fallback_count`. -/
@[simp, reducible] def modFallbackCount : Nat := 0x205A
/-- `mod.reset`. -/
@[simp, reducible] def modReset : Nat := 0x205B
/-- `mod.rushes_ms`. -/
@[simp, reducible] def modRushesMs : Nat := 0x205C
/-- `mod.full_ms`. -/
@[simp, reducible] def modFullMs : Nat := 0x205C
/-- `itk.layout`. -/
@[simp, reducible] def itkLayout : Nat := 0x2800
/-- `itk.mode`. -/
@[simp, reducible] def itkMode : Nat := 0x2810
/-- `itk.n`. -/
@[simp, reducible] def itkN : Nat := 0x2811
/-- `itk.fs`. -/
@[simp, reducible] def itkFs : Nat := 0x2812
/-- `itk.k`. -/
@[simp, reducible] def itkK : Nat := 0x2813
/-- `itk.scramble`. -/
@[simp, reducible] def itkScramble : Nat := 0x2814
/-- `itk.release_offset`. -/
@[simp, reducible] def itkReleaseOffset : Nat := 0x2815
/-- `itk.link_latency`. -/
@[simp, reducible] def itkLinkLatency : Nat := 0x2816
/-- `itk.ovr_src`. -/
@[simp, reducible] def itkOvrSrc : Nat := 0x2817
/-- `itk.ovr_bit`. -/
@[simp, reducible] def itkOvrBit : Nat := 0x2818
/-- `itk.crc_check`. -/
@[simp, reducible] def itkCrcCheck : Nat := 0x2819
/-- `itk.iq_swap`. -/
@[simp, reducible] def itkIqSwap : Nat := 0x281A
/-- `itk.relink`. -/
@[simp, reducible] def itkRelink : Nat := 0x281B
/-- `itk.sysref_src`. -/
@[simp, reducible] def itkSysrefSrc : Nat := 0x2820
/-- `itk.sysref_mode`. -/
@[simp, reducible] def itkSysrefMode : Nat := 0x2821
/-- `itk.sysref_delay`. -/
@[simp, reducible] def itkSysrefDelay : Nat := 0x2822
/-- `itk.sysref_margin`. -/
@[simp, reducible] def itkSysrefMargin : Nat := 0x2823
/-- `itk.lane_map`. -/
@[simp, reducible] def itkLaneMap : Nat := 0x2830
/-- `itk.lane_invert`. -/
@[simp, reducible] def itkLaneInvert : Nat := 0x2831
/-- `itk.prbs`. -/
@[simp, reducible] def itkPrbs : Nat := 0x2832
/-- `itk.link_state`. -/
@[simp, reducible] def itkLinkState : Nat := 0x2840
/-- `itk.release_margin`. -/
@[simp, reducible] def itkReleaseMargin : Nat := 0x2841
/-- `itk.release_suggest`. -/
@[simp, reducible] def itkReleaseSuggest : Nat := 0x2842
/-- `itk.sysref_sec`. -/
@[simp, reducible] def itkSysrefSec : Nat := 0x2843
/-- `itk.sysref_frac`. -/
@[simp, reducible] def itkSysrefFrac : Nat := 0x2844
/-- `itk.ovr_count`. -/
@[simp, reducible] def itkOvrCount : Nat := 0x2845
/-- `itk.gap_samples`. -/
@[simp, reducible] def itkGapSamples : Nat := 0x2846
/-- `itk.relinks`. -/
@[simp, reducible] def itkRelinks : Nat := 0x2847
/-- `itk.sysref_drift`. -/
@[simp, reducible] def itkSysrefDrift : Nat := 0x2848
/-- `itk.lane_status`. -/
@[simp, reducible] def itkLaneStatus : Nat := 0x2850
/-- `itk.lane_arrival`. -/
@[simp, reducible] def itkLaneArrival : Nat := 0x2851
/-- `itk.crc_errors`. -/
@[simp, reducible] def itkCrcErrors : Nat := 0x2852
/-- `itk.code_errors`. -/
@[simp, reducible] def itkCodeErrors : Nat := 0x2853
/-- `itk.prbs_errors`. -/
@[simp, reducible] def itkPrbsErrors : Nat := 0x2854
/-- `chn.real_flip`. -/
@[simp, reducible] def chnRealFlip : Nat := 0x3000
/-- `chn.lane_src`. -/
@[simp, reducible] def chnLaneSrc : Nat := 0x3001
/-- `chn.src`. -/
@[simp, reducible] def chnSrc : Nat := 0x3010
/-- `chn.nco_freq`. -/
@[simp, reducible] def chnNcoFreq : Nat := 0x3011
/-- `chn.nco_phase`. -/
@[simp, reducible] def chnNcoPhase : Nat := 0x3012
/-- `chn.retune_mode`. -/
@[simp, reducible] def chnRetuneMode : Nat := 0x3013
/-- `chn.depth`. -/
@[simp, reducible] def chnDepth : Nat := 0x3014
/-- `chn.filter_set`. -/
@[simp, reducible] def chnFilterSet : Nat := 0x3015
/-- `chn.delay_int`. -/
@[simp, reducible] def chnDelayInt : Nat := 0x3016
/-- `chn.delay_frac`. -/
@[simp, reducible] def chnDelayFrac : Nat := 0x3017
/-- `chn.frac_en`. -/
@[simp, reducible] def chnFracEn : Nat := 0x3018
/-- `chn.gain_shift`. -/
@[simp, reducible] def chnGainShift : Nat := 0x3019
/-- `chn.settle_policy`. -/
@[simp, reducible] def chnSettlePolicy : Nat := 0x301A
/-- `chn.det_window`. -/
@[simp, reducible] def chnDetWindow : Nat := 0x301B
/-- `chn.env_attack`. -/
@[simp, reducible] def chnEnvAttack : Nat := 0x301C
/-- `chn.env_release`. -/
@[simp, reducible] def chnEnvRelease : Nat := 0x301D
/-- `chn.det_ring`. -/
@[simp, reducible] def chnDetRing : Nat := 0x301E
/-- `chn.state`. -/
@[simp, reducible] def chnState : Nat := 0x3020
/-- `chn.f_out`. -/
@[simp, reducible] def chnFOut : Nat := 0x3021
/-- `chn.det_peak`. -/
@[simp, reducible] def chnDetPeak : Nat := 0x3022
/-- `chn.det_mean`. -/
@[simp, reducible] def chnDetMean : Nat := 0x3023
/-- `chn.det_env`. -/
@[simp, reducible] def chnDetEnv : Nat := 0x3024
/-- `chn.sat_count`. -/
@[simp, reducible] def chnSatCount : Nat := 0x3025
/-- `chn.unsettled`. -/
@[simp, reducible] def chnUnsettled : Nat := 0x3026
/-- `chn.gap_samples`. -/
@[simp, reducible] def chnGapSamples : Nat := 0x3027
/-- `chn.ovr_count`. -/
@[simp, reducible] def chnOvrCount : Nat := 0x3028
/-- `chn.ecc_corrected`. -/
@[simp, reducible] def chnEccCorrected : Nat := 0x3029
/-- `chn.group_delay`. -/
@[simp, reducible] def chnGroupDelay : Nat := 0x302A
/-- `chn.standby_for`. -/
@[simp, reducible] def chnStandbyFor : Nat := 0x3030
/-- `chn.repoint`. -/
@[simp, reducible] def chnRepoint : Nat := 0x3031
/-- `chn.repoint_state`. -/
@[simp, reducible] def chnRepointState : Nat := 0x3032
/-- `chn.width`. -/
@[simp, reducible] def chnWidth : Nat := 0x3033
/-- `chn.coef_sel`. -/
@[simp, reducible] def chnCoefSel : Nat := 0x3040
/-- `chn.coef`. -/
@[simp, reducible] def chnCoef : Nat := 0x3041
/-- `spe.layer_src`. -/
@[simp, reducible] def speLayerSrc : Nat := 0x3400
/-- `spe.layer_len`. -/
@[simp, reducible] def speLayerLen : Nat := 0x3401
/-- `spe.hop_shift`. -/
@[simp, reducible] def speHopShift : Nat := 0x3402
/-- `spe.window`. -/
@[simp, reducible] def speWindow : Nat := 0x3403
/-- `spe.kaiser_beta`. -/
@[simp, reducible] def speKaiserBeta : Nat := 0x3404
/-- `spe.gauss_sigma`. -/
@[simp, reducible] def speGaussSigma : Nat := 0x3405
/-- `spe.det`. -/
@[simp, reducible] def speDet : Nat := 0x3406
/-- `spe.det_count`. -/
@[simp, reducible] def speDetCount : Nat := 0x3407
/-- `spe.det_bins`. -/
@[simp, reducible] def speDetBins : Nat := 0x3408
/-- `spe.rec_format`. -/
@[simp, reducible] def speRecFormat : Nat := 0x3409
/-- `spe.rec_first`. -/
@[simp, reducible] def speRecFirst : Nat := 0x340A
/-- `spe.rec_count`. -/
@[simp, reducible] def speRecCount : Nat := 0x340B
/-- `spe.ring`. -/
@[simp, reducible] def speRing : Nat := 0x340C
/-- `spe.gap_policy`. -/
@[simp, reducible] def speGapPolicy : Nat := 0x340D
/-- `spe.layer_cost`. -/
@[simp, reducible] def speLayerCost : Nat := 0x3410
/-- `spe.layer_mem`. -/
@[simp, reducible] def speLayerMem : Nat := 0x3411
/-- `spe.enbw`. -/
@[simp, reducible] def speEnbw : Nat := 0x3412
/-- `spe.scallop`. -/
@[simp, reducible] def speScallop : Nat := 0x3413
/-- `spe.intercept`. -/
@[simp, reducible] def speIntercept : Nat := 0x3414
/-- `spe.latency`. -/
@[simp, reducible] def speLatency : Nat := 0x3415
/-- `spe.floor`. -/
@[simp, reducible] def speFloor : Nat := 0x3416
/-- `spe.centre`. -/
@[simp, reducible] def speCentre : Nat := 0x3417
/-- `spe.usable_first`. -/
@[simp, reducible] def speUsableFirst : Nat := 0x3418
/-- `spe.usable_count`. -/
@[simp, reducible] def speUsableCount : Nat := 0x3419
/-- `spe.frames`. -/
@[simp, reducible] def speFrames : Nat := 0x341A
/-- `spe.frames_lost`. -/
@[simp, reducible] def speFramesLost : Nat := 0x341B
/-- `spe.traces`. -/
@[simp, reducible] def speTraces : Nat := 0x341C
/-- `spe.sat_count`. -/
@[simp, reducible] def speSatCount : Nat := 0x341D
/-- `spe.user_layer`. -/
@[simp, reducible] def speUserLayer : Nat := 0x3420
/-- `spe.user_index`. -/
@[simp, reducible] def speUserIndex : Nat := 0x3421
/-- `spe.user_coef`. -/
@[simp, reducible] def speUserCoef : Nat := 0x3422
/-- `spe.lane_cost`. -/
@[simp, reducible] def speLaneCost : Nat := 0x3430
/-- `spe.lane_frames`. -/
@[simp, reducible] def speLaneFrames : Nat := 0x3431
/-- `spe.lane_mem`. -/
@[simp, reducible] def speLaneMem : Nat := 0x3432
/-- `spe.width`. -/
@[simp, reducible] def speWidth : Nat := 0x3433
/-- `spe.core_state`. -/
@[simp, reducible] def speCoreState : Nat := 0x3440
/-- `spe.ecc_corrected`. -/
@[simp, reducible] def speEccCorrected : Nat := 0x3441
/-- `spe.standby_for`. -/
@[simp, reducible] def speStandbyFor : Nat := 0x3450
/-- `spe.repoint`. -/
@[simp, reducible] def speRepoint : Nat := 0x3451
/-- `spe.repoint_state`. -/
@[simp, reducible] def speRepointState : Nat := 0x3452
/-- `trg.cond_type`. -/
@[simp, reducible] def trgCondType : Nat := 0x3800
/-- `trg.cond_src`. -/
@[simp, reducible] def trgCondSrc : Nat := 0x3801
/-- `trg.cond_qty`. -/
@[simp, reducible] def trgCondQty : Nat := 0x3802
/-- `trg.cond_polarity`. -/
@[simp, reducible] def trgCondPolarity : Nat := 0x3803
/-- `trg.cond_level_a`. -/
@[simp, reducible] def trgCondLevelA : Nat := 0x3804
/-- `trg.cond_level_b`. -/
@[simp, reducible] def trgCondLevelB : Nat := 0x3805
/-- `trg.cond_hyst`. -/
@[simp, reducible] def trgCondHyst : Nat := 0x3806
/-- `trg.cond_time_a`. -/
@[simp, reducible] def trgCondTimeA : Nat := 0x3807
/-- `trg.cond_time_b`. -/
@[simp, reducible] def trgCondTimeB : Nat := 0x3808
/-- `trg.cond_compare`. -/
@[simp, reducible] def trgCondCompare : Nat := 0x3809
/-- `trg.cond_remote_mod`. -/
@[simp, reducible] def trgCondRemoteMod : Nat := 0x380A
/-- `trg.cond_log`. -/
@[simp, reducible] def trgCondLog : Nat := 0x380B
/-- `trg.cond_soft`. -/
@[simp, reducible] def trgCondSoft : Nat := 0x380C
/-- `trg.cond_horizon`. -/
@[simp, reducible] def trgCondHorizon : Nat := 0x3810
/-- `trg.cond_events`. -/
@[simp, reducible] def trgCondEvents : Nat := 0x3811
/-- `trg.cond_merged`. -/
@[simp, reducible] def trgCondMerged : Nat := 0x3812
/-- `trg.skew_link`. -/
@[simp, reducible] def trgSkewLink : Nat := 0x3813
/-- `trg.skew_tin`. -/
@[simp, reducible] def trgSkewTin : Nat := 0x3814
/-- `trg.remote_horizon`. -/
@[simp, reducible] def trgRemoteHorizon : Nat := 0x3815
/-- `trg.remote_late`. -/
@[simp, reducible] def trgRemoteLate : Nat := 0x3816
/-- `trg.mask_layer`. -/
@[simp, reducible] def trgMaskLayer : Nat := 0x3820
/-- `trg.mask_min_bins`. -/
@[simp, reducible] def trgMaskMinBins : Nat := 0x3821
/-- `trg.mask_stop`. -/
@[simp, reducible] def trgMaskStop : Nat := 0x3822
/-- `trg.mask_log`. -/
@[simp, reducible] def trgMaskLog : Nat := 0x3823
/-- `trg.mask_bp_count`. -/
@[simp, reducible] def trgMaskBpCount : Nat := 0x3824
/-- `trg.mask_cmd`. -/
@[simp, reducible] def trgMaskCmd : Nat := 0x3825
/-- `trg.mask_state`. -/
@[simp, reducible] def trgMaskState : Nat := 0x3826
/-- `trg.mask_pass`. -/
@[simp, reducible] def trgMaskPass : Nat := 0x3827
/-- `trg.mask_fail`. -/
@[simp, reducible] def trgMaskFail : Nat := 0x3828
/-- `trg.mask_skipped`. -/
@[simp, reducible] def trgMaskSkipped : Nat := 0x3829
/-- `trg.mask_lost`. -/
@[simp, reducible] def trgMaskLost : Nat := 0x382A
/-- `trg.mask_worst`. -/
@[simp, reducible] def trgMaskWorst : Nat := 0x382B
/-- `trg.bp_mask`. -/
@[simp, reducible] def trgBpMask : Nat := 0x3830
/-- `trg.bp_index`. -/
@[simp, reducible] def trgBpIndex : Nat := 0x3831
/-- `trg.bp_value`. -/
@[simp, reducible] def trgBpValue : Nat := 0x3832
/-- `trg.chain_stages`. -/
@[simp, reducible] def trgChainStages : Nat := 0x3840
/-- `trg.chain_order`. -/
@[simp, reducible] def trgChainOrder : Nat := 0x3841
/-- `trg.chain_holdoff`. -/
@[simp, reducible] def trgChainHoldoff : Nat := 0x3842
/-- `trg.chain_reset`. -/
@[simp, reducible] def trgChainReset : Nat := 0x3843
/-- `trg.chain_bcast`. -/
@[simp, reducible] def trgChainBcast : Nat := 0x3844
/-- `trg.chain_log`. -/
@[simp, reducible] def trgChainLog : Nat := 0x3845
/-- `trg.chain_horizon`. -/
@[simp, reducible] def trgChainHorizon : Nat := 0x3846
/-- `trg.chain_fires`. -/
@[simp, reducible] def trgChainFires : Nat := 0x3847
/-- `trg.chain_held`. -/
@[simp, reducible] def trgChainHeld : Nat := 0x3848
/-- `trg.chain_stage`. -/
@[simp, reducible] def trgChainStage : Nat := 0x3849
/-- `trg.stage_set`. -/
@[simp, reducible] def trgStageSet : Nat := 0x3850
/-- `trg.stage_mode`. -/
@[simp, reducible] def trgStageMode : Nat := 0x3851
/-- `trg.stage_n`. -/
@[simp, reducible] def trgStageN : Nat := 0x3852
/-- `trg.stage_window`. -/
@[simp, reducible] def trgStageWindow : Nat := 0x3853
/-- `trg.stage_next`. -/
@[simp, reducible] def trgStageNext : Nat := 0x3854
/-- `trg.tout_src`. -/
@[simp, reducible] def trgToutSrc : Nat := 0x3860
/-- `trg.tout_delay`. -/
@[simp, reducible] def trgToutDelay : Nat := 0x3861
/-- `trg.tout_width`. -/
@[simp, reducible] def trgToutWidth : Nat := 0x3862
/-- `trg.tout_count`. -/
@[simp, reducible] def trgToutCount : Nat := 0x3863
/-- `trg.event_ring`. -/
@[simp, reducible] def trgEventRing : Nat := 0x3870
/-- `trg.events_lost`. -/
@[simp, reducible] def trgEventsLost : Nat := 0x3871
/-- `trg.history_free`. -/
@[simp, reducible] def trgHistoryFree : Nat := 0x3872
/-- `trg.ecc_corrected`. -/
@[simp, reducible] def trgEccCorrected : Nat := 0x3873
/-- `trg.mag_sel`. -/
@[simp, reducible] def trgMagSel : Nat := 0x3880
/-- `trg.mag_chain`. -/
@[simp, reducible] def trgMagChain : Nat := 0x3881
/-- `trg.mag_chan`. -/
@[simp, reducible] def trgMagChan : Nat := 0x3882
/-- `trg.mag_format`. -/
@[simp, reducible] def trgMagFormat : Nat := 0x3883
/-- `trg.mag_pre`. -/
@[simp, reducible] def trgMagPre : Nat := 0x3884
/-- `trg.mag_post`. -/
@[simp, reducible] def trgMagPost : Nat := 0x3885
/-- `trg.mag_size`. -/
@[simp, reducible] def trgMagSize : Nat := 0x3886
/-- `trg.mag_mode`. -/
@[simp, reducible] def trgMagMode : Nat := 0x3887
/-- `trg.mag_history`. -/
@[simp, reducible] def trgMagHistory : Nat := 0x3888
/-- `trg.mag_spill`. -/
@[simp, reducible] def trgMagSpill : Nat := 0x3889
/-- `trg.mag_spill_reel`. -/
@[simp, reducible] def trgMagSpillReel : Nat := 0x388A
/-- `trg.mag_ring`. -/
@[simp, reducible] def trgMagRing : Nat := 0x388B
/-- `trg.mag_cmd`. -/
@[simp, reducible] def trgMagCmd : Nat := 0x388C
/-- `trg.mag_state`. -/
@[simp, reducible] def trgMagState : Nat := 0x388D
/-- `trg.mag_takes`. -/
@[simp, reducible] def trgMagTakes : Nat := 0x388E
/-- `trg.mag_capacity`. -/
@[simp, reducible] def trgMagCapacity : Nat := 0x388F
/-- `trg.mag_slot_bytes`. -/
@[simp, reducible] def trgMagSlotBytes : Nat := 0x3890
/-- `trg.mag_history_bytes`. -/
@[simp, reducible] def trgMagHistoryBytes : Nat := 0x3891
/-- `trg.mag_missed`. -/
@[simp, reducible] def trgMagMissed : Nat := 0x3892
/-- `trg.mag_seq`. -/
@[simp, reducible] def trgMagSeq : Nat := 0x3893
/-- `trg.mag_base`. -/
@[simp, reducible] def trgMagBase : Nat := 0x3894
/-- `trg.mag_log_base`. -/
@[simp, reducible] def trgMagLogBase : Nat := 0x3895
/-- `trg.take_sel`. -/
@[simp, reducible] def trgTakeSel : Nat := 0x38A0
/-- `trg.take_state`. -/
@[simp, reducible] def trgTakeState : Nat := 0x38A1
/-- `trg.take_trig_sec`. -/
@[simp, reducible] def trgTakeTrigSec : Nat := 0x38A2
/-- `trg.take_trig_frac`. -/
@[simp, reducible] def trgTakeTrigFrac : Nat := 0x38A3
/-- `trg.take_valid_pre`. -/
@[simp, reducible] def trgTakeValidPre : Nat := 0x38A4
/-- `trg.take_data_addr`. -/
@[simp, reducible] def trgTakeDataAddr : Nat := 0x38A5
/-- `trg.take_data_bytes`. -/
@[simp, reducible] def trgTakeDataBytes : Nat := 0x38A6
/-- `trg.take_log_addr`. -/
@[simp, reducible] def trgTakeLogAddr : Nat := 0x38A7
/-- `den.layer`. -/
@[simp, reducible] def denLayer : Nat := 0x3C00
/-- `den.cols`. -/
@[simp, reducible] def denCols : Nat := 0x3C01
/-- `den.rows`. -/
@[simp, reducible] def denRows : Nat := 0x3C02
/-- `den.col_shift`. -/
@[simp, reducible] def denColShift : Nat := 0x3C03
/-- `den.bin_first`. -/
@[simp, reducible] def denBinFirst : Nat := 0x3C04
/-- `den.hit_mode`. -/
@[simp, reducible] def denHitMode : Nat := 0x3C05
/-- `den.top`. -/
@[simp, reducible] def denTop : Nat := 0x3C06
/-- `den.row_step`. -/
@[simp, reducible] def denRowStep : Nat := 0x3C07
/-- `den.clip`. -/
@[simp, reducible] def denClip : Nat := 0x3C08
/-- `den.decay`. -/
@[simp, reducible] def denDecay : Nat := 0x3C09
/-- `den.period`. -/
@[simp, reducible] def denPeriod : Nat := 0x3C0A
/-- `den.export_format`. -/
@[simp, reducible] def denExportFormat : Nat := 0x3C0B
/-- `den.export_every`. -/
@[simp, reducible] def denExportEvery : Nat := 0x3C0C
/-- `den.map_full`. -/
@[simp, reducible] def denMapFull : Nat := 0x3C0D
/-- `den.ring`. -/
@[simp, reducible] def denRing : Nat := 0x3C0E
/-- `den.vp_layer`. -/
@[simp, reducible] def denVpLayer : Nat := 0x3C0F
/-- `den.vp_handle_a`. -/
@[simp, reducible] def denVpHandleA : Nat := 0x3C10
/-- `den.vp_handle_b`. -/
@[simp, reducible] def denVpHandleB : Nat := 0x3C11
/-- `den.state`. -/
@[simp, reducible] def denState : Nat := 0x3C20
/-- `den.plane_frames`. -/
@[simp, reducible] def denPlaneFrames : Nat := 0x3C21
/-- `den.hits`. -/
@[simp, reducible] def denHits : Nat := 0x3C22
/-- `den.clipped`. -/
@[simp, reducible] def denClipped : Nat := 0x3C23
/-- `den.sat_cells`. -/
@[simp, reducible] def denSatCells : Nat := 0x3C24
/-- `den.frames_skipped`. -/
@[simp, reducible] def denFramesSkipped : Nat := 0x3C25
/-- `den.frames_lost`. -/
@[simp, reducible] def denFramesLost : Nat := 0x3C26
/-- `den.exports`. -/
@[simp, reducible] def denExports : Nat := 0x3C27
/-- `den.exports_skipped`. -/
@[simp, reducible] def denExportsSkipped : Nat := 0x3C28
/-- `den.max_cell`. -/
@[simp, reducible] def denMaxCell : Nat := 0x3C29
/-- `den.ecc_corrected`. -/
@[simp, reducible] def denEccCorrected : Nat := 0x3C2A
/-- `den.thr_kind`. -/
@[simp, reducible] def denThrKind : Nat := 0x3C40
/-- `den.thr_col_lo`. -/
@[simp, reducible] def denThrColLo : Nat := 0x3C41
/-- `den.thr_col_hi`. -/
@[simp, reducible] def denThrColHi : Nat := 0x3C42
/-- `den.thr_row_lo`. -/
@[simp, reducible] def denThrRowLo : Nat := 0x3C43
/-- `den.thr_row_hi`. -/
@[simp, reducible] def denThrRowHi : Nat := 0x3C44
/-- `den.thr_hits`. -/
@[simp, reducible] def denThrHits : Nat := 0x3C45
/-- `den.thr_events`. -/
@[simp, reducible] def denThrEvents : Nat := 0x3C46
/-- `den.thr_count`. -/
@[simp, reducible] def denThrCount : Nat := 0x3C47
/-- `vp.enable`. -/
@[simp, reducible] def vpEnable : Nat := 0x4C00
/-- `vp.mode`. -/
@[simp, reducible] def vpMode : Nat := 0x4C01
/-- `vp.bpc`. -/
@[simp, reducible] def vpBpc : Nat := 0x4C02
/-- `vp.user_timing`. -/
@[simp, reducible] def vpUserTiming : Nat := 0x4C03
/-- `vp.background`. -/
@[simp, reducible] def vpBackground : Nat := 0x4C04
/-- `vp.readback_action`. -/
@[simp, reducible] def vpReadbackAction : Nat := 0x4C05
/-- `vp.event_ring`. -/
@[simp, reducible] def vpEventRing : Nat := 0x4C06
/-- `vp.commit`. -/
@[simp, reducible] def vpCommit : Nat := 0x4C07
/-- `vp.pool_size`. -/
@[simp, reducible] def vpPoolSize : Nat := 0x4C08
/-- `vp.link_state`. -/
@[simp, reducible] def vpLinkState : Nat := 0x4C10
/-- `vp.link_config`. -/
@[simp, reducible] def vpLinkConfig : Nat := 0x4C11
/-- `vp.frame`. -/
@[simp, reducible] def vpFrame : Nat := 0x4C12
/-- `vp.underruns`. -/
@[simp, reducible] def vpUnderruns : Nat := 0x4C13
/-- `vp.readback_errors`. -/
@[simp, reducible] def vpReadbackErrors : Nat := 0x4C14
/-- `vp.readback_crc`. -/
@[simp, reducible] def vpReadbackCrc : Nat := 0x4C15
/-- `vp.events_lost`. -/
@[simp, reducible] def vpEventsLost : Nat := 0x4C16
/-- `vp.ecc_corrected`. -/
@[simp, reducible] def vpEccCorrected : Nat := 0x4C17
/-- `vp.edid`. -/
@[simp, reducible] def vpEdid : Nat := 0x4C18
/-- `vp.layer_handle`. -/
@[simp, reducible] def vpLayerHandle : Nat := 0x4C20
/-- `vp.layer_x`. -/
@[simp, reducible] def vpLayerX : Nat := 0x4C21
/-- `vp.layer_y`. -/
@[simp, reducible] def vpLayerY : Nat := 0x4C22
/-- `vp.layer_alpha`. -/
@[simp, reducible] def vpLayerAlpha : Nat := 0x4C23
/-- `vp.layer_palette`. -/
@[simp, reducible] def vpLayerPalette : Nat := 0x4C24
/-- `vp.layer_zoom_x`. -/
@[simp, reducible] def vpLayerZoomX : Nat := 0x4C25
/-- `vp.layer_zoom_y`. -/
@[simp, reducible] def vpLayerZoomY : Nat := 0x4C26
/-- `vp.cursor_on`. -/
@[simp, reducible] def vpCursorOn : Nat := 0x4C27
/-- `vp.roll`. -/
@[simp, reducible] def vpRoll : Nat := 0x4C28
/-- `vp.roll_src`. -/
@[simp, reducible] def vpRollSrc : Nat := 0x4C29
/-- `vp.roll_first`. -/
@[simp, reducible] def vpRollFirst : Nat := 0x4C2A
/-- `vp.roll_xscale`. -/
@[simp, reducible] def vpRollXscale : Nat := 0x4C2B
/-- `vp.roll_top`. -/
@[simp, reducible] def vpRollTop : Nat := 0x4C2C
/-- `vp.roll_step`. -/
@[simp, reducible] def vpRollStep : Nat := 0x4C2D
/-- `vp.roll_palette`. -/
@[simp, reducible] def vpRollPalette : Nat := 0x4C2E
/-- `vp.roll_every`. -/
@[simp, reducible] def vpRollEvery : Nat := 0x4C2F
/-- `vp.commit_seq`. -/
@[simp, reducible] def vpCommitSeq : Nat := 0x4C30
/-- `vp.commit_frame`. -/
@[simp, reducible] def vpCommitFrame : Nat := 0x4C31
/-- `vp.roll_lines`. -/
@[simp, reducible] def vpRollLines : Nat := 0x4C32
/-- `vp.roll_lost`. -/
@[simp, reducible] def vpRollLost : Nat := 0x4C33
/-- `vp.layer_claim`. -/
@[simp, reducible] def vpLayerClaim : Nat := 0x4C34
/-- `vp.alloc_width`. -/
@[simp, reducible] def vpAllocWidth : Nat := 0x4C40
/-- `vp.alloc_height`. -/
@[simp, reducible] def vpAllocHeight : Nat := 0x4C41
/-- `vp.alloc_format`. -/
@[simp, reducible] def vpAllocFormat : Nat := 0x4C42
/-- `vp.alloc_cmd`. -/
@[simp, reducible] def vpAllocCmd : Nat := 0x4C43
/-- `vp.alloc_handle`. -/
@[simp, reducible] def vpAllocHandle : Nat := 0x4C44
/-- `vp.handle_state`. -/
@[simp, reducible] def vpHandleState : Nat := 0x4C48
/-- `vp.handle_id`. -/
@[simp, reducible] def vpHandleId : Nat := 0x4C49
/-- `vp.handle_addr`. -/
@[simp, reducible] def vpHandleAddr : Nat := 0x4C4A
/-- `vp.handle_geom`. -/
@[simp, reducible] def vpHandleGeom : Nat := 0x4C4B
/-- `vp.pool_free`. -/
@[simp, reducible] def vpPoolFree : Nat := 0x4C50
/-- `vp.pal_sel`. -/
@[simp, reducible] def vpPalSel : Nat := 0x4C60
/-- `vp.pal_entry`. -/
@[simp, reducible] def vpPalEntry : Nat := 0x4C61
/-- `vp.cursor_index`. -/
@[simp, reducible] def vpCursorIndex : Nat := 0x4C62
/-- `vp.cursor_pixel`. -/
@[simp, reducible] def vpCursorPixel : Nat := 0x4C63
/-- `cap.state`. -/
@[simp, reducible] def capState : Nat := 0x4000
/-- `cap.channels`. -/
@[simp, reducible] def capChannels : Nat := 0x4001
/-- `cap.capacity`. -/
@[simp, reducible] def capCapacity : Nat := 0x4002
/-- `cap.free`. -/
@[simp, reducible] def capFree : Nat := 0x4003
/-- `cap.dram_rate`. -/
@[simp, reducible] def capDramRate : Nat := 0x4004
/-- `cap.bar2_unmapped`. -/
@[simp, reducible] def capBar2Unmapped : Nat := 0x4005
/-- `cap.holed`. -/
@[simp, reducible] def capHoled : Nat := 0x4006
/-- `cap.event_ring`. -/
@[simp, reducible] def capEventRing : Nat := 0x4007
/-- `cap.hash_ch`. -/
@[simp, reducible] def capHashCh : Nat := 0x4008
/-- `cap.hash_bank`. -/
@[simp, reducible] def capHashBank : Nat := 0x4009
/-- `cap.reg_rate`. -/
@[simp, reducible] def capRegRate : Nat := 0x4010
/-- `cap.reg_burst`. -/
@[simp, reducible] def capRegBurst : Nat := 0x4011
/-- `cap.port_bytes`. -/
@[simp, reducible] def capPortBytes : Nat := 0x4012
/-- `cap.reg_held`. -/
@[simp, reducible] def capRegHeld : Nat := 0x4013
/-- `cap.chan_state`. -/
@[simp, reducible] def capChanState : Nat := 0x4020
/-- `cap.rank_map`. -/
@[simp, reducible] def capRankMap : Nat := 0x4021
/-- `cap.rank_state`. -/
@[simp, reducible] def capRankState : Nat := 0x4022
/-- `cap.ecc_corrected`. -/
@[simp, reducible] def capEccCorrected : Nat := 0x4023
/-- `cap.ecc_lost`. -/
@[simp, reducible] def capEccLost : Nat := 0x4024
/-- `cap.dram_mr4`. -/
@[simp, reducible] def capDramMr4 : Nat := 0x4025
/-- `cap.refresh_x2`. -/
@[simp, reducible] def capRefreshX2 : Nat := 0x4026
/-- `cap.rd_threshold`. -/
@[simp, reducible] def capRdThreshold : Nat := 0x4027
/-- `cap.rd_refreshes`. -/
@[simp, reducible] def capRdRefreshes : Nat := 0x4028
/-- `cap.retrain_s`. -/
@[simp, reducible] def capRetrainS : Nat := 0x4029
/-- `cap.retrain_dk`. -/
@[simp, reducible] def capRetrainDk : Nat := 0x402A
/-- `cap.retrains`. -/
@[simp, reducible] def capRetrains : Nat := 0x402B
/-- `cap.ce_limit`. -/
@[simp, reducible] def capCeLimit : Nat := 0x402C
/-- `cap.scrub_hours`. -/
@[simp, reducible] def capScrubHours : Nat := 0x402D
/-- `cap.migrate`. -/
@[simp, reducible] def capMigrate : Nat := 0x402E
/-- `cap.idle_sr`. -/
@[simp, reducible] def capIdleSr : Nat := 0x402F
/-- `cap.hod_occupancy`. -/
@[simp, reducible] def capHodOccupancy : Nat := 0x4030
/-- `cap.hod_high_water`. -/
@[simp, reducible] def capHodHighWater : Nat := 0x4031
/-- `cap.hod_discarded`. -/
@[simp, reducible] def capHodDiscarded : Nat := 0x4032
/-- `cap.hod_gaps`. -/
@[simp, reducible] def capHodGaps : Nat := 0x4033
/-- `cap.stall_deferrals`. -/
@[simp, reducible] def capStallDeferrals : Nat := 0x4034
/-- `cap.stall_ns`. -/
@[simp, reducible] def capStallNs : Nat := 0x4035
/-- `cap.cs_src`. -/
@[simp, reducible] def capCsSrc : Nat := 0x4040
/-- `cap.cs_format`. -/
@[simp, reducible] def capCsFormat : Nat := 0x4041
/-- `cap.cs_size`. -/
@[simp, reducible] def capCsSize : Nat := 0x4042
/-- `cap.cs_log_size`. -/
@[simp, reducible] def capCsLogSize : Nat := 0x4043
/-- `cap.cs_mode`. -/
@[simp, reducible] def capCsMode : Nat := 0x4044
/-- `cap.cs_cmd`. -/
@[simp, reducible] def capCsCmd : Nat := 0x4045
/-- `cap.cs_state`. -/
@[simp, reducible] def capCsState : Nat := 0x4046
/-- `cap.cs_written`. -/
@[simp, reducible] def capCsWritten : Nat := 0x4047
/-- `cap.cs_base`. -/
@[simp, reducible] def capCsBase : Nat := 0x4048
/-- `cap.cs_log_base`. -/
@[simp, reducible] def capCsLogBase : Nat := 0x4049
/-- `cap.cs_gap_samples`. -/
@[simp, reducible] def capCsGapSamples : Nat := 0x404A
/-- `str.link_state`. -/
@[simp, reducible] def strLinkState : Nat := 0x4400
/-- `str.link_config`. -/
@[simp, reducible] def strLinkConfig : Nat := 0x4401
/-- `str.event_ring`. -/
@[simp, reducible] def strEventRing : Nat := 0x4402
/-- `str.events_lost`. -/
@[simp, reducible] def strEventsLost : Nat := 0x4403
/-- `str.ring_sel`. -/
@[simp, reducible] def strRingSel : Nat := 0x4410
/-- `str.ring_base`. -/
@[simp, reducible] def strRingBase : Nat := 0x4411
/-- `str.ring_wb`. -/
@[simp, reducible] def strRingWb : Nat := 0x4412
/-- `str.ring_size_log2`. -/
@[simp, reducible] def strRingSizeLog2 : Nat := 0x4413
/-- `str.ring_target`. -/
@[simp, reducible] def strRingTarget : Nat := 0x4414
/-- `str.ring_policy`. -/
@[simp, reducible] def strRingPolicy : Nat := 0x4415
/-- `str.ring_vector`. -/
@[simp, reducible] def strRingVector : Nat := 0x4416
/-- `str.ring_backlog`. -/
@[simp, reducible] def strRingBacklog : Nat := 0x4417
/-- `str.ring_mod_count`. -/
@[simp, reducible] def strRingModCount : Nat := 0x4418
/-- `str.ring_mod_us`. -/
@[simp, reducible] def strRingModUs : Nat := 0x4419
/-- `str.ring_cmd`. -/
@[simp, reducible] def strRingCmd : Nat := 0x441A
/-- `str.ring_state`. -/
@[simp, reducible] def strRingState : Nat := 0x441B
/-- `str.ring_pi`. -/
@[simp, reducible] def strRingPi : Nat := 0x441C
/-- `str.ring_ci`. -/
@[simp, reducible] def strRingCi : Nat := 0x441D
/-- `str.ring_dropped`. -/
@[simp, reducible] def strRingDropped : Nat := 0x441E
/-- `str.ring_bytes`. -/
@[simp, reducible] def strRingBytes : Nat := 0x441F
/-- `str.rings_open`. -/
@[simp, reducible] def strRingsOpen : Nat := 0x4420
/-- `str.drv_state`. -/
@[simp, reducible] def strDrvState : Nat := 0x4430
/-- `str.drv_reason`. -/
@[simp, reducible] def strDrvReason : Nat := 0x4431
/-- `str.drv_link`. -/
@[simp, reducible] def strDrvLink : Nat := 0x4432
/-- `str.drv_capacity`. -/
@[simp, reducible] def strDrvCapacity : Nat := 0x4433
/-- `str.drv_written`. -/
@[simp, reducible] def strDrvWritten : Nat := 0x4434
/-- `str.drv_latency`. -/
@[simp, reducible] def strDrvLatency : Nat := 0x4435
/-- `str.drv_errors`. -/
@[simp, reducible] def strDrvErrors : Nat := 0x4436
/-- `str.drv_health`. -/
@[simp, reducible] def strDrvHealth : Nat := 0x4437
/-- `str.nvme_queues`. -/
@[simp, reducible] def strNvmeQueues : Nat := 0x4440
/-- `str.nvme_depth`. -/
@[simp, reducible] def strNvmeDepth : Nat := 0x4441
/-- `str.nvme_timeout`. -/
@[simp, reducible] def strNvmeTimeout : Nat := 0x4442
/-- `str.drive_rate`. -/
@[simp, reducible] def strDriveRate : Nat := 0x4443
/-- `str.drive_cmd`. -/
@[simp, reducible] def strDriveCmd : Nat := 0x4444
/-- `str.vol_state`. -/
@[simp, reducible] def strVolState : Nat := 0x4450
/-- `str.vol_cmd`. -/
@[simp, reducible] def strVolCmd : Nat := 0x4451
/-- `str.vol_members`. -/
@[simp, reducible] def strVolMembers : Nat := 0x4452
/-- `str.vol_id`. -/
@[simp, reducible] def strVolId : Nat := 0x4453
/-- `str.vol_unit_kib`. -/
@[simp, reducible] def strVolUnitKib : Nat := 0x4454
/-- `str.vol_extent`. -/
@[simp, reducible] def strVolExtent : Nat := 0x4455
/-- `str.vol_free`. -/
@[simp, reducible] def strVolFree : Nat := 0x4456
/-- `str.spool_mib`. -/
@[simp, reducible] def strSpoolMib : Nat := 0x4458
/-- `str.spool_used`. -/
@[simp, reducible] def strSpoolUsed : Nat := 0x4459
/-- `str.spool_high`. -/
@[simp, reducible] def strSpoolHigh : Nat := 0x445A
/-- `str.reel_sel`. -/
@[simp, reducible] def strReelSel : Nat := 0x4460
/-- `str.reel_mode`. -/
@[simp, reducible] def strReelMode : Nat := 0x4461
/-- `str.reel_src`. -/
@[simp, reducible] def strReelSrc : Nat := 0x4462
/-- `str.reel_format`. -/
@[simp, reducible] def strReelFormat : Nat := 0x4463
/-- `str.reel_members`. -/
@[simp, reducible] def strReelMembers : Nat := 0x4464
/-- `str.reel_cmd`. -/
@[simp, reducible] def strReelCmd : Nat := 0x4465
/-- `str.reel_state`. -/
@[simp, reducible] def strReelState : Nat := 0x4466
/-- `str.reel_samples`. -/
@[simp, reducible] def strReelSamples : Nat := 0x4467
/-- `str.reel_gap_samples`. -/
@[simp, reducible] def strReelGapSamples : Nat := 0x4468
/-- `str.reel_bytes`. -/
@[simp, reducible] def strReelBytes : Nat := 0x4469
/-- `str.reel_rate`. -/
@[simp, reducible] def strReelRate : Nat := 0x446A
/-- `str.reel_start`. -/
@[simp, reducible] def strReelStart : Nat := 0x446B
/-- `str.pb_src`. -/
@[simp, reducible] def strPbSrc : Nat := 0x4470
/-- `str.pb_addr`. -/
@[simp, reducible] def strPbAddr : Nat := 0x4471
/-- `str.pb_format`. -/
@[simp, reducible] def strPbFormat : Nat := 0x4472
/-- `str.pb_fs`. -/
@[simp, reducible] def strPbFs : Nat := 0x4473
/-- `str.pb_chan`. -/
@[simp, reducible] def strPbChan : Nat := 0x4474
/-- `str.pb_first`. -/
@[simp, reducible] def strPbFirst : Nat := 0x4475
/-- `str.pb_count`. -/
@[simp, reducible] def strPbCount : Nat := 0x4476
/-- `str.pb_loop`. -/
@[simp, reducible] def strPbLoop : Nat := 0x4477
/-- `str.pb_lead`. -/
@[simp, reducible] def strPbLead : Nat := 0x4478
/-- `str.pb_cmd`. -/
@[simp, reducible] def strPbCmd : Nat := 0x4479
/-- `str.pb_state`. -/
@[simp, reducible] def strPbState : Nat := 0x447A
/-- `str.pb_released`. -/
@[simp, reducible] def strPbReleased : Nat := 0x447B
/-- `str.pb_gap_samples`. -/
@[simp, reducible] def strPbGapSamples : Nat := 0x447C
/-- `str.pb_stage_mib`. -/
@[simp, reducible] def strPbStageMib : Nat := 0x447D
/-- `tb.mode`. -/
@[simp, reducible] def tbMode : Nat := 0x2400
/-- `tb.ref_freq`. -/
@[simp, reducible] def tbRefFreq : Nat := 0x2401
/-- `tb.ref_enable`. -/
@[simp, reducible] def tbRefEnable : Nat := 0x2402
/-- `tb.ref_pref`. -/
@[simp, reducible] def tbRefPref : Nat := 0x2403
/-- `tb.ref_revert`. -/
@[simp, reducible] def tbRefRevert : Nat := 0x2404
/-- `tb.ref_wait`. -/
@[simp, reducible] def tbRefWait : Nat := 0x2405
/-- `tb.ref_tol`. -/
@[simp, reducible] def tbRefTol : Nat := 0x2406
/-- `tb.loop_bw`. -/
@[simp, reducible] def tbLoopBw : Nat := 0x2407
/-- `tb.step_threshold`. -/
@[simp, reducible] def tbStepThreshold : Nat := 0x2408
/-- `tb.ref_state`. -/
@[simp, reducible] def tbRefState : Nat := 0x2409
/-- `tb.loop_state`. -/
@[simp, reducible] def tbLoopState : Nat := 0x240A
/-- `tb.ref_active`. -/
@[simp, reducible] def tbRefActive : Nat := 0x240B
/-- `tb.ref_offset`. -/
@[simp, reducible] def tbRefOffset : Nat := 0x240C
/-- `tb.ab_phase`. -/
@[simp, reducible] def tbAbPhase : Nat := 0x240D
/-- `tb.switchovers`. -/
@[simp, reducible] def tbSwitchovers : Nat := 0x240E
/-- `tb.isl_freq`. -/
@[simp, reducible] def tbIslFreq : Nat := 0x2410
/-- `tb.ssc_mode`. -/
@[simp, reducible] def tbSscMode : Nat := 0x2411
/-- `tb.ssc_depth`. -/
@[simp, reducible] def tbSscDepth : Nat := 0x2412
/-- `tb.pll_state`. -/
@[simp, reducible] def tbPllState : Nat := 0x2413
/-- `tb.relocks`. -/
@[simp, reducible] def tbRelocks : Nat := 0x2414
/-- `tb.gated_ns`. -/
@[simp, reducible] def tbGatedNs : Nat := 0x2415
/-- `tb.hop_sel`. -/
@[simp, reducible] def tbHopSel : Nat := 0x2416
/-- `tb.hop_entry`. -/
@[simp, reducible] def tbHopEntry : Nat := 0x2417
/-- `tb.aux_enable`. -/
@[simp, reducible] def tbAuxEnable : Nat := 0x2420
/-- `tb.aux_num`. -/
@[simp, reducible] def tbAuxNum : Nat := 0x2421
/-- `tb.aux_den`. -/
@[simp, reducible] def tbAuxDen : Nat := 0x2422
/-- `tb.aux_delay`. -/
@[simp, reducible] def tbAuxDelay : Nat := 0x2423
/-- `tb.aux_state`. -/
@[simp, reducible] def tbAuxState : Nat := 0x2424
/-- `tb.sysref_mode`. -/
@[simp, reducible] def tbSysrefMode : Nat := 0x2430
/-- `tb.sysref_div`. -/
@[simp, reducible] def tbSysrefDiv : Nat := 0x2431
/-- `tb.sysref_pulses`. -/
@[simp, reducible] def tbSysrefPulses : Nat := 0x2432
/-- `tb.sysref_delay`. -/
@[simp, reducible] def tbSysrefDelay : Nat := 0x2433
/-- `tb.sysref_fire`. -/
@[simp, reducible] def tbSysrefFire : Nat := 0x2434
/-- `tb.time_src`. -/
@[simp, reducible] def tbTimeSrc : Nat := 0x2440
/-- `tb.time_state`. -/
@[simp, reducible] def tbTimeState : Nat := 0x2441
/-- `tb.time_now`. -/
@[simp, reducible] def tbTimeNow : Nat := 0x2442
/-- `tb.time_set_sec`. -/
@[simp, reducible] def tbTimeSetSec : Nat := 0x2443
/-- `tb.time_set_cmd`. -/
@[simp, reducible] def tbTimeSetCmd : Nat := 0x2444
/-- `tb.pps_offset`. -/
@[simp, reducible] def tbPpsOffset : Nat := 0x2445
/-- `tb.pps_avg`. -/
@[simp, reducible] def tbPpsAvg : Nat := 0x2446
/-- `tb.pps_step`. -/
@[simp, reducible] def tbPpsStep : Nat := 0x2447
/-- `tb.pps_delay`. -/
@[simp, reducible] def tbPpsDelay : Nat := 0x2448
/-- `tb.dc_offset_sec`. -/
@[simp, reducible] def tbDcOffsetSec : Nat := 0x2449
/-- `tb.time_steps`. -/
@[simp, reducible] def tbTimeSteps : Nat := 0x244A
/-- `tb.slew_ps`. -/
@[simp, reducible] def tbSlewPs : Nat := 0x244B
/-- `tb.event_ring`. -/
@[simp, reducible] def tbEventRing : Nat := 0x244C
/-- `tb.events_lost`. -/
@[simp, reducible] def tbEventsLost : Nat := 0x244D
/-- `im.start_src`. -/
@[simp, reducible] def imStartSrc : Nat := 0x2600
/-- `im.start_edge`. -/
@[simp, reducible] def imStartEdge : Nat := 0x2601
/-- `im.stop_src`. -/
@[simp, reducible] def imStopSrc : Nat := 0x2602
/-- `im.stop_edge`. -/
@[simp, reducible] def imStopEdge : Nat := 0x2603
/-- `im.mode`. -/
@[simp, reducible] def imMode : Nat := 0x2604
/-- `im.signed`. -/
@[simp, reducible] def imSigned : Nat := 0x2605
/-- `im.win_open`. -/
@[simp, reducible] def imWinOpen : Nat := 0x2606
/-- `im.win_close`. -/
@[simp, reducible] def imWinClose : Nat := 0x2607
/-- `im.stat_n`. -/
@[simp, reducible] def imStatN : Nat := 0x2608
/-- `im.repeat`. -/
@[simp, reducible] def imRepeat : Nat := 0x2609
/-- `im.ring`. -/
@[simp, reducible] def imRing : Nat := 0x260A
/-- `im.log_each`. -/
@[simp, reducible] def imLogEach : Nat := 0x260B
/-- `im.chan_enable`. -/
@[simp, reducible] def imChanEnable : Nat := 0x260C
/-- `im.cmd`. -/
@[simp, reducible] def imCmd : Nat := 0x260D
/-- `im.chan_state`. -/
@[simp, reducible] def imChanState : Nat := 0x260E
/-- `im.last_n`. -/
@[simp, reducible] def imLastN : Nat := 0x2610
/-- `im.last_fine`. -/
@[simp, reducible] def imLastFine : Nat := 0x2611
/-- `im.last_flags`. -/
@[simp, reducible] def imLastFlags : Nat := 0x2612
/-- `im.mean_n`. -/
@[simp, reducible] def imMeanN : Nat := 0x2613
/-- `im.mean_fine`. -/
@[simp, reducible] def imMeanFine : Nat := 0x2614
/-- `im.dev`. -/
@[simp, reducible] def imDev : Nat := 0x2615
/-- `im.min_n`. -/
@[simp, reducible] def imMinN : Nat := 0x2616
/-- `im.min_fine`. -/
@[simp, reducible] def imMinFine : Nat := 0x2617
/-- `im.max_n`. -/
@[simp, reducible] def imMaxN : Nat := 0x2618
/-- `im.max_fine`. -/
@[simp, reducible] def imMaxFine : Nat := 0x2619
/-- `im.count`. -/
@[simp, reducible] def imCount : Nat := 0x261A
/-- `im.timeouts`. -/
@[simp, reducible] def imTimeouts : Nat := 0x261B
/-- `im.unresolved`. -/
@[simp, reducible] def imUnresolved : Nat := 0x261C
/-- `im.measurements`. -/
@[simp, reducible] def imMeasurements : Nat := 0x261D
/-- `im.gate_ns`. -/
@[simp, reducible] def imGateNs : Nat := 0x2620
/-- `im.gate_stamps`. -/
@[simp, reducible] def imGateStamps : Nat := 0x2621
/-- `im.gate_align`. -/
@[simp, reducible] def imGateAlign : Nat := 0x2622
/-- `im.freq_hz`. -/
@[simp, reducible] def imFreqHz : Nat := 0x2623
/-- `im.freq_frac`. -/
@[simp, reducible] def imFreqFrac : Nat := 0x2624
/-- `im.freq_resid`. -/
@[simp, reducible] def imFreqResid : Nat := 0x2625
/-- `im.freq_stamps`. -/
@[simp, reducible] def imFreqStamps : Nat := 0x2626
/-- `im.edges`. -/
@[simp, reducible] def imEdges : Nat := 0x2627
/-- `im.in_threshold`. -/
@[simp, reducible] def imInThreshold : Nat := 0x2630
/-- `im.in_hyst`. -/
@[simp, reducible] def imInHyst : Nat := 0x2631
/-- `im.in_holdoff`. -/
@[simp, reducible] def imInHoldoff : Nat := 0x2632
/-- `im.in_skew`. -/
@[simp, reducible] def imInSkew : Nat := 0x2633
/-- `im.in_edges`. -/
@[simp, reducible] def imInEdges : Nat := 0x2634
/-- `im.in_held`. -/
@[simp, reducible] def imInHeld : Nat := 0x2635
/-- `im.in_cal_fails`. -/
@[simp, reducible] def imInCalFails : Nat := 0x2636
/-- `im.in_interps`. -/
@[simp, reducible] def imInInterps : Nat := 0x2637
/-- `im.records_lost`. -/
@[simp, reducible] def imRecordsLost : Nat := 0x2640
/-- `cf.auto_join`. -/
@[simp, reducible] def cfAutoJoin : Nat := 0x4800
/-- `cf.cmd`. -/
@[simp, reducible] def cfCmd : Nat := 0x4801
/-- `cf.cmd_slot`. -/
@[simp, reducible] def cfCmdSlot : Nat := 0x4802
/-- `cf.state`. -/
@[simp, reducible] def cfState : Nat := 0x4803
/-- `cf.prepare_state`. -/
@[simp, reducible] def cfPrepareState : Nat := 0x4804
/-- `cf.modules`. -/
@[simp, reducible] def cfModules : Nat := 0x4805
/-- `cf.topology_seq`. -/
@[simp, reducible] def cfTopologySeq : Nat := 0x4806
/-- `cf.map_sel`. -/
@[simp, reducible] def cfMapSel : Nat := 0x4807
/-- `cf.map_entry`. -/
@[simp, reducible] def cfMapEntry : Nat := 0x4808
/-- `cf.event_ring`. -/
@[simp, reducible] def cfEventRing : Nat := 0x4809
/-- `cf.events_lost`. -/
@[simp, reducible] def cfEventsLost : Nat := 0x480A
/-- `cf.port_state`. -/
@[simp, reducible] def cfPortState : Nat := 0x4810
/-- `cf.port_reason`. -/
@[simp, reducible] def cfPortReason : Nat := 0x4811
/-- `cf.neighbour`. -/
@[simp, reducible] def cfNeighbour : Nat := 0x4812
/-- `cf.link_delay`. -/
@[simp, reducible] def cfLinkDelay : Nat := 0x4813
/-- `cf.port_asym`. -/
@[simp, reducible] def cfPortAsym : Nat := 0x4814
/-- `cf.fec_corrected`. -/
@[simp, reducible] def cfFecCorrected : Nat := 0x4815
/-- `cf.fec_uncorrected`. -/
@[simp, reducible] def cfFecUncorrected : Nat := 0x4816
/-- `cf.link_downs`. -/
@[simp, reducible] def cfLinkDowns : Nat := 0x4817
/-- `cf.port_bytes`. -/
@[simp, reducible] def cfPortBytes : Nat := 0x4818
/-- `cf.keystone_prio`. -/
@[simp, reducible] def cfKeystonePrio : Nat := 0x4820
/-- `cf.keystone_src`. -/
@[simp, reducible] def cfKeystoneSrc : Nat := 0x4821
/-- `cf.keystone`. -/
@[simp, reducible] def cfKeystone : Nat := 0x4822
/-- `cf.time_parent`. -/
@[simp, reducible] def cfTimeParent : Nat := 0x4823
/-- `cf.time_depth`. -/
@[simp, reducible] def cfTimeDepth : Nat := 0x4824
/-- `cf.time_offset`. -/
@[simp, reducible] def cfTimeOffset : Nat := 0x4825
/-- `cf.time_avg`. -/
@[simp, reducible] def cfTimeAvg : Nat := 0x4826
/-- `cf.time_step`. -/
@[simp, reducible] def cfTimeStep : Nat := 0x4827
/-- `cf.freq_offset`. -/
@[simp, reducible] def cfFreqOffset : Nat := 0x4828
/-- `cf.bcast_scope`. -/
@[simp, reducible] def cfBcastScope : Nat := 0x4830
/-- `cf.bcast_sent`. -/
@[simp, reducible] def cfBcastSent : Nat := 0x4831
/-- `cf.bcast_waited`. -/
@[simp, reducible] def cfBcastWaited : Nat := 0x4832
/-- `cf.bcast_dropped`. -/
@[simp, reducible] def cfBcastDropped : Nat := 0x4833
/-- `cf.bcast_received`. -/
@[simp, reducible] def cfBcastReceived : Nat := 0x4834
/-- `cf.bcast_lost`. -/
@[simp, reducible] def cfBcastLost : Nat := 0x4835
/-- `cf.bcast_bound`. -/
@[simp, reducible] def cfBcastBound : Nat := 0x4836
/-- `cf.bcast_bound_sys`. -/
@[simp, reducible] def cfBcastBoundSys : Nat := 0x4837
/-- `cf.rda_slot`. -/
@[simp, reducible] def cfRdaSlot : Nat := 0x4840
/-- `cf.rda_index`. -/
@[simp, reducible] def cfRdaIndex : Nat := 0x4841
/-- `cf.rda_data`. -/
@[simp, reducible] def cfRdaData : Nat := 0x4842
/-- `cf.rda_cmd`. -/
@[simp, reducible] def cfRdaCmd : Nat := 0x4843
/-- `cf.rda_state`. -/
@[simp, reducible] def cfRdaState : Nat := 0x4844
/-- `cf.rda_abort`. -/
@[simp, reducible] def cfRdaAbort : Nat := 0x4845
/-- `cf.rda_timeout`. -/
@[simp, reducible] def cfRdaTimeout : Nat := 0x4846
/-- `cf.copy_slot`. -/
@[simp, reducible] def cfCopySlot : Nat := 0x4850
/-- `cf.copy_src`. -/
@[simp, reducible] def cfCopySrc : Nat := 0x4851
/-- `cf.copy_dst`. -/
@[simp, reducible] def cfCopyDst : Nat := 0x4852
/-- `cf.copy_len`. -/
@[simp, reducible] def cfCopyLen : Nat := 0x4853
/-- `cf.copy_cmd`. -/
@[simp, reducible] def cfCopyCmd : Nat := 0x4854
/-- `cf.copy_state`. -/
@[simp, reducible] def cfCopyState : Nat := 0x4855
/-- `cf.copy_done`. -/
@[simp, reducible] def cfCopyDone : Nat := 0x4856
/-- `cf.copy_lost`. -/
@[simp, reducible] def cfCopyLost : Nat := 0x4857
/-- `cf.data_timeout`. -/
@[simp, reducible] def cfDataTimeout : Nat := 0x4858
/-- `cf.retransmits`. -/
@[simp, reducible] def cfRetransmits : Nat := 0x4859
/-- `dict.write_paths`. -/
@[simp, reducible] def dictWritePaths : Nat := 0x2060
/-- `dict.view`. -/
@[simp, reducible] def dictView : Nat := 0x2061
/-- `dict.bulk_sel`. -/
@[simp, reducible] def dictBulkSel : Nat := 0x2062
/-- `dict.bulk_off`. -/
@[simp, reducible] def dictBulkOff : Nat := 0x2063
/-- `dict.bulk_word`. -/
@[simp, reducible] def dictBulkWord : Nat := 0x2064
/-- `dict.bulk_len`. -/
@[simp, reducible] def dictBulkLen : Nat := 0x2065
/-- `dict.emcy_notice`. -/
@[simp, reducible] def dictEmcyNotice : Nat := 0x2066
/-- `dict.config_hash`. -/
@[simp, reducible] def dictConfigHash : Nat := 0x2067
/-- `dict.desc_rev`. -/
@[simp, reducible] def dictDescRev : Nat := 0x2068
/-- `dict.requests`. -/
@[simp, reducible] def dictRequests : Nat := 0x2069
/-- `dict.rejections`. -/
@[simp, reducible] def dictRejections : Nat := 0x206A
/-- `dict.emcy_lost`. -/
@[simp, reducible] def dictEmcyLost : Nat := 0x206B
/-- `dict.desc_esi`. -/
@[simp, reducible] def dictDescEsi : Nat := 0x206C
/-- `dict.desc_dsc`. -/
@[simp, reducible] def dictDescDsc : Nat := 0x206D
/-- `dict.desc_seg`. -/
@[simp, reducible] def dictDescSeg : Nat := 0x206E
/-- `flt.last_error`. -/
@[simp, reducible] def fltLastError : Nat := 0x2301
/-- `flt.path_error`. -/
@[simp, reducible] def fltPathError : Nat := 0x2302
/-- `flt.last_error_time`. -/
@[simp, reducible] def fltLastErrorTime : Nat := 0x2303
/-- `flt.error_count`. -/
@[simp, reducible] def fltErrorCount : Nat := 0x2304
/-- `pwr.state`. -/
@[simp, reducible] def pwrState : Nat := 0x2100
/-- `pwr.goal`. -/
@[simp, reducible] def pwrGoal : Nat := 0x2101
/-- `pwr.cap_w`. -/
@[simp, reducible] def pwrCapW : Nat := 0x2102
/-- `pwr.cap_window`. -/
@[simp, reducible] def pwrCapWindow : Nat := 0x2103
/-- `pwr.prec_floor`. -/
@[simp, reducible] def pwrPrecFloor : Nat := 0x2104
/-- `pwr.gov_period`. -/
@[simp, reducible] def pwrGovPeriod : Nat := 0x2105
/-- `pwr.isl_point`. -/
@[simp, reducible] def pwrIslPoint : Nat := 0x2106
/-- `pwr.isl_target`. -/
@[simp, reducible] def pwrIslTarget : Nat := 0x2107
/-- `pwr.isl_limit`. -/
@[simp, reducible] def pwrIslLimit : Nat := 0x2108
/-- `pwr.isl_state`. -/
@[simp, reducible] def pwrIslState : Nat := 0x2109
/-- `pwr.isl_idle_us`. -/
@[simp, reducible] def pwrIslIdleUs : Nat := 0x210A
/-- `pwr.isl_deep`. -/
@[simp, reducible] def pwrIslDeep : Nat := 0x210B
/-- `pwr.isl_mw`. -/
@[simp, reducible] def pwrIslMw : Nat := 0x210C
/-- `pwr.sleep`. -/
@[simp, reducible] def pwrSleep : Nat := 0x2110
/-- `pwr.wake_mask`. -/
@[simp, reducible] def pwrWakeMask : Nat := 0x2111
/-- `pwr.wake_timer`. -/
@[simp, reducible] def pwrWakeTimer : Nat := 0x2112
/-- `pwr.module_idle_s`. -/
@[simp, reducible] def pwrModuleIdleS : Nat := 0x2113
/-- `pwr.sleep_declined`. -/
@[simp, reducible] def pwrSleepDeclined : Nat := 0x2114
/-- `pwr.wake_cause`. -/
@[simp, reducible] def pwrWakeCause : Nat := 0x2115
/-- `pwr.degraded`. -/
@[simp, reducible] def pwrDegraded : Nat := 0x2116
/-- `pwr.module_w`. -/
@[simp, reducible] def pwrModuleW : Nat := 0x2117
/-- `pwr.cap_step`. -/
@[simp, reducible] def pwrCapStep : Nat := 0x2118
/-- `pwr.droop_events`. -/
@[simp, reducible] def pwrDroopEvents : Nat := 0x2119
/-- `pwr.event_ring`. -/
@[simp, reducible] def pwrEventRing : Nat := 0x211A
/-- `pwr.events_lost`. -/
@[simp, reducible] def pwrEventsLost : Nat := 0x211B
/-- `cal.count`. -/
@[simp, reducible] def calCount : Nat := 0x2200
/-- `cal.last_time`. -/
@[simp, reducible] def calLastTime : Nat := 0x2201
/-- `cal.ref_freq`. -/
@[simp, reducible] def calRefFreq : Nat := 0x2202
/-- `cal.ref_ratio`. -/
@[simp, reducible] def calRefRatio : Nat := 0x2203
/-- `cal.ref_cert`. -/
@[simp, reducible] def calRefCert : Nat := 0x2204
/-- `cal.common_lag`. -/
@[simp, reducible] def calCommonLag : Nat := 0x2205
/-- `cal.link_fold`. -/
@[simp, reducible] def calLinkFold : Nat := 0x2206
/-- `cal.attempts`. -/
@[simp, reducible] def calAttempts : Nat := 0x2207
/-- `cal.obj_sel`. -/
@[simp, reducible] def calObjSel : Nat := 0x2208
/-- `cal.cmd`. -/
@[simp, reducible] def calCmd : Nat := 0x2209
/-- `cal.state`. -/
@[simp, reducible] def calState : Nat := 0x220A
/-- `cal.fixture_ps`. -/
@[simp, reducible] def calFixturePs : Nat := 0x2210
/-- `cal.obj_value`. -/
@[simp, reducible] def calObjValue : Nat := 0x2211
/-- `cal.obj_state`. -/
@[simp, reducible] def calObjState : Nat := 0x2212
/-- `cal.obj_time`. -/
@[simp, reducible] def calObjTime : Nat := 0x2213
/-- `cal.obj_temp`. -/
@[simp, reducible] def calObjTemp : Nat := 0x2214
/-- `cal.obj_residual`. -/
@[simp, reducible] def calObjResidual : Nat := 0x2215
/-- `cal.trim_code`. -/
@[simp, reducible] def calTrimCode : Nat := 0x2220
/-- `cal.trim_mode`. -/
@[simp, reducible] def calTrimMode : Nat := 0x2221
/-- `cal.trim_src`. -/
@[simp, reducible] def calTrimSrc : Nat := 0x2222
/-- `cal.trim_target`. -/
@[simp, reducible] def calTrimTarget : Nat := 0x2223
/-- `cal.trim_limit`. -/
@[simp, reducible] def calTrimLimit : Nat := 0x2224
/-- `cal.recal_hours`. -/
@[simp, reducible] def calRecalHours : Nat := 0x2230
/-- `cal.recal_dk`. -/
@[simp, reducible] def calRecalDk : Nat := 0x2231
/-- `cal.auto`. -/
@[simp, reducible] def calAuto : Nat := 0x2232
/-- `cal.due_count`. -/
@[simp, reducible] def calDueCount : Nat := 0x2233
/-- `cal.event_ring`. -/
@[simp, reducible] def calEventRing : Nat := 0x2234
/-- `cal.events_lost`. -/
@[simp, reducible] def calEventsLost : Nat := 0x2235
/-- `ctr.event_sel`. -/
@[simp, reducible] def ctrEventSel : Nat := 0x5000
/-- `ctr.value`. -/
@[simp, reducible] def ctrValue : Nat := 0x5001
/-- `ctr.flags`. -/
@[simp, reducible] def ctrFlags : Nat := 0x5002
/-- `ctr.wrap_summary`. -/
@[simp, reducible] def ctrWrapSummary : Nat := 0x5003
/-- `ctr.freeze`. -/
@[simp, reducible] def ctrFreeze : Nat := 0x5010
/-- `ctr.freeze_src`. -/
@[simp, reducible] def ctrFreezeSrc : Nat := 0x5011
/-- `ctr.freeze_chain`. -/
@[simp, reducible] def ctrFreezeChain : Nat := 0x5012
/-- `ctr.freeze_time`. -/
@[simp, reducible] def ctrFreezeTime : Nat := 0x5013
/-- `ctr.freeze_state`. -/
@[simp, reducible] def ctrFreezeState : Nat := 0x5014
/-- `ctr.snap_cmd`. -/
@[simp, reducible] def ctrSnapCmd : Nat := 0x5020
/-- `ctr.snap_period`. -/
@[simp, reducible] def ctrSnapPeriod : Nat := 0x5021
/-- `ctr.snap_chain`. -/
@[simp, reducible] def ctrSnapChain : Nat := 0x5022
/-- `ctr.snap_ring`. -/
@[simp, reducible] def ctrSnapRing : Nat := 0x5023
/-- `ctr.snap_value`. -/
@[simp, reducible] def ctrSnapValue : Nat := 0x5024
/-- `ctr.snap_time`. -/
@[simp, reducible] def ctrSnapTime : Nat := 0x5025
/-- `ctr.snap_seq`. -/
@[simp, reducible] def ctrSnapSeq : Nat := 0x5026
/-- `ctr.snap_skipped`. -/
@[simp, reducible] def ctrSnapSkipped : Nat := 0x5027
/-- `ctr.smp_event`. -/
@[simp, reducible] def ctrSmpEvent : Nat := 0x5030
/-- `ctr.smp_period`. -/
@[simp, reducible] def ctrSmpPeriod : Nat := 0x5031
/-- `ctr.smp_enable`. -/
@[simp, reducible] def ctrSmpEnable : Nat := 0x5032
/-- `ctr.smp_fires`. -/
@[simp, reducible] def ctrSmpFires : Nat := 0x5033
/-- `ctr.smp_ring`. -/
@[simp, reducible] def ctrSmpRing : Nat := 0x5034
/-- `ctr.records_lost`. -/
@[simp, reducible] def ctrRecordsLost : Nat := 0x5035
/-- `flt.repoint`. -/
@[simp, reducible] def fltRepoint : Nat := 0x2310
/-- `flt.repoint_src`. -/
@[simp, reducible] def fltRepointSrc : Nat := 0x2311
/-- `flt.repoint_state`. -/
@[simp, reducible] def fltRepointState : Nat := 0x2312
/-- `flt.repoint_target`. -/
@[simp, reducible] def fltRepointTarget : Nat := 0x2313
/-- `flt.repoints`. -/
@[simp, reducible] def fltRepoints : Nat := 0x2314
/-- `flt.img_cmd`. -/
@[simp, reducible] def fltImgCmd : Nat := 0x2320
/-- `flt.img_addr`. -/
@[simp, reducible] def fltImgAddr : Nat := 0x2321
/-- `flt.img_len`. -/
@[simp, reducible] def fltImgLen : Nat := 0x2322
/-- `flt.update_mask`. -/
@[simp, reducible] def fltUpdateMask : Nat := 0x2323
/-- `flt.update_state`. -/
@[simp, reducible] def fltUpdateState : Nat := 0x2324
/-- `flt.update_progress`. -/
@[simp, reducible] def fltUpdateProgress : Nat := 0x2325
/-- `flt.update_required`. -/
@[simp, reducible] def fltUpdateRequired : Nat := 0x2326
/-- `flt.mcode_ver`. -/
@[simp, reducible] def fltMcodeVer : Nat := 0x2327
/-- `flt.log_sel`. -/
@[simp, reducible] def fltLogSel : Nat := 0x2330
/-- `flt.log_entry`. -/
@[simp, reducible] def fltLogEntry : Nat := 0x2331
/-- `flt.log_count`. -/
@[simp, reducible] def fltLogCount : Nat := 0x2332
/-- `flt.log_clear`. -/
@[simp, reducible] def fltLogClear : Nat := 0x2333
/-- `flt.class_count`. -/
@[simp, reducible] def fltClassCount : Nat := 0x2334
/-- `flt.interrupt_max`. -/
@[simp, reducible] def fltInterruptMax : Nat := 0x2335
/-- `flt.restarts`. -/
@[simp, reducible] def fltRestarts : Nat := 0x2336
/-- `cap.events_lost`. -/
@[simp, reducible] def capEventsLost : Nat := 0x404F

end Sys2Proof.Ix
end

