-- ==== Sys2Proof/Machine/CounterTable.lean ====
section
/-! DEFINITION. The counters of chapter 18: events of Table 18.3 and slot counters of Table 18.1 (R467, R471, R478). -/

namespace Sys2Proof.Machine

/-- An event counter: code, entry with the same count (0: none), instances, first instance, and whether the instance is a window's. -/
structure CounterRow where
  code : Nat
  ix : Nat
  count : Nat
  first : Nat := 0
  window : Bool := false
deriving DecidableEq, Repr

/-- Table 18.3, Intake to Spectral Engine. -/
def counterRowsA : List CounterRow := [
  ⟨0x0110, 0, 16, 0, false⟩, ⟨0x0111, Ix.itkGapSamples, 16, 0, false⟩, ⟨0x0112, Ix.itkRelinks, 16, 0, false⟩,
  ⟨0x0113, Ix.itkCrcErrors, 64, 0, false⟩, ⟨0x0114, Ix.itkOvrCount, 16, 0, false⟩, ⟨0x0210, 0, 33, 0, false⟩,
  ⟨0x0211, Ix.chnUnsettled, 33, 0, false⟩, ⟨0x0212, Ix.chnGapSamples, 33, 0, false⟩, ⟨0x0213, Ix.chnSatCount, 33, 0, false⟩,
  ⟨0x0310, Ix.speFrames, 16, 0, false⟩, ⟨0x0311, Ix.speFramesLost, 16, 0, false⟩, ⟨0x0312, Ix.speTraces, 16, 0, false⟩,
  ⟨0x0313, Ix.speSatCount, 16, 0, false⟩]

/-- Table 18.3, Trigger Unit to Viewport. -/
def counterRowsB : List CounterRow := [
  ⟨0x0410, Ix.trgCondEvents, 64, 0, false⟩, ⟨0x0411, Ix.trgChainFires, 16, 0, false⟩, ⟨0x0412, Ix.trgMaskFail, 64, 0, false⟩,
  ⟨0x0413, Ix.trgMagMissed, 256, 0, true⟩, ⟨0x0414, Ix.trgEventsLost, 1, 0, false⟩, ⟨0x0510, Ix.denHits, 4, 0, false⟩,
  ⟨0x0511, Ix.denClipped, 4, 0, false⟩, ⟨0x0512, Ix.denFramesLost, 4, 0, false⟩, ⟨0x0513, Ix.denExports, 4, 0, false⟩,
  ⟨0x0610, Ix.vpFrame, 1, 0, false⟩, ⟨0x0611, Ix.vpUnderruns, 1, 0, false⟩, ⟨0x0612, Ix.vpReadbackErrors, 1, 0, false⟩,
  ⟨0x0613, Ix.vpRollLost, 3, 0, false⟩]

/-- Table 18.3, Capture Store to Timebase. -/
def counterRowsC : List CounterRow := [
  ⟨0x0710, Ix.capPortBytes, 24, 0, false⟩, ⟨0x0711, Ix.capRegHeld, 24, 0, false⟩, ⟨0x0712, Ix.capEccCorrected, 40, 0, false⟩,
  ⟨0x0713, Ix.capRdRefreshes, 8, 0, false⟩, ⟨0x0714, Ix.capHodDiscarded, 1, 0, false⟩, ⟨0x0715, Ix.capStallNs, 1, 0, false⟩,
  ⟨0x0810, 0, 1, 0, false⟩, ⟨0x0811, 0, 1, 0, false⟩, ⟨0x0812, Ix.strDrvWritten, 8, 0, false⟩, ⟨0x0813, Ix.strDrvErrors, 8, 0, false⟩,
  ⟨0x0814, 0, 1, 0, false⟩, ⟨0x0910, Ix.tbRelocks, 12, 1, false⟩, ⟨0x0911, Ix.tbGatedNs, 12, 1, false⟩,
  ⟨0x0912, Ix.tbSwitchovers, 1, 0, false⟩, ⟨0x0913, Ix.tbTimeSteps, 1, 0, false⟩]

/-- Table 18.3, Interval Meter to Supervisor. -/
def counterRowsD : List CounterRow := [
  ⟨0x0A10, Ix.imMeasurements, 10, 0, false⟩, ⟨0x0A11, Ix.imTimeouts, 10, 0, false⟩, ⟨0x0A12, Ix.imInEdges, 10, 0, false⟩,
  ⟨0x0A13, Ix.imInHeld, 10, 0, false⟩, ⟨0x0B10, Ix.cfPortBytes, 4, 0, false⟩, ⟨0x0B11, Ix.cfFecUncorrected, 4, 0, false⟩,
  ⟨0x0B12, Ix.cfLinkDowns, 4, 0, false⟩, ⟨0x0B13, Ix.cfBcastSent, 1, 0, false⟩, ⟨0x0B14, Ix.cfRetransmits, 1, 0, false⟩,
  ⟨0x0C10, Ix.dictRequests, 3, 1, false⟩, ⟨0x0C11, Ix.fltErrorCount, 1, 0, false⟩, ⟨0x0C12, Ix.modCutSeq, 1, 0, false⟩,
  ⟨0x0C13, Ix.pwrDroopEvents, 1, 0, false⟩, ⟨0x0C14, Ix.pwrSleepDeclined, 1, 0, false⟩, ⟨0x0C15, 0, 1, 0, false⟩]

/-- Table 18.3, in ascending code. -/
def counterRows : List CounterRow := counterRowsA ++ counterRowsB ++ counterRowsC ++ counterRowsD

/-- Instances with slot counters, by island (Table 18.1); those of the Timebase are its PLL numbers. -/
def slotInstances (isl : Nat) : List Nat :=
  if isl = 1 || isl = 5 || isl = 0xB then List.range 4 else if isl = 2 || isl = 3 then List.range 33
  else if isl = 4 then List.range 5 else if isl = 7 then List.range 16 else if isl = 8 then List.range 9
  else if isl = 9 then (List.range 12).map (· + 1) ++ (List.range 11).map (· + 16) ++ [31]
  else if isl = 0xA then List.range 10 else if isl = 6 || isl = 0xC then [0] else []

/-- The row of an event code. -/
def counterRow (code : Nat) : Option CounterRow := counterRows.find? (fun r => r.code == code)

/-- Whether a counter exists (R467). -/
def counterExists (code inst : Nat) : Bool :=
  if code % 256 < 5 then (slotInstances (code / 256)).contains inst
  else match counterRow code with
    | some r => decide (r.first ≤ inst) && decide (inst < r.first + r.count)
    | none => false

/-- The counter that an entry shows, as 256 × code + instance (R468, R469). -/
def counterOfEntry (ix sub inst : Nat) : Option Nat :=
  match counterRows.find? (fun r => r.ix == ix && ix != 0) with
  | none => none
  | some r => if r.window then some (256 * r.code + inst) else if r.count = 1 then some (256 * r.code) else some (256 * r.code + (sub - 1 + r.first))

end Sys2Proof.Machine
end

