-- ==== Sys2Proof/Machine/Codes.lean ====
section
/-! DEFINITION. The last-error codes of the spec: [31:24] subsystem, [23:8] reason, [7:0] severity (R406). -/

namespace Sys2Proof.Code

/-- CUT_TIME_PAST (01_islands_and_flow): Explicit T less than 10 µs ahead at the commit point. -/
@[simp, reducible] def cutTimePast : Nat := 0x00000102
/-- CUT_BUSY (01_islands_and_flow): Commit while a cut is waiting. -/
@[simp, reducible] def cutBusy : Nat := 0x00000202
/-- CUT_NOTHING_STAGED (01_islands_and_flow): Commit with an empty staged set. -/
@[simp, reducible] def cutNothingStaged : Nat := 0x00000302
/-- CUT_REJECTED_ISLAND (01_islands_and_flow): An island rejected its part of the set; that island's own code follows in the error log. -/
@[simp, reducible] def cutRejectedIsland : Nat := 0x00000402
/-- ALREADY_DONE (01_islands_and_flow): Abort or stop that finds nothing left to abort: observed at or after its operation's commit point, which proceeds, or with no operation of its kind in progress (R486). -/
@[simp, reducible] def alreadyDone : Nat := 0x00000501
/-- RAIL_FAULT (02_module_hardware): 12 V brown-out or overvoltage (R51), or a rail out of regulation; PWR_GOOD low. -/
@[simp, reducible] def railFault : Nat := 0x00001003
/-- THERMAL_TRIP (02_module_hardware): Die reached 110 °C; core shut down. -/
@[simp, reducible] def thermalTrip : Nat := 0x00001103
/-- THERMAL_THROTTLE (02_module_hardware): Throttle threshold reached; clocks lowered. -/
@[simp, reducible] def thermalThrottle : Nat := 0x00001201
/-- INLET_OVER_GRADE (02_module_hardware): Inlet above the fitted grade's maximum. -/
@[simp, reducible] def inletOverGrade : Nat := 0x00001301
/-- BYPASS_STUCK (02_module_hardware): MEMS array did not reach its state in 10 ms. -/
@[simp, reducible] def bypassStuck : Nat := 0x00001403
/-- BYPASS_FORCED (02_module_hardware): Insertion refused by hw.bypass_force. -/
@[simp, reducible] def bypassForced : Nat := 0x00001502
/-- AUX_SEQUENCE (02_module_hardware): 12 V arrived before AUX was stable (R53). -/
@[simp, reducible] def auxSequence : Nat := 0x00001601
/-- UNLOGGED_POWER_LOSS (02_module_hardware): Previous power loss found unlogged at start. -/
@[simp, reducible] def unloggedPowerLoss : Nat := 0x00001701
/-- RELAY_FAULT (02_module_hardware): Relay state disagrees with its drive after 4 ms. -/
@[simp, reducible] def relayFault : Nat := 0x00001803
/-- VALUE_RANGE (02_module_hardware): Written value outside the entry's range. -/
@[simp, reducible] def valueRange : Nat := 0x00001902
/-- RESTART_REFUSED (02_module_hardware): hw.restart written with no trip in force, or with the die at 90 °C or above (R61). -/
@[simp, reducible] def restartRefused : Nat := 0x00001A02
/-- NOT_READY (03_bringup_and_rushes): Changeover commit before readiness. -/
@[simp, reducible] def notReady : Nat := 0x00002002
/-- RUSHES_LIMIT (03_bringup_and_rushes): Configuration exceeds Table 3.2. -/
@[simp, reducible] def rushesLimit : Nat := 0x00002102
/-- IMAGE_FALLBACK (03_bringup_and_rushes): Other image booted. -/
@[simp, reducible] def imageFallback : Nat := 0x00002201
/-- NO_VALID_IMAGE (03_bringup_and_rushes): Recovery entered. -/
@[simp, reducible] def noValidImage : Nat := 0x00002303
/-- BRINGUP_TIMEOUT (03_bringup_and_rushes): Gating step not complete in time. -/
@[simp, reducible] def bringupTimeout : Nat := 0x00002403
/-- DRAM_BRINGUP (03_bringup_and_rushes): Fewer than four channels; held in rushes service. -/
@[simp, reducible] def dramBringup : Nat := 0x00002503
/-- NO_REFERENCE_AT_START (03_bringup_and_rushes): Started on the site clock. -/
@[simp, reducible] def noReferenceAtStart : Nat := 0x00002601
/-- RUSHES_UNAVAILABLE (03_bringup_and_rushes): Request needs a withheld function. -/
@[simp, reducible] def rushesUnavailable : Nat := 0x00002702
/-- MEMTEST_RANK (03_bringup_and_rushes): Rank failed the memory test and was spared. -/
@[simp, reducible] def memtestRank : Nat := 0x00002801
/-- MODE_INVALID (04_intake): Combination not in Table 4.2. -/
@[simp, reducible] def modeInvalid : Nat := 0x01000102
/-- LANE_RATE_RANGE (04_intake): Sample rate or lane rate out of range (R90). -/
@[simp, reducible] def laneRateRange : Nat := 0x01000202
/-- LAYOUT_CONFLICT (04_intake): Mode does not fit the port layout. -/
@[simp, reducible] def layoutConflict : Nat := 0x01000302
/-- LANE_MAP_CONFLICT (04_intake): Physical lane named twice. -/
@[simp, reducible] def laneMapConflict : Nat := 0x01000402
/-- OVR_NO_CONTROL_BIT (04_intake): itk.ovr_bit not below CS. -/
@[simp, reducible] def ovrNoControlBit : Nat := 0x01000502
/-- SHS_MODE (04_intake): Sync-header stream not CRC-12. -/
@[simp, reducible] def shsMode : Nat := 0x01000602
/-- ILAS_MISMATCH (04_intake): ILAS disagrees with configuration. -/
@[simp, reducible] def ilasMismatch : Nat := 0x01000702
/-- FS_MISMATCH (04_intake): Measured rate more than 100 ppm from itk.fs. -/
@[simp, reducible] def fsMismatch : Nat := 0x01000802
/-- SYSREF_PERIOD (04_intake): SYSREF period not a multiple of the multiblock clock. -/
@[simp, reducible] def sysrefPeriod : Nat := 0x01000902
/-- SYSREF_ABSENT (04_intake): No SYSREF in 10 ms. -/
@[simp, reducible] def sysrefAbsent : Nat := 0x01000A01
/-- SYSREF_DRIFT (04_intake): SYSREF edge off the running clock. -/
@[simp, reducible] def sysrefDrift : Nat := 0x01000B01
/-- SYSREF_MARGINAL (04_intake): Sampling margin below 40 ps. -/
@[simp, reducible] def sysrefMarginal : Nat := 0x01000C01
/-- RELEASE_LATE (04_intake): Release margin or buffer limit violated. -/
@[simp, reducible] def releaseLate : Nat := 0x01000D03
/-- LANE_FAULT (04_intake): Lane faulted; link gap opened. -/
@[simp, reducible] def laneFault : Nat := 0x01000E03
/-- CRC_BURST (04_intake): CRC error rate exceeded. -/
@[simp, reducible] def crcBurst : Nat := 0x01000F01
/-- LANE_CAL_FAIL (04_intake): Lane failed receiver calibration. -/
@[simp, reducible] def laneCalFail : Nat := 0x01001003
/-- LINK_NO_LOCK (04_intake): Link has not left state 1, 2 or 3 within 10 ms (R100). -/
@[simp, reducible] def linkNoLock : Nat := 0x01001101
/-- SOURCE_INVALID (05_channeliser): Source not allowed for the DDC, a link the port's layout does not provide, or standby entry written. -/
@[simp, reducible] def sourceInvalid : Nat := 0x02000102
/-- DEPTH_RANGE (05_channeliser): Depth above 16. -/
@[simp, reducible] def depthRange : Nat := 0x02000202
/-- RATE_EXCEEDED (05_channeliser): Input faster than 8 × the island clock. -/
@[simp, reducible] def rateExceeded : Nat := 0x02000302
/-- DELAY_RANGE (05_channeliser): Delay entry out of range. -/
@[simp, reducible] def delayRange : Nat := 0x02000402
/-- DET_RATE (05_channeliser): Detector window under 160 ns with a ring set. -/
@[simp, reducible] def detRate : Nat := 0x02000502
/-- STANDBY_BUSY (05_channeliser): Standby covering a failed DDC. -/
@[simp, reducible] def standbyBusy : Nat := 0x02000602
/-- REPOINT_ACTIVE (05_channeliser): A repointing is already running. -/
@[simp, reducible] def repointActive : Nat := 0x02000702
/-- DDC_FAULT (05_channeliser): DDC failed; standby engaging. -/
@[simp, reducible] def ddcFault : Nat := 0x02000803
/-- STANDBY_ENGAGED (05_channeliser): Standby delivering for a failed DDC. -/
@[simp, reducible] def standbyEngaged : Nat := 0x02000901
/-- NO_STANDBY (05_channeliser): DDC failed with the standby in use; output stopped. -/
@[simp, reducible] def noStandby : Nat := 0x02000A03
/-- OUTPUT_SATURATION (05_channeliser): Output samples saturated in the last second. -/
@[simp, reducible] def outputSaturation : Nat := 0x02000B01
/-- R2C_FAULT (05_channeliser): Real-to-complex section held down. -/
@[simp, reducible] def r2cFault : Nat := 0x02000C03
/-- LAYER_LEN (06_spectral_engine): N not an allowed power of two. -/
@[simp, reducible] def layerLen : Nat := 0x03000102
/-- HOP_RANGE (06_spectral_engine): Hop shift above 4. -/
@[simp, reducible] def hopRange : Nat := 0x03000202
/-- LAYER_SOURCE (06_spectral_engine): Source code invalid or of another port. -/
@[simp, reducible] def layerSource : Nat := 0x03000302
/-- LAYER_BUDGET (06_spectral_engine): FFT throughput exceeded. -/
@[simp, reducible] def layerBudget : Nat := 0x03000402
/-- SPECTRA_RATE (06_spectral_engine): Frame rate exceeded. -/
@[simp, reducible] def spectraRate : Nat := 0x03000502
/-- LAYER_MEMORY (06_spectral_engine): Layer memory exceeded. -/
@[simp, reducible] def layerMemory : Nat := 0x03000602
/-- SOURCE_RATE (06_spectral_engine): DDC source bus exceeded. -/
@[simp, reducible] def sourceRate : Nat := 0x03000702
/-- MASK_FEED_RATE (06_spectral_engine): A mask-fed layer above 32 bins per clock. -/
@[simp, reducible] def maskFeedRate : Nat := 0x03000802
/-- DENSITY_FEED_RATE (06_spectral_engine): Density layer above 32 bins per clock. -/
@[simp, reducible] def densityFeedRate : Nat := 0x03000902
/-- WINDOW_PARAM (06_spectral_engine): β, σ or user table invalid. -/
@[simp, reducible] def windowParam : Nat := 0x03000A02
/-- DET_RANGE (06_spectral_engine): Detector setting outside R152. -/
@[simp, reducible] def detRange : Nat := 0x03000B02
/-- REC_RANGE (06_spectral_engine): Point range outside the trace. -/
@[simp, reducible] def recRange : Nat := 0x03000C02
/-- CORE_FAULT (06_spectral_engine): Core failed. -/
@[simp, reducible] def coreFault : Nat := 0x03000D03
/-- CORE_STANDBY_ENGAGED (06_spectral_engine): Standby carrying a failed core's share. -/
@[simp, reducible] def coreStandbyEngaged : Nat := 0x03000E01
/-- CORE_NO_STANDBY (06_spectral_engine): Core failed with the standby in use. -/
@[simp, reducible] def coreNoStandby : Nat := 0x03000F03
/-- STANDBY_BUSY (06_spectral_engine): Standby covering a failed core. -/
@[simp, reducible] def speStandbyBusy : Nat := 0x03001002
/-- REPOINT_ACTIVE (06_spectral_engine): A repointing is already running. -/
@[simp, reducible] def speRepointActive : Nat := 0x03001102
/-- BIN_SATURATION (06_spectral_engine): Points saturated in the last second. -/
@[simp, reducible] def binSaturation : Nat := 0x03001201
/-- LAYER_MEM_ERROR (06_spectral_engine): Uncorrectable layer-pool error. -/
@[simp, reducible] def layerMemError : Nat := 0x03001303
/-- LAYER_SHED (06_spectral_engine): Layer shed under R161. -/
@[simp, reducible] def layerShed : Nat := 0x03001401
/-- COND_TYPE (07_triggers_and_takes): Type or source not allowed. -/
@[simp, reducible] def condType : Nat := 0x04000102
/-- COND_PARAM (07_triggers_and_takes): Quantity, polarity, level or comparison invalid. -/
@[simp, reducible] def condParam : Nat := 0x04000202
/-- MASK_LAYER (07_triggers_and_takes): Layer off or of another lane. -/
@[simp, reducible] def maskLayer : Nat := 0x04000302
/-- MASK_TABLE (07_triggers_and_takes): Breakpoints invalid (R180). -/
@[simp, reducible] def maskTable : Nat := 0x04000402
/-- CHAIN_INVALID (07_triggers_and_takes): Stage setting invalid. -/
@[simp, reducible] def chainInvalid : Nat := 0x04000502
/-- HORIZON_SPREAD (07_triggers_and_takes): Queue limit of R186 exceeded. -/
@[simp, reducible] def horizonSpread : Nat := 0x04000602
/-- TOUT_DELAY (07_triggers_and_takes): Delay below H + 20 ns; raised when at a cut. -/
@[simp, reducible] def toutDelay : Nat := 0x04000702
/-- CHANNEL_RATE (07_triggers_and_takes): Channels of unequal rate. -/
@[simp, reducible] def channelRate : Nat := 0x04000802
/-- FORMAT_SOURCE (07_triggers_and_takes): REAL16 with a complex channel. -/
@[simp, reducible] def formatSource : Nat := 0x04000902
/-- TAKE_TOO_LARGE (07_triggers_and_takes): Take exceeds the magazine without spill. -/
@[simp, reducible] def takeTooLarge : Nat := 0x04000A02
/-- HISTORY_SPACE (07_triggers_and_takes): Take memory exhausted. -/
@[simp, reducible] def historySpace : Nat := 0x04000B02
/-- MAG_NO_MEMORY (07_triggers_and_takes): Capture memory exhausted. -/
@[simp, reducible] def magNoMemory : Nat := 0x04000C02
/-- MAG_ARMED (07_triggers_and_takes): Geometry staged for an armed magazine. -/
@[simp, reducible] def magArmed : Nat := 0x04000D02
/-- MAG_STATE (07_triggers_and_takes): Command not valid in the present state, or no reel open for spill. -/
@[simp, reducible] def magState : Nat := 0x04000E02
/-- MAG_FULL (07_triggers_and_takes): Magazine full. -/
@[simp, reducible] def magFull : Nat := 0x04000F01
/-- MASK_STOPPED (07_triggers_and_takes): Mask stopped on violation. -/
@[simp, reducible] def maskStopped : Nat := 0x04001001
/-- REMOTE_LATE (07_triggers_and_takes): Remote event beyond its horizon. -/
@[simp, reducible] def remoteLate : Nat := 0x04001101
/-- TRAILER_FULL (07_triggers_and_takes): Take closed with its log entry full. -/
@[simp, reducible] def trailerFull : Nat := 0x04001203
/-- QUEUE_ERROR (07_triggers_and_takes): Uncorrectable queue error. -/
@[simp, reducible] def queueError : Nat := 0x04001303
/-- BANK_FAULT (07_triggers_and_takes): Instance failed and reset. -/
@[simp, reducible] def bankFault : Nat := 0x04001403
/-- MASK_TABLE_RELOAD (07_triggers_and_takes): Mask table reloaded from the shadow. -/
@[simp, reducible] def maskTableReload : Nat := 0x04001501
/-- DEN_LAYER (08_density_engine): Fed layer off. -/
@[simp, reducible] def denLayer : Nat := 0x05000102
/-- DEN_GEOMETRY (08_density_engine): W, R or cell count outside R210. -/
@[simp, reducible] def denGeometry : Nat := 0x05000202
/-- DEN_BIN_RANGE (08_density_engine): Columns reach beyond the layer's N. -/
@[simp, reducible] def denBinRange : Nat := 0x05000302
/-- DEN_PARAM (08_density_engine): Step, decay, period, export or map setting out of range. -/
@[simp, reducible] def denParam : Nat := 0x05000402
/-- THR_REGION (08_density_engine): Threshold region invalid. -/
@[simp, reducible] def thrRegion : Nat := 0x05000502
/-- VP_HANDLE (08_density_engine): Viewport handle, layer or format invalid, or layer claimed by another plane. -/
@[simp, reducible] def vpHandle : Nat := 0x05000602
/-- EXPORT_SKIPPED (08_density_engine): Viewport write skipped. -/
@[simp, reducible] def exportSkipped : Nat := 0x05000701
/-- CELL_SATURATION (08_density_engine): Cells saturated in the last second. -/
@[simp, reducible] def cellSaturation : Nat := 0x05000801
/-- PLANE_MEM_ERROR (08_density_engine): Uncorrectable plane memory error. -/
@[simp, reducible] def planeMemError : Nat := 0x05000903
/-- DENSITY_FAULT (08_density_engine): Increment logic failed; plane reset. -/
@[simp, reducible] def densityFault : Nat := 0x05000A03
/-- DEN_SOURCE_LOST (08_density_engine): Fed layer shed; plane stopped. -/
@[simp, reducible] def denSourceLost : Nat := 0x05000B01
/-- TIMING_RANGE (09_viewport): User timing outside R232. -/
@[simp, reducible] def timingRange : Nat := 0x06000102
/-- MODE_UNSUPPORTED (09_viewport): No link combination carries the mode; output dark. -/
@[simp, reducible] def modeUnsupported : Nat := 0x06000201
/-- HANDLE_INVALID (09_viewport): Generation or entry does not match. -/
@[simp, reducible] def handleInvalid : Nat := 0x06000302
/-- HANDLE_FREEING (09_viewport): Handle has a free pending. -/
@[simp, reducible] def handleFreeing : Nat := 0x06000402
/-- HANDLE_LIMIT (09_viewport): 64 handles allocated. -/
@[simp, reducible] def handleLimit : Nat := 0x06000502
/-- POOL_FULL (09_viewport): Pool cannot hold the buffer. -/
@[simp, reducible] def poolFull : Nat := 0x06000602
/-- POOL_IN_USE (09_viewport): Pool size changed with handles allocated. -/
@[simp, reducible] def poolInUse : Nat := 0x06000702
/-- LAYER_CLAIMED (09_viewport): Handle written on a plane's layer. -/
@[simp, reducible] def layerClaimed : Nat := 0x06000802
/-- LAYER_PARAM (09_viewport): Zoom, palette, format or layer invalid. -/
@[simp, reducible] def layerParam : Nat := 0x06000902
/-- ROLL_PARAM (09_viewport): Roll source or point range invalid. -/
@[simp, reducible] def rollParam : Nat := 0x06000A02
/-- UNDERRUN (09_viewport): Frame aborted. -/
@[simp, reducible] def underrun : Nat := 0x06000B01
/-- READBACK_MISMATCH (09_viewport): Output CRC disagrees. -/
@[simp, reducible] def readbackMismatch : Nat := 0x06000C01
/-- COMPOSER_FAULT (09_viewport): Composer reset. -/
@[simp, reducible] def composerFault : Nat := 0x06000D03
/-- HASH_MASK (10_capture_store): Mask bits outside R258. -/
@[simp, reducible] def hashMask : Nat := 0x07000102
/-- HASH_LOCKED (10_capture_store): Hash mask written after the changeover. -/
@[simp, reducible] def hashLocked : Nat := 0x07000202
/-- REGULATOR_BELOW_STREAM (10_capture_store): Capture port rate below its streams (R268). -/
@[simp, reducible] def regulatorBelowStream : Nat := 0x07000302
/-- CS_FORMAT (10_capture_store): REAL16 with a source that is not a real link. -/
@[simp, reducible] def csFormat : Nat := 0x07000402
/-- CS_STATE (10_capture_store): Command not valid in the present state. -/
@[simp, reducible] def csState : Nat := 0x07000502
/-- CS_RUNNING (10_capture_store): Geometry staged for a running stream. -/
@[simp, reducible] def csRunning : Nat := 0x07000602
/-- CS_NO_MEMORY (10_capture_store): Region or log cannot be allocated. -/
@[simp, reducible] def csNoMemory : Nat := 0x07000702
/-- UNCORRECTABLE (10_capture_store): Burst lost. -/
@[simp, reducible] def uncorrectable : Nat := 0x07000803
/-- RANK_RETIRED (10_capture_store): Rank replaced by its spare. -/
@[simp, reducible] def rankRetired : Nat := 0x07000901
/-- CHANNEL_RETIRED (10_capture_store): Channel retired; operation on the channels left in service. -/
@[simp, reducible] def channelRetired : Nat := 0x07000A03
/-- HOLED_ALLOCATION (10_capture_store): Allocation lost its granules in a retired channel. -/
@[simp, reducible] def holedAllocation : Nat := 0x07000B01
/-- DRAM_HOT (10_capture_store): DRAM above 95 °C. -/
@[simp, reducible] def dramHot : Nat := 0x07000C01
/-- HOD_DISCARD (10_capture_store): Hod buffer discarded blocks (R26). -/
@[simp, reducible] def hodDiscard : Nat := 0x07000D01
/-- CAPTURE_STOPPED (10_capture_store): Last channel retired; capture memory out of service (R500). -/
@[simp, reducible] def captureStopped : Nat := 0x07000E03
/-- RING_OPEN (11_stream_engine): Context written while open. -/
@[simp, reducible] def ringOpen : Nat := 0x08000102
/-- RING_PARAM (11_stream_engine): Size, alignment, vector or backlog invalid. -/
@[simp, reducible] def ringParam : Nat := 0x08000202
/-- RING_TARGET (11_stream_engine): Target unavailable: reel not open, remote module not joined, or rushes service. -/
@[simp, reducible] def ringTarget : Nat := 0x08000302
/-- RING_SPACE (11_stream_engine): Backlog or buffer cannot be allocated. -/
@[simp, reducible] def ringSpace : Nat := 0x08000402
/-- RING_TOO_SMALL (11_stream_engine): Producer record longer than S/2. -/
@[simp, reducible] def ringTooSmall : Nat := 0x08000502
/-- RING_STATE (11_stream_engine): Command invalid in the present state. -/
@[simp, reducible] def ringState : Nat := 0x08000602
/-- RING_DOORBELL (11_stream_engine): Doorbell value ignored. -/
@[simp, reducible] def ringDoorbell : Nat := 0x08000701
/-- RING_CONTEXT (11_stream_engine): Uncorrectable context error. -/
@[simp, reducible] def ringContext : Nat := 0x08000803
/-- QUEUE_MEMORY (11_stream_engine): Queue memory exceeded. -/
@[simp, reducible] def queueMemory : Nat := 0x08000902
/-- DRIVE_LBA_FORMAT (11_stream_engine): LBA format not 4,096 bytes without metadata. -/
@[simp, reducible] def driveLbaFormat : Nat := 0x08000A02
/-- DRIVE_REFUSED (11_stream_engine): Other refusal (R301). -/
@[simp, reducible] def driveRefused : Nat := 0x08000B02
/-- DRIVE_LOST (11_stream_engine): Drive lost. -/
@[simp, reducible] def driveLost : Nat := 0x08000C03
/-- DRIVE_TIMEOUT (11_stream_engine): Command aborted. -/
@[simp, reducible] def driveTimeout : Nat := 0x08000D01
/-- VOLUME_STATE (11_stream_engine): Volume command invalid now. -/
@[simp, reducible] def volumeState : Nat := 0x08000E02
/-- REEL_STATE (11_stream_engine): Reel command invalid now. -/
@[simp, reducible] def reelState : Nat := 0x08000F02
/-- REEL_RATE (11_stream_engine): Rate above the members' credit. -/
@[simp, reducible] def reelRate : Nat := 0x08001002
/-- REEL_FULL (11_stream_engine): No further extent. -/
@[simp, reducible] def reelFull : Nat := 0x08001101
/-- REEL_RECOVERED (11_stream_engine): Open reel completed at mount. -/
@[simp, reducible] def reelRecovered : Nat := 0x08001201
/-- SPOOL_FULL (11_stream_engine): Spool-full gap opened. -/
@[simp, reducible] def spoolFull : Nat := 0x08001301
/-- SPOOL_SIZE (11_stream_engine): Spool below its minimum. -/
@[simp, reducible] def spoolSize : Nat := 0x08001402
/-- PB_RATE (11_stream_engine): Playback rate too high. -/
@[simp, reducible] def pbRate : Nat := 0x08001502
/-- PB_RANGE (11_stream_engine): Samples not available. -/
@[simp, reducible] def pbRange : Nat := 0x08001602
/-- PB_UNDERFLOW (11_stream_engine): Samples not staged in time. -/
@[simp, reducible] def pbUnderflow : Nat := 0x08001701
/-- HOST_LINK_DOWN (11_stream_engine): Host link lost. -/
@[simp, reducible] def hostLinkDown : Nat := 0x08001801
/-- SSC_REFUSED (12_timebase): Spread refused for the island (R327, R14). -/
@[simp, reducible] def sscRefused : Nat := 0x09000102
/-- SSC_RANGE (12_timebase): Spread depth out of range. -/
@[simp, reducible] def sscRange : Nat := 0x09000202
/-- AUX_RATIO (12_timebase): Auxiliary frequency outside 100 MHz–3.2 GHz. -/
@[simp, reducible] def auxRatio : Nat := 0x09000302
/-- SYSREF_RATIO (12_timebase): SYSREF period not a multiple of the port's clocks. -/
@[simp, reducible] def sysrefRatio : Nat := 0x09000402
/-- SYSREF_MODE (12_timebase): Burst requested outside burst mode. -/
@[simp, reducible] def sysrefMode : Nat := 0x09000502
/-- REF_FREQ_RANGE (12_timebase): Declared input frequency out of range. -/
@[simp, reducible] def refFreqRange : Nat := 0x09000602
/-- REF_INVALID (12_timebase): An input became invalid. -/
@[simp, reducible] def refInvalid : Nat := 0x09000701
/-- REF_SWITCH (12_timebase): Switchover completed. -/
@[simp, reducible] def refSwitch : Nat := 0x09000801
/-- NO_REFERENCE (12_timebase): No valid input; gated or coasting. -/
@[simp, reducible] def noReference : Nat := 0x09000903
/-- TIME_STEP (12_timebase): TIME96 stepped. -/
@[simp, reducible] def timeStep : Nat := 0x09000A01
/-- PPS_LOST (12_timebase): No PPS edge for 2 s. -/
@[simp, reducible] def ppsLost : Nat := 0x09000B01
/-- PLL_RELOCK (12_timebase): Unrequested loss of lock. -/
@[simp, reducible] def pllRelock : Nat := 0x09000C01
/-- PLL_FAULT (12_timebase): PLL failed to lock. -/
@[simp, reducible] def pllFault : Nat := 0x09000D03
/-- IM_SOURCE (13_interval_meter): Site code invalid, or reserved to a service. -/
@[simp, reducible] def imSource : Nat := 0x0A000102
/-- IM_MODE (13_interval_meter): Mode 2 on a light channel, or a stop site in mode 2. -/
@[simp, reducible] def imMode : Nat := 0x0A000202
/-- IM_WINDOW (13_interval_meter): Window bounds invalid (R351, R353). -/
@[simp, reducible] def imWindow : Nat := 0x0A000302
/-- IM_GATE (13_interval_meter): Gate or stamps out of range, or spacing below 2 ns. -/
@[simp, reducible] def imGate : Nat := 0x0A000402
/-- IN_PARAM (13_interval_meter): Threshold, hysteresis or hold-off invalid. -/
@[simp, reducible] def inParam : Nat := 0x0A000502
/-- IM_STATE (13_interval_meter): Command invalid in the present state. -/
@[simp, reducible] def imState : Nat := 0x0A000602
/-- IM_CAL_FAIL (13_interval_meter): Calibration outside 900–1,200 taps. -/
@[simp, reducible] def imCalFail : Nat := 0x0A000701
/-- IM_INTERP_FAULT (13_interval_meter): Interpolator taken out of rotation. -/
@[simp, reducible] def imInterpFault : Nat := 0x0A000803
/-- IM_SITE_FAULT (13_interval_meter): Site stopped stamping. -/
@[simp, reducible] def imSiteFault : Nat := 0x0A000903
/-- IM_RECORDS_LOST (13_interval_meter): Result records not written. -/
@[simp, reducible] def imRecordsLost : Nat := 0x0A000A01
/-- CF_CABLING (14_course_fabric): Ports or identities do not pair (R367). -/
@[simp, reducible] def cfCabling : Nat := 0x0B000103
/-- CF_DUP_ID (14_course_fabric): Slot identity already joined. -/
@[simp, reducible] def cfDupId : Nat := 0x0B000203
/-- CF_VERSION (14_course_fabric): Protocol versions differ. -/
@[simp, reducible] def cfVersion : Nat := 0x0B000303
/-- CF_TIME_SRC (14_course_fabric): Join with tb.time_src ≠ 3. -/
@[simp, reducible] def cfTimeSrc : Nat := 0x0B000402
/-- CF_BCAST_ID (14_course_fabric): Broadcast identifier above 255. -/
@[simp, reducible] def cfBcastId : Nat := 0x0B000502
/-- CF_STATE (14_course_fabric): Command invalid in the present state. -/
@[simp, reducible] def cfState : Nat := 0x0B000602
/-- CF_SLOT_UNKNOWN (14_course_fabric): Slot not in the map. -/
@[simp, reducible] def cfSlotUnknown : Nat := 0x0B000702
/-- CF_LINK_DOWN (14_course_fabric): Port down (R370). -/
@[simp, reducible] def cfLinkDown : Nat := 0x0B000803
/-- CF_BCAST_DROPPED (14_course_fabric): Fire dropped at origination. -/
@[simp, reducible] def cfBcastDropped : Nat := 0x0B000901
/-- CF_RDA_TIMEOUT (14_course_fabric): Dictionary request unanswered. -/
@[simp, reducible] def cfRdaTimeout : Nat := 0x0B000A01
/-- CF_UNREACHABLE (14_course_fabric): Destination unreachable beyond cf.data_timeout. -/
@[simp, reducible] def cfUnreachable : Nat := 0x0B000B01
/-- CF_FREQ_MISMATCH (14_course_fabric): Frequency against parent above 0.1 ppm. -/
@[simp, reducible] def cfFreqMismatch : Nat := 0x0B000C03
/-- CF_PREPARE_LAPSED (14_course_fabric): Preparation ended after 120 s. -/
@[simp, reducible] def cfPrepareLapsed : Nat := 0x0B000D01
/-- NO_ENTRY (15_object_dictionary): Index absent. -/
@[simp, reducible] def noEntry : Nat := 0x00003002
/-- ACCESS_READ_ONLY (15_object_dictionary): Write to RO. -/
@[simp, reducible] def accessReadOnly : Nat := 0x00003102
/-- ACCESS_WRITE_ONLY (15_object_dictionary): Read of WO over SDO or the fabric. -/
@[simp, reducible] def accessWriteOnly : Nat := 0x00003202
/-- TYPE_LENGTH (15_object_dictionary): Length or write width wrong. -/
@[simp, reducible] def typeLength : Nat := 0x00003302
/-- RWC_LOCKED (15_object_dictionary): RWC written outside the configuration state. -/
@[simp, reducible] def rwcLocked : Nat := 0x00003402
/-- WRITE_PATH_LOCKED (15_object_dictionary): Path disabled. -/
@[simp, reducible] def writePathLocked : Nat := 0x00003502
/-- SUPERVISOR_RESTART (15_object_dictionary): Request dropped or queued across a restart. -/
@[simp, reducible] def supervisorRestart : Nat := 0x00003601
/-- ISLAND_OFF (15_object_dictionary): Live read of an island that is off. -/
@[simp, reducible] def islandOff : Nat := 0x00003701
/-- PDO_MAPPING (15_object_dictionary): Mapping invalid. -/
@[simp, reducible] def pdoMapping : Nat := 0x00003802
/-- EMCY_LOST (15_object_dictionary): Emergency queue full. -/
@[simp, reducible] def emcyLost : Nat := 0x00003901
/-- BULK_RANGE (15_object_dictionary): Bulk offset or length beyond 512. -/
@[simp, reducible] def bulkRange : Nat := 0x00003A02
/-- DC_CYCLE (15_object_dictionary): SYNC0 cycle does not divide 1 s. -/
@[simp, reducible] def dcCycle : Nat := 0x00003B02
/-- NO_SUBENTRY (15_object_dictionary): Subindex absent under an index that exists. -/
@[simp, reducible] def noSubentry : Nat := 0x00003C02
/-- SLEEP_REFUSED (16_power_and_energy): Sleep requested while R430 forbids it. -/
@[simp, reducible] def sleepRefused : Nat := 0x00004002
/-- POINT_INVALID (16_power_and_energy): Point above 3, or a target deeper than the island's limit. -/
@[simp, reducible] def pointInvalid : Nat := 0x00004102
/-- DEGRADED (16_power_and_energy): pwr.degraded changed. -/
@[simp, reducible] def degraded : Nat := 0x00004201
/-- CAP_ENGAGED (16_power_and_energy): Cap step taken. -/
@[simp, reducible] def capEngaged : Nat := 0x00004301
/-- CAP_UNREACHABLE (16_power_and_energy): All permitted steps taken; power above the cap. -/
@[simp, reducible] def capUnreachable : Nat := 0x00004403
/-- SLEEP_DECLINED (16_power_and_energy): Sleep abandoned for a wake in the same clock. -/
@[simp, reducible] def sleepDeclined : Nat := 0x00004501
/-- CAL_OBJECT (17_calibration): Object code invalid, or withheld in rushes service. -/
@[simp, reducible] def calObject : Nat := 0x00005002
/-- CAL_BUSY (17_calibration): A calibration already runs. -/
@[simp, reducible] def calBusy : Nat := 0x00005102
/-- CAL_LAG (17_calibration): Written L_c below a measured lag. -/
@[simp, reducible] def calLag : Nat := 0x00005202
/-- CAL_DISAGREE (17_calibration): Runs did not agree in any attempt. -/
@[simp, reducible] def calDisagree : Nat := 0x00005301
/-- CAL_NO_SIGNAL (17_calibration): Runs failed for lack of signal or by disturbance. -/
@[simp, reducible] def calNoSignal : Nat := 0x00005401
/-- CAL_RANGE (17_calibration): Result outside its entry's range, or trim loop at a limit. -/
@[simp, reducible] def calRange : Nat := 0x00005502
/-- CAL_DUE (17_calibration): Fixture object due. -/
@[simp, reducible] def calDue : Nat := 0x00005601
/-- CAL_DRIFT (17_calibration): Ring loop delay more than 20 ps from factory. -/
@[simp, reducible] def calDrift : Nat := 0x00005701
/-- CAL_FLASH (17_calibration): Save refused by flash. -/
@[simp, reducible] def calFlash : Nat := 0x00005803
/-- CTR_EVENT (18_counters): Event code or instance absent. -/
@[simp, reducible] def ctrEvent : Nat := 0x00006002
/-- CTR_SNAP_SKIPPED (18_counters): Snapshot not taken; both banks in use. -/
@[simp, reducible] def ctrSnapSkipped : Nat := 0x00006101
/-- CTR_RECORDS_LOST (18_counters): Snapshot or sample records not written. -/
@[simp, reducible] def ctrRecordsLost : Nat := 0x00006201
/-- REPOINT_BUSY (19_faults_and_service): A repointing already runs. -/
@[simp, reducible] def repointBusy : Nat := 0x00007002
/-- REPOINT_TARGET (19_faults_and_service): Island or instance cannot be repointed. -/
@[simp, reducible] def repointTarget : Nat := 0x00007102
/-- REPOINT_SELFTEST (19_faults_and_service): Instance failed its self-test; previous contents kept. -/
@[simp, reducible] def repointSelftest : Nat := 0x00007203
/-- IMAGE_INVALID (19_faults_and_service): Image fails length, CRC-32 or signature. -/
@[simp, reducible] def imageInvalid : Nat := 0x00007302
/-- UPDATE_MASK (19_faults_and_service): Mask lacks an island the image requires. -/
@[simp, reducible] def updateMask : Nat := 0x00007402
/-- UPDATE_STATE (19_faults_and_service): Image command invalid in the present state. -/
@[simp, reducible] def updateState : Nat := 0x00007502
/-- UPDATE_CONFIRMED (19_faults_and_service): Switch confirmed. -/
@[simp, reducible] def updateConfirmed : Nat := 0x00007601
/-- UPDATE_REVERTED (19_faults_and_service): Switch reverted to the previous image. -/
@[simp, reducible] def updateReverted : Nat := 0x00007703
/-- DRAIN_FORCED (19_faults_and_service): Disable discarded work at 50 µs (R487). -/
@[simp, reducible] def drainForced : Nat := 0x00007801
/-- STANDBY_FAILED (19_faults_and_service): Idle standby failed its self-test. -/
@[simp, reducible] def standbyFailed : Nat := 0x00007903
/-- SUPERVISOR_FAULT (19_faults_and_service): Supervisor restarted after a fault or watchdog expiry. -/
@[simp, reducible] def supervisorFault : Nat := 0x0C000103

end Sys2Proof.Code
end

