-- ==== Sys2Proof/Machine/EntryTypes.lean ====
section
/-! DEFINITION. What a row of an entry table of the spec holds: access class and takes-effect form. -/

namespace Sys2Proof.Machine

/-- Access classes (R400, Table 15.3). -/
inductive Access where
  | ro | rw | wo | rwc
deriving DecidableEq, Repr

/-- Takes-effect forms (R401, Table 15.4). -/
inductive Effect where
  | never | now | cut | changeover | restart | nextCommit | commit | window | command | tick | write | stateChange
deriving DecidableEq, Repr

/-- One row of an entry table (R398). -/
structure Entry where
  ix : Nat
  subLo : Nat
  subHi : Nat
  ty : Nat
  access : Access
  dflt : Int
  effect : Effect
  min : Int
  max : Int
  rangeCode : Nat
  name : String
deriving DecidableEq, Repr

end Sys2Proof.Machine
end

