-- ==== Sys2Proof/Machine/DictTable.lean ====
section
/-! DEFINITION. The rows of the object dictionary, as the entry tables of the spec give them (R398): index, lowest and
highest subindex, type code (Table 15.2), access (Table 15.3), default, effect (Table 15.4), range, the code of a range
refusal (R401), name. A default the spec takes from flash, pins, the fitted module or the running image is 0 here (log entry 5). -/

namespace Sys2Proof.Machine

/-- Entries 0x10xx, part 0. -/
def rows10_0 : List Entry := [
  ⟨0x1000, 0, 0, 0x07, .ro, 0, .never, 0, 4294967295, Code.valueRange, "Device type"⟩,
  ⟨0x1001, 0, 0, 0x05, .ro, 0, .never, 0, 255, Code.valueRange, "Error register"⟩,
  ⟨0x1003, 0, 0, 0x05, .rw, 0, .now, 0, 255, Code.valueRange, "Error history count"⟩,
  ⟨0x1003, 1, 16, 0x07, .ro, 0, .never, 0, 4294967295, Code.valueRange, "Error history"⟩,
  ⟨0x1008, 0, 0, 0x09, .ro, 0, .never, 0, 512, Code.valueRange, "Device name"⟩,
  ⟨0x1009, 0, 0, 0x09, .ro, 0, .never, 0, 512, Code.valueRange, "Hardware version"⟩,
  ⟨0x100A, 0, 0, 0x09, .ro, 0, .never, 0, 512, Code.valueRange, "Software version"⟩,
  ⟨0x1018, 1, 1, 0x07, .ro, 2684, .never, 0, 4294967295, Code.valueRange, "Vendor ID"⟩,
  ⟨0x1018, 2, 2, 0x07, .ro, 4810, .never, 0, 4294967295, Code.valueRange, "Product code"⟩,
  ⟨0x1018, 3, 3, 0x07, .ro, 0, .never, 0, 4294967295, Code.valueRange, "Revision"⟩,
  ⟨0x1018, 4, 4, 0x07, .ro, 0, .never, 0, 4294967295, Code.valueRange, "Serial number"⟩]

/-- The entries of indices 0x1000 to 0x10FF. -/
def rows10 : List Entry := rows10_0

/-- Entries 0x16xx, part 0. -/
def rows16_0 : List Entry := [
  ⟨0x1600, 0, 0, 0x05, .rwc, 0, .stateChange, 0, 255, Code.valueRange, "RxPDO entries"⟩,
  ⟨0x1600, 1, 16, 0x07, .rwc, 0, .stateChange, 0, 4294967295, Code.valueRange, "RxPDO mapping"⟩,
  ⟨0x1601, 0, 0, 0x05, .rwc, 0, .stateChange, 0, 255, Code.valueRange, "RxPDO entries"⟩,
  ⟨0x1601, 1, 16, 0x07, .rwc, 0, .stateChange, 0, 4294967295, Code.valueRange, "RxPDO mapping"⟩,
  ⟨0x1602, 0, 0, 0x05, .rwc, 0, .stateChange, 0, 255, Code.valueRange, "RxPDO entries"⟩,
  ⟨0x1602, 1, 16, 0x07, .rwc, 0, .stateChange, 0, 4294967295, Code.valueRange, "RxPDO mapping"⟩,
  ⟨0x1603, 0, 0, 0x05, .rwc, 0, .stateChange, 0, 255, Code.valueRange, "RxPDO entries"⟩,
  ⟨0x1603, 1, 16, 0x07, .rwc, 0, .stateChange, 0, 4294967295, Code.valueRange, "RxPDO mapping"⟩,
  ⟨0x1604, 0, 0, 0x05, .rwc, 0, .stateChange, 0, 255, Code.valueRange, "RxPDO entries"⟩,
  ⟨0x1604, 1, 16, 0x07, .rwc, 0, .stateChange, 0, 4294967295, Code.valueRange, "RxPDO mapping"⟩,
  ⟨0x1605, 0, 0, 0x05, .rwc, 0, .stateChange, 0, 255, Code.valueRange, "RxPDO entries"⟩,
  ⟨0x1605, 1, 16, 0x07, .rwc, 0, .stateChange, 0, 4294967295, Code.valueRange, "RxPDO mapping"⟩,
  ⟨0x1606, 0, 0, 0x05, .rwc, 0, .stateChange, 0, 255, Code.valueRange, "RxPDO entries"⟩,
  ⟨0x1606, 1, 16, 0x07, .rwc, 0, .stateChange, 0, 4294967295, Code.valueRange, "RxPDO mapping"⟩,
  ⟨0x1607, 0, 0, 0x05, .rwc, 0, .stateChange, 0, 255, Code.valueRange, "RxPDO entries"⟩,
  ⟨0x1607, 1, 16, 0x07, .rwc, 0, .stateChange, 0, 4294967295, Code.valueRange, "RxPDO mapping"⟩]

/-- The entries of indices 0x1600 to 0x16FF. -/
def rows16 : List Entry := rows16_0

/-- Entries 0x1Axx, part 0. -/
def rows1A_0 : List Entry := [
  ⟨0x1A00, 0, 0, 0x05, .rwc, 4, .stateChange, 0, 255, Code.valueRange, "TxPDO entries"⟩,
  ⟨0x1A00, 1, 16, 0x07, .rwc, 0, .stateChange, 0, 4294967295, Code.valueRange, "TxPDO mapping"⟩,
  ⟨0x1A01, 0, 0, 0x05, .rwc, 0, .stateChange, 0, 255, Code.valueRange, "TxPDO entries"⟩,
  ⟨0x1A01, 1, 16, 0x07, .rwc, 0, .stateChange, 0, 4294967295, Code.valueRange, "TxPDO mapping"⟩,
  ⟨0x1A02, 0, 0, 0x05, .rwc, 0, .stateChange, 0, 255, Code.valueRange, "TxPDO entries"⟩,
  ⟨0x1A02, 1, 16, 0x07, .rwc, 0, .stateChange, 0, 4294967295, Code.valueRange, "TxPDO mapping"⟩,
  ⟨0x1A03, 0, 0, 0x05, .rwc, 0, .stateChange, 0, 255, Code.valueRange, "TxPDO entries"⟩,
  ⟨0x1A03, 1, 16, 0x07, .rwc, 0, .stateChange, 0, 4294967295, Code.valueRange, "TxPDO mapping"⟩,
  ⟨0x1A04, 0, 0, 0x05, .rwc, 0, .stateChange, 0, 255, Code.valueRange, "TxPDO entries"⟩,
  ⟨0x1A04, 1, 16, 0x07, .rwc, 0, .stateChange, 0, 4294967295, Code.valueRange, "TxPDO mapping"⟩,
  ⟨0x1A05, 0, 0, 0x05, .rwc, 0, .stateChange, 0, 255, Code.valueRange, "TxPDO entries"⟩,
  ⟨0x1A05, 1, 16, 0x07, .rwc, 0, .stateChange, 0, 4294967295, Code.valueRange, "TxPDO mapping"⟩,
  ⟨0x1A06, 0, 0, 0x05, .rwc, 0, .stateChange, 0, 255, Code.valueRange, "TxPDO entries"⟩,
  ⟨0x1A06, 1, 16, 0x07, .rwc, 0, .stateChange, 0, 4294967295, Code.valueRange, "TxPDO mapping"⟩,
  ⟨0x1A07, 0, 0, 0x05, .rwc, 0, .stateChange, 0, 255, Code.valueRange, "TxPDO entries"⟩,
  ⟨0x1A07, 1, 16, 0x07, .rwc, 0, .stateChange, 0, 4294967295, Code.valueRange, "TxPDO mapping"⟩]

/-- The entries of indices 0x1A00 to 0x1AFF. -/
def rows1A : List Entry := rows1A_0

/-- Entries 0x1Cxx, part 0. -/
def rows1C_0 : List Entry := [
  ⟨0x1C00, 1, 4, 0x05, .ro, 1, .never, 0, 255, Code.valueRange, "SM types"⟩,
  ⟨0x1C12, 0, 8, 0x06, .rwc, 0, .stateChange, 0, 65535, Code.valueRange, "RxPDO assignment"⟩,
  ⟨0x1C13, 0, 8, 0x06, .rwc, 0, .stateChange, 0, 65535, Code.valueRange, "TxPDO assignment"⟩,
  ⟨0x1C32, 1, 1, 0x06, .rwc, 0, .stateChange, 0, 65535, Code.valueRange, "SM2 sync mode"⟩,
  ⟨0x1C32, 2, 2, 0x07, .rwc, 1000000, .stateChange, 0, 4294967295, Code.valueRange, "SM2 cycle time"⟩,
  ⟨0x1C33, 1, 1, 0x06, .rwc, 0, .stateChange, 0, 65535, Code.valueRange, "SM3 sync mode"⟩,
  ⟨0x1C33, 2, 2, 0x07, .rwc, 1000000, .stateChange, 0, 4294967295, Code.valueRange, "SM3 cycle time"⟩]

/-- The entries of indices 0x1C00 to 0x1CFF. -/
def rows1C : List Entry := rows1C_0

/-- Entries 0x20xx, part 0. -/
def rows20_0 : List Entry := [
  ⟨0x2000, 1, 1, 0x09, .ro, 0, .never, 0, 512, Code.valueRange, "mod.part"⟩,
  ⟨0x2000, 2, 2, 0x05, .ro, 0, .never, 0, 255, Code.valueRange, "mod.grade"⟩,
  ⟨0x2000, 3, 3, 0x19, .ro, 0, .never, 0, 281474976710655, Code.valueRange, "mod.serial"⟩,
  ⟨0x2000, 4, 4, 0x06, .ro, 0, .never, 0, 65535, Code.valueRange, "mod.hw_issue"⟩,
  ⟨0x2000, 5, 5, 0x06, .ro, 0, .never, 0, 65535, Code.valueRange, "mod.slot_id"⟩,
  ⟨0x2000, 6, 6, 0x05, .ro, 0, .never, 0, 255, Code.valueRange, "mod.conv_present"⟩,
  ⟨0x2000, 7, 7, 0x05, .ro, 0, .never, 0, 255, Code.valueRange, "mod.drive_present"⟩,
  ⟨0x2010, 1, 8, 0x06, .ro, 0, .never, 0, 65535, Code.valueRange, "hw.rail_mv"⟩,
  ⟨0x2011, 1, 8, 0x06, .ro, 0, .never, 0, 65535, Code.valueRange, "hw.rail_ma"⟩,
  ⟨0x2012, 1, 6, 0x03, .ro, 0, .never, (-32768), 32767, Code.valueRange, "hw.temp"⟩,
  ⟨0x2013, 0, 0, 0x03, .rw, 1520, .now, 1360, 1600, Code.valueRange, "hw.temp_throttle"⟩,
  ⟨0x2014, 0, 0, 0x03, .ro, 1760, .never, (-32768), 32767, Code.valueRange, "hw.temp_trip"⟩,
  ⟨0x2015, 0, 0, 0x05, .wo, 0, .now, 1, 1, Code.valueRange, "hw.restart"⟩,
  ⟨0x2018, 1, 2, 0x05, .ro, 0, .never, 0, 255, Code.valueRange, "hw.bypass_state"⟩,
  ⟨0x2019, 1, 2, 0x05, .rw, 0, .now, 0, 1, Code.valueRange, "hw.bypass_force"⟩,
  ⟨0x201A, 1, 2, 0x19, .ro, 0, .never, 0, 281474976710655, Code.valueRange, "hw.bypass_cycles"⟩,
  ⟨0x201B, 0, 0, 0x05, .ro, 0, .never, 0, 255, Code.valueRange, "hw.ecat_relay"⟩,
  ⟨0x201C, 0, 0, 0x19, .ro, 0, .never, 0, 281474976710655, Code.valueRange, "hw.unlogged_loss"⟩,
  ⟨0x2040, 0, 0, 0x05, .wo, 0, .now, 1, 3, Code.valueRange, "mod.cut_commit"⟩,
  ⟨0x2041, 0, 0, 0x05, .ro, 2, .never, 0, 255, Code.valueRange, "mod.cut_at"⟩]

/-- Entries 0x20xx, part 1. -/
def rows20_1 : List Entry := [
  ⟨0x2041, 1, 1, 0x19, .rw, 0, .nextCommit, 0, 281474976710655, Code.valueRange, "mod.cut_at_sec"⟩,
  ⟨0x2041, 2, 2, 0x19, .rw, 0, .nextCommit, 0, 281474976710655, Code.valueRange, "mod.cut_at_frac"⟩,
  ⟨0x2042, 0, 0, 0x19, .ro, 0, .never, 0, 281474976710655, Code.valueRange, "mod.cut_seq"⟩,
  ⟨0x2043, 0, 0, 0x05, .ro, 0, .never, 0, 255, Code.valueRange, "mod.cut_state"⟩,
  ⟨0x2050, 0, 0, 0x05, .ro, 0, .never, 0, 255, Code.valueRange, "mod.service"⟩,
  ⟨0x2051, 0, 0, 0x06, .ro, 0, .never, 0, 65535, Code.valueRange, "mod.bringup"⟩,
  ⟨0x2052, 0, 0, 0x05, .rw, 1, .now, 0, 1, Code.valueRange, "mod.changeover_auto"⟩,
  ⟨0x2053, 0, 0, 0x05, .wo, 0, .now, 1, 1, Code.valueRange, "mod.changeover"⟩,
  ⟨0x2054, 1, 1, 0x19, .ro, 0, .never, 0, 281474976710655, Code.valueRange, "mod.changeover_sec"⟩,
  ⟨0x2054, 2, 2, 0x19, .ro, 0, .never, 0, 281474976710655, Code.valueRange, "mod.changeover_frac"⟩,
  ⟨0x2055, 0, 0, 0x05, .rw, 0, .restart, 0, 1, Code.valueRange, "mod.memtest"⟩,
  ⟨0x2056, 0, 0, 0x05, .rw, 0, .restart, 0, 2, Code.valueRange, "mod.boot_select"⟩,
  ⟨0x2057, 0, 0, 0x05, .ro, 0, .never, 0, 255, Code.valueRange, "mod.boot_image"⟩,
  ⟨0x2058, 1, 2, 0x05, .ro, 0, .never, 0, 255, Code.valueRange, "mod.image_state"⟩,
  ⟨0x2059, 0, 0, 0x19, .ro, 0, .never, 0, 281474976710655, Code.valueRange, "mod.boot_count"⟩,
  ⟨0x205A, 0, 0, 0x19, .ro, 0, .never, 0, 281474976710655, Code.valueRange, "mod.fallback_count"⟩,
  ⟨0x205B, 0, 0, 0x05, .wo, 0, .now, 1, 1, Code.valueRange, "mod.reset"⟩,
  ⟨0x205C, 1, 1, 0x07, .ro, 0, .never, 0, 4294967295, Code.valueRange, "mod.rushes_ms"⟩,
  ⟨0x205C, 2, 2, 0x07, .ro, 0, .never, 0, 4294967295, Code.valueRange, "mod.full_ms"⟩,
  ⟨0x2060, 0, 0, 0x05, .rw, 7, .now, 1, 255, Code.valueRange, "dict.write_paths"⟩]

/-- Entries 0x20xx, part 2. -/
def rows20_2 : List Entry := [
  ⟨0x2061, 0, 0, 0x05, .rw, 0, .now, 0, 1, Code.valueRange, "dict.view"⟩,
  ⟨0x2062, 0, 0, 0x07, .rw, 0, .now, 0, 4294967295, Code.valueRange, "dict.bulk_sel"⟩,
  ⟨0x2063, 0, 0, 0x06, .rw, 0, .now, 0, 504, Code.valueRange, "dict.bulk_off"⟩,
  ⟨0x2064, 0, 0, 0x1B, .rw, 0, .now, 0, 18446744073709551615, Code.valueRange, "dict.bulk_word"⟩,
  ⟨0x2065, 0, 0, 0x06, .rw, 0, .write, 0, 65535, Code.valueRange, "dict.bulk_len"⟩,
  ⟨0x2066, 0, 0, 0x06, .rw, 0, .now, 0, 65535, Code.valueRange, "dict.emcy_notice"⟩,
  ⟨0x2067, 0, 0, 0x19, .ro, 0, .never, 0, 281474976710655, Code.valueRange, "dict.config_hash"⟩,
  ⟨0x2068, 0, 0, 0x07, .ro, 0, .never, 0, 4294967295, Code.valueRange, "dict.desc_rev"⟩,
  ⟨0x2069, 1, 3, 0x19, .ro, 0, .never, 0, 281474976710655, Code.valueRange, "dict.requests"⟩,
  ⟨0x206A, 1, 3, 0x19, .ro, 0, .never, 0, 281474976710655, Code.valueRange, "dict.rejections"⟩,
  ⟨0x206B, 0, 0, 0x19, .ro, 0, .never, 0, 281474976710655, Code.valueRange, "dict.emcy_lost"⟩,
  ⟨0x206C, 0, 0, 0x0A, .ro, 0, .never, 0, 512, Code.valueRange, "dict.desc_esi"⟩,
  ⟨0x206D, 0, 0, 0x0A, .ro, 0, .never, 0, 512, Code.valueRange, "dict.desc_dsc"⟩,
  ⟨0x206E, 0, 0, 0x07, .rw, 0, .now, 0, 4294967295, Code.valueRange, "dict.desc_seg"⟩]

/-- The entries of indices 0x2000 to 0x20FF. -/
def rows20 : List Entry := rows20_0 ++ rows20_1 ++ rows20_2

/-- Entries 0x21xx, part 0. -/
def rows21_0 : List Entry := [
  ⟨0x2100, 0, 0, 0x05, .ro, 1, .never, 0, 255, Code.valueRange, "pwr.state"⟩,
  ⟨0x2101, 0, 0, 0x05, .rw, 1, .now, 0, 1, Code.valueRange, "pwr.goal"⟩,
  ⟨0x2102, 0, 0, 0x06, .rw, 240, .now, 60, 240, Code.valueRange, "pwr.cap_w"⟩,
  ⟨0x2103, 0, 0, 0x06, .rw, 100, .now, 10, 10000, Code.valueRange, "pwr.cap_window"⟩,
  ⟨0x2104, 1, 4, 0x03, .rw, (-2000), .now, (-2000), 0, Code.valueRange, "pwr.prec_floor"⟩,
  ⟨0x2105, 0, 0, 0x06, .rw, 10, .now, 1, 1000, Code.valueRange, "pwr.gov_period"⟩,
  ⟨0x2106, 1, 12, 0x05, .ro, 0, .never, 0, 255, Code.valueRange, "pwr.isl_point"⟩,
  ⟨0x2107, 1, 12, 0x05, .rw, 0, .cut, 0, 3, Code.pointInvalid, "pwr.isl_target"⟩,
  ⟨0x2108, 1, 12, 0x05, .rw, 3, .now, 0, 3, Code.pointInvalid, "pwr.isl_limit"⟩,
  ⟨0x2109, 1, 12, 0x05, .ro, 0, .never, 0, 255, Code.valueRange, "pwr.isl_state"⟩,
  ⟨0x210A, 1, 12, 0x07, .rw, 0, .now, 0, 4294967295, Code.valueRange, "pwr.isl_idle_us"⟩,
  ⟨0x210B, 1, 12, 0x05, .rw, 0, .now, 0, 1, Code.valueRange, "pwr.isl_deep"⟩,
  ⟨0x210C, 1, 12, 0x07, .ro, 0, .never, 0, 4294967295, Code.valueRange, "pwr.isl_mw"⟩,
  ⟨0x2110, 0, 0, 0x05, .wo, 0, .now, 1, 1, Code.valueRange, "pwr.sleep"⟩,
  ⟨0x2111, 0, 0, 0x05, .rw, 7, .now, 0, 255, Code.valueRange, "pwr.wake_mask"⟩,
  ⟨0x2112, 0, 0, 0x07, .rw, 0, .now, 0, 4294967295, Code.valueRange, "pwr.wake_timer"⟩,
  ⟨0x2113, 0, 0, 0x07, .rw, 0, .now, 0, 4294967295, Code.valueRange, "pwr.module_idle_s"⟩,
  ⟨0x2114, 0, 0, 0x19, .ro, 0, .never, 0, 281474976710655, Code.valueRange, "pwr.sleep_declined"⟩,
  ⟨0x2115, 0, 0, 0x05, .ro, 0, .never, 0, 255, Code.valueRange, "pwr.wake_cause"⟩,
  ⟨0x2116, 0, 0, 0x06, .ro, 0, .never, 0, 65535, Code.valueRange, "pwr.degraded"⟩]

/-- Entries 0x21xx, part 1. -/
def rows21_1 : List Entry := [
  ⟨0x2117, 0, 0, 0x06, .ro, 0, .never, 0, 65535, Code.valueRange, "pwr.module_w"⟩,
  ⟨0x2118, 0, 0, 0x05, .ro, 0, .never, 0, 255, Code.valueRange, "pwr.cap_step"⟩,
  ⟨0x2119, 0, 0, 0x19, .ro, 0, .never, 0, 281474976710655, Code.valueRange, "pwr.droop_events"⟩,
  ⟨0x211A, 0, 0, 0x07, .rw, 4294967295, .cut, 0, 4294967295, Code.valueRange, "pwr.event_ring"⟩,
  ⟨0x211B, 0, 0, 0x19, .ro, 0, .never, 0, 281474976710655, Code.valueRange, "pwr.events_lost"⟩,
  ⟨0x2120, 0, 0, 0x07, .rw, 1000, .window, 10, 60000, Code.valueRange, "pwr.eps_window"⟩,
  ⟨0x2121, 0, 0, 0x07, .ro, 0, .never, 0, 4294967295, Code.valueRange, "pwr.eps_live"⟩,
  ⟨0x2122, 0, 0, 0x19, .ro, 0, .never, 0, 281474976710655, Code.valueRange, "pwr.analysis_energy"⟩,
  ⟨0x2123, 0, 0, 0x19, .ro, 0, .never, 0, 281474976710655, Code.valueRange, "pwr.analysed_samples"⟩,
  ⟨0x2124, 0, 0, 0x19, .ro, 0, .never, 0, 281474976710655, Code.valueRange, "pwr.module_energy"⟩]

/-- The entries of indices 0x2100 to 0x21FF. -/
def rows21 : List Entry := rows21_0 ++ rows21_1

/-- Entries 0x22xx, part 0. -/
def rows22_0 : List Entry := [
  ⟨0x2200, 0, 0, 0x19, .ro, 0, .never, 0, 281474976710655, Code.valueRange, "cal.count"⟩,
  ⟨0x2201, 1, 2, 0x19, .ro, 0, .never, 0, 281474976710655, Code.valueRange, "cal.last_time"⟩,
  ⟨0x2202, 0, 0, 0x19, .rw, 10000000000, .now, 10000000000, 500000000000, Code.valueRange, "cal.ref_freq"⟩,
  ⟨0x2203, 0, 0, 0x04, .ro, 0, .never, (-2147483648), 2147483647, Code.valueRange, "cal.ref_ratio"⟩,
  ⟨0x2204, 0, 0, 0x09, .rw, 0, .now, 0, 512, Code.valueRange, "cal.ref_cert"⟩,
  ⟨0x2205, 0, 0, 0x07, .rw, 0, .cut, 0, 4294967295, Code.valueRange, "cal.common_lag"⟩,
  ⟨0x2206, 0, 0, 0x05, .rw, 0, .now, 0, 1, Code.valueRange, "cal.link_fold"⟩,
  ⟨0x2207, 0, 0, 0x05, .rw, 3, .now, 1, 8, Code.valueRange, "cal.attempts"⟩,
  ⟨0x2208, 0, 0, 0x06, .rw, 256, .now, 0, 65535, Code.valueRange, "cal.obj_sel"⟩,
  ⟨0x2209, 0, 0, 0x05, .wo, 0, .now, 1, 4, Code.valueRange, "cal.cmd"⟩,
  ⟨0x220A, 0, 0, 0x05, .ro, 0, .never, 0, 255, Code.valueRange, "cal.state"⟩,
  ⟨0x2210, 0, 0, 0x04, .rw, 0, .now, (-2147483648), 2147483647, Code.valueRange, "cal.fixture_ps"⟩,
  ⟨0x2211, 0, 0, 0x13, .ro, 0, .never, (-140737488355328), 140737488355327, Code.valueRange, "cal.obj_value"⟩,
  ⟨0x2212, 0, 0, 0x05, .ro, 0, .never, 0, 255, Code.valueRange, "cal.obj_state"⟩,
  ⟨0x2213, 1, 2, 0x19, .ro, 0, .never, 0, 281474976710655, Code.valueRange, "cal.obj_time"⟩,
  ⟨0x2214, 0, 0, 0x03, .ro, 0, .never, (-32768), 32767, Code.valueRange, "cal.obj_temp"⟩,
  ⟨0x2215, 0, 0, 0x04, .ro, 0, .never, (-2147483648), 2147483647, Code.valueRange, "cal.obj_residual"⟩,
  ⟨0x2220, 1, 16, 0x06, .rw, 0, .now, 0, 16383, Code.valueRange, "cal.trim_code"⟩,
  ⟨0x2221, 1, 16, 0x05, .rw, 0, .now, 0, 2, Code.valueRange, "cal.trim_mode"⟩,
  ⟨0x2222, 1, 16, 0x06, .rw, 0, .now, 0, 65535, Code.valueRange, "cal.trim_src"⟩]

/-- Entries 0x22xx, part 1. -/
def rows22_1 : List Entry := [
  ⟨0x2223, 1, 16, 0x04, .rw, 0, .now, (-2147483648), 2147483647, Code.valueRange, "cal.trim_target"⟩,
  ⟨0x2224, 1, 16, 0x07, .rw, 1073676288, .now, 0, 4294967295, Code.valueRange, "cal.trim_limit"⟩,
  ⟨0x2230, 0, 0, 0x06, .rw, 720, .now, 1, 8760, Code.valueRange, "cal.recal_hours"⟩,
  ⟨0x2231, 0, 0, 0x05, .rw, 10, .now, 1, 60, Code.valueRange, "cal.recal_dk"⟩,
  ⟨0x2232, 0, 0, 0x05, .rw, 3, .now, 0, 3, Code.valueRange, "cal.auto"⟩,
  ⟨0x2233, 0, 0, 0x06, .ro, 0, .never, 0, 65535, Code.valueRange, "cal.due_count"⟩,
  ⟨0x2234, 0, 0, 0x07, .rw, 4294967295, .cut, 0, 4294967295, Code.valueRange, "cal.event_ring"⟩,
  ⟨0x2235, 0, 0, 0x19, .ro, 0, .never, 0, 281474976710655, Code.valueRange, "cal.events_lost"⟩]

/-- The entries of indices 0x2200 to 0x22FF. -/
def rows22 : List Entry := rows22_0 ++ rows22_1

/-- Entries 0x23xx, part 0. -/
def rows23_0 : List Entry := [
  ⟨0x2301, 0, 0, 0x07, .ro, 0, .never, 0, 4294967295, Code.valueRange, "flt.last_error"⟩,
  ⟨0x2302, 1, 4, 0x07, .ro, 0, .never, 0, 4294967295, Code.valueRange, "flt.path_error"⟩,
  ⟨0x2303, 1, 2, 0x19, .ro, 0, .never, 0, 281474976710655, Code.valueRange, "flt.last_error_time"⟩,
  ⟨0x2304, 0, 0, 0x19, .ro, 0, .never, 0, 281474976710655, Code.valueRange, "flt.error_count"⟩,
  ⟨0x2310, 0, 0, 0x06, .wo, 0, .now, 0, 65535, Code.valueRange, "flt.repoint"⟩,
  ⟨0x2311, 0, 0, 0x05, .rw, 0, .now, 0, 1, Code.valueRange, "flt.repoint_src"⟩,
  ⟨0x2312, 0, 0, 0x05, .ro, 0, .never, 0, 255, Code.valueRange, "flt.repoint_state"⟩,
  ⟨0x2313, 0, 0, 0x06, .ro, 65535, .never, 0, 65535, Code.valueRange, "flt.repoint_target"⟩,
  ⟨0x2314, 0, 0, 0x19, .ro, 0, .never, 0, 281474976710655, Code.valueRange, "flt.repoints"⟩,
  ⟨0x2320, 0, 0, 0x05, .wo, 0, .now, 1, 4, Code.valueRange, "flt.img_cmd"⟩,
  ⟨0x2321, 0, 0, 0x19, .ro, 0, .never, 0, 281474976710655, Code.valueRange, "flt.img_addr"⟩,
  ⟨0x2322, 0, 0, 0x07, .rw, 0, .now, 0, 16777216, Code.valueRange, "flt.img_len"⟩,
  ⟨0x2323, 0, 0, 0x06, .rw, 16382, .now, 0, 65535, Code.valueRange, "flt.update_mask"⟩,
  ⟨0x2324, 0, 0, 0x05, .ro, 0, .never, 0, 255, Code.valueRange, "flt.update_state"⟩,
  ⟨0x2325, 0, 0, 0x06, .ro, 0, .never, 0, 65535, Code.valueRange, "flt.update_progress"⟩,
  ⟨0x2326, 0, 0, 0x06, .ro, 0, .never, 0, 65535, Code.valueRange, "flt.update_required"⟩,
  ⟨0x2327, 1, 12, 0x07, .ro, 0, .never, 0, 4294967295, Code.valueRange, "flt.mcode_ver"⟩,
  ⟨0x2330, 0, 0, 0x06, .rw, 0, .now, 0, 4095, Code.valueRange, "flt.log_sel"⟩,
  ⟨0x2331, 1, 6, 0x1B, .ro, 0, .never, 0, 18446744073709551615, Code.valueRange, "flt.log_entry"⟩,
  ⟨0x2332, 0, 0, 0x19, .ro, 0, .never, 0, 281474976710655, Code.valueRange, "flt.log_count"⟩]

/-- Entries 0x23xx, part 1. -/
def rows23_1 : List Entry := [
  ⟨0x2333, 0, 0, 0x05, .wo, 0, .now, 1, 1, Code.valueRange, "flt.log_clear"⟩,
  ⟨0x2334, 1, 5, 0x19, .ro, 0, .never, 0, 281474976710655, Code.valueRange, "flt.class_count"⟩,
  ⟨0x2335, 0, 0, 0x07, .ro, 0, .never, 0, 4294967295, Code.valueRange, "flt.interrupt_max"⟩,
  ⟨0x2336, 0, 0, 0x19, .ro, 0, .never, 0, 281474976710655, Code.valueRange, "flt.restarts"⟩]

/-- The entries of indices 0x2300 to 0x23FF. -/
def rows23 : List Entry := rows23_0 ++ rows23_1

/-- Entries 0x24xx, part 0. -/
def rows24_0 : List Entry := [
  ⟨0x2400, 0, 0, 0x05, .rw, 0, .cut, 0, 1, Code.valueRange, "tb.mode"⟩,
  ⟨0x2401, 1, 2, 0x19, .rw, 10000000000, .cut, 10000000000, 500000000000, Code.refFreqRange, "tb.ref_freq"⟩,
  ⟨0x2402, 1, 2, 0x05, .rw, 1, .cut, 0, 1, Code.valueRange, "tb.ref_enable"⟩,
  ⟨0x2403, 0, 0, 0x05, .rw, 0, .cut, 0, 1, Code.valueRange, "tb.ref_pref"⟩,
  ⟨0x2404, 0, 0, 0x05, .rw, 0, .now, 0, 1, Code.valueRange, "tb.ref_revert"⟩,
  ⟨0x2405, 0, 0, 0x07, .rw, 1000, .now, 10, 600000, Code.valueRange, "tb.ref_wait"⟩,
  ⟨0x2406, 0, 0, 0x06, .rw, 500, .now, 10, 2000, Code.valueRange, "tb.ref_tol"⟩,
  ⟨0x2407, 0, 0, 0x06, .rw, 100, .cut, 1, 1000, Code.valueRange, "tb.loop_bw"⟩,
  ⟨0x2408, 0, 0, 0x07, .rw, 100, .now, 10, 1000000, Code.valueRange, "tb.step_threshold"⟩,
  ⟨0x2409, 1, 2, 0x05, .ro, 0, .never, 0, 255, Code.valueRange, "tb.ref_state"⟩,
  ⟨0x240A, 0, 0, 0x05, .ro, 0, .never, 0, 255, Code.valueRange, "tb.loop_state"⟩,
  ⟨0x240B, 0, 0, 0x05, .ro, 2, .never, 0, 255, Code.valueRange, "tb.ref_active"⟩,
  ⟨0x240C, 1, 2, 0x04, .ro, 0, .never, (-2147483648), 2147483647, Code.valueRange, "tb.ref_offset"⟩,
  ⟨0x240D, 0, 0, 0x04, .ro, 0, .never, (-2147483648), 2147483647, Code.valueRange, "tb.ab_phase"⟩,
  ⟨0x240E, 0, 0, 0x19, .ro, 0, .never, 0, 281474976710655, Code.valueRange, "tb.switchovers"⟩,
  ⟨0x2410, 1, 12, 0x07, .ro, 0, .never, 0, 4294967295, Code.valueRange, "tb.isl_freq"⟩,
  ⟨0x2411, 1, 12, 0x05, .rw, 0, .cut, 0, 2, Code.valueRange, "tb.ssc_mode"⟩,
  ⟨0x2412, 1, 12, 0x06, .rw, 0, .cut, 0, 65535, Code.valueRange, "tb.ssc_depth"⟩,
  ⟨0x2413, 1, 12, 0x05, .ro, 0, .never, 0, 255, Code.valueRange, "tb.pll_state"⟩,
  ⟨0x2414, 1, 12, 0x19, .ro, 0, .never, 0, 281474976710655, Code.valueRange, "tb.relocks"⟩]

/-- Entries 0x24xx, part 1. -/
def rows24_1 : List Entry := [
  ⟨0x2415, 1, 12, 0x19, .ro, 0, .never, 0, 281474976710655, Code.valueRange, "tb.gated_ns"⟩,
  ⟨0x2416, 0, 0, 0x06, .rw, 256, .now, 0, 65535, Code.valueRange, "tb.hop_sel"⟩,
  ⟨0x2417, 0, 0, 0x1B, .ro, 0, .never, 0, 18446744073709551615, Code.valueRange, "tb.hop_entry"⟩,
  ⟨0x2420, 1, 8, 0x05, .rw, 0, .cut, 0, 1, Code.valueRange, "tb.aux_enable"⟩,
  ⟨0x2421, 1, 8, 0x06, .rw, 4, .cut, 1, 4096, Code.valueRange, "tb.aux_num"⟩,
  ⟨0x2422, 1, 8, 0x06, .rw, 1, .cut, 1, 4096, Code.valueRange, "tb.aux_den"⟩,
  ⟨0x2423, 1, 8, 0x06, .rw, 0, .cut, 0, 4095, Code.valueRange, "tb.aux_delay"⟩,
  ⟨0x2424, 1, 8, 0x05, .ro, 0, .never, 0, 255, Code.valueRange, "tb.aux_state"⟩,
  ⟨0x2430, 1, 4, 0x05, .rw, 0, .cut, 0, 2, Code.valueRange, "tb.sysref_mode"⟩,
  ⟨0x2431, 1, 4, 0x07, .rw, 256, .cut, 8, 16777216, Code.valueRange, "tb.sysref_div"⟩,
  ⟨0x2432, 1, 4, 0x06, .rw, 4, .cut, 1, 1024, Code.valueRange, "tb.sysref_pulses"⟩,
  ⟨0x2433, 1, 4, 0x05, .rw, 0, .cut, 0, 63, Code.valueRange, "tb.sysref_delay"⟩,
  ⟨0x2434, 1, 4, 0x05, .wo, 0, .now, 1, 1, Code.valueRange, "tb.sysref_fire"⟩,
  ⟨0x2440, 0, 0, 0x05, .rw, 3, .cut, 0, 3, Code.valueRange, "tb.time_src"⟩,
  ⟨0x2441, 0, 0, 0x05, .ro, 0, .never, 0, 255, Code.valueRange, "tb.time_state"⟩,
  ⟨0x2442, 1, 2, 0x19, .ro, 0, .never, 0, 281474976710655, Code.valueRange, "tb.time_now"⟩,
  ⟨0x2443, 0, 0, 0x19, .rw, 0, .command, 0, 281474976710655, Code.valueRange, "tb.time_set_sec"⟩,
  ⟨0x2444, 0, 0, 0x05, .wo, 0, .now, 1, 2, Code.valueRange, "tb.time_set_cmd"⟩,
  ⟨0x2445, 0, 0, 0x04, .ro, 0, .never, (-2147483648), 2147483647, Code.valueRange, "tb.pps_offset"⟩,
  ⟨0x2446, 0, 0, 0x06, .rw, 16, .now, 1, 3600, Code.valueRange, "tb.pps_avg"⟩]

/-- Entries 0x24xx, part 2. -/
def rows24_2 : List Entry := [
  ⟨0x2447, 0, 0, 0x07, .rw, 1000000, .now, 0, 4294967295, Code.valueRange, "tb.pps_step"⟩,
  ⟨0x2448, 0, 0, 0x04, .rw, 0, .now, (-2147483648), 2147483647, Code.valueRange, "tb.pps_delay"⟩,
  ⟨0x2449, 0, 0, 0x13, .rw, 0, .cut, (-140737488355328), 140737488355327, Code.valueRange, "tb.dc_offset_sec"⟩,
  ⟨0x244A, 0, 0, 0x19, .ro, 0, .never, 0, 281474976710655, Code.valueRange, "tb.time_steps"⟩,
  ⟨0x244B, 0, 0, 0x04, .ro, 0, .never, (-2147483648), 2147483647, Code.valueRange, "tb.slew_ps"⟩,
  ⟨0x244C, 0, 0, 0x07, .rw, 4294967295, .cut, 0, 4294967295, Code.valueRange, "tb.event_ring"⟩,
  ⟨0x244D, 0, 0, 0x19, .ro, 0, .never, 0, 281474976710655, Code.valueRange, "tb.events_lost"⟩]

/-- The entries of indices 0x2400 to 0x24FF. -/
def rows24 : List Entry := rows24_0 ++ rows24_1 ++ rows24_2

/-- Entries 0x26xx, part 0. -/
def rows26_0 : List Entry := [
  ⟨0x2600, 1, 10, 0x05, .rw, 0, .cut, 0, 255, Code.valueRange, "im.start_src"⟩,
  ⟨0x2601, 1, 10, 0x05, .rw, 0, .cut, 0, 2, Code.valueRange, "im.start_edge"⟩,
  ⟨0x2602, 1, 10, 0x05, .rw, 0, .cut, 0, 255, Code.valueRange, "im.stop_src"⟩,
  ⟨0x2603, 1, 10, 0x05, .rw, 0, .cut, 0, 2, Code.valueRange, "im.stop_edge"⟩,
  ⟨0x2604, 1, 10, 0x05, .rw, 0, .cut, 0, 2, Code.valueRange, "im.mode"⟩,
  ⟨0x2605, 1, 10, 0x05, .rw, 0, .cut, 0, 1, Code.valueRange, "im.signed"⟩,
  ⟨0x2606, 1, 10, 0x07, .rw, 0, .cut, 0, 4294967295, Code.valueRange, "im.win_open"⟩,
  ⟨0x2607, 1, 10, 0x19, .rw, 281474976710655, .cut, 0, 281474976710655, Code.valueRange, "im.win_close"⟩,
  ⟨0x2608, 1, 10, 0x07, .rw, 1000, .cut, 1, 16777216, Code.valueRange, "im.stat_n"⟩,
  ⟨0x2609, 1, 10, 0x05, .rw, 0, .cut, 0, 1, Code.valueRange, "im.repeat"⟩,
  ⟨0x260A, 1, 10, 0x07, .rw, 4294967295, .cut, 0, 4294967295, Code.valueRange, "im.ring"⟩,
  ⟨0x260B, 1, 10, 0x05, .rw, 0, .cut, 0, 1, Code.valueRange, "im.log_each"⟩,
  ⟨0x260C, 1, 10, 0x05, .rw, 1, .now, 0, 1, Code.valueRange, "im.chan_enable"⟩,
  ⟨0x260D, 1, 10, 0x05, .wo, 0, .now, 1, 3, Code.valueRange, "im.cmd"⟩,
  ⟨0x260E, 1, 10, 0x05, .ro, 1, .never, 0, 255, Code.valueRange, "im.chan_state"⟩,
  ⟨0x2610, 1, 10, 0x13, .ro, 0, .never, (-140737488355328), 140737488355327, Code.valueRange, "im.last_n"⟩,
  ⟨0x2611, 1, 10, 0x07, .ro, 0, .never, 0, 4294967295, Code.valueRange, "im.last_fine"⟩,
  ⟨0x2612, 1, 10, 0x06, .ro, 0, .never, 0, 65535, Code.valueRange, "im.last_flags"⟩,
  ⟨0x2613, 1, 10, 0x13, .ro, 0, .never, (-140737488355328), 140737488355327, Code.valueRange, "im.mean_n"⟩,
  ⟨0x2614, 1, 10, 0x07, .ro, 0, .never, 0, 4294967295, Code.valueRange, "im.mean_fine"⟩]

/-- Entries 0x26xx, part 1. -/
def rows26_1 : List Entry := [
  ⟨0x2615, 1, 10, 0x19, .ro, 0, .never, 0, 281474976710655, Code.valueRange, "im.dev"⟩,
  ⟨0x2616, 1, 10, 0x13, .ro, 0, .never, (-140737488355328), 140737488355327, Code.valueRange, "im.min_n"⟩,
  ⟨0x2617, 1, 10, 0x07, .ro, 0, .never, 0, 4294967295, Code.valueRange, "im.min_fine"⟩,
  ⟨0x2618, 1, 10, 0x13, .ro, 0, .never, (-140737488355328), 140737488355327, Code.valueRange, "im.max_n"⟩,
  ⟨0x2619, 1, 10, 0x07, .ro, 0, .never, 0, 4294967295, Code.valueRange, "im.max_fine"⟩,
  ⟨0x261A, 1, 10, 0x07, .ro, 0, .never, 0, 4294967295, Code.valueRange, "im.count"⟩,
  ⟨0x261B, 1, 10, 0x19, .ro, 0, .never, 0, 281474976710655, Code.valueRange, "im.timeouts"⟩,
  ⟨0x261C, 1, 10, 0x19, .ro, 0, .never, 0, 281474976710655, Code.valueRange, "im.unresolved"⟩,
  ⟨0x261D, 1, 10, 0x19, .ro, 0, .never, 0, 281474976710655, Code.valueRange, "im.measurements"⟩,
  ⟨0x2620, 1, 2, 0x19, .rw, 1000000, .cut, 1000, 1000000000000, Code.imGate, "im.gate_ns"⟩,
  ⟨0x2621, 1, 2, 0x07, .rw, 65536, .cut, 2, 1048576, Code.imGate, "im.gate_stamps"⟩,
  ⟨0x2622, 1, 2, 0x05, .rw, 0, .cut, 0, 2, Code.valueRange, "im.gate_align"⟩,
  ⟨0x2623, 1, 2, 0x19, .ro, 0, .never, 0, 281474976710655, Code.valueRange, "im.freq_hz"⟩,
  ⟨0x2624, 1, 2, 0x19, .ro, 0, .never, 0, 281474976710655, Code.valueRange, "im.freq_frac"⟩,
  ⟨0x2625, 1, 2, 0x07, .ro, 0, .never, 0, 4294967295, Code.valueRange, "im.freq_resid"⟩,
  ⟨0x2626, 1, 2, 0x07, .ro, 0, .never, 0, 4294967295, Code.valueRange, "im.freq_stamps"⟩,
  ⟨0x2627, 1, 2, 0x19, .ro, 0, .never, 0, 281474976710655, Code.valueRange, "im.edges"⟩,
  ⟨0x2630, 1, 10, 0x03, .rw, 0, .cut, (-400), 400, Code.inParam, "im.in_threshold"⟩,
  ⟨0x2631, 1, 10, 0x05, .rw, 20, .cut, 5, 200, Code.inParam, "im.in_hyst"⟩,
  ⟨0x2632, 1, 10, 0x06, .rw, 2, .cut, 2, 16000, Code.inParam, "im.in_holdoff"⟩]

/-- Entries 0x26xx, part 2. -/
def rows26_2 : List Entry := [
  ⟨0x2633, 1, 10, 0x04, .rw, 0, .cut, (-2147483648), 2147483647, Code.valueRange, "im.in_skew"⟩,
  ⟨0x2634, 1, 10, 0x19, .ro, 0, .never, 0, 281474976710655, Code.valueRange, "im.in_edges"⟩,
  ⟨0x2635, 1, 10, 0x19, .ro, 0, .never, 0, 281474976710655, Code.valueRange, "im.in_held"⟩,
  ⟨0x2636, 1, 10, 0x19, .ro, 0, .never, 0, 281474976710655, Code.valueRange, "im.in_cal_fails"⟩,
  ⟨0x2637, 1, 10, 0x05, .ro, 4, .never, 0, 255, Code.valueRange, "im.in_interps"⟩,
  ⟨0x2640, 0, 0, 0x19, .ro, 0, .never, 0, 281474976710655, Code.valueRange, "im.records_lost"⟩]

/-- The entries of indices 0x2600 to 0x26FF. -/
def rows26 : List Entry := rows26_0 ++ rows26_1 ++ rows26_2

/-- Entries 0x28xx, part 0. -/
def rows28_0 : List Entry := [
  ⟨0x2800, 1, 4, 0x05, .rw, 0, .cut, 0, 3, Code.valueRange, "itk.layout"⟩,
  ⟨0x2810, 1, 16, 0x05, .rw, 7, .cut, 0, 255, Code.valueRange, "itk.mode"⟩,
  ⟨0x2811, 1, 16, 0x05, .rw, 16, .cut, 0, 255, Code.valueRange, "itk.n"⟩,
  ⟨0x2812, 1, 16, 0x19, .rw, 6400000000, .cut, 0, 281474976710655, Code.valueRange, "itk.fs"⟩,
  ⟨0x2813, 1, 16, 0x05, .rw, 32, .cut, 16, 32, Code.valueRange, "itk.k"⟩,
  ⟨0x2814, 1, 16, 0x05, .rw, 1, .cut, 0, 1, Code.valueRange, "itk.scramble"⟩,
  ⟨0x2815, 1, 16, 0x05, .rw, 64, .cut, 0, 127, Code.valueRange, "itk.release_offset"⟩,
  ⟨0x2816, 1, 16, 0x07, .rw, 0, .cut, 0, 4294967295, Code.valueRange, "itk.link_latency"⟩,
  ⟨0x2817, 1, 16, 0x05, .rw, 1, .cut, 0, 2, Code.valueRange, "itk.ovr_src"⟩,
  ⟨0x2818, 1, 16, 0x05, .rw, 0, .cut, 0, 255, Code.valueRange, "itk.ovr_bit"⟩,
  ⟨0x2819, 1, 16, 0x05, .rw, 1, .cut, 0, 2, Code.valueRange, "itk.crc_check"⟩,
  ⟨0x281A, 1, 16, 0x05, .rw, 0, .cut, 0, 1, Code.valueRange, "itk.iq_swap"⟩,
  ⟨0x281B, 1, 16, 0x05, .rw, 1, .now, 0, 1, Code.valueRange, "itk.relink"⟩,
  ⟨0x2820, 1, 4, 0x05, .rw, 0, .cut, 0, 1, Code.valueRange, "itk.sysref_src"⟩,
  ⟨0x2821, 1, 4, 0x05, .rw, 1, .cut, 0, 2, Code.valueRange, "itk.sysref_mode"⟩,
  ⟨0x2822, 1, 4, 0x05, .rw, 0, .cut, 0, 31, Code.valueRange, "itk.sysref_delay"⟩,
  ⟨0x2823, 1, 4, 0x06, .ro, 0, .never, 0, 65535, Code.valueRange, "itk.sysref_margin"⟩,
  ⟨0x2830, 1, 64, 0x05, .rw, 0, .cut, 0, 15, Code.valueRange, "itk.lane_map"⟩,
  ⟨0x2831, 1, 64, 0x05, .rw, 0, .cut, 0, 1, Code.valueRange, "itk.lane_invert"⟩,
  ⟨0x2832, 1, 64, 0x05, .rw, 0, .cut, 0, 3, Code.valueRange, "itk.prbs"⟩]

/-- Entries 0x28xx, part 1. -/
def rows28_1 : List Entry := [
  ⟨0x2840, 1, 16, 0x05, .ro, 0, .never, 0, 255, Code.valueRange, "itk.link_state"⟩,
  ⟨0x2841, 1, 16, 0x03, .ro, 0, .never, (-32768), 32767, Code.valueRange, "itk.release_margin"⟩,
  ⟨0x2842, 1, 16, 0x05, .ro, 0, .never, 0, 255, Code.valueRange, "itk.release_suggest"⟩,
  ⟨0x2843, 1, 16, 0x19, .ro, 0, .never, 0, 281474976710655, Code.valueRange, "itk.sysref_sec"⟩,
  ⟨0x2844, 1, 16, 0x19, .ro, 0, .never, 0, 281474976710655, Code.valueRange, "itk.sysref_frac"⟩,
  ⟨0x2845, 1, 16, 0x19, .ro, 0, .never, 0, 281474976710655, Code.valueRange, "itk.ovr_count"⟩,
  ⟨0x2846, 1, 16, 0x19, .ro, 0, .never, 0, 281474976710655, Code.valueRange, "itk.gap_samples"⟩,
  ⟨0x2847, 1, 16, 0x19, .ro, 0, .never, 0, 281474976710655, Code.valueRange, "itk.relinks"⟩,
  ⟨0x2848, 1, 16, 0x19, .ro, 0, .never, 0, 281474976710655, Code.valueRange, "itk.sysref_drift"⟩,
  ⟨0x2850, 1, 64, 0x06, .ro, 0, .never, 0, 65535, Code.valueRange, "itk.lane_status"⟩,
  ⟨0x2851, 1, 64, 0x06, .ro, 0, .never, 0, 65535, Code.valueRange, "itk.lane_arrival"⟩,
  ⟨0x2852, 1, 64, 0x19, .ro, 0, .never, 0, 281474976710655, Code.valueRange, "itk.crc_errors"⟩,
  ⟨0x2853, 1, 64, 0x19, .ro, 0, .never, 0, 281474976710655, Code.valueRange, "itk.code_errors"⟩,
  ⟨0x2854, 1, 64, 0x19, .ro, 0, .never, 0, 281474976710655, Code.valueRange, "itk.prbs_errors"⟩]

/-- The entries of indices 0x2800 to 0x28FF. -/
def rows28 : List Entry := rows28_0 ++ rows28_1

/-- Entries 0x30xx, part 0. -/
def rows30_0 : List Entry := [
  ⟨0x3000, 1, 16, 0x05, .rw, 0, .cut, 0, 1, Code.valueRange, "chn.real_flip"⟩,
  ⟨0x3001, 1, 4, 0x05, .rw, 0, .cut, 0, 1, Code.valueRange, "chn.lane_src"⟩,
  ⟨0x3010, 1, 33, 0x05, .rw, 0, .cut, 0, 255, Code.valueRange, "chn.src"⟩,
  ⟨0x3011, 1, 33, 0x13, .rw, 0, .cut, (-140737488355328), 140737488355327, Code.valueRange, "chn.nco_freq"⟩,
  ⟨0x3012, 1, 33, 0x19, .rw, 0, .cut, 0, 281474976710655, Code.valueRange, "chn.nco_phase"⟩,
  ⟨0x3013, 1, 33, 0x05, .rw, 2, .cut, 0, 2, Code.valueRange, "chn.retune_mode"⟩,
  ⟨0x3014, 1, 33, 0x05, .rw, 0, .cut, 0, 16, Code.depthRange, "chn.depth"⟩,
  ⟨0x3015, 1, 33, 0x05, .rw, 0, .cut, 0, 1, Code.valueRange, "chn.filter_set"⟩,
  ⟨0x3016, 1, 33, 0x06, .rw, 0, .cut, 0, 16383, Code.delayRange, "chn.delay_int"⟩,
  ⟨0x3017, 1, 33, 0x05, .rw, 0, .cut, 0, 255, Code.valueRange, "chn.delay_frac"⟩,
  ⟨0x3018, 1, 33, 0x05, .rw, 0, .cut, 0, 1, Code.valueRange, "chn.frac_en"⟩,
  ⟨0x3019, 1, 33, 0x05, .rw, 0, .cut, 0, 4, Code.valueRange, "chn.gain_shift"⟩,
  ⟨0x301A, 1, 33, 0x05, .rw, 0, .cut, 0, 1, Code.valueRange, "chn.settle_policy"⟩,
  ⟨0x301B, 1, 33, 0x05, .rw, 16, .cut, 0, 23, Code.valueRange, "chn.det_window"⟩,
  ⟨0x301C, 1, 33, 0x05, .rw, 0, .cut, 0, 24, Code.valueRange, "chn.env_attack"⟩,
  ⟨0x301D, 1, 33, 0x05, .rw, 8, .cut, 0, 24, Code.valueRange, "chn.env_release"⟩,
  ⟨0x301E, 1, 33, 0x07, .rw, 4294967295, .cut, 0, 4294967295, Code.valueRange, "chn.det_ring"⟩,
  ⟨0x3020, 1, 33, 0x05, .ro, 0, .never, 0, 255, Code.valueRange, "chn.state"⟩,
  ⟨0x3021, 1, 33, 0x19, .ro, 0, .never, 0, 281474976710655, Code.valueRange, "chn.f_out"⟩,
  ⟨0x3022, 1, 33, 0x19, .ro, 0, .never, 0, 281474976710655, Code.valueRange, "chn.det_peak"⟩]

/-- Entries 0x30xx, part 1. -/
def rows30_1 : List Entry := [
  ⟨0x3023, 1, 33, 0x19, .ro, 0, .never, 0, 281474976710655, Code.valueRange, "chn.det_mean"⟩,
  ⟨0x3024, 1, 33, 0x19, .ro, 0, .never, 0, 281474976710655, Code.valueRange, "chn.det_env"⟩,
  ⟨0x3025, 1, 33, 0x19, .ro, 0, .never, 0, 281474976710655, Code.valueRange, "chn.sat_count"⟩,
  ⟨0x3026, 1, 33, 0x19, .ro, 0, .never, 0, 281474976710655, Code.valueRange, "chn.unsettled"⟩,
  ⟨0x3027, 1, 33, 0x19, .ro, 0, .never, 0, 281474976710655, Code.valueRange, "chn.gap_samples"⟩,
  ⟨0x3028, 1, 33, 0x19, .ro, 0, .never, 0, 281474976710655, Code.valueRange, "chn.ovr_count"⟩,
  ⟨0x3029, 1, 33, 0x19, .ro, 0, .never, 0, 281474976710655, Code.valueRange, "chn.ecc_corrected"⟩,
  ⟨0x302A, 1, 33, 0x19, .ro, 24000, .never, 0, 281474976710655, Code.valueRange, "chn.group_delay"⟩,
  ⟨0x3030, 0, 0, 0x05, .ro, 255, .never, 0, 255, Code.valueRange, "chn.standby_for"⟩,
  ⟨0x3031, 0, 0, 0x05, .wo, 0, .now, 0, 255, Code.valueRange, "chn.repoint"⟩,
  ⟨0x3032, 0, 0, 0x05, .ro, 0, .never, 0, 255, Code.valueRange, "chn.repoint_state"⟩,
  ⟨0x3033, 0, 0, 0x05, .ro, 32, .never, 0, 255, Code.valueRange, "chn.width"⟩,
  ⟨0x3040, 0, 0, 0x05, .rw, 0, .now, 0, 4, Code.valueRange, "chn.coef_sel"⟩,
  ⟨0x3041, 1, 95, 0x04, .ro, 0, .never, (-2147483648), 2147483647, Code.valueRange, "chn.coef"⟩]

/-- The entries of indices 0x3000 to 0x30FF. -/
def rows30 : List Entry := rows30_0 ++ rows30_1

/-- Entries 0x34xx, part 0. -/
def rows34_0 : List Entry := [
  ⟨0x3400, 1, 16, 0x05, .rw, 0, .cut, 0, 255, Code.valueRange, "spe.layer_src"⟩,
  ⟨0x3401, 1, 16, 0x07, .rw, 1024, .cut, 64, 1048576, Code.layerLen, "spe.layer_len"⟩,
  ⟨0x3402, 1, 16, 0x05, .rw, 1, .cut, 0, 4, Code.hopRange, "spe.hop_shift"⟩,
  ⟨0x3403, 1, 16, 0x05, .rw, 2, .cut, 0, 6, Code.windowParam, "spe.window"⟩,
  ⟨0x3404, 1, 16, 0x06, .rw, 2413, .cut, 0, 10240, Code.windowParam, "spe.kaiser_beta"⟩,
  ⟨0x3405, 1, 16, 0x06, .rw, 21845, .cut, 3277, 32768, Code.windowParam, "spe.gauss_sigma"⟩,
  ⟨0x3406, 1, 16, 0x05, .rw, 3, .cut, 0, 4, Code.detRange, "spe.det"⟩,
  ⟨0x3407, 1, 16, 0x07, .rw, 1, .cut, 1, 65536, Code.detRange, "spe.det_count"⟩,
  ⟨0x3408, 1, 16, 0x05, .rw, 0, .cut, 0, 10, Code.detRange, "spe.det_bins"⟩,
  ⟨0x3409, 1, 16, 0x05, .rw, 0, .cut, 0, 3, Code.valueRange, "spe.rec_format"⟩,
  ⟨0x340A, 1, 16, 0x07, .rw, 0, .cut, 0, 4294967295, Code.valueRange, "spe.rec_first"⟩,
  ⟨0x340B, 1, 16, 0x07, .rw, 0, .cut, 0, 4294967295, Code.valueRange, "spe.rec_count"⟩,
  ⟨0x340C, 1, 16, 0x07, .rw, 4294967295, .cut, 0, 4294967295, Code.valueRange, "spe.ring"⟩,
  ⟨0x340D, 1, 16, 0x05, .rw, 0, .cut, 0, 1, Code.valueRange, "spe.gap_policy"⟩,
  ⟨0x3410, 1, 16, 0x07, .ro, 0, .never, 0, 4294967295, Code.valueRange, "spe.layer_cost"⟩,
  ⟨0x3411, 1, 16, 0x07, .ro, 0, .never, 0, 4294967295, Code.valueRange, "spe.layer_mem"⟩,
  ⟨0x3412, 1, 16, 0x07, .ro, 131357, .never, 0, 4294967295, Code.valueRange, "spe.enbw"⟩,
  ⟨0x3413, 1, 16, 0x06, .ro, 826, .never, 0, 65535, Code.valueRange, "spe.scallop"⟩,
  ⟨0x3414, 1, 16, 0x19, .ro, 0, .never, 0, 281474976710655, Code.valueRange, "spe.intercept"⟩,
  ⟨0x3415, 1, 16, 0x07, .ro, 1080, .never, 0, 4294967295, Code.valueRange, "spe.latency"⟩]

/-- Entries 0x34xx, part 1. -/
def rows34_1 : List Entry := [
  ⟨0x3416, 1, 16, 0x03, .ro, (-1900), .never, (-32768), 32767, Code.valueRange, "spe.floor"⟩,
  ⟨0x3417, 1, 16, 0x13, .ro, 0, .never, (-140737488355328), 140737488355327, Code.valueRange, "spe.centre"⟩,
  ⟨0x3418, 1, 16, 0x07, .ro, 0, .never, 0, 4294967295, Code.valueRange, "spe.usable_first"⟩,
  ⟨0x3419, 1, 16, 0x07, .ro, 0, .never, 0, 4294967295, Code.valueRange, "spe.usable_count"⟩,
  ⟨0x341A, 1, 16, 0x19, .ro, 0, .never, 0, 281474976710655, Code.valueRange, "spe.frames"⟩,
  ⟨0x341B, 1, 16, 0x19, .ro, 0, .never, 0, 281474976710655, Code.valueRange, "spe.frames_lost"⟩,
  ⟨0x341C, 1, 16, 0x19, .ro, 0, .never, 0, 281474976710655, Code.valueRange, "spe.traces"⟩,
  ⟨0x341D, 1, 16, 0x19, .ro, 0, .never, 0, 281474976710655, Code.valueRange, "spe.sat_count"⟩,
  ⟨0x3420, 0, 0, 0x05, .rw, 0, .now, 0, 15, Code.valueRange, "spe.user_layer"⟩,
  ⟨0x3421, 0, 0, 0x07, .rw, 0, .now, 0, 4294967295, Code.valueRange, "spe.user_index"⟩,
  ⟨0x3422, 0, 0, 0x04, .wo, 0, .cut, (-2147483648), 2147483647, Code.valueRange, "spe.user_coef"⟩,
  ⟨0x3430, 1, 4, 0x07, .ro, 0, .never, 0, 4294967295, Code.valueRange, "spe.lane_cost"⟩,
  ⟨0x3431, 1, 4, 0x07, .ro, 0, .never, 0, 4294967295, Code.valueRange, "spe.lane_frames"⟩,
  ⟨0x3432, 1, 4, 0x07, .ro, 0, .never, 0, 4294967295, Code.valueRange, "spe.lane_mem"⟩,
  ⟨0x3433, 1, 4, 0x05, .ro, 32, .never, 0, 255, Code.valueRange, "spe.width"⟩,
  ⟨0x3440, 1, 33, 0x05, .ro, 0, .never, 0, 255, Code.valueRange, "spe.core_state"⟩,
  ⟨0x3441, 1, 34, 0x19, .ro, 0, .never, 0, 281474976710655, Code.valueRange, "spe.ecc_corrected"⟩,
  ⟨0x3450, 0, 0, 0x05, .ro, 255, .never, 0, 255, Code.valueRange, "spe.standby_for"⟩,
  ⟨0x3451, 0, 0, 0x05, .wo, 0, .now, 0, 255, Code.valueRange, "spe.repoint"⟩,
  ⟨0x3452, 0, 0, 0x05, .ro, 0, .never, 0, 255, Code.valueRange, "spe.repoint_state"⟩]

/-- The entries of indices 0x3400 to 0x34FF. -/
def rows34 : List Entry := rows34_0 ++ rows34_1

/-- Entries 0x38xx, part 0. -/
def rows38_0 : List Entry := [
  ⟨0x3800, 1, 64, 0x05, .rw, 0, .cut, 0, 255, Code.valueRange, "trg.cond_type"⟩,
  ⟨0x3801, 1, 64, 0x06, .rw, 0, .cut, 0, 65535, Code.valueRange, "trg.cond_src"⟩,
  ⟨0x3802, 1, 64, 0x05, .rw, 0, .cut, 0, 3, Code.condParam, "trg.cond_qty"⟩,
  ⟨0x3803, 1, 64, 0x05, .rw, 0, .cut, 0, 2, Code.condParam, "trg.cond_polarity"⟩,
  ⟨0x3804, 1, 64, 0x04, .rw, 0, .cut, (-2147483648), 2147483647, Code.valueRange, "trg.cond_level_a"⟩,
  ⟨0x3805, 1, 64, 0x04, .rw, 0, .cut, (-2147483648), 2147483647, Code.valueRange, "trg.cond_level_b"⟩,
  ⟨0x3806, 1, 64, 0x07, .rw, 8389, .cut, 0, 8388608, Code.valueRange, "trg.cond_hyst"⟩,
  ⟨0x3807, 1, 64, 0x19, .rw, 0, .cut, 0, 281474976710655, Code.valueRange, "trg.cond_time_a"⟩,
  ⟨0x3808, 1, 64, 0x19, .rw, 0, .cut, 0, 281474976710655, Code.valueRange, "trg.cond_time_b"⟩,
  ⟨0x3809, 1, 64, 0x05, .rw, 0, .cut, 0, 3, Code.condParam, "trg.cond_compare"⟩,
  ⟨0x380A, 1, 64, 0x06, .rw, 65535, .cut, 0, 65535, Code.valueRange, "trg.cond_remote_mod"⟩,
  ⟨0x380B, 1, 64, 0x05, .rw, 0, .cut, 0, 1, Code.valueRange, "trg.cond_log"⟩,
  ⟨0x380C, 0, 0, 0x05, .wo, 0, .now, 0, 63, Code.valueRange, "trg.cond_soft"⟩,
  ⟨0x3810, 1, 64, 0x07, .ro, 0, .never, 0, 4294967295, Code.valueRange, "trg.cond_horizon"⟩,
  ⟨0x3811, 1, 64, 0x19, .ro, 0, .never, 0, 281474976710655, Code.valueRange, "trg.cond_events"⟩,
  ⟨0x3812, 1, 64, 0x19, .ro, 0, .never, 0, 281474976710655, Code.valueRange, "trg.cond_merged"⟩,
  ⟨0x3813, 1, 16, 0x04, .rw, 0, .cut, (-2147483648), 2147483647, Code.valueRange, "trg.skew_link"⟩,
  ⟨0x3814, 1, 8, 0x04, .rw, 0, .cut, (-2147483648), 2147483647, Code.valueRange, "trg.skew_tin"⟩,
  ⟨0x3815, 0, 0, 0x07, .rw, 2000, .cut, 500, 1000000, Code.valueRange, "trg.remote_horizon"⟩,
  ⟨0x3816, 0, 0, 0x19, .ro, 0, .never, 0, 281474976710655, Code.valueRange, "trg.remote_late"⟩]

/-- Entries 0x38xx, part 1. -/
def rows38_1 : List Entry := [
  ⟨0x3820, 1, 64, 0x05, .rw, 255, .cut, 0, 255, Code.valueRange, "trg.mask_layer"⟩,
  ⟨0x3821, 1, 64, 0x07, .rw, 1, .cut, 0, 4294967295, Code.valueRange, "trg.mask_min_bins"⟩,
  ⟨0x3822, 1, 64, 0x05, .rw, 0, .cut, 0, 2, Code.valueRange, "trg.mask_stop"⟩,
  ⟨0x3823, 1, 64, 0x05, .rw, 0, .cut, 0, 2, Code.valueRange, "trg.mask_log"⟩,
  ⟨0x3824, 1, 64, 0x06, .rw, 0, .cut, 0, 65535, Code.valueRange, "trg.mask_bp_count"⟩,
  ⟨0x3825, 1, 64, 0x05, .wo, 0, .now, 1, 2, Code.valueRange, "trg.mask_cmd"⟩,
  ⟨0x3826, 1, 64, 0x05, .ro, 0, .never, 0, 255, Code.valueRange, "trg.mask_state"⟩,
  ⟨0x3827, 1, 64, 0x19, .ro, 0, .never, 0, 281474976710655, Code.valueRange, "trg.mask_pass"⟩,
  ⟨0x3828, 1, 64, 0x19, .ro, 0, .never, 0, 281474976710655, Code.valueRange, "trg.mask_fail"⟩,
  ⟨0x3829, 1, 64, 0x19, .ro, 0, .never, 0, 281474976710655, Code.valueRange, "trg.mask_skipped"⟩,
  ⟨0x382A, 1, 64, 0x19, .ro, 0, .never, 0, 281474976710655, Code.valueRange, "trg.mask_lost"⟩,
  ⟨0x382B, 1, 64, 0x03, .ro, 0, .never, (-32768), 32767, Code.valueRange, "trg.mask_worst"⟩,
  ⟨0x3830, 0, 0, 0x05, .rw, 0, .now, 0, 63, Code.valueRange, "trg.bp_mask"⟩,
  ⟨0x3831, 0, 0, 0x06, .rw, 0, .now, 0, 1023, Code.valueRange, "trg.bp_index"⟩,
  ⟨0x3832, 0, 0, 0x1B, .rw, 0, .cut, 0, 18446744073709551615, Code.valueRange, "trg.bp_value"⟩,
  ⟨0x3840, 1, 16, 0x05, .rw, 0, .cut, 0, 4, Code.chainInvalid, "trg.chain_stages"⟩,
  ⟨0x3841, 1, 16, 0x05, .rw, 0, .cut, 0, 1, Code.chainInvalid, "trg.chain_order"⟩,
  ⟨0x3842, 1, 16, 0x19, .rw, 0, .cut, 0, 281474976710655, Code.valueRange, "trg.chain_holdoff"⟩,
  ⟨0x3843, 1, 16, 0x1B, .rw, 0, .cut, 0, 18446744073709551615, Code.valueRange, "trg.chain_reset"⟩,
  ⟨0x3844, 1, 16, 0x06, .rw, 65535, .cut, 0, 65535, Code.valueRange, "trg.chain_bcast"⟩]

/-- Entries 0x38xx, part 2. -/
def rows38_2 : List Entry := [
  ⟨0x3845, 1, 16, 0x05, .rw, 0, .cut, 0, 1, Code.valueRange, "trg.chain_log"⟩,
  ⟨0x3846, 1, 16, 0x07, .ro, 0, .never, 0, 4294967295, Code.valueRange, "trg.chain_horizon"⟩,
  ⟨0x3847, 1, 16, 0x19, .ro, 0, .never, 0, 281474976710655, Code.valueRange, "trg.chain_fires"⟩,
  ⟨0x3848, 1, 16, 0x19, .ro, 0, .never, 0, 281474976710655, Code.valueRange, "trg.chain_held"⟩,
  ⟨0x3849, 1, 16, 0x05, .ro, 0, .never, 0, 255, Code.valueRange, "trg.chain_stage"⟩,
  ⟨0x3850, 1, 64, 0x1B, .rw, 0, .cut, 0, 18446744073709551615, Code.valueRange, "trg.stage_set"⟩,
  ⟨0x3851, 1, 64, 0x05, .rw, 0, .cut, 0, 2, Code.chainInvalid, "trg.stage_mode"⟩,
  ⟨0x3852, 1, 64, 0x07, .rw, 1, .cut, 1, 16777216, Code.chainInvalid, "trg.stage_n"⟩,
  ⟨0x3853, 1, 64, 0x19, .rw, 0, .cut, 0, 281474976710655, Code.valueRange, "trg.stage_window"⟩,
  ⟨0x3854, 1, 64, 0x19, .rw, 0, .cut, 0, 281474976710655, Code.valueRange, "trg.stage_next"⟩,
  ⟨0x3860, 1, 4, 0x05, .rw, 255, .cut, 0, 255, Code.valueRange, "trg.tout_src"⟩,
  ⟨0x3861, 1, 4, 0x19, .rw, 0, .cut, 0, 281474976710655, Code.valueRange, "trg.tout_delay"⟩,
  ⟨0x3862, 1, 4, 0x07, .rw, 10000, .cut, 1250, 4000000000, Code.valueRange, "trg.tout_width"⟩,
  ⟨0x3863, 1, 4, 0x19, .ro, 0, .never, 0, 281474976710655, Code.valueRange, "trg.tout_count"⟩,
  ⟨0x3870, 0, 0, 0x07, .rw, 4294967295, .cut, 0, 4294967295, Code.valueRange, "trg.event_ring"⟩,
  ⟨0x3871, 0, 0, 0x19, .ro, 0, .never, 0, 281474976710655, Code.valueRange, "trg.events_lost"⟩,
  ⟨0x3872, 0, 0, 0x07, .ro, 8388608, .never, 0, 4294967295, Code.valueRange, "trg.history_free"⟩,
  ⟨0x3873, 0, 0, 0x19, .ro, 0, .never, 0, 281474976710655, Code.valueRange, "trg.ecc_corrected"⟩,
  ⟨0x3880, 0, 0, 0x05, .rw, 0, .now, 0, 255, Code.valueRange, "trg.mag_sel"⟩,
  ⟨0x3881, 0, 0, 0x05, .rw, 255, .cut, 0, 255, Code.valueRange, "trg.mag_chain"⟩]

/-- Entries 0x38xx, part 3. -/
def rows38_3 : List Entry := [
  ⟨0x3882, 1, 4, 0x05, .rw, 0, .cut, 0, 255, Code.valueRange, "trg.mag_chan"⟩,
  ⟨0x3883, 0, 0, 0x05, .rw, 2, .cut, 1, 4, Code.valueRange, "trg.mag_format"⟩,
  ⟨0x3884, 0, 0, 0x19, .rw, 0, .cut, 0, 281474976710655, Code.valueRange, "trg.mag_pre"⟩,
  ⟨0x3885, 0, 0, 0x19, .rw, 1024, .cut, 1, 281474976710655, Code.valueRange, "trg.mag_post"⟩,
  ⟨0x3886, 0, 0, 0x07, .rw, 0, .cut, 0, 4294967295, Code.valueRange, "trg.mag_size"⟩,
  ⟨0x3887, 0, 0, 0x05, .rw, 0, .cut, 0, 1, Code.valueRange, "trg.mag_mode"⟩,
  ⟨0x3888, 0, 0, 0x05, .rw, 0, .cut, 0, 1, Code.valueRange, "trg.mag_history"⟩,
  ⟨0x3889, 0, 0, 0x05, .rw, 0, .cut, 0, 1, Code.valueRange, "trg.mag_spill"⟩,
  ⟨0x388A, 0, 0, 0x06, .rw, 65535, .cut, 0, 65535, Code.valueRange, "trg.mag_spill_reel"⟩,
  ⟨0x388B, 0, 0, 0x07, .rw, 4294967295, .cut, 0, 4294967295, Code.valueRange, "trg.mag_ring"⟩,
  ⟨0x388C, 0, 0, 0x05, .wo, 0, .now, 1, 5, Code.valueRange, "trg.mag_cmd"⟩,
  ⟨0x388D, 0, 0, 0x05, .ro, 0, .never, 0, 255, Code.valueRange, "trg.mag_state"⟩,
  ⟨0x388E, 0, 0, 0x07, .ro, 0, .never, 0, 4294967295, Code.valueRange, "trg.mag_takes"⟩,
  ⟨0x388F, 0, 0, 0x07, .ro, 0, .never, 0, 4294967295, Code.valueRange, "trg.mag_capacity"⟩,
  ⟨0x3890, 0, 0, 0x19, .ro, 0, .never, 0, 281474976710655, Code.valueRange, "trg.mag_slot_bytes"⟩,
  ⟨0x3891, 0, 0, 0x07, .ro, 0, .never, 0, 4294967295, Code.valueRange, "trg.mag_history_bytes"⟩,
  ⟨0x3892, 0, 0, 0x19, .ro, 0, .never, 0, 281474976710655, Code.valueRange, "trg.mag_missed"⟩,
  ⟨0x3893, 0, 0, 0x19, .ro, 0, .never, 0, 281474976710655, Code.valueRange, "trg.mag_seq"⟩,
  ⟨0x3894, 0, 0, 0x19, .ro, 0, .never, 0, 281474976710655, Code.valueRange, "trg.mag_base"⟩,
  ⟨0x3895, 0, 0, 0x19, .ro, 0, .never, 0, 281474976710655, Code.valueRange, "trg.mag_log_base"⟩]

/-- Entries 0x38xx, part 4. -/
def rows38_4 : List Entry := [
  ⟨0x38A0, 0, 0, 0x07, .rw, 0, .now, 0, 4294967295, Code.valueRange, "trg.take_sel"⟩,
  ⟨0x38A1, 0, 0, 0x05, .ro, 0, .never, 0, 255, Code.valueRange, "trg.take_state"⟩,
  ⟨0x38A2, 0, 0, 0x19, .ro, 0, .never, 0, 281474976710655, Code.valueRange, "trg.take_trig_sec"⟩,
  ⟨0x38A3, 0, 0, 0x19, .ro, 0, .never, 0, 281474976710655, Code.valueRange, "trg.take_trig_frac"⟩,
  ⟨0x38A4, 0, 0, 0x19, .ro, 0, .never, 0, 281474976710655, Code.valueRange, "trg.take_valid_pre"⟩,
  ⟨0x38A5, 0, 0, 0x19, .ro, 0, .never, 0, 281474976710655, Code.valueRange, "trg.take_data_addr"⟩,
  ⟨0x38A6, 0, 0, 0x19, .ro, 0, .never, 0, 281474976710655, Code.valueRange, "trg.take_data_bytes"⟩,
  ⟨0x38A7, 0, 0, 0x19, .ro, 0, .never, 0, 281474976710655, Code.valueRange, "trg.take_log_addr"⟩]

/-- The entries of indices 0x3800 to 0x38FF. -/
def rows38 : List Entry := rows38_0 ++ rows38_1 ++ rows38_2 ++ rows38_3 ++ rows38_4

/-- Entries 0x3Cxx, part 0. -/
def rows3C_0 : List Entry := [
  ⟨0x3C00, 1, 4, 0x05, .rw, 255, .cut, 0, 255, Code.valueRange, "den.layer"⟩,
  ⟨0x3C01, 1, 4, 0x06, .rw, 1024, .cut, 0, 65535, Code.valueRange, "den.cols"⟩,
  ⟨0x3C02, 1, 4, 0x06, .rw, 1024, .cut, 0, 65535, Code.valueRange, "den.rows"⟩,
  ⟨0x3C03, 1, 4, 0x05, .rw, 0, .cut, 0, 14, Code.valueRange, "den.col_shift"⟩,
  ⟨0x3C04, 1, 4, 0x07, .rw, 0, .cut, 0, 4294967295, Code.valueRange, "den.bin_first"⟩,
  ⟨0x3C05, 1, 4, 0x05, .rw, 0, .cut, 0, 1, Code.valueRange, "den.hit_mode"⟩,
  ⟨0x3C06, 1, 4, 0x03, .rw, 2560, .cut, (-32768), 32767, Code.valueRange, "den.top"⟩,
  ⟨0x3C07, 1, 4, 0x06, .rw, 32, .cut, 1, 4096, Code.denParam, "den.row_step"⟩,
  ⟨0x3C08, 1, 4, 0x05, .rw, 1, .cut, 0, 1, Code.denParam, "den.clip"⟩,
  ⟨0x3C09, 1, 4, 0x05, .rw, 4, .cut, 0, 32, Code.denParam, "den.decay"⟩,
  ⟨0x3C0A, 1, 4, 0x19, .rw, 20000000, .cut, 100000, 10000000000, Code.denParam, "den.period"⟩,
  ⟨0x3C0B, 1, 4, 0x05, .rw, 0, .cut, 0, 3, Code.denParam, "den.export_format"⟩,
  ⟨0x3C0C, 1, 4, 0x06, .rw, 1, .cut, 1, 65535, Code.denParam, "den.export_every"⟩,
  ⟨0x3C0D, 1, 4, 0x07, .rw, 0, .cut, 0, 4294967295, Code.valueRange, "den.map_full"⟩,
  ⟨0x3C0E, 1, 4, 0x07, .rw, 4294967295, .cut, 0, 4294967295, Code.valueRange, "den.ring"⟩,
  ⟨0x3C0F, 1, 4, 0x05, .rw, 255, .cut, 0, 255, Code.valueRange, "den.vp_layer"⟩,
  ⟨0x3C10, 1, 4, 0x07, .rw, 4294967295, .cut, 0, 4294967295, Code.valueRange, "den.vp_handle_a"⟩,
  ⟨0x3C11, 1, 4, 0x07, .rw, 4294967295, .cut, 0, 4294967295, Code.valueRange, "den.vp_handle_b"⟩,
  ⟨0x3C20, 1, 4, 0x05, .ro, 0, .never, 0, 255, Code.valueRange, "den.state"⟩,
  ⟨0x3C21, 1, 4, 0x19, .ro, 0, .never, 0, 281474976710655, Code.valueRange, "den.plane_frames"⟩]

/-- Entries 0x3Cxx, part 1. -/
def rows3C_1 : List Entry := [
  ⟨0x3C22, 1, 4, 0x19, .ro, 0, .never, 0, 281474976710655, Code.valueRange, "den.hits"⟩,
  ⟨0x3C23, 1, 4, 0x19, .ro, 0, .never, 0, 281474976710655, Code.valueRange, "den.clipped"⟩,
  ⟨0x3C24, 1, 4, 0x19, .ro, 0, .never, 0, 281474976710655, Code.valueRange, "den.sat_cells"⟩,
  ⟨0x3C25, 1, 4, 0x19, .ro, 0, .never, 0, 281474976710655, Code.valueRange, "den.frames_skipped"⟩,
  ⟨0x3C26, 1, 4, 0x19, .ro, 0, .never, 0, 281474976710655, Code.valueRange, "den.frames_lost"⟩,
  ⟨0x3C27, 1, 4, 0x19, .ro, 0, .never, 0, 281474976710655, Code.valueRange, "den.exports"⟩,
  ⟨0x3C28, 1, 4, 0x19, .ro, 0, .never, 0, 281474976710655, Code.valueRange, "den.exports_skipped"⟩,
  ⟨0x3C29, 1, 4, 0x07, .ro, 0, .never, 0, 4294967295, Code.valueRange, "den.max_cell"⟩,
  ⟨0x3C2A, 1, 4, 0x19, .ro, 0, .never, 0, 281474976710655, Code.valueRange, "den.ecc_corrected"⟩,
  ⟨0x3C40, 1, 16, 0x05, .rw, 0, .cut, 0, 2, Code.valueRange, "den.thr_kind"⟩,
  ⟨0x3C41, 1, 16, 0x06, .rw, 0, .cut, 0, 65535, Code.valueRange, "den.thr_col_lo"⟩,
  ⟨0x3C42, 1, 16, 0x06, .rw, 0, .cut, 0, 65535, Code.valueRange, "den.thr_col_hi"⟩,
  ⟨0x3C43, 1, 16, 0x06, .rw, 0, .cut, 0, 65535, Code.valueRange, "den.thr_row_lo"⟩,
  ⟨0x3C44, 1, 16, 0x06, .rw, 0, .cut, 0, 65535, Code.valueRange, "den.thr_row_hi"⟩,
  ⟨0x3C45, 1, 16, 0x07, .rw, 1, .cut, 0, 4294967295, Code.valueRange, "den.thr_hits"⟩,
  ⟨0x3C46, 1, 16, 0x19, .ro, 0, .never, 0, 281474976710655, Code.valueRange, "den.thr_events"⟩,
  ⟨0x3C47, 1, 16, 0x07, .ro, 0, .never, 0, 4294967295, Code.valueRange, "den.thr_count"⟩]

/-- The entries of indices 0x3C00 to 0x3CFF. -/
def rows3C : List Entry := rows3C_0 ++ rows3C_1

/-- Entries 0x40xx, part 0. -/
def rows40_0 : List Entry := [
  ⟨0x4000, 0, 0, 0x05, .ro, 0, .never, 0, 255, Code.valueRange, "cap.state"⟩,
  ⟨0x4001, 0, 0, 0x05, .ro, 0, .never, 0, 255, Code.valueRange, "cap.channels"⟩,
  ⟨0x4002, 0, 0, 0x19, .ro, 0, .never, 0, 281474976710655, Code.valueRange, "cap.capacity"⟩,
  ⟨0x4003, 0, 0, 0x19, .ro, 0, .never, 0, 281474976710655, Code.valueRange, "cap.free"⟩,
  ⟨0x4004, 0, 0, 0x06, .ro, 6400, .never, 0, 65535, Code.valueRange, "cap.dram_rate"⟩,
  ⟨0x4005, 0, 0, 0x19, .ro, 0, .never, 0, 281474976710655, Code.valueRange, "cap.bar2_unmapped"⟩,
  ⟨0x4006, 0, 0, 0x06, .ro, 0, .never, 0, 65535, Code.valueRange, "cap.holed"⟩,
  ⟨0x4007, 0, 0, 0x07, .rw, 4294967295, .cut, 0, 4294967295, Code.valueRange, "cap.event_ring"⟩,
  ⟨0x4008, 1, 3, 0x19, .rwc, 0, .changeover, 0, 281474976710655, Code.valueRange, "cap.hash_ch"⟩,
  ⟨0x4009, 1, 5, 0x19, .rwc, 0, .changeover, 0, 281474976710655, Code.valueRange, "cap.hash_bank"⟩,
  ⟨0x4010, 1, 24, 0x07, .rw, 0, .cut, 0, 4294967295, Code.valueRange, "cap.reg_rate"⟩,
  ⟨0x4011, 1, 24, 0x06, .rw, 64, .cut, 1, 16384, Code.valueRange, "cap.reg_burst"⟩,
  ⟨0x4012, 1, 24, 0x19, .ro, 0, .never, 0, 281474976710655, Code.valueRange, "cap.port_bytes"⟩,
  ⟨0x4013, 1, 24, 0x19, .ro, 0, .never, 0, 281474976710655, Code.valueRange, "cap.reg_held"⟩,
  ⟨0x4020, 1, 8, 0x05, .ro, 0, .never, 0, 255, Code.valueRange, "cap.chan_state"⟩,
  ⟨0x4021, 1, 8, 0x06, .ro, 1672, .never, 0, 65535, Code.valueRange, "cap.rank_map"⟩,
  ⟨0x4022, 1, 40, 0x05, .ro, 0, .never, 0, 255, Code.valueRange, "cap.rank_state"⟩,
  ⟨0x4023, 1, 40, 0x19, .ro, 0, .never, 0, 281474976710655, Code.valueRange, "cap.ecc_corrected"⟩,
  ⟨0x4024, 1, 40, 0x19, .ro, 0, .never, 0, 281474976710655, Code.valueRange, "cap.ecc_lost"⟩,
  ⟨0x4025, 1, 8, 0x05, .ro, 0, .never, 0, 255, Code.valueRange, "cap.dram_mr4"⟩]

/-- Entries 0x40xx, part 1. -/
def rows40_1 : List Entry := [
  ⟨0x4026, 0, 0, 0x05, .ro, 0, .never, 0, 255, Code.valueRange, "cap.refresh_x2"⟩,
  ⟨0x4027, 0, 0, 0x07, .rw, 2048, .cut, 256, 65536, Code.valueRange, "cap.rd_threshold"⟩,
  ⟨0x4028, 1, 8, 0x19, .ro, 0, .never, 0, 281474976710655, Code.valueRange, "cap.rd_refreshes"⟩,
  ⟨0x4029, 0, 0, 0x07, .rw, 600, .now, 60, 86400, Code.valueRange, "cap.retrain_s"⟩,
  ⟨0x402A, 0, 0, 0x05, .rw, 10, .now, 2, 40, Code.valueRange, "cap.retrain_dk"⟩,
  ⟨0x402B, 1, 8, 0x19, .ro, 0, .never, 0, 281474976710655, Code.valueRange, "cap.retrains"⟩,
  ⟨0x402C, 0, 0, 0x07, .rw, 1024, .now, 0, 4294967295, Code.valueRange, "cap.ce_limit"⟩,
  ⟨0x402D, 0, 0, 0x05, .rw, 24, .now, 1, 168, Code.valueRange, "cap.scrub_hours"⟩,
  ⟨0x402E, 0, 0, 0x19, .ro, 0, .never, 0, 281474976710655, Code.valueRange, "cap.migrate"⟩,
  ⟨0x402F, 0, 0, 0x07, .rw, 0, .now, 0, 4294967295, Code.valueRange, "cap.idle_sr"⟩,
  ⟨0x4030, 0, 0, 0x07, .ro, 0, .never, 0, 4294967295, Code.valueRange, "cap.hod_occupancy"⟩,
  ⟨0x4031, 0, 0, 0x07, .rw, 0, .now, 0, 0, Code.valueRange, "cap.hod_high_water"⟩,
  ⟨0x4032, 0, 0, 0x19, .ro, 0, .never, 0, 281474976710655, Code.valueRange, "cap.hod_discarded"⟩,
  ⟨0x4033, 0, 0, 0x19, .ro, 0, .never, 0, 281474976710655, Code.valueRange, "cap.hod_gaps"⟩,
  ⟨0x4034, 0, 0, 0x19, .ro, 0, .never, 0, 281474976710655, Code.valueRange, "cap.stall_deferrals"⟩,
  ⟨0x4035, 0, 0, 0x19, .ro, 0, .never, 0, 281474976710655, Code.valueRange, "cap.stall_ns"⟩,
  ⟨0x4040, 1, 4, 0x05, .rw, 0, .cut, 0, 255, Code.valueRange, "cap.cs_src"⟩,
  ⟨0x4041, 1, 4, 0x05, .rw, 2, .cut, 1, 4, Code.valueRange, "cap.cs_format"⟩,
  ⟨0x4042, 1, 4, 0x07, .rw, 0, .cut, 0, 4294967295, Code.valueRange, "cap.cs_size"⟩,
  ⟨0x4043, 1, 4, 0x07, .rw, 256, .cut, 4, 4294967295, Code.valueRange, "cap.cs_log_size"⟩]

/-- Entries 0x40xx, part 2. -/
def rows40_2 : List Entry := [
  ⟨0x4044, 1, 4, 0x05, .rw, 0, .cut, 0, 1, Code.valueRange, "cap.cs_mode"⟩,
  ⟨0x4045, 1, 4, 0x05, .wo, 0, .now, 1, 3, Code.valueRange, "cap.cs_cmd"⟩,
  ⟨0x4046, 1, 4, 0x05, .ro, 0, .never, 0, 255, Code.valueRange, "cap.cs_state"⟩,
  ⟨0x4047, 1, 4, 0x19, .ro, 0, .never, 0, 281474976710655, Code.valueRange, "cap.cs_written"⟩,
  ⟨0x4048, 1, 4, 0x19, .ro, 0, .never, 0, 281474976710655, Code.valueRange, "cap.cs_base"⟩,
  ⟨0x4049, 1, 4, 0x19, .ro, 0, .never, 0, 281474976710655, Code.valueRange, "cap.cs_log_base"⟩,
  ⟨0x404A, 1, 4, 0x19, .ro, 0, .never, 0, 281474976710655, Code.valueRange, "cap.cs_gap_samples"⟩,
  ⟨0x404F, 0, 0, 0x19, .ro, 0, .never, 0, 281474976710655, Code.valueRange, "cap.events_lost"⟩]

/-- The entries of indices 0x4000 to 0x40FF. -/
def rows40 : List Entry := rows40_0 ++ rows40_1 ++ rows40_2

/-- Entries 0x44xx, part 0. -/
def rows44_0 : List Entry := [
  ⟨0x4400, 0, 0, 0x05, .ro, 0, .never, 0, 255, Code.valueRange, "str.link_state"⟩,
  ⟨0x4401, 0, 0, 0x06, .ro, 0, .never, 0, 65535, Code.valueRange, "str.link_config"⟩,
  ⟨0x4402, 0, 0, 0x07, .rw, 4294967295, .cut, 0, 4294967295, Code.valueRange, "str.event_ring"⟩,
  ⟨0x4403, 0, 0, 0x19, .ro, 0, .never, 0, 281474976710655, Code.valueRange, "str.events_lost"⟩,
  ⟨0x4410, 0, 0, 0x06, .rw, 0, .now, 0, 65535, Code.valueRange, "str.ring_sel"⟩,
  ⟨0x4411, 0, 0, 0x1B, .rw, 0, .now, 0, 18446744073709551615, Code.valueRange, "str.ring_base"⟩,
  ⟨0x4412, 0, 0, 0x1B, .rw, 0, .now, 0, 18446744073709551615, Code.valueRange, "str.ring_wb"⟩,
  ⟨0x4413, 0, 0, 0x05, .rw, 12, .now, 12, 32, Code.valueRange, "str.ring_size_log2"⟩,
  ⟨0x4414, 0, 0, 0x05, .rw, 0, .now, 0, 255, Code.valueRange, "str.ring_target"⟩,
  ⟨0x4415, 0, 0, 0x05, .rw, 0, .now, 0, 1, Code.valueRange, "str.ring_policy"⟩,
  ⟨0x4416, 0, 0, 0x06, .rw, 65535, .now, 0, 65535, Code.valueRange, "str.ring_vector"⟩,
  ⟨0x4417, 0, 0, 0x07, .rw, 64, .now, 0, 4294967295, Code.valueRange, "str.ring_backlog"⟩,
  ⟨0x4418, 0, 0, 0x06, .rw, 1, .now, 0, 65535, Code.valueRange, "str.ring_mod_count"⟩,
  ⟨0x4419, 0, 0, 0x07, .rw, 0, .now, 0, 4294967295, Code.valueRange, "str.ring_mod_us"⟩,
  ⟨0x441A, 0, 0, 0x05, .wo, 0, .now, 1, 4, Code.valueRange, "str.ring_cmd"⟩,
  ⟨0x441B, 0, 0, 0x05, .ro, 0, .never, 0, 255, Code.valueRange, "str.ring_state"⟩,
  ⟨0x441C, 0, 0, 0x07, .ro, 0, .never, 0, 4294967295, Code.valueRange, "str.ring_pi"⟩,
  ⟨0x441D, 0, 0, 0x07, .rw, 0, .now, 0, 4294967295, Code.valueRange, "str.ring_ci"⟩,
  ⟨0x441E, 0, 0, 0x19, .ro, 0, .never, 0, 281474976710655, Code.valueRange, "str.ring_dropped"⟩,
  ⟨0x441F, 0, 0, 0x19, .ro, 0, .never, 0, 281474976710655, Code.valueRange, "str.ring_bytes"⟩]

/-- Entries 0x44xx, part 1. -/
def rows44_1 : List Entry := [
  ⟨0x4420, 0, 0, 0x07, .ro, 0, .never, 0, 4294967295, Code.valueRange, "str.rings_open"⟩,
  ⟨0x4430, 1, 8, 0x05, .ro, 0, .never, 0, 255, Code.valueRange, "str.drv_state"⟩,
  ⟨0x4431, 1, 8, 0x06, .ro, 0, .never, 0, 65535, Code.valueRange, "str.drv_reason"⟩,
  ⟨0x4432, 1, 8, 0x06, .ro, 0, .never, 0, 65535, Code.valueRange, "str.drv_link"⟩,
  ⟨0x4433, 1, 8, 0x19, .ro, 0, .never, 0, 281474976710655, Code.valueRange, "str.drv_capacity"⟩,
  ⟨0x4434, 1, 8, 0x19, .ro, 0, .never, 0, 281474976710655, Code.valueRange, "str.drv_written"⟩,
  ⟨0x4435, 1, 8, 0x07, .ro, 0, .never, 0, 4294967295, Code.valueRange, "str.drv_latency"⟩,
  ⟨0x4436, 1, 8, 0x19, .ro, 0, .never, 0, 281474976710655, Code.valueRange, "str.drv_errors"⟩,
  ⟨0x4437, 1, 8, 0x05, .ro, 0, .never, 0, 255, Code.valueRange, "str.drv_health"⟩,
  ⟨0x4440, 0, 0, 0x05, .rw, 4, .cut, 1, 16, Code.valueRange, "str.nvme_queues"⟩,
  ⟨0x4441, 0, 0, 0x06, .rw, 256, .cut, 2, 1024, Code.valueRange, "str.nvme_depth"⟩,
  ⟨0x4442, 0, 0, 0x06, .rw, 200, .now, 10, 10000, Code.valueRange, "str.nvme_timeout"⟩,
  ⟨0x4443, 0, 0, 0x07, .rw, 10000, .cut, 0, 4294967295, Code.valueRange, "str.drive_rate"⟩,
  ⟨0x4444, 0, 0, 0x06, .wo, 0, .now, 0, 65535, Code.valueRange, "str.drive_cmd"⟩,
  ⟨0x4450, 0, 0, 0x05, .ro, 0, .never, 0, 255, Code.valueRange, "str.vol_state"⟩,
  ⟨0x4451, 0, 0, 0x05, .wo, 0, .now, 1, 3, Code.valueRange, "str.vol_cmd"⟩,
  ⟨0x4452, 0, 0, 0x05, .ro, 0, .never, 0, 255, Code.valueRange, "str.vol_members"⟩,
  ⟨0x4453, 0, 0, 0x19, .ro, 0, .never, 0, 281474976710655, Code.valueRange, "str.vol_id"⟩,
  ⟨0x4454, 0, 0, 0x07, .rw, 1024, .now, 0, 4294967295, Code.valueRange, "str.vol_unit_kib"⟩,
  ⟨0x4455, 0, 0, 0x07, .rw, 65536, .now, 1024, 16777215, Code.valueRange, "str.vol_extent"⟩]

/-- Entries 0x44xx, part 2. -/
def rows44_2 : List Entry := [
  ⟨0x4456, 0, 0, 0x19, .ro, 0, .never, 0, 281474976710655, Code.valueRange, "str.vol_free"⟩,
  ⟨0x4458, 0, 0, 0x07, .rw, 16384, .cut, 0, 4294967295, Code.valueRange, "str.spool_mib"⟩,
  ⟨0x4459, 0, 0, 0x19, .ro, 0, .never, 0, 281474976710655, Code.valueRange, "str.spool_used"⟩,
  ⟨0x445A, 0, 0, 0x19, .rw, 0, .now, 0, 0, Code.valueRange, "str.spool_high"⟩,
  ⟨0x4460, 0, 0, 0x06, .rw, 0, .now, 0, 4095, Code.valueRange, "str.reel_sel"⟩,
  ⟨0x4461, 0, 0, 0x05, .rw, 0, .now, 0, 1, Code.valueRange, "str.reel_mode"⟩,
  ⟨0x4462, 1, 4, 0x05, .rw, 0, .now, 0, 255, Code.valueRange, "str.reel_src"⟩,
  ⟨0x4463, 0, 0, 0x05, .rw, 1, .now, 1, 4, Code.valueRange, "str.reel_format"⟩,
  ⟨0x4464, 0, 0, 0x05, .rw, 0, .now, 0, 255, Code.valueRange, "str.reel_members"⟩,
  ⟨0x4465, 0, 0, 0x05, .wo, 0, .now, 1, 4, Code.valueRange, "str.reel_cmd"⟩,
  ⟨0x4466, 0, 0, 0x05, .ro, 0, .never, 0, 255, Code.valueRange, "str.reel_state"⟩,
  ⟨0x4467, 0, 0, 0x19, .ro, 0, .never, 0, 281474976710655, Code.valueRange, "str.reel_samples"⟩,
  ⟨0x4468, 0, 0, 0x19, .ro, 0, .never, 0, 281474976710655, Code.valueRange, "str.reel_gap_samples"⟩,
  ⟨0x4469, 0, 0, 0x19, .ro, 0, .never, 0, 281474976710655, Code.valueRange, "str.reel_bytes"⟩,
  ⟨0x446A, 0, 0, 0x07, .ro, 0, .never, 0, 4294967295, Code.valueRange, "str.reel_rate"⟩,
  ⟨0x446B, 1, 2, 0x19, .ro, 0, .never, 0, 281474976710655, Code.valueRange, "str.reel_start"⟩,
  ⟨0x4470, 1, 4, 0x05, .rw, 0, .cut, 0, 3, Code.valueRange, "str.pb_src"⟩,
  ⟨0x4471, 1, 4, 0x19, .rw, 0, .cut, 0, 281474976710655, Code.valueRange, "str.pb_addr"⟩,
  ⟨0x4472, 1, 4, 0x05, .rw, 2, .cut, 0, 255, Code.valueRange, "str.pb_format"⟩,
  ⟨0x4473, 1, 4, 0x19, .rw, 0, .cut, 0, 281474976710655, Code.valueRange, "str.pb_fs"⟩]

/-- Entries 0x44xx, part 3. -/
def rows44_3 : List Entry := [
  ⟨0x4474, 1, 4, 0x05, .rw, 0, .cut, 0, 255, Code.valueRange, "str.pb_chan"⟩,
  ⟨0x4475, 1, 4, 0x19, .rw, 0, .cut, 0, 281474976710655, Code.valueRange, "str.pb_first"⟩,
  ⟨0x4476, 1, 4, 0x19, .rw, 0, .cut, 0, 281474976710655, Code.valueRange, "str.pb_count"⟩,
  ⟨0x4477, 1, 4, 0x05, .rw, 0, .cut, 0, 1, Code.valueRange, "str.pb_loop"⟩,
  ⟨0x4478, 1, 4, 0x07, .rw, 1000, .cut, 10, 1000000, Code.valueRange, "str.pb_lead"⟩,
  ⟨0x4479, 1, 4, 0x05, .wo, 0, .now, 1, 2, Code.valueRange, "str.pb_cmd"⟩,
  ⟨0x447A, 1, 4, 0x05, .ro, 0, .never, 0, 255, Code.valueRange, "str.pb_state"⟩,
  ⟨0x447B, 1, 4, 0x19, .ro, 0, .never, 0, 281474976710655, Code.valueRange, "str.pb_released"⟩,
  ⟨0x447C, 1, 4, 0x19, .ro, 0, .never, 0, 281474976710655, Code.valueRange, "str.pb_gap_samples"⟩,
  ⟨0x447D, 1, 4, 0x07, .rw, 1024, .cut, 0, 4294967295, Code.valueRange, "str.pb_stage_mib"⟩]

/-- The entries of indices 0x4400 to 0x44FF. -/
def rows44 : List Entry := rows44_0 ++ rows44_1 ++ rows44_2 ++ rows44_3

/-- Entries 0x48xx, part 0. -/
def rows48_0 : List Entry := [
  ⟨0x4800, 0, 0, 0x05, .rw, 1, .restart, 0, 2, Code.valueRange, "cf.auto_join"⟩,
  ⟨0x4801, 0, 0, 0x05, .wo, 0, .now, 1, 4, Code.valueRange, "cf.cmd"⟩,
  ⟨0x4802, 0, 0, 0x06, .rw, 65535, .now, 0, 65535, Code.valueRange, "cf.cmd_slot"⟩,
  ⟨0x4803, 0, 0, 0x05, .ro, 0, .never, 0, 255, Code.valueRange, "cf.state"⟩,
  ⟨0x4804, 0, 0, 0x05, .ro, 0, .never, 0, 255, Code.valueRange, "cf.prepare_state"⟩,
  ⟨0x4805, 0, 0, 0x06, .ro, 0, .never, 0, 65535, Code.valueRange, "cf.modules"⟩,
  ⟨0x4806, 0, 0, 0x19, .ro, 0, .never, 0, 281474976710655, Code.valueRange, "cf.topology_seq"⟩,
  ⟨0x4807, 0, 0, 0x06, .rw, 0, .now, 0, 65535, Code.valueRange, "cf.map_sel"⟩,
  ⟨0x4808, 0, 0, 0x1B, .ro, 0, .never, 0, 18446744073709551615, Code.valueRange, "cf.map_entry"⟩,
  ⟨0x4809, 0, 0, 0x07, .rw, 4294967295, .cut, 0, 4294967295, Code.valueRange, "cf.event_ring"⟩,
  ⟨0x480A, 0, 0, 0x19, .ro, 0, .never, 0, 281474976710655, Code.valueRange, "cf.events_lost"⟩,
  ⟨0x4810, 1, 4, 0x05, .ro, 0, .never, 0, 255, Code.valueRange, "cf.port_state"⟩,
  ⟨0x4811, 1, 4, 0x06, .ro, 0, .never, 0, 65535, Code.valueRange, "cf.port_reason"⟩,
  ⟨0x4812, 1, 4, 0x06, .ro, 65535, .never, 0, 65535, Code.valueRange, "cf.neighbour"⟩,
  ⟨0x4813, 1, 4, 0x07, .ro, 0, .never, 0, 4294967295, Code.valueRange, "cf.link_delay"⟩,
  ⟨0x4814, 1, 4, 0x04, .rw, 0, .cut, (-2147483648), 2147483647, Code.valueRange, "cf.port_asym"⟩,
  ⟨0x4815, 1, 4, 0x19, .ro, 0, .never, 0, 281474976710655, Code.valueRange, "cf.fec_corrected"⟩,
  ⟨0x4816, 1, 4, 0x19, .ro, 0, .never, 0, 281474976710655, Code.valueRange, "cf.fec_uncorrected"⟩,
  ⟨0x4817, 1, 4, 0x19, .ro, 0, .never, 0, 281474976710655, Code.valueRange, "cf.link_downs"⟩,
  ⟨0x4818, 1, 4, 0x19, .ro, 0, .never, 0, 281474976710655, Code.valueRange, "cf.port_bytes"⟩]

/-- Entries 0x48xx, part 1. -/
def rows48_1 : List Entry := [
  ⟨0x4820, 0, 0, 0x05, .rw, 128, .now, 0, 255, Code.valueRange, "cf.keystone_prio"⟩,
  ⟨0x4821, 0, 0, 0x05, .rw, 0, .cut, 0, 2, Code.valueRange, "cf.keystone_src"⟩,
  ⟨0x4822, 0, 0, 0x06, .ro, 65535, .never, 0, 65535, Code.valueRange, "cf.keystone"⟩,
  ⟨0x4823, 0, 0, 0x05, .ro, 255, .never, 0, 255, Code.valueRange, "cf.time_parent"⟩,
  ⟨0x4824, 0, 0, 0x05, .ro, 255, .never, 0, 255, Code.valueRange, "cf.time_depth"⟩,
  ⟨0x4825, 0, 0, 0x04, .ro, 0, .never, (-2147483648), 2147483647, Code.valueRange, "cf.time_offset"⟩,
  ⟨0x4826, 0, 0, 0x06, .rw, 1024, .now, 16, 65535, Code.valueRange, "cf.time_avg"⟩,
  ⟨0x4827, 0, 0, 0x07, .rw, 1000, .now, 10, 1000000, Code.valueRange, "cf.time_step"⟩,
  ⟨0x4828, 0, 0, 0x04, .ro, 0, .never, (-2147483648), 2147483647, Code.valueRange, "cf.freq_offset"⟩,
  ⟨0x4830, 1, 16, 0x05, .rw, 0, .cut, 0, 1, Code.valueRange, "cf.bcast_scope"⟩,
  ⟨0x4831, 0, 0, 0x19, .ro, 0, .never, 0, 281474976710655, Code.valueRange, "cf.bcast_sent"⟩,
  ⟨0x4832, 0, 0, 0x19, .ro, 0, .never, 0, 281474976710655, Code.valueRange, "cf.bcast_waited"⟩,
  ⟨0x4833, 0, 0, 0x19, .ro, 0, .never, 0, 281474976710655, Code.valueRange, "cf.bcast_dropped"⟩,
  ⟨0x4834, 0, 0, 0x19, .ro, 0, .never, 0, 281474976710655, Code.valueRange, "cf.bcast_received"⟩,
  ⟨0x4835, 0, 0, 0x19, .ro, 0, .never, 0, 281474976710655, Code.valueRange, "cf.bcast_lost"⟩,
  ⟨0x4836, 0, 0, 0x07, .ro, 0, .never, 0, 4294967295, Code.valueRange, "cf.bcast_bound"⟩,
  ⟨0x4837, 0, 0, 0x07, .ro, 0, .never, 0, 4294967295, Code.valueRange, "cf.bcast_bound_sys"⟩,
  ⟨0x4840, 0, 0, 0x06, .rw, 65535, .now, 0, 65535, Code.valueRange, "cf.rda_slot"⟩,
  ⟨0x4841, 0, 0, 0x07, .rw, 0, .now, 0, 4294967295, Code.valueRange, "cf.rda_index"⟩,
  ⟨0x4842, 0, 0, 0x0A, .rw, 0, .now, 0, 512, Code.valueRange, "cf.rda_data"⟩]

/-- Entries 0x48xx, part 2. -/
def rows48_2 : List Entry := [
  ⟨0x4843, 0, 0, 0x05, .wo, 0, .now, 1, 2, Code.valueRange, "cf.rda_cmd"⟩,
  ⟨0x4844, 0, 0, 0x05, .ro, 0, .never, 0, 255, Code.valueRange, "cf.rda_state"⟩,
  ⟨0x4845, 0, 0, 0x07, .ro, 0, .never, 0, 4294967295, Code.valueRange, "cf.rda_abort"⟩,
  ⟨0x4846, 0, 0, 0x07, .rw, 1000, .now, 10, 1000000, Code.valueRange, "cf.rda_timeout"⟩,
  ⟨0x4850, 0, 0, 0x06, .rw, 65535, .now, 0, 65535, Code.valueRange, "cf.copy_slot"⟩,
  ⟨0x4851, 0, 0, 0x19, .rw, 0, .now, 0, 281474976710655, Code.valueRange, "cf.copy_src"⟩,
  ⟨0x4852, 0, 0, 0x19, .rw, 0, .now, 0, 281474976710655, Code.valueRange, "cf.copy_dst"⟩,
  ⟨0x4853, 0, 0, 0x19, .rw, 0, .now, 0, 281474976710655, Code.valueRange, "cf.copy_len"⟩,
  ⟨0x4854, 0, 0, 0x05, .wo, 0, .now, 1, 2, Code.valueRange, "cf.copy_cmd"⟩,
  ⟨0x4855, 0, 0, 0x05, .ro, 0, .never, 0, 255, Code.valueRange, "cf.copy_state"⟩,
  ⟨0x4856, 0, 0, 0x19, .ro, 0, .never, 0, 281474976710655, Code.valueRange, "cf.copy_done"⟩,
  ⟨0x4857, 0, 0, 0x19, .ro, 0, .never, 0, 281474976710655, Code.valueRange, "cf.copy_lost"⟩,
  ⟨0x4858, 0, 0, 0x07, .rw, 1000, .now, 100, 10000000, Code.valueRange, "cf.data_timeout"⟩,
  ⟨0x4859, 0, 0, 0x19, .ro, 0, .never, 0, 281474976710655, Code.valueRange, "cf.retransmits"⟩]

/-- The entries of indices 0x4800 to 0x48FF. -/
def rows48 : List Entry := rows48_0 ++ rows48_1 ++ rows48_2

/-- Entries 0x4Cxx, part 0. -/
def rows4C_0 : List Entry := [
  ⟨0x4C00, 0, 0, 0x05, .rw, 0, .now, 0, 1, Code.valueRange, "vp.enable"⟩,
  ⟨0x4C01, 0, 0, 0x05, .rw, 0, .cut, 0, 255, Code.valueRange, "vp.mode"⟩,
  ⟨0x4C02, 0, 0, 0x05, .rw, 10, .cut, 0, 255, Code.valueRange, "vp.bpc"⟩,
  ⟨0x4C03, 1, 10, 0x07, .rw, 0, .cut, 0, 4294967295, Code.valueRange, "vp.user_timing"⟩,
  ⟨0x4C04, 0, 0, 0x07, .rw, 4278190080, .cut, 0, 4294967295, Code.valueRange, "vp.background"⟩,
  ⟨0x4C05, 0, 0, 0x05, .rw, 1, .now, 0, 1, Code.valueRange, "vp.readback_action"⟩,
  ⟨0x4C06, 0, 0, 0x07, .rw, 4294967295, .cut, 0, 4294967295, Code.valueRange, "vp.event_ring"⟩,
  ⟨0x4C07, 0, 0, 0x05, .wo, 0, .now, 0, 255, Code.valueRange, "vp.commit"⟩,
  ⟨0x4C08, 0, 0, 0x07, .rw, 256, .cut, 16, 4096, Code.valueRange, "vp.pool_size"⟩,
  ⟨0x4C10, 0, 0, 0x05, .ro, 0, .never, 0, 255, Code.valueRange, "vp.link_state"⟩,
  ⟨0x4C11, 0, 0, 0x06, .ro, 0, .never, 0, 65535, Code.valueRange, "vp.link_config"⟩,
  ⟨0x4C12, 0, 0, 0x19, .ro, 0, .never, 0, 281474976710655, Code.valueRange, "vp.frame"⟩,
  ⟨0x4C13, 0, 0, 0x19, .ro, 0, .never, 0, 281474976710655, Code.valueRange, "vp.underruns"⟩,
  ⟨0x4C14, 0, 0, 0x19, .ro, 0, .never, 0, 281474976710655, Code.valueRange, "vp.readback_errors"⟩,
  ⟨0x4C15, 1, 3, 0x06, .ro, 0, .never, 0, 65535, Code.valueRange, "vp.readback_crc"⟩,
  ⟨0x4C16, 0, 0, 0x19, .ro, 0, .never, 0, 281474976710655, Code.valueRange, "vp.events_lost"⟩,
  ⟨0x4C17, 0, 0, 0x19, .ro, 0, .never, 0, 281474976710655, Code.valueRange, "vp.ecc_corrected"⟩,
  ⟨0x4C18, 0, 0, 0x0A, .ro, 0, .never, 0, 512, Code.valueRange, "vp.edid"⟩,
  ⟨0x4C20, 1, 4, 0x07, .rw, 4294967295, .commit, 0, 4294967295, Code.valueRange, "vp.layer_handle"⟩,
  ⟨0x4C21, 1, 4, 0x03, .rw, 0, .commit, (-32768), 32767, Code.valueRange, "vp.layer_x"⟩]

/-- Entries 0x4Cxx, part 1. -/
def rows4C_1 : List Entry := [
  ⟨0x4C22, 1, 4, 0x03, .rw, 0, .commit, (-32768), 32767, Code.valueRange, "vp.layer_y"⟩,
  ⟨0x4C23, 1, 4, 0x05, .rw, 255, .commit, 0, 255, Code.valueRange, "vp.layer_alpha"⟩,
  ⟨0x4C24, 1, 4, 0x05, .rw, 0, .commit, 0, 3, Code.valueRange, "vp.layer_palette"⟩,
  ⟨0x4C25, 1, 4, 0x05, .rw, 1, .commit, 1, 8, Code.valueRange, "vp.layer_zoom_x"⟩,
  ⟨0x4C26, 1, 4, 0x05, .rw, 1, .commit, 1, 8, Code.valueRange, "vp.layer_zoom_y"⟩,
  ⟨0x4C27, 0, 0, 0x05, .rw, 0, .commit, 0, 1, Code.valueRange, "vp.cursor_on"⟩,
  ⟨0x4C28, 1, 4, 0x05, .rw, 0, .commit, 0, 2, Code.valueRange, "vp.roll"⟩,
  ⟨0x4C29, 1, 4, 0x05, .rw, 255, .commit, 0, 255, Code.valueRange, "vp.roll_src"⟩,
  ⟨0x4C2A, 1, 4, 0x07, .rw, 0, .commit, 0, 4294967295, Code.valueRange, "vp.roll_first"⟩,
  ⟨0x4C2B, 1, 4, 0x05, .rw, 1, .commit, 1, 16, Code.valueRange, "vp.roll_xscale"⟩,
  ⟨0x4C2C, 1, 4, 0x03, .rw, 2560, .commit, (-32768), 32767, Code.valueRange, "vp.roll_top"⟩,
  ⟨0x4C2D, 1, 4, 0x06, .rw, 64, .commit, 1, 4096, Code.valueRange, "vp.roll_step"⟩,
  ⟨0x4C2E, 1, 4, 0x05, .rw, 0, .commit, 0, 3, Code.valueRange, "vp.roll_palette"⟩,
  ⟨0x4C2F, 1, 4, 0x06, .rw, 1, .commit, 1, 65535, Code.valueRange, "vp.roll_every"⟩,
  ⟨0x4C30, 1, 4, 0x19, .ro, 0, .never, 0, 281474976710655, Code.valueRange, "vp.commit_seq"⟩,
  ⟨0x4C31, 1, 4, 0x19, .ro, 0, .never, 0, 281474976710655, Code.valueRange, "vp.commit_frame"⟩,
  ⟨0x4C32, 1, 4, 0x19, .ro, 0, .never, 0, 281474976710655, Code.valueRange, "vp.roll_lines"⟩,
  ⟨0x4C33, 1, 4, 0x19, .ro, 0, .never, 0, 281474976710655, Code.valueRange, "vp.roll_lost"⟩,
  ⟨0x4C34, 1, 4, 0x05, .ro, 255, .never, 0, 255, Code.valueRange, "vp.layer_claim"⟩,
  ⟨0x4C40, 0, 0, 0x06, .rw, 0, .now, 1, 4096, Code.valueRange, "vp.alloc_width"⟩]

/-- Entries 0x4Cxx, part 2. -/
def rows4C_2 : List Entry := [
  ⟨0x4C41, 0, 0, 0x06, .rw, 0, .now, 1, 4096, Code.valueRange, "vp.alloc_height"⟩,
  ⟨0x4C42, 0, 0, 0x05, .rw, 1, .now, 0, 255, Code.valueRange, "vp.alloc_format"⟩,
  ⟨0x4C43, 0, 0, 0x05, .wo, 0, .now, 1, 2, Code.valueRange, "vp.alloc_cmd"⟩,
  ⟨0x4C44, 0, 0, 0x07, .rw, 4294967295, .now, 0, 4294967295, Code.valueRange, "vp.alloc_handle"⟩,
  ⟨0x4C48, 1, 64, 0x05, .ro, 0, .never, 0, 255, Code.valueRange, "vp.handle_state"⟩,
  ⟨0x4C49, 1, 64, 0x07, .ro, 4294967295, .never, 0, 4294967295, Code.valueRange, "vp.handle_id"⟩,
  ⟨0x4C4A, 1, 64, 0x19, .ro, 0, .never, 0, 281474976710655, Code.valueRange, "vp.handle_addr"⟩,
  ⟨0x4C4B, 1, 64, 0x19, .ro, 0, .never, 0, 281474976710655, Code.valueRange, "vp.handle_geom"⟩,
  ⟨0x4C50, 0, 0, 0x07, .ro, 0, .never, 0, 4294967295, Code.valueRange, "vp.pool_free"⟩,
  ⟨0x4C60, 0, 0, 0x05, .rw, 0, .now, 0, 3, Code.valueRange, "vp.pal_sel"⟩,
  ⟨0x4C61, 1, 256, 0x07, .rw, 0, .commit, 0, 4294967295, Code.valueRange, "vp.pal_entry"⟩,
  ⟨0x4C62, 0, 0, 0x06, .rw, 0, .now, 0, 16383, Code.valueRange, "vp.cursor_index"⟩,
  ⟨0x4C63, 0, 0, 0x07, .wo, 0, .commit, 0, 4294967295, Code.valueRange, "vp.cursor_pixel"⟩]

/-- The entries of indices 0x4C00 to 0x4CFF. -/
def rows4C : List Entry := rows4C_0 ++ rows4C_1 ++ rows4C_2

/-- Entries 0x50xx, part 0. -/
def rows50_0 : List Entry := [
  ⟨0x5000, 0, 0, 0x07, .rw, 3072, .now, 0, 4294967295, Code.valueRange, "ctr.event_sel"⟩,
  ⟨0x5001, 0, 0, 0x19, .ro, 0, .never, 0, 281474976710655, Code.valueRange, "ctr.value"⟩,
  ⟨0x5002, 0, 0, 0x05, .rw, 0, .now, 0, 255, Code.valueRange, "ctr.flags"⟩,
  ⟨0x5003, 0, 0, 0x06, .ro, 0, .never, 0, 65535, Code.valueRange, "ctr.wrap_summary"⟩,
  ⟨0x5010, 0, 0, 0x05, .rw, 0, .tick, 0, 1, Code.valueRange, "ctr.freeze"⟩,
  ⟨0x5011, 0, 0, 0x05, .rw, 0, .now, 0, 1, Code.valueRange, "ctr.freeze_src"⟩,
  ⟨0x5012, 0, 0, 0x05, .rw, 0, .now, 0, 15, Code.valueRange, "ctr.freeze_chain"⟩,
  ⟨0x5013, 1, 2, 0x19, .ro, 0, .never, 0, 281474976710655, Code.valueRange, "ctr.freeze_time"⟩,
  ⟨0x5014, 0, 0, 0x05, .ro, 0, .never, 0, 255, Code.valueRange, "ctr.freeze_state"⟩,
  ⟨0x5020, 0, 0, 0x05, .wo, 0, .tick, 1, 1, Code.valueRange, "ctr.snap_cmd"⟩,
  ⟨0x5021, 0, 0, 0x19, .rw, 0, .now, 0, 281474976710655, Code.valueRange, "ctr.snap_period"⟩,
  ⟨0x5022, 0, 0, 0x05, .rw, 255, .now, 0, 255, Code.valueRange, "ctr.snap_chain"⟩,
  ⟨0x5023, 0, 0, 0x07, .rw, 4294967295, .cut, 0, 4294967295, Code.valueRange, "ctr.snap_ring"⟩,
  ⟨0x5024, 0, 0, 0x19, .ro, 0, .never, 0, 281474976710655, Code.valueRange, "ctr.snap_value"⟩,
  ⟨0x5025, 1, 2, 0x19, .ro, 0, .never, 0, 281474976710655, Code.valueRange, "ctr.snap_time"⟩,
  ⟨0x5026, 0, 0, 0x19, .ro, 0, .never, 0, 281474976710655, Code.valueRange, "ctr.snap_seq"⟩,
  ⟨0x5027, 0, 0, 0x19, .ro, 0, .never, 0, 281474976710655, Code.valueRange, "ctr.snap_skipped"⟩,
  ⟨0x5030, 1, 16, 0x07, .rw, 3072, .cut, 0, 4294967295, Code.valueRange, "ctr.smp_event"⟩,
  ⟨0x5031, 1, 16, 0x19, .rw, 1000000, .cut, 1000, 140737488355328, Code.valueRange, "ctr.smp_period"⟩,
  ⟨0x5032, 1, 16, 0x05, .rw, 0, .cut, 0, 1, Code.valueRange, "ctr.smp_enable"⟩]

/-- Entries 0x50xx, part 1. -/
def rows50_1 : List Entry := [
  ⟨0x5033, 1, 16, 0x19, .ro, 0, .never, 0, 281474976710655, Code.valueRange, "ctr.smp_fires"⟩,
  ⟨0x5034, 0, 0, 0x07, .rw, 4294967295, .cut, 0, 4294967295, Code.valueRange, "ctr.smp_ring"⟩,
  ⟨0x5035, 0, 0, 0x19, .ro, 0, .never, 0, 281474976710655, Code.valueRange, "ctr.records_lost"⟩]

/-- The entries of indices 0x5000 to 0x50FF. -/
def rows50 : List Entry := rows50_0 ++ rows50_1

/-- The entries whose index has a given high byte. -/
def rowsOf (hb : Nat) : List Entry :=
  if hb = 0x10 then rows10
  else if hb = 0x16 then rows16
  else if hb = 0x1A then rows1A
  else if hb = 0x1C then rows1C
  else if hb = 0x20 then rows20
  else if hb = 0x21 then rows21
  else if hb = 0x22 then rows22
  else if hb = 0x23 then rows23
  else if hb = 0x24 then rows24
  else if hb = 0x26 then rows26
  else if hb = 0x28 then rows28
  else if hb = 0x30 then rows30
  else if hb = 0x34 then rows34
  else if hb = 0x38 then rows38
  else if hb = 0x3C then rows3C
  else if hb = 0x40 then rows40
  else if hb = 0x44 then rows44
  else if hb = 0x48 then rows48
  else if hb = 0x4C then rows4C
  else if hb = 0x50 then rows50
  else []

/-- Every entry, in ascending index and subindex. -/
def allRows : List Entry := rows10 ++ rows16 ++ rows1A ++ rows1C ++ rows20 ++ rows21 ++ rows22 ++ rows23 ++ rows24 ++ rows26 ++ rows28 ++ rows30 ++ rows34 ++ rows38 ++ rows3C ++ rows40 ++ rows44 ++ rows48 ++ rows4C ++ rows50

end Sys2Proof.Machine
end

