-- ==== Sys2Proof/Machine/State.lean ====
section
/-! DEFINITION. The state of the block as plain data, its faults and refusals, and the state after reset.

Every entry of the object dictionary lives in `dict`; the structures below hold the state that is no entry. -/

namespace Sys2Proof.Machine

/-- A record: slots of (16-bit tag, 48-bit value) (R10). -/
structure Rec where
  slots : List (Nat × Nat)
  /-- Payload bytes after the slots, as they lie in memory. -/
  payload : List Byte := []
  /-- The record came from another module (R386). -/
  remote : Bool := false
deriving DecidableEq, Repr

/-- Where a gap lies: a wide path, link, DDC, layer, plane, playback channel, hod write stream (R499), ring or reel. -/
inductive Origin where
  | wide (p : Nat)
  | link (q : Nat) | ddc (n : Nat) | layer (l : Nat) | plane (p : Nat) | playback (p : Nat)
  | stream (n : Nat) | ring (r : Nat) | reel (r : Nat)
deriving DecidableEq, Repr

/-- A gap (R297): where, unit (Table 11.5), first lost item, the instant after the last, items lost, index of the first
lost sample, cause (Table 11.6). -/
structure Gap where
  origin : Origin
  unit : Nat
  first : Nat
  until_ : Nat
  count : Nat
  index : Nat
  cause : Nat
deriving DecidableEq, Repr

/-- A complex sample as the pipeline carries it: Q1.23 parts, over-range bits, CRC flag, UNSETTLED, TRUNCATED, SAT (R93, R95, R105, R120). -/
structure Sample where
  i : Int
  q : Int
  ovr : Nat := 0
  crc : Bool := false
  unsettled : Bool := false
  truncated : Bool := false
  sat : Bool := false
  /-- Why it is UNSETTLED or TRUNCATED (the causes of Table 5.5), and the envelope that goes with a DDC's output (R127). -/
  settle : Nat := 0
  env : Nat := 0
deriving DecidableEq, Repr

/-- A sample at its position in a take, capture stream or reel: I, Q, flags (bit 0 OVR, 1 CRC, 2 SAT, 3 UNSETTLED or TRUNCATED; bits 4 to 7
the cause of a gap, 0 none; bits 8 to 11 the cause of a settle run). -/
abbrev TakeSample := Int × Int × Nat

/-- A write held in a staged or committed set: entry, subindex, instance, value. -/
structure SWrite where
  ix : Nat
  sub : Nat
  inst : Nat
  value : Int
deriving DecidableEq, Repr

/-- Events that the spec names and gives no record layout, with their instants. -/
inductive Happening where
  /-- RUSHES_READY (Table 3.1). -/
  | rushesReady
  /-- CHANGEOVER (Table 3.1). -/
  | changeover
  /-- A degradation event (R39): the island it degrades, and the change to its configuration. -/
  | degradation (isl : Nat) (change : List SWrite)
  /-- The restart event of a Supervisor restart (Table 1.11). -/
  | restart
  /-- A standby instance engaged or failed (Table 1.11). -/
  | standby (isl inst : Nat) (engaged : Bool)
  /-- A lane-fault event of a converter lane (Table 1.11). -/
  | laneFault (lane : Nat)
  /-- A link-down event: 0 host, 1 ring port, 2 root port (Table 1.11, Table 3.5). -/
  | linkDown (kind unit : Nat)
deriving DecidableEq, Repr

/-- What the islands have produced and nothing has consumed yet. -/
structure Outputs where
  /-- Records on their way to the hod buffer (R24), oldest first: ring, record. -/
  outbox : List (Nat × Rec) := []
  /-- Records that have left it, and takes, which only refer to their data, on their way to a ring's backlog (R294, R299). -/
  arrived : List (Nat × Rec) := []
  /-- Event records of islands whose chapter gives them no event ring: island, record. -/
  events : List (Nat × Rec) := []
  /-- Events without a layout: TIME96, event. -/
  happenings : List (Nat × Happening) := []
  /-- Gaps recorded, touching ones of one origin merged (R298), newest first. -/
  gaps : List Gap := []
  /-- Event sequence of each island, by island number (0x10 + island: a second sequence). -/
  seqs : Tab Nat := []
deriving DecidableEq, Repr

/-- Why a cut exists (R30). -/
inductive CutKind where
  | user | changeover | governor | calibration | repointOut | repointIn | shedding | degradation | restore | disable
deriving DecidableEq, Repr

/-- A committed cut (R28, R29). -/
structure Cut where
  kind : CutKind := .user
  /-- The set it carries. -/
  writes : List SWrite := []
  /-- The instant T, in TIME96. -/
  due : Nat := 0
  /-- Whether T was given in `mod.cut_at`. -/
  explicit : Bool := false
  /-- The path that committed it; 4 is the engine. -/
  path : Nat := 4
  /-- When the commit write was observed. -/
  observed : Nat := 0
  /-- Whether the commit point has passed, and when (R29, R496). -/
  distributed : Bool := false
  known : Nat := 0
  /-- The value of the cut sequence it took. -/
  seq : Nat := 0
  /-- Islands that have applied it so far, and the units that have where each has a boundary of its own: island, instance (R129, R159, R225). -/
  applied : List Nat := []
  units : List (Nat × Nat) := []
  /-- Island and instance a repointing cut concerns. -/
  isl : Nat := 0
  inst : Nat := 0xFF
  /-- Samples suspended, for slot 4 of the record. -/
  suspended : Nat := 0
deriving DecidableEq, Repr

/-- The cut machinery of R28 to R33. -/
structure CutSt where
  /-- The open staged set, in the order of its writes. -/
  staged : List SWrite := []
  /-- The user cut that is committed and not yet applied everywhere (R32). -/
  user : Option Cut := none
  /-- Engine cuts not yet applied, oldest first. -/
  engine : List Cut := []
  /-- The value of the cut sequence taken last. -/
  seqTaken : Nat := 0
  /-- Configuration writes to islands that are off or withheld, oldest first (R77, R405). -/
  shadow : List SWrite := []
deriving DecidableEq, Repr

/-- Supply, reset, thermal and bypass state of chapter 2. -/
structure HwSt where
  auxIn : Bool := false
  auxSince : Nat := 0
  auxQualified : Bool := false
  /-- 12 V lies between the brown-out and the overvoltage threshold (R51, R54). -/
  v12Good : Bool := false
  /-- 12 V came before AUX was qualified: regulators held off (R53). -/
  v12Early : Bool := false
  /-- 12 V regulators running. -/
  regulators : Bool := false
  railFailed : Bool := false
  pwrGood : Bool := false
  /-- The instant P of the last rise of PWR_GOOD (R70). -/
  pRise : Nat := 0
  /-- A power-loss entry is still to be written (R55). -/
  lossPending : Bool := false
  /-- The flag in flash of R55. -/
  lossFlag : Bool := false
  /-- The flag was found set when AUX came up (R55). -/
  lossFound : Bool := false
  trip : Bool := false
  throttling : Bool := false
  inletOver : Bool := false
  /-- A start held while the die reads 90 °C or above (R61). -/
  startHeld : Bool := false
  resetLow : Bool := false
  /-- A reset written to `mod.reset`, awaiting the restart 10 ms later (R72). -/
  resetWritten : Option Nat := none
  /-- THERM_N driven low. -/
  thermLow : Bool := false
  /-- PERST_N is low. -/
  perstLow : Bool := true
  /-- MEMS arrays: driven, by dimension (0 course, 1 perpend). -/
  driven : Tab Bool := []
  /-- MEMS arrays: when the present transition began. -/
  moving : Tab Nat := []
  /-- Codes the trim outputs drive (R59): zero until the stored trims are loaded. -/
  trimOut : Tab Nat := []
deriving DecidableEq, Repr

/-- One firmware image of flash (R73), with what its manifest says (R489). -/
structure Image where
  version : Nat := 0
  length : Nat := 0
  /-- Islands whose running microcode the image does not accept. -/
  requires : Nat := 0
deriving DecidableEq, Repr

/-- Boot, bring-up and changeover (chapter 3). -/
structure BootSt where
  images : Tab Image := []
  /-- The image confirmed last (1 A, 2 B): what `mod.boot_select` = 0 names where both are confirmed. -/
  preferred : Nat := 1
  /-- `mod.memtest`, `mod.boot_select` and `cf.auto_join` as the last restart took them. -/
  memtest : Nat := 0
  select : Nat := 0
  autoJoin : Nat := 1
  /-- When the image now running, if a trial image, was started. -/
  trialSince : Option Nat := none
  /-- Bring-up steps completed, and failed (Table 3.3, by number). -/
  done : List Nat := []
  failed : List Nat := []
  /-- An automatic join has been started, or withheld, since the start of rushes service (R372, R373). -/
  autoDone : Bool := false
  /-- Ring ports found dark or settled for link discovery (R80). -/
  dark : List Nat := []
  /-- The instant T of the changeover gap while it is open (R83). -/
  gapOpen : Option Nat := none
  /-- When each dimension was last inserted (R80). -/
  inserted : Tab Nat := []
deriving DecidableEq, Repr

/-- What Intake keeps for a link beside its entries (chapter 4). -/
structure LinkSt where
  /-- When the present state was entered. -/
  entered : Nat := 0
  /-- LINK_NO_LOCK, SYSREF_ABSENT, SYSREF_PERIOD already raised for the present state. -/
  noLockRaised : Bool := false
  absentRaised : Bool := false
  periodRaised : Bool := false
  /-- The 3.2 GHz sample of the SYSREF edge the multiblock clock was set from; it runs through faults (R97). -/
  clock : Option Nat := none
  /-- The SYSREF grid has been moved by a time step since the clock was set (R97). -/
  gridMoved : Bool := false
  /-- The last SYSREF edge the link has seen, in 3.2 GHz samples (R96). -/
  lastEdge : Option Nat := none
  /-- When the last lane of the link ended its calibration (R100). -/
  calAt : Nat := 0
  /-- Release margin and rate checked since the last alignment (R94, R98). -/
  checked : Bool := false
  /-- TIME96 of the first sample after alignment, and the index of the next sample (R99). -/
  anchor : Option Nat := none
  index : Nat := 0
  /-- The open gap: TIME96 of its first sample, and its cause. -/
  gapFirst : Option (Nat × Nat) := none
  /-- CRC flag or discard that waits for the next release (R105). -/
  crcFlag : Bool := false
  crcDrop : Bool := false
  /-- The block released last: its stamp and samples. -/
  stamp : Nat := 0
  block : List Sample := []
deriving DecidableEq, Repr

/-- What Intake keeps for a physical lane, numbered 16 × port + lane. -/
structure LaneSt where
  calFailed : Bool := false
  /-- Multiblocks of the last CRC-12 errors, newest first (Table 4.4). -/
  crcAt : List Nat := []
  /-- Its bits of Table 4.6, and its last arrival: the entries show them under the logical lane that names it (R106). -/
  status : Nat := 0
  arrival : Nat := 0
  /-- Blocks of the last invalid sync headers, newest first (Table 4.4). -/
  badAt : List Nat := []
  /-- The last 58 bits received, newest lowest, and the octet that ended the last frame: what descrambling and character replacement
  need of what came before (R91). -/
  scr : Nat := 0
  lastOctet : Nat := 0
deriving DecidableEq, Repr

/-- The words of a crossing between two islands (R17): presented by the producer, and acknowledged by the consumer but still within its
reach; each word is a sample under its index. -/
structure Crossing where
  asked : List (Nat × Sample) := []
  taken : List (Nat × Sample) := []
deriving DecidableEq, Repr

/-- Intake. -/
structure ItkSt where
  links : Tab LinkSt := []
  lanes : Tab LaneSt := []
deriving DecidableEq, Repr

/-- A run of outputs flagged UNSETTLED or TRUNCATED (R123): cause of Table 5.5, the instants it reaches from and to, its first flagged
output, how many have been flagged. -/
structure Run where
  cause : Nat
  from_ : Nat
  until_ : Nat
  first : Nat := 0
  count : Nat := 0
deriving DecidableEq, Repr

/-- What the Channeliser keeps for a DDC beside its entries (chapter 5). -/
structure DdcSt where
  /-- Phase of the oscillator at an input index (R114, R115): index, phase. -/
  phaseIx : Nat := 0
  phase : Nat := 0
  /-- The oscillator that mixes input before an index: the index, its phase there, its FTW (R115). -/
  mixFrom : Nat := 0
  mixPhase : Nat := 0
  mixFtw : Int := 0
  /-- Index n_e of the next output (R120); none before the first start. -/
  next : Option Nat := none
  /-- The chain started at this instant and at this input index (R122). -/
  startAt : Nat := 0
  startIx : Nat := 0
  /-- Changes whose outputs are flagged, and the run of flagged outputs that is open (R122, R123). -/
  runs : List Run := []
  run : Option Run := none
  /-- The old chain drains from this instant B, with the settings it runs with, its next output, and its run of TRUNCATED outputs (R122). -/
  drain : Option Nat := none
  old : List SWrite := []
  oldNext : Option Nat := none
  oldRun : Option Run := none
  /-- The open gap of the output: first instant, cause; and how it ends: cause of the settle record, and how many input samples beyond
  its end are unsettled. -/
  gapFirst : Option (Nat × Nat) := none
  gapRun : Nat × Nat := (5, 0)
  /-- The detector window that is open: its number on the grid of R126, and what it has counted. -/
  wIx : Option Nat := none
  wFirst : Nat := 0
  wCount : Nat := 0
  wPeak : Nat := 0
  wSum : Nat := 0
  wOvr : Nat := 0
  wSat : Nat := 0
  wFlagged : Bool := false
  wGap : Bool := false
  wPartial : Bool := true
  wSeq : Nat := 0
  /-- Envelope e, Q2.46 (R127). -/
  env : Nat := 0
  /-- Failed (R132); stopped with no standby (R133); tested and about to rejoin (Table 5.8). -/
  failed : Bool := false
  stopped : Bool := false
  rejoin : Bool := false
  satRaised : Option Nat := none
  /-- The output released last. -/
  stamp : Nat := 0
  out : Sample := { i := 0, q := 0 }
deriving DecidableEq, Repr

/-- A real-to-complex section (R112, R134). -/
structure R2cSt where
  /-- Instants of its last failures. -/
  fails : List Nat := []
  heldDown : Bool := false
  /-- Its first outputs from the one instant to the other are UNSETTLED on the wide path, for a cause of Table 5.5 (R130, R134). -/
  unsettled : Nat × Nat × Nat := (0, 0, 0)
  /-- The gap of the wide path that is open: TIME96 of its first sample, cause. -/
  gapFirst : Option (Nat × Nat) := none
deriving DecidableEq, Repr

/-- The Channeliser. -/
structure ChnSt where
  ddcs : Tab DdcSt := []
  /-- Sections by link; 0x40 + p: the one reserved for playback channel p; 0x80 + p: wide path p. -/
  sections : Tab R2cSt := []
  /-- The crossings into the Channeliser by source code (Table 5.1): samples of links and playback channels by their index since the
  epoch. -/
  input : Tab Crossing := []
  /-- The crossings of the DDCs' outputs into the Spectral Engine and the Trigger Unit, by DDC: outputs by their index n_e (R17). -/
  output : Tab Crossing := []
  /-- What crossed of them while their source had another rate (R159). -/
  outputOld : Tab Crossing := []
  /-- Rate in mHz of each playback channel that runs, and whether its recording is real (R112). -/
  pbRate : Tab Nat := []
  pbReal : Tab Bool := []
  /-- The standby's shadow has settled (R135). -/
  shadow : Bool := false
deriving DecidableEq, Repr

/-- An open trace (R152, R153): first frame, frames combined, points so far, complex points, flags as in header slot 5, largest exponent, the
points that hold a saturated bin; record format, ring and point range as they stood when it started (Table 6.7). -/
structure TraceSt where
  first : Option Nat := none
  frames : Nat := 0
  points : List Nat := []
  cplx : List (Int × Int) := []
  flags : Nat := 0
  exp : Nat := 0
  satPts : List Nat := []
  format : Nat := 0
  ring : Nat := 0xFFFFFFFF
  recFirst : Nat := 0
  recCount : Nat := 0
deriving DecidableEq, Repr

/-- What the Spectral Engine keeps for a layer beside its entries (chapter 6). -/
structure LayerSt where
  /-- Index m of the next frame expected, and of the first frame of the present grid (R153). -/
  next : Option Nat := none
  start : Nat := 0
  trace : TraceSt := {}
  /-- Frames that start before this T are computed under the setting before the cut: the setting, the next of them, and the trace that a
  change of grid or detector closes (R159). -/
  oldUntil : Option Nat := none
  old : List SWrite := []
  oldNext : Option Nat := none
  oldTrace : Option TraceSt := none
  /-- Frames of a stopped layer drain from this T (R159). -/
  drain : Option Nat := none
  satRaised : Option Nat := none
  /-- Coefficients that the user table in force holds (R146). -/
  userCount : Nat := 0
deriving DecidableEq, Repr

/-- The Spectral Engine. -/
structure SpeSt where
  layers : Tab LayerSt := []
  /-- Cores that failed, and those of them that passed their test and are about to rejoin (R163). -/
  coreFailed : List Nat := []
  coreRejoin : List Nat := []
  /-- Frames of a core's share are lost until this instant (R163). -/
  shareLost : Tab Nat := []
deriving DecidableEq, Repr

/-- What a condition keeps beside its entries (R171 to R175). A crossing is placed in 1/256 of a source sample period. -/
structure CondSt where
  /-- The quantity has been below (above) the level less (plus) the hysteresis since its last upward (downward) crossing. -/
  upA : Bool := false
  dnA : Bool := false
  upB : Bool := false
  dnB : Bool := false
  /-- The leading crossing of level a, upward and downward, and whether level b was crossed since. -/
  ledUp : Option Nat := none
  ledDn : Option Nat := none
  bUp : Bool := false
  bDn : Bool := false
  /-- A pending timeout: placement of its deadline, and its event time (R172); whether an upward crossing leads it; the direction of one that
  restarts at the first sample present again (R173). -/
  limit : Option (Nat × Nat) := none
  limitUp : Bool := true
  again : Option Bool := none
  /-- Number of the sample examined last. -/
  seen : Option Nat := none
  /-- Events before this boundary are judged under this setting (R204). -/
  before : Option (Nat × List SWrite) := none
  /-- Samples seen since the last that carried OVR, at most 16. -/
  clean : Nat := 0
  /-- Island clock of the last event (R174). -/
  clock : Option Nat := none
  /-- Leading edge of a pulse on a pin. -/
  edge : Option Nat := none
deriving DecidableEq, Repr

/-- An event that waits at the sequencer: condition, event time, instant at which it is due; whether its mask stopped in mode 2 (R182). -/
structure QEvent where
  cond : Nat
  time : Nat
  due : Nat
  disarms : Bool := false
deriving DecidableEq, Repr

/-- The setting of a chain (R188). Stages: set, mode, count, window (ps), limit to the next stage (ps). -/
structure ChainCfg where
  order : Nat
  holdoff : Nat
  resetSet : Nat
  stages : List (Nat × Nat × Nat × Nat × Nat)
deriving DecidableEq, Repr

/-- A chain of the sequencer (R188). -/
structure ChainSt where
  stage : Nat := 0
  entered : Nat := 0
  limit : Nat := 0
  deadline : Nat := 0
  /-- Last event of each condition of the present stage (mode all); event times of the present stage (mode count). -/
  last : Tab Nat := []
  times : List Nat := []
  holdUntil : Nat := 0
  queue : List QEvent := []
  /-- Events before this boundary are judged under this setting (R204). -/
  before : Option (Nat × ChainCfg) := none
deriving DecidableEq, Repr

/-- A mask beside its entries (R181 to R183, R206). -/
structure MaskSt where
  /-- A restarted mask tests frames from this boundary on (R182). -/
  from_ : Nat := 0
  lastFailed : Bool := false
  logged : Option Nat := none
  suspended : Nat := 0
  was : Nat := 1
  /-- Frames centred before this boundary meet this setting (R204). -/
  before : Option (Nat × List SWrite) := none
deriving DecidableEq, Repr

/-- A TOUT: pulses to come (start instants), and when the pulse in progress ends (R190). -/
structure ToutSt where
  pulses : List Nat := []
  ends : Nat := 0
deriving DecidableEq, Repr

/-- A take (R194 to R202). Sample positions count on the channel grid from the epoch. -/
structure Take where
  index : Nat
  seq : Nat
  chain : Nat
  cond : Nat
  forced : Bool
  /-- Event time of the fire, grid number of the trigger sample and of the slot's first sample, P, V, Q. -/
  time : Nat
  trig : Nat
  start : Nat
  pre : Nat
  valid : Nat
  post : Nat
  /-- Grid number after the last sample where a disarm closed the take (PARTIAL). -/
  cutAt : Option Nat := none
  /-- Whether the take goes to the spill reel whole (R197). -/
  spilled : Bool := false
  /-- Its log entry has been written into the hod buffer: slate, trailer, and whether it closed PARTIAL (R199). -/
  logged : Option (Rec × List Rec × Bool) := none
  complete : Bool := false
  /-- While the take lies in take memory: its bytes by offset in the slot, and its log entry (R205). -/
  chunks : List (Nat × List Byte) := []
  log : List Byte := []
deriving DecidableEq, Repr

/-- A magazine beside its entries (R191 to R199). -/
structure MagSt where
  armAt : Nat := 0
  /-- Grid number of the slot's first sample. -/
  slotStart : Nat := 0
  next : Nat := 0
  takes : List Take := []
  /-- The take open in its post-trigger phase. -/
  open_ : Option Take := none
  /-- Disarm when the open take completes (R182). -/
  disarm : Bool := false
  /-- Time of the last take's last sample (R195). -/
  lastEnd : Option Nat := none
  /-- Lost words of the history: first grid number, samples (R206). -/
  bad : List (Nat × Nat) := []
  /-- Bytes taken from take memory. -/
  history : Nat := 0
  armed : Bool := false
  /-- Whether the history lies in the slot, and the chain's horizon in samples, from the arm on (R192, R193, R205). -/
  inSlot : Bool := false
  ahead : Nat := 0
  /-- Grid number of the next position to be written, and the positions written, newest first: grid number, sample of each channel. -/
  at_ : Nat := 0
  hist : List (Nat × List TakeSample) := []
deriving DecidableEq, Repr

/-- A take, or the part of one, that continues on a reel (R197): reel, slate, trailer records, index in the take of its first sample, samples
of each channel. -/
structure Spill where
  reel : Nat
  slate : Rec
  trailer : List Rec
  first : Nat
  samples : List (List TakeSample)
deriving DecidableEq, Repr

/-- The Trigger Unit (chapter 7). -/
structure TrgSt where
  conds : Tab CondSt := []
  chains : Tab ChainSt := []
  masks : Tab MaskSt := []
  touts : Tab ToutSt := []
  mags : Tab MagSt := []
  /-- Instances that are suspended, until an instant, 0 for until a cut (R207): instance, (since, until). -/
  suspended : Tab (Nat × Nat) := []
  /-- Take continuations bound for a reel (R197). -/
  spills : List Spill := []
deriving DecidableEq, Repr

/-- A density threshold in the present plane frame (R223). -/
structure ThrSt where
  hits : Nat := 0
  fired : Bool := false
deriving DecidableEq, Repr

/-- A plane (R210 to R228). Cells are keyed row × W + column. -/
structure PlaneSt where
  active : Tab Nat := []
  settled : Tab Nat := []
  /-- Start of the running plane frame, once it has begun. -/
  start : Option Nat := none
  /-- Of the running plane frame: frames counted, skipped, lost, hits, clipped hits, cells saturated, flags as in slot 13. -/
  counted : Nat := 0
  skipped : Nat := 0
  lost : Nat := 0
  hits : Nat := 0
  clipped : Nat := 0
  satCells : List Nat := []
  flags : Nat := 0
  /-- Plane frames since the last export. -/
  sinceExport : Nat := 0
  /-- Closing values of the settled plane frame: start, counted, skipped, lost, hits, clipped, saturated, flags. -/
  closed : List Nat := []
  /-- The setting they were made under: W, R, k, hit mode, clip, s, k_first, layer, row step, top, format, map_full, descending. -/
  setting : List Nat := []
  exportDue : Bool := false
  /-- The handle committed last: 0 a, 1 b; whether a row of the export on its way to the Viewport was lost (R222). -/
  lastHandle : Nat := 1
  rowLost : Bool := false
  resetUntil : Nat := 0
  suspended : Bool := false
  satRaised : Option Nat := none
  /-- Whether the buffers were cleared, and a word of them zeroed, since the last export. -/
  cleared : Bool := true
  zeroed : Bool := false
  /-- Frames before this boundary meet this setting (R225). -/
  before : Option (Nat × List SWrite) := none
deriving DecidableEq, Repr

/-- The Density Engine (chapter 8). -/
structure DenSt where
  planes : Tab PlaneSt := []
  thrs : Tab ThrSt := []
deriving DecidableEq, Repr

/-- A frame buffer of the pool (R240 to R242): offset in the pool, size, width, height, format, stride. -/
structure HandleSt where
  offset : Nat
  size : Nat
  width : Nat
  height : Nat
  format : Nat
  stride : Nat
  /-- Last frame that scanned it. -/
  lastScan : Nat := 0
deriving DecidableEq, Repr

/-- A roll ring (R245 to R247): traces met, line written last (counted from the first), head fixed at the last latch, valid lines. -/
structure RollSt where
  traces : Nat := 0
  newest : Nat := 0
  /-- Number of the newest line whose write has committed. -/
  done : Nat := 0
  head : Nat := 0
  valid : List Nat := []
deriving DecidableEq, Repr

/-- The Viewport (chapter 9). -/
structure VpSt where
  /-- The Viewport's own staged set, and the committed parts that wait for a latch point: part (0 to 3 layers, 4 palettes, 5 cursor), writes. -/
  staged : List SWrite := []
  committed : List (Nat × List SWrite) := []
  palSeq : Nat := 0
  cursorSeq : Nat := 0
  /-- The latch point of the frame being scanned has passed; no frame has begun yet. -/
  latched : Bool := true
  handles : Tab HandleSt := []
  generations : Tab Nat := []
  freeing : List Nat := []
  rolls : Tab RollSt := []
  plugged : Bool := false
  /-- The sink: highest link rate (1 to 4), lanes, preferred row of Table 9.1, rows its EDID lists. -/
  sinkRate : Nat := 0
  sinkLanes : Nat := 0
  preferred : Nat := 0
  listed : List Nat := []
  /-- The training attempt: mode, rate, lanes, bits per component. -/
  attempt : Option (Nat × Nat × Nat × Nat) := none
  mismatches : Nat := 0
  /-- The CRCs of R, G and B that the composer's output of the last whole frame formed; none where that frame is not checked (R248). -/
  formed : Option (List Nat) := none
  underrunRaised : Option Nat := none
  composerUntil : Nat := 0
  suspended : Bool := false
  /-- Bytes of the pool while it lies in the hod buffer (R79, R251). -/
  rushPool : Tab Byte := []
  modeNow : Nat := 0
deriving DecidableEq, Repr

/-- An allocation of capture memory (R260): owner kind (codes of Table 1.13; 0x10 Viewport pool, 0x11 Viewport handle,
0x12 spool, 0x13 ring buffer, 0x14 image staging) and number, first stripe, stripes, map of channels it was made under
(R259), length in bytes of the object, whether it is mirrored (R261), whether it is holed (R280). -/
structure Alloc where
  kind : Nat
  num : Nat
  first : Nat
  stripes : Nat
  map : Nat
  length : Nat
  mirrored : Bool := false
  holed : Bool := false
deriving DecidableEq, Repr

/-- What becomes of an item of a write stream once the block with its last byte has left the hod buffer (R15, R24, Table 1.13). -/
inductive HodDest where
  /-- Samples of a capture stream from index j on (R263). -/
  | stream (cs j : Nat)
  /-- A position of a magazine: grid number, offset in its memory of each channel's sample (R200). -/
  | slot (mag n : Nat) (offs : List Nat)
  /-- A record of a take's log entry: offset in the take log (R201). -/
  | log (mag off : Nat)
  /-- The slate of a capture stream's log, and a record of it (R264). -/
  | csSlate (cs : Nat)
  | csLog (cs : Nat)
  /-- A record bound for a ring, and one that was lost on its way there (R294). -/
  | record (ring : Nat) (r : Rec)
  | loss (ring : Nat) (r : Rec)
  /-- A row of a plane export in the Viewport pool: offset, handle (0 or 1) and its identifier, whether it is the last (R222). -/
  | row (plane off which id : Nat) (last : Bool)
  /-- A roll line: Viewport layer, line, number of the line, offset in the pool (R246, R247). -/
  | line (layer line number off : Nat)
  /-- A position of a reel: index, sample of each channel (R310). -/
  | reel (r j : Nat) (samples : List TakeSample)
deriving DecidableEq, Repr

/-- An item of a write stream: where it goes, the instants it reaches from and to, its index, its bytes. -/
structure HodItem where
  dest : HodDest
  from_ : Nat
  until_ : Nat
  index : Nat
  bytes : List Byte
deriving DecidableEq, Repr

/-- A block of the hod buffer (R24): the items whose last byte lies in it, and how many bytes it holds. A block of no bytes carries the zeros
that the Capture Store writes for lost samples (R263). -/
structure HodBlock where
  items : List HodItem
  len : Nat
deriving DecidableEq, Repr

/-- A write stream of the hod buffer (R24, R26). -/
structure HodStream where
  /-- The block being filled: its items, its bytes, when the first was written. Of a stream that discards: bytes of the present block it would
  have filled. -/
  fill : List HodItem := []
  fillLen : Nat := 0
  fillAt : Nat := 0
  /-- Full blocks that wait to leave, oldest first. -/
  full : List HodBlock := []
  /-- The stream discards; it is to resume at its next block boundary. -/
  discarding : Bool := false
  resuming : Bool := false
  /-- The gap: first instant, last instant, items lost, index of the first, blocks discarded, the items' widths in bytes. -/
  lostFrom : Nat := 0
  lostTo : Nat := 0
  lostUnits : Nat := 0
  lostIndex : Nat := 0
  lostBlocks : Nat := 0
  lostBytes : Nat := 0
deriving DecidableEq, Repr

/-- A request at a sub-channel (R269): class (1 display read, 2 capture write, 3 access read, 4 access write, 5 maintenance), port,
capture address, rank, bank, row, when it arrived, when its data are needed (display reads: urgent from 4 line times before). -/
structure MemReq where
  cls : Nat
  port : Nat
  addr : Nat
  rank : Nat
  bank : Nat
  row : Nat
  arrived : Nat
  urgent : Nat
deriving DecidableEq, Repr

/-- A sub-channel: waiting requests, oldest first; open rows by 32 × rank + bank; the bank the write picker stands at and
the bursts it has issued there (R270); the request issued last. -/
structure SubSt where
  queue : List MemReq := []
  openRow : Tab Nat := []
  pickBank : Nat := 0
  burst : Nat := 0
  issued : Option MemReq := none
  /-- Refreshes waiting, by rank (R271), and neighbour refreshes waiting: bank key, row (R272). -/
  refreshes : List Nat := []
  neighbours : List (Nat × Nat) := []
deriving DecidableEq, Repr

/-- A migration of one rank to the channel's spare (R275, R276). -/
structure Migration where
  old : Nat
  spare : Nat
  cause : Nat
  lost : Nat := 0
  cursor : Nat := 0
  /-- Since when, and whether the opening stall has ended. -/
  since : Nat := 0
  stalled : Bool := true
deriving DecidableEq, Repr

/-- A capture stream beside its entries (R263 to R265). -/
structure CsSt where
  t0 : Nat := 0
  rate : Nat := 0
  fmt : Nat := 2
  src : Nat := 0
  mode : Nat := 0
  /-- Bytes of the log written after its slate. -/
  logPos : Nat := 0
  /-- Grid number of j = 0, the next index to be written, and the instant before which the last sample lies once the stream was stopped. -/
  n0 : Nat := 0
  next : Nat := 0
  stop : Option Nat := none
  /-- Open runs: gap (cause, first index, samples), settle run (cause, first index, samples), OVR, CRC and SAT (first index, last index). -/
  gapRun : Option (Nat × Nat × Nat) := none
  settleRun : Option (Nat × Nat × Nat) := none
  flagRuns : Tab (Nat × Nat) := []
deriving DecidableEq, Repr

/-- The Capture Store (chapter 10). -/
structure CapSt where
  allocs : List Alloc := []
  hod : Tab HodStream := []
  /-- Token buckets by port (R267). -/
  tokens : Tab Int := []
  /-- Number of the 1 µs boundary at which they gained last. -/
  refilled : Nat := 0
  subs : Tab SubSt := []
  /-- Rows and activate counts of each bank, by bank key (R272). -/
  rows : Tab (List (Nat × Nat)) := []
  rowsCleared : Nat := 0
  /-- Refresh: when the next is due and which bank index it takes, by 8 × channel + rank (R271). -/
  refreshDue : Tab Nat := []
  refreshBank : Tab Nat := []
  cool : Tab Nat := []
  hotRaised : Option Nat := none
  /-- Channels whose last MR4 read stood above 95 °C (R421). -/
  over95 : List Nat := []
  /-- Instants of corrected errors in the last 24 h, by 8 × channel + rank (R276). -/
  corrected : Tab (List Nat) := []
  /-- Bursts lost and not rewritten since (R274). -/
  lost : List Nat := []
  migrations : Tab Migration := []
  scrubbed : Tab Nat := []
  /-- The Capture Store serves nothing until this instant; occupancy when the last stall began, none once it has drained from it (R27). -/
  stallUntil : Nat := 0
  stallBegan : Nat := 0
  stallBase : Option Nat := none
  retiring : Option Nat := none
  /-- Voluntary stalls that wait (R27): kind (1 operating point, 3 rank switch), channel, value. -/
  waiting : List (Nat × Nat × Nat) := []
  /-- Channels whose retraining is due; the one that trains; instants and temperatures of the last trainings (R278). -/
  due : List Nat := []
  training : Option (Nat × Nat) := none
  trained : Tab Nat := []
  trainedAt : Tab Int := []
  /-- Items on their way to the hod buffer, oldest first: write stream, item (R15, R17). -/
  asked : List (Nat × HodItem) := []
  /-- Blocks held for a channel that retrains: channel, write stream, block (R278). -/
  deferred : List (Nat × Nat × HodBlock) := []
  streams : Tab CsSt := []
  idleSince : Nat := 0
  asleep : Bool := false
deriving DecidableEq, Repr

/-- What the Stream Engine posted to the host: slots of a ring at an address, a producer-index write-back, a message. -/
inductive Post where
  | slots (ring addr : Nat) (r : Rec)
  | index (ring addr pi : Nat)
  | message (vector addr data : Nat)
deriving DecidableEq, Repr

/-- A run of records a ring lost since its last gap marker: tag of its producer, unit, first item, count, cause, stream (R294). -/
structure Loss where
  tag : Nat
  unit : Nat
  first : Nat
  count : Nat
  cause : Nat
  stream : Nat
deriving DecidableEq, Repr

/-- A delivery ring beside its entries (R290 to R294, R315): records in the backlog, losses not yet marked, the state a link
loss found it in, indices at the last message and write-back, records and the oldest instant since the last message, bytes of
the backlog, whether that lies in queue memory, when a close gives up, and, for an annex or remote ring, the records written
and not yet consumed with their indices. -/
structure RingSt where
  backlog : List Rec := []
  losses : List Loss := []
  prev : Nat := 1
  piMsg : Nat := 0
  piWb : Nat := 0
  since : Nat := 0
  oldest : Nat := 0
  limit : Nat := 0
  queueMem : Bool := false
  closeAt : Nat := 0
  written : List (Nat × Rec) := []
deriving DecidableEq, Repr

/-- A command at a drive: its number, the reel and, for a write, the unit it belongs to, the spool slot, bytes, when it was issued, and
whether it has been retried or aborted (R302, R303). -/
structure NvmeCmd where
  id : Nat
  /-- Opcode (Table 11.8) and the queue it was given to. -/
  op : Nat := 1
  queue : Nat := 0
  reel : Nat
  unit : Nat
  slot : Nat
  bytes : Nat
  issued : Nat
  retried : Bool := false
  aborted : Bool := false
deriving DecidableEq, Repr

/-- An NVMe drive beside its entries (R300 to R305): 4,096-byte LBAs, queue pairs and depth, volatile write cache, commands in flight, the
next number, when its attachment began. -/
structure DriveSt where
  lbas : Nat := 0
  queues : Nat := 0
  depth : Nat := 0
  cache : Bool := false
  /-- Bytes that one transfer may have at most; 0 no limit (R303). -/
  mdts : Nat := 0
  /-- The slots of its label and of each directory entry, as they stand on its namespace 1 (Table 11.9). -/
  label : List Nat := []
  dir : Tab (List Nat) := []
  cmds : List NvmeCmd := []
  nextId : Nat := 0
  inserted : Nat := 0
  /-- Write completions of the last second: instant, ns. -/
  lat : List (Nat × Nat) := []
deriving DecidableEq, Repr

/-- The volume (R306, Table 11.10): identifier, unit size in KiB, extent size, member tokens by position, root port of each present
member by position, and the directory generation. -/
structure VolSt where
  id : Nat := 0
  unitKib : Nat := 0
  extent : Nat := 0
  tokens : List Nat := []
  ports : Tab Nat := []
  generation : Nat := 0
  /-- Drive units of each position. -/
  units : Tab Nat := []
deriving DecidableEq, Repr

/-- An extent of a reel (R307): members by position, first drive unit, units held. -/
structure Extent where
  members : Nat
  first : Nat
  held : Nat
deriving DecidableEq, Repr

/-- A reel beside its entries (Table 11.11, R307 to R311): rate in mHz, its channel sources, format, extents, units written, index of
the next sample, spool slots it holds, when it discards for want of a slot (first lost instant, samples), the gap its next
unit opens with (count, cause), whether it ended under R307, take continuations that wait, and the generation of its entry. -/
structure ReelSt where
  rate : Nat := 0
  sources : List Nat := []
  format : Nat := 1
  mode : Nat := 0
  t0 : Nat := 0
  extents : List Extent := []
  units : Nat := 0
  next : Nat := 0
  starving : Option (Nat × Nat) := none
  gap : Option (Nat × Nat) := none
  ended : Bool := false
  closing : Bool := false
  /-- Take continuations that wait for units, and the index in the take of the first sample of the one being written; whether a unit of it
  has closed. -/
  takes : List Spill := []
  takeNext : Option Nat := none
  takeUnits : Bool := false
  /-- Grid number of j = 0, the next index to be written into the hod buffer, the instant before which the last sample lies once the reel was
  closed, the open spool slot, the positions that have reached it (index, sample of each channel), and those lost on the way (index,
  cause). -/
  n0 : Nat := 0
  ask : Nat := 0
  stop : Option Nat := none
  slot : Option Nat := none
  store : List (Nat × List TakeSample) := []
  holes : List (Nat × Nat) := []
  generation : Nat := 0
  /-- The write caches of its last extent's members have been told to flush at its close (R302). -/
  flushed : Bool := false
deriving DecidableEq, Repr

/-- A playback channel beside its entries (R312 to R314). -/
structure PbSt where
  t0 : Nat := 0
  /-- Index since the epoch of the pass's first sample (R313). -/
  ix : Nat := 0
  rate : Nat := 0
  width : Nat := 0
  pass : Nat := 0
  next : Nat := 0
  count : Nat := 0
  origin : Nat := 0
  /-- The boundary of a stop that was commanded. -/
  stop : Option Nat := none
  gapFirst : Option (Nat × Nat) := none
  stamp : Nat := 0
  out : Sample := { i := 0, q := 0 }
deriving DecidableEq, Repr

/-- The Stream Engine (chapter 11). The MSI-X table is keyed by 4 × vector + word. -/
structure StrSt where
  rings : Tab RingSt := []
  msix : Tab Nat := []
  msixPending : List Nat := []
  linkUp : Bool := false
  posts : List Post := []
  drives : Tab DriveSt := []
  volume : Option VolSt := none
  /-- Spool slots in use: slot, reel, unit. -/
  spool : List (Nat × Nat × Nat) := []
  reels : Tab ReelSt := []
  pbs : Tab PbSt := []
  suspended : Bool := false
  /-- The answer of the last BAR2 read (R289). -/
  bar2 : List Byte := []
  /-- Blocks of the read completion boundary whose completions were poisoned. -/
  bar2Poison : List Nat := []
  bar2Unsupported : Bool := false
deriving DecidableEq, Repr

/-- Nominal clock of each island in kHz, by island number less one (Table 1.1). -/
def nominalKHz : List Nat := [1600000, 1600000, 1600000, 1600000, 1600000, 800000, 1600000, 1000000, 800000, 800000, 1000000, 1200000]

/-- The clock of an island at an operating point, kHz (Table 16.5). -/
def pointKHz (isl point : Nat) : Nat :=
  let n := nominalKHz.getD (isl - 1) 0
  if point = 0 then n else if point = 1 then n * 3 / 4 else if point = 2 then n / 2 else 400000

/-- A hop-table entry (Table 12.2): valid, temperature in °C, frequency. Band, fine step and post-divider of the entries a
module leaves the factory with are given by no rule and read 0 (DESIGN CHOICE, log entry 12). -/
def hopWord (temp kHz postdiv band fine : Nat) : Nat :=
  2 ^ 63 + temp % 256 * 2 ^ 55 + postdiv % 8 * 2 ^ 52 + band % 256 * 2 ^ 44 + fine % 256 * 2 ^ 36 + kHz % 2 ^ 32

/-- Entries of a PLL for given frequencies, from entry 0 on. -/
def hopEntries (pll : Nat) (l : List Nat) : List (Nat × Nat) := l.zipIdx.map (fun p => (64 * pll + p.2, hopWord 50 p.1 0 0 0))

/-- The entries a module leaves the factory with: every operating point of every PLL that has them, at 50 °C (R323). -/
def factoryHops : List (Nat × Nat) :=
  ((List.range 12).map (fun i => hopEntries (i + 1) (([0, 1, 2, 3].map (pointKHz (i + 1))).dedup))).flatten ++ hopEntries 0x1A [3200000, 2400000, 1600000]

/-- A relock in progress (R322 to R326): target in kHz, when it began, the stored entry it started from, whether it was requested, and
targets that wait. -/
structure HopSt where
  target : Nat
  began : Nat
  entry : Option Nat
  requested : Bool
  queued : List Nat := []
deriving DecidableEq, Repr

/-- Timebase (chapter 12). -/
structure TbSt where
  /-- The counter runs; TIME96 is module time plus this offset, and the part of a slew already made (R332, R333). -/
  running : Bool := false
  offset : Int := 0
  /-- A slew: its correction in ps, and when it began (R336). -/
  slew : Option (Int × Nat) := none
  /-- A step that is decided: its correction in ps, and its cause (Table 12.7). -/
  step : Option (Int × Nat) := none
  /-- TIME96 of the tick that a step is made at, and whether a step notice named it (R336, R379). -/
  stepDue : Nat := 0
  notified : Bool := false
  /-- A time set that waits: command, SEC48, TIME96 at the write (R335). -/
  setSec : Option (Nat × Nat × Nat) := none
  /-- PPS or DC offsets averaged so far: sum in ps, samples (R334). -/
  sum : Int := 0
  samples : Nat := 0
  hops : Tab Nat := factoryHops
  hopsFlash : Tab Nat := factoryHops
  hopUsed : Tab Nat := []
  relocking : Tab HopSt := []
  /-- Islands held at 400 MHz until the next module start (R326). -/
  held : List Nat := []
  /-- SYSREF bursts to come, by port: index of the first edge in time-clock cycles, pulses (R338). -/
  bursts : Tab (List (Nat × Nat)) := []
  /-- AUXCLK and SYSREF outputs are held low, or stay off (R330, R339). -/
  gated : Bool := false
  /-- The loop has switched away from the preferred input (R329). -/
  away : Bool := false
deriving DecidableEq, Repr

/-- The setting a channel of the Interval Meter works with (R350, R358). -/
structure ImCfg where
  startSrc : Nat := 0
  startEdge : Nat := 0
  stopSrc : Nat := 0
  stopEdge : Nat := 0
  mode : Nat := 0
  signed : Bool := false
  winOpen : Nat := 0
  winClose : Nat := 2 ^ 48 - 1
  statN : Nat := 1000
  again : Bool := false
  ring : Nat := 0xFFFFFFFF
  logEach : Bool := false
  gateNs : Nat := 1000000
  stamps : Nat := 65536
  align : Nat := 0
deriving DecidableEq, Repr

/-- A frequency gate (R355, R356): its start in attoseconds of TIME96, length in ns, stamp ticks, steps made since, the tick stamped
last, stamps used, edges, the sums over the stamps (times in as from the gate's start, counts), and the result flags. -/
structure ImGate where
  g : Int
  ns : Nat
  ticks : Nat
  shift : Int := 0
  lastTick : Option Nat := none
  used : Nat := 0
  edges : Nat := 0
  st : Int := 0
  sc : Int := 0
  stt : Int := 0
  stc : Int := 0
  scc : Int := 0
  flags : Nat := 0
deriving DecidableEq, Repr

/-- A channel of the Interval Meter beside its entries (R351 to R358). Instants are in attoseconds of TIME96. -/
structure ImChan where
  cfg : ImCfg := {}
  seq : Nat := 0
  /-- When it was armed, and the earliest next start (R351). -/
  armed : Int := 0
  dead : Int := 0
  /-- The start taken, the span c2 − c1 of its calibration, the steps of time since, and flags so far (Table 13.4). -/
  start : Option Int := none
  span : Nat := 0
  shift : Int := 0
  flags : Nat := 0
  /-- Stop edges of the last 20 ns: instant, span, flags (R352). -/
  stops : List (Int × Nat × Nat) := []
  /-- The block: first start, measurements, sums, extremes, timeouts, flags (R354). -/
  first : Option Int := none
  n : Nat := 0
  sum : Int := 0
  sq : Nat := 0
  lo : Int := 0
  hi : Int := 0
  tmo : Nat := 0
  blockFlags : Nat := 0
  /-- The gate that runs, and gates whose frequency is still to be written. -/
  gate : Option ImGate := none
  gates : List ImGate := []
  /-- A disable drains since; a cut waits for a boundary since (R357, R358). -/
  drain : Option Nat := none
  cutAt : Option Nat := none
  /-- The next result is the first after a rejoin (R362). -/
  deferred : Bool := false
  /-- Instant of the last record written under `im.log_each` (R363). -/
  logged : Option Int := none
deriving DecidableEq, Repr

/-- An input site (R347, R348): the accepted calibrations by interpolator, failures in a row, interpolators taken out, the one that is
next in rotation, the edge stamped last, and the stamps of the last 64 edges, each with its edge (0 rising, 1 falling), newest first, as the
Trigger Unit takes them (R346). -/
structure ImSite where
  cals : Tab (Nat × Nat) := []
  fails : Tab Nat := []
  outs : List Nat := []
  next : Nat := 0
  last : Option Int := none
  recent : List (Nat × Nat) := []
deriving DecidableEq, Repr

/-- The Interval Meter (chapter 13). -/
structure ImSt where
  chans : Tab ImChan := []
  /-- Sites by their code (Table 13.1). -/
  sites : Tab ImSite := []
  suspended : Bool := false
deriving DecidableEq, Repr

/-- A packet of the Course Fabric (Table 14.2); its CRC and body length follow from it. -/
structure CfPkt where
  kind : Nat
  hops : Nat := 1
  origin : Nat
  dest : Nat := 0
  scope : Nat := 0
  ring : Nat := 0
  dir : Nat := 0
  seq : Nat := 0
  body : List Byte := []
deriving DecidableEq, Repr

/-- A module in the map (R374, R375): its topology sequence, state and neighbour of each port, keystone priority, whether it is leaving,
and the serial number its hello carried. -/
structure CfNode where
  seq : Nat := 0
  ports : List (Nat × Nat) := []
  prio : Nat := 0
  left : Bool := false
  serial : Nat := 0
deriving DecidableEq, Repr

/-- A slot as it left a port: its number since the start (625 to a superframe), its header, the packet it is of (R368, Table 14.1). -/
structure CfSlot where
  number : Nat
  header : Nat
  pkt : CfPkt
deriving DecidableEq, Repr

/-- A ring port beside its entries: hellos received and sent, service of the neighbour, departures of its last markers, and the last
arrival: sequence, TIME96 (R367, R377). -/
structure CfPort where
  /-- Packets that leave slot by slot, oldest first, with the slots each has left; the number of the slot to be filled next; data slots that the
  next module has space for, and those to be returned to it; reserved slots sent in a superframe: its number, how many (R369). -/
  ready : List (CfPkt × Nat) := []
  slot : Nat := 0
  credit : Nat := 0
  owed : Nat := 0
  reserved : Nat × Nat := (0, 0)
  line : List CfSlot := []
  helloRx : Nat := 0
  helloTx : Option Nat := none
  service : Nat := 0
  departed : List (Nat × Nat) := []
  arrived : Option (Nat × Nat) := none
deriving DecidableEq, Repr

/-- A fire that waits to leave (R382): scope, identifier, event time, when it was decided, sequence, fires dropped just before it. -/
structure CfFire where
  scope : Nat
  ident : Nat
  time : Nat
  decided : Nat
  seq : Nat
  dropped : Nat
deriving DecidableEq, Repr

/-- A data packet not yet acknowledged (R387): when it was sent, and the ring and index that its acknowledgement frees. -/
structure CfSeg where
  pkt : CfPkt
  sent : Nat
  frees : Option (Nat × Nat) := none
deriving DecidableEq, Repr

/-- What the module sends to another: next sequence, what is not acknowledged, since when it is unreachable (R386, R387). -/
structure CfTx where
  next : Nat := 0
  unacked : List CfSeg := []
  gone : Option Nat := none
deriving DecidableEq, Repr

/-- What the module receives from another: the sequence expected next, and bytes of records in progress by ring. -/
structure CfRx where
  expect : Nat := 0
  partial_ : Tab (List Byte) := []
deriving DecidableEq, Repr

/-- The Course Fabric (chapter 14). -/
structure CfSt where
  nodes : Tab CfNode := []
  ports : Tab CfPort := []
  /-- Packets given to a port's sender: port, packet. -/
  sent : List (Nat × CfPkt) := []
  /-- Key of the keystone adopted: priority, slot identity. -/
  key : Option (Nat × Nat) := none
  /-- Modules reached since the last claim of a worse key: those of a part that joins again (R376). -/
  apart : List Nat := []
  /-- Modules that the map reached when it last changed. -/
  reached : List Nat := []
  fires : List CfFire := []
  fireSeq : Nat := 0
  dropped : Nat := 0
  /-- When the last course-scope packet left (R382). -/
  courseAt : Option Nat := none
  /-- Fire sequence expected next from each module. -/
  heard : Tab Nat := []
  /-- Offsets against the time parent: their sum in units of 2^-48 s, and how many. -/
  theta : Int := 0
  samples : Nat := 0
  /-- The step to system time has been decided (R373). -/
  joinStep : Bool := false
  /-- An automatic join waits for `tb.time_src` = 3. -/
  blocked : Bool := false
  leaveAt : Option Nat := none
  floodAt : Option Nat := none
  floodDue : Bool := false
  /-- Slots routed round (R392), and those prepared here with their instants. -/
  avoided : List Nat := []
  prepared : List (Nat × Nat) := []
  /-- Ports behind a detour (R389). -/
  detours : List Nat := []
  /-- The dictionary request in progress: slot, transaction, when it was sent; the next transaction (R385). -/
  rda : Option (Nat × Nat × Nat) := none
  txn : Nat := 0
  /-- The copy that runs: slot, destination, length (R388). -/
  copy : Option (Nat × Nat × Nat) := none
  tx : Tab CfTx := []
  rx : Tab CfRx := []
  suspended : Bool := false
deriving DecidableEq, Repr

/-- Power states and the governor (chapter 16). -/
structure PwrSt where
  /-- The window of `pwr.eps_live`: its start, its length in ms (0 before one was taken), the samples counted when it began (R37). -/
  epsSince : Nat := 0
  epsWindow : Nat := 0
  epsCount : Nat := 0
  /-- Sleep entry accepted at; asleep since; wake begun at (R431). -/
  entering : Option Nat := none
  asleep : Option Nat := none
  waking : Option Nat := none
  /-- `pwr.isl_state` of each island before sleep, in order. -/
  before : List Nat := []
  /-- When something last kept the module, and each island, from being idle (R430, R433, R435). -/
  written : Nat := 0
  since : Tab Nat := []
  /-- When DEGRADED was last raised (R445). -/
  degradedAt : Option Nat := none
  /-- Steps of Table 16.6 in force, deepest first: step, and whether a thermal limit took it (R442, R444). -/
  steps : List (Nat × Bool) := []
  /-- The cap was exceeded and 98 % of it is not yet reached; the last step; the last release. -/
  engaged : Bool := false
  stepAt : Nat := 0
  released : Nat := 0
  /-- Points that hardware changed while the Supervisor was away: island, new point, old point (R447). -/
  moved : List (Nat × Nat × Nat) := []
  /-- Operating points chosen for islands and not yet taken (R437). -/
  want : Tab Nat := []
  /-- Layers that shedding has stopped (R445). -/
  shed : List Nat := []
  /-- DRAM_HOT lowers the DRAM since; when it was last returned a point (R444). -/
  hot : Bool := false
  returned : Nat := 0
deriving DecidableEq, Repr

/-- A calibration that runs (R456, R458): object, attempt from 1, phase (0 run a, 1 run b, 2 waiting for its cut), values of its
runs, first measurement (TIME96), start, whether a trim loop runs, its starting code, measurements, steps and present code, whether run a
failed, the last cause of failure, and what disturbs a run as it stood when the run began. -/
structure CalRun where
  obj : Nat
  attempt : Nat := 1
  phase : Nat := 0
  a : Int := 0
  b : Int := 0
  aFailed : Nat := 0
  began : Nat := 0
  since : Nat := 0
  cause : Nat := 0
  signature : Nat := 0
  c0 : Nat := 0
  code : Nat := 0
  stage : Nat := 0
  lo : Int := 0
  hi : Int := 0
  mean : Int := 0
deriving DecidableEq, Repr

/-- What flash keeps of calibration (R459): values by entry, the certificate, and the measured lags. -/
structure CalSaved where
  writes : List SWrite := []
  cert : List Byte := []
  lags : Tab Int := []
deriving DecidableEq, Repr

/-- Calibration (chapter 17): the calibrations that run, measured lags by object in fs (R453), steps of SYSREF_IN delays that wait for a cut
of their port (Table 17.1), objects for which CAL_DUE was raised, calibrations that a Supervisor restart abandoned, what flash keeps, and
the service gate of CALREF: its first edge in as, edges since (R451). -/
structure CalSt where
  runs : List CalRun := []
  lags : Tab Int := []
  sysref : Tab Nat := []
  dueRaised : List Nat := []
  abandoned : List CalRun := []
  saved : CalSaved := {}
  refFirst : Option Int := none
  refEdges : Nat := 0
  /-- How often CNV_PRSNT_N of each port has changed; by object, the switchovers and those changes counted when it was last accepted or marked
  due (R461). -/
  converters : Tab Nat := []
  seen : Tab (Nat × Nat) := []
deriving DecidableEq, Repr

/-- A snapshot bank (R474). -/
structure SnapBank where
  /-- Its tick in TIME96, and in module time. -/
  tick : Nat := 0
  instant : Nat := 0
  counts : Tab Nat := []
  seq : Nat := 0
  cause : Nat := 0
deriving DecidableEq, Repr

/-- A sampler (R476). -/
structure SamplerSt where
  on : Bool := false
  base : Nat := 0
  /-- The next threshold is base + k × P. -/
  k : Nat := 1
  merged : Nat := 0
  seq : Nat := 0
  lastRecord : Option Nat := none
deriving DecidableEq, Repr

/-- Slots of an instance that have been classified (R470). -/
structure SlotCls where
  retired : Nat := 0
  wasted : Nat := 0
  front : Nat := 0
  back : Nat := 0
deriving DecidableEq, Repr

/-- Counters (chapter 18). -/
structure CtrSt where
  /-- Counts that are no entry of another chapter, by 256 × code + instance. -/
  counts : Tab Nat := []
  /-- Sticky wrap bits, by 256 × code + instance (R469). -/
  wrapped : List Nat := []
  /-- Clocks of each island since the start, in 2^-48 of a thousand (0xB00 + port: slots of a ring port), and how many wraps of each
  slot counter have been acknowledged (R469, R470). -/
  clocks : Tab Nat := []
  acked : Tab Nat := []
  /-- Classified slots, by 256 × island + instance (R470). -/
  slots : Tab SlotCls := []
  /-- The multiple of `ctr.snap_period` at which a snapshot was last due (R474). -/
  periodAt : Nat := 0
  /-- The frozen view (R473): the instant it was taken at, and the counts. -/
  frozen : Option (Nat × Tab Nat) := none
  /-- Freeze and release that wait for their tick. -/
  freezeAt : Option Nat := none
  releaseAt : Option Nat := none
  banks : List SnapBank := []
  /-- Snapshots that wait for their tick: tick, cause. -/
  snapAt : List (Nat × Nat) := []
  skipRaised : Option Nat := none
  samplers : Tab SamplerSt := []
deriving DecidableEq, Repr

/-- An entry of the flash fault log (Table 19.6). -/
structure LogEntry where
  code : Nat
  seq : Nat
  time : Nat
  isl : Nat
  inst : Nat
  cls : Nat
  boot : Nat
  value : Nat
  interruption : Nat
deriving DecidableEq, Repr

/-- An emergency waiting to be sent (R420): error code, error register, code, low byte of the count. -/
structure Emergency where
  errorCode : Nat
  register : Nat
  code : Nat
  count : Nat
deriving DecidableEq, Repr

/-- EtherCAT states (Table 15.7); `away` is a slave that is not on the line. -/
inductive AlState where
  | away | init | preop | safeop | op | boot
deriving DecidableEq, Repr

/-- A write queued while the Supervisor is away (R412). -/
structure QueuedWrite where
  ix : Nat
  sub : Nat
  value : Int
deriving DecidableEq, Repr

/-- One answer the module gave to a request: path, entry, result value or abort code. -/
structure Answer where
  path : Nat
  ix : Nat
  sub : Nat
  ok : Bool
  value : Int
  /-- BAR0 status word, SDO abort code or AL status, as the request's path gives. -/
  status : Nat
  bytes : List Byte := []
deriving DecidableEq, Repr

/-- The Supervisor's side of the dictionary and of the field network (chapter 15). -/
structure SupSt where
  running : Bool := false
  /-- Present while the Supervisor is away through a restart (R40). -/
  restarting : Bool := false
  al : AlState := .away
  alStatus : Nat := 0
  alError : Bool := false
  /-- BAR0 writes queued during a restart, oldest first (R412). -/
  queued : List QueuedWrite := []
  queueLost : Bool := false
  /-- Entries whose last PCIe write was rejected, as paired keys (Table 15.5). -/
  rejected : List Nat := []
  /-- BAR0 bytes +4 to +15 latched by the last 4-byte read (R410). -/
  latch : Option (Nat × Nat) := none
  /-- Held low halves of two-part BAR0 writes: paired key, low half (R410). -/
  lowHalf : Option (Nat × Nat) := none
  /-- Bytes assembled in the bulk window, by path (R411). -/
  bulk : Tab (List Byte) := []
  /-- Value a bulk read serves, taken at the last selection, by path (R411). -/
  bulkRead : Tab (List Byte) := []
  emergencies : List Emergency := []
  sent : List Emergency := []
  lastSent : Option Nat := none
  /-- When each bit of 0x1001 was last raised by a fault (R421). -/
  errSince : Tab Nat := []
  /-- Values the last RxPDO cycle carried, by paired key (R418). -/
  rxLast : Tab Int := []
  /-- When the SM2 buffer was written last, or the present state entered (R419). -/
  rxAt : Nat := 0
  /-- Mapping and assignment in force: 0 RxPDO words, 1 TxPDO words (R417). -/
  rxMap : List Nat := []
  txMap : List Nat := []
  /-- The cycle in force, ns, which is SYNC0's (R418, R423). -/
  cycle : Nat := 1000000
  /-- TxPDO values latched last (R418). -/
  txImage : List Int := []
  /-- Origin and sequence of a fabric write of `mod.cut_commit` that waits for its commit point (R29). -/
  commitFrom : Option (Nat × Nat) := none
  /-- The path of a commit that a restart dropped before its commit point, to be answered on the return (R424). -/
  dropped : Option Nat := none
  /-- Answers given, oldest first. -/
  answers : List Answer := []
deriving DecidableEq, Repr

/-- A repointing that runs (R34, R488): island, instance, stage, and whether its cut has taken it out. -/
structure Repoint where
  isl : Nat
  inst : Nat
  src : Nat := 0
  out : Bool := false
  selfTestOk : Bool := true
  aborted : Bool := false
  since : Nat := 0
  /-- TIME96 of the first suspended sample, and a count of losses at that moment (slot 4 of the rejoining record). -/
  began : Nat := 0
  lost0 : Nat := 0
deriving DecidableEq, Repr

/-- Fault containment, repointing and firmware switch (chapter 19). -/
structure FltSt where
  log : List LogEntry := []
  logSeq : Nat := 0
  repoint : Option Repoint := none
  /-- Standbys marked failed: 0 DDC, 1 core, 0x10 + c spare rank of channel c (R485). -/
  standbyFailed : List Nat := []
  /-- Slot (1 A, 2 B) of the trial image of a switch, and of the image that ran before. -/
  trial : Nat := 0
  previous : Nat := 0
  /-- Instances still to be repointed in the round, in order (R490), and those done. -/
  round : List (Nat × Nat) := []
  roundDone : List (Nat × Nat) := []
  /-- Disables in progress: island, instance, the instant their drain began (R487). -/
  drains : List (Nat × Nat × Nat) := []
  /-- When each standby was last self-tested (R485). -/
  selfTests : Tab Nat := []
deriving DecidableEq, Repr

/-- The whole module but its capture memory and the queue of commands. -/
structure Dev where
  /-- The model's clock: module time in units of 2^-48 s (log entry 2). -/
  now : Nat := 0
  /-- The object dictionary: (index, subindex, instance) paired into one key; an unlisted key reads the default of
  its row. Signed and unsigned entries alike hold their number. -/
  dict : Tab Int := []
  /-- Values of long entries (strings, octet strings). -/
  long : Tab (List Byte) := []
  /-- How many free values have been drawn: the model's own field, no state of the spec (log entry 6). -/
  drawn : Nat := 0
  out : Outputs := {}
  cut : CutSt := {}
  hw : HwSt := {}
  boot : BootSt := {}
  sup : SupSt := {}
  flt : FltSt := {}
  itk : ItkSt := {}
  chn : ChnSt := {}
  spe : SpeSt := {}
  tb : TbSt := {}
  ctr : CtrSt := {}
  cap : CapSt := {}
  trg : TrgSt := {}
  den : DenSt := {}
  vp : VpSt := {}
  str : StrSt := {}
  im : ImSt := {}
  cf : CfSt := {}
  pwr : PwrSt := {}
  cal : CalSt := {}
deriving DecidableEq, Repr

/-- Capture memory: (address, byte) pairs, addresses strictly rising, no entry equal to the zero that an unlisted
address reads as (log entry 7). -/
abbrev Mem := List Host.Cell

/-- The state of the block. -/
structure State where
  /-- Commands waiting, first in, first out. -/
  pending : List Instr
  /-- Capture memory, the 37-bit space of R255. -/
  mem : Mem
  /-- Everything else. -/
  dev : Dev
deriving DecidableEq, Repr

/-- Why the model stops with a fault. -/
inductive Fault where
  /-- Raised by nothing: a command that names a unit (link, DDC, ring, port ...) that the module does not have is rejected as a write of no
  subentry, or, for an event, changes the clock alone (log entry 16). Safe. -/
  | noSuchUnit (what : String)
deriving DecidableEq, Repr

/-- Why the model refuses a command. -/
inductive Refusal where
  /-- A command that has no meaning yet: raised by the dispatcher alone. Safe. -/
  | notModelled (mnemonic : String)
deriving DecidableEq, Repr

/-- The module before its first power-on: every field at its reset value (log entry 5), nothing pending. -/
def State.reset : State := { pending := [], mem := [], dev := {} }

end Sys2Proof.Machine
end

