-- ==== Sys2Proof/Machine/Ops.lean ====
section
/-! DEFINITION. The operations every family shares: reading and writing entries, time, raising codes,
emitting records, gaps, staging. -/

namespace Sys2Proof.Machine

/-- Subtraction that ends at 0, by way of the integers (so that a large constant is no long chain of predecessors to a proof). -/
def less (a b : Nat) : Nat := ((a : Int) - (b : Int)).toNat

/-! ### The dictionary -/

/-- The key of an entry's value: index, subindex and instance in one number. -/
def ekey (ix sub inst : Nat) : Nat := Nat.pair ix (Nat.pair sub inst)

/-- Whether the dictionary has an index (R397). -/
def indexExists (ix : Nat) : Bool := (rowsOf (ix / 256)).any (fun e => e.ix == ix)

/-- The row of an entry, if the dictionary has it (R397); subindex 0 of an entry with instances is its count (R398). -/
def rowOf (ix sub : Nat) : Option Entry :=
  match (rowsOf (ix / 256)).find? (fun e => e.ix == ix && e.subLo ≤ sub && sub ≤ e.subHi) with
  | some e => some e
  | none => if sub = 0 && indexExists ix then some ⟨ix, 0, 0, 5, .ro, 0, .never, 0, 255, Code.valueRange, "count"⟩ else none

/-- How many instances an entry has: its highest subindex (R398). -/
def instancesOf (ix : Nat) : Nat := (rowsOf (ix / 256)).foldl (fun n e => if e.ix = ix then max n e.subHi else n) 0

/-- Defaults that differ from instance to instance: lane map (R94), regulator rates (Table 10.9), SM types and the
default TxPDO (Table 15.10), hash masks (Table 10.3), image A confirmed (log entry 13). -/
def specialDefault (ix sub : Nat) : Option Int :=
  if ix = 0x2830 then some (if sub = 0 then 64 else (((sub - 1) % 16 : Nat) : Int))
  else if ix = 0x4010 then some (if sub = 0 then 24 else if sub = 23 then 20000 else if sub = 24 then 100 else 0)
  else if ix = 0x4008 then
    some (if sub = 0 then 3 else if sub = 1 then 0x001249248000 else if sub = 2 then 0x000492490000 else 0x000924920000)
  else if ix = 0x4009 then
    some (if sub = 0 then 5 else if sub = 1 then 0x000210800000 else if sub = 2 then 0x000421000000 else if sub = 3 then 0x000842000000
      else if sub = 4 then 0x001084000000 else 0x000108000000)
  else if ix = 0x2058 then some (if sub = 0 || sub = 1 then 2 else 0)
  else if ix = 0x1C00 then some (if sub = 0 then 4 else (sub : Int))
  else if ix = 0x1A00 then
    some (if sub = 0 then 4 else if sub = 1 then 0x20500008 else if sub = 2 then 0x23010020
      else if sub = 3 then 0x21210020 else if sub = 4 then 0x20420030 else 0)
  else if ix = 0x1C13 then some (if sub = 0 then 1 else if sub = 1 then 0x1A00 else 0)
  else if ix = 0x1C12 then some 0
  else none

/-- The value an entry reads as before anything has written it: its default, or the instance count of R398. -/
def dfltOf (ix sub : Nat) : Int :=
  match specialDefault ix sub with
  | some v => v
  | none =>
    match (rowsOf (ix / 256)).find? (fun e => e.ix == ix && e.subLo ≤ sub && sub ≤ e.subHi) with
    | some e => e.dflt
    | none => if sub = 0 then (instancesOf ix : Int) else 0

/-- The type code of an entry (Table 15.2); 0 for an absent one. -/
def typeOf (ix sub : Nat) : Nat :=
  match rowOf ix sub with
  | some e => e.ty
  | none => 0

/-- Bytes of a fixed type (Table 15.2). -/
def typeBytes (ty : Nat) : Nat :=
  if ty = 5 || ty = 1 || ty = 2 then 1 else if ty = 6 || ty = 3 then 2 else if ty = 7 || ty = 4 then 4
  else if ty = 0x19 || ty = 0x13 || ty = 0x40 then 6 else if ty = 0x1b || ty = 0x15 then 8 else 0

/-- Whether a type is signed. -/
def typeSigned (ty : Nat) : Bool := ty = 2 || ty = 3 || ty = 4 || ty = 0x13 || ty = 0x15

/-- A number in the range of its type: unsigned types wrap, signed ones are read as two's complement. -/
def normTy (ty : Nat) (v : Int) : Int :=
  if typeBytes ty = 0 then v
  else if typeSigned ty then ofTwos (8 * typeBytes ty) (toTwos (8 * typeBytes ty) v)
  else (toTwos (8 * typeBytes ty) v : Int)

/-- The value of an entry. -/
def Dev.rd (d : Dev) (ix sub inst : Nat) : Int := d.dict.get (dfltOf ix sub) (ekey ix sub inst)

/-- An entry takes a value, in the range of its type. -/
def Dev.wr (d : Dev) (ix sub inst : Nat) (v : Int) : Dev :=
  { d with dict := d.dict.set (dfltOf ix sub) (ekey ix sub inst) (normTy (typeOf ix sub) v) }

/-- Reads as natural numbers: subindex 0; instance i of an entry with instances; the instance of a window. -/
def Dev.n0 (d : Dev) (ix : Nat) : Nat := (d.rd ix 0 0).toNat
def Dev.nI (d : Dev) (ix i : Nat) : Nat := (d.rd ix (i + 1) 0).toNat
def Dev.nW (d : Dev) (ix inst : Nat) : Nat := (d.rd ix 0 inst).toNat

/-- Writes of natural numbers, in the same three forms. -/
def Dev.w0 (d : Dev) (ix : Nat) (v : Nat) : Dev := d.wr ix 0 0 v
def Dev.wI (d : Dev) (ix i : Nat) (v : Nat) : Dev := d.wr ix (i + 1) 0 v
def Dev.wW (d : Dev) (ix inst : Nat) (v : Nat) : Dev := d.wr ix 0 inst v

/-- A count goes up: 48-bit counts wrap, counts in a narrower type saturate (R9). -/
def countUp (ty : Nat) (v : Int) (k : Nat) : Int :=
  if ty = 0x19 then (wrap48 (v.toNat + k) : Int)
  else min (v + k) (2 ^ (8 * typeBytes ty) - 1)

/-- A counter passes from 2^48 - 1 to 0: its sticky wrap bit is set (R469). -/
def Dev.markWrap (d : Dev) (key : Option Nat) (v : Int) : Dev :=
  match key with
  | some i => if (two48 : Int) ≤ v && !d.ctr.wrapped.contains i then { d with ctr := { d.ctr with wrapped := i :: d.ctr.wrapped } } else d
  | none => d

/-- Counts of entries. -/
def Dev.inc (d : Dev) (ix sub inst k : Nat) : Dev :=
  let v := d.rd ix sub inst
  let d := if v + k < (two48 : Int) then d else d.markWrap (counterOfEntry ix sub inst) (v + k)
  d.wr ix sub inst (countUp (typeOf ix sub) v k)
def Dev.inc0 (d : Dev) (ix : Nat) (k : Nat := 1) : Dev := d.inc ix 0 0 k
def Dev.incI (d : Dev) (ix i : Nat) (k : Nat := 1) : Dev := d.inc ix (i + 1) 0 k
def Dev.incW (d : Dev) (ix inst : Nat) (k : Nat := 1) : Dev := d.inc ix 0 inst k

/-- Several entries of consecutive instances take one value. -/
def Dev.wrAll (d : Dev) (ix : Nat) (v : Nat) : Nat → Dev
  | 0 => d
  | k + 1 => (Dev.wrAll d ix v k).wI ix k v

/-- A fresh free value of some bits, and the device with the draw counted (log entry 6). -/
def Dev.draw (d : Dev) (bits : Nat) : Nat × Dev := (Config.freeValue bits d.drawn % 2 ^ bits, { d with drawn := d.drawn + 1 })

/-- A time that the spec bounds and does not fix, in ns: free, at most the bound (log entry 6). -/
def Dev.within (d : Dev) (bound : Nat) : Nat × Dev := (Config.freeValue 64 d.drawn % (bound + 1), { d with drawn := d.drawn + 1 })

/-! ### Time -/

/-- One second in units of the clock. -/
def sec : Nat := two48

/-- Durations in units of the clock, rounded up (so that 'at least' holds). -/
def ns (n : Nat) : Nat := ceilDiv (n * two48) 1000000000
def us (n : Nat) : Nat := ceilDiv (n * two48) 1000000
def ms (n : Nat) : Nat := ceilDiv (n * two48) 1000
def ps (n : Nat) : Nat := ceilDiv (n * two48) 1000000000000

/-- A duration in nanoseconds and in picoseconds, rounded down. -/
def toNs (u : Nat) : Nat := u * 1000000000 / two48
def toPs (u : Nat) : Nat := u * 1000000000000 / two48

/-- The 1 µs tick at or after an instant (R28: a block given as 1 µs begins at a tick). -/
def tickAt (u : Nat) : Nat := us (ceilDiv (u * 1000000) two48)

/-- Picoseconds in units of the clock, and back, with their sign, rounded. -/
def psUnits (p : Int) : Int := roundEven (p * (two48 : Int)) 1000000000000
def unitsPs (u : Int) : Int := roundEven (u * 1000000000000) two48

/-- The part of a slew made by an instant: at most 1 ps/µs (R331, R336), in ps. -/
def slewPart (slew : Option (Int × Nat)) (u : Nat) : Int :=
  match slew with
  | some (p, began) =>
    let done : Int := ((u - began) * 1000000 / two48 : Nat)
    if p < 0 then max p (-done) else min p done
  | none => 0

/-- TIME96 at an instant of module time (R8, R333, R336): it stands at zero until it first runs. -/
def Dev.time96At (d : Dev) (u : Nat) : Nat :=
  if d.tb.running then ((u : Int) + d.tb.offset + psUnits (slewPart d.tb.slew u)).toNat else 0

/-- TIME96 now. -/
def Dev.time96 (d : Dev) : Nat := d.time96At d.now

/-- The two slots of a TIME96 (R10). -/
def sec48 (time : Nat) : Nat := wrap48 (time / two48)
def frac48 (time : Nat) : Nat := time % two48

/-- Two entries (subindices 1 and 2) take a TIME96. -/
def Dev.wTime (d : Dev) (ix : Nat) (time : Nat) : Dev := (d.wI ix 0 (sec48 time)).wI ix 1 (frac48 time)

/-! ### Records, gaps, events -/

/-- No ring. -/
def noRing : Nat := 0xFFFFFFFF

/-- A record of given slots. -/
def mkRec (slots : List (Nat × Nat)) (payload : List Byte := []) : Rec :=
  { slots := slots.map fun p => (p.1, wrap48 p.2), payload := payload }

/-- Whether a ring accepts records: open, paused or closing count as open for its producers in states 1 and 2
(Table 11.6); any other state takes none. -/
def Dev.ringTakes (d : Dev) (r : Nat) : Bool := let st := d.nW Ix.strRingState r; st == 1 || st == 2 || st == 4

/-- A producer's record starts on its way to a ring; a record no ring can take is counted lost where the producer has a
count of lost records (0: none). -/
def Dev.emitTo (d : Dev) (ring lostIx : Nat) (r : Rec) : Dev :=
  if ring = noRing then d
  else if d.ringTakes ring then { d with out := { d.out with outbox := d.out.outbox ++ [(ring, r)] } }
  else if lostIx = 0 then d else d.inc0 lostIx

/-- The records on their way to a ring's backlog, oldest first: past the hod buffer, in it, before it (R24, R294). -/
def Dev.onTheWay (d : Dev) (ring : Nat) : List Rec :=
  let mine (l : List (Nat × Rec)) : List Rec := (l.filter (fun p => p.1 == ring)).map (·.2)
  let of (it : HodItem) : Option Rec := match it.dest with | .record r x => if r = ring then some x else none | _ => none
  mine d.out.arrived ++ (d.cap.hod.map (fun p => ((p.2.full.map (·.items)).flatten ++ p.2.fill).filterMap of)).flatten ++ mine d.out.outbox

/-- The event-ring entry of an island and its count of lost records; (0, 0) where the island's chapter gives none. -/
def eventRingOf (isl : Nat) : Nat × Nat :=
  if isl = 4 then (Ix.trgEventRing, Ix.trgEventsLost) else if isl = 6 then (Ix.vpEventRing, Ix.vpEventsLost)
  else if isl = 7 then (Ix.capEventRing, Ix.capEventsLost) else if isl = 8 then (Ix.strEventRing, Ix.strEventsLost)
  else if isl = 9 then (Ix.tbEventRing, Ix.tbEventsLost) else if isl = 0xB then (Ix.cfEventRing, Ix.cfEventsLost)
  else if isl = 0xC then (Ix.pwrEventRing, Ix.pwrEventsLost) else (0, 0)

/-- An island's event record: into its event ring, or kept in the island's event stream where it has no ring. -/
def Dev.emit (d : Dev) (isl : Nat) (r : Rec) : Dev :=
  let e := eventRingOf isl
  if e.1 = 0 then { d with out := { d.out with events := d.out.events ++ [(isl, r)] } }
  else d.emitTo (d.n0 e.1) e.2 r

/-- The next number of an event sequence. -/
def Dev.nextSeq (d : Dev) (k : Nat) : Nat × Dev :=
  (d.out.seqs.get 0 k, { d with out := { d.out with seqs := d.out.seqs.set 0 k (wrap48 (d.out.seqs.get 0 k + 1)) } })

/-- A five-slot event record: kind, object, sequence; time; two values (Tables 7.8, 10.13, 12.x). -/
def Dev.event (d : Dev) (isl tag kind obj time a b : Nat) : Dev :=
  let (n, d) := d.nextSeq isl
  d.emit isl (mkRec [(tag, kind * 2 ^ 40 + obj * 2 ^ 32 + n % 2 ^ 32), (tag + 1, sec48 time), (tag + 2, frac48 time), (tag + 3, a), (tag + 4, b)])

/-- A record as its bytes: 64-bit slots, the tag above the value, then the payload (R10). -/
def recBytes (r : Rec) : List Byte := (r.slots.map (fun p => leBytes 8 (p.1 % 2 ^ 16 * 2 ^ 48 + p.2 % 2 ^ 48))).flatten ++ r.payload

/-- A gap marker (Table 11.4). -/
def gapMarker (cause unit chan stream first count index : Nat) : Rec :=
  mkRec [(0x1000, cause * 2 ^ 40 + unit * 2 ^ 36 + chan * 2 ^ 32 + stream), (0x1001, sec48 first), (0x1002, frac48 first), (0x1003, count), (0x1004, index)]

/-- An event without a record layout, with its TIME96 (R8). -/
def Dev.happen (d : Dev) (h : Happening) : Dev :=
  { d with out := { d.out with happenings := d.out.happenings ++ [(d.time96, h)] } }

/-- A gap joins the list; gaps of one origin that touch or overlap merge, keeping the cause of the first (R298). -/
def addGap (g : Gap) (l : List Gap) : List Gap :=
  match l.find? (fun h => h.origin == g.origin) with
  | some h =>
    if g.first ≤ h.until_ then
      l.map (fun x => if x == h then { h with until_ := max h.until_ g.until_, count := h.count + g.count } else x)
    else g :: l
  | none => g :: l

/-- A gap is recorded. -/
def Dev.gap (d : Dev) (g : Gap) : Dev := { d with out := { d.out with gaps := addGap g d.out.gaps } }

/-! ### Crossings between islands (R17, R18) -/

/-- How many acknowledged words stay within the consumer's reach: more than the longest filter chain takes (R121). -/
def reach : Nat := 2 ^ 23

/-- The producer presents words with a request; a crossing refuses none (R17, R18). -/
def Crossing.present (c : Crossing) (l : List (Nat × Sample)) : Crossing := { c with asked := c.asked ++ l }

/-- The consumer acknowledges every word presented and takes it, once and in order (R17). -/
def Crossing.accept (c : Crossing) : Crossing :=
  let l := c.taken ++ c.asked
  { asked := [], taken := l.drop (l.length - reach) }

/-- Words the crossing cannot hold are discarded whole (R19). -/
def Crossing.overflow (c : Crossing) (first count : Nat) : Crossing :=
  { c with asked := c.asked.filter (fun w => !(first ≤ w.1 && w.1 < first + count)) }

/-- Words that crossed and that their consumer loses (R134). -/
def Crossing.lose (c : Crossing) (first count : Nat) : Crossing :=
  { c with taken := c.taken.filter (fun w => !(first ≤ w.1 && w.1 < first + count)) }

/-- A word that has crossed, by its index. -/
def Crossing.word (c : Crossing) (i : Nat) : Option Sample := (c.taken.find? (fun w => w.1 == i)).map (·.2)

/-- Whether a word beyond an index has crossed: what is missing up to there will not come (R17: no word is lost or overtaken). -/
def Crossing.beyond (c : Crossing) (i : Nat) : Bool := c.taken.any (fun w => i < w.1)

/-! ### Codes (R406, R407, R420, R421) -/

/-- Fields of a code. -/
def codeSeverity (c : Nat) : Nat := c % 256
def codeSubsystem (c : Nat) : Nat := c / 2 ^ 24

/-- The bit of 0x1001 a code of severity 3 sets (R421). -/
def errorBit (c : Nat) : Nat :=
  if c = Code.railFault then 2 else if c = Code.thermalTrip then 3
  else if codeSubsystem c = 0xB || c = Code.driveLost || c = Code.relayFault then 4 else 7

/-- Bit 3 of 0x1001 is raised by two notices as well (R421). -/
def heatsRegister (c : Nat) : Bool := c = Code.thermalThrottle || c = Code.dramHot || c = Code.thermalTrip

/-- 0x1001 with bit 0 following the others. -/
def errorReg (bits : Nat) : Nat := setBitTo bits 0 (bits / 2 != 0)

/-- A code enters the error history 0x1003, newest first. -/
def Dev.pushHistory (d : Dev) (c : Nat) : Dev :=
  let held := d.rd 0x1003 0 0
  let shifted := (List.range 15).foldl (fun (a : Dev) k => a.wr 0x1003 (16 - k) 0 (d.rd 0x1003 (15 - k) 0)) d
  (shifted.wr 0x1003 1 0 c).wr 0x1003 0 0 (min (held + 1) 16)

/-- An emergency joins the queue of at most 32; a 33rd is dropped and counted, and EMCY_LOST is raised (R420). -/
def Dev.queueEmergency (d : Dev) (e : Emergency) : Dev :=
  if d.sup.emergencies.length < 32 then { d with sup := { d.sup with emergencies := d.sup.emergencies ++ [e] } }
  else
    let d := d.inc0 Ix.dictEmcyLost
    let d := (d.w0 Ix.fltLastError Code.emcyLost).wI Ix.fltPathError 3 Code.emcyLost
    (d.wTime Ix.fltLastErrorTime d.time96).inc0 Ix.fltErrorCount

/-- The emergency of a code (R420). -/
def Dev.emergencyOf (d : Dev) (c : Nat) : Emergency := ⟨0xFF00 + codeSubsystem c, d.n0 0x1001, c, d.n0 Ix.fltErrorCount % 256⟩

/-- A code of severity 3 sets its bit of 0x1001 and starts its 10 s; a thermal notice sets bit 3 (R421). -/
def Dev.setErrorBit (d : Dev) (c : Nat) : Dev :=
  if codeSeverity c = 3 || heatsRegister c then
    let b := if heatsRegister c then 3 else errorBit c
    let d := d.w0 0x1001 (errorReg (setBitTo (d.n0 0x1001) b true))
    { d with sup := { d.sup with errSince := d.sup.errSince.put b d.now } }
  else d

/-- Whether a code sends an emergency (R406, R420, R421). -/
def Dev.wantsEmergency (d : Dev) (c : Nat) : Bool :=
  codeSeverity c = 3 || (codeSeverity c = 1 && bitOf (d.n0 Ix.dictEmcyNotice) (codeSubsystem c)) ||
    (codeSeverity c = 1 && heatsRegister c && !bitOf (d.n0 0x1001) 3)

/-- A code's places: last error, the path's error, its time, the count (R407). -/
def Dev.placeCode (d : Dev) (path c : Nat) : Dev :=
  let d := (d.w0 Ix.fltLastError c).wI Ix.fltPathError (path - 1) c
  (d.wTime Ix.fltLastErrorTime d.time96).inc0 Ix.fltErrorCount

/-- An entry joins the log, newest first; entries of one clock stand in ascending island number (R493). -/
def logInsert (e : LogEntry) : List LogEntry → List LogEntry
  | [] => [e]
  | h :: r => if h.time = e.time ∧ e.isl < h.isl then { h with seq := e.seq } :: logInsert { e with seq := h.seq } r else e :: h :: r

/-- An entry of the flash fault log; the oldest of 4,096 is overwritten (R493). -/
def Dev.logEntry (d : Dev) (c time isl inst cls value interruption : Nat) : Dev :=
  let e : LogEntry := ⟨c, d.flt.logSeq, time, isl, inst, cls, d.n0 Ix.modBootCount % 2 ^ 24, value, interruption⟩
  let d := { d with flt := { d.flt with log := (logInsert e d.flt.log).take 4096, logSeq := wrap48 (d.flt.logSeq + 1) } }
  d.inc0 Ix.fltLogCount

/-- A code is raised on a path (R407): its places, the error register, the history of fault codes, an emergency. -/
def Dev.raiseBase (d : Dev) (path c : Nat) : Dev :=
  let want := d.wantsEmergency c
  let d := (d.placeCode path c).setErrorBit c
  let d := if codeSeverity c = 3 then d.pushHistory c else d
  if want then d.queueEmergency (d.emergencyOf c) else d

/-- A code raised on a path by a request or by the engine (path 4); severity 3 goes to the fault log as no class. -/
def Dev.raise (d : Dev) (path c : Nat) : Dev :=
  let d := d.raiseBase path c
  if codeSeverity c = 3 then d.logEntry c d.time96 (codeSubsystem c) 0xFF 0 0 0 else d

/-- A fault of a class (R482): counted, raised on path 4, logged with its instance, value and interruption. -/
def Dev.fault (d : Dev) (cls c isl inst value interruption : Nat) : Dev :=
  let d := d.incI Ix.fltClassCount (cls - 1)
  let d := if d.n0 Ix.fltInterruptMax < interruption then d.w0 Ix.fltInterruptMax interruption else d
  let d := if c = 0 then d else d.raiseBase 4 c
  d.logEntry c d.time96 isl inst cls value interruption

/-- A fault of a class whose interruption the spec only bounds, in ns: free (R482, log entry 6). -/
def Dev.faultWithin (d : Dev) (cls c isl inst value bound : Nat) : Dev :=
  let (w, d) := d.within bound
  d.fault cls c isl inst value w

/-- A request is rejected: its code is placed on its path and nothing else changes (R401, R407). -/
def Dev.reject (d : Dev) (path c : Nat) : Dev := d.raise path c

/-! ### Power reports that other chapters change (R445, R448) -/

/-- A power event record (Table 16.7). -/
def Dev.pwrEvent (d : Dev) (kind obj a b : Nat) : Dev := d.event 0xC 0x1400 kind obj d.time96 a b

/-- An island takes a state of Table 16.3 (event kind 0x09). -/
def Dev.setIslState (d : Dev) (isl st : Nat) : Dev :=
  let was := d.nI Ix.pwrIslState (isl - 1)
  if was = st then d else (d.wI Ix.pwrIslState (isl - 1) st).pwrEvent 0x09 isl st was

/-- `pwr.degraded` takes a value: an event of kind 0x05, and DEGRADED at most once per second (R445). -/
def Dev.setDegraded (d : Dev) (v : Nat) : Dev :=
  let was := d.n0 Ix.pwrDegraded
  if was = v then d
  else
    let d := (d.w0 Ix.pwrDegraded v).pwrEvent 0x05 0 v was
    let again := match d.pwr.degradedAt with | some w => decide (w + sec ≤ d.now) | none => true
    if again then { d with pwr := { d.pwr with degradedAt := some d.now } }.raise 4 Code.degraded else d

/-- One bit of `pwr.degraded`. -/
def Dev.degradedBit (d : Dev) (k : Nat) (on : Bool) : Dev := d.setDegraded (setBitTo (d.n0 Ix.pwrDegraded) k on)

/-! ### Requests on a path (R403, R404, R412) -/

/-- A PCIe write's mark of acceptance or rejection on its entry (Table 15.5). -/
def Dev.markWrite (d : Dev) (path ix sub : Nat) (ok : Bool) : Dev :=
  if path = 2 then
    let k := ekey ix sub 0
    let l := d.sup.rejected.filter (fun x => x != k)
    { d with sup := { d.sup with rejected := if ok then l else l ++ [k] } }
  else d

/-- A request is refused: counted for its path, its code placed there, and over PCIe write_rejected set. -/
def Dev.refuse (d : Dev) (path ix sub c : Nat) : Dev :=
  let d := (d.reject path c).markWrite path ix sub false
  if path ≤ 3 then d.incI Ix.dictRejections (path - 1) else d

/-- A write is taken: over PCIe write_rejected is cleared, and the module's idle time starts again (R430). -/
def Dev.accept (d : Dev) (path ix sub : Nat) : Dev :=
  let d := d.markWrite path ix sub true
  { d with pwr := { d.pwr with written := d.now } }

/-- How many requests of a path have been rejected. -/
def Dev.rejectionsOf (d : Dev) (path : Nat) : Int := d.rd Ix.dictRejections path 0

/-- A request has been acted on, with a device as its outcome: counted as served unless it was rejected. -/
def Dev.served (d e : Dev) (path : Nat) : Dev :=
  if path ≤ 3 && e.rejectionsOf path == d.rejectionsOf path then e.incI Ix.dictRequests (path - 1) else e

/-- A request is acted on. -/
def Dev.serve (d : Dev) (path ix sub : Nat) (f : Dev → Dev) : Dev := d.served (f (d.accept path ix sub)) path

/-- A write that finds the Supervisor away: queued over PCIe up to 256 deep, else refused (R412, R424). -/
def Dev.whileAway (d : Dev) (path ix sub : Nat) (v : Int) : Dev :=
  if path = 2 then
    if d.sup.queued.length < 256 then { d with sup := { d.sup with queued := d.sup.queued ++ [⟨ix, sub, v⟩] } }
    else { (d.markWrite 2 ix sub false) with sup := { (d.markWrite 2 ix sub false).sup with queueLost := true } }
  else d.refuse path ix sub Code.supervisorRestart

/-- Whether a path may write (R404). -/
def Dev.pathOpen (d : Dev) (path : Nat) : Bool := 3 < path || bitOf (d.n0 Ix.dictWritePaths) (path - 1)

/-- Whether an entry is a command of an island that is dark without the core rails: neither the Supervisor's nor the Timebase's. -/
def needsPower (ix : Nat) : Bool := 0x2600 ≤ ix && ix < 0x5000 && (rowsOf (ix / 256)).any (fun e => e.ix == ix && e.access == .wo)

/-- A command written to a dictionary entry: it reaches the island while the Supervisor runs and the path may write. A command of an island
without power finds nobody to act on it and is refused as a live read is (log entry 42). -/
def Dev.command (d : Dev) (path ix sub : Nat) (v : Int) (f : Dev → Dev) : Dev :=
  if !d.sup.running then d.whileAway path ix sub v
  else if !d.pathOpen path then d.refuse path ix sub Code.writePathLocked
  else if !d.hw.pwrGood && needsPower ix then d.refuse path ix sub Code.islandOff
  else d.serve path ix sub f

/-- An answer to a request. -/
def Dev.answer (d : Dev) (a : Answer) : Dev := { d with sup := { d.sup with answers := d.sup.answers ++ [a] } }

/-- A condition that holds bit 3 of 0x1001 ends: the bit clears 10 s from now (R421). -/
def Dev.heatEnds (d : Dev) : Dev :=
  if bitOf (d.n0 0x1001) 3 then { d with sup := { d.sup with errSince := d.sup.errSince.put 3 d.now } } else d

/-! ### Islands (R12, R405) -/

/-- The island that owns an index (R397). -/
def islandOfIx (ix : Nat) : Nat :=
  if ix < 0x2400 then 0xC else if ix < 0x2600 then 9 else if ix < 0x2800 then 0xA else if ix < 0x3000 then 1
  else if ix < 0x3400 then 2 else if ix < 0x3800 then 3 else if ix < 0x3C00 then 4 else if ix < 0x4000 then 5
  else if ix < 0x4400 then 7 else if ix < 0x4800 then 8 else if ix < 0x4C00 then 0xB else if ix < 0x5000 then 6 else 0xC

/-- Service states (Table 3.6). -/
def Dev.service (d : Dev) : Nat := d.n0 Ix.modService
def Dev.fullService (d : Dev) : Bool := d.service == 3
def Dev.inRushes (d : Dev) : Bool := d.service == 1 || d.service == 2 || d.service == 4

/-- Entries of functions that rushes service withholds (R77, Table 3.2): continuous capture, the Capture Store
controller, NVMe, volume, reels and playback, the Course Fabric beyond link discovery. -/
def withheldIx (ix : Nat) : Bool :=
  (0x4000 ≤ ix && ix < 0x4400) || (0x4430 ≤ ix && ix < 0x4480) || (0x4801 ≤ ix && ix < 0x4810) || (0x4820 ≤ ix && ix < 0x4860)

/-- Whether an island's clock or power is off: before the core rails are up, or asleep or off (Table 16.3). -/
def Dev.islandOff (d : Dev) (isl : Nat) : Bool :=
  isl != 0xC && (!d.hw.pwrGood || (0 < isl && (d.nI Ix.pwrIslState (isl - 1) == 2 || d.nI Ix.pwrIslState (isl - 1) == 3)))

/-- Whether the entry of an index is served from the shadow (R77, R405). -/
def Dev.shadowed (d : Dev) (ix : Nat) : Bool := d.islandOff (islandOfIx ix) || (d.inRushes && withheldIx ix)

/-! ### Staged sets (R28, R32) -/

/-- A write joins a set; an earlier write of the same entry and instance is replaced. -/
def putWrite (w : SWrite) (l : List SWrite) : List SWrite :=
  l.filter (fun x => !(x.ix == w.ix && x.sub == w.sub && x.inst == w.inst)) ++ [w]

/-- The value a set holds for an entry. -/
def stagedValue (l : List SWrite) (ix sub inst : Nat) : Option Int :=
  (l.find? (fun x => x.ix == ix && x.sub == sub && x.inst == inst)).map (·.value)

/-- Whether a committed cut is waiting, yours or the engine's (R32). -/
def Dev.cutWaiting (d : Dev) : Bool := d.cut.user.isSome || !d.cut.engine.isEmpty

/-- A change of a layer's N discards the window coefficients staged for it (R146). -/
def Dev.dropTable (d : Dev) (w : SWrite) (l : List SWrite) : List SWrite :=
  if w.ix = Ix.speLayerLen && (stagedValue l w.ix w.sub w.inst).getD (d.rd w.ix w.sub w.inst) != w.value then
    l.filter (fun x => !(x.ix == Ix.speUserCoef && x.inst / 2 ^ 20 + 1 == w.sub))
  else l

/-- A write joins the open staged set, and `mod.cut_state` shows it unless a cut is waiting (R31, R32). -/
def Dev.stage (d : Dev) (w : SWrite) : Dev :=
  let d := { d with cut := { d.cut with staged := putWrite w (d.dropTable w d.cut.staged) } }
  if d.cutWaiting then d else d.w0 Ix.modCutState 1

/-- A write goes to the Supervisor's shadow. -/
def Dev.shadow (d : Dev) (w : SWrite) : Dev := { d with cut := { d.cut with shadow := putWrite w d.cut.shadow } }

/-- The device with a set in force, for the checks of a commit. -/
def Dev.overlay (d : Dev) (l : List SWrite) : Dev := l.foldl (fun a w => a.wr w.ix w.sub w.inst w.value) d

/-- The next value of the cut sequence (R30). -/
def Dev.nextCut (d : Dev) : Nat × Dev :=
  let n := wrap48 (d.cut.seqTaken + 1)
  (n, { d with cut := { d.cut with seqTaken := n } })

/-- The earliest explicit or implicit T of an engine cut: the present sample time plus 10 µs (R28). -/
def Dev.soon (d : Dev) : Nat := d.time96 + us 10

/-- The engine commits a cut of its own, which waits behind one that is waiting; `mod.cut_state` shows it (R30, R32). -/
def Dev.engineCut (d : Dev) (c : Cut) : Dev :=
  { d with cut := { d.cut with engine := d.cut.engine ++ [{ c with observed := d.now }] } }.w0 Ix.modCutState 2

/-- The next engine cut becomes the waiting one: a degradation or shedding that had to wait follows at the next block boundary (Table 1.12),
any other has T 10 µs ahead. -/
def Dev.promoteCut (d : Dev) : Dev :=
  match d.cut.engine with
  | [] => d
  | c :: r =>
    let due := if c.explicit then c.due else if c.kind = .degradation || c.kind = .shedding then d.time96 else d.soon
    { d with cut := { d.cut with engine := { c with due := due, observed := d.now } :: r } }.w0 Ix.modCutState 2

/-- Waiting engine cuts are taken back; what waits behind them follows (R40, R457). -/
def Dev.engineDrop (d : Dev) (p : Cut → Bool) : Dev :=
  let first := d.cut.engine.head?.any p
  let d := { d with cut := { d.cut with engine := d.cut.engine.filter (fun c => !p c) } }
  if d.cut.user.isSome || !first then d
  else if d.cut.engine.isEmpty then d.w0 Ix.modCutState (if d.cut.staged.isEmpty then 0 else 1)
  else d.promoteCut

end Sys2Proof.Machine
end

