-- ==== Sys2Proof/Machine/Clock.lean ====
section
/-! DEFINITION. The instant of a command: the clock advances, island clocks are counted, and freezes and snapshots that fall due are
taken (18_counters.md); and how a command runs. -/

namespace Sys2Proof.Machine

/-- The outcomes of a command. -/
abbrev Res := Host.Outcome State Fault Refusal

/-! ### Slots (R470 to R472) -/

/-- What an island's slots are clocked by, kHz: nothing while it is off, gated or relocking gated; the data clock of the DRAM's controllers
in the Capture Store; the distribution reference in the Timebase (Table 18.1, R472). -/
def Dev.slotKHz (d : Dev) (isl : Nat) : Nat :=
  if !d.hw.pwrGood then (if isl = 9 || isl = 0xC then (if d.hw.auxIn then (if isl = 9 then 100000 else d.nI Ix.tbIslFreq 11) else 0) else 0)
  else if isl = 9 then 100000
  else if isl != 0xC && (d.islandOff isl || d.nI Ix.pwrIslState (isl - 1) = 1) then 0
  else if isl = 7 then (if d.cap.asleep then 0 else d.n0 Ix.capDramRate * 250)
  else
    let st := d.nI Ix.tbPllState (isl - 1)
    if st = 4 then 400000 else if st = 2 then d.nI Ix.tbIslFreq (isl - 1) else 0

/-- Slots per millisecond of a ring port: 625 per µs while it is trained (Table 18.1). -/
def Dev.portKHz (d : Dev) (k : Nat) : Nat := if d.hw.pwrGood && 2 ≤ d.nI Ix.cfPortState k then 625000 else 0

/-- Slots of an instance since the start, not wrapped (event 0x00). -/
def Dev.slots (d : Dev) (isl inst : Nat) : Nat := d.ctr.clocks.get 0 (if isl = 0xB then 0xB00 + inst else isl) * 1000 / two48

/-- Whether an instance is out of service for a repointing (R472). -/
def Dev.slotOut (d : Dev) (isl inst : Nat) : Bool :=
  match d.flt.repoint with
  | some r => r.out && r.isl == isl && isl != 1 && isl != 9 &&
      (r.inst == (if isl = 7 then inst / 2 else inst) || isl == 6 || isl == 8 || isl == 0xA || isl == 0xB)
  | none => false

/-- What the state says of the slots of an instance that pass: 1 retired, 2 wasted, 3 front-starved, 0 in flight; none where the class follows
from what happens in single clocks (R470 to R472, Table 18.1). -/
def Dev.slotFate (d : Dev) (isl inst : Nat) : Option Nat :=
  let idle (b : Bool) : Option Nat := if b then some 3 else none
  let layers (p : Nat) : Bool := (List.range 4).any (fun l => d.nI Ix.speLayerSrc (4 * p + l) != 0)
  if d.slotOut isl inst then some 3
  else if isl = 1 then idle ((List.range 4).all (fun k => d.nI Ix.itkLinkState (4 * inst + k) < 5))
  else if isl = 2 then idle (if inst = 32 then d.n0 Ix.chnStandbyFor == 0xFF else d.nI Ix.chnSrc inst == 0)
  else if isl = 3 then idle (if inst = 32 then d.n0 Ix.speStandbyFor == 0xFF else !layers (inst / 8) || 2 ≤ d.nI Ix.speCoreState inst)
  else if isl = 4 then idle ((List.range 64).all (fun c => d.nI Ix.trgCondType c == 0))
  else if isl = 5 then idle (d.nI Ix.denState inst == 0)
  else if isl = 6 then idle (d.n0 Ix.vpEnable == 0)
  else if isl = 7 then idle (!bitOf (d.n0 Ix.capChannels) (inst / 2))
  else if isl = 8 then idle (if inst = 0 then !d.str.linkUp else d.nI Ix.strDrvState (inst - 1) == 0)
  else if isl = 9 then
    if (d.tb.relocking.find? inst).isSome then some 2
    else if inst ≤ 12 then some (if d.nI Ix.tbPllState (inst - 1) = 2 && d.nI Ix.pwrIslState (inst - 1) = 0 then 1 else 3)
    else if inst < 0x18 then some (if d.nI Ix.tbAuxState (inst - 0x10) = 2 then 1 else 3)
    else if inst = 0x18 then some (if d.n0 Ix.vpEnable = 0 then 3 else 1)
    else some (if inst = 0x1F && d.n0 Ix.tbLoopState != 2 then 2 else 1)
  else if isl = 0xA then some (if d.nI Ix.imChanState inst = 3 || d.nI Ix.imChanState inst = 4 then 0 else 3)
  else if isl = 0xC then (if d.sup.restarting then some 2 else none)
  else none

/-- Slots that pass, and those in flight, are classified: as the state fixes it; else by free values, which never exceed what has passed and
give an island that never waits no back-starved slot. Work in flight ends before an instance is idle (R470, R472, log entry 14). -/
def SlotCls.step (c : SlotCls) (fate : Option Nat) (passed elapsed : Nat) (neverBack : Bool) (share : Nat → Nat) : SlotCls :=
  let p := elapsed - (c.retired + c.wasted + c.front + c.back)
  match fate with
  | some 0 => c
  | some 1 => { c with retired := c.retired + p }
  | some 2 => { c with wasted := c.wasted + p }
  | some _ =>
    let old := p - passed
    let r := share 1 % (old + 1)
    { c with front := c.front + (p - old), retired := c.retired + r, wasted := c.wasted + (old - r) }
  | none =>
    let r := share 1 % (p + 1)
    let w := share 2 % (p - r + 1)
    let b := if neverBack then 0 else share 4 % (p - r - w + 1)
    let f := share 3 % (p - r - w - b + 1)
    { retired := c.retired + r, wasted := c.wasted + w, front := c.front + f, back := c.back + b }

/-- Every instance with slot counters, as island and instance (Table 18.1). -/
def slotAll : List (Nat × Nat) := (List.range 12).flatMap (fun i => (slotInstances (i + 1)).map (fun n => (i + 1, n)))

/-- Island clocks up to an instant are counted, in 2^-48 of a thousand, and their slots classified (R470, R472). -/
def Dev.runClocks (d : Dev) (t : Nat) : Dev :=
  let add (c : Tab Nat) (k r : Nat) : Tab Nat := c.set 0 k (c.get 0 k + (t - d.now) * r)
  let c := (List.range 12).foldl (fun c i => if i + 1 = 0xB then c else add c (i + 1) (d.slotKHz (i + 1))) d.ctr.clocks
  let c := (List.range 4).foldl (fun c k => add c (0xB00 + k) (d.portKHz k)) c
  let e := { d with now := t, ctr := { d.ctr with clocks := c } }
  { e with ctr := { e.ctr with slots := slotAll.foldl (fun l q =>
    let k := 256 * q.1 + q.2
    let n := e.slots q.1 q.2
    Tab.set {} l k ((Tab.get {} l k).step (d.slotFate q.1 q.2) (n - d.slots q.1 q.2) n (q.1 ≤ 6 || q.1 = 9 || q.1 = 0xA)
      (fun c => Config.slotShare (256 * (256 * q.1 + c) + q.2) t))) d.ctr.slots } }

/-- The work in flight of an instance has ended: its slots are retired, or wasted (R470). -/
def Dev.slotsEnd (d : Dev) (isl inst : Nat) (good : Bool) : Dev :=
  let k := 256 * isl + inst
  let c := (d.ctr.slots.get {} k).step (some (if good then 1 else 2)) 0 (d.slots isl inst) true (fun _ => 0)
  { d with ctr := { d.ctr with slots := d.ctr.slots.set {} k c } }

/-- An event counter's present value (R468). -/
def Dev.eventCount (d : Dev) (r : CounterRow) (inst : Nat) : Nat :=
  if r.ix = 0 then d.ctr.counts.get 0 (256 * r.code + inst)
  else if r.window then d.nW r.ix inst
  else if r.count = 1 then d.n0 r.ix
  else d.nI r.ix (inst - r.first)

/-- A counter's present value, slots not wrapped. -/
def Dev.counterRaw (d : Dev) (code inst : Nat) : Nat :=
  let c := d.ctr.slots.get {} (256 * (code / 256) + inst)
  if code % 256 = 0 then d.slots (code / 256) inst
  else if code % 256 = 1 then c.retired else if code % 256 = 2 then c.wasted else if code % 256 = 3 then c.front
  else if code % 256 = 4 then c.back
  else match counterRow code with
    | some r => d.eventCount r inst
    | none => 0

/-- Counters by ascending code and instance (R475). -/
def allCounters : List (Nat × Nat) :=
  ((List.range 12).map fun i =>
    let isl := i + 1
    ((List.range 5).map (fun k => (slotInstances isl).map (fun n => (256 * isl + k, n)))).flatten ++
    ((counterRows.filter (fun r => r.code / 256 == isl)).map (fun r => (List.range r.count).map (fun n => (r.code, n + r.first)))).flatten).flatten

/-- Every counter as it stands, slots not wrapped. -/
def Dev.latchCounts (d : Dev) : Tab Nat := allCounters.foldl (fun t p => Tab.set 0 t (256 * p.1 + p.2) (d.counterRaw p.1 p.2)) []

/-- A counter of a latched view. -/
def latchedCount (counts : Tab Nat) (code inst : Nat) : Nat := wrap48 (counts.get 0 (256 * code + inst))

/-! ### Freeze and snapshot (R473 to R475) -/

/-- The clock that ticks: TIME96, or module time before it runs. -/
def Dev.tickClock (d : Dev) : Nat := if d.tb.running then d.time96 else d.now

/-- The next 1 µs tick. -/
def Dev.nextTick (d : Dev) : Nat := tickAt (d.tickClock + 1)

/-- Whether a snapshot's record is still to be written: it waits for the ring, or in its backlog (R474). -/
def Dev.bankBusy (d : Dev) (b : SnapBank) : Bool :=
  let ring := d.n0 Ix.ctrSnapRing
  let own (x : Rec) : Bool := match x.slots with | (0x1600, v) :: _ => v % 2 ^ 24 == b.seq % 2 ^ 24 | _ => false
  (d.onTheWay ring).any own || (d.str.rings.get {} ring).backlog.any own

/-- A record of this chapter starts on its way; where no ring can take it, it is counted (R480). -/
def Dev.ctrRecord (d : Dev) (ring : Nat) (r : Rec) : Dev :=
  let was := d.n0 Ix.ctrRecordsLost
  let d := d.emitTo ring Ix.ctrRecordsLost r
  if was = d.n0 Ix.ctrRecordsLost then d else d.raise 4 Code.ctrRecordsLost

/-- A snapshot at a tick: into a free bank, and its record to the ring; skipped where both banks are in use (R474, R475). -/
def Dev.snapshot (d : Dev) (tick cause : Nat) : Dev :=
  let free := d.ctr.banks.filter (fun b => !d.bankBusy b)
  let keep : Option (List SnapBank) := if d.ctr.banks.length < 2 then some d.ctr.banks
    else match free.getLast? with | some b => some (d.ctr.banks.erase b) | none => none
  match keep with
  | none =>
    let d := d.inc0 Ix.ctrSnapSkipped
    let again := match d.ctr.skipRaised with | some w => decide (w + sec ≤ d.now) | none => true
    if again then { d with ctr := { d.ctr with skipRaised := some d.now } }.raise 4 Code.ctrSnapSkipped else d
  | some l =>
    let seq := wrap48 (d.n0 Ix.ctrSnapSeq + 1)
    let b : SnapBank := { tick := tick, instant := d.now, counts := d.latchCounts, seq := seq, cause := cause }
    let d := ({ d with ctr := { d.ctr with banks := b :: l } }.w0 Ix.ctrSnapSeq seq).wTime Ix.ctrSnapTime tick
    if d.n0 Ix.ctrSnapRing = noRing then d
    else d.ctrRecord (d.n0 Ix.ctrSnapRing) (mkRec ([(0x1600, allCounters.length * 2 ^ 24 + seq % 2 ^ 24), (0x1601, sec48 tick), (0x1602, frac48 tick),
      (0x1603, cause)] ++ allCounters.map (fun p => (0x1608, latchedCount b.counts p.1 p.2))))

/-- The view freezes at a tick (R473). -/
def Dev.freezeView (d : Dev) (tick : Nat) : Dev :=
  ({ d with ctr := { d.ctr with frozen := some (d.now, d.latchCounts), freezeAt := none } }.wTime Ix.ctrFreezeTime tick).w0 Ix.ctrFreezeState 2

/-- The view is released at a tick. -/
def Dev.releaseView (d : Dev) : Dev :=
  { d with ctr := { d.ctr with frozen := none, releaseAt := none } }.w0 Ix.ctrFreezeState (if d.ctr.freezeAt.isSome then 1 else 0)

/-- The earliest tick at which something of the counters is due. -/
def Dev.ctrDue (d : Dev) : Option Nat :=
  let l := d.ctr.freezeAt.toList ++ d.ctr.releaseAt.toList ++ d.ctr.snapAt.map (·.1)
  match l with | [] => none | x :: r => some (r.foldl min x)

/-- What is due at a tick happens: release, then freeze, then snapshots. -/
def Dev.ctrTick (d : Dev) (tick : Nat) : Dev :=
  let d := if d.ctr.releaseAt.any (· ≤ tick) then d.releaseView else d
  let d := if d.ctr.freezeAt.any (· ≤ tick) then d.freezeView tick else d
  let due := d.ctr.snapAt.filter (fun p => p.1 ≤ tick)
  let d := { d with ctr := { d.ctr with snapAt := d.ctr.snapAt.filter (fun p => tick < p.1) } }
  due.foldl (fun a p => a.snapshot tick p.2) d

/-- Ticks up to an instant, at most so many. -/
def Dev.ctrRun (t : Nat) : Nat → Dev → Dev
  | 0, d => d
  | k + 1, d =>
    match d.ctrDue with
    | none => d
    | some tick =>
      let instant := max d.now (d.now + (tick - d.tickClock))
      if t < instant then d else Dev.ctrRun t k ((d.runClocks instant).ctrTick tick)

/-! ### Idle times (R430, R433) -/

/-- What forbids module sleep (R430). -/
def Dev.sleepForbidden (d : Dev) : Bool :=
  (List.range 16).any (fun q => d.nI Ix.itkLinkState q == 5) || (List.range 4).any (fun c => d.nI Ix.capCsState c == 2 || d.nI Ix.capCsState c == 3) ||
    d.str.reels.any (fun p => d.nW Ix.strReelState p.1 == 2 || d.nW Ix.strReelState p.1 == 3) ||
    (List.range 4).any (fun p => d.nI Ix.strPbState p != 0) || d.trg.mags.any (fun p => p.2.armed) ||
    d.n0 Ix.cfState == 4 || d.n0 Ix.vpEnable == 1 || !d.fullService || d.cutWaiting

/-- Whether an island has no configured work (R433). -/
def Dev.islandIdle (d : Dev) (isl : Nat) : Bool :=
  if isl = 1 then (List.range 16).all (fun q => d.nI Ix.itkLinkState q == 0)
  else if isl = 2 then (List.range 32).all (fun n => d.nI Ix.chnSrc n == 0)
  else if isl = 3 then (List.range 16).all (fun l => d.nI Ix.speLayerSrc l == 0)
  else if isl = 4 then (List.range 64).all (fun c => d.nI Ix.trgCondType c == 0) && !d.trg.mags.any (fun p => p.2.armed)
  else if isl = 5 then (List.range 4).all (fun p => d.nI Ix.denState p == 0)
  else if isl = 6 then d.n0 Ix.vpEnable == 0
  else if isl = 8 then d.n0 Ix.strRingsOpen == 0 && (List.range 8).all (fun k => d.nI Ix.strDrvState k == 0) && !d.str.linkUp
  else if isl = 0xA then (List.range 10).all (fun c => !(2 ≤ d.nI Ix.imChanState c && d.nI Ix.imChanState c ≤ 4)) && d.cal.runs.isEmpty
  else isl = 0xB && d.n0 Ix.cfState == 0

/-- What held up to an instant starts the idle times again: of the module what forbids its sleep, of an island its work. -/
def Dev.idleMark (d : Dev) (t : Nat) : Dev :=
  { d with pwr := { d.pwr with
    written := if d.sleepForbidden then t else d.pwr.written
    since := [1, 2, 3, 4, 5, 6, 8, 0xA, 0xB].foldl (fun l i => if d.islandIdle i then l else Tab.put l i t) d.pwr.since } }

/-- The device at the instant of a command: the clock never runs back. -/
def Dev.at (d : Dev) (t : Nat) : Dev :=
  if t ≤ d.now then d else (Dev.ctrRun t (2 + d.ctr.snapAt.length) (d.idleMark t)).runClocks t

/-! ### Wake sources (R431) -/

/-- Whether a wake source is enabled (Table 16.2). -/
def Dev.wakeEnabled (d : Dev) (k : Nat) : Bool := k < 6 && bitOf (d.n0 Ix.pwrWakeMask) k

/-- An enabled wake source: it stops an entry in progress, or starts the wake (R431, Table 16.10). -/
def Dev.wake (d : Dev) (source : Nat) : Dev :=
  if !d.wakeEnabled source then d
  else if d.pwr.entering.isSome then
    { (d.w0 Ix.pwrWakeCause source) with pwr := { d.pwr with entering := none, written := d.now } }.pwrEvent 0x07 0 source 0
  else if d.n0 Ix.pwrState = 2 && d.pwr.waking.isNone then
    { (d.w0 Ix.pwrWakeCause source) with pwr := { d.pwr with waking := some d.now } }
  else d


/-! ### Running a command -/

/-- A command that changes the device and neither memory nor queue. -/
def run (t : Nat) (s : State) (f : Dev → Dev) : Res := .next { s with dev := f (s.dev.at t) }

/-- The same for an event that names a unit: there is no event of a unit that the module does not have (log entry 16). -/
def runIf (ok : Bool) (t : Nat) (s : State) (f : Dev → Dev) : Res := run t s fun d => if ok then f d else d

/-- A write of a command entry of an instance: an instance beyond the entry's count is no subentry (R401, Table 15.8). -/
def runEntry (ok : Bool) (path ix sub : Nat) (v : Int) (t : Nat) (s : State) (f : Dev → Dev) : Res := run t s fun d =>
  if ok then f d else d.command path ix sub v fun d => d.refuse path ix sub Code.noSubentry

/-- A command that changes capture memory too. -/
def runMem (t : Nat) (s : State) (f : Mem → Dev → Mem × Dev) : Res :=
  .next { s with mem := (f s.mem (s.dev.at t)).1, dev := (f s.mem (s.dev.at t)).2 }

/-- The same for an event that names a unit. -/
def runMemIf (ok : Bool) (t : Nat) (s : State) (f : Mem → Dev → Mem × Dev) : Res := runMem t s fun m d => if ok then f m d else (m, d)

/-- The same for a write of a command entry of an instance. -/
def runMemEntry (ok : Bool) (path ix sub : Nat) (v : Int) (t : Nat) (s : State) (f : Mem → Dev → Mem × Dev) : Res := runMem t s fun m d =>
  if ok then f m d else (m, d.command path ix sub v fun d => d.refuse path ix sub Code.noSubentry)

end Sys2Proof.Machine
end

