-- ==== Sys2Proof/Machine/Hardware.lean ====
section
/-! DEFINITION. Supplies, reset pins, thermal protection and the bypasses (02_module_hardware.md). -/

namespace Sys2Proof.Machine

/-- 90 °C in the sensor's sixteenths of a degree (R61). -/
def startTemp : Int := 1440

/-- The hottest die sensor. -/
def Dev.dieTemp (d : Dev) : Int := d.rd Ix.hwTemp 2 0

/-- A reading of the hottest die sensor: throttling ends once it is 3 K below the threshold (R61). -/
def Dev.dieReads (d : Dev) (temp : Int) : Dev :=
  let d := d.wr Ix.hwTemp 2 0 temp
  if d.hw.throttling && temp + 48 ≤ d.rd Ix.hwTempThrottle 0 0 then
    { d with hw := { d.hw with throttling := false, thermLow := false } }.heatEnds
  else d

/-- Readings of the other sensors, DRAM, optics, regulator and MEMS arrays, in the order of `hw.temp` 3 to 6 (R68). -/
def Dev.sensorsRead (d : Dev) (others : List Int) : Dev :=
  (List.range 4).foldl (fun (a : Dev) k => match others[k]? with | some v => a.wr Ix.hwTemp (k + 3) 0 v | none => a) d

/-- The 12 V regulators start, unless the die is too hot, a trip or a reset holds them, the power-loss entry is still being
written, or the engine is in recovery (R53, R61, R75, Table 2.14). The flag of R55 is set at every such start, whether 12 V became good just
then or a reset, a trip or a written entry had cleared the flag with 12 V good (DESIGN CHOICE, log entry 37). -/
def Dev.startRegulators (d : Dev) : Dev :=
  if !d.hw.auxQualified || !d.hw.v12Good || d.hw.trip || d.hw.resetLow || d.hw.resetWritten.isSome ||
      d.hw.lossPending || d.hw.railFailed || d.service == 5 then d
  else if startTemp ≤ d.dieTemp then { d with hw := { d.hw with startHeld := true } }
  else { d with hw := { d.hw with regulators := true, startHeld := false, lossFlag := true } }

/-- One MEMS array's drive is removed: an inserted or inserting array returns to the through state (R62, R63). -/
def Dev.releaseArray (d : Dev) (dim : Nat) : Dev :=
  let st := d.nI Ix.hwBypassState dim
  let d := { d with hw := { d.hw with driven := d.hw.driven.set false dim false } }
  if st = 1 || st = 2 then
    { (d.wI Ix.hwBypassState dim 3) with hw := { d.hw with moving := d.hw.moving.put dim d.now } }
  else d

/-- Both arrays go to the through state. -/
def Dev.releaseArrays (d : Dev) : Dev := (d.releaseArray 0).releaseArray 1

/-- A slave in SAFE-OP or OP drops to PRE-OP with a status (R415, R424). -/
def Dev.alDrop (d : Dev) (status : Nat) : Dev :=
  if d.sup.al = .safeop || d.sup.al = .op then
    { d with sup := { d.sup with al := .preop, alStatus := status, alError := true } }
  else d

/-- The relays release: the slave is not on the line (R65, R415). -/
def Dev.relaysRelease (d : Dev) : Dev :=
  { (d.w0 Ix.hwEcatRelay 0) with sup := { d.sup with al := .away } }

/-- Whether an entry's value stays through a loss of the core rails: configuration, which the Supervisor keeps on AUX, the always-on
domain's reports, and the counters of chapter 18. -/
def keptEntry (key : Nat) : Bool :=
  let ix := (Nat.unpair key).1
  let sub := (Nat.unpair (Nat.unpair key).2).1
  let inst := (Nat.unpair (Nat.unpair key).2).2
  let live := (0x2600 ≤ ix && ix < 0x5000) || (0x2110 ≤ ix && ix < 0x2120)
  !live || (match rowOf ix sub with | some e => e.access != .ro | none => false) || (counterOfEntry ix sub inst).isSome

/-- What the islands hold is lost with the core rails: their internal state and their live entries start again. What lies outside the
islands stays: records posted to the host, the sink at the connector (Table 2.9, R72). -/
def Dev.islandsLost (d : Dev) : Dev :=
  { d with
    dict := d.dict.filter (fun p => keptEntry p.1)
    out := { d.out with outbox := [], arrived := [] }
    boot := { d.boot with done := [], failed := [], dark := [], inserted := [], gapOpen := none, trialSince := none, autoDone := false }
    itk := {}, chn := {}, spe := {}, trg := {}, den := {}, cap := {}, im := {}, cf := {}, pwr := {}
    vp := {
      plugged := d.vp.plugged, sinkRate := d.vp.sinkRate, sinkLanes := d.vp.sinkLanes
      preferred := d.vp.preferred, listed := d.vp.listed }
    str := { posts := d.str.posts }
    flt := { d.flt with repoint := none, drains := [] }
    cal := { d.cal with runs := [], abandoned := [], refFirst := none, refEdges := 0 } }

/-- The core rails shut down: PWR_GOOD falls, the data path stops, MEMS drive is released, `mod.service` reads 0 (Table 2.9). -/
def Dev.coreOff (d : Dev) : Dev :=
  let d := if d.hw.throttling || !d.cap.over95.isEmpty then d.heatEnds else d
  let d := { d with hw := { d.hw with pwrGood := false, regulators := false, startHeld := false, throttling := false, thermLow := false } }
  let d := ((d.releaseArrays.islandsLost.wrAll Ix.tbAuxState 0 8).w0 Ix.modService 0).alDrop 0x8001
  let d := (d.w0 Ix.modBringup (d.n0 Ix.modBringup % 4)).w0 Ix.pwrState 1
  let back := match d.cut.user with | some c => c.writes ++ d.cut.staged | none => d.cut.staged
  let d := { d with cut := { d.cut with user := none, engine := [], staged := back } }
  d.w0 Ix.modCutState (if back.isEmpty then 0 else 1)

/-- A brown-out, an overvoltage or a rail fault with PWR_GOOD high: shutdown, RAIL_FAULT, the power-loss entry to come (R54, R55). -/
def Dev.powerLost (d : Dev) : Dev :=
  let d := d.coreOff
  let d := { d with hw := { d.hw with lossPending := true } }
  (d.incI Ix.fltClassCount 4).raiseBase 4 Code.railFault

/-- Entries whose values flash keeps (Tables 3.6, 2.12, 17.5, 19.7 and every entry that takes effect at restart), and what the sensors read. -/
def flashEntries : List (Nat × Nat × Nat) :=
  [(Ix.hwTemp, 1, 6), (Ix.hwBypassCycles, 1, 2), (Ix.hwUnloggedLoss, 0, 0), (Ix.modMemtest, 0, 0), (Ix.modBootSelect, 0, 0),
   (Ix.modImageState, 1, 2), (Ix.modBootCount, 0, 0), (Ix.modFallbackCount, 0, 0), (Ix.cfAutoJoin, 0, 0),
   (Ix.calCount, 0, 0), (Ix.fltLogCount, 0, 0), (Ix.modGrade, 1, 7)]

/-- The entries of a list, copied from one device to another. -/
def Dev.copyEntries (src : Dev) (l : List (Nat × Nat × Nat)) (dst : Dev) : Dev :=
  l.foldl (fun a e => (List.range (e.2.2 + 1 - e.2.1)).foldl
    (fun (b : Dev) k => b.wr e.1 (e.2.1 + k) 0 (src.rd e.1 (e.2.1 + k) 0)) a) dst

/-- The always-on domain starts again: everything but flash, the supplies, the sensors and the pins is at its reset value. Any reset of the
module, the one written to `mod.reset` too, ends the hold after a rail that failed to regulate (R84; DESIGN CHOICE, log entry 39). -/
def Dev.coldStart (d : Dev) : Dev :=
  d.copyEntries flashEntries
    { now := d.now, drawn := d.drawn,
      hw := { d.hw with
        pwrGood := false, regulators := false, startHeld := false, throttling := false, thermLow := false
        railFailed := false, resetWritten := none },
      boot := { images := d.boot.images, preferred := d.boot.preferred }, tb := { hops := d.tb.hopsFlash, hopsFlash := d.tb.hopsFlash }, flt := { log := d.flt.log, logSeq := d.flt.logSeq },
      cal := { saved := d.cal.saved } }

/-- Entries of the always-on domain, which a reset leaves: the arrays, the trackers, the loop and the counter (R320, R333). -/
def alwaysOn : List (Nat × Nat × Nat) :=
  [(Ix.hwBypassState, 1, 2), (Ix.tbRefState, 1, 2), (Ix.tbLoopState, 0, 0), (Ix.tbRefActive, 0, 0), (Ix.tbRefOffset, 1, 2), (Ix.tbAbPhase, 0, 0),
    (Ix.tbSwitchovers, 0, 0), (Ix.tbTimeState, 0, 0), (Ix.tbPpsOffset, 0, 0), (Ix.tbTimeSteps, 0, 0), (Ix.tbSlewPs, 0, 0)]

/-- A reset of the module (R72): core off, relays released, arrays through, on-die state lost; trims, flash and the time
counter stay; no power loss; the fault log records it as itself (R55). -/
def Dev.moduleReset (d : Dev) : Dev :=
  let d := d.coreOff.relaysRelease
  let e := d.coldStart
  (d.copyEntries alwaysOn { e with tb := d.tb, hw := { e.hw with lossFlag := false, lossPending := false } }).logEntry 0 d.time96 0xC 0xFF 0 0 0

/-- AUX_ENTER_RANGE: the always-on domain leaves reset; trims hold 0 V; straps and the CNV_PRSNT_N pins of ports 0 to 3 are sampled; 12 V that
came first is logged (R51, R53, R58, R59, R68). -/
def execAuxEnterRange (t straps converters : Nat) (s : State) : Res := run t s fun d =>
  if d.hw.auxIn then d else
    let d := { d with hw := { d.hw with auxIn := true, auxSince := d.now, auxQualified := false, trimOut := [], lossFound := d.hw.lossFlag } }
    let d := ((d.w0 Ix.modService 0).w0 Ix.pwrState 1).wr Ix.modSlotId 5 0 (straps % 1024 : Nat)
    let d := d.wr Ix.modSlotId 6 0 (converters % 16 : Nat)
    if d.hw.v12Early then d.raise 4 Code.auxSequence else d

/-- AUX_QUALIFIED: AUX has been in range for 1 ms, so the 12 V regulators may start (R53). -/
def execAuxQualified (t : Nat) (s : State) : Res := run t s fun d =>
  if d.hw.auxIn && d.hw.auxSince + ms 1 ≤ d.now then
    { d with hw := { d.hw with auxQualified := true, v12Early := false } }.startRegulators
  else d

/-- AUX_LOSS: the module stops completely; relays and arrays release, trim outputs decay to 0 V; a trip is cleared (R51, R61).
All on-die memory and DRAM contents go. -/
def execAuxLoss (t : Nat) (s : State) : Res := runMem t s fun m d =>
  if d.hw.auxIn then
    let d := d.coreOff.relaysRelease
    let e := d.coldStart
    ([], (d.copyEntries [(Ix.hwBypassState, 1, 2)] { e with
      hw := { e.hw with
        auxIn := false, auxQualified := false, v12Early := e.hw.v12Good, trip := false, trimOut := [], lossPending := false } }).w0 Ix.pwrState 0)
  else (m, d)

/-- V12_GOOD: 12 V lies between the thresholds; the core start proceeds, or is held off before AUX is qualified (R53, R54). The flash flag of
R55 is on AUX, and is set where that is in. -/
def execV12Good (t : Nat) (s : State) : Res := run t s fun d =>
  if d.hw.v12Good then d else
    let d := { d with hw := { d.hw with v12Good := true, lossFlag := d.hw.lossFlag || d.hw.auxIn } }
    if d.hw.auxQualified then d.startRegulators
    else
      let d := { d with hw := { d.hw with v12Early := true } }
      if d.hw.auxIn then d.raise 4 Code.auxSequence else d

/-- 12 V leaves the thresholds of R51 on either side: the core shuts down. DRAM loses its contents. -/
def Dev.v12Lost (d : Dev) (m : Mem) : Mem × Dev :=
  let up := d.hw.pwrGood
  let d := { d with hw := { d.hw with v12Good := false, v12Early := false, regulators := false, startHeld := false } }
  if up then ([], d.powerLost) else (m, d)

/-- V12_BROWNOUT: 12 V below 10.8 V (R54). -/
def execV12Brownout (t : Nat) (s : State) : Res := runMem t s fun m d => d.v12Lost m

/-- V12_OVERVOLTAGE: 12 V above 13.2 V acts exactly as a brown-out (R51). -/
def execV12Overvoltage (t : Nat) (s : State) : Res := runMem t s fun m d => d.v12Lost m

/-- The regulation window of a rail in millivolts (Table 2.15). -/
def railWindow (rail : Nat) : Nat × Nat :=
  if rail = 3 then (728, 772) else if rail = 4 || rail = 5 then (873, 927) else if rail = 6 || rail = 7 then (1067, 1133)
  else if rail = 8 then (3135, 3465) else (0, 65535)

/-- RAIL_OUT_OF_REGULATION: a rail's voltage and current are measured; a powered rail outside its window drops PWR_GOOD, and the core stays off
until the next RESET_N (R54, R497, Table 3.5). -/
def execRailOutOfRegulation (t rail milliVolt centiAmp : Nat) (s : State) : Res :=
  runMemIf (1 ≤ rail && rail ≤ 8) t s fun m d =>
    let d := (d.wI Ix.hwRailMv (rail - 1) milliVolt).wI Ix.hwRailMa (rail - 1) centiAmp
    let w := railWindow rail
    let powered := d.hw.regulators || d.hw.pwrGood || (rail = 3 && d.hw.auxIn)
    if !powered || (w.1 ≤ milliVolt && milliVolt ≤ w.2) then (m, d)
    else
      let up := d.hw.pwrGood
      let d := { d with hw := { d.hw with railFailed := true, regulators := false } }
      if up then ([], d.powerLost) else (m, d.raise 4 Code.railFault)

/-- POWER_LOSS_LOG_WRITE: the power-loss entry is written and the flag cleared; a start that waited for it proceeds, and sets the flag again
(R55, Table 2.14; log entry 37). -/
def execPowerLossLogWrite (t : Nat) (s : State) : Res := run t s fun d =>
  if d.hw.lossPending then
    let d := d.logEntry Code.railFault d.time96 0xC 0xFF 5 0 0
    { d with hw := { d.hw with lossPending := false, lossFlag := false } }.startRegulators
  else d

/-- RESET_N_ASSERT: low for 12 or more filter samples resets the module; a shorter low is ignored (R57, R72). -/
def execResetNAssert (t samples : Nat) (s : State) : Res := runMem t s fun m d =>
  if samples < 12 || !d.hw.auxIn then (m, d)
  else
    let d := d.moduleReset
    ([], { d with hw := { d.hw with resetLow := true } })

/-- RESET_N_RELEASE: the engine restarts from the top of the start-up sequence; straps are sampled, a trip is cleared (R58, R61, R72). -/
def execResetNRelease (t straps : Nat) (s : State) : Res := run t s fun d =>
  if d.hw.resetLow then
    let d := { d with hw := { d.hw with resetLow := false, trip := false, railFailed := false } }
    (d.wr Ix.modSlotId 5 0 (straps % 1024 : Nat)).startRegulators
  else d

/-- MOD_RESET: writing 0x01 to `mod.reset` resets the module (R72). -/
def execModReset (t path : Nat) (s : State) : Res := runMem t s fun m d =>
  if d.sup.running && d.pathOpen path then
    let d := (d.command path Ix.modReset 0 1 id).moduleReset
    ([], { d with hw := { d.hw with resetWritten := some d.now } })
  else (m, d.command path Ix.modReset 0 1 id)

/-- MOD_RESET_RESTART: 10 ms after the write the engine restarts from the top of Table 3.1, the straps sampled as at a release of RESET_N (R72;
DESIGN CHOICE, log entry 38). -/
def execModResetRestart (t straps : Nat) (s : State) : Res := run t s fun d =>
  match d.hw.resetWritten with
  | some w =>
    if w + ms 10 ≤ d.now then
      let d := { d with hw := { d.hw with resetWritten := none } }
      (d.wr Ix.modSlotId 5 0 (straps % 1024 : Nat)).startRegulators
    else d
  | none => d

/-- THERMAL_THROTTLE: the sensors read; where the hottest die sensor reaches the threshold THERM_N goes low and the degradation is announced
(R61, R68). While the Supervisor is away hardware moves the shared islands to P3 (R447). -/
def execThermalThrottle (t : Nat) (temp : Int) (others : List Int) (s : State) : Res := run t s fun d =>
  let d := (d.dieReads temp).sensorsRead others
  if d.rd Ix.hwTempThrottle 0 0 ≤ temp && !d.hw.throttling && d.hw.pwrGood then
    let d := d.raise 4 Code.thermalThrottle
    let d := { d with hw := { d.hw with throttling := true, thermLow := true } }
    let d := if d.sup.running then d
      else { d with pwr := { d.pwr with want := [6, 7, 8, 9, 0xA, 0xB, 0xC].foldl (fun l i => Tab.put l i 3) d.pwr.want } }
    (d.happen (.degradation 0xC [])).degradedBit 5 true
  else d

/-- THERMAL_TRIP: at 110 °C the core shuts down and the trip is held in the always-on domain (R61). -/
def execThermalTrip (t : Nat) (temp : Int) (s : State) : Res := runMem t s fun m d =>
  let d := d.wr Ix.hwTemp 2 0 temp
  if d.rd Ix.hwTempTrip 0 0 ≤ temp && d.hw.pwrGood then
    let d := d.coreOff.fault 5 Code.thermalTrip 0xC 0xFF 0 0
    ([], { d with hw := { d.hw with trip := true, lossFlag := false } })
  else (m, d)

/-- HW_RESTART: accepted only while a trip is in force and the die reads below 90 °C (R61). -/
def execHwRestart (t path : Nat) (s : State) : Res := run t s fun d =>
  d.command path Ix.hwRestart 0 1 fun d =>
    if d.hw.trip && d.dieTemp < startTemp then
      { d with hw := { d.hw with trip := false } }.startRegulators
    else d.refuse path Ix.hwRestart 0 Code.restartRefused

/-- DIE_COOL_START: a held start proceeds once the die reads below 90 °C (R61). -/
def execDieCoolStart (t : Nat) (temp : Int) (s : State) : Res := run t s fun d =>
  let d := d.dieReads temp
  if d.hw.startHeld then d.startRegulators else d

/-- The highest inlet of a grade, in sixteenths of a degree (Table 2.11). -/
def Dev.inletMax (d : Dev) : Int := if d.rd Ix.modGrade 2 0 = 0 then 640 else 880

/-- INLET_OVER_GRADE: logged once per excursion, no other action (R61). -/
def execInletOverGrade (t : Nat) (temp : Int) (s : State) : Res := run t s fun d =>
  let d := d.wr Ix.hwTemp 1 0 temp
  if d.inletMax < temp then
    if d.hw.inletOver then d else { d with hw := { d.hw with inletOver := true } }.raise 4 Code.inletOverGrade
  else { d with hw := { d.hw with inletOver := false } }

/-- An array may be driven: 12 V good, no reset, no trip (R62). -/
def Dev.mayDrive (d : Dev) : Bool := d.hw.pwrGood && d.hw.v12Good && !d.hw.resetLow && !d.hw.trip

/-- The Course Fabric asks for an array's insertion; a forced array refuses (R63, R64). -/
def Dev.insertArray (d : Dev) (dim : Nat) : Dev :=
  if d.nI Ix.hwBypassForce dim = 1 then d.raise 4 Code.bypassForced
  else if d.mayDrive && (d.nI Ix.hwBypassState dim = 0 || d.nI Ix.hwBypassState dim = 3) then
    { (d.wI Ix.hwBypassState dim 1) with
      hw := { d.hw with driven := d.hw.driven.set false dim true, moving := d.hw.moving.put dim d.now } }
  else d

/-- BYPASS_INSERT (R63, R64). -/
def execBypassInsert (t dim : Nat) (s : State) : Res := runIf (dim < 2) t s fun d => d.insertArray dim

/-- BYPASS_RELEASE (R62). -/
def execBypassRelease (t dim : Nat) (s : State) : Res := runIf (dim < 2) t s fun d => d.releaseArray dim

/-- Link discovery is complete once every ring port is in hello, up, refused or down, or is dark, a port whose dimension is in the through
state among them, unless the module is yet to insert it by itself at the start of rushes service: bit 11 of `mod.bringup` (R80, R372). -/
def Dev.foundReport (d : Dev) : Dev :=
  let toCome (dim : Nat) : Bool := d.boot.autoJoin == 1 && !d.boot.autoDone && d.nI Ix.hwBypassForce dim != 1
  let settled (k : Nat) : Bool :=
    decide (2 ≤ d.nI Ix.cfPortState k) || d.boot.dark.contains k || (d.nI Ix.hwBypassState (k / 2) == 0 && !toCome (k / 2))
  if d.service = 0 || d.service = 5 || !(List.range 4).all settled then d
  else d.w0 Ix.modBringup (setBitTo (d.n0 Ix.modBringup) 11 true)

/-- The ring ports of a dimension follow its array: they train once it is inserted, and are through with it; `cf.state` follows both
arrays (R373, R391). -/
def Dev.portsFollow (d : Dev) (dim : Nat) : Dev :=
  let inn := d.nI Ix.hwBypassState dim = 2
  let st (k : Nat) : Nat := if !inn then 0 else if d.boot.failed.contains (0x200 + k) then 5 else 1
  let d := (d.wI Ix.cfPortState (2 * dim) (st (2 * dim))).wI Ix.cfPortState (2 * dim + 1) (st (2 * dim + 1))
  let d := { d with boot := { d.boot with inserted := if inn then d.boot.inserted.put dim d.now else d.boot.inserted.del dim } }.foundReport
  let both (st : Nat) : Bool := (List.range 2).all (fun k => d.nI Ix.hwBypassState k == st || (st == 2 && !d.hw.driven.get false k))
  if d.n0 Ix.cfState = 1 && both 2 then d.w0 Ix.cfState 2
  else if d.n0 Ix.cfState = 5 && both 0 then d.w0 Ix.cfState 0
  else d

/-- BYPASS_TRANSITION_DONE: the array reaches its commanded state and its change is counted (R63). -/
def execBypassTransitionDone (t dim : Nat) (s : State) : Res := runIf (dim < 2) t s fun d =>
  let st := d.nI Ix.hwBypassState dim
  if (d.hw.moving.find? dim).isSome then
    let d := { d with hw := { d.hw with moving := d.hw.moving.del dim } }
    ((d.wI Ix.hwBypassState dim (if st = 1 then 2 else 0)).incI Ix.hwBypassCycles dim).portsFollow dim
  else d

/-- BYPASS_STUCK: not in its commanded state in 10 ms: reported stuck and driven back to through (R63). -/
def execBypassStuck (t dim : Nat) (s : State) : Res := runIf (dim < 2) t s fun d =>
  match d.hw.moving.find? dim with
  | some w =>
    if w + ms 10 ≤ d.now && d.nI Ix.hwBypassState dim != 4 then
      let d := { d with hw := { d.hw with driven := d.hw.driven.set false dim false, moving := d.hw.moving.put dim d.now } }
      (d.wI Ix.hwBypassState dim 4).fault 4 Code.bypassStuck 0xB dim 0 0
    else d
  | none => d

/-- An array is forced to the through state (R64). -/
def Dev.forceArray (d : Dev) (dim : Nat) : Dev := (d.wI Ix.hwBypassForce dim 1).releaseArray dim

/-- HW_BYPASS_FORCE: writing 1 holds the array in the through state, returning it at once (R64). -/
def execHwBypassForce (t path dim : Nat) (s : State) : Res := runEntry (dim < 2) path Ix.hwBypassForce (dim + 1) 1 t s fun d =>
  d.command path Ix.hwBypassForce (dim + 1) 1 fun d => d.forceArray dim

/-- ECAT_WATCHDOG_EXPIRY: the slave controller's own watchdog releases the relays (R65). -/
def execEcatWatchdogExpiry (t : Nat) (s : State) : Res := run t s fun d => d.relaysRelease

/-- RELAY_FAULT: the relay state disagrees with its drive after 4 ms (R69). -/
def execRelayFault (t : Nat) (s : State) : Res := run t s fun d => d.raise 4 Code.relayFault

/-- ECAT_SLAVE_READY: the slave enters INIT, PRE-OP where the Supervisor runs, and its relays are energised (R65, Table 3.1). -/
def execEcatSlaveReady (t : Nat) (s : State) : Res := run t s fun d =>
  if d.hw.auxIn && !d.hw.resetLow && d.sup.al = .away then
    { (d.w0 Ix.hwEcatRelay 1) with sup := { d.sup with al := if d.sup.running then .preop else .init, alStatus := 0, alError := false } }
  else d

end Sys2Proof.Machine
end

