-- ==== Sys2Proof/Machine/Packets.lean ====
section
/-! DEFINITION. Course Fabric: packets, the map, routes, and what leaves a module (14_course_fabric.md, R366 to R389). -/

namespace Sys2Proof.Machine

/-- CRC-32 of bytes, the reflected polynomial 0xEDB88320 (PRESUMED, log entry 11). -/
def crcByte (crc : Nat) (b : Byte) : Nat :=
  (List.range 8).foldl (fun c _ => if c % 2 = 1 then Nat.xor (c / 2) 0xEDB88320 else c / 2) (Nat.xor crc b.toNat)
def crc32 (l : List Byte) : Nat := Nat.xor (l.foldl crcByte 0xFFFFFFFF) 0xFFFFFFFF

/-- The slot identity of this module (R58). -/
def Dev.slotIdent (d : Dev) : Nat := (d.rd Ix.modSlotId 5 0).toNat

def Dev.cfPort (d : Dev) (k : Nat) : CfPort := d.cf.ports.get {} k
def Dev.setCfPort (d : Dev) (k : Nat) (x : CfPort) : Dev := { d with cf := { d.cf with ports := d.cf.ports.set {} k x } }
def Dev.portState (d : Dev) (k : Nat) : Nat := d.nI Ix.cfPortState k
def Dev.joined (d : Dev) : Bool := d.n0 Ix.cfState == 4 && d.fullService

/-- A Course Fabric event record (R395). -/
def Dev.cfEvent (d : Dev) (kind obj a b : Nat) : Dev := d.event 0xB 0x1300 kind obj d.time96 a b

/-! ### Packets (R371) -/

/-- Word 0 of a packet (Table 14.2). -/
def CfPkt.word0 (p : CfPkt) : Nat :=
  p.kind % 256 * 2 ^ 56 + p.hops % 256 * 2 ^ 48 + p.origin % 1024 * 2 ^ 38 + p.dest % 1024 * 2 ^ 28 + p.scope % 4 * 2 ^ 26 +
    p.ring % 2 * 2 ^ 25 + p.dir % 2 * 2 ^ 24 + p.seq % 2 ^ 24

/-- Word 1 of a packet: body length, and CRC-32 of word 0 and the body. -/
def CfPkt.word1 (p : CfPkt) : Nat := p.body.length * 2 ^ 32 + crc32 (leBytes 8 p.word0 ++ p.body)

/-- A packet as it arrives; none where the length or the CRC is wrong (R371). -/
def pktOf (w0 w1 : Nat) (body : List Byte) : Option CfPkt :=
  if w1 / 2 ^ 32 % 2 ^ 32 = body.length && w1 % 2 ^ 32 = crc32 (leBytes 8 (w0 % 2 ^ 64) ++ body) then
    some { kind := bitsOf 63 56 w0, hops := bitsOf 55 48 w0, origin := bitsOf 47 38 w0, dest := bitsOf 37 28 w0, scope := bitsOf 27 26 w0
           ring := bitsOf 25 25 w0, dir := bitsOf 24 24 w0, seq := bitsOf 23 0 w0, body := body }
  else none

/-- Words of a body, and a body of words. -/
def CfPkt.word (p : CfPkt) (i : Nat) : Nat := ofLeBytes ((p.body.drop (8 * i)).take 8)
def wordsBody (l : List Nat) : List Byte := (l.map (fun w => leBytes 8 (w % 2 ^ 64))).flatten

/-- The TIME96 in two words of a body. -/
def CfPkt.timeAt (p : CfPkt) (i : Nat) : Nat := p.word i % two48 * two48 + p.word (i + 1) % two48

/-! ### Slots (R368, R369) -/

/-- The class of a packet, and the 36-byte slots it takes. -/
def CfPkt.cls (p : CfPkt) : Nat := p.kind / 16
def CfPkt.slots (p : CfPkt) : Nat := ceilDiv (16 + p.body.length) 36

/-- The number of the slot that is on a port at an instant of module time: 625 to a microsecond. -/
def slotAt (now : Nat) : Nat := now * 625000000 / two48

/-- Whether a port may send a slot of a class: at most 78 of the reserved classes in a superframe, data only while the next module has
returned space (R369). -/
def CfPort.may (x : CfPort) (cls : Nat) : Bool :=
  if cls ≤ 2 then x.reserved.1 != x.slot / 625 || decide (x.reserved.2 < 78) else cls != 5 || decide (0 < x.credit)

/-- What leaves at a slot boundary: the packet in progress, or the next, of the highest class that has a slot ready (R369). -/
def CfPort.pick (x : CfPort) : Option (CfPkt × Nat) :=
  [1, 2, 3, 4, 5].findSome? fun c => if x.may c then x.ready.find? (fun q => q.1.cls == c) else none

/-- The slot that a packet sends: its header, and the port after it. -/
def CfPort.emit (x : CfPort) (p : CfPkt) (left : Nat) : CfPort :=
  let last := left == 1
  let used := if last then 16 + p.body.length - 36 * (p.slots - 1) else 36
  let credit := min x.owed 0xFFFF
  let header := p.cls * 2 ^ 28 + (if left = p.slots then 2 ^ 27 else 0) + (if last then 2 ^ 26 else 0) + (used - 1) * 2 ^ 20 + credit
  let sf := x.slot / 625
  { x with
    ready := if last then x.ready.erase (p, left) else x.ready.map (fun q => if q == (p, left) then (p, left - 1) else q)
    slot := x.slot + 1, owed := x.owed - credit, credit := if p.cls = 5 then x.credit - 1 else x.credit
    reserved := if p.cls ≤ 2 then (sf, (if x.reserved.1 = sf then x.reserved.2 else 0) + 1) else x.reserved
    line := x.line ++ [⟨x.slot, header, p⟩] }

/-- A port sends slot by slot up to an instant; where it has none ready the slots pass idle. -/
def servePort (upTo : Nat) : Nat → CfPort → CfPort
  | 0, x => x
  | k + 1, x =>
    if upTo ≤ x.slot then x
    else match x.pick with
      | some q => servePort upTo k (x.emit q.1 q.2)
      | none =>
        -- reserved slots held to their allowance wait for the next superframe
        let next := (x.slot / 625 + 1) * 625
        if x.ready.any (fun q => q.1.cls ≤ 2) && next < upTo then servePort upTo k { x with slot := next } else { x with slot := upTo }

/-- The line of a port is brought up to the present. -/
def Dev.cfLine (d : Dev) (port : Nat) : Dev :=
  let x := d.cfPort port
  d.setCfPort port (servePort (slotAt d.now) (2 * (x.ready.map (·.2)).sum + 2) x)

/-- A packet is given to a port, where it waits for its slots; bytes of the data class are counted. -/
def Dev.cfSend (d : Dev) (port : Nat) (p : CfPkt) : Dev :=
  let d := d.cfLine port
  let d := d.setCfPort port { d.cfPort port with ready := (d.cfPort port).ready ++ [(p, p.slots)] }
  let d := { d with cf := { d.cf with sent := d.cf.sent ++ [(port, p)] } }
  if 0x50 ≤ p.kind then d.incI Ix.cfPortBytes port (16 + p.body.length) else d

/-- The same packet on every port in a state of a list, but one. -/
def Dev.cfFlood (d : Dev) (but : Nat) (p : CfPkt) : Dev :=
  (List.range 4).foldl (fun (a : Dev) k => if k != but && a.portState k == 3 then a.cfSend k p else a) d

/-! ### The map and routes (R374, R378, R381, R386, R389) -/

/-- A module in the map; this module's own entry follows its ports. -/
def Dev.cfNode (d : Dev) (ident : Nat) : CfNode :=
  if ident = d.slotIdent then
    { seq := d.n0 Ix.cfTopologySeq, ports := (List.range 4).map (fun k => (d.portState k, d.nI Ix.cfNeighbour k)), prio := d.n0 Ix.cfKeystonePrio
      left := d.n0 Ix.cfState == 5 }
  else d.cf.nodes.get {} ident

/-- Whether a module has joined: its link state is in the map and it is not leaving. -/
def Dev.cfKnown (d : Dev) (b : Nat) : Bool := b == d.slotIdent || (!(d.cfNode b).ports.isEmpty && !(d.cfNode b).left)

/-- The modules next to a module: over its ports that are up, to modules in the map that are not routed round. -/
def Dev.cfNext (d : Dev) (ident : Nat) : List Nat :=
  let n := d.cfNode ident
  if n.left then [] else
    (n.ports.filter (fun p => p.1 == 3)).map (fun p => p.2) |>.filter (fun b => d.cfKnown b && !d.cf.avoided.contains b)

/-- Distances from the modules of a front outwards. -/
def spread (next : Nat → List Nat) : Nat → List Nat → Nat → Tab Nat → Tab Nat
  | 0, _, _, dist => dist
  | k + 1, front, n, dist =>
    let new := ((front.map next).flatten.dedup).filter (fun b => (Tab.find? dist b).isNone)
    if new.isEmpty then dist else spread next k new (n + 1) (new.foldl (fun t b => Tab.put t b (n + 1)) dist)

/-- Distances from a module in links. -/
def Dev.cfDist (d : Dev) (src : Nat) : Tab Nat := spread d.cfNext 1024 [src] 0 [(src, 0)]

/-- Whether the module of a slot identity has joined and can be reached (R295, R386). -/
def Dev.remoteJoined (d : Dev) (ident : Nat) : Bool :=
  d.joined && !d.cf.suspended && d.slotIdent != ident && ((d.cfDist d.slotIdent).find? ident).isSome

/-- The port an addressed packet leaves by: towards the neighbour nearest to its destination, the lowest port of several. -/
def Dev.cfRoute (d : Dev) (dest : Nat) : Option Nat :=
  let dist := d.cfDist dest
  (List.range 4).foldl (fun (b : Option (Nat × Nat)) k =>
    if d.portState k != 3 || d.cf.avoided.contains (d.nI Ix.cfNeighbour k) then b
    else match dist.find? (d.nI Ix.cfNeighbour k) with
      | none => b
      | some n => match b with
        | some x => if n < x.2 then some (k, n) else b
        | none => some (k, n)) none |>.map (fun x => x.1)

/-- An addressed packet leaves on the present route, if there is one. -/
def Dev.cfSendTo (d : Dev) (p : CfPkt) : Dev := match d.cfRoute p.dest with | some k => d.cfSend k p | none => d

/-- How many modules follow in one direction of a ring before a break, and whether the ring closes on this module. -/
def walkRing (d : Dev) (port : Nat) : Nat → Nat → Nat → Nat × Bool
  | 0, _, n => (n, false)
  | k + 1, at_, n =>
    let p := (d.cfNode at_).ports.getD port (0, 0xFFFF)
    if p.1 != 3 || d.cf.avoided.contains p.2 || !d.cfKnown p.2 then (n, false)
    else if p.2 = d.slotIdent then (n, true)
    else walkRing d port k p.2 (n + 1)

/-- Hops of the two copies on a ring (0 course, 1 perpend), largest hops of the ring, and whether it is whole (R381, Table 14.4). -/
def Dev.ringHops (d : Dev) (ring : Nat) : Nat × Nat × Nat :=
  let a := walkRing d (2 * ring) 32 d.slotIdent 0
  if a.2 then ((a.1 + 1) / 2, a.1 - (a.1 + 1) / 2, (a.1 + 1) / 2)
  else
    let b := walkRing d (2 * ring + 1) 32 d.slotIdent 0
    (a.1, b.1, a.1 + b.1)

/-- The two copies of a packet on one ring. -/
def Dev.sendRing (d : Dev) (ring : Nat) (p : CfPkt) : Dev :=
  let h := d.ringHops ring
  let d := if 0 < h.1 then d.cfSend (2 * ring) { p with hops := h.1, ring := ring, dir := 0 } else d
  if 0 < h.2.1 then d.cfSend (2 * ring + 1) { p with hops := h.2.1, ring := ring, dir := 1 } else d

/-- A packet of course or system scope leaves its origin (R381). -/
def Dev.sendScope (d : Dev) (p : CfPkt) : Dev :=
  let d := d.sendRing 0 p
  if p.scope = 2 then d.sendRing 1 p else d

/-- A copy travels on: along its ring while hops remain, and from a course into the perpends in system scope (R381). -/
def Dev.forwardScope (d : Dev) (p : CfPkt) : Dev :=
  let port := 2 * p.ring + p.dir
  let d := if 1 < p.hops && d.portState port = 3 then d.cfSend port { p with hops := p.hops - 1 } else d
  if p.scope = 2 && p.ring = 0 then d.sendRing 1 p else d

/-- A fabric event packet of system scope (R384). -/
def Dev.cfAnnounce (d : Dev) (kind port a : Nat) : Dev :=
  if d.joined then
    d.sendScope { kind := 0x21, origin := d.slotIdent, scope := 2,
                  body := wordsBody [kind * 2 ^ 56 + port * 2 ^ 48 + a % two48, sec48 d.time96, frac48 d.time96] }
  else d

/-! ### Fires to be broadcast (R381, R382) -/

/-- A fire of a chain is broadcast: it takes a sequence and waits to leave; one too many is dropped (R382, R393). -/
def Dev.bcastFire (d : Dev) (chain time : Nat) : Dev :=
  let ident := d.nI Ix.trgChainBcast chain
  if 255 < ident || !d.joined then d
  else
    let scope := d.nI Ix.cfBcastScope chain
    let seq := d.cf.fireSeq
    let d := { d with cf := { d.cf with fireSeq := (seq + 1) % 2 ^ 24 } }
    if d.cf.suspended || 4 ≤ (d.cf.fires.filter (fun f => f.scope == scope)).length then
      ({ d with cf := { d.cf with dropped := d.cf.dropped + 1 } }.inc0 Ix.cfBcastDropped).raise 4 Code.cfBcastDropped
    else
      { d with cf := { d.cf with fires := d.cf.fires ++ [⟨scope, ident, time, d.now, seq, min d.cf.dropped 0xFFFF⟩], dropped := 0 } }

/-! ### Data (R386, R387) -/

/-- A data packet takes the next sequence of its destination and leaves; it is kept until it is acknowledged. -/
def Dev.cfData (d : Dev) (dest kind : Nat) (body : List Byte) (frees : Option (Nat × Nat)) : Dev :=
  let x := d.cf.tx.get {} dest
  let p : CfPkt := { kind := kind, hops := 255, origin := d.slotIdent, dest := dest, scope := 3, seq := x.next, body := body }
  let d := { d with cf := { d.cf with tx := d.cf.tx.put dest { x with next := (x.next + 1) % 2 ^ 24, unacked := x.unacked ++ [({ pkt := p, sent := d.now, frees := frees } : CfSeg)] } } }
  d.cfSendTo p

/-- Bytes in pieces of at most 1,024. -/
def pieces : Nat → List Byte → List (List Byte)
  | 0, _ => []
  | k + 1, l => if l.length ≤ 1024 then [l] else l.take 1024 :: pieces k (l.drop 1024)

/-- A record that a remote ring has written leaves for the ring it feeds; its last piece frees it (R386). -/
def Dev.cfRecord (d : Dev) (r offset bytesEnd : Nat) (bytes : List Byte) : Dev :=
  let base := d.nW Ix.strRingBase r
  let l := pieces bytes.length bytes
  (l.zipIdx).foldl (fun (a : Dev) p =>
    a.cfData (base / 2 ^ 32 % 1024) 0x50 (leBytes 8 (base % 65536 * two48 + (offset + 1024 * p.2) % two48) ++ p.1)
      (if p.2 + 1 = l.length then some (r, bytesEnd) else none)) d

end Sys2Proof.Machine
end

