-- ==== Sys2Proof/Machine/Hash.lean ====
section
/-! DEFINITION. The configuration hash (R408). -/

namespace Sys2Proof.Machine

/-- One bit of CRC-64 with the polynomial of R408, no reflection. -/
def crc64Bit (c : Nat) : Nat := if bitOf c 63 then Nat.xor (c * 2 % 2 ^ 64) 0x42F0E1EBA9EA3693 else c * 2 % 2 ^ 64

/-- One byte. -/
def crc64Byte (c : Nat) (b : Byte) : Nat := (List.range 8).foldl (fun c _ => crc64Bit c) (Nat.xor c (b.toNat * 2 ^ 56))

/-- CRC-64 of a string of bytes, with initial value 0 and no final XOR. -/
def crc64 (l : List Byte) : Nat := l.foldl crc64Byte 0

/-- Whether an entry is hashed: it takes effect at a cut, at the changeover cut or at restart. -/
def isHashed (e : Entry) : Bool := e.effect == .cut || e.effect == .changeover || e.effect == .restart

/-- Entries that act on the magazine a selector names (R398). -/
def isMagWindow (ix : Nat) : Bool := 0x3881 ≤ ix && ix ≤ 0x3895

/-- The in-force value of an entry: what takes effect at restart is in force as it was latched there. -/
def Dev.inForce (d : Dev) (e : Entry) (sub inst : Nat) : Int :=
  if e.effect = .restart then (if e.ix = Ix.modMemtest then d.boot.memtest else if e.ix = Ix.modBootSelect then d.boot.select else d.boot.autoJoin : Nat)
  else d.rd e.ix sub inst

/-- One item: index, subindex, the instance where a window has one, the value at its type's length. -/
def Dev.hashItem (d : Dev) (e : Entry) (sub : Nat) (inst : Option Nat) : List Byte :=
  leBytes 2 e.ix ++ leBytes 1 sub ++ (match inst with | some i => leBytes 4 i | none => []) ++
    leBytes (typeBytes e.ty) (toTwos (8 * typeBytes e.ty) (d.inForce e sub (inst.getD 0)))

/-- Subindices of an entry, without the count. -/
def Entry.subs (e : Entry) : List Nat := (List.range (e.subHi + 1 - e.subLo)).map (· + e.subLo)

/-- The instances of the values a table in force holds, by the entry behind its window (R408). -/
def Dev.tableInstances (d : Dev) (ix : Nat) : List Nat :=
  if ix = Ix.trgBpValue then (List.range 64).flatMap (fun m => (List.range (d.nI Ix.trgMaskBpCount m)).map (fun k => m * 65536 + k))
  else (List.range 16).flatMap (fun l => if d.nI Ix.speWindow l = 6 then (List.range (d.spe.layers.get {} l).userCount).map (fun k => l * 2 ^ 20 + k) else [])

/-- The bytes of a hashed entry. -/
def Dev.hashEntry (d : Dev) (e : Entry) : List Byte :=
  if isMagWindow e.ix then (List.range 256).flatMap (fun k => e.subs.flatMap (fun s => d.hashItem e s (some k)))
  else if e.ix = Ix.trgBpValue || e.ix = Ix.speUserCoef then (d.tableInstances e.ix).flatMap (fun i => d.hashItem e 0 (some i))
  else e.subs.flatMap (fun s => d.hashItem e s none)

/-- The configuration hash in force. -/
def Dev.configHash (d : Dev) : Nat := crc64 ((allRows.filter isHashed).flatMap d.hashEntry)

/-- Its low 48 bits, as records carry them. -/
def Dev.hash48 (d : Dev) : Nat := wrap48 d.configHash

end Sys2Proof.Machine
end

