-- ==== Sys2Proof/Machine/Intake.lean ====
section
/-! DEFINITION. Intake: converter links (04_intake.md). Link q = 4p + k is link k of port p; lane 16p + n is logical
lane n of port p. -/

namespace Sys2Proof.Machine

/-- A mode of Table 4.2: 64B/66B or not, L, M, F, S, N', largest N, largest sample rate, E. -/
structure ModeRow where
  is64 : Bool
  l : Nat
  m : Nat
  f : Nat
  s : Nat
  nTotal : Nat
  nMax : Nat
  fsMax : Nat
  e : Nat
deriving DecidableEq, Repr

/-- Table 4.2. -/
def modeRow (code : Nat) : Option ModeRow :=
  if code = 0x01 then some ⟨true, 16, 1, 2, 16, 16, 16, 25600000000, 1⟩
  else if code = 0x02 then some ⟨true, 16, 1, 3, 32, 12, 12, 25600000000, 3⟩
  else if code = 0x03 then some ⟨true, 16, 2, 2, 8, 16, 16, 12800000000, 1⟩
  else if code = 0x04 then some ⟨true, 16, 2, 3, 16, 12, 12, 12800000000, 3⟩
  else if code = 0x05 then some ⟨true, 8, 1, 2, 8, 16, 16, 12800000000, 1⟩
  else if code = 0x06 then some ⟨true, 8, 2, 2, 4, 16, 16, 6400000000, 1⟩
  else if code = 0x07 then some ⟨true, 4, 1, 2, 4, 16, 16, 6400000000, 1⟩
  else if code = 0x08 then some ⟨true, 4, 1, 3, 8, 12, 12, 6400000000, 3⟩
  else if code = 0x09 then some ⟨true, 4, 2, 2, 2, 16, 16, 3200000000, 1⟩
  else if code = 0x0A then some ⟨true, 4, 2, 3, 4, 12, 12, 3200000000, 3⟩
  else if code = 0x11 then some ⟨false, 16, 1, 2, 16, 16, 16, 12800000000, 0⟩
  else if code = 0x12 then some ⟨false, 16, 2, 2, 8, 16, 16, 6400000000, 0⟩
  else if code = 0x13 then some ⟨false, 4, 1, 2, 4, 16, 16, 3200000000, 0⟩
  else if code = 0x14 then some ⟨false, 4, 2, 2, 2, 16, 16, 1600000000, 0⟩
  else none

/-- Lanes of link k under a layout: first logical lane and how many; 0 where the layout gives no such link (Table 4.1). -/
def linkLanes (layout k : Nat) : Nat × Nat :=
  if layout = 1 then (if k = 0 then (0, 16) else (0, 0))
  else if layout = 2 then (if k = 0 then (0, 8) else if k = 2 then (8, 4) else if k = 3 then (12, 4) else (0, 0))
  else if layout = 3 then (4 * k, 4)
  else (0, 0)

/-- The lanes of link q in force, numbered over the module. -/
def Dev.lanesOf (d : Dev) (q : Nat) : List Nat :=
  let w := linkLanes (d.nI Ix.itkLayout (q / 4)) (q % 4)
  (List.range w.2).map (fun i => 16 * (q / 4) + w.1 + i)

/-- The link that uses a lane, if any. -/
def Dev.linkOf (d : Dev) (lane : Nat) : Option Nat :=
  ((List.range 4).map (fun k => 4 * (lane / 16) + k)).find? (fun q => (d.lanesOf q).contains lane)

def Dev.link (d : Dev) (q : Nat) : LinkSt := d.itk.links.get {} q
def Dev.setLink (d : Dev) (q : Nat) (x : LinkSt) : Dev := { d with itk := { d.itk with links := d.itk.links.set {} q x } }
def Dev.lane (d : Dev) (n : Nat) : LaneSt := d.itk.lanes.get {} n
def Dev.setLane (d : Dev) (n : Nat) (x : LaneSt) : Dev := { d with itk := { d.itk with lanes := d.itk.lanes.set {} n x } }
def Dev.linkState (d : Dev) (q : Nat) : Nat := d.nI Ix.itkLinkState q

/-! ### Physical lanes (R88, R106) -/

/-- The physical lane that feeds a logical lane: `itk.lane_map` never crosses ports. -/
def Dev.phys (d : Dev) (n : Nat) : Nat := 16 * (n / 16) + d.nI Ix.itkLaneMap n % 16

/-- The logical lanes that a physical lane feeds. -/
def Dev.naming (d : Dev) (ph : Nat) : List Nat := ((List.range 16).map (fun n => 16 * (ph / 16) + n)).filter (fun n => d.phys n == ph)

/-- The link that a physical lane belongs to, if any. -/
def Dev.linkOfPhys (d : Dev) (ph : Nat) : Option Nat := (d.naming ph).findSome? d.linkOf

/-- A count or a measurement of a physical lane is reported under the logical lanes that name it. -/
def Dev.perLane (d : Dev) (ph : Nat) (f : Dev → Nat → Dev) : Dev := (d.naming ph).foldl f d

/-- The status of a physical lane (Table 4.6), and the entries that report it. -/
def Dev.setStatus (d : Dev) (ph v : Nat) : Dev := (d.setLane ph { d.lane ph with status := v }).perLane ph fun a n => a.wI Ix.itkLaneStatus n v

/-- One bit of it. -/
def Dev.laneBit (d : Dev) (ph bit : Nat) (b : Bool) : Dev := d.setStatus ph (setBitTo (d.lane ph).status bit b)

/-- One bit of every lane of a link. -/
def Dev.laneBits (d : Dev) (q bit : Nat) (b : Bool) : Dev := (d.lanesOf q).foldl (fun (a : Dev) n => a.laneBit (a.phys n) bit b) d

/-- Whether every lane of a link has passed its calibration. -/
def Dev.calibrated (d : Dev) (q : Nat) : Bool := (d.lanesOf q).all (fun n => bitOf (d.lane (d.phys n)).status 0)

/-- Under another map the entries report other physical lanes; counts go on (R106). -/
def Dev.mapReport (d : Dev) : Dev :=
  (List.range 64).foldl (fun (a : Dev) n => (a.wI Ix.itkLaneStatus n (a.lane (a.phys n)).status).wI Ix.itkLaneArrival n (a.lane (a.phys n)).arrival) d

/-- A link enters a state of Table 4.3. What waited for its next release is gone; a link that starts again has lost its locks. -/
def Dev.linkEnter (d : Dev) (q st : Nat) : Dev :=
  let d := (d.wI Ix.itkLinkState q st).setLink q { d.link q with
    entered := d.now, noLockRaised := false, absentRaised := false, periodRaised := false, crcFlag := false, crcDrop := false }
  if st = 1 || st = 9 then ((d.laneBits q 2 false).laneBits q 4 false).laneBits q 5 false else d

/-- Whether a link's mode is a 64B/66B mode. -/
def Dev.is64 (d : Dev) (q : Nat) : Bool := match modeRow (d.nI Ix.itkMode q) with | some r => r.is64 | none => true

/-- SYNC_N of a port's output k: in 8B/10B modes it is asserted in state 2 only, on all four outputs for a wide link (R101). -/
def Dev.syncN (d : Dev) (p k : Nat) : Bool :=
  let on (q : Nat) : Bool := !(d.lanesOf q).isEmpty && !d.is64 q && d.linkState q == 2
  if d.nI Ix.itkLayout p = 1 then on (4 * p) else on (4 * p + k)

/-- The sample rate of a link in Hz. -/
def Dev.linkFs (d : Dev) (q : Nat) : Nat := d.nI Ix.itkFs q

/-- Time of sample i after an anchor at a rate in Hz: exact to half a unit, convergently rounded (R99). -/
def sampleTime (anchor i fs : Nat) : Nat := if fs = 0 then anchor else anchor + (roundEven ((i * two48 : Nat) : Int) fs).toNat

/-- How many samples at a rate fit between two instants, to the nearest. -/
def samplesBetween (a b fs : Nat) : Nat := (roundEven (((b - a) * fs : Nat) : Int) two48).toNat

/-- A gap of a link opens at an instant, unless one is open (R104, Table 4.8). -/
def Dev.openLinkGap (d : Dev) (q first cause : Nat) : Dev :=
  if (d.link q).gapFirst.isSome then d else d.setLink q { d.link q with gapFirst := some (first, cause) }

/-- The open gap of a link ends before a stamp: recorded with its exact length and counted (R104). -/
def Dev.closeLinkGap (d : Dev) (q stamp : Nat) : Dev :=
  match (d.link q).gapFirst with
  | some g =>
    let n := samplesBetween g.1 stamp (d.linkFs q)
    let d := d.setLink q { d.link q with gapFirst := none }
    (d.gap ⟨.link q, 1, g.1, stamp, n, 0, g.2⟩).incI Ix.itkGapSamples q n
  | none => d

/-- The instant of the next sample a link would release. -/
def Dev.nextStamp (d : Dev) (q : Nat) : Nat :=
  match (d.link q).anchor with
  | some a => sampleTime a (d.link q).index (d.linkFs q)
  | none => d.time96

/-- Multiblock-clock period in samples of a link: E × 256 octets per lane, or K frames. -/
def Dev.periodSamples (d : Dev) (q : Nat) : Nat :=
  match modeRow (d.nI Ix.itkMode q) with
  | some r => if r.is64 then r.e * 256 / r.f * r.s else d.nI Ix.itkK q * r.s
  | none => 1

/-- Whether a spacing in 3.2 GHz samples is within less than one sample of a multiple of a link's period (R96). -/
def Dev.conforms (d : Dev) (q spacing : Nat) : Bool :=
  let fs := d.linkFs q
  let p := d.periodSamples q * 3200000000
  let r := spacing * fs % p
  min r (p - r) < fs

/-- The links of a port that its layout provides. -/
def Dev.portLinks (d : Dev) (p : Nat) : List Nat := ((List.range 4).map (fun k => 4 * p + k)).filter (fun q => !(d.lanesOf q).isEmpty)

/-- Release margin and measured rate of an aligned link: arrivals, margin and suggestion are reported, and a link that
fails goes to state 8 (R94, R98). A link that fails both is reported with RELEASE_LATE alone: the spec gives no order (DESIGN CHOICE, log
entry 28). -/
def Dev.alignCheck (d : Dev) (q measured : Nat) (arrivals : List Nat) : Dev :=
  let d := ((d.lanesOf q).zip arrivals).foldl (fun (a : Dev) p =>
    (a.setLane (a.phys p.1) { a.lane (a.phys p.1) with arrival := p.2 }).wI Ix.itkLaneArrival p.1 p.2) d
  let offset := 8 * d.nI Ix.itkReleaseOffset q
  let latest := arrivals.foldl max 0
  let earliest := arrivals.foldl min (arrivals.headD 0)
  let d := d.wr Ix.itkReleaseMargin (q + 1) 0 ((offset : Int) - latest)
  let d := d.wI Ix.itkReleaseSuggest q (ceilDiv (latest + 64) 8)
  let d := d.setLink q { d.link q with checked := true }
  if offset < latest + 16 || earliest + 1000 < offset then (d.linkEnter q 8).raise 4 Code.releaseLate
  else if d.linkFs q * 100 < absDiff measured (d.linkFs q) * 1000000 then (d.linkEnter q 8).raise 4 Code.fsMismatch
  else d

/-- A link in state 1 that rushes service holds back: sub-ports 1 to 3 (R102). -/
def Dev.linkHeld (d : Dev) (q : Nat) : Bool := d.inRushes && q % 4 != 0

/-- TIME96 of the first sample under full service; 0 before (R83). -/
def Dev.fullFrom (d : Dev) : Nat := if d.fullService then d.nI Ix.modChangeoverSec 0 * two48 + d.nI Ix.modChangeoverSec 1 else 0

/-- A link whose output is suspended: by the changeover gap (R83), or by a repointing of it or of its real-to-complex section (R134, Table 19.4). -/
def Dev.linkSuspended (d : Dev) (q : Nat) : Bool :=
  d.boot.gapOpen.isSome || match d.flt.repoint with
  | some r => r.out && ((r.isl == 1 && r.inst == q) || (r.isl == 2 && r.inst == 0x40 + q))
  | none => false

/-- A physical lane has been calibrated, or is marked faulty and its link goes down (R102, Table 4.3). -/
def Dev.laneCalibrated (d : Dev) (lane : Nat) (ok : Bool) : Dev :=
  let d := (d.setLane lane { d.lane lane with calFailed := !ok }).laneBit lane 0 ok
  match d.linkOfPhys lane with
  | none => if ok then d else (d.fault 3 Code.laneCalFail 1 lane 0 0).happen (.laneFault lane)
  | some q =>
    let d := d.setLink q { d.link q with calAt := d.now }
    if ok then d
    else
      let d := (d.fault 3 Code.laneCalFail 1 lane 0 0).happen (.laneFault lane)
      if d.linkState q = 1 then d.linkEnter q 7 else d

/-- LANE_CALIBRATION_DONE (R102). -/
def execLaneCalibrationDone (t lane : Nat) (ok : Bool) (s : State) : Res := runIf (lane < 64) t s fun d => d.laneCalibrated lane ok

/-- Whether the lanes that rushes service works with, 0 to 3 of each port, have ended their calibration (R102). -/
def Dev.rushesLanes (d : Dev) : Bool :=
  (List.range 16).all (fun k => let x := d.lane (16 * (k / 4) + k % 4); bitOf x.status 0 || x.calFailed)

/-- LANE_CDR_LOCK: all lanes show CDR lock, state 1 to 2 (Table 4.3). -/
def execLaneCdrLock (t link : Nat) (s : State) : Res := runIf (link < 16) t s fun d =>
  if d.linkState link = 1 && d.calibrated link && !d.linkHeld link then
    ((d.laneBits link 1 true).laneBits link 2 true).linkEnter link 2
  else d

/-- LANE_LOCK: all lanes locked, state 2 to 3 (Table 4.3). In state 9 the lanes that are checked lock onto the pattern, and `prbs` gives
the bit errors found on each since the last (Tables 4.5, 4.6). -/
def execLaneLock (t link : Nat) (prbs : List (Nat × Nat)) (s : State) : Res := runIf (link < 16) t s fun d =>
  if d.linkState link = 2 then (d.laneBits link 4 true).linkEnter link 3
  else if d.linkState link = 9 then
    let d := ((d.lanesOf link).filter (fun n => d.nI Ix.itkPrbs n != 0)).foldl (fun (a : Dev) n => a.laneBit (a.phys n) 3 true) d
    prbs.foldl (fun (a : Dev) p => a.perLane p.1 fun a n => if a.nI Ix.itkPrbs n = 0 then a else a.incI Ix.itkPrbsErrors n p.2) d
  else d

/-- What the ILAS of a link must announce: L, M, F, S, N', N, K and scrambling (Table 4.3). -/
def Dev.ilasWanted (d : Dev) (q : Nat) : List Nat :=
  match modeRow (d.nI Ix.itkMode q) with
  | some r => [r.l, r.m, r.f, r.s, r.nTotal, d.nI Ix.itkN q, d.nI Ix.itkK q, d.nI Ix.itkScramble q]
  | none => []

/-- MULTIBLOCK_LOCK: from state 3 to 8 where the ILAS received disagrees, to 5 if the multiblock clock is kept, else to 4 (Table 4.3, R97). -/
def execMultiblockLock (t link measured : Nat) (arrivals ilas : List Nat) (s : State) : Res :=
  runIf (link < 16) t s fun d =>
    if d.linkState link = 3 then
      if !d.is64 link && ilas != d.ilasWanted link then (d.linkEnter link 8).raise 4 Code.ilasMismatch
      else
        let d := d.laneBits link 5 true
        if (d.link link).clock.isSome && !(d.link link).gridMoved then
          let d := (d.laneBits link 7 false).linkEnter link 5
          (d.setLink link { d.link link with anchor := none, index := 0 }).alignCheck link measured arrivals
        else
          let d := d.linkEnter link 4
          d.setLink link { d.link link with clock := none }
    else d

/-- LINK_NO_LOCK: a link 10 ms in state 1, 2 or 3 raises LINK_NO_LOCK once, or SHS_MODE; in state 1 they count from when its last lane
is calibrated (R100). -/
def execLinkNoLock (t link : Nat) (headersValid : Bool) (s : State) : Res := runIf (link < 16) t s fun d =>
  let st := d.linkState link
  let x := d.link link
  let since := if st = 1 then max x.entered x.calAt else x.entered
  if (st = 1 && d.calibrated link || st = 2 || st = 3) && !x.noLockRaised && since + ms 10 ≤ d.now && !d.linkHeld link then
    (d.setLink link { x with noLockRaised := true }).raise 4 (if st = 3 && d.is64 link && headersValid then Code.shsMode else Code.linkNoLock)
  else d

/-- A link's multiblock clock is set from an edge; its TIME96 is kept (R96, R97). -/
def Dev.setClock (d : Dev) (q sample : Nat) : Dev :=
  let d := d.setLink q { d.link q with clock := some sample, gridMoved := false, checked := false, anchor := none, index := 0 }
  (d.wI Ix.itkSysrefSec q (sec48 d.time96)).wI Ix.itkSysrefFrac q (frac48 d.time96)

/-- What a SYSREF edge does to one link of its port (R96, R97). In state 4 it sets the clock where it closes a conforming spacing with the
edge before it, which may have come before that state (Table 4.8, log entry 29); a clock that runs, whatever the state, is compared with it. -/
def Dev.linkSysref (d : Dev) (p sample q : Nat) : Dev :=
  let st := d.linkState q
  let x := d.link q
  let mode := d.nI Ix.itkSysrefMode p
  let d := d.setLink q { x with lastEdge := some sample }
  if st = 4 then
    match x.lastEdge with
    | none => d
    | some e =>
      if e < sample && (d.portLinks p).all (fun k => d.conforms k (sample - e)) then ((d.setClock q sample).laneBits q 7 false).linkEnter q 5
      else
        let d := d.setLink q { d.link q with periodRaised := true }
        if x.periodRaised then d else d.raise 4 Code.sysrefPeriod
  else if (st = 5 || st = 6) && x.gridMoved then d.setClock q sample
  else if mode != 0 && !x.gridMoved then
    match x.clock with
    | some c =>
      if d.conforms q (absDiff sample c) then d
      else
        let d := (d.incI Ix.itkSysrefDrift q).raise 4 Code.sysrefDrift
        if mode = 2 then
          let d := if st = 5 then d.openLinkGap q (d.nextStamp q) 1 else d
          d.setClock q sample
        else d
    | none => d
  else d

/-- Half picoseconds of an edge at the sampler: SYSREF_IN passes its delay of 10 ps steps, the internal copy none (R96). -/
def Dev.sysrefAt (d : Dev) (p edgePs : Nat) : Nat := 2 * (edgePs + (if d.nI Ix.itkSysrefSrc p = 1 then 10 * d.nI Ix.itkSysrefDelay p else 0))

/-- Distance in half picoseconds to the nearer sampling edge of the 3.2 GHz clock, whose period is 312.5 ps. -/
def sysrefMargin (x : Nat) : Nat := min (x % 625) (625 - x % 625)

/-- SYSREF_EDGE: an edge of the port's SYSREF at its pin, in ps, sampled at 3.2 GHz after its delay (R96, R97). -/
def execSysrefEdge (t port edgePs : Nat) (s : State) : Res := runIf (port < 4) t s fun d =>
  let x := d.sysrefAt port edgePs
  let d := if d.nI Ix.itkSysrefSrc port = 1 then
      let d := d.wI Ix.itkSysrefMargin port (sysrefMargin x / 2)
      if sysrefMargin x < 80 then d.raise 4 Code.sysrefMarginal else d
    else d
  (d.portLinks port).foldl (fun (a : Dev) q => a.linkSysref port (ceilDiv x 625) q) d

/-- SYSREF_ABSENT: 10 ms in state 4 without an accepted edge, raised once (Table 4.3). -/
def execSysrefAbsent (t link : Nat) (s : State) : Res := runIf (link < 16) t s fun d =>
  let x := d.link link
  if d.linkState link = 4 && !x.absentRaised && x.entered + ms 10 ≤ d.now then
    (d.setLink link { x with absentRaised := true }).raise 4 Code.sysrefAbsent
  else d

/-- One converter word of N' bits: the N-bit sample as Q1.23 (R93), and its over-range bit (R95). -/
def Dev.convert (d : Dev) (q raw : Nat) : Int × Bool :=
  let n := d.nI Ix.itkN q
  let total := match modeRow (d.nI Ix.itkMode q) with | some r => r.nTotal | none => 16
  let v := bitsOf (total - 1) (total - n) raw
  let src := d.nI Ix.itkOvrSrc q
  let ovr := if src = 0 then bitOf raw (total - n - 1 - d.nI Ix.itkOvrBit q)
    else if src = 1 then v == 2 ^ (n - 1) || v == 2 ^ (n - 1) - 1 else false
  (ofTwos n v * (2 ^ (24 - n) : Nat), ovr)

/-! ### From octets to converter words (R88, R91; the order of bits and octets is that of JESD204C: PRESUMED, log entry 30) -/

/-- Descrambling of so many bits of an octet, the most significant first: each bit with the bits `a` and `b` before it. What is left is the
octet, and the bits received last. -/
def descrambleBits (a b o : Nat) : Nat → Nat → Nat → Nat × Nat
  | 0, out, hist => (out, hist)
  | k + 1, out, hist =>
    let x := o / 2 ^ k % 2
    descrambleBits a b o k (2 * out + (x + hist / 2 ^ (a - 1) + hist / 2 ^ (b - 1)) % 2) ((2 * hist + x) % 2 ^ 58)

/-- Descrambling of a run of octets. -/
def descramble (a b : Nat) : List Nat → Nat → List Nat × Nat
  | [], hist => ([], hist)
  | o :: l, hist =>
    let r := descrambleBits a b o 8 0 hist
    let q := descramble a b l r.2
    (r.1 :: q.1, q.2)

/-- Character replacement undone: a control character (256 + octet) at the end of a frame stands for its own octet under scrambling, and
for the octet that ended the frame before without (R91). `i` octets of the frame have passed. -/
def unreplace (f : Nat) (scrambled : Bool) : Nat → Nat → List Nat → List Nat × Nat
  | _, prev, [] => ([], prev)
  | i, prev, o :: l =>
    let v := if o < 256 then o else if scrambled then o - 256 else prev
    let q := unreplace f scrambled ((i + 1) % f) (if (i + 1) % f = 0 then v else prev) l
    (v :: q.1, q.2)

/-- The octets of a logical lane of a link: those its physical lane received, its polarity set right, replaced characters restored,
descrambled; and the lane after them (R88, R91). -/
def Dev.laneOctets (d : Dev) (q n : Nat) (l : List Nat) : List Nat × Dev :=
  let ph := d.phys n
  let x := d.lane ph
  if d.is64 q then
    let r := descramble 39 58 (if d.nI Ix.itkLaneInvert n = 1 then l.map (fun o => 255 - o % 256) else l.map (· % 256)) x.scr
    (r.1, d.setLane ph { x with scr := r.2 })
  else
    let on := d.nI Ix.itkScramble q = 1
    let f := match modeRow (d.nI Ix.itkMode q) with | some r => r.f | none => 1
    let u := unreplace f on 0 x.lastOctet l
    let r := if on then descramble 14 15 u.1 x.scr else (u.1, x.scr)
    (r.1, d.setLane ph { x with scr := r.2, lastOctet := u.2 })

/-- The octets of every lane of a link, lane by lane; `octets` holds what each physical lane of the port received. -/
def Dev.linkOctets (d : Dev) (q : Nat) (octets : List (List Nat)) : List (List Nat) × Dev :=
  (d.lanesOf q).foldl (fun p n => let r := p.2.laneOctets q n (octets.getD (p.2.phys n % 16) []); (p.1 ++ [r.1], r.2)) ([], d)

/-- The number that octets spell, the first most significant. -/
def beNumber (l : List Nat) : Nat := l.foldl (fun n o => 256 * n + o % 256) 0

/-- The samples of frame k: its octets lane after lane are the words of converter 0, then of converter 1, S of each, N' bits a word. -/
def frameWords (r : ModeRow) (lanes : List (List Nat)) (k : Nat) : List (Nat × Nat) :=
  let n := beNumber (lanes.flatMap (fun l => (l.drop (k * r.f)).take r.f))
  let word (j : Nat) : Nat := n / 2 ^ (r.nTotal * (r.m * r.s - 1 - j)) % 2 ^ r.nTotal
  (List.range r.s).map (fun i => (word i, if r.m = 2 then word (r.s + i) else 0))

/-- The converter words of the frames that every lane holds whole. -/
def Dev.linkWords (d : Dev) (q : Nat) (lanes : List (List Nat)) : List (Nat × Nat) :=
  match modeRow (d.nI Ix.itkMode q), lanes with
  | some r, l :: _ => (List.range (l.length / r.f)).flatMap (frameWords r lanes)
  | _, _ => []

/-- One sample of a link from its converter words: real modes put the sample in I with Q zero, complex modes may
exchange I and Q (R92, R95). -/
def Dev.convertSample (d : Dev) (q : Nat) (crc : Bool) (w : Nat × Nat) : Sample :=
  let m := match modeRow (d.nI Ix.itkMode q) with | some r => r.m | none => 1
  let a := d.convert q w.1
  if m = 1 then { i := a.1, q := 0, ovr := if a.2 then 1 else 0, crc := crc }
  else
    let b := d.convert q w.2
    let (x, y) := if d.nI Ix.itkIqSwap q = 1 then (b, a) else (a, b)
    { i := x.1, q := y.1, ovr := (if x.2 then 1 else 0) + (if y.2 then 2 else 0), crc := crc }

/-- A count of Table 18.3 or a slot count that is no entry of another chapter: (code, instance) goes up by k (R467, R468). -/
def Dev.tally (d : Dev) (code inst k : Nat) : Dev :=
  let i := 256 * code + inst
  let d := d.markWrap (some i) ((d.ctr.counts.get 0 i + k : Nat) : Int)
  { d with ctr := { d.ctr with counts := d.ctr.counts.set 0 i (wrap48 (d.ctr.counts.get 0 i + k)) } }

/-- A link whose rate exceeds what Intake's clock carries: 8 × f_clk complex, twice that real; it is held until the clock is raised
again (R443, Table 16.5). -/
def Dev.linkOver (d : Dev) (q : Nat) : Bool :=
  let m := match modeRow (d.nI Ix.itkMode q) with | some r => r.m | none => 2
  let cap := 8000 * d.nI Ix.tbIslFreq 0
  d.nI Ix.tbPllState 0 == 2 && (if m = 1 then decide (2 * cap < d.linkFs q) else decide (cap < d.linkFs q))

/-- The stamp of the first sample of the multiblock released last: the release lies `itk.release_offset` × 8 octets after an edge of the
multiblock clock, which runs from the SYSREF edge that set it, and the stamp `itk.link_latency` before it (R98, R99). -/
def Dev.releaseStamp (d : Dev) (q : Nat) : Nat :=
  match modeRow (d.nI Ix.itkMode q) with
  | none => d.time96
  | some r =>
    let edge := d.nI Ix.itkSysrefSec q * two48 + d.nI Ix.itkSysrefFrac q
    -- samples, in F-ths of one, so that octets are whole
    let p := d.periodSamples q * r.f
    let off := 8 * d.nI Ix.itkReleaseOffset q * r.s
    let k := ((d.time96 - edge) * d.linkFs q * r.f / two48 - off) / p
    edge + (roundEven (((k * p + off) * two48 : Nat) : Int) (d.linkFs q * r.f)).toNat - d.nI Ix.itkLinkLatency q

/-- Index since the epoch of the sample taken at an instant, at a rate in Hz (R115). -/
def sampleIndex (time fs : Nat) : Nat := time * fs / two48

/-- The Channeliser's crossing from a source. -/
def Dev.crossing (d : Dev) (code : Nat) : Crossing := d.chn.input.get {} code
def Dev.setCrossing (d : Dev) (code : Nat) (c : Crossing) : Dev := { d with chn := { d.chn with input := d.chn.input.set {} code c } }

/-- Samples of a source go into its crossing, numbered from an index (R17). -/
def Dev.crossInto (d : Dev) (code index : Nat) (l : List Sample) : Dev :=
  d.setCrossing code ((d.crossing code).present (l.zipIdx.map (fun p => (index + p.2, p.1))))

/-- A lane fault: its link discards from the faulting multiblock onward and relinks, or goes down; what the condition says the receiver has
lost (`cond`: 0 clock or signal, 1 code groups or headers, 2 markers or characters) is lost (R103, R104). -/
def Dev.laneFault (d : Dev) (lane cond : Nat) : Dev :=
  let d := if cond = 0 then (d.laneBit lane 1 false).laneBit lane 2 false else d
  let d := if cond ≤ 1 then d.laneBit lane 4 false else d
  let d := if cond ≤ 2 then d.laneBit lane 5 false else d
  match d.linkOfPhys lane with
  | none => d
  | some q =>
    let seen := bitOf (d.lane lane).status 7
    let d := d.laneBit lane 7 true
    if d.linkState q = 5 then
      let d := (d.openLinkGap q (d.nextStamp q) 1).linkEnter q (if d.nI Ix.itkRelink q = 1 then 6 else 7)
      (d.fault 3 Code.laneFault 1 lane 0 0).happen (.laneFault lane)
    else if d.linkState q = 6 && !seen then (d.fault 3 Code.laneFault 1 lane 0 0).happen (.laneFault lane)
    else d

/-- Invalid sync headers or code groups of a physical lane, each at its block: counted; 16 headers within 64 consecutive blocks fault the
lane (R103, Table 4.4). -/
def Dev.codeErrors (d : Dev) (lane : Nat) (blocks : List Nat) : Dev :=
  let d := d.perLane lane fun a n => a.incI Ix.itkCodeErrors n blocks.length
  let is64 := match d.linkOfPhys lane with | some q => d.is64 q | none => true
  let at_ := blocks.foldl (fun l b => b :: l) (d.lane lane).badAt
  let bad := is64 && (at_.zip (at_.drop 15)).any (fun p => p.1 < p.2 + 64)
  let d := d.setLane lane { d.lane lane with badAt := at_.take 15 }
  if bad then d.laneFault lane 1 else d

/-- Whether a wide path takes a link: link 4p, where `chn.lane_src` selects it (R109). -/
def Dev.wideOf (d : Dev) (q : Nat) : Option Nat := if q % 4 = 0 && d.nI Ix.chnLaneSrc (q / 4) = 0 then some (q / 4) else none

/-- Whether a layer of a lane analyses a source (R36, R141). -/
def Dev.laneTakes (d : Dev) (p src : Nat) : Bool := (List.range 4).any (fun l => d.nI Ix.speLayerSrc (4 * p + l) == src)

/-- Complex samples that enter a spectral lane's processing are counted, once however many layers use them (R36). -/
def Dev.analysed (d : Dev) (p src n : Nat) : Dev := if d.laneTakes p src then d.inc0 Ix.pwrAnalysedSamples n else d

/-- MULTIBLOCK_RELEASE: the data of an edge is released on all lanes at once, stamped with TIME96, and crosses into the Channeliser; `codes`
are the invalid headers or code groups met since the last, by physical lane and block (R98, R99, R103). -/
def execMultiblockRelease (t link measured : Nat) (arrivals : List Nat) (codes : List (Nat × List Nat)) (octets : List (List Nat)) (s : State) : Res :=
  runIf (link < 16) t s fun d =>
    let d := codes.foldl (fun (a : Dev) p => a.codeErrors p.1 p.2) d
    if d.linkState link != 5 then d else
      let d := if (d.link link).checked then d else d.alignCheck link measured arrivals
      if d.linkState link != 5 then d else
        let (lanes, d) := d.linkOctets link octets
        let raw := d.linkWords link lanes
        let x := d.link link
        let fs := d.linkFs link
        let anchor := match x.anchor with
          | some a => a
          | none => d.releaseStamp link
        let stamp := sampleTime anchor x.index fs
        let n := raw.length
        let d := d.setLink link { x with anchor := some anchor, index := x.index + n, crcFlag := false, crcDrop := false }
        if d.linkOver link || d.linkSuspended link then d.openLinkGap link stamp 10
        else if x.crcDrop then
          let d := d.gap ⟨.link link, 1, stamp, sampleTime anchor (x.index + n) fs, n, 0, 1⟩
          d.incI Ix.itkGapSamples link n
        else
          -- samples before the first of full service lie in the changeover's gap (R83)
          let skip := ((List.range n).takeWhile (fun i => sampleTime anchor (x.index + i) fs < d.fullFrom)).length
          let d := if 0 < skip then d.openLinkGap link stamp 9 else d
          let d := if skip = n then d else d.closeLinkGap link (sampleTime anchor (x.index + skip) fs)
          let block := (raw.drop skip).map (d.convertSample link x.crcFlag)
          let n := block.length
          let stamp := sampleTime anchor (x.index + skip) fs
          let d := d.incI Ix.itkOvrCount link (block.filter (fun p => p.ovr != 0)).length
          let d := d.crossInto (0x10 + link) (sampleIndex anchor fs + x.index + skip) block
          let d := match d.wideOf link with
            | some p => d.analysed p 1 (match modeRow (d.nI Ix.itkMode link) with | some r => n * r.m / 2 | none => n)
            | none => d
          (d.setLink link { d.link link with stamp := stamp, block := block }).tally 0x0110 link n

/-- LANE_FAULT (R103, Table 4.4). -/
def execLaneFault (t lane cond : Nat) (s : State) : Res := runIf (lane < 64) t s fun d => d.laneFault lane cond

/-- RELINK_COMPLETE: the faulted link releases again on the same time base, its release checked anew; its gap closes with exact length
(R98, R104). -/
def execRelinkComplete (t link : Nat) (s : State) : Res := runIf (link < 16) t s fun d =>
  if d.linkState link = 6 && !d.linkSuspended link then
    let x := d.link link
    let stamp := d.releaseStamp link
    let d := match x.anchor with
      | some a => d.setLink link { x with index := samplesBetween a stamp (d.linkFs link), checked := false }
      | none => d.setLink link { x with anchor := some stamp, index := 0, checked := false }
    let d := (d.closeLinkGap link (d.nextStamp link)).incI Ix.itkRelinks link
    let d := [1, 2, 4, 5].foldl (fun (a : Dev) k => a.laneBits link k true) d
    (d.laneBits link 7 false).linkEnter link 5
  else d

/-- CRC_ERROR: counted per lane; its multiblock's samples are flagged or discarded; eight within 1,024 multiblocks fault
the lane (R105, Table 4.4). -/
def execCrcError (t lane multiblock samples : Nat) (s : State) : Res := runIf (lane < 64) t s fun d =>
  let d := d.perLane lane fun a n => a.incI Ix.itkCrcErrors n
  match d.linkOfPhys lane with
  | none => d
  | some q =>
    let check := d.nI Ix.itkCrcCheck q
    let near := ((d.lane lane).crcAt.filter (fun m => multiblock < m + 1024)).take 7
    let d := d.setLane lane { d.lane lane with crcAt := multiblock :: near }
    let d := if d.linkState q != 5 then d
      else if check = 1 then d.setLink q { d.link q with crcFlag := true }
      else if check = 2 && 0 < samples then d.setLink q { d.link q with crcDrop := true } else d
    if check != 0 && near.length = 7 then ((d.laneBit lane 6 true).raise 4 Code.crcBurst).laneFault lane 3 else d

/-- Check of one link at a commit point (R87 to R95, R102): the first code that rejects it. -/
def Dev.linkCheck (d : Dev) (q : Nat) : Option Nat :=
  let layout := d.nI Ix.itkLayout (q / 4)
  let w := linkLanes layout (q % 4)
  if w.2 = 0 then none
  else match modeRow (d.nI Ix.itkMode q) with
    | none => some Code.modeInvalid
    | some r =>
      let n := d.nI Ix.itkN q
      let fs := d.linkFs q
      if r.l != w.2 then some Code.layoutConflict
      else if n < 8 || r.nMax < n then some Code.modeInvalid
      else if !r.is64 && r.f * d.nI Ix.itkK q % 4 != 0 then some Code.modeInvalid
      else
        let num := fs * r.m * r.nTotal * (if r.is64 then 66 else 10)
        let den := r.l * (if r.is64 then 64 else 8)
        let lo := if r.is64 then 6000000000 else 3000000000
        let hi := if r.is64 then 32500000000 else 16000000000
        if r.fsMax < fs || num < lo * den || hi * den < num then some Code.laneRateRange
        else if d.nI Ix.itkOvrSrc q = 0 && r.nTotal - n ≤ d.nI Ix.itkOvrBit q then some Code.ovrNoControlBit
        else
          let phys := (d.lanesOf q).map (fun l => d.nI Ix.itkLaneMap l)
          if phys.dedup.length = phys.length then none else some Code.laneMapConflict

/-- Check of a port: layouts of rushes service, and no physical lane named twice within the port (R88, R102), running or not. -/
def Dev.portCheck (d : Dev) (p : Nat) : Option Nat :=
  let layout := d.nI Ix.itkLayout p
  let phys := (List.range 16).map (fun n => d.nI Ix.itkLaneMap (16 * p + n))
  if 3 < layout then some Code.modeInvalid
  else if d.inRushes && (layout = 1 || layout = 2) then some Code.rushesLimit
  else if phys.dedup.length = phys.length then none else some Code.laneMapConflict

/-- The first code of a list of checks. -/
def firstCode (l : List (Option Nat)) : Option Nat := l.findSome? id

/-- Intake's part of a commit's checks. One code is reported, of the first port or link that rejects its part: the spec gives no order among
several (DESIGN CHOICE, log entry 28). -/
def Dev.itkCheck (d : Dev) : Option Nat :=
  firstCode ((List.range 4).map d.portCheck ++ (List.range 16).map d.linkCheck)

/-- Whether a write touches a link: its own, its port's or one of its lanes' entries. -/
def Dev.touches (d : Dev) (q : Nat) (w : SWrite) : Bool :=
  (0x2810 ≤ w.ix && w.ix < 0x2820 && w.sub = q + 1) ||
  ((w.ix = 0x2800 || w.ix = 0x2820 || w.ix = 0x2822) && w.sub = q / 4 + 1) ||
  (0x2830 ≤ w.ix && w.ix < 0x2840 && (d.lanesOf q).contains (w.sub - 1))

/-- What a cut does to one link: off, kept, restarted from state 1, or in test (R97, R100, Table 4.3). -/
def Dev.linkCut (d old : Dev) (writes : List SWrite) (first q : Nat) : Dev :=
  let st := d.linkState q
  let lanes := d.lanesOf q
  let staged := writes.filter (d.touches q)
  let changed := staged.filter (fun w => old.rd w.ix w.sub w.inst != d.rd w.ix w.sub w.inst)
  if lanes.isEmpty then
    if st = 0 then d
    else
      -- blocks in flight drain (R487)
      ({ d with flt := { d.flt with drains := d.flt.drains ++ [(1, q, d.now)] } }.linkEnter q 0).setLink q {}
  else if st = 0 || !changed.isEmpty || (!staged.isEmpty && (st = 7 || st = 8)) then
    let keep := !(changed.any (fun w => w.ix = 0x2820 || w.ix = 0x2822 || w.ix = 0x2810 || w.ix = 0x2812 || w.ix = 0x2813))
    let d := if st = 5 then d.openLinkGap q first 1 else d
    let x := d.link q
    let d := d.setLink q { x with anchor := none, index := 0, checked := false, clock := if keep && !x.gridMoved then x.clock else none }
    let test := lanes.any (fun l => d.nI Ix.itkPrbs l != 0)
    d.linkEnter q (if test then 9 else 1)
  else d

/-- Intake applies its part of a cut. -/
def Dev.itkCut (d old : Dev) (writes : List SWrite) (first : Nat) : Dev :=
  let d := (List.range 16).foldl (fun (a : Dev) q => a.linkCut old writes first q) d
  if writes.any (fun w => w.ix == Ix.itkLaneMap) then d.mapReport else d

end Sys2Proof.Machine
end

