-- ==== Sys2Proof/Machine/Repoint.lean ====
section
/-! DEFINITION. Repointing and the Supervisor's restart as every chapter meets them (R34, R40, R424, R488 to R491). -/

namespace Sys2Proof.Machine

/-- Whether any repointing runs; a firmware round counts as one, from the switch to its confirmation or revert (R488). -/
def Dev.repointBusy (d : Dev) : Bool :=
  let u := d.n0 Ix.fltUpdateState
  d.flt.repoint.isSome || u == 2 || u == 3 || u == 5

/-- The configuration entries of a DDC (Table 5.9). -/
def ddcEntries : List Nat :=
  [Ix.chnSrc, Ix.chnNcoFreq, Ix.chnNcoPhase, Ix.chnRetuneMode, Ix.chnDepth, Ix.chnFilterSet, Ix.chnDelayInt, Ix.chnDelayFrac, Ix.chnFracEn,
    Ix.chnGainShift, Ix.chnSettlePolicy, Ix.chnDetWindow, Ix.chnEnvAttack, Ix.chnEnvRelease, Ix.chnDetRing]

/-- The standby is configured as a DDC, and its entries report it; freed, it is off, with every entry at its default (R132, R135, R137). -/
def Dev.standbyAs (d : Dev) (n state : Nat) : Dev :=
  ((ddcEntries ++ [Ix.chnFOut, Ix.chnGroupDelay]).foldl (fun (a : Dev) ix => a.wr ix 33 0 (a.rd ix (n + 1) 0)) d).wI Ix.chnState 32 state
def Dev.standbyFree (d : Dev) : Dev :=
  ((ddcEntries ++ [Ix.chnFOut, Ix.chnGroupDelay]).foldl (fun (a : Dev) ix => a.wr ix 33 0 (dfltOf ix 33)) (d.w0 Ix.chnStandbyFor 0xFF)).wI Ix.chnState 32 0

/-- A repointing starts: in shadow for a DDC (at once where it is off), by the core sequence, at once for an idle standby, and by an engine
cut for every other island (R135, R165, R488). -/
def Dev.repointStart (d : Dev) (isl inst src : Nat) : Dev :=
  let d := { d with
    flt := { d.flt with repoint := some { isl := isl, inst := inst, src := src, since := d.now } }
    chn := { d.chn with shadow := false } }
  let d := (d.w0 Ix.fltRepointTarget (isl * 256 + inst)).w0 Ix.fltRepointState 1
  if isl = 2 && inst < 32 then
    if d.nI Ix.chnSrc inst = 0 then (d.w0 Ix.chnRepointState 2).w0 Ix.fltRepointState 2
    else if d.flt.standbyFailed.contains 0 then d.w0 Ix.chnRepointState 1 else (d.standbyAs inst 1).w0 Ix.chnRepointState 1
  else if isl = 3 && inst < 32 then d.w0 Ix.speRepointState 1
  else if (isl = 2 || isl = 3) && inst = 32 then d.w0 Ix.fltRepointState 2
  else d.engineCut { kind := .repointOut, isl := isl, inst := inst, due := d.soon }

/-- The next instance of a firmware round, or of its revert, is repointed (R490, R491). -/
def Dev.roundNext (d : Dev) : Dev :=
  if !(d.n0 Ix.fltUpdateState == 3 || d.n0 Ix.fltUpdateState == 5) || d.flt.repoint.isSome || !d.sup.running then d
  else match d.flt.round with
    | [] => d.w0 Ix.fltUpdateProgress 0
    | p :: rest => ({ d with flt := { d.flt with round := rest } }.w0 Ix.fltUpdateProgress (p.1 * 256 + p.2)).repointStart p.1 p.2 0

/-- A switch reverts: the trial image is failed, the previous one is to run, and what was repointed is to be repointed back in reverse
order (R491). -/
def Dev.revertMark (d : Dev) : Dev :=
  let back := match d.flt.repoint with | some r => if r.out then [(r.isl, r.inst)] else [] | none => []
  let d := ((d.w0 Ix.fltUpdateState 5).wI Ix.modImageState (d.flt.trial - 1) 3).w0 Ix.modBootImage d.flt.previous
  { d with flt := { d.flt with round := (d.flt.roundDone.filter (fun p => !back.contains p)), roundDone := [] } }

/-- A repointing that has not completed is treated as aborted: before the instance left service it ends; after, the instance returns with
its previous contents (R40, R136, R166, R488). -/
def Dev.repointLost (d : Dev) : Dev :=
  match d.flt.repoint with
  | none => d
  | some r =>
    let state (v : Nat) (d : Dev) : Dev :=
      let d := d.w0 Ix.fltRepointState v
      if r.isl = 2 && r.inst < 32 then d.w0 Ix.chnRepointState v else if r.isl = 3 && r.inst < 32 then d.w0 Ix.speRepointState v else d
    if r.out then state 3 { d with flt := { d.flt with repoint := some { r with aborted := true } } }
    else if d.cut.engine.any (fun c => c.kind == .repointOut && c.distributed) then
      { d with flt := { d.flt with repoint := some { r with aborted := true } } }
    else
      let d := if r.isl = 2 && r.inst < 32 then d.standbyFree else d
      (state 0 { d with flt := { d.flt with repoint := none }, chn := { d.chn with shadow := false } }).w0 Ix.fltRepointTarget 0xFFFF

/-- The cuts as a restart leaves them: past their commit point they stay, a user cut before it is staged again and its commit is to be
answered on the return, engine cuts before it are lost but for those that protect the module (R40, R424). -/
def Dev.cutsAway (d : Dev) : Dev :=
  let back := match d.cut.user with | some c => if c.distributed then [] else c.writes | none => []
  let staged := if back.isEmpty then d.cut.staged else d.cut.staged.foldl (fun l w => putWrite w l) back
  let user := match d.cut.user with | some c => if c.distributed then some c else none | none => none
  let kept (c : Cut) : Bool := c.distributed || c.kind == .degradation || c.kind == .shedding || c.kind == .disable
  let engine := d.cut.engine.filter kept
  let dropped := match d.cut.user with
    | some c => if c.distributed || (c.path != 1 && c.path != 3) then d.sup.dropped else some c.path
    | none => d.sup.dropped
  let d := { d with sup := { d.sup with dropped := dropped }, cut := { d.cut with staged := staged, user := user, engine := engine } }
  if user.isSome || engine.any (fun c => c.distributed) then d else d.w0 Ix.modCutState (if staged.isEmpty then 0 else 1)

/-- Calibrations that no cut carries on are lost, and told so on the return (R463). -/
def Dev.calAway (d : Dev) : Dev :=
  let live (r : CalRun) : Bool := r.phase == 2 && d.cut.engine.any (fun c => c.kind == .calibration)
  { d with cal := { d.cal with runs := d.cal.runs.filter live, abandoned := d.cal.abandoned ++ d.cal.runs.filter (fun r => !live r) } }

/-- The Supervisor goes away: cuts past their commit point stay, a user cut before it is staged again, engine cuts before it are lost or
wait, calibrations and repointings are lost, the field network drops to PRE-OP (R40, R424, R463). -/
def Dev.supAway (d : Dev) (faulted : Bool) : Dev :=
  let d := d.repointLost.cutsAway.calAway
  let d := { d with sup := { d.sup with running := false, restarting := true } }
  let d := ((d.alDrop 0x8002).inc0 Ix.fltRestarts).tally 0x0C15 0 1
  let d := (d.w0 Ix.modBringup (setBitTo (d.n0 Ix.modBringup) 0 false)).happen .restart
  if faulted then d.raise 4 Code.supervisorFault else d.logEntry 0 d.time96 0xC 0 0 0 0

/-- A Supervisor restart; during a firmware round the switch reverts (R40, R491). -/
def Dev.supRestart (d : Dev) (faulted : Bool) : Dev := (if d.n0 Ix.fltUpdateState = 3 then d.revertMark else d).supAway faulted

/-- A switch is reverted by the engine or by you: the Supervisor restarts into the previous image (R491). -/
def Dev.revertStart (d : Dev) : Dev := d.revertMark.supAway false

/-- After an instance of a round: the next one; with a failed self-test under the new microcode the switch reverts (R491). -/
def Dev.roundAfter (d : Dev) (r : Repoint) : Dev :=
  if d.n0 Ix.fltUpdateState = 3 then
    if r.selfTestOk then { d with flt := { d.flt with roundDone := (r.isl, r.inst) :: d.flt.roundDone } }.roundNext else d.revertStart
  else d.roundNext

/-- A repointing ends with its instance back in service; every one is logged (R488, R493). -/
def Dev.repointDone (d : Dev) : Dev :=
  match d.flt.repoint with
  | none => d
  | some r =>
    let v := (d.boot.images.get {} (d.n0 Ix.modBootImage)).version
    let d := { d with flt := { d.flt with repoint := none }, chn := { d.chn with shadow := false } }
    let d := ((d.w0 Ix.fltRepointState 0).w0 Ix.fltRepointTarget 0xFFFF).inc0 Ix.fltRepoints
    let d := if r.src = 0 && r.selfTestOk && !r.aborted then d.wI Ix.fltMcodeVer (r.isl - 1) v else d
    (d.logEntry 0 d.time96 r.isl r.inst 0 v 0).roundAfter r

end Sys2Proof.Machine
end

