-- ==== Sys2Proof/Machine/Trig.lean ====
section
/-! DEFINITION. Sines, cosines and exponentials in fixed point, wide enough that rounding their results to the widths of the spec is exact but
for ties (R114, R144). -/

namespace Sys2Proof.Machine

/-- The unit of the fixed point: 2^80. -/
def fx : Int := 2 ^ 80

/-- π in units of 2^-80. -/
def fxPi : Int := 3797952473636338580787994

/-- A product of two fixed-point numbers. -/
def fxMul (a b : Int) : Int := roundEven (a * b) (2 ^ 80)

/-- The terms of sine (k odd) or cosine (k even) from x^k / k! on: `term` is the present one, `n` are left. -/
def fxSeries (x2 : Int) : Nat → Nat → Int → Int
  | 0, _, _ => 0
  | n + 1, k, term => term + fxSeries x2 n (k + 2) (-(fxMul term x2) / ((k + 1) * (k + 2) : Nat))

/-- Sine and cosine of an angle of at most π/4. -/
def fxSin (x : Int) : Int := fxSeries (fxMul x x) 14 1 x
def fxCos (x : Int) : Int := fxSeries (fxMul x x) 14 0 fx

/-- Cosine of k / n of a turn: the angle is brought into the first eighth. -/
def fxCosTurn (k n : Nat) : Int :=
  let r := 8 * (k % n)
  let oct := r / n
  let x : Int := (fxPi * (r % n : Nat)) / (4 * n : Nat)
  let y : Int := (fxPi * (n - r % n : Nat)) / (4 * n : Nat)
  if oct = 0 then fxCos x else if oct = 1 then fxSin y else if oct = 2 then -(fxSin x) else if oct = 3 then -(fxCos y)
  else if oct = 4 then -(fxCos x) else if oct = 5 then -(fxSin y) else if oct = 6 then fxSin x else fxCos y

/-- Sine of k / n of a turn: the cosine a quarter before. -/
def fxSinTurn (k n : Nat) : Int := fxCosTurn (4 * k + 3 * n) (4 * n)

/-- The terms of e^x from x^k / k! on. -/
def fxExpSeries (x : Int) : Nat → Nat → Int → Int
  | 0, _, _ => 0
  | n + 1, k, term => term + fxExpSeries x n (k + 1) (fxMul term x / ((k + 1 : Nat) : Int))

/-- A number squared so many times. -/
def fxSquares : Nat → Int → Int
  | 0, x => x
  | n + 1, x => fxSquares n (fxMul x x)

/-- e^-x for x ≥ 0: the argument is divided by 2^12, and the result squared as often. -/
def fxExpNeg (x : Int) : Int := fxSquares 12 (fxExpSeries (-(x / 4096)) 12 0 fx)

/-- The terms ((x/2)^k / k!)² of the modified Bessel function I₀, from k on; `q` is (x/2)². -/
def fxBesselSeries (q : Int) : Nat → Nat → Int → Int
  | 0, _, _ => 0
  | n + 1, k, term => term + fxBesselSeries q n (k + 1) (fxMul term q / (((k + 1) * (k + 1) : Nat) : Int))

/-- I₀ of a number whose half squared is q. -/
def fxBessel (q : Int) : Int := fxBesselSeries q 96 0 fx

/-- Square root of a fixed-point number. -/
def fxSqrt (x : Int) : Int := isqrtFrom 128 0 (x.toNat * 2 ^ 80)

end Sys2Proof.Machine
end

