-- ==== Sys2Proof/Machine/Channeliser.lean ====
section
/-! DEFINITION. Channeliser: down-conversion and decimation (05_channeliser.md). -/

namespace Sys2Proof.Machine

def Dev.ddc (d : Dev) (n : Nat) : DdcSt := d.chn.ddcs.get {} n
def Dev.setDdc (d : Dev) (n : Nat) (x : DdcSt) : Dev := { d with chn := { d.chn with ddcs := d.chn.ddcs.set {} n x } }
def Dev.ddcState (d : Dev) (n : Nat) : Nat := d.nI Ix.chnState n

/-- Whether a link carries a real signal. -/
def Dev.linkReal (d : Dev) (q : Nat) : Bool := match modeRow (d.nI Ix.itkMode q) with | some r => r.m == 1 | none => false

/-- Rate at the DDC input of a source code, in mHz (Table 5.1). -/
def Dev.srcRate (d : Dev) (code : Nat) : Nat :=
  if 0x10 ≤ code && code < 0x20 then d.linkFs (code - 0x10) * (if d.linkReal (code - 0x10) then 500 else 1000)
  else if 0x40 ≤ code && code < 0x44 then d.chn.pbRate.get 0 (code - 0x40) / (if d.chn.pbReal.get false (code - 0x40) then 2 else 1)
  else 0

/-- Input rate and output rate of a DDC, mHz; an output rate that is no whole number is rounded convergently (R137, log entry 26). -/
def Dev.fIn (d : Dev) (n : Nat) : Nat := d.srcRate (d.nI Ix.chnSrc n)
def Dev.fOut (d : Dev) (n : Nat) : Nat := (roundEven (d.fIn n : Int) (2 ^ d.nI Ix.chnDepth n)).toNat

/-- Filter delay of a chain in DDC input samples (R121): set W or S, depth. -/
def chainDelay (set depth : Nat) : Nat :=
  if depth = 0 then 0 else if set = 0 then 58 * 2 ^ (depth - 1) - 11 else 20 * 2 ^ (depth - 1) - 5
def Dev.gDelay (d : Dev) (n : Nat) : Nat := chainDelay (d.nI Ix.chnFilterSet n) (d.nI Ix.chnDepth n)

/-- Outputs unsettled after a start, and after a change inside a running chain (R121, R122). -/
def Dev.startSettle (d : Dev) (n : Nat) : Nat := ceilDiv (d.gDelay n) (2 ^ d.nI Ix.chnDepth n)
def Dev.changeSettle (d : Dev) (n : Nat) : Nat := ceilDiv (2 * d.gDelay n) (2 ^ d.nI Ix.chnDepth n)

/-- Index n_e of the input sample at an instant, at a rate in mHz (R115). -/
def inputIndex (time f : Nat) : Nat := time * f / (two48 * 1000)

/-- The instant of input sample n_e. -/
def inputTime (ne f : Nat) : Nat := if f = 0 then 0 else (roundEven ((ne * two48 * 1000 : Nat) : Int) f).toNat

/-- Clock of an island in kHz. -/
def Dev.clockKHz (d : Dev) (isl : Nat) : Nat := d.nI Ix.tbIslFreq (isl - 1)

/-- The lowest instantaneous clock of an island's spread spectrum, which capacity checks use (R327). -/
def Dev.checkKHz (d : Dev) (isl : Nat) : Nat :=
  if d.nI Ix.tbSscMode (isl - 1) = 0 then d.clockKHz isl else d.clockKHz isl * (10000 - d.nI Ix.tbSscDepth (isl - 1)) / 10000

/-! ### Time at the sources (R20, R99, R115, R120) -/

/-- The clock of a source's samples: a sample index since the epoch, its instant, and the rate in mHz. -/
structure SrcClock where
  base : Nat
  ix : Nat
  f : Nat
deriving DecidableEq, Repr

/-- The instant of a sample: the base plus its distance in periods, convergently rounded (R99). -/
def SrcClock.time (c : SrcClock) (i : Nat) : Nat :=
  if c.f = 0 then c.base else ((c.base : Int) + roundEven (((i : Int) - c.ix) * (two48 * 1000 : Nat)) c.f).toNat

/-- The first sample at or after an instant. -/
def SrcClock.after (c : SrcClock) (time : Nat) : Nat :=
  let i := ((c.ix : Int) - (((c.base : Int) - time) * c.f) / (two48 * 1000 : Nat)).toNat
  if 0 < i && time ≤ c.time (i - 1) then i - 1 else i

/-- The sample clock of a source code of Table 5.1: of a link, what its anchor fixes; of a playback channel, what its pass fixes. A source that
has released nothing lies on the grid of the epoch. -/
def Dev.srcClock (d : Dev) (code : Nat) : SrcClock :=
  if 0x10 ≤ code && code < 0x20 then
    let fs := d.linkFs (code - 0x10)
    match (d.link (code - 0x10)).anchor with
    | some a => ⟨a, sampleIndex a fs, fs * 1000⟩
    | none => ⟨0, 0, fs * 1000⟩
  else if 0x40 ≤ code && code < 0x44 then
    let f := d.chn.pbRate.get 0 (code - 0x40)
    let x := d.str.pbs.get {} (code - 0x40)
    ⟨x.t0, x.ix, f⟩
  else ⟨0, 0, 0⟩

/-- Source samples per complex sample: two where the source is real (R112). -/
def Dev.rawPer (d : Dev) (code : Nat) : Nat :=
  if 0x10 ≤ code && code < 0x20 then (if d.linkReal (code - 0x10) then 2 else 1)
  else if 0x40 ≤ code && code < 0x44 && d.chn.pbReal.get false (code - 0x40) then 2 else 1

/-- The instant of a complex sample n_e of a source, and of a DDC's input (R20, R120): TIME96 as the source carries it, not formed anew. -/
def Dev.srcTime (d : Dev) (code ne : Nat) : Nat := (d.srcClock code).time (ne * d.rawPer code)
def Dev.ddcTime (d : Dev) (n ne : Nat) : Nat := d.srcTime (d.nI Ix.chnSrc n) ne

/-- The first complex sample of a source at or after an instant whose index is a multiple of a number. -/
def Dev.srcAfter (d : Dev) (code multiple time : Nat) : Nat :=
  let per := d.rawPer code * max multiple 1
  ceilDiv ((d.srcClock code).after time) per * max multiple 1

/-- Index n_e of the first output of a DDC, and of the first cut block of 2,048 outputs, at or after an instant (R120, R129). -/
def Dev.ddcAfter (d : Dev) (n time : Nat) : Nat := d.srcAfter (d.nI Ix.chnSrc n) (2 ^ d.nI Ix.chnDepth n) time
def Dev.ddcBlock (d : Dev) (n time : Nat) : Nat := d.srcAfter (d.nI Ix.chnSrc n) (2048 * 2 ^ d.nI Ix.chnDepth n) time

/-- The rate and delay entries of a DDC follow its setting (R121, R124, R131): the delay in ps is rounded once, convergently. -/
def Dev.ddcReport (d : Dev) (n : Nat) : Dev :=
  let f := d.fIn n
  let clk := max (d.clockKHz 2) 1
  let step := 2 ^ d.nI Ix.chnDepth n
  -- alignment delay in 1/256 output sample, the interpolator's 8 samples included
  let dl := 256 * d.nI Ix.chnDelayInt n + (if d.nI Ix.chnFracEn n = 1 then d.nI Ix.chnDelayFrac n + 2048 else 0)
  let ps := if f = 0 then roundEven (24000 * 1600000) clk
    else roundEven ((24000 * 1600000 * 256 * f + (256 * d.gDelay n + dl * step) * 10 ^ 15 * clk : Nat) : Int) (clk * 256 * f)
  (d.wI Ix.chnFOut n (d.fOut n)).wI Ix.chnGroupDelay n ps.toNat

/-- The reports of every DDC, and of the standby where it stands for one. -/
def Dev.ddcReports (d : Dev) : Dev :=
  let d := (List.range 32).foldl (fun (a : Dev) n => a.ddcReport n) d
  if d.n0 Ix.chnStandbyFor < 32 then d.standbyAs (d.n0 Ix.chnStandbyFor) (d.nI Ix.chnState 32) else d

/-! ### The standby's entries (R132, R135, R137) -/

/-- A DDC's configuration as a set of writes. -/
def Dev.ddcSetting (d : Dev) (n : Nat) : List SWrite := ddcEntries.map (fun ix => ⟨ix, n + 1, 0, d.rd ix (n + 1) 0⟩)

/-! ### Flagged runs (R122, R123) -/

/-- A settle record (Table 5.5). -/
def Dev.settleRecord (d : Dev) (n cause count first : Nat) (discarded : Bool) : Dev :=
  d.emit 2 (mkRec [(0x0D20, n * 2 ^ 40 + cause * 2 ^ 32 + count), (0x0D21, sec48 first), (0x0D22, frac48 first),
    (0x0D23, if discarded then 1 else 0)])

/-- Outputs of a DDC from one instant up to another are to be UNSETTLED (R122). -/
def Dev.unsettle (d : Dev) (n cause first until_ : Nat) : Dev :=
  if until_ ≤ first then d
  else
    let d := d.setDdc n { d.ddc n with runs := (d.ddc n).runs ++ [{ cause := cause, from_ := first, until_ := until_ }] }
    if d.ddcState n = 2 then d.wI Ix.chnState n 1 else d

/-- The open run of flagged outputs ends: its settle record names its first output and how many were flagged (R123). -/
def Dev.endRun (d : Dev) (n : Nat) : Dev :=
  match (d.ddc n).run with
  | none => d
  | some r => (d.setDdc n { d.ddc n with run := none }).settleRecord n r.cause r.count r.first (d.nI Ix.chnSettlePolicy n = 1 && r.cause != 6)

/-- The run of TRUNCATED outputs of the old chain ends. -/
def Dev.endOldRun (d : Dev) (n : Nat) : Dev :=
  match (d.ddc n).oldRun with
  | none => d
  | some r => (d.setDdc n { d.ddc n with oldRun := none }).settleRecord n 7 r.count r.first false

/-- An output is flagged for a cause, or for none: the run it belongs to grows, or one ends and another begins. -/
def Dev.runStep (d : Dev) (n stamp : Nat) (cause : Option Nat) : Dev :=
  match cause with
  | none => d.endRun n
  | some c =>
    let d := if (d.ddc n).run.any (fun r => r.cause != c) then d.endRun n else d
    let r : Run := match (d.ddc n).run with | some r => r | none => { cause := c, from_ := stamp, until_ := stamp, first := stamp }
    d.setDdc n { d.ddc n with run := some { r with count := r.count + 1 } }

/-- The same for a TRUNCATED output of the old chain. -/
def Dev.oldStep (d : Dev) (n stamp : Nat) : Dev :=
  let r : Run := match (d.ddc n).oldRun with | some r => r | none => { cause := 7, from_ := stamp, until_ := stamp, first := stamp }
  d.setDdc n { d.ddc n with oldRun := some { r with count := r.count + 1 } }

/-! ### Oscillator and filters (R112 to R118) -/

/-- The phase of a DDC's oscillator at input index n_e (R114, R115); input before a change is mixed as it was before it. -/
def Dev.phaseAt (d : Dev) (n ne : Nat) : Nat :=
  let x := d.ddc n
  let ftw := d.rd Ix.chnNcoFreq (n + 1) 0
  if ne < x.mixFrom then toTwos 48 ((x.mixPhase : Int) + x.mixFtw * ((ne : Int) - x.mixFrom))
  else if d.nI Ix.chnRetuneMode n = 2 then toTwos 48 ((d.nI Ix.chnNcoPhase n : Int) + ftw * ne)
  else toTwos 48 ((x.phase : Int) + ftw * ((ne : Int) - x.phaseIx))

/-- A 25-bit sine of amplitude 1 − 2^-23 in units of 2^-24, exact to its last bit (R114). -/
def ncoWord (exact : Int) (phase : Nat) : Int :=
  clampInt (-(2 ^ 24 - 2)) (2 ^ 24 - 2) (roundEven (exact * (2 ^ 24 - 2)) (2 ^ 80) + clampInt (-1) 1 (Config.ncoLast phase))
def ncoCos (phase : Nat) : Int := ncoWord (fxCosTurn phase (2 ^ 48)) phase
def ncoSin (phase : Nat) : Int := ncoWord (fxSinTurn phase (2 ^ 48)) (2 ^ 48 + phase)

/-- A word rounded convergently from `num / 2^sh` to a width and saturated at Q2.30, and whether it saturated (R5, R117). -/
def roundWidth (width : Nat) (num : Int) (sh : Nat) : Int × Bool :=
  let lost := 32 - width
  let r := roundEven num (2 ^ (sh + lost)) * (2 ^ lost : Nat)
  (clampInt (-(2 ^ 31)) (2 ^ 31 - 2 ^ lost) r, r < -(2 ^ 31) || 2 ^ 31 - 2 ^ lost < r)

/-- A sample inside a chain: I, Q, and whether a rounding on its way has saturated (R5). -/
abbrev Inner := Int × Int × Bool

/-- A pair of rounded parts. -/
def inner (a b : Int × Bool) (sat : Bool) : Inner := (a.1, b.1, a.2 || b.2 || sat)

/-- The mixer: x · e^(−jθ) as Q2.30, at full width whatever the governor narrows (R114, R117). -/
def mix (phase : Nat) (x : Int × Int) : Inner :=
  let c := ncoCos phase
  let s := ncoSin phase
  inner (roundWidth 32 (x.1 * c + x.2 * s) 17) (roundWidth 32 (x.2 * c - x.1 * s) 17) false

/-- Taps of a stage (Table 5.2): filter set, final stage or early. -/
def stageTaps (set : Nat) (final : Bool) : Nat := if set = 0 then (if final then 95 else 23) else (if final then 31 else 11)

/-- Code of a filter in `chn.coef_sel`. -/
def filterCode (set : Nat) (final : Bool) : Nat := 2 * set + (if final then 1 else 0)

/-- Taps of a filter by its code; code 4, the real-to-complex section, has the set W final stage's (R112, R113). -/
def filterTaps (code : Nat) : Nat := if code < 4 then stageTaps (code / 2) (code % 2 == 1) else 95

/-- A coefficient below the centre as the image carries it, in 24 bits. -/
def outerTap (code k : Nat) : Int := clampInt (-(2 ^ 23)) (2 ^ 23 - 1) (Config.imageTap code k)

/-- The centre that gives a DC gain of exactly 1. -/
def centreTap (code : Nat) : Int := 2 ^ 23 - 2 * ((List.range (filterTaps code / 2)).map (outerTap code)).sum

/-- Tap k of a filter, Q1.23: symmetric 24-bit coefficients with a DC gain of exactly 1, as R116 binds every image; a section's filter is the
set W final stage's (R113). An image whose centre does not fit 24 bits is none: a half and two quarters stand in its place. -/
def filterTap (code k : Nat) : Int :=
  let code := if code = 4 then 1 else code
  let half := filterTaps code / 2
  let i := if half < k then 2 * half - k else k
  if -(2 ^ 23) ≤ centreTap code && centreTap code ≤ 2 ^ 23 - 1 then (if i = half then centreTap code else outerTap code i)
  else if i = half then 2 ^ 22 else if i + 1 = half then 2 ^ 21 else 0

/-- The sum of taps times samples of one part. -/
def dot (code : Nat) (l : List Int) : Int := (l.zipIdx.map (fun p => filterTap code p.2 * p.1)).sum

/-- One half-band stage over a run of samples: an output for every second position its taps fit (R116, R117). -/
def halfBand (width code taps : Nat) : Nat → List Inner → List Inner
  | 0, _ => []
  | k + 1, l =>
    if l.length < taps then []
    else
      let w := l.take taps
      inner (roundWidth width (dot code (w.map (·.1))) 23) (roundWidth width (dot code (w.map (·.2.1))) 23) (w.any (·.2.2)) ::
        halfBand width code taps k (l.drop 2)

/-- The chain of d stages over samples centred on output instants. -/
def chain (width set : Nat) : Nat → List Inner → List Inner
  | 0, l => l
  | 1, l => halfBand width (filterCode set true) (stageTaps set true) l.length l
  | k + 2, l => chain width set (k + 1) (halfBand width (filterCode set false) (stageTaps set false) l.length l)

/-- The fractional delay: 16 taps over as many outputs of the chain (R124). -/
def interpolate (frac : Nat) (l : List Inner) : Inner :=
  let part (f : Inner → Int) : Int := (l.zipIdx.map (fun p => Config.interpTap frac p.2 * f p.1)).sum
  inner (roundWidth 32 (part (·.1)) 23) (roundWidth 32 (part (·.2.1)) 23) (l.any (·.2.2))

/-- The gain shift and the rounding to CPLX24, with saturation (R118). -/
def toCplx24 (g : Nat) (v : Int) : Int × Bool :=
  let r := roundEven (v * (2 ^ g : Nat)) (2 ^ 7)
  (clampInt (-(2 ^ 23)) (2 ^ 23 - 1) r, r < -(2 ^ 23) || 2 ^ 23 - 1 < r)

/-! ### What has crossed into the Channeliser (R17, R112, R122) -/

/-- One real sample mixed by e^(−jπi/2) (R112). -/
def quarterTurn (i : Nat) (x : Int) : Int × Int :=
  if i % 4 = 0 then (x, 0) else if i % 4 = 1 then (0, -x) else if i % 4 = 2 then (-x, 0) else (0, x)

/-- Output n_e of a real-to-complex section: mixing by a quarter of the rate, the 95-tap half-band filter centred on real sample 2 n_e,
decimation by two, and the conjugate where `flip`; its flags are those of its two real samples together (R112, R113). The output is
CPLX24, which is what a crossing carries (log entry 31). Samples that did not come are zero. -/
def sectionOut (c : Crossing) (flip : Bool) (ne : Nat) : Sample :=
  let at_ (i : Nat) : Sample := (c.word i).getD { i := 0, q := 0 }
  let l := (List.range 95).map (fun k => if 2 * ne + k < 47 then (0, 0) else quarterTurn (2 * ne + k - 47) (at_ (2 * ne + k - 47)).i)
  let part (x : Int) : Int := clampInt (-(2 ^ 23)) (2 ^ 23 - 1) (roundEven x (2 ^ 23))
  let q := part (dot 4 (l.map (·.2)))
  { i := part (dot 4 (l.map (·.1))), q := if flip then -q else q, ovr := max (at_ (2 * ne)).ovr (at_ (2 * ne + 1)).ovr
    crc := (at_ (2 * ne)).crc || (at_ (2 * ne + 1)).crc }

/-- Whether a section conjugates (R112); playback has no flip. -/
def Dev.flips (d : Dev) (code : Nat) : Bool := 0x10 ≤ code && code < 0x20 && d.nI Ix.chnRealFlip (code - 0x10) = 1

/-- Complex sample n_e of a source as it enters a DDC, if it has come. -/
def Dev.inputAt (d : Dev) (code ne : Nat) : Option Sample :=
  let c := (d.crossing code).accept
  if d.rawPer code = 1 then c.word ne
  else if (c.word (2 * ne)).isSome then some (sectionOut c (d.flips code) ne) else none

/-- Whether a source brings nothing at an instant: its gap is open, it is not running, or its section is held down (R122, R134). -/
def Dev.srcDark (d : Dev) (code time : Nat) : Bool :=
  if 0x10 ≤ code && code < 0x20 then
    d.linkState (code - 0x10) != 5 || (d.link (code - 0x10)).gapFirst.any (fun g => g.1 ≤ time) ||
      (d.rawPer code == 2 && (d.chn.sections.get {} (code - 0x10)).heldDown)
  else d.chn.pbRate.get 0 (code - 0x40) == 0 || (d.str.pbs.get {} (code - 0x40)).gapFirst.any (fun g => g.1 ≤ time)

/-- Whether complex sample n_e has come or will not come: then an output that needs it can be formed. -/
def Dev.inputKnown (d : Dev) (code ne : Nat) : Bool :=
  let c := (d.crossing code).accept
  let i := ne * d.rawPer code
  (c.word i).isSome || c.beyond i || d.srcDark code (d.srcTime code ne)

/-- Width of the stages of a DDC: 16 bits in rushes service; 24 where its lane is narrowed and one of the lane's layers takes it (R117, R440). -/
def Dev.ddcWidth (d : Dev) (n : Nat) : Nat :=
  if d.n0 Ix.chnWidth = 16 then 16
  else if d.nI Ix.speWidth (n / 8) = 24 && (List.range 4).any (fun l => d.nI Ix.speLayerSrc (4 * (n / 8) + l) == 0x20 + n) then 24 else 32

/-- The output value of a DDC at index n_e, from what has crossed (R114 to R118, R124): input before the chain's start is zero, and so is
what did not come. -/
def Dev.ddcValue (d : Dev) (n ne : Nat) : Sample :=
  let x := d.ddc n
  let code := d.nI Ix.chnSrc n
  let depth := d.nI Ix.chnDepth n
  let frac := d.nI Ix.chnFracEn n = 1
  let g := d.gDelay n
  -- the first input of the support: 2G + 1 samples, and 15 outputs more before the interpolator
  let centre : Int := (ne : Int) - (d.nI Ix.chnDelayInt n * 2 ^ depth : Nat) - g - (if frac then (7 * 2 ^ depth : Nat) else 0)
  let size := 2 * g + 1 + (if frac then 15 * 2 ^ depth else 0)
  let xs := (List.range size).map (fun (k : Nat) =>
    let i := centre + k
    let s : Sample := if i < 0 || i < x.startIx then { i := 0, q := 0 } else (d.inputAt code i.toNat).getD { i := 0, q := 0 }
    mix (d.phaseAt n i.toNat) (s.i, s.q))
  let l := chain (d.ddcWidth n) (d.nI Ix.chnFilterSet n) depth xs
  let v := if frac then interpolate (d.nI Ix.chnDelayFrac n) l else l.headD (0, 0, false)
  let a := toCplx24 (d.nI Ix.chnGainShift n) v.1
  let b := toCplx24 (d.nI Ix.chnGainShift n) v.2.1
  { i := a.1, q := b.1, sat := a.2 || b.2 || v.2.2 }

/-- The flags an output takes from the 2^d input samples up to its instant (R119). -/
def Dev.ddcFlags (d : Dev) (n ne : Nat) (x : Sample) : Sample :=
  let l := (List.range (2 ^ d.nI Ix.chnDepth n)).filterMap (fun k => if k ≤ ne then d.inputAt (d.nI Ix.chnSrc n) (ne - k) else none)
  { x with ovr := if l.any (fun s => s.ovr != 0) then 1 else 0, crc := l.any (·.crc) }

/-- Whether input after an output's instant that it depends on did not come (R122). -/
def Dev.reachesGap (d : Dev) (n ne : Nat) : Bool :=
  (List.range (d.gDelay n)).any (fun k => (d.inputAt (d.nI Ix.chnSrc n) (ne + k + 1)).isNone)

/-! ### Detectors (R126 to R128) -/

/-- The envelope's next value, rounded convergently as a whole (R127). -/
def envStep (alpha beta e a : Nat) : Nat :=
  let k := if e < a then alpha else beta
  (roundEven (((e * 2 ^ k : Nat) : Int) + a - e) (2 ^ k)).toNat

/-- Power of a sample in PWR48 (R126). -/
def samplePower (x : Sample) : Nat := (x.i * x.i + x.q * x.q).toNat

/-- Window number of an output, and the first index of a window (R126). -/
def Dev.winOf (d : Dev) (n ne : Nat) : Nat := ne / 2 ^ (d.nI Ix.chnDepth n + d.nI Ix.chnDetWindow n)
def Dev.winFirst (d : Dev) (n w : Nat) : Nat := w * 2 ^ (d.nI Ix.chnDepth n + d.nI Ix.chnDetWindow n)

/-- The instant a window begins at: its first output instant, or the chain's start within it. -/
def Dev.winTime (d : Dev) (n w : Nat) : Nat := max (d.ddcTime n (d.winFirst n w)) (d.ddc n).startAt

/-- A window opens. -/
def Dev.openWindow (d : Dev) (n w : Nat) : Dev := d.setDdc n { d.ddc n with wIx := some w, wFirst := d.winTime n w }

/-- An open detector window closes: entries, and a record where a ring is named (R128, Table 5.6). -/
def Dev.closeWindow (d : Dev) (n : Nat) : Dev :=
  let s := d.ddc n
  let mean := if s.wCount = 0 then 0 else (roundEven (s.wSum : Int) s.wCount).toNat
  let d := ((d.wI Ix.chnDetPeak n s.wPeak).wI Ix.chnDetMean n mean).wI Ix.chnDetEnv n s.env
  let flag (b : Bool) (k : Nat) := if b then 2 ^ k else 0
  let d := d.emitTo (d.nI Ix.chnDetRing n) 0 (mkRec [
    (0x0D00, n * 2 ^ 40 + flag (0 < s.wSat) 35 + flag s.wGap 34 + flag s.wFlagged 33 + flag s.wPartial 32 + s.wSeq % 2 ^ 32),
    (0x0D01, sec48 s.wFirst), (0x0D02, frac48 s.wFirst), (0x0D03, s.wCount), (0x0D04, s.wPeak), (0x0D05, mean), (0x0D06, s.env),
    (0x0D07, s.wOvr % 2 ^ 24 * 2 ^ 24 + s.wSat % 2 ^ 24)])
  d.setDdc n { s with wIx := none, wCount := 0, wPeak := 0, wSum := 0, wOvr := 0, wSat := 0, wFlagged := false, wGap := false,
                      wPartial := false, wSeq := wrap48 (s.wSeq + 1) }

/-- Windows that lie whole inside a gap close one after the other, with nothing counted: `k` at most, up to window `w`. -/
def Dev.lostWindows (n w : Nat) : Nat → Dev → Dev
  | 0, d => d
  | k + 1, d =>
    match (d.ddc n).wIx with
    | some v => if v < w then Dev.lostWindows n w k (((d.setDdc n { d.ddc n with wGap := true }).closeWindow n).openWindow n (v + 1)) else d
    | none => d

/-- An output joins the detectors; windows before its own that are still open close first (R126, R127). -/
def Dev.detect (d : Dev) (n ne : Nat) (x : Sample) : Dev :=
  let w := d.winOf n ne
  let d := match (d.ddc n).wIx with
    | some v =>
      if v < w then
        let d := (d.closeWindow n).openWindow n (v + 1)
        Dev.lostWindows n w (w - (v + 1)) d
      else d
    | none => d.openWindow n w
  let s := d.ddc n
  let p := samplePower x
  d.setDdc n { s with
    wCount := s.wCount + 1, wPeak := max s.wPeak p, wSum := s.wSum + p
    wOvr := s.wOvr + (if x.ovr != 0 then 1 else 0), wSat := s.wSat + (if x.sat then 1 else 0)
    wFlagged := s.wFlagged || x.unsettled || x.truncated
    env := envStep (d.nI Ix.chnEnvAttack n) (d.nI Ix.chnEnvRelease n) s.env (sqrtRound (p * 2 ^ 46)) }

/-- Outputs of a DDC lost to a gap (R122, R132). -/
def Dev.ddcGap (d : Dev) (n first until_ count cause : Nat) : Dev :=
  let d := d.setDdc n { d.ddc n with wGap := true }
  (d.gap ⟨.ddc n, 1, first, until_, count, 0, cause⟩).incI Ix.chnGapSamples n count

/-! ### Outputs (R118 to R123) -/

/-- Whether a DDC is out of service with no standby in its place (R136). -/
def Dev.ddcAway (d : Dev) (n : Nat) : Bool := d.ddcState n == 4 && d.n0 Ix.chnStandbyFor != n

/-- Whether a DDC delivers outputs: running, settling, covered or repointed, or draining. -/
def Dev.ddcActive (d : Dev) (n : Nat) : Bool :=
  ((d.ddcState n == 1 || d.ddcState n == 2 || d.ddcState n == 3 || d.ddcState n == 4) || (d.ddc n).drain.isSome) && !(d.ddc n).stopped

/-- A DDC that gets no input: it is away itself, its link or section is suspended by a repointing, or a rate exceeds what the clock carries
(R134, R136, R443). -/
def Dev.ddcHeld (d : Dev) (n : Nat) : Bool :=
  let code := d.nI Ix.chnSrc n
  d.ddcAway n || (0x10 ≤ code && code < 0x20 && (d.linkSuspended (code - 0x10) || d.linkOver (code - 0x10))) ||
    (d.nI Ix.tbPllState 1 == 2 && decide (8 * d.clockKHz 2 * 1000000 < d.fIn n))

/-- The outputs that a DDC did not deliver before index n_e end as one gap with exact length, and the outputs that reach into it are
unsettled (R122, R132). -/
def Dev.ddcResume (d : Dev) (n ne : Nat) : Dev :=
  let x := d.ddc n
  match x.next with
  | none => d
  | some e =>
    if e < ne then
      let g := x.gapFirst.getD (d.ddcTime n e, 1)
      let fresh := x.gapRun.1 = 1 || x.gapRun.1 = 6
      let d := d.ddcGap n g.1 (d.ddcTime n ne) ((ne - e) / 2 ^ d.nI Ix.chnDepth n) g.2
      -- the standby's first output ends the interruption of a fault (R38, R482)
      let span := toNs (d.ddcTime n ne - g.1)
      let d := if x.gapRun.1 = 6 && d.n0 Ix.fltInterruptMax < span then d.w0 Ix.fltInterruptMax span else d
      let d := d.setDdc n { d.ddc n with gapFirst := none, gapRun := (5, 0), startIx := if fresh then ne else x.startIx }
      d.unsettle n x.gapRun.1 (d.ddcTime n ne) (d.ddcTime n (ne + max (d.gDelay n) x.gapRun.2))
    else d.setDdc n { x with gapFirst := none, gapRun := (5, 0) }

/-- The cause for which an output is UNSETTLED, if any: a change, a start, or input that did not come (R122). -/
def Dev.unsettledBy (d : Dev) (n ne : Nat) : Option Nat :=
  match (d.ddc n).runs.find? (fun r => r.from_ ≤ d.ddcTime n ne && d.ddcTime n ne < r.until_) with
  | some r => some r.cause
  | none => if d.reachesGap n ne then some 5 else none

/-- An output crosses into the Spectral Engine and the Trigger Unit (R17). -/
def Dev.outputCross (d : Dev) (n ne : Nat) (v : Sample) : Dev :=
  { d with chn := { d.chn with output := d.chn.output.set {} n ((d.chn.output.get {} n).accept.present [(ne, v)]) } }

/-- The same for an output of the chain that drains, whose source may have had another rate. -/
def Dev.outputCrossOld (d : Dev) (n ne : Nat) (v : Sample) : Dev :=
  { d with chn := { d.chn with outputOld := d.chn.outputOld.set {} n ((d.chn.outputOld.get {} n).accept.present [(ne, v)]) } }

/-- The source of a DDC has another rate from here on: what has crossed lies on the old grid. -/
def Dev.outputTurn (d : Dev) (n : Nat) : Dev :=
  { d with chn := { d.chn with outputOld := d.chn.outputOld.set {} n (d.chn.output.get {} n), output := d.chn.output.set {} n {} } }

/-- An output is delivered: counts, flags, detectors, and its way to the lane (R118 to R123, R126). -/
def Dev.ddcDeliver (d : Dev) (n ne stamp : Nat) (v : Sample) : Dev :=
  let d := if v.ovr != 0 then d.incI Ix.chnOvrCount n else d
  let d := if v.sat then
      let d := d.incI Ix.chnSatCount n
      if (d.ddc n).satRaised.any (fun r => d.now < r + sec) then d
      else (d.setDdc n { d.ddc n with satRaised := some d.now }).raise 4 Code.outputSaturation
    else d
  let d := d.detect n ne v
  let d := (d.analysed (n / 8) (0x20 + n) 1).outputCross n ne { v with env := (d.ddc n).env }
  (d.setDdc n { d.ddc n with stamp := stamp, out := v }).tally 0x0210 n 1

/-- An output of the chain that drains, under the settings it runs with: TRUNCATED where it reaches past B, from where on the chain takes
no input (R122). -/
def Dev.drainOutput (d : Dev) (n ne b : Nat) : Dev :=
  let e := d.overlay (d.ddc n).old
  let step := 2 ^ e.nI Ix.chnDepth n
  let stamp := e.ddcTime n ne
  let past : Bool := b ≤ e.ddcTime n (ne + e.gDelay n)
  let v := { e.ddcFlags n ne (e.ddcValue n ne) with truncated := past, settle := if past then 7 else 0 }
  let d := d.setDdc n { d.ddc n with oldNext := some (ne + step) }
  let d := if past then (d.oldStep n stamp).incI Ix.chnUnsettled n else d
  let d := (((d.overlay (d.ddc n).old).detect n ne v).overlay (d.ddcSetting n)).analysed (n / 8) (0x20 + n) 1
  let w := { v with env := (d.ddc n).env }
  let d := if e.fIn n = d.fIn n then d.outputCross n ne w else d.outputCrossOld n ne w
  let d := (d.setDdc n { d.ddc n with stamp := stamp, out := v }).tally 0x0210 n 1
  if b ≤ e.ddcTime n (ne + step) then (d.endOldRun n).setDdc n { (d.endOldRun n).ddc n with drain := none } else d

/-- An output of the chain in force. -/
def Dev.ddcOutput (d : Dev) (n ne : Nat) : Dev :=
  let code := d.nI Ix.chnSrc n
  let step := 2 ^ d.nI Ix.chnDepth n
  let x := d.ddc n
  if !d.ddcActive n || d.fIn n = 0 || ne % step != 0 || x.next.any (ne < ·) || !d.inputKnown code (ne + d.gDelay n) then d
  else if d.ddcHeld n || (d.inputAt code ne).isNone then
    if x.gapFirst.isSome then d
    else d.setDdc n { x with gapFirst := some (d.ddcTime n (x.next.getD ne), if d.ddcHeld n then 10 else 1) }
  else
    let stamp := d.ddcTime n ne
    -- what has crossed is acknowledged (R17)
    let d := (d.setCrossing code (d.crossing code).accept).ddcResume n ne
    let cause := d.unsettledBy n ne
    let v := { d.ddcFlags n ne (d.ddcValue n ne) with unsettled := cause.isSome, settle := cause.getD 0 }
    let d := (d.runStep n stamp cause).setDdc n { (d.runStep n stamp cause).ddc n with
      next := some (ne + step), runs := (d.ddc n).runs.filter (fun r => stamp < r.until_) }
    let d := if v.unsettled then d.incI Ix.chnUnsettled n else if d.ddcState n = 1 then d.wI Ix.chnState n 2 else d
    if v.unsettled && d.nI Ix.chnSettlePolicy n = 1 && cause != some 6 then d.ddcGap n stamp (d.ddcTime n (ne + step)) 1 8
    else d.ddcDeliver n ne stamp v

/-- DDC_OUTPUT: the output at index n_e is formed from what has crossed and released, or, where the source brings nothing at its instant, joins
a gap; `ecc` counts the memory errors corrected since the last (R118 to R123, R132). -/
def execDdcOutput (t ddc ne ecc : Nat) (s : State) : Res :=
  runIf (ddc < 33) t s fun d =>
    let d := if ecc = 0 then d else d.incI Ix.chnEccCorrected ddc ecc
    let x := d.ddc ddc
    let e := d.overlay x.old
    match x.drain with
    | some b =>
      if !x.stopped && ne % 2 ^ e.nI Ix.chnDepth ddc = 0 && e.ddcTime ddc ne < b && x.oldNext.all (· ≤ ne) then d.drainOutput ddc ne b
      else d.ddcOutput ddc ne
    | none => d.ddcOutput ddc ne

/-- A DDC's chain is off. -/
def Dev.ddcOff (d : Dev) (n : Nat) : Dev :=
  let d := (d.endRun n).endOldRun n
  (d.setDdc n { d.ddc n with next := none, runs := [], drain := none, gapFirst := none }).wI Ix.chnState n 0

/-- A drain is cut short: the outputs it has not released are a gap up to B (R122, Table 5.11). -/
def Dev.drainCut (d : Dev) (n : Nat) : Dev :=
  match (d.ddc n).drain with
  | none => d
  | some b =>
    let x := d.ddc n
    let e := d.overlay x.old
    let step := 2 ^ e.nI Ix.chnDepth n
    let left := match x.oldNext with | some k => (e.ddcAfter n b - k) / step | none => 0
    let d := (d.endOldRun n).setDdc n { (d.endOldRun n).ddc n with drain := none }
    if left = 0 then d else d.ddcGap n (e.ddcTime n (x.oldNext.getD 0)) b left 10

/-- DDC_DRAIN_TIMEOUT: 50 µs after B the outputs not yet released are discarded as a gap (R122, R487). -/
def execDdcDrainTimeout (t ddc : Nat) (s : State) : Res := runIf (ddc < 33) t s fun d =>
  match (d.ddc ddc).drain with
  | some b =>
    if b + us 50 ≤ d.time96 then
      let e := d.drainCut ddc
      let e := if e.out.gaps = d.out.gaps then e else e.raise 4 Code.drainForced
      if e.nI Ix.chnSrc ddc = 0 then e.ddcOff ddc else e
    else d
  | none => d

/-- DETECTOR_WINDOW_CLOSE: the open window's last output has been delivered, or its end has passed inside a gap (R126, R128). -/
def execDetectorWindowClose (t ddc : Nat) (s : State) : Res := runIf (ddc < 33) t s fun d =>
  let x := d.ddc ddc
  match x.wIx with
  | none => d
  | some w =>
    let past := d.winFirst ddc (w + 1)
    if x.next.any (past ≤ ·) then d.closeWindow ddc
    else if x.gapFirst.isSome && d.ddcTime ddc past ≤ d.time96 then
      ((d.setDdc ddc { x with wGap := true }).closeWindow ddc).openWindow ddc (w + 1)
    else d

/-! ### Faults and the standby (R34, R132 to R134) -/

/-- The next output instant of a DDC: the first that a fault affects. -/
def Dev.ddcNextTime (d : Dev) (n : Nat) : Nat := match (d.ddc n).next with | some e => d.ddcTime n e | none => d.time96

/-- A DDC's output stops for a cause; the record of its return names a cause of Table 5.5. -/
def Dev.ddcBreak (d : Dev) (n cause settle span : Nat) : Dev :=
  let x := d.ddc n
  d.setDdc n { x with gapFirst := some (x.gapFirst.getD (d.ddcNextTime n, cause)), gapRun := (settle, span) }

/-- The standby engages for a DDC: it takes configuration, source and phase; its first outputs are UNSETTLED (R132). -/
def Dev.engageStandby (d : Dev) (n : Nat) : Dev :=
  let d := (((d.w0 Ix.chnStandbyFor n).standbyAs n 2).wI Ix.chnState n 3).raise 4 Code.standbyEngaged
  (d.ddcBreak n 10 6 0).happen (.standby 2 n true)

/-- A failed DDC finds no standby: it stops, with a degradation event (R133). -/
def Dev.ddcStops (d : Dev) (n : Nat) : Dev :=
  let d := (d.wI Ix.chnState n 5).setDdc n { d.ddc n with stopped := true }
  (d.fault 3 Code.noStandby 2 n 0 0).happen (.degradation 2 [⟨Ix.chnSrc, n + 1, 0, 0⟩])

/-- Whether a repointing of an island runs. -/
def Dev.repointing (d : Dev) (isl : Nat) : Bool := match d.flt.repoint with | some r => r.isl == isl | none => false

/-- Whether the standby of an island covers a repointing of an instance (R34). -/
def Dev.coversRepoint (d : Dev) (isl n : Nat) : Bool := match d.flt.repoint with | some r => r.isl == isl && r.inst == n && r.out | none => false

/-- A repointing that runs is abandoned: its instance rejoins at once with its previous contents, and the standby is free (R34). -/
def Dev.repointAbandon (d : Dev) : Dev :=
  match d.flt.repoint with
  | some r =>
    let d := { d with flt := { d.flt with repoint := none }, chn := { d.chn with shadow := false } }
    let d := (d.w0 Ix.fltRepointState 0).w0 Ix.fltRepointTarget 0xFFFF
    let d := if r.isl = 2 && r.inst < 32 then
        let d := (d.w0 Ix.chnRepointState 0).standbyFree
        if r.out then d.wI Ix.chnState r.inst 2 else d
      else if r.isl = 3 && r.inst < 32 then
        let d := (d.w0 Ix.speRepointState 0).w0 Ix.speStandbyFor 0xFF
        if r.out then d.wI Ix.speCoreState r.inst 1 else d
      else d
    d.roundNext
  | none => d

/-- DDC_FAULT: the DDC fails, its output forms a gap, and the standby engages; a repointing that the standby covers gives way (R34, R132,
R133). -/
def execDdcFault (t ddc : Nat) (s : State) : Res := runIf (ddc < 32) t s fun d =>
  if (d.ddc ddc).failed then d else
    let on := d.nI Ix.chnSrc ddc != 0
    let covered := d.n0 Ix.chnStandbyFor
    let d := (d.fault 1 Code.ddcFault 2 ddc 0 0).wI Ix.chnState ddc 5
    let d := d.setDdc ddc { d.ddc ddc with failed := true }
    if !on then d
    else
      let d := d.ddcBreak ddc 10 6 0
      let free := covered = 0xFF || d.coversRepoint 2 covered
      if !free || d.flt.standbyFailed.contains 0 then d.ddcStops ddc
      else (if d.repointing 2 then d.repointAbandon else d).engageStandby ddc

/-- DDC_SELFTEST_DONE: the failed DDC is to rejoin at its next cut block boundary, or stays failed (R132, R133). -/
def execDdcSelftestDone (t ddc : Nat) (ok : Bool) (s : State) : Res := runIf (ddc < 32) t s fun d =>
  let x := d.ddc ddc
  if x.failed && ok then
    if d.nI Ix.chnSrc ddc = 0 then (d.setDdc ddc { x with failed := false, stopped := false }).wI Ix.chnState ddc 0
    else d.setDdc ddc { x with rejoin := true }
  else d

/-- DDC_STANDBY_FAIL: the standby fails while it covers a DDC, which then stops; or while it covers a repointing (R34, R133). -/
def execDdcStandbyFail (t : Nat) (s : State) : Res := run t s fun d =>
  let n := d.n0 Ix.chnStandbyFor
  let fail (d : Dev) : Dev := { d with flt := { d.flt with standbyFailed := 0 :: d.flt.standbyFailed } }.fault 3 Code.standbyFailed 2 32 0 0
  if d.repointing 2 && (n = 0xFF || d.coversRepoint 2 n) then ((fail d).repointAbandon).happen (.standby 2 32 false)
  else if n != 0xFF then
    let d := (fail d).standbyFree
    (d.ddcBreak n 10 1 0).ddcStops n
  else d

/-- DDCs that take a source code. -/
def Dev.ddcsOn (d : Dev) (code : Nat) : List Nat := (List.range 32).filter (fun n => d.nI Ix.chnSrc n == code)

/-- A section by its key, and the source code it serves. -/
def Dev.section_ (d : Dev) (k : Nat) : R2cSt := d.chn.sections.get {} k
def Dev.setSection (d : Dev) (k : Nat) (x : R2cSt) : Dev := { d with chn := { d.chn with sections := d.chn.sections.set {} k x } }
def sectionCode (k : Nat) : Nat := if k < 16 then 0x10 + k else k

/-- The wide path that takes a source code, if one does (R109). -/
def Dev.wideTaker (d : Dev) (code : Nat) : Option Nat :=
  if 0x10 ≤ code && code < 0x20 then d.wideOf (code - 0x10)
  else if 0x40 ≤ code && code < 0x44 && d.nI Ix.chnLaneSrc (code - 0x40) = 1 then some (code - 0x40) else none

/-- The source code that a wide path takes (R109). -/
def Dev.wideCode (d : Dev) (p : Nat) : Nat := if d.nI Ix.chnLaneSrc p = 1 then 0x40 + p else 0x10 + 4 * p

/-- The first 24 outputs of a wide path from an instant are UNSETTLED, for a cause of Table 5.5 (R130, R134). -/
def Dev.wideUnsettle (d : Dev) (p code first cause : Nat) : Dev :=
  let ne := d.srcAfter code 1 first
  d.setSection (0x80 + p) { d.section_ (0x80 + p) with unsettled := (first, d.srcTime code (ne + 24), cause) }

/-- A gap of a wide path (R134). -/
def Dev.wideGap (d : Dev) (p first until_ count : Nat) : Dev := d.gap ⟨.wide p, 1, first, until_, count, 0, 10⟩

/-- The consumers of a section lose its outputs from index `first` on: the DDCs on it have a gap and then 24 unsettled outputs, and so
has the wide path (R134). -/
def Dev.sectionLoss (d : Dev) (k first lost : Nat) (held : Bool) : Dev :=
  let code := sectionCode k
  let d := (d.ddcsOn code).foldl (fun (a : Dev) n => a.ddcBreak n 10 5 (24 * 2 ^ a.nI Ix.chnDepth n)) d
  match d.wideTaker code with
  | none => d
  | some p =>
    if held then d.setSection (0x80 + p) { d.section_ (0x80 + p) with gapFirst := some (d.srcTime code first, 10) }
    else (d.wideGap p (d.srcTime code first) (d.srcTime code (first + lost)) lost).wideUnsettle p code (d.srcTime code (first + lost)) 5

/-- REAL_TO_COMPLEX_PARITY: the section resets, and the `lost` outputs from index `first` on are a gap on every consumer; a third failure
within 1 s holds it down (R134). Keys 0x40 on name the sections of the playback channels. -/
def execRealToComplexParity (t link first lost : Nat) (s : State) : Res := runIf (link < 16 || (0x40 ≤ link && link < 0x44)) t s fun d =>
  let x := d.section_ link
  if x.heldDown then d else
    let near := x.fails.filter (fun w => d.now < w + sec)
    let held := 2 ≤ near.length
    let d := d.setSection link { x with fails := d.now :: near, heldDown := held }
    let code := sectionCode link
    let d := d.fault 2 0 2 (0x40 + link % 0x40) 0 (toNs (d.srcTime code (first + lost) - d.srcTime code first))
    let d := d.setCrossing code ((d.crossing code).accept.lose (2 * first) (2 * lost))
    let d := d.sectionLoss link first lost held
    if held then d.raise 4 Code.r2cFault else d

/-- The standby is asked for a repointing: why it is refused, if it is (R136). -/
def Dev.chnRepointRefusal (d : Dev) : Option Nat :=
  if d.flt.repoint.any (fun r => r.isl == 2 && r.inst < 32) then some Code.repointActive
  else if d.n0 Ix.chnStandbyFor != 0xFF then some Code.standbyBusy
  else if d.repointBusy then some Code.repointBusy
  else none

/-- Writing a DDC number to `chn.repoint`. -/
def Dev.chnRepoint (d : Dev) (path n : Nat) : Dev :=
  if 32 ≤ n then d.refuse path Ix.chnRepoint 0 Code.valueRange
  else match d.chnRepointRefusal with
    | some c => d.refuse path Ix.chnRepoint 0 c
    | none => d.repointStart 2 n 0

/-- CHN_REPOINT (R135, R136). -/
def execChnRepoint (t path ddc : Nat) (s : State) : Res := run t s fun d =>
  d.command path Ix.chnRepoint 0 ddc fun d => d.chnRepoint path ddc

/-- An abort with nothing to abort, or past its commit point: a notice on the path (R486). -/
def Dev.alreadyDone (d : Dev) (path : Nat) : Dev := d.raise path Code.alreadyDone

/-- A repointing of a DDC or core is aborted: before the first handover it ends; after it the instance returns at the next
boundary with its previous contents (R136, R166). -/
def Dev.repointAbort (d : Dev) (path isl stateIx : Nat) : Dev :=
  match d.flt.repoint with
  | some r =>
    if r.isl != isl || d.n0 Ix.fltUpdateState = 3 || d.n0 Ix.fltUpdateState = 5 then d.alreadyDone path
    else if r.out then
      ({ d with flt := { d.flt with repoint := some { r with aborted := true } } }.w0 stateIx 3).w0 Ix.fltRepointState 3
    else
      let d := { d with flt := { d.flt with repoint := none }, chn := { d.chn with shadow := false } }
      let d := if isl = 2 then d.standbyFree else d
      ((d.w0 stateIx 0).w0 Ix.fltRepointState 0).w0 Ix.fltRepointTarget 0xFFFF
  | none => d.alreadyDone path

/-- CHN_REPOINT_ABORT (R136, R486). -/
def execChnRepointAbort (t path : Nat) (s : State) : Res := run t s fun d =>
  d.command path Ix.chnRepoint 0 0xFF fun d => d.repointAbort path 2 Ix.chnRepointState

/-- A cut record (Table 1.6). -/
def Dev.cutRecord (d : Dev) (isl inst seq first hash suspended : Nat) : Dev :=
  d.emit isl (mkRec [(0x0C00, isl * 2 ^ 40 + inst * 2 ^ 32 + seq % 2 ^ 32), (0x0C01, sec48 first), (0x0C02, frac48 first),
    (0x0C03, hash), (0x0C04, suspended)])

/-- A handover takes the next cut sequence and writes a cut record (R30, R135). -/
def Dev.handoverRecord (d : Dev) (isl inst first suspended : Nat) : Dev :=
  let (n, d) := d.nextCut
  (d.cutRecord isl inst n first d.hash48 suspended).w0 Ix.modCutSeq n

/-- How long a chain settles in shadow: S = 2G(d) / f_in + 24 ns (R135). -/
def Dev.shadowTime (d : Dev) (n : Nat) : Nat := if d.fIn n = 0 then ns 24 else ceilDiv (2 * d.gDelay n * two48 * 1000) (d.fIn n) + ns 24

/-- A DDC is back at a cut block boundary with no standby to take over from: what it did not deliver is a gap, and it starts as after a
start (R133, R136); the samples lost. -/
def Dev.ddcReturn (d : Dev) (n first : Nat) : Nat × Dev :=
  let lost := match (d.ddc n).next with | some e => (d.ddcBlock n first - e) / 2 ^ d.nI Ix.chnDepth n | none => 0
  (lost, d.ddcBreak n 10 1 0)

/-- A failed DDC that passed its test takes its output back; the standby is freed (R132, R133). -/
def Dev.ddcRejoin (d : Dev) (n first : Nat) : Dev :=
  let x := d.ddc n
  if !x.rejoin then d
  else
    let lost := if x.stopped then (d.ddcReturn n first).1 else 0
    let d := if x.stopped then (d.ddcReturn n first).2 else d
    let d := d.setDdc n { d.ddc n with failed := false, stopped := false, rejoin := false }
    let d := if d.n0 Ix.chnStandbyFor = n then d.standbyFree else d
    (d.wI Ix.chnState n 2).handoverRecord 2 n first lost

/-- DDC_REPOINT_HANDOVER: at a cut block boundary output moves between the DDC and the standby (Table 5.8, R136); a DDC that passed its
test after a failure rejoins in the same way (R132). -/
def execDdcRepointHandover (t ddc first : Nat) (s : State) : Res := runIf (ddc < 32) t s fun d =>
  if d.ddcTime ddc (d.ddcBlock ddc first) != first then d
  else match d.flt.repoint with
  | some r =>
    if r.isl != 2 || r.inst != ddc then d.ddcRejoin ddc first
    else
      let st := d.n0 Ix.chnRepointState
      let noStandby := d.flt.standbyFailed.contains 0
      if st = 1 then
        if !noStandby && first < d.time96At (r.since + d.shadowTime ddc) then d
        else
          let d := { d with flt := { d.flt with repoint := some { r with out := true, began := first } }, chn := { d.chn with shadow := !noStandby } }
          let d := if noStandby then d.ddcBreak ddc 10 1 0 else (d.w0 Ix.chnStandbyFor ddc).standbyAs ddc 2
          (((d.wI Ix.chnState ddc 4).w0 Ix.chnRepointState 2).w0 Ix.fltRepointState 2).handoverRecord 2 ddc first 0
      else if st = 3 then
        let (lost, d) := if noStandby then d.ddcReturn ddc first else (0, d)
        let d := ((d.wI Ix.chnState ddc 2).standbyFree).w0 Ix.chnRepointState 0
        (d.handoverRecord 2 ddc first lost).repointDone
      else d
  | none => d.ddcRejoin ddc first

/-- DDC_UPDATE_DONE: the update is loaded and self-tested; a failed test keeps the previous contents (Table 5.8, R488). -/
def execDdcUpdateDone (t : Nat) (ok : Bool) (s : State) : Res := run t s fun d =>
  match d.flt.repoint with
  | some r =>
    if r.isl = 2 && d.n0 Ix.chnRepointState = 2 then
      let d := if ok then d else d.fault 2 Code.repointSelftest 2 r.inst 0 0
      let d := { d with flt := { d.flt with repoint := some { r with selfTestOk := ok } } }
      if r.out then (d.w0 Ix.chnRepointState 3).w0 Ix.fltRepointState 3
      else (d.w0 Ix.chnRepointState 0).repointDone
    else d
  | none => d

/-- Whether a source code is allowed for a DDC (R110). -/
def Dev.ddcSourceOk (d : Dev) (n code : Nat) : Bool :=
  code == 0 || (code / 0x10 == 1 && (code - 0x10) / 4 == n / 8 && !(d.lanesOf (code - 0x10)).isEmpty) || code == 0x40 + n / 8

/-- The Channeliser's part of a commit's checks for one DDC (R110, R111, R128). -/
def Dev.ddcCheck (d : Dev) (n : Nat) : Option Nat :=
  let code := d.nI Ix.chnSrc n
  if !d.ddcSourceOk n code then some Code.sourceInvalid
  else if 8 * d.checkKHz 2 * 1000000 < d.srcRate code then some Code.rateExceeded
  else if d.nI Ix.chnDetRing n != noRing && code != 0 &&
      2 ^ d.nI Ix.chnDetWindow n * 1000000000000 < 160 * d.fOut n then some Code.detRate
  else none

/-- The Channeliser's part of a commit's checks. -/
def Dev.chnCheck (d : Dev) : Option Nat := firstCode ((List.range 32).map d.ddcCheck)

/-- The oscillator of a DDC as it runs up to a boundary is kept for the input before it; from there the phase of R115. What a DDC that was off
starts from in mode 0 is the phase stored last: the spec says nothing of an oscillator that is off (DESIGN CHOICE, log entry 32). -/
def Dev.oscillatorCut (d old : Dev) (n was is : Nat) : Dev :=
  let x := d.ddc n
  let on := old.nI Ix.chnSrc n != 0
  let before := if on then old.phaseAt n was else x.phase
  d.setDdc n { x with
    mixFrom := if on then is else 0, mixPhase := before, mixFtw := old.rd Ix.chnNcoFreq (n + 1) 0
    phaseIx := is, phase := if d.nI Ix.chnRetuneMode n = 1 then d.nI Ix.chnNcoPhase n else before }

/-- A DDC starts a chain at B (R115, R122). -/
def Dev.ddcStart (d : Dev) (n b : Nat) : Dev :=
  let ne := d.ddcAfter n b
  let d := d.setDdc n { d.ddc n with next := some ne, startAt := b, startIx := ne, runs := [], run := none, wIx := none, wPartial := true, stopped := false,
                                     gapFirst := none, gapRun := (5, 0) }
  let d := d.wI Ix.chnState n 2
  let d := d.unsettle n 1 (d.ddcTime n ne) (d.ddcTime n (ne + d.gDelay n))
  if (d.ddc n).failed then
    if d.n0 Ix.chnStandbyFor = 0xFF && !d.flt.standbyFailed.contains 0 then d.engageStandby n else d.ddcStops n
  else d

/-- A DDC's chain stops at B: its outputs drain with its own settings; a drain before it is cut short (R122, Table 5.11). -/
def Dev.ddcStop (d old : Dev) (n b : Nat) : Dev :=
  let d := d.drainCut n
  let d := d.endRun n
  let d := if (d.ddc n).wIx.isNone then d else (d.setDdc n { d.ddc n with wPartial := true }).closeWindow n
  let d := d.setDdc n { d.ddc n with drain := some b, old := old.ddcSetting n, oldNext := (d.ddc n).next, oldRun := none }
  if d.n0 Ix.chnStandbyFor = n && d.nI Ix.chnSrc n = 0 then d.standbyFree else d

/-- The switch instant B of a DDC at a cut due at T: its first cut block boundary at or after T on the grid it runs on, or, where it is off, on
the grid of the new setting (R129). -/
def Dev.ddcSwitch (d old : Dev) (n due : Nat) : Nat :=
  if old.nI Ix.chnSrc n = 0 then d.ddcTime n (d.ddcBlock n due) else old.ddcTime n (old.ddcBlock n due)

/-- Whether a cut restarts the wide path that a DDC shares its source with, or the section before it (Table 5.7). -/
def Dev.restarts (d old : Dev) (code : Nat) : Bool :=
  let q := code - 0x10
  (0x10 ≤ code && code < 0x20 && old.nI Ix.chnRealFlip q != d.nI Ix.chnRealFlip q) ||
    (match d.wideTaker code with | some p => old.nI Ix.chnLaneSrc p != d.nI Ix.chnLaneSrc p | none => false)

/-- What a cut does to one DDC (R115, R125, R130, Table 5.7): rows that apply together leave one run, from the first output any of them flags to
the last, under the cause listed first. -/
def Dev.ddcCut (d old : Dev) (due n : Nat) : Dev :=
  let chg (ix : Nat) : Bool := old.rd ix (n + 1) 0 != d.rd ix (n + 1) 0
  let was := old.nI Ix.chnSrc n != 0
  let is := d.nI Ix.chnSrc n != 0
  let remade := chg Ix.chnDepth || chg Ix.chnFilterSet
  let b := d.ddcSwitch old n due
  let d := if was && (!is || remade) then d.ddcStop old n b else d
  let d := if old.fIn n = d.fIn n || !is then d else d.outputTurn n
  let retuned := chg Ix.chnNcoFreq || chg Ix.chnNcoPhase || chg Ix.chnRetuneMode
  let d := if is && (!was || remade || retuned || chg Ix.chnSrc) then d.oscillatorCut old n (old.ddcAfter n b) (d.ddcAfter n b) else d
  let d := if is && (!was || remade) then d.ddcStart n b
    else if is then
      let delayed := chg Ix.chnDelayInt || chg Ix.chnDelayFrac || chg Ix.chnFracEn
      let ne := d.ddcAfter n b
      let step := 2 ^ d.nI Ix.chnDepth n
      let g := d.gDelay n
      let frac := d.nI Ix.chnFracEn n = 1
      let rows := (if chg Ix.chnSrc then [(3, g, g)] else []) ++ (if retuned then [(2, g, g)] else []) ++
        (if delayed then [(4, if frac then 8 * step else 0, if frac then 8 * step else step)] else []) ++
        (if d.restarts old (d.nI Ix.chnSrc n) then [(3, 0, 24 * step)] else [])
      let d := match rows with
        | [] => d
        | r :: _ => d.unsettle n r.1 (d.ddcTime n (ne - rows.foldl (fun m x => max m x.2.1) 0)) (d.ddcTime n (ne + rows.foldl (fun m x => max m x.2.2) 0))
      let d := if chg Ix.chnSrc then d.setDdc n { d.ddc n with next := some ne } else d
      if (chg Ix.chnDetWindow || chg Ix.chnEnvAttack || chg Ix.chnEnvRelease) && (d.ddc n).wIx.isSome then
        -- a window that closes on the very instant closes whole (Table 5.11)
        let whole := old.winFirst n (old.winOf n ne) == ne
        let d := (d.setDdc n { d.ddc n with wPartial := (d.ddc n).wPartial || !whole }).closeWindow n
        d.setDdc n { d.ddc n with startAt := b }
      else d
    else if was then d.wI Ix.chnState n 0 else d
  if d.n0 Ix.chnStandbyFor = n then d.standbyAs n (d.nI Ix.chnState 32) else d

/-- A DDC whose source's rate a cut of Intake changes: its outputs go on where the new rate puts them, with its oscillator's phase; what the
link does not bring meanwhile is a gap (R115, R122). -/
def Dev.ddcFollow (d old : Dev) (due n : Nat) : Dev :=
  if d.nI Ix.chnSrc n = 0 || old.fIn n = d.fIn n || d.fIn n = 0 then d
  else
    let ne := d.ddcAfter n due
    let x := d.ddc n
    let gap := if x.next.isNone then x.gapFirst else some (x.gapFirst.getD (due, 1))
    let d := (d.oscillatorCut old n (old.ddcAfter n due) ne).outputTurn n
    d.setDdc n { d.ddc n with next := x.next.map (fun _ => ne), startIx := ne, gapFirst := gap, gapRun := (5, 0) }

/-- The DDCs follow a cut of Intake. -/
def Dev.ddcsFollow (d old : Dev) (due : Nat) : Dev := (List.range 32).foldl (fun (a : Dev) n => a.ddcFollow old due n) d

/-- A section that was held down runs again from a boundary: what its wide path missed is one gap (R134). -/
def Dev.sectionFree (d : Dev) (k first : Nat) : Dev :=
  if !(d.section_ k).heldDown then d
  else
    let d := d.setSection k {}
    match d.wideTaker (sectionCode k) with
    | none => d
    | some p =>
      match (d.section_ (0x80 + p)).gapFirst with
      | none => d
      | some g =>
        let count := samplesBetween g.1 first (d.srcRate (sectionCode k) / 1000)
        let d := (d.setSection (0x80 + p) { d.section_ (0x80 + p) with gapFirst := none }).wideGap p g.1 first count
        d.wideUnsettle p (sectionCode k) first 5

/-- A wide path whose source or section a cut changes restarts (Table 5.7). -/
def Dev.wideCut (d old : Dev) (first p : Nat) : Dev :=
  let code := d.wideCode p
  if d.restarts old code then d.wideUnsettle p code first 3 else d

/-- The Channeliser applies its part of a cut due at an instant, every DDC at its own switch instant; a restaged link frees its section (R129,
R134). -/
def Dev.chnCut (d old : Dev) (writes : List SWrite) (due : Nat) : Dev :=
  let d := (List.range 16).foldl (fun (a : Dev) q => if writes.any (a.touches q) then a.sectionFree q due else a) d
  let d := (List.range 4).foldl (fun (a : Dev) p => a.wideCut old due p) d
  (List.range 32).foldl (fun (a : Dev) n => a.ddcCut old due n) d

end Sys2Proof.Machine
end

