-- ==== Sys2Proof/Machine/Windows.lean ====
section
/-! DEFINITION. Windows of the Spectral Engine as the engine generates them, and what follows from their coefficients (R144, R145). -/

namespace Sys2Proof.Machine

/-- Cosine-sum coefficients a_k of Table 6.3 in 10^-9. -/
def cosineTerms (code : Nat) : List Nat :=
  if code = 0 then [1000000000]
  else if code = 1 then [500000000, 500000000]
  else if code = 2 then [358750000, 488290000, 141280000, 11680000]
  else [215578950, 416631580, 277263158, 83578947, 6947368]

/-- Q1.23 from a fixed-point number, convergently; 1.0 or more takes the most positive code (R144). -/
def q23 (num : Int) (den : Nat) : Int := min (2 ^ 23 - 1) (roundEven (num * 2 ^ 23) den)

/-- Coefficient n of N of a generated window: its code, and the parameter of `spe.kaiser_beta` or `spe.gauss_sigma` (R144). -/
def windowCoef (code param size n : Nat) : Int :=
  let off : Int := 2 * (n : Int) - size
  if code = 4 then
    -- the half squared of β √(1 − x²) is β² (1 − x²) / 4
    let q (y : Int) : Int := (param : Int) * param * y * 2 ^ 80 / (4 * 65536 * size * size : Nat)
    q23 (fxBessel (q (size * size - off * off))) (fxBessel (q (size * size))).toNat
  else if code = 5 then
    q23 (fxExpNeg (off * off * 65536 * 65536 * 2 ^ 80 / (2 * param * param * size * size : Nat))) (2 ^ 80)
  else
    let terms := (cosineTerms code).zipIdx.map (fun p => (if p.2 % 2 = 0 then (p.1 : Int) else -(p.1 : Int)) * fxCosTurn (p.2 * n) size)
    q23 terms.sum (10 ^ 9 * 2 ^ 80)

/-- The sums that a window's reports need: of its coefficients, of their squares, and of what they answer half a bin off, in fixed point. -/
structure WinSums where
  sum : Int := 0
  sq : Int := 0
  re : Int := 0
  im : Int := 0
deriving DecidableEq, Repr

/-- The sums of a window of some size, from its coefficients. -/
def winSums (w : Nat → Int) (size : Nat) : WinSums :=
  (List.range size).foldl (fun (a : WinSums) n =>
    let c := w n
    { sum := a.sum + c, sq := a.sq + c * c, re := a.re + c * fxCosTurn n (2 * size), im := a.im + c * fxSinTurn n (2 * size) }) {}

/-- ENBW × 65,536, convergently (R145). -/
def winEnbw (size : Nat) (s : WinSums) : Nat := if s.sum ≤ 0 then 0 else (roundEven (size * s.sq * 65536) (s.sum * s.sum).toNat).toNat

/-- ln 10 in units of 2^-80. -/
def fxLn10 : Int := 2783654570780253816072539

/-- Whether a power ratio (in fixed point, at most 1) is a loss of at least v in 0.001 dB, to the nearest. -/
def lossAtLeast (ratio : Int) (v : Nat) : Bool := ratio ≤ fxExpNeg (fxLn10 * (2 * v - 1 : Int) / 20000)

/-- The largest loss that holds, bit by bit. -/
def lossSearch (ratio : Int) : Nat → Nat → Nat
  | 0, v => v
  | k + 1, v => if lossAtLeast ratio (v + 2 ^ k) then lossSearch ratio k (v + 2 ^ k) else lossSearch ratio k v

/-- Scalloping loss in 0.001 dB: the response half a bin off against that at the bin's centre (R145). -/
def winScallop (s : WinSums) : Nat :=
  if s.sum ≤ 0 then 0 else lossSearch ((s.re * s.re + s.im * s.im) / (s.sum * s.sum * 2 ^ 80)) 16 0

end Sys2Proof.Machine
end

