-- ==== Sys2Proof/Machine/Spectral.lean ====
section
/-! DEFINITION. Spectral Engine: layers and spectra (06_spectral_engine.md). Layer 4p + l is layer l of lane p. -/

namespace Sys2Proof.Machine

def Dev.layer (d : Dev) (l : Nat) : LayerSt := d.spe.layers.get {} l
def Dev.setLayer (d : Dev) (l : Nat) (x : LayerSt) : Dev := { d with spe := { d.spe with layers := d.spe.layers.set {} l x } }

/-- The DDC a layer takes, if its source is one (R140). -/
def Dev.layerDdc (d : Dev) (l : Nat) : Option Nat :=
  let c := d.nI Ix.speLayerSrc l
  if 0x20 ≤ c && c < 0x40 then some (c - 0x20) else none

/-- Source rate of a layer, mHz. -/
def Dev.layerRate (d : Dev) (l : Nat) : Nat :=
  match d.layerDdc l with
  | some n => d.fOut n
  | none => if d.nI Ix.speLayerSrc l = 1 then d.srcRate (d.wideCode (l / 4)) else 0

def Dev.layerN (d : Dev) (l : Nat) : Nat := d.nI Ix.speLayerLen l
def Dev.layerHop (d : Dev) (l : Nat) : Nat := d.layerN l / 2 ^ d.nI Ix.speHopShift l
/-- Cost of a layer in milli-points per second (R142). -/
def Dev.layerCost (d : Dev) (l : Nat) : Nat := d.layerRate l * 2 ^ d.nI Ix.speHopShift l
/-- The instant of sample k of a layer's source, as the source carries it (R20). -/
def Dev.layerTime (d : Dev) (l k : Nat) : Nat :=
  match d.layerDdc l with
  | some n => d.ddcTime n (k * 2 ^ d.nI Ix.chnDepth n)
  | none => d.srcTime (d.wideCode (l / 4)) k
/-- The instant of frame m of a layer: that of its first sample (R141). -/
def Dev.frameTime (d : Dev) (l m : Nat) : Nat := d.layerTime l (m * d.layerHop l)

/-- The layers of a lane that are on. -/
def Dev.laneLayers (d : Dev) (p : Nat) : List Nat := ((List.range 4).map (fun l => 4 * p + l)).filter (fun l => d.nI Ix.speLayerSrc l != 0)

/-- Layer memory M in bytes (R143). -/
def Dev.layerMem (d : Dev) (l : Nat) : Nat :=
  let n := d.layerN l
  6 * (n - d.layerHop l) + (if 4096 < n then 8 * n * ceilDiv (d.layerCost l) 12800000000000 else 0) +
  (if 1 < d.nI Ix.speDetCount l then 8 * n / 2 ^ d.nI Ix.speDetBins l else 0) + (if d.nI Ix.speWindow l = 6 then 4 * n else 0)

/-- Whether a layer feeds a mask, or its lane's density plane (Table 6.1). -/
def Dev.feedsMask (d : Dev) (l : Nat) : Bool := (List.range 64).any (fun k => d.nI Ix.trgMaskLayer k == l)
def Dev.feedsDensity (d : Dev) (l : Nat) : Bool := d.nI Ix.denLayer (l / 4) == l % 4

/-- Whether the standby core is free to take a failed core's share: covering a repointing, it gives way (R34, R163). -/
def Dev.coreStandbyFree (d : Dev) : Bool :=
  !d.flt.standbyFailed.contains 1 && (d.n0 Ix.speStandbyFor == 0xFF || d.coversRepoint 3 (d.n0 Ix.speStandbyFor))

/-- Failed cores of a lane that the standby does not cover. -/
def Dev.coresOut (d : Dev) (p : Nat) : Nat := (d.spe.coreFailed.filter (fun c => c / 8 == p && d.n0 Ix.speStandbyFor != c)).length

/-- Cores that a lane can count on: eight, but for those that failed with no standby to take their share (R142, R164). -/
def Dev.laneCores (d : Dev) (p : Nat) : Nat := 8 - (d.coresOut p - (if d.coreStandbyFree then 1 else 0))

/-- The first limit of Table 6.1 that a set of layers of a lane breaks. -/
def Dev.laneLimit (d : Dev) (p : Nat) (ls : List Nat) : Option Nat :=
  let clk := d.checkKHz 3 * 1000000
  let cost := (ls.map d.layerCost).sum
  let frames := (ls.map (fun l => d.layerRate l / max (d.layerHop l) 1)).sum
  let mem := (ls.map d.layerMem).sum
  let bus := ((ls.filterMap d.layerDdc).dedup.map d.fOut).sum
  if 8 * d.laneCores p * clk < cost then some Code.layerBudget
  else if clk < 8 * frames then some Code.spectraRate
  else if 16777216 < mem then some Code.layerMemory
  else if 8 * clk < bus then some Code.sourceRate
  else if ls.any (fun l => d.feedsMask l && 32 * clk < d.layerCost l) then some Code.maskFeedRate
  else if ls.any (fun l => d.feedsDensity l && 32 * clk < d.layerCost l) then some Code.densityFeedRate
  else none

/-- The parameter of a generated window. -/
def Dev.windowParam (d : Dev) (l : Nat) : Nat :=
  if d.nI Ix.speWindow l = 4 then d.nI Ix.speKaiserBeta l else if d.nI Ix.speWindow l = 5 then d.nI Ix.speGaussSigma l else 0

/-- A coefficient of a layer's user table, Q1.23. -/
def Dev.userCoef (d : Dev) (l k : Nat) : Int := d.rd Ix.speUserCoef 0 (l * 2 ^ 20 + k)

/-- Coefficient k of the window in force on a layer (R144, R146). -/
def Dev.layerWindow (d : Dev) (l k : Nat) : Int :=
  if d.nI Ix.speWindow l = 6 then d.userCoef l k else windowCoef (d.nI Ix.speWindow l) (d.windowParam l) (d.layerN l) k

/-- What the reports of a layer's window need (R145). -/
def Dev.layerSums (d : Dev) (l : Nat) : WinSums := winSums (d.layerWindow l) (d.layerN l)

/-- Usable factor of a layer's source, in units of N / 2^6 (R149): 25 is 0.390625, 16 is 0.25, 32 is all bins. R149 speaks of links; a
playback channel is taken as a link of its kind, since its real recordings pass the same section (DEDUCED, log entry 35). -/
def Dev.usable64 (d : Dev) (l : Nat) : Nat :=
  let real (code : Nat) : Bool := d.rawPer code == 2
  match d.layerDdc l with
  | some n =>
    if d.nI Ix.chnDepth n = 0 then (if real (d.nI Ix.chnSrc n) then 25 else 32)
    else if d.nI Ix.chnFilterSet n = 0 then 25 else 16
  | none => if real (d.wideCode (l / 4)) then 25 else 32

/-- Centre frequency f_ctr in mHz (R148); for a playback channel, which has no converter input, referred to the band it plays (log entry
35). -/
def Dev.layerCentre (d : Dev) (l : Nat) : Int :=
  let link (code : Nat) : Option Nat := if 0x10 ≤ code && code < 0x20 then some (code - 0x10) else none
  match d.layerDdc l with
  | some n =>
    let f : Int := roundEven (d.rd Ix.chnNcoFreq (n + 1) 0 * d.fIn n) two48
    match link (d.nI Ix.chnSrc n) with
    | some q =>
      if d.linkReal q then
        let base : Int := (d.linkFs q * 250 : Nat)
        if d.nI Ix.chnRealFlip q = 1 then base - f else base + f
      else f
    | none => f
  | none => match link (d.wideCode (l / 4)) with
    | some q => if d.linkReal q then ((d.linkFs q * 250 : Nat) : Int) else 0
    | none => 0

/-- Whether bins descend in input frequency (R148). -/
def Dev.descends (d : Dev) (l : Nat) : Bool :=
  let code := match d.layerDdc l with | some n => d.nI Ix.chnSrc n | none => d.wideCode (l / 4)
  0x10 ≤ code && code < 0x20 && d.linkReal (code - 0x10) && d.nI Ix.chnRealFlip (code - 0x10) = 1

/-- First usable point and how many (R149): a point is usable when all of its bins are. -/
def Dev.usablePoints (d : Dev) (l : Nat) : Nat × Nat :=
  let n := d.layerN l
  let b := 2 ^ d.nI Ix.speDetBins l
  let u := d.usable64 l
  let lo := n / 2 - min (u * n / 64) (n / 2)
  let hi := min (n / 2 + u * n / 64) (n - 1)
  let first := ceilDiv lo b
  (first, (hi + 1) / b - first)

/-- Arithmetic noise of a width, 0.1 dBFS (R150). -/
def widthFloor (w : Nat) : Int := if w = 32 then -1900 else if w = 24 then -1420 else -940

/-- Latency L(N) in clocks (R155). -/
def layerClocks (n : Nat) : Nat := n / 4 + 16 * n.log2 + 1312

/-- The window reports of a layer (R145). -/
def Dev.windowReport (d : Dev) (l : Nat) : Dev :=
  let s := d.layerSums l
  (d.wI Ix.speEnbw l (winEnbw (d.layerN l) s)).wI Ix.speScallop l (winScallop s)

/-- The other report entries of a layer follow its setting and its source (R142 to R155), rounded convergently (log entry 26). -/
def Dev.layerReport (d : Dev) (l : Nat) : Dev :=
  let f := d.layerRate l
  let on := d.nI Ix.speLayerSrc l != 0
  let ratio (a b : Nat) : Nat := (roundEven (a : Int) b).toNat
  let d := d.wI Ix.speLayerCost l (if on then ratio (d.layerCost l) 1000000000 else 0)
  let d := d.wI Ix.speLayerMem l (if on then d.layerMem l else 0)
  let d := d.wI Ix.speIntercept l (if f = 0 then 0 else ratio ((d.layerN l + d.layerHop l) * 1000000000000000) f)
  let d := d.wI Ix.speLatency l (ratio (layerClocks (d.layerN l) * 1000000) (max (d.clockKHz 3) 1))
  let d := d.wr Ix.speFloor (l + 1) 0 (widthFloor (d.nI Ix.speWidth (l / 4)))
  let d := d.wr Ix.speCentre (l + 1) 0 (d.layerCentre l)
  let u := d.usablePoints l
  (d.wI Ix.speUsableFirst l u.1).wI Ix.speUsableCount l u.2

/-- The report entries of a lane; its cores are in service while it has a layer (R167). -/
def Dev.laneReport (d : Dev) (p : Nat) : Dev :=
  let ls := d.laneLayers p
  let ratio (a b : Nat) : Nat := (roundEven (a : Int) b).toNat
  let d := d.wI Ix.speLaneCost p (ratio (ls.map d.layerCost).sum 1000000000)
  let d := d.wI Ix.speLaneFrames p (ratio (ls.map (fun l => d.layerRate l / max (d.layerHop l) 1)).sum 1000)
  let d := d.wI Ix.speLaneMem p (ls.map d.layerMem).sum
  (List.range 8).foldl (fun (a : Dev) k =>
    if a.nI Ix.speCoreState (8 * p + k) ≤ 1 then a.wI Ix.speCoreState (8 * p + k) (if ls.isEmpty then 0 else 1) else a) d

/-- Every report of the Spectral Engine that follows sources, settings and clock. -/
def Dev.speReports (d : Dev) : Dev :=
  let d := (List.range 16).foldl (fun (a : Dev) l => a.layerReport l) d
  (List.range 4).foldl (fun (a : Dev) p => a.laneReport p) d

/-- Every report that follows sources, settings and the pipeline's clocks. -/
def Dev.pipeReports (d : Dev) : Dev := d.ddcReports.speReports

/-! ### Values of bins (R5 to R7, R147) -/

/-- PWR48 of a complex value X / Σw given in units of 2^-30, and whether it saturated. -/
def pwr48 (x : Int × Int) : Nat × Bool :=
  let p := (roundEven (x.1 * x.1 + x.2 * x.2) (2 ^ 14)).toNat
  (min p (two48 - 1), two48 ≤ p)

/-- A complex bin as CPLX24: X / (2 Σw), and whether it saturated. -/
def cplxBin (x : Int × Int) : (Int × Int) × Bool :=
  let a := roundEven x.1 (2 ^ 8)
  let b := roundEven x.2 (2 ^ 8)
  let c := clampInt (-(2 ^ 23)) (2 ^ 23 - 1)
  ((c a, c b), c a != a || c b != b)

/-- Whether 10^((2v − 1)/5120) ≤ p / 2^46, that is whether LOG16 of p is at least v (R7). -/
def logAtLeast (p : Nat) (v : Int) : Bool :=
  let e := 2 * v - 1
  if 0 ≤ e then 10 ^ e.toNat * 2 ^ (46 * 5120) ≤ p ^ 5120 else 2 ^ (46 * 5120) ≤ p ^ 5120 * 10 ^ (-e).toNat

/-- The largest v from a base upward, bit by bit, that `logAtLeast` admits. -/
def logSearch (p : Nat) : Nat → Int → Int
  | 0, v => v
  | k + 1, v => if logAtLeast p (v + (2 ^ k : Nat)) then logSearch p k (v + (2 ^ k : Nat)) else logSearch p k v

/-- LOG16 of a power: 256 · 10 log10(P / 2^46) rounded, from −32,768 to 32,767 (R7). -/
def log16 (p : Nat) : Int := if p = 0 then -32768 else logSearch p 16 (-32768)

/-- RMS point: A = 2^23 · √(sum / n), rounded once, convergently (R152). -/
def rmsPoint (sum n : Nat) : Nat :=
  let x := sum * 2 ^ 46
  let r := isqrtFrom 64 0 (x / n)
  let h := (2 * r + 1) * (2 * r + 1) * n
  if h < 4 * x || (h = 4 * x && r % 2 = 1) then r + 1 else r

/-- Whether a power lies below what LOG16 can say: its conversion saturates (R5, R7). -/
def logLow (p : Nat) : Bool := !logAtLeast p (-32768)

/-! ### Frames and traces -/

/-- The masks bound to a layer. -/
def Dev.layerMasks (d : Dev) (l : Nat) : List Nat := (List.range 64).filter (fun m => d.nI Ix.trgMaskLayer m == l)

/-- Frames of a layer lost to a gap count as lost at its masks that are neither off nor stopped (R181). -/
def Dev.masksLost (d : Dev) (l count : Nat) : Dev :=
  (d.layerMasks l).foldl (fun (a : Dev) m =>
    if a.nI Ix.trgMaskState m = 1 || a.nI Ix.trgMaskState m = 3 then a.incI Ix.trgMaskLost m count else a) d

/-- Whether a layer feeds its lane's plane at an instant: before a cut's boundary as the old setting has it (R225). -/
def Dev.feedsAt (d : Dev) (l time : Nat) : Bool :=
  match (d.den.planes.get {} (l / 4)).before with
  | some (b, old) => if time < b then (d.overlay old).feedsDensity l else d.feedsDensity l
  | none => d.feedsDensity l

/-- Frames lost from an instant on, on the layer that feeds its lane's plane, count there (R214). -/
def Dev.planeLost (d : Dev) (l count time : Nat) : Dev :=
  if d.feedsAt l time && d.nI Ix.denState (l / 4) != 0 then
    let x := d.den.planes.get {} (l / 4)
    { d with den := { d.den with planes := d.den.planes.put (l / 4) { x with lost := x.lost + count } } }.incI Ix.denFramesLost (l / 4) count
  else d

/-- Frames of a layer lost to a gap under a setting `cfg`, at its masks and its plane too (R154, R181, R214); `old`: they start before a
cut's T. -/
def Dev.layerGapOn (cfg d : Dev) (l m count cause : Nat) (old : Bool) : Dev :=
  let d := (d.gap ⟨.layer l, 2, cfg.frameTime l m, cfg.frameTime l (m + count), count, 0, cause⟩).incI Ix.speFramesLost l count
  let x := d.layer l
  let d := d.setLayer l (if old then { x with oldNext := some (max (x.oldNext.getD 0) (m + count)) }
    else { x with next := some (max (x.next.getD 0) (m + count)) })
  (d.masksLost l count).planeLost l count (cfg.frameTime l m)

/-- The same under the setting in force. -/
def Dev.layerGap (d : Dev) (l m count cause : Nat) : Dev := d.layerGapOn d l m count cause false

/-- The bins of a point, by groups of 2^b. -/
def groups (size : Nat) : Nat → List Nat → List (List Nat)
  | 0, _ => []
  | k + 1, l => if l.isEmpty then [] else l.take size :: groups size k (l.drop size)

/-- One frame's contribution to a point by detector (Table of R152): sample, peak, minimum, or the sum for averages. -/
def detOf (det : Nat) (g : List Nat) : Nat :=
  if det = 0 then g.headD 0 else if det = 1 then g.foldl max 0 else if det = 2 then g.foldl min (g.headD 0) else g.sum

/-- A frame's points joined to a trace's. -/
def detJoin (det : Nat) (old new : List Nat) : List Nat :=
  if old.isEmpty then new
  else (old.zip new).map (fun p => if det = 0 then p.2 else if det = 1 then max p.1 p.2 else if det = 2 then min p.1 p.2 else p.1 + p.2)

/-- A point's value from what was gathered over `frames` frames of 2^b bins. -/
def detValue (det b frames v : Nat) : Nat :=
  if det = 3 then (roundEven (v : Int) (max 1 (frames * 2 ^ b))).toNat
  else if det = 4 then rmsPoint v (max 1 (frames * 2 ^ b))
  else v

/-- Bytes of a point in a record format, from its value, its LOG16 and its complex value (R157). -/
def pointBytes (format v : Nat) (log : Int) (c : Int × Int) : List Byte :=
  if format = 1 then leBytes 2 (toTwos 16 log) else if format = 2 then leBytes 6 v
  else leBytes 3 (toTwos 24 c.1) ++ leBytes 3 (toTwos 24 c.2)

/-- Bytes padded with zeros to a multiple of 8. -/
def pad8 (l : List Byte) : List Byte := l ++ List.replicate ((8 - l.length % 8) % 8) 0

/-- The points of a trace under a layer's setting. -/
def Dev.tracePoints (d : Dev) (l : Nat) (x : TraceSt) : List Nat := x.points.map (detValue (d.nI Ix.speDet l) (d.nI Ix.speDetBins l) x.frames)

/-- The same as powers: RMS reads as the power average (R152). -/
def Dev.tracePowers (d : Dev) (l : Nat) (x : TraceSt) : List Nat :=
  x.points.map (detValue (if d.nI Ix.speDet l = 4 then 3 else d.nI Ix.speDet l) (d.nI Ix.speDetBins l) x.frames)

/-- The same in LOG16. -/
def Dev.traceLogs (d : Dev) (l : Nat) (x : TraceSt) : List Int := (d.tracePowers l x).map log16

/-- The points that a trace's record holds: the first and how many (R157). -/
def Dev.traceRange (d : Dev) (l : Nat) (x : TraceSt) : Nat × Nat := if x.recCount = 0 then d.usablePoints l else (x.recFirst, x.recCount)

/-- The recorded points of a trace that saturate in their conversion to the record format (R5, R147). -/
def Dev.traceConv (d : Dev) (l : Nat) (x : TraceSt) : List Nat :=
  let u := d.traceRange l x
  let bad (j : Nat) : Bool := if x.format = 3 then (cplxBin (x.cplx.getD j (0, 0))).2 else x.format == 1 && logLow ((d.tracePowers l x).getD j 0)
  ((List.range u.2).map (u.1 + ·)).filter bad

/-- The spectrum record of a trace (Tables 6.6 and R157), under the setting it was computed with. -/
def Dev.spectrumRecord (d : Dev) (l : Nat) (x : TraceSt) (partial_ : Bool) : Rec :=
  let fmt := x.format
  let u := d.traceRange l x
  let pts := ((d.tracePoints l x).drop u.1).take u.2
  let cpx := ((x.cplx.drop u.1).take u.2).map (fun c => (cplxBin c).1)
  let logs := if fmt = 1 then ((d.traceLogs l x).drop u.1).take u.2 else []
  let pay := pad8 ((pts.zipIdx.map (fun p => pointBytes fmt p.1 (logs.getD p.2 0) (cpx.getD p.2 (0, 0)))).flatten)
  let sat := (((List.range u.2).map (u.1 + ·)).filter (fun j => x.satPts.contains j || (d.traceConv l x).contains j)).length
  let tm := d.frameTime l (x.first.getD 0)
  mkRec [(0x0E00, l / 4 * 2 ^ 40 + l % 4 * 2 ^ 38 + fmt * 2 ^ 32 + d.nI Ix.speTraces l % 2 ^ 32),
    (0x0E01, sec48 tm), (0x0E02, frac48 tm),
    (0x0E03, (d.layerN l).log2 * 2 ^ 43 + d.nI Ix.speHopShift l * 2 ^ 40 + d.nI Ix.speDet l * 2 ^ 37 + d.nI Ix.speDetBins l * 2 ^ 33 +
      (d.nI Ix.speDetCount l - 1) * 2 ^ 17 + d.nI Ix.speWindow l * 2 ^ 14 + (if d.descends l then 2 ^ 13 else 0)),
    (0x0E04, u.1 * 2 ^ 24 + u.2),
    (0x0E05, x.exp * 2 ^ 40 + x.flags * 2 ^ 32 + (if partial_ then 2 ^ 33 else 0) + x.frames),
    (0x0E06, d.layerRate l), (0x0E07, toTwos 48 (d.layerCentre l)), (0x0E08, d.hash48),
    (0x0E09, sat % 2 ^ 24 * 2 ^ 24 + pay.length / 8)] pay

/-- BIN_SATURATION is raised at most once per second per layer (R147). -/
def Dev.binSaturation (d : Dev) (l : Nat) : Dev :=
  let x := d.layer l
  let due : Bool := match x.satRaised with | some r => decide (r + sec ≤ d.now) | none => true
  if due then (d.setLayer l { x with satRaised := some d.now }).raise 4 Code.binSaturation else d

/-- Saturated bins or points of a layer are counted (R5, R147). -/
def Dev.binsSaturated (d : Dev) (l n : Nat) : Dev := if n = 0 then d else (d.incI Ix.speSatCount l n).binSaturation l

/-- A trace that holds a frame is emitted, under the setting it was computed with (`cfg`): counted, and recorded while records are on; an
empty one is not emitted (R153, R156). -/
def Dev.traceEmit (d cfg : Dev) (l : Nat) (x : TraceSt) (partial_ : Bool) : Dev :=
  if x.frames = 0 then d
  else
    let d := if x.format = 0 then d
      else (d.emitTo x.ring 0 (cfg.spectrumRecord l x partial_)).binsSaturated l (cfg.traceConv l x).length
    d.incI Ix.speTraces l

/-- Frames per trace (R152). -/
def Dev.traceLen (d : Dev) (l : Nat) : Nat := max (d.nI Ix.speDetCount l) 1

/-- A frame joins a trace of its layer: points, flags, exponent (R152, R153). `flags` has OVR, CRC, UNSETTLED, SAT, GAPFILL and TRUNCATED
in bits 7 to 2, as in header slot 5 bits 39 to 34. -/
def Dev.joinTrace (d : Dev) (l m : Nat) (x : TraceSt) (ps : List (Nat × Bool)) (bins : List (Int × Int)) (flags exponent : Nat) : TraceSt :=
  let det := d.nI Ix.speDet l
  let size := 2 ^ d.nI Ix.speDetBins l
  let pts := (groups size ps.length (ps.map (·.1))).map (detOf det)
  let ovs := ((ps.zipIdx.filter (fun p => p.1.2)).map (fun p => p.2 / size)).dedup
  let x : TraceSt := if x.first.isSome then x else { x with
    format := d.nI Ix.speRecFormat l, ring := d.nI Ix.speRing l, recFirst := d.nI Ix.speRecFirst l, recCount := d.nI Ix.speRecCount l }
  { x with
    first := some (x.first.getD m), frames := x.frames + 1, points := detJoin det x.points pts
    cplx := if x.format = 3 then bins else []
    flags := Nat.lor x.flags (flags / 4 * 4 + (if d.nI Ix.speWidth (l / 4) < 32 then 1 else 0)), exp := max x.exp exponent
    satPts := (if det = 0 then [] else x.satPts) ++ ovs.filter (fun j => det == 0 || !x.satPts.contains j) }

/-! ### The setting of a frame (R159) -/

/-- The entries that a frame is computed under: the layer's, the width of its lane, and what gives its source its rate. -/
def Dev.layerSetting (d : Dev) (l : Nat) : List SWrite :=
  let keep (ix sub : Nat) : SWrite := ⟨ix, sub, 0, d.rd ix sub 0⟩
  let code := match d.layerDdc l with | some n => d.nI Ix.chnSrc n | none => d.wideCode (l / 4)
  ((List.range 14).map (fun i => keep (0x3400 + i) (l + 1))) ++ [keep Ix.speWidth (l / 4 + 1)] ++
    (match d.layerDdc l with | some n => [keep Ix.chnSrc (n + 1), keep Ix.chnDepth (n + 1)] | none => [keep Ix.chnLaneSrc (l / 4 + 1)]) ++
    (if 0x10 ≤ code && code < 0x20 then [keep Ix.itkFs (code - 0xF), keep Ix.itkMode (code - 0xF)] else [])

/-- Index of the first frame of a layer that starts at or after an instant (R141). -/
def Dev.frameAfter (d : Dev) (l time : Nat) : Nat :=
  match d.layerDdc l with
  | some n => d.srcAfter (d.nI Ix.chnSrc n) (2 ^ d.nI Ix.chnDepth n * d.layerHop l) time / (2 ^ d.nI Ix.chnDepth n * max (d.layerHop l) 1)
  | none => d.srcAfter (d.wideCode (l / 4)) (d.layerHop l) time / max (d.layerHop l) 1

/-- Whether frame m of a layer is one of the setting before a cut: it starts before T, and is still to come (R159). -/
def Dev.oldFrame (d : Dev) (l m : Nat) : Bool :=
  let x := d.layer l
  match x.oldUntil with
  | some b => x.oldNext.all (· ≤ m) && (d.overlay x.old).frameTime l m < b
  | none => false

/-- The setting before a cut has done its last frame: its trace, if the cut ended it, closes PARTIAL (R153, R159). -/
def Dev.oldDone (d : Dev) (l : Nat) : Dev :=
  let x := d.layer l
  let d := match x.oldTrace with | some tr => d.traceEmit (d.overlay x.old) l tr true | none => d
  d.setLayer l { d.layer l with oldUntil := none, old := [], oldNext := none, oldTrace := none }

/-- A layer's stop completes: its open trace closes PARTIAL, and its source reads 0x00 (R153, R159). -/
def Dev.layerStopped (d : Dev) (l : Nat) : Dev :=
  let d := d.traceEmit d l (d.layer l).trace true
  let d := d.setLayer l { d.layer l with drain := none, next := none, trace := {} }
  ((d.wI Ix.speLayerSrc l 0).layerReport l).laneReport (l / 4)

/-- LAYER_STOP_TIMEOUT: frames begun before T and not complete 50 µs after it are discarded into a gap, and the stop completes (R159). -/
def execLayerStopTimeout (t layer : Nat) (s : State) : Res := runIf (layer < 16) t s fun d =>
  match (d.layer layer).drain with
  | some b =>
    if b + us 50 ≤ d.time96 then
      let from_ := (d.layer layer).next.getD (d.frameAfter layer b)
      let left := d.frameAfter layer b - from_
      (if left = 0 then d else (d.layerGap layer from_ left 10).raise 4 Code.drainForced).layerStopped layer
    else d
  | none => d

/-- LAYER_MEM_ERROR: an uncorrectable layer-pool word loses the frames that read it (R162). -/
def execLayerMemError (t layer m lost : Nat) (s : State) : Res := runIf (layer < 16) t s fun d =>
  (d.layerGap layer m lost 10).fault 2 Code.layerMemError 3 layer 0 0

/-- The cost of a lane in milli-points per second. -/
def Dev.laneCost (d : Dev) (p : Nat) : Nat := ((d.laneLayers p).map d.layerCost).sum

/-- Layers to shed until a lane's limits hold: those that feed neither masks nor density first, highest number first (R161). -/
def Dev.shedList (d : Dev) (p : Nat) : Nat → List Nat → List Nat
  | 0, _ => []
  | k + 1, ls =>
    if (d.laneLimit p ls).isNone then []
    else
      let order := ls.reverse
      let pick := match order.find? (fun l => !d.feedsMask l && !d.feedsDensity l) with
        | some l => some l
        | none => order.head?
      match pick with
      | some l => l :: d.shedList p k (ls.filter (fun x => x != l))
      | none => []

/-- A lane beyond its limits sheds layers at the next cut (R161). -/
def Dev.shedLane (d : Dev) (p : Nat) : Dev :=
  let out := d.shedList p 4 (d.laneLayers p)
  if out.isEmpty then d
  else d.engineCut { kind := .shedding, due := d.soon, isl := 3, writes := out.map (fun l => ⟨Ix.speLayerSrc, l + 1, 0, 0⟩) }

/-- A failed core with no standby stays out; its lane has seven cores and sheds (R164). -/
def Dev.coreAlone (d : Dev) (core : Nat) : Dev :=
  let d := (d.wI Ix.speCoreState core 4).fault 3 Code.coreNoStandby 3 core 0 0
  (d.happen (.degradation 3 ((d.shedList (core / 8) 4 (d.laneLayers (core / 8))).map (fun l => ⟨Ix.speLayerSrc, l + 1, 0, 0⟩)))).shedLane (core / 8)

/-- What the cores of a lane that are in service carry, at the clock in force (R163). -/
def Dev.coresCarry (d : Dev) (p : Nat) : Nat := 8 * (8 - d.coresOut p) * d.clockKHz 3 * 1000000

/-- The standby core takes a failed core's share within 30 µs; a repointing that it covers gives way (R34, R163). -/
def Dev.coreEngage (d : Dev) (core : Nat) : Dev :=
  let d := if d.coversRepoint 3 (d.n0 Ix.speStandbyFor) then d.repointAbandon else d
  let d := { d with spe := { d.spe with shareLost := d.spe.shareLost.put core (d.now + us 30) } }
  ((((d.w0 Ix.speStandbyFor core).wI Ix.speCoreState core 2).wI Ix.speCoreState 32 1).raise 4 Code.coreStandbyEngaged).happen (.standby 3 core true)

/-- A lane whose cost its cores do not carry asks the standby for a failed core's share (R163). -/
def Dev.coreNeed (d : Dev) (p : Nat) : Dev :=
  match d.spe.coreFailed.find? (fun c => c / 8 == p && d.n0 Ix.speStandbyFor != c) with
  | some c => if d.coresCarry p < d.laneCost p && d.coreStandbyFree then d.coreEngage c else d
  | none => d

/-- CORE_FAULT: the frames in flight are lost, and the standby engages when the lane needs it; with the standby covering another core, or
failed, the core stays out (R34, R163, R164). -/
def execCoreFault (t core layer m lost : Nat) (s : State) : Res := runIf (core < 32 && layer < 16) t s fun d =>
  if d.spe.coreFailed.contains core then d else
    let d := (d.fault 1 Code.coreFault 3 core 0 0).wI Ix.speCoreState core 4
    let d := { d with spe := { d.spe with coreFailed := core :: d.spe.coreFailed } }
    let d := if lost = 0 then d else d.layerGap layer m lost 10
    -- a core that fails while it is repointed itself ends its repointing (R34, Table 19.8)
    let d := if d.flt.repoint.any (fun r => r.isl == 3 && r.inst == core) then d.repointAbandon.wI Ix.speCoreState core 4 else d
    if !d.coreStandbyFree then d.coreAlone core
    else
      let d := d.coreNeed (core / 8)
      if (d.laneLimit (core / 8) (d.laneLayers (core / 8))).isSome then d.shedLane (core / 8) else d

/-- CORE_SELFTEST_DONE: the failed core is to rejoin at the standby's next frame boundary, or stays out (R163). -/
def execCoreSelftestDone (t core : Nat) (ok : Bool) (s : State) : Res := runIf (core < 32) t s fun d =>
  if d.spe.coreFailed.contains core && ok then
    { d with spe := { d.spe with coreRejoin := core :: d.spe.coreRejoin.filter (fun c => c != core) } }
  else d

/-- A core that passed its test takes its share back at a frame boundary; the standby is freed (R163, Table 6.8). -/
def Dev.coreBack (d : Dev) (core first : Nat) : Dev :=
  if !d.spe.coreRejoin.contains core then d
  else
    let d := { d with spe := { d.spe with
      coreFailed := d.spe.coreFailed.filter (fun c => c != core), coreRejoin := d.spe.coreRejoin.filter (fun c => c != core)
      shareLost := d.spe.shareLost.del core } }
    let d := if d.n0 Ix.speStandbyFor = core then (d.w0 Ix.speStandbyFor 0xFF).wI Ix.speCoreState 32 0 else d
    (d.wI Ix.speCoreState core 1).handoverRecord 3 core first 0

/-- CORE_STANDBY_FAIL: the standby core fails while it covers a core, which then stays out, or while it covers a repointing (R34, R164). -/
def execCoreStandbyFail (t : Nat) (s : State) : Res := run t s fun d =>
  let c := d.n0 Ix.speStandbyFor
  let mark (d : Dev) : Dev :=
    ({ d with flt := { d.flt with standbyFailed := 1 :: d.flt.standbyFailed } }.wI Ix.speCoreState 32 4).fault 3 Code.standbyFailed 3 32 0 0
  if c != 0xFF && !d.coversRepoint 3 c then ((mark d).w0 Ix.speStandbyFor 0xFF).coreAlone c
  else if d.flt.repoint.any (fun r => r.isl == 3 && r.inst < 32) then (mark d).repointAbandon.happen (.standby 3 32 false)
  else d

/-- Why a write to `spe.repoint` is refused, if it is (R166). -/
def Dev.speRepointRefusal (d : Dev) : Option Nat :=
  if d.flt.repoint.any (fun r => r.isl == 3 && r.inst < 32) then some Code.speRepointActive
  else if d.n0 Ix.speStandbyFor != 0xFF then some Code.speStandbyBusy
  else if d.repointBusy then some Code.repointBusy
  else none

/-- Writing a core number to `spe.repoint`. -/
def Dev.speRepoint (d : Dev) (path c : Nat) : Dev :=
  if 32 ≤ c then d.refuse path Ix.speRepoint 0 Code.valueRange
  else match d.speRepointRefusal with
    | some e => d.refuse path Ix.speRepoint 0 e
    | none => d.repointStart 3 c 0

/-- SPE_REPOINT (R165, R166). -/
def execSpeRepoint (t path core : Nat) (s : State) : Res := run t s fun d =>
  d.command path Ix.speRepoint 0 core fun d => d.speRepoint path core

/-- SPE_REPOINT_ABORT (R166, R486). -/
def execSpeRepointAbort (t path : Nat) (s : State) : Res := run t s fun d =>
  d.command path Ix.speRepoint 0 0xFF fun d => d.repointAbort path 3 Ix.speRepointState

/-- CORE_REPOINT_HANDOVER: at a frame boundary the share moves between the core and the standby (Table 6.8, R166), or a core that failed
takes its share back (R163). -/
def execCoreRepointHandover (t core first : Nat) (s : State) : Res := runIf (core < 32) t s fun d =>
  match d.flt.repoint with
  | some r =>
    if r.isl != 3 || r.inst != core then d.coreBack core first
    else
      let st := d.n0 Ix.speRepointState
      if st = 1 then
        let d := { d with flt := { d.flt with repoint := some { r with out := true, since := first } } }
        let d := if d.flt.standbyFailed.contains 1 then d else (d.w0 Ix.speStandbyFor core).wI Ix.speCoreState 32 1
        (((d.wI Ix.speCoreState core 3).w0 Ix.speRepointState 2).w0 Ix.fltRepointState 2).handoverRecord 3 core first 0
      else if st = 3 then
        let d := ((d.wI Ix.speCoreState core 1).w0 Ix.speStandbyFor 0xFF).w0 Ix.speRepointState 0
        let d := if d.flt.standbyFailed.contains 1 then d else d.wI Ix.speCoreState 32 0
        (d.handoverRecord 3 core first 0).repointDone
      else d
  | none => d.coreBack core first

/-- CORE_UPDATE_DONE: the core's update is loaded and self-tested (Table 6.8, R488). -/
def execCoreUpdateDone (t : Nat) (ok : Bool) (s : State) : Res := run t s fun d =>
  match d.flt.repoint with
  | some r =>
    if r.isl = 3 && d.n0 Ix.speRepointState = 2 then
      let d := if ok then d else d.fault 2 Code.repointSelftest 3 r.inst 0 0
      let d := { d with flt := { d.flt with repoint := some { r with selfTestOk := ok } } }
      (d.w0 Ix.speRepointState 3).w0 Ix.fltRepointState 3
    else d
  | none => d

/-- One user-window coefficient joins the staged set and the index advances (R146). -/
def Dev.userCoefWrite (d : Dev) (path : Nat) (v : Int) : Dev :=
  let l := d.nW Ix.speUserLayer path
  let k := d.nW Ix.speUserIndex path
  if 2 ^ 20 ≤ k then d.refuse path Ix.speUserCoef 0 Code.windowParam
  else (d.stage ⟨Ix.speUserCoef, 0, l * 2 ^ 20 + k, v⟩).wW Ix.speUserIndex path (k + 1)

/-- SPE_USER_COEF (R146). -/
def execSpeUserCoef (t path : Nat) (v : Int) (s : State) : Res := run t s fun d =>
  d.command path Ix.speUserCoef 0 v fun d => d.userCoefWrite path v

/-- The coefficients that a set of writes holds for a layer's user table. -/
def userStaged (writes : List SWrite) (l : Nat) : List SWrite := writes.filter (fun w => w.ix == Ix.speUserCoef && w.inst / 2 ^ 20 == l)

/-- Whether the user table that a set leaves a layer with holds exactly N coefficients Q1.23 with a positive sum (R146). -/
def Dev.userTableOk (d : Dev) (writes : List SWrite) (l : Nat) : Bool :=
  let new := userStaged writes l
  let n := d.layerN l
  (if new.isEmpty then (d.layer l).userCount == n else new.length == n && new.all (fun w => w.inst % 2 ^ 20 < n)) &&
    (List.range n).all (fun k => -(2 ^ 23) ≤ d.userCoef l k && d.userCoef l k < 2 ^ 23) &&
    decide (0 < ((List.range n).map (d.userCoef l)).sum)

/-- Checks of one layer at a commit (R140, R144, R146, R152, R157). -/
def Dev.layerCheck (d : Dev) (writes : List SWrite) (l : Nat) : Option Nat :=
  let src := d.nI Ix.speLayerSrc l
  let n := d.layerN l
  let b := d.nI Ix.speDetBins l
  let c := d.nI Ix.speDetCount l
  let srcOk := src ≤ 1 || (match d.layerDdc l with | some k => k / 8 == l / 4 | none => false)
  if !srcOk then some Code.layerSource
  else if src = 0 then none
  else if !isPow2 n || n < 64 || 1048576 < n then some Code.layerLen
  else if 4 < d.nI Ix.speHopShift l then some Code.hopRange
  else if 6 < d.nI Ix.speWindow l then some Code.windowParam
  else if d.nI Ix.speWindow l = 6 && !d.userTableOk writes l then some Code.windowParam
  else if 4 < d.nI Ix.speDet l || 65536 < c * 2 ^ b || (d.nI Ix.speRecFormat l = 3 && !(d.nI Ix.speDet l = 0 && c = 1 && b = 0)) then
    some Code.detRange
  else if d.nI Ix.speRecCount l != 0 && n / 2 ^ b < d.nI Ix.speRecFirst l + d.nI Ix.speRecCount l then some Code.recRange
  else none

/-- The Spectral Engine's part of a commit's checks. -/
def Dev.speCheck (d : Dev) (writes : List SWrite) : Option Nat :=
  let d := (List.range 16).foldl (fun (a : Dev) l =>
    if (a.layer l).drain.isSome && (stagedValue writes Ix.speLayerSrc (l + 1) 0).isNone then a.wI Ix.speLayerSrc l 0 else a) d
  firstCode ((List.range 16).map (d.layerCheck writes) ++ (List.range 4).map (fun p => d.laneLimit p (d.laneLayers p)))

/-- A layer's setting changes for the frames that start at or after T; those before keep the one they had, and a second island of one cut
adds to it. A change of grid or detector ends the open trace (R153, R159). -/
def Dev.layerTurn (d old : Dev) (due l : Nat) (was grid ends : Bool) : Dev :=
  let same := (d.layer l).oldUntil == some due
  let d := if (d.layer l).oldUntil.isSome && !same then d.oldDone l else d
  let x := d.layer l
  let kept := if same then x.old else []
  let more := (old.layerSetting l).filter (fun w => (stagedValue kept w.ix w.sub w.inst).isNone)
  let d := if was then d.setLayer l { x with
      oldUntil := some due, old := kept ++ more, oldNext := if same then x.oldNext else x.next
      oldTrace := if ends && x.oldTrace.isNone then some x.trace else x.oldTrace, trace := if ends then {} else x.trace }
    else d
  let first := d.frameAfter l due
  d.setLayer l { d.layer l with next := if grid then some first else (d.layer l).next, start := if ends then first else (d.layer l).start }

/-- What a cut due at an instant does to one layer (R153, R159, Table 6.7): frames that start before T keep the setting before it; a changed
grid or detector ends the open trace with the last of them; a stopped layer drains, and its source reads 0x00 when the stop completes. -/
def Dev.layerCut (d old : Dev) (writes : List SWrite) (due l : Nat) : Dev :=
  let chg (ix : Nat) : Bool := old.rd ix (l + 1) 0 != d.rd ix (l + 1) 0
  let k := (userStaged writes l).length
  let window := chg Ix.speLayerLen || chg Ix.speWindow || chg Ix.speKaiserBeta || chg Ix.speGaussSigma || k != 0
  let grid := chg Ix.speLayerSrc || chg Ix.speHopShift || window
  let det := chg Ix.speDet || chg Ix.speDetCount || chg Ix.speDetBins
  let rec_ := chg Ix.speRecFormat || chg Ix.speRecFirst || chg Ix.speRecCount || chg Ix.speRing || chg Ix.speGapPolicy ||
    old.nI Ix.speWidth (l / 4) != d.nI Ix.speWidth (l / 4)
  let was := old.nI Ix.speLayerSrc l != 0
  let is := d.nI Ix.speLayerSrc l != 0
  let d := if window then d.windowReport l else d
  let d := if k = 0 then d else d.setLayer l { d.layer l with userCount := k }
  if was && !is then
    -- a stop keeps the setting until it completes
    (d.overlay (old.layerSetting l)).setLayer l { d.layer l with drain := some due }
  else if !(grid || det || rec_) || !is then d
  else
    let d := d.setLayer l { d.layer l with drain := none }
    d.layerTurn old due l was grid (grid || det)

/-- Layers whose source has another rate after a cut of the islands before them start on a new grid (R141, R159). -/
def Dev.layersFollow (d old : Dev) (due : Nat) : Dev :=
  (List.range 16).foldl (fun (a : Dev) l =>
    if a.nI Ix.speLayerSrc l != 0 && old.layerRate l != a.layerRate l then a.layerTurn old due l true true true else a) d

/-- The Spectral Engine applies its part of a cut; layers a shedding cut stops raise LAYER_SHED (R161). -/
def Dev.speCut (d old : Dev) (writes : List SWrite) (first : Nat) (shed : Bool) : Dev :=
  let d := (List.range 16).foldl (fun (a : Dev) l => a.layerCut old writes first l) d
  let d := (List.range 4).foldl (fun (a : Dev) p => a.coreNeed p) d
  if shed then
    (writes.filter (fun w => w.ix == Ix.speLayerSrc && w.value == 0)).foldl (fun (a : Dev) _ => a.raise 4 Code.layerShed) d
  else d

end Sys2Proof.Machine
end

