-- ==== Sys2Proof/Machine/Sources.lean ====
section
/-! DEFINITION. The sources of channels, capture streams, reels, layers and conditions: their samples as they have crossed from Intake and the
Channeliser, by their number on the source's grid since the epoch (R17, R20, R120, R191). -/

namespace Sys2Proof.Machine

/-- A source of samples: none, a link as Intake released it, a DDC, a wide path (R191). -/
inductive Source where
  | none | link (q : Nat) | ddc (n : Nat) | wide (p : Nat)
deriving DecidableEq, Repr

/-- Whether a channel code names a wide path: 0x30 to 0x33, which R191 gives to the wide paths although they are also
0x20 + n of DDCs 16 to 19 (DEDUCED, log entry 8). -/
def isWide (code : Nat) : Bool := 0x30 ≤ code && code < 0x34

/-- The source that a channel code names (R191). -/
def sourceOf (code : Nat) : Source :=
  if isWide code then .wide (code - 0x30) else if 0x10 ≤ code && code < 0x20 then .link (code - 0x10)
  else if 0x20 ≤ code && code < 0x40 then .ddc (code - 0x20) else .none

/-- The source that a time-domain condition names: a link or a DDC (Table 7.1). -/
def condSource (code : Nat) : Source :=
  if 0x10 ≤ code && code < 0x20 then .link (code - 0x10) else if 0x20 ≤ code && code < 0x40 then .ddc (code - 0x20) else .none

/-- The source of a layer: a DDC, or the wide path of its lane (R140). -/
def Dev.layerSource (d : Dev) (l : Nat) : Source := match d.layerDdc l with | some n => .ddc n | none => .wide (l / 4)

/-- The first instant at or after another on the grid of the epoch at a rate in mHz (R120, R313). -/
def gridAfter (time f : Nat) : Nat := if f = 0 then time else inputTime (ceilDiv (time * f) (two48 * 1000)) f

/-- The port or lane of a source. -/
def Source.lane : Source → Nat
  | .none => 0
  | .link q => q / 4
  | .ddc n => n / 8
  | .wide p => p

/-- The DDC number a settle record names; 0xFF for a source that is none. -/
def Source.ddcNumber : Source → Nat
  | .ddc n => n
  | _ => 0xFF

/-- Rate of a source in mHz (R191). -/
def Dev.rateOf (d : Dev) : Source → Nat
  | .none => 0
  | .link q => d.linkFs q * 1000
  | .ddc n => d.fOut n
  | .wide p => d.srcRate (d.wideCode p)

/-- The instant of a sample, as the source carries it (R20). -/
def Dev.timeOf (d : Dev) (s : Source) (i : Nat) : Nat :=
  match s with
  | .none => 0
  | .link q => (d.srcClock (0x10 + q)).time i
  | .ddc n => d.ddcTime n (i * 2 ^ d.nI Ix.chnDepth n)
  | .wide p => d.srcTime (d.wideCode p) i

/-- The first sample at or after an instant. -/
def Dev.sampleAfter (d : Dev) (s : Source) (time : Nat) : Nat :=
  match s with
  | .none => 0
  | .link q => (d.srcClock (0x10 + q)).after time
  | .ddc n => d.ddcAfter n time / 2 ^ d.nI Ix.chnDepth n
  | .wide p => d.srcAfter (d.wideCode p) 1 time

/-- Why the outputs of a wide path are still flagged at an instant after a restart; 0 where they are not (R130, R134). -/
def Dev.wideSettle (d : Dev) (p time : Nat) : Nat :=
  let u := (d.section_ (0x80 + p)).unsettled
  if u.1 ≤ time && time < u.2.1 then u.2.2 else 0

/-- A sample of a source, if it has come. -/
def Dev.sampleOf (d : Dev) (s : Source) (i : Nat) : Option Sample :=
  match s with
  | .none => none
  | .link q => (d.crossing (0x10 + q)).accept.word i
  | .ddc n => (d.chn.output.get {} n).accept.word (i * 2 ^ d.nI Ix.chnDepth n)
  | .wide p => (d.inputAt (d.wideCode p) i).map (fun x =>
      let c := d.wideSettle p (d.timeOf (.wide p) i)
      if c = 0 then x else { x with unsettled := true, settle := c })

/-- Whether a source has ended: what it has not given it never will. -/
def Dev.sourceDead (d : Dev) : Source → Bool
  | .none => true
  | .link q => d.linkState q == 0
  | .ddc n => d.ddcState n == 0 && (d.ddc n).drain.isNone
  | .wide p => let code := d.wideCode p
    if 0x10 ≤ code && code < 0x20 then d.linkState (code - 0x10) == 0 else d.chn.pbRate.get 0 (code - 0x40) == 0

/-- Whether a sample has come, or will not come: the source has gone past it, or brings nothing at its instant. -/
def Dev.sampleKnown (d : Dev) (s : Source) (i : Nat) : Bool :=
  match s with
  | .none => true
  | .link q =>
    let c := (d.crossing (0x10 + q)).accept
    (c.word i).isSome || c.beyond i || d.linkState q != 5 || (d.link q).gapFirst.any (fun g => g.1 ≤ d.timeOf s i)
  | .ddc n =>
    let c := (d.chn.output.get {} n).accept
    let k := i * 2 ^ d.nI Ix.chnDepth n
    (c.word k).isSome || c.beyond k || d.sourceDead s || (d.ddc n).gapFirst.any (fun g => g.1 ≤ d.timeOf s i)
  | .wide p => d.inputKnown (d.wideCode p) i

/-- Whether a gap recorded at an origin is one of a source. -/
def Dev.gapOf (d : Dev) (s : Source) (o : Origin) : Bool :=
  match s with
  | .none => false
  | .link q => o == .link q
  | .ddc n => o == .ddc n
  | .wide p => let code := d.wideCode p
    o == .wide p || (if code < 0x20 then o == .link (code - 0x10) else o == .playback (code - 0x40))

/-- The cause of a source's missing sample at an instant: that of the gap it lies in, else that of the source's latest gap; 1 where the source
recorded none (R154, R297). -/
def Dev.missingCause (d : Dev) (s : Source) (time : Nat) : Nat :=
  let l := d.out.gaps.filter (fun g => d.gapOf s g.origin)
  match l.find? (fun g => g.first ≤ time && time < g.until_) with
  | some g => g.cause
  | none => match l.head? with | some g => g.cause | none => 1

/-- Position i of a source as takes, capture streams and reels hold it (R201): a missing sample is zeros and the cause of its gap. -/
def Dev.takenAt (d : Dev) (s : Source) (i : Nat) : TakeSample :=
  match d.sampleOf s i with
  | none => (0, 0, d.missingCause s (d.timeOf s i) * 16)
  | some x =>
    let bit (k : Nat) (b : Bool) : Nat := if b then 2 ^ k else 0
    (x.i, x.q, bit 0 (x.ovr != 0) + bit 1 x.crc + bit 2 x.sat + bit 3 (x.unsettled || x.truncated) + x.settle % 16 * 256)

end Sys2Proof.Machine
end

