-- ==== Sys2Proof/Machine/Memory.lean ====
section
/-! DEFINITION. Capture memory: addresses, hashing, allocation, the bytes of objects, and the hod buffer (R24 to R27, R255 to
R261, R289). -/

namespace Sys2Proof.Machine

/-- Stripes of the capture memory (R257). -/
def allStripes : Nat := 2 ^ 22

/-- The vector h(G) of a stripe's channel parities (R258). -/
def Dev.hashOf (d : Dev) (g : Nat) : Nat :=
  let par (i : Nat) : Nat := countBits 37 (Nat.land (g * 2 ^ 15) (d.nI Ix.capHashCh i)) % 2
  par 0 + 2 * par 1 + 4 * par 2

/-- The channel of a capture address (R258). -/
def Dev.chanOf (d : Dev) (a : Nat) : Nat := Nat.xor (a / 4096 % 8) (d.hashOf (a / 2 ^ 15))

/-- The bank of a capture address (R258). -/
def Dev.bankOf (d : Dev) (a : Nat) : Nat :=
  (List.range 5).foldl (fun b i =>
    b + ((a / 2 ^ (16 + i) % 2 + countBits 37 (Nat.land a (d.nI Ix.capHashBank i))) % 2) * 2 ^ i) 0

/-- The physical rank that serves a logical rank of a channel (R256). -/
def Dev.physRank (d : Dev) (c r : Nat) : Nat := d.nI Ix.capRankMap c / 2 ^ (3 * r) % 8

/-- Channels of a map. -/
def mapSize (map : Nat) : Nat := countBits 8 map

/-- Service positions of a stripe under a map, ascending (R259). -/
def Dev.servicePositions (d : Dev) (map g : Nat) : List Nat :=
  let h := d.hashOf g
  (List.range 8).filter (fun p => bitOf map (Nat.xor p h))

/-- Bytes of an object that one stripe holds (R259, R261). -/
def stripeBytes (map : Nat) (mirrored : Bool) : Nat := 4096 * (if mirrored then mapSize map / 2 else mapSize map)

/-- The capture addresses of byte o of an allocation: one, or its two copies (R259, R261). -/
def Dev.allocAddrs (d : Dev) (a : Alloc) (o : Nat) : List Nat :=
  let per := stripeBytes a.map a.mirrored
  if per = 0 then [] else
    let g := a.first + o / per
    let k := o % per / 4096
    let q := d.servicePositions a.map g
    let at_ (i : Nat) : Nat := g * 2 ^ 15 + q.getD i 0 * 4096 + o % 4096
    if a.mirrored then [at_ k, at_ (k + mapSize a.map / 2)] else [at_ k]

/-- The capture address given for byte o of an allocation (R260). -/
def Dev.allocAddr (d : Dev) (a : Alloc) (o : Nat) : Nat := (d.allocAddrs a o).headD 0

/-- The first free range of stripes from the lowest (R260). The list is in ascending order. -/
def firstFit (n : Nat) : Nat → List Alloc → Option Nat
  | at_, [] => if at_ + n ≤ allStripes then some at_ else none
  | at_, a :: r => if at_ + n ≤ a.first then some at_ else firstFit n (max at_ (a.first + a.stripes)) r

/-- An allocation joins the list in ascending order. -/
def insertAlloc (x : Alloc) : List Alloc → List Alloc
  | [] => [x]
  | a :: r => if x.first < a.first then x :: a :: r else a :: insertAlloc x r

/-- `cap.free` follows the allocations. -/
def Dev.freeReport (d : Dev) : Dev :=
  d.w0 Ix.capFree ((allStripes - (d.cap.allocs.map (·.stripes)).sum) * 4096 * mapSize (d.n0 Ix.capChannels))

/-- An object of some bytes is allocated under the present map, if it fits (R260, R261). -/
def Dev.alloc (d : Dev) (kind num length : Nat) (mirrored : Bool) : Option (Alloc × Dev) :=
  let map := d.n0 Ix.capChannels
  let per := stripeBytes map mirrored
  if per = 0 || length = 0 || d.n0 Ix.capState < 2 then none
  else
    let n := ceilDiv length per
    (firstFit n 0 d.cap.allocs).map fun g =>
      let a : Alloc := ⟨kind, num, g, n, map, length, mirrored, false⟩
      (a, { d with cap := { d.cap with allocs := insertAlloc a d.cap.allocs } }.freeReport)

/-- The allocation of an owner. -/
def Dev.allocOf (d : Dev) (kind num : Nat) : Option Alloc := d.cap.allocs.find? (fun a => a.kind == kind && a.num == num)

/-- An owner's allocation is released; its stripes are free again at once (R260). -/
def Dev.release (d : Dev) (kind num : Nat) : Dev :=
  { d with cap := { d.cap with allocs := d.cap.allocs.filter (fun a => !(a.kind == kind && a.num == num)) } }.freeReport

/-- The allocation an address lies in: its stripe belongs to it, and its position is one of its service positions (R260). -/
def Dev.allocAt (d : Dev) (a : Nat) : Option Alloc :=
  d.cap.allocs.find? (fun x => x.first ≤ a / 2 ^ 15 && a / 2 ^ 15 < x.first + x.stripes &&
    (d.servicePositions x.map (a / 2 ^ 15)).contains (a / 4096 % 8))

/-- The addresses at which the byte of a capture address stands: the address, or the copies of a mirrored allocation's (R261). -/
def Dev.copiesAt (d : Dev) (x : Alloc) (a : Nat) : List Nat :=
  let q := d.servicePositions x.map (a / 2 ^ 15)
  let half := mapSize x.map / 2
  let i := q.findIdx (· == a / 4096 % 8)
  if x.mirrored && i < 2 * half then
    [i % half, i % half + half].map (fun k => a / 2 ^ 15 * 2 ^ 15 + q.getD k 0 * 4096 + a % 4096)
  else [a]

/-- Whether a channel is in service. -/
def Dev.inService (d : Dev) (c : Nat) : Bool := bitOf (d.n0 Ix.capChannels) c

/-! ### Bytes -/

/-- A byte of capture memory. -/
def memRead (m : Mem) (a : Nat) : Byte := Tab.get 0#8 m a

/-- A byte of capture memory takes a value. -/
def memWrite (m : Mem) (a : Nat) (b : Byte) : Mem := Tab.set 0#8 m a b

/-- The canonical form of capture memory: addresses strictly rising, no entry equal to the zero that an unlisted address reads as (log entry 7). -/
abbrev Memory.wf (m : Mem) : Prop := Tab.Wf 0#8 m

/-- Bytes are written at addresses that a function gives for each offset. -/
def memWriteAt (addrs : Nat → List Nat) : List Byte → Nat → Mem → Mem
  | [], _, m => m
  | b :: bs, o, m => memWriteAt addrs bs (o + 1) ((addrs o).foldl (fun m a => memWrite m a b) m)

/-- The addresses of byte o of an allocation in channels that are in service: writes to the others are discarded (R280). -/
def Dev.liveAddrs (d : Dev) (a : Alloc) (o : Nat) : List Nat := (d.allocAddrs a o).filter (fun x => d.inService (d.chanOf x))

/-- Bytes are written into an allocation from an offset on. -/
def Dev.writeAlloc (d : Dev) (a : Alloc) (o : Nat) (bytes : List Byte) (m : Mem) : Mem := memWriteAt (d.liveAddrs a) bytes o m

/-- Lost bursts that a write covers whole are lost no longer (R274). -/
def Dev.rewrote (d : Dev) (a : Alloc) (o n : Nat) : Dev :=
  if d.cap.lost.isEmpty then d
  else
    let at_ := ((List.range n).map (fun i => d.liveAddrs a (o + i))).flatten
    { d with cap := { d.cap with lost := d.cap.lost.filter (fun b => (at_.filter (fun x => x / 64 == b / 64)).length < 64) } }

/-- The same in a region that wraps at `size` after its first `skip` bytes. -/
def Dev.writeRing (d : Dev) (a : Alloc) (skip size o : Nat) (bytes : List Byte) (m : Mem) : Mem :=
  if size = 0 then m else memWriteAt (fun x => d.liveAddrs a (skip + x % size)) bytes o m

/-- Whether an address lies in a lost burst (R274). -/
def Dev.burstLost (d : Dev) (x : Nat) : Bool := d.cap.lost.contains (x / 64 * 64)

/-- Bytes of an allocation, read from the first copy that can be read; what has none reads as zeros (R261, R274, R280). -/
def Dev.readAlloc (d : Dev) (a : Alloc) (m : Mem) (o : Nat) : Nat → List Byte
  | 0 => []
  | k + 1 => (match (d.liveAddrs a o).find? (fun x => !d.burstLost x) with | some x => memRead m x | none => 0#8) :: d.readAlloc a m (o + 1) k

/-- Why some of `n` bytes of an allocation cannot be read: 3 a granule lies in retired channels, 4 a burst is lost in every copy, 0 they can
be (Table 11.6). -/
def Dev.bytesLoss (d : Dev) (a : Alloc) (o n : Nat) : Nat :=
  let l := (List.range n).map (fun i => d.liveAddrs a (o + i))
  if l.any List.isEmpty then 3 else if l.any (fun x => x.all d.burstLost) then 4 else 0

/-! ### Sources and formats (R4, R191) -/

/-- Bytes of a sample in a storage format. -/
def formatBytes (f : Nat) : Nat := if f = 1 then 6 else if f = 2 then 4 else if f = 3 then 3 else 2

/-- A part rounded from 24 bits to a width, and whether it saturated (R5). -/
def toBits (w : Nat) (v : Int) : Int × Bool :=
  let r := roundEven v (2 ^ (24 - w))
  let c := clampInt (-(2 ^ (w - 1) : Nat)) ((2 ^ (w - 1) : Nat) - 1) r
  (c, c != r)

/-- A sample in a storage format, and whether it saturated (R4, R5, Table 0.4). -/
def encodeSample (fmt : Nat) (i q : Int) : List Byte × Bool :=
  if fmt = 1 then (leBytes 3 (toTwos 24 i) ++ leBytes 3 (toTwos 24 q), false)
  else if fmt = 2 then
    let a := toBits 16 i
    let b := toBits 16 q
    (leBytes 2 (toTwos 16 a.1) ++ leBytes 2 (toTwos 16 b.1), a.2 || b.2)
  else if fmt = 3 then
    let a := toBits 12 i
    let b := toBits 12 q
    (leBytes 3 (toTwos 12 b.1 * 4096 + toTwos 12 a.1), a.2 || b.2)
  else
    let a := toBits 16 i
    (leBytes 2 (toTwos 16 a.1), a.2)

/-- The gap cause of a position. -/
def gapCause (w : Nat) : Nat := w / 16 % 16

/-- A position in a storage format: its bytes, and the position with SAT set where its conversion saturates; a lost one is zeros (R191, R194). -/
def storeSample (fmt : Nat) (s : TakeSample) : List Byte × TakeSample :=
  if gapCause s.2.2 != 0 then (List.replicate (formatBytes fmt) 0#8, (0, 0, gapCause s.2.2 * 16))
  else
    let e := encodeSample fmt s.1 s.2.1
    (e.1, (s.1, s.2.1, if e.2 then Nat.lor s.2.2 4 else s.2.2))

/-! ### The records of takes, capture-stream logs and reels (R201) -/

/-- A settle record (Table 5.5) of a source: cause, samples, the instant of the first. -/
def settleRec (s : Source) (cause count time : Nat) : Rec :=
  mkRec [(0x0D20, s.ddcNumber * 2 ^ 40 + cause * 2 ^ 32 + count), (0x0D21, sec48 time), (0x0D22, frac48 time), (0x0D23, 0)]

/-- A flag-run record (Table 7.6): channel, flag, samples spanned, the first one's instant and index. -/
def flagRec (chan flag count time index : Nat) : Rec :=
  mkRec [(0x0F20, chan * 2 ^ 40 + flag * 2 ^ 32 + count), (0x0F21, sec48 time), (0x0F22, frac48 time), (0x0F23, index)]

/-- Runs of true: first position, length. -/
def runsFrom : Nat → List Bool → List (Nat × Nat)
  | _, [] => []
  | i, b :: r =>
    let l := runsFrom (i + 1) r
    if b then (match l with
      | (s, n) :: t => if s = i + 1 then (i, n + 1) :: t else (i, 1) :: l
      | [] => [(i, 1)])
    else l

/-- Runs separated by fewer than `gap` positions merge. -/
def mergeRuns (gap : Nat) : List (Nat × Nat) → List (Nat × Nat)
  | [] => []
  | (a, n) :: r => match mergeRuns gap r with
    | (b, m) :: t => if b < a + n + gap then (a, b + m - a) :: t else (a, n) :: (b, m) :: t
    | [] => [(a, n)]

/-- Whether a source code is a real link. -/
def Dev.realLinkSrc (d : Dev) (code : Nat) : Bool := 0x10 ≤ code && code < 0x20 && d.linkReal (code - 0x10)

/-- Rate of a channel source in mHz, and its port or lane (R191). -/
def Dev.chanRate (d : Dev) (code : Nat) : Nat := d.rateOf (sourceOf code)
def chanLane (code : Nat) : Nat := (sourceOf code).lane

/-- Whether a code names a channel source (R191). -/
def isChanSrc (code : Nat) : Bool := 0x10 ≤ code && code < 0x40

/-! ### The hod buffer (R24 to R27, R499) -/

def Dev.hodStream (d : Dev) (n : Nat) : HodStream := d.cap.hod.get {} n
def Dev.setHod (d : Dev) (n : Nat) (x : HodStream) : Dev := { d with cap := { d.cap with hod := d.cap.hod.set {} n x } }

/-- Blocks of the hod buffer: 16 MiB, or the 4 MiB left for blocks in rushes service (R24, R79). -/
def Dev.hodCapacity (d : Dev) : Nat := if d.inRushes then 1024 else 4096

/-- Blocks of the hod buffer in use. -/
def Dev.hodBlocks (d : Dev) : Nat :=
  (d.cap.hod.map (fun p => (p.2.full.filter (fun b => b.len != 0)).length + (if p.2.fillLen = 0 || p.2.discarding then 0 else 1))).sum +
    (d.cap.deferred.filter (fun b => b.2.2.len != 0)).length

/-- `cap.hod_occupancy` and its high-water mark follow; occupancy back at what it was when the last stall began, the buffer has drained from
that stall (R27). -/
def Dev.hodReport (d : Dev) : Dev :=
  let o := 4096 * d.hodBlocks
  let d := d.w0 Ix.capHodOccupancy o
  let d := if d.cap.stallBase.any (o ≤ ·) && d.cap.stallUntil ≤ d.now then { d with cap := { d.cap with stallBase := none } } else d
  if d.n0 Ix.capHodHighWater < o then d.w0 Ix.capHodHighWater o else d

/-- A voluntary stall may begin (R27). -/
def Dev.mayStall (d : Dev) : Bool :=
  d.n0 Ix.capHodOccupancy ≤ 4194304 && d.cap.stallUntil ≤ d.now && d.cap.stallBase.all (d.n0 Ix.capHodOccupancy ≤ ·)

/-- A full stall of the Capture Store: the buffer is to drain to what it holds now before the next voluntary one (R27). A stall that begins
inside another leaves the first's mark. -/
def Dev.stallFor (d : Dev) (u : Nat) : Dev :=
  let until_ := max d.cap.stallUntil (d.now + u)
  let extra := until_ - max d.cap.stallUntil d.now
  let base := if d.now < d.cap.stallUntil then d.cap.stallBase else some (d.n0 Ix.capHodOccupancy)
  { d with cap := { d.cap with stallUntil := until_, stallBegan := d.now, stallBase := base } }.inc0 Ix.capStallNs (toNs extra)

/-- The unit of a write stream's gaps: an export's is the byte (Tables 1.13, 11.5, R221). -/
def streamUnit (n : Nat) : Nat :=
  let k := n / 2 ^ 24
  if k = 1 || k = 2 || k = 8 then 1 else if k = 5 then 3 else if k = 6 then 5 else 4

/-- A Capture Store event (Table 10.13). -/
def Dev.capEvent (d : Dev) (kind chan a b : Nat) : Dev := d.event 7 0x1070 kind chan d.time96 a b

/-- Bytes are laid into a stream's blocks from its present one on, with the item they are, if they are kept; the item lies in the block of its
last byte (R24). -/
def hodLay (now n : Nat) (it : Option HodItem) (x : HodStream) : HodStream :=
  let total := x.fillLen + n
  let whole := total / 4096
  let last := ceilDiv total 4096 - 1
  let own (k : Nat) : List HodItem := if k = last then it.toList else []
  let first := x.fill ++ own 0
  { x with
    fillAt := if total % 4096 = 0 || (x.fillLen != 0 && whole = 0) then x.fillAt else now
    fillLen := total % 4096
    fill := if whole = 0 then first else if total % 4096 = 0 then [] else own whole
    full := x.full ++ (List.range whole).map (fun k => ⟨if k = 0 then first else own k, 4096⟩) }

/-- New blocks that n bytes more would take. -/
def HodStream.needs (x : HodStream) (n : Nat) : Nat := ceilDiv (x.fillLen + n) 4096 - (if x.fillLen = 0 then 0 else 1)

/-- Whether the present block of a stream ends at a 1 µs tick that has passed. -/
def HodStream.ticked (x : HodStream) (now : Nat) : Bool := x.fillLen != 0 && decide (tickAt (x.fillAt + 1) ≤ now)

/-- An item joins the gap of a stream that discards: the first one opens it (R26). -/
def hodMiss (it : HodItem) (x : HodStream) : HodStream :=
  if x.lostUnits = 0 then { x with lostFrom := it.from_, lostTo := it.until_, lostUnits := 1, lostIndex := it.index, lostBytes := it.bytes.length }
  else { x with lostTo := it.until_, lostUnits := x.lostUnits + 1, lostBytes := x.lostBytes + it.bytes.length }

/-- An item finds no block for all of its bytes: the blocks that are left take what they can, and every later block is discarded whole; how
many have been is counted (R26). -/
def hodBreak (now free : Nat) (it : HodItem) (x : HodStream) : HodStream :=
  let room := 4096 * (free + (if x.fillLen = 0 then 0 else 1)) - x.fillLen
  let y := if room = 0 then x else hodLay now room none x
  let left := it.bytes.length - room
  hodMiss it { y with discarding := true, resuming := false, lostUnits := 0, fill := [], fillLen := left % 4096, fillAt := now, lostBlocks := ceilDiv left 4096 }

/-- An item of a stream that discards is lost; it fills blocks that do not exist (R26). -/
def hodSkip (now : Nat) (it : HodItem) (x : HodStream) : HodStream :=
  let x := if x.ticked now then { x with fillLen := 0 } else x
  let total := x.fillLen + it.bytes.length
  hodMiss it { x with
    fillLen := total % 4096, fillAt := if x.fillLen = 0 then now else x.fillAt, lostBlocks := x.lostBlocks + x.needs it.bytes.length }

/-- Whether a stream that is to resume stands at a block boundary. -/
def HodStream.boundary (x : HodStream) (now : Nat) : Bool := x.fillLen = 0 || x.ticked now

/-- The gap of a stream that discarded is closed: one gap, one record; the lost positions of a capture stream are to hold zeros, and a
capture-stream log carries a marker of its own (R26, R263, R298). -/
def Dev.hodGapEnd (d : Dev) (stream : Nat) : Dev :=
  let x := d.hodStream stream
  let kind := stream / 2 ^ 24
  let cs := stream % 2 ^ 24
  let count := if kind = 6 then x.lostBytes else x.lostUnits
  let d := d.gap ⟨.stream stream, streamUnit stream, x.lostFrom, x.lostTo, count, x.lostIndex, 2⟩
  let d := (d.capEvent 0x08 0 x.lostBlocks stream).setHod stream { x with
    discarding := false, resuming := false, fill := [], fillLen := 0, lostUnits := 0, lostBlocks := 0, lostBytes := 0
    full := x.full ++ (if kind = 1 then [⟨[⟨.stream cs x.lostIndex, x.lostFrom, x.lostTo, x.lostIndex, List.replicate x.lostBytes 0#8⟩], 0⟩] else []) }
  if kind = 4 then
    { d with cap := { d.cap with asked := d.cap.asked ++ [(stream, ⟨.csLog cs, x.lostFrom, x.lostTo, 0,
      recBytes (gapMarker 2 4 0 stream x.lostFrom x.lostUnits 0)⟩)] } }
  else d

/-- An item enters a stream's blocks, or is lost; whether it is lost (R24, R26). -/
def Dev.hodPut (d : Dev) (stream : Nat) (it : HodItem) : Dev × Bool :=
  let x := d.hodStream stream
  let n := it.bytes.length
  let free := d.hodCapacity - d.hodBlocks
  let grow (d : Dev) (y : HodStream) : Dev := (d.setHod stream y).inc0 Ix.capHodDiscarded (y.lostBlocks - x.lostBlocks)
  if n = 0 then (d, x.discarding)
  else if x.discarding && !(x.resuming && x.boundary d.now) then
    if x.resuming && 4096 ≤ x.fillLen + n && ceilDiv (x.fillLen + n - 4096) 4096 ≤ free then
      -- the item passes the boundary: it has bytes in a discarded block and is lost, its other bytes open the next block
      let d := (d.setHod stream (hodMiss it x)).hodGapEnd stream
      ((d.setHod stream (hodLay d.now (x.fillLen + n - 4096) none (d.hodStream stream))).hodReport, true)
    else (grow d (hodSkip d.now it x), true)
  else
    let d := if x.discarding then d.hodGapEnd stream else d
    let y := d.hodStream stream
    if y.needs n ≤ free then ((d.setHod stream (hodLay d.now n (some it) y)).hodReport, false)
    else
      let z := hodBreak d.now free it y
      ((((d.setHod stream z).inc0 Ix.capHodDiscarded z.lostBlocks).inc0 Ix.capHodGaps).raise 4 Code.hodDiscard |>.hodReport, true)

/-- What follows in a stream's order without a byte of its own in the buffer. -/
def Dev.hodTail (d : Dev) (stream : Nat) (it : HodItem) : Dev :=
  let x := d.hodStream stream
  d.setHod stream { x with full := x.full ++ [⟨[it], 0⟩] }

/-- An item sets out for a write stream (R15, R17). -/
def Dev.ask (d : Dev) (stream : Nat) (it : HodItem) : Dev := { d with cap := { d.cap with asked := d.cap.asked ++ [(stream, it)] } }

/-- The oldest item on its way to a write stream, and what is left. -/
def takeAsked (stream : Nat) : List (Nat × HodItem) → Option (HodItem × List (Nat × HodItem))
  | [] => none
  | p :: l => if p.1 = stream then some (p.2, l) else (takeAsked stream l).map (fun q => (q.1, p :: q.2))

/-- The items of a write stream that have not left the hod buffer. -/
def Dev.hodItems (d : Dev) (stream : Nat) : List HodItem :=
  let x := d.hodStream stream
  x.fill ++ (x.full.map (·.items)).flatten ++ ((d.cap.deferred.filter (fun b => b.2.1 == stream)).map (fun b => b.2.2.items)).flatten

/-! ### Logs -/

/-- The slate shared by takes, reels and capture-stream logs (Table 7.5), from its seventeen values. -/
def slateRec (vals : List Nat) : Rec := mkRec (vals.zipIdx.map (fun p => (0x0F00 + p.2, p.1)))

/-- Value of slate slot 0. -/
def slateHead (num kind chans fmt idx : Nat) : Nat := num * 2 ^ 40 + kind * 2 ^ 36 + (chans - 1) * 2 ^ 34 + fmt * 2 ^ 31 + idx

end Sys2Proof.Machine
end

