-- ==== Sys2Proof/Machine/Capture.lean ====
section
/-! DEFINITION. Capture Store: memory controller (10_capture_store.md) and the hod buffer's commands (01_islands_and_flow.md). -/

namespace Sys2Proof.Machine

def Dev.sub (d : Dev) (c s : Nat) : SubSt := d.cap.subs.get {} (2 * c + s)
def Dev.setSub (d : Dev) (c s : Nat) (x : SubSt) : Dev := { d with cap := { d.cap with subs := d.cap.subs.set {} (2 * c + s) x } }
def Dev.migration (d : Dev) (c : Nat) : Option Migration := d.cap.migrations.find? c
def Dev.rankState (d : Dev) (c r : Nat) : Nat := d.nI Ix.capRankState (5 * c + r)
def Dev.setRankState (d : Dev) (c r v : Nat) : Dev := d.wI Ix.capRankState (5 * c + r) v

/-! ### Gaps of retired memory, holes (R280, R261) -/

/-- A record sets out for a capture stream's log (R24, R264). -/
def Dev.askLog (d : Dev) (cs time index : Nat) (r : Rec) : Dev := d.ask (4 * 2 ^ 24 + cs) ⟨.csLog cs, time, time, index, recBytes r⟩

/-- The position mark of sample j (Table 10.5). -/
def Dev.csMark (d : Dev) (cs j time : Nat) : Dev :=
  d.askLog cs time j (mkRec [(0x1078, cs * 2 ^ 40), (0x1079, j), (0x107A, sec48 time), (0x107B, frac48 time)])

/-- Whether a mirrored allocation has a granule without a copy in service (R261). -/
def Dev.mirrorLost (d : Dev) (a : Alloc) : Bool :=
  (List.range a.stripes).any (fun g => (List.range (mapSize a.map / 2)).any (fun k =>
    (d.liveAddrs a (g * stripeBytes a.map true + k * 4096)).isEmpty))

/-- Whether a retirement makes an allocation holed. -/
def Dev.becomesHoled (d : Dev) (c : Nat) (a : Alloc) : Bool :=
  !a.holed && bitOf a.map c && (if a.mirrored then d.mirrorLost a else true)

/-- Hole records and notices of the allocations that become holed. -/
def Dev.reportHoles (d : Dev) (c : Nat) : List Alloc → Dev
  | [] => d
  | a :: r =>
    let d := (d.capEvent 0x05 c (a.first * 2 ^ 15) a.length).raise 4 Code.holedAllocation
    Dev.reportHoles (d.inc0 Ix.capHoled) c r

/-- Bytes that leave with a channel: those that lie in it (R280). -/
def Dev.dropChannel (d : Dev) (c : Nat) (m : Mem) : Mem := m.filter (fun p => d.chanOf p.1 != c)

/-- Ranks of a lost channel read state 5. -/
def Dev.ranksLost (d : Dev) (c : Nat) : Dev := (List.range 5).foldl (fun (a : Dev) r => a.setRankState c r 5) d

/-- The channel an item's first byte goes to, where its memory tells (R258, R280). -/
def Dev.itemChannel (d : Dev) (it : HodItem) : Option Nat :=
  let at_ (kind num off : Nat) : Option Nat := match d.allocOf kind num with
    | some a => (d.allocAddrs a (if a.length = 0 then 0 else off % a.length)).head?.map d.chanOf
    | none => none
  match it.dest with
  | .stream cs j => at_ 1 cs (j * formatBytes (d.cap.streams.get {} cs).fmt)
  | .slot mag _ offs => offs.head?.bind (at_ 2 mag)
  | .log mag off => at_ 3 mag off
  | .row _ off _ _ _ => at_ 0x10 0 off
  | .line _ _ _ off => at_ 0x10 0 off
  | _ => none

/-- Samples or records of a stream that an item stands for. -/
def Dev.itemUnits (d : Dev) (it : HodItem) : Nat :=
  match it.dest with
  | .stream cs _ => it.bytes.length / formatBytes (d.cap.streams.get {} cs).fmt
  | _ => 1

/-- An item that does not reach memory: the position it was is a lost one of its take or reel; a capture stream's log marks it, and a
Viewport export or roll line does without it (R194, R247, R280, R298). -/
def Dev.itemLost (d : Dev) (cause : Nat) (it : HodItem) : Dev :=
  match it.dest with
  | .slot mag n _ =>
    let x := d.trg.mags.get {} mag
    let gone (p : Nat × List TakeSample) : Nat × List TakeSample := if p.1 = n then (n, p.2.map (fun _ => (0, 0, cause * 16))) else p
    { d with trg := { d.trg with mags := d.trg.mags.put mag { x with hist := x.hist.map gone } } }
  | .reel r j _ =>
    let x := d.str.reels.get {} r
    { d with str := { d.str with reels := d.str.reels.put r { x with holes := x.holes ++ [(j, cause)] } } }.incW Ix.strReelGapSamples r 1
  | .stream cs j => d.askLog cs it.from_ j (gapMarker cause 1 0 (4 * 2 ^ 24 + cs) it.from_ (d.itemUnits it) j)
  | .row p _ _ _ _ => { d with den := { d.den with planes := d.den.planes.put p { d.den.planes.get {} p with rowLost := true } } }
  | .line l _ _ _ => d.incI Ix.vpRollLost l
  | _ => d

/-- Items of a stream that are discarded for want of their memory: one gap (R280, R500). -/
def Dev.itemsLost (d : Dev) (stream cause : Nat) (l : List HodItem) : Dev :=
  match l with
  | [] => d
  | it :: r =>
    let d := d.gap ⟨.stream stream, streamUnit stream, it.from_, ((it :: r).getLastD it).until_, ((it :: r).map d.itemUnits).sum, it.index, cause⟩
    (it :: r).foldl (fun (a : Dev) x => a.itemLost cause x) d

/-- What the hod buffer and the deferral queue hold for a channel that is retired is discarded as gaps in its streams (R280). -/
def Dev.heldLost (d : Dev) (c : Nat) : Dev :=
  let mine (it : HodItem) : Bool := d.itemChannel it == some c
  let keep (b : HodBlock) : HodBlock := { b with items := b.items.filter (fun it => !mine it) }
  let gone := (d.cap.deferred.filter (fun b => b.1 == c)).map (fun b => (b.2.1, b.2.2.items)) ++
    d.cap.hod.map (fun p => (p.1, ((p.2.full.map (·.items)).flatten ++ p.2.fill).filter mine))
  let d := gone.foldl (fun (a : Dev) g => a.itemsLost g.1 3 g.2) d
  { d with cap := { d.cap with
    deferred := d.cap.deferred.filter (fun b => b.1 != c)
    hod := d.cap.hod.map (fun p => (p.1, { p.2 with full := p.2.full.map keep, fill := p.2.fill.filter (fun it => !mine it) })) } }

/-- A channel is retired: a stall of at most 50 µs, a smaller map, holes, announcements; the last one stops the Capture
Store (R280, R500). -/
def Dev.retireChannel (d : Dev) (c : Nat) (m : Mem) : Mem × Dev :=
  if !d.inService c then (m, d) else
    let m := d.dropChannel c m
    let map := setBitTo (d.n0 Ix.capChannels) c false
    let d : Dev := (d.stallFor (us 50)).w0 Ix.capChannels map
    let d : Dev := d.heldLost c
    let d : Dev := { d with cap := { d.cap with
      migrations := d.cap.migrations.del c, retiring := some c
      training := (match d.cap.training with | some x => if x.1 = c then none else some x | none => none)
      due := d.cap.due.filter (fun x => x != c) } }
    let d : Dev := (d.ranksLost c).wI Ix.capChanState c 4
    let d : Dev := (d.w0 Ix.capCapacity (mapSize map * 2 ^ 34)).freeReport
    let d : Dev := if map = 0 then d.w0 Ix.capState 4 else if d.n0 Ix.capState = 2 then d.w0 Ix.capState 3 else d
    let new := d.cap.allocs.filter (fun a => if map = 0 then !a.holed else d.becomesHoled c a)
    let d : Dev := { d with cap := { d.cap with allocs := d.cap.allocs.map (fun a => if new.contains a then { a with holed := true } else a) } }
    let d : Dev := if map = 0 then (d.faultWithin 4 Code.channelRetired 7 c 0 50000).raise 4 Code.captureStopped
      else d.faultWithin 3 Code.channelRetired 7 c 0 50000
    let d : Dev := d.reportHoles c new
    let d : Dev := d.capEvent 0x04 c (mapSize map * 2 ^ 34) new.length
    let d : Dev := if d.n0 Ix.capMigrate / 2 ^ 40 = c then d.w0 Ix.capMigrate 0 else d
    (m, ((d.hodReport).happen (.degradation 7 [⟨Ix.capChannels, 0, 0, d.n0 Ix.capChannels⟩])).degradedBit 4 true)

/-- CHANNEL_RETIREMENT_STALL_END: service resumes on the remaining channels (R280). -/
def execChannelRetirementStallEnd (t : Nat) (s : State) : Res := run t s fun d =>
  if d.cap.retiring.isSome && d.cap.stallBegan < d.now then
    { d with cap := { d.cap with retiring := none, stallUntil := min d.cap.stallUntil d.now } }
  else d

/-! ### Sparing (R275 to R277) -/

/-- The spare of a channel that may be used. -/
def Dev.idleSpare (d : Dev) (c : Nat) : Option Nat :=
  if d.flt.standbyFailed.contains (0x10 + c) then none else (List.range 5).find? (fun r => d.rankState c r == 1)

/-- The value of `cap.migrate`. -/
def Dev.migrateReport (d : Dev) (c : Nat) : Dev :=
  match d.migration c with
  | some g => d.w0 Ix.capMigrate (c * 2 ^ 40 + g.old * 2 ^ 32 + g.cursor)
  | none => d.w0 Ix.capMigrate 0

/-- A rank is spared, or its channel retired where the spare is not to be had (Table 10.8, R276, R277, R279). -/
def Dev.spareRank (d : Dev) (c r cause : Nat) (m : Mem) : Mem × Dev :=
  match d.idleSpare c with
  | some sp =>
    let g : Migration := { old := r, spare := sp, cause := cause, since := d.now, stalled := cause != 2 }
    let d := { d with cap := { d.cap with migrations := d.cap.migrations.put c g } }
    let d := ((d.setRankState c r 2).wI Ix.capChanState c 3).capEvent 0x02 c r cause
    (m, ((if cause = 2 then d else d.stallFor (us 20))).migrateReport c)
  | none => d.retireChannel c m

/-- The granule of a capture address within its rank: row, bank after hashing, half row (R257, R275). -/
def Dev.rankGranule (d : Dev) (a : Nat) : Nat := a / 2 ^ 23 * 64 + d.bankOf a * 2 + a / 2 ^ 15 % 2

/-- A burst is lost: zeros, counted, recorded (R274). -/
def Dev.loseBurst (d : Dev) (c r addr : Nat) (m : Mem) : Mem × Dev :=
  let b := addr / 64 * 64
  let d := { d with cap := { d.cap with lost := b :: d.cap.lost.filter (fun x => x != b) } }
  let d := (d.incI Ix.capEccLost (5 * c + r)).capEvent 0x01 c addr r
  (m.filter (fun p => p.1 / 64 != addr / 64), d.fault 1 Code.uncorrectable 7 c addr 0)

/-- UNCORRECTABLE_BURST (R274, R275, R277). -/
def execUncorrectableBurst (t addr : Nat) (s : State) : Res := runMemIf (addr < 2 ^ 37) t s fun m d =>
  let c := d.chanOf addr
  if !d.inService c then (m, d) else
    let r := d.physRank c (addr / 2 ^ 21 % 4)
    match d.migration c with
    | some g =>
      if r = g.old && g.cause != 2 && !g.stalled && d.rankGranule addr < g.cursor then
        let (m, d) := d.loseBurst c g.spare addr m
        d.retireChannel c m
      else if r = g.old then
        let (m, d) := d.loseBurst c r addr m
        (m, { d with cap := { d.cap with migrations := d.cap.migrations.put c { g with lost := g.lost + 1 } } })
      else
        let (m, d) := d.loseBurst c r addr m
        d.retireChannel c m
    | none =>
      let (m, d) := d.loseBurst c r addr m
      d.spareRank c r 1 m

/-- SPARING_STALL_END: service resumes, the spare in service below the cursor (Table 10.8). -/
def execSparingStallEnd (t chan : Nat) (s : State) : Res := runIf (chan < 8) t s fun d =>
  match d.migration chan with
  | some g =>
    if g.stalled then
      let d := { d with cap := { d.cap with
        migrations := d.cap.migrations.put chan { g with stalled := false }, stallUntil := min d.cap.stallUntil d.now } }
      d.setRankState chan g.spare 3
    else d
  | none => d

/-- The map names the spare, and the old rank is retired (Table 10.8). -/
def Dev.migrationEnd (d : Dev) (c : Nat) (g : Migration) : Dev :=
  let map := d.nI Ix.capRankMap c
  let map' := (List.range 4).foldl (fun v i => v + (if map / 2 ^ (3 * i) % 8 = g.old then g.spare else map / 2 ^ (3 * i) % 8) * 2 ^ (3 * i)) 0
  let d := { d with cap := { d.cap with migrations := d.cap.migrations.del c, waiting := d.cap.waiting.filter (fun w => !(w.1 == 3 && w.2.1 == c)) } }
  let d := ((d.wI Ix.capRankMap c map').setRankState c g.old 4).setRankState c g.spare 3
  (((d.wI Ix.capChanState c 1).w0 Ix.capMigrate 0).capEvent 0x03 c g.old g.lost).raise 4 Code.rankRetired

/-- MIGRATION_COMPLETE: the cursor reaches the end of the rank; a rank spared without an error switches under R27 (R275, R276). -/
def execMigrationComplete (t chan : Nat) (s : State) : Res := runIf (chan < 8) t s fun d =>
  match d.migration chan with
  | some g =>
    if g.stalled then d
    else if g.cause != 2 then d.migrationEnd chan g
    else if d.mayStall then (d.stallFor (us 20)).migrationEnd chan g
    else { d with cap := { d.cap with waiting := d.cap.waiting ++ [(3, chan, 0)] } }.inc0 Ix.capStallDeferrals
  | none => d

/-- Corrected errors of a rank in the last 24 hours. -/
def Dev.correctedNow (d : Dev) (c r : Nat) : List Nat := (d.cap.corrected.get [] (8 * c + r)).filter (fun w => d.now < w + 86400 * sec)

/-- A corrected burst is counted for its rank (R273). -/
def Dev.correctedError (d : Dev) (c r : Nat) : Dev :=
  { d with cap := { d.cap with corrected := d.cap.corrected.put (8 * c + r) (d.now :: d.correctedNow c r) } }.incI Ix.capEccCorrected (5 * c + r)

/-- CE_LIMIT_SPARE: more corrected errors than `cap.ce_limit` in 24 h start a migration; it waits for the Supervisor (R276). -/
def execCeLimitSpare (t chan rank : Nat) (s : State) : Res := runMemIf (chan < 8 && rank < 5) t s fun m d =>
  let lim := d.n0 Ix.capCeLimit
  let serves := d.rankState chan rank == 0 || d.rankState chan rank == 3
  if lim != 0 && lim < (d.correctedNow chan rank).length && d.inService chan && serves && (d.migration chan).isNone && d.sup.running then
    d.spareRank chan rank 2 m
  else (m, d)

/-- PATROL_SCRUB: a pass over a rank: corrected errors counted, uncorrectable bursts lost (R273, R274). -/
def execPatrolScrub (t chan rank corrected : Nat) (lost : List Nat) (s : State) : Res :=
  runMemIf (chan < 8 && rank < 5) t s fun m d =>
    if !d.inService chan then (m, d) else
      let d := (List.range corrected).foldl (fun (a : Dev) _ => a.correctedError chan rank) d
      let d := { d with cap := { d.cap with scrubbed := d.cap.scrubbed.put (8 * chan + rank) d.now } }
      match lost with
      | [] => (m, d)
      | _ =>
        let (m, d) := lost.foldl (fun (p : Mem × Dev) a => p.2.loseBurst chan rank a p.1) (m, d)
        if d.rankState chan rank = 1 then
          (m, { d with flt := { d.flt with standbyFailed := (0x10 + chan) :: d.flt.standbyFailed } }.fault 3 Code.standbyFailed 7 chan rank 0)
        else if (d.migration chan).isSome then (m, d)
        else d.spareRank chan rank 1 m

/-! ### Regulators and scheduling (R267 to R270) -/

/-- REGULATOR_REFILL: at every 1 µs boundary a bucket gains its rate, up to its depth: here for the boundaries since the last refill
(R267). -/
def execRegulatorRefill (t : Nat) (s : State) : Res := run t s fun d =>
  let tick := d.now * 1000000 / two48
  let tokens := (List.range 24).foldl (fun (l : Tab Int) p =>
    let depth : Int := (d.nI Ix.capRegBurst p * 1024 : Nat)
    let v := l.get depth p
    l.set depth p (min depth (v + (d.nI Ix.capRegRate p * (tick - d.cap.refilled) : Nat)))) d.cap.tokens
  { d with cap := { d.cap with tokens := tokens, refilled := tick } }

/-- Whether a port's bucket lets a request issue. -/
def Dev.portOpen (d : Dev) (p : Nat) : Bool :=
  d.nI Ix.capRegRate p == 0 || decide (0 < d.cap.tokens.get ((d.nI Ix.capRegBurst p * 1024 : Nat) : Int) p)

/-- A port is served some bytes. -/
def Dev.portServe (d : Dev) (p bytes : Nat) : Dev :=
  let depth : Int := (d.nI Ix.capRegBurst p * 1024 : Nat)
  let tokens := if d.nI Ix.capRegRate p = 0 then d.cap.tokens else d.cap.tokens.set depth p (d.cap.tokens.get depth p - bytes)
  { d with cap := { d.cap with tokens := tokens, idleSince := d.now } }.incI Ix.capPortBytes p bytes

/-- A request read from its operand: class, port, address (of a maintenance request: offset in its rank, and the rank), and from
when on a display read is needed within four line times. -/
def Dev.memReq (d : Dev) (c : Nat) (l : List Nat) : MemReq :=
  let cls := l.getD 0 0
  let a := l.getD 2 0
  if cls = 5 then ⟨5, l.getD 1 0, a, l.getD 3 0 % 5, a / 2 ^ 13 % 32, a / 2 ^ 18, d.now, 0⟩
  else ⟨cls, l.getD 1 0, a, d.physRank c (a / 2 ^ 21 % 4), d.bankOf a, a / 2 ^ 23, d.now, l.getD 3 0⟩

/-- Whether a request hits the open row of its bank. -/
def rowHit (x : SubSt) (r : MemReq) : Bool := x.openRow.find? (32 * r.rank + r.bank) == some r.row

/-- The write that the picker issues: a hit in its bank up to 16 bursts, else the oldest of the next bank in rotation (R270). -/
def pickWrite (x : SubSt) (ws : List MemReq) : Option MemReq :=
  let key (r : MemReq) : Nat := 32 * r.rank + r.bank
  match (if x.burst < 16 then ws.find? (fun r => key r == x.pickBank && rowHit x r) else none) with
  | some r => some r
  | none =>
    let order := (List.range 160).map (fun i => (x.pickBank + 1 + i) % 160)
    match order.find? (fun k => ws.any (fun r => key r == k)) with
    | some k => ws.find? (fun r => key r == k)
    | none => none

/-- The next request of a sub-channel by level; a refresh or neighbour refresh comes before all (R269). -/
def Dev.pickReq (d : Dev) (x : SubSt) : Option MemReq :=
  let q := x.queue.filter (fun r => d.portOpen r.port)
  let ws := q.filter (fun r => r.cls == 2 || r.cls == 4)
  let reads := q.filter (fun r => r.cls == 3)
  let shows := q.filter (fun r => r.cls == 1)
  let late := ws.any (fun r => r.cls == 2 && r.arrived + us 2 ≤ d.now) || 48 < (x.queue.filter (fun r => r.cls == 2 || r.cls == 4)).length
  match shows.find? (fun r => r.urgent ≤ d.now) with
  | some r => some r
  | none =>
    if late && !ws.isEmpty then pickWrite x ws
    else match reads.find? (fun r => r.arrived + us 4 ≤ d.now) with
      | some r => some r
      | none => match reads.find? (rowHit x) with
        | some r => some r
        | none => match reads.head? with
          | some r => some r
          | none => match shows.head? with
            | some r => some r
            | none => match pickWrite x ws with
              | some r => some r
              | none => (q.filter (fun r => r.cls == 5)).head?

/-- The rows at distances 1 and 2 of a row are refreshed: bank and row leave the queue, and the row's count is 0 (R272, Table 10.7). -/
def Dev.neighboursRefreshed (d : Dev) (c s : Nat) (n : Nat × Nat) : Dev :=
  let d := d.setSub c s { d.sub c s with neighbours := (d.sub c s).neighbours.erase n }
  let l := (d.cap.rows.get [] n.1).map (fun p => if p.1 = n.2 then (n.2, 0) else p)
  { d with cap := { d.cap with rows := d.cap.rows.set [] n.1 l } }.incI Ix.capRdRefreshes c

/-- SUBCHANNEL_COMMAND: new requests join the queue (those a bucket holds are counted), and the next command issues (R267 to R270,
R273). `corrected`: the burst read was corrected. -/
def execSubchannelCommand (t chan sub : Nat) (arrivals : List (List Nat)) (corrected : Bool) (s : State) : Res :=
  runIf (chan < 8 && sub < 2) t s fun d =>
    if !d.inService chan || d.now < d.cap.stallUntil then d else
      let new := (arrivals.map (d.memReq chan)).filter (fun r => r.port < 24 && 1 ≤ r.cls && r.cls ≤ 5)
      let d := new.foldl (fun (a : Dev) r => if a.portOpen r.port then a else a.incI Ix.capRegHeld r.port) d
      let x := d.sub chan sub
      let x := { x with queue := x.queue ++ new }
      match x.refreshes, x.neighbours with
      | _ :: r, _ => d.setSub chan sub { x with refreshes := r, issued := none }
      | [], n :: _ => (d.setSub chan sub { x with issued := none }).neighboursRefreshed chan sub n
      | [], [] =>
        match d.pickReq x with
        | none => d.setSub chan sub { x with issued := none }
        | some r =>
          let key := 32 * r.rank + r.bank
          let write := r.cls == 2 || r.cls == 4
          let same := write && key == x.pickBank && rowHit x r
          let y := { x with
            queue := x.queue.erase r, openRow := x.openRow.put key r.row, issued := some r
            pickBank := if write then key else x.pickBank, burst := if same then x.burst + 1 else if write then 1 else x.burst }
          let d := (d.setSub chan sub y).portServe r.port 64
          let d := if corrected && !write then d.correctedError chan r.rank else d
          match d.migration chan with
          | some g => if r.port = 22 then
              ({ d with cap := { d.cap with migrations := d.cap.migrations.put chan { g with cursor := max g.cursor (r.addr / 4096) } } }).migrateReport chan
            else d
          | none => d

/-! ### Refresh, temperature, row disturbance (R271, R272) -/

/-- tREFI of a channel (R271). -/
def Dev.refi (d : Dev) (c : Nat) : Nat := if bitOf (d.n0 Ix.capRefreshX2) c then ns 1950 else ns 3900

/-- REFRESH_DUE: four same-bank refreshes each interval, one for each bank index (R271). -/
def execRefreshDue (t chan rank : Nat) (s : State) : Res := runIf (chan < 8 && rank < 5) t s fun d =>
  let k := 8 * chan + rank
  if d.inService chan && d.cap.refreshDue.get 0 k ≤ d.now then
    let d := [0, 1].foldl (fun (a : Dev) i => a.setSub chan i { a.sub chan i with refreshes := (a.sub chan i).refreshes ++ [rank] }) d
    { d with cap := { d.cap with
      refreshDue := d.cap.refreshDue.set 0 k (d.now + d.refi chan / 4)
      refreshBank := d.cap.refreshBank.set 0 k ((d.cap.refreshBank.get 0 k + 1) % 4) } }
  else d

/-- MR4_READ: the field and temperature of a channel's hottest rank (Table 10.6). -/
def execMr4Read (t chan field : Nat) (temp : Int) (s : State) : Res := runIf (chan < 8) t s fun d =>
  if !d.inService chan then d else
    let d := d.wI Ix.capDramMr4 chan (field % 256)
    let x2 := bitOf (d.n0 Ix.capRefreshX2) chan
    let d :=
      if 85 < temp then
        let d := { d with cap := { d.cap with cool := d.cap.cool.set 0 chan 0 } }
        if x2 then d else (d.w0 Ix.capRefreshX2 (setBitTo (d.n0 Ix.capRefreshX2) chan true)).capEvent 0x06 chan 1 field
      else
        let n := d.cap.cool.get 0 chan + 1
        let d := { d with cap := { d.cap with cool := d.cap.cool.set 0 chan (min n 16) } }
        if x2 && 16 ≤ n then (d.w0 Ix.capRefreshX2 (setBitTo (d.n0 Ix.capRefreshX2) chan false)).capEvent 0x06 chan 0 field else d
    let others := d.cap.over95.filter (fun c => c != chan)
    let d := if temp ≤ 95 && d.cap.over95.contains chan && others.isEmpty then d.heatEnds else d
    let d := { d with cap := { d.cap with over95 := if 95 < temp then chan :: others else others } }
    let d := if 95 < temp then { d with pwr := { d.pwr with hot := true } } else d
    let again : Bool := match d.cap.hotRaised with | some r => decide (r + sec ≤ d.now) | none => true
    if 95 < temp && again then { d with cap := { d.cap with hotRaised := some d.now } }.raise 4 Code.dramHot else d

/-- Key of a bank: sub-channel, physical rank, bank. -/
def bankKey (chan sub rank bank : Nat) : Nat := (((chan * 2 + sub) * 5) + rank) * 32 + bank

/-- An activate in a bank's table of 16 rows (R272). -/
def activateRow (row : Nat) (l : List (Nat × Nat)) : List (Nat × Nat) :=
  if l.any (fun p => p.1 == row) then l.map (fun p => if p.1 = row then (row, p.2 + 1) else p)
  else if l.length < 16 then l ++ [(row, 1)]
  else
    let least := l.foldl (fun n p => min n p.2) (l.headD (0, 0)).2
    match l.find? (fun p => p.2 == least) with
    | some v => l.map (fun p => if p == v then (row, least + 1) else p)
    | none => l

/-- ROW_ACTIVATE: the bank's table counts the row; at the threshold its neighbours are to be refreshed (R272). -/
def execRowActivate (t chan sub rank bank row : Nat) (s : State) : Res :=
  runIf (chan < 8 && sub < 2 && rank < 5 && bank < 32 && row < 16384) t s fun d =>
    if !d.inService chan then d else
      let k := bankKey chan sub rank bank
      let l := activateRow row (d.cap.rows.get [] k)
      let hit := l.any (fun p => p.1 == row && d.n0 Ix.capRdThreshold ≤ p.2)
      let l := if hit then l.map (fun p => if p.1 = row then (row, 0) else p) else l
      let d := { d with cap := { d.cap with rows := d.cap.rows.set [] k l } }
      if hit then d.setSub chan sub { d.sub chan sub with neighbours := (d.sub chan sub).neighbours ++ [(k, row)] } else d

/-- NEIGHBOUR_REFRESH: the refresh of a row's neighbours that is queued happens (R272). -/
def execNeighbourRefresh (t chan sub rank bank row : Nat) (s : State) : Res :=
  runIf (chan < 8 && sub < 2 && rank < 5 && bank < 32 && row < 16384) t s fun d =>
    let n := (bankKey chan sub rank bank, row)
    if (d.sub chan sub).neighbours.contains n then d.neighboursRefreshed chan sub n else d

/-- ROW_TABLE_CLEAR: every 32 ms all tables clear (R272). -/
def execRowTableClear (t : Nat) (s : State) : Res := run t s fun d =>
  if d.cap.rowsCleared + ms 32 ≤ d.now then { d with cap := { d.cap with rows := [], rowsCleared := d.now } } else d

/-! ### Retraining (R278, R279) -/

/-- RETRAIN_DUE: by period or by temperature change (R278). -/
def execRetrainDue (t chan : Nat) (temp : Int) (s : State) : Res := runIf (chan < 8) t s fun d =>
  let moved := d.cap.trainedAt.get 0 chan
  let dk : Int := d.n0 Ix.capRetrainDk
  if d.inService chan && !d.cap.due.contains chan && (d.cap.trained.get 0 chan + d.n0 Ix.capRetrainS * sec ≤ d.now || dk ≤ temp - moved || dk ≤ moved - temp) then
    let d := { d with cap := { d.cap with due := d.cap.due ++ [chan], trainedAt := d.cap.trainedAt.set 0 chan temp } }
    if d.mayStall then d else d.inc0 Ix.capStallDeferrals
  else d

/-- RETRAIN_START: the lowest due channel goes out of service once R27 allows; it waits for a migration's end and for the Supervisor. -/
def execRetrainStart (t chan : Nat) (s : State) : Res := runIf (chan < 8) t s fun d =>
  if !d.cap.due.contains chan || d.cap.training.isSome || d.cap.due.any (fun c => decide (c < chan)) then d
  else if (d.migration chan).isSome || !d.mayStall || !d.sup.running then d.inc0 Ix.capStallDeferrals
  else
    let d := { d with cap := { d.cap with
      due := d.cap.due.filter (fun c => c != chan), training := some (chan, d.now), stallBase := some (d.cap.stallBase.getD (d.n0 Ix.capHodOccupancy)) } }
    d.wI Ix.capChanState chan 2

/-- VOLUNTARY_STALL_START: a stall that waited begins once R27 allows (R27): the operating point changes, or a rank switches. -/
def execVoluntaryStallStart (t kind chan durNs : Nat) (s : State) : Res := runIf (chan < 8) t s fun d =>
  match d.cap.waiting.find? (fun w => w.1 == kind && (kind == 1 || w.2.1 == chan)) with
  | none => d
  | some w =>
    if !d.mayStall then d.inc0 Ix.capStallDeferrals
    else
      let d := { d with cap := { d.cap with waiting := d.cap.waiting.erase w } }
      if kind = 1 then
        let u := min durNs 40000
        let was := d.n0 Ix.capDramRate
        (((d.stallFor (ns u)).w0 Ix.capDramRate w.2.2).capEvent 0x09 0 w.2.2 u).pwrEvent 0x03 0 w.2.2 was
      else match d.migration chan with
        | some g => (d.stallFor (ns (min durNs 20000))).migrationEnd chan g
        | none => d

/-! ### Capture streams (R262 to R265) -/

/-- A capture stream's commands are rejected in rushes service (R78, R283). -/
def Dev.csCommand (d : Dev) (path cs v : Nat) (f : Dev → Dev) : Dev :=
  d.command path Ix.capCsCmd (cs + 1) v fun d =>
    if !d.fullService then d.refuse path Ix.capCsCmd (cs + 1) Code.rushesUnavailable else f d

/-- The slate of a capture-stream log (R264): slots 5, 6, 7, 10 and 13 read zero. -/
def Dev.csSlate (d : Dev) (cs : Nat) (at_ : Nat) : Rec :=
  let c := d.cap.streams.get {} cs
  slateRec [slateHead cs 4 1 c.fmt 0, sec48 c.t0, frac48 c.t0, sec48 at_, frac48 at_, 0, 0, 0, 0, d.hash48, 0, d.n0 Ix.calCount, c.rate, 0,
    12288 * d.nI Ix.capCsSize cs / formatBytes c.fmt, 0, 0]

/-- Region and log of a stream: those it holds, else new ones (R265). -/
def Dev.csMemory (d : Dev) (cs : Nat) : Option Dev :=
  if (d.allocOf 1 cs).isSome && (d.allocOf 4 cs).isSome then some d
  else match d.alloc 1 cs (12288 * d.nI Ix.capCsSize cs) false with
    | some (a, d1) => match d1.alloc 4 cs (4096 * d1.nI Ix.capCsLogSize cs) true with
      | some (b, d2) => some ((d2.wI Ix.capCsBase cs (d2.allocAddr a 0)).wI Ix.capCsLogBase cs (d2.allocAddr b 0))
      | none => none
    | none => none

/-- CS_START: at the first 1 µs boundary the stream starts: the first sample at or after it is j = 0, and the log opens with its slate (R264,
R265). -/
def execCsStart (t path cs : Nat) (s : State) : Res := runEntry (cs < 4) path Ix.capCsCmd (cs + 1) 1 t s fun d =>
  d.csCommand path cs 1 fun d =>
    if d.nI Ix.capCsState cs != 1 then d.refuse path Ix.capCsCmd (cs + 1) Code.csState
    else match d.csMemory cs with
      | none => d.refuse path Ix.capCsCmd (cs + 1) Code.csNoMemory
      | some d =>
        let at_ := tickAt (d.time96 + 1)
        let src := sourceOf (d.nI Ix.capCsSrc cs)
        let n0 := d.sampleAfter src at_
        let c : CsSt := { t0 := d.timeOf src n0, rate := d.rateOf src, fmt := d.nI Ix.capCsFormat cs, src := d.nI Ix.capCsSrc cs
                          mode := d.nI Ix.capCsMode cs, n0 := n0 }
        let d := { d with cap := { d.cap with streams := d.cap.streams.put cs c } }
        let d := (d.wI Ix.capCsState cs 2).wI Ix.capCsWritten cs 0
        d.ask (4 * 2 ^ 24 + cs) ⟨.csSlate cs, at_, at_, 0, recBytes (d.csSlate cs at_)⟩

/-- CS_STOP: the last sample before the boundary is the last written (R265). -/
def execCsStop (t path cs : Nat) (s : State) : Res := runEntry (cs < 4) path Ix.capCsCmd (cs + 1) 2 t s fun d =>
  d.csCommand path cs 2 fun d =>
    if d.nI Ix.capCsState cs = 2 then
      let at_ := tickAt (d.time96 + 1)
      let c : CsSt := d.cap.streams.get {} cs
      { d with cap := { d.cap with streams := d.cap.streams.put cs { c with stop := some at_ } } }.wI Ix.capCsState cs 1
    else if d.nI Ix.capCsState cs = 3 then d.alreadyDone path
    else d.refuse path Ix.capCsCmd (cs + 1) Code.csState

/-- CS_FREE: release is requested; the stream is freeing until every read in progress ends (R265). -/
def execCsFree (t path cs : Nat) (s : State) : Res := runEntry (cs < 4) path Ix.capCsCmd (cs + 1) 3 t s fun d =>
  d.csCommand path cs 3 fun d =>
    if d.nI Ix.capCsState cs = 1 || d.nI Ix.capCsState cs = 3 then d.wI Ix.capCsState cs 4
    else d.refuse path Ix.capCsCmd (cs + 1) Code.csState

/-- CS_FREE_RELEASE: region and log are released; the stream is idle and holds no memory (R265). -/
def execCsFreeRelease (t cs : Nat) (s : State) : Res := runIf (cs < 4) t s fun d =>
  if d.nI Ix.capCsState cs = 4 then
    let d := ((d.release 1 cs).release 4 cs).wI Ix.capCsState cs (if d.nI Ix.capCsSrc cs = 0 then 0 else 1)
    (d.wI Ix.capCsBase cs 0).wI Ix.capCsLogBase cs 0
  else d

/-! ### Sleep (R282) -/

/-- CAPTURE_IDLE_SLEEP: with all ports idle for `cap.idle_sr` microseconds the island sleeps, every rank in self-refresh. A request in
the same clock wins (R282). -/
def execCaptureIdleSleep (t : Nat) (s : State) : Res := run t s fun d =>
  let q := (List.range 16).any (fun k => !(d.cap.subs.get {} k).queue.isEmpty) || d.hodBlocks != 0
  if d.n0 Ix.capIdleSr != 0 && d.cap.idleSince + us (d.n0 Ix.capIdleSr) ≤ d.now && !q && !d.cap.asleep && 2 ≤ d.n0 Ix.capState then
    { d with cap := { d.cap with asleep := true } }.setIslState 7 2
  else d

/-- CAPTURE_WAKE: a request wakes the Capture Store within 3 µs; it waits through the wake (R282). -/
def execCaptureWake (t port : Nat) (s : State) : Res := runIf (port < 24) t s fun d =>
  if d.cap.asleep then
    { d with cap := { d.cap with asleep := false, idleSince := d.now, stallUntil := max d.cap.stallUntil (d.now + us 3) } }.setIslState 7 0
  else d

/-! ### Cuts -/

/-- The continuous rate of capture streams and memory histories on a capture-write port, in milli-bytes per second (R268). -/
def Dev.portNeed (d : Dev) (p : Nat) : Nat :=
  let cs := (List.range 4).filter (fun s => d.nI Ix.capCsState s == 2 && chanLane (d.nI Ix.capCsSrc s) == p)
  let mags := (List.range 256).filter (fun k => (d.nW Ix.trgMagState k == 2 || d.nW Ix.trgMagState k == 3) && d.nW Ix.trgMagHistory k == 1 &&
    chanLane (d.rd Ix.trgMagChan 1 k).toNat == p)
  (cs.map (fun s => d.chanRate (d.nI Ix.capCsSrc s) * formatBytes (d.nI Ix.capCsFormat s))).sum +
    (mags.map (fun k => d.chanRate (d.rd Ix.trgMagChan 1 k).toNat * formatBytes (d.nW Ix.trgMagFormat k) *
      ((List.range 4).filter (fun c => d.rd Ix.trgMagChan (c + 1) k != 0)).length)).sum

/-- The Capture Store's part of a commit's checks: `old` is the device before the set (R262, R265, R268). -/
def Dev.capCheck (d old : Dev) : Option Nat :=
  let cs (s : Nat) : Option Nat :=
    let chg (ix : Nat) : Bool := old.rd ix (s + 1) 0 != d.rd ix (s + 1) 0
    let st := old.nI Ix.capCsState s
    let free := st == 0 || (st == 1 && (old.allocOf 1 s).isNone)
    if d.nI Ix.capCsSrc s != 0 && d.nI Ix.capCsFormat s = 4 && !d.realLinkSrc (d.nI Ix.capCsSrc s) then some Code.csFormat
    else if (chg Ix.capCsSrc || chg Ix.capCsFormat || chg Ix.capCsSize || chg Ix.capCsLogSize) && !free then some Code.csRunning
    else none
  firstCode ((List.range 4).map cs ++ (List.range 4).map (fun p =>
    if d.nI Ix.capRegRate p != 0 && d.nI Ix.capRegRate p * 1000000000 < d.portNeed p then some Code.regulatorBelowStream else none))

/-- The Capture Store applies its part of a cut: a stream given a source is idle, one that loses it is free (R265). -/
def Dev.capCut (d : Dev) : Dev :=
  (List.range 4).foldl (fun (a : Dev) s =>
    if a.nI Ix.capCsState s = 0 && a.nI Ix.capCsSrc s != 0 then a.wI Ix.capCsState s 1
    else if a.nI Ix.capCsState s = 1 && (a.allocOf 1 s).isNone && a.nI Ix.capCsSrc s = 0 then a.wI Ix.capCsState s 0
    else a) d

/-- The Capture Store runs from the changeover on (Table 10.12). -/
def Dev.capStart (d : Dev) : Dev :=
  let n := mapSize (d.n0 Ix.capChannels)
  d.w0 Ix.capState (if n = 8 then 2 else if n = 0 then 4 else 3)

end Sys2Proof.Machine
end

