-- ==== Sys2Proof/Machine/Trigger.lean ====
section
/-! DEFINITION. Trigger Unit: conditions, horizons and masks (07_triggers_and_takes.md, R169 to R187, R206, R207). -/

namespace Sys2Proof.Machine

def Dev.cond (d : Dev) (c : Nat) : CondSt := d.trg.conds.get {} c
def Dev.setCond (d : Dev) (c : Nat) (x : CondSt) : Dev := { d with trg := { d.trg with conds := d.trg.conds.set {} c x } }
def Dev.chain (d : Dev) (c : Nat) : ChainSt := d.trg.chains.get {} c
def Dev.setChain (d : Dev) (c : Nat) (x : ChainSt) : Dev := { d with trg := { d.trg with chains := d.trg.chains.set {} c x } }
def Dev.mask (d : Dev) (m : Nat) : MaskSt := d.trg.masks.get {} m
def Dev.setMask (d : Dev) (m : Nat) (x : MaskSt) : Dev := { d with trg := { d.trg with masks := d.trg.masks.set {} m x } }

/-- A Trigger Unit event record (Tables 7.8 and 7.9). -/
def Dev.trgEvent (d : Dev) (kind obj time a b : Nat) : Dev := d.event 4 0x0F40 kind obj time a b

/-- The first Trigger Unit block boundary at or after an instant: multiples of 256 periods of the island's clock, to the nearest unit (R28). -/
def Dev.trgBoundary (d : Dev) (time : Nat) : Nat :=
  let hz := max (d.clockKHz 4) 1 * 1000
  (roundEven ((ceilDiv (time * hz) (256 * two48) * (256 * two48) : Nat) : Int) hz).toNat

/-! ### Horizons (R184, R185) -/

/-- Picoseconds of a figure in ns that counts clocks of an island (R184). -/
def Dev.scaledPs (d : Dev) (isl figure : Nat) : Nat := figure * 1000 * 1600000 / max (d.clockKHz isl) 1

/-- λ + 60 ns of a link or playback source code, with r where the link is real, in ps (R184). -/
def Dev.sourcePs (d : Dev) (code : Nat) (real : Bool) : Nat :=
  let base := d.scaledPs 1 60
  if 0x10 ≤ code && code < 0x20 then
    toPs (d.nI Ix.itkLinkLatency (code - 0x10)) + base + (if real && d.linkReal (code - 0x10) then d.scaledPs 2 40 else 0)
  else base

/-- λ + 60 ns + r + G of a DDC, in ps. -/
def Dev.ddcPs (d : Dev) (n : Nat) : Nat := d.sourcePs (d.nI Ix.chnSrc n) true + d.nI Ix.chnGroupDelay n

/-- λ + 60 ns + r + G + N / (2 f_in) + L(N) of a layer, in ps. -/
def Dev.layerPs (d : Dev) (l : Nat) : Nat :=
  let src := match d.layerDdc l with | some n => d.ddcPs n | none => d.sourcePs (d.wideCode (l / 4)) true
  let f := d.layerRate l
  src + (if f = 0 then 0 else d.layerN l * 1000000000000000 / (2 * f)) + layerClocks (d.layerN l) * 1000000000 / max (d.clockKHz 3) 1

/-- The layer a plane is fed by. -/
def Dev.planeLayer (d : Dev) (p : Nat) : Option Nat := if d.nI Ix.denLayer p < 4 then some (4 * p + d.nI Ix.denLayer p) else none

/-- The horizon of a condition in ps (Table 7.2, R224). -/
def Dev.condPs (d : Dev) (c : Nat) : Nat :=
  let ty := d.nI Ix.trgCondType c
  let src := d.nI Ix.trgCondSrc c
  if 1 ≤ ty && ty ≤ 6 then
    if src < 0x20 then d.sourcePs src false + d.scaledPs 4 80 else d.ddcPs (src - 0x20) + d.scaledPs 4 80
  else if ty = 0x10 then d.layerPs (d.nI Ix.trgMaskLayer src) + d.scaledPs 4 80
  else if ty = 0x11 then match d.planeLayer (src / 4) with
    | some l => d.layerPs l + d.scaledPs 5 160
    | none => 0
  else if ty = 0x20 || ty = 0x21 then d.scaledPs 4 140
  else if ty = 0x30 then d.n0 Ix.trgRemoteHorizon * 1000
  else if ty = 0x31 then d.scaledPs 4 160
  else 0

/-- The conditions of a 64-bit map. -/
def mapBits (m : Nat) : List Nat := (List.range 64).filter (bitOf m)

/-- The setting of a chain in force. -/
def Dev.chainCfg (d : Dev) (c : Nat) : ChainCfg :=
  ⟨d.nI Ix.trgChainOrder c, d.nI Ix.trgChainHoldoff c, d.nI Ix.trgChainReset c,
    (List.range (min (d.nI Ix.trgChainStages c) 4)).map (fun s =>
      (d.nI Ix.trgStageSet (4 * c + s), d.nI Ix.trgStageMode (4 * c + s), d.nI Ix.trgStageN (4 * c + s),
        d.nI Ix.trgStageWindow (4 * c + s), d.nI Ix.trgStageNext (4 * c + s)))⟩

/-- The conditions a chain names. -/
def ChainCfg.names (g : ChainCfg) : Nat := g.stages.foldl (fun m s => Nat.lor m s.1) g.resetSet

/-- The horizon H of a chain in ps: the largest h of its conditions and 40 ns (R185). -/
def Dev.chainPs (d : Dev) (c : Nat) : Nat :=
  (mapBits (d.chainCfg c).names).foldl (fun m k => max m (d.condPs k)) 0 + d.scaledPs 4 40

/-- A time in ps as reports give it, in whole ns. -/
def wholeNs (ps : Nat) : Nat := (roundEven (ps : Int) 1000).toNat

/-- The horizon entries follow the setting. -/
def Dev.horizonReport (d : Dev) : Dev :=
  let d := (List.range 64).foldl (fun (a : Dev) c => a.wI Ix.trgCondHorizon c (wholeNs (a.condPs c))) d
  (List.range 16).foldl (fun (a : Dev) c => a.wI Ix.trgChainHorizon c (if a.nI Ix.trgChainStages c = 0 then 0 else wholeNs (a.chainPs c))) d

/-! ### Suspended instances (R207) -/

/-- The instance a condition belongs to: the bank of its port or lane, or 4. -/
def Dev.condInst (d : Dev) (c : Nat) : Nat :=
  let ty := d.nI Ix.trgCondType c
  let src := d.nI Ix.trgCondSrc c
  if 1 ≤ ty && ty ≤ 6 then (if src < 0x20 then (src - 0x10) / 4 else (src - 0x20) / 8)
  else if ty = 0x10 then src / 16 else if ty = 0x11 then src / 4 else 4

/-- Whether an instance is suspended now. -/
def Dev.instSuspended (d : Dev) (i : Nat) : Bool :=
  match d.trg.suspended.find? i with
  | some (_, u) => u == 0 || decide (d.now < u)
  | none => false

/-! ### Events of conditions (R174, R185, R187) -/

/-- Whether a chain is held because an instance of its conditions, or the sequencer, is suspended (R207). -/
def Dev.chainHeld (d : Dev) (c : Nat) : Bool :=
  d.instSuspended 4 || (mapBits (d.chainCfg c).names).any (fun k => d.instSuspended (d.condInst k))

/-- The setting that judges a condition's event: before a cut's boundary the old one (R204). -/
def Dev.condAt (d : Dev) (c time : Nat) : Dev :=
  match (d.cond c).before with
  | some (b, old) => if time < b then d.overlay old else d
  | none => d

/-- The same of a chain. -/
def Dev.chainAt (d : Dev) (c time : Nat) : ChainCfg :=
  match (d.chain c).before with
  | some (b, old) => if time < b then old else d.chainCfg c
  | none => d.chainCfg c

/-- The conditions of a type and source, as their setting at an event's time has them. -/
def Dev.condsOf (d : Dev) (ty src time : Nat) : List Nat :=
  (List.range 64).filter fun c =>
    let v := d.condAt c time
    v.nI Ix.trgCondType c == ty && v.nI Ix.trgCondSrc c == src

/-- An event joins the queue of a chain that names its condition: due at its time plus H, or plus h and 40 ns in arrival order, where it is due
at once if that has passed. At most 4,096 of a condition wait (R185 to R187). -/
def Dev.enqueue (d : Dev) (chain cond time : Nat) : Dev :=
  let x := d.chain chain
  if (x.queue.filter (fun q => q.cond == cond)).length < 4096 then
    let due := if (d.chainAt chain time).order = 0 then time + ps (d.chainPs chain) else max (time + ps (d.condPs cond + d.scaledPs 4 40)) d.time96
    d.setChain chain { x with queue := x.queue ++ [{ cond, time, due }] }
  else d

/-- A condition's event is emitted: counted, merged with another of the same island clock, recorded, and given to every chain in use that
names the condition (R174). -/
def Dev.emitCond (d : Dev) (c time value : Nat) : Dev :=
  let was := d.condAt c time
  if was.nI Ix.trgCondType c = 0 || d.instSuspended (was.condInst c) then d
  else
    let clk := time * (d.clockKHz 4 * 1000) / two48
    let x := d.cond c
    if x.clock = some clk then d.incI Ix.trgCondMerged c
    else
      let d := (d.setCond c { x with clock := some clk }).incI Ix.trgCondEvents c
      let d := if was.nI Ix.trgCondLog c = 1 then d.trgEvent 0x07 c time value 0 else d
      (List.range 16).foldl (fun (a : Dev) k =>
        let g := a.chainAt k time
        if !g.stages.isEmpty && bitOf g.names c then a.enqueue k c time else a) d

/-! ### Time-domain conditions (R170 to R173) -/

/-- The quantity a condition examines (R170), in units of 2^-23 of full scale. -/
def Dev.condQty (d : Dev) (c : Nat) (s : Sample) : Int :=
  let q := d.nI Ix.trgCondQty c
  if q = 0 then s.i else if q = 1 then s.q else if q = 2 then (sqrtRound (s.i * s.i + s.q * s.q).toNat : Nat) else (s.env / 2 ^ 23 : Nat)

/-- k of a crossing of a level between two samples (R171). -/
def crossAt (x s0 s1 : Int) : Nat :=
  let den := (s1 - s0).natAbs
  let num := if s0 ≤ s1 then x - s0 else s0 - x
  (clampInt 1 256 (roundEven (256 * num) (max den 1))).toNat

/-- Whether a duration meets a condition's test (R172). -/
def Dev.condTest (d : Dev) (c x : Nat) : Bool :=
  let a := d.nI Ix.trgCondTimeA c
  let b := d.nI Ix.trgCondTimeB c
  let k := d.nI Ix.trgCondCompare c
  if k = 0 then decide (x < a) else if k = 1 then decide (a < x) else if k = 2 then decide (a ≤ x) && decide (x ≤ b) else decide (x < a) || decide (b < x)

/-- The source of a time-domain condition, and its rate in mHz (R171). -/
def Dev.condFrom (d : Dev) (c : Nat) : Source := condSource (d.nI Ix.trgCondSrc c)
def Dev.condRate (d : Dev) (c : Nat) : Nat := d.rateOf (d.condFrom c)

/-- A duration of k/256 sample periods in units of 2^-48 s, rounded convergently. -/
def Dev.condSpan (d : Dev) (c k : Nat) : Nat :=
  let f := d.condRate c
  if f = 0 then 0 else (roundEven ((k * two48 * 1000 : Nat) : Int) (256 * f)).toNat

/-- The event time of a crossing k/256 after sample i, the skew of a link subtracted (R171). -/
def Dev.condTime (d : Dev) (c i k : Nat) : Nat :=
  let src := d.nI Ix.trgCondSrc c
  let skew : Int := if src < 0x20 then d.rd Ix.trgSkewLink (src - 0x10 + 1) 0 else 0
  (((d.timeOf (d.condFrom c) i + d.condSpan c k : Nat) : Int) - skew).toNat

/-- Whether a polarity is watched: upward (positive), downward (negative). -/
def watches (pol : Nat) (up : Bool) : Bool := pol == 2 || (pol == 0) == up

/-- The state of a condition's levels after a sample, with the crossings of a and b it made: bits 0 up a, 1 down a, 2 up b, 3 down b. -/
def levelStep (x : CondSt) (a b hyst s : Int) : CondSt × Nat :=
  let cu := x.upA && decide (a ≤ s)
  let cd := x.dnA && decide (s ≤ a)
  let bu := x.upB && decide (b ≤ s)
  let bd := x.dnB && decide (s ≤ b)
  let y := { x with
    upA := (x.upA && !cu) || decide (s < a - hyst), dnA := (x.dnA && !cd) || decide (a + hyst < s)
    upB := (x.upB && !bu) || decide (s < b - hyst), dnB := (x.dnB && !bd) || decide (b + hyst < s) }
  (y, (if cu then 1 else 0) + (if cd then 2 else 0) + (if bu then 4 else 0) + (if bd then 8 else 0))

/-- Two samples in succession at a time-domain condition, numbers i and i + 1: crossings are placed, and the condition's rule decides (R171,
R172). -/
def Dev.levelCond (d : Dev) (c i : Nat) (s0 s1 : Int) : Dev :=
  let a := d.rd Ix.trgCondLevelA (c + 1) 0
  let b := d.rd Ix.trgCondLevelB (c + 1) 0
  let ty := d.nI Ix.trgCondType c
  let pol := d.nI Ix.trgCondPolarity c
  let h : Int := d.nI Ix.trgCondHyst c
  let (x, w) := levelStep (d.cond c) a b h s1
  let ka := crossAt a s0 s1
  let kb := crossAt b s0 s1
  let up := bitOf w 0
  let dn := bitOf w 1
  let at_ (k : Nat) : Nat := 256 * i + k
  let fire (d : Dev) (k value : Nat) : Dev := d.emitCond c (d.condTime c i k) value
  -- durations between the leading crossing and this one
  let pulseUp := match x.ledUp with | some p => at_ ka - p | none => 0
  let pulseDn := match x.ledDn with | some p => at_ ka - p | none => 0
  let wasUp := x.ledUp.isSome
  let wasDn := x.ledDn.isSome
  let bu := bitOf w 2
  let bd := bitOf w 3
  let ta := d.nI Ix.trgCondTimeA c
  let d :=
    if ty = 1 then (if (up && watches pol true) || (dn && watches pol false) then fire d ka (toTwos 48 s1) else d)
    else if ty = 2 then
      if pol = 0 then (if dn && wasUp && d.condTest c pulseUp then fire d ka pulseUp else d)
      else (if up && wasDn && d.condTest c pulseDn then fire d ka pulseDn else d)
    else if ty = 3 then
      if pol = 0 then (if dn && wasUp && !x.bUp then fire d ka pulseUp else d)
      else (if up && wasDn && !x.bDn then fire d ka pulseDn else d)
    else if ty = 5 then
      let upSpan := match x.ledUp with | some p => some (at_ kb - p) | none => if up then some (kb - ka) else none
      let dnSpan := match x.ledDn with | some p => some (at_ ka - p) | none => if bd then some (ka - kb) else none
      let d := match upSpan with
        | some v => if bu && watches pol true && d.condTest c v then fire d kb v else d
        | none => d
      match dnSpan with
      | some v => if dn && watches pol false && d.condTest c v then fire d ka v else d
      | none => d
    else d
  let y := { x with clock := (d.cond c).clock }
  let y := if ty = 5 then
      -- a rising slew is led by level a, a falling one by level b
      { y with ledUp := if bu || dn then none else if up then some (at_ ka) else y.ledUp
               ledDn := if dn || bu then none else if bd then some (at_ kb) else y.ledDn }
    else
      { y with
        ledUp := if dn then none else if up then some (at_ ka) else y.ledUp
        ledDn := if up then none else if dn then some (at_ ka) else y.ledDn
        bUp := if up then bu else y.bUp || bu
        bDn := if dn then bd else y.bDn || bd }
  let y := if ty = 4 then
      -- a return crossing within time a ends the timeout
      let back := (x.limitUp && dn) || (!x.limitUp && up)
      let y := if back && x.limit.any (fun l => at_ ka ≤ l.1) then { y with limit := none } else y
      if (up && watches pol true) || (dn && watches pol false) then
        { y with limit := some (at_ ka + ta, d.condTime c i ka + d.condSpan c ta), limitUp := up } else y
    else y
  d.setCond c y

/-- A sample that is present after one that is not: the levels take it, and a timeout that was pending starts anew while the quantity is
still beyond level a (R173). -/
def Dev.levelFirst (d : Dev) (c i : Nat) (s : Int) : Dev :=
  let a := d.rd Ix.trgCondLevelA (c + 1) 0
  let x := d.cond c
  let y := (levelStep x a (d.rd Ix.trgCondLevelB (c + 1) 0) (d.nI Ix.trgCondHyst c) s).1
  let ta := d.nI Ix.trgCondTimeA c
  let beyond := x.again.any (fun up => if up then decide (a ≤ s) else decide (s ≤ a))
  d.setCond c { y with
    again := none
    limit := if beyond then some (256 * i + ta, d.condTime c i 0 + d.condSpan c ta) else y.limit
    limitUp := x.again.getD y.limitUp }

/-- An absent sample clears a condition's state (R173). -/
def condClear (x : CondSt) : CondSt :=
  { clock := x.clock, before := x.before, again := if x.limit.isSome then some x.limitUp else x.again }

/-- A timeout whose time a has passed in the samples examined fires before anything else (R172). -/
def Dev.timeoutDue (d : Dev) (c : Nat) : Dev :=
  let x := d.cond c
  match x.limit with
  | some l =>
    if d.nI Ix.trgCondType c = 4 && x.seen.any (fun n => l.1 ≤ 256 * n) then
      -- the quantity at the event is that of the sample that shows the time passed
      let v := match x.seen.bind (d.sampleOf (d.condFrom c)) with | some s => toTwos 48 (d.condQty c s) | none => 0
      (d.setCond c { x with limit := none }).emitCond c l.2 v
    else d
  | none => d

/-- An over-range condition: the first sample with OVR after at least 16 without it (Table 7.1). -/
def Dev.overCond (d : Dev) (c i : Nat) (s : Sample) : Dev :=
  let x := d.cond c
  if s.ovr != 0 then
    let d := if 16 ≤ x.clean then d.emitCond c (d.condTime c i 0) (toTwos 48 (d.condQty c s)) else d
    d.setCond c { d.cond c with clean := 0 }
  else d.setCond c { x with clean := min 16 (x.clean + 1) }

/-- An edge on a pin at a condition of type 0x20 or 0x21 (R175); pulse widths are in ps. -/
def Dev.pinCond (d : Dev) (c stamp : Nat) (rising : Bool) : Dev :=
  let pol := d.nI Ix.trgCondPolarity c
  let time := ((stamp : Int) - d.rd Ix.trgSkewTin (d.nI Ix.trgCondSrc c + 1) 0).toNat
  if d.nI Ix.trgCondType c = 0x20 then (if watches pol rising then d.emitCond c time 0 else d)
  else
    let x := d.cond c
    if rising = (pol == 0) then d.setCond c { x with edge := some stamp }
    else match x.edge with
      | some e =>
        let w := toPs (stamp - e)
        let d := d.setCond c { x with edge := none }
        if d.condTest c w then d.emitCond c time w else d
      | none => d

/-- A sample as a condition sees it: absent where it is missing, UNSETTLED or TRUNCATED (R173). -/
def Dev.condSample (d : Dev) (c i : Nat) : Option Sample := (d.sampleOf (d.condFrom c) i).filter (fun s => !s.unsettled && !s.truncated)

/-- A time-domain condition examines sample i of its source, each in its turn (R170 to R173). -/
def Dev.condExamine (d : Dev) (c i : Nat) : Dev :=
  let d := d.timeoutDue c
  let x := d.cond c
  let d := match d.condSample c i with
    | none => d.setCond c (condClear x)
    | some s =>
      let d := if x.seen.any (· + 1 < i) then d.setCond c (condClear x) else d
      match (if x.seen.any (· + 1 == i) then d.condSample c (i - 1) else none) with
      | none => if d.nI Ix.trgCondType c = 6 then d.overCond c i s else d.levelFirst c i (d.condQty c s)
      | some p => if d.nI Ix.trgCondType c = 6 then d.overCond c i s else d.levelCond c (i - 1) (d.condQty c p) (d.condQty c s)
  d.setCond c { d.cond c with seen := some i }

/-- The entries of a condition as a set of writes. -/
def Dev.condSetting (d : Dev) (c : Nat) : List SWrite := (List.range 12).map (fun i => ⟨0x3800 + i, c + 1, 0, d.rd (0x3800 + i) (c + 1) 0⟩)

/-- Whether sample i is a condition's next: in its turn, or after samples that did not come. -/
def Dev.condTurn (d : Dev) (c i : Nat) : Bool :=
  let s := d.condFrom c
  d.sampleKnown s i && (d.cond c).seen.all (fun n => decide (n < i) &&
    (n + 1 == i || (d.sampleKnown s (n + 1) && (d.sampleOf s (n + 1)).isNone)))

/-- What a condition does with its next sample or edge. -/
def Dev.condNext (d : Dev) (c index : Nat) (rising : Bool) : Dev :=
  let ty := d.nI Ix.trgCondType c
  if 1 ≤ ty && ty ≤ 6 then (if d.condTurn c index then d.condExamine c index else d)
  else if ty = 0x20 || ty = 0x21 then
    let site := (d.im.sites.find? (0x10 + d.nI Ix.trgCondSrc c)).getD {}
    if site.recent.contains (index, if rising then 0 else 1) && (d.cond c).seen.all (· < index) then
      (d.setCond c { d.cond c with seen := some index }).pinCond c index rising
    else d
  else d

/-- The instant of a condition's next sample or edge. -/
def Dev.condInstant (d : Dev) (c index : Nat) : Nat :=
  let ty := d.nI Ix.trgCondType c
  if 1 ≤ ty && ty ≤ 6 then d.timeOf (d.condFrom c) index else index

/-- COND_EVENT: a time-domain condition examines the sample of a number, as it has crossed, or a pin condition an edge that the Interval Meter
has stamped (`index` its stamp, R346): before a cut's boundary under the old setting (R170 to R175, R204). `ecc` counts the memory errors corrected since the last (R206). Mask,
density, remote and software conditions get their events from frames, planes, broadcasts and `trg.cond_soft`. -/
def execCondEvent (t cond index ecc : Nat) (rising : Bool) (s : State) : Res := runIf (cond < 64) t s fun d =>
  let d := if ecc = 0 then d else d.inc0 Ix.trgEccCorrected ecc
  match (d.cond cond).before with
  | none => d.condNext cond index rising
  | some (b, old) =>
    if (d.overlay old).condInstant cond index < b then ((d.overlay old).condNext cond index rising).overlay (d.condSetting cond)
    else (d.setCond cond {}).condNext cond index rising

/-- COND_TIMEOUT_EXPIRY: no return crossing followed within time a, as the samples examined show (R172). -/
def execCondTimeoutExpiry (t cond : Nat) (s : State) : Res := runIf (cond < 64) t s fun d => d.timeoutDue cond

/-- TRG_COND_SOFT: one event of a software condition, at the start of the first block after the write (R177). -/
def execTrgCondSoft (t path cond : Nat) (s : State) : Res := run t s fun d =>
  d.command path Ix.trgCondSoft 0 cond fun d =>
    if 64 ≤ cond || d.nI Ix.trgCondType cond != 0x31 then d.refuse path Ix.trgCondSoft 0 Code.condType
    else d.emitCond cond (d.trgBoundary (d.time96 + 1)) 0

/-! ### Masks (R179 to R183) -/

/-- Breakpoint i of a mask: bin, upper and lower limit. -/
def Dev.breakpoint (d : Dev) (m i : Nat) : Nat × Int × Int :=
  let v := d.nW Ix.trgBpValue (m * 65536 + i)
  (bitsOf 51 32 v, ofTwos 16 (bitsOf 31 16 v), ofTwos 16 (bitsOf 15 0 v))

def Dev.maskTable (d : Dev) (m : Nat) : List (Nat × Int × Int) := (List.range (d.nI Ix.trgMaskBpCount m)).map (d.breakpoint m)

/-- A limit interpolated between two breakpoints (R180). -/
def limitAt (k0 k1 k : Nat) (v0 v1 : Int) : Int := v0 + roundEven ((v1 - v0) * ((k - k0 : Nat) : Int)) (max (k1 - k0) 1)

/-- How far a bin violates a segment: 0 for none (R180). -/
def segmentExcess (p q : Nat × Int × Int) (k : Nat) (v : Int) : Nat :=
  let up := if p.2.1 = 32767 && q.2.1 = 32767 then 0 else (v - limitAt p.1 q.1 k p.2.1 q.2.1).toNat
  let lo := if p.2.2 = -32768 && q.2.2 = -32768 then 0 else (limitAt p.1 q.1 k p.2.2 q.2.2 - v).toNat
  max up lo

/-- The excess of a bin over a mask table; bins outside the table are not tested. -/
def binExcess : List (Nat × Int × Int) → Nat → Int → Nat
  | p :: q :: r, k, v =>
    if p.1 ≤ k && k ≤ q.1 then max (segmentExcess p q k v) (if k = q.1 then binExcess (q :: r) k v else 0)
    else binExcess (q :: r) k v
  | _, _, _ => 0

/-- A failing frame at a mask: counts, record, stop, and the event of every condition that names the mask (R181 to R183). -/
def Dev.maskFails (d : Dev) (m centre : Nat) (bad : List (Nat × Nat)) : Dev :=
  let x := d.mask m
  let d := d.incI Ix.trgMaskFail m
  let worst := bad.foldl (fun w p => if w.2 < p.2 then p else w) (0, 0)
  let d := if d.rd Ix.trgMaskWorst (m + 1) 0 < worst.2 then d.wr Ix.trgMaskWorst (m + 1) 0 (min worst.2 32767 : Nat) else d
  let log := d.nI Ix.trgMaskLog m
  let old : Bool := match x.logged with | some w => decide (w + us 1 ≤ centre) | none => true
  let rec_ := (log == 1 && !x.lastFailed) || (log == 2 && old)
  let d := if rec_ then
      d.trgEvent 0x04 m centre (bad.length * 2 ^ 24 + (bad.headD (0, 0)).1) (worst.1 * 2 ^ 24 + min worst.2 65535)
    else if log = 2 then d.inc0 Ix.trgEventsLost else d
  let d := d.setMask m { x with lastFailed := true, logged := if rec_ then some centre else x.logged }
  let conds := d.condsOf 0x10 m centre
  let d := conds.foldl (fun (a : Dev) c => a.emitCond c centre bad.length) d
  let stop := d.nI Ix.trgMaskStop m
  if stop = 0 then d
  else
    let d := ((d.wI Ix.trgMaskState m 2).trgEvent 0x05 m centre (d.nI Ix.trgMaskFail m) (d.nI Ix.trgMaskPass m)).raise 4 Code.maskStopped
    if stop = 1 then d
    else
      -- the magazines of the chains that judge this failure disarm after it
      (List.range 16).foldl (fun (a : Dev) k =>
        a.setChain k { a.chain k with queue := (a.chain k).queue.map (fun e =>
          if conds.contains e.cond && e.time == centre then { e with disarms := true } else e) }) d

/-- A mask whose suspension is over tests again. -/
def Dev.maskResume (d : Dev) (m : Nat) : Dev :=
  if d.nI Ix.trgMaskState m = 3 && (d.mask m).suspended ≤ d.now && !d.instSuspended (m / 16) then d.wI Ix.trgMaskState m (d.mask m).was else d

/-- One mask meets a frame of its layer given by its LOG16 bins; `flags` bits 5 UNSETTLED, 3 GAPFILL, 2 TRUNCATED (R181). -/
def Dev.maskMeets (d : Dev) (m : Nat) (bins : List Int) (flags centre : Nat) : Dev :=
  let d := d.maskResume m
  if d.nI Ix.trgMaskState m = 2 || d.nI Ix.trgMaskState m = 0 || centre < (d.mask m).from_ then d
  else if d.nI Ix.trgMaskState m = 3 || d.instSuspended (m / 16) || bitOf flags 5 || bitOf flags 3 || bitOf flags 2 then d.incI Ix.trgMaskSkipped m
  else
    let tab := d.maskTable m
    let bad := (bins.zipIdx.map (fun p => (p.2, binExcess tab p.2 p.1))).filter (fun p => p.2 != 0)
    if d.nI Ix.trgMaskMinBins m ≤ bad.length then d.maskFails m centre bad
    else (d.incI Ix.trgMaskPass m).setMask m { d.mask m with lastFailed := false }

/-- The entries and the table of a mask as a set of writes. -/
def Dev.maskSetting (d : Dev) (m : Nat) : List SWrite :=
  (List.range 5).map (fun i => ⟨0x3820 + i, m + 1, 0, d.rd (0x3820 + i) (m + 1) 0⟩) ++
    (List.range (d.nI Ix.trgMaskBpCount m)).map (fun i => ⟨Ix.trgBpValue, 0, m * 65536 + i, d.rd Ix.trgBpValue 0 (m * 65536 + i)⟩)

/-- A frame at a mask: one centred before a cut's boundary meets the old setting (R181, R204). -/
def Dev.maskFrame (d : Dev) (m : Nat) (bins : List Int) (flags centre : Nat) : Dev :=
  match (d.mask m).before with
  | none => d.maskMeets m bins flags centre
  | some (b, old) =>
    if centre < b then ((d.overlay old).maskMeets m bins flags centre).overlay (d.maskSetting m)
    else (d.setMask m { d.mask m with before := none }).maskMeets m bins flags centre

/-- MASK_RESTART: at the next block boundary (R182). -/
def execMaskRestart (t path mask : Nat) (s : State) : Res := runEntry (mask < 64) path Ix.trgMaskCmd (mask + 1) 1 t s fun d =>
  d.command path Ix.trgMaskCmd (mask + 1) 1 fun d =>
    if d.nI Ix.trgMaskState mask = 2 then
      (d.setMask mask { d.mask mask with from_ := d.trgBoundary (d.time96 + 1) }).wI Ix.trgMaskState mask 1
    else d

/-- MASK_CLEAR_COUNTS (R182). -/
def execMaskClearCounts (t path mask : Nat) (s : State) : Res := runEntry (mask < 64) path Ix.trgMaskCmd (mask + 1) 2 t s fun d =>
  d.command path Ix.trgMaskCmd (mask + 1) 2 fun d =>
    let d := ((d.wI Ix.trgMaskPass mask 0).wI Ix.trgMaskFail mask 0).wI Ix.trgMaskSkipped mask 0
    (d.wI Ix.trgMaskLost mask 0).wr Ix.trgMaskWorst (mask + 1) 0 0

/-- One staged breakpoint; the index advances (R180). -/
def Dev.bpWrite (d : Dev) (path v : Nat) : Dev :=
  let m := d.nW Ix.trgBpMask path
  let i := d.nW Ix.trgBpIndex path
  if 64 ≤ m || 1024 ≤ i then d.refuse path Ix.trgBpValue 0 Code.maskTable
  else (d.stage ⟨Ix.trgBpValue, 0, m * 65536 + i, v⟩).wW Ix.trgBpIndex path (i + 1)

/-- TRG_BP_VALUE (R180). -/
def execTrgBpValue (t path v : Nat) (s : State) : Res := run t s fun d => d.command path Ix.trgBpValue 0 v fun d => d.bpWrite path v

/-- MASK_TABLE_RELOAD: the mask is suspended for its reload, at most 20 µs (R206). -/
def execMaskTableReload (t mask : Nat) (s : State) : Res := runIf (mask < 64) t s fun d =>
  if d.nI Ix.trgMaskState mask = 0 then d else
    let x := d.mask mask
    let (w, d) := d.within 20000
    let d := d.setMask mask { x with suspended := max 1 (d.now + ns w), was := if d.nI Ix.trgMaskState mask = 3 then x.was else d.nI Ix.trgMaskState mask }
    (d.wI Ix.trgMaskState mask 3).fault 2 Code.maskTableReload 4 mask 0 w

end Sys2Proof.Machine
end

