-- ==== Sys2Proof/Machine/Takes.lean ====
section
/-! DEFINITION. Trigger Unit: magazines and takes (07_triggers_and_takes.md, R191 to R202). -/

namespace Sys2Proof.Machine

def Dev.mag (d : Dev) (k : Nat) : MagSt := d.trg.mags.get {} k
def Dev.setMag (d : Dev) (k : Nat) (x : MagSt) : Dev := { d with trg := { d.trg with mags := d.trg.mags.set {} k x } }
def Dev.magState (d : Dev) (k : Nat) : Nat := d.nW Ix.trgMagState k
def Dev.setMagState (d : Dev) (k v : Nat) : Dev := d.wW Ix.trgMagState k v

/-! ### Geometry (R191 to R193, R197) -/

/-- The channels of a magazine: codes up to the first 0x00. -/
def Dev.magChans (d : Dev) (k : Nat) : List Nat := ((List.range 4).map (fun c => (d.rd Ix.trgMagChan (c + 1) k).toNat)).takeWhile (fun c => c != 0)

/-- The source whose grid a magazine's positions lie on: that of channel 0. -/
def Dev.magSource (d : Dev) (k : Nat) : Source := sourceOf ((d.magChans k).headD 0)

/-- Sample rate f_s in mHz, sample width B, P, Q. -/
def Dev.magRate (d : Dev) (k : Nat) : Nat := d.rateOf (d.magSource k)
def Dev.magWidth (d : Dev) (k : Nat) : Nat := formatBytes (d.nW Ix.trgMagFormat k)
def Dev.magP (d : Dev) (k : Nat) : Nat := d.nW Ix.trgMagPre k
def Dev.magQ (d : Dev) (k : Nat) : Nat := d.nW Ix.trgMagPost k

/-- L: the horizon of the magazine's chain in samples (R192). -/
def Dev.chainSamples (d : Dev) (k : Nat) : Nat :=
  let c := d.nW Ix.trgMagChain k
  if c < 16 then ceilDiv (d.chainPs c * d.magRate k) 1000000000000000 else 0

/-- L of a magazine: as it was at the arm while it is armed or holds takes. -/
def Dev.magL (d : Dev) (k : Nat) : Nat :=
  let x := d.trg.mags.get {} k
  if x.armed || !x.takes.isEmpty then x.ahead else d.chainSamples k

/-- Whether the history lies in the slot: by choice, and always in rushes service; a magazine that was armed keeps what it was armed with
(R193, R205). -/
def Dev.magInSlot (d : Dev) (k : Nat) : Bool :=
  let x := d.trg.mags.get {} k
  if x.armed || !x.takes.isEmpty then x.inSlot else d.nW Ix.trgMagHistory k == 1 || d.inRushes

/-- D: data length per channel in samples. -/
def Dev.magD (d : Dev) (k : Nat) : Nat := d.magP k + (if d.magInSlot k then max (d.magQ k) (d.magL k) else d.magQ k)

/-- S: slot size in bytes. -/
def Dev.magS (d : Dev) (k : Nat) : Nat := ceilDiv ((d.magChans k).length * d.magD k * d.magWidth k) 4096 * 4096

/-- K: capacity in takes. -/
def Dev.magK (d : Dev) (k : Nat) : Nat := min (2 ^ 20) (4096 * d.nW Ix.trgMagSize k / max (d.magS k) 1)

/-- Bytes of an on-die history (R193). -/
def Dev.magHistory (d : Dev) (k : Nat) : Nat :=
  if d.magInSlot k then 0 else ceilDiv ((d.magChans k).length * (d.magP k + d.magL k) * d.magWidth k) 4096 * 4096

/-- M: samples per channel that a spilled take keeps in the magazine (R197). -/
def Dev.magM (d : Dev) (k : Nat) : Nat := 4096 * d.nW Ix.trgMagSize k / max ((d.magChans k).length * d.magWidth k) 1

/-- The instant of a position of a magazine's channels, and the first position at or after an instant (R194). -/
def Dev.magTime (d : Dev) (k n : Nat) : Nat := d.timeOf (d.magSource k) n
def Dev.magAfter (d : Dev) (k time : Nat) : Nat := d.sampleAfter (d.magSource k) time

/-- Whether the slots are history rings; a magazine smaller than one take has none. -/
def Dev.magRing (d : Dev) (k : Nat) : Bool := d.magInSlot k && d.magK k != 0

/-- Offsets in a magazine's memory of each channel's sample at a place of a slot (R197, R200). -/
def Dev.slotOffs (d : Dev) (k slot j : Nat) : List Nat :=
  let stride := if d.magK k = 0 then d.magM k else d.magD k
  (List.range (d.magChans k).length).map fun c => slot % max (d.magK k) 1 * d.magS k + (c * stride + j) * d.magWidth k

/-- Whether a magazine holds memory. -/
def Dev.magHolds (d : Dev) (k : Nat) : Bool := (d.allocOf 2 k).isSome || (d.mag k).history != 0 || !(d.mag k).takes.isEmpty

/-- A take's entries in its window, of instance 2^20 × magazine + index (Table 7.10). -/
def Dev.takeReport (d : Dev) (k : Nat) (tk : Take) (state bytes : Nat) : Dev :=
  let i := k * 2 ^ 20 + tk.index
  let d := ((d.wW Ix.trgTakeState i state).wW Ix.trgTakeTrigSec i (sec48 tk.time)).wW Ix.trgTakeTrigFrac i (frac48 tk.time)
  let d := (d.wW Ix.trgTakeValidPre i tk.valid).wW Ix.trgTakeDataBytes i bytes
  if tk.spilled then d
  else
    let d := match d.allocOf 2 k with | some a => d.wW Ix.trgTakeDataAddr i (d.allocAddr a (tk.index % max (d.magK k) 1 * d.magS k)) | none => d
    match d.allocOf 3 k with | some a => d.wW Ix.trgTakeLogAddr i (d.allocAddr a (tk.index % max (d.magK k) 1 * 16384)) | none => d

/-- A missed fire is counted and recorded (R195). -/
def Dev.missFire (d : Dev) (k e cause : Nat) : Dev :=
  let d := d.incW Ix.trgMagMissed k
  d.trgEvent 0x02 k e cause (d.nW Ix.trgMagMissed k)

/-- Grid number after a take's last sample, and the time of that last sample. -/
def Take.stop (tk : Take) : Nat := match tk.cutAt with | some n => n | none => tk.trig + tk.post
def Dev.takeLast (d : Dev) (k : Nat) (tk : Take) : Nat := d.magTime k (tk.stop - 1)

/-- A fill-and-stop magazine whose slots all hold takes is full (R196). -/
def Dev.magFull (d : Dev) (k e : Nat) : Dev :=
  let n := (d.mag k).takes.length
  if d.nW Ix.trgMagMode k = 0 && d.nW Ix.trgMagSpill k = 0 && d.magState k = 2 && d.magK k ≤ n then
    ((d.setMagState k 4).trgEvent 0x08 k e n 0).raise 4 Code.magFull
  else d

/-- The slot that an armed magazine's next take goes into is in its pre-trigger phase; it is empty again when the magazine stops
(Table 7.10). -/
def Dev.nextSlot (d : Dev) (k : Nat) : Dev :=
  let i := k * 2 ^ 20 + (d.mag k).next
  if d.magState k = 2 && d.nW Ix.trgTakeState i = 0 then d.wW Ix.trgTakeState i 1
  else if d.magState k != 2 && d.magState k != 3 && d.nW Ix.trgTakeState i = 1 then d.wW Ix.trgTakeState i 0
  else d

/-- The open take leaves its post-trigger phase; the next slot starts with the sample after it (R194, R195). -/
def Dev.closeOpen (d : Dev) (k : Nat) : Dev :=
  let x := d.mag k
  match x.open_ with
  | some tk =>
    let d := d.setMag k { x with open_ := none, takes := x.takes ++ [tk], lastEnd := some (d.takeLast k tk), slotStart := tk.stop, at_ := min x.at_ tk.stop }
    let d := if d.magState k = 3 then d.setMagState k 2 else d
    (d.magFull k tk.time).nextSlot k
  | none => d

/-- An open take whose last sample has come leaves its post-trigger phase. -/
def Dev.closeDue (d : Dev) (k : Nat) : Dev :=
  match (d.mag k).open_ with
  | some tk => if d.takeLast k tk ≤ d.time96 then d.closeOpen k else d
  | none => d

/-- A run of losses of one producer's stream grows, or begins (R158, R294, R298). -/
def addLoss (l : Loss) : List Loss → List Loss
  | [] => [l]
  | x :: r => if x.tag = l.tag && x.stream = l.stream then { x with count := x.count + l.count } :: r else x :: addLoss l r

/-- A take overwritten before its delivery is complete leaves its ring as one item of unit 6, cause 5 (R299). -/
def Dev.retractTake (d : Dev) (k seq : Nat) : Dev :=
  let mine (x : Rec) : Bool := x.slots.contains (0x0F0D, seq) && (match x.slots with | p :: _ => p.1 == 0x0F00 && p.2 / 2 ^ 40 == k | [] => false)
  let r := d.nW Ix.trgMagRing k
  let y := d.str.rings.get {} r
  match (y.backlog ++ (d.out.arrived.filter (fun p => p.1 == r)).map (·.2)).find? mine with
  | none => d
  | some x =>
    let tm := (x.slots.getD 1 (0, 0)).2 * two48 + (x.slots.getD 2 (0, 0)).2
    let y := { y with backlog := y.backlog.filter (fun z => !mine z), losses := addLoss ⟨0x0F00, 6, tm, 1, 5, 2 * 2 ^ 24 + k⟩ y.losses }
    let d := { d with
      str := { d.str with rings := d.str.rings.put r y }
      out := { d.out with arrived := d.out.arrived.filter (fun p => !(p.1 == r && mine p.2)) } }
    d.incW Ix.strRingDropped r

/-- A new take opens at a fire (R194, R196, R197). -/
def Dev.openTake (d : Dev) (k chain e cond : Nat) (forced : Bool) : Dev :=
  let x := d.mag k
  let trig := d.magAfter k e
  let full := d.magK k ≤ x.takes.length
  let circular := d.nW Ix.trgMagMode k = 1
  let spilled := full && !circular && d.nW Ix.trgMagSpill k = 1 && 0 < d.magK k
  let held := if full && circular then x.takes.drop 1 else x.takes
  let tk : Take :=
    { index := x.next, seq := d.nW Ix.trgMagSeq k, chain := chain, cond := cond, forced := forced, time := e, trig := trig
      start := x.slotStart, pre := d.magP k, valid := min (d.magP k) (trig - x.slotStart), post := d.magQ k, spilled := spilled }
  let d := match (if full && circular then x.takes.head? else none) with
    | some old => d.retractTake k old.seq
    | none => d
  let d := d.setMag k { x with
    open_ := some tk, takes := held, next := if circular then (x.next + 1) % max (d.magK k) 1 else (x.next + 1) % 2 ^ 20 }
  ((d.incW Ix.trgMagSeq k).setMagState k 3).takeReport k tk 2 0

/-- A fire at a magazine: a take, a missed trigger, or nothing (R194 to R196). -/
def Dev.fireMag (d : Dev) (k chain e cond : Nat) (forced : Bool) : Dev :=
  let x := d.mag k
  if !x.armed || e < x.armAt then d
  else
    let d := match x.open_ with
      | some tk => if d.takeLast k tk < e then d.closeOpen k else d
      | none => d
    let x := d.mag k
    if x.open_.isSome then d.missFire k e 1
    else if d.magState k = 4 then d.missFire k e 3
    else
      let soon : Bool := match x.lastEnd with | some l => decide (e < l + ns 64) | none => false
      if soon then d.missFire k e 2 else d.openTake k chain e cond forced

/-! ### The positions of a take on their way to its slot (R193, R197, R200) -/

/-- The takes of a magazine whose positions may still be wanting, oldest first. -/
def MagSt.unwritten (x : MagSt) : List Take := x.takes.filter (fun t => !t.complete && t.logged.isNone) ++ x.open_.toList

/-- The position that a magazine writes next, and its take: the oldest take that wants one; else, with the history in the slot, the one that
waits. -/
def Dev.magNext (d : Dev) (k : Nat) : Option (Nat × Option Take) :=
  let x := d.mag k
  let from_ (t : Take) : Nat := max x.at_ (if d.magRing k then t.start else t.trig - t.valid)
  match x.unwritten.find? (fun t => from_ t < t.stop) with
  | some t => some (from_ t, some t)
  | none => if x.armed && d.magRing k && d.magState k != 4 then some (max x.at_ x.slotStart, none) else none

/-- Where a position goes in the magazine's memory: offset of each channel's sample; nowhere where the reel takes it (R197, R200). -/
def Dev.posOffs (d : Dev) (k n : Nat) (t : Option Take) : List Nat :=
  let x := d.mag k
  match t with
  | none => if d.magK k ≤ x.takes.length && d.nW Ix.trgMagMode k = 0 then [] else d.slotOffs k x.next ((n - x.slotStart) % max (d.magD k) 1)
  | some tk =>
    if tk.spilled then []
    else if d.magRing k then d.slotOffs k tk.index ((n - tk.start) % max (d.magD k) 1)
    else if d.magK k = 0 && d.magM k ≤ n + tk.pre - tk.trig then [] else d.slotOffs k tk.index (n + tk.pre - tk.trig)

/-- The positions written that are still of use: those of takes that are not complete, and a history's length before the newest. -/
def Dev.histKept (d : Dev) (k : Nat) : List (Nat × List TakeSample) :=
  let x := d.mag k
  let newest := (x.hist.headD (0, [])).1
  let wanted (n : Nat) : Bool := (x.open_.toList ++ x.takes.filter (fun t => !t.complete)).any (fun t => t.trig ≤ n + t.pre && n < t.stop)
  x.hist.filter (fun p => wanted p.1 || newest < p.1 + d.magD k)

/-- The number of positions a take has so far, leading ones included. -/
def Dev.takeLen (d : Dev) (k : Nat) (tk : Take) : Nat := min tk.stop (max (d.mag k).at_ (tk.trig - tk.valid)) + tk.pre - tk.trig

/-- Why a position of a take cannot be read from its magazine: 3 a granule of a retired channel, 4 a lost burst, 0 it can (R274, R280). -/
def Dev.posLoss (d : Dev) (k c n : Nat) (tk : Take) : Nat :=
  match d.allocOf 2 k, (d.posOffs k n (some tk))[c]? with
  | some a, some o => d.bytesLoss a o (d.magWidth k)
  | _, _ => 0

/-- The bytes of a take's position as its magazine holds them. -/
def Dev.storedSample (d : Dev) (k c n : Nat) (tk : Take) (m : Mem) : List Byte :=
  match d.allocOf 2 k, (d.posOffs k n (some tk))[c]? with
  | some a, some o => d.readAlloc a m o (d.magWidth k)
  | _, _ => []

/-- One channel of a take as stored: zeros before the first valid position; a lost one is zeros and its cause (R194, R201, R206). -/
def Dev.takeChannel (d : Dev) (k c : Nat) (tk : Take) : List TakeSample :=
  let x := d.mag k
  (List.range (d.takeLen k tk)).map fun j =>
    let n := tk.trig + j - tk.pre
    let s := ((x.hist.find? (fun p => p.1 == n)).map (·.2.getD c (0, 0, 0))).getD (0, 0, 16)
    if j < tk.pre - tk.valid then (0, 0, 0)
    else if gapCause s.2.2 != 0 then s
    else if x.bad.any (fun b => b.1 ≤ n && n < b.1 + b.2) then (0, 0, 10 * 16)
    else (if d.posLoss k c n tk = 0 then s else (0, 0, d.posLoss k c n tk * 16))

/-! ### The log entry of a take (R199 to R202) -/

/-- Settle records of a channel (Table 5.5), with the positions they begin at. -/
def Dev.takeSettles (d : Dev) (k : Nat) (tk : Take) (s : Source) (l : List TakeSample) : List (Nat × Rec) :=
  (runsFrom 0 (l.map (fun s => bitOf s.2.2 3))).map (fun r =>
    (r.1, settleRec s ((l.getD r.1 (0, 0, 0)).2.2 / 256 % 16) r.2 (d.magTime k (tk.trig + r.1 - tk.pre))))

/-- Gap markers of a channel (Table 11.4), with the positions they begin at; touching gaps merge (R298). The take log carries them; one of
cause 2 names the stream whose blocks were discarded (R297; log entry 46). -/
def Dev.takeGaps (d : Dev) (k : Nat) (tk : Take) (c : Nat) (l : List TakeSample) : List (Nat × Rec) :=
  (runsFrom 0 (l.map (fun s => gapCause s.2.2 != 0))).map (fun r =>
    let cause := gapCause (l.getD r.1 (0, 0, 0)).2.2
    (r.1, gapMarker cause 1 c ((if cause = 2 then 2 else 3) * 2 ^ 24 + k) (d.magTime k (tk.trig + r.1 - tk.pre)) r.2 r.1))

/-- Flag-run records of a channel (Table 7.6). -/
def Dev.takeFlags (d : Dev) (k : Nat) (tk : Take) (c flag : Nat) (l : List TakeSample) : List Rec :=
  (mergeRuns 256 (runsFrom 0 (l.map (fun s => bitOf s.2.2 (flag - 1))))).map (fun r =>
    flagRec c flag r.2 (d.magTime k (tk.trig + r.1 - tk.pre)) r.1)

/-- A record takes its place by the position it begins at, after those of the same position. -/
def insertAt (p : Nat × Rec) : List (Nat × Rec) → List (Nat × Rec)
  | [] => [p]
  | q :: l => if p.1 < q.1 then p :: q :: l else q :: insertAt p l

/-- The gap markers and settle records of a take, by position. -/
def Dev.takeMust (d : Dev) (k : Nat) (tk : Take) : List (Nat × Rec) :=
  (((d.magChans k).zipIdx.map (fun p =>
    let l := d.takeChannel k p.2 tk
    d.takeSettles k tk (sourceOf p.1) l ++ d.takeGaps k tk p.2 l)).flatten).foldl (fun l p => insertAt p l) []

/-- Records that fit into some bytes, in order, and the position of the first that does not. -/
def fitRecs : Nat → List (Nat × Rec) → List Rec × Option Nat
  | _, [] => ([], none)
  | room, (p, r) :: t =>
    let n := (recBytes r).length
    if room < n then ([], some p)
    else
      let a := fitRecs (room - n) t
      (r :: a.1, a.2)

/-- Bytes of a log entry between its slate and its take-close record. -/
def trailerRoom : Nat := 16384 - 136 - 40

/-- Where gap markers and settle records alone fill the log entry, the take closes PARTIAL at the first sample of the record that does not fit,
and the magazine re-arms (R201). -/
def Dev.trailerFull (d : Dev) (k : Nat) (tk : Take) : Dev :=
  match (fitRecs trailerRoom (d.takeMust k tk)).2 with
  | none => d
  | some j =>
    let x := d.mag k
    let short := { tk with cutAt := some (tk.trig + j - tk.pre) }
    let d := d.raise 4 Code.trailerFull
    if x.open_ == some tk then (d.setMag k { x with open_ := some short }).closeOpen k
    else d.setMag k { x with takes := x.takes.map (fun t => if t == tk then short else t) }

/-- The next position of a magazine goes to its slot, once every channel has it (R15, R24, R193). In rushes service the slot is take memory. -/
def Dev.magWrite (d : Dev) (k : Nat) : Dev :=
  let d := d.closeDue k
  match d.magNext k with
  | none => d
  | some (n, tk) =>
    let src := (d.magChans k).map sourceOf
    if !src.all (fun s => d.sampleKnown s n) then d
    else
      let l := src.map (fun s => storeSample (d.nW Ix.trgMagFormat k) (d.takenAt s n))
      let x := d.mag k
      let d := d.setMag k { x with at_ := n + 1, hist := (n, l.map (·.2)) :: x.hist }
      let d := d.setMag k { d.mag k with hist := d.histKept k }
      let offs := d.posOffs k n tk
      let d := if offs.isEmpty || d.inRushes then d
        else
          let it : HodItem := ⟨.slot k n offs, d.magTime k n, d.magTime k (n + 1), n, (l.map (·.1)).flatten⟩
          let q := d.hodPut (2 * 2 ^ 24 + k) it
          if q.2 then q.1.itemLost 2 it else q.1
      match tk with
      | some tk => d.trailerFull k tk
      | none => d

/-- What a take holds: its slate, its data in sample order, channel-major (R299), its trailer. -/
structure TakeImage where
  slate : Rec
  data : List Byte
  trailer : List Rec
deriving DecidableEq, Repr

/-- R: the ring offset of a take (R200). -/
def Dev.takeR (d : Dev) (k : Nat) (tk : Take) : Nat :=
  if d.magRing k && d.magD k != 0 then ((((tk.trig : Int) - tk.pre - tk.start) % (d.magD k : Int))).toNat else 0

/-- The positions that the magazine holds of a take's present ones (R197). -/
def Dev.takeHeld (d : Dev) (k : Nat) (tk : Take) : Nat :=
  if tk.spilled then 0 else if d.magK k = 0 then min (d.takeLen k tk) (d.magM k) else d.takeLen k tk

/-- The slate, data and trailer of a take whose positions have come (R200 to R202). -/
def Dev.takeImage (d : Dev) (k : Nat) (tk : Take) : TakeImage :=
  let chans := d.magChans k
  let fmt := d.nW Ix.trgMagFormat k
  let all := (List.range chans.length).map (fun c => d.takeChannel k c tk)
  let must := (fitRecs trailerRoom (d.takeMust k tk)).1
  let flags := (all.zipIdx.map (fun p => d.takeFlags k tk p.2 1 p.1 ++ d.takeFlags k tk p.2 2 p.1 ++ d.takeFlags k tk p.2 3 p.1)).flatten
  let room := (trailerRoom - (must.map (fun r => (recBytes r).length)).sum) / 32
  let count (f : TakeSample → Bool) : Nat := (all.map (fun l => (l.filter f).length)).sum
  let ovr := count (fun s => bitOf s.2.2 0)
  let crc := count (fun s => bitOf s.2.2 1)
  let sat := count (fun s => bitOf s.2.2 2)
  let lost := count (fun s => gapCause s.2.2 != 0)
  let uns := count (fun s => bitOf s.2.2 3)
  let close := mkRec [(0x0F30, k * 2 ^ 40 + tk.index), (0x0F31, ovr), (0x0F32, crc), (0x0F33, sat), (0x0F34, lost)]
  let len := d.takeLen k tk
  let held := d.takeHeld k tk
  let flag (c : Bool) (i : Nat) : Nat := if c then 2 ^ i else 0
  let firstTime := d.magTime k (tk.trig - tk.valid)
  let src := (chans.zipIdx.map (fun p => p.1 * 2 ^ (8 * p.2))).sum
  let slate := slateRec [slateHead k (if tk.spilled then 3 else 1) chans.length fmt tk.index, sec48 firstTime, frac48 firstTime,
    sec48 tk.time, frac48 tk.time, tk.pre, tk.valid, tk.post, len - tk.pre, d.hash48, tk.chain * 2 ^ 40 + tk.cond * 2 ^ 32 + src,
    d.n0 Ix.calCount, d.magRate k, tk.seq, held, d.takeR k tk,
    flag (room < flags.length) 8 + flag (held < len) 7 + flag (0 < lost) 6 + flag (0 < ovr) 5 + flag (0 < crc) 4 + flag (0 < sat) 3 +
      flag (0 < uns) 2 + flag tk.cutAt.isSome 1 + flag tk.forced 0]
  ⟨slate, (all.map (fun l => ((l.take held).map (fun s => (storeSample fmt s).1)).flatten)).flatten, must ++ flags.take room ++ [close]⟩

/-- A slate whose ring offset reads 0, as delivered (R299). -/
def deliveredSlate (r : Rec) : Rec := { r with slots := r.slots.map (fun p => if p.1 = 0x0F0F then (p.1, 0) else p) }

/-- A take as one ring record (R299). -/
def takeRecord (i : TakeImage) : Rec :=
  { slots := (deliveredSlate i.slate).slots ++ [(0x1008, i.data.length)], payload := pad8 i.data ++ (i.trailer.map recBytes).flatten }

/-- Whether what a magazine has on its way to capture memory is of a stream of its own: 2 data, 3 log (R499). -/
def Dev.magBusy (d : Dev) (k kind : Nat) : Bool := !(d.hodItems (kind * 2 ^ 24 + k)).isEmpty

/-- The log entry of the oldest take whose data has been committed is laid, record by record (R15, R24, R201). A spilled take has none: its
slate and trailer lead and end it on the reel (R197). -/
def Dev.magLog (d : Dev) (k : Nat) : Dev :=
  let d := d.closeDue k
  let x := d.mag k
  match x.takes.find? (fun t => !t.complete && t.logged.isNone) with
  | none => d
  | some tk =>
    if max x.at_ (tk.trig - tk.valid) < tk.stop || d.magBusy k 2 then d
    else
      let img := d.takeImage k tk
      let done := { tk with logged := some (img.slate, img.trailer, tk.cutAt.isSome) }
      let d := d.setMag k { x with takes := x.takes.map (fun t => if t == tk then done else t) }
      if tk.spilled || d.inRushes then d
      else
        ((img.slate :: img.trailer).foldl (fun (p : Nat × Dev) r =>
          let b := recBytes r
          (p.1 + b.length, (p.2.hodPut (3 * 2 ^ 24 + k) ⟨.log k p.1, tk.time, tk.time, 0, b⟩).1)) (tk.index % max (d.magK k) 1 * 16384, d)).2

/-- A magazine stops: idle, with its memory and takes; an on-die history is given back (R198). -/
def Dev.magStop (d : Dev) (k : Nat) : Dev :=
  let x := d.mag k
  let d := if d.inRushes then d else d.w0 Ix.trgHistoryFree (d.n0 Ix.trgHistoryFree + x.history)
  let d := d.setMag k { d.mag k with armed := false, disarm := false, history := if d.inRushes then x.history else 0 }
  (d.setMagState k 1).nextSlot k

/-- A magazine that a mask's stop disarms does so once it has no open take (R182). -/
def Dev.magDisarmDue (d : Dev) (k : Nat) : Dev :=
  let x := d.mag k
  if x.disarm && x.armed && x.open_.isNone && x.takes.all (fun t => t.complete) then d.magStop k else d

/-- The bytes of a take in take memory, by offset in its slot (R205). -/
def Dev.takeChunks (d : Dev) (k : Nat) (tk : Take) : List (Nat × List Byte) :=
  (List.range (d.magChans k).length).flatMap fun c => (d.takeChannel k c tk).zipIdx.map fun s =>
    ((c * d.magD k + (s.2 + d.takeR k tk) % max (d.magD k) 1) * d.magWidth k, (storeSample (d.nW Ix.trgMagFormat k) s.1).1)

/-- The zeros of a take's positions that were never written: those before the first valid one, and those that were lost (R194, R298). -/
def Dev.takeZeros (d : Dev) (k : Nat) (tk : Take) (m : Mem) : Mem :=
  match d.allocOf 2 k with
  | none => m
  | some a =>
    let w := d.magWidth k
    let zero := List.replicate w 0#8
    let offs (j : Nat) : List Nat :=
      if d.magK k = 0 then d.slotOffs k 0 j else d.slotOffs k tk.index ((j + d.takeR k tk) % max (d.magD k) 1)
    ((d.magChans k).zipIdx).foldl (fun m p =>
      ((d.takeChannel k p.2 tk).take (d.takeHeld k tk)).zipIdx.foldl (fun m s =>
        if s.2 < tk.pre - tk.valid || gapCause s.1.2.2 != 0 then d.writeAlloc a ((offs s.2).getD p.2 0) zero m else m) m) m

/-- A take that a reel takes whole or continues is handed over to it (R197). -/
def Dev.takeSpill (d : Dev) (k : Nat) (tk : Take) (img : TakeImage) : Dev :=
  let held := d.takeHeld k tk
  if d.takeLen k tk ≤ held then d
  else
    let slate := { img.slate with slots := img.slate.slots.map (fun p => if p.1 = 0x0F00 then (p.1, p.2 / 2 ^ 40 * 2 ^ 40 + 3 * 2 ^ 36 + p.2 % 2 ^ 36) else p) }
    let rest := (List.range (d.magChans k).length).map (fun c => (d.takeChannel k c tk).drop held)
    { d with trg := { d.trg with spills := d.trg.spills ++ [⟨d.nW Ix.trgMagSpillReel k, slate, img.trailer, held, rest⟩] } }

/-- A take's record is bound for its ring; its data is not copied but referenced there (R294, R299). -/
def Dev.takeDeliver (d : Dev) (k : Nat) (img : TakeImage) : Dev :=
  let r := d.nW Ix.trgMagRing k
  if r = noRing || !d.ringTakes r then d else { d with out := { d.out with arrived := d.out.arrived ++ [(r, takeRecord img)] } }

/-- TAKE_COMPLETE: data and log entry are committed, the record is written, the take is delivered (R199). -/
def execTakeComplete (t mag take : Nat) (s : State) : Res :=
  runMemIf (mag < 256) t s fun m d =>
    match (d.mag mag).takes.find? (fun x => x.index == take && !x.complete && x.logged.isSome) with
    | none => (m, d)
    | some tk =>
      if d.magBusy mag 3 then (m, d)
      else
        let log := tk.logged.getD ({ slots := [] }, [], false)
        let img : TakeImage := { d.takeImage mag tk with slate := log.1, trailer := log.2.1 }
        let rush := d.inRushes
        let m := if rush then m else d.takeZeros mag tk m
        let done := { tk with complete := true, chunks := if rush then d.takeChunks mag tk else [],
                              log := if rush then recBytes img.slate ++ (img.trailer.map recBytes).flatten else [] }
        let d := d.takeSpill mag tk img
        let x := d.mag mag
        let d := d.setMag mag { x with takes := x.takes.map (fun y => if y == tk then done else y) }
        let d := d.setMag mag { d.mag mag with hist := d.histKept mag }
        let d := d.wW Ix.trgMagTakes mag (min (2 ^ 32 - 1) ((d.mag mag).takes.filter (fun y => y.complete && !y.spilled)).length)
        let d := d.takeReport mag done (if log.2.2 then 4 else 3) img.data.length
        let d := d.trgEvent 0x03 mag tk.time tk.index img.data.length
        (m, (d.takeDeliver mag img).magDisarmDue mag)

/-! ### Magazine commands (R198) -/

/-- A magazine command reaches its magazine, selected on its path. -/
def Dev.magCommand (d : Dev) (path v : Nat) (f : Dev → Nat → Dev) : Dev :=
  d.command path Ix.trgMagCmd 0 v fun d => f d (d.nW Ix.trgMagSel path)

/-- Take slots that rushes magazines hold in all (R79). -/
def Dev.rushSlots (d : Dev) : Nat := ((List.range 256).map (fun k => if (d.mag k).history != 0 then d.magK k else 0)).sum

/-- Why an arm is refused, if it is (R78, R79, R192, R193, R197, R198). -/
def Dev.armRefusal (d : Dev) (k : Nat) : Option Nat :=
  let spill := d.nW Ix.trgMagSpill k == 1
  let reel := d.nW Ix.trgMagSpillReel k
  if d.magState k != 1 then some Code.magState
  else if spill && d.inRushes then some Code.rushesUnavailable
  else if spill && !(d.nW Ix.strReelState reel == 1 || d.nW Ix.strReelState reel == 2) then some Code.magState
  else if d.magK k = 0 && !spill then some Code.takeTooLarge
  else if d.inRushes then
    if (d.mag k).history = 0 && (128 < d.rushSlots + d.magK k || d.n0 Ix.trgHistoryFree < d.magK k * d.magS k) then some Code.rushesLimit
    else none
  else if d.n0 Ix.trgHistoryFree < d.magHistory k then some Code.historySpace
  else none

/-- The memory of a magazine: what it holds, else its slots and its take log (R192). -/
def Dev.magMemory (d : Dev) (k : Nat) : Option Dev :=
  if d.inRushes then
    let x := d.mag k
    if x.history != 0 then some d
    else
      let n := d.magK k * d.magS k
      some ((d.w0 Ix.trgHistoryFree (d.n0 Ix.trgHistoryFree - n)).setMag k { x with history := n })
  else if (d.allocOf 2 k).isSome && (d.allocOf 3 k).isSome then some d
  else match d.alloc 2 k (4096 * d.nW Ix.trgMagSize k) false with
    | some (a, d1) => match d1.alloc 3 k (16384 * max (d1.magK k) 1) true with
      | some (b, d2) => some ((d2.wW Ix.trgMagBase k (d2.allocAddr a 0)).wW Ix.trgMagLogBase k (d2.allocAddr b 0))
      | none => none
    | none => none

/-- MAG_ARM: allocates, and starts the history at the first block boundary (R198). -/
def execMagArm (t path : Nat) (s : State) : Res := run t s fun d =>
  d.magCommand path 1 fun was k =>
    -- an arm takes the history's place anew
    let x := was.mag k
    let d := was.setMag k { x with
      inSlot := was.nW Ix.trgMagHistory k == 1 || was.inRushes, ahead := if x.takes.isEmpty then was.chainSamples k else x.ahead }
    match d.armRefusal k with
    | some c => was.refuse path Ix.trgMagCmd 0 c
    | none => match d.magMemory k with
      | none => was.refuse path Ix.trgMagCmd 0 Code.magNoMemory
      | some d =>
        let b := d.trgBoundary (d.time96 + 1)
        let h := d.magHistory k
        let d := if d.inRushes then d else (d.w0 Ix.trgHistoryFree (d.n0 Ix.trgHistoryFree - h)).setMag k { d.mag k with history := h }
        let n := d.magAfter k b
        let d := d.setMag k { d.mag k with
          armAt := b, slotStart := n, at_ := n, armed := true, open_ := none, lastEnd := none, disarm := false }
        let d := ((d.setMagState k 2).wW Ix.trgMagCapacity k (d.magK k)).wW Ix.trgMagSlotBytes k (d.magS k)
        (d.wW Ix.trgMagHistoryBytes k (if d.magInSlot k then d.magS k else h)).nextSlot k

/-- MAG_DISARM: stops at the boundary; an open take closes there PARTIAL, or completes whole (R198). -/
def execMagDisarm (t path : Nat) (s : State) : Res := run t s fun d =>
  d.magCommand path 2 fun d k =>
    let st := d.magState k
    if st = 2 || st = 3 || st = 4 then
      let b := d.trgBoundary (d.time96 + 1)
      let x := d.mag k
      match x.open_ with
      | some tk =>
        if d.takeLast k tk ≤ b then ((d.closeOpen k).magStop k).alreadyDone path
        else
          let cut := { tk with cutAt := some (max (d.magAfter k b) (tk.trig - tk.valid)) }
          ((d.setMag k { x with open_ := some cut }).closeOpen k).magStop k
      | none => d.magStop k
    else d.refuse path Ix.trgMagCmd 0 Code.magState

/-- MAG_FREE: a request; the magazine is freeing until its deliveries end (R198). -/
def execMagFree (t path : Nat) (s : State) : Res := run t s fun d =>
  d.magCommand path 3 fun d k =>
    if d.magState k = 1 || d.magState k = 4 then (d.magStop k).setMagState k 5 else d.refuse path Ix.trgMagCmd 0 Code.magState

/-- Every take of a magazine is deleted (R198). -/
def Dev.magClearTakes (d : Dev) (k : Nat) : Dev :=
  let d := (d.mag k).takes.foldl (fun (a : Dev) tk => a.takeReport k tk 0 0) d
  let d := d.setMag k { d.mag k with takes := [], next := 0 }
  (d.wW Ix.trgMagTakes k 0).wW Ix.trgMagSeq k 0

/-- MAG_FREE_RELEASE: memory is released, every take deleted; the magazine is idle, or free without a channel (R198). -/
def execMagFreeRelease (t mag : Nat) (s : State) : Res := runIf (mag < 256) t s fun d =>
  if d.magState mag = 5 then
    let d := d.magClearTakes mag
    let d := (d.release 2 mag).release 3 mag
    let d := d.w0 Ix.trgHistoryFree (d.n0 Ix.trgHistoryFree + (d.mag mag).history)
    let d := ((d.setMag mag {}).wW Ix.trgMagBase mag 0).wW Ix.trgMagLogBase mag 0
    let d := ((d.wW Ix.trgMagCapacity mag 0).wW Ix.trgMagSlotBytes mag 0).wW Ix.trgMagHistoryBytes mag 0
    d.setMagState mag (if (d.magChans mag).isEmpty then 0 else 1)
  else d

/-- MAG_FORCE_TRIGGER: a fire at the boundary with completing condition 0xFF (R198). -/
def execMagForceTrigger (t path : Nat) (s : State) : Res := run t s fun d =>
  d.magCommand path 4 fun d k =>
    let b := d.trgBoundary (d.time96 + 1)
    -- a take whose post-trigger phase is over leaves the magazine armed
    let d := match (d.mag k).open_ with
      | some tk => if d.takeLast k tk < d.time96 then d.closeOpen k else d
      | none => d
    if d.magState k = 2 then d.fireMag k (d.nW Ix.trgMagChain k) b 0xFF true else d.refuse path Ix.trgMagCmd 0 Code.magState

/-- MAG_CLEAR: deletes all takes; a full magazine is armed again with empty slots (R198; DEDUCED, log entry 9). -/
def execMagClear (t path : Nat) (s : State) : Res := run t s fun d =>
  d.magCommand path 5 fun d k =>
    if d.magState k = 1 then d.magClearTakes k
    else if d.magState k = 4 then ((d.magClearTakes k).setMagState k 2).nextSlot k
    else d.refuse path Ix.trgMagCmd 0 Code.magState

/-- TAKE_MEMORY_ERROR: an uncorrectable word of a history becomes a gap in every take that holds it (R206). -/
def execTakeMemoryError (t mag first count : Nat) (s : State) : Res := runIf (mag < 256) t s fun d =>
  if (d.mag mag).armed || (d.mag mag).takes.any (fun x => !x.complete) then
    d.setMag mag { d.mag mag with bad := (first, count) :: (d.mag mag).bad }
  else d

/-! ### The changeover (R82, R205) -/

/-- The take memory: 8 MiB of on-die memory (R79). -/
def takeMemory : Nat := 8388608

/-- A rushes magazine's takes and logs move to capture memory, keeping every number, and so do the positions of its open take and its history
(R82, R205). -/
def Dev.magMove (d : Dev) (k : Nat) (m : Mem) : Mem × Dev :=
  let x := d.mag k
  if x.history = 0 then (m, d)
  else
    let d := (d.w0 Ix.trgHistoryFree (min takeMemory (d.n0 Ix.trgHistoryFree + x.history))).setMag k { x with history := 0 }
    match d.alloc 2 k (4096 * d.nW Ix.trgMagSize k) false with
    | none => (m, d.raise 4 Code.magNoMemory)
    | some (a, d) => match d.alloc 3 k (16384 * max (d.magK k) 1) true with
      | none => (m, (d.release 2 k).raise 4 Code.magNoMemory)
      | some (b, d) =>
        let d := (d.wW Ix.trgMagBase k (d.allocAddr a 0)).wW Ix.trgMagLogBase k (d.allocAddr b 0)
        let slot (tk : Take) : Nat := tk.index % max (d.magK k) 1
        let m := x.takes.foldl (fun m tk => tk.chunks.foldl (fun m c => d.writeAlloc a (slot tk * d.magS k + c.1) c.2 m) m) m
        let m := x.takes.foldl (fun m tk => d.writeAlloc b (slot tk * 16384) tk.log m) m
        let owner (n : Nat) : Option Take := (x.takes.filter (fun t => !t.complete) ++ x.open_.toList).find? (fun t => t.start ≤ n && n < t.stop)
        let m := x.hist.reverse.foldl (fun m p =>
          ((d.posOffs k p.1 (owner p.1)).zip p.2).foldl (fun m c =>
            d.writeAlloc a c.1 (storeSample (d.nW Ix.trgMagFormat k) c.2).1 m) m) m
        let logs (tk : Take) : Nat × List Byte := (slot tk * 16384, match tk.logged with
          | some l => if tk.complete then [] else recBytes l.1 ++ (l.2.1.map recBytes).flatten
          | none => [])
        let m := x.takes.foldl (fun m tk => d.writeAlloc b (logs tk).1 (logs tk).2 m) m
        let d := d.setMag k { d.mag k with takes := x.takes.map (fun tk => { tk with chunks := [], log := [] }) }
        (m, x.takes.foldl (fun (e : Dev) tk =>
          e.takeReport k tk (e.nW Ix.trgTakeState (2 ^ 20 * k + tk.index)) (e.nW Ix.trgTakeDataBytes (2 ^ 20 * k + tk.index))) d)

/-- Every magazine moves at the changeover. -/
def Dev.takesMove (d : Dev) (m : Mem) : Mem × Dev := (d.trg.mags.map (fun p => p.1)).foldl (fun p k => p.2.magMove k p.1) (m, d)

end Sys2Proof.Machine
end

