-- ==== Sys2Proof/Machine/Sequencer.lean ====
section
/-! DEFINITION. Trigger Unit: the sequencer, fires, TOUTs, remote events, cuts (07_triggers_and_takes.md, R176, R185 to R190, R204
to R207). -/

namespace Sys2Proof.Machine

/-- A chain goes back to its first stage (R188). -/
def chainReset (x : ChainSt) : ChainSt := { x with stage := 0, entered := 0, limit := 0, last := [], times := [] }

/-- What an event does to a chain: nothing more, a fire, or a completion within the hold-off. -/
inductive ChainOut where
  | none | fire | held
deriving DecidableEq, Repr

/-- The evaluation of one event by a chain (R188). -/
def chainStep (g : ChainCfg) (x : ChainSt) (cond time : Nat) : ChainSt × ChainOut :=
  let x := if 0 < x.stage && 0 < x.limit && x.deadline < time then chainReset x else x
  if bitOf g.resetSet cond then (chainReset x, .none)
  else match g.stages[x.stage]? with
    | Option.none => (x, .none)
    | some (set, mode, n, window, next) =>
      if !bitOf set cond || time < x.entered then (x, .none)
      else
        let y := if mode = 1 then { x with last := x.last.put cond time }
          else if mode = 2 then { x with times := (x.times ++ [time]).filter (fun w => window == 0 || time ≤ w + ps window) } else x
        let done : Bool := if mode = 0 then true
          else if mode = 1 then (mapBits set).all (fun k => match y.last.find? k with
            | some w => window == 0 || decide (time ≤ w + ps window)
            | Option.none => false)
          else decide (n ≤ y.times.length)
        if !done then (y, .none)
        else if x.stage + 1 = g.stages.length then
          if x.holdUntil ≤ time then (chainReset { y with holdUntil := time + ps g.holdoff }, .fire) else (chainReset y, .held)
        else ({ y with limit := next, deadline := time + ps next, stage := x.stage + 1, entered := time, last := [], times := [] }, .none)

/-! ### Fires (R189, R190) -/

/-- A TOUT's delay after the fire in units of the clock: a value of 0 selects H + 20 ns (R190). -/
def Dev.toutDelay (d : Dev) (n : Nat) : Nat :=
  if d.nI Ix.trgToutDelay n = 0 then ps (d.chainPs (d.nI Ix.trgToutSrc n) + 20000) else ps (d.nI Ix.trgToutDelay n)

/-- A chain fires: magazines, TOUTs, the broadcast, the record, chain snapshots and freezes (R176, R189, R473, R474). -/
def Dev.chainFire (d : Dev) (c time cond : Nat) : Dev :=
  let d := d.incI Ix.trgChainFires c
  let d := if d.nI Ix.trgChainLog c = 1 then d.trgEvent 0x01 c time cond (d.nI Ix.trgChainFires c) else d
  let d := (List.range 256).foldl (fun (a : Dev) k => if a.nW Ix.trgMagChain k = c then a.fireMag k c time cond false else a) d
  let d := (List.range 4).foldl (fun (a : Dev) n =>
    if a.nI Ix.trgToutSrc n = c then
      let x := a.trg.touts.get {} n
      { a with trg := { a.trg with touts := a.trg.touts.put n { x with pulses := x.pulses ++ [time + a.toutDelay n] } } }
    else a) d
  let d := d.bcastFire c time
  let d := if d.n0 Ix.ctrSnapChain = c then { d with ctr := { d.ctr with snapAt := d.ctr.snapAt ++ [(d.nextTick, 3)] } } else d
  if d.n0 Ix.ctrFreezeSrc = 1 && d.n0 Ix.ctrFreezeChain = c && (d.ctr.frozen.isNone || d.ctr.releaseAt.isSome) &&
      d.ctr.freezeAt.isNone then
    -- with a release waiting for the same tick, the fire freezes at the one after it
    { d with ctr := { d.ctr with freezeAt := some (if d.ctr.releaseAt.isSome then tickAt (d.nextTick + 1) else d.nextTick) } }.w0 Ix.ctrFreezeState
      (if d.ctr.frozen.isSome then 2 else 1)
  else d

/-- Whether an event is judged before another: in time order the earlier, then the lower condition; in arrival order the one that is due
earlier (R185, R187). -/
def judgedBefore (order : Nat) (e x : QEvent) : Bool :=
  if order = 0 then decide (e.time < x.time) || (e.time == x.time && decide (e.cond < x.cond)) else decide (e.due < x.due)

/-- The next event of a queue among those that are due; those that come together keep the order they arrived in. -/
def nextEvent (order now : Nat) (q : List QEvent) : Option QEvent :=
  (q.filter (fun e => e.due ≤ now)).foldl (fun b e => match b with
    | none => some e
    | some x => if judgedBefore order e x then some e else b) none

/-- The chain judges an event under the setting of its time: events before a cut's boundary under the old one; the chain is reset
at the boundary (R204). -/
def Dev.chainJudge (d : Dev) (c : Nat) (e : QEvent) : Dev :=
  let x := d.chain c
  let (y, out) := chainStep (d.chainAt c e.time) (if x.before.any (fun b => b.1 ≤ e.time) then { chainReset x with before := none } else x) e.cond e.time
  let d := (d.setChain c y).wI Ix.trgChainStage c y.stage
  match out with
  | .fire => d.chainFire c e.time e.cond
  | .held => d.incI Ix.trgChainHeld c
  | .none => d

/-- A chain that a cut changed is reset once no event before the boundary can come any more (R185, R204). -/
def Dev.chainSettle (d : Dev) (c : Nat) : Dev :=
  let x := d.chain c
  if x.before.any (fun b => b.1 + ps (d.chainPs c) ≤ d.time96) then
    (d.setChain c { chainReset x with before := none }).wI Ix.trgChainStage c 0
  else d

/-- The armed magazines of a chain whose mask stopped in mode 2 disarm, once the take that the failure opened is complete (R182). -/
def Dev.maskDisarms (d : Dev) (chain : Nat) : Dev :=
  (List.range 256).foldl (fun (a : Dev) k =>
    if a.nW Ix.trgMagChain k = chain && (a.mag k).armed then (a.setMag k { a.mag k with disarm := true }).magDisarmDue k else a) d

/-- SEQUENCER_EVENT: the chain takes its next due event; a chain that is held does not use it (R185, R187, R188, R207). -/
def execSequencerEvent (t chain : Nat) (s : State) : Res := runIf (chain < 16) t s fun d =>
  let x := d.chain chain
  match nextEvent (d.nI Ix.trgChainOrder chain) d.time96 x.queue with
    | none => d.chainSettle chain
    | some e =>
      let d := d.setChain chain { x with queue := x.queue.erase e }
      let d := if d.chainHeld chain then d else d.chainJudge chain e
      if e.disarms && (d.chainAt chain e.time).stages.any (fun st => bitOf st.1 e.cond) then d.maskDisarms chain else d

/-- TOUT_PULSE: a due pulse begins, or extends the one in progress (R190). -/
def execToutPulse (t tout : Nat) (s : State) : Res := runIf (tout < 4) t s fun d =>
  let x := d.trg.touts.get {} tout
  match x.pulses with
  | p :: r =>
    if p ≤ d.time96 && d.nI Ix.trgToutSrc tout != 0xFF then
      let y : ToutSt := ⟨r, max x.ends (p + ps (d.nI Ix.trgToutWidth tout))⟩
      { d with trg := { d.trg with touts := d.trg.touts.put tout y } }.incI Ix.trgToutCount tout
    else d
  | [] => d

/-- REMOTE_EVENT: a broadcast fire gives an event to each remote condition with its identifier; beyond the horizon of a time-ordered
chain it is late (R176, R185). -/
def Dev.remoteEvent (d : Dev) (ident time src : Nat) : Dev :=
  let conds := (d.condsOf 0x30 ident time).filter (fun c =>
    let m := (d.condAt c time).nI Ix.trgCondRemoteMod c
    m == 0xFFFF || m == src)
  let chains := (List.range 16).filter (fun k =>
    let g := d.chainAt k time
    !g.stages.isEmpty && g.order == 0 && conds.any (bitOf g.names) && decide (time + ps (d.chainPs k) < d.time96))
  let d := conds.foldl (fun (a : Dev) c => a.emitCond c time 0) d
  if chains.isEmpty then d
  else
    -- a time-ordered chain does not use a late event
    let d := chains.foldl (fun (a : Dev) k =>
      a.setChain k { a.chain k with queue := (a.chain k).queue.filter (fun e => !(conds.contains e.cond && e.time == time)) }) d
    let late := chains.foldl (fun n k => max n (toNs (d.time96 - (time + ps (d.chainPs k))))) 0
    ((d.trgEvent 0x06 ident time src late).inc0 Ix.trgRemoteLate).raise 4 Code.remoteLate

/-- QUEUE_ERROR: the condition's waiting events are lost, every chain naming it is reset (R206). -/
def execQueueError (t cond : Nat) (s : State) : Res := runIf (cond < 64) t s fun d =>
  let d := (List.range 16).foldl (fun (a : Dev) k =>
    if bitOf (a.chainCfg k).names cond then
      let x := a.chain k
      (a.setChain k { chainReset x with queue := x.queue.filter (fun e => e.cond != cond) }).wI Ix.trgChainStage k 0
    else a) d
  d.faultWithin 2 Code.queueError 4 cond 0 20000

/-- Missed-trigger records of a suspension on every magazine armed on an affected chain (R207). -/
def Dev.missedSuspended (d : Dev) (inst start lenNs : Nat) : Dev :=
  (List.range 256).foldl (fun (a : Dev) k =>
    let c := a.nW Ix.trgMagChain k
    if (a.mag k).armed && c < 16 && (inst == 4 || (mapBits (a.chainCfg c).names).any (fun n => a.condInst n == inst)) then
      a.trgEvent 0x02 k start 4 lenNs
    else a) d

/-- The masks of a suspended instance read state 3 until it is back. -/
def Dev.masksSuspend (d : Dev) (inst until_ : Nat) : Dev :=
  if inst = 4 then d else
    (List.range 16).foldl (fun (a : Dev) i =>
      let m := 16 * inst + i
      if a.nI Ix.trgMaskState m = 1 then (a.setMask m { a.mask m with suspended := until_, was := 1 }).wI Ix.trgMaskState m 3 else a) d

/-- BANK_FAULT: the instance fails, and the Supervisor's reset suspends it for at most 50 µs (R206, R207). -/
def execBankFault (t inst : Nat) (s : State) : Res := runIf (inst < 5) t s fun d =>
  let (w, d) := d.within 50000
  let start := d.time96
  let until_ := max 1 (d.now + ns w)
  let d := { d with trg := { d.trg with suspended := d.trg.suspended.put inst (start, until_) } }
  ((d.masksSuspend inst until_).fault 2 Code.bankFault 4 inst 0 w).missedSuspended inst start w

/-! ### Checks of a commit -/

/-- Whether a condition's source is allowed for its type (R169). -/
def condSourceOk (ty src : Nat) : Bool :=
  if 1 ≤ ty && ty ≤ 6 then 0x10 ≤ src && src < 0x40 else if ty = 0x10 then decide (src < 64) else if ty = 0x11 then decide (src < 16)
  else if ty = 0x20 || ty = 0x21 then decide (src < 8) else if ty = 0x30 then decide (src < 256) else ty = 0 || ty = 0x31

/-- Checks of one condition (R169, R170, R172, R205). -/
def Dev.condCheck (d : Dev) (c : Nat) : Option Nat :=
  let ty := d.nI Ix.trgCondType c
  let src := d.nI Ix.trgCondSrc c
  let q := d.nI Ix.trgCondQty c
  let pol := d.nI Ix.trgCondPolarity c
  let a := d.rd Ix.trgCondLevelA (c + 1) 0
  let b := d.rd Ix.trgCondLevelB (c + 1) 0
  let link := src < 0x20
  let lv (x : Int) : Bool := 0 ≤ x && x ≤ 2 ^ 24 - 1
  if !condSourceOk ty src then some Code.condType
  else if ty = 0 then none
  else if ty = 0x30 && !d.fullService then some Code.rushesLimit
  else if 3 < d.nI Ix.trgCondCompare c || 2 < pol || 3 < q then some Code.condParam
  else if pol = 2 && !(ty = 1 || ty = 4 || ty = 5) then some Code.condParam
  else if 1 ≤ ty && ty ≤ 6 then
    if (q = 1 && link && d.realLinkSrc src) || (q = 3 && link) then some Code.condParam
    else if 2 ≤ q && !(lv a && ((ty != 3 && ty != 5) || lv b)) then some Code.condParam
    else if ty = 3 && (if pol = 0 then b ≤ a else a ≤ b) then some Code.condParam
    else if ty = 5 && b ≤ a then some Code.condParam else none
  else none

/-- Whether bins of a table rise strictly and lie below N (R180). -/
def binsRise (n : Nat) : List (Nat × Int × Int) → Bool
  | p :: q :: r => decide (p.1 < q.1) && binsRise n (q :: r)
  | [p] => decide (p.1 < n)
  | [] => true

/-- Checks of one mask (R179, R180). -/
def Dev.maskCheck (d : Dev) (m : Nat) : Option Nat :=
  let l := d.nI Ix.trgMaskLayer m
  let t := d.maskTable m
  if l != 0xFF && (16 ≤ l || l / 4 != m / 16 || d.nI Ix.speLayerSrc l = 0) then some Code.maskLayer
  else if t.length = 0 && l = 0xFF then none
  else if t.length < 2 || 1024 < t.length || !binsRise (if l = 0xFF then 2 ^ 20 else d.layerN l) t then some Code.maskTable else none

/-- The highest event rate of a condition per second (R186). -/
def Dev.condRateMax (d : Dev) (c : Nat) : Nat :=
  let ty := d.nI Ix.trgCondType c
  let clk := d.clockKHz 4 * 1000
  if 1 ≤ ty && ty ≤ 6 then min clk (d.condRate c / 1000)
  else if ty = 0x20 || ty = 0x21 then clk
  else if ty = 0x10 then
    let l := d.nI Ix.trgMaskLayer (d.nI Ix.trgCondSrc c)
    d.layerRate l / 1000 / max (d.layerHop l) 1
  else if ty = 0x11 then 1000000000 / max (d.nI Ix.denPeriod (d.nI Ix.trgCondSrc c / 4)) 1
  else 6250000

/-- Checks of one chain (R186, R188, R205). -/
def Dev.chainCheck (d : Dev) (c : Nat) : Option Nat :=
  let g := d.chainCfg c
  if 4 < d.nI Ix.trgChainStages c then some Code.chainInvalid
  else if g.stages.isEmpty then none
  else if g.stages.any (fun s => s.1 == 0 || decide (2 < s.2.1) || s.2.2.1 == 0 || decide (2 ^ 24 < s.2.2.1)) || 1 < g.order then some Code.chainInvalid
  else if d.nI Ix.trgChainBcast c != 0xFFFF && !d.fullService then some Code.rushesLimit
  else if g.order = 0 && (mapBits g.names).any (fun k => decide (4096 * 1000000000000 < (d.chainPs c - d.condPs k) * d.condRateMax k)) then
    some Code.horizonSpread
  else none

/-- Checks of one TOUT (R190). -/
def Dev.toutCheck (d : Dev) (n : Nat) : Option Nat :=
  let c := d.nI Ix.trgToutSrc n
  if c < 16 && d.nI Ix.trgToutDelay n != 0 && d.nI Ix.trgToutDelay n < d.chainPs c + 20000 then some Code.toutDelay else none

/-- Geometry entries of a magazine, as they stand (R198). -/
def Dev.magGeometry (d : Dev) (k : Nat) : List Int :=
  (List.range 4).map (fun c => d.rd Ix.trgMagChan (c + 1) k) ++
    [d.rd Ix.trgMagFormat 0 k, d.rd Ix.trgMagPre 0 k, d.rd Ix.trgMagPost 0 k, d.rd Ix.trgMagSize 0 k, d.rd Ix.trgMagHistory 0 k,
     d.rd Ix.trgMagSpill 0 k, d.rd Ix.trgMagSpillReel 0 k]

/-- Checks of one magazine (R191, R198, R205). -/
def Dev.magCheck (d old : Dev) (k : Nat) : Option Nat :=
  let chans := d.magChans k
  if d.magGeometry k != old.magGeometry k && !(old.magState k == 0 || (old.magState k == 1 && !old.magHolds k)) then some Code.magArmed
  else if chans.any (fun c => d.chanRate c != d.chanRate (chans.headD 0)) then some Code.channelRate
  else if d.nW Ix.trgMagFormat k = 4 && chans.any (fun c => !d.realLinkSrc c) then some Code.formatSource
  else if d.inRushes && !chans.isEmpty && (d.nW Ix.trgMagFormat k = 1 ||
      4 < ((List.range 256).filter (fun j => !(d.magChans j).isEmpty)).length ||
      takeMemory < ((List.range 256).map (fun j => if (d.magChans j).isEmpty then 0 else d.magK j * d.magS j)).sum) then some Code.rushesLimit
  else none

/-- The magazines a set of writes names. -/
def magsOf (writes : List SWrite) : List Nat :=
  ((writes.filter (fun w => 0x3881 ≤ w.ix && w.ix ≤ 0x3895)).map (·.inst)).dedup

/-- The magazines a commit checks: those its set names, and those in use, whose sources the set may change (R191). -/
def Dev.magsChecked (d : Dev) (writes : List SWrite) : List Nat :=
  (magsOf writes ++ (List.range 256).filter (fun k => d.magState k != 0)).dedup

/-- The Trigger Unit's part of a commit's checks. -/
def Dev.trgCheck (d old : Dev) (writes : List SWrite) : Option Nat :=
  firstCode ((List.range 64).map d.condCheck ++ (List.range 64).map d.maskCheck ++ (List.range 16).map d.chainCheck ++
    (List.range 4).map d.toutCheck ++ (old.magsChecked writes).map (fun k => d.magCheck old k))

/-! ### Cuts (R204) -/

/-- Whether a condition's entries change. -/
def condChanged (old d : Dev) (c : Nat) : Bool := old.condSetting c != d.condSetting c

/-- A TOUT whose delay falls below H + 20 ns is raised to it (R204). -/
def Dev.toutRaise (d : Dev) (n : Nat) : Dev :=
  if (d.toutCheck n).isSome then (d.wI Ix.trgToutDelay n (d.chainPs (d.nI Ix.trgToutSrc n) + 20000)).raise 4 Code.toutDelay else d

/-- What a cut does to a mask: off, testing, counts carried over; frames before the boundary meet the old setting. -/
def Dev.maskCut (d old : Dev) (first m : Nat) : Dev :=
  let l := d.nI Ix.trgMaskLayer m
  let d := if old.maskSetting m == d.maskSetting m then d else d.setMask m { d.mask m with before := some (first, old.maskSetting m) }
  if l = 0xFF then (if d.nI Ix.trgMaskState m = 0 then d else d.wI Ix.trgMaskState m 0)
  else if old.nI Ix.trgMaskLayer m = 0xFF then (d.setMask m { from_ := first }).wI Ix.trgMaskState m 1 else d

/-- A magazine given a channel is idle; one that loses its last and holds no memory is free (R198). -/
def Dev.magCut (d : Dev) (k : Nat) : Dev :=
  if d.magState k = 0 && !(d.magChans k).isEmpty then d.setMagState k 1
  else if d.magState k = 1 && (d.magChans k).isEmpty && !d.magHolds k then d.setMagState k 0 else d

/-- The Trigger Unit applies its part of a cut (R204). -/
def Dev.trgCut (d old : Dev) (writes : List SWrite) (first : Nat) : Dev :=
  let changed := (List.range 64).filter (condChanged old d)
  let d := changed.foldl (fun (a : Dev) c => a.setCond c { a.cond c with before := some (first, old.condSetting c) }) d
  let d := (List.range 16).foldl (fun (a : Dev) c =>
    let o := old.chainCfg c
    if o != a.chainCfg c || changed.any (bitOf o.names) then
      a.setChain c { a.chain c with before := some (first, o) }
    else a) d
  let d := (List.range 64).foldl (fun (a : Dev) m => a.maskCut old first m) d
  let d := (magsOf writes).foldl (fun (a : Dev) k => a.magCut k) d
  let d := d.horizonReport
  (List.range 4).foldl (fun (a : Dev) n => a.toutRaise n) d

end Sys2Proof.Machine
end

