-- ==== Sys2Proof/Machine/Density.lean ====
section
/-! DEFINITION. Density Engine: planes and thresholds (08_density_engine.md). -/

namespace Sys2Proof.Machine

def Dev.plane (d : Dev) (p : Nat) : PlaneSt := d.den.planes.get {} p
def Dev.setPlane (d : Dev) (p : Nat) (x : PlaneSt) : Dev := { d with den := { d.den with planes := d.den.planes.set {} p x } }
def Dev.thr (d : Dev) (t : Nat) : ThrSt := d.den.thrs.get {} t
def Dev.setThr (d : Dev) (t : Nat) (x : ThrSt) : Dev := { d with den := { d.den with thrs := d.den.thrs.set {} t x } }

def Dev.planeW (d : Dev) (p : Nat) : Nat := d.nI Ix.denCols p
def Dev.planeR (d : Dev) (p : Nat) : Nat := d.nI Ix.denRows p

/-- Largest cell count (R215). -/
def cellMax : Nat := 2 ^ 32 - 1

/-- The plane frame boundary at or before an instant, and the next after it (R216). -/
def planeBefore (time period : Nat) : Nat := ns (time * 1000000000 / (two48 * max period 1) * period)
def planeAfter (time period : Nat) : Nat := ns ((time * 1000000000 / (two48 * max period 1) + 1) * period)

/-- A settled count after decay (R218). -/
def decayed (k c : Nat) : Nat :=
  if k = 0 then 0 else if 32 ≤ k then c
  else
    let r := (roundEven (c : Int) (2 ^ k)).toNat
    c - (if r = 0 && 0 < c then 1 else r)

/-- A bin's row, and whether it is a clipped hit; none where it is discarded (R212). -/
def rowOfBin (top : Int) (step rows : Nat) (clip : Bool) (v : Int) : Option (Nat × Bool) :=
  if top < v then (if clip then some (0, true) else none)
  else
    let r := ((top - v) / (max step 1 : Nat)).toNat
    if r < rows then some (r, false) else if clip then some (rows - 1, true) else none

/-- Whether a value is clipped. -/
def isClipped (top : Int) (step rows : Nat) (v : Int) : Bool := decide (top < v) || decide (rows ≤ ((top - v) / (max step 1 : Nat)).toNat)

/-- The bin values that hit, with their columns: all, or the largest of each column (R213). -/
def Dev.hitBins (d : Dev) (p : Nat) (bins : List Int) : List (Nat × Int) :=
  let s := 2 ^ d.nI Ix.denColShift p
  let w := d.planeW p
  let cov := (bins.drop (d.nI Ix.denBinFirst p)).take (w * s)
  if d.nI Ix.denHitMode p = 0 then cov.zipIdx.map (fun q => (q.2 / s, q.1))
  else
    (List.range w).filterMap (fun j =>
      match (cov.drop (j * s)).take s with
      | [] => none
      | v :: r => some (j, r.foldl max v))

/-- One hit in a cell: the cells, and those that are found saturated. -/
def hitCell (cells : Tab Nat) (sat : List Nat) (key : Nat) : Tab Nat × List Nat :=
  let c := cells.get 0 key
  if cellMax ≤ c then (cells, if sat.contains key then sat else key :: sat) else (cells.set 0 key (c + 1), sat)

/-- Whether a cell lies in the region of a threshold (R223). -/
def Dev.inRegion (d : Dev) (t w key : Nat) : Bool :=
  let c := key % max w 1
  let r := key / max w 1
  d.nI Ix.denThrColLo t ≤ c && c ≤ d.nI Ix.denThrColHi t && d.nI Ix.denThrRowLo t ≤ r && r ≤ d.nI Ix.denThrRowHi t

/-- A threshold meets the hits of a frame: one event in a plane frame (R223). -/
def Dev.thrFrame (d : Dev) (t : Nat) (hits : List Nat) (centre : Nat) : Dev :=
  let kind := d.nI Ix.denThrKind t
  if kind = 0 then d
  else
    let p := t / 4
    let w := d.planeW p
    let mine := hits.filter (d.inRegion t w)
    let x := d.thr t
    let n := x.hits + mine.length
    let cells := (d.plane p).active
    let met := if kind = 1 then d.nI Ix.denThrHits t ≤ n else mine.any (fun k => decide (d.nI Ix.denThrHits t ≤ cells.get 0 k))
    let d := d.setThr t { hits := n, fired := x.fired || met }
    if met && !x.fired then
      let d := d.incI Ix.denThrEvents t
      (d.condsOf 0x11 t centre).foldl
        (fun (a : Dev) c => a.emitCond c centre n) d
    else d

/-- CELL_SATURATION at most once per second per plane (R215). -/
def Dev.cellSaturation (d : Dev) (p : Nat) : Dev :=
  let x := d.plane p
  let due : Bool := match x.satRaised with | some r => decide (r + sec ≤ d.now) | none => true
  if due then (d.setPlane p { x with satRaised := some d.now }).raise 4 Code.cellSaturation else d

/-- A frame of the fed layer, as LOG16 bins, increments the plane; `flags` bits 7 OVR, 6 CRC, 5 UNSETTLED, 4 SAT, 3 GAPFILL, 2 TRUNCATED (R212
to R215, R223). A plane that is reset or repointed loses it (R227, R228). -/
def Dev.planeMeets (d : Dev) (p : Nat) (bins : List Int) (flags centre : Nat) (narrow : Bool) : Dev :=
  let x := d.plane p
  if d.now < x.resetUntil || x.suspended then
    (d.setPlane p { x with lost := x.lost + 1, flags := Nat.lor x.flags 128 }).incI Ix.denFramesLost p
  else
    let d := if d.nI Ix.denState p = 3 then d.wI Ix.denState p 1 else d
    if bitOf flags 5 || bitOf flags 3 || bitOf flags 2 then
      (d.setPlane p { x with skipped := x.skipped + 1 }).incI Ix.denFramesSkipped p
    else
      let w := d.planeW p
      let top := d.rd Ix.denTop (p + 1) 0
      let step := d.nI Ix.denRowStep p
      let rows := d.planeR p
      let clip := d.nI Ix.denClip p = 1
      let hb := d.hitBins p bins
      let hits := hb.filterMap (fun q => (rowOfBin top step rows clip q.2).map (fun r => r.1 * w + q.1))
      let clipped := (hb.filter (fun q => isClipped top step rows q.2)).length
      let r := hits.foldl (fun (a : Tab Nat × List Nat) k => hitCell a.1 a.2 k) (x.active, x.satCells)
      let mark := (if bitOf flags 7 then 32 else 0) + (if bitOf flags 6 then 16 else 0) + (if bitOf flags 4 then 8 else 0) + (if narrow then 4 else 0)
      let d := d.setPlane p { x with
        active := r.1, satCells := r.2, counted := x.counted + 1, hits := x.hits + hits.length, clipped := x.clipped + clipped
        flags := Nat.lor x.flags mark }
      let d := (d.incI Ix.denHits p hits.length).incI Ix.denClipped p clipped
      let d := if r.2.length = x.satCells.length then d else d.cellSaturation p
      (List.range 4).foldl (fun (a : Dev) i => a.thrFrame (4 * p + i) hits centre) d

/-- The closing values of the thresholds of a plane (R223). -/
def Dev.thrClose (d : Dev) (p : Nat) : Dev :=
  (List.range 4).foldl (fun (a : Dev) i =>
    let t := 4 * p + i
    let x := a.thr t
    let v := if a.nI Ix.denThrKind t = 2 then
        ((a.plane p).active.filter (fun c => a.inRegion t (a.planeW p) c.1)).foldl (fun m c => max m c.2) 0
      else x.hits
    if a.nI Ix.denThrKind t = 0 then a.setThr t {} else (a.wI Ix.denThrCount t (min v cellMax)).setThr t {}) d

/-- The setting that an export reports (Table 8.1). -/
def Dev.planeReport (d : Dev) (p : Nat) : List Nat :=
  [d.planeW p, d.planeR p, d.nI Ix.denDecay p, d.nI Ix.denHitMode p, d.nI Ix.denClip p, d.nI Ix.denColShift p, d.nI Ix.denBinFirst p,
    d.nI Ix.denLayer p, d.nI Ix.denRowStep p, toTwos 16 (d.rd Ix.denTop (p + 1) 0), d.nI Ix.denExportFormat p, d.nI Ix.denMapFull p,
    if d.descends (4 * p + d.nI Ix.denLayer p) then 1 else 0]

/-- The running plane frame is settled at a boundary: buffers swap, counts decay, an export may fall due (R217 to R219). -/
def Dev.settlePlane (d : Dev) (p end_ extra : Nat) : Dev :=
  let x := d.plane p
  match x.start with
  | none => d
  | some st =>
    let k := d.nI Ix.denDecay p
    let biggest := x.active.foldl (fun m c => max m c.2) 0
    let d := d.thrClose p
    let fl := Nat.lor (Nat.lor x.flags extra) ((if x.cleared then 1 else 0) + (if x.zeroed then 512 else 0))
    let n := x.sinceExport + 1
    let due := d.nI Ix.denExportFormat p != 0 && d.nI Ix.denExportEvery p ≤ n
    let next : Tab Nat := x.active.filterMap (fun c => if decayed k c.2 = 0 then none else some (c.1, decayed k c.2))
    let d := d.setPlane p { x with
      active := next, settled := x.active, start := some end_, counted := 0, skipped := 0, lost := 0, hits := 0, clipped := 0, satCells := []
      flags := if x.suspended then 128 else 0, sinceExport := if due then 0 else n, cleared := x.cleared && !due, zeroed := x.zeroed && !due
      closed := [st, x.counted, x.skipped, x.lost, x.hits, x.clipped, x.satCells.length, fl, biggest]
      setting := d.planeReport p, exportDue := due }
    let d := (d.incI Ix.denPlaneFrames p).wI Ix.denMaxCell p biggest
    d.incI Ix.denSatCells p x.satCells.length

/-- The entries of a plane and of its thresholds as a set of writes. -/
def Dev.planeSetting (d : Dev) (p : Nat) : List SWrite :=
  (List.range 18).map (fun i => ⟨0x3C00 + i, p + 1, 0, d.rd (0x3C00 + i) (p + 1) 0⟩) ++
    (List.range 4).flatMap (fun k => (List.range 6).map (fun i => ⟨0x3C40 + i, 4 * p + k + 1, 0, d.rd (0x3C40 + i) (4 * p + k + 1) 0⟩))

/-- Whether a change of a plane's setting clears both buffers (R225). -/
def Dev.planeClears (d old : Dev) (p : Nat) : Bool :=
  [Ix.denLayer, Ix.denCols, Ix.denRows, Ix.denColShift, Ix.denBinFirst, Ix.denTop, Ix.denRowStep, Ix.denHitMode, Ix.denClip].any
    (fun ix => old.rd ix (p + 1) 0 != d.rd ix (p + 1) 0)

/-- Whether the layer that a plane is fed by is off, or stops (R226). -/
def Dev.planeSourceGone (d : Dev) (p : Nat) : Bool :=
  let l := 4 * p + d.nI Ix.denLayer p
  d.nI Ix.denLayer p != 0xFF && (d.nI Ix.speLayerSrc l = 0 || (d.layer l).drain.isSome)

/-- Whether a running plane frame is shorter than one period: it does not begin on the grid (R225). -/
def startsShort (st period : Nat) : Bool := planeBefore st period < st

/-- The boundary of a cut at a plane, `b`: its running plane frame closes under the old setting, PARTIAL where it ends early, and the new setting
begins. A plane that is turned off, or whose layer is shed, stops (R225, R226). -/
def Dev.planeTurn (d old : Dev) (p b : Nat) : Dev :=
  let off := d.nI Ix.denLayer p = 0xFF
  let gone := d.planeSourceGone p
  let period := old.nI Ix.denPeriod p
  let part : Bool := (old.plane p).start.any (fun st => decide (b < planeAfter st period) || startsShort st period)
  let clears := d.planeClears old p
  let d := (old.settlePlane p b (if part then 64 else 0)).overlay (d.planeSetting p)
  let x := { d.plane p with before := none, start := some b }
  let d := d.setPlane p (if clears then { x with active := [], cleared := true } else x)
  if gone then (((d.setPlane p { d.plane p with start := none }).wI Ix.denLayer p 0xFF).wI Ix.denState p 0).raise 4 Code.denSourceLost
  else if off then (d.setPlane p { d.plane p with start := none }).wI Ix.denState p 0
  else if d.nI Ix.denState p = 0 then d.wI Ix.denState p 1 else d

/-- The next boundary of a plane happens, if it is at or before an instant: a plane frame ends, or a cut takes effect. -/
def Dev.planeStep (d : Dev) (p time : Nat) : Dev :=
  let x := d.plane p
  let settles (w : Dev) (st : Nat) : Dev :=
    let period := w.nI Ix.denPeriod p
    if planeAfter st period ≤ time then w.settlePlane p (planeAfter st period) (if startsShort st period then 64 else 0) else w
  match x.before, x.start with
  | none, some st => settles d st
  | none, none => d
  | some (b, l), some st =>
    let old := d.overlay l
    if planeAfter st (old.nI Ix.denPeriod p) < b then (settles old st).overlay (d.planeSetting p)
    else if b ≤ time then d.planeTurn old p b else d
  | some (b, l), none => if b ≤ time then d.planeTurn (d.overlay l) p b else d

/-- So many boundaries at most. -/
def Dev.planeRun (p time : Nat) : Nat → Dev → Dev
  | 0, d => d
  | k + 1, d => Dev.planeRun p time k (d.planeStep p time)

/-- Every boundary of a plane up to an instant has happened. -/
def Dev.planeUntil (d : Dev) (p time : Nat) : Dev :=
  Dev.planeRun p time (2 + (time - (d.plane p).start.getD time) / ns 100000) d

/-- DENSITY_INCREMENT: a frame of the fed layer reaches the plane, in the plane frame that contains its first sample, under the setting of that
instant (R214, R216, R225). -/
def Dev.densityFrame (d : Dev) (p : Nat) (bins : List Int) (flags time centre : Nat) (narrow : Bool) : Dev :=
  let d := d.planeUntil p time
  if d.nI Ix.denState p = 0 then d
  else
    let x := d.plane p
    match x.before with
    | none => (d.setPlane p { x with start := some (x.start.getD (planeBefore time (d.nI Ix.denPeriod p))) }).planeMeets p bins flags centre narrow
    | some (_, l) =>
      let old := d.overlay l
      ((old.setPlane p { x with start := some (x.start.getD (planeBefore time (old.nI Ix.denPeriod p))) }).planeMeets p bins flags centre narrow).overlay
        (d.planeSetting p)

/-- Whether the last frame that begins before a boundary has been incremented: the layer has gone past it, or the time that R217 allows is
over. -/
def Dev.planeReady (d : Dev) (p b : Nat) : Bool :=
  let w := match (d.plane p).before with | some (_, l) => d.overlay l | none => d
  let l := 4 * p + w.nI Ix.denLayer p
  let f := w.layerRate l
  let wait := w.layerPs l + (if f = 0 then 0 else w.layerN l * 1000000000000000 / (2 * f)) + 120000
  (!(d.layer l).oldUntil.isSome && (d.layer l).next.any (fun n => b ≤ d.frameTime l n)) || decide (b + ps wait ≤ d.time96)

/-- PLANE_FRAME_SETTLE: the last frame of the plane frame has been incremented; `ecc` counts the memory errors corrected since the last (R217,
R227). -/
def execPlaneFrameSettle (t plane ecc : Nat) (s : State) : Res := runIf (plane < 4) t s fun d =>
  let d := if ecc = 0 then d else d.incI Ix.denEccCorrected plane ecc
  let x := d.plane plane
  let period := match x.before with | some (_, l) => (d.overlay l).nI Ix.denPeriod plane | none => d.nI Ix.denPeriod plane
  let next := match x.start, x.before with
    | some st, some (b, _) => min b (planeAfter st period)
    | some st, none => planeAfter st period
    | none, some (b, _) => b
    | none, none => 0
  if d.planeReady plane next then d.planeStep plane next else d

/-- PLANE_MEM_ERROR: both cells of the word are zeroed in both buffers (R227). -/
def execPlaneMemError (t plane word : Nat) (s : State) : Res := runIf (plane < 4) t s fun d =>
  let x := d.plane plane
  let wipe (l : Tab Nat) : Tab Nat := (l.del (2 * word)).del (2 * word + 1)
  (d.setPlane plane { x with active := wipe x.active, settled := wipe x.settled, zeroed := true }).raise 4 Code.planeMemError

/-- DENSITY_FAULT: the plane is reset within 50 µs and its buffers cleared (R227). -/
def execDensityFault (t plane : Nat) (s : State) : Res := runIf (plane < 4) t s fun d =>
  let (w, d) := d.within 50000
  if d.nI Ix.denState plane = 0 then d.fault 2 Code.densityFault 5 plane 0 w
  else
    let x := d.plane plane
    let d := d.setPlane plane { x with active := [], settled := [], resetUntil := d.now + ns w, flags := Nat.lor x.flags 128, cleared := true }
    (d.wI Ix.denState plane 3).fault 2 Code.densityFault 5 plane 0 w

/-- What a cut does to a plane: its boundary is set; a plane that was off begins there (R225). -/
def Dev.planeCut (d old : Dev) (first p : Nat) : Dev :=
  if old.planeSetting p == d.planeSetting p && !(d.planeSourceGone p && old.nI Ix.denState p != 0) then d
  else if old.nI Ix.denState p = 0 then
    let d := d.setPlane p { d.plane p with before := none, start := none }
    if d.nI Ix.denLayer p = 0xFF then d
    else (d.setPlane p { d.plane p with active := [], cleared := true, start := some first }).wI Ix.denState p 1
  else
    -- one that has begun before keeps its old setting until the later boundary
    let was := match (d.plane p).before with | some (_, l) => l | none => old.planeSetting p
    d.setPlane p { d.plane p with before := some (first, was) }

/-- The Density Engine applies its part of a cut. -/
def Dev.denCut (d old : Dev) (first : Nat) : Dev := (List.range 4).foldl (fun (a : Dev) p => a.planeCut old first p) d

end Sys2Proof.Machine
end

