-- ==== Sys2Proof/Machine/Viewport.lean ====
section
/-! DEFINITION. Viewport: display scan-out (09_viewport.md). -/

namespace Sys2Proof.Machine

/-- A Viewport event record (Table 9.4). -/
def Dev.vpEvent (d : Dev) (kind obj a b : Nat) : Dev := d.event 6 0x1060 kind obj d.time96 a b

/-- No handle. -/
def noHandle : Nat := 0xFFFFFFFF

/-! ### Modes and the link (R232, R233) -/

/-- A row of Table 9.1: pixel clock kHz, active width and height, totals. -/
def modeTiming (m : Nat) : Nat × Nat × Nat × Nat × Nat :=
  if m = 1 then (25175, 640, 480, 800, 525) else if m = 2 then (74250, 1280, 720, 1650, 750) else if m = 3 then (148500, 1920, 1080, 2200, 1125)
  else if m = 4 then (241500, 2560, 1440, 2720, 1481) else if m = 5 then (297000, 3840, 2160, 4400, 2250) else (594000, 3840, 2160, 4400, 2250)

/-- The timing of a mode: a row, or the user timing. -/
def Dev.timing (d : Dev) (m : Nat) : Nat × Nat × Nat × Nat × Nat :=
  if m = 0x10 then (d.nI Ix.vpUserTiming 0, d.nI Ix.vpUserTiming 1, d.nI Ix.vpUserTiming 5, d.nI Ix.vpUserTiming 2, d.nI Ix.vpUserTiming 6) else modeTiming m

/-- The mode selected: as set, or from the sink (R233). -/
def Dev.pickMode (d : Dev) : Nat :=
  if d.n0 Ix.vpMode != 0 then d.n0 Ix.vpMode
  else if d.vp.preferred != 0 then d.vp.preferred else d.vp.listed.foldl max 0

/-- Payload capacity of a lane in Mb/s at rate 1 to 4. -/
def laneMbps (r : Nat) : Nat := if r = 1 then 1296 else if r = 2 then 2160 else if r = 3 then 4320 else 6480

/-- The lowest rate, then the fewest lanes, that carry a pixel clock at some bits per component (R233). -/
def Dev.pickLink (d : Dev) (khz bpc : Nat) : Option (Nat × Nat) :=
  let combos := ([1, 2, 3, 4].map (fun r => [1, 2, 4].map (fun l => (r, l)))).flatten
  combos.find? (fun c => c.1 ≤ d.vp.sinkRate && c.2 ≤ d.vp.sinkLanes && decide (khz * 3 * bpc ≤ laneMbps c.1 * c.2 * 1000))

/-- A training attempt at some bits per component or fewer; dark where none carries the mode (R233). -/
def Dev.tryLink (d : Dev) (mode : Nat) : List Nat → Dev
  | [] => ({ d with vp := { d.vp with attempt := none } }.w0 Ix.vpLinkState 4).raise 4 Code.modeUnsupported
  | b :: r =>
    match d.pickLink (d.timing mode).1 b with
    | some c => { d with vp := { d.vp with attempt := some (mode, c.1, c.2, b) } }.w0 Ix.vpLinkState 2
    | none => Dev.tryLink d mode r

/-- Bits per component at or below a value, highest first. -/
def bpcBelow (b : Nat) : List Nat := [10, 8, 6].filter (fun x => x ≤ b)

/-- Mode selection and link training start (R233); the timing generator takes the mode. -/
def Dev.train (d : Dev) : Dev :=
  let m := d.pickMode
  let d := { d with vp := { d.vp with modeNow := m } }
  if d.n0 Ix.vpEnable = 0 || !d.vp.plugged then d
  else if m = 0 then ({ d with vp := { d.vp with attempt := none } }.w0 Ix.vpLinkState 4).raise 4 Code.modeUnsupported
  else d.tryLink m (bpcBelow (d.n0 Ix.vpBpc))

/-- The row of Table 9.1 whose pixel clock and totals a timing meets within 0.5 %; 0 where none does (R233). -/
def rowNear (kHz htotal vtotal : Nat) : Nat :=
  let near (a b : Nat) : Bool := decide (200 * (max a b - min a b) ≤ b)
  (([1, 2, 3, 4, 5, 6] : List Nat).find? (fun m =>
    let r := modeTiming m
    near kHz r.1 && near htotal r.2.2.2.1 && near vtotal r.2.2.2.2)).getD 0

/-- HPD_PLUG: a sink with its rates, lanes, preferred timing (pixel clock in kHz, totals), the rows its EDID lists and its EDID bytes (R233, R234). -/
def execHpdPlug (t rate lanes kHz htotal vtotal : Nat) (listed : List Nat) (edid : List Byte) (s : State) : Res := run t s fun d =>
  if d.vp.plugged then d else
    let d := d.wake 4
    let d := { d with vp := { d.vp with
      plugged := true, sinkRate := rate, sinkLanes := lanes, preferred := rowNear kHz htotal vtotal, listed := listed } }
    let d := { d with long := d.long.set [] (ekey Ix.vpEdid 0 0) (edid.take 512) }
    let d := d.train
    d.vpEvent 0x06 0 1 (d.n0 Ix.vpLinkState)

/-- HPD_IRQ: a low of 0.25 to 2 ms; the link retrains if it lost lock, or if it was training (R234, Table 9.7). -/
def execHpdIrq (t lowUs : Nat) (lost : Bool) (s : State) : Res := run t s fun d =>
  if d.vp.plugged && 250 ≤ lowUs && lowUs ≤ 2000 then
    let d := if lost || d.n0 Ix.vpLinkState = 2 then d.train else d
    d.vpEvent 0x06 0 2 (d.n0 Ix.vpLinkState)
  else d

/-- HPD_UNPLUG: a low of more than 2 ms; the lanes go idle (R234). -/
def execHpdUnplug (t : Nat) (s : State) : Res := run t s fun d =>
  if d.vp.plugged then
    let d := { d with vp := { d.vp with plugged := false, attempt := none } }
    let d := if d.n0 Ix.vpEnable = 1 then d.w0 Ix.vpLinkState 1 else d
    d.vpEvent 0x06 0 0 (d.n0 Ix.vpLinkState)
  else d

/-- DP_LINK_TRAINED: the attempt succeeds, or fails and is retried at fewer bits per component: the attempt takes the lowest rate and
the fewest lanes that carry the mode, so no lower rate and no fewer lanes are left (R233). -/
def execDpLinkTrained (t : Nat) (ok : Bool) (s : State) : Res := run t s fun d =>
  match d.vp.attempt with
  | some (mode, rate, lanes, bpc) =>
    if ok then
      let d := { d with vp := { d.vp with attempt := none, mismatches := 0 } }
      let d := (d.w0 Ix.vpLinkState 3).w0 Ix.vpLinkConfig (mode * 256 + rate * 16 + lanes)
      d.vpEvent 0x07 0 mode (bpc * 256 + rate * 16 + lanes)
    else d.tryLink mode (bpcBelow (bpc - 1))
  | none => d

/-- The timing generator is switched (R235). -/
def Dev.vpEnable (d : Dev) (v : Nat) : Dev :=
  let was := d.n0 Ix.vpEnable
  let d := d.w0 Ix.vpEnable v
  if v = 1 && was = 0 then
    let d := { d with vp := { d.vp with latched := true } }
    let d := (d.w0 Ix.vpLinkState 1).setIslState 6 0
    d.train
  else if v = 0 && was = 1 then
    ({ d with vp := { d.vp with attempt := none } }.w0 Ix.vpLinkState 0).setIslState 6 2
  else d

/-- VP_ENABLE (R235). -/
def execVpEnable (t path v : Nat) (s : State) : Res := run t s fun d =>
  d.command path Ix.vpEnable 0 v fun d => if 1 < v then d.refuse path Ix.vpEnable 0 Code.valueRange else d.vpEnable v

/-! ### Handles and the pool (R240 to R242) -/

/-- Bytes of the pool. -/
def Dev.poolBytes (d : Dev) : Nat := if d.fullService then d.n0 Ix.vpPoolSize * 1048576 else 10485760

/-- The first free offset of the pool for a buffer, buffers in ascending order. -/
def poolFit (n : Nat) : Nat → List (Nat × Nat) → Nat
  | at_, [] => at_
  | at_, (o, s) :: r => if at_ + n ≤ o then at_ else poolFit n (max at_ (o + s)) r

/-- Buffers of the pool by offset. -/
def Dev.poolMap (d : Dev) : List (Nat × Nat) := (d.vp.handles.map (fun h => (h.2.offset, h.2.size))).mergeSort (fun a b => a.1 ≤ b.1)

/-- `vp.pool_free` follows. -/
def Dev.poolReport (d : Dev) : Dev := d.w0 Ix.vpPoolFree ((d.poolBytes - (d.vp.handles.map (fun h => h.2.size)).sum) / 1024)

/-- The entry a handle names, while its generation matches (R241). -/
def Dev.handleEntry (d : Dev) (h : Nat) : Option Nat :=
  let e := h % 65536
  if e < 64 && (d.vp.handles.find? e).isSome && d.vp.generations.get 0 e = h / 65536 then some e else none

/-- Handles that the layers in force show, and those that committed layer sets name. -/
def Dev.shownHandles (d : Dev) : List Nat := ((List.range 3).map (fun l => d.nI Ix.vpLayerHandle l)).filter (fun h => h != noHandle)
def Dev.namedHandles (d : Dev) : List Nat :=
  ((d.vp.committed.map (·.2)).flatten.filter (fun w => w.ix == Ix.vpLayerHandle && w.value != (noHandle : Int))).map (fun w => w.value.toNat)

/-- Address and geometry entries of a handle. -/
def Dev.handleReport (d : Dev) (e state : Nat) : Dev :=
  match d.vp.handles.find? e with
  | some h =>
    let addr := match d.allocOf 0x10 0 with | some a => d.allocAddr a h.offset | none => 0
    let d := (d.wI Ix.vpHandleState e state).wI Ix.vpHandleId e (d.vp.generations.get 0 e * 65536 + e)
    (d.wI Ix.vpHandleAddr e addr).wI Ix.vpHandleGeom e (h.format * 2 ^ 40 + h.stride / 256 * 2 ^ 24 + (h.width - 1) * 2 ^ 12 + (h.height - 1))
  | none => ((d.wI Ix.vpHandleState e 0).wI Ix.vpHandleId e noHandle).wI Ix.vpHandleAddr e 0

/-- Bytes per pixel of a format (Table 9.2). -/
def pixelBytes (f : Nat) : Nat := f

/-- VP_ALLOC: a buffer in the pool, its handle in `vp.alloc_handle` (R240, R241). -/
def execVpAlloc (t path : Nat) (s : State) : Res := run t s fun d =>
  d.command path Ix.vpAllocCmd 0 1 fun d =>
    let w := d.n0 Ix.vpAllocWidth
    let h := d.n0 Ix.vpAllocHeight
    let f := d.n0 Ix.vpAllocFormat
    let no (c : Nat) : Dev := d.refuse path Ix.vpAllocCmd 0 c
    if w = 0 || 4096 < w || h = 0 || 4096 < h || f = 0 || 4 < f then no Code.layerParam
    else match (List.range 64).find? (fun e => (d.vp.handles.find? e).isNone) with
      | none => no Code.handleLimit
      | some e =>
        let stride := ceilDiv (w * pixelBytes f) 256 * 256
        let size := ceilDiv (stride * h) 4096 * 4096
        let off := poolFit size 0 d.poolMap
        if d.poolBytes < off + size then no Code.poolFull
        else
          let g := (d.vp.generations.get 0 e + 1) % 65536
          let d := { d with vp := { d.vp with
            handles := d.vp.handles.put e ⟨off, size, w, h, f, stride, 0⟩, generations := d.vp.generations.set 0 e g } }
          ((d.handleReport e 1).w0 Ix.vpAllocHandle (g * 65536 + e)).poolReport

/-- VP_FREE_REQUEST: the free waits for the first latch point after the handle has left scan and every committed set (R242). -/
def execVpFreeRequest (t path : Nat) (s : State) : Res := run t s fun d =>
  d.command path Ix.vpAllocCmd 0 2 fun d =>
    match d.handleEntry (d.n0 Ix.vpAllocHandle) with
    | none => d.refuse path Ix.vpAllocCmd 0 Code.handleInvalid
    | some e =>
      if d.vp.freeing.contains e then d.refuse path Ix.vpAllocCmd 0 Code.handleFreeing
      else { d with vp := { d.vp with freeing := d.vp.freeing ++ [e] } }.wI Ix.vpHandleState e 3

/-- Bytes are written into a buffer of the pool. -/
def Dev.poolWrite (d : Dev) (off : Nat) (bytes : List Byte) (m : Mem) : Mem × Dev :=
  match d.allocOf 0x10 0 with
  | some a => (d.writeAlloc a off bytes m, d.rewrote a off bytes.length)
  | none => (m, { d with vp := { d.vp with
      rushPool := (bytes.zipIdx.foldl (fun (l : Tab Byte) b => l.set 0#8 (off + b.2) b.1) d.vp.rushPool) } })

/-- The pool is taken from capture memory at the changeover, with the buffers it holds (R82, R240, R251). -/
def Dev.poolStart (d : Dev) (m : Mem) : Mem × Dev :=
  match d.alloc 0x10 0 (d.n0 Ix.vpPoolSize * 1048576) false with
  | some (a, d) =>
    let m := d.vp.rushPool.foldl (fun m b => d.writeAlloc a b.1 [b.2] m) m
    let d := { d with vp := { d.vp with rushPool := [] } }
    (m, (d.vp.handles.foldl (fun (x : Dev) h => x.handleReport h.1 (x.nI Ix.vpHandleState h.1)) d).poolReport)
  | none => (m, d)

/-! ### Staging, commits, the latch point (R243, R244) -/

/-- The part an entry of the Viewport's staged set belongs to. -/
def vpPart (w : SWrite) : Nat :=
  if w.ix = Ix.vpPalEntry then 4 else if w.ix = Ix.vpCursorPixel then 5 else if w.ix = Ix.vpCursorOn then 3 else w.sub - 1

/-- A write joins the Viewport's staged set. -/
def Dev.vpStage (d : Dev) (w : SWrite) : Dev := { d with vp := { d.vp with staged := putWrite w d.vp.staged } }

/-- Why a write to a layer entry is rejected, if it is (R236, R241, R242, R244, R246, R253). -/
def Dev.vpWriteCheck (d : Dev) (ix sub : Nat) (v : Int) : Option Nat :=
  if ix = Ix.vpLayerHandle then
    if v = (noHandle : Int) then (if sub < 4 && d.nI Ix.vpLayerClaim (sub - 1) != 0xFF then some Code.layerClaimed else none)
    else if sub = 4 then some Code.layerParam
    else if d.nI Ix.vpLayerClaim (sub - 1) != 0xFF then some Code.layerClaimed
    else match d.handleEntry v.toNat with
      | none => some Code.handleInvalid
      | some e => if d.vp.freeing.contains e then some Code.handleFreeing else none
  else if Ix.vpRoll ≤ ix && ix ≤ Ix.vpRollEvery && sub = 4 then some Code.rollParam
  else none

/-- VP_CURSOR_PIXEL: one staged cursor pixel; the index advances (R239). -/
def execVpCursorPixel (t path v : Nat) (s : State) : Res := run t s fun d =>
  d.command path Ix.vpCursorPixel 0 v fun d =>
    let i := d.nW Ix.vpCursorIndex path
    if 16384 ≤ i then d.refuse path Ix.vpCursorPixel 0 Code.valueRange
    else (d.vpStage ⟨Ix.vpCursorPixel, 0, i, v⟩).wW Ix.vpCursorIndex path (i + 1)

/-- Writes are committed for a part: a second commit before the latch replaces the values of the first (R244). -/
def Dev.commitPart (d : Dev) (part : Nat) (ws : List SWrite) : Dev :=
  let old := match d.vp.committed.find? (fun c => c.1 == part) with | some c => c.2 | none => []
  let new := ws.foldl (fun l w => putWrite w l) old
  { d with vp := { d.vp with committed := d.vp.committed.filter (fun c => c.1 != part) ++ [(part, new)] } }

/-- VP_COMMIT: the staged layers, palettes or cursor of the map are committed, and latch at the next latch point: that of the
frame being scanned, or after it that of the next (R243, R244). -/
def execVpCommit (t path map : Nat) (s : State) : Res := run t s fun d =>
  d.command path Ix.vpCommit 0 map fun d =>
    if 64 ≤ map then d.refuse path Ix.vpCommit 0 Code.valueRange
    else
      let rolls := (List.range 3).any (fun l => bitOf map l &&
        (let v (ix : Nat) : Int := match stagedValue d.vp.staged ix (l + 1) 0 with | some x => x | none => d.rd ix (l + 1) 0
         let src := (v Ix.vpRollSrc).toNat
         v Ix.vpRoll != 0 && src != 0xFF && (decide (16 ≤ src) || decide (d.layerN src / 2 ^ d.nI Ix.speDetBins src ≤ (v Ix.vpRollFirst).toNat))))
      if rolls then d.refuse path Ix.vpCommit 0 Code.rollParam
      else
        let d := (List.range 6).foldl (fun (a : Dev) p =>
          if bitOf map p then a.commitPart p (a.vp.staged.filter (fun w => vpPart w == p)) else a) d
        { d with vp := { d.vp with staged := d.vp.staged.filter (fun w => !bitOf map (vpPart w)) } }

/-- One committed part is applied, and its record posted (R244). -/
def Dev.applyPart (d : Dev) (c : Nat × List SWrite) : Dev :=
  let f := d.n0 Ix.vpFrame + 1
  let d := c.2.foldl (fun (a : Dev) w => a.wr w.ix w.sub w.inst w.value) d
  if c.1 < 4 then
    let d := (d.incI Ix.vpCommitSeq c.1).wI Ix.vpCommitFrame c.1 f
    d.vpEvent 0x03 c.1 (d.nI Ix.vpCommitSeq c.1) f
  else if c.1 = 4 then
    let d := { d with vp := { d.vp with palSeq := wrap48 (d.vp.palSeq + 1) } }
    d.vpEvent 0x03 4 d.vp.palSeq f
  else
    let d := { d with vp := { d.vp with cursorSeq := wrap48 (d.vp.cursorSeq + 1) } }
    d.vpEvent 0x03 5 d.vp.cursorSeq f

/-- Handles that left scan at this latch point are recorded; those whose free was requested are released (R242). -/
def Dev.releaseHandles (d : Dev) (before : List Nat) : Dev :=
  let f := d.n0 Ix.vpFrame
  let now := d.shownHandles
  let named := d.namedHandles
  (List.range 64).foldl (fun (a : Dev) e =>
    match a.vp.handles.find? e with
    | none => a
    | some h =>
      let id := a.vp.generations.get 0 e * 65536 + e
      let left := before.contains id && !now.contains id
      let h := if before.contains id then { h with lastScan := f } else h
      let a := { a with vp := { a.vp with handles := a.vp.handles.put e h } }
      if a.vp.freeing.contains e then
        if now.contains id || named.contains id then a
        else
          let a := { a with vp := { a.vp with handles := a.vp.handles.del e, freeing := a.vp.freeing.filter (fun x => x != e) } }
          ((a.handleReport e 0).vpEvent 0x02 e id h.lastScan).poolReport
      else if now.contains id then a.wI Ix.vpHandleState e 2
      else if left then (a.wI Ix.vpHandleState e 1).vpEvent 0x01 e id f else a) d

/-- The latch point: commits apply, roll heads are fixed, records are posted; while the Viewport is repointed commits and heads
wait (R244, R245, R250). -/
def Dev.latch (d : Dev) : Dev :=
  let d := { d with vp := { d.vp with latched := true } }
  if d.vp.suspended then d
  else
    let before := d.shownHandles
    let cs := d.vp.committed
    let d := { d with vp := { d.vp with committed := [] } }
    let d := cs.foldl (fun (a : Dev) c => a.applyPart c) d
    let d := { d with vp := { d.vp with rolls := d.vp.rolls.map (fun (r : Nat × RollSt) => (r.1, { r.2 with head := r.2.done })) } }
    d.releaseHandles before

/-- The frame being scanned is aborted at a line of a layer; the abort is its latch point (R249). -/
def Dev.abortFrame (d : Dev) (layer line : Nat) : Dev :=
  let d := (d.inc0 Ix.vpUnderruns).vpEvent 0x04 layer (d.n0 Ix.vpFrame) line
  let due : Bool := match d.vp.underrunRaised with | some r => decide (r + sec ≤ d.now) | none => true
  let d := { d with vp := { d.vp with formed := none, underrunRaised := if due then some d.now else d.vp.underrunRaised } }
  (if due then d.raise 4 Code.underrun else d).latch

/-- VP_UNDERRUN: a layer line had not arrived, or a handle in scan has an uncorrectable memory error (R249). -/
def execVpUnderrun (t layer line : Nat) (s : State) : Res := runIf (layer < 4) t s fun d =>
  if d.n0 Ix.vpEnable = 1 && !d.vp.latched then d.abortFrame layer line else d

/-- DISPLAY_FRAME_START: the start of the first active line; a frame that starts while the composer is reset is aborted. `ecc` counts the memory
errors corrected since the last (R235, R250). -/
def execDisplayFrameStart (t ecc : Nat) (s : State) : Res := run t s fun d =>
  let d := if ecc = 0 then d else d.inc0 Ix.vpEccCorrected ecc
  if d.n0 Ix.vpEnable = 1 && d.vp.latched then
    let d := { d with vp := { d.vp with latched := false } }.inc0 Ix.vpFrame
    if d.now < d.vp.composerUntil then d.abortFrame 0 0 else d
  else d

/-- COMPOSER_FAULT: the composer is reset within 50 µs, and frames in the interval are aborted; the link stays up (R250). -/
def execComposerFault (t : Nat) (s : State) : Res := run t s fun d =>
  let (w, d) := d.within 50000
  let d := { d with vp := { d.vp with composerUntil := d.now + ns w } }.fault 2 Code.composerFault 6 0 0 w
  if d.n0 Ix.vpEnable = 1 && !d.vp.latched then d.abortFrame 0 0 else d

/-- PALETTE_ECC_ERROR: the word is repaired from the Supervisor's shadow within 20 µs (R250). -/
def execPaletteEccError (t : Nat) (s : State) : Res := run t s fun d => d.faultWithin 2 0 6 0 0 20000

/-! ### Roll lines (R246, R247) -/

/-- The index of a point on a roll line (R246). -/
def rollIndex (top : Int) (step : Nat) (v : Int) : Nat :=
  if top < v then 255 else (max 1 (255 - (top - v) / (max step 1 : Nat))).toNat

/-- A component reduced to some bits, convergently (R246). -/
def reduceBits (w c : Nat) : Nat := min (2 ^ w - 1) (roundEven ((c * (2 ^ w - 1) : Nat) : Int) 255).toNat

/-- A pixel of a line: the index, or the colour of the palette's entry, in the buffer's format (Table 9.2). -/
def Dev.rollPixel (d : Dev) (pal fmt i : Nat) : List Byte :=
  let argb := (d.rd Ix.vpPalEntry (i + 1) pal).toNat
  if fmt = 1 then leBytes 1 i
  else if fmt = 2 then
    leBytes 2 (reduceBits 5 (bitsOf 23 16 argb) * 2048 + reduceBits 6 (bitsOf 15 8 argb) * 32 + reduceBits 5 (bitsOf 7 0 argb))
  else if fmt = 3 then leBytes 3 (argb % 2 ^ 24) else leBytes 4 argb

/-- A layer in roll mode meets a trace of its source, of an instant, as LOG16 points: the line it renders sets out for the hod buffer; it is
invalid until its write commits (R245 to R247). -/
def Dev.rollLine (d : Dev) (l time : Nat) (pts : List Int) : Dev :=
  let x := d.vp.rolls.get {} l
  let every := max (d.nI Ix.vpRollEvery l) 1
  let x := { x with traces := x.traces + 1 }
  let keep (x : RollSt) : Dev := { d with vp := { d.vp with rolls := d.vp.rolls.put l x } }
  if x.traces % every != 0 then keep x
  else match d.handleEntry (d.nI Ix.vpLayerHandle l) with
    | none => keep x
    | some e => match d.vp.handles.find? e with
      | none => keep x
      | some h =>
        let n := x.newest + 1
        let line := n % h.height
        let sc := max (d.nI Ix.vpRollXscale l) 1
        let used := (pts.drop (d.nI Ix.vpRollFirst l)).take (h.width / sc)
        let idx := (used.map (fun v => List.replicate sc (rollIndex (d.rd Ix.vpRollTop (l + 1) 0) (d.nI Ix.vpRollStep l) v))).flatten
        let idx := idx ++ List.replicate (h.width - idx.length) 0
        let bytes := (idx.map (d.rollPixel (d.nI Ix.vpRollPalette l) h.format)).flatten
        (keep { x with newest := n, valid := x.valid.filter (fun k => k != line) }).ask (7 * 2 ^ 24 + l)
          ⟨.line l line n (h.offset + line * h.stride), time, time, n, bytes⟩

/-- A line's write commits: it is valid, unless the ring has advanced onto it again (R245, R247). -/
def Dev.rollCommit (d : Dev) (l line number : Nat) : Dev :=
  let x := d.vp.rolls.get {} l
  let h := match d.handleEntry (d.nI Ix.vpLayerHandle l) with
    | some e => (match d.vp.handles.find? e with | some h => h.height | none => 1)
    | none => 1
  let valid := if x.newest < number + h then line :: x.valid.filter (fun k => k != line) else x.valid
  { d with vp := { d.vp with rolls := d.vp.rolls.put l { x with valid := valid, done := max x.done number } } }.incI Ix.vpRollLines l

/-- Traces lost to a gap advance the ring by the lines they would have given, which stay invalid (R247). -/
def Dev.rollLost (d : Dev) (src : Nat) : Dev :=
  (List.range 3).foldl (fun (a : Dev) l =>
    if a.nI Ix.vpRoll l = 0 || a.nI Ix.vpRollSrc l != src then a
    else
      let x := a.vp.rolls.get {} l
      let x := { x with traces := x.traces + 1 }
      if x.traces % max (a.nI Ix.vpRollEvery l) 1 != 0 then { a with vp := { a.vp with rolls := a.vp.rolls.put l x } }
      else
        let n := x.newest + 1
        let h := match a.handleEntry (a.nI Ix.vpLayerHandle l) with
          | some e => (match a.vp.handles.find? e with | some h => h.height | none => 1)
          | none => 1
        let x := { x with newest := n, valid := x.valid.filter (fun k => k != n % h) }
        { a with vp := { a.vp with rolls := a.vp.rolls.put l x } }.incI Ix.vpRollLost l) d

/-- A trace of a spectral layer at every roll layer fed by it. -/
def Dev.rollTrace (d : Dev) (src time : Nat) (pts : List Int) : Dev :=
  (List.range 3).foldl (fun (a : Dev) l =>
    if a.nI Ix.vpRoll l != 0 && a.nI Ix.vpRollSrc l == src then a.rollLine l time pts else a) d

/-! ### Cuts -/

/-- The Viewport's part of a commit's checks (R232, R240). -/
def Dev.vpCheck (d old : Dev) : Option Nat :=
  let m := d.n0 Ix.vpMode
  let tm := d.timing 0x10
  let bad := tm.1 < 25000 || 600000 < tm.1 || 3840 < tm.2.1 || 2160 < tm.2.2.1 || tm.2.2.2.1 < tm.2.1 + 80 || tm.2.2.2.2 < tm.2.2.1 + 8 ||
    tm.2.1 = 0 || tm.2.2.1 = 0
  if m = 0x10 && bad then some Code.timingRange
  else if 6 < m && m != 0x10 then some Code.valueRange
  else if !(d.n0 Ix.vpBpc = 6 || d.n0 Ix.vpBpc = 8 || d.n0 Ix.vpBpc = 10) then some Code.valueRange
  else if d.n0 Ix.vpPoolSize != old.n0 Ix.vpPoolSize && !old.vp.handles.isEmpty then some Code.poolInUse
  else if d.n0 Ix.vpPoolSize != old.n0 Ix.vpPoolSize && d.fullService && ((d.release 0x10 0).alloc 0x10 0 (d.n0 Ix.vpPoolSize * 1048576) false).isNone then
    some Code.csNoMemory
  else none

/-- The Viewport applies its part of a cut: a change of mode, depth or user timing retrains the link; a new pool size is taken
from capture memory (R240, R243). -/
def Dev.vpCut (d old : Dev) : Dev :=
  let modeChg := old.n0 Ix.vpMode != d.n0 Ix.vpMode || old.n0 Ix.vpBpc != d.n0 Ix.vpBpc ||
    (List.range 10).any (fun i => old.nI Ix.vpUserTiming i != d.nI Ix.vpUserTiming i)
  let d := if modeChg then d.train else d
  if old.n0 Ix.vpPoolSize != d.n0 Ix.vpPoolSize && d.fullService then
    match (d.release 0x10 0).alloc 0x10 0 (d.n0 Ix.vpPoolSize * 1048576) false with
    | some (_, e) => e.poolReport
    | none => d
  else d

end Sys2Proof.Machine
end

