-- ==== Sys2Proof/Machine/Frames.lean ====
section
/-! DEFINITION. Frames of the Spectral Engine on their way to masks, planes, traces and the Viewport; plane exports
(06_spectral_engine.md, 08_density_engine.md). -/

namespace Sys2Proof.Machine

/-! ### The samples of a frame (R17, R141, R154) -/

/-- Sample i of a layer's source, if it has come. -/
def Dev.layerSample (d : Dev) (l i : Nat) : Option Sample := d.sampleOf (d.layerSource l) i

/-- Whether the source of a layer has ended, and whether sample i has come, or will not come. -/
def Dev.layerDead (d : Dev) (l : Nat) : Bool := d.sourceDead (d.layerSource l)
def Dev.layerKnown (d : Dev) (l i : Nat) : Bool := d.sampleKnown (d.layerSource l) i

/-- The flags of a run of samples, as in header slot 5 bits 39 to 34 (R119, R141). -/
def sampleFlags (l : List Sample) : Nat :=
  let bit (k : Nat) (b : Bool) : Nat := if b then 2 ^ k else 0
  bit 7 (l.any (fun s => s.ovr != 0)) + bit 6 (l.any (·.crc)) + bit 5 (l.any (·.unsettled)) + bit 4 (l.any (·.sat)) + bit 2 (l.any (·.truncated))

/-- The cause of the samples that a layer misses in frames from m on (R154). -/
def Dev.layerCause (d : Dev) (l m : Nat) : Nat := d.missingCause (d.layerSource l) (d.frameTime l m)

/-! ### Frames and traces (R147, R153 to R156) -/

/-- A frame whose bins are computed, under a setting `cfg`, goes to the layer's masks, its plane and the trace it belongs to: a trace starts
at a multiple of C, and never before the present grid does (R147, R153, R155, R181, R214). -/
def Dev.frameComputed (d cfg : Dev) (l m : Nat) (bins : List (Int × Int)) (flags exponent : Nat) (old : Bool) : Dev :=
  let pw := bins.map pwr48
  let sat := (pw.filter (·.2)).length
  let logs := pw.map (fun x => log16 x.1)
  let tm := cfg.frameTime l m
  let centre := cfg.layerTime l (m * cfg.layerHop l + cfg.layerN l / 2)
  let d := (d.incI Ix.speFrames l).binsSaturated l sat
  let d := (d.layerMasks l).foldl (fun (a : Dev) k => a.maskFrame k logs flags centre) d
  let d := if d.feedsAt l tm then d.densityFrame (l / 4) logs flags tm centre (decide (cfg.nI Ix.speWidth (l / 4) < 32)) else d
  let x := d.layer l
  let c := cfg.traceLen l
  match (if old then x.oldTrace else none) with
  | some tr => d.setLayer l { x with oldTrace := some (cfg.joinTrace l m tr pw bins flags exponent) }
  | none =>
    if m / c * c < x.start then d
    else
      let d := if x.trace.first.any (fun f => f / c != m / c) then
          (d.traceEmit cfg l x.trace false).setLayer l { (d.traceEmit cfg l x.trace false).layer l with trace := {} }
        else d
      let y := d.layer l
      d.setLayer l { y with trace := cfg.joinTrace l m y.trace pw bins flags exponent }

/-- Whether the share of a core is lost: it failed, or is repointed with no standby, and the other cores do not carry the lane (R163, R166). -/
def Dev.shareGone (d : Dev) (core : Nat) : Bool :=
  let covered : Bool := d.n0 Ix.speStandbyFor == core && decide (d.spe.shareLost.get 0 core ≤ d.now)
  let away : Bool := d.spe.coreFailed.contains core || d.nI Ix.speCoreState core == 3
  let spare := if d.spe.coreFailed.contains core then 0 else 8 * d.clockKHz 3 * 1000000
  away && !covered && decide (d.coresCarry (core / 8) < d.laneCost (core / 8) + spare)

/-- Frame m of a layer completes under a setting, on a core: lost with the core's share or with its source's samples, or computed (R154,
R159, R163). A frame that an ended source cannot complete is filled with zeros and TRUNCATED. -/
def Dev.frameDone (d cfg : Dev) (l m core : Nat) (bins : List (Int × Int)) (exponent : Nat) (old : Bool) : Dev :=
  let at_ (k : Nat) : Nat := m * cfg.layerHop l + k
  let got := (List.range (cfg.layerN l)).map (fun k => cfg.layerSample l (at_ k))
  if !(List.range (cfg.layerN l)).all (fun k => cfg.layerKnown l (at_ k)) then d
  else
    let gap := got.any (·.isNone)
    let cut := gap && old && cfg.layerDead l
    let x := d.layer l
    let from_ := if old then x.oldNext.getD m else x.next.getD m
    -- frames before it that did not complete are one gap
    let d := if from_ < m then cfg.layerGapOn d l from_ (m - from_) (cfg.layerCause l from_) old else d
    if d.shareGone core then cfg.layerGapOn d l m 1 10 old
    else if gap && !cut && cfg.nI Ix.speGapPolicy l = 0 then cfg.layerGapOn d l m 1 (cfg.layerCause l m) old
    else
      let flags := sampleFlags (got.filterMap id) + (if gap && !cut then 8 else 0)
      let flags := if cut then Nat.lor flags 4 else flags
      let y := d.layer l
      (d.setLayer l (if old then { y with oldNext := some (m + 1) } else { y with next := some (m + 1) })).frameComputed cfg l m bins flags exponent old

/-- The device as a frame of the setting before a cut sees it: that setting, and the outputs of its DDC's grid (R159). -/
def Dev.oldView (d : Dev) (l : Nat) : Dev :=
  let e := d.overlay (d.layer l).old
  match e.layerDdc l with
  | some n => if e.fIn n = d.fIn n then e else { e with chn := { e.chn with output := e.chn.outputOld } }
  | none => e

/-- SPE_FRAME_DONE: frame m of a layer completes on a core: its bins X / Σw in units of 2^-30 within the noise of R150, its block exponent, and
memory errors that the core and the layer pools have corrected since the last (R141, R147, R154, R155, R162). -/
def execSpeFrameDone (t layer m core : Nat) (bins : List (Int × Int)) (exponent eccCore eccPool : Nat) (s : State) : Res :=
  runIf (layer < 16 && core < 33) t s fun d =>
    let d := if eccCore = 0 then d else d.incI Ix.speEccCorrected core eccCore
    let d := if eccPool = 0 then d else d.incI Ix.speEccCorrected 33 eccPool
    let x := d.layer layer
    if d.oldFrame layer m then
      let d := d.frameDone (d.oldView layer) layer m core bins exponent true
      let y := d.layer layer
      let until_ := y.oldUntil.getD 0
      if until_ ≤ (d.overlay y.old).frameTime layer (y.oldNext.getD m) then d.oldDone layer else d
    else if d.nI Ix.speLayerSrc layer = 0 || x.next.any (m < ·) || x.drain.any (fun b => b ≤ d.frameTime layer m) then d
    else
      let d := d.frameDone d layer m core bins exponent false
      match (d.layer layer).drain with
      | some b => if b ≤ d.frameTime layer ((d.layer layer).next.getD m) then d.layerStopped layer else d
      | none => d

/-- TRACE_CLOSE: the open trace closes at its frame boundary, and gives a roll line (R153, R156, R246). A trace without a frame is not
emitted; it advances the roll rings by the line it would have given (R247). -/
def execTraceClose (t layer : Nat) (s : State) : Res := runIf (layer < 16) t s fun d =>
  let x := d.layer layer
  let c := d.traceLen layer
  let next := x.next.getD 0
  if d.nI Ix.speLayerSrc layer = 0 then d
  else match x.trace.first with
    | none => if next % c = 0 && x.start < next then d.rollLost layer else d
    | some f =>
      if next < (f / c + 1) * c then d
      else
        let logs := d.traceLogs layer x.trace
        let d := d.traceEmit d layer x.trace false
        (d.setLayer layer { d.layer layer with trace := {} }).rollTrace layer (d.frameTime layer f) logs

/-- Index under the linear map (R219). -/
def linearIndex (full c : Nat) : Nat := if c = 0 then 0 else min 255 (max 1 (roundEven ((255 * c : Nat) : Int) (max full 1)).toNat)

/-- log2 of a count to 16 fractional bits, rounded to the nearest (R219). -/
def log2Frac (c : Nat) : Nat := ((c ^ 131072).log2 + 1) / 2

/-- Index under the log map (R219). -/
def logIndex (full c : Nat) : Nat :=
  if c = 0 then 0 else if full ≤ 1 then 255
  else min 255 (1 + (roundEven ((254 * log2Frac c : Nat) : Int) (max (log2Frac full) 1)).toNat)

/-- Payload bytes of a cell in an export format. -/
def cellBytes (format full c : Nat) : List Byte :=
  if format = 1 then leBytes 4 c else leBytes 1 (if format = 2 then linearIndex full c else logIndex full c)

/-- The payload of an export: row by row, column 0 first (R220). -/
def planePayload (cells : Tab Nat) (n format full : Nat) : List Byte :=
  ((List.range n).map (fun k => cellBytes format full (cells.get 0 k))).flatten

/-- The handles a plane writes into (R222). -/
def Dev.planeHandle (d : Dev) (p which : Nat) : Nat := if which = 0 then d.nI Ix.denVpHandleA p else d.nI Ix.denVpHandleB p

/-- The rows of an I8 export set out for the handle that the plane did not commit last, if it is free (R222). -/
def Dev.planeToViewport (d : Dev) (p w rows time : Nat) (pay : List Byte) : Dev :=
  let vl := d.nI Ix.denVpLayer p
  if 3 ≤ vl then d
  else
    let which := 1 - (d.plane p).lastHandle
    let id := d.planeHandle p which
    let skip : Dev := (d.incI Ix.denExportsSkipped p).raise 4 Code.exportSkipped
    match d.handleEntry id with
    | none => skip
    | some e => match d.vp.handles.find? e with
      | none => skip
      | some h =>
        if d.shownHandles.contains id || d.namedHandles.contains id || d.vp.freeing.contains e then skip
        else (List.range rows).foldl (fun (a : Dev) r =>
          a.ask (6 * 2 ^ 24 + p) ⟨.row p (h.offset + r * h.stride) which id (r + 1 == rows), time, time, 0, (pay.drop (r * w)).take w⟩)
          (d.setPlane p { d.plane p with rowLost := false })

/-- The last row of an export has been written: the plane commits the handle when none was lost (R222). -/
def Dev.planeCommits (d : Dev) (p which id : Nat) : Dev :=
  if (d.plane p).rowLost then d
  else (d.setPlane p { d.plane p with lastHandle := which }).commitPart (d.nI Ix.denVpLayer p)
    [⟨Ix.vpLayerHandle, d.nI Ix.denVpLayer p + 1, 0, (id : Int)⟩]

/-- The plane record of the settled buffer (Table 8.1). -/
def Dev.planeRecord (d : Dev) (p : Nat) (pay : List Byte) : Rec :=
  let x := d.plane p
  let c (i : Nat) : Nat := x.closed.getD i 0
  let g (i : Nat) : Nat := x.setting.getD i 0
  let full := if g 10 = 1 then 0 else if g 11 = 0 then c 8 else g 11
  mkRec [(0x0E80, p * 2 ^ 40 + g 10 * 2 ^ 36 + (d.nI Ix.denPlaneFrames p - 1) % 2 ^ 32),
    (0x0E81, sec48 (c 0)), (0x0E82, frac48 (c 0)),
    (0x0E83, g 0 * 2 ^ 32 + g 1 * 2 ^ 16 + g 2 * 2 ^ 8 + g 3 * 2 ^ 7 + g 4 * 2 ^ 6 + g 5),
    (0x0E84, g 6 * 2 ^ 24 + g 7 % 4 * 2 ^ 22 + g 8),
    (0x0E85, g 9 * 2 ^ 32 + full),
    (0x0E86, c 1), (0x0E87, c 2), (0x0E88, c 3), (0x0E89, c 4), (0x0E8A, c 5), (0x0E8B, c 8), (0x0E8C, c 6),
    (0x0E8D, Nat.lor (c 7) (if g 12 = 1 then 256 else 0)),
    (0x0E8E, d.hash48), (0x0E8F, pay.length / 8)] pay

/-- A plane record that the hod buffer could take only in part: bit 1 of slot 13, and the payload that it kept (R221). -/
def shortRecord (r : Rec) (kept : Nat) : Rec :=
  { slots := r.slots.map (fun p => if p.1 = 0x0E8D then (p.1, Nat.lor p.2 2) else if p.1 = 0x0E8F then (p.1, kept / 8) else p)
    payload := r.payload.take kept }

/-- PLANE_EXPORT: the settled buffer sets out for the plane's ring and its Viewport handle (R219 to R222). -/
def execPlaneExport (t plane : Nat) (s : State) : Res := runIf (plane < 4) t s fun d =>
  let x := d.plane plane
  if !x.exportDue then d
  else
    let g (i : Nat) : Nat := x.setting.getD i 0
    let full := if g 11 = 0 then x.closed.getD 8 0 else g 11
    let pay := planePayload x.settled (g 0 * g 1) (g 10) full
    let d := d.setPlane plane { x with exportDue := false }
    let d := (d.emitTo (d.nI Ix.denRing plane) 0 (d.planeRecord plane pay)).incI Ix.denExports plane
    if g 10 = 1 then d else d.planeToViewport plane (g 0) (g 1) (x.closed.getD 0 0) pay

/-! ### Checks and claims -/

/-- Why a plane's part of a set is rejected, if it is (R210, R211, R216, R222, R230). -/
def Dev.planeCheck (d : Dev) (p : Nat) : Option Nat :=
  let w := d.planeW p
  let r := d.planeR p
  let l := d.nI Ix.denLayer p
  let vl := d.nI Ix.denVpLayer p
  let per := d.nI Ix.denPeriod p
  let handleOk (id : Nat) : Bool := match d.handleEntry id with
    | some e => (match d.vp.handles.find? e with
      | some h => h.format == 1 && decide (w ≤ h.width) && decide (r ≤ h.height)
      | none => false)
    | none => false
  if !isPow2 w || w < 64 || 4096 < w || r % 16 != 0 || r < 16 || 1024 < r || 1048576 < w * r then some Code.denGeometry
  else if l != 0xFF && (3 < l || d.nI Ix.speLayerSrc (4 * p + l) = 0) then some Code.denLayer
  else if d.nI Ix.denRowStep p = 0 || 4096 < d.nI Ix.denRowStep p || 32 < d.nI Ix.denDecay p || per < 100000 || 10000000000 < per ||
      3 < d.nI Ix.denExportFormat p || d.nI Ix.denExportEvery p = 0 || 14 < d.nI Ix.denColShift p || 1 < d.nI Ix.denHitMode p ||
      1 < d.nI Ix.denClip p then some Code.denParam
  else if l != 0xFF && d.layerN (4 * p + l) < d.nI Ix.denBinFirst p + w * 2 ^ d.nI Ix.denColShift p then some Code.denBinRange
  else if vl != 0xFF && (2 < vl || d.nI Ix.denExportFormat p = 1 || !handleOk (d.planeHandle p 0) || !handleOk (d.planeHandle p 1) ||
      (List.range 4).any (fun q => q != p && d.nI Ix.denVpLayer q == vl)) then some Code.vpHandle
  else none

/-- Why a threshold's part is rejected, if it is (R223). -/
def Dev.thrCheck (d : Dev) (t : Nat) : Option Nat :=
  let p := t / 4
  if d.planeW p ≤ d.nI Ix.denThrColHi t || d.planeR p ≤ d.nI Ix.denThrRowHi t || d.nI Ix.denThrColHi t < d.nI Ix.denThrColLo t ||
      d.nI Ix.denThrRowHi t < d.nI Ix.denThrRowLo t || 2 < d.nI Ix.denThrKind t then some Code.thrRegion
  else none

/-- The Density Engine's part of a commit's checks. -/
def Dev.denCheck (d : Dev) (writes : List SWrite) : Option Nat :=
  let d := (List.range 16).foldl (fun (a : Dev) l =>
    if (a.layer l).drain.isSome && (stagedValue writes Ix.speLayerSrc (l + 1) 0).isNone then a.wI Ix.speLayerSrc l 0 else a) d
  firstCode ((List.range 4).map d.planeCheck ++ (List.range 16).map d.thrCheck)

/-- The plane that claims a Viewport layer; 0xFF none (R244). -/
def Dev.claimOf (d : Dev) (l : Nat) : Nat := ((List.range 4).find? (fun p => d.nI Ix.denVpLayer p == l)).getD 0xFF

/-- `vp.layer_claim` follows the planes. -/
def Dev.claimReport (d : Dev) : Dev := (List.range 3).foldl (fun (a : Dev) l => a.wI Ix.vpLayerClaim l (a.claimOf l)) d

end Sys2Proof.Machine
end

