-- ==== Sys2Proof/Machine/Rings.lean ====
section
/-! DEFINITION. Stream Engine: delivery rings and the host endpoint (11_stream_engine.md, R287 to R299, R315, R316). -/

namespace Sys2Proof.Machine

def Dev.ring (d : Dev) (r : Nat) : RingSt := d.str.rings.get {} r
def Dev.setRing (d : Dev) (r : Nat) (x : RingSt) : Dev := { d with str := { d.str with rings := d.str.rings.set {} r x } }
def Dev.ringState (d : Dev) (r : Nat) : Nat := d.nW Ix.strRingState r
def Dev.setRingState (d : Dev) (r v : Nat) : Dev := d.wW Ix.strRingState r v
def Dev.post (d : Dev) (p : Post) : Dev := { d with str := { d.str with posts := d.str.posts ++ [p] } }

/-- A Stream Engine event record (R318). -/
def Dev.strEvent (d : Dev) (kind obj a b : Nat) : Dev :=
  let (n, d) := d.nextSeq 8
  let tm := d.time96
  d.emit 8 (mkRec [(0x1040, kind * 2 ^ 40 + obj * 2 ^ 24 + n % 2 ^ 24), (0x1041, sec48 tm), (0x1042, frac48 tm), (0x1043, a), (0x1044, b)])

/-- Slots of a ring (R291). -/
def Dev.ringSlots (d : Dev) (r : Nat) : Nat := 2 ^ (d.nW Ix.strRingSizeLog2 r - 3)

/-- Length of a record in slots. -/
def recSlots (x : Rec) : Nat := x.slots.length + ceilDiv x.payload.length 8

/-- The tag of a record. -/
def recTag (x : Rec) : Nat := (x.slots.getD 0 (0, 0)).1
def recValue (x : Rec) (i : Nat) : Nat := (x.slots.getD i (0, 0)).2
/-- The TIME96 in slots 1 and 2 of a record: that of its item. -/
def recTime (x : Rec) : Nat := recValue x 1 * two48 + recValue x 2

/-- Bytes a record takes in a backlog: the data of a take is referenced, not copied (R294, R299). -/
def recBacklog (x : Rec) : Nat :=
  8 * recSlots x - (match x.slots.find? (fun p => p.1 == 0x1008) with | some p => ceilDiv p.2 8 * 8 | none => 0)

/-- The unit a producer counts its losses in (Table 11.5). -/
def unitOfTag (tag : Nat) : Nat := if tag = 0x0E00 then 3 else if tag = 0x0E80 then 7 else if tag = 0x0F00 then 6 else 4

/-- A producer's count of lost records; 0 where it has none. -/
def lostOfTag (tag island : Nat) : Nat :=
  let k := tag / 16
  if k = 0x0F4 then Ix.trgEventsLost else if k = 0x106 then Ix.vpEventsLost else if k = 0x107 then Ix.capEventsLost
  else if k = 0x104 || k = 0x105 then Ix.strEventsLost else if k = 0x110 then Ix.tbEventsLost
  else if k / 16 = 0x12 then Ix.imRecordsLost else if k = 0x130 then Ix.cfEventsLost else if k = 0x140 then Ix.pwrEventsLost
  else if k = 0x150 then Ix.calEventsLost else if k = 0x160 || k = 0x161 then Ix.ctrRecordsLost
  else if k = 0x0C0 then (eventRingOf island).2 else 0

/-- The hod write stream a record comes by (R24, R499): a layer's own, a take's log by reference, else the ring's backlog. -/
def recStream (ring : Nat) (x : Rec) : Nat :=
  if recTag x = 0x0E00 then 5 * 2 ^ 24 + recValue x 0 / 2 ^ 38 % 64
  else if recTag x = 0x0E80 then 6 * 2 ^ 24 + recValue x 0 / 2 ^ 40
  else if recTag x = 0x0F00 then 2 * 2 ^ 24 + recValue x 0 / 2 ^ 40
  else 9 * 2 ^ 24 + ring

/-- The producer of a record counts it lost (R294, R296). -/
def Dev.producerLost (d : Dev) (x : Rec) : Dev :=
  let ix := lostOfTag (recTag x) (recValue x 0 / 2 ^ 40)
  if ix = 0 || x.remote then d else d.inc0 ix

/-- A record bound for a ring is discarded: counted at the ring and at its producer, to be marked by a gap (R294). -/
def Dev.ringLose (d : Dev) (r cause : Nat) (x : Rec) : Dev :=
  let y := d.ring r
  let d := d.setRing r { y with
    losses := addLoss ⟨recTag x, unitOfTag (recTag x), recTime x, 1, cause, recStream r x⟩ y.losses }
  let d := (d.producerLost x).tally 0x0811 0 1
  if cause = 5 then d.incW Ix.strRingDropped r else d

/-- Slots are written into a ring's target at a position (Table 11.3). -/
def Dev.ringStore (d : Dev) (r pi : Nat) (x : Rec) (m : Mem) : Mem × Dev :=
  let at_ := pi % d.ringSlots r * 8
  let tgt := d.nW Ix.strRingTarget r
  if tgt = 0 then (m, (d.post (.slots r (d.nW Ix.strRingBase r + at_) x)).tally 0x0810 0 (8 * recSlots x))
  else if tgt = 1 then
    match d.allocOf 0x13 (2 * r + 1) with
    | some a => (d.writeAlloc a at_ (pad8 (recBytes x)) m, d)
    | none => (m, d)
  else
    let d := d.setRing r { d.ring r with written := (d.ring r).written ++ [(pi, x)] }
    (m, if tgt = 3 && recTag x != 0x100F then d.cfRecord r (d.nW Ix.strRingBytes r) ((pi + recSlots x) % 2 ^ 32) (recBytes x) else d)

/-- A pad record of some slots (R291). -/
def padRec (n : Nat) : Rec := mkRec [(0x100F, n)] (List.replicate (8 * (n - 1)) 0)

/-- A record is written at pi while space allows, a pad before it where it would pass the end (R291). -/
def Dev.ringPut (d : Dev) (r : Nat) (x : Rec) (m : Mem) : Option (Mem × Dev) :=
  let s := d.ringSlots r
  let pi := d.nW Ix.strRingPi r
  let free := s - (pi + 2 ^ 32 - d.nW Ix.strRingCi r) % 2 ^ 32
  let n := recSlots x
  let pos := pi % s
  let pad := if s < pos + n then s - pos else 0
  if free < pad + n then none
  else
    let q := if pad = 0 then (m, d) else d.ringStore r pi (padRec pad) m
    let p := q.2.ringStore r ((pi + pad) % 2 ^ 32) x q.1
    let d := (p.2.wW Ix.strRingPi r ((pi + pad + n) % 2 ^ 32)).incW Ix.strRingBytes r (8 * (pad + n))
    let y := d.ring r
    some (p.1, d.setRing r { y with since := y.since + 1, oldest := if y.since = 0 then d.now else y.oldest })

/-- The gap marker of a channel that covers a position, among the records of a trailer or log. -/
def gapAt (l : List Rec) (c j : Nat) : Option Rec :=
  l.find? (fun r => recTag r == 0x1000 && recValue r 0 / 2 ^ 32 % 16 == c && recValue r 4 ≤ j && j < recValue r 4 + recValue r 3)

/-- A take's record with its data read from the magazine as it is written: positions that can no longer be read are zeros, and the delivered
trailer marks them, one marker for gaps that touch (R298, R299). -/
def Dev.takeRead (d : Dev) (x : Rec) (m : Mem) : Rec :=
  let k := recValue x 0 / 2 ^ 40
  let mine (t : Take) : Bool := t.complete && t.seq == recValue x 13 && t.index == recValue x 0 % 2 ^ 31
  match (if recTag x = 0x0F00 && !x.remote && (d.allocOf 2 k).isSome then (d.mag k).takes.find? mine else none) with
  | none => x
  | some tk =>
    let log := tk.logged.getD ({ slots := [] }, [], false)
    let chans := List.range (d.magChans k).length
    let pos (j : Nat) : Nat := tk.trig + j - tk.pre
    let cause (c j : Nat) : Nat := match gapAt log.2.1 c j with
      | some r => recValue r 0 / 2 ^ 40
      | none => if j < tk.pre - tk.valid then 0 else d.posLoss k c (pos j) tk
    let js := List.range (d.takeHeld k tk)
    let runs := chans.flatMap fun c => ((runsFrom 0 (js.map (fun j => cause c j != 0))).filter (fun r =>
      (List.range r.2).any (fun i => (gapAt log.2.1 c (r.1 + i)).isNone))).map (fun r => (c, r))
    let inRun (y : Rec) : Bool := recTag y == 0x1000 && runs.any (fun q =>
      q.1 == recValue y 0 / 2 ^ 32 % 16 && q.2.1 ≤ recValue y 4 && recValue y 4 < q.2.1 + q.2.2)
    let new := runs.map fun q => gapMarker (cause q.1 q.2.1) 1 q.1 (3 * 2 ^ 24 + k) (d.magTime k (pos q.2.1)) q.2.2 q.2.1
    let n := log.2.1.length - 1
    takeRecord ⟨log.1, chans.flatMap fun c => js.flatMap fun j => d.storedSample k c (pos j) tk m,
      (log.2.1.take n).filter (fun y => !inRun y) ++ new ++ log.2.1.drop n⟩

/-- Gap markers of a ring's losses, one of each producer's stream, before the next record, with its discard record (R158, R294, R318). One of
cause 5 names the ring (R297). -/
def Dev.ringMarkers (r : Nat) : List Loss → Mem → Dev → Option (Mem × Dev)
  | [], m, d => some (m, d)
  | l :: ls, m, d =>
    (d.ringPut r (gapMarker l.cause l.unit 0 (if l.cause = 5 then r else l.stream) l.first l.count 0) m).bind fun q =>
      let d := q.2.setRing r { q.2.ring r with losses := (q.2.ring r).losses.filter (fun x => x != l) }
      Dev.ringMarkers r ls q.1 (d.strEvent 0x07 r l.count l.cause)

/-- Whether a ring delivers now. -/
def Dev.ringRuns (d : Dev) (r : Nat) : Bool :=
  (d.ringState r == 1 || d.ringState r == 3) && (d.nW Ix.strRingTarget r != 0 || d.str.linkUp) && !d.str.suspended

/-- The backlog of a ring is delivered while space allows; under drop a record that finds no space is discarded (R294). -/
def Dev.ringDrain (r : Nat) : Nat → Mem → Dev → Mem × Dev
  | 0, m, d => (m, d)
  | k + 1, m, d =>
    match (d.ring r).backlog with
    | [] => (m, d)
    | y :: rest =>
      let x := d.takeRead y m
      let pop (d : Dev) : Dev := d.setRing r { d.ring r with backlog := rest }
      let put := if d.ringRuns r then
          (match Dev.ringMarkers r (d.ring r).losses m d with
           | some q => q.2.ringPut r x q.1
           | none => none)
        else none
      match put with
      | some q => Dev.ringDrain r k q.1 ((pop q.2).portServe 16 (8 * recSlots x))
      | none =>
        if d.nW Ix.strRingPolicy r = 1 then (m, d)
        else Dev.ringDrain r k m ((pop d).ringLose r 5 x)

/-- The producer index is written back at the end of a group (R292). -/
def Dev.ringWriteBack (d : Dev) (r : Nat) : Dev :=
  let y := d.ring r
  let pi := d.nW Ix.strRingPi r
  let more := !(d.onTheWay r).isEmpty
  if y.piWb = pi || (more && (pi + 2 ^ 32 - y.piWb) % 2 ^ 32 < 8192) then d
  else
    let d := d.setRing r { y with piWb := pi }
    if d.nW Ix.strRingTarget r = 0 && d.nW Ix.strRingWb r != 0 then d.post (.index r (d.nW Ix.strRingWb r) pi) else d

/-- A ring's backlog goes as far as it may. -/
def Dev.ringDeliver (d : Dev) (r : Nat) (m : Mem) : Mem × Dev :=
  let q := Dev.ringDrain r ((d.ring r).backlog.length + 1) m d
  (q.1, q.2.ringWriteBack r)

/-- Bytes in a ring's backlog. -/
def Dev.ringHeld (d : Dev) (r : Nat) : Nat := ((d.ring r).backlog.map recBacklog).sum

/-- The oldest record bound for a ring, and what is left. -/
def takeFor (r : Nat) : List (Nat × Rec) → Option (Rec × List (Nat × Rec))
  | [] => none
  | p :: l => if p.1 = r then some (p.2, l) else (takeFor r l).map (fun q => (q.1, p :: q.2))

/-- A record that has left the hod buffer enters its ring's backlog (R291, R294, R500). -/
def Dev.ringAccept (d : Dev) (r : Nat) (x : Rec) : Dev :=
  if d.ringState r = 5 then d.ringLose r 5 x
  else if !d.ringTakes r then d.producerLost x
  else if d.ringSlots r / 2 < recSlots x then d.ringLose r 5 x
  else if (d.ring r).limit < d.ringHeld r + recBacklog x || (d.fullService && d.n0 Ix.capState = 4) then d.ringLose r 5 x
  else d.setRing r { d.ring r with backlog := (d.ring r).backlog ++ [x] }

/-- RING_RECORD: the oldest record that the hod buffer has given for the ring enters its backlog and goes on (R294). -/
def execRingRecord (t ring : Nat) (s : State) : Res := runMemIf (ring < 65536) t s fun m d =>
  match takeFor ring d.out.arrived with
  | none => (m, d)
  | some p => ({ d with out := { d.out with arrived := p.2 } }.ringAccept ring p.1).ringDeliver ring m

/-- RING_SPACE_AVAILABLE (R291, R294). -/
def execRingSpaceAvailable (t ring : Nat) (s : State) : Res := runMemIf (ring < 65536) t s fun m d => d.ringDeliver ring m

/-- A doorbell: ci advances; one that moves backwards or passes pi is ignored (R292). -/
def Dev.doorbell (d : Dev) (path r ci : Nat) : Dev :=
  let was := d.nW Ix.strRingCi r
  if (d.nW Ix.strRingPi r + 2 ^ 32 - was) % 2 ^ 32 < (ci % 2 ^ 32 + 2 ^ 32 - was) % 2 ^ 32 then d.raise path Code.ringDoorbell
  else d.wW Ix.strRingCi r (ci % 2 ^ 32)

/-- RING_DOORBELL (R292). -/
def execRingDoorbell (t ring ci : Nat) (s : State) : Res := runIf (ring < 65536) t s fun d => d.doorbell 2 ring ci

/-! ### MSI-X (R287, R293) -/

/-- A word of the MSI-X table; every vector is masked until the host unmasks it (PRESUMED, log entry 10). -/
def Dev.msixWord (d : Dev) (k : Nat) : Nat := d.str.msix.get (if k % 4 = 3 then 1 else 0) k
def Dev.setMsixWord (d : Dev) (k v : Nat) : Dev :=
  { d with str := { d.str with msix := d.str.msix.set (if k % 4 = 3 then 1 else 0) k v } }

/-- A message of a vector is sent, or set pending while the vector is masked. -/
def Dev.msixSend (d : Dev) (v : Nat) : Dev :=
  if bitOf (d.msixWord (4 * v + 3)) 0 then
    { d with str := { d.str with msixPending := if d.str.msixPending.contains v then d.str.msixPending else d.str.msixPending ++ [v] } }
  else (d.post (.message v (d.msixWord (4 * v) + 2 ^ 32 * d.msixWord (4 * v + 1)) (d.msixWord (4 * v + 2)))).tally 0x0814 0 1

/-- MSIX_MESSAGE: a ring's message, if it is due by count or by time (R293). -/
def execMsixMessage (t ring : Nat) (s : State) : Res := runIf (ring < 65536) t s fun d =>
  let y := d.ring ring
  let v := d.nW Ix.strRingVector ring
  let n := d.nW Ix.strRingModCount ring
  let u := d.nW Ix.strRingModUs ring
  let due := y.since != 0 && ((n != 0 && decide (n ≤ y.since)) || (u != 0 && decide (y.oldest + us u ≤ d.now)))
  if due && v < 2048 && y.piWb = d.nW Ix.strRingPi ring then
    (d.setRing ring { y with since := 0, piMsg := d.nW Ix.strRingPi ring }).msixSend v
  else d

/-- A vector is unmasked; its pending message goes (R293). -/
def Dev.msixUnmask (d : Dev) (v : Nat) : Dev :=
  let d := d.setMsixWord (4 * v + 3) (setBitTo (d.msixWord (4 * v + 3)) 0 false)
  if d.str.msixPending.contains v then
    { d with str := { d.str with msixPending := d.str.msixPending.filter (fun x => x != v) } }.msixSend v
  else d

/-- MSIX_UNMASK (R293). -/
def execMsixUnmask (t vector : Nat) (s : State) : Res := runIf (vector < 2048) t s fun d => d.msixUnmask vector

/-! ### Ring commands (R296) -/

/-- `str.rings_open` counts the rings that are not closed. -/
def Dev.ringLeaves (d : Dev) (r : Nat) : Dev :=
  let d := if d.ringState r = 0 then d else d.w0 Ix.strRingsOpen (d.n0 Ix.strRingsOpen - 1)
  d.setRingState r 0

/-- A ring's backlog is discarded, every record counted. -/
def Dev.ringDiscard (d : Dev) (r : Nat) : Dev :=
  let l := (d.ring r).backlog
  l.foldl (fun (a : Dev) x => a.ringLose r 5 x) (d.setRing r { d.ring r with backlog := [] })

/-- A ring closes: what is left is discarded, its memory freed (R296). -/
def Dev.ringClose (d : Dev) (r : Nat) : Dev :=
  let d := ((d.ringDiscard r).release 0x13 (2 * r)).release 0x13 (2 * r + 1)
  (d.setRing r {}).ringLeaves r

/-- Why an open is refused, if it is (R290, R295, R296). -/
def Dev.ringRefusal (d : Dev) (r : Nat) : Option Nat :=
  let tgt := d.nW Ix.strRingTarget r
  let v := d.nW Ix.strRingVector r
  let b := d.nW Ix.strRingBacklog r
  let sz := d.nW Ix.strRingSizeLog2 r
  let base := d.nW Ix.strRingBase r
  if sz < 12 || 32 < sz || b < 64 || 1048576 < b || (v != 0xFFFF && 2047 < v) || d.nW Ix.strRingWb r % 8 != 0 ||
      (tgt = 0 && base % 4096 != 0) || 3 < tgt || 1 < d.nW Ix.strRingPolicy r then some Code.ringParam
  else if 1 < tgt && !d.fullService then some Code.rushesUnavailable
  else if tgt = 1 && !d.fullService then some Code.ringTarget
  else if tgt = 2 && !(d.nW Ix.strReelState (base % 4096) == 1 || d.nW Ix.strReelState (base % 4096) == 2) then some Code.ringTarget
  else if tgt = 3 && !d.remoteJoined (base / 2 ^ 32 % 1024) then some Code.ringTarget
  else none

/-- Rings whose backlog lies in queue memory (R315). -/
def Dev.ringsInQueue (d : Dev) : Nat := (d.str.rings.filter (fun p => p.2.queueMem)).length

/-- The backlog and the device buffer of an opening ring (R294, R295, R315). -/
def Dev.ringMemory (d : Dev) (r : Nat) : Option Dev :=
  if !d.fullService then
    if d.ringsInQueue < 32 then some (d.setRing r { limit := 65536, queueMem := true }) else none
  else
    match d.alloc 0x13 (2 * r) (d.nW Ix.strRingBacklog r * 1024) false with
    | none => none
    | some (_, d) =>
      let d := d.setRing r { limit := d.nW Ix.strRingBacklog r * 1024 }
      if d.nW Ix.strRingTarget r = 1 then
        (d.alloc 0x13 (2 * r + 1) (d.ringSlots r * 8) false).map (fun q => q.2.wW Ix.strRingBase r (q.2.allocAddr q.1 0))
      else some d

/-- A ring opens: pi = ci = 0, state 1; a host ring finds the link down in state 4 (R296, R316). -/
def Dev.ringOpen (d : Dev) (path r : Nat) : Dev :=
  if d.ringState r != 0 then d.refuse path Ix.strRingCmd 0 Code.ringState
  else match d.ringRefusal r with
    | some c => d.refuse path Ix.strRingCmd 0 c
    | none => match d.ringMemory r with
      | none => d.refuse path Ix.strRingCmd 0 Code.ringSpace
      | some d =>
        let d := (d.wW Ix.strRingPi r 0).wW Ix.strRingCi r 0
        let d := d.w0 Ix.strRingsOpen (d.n0 Ix.strRingsOpen + 1)
        d.setRingState r (if d.nW Ix.strRingTarget r = 0 && !d.str.linkUp then 4 else 1)

/-- RING_OPEN (R296). -/
def execRingOpen (t path : Nat) (s : State) : Res := run t s fun d =>
  d.command path Ix.strRingCmd 0 1 fun d => d.ringOpen path (d.nW Ix.strRingSel path)

/-- A ring command of a path that changes memory: refused or queued as R412 says, else carried out. -/
def Dev.ringCommand (d : Dev) (path v : Nat) (m : Mem) (f : Dev → Nat → Mem × Dev) : Mem × Dev :=
  if d.sup.running && d.pathOpen path && d.hw.pwrGood then
    let q := f (d.accept path Ix.strRingCmd 0) (d.nW Ix.strRingSel path)
    (q.1, d.served q.2 path)
  else (m, d.command path Ix.strRingCmd 0 v id)

/-- A close drains for at most 50 µs; a failed ring closes at once (R296). -/
def Dev.ringShut (d : Dev) (path r : Nat) (m : Mem) : Mem × Dev :=
  let st := d.ringState r
  if st = 3 then (m, d.raise path Code.alreadyDone)
  else if st = 0 then (m, d.refuse path Ix.strRingCmd 0 Code.ringState)
  else if st = 5 then (m, d.ringClose r)
  else
    let d := (d.setRingState r 3).setRing r { d.ring r with closeAt := d.now + us 50 }
    let q := d.ringDeliver r m
    (q.1, if (q.2.ring r).backlog.isEmpty then q.2.ringClose r else q.2)

/-- RING_CLOSE (R296). -/
def execRingClose (t path : Nat) (s : State) : Res := runMem t s fun m d => d.ringCommand path 2 m fun d r => d.ringShut path r m

/-- RING_CLOSE_DRAIN_END: the backlog is empty or 50 µs have passed (R296). -/
def execRingCloseDrainEnd (t ring : Nat) (s : State) : Res := runMemIf (ring < 65536) t s fun m d =>
  if d.ringState ring != 3 then (m, d)
  else
    let q := d.ringDeliver ring m
    (q.1, if (q.2.ring ring).backlog.isEmpty || (q.2.ring ring).closeAt ≤ d.now then q.2.ringClose ring else q.2)

/-- RING_PAUSE (R296). -/
def execRingPause (t path : Nat) (s : State) : Res := run t s fun d =>
  d.command path Ix.strRingCmd 0 3 fun d =>
    let r := d.nW Ix.strRingSel path
    if d.ringState r = 1 then d.setRingState r 2 else d.refuse path Ix.strRingCmd 0 Code.ringState

/-- RING_RESUME (R296). -/
def execRingResume (t path : Nat) (s : State) : Res := runMem t s fun m d =>
  d.ringCommand path 4 m fun d r =>
    if d.ringState r = 2 then (d.setRingState r 1).ringDeliver r m else (m, d.refuse path Ix.strRingCmd 0 Code.ringState)

/-! ### The host link and faults (R71, R315, R316) -/

/-- RING_CONTEXT_ERROR: the ring fails in any state (R316). -/
def execRingContextError (t ring : Nat) (s : State) : Res := runIf (ring < 65536) t s fun d =>
  let d := d.ringDiscard ring
  let d := if d.ringState ring = 0 then d.w0 Ix.strRingsOpen (d.n0 Ix.strRingsOpen + 1) else d
  (d.setRingState ring 5).fault 4 Code.ringContext 8 (ring % 256) ring 0

/-- The rings of the host that are not closed. -/
def Dev.hostRings (d : Dev) : List Nat :=
  (d.str.rings.map (fun p => p.1)).filter (fun r => d.ringState r != 0 && d.nW Ix.strRingTarget r == 0)

/-- HOST_LINK_LOSS: host rings go to state 4 under their policy (R316). Bit 2 of `mod.bringup`, progress of the start, stays set until PERST_N
resets the endpoint (R85; DESIGN CHOICE, log entry 39). -/
def execHostLinkLoss (t : Nat) (s : State) : Res := run t s fun d =>
  if !d.str.linkUp then d
  else
    let d := { d with str := { d.str with linkUp := false } }
    let d := d.hostRings.foldl (fun (a : Dev) r =>
      let st := a.ringState r
      if st = 1 || st = 2 then (a.setRing r { a.ring r with prev := st }).setRingState r 4 else a) d
    let d := (d.w0 Ix.strLinkState 0).w0 Ix.strLinkConfig 0
    ((d.strEvent 0x08 0 0 0).fault 3 Code.hostLinkDown 8 0 0 0).happen (.linkDown 0 0)

/-- HOST_LINK_UP: the BAR0 mirror is served; host rings of state 4 resume (R70, R287, R316). -/
def execHostLinkUp (t gen width : Nat) (s : State) : Res := runMem t s fun m d =>
  if !d.hw.pwrGood || d.hw.perstLow || d.str.linkUp then (m, d)
  else
    let d := { d with str := { d.str with linkUp := true } }
    let d := ((d.w0 Ix.strLinkState 2).w0 Ix.strLinkConfig (gen * 256 + width)).w0 Ix.modBringup (setBitTo (d.n0 Ix.modBringup) 2 true)
    let d := d.strEvent 0x08 0 1 (gen * 256 + width)
    d.hostRings.foldl (fun (q : Mem × Dev) r =>
      if q.2.ringState r = 4 then
        let st := (q.2.ring r).prev
        (q.2.setRingState r (if st = 2 then 2 else 1)).ringDeliver r q.1
      else q) (m, d)

/-- PERST_N_ASSERT: the endpoint resets; every host ring closes, its backlog discarded and counted (R57, R316). -/
def execPerstNAssert (t : Nat) (s : State) : Res := run t s fun d =>
  if d.hw.perstLow then d
  else
    let d := { d with hw := { d.hw with perstLow := true } }
    let up := d.str.linkUp
    let d := d.hostRings.foldl (fun (a : Dev) r => a.ringClose r) d
    let d := { d with str := { d.str with linkUp := false, msix := [], msixPending := [] } }
    let d := (((d.w0 Ix.strLinkState 0).w0 Ix.strLinkConfig 0).w0 Ix.modBringup (setBitTo (d.n0 Ix.modBringup) 2 false)).strEvent 0x08 0 2 0
    if up then d.happen (.linkDown 0 0) else d

/-- PERST_N_RELEASE: host link training starts once PWR_GOOD has risen (R71). -/
def execPerstNRelease (t : Nat) (s : State) : Res := run t s fun d =>
  let d := { d with hw := { d.hw with perstLow := false } }
  if d.hw.pwrGood && !d.str.linkUp then d.w0 Ix.strLinkState 1 else d

/-- At the changeover backlogs move to capture memory, at their configured size, at 64 KiB, or not at all (R315). -/
def Dev.ringsMove (d : Dev) : Dev :=
  (d.str.rings.map (fun p => p.1)).foldl (fun (a : Dev) r =>
    let y := a.ring r
    if !y.queueMem then a
    else match a.alloc 0x13 (2 * r) (a.nW Ix.strRingBacklog r * 1024) false with
      | some q => q.2.setRing r { y with queueMem := false, limit := q.2.nW Ix.strRingBacklog r * 1024 }
      | none => match a.alloc 0x13 (2 * r) 65536 false with
        | some q => (q.2.setRing r { y with queueMem := false }).raise 4 Code.ringSpace
        | none => (((a.setRing r { y with queueMem := false }).ringDiscard r).setRingState r 5).raise 4 Code.ringSpace) d

/-- Entries that name a ring: index, subindex, instance (R294). -/
def ringNames : List (Nat × Nat × Nat) :=
  (List.range 16).map (fun l => (Ix.speRing, l + 1, 0)) ++ (List.range 4).map (fun p => (Ix.denRing, p + 1, 0)) ++
  (List.range 256).map (fun k => (Ix.trgMagRing, 0, k)) ++
  [Ix.chnDetRing, Ix.trgEventRing, Ix.vpEventRing, Ix.capEventRing, Ix.strEventRing, Ix.tbEventRing, Ix.imRing, Ix.cfEventRing,
    Ix.pwrEventRing, Ix.calEventRing, Ix.ctrSnapRing, Ix.ctrSmpRing].map (fun i => (i, 0, 0))

/-- The 64-byte context of a ring, eight words (Table 11.2). -/
def Dev.ringContext (d : Dev) (r : Nat) : List Nat :=
  let v := d.nW Ix.strRingVector r
  let y := d.ring r
  [d.nW Ix.strRingBase r, d.nW Ix.strRingWb r,
    d.nW Ix.strRingSizeLog2 r * 2 ^ 58 + d.nW Ix.strRingTarget r * 2 ^ 56 + d.nW Ix.strRingPolicy r * 2 ^ 55 +
      (if v < 2048 then 2 ^ 54 + v * 2 ^ 43 else 0) + d.nW Ix.strRingBacklog r,
    d.nW Ix.strRingModCount r * 2 ^ 48 + d.nW Ix.strRingModUs r, d.nW Ix.strRingPi r * 2 ^ 32 + d.nW Ix.strRingCi r,
    y.piMsg * 2 ^ 32 + y.piWb, d.nW Ix.strRingDropped r * 2 ^ 16 + d.ringState r * 2 ^ 8,
    wrap48 (d.nW Ix.strRingBytes r / 8) * 2 ^ 16 + (ringNames.filter (fun e => (d.rd e.1 e.2.1 e.2.2).toNat == r)).length]

/-! ### BAR2 (R260, R274, R280, R289) -/

/-- The byte a host reads at a capture address, of the first copy that can be read: zero outside allocations, in retired channels, and in lost
bursts. -/
def Dev.bar2Byte (d : Dev) (m : Mem) (a : Nat) : Byte :=
  match d.allocAt a with
  | none => 0#8
  | some x => match (d.copiesAt x a).find? (fun y => d.inService (d.chanOf y) && !d.burstLost y) with
    | some y => memRead m y
    | none => 0#8

/-- Why the byte at a capture address cannot be read: 4 its burst is lost, 3 its granule lies in retired channels. -/
def Dev.bar2Loss (d : Dev) (a : Nat) : Nat :=
  match d.allocAt a with
  | none => 0
  | some x =>
    let l := (d.copiesAt x a).filter (fun y => d.inService (d.chanOf y))
    if l.isEmpty then 3 else if l.all d.burstLost then 4 else 0

/-- The read completion boundary of the host's root complex, which PCIe lets be 64 or 128 bytes. -/
def readBoundary : Nat := if Config.wideReadBoundary then 128 else 64

/-- Addresses of `n` bytes from one on. -/
def addrRange (a n : Nat) : List Nat := (List.range n).map (fun i => a + i)

/-- HOST_BAR2_READ: the completion that holds a lost burst is poisoned, and no other (R289). -/
def execHostBar2Read (t addr len : Nat) (s : State) : Res := runMemIf (addr + len ≤ 2 ^ 37) t s fun m d =>
  let d := if d.str.linkUp then d.wake 2 else d
  if !d.str.linkUp then (m, d)
  else if !d.fullService then (m, { d with str := { d.str with bar2 := [], bar2Poison := [], bar2Unsupported := true } })
  else
    let l := addrRange addr len
    let d := if l.any (fun a => (d.allocAt a).isNone) then d.inc0 Ix.capBar2Unmapped else d
    let d := { d with str := { d.str with
      bar2 := l.map (d.bar2Byte m), bar2Unsupported := false
      bar2Poison := ((l.filter (fun a => d.bar2Loss a == 4)).map (fun a => a / readBoundary * readBoundary)).dedup } }
    (m, d.portServe 17 len)

/-- HOST_BAR2_WRITE: applied byte by byte; what lies outside every allocation is discarded and counted (R260, R289). -/
def execHostBar2Write (t addr : Nat) (data : List Byte) (s : State) : Res :=
  runMemIf (addr + data.length ≤ 2 ^ 37) t s fun m d =>
    let d := if d.str.linkUp then d.wake 2 else d
    if !d.str.linkUp then (m, d)
    else if !d.fullService then (m, { d with str := { d.str with bar2Unsupported := true } })
    else
      let l := (addrRange addr data.length).zip data
      let ok (a : Nat) : Bool := (d.allocAt a).isSome && d.inService (d.chanOf a)
      let m := l.foldl (fun (m : Mem) p => if ok p.1 then memWrite m p.1 p.2 else m) m
      let d := if l.any (fun p => (d.allocAt p.1).isNone) then d.inc0 Ix.capBar2Unmapped else d
      let whole (b : Nat) : Bool := decide (addr ≤ b) && decide (b + 64 ≤ addr + data.length)
      let d := { d with cap := { d.cap with lost := d.cap.lost.filter (fun b => !whole b) }, str := { d.str with bar2Unsupported := false } }
      (m, d.portServe 18 data.length)

end Sys2Proof.Machine
end

