-- ==== Sys2Proof/Machine/Reels.lean ====
section
/-! DEFINITION. Stream Engine: the reel volume, recording and the spool (11_stream_engine.md, R305 to R311). -/

namespace Sys2Proof.Machine

def Dev.reel (d : Dev) (r : Nat) : ReelSt := d.str.reels.get {} r
def Dev.setReel (d : Dev) (r : Nat) (x : ReelSt) : Dev := { d with str := { d.str with reels := d.str.reels.set {} r x } }
def Dev.reelState (d : Dev) (r : Nat) : Nat := d.nW Ix.strReelState r
def Dev.setReelState (d : Dev) (r v : Nat) : Dev := d.wW Ix.strReelState r v
def Dev.drive (d : Dev) (s : Nat) : DriveSt := d.str.drives.get {} s
def Dev.setDrive (d : Dev) (s : Nat) (x : DriveSt) : Dev := { d with str := { d.str with drives := d.str.drives.set {} s x } }

/-! ### The volume (R305 to R307) -/

/-- Unit size U in bytes of the mounted volume. -/
def Dev.unitBytes (d : Dev) : Nat := match d.str.volume with | some v => 1024 * v.unitKib | none => 1024 * d.n0 Ix.strVolUnitKib

/-- Positions of a member map. -/
def mapMembers (m : Nat) : List Nat := (List.range 8).filter (bitOf m)

/-- The map of the members present. -/
def VolSt.present (v : VolSt) : Nat := (v.ports.map (fun p => 2 ^ p.1)).sum

/-- Extents of all reels. -/
def Dev.allExtents (d : Dev) : List Extent := ((d.str.reels.map (fun p => p.2.extents))).flatten

/-- Drive units in use on a member: ranges of extents. -/
def Dev.usedUnits (d : Dev) (pos e : Nat) : Nat := ((d.allExtents.filter (fun x => bitOf x.members pos)).length) * e

/-- `vol` entries follow the volume (R306). -/
def Dev.volReport (d : Dev) : Dev :=
  match d.str.volume with
  | none => (((d.w0 Ix.strVolState 0).w0 Ix.strVolMembers 0).w0 Ix.strVolId 0).w0 Ix.strVolFree 0
  | some v =>
    let whole := (v.tokens.filter (fun t => t != 0)).length
    let d := (d.w0 Ix.strVolState (if v.ports.length < whole then 2 else 1)).w0 Ix.strVolId v.id
    let d := d.w0 Ix.strVolMembers ((v.ports.map (fun p => 2 ^ p.2)).sum)
    d.w0 Ix.strVolFree ((v.ports.map (fun p => v.units.get 0 p.1 - d.usedUnits p.1 v.extent)).sum * v.unitKib * 1024)

/-- A volume event (R318). -/
def Dev.volEvent (d : Dev) : Dev := d.strEvent 0x0A 0 (d.n0 Ix.strVolState) (d.n0 Ix.strVolMembers)

/-- The lowest first unit of a range of E units that is free on every member of a map (R307). -/
def extentFit (e members : Nat) (used : List Extent) : Nat → Nat → Nat
  | 0, a => a
  | k + 1, a =>
    match used.find? (fun x => Nat.land x.members members != 0 && decide (x.first < a + e) && decide (a < x.first + e)) with
    | some x => extentFit e members used k (x.first + e)
    | none => a

/-! ### Directory entries and commands of a drive (R302, R303, R306, Table 11.11) -/

/-- Tags of a directory entry's slots. -/
def dirTag (i : Nat) : Nat := if i < 16 then 0x10A0 + i else if i < 510 then 0x10B0 + i % 2 else if i = 510 then 0x10BE else 0x10BF

/-- The CRC of a directory entry's first 511 slots. -/
def dirCrc (l : List Nat) : Nat := crc32 (recBytes (mkRec ((l.take 511).zipIdx.map (fun p => (dirTag p.2, p.1)))))

/-- A reel's directory entry as it stands now. -/
def Dev.dirEntry (d : Dev) (r : Nat) : List Nat :=
  let x := d.reel r
  let st := d.reelState r
  let code := if st = 0 then 0 else if st = 3 then 2 else if st = 4 then 3 else if st = 5 then 4 else 1
  let l := [r * 2 ^ 32 + code * 2 ^ 24 + x.mode * 2 ^ 16, x.format * 2 ^ 40 + x.sources.length * 2 ^ 32 + d.unitBytes / 1024, x.rate,
    sec48 x.t0, frac48 x.t0, d.nW Ix.strReelSamples r, d.nW Ix.strReelGapSamples r, x.units,
    x.extents.length * 2 ^ 40 + x.generation % 2 ^ 40, (x.sources.zipIdx.map (fun p => p.1 * 2 ^ (8 * p.2))).sum] ++ List.replicate 6 0 ++
    x.extents.flatMap (fun e => [e.members * 2 ^ 40 + e.first, e.held])
  let l := l ++ List.replicate (511 - l.length) 0
  l ++ [dirCrc l]

/-- A reel's entry is written, a generation on, to every present member. -/
def Dev.dirWrite (d : Dev) (r : Nat) : Dev :=
  match d.str.volume with
  | none => d
  | some v =>
    let d := d.setReel r { d.reel r with generation := (d.reel r).generation + 1 }
    let e := d.dirEntry r
    v.ports.foldl (fun (a : Dev) p => a.setDrive p.2 { a.drive p.2 with dir := (a.drive p.2).dir.put r e }) d

/-- A command is given to a drive's next queue, round-robin. -/
def Dev.nvmeGive (d : Dev) (port : Nat) (c : NvmeCmd) : Dev :=
  let x := d.drive port
  d.setDrive port { x with cmds := x.cmds ++ [{ c with id := x.nextId, queue := x.nextId % max x.queues 1, issued := d.now }], nextId := x.nextId + 1 }

/-- Every drive of an extent with a write cache is told to flush. -/
def Dev.flushExtent (d : Dev) (r : Nat) (e : Extent) : Dev :=
  match d.str.volume with
  | none => d
  | some v => (v.ports.filter (fun p => bitOf e.members p.1 && (d.drive p.2).cache)).foldl
      (fun (a : Dev) p => a.nvmeGive p.2 { id := 0, op := 0, reel := r, unit := 0, slot := 0, bytes := 0, issued := 0 }) d

/-- A new extent for a reel on a map of members, while it holds fewer than 247 and one fits; the one before it is flushed, and the directory
entry is written before its first unit is submitted (R302, R307). -/
def Dev.newExtent (d : Dev) (r members : Nat) : Option Dev :=
  match d.str.volume with
  | none => none
  | some v =>
    let x := d.reel r
    let a := extentFit v.extent members d.allExtents (d.allExtents.length + 1) 0
    let fits := members != 0 && (mapMembers members).all (fun p => decide (a + v.extent ≤ v.units.get 0 p))
    if fits && x.extents.length < 247 then
      let d := match x.extents.getLast? with | some e => d.flushExtent r e | none => d
      let d := (d.setReel r { x with extents := x.extents ++ [⟨members, a, 0⟩] }).dirWrite r
      some ((d.strEvent 0x0B r x.extents.length members).volReport)
    else none

/-- Members a reel uses: those chosen, all where none is, that are present (R304). -/
def Dev.reelMap (d : Dev) (r : Nat) : Nat :=
  match d.str.volume with
  | none => 0
  | some v => let m := d.nW Ix.strReelMembers r; Nat.land (if m = 0 then 255 else m) v.present

/-! ### Geometry of a reel -/

def ReelSt.width (x : ReelSt) : Nat := formatBytes x.format

/-- Samples per channel of a full unit (R308). -/
def Dev.unitSamples (d : Dev) (x : ReelSt) : Nat := (less d.unitBytes 4096) / max (x.sources.length * x.width) 1

/-- Bytes per 10^3 seconds that a reel's rate takes, units included, times (U - 4,096): compared across the division (R311). -/
def Dev.reelRateNum (d : Dev) (x : ReelSt) : Nat := x.rate * x.sources.length * x.width * d.unitBytes

/-- The rate of R311 in MB/s, rounded up. -/
def Dev.reelRateMB (d : Dev) (x : ReelSt) : Nat := ceilDiv (d.reelRateNum x) (max (less d.unitBytes 4096) 1 * 1000000000)

/-- Whether members carry a reel's rate. -/
def Dev.reelCarried (d : Dev) (x : ReelSt) (members : Nat) : Bool :=
  decide (d.reelRateNum x ≤ countBits 8 members * d.n0 Ix.strDriveRate * 1000000000 * (less d.unitBytes 4096))

/-- The time of sample j of a reel (R309). -/
def reelTime (x : ReelSt) (j : Nat) : Nat := x.t0 + inputTime j x.rate

/-! ### The spool (R310) -/

def Dev.spoolSlots (d : Dev) : Nat := 1048576 * d.n0 Ix.strSpoolMib / max d.unitBytes 1
def Dev.freeSlot (d : Dev) : Option Nat :=
  if d.spoolSlots ≤ d.str.spool.length then none
  else (List.range (d.str.spool.length + 1)).find? (fun k => d.str.spool.all (fun p => p.1 != k))

/-- `spool` entries follow. -/
def Dev.spoolReport (d : Dev) : Dev :=
  let u := d.str.spool.length * d.unitBytes
  let d := d.w0 Ix.strSpoolUsed u
  if d.n0 Ix.strSpoolHigh < u then d.w0 Ix.strSpoolHigh u else d

/-! ### Reel commands (R311) -/

def Dev.reelCommand (d : Dev) (path v : Nat) (f : Dev → Nat → Dev) : Dev :=
  d.command path Ix.strReelCmd 0 v fun d =>
    if !d.fullService then d.refuse path Ix.strReelCmd 0 Code.rushesUnavailable else f d (d.nW Ix.strReelSel path)

/-- Channel sources of a reel's entries. -/
def Dev.reelSources (d : Dev) (r : Nat) : List Nat := ((List.range 4).map (fun c => (d.rd Ix.strReelSrc (c + 1) r).toNat)).takeWhile (fun c => c != 0)

/-- REEL_OPEN: the directory entry and the first extent (R307, R311). -/
def execReelOpen (t path : Nat) (s : State) : Res := run t s fun d =>
  d.reelCommand path 1 fun d r =>
    if d.reelState r != 0 then d.refuse path Ix.strReelCmd 0 Code.reelState
    else if d.str.volume.isNone then d.refuse path Ix.strReelCmd 0 Code.reelState
    else
      let src := d.reelSources r
      let x : ReelSt := { generation := (d.reel r).generation, rate := d.chanRate (src.headD 0), sources := src, format := d.nW Ix.strReelFormat r, mode := d.nW Ix.strReelMode r }
      let e := (((d.setReel r x).setReelState r 1).wW Ix.strReelSamples r 0).wW Ix.strReelGapSamples r 0
      match e.newExtent r (d.reelMap r) with
      | none => d.refuse path Ix.strReelCmd 0 Code.reelFull
      | some d =>
        let d := (d.wW Ix.strReelBytes r 0).wW Ix.strReelRate r (d.reelRateMB (d.reel r))
        d.strEvent 0x04 r x.mode (d.reelMap r)

/-- REEL_START: j = 0 is the first sample at or after the boundary (R311). -/
def execReelStart (t path : Nat) (s : State) : Res := run t s fun d =>
  d.reelCommand path 2 fun d r =>
    let x := d.reel r
    let m := match x.extents.getLast? with | some e => e.members | none => 0
    if d.reelState r != 1 || x.mode != 0 then d.refuse path Ix.strReelCmd 0 Code.reelState
    else if x.rate = 0 || x.sources.any (fun c => d.chanRate c != x.rate) || !d.reelCarried x m then d.refuse path Ix.strReelCmd 0 Code.reelRate
    else
      let s := sourceOf (x.sources.headD 0)
      let n0 := d.sampleAfter s (tickAt (d.time96 + 1))
      let t0 := d.timeOf s n0
      let d := ((d.setReel r { x with t0 := t0, n0 := n0 }).setReelState r 2).wr Ix.strReelStart 1 r (sec48 t0)
      d.wr Ix.strReelStart 2 r (frac48 t0)

/-- A reel whose last unit has closed and whose slots are free flushes its members, and is then closed, its directory entry finalised (R302,
R311). -/
def Dev.reelSettled (d : Dev) (r : Nat) : Dev :=
  if d.reelState r = 6 && (d.reel r).closing && d.str.spool.all (fun p => p.2.1 != r) then
    let d := if (d.reel r).flushed then d
      else
        let d := match (d.reel r).extents.getLast? with | some e => d.flushExtent r e | none => d
        d.setReel r { d.reel r with flushed := true }
    if d.str.drives.any (fun p => p.2.cmds.any (fun c => c.reel == r && c.op == 0)) then d
    else
      let d := d.setReel r { d.reel r with closing := false, flushed := false }
      ((d.setReelState r 3).dirWrite r).strEvent 0x05 r (d.nW Ix.strReelSamples r) (d.nW Ix.strReelGapSamples r)
  else d

/-- REEL_CLOSE (R311, R486). -/
def execReelClose (t path : Nat) (s : State) : Res := run t s fun d =>
  d.reelCommand path 3 fun d r =>
    let x := d.reel r
    let st := d.reelState r
    let named := (List.range 256).any (fun k => (d.mag k).armed && d.nW Ix.trgMagSpill k == 1 && d.nW Ix.trgMagSpillReel k == r)
    if st = 6 || (st = 3 && x.ended) then d.alreadyDone path
    else if st != 1 && st != 2 then d.refuse path Ix.strReelCmd 0 Code.reelState
    else if x.mode = 1 && named then d.refuse path Ix.strReelCmd 0 Code.reelState
    else ((d.setReelState r 6).setReel r { x with
      stop := if st = 2 then some (tickAt (d.time96 + 1)) else none, closing := st == 1 && x.takes.isEmpty }).reelSettled r

/-- The extents of a reel are deallocated on the members present (Table 11.8). -/
def Dev.reelDealloc (d : Dev) (r : Nat) : Dev :=
  match d.str.volume with
  | none => d
  | some v => (d.reel r).extents.foldl (fun (a : Dev) e => (v.ports.filter (fun p => bitOf e.members p.1)).foldl
      (fun (a : Dev) p => a.nvmeGive p.2 { id := 0, op := 9, reel := r, unit := 0, slot := 0, bytes := 0, issued := 0 }) a) d

/-- REEL_DELETE (R311). -/
def execReelDelete (t path : Nat) (s : State) : Res := run t s fun d =>
  d.reelCommand path 4 fun d r =>
    let st := d.reelState r
    if st = 3 || st = 4 || st = 5 then
      ((((d.reelDealloc r).setReel r { generation := (d.reel r).generation }).setReelState r 0).dirWrite r).volReport
    else d.refuse path Ix.strReelCmd 0 Code.reelState

/-! ### Units (R308 to R310) -/

/-- The slate of a reel (R309). -/
def Dev.reelSlate (d : Dev) (r : Nat) : Rec :=
  let x := d.reel r
  let v := d.str.volume.getD {}
  let src := (x.sources.zipIdx.map (fun p => p.1 * 2 ^ (8 * p.2))).sum
  slateRec [slateHead 0 2 x.sources.length x.format 0, sec48 x.t0, frac48 x.t0, sec48 x.t0, frac48 x.t0, r, x.mode, v.unitKib * 2 ^ 24 + v.extent,
    0, d.hash48, 0xFF * 2 ^ 40 + 0xFF * 2 ^ 32 + src, d.n0 Ix.calCount, x.rate, v.id, d.unitSamples x, 0, 0]

/-- What a unit holds: its bytes, the samples it took. `head` leads its record block and `tail` ends it. -/
def Dev.reelUnit (d : Dev) (r j0 : Nat) (head tail : List Rec) (samples : List (List TakeSample)) (flag : Nat) : List Byte × Nat :=
  let x := d.reel r
  let u := d.unitBytes
  let full := d.unitSamples x
  let time (i : Nat) : Nat := reelTime x (j0 + i)
  let head := head ++ (match x.gap with
    | some g => [gapMarker g.2 1 0 r (reelTime x (j0 - g.1)) g.1 (j0 - g.1)]
    | none => [])
  let headLen := ((head ++ tail).map (fun y => (recBytes y).length)).sum
  let must := ((x.sources.zip samples).map (fun p => (runsFrom 0 (p.2.map (fun s => bitOf s.2.2 3))).map (fun q =>
    (q.1, settleRec (sourceOf p.1) ((p.2.getD q.1 (0, 0, 0)).2.2 / 256 % 16) q.2 (time q.1))))).flatten.foldl (fun l p => insertAt p l) []
  let fit := fitRecs (4096 - 64 - headLen) must
  let n := min (match fit.2 with | some p => p | none => full) ((samples.map List.length).foldl max 0)
  let cut := samples.map (fun l => l.take n)
  let flags := (cut.zipIdx.map (fun p => [1, 2, 3].flatMap (fun f =>
    (mergeRuns 256 (runsFrom 0 (p.1.map (fun s => bitOf s.2.2 (f - 1))))).map (fun q => flagRec p.2 f q.2 (time q.1) (j0 + q.1))))).flatten
  let used := headLen + (fit.1.map (fun y => (recBytes y).length)).sum
  let room := (4096 - 64 - used) / 32
  let body := ((head ++ fit.1 ++ flags.take room ++ tail).map recBytes).flatten
  let data := (cut.map (fun l => (l.map (fun s => (storeSample x.format s).1)).flatten)).flatten
  let rest := body ++ List.replicate (4096 - 64 - body.length) 0 ++ data
  let rest := rest ++ List.replicate (u - 64 - rest.length) 0
  let fl := flag + (if room < flags.length then 1 else 0) + (if n < full then 2 else 0)
  let top : List (Nat × Nat) := [(0x1010, r * 2 ^ 32 + x.units % 2 ^ 32), (0x1011, j0), (0x1012, n * 2 ^ 24 + body.length), (0x1013, sec48 (time 0)), (0x1014, frac48 (time 0))]
  let crc := crc32 (recBytes (mkRec top) ++ rest)
  (recBytes (mkRec (top ++ [(0x1015, fl * 2 ^ 40 + crc), (0x1016, 0), (0x1017, 0)])) ++ rest, n)

/-- An annex unit: the records its rings have written, as many as fit, ending with a pad (R295, R308). -/
def fillAnnex : Nat → List (Nat × Rec) → List Rec
  | _, [] => []
  | room, (_, x) :: l => if room < recSlots x + 1 then [] else x :: fillAnnex (room - recSlots x) l

/-- The records that annex rings of a reel hold, by ring. -/
def Dev.annexRings (d : Dev) (r : Nat) : List Nat :=
  (d.str.rings.map (fun p => p.1)).filter (fun k => d.nW Ix.strRingTarget k == 2 && d.nW Ix.strRingBase k % 4096 == r && !(d.ring k).written.isEmpty)

/-- An annex ring's written records are consumed: ci follows them (Table 11.3). -/
def Dev.annexTake (d : Dev) (k n : Nat) : Dev :=
  let y := d.ring k
  let l := y.written.drop n
  let ci := match l with | (i, _) :: _ => i | [] => d.nW Ix.strRingPi k
  (d.setRing k { y with written := l }).wW Ix.strRingCi k ci

/-- The bytes of an annex unit from one ring. -/
def Dev.annexUnit (d : Dev) (r : Nat) (recs : List Rec) : List Byte :=
  let x := d.reel r
  let u := d.unitBytes
  let body := (recs.map (fun y => pad8 (recBytes y))).flatten
  let rest := body ++ recBytes (padRec ((u - 64 - body.length) / 8))
  let top : List (Nat × Nat) := [(0x1010, r * 2 ^ 32 + x.units % 2 ^ 32), (0x1011, 0), (0x1012, u - 64), (0x1013, 0), (0x1014, 0)]
  recBytes (mkRec (top ++ [(0x1015, 16 * 2 ^ 40 + crc32 (recBytes (mkRec top) ++ rest)), (0x1016, 0), (0x1017, 0)])) ++ rest

/-- Where a unit of the open extent goes: position, and drive unit (R307). -/
def Extent.place (e : Extent) : Nat := (mapMembers e.members).getD (e.held % max (mapMembers e.members).length 1) 0

/-- A unit is submitted as write commands of at most 1 MiB, or what the drive allows, at the member its place names (R303, R307). -/
def Dev.submitUnit (d : Dev) (r slot bytes unit : Nat) : Dev :=
  let x := d.reel r
  match x.extents.getLast?, d.str.volume with
  | some e, some v =>
    let port := v.ports.get 0 e.place
    let most := if (d.drive port).mdts = 0 then 1048576 else min 1048576 (d.drive port).mdts
    let d := (List.range (ceilDiv bytes most)).foldl (fun (a : Dev) i =>
      a.nvmeGive port { id := 0, reel := r, unit := unit, slot := slot, bytes := min most (bytes - i * most), issued := 0 }) d
    d.setReel r { x with extents := x.extents.dropLast ++ [{ e with held := e.held + 1 }] }
  | _, _ => d

/-- The open extent has room, or a new one is taken (R307). -/
def Dev.extentReady (d : Dev) (r : Nat) : Option Dev :=
  let x := d.reel r
  let v := d.str.volume.getD {}
  match x.extents.getLast? with
  | some e => if e.held < v.extent * (mapMembers e.members).length then some d else d.newExtent r (d.reelMap r)
  | none => d.newExtent r (d.reelMap r)

/-- A reel that cannot take another extent ends at the last unit that fits (R307). -/
def Dev.reelEnds (d : Dev) (r : Nat) : Dev :=
  (((d.setReel r { d.reel r with ended := true, closing := true }).setReelState r 6).raise 4 Code.reelFull).reelSettled r

/-- A unit is written into its spool slot and submitted to its drive (R310). -/
def Dev.storeUnit (d : Dev) (r slot : Nat) (bytes : List Byte) (m : Mem) : Mem × Dev :=
  let m := match d.allocOf 0x12 0 with
    | some a => d.writeAlloc a (slot * d.unitBytes) bytes m
    | none => m
  let x := d.reel r
  let d := d.submitUnit r slot bytes.length x.units
  let d := d.setReel r { d.reel r with units := x.units + 1 }
  (m, (d.incW Ix.strReelBytes r bytes.length).spoolReport)

/-! ### Samples on their way to a reel (R15, R16, R310) -/

/-- Continuations that the Trigger Unit has handed over join their reels (R197). -/
def Dev.spillsIn (d : Dev) : Dev :=
  d.trg.spills.foldl (fun (a : Dev) p => a.setReel p.reel { a.reel p.reel with takes := (a.reel p.reel).takes ++ [p] })
    { d with trg := { d.trg with spills := [] } }

/-- The next continuation of a take-mode reel begins: the reel's samples are the take's (R308). -/
def Dev.takeBegins (d : Dev) (r : Nat) : Dev :=
  let x := d.reel r
  match x.takes, x.takeNext with
  | sp :: _, none =>
    let sl := sp.slate
    let src := recValue sl 10 % 2 ^ 32
    d.setReel r { x with
      rate := recValue sl 12, t0 := recTime sl - inputTime (recValue sl 5 - recValue sl 6) (recValue sl 12)
      sources := (List.range sp.samples.length).map (fun c => src / 2 ^ (8 * c) % 256), format := recValue sl 0 / 2 ^ 31 % 8
      next := sp.first, ask := sp.first, takeNext := some sp.first, takeUnits := false }
  | _, _ => d

/-- The samples of a reel's next position, if they have come: of its sources, or of the take that was handed over (R197, R310). -/
def Dev.reelNext (d : Dev) (r : Nat) : Option (List TakeSample) :=
  let x := d.reel r
  if x.ended then none
  else if x.mode = 1 then
    match x.takes, x.takeNext with
    | sp :: _, some f => if sp.samples.any (x.ask - f < ·.length) then some (sp.samples.map (·.getD (x.ask - f) (0, 0, 16))) else none
    | _, _ => none
  else
    let src := x.sources.map sourceOf
    let n := x.n0 + x.ask
    let runs := d.reelState r == 2 || (d.reelState r == 6 && x.stop.any (d.timeOf (src.headD .none) n < ·))
    if runs && src.all (fun s => d.sampleKnown s n) then some (src.map (fun s => d.takenAt s n)) else none

/-- A reel's next position goes to the hod buffer. One that a channel lacks, or that the buffer or a repointing loses, takes no space and is
to be marked (R298, R308, R316). -/
def Dev.reelWrite (d : Dev) (r : Nat) : Dev :=
  let d := d.spillsIn.takeBegins r
  match d.reelNext r with
  | none => d
  | some l =>
    let x := d.reel r
    let j := x.ask
    let st := l.map (storeSample x.format)
    let cause := ((st.map (fun p => gapCause p.2.2.2)).find? (· != 0)).getD (if d.str.suspended then 10 else 0)
    if cause != 0 then (d.setReel r { x with ask := j + 1, holes := x.holes ++ [(j, cause)] }).incW Ix.strReelGapSamples r 1
    else
      let it : HodItem := ⟨.reel r j (st.map (·.2)), reelTime x j, reelTime x (j + 1), j, (st.map (·.1)).flatten⟩
      let q := (d.setReel r { x with ask := j + 1 }).hodPut (8 * 2 ^ 24 + r) it
      if q.2 then q.1.itemLost 2 it else q.1

/-- The open slot of a reel, or a free one that its first sample opens (R310). -/
def Dev.reelSlot (d : Dev) (r : Nat) : Option (Nat × Dev) :=
  let x := d.reel r
  match x.slot with
  | some s => some (s, d)
  | none => d.freeSlot.map fun s =>
    (s, ({ d with str := { d.str with spool := d.str.spool ++ [(s, r, x.units)] } }.setReel r { x with slot := some s }).spoolReport)

/-- Positions that find no free slot are discarded until one frees: one gap of cause 6 (R310). -/
def Dev.reelStarves (d : Dev) (r j n : Nat) : Dev :=
  let x := d.reel r
  let begun := x.starving.isNone
  let d := d.setReel r { x with
    starving := some (match x.starving with | some q => (q.1, j + n - q.1) | none => (j, n))
    holes := x.holes ++ (List.range n).map (fun i => (j + i, 6)) }
  let d := d.incW Ix.strReelGapSamples r n
  if begun then (d.strEvent 0x06 r 1 0).raise 4 Code.spoolFull else d

/-- A position reaches its reel's open slot (R310). -/
def Dev.reelArrives (d : Dev) (r j : Nat) (samples : List TakeSample) : Dev :=
  if (d.reel r).ended then d
  else match d.reelSlot r with
    | none => d.reelStarves r j 1
    | some (_, d) => d.setReel r { d.reel r with store := (d.reel r).store ++ [(j, samples)] }

/-! ### Units close (R308, R309) -/

/-- Lost positions that a reel's samples pass over, of a cause: its next unit marks them as one gap, of the first one's cause (R298, R308). -/
def Dev.reelLoses (d : Dev) (r n cause : Nat) : Dev :=
  let x := d.reel r
  let g := match x.gap with | some g => (g.1 + n, g.2) | none => (n, cause)
  let d := d.setReel r { x with gap := some g, next := x.next + n, holes := x.holes.filter (fun h => x.next + n ≤ h.1) }
  let d := if cause = 10 then d.gap ⟨.reel r, 1, reelTime x x.next, reelTime x (x.next + n), n, x.next, 10⟩ else d
  d.incW Ix.strReelSamples r n

/-- The lost positions before a reel's next unit are passed over. -/
def Dev.reelSkip (d : Dev) (r : Nat) : Dev :=
  let x := d.reel r
  match x.holes.find? (fun h => h.1 == x.next) with
  | none => d
  | some h => d.reelLoses r ((List.range x.holes.length).takeWhile (fun i => x.holes.any (fun h => h.1 == x.next + i))).length h.2

/-- Whether nothing more comes for a reel's recording, or for its present take. -/
def Dev.reelRan (d : Dev) (r : Nat) : Bool :=
  let x := d.reel r
  (d.hodItems (8 * 2 ^ 24 + r)).isEmpty && (x.ended || (if x.mode = 1 then
    (match x.takes, x.takeNext with | sp :: _, some f => sp.samples.all (·.length ≤ x.ask - f) | _, _ => false)
    else x.stop.any (fun t => t ≤ d.timeOf (sourceOf (x.sources.headD 0)) (x.n0 + x.ask))))

/-- The positions of a reel's next unit that have come: consecutive ones, at most a full unit's. -/
def Dev.reelRun (d : Dev) (r : Nat) : List (List TakeSample) :=
  let x := d.reel r
  ((x.store.zipIdx.takeWhile (fun p => p.1.1 == x.next + p.2)).map (fun p => p.1.2)).take (d.unitSamples x)

/-- Once nothing more comes the present take leaves its reel; a closed reel's recording is over (R197, R311). -/
def Dev.reelFinish (d : Dev) (r : Nat) : Dev :=
  let x := d.reel r
  if !d.reelRan r || x.next != x.ask then d
  else
    let d := if x.mode = 1 then d.setReel r { x with takes := x.takes.drop 1, takeNext := none } else d
    if d.reelState r = 6 && (d.reel r).takes.isEmpty then (d.setReel r { d.reel r with closing := true }).reelSettled r else d

/-- A unit leads with the reel's slate if it is the first, and with the slate of the take that it begins (R308, R309). -/
def Dev.unitSlates (d : Dev) (r : Nat) : List Rec :=
  let x := d.reel r
  (if x.units = 0 then [d.reelSlate r] else []) ++ (if x.mode = 1 && !x.takeUnits then (x.takes.take 1).map (·.slate) else [])

/-- A sample unit closes when it is full, before a gap, where its records do not fit, and at the end; a take that lies on the reel whole ends
with its take-close record (R197, R308). -/
def Dev.closeSampleUnit (d : Dev) (r : Nat) (m : Mem) : Mem × Dev :=
  let d := d.reelSkip r
  let x := d.reel r
  let l := d.reelRun r
  let n := l.length
  let ran := d.reelRan r && x.next + n == x.ask
  if n = 0 then (m, d.reelFinish r)
  else
    let chans := (List.range x.sources.length).map (fun c => l.map (·.getD c (0, 0, 0)))
    let begins := x.mode = 1 && !x.takeUnits
    let last := ran && d.reelState r = 6 && x.takes.length ≤ 1
    let tail := if ran && x.mode = 1 then ((x.takes.take 1).filter (fun t => t.first = 0)).flatMap (fun t => t.trailer.drop (t.trailer.length - 1)) else []
    let unit (d : Dev) : List Byte × Nat :=
      d.reelUnit r x.next (d.unitSlates r) tail chans ((if begins then 4 else 0) + (if last then 8 else 0))
    if n < d.unitSamples x && !ran && !x.holes.any (fun h => h.1 == x.next + n) && (unit d).2 = n then (m, d)
    else match d.reelSlot r with
      | none =>
        (m, ((d.setReel r { x with store := x.store.drop n }).reelStarves r x.next n).reelSkip r)
      | some (slot, d) => match d.extentReady r with
        | none => (m, d.reelEnds r)
        | some d =>
          let q := unit d
          let y := d.reel r
          let d := d.setReel r { y with next := y.next + q.2, store := y.store.drop q.2, gap := none, slot := none, takeUnits := true }
          let p := d.storeUnit r slot q.1 m
          (p.1, (p.2.incW Ix.strReelSamples r q.2).reelFinish r)

/-- An annex unit closes; a reel's first unit leads with its slate (R295, R308, R309). -/
def Dev.closeAnnexUnit (d : Dev) (r : Nat) (m : Mem) : Mem × Dev :=
  match d.annexRings r, d.freeSlot with
  | k :: _, some slot => (match d.extentReady r with
    | none => (m, d.reelEnds r)
    | some d =>
      let lead := if (d.reel r).units = 0 then [d.reelSlate r] else []
      let recs := fillAnnex ((d.unitBytes - 64) / 8 - (lead.map recSlots).sum) (d.ring k).written
      let d := { d with str := { d.str with spool := d.str.spool ++ [(slot, r, (d.reel r).units)] } }
      let p := d.storeUnit r slot (d.annexUnit r (lead ++ recs)) m
      p.2.annexTake k recs.length |>.ringDeliver k p.1)
  | _, _ => (m, d)

/-- REEL_UNIT_CLOSE: a unit of the reel's samples or takes, or an annex unit (R308, R310). -/
def execReelUnitClose (t reel : Nat) (annex : Bool) (s : State) : Res :=
  runMemIf (reel < 4096) t s fun m d =>
    let st := d.reelState reel
    if st != 1 && st != 2 && st != 6 then (m, d)
    else if annex then d.closeAnnexUnit reel m
    else if st = 1 && (d.reel reel).mode != 1 then (m, d)
    else d.closeSampleUnit reel m

/-- A slot is free again: the spool-full gap of a reel ends (R310). -/
def Dev.spoolFreed (d : Dev) (r : Nat) : Dev :=
  let x := d.reel r
  match x.starving with
  | some q =>
    if d.freeSlot.isSome then
      let d := d.setReel r { x with starving := none }
      (d.gap ⟨.reel r, 1, reelTime x q.1, reelTime x (q.1 + q.2), q.2, q.1, 6⟩).strEvent 0x06 r 0 q.2
    else d
  | none => d

/-- SPOOL_SLOT_FREE (R310). -/
def execSpoolSlotFree (t reel : Nat) (s : State) : Res := runIf (reel < 4096) t s fun d => d.spoolFreed reel

end Sys2Proof.Machine
end

