-- ==== Sys2Proof/Machine/Drives.lean ====
section
/-! DEFINITION. Stream Engine: NVMe drives and volume commands (11_stream_engine.md, R300 to R306). -/

namespace Sys2Proof.Machine

def Dev.drvState (d : Dev) (s : Nat) : Nat := d.nI Ix.strDrvState s

/-- The reason entries carry the index of a code (Table 11.14). -/
def reasonOf (c : Nat) : Nat := c / 256 % 65536

/-- `mod.drive_present` (Table 2.x). -/
def Dev.drivePins (d : Dev) : Nat := (d.rd Ix.modDrivePresent 7 0).toNat

/-- The attach sequence of a drive begins (Table 11.7). -/
def Dev.attachStart (d : Dev) (s : Nat) : Dev := (d.setDrive s { d.drive s with inserted := d.now }).wI Ix.strDrvState s 1

/-- A root port stays down whose lanes failed calibration at bring-up (Table 3.5). -/
def Dev.rootDown (d : Dev) (s : Nat) : Bool := d.boot.failed.contains (0x100 + s)

/-- DRIVE_INSERT: STO_PRSNT_N low; the sequence runs in full service, else it waits for the changeover (R300, Table 3.2). -/
def execDriveInsert (t drive : Nat) (s : State) : Res := runIf (drive < 8) t s fun d =>
  let d := d.wr Ix.modDrivePresent 7 0 (setBitTo d.drivePins drive true : Nat)
  if d.fullService && (d.drvState drive = 0 || d.drvState drive = 5) && !d.rootDown drive then d.attachStart drive else d

/-- Drives present at the changeover are attached (R300). -/
def Dev.drivesStart (d : Dev) : Dev :=
  (List.range 8).foldl (fun (a : Dev) s => if bitOf a.drivePins s && a.drvState s = 0 && !a.rootDown s then a.attachStart s else a) d

/-- Whether STO_PERST_N of a root port is low: without a drive, in the first 100 ms of its attachment, and once the drive is lost (Table 11.7,
R304). -/
def Dev.stoPerstLow (d : Dev) (s : Nat) : Bool :=
  d.drvState s == 0 || d.drvState s == 5 || (d.drvState s == 1 && decide (d.now < (d.drive s).inserted + ms 100))

/-- A drive whose label names the mounted volume joins it (R300, R306). -/
def Dev.joinVolume (d : Dev) (s : Nat) : Dev :=
  match d.str.volume with
  | none => d
  | some v =>
    let l := (d.drive s).label
    let pos := l.getD 0 0 / 2 ^ 40
    if l.isEmpty || l.getD 1 0 != v.id || (v.ports.find? pos).isSome then d
    else
      let v := { v with ports := v.ports.put pos s, units := v.units.put pos (l.getD 3 0) }
      (({ d with str := { d.str with volume := some v } }.wI Ix.strDrvState s 3).volReport).volEvent

/-- Why a drive is refused: a given reason (1 LBA format, 2 another), no queue pair, or too few LBAs (R301). -/
def Dev.driveRefusal (d : Dev) (reason lbas granted : Nat) : Option Nat :=
  if reason = 1 then some Code.driveLbaFormat
  else if reason != 0 || granted = 0 || lbas < 8192 + 1024 * (d.n0 Ix.strVolUnitKib / 4) then some Code.driveRefused
  else none

/-- DRIVE_ATTACH_DONE: what the sequence found: refusal (0 none, 1 LBA format, 2 another), link generation and width, 4,096-byte LBAs,
queue pairs granted, volatile write cache, critical warning, bytes a transfer may have (0 no limit), and on namespace 1 the label's slots (none:
[]) and those of the directory entries; the link trains once STO_PERST_N is released (R300, R301). -/
def execDriveAttachDone (t drive reason gen width lbas granted health mdts : Nat) (cache : Bool) (label : List Nat) (dir : List (List Nat))
    (s : State) : Res :=
  runIf (drive < 8) t s fun d =>
    if d.drvState drive != 1 || d.stoPerstLow drive then d
    else
      let d := d.wI Ix.strDrvLink drive (gen * 256 + width)
      match d.driveRefusal reason lbas granted with
      | some c => (((d.wI Ix.strDrvState drive 4).wI Ix.strDrvReason drive (reasonOf c)).strEvent 0x02 drive (reasonOf c) 0).raise 4 c
      | none =>
        let d := d.setDrive drive { d.drive drive with
          lbas := lbas, queues := min granted (d.n0 Ix.strNvmeQueues), depth := d.n0 Ix.strNvmeDepth, cache := cache, mdts := mdts, label := label
          dir := dir.foldl (fun (t : Tab (List Nat)) e => t.put (e.getD 0 0 / 2 ^ 32) e) [] }
        let d := (d.wI Ix.strDrvState drive 2).wI Ix.strDrvReason drive 0
        let d := (d.wI Ix.strDrvCapacity drive (lbas * 4096)).wI Ix.strDrvHealth drive health
        (d.strEvent 0x01 drive (gen * 256 + width) (lbas * 4096)).joinVolume drive

/-! ### Losing a member (R304) -/

/-- The position of a drive in the volume. -/
def Dev.drivePos (d : Dev) (s : Nat) : Option Nat :=
  match d.str.volume with
  | some v => List.findSome? (fun (p : Nat × Nat) => if p.2 = s then some p.1 else none) v.ports
  | none => none

/-- Units of extents that lie on a member. -/
def unitsOn (pos : Nat) (es : List Extent) : Nat :=
  (es.map (fun e => if bitOf e.members pos then
      let dd := (mapMembers e.members).length
      let k := ((mapMembers e.members).filter (fun p => p < pos)).length
      (e.held + (dd - 1 - k)) / dd
    else 0)).sum

/-- A reel goes on without a member: its open extent closes early, a new one opens on the survivors, and the units that were
bound for the lost drive are submitted again (R304). -/
def Dev.reelSurvives (d : Dev) (r pos : Nat) (lost : List NvmeCmd) : Dev :=
  let x := d.reel r
  match x.extents.getLast? with
  | none => d
  | some e =>
    if !bitOf e.members pos then d
    else
      let again := ((lost.filter (fun c => c.reel == r && c.op == 1)).map (fun c => (c.unit, c.slot))).dedup
      let left := e.held - again.length
      let d := d.setReel r { x with extents := x.extents.dropLast ++ [{ e with held := left }] }
      match d.newExtent r (d.reelMap r) with
      | none => ({ d with str := { d.str with spool := d.str.spool.filter (fun p => again.all (fun u => u.2 != p.1)) } }.spoolReport).reelEnds r
      | some d =>
        let d := again.foldl (fun (a : Dev) u => a.submitUnit r u.2 a.unitBytes u.1) d
        let y := d.reel r
        let m := match y.extents.getLast? with | some e => e.members | none => 0
        if y.mode = 0 && !d.reelCarried y m then d.happen (.degradation 8 []) else d

/-- A member leaves: its reels continue on the others (R304). -/
def Dev.memberGone (d : Dev) (s : Nat) : Dev :=
  let lost := (d.drive s).cmds
  let pos := d.drivePos s
  let d := d.setDrive s { d.drive s with cmds := [], queues := 0 }
  match pos, d.str.volume with
  | some p, some v =>
    let d := { d with str := { d.str with volume := some { v with ports := v.ports.del p } } }
    let on := (d.str.reels.map (fun q => q.1)).filter (fun r => d.reelState r == 1 || d.reelState r == 2 || d.reelState r == 6)
    let d := on.foldl (fun (a : Dev) r => (a.reelSurvives r p lost).reelSettled r) d
    (d.volReport).volEvent
  | _, _ => d

/-- A drive is lost (R303, R304). -/
def Dev.driveLost (d : Dev) (s : Nat) : Dev :=
  if d.drvState s != 2 && d.drvState s != 3 then d
  else
    let gone := match d.drivePos s with
      | some p => unitsOn p d.allExtents - (((d.drive s).cmds.filter (fun c => c.op == 1)).map (fun c => (c.reel, c.unit))).dedup.length
      | none => 0
    let d := (d.wI Ix.strDrvState s 5).wI Ix.strDrvReason s (reasonOf Code.driveLost)
    let d := (d.strEvent 0x03 s (reasonOf Code.driveLost) gone).fault 3 Code.driveLost 8 s 0 0
    d.memberGone s

/-- DRIVE_LOST: STO_PRSNT_N has gone high (`gone`), or the controller reports fatal status (R303, R304). -/
def execDriveLost (t drive : Nat) (gone : Bool) (s : State) : Res := runIf (drive < 8) t s fun d =>
  let d := if gone then d.wr Ix.modDrivePresent 7 0 (setBitTo d.drivePins drive false : Nat) else d
  if gone && (d.drvState drive = 1 || d.drvState drive = 4) then d.wI Ix.strDrvState drive 0 else d.driveLost drive

/-- A drive command of a path (R40, R77, Table 11.14). -/
def Dev.driveCommand (d : Dev) (path v drive : Nat) (f : Dev → Dev) : Dev :=
  d.command path Ix.strDriveCmd 0 v fun d =>
    if 8 ≤ drive then d.refuse path Ix.strDriveCmd 0 Code.valueRange
    else if !d.fullService then d.refuse path Ix.strDriveCmd 0 Code.rushesUnavailable else f d

/-- DRIVE_DETACH: its queues are deleted and the drive is left (Table 11.8). -/
def execDriveDetach (t path drive : Nat) (s : State) : Res := run t s fun d =>
  d.driveCommand path (drive * 256 + 1) drive fun d =>
    if d.drvState drive = 0 then d else ((d.wI Ix.strDrvState drive 0).memberGone drive)

/-- DRIVE_ATTACH_CMD: the attach sequence of a drive that is absent, refused or lost (R304). -/
def execDriveAttachCmd (t path drive : Nat) (s : State) : Res := run t s fun d =>
  d.driveCommand path (drive * 256 + 2) drive fun d =>
    if (d.drvState drive = 0 || d.drvState drive = 4 || d.drvState drive = 5) && !d.rootDown drive then d.attachStart drive else d

/-! ### Commands in flight (R302, R303) -/

/-- Write completion time, average over the last second. -/
def Dev.latency (d : Dev) (s ns_ : Nat) : Dev :=
  let x := d.drive s
  let l := (d.now, ns_) :: x.lat.filter (fun p => decide (d.now < p.1 + sec))
  (d.setDrive s { x with lat := l }).wI Ix.strDrvLatency s ((l.map (·.2)).sum / l.length)

/-- A slot is freed when all of its commands have completed; a flush may end its reel's close. -/
def Dev.slotDone (d : Dev) (s : Nat) (c : NvmeCmd) : Dev :=
  if c.op != 1 then d.reelSettled c.reel
  else if (d.drive s).cmds.any (fun x => x.op == 1 && x.slot == c.slot) then d
  else ({ d with str := { d.str with spool := d.str.spool.filter (fun p => p.1 != c.slot) } }.spoolReport).reelSettled c.reel

/-- A completion: status 0 success, 1 an error with DNR clear, 2 an error with DNR set (R303). -/
def Dev.completed (d : Dev) (s id status : Nat) : Dev :=
  let x := d.drive s
  match x.cmds.find? (fun c => c.id == id) with
  | none => d
  | some c =>
    if status = 0 then
      let d := d.setDrive s { x with cmds := x.cmds.filter (fun y => y.id != id) }
      (if c.op = 1 then (d.incI Ix.strDrvWritten s c.bytes).latency s (toNs (d.now - c.issued)) else d).slotDone s c
    else
      let d := d.incI Ix.strDrvErrors s
      if status = 2 || c.retried then d.driveLost s
      else d.setDrive s { x with cmds := x.cmds.map (fun y => if y.id = id then
        { y with retried := true, aborted := false, issued := d.now, queue := (y.queue + 1) % max x.queues 1 } else y) }

/-- NVME_COMPLETION_POLL: the completions of a drive, as command numbers with their status (R302, R303). -/
def execNvmeCompletionPoll (t drive : Nat) (done : List (Nat × Nat)) (s : State) : Res := runIf (drive < 8) t s fun d =>
  done.foldl (fun (a : Dev) p => a.completed drive p.1 p.2) d

/-- NVME_COMMAND_TIMEOUT: a command past `str.nvme_timeout` is aborted; after a second timeout the drive is lost (R303). -/
def execNvmeCommandTimeout (t drive id : Nat) (s : State) : Res := runIf (drive < 8) t s fun d =>
  let x := d.drive drive
  match x.cmds.find? (fun c => c.id == id) with
  | none => d
  | some c =>
    if d.now < c.issued + ms (d.n0 Ix.strNvmeTimeout) then d
    else
      let d := d.incI Ix.strDrvErrors drive
      if c.aborted then d.driveLost drive
      else (d.setDrive drive { x with cmds := x.cmds.map (fun y => if y.id = id then { y with aborted := true, issued := d.now } else y) }).raise 4 Code.driveTimeout

/-- NVME_HEALTH_POLL: the critical-warning byte of the health log (R302, Table 11.8). -/
def execNvmeHealthPoll (t drive warning : Nat) (s : State) : Res := runIf (drive < 8) t s fun d =>
  if 2 ≤ d.drvState drive && d.drvState drive ≤ 3 then d.wI Ix.strDrvHealth drive warning else d

/-! ### Volume commands (R306) -/

/-- A volume command of a path. -/
def Dev.volCommand (d : Dev) (path v : Nat) (f : Dev → Dev) : Dev :=
  d.command path Ix.strVolCmd 0 v fun d =>
    if !d.fullService then d.refuse path Ix.strVolCmd 0 Code.rushesUnavailable else f d

/-- Whether some reel is open, recording or closing. -/
def Dev.reelsOpen (d : Dev) : Bool := d.str.reels.any (fun p => d.reelState p.1 == 1 || d.reelState p.1 == 2 || d.reelState p.1 == 6)

/-- Reels of a volume that is left read as free. -/
def Dev.reelsForget (d : Dev) : Dev :=
  (d.str.reels.map (fun p => p.1)).foldl (fun (a : Dev) r => (a.setReel r {}).setReelState r 0) d

/-- Drives that are attached and not refused, ascending. -/
def Dev.attached (d : Dev) : List Nat := (List.range 8).filter (fun s => d.drvState s == 2 || d.drvState s == 3)

/-- Whole drive units of a drive (Table 11.9). -/
def Dev.driveUnits (d : Dev) (s unitKib : Nat) : Nat := (less (d.drive s).lbas 8192) / max (unitKib / 4) 1

/-- The label of a member (Table 11.10); its CRC slot is formed from the others. -/
def labelOf (v : VolSt) (pos : Nat) : List Nat :=
  let l := [pos * 2 ^ 40 + (v.tokens.filter (fun t => t != 0)).length * 2 ^ 32, v.id, v.unitKib * 2 ^ 24 + v.extent, v.units.get 0 pos, v.generation] ++
    (List.range 8).map (fun i => v.tokens.getD i 0)
  l ++ [crc32 (recBytes (mkRec (l.zipIdx.map (fun p => (0x1090 + p.2, p.1)))))]

/-- Fresh member tokens, none of them zero. -/
def Dev.drawTokens : Nat → Dev → List Nat × Dev
  | 0, d => ([], d)
  | k + 1, d =>
    let (t, d) := d.draw 48
    let (l, d) := Dev.drawTokens k d
    (max t 1 :: l, d)

/-- VOL_FORMAT: every attached drive is deallocated and holds an empty directory and the label of a new volume (R306). Identifier and tokens are free values: the spec names no rule for them. -/
def execVolFormat (t path : Nat) (s : State) : Res := run t s fun d =>
  d.volCommand path 1 fun d =>
    let ports := d.attached
    if d.reelsOpen || ports.isEmpty then d.refuse path Ix.strVolCmd 0 Code.volumeState
    else
      let (id, d) := d.draw 48
      let (toks, d) := Dev.drawTokens ports.length d
      let u := d.n0 Ix.strVolUnitKib
      let pt : Tab Nat := ports.zipIdx.map (fun p => (p.2, p.1))
      let v : VolSt := { id := id, unitKib := u, extent := d.n0 Ix.strVolExtent, tokens := toks, ports := pt, generation := 0
                         units := pt.map (fun p => (p.1, d.driveUnits p.2 u)) }
      let d := d.reelsForget
      let d := { d with str := { d.str with volume := some v, spool := [] } }
      let d := pt.foldl (fun (a : Dev) (p : Nat × Nat) => ((a.setDrive p.2 { a.drive p.2 with label := labelOf v p.1, dir := [], cmds := [] }).nvmeGive p.2
        { id := 0, op := 9, reel := 0, unit := 0, slot := 0, bytes := 0, issued := 0 }).wI Ix.strDrvState p.2 3) d
      (d.volReport).volEvent

/-- A directory entry whose CRC is right (R306). -/
def dirValid (e : List Nat) : Bool := e.length == 512 && e.getD 511 0 == dirCrc e

/-- What a mount reads of a volume's directories: of each entry the copy with a valid CRC and the highest generation (R306). -/
def Dev.dirFound (d : Dev) (ports : Tab Nat) : List (List Nat) :=
  let dirs := ports.map (fun p => (d.drive p.2).dir)
  let keys := (dirs.flatMap (fun t => t.map (·.1))).dedup
  keys.filterMap fun r => (dirs.filterMap (fun t => (t.find? r).filter dirValid)).foldl (fun b e =>
    match b with
    | some o => if o.getD 8 0 % 2 ^ 40 < e.getD 8 0 % 2 ^ 40 then some e else b
    | none => some e) none

/-- A reel as its directory entry says (Table 11.11); one found open is recovered with what the scan of its last extent found: units, and the
reel's samples and lost samples up to there. -/
def Dev.reelFromEntry (d : Dev) (found : List (Nat × Nat × Nat × Nat)) (e : List Nat) : Dev :=
  let g (i : Nat) : Nat := e.getD i 0
  let r := g 0 / 2 ^ 32
  let st := g 0 / 2 ^ 24 % 256
  let n := g 8 / 2 ^ 40
  let chans := g 1 / 2 ^ 32 % 256
  let exts := (List.range n).map (fun k => (⟨g (16 + 2 * k) / 2 ^ 40, g (16 + 2 * k) % 2 ^ 40, g (17 + 2 * k)⟩ : Extent))
  let scan := if st = 1 then found.find? (fun p => p.1 == r) else none
  let exts : List Extent := match exts.getLast?, scan with
      | some l, some p => exts.dropLast ++ [{ l with held := p.2.1 }]
      | _, _ => exts
  let total := match scan with | some p => (p.2.2.1, p.2.2.2, (exts.map (fun (x : Extent) => x.held)).sum) | none => (g 5, g 6, g 7)
  if st = 0 then d.setReel r { generation := g 8 % 2 ^ 40 }
  else if 4 < st then d
  else
    let x : ReelSt := { rate := g 2, sources := (List.range chans).map (fun c => g 9 / 2 ^ (8 * c) % 256), format := g 1 / 2 ^ 40, mode := g 0 / 2 ^ 16 % 256
                        t0 := g 3 * two48 + g 4, extents := exts, units := total.2.2, next := total.1, generation := g 8 % 2 ^ 40 }
    let d := (d.setReel r x).setReelState r (if st = 2 then 3 else if st = 4 then 5 else 4)
    let d := ((d.wW Ix.strReelMode r x.mode).wW Ix.strReelFormat r x.format).wW Ix.strReelSamples r total.1
    let d := ((d.wW Ix.strReelGapSamples r total.2.1).wW Ix.strReelBytes r (total.2.2 * d.unitBytes)).wr Ix.strReelStart 1 r (g 3)
    let d := d.wr Ix.strReelStart 2 r (g 4)
    if st = 1 then (d.dirWrite r).raise 4 Code.reelRecovered else d

/-- The volume that the labels of attached drives make: that of the lowest labelled port. -/
def Dev.labelled (d : Dev) : Option VolSt :=
  match d.attached.find? (fun s => !(d.drive s).label.isEmpty) with
  | none => none
  | some s0 =>
    let l0 := (d.drive s0).label
    let id := l0.getD 1 0
    let mine := d.attached.filter (fun s => (d.drive s).label.getD 1 0 == id && !(d.drive s).label.isEmpty)
    let ports := mine.foldl (fun (t : Tab Nat) s => t.put ((d.drive s).label.getD 0 0 / 2 ^ 40) s) []
    some { id := id, unitKib := l0.getD 2 0 / 2 ^ 24, extent := l0.getD 2 0 % 2 ^ 24, tokens := (List.range 8).map (fun i => l0.getD (5 + i) 0)
           ports := ports, generation := l0.getD 4 0, units := ports.map (fun p => (p.1, (d.drive p.2).label.getD 3 0)) }

/-- VOL_MOUNT: by command, or by the engine (path 4) at the changeover. `found`: of each reel found open, the units with a valid CRC in its last
extent, and the samples and lost samples they end with (R306, R311). -/
def execVolMount (t path : Nat) (found : List (Nat × Nat × Nat × Nat)) (s : State) : Res := run t s fun d =>
  d.volCommand path 2 fun d =>
    if d.reelsOpen then d.refuse path Ix.strVolCmd 0 Code.volumeState
    else match d.labelled with
      | none => d.refuse path Ix.strVolCmd 0 Code.volumeState
      | some v =>
        let d := { d.reelsForget with str := { d.reelsForget.str with volume := some v } }
        let d := v.ports.foldl (fun (a : Dev) (p : Nat × Nat) => a.wI Ix.strDrvState p.2 3) d
        (((d.dirFound v.ports).foldl (fun (a : Dev) e => a.reelFromEntry found e) d).volReport).volEvent

/-- VOL_UNMOUNT (R306). -/
def execVolUnmount (t path : Nat) (s : State) : Res := run t s fun d =>
  d.volCommand path 3 fun d =>
    if d.reelsOpen || d.str.volume.isNone then d.refuse path Ix.strVolCmd 0 Code.volumeState
    else
      let d := d.reelsForget
      let d := (List.range 8).foldl (fun (a : Dev) s => if a.drvState s = 3 then a.wI Ix.strDrvState s 2 else a) d
      ({ d with str := { d.str with volume := none } }.volReport).volEvent

/-! ### Checks and effects of cuts (R291, R302, R310) -/

/-- Fixed record length, in slots, of a spectral layer's records and of a plane's exports (R156, R220). -/
def Dev.layerRecSlots (d : Dev) (l : Nat) : Nat :=
  let count := if d.nI Ix.speRecCount l = 0 then (d.usablePoints l).2 else d.nI Ix.speRecCount l
  10 + ceilDiv (count * (if d.nI Ix.speRecFormat l = 1 then 2 else 6)) 8
def Dev.planeRecSlots (d : Dev) (p : Nat) : Nat :=
  16 + ceilDiv (d.planeW p * d.planeR p * (if d.nI Ix.denExportFormat p = 1 then 4 else 1)) 8

/-- Whether a record of some slots is too long for an open ring (R291). -/
def Dev.ringShort (d : Dev) (r slots : Nat) : Bool := r < 65536 && d.ringState r != 0 && decide (d.ringSlots r / 2 < slots)

/-- The Stream Engine's part of a commit's checks. -/
def Dev.strCheck (d old : Dev) : Option Nat :=
  let small := (List.range 16).any (fun l => d.nI Ix.speLayerSrc l != 0 && d.nI Ix.speRecFormat l != 0 && d.ringShort (d.nI Ix.speRing l) (d.layerRecSlots l)) ||
    (List.range 4).any (fun p => d.nI Ix.denLayer p != 0xFF && d.nI Ix.denExportFormat p != 0 && d.ringShort (d.nI Ix.denRing p) (d.planeRecSlots p))
  let members := match d.str.volume with | some v => v.ports.length | none => 0
  let spool := d.n0 Ix.strSpoolMib * 1048576
  if small then some Code.ringTooSmall
  else if 2097152 < 8 * d.n0 Ix.strNvmeQueues * d.n0 Ix.strNvmeDepth * 80 then some Code.queueMemory
  else if d.n0 Ix.strSpoolMib != old.n0 Ix.strSpoolMib && spool < 64 * d.unitBytes * members then some Code.spoolSize
  else none

/-- The spool is taken from capture memory, at the changeover or with a new size while no slot of it is in use (R310). -/
def Dev.spoolStart (d : Dev) : Dev :=
  match (d.release 0x12 0).alloc 0x12 0 (d.n0 Ix.strSpoolMib * 1048576) false with
  | some q => q.2
  | none => (d.release 0x12 0).raise 4 Code.spoolSize

/-- The Stream Engine applies its part of a cut. -/
def Dev.strCut (d old : Dev) : Dev :=
  if d.n0 Ix.strSpoolMib != old.n0 Ix.strSpoolMib && d.fullService && d.str.spool.isEmpty then d.spoolStart else d

end Sys2Proof.Machine
end

