-- ==== Sys2Proof/Machine/Playback.lean ====
section
/-! DEFINITION. Stream Engine: playback (11_stream_engine.md, R312 to R314). -/

namespace Sys2Proof.Machine

def Dev.pb (d : Dev) (p : Nat) : PbSt := d.str.pbs.get {} p
def Dev.setPb (d : Dev) (p : Nat) (x : PbSt) : Dev := { d with str := { d.str with pbs := d.str.pbs.set {} p x } }
def Dev.pbKind (d : Dev) (p : Nat) : Nat := d.nI Ix.strPbSrc p
def Dev.pbAddr (d : Dev) (p : Nat) : Nat := d.nI Ix.strPbAddr p
def Dev.pbFirst (d : Dev) (p : Nat) : Nat := d.nI Ix.strPbFirst p

/-- A stored sample as 24-bit parts (R4, Table 0.4). -/
def decodeSample (fmt : Nat) (l : List Byte) : Int × Int :=
  let n := ofLeBytes l
  if fmt = 1 then (ofTwos 24 n, ofTwos 24 (n / 2 ^ 24))
  else if fmt = 2 then (ofTwos 16 n * 256, ofTwos 16 (n / 2 ^ 16) * 256)
  else if fmt = 3 then (ofTwos 12 n * 4096, ofTwos 12 (n / 2 ^ 12) * 4096)
  else (ofTwos 16 n * 256, 0)

/-- Rate in mHz and format of a playback's source (R312). -/
def Dev.pbSource (d : Dev) (p : Nat) : Nat × Nat :=
  let a := d.pbAddr p
  if d.pbKind p = 1 then (d.nI Ix.strPbFs p, d.nI Ix.strPbFormat p)
  else if d.pbKind p = 2 then ((d.reel a).rate, (d.reel a).format)
  else if d.pbKind p = 3 then ((d.cap.streams.get {} a).rate, (d.cap.streams.get {} a).fmt)
  else if d.pbKind p = 4 then (d.magRate (a / 2 ^ 20 % 256), d.nW Ix.trgMagFormat (a / 2 ^ 20 % 256))
  else (0, 0)

/-- The take that a kind 4 playback names. -/
def Dev.pbTake (d : Dev) (p : Nat) : Option Take :=
  let a := d.pbAddr p
  (d.mag (a / 2 ^ 20 % 256)).takes.find? (fun t => t.index == a % 2 ^ 20 && t.complete)

/-- Samples a pass plays, from the first index to the end where `str.pb_count` is 0 (R312). -/
def Dev.pbLength (d : Dev) (p : Nat) : Nat :=
  let n := d.nI Ix.strPbCount p
  let a := d.pbAddr p
  let end_ := if d.pbKind p = 2 then d.nW Ix.strReelSamples a else if d.pbKind p = 3 then d.nI Ix.capCsWritten a
    else if d.pbKind p = 4 then (match d.pbTake p with | some t => t.pre + t.post | none => 0) else 0
  if n = 0 then end_ - d.pbFirst p else n

/-- Capacity in samples of a capture stream's region. -/
def Dev.csSamples (d : Dev) (a : Nat) : Nat :=
  match d.allocOf 1 a with
  | some x => x.length / formatBytes (d.cap.streams.get {} a).fmt
  | none => 0

/-- Whether the samples of a playback are to be had (R312). -/
def Dev.pbAvailable (d : Dev) (p : Nat) : Bool :=
  let a := d.pbAddr p
  let k := d.pbKind p
  let n := d.pbLength p
  if k = 1 then n != 0 && decide (a + (d.pbFirst p + n) * formatBytes (d.nI Ix.strPbFormat p) ≤ 2 ^ 37)
  else if k = 2 then a < 4096 && 1 < d.reelState a && d.nI Ix.strPbChan p < (d.reel a).sources.length
  else if k = 3 then a < 4 && d.csSamples a != 0 && decide (d.nI Ix.capCsWritten a - d.csSamples a ≤ d.pbFirst p)
  else if k = 4 then (d.pbTake p).isSome && d.nI Ix.strPbChan p < (d.magChans (a / 2 ^ 20 % 256)).length
  else false

/-- A playback command of a path. -/
def Dev.pbCommand (d : Dev) (path p v : Nat) (f : Dev → Dev) : Dev :=
  d.command path Ix.strPbCmd (p + 1) v fun d =>
    if !d.fullService then d.refuse path Ix.strPbCmd (p + 1) Code.rushesUnavailable else f d

/-- The original time of a playback's first sample; 0 when unknown (R312, R314). -/
def Dev.pbOrigin (d : Dev) (p : Nat) : Nat :=
  let a := d.pbAddr p
  let j := d.pbFirst p
  if d.pbKind p = 2 then reelTime (d.reel a) j
  else if d.pbKind p = 3 then (d.cap.streams.get {} a).t0 + inputTime j (d.cap.streams.get {} a).rate
  else if d.pbKind p = 4 then
    match d.pbTake p with
    | some t => d.magTime (a / 2 ^ 20 % 256) (t.trig - t.pre + j)
    | none => 0
  else 0

/-- The limit of a playback's rate, mHz: 8 complex or 16 real samples a clock of the Channeliser (R313). -/
def Dev.pbLimit (d : Dev) (real : Bool) : Nat := (if real then 16 else 8) * d.clockKHz 2 * 1000000

/-- PB_START: release begins at T0, the first sample instant at or after the commit point plus the lead (R312, R313). The limit of the
rate scales with the clock of the pipeline. -/
def execPbStart (t path pb : Nat) (s : State) : Res := runEntry (pb < 4) path Ix.strPbCmd (pb + 1) 1 t s fun d =>
  d.pbCommand path pb 1 fun d =>
    let (f, fmt) := d.pbSource pb
    let real := fmt = 4
    if !d.pbAvailable pb then d.refuse path Ix.strPbCmd (pb + 1) Code.pbRange
    else if f = 0 || d.pbLimit real < f then d.refuse path Ix.strPbCmd (pb + 1) Code.pbRate
    else
      let tc := tickAt (d.time96 + 1)
      let t0 := gridAfter (tc + us (d.nI Ix.strPbLead pb)) f
      let d := d.setPb pb { t0 := t0, ix := (roundEven ((t0 * f : Nat) : Int) (two48 * 1000)).toNat, rate := f, width := fmt, pass := 0, next := 0, count := d.pbLength pb, origin := d.pbOrigin pb }
      let d := { d with chn := { d.chn with pbRate := d.chn.pbRate.set 0 pb f, pbReal := d.chn.pbReal.set false pb real } }.pipeReports
      ((d.wI Ix.strPbState pb 1).wI Ix.strPbReleased pb 0).wI Ix.strPbGapSamples pb 0

/-- The open gap of a playback channel closes (R298, R313). -/
def Dev.pbGapEnd (d : Dev) (p stamp : Nat) : Dev :=
  let x := d.pb p
  match x.gapFirst with
  | some (i, cause) =>
    let first := x.t0 + inputTime i x.rate
    let d := d.setPb p { x with gapFirst := none }
    let d := d.gap ⟨.playback p, 1, first, stamp, x.next - i, d.pbFirst p + i, cause⟩
    if cause = 12 then d.strEvent 0x09 p (x.next - i) (d.pbFirst p + i) else d
  | none => d

/-- The channel no longer feeds the Channeliser. -/
def Dev.pbEnds (d : Dev) (p state : Nat) : Dev :=
  let d := d.pbGapEnd p ((d.pb p).t0 + inputTime (d.pb p).next (d.pb p).rate)
  let d := { d with chn := { d.chn with pbRate := d.chn.pbRate.set 0 p 0, pbReal := d.chn.pbReal.set false p false } }
  (d.wI Ix.strPbState p state).pipeReports

/-- PB_STOP: samples from the next 1 µs boundary on are released no more; the channel is idle at the first of them (R313, Table 11.14). -/
def execPbStop (t path pb : Nat) (s : State) : Res := runEntry (pb < 4) path Ix.strPbCmd (pb + 1) 2 t s fun d =>
  d.pbCommand path pb 2 fun d =>
    if (d.nI Ix.strPbState pb = 1 || d.nI Ix.strPbState pb = 2) && (d.pb pb).stop.isNone then
      let b := tickAt (d.time96 + 1)
      let x := d.pb pb
      let d := d.setPb pb { x with stop := some b }
      if b ≤ x.t0 + inputTime x.next x.rate then d.pbEnds pb 0 else d
    else d

/-- The record of a pass (R314). -/
def Dev.pbRecord (d : Dev) (p : Nat) : Rec :=
  let x := d.pb p
  mkRec [(0x1050, p * 2 ^ 40 + d.pbKind p * 2 ^ 32 + x.pass % 2 ^ 32), (0x1051, sec48 x.t0), (0x1052, frac48 x.t0),
    (0x1053, sec48 x.origin), (0x1054, frac48 x.origin), (0x1055, x.rate), (0x1056, d.pbFirst p)]

/-- PB_PASS: the first pass, or, while looping, a new pass at the next sample instant; each junction is a source switch (R122, R313, R314). -/
def execPbPass (t pb : Nat) (s : State) : Res := runIf (pb < 4) t s fun d =>
  let x := d.pb pb
  let st := d.nI Ix.strPbState pb
  if x.stop.any (· ≤ x.t0 + inputTime x.next x.rate) && (st = 1 || st = 2) then d.pbEnds pb 0
  else if st = 1 then (d.wI Ix.strPbState pb 2).emitTo (d.n0 Ix.strEventRing) Ix.strEventsLost (d.pbRecord pb)
  else if st = 2 && x.count ≤ x.next && d.nI Ix.strPbLoop pb = 1 then
    let t1 := x.t0 + inputTime x.next x.rate
    let d := d.pbGapEnd pb t1
    let d := d.setPb pb { d.pb pb with t0 := t1, ix := x.ix + x.next, pass := x.pass + 1, next := 0 }
    let d := (d.ddcsOn (0x40 + pb)).foldl (fun (a : Dev) n =>
      let ne := a.ddcAfter n t1
      a.unsettle n 3 (a.ddcTime n (ne - a.gDelay n)) (a.ddcTime n (ne + a.gDelay n))) d
    d.emitTo (d.n0 Ix.strEventRing) Ix.strEventsLost (d.pbRecord pb)
  else d

/-- Flags and gap cause that records restore for position j of a channel: those of gap markers, of flag runs over the whole span they record, and
of settle runs, which begin at the position of their instant (R298, R312, R313). -/
def restored (l : List Rec) (c : Nat) (src : Source) (at_ : Nat → Nat) (j : Nat) : Nat :=
  match gapAt l c j with
  | some r => recValue r 0 / 2 ^ 40 * 16
  | none =>
    let run (f : Nat) : Bool := l.any fun r => recTag r == 0x0F20 && recValue r 0 / 2 ^ 40 == c && recValue r 0 / 2 ^ 32 % 256 == f &&
      recValue r 3 ≤ j && j < recValue r 3 + recValue r 0 % 2 ^ 32
    let settle := l.any fun r => recTag r == 0x0D20 && recValue r 0 / 2 ^ 40 == src.ddcNumber &&
      at_ (recTime r) ≤ j && j < at_ (recTime r) + recValue r 0 % 2 ^ 32
    (if run 1 then 1 else 0) + (if run 2 then 2 else 0) + (if run 3 then 4 else 0) + (if settle then 8 else 0)

/-- Records among the slots of a log, each where its first tag stands. -/
def scanRecs : Nat → List (Nat × Nat) → List Rec
  | 0, _ => []
  | _, [] => []
  | k + 1, (t, v) :: r =>
    let n := if t = 0x1000 then 5 else if t = 0x0D20 || t = 0x0F20 then 4 else 0
    if n = 0 then scanRecs k r else { slots := ((t, v) :: r).take n } :: scanRecs k r

/-- The records that a capture stream's log holds after its slate (R264). -/
def Dev.csRecords (d : Dev) (cs : Nat) (m : Mem) : List Rec :=
  match d.allocOf 4 cs with
  | none => []
  | some a =>
    let n := min (d.cap.streams.get {} cs).logPos (a.length - 136) / 8
    scanRecs n ((List.range n).map fun i =>
      let v := ofLeBytes (d.readAlloc a m (136 + 8 * i) 8)
      (v / 2 ^ 48, v % 2 ^ 48))

/-- Sample j of a playback with its flags and the cause of its gap: from capture memory with what its log or trailer restores, or, of a reel, as
its units give it (R298, R312). -/
def Dev.pbSample (d : Dev) (p j : Nat) (given : Int × Int × Nat) (m : Mem) : Int × Int × Nat :=
  let fmt := (d.pb p).width
  let w := formatBytes fmt
  let a := d.pbAddr p
  let of (l : List Byte) (loss flags : Nat) : Int × Int × Nat :=
    let v := decodeSample fmt l
    (v.1, v.2, if gapCause flags != 0 then flags else if loss != 0 then loss * 16 else flags)
  if d.pbKind p = 1 then
    let l := addrRange (a + j * w) w
    of (l.map (d.bar2Byte m)) (((l.map d.bar2Loss).find? (· != 0)).getD 0) 0
  else if d.pbKind p = 3 then
    match d.allocOf 1 a with
    | some x =>
      let o := if x.length = 0 then 0 else j * w % x.length
      let c : CsSt := d.cap.streams.get {} a
      let src := sourceOf c.src
      of (d.readAlloc x m o w) (d.bytesLoss x o w) (restored (d.csRecords a m) 0 src (fun time => d.sampleAfter src time - c.n0) j)
    | none => given
  else if d.pbKind p = 4 then
    match d.pbTake p with
    | some t =>
      let k := a / 2 ^ 20 % 256
      let c := d.nI Ix.strPbChan p
      let n := t.trig + j - t.pre
      let log := (t.logged.getD ({ slots := [] }, [], false)).2.1
      of (d.storedSample k c n t m) (d.posLoss k c n t)
        (restored log c (sourceOf ((d.magChans k).getD c 0)) (fun time => d.magAfter k time + t.pre - t.trig) j)
    | none => given
  else given

/-- Whether a position is there to be staged: a reel or stream has been recorded up to it, a take holds it (R313). -/
def Dev.pbThere (d : Dev) (p j : Nat) : Bool :=
  let a := d.pbAddr p
  if d.pbKind p = 2 then j < d.nW Ix.strReelSamples a
  else if d.pbKind p = 3 then j < d.nI Ix.capCsWritten a
  else if d.pbKind p = 4 then (match d.pbTake p with | some t => decide (j < d.takeHeld (a / 2 ^ 20 % 256) t) | none => false)
  else true

/-- Why the present index releases nothing: a repointing, the part of a take before P - V, a gap of the recording (one of a lost burst, a hole or
a lost unit keeps its cause, any other is a source gap), or underflow. -/
def Dev.pbCause (d : Dev) (p j : Nat) (staged : Bool) (v : Int × Int × Nat) : Nat :=
  let early := match (if d.pbKind p = 4 then d.pbTake p else none) with
    | some t => decide (j < t.pre - t.valid)
    | none => false
  let c := gapCause v.2.2
  if d.str.suspended then 10 else if early then 13 else if c = 3 || c = 4 || c = 7 then c else if c != 0 then 1
  else if !staged || !d.pbThere p j then 12 else 0

/-- PB_RELEASE: the next sample of a playing channel at its instant: whether it is staged, and, for a reel, the sample with its flags and gap
cause as in a take (R312, R313). -/
def execPbRelease (t pb : Nat) (staged : Bool) (v : Int × Int × Nat) (s : State) : Res :=
  runMemIf (pb < 4) t s fun m d =>
    let x := d.pb pb
    if d.nI Ix.strPbState pb != 2 || x.count ≤ x.next then (m, d)
    else
      let j := d.pbFirst pb + x.next
      let stamp := x.t0 + inputTime x.next x.rate
      let w := d.pbSample pb j v m
      let cause := d.pbCause pb j staged w
      if x.stop.any (· ≤ stamp) then (m, d.pbEnds pb 0)
      else
      let d := if cause = 0 then
          let d := d.pbGapEnd pb stamp
          let out : Sample := { i := w.1, q := w.2.1, ovr := if bitOf w.2.2 0 then 1 else 0, crc := bitOf w.2.2 1, sat := bitOf w.2.2 2, unsettled := bitOf w.2.2 3 }
          let d := (d.setPb pb { d.pb pb with next := x.next + 1, stamp := stamp, out := out }).incI Ix.strPbReleased pb
          let d := d.crossInto (0x40 + pb) (x.ix + x.next) [out]
          match d.wideTaker (0x40 + pb) with
          | some p => if x.width = 4 && x.next % 2 = 0 then d else d.analysed p 1 1
          | none => d
        else
          let begun := x.gapFirst.isNone
          let y := { x with next := x.next + 1, gapFirst := some (x.gapFirst.getD (x.next, cause)) }
          let d := (d.setPb pb y).incI Ix.strPbGapSamples pb
          if cause = 12 && begun then d.raise 4 Code.pbUnderflow else d
      (m, if x.count ≤ x.next + 1 && d.nI Ix.strPbLoop pb != 1 then d.pbEnds pb 3 else d)

end Sys2Proof.Machine
end

