-- ==== Sys2Proof/Machine/Interval.lean ====
section
/-! DEFINITION. Interval Meter: edge stamps, intervals, statistics and frequency (13_interval_meter.md). -/

namespace Sys2Proof.Machine

/-- One period of the time clock, and picoseconds and nanoseconds, in attoseconds (R347). -/
def asClock : Int := 1250000000
def asPs : Int := 1000000
def asNs : Int := 1000000000

/-- A TIME96 in attoseconds, and back, rounded (R347). -/
def toAs (t : Nat) : Int := ((t * 10 ^ 18 / two48 : Nat) : Int)
def ofAs (x : Int) : Nat := (roundEven (x * (two48 : Int)) (10 ^ 18)).toNat

/-- The present TIME96 in attoseconds. -/
def Dev.asNow (d : Dev) : Int := toAs d.time96

/-- A square root of a ratio, rounded to the nearest integer, halves to the even one (R5, R354). -/
def sqrtRatio (a b : Nat) : Nat :=
  let r := isqrtFrom 100 0 (a / b)
  if b * (2 * r + 1) * (2 * r + 1) < 4 * a then r + 1
  else if b * (2 * r + 1) * (2 * r + 1) = 4 * a then r + r % 2
  else r

/-- Channels and sites. -/
def Dev.imCh (d : Dev) (ch : Nat) : ImChan := (d.im.chans.find? ch).getD {}
def Dev.setImCh (d : Dev) (ch : Nat) (x : ImChan) : Dev := { d with im := { d.im with chans := d.im.chans.put ch x } }
def Dev.imSite (d : Dev) (s : Nat) : ImSite := (d.im.sites.find? s).getD {}
def Dev.setImSite (d : Dev) (s : Nat) (x : ImSite) : Dev := { d with im := { d.im with sites := d.im.sites.put s x } }
def Dev.imState (d : Dev) (ch : Nat) : Nat := d.nI Ix.imChanState ch
def Dev.setImState (d : Dev) (ch st : Nat) : Dev := d.wI Ix.imChanState ch st

/-- The setting the entries of a channel give. -/
def Dev.imCfg (d : Dev) (ch : Nat) : ImCfg :=
  { startSrc := d.nI Ix.imStartSrc ch, startEdge := d.nI Ix.imStartEdge ch, stopSrc := d.nI Ix.imStopSrc ch
    stopEdge := d.nI Ix.imStopEdge ch, mode := d.nI Ix.imMode ch, signed := d.nI Ix.imSigned ch == 1
    winOpen := d.nI Ix.imWinOpen ch, winClose := d.nI Ix.imWinClose ch, statN := d.nI Ix.imStatN ch
    again := d.nI Ix.imRepeat ch == 1, ring := d.nI Ix.imRing ch, logEach := d.nI Ix.imLogEach ch == 1
    gateNs := d.nI Ix.imGateNs (ch - 8), stamps := d.nI Ix.imGateStamps (ch - 8), align := d.nI Ix.imGateAlign (ch - 8) }

/-- The block of a channel starts empty. -/
def ImChan.emptyBlock (x : ImChan) : ImChan :=
  { x with first := none, n := 0, sum := 0, sq := 0, lo := 0, hi := 0, tmo := 0, blockFlags := 0 }

/-- The measurement of a channel starts empty. -/
def ImChan.emptyStart (x : ImChan) : ImChan := { x with start := none, span := 0, shift := 0, flags := 0 }

/-- Where the window of a channel's measurement closes, with the steps of time since its start (R351, R359). -/
def ImChan.closing (x : ImChan) : Int := x.start.getD 0 + x.shift + (x.cfg.winClose : Int) * asClock

/-- At a measurement boundary a channel takes the setting in force; a change restarts the statistics (R358). -/
def Dev.imAdopt (d : Dev) (ch : Nat) : Dev :=
  let x := d.imCh ch
  let c := d.imCfg ch
  if c = x.cfg then d.setImCh ch { x with cutAt := none }
  else d.setImCh ch { x.emptyBlock with cfg := c, cutAt := none }

/-- SLEWING and REF_HOLDOVER of a result taken now (R359). -/
def Dev.imTimeFlags (d : Dev) : Nat :=
  let st := d.n0 Ix.tbLoopState
  (if d.tb.slew.isSome then 0x80 else 0) + (if st = 0 || st = 4 || st = 5 then 0x20 else 0)

/-! ### Results (R353, R354, R363) -/

/-- A result record; one that the ring cannot take is counted (R363). The flags come back as written. -/
def Dev.imRecord (d : Dev) (ch kind flags : Nat) (slots : List (Nat × Nat)) : Dev :=
  let x := d.imCh ch
  let fl := flags ||| (if x.deferred then 0x400 else 0)
  let d := d.setImCh ch { x with seq := x.seq + 1, deferred := false }
  let d := d.wI Ix.imLastFlags ch fl
  let lost := x.cfg.ring != noRing && !d.ringTakes x.cfg.ring
  let d := d.emitTo x.cfg.ring Ix.imRecordsLost
    (mkRec ((0x1200, ch * 2 ^ 40 + kind * 2 ^ 36 + fl * 2 ^ 20 + x.seq % 2 ^ 20) :: slots))
  if lost then d.raise 4 Code.imRecordsLost else d

/-- The two time slots of a record. -/
def imTimes (t : Int) : List (Nat × Nat) := [(0x1201, sec48 (ofAs t)), (0x1202, frac48 (ofAs t))]

/-- An interval record (Table 13.5). -/
def Dev.imInterval (d : Dev) (ch flags : Nat) (t : Int) (n f spanA spanB : Nat) : Dev :=
  d.imRecord ch 1 flags (imTimes t ++ [(0x1203, n), (0x1204, f), (0x1205, spanA % 2 ^ 24 * 2 ^ 24 + spanB % 2 ^ 24)])

/-- A block ends with its statistics (R354). -/
def Dev.imBlockEnd (d : Dev) (ch extra : Nat) : Dev :=
  let x := d.imCh ch
  let mean := roundEven x.sum x.n
  let spread := (((x.n * x.sq : Nat) : Int) - x.sum * x.sum).toNat
  let dev := if x.n ≤ 1 then 0 else sqrtRatio spread (x.n * (x.n - 1))
  let big := decide (two48 ≤ dev)
  let dev := min dev (two48 - 1)
  let fl := x.blockFlags ||| extra ||| (if big then 0x200 else 0) ||| d.imTimeFlags
  let part (v : Int) : Int × Nat := (v / asClock, (v % asClock).toNat)
  let m := part mean
  let lo := part x.lo
  let hi := part x.hi
  let d := ((d.wr Ix.imMeanN (ch + 1) 0 m.1).wI Ix.imMeanFine ch m.2).wI Ix.imDev ch dev
  let d := (d.wr Ix.imMinN (ch + 1) 0 lo.1).wI Ix.imMinFine ch lo.2
  let d := ((d.wr Ix.imMaxN (ch + 1) 0 hi.1).wI Ix.imMaxFine ch hi.2).wI Ix.imCount ch x.n
  let d := d.imRecord ch 2 fl (imTimes (x.first.getD 0) ++ [(0x1203, x.n), (0x1204, x.tmo), (0x1205, toTwos 48 m.1), (0x1206, m.2), (0x1207, dev),
    (0x1208, toTwos 48 lo.1), (0x1209, lo.2), (0x120A, toTwos 48 hi.1), (0x120B, hi.2)])
  d.setImCh ch (d.imCh ch).emptyBlock

/-- The work of a channel has ended: it is off after a drain, waits for its next start, or is idle (R354, R357). -/
def Dev.imRest (d : Dev) (ch : Nat) (more : Bool) : Dev :=
  let x := d.imCh ch
  let d := d.setImCh ch x.emptyStart
  if x.drain.isSome then (d.setImCh ch { x.emptyStart with drain := none }).setImState ch 0
  else
    let d := d.imAdopt ch
    if more then { (d.setImState ch 2) with im := (d.setImCh ch { d.imCh ch with armed := d.asNow }).im } else d.setImState ch 1

/-- The dead time after a stop or a timeout: 8 island clocks (R351, R361). -/
def Dev.imDead (d : Dev) : Int := ((8 * 10 ^ 15 / max (d.clockKHz 0xA) 1 : Nat) : Int)

/-- A measurement ends with a value in attoseconds (R352 to R354). -/
def Dev.imValue (d : Dev) (ch : Nat) (v stop : Int) (span fl : Nat) : Dev :=
  let x := d.imCh ch
  let un := v.natAbs < 4000000
  let v := if un then 0 else v
  let fl := x.flags ||| fl ||| d.imTimeFlags ||| (if un then 1 else 0) ||| (if v < 0 then 2 else 0)
  let n := v / asClock
  let f := (v % asClock).toNat
  let d := ((d.wr Ix.imLastN (ch + 1) 0 n).wI Ix.imLastFine ch f).wI Ix.imLastFlags ch fl
  let d := (d.incI Ix.imMeasurements ch).slotsEnd 0xA ch true
  let d := if un then d.incI Ix.imUnresolved ch else d
  let t0 := x.start.getD 0
  let d := d.setImCh ch { x with dead := max stop (t0 + x.shift) + d.imDead, stops := [] }
  if x.cfg.mode = 0 then (d.imInterval ch fl t0 (toTwos 48 n) f x.span span).imRest ch x.cfg.again
  else
    let log := x.cfg.logEach && (match x.logged with | some w => decide (w + 100 * asNs ≤ t0) | none => true)
    let d := if log then
        let e := d.imInterval ch fl t0 (toTwos 48 n) f x.span span
        e.setImCh ch { e.imCh ch with logged := some t0 }
      else d
    let y := d.imCh ch
    let d := d.setImCh ch { y with
      first := some (y.first.getD t0), n := y.n + 1, sum := y.sum + v, sq := y.sq + v.natAbs * v.natAbs
      lo := if y.n = 0 then v else min y.lo v, hi := if y.n = 0 then v else max y.hi v, blockFlags := y.blockFlags ||| fl }
    if x.cfg.statN ≤ x.n + 1 then (d.imBlockEnd ch 0).imRest ch x.cfg.again
    else
      let d := d.setImCh ch (d.imCh ch).emptyStart
      (d.imAdopt ch).setImState ch 2

/-! ### Frequency (R355, R356) -/

/-- Where the gate of a channel begins, where its alignment and not an edge gives it. -/
def ImChan.gateDue (x : ImChan) : Option Int :=
  if x.cfg.align = 0 then some ((x.armed / 1000000000000 + 1) * 1000000000000)
  else if x.cfg.align = 2 then
    let g := (max x.cfg.gateNs 1 : Nat) * asNs
    some ((x.armed + g - 1) / g * g)
  else none

/-- A gate begins. -/
def Dev.gateBegin (d : Dev) (ch : Nat) (g : Int) : Dev :=
  let x := d.imCh ch
  (d.setImCh ch { x with gate := some { g := g, ns := x.cfg.gateNs, ticks := x.cfg.stamps, flags := d.imTimeFlags } }).setImState ch 4

/-- A gate ends, at its end or early; its frequency is still to be written. -/
def Dev.gateEnd (d : Dev) (ch extra : Nat) (more : Bool) : Dev :=
  let x := d.imCh ch
  match x.gate with
  | none => d
  | some g =>
    let d := (d.slotsEnd 0xA ch (2 ≤ g.used)).setImCh ch { x with gate := none, gates := x.gates ++ [{ g with flags := g.flags ||| extra ||| d.imTimeFlags }] }
    let next := more && x.cfg.again && x.drain.isNone
    let d := d.imRest ch next
    if next && (d.imCh ch).cfg.mode = 2 then d.gateBegin ch (g.g + g.shift + (g.ns : Int) * asNs) else d

/-- An edge inside the gate: it is counted, and stamped where it is the first of its tick. -/
def ImGate.edge (g : ImGate) (t : Int) (fl : Nat) : ImGate :=
  let e := t - g.shift - g.g
  let tick := (e * (g.ticks : Int) / ((max g.ns 1 : Nat) * asNs)).toNat
  let c : Int := (g.edges + 1 : Nat)
  let g := { g with edges := g.edges + 1, flags := g.flags ||| fl }
  if g.lastTick = some tick then g
  else { g with
    lastTick := some tick, used := g.used + 1, st := g.st + e, sc := g.sc + c, stt := g.stt + e * e, stc := g.stc + e * c
    scc := g.scc + c * c }

/-- Gates that lie before an instant end, each followed by its successor (R355); `fuel` bounds how many. -/
def Dev.gatesPast : Nat → Dev → Nat → Int → Dev
  | 0, d, _, _ => d
  | fuel + 1, d, ch, t =>
    match (d.imCh ch).gate with
    | some g => if g.g + g.shift + (g.ns : Int) * asNs ≤ t then (d.gateEnd ch 0 true).gatesPast fuel ch t else d
    | none => d

/-- How many gates of a channel can lie before an instant. -/
def Dev.gateCount (d : Dev) (ch : Nat) (t : Int) : Nat :=
  match (d.imCh ch).gate with
  | some g => 1 + ((t - g.g - g.shift) / ((max g.ns 1 : Nat) * asNs)).toNat
  | none => 0

/-- An edge of the start site of a channel in mode 2. -/
def Dev.gateEdge (d : Dev) (ch : Nat) (t : Int) (fl : Nat) : Dev :=
  let d := if d.imState ch = 2 then
      match (d.imCh ch).gateDue with
      | some g => if g ≤ t then d.gateBegin ch g else d
      | none => d.gateBegin ch t
    else d
  let d := Dev.gatesPast (d.gateCount ch t) d ch t
  match (d.imCh ch).gate with
  | some g =>
    if g.g ≤ t - g.shift && decide (t - g.shift < g.g + (g.ns : Int) * asNs) then d.setImCh ch { d.imCh ch with gate := some (g.edge t fl) } else d
  | none => d

/-- The least-squares slope in units of 2^-48 Hz, and the residual in fs; none where the stamps give no line (R356). -/
def ImGate.slope (g : ImGate) : Option (Nat × Nat) :=
  let n : Int := g.used
  let xx := n * g.stt - g.st * g.st
  let xy := n * g.stc - g.st * g.sc
  let yy := n * g.scc - g.sc * g.sc
  if g.used < 2 || xx ≤ 0 || xy ≤ 0 then none
  else
    let f := roundEven (xy * (10 ^ 18 * two48 : Nat)) xx.toNat
    some (f.toNat, sqrtRatio ((yy * xx - xy * xy) * xx).toNat (n * n * xy * xy * 1000000).toNat)

/-- The frequency of the oldest gate is written: entries and record (R356, R363). -/
def Dev.freqReady (d : Dev) (ch : Nat) : Dev :=
  let x := d.imCh ch
  match x.gates with
  | [] => d
  | g :: rest =>
    let d := d.setImCh ch { x with gates := rest }
    let k := ch - 8
    let d := (d.wI Ix.imFreqStamps k g.used).wI Ix.imEdges k g.edges
    let head := imTimes g.g ++ [(0x1203, g.ns), (0x1204, g.used), (0x1205, g.edges)]
    match g.slope with
    | some (f, r) =>
      let r := min r 0xFFFFFFFF
      let d := ((d.wI Ix.imFreqHz k (f / two48)).wI Ix.imFreqFrac k (f % two48)).wI Ix.imFreqResid k r
      d.imRecord ch 3 g.flags (head ++ [(0x1206, f / two48), (0x1207, f % two48), (0x1208, r)])
    | none =>
      let (a, d) := d.draw 48
      let (b, d) := d.draw 48
      let (c, d) := d.draw 48
      d.imRecord ch 3 (g.flags ||| 0x100) (head ++ [(0x1206, a), (0x1207, b), (0x1208, c)])

/-! ### Starts and stops (R351, R352) -/

/-- Whether an edge is of a selected kind: 2 is either. -/
def edgeIs (want edge : Nat) : Bool := want == 2 || want == edge

/-- Whether an interval counts as the stop of a start: within 4 ps of it, in either order, and after it, by the window; before it where signed
mode lets it. -/
def ImCfg.accepts (c : ImCfg) (x : Int) : Bool :=
  if x < 0 then
    if x.natAbs < 4000000 then c.signed || decide ((c.winOpen : Int) * asPs ≤ -x) else c.signed && decide (-x ≤ 20 * asNs)
  else decide ((c.winOpen : Int) * asPs ≤ x) && decide (x ≤ (c.winClose : Int) * asClock)

/-- A stop edge while a channel waits for one. -/
def Dev.imStop (d : Dev) (ch : Nat) (t : Int) (span fl : Nat) : Dev :=
  let x := d.imCh ch
  match x.start with
  | some s => if x.cfg.accepts (t - s - x.shift) then d.imValue ch (t - s - x.shift) t span fl else d
  | none => d

/-- The stop edge seen before the start that is nearest to it; failing one, the first after it. -/
def ImChan.earlier (x : ImChan) (s : Int) : Option (Int × Nat × Nat) :=
  let ok : List (Int × Nat × Nat) := x.stops.filter (fun p => x.cfg.accepts (p.1 - s))
  let before := ok.filter (fun p => decide (p.1 < s))
  match before with
  | p :: r => some (r.foldl (fun b q => if b.1 < q.1 then q else b) p)
  | [] => match ok with
    | p :: r => some (r.foldl (fun b q => if q.1 < b.1 then q else b) p)
    | [] => none

/-- A start edge while a channel waits for one. -/
def Dev.imStart (d : Dev) (ch : Nat) (t : Int) (span fl : Nat) : Dev :=
  let x := d.imCh ch
  if t < x.dead then d
  else
    let d := (d.setImCh ch { x with start := some t, span := span, shift := 0, flags := fl ||| d.imTimeFlags }).setImState ch 3
    match x.earlier t with
    | some (p, sp, f) => d.imValue ch (p - t) p sp f
    | none => d

/-- No stop by the window's close: the measurement ends with TIMEOUT and no value (R351). -/
def Dev.imTimedOut (d : Dev) (chan : Nat) : Dev :=
  let x := d.imCh chan
  match x.start with
  | none => d
  | some st =>
    let fl := x.flags ||| d.imTimeFlags ||| 4
    let d := ((d.incI Ix.imTimeouts chan).wI Ix.imLastFlags chan fl).slotsEnd 0xA chan false
    let d := d.setImCh chan { x with dead := x.closing + d.imDead, stops := [] }
    let log := x.cfg.mode = 0 || (x.cfg.logEach && (match x.logged with | some w => decide (w + 100 * asNs ≤ st) | none => true))
    let d := if log then
        let (a, d) := d.draw 48
        let (b, d) := d.draw 48
        let (c, d) := d.draw 24
        let d := d.imInterval chan fl st a b x.span c
        if x.cfg.mode = 0 then d else d.setImCh chan { d.imCh chan with logged := some st }
      else d
    if x.cfg.mode = 0 then d.imRest chan x.cfg.again
    else
      let y := d.imCh chan
      let d := d.setImCh chan { y.emptyStart with tmo := y.tmo + 1, blockFlags := y.blockFlags ||| fl }
      (d.imAdopt chan).setImState chan 2

/-- A stamped edge of a site reaches a channel. A stamp beyond the close of its window ends a measurement first. -/
def Dev.imTake (d : Dev) (ch site edge : Nat) (t : Int) (span fl : Nat) : Dev :=
  let d := if d.imState ch = 3 && decide ((d.imCh ch).closing < t) then d.imTimedOut ch else d
  let x := d.imCh ch
  let st := d.imState ch
  let isStart := site == x.cfg.startSrc && edgeIs x.cfg.startEdge edge
  let isStop := site == x.cfg.stopSrc && edgeIs x.cfg.stopEdge edge
  if x.cfg.mode = 2 then (if isStart && (st = 2 || st = 4) then d.gateEdge ch t fl else d)
  else if st = 3 then (if isStop then d.imStop ch t span fl else d)
  else if st = 2 then
    let d := if isStop && x.cfg.stopSrc != x.cfg.startSrc then
        d.setImCh ch { x with stops := (t, span, fl) :: x.stops.filter (fun p => decide (t - p.1 ≤ 20 * asNs)) }
      else d
    if isStart then d.imStart ch t span fl else d
  else d

/-! ### Sites (R346 to R349) -/

/-- The entry instance of a conditioned site. -/
def siteEntry (site : Nat) : Option Nat := if 0x10 ≤ site && site ≤ 0x19 then some (site - 0x10) else none

/-- Whether a code names a site (Table 13.1). -/
def isSite (s : Nat) : Bool := (0x10 ≤ s && s ≤ 0x2E) || (0x30 ≤ s && s ≤ 0x37)

/-- The interpolator whose turn it is: the first in rotation from a number on. -/
def ImSite.turn (x : ImSite) : Nat := ((List.range 4).map (fun k => (x.next + k) % 4)).findSome? (fun i => if x.outs.contains i then none else some i) |>.getD 0

/-- The stamp of an edge from its interpolator's codes and the calibration it is taken with (R347). -/
def stampAs (k c1 c2 code : Nat) : Int :=
  (k : Int) * asClock - asClock - roundEven (asClock * ((code : Int) - (c1 : Int))) (max (c2 - c1) 1)

/-- The hold-off of a site in ns: its entry, at least 3 where an interpolator is out (R346, R348). -/
def Dev.siteHoldoff (d : Dev) (site : Nat) : Nat :=
  let own := match siteEntry site with | some k => d.nI Ix.imInHoldoff k | none => 0
  if (d.imSite site).outs.isEmpty then own else max own 3

/-- Counts of a conditioned site. -/
def Dev.siteCount (d : Dev) (ix site : Nat) : Dev := match siteEntry site with | some k => d.incI ix k | none => d

/-- The calibration failed: counted, reported, and after three in a row the interpolator leaves the rotation (R348). -/
def Dev.calMissed (d : Dev) (site i : Nat) : Dev :=
  let x := d.imSite site
  let n := x.fails.get 0 i + 1
  let d := (d.siteCount Ix.imInCalFails site).raise 4 Code.imCalFail
  let d := d.setImSite site { x with fails := x.fails.put i n }
  if n < 3 then d
  else
    let y := d.imSite site
    let d := d.setImSite site { y with outs := i :: y.outs }
    let d := (d.fault 3 Code.imInterpFault 0xA site i 0).happen (.degradation 0xA [])
    let left := 4 - (y.outs.length + 1)
    let d := match siteEntry site with | some k => d.wI Ix.imInInterps k left | none => d
    if left < 2 then d.raise 4 Code.imSiteFault else d

/-- The service gate of CALREF: 1 s, then `cal.ref_ratio` is the time clock's rate against the declared frequency, less 1, in 10^-12 (R451). -/
def Dev.calGate (d : Dev) (at_ : Int) : Dev :=
  let start (d : Dev) : Dev := { d with cal := { d.cal with refFirst := some at_, refEdges := 0 } }
  match d.cal.refFirst with
  | none => start d
  | some f =>
    let n := d.cal.refEdges + 1
    if at_ - f < 10 ^ 18 then { d with cal := { d.cal with refEdges := n } }
    else start (d.wr Ix.calRefRatio 0 0 (roundEven (((at_ - f) * (d.n0 Ix.calRefFreq : Nat) - (n * 10 ^ 21 : Nat)) * 10 ^ 12) (n * 10 ^ 21)))

/-- IM_EDGE_STAMP: an edge detected at a site, the second clock edge after it, and the codes its interpolator read (R346 to R349). An edge on TIN wakes a
sleeping module (Table 16.2). -/
def execImEdgeStamp (t site edge k c1 c2 code : Nat) (s : State) : Res := runIf (isSite site && edge < 2) t s fun d =>
  let d := if 0x10 ≤ site && site < 0x18 then d.wake 3 else d
  let x := d.imSite site
  if 2 < x.outs.length || d.islandOff 0xA then d
  else
    let i := x.turn
    let good := c1 + 900 ≤ c2 && c2 ≤ c1 + 1200
    let (cal, d) := if good then ((c1, c2), d) else
      match x.cals.find? i with
      | some c => (c, d)
      | none => let (a, d) := d.draw 10; let (b, d) := d.draw 10; ((a, a + 900 + b % 301), d)
    let at_ := stampAs k cal.1 cal.2 code
    let held := match x.last with | some w => decide (at_ - w ≤ (d.siteHoldoff site : Nat) * asNs) && d.siteHoldoff site != 0 | none => false
    if held then d.siteCount Ix.imInHeld site
    else
      let d := if good then d.setImSite site { x with cals := x.cals.put i cal, fails := x.fails.put i 0 } else d.calMissed site i
      let y := d.imSite site
      let d := (d.setImSite site { y with
        last := some at_, next := (i + 1) % 4, recent := (ofAs at_, edge) :: y.recent.take 63 }).siteCount Ix.imInEdges site
      let skew := match siteEntry site with | some n => roundEven (d.rd Ix.imInSkew (n + 1) 0 * 10 ^ 18) two48 | none => 0
      let fl := if good then 0 else 0x10
      let d := if site = 0x18 && edge = 0 then d.calGate at_ else d
      (List.range 10).foldl (fun (a : Dev) ch => a.imTake ch site edge (at_ - skew) (cal.2 - cal.1) fl) d

/-! ### Commands (R357) -/

/-- Whether a number names a channel. -/
def isImChan (ch : Nat) : Bool := ch < 10

/-- A channel starts work: it waits for a start or for its gate. -/
def Dev.imArm (d : Dev) (ch : Nat) : Dev :=
  let d := d.imAdopt ch
  let x := d.imCh ch
  (d.setImCh ch { x.emptyBlock.emptyStart with armed := d.asNow, stops := [], gate := none, logged := none }).setImState ch 2

/-- IM_ARM (R357, R362). -/
def execImArm (t path chan : Nat) (s : State) : Res := runEntry (isImChan chan) path Ix.imCmd (chan + 1) 1 t s fun d =>
  d.command path Ix.imCmd (chan + 1) 1 fun d =>
    if d.imState chan != 1 then d.refuse path Ix.imCmd (chan + 1) Code.imState
    else if d.im.suspended then d.setImState chan 5
    else d.imArm chan

/-- Work in flight ends before its commit point: a block or a gate is delivered with TRUNCATED (R357). -/
def Dev.imTruncate (d : Dev) (ch : Nat) : Dev :=
  let x := d.imCh ch
  if x.cfg.mode = 2 then (if x.gate.isSome then d.gateEnd ch 8 false else d.imRest ch false)
  else
    let d := if d.imState ch = 3 then d.slotsEnd 0xA ch false else d
    let d := if x.cfg.mode = 1 && 0 < x.n then d.imBlockEnd ch 8 else d
    let d := d.setImCh ch (d.imCh ch).emptyBlock
    d.imRest ch false

/-- Whether a channel has work in flight. -/
def Dev.imBusy (d : Dev) (ch : Nat) : Bool := d.imState ch == 2 || d.imState ch == 3 || d.imState ch == 4

/-- IM_ABORT (R357, R486). -/
def execImAbort (t path chan : Nat) (s : State) : Res := runEntry (isImChan chan) path Ix.imCmd (chan + 1) 2 t s fun d =>
  d.command path Ix.imCmd (chan + 1) 2 fun d =>
    if d.imBusy chan then d.imTruncate chan
    else if d.imState chan = 1 then d.alreadyDone path
    else d.refuse path Ix.imCmd (chan + 1) Code.imState

/-- IM_CLEAR (R357). -/
def execImClear (t path chan : Nat) (s : State) : Res := runEntry (isImChan chan) path Ix.imCmd (chan + 1) 3 t s fun d =>
  d.command path Ix.imCmd (chan + 1) 3 fun d =>
    if d.imState chan != 1 then d.refuse path Ix.imCmd (chan + 1) Code.imState
    else
      let d := (List.range 14).foldl (fun (a : Dev) k => a.wr (Ix.imLastN + k) (chan + 1) 0 0) d
      if chan < 8 then d else (List.range 5).foldl (fun (a : Dev) k => a.wr (Ix.imFreqHz + k) (chan - 7) 0 0) d

/-- IM_CHAN_DISABLE: writing 0 to `im.chan_enable` drains the work in flight (R357, R487). -/
def execImChanDisable (t path chan : Nat) (s : State) : Res := runEntry (isImChan chan) path Ix.imChanEnable (chan + 1) 0 t s fun d =>
  d.command path Ix.imChanEnable (chan + 1) 0 fun d =>
    let d := d.wI Ix.imChanEnable chan 0
    if d.imBusy chan then d.setImCh chan { d.imCh chan with drain := some d.now }
    else if d.imState chan = 6 then d
    else d.setImState chan 0

/-- A channel is turned on again. -/
def Dev.imEnable (d : Dev) (ch : Nat) : Dev :=
  let x := d.imCh ch
  let d := d.setImCh ch { x with drain := none }
  if d.imState ch = 0 then (d.imAdopt ch).setImState ch 1 else d

/-- IM_DRAIN_END: 50 µs have passed since a disable or since the cut a channel still has work from before (R357, R358). -/
def execImDrainEnd (t chan : Nat) (s : State) : Res := runIf (isImChan chan) t s fun d =>
  let x := d.imCh chan
  let old (w : Option Nat) : Bool := match w with | some w => decide (w + us 50 ≤ d.now) | none => false
  if d.imBusy chan && (old x.drain || old x.cutAt) then d.imTruncate chan else d

/-- IM_TIMEOUT: no stop by the window's close (R351). -/
def execImTimeout (t chan : Nat) (s : State) : Res := runIf (isImChan chan) t s fun d =>
  if d.imState chan = 3 && decide ((d.imCh chan).closing ≤ d.asNow) then d.imTimedOut chan else d

/-- IM_GATE_START: the tick or grid instant of the gate; a gate that starts on an edge has begun with it (R355). -/
def execImGateStart (t chan : Nat) (s : State) : Res := runIf (chan = 8 || chan = 9) t s fun d =>
  let x := d.imCh chan
  if d.imState chan != 2 || x.cfg.mode != 2 then d
  else match x.gateDue with
    | some g => if g ≤ d.asNow then d.gateBegin chan g else d
    | none => d

/-- IM_GATE_END (R355). -/
def execImGateEnd (t chan : Nat) (s : State) : Res := runIf (chan = 8 || chan = 9) t s fun d =>
  Dev.gatesPast (d.gateCount chan d.asNow) d chan d.asNow

/-- IM_FREQ_READY (R356). -/
def execImFreqReady (t chan : Nat) (s : State) : Res := runIf (chan = 8 || chan = 9) t s fun d => d.freqReady chan

/-! ### Time, cuts, repointing (R358, R359, R362) -/

/-- A step of time: it is removed from intervals and gates that span it (R359). -/
def Dev.imStepped (d : Dev) (deltaPs : Int) : Dev :=
  let delta := deltaPs * asPs
  (List.range 10).foldl (fun (a : Dev) ch =>
    let x := a.imCh ch
    let x := { x with dead := x.dead + delta }
    a.setImCh ch (if a.imBusy ch then { x with
        armed := x.armed + delta, shift := if x.start.isSome then x.shift + delta else x.shift
        flags := if x.start.isSome then x.flags ||| 0x40 else x.flags
        stops := x.stops.map (fun p => (p.1 + delta, p.2.1, p.2.2 ||| 0x40))
        gate := x.gate.map (fun g => { g with shift := g.shift + delta, flags := g.flags ||| 0x40 }) }
      else x)) d

/-- A slew begins, or the time loop leaves its reference: results in flight carry SLEWING or REF_HOLDOVER (R359). -/
def Dev.imMark (d : Dev) (fl : Nat) : Dev :=
  (List.range 10).foldl (fun (a : Dev) ch =>
    let x := a.imCh ch
    if a.imBusy ch then
      a.setImCh ch { x with
        flags := if x.start.isSome then x.flags ||| fl else x.flags
        gate := x.gate.map (fun g => { g with flags := g.flags ||| fl }) }
    else a) d

/-- Why the setting of a channel is refused, if it is (R345, R350, R351, R353, R355). -/
def Dev.imChanCheck (d : Dev) (ch : Nat) : Option Nat :=
  let c := d.imCfg ch
  let ok (s : Nat) : Bool := s == 0 || (0x10 ≤ s && s ≤ 0x2E)
  if !ok c.startSrc || !ok c.stopSrc then some Code.imSource
  else if c.mode = 2 && (ch < 8 || c.stopSrc != 0) then some Code.imMode
  else if (c.winClose : Int) * asClock < (c.winOpen : Int) * asPs || (c.signed && 2 ^ 47 ≤ c.winClose) then some Code.imWindow
  else if 8 ≤ ch && (c.gateNs < 1000 || 1000000000000 < c.gateNs || c.stamps < 2 || 2 ^ 20 < c.stamps || c.gateNs < 2 * c.stamps) then some Code.imGate
  else none

/-- The Interval Meter's part of a commit's checks. -/
def Dev.imCheck (d : Dev) : Option Nat :=
  firstCode ((List.range 10).map d.imChanCheck)

/-- The Interval Meter applies its part of a cut: at once where a channel stands at a boundary, else when it reaches one (R358). -/
def Dev.imCut (d : Dev) : Dev :=
  (List.range 10).foldl (fun (a : Dev) ch =>
    if a.imCfg ch = (a.imCh ch).cfg then a
    else if a.imState ch = 3 || a.imState ch = 4 then a.setImCh ch { a.imCh ch with cutAt := some a.now }
    else a.imAdopt ch) d

/-- The channel logic leaves service: work in flight is drained, repeated work waits for the rejoin (R362). -/
def Dev.imSuspend (d : Dev) : Dev :=
  let d := (List.range 10).foldl (fun (a : Dev) ch =>
    if a.imBusy ch then
      let again := (a.imCh ch).cfg.again
      let a := a.imTruncate ch
      if again && a.imState ch = 1 then a.setImState ch 5 else a
    else a) d
  { d with im := { d.im with suspended := true } }

/-- The channel logic rejoins: deferred arms start, and each channel's first result carries DEFERRED (R362). -/
def Dev.imRejoin (d : Dev) : Dev :=
  let d := { d with im := { d.im with suspended := false } }
  (List.range 10).foldl (fun (a : Dev) ch =>
    let a := a.setImCh ch { a.imCh ch with deferred := true }
    if a.imState ch = 5 then a.imArm ch else a) d

end Sys2Proof.Machine
end

