-- ==== Sys2Proof/Machine/Timebase.lean ====
section
/-! DEFINITION. Timebase: clocks, references and time (12_timebase.md). -/

namespace Sys2Proof.Machine

/-- A Timebase event record; its time is after any step (Tables 12.6, 12.7). -/
def Dev.tbEvent (d : Dev) (kind obj a b : Nat) : Dev := d.event 9 0x1100 kind obj d.time96 a b

/-! ### Hops (R320 to R326) -/

/-- Whether a number names a PLL (Table 12.1). -/
def isPll (p : Nat) : Bool := (1 ≤ p && p ≤ 0x0C) || (0x10 ≤ p && p ≤ 0x1A) || p = 0x1F

/-- The frequency in kHz that a PLL is to have: its island's clock, 800 MHz × num / den, the DRAM clock of the operating point, or its fixed one
(Table 12.1, R337); 0 for the pixel clock, which follows the display. -/
def Dev.pllKHz (d : Dev) (p : Nat) : Nat :=
  if p ≤ 0x0C then d.clockKHz p
  else if p < 0x18 then 800000 * d.nI Ix.tbAuxNum (p - 0x10) / max (d.nI Ix.tbAuxDen (p - 0x10)) 1
  else if p = 0x19 then 100000 else if p = 0x1A then 500 * d.n0 Ix.capDramRate else if p = 0x1F then 800000 else 0

/-- The entry a hop may start from: valid, of the target's frequency, within 20 °C of the die (R322, R323). -/
def Dev.hopFind (d : Dev) (pll kHz : Nat) : Option Nat :=
  (List.range 64).find? (fun e =>
    let w := d.tb.hops.get 0 (64 * pll + e)
    bitOf w 63 && w % 2 ^ 32 == kHz && decide (absDiff (ofTwos 8 (w / 2 ^ 55) * 16 + 4096).toNat (d.dieTemp + 4096).toNat ≤ 320))

/-- Entries that are never replaced: nominal clock, 400 MHz, operating points (R323). -/
def hopKept (pll w : Nat) : Bool :=
  let f := w % 2 ^ 32
  if pll ≤ 0x0C then f == 400000 || (List.range 4).any (fun p => pointKHz pll p == f)
  else pll == 0x1A && (f == 3200000 || f == 2400000 || f == 1600000)

/-- Where a search result goes: the entry of its frequency, a free one, else the least recently used that may be replaced (R323). -/
def Dev.hopPlace (d : Dev) (pll kHz : Nat) : Option Nat :=
  let w (e : Nat) : Nat := d.tb.hops.get 0 (64 * pll + e)
  match (List.range 64).find? (fun e => bitOf (w e) 63 && w e % 2 ^ 32 == kHz) with
  | some e => some e
  | none => match (List.range 64).find? (fun e => !bitOf (w e) 63) with
    | some e => some e
    | none =>
      ((List.range 64).filter (fun e => !hopKept pll (w e))).foldl (fun (b : Option Nat) e =>
        match b with
        | none => some e
        | some x => if d.tb.hopUsed.get 0 (64 * pll + e) < d.tb.hopUsed.get 0 (64 * pll + x) then some e else b) none

/-- Samples that a pipeline island does not process between a cut and lock form one gap on every stream it carries (R325). -/
def Dev.relockGap (d : Dev) (isl cause : Nat) : Dev :=
  if isl = 1 then (List.range 16).foldl (fun (a : Dev) q => if a.linkState q = 5 then a.openLinkGap q (a.nextStamp q) cause else a) d
  else if isl = 2 then (List.range 32).foldl (fun (a : Dev) n =>
    if a.nI Ix.chnSrc n != 0 && (a.ddc n).gapFirst.isNone then a.setDdc n { a.ddc n with gapFirst := some (a.time96, cause) } else a) d
  else d

/-- The same for frames, histories and plane frames, whose loss is counted when the clock is back. -/
def Dev.relockLoss (d : Dev) (isl cause began : Nat) : Dev :=
  let frames (l : Nat) : Nat := (d.now - began) * d.layerRate l / (max (d.layerHop l) 1 * 1000 * two48)
  if isl = 3 then (List.range 16).foldl (fun (a : Dev) l =>
    if a.nI Ix.speLayerSrc l != 0 && frames l != 0 then a.layerGap l ((a.layer l).next.getD 0) (frames l) cause else a) d
  else if isl = 4 then (List.range 256).foldl (fun (a : Dev) k =>
    let x := a.mag k
    if x.armed then
      let i := a.magAfter k (a.time96At began)
      a.setMag k { x with bad := (i, a.magAfter k a.time96 - i) :: x.bad }
    else a) d
  else if isl = 5 then (List.range 4).foldl (fun (a : Dev) p =>
    match a.planeLayer p with
    | some l => if a.nI Ix.denState p != 0 then a.planeLost l (frames l) (a.time96At began) else a
    | none => a) d
  else d

/-- A relock begins: a hop, or after a loss of lock (R322, R324). -/
def Dev.relock (d : Dev) (pll kHz : Nat) (requested : Bool) : Dev :=
  let e := d.hopFind pll kHz
  let d := { d with tb := { d.tb with
    relocking := d.tb.relocking.put pll { target := kHz, began := d.now, entry := e, requested := requested }
    hopUsed := match e with | some i => d.tb.hopUsed.put (64 * pll + i) d.now | none => d.tb.hopUsed } }
  if pll ≤ 0x0C then d.wI Ix.tbPllState (pll - 1) (if d.n0 Ix.tbMode = 1 then 4 else 3)
  else if 0x10 ≤ pll && pll < 0x18 && d.nI Ix.tbAuxState (pll - 0x10) = 2 then d.wI Ix.tbAuxState (pll - 0x10) 1 else d

/-- A hop is requested: it waits while the PLL is relocking (R322, Table 12.9). An island held at 400 MHz does not leave it (R326). -/
def Dev.hop (d : Dev) (pll kHz : Nat) : Dev :=
  if d.tb.held.contains pll && kHz != 400000 then d
  else match d.tb.relocking.find? pll with
    | some h => { d with tb := { d.tb with relocking := d.tb.relocking.put pll { h with queued := h.queued ++ [kHz] } } }
    | none => (d.relock pll kHz true).relockGap pll 10

/-- The relock of the Capture Store's clock in native mode, and that of the DRAM clock, is a full stall (R325, R341, Table 1.5). -/
def Dev.relockStall (d : Dev) (pll : Nat) : Dev :=
  if pll = 0x1A || (pll = 7 && d.n0 Ix.tbMode = 0) then d.stallFor (us 40) else d

/-- PLL_HOP (R322, R324, R325). -/
def execPllHop (t pll kHz : Nat) (s : State) : Res := runIf (isPll pll) t s fun d => (d.relockStall pll).hop pll kHz

/-- What lock at a frequency changes in the reports that follow a clock; layers beyond the limits of the new clock are shed (R161, R443). -/
def Dev.clockReport (d : Dev) (isl : Nat) : Dev :=
  let d := if isl = 2 then d.pipeReports else if isl = 3 then d.speReports else d
  let d := if isl = 3 && d.fullService then (List.range 4).foldl (fun (a : Dev) p => a.shedLane p) d else d
  d.horizonReport

/-- The state of an AUXCLK output: off where it is not enabled or the engine started without a reference, held low where the loop lost its
inputs, relocking while its PLL relocks, else running (R330, R337, R339). -/
def Dev.auxNow (d : Dev) (n : Nat) : Nat :=
  if d.nI Ix.tbAuxEnable n = 0 then 0 else if d.tb.gated then (if d.n0 Ix.tbLoopState = 0 then 0 else 3)
  else if (d.tb.relocking.find? (0x10 + n)).isSome then 1 else 2

/-- PLL_HOP_LOCK: the clock resumes; the result of a full search is stored; a hop that waited starts (R322 to R326). -/
def execPllHopLock (t pll band fine postdiv : Nat) (s : State) : Res := runIf (isPll pll) t s fun d =>
  match d.tb.relocking.find? pll with
  | none => d
  | some h =>
    let d := { d with tb := { d.tb with relocking := d.tb.relocking.del pll } }
    let d := match h.entry, d.hopPlace pll h.target with
      | none, some e => { d with tb := { d.tb with
          hops := d.tb.hops.put (64 * pll + e) (hopWord (toTwos 8 (d.dieTemp / 16)) h.target postdiv band fine)
          hopUsed := d.tb.hopUsed.put (64 * pll + e) d.now } }
      | _, _ => d
    let took := toNs (d.now - h.began)
    let d := if pll = 7 || pll = 0x1A then { d with cap := { d.cap with stallUntil := min d.cap.stallUntil d.now } } else d
    let d := if pll ≤ 0x0C then
        let d := ((d.wI Ix.tbIslFreq (pll - 1) h.target).wI Ix.tbPllState (pll - 1) 2).incI Ix.tbRelocks (pll - 1)
        let d := if d.n0 Ix.tbMode = 1 then d else d.incI Ix.tbGatedNs (pll - 1) took
        (d.relockLoss pll (if d.service = 2 then 9 else 10) h.began).clockReport pll
      else if 0x10 ≤ pll && pll < 0x18 then d.wI Ix.tbAuxState (pll - 0x10) (d.auxNow (pll - 0x10))
      else d
    let d := if h.requested then d else d.tbEvent 0x05 pll took (d.n0 Ix.tbMode)
    match h.queued with
    | k :: r =>
      let d := d.hop pll k
      match d.tb.relocking.find? pll with
      | some g => { d with tb := { d.tb with relocking := d.tb.relocking.put pll { g with queued := r } } }
      | none => d
    | [] => d

/-- What the largest configuration that a pipeline island supports at its clock leaves out of the one in force (R39, R326): masks and planes
beyond the feed rates of Table 6.1. Links and DDCs beyond it are held with their entries, as R443 has it, and layers are shed under R161
(DESIGN CHOICE, log entry 33). -/
def Dev.reduction (d : Dev) (isl : Nat) : List SWrite :=
  let past (l : Nat) : Bool := l < 16 && 32 * d.clockKHz isl * 1000000 < d.layerCost l
  if isl = 4 then ((List.range 64).filter (fun m => past (d.nI Ix.trgMaskLayer m))).map (fun m => ⟨Ix.trgMaskLayer, m + 1, 0, 0xFF⟩)
  else if isl = 5 then
    ((List.range 4).filter (fun p => d.nI Ix.denLayer p < 4 && past (4 * p + d.nI Ix.denLayer p))).map (fun p => ⟨Ix.denLayer, p + 1, 0, 0xFF⟩)
  else if isl = 3 then ((List.range 4).flatMap (fun p => d.shedList p 4 (d.laneLayers p))).map (fun l => ⟨Ix.speLayerSrc, l + 1, 0, 0⟩)
  else []

/-- A pipeline island below the clock its configuration needs is degraded: the event states the change, and a cut makes it (R39, R131). -/
def Dev.degrade (d : Dev) (isl : Nat) : Dev :=
  let change := d.reduction isl
  let d := d.happen (.degradation isl change)
  if 5 < isl || isl = 3 then d else d.engineCut { kind := .degradation, isl := isl, due := d.soon, writes := change }

/-- An island that its PLL holds at 400 MHz (R326, R39). -/
def Dev.heldAt400 (d : Dev) (isl : Nat) : Dev :=
  let d := { d with tb := { d.tb with held := if d.tb.held.contains isl then d.tb.held else isl :: d.tb.held } }
  let d := (((d.wI Ix.tbIslFreq (isl - 1) 400000).wI Ix.pwrIslPoint (isl - 1) 3).wI Ix.tbPllState (isl - 1) 2).incI Ix.tbRelocks (isl - 1)
  let d := d.degradedBit 0 true
  (d.degrade isl).clockReport isl

/-! ### References (R328 to R331, R341) -/

/-- `tb.time_state` changes (event kind 0x07). -/
def Dev.timeState (d : Dev) (src st : Nat) : Dev :=
  if d.n0 Ix.tbTimeState = st then d else (d.w0 Ix.tbTimeState st).tbEvent 0x07 src st 0

/-- The source that disciplines the counter: 0 free, 1 PPS, 2 DC, 3 fabric (R333). -/
def Dev.timeSource (d : Dev) : Nat :=
  let joined := d.n0 Ix.cfState == 4 && d.fullService
  let mine := d.n0 Ix.cfKeystone == d.slotIdent
  if d.n0 Ix.tbTimeSrc != 3 then d.n0 Ix.tbTimeSrc else if joined && !mine then 3 else d.n0 Ix.cfKeystoneSrc

/-- The time loop changes state (event kind 0x08); once it is locked again a counter that nothing disciplines is free and no longer held over
(R330, Table 12.5). -/
def Dev.loopTo (d : Dev) (st : Nat) : Dev :=
  let was := d.n0 Ix.tbLoopState
  if was = st then d
  else
    let d := (d.w0 Ix.tbLoopState st).tbEvent 0x08 0 st was
    let d := if st = 0 || st = 4 || st = 5 then d.imMark 0x20 else d
    if st = 2 && d.n0 Ix.tbTimeState = 5 && d.timeSource = 0 then d.timeState 0 1 else d

/-- AUXCLK and SYSREF outputs go low, or restart (R330, R331). -/
def Dev.outputsGate (d : Dev) (low : Bool) : Dev :=
  let d := { d with tb := { d.tb with gated := low } }
  (List.range 8).foldl (fun (a : Dev) n => a.wI Ix.tbAuxState n (a.auxNow n)) d

/-- An input is in use and valid. -/
def Dev.refOk (d : Dev) (i : Nat) : Bool := d.nI Ix.tbRefEnable i == 1 && d.nI Ix.tbRefState i == 2

/-- The selected input is lost: switchover, coasting, or the site clock (R329, R330). -/
def Dev.refLost (d : Dev) (i : Nat) : Dev :=
  let st := d.n0 Ix.tbLoopState
  let other := 1 - i
  let d := if i = d.n0 Ix.tbRefPref && d.n0 Ix.tbRefActive = i then { d with tb := { d.tb with away := true } } else d
  if d.n0 Ix.tbRefActive != i && st = 3 && d.refOk (d.n0 Ix.tbRefActive) then d.loopTo 2
  else if d.n0 Ix.tbRefActive != i && !(st = 3) then d
  else if d.refOk other then
    if st = 2 || st = 6 then (d.fault 1 0 9 i 0 0).loopTo 3 else if st = 1 then d.w0 Ix.tbRefActive other else d
  else if st = 1 then (if d.hw.pwrGood then ((d.w0 Ix.tbRefActive 2).loopTo 0).outputsGate true else (d.w0 Ix.tbRefActive 2).loopTo 0)
  else if st = 0 || st = 4 || st = 5 then d
  else
    let d := d.fault 4 Code.noReference 9 i 0 0
    let d := d.timeState (d.timeSource) 5
    if d.n0 Ix.tbMode = 1 then d.loopTo 4
    else ((d.w0 Ix.tbRefActive 2).loopTo 5).outputsGate true

/-- An enabled input becomes invalid (R328). -/
def Dev.refFails (d : Dev) (input cause : Nat) (ppb : Int) : Dev :=
  if d.nI Ix.tbRefEnable input != 1 || d.nI Ix.tbRefState input = 3 || d.nI Ix.tbRefState input = 4 then d
  else
    let d := (d.wI Ix.tbRefState input cause).wr Ix.tbRefOffset (input + 1) 0 ppb
    let d := (d.tbEvent 0x01 input cause (toTwos 48 ppb)).raise 4 Code.refInvalid
    d.refLost input

/-- REF_INVALID: an input fails activity (3) or frequency (4), its frequency offset in ppb (R328). -/
def execRefInvalid (t input cause : Nat) (ppb : Int) (s : State) : Res :=
  runIf (input < 2 && (cause = 3 || cause = 4)) t s fun d => d.refFails input cause ppb

/-- PLL_LOSS_OF_LOCK: the PLL relocks. `fails` is 0 where it will; 3 where three full searches failed and the retry at 400 MHz locked;
4 where that failed as well (R326). Of the time loop's PLL it is as if the input had become invalid (R341). -/
def execPllLossOfLock (t pll fails : Nat) (s : State) : Res := runIf (isPll pll) t s fun d =>
  if pll = 0x1F then (if d.n0 Ix.tbRefActive < 2 then d.refFails (d.n0 Ix.tbRefActive) 4 (d.rd Ix.tbRefOffset (d.n0 Ix.tbRefActive + 1) 0) else d) else
  let was := d.pllKHz pll
  let d := d.faultWithin 2 Code.pllRelock 9 pll was 40000
  let d := d.relockStall pll
  if fails < 3 then (d.relock pll was false).relockGap pll 10
  else
    let d := (d.relockGap pll 10).tbEvent 0x06 pll was 0
    if 4 ≤ fails then
      let d := if pll ≤ 0x0C then d.wI Ix.tbPllState (pll - 1) 5 else d
      (d.fault 4 Code.pllFault 9 pll was 0).happen (.degradation (if pll ≤ 0x0C then pll else 9) [])
    else if pll ≤ 0x0C then d.heldAt400 pll else d

/-! ### Corrections (R331 to R336, R498) -/

/-- What a slew in progress has still to apply. -/
def Dev.slewLeft (d : Dev) : Int := match d.tb.slew with | some s => s.1 - slewPart d.tb.slew d.now | none => 0

/-- What a slew has made so far becomes part of the offset. -/
def Dev.slewFold (d : Dev) : Dev :=
  { d with tb := { d.tb with offset := d.tb.offset + psUnits (slewPart d.tb.slew d.now), slew := none } }

/-- A slew that removes an offset of φ ps begins (event kind 0x04). -/
def Dev.slewFrom (d : Dev) (phi : Int) : Dev :=
  let d := d.slewFold
  let d := { d with tb := { d.tb with slew := some (-phi, d.now) } }.imMark 0x80
  (d.wr Ix.tbSlewPs 0 0 (-phi)).tbEvent 0x04 0 (toTwos 48 phi) phi.natAbs

/-- The first 1 µs tick at least 64 µs ahead (R373, R379). -/
def Dev.tickAhead (d : Dev) : Nat := tickAt (d.time96 + us 64)

/-- A step notice for every other module, or for some (R376, R379). -/
def Dev.stepNotice (d : Dev) (delta : Int) (tick : Nat) : Dev :=
  d.sendScope { kind := 0x12, origin := d.slotIdent, scope := 2, body := wordsBody [toTwos 48 delta, sec48 tick, frac48 tick] }
def Dev.stepNoticeTo (d : Dev) (delta : Int) (tick : Nat) (slots : List Nat) : Dev :=
  slots.foldl (fun (a : Dev) s => a.cfSendTo
    { kind := 0x12, hops := 255, origin := a.slotIdent, dest := s, scope := 3, body := wordsBody [toTwos 48 delta, sec48 tick, frac48 tick] }) d

/-- A step is decided: it includes what a slew has left, and takes effect at the first tick after (R336); a joined keystone announces its own
step, which every module makes at the tick named (R379). -/
def Dev.stepBy (d : Dev) (delta : Int) (cause : Nat) : Dev :=
  let prev := match d.tb.step with | some s => s.1 | none => 0
  let d := { d with tb := { d.tb with step := some (prev + delta, cause) } }
  if d.joined && d.n0 Ix.cfKeystone = d.slotIdent then
    { d with tb := { d.tb with stepDue := d.tickAhead } }.stepNotice delta d.tickAhead
  else { d with tb := { d.tb with stepDue := max d.tb.stepDue (tickAt (d.time96 + 1)) } }

/-- An offset is removed: by a slew below the threshold, else by a step (R331, R334, R379). Corrections made while the counter is held
are applied to the loop alone (R333). -/
def Dev.removeOffset (d : Dev) (phi : Int) (threshold cause : Nat) : Dev :=
  if phi.natAbs < threshold then (if phi = 0 then d else d.slewFrom phi) else d.stepBy (-phi) cause

/-- REF_VALID: an input that has passed both tests for the wait; φ in ps is the phase of a returning input (R328, R331, R498). The preferred
input is taken before the other, also where it becomes valid after it, unless the loop had switched away from it (R329, R339). After a start
without a reference the loop rejoins as R331 has it (R339; DEDUCED, log entry 43). -/
def execRefValid (t input : Nat) (ppb phi : Int) (s : State) : Res := runIf (input < 2) t s fun d =>
  if d.nI Ix.tbRefEnable input != 1 || d.nI Ix.tbRefState input = 2 then d
  else
    let d := ((d.wI Ix.tbRefState input 2).wr Ix.tbRefOffset (input + 1) 0 ppb).tbEvent 0x01 input 2 (toTwos 48 ppb)
    let st := d.n0 Ix.tbLoopState
    let pref : Bool := d.n0 Ix.tbRefPref = input
    if st = 0 && !d.tb.gated then (d.w0 Ix.tbRefActive input).loopTo 1
    else if st = 1 && pref then { (d.w0 Ix.tbRefActive input) with tb := { d.tb with away := false } }
    else if st = 0 || st = 4 || st = 5 then
      let small := phi.natAbs < d.n0 Ix.tbStepThreshold
      let d := (d.w0 Ix.tbRefActive input).loopTo 6
      let d := if small && d.tb.gated then d.outputsGate false else d
      if phi = 0 then (d.loopTo 2)
      else if d.tb.running then d.removeOffset phi (d.n0 Ix.tbStepThreshold) 1
      else if small then d.slewFrom phi
      else (d.outputsGate false).loopTo 2
    else if st = 2 && (d.n0 Ix.tbRefRevert = 1 || !d.tb.away) && pref && d.n0 Ix.tbRefActive != input then d.loopTo 3
    else d

/-- REF_SWITCHOVER_DONE: lock on the new input, with the A-B phase in ps (R329). -/
def execRefSwitchoverDone (t : Nat) (abPhase : Int) (s : State) : Res := run t s fun d =>
  if d.n0 Ix.tbLoopState != 3 then d
  else
    let old := d.n0 Ix.tbRefActive
    let new := 1 - min old 1
    if !d.refOk new then d
    else
      let d := ((d.w0 Ix.tbRefActive new).wr Ix.tbAbPhase 0 0 abPhase).inc0 Ix.tbSwitchovers
      let d := if new = d.n0 Ix.tbRefPref then { d with tb := { d.tb with away := false } } else d
      ((d.loopTo 2).raise 4 Code.refSwitch).tbEvent 0x02 new old (toTwos 48 abPhase)

/-- TIME_LOOP_LOCK: acquiring becomes locked (R339, Table 12.4). -/
def execTimeLoopLock (t : Nat) (s : State) : Res := run t s fun d => if d.n0 Ix.tbLoopState = 1 then d.loopTo 2 else d

/-- SLEW_DONE: the offset is zero; a rejoining loop is locked (R331, R336). -/
def execSlewDone (t : Nat) (s : State) : Res := run t s fun d =>
  match d.tb.slew with
  | none => d
  | some _ =>
    if d.slewLeft != 0 then d
    else
      let d := d.slewFold.wr Ix.tbSlewPs 0 0 0
      if d.n0 Ix.tbLoopState = 6 then d.loopTo 2 else d

/-- The whole second that a waiting time set of command 2 is applied at, once it is reached (R335). -/
def Dev.setDue (d : Dev) : Option Int :=
  match d.tb.setSec with
  | some (2, v, since) =>
    let b := since / two48 + 1
    if b * two48 ≤ d.time96 then some (((v : Int) - (b : Int)) * 1000000000000) else none
  | _ => none

/-- The instant of rising edge k of an auxiliary clock: the k-th one since the epoch, later by its delay in 1/4,096 periods (R337). -/
def Dev.auxEdge (d : Dev) (n k : Nat) : Nat :=
  (roundEven (((4096 * k + d.nI Ix.tbAuxDelay n) * d.nI Ix.tbAuxDen n * two48 : Nat) : Int) (4096 * 800000000 * max (d.nI Ix.tbAuxNum n) 1)).toNat

/-- Whether SYSREF_OUT p is high in a time-clock cycle since the epoch, before its delay: floor(D / 2) cycles, at least 4, from each grid edge, or
from each of a burst's (R338). -/
def Dev.sysrefHigh (d : Dev) (p cycle : Nat) : Bool :=
  let div := max (d.nI Ix.tbSysrefDiv p) 1
  let high := decide (cycle % div < max 4 (div / 2))
  let mode := d.nI Ix.tbSysrefMode p
  !d.tb.gated && high && (mode == 1 || (mode == 2 && (d.tb.bursts.get [] p).any (fun b => b.1 ≤ cycle && cycle < b.1 + b.2 * div)))

/-- The instant of a cycle of SYSREF_OUT p at the pin: later by its delay in 1/64 cycles (R338). -/
def Dev.sysrefInstant (d : Dev) (p cycle : Nat) : Nat :=
  (roundEven (((64 * cycle + d.nI Ix.tbSysrefDelay p) * two48 : Nat) : Int) (64 * 800000000)).toNat

/-- A SYSREF burst of a port from the first grid edge at least 1 µs after an instant; it follows the one that is issuing (R338). -/
def Dev.burst (d : Dev) (p : Nat) : Dev :=
  let div := max (d.nI Ix.tbSysrefDiv p) 1
  let from_ := ceilDiv ((d.time96 + us 1) * 800000000) two48
  let busy := ((d.tb.bursts.get [] p).map (fun b => b.1 + b.2 * div)).foldl max from_
  let first := ceilDiv busy div * div
  { d with tb := { d.tb with bursts := d.tb.bursts.put p ((d.tb.bursts.get [] p).filter (fun b => decide (from_ < b.1 + b.2 * div + 8 * div)) ++ [(first, d.nI Ix.tbSysrefPulses p)]) } }

/-- TIME_STEP: counter and loop phase move by the step decided; links realign with a gap of cause 11 (R336). -/
def execTimeStep (t : Nat) (s : State) : Res := run t s fun d =>
  let d := match d.setDue with
    | some delta =>
      let e := d.stepBy delta 5
      -- the second boundary is the tick of the step, unless it is announced ahead
      { e with tb := { e.tb with setSec := none, sum := 0, samples := 0, stepDue := if e.joined && e.n0 Ix.cfKeystone = e.slotIdent then e.tb.stepDue else 0 } }
    | none => d
  match d.tb.step with
  | none => d
  | some (delta, cause) =>
    if !d.tb.running || d.time96 < d.tb.stepDue then d
    else
      let whole := delta + d.slewLeft
      let d := (List.range 16).foldl (fun (a : Dev) q =>
        let a := if a.linkState q = 5 then a.openLinkGap q (a.nextStamp q) 11 else a
        if (a.link q).clock.isSome then a.setLink q { a.link q with gridMoved := true } else a) d
      let d := d.slewFold
      let d := { d with tb := { d.tb with offset := d.tb.offset + psUnits whole, step := none, stepDue := 0, notified := false } }
      let d := (((d.imStepped whole).wr Ix.tbSlewPs 0 0 0).inc0 Ix.tbTimeSteps).raise 4 Code.timeStep
      let d := d.tbEvent 0x03 0 (toTwos 48 whole) cause
      let d := (List.range 4).foldl (fun (a : Dev) p => if a.nI Ix.tbSysrefMode p = 2 then a.burst p else a) d
      if d.n0 Ix.tbLoopState = 6 then ((if d.tb.gated then d.outputsGate false else d).loopTo 2) else d

/-- An offset joins the average of PPS_IN or DC SYNC0, over `tb.pps_avg` seconds of some samples each; a full average is removed (R334). -/
def Dev.averageOffset (d : Dev) (phi : Int) (cause perSecond : Nat) : Dev :=
  let n := d.tb.samples + 1
  let sum := d.tb.sum + phi
  if n < d.n0 Ix.tbPpsAvg * perSecond then { d with tb := { d.tb with sum := sum, samples := n } }
  else { d with tb := { d.tb with sum := 0, samples := 0 } }.removeOffset (roundEven sum n) (d.n0 Ix.tbPpsStep) cause

/-- PPS_EDGE: stamped at its instant; a waiting time set of command 1 applies; else the offset is averaged (R333 to R335, R498). -/
def execPpsEdge (t : Nat) (s : State) : Res := run t s fun d =>
  if !d.tb.running then d
  else
    let stamp : Int := (d.time96 : Int) - psUnits (d.rd Ix.tbPpsDelay 0 0)
    let near := roundEven stamp two48
    let phi := unitsPs (stamp - near * (two48 : Int))
    let d := d.wr Ix.tbPpsOffset 0 0 phi
    match d.tb.setSec with
    | some (1, v, _) =>
      let d := d.stepBy (((v : Int) - near) * 1000000000000) 5
      { d with tb := { d.tb with setSec := none, sum := 0, samples := 0 } }
    | _ => if d.timeSource = 1 then (d.timeState 1 3).averageOffset phi 2 1 else d

/-- PPS_LOST (R334). -/
def execPpsLost (t : Nat) (s : State) : Res := run t s fun d =>
  if d.timeSource = 1 && d.tb.running then
    ({ d with tb := { d.tb with sum := 0, samples := 0 } }.timeState 1 5).raise 4 Code.ppsLost
  else d

/-- DC_SYNC0_SAMPLE: the slave's DC system time in ns at a SYNC0 edge (R333, R334). -/
def execDcSync0Sample (t dcNs : Nat) (s : State) : Res := run t s fun d =>
  if d.timeSource = 2 && d.tb.running && 1000000000 % d.sup.cycle = 0 then
    let dc : Int := roundEven ((dcNs * two48 : Nat) : Int) 1000000000 + d.rd Ix.tbDcOffsetSec 0 0 * (two48 : Int)
    (d.timeState 2 2).averageOffset (unitsPs ((d.time96 : Int) - dc)) 3 (max (1000000000 / d.sup.cycle) 1)
  else d

/-- A time set waits for its edge (R335). -/
def Dev.timeSet (d : Dev) (cmd : Nat) : Dev := { d with tb := { d.tb with setSec := some (cmd, d.n0 Ix.tbTimeSetSec, d.time96) } }

/-- TIME_SET_AT_PPS (R335). -/
def execTimeSetAtPps (t path : Nat) (s : State) : Res := run t s fun d => d.command path Ix.tbTimeSetCmd 0 1 fun d => d.timeSet 1

/-- TIME_SET_AT_SECOND (R335). -/
def execTimeSetAtSecond (t path : Nat) (s : State) : Res := run t s fun d => d.command path Ix.tbTimeSetCmd 0 2 fun d => d.timeSet 2

/-- SYSREF_FIRE (R338). -/
def execSysrefFire (t path port : Nat) (s : State) : Res := runEntry (port < 4) path Ix.tbSysrefFire (port + 1) 1 t s fun d =>
  d.command path Ix.tbSysrefFire (port + 1) 1 fun d =>
    if d.nI Ix.tbSysrefMode port = 2 then d.burst port else d.refuse path Ix.tbSysrefFire (port + 1) Code.sysrefMode

/-- PWR_GOOD_RISE: the core rails are up and the island PLLs lock at 400 MHz; with no valid reference input the loop is on the site clock and
AUXCLK and SYSREF stay off; host link training starts where PERST_N is already high (Table 3.1, R71, R339). -/
def execPwrGoodRise (t : Nat) (s : State) : Res := run t s fun d =>
  if d.hw.regulators && d.hw.v12Good && !d.hw.pwrGood && !d.hw.railFailed then
    let d := { d with hw := { d.hw with pwrGood := true, pRise := d.now }, tb := { d.tb with hops := d.tb.hopsFlash, held := [], relocking := [] } }
    let d := ((d.wrAll Ix.tbIslFreq 400000 12).wrAll Ix.tbPllState 2 12).w0 Ix.pwrState 3
    let d := if d.hw.perstLow then d else d.w0 Ix.strLinkState 1
    let valid := d.nI Ix.tbRefState 0 = 2 || d.nI Ix.tbRefState 1 = 2
    let d := d.outputsGate (!valid)
    (if valid then d else d.raise 4 Code.noReferenceAtStart).pipeReports
  else d

/-! ### Checks and effects of cuts (R14, R327, R328, R337, R338) -/

/-- The rates in mHz, as complex samples, of the sources that a pipeline island processes (Table 1.2): links in Intake; links, playback
channels and DDC inputs in the Channeliser; layers in the Spectral Engine; what conditions, masks and armed histories watch in the Trigger Unit;
the planes' layers in the Density Engine. -/
def Dev.sourceRates (d : Dev) (isl : Nat) : List Nat :=
  let code (c : Nat) : Nat := if 0x20 ≤ c && c < 0x40 then d.fOut (c - 0x20) else d.srcRate c
  let links := (List.range 16).filter (fun q => d.nI Ix.itkMode q != 0)
  let layer (l : Nat) : Nat := if l < 16 then d.layerRate l else 0
  if isl = 1 then links.map (fun q => d.srcRate (0x10 + q))
  else if isl = 2 then
    links.map (fun q => d.srcRate (0x10 + q)) ++ (List.range 4).map (fun p => d.srcRate (0x40 + p)) ++ (List.range 32).map d.fIn
  else if isl = 3 then (List.range 16).map layer
  else if isl = 4 then
    ((List.range 64).filter (fun c => 1 ≤ d.nI Ix.trgCondType c && d.nI Ix.trgCondType c ≤ 6)).map (fun c => code (d.nI Ix.trgCondSrc c)) ++
      (List.range 64).map (fun m => layer (d.nI Ix.trgMaskLayer m)) ++
      (d.trg.mags.map (fun p => p.1)).flatMap (fun k => (d.magChans k).map code)
  else if isl = 5 then (List.range 4).map (fun p => match d.planeLayer p with | some l => layer l | none => 0)
  else []

/-- Whether a pipeline island carries a source at its full rate: 8 complex or 16 real samples per clock of its nominal clock (R14). -/
def Dev.fullRate (d : Dev) (isl : Nat) : Bool := (d.sourceRates isl).any (fun f => decide (12800000000000 ≤ f))

/-- Why the spread spectrum of an island is refused, if it is: sources count both as the set leaves them and in force in `old` (R14, R327). -/
def Dev.sscCheck (d old : Dev) (i : Nat) : Option Nat :=
  let m := d.nI Ix.tbSscMode i
  let dep := d.nI Ix.tbSscDepth i
  let nom := nominalKHz.getD i 0
  if m = 0 then none
  else if 2 < m || (m = 1 && (dep < 10 || 100 < dep)) || (m = 2 && (dep < 5 || 50 < dep)) then some Code.sscRange
  else if d.fullRate (i + 1) || old.fullRate (i + 1) then some Code.sscRefused
  else if m = 2 && nom * 10000 < d.nI Ix.tbIslFreq i * (10000 + dep) then some Code.sscRefused
  else none

/-- Why an auxiliary output is refused (R337). -/
def Dev.auxCheck (d : Dev) (n : Nat) : Option Nat :=
  let a := d.nI Ix.tbAuxNum n
  let b := d.nI Ix.tbAuxDen n
  if d.nI Ix.tbAuxEnable n = 0 then none
  else if a = 0 || b = 0 || 4096 < a || 4096 < b || 800 * a < 100 * b || 3200 * b < 800 * a then some Code.auxRatio
  else if d.nI Ix.tbSysrefDiv (n / 2) * a % b != 0 then some Code.sysrefRatio
  else none

/-- The Timebase's part of a commit's checks. -/
def Dev.tbCheck (d old : Dev) : Option Nat :=
  let refs := (List.range 2).map (fun i => if d.nI Ix.tbRefFreq i < 10000000000 || 500000000000 < d.nI Ix.tbRefFreq i then some Code.refFreqRange else none)
  let divs := (List.range 4).map (fun p => if d.nI Ix.tbSysrefDiv p < 8 || 2 ^ 24 < d.nI Ix.tbSysrefDiv p then some Code.valueRange else none)
  firstCode (refs ++ divs ++ (List.range 12).map (d.sscCheck old) ++ (List.range 8).map d.auxCheck)

/-- The Timebase applies its part of a cut. -/
def Dev.tbCut (d old : Dev) : Dev :=
  let d := (List.range 2).foldl (fun (a : Dev) i =>
    let event (st : Nat) : Dev := (a.wI Ix.tbRefState i st).tbEvent 0x01 i st (toTwos 48 (a.rd Ix.tbRefOffset (i + 1) 0))
    if old.nI Ix.tbRefEnable i = 1 && a.nI Ix.tbRefEnable i = 0 then (event 0).refLost i
    else if old.nI Ix.tbRefEnable i = 0 && a.nI Ix.tbRefEnable i = 1 then event 1 else a) d
  -- a changed output relocks (R337)
  let d := (List.range 8).foldl (fun (a : Dev) n =>
    let changed := [Ix.tbAuxEnable, Ix.tbAuxNum, Ix.tbAuxDen, Ix.tbAuxDelay].any (fun i => a.nI i n != old.nI i n)
    let a := if changed then { a with tb := { a.tb with relocking := a.tb.relocking.del (0x10 + n) } } else a
    let a := if changed && a.nI Ix.tbAuxEnable n = 1 && a.hw.pwrGood then a.relock (0x10 + n) (a.pllKHz (0x10 + n)) true else a
    a.wI Ix.tbAuxState n (a.auxNow n)) d
  let d := if old.timeSource != d.timeSource then
      let d := { d with tb := { d.tb with sum := 0, samples := 0 } }
      if d.timeSource = 0 && d.tb.running then d.timeState 0 1 else d
    else d
  let other := 1 - d.n0 Ix.tbRefPref
  if d.n0 Ix.tbRefPref != old.n0 Ix.tbRefPref && d.n0 Ix.tbLoopState = 2 && d.n0 Ix.tbRefActive = other && d.refOk (d.n0 Ix.tbRefPref) then d.loopTo 3
  else d

end Sys2Proof.Machine
end

