-- ==== Sys2Proof/Machine/Fabric.lean ====
section
/-! DEFINITION. Course Fabric: ports, map, keystone, time transfer, joining, broadcasts (14_course_fabric.md). -/

namespace Sys2Proof.Machine

/-- Whether a number names a ring port. -/
def isPort (k : Nat) : Bool := k < 4

/-! ### The map and what follows from it (R374, R375, R378, R392) -/

/-- The keystone's key a module has: higher priority, then lower identity, is better (R375). -/
def keyBetter (a b : Nat × Nat) : Bool := b.1 < a.1 || (a.1 == b.1 && decide (a.2 < b.2))

/-- The time parent: the working neighbour of least depth, K4 before K3 before K2 before K1 (R378). -/
def Dev.cfParent (d : Dev) (dist : Tab Nat) : Option (Nat × Nat) :=
  if d.cf.suspended then none else [3, 2, 1, 0].foldl (fun (b : Option (Nat × Nat)) k =>
    if d.portState k != 3 || d.cf.avoided.contains (d.nI Ix.cfNeighbour k) then b
    else match dist.find? (d.nI Ix.cfNeighbour k) with
      | none => b
      | some n => match b with
        | some x => if n < x.2 then some (k, n) else b
        | none => some (k, n)) none

/-- The average of the offsets so far, in ps. -/
def Dev.thetaPs (d : Dev) : Int := roundEven (d.cf.theta * 10 ^ 12) (2 * max d.cf.samples 1 * two48)

/-- Rings to a module that can be reached again are delivered again (R386). -/
def Dev.ringsReturn (d : Dev) : Dev :=
  (d.str.rings.map (fun p => p.1)).foldl (fun (a : Dev) r =>
    if a.nW Ix.strRingTarget r = 3 && a.ringState r = 4 && a.remoteJoined (a.nW Ix.strRingBase r / 2 ^ 32 % 1024) then
      a.setRingState r (if (a.ring r).prev = 2 then 2 else 1)
    else a) d

/-- Which destinations of data can be reached, and since when the others cannot. -/
def Dev.txReach (d : Dev) : Dev :=
  { d with cf := { d.cf with tx := d.cf.tx.map (fun p =>
      (p.1, { p.2 with gone := if d.remoteJoined p.1 then none else some (p.2.gone.getD d.now) })) } }

/-- The time parent and depth follow the map (event kind 0x07); without a parent TIME96 runs on the reference (R378, R379). -/
def Dev.cfTimeTree (d : Dev) : Dev :=
  let was := d.n0 Ix.cfTimeParent
  let mine := d.cf.key.isSome && d.n0 Ix.cfKeystone = d.slotIdent
  let (par, dep) := if mine then (0xFE, 0) else match d.cf.key with
    | some k => (match d.cfParent (d.cfDist k.2) with | some (p, n) => (p, min (n + 1) 0xFF) | none => (0xFF, 0xFF))
    | none => (0xFF, 0xFF)
  let avg := d.thetaPs
  let d := (d.w0 Ix.cfTimeParent par).w0 Ix.cfTimeDepth dep
  if par = was then d
  else
    let d := { d with cf := { d.cf with theta := 0, samples := 0 } }.cfEvent 0x07 par dep (toTwos 48 avg)
    if d.joined && par = 0xFF && d.n0 Ix.tbTimeSrc = 3 then d.timeState 3 5 else d

/-- A preparation made here has ended because its module joined; `cf.prepare_state` is that of the slot named last (R392). -/
def Dev.prepareJoined (d : Dev) (slot : Nat) : Dev :=
  let last := d.cf.prepared.head?.any (fun q => q.1 == slot)
  let d := { d with cf := { d.cf with prepared := d.cf.prepared.filter (fun q => q.1 != slot) } }
  (if last then d.w0 Ix.cfPrepareState 0 else d).cfEvent 0x08 0 slot 0

/-- A module that can be reached again over the slots routed round has joined: its preparation ends, here and on the routes (R392). -/
def Dev.prepareSettle (d : Dev) : Dev :=
  let seen := { d with cf := { d.cf with avoided := [] } }.cfDist d.slotIdent
  let ended := d.cf.avoided.filter (fun s => (seen.find? s).isSome)
  let mine := (d.cf.prepared.map (fun q => q.1)).filter (fun s => ended.contains s)
  mine.foldl (fun (a : Dev) s => a.prepareJoined s) { d with cf := { d.cf with avoided := d.cf.avoided.filter (fun s => !ended.contains s) } }

/-- What trunks beyond 4 m of fibre, 19.6 ns, add to the bound of a ring, in ns: a module knows the delay of its own two trunks, and the longer
of those that work counts (R383; DEDUCED, log entry 44). -/
def Dev.longTrunk (d : Dev) (ring : Nat) : Nat :=
  [2 * ring, 2 * ring + 1].foldl (fun m k => if d.portState k = 3 then max m (ceilDiv (d.nI Ix.cfLinkDelay k - 19600) 1000) else m) 0

/-- The present broadcast bounds (R383, Table 14.4). -/
def Dev.cfBounds (d : Dev) : Dev :=
  let course := 95 * (d.ringHops 0).2.2 + d.longTrunk 0
  (d.w0 Ix.cfBcastBound (380 + course)).w0 Ix.cfBcastBoundSys (380 + course + 95 * (d.ringHops 1).2.2 + d.longTrunk 1)

/-- Everything that follows from the map: preparations, modules, keystone, parent, bounds, remote rings. -/
def Dev.cfRecompute (d : Dev) : Dev :=
  let d := d.prepareSettle
  let dist := d.cfDist d.slotIdent
  let mods := dist.length - (if d.n0 Ix.cfState = 4 then 0 else 1)
  let was := d.n0 Ix.cfModules
  let gone := match d.cf.key with | some k => k.2 != d.slotIdent && (dist.find? k.2).isNone | none => false
  let d := if gone then { d with cf := { d.cf with key := none } } else d
  let present : List Nat := dist.map Prod.fst
  let fresh := present.filter (fun s => s != d.slotIdent && !d.cf.reached.contains s)
  let d := { d with cf := { d.cf with
    reached := present, apart := (d.cf.apart.filter (fun s => (dist.find? s).isSome && !fresh.contains s)) ++ fresh } }
  let d := (d.w0 Ix.cfModules mods).cfTimeTree.cfBounds
  let d := if mods = was then d else d.cfEvent 0x02 0 mods (d.n0 Ix.cfTopologySeq)
  d.txReach.ringsReturn

/-- The map changes (`cf.topology_seq`). -/
def Dev.cfChanged (d : Dev) : Dev := (d.inc0 Ix.cfTopologySeq).cfRecompute

/-- A port takes a state (event kind 0x01); a change of the map is flooded and announced (R374, R384). -/
def Dev.setPort (d : Dev) (k st : Nat) : Dev :=
  let was := d.portState k
  if was = st then d
  else
    let d := (d.wI Ix.cfPortState k st).cfEvent 0x01 k st (d.nI Ix.cfNeighbour k)
    if st = 3 || was = 3 then
      let d := { d with cf := { d.cf with floodDue := true } }.cfChanged
      d.cfAnnounce 0x02 k (d.n0 Ix.cfModules)
    else d

/-- `cf.map_entry` of a slot identity (Table 14.7). -/
def Dev.mapEntry (d : Dev) (slot : Nat) : Nat :=
  let n := d.cfNode slot
  let dep := match d.cf.key with | some k => ((d.cfDist k.2).get 0xFF slot) | none => 0xFF
  let key := d.cf.key.isSome && d.n0 Ix.cfKeystone = slot
  let on := if slot = d.slotIdent then d.n0 Ix.cfState = 4 else ((d.cfDist d.slotIdent).find? slot).isSome
  ((n.ports.zipIdx).map (fun p => p.1.1 % 16 * 2 ^ (32 + 4 * p.2))).sum + min dep 0xFF * 2 ^ 24 + n.prio % 256 * 2 ^ 16 +
    (if key then 2 else 0) + (if on then 1 else 0)

/-! ### Hellos and ports (R367, R370) -/

/-- PORT_TRAINED: the port exchanges hellos (R367). -/
def execPortTrained (t port : Nat) (s : State) : Res := runIf (isPort port) t s fun d =>
  if (d.portState port = 1 || d.portState port = 5) && !d.boot.failed.contains (0x200 + port) then
    ((d.setCfPort port { helloRx := d.now }).setPort port 2).foundReport
  else d

/-- HELLO_SEND: at once after training and every 100 µs on a trained port (R367). -/
def execHelloSend (t port : Nat) (s : State) : Res := runIf (isPort port) t s fun d =>
  let x := d.cfPort port
  let st := d.portState port
  let due := match x.helloTx with | none => true | some w => decide (w + us 100 ≤ d.now)
  if (st = 2 || st = 3 || st = 4) && due then
    let id := d.slotIdent
    let body := wordsBody [(d.rd Ix.modSerial 3 0).toNat % two48,
      1 * 2 ^ 40 + d.n0 Ix.cfKeystonePrio * 2 ^ 32 + port * 2 ^ 24 + d.service * 2 ^ 16 + id,
      d.n0 Ix.cfTopologySeq % two48 + d.n0 Ix.cfKeystone % 1024 * 2 ^ 48]
    (d.setCfPort port { x with helloTx := some d.now }).cfSend port { kind := 0x30, origin := id, body := body }
  else d

/-- Why a hello is refused, if it is (R367). -/
def Dev.helloRefusal (d : Dev) (port : Nat) (p : CfPkt) : Option Nat :=
  let w := p.word 1
  let ident := w % 1024
  let serial := p.word 0 % two48
  let n := d.cfNode ident
  if bitsOf 31 24 w != Nat.xor port 1 then some Code.cfCabling
  else if (port < 2 && ident / 32 != d.slotIdent / 32) || (2 ≤ port && ident % 32 != d.slotIdent % 32) then some Code.cfCabling
  else if ident = d.slotIdent || (n.serial != 0 && n.serial != serial && ((d.cfDist d.slotIdent).find? ident).isSome) then some Code.cfDupId
  else if bitsOf 47 40 w != 1 then some Code.cfVersion
  else none

/-- A keystone is adopted (event kind 0x03); a notified step whose tick has not passed is cancelled (Table 14.11). -/
def Dev.adoptKey (d : Dev) (key : Nat × Nat) : Dev :=
  let was := d.n0 Ix.cfKeystone
  let d := { d with cf := { d.cf with key := some key } }
  if was = key.2 then d.cfRecompute
  else
    let d := if d.tb.notified then { d with tb := { d.tb with step := none, stepDue := 0, notified := false } } else d
    let d := { d with cf := { d.cf with theta := 0, samples := 0, joinStep := false } }
    ((d.w0 Ix.cfKeystone key.2).cfEvent 0x03 0 key.2 was).cfRecompute

/-- A module that knows no keystone learns it from the hello of a neighbour whose map reaches it (Table 14.3). -/
def Dev.helloKey (d : Dev) (ident : Nat) : Dev :=
  if d.cf.key.isNone && ident != d.slotIdent && ((d.cfDist d.slotIdent).find? ident).isSome then d.adoptKey ((d.cfNode ident).prio, ident) else d

/-- HELLO_RECEIVE: the port comes up, stays in hello, or is refused (R367, R372). -/
def execHelloReceive (t port w0 w1 : Nat) (body : List Byte) (s : State) : Res := runIf (isPort port) t s fun d =>
  let st := d.portState port
  match pktOf w0 w1 body with
  | none => d
  | some p =>
    if !(st = 2 || st = 3 || st = 4) || p.kind != 0x30 || d.cf.suspended then d
    else
      let w := p.word 1
      let d := d.setCfPort port { d.cfPort port with helloRx := d.now, service := bitsOf 23 16 w }
      match d.helloRefusal port p with
      | some c =>
        let d := (d.wI Ix.cfPortReason port (reasonOf c)).wI Ix.cfNeighbour port (w % 1024)
        if st = 4 then d else (d.setPort port 4).raise 4 c
      | none =>
        let n := d.cfNode (w % 1024)
        let d := { d with cf := { d.cf with nodes := d.cf.nodes.put (w % 1024) { n with prio := bitsOf 39 32 w, serial := p.word 0 % two48 } } }
        let d := d.wI Ix.cfNeighbour port (w % 1024)
        let up := d.fullService == (bitsOf 23 16 w == 3)
        let d := d.setPort port (if up then 3 else 2)
        let d := if up then d.helloKey (p.word 2 / two48 % 1024) else d
        if st != 3 && up && d.cf.detours.contains port then
          { d with cf := { d.cf with detours := d.cf.detours.filter (fun k => k != port) } }.cfEvent 0x04 port 0 (w % 1024)
        else d

/-- PORT_DOWN: signal or alignment lost (0), more than 16 uncorrectable codewords in 1 ms (1), or no hello for 1 ms (2) (R370, R389). -/
def execPortDown (t port cause codewords : Nat) (s : State) : Res := runIf (isPort port) t s fun d =>
  let st := d.portState port
  let d := d.incI Ix.cfFecUncorrected port codewords
  let so := cause = 0 || (cause = 1 && 16 < codewords) || (cause = 2 && (d.cfPort port).helloRx + ms 1 ≤ d.now)
  if !(st = 2 || st = 3 || st = 4) || !so then d
  else
    let nb := d.nI Ix.cfNeighbour port
    let d := (d.incI Ix.cfLinkDowns port).wI Ix.cfPortReason port (reasonOf Code.cfLinkDown)
    let d := (d.faultWithin 1 Code.cfLinkDown 0xB port port 50000).happen (.linkDown 1 port)
    let d := (d.setCfPort port {}).setPort port 5
    if st = 3 then
      let d := { d with cf := { d.cf with detours := port :: d.cf.detours.filter (fun k => k != port), theta := 0, samples := 0 } }
      (d.cfEvent 0x04 port 1 nb).cfAnnounce 0x01 port 5
    else d

/-- LINK_STATE_FLOOD: on a change, and every 10 ms (R374). -/
def execLinkStateFlood (t : Nat) (s : State) : Res := run t s fun d =>
  let due := d.cf.floodDue || (match d.cf.floodAt with | none => true | some w => decide (w + ms 10 ≤ d.now))
  if d.n0 Ix.cfState = 4 && due then
    let ports := ((List.range 4).map (fun k => (d.portState k % 16 * 4096 + d.nI Ix.cfNeighbour k % 1024) * 2 ^ (16 * k))).sum
    let d := { d with cf := { d.cf with floodAt := some d.now, floodDue := false } }
    d.cfFlood 4 { kind := 0x31, hops := 255, origin := d.slotIdent, body := wordsBody [d.n0 Ix.cfTopologySeq, ports] }
  else d

/-- The data slots of a packet taken in are space to be returned to the port's sender (R369). -/
def Dev.cfOwe (d : Dev) (port : Nat) (p : CfPkt) : Dev :=
  if p.cls = 5 then d.setCfPort port { d.cfPort port with owed := (d.cfPort port).owed + p.slots } else d

/-- A packet that the island takes in from a port that is up. -/
def Dev.cfTake (d : Dev) (port w0 w1 : Nat) (body : List Byte) (kind : Nat) (f : Dev → CfPkt → Dev) : Dev :=
  match pktOf w0 w1 body with
  | some p => if d.portState port = 3 && p.kind = kind && p.origin != d.slotIdent && !d.cf.suspended then f d p else d
  | none => d

/-- LINK_STATE_RECEIVE: the map changes, and the packet is flooded on (R374). -/
def execLinkStateReceive (t port w0 w1 : Nat) (body : List Byte) (s : State) : Res := runIf (isPort port) t s fun d =>
  d.cfTake port w0 w1 body 0x31 fun d p =>
    let n := d.cfNode p.origin
    let ports := (List.range 4).map (fun k => (p.word 1 / 2 ^ (16 * k + 12) % 16, p.word 1 / 2 ^ (16 * k) % 1024))
    let seq := p.word 0 % two48
    let known := ((d.cfDist d.slotIdent).find? p.origin).isSome
    let d := if d.n0 Ix.cfState = 2 && d.fullService then d.w0 Ix.cfState 3 else d
    if (known && seq < n.seq) || (n.ports = ports && n.seq = seq && !n.left) then d
    else
      let d := { d with cf := { d.cf with nodes := d.cf.nodes.put p.origin { n with seq := seq, ports := ports, left := false } } }
      (d.cfFlood port { p with hops := p.hops - 1 }).cfChanged

/-! ### The keystone (R375, R376) -/

/-- KEYSTONE_CLAIM: on port 4 this module's own claim, new or again, else one received. `delta` is the correction in ps of the part whose
worse claim reaches the keystone; the modules of that part are told to step (R375, R376). -/
def execKeystoneClaim (t port w0 w1 : Nat) (body : List Byte) (delta : Int) (s : State) : Res := runIf (port < 5) t s fun d =>
  if port = 4 then
    let mine := (d.n0 Ix.cfKeystonePrio, d.slotIdent)
    let best := match d.cf.key with | some k => k.2 == mine.2 || keyBetter mine k | none => true
    let new := !d.cf.key.any (fun k => k.2 == mine.2)
    if d.joined && mine.1 != 0 && best then
      let d := d.adoptKey mine
      (if new then d.cfAnnounce 0x03 0 mine.2 else d).cfFlood 4
        { kind := 0x32, hops := 255, origin := d.slotIdent, body := wordsBody [mine.1 * 2 ^ 40 + mine.2, d.n0 Ix.cfTopologySeq] }
    else d
  else d.cfTake port w0 w1 body 0x32 fun d p =>
    let key := (bitsOf 47 40 (p.word 0), p.word 0 % 1024)
    let n := d.cfNode key.2
    let d := { d with cf := { d.cf with nodes := d.cf.nodes.put key.2 { n with prio := key.1 } } }
    -- the adopted keystone's own claim stands with the priority it now has
    let best := match d.cf.key with | some k => keyBetter key k || (k.2 == key.2 && k != key) | none => true
    if key.1 = 0 || key.2 = d.slotIdent then d
    else if best then (d.cfFlood port { p with hops := p.hops - 1 }).adoptKey key
    else if d.joined && d.n0 Ix.cfKeystone = d.slotIdent && delta != 0 then
      { d.stepNoticeTo delta d.tickAhead d.cf.apart with cf := { (d.stepNoticeTo delta d.tickAhead d.cf.apart).cf with apart := [] } }
    else d

/-! ### Time transfer (R377 to R380) -/

/-- TIMING_MARKER: departs (0) from a port, or arrives (1), with its stamp; the arrival is answered by a time report (R377). With it come what
the superframe brought the port: data slots returned, codewords corrected and lost (R368 to R370). -/
def execTimingMarker (t port dir stamp seq credit corrected lost : Nat) (s : State) : Res := runIf (isPort port && dir < 2) t s fun d =>
  let d := d.cfLine port
  let d := d.setCfPort port { d.cfPort port with credit := (d.cfPort port).credit + credit }
  let d := if corrected = 0 then d else d.incI Ix.cfFecCorrected port corrected
  let d := if lost = 0 then d else d.incI Ix.cfFecUncorrected port lost
  let x := d.cfPort port
  if d.portState port != 3 || !d.fullService || d.cf.suspended then d
  else if dir = 0 then
    (d.setCfPort port { x with departed := ((seq % 2 ^ 24, stamp) :: x.departed).take 64 }).cfSend port
      { kind := 0x10, origin := d.slotIdent, seq := seq }
  else
    let d := d.setCfPort port { x with arrived := some (seq % 2 ^ 24, stamp) }
    match x.departed with
    | (_, dep) :: _ =>
      d.cfSend port { kind := 0x11, origin := d.slotIdent, seq := seq,
                      body := wordsBody [sec48 dep, frac48 dep, sec48 stamp, frac48 stamp, toTwos 32 (d.rd Ix.cfPortAsym (port + 1) 0)] }
    | [] => d

/-- TIME_REPORT_RECEIVE: a sample of link delay, and of the offset where the port leads to the parent (R377). -/
def execTimeReportReceive (t port w0 w1 : Nat) (body : List Byte) (s : State) : Res := runIf (isPort port) t s fun d =>
  d.cfTake port w0 w1 body 0x11 fun d p =>
    let x := d.cfPort port
    match x.arrived, x.departed.findSome? (fun q => if q.1 = p.seq then some q.2 else none) with
    | some (seq, arr), some dep =>
      let far := p.timeAt 0
      if roundEven ((far * 1000000 : Nat) : Int) two48 % 2 ^ 24 != (seq : Int) then d
      else
        let a : Int := (arr : Int) - (far : Int)
        let b : Int := (p.timeAt 2 : Int) - (dep : Int)
        let alpha := psUnits (d.rd Ix.cfPortAsym (port + 1) 0 - ofTwos 32 (p.word 4))
        let d := (d.wI Ix.cfLinkDelay port (roundEven ((a + b) * 10 ^ 12) (2 * two48)).toNat).cfBounds
        let d := d.setCfPort port { x with arrived := none }
        if port = d.n0 Ix.cfTimeParent then
          { d with cf := { d.cf with theta := d.cf.theta + (a - b - alpha), samples := d.cf.samples + 1 } }
        else d
    | _, _ => d

/-- TIME_OFFSET_AVERAGE: the average is removed by slew or step; a joining module decides its step to system time. `ppb` is the frequency
measured against the parent (R373, R379, R380). -/
def execTimeOffsetAverage (t : Nat) (ppb : Int) (s : State) : Res := run t s fun d =>
  let avg := d.thetaPs
  let take (d : Dev) : Dev := { d with cf := { d.cf with theta := 0, samples := 0 } }.wr Ix.cfTimeOffset 0 0 avg
  if d.n0 Ix.cfTimeParent = 0xFE || d.n0 Ix.cfTimeParent = 0xFF then d
  else if d.n0 Ix.cfState = 3 && !d.cf.joinStep && 16 ≤ d.cf.samples then
    let d := (take d).stepBy (-avg) 4
    { d with tb := { d.tb with stepDue := d.tickAhead }, cf := { d.cf with joinStep := true } }
  else if d.joined && d.n0 Ix.cfTimeAvg ≤ d.cf.samples then
    let d := (take d).wr Ix.cfFreqOffset 0 0 ppb
    let d := if 100 < ppb.natAbs then (d.raise 4 Code.cfFreqMismatch).cfEvent 0x09 (d.n0 Ix.cfTimeParent) (toTwos 48 ppb) 0 else d
    (d.timeState 3 4).removeOffset avg (d.n0 Ix.cfTimeStep) 4
  else d

/-- A packet for another module travels on (R371). -/
def Dev.passOn (d : Dev) (p : CfPkt) : Dev := if 1 < p.hops then d.cfSendTo { p with hops := p.hops - 1 } else d

/-- STEP_NOTICE_RECEIVE: the step is made at the tick named, or at the next where that has passed (R379). -/
def execStepNoticeReceive (t port w0 w1 : Nat) (body : List Byte) (s : State) : Res := runIf (isPort port) t s fun d =>
  d.cfTake port w0 w1 body 0x12 fun d p =>
    if p.scope = 3 && p.dest != d.slotIdent then d.passOn p
    else
      let d := if p.scope = 3 then d else d.forwardScope p
      if !d.joined then d
      else
        let tick := p.timeAt 1
        let d := d.stepBy (ofTwos 48 (p.word 0)) 4
        { d with tb := { d.tb with stepDue := if d.time96 < tick then tick else tickAt (d.time96 + 1), notified := true } }

/-! ### Joining, leaving, preparing (R372, R373, R391, R392) -/

/-- A command of `cf.cmd`; the function is withheld before the changeover (R77). -/
def Dev.cfCommand (d : Dev) (path v : Nat) (f : Dev → Dev) : Dev :=
  d.command path Ix.cfCmd 0 v fun d => if !d.fullService then d.refuse path Ix.cfCmd 0 Code.rushesUnavailable else f d

/-- A join begins: the module inserts in every dimension that is not forced through (R372, R373). -/
def Dev.joinStart (d : Dev) : Dev :=
  let d := (d.insertArray 0).insertArray 1
  let d := { d with cf := { d.cf with theta := 0, samples := 0, joinStep := false, blocked := false, leaveAt := none } }
  let st (k : Nat) : Nat := d.nI Ix.hwBypassState k
  if st 0 = 1 || st 1 = 1 then d.w0 Ix.cfState 1 else if st 0 = 2 || st 1 = 2 then d.w0 Ix.cfState 2 else d

/-- CF_JOIN (R373). -/
def execCfJoin (t path : Nat) (s : State) : Res := run t s fun d =>
  d.cfCommand path 1 fun d =>
    if !(d.n0 Ix.cfState = 0 || d.n0 Ix.cfState = 6) then d.refuse path Ix.cfCmd 0 Code.cfState
    else if d.n0 Ix.tbTimeSrc != 3 then d.refuse path Ix.cfCmd 0 Code.cfTimeSrc
    else d.joinStart

/-- AUTO_JOIN_START: at rushes service, or at the changeover, as `cf.auto_join` says, and after a wake (R372, R373, Table 16.4). -/
def execAutoJoinStart (t : Nat) (s : State) : Res := run t s fun d =>
  let a := d.boot.autoJoin
  if d.n0 Ix.cfState != 0 || d.boot.autoDone || d.n0 Ix.pwrState != 3 || d.pwr.entering.isSome || !((a = 1 && d.service != 0) || (a = 2 && d.fullService)) then d
  else
    let d := { d with boot := { d.boot with autoDone := true } }
    let d := if d.n0 Ix.tbTimeSrc = 3 then d.joinStart
      else if d.cf.blocked then d else { d with cf := { d.cf with blocked := true } }.raise 4 Code.cfTimeSrc
    d.foundReport

/-- JOIN_COMPLETE: the module has stepped to system time, or is the first to join; a join that fails leaves it isolated (R373). -/
def execJoinComplete (t : Nat) (ok : Bool) (s : State) : Res := run t s fun d =>
  let st := d.n0 Ix.cfState
  if !(st = 1 || st = 2 || st = 3) then d
  else if !ok then d.w0 Ix.cfState 6
  else
    let first := d.cf.key.isNone && (d.cfDist d.slotIdent).length = 1
    let stepped := d.cf.joinStep && d.tb.step.isNone
    if !d.fullService || st = 1 || !(first || (st = 3 && stepped)) then d
    else
      let d := (d.w0 Ix.cfState 4).w0 Ix.modBringup (setBitTo (d.n0 Ix.modBringup) 12 true)
      let d := { d with cf := { d.cf with floodDue := true, joinStep := false } }.cfChanged
      let d := d.cfAnnounce 0x02 0 (d.n0 Ix.cfModules)
      if first then d else d.timeState 3 4

/-- CF_LEAVE: the leaving event goes out; release follows 50 µs later (R391, R486). -/
def execCfLeave (t path : Nat) (s : State) : Res := run t s fun d =>
  d.cfCommand path 2 fun d =>
    let through (k : Nat) : Bool := d.nI Ix.hwBypassState k == 0 || d.nI Ix.hwBypassState k == 3
    if d.n0 Ix.cfState = 5 || (through 0 && through 1) then d.alreadyDone path
    else if d.cf.leaveAt.isSome then d
    else
      let d := { d with cf := { d.cf with leaveAt := some d.now } }
      (d.cfEvent 0x06 0 d.slotIdent 0).cfAnnounce 0x06 0 d.slotIdent

/-- CF_LEAVE_RELEASE: 50 µs after the leave the arrays are released (R391). -/
def execCfLeaveRelease (t : Nat) (s : State) : Res := run t s fun d =>
  match d.cf.leaveAt with
  | some w =>
    if w + us 50 ≤ d.now then
      let d := { d with cf := { d.cf with leaveAt := none, nodes := [], key := none, fires := [] } }
      let d := (d.w0 Ix.cfState 5).releaseArrays
      d.cfChanged
    else d
  | none => d

/-- A preparation changes (event kind 0x08), and every module is told. -/
def Dev.prepareTo (d : Dev) (slot st : Nat) : Dev := (d.cfEvent 0x08 0 slot st).cfAnnounce 0x08 st slot

/-- CF_PREPARE_SLOT (R392). -/
def execCfPrepareSlot (t path : Nat) (s : State) : Res := run t s fun d =>
  d.cfCommand path 3 fun d =>
    let slot := d.n0 Ix.cfCmdSlot
    if !d.joined then d.refuse path Ix.cfCmd 0 Code.cfState
    else if slot != d.slotIdent && (d.cf.nodes.find? slot).isNone then d.refuse path Ix.cfCmd 0 Code.cfSlotUnknown
    else if slot = d.slotIdent || ((d.cfDist d.slotIdent).find? slot).isSome then d.refuse path Ix.cfCmd 0 Code.cfState
    else
      let d := { d with cf := { d.cf with
        avoided := slot :: d.cf.avoided.filter (fun k => k != slot), prepared := (slot, d.now) :: d.cf.prepared.filter (fun q => q.1 != slot) } }
      ((d.w0 Ix.cfPrepareState 2).prepareTo slot 2).cfRecompute

/-- A preparation made here ends; `cf.prepare_state` changes where its slot is the one named last. -/
def Dev.prepareEnd (d : Dev) (slot st : Nat) (last : Bool) : Dev :=
  let d := if last then d.w0 Ix.cfPrepareState st else d
  let d := { d with cf := { d.cf with avoided := d.cf.avoided.filter (fun k => k != slot), prepared := d.cf.prepared.filter (fun q => q.1 != slot) } }
  (d.prepareTo slot st).cfRecompute

/-- CF_RELEASE_SLOT (R392). -/
def execCfReleaseSlot (t path : Nat) (s : State) : Res := run t s fun d =>
  d.cfCommand path 4 fun d =>
    let slot := d.n0 Ix.cfCmdSlot
    if !d.joined || !d.cf.prepared.any (fun q => q.1 == slot) then d.refuse path Ix.cfCmd 0 Code.cfState
    else d.prepareEnd slot 0 true

/-- PREPARE_LAPSE: 120 s after a preparation (R392). -/
def execPrepareLapse (t slot : Nat) (s : State) : Res := run t s fun d =>
  if d.cf.prepared.any (fun q => q.1 == slot && decide (q.2 + 120 * sec ≤ d.now)) then
    (d.prepareEnd slot 3 (d.cf.prepared.head?.any (fun q => q.1 == slot))).raise 4 Code.cfPrepareLapsed
  else d

/-! ### Broadcasts (R381 to R384) -/

/-- BCAST_ORIGINATE: a packet of a scope leaves with up to two waiting fires, if its scope's rule lets it (R382). -/
def execBcastOriginate (t scope : Nat) (s : State) : Res := runIf (scope < 2) t s fun d =>
  let l := (d.cf.fires.filter (fun f => f.scope == scope)).take 2
  let may := if scope = 0 then (match d.cf.courseAt with | none => true | some w => decide (w + ns 500 ≤ d.now))
    else d.time96 * 1000000 / two48 % 16 == d.slotIdent % 32 % 16
  match l with
  | [] => d
  | f :: _ =>
    if !may || !d.joined || d.cf.suspended then d
    else
      let body := wordsBody (l.map (fun g => [g.ident * 2 ^ 56 + sec48 g.time, g.dropped * two48 + frac48 g.time])).flatten
      let d := { d with cf := { d.cf with
        fires := d.cf.fires.filter (fun g => !l.contains g), courseAt := if scope = 0 then some d.now else d.cf.courseAt } }
      let d := (d.inc0 Ix.cfBcastSent l.length).inc0 Ix.cfBcastWaited (l.filter (fun g => decide (g.decided < d.now))).length
      d.sendScope { kind := 0x20, origin := d.slotIdent, scope := scope + 1, seq := f.seq, body := body }

/-- TRIGGER_PACKET_RECEIVE: remote events, forwarding, and fires known lost (R381, R382). -/
def execTriggerPacketReceive (t port w0 w1 : Nat) (body : List Byte) (s : State) : Res := runIf (isPort port) t s fun d =>
  d.cfTake port w0 w1 body 0x20 fun d p =>
    let d := d.forwardScope p
    let n := body.length / 16
    let drops (i : Nat) : Nat := p.word (2 * i + 1) / two48 % 65536
    let gap := match d.cf.heard.find? p.origin with | some e => (p.seq + 2 ^ 24 - e) % 2 ^ 24 | none => 0
    let gap := if 2 ^ 23 ≤ gap then 0 else gap
    let later := ((List.range (n - 1)).map (fun i => drops (i + 1))).sum
    let lost := max gap (drops 0) + later
    let d := { d with cf := { d.cf with heard := d.cf.heard.put p.origin ((p.seq + n + later) % 2 ^ 24) } }
    let d := if lost = 0 then d else (d.inc0 Ix.cfBcastLost lost).cfEvent 0x05 0 p.origin lost
    let d := d.inc0 Ix.cfBcastReceived n
    (List.range n).foldl (fun (a : Dev) i =>
      a.remoteEvent (p.word (2 * i) / 2 ^ 56 % 256) (p.word (2 * i) % two48 * two48 + p.word (2 * i + 1) % two48) p.origin) d

/-- EVENT_PACKET_RECEIVE: written into `cf.event_ring`; value B travels in no field of the packet and is a free value, but where the kind
gives it as 0 (R384). Leaving and preparation change the routes. -/
def execEventPacketReceive (t port w0 w1 : Nat) (body : List Byte) (s : State) : Res := runIf (isPort port) t s fun d =>
  d.cfTake port w0 w1 body 0x21 fun d p =>
    let d := d.forwardScope p
    let kind := p.word 0 / 2 ^ 56 % 256
    let obj := p.word 0 / two48 % 256
    let a := p.word 0 % two48
    let (b, d) := if kind = 0x06 || kind = 0x09 then (0, d) else d.draw 48
    let d := d.event 0xB 0x1300 kind obj (p.timeAt 1) a b
    if kind = 0x06 then
      let n := d.cfNode (a % 1024)
      { d with cf := { d.cf with nodes := d.cf.nodes.put (a % 1024) { n with left := true, seq := 0 } } }.cfChanged
    else if kind = 0x08 then
      let rest := d.cf.avoided.filter (fun k => k != a % 1024)
      { d with cf := { d.cf with avoided := if obj = 2 then a % 1024 :: rest else rest } }.cfRecompute
    else d

/-! ### Dictionary requests to other modules (R385) -/

/-- A request is sent and waits for its response. -/
def Dev.rdaSend (d : Dev) (path cmd : Nat) : Dev :=
  d.command path Ix.cfRdaCmd 0 cmd fun d =>
    if !d.fullService then d.refuse path Ix.cfRdaCmd 0 Code.rushesUnavailable
    else if d.n0 Ix.cfRdaState = 1 then d.refuse path Ix.cfRdaCmd 0 Code.cfState
    else
      let slot := d.n0 Ix.cfRdaSlot % 1024
      let data := d.long.get [] (ekey Ix.cfRdaData 0 0)
      let head := leBytes 8 (d.nW Ix.cfRdaIndex path / 256 % 65536 * 65536 + d.nW Ix.cfRdaIndex path % 256 * 256)
      let txn := d.cf.txn
      let d := { d with cf := { d.cf with rda := some (slot, txn, d.now), txn := (txn + 1) % 2 ^ 24 } }
      (d.w0 Ix.cfRdaState 1).cfSendTo
        { kind := 0x3F + cmd, hops := 255, origin := d.slotIdent, dest := slot, scope := 3, seq := txn,
          body := if cmd = 1 then head else head ++ leBytes 8 data.length ++ data }

/-- RDA_READ (R385). -/
def execRdaRead (t path : Nat) (s : State) : Res := run t s fun d => d.rdaSend path 1

/-- RDA_WRITE (R385). -/
def execRdaWrite (t path : Nat) (s : State) : Res := run t s fun d => d.rdaSend path 2

/-- RDA_RESPONSE (R385). -/
def execRdaResponse (t port w0 w1 : Nat) (body : List Byte) (s : State) : Res := runIf (isPort port) t s fun d =>
  d.cfTake port w0 w1 body 0x42 fun d p =>
    if p.dest != d.slotIdent then d.passOn p
    else match d.cf.rda with
    | some (slot, txn, _) =>
      if p.origin != slot || p.seq != txn then d
      else
        let w := p.word 0
        let code := w / 2 ^ 32 % 2 ^ 32
        let d := { d with cf := { d.cf with rda := none }, long := d.long.set [] (ekey Ix.cfRdaData 0 0) ((body.drop 8).take (w % 65536)) }
        (d.w0 Ix.cfRdaState (if code = 0 then 2 else 3)).w0 Ix.cfRdaAbort (if code = 0 && bitOf w 31 then 2 ^ 31 else code)
    | none => d

/-- RDA_TIMEOUT (R385). -/
def execRdaTimeout (t : Nat) (s : State) : Res := run t s fun d =>
  match d.cf.rda with
  | some (_, _, since) =>
    if since + us (d.n0 Ix.cfRdaTimeout) ≤ d.now then
      ({ d with cf := { d.cf with rda := none } }.w0 Ix.cfRdaState 3).raise 4 Code.cfRdaTimeout
    else d
  | none => d

/-! ### Data (R386 to R388) -/

/-- A byte the module gives to a remote copy: zero outside allocations, in a hole, or in a lost burst (R388). -/
def Dev.copyByte (d : Dev) (m : Mem) (a : Nat) : Byte := if d.cap.lost.contains (a / 64 * 64) then 0#8 else d.bar2Byte m a

/-- Records in a stream of bytes, by their lengths in slots; what is left over waits for the next packet. -/
def recordsOf : List Nat → List Byte → List Rec × List Byte
  | [], l => ([], l)
  | n :: ns, l =>
    let r : Rec := { slots := (List.range n).map (fun i => let w := ofLeBytes ((l.drop (8 * i)).take 8); (w / two48, w % two48)), remote := true }
    let q := recordsOf ns (l.drop (8 * n))
    (r :: q.1, q.2)

/-- Ring data enter the ring they name (R386). -/
def Dev.takeRing (d : Dev) (p : CfPkt) (lens : List Nat) (m : Mem) : Mem × Dev :=
  let r := p.word 0 / two48 % 65536
  let x := d.cf.rx.get {} p.origin
  let q := recordsOf lens (x.partial_.get [] r ++ p.body.drop 8)
  let d := { d with cf := { d.cf with rx := d.cf.rx.put p.origin { x with partial_ := x.partial_.set [] r q.2 } } }
  let d := d.portServe 20 (p.body.length - 8)
  (q.1.foldl (fun (a : Dev) y => a.ringAccept r y) d).ringDeliver r m

/-- A copy read is answered with copy data (R388). The read names no destination, so the address in the answers is a free value. -/
def Dev.answerCopy (d : Dev) (p : CfPkt) (m : Mem) : Dev :=
  let src := p.word 0 % two48
  let len := p.word 1 % two48
  let (base, d) := d.draw 48
  let l := pieces (len + 1) ((addrRange src len).map (d.copyByte m))
  (l.zipIdx).foldl (fun (a : Dev) q => a.cfData p.origin 0x52 (leBytes 8 ((base + 1024 * q.2) % two48) ++ q.1) none) (d.portServe 19 len)

/-- Copy data, which come in order, are written from `cf.copy_dst` on; the copy is done with its last byte (R387, R388). -/
def Dev.takeCopy (d : Dev) (p : CfPkt) (lost : Nat) (m : Mem) : Mem × Dev :=
  match d.cf.copy with
  | some (slot, dst, len) =>
    if slot != p.origin then (m, d)
    else
      let data := p.body.drop 8
      let a := dst + d.n0 Ix.cfCopyDone
      let ok (b : Nat) : Bool := (d.allocAt b).isSome && d.inService (d.chanOf b)
      let m := ((addrRange a data.length).zip data).foldl (fun (m : Mem) q => if ok q.1 then memWrite m q.1 q.2 else m) m
      let whole (b : Nat) : Bool := decide (a ≤ b) && decide (b + 64 ≤ a + data.length)
      let d := { d with cap := { d.cap with lost := d.cap.lost.filter (fun b => !whole b) } }
      let d := ((d.portServe 20 data.length).inc0 Ix.cfCopyDone data.length).inc0 Ix.cfCopyLost lost
      (m, if len ≤ d.n0 Ix.cfCopyDone then { d with cf := { d.cf with copy := none } }.w0 Ix.cfCopyState 2 else d)
  | none => (m, d)

/-- Whether a kind is in Table 14.3. -/
def kindKnown (k : Nat) : Bool :=
  (0x10 ≤ k && k ≤ 0x12) || k == 0x20 || k == 0x21 || (0x30 ≤ k && k ≤ 0x32) || (0x40 ≤ k && k ≤ 0x42) || (0x50 ≤ k && k ≤ 0x53)

/-- FABRIC_DATA_RECEIVE: a data packet for this module, in sequence, is used and acknowledged; a duplicate is only acknowledged. `lens`
are the lengths in slots of the records that end in it, `lost` the bytes the source copied as zeros (R386 to R388). -/
def execFabricDataReceive (t port w0 w1 : Nat) (body : List Byte) (lens : List Nat) (lost : Nat) (s : State) : Res :=
  runMemIf (isPort port) t s fun m d =>
    match pktOf w0 w1 body with
    | none => (m, d)
    | some p =>
      let d := if d.portState port = 3 then d.cfOwe port p else d
      if d.portState port != 3 || !d.fullService || d.cf.suspended || p.origin = d.slotIdent then (m, d)
      else if !(0x50 ≤ p.kind && p.kind ≤ 0x52) then
        -- a packet of an unknown kind is forwarded if it is addressed onward (R371)
        (m, if kindKnown p.kind || p.scope != 3 || p.dest = d.slotIdent then d else d.passOn p)
      else if p.dest != d.slotIdent then (m, d.passOn p)
      else
        let x := d.cf.rx.get {} p.origin
        let inOrder := p.seq = x.expect
        let q : Mem × Dev :=
          if !inOrder then (m, d)
          else
            let d := { d with cf := { d.cf with rx := d.cf.rx.put p.origin { x with expect := (x.expect + 1) % 2 ^ 24 } } }
            if p.kind = 0x50 then d.takeRing p lens m else if p.kind = 0x51 then (m, d.answerCopy p m) else d.takeCopy p lost m
        let e := (q.2.cf.rx.get {} p.origin).expect
        if !inOrder && e = 0 then q
        else (q.1, q.2.cfSendTo { kind := 0x53, hops := 255, origin := d.slotIdent, dest := p.origin, scope := 3,
                                  body := wordsBody [(e + 2 ^ 24 - 1) % 2 ^ 24] })

/-- A remote ring's consumer has taken its records up to an index (R386). -/
def Dev.remoteTaken (d : Dev) (r ci : Nat) : Dev :=
  if d.nW Ix.strRingTarget r != 3 || d.ringState r = 0 then d
  else
    let y := d.ring r
    let was := d.nW Ix.strRingCi r
    let left (i : Nat) : Bool := decide ((ci + 2 ^ 32 - was) % 2 ^ 32 ≤ (i + 2 ^ 32 - was) % 2 ^ 32)
    (d.setRing r { y with written := y.written.filter (fun q => left q.1) }).wW Ix.strRingCi r ci

/-- FABRIC_ACK_RECEIVE: what has arrived is released; rings go on (R386, R387). -/
def execFabricAckReceive (t port w0 w1 : Nat) (body : List Byte) (s : State) : Res := runMemIf (isPort port) t s fun m d =>
  match pktOf w0 w1 body with
  | none => (m, d)
  | some p =>
    let d := if d.portState port = 3 then d.cfOwe port p else d
    if d.portState port != 3 || p.kind != 0x53 || d.cf.suspended then (m, d)
    else if p.dest != d.slotIdent then (m, d.passOn p)
    else
      let x := d.cf.tx.get {} p.origin
      let got (g : CfSeg) : Bool := (p.word 0 % 2 ^ 24 + 2 ^ 24 - g.pkt.seq) % 2 ^ 24 < 2 ^ 23
      let freed := (x.unacked.filter got).filterMap (fun g => g.frees)
      let d := { d with cf := { d.cf with tx := d.cf.tx.put p.origin { x with unacked := x.unacked.filter (fun g => !got g) } } }
      freed.foldl (fun (q : Mem × Dev) f => (q.2.remoteTaken f.1 f.2).ringDeliver f.1 q.1) (m, d)

/-- FABRIC_RETRANSMIT: packets not acknowledged for 20 µs are sent again on the present route (R387). -/
def execFabricRetransmit (t dest : Nat) (s : State) : Res := runIf (dest < 1024) t s fun d =>
  let x := d.cf.tx.get {} dest
  let due (g : CfSeg) : Bool := decide (g.sent + us 20 ≤ d.now)
  let l := x.unacked.filter due
  if l.isEmpty || !d.remoteJoined dest then d
  else
    let now := d.now
    let d := { d with cf := { d.cf with tx := d.cf.tx.put dest { x with unacked := x.unacked.map (fun g => if due g then { g with sent := now } else g) } } }
    l.foldl (fun (a : Dev) g => a.cfSendTo g.pkt) (d.inc0 Ix.cfRetransmits l.length)

/-- DESTINATION_UNREACHABLE: rings to it go to state 4, a copy from it fails (R386, R387). -/
def execDestinationUnreachable (t dest : Nat) (s : State) : Res := runIf (dest < 1024) t s fun d =>
  let d := d.txReach
  match (d.cf.tx.get {} dest).gone with
  | some w =>
    if d.now < w + us (d.n0 Ix.cfDataTimeout) then d
    else
      let l := (d.str.rings.map (fun p => p.1)).filter (fun r =>
        d.nW Ix.strRingTarget r == 3 && d.nW Ix.strRingBase r / 2 ^ 32 % 1024 == dest && (d.ringState r == 1 || d.ringState r == 2))
      let copying := match d.cf.copy with | some c => c.1 == dest | none => false
      let d := if copying then { d with cf := { d.cf with copy := none } }.w0 Ix.cfCopyState 3 else d
      let d := l.foldl (fun (a : Dev) r => (a.setRing r { a.ring r with prev := a.ringState r }).setRingState r 4) d
      if l.isEmpty && !copying then d else d.raise 4 Code.cfUnreachable
  | none => d

/-- COPY_START (R388). -/
def execCopyStart (t path : Nat) (s : State) : Res := run t s fun d =>
  d.command path Ix.cfCopyCmd 0 1 fun d =>
    let slot := d.n0 Ix.cfCopySlot
    let len := d.n0 Ix.cfCopyLen
    if !d.fullService then d.refuse path Ix.cfCopyCmd 0 Code.rushesUnavailable
    else if d.n0 Ix.cfCopyState = 1 || !d.joined then d.refuse path Ix.cfCopyCmd 0 Code.cfState
    else if len % 64 != 0 then d.refuse path Ix.cfCopyCmd 0 Code.valueRange
    else if !d.remoteJoined slot then d.refuse path Ix.cfCopyCmd 0 Code.cfSlotUnknown
    else
      let d := (d.w0 Ix.cfCopyDone 0).w0 Ix.cfCopyLost 0
      if len = 0 then d.w0 Ix.cfCopyState 2
      else
        let d := { d with cf := { d.cf with copy := some (slot, d.n0 Ix.cfCopyDst, len) } }.w0 Ix.cfCopyState 1
        d.cfData slot 0x51 (wordsBody [d.n0 Ix.cfCopySrc, len]) none

/-- COPY_ABORT: before the last acknowledgement the copy stops, and its state reads idle (R388, R486). -/
def execCopyAbort (t path : Nat) (s : State) : Res := run t s fun d =>
  d.command path Ix.cfCopyCmd 0 2 fun d =>
    if d.cf.copy.isSome then { d with cf := { d.cf with copy := none } }.w0 Ix.cfCopyState 0 else d.alreadyDone path

/-! ### Cuts and repointing (R373, R381, R393) -/

/-- The Course Fabric's part of a commit's checks. -/
def Dev.cfCheck (d : Dev) : Option Nat :=
  firstCode ((List.range 16).map (fun c =>
    if 255 < d.nI Ix.trgChainBcast c && d.nI Ix.trgChainBcast c < 0xFFFF then some Code.cfBcastId else none))

/-- A join that waited for `tb.time_src` starts at the cut that sets it (R373). -/
def Dev.cfCut (d : Dev) : Dev :=
  if d.cf.blocked && d.n0 Ix.tbTimeSrc = 3 && d.n0 Ix.cfState = 0 then d.joinStart else d

/-- The island leaves service: its links are treated as prepared, so that the others route round it, its remote rings go to state 4, and
TIME96 holds on the reference (R393). -/
def Dev.cfSuspend (d : Dev) : Dev :=
  let d := d.cfAnnounce 0x08 2 d.slotIdent
  let d := { d with cf := { d.cf with suspended := true } }.cfTimeTree
  (d.str.rings.map (fun p => p.1)).foldl (fun (a : Dev) r =>
    if a.nW Ix.strRingTarget r = 3 && (a.ringState r = 1 || a.ringState r = 2) then
      (a.setRing r { a.ring r with prev := a.ringState r }).setRingState r 4
    else a) d

/-- The island rejoins: time is measured again (R393). -/
def Dev.cfRejoin (d : Dev) : Dev :=
  { d with cf := { d.cf with suspended := false, theta := 0, samples := 0 } }.cfRecompute.cfAnnounce 0x08 0 d.slotIdent

end Sys2Proof.Machine
end

