-- ==== Sys2Proof/Machine/Power.lean ====
section
/-! DEFINITION. Power states and the energy governor (16_power_and_energy.md, and R37 of 01_islands_and_flow.md). -/

namespace Sys2Proof.Machine

/-- EPS_WINDOW_END: `pwr.eps_window` has passed since the last window began: energies that the monitors counted in it, in µJ;
`pwr.eps_live` in fJ per complex sample analysed in it. A new length is taken for the next window (R36, R37). -/
def execEpsWindowEnd (t analysisUj moduleUj : Nat) (s : State) : Res := run t s fun d =>
  if d.now < d.pwr.epsSince + ms (if d.pwr.epsWindow = 0 then 1000 else d.pwr.epsWindow) then d
  else
    let count := d.n0 Ix.pwrAnalysedSamples
    let samples := (count + two48 - d.pwr.epsCount) % two48
    let d := (d.inc0 Ix.pwrAnalysisEnergy analysisUj).inc0 Ix.pwrModuleEnergy moduleUj
    let d := { d with pwr := { d.pwr with epsSince := d.now, epsCount := count, epsWindow := d.n0 Ix.pwrEpsWindow } }
    d.w0 Ix.pwrEpsLive (if samples = 0 then 0 else (roundEven ((analysisUj * 1000000000 : Nat) : Int) samples).toNat)

/-! ### Module sleep (R429 to R431, R435) -/

/-- A sleep is abandoned for a wake in the same clock (R435). -/
def Dev.sleepDeclined (d : Dev) (obj source : Nat) : Dev :=
  let d := d.inc0 Ix.pwrSleepDeclined
  d.pwrEvent 0x08 obj source (d.n0 Ix.pwrSleepDeclined)

/-- A request for module sleep; `wake` is the source that fires in the same clock, 0xFF a request, anything else none (R430, R435). -/
def Dev.moduleSleep (d : Dev) (wake : Nat) (refused : Dev → Dev) : Dev :=
  if d.n0 Ix.pwrState != 3 || d.pwr.entering.isSome || d.sleepForbidden then refused d
  else if wake = 0xFF || d.wakeEnabled wake then
    { ((d.sleepDeclined 0xFF wake).raise 4 Code.sleepDeclined) with pwr := { (d.sleepDeclined 0xFF wake).pwr with written := d.now } }
  else { d with pwr := { d.pwr with entering := some d.now } }

/-- PWR_SLEEP (R430). -/
def execPwrSleep (t path wake : Nat) (s : State) : Res := run t s fun d =>
  d.command path Ix.pwrSleep 0 1 fun d => d.moduleSleep wake (fun d => d.refuse path Ix.pwrSleep 0 Code.sleepRefused)

/-- MODULE_IDLE_TIMEOUT (R430). -/
def execModuleIdleTimeout (t wake : Nat) (s : State) : Res := run t s fun d =>
  if d.n0 Ix.pwrModuleIdleS != 0 && d.pwr.written + d.n0 Ix.pwrModuleIdleS * sec ≤ d.now then
    d.moduleSleep wake id
  else d

/-- Islands that module sleep puts to sleep: every one but the Timebase and the Supervisor (Table 16.1). -/
def sleepers : List Nat := [1, 2, 3, 4, 5, 6, 7, 8, 0xA, 0xB]

/-- SLEEP_ENTRY_DONE: islands asleep, DRAM in self-refresh, arrays through (R430, R431, Table 16.4). -/
def execSleepEntryDone (t : Nat) (s : State) : Res := run t s fun d =>
  match d.pwr.entering with
  | none => d
  | some _ =>
    let before := (List.range 12).map (fun i => d.nI Ix.pwrIslState i)
    let d := { d with pwr := { d.pwr with entering := none, asleep := some d.now, before := before }, cap := { d.cap with asleep := true } }
    let d := sleepers.foldl (fun (a : Dev) i => if a.nI Ix.pwrIslState (i - 1) = 3 then a else a.setIslState i 2) d
    let d := (d.releaseArrays.w0 Ix.cfState 0).w0 Ix.pwrState 2
    d.pwrEvent 0x06 0 2 0

/-- WAKE_SOURCE (R431). -/
def execWakeSource (t source : Nat) (s : State) : Res := run t s fun d => d.wake source

/-- WAKE_TIMER_EXPIRY (R431, Table 16.2). -/
def execWakeTimerExpiry (t : Nat) (s : State) : Res := run t s fun d =>
  match d.pwr.asleep with
  | some w => if d.n0 Ix.pwrWakeTimer != 0 && w + d.n0 Ix.pwrWakeTimer * sec ≤ d.now then d.wake 5 else d
  | none => d

/-! ### Idle islands (R432 to R435) -/

/-- ISLAND_IDLE_TIMEOUT: gated after `pwr.isl_idle_us`, asleep or off after ten times that; a request in the same clock wins (R433, R435).
The Capture Store follows `cap.idle_sr`. -/
def execIslandIdleTimeout (t isl : Nat) (request : Bool) (s : State) : Res := runIf (1 ≤ isl && isl ≤ 12) t s fun d =>
  let u := d.nI Ix.pwrIslIdleUs (isl - 1)
  let st := d.nI Ix.pwrIslState (isl - 1)
  let since := d.pwr.since.get 0 isl
  if isl = 7 || isl = 9 || isl = 12 || u = 0 || !d.islandIdle isl then d
  else if (st = 0 && d.now < since + us u) || (st = 1 && d.now < since + us (10 * u)) || 1 < st then d
  else
    if request then { d with pwr := { d.pwr with since := d.pwr.since.put isl d.now } }.sleepDeclined isl 0xFF
    else if st = 0 then d.setIslState isl 1
    else d.setIslState isl (if d.nI Ix.pwrIslDeep (isl - 1) = 1 then 3 else 2)

/-- DROOP_STRETCH (R437). -/
def execDroopStretch (t isl : Nat) (s : State) : Res := runIf (1 ≤ isl && isl ≤ 12) t s fun d => d.inc0 Ix.pwrDroopEvents

/-! ### The governor (R439 to R445) -/

/-- Capacity of an island at a point, in thousandths of its nominal one (R436). -/
def capacityAt (isl point : Nat) : Nat := pointKHz isl point * 1000 / max (pointKHz isl 0) 1

/-- How many times a step is in force, taken for the cap (false) or for a thermal limit (true). -/
def Dev.stepsOf (d : Dev) (step : Nat) (thermal : Bool) : Nat := (d.pwr.steps.filter (fun p => p.1 == step && p.2 == thermal)).length

/-- The point a pipeline island is to run at: your target, deeper by the steps in force (R439, R442, R444). -/
def Dev.pipePoint (d : Dev) (isl : Nat) : Nat :=
  let base := d.nI Ix.pwrIslTarget (isl - 1)
  let capped := max base (min (base + d.stepsOf 4 false) (d.nI Ix.pwrIslLimit (isl - 1)))
  min 3 (capped + d.stepsOf 4 true)

/-- The point a shared island is to run at: your target, or the deepest with 1.25 times its load; with step 1 in force the deepest that its load
allows, that is one which the load does not exceed 90 % of, beyond which it would be raised at once (R439, R442, R444; DEDUCED, log entry 56). -/
def Dev.sharedPoint (d : Dev) (isl load : Nat) : Nat :=
  let base := d.nI Ix.pwrIslTarget (isl - 1)
  let limit := if d.stepsOf 1 true != 0 then 3 else d.nI Ix.pwrIslLimit (isl - 1)
  let step := d.stepsOf 1 true + d.stepsOf 1 false != 0
  let carries (p : Nat) : Bool := if step then decide (10 * load ≤ 9 * capacityAt isl p) else decide (5 * load ≤ 4 * capacityAt isl p)
  if d.n0 Ix.pwrGoal = 0 && !step then base
  else ([3, 2, 1, 0].find? (fun p => decide (p ≤ limit) && decide (base ≤ p) && carries p)).getD base

/-- The width a lane is to run at: narrowed where the goal or a step asks for it and its floor allows (R440, R442). -/
def Dev.laneWidth (d : Dev) (p : Nat) : Nat :=
  if (d.n0 Ix.pwrGoal = 1 || d.stepsOf 3 true + d.stepsOf 3 false != 0) && -1400 ≤ d.rd Ix.pwrPrecFloor (p + 1) 0 then 24 else 32

/-- What `chn.width` shows: the narrowest that the stages of some DDC are to run at (R117, R440; DESIGN CHOICE, log entry 56). -/
def Dev.chainWidth (d : Dev) : Nat := if (List.range 4).any (fun p => d.laneWidth p == 24) then 24 else 32

/-- Sustained figures of the DRAM points, GB/s (Table 10.10). -/
def dramPoints : List (Nat × Nat) := [(3200, 165), (4800, 247), (6400, 330)]

/-- The continuous rate of running capture streams and memory histories, MB/s (R281). -/
def Dev.continuousMb (d : Dev) : Nat := ceilDiv ((List.range 4).map d.portNeed).sum 1000000000

/-- The DRAM rate to run at; `traffic` is the measured capture-memory traffic in MB/s (R281, R439, R442, R444). -/
def Dev.dramGoal (d : Dev) (traffic : Nat) : Nat :=
  let m := mapSize (d.n0 Ix.capChannels)
  let need := d.continuousMb
  let step := d.stepsOf 2 true + d.stepsOf 2 false != 0
  let ok (p : Nat × Nat) : Bool := decide (8 * need ≤ p.2 * 1000 * m) && (step || decide (10 * traffic ≤ p.2 * 1000 * m))
  let was := d.n0 Ix.capDramRate
  let chosen := if d.n0 Ix.pwrGoal = 0 && !step then 6400 else match dramPoints.find? ok with | some p => p.1 | none => 6400
  if d.pwr.hot then (if was = 6400 then 4800 else 3200) else if was < chosen && d.cap.hotRaised.isSome && d.now < d.pwr.returned + sec then was else chosen

/-- The next step of Table 16.6; 5 where no step is left. -/
def Dev.nextStep (d : Dev) (thermal : Bool) : Nat :=
  let has (k : Nat) : Bool := d.pwr.steps.any (fun p => p.1 == k && (p.2 || !thermal || k != 1))
  let deeper := [1, 2, 3, 4, 5].any (fun i => decide (d.pipePoint i < (if thermal then 3 else d.nI Ix.pwrIslLimit (i - 1))))
  if !has 1 then 1 else if !has 2 then 2 else if !has 3 then 3 else if deeper then 4 else 5

/-- `pwr.cap_step` follows the steps in force (R442, R444). -/
def Dev.capReport (d : Dev) : Dev := d.w0 Ix.pwrCapStep (d.pwr.steps.foldl (fun n p => max n p.1) 0)

/-- Whether what the last step asked for is still on its way: an island's point, the DRAM's rate, a governor cut (R442). -/
def Dev.stepPending (d : Dev) : Bool :=
  !d.pwr.want.isEmpty || d.cap.waiting.any (fun w => w.1 == 1) || d.cut.engine.any (fun c => c.kind == .governor)

/-- Whether the average that `pwr.cap_w` is held against has been taken wholly since the last step (R442, its example; DEDUCED, log entry 56). -/
def Dev.averageNew (d : Dev) : Bool := d.pwr.stepAt = 0 || decide (d.pwr.stepAt + ms (d.n0 Ix.pwrCapWindow) < d.now)

/-- One step is taken (event kind 0x04). -/
def Dev.stepTaken (d : Dev) (thermal : Bool) : Dev :=
  let k := d.nextStep thermal
  if k = 5 && (thermal || d.pwr.steps.any (fun p => p.1 == 5)) then d
  else
    let d := { d with pwr := { d.pwr with steps := (k, thermal) :: d.pwr.steps, stepAt := d.now } }.capReport
    let d := d.pwrEvent 0x04 0 k (d.n0 Ix.pwrModuleW)
    d.raise 4 (if k = 5 then Code.capUnreachable else Code.capEngaged)

/-- `pwr.degraded` as the steps and faults in force give it (Table 16.6, R444, R445). -/
def Dev.degradedNow (d : Dev) : Nat :=
  let bit (k : Nat) (b : Bool) : Nat := if b then 2 ^ k else 0
  let st (k : Nat) : Bool := d.pwr.steps.any (fun p => p.1 == k)
  bit 0 (st 4 || d.tb.held.any (fun i => i ≤ 12)) + bit 1 ((List.range 4).any (fun p => d.nI Ix.speWidth p == 24)) + bit 2 (!d.pwr.shed.isEmpty) +
    bit 3 (st 2) + bit 4 (bitOf (d.n0 Ix.pwrDegraded) 4) + bit 5 d.hw.throttling + bit 6 (!d.pwr.steps.isEmpty) + bit 7 d.pwr.hot

/-- Chosen points and widths go out: shared islands at the next tick, pipeline islands and widths by a governor cut (R438, R440, R441). -/
def Dev.governorActs (d : Dev) (loads : List Nat) : Dev :=
  let shared := [6, 7, 8, 9, 0xA, 0xB, 0xC].map (fun i => (i, d.sharedPoint i (loads.getD (i - 1) 0)))
  let d := { d with pwr := { d.pwr with want := shared.foldl (fun t p =>
    if d.nI Ix.pwrIslPoint (p.1 - 1) = p.2 || d.tb.held.contains p.1 then Tab.del t p.1 else Tab.put t p.1 p.2) d.pwr.want } }
  let pts := (([1, 2, 3, 4, 5].filter (fun i => d.nI Ix.pwrIslPoint (i - 1) != d.pipePoint i && !d.tb.held.contains i)).map
    (fun i => ({ ix := Ix.pwrIslPoint, sub := i, inst := 0, value := (d.pipePoint i : Nat) } : SWrite)))
  let ws := ((List.range 4).filter (fun p => d.nI Ix.speWidth p != d.laneWidth p)).map
    (fun p => ({ ix := Ix.speWidth, sub := p + 1, inst := 0, value := (d.laneWidth p : Nat) } : SWrite))
  let cw := d.chainWidth
  let cs : List SWrite := if d.n0 Ix.chnWidth = cw then [] else [{ ix := Ix.chnWidth, sub := 0, inst := 0, value := (cw : Nat) }]
  let l := pts ++ ws ++ cs
  if l.isEmpty || d.cut.engine.any (fun c => c.kind == .governor) then d
  else d.engineCut { kind := .governor, writes := l, due := d.soon }

/-- GOVERNOR_PERIOD: module power averaged over the window in 0.1 W, the hottest die sensor, loads in thousandths of nominal capacity and
powers in mW by island, capture-memory traffic in MB/s (R439 to R447). -/
def execGovernorPeriod (t moduleW : Nat) (temp : Int) (loads mws : List Nat) (traffic : Nat) (s : State) : Res := run t s fun d =>
  if !d.sup.running || !d.fullService || d.n0 Ix.pwrState != 3 then d
  else
    let d := (d.dieReads temp).w0 Ix.pwrModuleW moduleW
    let d := (List.range 12).foldl (fun (a : Dev) i => a.wI Ix.pwrIslMw i (mws.getD i 0)) d
    let cap := 10 * d.n0 Ix.pwrCapW
    let engaged := cap < moduleW || (d.pwr.engaged && 98 * cap ≤ 100 * moduleW)
    let d := { d with pwr := { d.pwr with engaged := engaged } }
    let d := if d.stepPending then d
      else if d.hw.throttling then d.stepTaken true else if engaged && d.averageNew then d.stepTaken false else d
    let goal := d.dramGoal traffic
    let d := if goal = d.n0 Ix.capDramRate || d.cap.waiting.any (fun w => w.1 == 1) then d
      else { d with cap := { d.cap with waiting := d.cap.waiting ++ [(1, 0, goal)] } }
    (d.governorActs loads).setDegraded d.degradedNow

/-- CAP_STEP_RELEASE: below 95 % of the cap the deepest step is released, one per second (R442, R444). -/
def execCapStepRelease (t : Nat) (s : State) : Res := run t s fun d =>
  match d.pwr.steps with
  | [] => d
  | p :: rest =>
    let low := if p.2 then !d.hw.throttling else decide (100 * d.n0 Ix.pwrModuleW < 95 * 10 * d.n0 Ix.pwrCapW)
    if !d.sup.running || d.hw.throttling || !low || d.now < d.pwr.released + sec then d
    else
      let d := { d with pwr := { d.pwr with steps := rest, released := d.now } }.capReport
      let d := d.pwrEvent 0x04 0 (match rest with | q :: _ => q.1 | [] => 0) (d.n0 Ix.pwrModuleW)
      d.setDegraded d.degradedNow

/-- An island changes point: hardware orders voltage and clock (R437, event kind 0x01). -/
def Dev.pointChange (d : Dev) (isl point : Nat) : Dev :=
  let was := d.nI Ix.pwrIslPoint (isl - 1)
  let d := { d with pwr := { d.pwr with want := Tab.del d.pwr.want isl } }
  if was = point || d.tb.held.contains isl then d
  else
    let d := d.wI Ix.pwrIslPoint (isl - 1) point
    let d := if d.sup.running then d.pwrEvent 0x01 isl point was else { d with pwr := { d.pwr with moved := d.pwr.moved ++ [(isl, point, was)] } }
    if d.clockKHz isl = pointKHz isl point then d else d.hop isl (pointKHz isl point)

/-- ISLAND_POINT_CHANGE: a shared island takes the point chosen for it; the Capture Store's is a voluntary stall (R27, R437, R438). -/
def execIslandPointChange (t isl : Nat) (s : State) : Res := runIf (6 ≤ isl && isl ≤ 12) t s fun d =>
  match d.pwr.want.find? isl with
  | none => d
  | some p =>
    if isl = 7 && !d.mayStall then d.inc0 Ix.capStallDeferrals
    else
      let d := if isl = 7 && d.clockKHz 7 != pointKHz 7 p then d.stallFor (us 40) else d
      d.pointChange isl p

/-- DRAM_COOL_RETURN: after 16 MR4 reads at or below 85 °C the DRAM returns one point per second (R444). -/
def execDramCoolReturn (t : Nat) (s : State) : Res := run t s fun d =>
  let cool := (List.range 8).all (fun c => !d.inService c || d.cap.cool.get 0 c == 16)
  if !cool || d.cap.hotRaised.isNone || d.now < d.pwr.returned + sec then d
  else
    let was := d.n0 Ix.capDramRate
    let d := { d with pwr := { d.pwr with hot := false, returned := d.now } }
    let up := if was = 3200 then 4800 else 6400
    let d := if was = 6400 then { d with cap := { d.cap with hotRaised := none } }
      else { d with cap := { d.cap with waiting := d.cap.waiting.filter (fun w => w.1 != 1) ++ [(1, 0, up)] } }
    d.setDegraded d.degradedNow

/-- Checks of power entries at a commit: a target deeper than the island's limit (R449, Table 16.9). -/
def Dev.pwrCheck (d : Dev) : Option Nat :=
  firstCode ((List.range 12).map (fun i =>
    if 3 < d.nI Ix.pwrIslTarget i || d.nI Ix.pwrIslLimit i < d.nI Ix.pwrIslTarget i then some Code.pointInvalid else none))

end Sys2Proof.Machine
end

