-- ==== Sys2Proof/Machine/Counters.lean ====
section
/-! DEFINITION. Counters: freeze, snapshots, samplers (18_counters.md). Counting itself is in Clock.lean and where each count arises. -/

namespace Sys2Proof.Machine

/-- The counter a selector names: instance in bits 23 to 16, code below (R467). -/
def selCode (v : Nat) : Nat := v % 65536
def selInst (v : Nat) : Nat := v / 65536 % 256

/-- Whether a selector names a counter (R467, R480). -/
def selNames (v : Nat) : Bool := decide (v < 2 ^ 24) && counterExists (selCode v) (selInst v)

/-- What `ctr.value` reads: the selected counter, or its frozen value (R467, R473). -/
def Dev.ctrValue (d : Dev) (sel : Nat) : Nat :=
  match d.ctr.frozen with
  | some f => latchedCount f.2 (selCode sel) (selInst sel)
  | none => wrap48 (d.counterRaw (selCode sel) (selInst sel))

/-- What `ctr.snap_value` reads: the selected counter in the newest bank; 0 before the first (R474). -/
def Dev.snapValue (d : Dev) (sel : Nat) : Nat :=
  match d.ctr.banks with
  | b :: _ => latchedCount b.counts (selCode sel) (selInst sel)
  | [] => 0

/-- Whether a counter's wrap bit is set (R469). -/
def Dev.wrapBit (d : Dev) (code inst : Nat) : Bool :=
  let k := 256 * code + inst
  if code % 256 < 5 then d.counterRaw code inst / two48 != d.ctr.acked.get 0 k else d.ctr.wrapped.contains k

/-- What `ctr.wrap_summary` reads (R469). -/
def Dev.wrapSummary (d : Dev) : Nat :=
  (List.range 13).foldl (fun n i => if allCounters.any (fun p => p.1 / 256 == i && d.wrapBit p.1 p.2) then n + 2 ^ i else n) 0

/-- CTR_FREEZE: a write of 1 to `ctr.freeze`; ignored while the view is frozen or about to be (R473). -/
def execCtrFreeze (t path : Nat) (s : State) : Res := run t s fun d =>
  d.command path Ix.ctrFreeze 0 1 fun d =>
    if d.ctr.frozen.isSome || d.ctr.freezeAt.isSome then d
    else { d.w0 Ix.ctrFreezeState 1 with ctr := { d.ctr with freezeAt := some d.nextTick } }.w0 Ix.ctrFreeze 1

/-- CTR_RELEASE: a write of 0 to `ctr.freeze` (R473). -/
def execCtrRelease (t path : Nat) (s : State) : Res := run t s fun d =>
  d.command path Ix.ctrFreeze 0 0 fun d =>
    let d := d.w0 Ix.ctrFreeze 0
    if d.ctr.frozen.isSome then { d with ctr := { d.ctr with releaseAt := some d.nextTick, freezeAt := none } }
    else { d.w0 Ix.ctrFreezeState 0 with ctr := { d.ctr with freezeAt := none } }

/-- CTR_FLAGS_CLEAR: a write of 1 to the wrap bit of the counter this path selects (R469). -/
def execCtrFlagsClear (t path : Nat) (s : State) : Res := run t s fun d =>
  d.command path Ix.ctrFlags 0 1 fun d =>
    let sel := d.nW Ix.ctrEventSel path
    let k := 256 * selCode sel + selInst sel
    if selCode sel % 256 < 5 then
      { d with ctr := { d.ctr with acked := d.ctr.acked.set 0 k (d.counterRaw (selCode sel) (selInst sel) / two48) } }
    else { d with ctr := { d.ctr with wrapped := d.ctr.wrapped.filter (fun x => x != k) } }

/-- CTR_SNAP_CMD: a snapshot at the next tick (R474). -/
def execCtrSnapCmd (t path : Nat) (s : State) : Res := run t s fun d =>
  d.command path Ix.ctrSnapCmd 0 1 fun d => { d with ctr := { d.ctr with snapAt := d.ctr.snapAt ++ [(d.nextTick, 1)] } }

/-- SNAP_PERIOD_TICK: a snapshot at a multiple of `ctr.snap_period` of TIME96 (R474). -/
def execSnapPeriodTick (t : Nat) (s : State) : Res := run t s fun d =>
  let p := d.n0 Ix.ctrSnapPeriod
  if p = 0 || !d.tb.running then d
  else
    let k := d.time96 * 1000000 / two48 / p
    let tick := us (k * p)
    -- the command stands within the microsecond that begins at the multiple
    if d.time96 < tick + us 1 && d.ctr.periodAt < tick then { d with ctr := { d.ctr with periodAt := tick } }.snapshot tick 2 else d

/-- What a cut changes in the samplers: an enabled one takes the counter's present value as its base (R476). -/
def Dev.ctrCut (d : Dev) (writes : List SWrite) : Dev :=
  (List.range 16).foldl (fun (a : Dev) n =>
    if writes.any (fun w => 0x5030 ≤ w.ix && w.ix ≤ 0x5032 && w.sub == n + 1) then
      let sel := a.nI Ix.ctrSmpEvent n
      let x := a.ctr.samplers.get {} n
      let y : SamplerSt := if a.nI Ix.ctrSmpEnable n = 1 then
        { on := true, base := wrap48 (a.counterRaw (selCode sel) (selInst sel)), seq := x.seq, lastRecord := x.lastRecord } else { x with on := false }
      { a with ctr := { a.ctr with samplers := a.ctr.samplers.put n y } }
    else a) d

/-- Checks of the samplers at a commit: the counters they name exist (R467, R480). -/
def Dev.ctrCheck (d : Dev) : Option Nat :=
  if (List.range 16).all (fun n => selNames (d.nI Ix.ctrSmpEvent n)) then none else some Code.ctrEvent

/-- SAMPLER_CROSSING: a watched counter has passed the next threshold; `count` and `context` are captured `skid` island clocks later
(R476, R477, Table 18.4). -/
def execSamplerCrossing (t sampler count skid context : Nat) (s : State) : Res := runIf (sampler < 16) t s fun d =>
  let x := d.ctr.samplers.get {} sampler
  let sel := d.nI Ix.ctrSmpEvent sampler
  let thr := wrap48 (x.base + x.k * d.nI Ix.ctrSmpPeriod sampler)
  let reached (n : Nat) : Bool := decide ((n + two48 - thr) % two48 < 2 ^ 47)
  if !x.on || !reached (wrap48 (d.counterRaw (selCode sel) (selInst sel))) then d
  else
    let d := d.incI Ix.ctrSmpFires sampler
    let recent := match x.lastRecord with | some w => decide (d.now < w + us 1) | none => false
    let y := { x with k := x.k + 1 }
    let put (z : SamplerSt) (d : Dev) : Dev := { d with ctr := { d.ctr with samplers := d.ctr.samplers.put sampler z } }
    if recent then put { y with merged := y.merged + 1 } d
    else
      let time := d.time96
      let d := put { y with merged := 0, seq := y.seq + 1, lastRecord := some d.now } d
      d.ctrRecord (d.n0 Ix.ctrSmpRing) (mkRec [(0x1610, sampler * 2 ^ 40 + x.merged % 256 * 2 ^ 32 + x.seq % 2 ^ 32), (0x1611, sec48 time),
        (0x1612, frac48 time), (0x1613, thr), (0x1614, count), (0x1615, min skid 64 * 2 ^ 32), (0x1616, context)])

end Sys2Proof.Machine
end

