-- ==== Sys2Proof/Machine/Calibration.lean ====
section
/-! DEFINITION. Calibration and trims (17_calibration.md). -/

namespace Sys2Proof.Machine

/-- Kind and instance of an object code, and whether Table 17.1 has it (R455). -/
def calKind (obj : Nat) : Nat := obj / 256
def calInst (obj : Nat) : Nat := obj % 256
def calCount (kind : Nat) : Nat :=
  if kind = 1 || kind = 6 then 16 else if kind = 2 then 9 else if kind = 3 || kind = 4 || kind = 7 then 4 else if kind = 5 then 8
  else if kind = 8 then 6 else if kind = 9 then 1 else 0
def isCalObj (obj : Nat) : Bool := calInst obj < calCount (calKind obj)

/-- Every object. -/
def calObjs : List Nat := ((List.range 9).map (fun k => (List.range (calCount (k + 1))).map (fun n => 256 * (k + 1) + n))).flatten

/-- Objects withheld in rushes service: ring ports, SerDes groups 4 and 5, links beyond lanes 0 to 3 of their port (R462). -/
def Dev.calWithheld (d : Dev) (obj : Nat) : Bool :=
  d.inRushes && (calKind obj = 7 || obj = 0x0804 || obj = 0x0805 || (calKind obj = 1 && (d.lanesOf (calInst obj)).any (fun l => 4 ≤ l % 16)))

/-- The port of an object, where it has one: that of a link, or of an auxiliary clock. -/
def calPort (obj : Nat) : Option Nat := if calKind obj = 1 then some (calInst obj / 4) else if calKind obj = 5 then some (calInst obj / 2) else none

/-- What makes an object due, as counts: switchovers, and changes of its port's converter (R461). -/
def Dev.calEvents (d : Dev) (obj : Nat) : Nat × Nat :=
  (d.n0 Ix.tbSwitchovers, match calPort obj with | some p => d.cal.converters.get 0 p | none => 0)
def Dev.calMark (d : Dev) (obj : Nat) : Dev := { d with cal := { d.cal with seen := d.cal.seen.put obj (d.calEvents obj) } }

/-- The CNV_PRSNT_N pins of ports 0 to 3 are read: `mod.conv_present`, and the changes (R68, R461). -/
def Dev.convReads (d : Dev) (converters : Nat) : Dev :=
  let was := (d.rd Ix.modSlotId 6 0).toNat
  let moved := (List.range 4).filter (fun p => bitOf was p != bitOf converters p)
  let d := { d with cal := { d.cal with converters := moved.foldl (fun t p => Tab.put t p (Tab.get 0 t p + 1)) d.cal.converters } }
  d.wr Ix.modSlotId 6 0 (converters % 16 : Nat)

/-- Femtoseconds in units of 2^-48 s, convergently rounded. -/
def fsUnits (v : Int) : Int := roundEven (v * (two48 : Int)) (10 ^ 15)

/-! ### Runs (R456, R457) -/

def Dev.calRun (d : Dev) (obj : Nat) : Option CalRun := d.cal.runs.find? (fun r => r.obj == obj)
def Dev.setCalRun (d : Dev) (r : CalRun) : Dev :=
  { d with cal := { d.cal with runs := d.cal.runs.filter (fun x => x.obj != r.obj) ++ [r] } }

/-- `cal.state` follows the calibrations that run. -/
def Dev.calReport (d : Dev) : Dev :=
  match d.cal.runs.getLast? with
  | none => d.w0 Ix.calState 0
  | some r => d.w0 Ix.calState (if r.phase = 2 then 3 else if calKind r.obj = 6 then 4 else r.phase + 1)

/-- What disturbs a run, as counts: time steps, switchovers, relocks, the relinks of a link, and changes of its converter (R456, Table
17.7). -/
def Dev.calSignature (d : Dev) (obj : Nat) : Nat :=
  d.n0 Ix.tbTimeSteps + d.n0 Ix.tbSwitchovers + ((List.range 12).map (fun i => d.nI Ix.tbRelocks i)).sum +
    (if calKind obj = 1 then d.nI Ix.itkRelinks (calInst obj) + (d.calEvents obj).2 else 0)

/-- Whether a link object's link is down. -/
def Dev.calLinkDown (d : Dev) (obj : Nat) : Bool := calKind obj == 1 && d.linkState (calInst obj) != 5

/-- A run begins: a trim loop starts from the code in force (R458). -/
def Dev.calBegin (d : Dev) (r : CalRun) : Dev :=
  let c0 := if calKind r.obj = 6 then d.nI Ix.calTrimCode (calInst r.obj) else 0
  (d.setCalRun { r with signature := d.calSignature r.obj, c0 := c0, code := c0, stage := 0 }).calReport

/-- A calibration of an object starts. -/
def Dev.calStart (d : Dev) (obj : Nat) : Dev := d.calBegin { obj := obj, began := d.time96, since := d.now }

/-- A calibration record (Table 17.4). -/
def Dev.calRecord (d : Dev) (r : CalRun) (value : Int) (outcome : Nat) : Dev :=
  let (n, d) := d.nextSeq 0x15
  let code (v : Int) : Nat := toTwos 48 v
  d.emitTo (d.n0 Ix.calEventRing) Ix.calEventsLost (mkRec [(0x1500, r.obj * 2 ^ 32 + n % 2 ^ 32), (0x1501, sec48 r.began), (0x1502, frac48 r.began),
    (0x1503, code value), (0x1504, code r.a), (0x1505, code r.b),
    (0x1506, r.attempt * 2 ^ 40 + outcome * 2 ^ 32 + toNs (d.now - r.since) / 1000 % 2 ^ 32), (0x1507, d.n0 Ix.calCount)])

/-- A trim's code is driven (R59, R458). -/
def Dev.driveTrim (d : Dev) (n code : Nat) : Dev := { d with hw := { d.hw with trimOut := d.hw.trimOut.set 0 n code } }

/-- A calibration ends with no value applied: the value in force stays (R456, R457). -/
def Dev.calEnd (d : Dev) (r : CalRun) (outcome : Nat) : Dev :=
  let d := if calKind r.obj = 6 then d.driveTrim (calInst r.obj) (d.nI Ix.calTrimCode (calInst r.obj)) else d
  let d := { d with cal := { d.cal with runs := d.cal.runs.filter (fun x => x.obj != r.obj) } }
  (d.calReport).calRecord r 0 outcome

/-- A calibration fails: marked, its code raised (R456). -/
def Dev.calFail (d : Dev) (r : CalRun) (outcome : Nat) : Dev :=
  let due := d.nW Ix.calObjState r.obj = 2
  let d := d.wW Ix.calObjState r.obj 3
  let d := if due then d.w0 Ix.calDueCount (d.n0 Ix.calDueCount - 1) else d
  let d := d.raise 4 (if outcome = 5 then Code.calRange else if outcome = 3 then Code.calNoSignal else Code.calDisagree)
  d.calEnd r outcome

/-- An application is counted (R460). -/
def Dev.calCounted (d : Dev) : Dev := (d.inc0 Ix.calCount).wTime Ix.calLastTime d.time96

/-- An accepted value is in force: the object's entries, and the record (R456, R460, R461). -/
def Dev.calAccepted (d : Dev) (r : CalRun) (value : Int) (counted : Bool) : Dev :=
  let d := if counted then d.calCounted else d
  let due := d.nW Ix.calObjState r.obj = 2
  let d := if due then d.w0 Ix.calDueCount (d.n0 Ix.calDueCount - 1) else d
  let d := ((d.wr Ix.calObjValue 0 r.obj value).wW Ix.calObjState r.obj 1).wr Ix.calObjTemp 0 r.obj d.dieTemp
  let d := (d.wr Ix.calObjTime 1 r.obj (sec48 d.time96 : Nat)).wr Ix.calObjTime 2 r.obj (frac48 d.time96 : Nat)
  let d := { d with cal := { d.cal with runs := d.cal.runs.filter (fun x => x.obj != r.obj), dueRaised := d.cal.dueRaised.filter (· != r.obj) } }
  (d.calMark r.obj).calReport.calRecord r value 0

/-! ### What a result writes (R453, R454) -/

/-- L_c in fs: as written, or the largest lag of a calibrated link or TIN, up to a whole picosecond and not below 0. -/
def Dev.calLag (d : Dev) : Int :=
  if d.n0 Ix.calCommonLag != 0 then (1000 * d.n0 Ix.calCommonLag : Nat)
  else
    let top := (d.cal.lags.filter (fun p => p.1 != 0x0208)).foldl (fun m p => max m p.2) 0
    ((top + 999) / 1000) * 1000

/-- The delay of a DDC in 1/256 output samples for a delay in fs (R453). -/
def Dev.calDelay (d : Dev) (n : Nat) (fs : Int) : Int := roundEven (fs * (d.fOut n * 256 : Nat)) (10 ^ 18)

/-- The writes that one calibrated path takes for an L_c. -/
def Dev.calPathWrites (d : Dev) (lc : Int) (obj : Nat) (s : Int) : List SWrite :=
  let n := calInst obj
  let u := fsUnits (s - lc)
  if calKind obj = 1 then
    { ix := Ix.trgSkewLink, sub := n + 1, inst := 0, value := u } ::
      (d.ddcsOn (0x10 + n)).flatMap (fun k =>
        let v := d.calDelay k (lc - s)
        [{ ix := Ix.chnDelayInt, sub := k + 1, inst := 0, value := v / 256 }, { ix := Ix.chnDelayFrac, sub := k + 1, inst := 0, value := v % 256 },
          { ix := Ix.chnFracEn, sub := k + 1, inst := 0, value := if v % 256 = 0 then 0 else 1 }])
  else if n = 8 then [{ ix := Ix.imInSkew, sub := 10, inst := 0, value := u }]
  else [{ ix := Ix.imInSkew, sub := n + 1, inst := 0, value := u }, { ix := Ix.trgSkewTin, sub := n + 1, inst := 0, value := u }]

/-- Every calibrated path's writes. -/
def Dev.calPaths (d : Dev) : List SWrite := d.cal.lags.flatMap (fun p => d.calPathWrites d.calLag p.1 p.2)

/-- Whether every write is within its entry's range (R456). -/
def calInRange (l : List SWrite) : Bool :=
  l.all (fun w => match rowOf w.ix w.sub with | some e => decide (e.min ≤ w.value) && decide (w.value ≤ e.max) | none => false) &&
    l.all (fun w => w.ix != Ix.chnDelayInt || (decide (0 ≤ w.value) && decide (w.value ≤ 16383)))

/-- The residual reported for a link: applied less needed delay of the DDC farthest off, in ps (R453). -/
def Dev.calResidual (d : Dev) (obj : Nat) (s : Int) : Int :=
  let need := d.calLag - s
  let one (k : Nat) : Int :=
    let f := d.fOut k
    if f = 0 then 0 else roundEven (d.calDelay k need * 10 ^ 18 - need * (f * 256 : Nat)) (f * 256 * 1000)
  if calKind obj = 1 then (d.ddcsOn (0x10 + calInst obj)).foldl (fun m k => if m.natAbs < (one k).natAbs then one k else m) 0 else 0

/-- The engine commits a calibration cut, T 10 µs ahead (R457). -/
def Dev.calCommit (d : Dev) (r : CalRun) (mean : Int) (l : List SWrite) : Dev :=
  if !calInRange l then d.calFail r 5
  else ((d.setCalRun { r with phase := 2, mean := mean }).calReport).engineCut { kind := .calibration, writes := l, due := d.soon }

/-- An accepted result goes where Table 17.1 sends it. -/
def Dev.calApply (d : Dev) (r : CalRun) (mean : Int) : Dev :=
  let k := calKind r.obj
  let n := calInst r.obj
  if k = 1 && d.n0 Ix.calLinkFold = 1 then
    let e := { d with cal := { d.cal with lags := d.cal.lags.put r.obj 0 } }
    d.calCommit r mean (e.calPaths ++ [{ ix := Ix.itkLinkLatency, sub := n + 1, inst := 0, value := (d.nI Ix.itkLinkLatency n : Nat) + fsUnits mean }])
  else if k = 1 || k = 2 then
    let e := { d with cal := { d.cal with lags := d.cal.lags.put r.obj mean } }
    d.calCommit r mean e.calPaths
  else if k = 3 then
    let d := { d with cal := { d.cal with sysref := d.cal.sysref.put n (roundEven mean 10000).toNat } }
    d.calAccepted r mean false
  else if k = 4 then d.calCommit r mean []
  else if k = 5 then
    -- the edges are that late on the grid under the delay in force
    let v := roundEven (mean * (d.nI Ix.tbAuxNum n * 800000000 * 4096 : Nat)) (max (d.nI Ix.tbAuxDen n) 1 * 10 ^ 15)
    d.calCommit r mean [{ ix := Ix.tbAuxDelay, sub := n + 1, inst := 0, value := ((d.nI Ix.tbAuxDelay n : Nat) - v) % 4096 }]
  else if k = 6 then
    let code := mean.toNat % 16384
    ((d.wI Ix.calTrimCode n code).driveTrim n code).calAccepted r mean true
  else if k = 7 then
    let d := if 20000 < (mean - Config.factoryLoop n).natAbs then d.raise 4 Code.calDrift else d
    d.calAccepted r mean false
  else d.calAccepted r 0 true

/-- Whether two runs agree (Table 17.1); the agreement of equaliser taps and gains is in the values handed in, as their largest
difference. -/
def calAgrees (kind : Nat) (a b : Int) : Bool :=
  let dist := (a - b).natAbs
  if kind = 1 || kind = 2 || kind = 7 then dist ≤ 2000 else if kind = 3 then roundEven a 10000 == roundEven b 10000
  else if kind = 4 then dist ≤ 5000 else if kind = 5 then dist ≤ 3000 else if kind = 6 then dist ≤ 4
  else if kind = 8 then dist ≤ 2 else dist ≤ 5

/-- A run ends: with a value, or failed (1 no signal, 2 spread, 3 disturbed, 5 trim at a limit) (R456). -/
def Dev.calRunEnd (d : Dev) (r : CalRun) (value : Int) (fail : Nat) : Dev :=
  let fail := if d.calSignature r.obj != r.signature || d.calLinkDown r.obj then 3 else fail
  if fail = 5 then d.calFail r 5
  else if r.phase = 0 then d.calBegin { r with a := value, aFailed := fail, phase := 1 }
  else
    let r := { r with b := value }
    let bad := if fail != 0 then fail else r.aFailed
    if bad = 0 && calAgrees (calKind r.obj) r.a r.b then d.calApply r (roundEven (r.a + r.b) 2)
    else
      let cause := if bad = 0 then 1 else if bad = 2 then 2 else 3
      if r.attempt < d.n0 Ix.calAttempts then d.calBegin { r with attempt := r.attempt + 1, phase := 0, cause := cause, aFailed := 0 }
      else d.calFail r cause

/-- Edges or markers that a run expects, and four times the agreement limit, fs (R456, Table 17.1); 0 where a kind has none. -/
def calExpected (kind : Nat) : Nat := if kind = 1 then 256 else if kind = 2 || kind = 4 || kind = 5 || kind = 7 then 1024 else 0
def calSpread (kind : Nat) : Nat :=
  if kind = 1 || kind = 2 || kind = 7 then 8000 else if kind = 4 then 20000 else if kind = 5 then 12000 else 0

/-- The longest run of delay steps with a margin of at least 40 ps, the first of several: its first step and its length. -/
def longestRun : List Nat → Nat → Nat × Nat → Nat × Nat → Nat × Nat
  | [], _, _, best => best
  | m :: ms, k, here, best =>
    let here := if 40 ≤ m then (if here.2 = 0 then (k, 1) else (here.1, here.2 + 1)) else (0, 0)
    longestRun ms (k + 1) here (if best.2 < here.2 then here else best)

/-- The value of a run from what was measured, and how it failed (1 no signal, 2 spread): lags have the fixture's delay taken out; a pin that
is looped to CALREF had its edge that delay later than CALREF had it; a sweep gives the centre of its longest good run, in fs
(R452, R456, Table 17.1). -/
def Dev.calMeasured (d : Dev) (obj : Nat) (raw : Int) (edges spread : Nat) (margins : List Nat) : Int × Nat :=
  let k := calKind obj
  let fixture : Int := d.rd Ix.calFixturePs 0 obj * 1000
  let sweep := longestRun (margins.take 32) 0 (0, 0) (0, 0)
  let value := if k = 1 || k = 2 then raw - fixture else if k = 4 || k = 5 then raw + fixture
    else if k = 3 then roundEven ((2 * sweep.1 + sweep.2 : Nat) - 1) 2 * 10000 else raw
  let fail := if k = 3 then (if sweep.2 = 0 then 1 else 0)
    else if 10 * edges < 9 * calExpected k then 1 else if calSpread k != 0 && calSpread k < spread then 2 else 0
  (value, fail)

/-- CAL_RUN_DONE: a run of an object completes. `raw` is what it measured: for links, TIN and PPS_IN the stamp less that on CALREF, for TOUT
and AUXCLK the arrival on CALREF less the scheduled or grid instant, for a ring port departure to arrival, in fs; the largest tap code for
SerDes groups; gain in 0.1 % for the power monitors. With it go the edges that arrived, the deviation in fs, and the margins in ps of a
sweep of SYSREF_IN (R456). -/
def execCalRunDone (t obj : Nat) (raw : Int) (edges spread : Nat) (margins : List Nat) (s : State) : Res := runIf (isCalObj obj) t s fun d =>
  match d.calRun obj with
  | some r =>
    let m := d.calMeasured obj raw edges spread margins
    if 2 ≤ r.phase || calKind obj = 6 || !d.sup.running then d else d.calRunEnd r m.1 m.2
  | none => d

/-- The codes at which a trim loop measures its slope (R458). -/
def trimLo (c0 : Nat) : Nat := c0 - 256
def trimHi (c0 : Nat) : Nat := min 16383 (c0 + 256)

/-- The code a trim loop steps to: what the slope measured from `lo` to `hi` predicts for the target from a code and its measurement, held to
the limits (R458); with no slope the code is a free value. -/
def Dev.trimNext (d : Dev) (r : CalRun) (base : Nat) (m : Int) : Nat × Dev :=
  let n := calInst r.obj
  let lim := d.nI Ix.calTrimLimit n
  let slope := r.hi - r.lo
  let clamp (v : Int) : Nat := (clampInt (lim % 16384 : Nat) (lim / 65536 % 16384 : Nat) v).toNat
  if slope = 0 then let (v, d) := d.draw 14; (clamp v, d)
  else (clamp (base + roundEven ((d.rd Ix.calTrimTarget (n + 1) 0 - m) * (trimHi r.c0 - trimLo r.c0 : Nat) * slope.sign) slope.natAbs), d)

/-- TRIM_LOOP_STEP: the loop's quantity measured over 2^20 samples at the present code: first at c0 − 256, then at c0 + 256, then after each
step (R458). -/
def execTrimLoopStep (t trim : Nat) (measured : Int) (s : State) : Res := runIf (trim < 16) t s fun d =>
  match d.calRun (0x0600 + trim) with
  | none => d
  | some r =>
    if 2 ≤ r.phase || !d.sup.running then d
    else if d.nI Ix.calTrimMode trim = 0 then d.calRunEnd r (r.c0 : Nat) 0
    else
      let put (d : Dev) (r : CalRun) (code : Nat) : Dev := (d.setCalRun { r with code := code }).driveTrim trim code
      let lim := d.nI Ix.calTrimLimit trim
      if r.stage = 0 then put d { r with stage := 1 } (trimLo r.c0)
      else if r.stage = 1 then put d { r with stage := 2, lo := measured } (trimHi r.c0)
      else
        let r := if r.stage = 2 then { r with hi := measured } else r
        let (next, d) := if r.stage = 2 then d.trimNext r (trimHi r.c0) measured else d.trimNext r r.code measured
        if r.stage != 2 && (next = r.code || 10 ≤ r.stage) then
          let atLimit := r.code = lim % 16384 || r.code = lim / 65536 % 16384
          d.calRunEnd r (r.code : Nat) (if atLimit then 5 else 0)
        else put d { r with stage := r.stage + 1 } next

/-! ### Commands (R457, R459) -/

/-- CAL_CALIBRATE: the object selected on the path (R455, R457, R462). -/
def execCalCalibrate (t path : Nat) (s : State) : Res := run t s fun d =>
  d.command path Ix.calCmd 0 1 fun d =>
    let obj := d.nW Ix.calObjSel path
    if !isCalObj obj || d.calWithheld obj then d.refuse path Ix.calCmd 0 Code.calObject
    else if !d.cal.runs.isEmpty then d.refuse path Ix.calCmd 0 Code.calBusy
    else d.calStart obj

/-- CAL_ABORT: before the commit point the calibration stops; after it, ALREADY_DONE (R457). -/
def execCalAbort (t path : Nat) (s : State) : Res := run t s fun d =>
  d.command path Ix.calCmd 0 2 fun d =>
    match d.cal.runs.getLast? with
    | none => d.alreadyDone path
    | some r =>
      if r.phase = 2 && d.cut.engine.any (fun c => c.kind == .calibration && c.distributed) then d.alreadyDone path
      else
        let d := if r.phase = 2 then d.engineDrop (fun c => c.kind == .calibration) else d
        d.calEnd r 4

/-- The entries that a save keeps (R459). -/
def calSavedEntries : List (Nat × Nat) :=
  [(Ix.calTrimCode, 16), (Ix.trgSkewLink, 16), (Ix.imInSkew, 10), (Ix.trgSkewTin, 8), (Ix.chnDelayInt, 32), (Ix.chnDelayFrac, 32),
    (Ix.chnFracEn, 32), (Ix.itkLinkLatency, 16)]

/-- CAL_SAVE: to flash; refused by flash, the previous set is kept (R459). -/
def execCalSave (t path : Nat) (flashOk : Bool) (s : State) : Res := run t s fun d =>
  d.command path Ix.calCmd 0 3 fun d =>
    if !flashOk then d.raise path Code.calFlash
    else
      let l : List SWrite := calSavedEntries.flatMap (fun e =>
        (List.range e.2).map (fun k => { ix := e.1, sub := k + 1, inst := 0, value := d.rd e.1 (k + 1) 0 }))
      let f : List SWrite := calObjs.map (fun o => { ix := Ix.calFixturePs, sub := 0, inst := o, value := d.rd Ix.calFixturePs 0 o })
      let c : SWrite := { ix := Ix.calCommonLag, sub := 0, inst := 0, value := d.rd Ix.calCommonLag 0 0 }
      { d with cal := { d.cal with saved := ⟨l ++ f ++ [c], d.long.get [] (ekey Ix.calRefCert 0 0), d.cal.lags⟩ } }

/-- CAL_RESTORE: the saved values at the next engine cut (R459). -/
def execCalRestore (t path : Nat) (s : State) : Res := run t s fun d =>
  d.command path Ix.calCmd 0 4 fun d => d.engineCut { kind := .restore, writes := d.cal.saved.writes, due := d.soon }

/-- What restoring or loading a saved set changes beside its writes: certificate, lags, trims driven (R59, R459). -/
def Dev.calRestored (d : Dev) : Dev :=
  let d := { d with long := d.long.set [] (ekey Ix.calRefCert 0 0) d.cal.saved.cert, cal := { d.cal with lags := d.cal.saved.lags } }
  (List.range 16).foldl (fun (a : Dev) n => a.driveTrim n (a.nI Ix.calTrimCode n)) d

/-- At a start stored trims, skews and delays are loaded (R59, R459). -/
def Dev.calLoad (d : Dev) : Dev := (d.overlay d.cal.saved.writes).calRestored

/-- The cut of a result has been applied: the object's value is in force (R453, R460). -/
def Dev.calCutDone (d : Dev) : Dev :=
  match d.cal.runs.find? (fun r => r.phase == 2) with
  | none => d
  | some r =>
    let d := if calKind r.obj = 1 && d.n0 Ix.calLinkFold = 1 then { d with cal := { d.cal with lags := d.cal.lags.put r.obj 0 } }
      else if calKind r.obj ≤ 2 then { d with cal := { d.cal with lags := d.cal.lags.put r.obj r.mean } } else d
    let d := d.cal.lags.foldl (fun (a : Dev) p => a.wr Ix.calObjResidual 0 p.1 (d.calResidual p.1 p.2)) d
    d.calAccepted r r.mean true

/-- A write of a trim's code by you: it stands, and a loop of that trim is aborted (R458). -/
def Dev.trimWritten (d : Dev) (n : Nat) : Dev :=
  let d := d.driveTrim n (d.nI Ix.calTrimCode n)
  match d.calRun (0x0600 + n) with
  | some r => d.calEnd r 4
  | none => d

/-- The check of a written L_c: below a measured lag it is refused (R453). -/
def Dev.calCheck (d : Dev) : Option Nat :=
  if d.n0 Ix.calCommonLag != 0 && d.cal.lags.any (fun p => decide (d.calLag < p.2)) then some Code.calLag else none

/-- Writes that calibration adds to a cut: every path where L_c is written, and a SYSREF_IN delay that waited for its port (R453, Table 17.1). -/
def Dev.calExtra (d : Dev) (l : List SWrite) : List SWrite :=
  let e := d.overlay l
  (if l.any (fun w => w.ix == Ix.calCommonLag) then e.calPaths else []) ++
    (d.cal.sysref.filter (fun p => (d.portLinks p.1).any (fun q => l.any (d.touches q)))).map
      (fun p => { ix := Ix.itkSysrefDelay, sub := p.1 + 1, inst := 0, value := (p.2 : Nat) })

/-- A cut with a waiting SYSREF_IN delay has been applied: the result counts (R460). -/
def Dev.sysrefCut (d : Dev) (l : List SWrite) : Dev :=
  let hit := d.cal.sysref.filter (fun p => l.any (fun w => w.ix == Ix.itkSysrefDelay && w.sub == p.1 + 1))
  if hit.isEmpty then d
  else { d with cal := { d.cal with sysref := d.cal.sysref.filter (fun p => !hit.any (fun h => h.1 == p.1)) } }.calCounted

/-! ### Age (R461) -/

/-- CAL_OBJECT_DUE: by age, temperature, a switchover, or a change of the converter on its port, whose CNV_PRSNT_N pins are read; a self object
whose bit is set is calibrated at once (R461). -/
def execCalObjectDue (t obj converters : Nat) (s : State) : Res := runIf (isCalObj obj) t s fun d =>
  let d := if d.hw.auxIn then d.convReads converters else d
  let st := d.nW Ix.calObjState obj
  let last := (d.rd Ix.calObjTime 1 obj).toNat * two48 + (d.rd Ix.calObjTime 2 obj).toNat
  let k := calKind obj
  let old := st != 0 && decide (last + d.n0 Ix.calRecalHours * 3600 * sec ≤ d.time96)
  let warm := st != 0 && decide (16 * d.n0 Ix.calRecalDk < (d.dieTemp - d.rd Ix.calObjTemp 0 obj).natAbs)
  let moved := (k = 1 || k = 2 || k = 4 || k = 5) && d.cal.seen.get (0, 0) obj != d.calEvents obj
  if !(old || warm || moved) || !d.sup.running then d
  else if k = 8 || k = 9 then
    if bitOf (d.n0 Ix.calAuto) (k - 8) && (d.calRun obj).isNone && !d.calWithheld obj then d.calStart obj else d
  else
    let d := d.calMark obj
    let d := if st = 2 then d else (d.wW Ix.calObjState obj 2).inc0 Ix.calDueCount
    if d.cal.dueRaised.contains obj then d
    else { d with cal := { d.cal with dueRaised := d.cal.dueRaised ++ [obj] } }.raise 4 Code.calDue

end Sys2Proof.Machine
end

