-- ==== Sys2Proof/Machine/Hod.lean ====
section
/-! DEFINITION. The hod buffer's commands: what its write streams carry, from the producers into blocks and from blocks to capture memory and
the rings (01_islands_and_flow.md, R15 to R17, R24 to R27; 10_capture_store.md, R262 to R265, R278, R279). -/

namespace Sys2Proof.Machine

def Dev.csSt (d : Dev) (cs : Nat) : CsSt := d.cap.streams.get {} cs
def Dev.setCs (d : Dev) (cs : Nat) (c : CsSt) : Dev := { d with cap := { d.cap with streams := d.cap.streams.put cs c } }

/-! ### The samples of a capture stream and its log (R263, R264) -/

/-- The instant of sample j of a running capture stream. -/
def Dev.csTime (d : Dev) (cs j : Nat) : Nat := d.timeOf (sourceOf (d.csSt cs).src) ((d.csSt cs).n0 + j)

/-- N_cap: samples that a capture stream's region holds. -/
def Dev.csCapacity (d : Dev) (cs : Nat) : Nat := 12288 * d.nI Ix.capCsSize cs / formatBytes (d.csSt cs).fmt

/-- The gap run, the settle run and flag run f of a capture stream end: each leaves its record (R201, R264). -/
def Dev.csGapEnd (d : Dev) (cs : Nat) : Dev :=
  match (d.csSt cs).gapRun with
  | none => d
  | some (cause, j, n) =>
    let s := (if cause = 2 then 1 else 4) * 2 ^ 24 + cs
    (d.setCs cs { d.csSt cs with gapRun := none }).askLog cs (d.csTime cs j) j (gapMarker cause 1 0 s (d.csTime cs j) n j)
def Dev.csSettleEnd (d : Dev) (cs : Nat) : Dev :=
  match (d.csSt cs).settleRun with
  | none => d
  | some (cause, j, n) =>
    (d.setCs cs { d.csSt cs with settleRun := none }).askLog cs (d.csTime cs j) j (settleRec (sourceOf (d.csSt cs).src) cause n (d.csTime cs j))
def Dev.csFlagEnd (d : Dev) (cs f : Nat) : Dev :=
  match (d.csSt cs).flagRuns.find? f with
  | none => d
  | some (a, b) =>
    (d.setCs cs { d.csSt cs with flagRuns := (d.csSt cs).flagRuns.del f }).askLog cs (d.csTime cs a) a
      (flagRec 0 f (b + 1 - a) (d.csTime cs a) a)

/-- Every run ends, with the stream. -/
def Dev.csEnd (d : Dev) (cs : Nat) : Dev :=
  let d := [1, 2, 3].foldl (fun (a : Dev) f => a.csFlagEnd cs f) ((d.csGapEnd cs).csSettleEnd cs)
  d.setCs cs { d.csSt cs with src := 0 }

/-- Sample j, with its flags and the cause of its gap, in the runs of its stream; runs of one flag separated by fewer than 256 clean samples
merge (R201). -/
def Dev.csNote (d : Dev) (cs j flags : Nat) : Dev :=
  let cause := gapCause flags
  let d := if cause = 0 then d.csGapEnd cs
    else
      let c := d.csSt cs
      d.setCs cs { c with gapRun := some (match c.gapRun with | some g => (g.1, g.2.1, g.2.2 + 1) | none => (cause, j, 1)) }
  let d := if !bitOf flags 3 then d.csSettleEnd cs
    else
      let c := d.csSt cs
      d.setCs cs { c with settleRun := some (match c.settleRun with | some g => (g.1, g.2.1, g.2.2 + 1) | none => (flags / 256 % 16, j, 1)) }
  [1, 2, 3].foldl (fun (a : Dev) f =>
    let a := match (a.csSt cs).flagRuns.find? f with
      | some r => if r.2 + 256 < j then a.csFlagEnd cs f else a
      | none => a
    if bitOf flags (f - 1) then
      let c := a.csSt cs
      a.setCs cs { c with flagRuns := c.flagRuns.put f (match c.flagRuns.find? f with | some r => (r.1, j) | none => (j, j)) }
    else a) d

/-- The next sample of a running capture stream goes to the hod buffer: the last one lies before its stop, or fills its region in mode 1; every
2^20 samples the log takes a position mark (R263 to R265). -/
def Dev.csWrite (d : Dev) (cs : Nat) : Dev :=
  let c := d.csSt cs
  let s := sourceOf c.src
  let j := c.next
  let tm := d.csTime cs j
  if c.src = 0 then d
  else if c.stop.any (· ≤ tm) || (c.mode = 1 && d.csCapacity cs ≤ j) then d.csEnd cs
  else if !d.sampleKnown s (c.n0 + j) then d
  else
    let p := storeSample c.fmt (d.takenAt s (c.n0 + j))
    let d := if j % 2 ^ 20 = 0 then d.csMark cs j tm else d
    let d := d.setCs cs { d.csSt cs with next := j + 1 }
    let q := d.hodPut (2 ^ 24 + cs) ⟨.stream cs j, tm, d.csTime cs (j + 1), j, p.1⟩
    if q.2 then (q.1.incI Ix.capCsGapSamples cs).csNote cs j (2 * 16) else q.1.csNote cs j p.2.2.2

/-! ### Producers write (R15, R17, R24, R26) -/

/-- The oldest record of a write stream on its way to the hod buffer, with its ring, and what is left. -/
def takeBound (stream : Nat) : List (Nat × Rec) → Option ((Nat × Rec) × List (Nat × Rec))
  | [] => none
  | p :: l => if recStream p.1 p.2 = stream then some (p, l) else (takeBound stream l).map (fun q => (q.1, p :: q.2))

/-- The part of a plane record that the hod buffer keeps, with a marker of the bytes it lacks (R221). `room`: bytes that were free. -/
def Dev.planePart (d : Dev) (stream room : Nat) (it : HodItem) (ring : Nat) (r : Rec) : Dev :=
  let kept := min (room - 128) r.payload.length / 8 * 8
  let x := d.hodStream stream
  let d := d.setHod stream { x with lostBytes := x.lostBytes - (if room = 0 then 0 else 128 + kept) }
  let mark := gapMarker 2 5 0 stream it.from_ (r.payload.length - kept) 0
  (d.hodTail stream { it with dest := .record ring (shortRecord r kept), bytes := [] }).hodTail stream
    { it with dest := .record ring mark, bytes := [] }

/-- The next record of a stream, or the next row, line or log record, goes to the hod buffer. -/
def Dev.recordWrite (d : Dev) (stream : Nat) : Dev :=
  match takeBound stream d.out.outbox with
  | some (p, rest) =>
    let d := { d with out := { d.out with outbox := rest } }
    let tm := recTime p.2
    let it : HodItem := ⟨.record p.1 p.2, tm, tm, 0, recBytes p.2⟩
    let x := d.hodStream stream
    let room := if x.discarding then 0 else 4096 * (d.hodCapacity - d.hodBlocks + (if x.fillLen = 0 then 0 else 1)) - x.fillLen
    let q := d.hodPut stream it
    if !q.2 then q.1
    else if stream / 2 ^ 24 = 6 then q.1.planePart stream room it p.1 p.2
    else q.1.hodTail stream { it with dest := .loss p.1 p.2, bytes := [] }
  | none => match takeAsked stream d.cap.asked with
    | none => d
    | some (it, rest) =>
      let q := ({ d with cap := { d.cap with asked := rest } }).hodPut stream it
      if q.2 then q.1.itemLost 2 it else q.1

/-- HOD_WRITE: what a write stream has next, of its kind (Table 1.13), fills its present block; what finds no free block is discarded (R24,
R26). -/
def execHodWrite (t stream : Nat) (s : State) : Res :=
  runIf (1 ≤ stream / 2 ^ 24 && stream / 2 ^ 24 ≤ 9) t s fun d =>
    let k := stream / 2 ^ 24
    let o := stream % 2 ^ 24
    if k = 1 then d.csWrite o
    else if k = 2 then d.magWrite o
    else if k = 3 then d.magLog o
    else if k = 8 then d.reelWrite o
    else d.recordWrite stream

/-! ### Blocks leave (R24, R278, R500) -/

/-- A record joins a capture stream's log, which never overwrites its slate and stops with the data in mode 1 (R264). -/
def Dev.csLog (d : Dev) (cs : Nat) (bytes : List Byte) (m : Mem) : Mem × Dev :=
  match d.allocOf 4 cs with
  | some a =>
    let c := d.csSt cs
    let room := a.length - 136
    if c.mode = 1 && room < c.logPos + bytes.length then (m, d)
    else (d.writeRing a 136 room c.logPos bytes m, d.setCs cs { c with logPos := c.logPos + bytes.length })
  | none => (m, d)

/-- Samples of a capture stream reach its region from index j on; a stop-when-full stream is full after sample N_cap - 1 (R263). -/
def Dev.csStore (d : Dev) (cs j : Nat) (bytes : List Byte) (m : Mem) : Mem × Dev :=
  match d.allocOf 1 cs with
  | some a =>
    let c := d.csSt cs
    let w := formatBytes c.fmt
    let o := j * w
    let m := d.writeRing a 0 a.length o bytes m
    let d := d.rewrote a (if a.length = 0 then 0 else o % a.length) bytes.length
    let n := j + bytes.length / w
    let d := d.wI Ix.capCsWritten cs (max (d.nI Ix.capCsWritten cs) n)
    (m, if c.mode = 1 && a.length ≤ n * w && d.nI Ix.capCsState cs = 2 then d.wI Ix.capCsState cs 3 else d)
  | none => (m, d)

/-- Bytes go to an owner's allocation. -/
def Dev.putAlloc (d : Dev) (kind num off : Nat) (bytes : List Byte) (m : Mem) : Mem × Dev :=
  match d.allocOf kind num with
  | some a => (d.writeAlloc a off bytes m, d.rewrote a off bytes.length)
  | none => (m, d)

/-- A row or a line reaches its buffer in the pool while its handle is valid. -/
def Dev.putPixels (d : Dev) (off id : Nat) (bytes : List Byte) (m : Mem) : Mem × Dev :=
  if (d.handleEntry id).isSome then d.poolWrite off bytes m else (m, d)

/-- An item reaches where it was bound for. -/
def Dev.commitItem (d : Dev) (it : HodItem) (m : Mem) : Mem × Dev :=
  match it.dest with
  | .stream cs j => d.csStore cs j it.bytes m
  | .slot mag _ offs =>
    let w := it.bytes.length / max offs.length 1
    offs.zipIdx.foldl (fun p o => p.2.putAlloc 2 mag o.1 ((it.bytes.drop (o.2 * w)).take w) p.1) (m, d)
  | .log mag off => d.putAlloc 3 mag off it.bytes m
  | .csSlate cs => d.putAlloc 4 cs 0 it.bytes m
  | .csLog cs => d.csLog cs it.bytes m
  | .record ring r => (m, { d with out := { d.out with arrived := d.out.arrived ++ [(ring, r)] } })
  | .loss ring r => (m, d.ringLose ring 2 r)
  | .row p off which id last =>
    let q := d.putPixels off id it.bytes m
    (q.1, if last then q.2.planeCommits p which id else q.2)
  | .line l line number off =>
    let q := d.putPixels off (d.nI Ix.vpLayerHandle l) it.bytes m
    (q.1, q.2.rollCommit l line number)
  | .reel r j samples => (m, d.reelArrives r j samples)

/-- Whether an item is bound for capture memory. -/
def HodItem.toMemory (it : HodItem) : Bool := match it.dest with | .record _ _ => false | .loss _ _ => false | _ => true

/-- The Capture Store port of a write stream (Table 1.13). -/
def Dev.streamPort (d : Dev) (n : Nat) : Nat :=
  let k := n / 2 ^ 24
  let o := n % 2 ^ 24
  let src := if k = 1 then d.nI Ix.capCsSrc o else if k = 2 then (d.magChans o).headD 0 else if k = 8 then (d.reel o).sources.headD 0 else 0
  if isChanSrc src then chanLane src else 4

/-- A block is committed; with no channel in service what is bound for memory is a gap of cause 3 (R24, R500). -/
def Dev.commitBlock (d : Dev) (stream : Nat) (b : HodBlock) (m : Mem) : Mem × Dev :=
  let d := if b.len = 0 then d else d.portServe (d.streamPort stream) b.len
  let gone := d.fullService && d.n0 Ix.capState = 4
  let d := if gone then d.itemsLost stream 3 (b.items.filter HodItem.toMemory) else d
  (if gone then b.items.filter (fun it => !it.toMemory) else b.items).foldl (fun p it => p.2.commitItem it p.1) (m, d)

/-- The block of a stream that may leave: its oldest full one, else its present one at the first 1 µs tick after its first byte (R24). -/
def HodStream.leaves (x : HodStream) (now : Nat) : Option (HodBlock × HodStream) :=
  match x.full with
  | b :: r => some (b, { x with full := r })
  | [] => if x.ticked now && !x.discarding then some (⟨x.fill, x.fillLen⟩, { x with fill := [], fillLen := 0 }) else none

/-- HOD_BLOCK_LEAVE: the stream's oldest block leaves when full, or at a tick; one bound for a channel that retrains is held for it (R24, R267,
R278). -/
def execHodBlockLeave (t stream : Nat) (s : State) : Res :=
  runMemIf (1 ≤ stream / 2 ^ 24 && stream / 2 ^ 24 ≤ 9) t s fun m d =>
    if d.now < d.cap.stallUntil || d.cap.asleep || !d.portOpen (d.streamPort stream) then (m, d)
    else match (d.hodStream stream).leaves d.now with
      | none => (m, d)
      | some (b, y) =>
        let d := d.setHod stream y
        match d.cap.training.map (·.1) with
        | some c =>
          if b.items.any (fun it => d.itemChannel it == some c) then
            (m, { d with cap := { d.cap with deferred := d.cap.deferred ++ [(c, stream, b)] } }.hodReport)
          else
            let q := d.commitBlock stream b m
            (q.1, q.2.hodReport)
        | none =>
          let q := d.commitBlock stream b m
          (q.1, q.2.hodReport)

/-- HOD_STREAM_RESUME: with 256 KiB free again the stream is to resume, at its next block boundary; the gap is recorded there and a capture
stream's lost positions are to hold zeros (R26, R263). -/
def execHodStreamResume (t stream : Nat) (s : State) : Res :=
  runIf (1 ≤ stream / 2 ^ 24 && stream / 2 ^ 24 ≤ 9) t s fun d =>
    let x := d.hodStream stream
    if x.discarding && d.hodBlocks + 64 ≤ d.hodCapacity then
      if x.boundary d.now then d.hodGapEnd stream else d.setHod stream { x with resuming := true }
    else d

/-! ### Blocks held for a channel (R278, R279) -/

/-- Blocks held for a channel issue first once it is back (Table 10.9). -/
def Dev.issueDeferred (d : Dev) (c : Nat) (m : Mem) : Mem × Dev :=
  let mine := (d.cap.deferred.filter (fun p => p.1 == c)).map (·.2)
  let d := { d with cap := { d.cap with deferred := d.cap.deferred.filter (fun p => p.1 != c) } }
  let q := mine.foldl (fun (p : Mem × Dev) b => p.2.commitBlock b.1 b.2 p.1) (m, d)
  (q.1, q.2.hodReport)

/-- RETRAIN_DONE: result 0 success, 1 a rank failed, 2 the channel failed (R278, R279, Table 10.9). -/
def execRetrainDone (t chan result rank : Nat) (s : State) : Res :=
  runMemIf (chan < 8 && result < 3 && rank < 5) t s fun m d =>
    match d.cap.training with
    | some (c, since) =>
      if c != chan then (m, d)
      else
        let d := { d with cap := { d.cap with training := none, trained := d.cap.trained.set 0 chan d.now } }
        let d := (d.wI Ix.capChanState chan 1).capEvent 0x07 chan (toNs (d.now - since)) result
        if result = 0 then (d.incI Ix.capRetrains chan).issueDeferred chan m
        else if result = 1 then
          let (m, d) := (d.incI Ix.capRetrains chan).issueDeferred chan m
          d.spareRank chan rank 3 m
        else d.retireChannel chan m
    | none => (m, d)

end Sys2Proof.Machine
end

