-- ==== Sys2Proof/Machine/Faults.lean ====
section
/-! DEFINITION. Repointing by any entry, firmware switches, standby tests, drains, the fault log (19_faults_and_service.md). -/

namespace Sys2Proof.Machine

/-! ### Instances (R488, Table 19.4) -/

/-- Whether an instance can be repointed. -/
def isRepointable (isl inst : Nat) : Bool :=
  if isl = 1 then decide (inst < 16)
  else if isl = 2 then decide (inst ≤ 32) || (decide (0x40 ≤ inst) && decide (inst < 0x50))
  else if isl = 3 then decide (inst ≤ 32) else if isl = 4 then decide (inst < 5) else if isl = 5 then decide (inst < 4)
  else if isl = 6 || isl = 8 || isl = 0xA || isl = 0xB then inst == 0
  else if isl = 7 then decide (inst < 8) else isl == 9 && decide (inst < 2)

/-- FLT_REPOINT: `flt.repoint` names island and instance (R488). -/
def execFltRepoint (t path value : Nat) (s : State) : Res := run t s fun d =>
  d.command path Ix.fltRepoint 0 value fun d =>
    let isl := value / 256
    let inst := value % 256
    let standby := inst = 32 && ((isl = 2 && d.n0 Ix.chnStandbyFor != 0xFF) || (isl = 3 && d.n0 Ix.speStandbyFor != 0xFF))
    if !isRepointable isl inst || (isl = 7 && !d.inService inst) then d.refuse path Ix.fltRepoint 0 Code.repointTarget
    else if d.repointBusy then d.refuse path Ix.fltRepoint 0 Code.repointBusy
    else if standby then d.refuse path Ix.fltRepoint 0 Code.repointTarget
    else
      let why := if isl = 2 && inst < 32 then d.chnRepointRefusal else if isl = 3 && inst < 32 then d.speRepointRefusal else none
      match why with
      | some c => d.refuse path Ix.fltRepoint 0 c
      | none => d.repointStart isl inst (d.n0 Ix.fltRepointSrc)

/-- The rejoining cut of an instance is committed (R488). -/
def Dev.rejoinCut (d : Dev) (r : Repoint) : Dev :=
  (d.w0 Ix.fltRepointState 3).engineCut { kind := .repointIn, isl := r.isl, inst := r.inst, due := d.soon }

/-- FLT_REPOINT_ABORT: before the instance has left service it ends; after, the instance returns with its previous contents; past the
rejoining cut's commit point, or with none running, ALREADY_DONE (R486, R488). -/
def execFltRepointAbort (t path : Nat) (s : State) : Res := run t s fun d =>
  d.command path Ix.fltRepoint 0 0xFFFF fun d =>
    if d.n0 Ix.fltUpdateState = 3 || d.n0 Ix.fltUpdateState = 5 then d.alreadyDone path
    else match d.flt.repoint with
      | none => d.alreadyDone path
      | some r =>
        if r.isl = 2 && r.inst < 32 then d.repointAbort path 2 Ix.chnRepointState
        else if r.isl = 3 && r.inst < 32 then d.repointAbort path 3 Ix.speRepointState
        else if !r.out then
          if d.cut.engine.any (fun c => c.kind == .repointOut && c.distributed) then
            { d with flt := { d.flt with repoint := some { r with aborted := true } } }
          else
            let d := { d with flt := { d.flt with repoint := none } }.engineDrop (fun c => c.kind == CutKind.repointOut)
            (d.w0 Ix.fltRepointState 0).w0 Ix.fltRepointTarget 0xFFFF
        else if d.cut.engine.any (fun c => c.kind == .repointIn && c.distributed) then d.alreadyDone path
        else
          let d := { d with flt := { d.flt with repoint := some { r with aborted := true } } }
          if d.n0 Ix.fltRepointState = 2 then d.rejoinCut r else d

/-- REPOINT_SELFTEST_DONE: the updated instance passes or fails its self-test; it rejoins at the next cut, an idle standby at once (R488). -/
def execRepointSelftestDone (t : Nat) (ok : Bool) (s : State) : Res := run t s fun d =>
  match d.flt.repoint with
  | none => d
  | some r =>
    let sequence := (r.isl = 2 || r.isl = 3) && r.inst < 32
    if sequence || d.n0 Ix.fltRepointState != 2 || !d.sup.running then d
    else
      let r := { r with selfTestOk := ok || r.aborted }
      let d := if ok || r.aborted then d else d.fault 2 Code.repointSelftest r.isl r.inst 0 0
      let d := { d with flt := { d.flt with repoint := some r } }
      if (r.isl = 2 || r.isl = 3) && r.inst = 32 then d.repointDone else d.rejoinCut r

/-! ### Leaving and rejoining service (R134, R207, R228, R250, R278, R316, R340, R362, R393) -/

/-- Losses counted while an instance is suspended: frames of a plane, samples of reels. -/
def Dev.suspendLosses (d : Dev) (isl inst : Nat) : Nat :=
  if isl = 5 then d.nI Ix.denFramesLost inst
  else if isl = 8 then (d.str.reels.map (fun p => d.nW Ix.strReelGapSamples p.1)).sum
  else 0

/-- A reference tracker leaves service: the loop switches to the other input if it can, else it holds its frequency (R340). -/
def Dev.trackerOut (d : Dev) (i : Nat) : Dev :=
  if d.n0 Ix.tbRefActive = i && d.n0 Ix.tbLoopState = 2 && d.refOk (1 - i) then d.loopTo 3 else d

/-- A reference tracker rejoins: the loop switches back to the preferred input when `tb.ref_revert` is 1 (R340). -/
def Dev.trackerIn (d : Dev) (i : Nat) : Dev :=
  if d.n0 Ix.tbRefRevert = 1 && d.n0 Ix.tbRefPref = i && d.n0 Ix.tbRefActive = 1 - i && d.n0 Ix.tbLoopState = 2 && d.refOk i then d.loopTo 3 else d

/-- A real-to-complex section leaves service: nothing crosses it until it is back (R134). -/
def Dev.sectionOut (d : Dev) (q first : Nat) : Dev :=
  (d.setSection q { d.section_ q with heldDown := true }).sectionLoss q (d.srcAfter (0x10 + q) 1 first) 0 true

/-- An instance leaves service at a cut. -/
def Dev.suspendInst (d : Dev) (r : Repoint) (first : Nat) : Dev :=
  let i := r.inst
  let d := { d with flt := { d.flt with repoint := some { r with out := true, began := first, lost0 := d.suspendLosses r.isl i } } }
  let d := d.w0 Ix.fltRepointState 2
  if r.isl = 1 then (if d.linkState i = 5 then (d.openLinkGap i first 10).linkEnter i 6 else d)
  else if r.isl = 2 then d.sectionOut (i - 0x40) first
  else if r.isl = 4 then { d with trg := { d.trg with suspended := d.trg.suspended.put i (first, 0) } }.masksSuspend i 0
  else if r.isl = 5 then
    let d := d.setPlane i { d.plane i with suspended := true }
    if d.nI Ix.denState i = 0 then d else d.wI Ix.denState i 2
  else if r.isl = 6 then { d with vp := { d.vp with suspended := true } }
  else if r.isl = 7 then
    { d with cap := { d.cap with training := some (i, d.now), stallBase := some (d.n0 Ix.capHodOccupancy) } }.wI Ix.capChanState i 2
  else if r.isl = 8 then { d with str := { d.str with suspended := true } }
  else if r.isl = 9 then d.trackerOut i
  else if r.isl = 0xA then d.imSuspend
  else if r.isl = 0xB then d.cfSuspend
  else d

/-- An instance rejoins at a cut; the samples it was suspended for, for slot 4 of the record. -/
def Dev.resumeInst (d : Dev) (r : Repoint) (first : Nat) (m : Mem) : Nat × Mem × Dev :=
  let i := r.inst
  let lost := d.suspendLosses r.isl i - r.lost0
  if r.isl = 1 then (samplesBetween r.began first (d.linkFs i), m, d)
  else if r.isl = 2 then (samplesBetween r.began first (d.srcRate (0x10 + i - 0x40) / 1000), m, d.sectionFree (i - 0x40) first)
  else if r.isl = 4 then
    let d := { d with trg := { d.trg with suspended := d.trg.suspended.del i } }
    (0, m, d.missedSuspended i r.began (toNs (first - r.began)))
  else if r.isl = 5 then
    let d := d.setPlane i { d.plane i with suspended := false }
    (lost * d.layerHop (4 * i + d.nI Ix.denLayer i), m, if d.nI Ix.denState i = 2 then d.wI Ix.denState i 1 else d)
  else if r.isl = 6 then (0, m, { d with vp := { d.vp with suspended := false } })
  else if r.isl = 7 then
    let d := { d with cap := { d.cap with training := none } }
    let q := ((d.wI Ix.capChanState i 1)).issueDeferred i m
    (0, q.1, q.2)
  else if r.isl = 8 then (lost, m, { d with str := { d.str with suspended := false } })
  else if r.isl = 9 then (0, m, d.trackerIn i)
  else if r.isl = 0xA then (0, m, d.imRejoin)
  else if r.isl = 0xB then (0, m, d.cfRejoin)
  else (0, m, d)

/-! ### Standby tests (R485) -/

/-- STANDBY_SELFTEST: 0 the standby DDC, 1 the standby core, 0x10 + c the spare rank of channel c, tested while idle
every 10 s (R485). -/
def execStandbySelftest (t unit : Nat) (ok : Bool) (s : State) : Res :=
  runIf (unit < 2 || (0x10 ≤ unit && unit < 0x18)) t s fun d =>
    let idle := if unit = 0 then d.n0 Ix.chnStandbyFor = 0xFF && !d.repointing 2 else if unit = 1 then d.n0 Ix.speStandbyFor = 0xFF && !d.repointing 3
      else (d.idleSpare (unit - 0x10)).isSome
    let again := d.now < d.flt.selfTests.get 0 unit + 10 * sec
    let d := { d with flt := if again then d.flt else { d.flt with selfTests := d.flt.selfTests.set 0 unit d.now } }
    if again || !idle || !d.sup.running || ok || d.flt.standbyFailed.contains unit then d
    else
      let isl := if unit = 0 then 2 else if unit = 1 then 3 else 7
      let inst := if unit < 2 then 32 else unit - 0x10
      let d := { d with flt := { d.flt with standbyFailed := unit :: d.flt.standbyFailed } }
      ((d.fault 3 Code.standbyFailed isl inst 0 0).happen (.standby isl inst false)).happen (.degradation isl [])

/-! ### Drains (R487) -/

/-- DISABLE_DRAIN_END: the drain of a disabled function ends; work still left 50 µs after its boundary is discarded as a gap (R487). -/
def execDisableDrainEnd (t isl inst left : Nat) (s : State) : Res := run t s fun d =>
  match d.flt.drains.find? (fun p => p.1 == isl && p.2.1 == inst) with
  | none => d
  | some p =>
    let d := { d with flt := { d.flt with drains := d.flt.drains.erase p } }
    if left = 0 || d.now < p.2.2 + us 50 then d
    else
      let from_ := d.time96
      (d.gap ⟨.link inst, 1, from_, from_, left, 0, 10⟩).raise 4 Code.drainForced

/-! ### Firmware update (R489 to R491) -/

/-- The slot of the image that is not running. -/
def Dev.otherSlot (d : Dev) : Nat := if d.n0 Ix.modBootImage = 1 then 2 else 1

/-- Whether a switch runs. -/
def Dev.switching (d : Dev) : Bool := let u := d.n0 Ix.fltUpdateState; u == 2 || u == 3 || u == 5

/-- A new image enters the slot that is not running: a trial image if it passes, else the slot is left empty (R489). `requires` are
the islands whose microcode it does not accept. -/
def Dev.installImage (d : Dev) (length version requires : Nat) (ok : Bool) : Dev :=
  let n := d.otherSlot
  if !ok || length = 0 || 16777216 < length then
    let d := d.wI Ix.modImageState (n - 1) 0
    if d.n0 Ix.fltUpdateState = 1 then (d.w0 Ix.fltUpdateState 0).w0 Ix.fltUpdateRequired 0 else d
  else
    let d := { d with boot := { d.boot with images := d.boot.images.put n ⟨version, length, requires⟩ } }
    ((d.wI Ix.modImageState (n - 1) 1).w0 Ix.fltUpdateState 1).w0 Ix.fltUpdateRequired (requires % 65536)

/-- IMG_ALLOCATE_STAGING (R489). -/
def execImgAllocateStaging (t path : Nat) (s : State) : Res := run t s fun d =>
  d.command path Ix.fltImgCmd 0 1 fun d =>
    if !d.fullService then d.refuse path Ix.fltImgCmd 0 Code.rushesUnavailable
    else if d.switching then d.refuse path Ix.fltImgCmd 0 Code.updateState
    else match d.allocOf 0x20 0 with
      | some a => d.w0 Ix.fltImgAddr (d.allocAddr a 0)
      | none => match d.alloc 0x20 0 16777216 false with
        | some (a, d) => d.w0 Ix.fltImgAddr (d.allocAddr a 0)
        | none => d.refuse path Ix.fltImgCmd 0 Code.csNoMemory

/-- IMG_INSTALL: the staged image is checked and installed; `ok` is the result of its CRC-32 and signature (R489). -/
def execImgInstall (t path version requires : Nat) (ok : Bool) (s : State) : Res := run t s fun d =>
  d.command path Ix.fltImgCmd 0 2 fun d =>
    let n := d.n0 Ix.fltImgLen
    if !d.fullService then d.refuse path Ix.fltImgCmd 0 Code.rushesUnavailable
    else if d.switching || (d.allocOf 0x20 0).isNone then d.refuse path Ix.fltImgCmd 0 Code.updateState
    else if !ok || n = 0 || 16777216 < n then (d.installImage n version requires false).refuse path Ix.fltImgCmd 0 Code.imageInvalid
    else d.installImage n version requires true

/-- The instances of a round in their order (R490). -/
def Dev.roundOf (d : Dev) (mask : Nat) : List (Nat × Nat) :=
  let on (k : Nat) (l : List (Nat × Nat)) : List (Nat × Nat) := if bitOf mask k then l else []
  let idle := if d.n0 Ix.tbRefActive = 0 then [(9, 1), (9, 0)] else [(9, 0), (9, 1)]
  on 9 idle ++ on 0xA [(0xA, 0)] ++ on 7 (((List.range 8).filter d.inService).map (fun c => (7, c))) ++ on 8 [(8, 0)] ++ on 0xB [(0xB, 0)] ++
    on 6 [(6, 0)] ++ on 5 ((List.range 4).map (fun p => (5, p))) ++ on 4 ((List.range 5).map (fun i => (4, i))) ++
    on 3 ((3, 32) :: (List.range 32).map (fun c => (3, c))) ++ on 2 ((2, 32) :: (List.range 32).map (fun n => (2, n))) ++
    on 13 ((List.range 16).map (fun q => (2, 0x40 + q))) ++ on 1 ((List.range 16).map (fun q => (1, q)))

/-- IMG_SWITCH: the Supervisor restarts into the trial image, and the round is to follow (R490, Table 19.5). -/
def execImgSwitch (t path : Nat) (s : State) : Res := run t s fun d =>
  d.command path Ix.fltImgCmd 0 3 fun d =>
    let mask := d.n0 Ix.fltUpdateMask
    if !d.fullService || d.n0 Ix.fltUpdateState != 1 then d.refuse path Ix.fltImgCmd 0 Code.updateState
    else if d.flt.repoint.isSome then d.refuse path Ix.fltImgCmd 0 Code.repointBusy
    else if Nat.land (d.n0 Ix.fltUpdateRequired) mask != d.n0 Ix.fltUpdateRequired then d.refuse path Ix.fltImgCmd 0 Code.updateMask
    else
      let n := d.otherSlot
      let d := { d with flt := { d.flt with trial := n, previous := d.n0 Ix.modBootImage, round := d.roundOf mask, roundDone := [] } }
      let d := ((d.w0 Ix.fltUpdateState 2).supAway false).w0 Ix.modBootImage n
      let d := { d with boot := { d.boot with trialSince := some d.now } }
      d.logEntry 0 d.time96 0xC 0 0 (d.boot.images.get ({} : Image) n).version 0

/-- IMG_ABORT_SWITCH: before confirmation the switch reverts; otherwise ALREADY_DONE (R486, R491). -/
def execImgAbortSwitch (t path : Nat) (s : State) : Res := run t s fun d =>
  d.command path Ix.fltImgCmd 0 4 fun d => if d.n0 Ix.fltUpdateState = 3 then d.revertStart else d.alreadyDone path

/-- UPDATE_CONFIRM: the last instance of the round is back and the image is confirmed; the other is the fallback (R490). -/
def execUpdateConfirm (t : Nat) (s : State) : Res := run t s fun d =>
  if d.n0 Ix.fltUpdateState = 3 && d.flt.round.isEmpty && d.flt.repoint.isNone && d.sup.running then
    let n := d.n0 Ix.modBootImage
    let d := { d with boot := { d.boot with preferred := n, trialSince := none } }
    (((d.wI Ix.modImageState (n - 1) 2).w0 Ix.fltUpdateState 4).w0 Ix.fltUpdateProgress 0).raise 4 Code.updateConfirmed
  else d

/-- UPDATE_REVERT: the previous image runs and every instance has been repointed back (R491). -/
def execUpdateRevert (t : Nat) (s : State) : Res := run t s fun d =>
  if d.n0 Ix.fltUpdateState = 5 && d.flt.round.isEmpty && d.flt.repoint.isNone && d.sup.running then
    ((d.w0 Ix.fltUpdateState 6).w0 Ix.fltUpdateProgress 0).raise 4 Code.updateReverted
  else d

/-! ### Overflow of a pipeline crossing (R19) -/

/-- What a crossing out of Intake loses: samples of a link, and with them what its wide path takes (R19). -/
def Dev.linkOverflow (d : Dev) (q first count : Nat) : Dev :=
  let code := 0x10 + q
  let c := d.srcClock code
  let i := c.after first
  let d := d.setCrossing code ((d.crossing code).overflow i count)
  let d := (d.gap ⟨.link q, 1, first, c.time (i + count), count, 0, 10⟩).incI Ix.itkGapSamples q count
  match d.wideTaker code with
  | some p =>
    let n := ceilDiv count (d.rawPer code)
    let d := d.wideGap p first (c.time (i + count)) n
    if d.rawPer code = 2 then d.wideUnsettle p code (c.time (i + count)) 5 else d
  | none => d

/-- What a crossing out of the Channeliser loses: outputs of a DDC (R19). -/
def Dev.ddcOverflow (d : Dev) (n first count : Nat) : Dev :=
  let ne := d.ddcAfter n first
  let span := count * 2 ^ d.nI Ix.chnDepth n
  let c := (d.chn.output.get {} n).overflow ne span
  { d with chn := { d.chn with output := d.chn.output.set {} n c } }.ddcGap n first (d.ddcTime n (ne + span)) count 10

/-- PIPELINE_CROSSING_OVERFLOW: the words a crossing out of island 1, 2 or 3 cannot hold are discarded whole: samples of a link; outputs of a
DDC, or of wide path p (instance 0x80 + p); frames of a layer (`first` a frame index). They are a gap of cause 10, and a fault, for which
the spec names no code (R19). -/
def execPipelineCrossingOverflow (t isl inst first count : Nat) (s : State) : Res :=
  runIf ((isl = 1 && inst < 16) || (isl = 2 && (inst < 32 || (0x80 ≤ inst && inst < 0x84))) || (isl = 3 && inst < 16)) t s fun d =>
    let d := if isl = 1 then d.linkOverflow inst first count
      else if isl = 2 && 0x80 ≤ inst then
        let code := d.wideCode (inst - 0x80)
        d.wideGap (inst - 0x80) first (d.srcTime code (d.srcAfter code 1 first + count)) count
      else if isl = 2 then d.ddcOverflow inst first count
      else d.layerGap inst first count 10
    d.fault 2 0 isl inst count 0

/-! ### The fault log (R493) -/

/-- FLT_LOG_CLEAR. -/
def execFltLogClear (t path : Nat) (s : State) : Res := run t s fun d =>
  d.command path Ix.fltLogClear 0 1 fun d => { d with flt := { d.flt with log := [] } }

/-- The slots of a fault-log entry (Table 19.6). -/
def logSlots (e : LogEntry) : List (Nat × Nat) :=
  [(0x1700, e.code * 2 ^ 16 + e.seq % 2 ^ 16), (0x1701, sec48 e.time), (0x1702, frac48 e.time),
    (0x1703, e.isl * 2 ^ 40 + e.inst * 2 ^ 32 + e.cls * 2 ^ 24 + e.boot), (0x1704, wrap48 e.value), (0x1705, wrap48 e.interruption)]

end Sys2Proof.Machine
end

