-- ==== Sys2Proof/Machine/Cuts.lean ====
section
/-! DEFINITION. Cuts: commits, their checks, and their application island by island (R28 to R33, R81, R496). -/

namespace Sys2Proof.Machine

/-! ### The waiting cut (R29, R32) -/

/-- The cut that waits: yours before the engine's (R32, R441, R488). -/
def Dev.activeCut (d : Dev) : Option Cut := match d.cut.user with | some c => some c | none => d.cut.engine.head?

/-- The waiting cut is replaced. -/
def Dev.setActive (d : Dev) (c : Cut) : Dev :=
  match d.cut.user with
  | some _ => { d with cut := { d.cut with user := some c } }
  | none => { d with cut := { d.cut with engine := match d.cut.engine with | [] => [] | _ :: r => c :: r } }

/-- The waiting cut is gone, with the state to show: a rejection stays readable while an engine cut follows (R33). After a cut that applied,
3 is shown even where a further staged set waits, until the next write or commit: the spec does not say (DESIGN CHOICE, log entry 36). -/
def Dev.dropActive (d : Dev) (state : Nat) : Dev :=
  let d := match d.cut.user with
    | some _ => { d with cut := { d.cut with user := none } }
    | none => { d with cut := { d.cut with engine := d.cut.engine.tail } }
  let d := d.promoteCut
  if state = 4 || d.cut.engine.isEmpty then d.w0 Ix.modCutState state else d

/-- The island a write belongs to. -/
def writeIsland (w : SWrite) : Nat := if w.ix = Ix.pwrIslPoint then w.sub else islandOfIx w.ix

/-- The islands a cut affects: every one at the changeover (Table 3.4); the Trigger Unit, which places TOUT pulses, for a result without
an entry (Table 17.1). -/
def Cut.islands (c : Cut) : List Nat :=
  if c.kind = .changeover then (List.range 12).map (· + 1)
  else if c.kind = .repointOut || c.kind = .repointIn then [c.isl]
  else if c.writes.isEmpty then [if c.kind = .calibration then 4 else if c.isl = 0 then 0xC else c.isl]
  else (c.writes.map writeIsland).dedup

/-- T as `mod.cut_at` gives it; both parts zero: the present sample time plus 10 µs (R28). -/
def Dev.cutAt (d : Dev) : Nat × Bool :=
  let t := (d.rd Ix.modCutAtSec 1 0).toNat * two48 + (d.rd Ix.modCutAtFrac 2 0).toNat
  if t = 0 then (d.soon, false) else (t, true)

/-- CUT_COMMIT: the staged set is closed (R29, R32). -/
def execCutCommit (t path : Nat) (s : State) : Res := run t s fun d =>
  d.command path Ix.modCutCommit 0 1 fun d =>
    if d.cutWaiting then d.refuse path Ix.modCutCommit 0 Code.cutBusy
    else if d.cut.staged.isEmpty then d.refuse path Ix.modCutCommit 0 Code.cutNothingStaged
    else
      let c : Cut := { kind := .user, writes := d.cut.staged, due := d.cutAt.1, explicit := d.cutAt.2, path := path, observed := d.now }
      { d with cut := { d.cut with user := some c, staged := [] } }.w0 Ix.modCutState 2

/-- The set of a cut that does not apply is staged again, writes observed since applied to it in their order (R29, R33). -/
def Dev.restage (d : Dev) (l : List SWrite) : Dev :=
  { d with cut := { d.cut with staged := d.cut.staged.foldl (fun l w => putWrite w l) l } }

/-- CUT_ABORT: before the commit point the set stays staged; otherwise ALREADY_DONE (R31, R486). -/
def execCutAbort (t path : Nat) (s : State) : Res := run t s fun d =>
  d.command path Ix.modCutCommit 0 2 fun d =>
    match d.cut.user with
    | some c => if c.distributed then d.alreadyDone path else (d.restage c.writes).dropActive 1
    | none => d.alreadyDone path

/-- CUT_DISCARD_STAGED (R31). -/
def execCutDiscardStaged (t path : Nat) (s : State) : Res := run t s fun d =>
  d.command path Ix.modCutCommit 0 3 fun d =>
    let d := { d with cut := { d.cut with staged := [] } }
    if d.cutWaiting then d else d.w0 Ix.modCutState 0

/-! ### Checks at the commit point (R29, R33, R76) -/

/-- Every affected island's part of the checks, on the device with the set in force; `old` is the device before it. The code of
each part that rejects follows in the error log (R33). -/
def Dev.islandChecks (d old : Dev) (l : List SWrite) (isls : List Nat) : List Nat :=
  let on (k : Nat) : Bool := isls.contains k
  let pipe := on 1 || on 2 || on 3 || on 4 || on 5
  let opt (b : Bool) (f : Unit → Option Nat) : Option Nat := if b then f () else none
  List.filterMap id [opt pipe (fun _ => d.itkCheck), opt pipe (fun _ => d.chnCheck), opt pipe (fun _ => d.speCheck l), opt pipe (fun _ => d.trgCheck old l),
    opt pipe (fun _ => d.denCheck l), opt (on 6) (fun _ => d.vpCheck old), opt (on 7) (fun _ => d.capCheck old),
    opt (on 8 || on 3 || on 5) (fun _ => d.strCheck old), d.tbCheck old,
    opt (l.any (fun w => w.ix == Ix.tbTimeSrc && w.value == 2)) (fun _ => if 1000000000 % d.sup.cycle = 0 then none else some Code.dcCycle), opt (on 0xA) (fun _ => d.imCheck), opt (on 4) (fun _ => d.cfCheck),
    opt (on 0xC) (fun _ => d.pwrCheck), opt (on 0xC) (fun _ => d.ctrCheck), opt (on 0xC) (fun _ => d.calCheck)]

/-- Links beyond the limits of rushes service: 6.4 GS/s real, 3.2 GS/s complex on sub-port 0 (Table 3.2). -/
def Dev.rushesLinks (d : Dev) : Option Nat :=
  firstCode ((List.range 4).map (fun p =>
    let q := 4 * p
    match modeRow (d.nI Ix.itkMode q) with
    | some r => if !(d.lanesOf q).isEmpty && (if r.m = 1 then 6400000000 else 3200000000) < d.linkFs q then some Code.rushesLimit else none
    | none => none))

/-- The codes that reject a set, if any do: in rushes service first what full service would reject, then its own limits (R33, R76). -/
def Dev.setCheck (d : Dev) (l : List SWrite) : List Nat :=
  let e := d.overlay l
  let isls := (l.map writeIsland).dedup
  if !d.inRushes then e.islandChecks d l isls
  else
    let nominal := (List.range 12).foldl (fun (a : Dev) i => a.wI Ix.tbIslFreq i (nominalKHz.getD i 0)) e
    let full := nominal.islandChecks d l isls
    if !full.isEmpty then full
    else if !(e.islandChecks d l isls).isEmpty then
      (e.islandChecks d l isls).map (fun c => if c = Code.toutDelay || c = Code.horizonSpread then c else Code.rushesLimit)
    else if isls.any (fun i => decide (i ≤ 5)) then e.rushesLinks.toList else []

/-- The response to a dictionary request of another module (R385): abort code, stale bit, data. -/
def Dev.fabricRespond (d : Dev) (origin seq abort : Nat) (stale : Bool) (data : List Byte) : Dev :=
  d.cfSendTo { kind := 0x42, hops := 255, origin := d.slotIdent, dest := origin, scope := 3, seq := seq
               body := leBytes 8 (abort * 2 ^ 32 + (if stale then 2 ^ 31 else 0) + data.length) ++ data }

/-- The answer to a commit written over the mailbox or by a remote module waits for the commit point (R29). -/
def Dev.commitAnswer (d : Dev) (c : Cut) (ok : Bool) : Dev :=
  let abort := if ok then 0 else 0x08000020
  if c.kind = .user && c.path = 3 && d.sup.commitFrom.isSome then
    match d.sup.commitFrom with
    | some q => { d with sup := { d.sup with commitFrom := none } }.fabricRespond q.1 q.2 abort false []
    | none => d
  else if c.kind = .user && (c.path = 1 || c.path = 3) then d.answer ⟨c.path, Ix.modCutCommit, 0, ok, 1, abort, []⟩ else d

/-- The changeover is checked as any cut is: the shadowed set, at the clocks and in the service that it leads to (R29, R81). -/
def Dev.changeoverCheck (d : Dev) : List Nat :=
  let l := d.cut.shadow
  let e := (List.range 12).foldl (fun (a : Dev) i => a.wI Ix.tbIslFreq i (nominalKHz.getD i 0)) ((d.overlay l).w0 Ix.modService 3)
  e.islandChecks d l (l.map writeIsland).dedup

/-- CUT_COMMIT_POINT: at most 2 µs after the commit T is distributed, or the whole set is rejected and stays staged (R29, R33, R81). -/
def execCutCommitPoint (t : Nat) (s : State) : Res := run t s fun d =>
  match d.activeCut with
  | none => d
  | some c =>
    if c.distributed || !d.sup.running then d
    else
      let ix := if c.kind = .changeover then Ix.modChangeover else Ix.modCutCommit
      let late := c.explicit && decide (c.due < d.soon)
      let bad := if c.kind = .user then d.setCheck c.writes else if c.kind = .changeover then d.changeoverCheck else []
      let d0 := if c.kind = .user then d.restage c.writes else d
      if late then ((d0.dropActive 4).refuse c.path ix 0 Code.cutTimePast).commitAnswer c false
      else if !bad.isEmpty then
        let d := (d0.dropActive 4).refuse c.path ix 0 Code.cutRejectedIsland
        (bad.foldl (fun (a : Dev) e => a.raise c.path e) d).commitAnswer c false
      else
        let (n, d) := d.nextCut
        let d := (d.commitAnswer c true).setActive { c with
          distributed := true, known := d.time96, seq := n, writes := c.writes ++ (if c.kind = .user then d.calExtra c.writes else []) }
        if c.kind = .changeover then d.w0 Ix.modService 2 else d

/-! ### Application (R28, R30, R82) -/

/-- What an island does with its part of a set: its writes are in force in `d`; `old` is the device before. -/
def Dev.islandCut (d old : Dev) (isl : Nat) (l : List SWrite) (first : Nat) (kind : CutKind) : Dev :=
  if isl = 1 then (((d.itkCut old l first).ddcsFollow old first).layersFollow old first).pipeReports
  else if isl = 2 then ((d.chnCut old l first).layersFollow old first).pipeReports
  else if isl = 3 then
    let d := ((d.speCut old l first (kind == .shedding)).denCut old first).speReports
    let stopped := (l.filter (fun w => w.ix == Ix.speLayerSrc && w.value == 0)).map (fun w => w.sub - 1)
    let set := (l.filter (fun w => w.ix == Ix.speLayerSrc)).map (fun w => w.sub - 1)
    let shed := d.pwr.shed.filter (fun k => !set.contains k) ++ (if kind = .shedding then stopped else [])
    let d := { d with pwr := { d.pwr with shed := shed } }
    let d := (l.filter (fun w => w.ix == Ix.speWidth)).foldl (fun (a : Dev) w =>
      a.pwrEvent 0x02 (w.sub - 1) w.value.toNat (toTwos 48 (a.rd Ix.pwrPrecFloor w.sub 0))) d
    d.setDegraded d.degradedNow
  else if isl = 4 then d.trgCut old l first
  else if isl = 5 then (d.denCut old first).claimReport
  else if isl = 6 then d.vpCut old
  else if isl = 7 then d.capCut
  else if isl = 8 then d.strCut old
  else if isl = 9 then d.tbCut old
  else if isl = 0xA then d.imCut
  else if isl = 0xB then d.cfCut
  else d.ctrCut l

/-- The changeover at an island: its point and clock are raised, the pipeline's widths are full, and the gap of every lane begins at T
(R82, R83, R446). -/
def Dev.changeoverIsland (d : Dev) (isl due : Nat) : Dev :=
  let d := if 5 < isl || d.boot.gapOpen.isSome then d else { d with boot := { d.boot with gapOpen := some due } }
  let d := if isl = 1 then (List.range 16).foldl (fun (a : Dev) q => if a.linkState q = 5 then a.openLinkGap q due 9 else a) d
    else if isl = 2 then (List.range 32).foldl (fun (a : Dev) n =>
      if a.nI Ix.chnSrc n != 0 && (a.ddc n).gapFirst.isNone then a.setDdc n { a.ddc n with gapFirst := some (due, 9) } else a) (d.w0 Ix.chnWidth d.chainWidth)
    else if isl = 3 then (List.range 4).foldl (fun (a : Dev) p => a.wI Ix.speWidth p (a.laneWidth p)) d
    else d
  let point := d.nI Ix.pwrIslTarget (isl - 1)
  let was := d.nI Ix.pwrIslPoint (isl - 1)
  if d.tb.held.contains isl then d
  else
    let d := if was = point then d else (d.wI Ix.pwrIslPoint (isl - 1) point).pwrEvent 0x01 isl point was
    if d.clockKHz isl = pointKHz isl point then d else d.relock isl (pointKHz isl point) true

/-! ### Boundaries (R28, R129, R159, R225, R496, Table 1.1) -/

/-- The first block of 256 clocks of an island's present clock that begins at or after an instant: blocks are counted from the epoch. -/
def Dev.clockBlock (d : Dev) (isl at_ : Nat) : Nat :=
  let f := d.clockKHz isl * 1000
  let start (k : Nat) : Nat := (roundEven ((k * 256 * two48 : Nat) : Int) f).toNat
  let k := at_ * f / (256 * two48)
  if f = 0 || at_ ≤ start k then at_ else start (k + 1)

/-- The first boundary of an island's own blocks at or after an instant; none where a block ends with a frame, a slot or a measurement, whose
ends are no state of the block. -/
def Dev.islandBlock (d : Dev) (isl at_ : Nat) : Option Nat :=
  if isl = 1 || isl = 4 then some (d.clockBlock isl at_)
  else if isl = 7 || isl = 9 || isl = 0xB then some (tickAt at_)
  else if isl = 6 || isl = 8 || isl = 0xA then none
  else some at_

/-- The instance whose own blocks a write waits for: a DDC, a layer, a plane (a threshold's is its plane's); 0xFF the whole island. -/
def writeUnit (w : SWrite) : Nat :=
  let isl := writeIsland w
  if isl = 2 then (if ddcEntries.contains w.ix then w.sub - 1 else 0xFF)
  else if isl = 3 then
    (if w.ix = Ix.speUserCoef then w.inst / 2 ^ 20 else if 0x3400 ≤ w.ix && w.ix < 0x340E then w.sub - 1 else 0xFF)
  else if isl = 5 then
    (if w.sub = 0 then 0xFF else if instancesOf w.ix = 16 then (w.sub - 1) / 4 else if instancesOf w.ix = 4 then w.sub - 1 else 0xFF)
  else 0xFF

/-- Where a plane's part applies: its first plane-frame boundary, or, where the same set changes its layer or binds it to another, that
layer's first new frame (R225). `e` is the device with the set in force. -/
def Dev.planeSwitch (d e : Dev) (c : Cut) (p at_ : Nat) : Nat :=
  let l := 4 * p + e.nI Ix.denLayer p
  let turned := c.writes.any (fun w => (w.ix == Ix.denLayer && w.sub == p + 1) ||
    ((w.ix == Ix.speLayerLen || w.ix == Ix.speHopShift || w.ix == Ix.speLayerSrc) && w.sub == l + 1))
  if turned && l < 4 * p + 4 && e.nI Ix.speLayerSrc l != 0 then e.frameTime l (e.frameAfter l at_)
  else
    let b := planeBefore at_ (d.nI Ix.denPeriod p)
    if b = at_ then b else planeAfter at_ (d.nI Ix.denPeriod p)

/-- The boundary that one unit of an island waits for at or after an instant. -/
def Dev.unitBlock (d : Dev) (c : Cut) (isl unit at_ : Nat) : Option Nat :=
  if unit = 0xFF then d.islandBlock isl at_
  else
    let e := d.overlay c.writes
    -- a layer that stops does so on the grid it runs on; a source without a rate has no blocks
    let l := if e.nI Ix.speLayerSrc unit = 0 then d else e
    some (max at_ (if isl = 2 then e.ddcSwitch d unit at_ else if isl = 3 then l.frameTime unit (l.frameAfter unit at_)
      else d.planeSwitch e c unit at_))

/-- The units of an island that a cut affects: those its writes name; the island as a whole where none does, or the cut is the changeover's or
a repointing's. -/
def Cut.unitsOf (c : Cut) (isl : Nat) : List Nat :=
  if c.kind = .changeover || c.kind = .repointOut || c.kind = .repointIn then [0xFF]
  else match ((c.writes.filter (fun w => writeIsland w == isl)).map writeUnit).dedup with
    | [] => [0xFF]
    | l => l

/-- Whether an island was woken since an instant. -/
def Dev.wokenSince (d : Dev) (isl at_ : Nat) : Bool :=
  match d.pwr.since.find? isl with
  | some w => d.nI Ix.pwrIslState (isl - 1) == 0 && decide (at_ ≤ d.time96At w)
  | none => false

/-- Whether a cut may take effect at a boundary after its first: samples of its instant were lost in the hod buffer, the island was off
when it came (R30, Table 1.12), or a channel of the Capture Store waits for R27. -/
def Dev.mayFollow (d : Dev) (c : Cut) (isl at_ : Nat) : Bool :=
  d.cap.hod.any (fun p => p.2.discarding) || d.out.gaps.any (fun g => g.cause == 2 && decide (g.first ≤ at_) && decide (at_ < g.until_)) ||
    d.wokenSince isl at_ || (isl == 7 && c.kind == .repointOut)

/-- The instant at or after which a cut's boundaries lie: T, or the moment it became known where that is later (R496). -/
def Cut.from_ (c : Cut) : Nat := max c.due c.known

/-- Whether a boundary is the first of a unit at or after an instant. -/
def Dev.unitHere (d : Dev) (c : Cut) (isl unit first from_ : Nat) : Bool :=
  match d.unitBlock c isl unit from_ with | some b => b == first | none => decide (from_ ≤ first)

/-- Whether a unit of an island applies the cut at a boundary. -/
def Dev.unitDue (d : Dev) (c : Cut) (isl first unit : Nat) : Bool :=
  !c.units.contains (isl, unit) && decide (c.from_ ≤ first) &&
    (d.unitHere c isl unit first c.from_ || (d.mayFollow c isl c.from_ && (d.unitHere c isl unit first first || d.wokenSince isl c.from_)))

/-- The writes that units of an island take at a cut: their part of the set; at the changeover also what the shadow holds for it (R77,
R82). -/
def Dev.cutPart (d : Dev) (c : Cut) (isl : Nat) (units : List Nat) : List SWrite :=
  (if c.kind = .changeover then d.cut.shadow.filter (fun w => writeIsland w == isl) else []) ++
    c.writes.filter (fun w => writeIsland w == isl && (c.kind == .changeover || units.contains (writeUnit w)))

/-- Units of an island take their part into force. Layers keep their setting for frames that start before T, wherever their first new frame
lies (R159). -/
def Dev.applyPartOf (d : Dev) (c : Cut) (isl first : Nat) (units : List Nat) : Dev :=
  let l := d.cutPart c isl units
  let d1 := if c.kind = .changeover then { d with cut := { d.cut with shadow := d.cut.shadow.filter (fun w => writeIsland w != isl) } } else d
  let e := d1.overlay (l.filter (fun w => w.ix != Ix.pwrIslPoint))
  let e := e.islandCut d isl l (if isl = 3 && units.all (fun u => d.unitHere c isl u first c.from_) then c.from_ else first) c.kind
  let e := if c.kind = .changeover then e.changeoverIsland isl c.due else e
  (l.filter (fun w => w.ix == Ix.pwrIslPoint)).foldl (fun (a : Dev) w => a.pointChange w.sub w.value.toNat) e

/-- What follows when every affected island has applied a cut (R30, R453, R459, R460). -/
def Dev.cutComplete (d : Dev) (c : Cut) : Dev :=
  let d := (d.w0 Ix.modCutSeq c.seq).dropActive 3
  if c.kind = .calibration then d.calCutDone
  else if c.kind = .restore then d.calRestored.calCounted
  else if c.kind = .user then d.sysrefCut c.writes
  else d

/-- A repointing cut at its island: the instance leaves service, or is back; the samples it was suspended for (R34, R488). -/
def Dev.repointCut (d : Dev) (c : Cut) (first : Nat) (m : Mem) : Nat × Mem × Dev :=
  match d.flt.repoint with
  | none => (0, m, d)
  | some r =>
    if c.kind = .repointOut then
      let d := d.suspendInst r first
      (0, m, d)
    else if c.kind = .repointIn then d.resumeInst r first m
    else (0, m, d)

/-- The cut records of units that apply a cut at a boundary (R30, Table 1.6): an island whose units have boundaries of their own writes one for
each (DEDUCED, log entry 34). -/
def Dev.cutRecords (d : Dev) (c : Cut) (isl first suspended : Nat) (units : List Nat) : Dev :=
  let whole := if c.kind = .repointOut || c.kind = .repointIn then c.inst else 0xFF
  units.foldl (fun (a : Dev) u => a.cutRecord isl (if u = 0xFF then whole else u) c.seq first a.hash48 suspended) d

/-- CUT_APPLY: an island, or the units of it whose boundary this is, applies the set at the first block boundary whose first sample is at or
after T and the moment T was known, and writes a cut record. An island that is off applies it on wake (R28, R30, R129, R225, R434, R496);
a channel of the Capture Store leaves service only as R27 allows. -/
def execCutApply (t isl first : Nat) (s : State) : Res := runMemIf (1 ≤ isl && isl ≤ 12) t s fun m d =>
  match d.activeCut with
  | none => (m, d)
  | some c =>
    let units := (c.unitsOf isl).filter (d.unitDue c isl first)
    if !c.distributed || c.applied.contains isl || !c.islands.contains isl || d.islandOff isl || units.isEmpty then (m, d)
    else if c.kind = .repointOut && isl = 7 && (d.cap.training.isSome || !d.mayStall) then (m, d.inc0 Ix.capStallDeferrals)
    else
      let (n, m, d) := d.repointCut c first m
      let d := (d.applyPartOf c isl first units).cutRecords c isl first n units
      let c := { c with units := units.map (fun u => (isl, u)) ++ c.units }
      let c := if (c.unitsOf isl).all (fun u => c.units.contains (isl, u)) then { c with applied := isl :: c.applied } else c
      let d := d.setActive c
      if !c.islands.all c.applied.contains then (m, d)
      else
        let d := d.cutComplete c
        let d := if c.kind = .repointIn then d.repointDone
          else if c.kind = .repointOut then
            match d.flt.repoint with
            | some r => if r.aborted && d.sup.running then d.rejoinCut r else d
            | none => d
          else d
        (m, d)

end Sys2Proof.Machine
end

