-- ==== Sys2Proof/Machine/Bringup.lean ====
section
/-! DEFINITION. Choosing the firmware image, bring-up steps, the changeover (03_bringup_and_rushes.md). -/

namespace Sys2Proof.Machine

/-! ### The firmware image (R73 to R75) -/

/-- Whether an image passes the boot ROM's check: neither empty nor failed, and its length, CRC-32 and signature right (R73). -/
def Dev.imageOk (d : Dev) (okA okB : Bool) (n : Nat) : Bool :=
  let st := d.nI Ix.modImageState (n - 1)
  (n = 1 || n = 2) && (st == 1 || st == 2) && (if n = 1 then okA else okB)

/-- The image `mod.boot_select` names: 0 the confirmed one, the one confirmed last of two, else the valid one of the higher version; 0 where
none is to be named (R73). -/
def Dev.imagePick (d : Dev) (okA okB : Bool) : Nat :=
  let st (n : Nat) : Nat := d.nI Ix.modImageState (n - 1)
  let ver (n : Nat) : Nat := (d.boot.images.get ({} : Image) n).version
  if d.boot.select = 1 || d.boot.select = 2 then d.boot.select
  else if st 1 = 2 && st 2 = 2 then d.boot.preferred
  else if st 1 = 2 then 1 else if st 2 = 2 then 2
  else if d.imageOk okA okB 1 && d.imageOk okA okB 2 then (if ver 1 < ver 2 then 2 else 1)
  else if d.imageOk okA okB 1 then 1 else if d.imageOk okA okB 2 then 2 else 0

/-- An image is booted; a trial image runs under the watchdog of R74. -/
def Dev.imageBoot (d : Dev) (n : Nat) : Dev :=
  let d := d.w0 Ix.modBootImage n
  { d with boot := { d.boot with trialSince := if d.nI Ix.modImageState (n - 1) = 1 then some d.now else none } }

/-- The other image is booted in place of one that failed (R73, R74). -/
def Dev.imageFallback (d : Dev) (n : Nat) : Dev := ((d.inc0 Ix.modFallbackCount).raise 4 Code.imageFallback).imageBoot n

/-- Recovery: regulators off, bypasses through (R75). -/
def Dev.recovery (d : Dev) : Dev :=
  let d := if d.hw.pwrGood then d.coreOff else d.releaseArrays
  let d := { d with hw := { d.hw with regulators := false }, boot := { d.boot with trialSince := none }, sup := { d.sup with running := false } }
  (((d.w0 Ix.modBootImage 0).w0 Ix.modService 5).w0 Ix.modBringup 0).raise 4 Code.noValidImage

/-- BOOT_IMAGE_SELECT: the boot ROM picks an image and checks it; `okA` and `okB` are whether length, CRC-32 and signature of each are right.
What takes effect at restart is taken here (R73, R75). -/
def execBootImageSelect (t : Nat) (okA okB : Bool) (s : State) : Res := run t s fun d =>
  if !d.hw.auxIn || d.hw.resetLow || d.hw.resetWritten.isSome || d.sup.running || d.sup.restarting || d.n0 Ix.modBootImage != 0 || d.service = 5 then d
  else
    let d := { d with boot := { d.boot with memtest := d.n0 Ix.modMemtest, select := d.n0 Ix.modBootSelect, autoJoin := d.n0 Ix.cfAutoJoin } }
    let d := d.inc0 Ix.modBootCount
    let n := d.imagePick okA okB
    let other := if n = 1 then 2 else 1
    if d.imageOk okA okB n then d.imageBoot n
    else if d.imageOk okA okB other then d.imageFallback other
    else d.recovery

/-- SUPERVISOR_START: the dictionary is served, stored trims are loaded and applied, the slave reaches PRE-OP; every island's microcode is
the image's (R55, R59, R70). -/
def execSupervisorStart (t : Nat) (s : State) : Res := run t s fun d =>
  if !d.hw.auxIn || d.hw.resetLow || d.sup.running || d.sup.restarting || d.n0 Ix.modBootImage = 0 || d.service = 5 then d
  else
    let d := { d with sup := { d.sup with running := true, al := if d.sup.al = AlState.init then .preop else d.sup.al } }
    let d := (d.calLoad).w0 Ix.modBringup (setBitTo (setBitTo (d.n0 Ix.modBringup) 0 true) 1 true)
    let d := d.wrAll Ix.fltMcodeVer (d.boot.images.get ({} : Image) (d.n0 Ix.modBootImage)).version 12
    if d.hw.lossFound then { (d.inc0 Ix.hwUnloggedLoss) with hw := { d.hw with lossFound := false } }.raise 4 Code.unloggedPowerLoss else d

/-- TRIAL_WATCHDOG_EXPIRY: a trial image that has not reached rushes service within 1 s is failed; the Supervisor restarts into the other
image where length, CRC-32 and signature of that are right (`ok`), or, during a switch, into the previous one (R73, R74, R491). -/
def execTrialWatchdogExpiry (t : Nat) (ok : Bool) (s : State) : Res := run t s fun d =>
  match d.boot.trialSince with
  | none => d
  | some w =>
    if d.now < w + sec then d
    else if d.n0 Ix.fltUpdateState = 2 then
      let d := { d with boot := { d.boot with trialSince := none } }
      if d.sup.restarting then d.revertMark else d.revertStart
    else if d.service != 0 then { d with boot := { d.boot with trialSince := none } }
    else
      let n := d.n0 Ix.modBootImage
      let other := if n = 1 then 2 else 1
      let d := (d.wI Ix.modImageState (n - 1) 3).inc0 Ix.modBootCount
      let d := if d.sup.running then d.supAway true else d
      let d := { d with sup := { d.sup with restarting := false } }
      if d.imageOk ok ok other then d.imageFallback other else d.recovery

/-! ### Bring-up steps (R80, R84) -/

/-- A bit of `mod.bringup`. -/
def Dev.bringBit (d : Dev) (k : Nat) (b : Bool) : Dev := d.w0 Ix.modBringup (setBitTo (d.n0 Ix.modBringup) k b)

/-- A channel that fails at bring-up is retired before the changeover (R283, Table 3.5). -/
def Dev.bringRetire (d : Dev) (c : Nat) : Dev :=
  let d := ((d.ranksLost c).wI Ix.capChanState c 4).w0 Ix.capChannels (setBitTo (d.n0 Ix.capChannels) c false)
  let d := (d.capEvent 0x04 c (mapSize (d.n0 Ix.capChannels) * 2 ^ 34) 0).fault 3 Code.channelRetired 7 c 0 0
  (d.happen (.degradation 7 [⟨Ix.capChannels, 0, 0, d.n0 Ix.capChannels⟩])).degradedBit 4 true

/-- A rank that fails at bring-up is retired to the spare; with the spare used, or failed itself where it is a second one, its channel is
retired (Table 3.5). -/
def Dev.bringRank (d : Dev) (c r : Nat) : Dev :=
  if !bitOf (d.n0 Ix.capChannels) c then d
  else if d.rankState c r = 1 then d.setRankState c r 4
  else match (List.range 5).find? (fun k => d.rankState c k == 1) with
    | some sp => d.migrationEnd c { old := r, spare := sp, cause := 3 }
    | none => d.bringRetire c

/-- Ranks named by a mask fail, in ascending order of channel and rank. -/
def Dev.bringRanks (d : Dev) (bad : Nat) : Dev :=
  ((List.range 40).filter (fun k => bitOf bad k)).foldl (fun (a : Dev) k => a.bringRank (k / 5) (k % 5)) d

/-- DRAM training ends: each channel is in service with rank 4 its spare, but for the ranks of the mask that failed, and channels all of whose
ranks did (Table 3.5). -/
def Dev.dramTrained (d : Dev) (bad : Nat) : Dev :=
  let dead (c : Nat) : Bool := bad / 2 ^ (5 * c) % 32 == 31
  let d := (List.range 8).foldl (fun (a : Dev) c =>
    if dead c then a.bringRetire c
    else ((a.wI Ix.capChanState c 1).setRankState c 4 1).w0 Ix.capChannels (setBitTo (a.n0 Ix.capChannels) c true)) d
  d.bringRanks bad

/-- Fewer than four channels: the engine stays in rushes service (Table 3.5). -/
def Dev.dramHeld (d : Dev) : Dev :=
  let d := (d.w0 Ix.capCapacity (mapSize (d.n0 Ix.capChannels) * 2 ^ 34)).freeReport
  if 4 ≤ mapSize (d.n0 Ix.capChannels) || d.boot.failed.contains 7 then d
  else
    let d := { d with boot := { d.boot with failed := 7 :: d.boot.failed } }
    (if d.service = 1 then d.w0 Ix.modService 4 else d).raise 4 Code.dramBringup

/-- What a bring-up step's failures do (Table 3.5). `bad` names lanes (step 4), root ports (5), ring ports (6), ranks (7, 9) or channels (8). -/
def Dev.stepFailures (d : Dev) (step bad : Nat) : Dev :=
  let each (n : Nat) (f : Dev → Nat → Dev) : Dev := ((List.range n).filter (fun k => bitOf bad k)).foldl f d
  if step = 4 then (List.range 64).foldl (fun (a : Dev) n => a.laneCalibrated n (!bitOf bad n)) d
  else if step = 5 then each 8 fun a n => { a with boot := { a.boot with failed := (0x100 + n) :: a.boot.failed } }.happen (.linkDown 2 n)
  else if step = 6 then each 4 fun a n =>
    let a := { a with boot := { a.boot with failed := (0x200 + n) :: a.boot.failed } }.happen (.linkDown 1 n)
    (if a.portState n = 1 then a.setPort n 5 else a).foundReport
  else if step = 7 then (d.dramTrained bad).dramHeld
  else if step = 8 then (each 8 fun a c => if bitOf (a.n0 Ix.capChannels) c then a.bringRetire c else a).dramHeld
  else if step = 9 then
    ((List.range 40).filter (fun k => bitOf bad k)).foldl (fun (a : Dev) k =>
      let spared : Bool := bitOf (a.n0 Ix.capChannels) (k / 5) && a.rankState (k / 5) (k % 5) != 1 &&
        (List.range 5).any (fun i => a.rankState (k / 5) i == 1)
      (if spared then a.raise 4 Code.memtestRank else a).bringRank (k / 5) (k % 5)) d |>.dramHeld
  else d

/-- The number under which a step is completed: the memory test replaces ECC initialisation (Table 3.3). -/
def stepKey (step : Nat) : Nat := if step = 9 then 8 else step

/-- Whether a step of this start runs and may end now: its predecessor has completed (Table 3.3). 4 converter, 5 storage, 6 ring lanes,
7 DRAM training, 8 ECC initialisation, 9 memory test, 10 monitors, 13 the copy. -/
def Dev.stepRuns (d : Dev) (step : Nat) : Bool :=
  let done (k : Nat) : Bool := d.boot.done.contains k
  d.hw.pwrGood && d.sup.running && !done (stepKey step) &&
    (if step = 4 || step = 5 || step = 6 || step = 7 then true
     else if step = 8 then d.boot.memtest == 0 && done 7 else if step = 9 then d.boot.memtest == 1 && done 7
     else if step = 10 then done 8 else step == 13 && done 10)

/-- The engine commits the changeover by itself while `mod.changeover_auto` is 1 (R81). -/
def Dev.readyCommit (d : Dev) : Dev :=
  if bitOf (d.n0 Ix.modBringup) 13 && d.n0 Ix.modChangeoverAuto = 1 && d.service = 1 && d.sup.running &&
      !d.cut.engine.any (fun c => c.kind == .changeover) then
    d.engineCut { kind := .changeover, due := d.soon }
  else d

/-- Readiness: every gating step has completed (R81). -/
def Dev.readyCheck (d : Dev) : Dev :=
  if [4, 5, 6, 7, 8, 10, 13].all d.boot.done.contains && !d.boot.failed.contains 7 && !d.boot.failed.contains 13 &&
      !bitOf (d.n0 Ix.modBringup) 13 && d.service != 4 then
    ((d.bringBit 13 true).w0 Ix.capState 1).readyCommit
  else d

/-- The power monitors are calibrated: object 0x0900 is valid from now on (R37, R462). -/
def Dev.monitorsCalibrated (d : Dev) : Dev :=
  let d := (d.wW Ix.calObjState 0x0900 1).wr Ix.calObjTemp 0 0x0900 d.dieTemp
  (d.wr Ix.calObjTime 1 0x0900 (sec48 d.time96 : Nat)).wr Ix.calObjTime 2 0x0900 (frac48 d.time96 : Nat)

/-- A step has completed, and its bit is set; one handled after its time leaves the bits of the monitors and of the memory test clear
(Table 3.5, Table 3.7). A memory test that ends with failed ranks spared counts as passed in bit 9 (DESIGN CHOICE, log entry 39). -/
def Dev.stepEnd (d : Dev) (step : Nat) (late : Bool) : Dev :=
  let d := { d with boot := { d.boot with done := stepKey step :: d.boot.done } }
  let d := if step = 13 || (late && step = 10) then d
    else if step = 8 then (d.bringBit 8 true).bringBit 9 true
    else if step = 9 then (d.bringBit 8 true).bringBit 9 (!late)
    else (if step = 10 then d.monitorsCalibrated else d).bringBit step true
  d.readyCheck

/-- BRINGUP_STEP_DONE: a step completes, with the units of `bad` failed (R80, Table 3.5). -/
def execBringupStepDone (t step bad : Nat) (s : State) : Res := run t s fun d =>
  if d.stepRuns step then (d.stepFailures step bad).stepEnd step false else d

/-- BRINGUP_TIMEOUT: a gating step not complete at P + 20 s, or P + 60 s with the memory test, is failed; `bad` names the units that are not
complete (R84, Table 3.5). -/
def execBringupTimeout (t step bad : Nat) (s : State) : Res := run t s fun d =>
  if !d.stepRuns step || d.now < d.hw.pRise + (if d.boot.memtest = 1 then 60 else 20) * sec then d
  else
    let d := d.raise 4 Code.bringupTimeout
    if step = 13 then
      let d := { d with boot := { d.boot with failed := 13 :: d.boot.failed } }
      if d.service = 1 then d.w0 Ix.modService 4 else d
    else if step = 7 || step = 9 then
      -- channels not complete are retired whole
      let ranks := ((List.range 8).filter (fun c => bitOf bad c)).foldl (fun n c => n + 31 * 2 ^ (5 * c)) 0
      (if step = 7 then d.stepFailures 7 ranks else d.stepFailures 8 bad).stepEnd step true
    else (d.stepFailures step bad).stepEnd step true

/-- FABRIC_PORT_DARK: a ring port that has not trained within 2 s of its dimension's insertion is dark for link discovery (R80). -/
def execFabricPortDark (t port : Nat) (s : State) : Res := runIf (isPort port) t s fun d =>
  match d.boot.inserted.find? (port / 2) with
  | some w =>
    if d.portState port = 1 && w + 2 * sec ≤ d.now && !d.boot.dark.contains port then
      ({ d with boot := { d.boot with dark := port :: d.boot.dark } }.happen (.linkDown 1 port)).foundReport
    else d
  | none => d

/-! ### Changeover (R81 to R83) -/

/-- MOD_CHANGEOVER (R81). -/
def execModChangeover (t path : Nat) (s : State) : Res := run t s fun d =>
  d.command path Ix.modChangeover 0 1 fun d =>
    if d.service = 2 || d.service = 3 then d.alreadyDone path
    else if d.service != 1 || !bitOf (d.n0 Ix.modBringup) 13 then d.refuse path Ix.modChangeover 0 Code.notReady
    else if d.cut.engine.any (fun c => c.kind == .changeover) then d.refuse path Ix.modChangeover 0 Code.cutBusy
    else d.engineCut { kind := .changeover, due := d.cutAt.1, explicit := d.cutAt.2, path := path }

/-- Whole milliseconds since P. -/
def Dev.msSinceP (d : Dev) (u : Nat) : Nat := (u - d.hw.pRise) * 1000 / two48

/-- A trial image that reaches full service is confirmed; the other is the fallback (R74). -/
def Dev.trialConfirm (d : Dev) : Dev :=
  let n := d.n0 Ix.modBootImage
  let d := { d with boot := { d.boot with trialSince := none } }
  if d.nI Ix.modImageState (n - 1) = 1 then { (d.wI Ix.modImageState (n - 1) 2) with boot := { d.boot with preferred := n } } else d

/-- Writes to withheld entries that came after their island had applied the changeover take effect with the first sample of full service
(R77). -/
def Dev.shadowRest (d : Dev) (first : Nat) : Dev :=
  (List.range 12).foldl (fun (a : Dev) i =>
    let mine (w : SWrite) : Bool := writeIsland w == i + 1 && withheldIx w.ix
    let l := a.cut.shadow.filter mine
    if l.isEmpty || a.islandOff (i + 1) then a
    else ({ a with cut := { a.cut with shadow := a.cut.shadow.filter (fun w => !mine w) } }.overlay l).islandCut a (i + 1) l first .changeover) d

/-- CHANGEOVER_COMPLETE: every island has applied the changeover cut and locked; `first` is the first sample under full service. Magazines,
logs, pool and backlogs move to capture memory (R82, R83). -/
def execChangeoverComplete (t first : Nat) (s : State) : Res := runMem t s fun m d =>
  if d.service != 2 || d.cut.engine.any (fun c => c.kind == .changeover) || d.tb.relocking.any (fun p => p.1 ≤ 12) ||
      d.boot.gapOpen.any (first < ·) then (m, d)
  else
    let began := match d.boot.gapOpen with | some x => d.now - (d.time96 - x) | none => d.now
    let d := { d with boot := { d.boot with gapOpen := none }, tb := { d.tb with hopsFlash := d.tb.hops } }
    let d := (((d.w0 Ix.modService 3).wTime Ix.modChangeoverSec first).wI Ix.modRushesMs 1 (d.msSinceP began)).capStart
    let (m, d) := d.poolStart m
    let (m, d) := d.takesMove m
    let d := d.ringsMove.spoolStart.drivesStart.trialConfirm
    let d := (List.range 5).foldl (fun (a : Dev) i => a.clockReport (i + 1)) d
    (m, ((d.shadowRest first).setDegraded (d.shadowRest first).degradedNow).happen .changeover)

end Sys2Proof.Machine
end

