-- ==== Sys2Proof/Machine/Compose.lean ====
section
/-! DEFINITION. What the Viewport's composer shows (09_viewport.md, R236 to R239, R245, R247, R248): the pixel of a frame at a place of the
active area, as a function of the state latched for it and of memory at the end of the frame; the CRCs of the frame, and the read-back check. -/

namespace Sys2Proof.Machine

/-- A component of 5, 6 or 8 bits widened to 10 by bit replication (R238). -/
def widen10 (w c : Nat) : Nat := c * 2 ^ (10 - w) + c / 2 ^ (2 * w - 10)

/-- A pixel to be blended: alpha at 8 bits, red, green and blue at 10 bits. -/
structure Pixel where
  alpha : Nat
  red : Nat
  green : Nat
  blue : Nat
deriving DecidableEq, Repr

/-- A 32-bit ARGB word (P32 of Table 9.2). -/
def Pixel.ofArgb (v : Nat) : Pixel :=
  ⟨bitsOf 31 24 v, widen10 8 (bitsOf 23 16 v), widen10 8 (bitsOf 15 8 v), widen10 8 (bitsOf 7 0 v)⟩

/-- A word of a buffer in a pixel format; an index looks its palette up (Table 9.2, R239). -/
def Dev.pixelOf (d : Dev) (format palette word : Nat) : Pixel :=
  if format = 1 then .ofArgb (d.rd Ix.vpPalEntry (word % 256 + 1) palette).toNat
  else if format = 2 then ⟨255, widen10 5 (bitsOf 15 11 word), widen10 6 (bitsOf 10 5 word), widen10 5 (bitsOf 4 0 word)⟩
  else if format = 3 then { Pixel.ofArgb word with alpha := 255 }
  else .ofArgb word

/-- Bytes of the pool from an offset on (R240); in rushes service the pool lies in the hod buffer (R251). -/
def Dev.poolRead (d : Dev) (m : Mem) (offset n : Nat) : List Byte :=
  match d.allocOf 0x10 0 with
  | some a => d.readAlloc a m offset n
  | none => (List.range n).map (fun k => d.vp.rushPool.get 0#8 (offset + k))

/-- The line of a buffer that row r of a layer shows: the row itself, or in roll mode the line of that age behind the head, newest at the top
(1) or at the bottom (2); none where the line is invalid, which is transparent (R245, R247). -/
def Dev.shownLine (d : Dev) (l height r : Nat) : Option Nat :=
  if d.nI Ix.vpRoll l = 0 then some r
  else
    let x := d.vp.rolls.get {} l
    let age := if d.nI Ix.vpRoll l = 1 then r else height - 1 - r
    let line := (x.head + height - age % height) % height
    if x.valid.contains line then some line else none

/-- A layer's place: the distance of a coordinate from its top left corner in buffer pixels, each shown `zoom` times; none before the corner. -/
def inLayer (corner : Int) (zoom at_ : Nat) : Option Nat :=
  if (at_ : Int) < corner then none else some (((at_ : Int) - corner).toNat / max zoom 1)

/-- The pixel that a layer has at a place of the active area, if it is shown there (R236, R237): layers 0 to 2 from their handle, layer 3 from
the cursor image of 128 × 128. -/
def Dev.layerPixel (d : Dev) (m : Mem) (l x y : Nat) : Option Pixel :=
  match inLayer (d.rd Ix.vpLayerX (l + 1) 0) (d.nI Ix.vpLayerZoomX l) x, inLayer (d.rd Ix.vpLayerY (l + 1) 0) (d.nI Ix.vpLayerZoomY l) y with
  | some px, some py =>
    if l = 3 then
      if d.n0 Ix.vpCursorOn = 1 && decide (px < 128) && decide (py < 128) then some (.ofArgb (d.rd Ix.vpCursorPixel 0 (128 * py + px)).toNat) else none
    else match d.handleEntry (d.nI Ix.vpLayerHandle l) with
      | none => none
      | some e => match d.vp.handles.find? e with
        | none => none
        | some h =>
          if h.width ≤ px || h.height ≤ py then none
          else match d.shownLine l h.height py with
            | none => none
            | some line =>
              let word := ofLeBytes (d.poolRead m (h.offset + line * h.stride + px * pixelBytes h.format) (pixelBytes h.format))
              some (d.pixelOf h.format (d.nI Ix.vpLayerPalette l) word)
  | _, _ => none

/-- round(n / 255), convergently. -/
def over255 (n : Nat) : Nat := (roundEven (n : Int) 255).toNat

/-- A layer's pixel blends over what lies beneath it, with the layer's alpha g (R238). -/
def blend (g : Nat) (src dst : Pixel) : Pixel :=
  let a := over255 (src.alpha * g)
  let mixed (s t : Nat) : Nat := over255 (a * s + (255 - a) * t)
  ⟨255, mixed src.red dst.red, mixed src.green dst.green, mixed src.blue dst.blue⟩

/-- The composed pixel at a place, at 10 bits: the background, and over it the layers from bottom to top (R236, R238). -/
def Dev.composed (d : Dev) (m : Mem) (x y : Nat) : Pixel :=
  (List.range 4).foldl (fun (dst : Pixel) l =>
    match d.layerPixel m l x y with
    | some src => blend (d.nI Ix.vpLayerAlpha l) src dst
    | none => dst) (.ofArgb (d.n0 Ix.vpBackground))

/-- A 10-bit component rounded to some bits, convergently: the inverse of the replication (R238; DEDUCED, log entry 15). -/
def toBpc (w c : Nat) : Nat := (roundEven ((c * (2 ^ w - 1) : Nat) : Int) 1023).toNat

/-- The components that leave at a place: red, green, blue at `vp.bpc` bits (R238). -/
def Dev.shownAt (d : Dev) (m : Mem) (x y : Nat) : Nat × Nat × Nat :=
  let p := d.composed m x y
  let w := d.n0 Ix.vpBpc
  (toBpc w p.red, toBpc w p.green, toBpc w p.blue)

/-- One bit of the CRC-16 of R248: x^16 + x^15 + x^2 + 1, most significant bit first. -/
def crc16Bit (crc : Nat) (b : Bool) : Nat :=
  if (crc / 2 ^ 15 % 2 == 1) != b then Nat.xor (crc * 2 % 2 ^ 16) 0x8005 else crc * 2 % 2 ^ 16

/-- A component of w bits, most significant bit first. -/
def crc16Value (w crc v : Nat) : Nat := (List.range w).foldl (fun c k => crc16Bit c (bitOf v (w - 1 - k))) crc

/-- The three CRCs that the composer's output of an active area forms, in scan order, initial value 0 (R248). -/
def Dev.frameCrcs (d : Dev) (m : Mem) (width height : Nat) : List Nat :=
  let c := (List.range height).foldl (fun (c : Nat × Nat × Nat) y =>
    (List.range width).foldl (fun (c : Nat × Nat × Nat) x =>
      let p := d.shownAt m x y
      let w := d.n0 Ix.vpBpc
      (crc16Value w c.1 p.1, crc16Value w c.2.1 p.2.1, crc16Value w c.2.2 p.2.2)) c) (0, 0, 0)
  [c.1, c.2.1, c.2.2]

/-- VP_LATCH_POINT: the end of the last active line: the frame has been sent, its CRCs are formed where the link is active, and what was committed
latches (R244, R248). -/
def execVpLatchPoint (t : Nat) (s : State) : Res := runMem t s fun m d =>
  if d.n0 Ix.vpEnable = 1 && !d.vp.latched then
    let tm := d.timing d.vp.modeNow
    let formed := if d.n0 Ix.vpLinkState = 3 then some (d.frameCrcs m tm.2.1 tm.2.2.1) else none
    (m, { d with vp := { d.vp with formed := formed } }.latch)
  else (m, d)

/-- READBACK_CHECK: the CRCs received for R, G and B of the last frame against those formed at the composer's output; aborted frames and frames
without an active link are not checked (R248). -/
def execReadbackCheck (t red green blue : Nat) (s : State) : Res := run t s fun d =>
  match d.vp.formed with
  | none => d
  | some formed =>
    let received := [red % 2 ^ 16, green % 2 ^ 16, blue % 2 ^ 16]
    let d := (List.range 3).foldl (fun (a : Dev) i => a.wI Ix.vpReadbackCrc i (received.getD i 0)) { d with vp := { d.vp with formed := none } }
    if received = formed then { d with vp := { d.vp with mismatches := 0 } }
    else
      let n := d.vp.mismatches + 1
      let d := { d with vp := { d.vp with mismatches := n } }
      let d := ((d.inc0 Ix.vpReadbackErrors).vpEvent 0x05 0 (d.n0 Ix.vpFrame) n).raise 4 Code.readbackMismatch
      if d.n0 Ix.vpReadbackAction = 1 && 3 ≤ n then { d with vp := { d.vp with mismatches := 0 } }.train else d

end Sys2Proof.Machine
end

