-- ==== Sys2Proof/Machine/Reads.lean ====
section
/-! DEFINITION. Reading the dictionary: windows, computed entries, views, what a path may read (15_object_dictionary.md, R397 to R411). -/

namespace Sys2Proof.Machine

/-! ### Windows (R398, R403) -/

/-- Entries held separately for each path (R403, Table 15.11). -/
def isPathEntry (ix : Nat) : Bool :=
  [Ix.calObjSel, Ix.cfMapSel, Ix.cfRdaIndex, Ix.chnCoefSel, Ix.ctrEventSel, Ix.dictView, Ix.dictBulkSel, Ix.dictBulkOff, Ix.dictBulkWord, Ix.dictBulkLen,
    Ix.dictDescSeg, Ix.fltLogSel, Ix.speUserIndex, Ix.speUserLayer, Ix.strReelSel, Ix.strRingSel, Ix.tbHopSel, Ix.trgBpIndex, Ix.trgBpMask,
    Ix.trgMagSel, Ix.trgTakeSel, Ix.vpCursorIndex, Ix.vpPalSel].contains ix

/-- The instance a field entry of a path acts on: the one its selector names; 0 for an entry without a window. -/
def Dev.instOf (d : Dev) (path ix : Nat) : Nat :=
  if isPathEntry ix then path
  else if isMagWindow ix then d.nW Ix.trgMagSel path
  else if 0x38A1 ≤ ix && ix ≤ 0x38A7 then d.nW Ix.trgTakeSel path % 2 ^ 28
  else if 0x4411 ≤ ix && ix ≤ 0x441F then d.nW Ix.strRingSel path
  else if 0x4461 ≤ ix && ix ≤ 0x446B then d.nW Ix.strReelSel path
  else if 0x2210 ≤ ix && ix ≤ 0x2215 then d.nW Ix.calObjSel path
  else if ix = Ix.trgBpValue then d.nW Ix.trgBpMask path * 65536 + d.nW Ix.trgBpIndex path
  else if ix = Ix.vpPalEntry then d.nW Ix.vpPalSel path
  else 0

/-! ### Long entries (R399, R411, R426) -/

/-- Decimal digits of a number. -/
def decimal : Nat → Nat → List Byte
  | 0, _ => []
  | k + 1, n => (if n < 10 then [] else decimal k (n / 10)) ++ [BitVec.ofNat 8 (48 + n % 10)]

/-- "major.minor". -/
def dotted (major minor : Nat) : List Byte := decimal 6 major ++ [46#8] ++ decimal 6 minor

/-- "LZX-4810". -/
def partName : List Byte := [0x4C#8, 0x5A#8, 0x58#8, 0x2D#8, 0x34#8, 0x38#8, 0x31#8, 0x30#8]

/-- The version of the running image: major in bits 31 to 16, minor below. -/
def Dev.imageVersion (d : Dev) : Nat := (d.boot.images.get ({} : Image) (d.n0 Ix.modBootImage)).version

/-- The file of a description, and a 512-byte segment of it: 0 ESI.XML, 1 DICT.DSC. -/
def descFile (file : Nat) : List Byte := (List.range (Config.descLength file)).map (fun i => BitVec.ofNat 8 (Config.descByte file i))
def descSegment (file seg : Nat) : List Byte :=
  (List.range (min 512 (Config.descLength file - 512 * seg))).map (fun i => BitVec.ofNat 8 (Config.descByte file (512 * seg + i)))

/-- Whether an entry is long (R399). -/
def isLong (ix sub : Nat) : Bool := let ty := typeOf ix sub; ty == 0x09 || ty == 0x0A || ty == 0x0F

/-- The value of a long entry. -/
def Dev.longValue (d : Dev) (path ix sub : Nat) : List Byte :=
  if ix = 0x1008 || (ix = 0x2000 && sub = 1) then partName
  else if ix = 0x1009 then (let v := (d.rd Ix.modHwIssue 4 0).toNat; dotted (v / 256) (v % 256))
  else if ix = 0x100A then dotted (d.imageVersion / 65536) (d.imageVersion % 65536)
  else if ix = Ix.dictDescEsi then descSegment 0 (d.nW Ix.dictDescSeg path)
  else if ix = Ix.dictDescDsc then descSegment 1 (d.nW Ix.dictDescSeg path)
  else d.long.get [] (ekey ix sub 0)

/-- Eight bytes at an offset, as the number they spell. -/
def wordAt (l : List Byte) (off : Nat) : Nat := ofLeBytes ((l.drop off).take 8)

/-- The entry a path's bulk window names. -/
def Dev.bulkTarget (d : Dev) (path : Nat) : Nat × Nat :=
  let s := d.nW Ix.dictBulkSel path
  (s / 256 % 65536, s % 256)

/-! ### Values (R402) -/

/-- Taps of the filter `chn.coef_sel` names; tap k of it, 0 beyond its end (R116). -/
def coefTaps (sel : Nat) : Nat := filterTaps sel
def coefTap (sel k : Nat) : Int := if k < coefTaps sel then filterTap sel k else 0

/-- The value in force of an entry as a path reads it; some are computed at the read. -/
def Dev.inForceAt (d : Dev) (path ix sub : Nat) : Int :=
  let sel (ix : Nat) : Nat := d.nW ix path
  if ix = Ix.tbTimeNow && sub != 0 then ((if sub = 1 then sec48 d.time96 else frac48 d.time96 : Nat) : Int)
  else if ix = Ix.tbSlewPs then d.slewLeft
  else if ix = Ix.tbHopEntry then (let s := sel Ix.tbHopSel; if s % 256 < 64 then (d.tb.hops.get 0 (64 * (s / 256) + s % 256) : Nat) else 0)
  else if ix = Ix.fltLogEntry && sub != 0 then
    match d.flt.log[sel Ix.fltLogSel]? with
    | some e => match (logSlots e)[sub - 1]? with | some p => (p.1 * two48 + p.2 : Nat) | none => 0
    | none => 0
  else if ix = Ix.modMemtest then (d.boot.memtest : Nat)
  else if ix = Ix.modBootSelect then (d.boot.select : Nat)
  else if ix = Ix.cfAutoJoin then (d.boot.autoJoin : Nat)
  else if ix = Ix.dictConfigHash then (d.hash48 : Nat)
  else if ix = Ix.dictDescRev then (Config.descRev d.imageVersion % 2 ^ 32 : Nat)
  else if ix = Ix.dictBulkLen then ((d.longValue path (d.bulkTarget path).1 (d.bulkTarget path).2).length : Nat)
  else if ix = Ix.dictBulkWord then (wordAt (d.sup.bulkRead.get [] path) (sel Ix.dictBulkOff) : Nat)
  else if ix = 0x1018 && sub = 3 then (d.imageVersion : Nat)
  else if ix = 0x1018 && sub = 4 then ((d.rd Ix.modSerial 3 0).toNat % 2 ^ 32 : Nat)
  else if ix = Ix.ctrValue then (d.ctrValue (sel Ix.ctrEventSel) : Nat)
  else if ix = Ix.ctrSnapValue then (d.snapValue (sel Ix.ctrEventSel) : Nat)
  else if ix = Ix.ctrFlags then (if d.wrapBit (selCode (sel Ix.ctrEventSel)) (selInst (sel Ix.ctrEventSel)) then 1 else 0)
  else if ix = Ix.ctrWrapSummary then (d.wrapSummary : Nat)
  else if ix = Ix.cfMapEntry then (d.mapEntry (sel Ix.cfMapSel) : Nat)
  else if ix = Ix.chnCoef then (if sub = 0 then (coefTaps (sel Ix.chnCoefSel) : Nat) else coefTap (sel Ix.chnCoefSel) (sub - 1))
  else d.rd ix sub (d.instOf path ix)

/-- What a read returns: the value in force; the shadow's for configuration of an island that is off; with `dict.view` the staged value
(R402, R405). -/
def Dev.readValue (d : Dev) (path ix sub : Nat) : Int :=
  let inst := d.instOf path ix
  match rowOf ix sub with
  | none => 0
  | some e =>
    if e.access = .wo then 0
    else
      let staged := if e.effect = .cut && d.nW Ix.dictView path = 1 then stagedValue d.cut.staged ix sub inst else none
      let shadow := if d.shadowed ix && e.access != .ro then stagedValue d.cut.shadow ix sub inst else none
      match staged, shadow with
      | some v, _ => v
      | none, some v => v
      | none, none => d.inForceAt path ix sub

/-- The bytes of an entry as a path reads it. -/
def Dev.readBytes (d : Dev) (path ix sub : Nat) : List Byte :=
  if isLong ix sub then d.longValue path ix sub
  else let n := typeBytes (typeOf ix sub); leBytes n (toTwos (8 * n) (d.readValue path ix sub))

/-! ### Live reads (R405, R412, Table 15.13) -/

/-- Whether an entry is live state of an instance that is being repointed. -/
def Dev.repointingEntry (d : Dev) (ix sub : Nat) : Bool :=
  match d.flt.repoint with
  | some r => r.out && islandOfIx ix == r.isl && (r.isl == 6 || r.isl == 8 || r.isl == 0xA || r.isl == 0xB || sub == r.inst + 1)
  | none => false

/-- Live state that is not served over SDO: of an island that is off, or of an instance being repointed. -/
def Dev.liveOff (d : Dev) (ix sub : Nat) : Bool :=
  match rowOf ix sub with
  | some e => e.access == .ro && 0 < ix / 0x2400 && (d.shadowed ix || d.repointingEntry ix sub)
  | none => false

/-- Whether a value is retained and not current: also while the island's clock is gated for a relock, or the Supervisor is away. -/
def Dev.isStale (d : Dev) (ix sub : Nat) : Bool :=
  match rowOf ix sub with
  | some e => e.access == .ro && (d.liveOff ix sub || !d.sup.running ||
      (0x2600 ≤ ix && ix < 0x5000 && d.nI Ix.tbPllState (islandOfIx ix - 1) == 3))
  | none => false

/-- Why a read over SDO or the fabric is refused: last-error code and abort code (Table 15.8); `live` where retained values are not given. -/
def Dev.readRefusal (d : Dev) (ix sub : Nat) (live : Bool) : Option (Nat × Nat) :=
  match rowOf ix sub with
  | none => if indexExists ix then some (Code.noSubentry, 0x06090011) else some (Code.noEntry, 0x06020000)
  | some e =>
    if e.access = .wo then some (Code.accessWriteOnly, 0x06010001)
    else if live && d.liveOff ix sub then some (Code.islandOff, 0x08000022)
    else none

/-- A read is served, or rejected, on a path. -/
def Dev.countRead (d : Dev) (path ix sub : Nat) (c : Option Nat) : Dev :=
  match c with
  | some c => (d.reject path c).incI Ix.dictRejections (path - 1)
  | none => let _ := (ix, sub); d.incI Ix.dictRequests (path - 1)

/-- A read of `dict.bulk_word`: eight bytes of the value as it stood when the window was last set, and the offset advances; beyond 512 it is
rejected (R411). -/
def Dev.bulkGet (d : Dev) (path : Nat) : Nat × Dev :=
  let off := d.nW Ix.dictBulkOff path
  if 512 < off + 8 then (0, d.countRead path Ix.dictBulkWord 0 (some Code.bulkRange))
  else (wordAt (d.sup.bulkRead.get [] path) off, (d.countRead path Ix.dictBulkWord 0 none).wW Ix.dictBulkOff path (off + 8))

/-- An entry is read on a path: its bytes, and the device after it. -/
def Dev.readEntry (d : Dev) (path ix sub : Nat) : List Byte × Dev :=
  if ix = Ix.dictBulkWord && sub = 0 then
    let q := d.bulkGet path
    (leBytes 8 q.1, q.2)
  else (d.readBytes path ix sub, d.countRead path ix sub none)

/-- The status word of BAR0 (Table 15.5). -/
def Dev.statusWord (d : Dev) (ix sub : Nat) : Nat :=
  match rowOf ix sub with
  | none => 4
  | some e =>
    let inst := d.instOf 2 ix
    let flag (b : Bool) (k : Nat) : Nat := if b then 2 ^ k else 0
    let waiting := match d.cut.user with | some c => c.writes | none => []
    let pending := (stagedValue (d.cut.staged ++ waiting) ix sub inst).isSome
    let len := if isLong ix sub then (d.longValue 2 ix sub).length else 0
    len % 65536 * 65536 + e.ty % 256 * 256 + flag (d.sup.rejected.contains (ekey ix sub 0)) 4 + flag (e.effect == .cut && pending) 3 +
      flag (d.shadowed ix && e.access != .ro) 1 + flag (d.isStale ix sub) 0

end Sys2Proof.Machine
end

