-- ==== Sys2Proof/Machine/Dictionary.lean ====
section
/-! DEFINITION. Writing the dictionary: checks, what a write does, command entries, long entries and the bulk window
(15_object_dictionary.md, R399 to R405, R410, R411, R417). -/

namespace Sys2Proof.Machine

/-! ### PDO mappings (R417) -/

/-- Whether a mapping word names a fixed entry that a PDO of the direction may carry, at its type length. -/
def mappable (rx : Bool) (word : Nat) : Bool :=
  match rowOf (word / 65536) (word / 256 % 256) with
  | none => false
  | some e =>
    typeBytes e.ty != 0 && word % 256 == 8 * typeBytes e.ty && e.access != .wo &&
      (!rx || (e.access == .rw && (e.effect == .now || e.effect == .cut)))

/-- The mapping words of the PDOs assigned in a direction, in their order. -/
def Dev.pdoWords (d : Dev) (rx : Bool) : List Nat :=
  let a := if rx then 0x1C12 else 0x1C13
  (List.range (d.rd a 0 0).toNat).flatMap (fun k =>
    let p := (d.rd a (k + 1) 0).toNat
    (List.range (d.rd p 0 0).toNat).map (fun j => (d.rd p (j + 1) 0).toNat))

/-- Bytes of a PDO image. -/
def pdoBytes (words : List Nat) : Nat := (words.map (fun w => w % 256)).sum / 8

/-- What is wrong with a write of a mapping or an assignment, if anything: last-error code and abort code. -/
def Dev.pdoRefusal (d : Dev) (ix sub : Nat) (v : Int) : Option (Nat × Nat) :=
  let e := d.wr ix sub 0 v
  let rx := ix < 0x1800 || ix = 0x1C12
  let bad := if ix < 0x1C00 then
      (if sub = 0 then (List.range v.toNat).any (fun j => !mappable rx (d.rd ix (j + 1) 0).toNat) else !mappable rx v.toNat)
    else if sub = 0 then (List.range v.toNat).any (fun j =>
        let p := (d.rd ix (j + 1) 0).toNat
        !(if rx then decide (0x1600 ≤ p) && decide (p < 0x1608) else decide (0x1A00 ≤ p) && decide (p < 0x1A08)))
    else !(if rx then decide (0x1600 ≤ v) && decide (v < 0x1608) else decide (0x1A00 ≤ v) && decide (v < 0x1A08))
  if sub = 0 && (if ix < 0x1C00 then 16 else 8) < v then some (Code.valueRange, 0x06090030)
  else if bad then some (Code.pdoMapping, 0x06040041)
  else if 512 < pdoBytes (e.pdoWords rx) then some (Code.pdoMapping, 0x06040042)
  else none

/-! ### Checks of a write (R399 to R401) -/

/-- Whether an RWC entry's configuration state holds (Table 15.3). -/
def Dev.rwcOpen (d : Dev) (ix : Nat) : Bool := if ix < 0x2000 then d.sup.al == .preop else d.service == 0 || d.service == 1

/-- An entry that has a range of its own beside the bounds of its row: the code of the refusal. -/
def ownRange (ix sub : Nat) (v : Int) : Option Nat :=
  let n := v.toNat
  let source : Bool := n == 0 || (0x10 ≤ n && n < 0x40)
  let orNone (k : Nat) : Bool := n < k || n == 0xFF
  let bad (b : Bool) (c : Nat) : Option Nat := if b then some c else none
  if ix = 0x1003 then bad (v != 0) Code.valueRange
  else if ix = Ix.dictBulkOff then (if 512 < n then some Code.bulkRange else bad (n % 8 != 0) Code.valueRange)
  else if ix = Ix.dictBulkLen then bad (decide (512 < n)) Code.bulkRange
  else if ix = Ix.ctrEventSel || ix = Ix.ctrSmpEvent then bad (!selNames n) Code.ctrEvent
  else if ix = Ix.ctrSnapPeriod then bad (n != 0 && !(100 ≤ n && n ≤ 3600000000)) Code.valueRange
  else if ix = Ix.calObjSel then bad (!isCalObj n) Code.calObject
  else if ix = Ix.capHashCh then bad (n % 2 ^ 15 != 0 || 2 ^ 37 ≤ n) Code.hashMask
  else if ix = Ix.capHashBank then bad (n % 2 ^ 21 != 0 || 2 ^ 37 ≤ n) Code.hashMask
  else if ix = Ix.strVolUnitKib then bad (!(isPow2 n && 256 ≤ n && n ≤ 16384)) Code.valueRange
  else if ix = Ix.strRingVector then bad (2048 ≤ n && n != 0xFFFF) Code.valueRange
  else if ix = Ix.speLayerSrc then bad (!(n ≤ 1 || (0x20 + 8 * ((sub - 1) / 4) ≤ n && n < 0x28 + 8 * ((sub - 1) / 4)))) Code.layerSource
  else if ix = Ix.speLayerLen then bad (!isPow2 n) Code.layerLen
  else if ix = Ix.denCols then bad (!(isPow2 n && 64 ≤ n && n ≤ 4096)) Code.denGeometry
  else if ix = Ix.denRows then bad (!(n % 16 == 0 && 16 ≤ n && n ≤ 1024)) Code.denGeometry
  else if ix = Ix.denLayer then bad (!orNone 4) Code.valueRange
  else if ix = Ix.denVpLayer then bad (!orNone 3) Code.valueRange
  else if ix = Ix.trgCondType then bad (!(n ≤ 6 || n == 0x10 || n == 0x11 || n == 0x20 || n == 0x21 || n == 0x30 || n == 0x31)) Code.condType
  else if ix = Ix.trgMaskLayer then bad (n != 0xFF && n / 4 != (sub - 1) / 16) Code.maskLayer
  else if ix = Ix.trgChainBcast then bad (256 ≤ n && n < 0xFFFF) Code.cfBcastId
  else if ix = Ix.trgMagChain || ix = Ix.trgToutSrc || ix = Ix.ctrSnapChain then bad (!orNone 16) Code.valueRange
  else if ix = Ix.trgMagChan || ix = Ix.capCsSrc || ix = Ix.strReelSrc then bad (!source) Code.valueRange
  else if ix = Ix.imStartSrc || ix = Ix.imStopSrc then bad (!(n == 0 || (0x10 ≤ n && n < 0x2F))) Code.imSource
  else if ix = Ix.imInThreshold then bad (8 < sub) Code.inParam
  else none

/-- A check against the present state: ring contexts of open rings, reels that exist, handles (R290, R306, R236 to R253). -/
def Dev.stateRefusal (d : Dev) (path ix sub : Nat) (v : Int) : Option Nat :=
  if 0x4411 ≤ ix && ix ≤ 0x4419 && d.ringState (d.nW Ix.strRingSel path) != 0 then some Code.ringOpen
  else if 0x4461 ≤ ix && ix ≤ 0x4464 && d.nW Ix.strReelState (d.nW Ix.strReelSel path) != 0 then some Code.reelState
  else if ix = Ix.calCommonLag && v != 0 && d.cal.lags.any (fun p => decide (v * 1000 < p.2)) then some Code.calLag
  else d.vpWriteCheck ix sub v

/-- Why a write is refused on a path, if it is: last-error code and SDO abort code (Table 15.8). -/
def Dev.writeRefusal (d : Dev) (path ix sub : Nat) (v : Int) : Option (Nat × Nat) :=
  match rowOf ix sub with
  | none => if indexExists ix then some (Code.noSubentry, 0x06090011) else some (Code.noEntry, 0x06020000)
  | some e =>
    if e.access = .ro then some (Code.accessReadOnly, 0x06010002)
    else if typeBytes e.ty = 0 then some (Code.typeLength, 0x06070010)
    else if e.access = .rwc && !d.rwcOpen ix then
      some (if ix = Ix.capHashCh || ix = Ix.capHashBank then Code.hashLocked else Code.rwcLocked, 0x08000022)
    else if ix < 0x3100 && 0x3000 ≤ ix && sub = 33 then some (Code.sourceInvalid, 0x08000020)
    else match ownRange ix sub v with
      | some c => some (c, 0x06090030)
      | none =>
        if v < e.min || e.max < v then some (e.rangeCode, 0x06090030)
        else if ix = 0x1C32 || ix = 0x1C33 then (if sub = 1 && v != 0 && v != 2 then some (Code.valueRange, 0x06090030) else none)
        else if 0x1600 ≤ ix && ix < 0x2000 then d.pdoRefusal ix sub v
        else (d.stateRefusal path ix sub v).map (fun c => (c, 0x08000020))

/-! ### What a write does (R401, R403, R405) -/

/-- The error history is cleared (R421). -/
def Dev.historyClear (d : Dev) : Dev := ((List.range 16).foldl (fun (a : Dev) k => a.wr 0x1003 (k + 1) 0 0) d).wr 0x1003 0 0 0

/-- The bulk window of a path takes the present value of the entry it names (R411). -/
def Dev.bulkRefresh (d : Dev) (path : Nat) : Dev :=
  let e := d.bulkTarget path
  { d with sup := { d.sup with bulkRead := d.sup.bulkRead.set [] path (d.readBytes path e.1 e.2) } }

/-- What follows when an entry has taken a value at once. -/
def Dev.effectNow (d : Dev) (path ix sub : Nat) : Dev :=
  let on : Bool := d.rd ix sub 0 == 1
  if ix = 0x1003 then d.historyClear
  else if ix = Ix.hwBypassForce && on then d.forceArray (sub - 1)
  else if ix = Ix.modChangeoverAuto then d.readyCommit
  else if ix = Ix.itkRelink && !on && d.linkState (sub - 1) = 6 then d.linkEnter (sub - 1) 7
  else if ix = Ix.calTrimCode then d.trimWritten (sub - 1)
  else if ix = Ix.imChanEnable && on then d.imEnable (sub - 1)
  else if ix = Ix.dictBulkSel || ix = Ix.dictBulkOff then d.bulkRefresh path
  else d

/-- A write that passed its checks: into the staged set, the Viewport's set or the shadow, or in force at once. -/
def Dev.entryApply (d : Dev) (path ix sub : Nat) (v : Int) : Dev :=
  match rowOf ix sub with
  | none => d
  | some e =>
    let inst := d.instOf path ix
    let w : SWrite := ⟨ix, sub, inst, normTy e.ty v⟩
    match e.effect with
    | .cut => if !d.fullService && withheldIx ix then d.shadow w else d.stage w
    | .commit => d.vpStage w
    | .changeover => d.shadow w
    | _ =>
      if d.shadowed ix && !isPathEntry ix then d.shadow w
      else if ix = Ix.strRingCi then d.doorbell path inst v.toNat
      else (d.wr ix sub inst v).effectNow path ix sub

/-! ### Command entries -/

/-- What a write of a command entry does, for the entries that are commands of their own; `o` carries what the outside decides
(log entry 3). -/
def entryCommand (t path ix sub : Nat) (v : Int) (o : Outside) (s : State) : Option Res :=
  let n := v.toNat
  let k := sub - 1
  if ix = Ix.modCutCommit then some (if n = 1 then execCutCommit t path s else if n = 2 then execCutAbort t path s else execCutDiscardStaged t path s)
  else if ix = Ix.hwRestart then some (execHwRestart t path s)
  else if ix = Ix.hwBypassForce && n = 1 then some (execHwBypassForce t path k s)
  else if ix = Ix.modChangeover then some (execModChangeover t path s)
  else if ix = Ix.modReset then some (execModReset t path s)
  else if ix = Ix.pwrSleep then some (execPwrSleep t path o.wake s)
  else if ix = Ix.calCmd then
    some (if n = 1 then execCalCalibrate t path s else if n = 2 then execCalAbort t path s else if n = 3 then execCalSave t path o.flag s
      else execCalRestore t path s)
  else if ix = Ix.fltRepoint then some (if n = 0xFFFF then execFltRepointAbort t path s else execFltRepoint t path n s)
  else if ix = Ix.fltImgCmd then
    some (if n = 1 then execImgAllocateStaging t path s else if n = 2 then execImgInstall t path o.version o.requires o.flag s
      else if n = 3 then execImgSwitch t path s else execImgAbortSwitch t path s)
  else if ix = Ix.fltLogClear then some (execFltLogClear t path s)
  else if ix = Ix.tbSysrefFire then some (execSysrefFire t path k s)
  else if ix = Ix.tbTimeSetCmd then some (if n = 1 then execTimeSetAtPps t path s else execTimeSetAtSecond t path s)
  else if ix = Ix.imChanEnable && n = 0 then some (execImChanDisable t path k s)
  else if ix = Ix.imCmd then some (if n = 1 then execImArm t path k s else if n = 2 then execImAbort t path k s else execImClear t path k s)
  else if ix = Ix.chnRepoint then some (if n = 0xFF then execChnRepointAbort t path s else execChnRepoint t path n s)
  else if ix = Ix.speRepoint then some (if n = 0xFF then execSpeRepointAbort t path s else execSpeRepoint t path n s)
  else if ix = Ix.speUserCoef then some (execSpeUserCoef t path v s)
  else if ix = Ix.trgCondSoft then some (execTrgCondSoft t path n s)
  else if ix = Ix.trgMaskCmd then some (if n = 1 then execMaskRestart t path k s else execMaskClearCounts t path k s)
  else if ix = Ix.trgBpValue then some (execTrgBpValue t path n s)
  else if ix = Ix.trgMagCmd then
    some (if n = 1 then execMagArm t path s else if n = 2 then execMagDisarm t path s else if n = 3 then execMagFree t path s
      else if n = 4 then execMagForceTrigger t path s else execMagClear t path s)
  else if ix = Ix.capCsCmd then some (if n = 1 then execCsStart t path k s else if n = 2 then execCsStop t path k s else execCsFree t path k s)
  else if ix = Ix.strRingCmd then
    some (if n = 1 then execRingOpen t path s else if n = 2 then execRingClose t path s else if n = 3 then execRingPause t path s
      else execRingResume t path s)
  else if ix = Ix.strDriveCmd then
    (if n % 256 = 1 then some (execDriveDetach t path (n / 256) s) else if n % 256 = 2 then some (execDriveAttachCmd t path (n / 256) s)
      else some (run t s fun d => d.refuse path ix 0 Code.valueRange))
  else if ix = Ix.strVolCmd then
    some (if n = 1 then execVolFormat t path s else if n = 2 then execVolMount t path o.found s else execVolUnmount t path s)
  else if ix = Ix.strReelCmd then
    some (if n = 1 then execReelOpen t path s else if n = 2 then execReelStart t path s else if n = 3 then execReelClose t path s
      else execReelDelete t path s)
  else if ix = Ix.strPbCmd then some (if n = 1 then execPbStart t path k s else execPbStop t path k s)
  else if ix = Ix.cfCmd then
    some (if n = 1 then execCfJoin t path s else if n = 2 then execCfLeave t path s else if n = 3 then execCfPrepareSlot t path s
      else execCfReleaseSlot t path s)
  else if ix = Ix.cfRdaCmd then some (if n = 1 then execRdaRead t path s else execRdaWrite t path s)
  else if ix = Ix.cfCopyCmd then some (if n = 1 then execCopyStart t path s else execCopyAbort t path s)
  else if ix = Ix.vpEnable then some (execVpEnable t path n s)
  else if ix = Ix.vpCommit then some (execVpCommit t path n s)
  else if ix = Ix.vpAllocCmd then some (if n = 1 then execVpAlloc t path s else execVpFreeRequest t path s)
  else if ix = Ix.vpCursorPixel then some (execVpCursorPixel t path n s)
  else if ix = Ix.ctrFlags && n = 1 then some (execCtrFlagsClear t path s)
  else if ix = Ix.ctrFreeze then some (if n = 1 then execCtrFreeze t path s else execCtrRelease t path s)
  else if ix = Ix.ctrSnapCmd then some (execCtrSnapCmd t path s)
  else none

/-! ### One write (R404, R412, R424) -/

/-- A write of a fixed entry outside the bulk window. -/
def plainWrite (t path ix sub : Nat) (v : Int) (o : Outside) (s : State) : Res :=
  let d := s.dev.at t
  if !d.sup.running || !d.pathOpen path then run t s fun d => d.command path ix sub v id
  else match d.writeRefusal path ix sub v with
    | some e => run t s fun d => d.refuse path ix sub e.1
    | none =>
      -- a setting of an island without power waits in the shadow
      let shadowed := !d.hw.pwrGood && d.shadowed ix && (rowOf ix sub).any (fun e => e.access == .rw && e.effect != .cut)
      match (if shadowed then none else entryCommand t path ix sub v o s) with
      | some r => r
      | none => run t s fun d => d.command path ix sub v fun d => d.entryApply path ix sub v

/-- A write of a long entry (R399). -/
def longWrite (t path ix sub : Nat) (bytes : List Byte) (s : State) : Res := run t s fun d =>
  d.command path ix sub 0 fun d =>
    match rowOf ix sub with
    | none => d.refuse path ix sub (if indexExists ix then Code.noSubentry else Code.noEntry)
    | some e =>
      if e.access = .ro then d.refuse path ix sub Code.accessReadOnly
      else if 512 < bytes.length then d.refuse path ix sub Code.typeLength
      else { d with long := d.long.set [] (ekey ix sub 0) bytes }

/-- The number that the bytes of a fixed entry spell. -/
def fixedValue (ty : Nat) (bytes : List Byte) : Int :=
  if typeSigned ty then ofTwos (8 * typeBytes ty) (ofLeBytes bytes) else (ofLeBytes bytes : Nat)

/-- A write of bytes whose length must be that of the type (R399), into an entry outside the bulk window. -/
def plainBytes (t path ix sub : Nat) (bytes : List Byte) (o : Outside) (s : State) : Res :=
  let ty := typeOf ix sub
  if typeBytes ty = 0 then longWrite t path ix sub bytes s
  else if bytes.length != typeBytes ty then run t s fun d => d.command path ix sub 0 fun d => d.refuse path ix sub Code.typeLength
  else plainWrite t path ix sub (fixedValue ty bytes) o s

/-! ### The bulk window (R411) -/

/-- Eight bytes placed at an offset of a string, zeros between. -/
def placeWord (l : List Byte) (off v : Nat) : List Byte :=
  (l ++ List.replicate (off - l.length) 0#8).take off ++ leBytes 8 v ++ l.drop (off + 8)

/-- A write of `dict.bulk_word`: eight bytes are assembled at the offset, which advances; beyond 512 it is rejected. -/
def Dev.bulkPut (d : Dev) (path v : Nat) : Dev :=
  let off := d.nW Ix.dictBulkOff path
  if 512 < off + 8 then d.refuse path Ix.dictBulkWord 0 Code.bulkRange
  else
    let l := placeWord (d.sup.bulk.get [] path) off v
    { d with sup := { d.sup with bulk := d.sup.bulk.set [] path l } }.wW Ix.dictBulkOff path (off + 8)

/-- The first so many bytes a path has assembled, zeros where it wrote none. -/
def Dev.bulkBytes (d : Dev) (path n : Nat) : List Byte :=
  let l := (d.sup.bulk.get [] path).take n
  l ++ List.replicate (n - l.length) 0#8

/-- A write of `dict.bulk_len`: the assembled bytes go as one write to the entry the path's window names. -/
def bulkSubmit (t path n : Nat) (o : Outside) (s : State) : Res :=
  let d := s.dev.at t
  if !d.sup.running || !d.pathOpen path then run t s fun d => d.command path Ix.dictBulkLen 0 n id
  else if 512 < n then run t s fun d => d.refuse path Ix.dictBulkLen 0 Code.bulkRange
  else plainBytes t path (d.bulkTarget path).1 (d.bulkTarget path).2 (d.bulkBytes path n) o s

/-! ### Any write -/

/-- A write of a fixed entry. -/
def writeAny (t path ix sub : Nat) (v : Int) (o : Outside) (s : State) : Res :=
  if ix = Ix.dictBulkWord && sub = 0 then run t s fun d => d.command path ix sub v fun d => d.bulkPut path v.toNat
  else if ix = Ix.dictBulkLen && sub = 0 then bulkSubmit t path v.toNat o s
  else plainWrite t path ix sub v o s

/-- A write of bytes. -/
def writeBytes (t path ix sub : Nat) (bytes : List Byte) (o : Outside) (s : State) : Res :=
  if (ix = Ix.dictBulkWord || ix = Ix.dictBulkLen) && sub = 0 && bytes.length = typeBytes (typeOf ix sub) then
    writeAny t path ix sub (ofLeBytes bytes : Nat) o s
  else plainBytes t path ix sub bytes o s

/-- The abort code of a write's outcome, 0 where it was served: `d` is the device before it (Table 15.8). -/
def Dev.writeAbort (d after : Dev) (path ix sub : Nat) (bytes : List Byte) : Nat :=
  let ty := typeOf ix sub
  if !d.sup.running then 0x08000022
  else if !d.pathOpen path then 0x08000021
  else if after.rejectionsOf path == d.rejectionsOf path then 0
  else match rowOf ix sub with
    | none => if indexExists ix then 0x06090011 else 0x06020000
    | some e =>
      if e.access = .ro then 0x06010002
      else if (typeBytes ty = 0 && 512 < bytes.length) || (typeBytes ty != 0 && bytes.length != typeBytes ty) then 0x06070010
      else match d.writeRefusal path ix sub (fixedValue ty bytes) with
        | some x => x.2
        | none => 0x08000020

/-- ENTRY_WRITE: a write of an entry on a path (R12, R32, R401 to R405). -/
def execEntryWrite (t path ix sub : Nat) (v : Int) (o : Outside) (s : State) : Res := writeAny t path ix sub v o s

/-- A second meaning after the first. -/
def andThen (r : Res) (f : State → Res) : Res :=
  match r with
  | .next s => f s
  | .fault e => .fault e
  | .refused e => .refused e

end Sys2Proof.Machine
end

