-- ==== Sys2Proof/Machine/Field.lean ====
section
/-! DEFINITION. The paths to the dictionary: mailbox, PDOs, emergencies, files, the PCIe mirror, other modules
(15_object_dictionary.md, R385, R410 to R424). -/

namespace Sys2Proof.Machine

/-! ### SDO (R416) -/

/-- Whether the slave's mailbox carries CoE (Table 15.7). -/
def Dev.mailbox (d : Dev) : Bool := d.sup.al == .preop || d.sup.al == .safeop || d.sup.al == .op

/-- An SDO ends with an abort: the code is placed in path 1. -/
def Dev.sdoAbort (d : Dev) (ix sub code abort : Nat) : Dev := (d.countRead 1 ix sub (some code)).answer ⟨1, ix, sub, false, 0, abort, []⟩

/-- The subindices that complete access transfers: 0 or 1 onward (R416). -/
def completeSubs (ix sub : Nat) : List Nat := (List.range (instancesOf ix + 1)).filter (fun k => decide (min sub 1 ≤ k))

/-- Subentries are read in their order, up to the first that cannot be: it, its code and abort code. -/
def Dev.readAll (path ix : Nat) : List Nat → List Byte → Dev → Dev × Sum (List Byte) (Nat × Nat × Nat)
  | [], l, d => (d, .inl l)
  | k :: ks, l, d =>
    match d.readRefusal ix k true with
    | some c => (d, .inr (k, c.1, c.2))
    | none => let q := d.readEntry path ix k; Dev.readAll path ix ks (l ++ q.1) q.2

/-- SDO_UPLOAD: an entry, or with complete access an entry and its instances (R416). -/
def execSdoUpload (t ix sub : Nat) (complete : Bool) (s : State) : Res := run t s fun d =>
  if !d.mailbox then d
  else if !d.sup.running then d.sdoAbort ix sub Code.supervisorRestart 0x08000022
  else
    let q := Dev.readAll 1 ix (if complete then completeSubs ix sub else [sub]) [] d
    match q.2 with
    | .inl l => q.1.answer ⟨1, ix, sub, true, if complete || isLong ix sub then 0 else d.readValue 1 ix sub, 0, l⟩
    | .inr e => q.1.sdoAbort ix e.1 e.2.1 e.2.2

/-- The answer to an SDO download: a commit is answered at its commit point (R29). -/
def Dev.sdoDone (d before : Dev) (ix sub : Nat) (bytes : List Byte) : Dev :=
  let c := before.writeAbort d 1 ix sub bytes
  if ix = Ix.modCutCommit && c = 0 && bytes == [1#8] then d else d.answer ⟨1, ix, sub, c == 0, 0, c, []⟩

/-- Subentries are written in their order, up to the first that is rejected. -/
def sdoWrites (t ix : Nat) (o : Outside) : List Nat → List Byte → State → Res
  | [], _, s => .next { s with dev := s.dev.answer ⟨1, ix, 0, true, 0, 0, []⟩ }
  | k :: ks, l, s =>
    let n := typeBytes (typeOf ix k)
    andThen (writeBytes t 1 ix k (l.take n) o s) fun e =>
      if (s.dev.at t).writeAbort e.dev 1 ix k (l.take n) = 0 then sdoWrites t ix o ks (l.drop n) e
      else .next { e with dev := e.dev.sdoDone (s.dev.at t) ix k (l.take n) }

/-- SDO_DOWNLOAD: an SDO download wakes a sleeping module too (R416, Table 16.2). Complete access skips the count, which is read only. -/
def execSdoDownload (t ix sub : Nat) (complete : Bool) (data : List Byte) (o : Outside) (s : State) : Res :=
  let d := s.dev.at t
  if !d.mailbox then run t s id
  else
    let s1 := { s with dev := d.wake 1 }
    if complete then
      let subs := completeSubs ix sub
      let counted := subs.head? = some 0 && (rowOf ix 0).any (fun e => e.access == .ro) && 1 < subs.length
      sdoWrites t ix o (if counted then subs.tail else subs) (if counted then data.tail else data) s1
    else andThen (writeBytes t 1 ix sub data o s1) fun e => .next { e with dev := e.dev.sdoDone s1.dev ix sub data }

/-- The bytes of a name. -/
def nameBytes (n : String) : List Byte := n.toList.map (fun c => BitVec.ofNat 8 c.toNat)

/-- SDO_INFO: 1 the list of indices, 2 the description of an object (type, highest subindex, name), 3 that of an entry (type, bits, access,
name); other services are no part of R416 (log entry 40). -/
def execSdoInfo (t kind ix sub : Nat) (s : State) : Res := run t s fun d =>
  if !d.mailbox then d
  else if !d.sup.running then d.sdoAbort ix sub Code.supervisorRestart 0x08000022
  else if kind = 1 then (d.countRead 1 ix sub none).answer ⟨1, 0, 0, true, 0, 0, ((allRows.map (fun e => e.ix)).dedup).flatMap (leBytes 2)⟩
  else if !indexExists ix then d.sdoAbort ix sub Code.noEntry 0x06020000
  else if kind = 2 then
    let name := match (rowsOf (ix / 256)).find? (fun e => e.ix == ix) with | some e => nameBytes e.name | none => []
    (d.countRead 1 ix sub none).answer ⟨1, ix, 0, true, 0, 0, leBytes 2 (typeOf ix (min 1 (instancesOf ix))) ++ leBytes 1 (instancesOf ix) ++ name⟩
  else match rowOf ix sub with
    | none => d.sdoAbort ix sub Code.noSubentry 0x06090011
    | some e =>
      let access := match e.access with | .ro => 0 | .rw => 1 | .wo => 2 | .rwc => 3
      (d.countRead 1 ix sub none).answer
        ⟨1, ix, sub, true, 0, 0, leBytes 2 e.ty ++ leBytes 2 (8 * typeBytes e.ty) ++ leBytes 1 access ++ nameBytes e.name⟩

/-! ### States of the slave (R415, R418, R423) -/

/-- A transition is refused: its AL status code, the state stays, the error indicator is set. -/
def Dev.alRefuse (d : Dev) (status : Nat) : Dev := { d with sup := { d.sup with alStatus := status, alError := true } }

/-- A transition is made. -/
def Dev.alEnter (d : Dev) (st : AlState) : Dev := { d with sup := { d.sup with al := st, alStatus := 0, alError := false, rxAt := d.now } }

/-- Why SAFE-OP is refused: lengths of SM2 and SM3, cycle times (Table 15.7, R418). -/
def Dev.safeopRefusal (d : Dev) (sm2 sm3 : Nat) : Option Nat :=
  let cycle (ix : Nat) : Nat := (d.rd ix 2 0).toNat
  let ok (c : Nat) : Bool := decide (250000 ≤ c) && decide (c ≤ 100000000)
  if sm2 != pdoBytes (d.pdoWords true) then some 0x001D
  else if sm3 != pdoBytes (d.pdoWords false) then some 0x001E
  else if !ok (cycle 0x1C32) || !ok (cycle 0x1C33) then some 0x0035
  else none

/-- PRE-OP to SAFE-OP: mappings, assignments and the cycle come into force; a cycle that does not divide 1 s stops DC time (R401, R423). -/
def Dev.safeopEnter (d : Dev) : Dev :=
  let d := { d with sup := { d.sup with
    rxMap := d.pdoWords true, txMap := d.pdoWords false, rxLast := [], txImage := [], cycle := (d.rd 0x1C32 2 0).toNat } }
  let d := if d.timeSource = 2 && 1000000000 % d.sup.cycle != 0 then d.timeState 2 5 else d
  d.alEnter .safeop

/-- ECAT_STATE_REQUEST: the master requests INIT (1), PRE-OP (2), BOOT (3), SAFE-OP (4) or OP (8), with the lengths of SM2 and SM3
(Table 15.7). -/
def execEcatStateRequest (t state sm2 sm3 : Nat) (s : State) : Res := run t s fun d =>
  let d := if state = 4 || state = 8 then d.wake 1 else d
  if d.sup.al = .away then d
  else if d.service = 5 then (if state = 3 then d.alEnter .boot else d.alRefuse 0x0011)
  else if state = 1 then d.alEnter .init
  else if state = 3 || !(state = 2 || state = 4 || state = 8) then d.alRefuse 0x0011
  else if (state = 4 || state = 8) && d.service = 0 then d.alRefuse 0x8001
  else if !d.sup.running then d.alRefuse 0x8002
  else if state = 2 then d.alEnter .preop
  else if state = 4 then
    if d.sup.al = .op || d.sup.al = .safeop then d.alEnter .safeop
    else if d.sup.al != .preop then d.alRefuse 0x0011
    else match d.safeopRefusal sm2 sm3 with
      | some c => d.alRefuse c
      | none => d.safeopEnter
  else if d.sup.al = .safeop || d.sup.al = .op then d.alEnter .op
  else d.alRefuse 0x0011

/-! ### PDOs (R417 to R419) -/

/-- The RxPDO values of one cycle are applied in mapping order; an entry that takes effect at a cut is written only when its value differs
from the previous cycle's (R418). -/
def pdoApply (t : Nat) : List Nat → List Byte → State → Res
  | [], _, s => .next s
  | w :: ws, l, s =>
    let ix := w / 65536
    let sub := w / 256 % 256
    let n := w % 256 / 8
    let v := fixedValue (typeOf ix sub) (l.take n)
    let key := ekey ix sub 0
    let held := (rowOf ix sub).any (fun e => e.effect == .cut) && s.dev.sup.rxLast.find? key == some v
    let d := s.dev
    let s1 := { s with dev := { d with sup := { d.sup with rxLast := d.sup.rxLast.put key v } } }
    if held then pdoApply t ws (l.drop n) s1
    else andThen (writeAny t 1 ix sub v {} s1) (pdoApply t ws (l.drop n))

/-- The TxPDO values of one cycle, from one instant. -/
def Dev.txLatch (d : Dev) : Dev :=
  let q := d.sup.txMap.foldl (fun (p : List Int × Dev) w =>
    let ix := w / 65536
    let sub := w / 256 % 256
    if ix = Ix.dictBulkWord then (let g := p.2.bulkGet 1; (p.1 ++ [(g.1 : Int)], g.2)) else (p.1 ++ [p.2.readValue 1 ix sub], p.2)) ([], d)
  { q.2 with sup := { q.2.sup with txImage := q.1 } }

/-- PDO_CYCLE: `rx` where the SM2 buffer is written, `tx` where the SM3 buffer is read; in DC mode SYNC0, with what the SM2 buffer holds, does
both (R418). -/
def execPdoCycle (t : Nat) (rx tx : Bool) (outputs : List Byte) (s : State) : Res :=
  let d := s.dev.at t
  let dc : Bool := d.rd 0x1C32 1 0 == 2
  let rx := rx || dc
  let tx := tx || dc
  let d := if rx && d.mailbox then d.wake 1 else d
  let d := if rx then { d with sup := { d.sup with rxAt := d.now } } else d
  let d := if tx && (d.sup.al == .safeop || d.sup.al == .op) then d.txLatch else d
  let s1 := { s with dev := d }
  if rx && d.sup.al == .op && outputs.length == pdoBytes d.sup.rxMap then pdoApply t d.sup.rxMap outputs s1 else .next s1

/-- SM2_WATCHDOG: in OP, 100 ms after the SM2 buffer was written last, the slave drops to SAFE-OP; applied values stay (R419). -/
def execSm2Watchdog (t : Nat) (s : State) : Res := run t s fun d =>
  if d.sup.al = .op && decide (d.sup.rxAt + ms 100 ≤ d.now) then { d with sup := { d.sup with al := .safeop, alStatus := 0x001B, alError := true } } else d

/-! ### Emergencies (R420, R421) -/

/-- EMERGENCY_SEND: one emergency leaves, at most one per 1 ms, while the mailbox is open. -/
def execEmergencySend (t : Nat) (s : State) : Res := run t s fun d =>
  let pause : Bool := match d.sup.lastSent with | some w => decide (d.now < w + ms 1) | none => false
  match d.sup.emergencies with
  | [] => d
  | e :: rest =>
    if pause || !d.mailbox || !d.sup.running then d
    else { d with sup := { d.sup with emergencies := rest, sent := d.sup.sent ++ [e], lastSent := some d.now } }

/-- ERROR_HISTORY_CLEAR: 0 written to 0x1003.0. -/
def execErrorHistoryClear (t path : Nat) (s : State) : Res := run t s fun d => d.command path 0x1003 0 0 fun d => d.historyClear

/-- Bits of 0x1001 whose condition is over and 10 s old. -/
def Dev.errorOver (d : Dev) (k : Nat) : Bool :=
  let held := k = 3 && (d.hw.throttling || !d.cap.over95.isEmpty)
  bitOf (d.n0 0x1001) k && !held && (match d.sup.errSince.find? k with | some w => decide (w + 10 * sec ≤ d.now) | none => true)

/-- ERROR_REGISTER_EXPIRY: bits clear 10 s after their last fault or condition; when the register returns to 0 an emergency of code 0 is
sent (R420, R421). -/
def execErrorRegisterExpiry (t : Nat) (s : State) : Res := run t s fun d =>
  let was := d.n0 0x1001
  let bits := [2, 3, 4, 7].foldl (fun n k => if d.errorOver k then setBitTo n k false else n) was
  let d := d.w0 0x1001 (errorReg bits)
  if was != 0 && errorReg bits = 0 then d.queueEmergency ⟨0, 0, 0, d.n0 Ix.fltErrorCount % 256⟩ else d

/-! ### Files (R422) -/

/-- An answer to a file request: the file's bytes, or an FoE error. -/
def Dev.foeAnswer (d : Dev) (error : Nat) (l : List Byte) : Dev := d.answer ⟨1, 0, 0, error == 0, 0, error, l⟩

/-- FOE_WRITE_IMAGE: an image into the slot that is not running; in recovery it is booted as a trial image (R75, R422, R489). -/
def execFoeWriteImage (t length version requires : Nat) (ok : Bool) (s : State) : Res := run t s fun d =>
  let recovery : Bool := d.sup.al == .boot && d.service == 5
  if !recovery && !(d.mailbox && d.sup.running) then d
  else if 16777216 < length then d.foeAnswer 0x8003 []
  else if d.switching then (d.raise 1 Code.updateState).foeAnswer 0x8002 []
  else
    let n := d.otherSlot
    let good := ok && length != 0
    let d := d.installImage length version requires ok
    if !good then (d.raise 1 Code.imageInvalid).foeAnswer 0x8002 []
    else
      let d := d.foeAnswer 0 []
      if recovery then ((d.w0 Ix.modService 0).imageBoot n).startRegulators else d

/-- FOE_READ: 0 ESI.XML, 1 DICT.DSC, 2 FAULTLOG; any other name is not found (Table 15.9). -/
def execFoeRead (t file : Nat) (s : State) : Res := run t s fun d =>
  if !d.mailbox || !d.sup.running then d
  else if file < 2 then d.foeAnswer 0 (descFile file)
  else if file = 2 then d.foeAnswer 0 (d.flt.log.flatMap (fun e => recBytes (mkRec (logSlots e))))
  else d.foeAnswer 0x8001 []

/-! ### The PCIe mirror (R288, R409 to R412) -/

/-- The 16 bytes of an entry as one number: value extended to 64 bits, or the length of a long one, and the status word. -/
def Dev.mirror (d : Dev) (ix sub : Nat) : Nat :=
  let v := if isLong ix sub then (d.longValue 2 ix sub).length else toTwos 64 (d.readValue 2 ix sub)
  v + d.statusWord ix sub * 2 ^ 64

/-- Words of BAR0 outside the mirror: doorbells, which hold no value to read (a free value), the MSI-X table and its pending bits
(Table 11.1). -/
def Dev.barWord (d : Dev) (offset : Nat) : Nat × Dev :=
  if 0x08000000 ≤ offset && offset < 0x08080000 then d.draw 32
  else if 0x0C000000 ≤ offset && offset < 0x0C008000 then (d.msixWord ((offset - 0x0C000000) / 4), d)
  else if 0x0C008000 ≤ offset && offset < 0x0C008100 then
    let base := (offset - 0x0C008000) / 4 * 32
    (((List.range 32).filter (fun k => d.str.msixPending.contains (base + k))).foldl (fun n k => n + 2 ^ k) 0, d)
  else (0, d)

/-- BAR0_READ: one instant for value and status; a 4-byte read at +0 latches bytes +4 to +15 for the next read there (R410). -/
def execBar0Read (t offset width : Nat) (s : State) : Res := run t s fun d =>
  if !d.str.linkUp then d
  else
    let d := d.wake 2
    let out (v : Nat) (status : Nat) (d : Dev) : Dev := d.answer ⟨2, offset / 4096, offset % 4096 / 16, true, (v % 2 ^ (8 * width) : Nat), status, leBytes width v⟩
    if 0x06000000 ≤ offset then
      let lo := d.barWord offset
      if width ≤ 4 then out lo.1 0 lo.2
      else (let hi := lo.2.barWord (offset + 4); out (lo.1 + 2 ^ 32 * hi.1) 0 hi.2)
    else
      let ix := offset / 4096
      let sub := offset % 4096 / 16
      let low := offset % 16
      let base := offset - low
      match d.sup.latch with
      | some (b, w) =>
        if b = base && (low = 4 || low = 8) then
          out (w / 2 ^ (8 * (low - 4))) (d.statusWord ix sub) ({ d with sup := { d.sup with latch := none } }.countRead 2 ix sub none)
        else
          let w := d.mirror ix sub
          let g := if low = 0 then d.readEntry 2 ix sub else ([], d.countRead 2 ix sub none)
          let e := if low = 0 && width = 4 then { g.2 with sup := { g.2.sup with latch := some (base, w / 2 ^ 32) } } else g.2
          out (w / 2 ^ (8 * low)) (d.statusWord ix sub) e
      | none =>
        let w := d.mirror ix sub
        let g := if low = 0 then d.readEntry 2 ix sub else ([], d.countRead 2 ix sub none)
        let e := if low = 0 && width = 4 then { g.2 with sup := { g.2.sup with latch := some (base, w / 2 ^ 32) } } else g.2
        out (w / 2 ^ (8 * low)) (d.statusWord ix sub) e

/-- Whether the bytes of a write above the type's length are its extension (R410). -/
def isExtended (ty width value : Nat) : Bool :=
  toTwos (8 * width) (fixedValue ty (leBytes (typeBytes ty) value)) == value % 2 ^ (8 * width)

/-- A word of the MSI-X table is written; clearing a vector's mask bit lets its pending message go (R293). -/
def Dev.msixWrite (d : Dev) (k v : Nat) : Dev :=
  if k % 4 = 3 then (if v % 2 = 0 then d.msixUnmask (k / 4) else d.setMsixWord k 1) else d.setMsixWord k (v % 2 ^ 32)

/-- BAR0_WRITE: widths and halves as R410 gives them; doorbells and the MSI-X table (Table 11.1). -/
def execBar0Write (t offset width value : Nat) (o : Outside) (s : State) : Res :=
  let d := s.dev.at t
  if !d.str.linkUp then run t s id
  else
    let d := d.wake 2
    let s1 := { s with dev := d }
    if 0x06000000 ≤ offset then
      .next { s1 with dev :=
        if 0x08000000 ≤ offset && offset < 0x08080000 then
          (if offset % 8 = 0 then d.doorbell 2 ((offset - 0x08000000) / 8) (value % 2 ^ 32) else d)
        else if 0x0C000000 ≤ offset && offset < 0x0C008000 then
          let k := (offset - 0x0C000000) / 4
          let e := d.msixWrite k (value % 2 ^ 32)
          if 4 < width then e.msixWrite (k + 1) (value / 2 ^ 32 % 2 ^ 32) else e
        else d }
    else
      let ix := offset / 4096
      let sub := offset % 4096 / 16
      let low := offset % 16
      let ty := typeOf ix sub
      let n := typeBytes ty
      let key := ekey ix sub 0
      let send (v : Nat) : Res := writeAny t 2 ix sub (fixedValue ty (leBytes n v)) o s1
      let reject (c : Nat) : Res := .next { s1 with dev := d.command 2 ix sub 0 (fun d => d.refuse 2 ix sub c) }
      if 8 ≤ low then .next s1
      else if low = 4 && width = 4 then
        match d.sup.lowHalf with
        | some (k, lo) =>
          if k = key then
            let e := { s1 with dev := { d with sup := { d.sup with lowHalf := none } } }
            let v := value % 2 ^ 32 * 2 ^ 32 + lo
            if isExtended ty 8 v then writeAny t 2 ix sub (fixedValue ty (leBytes n v)) o e
            else .next { e with dev := e.dev.command 2 ix sub 0 (fun d => d.refuse 2 ix sub Code.valueRange) }
          else reject Code.typeLength
        | none => reject Code.typeLength
      else if low != 0 || !(width = 4 || width = 8) then reject Code.typeLength
      else if n = 0 then writeAny t 2 ix sub (value : Nat) o s1
      else if n ≤ 4 || width = 8 then (if isExtended ty width value then send value else reject Code.valueRange)
      else .next { s1 with dev := { d with sup := { d.sup with lowHalf := some (key, value % 2 ^ 32) } } }

/-! ### The bulk window as rows of its own (R411) -/

/-- BULK_WORD_READ. -/
def execBulkWordRead (t path : Nat) (s : State) : Res := run t s fun d =>
  let q := d.bulkGet path
  q.2.answer ⟨path, Ix.dictBulkWord, 0, q.2.rejectionsOf path == d.rejectionsOf path, q.1, 0, leBytes 8 q.1⟩

/-- BULK_WORD_WRITE. -/
def execBulkWordWrite (t path value : Nat) (s : State) : Res := run t s fun d =>
  d.command path Ix.dictBulkWord 0 (value % 2 ^ 64 : Nat) fun d => d.bulkPut path (value % 2 ^ 64)

/-- BULK_LEN_SUBMIT. -/
def execBulkLenSubmit (t path len : Nat) (s : State) : Res := bulkSubmit t path len {} s

/-! ### Requests of other modules (R385, R413) -/

/-- A dictionary read of another module: value and stale bit, or the abort (R385, R413). -/
def Dev.fabricRead (d : Dev) (p : CfPkt) (ix sub : Nat) : Dev :=
  if !d.sup.running then (d.countRead 3 ix sub (some Code.supervisorRestart)).fabricRespond p.origin p.seq 0x08000022 false []
  else match d.readRefusal ix sub false with
    | some c => (d.countRead 3 ix sub (some c.1)).fabricRespond p.origin p.seq c.2 false []
    | none =>
      let q := d.readEntry 3 ix sub
      q.2.fabricRespond p.origin p.seq 0 (d.isStale ix sub) q.1

/-- FABRIC_DICT_REQUEST: a dictionary read (kind 0x40) or write (0x41) of another module; for a third one it travels on (R385, R413). -/
def execFabricDictRequest (t port w0 w1 : Nat) (body : List Byte) (o : Outside) (s : State) : Res :=
  let d := s.dev.at t
  if !isPort port then run t s id
  else match pktOf w0 w1 body with
    | none => run t s id
    | some p =>
      if d.portState port != 3 || !(p.kind = 0x40 || p.kind = 0x41) || p.origin = d.slotIdent || d.cf.suspended || !d.fullService then run t s id
      else if p.dest != d.slotIdent then run t s fun d => d.passOn p
      else
        let ix := bitsOf 31 16 (p.word 0)
        let sub := bitsOf 15 8 (p.word 0)
        if p.kind = 0x40 then run t s fun d => d.fabricRead p ix sub
        else
          let data := (p.body.drop 16).take (p.word 1 % 65536)
          andThen (writeBytes t 3 ix sub data o { s with dev := d }) fun e =>
            let c := d.writeAbort e.dev 3 ix sub data
            if ix = Ix.modCutCommit && c = 0 && data == [1#8] then
              .next { e with dev := { e.dev with sup := { e.dev.sup with commitFrom := some (p.origin, p.seq) } } }
            else .next { e with dev := e.dev.fabricRespond p.origin p.seq c false [] }

end Sys2Proof.Machine
end

