-- ==== Sys2Proof/Machine/Return.lean ====
section
/-! DEFINITION. The Supervisor's restart and return, the start of rushes service, waking (01_islands_and_flow.md R40,
03_bringup_and_rushes.md, 15_object_dictionary.md R412 and R424, 16_power_and_energy.md R431 and R434). -/

namespace Sys2Proof.Machine

/-- SUPERVISOR_RESTART: the data path runs on; `faulted` tells a fault of the Supervisor from a commanded restart (R40). -/
def execSupervisorRestart (t : Nat) (faulted : Bool) (s : State) : Res := run t s fun d => if d.sup.running then d.supRestart faulted else d

/-! ### The shadow (R77, R405, R434) -/

/-- A shadowed value of an entry that takes effect immediately comes into force. -/
def Dev.shadowApply (d : Dev) (w : SWrite) : Dev :=
  if w.ix = Ix.vpEnable then d.vpEnable w.value.toNat
  else if w.ix = Ix.strRingCi then d.doorbell 4 w.inst w.value.toNat
  else
    let d := (d.wr w.ix w.sub w.inst w.value).effectNow 4 w.ix w.sub
    if w.ix = Ix.imChanEnable && w.value = 0 && d.imState (w.sub - 1) = 1 then d.setImState (w.sub - 1) 0 else d

/-- Whether a shadowed write waits for the changeover: of a function that rushes service withholds, or an entry that takes effect there. -/
def waitsChangeover (w : SWrite) : Bool := withheldIx w.ix || (rowOf w.ix w.sub).any (fun e => e.effect == .changeover || e.effect == .cut)

/-- The shadowed values of islands come into force. -/
def Dev.shadowRelease (d : Dev) (on : Nat → Bool) (held : SWrite → Bool) : Dev :=
  let now := d.cut.shadow.filter (fun w => on (writeIsland w) && !held w)
  let d := { d with cut := { d.cut with shadow := d.cut.shadow.filter (fun w => !(on (writeIsland w) && !held w)) } }
  now.foldl Dev.shadowApply d

/-! ### Rushes service begins (R70, R76, R77, R333) -/

/-- An island takes up the configuration that the Supervisor kept through a loss of the core rails (log entry 41). -/
def Dev.configTake (d : Dev) (isl : Nat) : Dev :=
  let mine (key : Nat) : Bool :=
    let ix := (Nat.unpair key).1
    islandOfIx ix == isl && (rowOf ix (Nat.unpair (Nat.unpair key).2).1).any (fun e => e.effect == .cut)
  let kept := d.dict.filter (fun p => mine p.1)
  if kept.isEmpty then d
  else
    let l : List SWrite := kept.map (fun p => ⟨(Nat.unpair p.1).1, (Nat.unpair (Nat.unpair p.1).2).1, (Nat.unpair (Nat.unpair p.1).2).2, p.2⟩)
    d.islandCut { d with dict := d.dict.filter (fun p => !mine p.1) } isl l d.time96 .user

/-- RUSHES_START: 0.4 s after P, or once the Supervisor runs, with lanes 0 to 3 of every port calibrated (R102). TIME96 runs from here on (R333); every island is at P3 and 16 bits (R446). -/
def execRushesStart (t : Nat) (s : State) : Res := run t s fun d =>
  if !d.sup.running || !d.hw.pwrGood || d.service != 0 || d.now < d.hw.pRise + ms 400 || !d.rushesLanes then d
  else
    let d := if d.tb.running then d else { d with tb := { d.tb with running := true, offset := -(d.now : Int) } }
    let d := if d.n0 Ix.tbTimeState = 0 then d.timeState d.timeSource 1 else d
    let d := { d with boot := { d.boot with trialSince := none } }
    let d := (d.w0 Ix.modService (if d.boot.failed.contains 7 || d.boot.failed.contains 13 then 4 else 1)).bringBit 3 true
    let d := d.wI Ix.modRushesMs 0 (d.msSinceP d.now)
    let d := ((d.wrAll Ix.speWidth 16 4).w0 Ix.chnWidth 16).wrAll Ix.pwrIslPoint 3 12
    let d := (List.range 10).foldl (fun (a : Dev) ch => if a.nI Ix.imChanEnable ch = 0 then a.setImState ch 0 else a) d
    let d := d.shadowRelease (fun _ => true) waitsChangeover
    let d := [1, 2, 3, 4, 5, 6, 0xA].foldl Dev.configTake d
    (d.pipeReports.happen .rushesReady).foundReport.readyCheck

/-! ### The Supervisor returns (R40, R136, R412, R424, R463, R488, R490, R491) -/

/-- Writes queued during a restart are made in their order. -/
def replay (t : Nat) (o : Outside) : List QueuedWrite → State → Res
  | [], s => .next s
  | w :: ws, s => andThen (writeAny t 2 w.ix w.sub w.value o s) (replay t o ws)

/-- An engine cut of a degradation or of shedding that had not reached its commit point is decided afresh for the resources found on
return (R40). -/
def Dev.redecide (d : Dev) : Dev :=
  let stale (c : Cut) : Bool := !c.distributed && (c.kind == .degradation || c.kind == .shedding)
  let isls := ((d.cut.engine.filter (fun c => stale c && c.kind == .degradation)).map (fun c => c.isl)).dedup
  let shed := d.cut.engine.any (fun c => stale c && c.kind == .shedding)
  let d := d.engineDrop stale
  let d := isls.foldl (fun (a : Dev) i =>
    let change := a.reduction i
    if change.isEmpty then a else a.engineCut { kind := .degradation, isl := i, due := a.soon, writes := change }) d
  if shed then (List.range 4).foldl (fun (a : Dev) p => a.shedLane p) d else d

/-- What was under way when the Supervisor went: the commit and the writes it dropped, calibrations, a repointing, the next engine cut, a
firmware switch, the changeover. -/
def Dev.takeUp (d : Dev) : Dev :=
  let d := match d.sup.dropped with
    | some p =>
      let d := d.raise p Code.supervisorRestart
      let d := { d with sup := { d.sup with dropped := none } }
      match d.sup.commitFrom with
      | some q => { d with sup := { d.sup with commitFrom := none } }.fabricRespond q.1 q.2 0x08000022 false []
      | none => d.answer ⟨p, Ix.modCutCommit, 0, false, 0, 0x08000022, []⟩
    | none => d
  let d := if d.sup.queueLost then { d.raise 2 Code.supervisorRestart with sup := { (d.raise 2 Code.supervisorRestart).sup with queueLost := false } } else d
  let lost := d.cal.abandoned
  let d := lost.foldl (fun (a : Dev) r => a.calEnd r 4) { d with cal := { d.cal with abandoned := [] } }
  let d := match d.flt.repoint with
    | some r =>
      let sequence : Bool := (r.isl == 2 || r.isl == 3) && decide (r.inst < 32)
      if r.aborted && r.out && !sequence && !d.cut.engine.any (fun c => c.kind == CutKind.repointIn) then d.rejoinCut r else d
    | none => d
  let waiting : Bool := match d.activeCut with | some c => c.distributed || c.kind == CutKind.user | none => true
  let d := if waiting then d.redecide else d.redecide.promoteCut
  let d : Dev := d.pwr.moved.foldl (fun (a : Dev) (m : Nat × Nat × Nat) => a.pwrEvent 0x01 m.1 m.2.1 m.2.2) d
  let d : Dev := { d with pwr := { d.pwr with moved := [] } }
  let d := if d.n0 Ix.fltUpdateState = 2 then d.w0 Ix.fltUpdateState 3 else d
  d.roundNext.readyCommit

/-- SUPERVISOR_RETURN: the Supervisor runs again, takes up what was left, and makes the queued writes. -/
def execSupervisorReturn (t : Nat) (o : Outside) (s : State) : Res :=
  let d := s.dev.at t
  if !d.sup.restarting || !d.hw.auxIn || d.hw.resetLow then run t s id
  else
    let queued := d.sup.queued
    let d := { d with
      sup := { d.sup with running := true, restarting := false, queued := [] }
      boot := { d.boot with trialSince := if d.service = 0 then d.boot.trialSince else none } }
    let d := (d.bringBit 0 true).bringBit 1 true
    replay t o queued { s with dev := d.takeUp }

/-! ### Waking (R431, R434) -/

/-- MODULE_WAKE_DONE: islands are in the states they had before sleep (R431, Table 16.4). -/
def execModuleWakeDone (t : Nat) (s : State) : Res := run t s fun d =>
  match d.pwr.waking with
  | none => d
  | some w =>
    let before := d.pwr.before
    let d := sleepers.foldl (fun (a : Dev) i => a.setIslState i (before.getD (i - 1) 0)) d
    let since := sleepers.foldl (fun (l : Tab Nat) i => l.put i d.now) d.pwr.since
    let d := { d with
      boot := { d.boot with autoDone := false }
      pwr := { d.pwr with asleep := none, waking := none, before := [], written := d.now, since := since }
      cap := { d.cap with asleep := before.getD 6 0 == 2 } }
    (d.w0 Ix.pwrState 3).pwrEvent 0x07 0 (d.n0 Ix.pwrWakeCause) ((d.now - w) * 1000000 / two48)

/-- ISLAND_WAKE: a request has come to a gated, sleeping or switched-off island; its shadow applies before it accepts work (R434). -/
def execIslandWake (t isl : Nat) (s : State) : Res := runIf (1 ≤ isl && isl ≤ 12) t s fun d =>
  if d.nI Ix.pwrIslState (isl - 1) = 0 || d.n0 Ix.pwrState != 3 then d
  else
    let d := d.setIslState isl 0
    let d := { d with
      pwr := { d.pwr with since := d.pwr.since.put isl d.now }
      cap := { d.cap with asleep := d.cap.asleep && isl != 7 } }
    d.shadowRelease (fun i => i == isl) (fun w => d.shadowed w.ix || waitsChangeover w)

end Sys2Proof.Machine
end

