-- ==== Sys2Proof/Machine/Dispatch.lean ====
section
/-! DEFINITION. The dispatcher: each command to its own meaning. -/

namespace Sys2Proof.Machine

/-- The effect of a command on everything but the queue. -/
def exec (i : Instr) (s : State) : Host.Outcome State Fault Refusal :=
  match i with
  | .entryWrite t path ix sub v o => Sys2Proof.Machine.execEntryWrite t path ix sub v o s
  | .hodWrite t stream => Sys2Proof.Machine.execHodWrite t stream s
  | .hodBlockLeave t stream => Sys2Proof.Machine.execHodBlockLeave t stream s
  | .hodStreamResume t stream => Sys2Proof.Machine.execHodStreamResume t stream s
  | .voluntaryStallStart t kind chan durNs => Sys2Proof.Machine.execVoluntaryStallStart t kind chan durNs s
  | .pipelineCrossingOverflow t isl inst first count => Sys2Proof.Machine.execPipelineCrossingOverflow t isl inst first count s
  | .cutCommit t path => Sys2Proof.Machine.execCutCommit t path s
  | .cutAbort t path => Sys2Proof.Machine.execCutAbort t path s
  | .cutDiscardStaged t path => Sys2Proof.Machine.execCutDiscardStaged t path s
  | .cutCommitPoint t => Sys2Proof.Machine.execCutCommitPoint t s
  | .cutApply t isl first => Sys2Proof.Machine.execCutApply t isl first s
  | .supervisorRestart t faulted => Sys2Proof.Machine.execSupervisorRestart t faulted s
  | .supervisorReturn t o => Sys2Proof.Machine.execSupervisorReturn t o s
  | .epsWindowEnd t analysisUj moduleUj => Sys2Proof.Machine.execEpsWindowEnd t analysisUj moduleUj s
  | .auxEnterRange t straps converters => Sys2Proof.Machine.execAuxEnterRange t straps converters s
  | .auxQualified t => Sys2Proof.Machine.execAuxQualified t s
  | .auxLoss t => Sys2Proof.Machine.execAuxLoss t s
  | .v12Good t => Sys2Proof.Machine.execV12Good t s
  | .v12Brownout t => Sys2Proof.Machine.execV12Brownout t s
  | .v12Overvoltage t => Sys2Proof.Machine.execV12Overvoltage t s
  | .railOutOfRegulation t rail milliVolt centiAmp => Sys2Proof.Machine.execRailOutOfRegulation t rail milliVolt centiAmp s
  | .pwrGoodRise t => Sys2Proof.Machine.execPwrGoodRise t s
  | .powerLossLogWrite t => Sys2Proof.Machine.execPowerLossLogWrite t s
  | .resetNAssert t samples => Sys2Proof.Machine.execResetNAssert t samples s
  | .resetNRelease t straps => Sys2Proof.Machine.execResetNRelease t straps s
  | .modReset t path => Sys2Proof.Machine.execModReset t path s
  | .modResetRestart t straps => Sys2Proof.Machine.execModResetRestart t straps s
  | .perstNAssert t => Sys2Proof.Machine.execPerstNAssert t s
  | .perstNRelease t => Sys2Proof.Machine.execPerstNRelease t s
  | .hostLinkUp t gen width => Sys2Proof.Machine.execHostLinkUp t gen width s
  | .thermalThrottle t temp others => Sys2Proof.Machine.execThermalThrottle t temp others s
  | .thermalTrip t temp => Sys2Proof.Machine.execThermalTrip t temp s
  | .hwRestart t path => Sys2Proof.Machine.execHwRestart t path s
  | .dieCoolStart t temp => Sys2Proof.Machine.execDieCoolStart t temp s
  | .inletOverGrade t temp => Sys2Proof.Machine.execInletOverGrade t temp s
  | .bypassInsert t dim => Sys2Proof.Machine.execBypassInsert t dim s
  | .bypassRelease t dim => Sys2Proof.Machine.execBypassRelease t dim s
  | .bypassTransitionDone t dim => Sys2Proof.Machine.execBypassTransitionDone t dim s
  | .bypassStuck t dim => Sys2Proof.Machine.execBypassStuck t dim s
  | .hwBypassForce t path dim => Sys2Proof.Machine.execHwBypassForce t path dim s
  | .ecatWatchdogExpiry t => Sys2Proof.Machine.execEcatWatchdogExpiry t s
  | .relayFault t => Sys2Proof.Machine.execRelayFault t s
  | .ecatSlaveReady t => Sys2Proof.Machine.execEcatSlaveReady t s
  | .bootImageSelect t okA okB => Sys2Proof.Machine.execBootImageSelect t okA okB s
  | .supervisorStart t => Sys2Proof.Machine.execSupervisorStart t s
  | .trialWatchdogExpiry t ok => Sys2Proof.Machine.execTrialWatchdogExpiry t ok s
  | .rushesStart t => Sys2Proof.Machine.execRushesStart t s
  | .bringupStepDone t step bad => Sys2Proof.Machine.execBringupStepDone t step bad s
  | .bringupTimeout t step bad => Sys2Proof.Machine.execBringupTimeout t step bad s
  | .fabricPortDark t port => Sys2Proof.Machine.execFabricPortDark t port s
  | .modChangeover t path => Sys2Proof.Machine.execModChangeover t path s
  | .changeoverComplete t first => Sys2Proof.Machine.execChangeoverComplete t first s
  | .laneCalibrationDone t lane ok => Sys2Proof.Machine.execLaneCalibrationDone t lane ok s
  | .laneCdrLock t link => Sys2Proof.Machine.execLaneCdrLock t link s
  | .laneLock t link prbs => Sys2Proof.Machine.execLaneLock t link prbs s
  | .multiblockLock t link measured arrivals ilas => Sys2Proof.Machine.execMultiblockLock t link measured arrivals ilas s
  | .linkNoLock t link headersValid => Sys2Proof.Machine.execLinkNoLock t link headersValid s
  | .sysrefEdge t port edgePs => Sys2Proof.Machine.execSysrefEdge t port edgePs s
  | .sysrefAbsent t link => Sys2Proof.Machine.execSysrefAbsent t link s
  | .multiblockRelease t link measured arrivals codes octets => Sys2Proof.Machine.execMultiblockRelease t link measured arrivals codes octets s
  | .laneFault t lane cond => Sys2Proof.Machine.execLaneFault t lane cond s
  | .relinkComplete t link => Sys2Proof.Machine.execRelinkComplete t link s
  | .crcError t lane multiblock samples => Sys2Proof.Machine.execCrcError t lane multiblock samples s
  | .ddcOutput t ddc ne ecc => Sys2Proof.Machine.execDdcOutput t ddc ne ecc s
  | .ddcDrainTimeout t ddc => Sys2Proof.Machine.execDdcDrainTimeout t ddc s
  | .detectorWindowClose t ddc => Sys2Proof.Machine.execDetectorWindowClose t ddc s
  | .ddcFault t ddc => Sys2Proof.Machine.execDdcFault t ddc s
  | .ddcSelftestDone t ddc ok => Sys2Proof.Machine.execDdcSelftestDone t ddc ok s
  | .ddcStandbyFail t => Sys2Proof.Machine.execDdcStandbyFail t s
  | .realToComplexParity t link first lost => Sys2Proof.Machine.execRealToComplexParity t link first lost s
  | .chnRepoint t path ddc => Sys2Proof.Machine.execChnRepoint t path ddc s
  | .chnRepointAbort t path => Sys2Proof.Machine.execChnRepointAbort t path s
  | .ddcRepointHandover t ddc first => Sys2Proof.Machine.execDdcRepointHandover t ddc first s
  | .ddcUpdateDone t ok => Sys2Proof.Machine.execDdcUpdateDone t ok s
  | .speFrameDone t layer m core bins exponent eccCore eccPool => Sys2Proof.Machine.execSpeFrameDone t layer m core bins exponent eccCore eccPool s
  | .traceClose t layer => Sys2Proof.Machine.execTraceClose t layer s
  | .layerStopTimeout t layer => Sys2Proof.Machine.execLayerStopTimeout t layer s
  | .layerMemError t layer m lost => Sys2Proof.Machine.execLayerMemError t layer m lost s
  | .coreFault t core layer m lost => Sys2Proof.Machine.execCoreFault t core layer m lost s
  | .coreSelftestDone t core ok => Sys2Proof.Machine.execCoreSelftestDone t core ok s
  | .coreStandbyFail t => Sys2Proof.Machine.execCoreStandbyFail t s
  | .speRepoint t path core => Sys2Proof.Machine.execSpeRepoint t path core s
  | .speRepointAbort t path => Sys2Proof.Machine.execSpeRepointAbort t path s
  | .coreRepointHandover t core first => Sys2Proof.Machine.execCoreRepointHandover t core first s
  | .coreUpdateDone t ok => Sys2Proof.Machine.execCoreUpdateDone t ok s
  | .speUserCoef t path v => Sys2Proof.Machine.execSpeUserCoef t path v s
  | .condEvent t cond index ecc rising => Sys2Proof.Machine.execCondEvent t cond index ecc rising s
  | .condTimeoutExpiry t cond => Sys2Proof.Machine.execCondTimeoutExpiry t cond s
  | .trgCondSoft t path cond => Sys2Proof.Machine.execTrgCondSoft t path cond s
  | .sequencerEvent t chain => Sys2Proof.Machine.execSequencerEvent t chain s
  | .maskRestart t path mask => Sys2Proof.Machine.execMaskRestart t path mask s
  | .maskClearCounts t path mask => Sys2Proof.Machine.execMaskClearCounts t path mask s
  | .trgBpValue t path v => Sys2Proof.Machine.execTrgBpValue t path v s
  | .toutPulse t tout => Sys2Proof.Machine.execToutPulse t tout s
  | .magArm t path => Sys2Proof.Machine.execMagArm t path s
  | .magDisarm t path => Sys2Proof.Machine.execMagDisarm t path s
  | .magFree t path => Sys2Proof.Machine.execMagFree t path s
  | .magFreeRelease t mag => Sys2Proof.Machine.execMagFreeRelease t mag s
  | .magForceTrigger t path => Sys2Proof.Machine.execMagForceTrigger t path s
  | .magClear t path => Sys2Proof.Machine.execMagClear t path s
  | .takeComplete t mag take => Sys2Proof.Machine.execTakeComplete t mag take s
  | .maskTableReload t mask => Sys2Proof.Machine.execMaskTableReload t mask s
  | .queueError t cond => Sys2Proof.Machine.execQueueError t cond s
  | .bankFault t inst => Sys2Proof.Machine.execBankFault t inst s
  | .planeFrameSettle t plane ecc => Sys2Proof.Machine.execPlaneFrameSettle t plane ecc s
  | .planeExport t plane => Sys2Proof.Machine.execPlaneExport t plane s
  | .planeMemError t plane word => Sys2Proof.Machine.execPlaneMemError t plane word s
  | .densityFault t plane => Sys2Proof.Machine.execDensityFault t plane s
  | .hpdPlug t rate lanes kHz htotal vtotal listed edid => Sys2Proof.Machine.execHpdPlug t rate lanes kHz htotal vtotal listed edid s
  | .hpdIrq t lowUs lost => Sys2Proof.Machine.execHpdIrq t lowUs lost s
  | .hpdUnplug t => Sys2Proof.Machine.execHpdUnplug t s
  | .dpLinkTrained t ok => Sys2Proof.Machine.execDpLinkTrained t ok s
  | .vpEnable t path v => Sys2Proof.Machine.execVpEnable t path v s
  | .vpCommit t path map => Sys2Proof.Machine.execVpCommit t path map s
  | .vpLatchPoint t => Sys2Proof.Machine.execVpLatchPoint t s
  | .vpAlloc t path => Sys2Proof.Machine.execVpAlloc t path s
  | .vpFreeRequest t path => Sys2Proof.Machine.execVpFreeRequest t path s
  | .vpCursorPixel t path v => Sys2Proof.Machine.execVpCursorPixel t path v s
  | .readbackCheck t red green blue => Sys2Proof.Machine.execReadbackCheck t red green blue s
  | .vpUnderrun t layer line => Sys2Proof.Machine.execVpUnderrun t layer line s
  | .composerFault t => Sys2Proof.Machine.execComposerFault t s
  | .regulatorRefill t => Sys2Proof.Machine.execRegulatorRefill t s
  | .subchannelCommand t chan sub arrivals corrected => Sys2Proof.Machine.execSubchannelCommand t chan sub arrivals corrected s
  | .refreshDue t chan rank => Sys2Proof.Machine.execRefreshDue t chan rank s
  | .mr4Read t chan field temp => Sys2Proof.Machine.execMr4Read t chan field temp s
  | .rowActivate t chan sub rank bank row => Sys2Proof.Machine.execRowActivate t chan sub rank bank row s
  | .neighbourRefresh t chan sub rank bank row => Sys2Proof.Machine.execNeighbourRefresh t chan sub rank bank row s
  | .rowTableClear t => Sys2Proof.Machine.execRowTableClear t s
  | .uncorrectableBurst t addr => Sys2Proof.Machine.execUncorrectableBurst t addr s
  | .sparingStallEnd t chan => Sys2Proof.Machine.execSparingStallEnd t chan s
  | .migrationComplete t chan => Sys2Proof.Machine.execMigrationComplete t chan s
  | .ceLimitSpare t chan rank => Sys2Proof.Machine.execCeLimitSpare t chan rank s
  | .patrolScrub t chan rank corrected lost => Sys2Proof.Machine.execPatrolScrub t chan rank corrected lost s
  | .retrainDue t chan temp => Sys2Proof.Machine.execRetrainDue t chan temp s
  | .retrainStart t chan => Sys2Proof.Machine.execRetrainStart t chan s
  | .retrainDone t chan result rank => Sys2Proof.Machine.execRetrainDone t chan result rank s
  | .csStart t path cs => Sys2Proof.Machine.execCsStart t path cs s
  | .csStop t path cs => Sys2Proof.Machine.execCsStop t path cs s
  | .csFree t path cs => Sys2Proof.Machine.execCsFree t path cs s
  | .csFreeRelease t cs => Sys2Proof.Machine.execCsFreeRelease t cs s
  | .captureIdleSleep t => Sys2Proof.Machine.execCaptureIdleSleep t s
  | .captureWake t port => Sys2Proof.Machine.execCaptureWake t port s
  | .ringOpen t path => Sys2Proof.Machine.execRingOpen t path s
  | .ringClose t path => Sys2Proof.Machine.execRingClose t path s
  | .ringCloseDrainEnd t ring => Sys2Proof.Machine.execRingCloseDrainEnd t ring s
  | .ringPause t path => Sys2Proof.Machine.execRingPause t path s
  | .ringResume t path => Sys2Proof.Machine.execRingResume t path s
  | .ringRecord t ring => Sys2Proof.Machine.execRingRecord t ring s
  | .ringSpaceAvailable t ring => Sys2Proof.Machine.execRingSpaceAvailable t ring s
  | .ringDoorbell t ring ci => Sys2Proof.Machine.execRingDoorbell t ring ci s
  | .msixMessage t ring => Sys2Proof.Machine.execMsixMessage t ring s
  | .msixUnmask t vector => Sys2Proof.Machine.execMsixUnmask t vector s
  | .ringContextError t ring => Sys2Proof.Machine.execRingContextError t ring s
  | .hostLinkLoss t => Sys2Proof.Machine.execHostLinkLoss t s
  | .driveInsert t drive => Sys2Proof.Machine.execDriveInsert t drive s
  | .driveAttachDone t drive reason gen width lbas granted health mdts cache label dir => Sys2Proof.Machine.execDriveAttachDone t drive reason gen width lbas granted health mdts cache label dir s
  | .driveDetach t path drive => Sys2Proof.Machine.execDriveDetach t path drive s
  | .driveAttachCmd t path drive => Sys2Proof.Machine.execDriveAttachCmd t path drive s
  | .nvmeCompletionPoll t drive done => Sys2Proof.Machine.execNvmeCompletionPoll t drive done s
  | .nvmeCommandTimeout t drive id => Sys2Proof.Machine.execNvmeCommandTimeout t drive id s
  | .nvmeHealthPoll t drive warning => Sys2Proof.Machine.execNvmeHealthPoll t drive warning s
  | .driveLost t drive gone => Sys2Proof.Machine.execDriveLost t drive gone s
  | .volFormat t path => Sys2Proof.Machine.execVolFormat t path s
  | .volMount t path found => Sys2Proof.Machine.execVolMount t path found s
  | .volUnmount t path => Sys2Proof.Machine.execVolUnmount t path s
  | .reelOpen t path => Sys2Proof.Machine.execReelOpen t path s
  | .reelStart t path => Sys2Proof.Machine.execReelStart t path s
  | .reelClose t path => Sys2Proof.Machine.execReelClose t path s
  | .reelDelete t path => Sys2Proof.Machine.execReelDelete t path s
  | .reelUnitClose t reel annex => Sys2Proof.Machine.execReelUnitClose t reel annex s
  | .spoolSlotFree t reel => Sys2Proof.Machine.execSpoolSlotFree t reel s
  | .pbStart t path pb => Sys2Proof.Machine.execPbStart t path pb s
  | .pbStop t path pb => Sys2Proof.Machine.execPbStop t path pb s
  | .pbPass t pb => Sys2Proof.Machine.execPbPass t pb s
  | .pbRelease t pb staged v => Sys2Proof.Machine.execPbRelease t pb staged v s
  | .refInvalid t input cause ppb => Sys2Proof.Machine.execRefInvalid t input cause ppb s
  | .refValid t input ppb phi => Sys2Proof.Machine.execRefValid t input ppb phi s
  | .refSwitchoverDone t abPhase => Sys2Proof.Machine.execRefSwitchoverDone t abPhase s
  | .slewDone t => Sys2Proof.Machine.execSlewDone t s
  | .timeStep t => Sys2Proof.Machine.execTimeStep t s
  | .pllHop t pll kHz => Sys2Proof.Machine.execPllHop t pll kHz s
  | .pllHopLock t pll band fine postdiv => Sys2Proof.Machine.execPllHopLock t pll band fine postdiv s
  | .pllLossOfLock t pll fails => Sys2Proof.Machine.execPllLossOfLock t pll fails s
  | .ppsEdge t => Sys2Proof.Machine.execPpsEdge t s
  | .ppsLost t => Sys2Proof.Machine.execPpsLost t s
  | .dcSync0Sample t dcNs => Sys2Proof.Machine.execDcSync0Sample t dcNs s
  | .timeSetAtPps t path => Sys2Proof.Machine.execTimeSetAtPps t path s
  | .timeSetAtSecond t path => Sys2Proof.Machine.execTimeSetAtSecond t path s
  | .sysrefFire t path port => Sys2Proof.Machine.execSysrefFire t path port s
  | .imArm t path chan => Sys2Proof.Machine.execImArm t path chan s
  | .imAbort t path chan => Sys2Proof.Machine.execImAbort t path chan s
  | .imClear t path chan => Sys2Proof.Machine.execImClear t path chan s
  | .imChanDisable t path chan => Sys2Proof.Machine.execImChanDisable t path chan s
  | .imDrainEnd t chan => Sys2Proof.Machine.execImDrainEnd t chan s
  | .imEdgeStamp t site edge k c1 c2 code => Sys2Proof.Machine.execImEdgeStamp t site edge k c1 c2 code s
  | .imTimeout t chan => Sys2Proof.Machine.execImTimeout t chan s
  | .imGateEnd t chan => Sys2Proof.Machine.execImGateEnd t chan s
  | .imFreqReady t chan => Sys2Proof.Machine.execImFreqReady t chan s
  | .helloSend t port => Sys2Proof.Machine.execHelloSend t port s
  | .helloReceive t port w0 w1 body => Sys2Proof.Machine.execHelloReceive t port w0 w1 body s
  | .portDown t port cause codewords => Sys2Proof.Machine.execPortDown t port cause codewords s
  | .linkStateFlood t => Sys2Proof.Machine.execLinkStateFlood t s
  | .linkStateReceive t port w0 w1 body => Sys2Proof.Machine.execLinkStateReceive t port w0 w1 body s
  | .keystoneClaim t port w0 w1 body delta => Sys2Proof.Machine.execKeystoneClaim t port w0 w1 body delta s
  | .timingMarker t port dir stamp seq credit corrected lost => Sys2Proof.Machine.execTimingMarker t port dir stamp seq credit corrected lost s
  | .timeReportReceive t port w0 w1 body => Sys2Proof.Machine.execTimeReportReceive t port w0 w1 body s
  | .timeOffsetAverage t ppb => Sys2Proof.Machine.execTimeOffsetAverage t ppb s
  | .stepNoticeReceive t port w0 w1 body => Sys2Proof.Machine.execStepNoticeReceive t port w0 w1 body s
  | .cfJoin t path => Sys2Proof.Machine.execCfJoin t path s
  | .autoJoinStart t => Sys2Proof.Machine.execAutoJoinStart t s
  | .joinComplete t ok => Sys2Proof.Machine.execJoinComplete t ok s
  | .cfLeave t path => Sys2Proof.Machine.execCfLeave t path s
  | .cfLeaveRelease t => Sys2Proof.Machine.execCfLeaveRelease t s
  | .cfPrepareSlot t path => Sys2Proof.Machine.execCfPrepareSlot t path s
  | .cfReleaseSlot t path => Sys2Proof.Machine.execCfReleaseSlot t path s
  | .prepareLapse t slot => Sys2Proof.Machine.execPrepareLapse t slot s
  | .bcastOriginate t scope => Sys2Proof.Machine.execBcastOriginate t scope s
  | .triggerPacketReceive t port w0 w1 body => Sys2Proof.Machine.execTriggerPacketReceive t port w0 w1 body s
  | .eventPacketReceive t port w0 w1 body => Sys2Proof.Machine.execEventPacketReceive t port w0 w1 body s
  | .rdaRead t path => Sys2Proof.Machine.execRdaRead t path s
  | .rdaWrite t path => Sys2Proof.Machine.execRdaWrite t path s
  | .rdaResponse t port w0 w1 body => Sys2Proof.Machine.execRdaResponse t port w0 w1 body s
  | .rdaTimeout t => Sys2Proof.Machine.execRdaTimeout t s
  | .fabricDictRequest t port w0 w1 body o => Sys2Proof.Machine.execFabricDictRequest t port w0 w1 body o s
  | .fabricDataReceive t port w0 w1 body lens lost => Sys2Proof.Machine.execFabricDataReceive t port w0 w1 body lens lost s
  | .fabricAckReceive t port w0 w1 body => Sys2Proof.Machine.execFabricAckReceive t port w0 w1 body s
  | .fabricRetransmit t dest => Sys2Proof.Machine.execFabricRetransmit t dest s
  | .destinationUnreachable t dest => Sys2Proof.Machine.execDestinationUnreachable t dest s
  | .copyStart t path => Sys2Proof.Machine.execCopyStart t path s
  | .copyAbort t path => Sys2Proof.Machine.execCopyAbort t path s
  | .sdoUpload t ix sub complete => Sys2Proof.Machine.execSdoUpload t ix sub complete s
  | .sdoDownload t ix sub complete data o => Sys2Proof.Machine.execSdoDownload t ix sub complete data o s
  | .sdoInfo t kind ix sub => Sys2Proof.Machine.execSdoInfo t kind ix sub s
  | .bar0Read t offset width => Sys2Proof.Machine.execBar0Read t offset width s
  | .bar0Write t offset width value o => Sys2Proof.Machine.execBar0Write t offset width value o s
  | .bulkWordRead t path => Sys2Proof.Machine.execBulkWordRead t path s
  | .bulkWordWrite t path value => Sys2Proof.Machine.execBulkWordWrite t path value s
  | .bulkLenSubmit t path len => Sys2Proof.Machine.execBulkLenSubmit t path len s
  | .ecatStateRequest t state sm2 sm3 => Sys2Proof.Machine.execEcatStateRequest t state sm2 sm3 s
  | .pdoCycle t rx tx outputs => Sys2Proof.Machine.execPdoCycle t rx tx outputs s
  | .sm2Watchdog t => Sys2Proof.Machine.execSm2Watchdog t s
  | .emergencySend t => Sys2Proof.Machine.execEmergencySend t s
  | .errorHistoryClear t path => Sys2Proof.Machine.execErrorHistoryClear t path s
  | .foeWriteImage t length version requires ok => Sys2Proof.Machine.execFoeWriteImage t length version requires ok s
  | .foeRead t file => Sys2Proof.Machine.execFoeRead t file s
  | .pwrSleep t path wake => Sys2Proof.Machine.execPwrSleep t path wake s
  | .moduleIdleTimeout t wake => Sys2Proof.Machine.execModuleIdleTimeout t wake s
  | .sleepEntryDone t => Sys2Proof.Machine.execSleepEntryDone t s
  | .wakeSource t source => Sys2Proof.Machine.execWakeSource t source s
  | .wakeTimerExpiry t => Sys2Proof.Machine.execWakeTimerExpiry t s
  | .moduleWakeDone t => Sys2Proof.Machine.execModuleWakeDone t s
  | .islandIdleTimeout t isl request => Sys2Proof.Machine.execIslandIdleTimeout t isl request s
  | .islandWake t isl => Sys2Proof.Machine.execIslandWake t isl s
  | .governorPeriod t moduleW temp loads mws traffic => Sys2Proof.Machine.execGovernorPeriod t moduleW temp loads mws traffic s
  | .capStepRelease t => Sys2Proof.Machine.execCapStepRelease t s
  | .islandPointChange t isl => Sys2Proof.Machine.execIslandPointChange t isl s
  | .droopStretch t isl => Sys2Proof.Machine.execDroopStretch t isl s
  | .dramCoolReturn t => Sys2Proof.Machine.execDramCoolReturn t s
  | .calCalibrate t path => Sys2Proof.Machine.execCalCalibrate t path s
  | .calAbort t path => Sys2Proof.Machine.execCalAbort t path s
  | .calSave t path flashOk => Sys2Proof.Machine.execCalSave t path flashOk s
  | .calRestore t path => Sys2Proof.Machine.execCalRestore t path s
  | .calRunDone t obj raw edges spread margins => Sys2Proof.Machine.execCalRunDone t obj raw edges spread margins s
  | .trimLoopStep t trim measured => Sys2Proof.Machine.execTrimLoopStep t trim measured s
  | .calObjectDue t obj converters => Sys2Proof.Machine.execCalObjectDue t obj converters s
  | .ctrFreeze t path => Sys2Proof.Machine.execCtrFreeze t path s
  | .ctrRelease t path => Sys2Proof.Machine.execCtrRelease t path s
  | .ctrFlagsClear t path => Sys2Proof.Machine.execCtrFlagsClear t path s
  | .ctrSnapCmd t path => Sys2Proof.Machine.execCtrSnapCmd t path s
  | .snapPeriodTick t => Sys2Proof.Machine.execSnapPeriodTick t s
  | .samplerCrossing t sampler count skid context => Sys2Proof.Machine.execSamplerCrossing t sampler count skid context s
  | .fltRepoint t path value => Sys2Proof.Machine.execFltRepoint t path value s
  | .fltRepointAbort t path => Sys2Proof.Machine.execFltRepointAbort t path s
  | .repointSelftestDone t ok => Sys2Proof.Machine.execRepointSelftestDone t ok s
  | .standbySelftest t unit ok => Sys2Proof.Machine.execStandbySelftest t unit ok s
  | .imgAllocateStaging t path => Sys2Proof.Machine.execImgAllocateStaging t path s
  | .imgInstall t path version requires ok => Sys2Proof.Machine.execImgInstall t path version requires ok s
  | .imgSwitch t path => Sys2Proof.Machine.execImgSwitch t path s
  | .imgAbortSwitch t path => Sys2Proof.Machine.execImgAbortSwitch t path s
  | .updateConfirm t => Sys2Proof.Machine.execUpdateConfirm t s
  | .updateRevert t => Sys2Proof.Machine.execUpdateRevert t s
  | .disableDrainEnd t isl inst left => Sys2Proof.Machine.execDisableDrainEnd t isl inst left s
  | .fltLogClear t path => Sys2Proof.Machine.execFltLogClear t path s
  | .hostBar2Read t addr len => Sys2Proof.Machine.execHostBar2Read t addr len s
  | .hostBar2Write t addr data => Sys2Proof.Machine.execHostBar2Write t addr data s
  | .timeLoopLock t => Sys2Proof.Machine.execTimeLoopLock t s
  | .portTrained t port => Sys2Proof.Machine.execPortTrained t port s
  | .imGateStart t chan => Sys2Proof.Machine.execImGateStart t chan s
  | .channelRetirementStallEnd t => Sys2Proof.Machine.execChannelRetirementStallEnd t s
  | .errorRegisterExpiry t => Sys2Proof.Machine.execErrorRegisterExpiry t s
  | .takeMemoryError t mag first count => Sys2Proof.Machine.execTakeMemoryError t mag first count s
  | .paletteEccError t => Sys2Proof.Machine.execPaletteEccError t s
  | .displayFrameStart t ecc => Sys2Proof.Machine.execDisplayFrameStart t ecc s

end Sys2Proof.Machine
end

