-- ==== Sys2Proof/Safety.lean ====
section
/-! DEFINITION. The words in which statements about the block are made: what reaches an island, and which entries the shared
bookkeeping of codes, faults and events writes. -/

namespace Sys2Proof.Machine

/-- The entries that raising a code writes (R407, R420, R421, R493). -/
def codePlaces : List Nat :=
  [0x1001, 0x1003, Ix.fltLastError, Ix.fltPathError, Ix.fltLastErrorTime, Ix.fltErrorCount, Ix.dictEmcyLost, Ix.fltLogCount]

/-- The entries that a fault of a class writes besides (R482). -/
def faultPlaces : List Nat := Ix.fltClassCount :: Ix.fltInterruptMax :: codePlaces

/-- The counts of event records that found no ring. -/
def eventPlaces : List Nat :=
  [Ix.trgEventsLost, Ix.vpEventsLost, Ix.capEventsLost, Ix.strEventsLost, Ix.tbEventsLost, Ix.cfEventsLost, Ix.pwrEventsLost]

/-- The entries that taking or refusing a request writes (R404, R407). -/
def requestPlaces : List Nat := Ix.dictRequests :: Ix.dictRejections :: codePlaces

/-- The entries of a DDC that the standby takes over, and its own (R132, R135). -/
def standbyPlaces : List Nat := Ix.chnStandbyFor :: Ix.chnState :: ddcEntries ++ [Ix.chnFOut, Ix.chnGroupDelay]

/-- The entries that the loss of a repointing writes. -/
def repointPlaces : List Nat := [Ix.fltRepointState, Ix.fltRepointTarget, Ix.chnRepointState, Ix.speRepointState] ++ standbyPlaces

/-- The report entries of a layer and its lane (R143 to R155). -/
def layerPlaces : List Nat :=
  [Ix.speLayerCost, Ix.speLayerMem, Ix.speEnbw, Ix.speScallop, Ix.speIntercept, Ix.speLatency, Ix.speFloor, Ix.speCentre, Ix.speUsableFirst,
    Ix.speUsableCount, Ix.speLaneCost, Ix.speLaneFrames, Ix.speLaneMem, Ix.speCoreState]

/-- The reports of the pipeline, which follow sources, settings and clocks (R121, R131, R143 to R155, R160). -/
def pipePlaces : List Nat := standbyPlaces ++ layerPlaces

/-- A command written on a path reaches its island: the Supervisor runs, the path may write, and the island has power (R403, R404). -/
def Dev.reaches (d : Dev) (path ix : Nat) : Prop :=
  d.sup.running = true ∧ d.pathOpen path = true ∧ (d.hw.pwrGood = true ∨ needsPower ix = false)

/-- A wake source wakes nothing: it is masked, or no sleep is being entered and the module is awake or already waking (R431). -/
def Dev.wakesNothing (d : Dev) (k : Nat) : Prop :=
  d.wakeEnabled k = false ∨ (d.pwr.entering = none ∧ (d.n0 Ix.pwrState ≠ 2 ∨ d.pwr.waking.isSome = true))

/-- Two devices agree on every entry outside a list of indices. -/
def Dev.sameOutside (places : List Nat) (d e : Dev) : Prop :=
  ∀ ix sub inst, ix ∉ places → e.rd ix sub inst = d.rd ix sub inst

/-! ### What a command changes -/

/-- The parts of the device, each a field of `Dev`. -/
inductive Part where
  | now | dict | long | drawn | out | cut | hw | boot | sup | flt | itk | chn | spe | tb | ctr | cap | trg | den | vp | str | im | cf | pwr | cal
deriving DecidableEq, Repr

/-- Two devices agree in a part. -/
def Part.agrees (p : Part) (d e : Dev) : Prop :=
  match p with
  | .now => d.now = e.now
  | .dict => d.dict = e.dict
  | .long => d.long = e.long
  | .drawn => d.drawn = e.drawn
  | .out => d.out = e.out
  | .cut => d.cut = e.cut
  | .hw => d.hw = e.hw
  | .boot => d.boot = e.boot
  | .sup => d.sup = e.sup
  | .flt => d.flt = e.flt
  | .itk => d.itk = e.itk
  | .chn => d.chn = e.chn
  | .spe => d.spe = e.spe
  | .tb => d.tb = e.tb
  | .ctr => d.ctr = e.ctr
  | .cap => d.cap = e.cap
  | .trg => d.trg = e.trg
  | .den => d.den = e.den
  | .vp => d.vp = e.vp
  | .str => d.str = e.str
  | .im => d.im = e.im
  | .cf => d.cf = e.cf
  | .pwr => d.pwr = e.pwr
  | .cal => d.cal = e.cal

/-- From `d` to `e` nothing changes but the parts listed, and of the dictionary no entry but those of the indices listed. -/
def Dev.changesOnly (parts : List Part) (places : List Nat) (d e : Dev) : Prop :=
  (∀ p, p ∉ parts → p ≠ .dict → p.agrees d e) ∧ d.sameOutside places e

/-- The parts that raising a code changes beside the dictionary: the emergencies, the fault log, the wrap bits of its counts. -/
def codeParts : List Part := [.sup, .flt, .ctr]

/-- The parts that an event record changes beside the counts of records lost: the record on its way, and the wrap bits of those counts. -/
def eventParts : List Part := [.out, .ctr]

/-- The parts that taking a request changes beside the dictionary: a code's, and the module's idle time. -/
def requestParts : List Part := .pwr :: codeParts

/-- A command at instant `t` ends in a next state: the queue and all of capture memory are as before, of the device's parts and entries only
those listed differ from the device at that instant, and the device after it has a property. -/
def Completes (i : Instr) (t : Nat) (s : State) (parts : List Part) (places : List Nat) (post : Dev → Prop) : Prop :=
  ∃ d, exec i s = .next { s with dev := d } ∧ (s.dev.at t).changesOnly parts places d ∧ post d

/-- The same for a command that writes capture memory: `post` says what the memory holds then. -/
def CompletesMem (i : Instr) (t : Nat) (s : State) (parts : List Part) (places : List Nat) (post : Mem → Dev → Prop) : Prop :=
  ∃ m d, exec i s = .next { s with mem := m, dev := d } ∧ (s.dev.at t).changesOnly parts places d ∧ post m d

/-- An entry of `e` is the count of `d` gone up by `k`, as its type counts (R9). -/
def Dev.counted (d e : Dev) (ix sub inst k : Nat) : Prop :=
  e.rd ix sub inst = normTy (typeOf ix sub) (countUp (typeOf ix sub) (d.rd ix sub inst) k)

/-- The last code raised, and raised on a path: what its two entries read (R407). -/
def Dev.reports (d : Dev) (path c : Nat) : Prop := d.rd Ix.fltLastError 0 0 = c ∧ d.rd Ix.fltPathError path 0 = c

/-- Index and subindex of a key of the dictionary. -/
def keyIndex (key : Nat) : Nat := (Nat.unpair key).1
def keySub (key : Nat) : Nat := (Nat.unpair (Nat.unpair key).2).1

/-! ### Capture memory -/

/-- Every byte outside some addresses reads as before. -/
def Mem.sameOutside (inside : Nat → Prop) (m m' : Mem) : Prop := ∀ a, ¬ inside a → memRead m' a = memRead m a

/-- An address holds a byte of an owner's allocation, in a channel that is in service. -/
def Dev.owns (d : Dev) (kind num a : Nat) : Prop := ∃ x, d.allocOf kind num = some x ∧ ∃ o, a ∈ d.liveAddrs x o

/-! ### Events -/

/-- A condition's event at an instant: counted, the condition's last island clock, and given to every chain in use that names the condition and
has room for it, due by the chain's order (R174, R185 to R187). -/
def Dev.occurs (d e : Dev) (c time : Nat) : Prop :=
  d.counted e Ix.trgCondEvents (c + 1) 0 1 ∧ (e.cond c).clock = some (time * (d.clockKHz 4 * 1000) / two48) ∧
    ∀ k < 16, (d.chainAt k time).stages ≠ [] → bitOf (d.chainAt k time).names c = true →
      ((d.chain k).queue.filter (fun q => q.cond == c)).length < 4096 →
      (e.chain k).queue = (d.chain k).queue ++
        [{ cond := c, time := time, due := if (d.chainAt k time).order = 0 then time + ps (d.chainPs k)
                                           else max (time + ps (d.condPs c + d.scaledPs 4 40)) d.time96 }]

/-- A condition may emit an event at an instant: it is on, its instance runs, and its last event was in another island clock (R174, R207). -/
def Dev.mayEmit (d : Dev) (c time : Nat) : Prop :=
  (d.condAt c time).nI Ix.trgCondType c ≠ 0 ∧ d.instSuspended ((d.condAt c time).condInst c) = false ∧ (d.cond c).clock ≠ some (time * (d.clockKHz 4 * 1000) / two48)

/-- The entries that a take's report writes (Table 7.10). -/
def takePlaces : List Nat :=
  [Ix.trgTakeState, Ix.trgTakeTrigSec, Ix.trgTakeTrigFrac, Ix.trgTakeValidPre, Ix.trgTakeDataAddr, Ix.trgTakeLogAddr, Ix.trgTakeDataBytes]

/-- The entries that a handle's report writes (R241, R242). -/
def handlePlaces : List Nat := [Ix.vpHandleState, Ix.vpHandleId, Ix.vpHandleAddr, Ix.vpHandleGeom, Ix.vpPoolFree]

/-- The counts that a record lost at a ring may raise: its producer's and the ring's (R294). -/
def lossPlaces : List Nat :=
  [Ix.strRingDropped, Ix.trgEventsLost, Ix.vpEventsLost, Ix.capEventsLost, Ix.strEventsLost, Ix.tbEventsLost, Ix.imRecordsLost, Ix.cfEventsLost,
    Ix.pwrEventsLost, Ix.calEventsLost, Ix.ctrRecordsLost]

/-- The report entries of the volume (R306). -/
def volPlaces : List Nat := [Ix.strVolState, Ix.strVolMembers, Ix.strVolId, Ix.strVolFree]

/-! ### The map -/

/-- The parts and the entries that follow when the map of the Course Fabric changes (R374 to R386, R392). -/
def mapParts : List Part := [.cf, .out, .ctr]
def mapPlaces : List Nat :=
  [Ix.cfModules, Ix.cfTopologySeq, Ix.cfTimeParent, Ix.cfTimeDepth, Ix.cfBcastBound, Ix.cfBcastBoundSys, Ix.cfPrepareState, Ix.tbTimeState,
    Ix.strRingState] ++ eventPlaces

/-! ### Supplies -/

/-- Nothing holds the 12 V regulators off but a supply that is not there yet: AUX qualified, 12 V good, no trip, reset, pending power-loss
entry, failed rail or recovery, and the die below 90 °C (R53, R61, R72, R75). -/
def Dev.startClear (d : Dev) : Prop :=
  d.hw.auxQualified = true ∧ d.hw.v12Good = true ∧ d.hw.trip = false ∧ d.hw.resetLow = false ∧ d.hw.resetWritten = none ∧
    d.hw.lossPending = false ∧ d.hw.railFailed = false ∧ d.service ≠ 5 ∧ d.rd Ix.hwTemp 2 0 < 1440

/-- The core rails are down and the data path stopped: PWR_GOOD low, regulators off, both arrays driven no more, service 0, no cut waiting
and every island as at its start (Table 2.9). -/
def Dev.coreDown (d : Dev) : Prop :=
  d.hw.pwrGood = false ∧ d.hw.regulators = false ∧ d.hw.driven.get false 0 = false ∧ d.hw.driven.get false 1 = false ∧
    d.rd Ix.modService 0 0 = 0 ∧ d.cut.user = none ∧ d.cut.engine = [] ∧ d.itk = {} ∧ d.chn = {} ∧ d.spe = {} ∧ d.trg = {} ∧
    d.den = {} ∧ d.cap = {} ∧ d.im = {} ∧ d.cf = {}

/-- A command at instant `t` ends in a next state in which the capture memory is empty and the device has a property; the queue is as before.
The commands that take the core rails away say so: every island's state and every live entry starts again. -/
def CompletesLost (i : Instr) (s : State) (post : Dev → Prop) : Prop :=
  ∃ d, exec i s = .next { s with mem := [], dev := d } ∧ post d

end Sys2Proof.Machine
end

