-- ==== Sys2Proof/Certificates/Slice0/Obligations.lean ====
section
/-! DEFINITION. The statements for the provers. Every statement about a command has clauses of one form: for every state, and for every operands that meet
hypotheses on the device at the command's instant, the command ends in a next state in which only the parts and the entries listed differ, and in which what the clause
says holds (`Completes`, Sys2Proof/Safety.lean). -/

open Sys2Proof Sys2Proof.Machine

/-- A step is the command at the front of the queue acting on the state with the queue's rest. On an empty queue the block idles: the model's choice (log entry 1). -/
def Obligations.StepRunsTheFrontCommand : Prop :=
  (∀ (c : Instr) (rest : List Instr) (s : State), step { s with pending := c :: rest } = exec c { s with pending := rest }) ∧ (∀ s : State, s.pending = [] → step s = .next s)

/-- Before the first power-on nothing is pending, capture memory is empty and canonical, PWR_GOOD is low, the arrays are driven by nobody, the service is off and every entry
of the dictionary that is no instance of a special default reads the default of its row (Tables 2.5, 2.9 and the dictionary's tables). The zeros that the registers of the
islands and the bytes of memory hold are the model's choice (log entries 5 and 7). -/
def Obligations.ResetState : Prop :=
  State.reset.pending = [] ∧ State.reset.mem = [] ∧ Memory.wf State.reset.mem ∧ State.reset.dev.hw.pwrGood = false ∧ State.reset.dev.hw.driven = [] ∧
    State.reset.dev.sup.running = false ∧ State.reset.dev.sup.al = .away ∧ State.reset.dev.service = 0 ∧
    (∀ ix sub inst r, specialDefault ix sub = none → rowOf ix sub = some r → r.name ≠ "count" → State.reset.dev.rd ix sub inst = r.dflt) ∧
    State.reset.dev.rd Ix.tbLoopState 0 0 = 0 ∧ State.reset.dev.rd 0x1018 1 0 = 0xA7C ∧ State.reset.dev.rd 0x1018 2 0 = 0x12CA

/-- Whatever the command, in every state: each of the 293 forms completes, for all its operands; it changes capture memory and the device, never
the queue; no step is refused or faults, a step takes the front of the queue away and leaves the rest, and capture memory keeps its canonical form. -/
def Obligations.EveryStepKeepsMemoryAndQueue : Prop :=
  (∀ (i : Instr) (s : State), ∃ m d, exec i s = .next { s with mem := m, dev := d }) ∧
  ∀ s, (∀ r, step s ≠ .refused r) ∧ (∀ f, step s ≠ .fault f) ∧
    ∀ s', step s = .next s' → s'.pending = s.pending.tail ∧ (Memory.wf s.mem → Memory.wf s'.mem)

/-- R19, R487, R493: the end of a drain, the overflow of a pipeline crossing, and the emptying of the fault log. -/
def Obligations.DrainsCrossingsAndFaultLog : Prop :=
  (∀ t isl inst s e p, e = s.dev.at t → e.flt.drains.find? (fun p => p.1 == isl && p.2.1 == inst) = some p →
    Completes (.disableDrainEnd t isl inst 0) t s [.flt] [] fun d => d.flt = { e.flt with drains := e.flt.drains.erase p }) ∧
  (∀ t isl inst left s e p, e = s.dev.at t → e.flt.drains.find? (fun p => p.1 == isl && p.2.1 == inst) = some p → left ≠ 0 →
    p.2.2 + us 50 ≤ e.now → e.sup.emergencies.length < 32 →
    Completes (.disableDrainEnd t isl inst left) t s (.out :: codeParts) codePlaces fun d =>
      d.flt.drains = e.flt.drains.erase p ∧ d.out.gaps = addGap ⟨.link inst, 1, e.time96, e.time96, left, 0, 10⟩ e.out.gaps ∧
      d.rd Ix.fltLastError 0 0 = Code.drainForced ∧ d.rd Ix.fltPathError 4 0 = Code.drainForced) ∧
  (∀ t q first count s e c, e = s.dev.at t → q < 16 → c = e.srcClock (0x10 + q) → e.wideTaker (0x10 + q) = none →
    Completes (.pipelineCrossingOverflow t 1 q first count) t s (.out :: .chn :: codeParts) (Ix.itkGapSamples :: faultPlaces) fun d =>
      d.out.gaps = addGap ⟨.link q, 1, first, c.time (c.after first + count), count, 0, 10⟩ e.out.gaps ∧
      d.crossing (0x10 + q) = (e.crossing (0x10 + q)).overflow (c.after first) count ∧ e.counted d Ix.itkGapSamples (q + 1) 0 count ∧
      e.counted d Ix.fltClassCount 2 0 1) ∧
  (∀ t q first count s e c p, e = s.dev.at t → q < 16 → c = e.srcClock (0x10 + q) → e.wideTaker (0x10 + q) = some p →
    Completes (.pipelineCrossingOverflow t 1 q first count) t s (.out :: .chn :: codeParts) (Ix.itkGapSamples :: faultPlaces) fun d =>
      d.out.gaps = addGap ⟨.wide p, 1, first, c.time (c.after first + count), ceilDiv count (e.rawPer (0x10 + q)), 0, 10⟩
        (addGap ⟨.link q, 1, first, c.time (c.after first + count), count, 0, 10⟩ e.out.gaps) ∧
      e.counted d Ix.fltClassCount 2 0 1) ∧
  (∀ t n first count s e, e = s.dev.at t → n < 32 →
    Completes (.pipelineCrossingOverflow t 2 n first count) t s (.out :: .chn :: codeParts) (Ix.chnGapSamples :: faultPlaces) fun d =>
      d.out.gaps = addGap ⟨.ddc n, 1, first, e.ddcTime n (e.ddcAfter n first + count * 2 ^ e.nI Ix.chnDepth n), count, 0, 10⟩ e.out.gaps ∧
      e.counted d Ix.chnGapSamples (n + 1) 0 count ∧ e.counted d Ix.fltClassCount 2 0 1) ∧
  (∀ t p first count s e, e = s.dev.at t → p < 4 →
    Completes (.pipelineCrossingOverflow t 2 (0x80 + p) first count) t s (.out :: codeParts) faultPlaces fun d =>
      d.out.gaps = addGap ⟨.wide p, 1, first, e.srcTime (e.wideCode p) (e.srcAfter (e.wideCode p) 1 first + count), count, 0, 10⟩ e.out.gaps ∧
      e.counted d Ix.fltClassCount 2 0 1) ∧
  (∀ t l m count s e, e = s.dev.at t → l < 16 →
    Completes (.pipelineCrossingOverflow t 3 l m count) t s (.out :: .spe :: .trg :: .den :: codeParts)
      (Ix.speFramesLost :: Ix.trgMaskSkipped :: Ix.denFramesLost :: faultPlaces) fun d =>
      d.out.gaps = addGap ⟨.layer l, 2, e.frameTime l m, e.frameTime l (m + count), count, 0, 10⟩ e.out.gaps ∧
      e.counted d Ix.speFramesLost (l + 1) 0 count ∧ e.counted d Ix.fltClassCount 2 0 1) ∧
  (∀ t path s e, e = s.dev.at t → e.reaches path Ix.fltLogClear →
    Completes (.fltLogClear t path) t s (.flt :: requestParts) requestPlaces fun d => d.flt = { e.flt with log := [] })

/-- R28 to R32: what the commands of the cut entries do. A commit closes the staged set into the waiting cut, or is refused with CUT_BUSY or
CUT_NOTHING_STAGED and changes no cut; an abort before the commit point stages the set again, under the writes observed since; after it, or with
no cut of yours, it is answered with ALREADY_DONE; a discard empties the staged set. -/
def Obligations.CutCommandsCommitAbortAndDiscard : Prop :=
  (∀ t path s e, e = s.dev.at t → e.reaches path Ix.modCutCommit → e.cutWaiting = false → e.cut.staged ≠ [] →
    Completes (.cutCommit t path) t s (.cut :: requestParts) (Ix.modCutState :: requestPlaces) fun d =>
      d.cut = { e.cut with staged := [], user := some { writes := e.cut.staged, due := e.cutAt.1, explicit := e.cutAt.2, path := path, observed := e.now } } ∧
      d.rd Ix.modCutState 0 0 = 2) ∧
  (∀ t path s e, e = s.dev.at t → e.reaches path Ix.modCutCommit → 1 ≤ path ∧ path ≤ 4 → e.cutWaiting = true →
    Completes (.cutCommit t path) t s requestParts requestPlaces fun d =>
      d.rd Ix.fltLastError 0 0 = Code.cutBusy ∧ d.rd Ix.fltPathError path 0 = Code.cutBusy) ∧
  (∀ t path s e, e = s.dev.at t → e.reaches path Ix.modCutCommit → 1 ≤ path ∧ path ≤ 4 → e.cutWaiting = false → e.cut.staged = [] →
    Completes (.cutCommit t path) t s requestParts requestPlaces fun d =>
      d.rd Ix.fltLastError 0 0 = Code.cutNothingStaged ∧ d.rd Ix.fltPathError path 0 = Code.cutNothingStaged) ∧
  (∀ t path s e c, e = s.dev.at t → e.reaches path Ix.modCutCommit → e.cut.user = some c → c.distributed = false →
    Completes (.cutAbort t path) t s (.cut :: requestParts) (Ix.modCutState :: requestPlaces) fun d =>
      d.cut.user = none ∧ d.cut.staged = e.cut.staged.foldl (fun l w => putWrite w l) c.writes ∧
      d.rd Ix.modCutState 0 0 = (if e.cut.engine = [] then 1 else 2)) ∧
  (∀ t path s e, e = s.dev.at t → e.reaches path Ix.modCutCommit → 1 ≤ path ∧ path ≤ 4 → (∀ c, e.cut.user = some c → c.distributed = true) →
    e.sup.emergencies.length < 32 →
    Completes (.cutAbort t path) t s requestParts requestPlaces fun d =>
      d.rd Ix.fltLastError 0 0 = Code.alreadyDone ∧ d.rd Ix.fltPathError path 0 = Code.alreadyDone) ∧
  (∀ t path s e, e = s.dev.at t → e.reaches path Ix.modCutCommit →
    Completes (.cutDiscardStaged t path) t s (.cut :: requestParts) (Ix.modCutState :: requestPlaces) fun d =>
      d.cut = { e.cut with staged := [] } ∧ d.rd Ix.modCutState 0 0 = (if e.cutWaiting then e.rd Ix.modCutState 0 0 else 0))

/-- R29 to R31 and R28: the commit point and the application of a cut. A set that passes is distributed under the next sequence; one whose T is
past, or that an island rejects, is staged again; an island applies its part at or after T with a cut record, and the cut is complete when
the last island has; before T nothing changes. -/
def Obligations.CutCommitPointAndApplication : Prop :=
  (∀ t s e c, e = s.dev.at t → e.cut.user = some c → c.distributed = false → e.sup.running = true → c.kind = .user → c.path = 2 →
    (c.explicit = false ∨ e.soon ≤ c.due) → e.setCheck c.writes = [] →
    Completes (.cutCommitPoint t) t s [.cut] [] fun d =>
      d.cut = { e.cut with seqTaken := wrap48 (e.cut.seqTaken + 1), user := some { c with
        distributed := true, known := e.time96, seq := wrap48 (e.cut.seqTaken + 1), writes := c.writes ++ e.calExtra c.writes } }) ∧
  (∀ t s e c, e = s.dev.at t → e.cut.user = some c → c.distributed = false → e.sup.running = true → c.kind = .user → c.path = 2 →
    c.explicit = true → c.due < e.soon → e.cut.engine = [] →
    Completes (.cutCommitPoint t) t s (.cut :: codeParts) (Ix.modCutState :: Ix.dictRejections :: codePlaces) fun d =>
      d.cut = { e.cut with user := none, staged := e.cut.staged.foldl (fun l w => putWrite w l) c.writes } ∧ d.rd Ix.modCutState 0 0 = 4 ∧
      d.reports 2 Code.cutTimePast) ∧
  (∀ t s e c, e = s.dev.at t → e.cut.user = some c → c.distributed = false → e.sup.running = true → c.kind = .user → c.path = 2 →
    (c.explicit = false ∨ e.soon ≤ c.due) → e.setCheck c.writes ≠ [] → e.cut.engine = [] →
    Completes (.cutCommitPoint t) t s (.cut :: codeParts) (Ix.modCutState :: Ix.dictRejections :: codePlaces) fun d =>
      d.cut = { e.cut with user := none, staged := e.cut.staged.foldl (fun l w => putWrite w l) c.writes } ∧ d.rd Ix.modCutState 0 0 = 4) ∧
  (∀ t isl first s e c, e = s.dev.at t → 1 ≤ isl ∧ isl ≤ 12 → e.cut.user = some c → c.distributed = true → first < c.due →
    CompletesMem (.cutApply t isl first) t s [] [] fun m d => m = s.mem ∧ d.cut = e.cut) ∧
  (∀ t first s e c w, e = s.dev.at t → e.cut.user = some c → c.kind = .user → c.distributed = true → first = max c.due c.known →
    c.applied = [] → c.units = [] → c.writes = [w] → writeIsland w = 12 → w.ix ≠ Ix.pwrIslPoint → (w.ix < 0x5030 ∨ 0x5032 < w.ix) → w.ix ≠ Ix.itkSysrefDelay →
    w.ix ∉ Ix.modCutSeq :: Ix.modCutState :: eventPlaces → e.cut.engine = [] → c.seq < two48 →
    CompletesMem (.cutApply t 12 first) t s (.cut :: eventParts) (w.ix :: Ix.modCutSeq :: Ix.modCutState :: eventPlaces) fun m d =>
      m = s.mem ∧ d.rd w.ix w.sub w.inst = normTy (typeOf w.ix w.sub) w.value ∧ d.rd Ix.modCutSeq 0 0 = c.seq ∧ d.rd Ix.modCutState 0 0 = 3 ∧
      d.cut = { e.cut with user := none }) ∧
  (∀ t first s e c w w', e = s.dev.at t → e.cut.user = some c → c.kind = .user → c.distributed = true → first = max c.due c.known →
    c.applied = [] → c.units = [] → c.writes = [w, w'] → writeIsland w = 12 → writeIsland w' ≠ 12 → w.ix ≠ Ix.pwrIslPoint → (w.ix < 0x5030 ∨ 0x5032 < w.ix) →
    w.ix ∉ eventPlaces →
    CompletesMem (.cutApply t 12 first) t s (.cut :: eventParts) (w.ix :: eventPlaces) fun m d =>
      m = s.mem ∧ d.rd w.ix w.sub w.inst = normTy (typeOf w.ix w.sub) w.value ∧ d.cut.user = some { c with applied := [12], units := [(12, 0xFF)] }) ∧
  (∀ t first s e c, e = s.dev.at t → e.activeCut = some c → c.distributed = true → first = tickAt (max c.due c.known) → c.applied = [] →
    c.units = [] → c.kind = .repointOut → c.isl = 7 → e.islandOff 7 = false → e.mayStall = false →
    CompletesMem (.cutApply t 7 first) t s [.ctr] [Ix.capStallDeferrals] fun m d => m = s.mem ∧ e.counted d Ix.capStallDeferrals 0 0 1)

/-- R51 to R58, R61, R72: the supplies come and the core starts. AUX in range wakes the always-on domain and samples the straps; AUX qualified
and 12 V good start the 12 V regulators, in either order, and at the end of a reset, of a trip or of a held start; PWR_GOOD brings every island
up at 400 MHz; the power-loss entry is written. -/
def Obligations.SuppliesStartTheCore : Prop :=
  (∀ t straps conv s e, e = s.dev.at t → e.hw.auxIn = false → e.hw.v12Early = false →
    Completes (.auxEnterRange t straps conv) t s [.hw] [Ix.modService, Ix.pwrState, Ix.modSlotId] fun d =>
      d.hw = { e.hw with auxIn := true, auxSince := e.now, auxQualified := false, trimOut := [], lossFound := e.hw.lossFlag } ∧
      d.rd Ix.modService 0 0 = 0 ∧ d.rd Ix.pwrState 0 0 = 1 ∧ d.rd Ix.modSlotId 5 0 = (straps % 1024 : Nat) ∧
      d.rd Ix.modSlotId 6 0 = (conv % 16 : Nat)) ∧
  (∀ t straps conv s e, e = s.dev.at t → e.hw.auxIn = false → e.hw.v12Early = true → e.sup.emergencies.length < 32 →
    Completes (.auxEnterRange t straps conv) t s (.hw :: codeParts) ([Ix.modService, Ix.pwrState, Ix.modSlotId] ++ codePlaces) fun d =>
      d.hw = { e.hw with auxIn := true, auxSince := e.now, auxQualified := false, trimOut := [], lossFound := e.hw.lossFlag } ∧
      d.rd Ix.fltPathError 4 0 = Code.auxSequence) ∧
  (∀ t s e, e = s.dev.at t → e.hw.auxIn = true → e.hw.auxSince + ms 1 ≤ e.now →
    { e with hw := { e.hw with auxQualified := true } }.startClear →
    Completes (.auxQualified t) t s [.hw] [] fun d =>
      d.hw = { e.hw with auxQualified := true, v12Early := false, regulators := true, startHeld := false, lossFlag := true }) ∧
  (∀ t s e, e = s.dev.at t → e.hw.v12Good = false → { e with hw := { e.hw with v12Good := true } }.startClear →
    Completes (.v12Good t) t s [.hw] [] fun d =>
      d.hw = { e.hw with v12Good := true, lossFlag := true, regulators := true, startHeld := false }) ∧
  (∀ t s e, e = s.dev.at t → e.hw.v12Good = false → e.hw.auxQualified = false → e.hw.auxIn = true → e.sup.emergencies.length < 32 →
    Completes (.v12Good t) t s (.hw :: codeParts) codePlaces fun d =>
      d.hw = { e.hw with v12Good := true, lossFlag := true, v12Early := true } ∧ d.rd Ix.fltPathError 4 0 = Code.auxSequence) ∧
  (∀ t s e, e = s.dev.at t → e.hw.regulators = true → e.hw.v12Good = true → e.hw.pwrGood = false → e.hw.railFailed = false →
    (e.rd Ix.tbRefState 1 0 = 2 ∨ e.rd Ix.tbRefState 2 0 = 2) →
    Completes (.pwrGoodRise t) t s [.hw, .tb] ([Ix.tbIslFreq, Ix.tbPllState, Ix.pwrState, Ix.strLinkState, Ix.tbAuxState] ++ pipePlaces) fun d =>
      d.hw = { e.hw with pwrGood := true, pRise := e.now } ∧ d.rd Ix.pwrState 0 0 = 3 ∧ d.tb.gated = false ∧
      d.rd Ix.strLinkState 0 0 = (if e.hw.perstLow then e.rd Ix.strLinkState 0 0 else 1) ∧
      ∀ i, 1 ≤ i → i ≤ 12 → d.rd Ix.tbIslFreq i 0 = 400000 ∧ d.rd Ix.tbPllState i 0 = 2) ∧
  (∀ t s e, e = s.dev.at t → e.hw.regulators = true → e.hw.v12Good = true → e.hw.pwrGood = false → e.hw.railFailed = false →
    e.rd Ix.tbRefState 1 0 ≠ 2 → e.rd Ix.tbRefState 2 0 ≠ 2 → e.sup.emergencies.length < 32 →
    Completes (.pwrGoodRise t) t s (.hw :: .tb :: codeParts)
      ([Ix.tbIslFreq, Ix.tbPllState, Ix.pwrState, Ix.strLinkState, Ix.tbAuxState] ++ pipePlaces ++ codePlaces) fun d =>
      d.hw = { e.hw with pwrGood := true, pRise := e.now } ∧ d.tb.gated = true ∧ d.reports 4 Code.noReferenceAtStart) ∧
  (∀ t s e, e = s.dev.at t → e.hw.lossPending = true → e.hw.v12Good = false →
    (∀ x ∈ e.flt.log.head?, x.time ≠ e.time96) →
    Completes (.powerLossLogWrite t) t s [.hw, .flt, .ctr] [Ix.fltLogCount] fun d =>
      d.hw = { e.hw with lossPending := false, lossFlag := false } ∧
      d.flt.log.head? = some ⟨Code.railFault, e.flt.logSeq, e.time96, 0xC, 0xFF, 5, e.n0 Ix.modBootCount % 2 ^ 24, 0, 0⟩) ∧
  (∀ t straps s e, e = s.dev.at t → e.hw.resetLow = true → { e with hw := { e.hw with resetLow := false, trip := false, railFailed := false } }.startClear →
    Completes (.resetNRelease t straps) t s [.hw] [Ix.modSlotId] fun d =>
      d.hw = { e.hw with resetLow := false, trip := false, railFailed := false, regulators := true, startHeld := false, lossFlag := true } ∧
      d.rd Ix.modSlotId 5 0 = (straps % 1024 : Nat)) ∧
  (∀ t straps s e w, e = s.dev.at t → e.hw.resetWritten = some w → w + ms 10 ≤ e.now → { e with hw := { e.hw with resetWritten := none } }.startClear →
    Completes (.modResetRestart t straps) t s [.hw] [Ix.modSlotId] fun d =>
      d.hw = { e.hw with resetWritten := none, regulators := true, startHeld := false, lossFlag := true } ∧ d.rd Ix.modSlotId 5 0 = (straps % 1024 : Nat)) ∧
  (∀ t path s e, e = s.dev.at t → e.reaches path Ix.hwRestart → e.hw.trip = true → { e with hw := { e.hw with trip := false } }.startClear →
    Completes (.hwRestart t path) t s (.hw :: requestParts) requestPlaces fun d =>
      d.hw = { e.hw with trip := false, lossFlag := true, regulators := true, startHeld := false }) ∧
  (∀ t path s e, e = s.dev.at t → e.reaches path Ix.hwRestart → 1 ≤ path ∧ path ≤ 4 → (e.hw.trip = false ∨ 1440 ≤ e.rd Ix.hwTemp 2 0) →
    Completes (.hwRestart t path) t s requestParts requestPlaces fun d =>
      d.rd Ix.fltLastError 0 0 = Code.restartRefused ∧ d.rd Ix.fltPathError path 0 = Code.restartRefused) ∧
  (∀ t (temp : Int) s e, e = s.dev.at t → e.hw.startHeld = true → temp < 1440 → -1000 ≤ temp → e.hw.throttling = false →
    (e.wr Ix.hwTemp 2 0 temp).startClear →
    Completes (.dieCoolStart t temp) t s [.hw] [Ix.hwTemp] fun d =>
      d.hw = { e.hw with regulators := true, startHeld := false, lossFlag := true } ∧ d.rd Ix.hwTemp 2 0 = temp)

/-- R51, R54, R61, R72, Table 2.9: what takes the core rails away. AUX lost, 12 V below or above its range or a rail outside its window while
PWR_GOOD is high, RESET_N low for 12 samples, a written reset and the thermal trip each stop the core and empty capture memory; a brown-out, an
overvoltage and a rail fault leave a power-loss entry to be written and RAIL_FAULT, a trip holds the regulators off. -/
def Obligations.LossOfTheCoreRails : Prop :=
  (∀ t s e, e = s.dev.at t → e.hw.auxIn = true →
    CompletesLost (.auxLoss t) s fun d => d.coreDown ∧ d.hw.auxIn = false ∧ d.hw.auxQualified = false ∧ d.hw.trip = false ∧ d.hw.trimOut = [] ∧
      d.sup.al = .away ∧ d.rd Ix.pwrState 0 0 = 0 ∧ d.now = e.now) ∧
  (∀ t s e, e = s.dev.at t → e.hw.pwrGood = true →
    CompletesLost (.v12Brownout t) s fun d => d.coreDown ∧ d.hw.v12Good = false ∧ d.hw.lossPending = true ∧ d.now = e.now) ∧
  (∀ t s e, e = s.dev.at t → e.hw.pwrGood = false →
    Completes (.v12Brownout t) t s [.hw] [] fun d =>
      d.hw = { e.hw with v12Good := false, v12Early := false, regulators := false, startHeld := false }) ∧
  (∀ t s e, e = s.dev.at t → e.hw.pwrGood = true →
    CompletesLost (.v12Overvoltage t) s fun d => d.coreDown ∧ d.hw.v12Good = false ∧ d.hw.lossPending = true ∧ d.now = e.now) ∧
  (∀ t rail mv ca s e, e = s.dev.at t → 1 ≤ rail → rail ≤ 8 → (mv < (railWindow rail).1 ∨ (railWindow rail).2 < mv) → e.hw.pwrGood = true →
    CompletesLost (.railOutOfRegulation t rail mv ca) s fun d => d.coreDown ∧ d.hw.railFailed = true ∧ d.hw.lossPending = true ∧ d.now = e.now) ∧
  (∀ t rail mv ca s e, e = s.dev.at t → 1 ≤ rail → rail ≤ 8 → (railWindow rail).1 ≤ mv → mv ≤ (railWindow rail).2 → mv < 65536 → ca < 65536 →
    Completes (.railOutOfRegulation t rail mv ca) t s [] [Ix.hwRailMv, Ix.hwRailMa] fun d =>
      d.rd Ix.hwRailMv rail 0 = mv ∧ d.rd Ix.hwRailMa rail 0 = ca) ∧
  (∀ t samples s e, e = s.dev.at t → 12 ≤ samples → e.hw.auxIn = true →
    CompletesLost (.resetNAssert t samples) s fun d => d.coreDown ∧ d.hw.resetLow = true ∧ d.hw.trip = e.hw.trip ∧ d.hw.trimOut = e.hw.trimOut ∧
      d.sup.al = .away ∧ d.tb = e.tb ∧ d.now = e.now) ∧
  (∀ t samples s e, e = s.dev.at t → samples < 12 →
    Completes (.resetNAssert t samples) t s [] [] fun d => d = e) ∧
  (∀ t path s e, e = s.dev.at t → e.sup.running = true → e.pathOpen path = true →
    CompletesLost (.modReset t path) s fun d => d.coreDown ∧ d.hw.resetWritten = some e.now ∧ d.hw.trimOut = e.hw.trimOut ∧ d.sup.al = .away ∧
      d.sup.running = false ∧ d.now = e.now) ∧
  (∀ t (temp : Int) s e, e = s.dev.at t → e.rd Ix.hwTempTrip 0 0 ≤ temp → e.hw.pwrGood = true →
    CompletesLost (.thermalTrip t temp) s fun d => d.coreDown ∧ d.hw.trip = true ∧ d.hw.lossFlag = false ∧ d.now = e.now)

/-- R61, R65, R69: throttling, the inlet's excursion, and the relays of the field network. -/
def Obligations.ThermalReportsAndRelays : Prop :=
  (∀ t (temp : Int) s e, e = s.dev.at t → e.rd Ix.hwTempThrottle 0 0 ≤ temp → -2048 ≤ temp → temp ≤ 2047 → e.hw.throttling = false → e.hw.pwrGood = true →
    e.sup.running = true → e.n0 Ix.pwrDegraded < 256 →
    Completes (.thermalThrottle t temp []) t s (.hw :: .out :: .pwr :: codeParts) (Ix.hwTemp :: Ix.pwrDegraded :: eventPlaces ++ codePlaces) fun d =>
      d.hw = { e.hw with throttling := true, thermLow := true } ∧ d.rd Ix.hwTemp 2 0 = temp ∧
      (e.time96, Happening.degradation 0xC []) ∈ d.out.happenings ∧ d.n0 Ix.pwrDegraded = setBitTo (e.n0 Ix.pwrDegraded) 5 true) ∧
  (∀ t (temp v : Int) others s e, e = s.dev.at t → (temp < e.rd Ix.hwTempThrottle 0 0 ∨ e.hw.throttling = true) → -2048 ≤ temp → temp ≤ 2047 →
    e.rd Ix.hwTempThrottle 0 0 < temp + 48 → -2048 ≤ v → v ≤ 2047 → others = [v] →
    Completes (.thermalThrottle t temp others) t s [] [Ix.hwTemp] fun d => d.rd Ix.hwTemp 2 0 = temp ∧ d.rd Ix.hwTemp 3 0 = v) ∧
  (∀ t (temp : Int) s e, e = s.dev.at t → temp + 48 ≤ e.rd Ix.hwTempThrottle 0 0 → -2048 ≤ temp → e.hw.throttling = true →
    Completes (.thermalThrottle t temp []) t s [.hw, .sup] [Ix.hwTemp] fun d =>
      d.hw = { e.hw with throttling := false, thermLow := false } ∧ d.rd Ix.hwTemp 2 0 = temp) ∧
  (∀ t (temp : Int) s e, e = s.dev.at t → e.inletMax < temp → temp ≤ 2047 → e.hw.inletOver = false → e.sup.emergencies.length < 32 →
    Completes (.inletOverGrade t temp) t s (.hw :: codeParts) (Ix.hwTemp :: codePlaces) fun d =>
      d.hw = { e.hw with inletOver := true } ∧ d.rd Ix.hwTemp 1 0 = temp ∧ d.rd Ix.fltLastError 0 0 = Code.inletOverGrade) ∧
  (∀ t (temp : Int) s e, e = s.dev.at t → e.inletMax < temp → temp ≤ 2047 → e.hw.inletOver = true →
    Completes (.inletOverGrade t temp) t s [] [Ix.hwTemp] fun d => d.rd Ix.hwTemp 1 0 = temp) ∧
  (∀ t s e, e = s.dev.at t → Completes (.ecatWatchdogExpiry t) t s [.sup] [Ix.hwEcatRelay] fun d =>
    d.sup = { e.sup with al := .away } ∧ d.rd Ix.hwEcatRelay 0 0 = 0) ∧
  (∀ t s e, e = s.dev.at t → e.sup.emergencies.length < 32 →
    Completes (.relayFault t) t s codeParts codePlaces fun d => d.rd Ix.fltLastError 0 0 = Code.relayFault ∧ d.rd Ix.fltPathError 4 0 = Code.relayFault) ∧
  (∀ t s e, e = s.dev.at t → e.hw.auxIn = true → e.hw.resetLow = false → e.sup.al = .away →
    Completes (.ecatSlaveReady t) t s [.sup] [Ix.hwEcatRelay] fun d =>
      d.sup = { e.sup with al := if e.sup.running then .preop else .init, alStatus := 0, alError := false } ∧ d.rd Ix.hwEcatRelay 0 0 = 1)

/-- R62, R63: the optical bypass arrays. Insertion starts where the array may be driven, release returns an array that is inserted or inserting,
a transition ends in the state that was commanded and is counted, and one not done within 10 ms is stuck and driven back. -/
def Obligations.BypassArrays : Prop :=
  (∀ t dim s e, e = s.dev.at t → dim < 2 → e.rd Ix.hwBypassForce (dim + 1) 0 ≠ 1 → e.mayDrive = true →
    (e.rd Ix.hwBypassState (dim + 1) 0 = 0 ∨ e.rd Ix.hwBypassState (dim + 1) 0 = 3) →
    Completes (.bypassInsert t dim) t s [.hw] [Ix.hwBypassState] fun d =>
      d.hw = { e.hw with driven := e.hw.driven.set false dim true, moving := e.hw.moving.put dim e.now } ∧ d.rd Ix.hwBypassState (dim + 1) 0 = 1) ∧
  (∀ t dim s e, e = s.dev.at t → dim < 2 → (e.rd Ix.hwBypassState (dim + 1) 0 = 1 ∨ e.rd Ix.hwBypassState (dim + 1) 0 = 2) →
    Completes (.bypassRelease t dim) t s [.hw] [Ix.hwBypassState] fun d =>
      d.hw = { e.hw with driven := e.hw.driven.set false dim false, moving := e.hw.moving.put dim e.now } ∧ d.rd Ix.hwBypassState (dim + 1) 0 = 3) ∧
  (∀ t dim s e w, e = s.dev.at t → dim < 2 → e.hw.moving.find? dim = some w →
    Completes (.bypassTransitionDone t dim) t s [.hw, .boot, .ctr] [Ix.hwBypassState, Ix.hwBypassCycles, Ix.cfPortState, Ix.modBringup, Ix.cfState] fun d =>
      d.hw = { e.hw with moving := e.hw.moving.del dim } ∧
      d.rd Ix.hwBypassState (dim + 1) 0 = (if e.rd Ix.hwBypassState (dim + 1) 0 = 1 then 2 else 0)) ∧
  (∀ t dim s e w, e = s.dev.at t → dim < 2 → e.hw.moving.find? dim = some w → w + ms 10 ≤ e.now → e.rd Ix.hwBypassState (dim + 1) 0 ≠ 4 →
    Completes (.bypassStuck t dim) t s (.hw :: codeParts) (Ix.hwBypassState :: faultPlaces) fun d =>
      d.hw = { e.hw with driven := e.hw.driven.set false dim false, moving := e.hw.moving.put dim e.now } ∧ d.rd Ix.hwBypassState (dim + 1) 0 = 4)

/-- R64: writing 1 to the force entry of an array returns it at once and holds it through, and the fabric's request to insert a forced array is
refused with BYPASS_FORCED and moves nothing. -/
def Obligations.ForcedBypassStaysThrough : Prop :=
  (∀ t path dim s e, e = s.dev.at t → e.reaches path Ix.hwBypassForce → dim < 2 → (e.rd Ix.hwBypassState (dim + 1) 0 = 1 ∨ e.rd Ix.hwBypassState (dim + 1) 0 = 2) →
    Completes (.hwBypassForce t path dim) t s (.hw :: requestParts) (Ix.hwBypassForce :: Ix.hwBypassState :: requestPlaces) fun d =>
      d.hw = { e.hw with driven := e.hw.driven.set false dim false, moving := e.hw.moving.put dim e.now } ∧
      d.rd Ix.hwBypassForce (dim + 1) 0 = 1 ∧ d.rd Ix.hwBypassState (dim + 1) 0 = 3) ∧
  (∀ t path dim s e, e = s.dev.at t → e.reaches path Ix.hwBypassForce → dim < 2 → e.rd Ix.hwBypassState (dim + 1) 0 = 0 →
    Completes (.hwBypassForce t path dim) t s (.hw :: requestParts) (Ix.hwBypassForce :: requestPlaces) fun d =>
      d.hw = { e.hw with driven := e.hw.driven.set false dim false } ∧ d.rd Ix.hwBypassForce (dim + 1) 0 = 1) ∧
  (∀ t dim s e, e = s.dev.at t → dim < 2 → e.rd Ix.hwBypassForce (dim + 1) 0 = 1 →
    Completes (.bypassInsert t dim) t s codeParts codePlaces fun d =>
      d.hw = e.hw ∧ d.rd Ix.hwBypassState (dim + 1) 0 = e.rd Ix.hwBypassState (dim + 1) 0 ∧ d.rd Ix.fltLastError 0 0 = Code.bypassForced ∧ d.rd Ix.fltPathError 4 0 = Code.bypassForced)

/-- R73 to R75, R55, R59: the boot ROM's choice, its fallback and recovery; the Supervisor's start; a trial image that the watchdog fails. -/
def Obligations.FirmwareImagesAtBoot : Prop :=
  (∀ t (n : Nat) okA okB s e, e = s.dev.at t → e.hw.auxIn = true → e.hw.resetLow = false → e.hw.resetWritten = none → e.sup.running = false →
    e.sup.restarting = false → e.n0 Ix.modBootImage = 0 → e.service ≠ 5 → (n = 1 ∨ n = 2) → e.n0 Ix.modBootSelect = n →
    e.imageOk okA okB n = true →
    Completes (.bootImageSelect t okA okB) t s [.boot, .ctr] [Ix.modBootCount, Ix.modBootImage] fun d =>
      d.rd Ix.modBootImage 0 0 = n ∧ d.boot.trialSince = (if e.nI Ix.modImageState (n - 1) = 1 then some e.now else none) ∧
      d.boot.select = n ∧ d.boot.memtest = e.n0 Ix.modMemtest ∧ d.boot.autoJoin = e.n0 Ix.cfAutoJoin) ∧
  (∀ t (n : Nat) okA okB s e, e = s.dev.at t → e.hw.auxIn = true → e.hw.resetLow = false → e.hw.resetWritten = none → e.sup.running = false →
    e.sup.restarting = false → e.n0 Ix.modBootImage = 0 → e.service ≠ 5 → (n = 1 ∨ n = 2) → e.n0 Ix.modBootSelect = n →
    e.imageOk okA okB n = false → e.imageOk okA okB (3 - n) = true → e.sup.emergencies.length < 32 →
    Completes (.bootImageSelect t okA okB) t s (.boot :: codeParts) (Ix.modBootCount :: Ix.modFallbackCount :: Ix.modBootImage :: codePlaces) fun d =>
      d.rd Ix.modBootImage 0 0 = (3 - n : Nat) ∧ d.rd Ix.fltLastError 0 0 = Code.imageFallback) ∧
  (∀ t s e, e = s.dev.at t → e.hw.auxIn = true → e.hw.resetLow = false → e.hw.resetWritten = none → e.sup.running = false →
    e.sup.restarting = false → e.n0 Ix.modBootImage = 0 → e.service ≠ 5 → e.hw.pwrGood = false → e.sup.emergencies.length < 32 →
    Completes (.bootImageSelect t false false) t s (.boot :: .hw :: codeParts)
      (Ix.modBootCount :: Ix.modBootImage :: Ix.modService :: Ix.modBringup :: Ix.hwBypassState :: codePlaces) fun d =>
      d.rd Ix.modService 0 0 = 5 ∧ d.rd Ix.modBootImage 0 0 = 0 ∧ d.hw.regulators = false ∧ d.hw.driven.get false 0 = false ∧
      d.hw.driven.get false 1 = false ∧ d.rd Ix.fltLastError 0 0 = Code.noValidImage) ∧
  (∀ t s e, e = s.dev.at t → e.hw.auxIn = true → e.hw.resetLow = false → e.sup.running = false → e.sup.restarting = false →
    e.n0 Ix.modBootImage ≠ 0 → e.service ≠ 5 → e.hw.lossFound = false → e.cal.saved.writes = [] →
    Completes (.supervisorStart t) t s [.sup, .long, .cal, .hw] [Ix.modBringup, Ix.fltMcodeVer] fun d =>
      d.sup.running = true ∧ d.sup.al = (if e.sup.al = .init then .preop else e.sup.al) ∧ d.cal.lags = e.cal.saved.lags ∧
      ∀ k < 16, d.hw.trimOut.get 0 k = (e.rd Ix.calTrimCode (k + 1) 0).toNat) ∧
  (∀ t s e, e = s.dev.at t → e.hw.auxIn = true → e.hw.resetLow = false → e.sup.running = false → e.sup.restarting = false →
    e.n0 Ix.modBootImage ≠ 0 → e.service ≠ 5 → e.hw.lossFound = true → e.cal.saved.writes = [] →
    Completes (.supervisorStart t) t s (.long :: .cal :: .hw :: codeParts) (Ix.modBringup :: Ix.fltMcodeVer :: Ix.hwUnloggedLoss :: codePlaces) fun d =>
      d.sup.running = true ∧ d.hw.lossFound = false ∧ d.rd Ix.hwUnloggedLoss 0 0 = normTy (typeOf Ix.hwUnloggedLoss 0) (countUp (typeOf Ix.hwUnloggedLoss 0) (e.rd Ix.hwUnloggedLoss 0 0) 1)) ∧
  (∀ t s e w (n : Nat), e = s.dev.at t → e.boot.trialSince = some w → w + sec ≤ e.now → e.n0 Ix.fltUpdateState ≠ 2 → e.service = 0 →
    e.sup.running = false → e.n0 Ix.modBootImage = n → (n = 1 ∨ n = 2) → e.imageOk true true (3 - n) = true → e.sup.emergencies.length < 32 →
    Completes (.trialWatchdogExpiry t true) t s (.boot :: codeParts)
      (Ix.modImageState :: Ix.modBootCount :: Ix.modFallbackCount :: Ix.modBootImage :: codePlaces) fun d =>
      d.rd Ix.modImageState n 0 = 3 ∧ d.rd Ix.modBootImage 0 0 = (3 - n : Nat) ∧ d.rd Ix.fltLastError 0 0 = Code.imageFallback)

/-- R80, R81, R84: bring-up steps that complete, a step that its timeout fails, a dark ring port, and the changeover you or the engine
commit once the engine is ready. -/
def Obligations.BringUpStepsAndChangeover : Prop :=
  (∀ t step s e, e = s.dev.at t → e.stepRuns step = true → (step = 5 ∨ step = 6) → e.n0 Ix.modBringup < 65536 →
    Completes (.bringupStepDone t step 0) t s [.boot, .cut] [Ix.modBringup, Ix.capState, Ix.modCutState] fun d =>
      d.boot = { e.boot with done := step :: e.boot.done } ∧ bitOf (d.n0 Ix.modBringup) step = true) ∧
  (∀ t s e, e = s.dev.at t → e.stepRuns 4 = true → e.n0 Ix.modBringup < 65536 →
    Completes (.bringupStepDone t 4 0) t s [.boot, .cut, .itk] [Ix.modBringup, Ix.capState, Ix.modCutState, Ix.itkLaneStatus] fun d =>
      d.boot = { e.boot with done := 4 :: e.boot.done } ∧ bitOf (d.n0 Ix.modBringup) 4 = true ∧ ∀ n < 64, (d.lane n).calFailed = false) ∧
  (∀ t s e, e = s.dev.at t → e.stepRuns 10 = true → e.n0 Ix.modBringup < 65536 →
    Completes (.bringupStepDone t 10 0) t s [.boot, .cut]
      [Ix.modBringup, Ix.capState, Ix.modCutState, Ix.calObjState, Ix.calObjTemp, Ix.calObjTime] fun d =>
      d.boot = { e.boot with done := 10 :: e.boot.done } ∧ bitOf (d.n0 Ix.modBringup) 10 = true ∧ d.nW Ix.calObjState 0x0900 = 1) ∧
  (∀ t s e, e = s.dev.at t → e.stepRuns 7 = true → 7 ∉ e.boot.failed →
    Completes (.bringupStepDone t 7 0) t s [.boot, .cut]
      [Ix.modBringup, Ix.capState, Ix.modCutState, Ix.capChanState, Ix.capRankState, Ix.capChannels, Ix.capCapacity, Ix.capFree] fun d =>
      d.boot = { e.boot with done := 7 :: e.boot.done } ∧ ∀ c < 8, d.rd Ix.capChanState (c + 1) 0 = 1) ∧
  (∀ t bad s e, e = s.dev.at t → e.stepRuns 13 = true → e.hw.pRise + (if e.boot.memtest = 1 then 60 else 20) * sec ≤ e.now → e.service = 1 →
    e.sup.emergencies.length < 32 →
    Completes (.bringupTimeout t 13 bad) t s (.boot :: codeParts) (Ix.modService :: codePlaces) fun d =>
      d.boot = { e.boot with failed := 13 :: e.boot.failed } ∧ d.rd Ix.modService 0 0 = 4 ∧ d.rd Ix.fltLastError 0 0 = Code.bringupTimeout) ∧
  (∀ t port s e w, e = s.dev.at t → port < 4 → e.boot.inserted.find? (port / 2) = some w → e.portState port = 1 → w + 2 * sec ≤ e.now →
    port ∉ e.boot.dark →
    Completes (.fabricPortDark t port) t s [.boot, .out] [Ix.modBringup] fun d =>
      d.boot = { e.boot with dark := port :: e.boot.dark } ∧ d.out.happenings = e.out.happenings ++ [(e.time96, .linkDown 1 port)]) ∧
  (∀ t path s e, e = s.dev.at t → e.reaches path Ix.modChangeover → e.service = 1 → bitOf (e.n0 Ix.modBringup) 13 = true →
    (∀ c ∈ e.cut.engine, c.kind ≠ .changeover) →
    Completes (.modChangeover t path) t s (.cut :: requestParts) (Ix.modCutState :: requestPlaces) fun d =>
      d.cut.engine = e.cut.engine ++ [{ kind := .changeover, due := e.cutAt.1, explicit := e.cutAt.2, path := path, observed := e.now }] ∧
      d.rd Ix.modCutState 0 0 = 2) ∧
  (∀ t path s e, e = s.dev.at t → e.reaches path Ix.modChangeover → 1 ≤ path ∧ path ≤ 4 →
    (e.service = 0 ∨ e.service = 4 ∨ e.service = 5 ∨ e.service = 1 ∧ bitOf (e.n0 Ix.modBringup) 13 = false) →
    Completes (.modChangeover t path) t s requestParts requestPlaces fun d =>
      d.rd Ix.fltLastError 0 0 = Code.notReady ∧ d.rd Ix.fltPathError path 0 = Code.notReady)

/-- R70, R76, R333, R446: rushes service begins 0.4 s after PWR_GOOD at the earliest: TIME96 runs, the widths are 16 bits and every island is
at P3. Nothing is shadowed here, and no configuration was kept through a loss of the rails. -/
def Obligations.RushesServiceStarts : Prop :=
  ∀ t s e, e = s.dev.at t → e.sup.running = true → e.hw.pwrGood = true → e.service = 0 → e.hw.pRise + ms 400 ≤ e.now → e.cut.shadow = [] →
    (∀ p ∈ e.dict, islandOfIx (keyIndex p.1) ∈ [1, 2, 3, 4, 5, 6, 0xA] → ∀ r, rowOf (keyIndex p.1) (keySub p.1) = some r → r.effect ≠ .cut) →
    7 ∉ e.boot.failed → 13 ∉ e.boot.failed → e.rushesLanes = true →
    ∃ d, exec (.rushesStart t) s = .next { s with dev := d } ∧ d.tb.running = true ∧ d.rd Ix.modService 0 0 = 1 ∧ d.rd Ix.chnWidth 0 0 = 16 ∧
      (∀ k, 1 ≤ k → k ≤ 4 → d.rd Ix.speWidth k 0 = 16) ∧ (∀ i, 1 ≤ i → i ≤ 12 → d.rd Ix.pwrIslPoint i 0 = 3) ∧
      (∃ tm, (tm, Happening.rushesReady) ∈ d.out.happenings) ∧ d.boot.trialSince = none

/-- R82, R83: the changeover is complete once every island has applied its cut and no pipeline island relocks: full service begins, the gap
closes, the hop table is kept in flash, and the first sample's time is reported. -/
def Obligations.ChangeoverCompletes : Prop :=
  ∀ t first s e, e = s.dev.at t → e.service = 2 → (∀ c ∈ e.cut.engine, c.kind ≠ .changeover) → (∀ p ∈ e.tb.relocking, 12 < p.1) →
    (∀ x ∈ e.boot.gapOpen, x ≤ first) → e.cut.shadow = [] →
    ∃ m d, exec (.changeoverComplete t first) s = .next { s with mem := m, dev := d } ∧ d.rd Ix.modService 0 0 = 3 ∧ d.boot.gapOpen = none ∧
      d.tb.hopsFlash = e.tb.hops ∧ (e.time96, Happening.changeover) ∈ d.out.happenings ∧ d.now = e.now ∧
      d.rd Ix.modChangeoverSec 1 0 = sec48 first ∧ d.rd Ix.modChangeoverSec 2 0 = frac48 first

/-- R40, R412, R424, R431, R434: a restart of the Supervisor and its return, the end of a wake, the wake of one island. -/
def Obligations.SupervisorRestartReturnAndWakes : Prop :=
  (∀ t faulted s e, e = s.dev.at t → e.sup.running = true → e.n0 Ix.fltUpdateState ≠ 3 →
    Completes (.supervisorRestart t faulted) t s (.chn :: .cut :: .cal :: .out :: codeParts)
      (Ix.modCutState :: Ix.fltRestarts :: Ix.modBringup :: repointPlaces ++ codePlaces) fun d =>
      d.sup.running = false ∧ d.sup.restarting = true ∧ d.sup.queued = e.sup.queued ∧
      d.cut.user = e.cut.user.filter (fun c => c.distributed) ∧
      (∀ c ∈ d.cut.engine, c ∈ e.cut.engine) ∧ (∀ c ∈ e.cut.engine, c.distributed = true → c ∈ d.cut.engine) ∧
      (e.sup.al = .safeop ∨ e.sup.al = .op → d.sup.al = .preop ∧ d.sup.alStatus = 0x8002)) ∧
  (∀ t o s e, e = s.dev.at t → e.sup.restarting = true → e.hw.auxIn = true → e.hw.resetLow = false → e.sup.queued = [] → e.sup.dropped = none →
    e.sup.queueLost = false → e.cal.abandoned = [] → e.flt.repoint = none → e.cut.user = none → e.cut.engine = [] →
    e.n0 Ix.fltUpdateState ≠ 2 → e.n0 Ix.fltUpdateState ≠ 3 → e.n0 Ix.fltUpdateState ≠ 5 → e.service ≠ 0 → e.service ≠ 1 → e.pwr.moved = [] →
    Completes (.supervisorReturn t o) t s [.sup, .boot] [Ix.modBringup] fun d =>
      d.sup = { e.sup with running := true, restarting := false } ∧ d.boot = { e.boot with trialSince := none }) ∧
  (∀ t s e w, e = s.dev.at t → e.pwr.waking = some w →
    Completes (.moduleWakeDone t) t s [.pwr, .cap, .out, .ctr, .boot] (Ix.pwrIslState :: Ix.pwrState :: eventPlaces) fun d =>
      d.pwr.waking = none ∧ d.pwr.asleep = none ∧ d.pwr.before = [] ∧ d.pwr.written = e.now ∧ d.cap.asleep = (e.pwr.before.getD 6 0 == 2) ∧
      d.rd Ix.pwrState 0 0 = 3) ∧
  (∀ t isl s e, e = s.dev.at t → 1 ≤ isl → isl ≤ 12 → e.n0 Ix.pwrState = 3 → 0 < e.rd Ix.pwrIslState isl 0 → e.cut.shadow = [] →
    Completes (.islandWake t isl) t s [.pwr, .cap, .out, .ctr] (Ix.pwrIslState :: eventPlaces) fun d =>
      d.rd Ix.pwrIslState isl 0 = 0 ∧ d.pwr = { e.pwr with since := e.pwr.since.put isl e.now } ∧ (isl = 7 → d.cap.asleep = false))

/-- Table 4.3, R96 to R102: a link on its way to alignment. A lane's calibration is reported; CDR lock, lane lock and multiblock lock move the link
from state 1 to 2, to 3 and on to 4 or 5; two conforming SYSREF edges set its multiblock clock; what does not come within 10 ms is raised once. -/
def Obligations.LinksAlign : Prop :=
  (∀ t n s e, e = s.dev.at t → n < 64 →
    Completes (.laneCalibrationDone t n true) t s [.itk] [Ix.itkLaneStatus] fun d =>
      (d.lane n).calFailed = false ∧ bitOf (d.lane n).status 0 = true ∧ ∀ k ∈ e.naming n, bitOf (d.nI Ix.itkLaneStatus k) 0 = true) ∧
  (∀ t n s e q, e = s.dev.at t → n < 64 → e.linkOfPhys n = some q → e.linkState q = 1 →
    Completes (.laneCalibrationDone t n false) t s (.itk :: .out :: codeParts) (Ix.itkLaneStatus :: Ix.itkLinkState :: faultPlaces) fun d =>
      (d.lane n).calFailed = true ∧ bitOf (d.lane n).status 0 = false ∧ d.rd Ix.itkLinkState (q + 1) 0 = 7 ∧ e.counted d Ix.fltClassCount 3 0 1) ∧
  (∀ t q s e, e = s.dev.at t → q < 16 → e.linkState q = 1 → e.calibrated q = true → e.linkHeld q = false →
    Completes (.laneCdrLock t q) t s [.itk] [Ix.itkLaneStatus, Ix.itkLinkState] fun d =>
      d.rd Ix.itkLinkState (q + 1) 0 = 2 ∧ (d.link q).entered = e.now) ∧
  (∀ t q prbs s e, e = s.dev.at t → q < 16 → e.linkState q = 2 →
    Completes (.laneLock t q prbs) t s [.itk] [Ix.itkLaneStatus, Ix.itkLinkState] fun d =>
      d.rd Ix.itkLinkState (q + 1) 0 = 3 ∧ (d.link q).entered = e.now) ∧
  (∀ t q s e n k, e = s.dev.at t → q < 16 → e.linkState q = 9 → e.naming (e.phys n) = [n] → n < 64 → n ∈ e.lanesOf q → e.nI Ix.itkPrbs n ≠ 0 →
    Completes (.laneLock t q [(e.phys n, k)]) t s [.itk, .ctr] [Ix.itkLaneStatus, Ix.itkPrbsErrors] fun d =>
      e.counted d Ix.itkPrbsErrors (n + 1) 0 k ∧ bitOf (d.lane (e.phys n)).status 3 = true) ∧
  (∀ t q measured arrivals ilas s e r, e = s.dev.at t → q < 16 → e.linkState q = 3 → modeRow (e.nI Ix.itkMode q) = some r → r.is64 = true →
    (e.link q).clock = none →
    Completes (.multiblockLock t q measured arrivals ilas) t s [.itk] [Ix.itkLaneStatus, Ix.itkLinkState] fun d =>
      d.rd Ix.itkLinkState (q + 1) 0 = 4 ∧ (d.link q).clock = none ∧ (d.link q).entered = e.now) ∧
  (∀ t q measured arrivals ilas s e r, e = s.dev.at t → q < 16 → e.linkState q = 3 → modeRow (e.nI Ix.itkMode q) = some r → r.is64 = false →
    ilas ≠ e.ilasWanted q → e.sup.emergencies.length < 32 →
    Completes (.multiblockLock t q measured arrivals ilas) t s (.itk :: codeParts) (Ix.itkLinkState :: codePlaces) fun d =>
      d.rd Ix.itkLinkState (q + 1) 0 = 8 ∧ d.reports 4 Code.ilasMismatch) ∧
  (∀ t q b s e x, e = s.dev.at t → q < 16 → e.link q = x → e.linkState q = 2 → x.noLockRaised = false → x.entered + ms 10 ≤ e.now → e.linkHeld q = false →
    e.sup.emergencies.length < 32 →
    Completes (.linkNoLock t q b) t s (.itk :: codeParts) codePlaces fun d => d.link q = { x with noLockRaised := true } ∧ d.reports 4 Code.linkNoLock) ∧
  (∀ t q s e x, e = s.dev.at t → q < 16 → e.link q = x → e.linkState q = 4 → x.absentRaised = false → x.entered + ms 10 ≤ e.now →
    e.sup.emergencies.length < 32 →
    Completes (.sysrefAbsent t q) t s (.itk :: codeParts) codePlaces fun d => d.link q = { x with absentRaised := true } ∧ d.reports 4 Code.sysrefAbsent) ∧
  (∀ t p edge s e q x, e = s.dev.at t → p < 4 → e.nI Ix.itkSysrefSrc p ≠ 1 → e.portLinks p = [q] → q < 16 → e.linkState q = 4 → e.link q = x → x.lastEdge = none →
    Completes (.sysrefEdge t p edge) t s [.itk] [] fun d => d.link q = { x with lastEdge := some (ceilDiv (2 * edge) 625) }) ∧
  (∀ t p edge s e q x y n, e = s.dev.at t → p < 4 → e.nI Ix.itkSysrefSrc p ≠ 1 → e.portLinks p = [q] → q < 16 → e.linkState q = 4 → e.link q = x → x.lastEdge = some y →
    n = ceilDiv (2 * edge) 625 → y < n → e.conforms q (n - y) = true →
    Completes (.sysrefEdge t p edge) t s [.itk] [Ix.itkSysrefSec, Ix.itkSysrefFrac, Ix.itkLaneStatus, Ix.itkLinkState] fun d =>
      d.rd Ix.itkLinkState (q + 1) 0 = 5 ∧ (d.link q).clock = some n ∧ (d.link q).anchor = none ∧ (d.link q).gridMoved = false ∧
      d.rd Ix.itkSysrefSec (q + 1) 0 = sec48 e.time96 ∧ d.rd Ix.itkSysrefFrac (q + 1) 0 = frac48 e.time96)

/-- R93, R98, R99, R103 to R105: an aligned link releases its block, converted and stamped; a lane fault opens a gap and the relink closes it with
its exact length; a CRC-12 error is counted and, as its mode says, flags the next release. -/
def Obligations.LinksReleaseFaultAndRelink : Prop :=
  (∀ t q measured arrivals octets s e x a raw, e = s.dev.at t → q < 16 → e.linkState q = 5 → e.link q = x → x.checked = true → x.anchor = some a →
    x.crcDrop = false → x.gapFirst = none → e.linkOver q = false → e.linkSuspended q = false → e.fullFrom ≤ sampleTime a x.index (e.linkFs q) →
    raw = e.linkWords q (e.linkOctets q octets).1 →
    Completes (.multiblockRelease t q measured arrivals [] octets) t s [.itk, .chn, .ctr] [Ix.itkOvrCount, Ix.pwrAnalysedSamples] fun d =>
      d.link q = { x with index := x.index + raw.length, crcFlag := false, stamp := sampleTime a x.index (e.linkFs q),
                          block := raw.map (e.convertSample q x.crcFlag) } ∧
      d.crossing (0x10 + q) = (e.crossing (0x10 + q)).present
        (((raw.map (e.convertSample q x.crcFlag)).zipIdx).map (fun p => (sampleIndex a (e.linkFs q) + x.index + p.2, p.1)))) ∧
  (∀ t q measured arrivals octets s e x a raw, e = s.dev.at t → q < 16 → e.linkState q = 5 → e.link q = x → x.checked = true → x.anchor = some a →
    x.crcDrop = true → e.linkOver q = false → e.linkSuspended q = false → raw = e.linkWords q (e.linkOctets q octets).1 →
    Completes (.multiblockRelease t q measured arrivals [] octets) t s [.itk, .out, .ctr] [Ix.itkGapSamples] fun d =>
      d.out.gaps = addGap ⟨.link q, 1, sampleTime a x.index (e.linkFs q), sampleTime a (x.index + raw.length) (e.linkFs q), raw.length, 0, 1⟩ e.out.gaps ∧
      e.counted d Ix.itkGapSamples (q + 1) 0 raw.length) ∧
  (∀ t n cond s e q x, e = s.dev.at t → n < 64 → e.linkOfPhys n = some q → q < 16 → e.linkState q = 5 → e.link q = x → x.gapFirst = none →
    Completes (.laneFault t n cond) t s (.itk :: .out :: codeParts) (Ix.itkLaneStatus :: Ix.itkLinkState :: faultPlaces) fun d =>
      (d.link q).gapFirst = some (e.nextStamp q, 1) ∧ d.rd Ix.itkLinkState (q + 1) 0 = (if e.nI Ix.itkRelink q = 1 then 6 else 7) ∧
      (e.time96, Happening.laneFault n) ∈ d.out.happenings ∧ e.counted d Ix.fltClassCount 3 0 1) ∧
  (∀ t q s e x a g stamp, e = s.dev.at t → q < 16 → e.linkState q = 6 → e.linkSuspended q = false → e.link q = x → x.anchor = some a → x.gapFirst = some g →
    stamp = sampleTime a (samplesBetween a (e.releaseStamp q) (e.linkFs q)) (e.linkFs q) →
    Completes (.relinkComplete t q) t s [.itk, .out, .ctr] [Ix.itkGapSamples, Ix.itkRelinks, Ix.itkLaneStatus, Ix.itkLinkState] fun d =>
      d.rd Ix.itkLinkState (q + 1) 0 = 5 ∧ (d.link q).gapFirst = none ∧ (d.link q).checked = false ∧ e.counted d Ix.itkRelinks (q + 1) 0 1 ∧
      e.counted d Ix.itkGapSamples (q + 1) 0 (samplesBetween g.1 stamp (e.linkFs q)) ∧
      d.out.gaps = addGap ⟨.link q, 1, g.1, stamp, samplesBetween g.1 stamp (e.linkFs q), 0, g.2⟩ e.out.gaps) ∧
  (∀ t n mb k s e q, e = s.dev.at t → n < 64 → e.linkOfPhys n = some q → e.linkState q = 5 → e.nI Ix.itkCrcCheck q = 1 →
    ((e.lane n).crcAt.filter (fun m => mb < m + 1024)).length < 7 →
    Completes (.crcError t n mb k) t s [.itk, .ctr] [Ix.itkCrcErrors] fun d =>
      (∀ i ∈ e.naming n, e.counted d Ix.itkCrcErrors (i + 1) 0 1) ∧ (d.link q).crcFlag = true ∧
      (d.lane n).crcAt = mb :: (e.lane n).crcAt.filter (fun m => mb < m + 1024))

/-- R93: a sample of N bits with sign is placed in Q1.23 by a shift left by 24 - N: for every N from 8 to 16 that its mode's word holds, the part
a converter word gives is the two's-complement number of its top N bits times 2^(24 - N). -/
def Obligations.SamplesConvertToQ1_23 : Prop :=
  ∀ (e : Dev) q raw r n, modeRow (e.nI Ix.itkMode q) = some r → e.nI Ix.itkN q = n → 8 ≤ n → n ≤ r.nTotal → raw < 2 ^ r.nTotal →
    (e.convert q raw).1 = (if raw / 2 ^ (r.nTotal - n) < 2 ^ (n - 1) then ((raw / 2 ^ (r.nTotal - n) : Nat) : Int)
      else ((raw / 2 ^ (r.nTotal - n) : Nat) : Int) - ((2 ^ n : Nat) : Int)) * ((2 ^ (24 - n) : Nat) : Int) ∧
    -(2 ^ 23 : Int) ≤ (e.convert q raw).1 ∧ (n ≤ 24 → (e.convert q raw).1 ≤ 2 ^ 23 - 1)

/-- R17, R114 to R128: a DDC releases an output on its grid, with its value, its stamp and its flags, takes what has crossed to it, and joins its
detectors; what does not come opens a gap, which ends with its exact length; the detector window closes into its entries; 50 µs after its boundary
a drain ends. -/
def Obligations.ChanneliserOutputsAndWindows : Prop :=
  (∀ t n ne s e code x v p, e = s.dev.at t → n < 33 → code = e.nI Ix.chnSrc n → e.fIn n ≠ 0 → ne % 2 ^ e.nI Ix.chnDepth n = 0 → e.ddcActive n = true →
    e.ddcHeld n = false → e.ddcState n = 2 → x = e.ddc n → x.drain = none → x.next = some ne → x.runs = [] → x.run = none → x.gapFirst = none →
    x.wIx = some (e.winOf n ne) → (e.inputAt code ne).isSome = true → e.inputKnown code (ne + e.gDelay n) = true → e.reachesGap n ne = false →
    v = e.ddcFlags n ne (e.ddcValue n ne) → v.ovr = 0 → v.sat = false → p = samplePower v →
    Completes (.ddcOutput t n ne 0) t s [.chn, .ctr] [Ix.pwrAnalysedSamples] fun d =>
      (d.ddc n).out = { v with unsettled := false, settle := 0 } ∧ (d.ddc n).stamp = e.ddcTime n ne ∧
      (d.ddc n).next = some (ne + 2 ^ e.nI Ix.chnDepth n) ∧ (d.ddc n).wCount = x.wCount + 1 ∧ (d.ddc n).wPeak = max x.wPeak p ∧
      (d.ddc n).wSum = x.wSum + p ∧ (d.ddc n).env = envStep (e.nI Ix.chnEnvAttack n) (e.nI Ix.chnEnvRelease n) x.env (sqrtRound (p * 2 ^ 46)) ∧
      d.crossing code = (e.crossing code).accept ∧
      d.chn.output.get {} n = (e.chn.output.get {} n).accept.present [(ne, { v with unsettled := false, settle := 0, env := (d.ddc n).env })]) ∧
  (∀ t n ne s e k, e = s.dev.at t → n < 33 → e.fIn n ≠ 0 → ne % 2 ^ e.nI Ix.chnDepth n = 0 → e.ddcActive n = true → (e.ddc n).drain = none →
    (e.ddc n).next = some k → k ≤ ne → e.inputKnown (e.nI Ix.chnSrc n) (ne + e.gDelay n) = true →
    (e.ddcHeld n = true ∨ e.inputAt (e.nI Ix.chnSrc n) ne = none) →
    Completes (.ddcOutput t n ne 0) t s [.chn] [] fun d =>
      d.ddc n = { e.ddc n with gapFirst := some ((e.ddc n).gapFirst.getD (e.ddcTime n k, if e.ddcHeld n then 10 else 1)) }) ∧
  (∀ t n ne s e code x g k, e = s.dev.at t → n < 33 → code = e.nI Ix.chnSrc n → e.fIn n ≠ 0 → ne % 2 ^ e.nI Ix.chnDepth n = 0 → e.ddcActive n = true →
    e.ddcHeld n = false → x = e.ddc n → x.drain = none → x.next = some k → k < ne → x.gapFirst = some g → x.gapRun = (5, 0) → x.run = none →
    x.wIx = some (e.winOf n ne) → (e.inputAt code ne).isSome = true → e.inputKnown code (ne + e.gDelay n) = true → e.nI Ix.chnSettlePolicy n = 0 →
    (e.ddcFlags n ne (e.ddcValue n ne)).ovr = 0 → (e.ddcValue n ne).sat = false →
    Completes (.ddcOutput t n ne 0) t s [.chn, .out, .ctr] [Ix.chnGapSamples, Ix.chnState, Ix.chnUnsettled, Ix.pwrAnalysedSamples] fun d =>
      d.out.gaps = addGap ⟨.ddc n, 1, g.1, e.ddcTime n ne, (ne - k) / 2 ^ e.nI Ix.chnDepth n, 0, g.2⟩ e.out.gaps ∧
      e.counted d Ix.chnGapSamples (n + 1) 0 ((ne - k) / 2 ^ e.nI Ix.chnDepth n) ∧ (d.ddc n).gapFirst = none ∧ (d.ddc n).wGap = true ∧
      (d.ddc n).next = some (ne + 2 ^ e.nI Ix.chnDepth n)) ∧
  (∀ t n s e x w k, e = s.dev.at t → n < 33 → x = e.ddc n → x.wIx = some w → x.next = some k → e.winFirst n (w + 1) ≤ k →
    Completes (.detectorWindowClose t n) t s [.chn, .out] [Ix.chnDetPeak, Ix.chnDetMean, Ix.chnDetEnv] fun d =>
      d.ddc n = { x with wIx := none, wCount := 0, wPeak := 0, wSum := 0, wOvr := 0, wSat := 0, wFlagged := false, wGap := false, wPartial := false,
                         wSeq := wrap48 (x.wSeq + 1) } ∧
      d.rd Ix.chnDetPeak (n + 1) 0 = normTy (typeOf Ix.chnDetPeak (n + 1)) x.wPeak ∧
      d.rd Ix.chnDetMean (n + 1) 0 = normTy (typeOf Ix.chnDetMean (n + 1))
        (if x.wCount = 0 then 0 else ((roundEven (x.wSum : Int) x.wCount).toNat : Nat)) ∧
      d.rd Ix.chnDetEnv (n + 1) 0 = normTy (typeOf Ix.chnDetEnv (n + 1)) x.env) ∧
  (∀ t n s e x b, e = s.dev.at t → n < 33 → x = e.ddc n → x.drain = some b → b + us 50 ≤ e.time96 → e.nI Ix.chnSrc n ≠ 0 → x.oldRun = none →
    (∀ k ∈ x.oldNext, (e.overlay x.old).ddcAfter n b ≤ k) →
    Completes (.ddcDrainTimeout t n) t s [.chn] [] fun d => d.ddc n = { x with drain := none }) ∧
  (∀ t n s e x o b k left, e = s.dev.at t → n < 33 → x = e.ddc n → x.drain = some b → b + us 50 ≤ e.time96 → e.nI Ix.chnSrc n = 0 → x.oldRun = none →
    x.run = none → x.oldNext = some k → o = e.overlay x.old → left = (o.ddcAfter n b - k) / 2 ^ o.nI Ix.chnDepth n → left ≠ 0 →
    e.sup.emergencies.length < 32 →
    Completes (.ddcDrainTimeout t n) t s (.chn :: .out :: codeParts) (Ix.chnGapSamples :: Ix.chnState :: codePlaces) fun d =>
      (d.ddc n).drain = none ∧ (d.ddc n).next = none ∧ d.rd Ix.chnState (n + 1) 0 = 0 ∧ d.reports 4 Code.drainForced ∧
      e.counted d Ix.chnGapSamples (n + 1) 0 left ∧ d.out.gaps = addGap ⟨.ddc n, 1, o.ddcTime n k, b, left, 0, 10⟩ e.out.gaps)

/-- R38, R132 to R137: a DDC that fails is covered by the standby or stops, returns after its self-test, and a failed standby stops what it covers; a
section's parity error resets it; a repointing in shadow starts, hands over, updates, returns and is aborted. -/
def Obligations.ChanneliserFaultsAndRepointing : Prop :=
  (∀ t n s e, e = s.dev.at t → n < 32 → (e.ddc n).failed = false → e.nI Ix.chnSrc n ≠ 0 → e.n0 Ix.chnStandbyFor ≠ 0xFF →
    e.coversRepoint 2 (e.n0 Ix.chnStandbyFor) = false → (e.ddc n).gapFirst = none →
    Completes (.ddcFault t n) t s (.chn :: .out :: codeParts) (Ix.chnState :: faultPlaces) fun d =>
      (d.ddc n).failed = true ∧ (d.ddc n).stopped = true ∧ (d.ddc n).gapFirst = some (e.ddcNextTime n, 10) ∧ d.rd Ix.chnState (n + 1) 0 = 5 ∧
      (e.time96, Happening.degradation 2 [⟨Ix.chnSrc, n + 1, 0, 0⟩]) ∈ d.out.happenings) ∧
  (∀ t n s e, e = s.dev.at t → n < 32 → (e.ddc n).failed = false → e.nI Ix.chnSrc n ≠ 0 → e.n0 Ix.chnStandbyFor = 0xFF → 0 ∉ e.flt.standbyFailed →
    e.repointing 2 = false → (e.ddc n).gapFirst = none →
    Completes (.ddcFault t n) t s (.chn :: .out :: codeParts) (standbyPlaces ++ faultPlaces) fun d =>
      (d.ddc n).failed = true ∧ (d.ddc n).stopped = (e.ddc n).stopped ∧ d.rd Ix.chnStandbyFor 0 0 = n ∧ d.rd Ix.chnState (n + 1) 0 = 3 ∧
      (d.ddc n).gapFirst = some (e.ddcNextTime n, 10) ∧ (d.ddc n).gapRun = (6, 0) ∧
      (∀ ix ∈ ddcEntries, d.rd ix 33 0 = normTy (typeOf ix 33) (e.rd ix (n + 1) 0)) ∧
      (e.time96, Happening.standby 2 n true) ∈ d.out.happenings) ∧
  (∀ t n s e, e = s.dev.at t → n < 32 → (e.ddc n).failed = true → e.nI Ix.chnSrc n ≠ 0 →
    Completes (.ddcSelftestDone t n true) t s [.chn] [] fun d => d.ddc n = { e.ddc n with rejoin := true }) ∧
  (∀ t n first s e, e = s.dev.at t → n < 32 → e.ddcTime n (e.ddcBlock n first) = first → e.flt.repoint = none → (e.ddc n).rejoin = true →
    (e.ddc n).stopped = false → e.n0 Ix.chnStandbyFor = n →
    Completes (.ddcRepointHandover t n first) t s [.chn, .cut, .out, .ctr] (Ix.modCutSeq :: standbyPlaces ++ eventPlaces) fun d =>
      d.ddc n = { e.ddc n with failed := false, rejoin := false } ∧ d.rd Ix.chnStandbyFor 0 0 = 0xFF ∧ d.rd Ix.chnState (n + 1) 0 = 2 ∧
      d.rd Ix.modCutSeq 0 0 = (wrap48 (e.cut.seqTaken + 1) : Nat)) ∧
  (∀ t s e n, e = s.dev.at t → e.n0 Ix.chnStandbyFor = n → n < 32 → e.repointing 2 = false →
    Completes (.ddcStandbyFail t) t s (.chn :: .out :: codeParts) (standbyPlaces ++ faultPlaces) fun d =>
      d.rd Ix.chnStandbyFor 0 0 = 0xFF ∧ d.rd Ix.chnState (n + 1) 0 = 5 ∧ (d.ddc n).stopped = true ∧ 0 ∈ d.flt.standbyFailed) ∧
  (∀ t q first lost s e x, e = s.dev.at t → q < 16 → e.section_ q = x → x.heldDown = false → (x.fails.filter (fun w => e.now < w + sec)).length < 2 →
    Completes (.realToComplexParity t q first lost) t s (.chn :: .out :: codeParts) faultPlaces fun d =>
      d.section_ q = { x with fails := e.now :: x.fails.filter (fun w => e.now < w + sec) } ∧
      d.crossing (0x10 + q) = (e.crossing (0x10 + q)).accept.lose (2 * first) (2 * lost) ∧
      (∀ n ∈ e.ddcsOn (0x10 + q), (d.ddc n).gapRun = (5, 24 * 2 ^ e.nI Ix.chnDepth n) ∧
        (d.ddc n).gapFirst = some ((e.ddc n).gapFirst.getD (e.ddcNextTime n, 10))) ∧
      e.counted d Ix.fltClassCount 2 0 1) ∧
  (∀ t path n s e, e = s.dev.at t → e.reaches path Ix.chnRepoint → n < 32 → e.n0 Ix.chnStandbyFor = 0xFF → e.repointBusy = false →
    e.nI Ix.chnSrc n ≠ 0 → 0 ∉ e.flt.standbyFailed →
    Completes (.chnRepoint t path n) t s (.flt :: .chn :: requestParts)
      (Ix.fltRepointTarget :: Ix.fltRepointState :: Ix.chnRepointState :: standbyPlaces ++ requestPlaces) fun d =>
      d.flt.repoint = some { isl := 2, inst := n, src := 0, since := e.now } ∧ d.chn = { e.chn with shadow := false } ∧
      d.rd Ix.chnRepointState 0 0 = 1 ∧ d.rd Ix.fltRepointState 0 0 = 1 ∧ d.rd Ix.fltRepointTarget 0 0 = (512 + n : Nat) ∧
      d.rd Ix.chnState 33 0 = 1 ∧ ∀ ix ∈ ddcEntries, d.rd ix 33 0 = normTy (typeOf ix 33) (e.rd ix (n + 1) 0)) ∧
  (∀ t path n s e, e = s.dev.at t → e.reaches path Ix.chnRepoint → n < 32 → e.n0 Ix.chnStandbyFor = 0xFF → e.repointBusy = false →
    e.nI Ix.chnSrc n = 0 →
    Completes (.chnRepoint t path n) t s (.flt :: .chn :: requestParts)
      (Ix.fltRepointTarget :: Ix.fltRepointState :: Ix.chnRepointState :: requestPlaces) fun d =>
      d.flt.repoint = some { isl := 2, inst := n, src := 0, since := e.now } ∧ d.rd Ix.chnRepointState 0 0 = 2 ∧ d.rd Ix.fltRepointState 0 0 = 2) ∧
  (∀ t path n s e, e = s.dev.at t → e.reaches path Ix.chnRepoint → 1 ≤ path ∧ path ≤ 4 → n < 32 → e.n0 Ix.chnStandbyFor ≠ 0xFF → e.repointing 2 = false →
    Completes (.chnRepoint t path n) t s requestParts requestPlaces fun d => d.reports path Code.standbyBusy ∧ d.flt.repoint = e.flt.repoint) ∧
  (∀ t path n s e r, e = s.dev.at t → e.reaches path Ix.chnRepoint → 1 ≤ path ∧ path ≤ 4 → n < 32 → e.flt.repoint = some r → r.isl = 2 → r.inst < 32 →
    Completes (.chnRepoint t path n) t s requestParts requestPlaces fun d => d.reports path Code.repointActive ∧ d.flt.repoint = e.flt.repoint) ∧
  (∀ t path s e r, e = s.dev.at t → e.reaches path Ix.chnRepoint → e.flt.repoint = some r → r.isl = 2 → r.out = false →
    e.n0 Ix.fltUpdateState ≠ 3 → e.n0 Ix.fltUpdateState ≠ 5 →
    Completes (.chnRepointAbort t path) t s (.flt :: .chn :: requestParts)
      (Ix.chnRepointState :: Ix.fltRepointState :: Ix.fltRepointTarget :: standbyPlaces ++ requestPlaces) fun d =>
      d.flt.repoint = none ∧ d.rd Ix.chnRepointState 0 0 = 0 ∧ d.rd Ix.fltRepointState 0 0 = 0 ∧ d.rd Ix.fltRepointTarget 0 0 = 0xFFFF ∧
      d.rd Ix.chnStandbyFor 0 0 = 0xFF) ∧
  (∀ t n first s e r, e = s.dev.at t → n < 32 → e.flt.repoint = some r → r.isl = 2 → r.inst = n → e.n0 Ix.chnRepointState = 1 → 0 ∉ e.flt.standbyFailed →
    e.ddcTime n (e.ddcBlock n first) = first → e.time96At (r.since + e.shadowTime n) ≤ first →
    Completes (.ddcRepointHandover t n first) t s [.flt, .chn, .cut, .out, .ctr]
      (Ix.chnRepointState :: Ix.fltRepointState :: Ix.modCutSeq :: standbyPlaces ++ eventPlaces) fun d =>
      d.flt.repoint = some { r with out := true, began := first } ∧ d.rd Ix.chnStandbyFor 0 0 = n ∧ d.rd Ix.chnState (n + 1) 0 = 4 ∧
      d.rd Ix.chnRepointState 0 0 = 2 ∧ d.cut.seqTaken = wrap48 (e.cut.seqTaken + 1) ∧ d.rd Ix.modCutSeq 0 0 = (wrap48 (e.cut.seqTaken + 1) : Nat)) ∧
  (∀ t s e r, e = s.dev.at t → e.flt.repoint = some r → r.isl = 2 → e.n0 Ix.chnRepointState = 2 →
    Completes (.ddcUpdateDone t true) t s [.flt] [Ix.chnRepointState, Ix.fltRepointState] fun d =>
      d.flt.repoint = some { r with selfTestOk := true } ∧ d.rd Ix.chnRepointState 0 0 = 3 ∧ d.rd Ix.fltRepointState 0 0 = 3) ∧
  (∀ t n first s e r, e = s.dev.at t → n < 32 → e.flt.repoint = some r → r.isl = 2 → r.inst = n → e.n0 Ix.chnRepointState = 3 → 0 ∉ e.flt.standbyFailed →
    e.ddcTime n (e.ddcBlock n first) = first → e.n0 Ix.fltUpdateState ≠ 3 → e.n0 Ix.fltUpdateState ≠ 5 →
    Completes (.ddcRepointHandover t n first) t s [.flt, .chn, .cut, .out, .ctr]
      (Ix.fltMcodeVer :: Ix.fltRepoints :: Ix.fltLogCount :: Ix.modCutSeq :: repointPlaces ++ eventPlaces) fun d =>
      d.flt.repoint = none ∧ d.rd Ix.chnStandbyFor 0 0 = 0xFF ∧ d.rd Ix.chnState (n + 1) 0 = 2 ∧ d.rd Ix.chnRepointState 0 0 = 0 ∧
      d.rd Ix.fltRepointState 0 0 = 0 ∧ d.rd Ix.fltRepointTarget 0 0 = 0xFFFF ∧ e.counted d Ix.fltRepoints 0 0 1)

/-- R146, R153 to R166: the Spectral Engine. A frame joins its layer's open trace and is counted; a frame with a gap in it is lost, or filled by
the layer's policy; a trace closes; a stop ends 50 µs after T; a memory error loses frames; a core that fails is covered by the standby,
rejoins after its test, and its repointing starts, hands over, updates and is aborted. -/
def Obligations.SpectralFramesCoresAndRepointing : Prop :=
  (∀ t l m core bins exponent s e x got ps flags, e = s.dev.at t → l < 16 → core < 33 → e.nI Ix.speLayerSrc l ≠ 0 → x = e.layer l → x.drain = none →
    x.oldUntil = none → x.next = some m → (∀ k < e.layerN l, e.layerKnown l (m * e.layerHop l + k) = true) →
    got = (List.range (e.layerN l)).map (fun k => e.layerSample l (m * e.layerHop l + k)) → (∀ g ∈ got, g.isSome = true) →
    e.shareGone core = false → e.layerMasks l = [] → e.feedsAt l (e.frameTime l m) = false → ps = bins.map pwr48 → (∀ b ∈ ps, b.2 = false) →
    x.start ≤ m / e.traceLen l * e.traceLen l → (∀ f ∈ x.trace.first, f / e.traceLen l = m / e.traceLen l) → flags = sampleFlags (got.filterMap id) →
    Completes (.speFrameDone t l m core bins exponent 0 0) t s [.spe, .ctr] [Ix.speFrames] fun d =>
      e.counted d Ix.speFrames (l + 1) 0 1 ∧ d.layer l = { x with next := some (m + 1), trace := e.joinTrace l m x.trace ps bins flags exponent } ∧
      (d.layer l).trace.frames = x.trace.frames + 1 ∧ (d.layer l).trace.first = some (x.trace.first.getD m) ∧
      (d.layer l).trace.exp = max x.trace.exp exponent) ∧
  (∀ t l m core bins exponent s e x, e = s.dev.at t → l < 16 → core < 33 → e.nI Ix.speLayerSrc l ≠ 0 → x = e.layer l → x.drain = none →
    x.oldUntil = none → x.next = some m → (∀ k < e.layerN l, e.layerKnown l (m * e.layerHop l + k) = true) →
    (∃ k < e.layerN l, e.layerSample l (m * e.layerHop l + k) = none) → e.shareGone core = false → e.nI Ix.speGapPolicy l = 0 →
    Completes (.speFrameDone t l m core bins exponent 0 0) t s [.spe, .den, .out, .ctr] [Ix.speFramesLost, Ix.trgMaskLost, Ix.denFramesLost] fun d =>
      e.counted d Ix.speFramesLost (l + 1) 0 1 ∧ (d.layer l).next = some (m + 1) ∧ (d.layer l).trace = x.trace ∧
      d.out.gaps = addGap ⟨.layer l, 2, e.frameTime l m, e.frameTime l (m + 1), 1, 0, e.layerCause l m⟩ e.out.gaps) ∧
  (∀ t l m core bins exponent s e x, e = s.dev.at t → l < 16 → core < 33 → e.nI Ix.speLayerSrc l ≠ 0 → x = e.layer l → x.drain = none →
    x.oldUntil = none → x.next = some m → (∀ k < e.layerN l, e.layerKnown l (m * e.layerHop l + k) = true) → e.shareGone core = true →
    Completes (.speFrameDone t l m core bins exponent 0 0) t s [.spe, .den, .out, .ctr] [Ix.speFramesLost, Ix.trgMaskLost, Ix.denFramesLost] fun d =>
      e.counted d Ix.speFramesLost (l + 1) 0 1 ∧ (d.layer l).next = some (m + 1) ∧
      d.out.gaps = addGap ⟨.layer l, 2, e.frameTime l m, e.frameTime l (m + 1), 1, 0, 10⟩ e.out.gaps) ∧
  (∀ t l s e x tr f, e = s.dev.at t → l < 16 → x = e.layer l → tr = x.trace → e.nI Ix.speLayerSrc l ≠ 0 → tr.first = some f → tr.frames ≠ 0 →
    tr.format ≠ 0 → tr.ring ≠ noRing → e.ringTakes tr.ring = true → (f / e.traceLen l + 1) * e.traceLen l ≤ x.next.getD 0 → e.traceConv l tr = [] →
    (∀ k < 3, e.nI Ix.vpRoll k = 0 ∨ e.nI Ix.vpRollSrc k ≠ l) →
    CompletesMem (.traceClose t l) t s [.spe, .out, .ctr] [Ix.speTraces] fun m d =>
      m = s.mem ∧ e.counted d Ix.speTraces (l + 1) 0 1 ∧ d.layer l = { x with trace := {} } ∧
      d.out.outbox = e.out.outbox ++ [(tr.ring, e.spectrumRecord l tr false)]) ∧
  (∀ t l s e x b k left, e = s.dev.at t → l < 16 → x = e.layer l → x.drain = some b → b + us 50 ≤ e.time96 → k = x.next.getD (e.frameAfter l b) →
    left = e.frameAfter l b - k → left ≠ 0 → e.traceConv l x.trace = [] → e.sup.emergencies.length < 32 →
    Completes (.layerStopTimeout t l) t s (.spe :: .den :: .out :: codeParts)
      (Ix.speFramesLost :: Ix.trgMaskLost :: Ix.denFramesLost :: Ix.speTraces :: Ix.speLayerSrc :: (layerPlaces ++ codePlaces)) fun d =>
      (d.layer l).drain = none ∧ (d.layer l).next = none ∧ (d.layer l).trace = {} ∧ d.rd Ix.speLayerSrc (l + 1) 0 = 0 ∧
      e.counted d Ix.speFramesLost (l + 1) 0 left ∧ d.reports 4 Code.drainForced ∧
      d.out.gaps = addGap ⟨.layer l, 2, e.frameTime l k, e.frameTime l (k + left), left, 0, 10⟩ e.out.gaps) ∧
  (∀ t l m lost s e, e = s.dev.at t → l < 16 → e.sup.emergencies.length < 32 →
    Completes (.layerMemError t l m lost) t s (.spe :: .den :: .out :: codeParts)
      (Ix.speFramesLost :: Ix.trgMaskLost :: Ix.denFramesLost :: faultPlaces) fun d =>
      e.counted d Ix.speFramesLost (l + 1) 0 lost ∧ (d.layer l).next = some (max ((e.layer l).next.getD 0) (m + lost)) ∧
      d.reports 4 Code.layerMemError) ∧
  (∀ t core l m s e, e = s.dev.at t → core < 32 → l < 16 → core ∉ e.spe.coreFailed → e.repointing 3 = false → e.n0 Ix.speStandbyFor = 0xFF →
    1 ∉ e.flt.standbyFailed → e.coresOut (core / 8) = 0 → 56 * e.clockKHz 3 * 1000000 < e.laneCost (core / 8) →
    e.laneLimit (core / 8) (e.laneLayers (core / 8)) = none → e.sup.emergencies.length < 31 →
    Completes (.coreFault t core l m 0) t s (.spe :: .out :: codeParts) (Ix.speCoreState :: Ix.speStandbyFor :: faultPlaces) fun d =>
      d.rd Ix.speStandbyFor 0 0 = core ∧ d.rd Ix.speCoreState (core + 1) 0 = 2 ∧ d.rd Ix.speCoreState 33 0 = 1 ∧ core ∈ d.spe.coreFailed ∧
      d.spe.shareLost.find? core = some (e.now + us 30) ∧ d.reports 4 Code.coreStandbyEngaged ∧ (e.time96, Happening.standby 3 core true) ∈ d.out.happenings) ∧
  (∀ t core l m s e, e = s.dev.at t → core < 32 → l < 16 → core ∉ e.spe.coreFailed → e.repointing 3 = false → e.n0 Ix.speStandbyFor ≠ 0xFF →
    e.sup.emergencies.length < 31 →
    Completes (.coreFault t core l m 0) t s (.spe :: .out :: .cut :: codeParts) (Ix.speCoreState :: Ix.modCutState :: faultPlaces) fun d =>
      d.rd Ix.speCoreState (core + 1) 0 = 4 ∧ core ∈ d.spe.coreFailed ∧ d.reports 4 Code.coreNoStandby) ∧
  (∀ t core s e, e = s.dev.at t → core < 32 → core ∈ e.spe.coreFailed →
    Completes (.coreSelftestDone t core true) t s [.spe] [] fun d =>
      d.spe = { e.spe with coreRejoin := core :: e.spe.coreRejoin.filter (fun c => c != core) }) ∧
  (∀ t core first s e, e = s.dev.at t → core < 32 → core ∈ e.spe.coreRejoin → e.flt.repoint = none →
    Completes (.coreRepointHandover t core first) t s [.spe, .cut, .out, .ctr] (Ix.speCoreState :: Ix.speStandbyFor :: Ix.modCutSeq :: eventPlaces) fun d =>
      core ∉ d.spe.coreFailed ∧ d.rd Ix.speCoreState (core + 1) 0 = 1 ∧ (e.n0 Ix.speStandbyFor = core → d.rd Ix.speStandbyFor 0 0 = 0xFF) ∧
      d.rd Ix.modCutSeq 0 0 = (wrap48 (e.cut.seqTaken + 1) : Nat)) ∧
  (∀ t s e c, e = s.dev.at t → e.repointing 3 = false → e.n0 Ix.speStandbyFor = c → c < 32 → e.sup.emergencies.length < 31 →
    Completes (.coreStandbyFail t) t s (.out :: .cut :: codeParts) (Ix.speStandbyFor :: Ix.speCoreState :: Ix.modCutState :: faultPlaces) fun d =>
      1 ∈ d.flt.standbyFailed ∧ d.rd Ix.speStandbyFor 0 0 = 0xFF ∧ d.rd Ix.speCoreState (c + 1) 0 = 4 ∧ d.rd Ix.speCoreState 33 0 = 4 ∧
      d.reports 4 Code.coreNoStandby) ∧
  (∀ t path c s e, e = s.dev.at t → e.reaches path Ix.speRepoint → c < 32 → e.repointing 3 = false → e.n0 Ix.speStandbyFor = 0xFF → e.repointBusy = false →
    Completes (.speRepoint t path c) t s (.flt :: .chn :: requestParts) (Ix.fltRepointTarget :: Ix.fltRepointState :: Ix.speRepointState :: requestPlaces) fun d =>
      d.flt.repoint = some { isl := 3, inst := c, src := 0, since := e.now } ∧ d.rd Ix.speRepointState 0 0 = 1 ∧ d.rd Ix.fltRepointState 0 0 = 1 ∧
      d.rd Ix.fltRepointTarget 0 0 = (768 + c : Nat)) ∧
  (∀ t path c s e, e = s.dev.at t → e.reaches path Ix.speRepoint → 1 ≤ path ∧ path ≤ 4 → c < 32 → e.repointing 3 = false → e.n0 Ix.speStandbyFor ≠ 0xFF →
    Completes (.speRepoint t path c) t s requestParts requestPlaces fun d => d.reports path Code.speStandbyBusy ∧ d.flt.repoint = e.flt.repoint) ∧
  (∀ t path s e r, e = s.dev.at t → e.reaches path Ix.speRepoint → e.flt.repoint = some r → r.isl = 3 → r.out = false →
    e.n0 Ix.fltUpdateState ≠ 3 → e.n0 Ix.fltUpdateState ≠ 5 →
    Completes (.speRepointAbort t path) t s (.flt :: .chn :: requestParts) (Ix.speRepointState :: Ix.fltRepointState :: Ix.fltRepointTarget :: requestPlaces) fun d =>
      d.flt.repoint = none ∧ d.rd Ix.speRepointState 0 0 = 0 ∧ d.rd Ix.fltRepointState 0 0 = 0 ∧ d.rd Ix.fltRepointTarget 0 0 = 0xFFFF) ∧
  (∀ t c first s e r, e = s.dev.at t → c < 32 → e.flt.repoint = some r → r.isl = 3 → r.inst = c → e.n0 Ix.speRepointState = 1 → 1 ∉ e.flt.standbyFailed →
    Completes (.coreRepointHandover t c first) t s [.flt, .cut, .out, .ctr]
      (Ix.speStandbyFor :: Ix.speCoreState :: Ix.speRepointState :: Ix.fltRepointState :: Ix.modCutSeq :: eventPlaces) fun d =>
      d.flt.repoint = some { r with out := true, since := first } ∧ d.rd Ix.speStandbyFor 0 0 = c ∧ d.rd Ix.speCoreState (c + 1) 0 = 3 ∧
      d.rd Ix.speRepointState 0 0 = 2 ∧ d.cut.seqTaken = wrap48 (e.cut.seqTaken + 1) ∧ d.rd Ix.modCutSeq 0 0 = (wrap48 (e.cut.seqTaken + 1) : Nat)) ∧
  (∀ t s e r, e = s.dev.at t → e.flt.repoint = some r → r.isl = 3 → e.n0 Ix.speRepointState = 2 →
    Completes (.coreUpdateDone t true) t s [.flt] [Ix.speRepointState, Ix.fltRepointState] fun d =>
      d.flt.repoint = some { r with selfTestOk := true } ∧ d.rd Ix.speRepointState 0 0 = 3 ∧ d.rd Ix.fltRepointState 0 0 = 3) ∧
  (∀ t path v s e l k, e = s.dev.at t → e.reaches path Ix.speUserCoef → l = e.nW Ix.speUserLayer path → k = e.nW Ix.speUserIndex path → k < 2 ^ 20 →
    Completes (.speUserCoef t path v) t s (.cut :: requestParts) (Ix.modCutState :: Ix.speUserIndex :: requestPlaces) fun d =>
      d.cut = { e.cut with staged := putWrite ⟨Ix.speUserCoef, 0, l * 2 ^ 20 + k, v⟩ e.cut.staged } ∧ d.rd Ix.speUserIndex 0 path = (k + 1 : Nat))

/-- R170 to R175: conditions in the time domain and on pins. A crossing that the polarity watches, a pulse whose length meets the test, the first
sample with OVR after 16 without, an edge on a pin and an expired timeout each give an event at their instant; a missing sample starts the
condition anew. -/
def Obligations.TimeDomainConditions : Prop :=
  (∀ t c i s e p q s0 s1 x w tm rising, e = s.dev.at t → c < 64 → (e.cond c).before = none → e.nI Ix.trgCondType c = 1 → e.condTurn c (i + 1) = true →
    (e.cond c).seen = some i → e.condSample c i = some p → e.condSample c (i + 1) = some q → s0 = e.condQty c p → s1 = e.condQty c q →
    (x, w) = levelStep (e.cond c) (e.rd Ix.trgCondLevelA (c + 1) 0) (e.rd Ix.trgCondLevelB (c + 1) 0) (e.nI Ix.trgCondHyst c) s1 →
    ((bitOf w 0 = true ∧ watches (e.nI Ix.trgCondPolarity c) true = true) ∨ (bitOf w 1 = true ∧ watches (e.nI Ix.trgCondPolarity c) false = true)) →
    tm = e.condTime c i (crossAt (e.rd Ix.trgCondLevelA (c + 1) 0) s0 s1) → e.mayEmit c tm →
    Completes (.condEvent t c (i + 1) 0 rising) t s [.trg, .out, .ctr] (Ix.trgCondEvents :: eventPlaces) fun d =>
      e.occurs d c tm ∧ (d.cond c).seen = some (i + 1)) ∧
  (∀ t c i s e p q s0 s1 x w l k tm rising, e = s.dev.at t → c < 64 → (e.cond c).before = none → e.nI Ix.trgCondType c = 2 →
    e.nI Ix.trgCondPolarity c = 0 → e.condTurn c (i + 1) = true → (e.cond c).seen = some i → e.condSample c i = some p →
    e.condSample c (i + 1) = some q → s0 = e.condQty c p → s1 = e.condQty c q →
    (x, w) = levelStep (e.cond c) (e.rd Ix.trgCondLevelA (c + 1) 0) (e.rd Ix.trgCondLevelB (c + 1) 0) (e.nI Ix.trgCondHyst c) s1 →
    bitOf w 1 = true → x.ledUp = some l → k = crossAt (e.rd Ix.trgCondLevelA (c + 1) 0) s0 s1 → e.condTest c (256 * i + k - l) = true →
    tm = e.condTime c i k → e.mayEmit c tm →
    Completes (.condEvent t c (i + 1) 0 rising) t s [.trg, .out, .ctr] (Ix.trgCondEvents :: eventPlaces) fun d =>
      e.occurs d c tm ∧ (d.cond c).ledUp = none) ∧
  (∀ t c i s e q rising, e = s.dev.at t → c < 64 → (e.cond c).before = none → e.nI Ix.trgCondType c = 6 → e.condTurn c i = true →
    (∀ n ∈ (e.cond c).seen, n + 1 = i) → e.condSample c i = some q → q.ovr ≠ 0 → 16 ≤ (e.cond c).clean → e.mayEmit c (e.condTime c i 0) →
    Completes (.condEvent t c i 0 rising) t s [.trg, .out, .ctr] (Ix.trgCondEvents :: eventPlaces) fun d =>
      e.occurs d c (e.condTime c i 0) ∧ (d.cond c).clean = 0) ∧
  (∀ t c i s e q rising, e = s.dev.at t → c < 64 → (e.cond c).before = none → e.nI Ix.trgCondType c = 6 → e.condTurn c i = true →
    (∀ n ∈ (e.cond c).seen, n + 1 = i) → e.condSample c i = some q → q.ovr = 0 →
    Completes (.condEvent t c i 0 rising) t s [.trg] [] fun d => d.cond c = { e.cond c with clean := min 16 ((e.cond c).clean + 1), seen := some i }) ∧
  (∀ t c i s e rising, e = s.dev.at t → c < 64 → (e.cond c).before = none → 1 ≤ e.nI Ix.trgCondType c → e.nI Ix.trgCondType c ≤ 6 →
    e.condTurn c i = true → e.condSample c i = none → (e.cond c).limit = none →
    Completes (.condEvent t c i 0 rising) t s [.trg] [] fun d =>
      d.cond c = { clock := (e.cond c).clock, again := (e.cond c).again, seen := some i }) ∧
  (∀ t c (stamp : Nat) (rising : Bool) s e tm, e = s.dev.at t → c < 64 → (e.cond c).before = none → e.nI Ix.trgCondType c = 0x20 →
    (stamp, if rising then 0 else 1) ∈ ((e.im.sites.find? (0x10 + e.nI Ix.trgCondSrc c)).getD {}).recent → (∀ n ∈ (e.cond c).seen, n < stamp) →
    watches (e.nI Ix.trgCondPolarity c) rising = true → tm = ((stamp : Int) - e.rd Ix.trgSkewTin (e.nI Ix.trgCondSrc c + 1) 0).toNat → e.mayEmit c tm →
    Completes (.condEvent t c stamp 0 rising) t s [.trg, .out, .ctr] (Ix.trgCondEvents :: eventPlaces) fun d => e.occurs d c tm) ∧
  (∀ t c (stamp : Nat) (rising : Bool) s e, e = s.dev.at t → c < 64 → (e.cond c).before = none → e.nI Ix.trgCondType c = 0x21 →
    (stamp, if rising then 0 else 1) ∈ ((e.im.sites.find? (0x10 + e.nI Ix.trgCondSrc c)).getD {}).recent → (∀ n ∈ (e.cond c).seen, n < stamp) →
    rising = (e.nI Ix.trgCondPolarity c == 0) →
    Completes (.condEvent t c stamp 0 rising) t s [.trg] [] fun d => d.cond c = { e.cond c with edge := some stamp, seen := some stamp }) ∧
  (∀ t c (stamp : Nat) (rising : Bool) s e g tm, e = s.dev.at t → c < 64 → (e.cond c).before = none → e.nI Ix.trgCondType c = 0x21 →
    (stamp, if rising then 0 else 1) ∈ ((e.im.sites.find? (0x10 + e.nI Ix.trgCondSrc c)).getD {}).recent → (∀ n ∈ (e.cond c).seen, n < stamp) →
    rising ≠ (e.nI Ix.trgCondPolarity c == 0) → (e.cond c).edge = some g → e.condTest c (toPs (stamp - g)) = true →
    tm = ((stamp : Int) - e.rd Ix.trgSkewTin (e.nI Ix.trgCondSrc c + 1) 0).toNat → e.mayEmit c tm →
    Completes (.condEvent t c stamp 0 rising) t s [.trg, .out, .ctr] (Ix.trgCondEvents :: eventPlaces) fun d =>
      e.occurs d c tm ∧ (d.cond c).edge = none) ∧
  (∀ t c s e l n, e = s.dev.at t → c < 64 → (e.cond c).limit = some l → e.nI Ix.trgCondType c = 4 → (e.cond c).seen = some n → l.1 ≤ 256 * n →
    e.mayEmit c l.2 →
    Completes (.condTimeoutExpiry t c) t s [.trg, .out, .ctr] (Ix.trgCondEvents :: eventPlaces) fun d => e.occurs d c l.2 ∧ (d.cond c).limit = none)

/-- R177. Writing the number of a software condition to `trg.cond_soft` produces one event at the start of the first Trigger Unit block after the
write; a number that names a condition of another type is rejected with COND_TYPE. The event is R174's: what a condition that is suspended,
or whose last event lies in the same island clock, does is no part of this rule. -/
def Obligations.SoftwareConditionEvents : Prop :=
  (∀ t path c s e, e = s.dev.at t → e.reaches path Ix.trgCondSoft → c < 64 → e.nI Ix.trgCondType c = 0x31 →
    e.mayEmit c (e.trgBoundary (e.time96 + 1)) →
    Completes (.trgCondSoft t path c) t s (.trg :: .out :: requestParts) (Ix.trgCondEvents :: (eventPlaces ++ requestPlaces)) fun d =>
      e.occurs d c (e.trgBoundary (e.time96 + 1))) ∧
  (∀ t path c s e, e = s.dev.at t → e.reaches path Ix.trgCondSoft → 1 ≤ path ∧ path ≤ 4 → (64 ≤ c ∨ e.nI Ix.trgCondType c ≠ 0x31) →
    Completes (.trgCondSoft t path c) t s requestParts requestPlaces fun d => d.reports path Code.condType ∧ d.trg = e.trg)

/-- R180, R182 and R206: masks. A restart lets a stopped mask test again, a clear zeroes its counts, a breakpoint joins the staged set, and a
reload suspends the mask for 20 µs. -/
def Obligations.MaskCommandsAndReload : Prop :=
  (∀ t path m s e, e = s.dev.at t → e.reaches path Ix.trgMaskCmd → m < 64 → e.nI Ix.trgMaskState m = 2 →
    Completes (.maskRestart t path m) t s (.trg :: requestParts) (Ix.trgMaskState :: requestPlaces) fun d =>
      d.rd Ix.trgMaskState (m + 1) 0 = 1 ∧ d.mask m = { e.mask m with from_ := e.trgBoundary (e.time96 + 1) }) ∧
  (∀ t path m s e, e = s.dev.at t → e.reaches path Ix.trgMaskCmd → m < 64 → e.nI Ix.trgMaskState m ≠ 2 →
    Completes (.maskRestart t path m) t s requestParts requestPlaces fun d => d.rd Ix.trgMaskState (m + 1) 0 = e.rd Ix.trgMaskState (m + 1) 0) ∧
  (∀ t path m s e, e = s.dev.at t → e.reaches path Ix.trgMaskCmd → m < 64 →
    Completes (.maskClearCounts t path m) t s requestParts
      (Ix.trgMaskPass :: Ix.trgMaskFail :: Ix.trgMaskSkipped :: Ix.trgMaskLost :: Ix.trgMaskWorst :: requestPlaces) fun d =>
      d.rd Ix.trgMaskPass (m + 1) 0 = 0 ∧ d.rd Ix.trgMaskFail (m + 1) 0 = 0 ∧ d.rd Ix.trgMaskSkipped (m + 1) 0 = 0 ∧
      d.rd Ix.trgMaskLost (m + 1) 0 = 0 ∧ d.rd Ix.trgMaskWorst (m + 1) 0 = 0) ∧
  (∀ t path (v : Nat) s e m i, e = s.dev.at t → e.reaches path Ix.trgBpValue → m = e.nW Ix.trgBpMask path → i = e.nW Ix.trgBpIndex path → m < 64 → i < 1024 →
    Completes (.trgBpValue t path v) t s (.cut :: requestParts) (Ix.modCutState :: Ix.trgBpIndex :: requestPlaces) fun d =>
      d.cut = { e.cut with staged := putWrite ⟨Ix.trgBpValue, 0, m * 65536 + i, v⟩ e.cut.staged } ∧ d.rd Ix.trgBpIndex 0 path = (i + 1 : Nat)) ∧
  (∀ t path (v : Nat) s e, e = s.dev.at t → e.reaches path Ix.trgBpValue → 1 ≤ path ∧ path ≤ 4 → 1024 ≤ e.nW Ix.trgBpIndex path →
    Completes (.trgBpValue t path v) t s requestParts requestPlaces fun d => d.reports path Code.maskTable ∧ d.cut = e.cut) ∧
  (∀ t m s e w, e = s.dev.at t → m < 64 → e.nI Ix.trgMaskState m ≠ 0 → e.nI Ix.trgMaskState m ≠ 3 → w = (e.within 20000).1 →
    e.sup.emergencies.length < 32 →
    Completes (.maskTableReload t m) t s (.drawn :: .trg :: codeParts) (Ix.trgMaskState :: faultPlaces) fun d => w ≤ 20000 ∧
      d.mask m = { e.mask m with suspended := max 1 (e.now + ns w), was := e.nI Ix.trgMaskState m } ∧ d.rd Ix.trgMaskState (m + 1) 0 = 3 ∧
      d.reports 4 Code.maskTableReload)

/-- R185 to R190, R206 and R207: the sequencer. A chain takes its next due event and steps, completes within its hold-off, or fires: the fire is
counted and places a pulse on every TOUT of the chain; a due pulse begins; a queue error resets the chains that name the condition; a bank
fault suspends its instance and its masks for 50 µs. -/
def Obligations.SequencerStepsFiresAndFaults : Prop :=
  (∀ t k s e x q y, e = s.dev.at t → k < 16 → x = e.chain k → x.before = none → e.nI Ix.trgChainStages k ≠ 0 → e.chainHeld k = false →
    nextEvent (e.nI Ix.trgChainOrder k) e.time96 x.queue = some q → e.nI Ix.trgCondType q.cond ≠ 0x10 →
    chainStep (e.chainCfg k) { x with queue := x.queue.erase q } q.cond q.time = (y, .none) →
    Completes (.sequencerEvent t k) t s [.trg] [Ix.trgChainStage] fun d =>
      d.chain k = y ∧ d.rd Ix.trgChainStage (k + 1) 0 = normTy (typeOf Ix.trgChainStage (k + 1)) y.stage) ∧
  (∀ t k s e x q y, e = s.dev.at t → k < 16 → x = e.chain k → x.before = none → e.nI Ix.trgChainStages k ≠ 0 → e.chainHeld k = false →
    nextEvent (e.nI Ix.trgChainOrder k) e.time96 x.queue = some q → e.nI Ix.trgCondType q.cond ≠ 0x10 →
    chainStep (e.chainCfg k) { x with queue := x.queue.erase q } q.cond q.time = (y, .held) →
    Completes (.sequencerEvent t k) t s [.trg, .ctr] [Ix.trgChainStage, Ix.trgChainHeld] fun d =>
      d.chain k = y ∧ e.counted d Ix.trgChainHeld (k + 1) 0 1) ∧
  (∀ t k s e x q y, e = s.dev.at t → k < 16 → x = e.chain k → x.before = none → e.nI Ix.trgChainStages k ≠ 0 → e.chainHeld k = false →
    nextEvent (e.nI Ix.trgChainOrder k) e.time96 x.queue = some q → e.nI Ix.trgCondType q.cond ≠ 0x10 →
    chainStep (e.chainCfg k) { x with queue := x.queue.erase q } q.cond q.time = (y, .fire) → (∀ j < 256, e.nW Ix.trgMagChain j ≠ k) →
    255 < e.nI Ix.trgChainBcast k → e.n0 Ix.ctrSnapChain ≠ k → e.n0 Ix.ctrFreezeSrc ≠ 1 →
    Completes (.sequencerEvent t k) t s [.trg, .out, .ctr] (Ix.trgChainStage :: Ix.trgChainFires :: eventPlaces) fun d =>
      d.chain k = y ∧ e.counted d Ix.trgChainFires (k + 1) 0 1 ∧
      ∀ n < 4, (d.trg.touts.get {} n).pulses = (e.trg.touts.get {} n).pulses ++ (if e.nI Ix.trgToutSrc n = k then [q.time + e.toutDelay n] else [])) ∧
  (∀ t n s e p r, e = s.dev.at t → n < 4 → (e.trg.touts.get {} n).pulses = p :: r → p ≤ e.time96 → e.nI Ix.trgToutSrc n ≠ 0xFF →
    Completes (.toutPulse t n) t s [.trg, .ctr] [Ix.trgToutCount] fun d =>
      d.trg.touts.get {} n = ⟨r, max (e.trg.touts.get {} n).ends (p + ps (e.nI Ix.trgToutWidth n))⟩ ∧ e.counted d Ix.trgToutCount (n + 1) 0 1) ∧
  (∀ t c s e, e = s.dev.at t → c < 64 → e.sup.emergencies.length < 32 →
    Completes (.queueError t c) t s (.drawn :: .trg :: codeParts) (Ix.trgChainStage :: faultPlaces) fun d =>
      (∀ k < 16, bitOf (e.chainCfg k).names c = true → d.rd Ix.trgChainStage (k + 1) 0 = 0 ∧
        d.chain k = { chainReset (e.chain k) with queue := (e.chain k).queue.filter (fun q => q.cond != c) }) ∧
      (∀ k < 16, bitOf (e.chainCfg k).names c = false → d.chain k = e.chain k) ∧ d.reports 4 Code.queueError) ∧
  (∀ t i s e w, e = s.dev.at t → i < 5 → w = (e.within 50000).1 → e.sup.emergencies.length < 32 →
    Completes (.bankFault t i) t s (.drawn :: .trg :: .out :: codeParts) (Ix.trgMaskState :: (eventPlaces ++ faultPlaces)) fun d => w ≤ 50000 ∧
      d.trg.suspended.find? i = some (e.time96, max 1 (e.now + ns w)) ∧ d.reports 4 Code.bankFault ∧
      (i < 4 → ∀ j < 16, e.nI Ix.trgMaskState (16 * i + j) = 1 →
        d.rd Ix.trgMaskState (16 * i + j + 1) 0 = 3 ∧ (d.mask (16 * i + j)).suspended = max 1 (e.now + ns w)))

/-- R191 to R202 and R206: magazines and takes. The commands act on the magazine their path selects: an arm takes memory and starts the history,
a disarm closes an open take PARTIAL at the boundary, a free waits for its release, a forced trigger opens a take, a clear deletes every
take; each is rejected in the wrong state. A complete take is committed to memory, reported and delivered. -/
def Obligations.MagazineCommandsAndTakes : Prop :=
  (∀ t path s e m e' k b, e = s.dev.at t → e.reaches path Ix.trgMagCmd → k = e.nW Ix.trgMagSel path → e.inRushes = false →
    m = e.setMag k { e.mag k with
      inSlot := e.nW Ix.trgMagHistory k == 1, ahead := if (e.mag k).takes.isEmpty then e.chainSamples k else (e.mag k).ahead } →
    m.armRefusal k = none → m.magMemory k = some e' → b = e.trgBoundary (e.time96 + 1) →
    Completes (.magArm t path) t s (.trg :: .cap :: requestParts)
      (Ix.trgHistoryFree :: Ix.trgMagBase :: Ix.trgMagLogBase :: Ix.trgMagState :: Ix.trgMagCapacity :: Ix.trgMagSlotBytes :: Ix.trgMagHistoryBytes ::
        Ix.trgTakeState :: Ix.capFree :: requestPlaces) fun d =>
      d.rd Ix.trgMagState 0 k = 2 ∧ (d.mag k).armed = true ∧ (d.mag k).armAt = b ∧ (d.mag k).open_ = none ∧ (d.mag k).takes = (e.mag k).takes ∧
      (d.mag k).slotStart = e.magAfter k b ∧ (d.mag k).at_ = e.magAfter k b ∧ d.cap.allocs = e'.cap.allocs) ∧
  (∀ t path s e k, e = s.dev.at t → e.reaches path Ix.trgMagCmd → 1 ≤ path ∧ path ≤ 4 → k = e.nW Ix.trgMagSel path → e.magState k ≠ 1 →
    Completes (.magArm t path) t s requestParts requestPlaces fun d => d.reports path Code.magState ∧ d.trg = e.trg) ∧
  (∀ t path s e k, e = s.dev.at t → e.reaches path Ix.trgMagCmd → k = e.nW Ix.trgMagSel path → (e.magState k = 2 ∨ e.magState k = 4) →
    (e.mag k).open_ = none →
    Completes (.magDisarm t path) t s (.trg :: requestParts) (Ix.trgHistoryFree :: Ix.trgMagState :: Ix.trgTakeState :: requestPlaces) fun d =>
      d.rd Ix.trgMagState 0 k = 1 ∧ (d.mag k).armed = false ∧ (d.mag k).takes = (e.mag k).takes) ∧
  (∀ t path s e k tk, e = s.dev.at t → e.reaches path Ix.trgMagCmd → k = e.nW Ix.trgMagSel path → e.magState k = 3 → (e.mag k).open_ = some tk →
    e.trgBoundary (e.time96 + 1) < e.takeLast k tk →
    Completes (.magDisarm t path) t s (.trg :: .out :: requestParts)
      (Ix.trgHistoryFree :: Ix.trgMagState :: Ix.trgTakeState :: (eventPlaces ++ requestPlaces)) fun d =>
      d.rd Ix.trgMagState 0 k = 1 ∧ (d.mag k).armed = false ∧ (d.mag k).open_ = none ∧ (d.mag k).takes = (e.mag k).takes ++
        [{ tk with cutAt := some (max (e.magAfter k (e.trgBoundary (e.time96 + 1))) (tk.trig - tk.valid)) }]) ∧
  (∀ t path s e k, e = s.dev.at t → e.reaches path Ix.trgMagCmd → k = e.nW Ix.trgMagSel path → (e.magState k = 1 ∨ e.magState k = 4) →
    Completes (.magFree t path) t s (.trg :: requestParts) (Ix.trgHistoryFree :: Ix.trgMagState :: Ix.trgTakeState :: requestPlaces) fun d =>
      d.rd Ix.trgMagState 0 k = 5 ∧ (d.mag k).takes = (e.mag k).takes) ∧
  (∀ t path s e k, e = s.dev.at t → e.reaches path Ix.trgMagCmd → 1 ≤ path ∧ path ≤ 4 → k = e.nW Ix.trgMagSel path →
    (e.magState k = 0 ∨ e.magState k = 2 ∨ e.magState k = 3) →
    Completes (.magFree t path) t s requestParts requestPlaces fun d => d.reports path Code.magState ∧ d.trg = e.trg) ∧
  (∀ t k s e, e = s.dev.at t → k < 256 → e.magState k = 5 →
    Completes (.magFreeRelease t k) t s [.trg, .cap] (Ix.trgMagTakes :: Ix.trgMagSeq :: Ix.capFree :: Ix.trgHistoryFree :: Ix.trgMagBase :: Ix.trgMagLogBase ::
      Ix.trgMagCapacity :: Ix.trgMagSlotBytes :: Ix.trgMagHistoryBytes :: Ix.trgMagState :: takePlaces) fun d =>
      d.allocOf 2 k = none ∧ d.allocOf 3 k = none ∧ d.mag k = {} ∧ d.rd Ix.trgMagTakes 0 k = 0 ∧
      d.rd Ix.trgMagState 0 k = (if e.magChans k = [] then 0 else 1)) ∧
  (∀ t path s e k x b, e = s.dev.at t → e.reaches path Ix.trgMagCmd → k = e.nW Ix.trgMagSel path → x = e.mag k → b = e.trgBoundary (e.time96 + 1) →
    e.magState k = 2 → x.open_ = none → x.armed = true → x.armAt ≤ b → (∀ l, x.lastEnd = some l → l + ns 64 ≤ b) → x.takes.length < e.magK k →
    Completes (.magForceTrigger t path) t s (.trg :: requestParts) (Ix.trgMagSeq :: Ix.trgMagState :: (takePlaces ++ requestPlaces)) fun d =>
      d.rd Ix.trgMagState 0 k = 3 ∧ e.counted d Ix.trgMagSeq 0 k 1 ∧ (d.mag k).open_ = some
        { index := x.next, seq := e.nW Ix.trgMagSeq k, chain := e.nW Ix.trgMagChain k, cond := 0xFF, forced := true, time := b,
          trig := e.magAfter k b, start := x.slotStart, pre := e.magP k, valid := min (e.magP k) (e.magAfter k b - x.slotStart), post := e.magQ k }) ∧
  (∀ t path s e k, e = s.dev.at t → e.reaches path Ix.trgMagCmd → 1 ≤ path ∧ path ≤ 4 → k = e.nW Ix.trgMagSel path → e.magState k ≠ 2 →
    (e.mag k).open_ = none →
    Completes (.magForceTrigger t path) t s requestParts requestPlaces fun d => d.reports path Code.magState ∧ d.trg = e.trg) ∧
  (∀ t path s e k, e = s.dev.at t → e.reaches path Ix.trgMagCmd → k = e.nW Ix.trgMagSel path → (e.magState k = 1 ∨ e.magState k = 4) →
    Completes (.magClear t path) t s (.trg :: requestParts) (Ix.trgMagTakes :: Ix.trgMagSeq :: Ix.trgMagState :: (takePlaces ++ requestPlaces)) fun d =>
      (d.mag k).takes = [] ∧ d.rd Ix.trgMagTakes 0 k = 0 ∧ d.rd Ix.trgMagSeq 0 k = 0 ∧ d.nW Ix.trgMagState k = (if e.magState k = 4 then 2 else 1)) ∧
  (∀ t k take s e tk img lg, e = s.dev.at t → k < 256 → e.inRushes = false → (e.mag k).disarm = false →
    (e.mag k).takes.find? (fun x => x.index == take && !x.complete && x.logged.isSome) = some tk → tk.logged = some lg → e.magBusy k 3 = false →
    e.takeLen k tk ≤ e.takeHeld k tk → img = { e.takeImage k tk with slate := lg.1, trailer := lg.2.1 } →
    e.nW Ix.trgMagRing k ≠ noRing → e.ringTakes (e.nW Ix.trgMagRing k) = true →
    CompletesMem (.takeComplete t k take) t s (.trg :: eventParts) (Ix.trgMagTakes :: (takePlaces ++ eventPlaces)) fun m d =>
      s.mem.sameOutside (fun a => e.owns 2 k a) m ∧ { tk with complete := true, chunks := [], log := [] } ∈ (d.mag k).takes ∧
      d.rd Ix.trgTakeState 0 (k * 2 ^ 20 + tk.index) = (if lg.2.2 then 4 else 3) ∧
      d.out.arrived = e.out.arrived ++ [(e.nW Ix.trgMagRing k, takeRecord img)]) ∧
  (∀ t k take s e tk, e = s.dev.at t → k < 256 → (e.mag k).takes.find? (fun x => x.index == take && !x.complete && x.logged.isSome) = some tk →
    e.magBusy k 3 = true → CompletesMem (.takeComplete t k take) t s [] [] fun m d => m = s.mem ∧ d.trg = e.trg) ∧
  (∀ t k first count s e, e = s.dev.at t → k < 256 → (e.mag k).armed = true →
    Completes (.takeMemoryError t k first count) t s [.trg] [] fun d => d.mag k = { e.mag k with bad := (first, count) :: (e.mag k).bad })

/-- R214 to R222 and R227: planes. A frame of the fed layer increments the plane's cells; at the boundary the running plane frame settles, its
counts decay and its closing values stand; a memory error zeroes the cells of its word; a fault resets the plane within 50 µs; an export goes to
the plane's ring, and is skipped where its handle cannot take it. -/
def Obligations.PlanesSettleAndAreExported : Prop :=
  (∀ t p s e x st b, e = s.dev.at t → p < 4 → x = e.plane p → x.before = none → x.start = some st → b = planeAfter st (e.nI Ix.denPeriod p) →
    e.planeReady p b = true →
    Completes (.planeFrameSettle t p 0) t s [.den, .ctr] [Ix.denThrCount, Ix.denPlaneFrames, Ix.denMaxCell, Ix.denSatCells] fun d =>
      (d.plane p).settled = x.active ∧ (d.plane p).start = some b ∧ (d.plane p).counted = 0 ∧
      (d.plane p).active = x.active.filterMap (fun c =>
        if decayed (e.nI Ix.denDecay p) c.2 = 0 then none else some (c.1, decayed (e.nI Ix.denDecay p) c.2)) ∧
      (d.plane p).closed.take 7 = [st, x.counted, x.skipped, x.lost, x.hits, x.clipped, x.satCells.length] ∧
      e.counted d Ix.denPlaneFrames (p + 1) 0 1) ∧
  (∀ t p word s e, e = s.dev.at t → p < 4 → e.sup.emergencies.length < 32 →
    Completes (.planeMemError t p word) t s (.den :: codeParts) codePlaces fun d =>
      (∀ c, (d.plane p).active.get 0 c = if c / 2 = word then 0 else (e.plane p).active.get 0 c) ∧
      (∀ c, (d.plane p).settled.get 0 c = if c / 2 = word then 0 else (e.plane p).settled.get 0 c) ∧ d.reports 4 Code.planeMemError) ∧
  (∀ t p s e, e = s.dev.at t → p < 4 → e.nI Ix.denState p ≠ 0 → e.sup.emergencies.length < 32 →
    Completes (.densityFault t p) t s (.drawn :: .den :: codeParts) (Ix.denState :: faultPlaces) fun d =>
      (d.plane p).active = [] ∧ (d.plane p).settled = [] ∧ e.now ≤ (d.plane p).resetUntil ∧ (d.plane p).resetUntil ≤ e.now + us 50 ∧
      d.rd Ix.denState (p + 1) 0 = 3 ∧ d.reports 4 Code.densityFault ∧ e.counted d Ix.fltClassCount 2 0 1) ∧
  (∀ t p s e, e = s.dev.at t → p < 4 → e.nI Ix.denState p = 0 → e.sup.emergencies.length < 32 →
    Completes (.densityFault t p) t s (.drawn :: codeParts) faultPlaces fun d => d.den = e.den ∧ d.reports 4 Code.densityFault) ∧
  (∀ t p s e x pay, e = s.dev.at t → p < 4 → x = e.plane p → x.exportDue = true → x.setting.getD 10 0 = 1 →
    pay = planePayload x.settled (x.setting.getD 0 0 * x.setting.getD 1 0) 1
      (if x.setting.getD 11 0 = 0 then x.closed.getD 8 0 else x.setting.getD 11 0) → e.nI Ix.denRing p ≠ noRing → e.ringTakes (e.nI Ix.denRing p) = true →
    Completes (.planeExport t p) t s [.den, .out, .ctr] [Ix.denExports] fun d =>
      d.plane p = { x with exportDue := false } ∧ e.counted d Ix.denExports (p + 1) 0 1 ∧
      d.out.outbox = e.out.outbox ++ [(e.nI Ix.denRing p, e.planeRecord p pay)]) ∧
  (∀ t p s e x, e = s.dev.at t → p < 4 → x = e.plane p → x.exportDue = true → x.setting.getD 10 0 = 1 → e.nI Ix.denRing p = noRing →
    Completes (.planeExport t p) t s [.den, .ctr] [Ix.denExports] fun d =>
      d.plane p = { x with exportDue := false } ∧ e.counted d Ix.denExports (p + 1) 0 1) ∧
  (∀ t p s e x, e = s.dev.at t → p < 4 → x = e.plane p → x.exportDue = true → x.setting.getD 10 0 ≠ 1 → e.nI Ix.denVpLayer p < 3 →
    e.handleEntry (e.planeHandle p (1 - x.lastHandle)) = none → e.sup.emergencies.length < 32 →
    Completes (.planeExport t p) t s (.den :: .out :: codeParts) (Ix.denExports :: Ix.denExportsSkipped :: codePlaces) fun d =>
      e.counted d Ix.denExportsSkipped (p + 1) 0 1 ∧ d.reports 4 Code.exportSkipped)

/-- R232 to R235 and R248 to R250: the display link. A sink is plugged, interrupts and is unplugged; a training attempt succeeds, or is retried
at fewer bits until none is left; the timing generator is switched; frames start; a mismatch of the read-back is counted and raised; an
underrun and a composer fault abort the frame. -/
def Obligations.DisplayLinkAndFrames : Prop :=
  (∀ t rate lanes khz ht vt listed edid s e, e = s.dev.at t → e.vp.plugged = false → e.n0 Ix.vpEnable = 0 → e.wakesNothing 4 →
    Completes (.hpdPlug t rate lanes khz ht vt listed edid) t s [.vp, .long, .out, .ctr] eventPlaces fun d =>
      d.vp.plugged = true ∧ d.vp.sinkRate = rate ∧ d.vp.sinkLanes = lanes ∧ d.vp.preferred = rowNear khz ht vt ∧ d.vp.listed = listed ∧
      d.long.get [] (ekey Ix.vpEdid 0 0) = edid.take 512) ∧
  (∀ t rate lanes khz ht vt listed edid s e f c, e = s.dev.at t → e.vp.plugged = false → e.n0 Ix.vpEnable = 1 → e.n0 Ix.vpMode = 0 → e.wakesNothing 4 →
    rowNear khz ht vt ≠ 0 → e.n0 Ix.vpBpc = 10 → f = { e with vp := { e.vp with sinkRate := rate, sinkLanes := lanes } } →
    f.pickLink (e.timing (rowNear khz ht vt)).1 10 = some c →
    Completes (.hpdPlug t rate lanes khz ht vt listed edid) t s [.vp, .long, .out, .ctr] (Ix.vpLinkState :: eventPlaces) fun d =>
      d.rd Ix.vpLinkState 0 0 = 2 ∧ d.vp.attempt = some (rowNear khz ht vt, c.1, c.2, 10) ∧ d.vp.modeNow = rowNear khz ht vt) ∧
  (∀ t low s e, e = s.dev.at t → e.vp.plugged = true → 250 ≤ low → low ≤ 2000 → e.n0 Ix.vpLinkState ≠ 2 →
    Completes (.hpdIrq t low false) t s [.out, .ctr] eventPlaces fun d => d.out.seqs.get 0 6 = wrap48 (e.out.seqs.get 0 6 + 1)) ∧
  (∀ t low s e, e = s.dev.at t → e.vp.plugged = true → 250 ≤ low → low ≤ 2000 → e.n0 Ix.vpEnable ≠ 0 → e.pickMode = 0 → e.sup.emergencies.length < 32 →
    Completes (.hpdIrq t low true) t s (.vp :: .out :: codeParts) (Ix.vpLinkState :: (eventPlaces ++ codePlaces)) fun d =>
      d.rd Ix.vpLinkState 0 0 = 4 ∧ d.vp.attempt = none ∧ d.reports 4 Code.modeUnsupported) ∧
  (∀ t s e, e = s.dev.at t → e.vp.plugged = true →
    Completes (.hpdUnplug t) t s [.vp, .out, .ctr] (Ix.vpLinkState :: eventPlaces) fun d =>
      d.vp = { e.vp with plugged := false, attempt := none } ∧ (e.n0 Ix.vpEnable = 1 → d.rd Ix.vpLinkState 0 0 = 1)) ∧
  (∀ t s e mode rate lanes bpc, e = s.dev.at t → e.vp.attempt = some (mode, rate, lanes, bpc) →
    Completes (.dpLinkTrained t true) t s [.vp, .out, .ctr] (Ix.vpLinkState :: Ix.vpLinkConfig :: eventPlaces) fun d =>
      d.vp = { e.vp with attempt := none, mismatches := 0 } ∧ d.rd Ix.vpLinkState 0 0 = 3 ∧
      d.rd Ix.vpLinkConfig 0 0 = normTy (typeOf Ix.vpLinkConfig 0) (mode * 256 + rate * 16 + lanes : Nat)) ∧
  (∀ t s e mode rate lanes, e = s.dev.at t → e.vp.attempt = some (mode, rate, lanes, 6) → e.sup.emergencies.length < 32 →
    Completes (.dpLinkTrained t false) t s (.vp :: codeParts) (Ix.vpLinkState :: codePlaces) fun d =>
      d.vp.attempt = none ∧ d.rd Ix.vpLinkState 0 0 = 4 ∧ d.reports 4 Code.modeUnsupported) ∧
  (∀ t path s e, e = s.dev.at t → e.reaches path Ix.vpEnable → e.n0 Ix.vpEnable = 0 → e.vp.plugged = false →
    Completes (.vpEnable t path 1) t s (.vp :: .out :: requestParts) (Ix.vpEnable :: Ix.vpLinkState :: Ix.pwrIslState :: (eventPlaces ++ requestPlaces)) fun d =>
      d.rd Ix.vpEnable 0 0 = 1 ∧ d.rd Ix.vpLinkState 0 0 = 1 ∧ d.nI Ix.pwrIslState 5 = 0 ∧ d.vp.latched = true) ∧
  (∀ t path s e, e = s.dev.at t → e.reaches path Ix.vpEnable → e.n0 Ix.vpEnable = 1 →
    Completes (.vpEnable t path 0) t s (.vp :: .out :: requestParts) (Ix.vpEnable :: Ix.vpLinkState :: Ix.pwrIslState :: (eventPlaces ++ requestPlaces)) fun d =>
      d.rd Ix.vpEnable 0 0 = 0 ∧ d.rd Ix.vpLinkState 0 0 = 0 ∧ d.nI Ix.pwrIslState 5 = 2 ∧ d.vp.attempt = none) ∧
  (∀ t path v s e, e = s.dev.at t → e.reaches path Ix.vpEnable → 1 ≤ path ∧ path ≤ 4 → 1 < v →
    Completes (.vpEnable t path v) t s requestParts requestPlaces fun d => d.reports path Code.valueRange ∧ d.vp = e.vp) ∧
  (∀ t s e, e = s.dev.at t → e.n0 Ix.vpEnable = 1 → e.vp.latched = true → e.vp.composerUntil ≤ e.now →
    Completes (.displayFrameStart t 0) t s [.vp, .ctr] [Ix.vpFrame] fun d => d.vp = { e.vp with latched := false } ∧ e.counted d Ix.vpFrame 0 0 1) ∧
  (∀ t r g b s e, e = s.dev.at t → e.vp.formed = some [r, g, b] → r < 2 ^ 16 → g < 2 ^ 16 → b < 2 ^ 16 →
    Completes (.readbackCheck t r g b) t s [.vp] [Ix.vpReadbackCrc] fun d =>
      d.vp = { e.vp with mismatches := 0, formed := none } ∧ d.rd Ix.vpReadbackCrc 1 0 = r ∧ d.rd Ix.vpReadbackCrc 2 0 = g ∧ d.rd Ix.vpReadbackCrc 3 0 = b) ∧
  (∀ t r g b l s e, e = s.dev.at t → e.vp.formed = some l → l ≠ [r % 2 ^ 16, g % 2 ^ 16, b % 2 ^ 16] → e.n0 Ix.vpReadbackAction ≠ 1 →
    e.sup.emergencies.length < 32 →
    Completes (.readbackCheck t r g b) t s (.vp :: .out :: codeParts) (Ix.vpReadbackCrc :: Ix.vpReadbackErrors :: (eventPlaces ++ codePlaces)) fun d =>
      d.vp = { e.vp with mismatches := e.vp.mismatches + 1, formed := none } ∧ e.counted d Ix.vpReadbackErrors 0 0 1 ∧
      d.reports 4 Code.readbackMismatch) ∧
  (∀ t r g b s e, e = s.dev.at t → e.vp.formed = none → Completes (.readbackCheck t r g b) t s [] [] fun d => d.vp = e.vp) ∧
  (∀ t layer line s e, e = s.dev.at t → layer < 4 → e.n0 Ix.vpEnable = 1 → e.vp.latched = false → e.vp.committed = [] → e.vp.underrunRaised = none →
    e.sup.emergencies.length < 32 →
    Completes (.vpUnderrun t layer line) t s (.vp :: .out :: codeParts) (Ix.vpUnderruns :: (handlePlaces ++ eventPlaces ++ codePlaces)) fun d =>
      e.counted d Ix.vpUnderruns 0 0 1 ∧ d.vp.latched = true ∧ d.vp.underrunRaised = some e.now ∧ d.reports 4 Code.underrun) ∧
  (∀ t s e, e = s.dev.at t → e.n0 Ix.vpEnable = 0 → e.sup.emergencies.length < 32 →
    Completes (.composerFault t) t s (.drawn :: .vp :: codeParts) faultPlaces fun d =>
      d.vp = { e.vp with composerUntil := d.vp.composerUntil } ∧ e.now ≤ d.vp.composerUntil ∧ d.vp.composerUntil ≤ e.now + us 50 ∧
      d.reports 4 Code.composerFault) ∧
  (∀ t s e, e = s.dev.at t → e.n0 Ix.vpEnable = 1 → e.vp.latched = false → e.vp.committed = [] → e.sup.emergencies.length < 31 →
    Completes (.composerFault t) t s (.drawn :: .vp :: .out :: codeParts) (Ix.vpUnderruns :: (handlePlaces ++ eventPlaces ++ faultPlaces)) fun d =>
      e.counted d Ix.vpUnderruns 0 0 1 ∧ d.vp.latched = true ∧ d.vp.formed = none ∧ d.vp.composerUntil ≤ e.now + us 50 ∧
      e.counted d Ix.fltClassCount 2 0 1) ∧
  (∀ t s e, e = s.dev.at t →
    Completes (.paletteEccError t) t s [.drawn, .flt, .ctr] [Ix.fltClassCount, Ix.fltInterruptMax, Ix.fltLogCount] fun d =>
      e.counted d Ix.fltClassCount 2 0 1 ∧ e.counted d Ix.fltLogCount 0 0 1 ∧ d.flt.logSeq = wrap48 (e.flt.logSeq + 1))

/-- R239 to R247: handles, commits and roll lines. A buffer is taken from the pool and its handle given; a free waits; a cursor pixel joins the
Viewport's staged set; a commit moves the staged parts of its map; at the latch point commits apply and roll heads are fixed; a trace in
roll mode writes one line of its buffer and nothing else. -/
def Obligations.ViewportHandlesCommitsAndRolls : Prop :=
  (∀ t path s e w h f n stride size off g, e = s.dev.at t → e.reaches path Ix.vpAllocCmd → w = e.n0 Ix.vpAllocWidth → h = e.n0 Ix.vpAllocHeight →
    f = e.n0 Ix.vpAllocFormat → 1 ≤ w ∧ w ≤ 4096 → 1 ≤ h ∧ h ≤ 4096 → 1 ≤ f ∧ f ≤ 4 →
    (List.range 64).find? (fun x => (e.vp.handles.find? x).isNone) = some n → stride = ceilDiv (w * f) 256 * 256 →
    size = ceilDiv (stride * h) 4096 * 4096 → off = poolFit size 0 e.poolMap → off + size ≤ e.poolBytes → g = (e.vp.generations.get 0 n + 1) % 65536 →
    Completes (.vpAlloc t path) t s (.vp :: requestParts) (Ix.vpAllocHandle :: (handlePlaces ++ requestPlaces)) fun d =>
      d.vp.handles.find? n = some ⟨off, size, w, h, f, stride, 0⟩ ∧ d.vp.generations.get 0 n = g ∧ d.rd Ix.vpAllocHandle 0 0 = (g * 65536 + n : Nat) ∧
      d.rd Ix.vpHandleState (n + 1) 0 = 1) ∧
  (∀ t path s e n, e = s.dev.at t → e.reaches path Ix.vpAllocCmd → e.handleEntry (e.n0 Ix.vpAllocHandle) = some n → n ∉ e.vp.freeing →
    Completes (.vpFreeRequest t path) t s (.vp :: requestParts) (Ix.vpHandleState :: requestPlaces) fun d =>
      d.vp = { e.vp with freeing := e.vp.freeing ++ [n] } ∧ d.rd Ix.vpHandleState (n + 1) 0 = 3) ∧
  (∀ t path s e, e = s.dev.at t → e.reaches path Ix.vpAllocCmd → 1 ≤ path ∧ path ≤ 4 → e.handleEntry (e.n0 Ix.vpAllocHandle) = none →
    Completes (.vpFreeRequest t path) t s requestParts requestPlaces fun d => d.reports path Code.handleInvalid ∧ d.vp = e.vp) ∧
  (∀ t path (v : Nat) s e i, e = s.dev.at t → e.reaches path Ix.vpCursorPixel → i = e.nW Ix.vpCursorIndex path → i < 16384 →
    Completes (.vpCursorPixel t path v) t s (.vp :: requestParts) (Ix.vpCursorIndex :: requestPlaces) fun d =>
      d.vp = { e.vp with staged := putWrite ⟨Ix.vpCursorPixel, 0, i, v⟩ e.vp.staged } ∧ d.rd Ix.vpCursorIndex 0 path = (i + 1 : Nat)) ∧
  (∀ t path map s e, e = s.dev.at t → e.reaches path Ix.vpCommit → map < 64 →
    (∀ l < 3, bitOf map l = true → (stagedValue e.vp.staged Ix.vpRoll (l + 1) 0).getD (e.rd Ix.vpRoll (l + 1) 0) = 0) →
    Completes (.vpCommit t path map) t s (.vp :: requestParts) requestPlaces fun d =>
      d.vp.staged = e.vp.staged.filter (fun w => !bitOf map (vpPart w)) ∧
      ∀ p < 6, bitOf map p = true → (d.vp.committed.find? (fun c => c.1 == p)).map (·.2) = some ((e.vp.staged.filter (fun w => vpPart w == p)).foldl
        (fun l w => putWrite w l) (match e.vp.committed.find? (fun c => c.1 == p) with | some c => c.2 | none => []))) ∧
  (∀ t s e tm, e = s.dev.at t → e.n0 Ix.vpEnable = 1 → e.vp.latched = false → e.vp.suspended = false → e.vp.committed = [] → tm = e.timing e.vp.modeNow →
    Completes (.vpLatchPoint t) t s [.vp, .out, .ctr] (handlePlaces ++ eventPlaces) fun d =>
      d.vp.latched = true ∧ d.vp.rolls = e.vp.rolls.map (fun r => (r.1, { r.2 with head := r.2.done })) ∧
      d.vp.formed = if e.n0 Ix.vpLinkState = 3 then some (e.frameCrcs s.mem tm.2.1 tm.2.2.1) else none) ∧
  (∀ t s e p w, e = s.dev.at t → e.n0 Ix.vpEnable = 1 → e.vp.latched = false → e.vp.suspended = false → p < 4 → e.vp.committed = [(p, [w])] →
    w.ix ∉ Ix.vpFrame :: Ix.vpCommitSeq :: Ix.vpCommitFrame :: (handlePlaces ++ eventPlaces) →
    Completes (.vpLatchPoint t) t s [.vp, .out, .ctr] (w.ix :: Ix.vpCommitSeq :: Ix.vpCommitFrame :: (handlePlaces ++ eventPlaces)) fun d =>
      d.vp.latched = true ∧ d.vp.committed = [] ∧ d.rd w.ix w.sub w.inst = normTy (typeOf w.ix w.sub) w.value ∧
      e.counted d Ix.vpCommitSeq (p + 1) 0 1) ∧
  (∀ t k l s e x r n h f, e = s.dev.at t → k < 16 → l < 3 → x = e.layer k → e.nI Ix.speLayerSrc k ≠ 0 → x.trace.first = some f →
    (f / e.traceLen k + 1) * e.traceLen k ≤ x.next.getD 0 → e.traceConv k x.trace = [] → e.nI Ix.vpRoll l ≠ 0 →
    e.nI Ix.vpRollSrc l = k → (∀ j < 3, j ≠ l → e.nI Ix.vpRoll j = 0) → r = e.vp.rolls.get {} l → (r.traces + 1) % max (e.nI Ix.vpRollEvery l) 1 = 0 →
    e.handleEntry (e.nI Ix.vpLayerHandle l) = some n → e.vp.handles.find? n = some h → 1 ≤ h.format ∧ h.format ≤ 4 →
    Completes (.traceClose t k) t s [.spe, .vp, .cap, .out, .ctr] [Ix.speTraces] fun d =>
      (d.vp.rolls.get {} l).newest = r.newest + 1 ∧ (d.vp.rolls.get {} l).traces = r.traces + 1 ∧
      (r.newest + 1) % h.height ∉ (d.vp.rolls.get {} l).valid ∧
      (d.cap.asked.drop e.cap.asked.length).map (fun p => (p.1, p.2.dest, p.2.bytes.length)) =
        [(7 * 2 ^ 24 + l, .line l ((r.newest + 1) % h.height) (r.newest + 1) (h.offset + (r.newest + 1) % h.height * h.stride), h.width * h.format)]) ∧
  (∀ t l s e x it len r line num off a, e = s.dev.at t → l < 3 → x = e.hodStream (7 * 2 ^ 24 + l) → x.full = ⟨[it], len⟩ :: r → len ≠ 0 →
    it.dest = .line l line num off → e.cap.stallUntil ≤ e.now → e.cap.asleep = false → e.portOpen 4 = true → e.cap.training = none →
    e.n0 Ix.capState ≠ 4 → (e.handleEntry (e.nI Ix.vpLayerHandle l)).isSome = true → e.allocOf 0x10 0 = some a →
    CompletesMem (.hodBlockLeave t (7 * 2 ^ 24 + l)) t s [.vp, .cap, .ctr]
      [Ix.vpRollLines, Ix.capPortBytes, Ix.capHodOccupancy, Ix.capHodHighWater] fun m d =>
      m = e.writeAlloc a off it.bytes s.mem ∧ s.mem.sameOutside (fun b => ∃ o < it.bytes.length, b ∈ e.liveAddrs a (off + o)) m ∧
      e.counted d Ix.vpRollLines (l + 1) 0 1 ∧ (d.vp.rolls.get {} l).done = max (e.vp.rolls.get {} l).done num)

/-- R15 to R17, R24 to R27, R263 and R278: the hod buffer. What a write stream has next, a record, a row or line, a position of a capture stream or
of a magazine, fills its blocks; what finds no free block is discarded, counted, and raised once; a stream that discards loses what it has;
full blocks leave, to capture memory and the rings, or are held for a channel that trains; a stream with room again resumes at its next block
boundary and its gap is recorded; stalls that waited begin when R27 allows; a trained channel is back. -/
def Obligations.HodBufferAndStalls : Prop :=
  (∀ t stream s e x p rest, e = s.dev.at t → (stream / 2 ^ 24 = 5 ∨ stream / 2 ^ 24 = 9) → x = e.hodStream stream →
    takeBound stream e.out.outbox = some (p, rest) → recBytes p.2 ≠ [] → x.discarding = false →
    x.needs (recBytes p.2).length ≤ e.hodCapacity - e.hodBlocks →
    Completes (.hodWrite t stream) t s [.cap, .out] [Ix.capHodOccupancy, Ix.capHodHighWater] fun d =>
      d.hodStream stream = hodLay e.now (recBytes p.2).length (some ⟨.record p.1 p.2, recTime p.2, recTime p.2, 0, recBytes p.2⟩) x ∧
      d.out = { e.out with outbox := rest }) ∧
  (∀ t stream s e x it rest, e = s.dev.at t → (stream / 2 ^ 24 = 4 ∨ stream / 2 ^ 24 = 6 ∨ stream / 2 ^ 24 = 7) → x = e.hodStream stream →
    takeBound stream e.out.outbox = none → takeAsked stream e.cap.asked = some (it, rest) → it.bytes ≠ [] → x.discarding = false →
    x.needs it.bytes.length ≤ e.hodCapacity - e.hodBlocks →
    Completes (.hodWrite t stream) t s [.cap] [Ix.capHodOccupancy, Ix.capHodHighWater] fun d =>
      d.hodStream stream = hodLay e.now it.bytes.length (some it) x ∧ d.cap.asked = rest) ∧
  (∀ t cs s e x c sm p, e = s.dev.at t → cs < 2 ^ 24 → x = e.hodStream (2 ^ 24 + cs) → c = e.csSt cs → c.src ≠ 0 → c.stop = none → c.mode ≠ 1 →
    sm = sourceOf c.src → e.sampleKnown sm (c.n0 + c.next) = true → c.next % 2 ^ 20 ≠ 0 → c.gapRun = none → c.settleRun = none → c.flagRuns = [] →
    p = storeSample c.fmt (e.takenAt sm (c.n0 + c.next)) → p.1 ≠ [] → p.2.2.2 = 0 → x.discarding = false →
    x.needs p.1.length ≤ e.hodCapacity - e.hodBlocks →
    Completes (.hodWrite t (2 ^ 24 + cs)) t s [.cap] [Ix.capHodOccupancy, Ix.capHodHighWater] fun d =>
      d.csSt cs = { c with next := c.next + 1 } ∧
      d.hodStream (2 ^ 24 + cs) = hodLay e.now p.1.length (some ⟨.stream cs c.next, e.csTime cs c.next, e.csTime cs (c.next + 1), c.next, p.1⟩) x) ∧
  (∀ t k s e x y n l offs, e = s.dev.at t → k < 2 ^ 24 → x = e.hodStream (2 * 2 ^ 24 + k) → y = e.mag k → y.open_ = none → e.magNext k = some (n, none) →
    e.inRushes = false → (∀ c ∈ e.magChans k, e.sampleKnown (sourceOf c) n = true) →
    l = (e.magChans k).map (fun c => storeSample (e.nW Ix.trgMagFormat k) (e.takenAt (sourceOf c) n)) → offs = e.posOffs k n none → offs ≠ [] →
    (l.map (·.1)).flatten ≠ [] → x.discarding = false → x.needs (l.map (·.1)).flatten.length ≤ e.hodCapacity - e.hodBlocks →
    Completes (.hodWrite t (2 * 2 ^ 24 + k)) t s [.cap, .trg] [Ix.capHodOccupancy, Ix.capHodHighWater] fun d =>
      (d.mag k).at_ = n + 1 ∧ (d.mag k).hist.head? = some (n, l.map (·.2)) ∧
      d.hodStream (2 * 2 ^ 24 + k) =
        hodLay e.now (l.map (·.1)).flatten.length (some ⟨.slot k n offs, e.magTime k n, e.magTime k (n + 1), n, (l.map (·.1)).flatten⟩) x) ∧
  (∀ t k s e y tk img, e = s.dev.at t → k < 2 ^ 24 → y = e.mag k → y.open_ = none → y.takes.find? (fun x => !x.complete && x.logged.isNone) = some tk →
    tk.stop ≤ max y.at_ (tk.trig - tk.valid) → e.magBusy k 2 = false → img = e.takeImage k tk →
    Completes (.hodWrite t (3 * 2 ^ 24 + k)) t s (.cap :: .trg :: .out :: codeParts)
      (Ix.capHodOccupancy :: Ix.capHodHighWater :: Ix.capHodDiscarded :: Ix.capHodGaps :: (eventPlaces ++ codePlaces)) fun d =>
      { tk with logged := some (img.slate, img.trailer, tk.cutAt.isSome) } ∈ (d.mag k).takes) ∧
  (∀ t stream s e x p rest, e = s.dev.at t → (stream / 2 ^ 24 = 5 ∨ stream / 2 ^ 24 = 9) → x = e.hodStream stream →
    takeBound stream e.out.outbox = some (p, rest) → recBytes p.2 ≠ [] → x.discarding = false → x.fillLen = 0 → e.hodCapacity ≤ e.hodBlocks →
    e.sup.emergencies.length < 32 →
    Completes (.hodWrite t stream) t s (.cap :: .out :: codeParts)
      (Ix.capHodDiscarded :: Ix.capHodGaps :: Ix.capHodOccupancy :: Ix.capHodHighWater :: codePlaces) fun d =>
      (d.hodStream stream).discarding = true ∧ (d.hodStream stream).lostFrom = recTime p.2 ∧ (d.hodStream stream).lostUnits = 1 ∧
      (d.hodStream stream).lostBlocks = ceilDiv (recBytes p.2).length 4096 ∧ d.out = { e.out with outbox := rest } ∧
      e.counted d Ix.capHodDiscarded 0 0 (ceilDiv (recBytes p.2).length 4096) ∧ e.counted d Ix.capHodGaps 0 0 1 ∧ d.reports 4 Code.hodDiscard) ∧
  (∀ t stream s e x p rest, e = s.dev.at t → (stream / 2 ^ 24 = 5 ∨ stream / 2 ^ 24 = 9) → x = e.hodStream stream →
    takeBound stream e.out.outbox = some (p, rest) → recBytes p.2 ≠ [] → x.discarding = true → x.resuming = false →
    Completes (.hodWrite t stream) t s [.cap, .out, .ctr] [Ix.capHodDiscarded] fun d =>
      (d.hodStream stream).discarding = true ∧ (d.hodStream stream).lostUnits = x.lostUnits + 1 ∧ (d.hodStream stream).lostTo = recTime p.2 ∧
      d.out = { e.out with outbox := rest }) ∧
  (∀ t stream s e x it len l ring r, e = s.dev.at t → 1 ≤ stream / 2 ^ 24 → stream / 2 ^ 24 ≤ 9 → x = e.hodStream stream → x.full = ⟨[it], len⟩ :: l →
    len ≠ 0 → it.dest = .record ring r → e.cap.stallUntil ≤ e.now → e.cap.asleep = false → e.portOpen (e.streamPort stream) = true →
    e.cap.training = none →
    Completes (.hodBlockLeave t stream) t s [.cap, .out, .ctr] [Ix.capPortBytes, Ix.capHodOccupancy, Ix.capHodHighWater] fun d =>
      d.hodStream stream = { x with full := l } ∧ d.out = { e.out with arrived := e.out.arrived ++ [(ring, r)] } ∧
      e.counted d Ix.capPortBytes (e.streamPort stream + 1) 0 len) ∧
  (∀ t cs s e x it len l j a c o, e = s.dev.at t → cs < 2 ^ 24 → x = e.hodStream (2 ^ 24 + cs) → x.full = ⟨[it], len⟩ :: l → len ≠ 0 →
    it.dest = .stream cs j → e.cap.stallUntil ≤ e.now → e.cap.asleep = false → e.portOpen (e.streamPort (2 ^ 24 + cs)) = true →
    e.cap.training = none → e.n0 Ix.capState ≠ 4 → e.allocOf 1 cs = some a → a.length ≠ 0 → c = e.csSt cs → c.mode ≠ 1 → o = j * formatBytes c.fmt →
    CompletesMem (.hodBlockLeave t (2 ^ 24 + cs)) t s [.cap, .ctr]
      [Ix.capPortBytes, Ix.capCsWritten, Ix.capHodOccupancy, Ix.capHodHighWater] fun m d =>
      m = e.writeRing a 0 a.length o it.bytes s.mem ∧
      s.mem.sameOutside (fun b => ∃ k < it.bytes.length, b ∈ e.liveAddrs a ((o + k) % a.length)) m ∧ d.hodStream (2 ^ 24 + cs) = { x with full := l } ∧
      d.rd Ix.capCsWritten (cs + 1) 0 = normTy (typeOf Ix.capCsWritten (cs + 1))
        (max (e.nI Ix.capCsWritten cs) (j + it.bytes.length / formatBytes c.fmt) : Nat)) ∧
  (∀ t stream s e x b l c u, e = s.dev.at t → 1 ≤ stream / 2 ^ 24 → stream / 2 ^ 24 ≤ 9 → x = e.hodStream stream → e.cap.stallUntil ≤ e.now →
    e.cap.asleep = false → e.portOpen (e.streamPort stream) = true → x.full = b :: l → e.cap.training = some (c, u) →
    (∃ it ∈ b.items, e.itemChannel it = some c) →
    Completes (.hodBlockLeave t stream) t s [.cap] [Ix.capHodOccupancy, Ix.capHodHighWater] fun d =>
      d.hodStream stream = { x with full := l } ∧ d.cap.deferred = e.cap.deferred ++ [(c, stream, b)]) ∧
  (∀ t stream s e x, e = s.dev.at t → (stream / 2 ^ 24 = 5 ∨ stream / 2 ^ 24 = 9) → x = e.hodStream stream → x.discarding = true →
    e.hodBlocks + 64 ≤ e.hodCapacity → x.boundary e.now = true →
    Completes (.hodStreamResume t stream) t s (.cap :: eventParts) eventPlaces fun d =>
      d.hodStream stream = { x with discarding := false, resuming := false, fill := [], fillLen := 0, lostUnits := 0, lostBlocks := 0, lostBytes := 0 } ∧
      d.out.gaps = addGap ⟨.stream stream, streamUnit stream, x.lostFrom, x.lostTo, x.lostUnits, x.lostIndex, 2⟩ e.out.gaps) ∧
  (∀ t cs s e x, e = s.dev.at t → cs < 2 ^ 24 → x = e.hodStream (2 ^ 24 + cs) → x.discarding = true → e.hodBlocks + 64 ≤ e.hodCapacity →
    x.boundary e.now = true →
    Completes (.hodStreamResume t (2 ^ 24 + cs)) t s (.cap :: eventParts) eventPlaces fun d =>
      (d.hodStream (2 ^ 24 + cs)).discarding = false ∧
      (d.hodStream (2 ^ 24 + cs)).full = x.full ++
        [⟨[⟨.stream cs x.lostIndex, x.lostFrom, x.lostTo, x.lostIndex, List.replicate x.lostBytes 0#8⟩], 0⟩] ∧
      d.out.gaps = addGap ⟨.stream (2 ^ 24 + cs), 1, x.lostFrom, x.lostTo, x.lostUnits, x.lostIndex, 2⟩ e.out.gaps) ∧
  (∀ t stream s e x, e = s.dev.at t → 1 ≤ stream / 2 ^ 24 → stream / 2 ^ 24 ≤ 9 → x = e.hodStream stream → x.discarding = true →
    e.hodBlocks + 64 ≤ e.hodCapacity → x.boundary e.now = false →
    Completes (.hodStreamResume t stream) t s [.cap] [] fun d => d.hodStream stream = { x with resuming := true }) ∧
  (∀ t chan durNs s e w, e = s.dev.at t → chan < 8 → e.cap.waiting.find? (fun w => w.1 == 1) = some w → e.mayStall = true →
    Completes (.voluntaryStallStart t 1 chan durNs) t s (.cap :: eventParts) (Ix.capStallNs :: Ix.capDramRate :: eventPlaces) fun d =>
      d.cap.waiting = e.cap.waiting.erase w ∧ d.cap.stallUntil = max e.cap.stallUntil (e.now + ns (min durNs 40000)) ∧
      d.rd Ix.capDramRate 0 0 = normTy (typeOf Ix.capDramRate 0) w.2.2) ∧
  (∀ t kind chan durNs s e w, e = s.dev.at t → chan < 8 → w ∈ e.cap.waiting → w.1 = kind → w.2.1 = chan → e.mayStall = false →
    Completes (.voluntaryStallStart t kind chan durNs) t s [.ctr] [Ix.capStallDeferrals] fun d =>
      e.counted d Ix.capStallDeferrals 0 0 1) ∧
  (∀ t chan rank s e u, e = s.dev.at t → chan < 8 → rank < 5 → e.cap.training = some (chan, u) → (∀ p ∈ e.cap.deferred, p.1 ≠ chan) →
    CompletesMem (.retrainDone t chan 0 rank) t s (.cap :: eventParts)
      (Ix.capChanState :: Ix.capRetrains :: Ix.capHodOccupancy :: Ix.capHodHighWater :: eventPlaces) fun m d =>
      m = s.mem ∧ d.cap.training = none ∧ d.cap.trained.get 0 chan = e.now ∧ d.rd Ix.capChanState (chan + 1) 0 = 1 ∧
      e.counted d Ix.capRetrains (chan + 1) 0 1)

/-- R267 to R272 and R278: the DRAM controller. Buckets gain their rate up to their depth; a sub-channel serves refreshes, then neighbour
refreshes, then the request its levels pick; refreshes fall due for every rank; a hot channel refreshes twice as often and above 95 °C
raises DRAM_HOT; a row at its threshold has its neighbours refreshed; retraining falls due and starts when R27 allows. -/
def Obligations.SchedulingRefreshAndRetraining : Prop :=
  (∀ t s e k, e = s.dev.at t → k = e.now * 1000000 / two48 →
    Completes (.regulatorRefill t) t s [.cap] [] fun d =>
      d.cap = { e.cap with tokens := d.cap.tokens, refilled := k } ∧ ∀ p < 24,
        d.cap.tokens.get ((e.nI Ix.capRegBurst p * 1024 : Nat) : Int) p = min ((e.nI Ix.capRegBurst p * 1024 : Nat) : Int)
          (e.cap.tokens.get ((e.nI Ix.capRegBurst p * 1024 : Nat) : Int) p + (e.nI Ix.capRegRate p * (k - e.cap.refilled) : Nat))) ∧
  (∀ t chan sub s e r l, e = s.dev.at t → chan < 8 → sub < 2 → e.inService chan = true → e.cap.stallUntil ≤ e.now →
    (e.sub chan sub).refreshes = r :: l →
    Completes (.subchannelCommand t chan sub [] false) t s [.cap] [] fun d =>
      d.sub chan sub = { e.sub chan sub with refreshes := l, issued := none }) ∧
  (∀ t chan sub s e n l, e = s.dev.at t → chan < 8 → sub < 2 → e.inService chan = true → e.cap.stallUntil ≤ e.now →
    (e.sub chan sub).refreshes = [] → (e.sub chan sub).neighbours = n :: l →
    Completes (.subchannelCommand t chan sub [] false) t s [.cap, .ctr] [Ix.capRdRefreshes] fun d =>
      d.sub chan sub = { e.sub chan sub with neighbours := l, issued := none } ∧ e.counted d Ix.capRdRefreshes (chan + 1) 0 1) ∧
  (∀ t chan sub s e r, e = s.dev.at t → chan < 8 → sub < 2 → e.inService chan = true → e.cap.stallUntil ≤ e.now →
    (e.sub chan sub).refreshes = [] → (e.sub chan sub).neighbours = [] → e.pickReq (e.sub chan sub) = some r → e.migration chan = none →
    Completes (.subchannelCommand t chan sub [] false) t s [.cap, .ctr] [Ix.capPortBytes] fun d =>
      (d.sub chan sub).issued = some r ∧ (d.sub chan sub).queue = (e.sub chan sub).queue.erase r ∧
      (d.sub chan sub).openRow.find? (32 * r.rank + r.bank) = some r.row ∧ e.counted d Ix.capPortBytes (r.port + 1) 0 64) ∧
  (∀ t chan rank s e, e = s.dev.at t → chan < 8 → rank < 5 → e.inService chan = true → e.cap.refreshDue.get 0 (8 * chan + rank) ≤ e.now →
    Completes (.refreshDue t chan rank) t s [.cap] [] fun d =>
      (d.sub chan 0).refreshes = (e.sub chan 0).refreshes ++ [rank] ∧ (d.sub chan 1).refreshes = (e.sub chan 1).refreshes ++ [rank] ∧
      d.cap.refreshDue.get 0 (8 * chan + rank) = e.now + e.refi chan / 4 ∧
      d.cap.refreshBank.get 0 (8 * chan + rank) = (e.cap.refreshBank.get 0 (8 * chan + rank) + 1) % 4) ∧
  (∀ t chan field temp s e, e = s.dev.at t → chan < 8 → e.inService chan = true → temp ≤ 85 → bitOf (e.n0 Ix.capRefreshX2) chan = false →
    chan ∉ e.cap.over95 → field < 256 →
    Completes (.mr4Read t chan field temp) t s [.cap] [Ix.capDramMr4] fun d =>
      d.rd Ix.capDramMr4 (chan + 1) 0 = (field : Nat) ∧ d.cap.cool.get 0 chan = min (e.cap.cool.get 0 chan + 1) 16) ∧
  (∀ t chan field temp s e, e = s.dev.at t → chan < 8 → e.inService chan = true → 95 < temp → bitOf (e.n0 Ix.capRefreshX2) chan = false →
    e.cap.hotRaised = none → e.sup.emergencies.length < 32 →
    Completes (.mr4Read t chan field temp) t s (.cap :: .out :: .pwr :: codeParts)
      (Ix.capDramMr4 :: Ix.capRefreshX2 :: (eventPlaces ++ codePlaces)) fun d =>
      d.rd Ix.capRefreshX2 0 0 = normTy (typeOf Ix.capRefreshX2 0) (setBitTo (e.n0 Ix.capRefreshX2) chan true) ∧ d.pwr.hot = true ∧
      chan ∈ d.cap.over95 ∧ d.cap.hotRaised = some e.now ∧ d.reports 4 Code.dramHot) ∧
  (∀ t chan sub rank bank row s e k l, e = s.dev.at t → chan < 8 → sub < 2 → rank < 5 → bank < 32 → row < 16384 → e.inService chan = true →
    k = bankKey chan sub rank bank → l = activateRow row (e.cap.rows.get [] k) → (∀ p ∈ l, p.1 = row → p.2 < e.n0 Ix.capRdThreshold) →
    Completes (.rowActivate t chan sub rank bank row) t s [.cap] [] fun d =>
      d.cap = { e.cap with rows := d.cap.rows } ∧ d.cap.rows.get [] k = l ∧ ∀ k', k' ≠ k → d.cap.rows.get [] k' = e.cap.rows.get [] k') ∧
  (∀ t chan sub rank bank row s e k l, e = s.dev.at t → chan < 8 → sub < 2 → rank < 5 → bank < 32 → row < 16384 → e.inService chan = true →
    k = bankKey chan sub rank bank → l = activateRow row (e.cap.rows.get [] k) → (∃ p ∈ l, p.1 = row ∧ e.n0 Ix.capRdThreshold ≤ p.2) →
    Completes (.rowActivate t chan sub rank bank row) t s [.cap] [] fun d =>
      d.cap.rows.get [] k = l.map (fun p => if p.1 = row then (row, 0) else p) ∧
      d.sub chan sub = { e.sub chan sub with neighbours := (e.sub chan sub).neighbours ++ [(k, row)] }) ∧
  (∀ t chan sub rank bank row s e k, e = s.dev.at t → chan < 8 → sub < 2 → rank < 5 → bank < 32 → row < 16384 →
    k = bankKey chan sub rank bank → (k, row) ∈ (e.sub chan sub).neighbours →
    Completes (.neighbourRefresh t chan sub rank bank row) t s [.cap, .ctr] [Ix.capRdRefreshes] fun d =>
      d.sub chan sub = { e.sub chan sub with neighbours := (e.sub chan sub).neighbours.erase (k, row) } ∧
      d.cap.rows.get [] k = (e.cap.rows.get [] k).map (fun p => if p.1 = row then (row, 0) else p) ∧
      e.counted d Ix.capRdRefreshes (chan + 1) 0 1) ∧
  (∀ t s e, e = s.dev.at t → e.cap.rowsCleared + ms 32 ≤ e.now →
    Completes (.rowTableClear t) t s [.cap] [] fun d => d.cap = { e.cap with rows := [], rowsCleared := e.now }) ∧
  (∀ t chan temp s e, e = s.dev.at t → chan < 8 → e.inService chan = true → chan ∉ e.cap.due →
    e.cap.trained.get 0 chan + e.n0 Ix.capRetrainS * sec ≤ e.now →
    Completes (.retrainDue t chan temp) t s [.cap, .ctr] [Ix.capStallDeferrals] fun d =>
      d.cap.due = e.cap.due ++ [chan] ∧ d.cap.trainedAt.get 0 chan = temp ∧
      (e.mayStall = false → e.counted d Ix.capStallDeferrals 0 0 1)) ∧
  (∀ t chan s e, e = s.dev.at t → chan < 8 → chan ∈ e.cap.due → e.cap.training = none → (∀ c ∈ e.cap.due, chan ≤ c) →
    e.migration chan = none → e.mayStall = true → e.sup.running = true →
    Completes (.retrainStart t chan) t s [.cap] [Ix.capChanState] fun d =>
      d.cap.training = some (chan, e.now) ∧ chan ∉ d.cap.due ∧ d.rd Ix.capChanState (chan + 1) 0 = 2) ∧
  (∀ t chan s e, e = s.dev.at t → chan < 8 → chan ∈ e.cap.due → e.cap.training = none → (∀ c ∈ e.cap.due, chan ≤ c) →
    (e.mayStall = false ∨ e.sup.running = false) →
    Completes (.retrainStart t chan) t s [.ctr] [Ix.capStallDeferrals] fun d => e.counted d Ix.capStallDeferrals 0 0 1)

/-- R273 to R280: errors of capture memory. A burst that cannot be corrected reads zeros and is counted, recorded and raised, and its rank is
spared where a spare is to be had; the stall ends with the spare in service; the end of the migration retires the rank; a rank above
`cap.ce_limit` is spared without a stall; a scrub pass counts what it corrects; a channel whose retraining fails is retired. -/
def Obligations.SparingScrubbingAndRetirement : Prop :=
  (∀ t addr s e c r sp, e = s.dev.at t → addr < 2 ^ 37 → c = e.chanOf addr → e.inService c = true → r = e.physRank c (addr / 2 ^ 21 % 4) →
    e.migration c = none → e.idleSpare c = some sp → e.sup.emergencies.length < 32 →
    CompletesMem (.uncorrectableBurst t addr) t s (.cap :: .out :: codeParts)
      (Ix.capEccLost :: Ix.capRankState :: Ix.capChanState :: Ix.capMigrate :: Ix.capStallNs :: (eventPlaces ++ faultPlaces)) fun m d =>
      (∀ a, memRead m a = if a / 64 = addr / 64 then 0#8 else memRead s.mem a) ∧ addr / 64 * 64 ∈ d.cap.lost ∧
      e.counted d Ix.capEccLost (5 * c + r + 1) 0 1 ∧ d.rd Ix.fltLastError 0 0 = Code.uncorrectable ∧
      d.migration c = some { old := r, spare := sp, cause := 1, since := e.now } ∧ d.rankState c r = 2 ∧ d.rd Ix.capChanState (c + 1) 0 = 3) ∧
  (∀ t chan s e g, e = s.dev.at t → chan < 8 → e.migration chan = some g → g.stalled = true →
    Completes (.sparingStallEnd t chan) t s [.cap] [Ix.capRankState] fun d =>
      d.migration chan = some { g with stalled := false } ∧ d.cap.stallUntil = min e.cap.stallUntil e.now ∧ d.rankState chan g.spare = 3) ∧
  (∀ t chan s e g, e = s.dev.at t → chan < 8 → e.migration chan = some g → g.stalled = false → g.cause ≠ 2 → g.old ≠ g.spare →
    e.sup.emergencies.length < 32 →
    Completes (.migrationComplete t chan) t s (.cap :: .out :: codeParts)
      (Ix.capRankMap :: Ix.capRankState :: Ix.capChanState :: Ix.capMigrate :: (eventPlaces ++ codePlaces)) fun d =>
      d.migration chan = none ∧ d.rankState chan g.old = 4 ∧ d.rankState chan g.spare = 3 ∧ d.rd Ix.capChanState (chan + 1) 0 = 1 ∧
      d.rd Ix.capMigrate 0 0 = 0 ∧ d.reports 4 Code.rankRetired) ∧
  (∀ t chan s e g, e = s.dev.at t → chan < 8 → e.migration chan = some g → g.stalled = false → g.cause = 2 → e.mayStall = false →
    Completes (.migrationComplete t chan) t s [.cap, .ctr] [Ix.capStallDeferrals] fun d =>
      d.cap = { e.cap with waiting := e.cap.waiting ++ [(3, chan, 0)] } ∧ e.counted d Ix.capStallDeferrals 0 0 1) ∧
  (∀ t chan rank s e sp, e = s.dev.at t → chan < 8 → rank < 5 → e.n0 Ix.capCeLimit ≠ 0 →
    e.n0 Ix.capCeLimit < (e.correctedNow chan rank).length → e.inService chan = true → (e.rankState chan rank = 0 ∨ e.rankState chan rank = 3) →
    e.migration chan = none → e.sup.running = true → e.idleSpare chan = some sp →
    CompletesMem (.ceLimitSpare t chan rank) t s (.cap :: eventParts)
      (Ix.capRankState :: Ix.capChanState :: Ix.capMigrate :: eventPlaces) fun m d =>
      m = s.mem ∧ d.migration chan = some { old := rank, spare := sp, cause := 2, since := e.now, stalled := false } ∧
      d.rankState chan rank = 2 ∧ d.rd Ix.capChanState (chan + 1) 0 = 3 ∧ d.cap.stallUntil = e.cap.stallUntil) ∧
  (∀ t chan rank s e, e = s.dev.at t → chan < 8 → rank < 5 → e.inService chan = true →
    CompletesMem (.patrolScrub t chan rank 1 []) t s [.cap, .ctr] [Ix.capEccCorrected] fun m d =>
      m = s.mem ∧ e.counted d Ix.capEccCorrected (5 * chan + rank + 1) 0 1 ∧ d.cap.scrubbed.find? (8 * chan + rank) = some e.now ∧
      d.cap.corrected.find? (8 * chan + rank) = some (e.now :: e.correctedNow chan rank)) ∧
  (∀ t chan rank addr s e, e = s.dev.at t → chan < 8 → rank < 5 → e.inService chan = true → e.rankState chan rank = 1 →
    e.sup.emergencies.length < 31 →
    CompletesMem (.patrolScrub t chan rank 0 [addr]) t s (.cap :: .out :: codeParts)
      (Ix.capEccLost :: (eventPlaces ++ faultPlaces)) fun m d =>
      (∀ a, memRead m a = if a / 64 = addr / 64 then 0#8 else memRead s.mem a) ∧ e.counted d Ix.capEccLost (5 * chan + rank + 1) 0 1 ∧
      0x10 + chan ∈ d.flt.standbyFailed ∧ d.rd Ix.fltLastError 0 0 = Code.standbyFailed) ∧
  (∀ t chan rank s e u, e = s.dev.at t → chan < 8 → rank < 5 → e.cap.training = some (chan, u) → e.inService chan = true →
    CompletesMem (.retrainDone t chan 2 rank) t s (.drawn :: .cap :: .out :: .pwr :: codeParts)
      (Ix.capStallNs :: Ix.capChannels :: Ix.capRankState :: Ix.capChanState :: Ix.capCapacity :: Ix.capFree :: Ix.capState :: Ix.capHoled ::
        Ix.capMigrate :: Ix.capHodOccupancy :: Ix.capHodHighWater :: Ix.pwrDegraded :: (eventPlaces ++ faultPlaces)) fun m d =>
      (∀ a, memRead m a = if e.chanOf a = chan then 0#8 else memRead s.mem a) ∧
      d.rd Ix.capChannels 0 0 = normTy (typeOf Ix.capChannels 0) (setBitTo (e.n0 Ix.capChannels) chan false) ∧
      d.rd Ix.capChanState (chan + 1) 0 = 4 ∧ (∀ r < 5, d.rankState chan r = 5) ∧ d.cap.training = none ∧ d.cap.retiring = some chan) ∧
  (∀ t s e, e = s.dev.at t → e.cap.retiring.isSome = true → e.cap.stallBegan < e.now →
    Completes (.channelRetirementStallEnd t) t s [.cap] [] fun d =>
      d.cap = { e.cap with retiring := none, stallUntil := min e.cap.stallUntil e.now })

/-- R262 to R265 and R282: capture streams, and sleep of the Capture Store. A start takes region and log and runs from the next 1 µs boundary; a
stop, a request to free and the release step the stream's state; the commands are rejected in the wrong state; an idle Capture Store sleeps
and a request wakes it. -/
def Obligations.CaptureStreamsAndSleep : Prop :=
  (∀ t path cs s e e' a n, e = s.dev.at t → cs < 4 → e.reaches path Ix.capCsCmd → e.fullService = true → e.nI Ix.capCsState cs = 1 →
    e.csMemory cs = some e' →
    a = sourceOf (e.nI Ix.capCsSrc cs) → n = e'.sampleAfter a (tickAt (e.time96 + 1)) →
    Completes (.csStart t path cs) t s (.cap :: requestParts)
      (Ix.capFree :: Ix.capCsBase :: Ix.capCsLogBase :: Ix.capCsState :: Ix.capCsWritten :: requestPlaces) fun d =>
      d.cap.allocs = e'.cap.allocs ∧ d.rd Ix.capCsState (cs + 1) 0 = 2 ∧ d.rd Ix.capCsWritten (cs + 1) 0 = 0 ∧
      d.cap.streams.get {} cs = { t0 := e'.timeOf a n, rate := e'.rateOf a, fmt := e.nI Ix.capCsFormat cs, src := e.nI Ix.capCsSrc cs,
                                  mode := e.nI Ix.capCsMode cs, n0 := n } ∧
      ∃ it, d.cap.asked = e'.cap.asked ++ [(4 * 2 ^ 24 + cs, it)] ∧ it.dest = .csSlate cs) ∧
  (∀ t path cs s e, e = s.dev.at t → cs < 4 → e.reaches path Ix.capCsCmd → 1 ≤ path ∧ path ≤ 4 → e.fullService = true →
    e.nI Ix.capCsState cs = 1 → e.csMemory cs = none →
    CompletesMem (.csStart t path cs) t s requestParts requestPlaces fun m d => m = s.mem ∧ d.reports path Code.csNoMemory) ∧
  (∀ t path cs s e, e = s.dev.at t → cs < 4 → e.reaches path Ix.capCsCmd → e.fullService = true → e.nI Ix.capCsState cs = 2 →
    Completes (.csStop t path cs) t s (.cap :: requestParts) (Ix.capCsState :: requestPlaces) fun d => d.rd Ix.capCsState (cs + 1) 0 = 1 ∧
      d.cap.streams.get {} cs = { e.cap.streams.get {} cs with stop := some (tickAt (e.time96 + 1)) }) ∧
  (∀ t path cs s e, e = s.dev.at t → cs < 4 → e.reaches path Ix.capCsCmd → 1 ≤ path ∧ path ≤ 4 → e.fullService = true →
    (e.nI Ix.capCsState cs = 0 ∨ e.nI Ix.capCsState cs = 1 ∨ e.nI Ix.capCsState cs = 4) →
    Completes (.csStop t path cs) t s requestParts requestPlaces fun d => d.reports path Code.csState) ∧
  (∀ t path cs s e, e = s.dev.at t → cs < 4 → e.reaches path Ix.capCsCmd → e.fullService = true →
    (e.nI Ix.capCsState cs = 1 ∨ e.nI Ix.capCsState cs = 3) →
    Completes (.csFree t path cs) t s requestParts (Ix.capCsState :: requestPlaces) fun d => d.rd Ix.capCsState (cs + 1) 0 = 4) ∧
  (∀ t path cs s e, e = s.dev.at t → cs < 4 → e.reaches path Ix.capCsCmd → 1 ≤ path ∧ path ≤ 4 → e.fullService = true →
    (e.nI Ix.capCsState cs = 0 ∨ e.nI Ix.capCsState cs = 2 ∨ e.nI Ix.capCsState cs = 4) →
    Completes (.csFree t path cs) t s requestParts requestPlaces fun d => d.reports path Code.csState) ∧
  (∀ t cs s e, e = s.dev.at t → cs < 4 → e.nI Ix.capCsState cs = 4 →
    Completes (.csFreeRelease t cs) t s [.cap] [Ix.capFree, Ix.capCsState, Ix.capCsBase, Ix.capCsLogBase] fun d =>
      d.allocOf 1 cs = none ∧ d.allocOf 4 cs = none ∧ d.rd Ix.capCsState (cs + 1) 0 = (if e.nI Ix.capCsSrc cs = 0 then 0 else 1) ∧
      d.rd Ix.capCsBase (cs + 1) 0 = 0 ∧ d.rd Ix.capCsLogBase (cs + 1) 0 = 0) ∧
  (∀ t s e, e = s.dev.at t → e.n0 Ix.capIdleSr ≠ 0 → e.cap.idleSince + us (e.n0 Ix.capIdleSr) ≤ e.now → (∀ k < 16, (e.cap.subs.get {} k).queue = []) →
    e.hodBlocks = 0 → e.cap.asleep = false → 2 ≤ e.n0 Ix.capState →
    Completes (.captureIdleSleep t) t s (.cap :: eventParts) (Ix.pwrIslState :: eventPlaces) fun d =>
      d.cap = { e.cap with asleep := true } ∧ d.nI Ix.pwrIslState 6 = 2) ∧
  (∀ t port s e, e = s.dev.at t → port < 24 → e.cap.asleep = true →
    Completes (.captureWake t port) t s (.cap :: eventParts) (Ix.pwrIslState :: eventPlaces) fun d =>
      d.cap = { e.cap with asleep := false, idleSince := e.now, stallUntil := max e.cap.stallUntil (e.now + us 3) } ∧ d.nI Ix.pwrIslState 6 = 0)

/-- R290 to R296 and R316: the commands of delivery rings. They act on the ring their path selects: an open sets both indices to 0 and takes the
backlog; a close of a ring that holds nothing, or has failed, is immediate, and a ring that cannot deliver waits 50 µs; a pause and a
resume; each is rejected in the wrong state. A context error fails the ring. -/
def Obligations.RingCommandsAndFailure : Prop :=
  (∀ t path s e e' r, e = s.dev.at t → e.reaches path Ix.strRingCmd → r = e.nW Ix.strRingSel path → e.ringState r = 0 → e.ringRefusal r = none →
    e.ringMemory r = some e' →
    Completes (.ringOpen t path) t s (.str :: .cap :: requestParts)
      (Ix.capFree :: Ix.strRingBase :: Ix.strRingPi :: Ix.strRingCi :: Ix.strRingsOpen :: Ix.strRingState :: requestPlaces) fun d =>
      d.rd Ix.strRingPi 0 r = 0 ∧ d.rd Ix.strRingCi 0 r = 0 ∧ d.ring r = e'.ring r ∧ d.cap.allocs = e'.cap.allocs ∧
      d.rd Ix.strRingState 0 r = (if e.nW Ix.strRingTarget r = 0 ∧ e.str.linkUp = false then 4 else 1)) ∧
  (∀ t path s e r, e = s.dev.at t → e.reaches path Ix.strRingCmd → 1 ≤ path ∧ path ≤ 4 → r = e.nW Ix.strRingSel path → e.ringState r ≠ 0 →
    Completes (.ringOpen t path) t s requestParts requestPlaces fun d => d.reports path Code.ringState ∧ d.str = e.str) ∧
  (∀ t path s e r, e = s.dev.at t → e.reaches path Ix.strRingCmd → r = e.nW Ix.strRingSel path → (e.ringState r = 1 ∨ e.ringState r = 2 ∨ e.ringState r = 4 ∨ e.ringState r = 5) →
    (e.ring r).backlog = [] →
    CompletesMem (.ringClose t path) t s (.str :: .cap :: requestParts) (Ix.capFree :: Ix.strRingsOpen :: Ix.strRingState :: requestPlaces) fun m d =>
      m = s.mem ∧ d.rd Ix.strRingState 0 r = 0 ∧ d.ring r = {} ∧ d.allocOf 0x13 (2 * r) = none ∧ d.allocOf 0x13 (2 * r + 1) = none) ∧
  (∀ t path s e r, e = s.dev.at t → e.reaches path Ix.strRingCmd → r = e.nW Ix.strRingSel path → (e.ringState r = 1 ∨ e.ringState r = 2 ∨ e.ringState r = 4) →
    (e.ring r).backlog ≠ [] → e.str.suspended = true → e.nW Ix.strRingPolicy r = 1 →
    CompletesMem (.ringClose t path) t s (.str :: requestParts) (Ix.strRingState :: requestPlaces) fun m d =>
      m = s.mem ∧ d.rd Ix.strRingState 0 r = 3 ∧ (d.ring r).closeAt = e.now + us 50 ∧ (d.ring r).backlog = (e.ring r).backlog) ∧
  (∀ t path s e r, e = s.dev.at t → e.reaches path Ix.strRingCmd → 1 ≤ path ∧ path ≤ 4 → r = e.nW Ix.strRingSel path → e.ringState r = 0 →
    CompletesMem (.ringClose t path) t s requestParts requestPlaces fun m d => m = s.mem ∧ d.reports path Code.ringState ∧ d.str = e.str) ∧
  (∀ t r s e, e = s.dev.at t → r < 65536 → e.ringState r = 3 → (e.ring r).backlog = [] →
    CompletesMem (.ringCloseDrainEnd t r) t s [.str, .cap] [Ix.capFree, Ix.strRingsOpen, Ix.strRingState] fun m d =>
      m = s.mem ∧ d.rd Ix.strRingState 0 r = 0 ∧ d.ring r = {}) ∧
  (∀ t r s e, e = s.dev.at t → r < 65536 → e.ringState r = 3 → (e.ring r).backlog ≠ [] → e.str.suspended = true → e.nW Ix.strRingPolicy r = 1 →
    (e.ring r).closeAt ≤ e.now →
    CompletesMem (.ringCloseDrainEnd t r) t s [.str, .cap, .ctr] (Ix.capFree :: Ix.strRingsOpen :: Ix.strRingState :: lossPlaces) fun m d =>
      m = s.mem ∧ d.rd Ix.strRingState 0 r = 0 ∧ d.ring r = {}) ∧
  (∀ t path s e r, e = s.dev.at t → e.reaches path Ix.strRingCmd → r = e.nW Ix.strRingSel path → e.ringState r = 1 →
    Completes (.ringPause t path) t s requestParts (Ix.strRingState :: requestPlaces) fun d => d.rd Ix.strRingState 0 r = 2) ∧
  (∀ t path s e r, e = s.dev.at t → e.reaches path Ix.strRingCmd → 1 ≤ path ∧ path ≤ 4 → r = e.nW Ix.strRingSel path → e.ringState r ≠ 1 →
    Completes (.ringPause t path) t s requestParts requestPlaces fun d => d.reports path Code.ringState) ∧
  (∀ t path s e r, e = s.dev.at t → e.reaches path Ix.strRingCmd → r = e.nW Ix.strRingSel path → e.ringState r = 2 → (e.ring r).backlog = [] →
    CompletesMem (.ringResume t path) t s (.str :: requestParts) (Ix.strRingState :: requestPlaces) fun m d =>
      m = s.mem ∧ d.rd Ix.strRingState 0 r = 1) ∧
  (∀ t path s e r, e = s.dev.at t → e.reaches path Ix.strRingCmd → 1 ≤ path ∧ path ≤ 4 → r = e.nW Ix.strRingSel path → e.ringState r ≠ 2 →
    CompletesMem (.ringResume t path) t s requestParts requestPlaces fun m d => m = s.mem ∧ d.reports path Code.ringState) ∧
  (∀ t r s e, e = s.dev.at t → r < 65536 → (e.ring r).backlog = [] → e.sup.emergencies.length < 32 →
    Completes (.ringContextError t r) t s (.str :: codeParts) (Ix.strRingsOpen :: Ix.strRingState :: faultPlaces) fun d =>
      d.rd Ix.strRingState 0 r = 5 ∧ d.reports 4 Code.ringContext ∧ e.counted d Ix.fltClassCount 4 0 1)

/-- R287 to R294, R316 and R71: delivery. A record that fits is written at pi, which advances; one that is too long is discarded and counted; a
doorbell that passes pi is ignored; a message that is due goes, or is set pending while its vector is masked; the host link comes, goes and is
reset; BAR2 reads and writes the bytes of allocations in service and no others. -/
def Obligations.RingDeliveryMessagesAndHost : Prop :=
  (∀ t r s e x rest n p q, e = s.dev.at t → r < 65536 → takeFor r e.out.arrived = some (x, rest) → recTag x = 0x0E80 → n = recSlots x → e.ringState r = 1 →
    e.nW Ix.strRingTarget r = 0 → e.str.linkUp = true → e.str.suspended = false → (e.ring r).backlog = [] → (e.ring r).losses = [] →
    n ≤ e.ringSlots r / 2 → recBacklog x ≤ (e.ring r).limit → (e.fullService = false ∨ e.n0 Ix.capState ≠ 4) → p = e.nW Ix.strRingPi r →
    q = e.ringSlots r - (p + 2 ^ 32 - e.nW Ix.strRingCi r) % 2 ^ 32 → n ≤ q → p % e.ringSlots r + n ≤ e.ringSlots r →
    CompletesMem (.ringRecord t r) t s [.out, .str, .cap, .ctr] [Ix.strRingPi, Ix.strRingBytes, Ix.capPortBytes] fun m d =>
      m = s.mem ∧ d.out = { e.out with arrived := rest } ∧ d.rd Ix.strRingPi 0 r = ((p + n) % 2 ^ 32 : Nat) ∧ e.counted d Ix.strRingBytes 0 r (8 * n) ∧
      Post.slots r (e.nW Ix.strRingBase r + p % e.ringSlots r * 8) x ∈ d.str.posts ∧ (d.ring r).backlog = []) ∧
  (∀ t r s e x rest, e = s.dev.at t → r < 65536 → takeFor r e.out.arrived = some (x, rest) → e.ringTakes r = true → e.ringState r ≠ 5 →
    (e.ring r).backlog = [] → e.ringSlots r / 2 < recSlots x →
    CompletesMem (.ringRecord t r) t s [.out, .str, .ctr] lossPlaces fun m d =>
      m = s.mem ∧ d.out = { e.out with arrived := rest } ∧ e.counted d Ix.strRingDropped 0 r 1 ∧
      (d.ring r).losses = addLoss ⟨recTag x, unitOfTag (recTag x), recTime x, 1, 5, recStream r x⟩ (e.ring r).losses) ∧
  (∀ t r s e x n p, e = s.dev.at t → r < 65536 → (e.ring r).backlog = [x] → (e.ring r).losses = [] → n = recSlots x → e.ringState r = 1 →
    e.nW Ix.strRingTarget r = 0 → e.str.linkUp = true → e.str.suspended = false → p = e.nW Ix.strRingPi r →
    n ≤ e.ringSlots r - (p + 2 ^ 32 - e.nW Ix.strRingCi r) % 2 ^ 32 → p % e.ringSlots r + n ≤ e.ringSlots r →
    CompletesMem (.ringSpaceAvailable t r) t s [.str, .cap, .ctr] [Ix.strRingPi, Ix.strRingBytes, Ix.capPortBytes] fun m d =>
      m = s.mem ∧ d.rd Ix.strRingPi 0 r = ((p + n) % 2 ^ 32 : Nat) ∧
      Post.slots r (e.nW Ix.strRingBase r + p % e.ringSlots r * 8) x ∈ d.str.posts ∧ (d.ring r).backlog = []) ∧
  (∀ t r ci s e, e = s.dev.at t → r < 65536 →
    (ci % 2 ^ 32 + 2 ^ 32 - e.nW Ix.strRingCi r) % 2 ^ 32 ≤ (e.nW Ix.strRingPi r + 2 ^ 32 - e.nW Ix.strRingCi r) % 2 ^ 32 →
    Completes (.ringDoorbell t r ci) t s [] [Ix.strRingCi] fun d => d.rd Ix.strRingCi 0 r = (ci % 2 ^ 32 : Nat)) ∧
  (∀ t r ci s e, e = s.dev.at t → r < 65536 → e.sup.emergencies.length < 32 →
    (e.nW Ix.strRingPi r + 2 ^ 32 - e.nW Ix.strRingCi r) % 2 ^ 32 < (ci % 2 ^ 32 + 2 ^ 32 - e.nW Ix.strRingCi r) % 2 ^ 32 →
    Completes (.ringDoorbell t r ci) t s codeParts codePlaces fun d => d.reports 2 Code.ringDoorbell) ∧
  (∀ t r s e v, e = s.dev.at t → r < 65536 → v = e.nW Ix.strRingVector r → v < 2048 → (e.ring r).since ≠ 0 → e.nW Ix.strRingModCount r ≠ 0 →
    e.nW Ix.strRingModCount r ≤ (e.ring r).since → (e.ring r).piWb = e.nW Ix.strRingPi r →
    Completes (.msixMessage t r) t s [.str, .ctr] [] fun d =>
      d.ring r = { e.ring r with since := 0, piMsg := e.nW Ix.strRingPi r } ∧
      (if bitOf (e.msixWord (4 * v + 3)) 0 then v ∈ d.str.msixPending ∧ d.str.posts = e.str.posts
       else d.str.posts = e.str.posts ++ [.message v (e.msixWord (4 * v) + 2 ^ 32 * e.msixWord (4 * v + 1)) (e.msixWord (4 * v + 2))])) ∧
  (∀ t v s e, e = s.dev.at t → v < 2048 →
    Completes (.msixUnmask t v) t s [.str, .ctr] [] fun d =>
      bitOf (d.msixWord (4 * v + 3)) 0 = false ∧ v ∉ d.str.msixPending ∧ d.str.posts = e.str.posts ++ (if v ∈ e.str.msixPending then
        [.message v (e.msixWord (4 * v) + 2 ^ 32 * e.msixWord (4 * v + 1)) (e.msixWord (4 * v + 2))] else [])) ∧
  (∀ t s e, e = s.dev.at t → e.str.linkUp = true → e.sup.emergencies.length < 32 →
    Completes (.hostLinkLoss t) t s (.str :: .out :: codeParts) (Ix.strRingState :: Ix.strLinkState :: Ix.strLinkConfig :: (eventPlaces ++ faultPlaces)) fun d =>
      d.str.linkUp = false ∧ d.rd Ix.strLinkState 0 0 = 0 ∧ d.reports 4 Code.hostLinkDown ∧
      ∀ r ∈ e.hostRings, e.ringState r = 1 ∨ e.ringState r = 2 → d.ringState r = 4) ∧
  (∀ t gen width s e, e = s.dev.at t → e.hw.pwrGood = true → e.hw.perstLow = false → e.str.linkUp = false → (∀ r ∈ e.hostRings, e.ringState r ≠ 4) →
    CompletesMem (.hostLinkUp t gen width) t s [.str, .out, .ctr] (Ix.strLinkState :: Ix.strLinkConfig :: Ix.modBringup :: eventPlaces) fun m d =>
      m = s.mem ∧ d.str.linkUp = true ∧ d.rd Ix.strLinkState 0 0 = 2 ∧
      d.rd Ix.strLinkConfig 0 0 = normTy (typeOf Ix.strLinkConfig 0) (gen * 256 + width : Nat)) ∧
  (∀ t s e, e = s.dev.at t → e.hw.perstLow = false → e.hostRings = [] →
    Completes (.perstNAssert t) t s [.hw, .str, .out, .ctr] (Ix.strLinkState :: Ix.strLinkConfig :: Ix.modBringup :: eventPlaces) fun d =>
      d.hw = { e.hw with perstLow := true } ∧ d.str = { e.str with linkUp := false, msix := [], msixPending := [] } ∧
      d.rd Ix.strLinkState 0 0 = 0 ∧ d.rd Ix.strLinkConfig 0 0 = 0) ∧
  (∀ t s e, e = s.dev.at t → e.hw.pwrGood = true → e.str.linkUp = false →
    Completes (.perstNRelease t) t s [.hw] [Ix.strLinkState] fun d => d.hw = { e.hw with perstLow := false } ∧ d.rd Ix.strLinkState 0 0 = 1) ∧
  (∀ t addr len s e, e = s.dev.at t → addr + len ≤ 2 ^ 37 → e.str.linkUp = true → e.fullService = true →
    CompletesMem (.hostBar2Read t addr len) t s [.str, .cap, .ctr] [Ix.capBar2Unmapped, Ix.capPortBytes] fun m d =>
      m = s.mem ∧ d.str.bar2 = (addrRange addr len).map (e.bar2Byte s.mem) ∧ d.str.bar2Unsupported = false ∧
      e.counted d Ix.capPortBytes 18 0 len) ∧
  (∀ t addr data s e, e = s.dev.at t → addr + data.length ≤ 2 ^ 37 → e.str.linkUp = true → e.fullService = true →
    CompletesMem (.hostBar2Write t addr data) t s [.str, .cap, .ctr] [Ix.capBar2Unmapped, Ix.capPortBytes] fun m d =>
      (∀ a, memRead m a = if addr ≤ a ∧ a < addr + data.length ∧ (e.allocAt a).isSome = true ∧ e.inService (e.chanOf a) = true
        then data.getD (a - addr) 0#8 else memRead s.mem a) ∧ e.counted d Ix.capPortBytes 19 0 data.length) ∧
  (∀ t addr data s e, e = s.dev.at t → addr + data.length ≤ 2 ^ 37 → e.str.linkUp = true → e.wakesNothing 2 → e.fullService = false →
    CompletesMem (.hostBar2Write t addr data) t s [.str] [] fun m d => m = s.mem ∧ d.str = { e.str with bar2Unsupported := true })

/-- R300 to R306: drives and the volume. A drive present in full service is attached; its sequence ends with the drive in the set or refused with a
reason; completions free commands and slots, errors are retried once, timeouts aborted once; a lost drive reads state 5; a volume is
formatted over the attached drives, mounted from their labels and left. -/
def Obligations.DrivesAndTheVolume : Prop :=
  (∀ t n s e, e = s.dev.at t → n < 8 → e.fullService = true → (e.drvState n = 0 ∨ e.drvState n = 5) → e.rootDown n = false →
    Completes (.driveInsert t n) t s [.str] [Ix.modDrivePresent, Ix.strDrvState] fun d =>
      d.rd Ix.strDrvState (n + 1) 0 = 1 ∧ d.drive n = { e.drive n with inserted := e.now } ∧
      d.rd Ix.modDrivePresent 7 0 = normTy (typeOf Ix.modDrivePresent 7) (setBitTo e.drivePins n true : Nat)) ∧
  (∀ t n gen width lbas granted health mdts cache label dir s e, e = s.dev.at t → n < 8 → e.drvState n = 1 → e.stoPerstLow n = false →
    e.driveRefusal 0 lbas granted = none → e.str.volume = none →
    Completes (.driveAttachDone t n 0 gen width lbas granted health mdts cache label dir) t s [.str, .out, .ctr]
      (Ix.strDrvLink :: Ix.strDrvState :: Ix.strDrvReason :: Ix.strDrvCapacity :: Ix.strDrvHealth :: eventPlaces) fun d =>
      d.rd Ix.strDrvState (n + 1) 0 = 2 ∧ d.rd Ix.strDrvReason (n + 1) 0 = 0 ∧ d.drive n = { e.drive n with
        lbas := lbas, queues := min granted (e.n0 Ix.strNvmeQueues), depth := e.n0 Ix.strNvmeDepth, cache := cache, mdts := mdts, label := label,
        dir := dir.foldl (fun (t : Tab (List Nat)) x => t.put (x.getD 0 0 / 2 ^ 32) x) [] }) ∧
  (∀ t n gen width lbas granted health mdts cache label dir s e, e = s.dev.at t → n < 8 → e.drvState n = 1 → e.stoPerstLow n = false →
    Completes (.driveAttachDone t n 1 gen width lbas granted health mdts cache label dir) t s (.out :: codeParts)
      (Ix.strDrvLink :: Ix.strDrvState :: Ix.strDrvReason :: (eventPlaces ++ codePlaces)) fun d =>
      d.rd Ix.strDrvState (n + 1) 0 = 4 ∧ d.nI Ix.strDrvReason n = reasonOf Code.driveLbaFormat ∧ d.reports 4 Code.driveLbaFormat) ∧
  (∀ t n gen width lbas granted health mdts cache label dir s e, e = s.dev.at t → n < 8 → e.stoPerstLow n = true →
    Completes (.driveAttachDone t n 0 gen width lbas granted health mdts cache label dir) t s [] [] fun _ => True) ∧
  (∀ t path n s e, e = s.dev.at t → e.reaches path Ix.strDriveCmd → n < 8 → e.fullService = true → e.drvState n ≠ 0 → e.str.volume = none →
    Completes (.driveDetach t path n) t s (.str :: requestParts) (Ix.strDrvState :: requestPlaces) fun d =>
      d.rd Ix.strDrvState (n + 1) 0 = 0 ∧ d.drive n = { e.drive n with cmds := [], queues := 0 }) ∧
  (∀ t path n s e, e = s.dev.at t → e.reaches path Ix.strDriveCmd → n < 8 → e.fullService = true → (e.drvState n = 0 ∨ e.drvState n = 4 ∨ e.drvState n = 5) →
    e.rootDown n = false →
    Completes (.driveAttachCmd t path n) t s (.str :: requestParts) (Ix.strDrvState :: requestPlaces) fun d =>
      d.rd Ix.strDrvState (n + 1) 0 = 1 ∧ d.drive n = { e.drive n with inserted := e.now }) ∧
  (∀ t path n s e, e = s.dev.at t → e.reaches path Ix.strDriveCmd → 1 ≤ path ∧ path ≤ 4 → n < 8 → e.fullService = false →
    Completes (.driveAttachCmd t path n) t s requestParts requestPlaces fun d => d.reports path Code.rushesUnavailable ∧ d.str = e.str) ∧
  (∀ t n id s e c, e = s.dev.at t → n < 8 → (e.drive n).cmds.find? (fun c => c.id == id) = some c → c.op = 1 →
    (∀ x ∈ (e.drive n).cmds, x.op = 1 → x.slot = c.slot → x.id = id) → e.reelState c.reel ≠ 6 →
    Completes (.nvmeCompletionPoll t n [(id, 0)]) t s [.str, .ctr] [Ix.strDrvWritten, Ix.strDrvLatency, Ix.strSpoolUsed, Ix.strSpoolHigh] fun d =>
      (d.drive n).cmds = (e.drive n).cmds.filter (fun x => x.id != id) ∧ e.counted d Ix.strDrvWritten (n + 1) 0 c.bytes ∧
      d.str.spool = e.str.spool.filter (fun p => p.1 != c.slot)) ∧
  (∀ t n id s e c e', e = s.dev.at t → n < 8 → (e.drive n).cmds.find? (fun c => c.id == id) = some c → c.op = 0 → e.reelState c.reel = 6 →
    (e.reel c.reel).closing = true → (e.reel c.reel).flushed = true → (∀ p ∈ e.str.spool, p.2.1 ≠ c.reel) →
    e' = e.setDrive n { e.drive n with cmds := (e.drive n).cmds.filter (fun x => x.id != id) } →
    (∀ p ∈ e'.str.drives, ∀ x ∈ p.2.cmds, x.reel = c.reel → x.op ≠ 0) →
    Completes (.nvmeCompletionPoll t n [(id, 0)]) t s [.str, .out, .ctr] (Ix.strReelState :: eventPlaces) fun d =>
      d.rd Ix.strReelState 0 c.reel = 3 ∧ (d.reel c.reel).closing = false ∧ (d.reel c.reel).flushed = false ∧
      (d.drive n).cmds = (e.drive n).cmds.filter (fun x => x.id != id) ∧ d.str.spool = e.str.spool) ∧
  (∀ t n id s e c, e = s.dev.at t → n < 8 → (e.drive n).cmds.find? (fun c => c.id == id) = some c → c.retried = false →
    Completes (.nvmeCompletionPoll t n [(id, 1)]) t s [.str, .ctr] [Ix.strDrvErrors] fun d =>
      e.counted d Ix.strDrvErrors (n + 1) 0 1 ∧ (d.drive n).cmds = (e.drive n).cmds.map (fun x => if x.id = id then
        { x with retried := true, aborted := false, issued := e.now, queue := (x.queue + 1) % max (e.drive n).queues 1 } else x)) ∧
  (∀ t n id s e c, e = s.dev.at t → n < 8 → (e.drive n).cmds.find? (fun c => c.id == id) = some c → c.issued + ms (e.n0 Ix.strNvmeTimeout) ≤ e.now →
    c.aborted = false → e.sup.emergencies.length < 32 →
    Completes (.nvmeCommandTimeout t n id) t s (.str :: codeParts) (Ix.strDrvErrors :: codePlaces) fun d =>
      e.counted d Ix.strDrvErrors (n + 1) 0 1 ∧ d.reports 4 Code.driveTimeout ∧ (d.drive n).cmds = (e.drive n).cmds.map (fun x =>
        if x.id = id then { x with aborted := true, issued := e.now } else x)) ∧
  (∀ t n w s e, e = s.dev.at t → n < 8 → (e.drvState n = 2 ∨ e.drvState n = 3) →
    Completes (.nvmeHealthPoll t n w) t s [] [Ix.strDrvHealth] fun d => d.rd Ix.strDrvHealth (n + 1) 0 = normTy (typeOf Ix.strDrvHealth (n + 1)) w) ∧
  (∀ t n s e, e = s.dev.at t → n < 8 → (e.drvState n = 2 ∨ e.drvState n = 3) → e.str.volume = none → e.sup.emergencies.length < 32 →
    Completes (.driveLost t n false) t s (.str :: .out :: codeParts) (Ix.strDrvState :: Ix.strDrvReason :: (eventPlaces ++ faultPlaces)) fun d =>
      d.rd Ix.strDrvState (n + 1) 0 = 5 ∧ d.reports 4 Code.driveLost ∧ (d.drive n).cmds = []) ∧
  (∀ t n s e, e = s.dev.at t → n < 8 → (e.drvState n = 1 ∨ e.drvState n = 4) →
    Completes (.driveLost t n true) t s [] [Ix.modDrivePresent, Ix.strDrvState] fun d =>
      d.rd Ix.strDrvState (n + 1) 0 = 0 ∧ d.rd Ix.modDrivePresent 7 0 = normTy (typeOf Ix.modDrivePresent 7) (setBitTo e.drivePins n false : Nat)) ∧
  (∀ t path s e, e = s.dev.at t → e.reaches path Ix.strVolCmd → e.fullService = true → e.reelsOpen = false → e.attached ≠ [] →
    Completes (.volFormat t path) t s (.str :: .drawn :: .out :: requestParts)
      (Ix.strReelState :: Ix.strDrvState :: (volPlaces ++ eventPlaces ++ requestPlaces)) fun d =>
      d.drawn = e.drawn + 1 + e.attached.length ∧ d.str.spool = [] ∧ (∀ n ∈ e.attached, d.rd Ix.strDrvState (n + 1) 0 = 3) ∧
      ∃ v, d.str.volume = some v ∧ v.unitKib = e.n0 Ix.strVolUnitKib ∧ v.extent = e.n0 Ix.strVolExtent ∧ v.generation = 0 ∧
        v.ports.map (·.2) = e.attached ∧ ∀ p ∈ v.ports, (d.drive p.2).label = labelOf v p.1 ∧ (d.drive p.2).dir = [] ∧
          (d.drive p.2).cmds.map (·.op) = [9]) ∧
  (∀ t path s e, e = s.dev.at t → e.reaches path Ix.strVolCmd → 1 ≤ path ∧ path ≤ 4 → e.fullService = true → e.attached = [] →
    Completes (.volFormat t path) t s requestParts requestPlaces fun d => d.reports path Code.volumeState ∧ d.str = e.str) ∧
  (∀ t path found s e v, e = s.dev.at t → e.reaches path Ix.strVolCmd → e.fullService = true → e.reelsOpen = false → e.labelled = some v →
    e.dirFound v.ports = [] →
    Completes (.volMount t path found) t s (.str :: .out :: requestParts)
      (Ix.strReelState :: Ix.strDrvState :: (volPlaces ++ eventPlaces ++ requestPlaces)) fun d =>
      d.str.volume = some v ∧ ∀ p ∈ v.ports, d.rd Ix.strDrvState (p.2 + 1) 0 = 3) ∧
  (∀ t path found s e v x r, e = s.dev.at t → e.reaches path Ix.strVolCmd → e.fullService = true → e.reelsOpen = false → e.labelled = some v →
    e.dirFound v.ports = [x] → r = x.getD 0 0 / 2 ^ 32 → x.getD 0 0 / 2 ^ 24 % 256 = 2 →
    Completes (.volMount t path found) t s (.str :: .out :: requestParts)
      (Ix.strReelState :: Ix.strReelMode :: Ix.strReelFormat :: Ix.strReelSamples :: Ix.strReelGapSamples :: Ix.strReelBytes :: Ix.strReelStart ::
        Ix.strDrvState :: (volPlaces ++ eventPlaces ++ requestPlaces)) fun d =>
      d.str.volume = some v ∧ d.rd Ix.strReelState 0 r = 3 ∧ (d.reel r).rate = x.getD 2 0 ∧ (d.reel r).units = x.getD 7 0 ∧
      (d.reel r).next = x.getD 5 0 ∧ (d.reel r).generation = x.getD 8 0 % 2 ^ 40 ∧
      d.rd Ix.strReelSamples 0 r = normTy (typeOf Ix.strReelSamples 0) (x.getD 5 0 : Nat) ∧
      d.rd Ix.strReelGapSamples 0 r = normTy (typeOf Ix.strReelGapSamples 0) (x.getD 6 0 : Nat)) ∧
  (∀ t path found s e, e = s.dev.at t → e.reaches path Ix.strVolCmd → 1 ≤ path ∧ path ≤ 4 → e.fullService = true → e.reelsOpen = false → e.labelled = none →
    Completes (.volMount t path found) t s requestParts requestPlaces fun d => d.reports path Code.volumeState ∧ d.str = e.str) ∧
  (∀ t path s e, e = s.dev.at t → e.reaches path Ix.strVolCmd → e.fullService = true → e.reelsOpen = false → e.str.volume ≠ none →
    Completes (.volUnmount t path) t s (.str :: .out :: requestParts)
      (Ix.strReelState :: Ix.strDrvState :: (volPlaces ++ eventPlaces ++ requestPlaces)) fun d =>
      d.str.volume = none ∧ d.rd Ix.strVolState 0 0 = 0 ∧ ∀ n < 8, e.drvState n = 3 → d.rd Ix.strDrvState (n + 1) 0 = 2)

/-- R307 to R314: reels and playback. A reel opens with its first extent, starts on its sample grid, closes when its slots are free, is deleted; a
unit that closes goes to a spool slot, or its samples are lost where there is none; a freed slot ends that gap. A playback starts on its
grid, passes, releases its samples at their instants, counts an underflow and stops. -/
def Obligations.ReelsAndPlayback : Prop :=
  (∀ t path s e e' r x, e = s.dev.at t → e.reaches path Ix.strReelCmd → e.fullService = true → r = e.nW Ix.strReelSel path → e.reelState r = 0 →
    e.str.volume ≠ none → x = ({ generation := (e.reel r).generation, rate := e.chanRate ((e.reelSources r).headD 0), sources := e.reelSources r,
                                 format := e.nW Ix.strReelFormat r, mode := e.nW Ix.strReelMode r } : ReelSt) →
    ((((e.setReel r x).setReelState r 1).wW Ix.strReelSamples r 0).wW Ix.strReelGapSamples r 0).newExtent r (e.reelMap r) = some e' →
    Completes (.reelOpen t path) t s (.str :: .out :: requestParts) (Ix.strReelState :: Ix.strReelSamples :: Ix.strReelGapSamples :: Ix.strReelBytes ::
      Ix.strReelRate :: (volPlaces ++ eventPlaces ++ requestPlaces)) fun d =>
      d.rd Ix.strReelState 0 r = 1 ∧ d.rd Ix.strReelSamples 0 r = 0 ∧ d.rd Ix.strReelGapSamples 0 r = 0 ∧ d.reel r = e'.reel r ∧
      (d.reel r).extents.length = 1 ∧ (d.reel r).generation = x.generation + 1) ∧
  (∀ t path s e r, e = s.dev.at t → e.reaches path Ix.strReelCmd → 1 ≤ path ∧ path ≤ 4 → e.fullService = true → r = e.nW Ix.strReelSel path → e.reelState r ≠ 0 →
    Completes (.reelOpen t path) t s requestParts requestPlaces fun d => d.reports path Code.reelState ∧ d.str = e.str) ∧
  (∀ t path s e r x a n0 t0, e = s.dev.at t → e.reaches path Ix.strReelCmd → e.fullService = true → r = e.nW Ix.strReelSel path → x = e.reel r →
    e.reelState r = 1 → x.mode = 0 → x.rate ≠ 0 → (∀ c ∈ x.sources, e.chanRate c = x.rate) →
    e.reelCarried x (match x.extents.getLast? with | some a => a.members | none => 0) = true → a = sourceOf (x.sources.headD 0) →
    n0 = e.sampleAfter a (tickAt (e.time96 + 1)) → t0 = e.timeOf a n0 →
    Completes (.reelStart t path) t s (.str :: requestParts) (Ix.strReelState :: Ix.strReelStart :: requestPlaces) fun d =>
      d.rd Ix.strReelState 0 r = 2 ∧ d.reel r = { x with t0 := t0, n0 := n0 } ∧ d.rd Ix.strReelStart 1 r = normTy (typeOf Ix.strReelStart 1) (sec48 t0) ∧
      d.rd Ix.strReelStart 2 r = normTy (typeOf Ix.strReelStart 2) (frac48 t0)) ∧
  (∀ t path s e r v, e = s.dev.at t → e.reaches path Ix.strReelCmd → e.fullService = true → r = e.nW Ix.strReelSel path → e.reelState r = 1 →
    (e.reel r).mode = 0 → (e.reel r).takes = [] → (∀ p ∈ e.str.spool, p.2.1 ≠ r) → e.str.volume = some v → (∀ p ∈ v.ports, (e.drive p.2).cache = false) →
    (∀ p ∈ e.str.drives, ∀ c ∈ p.2.cmds, c.reel = r → c.op ≠ 0) →
    Completes (.reelClose t path) t s (.str :: .out :: requestParts) (Ix.strReelState :: (eventPlaces ++ requestPlaces)) fun d =>
      d.rd Ix.strReelState 0 r = 3 ∧ d.reel r = { e.reel r with stop := none, closing := false, flushed := false, generation := (e.reel r).generation + 1 } ∧
      ∀ p ∈ v.ports, (d.drive p.2).dir.find? r = some (d.dirEntry r)) ∧
  (∀ t path s e r, e = s.dev.at t → e.reaches path Ix.strReelCmd → e.fullService = true → r = e.nW Ix.strReelSel path → e.reelState r = 2 → (e.reel r).mode = 0 →
    Completes (.reelClose t path) t s (.str :: requestParts) (Ix.strReelState :: requestPlaces) fun d =>
      d.rd Ix.strReelState 0 r = 6 ∧ d.reel r = { e.reel r with stop := some (tickAt (e.time96 + 1)), closing := false }) ∧
  (∀ t path s e r, e = s.dev.at t → e.reaches path Ix.strReelCmd → e.fullService = true → r = e.nW Ix.strReelSel path → e.str.volume ≠ none →
    (e.reelState r = 3 ∨ e.reelState r = 4 ∨ e.reelState r = 5) →
    Completes (.reelDelete t path) t s (.str :: requestParts) (Ix.strReelState :: (volPlaces ++ requestPlaces)) fun d =>
      d.rd Ix.strReelState 0 r = 0 ∧ d.reel r = { generation := (e.reel r).generation + 1 }) ∧
  (∀ t r s e x l v a slot u b, e = s.dev.at t → r < 4096 → x = e.reel r → e.reelState r = 2 → x.mode = 0 → x.ended = false → x.stop = none →
    x.slot = some slot → (∀ h ∈ x.holes, h.1 ≠ x.next) → l = e.reelRun r → l ≠ [] → l.length = e.unitSamples x → e.str.volume = some v →
    x.extents.getLast? = some a → a.held < v.extent * (mapMembers a.members).length → e.allocOf 0x12 0 = some b →
    u = e.reelUnit r x.next (if x.units = 0 then [e.reelSlate r] else []) []
      ((List.range x.sources.length).map (fun c => l.map (·.getD c (0, 0, 0)))) 0 →
    CompletesMem (.reelUnitClose t r false) t s [.str, .ctr] [Ix.strReelBytes, Ix.strReelSamples, Ix.strSpoolUsed, Ix.strSpoolHigh] fun m d =>
      m = e.writeAlloc b (slot * e.unitBytes) u.1 s.mem ∧ s.mem.sameOutside (e.owns 0x12 0) m ∧ d.str.spool = e.str.spool ∧
      (d.reel r).units = x.units + 1 ∧ (d.reel r).next = x.next + u.2 ∧ (d.reel r).store = x.store.drop u.2 ∧ (d.reel r).slot = none ∧
      (d.reel r).gap = none ∧ e.counted d Ix.strReelSamples 0 r u.2 ∧ e.counted d Ix.strReelBytes 0 r u.1.length) ∧
  (∀ t r s e x l n, e = s.dev.at t → r < 4096 → x = e.reel r → e.reelState r = 2 → x.mode = 0 → x.ended = false → x.slot = none → e.freeSlot = none →
    x.holes = [] → x.gap = none → x.starving = none → l = e.reelRun r → n = l.length → n ≠ 0 → n = e.unitSamples x → e.sup.emergencies.length < 32 →
    CompletesMem (.reelUnitClose t r false) t s (.str :: .out :: codeParts)
      (Ix.strReelSamples :: Ix.strReelGapSamples :: (eventPlaces ++ codePlaces)) fun m d =>
      m = s.mem ∧ (d.reel r).starving = some (x.next, n) ∧ (d.reel r).next = x.next + n ∧ (d.reel r).gap = some (n, 6) ∧
      e.counted d Ix.strReelGapSamples 0 r n ∧ e.counted d Ix.strReelSamples 0 r n ∧ d.reports 4 Code.spoolFull) ∧
  (∀ t r annex s e, e = s.dev.at t → r < 4096 → (e.reelState r = 0 ∨ e.reelState r = 3 ∨ e.reelState r = 4 ∨ e.reelState r = 5) →
    CompletesMem (.reelUnitClose t r annex) t s [] [] fun m _ => m = s.mem) ∧
  (∀ t r s e x q, e = s.dev.at t → r < 4096 → x = e.reel r → x.starving = some q → e.freeSlot ≠ none →
    Completes (.spoolSlotFree t r) t s [.str, .out, .ctr] eventPlaces fun d =>
      d.reel r = { x with starving := none } ∧
      d.out.gaps = addGap ⟨.reel r, 1, reelTime x q.1, reelTime x (q.1 + q.2), q.2, q.1, 6⟩ e.out.gaps) ∧
  (∀ t path p s e f fmt tc t0, e = s.dev.at t → p < 4 → e.reaches path Ix.strPbCmd → e.fullService = true → e.pbSource p = (f, fmt) → e.pbAvailable p = true →
    f ≠ 0 → f ≤ e.pbLimit (decide (fmt = 4)) → tc = tickAt (e.time96 + 1) → t0 = gridAfter (tc + us (e.nI Ix.strPbLead p)) f →
    Completes (.pbStart t path p) t s (.str :: .chn :: requestParts)
      (Ix.strPbState :: Ix.strPbReleased :: Ix.strPbGapSamples :: (pipePlaces ++ requestPlaces)) fun d =>
      d.rd Ix.strPbState (p + 1) 0 = 1 ∧ d.rd Ix.strPbReleased (p + 1) 0 = 0 ∧ d.rd Ix.strPbGapSamples (p + 1) 0 = 0 ∧ d.chn.pbRate.get 0 p = f ∧
      d.chn.pbReal.get false p = decide (fmt = 4) ∧
      d.pb p = { t0 := t0, ix := (roundEven ((t0 * f : Nat) : Int) (two48 * 1000)).toNat, rate := f, width := fmt, pass := 0, next := 0,
                 count := e.pbLength p, origin := e.pbOrigin p }) ∧
  (∀ t path p s e, e = s.dev.at t → p < 4 → e.reaches path Ix.strPbCmd → 1 ≤ path ∧ path ≤ 4 → e.fullService = true → e.pbAvailable p = false →
    Completes (.pbStart t path p) t s requestParts requestPlaces fun d => d.reports path Code.pbRange ∧ d.str = e.str) ∧
  (∀ t path p s e b, e = s.dev.at t → p < 4 → e.reaches path Ix.strPbCmd → e.fullService = true → (e.nI Ix.strPbState p = 1 ∨ e.nI Ix.strPbState p = 2) →
    (e.pb p).stop = none → (e.pb p).gapFirst = none → b = tickAt (e.time96 + 1) → b ≤ (e.pb p).t0 + inputTime (e.pb p).next (e.pb p).rate →
    Completes (.pbStop t path p) t s (.str :: .chn :: requestParts) (Ix.strPbState :: (pipePlaces ++ requestPlaces)) fun d =>
      d.rd Ix.strPbState (p + 1) 0 = 0 ∧ d.chn.pbRate.get 0 p = 0 ∧ d.pb p = { e.pb p with stop := some b }) ∧
  (∀ t path p s e b, e = s.dev.at t → p < 4 → e.reaches path Ix.strPbCmd → e.fullService = true → (e.nI Ix.strPbState p = 1 ∨ e.nI Ix.strPbState p = 2) →
    (e.pb p).stop = none → b = tickAt (e.time96 + 1) → (e.pb p).t0 + inputTime (e.pb p).next (e.pb p).rate < b →
    Completes (.pbStop t path p) t s (.str :: requestParts) requestPlaces fun d => d.pb p = { e.pb p with stop := some b }) ∧
  (∀ t p s e, e = s.dev.at t → p < 4 → e.nI Ix.strPbState p = 1 → (e.pb p).stop = none →
    Completes (.pbPass t p) t s [.out, .ctr] [Ix.strPbState, Ix.strEventsLost] fun d => d.rd Ix.strPbState (p + 1) 0 = 2 ∧ d.pb p = e.pb p) ∧
  (∀ t p s e x, e = s.dev.at t → p < 4 → x = e.pb p → e.nI Ix.strPbState p = 2 → x.stop = none → x.gapFirst = none → x.count ≤ x.next →
    e.nI Ix.strPbLoop p = 1 → e.ddcsOn (0x40 + p) = [] →
    Completes (.pbPass t p) t s [.str, .out, .ctr] [Ix.strEventsLost] fun d =>
      d.pb p = { x with t0 := x.t0 + inputTime x.next x.rate, ix := x.ix + x.next, pass := x.pass + 1, next := 0 }) ∧
  (∀ t p staged v s e x j w, e = s.dev.at t → p < 4 → x = e.pb p → e.nI Ix.strPbState p = 2 → x.next + 1 < x.count → j = e.pbFirst p + x.next →
    w = e.pbSample p j v s.mem → e.pbCause p j staged w = 0 → x.gapFirst = none → (∀ b, x.stop = some b → x.t0 + inputTime x.next x.rate < b) →
    e.wideTaker (0x40 + p) = none →
    CompletesMem (.pbRelease t p staged v) t s [.str, .chn, .ctr] [Ix.strPbReleased] fun m d =>
      m = s.mem ∧ (d.pb p).next = x.next + 1 ∧ (d.pb p).stamp = x.t0 + inputTime x.next x.rate ∧
      (d.pb p).out.i = w.1 ∧ (d.pb p).out.q = w.2.1 ∧ e.counted d Ix.strPbReleased (p + 1) 0 1 ∧
      d.crossing (0x40 + p) = (e.crossing (0x40 + p)).present [(x.ix + x.next, (d.pb p).out)]) ∧
  (∀ t p staged v s e x j w, e = s.dev.at t → p < 4 → x = e.pb p → e.nI Ix.strPbState p = 2 → x.next + 1 < x.count → j = e.pbFirst p + x.next →
    w = e.pbSample p j v s.mem → e.pbCause p j staged w = 12 → x.gapFirst = none → (∀ b, x.stop = some b → x.t0 + inputTime x.next x.rate < b) →
    e.sup.emergencies.length < 32 →
    CompletesMem (.pbRelease t p staged v) t s (.str :: codeParts) (Ix.strPbGapSamples :: codePlaces) fun m d =>
      m = s.mem ∧ d.pb p = { x with next := x.next + 1, gapFirst := some (x.next, 12) } ∧ e.counted d Ix.strPbGapSamples (p + 1) 0 1 ∧
      d.reports 4 Code.pbUnderflow) ∧
  (∀ t p staged v s e x b, e = s.dev.at t → p < 4 → x = e.pb p → e.nI Ix.strPbState p = 2 → x.next < x.count → x.stop = some b →
    b ≤ x.t0 + inputTime x.next x.rate → x.gapFirst = none →
    CompletesMem (.pbRelease t p staged v) t s [.str, .chn] (Ix.strPbState :: pipePlaces) fun m d =>
      m = s.mem ∧ d.rd Ix.strPbState (p + 1) 0 = 0 ∧ d.chn.pbRate.get 0 p = 0 ∧ d.pb p = x)

/-- R322 to R326 and R341: the PLLs. A hop holds the clock (or puts it on the bridge clock) until lock, behind one that is under way; lock takes the
new frequency and is counted; an unrequested loss of lock relocks at the old one, and a PLL whose retries fail is failed. -/
def Obligations.PllHops : Prop :=
  (∀ t pll kHz s e, e = s.dev.at t → isPll pll = true → e.tb.held.contains pll = false → e.tb.relocking.find? pll = none →
    Completes (.pllHop t pll kHz) t s [.tb, .itk, .chn] [Ix.tbPllState] fun d =>
      d.tb.relocking.find? pll = some { target := kHz, began := e.now, entry := e.hopFind pll kHz, requested := true } ∧
      (pll ≤ 0x0C → d.rd Ix.tbPllState pll 0 = if e.n0 Ix.tbMode = 1 then 4 else 3)) ∧
  (∀ t pll kHz s e h, e = s.dev.at t → isPll pll = true → e.tb.held.contains pll = false → e.tb.relocking.find? pll = some h →
    Completes (.pllHop t pll kHz) t s [.tb] [] fun d => d.tb.relocking.find? pll = some { h with queued := h.queued ++ [kHz] }) ∧
  (∀ t pll kHz s e, e = s.dev.at t → isPll pll = true → e.tb.held.contains pll = true → kHz ≠ 400000 →
    Completes (.pllHop t pll kHz) t s [] [] fun _ => True) ∧
  (∀ t pll band fine post s e h, e = s.dev.at t → (pll = 6 ∨ (8 ≤ pll ∧ pll ≤ 0x0C)) → e.tb.relocking.find? pll = some h → h.queued = [] →
    Completes (.pllHopLock t pll band fine post) t s (.tb :: eventParts)
      (Ix.tbIslFreq :: Ix.tbPllState :: Ix.tbRelocks :: Ix.tbGatedNs :: Ix.trgCondHorizon :: Ix.trgChainHorizon :: eventPlaces) fun d =>
      d.tb.relocking.find? pll = none ∧ d.rd Ix.tbPllState pll 0 = 2 ∧ e.counted d Ix.tbRelocks pll 0 1 ∧
      d.rd Ix.tbIslFreq pll 0 = normTy (typeOf Ix.tbIslFreq pll) (h.target : Nat) ∧ (h.entry.isSome = true → d.tb.hops = e.tb.hops) ∧
      ∀ k, h.entry = none → e.hopPlace pll h.target = some k →
        d.tb.hops.get 0 (64 * pll + k) = hopWord (toTwos 8 (e.dieTemp / 16)) h.target post band fine) ∧
  (∀ t pll band fine post s e, e = s.dev.at t → isPll pll = true → e.tb.relocking.find? pll = none →
    Completes (.pllHopLock t pll band fine post) t s [] [] fun _ => True) ∧
  (∀ t pll fails s e, e = s.dev.at t → 1 ≤ pll ∧ pll ≤ 0x0C → fails < 3 → e.sup.emergencies.length < 32 →
    Completes (.pllLossOfLock t pll fails) t s (.drawn :: .tb :: .itk :: .chn :: codeParts) (Ix.tbPllState :: faultPlaces) fun d =>
      d.reports 4 Code.pllRelock ∧ e.counted d Ix.fltClassCount 2 0 1 ∧ d.rd Ix.tbPllState pll 0 = (if e.n0 Ix.tbMode = 1 then 4 else 3) ∧
      ∃ h, d.tb.relocking.find? pll = some h ∧ h.target = e.clockKHz pll ∧ h.began = e.now ∧ h.requested = false) ∧
  (∀ t pll fails s e, e = s.dev.at t → 1 ≤ pll ∧ pll ≤ 0x0C → 4 ≤ fails → e.sup.emergencies.length < 31 →
    Completes (.pllLossOfLock t pll fails) t s (.drawn :: .itk :: .chn :: .out :: codeParts) (Ix.tbPllState :: (eventPlaces ++ faultPlaces)) fun d =>
      d.reports 4 Code.pllFault ∧ d.rd Ix.tbPllState pll 0 = 5)

/-- R328 to R331 and R339: references. An input that fails is invalid and reported; the selected input lost with no other leaves the loop coasting
or on the site clock; a first valid input starts the loop; one that returns rejoins it; a switchover ends on the other input. -/
def Obligations.ReferencesAndLoop : Prop :=
  (∀ t input cause ppb s e, e = s.dev.at t → input < 2 → (cause = 3 ∨ cause = 4) → e.nI Ix.tbRefState input ≠ 3 → e.nI Ix.tbRefState input ≠ 4 →
    e.nI Ix.tbRefEnable input = 1 → e.n0 Ix.tbRefActive ≠ input → e.n0 Ix.tbLoopState ≠ 3 → e.sup.emergencies.length < 32 →
    Completes (.refInvalid t input cause ppb) t s (.out :: codeParts) (Ix.tbRefState :: Ix.tbRefOffset :: (eventPlaces ++ codePlaces)) fun d =>
      d.rd Ix.tbRefState (input + 1) 0 = (cause : Nat) ∧ d.reports 4 Code.refInvalid ∧
      d.rd Ix.tbRefOffset (input + 1) 0 = normTy (typeOf Ix.tbRefOffset (input + 1)) ppb) ∧
  (∀ t input cause ppb s e, e = s.dev.at t → input < 2 → (cause = 3 ∨ cause = 4) → e.nI Ix.tbRefState input = 2 → e.n0 Ix.tbRefActive = input →
    e.nI Ix.tbRefEnable input = 1 → e.n0 Ix.tbLoopState = 2 → e.refOk (1 - input) = false → e.sup.emergencies.length < 31 →
    Completes (.refInvalid t input cause ppb) t s (.out :: .tb :: codeParts)
      (Ix.tbRefState :: Ix.tbRefOffset :: Ix.tbRefActive :: Ix.tbLoopState :: Ix.tbTimeState :: Ix.tbAuxState :: (eventPlaces ++ faultPlaces)) fun d =>
      d.reports 4 Code.noReference ∧ d.rd Ix.tbTimeState 0 0 = 5 ∧
      (if e.n0 Ix.tbMode = 1 then d.rd Ix.tbLoopState 0 0 = 4 ∧ d.tb = e.tb
       else d.rd Ix.tbLoopState 0 0 = 5 ∧ d.rd Ix.tbRefActive 0 0 = 2 ∧ d.tb.gated = true ∧
         ∀ n < 8, e.nI Ix.tbAuxEnable n = 1 → d.rd Ix.tbAuxState (n + 1) 0 = 3)) ∧
  (∀ t input ppb phi s e, e = s.dev.at t → input < 2 → e.nI Ix.tbRefEnable input = 1 → e.nI Ix.tbRefState input ≠ 2 → e.n0 Ix.tbLoopState = 0 →
    Completes (.refValid t input ppb phi) t s eventParts (Ix.tbRefState :: Ix.tbRefOffset :: Ix.tbRefActive :: Ix.tbLoopState :: eventPlaces) fun d =>
      d.rd Ix.tbRefState (input + 1) 0 = 2 ∧ d.rd Ix.tbRefActive 0 0 = (input : Nat) ∧ d.rd Ix.tbLoopState 0 0 = 1) ∧
  (∀ t input ppb phi s e, e = s.dev.at t → input < 2 → e.nI Ix.tbRefEnable input = 1 → e.nI Ix.tbRefState input ≠ 2 →
    (e.n0 Ix.tbLoopState = 4 ∨ e.n0 Ix.tbLoopState = 5) → phi ≠ 0 → phi.natAbs < e.n0 Ix.tbStepThreshold →
    Completes (.refValid t input ppb phi) t s (.tb :: .im :: eventParts)
      (Ix.tbRefState :: Ix.tbRefOffset :: Ix.tbRefActive :: Ix.tbLoopState :: Ix.tbAuxState :: Ix.tbSlewPs :: eventPlaces) fun d =>
      d.rd Ix.tbRefActive 0 0 = (input : Nat) ∧ d.rd Ix.tbLoopState 0 0 = 6 ∧ d.tb.slew = some (-phi, e.now) ∧ d.tb.gated = false ∧
      d.rd Ix.tbSlewPs 0 0 = normTy (typeOf Ix.tbSlewPs 0) (-phi)) ∧
  (∀ t ab s e new, e = s.dev.at t → e.n0 Ix.tbLoopState = 3 → new = 1 - min (e.n0 Ix.tbRefActive) 1 → e.refOk new = true → e.sup.emergencies.length < 32 →
    Completes (.refSwitchoverDone t ab) t s (.out :: codeParts)
      (Ix.tbRefActive :: Ix.tbAbPhase :: Ix.tbSwitchovers :: Ix.tbLoopState :: (eventPlaces ++ codePlaces)) fun d =>
      d.rd Ix.tbRefActive 0 0 = (new : Nat) ∧ d.rd Ix.tbLoopState 0 0 = 2 ∧ e.counted d Ix.tbSwitchovers 0 0 1 ∧
      d.rd Ix.tbAbPhase 0 0 = normTy (typeOf Ix.tbAbPhase 0) ab ∧ d.reports 4 Code.refSwitch) ∧
  (∀ t s e, e = s.dev.at t → e.n0 Ix.tbLoopState = 1 →
    Completes (.timeLoopLock t) t s eventParts (Ix.tbLoopState :: eventPlaces) fun d => d.rd Ix.tbLoopState 0 0 = 2) ∧
  (∀ t s e p w, e = s.dev.at t → e.tb.slew = some (p, w) → e.slewLeft = 0 →
    Completes (.slewDone t) t s (.tb :: eventParts) (Ix.tbSlewPs :: Ix.tbLoopState :: eventPlaces) fun d =>
      d.tb = { e.tb with offset := e.tb.offset + psUnits p, slew := none } ∧ d.rd Ix.tbSlewPs 0 0 = 0 ∧
      d.n0 Ix.tbLoopState = if e.n0 Ix.tbLoopState = 6 then 2 else e.n0 Ix.tbLoopState)

/-- R333 to R338: corrections of time. PPS edges and DC samples are averaged, or set the time where a set waits for an edge; a loss of PPS leaves the
state at holdover; a time set waits; a step moves the counter at once and is counted; a SYSREF burst is queued on a port in mode 2 only. -/
def Obligations.TimeCorrections : Prop :=
  (∀ t s e stamp near phi, e = s.dev.at t → e.tb.running = true → e.tb.setSec = none → stamp = (e.time96 : Int) - psUnits (e.rd Ix.tbPpsDelay 0 0) →
    near = roundEven stamp two48 → phi = unitsPs (stamp - near * (two48 : Int)) → e.timeSource ≠ 1 →
    Completes (.ppsEdge t) t s [] [Ix.tbPpsOffset] fun d => d.rd Ix.tbPpsOffset 0 0 = normTy (typeOf Ix.tbPpsOffset 0) phi) ∧
  (∀ t s e stamp near phi, e = s.dev.at t → e.tb.running = true → e.tb.setSec = none → stamp = (e.time96 : Int) - psUnits (e.rd Ix.tbPpsDelay 0 0) →
    near = roundEven stamp two48 → phi = unitsPs (stamp - near * (two48 : Int)) → e.timeSource = 1 → e.tb.samples + 1 < e.n0 Ix.tbPpsAvg →
    Completes (.ppsEdge t) t s (.tb :: eventParts) (Ix.tbPpsOffset :: Ix.tbTimeState :: eventPlaces) fun d =>
      d.rd Ix.tbTimeState 0 0 = 3 ∧ d.tb = { e.tb with sum := e.tb.sum + phi, samples := e.tb.samples + 1 }) ∧
  (∀ t s e stamp near phi m, e = s.dev.at t → e.tb.running = true → e.tb.setSec = none → stamp = (e.time96 : Int) - psUnits (e.rd Ix.tbPpsDelay 0 0) →
    near = roundEven stamp two48 → phi = unitsPs (stamp - near * (two48 : Int)) → e.timeSource = 1 → e.n0 Ix.tbPpsAvg ≤ e.tb.samples + 1 →
    m = roundEven (e.tb.sum + phi) (e.tb.samples + 1) → m ≠ 0 → m.natAbs < e.n0 Ix.tbPpsStep →
    Completes (.ppsEdge t) t s (.tb :: .im :: eventParts) (Ix.tbPpsOffset :: Ix.tbTimeState :: Ix.tbSlewPs :: eventPlaces) fun d =>
      d.tb.slew = some (-m, e.now) ∧ d.tb.sum = 0 ∧ d.tb.samples = 0 ∧ d.rd Ix.tbSlewPs 0 0 = normTy (typeOf Ix.tbSlewPs 0) (-m)) ∧
  (∀ t s e stamp near v w, e = s.dev.at t → e.tb.running = true → e.tb.setSec = some (1, v, w) → e.joined = false →
    stamp = (e.time96 : Int) - psUnits (e.rd Ix.tbPpsDelay 0 0) → near = roundEven stamp two48 →
    Completes (.ppsEdge t) t s [.tb] [Ix.tbPpsOffset] fun d =>
      d.tb = { e.tb with setSec := none, sum := 0, samples := 0, stepDue := max e.tb.stepDue (tickAt (e.time96 + 1)),
                         step := some ((match e.tb.step with | some x => x.1 | none => 0) + ((v : Int) - near) * 1000000000000, 5) }) ∧
  (∀ t s e, e = s.dev.at t → e.timeSource = 1 → e.tb.running = true → e.sup.emergencies.length < 32 →
    Completes (.ppsLost t) t s (.tb :: .out :: codeParts) (Ix.tbTimeState :: (eventPlaces ++ codePlaces)) fun d =>
      d.rd Ix.tbTimeState 0 0 = 5 ∧ d.tb = { e.tb with sum := 0, samples := 0 } ∧ d.reports 4 Code.ppsLost) ∧
  (∀ t dcNs s e phi, e = s.dev.at t → e.timeSource = 2 → e.tb.running = true → 1000000000 % e.sup.cycle = 0 → e.tb.samples + 1 < e.n0 Ix.tbPpsAvg →
    phi = unitsPs ((e.time96 : Int) - (roundEven ((dcNs * two48 : Nat) : Int) 1000000000 + e.rd Ix.tbDcOffsetSec 0 0 * (two48 : Int))) →
    Completes (.dcSync0Sample t dcNs) t s (.tb :: eventParts) (Ix.tbTimeState :: eventPlaces) fun d =>
      d.rd Ix.tbTimeState 0 0 = 2 ∧ d.tb = { e.tb with sum := e.tb.sum + phi, samples := e.tb.samples + 1 }) ∧
  (∀ t path s e, e = s.dev.at t → e.reaches path Ix.tbTimeSetCmd →
    Completes (.timeSetAtPps t path) t s (.tb :: requestParts) requestPlaces fun d =>
      d.tb = { e.tb with setSec := some (1, e.n0 Ix.tbTimeSetSec, e.time96) }) ∧
  (∀ t path s e, e = s.dev.at t → e.reaches path Ix.tbTimeSetCmd →
    Completes (.timeSetAtSecond t path) t s (.tb :: requestParts) requestPlaces fun d =>
      d.tb = { e.tb with setSec := some (2, e.n0 Ix.tbTimeSetSec, e.time96) }) ∧
  (∀ t s e delta cause, e = s.dev.at t → e.setDue = none → e.tb.step = some (delta, cause) → e.tb.running = true → e.tb.stepDue ≤ e.time96 →
    e.sup.emergencies.length < 32 →
    Completes (.timeStep t) t s (.tb :: .itk :: .im :: .out :: codeParts)
      (Ix.tbSlewPs :: Ix.tbTimeSteps :: Ix.tbLoopState :: Ix.tbAuxState :: (eventPlaces ++ codePlaces)) fun d =>
      d.tb.offset = e.tb.offset + psUnits (slewPart e.tb.slew e.now) + psUnits (delta + e.slewLeft) ∧ d.tb.step = none ∧ d.tb.slew = none ∧
      d.rd Ix.tbSlewPs 0 0 = 0 ∧ e.counted d Ix.tbTimeSteps 0 0 1 ∧ d.reports 4 Code.timeStep ∧
      ∀ q < 16, ((e.link q).clock.isSome = true → (d.link q).gridMoved = true) ∧
        (e.linkState q = 5 → (d.link q).gapFirst.isSome = true)) ∧
  (∀ t path port s e, e = s.dev.at t → port < 4 → e.reaches path Ix.tbSysrefFire → e.nI Ix.tbSysrefMode port = 2 →
    Completes (.sysrefFire t path port) t s (.tb :: requestParts) requestPlaces fun d =>
      d.tb = { e.tb with bursts := d.tb.bursts } ∧ ∃ first, first % max (e.nI Ix.tbSysrefDiv port) 1 = 0 ∧
        (e.time96 + us 1) * 800000000 ≤ first * two48 ∧ (first, e.nI Ix.tbSysrefPulses port) ∈ d.tb.bursts.get [] port) ∧
  (∀ t path port s e, e = s.dev.at t → port < 4 → 1 ≤ path ∧ path ≤ 4 → e.reaches path Ix.tbSysrefFire → e.nI Ix.tbSysrefMode port ≠ 2 →
    Completes (.sysrefFire t path port) t s requestParts requestPlaces fun d => d.reports path Code.sysrefMode)

/-- R357, R358, R361 and R362: the commands of an Interval Meter channel: an arm takes the setting in force and waits for a start; an arm while the channel
logic is away waits for it; an abort ends the work in flight; a clear zeroes the results; a disable drains what is in flight and its end closes it; each
is rejected in the wrong state. -/
def Obligations.IntervalCommands : Prop :=
  (∀ t path chan s e, e = s.dev.at t → chan < 10 → e.reaches path Ix.imCmd → e.imState chan = 1 → e.im.suspended = false →
    Completes (.imArm t path chan) t s (.im :: requestParts) (Ix.imChanState :: requestPlaces) fun d =>
      d.rd Ix.imChanState (chan + 1) 0 = 2 ∧ (d.imCh chan).cfg = e.imCfg chan ∧ (d.imCh chan).armed = e.asNow ∧ (d.imCh chan).start = none ∧
      (d.imCh chan).gate = none ∧ (d.imCh chan).stops = [] ∧ (d.imCh chan).n = 0) ∧
  (∀ t path chan s e, e = s.dev.at t → chan < 10 → e.reaches path Ix.imCmd → e.imState chan = 1 → e.im.suspended = true →
    Completes (.imArm t path chan) t s requestParts (Ix.imChanState :: requestPlaces) fun d => d.rd Ix.imChanState (chan + 1) 0 = 5) ∧
  (∀ t path chan s e, e = s.dev.at t → chan < 10 → e.reaches path Ix.imCmd → 1 ≤ path ∧ path ≤ 4 → e.imState chan ≠ 1 →
    Completes (.imArm t path chan) t s requestParts requestPlaces fun d => d.reports path Code.imState) ∧
  (∀ t path chan s e, e = s.dev.at t → chan < 10 → e.reaches path Ix.imCmd → e.imBusy chan = true →
    Completes (.imAbort t path chan) t s (.im :: .out :: requestParts)
      ([Ix.imChanState, Ix.imMeanN, Ix.imMeanFine, Ix.imDev, Ix.imMinN, Ix.imMinFine, Ix.imMaxN, Ix.imMaxFine, Ix.imCount, Ix.imLastFlags, Ix.imRecordsLost] ++
        requestPlaces) fun d =>
      d.rd Ix.imChanState (chan + 1) 0 = (if (e.imCh chan).drain.isSome then 0 else 1) ∧ (d.imCh chan).start = none ∧
      ((e.imCh chan).cfg.mode = 2 → (d.imCh chan).gate = none ∧ (d.imCh chan).gates.length = (e.imCh chan).gates.length + (if (e.imCh chan).gate.isSome then 1 else 0)) ∧
      ((e.imCh chan).cfg.mode = 1 → 0 < (e.imCh chan).n → d.rd Ix.imCount (chan + 1) 0 = normTy (typeOf Ix.imCount (chan + 1)) ((e.imCh chan).n : Nat))) ∧
  (∀ t path chan s e, e = s.dev.at t → chan < 10 → e.reaches path Ix.imCmd → 1 ≤ path ∧ path ≤ 4 → e.imState chan = 1 → e.sup.emergencies.length < 32 →
    Completes (.imAbort t path chan) t s requestParts requestPlaces fun d => d.reports path Code.alreadyDone) ∧
  (∀ t path chan s e, e = s.dev.at t → chan < 10 → e.reaches path Ix.imCmd → 1 ≤ path ∧ path ≤ 4 → e.imBusy chan = false → e.imState chan ≠ 1 →
    Completes (.imAbort t path chan) t s requestParts requestPlaces fun d => d.reports path Code.imState) ∧
  (∀ t path chan s e, e = s.dev.at t → chan < 10 → e.reaches path Ix.imCmd → e.imState chan = 1 →
    Completes (.imClear t path chan) t s requestParts ((List.range 14).map (Ix.imLastN + ·) ++ (List.range 5).map (Ix.imFreqHz + ·) ++ requestPlaces) fun d =>
      (∀ k < 14, d.rd (Ix.imLastN + k) (chan + 1) 0 = 0) ∧ (8 ≤ chan → ∀ k < 5, d.rd (Ix.imFreqHz + k) (chan - 7) 0 = 0)) ∧
  (∀ t path chan s e, e = s.dev.at t → chan < 10 → e.reaches path Ix.imCmd → 1 ≤ path ∧ path ≤ 4 → e.imState chan ≠ 1 →
    Completes (.imClear t path chan) t s requestParts requestPlaces fun d => d.reports path Code.imState) ∧
  (∀ t path chan s e, e = s.dev.at t → chan < 10 → e.reaches path Ix.imChanEnable → e.imBusy chan = true →
    Completes (.imChanDisable t path chan) t s (.im :: requestParts) (Ix.imChanEnable :: requestPlaces) fun d =>
      d.rd Ix.imChanEnable (chan + 1) 0 = 0 ∧ d.imCh chan = { e.imCh chan with drain := some e.now }) ∧
  (∀ t path chan s e, e = s.dev.at t → chan < 10 → e.reaches path Ix.imChanEnable → e.imBusy chan = false → e.imState chan ≠ 6 →
    Completes (.imChanDisable t path chan) t s requestParts (Ix.imChanEnable :: Ix.imChanState :: requestPlaces) fun d =>
      d.rd Ix.imChanEnable (chan + 1) 0 = 0 ∧ d.rd Ix.imChanState (chan + 1) 0 = 0) ∧
  (∀ t chan s e w, e = s.dev.at t → chan < 10 → e.imBusy chan = true → (e.imCh chan).drain = some w → w + us 50 ≤ e.now →
    Completes (.imDrainEnd t chan) t s (.im :: .out :: codeParts)
      ([Ix.imChanState, Ix.imMeanN, Ix.imMeanFine, Ix.imDev, Ix.imMinN, Ix.imMinFine, Ix.imMaxN, Ix.imMaxFine, Ix.imCount, Ix.imLastFlags, Ix.imRecordsLost] ++
        codePlaces) fun d =>
      d.rd Ix.imChanState (chan + 1) 0 = 0 ∧ (d.imCh chan).start = none ∧ (d.imCh chan).drain = none)

/-- R346 to R356: measurements. A good calibration's stamp is kept, the site's next interpolator takes its turn; an edge in the hold-off is counted and makes
no stamp; a start edge starts a measurement of a channel that waits, and the stop edge its window accepts ends it with their difference; a window that closes
without one ends it without a value; gates begin and end, and their frequency is the least-squares slope, or is not determined. -/
def Obligations.IntervalMeasurements : Prop :=
  (∀ t site edge k c1 c2 code s e x at_, e = s.dev.at t → isSite site = true → edge < 2 → site ≠ 0x18 → x = e.imSite site → x.outs = [] → c1 + 900 ≤ c2 →
    c2 ≤ c1 + 1200 → x.last = none → (∀ ch < 10, e.imBusy ch = false) → at_ = stampAs k c1 c2 code →
    Completes (.imEdgeStamp t site edge k c1 c2 code) t s [.im, .ctr] [Ix.imInEdges] fun d =>
      (d.imSite site).last = some at_ ∧ (d.imSite site).next = (x.turn + 1) % 4 ∧ (d.imSite site).cals.find? x.turn = some (c1, c2) ∧
      ∀ i, siteEntry site = some i → e.counted d Ix.imInEdges (i + 1) 0 1) ∧
  (∀ t site edge k c1 c2 code s e x w, e = s.dev.at t → isSite site = true → edge < 2 → x = e.imSite site → x.outs = [] → c1 + 900 ≤ c2 → c2 ≤ c1 + 1200 →
    x.last = some w → e.siteHoldoff site ≠ 0 → stampAs k c1 c2 code - w ≤ (e.siteHoldoff site : Nat) * asNs →
    Completes (.imEdgeStamp t site edge k c1 c2 code) t s [.ctr] [Ix.imInHeld] fun d => ∀ i, siteEntry site = some i → e.counted d Ix.imInHeld (i + 1) 0 1) ∧
  (∀ t site edge k c1 c2 code s e x at_ ch, e = s.dev.at t → 0x1A ≤ site ∧ site ≤ 0x2E → edge < 2 → x = e.imSite site → x.outs = [] → c1 + 900 ≤ c2 →
    c2 ≤ c1 + 1200 → x.last = none → ch < 10 → (∀ c < 10, c ≠ ch → e.imBusy c = false) → at_ = stampAs k c1 c2 code → e.imState ch = 2 →
    (e.imCh ch).cfg.startSrc = site → (e.imCh ch).cfg.stopSrc ≠ site → edgeIs (e.imCh ch).cfg.startEdge edge = true → (e.imCh ch).cfg.mode ≠ 2 →
    (e.imCh ch).dead ≤ at_ → (e.imCh ch).stops = [] →
    Completes (.imEdgeStamp t site edge k c1 c2 code) t s [.im] [Ix.imChanState] fun d =>
      d.rd Ix.imChanState (ch + 1) 0 = 3 ∧ (d.imCh ch).start = some at_ ∧ (d.imCh ch).span = c2 - c1) ∧
  (∀ t site edge k c1 c2 code s e x at_ ch v w, e = s.dev.at t → 0x1A ≤ site ∧ site ≤ 0x2E → edge < 2 → x = e.imSite site → x.outs = [] → c1 + 900 ≤ c2 →
    c2 ≤ c1 + 1200 → x.last = none → ch < 10 → (∀ c < 10, c ≠ ch → e.imBusy c = false) → at_ = stampAs k c1 c2 code → e.imState ch = 3 →
    (e.imCh ch).cfg.stopSrc = site → edgeIs (e.imCh ch).cfg.stopEdge edge = true → (e.imCh ch).cfg.mode = 0 → (e.imCh ch).start = some w →
    v = at_ - w - (e.imCh ch).shift → (e.imCh ch).cfg.accepts v = true → 4000000 ≤ v → (e.imCh ch).cfg.ring = noRing → (e.imCh ch).cfg.again = false →
    (e.imCh ch).drain = none →
    Completes (.imEdgeStamp t site edge k c1 c2 code) t s [.im, .ctr] [Ix.imChanState, Ix.imLastN, Ix.imLastFine, Ix.imLastFlags, Ix.imMeasurements] fun d =>
      d.rd Ix.imChanState (ch + 1) 0 = 1 ∧ d.rd Ix.imLastN (ch + 1) 0 = normTy (typeOf Ix.imLastN (ch + 1)) (v / asClock) ∧
      d.rd Ix.imLastFine (ch + 1) 0 = normTy (typeOf Ix.imLastFine (ch + 1)) (v % asClock) ∧ e.counted d Ix.imMeasurements (ch + 1) 0 1) ∧
  (∀ t chan s e x st, e = s.dev.at t → chan < 10 → x = e.imCh chan → x.start = some st → e.imState chan = 3 →
    st + x.shift + (x.cfg.winClose : Int) * asClock ≤ e.asNow → x.cfg.mode = 0 → x.cfg.ring = noRing → x.cfg.again = false → x.drain = none →
    Completes (.imTimeout t chan) t s [.im, .ctr, .drawn] [Ix.imChanState, Ix.imTimeouts, Ix.imLastFlags] fun d =>
      d.rd Ix.imChanState (chan + 1) 0 = 1 ∧ e.counted d Ix.imTimeouts (chan + 1) 0 1 ∧ (d.imCh chan).start = none) ∧
  (∀ t chan s e x g, e = s.dev.at t → (chan = 8 ∨ chan = 9) → x = e.imCh chan → e.imState chan = 2 → x.cfg.mode = 2 → x.gateDue = some g → g ≤ e.asNow →
    Completes (.imGateStart t chan) t s [.im] [Ix.imChanState] fun d =>
      d.rd Ix.imChanState (chan + 1) 0 = 4 ∧
      (d.imCh chan).gate = some { g := g, ns := x.cfg.gateNs, ticks := x.cfg.stamps, flags := e.imTimeFlags }) ∧
  (∀ t chan s e x g, e = s.dev.at t → (chan = 8 ∨ chan = 9) → x = e.imCh chan → x.gate = some g → g.g + g.shift + (g.ns : Int) * asNs ≤ e.asNow →
    x.cfg.again = false → x.drain = none →
    Completes (.imGateEnd t chan) t s [.im] [Ix.imChanState] fun d =>
      d.rd Ix.imChanState (chan + 1) 0 = 1 ∧ (d.imCh chan).gate = none ∧
      (d.imCh chan).gates = x.gates ++ [{ g with flags := g.flags ||| 0 ||| e.imTimeFlags }]) ∧
  (∀ t chan s e x g rest f r, e = s.dev.at t → (chan = 8 ∨ chan = 9) → x = e.imCh chan → x.gates = g :: rest → g.slope = some (f, r) → x.cfg.ring = noRing →
    Completes (.imFreqReady t chan) t s [.im] [Ix.imFreqHz, Ix.imFreqFrac, Ix.imFreqResid, Ix.imFreqStamps, Ix.imEdges, Ix.imLastFlags] fun d =>
      d.rd Ix.imFreqHz (chan - 7) 0 = normTy (typeOf Ix.imFreqHz (chan - 7)) (f / two48 : Nat) ∧
      d.rd Ix.imFreqFrac (chan - 7) 0 = normTy (typeOf Ix.imFreqFrac (chan - 7)) (f % two48 : Nat) ∧
      d.rd Ix.imFreqStamps (chan - 7) 0 = normTy (typeOf Ix.imFreqStamps (chan - 7)) (g.used : Nat) ∧ (d.imCh chan).gates = rest) ∧
  (∀ t chan s e x g rest, e = s.dev.at t → (chan = 8 ∨ chan = 9) → x = e.imCh chan → x.gates = g :: rest → g.slope = none → x.cfg.ring = noRing →
    Completes (.imFreqReady t chan) t s [.im, .drawn] [Ix.imFreqStamps, Ix.imEdges, Ix.imLastFlags] fun d => (d.imCh chan).gates = rest)

/-- R367, R370, R374 and R389: hellos, ports and link states. A trained port exchanges hellos; a hello that is in order brings the port up and enters the map,
one that is not refuses it with its reason; a port that loses its neighbour goes down and is a detour; link states are flooded when they change, and one
that is new enters the map. -/
def Obligations.FabricPortsAndLinkStates : Prop :=
  (∀ t port s e, e = s.dev.at t → port < 4 → (e.portState port = 1 ∨ e.portState port = 5) → e.boot.failed.contains (0x200 + port) = false →
    Completes (.portTrained t port) t s mapParts (Ix.cfPortState :: Ix.modBringup :: eventPlaces) fun d =>
      d.rd Ix.cfPortState (port + 1) 0 = 2 ∧ (d.cfPort port).helloRx = e.now ∧ (d.cfPort port).helloTx = none) ∧
  (∀ t port s e, e = s.dev.at t → port < 4 → (e.portState port = 2 ∨ e.portState port = 3 ∨ e.portState port = 4) → (e.cfPort port).helloTx = none →
    Completes (.helloSend t port) t s [.cf] [] fun d =>
      (d.cfPort port).helloTx = some e.now ∧ d.cf.sent = e.cf.sent ++ [(port, { kind := 0x30, origin := e.slotIdent, body := (wordsBody
        [(e.rd Ix.modSerial 3 0).toNat % two48,
         1 * 2 ^ 40 + e.n0 Ix.cfKeystonePrio * 2 ^ 32 + port * 2 ^ 24 + e.service * 2 ^ 16 + e.slotIdent,
         e.n0 Ix.cfTopologySeq % two48 + e.n0 Ix.cfKeystone % 1024 * 2 ^ 48]) })]) ∧
  (∀ t port s e w, e = s.dev.at t → port < 4 → (e.cfPort port).helloTx = some w → e.now < w + us 100 →
    Completes (.helloSend t port) t s [] [] fun _ => True) ∧
  (∀ t port w0 w1 body s e p, e = s.dev.at t → port < 4 → pktOf w0 w1 body = some p → p.kind = 0x30 → e.portState port = 2 → e.cf.suspended = false →
    e.helloRefusal port p = none → e.fullService = true → bitsOf 23 16 (p.word 1) = 3 →
    Completes (.helloReceive t port w0 w1 body) t s mapParts (Ix.cfPortState :: Ix.cfNeighbour :: mapPlaces) fun d =>
      d.rd Ix.cfPortState (port + 1) 0 = 3 ∧ d.rd Ix.cfNeighbour (port + 1) 0 = (p.word 1 % 1024 : Nat) ∧ d.cf.floodDue = true ∧
      (d.cfPort port).helloRx = e.now ∧ e.counted d Ix.cfTopologySeq 0 0 1 ∧ d.cf.detours.contains port = false) ∧
  (∀ t port w0 w1 body s e p c, e = s.dev.at t → port < 4 → pktOf w0 w1 body = some p → p.kind = 0x30 → e.portState port = 2 → e.cf.suspended = false →
    e.helloRefusal port p = some c → e.sup.emergencies.length < 32 →
    Completes (.helloReceive t port w0 w1 body) t s (.cf :: .out :: codeParts)
      (Ix.cfPortState :: Ix.cfPortReason :: Ix.cfNeighbour :: (eventPlaces ++ codePlaces)) fun d =>
      d.rd Ix.cfPortState (port + 1) 0 = 4 ∧ d.reports 4 c) ∧
  (∀ t port n s e, e = s.dev.at t → port < 4 → (e.portState port = 2 ∨ e.portState port = 3 ∨ e.portState port = 4) → e.sup.emergencies.length < 32 →
    Completes (.portDown t port 0 n) t s (.drawn :: .cf :: .out :: codeParts)
      (Ix.cfPortState :: Ix.cfPortReason :: Ix.cfLinkDowns :: Ix.cfFecUncorrected :: (mapPlaces ++ faultPlaces)) fun d =>
      d.rd Ix.cfPortState (port + 1) 0 = 5 ∧ e.counted d Ix.cfLinkDowns (port + 1) 0 1 ∧ e.counted d Ix.cfFecUncorrected (port + 1) 0 n ∧
      d.reports 4 Code.cfLinkDown ∧ (e.portState port = 3 → port ∈ d.cf.detours)) ∧
  (∀ t port n s e, e = s.dev.at t → port < 4 → n ≤ 16 →
    Completes (.portDown t port 1 n) t s [.ctr] [Ix.cfFecUncorrected] fun d => e.counted d Ix.cfFecUncorrected (port + 1) 0 n) ∧
  (∀ t s e, e = s.dev.at t → e.n0 Ix.cfState = 4 → e.cf.floodDue = true →
    Completes (.linkStateFlood t) t s [.cf] [] fun d => d.cf.floodDue = false ∧ d.cf.floodAt = some e.now ∧
      ∀ k < 4, e.portState k = 3 → ∃ p, (k, p) ∈ d.cf.sent ∧ p.kind = 0x31 ∧ p.origin = e.slotIdent ∧ p.hops = 255) ∧
  (∀ t s e w, e = s.dev.at t → e.cf.floodDue = false → e.cf.floodAt = some w → e.now < w + ms 10 →
    Completes (.linkStateFlood t) t s [] [] fun _ => True) ∧
  (∀ t port w0 w1 body s e p, e = s.dev.at t → port < 4 → pktOf w0 w1 body = some p → p.kind = 0x31 → e.portState port = 3 → p.origin ≠ e.slotIdent →
    e.cf.suspended = false → (e.cfDist e.slotIdent).find? p.origin = none → (e.cf.nodes.get {} p.origin).seq ≠ p.word 0 % two48 →
    Completes (.linkStateReceive t port w0 w1 body) t s mapParts (Ix.cfState :: mapPlaces) fun d =>
      (d.cf.nodes.get {} p.origin).seq = p.word 0 % two48 ∧ (d.cf.nodes.get {} p.origin).left = false ∧
      (d.cf.nodes.get {} p.origin).ports = (List.range 4).map (fun k => (p.word 1 / 2 ^ (16 * k + 12) % 16, p.word 1 / 2 ^ (16 * k) % 1024)) ∧
      e.counted d Ix.cfTopologySeq 0 0 1) ∧
  (∀ t port w0 w1 body s e p, e = s.dev.at t → port < 4 → pktOf w0 w1 body = some p → p.kind = 0x31 → e.n0 Ix.cfState ≠ 2 →
    ((e.cfDist e.slotIdent).find? p.origin).isSome = true → p.word 0 % two48 < (e.cfNode p.origin).seq →
    Completes (.linkStateReceive t port w0 w1 body) t s [] [] fun _ => True)

/-- R375 to R380: the keystone and system time. The module with the best claim is keystone and tells every other; a received claim that is better is adopted; markers
are stamped and answered; a report gives the link's delay, and on the port of the time parent a sample of the offset; the average of the offsets is removed; a notified
step waits for its tick. -/
def Obligations.KeystoneAndSystemTime : Prop :=
  (∀ t w0 w1 body delta s e, e = s.dev.at t → e.joined = true → e.n0 Ix.cfKeystonePrio ≠ 0 → e.slotIdent < 1024 →
    (∀ k, e.cf.key = some k → keyBetter (e.n0 Ix.cfKeystonePrio, e.slotIdent) k = true) →
    Completes (.keystoneClaim t 4 w0 w1 body delta) t s (.tb :: mapParts) (Ix.cfKeystone :: mapPlaces) fun d =>
      d.cf.key = some (e.n0 Ix.cfKeystonePrio, e.slotIdent) ∧ d.n0 Ix.cfKeystone = e.slotIdent ∧ d.rd Ix.cfTimeParent 0 0 = 0xFE ∧
      d.rd Ix.cfTimeDepth 0 0 = 0 ∧ ∀ k < 4, e.portState k = 3 → ∃ p, (k, p) ∈ d.cf.sent ∧ p.kind = 0x32 ∧ p.origin = e.slotIdent) ∧
  (∀ t port w0 w1 body delta s e p, e = s.dev.at t → port < 4 → pktOf w0 w1 body = some p → p.kind = 0x32 → e.portState port = 3 → p.origin ≠ e.slotIdent →
    e.cf.suspended = false → bitsOf 47 40 (p.word 0) ≠ 0 → (∀ k, e.cf.key = some k → keyBetter (bitsOf 47 40 (p.word 0), p.word 0 % 1024) k = true) →
    Completes (.keystoneClaim t port w0 w1 body delta) t s (.tb :: mapParts) (Ix.cfKeystone :: mapPlaces) fun d =>
      d.n0 Ix.cfKeystone = p.word 0 % 1024) ∧
  (∀ t port w0 w1 body delta s e p, e = s.dev.at t → port < 4 → pktOf w0 w1 body = some p → p.kind = 0x32 → e.portState port = 3 → p.origin ≠ e.slotIdent →
    e.cf.suspended = false → bitsOf 47 40 (p.word 0) = 0 →
    Completes (.keystoneClaim t port w0 w1 body delta) t s [.cf] [] fun d => d.cf = { e.cf with nodes := d.cf.nodes }) ∧
  (∀ t port stamp seq credit s e, e = s.dev.at t → port < 4 → e.portState port = 3 → e.fullService = true → e.cf.suspended = false →
    Completes (.timingMarker t port 0 stamp seq credit 0 0) t s [.cf] [] fun d =>
      (d.cfPort port).departed.head? = some (seq % 2 ^ 24, stamp) ∧
      d.cf.sent = e.cf.sent ++ [(port, { kind := 0x10, origin := e.slotIdent, seq := seq })]) ∧
  (∀ t port stamp seq credit s e q dep l, e = s.dev.at t → port < 4 → e.portState port = 3 → e.fullService = true → e.cf.suspended = false →
    (e.cfPort port).departed = (q, dep) :: l →
    Completes (.timingMarker t port 1 stamp seq credit 0 0) t s [.cf] [] fun d =>
      (d.cfPort port).arrived = some (seq % 2 ^ 24, stamp) ∧ d.cf.sent = e.cf.sent ++ [(port, { kind := 0x11, origin := e.slotIdent, seq := seq, body := wordsBody [sec48 dep, frac48 dep, sec48 stamp, frac48 stamp, toTwos 32 (e.rd Ix.cfPortAsym (port + 1) 0)] })]) ∧
  (∀ t port dir stamp seq credit corrected lost s e, e = s.dev.at t → port < 4 → dir < 2 → e.portState port ≠ 3 →
    Completes (.timingMarker t port dir stamp seq credit corrected lost) t s [.cf, .ctr] [Ix.cfFecCorrected, Ix.cfFecUncorrected] fun d =>
      e.counted d Ix.cfFecCorrected (port + 1) 0 corrected ∧ e.counted d Ix.cfFecUncorrected (port + 1) 0 lost ∧
      (d.cfPort port).credit = ((e.cfLine port).cfPort port).credit + credit) ∧
  (∀ t port w0 w1 body s e p (seq arr dep : Nat) l, e = s.dev.at t → port < 4 → pktOf w0 w1 body = some p → p.kind = 0x11 → e.portState port = 3 →
    p.origin ≠ e.slotIdent → e.cf.suspended = false → (e.cfPort port).arrived = some (seq, arr) → (e.cfPort port).departed = (p.seq, dep) :: l →
    roundEven ((p.timeAt 0 * 1000000 : Nat) : Int) two48 % 2 ^ 24 = (seq : Int) →
    Completes (.timeReportReceive t port w0 w1 body) t s [.cf] [Ix.cfLinkDelay, Ix.cfBcastBound, Ix.cfBcastBoundSys] fun d =>
      d.rd Ix.cfLinkDelay (port + 1) 0 = normTy (typeOf Ix.cfLinkDelay (port + 1))
        ((roundEven ((((arr : Int) - (p.timeAt 0 : Int)) + ((p.timeAt 2 : Int) - (dep : Int))) * 10 ^ 12) (2 * two48)).toNat : Nat) ∧
      (d.cfPort port).arrived = none ∧
      (port = e.n0 Ix.cfTimeParent → d.cf.samples = e.cf.samples + 1 ∧ d.cf.theta = e.cf.theta + (((arr : Int) - (p.timeAt 0 : Int)) -
        ((p.timeAt 2 : Int) - (dep : Int)) - psUnits (e.rd Ix.cfPortAsym (port + 1) 0 - ofTwos 32 (p.word 4)))) ∧
      (port ≠ e.n0 Ix.cfTimeParent → d.cf.samples = e.cf.samples ∧ d.cf.theta = e.cf.theta)) ∧
  (∀ t ppb s e avg, e = s.dev.at t → e.joined = true → e.n0 Ix.cfTimeParent < 4 → e.n0 Ix.cfTimeAvg ≤ e.cf.samples → ppb.natAbs ≤ 100 → avg = e.thetaPs →
    avg ≠ 0 → avg.natAbs < e.n0 Ix.cfTimeStep →
    Completes (.timeOffsetAverage t ppb) t s (.cf :: .tb :: .im :: eventParts)
      (Ix.cfTimeOffset :: Ix.cfFreqOffset :: Ix.tbTimeState :: Ix.tbSlewPs :: eventPlaces) fun d =>
      d.cf = { e.cf with theta := 0, samples := 0 } ∧ d.rd Ix.cfTimeOffset 0 0 = normTy (typeOf Ix.cfTimeOffset 0) avg ∧
      d.rd Ix.cfFreqOffset 0 0 = normTy (typeOf Ix.cfFreqOffset 0) ppb ∧ d.rd Ix.tbTimeState 0 0 = 4 ∧ d.tb.slew = some (-avg, e.now)) ∧
  (∀ t ppb s e avg, e = s.dev.at t → e.n0 Ix.cfState = 3 → e.n0 Ix.cfTimeParent < 4 → 16 ≤ e.cf.samples → e.cf.joinStep = false → avg = e.thetaPs →
    Completes (.timeOffsetAverage t ppb) t s [.cf, .tb] [Ix.cfTimeOffset] fun d =>
      d.cf = { e.cf with theta := 0, samples := 0, joinStep := true } ∧
      d.tb = { e.tb with step := some ((match e.tb.step with | some x => x.1 | none => 0) + -avg, 4),
                         stepDue := e.tickAhead }) ∧
  (∀ t port w0 w1 body s e p, e = s.dev.at t → port < 4 → pktOf w0 w1 body = some p → p.kind = 0x12 → e.portState port = 3 → p.origin ≠ e.slotIdent →
    e.cf.suspended = false → e.joined = true →
    Completes (.stepNoticeReceive t port w0 w1 body) t s [.cf, .tb] [] fun d =>
      d.tb = { e.tb with step := some ((match e.tb.step with | some x => x.1 | none => 0) + ofTwos 48 (p.word 0), 4),
                         stepDue := if e.time96 < p.timeAt 1 then p.timeAt 1 else tickAt (e.time96 + 1), notified := true })

/-- R372, R373, R391 and R392: joining, leaving and preparing a slot. A join inserts the arrays; the first module, or one that has stepped to system time, has joined;
a leave is announced and releases the arrays 50 µs later; a slot that nothing reaches is routed round until it is released or its preparation lapses; each command is
rejected in the wrong state. -/
def Obligations.JoiningLeavingPreparing : Prop :=
  (∀ t path s e, e = s.dev.at t → e.reaches path Ix.cfCmd → e.fullService = true → (e.n0 Ix.cfState = 0 ∨ e.n0 Ix.cfState = 6) → e.n0 Ix.tbTimeSrc = 3 →
    e.mayDrive = true → (∀ k < 2, e.nI Ix.hwBypassForce k ≠ 1 ∧ (e.nI Ix.hwBypassState k = 0 ∨ e.nI Ix.hwBypassState k = 3)) →
    Completes (.cfJoin t path) t s (.hw :: .cf :: requestParts) (Ix.hwBypassState :: Ix.cfState :: requestPlaces) fun d =>
      d.rd Ix.cfState 0 0 = 1 ∧ d.rd Ix.hwBypassState 1 0 = 1 ∧ d.rd Ix.hwBypassState 2 0 = 1 ∧ d.hw.driven.get false 0 = true ∧
      d.hw.driven.get false 1 = true) ∧
  (∀ t path s e, e = s.dev.at t → e.reaches path Ix.cfCmd → 1 ≤ path ∧ path ≤ 4 → e.fullService = true → e.n0 Ix.cfState ≠ 0 → e.n0 Ix.cfState ≠ 6 →
    Completes (.cfJoin t path) t s requestParts requestPlaces fun d => d.reports path Code.cfState) ∧
  (∀ t path s e, e = s.dev.at t → e.reaches path Ix.cfCmd → 1 ≤ path ∧ path ≤ 4 → e.fullService = true → e.n0 Ix.cfState = 0 → e.n0 Ix.tbTimeSrc ≠ 3 →
    Completes (.cfJoin t path) t s requestParts requestPlaces fun d => d.reports path Code.cfTimeSrc) ∧
  (∀ t s e, e = s.dev.at t → e.n0 Ix.cfState = 0 → e.boot.autoJoin = 1 → e.service ≠ 0 → e.n0 Ix.tbTimeSrc = 3 → e.mayDrive = true →
    e.boot.autoDone = false → e.n0 Ix.pwrState = 3 → e.pwr.entering = none →
    (∀ k < 2, e.nI Ix.hwBypassForce k ≠ 1 ∧ (e.nI Ix.hwBypassState k = 0 ∨ e.nI Ix.hwBypassState k = 3)) →
    Completes (.autoJoinStart t) t s [.boot, .hw, .cf] [Ix.hwBypassState, Ix.cfState, Ix.modBringup] fun d => d.boot = { e.boot with autoDone := true } ∧
      d.rd Ix.cfState 0 0 = 1 ∧ d.rd Ix.hwBypassState 1 0 = 1 ∧ d.rd Ix.hwBypassState 2 0 = 1) ∧
  (∀ t s e, e = s.dev.at t → e.n0 Ix.cfState = 0 → e.boot.autoJoin = 1 → e.service ≠ 0 → e.n0 Ix.tbTimeSrc ≠ 3 → e.cf.blocked = false →
    e.boot.autoDone = false → e.n0 Ix.pwrState = 3 → e.pwr.entering = none → e.sup.emergencies.length < 32 →
    Completes (.autoJoinStart t) t s (.boot :: .cf :: codeParts) (Ix.modBringup :: codePlaces) fun d =>
      d.boot = { e.boot with autoDone := true } ∧ d.cf = { e.cf with blocked := true } ∧ d.reports 4 Code.cfTimeSrc) ∧
  (∀ t s e, e = s.dev.at t → (e.n0 Ix.cfState = 1 ∨ e.n0 Ix.cfState = 2 ∨ e.n0 Ix.cfState = 3) →
    Completes (.joinComplete t false) t s [] [Ix.cfState] fun d => d.rd Ix.cfState 0 0 = 6) ∧
  (∀ t s e, e = s.dev.at t → (e.n0 Ix.cfState = 2 ∨ e.n0 Ix.cfState = 3) → e.cf.key = none → (e.cfDist e.slotIdent).length = 1 → e.fullService = true →
    Completes (.joinComplete t true) t s mapParts (Ix.cfState :: Ix.modBringup :: mapPlaces) fun d =>
      d.rd Ix.cfState 0 0 = 4 ∧ d.cf.floodDue = true ∧ bitOf (d.n0 Ix.modBringup) 12 = true) ∧
  (∀ t path s e, e = s.dev.at t → e.reaches path Ix.cfCmd → e.fullService = true → e.n0 Ix.cfState ≠ 5 →
    (e.nI Ix.hwBypassState 0 = 1 ∨ e.nI Ix.hwBypassState 0 = 2) → e.cf.leaveAt = none →
    Completes (.cfLeave t path) t s (.cf :: .out :: requestParts) (eventPlaces ++ requestPlaces) fun d => d.cf.leaveAt = some e.now) ∧
  (∀ t path s e, e = s.dev.at t → e.reaches path Ix.cfCmd → 1 ≤ path ∧ path ≤ 4 → e.fullService = true → e.n0 Ix.cfState = 5 → e.sup.emergencies.length < 32 →
    Completes (.cfLeave t path) t s requestParts requestPlaces fun d => d.reports path Code.alreadyDone) ∧
  (∀ t s e w, e = s.dev.at t → e.cf.leaveAt = some w → w + us 50 ≤ e.now →
    Completes (.cfLeaveRelease t) t s (.hw :: mapParts) (Ix.hwBypassState :: Ix.cfState :: mapPlaces) fun d =>
      d.rd Ix.cfState 0 0 = 5 ∧ d.hw.driven.get false 0 = false ∧ d.hw.driven.get false 1 = false ∧ d.cf.leaveAt = none ∧ d.cf.nodes = [] ∧
      d.cf.key = none ∧ d.cf.fires = []) ∧
  (∀ t path s e slot n, e = s.dev.at t → e.reaches path Ix.cfCmd → e.joined = true → slot = e.n0 Ix.cfCmdSlot → slot ≠ e.slotIdent →
    e.cf.nodes.find? slot = some n → (e.cfDist e.slotIdent).find? slot = none → e.cf.avoided = [] → e.cf.prepared = [] →
    Completes (.cfPrepareSlot t path) t s (.cf :: .out :: requestParts) (mapPlaces ++ requestPlaces) fun d =>
      d.rd Ix.cfPrepareState 0 0 = 2 ∧ d.cf.prepared = [(slot, e.now)] ∧ d.cf.avoided = [slot]) ∧
  (∀ t path s e slot, e = s.dev.at t → e.reaches path Ix.cfCmd → 1 ≤ path ∧ path ≤ 4 → e.joined = true → slot = e.n0 Ix.cfCmdSlot → slot ≠ e.slotIdent →
    e.cf.nodes.find? slot = none →
    Completes (.cfPrepareSlot t path) t s requestParts requestPlaces fun d => d.reports path Code.cfSlotUnknown) ∧
  (∀ t path s e slot w, e = s.dev.at t → e.reaches path Ix.cfCmd → e.joined = true → slot = e.n0 Ix.cfCmdSlot → e.cf.prepared = [(slot, w)] → e.cf.avoided = [slot] →
    Completes (.cfReleaseSlot t path) t s (.cf :: .out :: requestParts) (mapPlaces ++ requestPlaces) fun d =>
      d.rd Ix.cfPrepareState 0 0 = 0 ∧ d.cf.prepared = [] ∧ d.cf.avoided = []) ∧
  (∀ t path s e, e = s.dev.at t → e.reaches path Ix.cfCmd → 1 ≤ path ∧ path ≤ 4 → e.joined = true → e.cf.prepared = [] →
    Completes (.cfReleaseSlot t path) t s requestParts requestPlaces fun d => d.reports path Code.cfState) ∧
  (∀ t slot s e w, e = s.dev.at t → e.cf.prepared = [(slot, w)] → e.cf.avoided = [slot] → w + 120 * sec ≤ e.now → e.sup.emergencies.length < 32 →
    Completes (.prepareLapse t slot) t s (.cf :: .out :: codeParts) (mapPlaces ++ codePlaces) fun d =>
      d.rd Ix.cfPrepareState 0 0 = 3 ∧ d.cf.prepared = [] ∧ d.cf.avoided = [] ∧ d.reports 4 Code.cfPrepareLapsed)

/-- R381, R382 and R384: broadcasts. Up to two waiting fires of a scope leave in one packet; a trigger packet counts what it carries, and what its sequence or its
sender says is lost; an event packet is written into the event stream, where a leaving module leaves the map and a prepared slot the routes. -/
def Obligations.BroadcastsAndEventPackets : Prop :=
  (∀ t s e l, e = s.dev.at t → l = (e.cf.fires.filter (fun f => f.scope == 0)).take 2 → l ≠ [] → e.joined = true → e.cf.suspended = false →
    e.cf.courseAt = none →
    Completes (.bcastOriginate t 0) t s [.cf, .ctr] [Ix.cfBcastSent, Ix.cfBcastWaited] fun d =>
      d.cf.courseAt = some e.now ∧ d.cf.fires = e.cf.fires.filter (fun g => !l.contains g) ∧ e.counted d Ix.cfBcastSent 0 0 l.length) ∧
  (∀ t s e w, e = s.dev.at t → e.cf.courseAt = some w → e.now < w + ns 500 → Completes (.bcastOriginate t 0) t s [] [] fun _ => True) ∧
  (∀ t s e l, e = s.dev.at t → l = (e.cf.fires.filter (fun f => f.scope == 1)).take 2 → l ≠ [] → e.joined = true → e.cf.suspended = false →
    e.time96 * 1000000 / two48 % 16 = e.slotIdent % 32 % 16 →
    Completes (.bcastOriginate t 1) t s [.cf, .ctr] [Ix.cfBcastSent, Ix.cfBcastWaited] fun d =>
      d.cf.courseAt = e.cf.courseAt ∧ d.cf.fires = e.cf.fires.filter (fun g => !l.contains g) ∧ e.counted d Ix.cfBcastSent 0 0 l.length) ∧
  (∀ t port w0 w1 body s e p, e = s.dev.at t → port < 4 → pktOf w0 w1 body = some p → p.kind = 0x20 → e.portState port = 3 → p.origin ≠ e.slotIdent →
    e.cf.suspended = false → body.length = 16 → e.cf.heard.find? p.origin = none → p.word 1 / two48 % 65536 = 0 → (∀ c < 64, e.nI Ix.trgCondType c ≠ 0x30) →
    Completes (.triggerPacketReceive t port w0 w1 body) t s [.cf, .ctr] [Ix.cfBcastReceived] fun d =>
      e.counted d Ix.cfBcastReceived 0 0 1 ∧ d.cf.heard.find? p.origin = some ((p.seq + 1) % 2 ^ 24)) ∧
  (∀ t port w0 w1 body s e p x, e = s.dev.at t → port < 4 → pktOf w0 w1 body = some p → p.kind = 0x20 → e.portState port = 3 → p.origin ≠ e.slotIdent →
    e.cf.suspended = false → body.length = 16 → e.cf.heard.find? p.origin = some x → p.word 1 / two48 % 65536 = 0 →
    0 < (p.seq + 2 ^ 24 - x) % 2 ^ 24 → (p.seq + 2 ^ 24 - x) % 2 ^ 24 < 2 ^ 23 → (∀ c < 64, e.nI Ix.trgCondType c ≠ 0x30) →
    Completes (.triggerPacketReceive t port w0 w1 body) t s [.cf, .out, .ctr] (Ix.cfBcastReceived :: Ix.cfBcastLost :: eventPlaces) fun d =>
      e.counted d Ix.cfBcastReceived 0 0 1 ∧ e.counted d Ix.cfBcastLost 0 0 ((p.seq + 2 ^ 24 - x) % 2 ^ 24)) ∧
  (∀ t port w0 w1 body s e p c, e = s.dev.at t → port < 4 → pktOf w0 w1 body = some p → p.kind = 0x20 → e.portState port = 3 → p.origin ≠ e.slotIdent →
    e.cf.suspended = false → body.length = 16 → e.cf.heard.find? p.origin = none → p.word 1 / two48 % 65536 = 0 → c < 64 → e.nI Ix.trgCondType c = 0x30 →
    e.nI Ix.trgCondSrc c = p.word 0 / 2 ^ 56 % 256 → e.nI Ix.trgCondRemoteMod c = 0xFFFF → (∀ b < 64, b ≠ c → e.nI Ix.trgCondType b ≠ 0x30) →
    (∀ k < 16, e.nI Ix.trgChainStages k = 0) → e.mayEmit c (p.word 0 % two48 * two48 + p.word 1 % two48) →
    Completes (.triggerPacketReceive t port w0 w1 body) t s [.cf, .trg, .out, .ctr] (Ix.cfBcastReceived :: Ix.trgCondEvents :: eventPlaces) fun d =>
      e.occurs d c (p.word 0 % two48 * two48 + p.word 1 % two48)) ∧
  (∀ t port w0 w1 body s e p, e = s.dev.at t → port < 4 → pktOf w0 w1 body = some p → p.kind = 0x21 → e.portState port = 3 → p.origin ≠ e.slotIdent →
    e.cf.suspended = false → p.word 0 / 2 ^ 56 % 256 = 0x02 →
    Completes (.eventPacketReceive t port w0 w1 body) t s [.cf, .drawn, .out, .ctr] eventPlaces fun d => d.drawn = e.drawn + 1) ∧
  (∀ t port w0 w1 body s e p, e = s.dev.at t → port < 4 → pktOf w0 w1 body = some p → p.kind = 0x21 → e.portState port = 3 → p.origin ≠ e.slotIdent →
    e.cf.suspended = false → p.word 0 / 2 ^ 56 % 256 = 0x06 →
    Completes (.eventPacketReceive t port w0 w1 body) t s mapParts mapPlaces fun d =>
      (d.cf.nodes.get {} (p.word 0 % two48 % 1024)).left = true ∧ e.counted d Ix.cfTopologySeq 0 0 1)

/-- R385, R386 and R387: requests to and from other modules, and the data class. A request leaves and waits for its response, which ends it, or for its timeout; a request of
another module is answered; what is acknowledged is released, what is not is sent again after 20 µs, and a destination out of reach too long loses its rings and its copy. -/
def Obligations.FabricRequestsAndData : Prop :=
  (∀ t path s e slot, e = s.dev.at t → e.reaches path Ix.cfRdaCmd → e.fullService = true → e.n0 Ix.cfRdaState ≠ 1 → slot = e.n0 Ix.cfRdaSlot % 1024 →
    Completes (.rdaRead t path) t s (.cf :: requestParts) (Ix.cfRdaState :: requestPlaces) fun d =>
      d.rd Ix.cfRdaState 0 0 = 1 ∧ d.cf.rda = some (slot, e.cf.txn, e.now) ∧
      ∀ k, e.cfRoute slot = some k → ∃ p, d.cf.sent = e.cf.sent ++ [(k, p)] ∧ p.kind = 0x40 ∧ p.dest = slot ∧ p.seq = e.cf.txn) ∧
  (∀ t path s e slot, e = s.dev.at t → e.reaches path Ix.cfRdaCmd → e.fullService = true → e.n0 Ix.cfRdaState ≠ 1 → slot = e.n0 Ix.cfRdaSlot % 1024 →
    Completes (.rdaWrite t path) t s (.cf :: requestParts) (Ix.cfRdaState :: requestPlaces) fun d =>
      d.rd Ix.cfRdaState 0 0 = 1 ∧ d.cf.rda = some (slot, e.cf.txn, e.now) ∧
      ∀ k, e.cfRoute slot = some k → ∃ p, d.cf.sent = e.cf.sent ++ [(k, p)] ∧ p.kind = 0x41 ∧ p.dest = slot ∧ p.seq = e.cf.txn) ∧
  (∀ t path s e, e = s.dev.at t → e.reaches path Ix.cfRdaCmd → 1 ≤ path ∧ path ≤ 4 → e.fullService = true → e.n0 Ix.cfRdaState = 1 →
    Completes (.rdaRead t path) t s requestParts requestPlaces (fun d => d.reports path Code.cfState) ∧
    Completes (.rdaWrite t path) t s requestParts requestPlaces (fun d => d.reports path Code.cfState)) ∧
  (∀ t port w0 w1 body s e p slot w c, e = s.dev.at t → port < 4 → pktOf w0 w1 body = some p → p.kind = 0x42 → e.portState port = 3 → p.origin ≠ e.slotIdent →
    e.cf.suspended = false → p.dest = e.slotIdent → e.cf.rda = some (slot, p.seq, w) → p.origin = slot → c = p.word 0 / 2 ^ 32 % 2 ^ 32 →
    Completes (.rdaResponse t port w0 w1 body) t s [.cf, .long] [Ix.cfRdaState, Ix.cfRdaAbort] fun d =>
      d.cf = { e.cf with rda := none } ∧ d.rd Ix.cfRdaState 0 0 = (if c = 0 then 2 else 3) ∧
      d.rd Ix.cfRdaAbort 0 0 = (if c = 0 ∧ bitOf (p.word 0) 31 = true then 2 ^ 31 else (c : Int)) ∧
      d.long.get [] (ekey Ix.cfRdaData 0 0) = (body.drop 8).take (p.word 0 % 65536)) ∧
  (∀ t s e slot n w, e = s.dev.at t → e.cf.rda = some (slot, n, w) → w + us (e.n0 Ix.cfRdaTimeout) ≤ e.now → e.sup.emergencies.length < 32 →
    Completes (.rdaTimeout t) t s (.cf :: codeParts) (Ix.cfRdaState :: codePlaces) fun d =>
      d.cf = { e.cf with rda := none } ∧ d.rd Ix.cfRdaState 0 0 = 3 ∧ d.reports 4 Code.cfRdaTimeout) ∧
  (∀ t port w0 w1 body o s e p ix sub, e = s.dev.at t → port < 4 → pktOf w0 w1 body = some p → p.kind = 0x40 → e.portState port = 3 → p.origin ≠ e.slotIdent →
    e.cf.suspended = false → e.fullService = true → p.dest = e.slotIdent → e.sup.running = true → ix = bitsOf 31 16 (p.word 0) → sub = bitsOf 15 8 (p.word 0) →
    e.readRefusal ix sub false = none → ix ≠ Ix.dictBulkWord →
    Completes (.fabricDictRequest t port w0 w1 body o) t s [.cf, .ctr] [Ix.dictRequests] fun d =>
      e.counted d Ix.dictRequests 3 0 1 ∧ (∀ k, e.cfRoute p.origin = some k → ∃ q, d.cf.sent = e.cf.sent ++ [(k, q)] ∧ q.kind = 0x42 ∧
        q.dest = p.origin ∧ q.seq = p.seq ∧ q.body.drop 8 = e.readBytes 3 ix sub)) ∧
  (∀ t port w0 w1 body o s e p ix sub, e = s.dev.at t → port < 4 → pktOf w0 w1 body = some p → p.kind = 0x40 → e.portState port = 3 → p.origin ≠ e.slotIdent →
    e.cf.suspended = false → e.fullService = true → p.dest = e.slotIdent → e.sup.running = true → ix = bitsOf 31 16 (p.word 0) → sub = bitsOf 15 8 (p.word 0) →
    indexExists ix = false → rowOf ix sub = none →
    Completes (.fabricDictRequest t port w0 w1 body o) t s (.cf :: codeParts) (Ix.dictRejections :: codePlaces) fun d => d.reports 3 Code.noEntry) ∧
  (∀ t port w0 w1 body lens lost s e p, e = s.dev.at t → port < 4 → pktOf w0 w1 body = some p → p.kind = 0x52 → e.portState port = 3 → p.origin ≠ e.slotIdent →
    e.cf.suspended = false → e.fullService = true → p.dest = e.slotIdent → p.seq ≠ (e.cf.rx.get {} p.origin).expect → (e.cf.rx.get {} p.origin).expect ≠ 0 →
    CompletesMem (.fabricDataReceive t port w0 w1 body lens lost) t s [.cf, .ctr] [Ix.cfPortBytes] fun m d =>
      m = s.mem ∧ d.cf = { e.cf with sent := d.cf.sent, ports := d.cf.ports } ∧ ∀ k, e.cfRoute p.origin = some k → ∃ q, d.cf.sent = e.cf.sent ++ [(k, q)] ∧ q.kind = 0x53) ∧
  (∀ t port w0 w1 body lens lost s e p dst len data a, e = s.dev.at t → port < 4 → pktOf w0 w1 body = some p → p.kind = 0x52 → e.portState port = 3 →
    p.origin ≠ e.slotIdent → e.cf.suspended = false → e.fullService = true → p.dest = e.slotIdent → p.seq = (e.cf.rx.get {} p.origin).expect →
    e.cf.copy = some (p.origin, dst, len) → data = p.body.drop 8 → a = p.word 0 % two48 → len ≤ e.n0 Ix.cfCopyDone + data.length →
    e.n0 Ix.cfCopyDone + data.length < two48 →
    CompletesMem (.fabricDataReceive t port w0 w1 body lens lost) t s [.cf, .cap, .ctr]
      [Ix.capPortBytes, Ix.cfCopyDone, Ix.cfCopyLost, Ix.cfCopyState, Ix.cfPortBytes] fun m d =>
      (∀ b, memRead m b = if a ≤ b ∧ b < a + data.length ∧ (e.allocAt b).isSome = true ∧ e.inService (e.chanOf b) = true
        then data.getD (b - a) 0#8 else memRead s.mem b) ∧
      e.counted d Ix.cfCopyDone 0 0 data.length ∧ e.counted d Ix.cfCopyLost 0 0 lost ∧ d.cf.copy = none ∧ d.rd Ix.cfCopyState 0 0 = 2 ∧
      (d.cf.rx.get {} p.origin).expect = ((e.cf.rx.get {} p.origin).expect + 1) % 2 ^ 24) ∧
  (∀ t port w0 w1 body s e p x, e = s.dev.at t → port < 4 → pktOf w0 w1 body = some p → p.kind = 0x53 → e.portState port = 3 → e.cf.suspended = false →
    p.dest = e.slotIdent → x = e.cf.tx.get {} p.origin → (∀ g ∈ x.unacked, g.frees = none) →
    CompletesMem (.fabricAckReceive t port w0 w1 body) t s [.cf] [] fun m d =>
      m = s.mem ∧ d.cf = { e.cf with tx := d.cf.tx, ports := d.cf.ports } ∧ (d.cf.tx.get {} p.origin).next = x.next ∧
      (d.cf.tx.get {} p.origin).unacked = x.unacked.filter (fun g => !decide ((p.word 0 % 2 ^ 24 + 2 ^ 24 - g.pkt.seq) % 2 ^ 24 < 2 ^ 23))) ∧
  (∀ t dest s e l, e = s.dev.at t → dest < 1024 → l = (e.cf.tx.get {} dest).unacked.filter (fun g => decide (g.sent + us 20 ≤ e.now)) → l ≠ [] →
    e.remoteJoined dest = true →
    Completes (.fabricRetransmit t dest) t s [.cf, .ctr] [Ix.cfRetransmits, Ix.cfPortBytes] fun d =>
      e.counted d Ix.cfRetransmits 0 0 l.length ∧ (d.cf.tx.get {} dest).unacked = (e.cf.tx.get {} dest).unacked.map
        (fun g => if g.sent + us 20 ≤ e.now then { g with sent := e.now } else g)) ∧
  (∀ t dest s e, e = s.dev.at t → dest < 1024 → (∀ g ∈ (e.cf.tx.get {} dest).unacked, e.now < g.sent + us 20) →
    Completes (.fabricRetransmit t dest) t s [] [] fun _ => True) ∧
  (∀ t dest s e x w c, e = s.dev.at t → dest < 1024 → e.remoteJoined dest = false → e.cf.tx.find? dest = some x → x.gone = some w →
    w + us (e.n0 Ix.cfDataTimeout) ≤ e.now → e.cf.copy = some c → c.1 = dest → e.sup.emergencies.length < 32 →
    Completes (.destinationUnreachable t dest) t s (.cf :: .str :: codeParts) (Ix.cfCopyState :: Ix.strRingState :: codePlaces) fun d =>
      d.reports 4 Code.cfUnreachable ∧ d.cf.copy = none ∧ d.rd Ix.cfCopyState 0 0 = 3 ∧
      ∀ r ∈ e.str.rings.map (fun p => p.1), e.nW Ix.strRingTarget r = 3 → e.nW Ix.strRingBase r / 2 ^ 32 % 1024 = dest → e.ringState r = 1 → d.ringState r = 4)

/-- R388: copies from another module. A copy asks for its bytes and runs until they have all come; one that is badly sized, to a module that is not there, or while another
runs is refused; an abort leaves it idle. -/
def Obligations.RemoteCopies : Prop :=
  (∀ t path s e slot, e = s.dev.at t → e.reaches path Ix.cfCopyCmd → e.fullService = true → e.n0 Ix.cfCopyState ≠ 1 → e.joined = true →
    slot = e.n0 Ix.cfCopySlot → e.n0 Ix.cfCopyLen % 64 = 0 → e.n0 Ix.cfCopyLen ≠ 0 → e.remoteJoined slot = true →
    Completes (.copyStart t path) t s (.cf :: requestParts) (Ix.cfCopyState :: Ix.cfCopyDone :: Ix.cfCopyLost :: Ix.cfPortBytes :: requestPlaces) fun d =>
      d.rd Ix.cfCopyState 0 0 = 1 ∧ d.rd Ix.cfCopyDone 0 0 = 0 ∧ d.rd Ix.cfCopyLost 0 0 = 0 ∧
      d.cf.copy = some (slot, e.n0 Ix.cfCopyDst, e.n0 Ix.cfCopyLen) ∧
      ∃ g, (d.cf.tx.get {} slot).unacked = (e.cf.tx.get {} slot).unacked ++ [g] ∧ g.pkt.kind = 0x51 ∧ g.sent = e.now ∧
        g.pkt.body = wordsBody [e.n0 Ix.cfCopySrc, e.n0 Ix.cfCopyLen]) ∧
  (∀ t path s e, e = s.dev.at t → e.reaches path Ix.cfCopyCmd → 1 ≤ path ∧ path ≤ 4 → e.fullService = true → (e.n0 Ix.cfCopyState = 1 ∨ e.joined = false) →
    Completes (.copyStart t path) t s requestParts requestPlaces fun d => d.reports path Code.cfState) ∧
  (∀ t path s e, e = s.dev.at t → e.reaches path Ix.cfCopyCmd → 1 ≤ path ∧ path ≤ 4 → e.n0 Ix.cfCopyState ≠ 1 → e.joined = true →
    e.n0 Ix.cfCopyLen % 64 ≠ 0 →
    Completes (.copyStart t path) t s requestParts requestPlaces fun d => d.reports path Code.valueRange) ∧
  (∀ t path s e, e = s.dev.at t → e.reaches path Ix.cfCopyCmd → 1 ≤ path ∧ path ≤ 4 → e.n0 Ix.cfCopyState ≠ 1 → e.joined = true →
    e.n0 Ix.cfCopyLen % 64 = 0 → e.remoteJoined (e.n0 Ix.cfCopySlot) = false →
    Completes (.copyStart t path) t s requestParts requestPlaces fun d => d.reports path Code.cfSlotUnknown) ∧
  (∀ t path s e c, e = s.dev.at t → e.reaches path Ix.cfCopyCmd → e.cf.copy = some c →
    Completes (.copyAbort t path) t s (.cf :: requestParts) (Ix.cfCopyState :: requestPlaces) fun d =>
      d.rd Ix.cfCopyState 0 0 = 0 ∧ d.cf = { e.cf with copy := none }) ∧
  (∀ t path s e, e = s.dev.at t → e.reaches path Ix.cfCopyCmd → 1 ≤ path ∧ path ≤ 4 → e.cf.copy = none → e.sup.emergencies.length < 32 →
    Completes (.copyAbort t path) t s requestParts requestPlaces fun d => d.reports path Code.alreadyDone)

/-- R399 to R405, R411 and R412: a write of an entry. An entry that takes effect at a cut joins the staged set; a live one takes the value at once, in the range of its type;
a write that fails a check (no entry, read only, out of range, any other) changes nothing but its report; a locked path may not write; a write over PCIe that finds the
Supervisor away waits; the bulk window assembles long values. -/
def Obligations.EntryWrites : Prop :=
  (∀ t path ix sub v o s e r, e = s.dev.at t → e.reaches path ix → rowOf ix sub = some r → r.effect = .cut → e.writeRefusal path ix sub v = none →
    ix ≠ Ix.dictBulkWord → ix ≠ Ix.dictBulkLen → entryCommand t path ix sub v o s = none → (e.fullService = true ∨ withheldIx ix = false) →
    Completes (.entryWrite t path ix sub v o) t s (.cut :: requestParts) (Ix.modCutState :: requestPlaces) fun d =>
      d.cut = { e.cut with staged := putWrite ⟨ix, sub, e.instOf path ix, normTy r.ty v⟩ e.cut.staged } ∧
      (e.cutWaiting = false → d.rd Ix.modCutState 0 0 = 1)) ∧
  (∀ t path ix sub v o s e r, e = s.dev.at t → e.reaches path ix → rowOf ix sub = some r → r.effect = .now → e.writeRefusal path ix sub v = none →
    ix ∉ [0x1003, Ix.hwBypassForce, Ix.modChangeoverAuto, Ix.itkRelink, Ix.calTrimCode, Ix.imChanEnable, Ix.dictBulkSel, Ix.dictBulkOff, Ix.dictBulkWord,
      Ix.dictBulkLen, Ix.strRingCi] →
    entryCommand t path ix sub v o s = none → (e.shadowed ix = false ∨ isPathEntry ix = true) → (e.hw.pwrGood = true) →
    Completes (.entryWrite t path ix sub v o) t s requestParts (ix :: requestPlaces) fun d =>
      d.rd ix sub (e.instOf path ix) = normTy (typeOf ix sub) v) ∧
  (∀ t path ix sub v o s e r, e = s.dev.at t → e.sup.running = true → e.pathOpen path = true → 1 ≤ path ∧ path ≤ 4 → rowOf ix sub = some r → r.access = .ro →
    Completes (.entryWrite t path ix sub v o) t s (.sup :: codeParts) (Ix.dictRejections :: codePlaces) fun d => d.reports path Code.accessReadOnly) ∧
  (∀ t path ix sub v o s e, e = s.dev.at t → e.sup.running = true → e.pathOpen path = true → 1 ≤ path ∧ path ≤ 4 → rowOf ix sub = none → indexExists ix = false →
    Completes (.entryWrite t path ix sub v o) t s (.sup :: codeParts) (Ix.dictRejections :: codePlaces) fun d => d.reports path Code.noEntry) ∧
  (∀ t path ix sub v o s e r, e = s.dev.at t → e.sup.running = true → e.pathOpen path = true → 1 ≤ path ∧ path ≤ 4 → rowOf ix sub = some r → r.access = .rw →
    typeBytes r.ty ≠ 0 → ¬ (0x3000 ≤ ix ∧ ix < 0x3100) → ownRange ix sub v = none → (v < r.min ∨ r.max < v) → ix ≠ Ix.dictBulkWord → ix ≠ Ix.dictBulkLen →
    r.rangeCode < 2 ^ 32 → e.sup.emergencies.length < 32 →
    Completes (.entryWrite t path ix sub v o) t s (.sup :: codeParts) (Ix.dictRejections :: codePlaces) fun d => d.reports path r.rangeCode) ∧
  (∀ t path ix sub v o s e c a, e = s.dev.at t → e.sup.running = true → e.pathOpen path = true → 1 ≤ path ∧ path ≤ 4 → e.writeRefusal path ix sub v = some (c, a) →
    ix ≠ Ix.dictBulkWord → ix ≠ Ix.dictBulkLen → c < 2 ^ 32 → e.sup.emergencies.length < 32 →
    Completes (.entryWrite t path ix sub v o) t s (.sup :: codeParts) (Ix.dictRejections :: codePlaces) fun d => d.reports path c) ∧
  (∀ t path ix sub v o s e, e = s.dev.at t → e.sup.running = true → e.pathOpen path = false → 1 ≤ path ∧ path ≤ 4 → ix ≠ Ix.dictBulkWord → ix ≠ Ix.dictBulkLen →
    Completes (.entryWrite t path ix sub v o) t s (.sup :: codeParts) (Ix.dictRejections :: codePlaces) fun d => d.reports path Code.writePathLocked) ∧
  (∀ t ix sub v o s e, e = s.dev.at t → e.sup.running = false → e.sup.queued.length < 256 → ix ≠ Ix.dictBulkWord → ix ≠ Ix.dictBulkLen →
    Completes (.entryWrite t 2 ix sub v o) t s [.sup] [] fun d => d.sup = { e.sup with queued := e.sup.queued ++ [⟨ix, sub, v⟩] }) ∧
  (∀ t path value s e off, e = s.dev.at t → e.reaches path Ix.dictBulkWord → off = e.nW Ix.dictBulkOff path → off + 8 ≤ 512 →
    Completes (.bulkWordWrite t path value) t s requestParts (Ix.dictBulkOff :: requestPlaces) fun d =>
      d.sup.bulk.get [] path = placeWord (e.sup.bulk.get [] path) off (value % 2 ^ 64) ∧ d.rd Ix.dictBulkOff 0 path = (off + 8 : Nat)) ∧
  (∀ t path value s e, e = s.dev.at t → e.reaches path Ix.dictBulkWord → 1 ≤ path ∧ path ≤ 4 → 512 < e.nW Ix.dictBulkOff path + 8 →
    Completes (.bulkWordWrite t path value) t s requestParts requestPlaces fun d => d.reports path Code.bulkRange) ∧
  (∀ t path s e off, e = s.dev.at t → off = e.nW Ix.dictBulkOff path → off + 8 ≤ 512 →
    Completes (.bulkWordRead t path) t s [.sup, .ctr] [Ix.dictRequests, Ix.dictBulkOff] fun d =>
      d.rd Ix.dictBulkOff 0 path = (off + 8 : Nat) ∧ d.sup = { e.sup with answers := e.sup.answers ++
        [⟨path, Ix.dictBulkWord, 0, true, wordAt (e.sup.bulkRead.get [] path) off, 0, leBytes 8 (wordAt (e.sup.bulkRead.get [] path) off)⟩] }) ∧
  (∀ t path len s e ix sub r, e = s.dev.at t → (ix, sub) = e.bulkTarget path → e.reaches path ix → len ≤ 512 → rowOf ix sub = some r → typeBytes (typeOf ix sub) = 0 →
    r.access ≠ .ro →
    Completes (.bulkLenSubmit t path len) t s (.long :: requestParts) requestPlaces fun d => d.long.get [] (ekey ix sub 0) = e.bulkBytes path len) ∧
  (∀ t path len s e, e = s.dev.at t → e.sup.running = true → e.pathOpen path = true → 1 ≤ path ∧ path ≤ 4 → 512 < len →
    Completes (.bulkLenSubmit t path len) t s (.sup :: codeParts) (Ix.dictRejections :: codePlaces) fun d => d.reports path Code.bulkRange)

/-- R415 to R418: the slave's states, its mailbox and its process data. A transition that the master asks for is made, or refused with its AL status code; SAFE-OP brings the
mappings in force; an upload answers with the bytes of the entry or an abort; a download writes as a write of path 1 does; RxPDO values are written in their order, a
value that a cut would take only when it changed; TxPDO values are latched from one instant. -/
def Obligations.SlaveStatesMailboxAndProcessData : Prop :=
  (∀ t sm2 sm3 s e, e = s.dev.at t → e.sup.al ≠ .away → e.service ≠ 5 →
    Completes (.ecatStateRequest t 1 sm2 sm3) t s [.sup] [] fun d => d.sup = { e.sup with al := .init, alStatus := 0, alError := false, rxAt := e.now }) ∧
  (∀ t sm2 sm3 s e, e = s.dev.at t → e.sup.al ≠ .away → e.service ≠ 5 → e.sup.running = true →
    Completes (.ecatStateRequest t 2 sm2 sm3) t s [.sup] [] fun d => d.sup = { e.sup with al := .preop, alStatus := 0, alError := false, rxAt := e.now }) ∧
  (∀ t sm2 sm3 s e, e = s.dev.at t → e.sup.al ≠ .away → e.service ≠ 5 →
    Completes (.ecatStateRequest t 3 sm2 sm3) t s [.sup] [] fun d => d.sup = { e.sup with alStatus := 0x0011, alError := true }) ∧
  (∀ t sm2 sm3 s e, e = s.dev.at t → e.wakesNothing 1 → e.sup.al = .preop → e.service ≠ 5 → e.service ≠ 0 → e.sup.running = true →
    e.safeopRefusal sm2 sm3 = none → e.timeSource ≠ 2 →
    Completes (.ecatStateRequest t 4 sm2 sm3) t s [.sup] [] fun d =>
      d.sup.al = .safeop ∧ d.sup.alStatus = 0 ∧ d.sup.alError = false ∧ d.sup.rxMap = e.pdoWords true ∧ d.sup.txMap = e.pdoWords false ∧
      d.sup.cycle = (e.rd 0x1C32 2 0).toNat) ∧
  (∀ t sm2 sm3 s e c, e = s.dev.at t → e.wakesNothing 1 → e.sup.al = .preop → e.service ≠ 5 → e.service ≠ 0 → e.sup.running = true →
    e.safeopRefusal sm2 sm3 = some c →
    Completes (.ecatStateRequest t 4 sm2 sm3) t s [.sup] [] fun d => d.sup = { e.sup with alStatus := c, alError := true }) ∧
  (∀ t sm2 sm3 s e, e = s.dev.at t → e.wakesNothing 1 → e.sup.al = .safeop → e.service ≠ 5 → e.service ≠ 0 → e.sup.running = true →
    Completes (.ecatStateRequest t 8 sm2 sm3) t s [.sup] [] fun d => d.sup = { e.sup with al := .op, alStatus := 0, alError := false, rxAt := e.now }) ∧
  (∀ t ix sub s e, e = s.dev.at t → e.mailbox = true → e.sup.running = true → e.readRefusal ix sub true = none → ix ≠ Ix.dictBulkWord →
    Completes (.sdoUpload t ix sub false) t s [.sup, .ctr] [Ix.dictRequests] fun d =>
      e.counted d Ix.dictRequests 1 0 1 ∧ d.sup = { e.sup with answers := e.sup.answers ++
        [⟨1, ix, sub, true, if isLong ix sub then 0 else e.readValue 1 ix sub, 0, e.readBytes 1 ix sub⟩] }) ∧
  (∀ t ix sub s e c a, e = s.dev.at t → e.mailbox = true → e.sup.running = true → e.readRefusal ix sub true = some (c, a) → e.sup.emergencies.length < 32 →
    Completes (.sdoUpload t ix sub false) t s codeParts (Ix.dictRejections :: codePlaces) fun d =>
      d.reports 1 c ∧ d.sup.answers = e.sup.answers ++ [⟨1, ix, sub, false, 0, a, []⟩]) ∧
  (∀ t ix sub data o s e r, e = s.dev.at t → e.mailbox = true → e.wakesNothing 1 → e.sup.running = true → e.pathOpen 1 = true →
    rowOf ix sub = some r → r.access = .ro → typeBytes (typeOf ix sub) ≠ 0 → data.length = typeBytes (typeOf ix sub) → e.rd Ix.dictRejections 1 0 = 0 →
    Completes (.sdoDownload t ix sub false data o) t s codeParts (Ix.dictRejections :: codePlaces) fun d =>
      d.reports 1 Code.accessReadOnly ∧ d.sup.answers = e.sup.answers ++ [⟨1, ix, sub, false, 0, 0x06010002, []⟩]) ∧
  (∀ t ix sub data o s e r, e = s.dev.at t → e.mailbox = true → e.wakesNothing 1 → e.reaches 1 ix → rowOf ix sub = some r → r.effect = .cut →
    typeBytes (typeOf ix sub) ≠ 0 → data.length = typeBytes (typeOf ix sub) → e.writeRefusal 1 ix sub (fixedValue (typeOf ix sub) data) = none →
    ix ≠ Ix.dictBulkWord → ix ≠ Ix.dictBulkLen → ix ≠ Ix.modCutCommit → entryCommand t 1 ix sub (fixedValue (typeOf ix sub) data) o { s with dev := e } = none →
    e.fullService = true →
    Completes (.sdoDownload t ix sub false data o) t s (.cut :: requestParts) (Ix.modCutState :: requestPlaces) fun d =>
      d.cut.staged = putWrite ⟨ix, sub, e.instOf 1 ix, normTy r.ty (fixedValue (typeOf ix sub) data)⟩ e.cut.staged ∧
      d.sup.answers = e.sup.answers ++ [⟨1, ix, sub, true, 0, 0, []⟩]) ∧
  (∀ t s e, e = s.dev.at t → e.mailbox = true → e.sup.running = true →
    Completes (.sdoInfo t 3 0x1018 1) t s [.sup, .ctr] [Ix.dictRequests] fun d =>
      d.sup = { e.sup with answers := e.sup.answers ++
        [⟨1, 0x1018, 1, true, 0, 0, leBytes 2 7 ++ leBytes 2 32 ++ leBytes 1 0 ++ nameBytes "Vendor ID"⟩] }) ∧
  (∀ t ix sub s e, e = s.dev.at t → e.mailbox = true → e.sup.running = true → indexExists ix = false →
    Completes (.sdoInfo t 3 ix sub) t s codeParts (Ix.dictRejections :: codePlaces) fun d =>
      d.reports 1 Code.noEntry ∧ d.sup.answers = e.sup.answers ++ [⟨1, ix, sub, false, 0, 0x06020000, []⟩]) ∧
  (∀ t outputs s e w, e = s.dev.at t → (e.sup.al = .safeop ∨ e.sup.al = .op) → e.sup.txMap = [w] → w / 65536 ≠ Ix.dictBulkWord → e.rd 0x1C32 1 0 ≠ 2 →
    Completes (.pdoCycle t false true outputs) t s [.sup] [] fun d => d.sup = { e.sup with txImage := [e.readValue 1 (w / 65536) (w / 256 % 256)] }) ∧
  (∀ t outputs s e w, e = s.dev.at t → e.wakesNothing 1 → e.sup.al = .safeop → e.sup.txMap = [w] → w / 65536 ≠ Ix.dictBulkWord → e.rd 0x1C32 1 0 = 2 →
    Completes (.pdoCycle t false false outputs) t s [.sup] [] fun d =>
      d.sup = { e.sup with txImage := [e.readValue 1 (w / 65536) (w / 256 % 256)], rxAt := e.now }) ∧
  (∀ t outputs s e w r v, e = s.dev.at t → e.wakesNothing 1 → e.sup.al = .op → e.rd 0x1C32 1 0 ≠ 2 → e.sup.rxMap = [w] → outputs.length = w % 256 / 8 →
    rowOf (w / 65536) (w / 256 % 256) = some r → r.effect = .cut → v = fixedValue (typeOf (w / 65536) (w / 256 % 256)) (outputs.take (w % 256 / 8)) →
    e.sup.rxLast.find? (ekey (w / 65536) (w / 256 % 256) 0) = some v →
    Completes (.pdoCycle t true false outputs) t s [.sup] [] fun d => d.cut = e.cut ∧ d.sup = { e.sup with rxLast := d.sup.rxLast, rxAt := e.now }) ∧
  (∀ t outputs s e w r v ix sub, e = s.dev.at t → e.wakesNothing 1 → e.sup.al = .op → e.rd 0x1C32 1 0 ≠ 2 → e.sup.rxMap = [w] → outputs.length = w % 256 / 8 →
    ix = w / 65536 → sub = w / 256 % 256 → rowOf ix sub = some r → r.effect = .cut → v = fixedValue (typeOf ix sub) (outputs.take (w % 256 / 8)) →
    e.sup.rxLast.find? (ekey ix sub 0) ≠ some v → e.reaches 1 ix → e.writeRefusal 1 ix sub v = none → ix ≠ Ix.dictBulkWord → ix ≠ Ix.dictBulkLen →
    entryCommand t 1 ix sub v {} { s with dev := { e with sup := { e.sup with rxLast := e.sup.rxLast.put (ekey ix sub 0) v } } } = none → e.fullService = true →
    Completes (.pdoCycle t true false outputs) t s (.cut :: requestParts) (Ix.modCutState :: requestPlaces) fun d =>
      d.cut.staged = putWrite ⟨ix, sub, e.instOf 1 ix, normTy r.ty v⟩ e.cut.staged ∧ d.sup.rxLast.find? (ekey ix sub 0) = some v)

/-- R419. While SM2 is enabled in OP its watchdog runs; when it expires in OP, the slave enters SAFE-OP with AL status 0x001B and its error indicator, and every value
that was applied stays: no cut is staged, committed or aborted. Outside OP an expiry does nothing. -/
def Obligations.ProcessDataWatchdog : Prop :=
  (∀ t s e, e = s.dev.at t → e.sup.al = .op → e.sup.rxAt + ms 100 ≤ e.now →
    Completes (.sm2Watchdog t) t s [.sup] [] fun d => d.sup = { e.sup with al := .safeop, alStatus := 0x001B, alError := true } ∧ d.cut = e.cut) ∧
  (∀ t s e, e = s.dev.at t → (e.sup.al ≠ .op ∨ e.now < e.sup.rxAt + ms 100) → Completes (.sm2Watchdog t) t s [] [] fun d => d.sup = e.sup)

/-- R420 to R422: emergencies, the error history and register, and files. One emergency leaves at a time, 1 ms apart; a clear empties the history; bits of the error
register whose 10 s are over clear, and an emergency of code 0 says so when none is left; an image of a file enters the slot that is not running, or is refused. -/
def Obligations.EmergenciesHistoryAndFiles : Prop :=
  (∀ t s e x rest, e = s.dev.at t → e.sup.emergencies = x :: rest → e.sup.lastSent = none → e.mailbox = true → e.sup.running = true →
    Completes (.emergencySend t) t s [.sup] [] fun d => d.sup = { e.sup with emergencies := rest, sent := e.sup.sent ++ [x], lastSent := some e.now }) ∧
  (∀ t s e w, e = s.dev.at t → e.sup.lastSent = some w → e.now < w + ms 1 → Completes (.emergencySend t) t s [] [] fun d => d.sup = e.sup) ∧
  (∀ t path s e, e = s.dev.at t → e.reaches path 0x1003 →
    Completes (.errorHistoryClear t path) t s requestParts requestPlaces fun d => ∀ k ≤ 16, d.rd 0x1003 k 0 = 0) ∧
  (∀ t s e was, e = s.dev.at t → was = e.n0 0x1001 → was ≠ 0 → was < 256 → (∀ k ∈ [1, 5, 6], bitOf was k = false) →
    (∀ k ∈ [2, 3, 4, 7], bitOf was k = true → e.errorOver k = true) → e.sup.emergencies.length < 32 →
    Completes (.errorRegisterExpiry t) t s [.sup] [0x1001] fun d =>
      d.rd 0x1001 0 0 = 0 ∧ d.sup = { e.sup with emergencies := e.sup.emergencies ++ [⟨0, 0, 0, e.n0 Ix.fltErrorCount % 256⟩] }) ∧
  (∀ t s e was, e = s.dev.at t → was = e.n0 0x1001 → was < 256 → (∀ k ∈ [2, 3, 4, 7], e.errorOver k = false) → errorReg was ≠ 0 →
    Completes (.errorRegisterExpiry t) t s [] [0x1001] fun d => d.rd 0x1001 0 0 = (errorReg was : Nat)) ∧
  (∀ t length version requires s e, e = s.dev.at t → e.service ≠ 5 → e.mailbox = true → e.sup.running = true → 0 < length → length ≤ 16777216 → e.switching = false →
    Completes (.foeWriteImage t length version requires true) t s [.boot, .sup] [Ix.modImageState, Ix.fltUpdateState, Ix.fltUpdateRequired] fun d =>
      d.rd Ix.modImageState e.otherSlot 0 = 1 ∧ d.rd Ix.fltUpdateState 0 0 = 1 ∧ d.boot.images.find? e.otherSlot = some ⟨version, length, requires⟩ ∧
      d.sup.answers = e.sup.answers ++ [⟨1, 0, 0, true, 0, 0, []⟩]) ∧
  (∀ t length version requires s e, e = s.dev.at t → e.service ≠ 5 → e.mailbox = true → e.sup.running = true → length ≤ 16777216 → e.switching = false →
    Completes (.foeWriteImage t length version requires false) t s codeParts (Ix.modImageState :: codePlaces) fun d =>
      d.rd Ix.modImageState e.otherSlot 0 = 0 ∧ d.reports 1 Code.imageInvalid ∧ d.sup.answers = e.sup.answers ++ [⟨1, 0, 0, false, 0, 0x8002, []⟩]) ∧
  (∀ t length version requires ok s e, e = s.dev.at t → e.mailbox = true → e.sup.running = true → 16777216 < length →
    Completes (.foeWriteImage t length version requires ok) t s [.sup] [] fun d =>
      d.sup.answers = e.sup.answers ++ [⟨1, 0, 0, false, 0, 0x8003, []⟩]) ∧
  (∀ t file s e, e = s.dev.at t → e.mailbox = true → e.sup.running = true →
    Completes (.foeRead t file) t s [.sup] [] fun d => d.sup = { e.sup with answers := e.sup.answers ++
      [if file < 2 then ⟨1, 0, 0, true, 0, 0, descFile file⟩
       else if file = 2 then ⟨1, 0, 0, true, 0, 0, e.flt.log.flatMap (fun x => recBytes (mkRec (logSlots x)))⟩
       else ⟨1, 0, 0, false, 0, 0x8001, []⟩] })

/-- R409, R410 and R292: the PCIe mirror. A read of 8 bytes answers with an entry's value and its status, taken at one instant; a read of 4 latches the rest; a write of the
entry's width acts as a write of path 2 does, one of a wrong width is rejected, and the lower half of a wide entry waits for the upper; a doorbell moves a ring's ci; words of the
MSI-X table are read and written. -/
def Obligations.PcieMirror : Prop :=
  (∀ t offset s e ix sub, e = s.dev.at t → e.str.linkUp = true → e.wakesNothing 2 → offset < 0x06000000 → offset % 16 = 0 → e.sup.latch = none →
    ix = offset / 4096 → sub = offset % 4096 / 16 → ix ≠ Ix.dictBulkWord →
    Completes (.bar0Read t offset 8) t s [.sup, .ctr] [Ix.dictRequests] fun d =>
      e.counted d Ix.dictRequests 2 0 1 ∧ d.sup = { e.sup with answers := e.sup.answers ++
        [⟨2, ix, sub, true, (e.mirror ix sub % 2 ^ 64 : Nat), e.statusWord ix sub, leBytes 8 (e.mirror ix sub)⟩] }) ∧
  (∀ t offset s e ix sub, e = s.dev.at t → e.str.linkUp = true → e.wakesNothing 2 → offset < 0x06000000 → offset % 16 = 0 → e.sup.latch = none →
    ix = offset / 4096 → sub = offset % 4096 / 16 → ix ≠ Ix.dictBulkWord →
    Completes (.bar0Read t offset 4) t s [.sup, .ctr] [Ix.dictRequests] fun d =>
      e.counted d Ix.dictRequests 2 0 1 ∧ d.sup = { e.sup with latch := some (offset, e.mirror ix sub / 2 ^ 32), answers := e.sup.answers ++
        [⟨2, ix, sub, true, (e.mirror ix sub % 2 ^ 32 : Nat), e.statusWord ix sub, leBytes 4 (e.mirror ix sub)⟩] }) ∧
  (∀ t offset s e ix sub w, e = s.dev.at t → e.str.linkUp = true → e.wakesNothing 2 → offset < 0x06000000 → offset % 16 = 4 →
    e.sup.latch = some (offset - 4, w) → ix = offset / 4096 → sub = offset % 4096 / 16 →
    Completes (.bar0Read t offset 4) t s [.sup, .ctr] [Ix.dictRequests] fun d =>
      d.sup = { e.sup with latch := none, answers := e.sup.answers ++
        [⟨2, ix, sub, true, (w % 2 ^ 32 : Nat), e.statusWord ix sub, leBytes 4 w⟩] }) ∧
  (∀ t k s e, e = s.dev.at t → e.str.linkUp = true → e.wakesNothing 2 → k < 8192 →
    Completes (.bar0Read t (0x0C000000 + 4 * k) 4) t s [.sup] [] fun d =>
      ∃ ix sub, d.sup.answers = e.sup.answers ++ [⟨2, ix, sub, true, (e.msixWord k % 2 ^ 32 : Nat), 0, leBytes 4 (e.msixWord k)⟩]) ∧
  (∀ t offset width s e, e = s.dev.at t → e.str.linkUp = false → Completes (.bar0Read t offset width) t s [] [] fun _ => True) ∧
  (∀ t offset width value o s e ix sub n, e = s.dev.at t → e.str.linkUp = true → e.wakesNothing 2 → offset < 0x06000000 → offset % 16 = 0 →
    (width = 4 ∨ width = 8) → ix = offset / 4096 → sub = offset % 4096 / 16 → n = typeBytes (typeOf ix sub) → n ≠ 0 → (n ≤ 4 ∨ width = 8) →
    isExtended (typeOf ix sub) width value = true →
    exec (.bar0Write t offset width value o) s =
      exec (.entryWrite t 2 ix sub (fixedValue (typeOf ix sub) (leBytes n value)) o) { s with dev := e }) ∧
  (∀ t offset value o s e ix sub, e = s.dev.at t → e.str.linkUp = true → e.wakesNothing 2 → offset < 0x06000000 → offset % 16 = 0 →
    ix = offset / 4096 → sub = offset % 4096 / 16 → 4 < typeBytes (typeOf ix sub) →
    Completes (.bar0Write t offset 4 value o) t s [.sup] [] fun d => d.sup = { e.sup with lowHalf := some (ekey ix sub 0, value % 2 ^ 32) }) ∧
  (∀ t offset width value o s e ix sub, e = s.dev.at t → e.str.linkUp = true → e.wakesNothing 2 → offset < 0x06000000 → offset % 16 < 8 →
    width ≠ 4 → width ≠ 8 → ix = offset / 4096 → sub = offset % 4096 / 16 → e.reaches 2 ix →
    Completes (.bar0Write t offset width value o) t s requestParts requestPlaces fun d =>
      d.reports 2 Code.typeLength ∧ ekey ix sub 0 ∈ d.sup.rejected) ∧
  (∀ t r value o s e, e = s.dev.at t → e.str.linkUp = true → e.wakesNothing 2 → r < 65536 →
    (value % 2 ^ 32 + 2 ^ 32 - e.nW Ix.strRingCi r) % 2 ^ 32 ≤ (e.nW Ix.strRingPi r + 2 ^ 32 - e.nW Ix.strRingCi r) % 2 ^ 32 →
    Completes (.bar0Write t (0x08000000 + 8 * r) 4 value o) t s [] [Ix.strRingCi] fun d => d.rd Ix.strRingCi 0 r = (value % 2 ^ 32 : Nat)) ∧
  (∀ t k value o s e, e = s.dev.at t → e.str.linkUp = true → e.wakesNothing 2 → k < 8192 → k % 4 ≠ 3 →
    Completes (.bar0Write t (0x0C000000 + 4 * k) 4 value o) t s [.str] [] fun d => d.msixWord k = value % 2 ^ 32 ∧ ∀ j, j ≠ k → d.msixWord j = e.msixWord j)

/-- R430, R431, R433, R435: module sleep is entered when nothing forbids it, is refused otherwise, ends its entry with the islands asleep, and is
left for an enabled wake source; idle islands are gated. -/
def Obligations.SleepAndWake : Prop :=
  (∀ t path wake s e, e = s.dev.at t → e.reaches path Ix.pwrSleep → e.n0 Ix.pwrState = 3 → e.pwr.entering = none → e.sleepForbidden = false →
    wake ≠ 0xFF → e.wakeEnabled wake = false →
    Completes (.pwrSleep t path wake) t s requestParts requestPlaces fun d => d.pwr.entering = some e.now ∧ d.pwr.asleep = e.pwr.asleep) ∧
  (∀ t path wake s e, e = s.dev.at t → e.reaches path Ix.pwrSleep → 1 ≤ path ∧ path ≤ 4 →
    (e.n0 Ix.pwrState ≠ 3 ∨ e.pwr.entering.isSome = true ∨ e.sleepForbidden = true) →
    Completes (.pwrSleep t path wake) t s requestParts requestPlaces fun d => d.reports path Code.sleepRefused ∧ d.pwr.entering = e.pwr.entering) ∧
  (∀ t wake s e, e = s.dev.at t → e.n0 Ix.pwrModuleIdleS ≠ 0 → e.pwr.written + e.n0 Ix.pwrModuleIdleS * sec ≤ e.now → e.n0 Ix.pwrState = 3 →
    e.pwr.entering = none → e.sleepForbidden = false → wake ≠ 0xFF → e.wakeEnabled wake = false →
    Completes (.moduleIdleTimeout t wake) t s [.pwr] [] fun d => d.pwr = { e.pwr with entering := some e.now }) ∧
  (∀ t s e u, e = s.dev.at t → e.pwr.entering = some u →
    Completes (.sleepEntryDone t) t s [.pwr, .cap, .hw, .out, .ctr] (Ix.pwrIslState :: Ix.hwBypassState :: Ix.cfState :: Ix.pwrState :: eventPlaces) fun d =>
      d.pwr.entering = none ∧ d.pwr.asleep = some e.now ∧ d.pwr.before = (List.range 12).map (fun i => e.nI Ix.pwrIslState i) ∧
      d.cap.asleep = true ∧ d.rd Ix.pwrState 0 0 = 2 ∧ d.rd Ix.cfState 0 0 = 0 ∧ d.hw.driven.get false 0 = false ∧ d.hw.driven.get false 1 = false) ∧
  (∀ t source s e, e = s.dev.at t → e.wakeEnabled source = true → e.pwr.entering = none → e.n0 Ix.pwrState = 2 → e.pwr.waking = none →
    Completes (.wakeSource t source) t s [.pwr] [Ix.pwrWakeCause] fun d =>
      d.pwr = { e.pwr with waking := some e.now } ∧ d.rd Ix.pwrWakeCause 0 0 = source) ∧
  (∀ t source s e u, e = s.dev.at t → e.wakeEnabled source = true → e.pwr.entering = some u →
    Completes (.wakeSource t source) t s [.pwr, .out, .ctr] (Ix.pwrWakeCause :: eventPlaces) fun d =>
      d.pwr = { e.pwr with entering := none, written := e.now } ∧ d.rd Ix.pwrWakeCause 0 0 = source) ∧
  (∀ t s e u, e = s.dev.at t → e.pwr.asleep = some u → e.n0 Ix.pwrWakeTimer ≠ 0 → u + e.n0 Ix.pwrWakeTimer * sec ≤ e.now → e.wakeEnabled 5 = true →
    e.pwr.entering = none → e.n0 Ix.pwrState = 2 → e.pwr.waking = none →
    Completes (.wakeTimerExpiry t) t s [.pwr] [Ix.pwrWakeCause] fun d =>
      d.pwr = { e.pwr with waking := some e.now } ∧ d.rd Ix.pwrWakeCause 0 0 = 5) ∧
  (∀ t isl s e, e = s.dev.at t → isl ∈ [1, 2, 3, 4, 5, 6, 8, 0xA, 0xB] → e.nI Ix.pwrIslIdleUs (isl - 1) ≠ 0 → e.islandIdle isl = true →
    e.rd Ix.pwrIslState isl 0 = 0 → e.pwr.since.get 0 isl + us (e.nI Ix.pwrIslIdleUs (isl - 1)) ≤ e.now →
    Completes (.islandIdleTimeout t isl false) t s [.out, .ctr] (Ix.pwrIslState :: eventPlaces) fun d =>
      d.rd Ix.pwrIslState isl 0 = 1 ∧ d.pwr = e.pwr)

/-- R37, R437 to R444: energies and droops are counted; the governor measures, takes a step of Table 16.6 and releases one; a shared island takes
its point; a cool DRAM returns a point. -/
def Obligations.GovernorAndEnergy : Prop :=
  (∀ t a m s e n, e = s.dev.at t → e.pwr.epsSince + ms (if e.pwr.epsWindow = 0 then 1000 else e.pwr.epsWindow) ≤ e.now →
    n = (e.n0 Ix.pwrAnalysedSamples + two48 - e.pwr.epsCount) % two48 →
    Completes (.epsWindowEnd t a m) t s [.pwr, .ctr] [Ix.pwrAnalysisEnergy, Ix.pwrModuleEnergy, Ix.pwrEpsLive] fun d =>
      e.counted d Ix.pwrAnalysisEnergy 0 0 a ∧ e.counted d Ix.pwrModuleEnergy 0 0 m ∧
      d.rd Ix.pwrEpsLive 0 0 = normTy 7 (if n = 0 then 0 else roundEven ((a * 1000000000 : Nat) : Int) n) ∧
      d.pwr = { e.pwr with epsSince := e.now, epsCount := e.n0 Ix.pwrAnalysedSamples, epsWindow := e.n0 Ix.pwrEpsWindow }) ∧
  (∀ t a m s e, e = s.dev.at t → e.now < e.pwr.epsSince + ms (if e.pwr.epsWindow = 0 then 1000 else e.pwr.epsWindow) →
    Completes (.epsWindowEnd t a m) t s [] [] fun _ => True) ∧
  (∀ t isl s e, e = s.dev.at t → 1 ≤ isl → isl ≤ 12 →
    Completes (.droopStretch t isl) t s [.ctr] [Ix.pwrDroopEvents] fun d => e.counted d Ix.pwrDroopEvents 0 0 1) ∧
  (∀ t w temp loads mws traffic s e, e = s.dev.at t → e.sup.running = true → e.fullService = true → e.n0 Ix.pwrState = 3 → w < 65536 →
    -2048 ≤ temp → temp ≤ 2047 →
    Completes (.governorPeriod t w temp loads mws traffic) t s (.hw :: .cap :: .cut :: .out :: .pwr :: codeParts)
      (Ix.hwTemp :: Ix.pwrModuleW :: Ix.pwrIslMw :: Ix.pwrCapStep :: Ix.pwrDegraded :: Ix.modCutState :: eventPlaces ++ codePlaces) fun d =>
      d.rd Ix.hwTemp 2 0 = temp ∧ d.rd Ix.pwrModuleW 0 0 = w ∧
      d.pwr.engaged = decide (10 * e.n0 Ix.pwrCapW < w ∨ e.pwr.engaged = true ∧ 98 * (10 * e.n0 Ix.pwrCapW) ≤ 100 * w)) ∧
  (∀ t s e rest k, e = s.dev.at t → e.pwr.steps = (k, false) :: rest → e.sup.running = true → e.hw.throttling = false →
    100 * e.n0 Ix.pwrModuleW < 950 * e.n0 Ix.pwrCapW → e.pwr.released + sec ≤ e.now →
    Completes (.capStepRelease t) t s (.out :: .pwr :: codeParts) (Ix.pwrCapStep :: Ix.pwrDegraded :: eventPlaces ++ codePlaces) fun d =>
      d.pwr.steps = rest ∧ d.pwr.released = e.now) ∧
  (∀ t isl (p : Nat) s e, e = s.dev.at t → 6 ≤ isl → isl ≤ 12 → isl ≠ 7 → e.pwr.want.find? isl = some p → p < 256 → e.nI Ix.pwrIslPoint (isl - 1) ≠ p →
    isl ∉ e.tb.held → e.clockKHz isl = pointKHz isl p →
    Completes (.islandPointChange t isl) t s [.pwr, .out, .ctr] (Ix.pwrIslPoint :: eventPlaces) fun d =>
      d.rd Ix.pwrIslPoint isl 0 = p ∧ d.pwr = { e.pwr with want := e.pwr.want.del isl }) ∧
  (∀ t s e u, e = s.dev.at t → (∀ c < 8, e.inService c = true → e.cap.cool.get 0 c = 16) → e.cap.hotRaised = some u → e.pwr.returned + sec ≤ e.now →
    e.n0 Ix.capDramRate ≠ 6400 →
    Completes (.dramCoolReturn t) t s (.cap :: .out :: .pwr :: codeParts) (Ix.pwrDegraded :: eventPlaces ++ codePlaces) fun d =>
      d.pwr.hot = false ∧ d.pwr.returned = e.now ∧
      d.cap.waiting = e.cap.waiting.filter (fun w => w.1 != 1) ++ [(1, 0, if e.n0 Ix.capDramRate = 3200 then 4800 else 6400)])

/-- R455 to R462: the commands of calibration, the end of a run and a step of a trim loop. A calibration starts where none runs, an abort before
the commit point ends it with the value in force kept, a run's value is held for the second run, a trim loop steps its code, a save goes to
flash, a restore is an engine cut, and an object that is due is marked and reported once. -/
def Obligations.CalibrationCommandsAndRuns : Prop :=
  (∀ t path s e obj, e = s.dev.at t → e.reaches path Ix.calCmd → e.nW Ix.calObjSel path = obj → isCalObj obj = true → e.calWithheld obj = false →
    e.cal.runs = [] → calKind obj ≠ 6 →
    Completes (.calCalibrate t path) t s (.cal :: requestParts) (Ix.calState :: requestPlaces) fun d =>
      d.cal.runs = [{ obj := obj, began := e.time96, since := e.now, signature := e.calSignature obj }] ∧ d.rd Ix.calState 0 0 = 1) ∧
  (∀ t path s e obj, e = s.dev.at t → e.reaches path Ix.calCmd → 1 ≤ path ∧ path ≤ 4 → e.nW Ix.calObjSel path = obj → isCalObj obj = true →
    e.calWithheld obj = false → e.cal.runs ≠ [] →
    Completes (.calCalibrate t path) t s requestParts requestPlaces fun d => d.reports path Code.calBusy ∧ d.cal = e.cal) ∧
  (∀ t path s e obj, e = s.dev.at t → e.reaches path Ix.calCmd → 1 ≤ path ∧ path ≤ 4 → e.nW Ix.calObjSel path = obj → isCalObj obj = false →
    Completes (.calCalibrate t path) t s requestParts requestPlaces fun d => d.reports path Code.calObject ∧ d.cal = e.cal) ∧
  (∀ t path s e r, e = s.dev.at t → e.reaches path Ix.calCmd → e.cal.runs = [r] → r.phase ≠ 2 → calKind r.obj ≠ 6 → e.n0 Ix.calEventRing = noRing →
    Completes (.calAbort t path) t s (.cal :: .out :: requestParts) (Ix.calState :: requestPlaces) fun d =>
      d.cal.runs = [] ∧ d.rd Ix.calState 0 0 = 0) ∧
  (∀ t path s e, e = s.dev.at t → e.reaches path Ix.calCmd → 1 ≤ path ∧ path ≤ 4 → e.cal.runs = [] → e.sup.emergencies.length < 32 →
    Completes (.calAbort t path) t s requestParts requestPlaces fun d => d.reports path Code.alreadyDone ∧ d.cal = e.cal) ∧
  (∀ t obj raw edges spread margins s e r v f, e = s.dev.at t → isCalObj obj = true → calKind obj ≠ 6 → e.cal.runs = [r] → r.obj = obj → r.phase = 0 →
    e.sup.running = true → e.calSignature obj = r.signature → e.calLinkDown obj = false → e.calMeasured obj raw edges spread margins = (v, f) →
    Completes (.calRunDone t obj raw edges spread margins) t s [.cal] [Ix.calState] fun d =>
      d.cal.runs = [{ r with a := v, aFailed := f, phase := 1, c0 := 0, code := 0, stage := 0 }] ∧ d.rd Ix.calState 0 0 = 2) ∧
  (∀ t k m s e r, e = s.dev.at t → k < 16 → e.cal.runs = [r] → r.obj = 0x0600 + k → r.phase = 0 → r.stage = 0 → e.sup.running = true →
    e.nI Ix.calTrimMode k ≠ 0 →
    Completes (.trimLoopStep t k m) t s [.cal, .hw] [] fun d =>
      d.cal.runs = [{ r with stage := 1, code := r.c0 - 256 }] ∧ d.hw.trimOut.get 0 k = r.c0 - 256) ∧
  (∀ t path s e, e = s.dev.at t → e.reaches path Ix.calCmd →
    Completes (.calSave t path true) t s (.cal :: requestParts) requestPlaces fun d =>
      d.cal.saved.lags = e.cal.lags ∧ (∀ k < 16, ({ ix := Ix.calTrimCode, sub := k + 1, inst := 0, value := e.rd Ix.calTrimCode (k + 1) 0 } : SWrite) ∈ d.cal.saved.writes) ∧
      d.cal.runs = e.cal.runs) ∧
  (∀ t path s e, e = s.dev.at t → e.reaches path Ix.calCmd → 1 ≤ path ∧ path ≤ 4 → e.sup.emergencies.length < 32 →
    Completes (.calSave t path false) t s requestParts requestPlaces fun d => d.reports path Code.calFlash ∧ d.cal = e.cal) ∧
  (∀ t path s e, e = s.dev.at t → e.reaches path Ix.calCmd →
    Completes (.calRestore t path) t s (.cut :: requestParts) (Ix.modCutState :: requestPlaces) fun d =>
      d.cut.engine = e.cut.engine ++ [{ kind := .restore, writes := e.cal.saved.writes, due := e.soon, observed := e.now }]) ∧
  (∀ t obj converters s e e', e = s.dev.at t → isCalObj obj = true → (calKind obj = 1 ∨ calKind obj = 2 ∨ calKind obj = 4 ∨ calKind obj = 5) →
    e.sup.running = true → e.hw.auxIn = true → e' = e.convReads converters → e.cal.seen.get (0, 0) obj ≠ e'.calEvents obj →
    e.nW Ix.calObjState obj ≠ 2 → obj ∉ e.cal.dueRaised → e.sup.emergencies.length < 32 →
    Completes (.calObjectDue t obj converters) t s (.cal :: codeParts) (Ix.modSlotId :: Ix.calObjState :: Ix.calDueCount :: codePlaces) fun d =>
      d.rd Ix.modSlotId 6 0 = (converters % 16 : Nat) ∧ d.rd Ix.calObjState 0 obj = 2 ∧ e.counted d Ix.calDueCount 0 0 1 ∧
      d.cal.dueRaised = e.cal.dueRaised ++ [obj] ∧ d.cal.seen.get (0, 0) obj = e'.calEvents obj ∧ d.reports 4 Code.calDue) ∧
  (∀ t obj s e, e = s.dev.at t → isCalObj obj = true → calKind obj = 7 → e.hw.auxIn = false → e.sup.running = true → e.nW Ix.calObjState obj ≠ 0 →
    (e.rd Ix.calObjTime 1 obj).toNat * two48 + (e.rd Ix.calObjTime 2 obj).toNat + e.n0 Ix.calRecalHours * 3600 * sec ≤ e.time96 →
    e.nW Ix.calObjState obj ≠ 2 → obj ∉ e.cal.dueRaised → e.sup.emergencies.length < 32 →
    Completes (.calObjectDue t obj 0) t s (.cal :: codeParts) (Ix.calObjState :: Ix.calDueCount :: codePlaces) fun d =>
      d.rd Ix.calObjState 0 obj = 2 ∧ e.counted d Ix.calDueCount 0 0 1 ∧ d.cal.dueRaised = e.cal.dueRaised ++ [obj] ∧ d.reports 4 Code.calDue)

/-- R469, R473, R474, R476: freezing and releasing the view, clearing a wrap bit, snapshots by command and by period, a sampler's record. -/
def Obligations.CounterCommands : Prop :=
  (∀ t path s e, e = s.dev.at t → e.reaches path Ix.ctrFreeze → e.ctr.frozen = none → e.ctr.freezeAt = none →
    Completes (.ctrFreeze t path) t s requestParts (Ix.ctrFreeze :: Ix.ctrFreezeState :: requestPlaces) fun d =>
      d.ctr.freezeAt = some e.nextTick ∧ d.ctr.frozen = none ∧ d.rd Ix.ctrFreezeState 0 0 = 1 ∧ d.rd Ix.ctrFreeze 0 0 = 1) ∧
  (∀ t path s e, e = s.dev.at t → e.reaches path Ix.ctrFreeze → e.ctr.frozen.isSome = true →
    Completes (.ctrRelease t path) t s requestParts (Ix.ctrFreeze :: requestPlaces) fun d =>
      d.ctr.releaseAt = some e.nextTick ∧ d.ctr.freezeAt = none ∧ d.ctr.frozen = e.ctr.frozen ∧ d.rd Ix.ctrFreeze 0 0 = 0) ∧
  (∀ t path s e, e = s.dev.at t → e.reaches path Ix.ctrFreeze → e.ctr.frozen = none →
    Completes (.ctrRelease t path) t s requestParts (Ix.ctrFreeze :: Ix.ctrFreezeState :: requestPlaces) fun d =>
      d.ctr.freezeAt = none ∧ d.rd Ix.ctrFreezeState 0 0 = 0 ∧ d.rd Ix.ctrFreeze 0 0 = 0) ∧
  (∀ t path s e sel, e = s.dev.at t → e.reaches path Ix.ctrFlags → 1 ≤ path ∧ path ≤ 4 → e.nW Ix.ctrEventSel path = sel → 5 ≤ selCode sel % 256 →
    selCode sel ≠ 0x0C10 →
    Completes (.ctrFlagsClear t path) t s requestParts requestPlaces fun d =>
      256 * selCode sel + selInst sel ∉ d.ctr.wrapped) ∧
  (∀ t path s e, e = s.dev.at t → e.reaches path Ix.ctrSnapCmd →
    Completes (.ctrSnapCmd t path) t s requestParts requestPlaces fun d => d.ctr.snapAt = e.ctr.snapAt ++ [(e.nextTick, 1)]) ∧
  (∀ t s e p k, e = s.dev.at t → e.n0 Ix.ctrSnapPeriod = p → p ≠ 0 → e.tb.running = true → k = e.time96 * 1000000 / two48 / p →
    e.time96 < us (k * p) + us 1 → e.ctr.banks.length < 2 → e.n0 Ix.ctrSnapRing = noRing →
    Completes (.snapPeriodTick t) t s [.ctr] [Ix.ctrSnapSeq, Ix.ctrSnapTime] fun d =>
      d.ctr.banks = { tick := us (k * p), instant := e.now, counts := e.latchCounts, seq := wrap48 (e.n0 Ix.ctrSnapSeq + 1), cause := 2 } :: e.ctr.banks ∧
      d.rd Ix.ctrSnapTime 1 0 = sec48 (us (k * p)) ∧ d.rd Ix.ctrSnapTime 2 0 = frac48 (us (k * p))) ∧
  (∀ t n count skid context s e x k, e = s.dev.at t → n < 16 → e.ctr.samplers.get {} n = x → x.on = true → k = e.nI Ix.ctrSmpEvent n →
    (wrap48 (e.counterRaw (selCode k) (selInst k)) + two48 - wrap48 (x.base + x.k * e.nI Ix.ctrSmpPeriod n)) % two48 < 2 ^ 47 → x.lastRecord = none → e.n0 Ix.ctrSmpRing = noRing →
    Completes (.samplerCrossing t n count skid context) t s [.ctr] [Ix.ctrSmpFires] fun d =>
      e.counted d Ix.ctrSmpFires (n + 1) 0 1 ∧
      d.ctr.samplers.get {} n = { x with k := x.k + 1, merged := 0, seq := x.seq + 1, lastRecord := some e.now })

/-- R488, R486, R485: what the commands and events of repointing do. -/
def Obligations.RepointingCommandsAndSelfTests : Prop :=
  (∀ t path isl inst s e, e = s.dev.at t → e.reaches path Ix.fltRepoint → inst < 256 → isRepointable isl inst = true → isl ≠ 2 → isl ≠ 3 →
    (isl = 7 → e.inService inst = true) → e.repointBusy = false →
    Completes (.fltRepoint t path (isl * 256 + inst)) t s (.flt :: .chn :: .cut :: requestParts)
      (Ix.fltRepointTarget :: Ix.fltRepointState :: Ix.modCutState :: requestPlaces) fun d =>
      d.flt.repoint = some { isl := isl, inst := inst, src := e.n0 Ix.fltRepointSrc, since := e.now } ∧
      d.cut.engine = e.cut.engine ++ [{ kind := .repointOut, isl := isl, inst := inst, due := e.soon, observed := e.now }] ∧
      d.rd Ix.fltRepointTarget 0 0 = (isl * 256 + inst : Nat) ∧ d.rd Ix.fltRepointState 0 0 = 1) ∧
  (∀ t path isl inst s e, e = s.dev.at t → e.reaches path Ix.fltRepoint → 1 ≤ path ∧ path ≤ 4 → inst < 256 → isRepointable isl inst = true →
    (isl = 7 → e.inService inst = true) → e.repointBusy = true →
    Completes (.fltRepoint t path (isl * 256 + inst)) t s requestParts requestPlaces fun d =>
      d.rd Ix.fltLastError 0 0 = Code.repointBusy ∧ d.rd Ix.fltPathError path 0 = Code.repointBusy) ∧
  (∀ t path isl inst s e, e = s.dev.at t → e.reaches path Ix.fltRepoint → 1 ≤ path ∧ path ≤ 4 → inst < 256 → isRepointable isl inst = false →
    Completes (.fltRepoint t path (isl * 256 + inst)) t s requestParts requestPlaces fun d =>
      d.rd Ix.fltLastError 0 0 = Code.repointTarget ∧ d.rd Ix.fltPathError path 0 = Code.repointTarget) ∧
  (∀ t path s e r, e = s.dev.at t → e.reaches path Ix.fltRepoint → e.n0 Ix.fltUpdateState ≠ 3 → e.n0 Ix.fltUpdateState ≠ 5 → e.flt.repoint = some r →
    r.isl ≠ 2 → r.isl ≠ 3 → r.out = false → (∀ c ∈ e.cut.engine, c.kind = .repointOut → c.distributed = false) →
    Completes (.fltRepointAbort t path) t s (.flt :: .cut :: requestParts)
      (Ix.fltRepointTarget :: Ix.fltRepointState :: Ix.modCutState :: requestPlaces) fun d => d.flt.repoint = none ∧
      d.cut.engine.map (fun c => (c.kind, c.isl, c.inst, c.writes)) =
        (e.cut.engine.filter (fun c => c.kind != CutKind.repointOut)).map (fun c => (c.kind, c.isl, c.inst, c.writes)) ∧
      d.rd Ix.fltRepointTarget 0 0 = 0xFFFF ∧ d.rd Ix.fltRepointState 0 0 = 0) ∧
  (∀ t s e r, e = s.dev.at t → e.flt.repoint = some r → r.isl ≠ 2 → r.isl ≠ 3 → e.rd Ix.fltRepointState 0 0 = 2 → e.sup.running = true →
    Completes (.repointSelftestDone t true) t s [.flt, .cut] [Ix.fltRepointState, Ix.modCutState] fun d =>
      d.flt.repoint = some { r with selfTestOk := true } ∧ d.rd Ix.fltRepointState 0 0 = 3 ∧
      d.cut.engine = e.cut.engine ++ [{ kind := .repointIn, isl := r.isl, inst := r.inst, due := e.soon, observed := e.now }]) ∧
  (∀ t s e, e = s.dev.at t → e.rd Ix.chnStandbyFor 0 0 = 0xFF → e.repointing 2 = false → e.sup.running = true → 0 ∉ e.flt.standbyFailed →
    e.flt.selfTests.get 0 0 + 10 * sec ≤ e.now →
    Completes (.standbySelftest t 0 false) t s (.out :: codeParts) faultPlaces fun d =>
      d.flt.standbyFailed = 0 :: e.flt.standbyFailed ∧ d.flt.selfTests.get 0 0 = e.now ∧
      d.out.happenings = e.out.happenings ++ [(e.time96, .standby 2 32 false), (e.time96, .degradation 2 [])]) ∧
  (∀ t unit s e, e = s.dev.at t → (unit < 2 ∨ 0x10 ≤ unit ∧ unit < 0x18) → e.flt.selfTests.get 0 unit + 10 * sec ≤ e.now →
    Completes (.standbySelftest t unit true) t s [.flt] [] fun d => d.flt = { e.flt with selfTests := e.flt.selfTests.set 0 unit e.now }) ∧
  (∀ t unit ok s e, e = s.dev.at t → (unit < 2 ∨ 0x10 ≤ unit ∧ unit < 0x18) → e.now < e.flt.selfTests.get 0 unit + 10 * sec →
    Completes (.standbySelftest t unit ok) t s [] [] fun _ => True)

/-- R489 to R491: what the commands of a firmware update do, and how a switch is confirmed or reverted. -/
def Obligations.FirmwareUpdateCommands : Prop :=
  (∀ t path s e a, e = s.dev.at t → e.reaches path Ix.fltImgCmd → e.fullService = true → e.switching = false → e.allocOf 0x20 0 = some a →
    Completes (.imgAllocateStaging t path) t s requestParts (Ix.fltImgAddr :: requestPlaces) fun d =>
      d.rd Ix.fltImgAddr 0 0 = normTy 0x19 (e.allocAddr a 0)) ∧
  (∀ t path s e a d', e = s.dev.at t → e.reaches path Ix.fltImgCmd → e.fullService = true → e.switching = false → e.allocOf 0x20 0 = none →
    e.alloc 0x20 0 16777216 false = some (a, d') →
    Completes (.imgAllocateStaging t path) t s (.cap :: requestParts) (Ix.capFree :: Ix.fltImgAddr :: requestPlaces) fun d =>
      d.cap.allocs = insertAlloc a e.cap.allocs ∧ a.length = 16777216) ∧
  (∀ t path version requires s e, e = s.dev.at t → e.reaches path Ix.fltImgCmd → e.fullService = true → e.switching = false →
    (e.allocOf 0x20 0).isSome → e.n0 Ix.fltImgLen ≠ 0 → e.n0 Ix.fltImgLen ≤ 16777216 → requires < 65536 →
    Completes (.imgInstall t path version requires true) t s (.boot :: requestParts)
      (Ix.modImageState :: Ix.fltUpdateState :: Ix.fltUpdateRequired :: requestPlaces) fun d =>
      d.rd Ix.modImageState e.otherSlot 0 = 1 ∧ d.rd Ix.fltUpdateState 0 0 = 1 ∧ d.rd Ix.fltUpdateRequired 0 0 = requires ∧
      d.boot.images.get {} e.otherSlot = { version := version, length := e.n0 Ix.fltImgLen, requires := requires }) ∧
  (∀ t path version requires s e, e = s.dev.at t → e.reaches path Ix.fltImgCmd → 1 ≤ path ∧ path ≤ 4 → e.fullService = true → e.switching = false →
    (e.allocOf 0x20 0).isSome →
    Completes (.imgInstall t path version requires false) t s requestParts (Ix.modImageState :: Ix.fltUpdateState :: Ix.fltUpdateRequired :: requestPlaces) fun d =>
      d.rd Ix.modImageState e.otherSlot 0 = 0 ∧ d.rd Ix.fltLastError 0 0 = Code.imageInvalid ∧ d.rd Ix.fltPathError path 0 = Code.imageInvalid) ∧
  (∀ t path s e, e = s.dev.at t → e.reaches path Ix.fltImgCmd → 1 ≤ path ∧ path ≤ 4 → (e.fullService = false ∨ e.n0 Ix.fltUpdateState ≠ 1) →
    Completes (.imgSwitch t path) t s requestParts requestPlaces fun d =>
      d.rd Ix.fltLastError 0 0 = Code.updateState ∧ d.rd Ix.fltPathError path 0 = Code.updateState) ∧
  (∀ t path s e, e = s.dev.at t → e.reaches path Ix.fltImgCmd → e.fullService = true → e.n0 Ix.fltUpdateState = 1 → e.flt.repoint = none →
    Nat.land (e.n0 Ix.fltUpdateRequired) (e.n0 Ix.fltUpdateMask) = e.n0 Ix.fltUpdateRequired →
    Completes (.imgSwitch t path) t s (.out :: .cut :: .boot :: .cal :: requestParts)
      (Ix.fltUpdateState :: Ix.modBootImage :: Ix.modBringup :: Ix.modCutState :: Ix.fltRestarts :: requestPlaces) fun d =>
      d.rd Ix.fltUpdateState 0 0 = 2 ∧ d.rd Ix.modBootImage 0 0 = e.otherSlot ∧ d.sup.running = false ∧ d.sup.restarting = true ∧
      d.flt.trial = e.otherSlot ∧ d.flt.previous = e.n0 Ix.modBootImage ∧ d.flt.round = e.roundOf (e.n0 Ix.fltUpdateMask) ∧
      d.flt.roundDone = []) ∧
  (∀ t path s e, e = s.dev.at t → e.reaches path Ix.fltImgCmd → e.n0 Ix.fltUpdateState = 3 → e.flt.repoint = none →
    Completes (.imgAbortSwitch t path) t s (.out :: .cut :: .cal :: requestParts)
      (Ix.fltUpdateState :: Ix.modBootImage :: Ix.modImageState :: Ix.modBringup :: Ix.modCutState :: Ix.fltRestarts :: requestPlaces) fun d =>
      d.rd Ix.fltUpdateState 0 0 = 5 ∧ d.sup.running = false ∧ d.flt.round = e.flt.roundDone ∧ d.flt.roundDone = []) ∧
  (∀ t s e, e = s.dev.at t → e.n0 Ix.fltUpdateState = 3 → e.flt.round = [] → e.flt.repoint = none → e.sup.running = true →
    e.sup.emergencies.length < 32 → (e.n0 Ix.modBootImage = 1 ∨ e.n0 Ix.modBootImage = 2) →
    Completes (.updateConfirm t) t s (.boot :: codeParts) (Ix.modImageState :: Ix.fltUpdateState :: Ix.fltUpdateProgress :: codePlaces) fun d =>
      d.rd Ix.fltUpdateState 0 0 = 4 ∧ d.rd Ix.modImageState (e.n0 Ix.modBootImage) 0 = 2 ∧ d.rd Ix.fltUpdateProgress 0 0 = 0 ∧
      d.boot.preferred = e.n0 Ix.modBootImage ∧ d.boot.trialSince = none ∧ d.rd Ix.fltLastError 0 0 = Code.updateConfirmed) ∧
  (∀ t s e, e = s.dev.at t → e.n0 Ix.fltUpdateState = 5 → e.flt.round = [] → e.flt.repoint = none → e.sup.running = true →
    e.sup.emergencies.length < 32 →
    Completes (.updateRevert t) t s codeParts (Ix.fltUpdateState :: Ix.fltUpdateProgress :: codePlaces) fun d =>
      d.rd Ix.fltUpdateState 0 0 = 6 ∧ d.rd Ix.fltUpdateProgress 0 0 = 0 ∧ d.rd Ix.fltLastError 0 0 = Code.updateReverted)
end

