-- ==== Sys2Proof/Laws/Tab.lean ====
section
/-! SUPPORT. Sparse tables: what a key reads after an update, and that every update keeps the canonical form. -/

namespace Sys2Proof.Tab

variable {α : Type}

theorem find?_put_same (l : Tab α) (i : Nat) (v : α) : find? (put l i v) i = some v := by
  induction l with
  | nil => simp [put, find?]
  | cons p r ih =>
    obtain ⟨k, w⟩ := p
    by_cases h : k = i
    · simp [put, h, find?]
    · by_cases h' : i < k
      · simp [put, h, h', find?]
      · simp [put, h, h', find?, ih]

theorem find?_put_other (l : Tab α) (i j : Nat) (v : α) (h : i ≠ j) : find? (put l i v) j = find? l j := by
  induction l with
  | nil => simp [put, find?, h]
  | cons p r ih =>
    obtain ⟨k, w⟩ := p
    by_cases h1 : k = i
    · subst h1; simp [put, find?, h]
    · by_cases h2 : i < k
      · simp [put, h1, h2, find?, h]
      · simp [put, h1, h2, find?, ih]

theorem find?_del_same (l : Tab α) (i : Nat) : find? (del l i) i = none := by
  induction l with
  | nil => rfl
  | cons p r ih =>
    obtain ⟨k, w⟩ := p
    by_cases h : k = i
    · simpa [del, h] using ih
    · simpa [del, h, find?] using ih

theorem find?_del_other (l : Tab α) (i j : Nat) (h : i ≠ j) : find? (del l i) j = find? l j := by
  induction l with
  | nil => rfl
  | cons p r ih =>
    obtain ⟨k, w⟩ := p
    by_cases h1 : k = i
    · subst h1; simpa [del, find?, h] using ih
    · by_cases h2 : k = j
      · subst h2; simp [del, h1, find?]
      · simpa [del, h1, h2, find?] using ih

/-- A key reads the value it was last set to. -/
@[simp] theorem get_set_same [DecidableEq α] (dflt : α) (l : Tab α) (i : Nat) (v : α) : get dflt (set dflt l i v) i = v := by
  by_cases h : v = dflt
  · simp [set, get, h, find?_del_same]
  · simp [set, get, h, find?_put_same]

/-- Setting one key leaves every other as it was, whichever default each is read with. -/
theorem get_set_other [DecidableEq α] (dflt dflt' : α) (l : Tab α) (i j : Nat) (v : α) (h : i ≠ j) :
    get dflt' (set dflt l i v) j = get dflt' l j := by
  by_cases hv : v = dflt
  · simp [set, get, hv, find?_del_other l i j h]
  · simp [set, get, hv, find?_put_other l i j v h]

@[simp] theorem get_put_same (dflt : α) (l : Tab α) (i : Nat) (v : α) : get dflt (put l i v) i = v := by
  simp [get, find?_put_same]

theorem get_put_other (dflt : α) (l : Tab α) (i j : Nat) (v : α) (h : i ≠ j) : get dflt (put l i v) j = get dflt l j := by
  simp [get, find?_put_other l i j v h]

/-! ### The canonical form -/

theorem mem_put {l : Tab α} {i : Nat} {v : α} {p : Nat × α} (h : p ∈ put l i v) : p = (i, v) ∨ p ∈ l := by
  induction l with
  | nil => left; simpa [put] using h
  | cons q r ih =>
    obtain ⟨k, w⟩ := q
    simp only [put] at h
    split at h
    · rcases List.mem_cons.1 h with h | h
      · exact .inl h
      · exact .inr (List.mem_cons_of_mem _ h)
    · split at h
      · rcases List.mem_cons.1 h with h | h
        · exact .inl h
        · exact .inr h
      · rcases List.mem_cons.1 h with h | h
        · exact .inr (h ▸ List.mem_cons_self)
        · rcases ih h with h | h
          · exact .inl h
          · exact .inr (List.mem_cons_of_mem _ h)

theorem sorted_put {l : Tab α} (i : Nat) (v : α) (h : Sorted l) : Sorted (put l i v) := by
  induction l with
  | nil => simp [put, Sorted]
  | cons q r ih =>
    obtain ⟨k, w⟩ := q
    obtain ⟨hk, hr⟩ := List.pairwise_cons.1 h
    simp only [put]
    split
    · next e => subst e; exact List.pairwise_cons.2 ⟨hk, hr⟩
    · next ne =>
      split
      · next lt =>
        refine List.pairwise_cons.2 ⟨fun p hp => ?_, h⟩
        rcases List.mem_cons.1 hp with e | hp
        · subst e; exact lt
        · exact Nat.lt_trans lt (hk p hp)
      · next nlt =>
        refine List.pairwise_cons.2 ⟨fun p hp => ?_, ih hr⟩
        rcases mem_put hp with e | hp
        · subst e; show k < i; omega
        · exact hk p hp

theorem sorted_filter {l : Tab α} (f : Nat × α → Bool) (h : Sorted l) : Sorted (l.filter f) := List.Pairwise.filter f h

/-- A filtered table is canonical. -/
theorem wf_filter [DecidableEq α] {dflt : α} {l : Tab α} (f : Nat × α → Bool) (h : Wf dflt l) : Wf dflt (l.filter f) :=
  ⟨sorted_filter f h.1, fun p hp => h.2 p (List.mem_filter.1 hp).1⟩

/-- Setting a key keeps a table canonical. -/
theorem wf_set [DecidableEq α] {dflt : α} {l : Tab α} (i : Nat) (v : α) (h : Wf dflt l) : Wf dflt (set dflt l i v) := by
  by_cases hv : v = dflt
  · simpa [set, hv, del] using wf_filter (fun p => p.1 != i) h
  · simp only [set, hv, if_false]
    refine ⟨sorted_put i v h.1, fun p hp => ?_⟩
    rcases mem_put hp with e | hp
    · subst e; exact hv
    · exact h.2 p hp

theorem wf_nil [DecidableEq α] (dflt : α) : Wf dflt ([] : Tab α) := ⟨.nil, by simp⟩

end Sys2Proof.Tab
end

