-- ==== Sys2Proof/Laws/Dict.lean ====
section
/-! SUPPORT. What an entry of the dictionary reads after a write, a count or an update of another part of the device. -/

namespace Sys2Proof.Machine

theorem ekey_inj {ix sub inst ix' sub' inst' : Nat} :
    ekey ix sub inst = ekey ix' sub' inst' ↔ ix = ix' ∧ sub = sub' ∧ inst = inst' := by
  simp [ekey, Nat.pair_eq_pair]

/-- An entry reads what was written to it, in the range of its type; every other entry reads as before. -/
@[simp] theorem Dev.rd_wr (d : Dev) (ix sub inst ix' sub' inst' : Nat) (v : Int) :
    (d.wr ix sub inst v).rd ix' sub' inst' =
      if ix = ix' ∧ sub = sub' ∧ inst = inst' then normTy (typeOf ix sub) v else d.rd ix' sub' inst' := by
  by_cases h : ix = ix' ∧ sub = sub' ∧ inst = inst'
  · obtain ⟨rfl, rfl, rfl⟩ := h
    simp [Dev.rd, Dev.wr]
  · have : ekey ix sub inst ≠ ekey ix' sub' inst' := fun e => h (ekey_inj.1 e)
    simp [Dev.rd, Dev.wr, h, Tab.get_set_other _ _ _ _ _ _ this]

/-- A device with the same dictionary reads alike. -/
theorem Dev.rd_congr {d e : Dev} (h : d.dict = e.dict) (ix sub inst : Nat) : d.rd ix sub inst = e.rd ix sub inst := by
  simp [Dev.rd, h]

@[simp] theorem Dev.n0_eq (d : Dev) (ix : Nat) : d.n0 ix = (d.rd ix 0 0).toNat := rfl
@[simp] theorem Dev.nI_eq (d : Dev) (ix i : Nat) : d.nI ix i = (d.rd ix (i + 1) 0).toNat := rfl
@[simp] theorem Dev.nW_eq (d : Dev) (ix i : Nat) : d.nW ix i = (d.rd ix 0 i).toNat := rfl
@[simp] theorem Dev.w0_eq (d : Dev) (ix v : Nat) : d.w0 ix v = d.wr ix 0 0 v := rfl
@[simp] theorem Dev.wI_eq (d : Dev) (ix i v : Nat) : d.wI ix i v = d.wr ix (i + 1) 0 v := rfl
@[simp] theorem Dev.wW_eq (d : Dev) (ix i v : Nat) : d.wW ix i v = d.wr ix 0 i v := rfl
@[simp] theorem Dev.inc0_eq (d : Dev) (ix k : Nat) : d.inc0 ix k = d.inc ix 0 0 k := rfl
@[simp] theorem Dev.incI_eq (d : Dev) (ix i k : Nat) : d.incI ix i k = d.inc ix (i + 1) 0 k := rfl
@[simp] theorem Dev.incW_eq (d : Dev) (ix i k : Nat) : d.incW ix i k = d.inc ix 0 i k := rfl
@[simp] theorem Dev.wTime_eq (d : Dev) (ix t : Nat) : d.wTime ix t = (d.wr ix 1 0 (sec48 t)).wr ix 2 0 (frac48 t) := rfl

theorem Dev.markWrap_dict (d : Dev) (k : Option Nat) (v : Int) : (d.markWrap k v).dict = d.dict := by
  unfold Dev.markWrap; split
  · split <;> rfl
  · rfl

@[simp] theorem Dev.rd_markWrap (d : Dev) (k : Option Nat) (v : Int) (ix sub inst : Nat) :
    (d.markWrap k v).rd ix sub inst = d.rd ix sub inst := Dev.rd_congr (d.markWrap_dict k v) ..

/-- A count changes its own entry alone: up by k, wrapping or saturating as its type says (R9). -/
@[simp] theorem Dev.rd_inc (d : Dev) (ix sub inst k ix' sub' inst' : Nat) :
    (d.inc ix sub inst k).rd ix' sub' inst' =
      if ix = ix' ∧ sub = sub' ∧ inst = inst' then normTy (typeOf ix sub) (countUp (typeOf ix sub) (d.rd ix sub inst) k)
      else d.rd ix' sub' inst' := by
  simp only [Dev.inc, Dev.rd_wr]
  split
  · rfl
  · split <;> simp

/-- A run of instances takes one value, and no other entry changes. -/
@[simp] theorem Dev.rd_wrAll (d : Dev) (ix v n ix' sub inst : Nat) :
    (d.wrAll ix v n).rd ix' sub inst =
      if ix = ix' ∧ inst = 0 ∧ 1 ≤ sub ∧ sub ≤ n then normTy (typeOf ix sub) v else d.rd ix' sub inst := by
  induction n with
  | zero =>
    have : ¬ (ix = ix' ∧ inst = 0 ∧ 1 ≤ sub ∧ sub ≤ 0) := by omega
    simp only [Dev.wrAll, this, if_false]
  | succ n ih =>
    simp only [Dev.wrAll, Dev.wI_eq, Dev.rd_wr, ih]
    by_cases h : ix = ix' ∧ n + 1 = sub ∧ 0 = inst
    · obtain ⟨rfl, rfl, rfl⟩ := h
      simp
    · rw [if_neg h]
      by_cases h' : ix = ix' ∧ inst = 0 ∧ 1 ≤ sub ∧ sub ≤ n
      · rw [if_pos h', if_pos (by omega)]
      · rw [if_neg h', if_neg (by omega)]

/-- A number that its unsigned type holds is read back as it is. -/
theorem normTy_nat {ty v : Nat} (h : typeBytes ty ≠ 0) (hs : typeSigned ty = false) (hv : v < 2 ^ (8 * typeBytes ty)) :
    normTy ty (v : Int) = v := by
  simp only [normTy, h, if_false, hs, toTwos]
  norm_cast
  simp [Nat.mod_eq_of_lt hv]

/-- Zero is in the range of every type. -/
@[simp] theorem normTy_zero (ty : Nat) : normTy ty 0 = 0 := by
  simp only [normTy, toTwos, ofTwos]
  split
  · rfl
  · split <;> simp

/-- A number within the bytes of an unsigned entry is read back as it is. -/
theorem normTy_fits {ix sub v n : Nat} (hn : typeBytes (typeOf ix sub) = n + 1) (hs : typeSigned (typeOf ix sub) = false)
    (hv : v < 2 ^ (8 * (n + 1))) : normTy (typeOf ix sub) (v : Int) = v :=
  normTy_nat (by omega) hs (by rwa [hn])

/-- A number within the bytes of a signed entry is read back as it is. -/
theorem normTy_signed_fits {ix sub n : Nat} {v : Int} (hn : typeBytes (typeOf ix sub) = n + 1) (hs : typeSigned (typeOf ix sub) = true)
    (lo : -(2 ^ (8 * n + 7)) ≤ v) (hi : v < 2 ^ (8 * n + 7)) : normTy (typeOf ix sub) v = v := by
  have e : 8 * (n + 1) = (8 * n + 7) + 1 := by ring
  have p : (2 : Int) ^ (8 * n + 7 + 1) = 2 * 2 ^ (8 * n + 7) := by rw [pow_succ]; ring
  have pos : (0 : Int) < 2 ^ (8 * n + 7) := by positivity
  simp only [normTy, hn, hs, toTwos, ofTwos, e]
  push_cast
  have hm : 0 ≤ v % 2 ^ (8 * n + 7 + 1) := Int.emod_nonneg _ (by omega)
  have hlt : v % 2 ^ (8 * n + 7 + 1) < 2 ^ (8 * n + 7 + 1) := Int.emod_lt_of_pos _ (by omega)
  have hN : ((v % 2 ^ (8 * n + 7 + 1)).toNat % 2 ^ (8 * n + 7 + 1) : Nat) = (v % 2 ^ (8 * n + 7 + 1)).toNat := by
    apply Nat.mod_eq_of_lt; zify; rw [Int.toNat_of_nonneg hm]; exact hlt
  rw [hN]
  by_cases h0 : 0 ≤ v
  · have hv : v % 2 ^ (8 * n + 7 + 1) = v := Int.emod_eq_of_lt h0 (by omega)
    rw [hv] at hm ⊢
    simp [h0, Int.emod_eq_of_lt h0 (show v < 2 ^ (8 * n + 7 + 1) by omega), hi]
  · have hv : v % 2 ^ (8 * n + 7 + 1) = v + 2 ^ (8 * n + 7 + 1) := by
      rw [← Int.add_emod_right]; exact Int.emod_eq_of_lt (by omega) (by omega)
    rw [hv] at hm ⊢
    simp only [Int.toNat_of_nonneg hm]
    rw [Int.add_emod_right, hv]
    simp
    omega

/-- Reading depends on the dictionary alone. -/
@[simp] theorem Dev.rd_mk (now : Nat) (long : Tab (List Byte)) (drawn : Nat) (out : Outputs) (cut : CutSt) (hw : HwSt)
    (boot : BootSt) (sup : SupSt) (flt : FltSt) (itk : ItkSt) (chn : ChnSt) (spe : SpeSt) (tb : TbSt) (ctr : CtrSt) (cap : CapSt)
    (trg : TrgSt) (den : DenSt) (vp : VpSt) (str : StrSt) (im : ImSt) (cf : CfSt) (pwr : PwrSt) (cal : CalSt) (d : Dev) (ix sub inst : Nat) :
    Dev.rd ⟨now, d.dict, long, drawn, out, cut, hw, boot, sup, flt, itk, chn, spe, tb, ctr, cap, trg, den, vp, str, im, cf, pwr, cal⟩ ix sub inst
      = d.rd ix sub inst := rfl
end Sys2Proof.Machine
end

