-- ==== Sys2Proof/Laws/State.lean ====
section
/-! SUPPORT. What each shared operation leaves as it was: one lemma for each part of the device and each operation. -/

namespace Sys2Proof.Machine

/-- What one update leaves as it was, a run of updates leaves as it was. -/
theorem foldl_keeps {β γ : Type} (g : Dev → γ) (f : Dev → β → Dev) (h : ∀ a x, g (f a x) = g a) (l : List β) (d : Dev) :
    g (l.foldl f d) = g d := by
  induction l generalizing d with
  | nil => rfl
  | cons x r ih => rw [List.foldl_cons, ih, h]

/-! ### `wr` -/

@[simp] theorem Dev.wr_now (d : Dev) (ix sub inst : Nat) (v : Int) : (d.wr ix sub inst v).now = d.now := rfl
@[simp] theorem Dev.wr_long (d : Dev) (ix sub inst : Nat) (v : Int) : (d.wr ix sub inst v).long = d.long := rfl
@[simp] theorem Dev.wr_drawn (d : Dev) (ix sub inst : Nat) (v : Int) : (d.wr ix sub inst v).drawn = d.drawn := rfl
@[simp] theorem Dev.wr_out (d : Dev) (ix sub inst : Nat) (v : Int) : (d.wr ix sub inst v).out = d.out := rfl
@[simp] theorem Dev.wr_cut (d : Dev) (ix sub inst : Nat) (v : Int) : (d.wr ix sub inst v).cut = d.cut := rfl
@[simp] theorem Dev.wr_hw (d : Dev) (ix sub inst : Nat) (v : Int) : (d.wr ix sub inst v).hw = d.hw := rfl
@[simp] theorem Dev.wr_boot (d : Dev) (ix sub inst : Nat) (v : Int) : (d.wr ix sub inst v).boot = d.boot := rfl
@[simp] theorem Dev.wr_sup (d : Dev) (ix sub inst : Nat) (v : Int) : (d.wr ix sub inst v).sup = d.sup := rfl
@[simp] theorem Dev.wr_flt (d : Dev) (ix sub inst : Nat) (v : Int) : (d.wr ix sub inst v).flt = d.flt := rfl
@[simp] theorem Dev.wr_itk (d : Dev) (ix sub inst : Nat) (v : Int) : (d.wr ix sub inst v).itk = d.itk := rfl
@[simp] theorem Dev.wr_chn (d : Dev) (ix sub inst : Nat) (v : Int) : (d.wr ix sub inst v).chn = d.chn := rfl
@[simp] theorem Dev.wr_spe (d : Dev) (ix sub inst : Nat) (v : Int) : (d.wr ix sub inst v).spe = d.spe := rfl
@[simp] theorem Dev.wr_tb (d : Dev) (ix sub inst : Nat) (v : Int) : (d.wr ix sub inst v).tb = d.tb := rfl
@[simp] theorem Dev.wr_ctr (d : Dev) (ix sub inst : Nat) (v : Int) : (d.wr ix sub inst v).ctr = d.ctr := rfl
@[simp] theorem Dev.wr_cap (d : Dev) (ix sub inst : Nat) (v : Int) : (d.wr ix sub inst v).cap = d.cap := rfl
@[simp] theorem Dev.wr_trg (d : Dev) (ix sub inst : Nat) (v : Int) : (d.wr ix sub inst v).trg = d.trg := rfl
@[simp] theorem Dev.wr_den (d : Dev) (ix sub inst : Nat) (v : Int) : (d.wr ix sub inst v).den = d.den := rfl
@[simp] theorem Dev.wr_vp (d : Dev) (ix sub inst : Nat) (v : Int) : (d.wr ix sub inst v).vp = d.vp := rfl
@[simp] theorem Dev.wr_str (d : Dev) (ix sub inst : Nat) (v : Int) : (d.wr ix sub inst v).str = d.str := rfl
@[simp] theorem Dev.wr_im (d : Dev) (ix sub inst : Nat) (v : Int) : (d.wr ix sub inst v).im = d.im := rfl
@[simp] theorem Dev.wr_cf (d : Dev) (ix sub inst : Nat) (v : Int) : (d.wr ix sub inst v).cf = d.cf := rfl
@[simp] theorem Dev.wr_pwr (d : Dev) (ix sub inst : Nat) (v : Int) : (d.wr ix sub inst v).pwr = d.pwr := rfl
@[simp] theorem Dev.wr_cal (d : Dev) (ix sub inst : Nat) (v : Int) : (d.wr ix sub inst v).cal = d.cal := rfl

/-! ### `markWrap` -/

@[simp] theorem Dev.markWrap_now (d : Dev) (k : Option Nat) (v : Int) : (d.markWrap k v).now = d.now := by unfold Dev.markWrap; split <;> (try split) <;> rfl
@[simp] theorem Dev.markWrap_long (d : Dev) (k : Option Nat) (v : Int) : (d.markWrap k v).long = d.long := by unfold Dev.markWrap; split <;> (try split) <;> rfl
@[simp] theorem Dev.markWrap_drawn (d : Dev) (k : Option Nat) (v : Int) : (d.markWrap k v).drawn = d.drawn := by unfold Dev.markWrap; split <;> (try split) <;> rfl
@[simp] theorem Dev.markWrap_out (d : Dev) (k : Option Nat) (v : Int) : (d.markWrap k v).out = d.out := by unfold Dev.markWrap; split <;> (try split) <;> rfl
@[simp] theorem Dev.markWrap_cut (d : Dev) (k : Option Nat) (v : Int) : (d.markWrap k v).cut = d.cut := by unfold Dev.markWrap; split <;> (try split) <;> rfl
@[simp] theorem Dev.markWrap_hw (d : Dev) (k : Option Nat) (v : Int) : (d.markWrap k v).hw = d.hw := by unfold Dev.markWrap; split <;> (try split) <;> rfl
@[simp] theorem Dev.markWrap_boot (d : Dev) (k : Option Nat) (v : Int) : (d.markWrap k v).boot = d.boot := by unfold Dev.markWrap; split <;> (try split) <;> rfl
@[simp] theorem Dev.markWrap_sup (d : Dev) (k : Option Nat) (v : Int) : (d.markWrap k v).sup = d.sup := by unfold Dev.markWrap; split <;> (try split) <;> rfl
@[simp] theorem Dev.markWrap_flt (d : Dev) (k : Option Nat) (v : Int) : (d.markWrap k v).flt = d.flt := by unfold Dev.markWrap; split <;> (try split) <;> rfl
@[simp] theorem Dev.markWrap_itk (d : Dev) (k : Option Nat) (v : Int) : (d.markWrap k v).itk = d.itk := by unfold Dev.markWrap; split <;> (try split) <;> rfl
@[simp] theorem Dev.markWrap_chn (d : Dev) (k : Option Nat) (v : Int) : (d.markWrap k v).chn = d.chn := by unfold Dev.markWrap; split <;> (try split) <;> rfl
@[simp] theorem Dev.markWrap_spe (d : Dev) (k : Option Nat) (v : Int) : (d.markWrap k v).spe = d.spe := by unfold Dev.markWrap; split <;> (try split) <;> rfl
@[simp] theorem Dev.markWrap_tb (d : Dev) (k : Option Nat) (v : Int) : (d.markWrap k v).tb = d.tb := by unfold Dev.markWrap; split <;> (try split) <;> rfl
@[simp] theorem Dev.markWrap_cap (d : Dev) (k : Option Nat) (v : Int) : (d.markWrap k v).cap = d.cap := by unfold Dev.markWrap; split <;> (try split) <;> rfl
@[simp] theorem Dev.markWrap_trg (d : Dev) (k : Option Nat) (v : Int) : (d.markWrap k v).trg = d.trg := by unfold Dev.markWrap; split <;> (try split) <;> rfl
@[simp] theorem Dev.markWrap_den (d : Dev) (k : Option Nat) (v : Int) : (d.markWrap k v).den = d.den := by unfold Dev.markWrap; split <;> (try split) <;> rfl
@[simp] theorem Dev.markWrap_vp (d : Dev) (k : Option Nat) (v : Int) : (d.markWrap k v).vp = d.vp := by unfold Dev.markWrap; split <;> (try split) <;> rfl
@[simp] theorem Dev.markWrap_str (d : Dev) (k : Option Nat) (v : Int) : (d.markWrap k v).str = d.str := by unfold Dev.markWrap; split <;> (try split) <;> rfl
@[simp] theorem Dev.markWrap_im (d : Dev) (k : Option Nat) (v : Int) : (d.markWrap k v).im = d.im := by unfold Dev.markWrap; split <;> (try split) <;> rfl
@[simp] theorem Dev.markWrap_cf (d : Dev) (k : Option Nat) (v : Int) : (d.markWrap k v).cf = d.cf := by unfold Dev.markWrap; split <;> (try split) <;> rfl
@[simp] theorem Dev.markWrap_pwr (d : Dev) (k : Option Nat) (v : Int) : (d.markWrap k v).pwr = d.pwr := by unfold Dev.markWrap; split <;> (try split) <;> rfl
@[simp] theorem Dev.markWrap_cal (d : Dev) (k : Option Nat) (v : Int) : (d.markWrap k v).cal = d.cal := by unfold Dev.markWrap; split <;> (try split) <;> rfl

/-! ### `inc` -/

@[simp] theorem Dev.inc_now (d : Dev) (ix sub inst k : Nat) : (d.inc ix sub inst k).now = d.now := by simp only [Dev.inc, Dev.wr_now]; split <;> simp
@[simp] theorem Dev.inc_long (d : Dev) (ix sub inst k : Nat) : (d.inc ix sub inst k).long = d.long := by simp only [Dev.inc, Dev.wr_long]; split <;> simp
@[simp] theorem Dev.inc_drawn (d : Dev) (ix sub inst k : Nat) : (d.inc ix sub inst k).drawn = d.drawn := by simp only [Dev.inc, Dev.wr_drawn]; split <;> simp
@[simp] theorem Dev.inc_out (d : Dev) (ix sub inst k : Nat) : (d.inc ix sub inst k).out = d.out := by simp only [Dev.inc, Dev.wr_out]; split <;> simp
@[simp] theorem Dev.inc_cut (d : Dev) (ix sub inst k : Nat) : (d.inc ix sub inst k).cut = d.cut := by simp only [Dev.inc, Dev.wr_cut]; split <;> simp
@[simp] theorem Dev.inc_hw (d : Dev) (ix sub inst k : Nat) : (d.inc ix sub inst k).hw = d.hw := by simp only [Dev.inc, Dev.wr_hw]; split <;> simp
@[simp] theorem Dev.inc_boot (d : Dev) (ix sub inst k : Nat) : (d.inc ix sub inst k).boot = d.boot := by simp only [Dev.inc, Dev.wr_boot]; split <;> simp
@[simp] theorem Dev.inc_sup (d : Dev) (ix sub inst k : Nat) : (d.inc ix sub inst k).sup = d.sup := by simp only [Dev.inc, Dev.wr_sup]; split <;> simp
@[simp] theorem Dev.inc_flt (d : Dev) (ix sub inst k : Nat) : (d.inc ix sub inst k).flt = d.flt := by simp only [Dev.inc, Dev.wr_flt]; split <;> simp
@[simp] theorem Dev.inc_itk (d : Dev) (ix sub inst k : Nat) : (d.inc ix sub inst k).itk = d.itk := by simp only [Dev.inc, Dev.wr_itk]; split <;> simp
@[simp] theorem Dev.inc_chn (d : Dev) (ix sub inst k : Nat) : (d.inc ix sub inst k).chn = d.chn := by simp only [Dev.inc, Dev.wr_chn]; split <;> simp
@[simp] theorem Dev.inc_spe (d : Dev) (ix sub inst k : Nat) : (d.inc ix sub inst k).spe = d.spe := by simp only [Dev.inc, Dev.wr_spe]; split <;> simp
@[simp] theorem Dev.inc_tb (d : Dev) (ix sub inst k : Nat) : (d.inc ix sub inst k).tb = d.tb := by simp only [Dev.inc, Dev.wr_tb]; split <;> simp
@[simp] theorem Dev.inc_cap (d : Dev) (ix sub inst k : Nat) : (d.inc ix sub inst k).cap = d.cap := by simp only [Dev.inc, Dev.wr_cap]; split <;> simp
@[simp] theorem Dev.inc_trg (d : Dev) (ix sub inst k : Nat) : (d.inc ix sub inst k).trg = d.trg := by simp only [Dev.inc, Dev.wr_trg]; split <;> simp
@[simp] theorem Dev.inc_den (d : Dev) (ix sub inst k : Nat) : (d.inc ix sub inst k).den = d.den := by simp only [Dev.inc, Dev.wr_den]; split <;> simp
@[simp] theorem Dev.inc_vp (d : Dev) (ix sub inst k : Nat) : (d.inc ix sub inst k).vp = d.vp := by simp only [Dev.inc, Dev.wr_vp]; split <;> simp
@[simp] theorem Dev.inc_str (d : Dev) (ix sub inst k : Nat) : (d.inc ix sub inst k).str = d.str := by simp only [Dev.inc, Dev.wr_str]; split <;> simp
@[simp] theorem Dev.inc_im (d : Dev) (ix sub inst k : Nat) : (d.inc ix sub inst k).im = d.im := by simp only [Dev.inc, Dev.wr_im]; split <;> simp
@[simp] theorem Dev.inc_cf (d : Dev) (ix sub inst k : Nat) : (d.inc ix sub inst k).cf = d.cf := by simp only [Dev.inc, Dev.wr_cf]; split <;> simp
@[simp] theorem Dev.inc_pwr (d : Dev) (ix sub inst k : Nat) : (d.inc ix sub inst k).pwr = d.pwr := by simp only [Dev.inc, Dev.wr_pwr]; split <;> simp
@[simp] theorem Dev.inc_cal (d : Dev) (ix sub inst k : Nat) : (d.inc ix sub inst k).cal = d.cal := by simp only [Dev.inc, Dev.wr_cal]; split <;> simp

/-! ### `emitTo` -/

@[simp] theorem Dev.emitTo_now (d : Dev) (ring lostIx : Nat) (r : Rec) : (d.emitTo ring lostIx r).now = d.now := by unfold Dev.emitTo; (repeat' split) <;> simp
@[simp] theorem Dev.emitTo_long (d : Dev) (ring lostIx : Nat) (r : Rec) : (d.emitTo ring lostIx r).long = d.long := by unfold Dev.emitTo; (repeat' split) <;> simp
@[simp] theorem Dev.emitTo_drawn (d : Dev) (ring lostIx : Nat) (r : Rec) : (d.emitTo ring lostIx r).drawn = d.drawn := by unfold Dev.emitTo; (repeat' split) <;> simp
@[simp] theorem Dev.emitTo_cut (d : Dev) (ring lostIx : Nat) (r : Rec) : (d.emitTo ring lostIx r).cut = d.cut := by unfold Dev.emitTo; (repeat' split) <;> simp
@[simp] theorem Dev.emitTo_hw (d : Dev) (ring lostIx : Nat) (r : Rec) : (d.emitTo ring lostIx r).hw = d.hw := by unfold Dev.emitTo; (repeat' split) <;> simp
@[simp] theorem Dev.emitTo_boot (d : Dev) (ring lostIx : Nat) (r : Rec) : (d.emitTo ring lostIx r).boot = d.boot := by unfold Dev.emitTo; (repeat' split) <;> simp
@[simp] theorem Dev.emitTo_sup (d : Dev) (ring lostIx : Nat) (r : Rec) : (d.emitTo ring lostIx r).sup = d.sup := by unfold Dev.emitTo; (repeat' split) <;> simp
@[simp] theorem Dev.emitTo_flt (d : Dev) (ring lostIx : Nat) (r : Rec) : (d.emitTo ring lostIx r).flt = d.flt := by unfold Dev.emitTo; (repeat' split) <;> simp
@[simp] theorem Dev.emitTo_itk (d : Dev) (ring lostIx : Nat) (r : Rec) : (d.emitTo ring lostIx r).itk = d.itk := by unfold Dev.emitTo; (repeat' split) <;> simp
@[simp] theorem Dev.emitTo_chn (d : Dev) (ring lostIx : Nat) (r : Rec) : (d.emitTo ring lostIx r).chn = d.chn := by unfold Dev.emitTo; (repeat' split) <;> simp
@[simp] theorem Dev.emitTo_spe (d : Dev) (ring lostIx : Nat) (r : Rec) : (d.emitTo ring lostIx r).spe = d.spe := by unfold Dev.emitTo; (repeat' split) <;> simp
@[simp] theorem Dev.emitTo_tb (d : Dev) (ring lostIx : Nat) (r : Rec) : (d.emitTo ring lostIx r).tb = d.tb := by unfold Dev.emitTo; (repeat' split) <;> simp
@[simp] theorem Dev.emitTo_cap (d : Dev) (ring lostIx : Nat) (r : Rec) : (d.emitTo ring lostIx r).cap = d.cap := by unfold Dev.emitTo; (repeat' split) <;> simp
@[simp] theorem Dev.emitTo_trg (d : Dev) (ring lostIx : Nat) (r : Rec) : (d.emitTo ring lostIx r).trg = d.trg := by unfold Dev.emitTo; (repeat' split) <;> simp
@[simp] theorem Dev.emitTo_den (d : Dev) (ring lostIx : Nat) (r : Rec) : (d.emitTo ring lostIx r).den = d.den := by unfold Dev.emitTo; (repeat' split) <;> simp
@[simp] theorem Dev.emitTo_vp (d : Dev) (ring lostIx : Nat) (r : Rec) : (d.emitTo ring lostIx r).vp = d.vp := by unfold Dev.emitTo; (repeat' split) <;> simp
@[simp] theorem Dev.emitTo_str (d : Dev) (ring lostIx : Nat) (r : Rec) : (d.emitTo ring lostIx r).str = d.str := by unfold Dev.emitTo; (repeat' split) <;> simp
@[simp] theorem Dev.emitTo_im (d : Dev) (ring lostIx : Nat) (r : Rec) : (d.emitTo ring lostIx r).im = d.im := by unfold Dev.emitTo; (repeat' split) <;> simp
@[simp] theorem Dev.emitTo_cf (d : Dev) (ring lostIx : Nat) (r : Rec) : (d.emitTo ring lostIx r).cf = d.cf := by unfold Dev.emitTo; (repeat' split) <;> simp
@[simp] theorem Dev.emitTo_pwr (d : Dev) (ring lostIx : Nat) (r : Rec) : (d.emitTo ring lostIx r).pwr = d.pwr := by unfold Dev.emitTo; (repeat' split) <;> simp
@[simp] theorem Dev.emitTo_cal (d : Dev) (ring lostIx : Nat) (r : Rec) : (d.emitTo ring lostIx r).cal = d.cal := by unfold Dev.emitTo; (repeat' split) <;> simp

/-! ### `emit` -/

@[simp] theorem Dev.emit_now (d : Dev) (isl : Nat) (r : Rec) : (d.emit isl r).now = d.now := by simp only [Dev.emit]; split <;> simp
@[simp] theorem Dev.emit_long (d : Dev) (isl : Nat) (r : Rec) : (d.emit isl r).long = d.long := by simp only [Dev.emit]; split <;> simp
@[simp] theorem Dev.emit_drawn (d : Dev) (isl : Nat) (r : Rec) : (d.emit isl r).drawn = d.drawn := by simp only [Dev.emit]; split <;> simp
@[simp] theorem Dev.emit_cut (d : Dev) (isl : Nat) (r : Rec) : (d.emit isl r).cut = d.cut := by simp only [Dev.emit]; split <;> simp
@[simp] theorem Dev.emit_hw (d : Dev) (isl : Nat) (r : Rec) : (d.emit isl r).hw = d.hw := by simp only [Dev.emit]; split <;> simp
@[simp] theorem Dev.emit_boot (d : Dev) (isl : Nat) (r : Rec) : (d.emit isl r).boot = d.boot := by simp only [Dev.emit]; split <;> simp
@[simp] theorem Dev.emit_sup (d : Dev) (isl : Nat) (r : Rec) : (d.emit isl r).sup = d.sup := by simp only [Dev.emit]; split <;> simp
@[simp] theorem Dev.emit_flt (d : Dev) (isl : Nat) (r : Rec) : (d.emit isl r).flt = d.flt := by simp only [Dev.emit]; split <;> simp
@[simp] theorem Dev.emit_itk (d : Dev) (isl : Nat) (r : Rec) : (d.emit isl r).itk = d.itk := by simp only [Dev.emit]; split <;> simp
@[simp] theorem Dev.emit_chn (d : Dev) (isl : Nat) (r : Rec) : (d.emit isl r).chn = d.chn := by simp only [Dev.emit]; split <;> simp
@[simp] theorem Dev.emit_spe (d : Dev) (isl : Nat) (r : Rec) : (d.emit isl r).spe = d.spe := by simp only [Dev.emit]; split <;> simp
@[simp] theorem Dev.emit_tb (d : Dev) (isl : Nat) (r : Rec) : (d.emit isl r).tb = d.tb := by simp only [Dev.emit]; split <;> simp
@[simp] theorem Dev.emit_cap (d : Dev) (isl : Nat) (r : Rec) : (d.emit isl r).cap = d.cap := by simp only [Dev.emit]; split <;> simp
@[simp] theorem Dev.emit_trg (d : Dev) (isl : Nat) (r : Rec) : (d.emit isl r).trg = d.trg := by simp only [Dev.emit]; split <;> simp
@[simp] theorem Dev.emit_den (d : Dev) (isl : Nat) (r : Rec) : (d.emit isl r).den = d.den := by simp only [Dev.emit]; split <;> simp
@[simp] theorem Dev.emit_vp (d : Dev) (isl : Nat) (r : Rec) : (d.emit isl r).vp = d.vp := by simp only [Dev.emit]; split <;> simp
@[simp] theorem Dev.emit_str (d : Dev) (isl : Nat) (r : Rec) : (d.emit isl r).str = d.str := by simp only [Dev.emit]; split <;> simp
@[simp] theorem Dev.emit_im (d : Dev) (isl : Nat) (r : Rec) : (d.emit isl r).im = d.im := by simp only [Dev.emit]; split <;> simp
@[simp] theorem Dev.emit_cf (d : Dev) (isl : Nat) (r : Rec) : (d.emit isl r).cf = d.cf := by simp only [Dev.emit]; split <;> simp
@[simp] theorem Dev.emit_pwr (d : Dev) (isl : Nat) (r : Rec) : (d.emit isl r).pwr = d.pwr := by simp only [Dev.emit]; split <;> simp
@[simp] theorem Dev.emit_cal (d : Dev) (isl : Nat) (r : Rec) : (d.emit isl r).cal = d.cal := by simp only [Dev.emit]; split <;> simp

/-! ### `nextSeq` -/

@[simp] theorem Dev.nextSeq_now (d : Dev) (k : Nat) : ((d.nextSeq k).2).now = d.now := rfl
@[simp] theorem Dev.nextSeq_dict (d : Dev) (k : Nat) : ((d.nextSeq k).2).dict = d.dict := rfl
@[simp] theorem Dev.nextSeq_long (d : Dev) (k : Nat) : ((d.nextSeq k).2).long = d.long := rfl
@[simp] theorem Dev.nextSeq_drawn (d : Dev) (k : Nat) : ((d.nextSeq k).2).drawn = d.drawn := rfl
@[simp] theorem Dev.nextSeq_cut (d : Dev) (k : Nat) : ((d.nextSeq k).2).cut = d.cut := rfl
@[simp] theorem Dev.nextSeq_hw (d : Dev) (k : Nat) : ((d.nextSeq k).2).hw = d.hw := rfl
@[simp] theorem Dev.nextSeq_boot (d : Dev) (k : Nat) : ((d.nextSeq k).2).boot = d.boot := rfl
@[simp] theorem Dev.nextSeq_sup (d : Dev) (k : Nat) : ((d.nextSeq k).2).sup = d.sup := rfl
@[simp] theorem Dev.nextSeq_flt (d : Dev) (k : Nat) : ((d.nextSeq k).2).flt = d.flt := rfl
@[simp] theorem Dev.nextSeq_itk (d : Dev) (k : Nat) : ((d.nextSeq k).2).itk = d.itk := rfl
@[simp] theorem Dev.nextSeq_chn (d : Dev) (k : Nat) : ((d.nextSeq k).2).chn = d.chn := rfl
@[simp] theorem Dev.nextSeq_spe (d : Dev) (k : Nat) : ((d.nextSeq k).2).spe = d.spe := rfl
@[simp] theorem Dev.nextSeq_tb (d : Dev) (k : Nat) : ((d.nextSeq k).2).tb = d.tb := rfl
@[simp] theorem Dev.nextSeq_ctr (d : Dev) (k : Nat) : ((d.nextSeq k).2).ctr = d.ctr := rfl
@[simp] theorem Dev.nextSeq_cap (d : Dev) (k : Nat) : ((d.nextSeq k).2).cap = d.cap := rfl
@[simp] theorem Dev.nextSeq_trg (d : Dev) (k : Nat) : ((d.nextSeq k).2).trg = d.trg := rfl
@[simp] theorem Dev.nextSeq_den (d : Dev) (k : Nat) : ((d.nextSeq k).2).den = d.den := rfl
@[simp] theorem Dev.nextSeq_vp (d : Dev) (k : Nat) : ((d.nextSeq k).2).vp = d.vp := rfl
@[simp] theorem Dev.nextSeq_str (d : Dev) (k : Nat) : ((d.nextSeq k).2).str = d.str := rfl
@[simp] theorem Dev.nextSeq_im (d : Dev) (k : Nat) : ((d.nextSeq k).2).im = d.im := rfl
@[simp] theorem Dev.nextSeq_cf (d : Dev) (k : Nat) : ((d.nextSeq k).2).cf = d.cf := rfl
@[simp] theorem Dev.nextSeq_pwr (d : Dev) (k : Nat) : ((d.nextSeq k).2).pwr = d.pwr := rfl
@[simp] theorem Dev.nextSeq_cal (d : Dev) (k : Nat) : ((d.nextSeq k).2).cal = d.cal := rfl

/-! ### `event` -/

@[simp] theorem Dev.event_now (d : Dev) (isl tag kind obj time a b : Nat) : (d.event isl tag kind obj time a b).now = d.now := by simp [Dev.event]
@[simp] theorem Dev.event_long (d : Dev) (isl tag kind obj time a b : Nat) : (d.event isl tag kind obj time a b).long = d.long := by simp [Dev.event]
@[simp] theorem Dev.event_drawn (d : Dev) (isl tag kind obj time a b : Nat) : (d.event isl tag kind obj time a b).drawn = d.drawn := by simp [Dev.event]
@[simp] theorem Dev.event_cut (d : Dev) (isl tag kind obj time a b : Nat) : (d.event isl tag kind obj time a b).cut = d.cut := by simp [Dev.event]
@[simp] theorem Dev.event_hw (d : Dev) (isl tag kind obj time a b : Nat) : (d.event isl tag kind obj time a b).hw = d.hw := by simp [Dev.event]
@[simp] theorem Dev.event_boot (d : Dev) (isl tag kind obj time a b : Nat) : (d.event isl tag kind obj time a b).boot = d.boot := by simp [Dev.event]
@[simp] theorem Dev.event_sup (d : Dev) (isl tag kind obj time a b : Nat) : (d.event isl tag kind obj time a b).sup = d.sup := by simp [Dev.event]
@[simp] theorem Dev.event_flt (d : Dev) (isl tag kind obj time a b : Nat) : (d.event isl tag kind obj time a b).flt = d.flt := by simp [Dev.event]
@[simp] theorem Dev.event_itk (d : Dev) (isl tag kind obj time a b : Nat) : (d.event isl tag kind obj time a b).itk = d.itk := by simp [Dev.event]
@[simp] theorem Dev.event_chn (d : Dev) (isl tag kind obj time a b : Nat) : (d.event isl tag kind obj time a b).chn = d.chn := by simp [Dev.event]
@[simp] theorem Dev.event_spe (d : Dev) (isl tag kind obj time a b : Nat) : (d.event isl tag kind obj time a b).spe = d.spe := by simp [Dev.event]
@[simp] theorem Dev.event_tb (d : Dev) (isl tag kind obj time a b : Nat) : (d.event isl tag kind obj time a b).tb = d.tb := by simp [Dev.event]
@[simp] theorem Dev.event_cap (d : Dev) (isl tag kind obj time a b : Nat) : (d.event isl tag kind obj time a b).cap = d.cap := by simp [Dev.event]
@[simp] theorem Dev.event_trg (d : Dev) (isl tag kind obj time a b : Nat) : (d.event isl tag kind obj time a b).trg = d.trg := by simp [Dev.event]
@[simp] theorem Dev.event_den (d : Dev) (isl tag kind obj time a b : Nat) : (d.event isl tag kind obj time a b).den = d.den := by simp [Dev.event]
@[simp] theorem Dev.event_vp (d : Dev) (isl tag kind obj time a b : Nat) : (d.event isl tag kind obj time a b).vp = d.vp := by simp [Dev.event]
@[simp] theorem Dev.event_str (d : Dev) (isl tag kind obj time a b : Nat) : (d.event isl tag kind obj time a b).str = d.str := by simp [Dev.event]
@[simp] theorem Dev.event_im (d : Dev) (isl tag kind obj time a b : Nat) : (d.event isl tag kind obj time a b).im = d.im := by simp [Dev.event]
@[simp] theorem Dev.event_cf (d : Dev) (isl tag kind obj time a b : Nat) : (d.event isl tag kind obj time a b).cf = d.cf := by simp [Dev.event]
@[simp] theorem Dev.event_pwr (d : Dev) (isl tag kind obj time a b : Nat) : (d.event isl tag kind obj time a b).pwr = d.pwr := by simp [Dev.event]
@[simp] theorem Dev.event_cal (d : Dev) (isl tag kind obj time a b : Nat) : (d.event isl tag kind obj time a b).cal = d.cal := by simp [Dev.event]

/-! ### `happen` -/

@[simp] theorem Dev.happen_now (d : Dev) (h : Happening) : (d.happen h).now = d.now := rfl
@[simp] theorem Dev.happen_dict (d : Dev) (h : Happening) : (d.happen h).dict = d.dict := rfl
@[simp] theorem Dev.happen_long (d : Dev) (h : Happening) : (d.happen h).long = d.long := rfl
@[simp] theorem Dev.happen_drawn (d : Dev) (h : Happening) : (d.happen h).drawn = d.drawn := rfl
@[simp] theorem Dev.happen_cut (d : Dev) (h : Happening) : (d.happen h).cut = d.cut := rfl
@[simp] theorem Dev.happen_hw (d : Dev) (h : Happening) : (d.happen h).hw = d.hw := rfl
@[simp] theorem Dev.happen_boot (d : Dev) (h : Happening) : (d.happen h).boot = d.boot := rfl
@[simp] theorem Dev.happen_sup (d : Dev) (h : Happening) : (d.happen h).sup = d.sup := rfl
@[simp] theorem Dev.happen_flt (d : Dev) (h : Happening) : (d.happen h).flt = d.flt := rfl
@[simp] theorem Dev.happen_itk (d : Dev) (h : Happening) : (d.happen h).itk = d.itk := rfl
@[simp] theorem Dev.happen_chn (d : Dev) (h : Happening) : (d.happen h).chn = d.chn := rfl
@[simp] theorem Dev.happen_spe (d : Dev) (h : Happening) : (d.happen h).spe = d.spe := rfl
@[simp] theorem Dev.happen_tb (d : Dev) (h : Happening) : (d.happen h).tb = d.tb := rfl
@[simp] theorem Dev.happen_ctr (d : Dev) (h : Happening) : (d.happen h).ctr = d.ctr := rfl
@[simp] theorem Dev.happen_cap (d : Dev) (h : Happening) : (d.happen h).cap = d.cap := rfl
@[simp] theorem Dev.happen_trg (d : Dev) (h : Happening) : (d.happen h).trg = d.trg := rfl
@[simp] theorem Dev.happen_den (d : Dev) (h : Happening) : (d.happen h).den = d.den := rfl
@[simp] theorem Dev.happen_vp (d : Dev) (h : Happening) : (d.happen h).vp = d.vp := rfl
@[simp] theorem Dev.happen_str (d : Dev) (h : Happening) : (d.happen h).str = d.str := rfl
@[simp] theorem Dev.happen_im (d : Dev) (h : Happening) : (d.happen h).im = d.im := rfl
@[simp] theorem Dev.happen_cf (d : Dev) (h : Happening) : (d.happen h).cf = d.cf := rfl
@[simp] theorem Dev.happen_pwr (d : Dev) (h : Happening) : (d.happen h).pwr = d.pwr := rfl
@[simp] theorem Dev.happen_cal (d : Dev) (h : Happening) : (d.happen h).cal = d.cal := rfl

/-! ### `gap` -/

@[simp] theorem Dev.gap_now (d : Dev) (g : Gap) : (d.gap g).now = d.now := rfl
@[simp] theorem Dev.gap_dict (d : Dev) (g : Gap) : (d.gap g).dict = d.dict := rfl
@[simp] theorem Dev.gap_long (d : Dev) (g : Gap) : (d.gap g).long = d.long := rfl
@[simp] theorem Dev.gap_drawn (d : Dev) (g : Gap) : (d.gap g).drawn = d.drawn := rfl
@[simp] theorem Dev.gap_cut (d : Dev) (g : Gap) : (d.gap g).cut = d.cut := rfl
@[simp] theorem Dev.gap_hw (d : Dev) (g : Gap) : (d.gap g).hw = d.hw := rfl
@[simp] theorem Dev.gap_boot (d : Dev) (g : Gap) : (d.gap g).boot = d.boot := rfl
@[simp] theorem Dev.gap_sup (d : Dev) (g : Gap) : (d.gap g).sup = d.sup := rfl
@[simp] theorem Dev.gap_flt (d : Dev) (g : Gap) : (d.gap g).flt = d.flt := rfl
@[simp] theorem Dev.gap_itk (d : Dev) (g : Gap) : (d.gap g).itk = d.itk := rfl
@[simp] theorem Dev.gap_chn (d : Dev) (g : Gap) : (d.gap g).chn = d.chn := rfl
@[simp] theorem Dev.gap_spe (d : Dev) (g : Gap) : (d.gap g).spe = d.spe := rfl
@[simp] theorem Dev.gap_tb (d : Dev) (g : Gap) : (d.gap g).tb = d.tb := rfl
@[simp] theorem Dev.gap_ctr (d : Dev) (g : Gap) : (d.gap g).ctr = d.ctr := rfl
@[simp] theorem Dev.gap_cap (d : Dev) (g : Gap) : (d.gap g).cap = d.cap := rfl
@[simp] theorem Dev.gap_trg (d : Dev) (g : Gap) : (d.gap g).trg = d.trg := rfl
@[simp] theorem Dev.gap_den (d : Dev) (g : Gap) : (d.gap g).den = d.den := rfl
@[simp] theorem Dev.gap_vp (d : Dev) (g : Gap) : (d.gap g).vp = d.vp := rfl
@[simp] theorem Dev.gap_str (d : Dev) (g : Gap) : (d.gap g).str = d.str := rfl
@[simp] theorem Dev.gap_im (d : Dev) (g : Gap) : (d.gap g).im = d.im := rfl
@[simp] theorem Dev.gap_cf (d : Dev) (g : Gap) : (d.gap g).cf = d.cf := rfl
@[simp] theorem Dev.gap_pwr (d : Dev) (g : Gap) : (d.gap g).pwr = d.pwr := rfl
@[simp] theorem Dev.gap_cal (d : Dev) (g : Gap) : (d.gap g).cal = d.cal := rfl

/-! ### `draw` -/

@[simp] theorem Dev.draw_now (d : Dev) (k : Nat) : ((d.draw k).2).now = d.now := rfl
@[simp] theorem Dev.draw_dict (d : Dev) (k : Nat) : ((d.draw k).2).dict = d.dict := rfl
@[simp] theorem Dev.draw_long (d : Dev) (k : Nat) : ((d.draw k).2).long = d.long := rfl
@[simp] theorem Dev.draw_out (d : Dev) (k : Nat) : ((d.draw k).2).out = d.out := rfl
@[simp] theorem Dev.draw_cut (d : Dev) (k : Nat) : ((d.draw k).2).cut = d.cut := rfl
@[simp] theorem Dev.draw_hw (d : Dev) (k : Nat) : ((d.draw k).2).hw = d.hw := rfl
@[simp] theorem Dev.draw_boot (d : Dev) (k : Nat) : ((d.draw k).2).boot = d.boot := rfl
@[simp] theorem Dev.draw_sup (d : Dev) (k : Nat) : ((d.draw k).2).sup = d.sup := rfl
@[simp] theorem Dev.draw_flt (d : Dev) (k : Nat) : ((d.draw k).2).flt = d.flt := rfl
@[simp] theorem Dev.draw_itk (d : Dev) (k : Nat) : ((d.draw k).2).itk = d.itk := rfl
@[simp] theorem Dev.draw_chn (d : Dev) (k : Nat) : ((d.draw k).2).chn = d.chn := rfl
@[simp] theorem Dev.draw_spe (d : Dev) (k : Nat) : ((d.draw k).2).spe = d.spe := rfl
@[simp] theorem Dev.draw_tb (d : Dev) (k : Nat) : ((d.draw k).2).tb = d.tb := rfl
@[simp] theorem Dev.draw_ctr (d : Dev) (k : Nat) : ((d.draw k).2).ctr = d.ctr := rfl
@[simp] theorem Dev.draw_cap (d : Dev) (k : Nat) : ((d.draw k).2).cap = d.cap := rfl
@[simp] theorem Dev.draw_trg (d : Dev) (k : Nat) : ((d.draw k).2).trg = d.trg := rfl
@[simp] theorem Dev.draw_den (d : Dev) (k : Nat) : ((d.draw k).2).den = d.den := rfl
@[simp] theorem Dev.draw_vp (d : Dev) (k : Nat) : ((d.draw k).2).vp = d.vp := rfl
@[simp] theorem Dev.draw_str (d : Dev) (k : Nat) : ((d.draw k).2).str = d.str := rfl
@[simp] theorem Dev.draw_im (d : Dev) (k : Nat) : ((d.draw k).2).im = d.im := rfl
@[simp] theorem Dev.draw_cf (d : Dev) (k : Nat) : ((d.draw k).2).cf = d.cf := rfl
@[simp] theorem Dev.draw_pwr (d : Dev) (k : Nat) : ((d.draw k).2).pwr = d.pwr := rfl
@[simp] theorem Dev.draw_cal (d : Dev) (k : Nat) : ((d.draw k).2).cal = d.cal := rfl

/-! ### `pushHistory` -/

@[simp] theorem Dev.pushHistory_now (d : Dev) (c : Nat) : (d.pushHistory c).now = d.now := by simp [Dev.pushHistory, List.range, List.range.loop]
@[simp] theorem Dev.pushHistory_long (d : Dev) (c : Nat) : (d.pushHistory c).long = d.long := by simp [Dev.pushHistory, List.range, List.range.loop]
@[simp] theorem Dev.pushHistory_drawn (d : Dev) (c : Nat) : (d.pushHistory c).drawn = d.drawn := by simp [Dev.pushHistory, List.range, List.range.loop]
@[simp] theorem Dev.pushHistory_out (d : Dev) (c : Nat) : (d.pushHistory c).out = d.out := by simp [Dev.pushHistory, List.range, List.range.loop]
@[simp] theorem Dev.pushHistory_cut (d : Dev) (c : Nat) : (d.pushHistory c).cut = d.cut := by simp [Dev.pushHistory, List.range, List.range.loop]
@[simp] theorem Dev.pushHistory_hw (d : Dev) (c : Nat) : (d.pushHistory c).hw = d.hw := by simp [Dev.pushHistory, List.range, List.range.loop]
@[simp] theorem Dev.pushHistory_boot (d : Dev) (c : Nat) : (d.pushHistory c).boot = d.boot := by simp [Dev.pushHistory, List.range, List.range.loop]
@[simp] theorem Dev.pushHistory_sup (d : Dev) (c : Nat) : (d.pushHistory c).sup = d.sup := by simp [Dev.pushHistory, List.range, List.range.loop]
@[simp] theorem Dev.pushHistory_flt (d : Dev) (c : Nat) : (d.pushHistory c).flt = d.flt := by simp [Dev.pushHistory, List.range, List.range.loop]
@[simp] theorem Dev.pushHistory_itk (d : Dev) (c : Nat) : (d.pushHistory c).itk = d.itk := by simp [Dev.pushHistory, List.range, List.range.loop]
@[simp] theorem Dev.pushHistory_chn (d : Dev) (c : Nat) : (d.pushHistory c).chn = d.chn := by simp [Dev.pushHistory, List.range, List.range.loop]
@[simp] theorem Dev.pushHistory_spe (d : Dev) (c : Nat) : (d.pushHistory c).spe = d.spe := by simp [Dev.pushHistory, List.range, List.range.loop]
@[simp] theorem Dev.pushHistory_tb (d : Dev) (c : Nat) : (d.pushHistory c).tb = d.tb := by simp [Dev.pushHistory, List.range, List.range.loop]
@[simp] theorem Dev.pushHistory_ctr (d : Dev) (c : Nat) : (d.pushHistory c).ctr = d.ctr := by simp [Dev.pushHistory, List.range, List.range.loop]
@[simp] theorem Dev.pushHistory_cap (d : Dev) (c : Nat) : (d.pushHistory c).cap = d.cap := by simp [Dev.pushHistory, List.range, List.range.loop]
@[simp] theorem Dev.pushHistory_trg (d : Dev) (c : Nat) : (d.pushHistory c).trg = d.trg := by simp [Dev.pushHistory, List.range, List.range.loop]
@[simp] theorem Dev.pushHistory_den (d : Dev) (c : Nat) : (d.pushHistory c).den = d.den := by simp [Dev.pushHistory, List.range, List.range.loop]
@[simp] theorem Dev.pushHistory_vp (d : Dev) (c : Nat) : (d.pushHistory c).vp = d.vp := by simp [Dev.pushHistory, List.range, List.range.loop]
@[simp] theorem Dev.pushHistory_str (d : Dev) (c : Nat) : (d.pushHistory c).str = d.str := by simp [Dev.pushHistory, List.range, List.range.loop]
@[simp] theorem Dev.pushHistory_im (d : Dev) (c : Nat) : (d.pushHistory c).im = d.im := by simp [Dev.pushHistory, List.range, List.range.loop]
@[simp] theorem Dev.pushHistory_cf (d : Dev) (c : Nat) : (d.pushHistory c).cf = d.cf := by simp [Dev.pushHistory, List.range, List.range.loop]
@[simp] theorem Dev.pushHistory_pwr (d : Dev) (c : Nat) : (d.pushHistory c).pwr = d.pwr := by simp [Dev.pushHistory, List.range, List.range.loop]
@[simp] theorem Dev.pushHistory_cal (d : Dev) (c : Nat) : (d.pushHistory c).cal = d.cal := by simp [Dev.pushHistory, List.range, List.range.loop]

/-! ### `queueEmergency` -/

@[simp] theorem Dev.queueEmergency_now (d : Dev) (c : Emergency) : (d.queueEmergency c).now = d.now := by unfold Dev.queueEmergency; split <;> simp
@[simp] theorem Dev.queueEmergency_long (d : Dev) (c : Emergency) : (d.queueEmergency c).long = d.long := by unfold Dev.queueEmergency; split <;> simp
@[simp] theorem Dev.queueEmergency_drawn (d : Dev) (c : Emergency) : (d.queueEmergency c).drawn = d.drawn := by unfold Dev.queueEmergency; split <;> simp
@[simp] theorem Dev.queueEmergency_out (d : Dev) (c : Emergency) : (d.queueEmergency c).out = d.out := by unfold Dev.queueEmergency; split <;> simp
@[simp] theorem Dev.queueEmergency_cut (d : Dev) (c : Emergency) : (d.queueEmergency c).cut = d.cut := by unfold Dev.queueEmergency; split <;> simp
@[simp] theorem Dev.queueEmergency_hw (d : Dev) (c : Emergency) : (d.queueEmergency c).hw = d.hw := by unfold Dev.queueEmergency; split <;> simp
@[simp] theorem Dev.queueEmergency_boot (d : Dev) (c : Emergency) : (d.queueEmergency c).boot = d.boot := by unfold Dev.queueEmergency; split <;> simp
@[simp] theorem Dev.queueEmergency_flt (d : Dev) (c : Emergency) : (d.queueEmergency c).flt = d.flt := by unfold Dev.queueEmergency; split <;> simp
@[simp] theorem Dev.queueEmergency_itk (d : Dev) (c : Emergency) : (d.queueEmergency c).itk = d.itk := by unfold Dev.queueEmergency; split <;> simp
@[simp] theorem Dev.queueEmergency_chn (d : Dev) (c : Emergency) : (d.queueEmergency c).chn = d.chn := by unfold Dev.queueEmergency; split <;> simp
@[simp] theorem Dev.queueEmergency_spe (d : Dev) (c : Emergency) : (d.queueEmergency c).spe = d.spe := by unfold Dev.queueEmergency; split <;> simp
@[simp] theorem Dev.queueEmergency_tb (d : Dev) (c : Emergency) : (d.queueEmergency c).tb = d.tb := by unfold Dev.queueEmergency; split <;> simp
@[simp] theorem Dev.queueEmergency_cap (d : Dev) (c : Emergency) : (d.queueEmergency c).cap = d.cap := by unfold Dev.queueEmergency; split <;> simp
@[simp] theorem Dev.queueEmergency_trg (d : Dev) (c : Emergency) : (d.queueEmergency c).trg = d.trg := by unfold Dev.queueEmergency; split <;> simp
@[simp] theorem Dev.queueEmergency_den (d : Dev) (c : Emergency) : (d.queueEmergency c).den = d.den := by unfold Dev.queueEmergency; split <;> simp
@[simp] theorem Dev.queueEmergency_vp (d : Dev) (c : Emergency) : (d.queueEmergency c).vp = d.vp := by unfold Dev.queueEmergency; split <;> simp
@[simp] theorem Dev.queueEmergency_str (d : Dev) (c : Emergency) : (d.queueEmergency c).str = d.str := by unfold Dev.queueEmergency; split <;> simp
@[simp] theorem Dev.queueEmergency_im (d : Dev) (c : Emergency) : (d.queueEmergency c).im = d.im := by unfold Dev.queueEmergency; split <;> simp
@[simp] theorem Dev.queueEmergency_cf (d : Dev) (c : Emergency) : (d.queueEmergency c).cf = d.cf := by unfold Dev.queueEmergency; split <;> simp
@[simp] theorem Dev.queueEmergency_pwr (d : Dev) (c : Emergency) : (d.queueEmergency c).pwr = d.pwr := by unfold Dev.queueEmergency; split <;> simp
@[simp] theorem Dev.queueEmergency_cal (d : Dev) (c : Emergency) : (d.queueEmergency c).cal = d.cal := by unfold Dev.queueEmergency; split <;> simp

/-! ### `setErrorBit` -/

@[simp] theorem Dev.setErrorBit_now (d : Dev) (c : Nat) : (d.setErrorBit c).now = d.now := by unfold Dev.setErrorBit; split <;> simp
@[simp] theorem Dev.setErrorBit_long (d : Dev) (c : Nat) : (d.setErrorBit c).long = d.long := by unfold Dev.setErrorBit; split <;> simp
@[simp] theorem Dev.setErrorBit_drawn (d : Dev) (c : Nat) : (d.setErrorBit c).drawn = d.drawn := by unfold Dev.setErrorBit; split <;> simp
@[simp] theorem Dev.setErrorBit_out (d : Dev) (c : Nat) : (d.setErrorBit c).out = d.out := by unfold Dev.setErrorBit; split <;> simp
@[simp] theorem Dev.setErrorBit_cut (d : Dev) (c : Nat) : (d.setErrorBit c).cut = d.cut := by unfold Dev.setErrorBit; split <;> simp
@[simp] theorem Dev.setErrorBit_hw (d : Dev) (c : Nat) : (d.setErrorBit c).hw = d.hw := by unfold Dev.setErrorBit; split <;> simp
@[simp] theorem Dev.setErrorBit_boot (d : Dev) (c : Nat) : (d.setErrorBit c).boot = d.boot := by unfold Dev.setErrorBit; split <;> simp
@[simp] theorem Dev.setErrorBit_flt (d : Dev) (c : Nat) : (d.setErrorBit c).flt = d.flt := by unfold Dev.setErrorBit; split <;> simp
@[simp] theorem Dev.setErrorBit_itk (d : Dev) (c : Nat) : (d.setErrorBit c).itk = d.itk := by unfold Dev.setErrorBit; split <;> simp
@[simp] theorem Dev.setErrorBit_chn (d : Dev) (c : Nat) : (d.setErrorBit c).chn = d.chn := by unfold Dev.setErrorBit; split <;> simp
@[simp] theorem Dev.setErrorBit_spe (d : Dev) (c : Nat) : (d.setErrorBit c).spe = d.spe := by unfold Dev.setErrorBit; split <;> simp
@[simp] theorem Dev.setErrorBit_tb (d : Dev) (c : Nat) : (d.setErrorBit c).tb = d.tb := by unfold Dev.setErrorBit; split <;> simp
@[simp] theorem Dev.setErrorBit_ctr (d : Dev) (c : Nat) : (d.setErrorBit c).ctr = d.ctr := by unfold Dev.setErrorBit; split <;> simp
@[simp] theorem Dev.setErrorBit_cap (d : Dev) (c : Nat) : (d.setErrorBit c).cap = d.cap := by unfold Dev.setErrorBit; split <;> simp
@[simp] theorem Dev.setErrorBit_trg (d : Dev) (c : Nat) : (d.setErrorBit c).trg = d.trg := by unfold Dev.setErrorBit; split <;> simp
@[simp] theorem Dev.setErrorBit_den (d : Dev) (c : Nat) : (d.setErrorBit c).den = d.den := by unfold Dev.setErrorBit; split <;> simp
@[simp] theorem Dev.setErrorBit_vp (d : Dev) (c : Nat) : (d.setErrorBit c).vp = d.vp := by unfold Dev.setErrorBit; split <;> simp
@[simp] theorem Dev.setErrorBit_str (d : Dev) (c : Nat) : (d.setErrorBit c).str = d.str := by unfold Dev.setErrorBit; split <;> simp
@[simp] theorem Dev.setErrorBit_im (d : Dev) (c : Nat) : (d.setErrorBit c).im = d.im := by unfold Dev.setErrorBit; split <;> simp
@[simp] theorem Dev.setErrorBit_cf (d : Dev) (c : Nat) : (d.setErrorBit c).cf = d.cf := by unfold Dev.setErrorBit; split <;> simp
@[simp] theorem Dev.setErrorBit_pwr (d : Dev) (c : Nat) : (d.setErrorBit c).pwr = d.pwr := by unfold Dev.setErrorBit; split <;> simp
@[simp] theorem Dev.setErrorBit_cal (d : Dev) (c : Nat) : (d.setErrorBit c).cal = d.cal := by unfold Dev.setErrorBit; split <;> simp

/-! ### `placeCode` -/

@[simp] theorem Dev.placeCode_now (d : Dev) (path c : Nat) : (d.placeCode path c).now = d.now := by simp [Dev.placeCode]
@[simp] theorem Dev.placeCode_long (d : Dev) (path c : Nat) : (d.placeCode path c).long = d.long := by simp [Dev.placeCode]
@[simp] theorem Dev.placeCode_drawn (d : Dev) (path c : Nat) : (d.placeCode path c).drawn = d.drawn := by simp [Dev.placeCode]
@[simp] theorem Dev.placeCode_out (d : Dev) (path c : Nat) : (d.placeCode path c).out = d.out := by simp [Dev.placeCode]
@[simp] theorem Dev.placeCode_cut (d : Dev) (path c : Nat) : (d.placeCode path c).cut = d.cut := by simp [Dev.placeCode]
@[simp] theorem Dev.placeCode_hw (d : Dev) (path c : Nat) : (d.placeCode path c).hw = d.hw := by simp [Dev.placeCode]
@[simp] theorem Dev.placeCode_boot (d : Dev) (path c : Nat) : (d.placeCode path c).boot = d.boot := by simp [Dev.placeCode]
@[simp] theorem Dev.placeCode_sup (d : Dev) (path c : Nat) : (d.placeCode path c).sup = d.sup := by simp [Dev.placeCode]
@[simp] theorem Dev.placeCode_flt (d : Dev) (path c : Nat) : (d.placeCode path c).flt = d.flt := by simp [Dev.placeCode]
@[simp] theorem Dev.placeCode_itk (d : Dev) (path c : Nat) : (d.placeCode path c).itk = d.itk := by simp [Dev.placeCode]
@[simp] theorem Dev.placeCode_chn (d : Dev) (path c : Nat) : (d.placeCode path c).chn = d.chn := by simp [Dev.placeCode]
@[simp] theorem Dev.placeCode_spe (d : Dev) (path c : Nat) : (d.placeCode path c).spe = d.spe := by simp [Dev.placeCode]
@[simp] theorem Dev.placeCode_tb (d : Dev) (path c : Nat) : (d.placeCode path c).tb = d.tb := by simp [Dev.placeCode]
@[simp] theorem Dev.placeCode_cap (d : Dev) (path c : Nat) : (d.placeCode path c).cap = d.cap := by simp [Dev.placeCode]
@[simp] theorem Dev.placeCode_trg (d : Dev) (path c : Nat) : (d.placeCode path c).trg = d.trg := by simp [Dev.placeCode]
@[simp] theorem Dev.placeCode_den (d : Dev) (path c : Nat) : (d.placeCode path c).den = d.den := by simp [Dev.placeCode]
@[simp] theorem Dev.placeCode_vp (d : Dev) (path c : Nat) : (d.placeCode path c).vp = d.vp := by simp [Dev.placeCode]
@[simp] theorem Dev.placeCode_str (d : Dev) (path c : Nat) : (d.placeCode path c).str = d.str := by simp [Dev.placeCode]
@[simp] theorem Dev.placeCode_im (d : Dev) (path c : Nat) : (d.placeCode path c).im = d.im := by simp [Dev.placeCode]
@[simp] theorem Dev.placeCode_cf (d : Dev) (path c : Nat) : (d.placeCode path c).cf = d.cf := by simp [Dev.placeCode]
@[simp] theorem Dev.placeCode_pwr (d : Dev) (path c : Nat) : (d.placeCode path c).pwr = d.pwr := by simp [Dev.placeCode]
@[simp] theorem Dev.placeCode_cal (d : Dev) (path c : Nat) : (d.placeCode path c).cal = d.cal := by simp [Dev.placeCode]

/-! ### `logEntry` -/

@[simp] theorem Dev.logEntry_now (d : Dev) (c time isl inst cls value i : Nat) : (d.logEntry c time isl inst cls value i).now = d.now := by simp [Dev.logEntry]
@[simp] theorem Dev.logEntry_long (d : Dev) (c time isl inst cls value i : Nat) : (d.logEntry c time isl inst cls value i).long = d.long := by simp [Dev.logEntry]
@[simp] theorem Dev.logEntry_drawn (d : Dev) (c time isl inst cls value i : Nat) : (d.logEntry c time isl inst cls value i).drawn = d.drawn := by simp [Dev.logEntry]
@[simp] theorem Dev.logEntry_out (d : Dev) (c time isl inst cls value i : Nat) : (d.logEntry c time isl inst cls value i).out = d.out := by simp [Dev.logEntry]
@[simp] theorem Dev.logEntry_cut (d : Dev) (c time isl inst cls value i : Nat) : (d.logEntry c time isl inst cls value i).cut = d.cut := by simp [Dev.logEntry]
@[simp] theorem Dev.logEntry_hw (d : Dev) (c time isl inst cls value i : Nat) : (d.logEntry c time isl inst cls value i).hw = d.hw := by simp [Dev.logEntry]
@[simp] theorem Dev.logEntry_boot (d : Dev) (c time isl inst cls value i : Nat) : (d.logEntry c time isl inst cls value i).boot = d.boot := by simp [Dev.logEntry]
@[simp] theorem Dev.logEntry_sup (d : Dev) (c time isl inst cls value i : Nat) : (d.logEntry c time isl inst cls value i).sup = d.sup := by simp [Dev.logEntry]
@[simp] theorem Dev.logEntry_itk (d : Dev) (c time isl inst cls value i : Nat) : (d.logEntry c time isl inst cls value i).itk = d.itk := by simp [Dev.logEntry]
@[simp] theorem Dev.logEntry_chn (d : Dev) (c time isl inst cls value i : Nat) : (d.logEntry c time isl inst cls value i).chn = d.chn := by simp [Dev.logEntry]
@[simp] theorem Dev.logEntry_spe (d : Dev) (c time isl inst cls value i : Nat) : (d.logEntry c time isl inst cls value i).spe = d.spe := by simp [Dev.logEntry]
@[simp] theorem Dev.logEntry_tb (d : Dev) (c time isl inst cls value i : Nat) : (d.logEntry c time isl inst cls value i).tb = d.tb := by simp [Dev.logEntry]
@[simp] theorem Dev.logEntry_cap (d : Dev) (c time isl inst cls value i : Nat) : (d.logEntry c time isl inst cls value i).cap = d.cap := by simp [Dev.logEntry]
@[simp] theorem Dev.logEntry_trg (d : Dev) (c time isl inst cls value i : Nat) : (d.logEntry c time isl inst cls value i).trg = d.trg := by simp [Dev.logEntry]
@[simp] theorem Dev.logEntry_den (d : Dev) (c time isl inst cls value i : Nat) : (d.logEntry c time isl inst cls value i).den = d.den := by simp [Dev.logEntry]
@[simp] theorem Dev.logEntry_vp (d : Dev) (c time isl inst cls value i : Nat) : (d.logEntry c time isl inst cls value i).vp = d.vp := by simp [Dev.logEntry]
@[simp] theorem Dev.logEntry_str (d : Dev) (c time isl inst cls value i : Nat) : (d.logEntry c time isl inst cls value i).str = d.str := by simp [Dev.logEntry]
@[simp] theorem Dev.logEntry_im (d : Dev) (c time isl inst cls value i : Nat) : (d.logEntry c time isl inst cls value i).im = d.im := by simp [Dev.logEntry]
@[simp] theorem Dev.logEntry_cf (d : Dev) (c time isl inst cls value i : Nat) : (d.logEntry c time isl inst cls value i).cf = d.cf := by simp [Dev.logEntry]
@[simp] theorem Dev.logEntry_pwr (d : Dev) (c time isl inst cls value i : Nat) : (d.logEntry c time isl inst cls value i).pwr = d.pwr := by simp [Dev.logEntry]
@[simp] theorem Dev.logEntry_cal (d : Dev) (c time isl inst cls value i : Nat) : (d.logEntry c time isl inst cls value i).cal = d.cal := by simp [Dev.logEntry]

/-! ### `raiseBase` -/

@[simp] theorem Dev.raiseBase_now (d : Dev) (path c : Nat) : (d.raiseBase path c).now = d.now := by simp only [Dev.raiseBase]; split <;> split <;> simp
@[simp] theorem Dev.raiseBase_long (d : Dev) (path c : Nat) : (d.raiseBase path c).long = d.long := by simp only [Dev.raiseBase]; split <;> split <;> simp
@[simp] theorem Dev.raiseBase_drawn (d : Dev) (path c : Nat) : (d.raiseBase path c).drawn = d.drawn := by simp only [Dev.raiseBase]; split <;> split <;> simp
@[simp] theorem Dev.raiseBase_out (d : Dev) (path c : Nat) : (d.raiseBase path c).out = d.out := by simp only [Dev.raiseBase]; split <;> split <;> simp
@[simp] theorem Dev.raiseBase_cut (d : Dev) (path c : Nat) : (d.raiseBase path c).cut = d.cut := by simp only [Dev.raiseBase]; split <;> split <;> simp
@[simp] theorem Dev.raiseBase_hw (d : Dev) (path c : Nat) : (d.raiseBase path c).hw = d.hw := by simp only [Dev.raiseBase]; split <;> split <;> simp
@[simp] theorem Dev.raiseBase_boot (d : Dev) (path c : Nat) : (d.raiseBase path c).boot = d.boot := by simp only [Dev.raiseBase]; split <;> split <;> simp
@[simp] theorem Dev.raiseBase_flt (d : Dev) (path c : Nat) : (d.raiseBase path c).flt = d.flt := by simp only [Dev.raiseBase]; split <;> split <;> simp
@[simp] theorem Dev.raiseBase_itk (d : Dev) (path c : Nat) : (d.raiseBase path c).itk = d.itk := by simp only [Dev.raiseBase]; split <;> split <;> simp
@[simp] theorem Dev.raiseBase_chn (d : Dev) (path c : Nat) : (d.raiseBase path c).chn = d.chn := by simp only [Dev.raiseBase]; split <;> split <;> simp
@[simp] theorem Dev.raiseBase_spe (d : Dev) (path c : Nat) : (d.raiseBase path c).spe = d.spe := by simp only [Dev.raiseBase]; split <;> split <;> simp
@[simp] theorem Dev.raiseBase_tb (d : Dev) (path c : Nat) : (d.raiseBase path c).tb = d.tb := by simp only [Dev.raiseBase]; split <;> split <;> simp
@[simp] theorem Dev.raiseBase_cap (d : Dev) (path c : Nat) : (d.raiseBase path c).cap = d.cap := by simp only [Dev.raiseBase]; split <;> split <;> simp
@[simp] theorem Dev.raiseBase_trg (d : Dev) (path c : Nat) : (d.raiseBase path c).trg = d.trg := by simp only [Dev.raiseBase]; split <;> split <;> simp
@[simp] theorem Dev.raiseBase_den (d : Dev) (path c : Nat) : (d.raiseBase path c).den = d.den := by simp only [Dev.raiseBase]; split <;> split <;> simp
@[simp] theorem Dev.raiseBase_vp (d : Dev) (path c : Nat) : (d.raiseBase path c).vp = d.vp := by simp only [Dev.raiseBase]; split <;> split <;> simp
@[simp] theorem Dev.raiseBase_str (d : Dev) (path c : Nat) : (d.raiseBase path c).str = d.str := by simp only [Dev.raiseBase]; split <;> split <;> simp
@[simp] theorem Dev.raiseBase_im (d : Dev) (path c : Nat) : (d.raiseBase path c).im = d.im := by simp only [Dev.raiseBase]; split <;> split <;> simp
@[simp] theorem Dev.raiseBase_cf (d : Dev) (path c : Nat) : (d.raiseBase path c).cf = d.cf := by simp only [Dev.raiseBase]; split <;> split <;> simp
@[simp] theorem Dev.raiseBase_pwr (d : Dev) (path c : Nat) : (d.raiseBase path c).pwr = d.pwr := by simp only [Dev.raiseBase]; split <;> split <;> simp
@[simp] theorem Dev.raiseBase_cal (d : Dev) (path c : Nat) : (d.raiseBase path c).cal = d.cal := by simp only [Dev.raiseBase]; split <;> split <;> simp

/-! ### `raise` -/

@[simp] theorem Dev.raise_now (d : Dev) (path c : Nat) : (d.raise path c).now = d.now := by simp only [Dev.raise]; split <;> simp
@[simp] theorem Dev.raise_long (d : Dev) (path c : Nat) : (d.raise path c).long = d.long := by simp only [Dev.raise]; split <;> simp
@[simp] theorem Dev.raise_drawn (d : Dev) (path c : Nat) : (d.raise path c).drawn = d.drawn := by simp only [Dev.raise]; split <;> simp
@[simp] theorem Dev.raise_out (d : Dev) (path c : Nat) : (d.raise path c).out = d.out := by simp only [Dev.raise]; split <;> simp
@[simp] theorem Dev.raise_cut (d : Dev) (path c : Nat) : (d.raise path c).cut = d.cut := by simp only [Dev.raise]; split <;> simp
@[simp] theorem Dev.raise_hw (d : Dev) (path c : Nat) : (d.raise path c).hw = d.hw := by simp only [Dev.raise]; split <;> simp
@[simp] theorem Dev.raise_boot (d : Dev) (path c : Nat) : (d.raise path c).boot = d.boot := by simp only [Dev.raise]; split <;> simp
@[simp] theorem Dev.raise_itk (d : Dev) (path c : Nat) : (d.raise path c).itk = d.itk := by simp only [Dev.raise]; split <;> simp
@[simp] theorem Dev.raise_chn (d : Dev) (path c : Nat) : (d.raise path c).chn = d.chn := by simp only [Dev.raise]; split <;> simp
@[simp] theorem Dev.raise_spe (d : Dev) (path c : Nat) : (d.raise path c).spe = d.spe := by simp only [Dev.raise]; split <;> simp
@[simp] theorem Dev.raise_tb (d : Dev) (path c : Nat) : (d.raise path c).tb = d.tb := by simp only [Dev.raise]; split <;> simp
@[simp] theorem Dev.raise_cap (d : Dev) (path c : Nat) : (d.raise path c).cap = d.cap := by simp only [Dev.raise]; split <;> simp
@[simp] theorem Dev.raise_trg (d : Dev) (path c : Nat) : (d.raise path c).trg = d.trg := by simp only [Dev.raise]; split <;> simp
@[simp] theorem Dev.raise_den (d : Dev) (path c : Nat) : (d.raise path c).den = d.den := by simp only [Dev.raise]; split <;> simp
@[simp] theorem Dev.raise_vp (d : Dev) (path c : Nat) : (d.raise path c).vp = d.vp := by simp only [Dev.raise]; split <;> simp
@[simp] theorem Dev.raise_str (d : Dev) (path c : Nat) : (d.raise path c).str = d.str := by simp only [Dev.raise]; split <;> simp
@[simp] theorem Dev.raise_im (d : Dev) (path c : Nat) : (d.raise path c).im = d.im := by simp only [Dev.raise]; split <;> simp
@[simp] theorem Dev.raise_cf (d : Dev) (path c : Nat) : (d.raise path c).cf = d.cf := by simp only [Dev.raise]; split <;> simp
@[simp] theorem Dev.raise_pwr (d : Dev) (path c : Nat) : (d.raise path c).pwr = d.pwr := by simp only [Dev.raise]; split <;> simp
@[simp] theorem Dev.raise_cal (d : Dev) (path c : Nat) : (d.raise path c).cal = d.cal := by simp only [Dev.raise]; split <;> simp

/-! ### `reject` -/

@[simp] theorem Dev.reject_now (d : Dev) (path c : Nat) : (d.reject path c).now = d.now := by simp [Dev.reject]
@[simp] theorem Dev.reject_long (d : Dev) (path c : Nat) : (d.reject path c).long = d.long := by simp [Dev.reject]
@[simp] theorem Dev.reject_drawn (d : Dev) (path c : Nat) : (d.reject path c).drawn = d.drawn := by simp [Dev.reject]
@[simp] theorem Dev.reject_out (d : Dev) (path c : Nat) : (d.reject path c).out = d.out := by simp [Dev.reject]
@[simp] theorem Dev.reject_cut (d : Dev) (path c : Nat) : (d.reject path c).cut = d.cut := by simp [Dev.reject]
@[simp] theorem Dev.reject_hw (d : Dev) (path c : Nat) : (d.reject path c).hw = d.hw := by simp [Dev.reject]
@[simp] theorem Dev.reject_boot (d : Dev) (path c : Nat) : (d.reject path c).boot = d.boot := by simp [Dev.reject]
@[simp] theorem Dev.reject_itk (d : Dev) (path c : Nat) : (d.reject path c).itk = d.itk := by simp [Dev.reject]
@[simp] theorem Dev.reject_chn (d : Dev) (path c : Nat) : (d.reject path c).chn = d.chn := by simp [Dev.reject]
@[simp] theorem Dev.reject_spe (d : Dev) (path c : Nat) : (d.reject path c).spe = d.spe := by simp [Dev.reject]
@[simp] theorem Dev.reject_tb (d : Dev) (path c : Nat) : (d.reject path c).tb = d.tb := by simp [Dev.reject]
@[simp] theorem Dev.reject_cap (d : Dev) (path c : Nat) : (d.reject path c).cap = d.cap := by simp [Dev.reject]
@[simp] theorem Dev.reject_trg (d : Dev) (path c : Nat) : (d.reject path c).trg = d.trg := by simp [Dev.reject]
@[simp] theorem Dev.reject_den (d : Dev) (path c : Nat) : (d.reject path c).den = d.den := by simp [Dev.reject]
@[simp] theorem Dev.reject_vp (d : Dev) (path c : Nat) : (d.reject path c).vp = d.vp := by simp [Dev.reject]
@[simp] theorem Dev.reject_str (d : Dev) (path c : Nat) : (d.reject path c).str = d.str := by simp [Dev.reject]
@[simp] theorem Dev.reject_im (d : Dev) (path c : Nat) : (d.reject path c).im = d.im := by simp [Dev.reject]
@[simp] theorem Dev.reject_cf (d : Dev) (path c : Nat) : (d.reject path c).cf = d.cf := by simp [Dev.reject]
@[simp] theorem Dev.reject_pwr (d : Dev) (path c : Nat) : (d.reject path c).pwr = d.pwr := by simp [Dev.reject]
@[simp] theorem Dev.reject_cal (d : Dev) (path c : Nat) : (d.reject path c).cal = d.cal := by simp [Dev.reject]

/-! ### `fault` -/

@[simp] theorem Dev.fault_now (d : Dev) (cls c isl inst value i : Nat) : (d.fault cls c isl inst value i).now = d.now := by simp only [Dev.fault, Dev.logEntry_now]; split <;> split <;> simp
@[simp] theorem Dev.fault_long (d : Dev) (cls c isl inst value i : Nat) : (d.fault cls c isl inst value i).long = d.long := by simp only [Dev.fault, Dev.logEntry_long]; split <;> split <;> simp
@[simp] theorem Dev.fault_drawn (d : Dev) (cls c isl inst value i : Nat) : (d.fault cls c isl inst value i).drawn = d.drawn := by simp only [Dev.fault, Dev.logEntry_drawn]; split <;> split <;> simp
@[simp] theorem Dev.fault_out (d : Dev) (cls c isl inst value i : Nat) : (d.fault cls c isl inst value i).out = d.out := by simp only [Dev.fault, Dev.logEntry_out]; split <;> split <;> simp
@[simp] theorem Dev.fault_cut (d : Dev) (cls c isl inst value i : Nat) : (d.fault cls c isl inst value i).cut = d.cut := by simp only [Dev.fault, Dev.logEntry_cut]; split <;> split <;> simp
@[simp] theorem Dev.fault_hw (d : Dev) (cls c isl inst value i : Nat) : (d.fault cls c isl inst value i).hw = d.hw := by simp only [Dev.fault, Dev.logEntry_hw]; split <;> split <;> simp
@[simp] theorem Dev.fault_boot (d : Dev) (cls c isl inst value i : Nat) : (d.fault cls c isl inst value i).boot = d.boot := by simp only [Dev.fault, Dev.logEntry_boot]; split <;> split <;> simp
@[simp] theorem Dev.fault_itk (d : Dev) (cls c isl inst value i : Nat) : (d.fault cls c isl inst value i).itk = d.itk := by simp only [Dev.fault, Dev.logEntry_itk]; split <;> split <;> simp
@[simp] theorem Dev.fault_chn (d : Dev) (cls c isl inst value i : Nat) : (d.fault cls c isl inst value i).chn = d.chn := by simp only [Dev.fault, Dev.logEntry_chn]; split <;> split <;> simp
@[simp] theorem Dev.fault_spe (d : Dev) (cls c isl inst value i : Nat) : (d.fault cls c isl inst value i).spe = d.spe := by simp only [Dev.fault, Dev.logEntry_spe]; split <;> split <;> simp
@[simp] theorem Dev.fault_tb (d : Dev) (cls c isl inst value i : Nat) : (d.fault cls c isl inst value i).tb = d.tb := by simp only [Dev.fault, Dev.logEntry_tb]; split <;> split <;> simp
@[simp] theorem Dev.fault_cap (d : Dev) (cls c isl inst value i : Nat) : (d.fault cls c isl inst value i).cap = d.cap := by simp only [Dev.fault, Dev.logEntry_cap]; split <;> split <;> simp
@[simp] theorem Dev.fault_trg (d : Dev) (cls c isl inst value i : Nat) : (d.fault cls c isl inst value i).trg = d.trg := by simp only [Dev.fault, Dev.logEntry_trg]; split <;> split <;> simp
@[simp] theorem Dev.fault_den (d : Dev) (cls c isl inst value i : Nat) : (d.fault cls c isl inst value i).den = d.den := by simp only [Dev.fault, Dev.logEntry_den]; split <;> split <;> simp
@[simp] theorem Dev.fault_vp (d : Dev) (cls c isl inst value i : Nat) : (d.fault cls c isl inst value i).vp = d.vp := by simp only [Dev.fault, Dev.logEntry_vp]; split <;> split <;> simp
@[simp] theorem Dev.fault_str (d : Dev) (cls c isl inst value i : Nat) : (d.fault cls c isl inst value i).str = d.str := by simp only [Dev.fault, Dev.logEntry_str]; split <;> split <;> simp
@[simp] theorem Dev.fault_im (d : Dev) (cls c isl inst value i : Nat) : (d.fault cls c isl inst value i).im = d.im := by simp only [Dev.fault, Dev.logEntry_im]; split <;> split <;> simp
@[simp] theorem Dev.fault_cf (d : Dev) (cls c isl inst value i : Nat) : (d.fault cls c isl inst value i).cf = d.cf := by simp only [Dev.fault, Dev.logEntry_cf]; split <;> split <;> simp
@[simp] theorem Dev.fault_pwr (d : Dev) (cls c isl inst value i : Nat) : (d.fault cls c isl inst value i).pwr = d.pwr := by simp only [Dev.fault, Dev.logEntry_pwr]; split <;> split <;> simp
@[simp] theorem Dev.fault_cal (d : Dev) (cls c isl inst value i : Nat) : (d.fault cls c isl inst value i).cal = d.cal := by simp only [Dev.fault, Dev.logEntry_cal]; split <;> split <;> simp

/-! ### `pwrEvent` -/

@[simp] theorem Dev.pwrEvent_now (d : Dev) (kind obj a b : Nat) : (d.pwrEvent kind obj a b).now = d.now := by simp [Dev.pwrEvent]
@[simp] theorem Dev.pwrEvent_long (d : Dev) (kind obj a b : Nat) : (d.pwrEvent kind obj a b).long = d.long := by simp [Dev.pwrEvent]
@[simp] theorem Dev.pwrEvent_drawn (d : Dev) (kind obj a b : Nat) : (d.pwrEvent kind obj a b).drawn = d.drawn := by simp [Dev.pwrEvent]
@[simp] theorem Dev.pwrEvent_cut (d : Dev) (kind obj a b : Nat) : (d.pwrEvent kind obj a b).cut = d.cut := by simp [Dev.pwrEvent]
@[simp] theorem Dev.pwrEvent_hw (d : Dev) (kind obj a b : Nat) : (d.pwrEvent kind obj a b).hw = d.hw := by simp [Dev.pwrEvent]
@[simp] theorem Dev.pwrEvent_boot (d : Dev) (kind obj a b : Nat) : (d.pwrEvent kind obj a b).boot = d.boot := by simp [Dev.pwrEvent]
@[simp] theorem Dev.pwrEvent_sup (d : Dev) (kind obj a b : Nat) : (d.pwrEvent kind obj a b).sup = d.sup := by simp [Dev.pwrEvent]
@[simp] theorem Dev.pwrEvent_flt (d : Dev) (kind obj a b : Nat) : (d.pwrEvent kind obj a b).flt = d.flt := by simp [Dev.pwrEvent]
@[simp] theorem Dev.pwrEvent_itk (d : Dev) (kind obj a b : Nat) : (d.pwrEvent kind obj a b).itk = d.itk := by simp [Dev.pwrEvent]
@[simp] theorem Dev.pwrEvent_chn (d : Dev) (kind obj a b : Nat) : (d.pwrEvent kind obj a b).chn = d.chn := by simp [Dev.pwrEvent]
@[simp] theorem Dev.pwrEvent_spe (d : Dev) (kind obj a b : Nat) : (d.pwrEvent kind obj a b).spe = d.spe := by simp [Dev.pwrEvent]
@[simp] theorem Dev.pwrEvent_tb (d : Dev) (kind obj a b : Nat) : (d.pwrEvent kind obj a b).tb = d.tb := by simp [Dev.pwrEvent]
@[simp] theorem Dev.pwrEvent_cap (d : Dev) (kind obj a b : Nat) : (d.pwrEvent kind obj a b).cap = d.cap := by simp [Dev.pwrEvent]
@[simp] theorem Dev.pwrEvent_trg (d : Dev) (kind obj a b : Nat) : (d.pwrEvent kind obj a b).trg = d.trg := by simp [Dev.pwrEvent]
@[simp] theorem Dev.pwrEvent_den (d : Dev) (kind obj a b : Nat) : (d.pwrEvent kind obj a b).den = d.den := by simp [Dev.pwrEvent]
@[simp] theorem Dev.pwrEvent_vp (d : Dev) (kind obj a b : Nat) : (d.pwrEvent kind obj a b).vp = d.vp := by simp [Dev.pwrEvent]
@[simp] theorem Dev.pwrEvent_str (d : Dev) (kind obj a b : Nat) : (d.pwrEvent kind obj a b).str = d.str := by simp [Dev.pwrEvent]
@[simp] theorem Dev.pwrEvent_im (d : Dev) (kind obj a b : Nat) : (d.pwrEvent kind obj a b).im = d.im := by simp [Dev.pwrEvent]
@[simp] theorem Dev.pwrEvent_cf (d : Dev) (kind obj a b : Nat) : (d.pwrEvent kind obj a b).cf = d.cf := by simp [Dev.pwrEvent]
@[simp] theorem Dev.pwrEvent_pwr (d : Dev) (kind obj a b : Nat) : (d.pwrEvent kind obj a b).pwr = d.pwr := by simp [Dev.pwrEvent]
@[simp] theorem Dev.pwrEvent_cal (d : Dev) (kind obj a b : Nat) : (d.pwrEvent kind obj a b).cal = d.cal := by simp [Dev.pwrEvent]

/-! ### `setIslState` -/

@[simp] theorem Dev.setIslState_now (d : Dev) (isl st : Nat) : (d.setIslState isl st).now = d.now := by simp only [Dev.setIslState]; split <;> simp
@[simp] theorem Dev.setIslState_long (d : Dev) (isl st : Nat) : (d.setIslState isl st).long = d.long := by simp only [Dev.setIslState]; split <;> simp
@[simp] theorem Dev.setIslState_drawn (d : Dev) (isl st : Nat) : (d.setIslState isl st).drawn = d.drawn := by simp only [Dev.setIslState]; split <;> simp
@[simp] theorem Dev.setIslState_cut (d : Dev) (isl st : Nat) : (d.setIslState isl st).cut = d.cut := by simp only [Dev.setIslState]; split <;> simp
@[simp] theorem Dev.setIslState_hw (d : Dev) (isl st : Nat) : (d.setIslState isl st).hw = d.hw := by simp only [Dev.setIslState]; split <;> simp
@[simp] theorem Dev.setIslState_boot (d : Dev) (isl st : Nat) : (d.setIslState isl st).boot = d.boot := by simp only [Dev.setIslState]; split <;> simp
@[simp] theorem Dev.setIslState_sup (d : Dev) (isl st : Nat) : (d.setIslState isl st).sup = d.sup := by simp only [Dev.setIslState]; split <;> simp
@[simp] theorem Dev.setIslState_flt (d : Dev) (isl st : Nat) : (d.setIslState isl st).flt = d.flt := by simp only [Dev.setIslState]; split <;> simp
@[simp] theorem Dev.setIslState_itk (d : Dev) (isl st : Nat) : (d.setIslState isl st).itk = d.itk := by simp only [Dev.setIslState]; split <;> simp
@[simp] theorem Dev.setIslState_chn (d : Dev) (isl st : Nat) : (d.setIslState isl st).chn = d.chn := by simp only [Dev.setIslState]; split <;> simp
@[simp] theorem Dev.setIslState_spe (d : Dev) (isl st : Nat) : (d.setIslState isl st).spe = d.spe := by simp only [Dev.setIslState]; split <;> simp
@[simp] theorem Dev.setIslState_tb (d : Dev) (isl st : Nat) : (d.setIslState isl st).tb = d.tb := by simp only [Dev.setIslState]; split <;> simp
@[simp] theorem Dev.setIslState_cap (d : Dev) (isl st : Nat) : (d.setIslState isl st).cap = d.cap := by simp only [Dev.setIslState]; split <;> simp
@[simp] theorem Dev.setIslState_trg (d : Dev) (isl st : Nat) : (d.setIslState isl st).trg = d.trg := by simp only [Dev.setIslState]; split <;> simp
@[simp] theorem Dev.setIslState_den (d : Dev) (isl st : Nat) : (d.setIslState isl st).den = d.den := by simp only [Dev.setIslState]; split <;> simp
@[simp] theorem Dev.setIslState_vp (d : Dev) (isl st : Nat) : (d.setIslState isl st).vp = d.vp := by simp only [Dev.setIslState]; split <;> simp
@[simp] theorem Dev.setIslState_str (d : Dev) (isl st : Nat) : (d.setIslState isl st).str = d.str := by simp only [Dev.setIslState]; split <;> simp
@[simp] theorem Dev.setIslState_im (d : Dev) (isl st : Nat) : (d.setIslState isl st).im = d.im := by simp only [Dev.setIslState]; split <;> simp
@[simp] theorem Dev.setIslState_cf (d : Dev) (isl st : Nat) : (d.setIslState isl st).cf = d.cf := by simp only [Dev.setIslState]; split <;> simp
@[simp] theorem Dev.setIslState_pwr (d : Dev) (isl st : Nat) : (d.setIslState isl st).pwr = d.pwr := by simp only [Dev.setIslState]; split <;> simp
@[simp] theorem Dev.setIslState_cal (d : Dev) (isl st : Nat) : (d.setIslState isl st).cal = d.cal := by simp only [Dev.setIslState]; split <;> simp

/-! ### `setDegraded` -/

@[simp] theorem Dev.setDegraded_now (d : Dev) (v : Nat) : (d.setDegraded v).now = d.now := by simp only [Dev.setDegraded]; (repeat' split) <;> simp
@[simp] theorem Dev.setDegraded_long (d : Dev) (v : Nat) : (d.setDegraded v).long = d.long := by simp only [Dev.setDegraded]; (repeat' split) <;> simp
@[simp] theorem Dev.setDegraded_drawn (d : Dev) (v : Nat) : (d.setDegraded v).drawn = d.drawn := by simp only [Dev.setDegraded]; (repeat' split) <;> simp
@[simp] theorem Dev.setDegraded_cut (d : Dev) (v : Nat) : (d.setDegraded v).cut = d.cut := by simp only [Dev.setDegraded]; (repeat' split) <;> simp
@[simp] theorem Dev.setDegraded_hw (d : Dev) (v : Nat) : (d.setDegraded v).hw = d.hw := by simp only [Dev.setDegraded]; (repeat' split) <;> simp
@[simp] theorem Dev.setDegraded_boot (d : Dev) (v : Nat) : (d.setDegraded v).boot = d.boot := by simp only [Dev.setDegraded]; (repeat' split) <;> simp
@[simp] theorem Dev.setDegraded_itk (d : Dev) (v : Nat) : (d.setDegraded v).itk = d.itk := by simp only [Dev.setDegraded]; (repeat' split) <;> simp
@[simp] theorem Dev.setDegraded_chn (d : Dev) (v : Nat) : (d.setDegraded v).chn = d.chn := by simp only [Dev.setDegraded]; (repeat' split) <;> simp
@[simp] theorem Dev.setDegraded_spe (d : Dev) (v : Nat) : (d.setDegraded v).spe = d.spe := by simp only [Dev.setDegraded]; (repeat' split) <;> simp
@[simp] theorem Dev.setDegraded_tb (d : Dev) (v : Nat) : (d.setDegraded v).tb = d.tb := by simp only [Dev.setDegraded]; (repeat' split) <;> simp
@[simp] theorem Dev.setDegraded_cap (d : Dev) (v : Nat) : (d.setDegraded v).cap = d.cap := by simp only [Dev.setDegraded]; (repeat' split) <;> simp
@[simp] theorem Dev.setDegraded_trg (d : Dev) (v : Nat) : (d.setDegraded v).trg = d.trg := by simp only [Dev.setDegraded]; (repeat' split) <;> simp
@[simp] theorem Dev.setDegraded_den (d : Dev) (v : Nat) : (d.setDegraded v).den = d.den := by simp only [Dev.setDegraded]; (repeat' split) <;> simp
@[simp] theorem Dev.setDegraded_vp (d : Dev) (v : Nat) : (d.setDegraded v).vp = d.vp := by simp only [Dev.setDegraded]; (repeat' split) <;> simp
@[simp] theorem Dev.setDegraded_str (d : Dev) (v : Nat) : (d.setDegraded v).str = d.str := by simp only [Dev.setDegraded]; (repeat' split) <;> simp
@[simp] theorem Dev.setDegraded_im (d : Dev) (v : Nat) : (d.setDegraded v).im = d.im := by simp only [Dev.setDegraded]; (repeat' split) <;> simp
@[simp] theorem Dev.setDegraded_cf (d : Dev) (v : Nat) : (d.setDegraded v).cf = d.cf := by simp only [Dev.setDegraded]; (repeat' split) <;> simp
@[simp] theorem Dev.setDegraded_cal (d : Dev) (v : Nat) : (d.setDegraded v).cal = d.cal := by simp only [Dev.setDegraded]; (repeat' split) <;> simp

/-! ### `degradedBit` -/

@[simp] theorem Dev.degradedBit_now (d : Dev) (k : Nat) (on : Bool) : (d.degradedBit k on).now = d.now := by simp [Dev.degradedBit]
@[simp] theorem Dev.degradedBit_long (d : Dev) (k : Nat) (on : Bool) : (d.degradedBit k on).long = d.long := by simp [Dev.degradedBit]
@[simp] theorem Dev.degradedBit_drawn (d : Dev) (k : Nat) (on : Bool) : (d.degradedBit k on).drawn = d.drawn := by simp [Dev.degradedBit]
@[simp] theorem Dev.degradedBit_cut (d : Dev) (k : Nat) (on : Bool) : (d.degradedBit k on).cut = d.cut := by simp [Dev.degradedBit]
@[simp] theorem Dev.degradedBit_hw (d : Dev) (k : Nat) (on : Bool) : (d.degradedBit k on).hw = d.hw := by simp [Dev.degradedBit]
@[simp] theorem Dev.degradedBit_boot (d : Dev) (k : Nat) (on : Bool) : (d.degradedBit k on).boot = d.boot := by simp [Dev.degradedBit]
@[simp] theorem Dev.degradedBit_itk (d : Dev) (k : Nat) (on : Bool) : (d.degradedBit k on).itk = d.itk := by simp [Dev.degradedBit]
@[simp] theorem Dev.degradedBit_chn (d : Dev) (k : Nat) (on : Bool) : (d.degradedBit k on).chn = d.chn := by simp [Dev.degradedBit]
@[simp] theorem Dev.degradedBit_spe (d : Dev) (k : Nat) (on : Bool) : (d.degradedBit k on).spe = d.spe := by simp [Dev.degradedBit]
@[simp] theorem Dev.degradedBit_tb (d : Dev) (k : Nat) (on : Bool) : (d.degradedBit k on).tb = d.tb := by simp [Dev.degradedBit]
@[simp] theorem Dev.degradedBit_cap (d : Dev) (k : Nat) (on : Bool) : (d.degradedBit k on).cap = d.cap := by simp [Dev.degradedBit]
@[simp] theorem Dev.degradedBit_trg (d : Dev) (k : Nat) (on : Bool) : (d.degradedBit k on).trg = d.trg := by simp [Dev.degradedBit]
@[simp] theorem Dev.degradedBit_den (d : Dev) (k : Nat) (on : Bool) : (d.degradedBit k on).den = d.den := by simp [Dev.degradedBit]
@[simp] theorem Dev.degradedBit_vp (d : Dev) (k : Nat) (on : Bool) : (d.degradedBit k on).vp = d.vp := by simp [Dev.degradedBit]
@[simp] theorem Dev.degradedBit_str (d : Dev) (k : Nat) (on : Bool) : (d.degradedBit k on).str = d.str := by simp [Dev.degradedBit]
@[simp] theorem Dev.degradedBit_im (d : Dev) (k : Nat) (on : Bool) : (d.degradedBit k on).im = d.im := by simp [Dev.degradedBit]
@[simp] theorem Dev.degradedBit_cf (d : Dev) (k : Nat) (on : Bool) : (d.degradedBit k on).cf = d.cf := by simp [Dev.degradedBit]
@[simp] theorem Dev.degradedBit_cal (d : Dev) (k : Nat) (on : Bool) : (d.degradedBit k on).cal = d.cal := by simp [Dev.degradedBit]

/-! ### `markWrite` -/

@[simp] theorem Dev.markWrite_now (d : Dev) (path ix sub : Nat) (ok : Bool) : (d.markWrite path ix sub ok).now = d.now := by unfold Dev.markWrite; split <;> rfl
@[simp] theorem Dev.markWrite_dict (d : Dev) (path ix sub : Nat) (ok : Bool) : (d.markWrite path ix sub ok).dict = d.dict := by unfold Dev.markWrite; split <;> rfl
@[simp] theorem Dev.markWrite_long (d : Dev) (path ix sub : Nat) (ok : Bool) : (d.markWrite path ix sub ok).long = d.long := by unfold Dev.markWrite; split <;> rfl
@[simp] theorem Dev.markWrite_drawn (d : Dev) (path ix sub : Nat) (ok : Bool) : (d.markWrite path ix sub ok).drawn = d.drawn := by unfold Dev.markWrite; split <;> rfl
@[simp] theorem Dev.markWrite_out (d : Dev) (path ix sub : Nat) (ok : Bool) : (d.markWrite path ix sub ok).out = d.out := by unfold Dev.markWrite; split <;> rfl
@[simp] theorem Dev.markWrite_cut (d : Dev) (path ix sub : Nat) (ok : Bool) : (d.markWrite path ix sub ok).cut = d.cut := by unfold Dev.markWrite; split <;> rfl
@[simp] theorem Dev.markWrite_hw (d : Dev) (path ix sub : Nat) (ok : Bool) : (d.markWrite path ix sub ok).hw = d.hw := by unfold Dev.markWrite; split <;> rfl
@[simp] theorem Dev.markWrite_boot (d : Dev) (path ix sub : Nat) (ok : Bool) : (d.markWrite path ix sub ok).boot = d.boot := by unfold Dev.markWrite; split <;> rfl
@[simp] theorem Dev.markWrite_flt (d : Dev) (path ix sub : Nat) (ok : Bool) : (d.markWrite path ix sub ok).flt = d.flt := by unfold Dev.markWrite; split <;> rfl
@[simp] theorem Dev.markWrite_itk (d : Dev) (path ix sub : Nat) (ok : Bool) : (d.markWrite path ix sub ok).itk = d.itk := by unfold Dev.markWrite; split <;> rfl
@[simp] theorem Dev.markWrite_chn (d : Dev) (path ix sub : Nat) (ok : Bool) : (d.markWrite path ix sub ok).chn = d.chn := by unfold Dev.markWrite; split <;> rfl
@[simp] theorem Dev.markWrite_spe (d : Dev) (path ix sub : Nat) (ok : Bool) : (d.markWrite path ix sub ok).spe = d.spe := by unfold Dev.markWrite; split <;> rfl
@[simp] theorem Dev.markWrite_tb (d : Dev) (path ix sub : Nat) (ok : Bool) : (d.markWrite path ix sub ok).tb = d.tb := by unfold Dev.markWrite; split <;> rfl
@[simp] theorem Dev.markWrite_ctr (d : Dev) (path ix sub : Nat) (ok : Bool) : (d.markWrite path ix sub ok).ctr = d.ctr := by unfold Dev.markWrite; split <;> rfl
@[simp] theorem Dev.markWrite_cap (d : Dev) (path ix sub : Nat) (ok : Bool) : (d.markWrite path ix sub ok).cap = d.cap := by unfold Dev.markWrite; split <;> rfl
@[simp] theorem Dev.markWrite_trg (d : Dev) (path ix sub : Nat) (ok : Bool) : (d.markWrite path ix sub ok).trg = d.trg := by unfold Dev.markWrite; split <;> rfl
@[simp] theorem Dev.markWrite_den (d : Dev) (path ix sub : Nat) (ok : Bool) : (d.markWrite path ix sub ok).den = d.den := by unfold Dev.markWrite; split <;> rfl
@[simp] theorem Dev.markWrite_vp (d : Dev) (path ix sub : Nat) (ok : Bool) : (d.markWrite path ix sub ok).vp = d.vp := by unfold Dev.markWrite; split <;> rfl
@[simp] theorem Dev.markWrite_str (d : Dev) (path ix sub : Nat) (ok : Bool) : (d.markWrite path ix sub ok).str = d.str := by unfold Dev.markWrite; split <;> rfl
@[simp] theorem Dev.markWrite_im (d : Dev) (path ix sub : Nat) (ok : Bool) : (d.markWrite path ix sub ok).im = d.im := by unfold Dev.markWrite; split <;> rfl
@[simp] theorem Dev.markWrite_cf (d : Dev) (path ix sub : Nat) (ok : Bool) : (d.markWrite path ix sub ok).cf = d.cf := by unfold Dev.markWrite; split <;> rfl
@[simp] theorem Dev.markWrite_pwr (d : Dev) (path ix sub : Nat) (ok : Bool) : (d.markWrite path ix sub ok).pwr = d.pwr := by unfold Dev.markWrite; split <;> rfl
@[simp] theorem Dev.markWrite_cal (d : Dev) (path ix sub : Nat) (ok : Bool) : (d.markWrite path ix sub ok).cal = d.cal := by unfold Dev.markWrite; split <;> rfl

/-! ### `refuse` -/

@[simp] theorem Dev.refuse_now (d : Dev) (path ix sub c : Nat) : (d.refuse path ix sub c).now = d.now := by simp only [Dev.refuse]; split <;> simp
@[simp] theorem Dev.refuse_long (d : Dev) (path ix sub c : Nat) : (d.refuse path ix sub c).long = d.long := by simp only [Dev.refuse]; split <;> simp
@[simp] theorem Dev.refuse_drawn (d : Dev) (path ix sub c : Nat) : (d.refuse path ix sub c).drawn = d.drawn := by simp only [Dev.refuse]; split <;> simp
@[simp] theorem Dev.refuse_out (d : Dev) (path ix sub c : Nat) : (d.refuse path ix sub c).out = d.out := by simp only [Dev.refuse]; split <;> simp
@[simp] theorem Dev.refuse_cut (d : Dev) (path ix sub c : Nat) : (d.refuse path ix sub c).cut = d.cut := by simp only [Dev.refuse]; split <;> simp
@[simp] theorem Dev.refuse_hw (d : Dev) (path ix sub c : Nat) : (d.refuse path ix sub c).hw = d.hw := by simp only [Dev.refuse]; split <;> simp
@[simp] theorem Dev.refuse_boot (d : Dev) (path ix sub c : Nat) : (d.refuse path ix sub c).boot = d.boot := by simp only [Dev.refuse]; split <;> simp
@[simp] theorem Dev.refuse_itk (d : Dev) (path ix sub c : Nat) : (d.refuse path ix sub c).itk = d.itk := by simp only [Dev.refuse]; split <;> simp
@[simp] theorem Dev.refuse_chn (d : Dev) (path ix sub c : Nat) : (d.refuse path ix sub c).chn = d.chn := by simp only [Dev.refuse]; split <;> simp
@[simp] theorem Dev.refuse_spe (d : Dev) (path ix sub c : Nat) : (d.refuse path ix sub c).spe = d.spe := by simp only [Dev.refuse]; split <;> simp
@[simp] theorem Dev.refuse_tb (d : Dev) (path ix sub c : Nat) : (d.refuse path ix sub c).tb = d.tb := by simp only [Dev.refuse]; split <;> simp
@[simp] theorem Dev.refuse_cap (d : Dev) (path ix sub c : Nat) : (d.refuse path ix sub c).cap = d.cap := by simp only [Dev.refuse]; split <;> simp
@[simp] theorem Dev.refuse_trg (d : Dev) (path ix sub c : Nat) : (d.refuse path ix sub c).trg = d.trg := by simp only [Dev.refuse]; split <;> simp
@[simp] theorem Dev.refuse_den (d : Dev) (path ix sub c : Nat) : (d.refuse path ix sub c).den = d.den := by simp only [Dev.refuse]; split <;> simp
@[simp] theorem Dev.refuse_vp (d : Dev) (path ix sub c : Nat) : (d.refuse path ix sub c).vp = d.vp := by simp only [Dev.refuse]; split <;> simp
@[simp] theorem Dev.refuse_str (d : Dev) (path ix sub c : Nat) : (d.refuse path ix sub c).str = d.str := by simp only [Dev.refuse]; split <;> simp
@[simp] theorem Dev.refuse_im (d : Dev) (path ix sub c : Nat) : (d.refuse path ix sub c).im = d.im := by simp only [Dev.refuse]; split <;> simp
@[simp] theorem Dev.refuse_cf (d : Dev) (path ix sub c : Nat) : (d.refuse path ix sub c).cf = d.cf := by simp only [Dev.refuse]; split <;> simp
@[simp] theorem Dev.refuse_pwr (d : Dev) (path ix sub c : Nat) : (d.refuse path ix sub c).pwr = d.pwr := by simp only [Dev.refuse]; split <;> simp
@[simp] theorem Dev.refuse_cal (d : Dev) (path ix sub c : Nat) : (d.refuse path ix sub c).cal = d.cal := by simp only [Dev.refuse]; split <;> simp

/-! ### `accept` -/

@[simp] theorem Dev.accept_now (d : Dev) (path ix sub : Nat) : (d.accept path ix sub).now = d.now := by simp [Dev.accept]
@[simp] theorem Dev.accept_dict (d : Dev) (path ix sub : Nat) : (d.accept path ix sub).dict = d.dict := by simp [Dev.accept]
@[simp] theorem Dev.accept_long (d : Dev) (path ix sub : Nat) : (d.accept path ix sub).long = d.long := by simp [Dev.accept]
@[simp] theorem Dev.accept_drawn (d : Dev) (path ix sub : Nat) : (d.accept path ix sub).drawn = d.drawn := by simp [Dev.accept]
@[simp] theorem Dev.accept_out (d : Dev) (path ix sub : Nat) : (d.accept path ix sub).out = d.out := by simp [Dev.accept]
@[simp] theorem Dev.accept_cut (d : Dev) (path ix sub : Nat) : (d.accept path ix sub).cut = d.cut := by simp [Dev.accept]
@[simp] theorem Dev.accept_hw (d : Dev) (path ix sub : Nat) : (d.accept path ix sub).hw = d.hw := by simp [Dev.accept]
@[simp] theorem Dev.accept_boot (d : Dev) (path ix sub : Nat) : (d.accept path ix sub).boot = d.boot := by simp [Dev.accept]
@[simp] theorem Dev.accept_flt (d : Dev) (path ix sub : Nat) : (d.accept path ix sub).flt = d.flt := by simp [Dev.accept]
@[simp] theorem Dev.accept_itk (d : Dev) (path ix sub : Nat) : (d.accept path ix sub).itk = d.itk := by simp [Dev.accept]
@[simp] theorem Dev.accept_chn (d : Dev) (path ix sub : Nat) : (d.accept path ix sub).chn = d.chn := by simp [Dev.accept]
@[simp] theorem Dev.accept_spe (d : Dev) (path ix sub : Nat) : (d.accept path ix sub).spe = d.spe := by simp [Dev.accept]
@[simp] theorem Dev.accept_tb (d : Dev) (path ix sub : Nat) : (d.accept path ix sub).tb = d.tb := by simp [Dev.accept]
@[simp] theorem Dev.accept_ctr (d : Dev) (path ix sub : Nat) : (d.accept path ix sub).ctr = d.ctr := by simp [Dev.accept]
@[simp] theorem Dev.accept_cap (d : Dev) (path ix sub : Nat) : (d.accept path ix sub).cap = d.cap := by simp [Dev.accept]
@[simp] theorem Dev.accept_trg (d : Dev) (path ix sub : Nat) : (d.accept path ix sub).trg = d.trg := by simp [Dev.accept]
@[simp] theorem Dev.accept_den (d : Dev) (path ix sub : Nat) : (d.accept path ix sub).den = d.den := by simp [Dev.accept]
@[simp] theorem Dev.accept_vp (d : Dev) (path ix sub : Nat) : (d.accept path ix sub).vp = d.vp := by simp [Dev.accept]
@[simp] theorem Dev.accept_str (d : Dev) (path ix sub : Nat) : (d.accept path ix sub).str = d.str := by simp [Dev.accept]
@[simp] theorem Dev.accept_im (d : Dev) (path ix sub : Nat) : (d.accept path ix sub).im = d.im := by simp [Dev.accept]
@[simp] theorem Dev.accept_cf (d : Dev) (path ix sub : Nat) : (d.accept path ix sub).cf = d.cf := by simp [Dev.accept]
@[simp] theorem Dev.accept_cal (d : Dev) (path ix sub : Nat) : (d.accept path ix sub).cal = d.cal := by simp [Dev.accept]

/-! ### `answer` -/

@[simp] theorem Dev.answer_now (d : Dev) (a : Answer) : (d.answer a).now = d.now := rfl
@[simp] theorem Dev.answer_dict (d : Dev) (a : Answer) : (d.answer a).dict = d.dict := rfl
@[simp] theorem Dev.answer_long (d : Dev) (a : Answer) : (d.answer a).long = d.long := rfl
@[simp] theorem Dev.answer_drawn (d : Dev) (a : Answer) : (d.answer a).drawn = d.drawn := rfl
@[simp] theorem Dev.answer_out (d : Dev) (a : Answer) : (d.answer a).out = d.out := rfl
@[simp] theorem Dev.answer_cut (d : Dev) (a : Answer) : (d.answer a).cut = d.cut := rfl
@[simp] theorem Dev.answer_hw (d : Dev) (a : Answer) : (d.answer a).hw = d.hw := rfl
@[simp] theorem Dev.answer_boot (d : Dev) (a : Answer) : (d.answer a).boot = d.boot := rfl
@[simp] theorem Dev.answer_flt (d : Dev) (a : Answer) : (d.answer a).flt = d.flt := rfl
@[simp] theorem Dev.answer_itk (d : Dev) (a : Answer) : (d.answer a).itk = d.itk := rfl
@[simp] theorem Dev.answer_chn (d : Dev) (a : Answer) : (d.answer a).chn = d.chn := rfl
@[simp] theorem Dev.answer_spe (d : Dev) (a : Answer) : (d.answer a).spe = d.spe := rfl
@[simp] theorem Dev.answer_tb (d : Dev) (a : Answer) : (d.answer a).tb = d.tb := rfl
@[simp] theorem Dev.answer_ctr (d : Dev) (a : Answer) : (d.answer a).ctr = d.ctr := rfl
@[simp] theorem Dev.answer_cap (d : Dev) (a : Answer) : (d.answer a).cap = d.cap := rfl
@[simp] theorem Dev.answer_trg (d : Dev) (a : Answer) : (d.answer a).trg = d.trg := rfl
@[simp] theorem Dev.answer_den (d : Dev) (a : Answer) : (d.answer a).den = d.den := rfl
@[simp] theorem Dev.answer_vp (d : Dev) (a : Answer) : (d.answer a).vp = d.vp := rfl
@[simp] theorem Dev.answer_str (d : Dev) (a : Answer) : (d.answer a).str = d.str := rfl
@[simp] theorem Dev.answer_im (d : Dev) (a : Answer) : (d.answer a).im = d.im := rfl
@[simp] theorem Dev.answer_cf (d : Dev) (a : Answer) : (d.answer a).cf = d.cf := rfl
@[simp] theorem Dev.answer_pwr (d : Dev) (a : Answer) : (d.answer a).pwr = d.pwr := rfl
@[simp] theorem Dev.answer_cal (d : Dev) (a : Answer) : (d.answer a).cal = d.cal := rfl

/-! ### `heatEnds` -/

@[simp] theorem Dev.heatEnds_now (d : Dev)  : (d.heatEnds).now = d.now := by unfold Dev.heatEnds; split <;> rfl
@[simp] theorem Dev.heatEnds_dict (d : Dev)  : (d.heatEnds).dict = d.dict := by unfold Dev.heatEnds; split <;> rfl
@[simp] theorem Dev.heatEnds_long (d : Dev)  : (d.heatEnds).long = d.long := by unfold Dev.heatEnds; split <;> rfl
@[simp] theorem Dev.heatEnds_drawn (d : Dev)  : (d.heatEnds).drawn = d.drawn := by unfold Dev.heatEnds; split <;> rfl
@[simp] theorem Dev.heatEnds_out (d : Dev)  : (d.heatEnds).out = d.out := by unfold Dev.heatEnds; split <;> rfl
@[simp] theorem Dev.heatEnds_cut (d : Dev)  : (d.heatEnds).cut = d.cut := by unfold Dev.heatEnds; split <;> rfl
@[simp] theorem Dev.heatEnds_hw (d : Dev)  : (d.heatEnds).hw = d.hw := by unfold Dev.heatEnds; split <;> rfl
@[simp] theorem Dev.heatEnds_boot (d : Dev)  : (d.heatEnds).boot = d.boot := by unfold Dev.heatEnds; split <;> rfl
@[simp] theorem Dev.heatEnds_flt (d : Dev)  : (d.heatEnds).flt = d.flt := by unfold Dev.heatEnds; split <;> rfl
@[simp] theorem Dev.heatEnds_itk (d : Dev)  : (d.heatEnds).itk = d.itk := by unfold Dev.heatEnds; split <;> rfl
@[simp] theorem Dev.heatEnds_chn (d : Dev)  : (d.heatEnds).chn = d.chn := by unfold Dev.heatEnds; split <;> rfl
@[simp] theorem Dev.heatEnds_spe (d : Dev)  : (d.heatEnds).spe = d.spe := by unfold Dev.heatEnds; split <;> rfl
@[simp] theorem Dev.heatEnds_tb (d : Dev)  : (d.heatEnds).tb = d.tb := by unfold Dev.heatEnds; split <;> rfl
@[simp] theorem Dev.heatEnds_ctr (d : Dev)  : (d.heatEnds).ctr = d.ctr := by unfold Dev.heatEnds; split <;> rfl
@[simp] theorem Dev.heatEnds_cap (d : Dev)  : (d.heatEnds).cap = d.cap := by unfold Dev.heatEnds; split <;> rfl
@[simp] theorem Dev.heatEnds_trg (d : Dev)  : (d.heatEnds).trg = d.trg := by unfold Dev.heatEnds; split <;> rfl
@[simp] theorem Dev.heatEnds_den (d : Dev)  : (d.heatEnds).den = d.den := by unfold Dev.heatEnds; split <;> rfl
@[simp] theorem Dev.heatEnds_vp (d : Dev)  : (d.heatEnds).vp = d.vp := by unfold Dev.heatEnds; split <;> rfl
@[simp] theorem Dev.heatEnds_str (d : Dev)  : (d.heatEnds).str = d.str := by unfold Dev.heatEnds; split <;> rfl
@[simp] theorem Dev.heatEnds_im (d : Dev)  : (d.heatEnds).im = d.im := by unfold Dev.heatEnds; split <;> rfl
@[simp] theorem Dev.heatEnds_cf (d : Dev)  : (d.heatEnds).cf = d.cf := by unfold Dev.heatEnds; split <;> rfl
@[simp] theorem Dev.heatEnds_pwr (d : Dev)  : (d.heatEnds).pwr = d.pwr := by unfold Dev.heatEnds; split <;> rfl
@[simp] theorem Dev.heatEnds_cal (d : Dev)  : (d.heatEnds).cal = d.cal := by unfold Dev.heatEnds; split <;> rfl

/-! ### `stage` -/

@[simp] theorem Dev.stage_now (d : Dev) (w : SWrite) : (d.stage w).now = d.now := by simp only [Dev.stage]; split <;> simp
@[simp] theorem Dev.stage_long (d : Dev) (w : SWrite) : (d.stage w).long = d.long := by simp only [Dev.stage]; split <;> simp
@[simp] theorem Dev.stage_drawn (d : Dev) (w : SWrite) : (d.stage w).drawn = d.drawn := by simp only [Dev.stage]; split <;> simp
@[simp] theorem Dev.stage_out (d : Dev) (w : SWrite) : (d.stage w).out = d.out := by simp only [Dev.stage]; split <;> simp
@[simp] theorem Dev.stage_hw (d : Dev) (w : SWrite) : (d.stage w).hw = d.hw := by simp only [Dev.stage]; split <;> simp
@[simp] theorem Dev.stage_boot (d : Dev) (w : SWrite) : (d.stage w).boot = d.boot := by simp only [Dev.stage]; split <;> simp
@[simp] theorem Dev.stage_sup (d : Dev) (w : SWrite) : (d.stage w).sup = d.sup := by simp only [Dev.stage]; split <;> simp
@[simp] theorem Dev.stage_flt (d : Dev) (w : SWrite) : (d.stage w).flt = d.flt := by simp only [Dev.stage]; split <;> simp
@[simp] theorem Dev.stage_itk (d : Dev) (w : SWrite) : (d.stage w).itk = d.itk := by simp only [Dev.stage]; split <;> simp
@[simp] theorem Dev.stage_chn (d : Dev) (w : SWrite) : (d.stage w).chn = d.chn := by simp only [Dev.stage]; split <;> simp
@[simp] theorem Dev.stage_spe (d : Dev) (w : SWrite) : (d.stage w).spe = d.spe := by simp only [Dev.stage]; split <;> simp
@[simp] theorem Dev.stage_tb (d : Dev) (w : SWrite) : (d.stage w).tb = d.tb := by simp only [Dev.stage]; split <;> simp
@[simp] theorem Dev.stage_ctr (d : Dev) (w : SWrite) : (d.stage w).ctr = d.ctr := by simp only [Dev.stage]; split <;> simp
@[simp] theorem Dev.stage_cap (d : Dev) (w : SWrite) : (d.stage w).cap = d.cap := by simp only [Dev.stage]; split <;> simp
@[simp] theorem Dev.stage_trg (d : Dev) (w : SWrite) : (d.stage w).trg = d.trg := by simp only [Dev.stage]; split <;> simp
@[simp] theorem Dev.stage_den (d : Dev) (w : SWrite) : (d.stage w).den = d.den := by simp only [Dev.stage]; split <;> simp
@[simp] theorem Dev.stage_vp (d : Dev) (w : SWrite) : (d.stage w).vp = d.vp := by simp only [Dev.stage]; split <;> simp
@[simp] theorem Dev.stage_str (d : Dev) (w : SWrite) : (d.stage w).str = d.str := by simp only [Dev.stage]; split <;> simp
@[simp] theorem Dev.stage_im (d : Dev) (w : SWrite) : (d.stage w).im = d.im := by simp only [Dev.stage]; split <;> simp
@[simp] theorem Dev.stage_cf (d : Dev) (w : SWrite) : (d.stage w).cf = d.cf := by simp only [Dev.stage]; split <;> simp
@[simp] theorem Dev.stage_pwr (d : Dev) (w : SWrite) : (d.stage w).pwr = d.pwr := by simp only [Dev.stage]; split <;> simp
@[simp] theorem Dev.stage_cal (d : Dev) (w : SWrite) : (d.stage w).cal = d.cal := by simp only [Dev.stage]; split <;> simp

/-! ### `shadow` -/

@[simp] theorem Dev.shadow_now (d : Dev) (w : SWrite) : (d.shadow w).now = d.now := rfl
@[simp] theorem Dev.shadow_dict (d : Dev) (w : SWrite) : (d.shadow w).dict = d.dict := rfl
@[simp] theorem Dev.shadow_long (d : Dev) (w : SWrite) : (d.shadow w).long = d.long := rfl
@[simp] theorem Dev.shadow_drawn (d : Dev) (w : SWrite) : (d.shadow w).drawn = d.drawn := rfl
@[simp] theorem Dev.shadow_out (d : Dev) (w : SWrite) : (d.shadow w).out = d.out := rfl
@[simp] theorem Dev.shadow_hw (d : Dev) (w : SWrite) : (d.shadow w).hw = d.hw := rfl
@[simp] theorem Dev.shadow_boot (d : Dev) (w : SWrite) : (d.shadow w).boot = d.boot := rfl
@[simp] theorem Dev.shadow_sup (d : Dev) (w : SWrite) : (d.shadow w).sup = d.sup := rfl
@[simp] theorem Dev.shadow_flt (d : Dev) (w : SWrite) : (d.shadow w).flt = d.flt := rfl
@[simp] theorem Dev.shadow_itk (d : Dev) (w : SWrite) : (d.shadow w).itk = d.itk := rfl
@[simp] theorem Dev.shadow_chn (d : Dev) (w : SWrite) : (d.shadow w).chn = d.chn := rfl
@[simp] theorem Dev.shadow_spe (d : Dev) (w : SWrite) : (d.shadow w).spe = d.spe := rfl
@[simp] theorem Dev.shadow_tb (d : Dev) (w : SWrite) : (d.shadow w).tb = d.tb := rfl
@[simp] theorem Dev.shadow_ctr (d : Dev) (w : SWrite) : (d.shadow w).ctr = d.ctr := rfl
@[simp] theorem Dev.shadow_cap (d : Dev) (w : SWrite) : (d.shadow w).cap = d.cap := rfl
@[simp] theorem Dev.shadow_trg (d : Dev) (w : SWrite) : (d.shadow w).trg = d.trg := rfl
@[simp] theorem Dev.shadow_den (d : Dev) (w : SWrite) : (d.shadow w).den = d.den := rfl
@[simp] theorem Dev.shadow_vp (d : Dev) (w : SWrite) : (d.shadow w).vp = d.vp := rfl
@[simp] theorem Dev.shadow_str (d : Dev) (w : SWrite) : (d.shadow w).str = d.str := rfl
@[simp] theorem Dev.shadow_im (d : Dev) (w : SWrite) : (d.shadow w).im = d.im := rfl
@[simp] theorem Dev.shadow_cf (d : Dev) (w : SWrite) : (d.shadow w).cf = d.cf := rfl
@[simp] theorem Dev.shadow_pwr (d : Dev) (w : SWrite) : (d.shadow w).pwr = d.pwr := rfl
@[simp] theorem Dev.shadow_cal (d : Dev) (w : SWrite) : (d.shadow w).cal = d.cal := rfl

/-! ### `nextCut` -/

@[simp] theorem Dev.nextCut_now (d : Dev)  : (d.nextCut.2).now = d.now := rfl
@[simp] theorem Dev.nextCut_dict (d : Dev)  : (d.nextCut.2).dict = d.dict := rfl
@[simp] theorem Dev.nextCut_long (d : Dev)  : (d.nextCut.2).long = d.long := rfl
@[simp] theorem Dev.nextCut_drawn (d : Dev)  : (d.nextCut.2).drawn = d.drawn := rfl
@[simp] theorem Dev.nextCut_out (d : Dev)  : (d.nextCut.2).out = d.out := rfl
@[simp] theorem Dev.nextCut_hw (d : Dev)  : (d.nextCut.2).hw = d.hw := rfl
@[simp] theorem Dev.nextCut_boot (d : Dev)  : (d.nextCut.2).boot = d.boot := rfl
@[simp] theorem Dev.nextCut_sup (d : Dev)  : (d.nextCut.2).sup = d.sup := rfl
@[simp] theorem Dev.nextCut_flt (d : Dev)  : (d.nextCut.2).flt = d.flt := rfl
@[simp] theorem Dev.nextCut_itk (d : Dev)  : (d.nextCut.2).itk = d.itk := rfl
@[simp] theorem Dev.nextCut_chn (d : Dev)  : (d.nextCut.2).chn = d.chn := rfl
@[simp] theorem Dev.nextCut_spe (d : Dev)  : (d.nextCut.2).spe = d.spe := rfl
@[simp] theorem Dev.nextCut_tb (d : Dev)  : (d.nextCut.2).tb = d.tb := rfl
@[simp] theorem Dev.nextCut_ctr (d : Dev)  : (d.nextCut.2).ctr = d.ctr := rfl
@[simp] theorem Dev.nextCut_cap (d : Dev)  : (d.nextCut.2).cap = d.cap := rfl
@[simp] theorem Dev.nextCut_trg (d : Dev)  : (d.nextCut.2).trg = d.trg := rfl
@[simp] theorem Dev.nextCut_den (d : Dev)  : (d.nextCut.2).den = d.den := rfl
@[simp] theorem Dev.nextCut_vp (d : Dev)  : (d.nextCut.2).vp = d.vp := rfl
@[simp] theorem Dev.nextCut_str (d : Dev)  : (d.nextCut.2).str = d.str := rfl
@[simp] theorem Dev.nextCut_im (d : Dev)  : (d.nextCut.2).im = d.im := rfl
@[simp] theorem Dev.nextCut_cf (d : Dev)  : (d.nextCut.2).cf = d.cf := rfl
@[simp] theorem Dev.nextCut_pwr (d : Dev)  : (d.nextCut.2).pwr = d.pwr := rfl
@[simp] theorem Dev.nextCut_cal (d : Dev)  : (d.nextCut.2).cal = d.cal := rfl

/-! ### `engineCut` -/

@[simp] theorem Dev.engineCut_now (d : Dev) (c : Cut) : (d.engineCut c).now = d.now := by simp [Dev.engineCut]
@[simp] theorem Dev.engineCut_long (d : Dev) (c : Cut) : (d.engineCut c).long = d.long := by simp [Dev.engineCut]
@[simp] theorem Dev.engineCut_drawn (d : Dev) (c : Cut) : (d.engineCut c).drawn = d.drawn := by simp [Dev.engineCut]
@[simp] theorem Dev.engineCut_out (d : Dev) (c : Cut) : (d.engineCut c).out = d.out := by simp [Dev.engineCut]
@[simp] theorem Dev.engineCut_hw (d : Dev) (c : Cut) : (d.engineCut c).hw = d.hw := by simp [Dev.engineCut]
@[simp] theorem Dev.engineCut_boot (d : Dev) (c : Cut) : (d.engineCut c).boot = d.boot := by simp [Dev.engineCut]
@[simp] theorem Dev.engineCut_sup (d : Dev) (c : Cut) : (d.engineCut c).sup = d.sup := by simp [Dev.engineCut]
@[simp] theorem Dev.engineCut_flt (d : Dev) (c : Cut) : (d.engineCut c).flt = d.flt := by simp [Dev.engineCut]
@[simp] theorem Dev.engineCut_itk (d : Dev) (c : Cut) : (d.engineCut c).itk = d.itk := by simp [Dev.engineCut]
@[simp] theorem Dev.engineCut_chn (d : Dev) (c : Cut) : (d.engineCut c).chn = d.chn := by simp [Dev.engineCut]
@[simp] theorem Dev.engineCut_spe (d : Dev) (c : Cut) : (d.engineCut c).spe = d.spe := by simp [Dev.engineCut]
@[simp] theorem Dev.engineCut_tb (d : Dev) (c : Cut) : (d.engineCut c).tb = d.tb := by simp [Dev.engineCut]
@[simp] theorem Dev.engineCut_ctr (d : Dev) (c : Cut) : (d.engineCut c).ctr = d.ctr := by simp [Dev.engineCut]
@[simp] theorem Dev.engineCut_cap (d : Dev) (c : Cut) : (d.engineCut c).cap = d.cap := by simp [Dev.engineCut]
@[simp] theorem Dev.engineCut_trg (d : Dev) (c : Cut) : (d.engineCut c).trg = d.trg := by simp [Dev.engineCut]
@[simp] theorem Dev.engineCut_den (d : Dev) (c : Cut) : (d.engineCut c).den = d.den := by simp [Dev.engineCut]
@[simp] theorem Dev.engineCut_vp (d : Dev) (c : Cut) : (d.engineCut c).vp = d.vp := by simp [Dev.engineCut]
@[simp] theorem Dev.engineCut_str (d : Dev) (c : Cut) : (d.engineCut c).str = d.str := by simp [Dev.engineCut]
@[simp] theorem Dev.engineCut_im (d : Dev) (c : Cut) : (d.engineCut c).im = d.im := by simp [Dev.engineCut]
@[simp] theorem Dev.engineCut_cf (d : Dev) (c : Cut) : (d.engineCut c).cf = d.cf := by simp [Dev.engineCut]
@[simp] theorem Dev.engineCut_pwr (d : Dev) (c : Cut) : (d.engineCut c).pwr = d.pwr := by simp [Dev.engineCut]
@[simp] theorem Dev.engineCut_cal (d : Dev) (c : Cut) : (d.engineCut c).cal = d.cal := by simp [Dev.engineCut]

/-! ### `wrAll` and `overlay` -/

@[simp] theorem Dev.wrAll_now (d : Dev) (ix v k : Nat) : (d.wrAll ix v k).now = d.now := by induction k with | zero => rfl | succ k ih => simpa [Dev.wrAll] using ih
@[simp] theorem Dev.overlay_now (d : Dev) (l : List SWrite) : (d.overlay l).now = d.now := foldl_keeps (·.now) (fun (a : Dev) (w : SWrite) => a.wr w.ix w.sub w.inst w.value) (fun _ _ => rfl) l d
@[simp] theorem Dev.wrAll_long (d : Dev) (ix v k : Nat) : (d.wrAll ix v k).long = d.long := by induction k with | zero => rfl | succ k ih => simpa [Dev.wrAll] using ih
@[simp] theorem Dev.overlay_long (d : Dev) (l : List SWrite) : (d.overlay l).long = d.long := foldl_keeps (·.long) (fun (a : Dev) (w : SWrite) => a.wr w.ix w.sub w.inst w.value) (fun _ _ => rfl) l d
@[simp] theorem Dev.wrAll_drawn (d : Dev) (ix v k : Nat) : (d.wrAll ix v k).drawn = d.drawn := by induction k with | zero => rfl | succ k ih => simpa [Dev.wrAll] using ih
@[simp] theorem Dev.overlay_drawn (d : Dev) (l : List SWrite) : (d.overlay l).drawn = d.drawn := foldl_keeps (·.drawn) (fun (a : Dev) (w : SWrite) => a.wr w.ix w.sub w.inst w.value) (fun _ _ => rfl) l d
@[simp] theorem Dev.wrAll_out (d : Dev) (ix v k : Nat) : (d.wrAll ix v k).out = d.out := by induction k with | zero => rfl | succ k ih => simpa [Dev.wrAll] using ih
@[simp] theorem Dev.overlay_out (d : Dev) (l : List SWrite) : (d.overlay l).out = d.out := foldl_keeps (·.out) (fun (a : Dev) (w : SWrite) => a.wr w.ix w.sub w.inst w.value) (fun _ _ => rfl) l d
@[simp] theorem Dev.wrAll_cut (d : Dev) (ix v k : Nat) : (d.wrAll ix v k).cut = d.cut := by induction k with | zero => rfl | succ k ih => simpa [Dev.wrAll] using ih
@[simp] theorem Dev.overlay_cut (d : Dev) (l : List SWrite) : (d.overlay l).cut = d.cut := foldl_keeps (·.cut) (fun (a : Dev) (w : SWrite) => a.wr w.ix w.sub w.inst w.value) (fun _ _ => rfl) l d
@[simp] theorem Dev.wrAll_hw (d : Dev) (ix v k : Nat) : (d.wrAll ix v k).hw = d.hw := by induction k with | zero => rfl | succ k ih => simpa [Dev.wrAll] using ih
@[simp] theorem Dev.overlay_hw (d : Dev) (l : List SWrite) : (d.overlay l).hw = d.hw := foldl_keeps (·.hw) (fun (a : Dev) (w : SWrite) => a.wr w.ix w.sub w.inst w.value) (fun _ _ => rfl) l d
@[simp] theorem Dev.wrAll_boot (d : Dev) (ix v k : Nat) : (d.wrAll ix v k).boot = d.boot := by induction k with | zero => rfl | succ k ih => simpa [Dev.wrAll] using ih
@[simp] theorem Dev.overlay_boot (d : Dev) (l : List SWrite) : (d.overlay l).boot = d.boot := foldl_keeps (·.boot) (fun (a : Dev) (w : SWrite) => a.wr w.ix w.sub w.inst w.value) (fun _ _ => rfl) l d
@[simp] theorem Dev.wrAll_sup (d : Dev) (ix v k : Nat) : (d.wrAll ix v k).sup = d.sup := by induction k with | zero => rfl | succ k ih => simpa [Dev.wrAll] using ih
@[simp] theorem Dev.overlay_sup (d : Dev) (l : List SWrite) : (d.overlay l).sup = d.sup := foldl_keeps (·.sup) (fun (a : Dev) (w : SWrite) => a.wr w.ix w.sub w.inst w.value) (fun _ _ => rfl) l d
@[simp] theorem Dev.wrAll_flt (d : Dev) (ix v k : Nat) : (d.wrAll ix v k).flt = d.flt := by induction k with | zero => rfl | succ k ih => simpa [Dev.wrAll] using ih
@[simp] theorem Dev.overlay_flt (d : Dev) (l : List SWrite) : (d.overlay l).flt = d.flt := foldl_keeps (·.flt) (fun (a : Dev) (w : SWrite) => a.wr w.ix w.sub w.inst w.value) (fun _ _ => rfl) l d
@[simp] theorem Dev.wrAll_itk (d : Dev) (ix v k : Nat) : (d.wrAll ix v k).itk = d.itk := by induction k with | zero => rfl | succ k ih => simpa [Dev.wrAll] using ih
@[simp] theorem Dev.overlay_itk (d : Dev) (l : List SWrite) : (d.overlay l).itk = d.itk := foldl_keeps (·.itk) (fun (a : Dev) (w : SWrite) => a.wr w.ix w.sub w.inst w.value) (fun _ _ => rfl) l d
@[simp] theorem Dev.wrAll_chn (d : Dev) (ix v k : Nat) : (d.wrAll ix v k).chn = d.chn := by induction k with | zero => rfl | succ k ih => simpa [Dev.wrAll] using ih
@[simp] theorem Dev.overlay_chn (d : Dev) (l : List SWrite) : (d.overlay l).chn = d.chn := foldl_keeps (·.chn) (fun (a : Dev) (w : SWrite) => a.wr w.ix w.sub w.inst w.value) (fun _ _ => rfl) l d
@[simp] theorem Dev.wrAll_spe (d : Dev) (ix v k : Nat) : (d.wrAll ix v k).spe = d.spe := by induction k with | zero => rfl | succ k ih => simpa [Dev.wrAll] using ih
@[simp] theorem Dev.overlay_spe (d : Dev) (l : List SWrite) : (d.overlay l).spe = d.spe := foldl_keeps (·.spe) (fun (a : Dev) (w : SWrite) => a.wr w.ix w.sub w.inst w.value) (fun _ _ => rfl) l d
@[simp] theorem Dev.wrAll_tb (d : Dev) (ix v k : Nat) : (d.wrAll ix v k).tb = d.tb := by induction k with | zero => rfl | succ k ih => simpa [Dev.wrAll] using ih
@[simp] theorem Dev.overlay_tb (d : Dev) (l : List SWrite) : (d.overlay l).tb = d.tb := foldl_keeps (·.tb) (fun (a : Dev) (w : SWrite) => a.wr w.ix w.sub w.inst w.value) (fun _ _ => rfl) l d
@[simp] theorem Dev.wrAll_ctr (d : Dev) (ix v k : Nat) : (d.wrAll ix v k).ctr = d.ctr := by induction k with | zero => rfl | succ k ih => simpa [Dev.wrAll] using ih
@[simp] theorem Dev.overlay_ctr (d : Dev) (l : List SWrite) : (d.overlay l).ctr = d.ctr := foldl_keeps (·.ctr) (fun (a : Dev) (w : SWrite) => a.wr w.ix w.sub w.inst w.value) (fun _ _ => rfl) l d
@[simp] theorem Dev.wrAll_cap (d : Dev) (ix v k : Nat) : (d.wrAll ix v k).cap = d.cap := by induction k with | zero => rfl | succ k ih => simpa [Dev.wrAll] using ih
@[simp] theorem Dev.overlay_cap (d : Dev) (l : List SWrite) : (d.overlay l).cap = d.cap := foldl_keeps (·.cap) (fun (a : Dev) (w : SWrite) => a.wr w.ix w.sub w.inst w.value) (fun _ _ => rfl) l d
@[simp] theorem Dev.wrAll_trg (d : Dev) (ix v k : Nat) : (d.wrAll ix v k).trg = d.trg := by induction k with | zero => rfl | succ k ih => simpa [Dev.wrAll] using ih
@[simp] theorem Dev.overlay_trg (d : Dev) (l : List SWrite) : (d.overlay l).trg = d.trg := foldl_keeps (·.trg) (fun (a : Dev) (w : SWrite) => a.wr w.ix w.sub w.inst w.value) (fun _ _ => rfl) l d
@[simp] theorem Dev.wrAll_den (d : Dev) (ix v k : Nat) : (d.wrAll ix v k).den = d.den := by induction k with | zero => rfl | succ k ih => simpa [Dev.wrAll] using ih
@[simp] theorem Dev.overlay_den (d : Dev) (l : List SWrite) : (d.overlay l).den = d.den := foldl_keeps (·.den) (fun (a : Dev) (w : SWrite) => a.wr w.ix w.sub w.inst w.value) (fun _ _ => rfl) l d
@[simp] theorem Dev.wrAll_vp (d : Dev) (ix v k : Nat) : (d.wrAll ix v k).vp = d.vp := by induction k with | zero => rfl | succ k ih => simpa [Dev.wrAll] using ih
@[simp] theorem Dev.overlay_vp (d : Dev) (l : List SWrite) : (d.overlay l).vp = d.vp := foldl_keeps (·.vp) (fun (a : Dev) (w : SWrite) => a.wr w.ix w.sub w.inst w.value) (fun _ _ => rfl) l d
@[simp] theorem Dev.wrAll_str (d : Dev) (ix v k : Nat) : (d.wrAll ix v k).str = d.str := by induction k with | zero => rfl | succ k ih => simpa [Dev.wrAll] using ih
@[simp] theorem Dev.overlay_str (d : Dev) (l : List SWrite) : (d.overlay l).str = d.str := foldl_keeps (·.str) (fun (a : Dev) (w : SWrite) => a.wr w.ix w.sub w.inst w.value) (fun _ _ => rfl) l d
@[simp] theorem Dev.wrAll_im (d : Dev) (ix v k : Nat) : (d.wrAll ix v k).im = d.im := by induction k with | zero => rfl | succ k ih => simpa [Dev.wrAll] using ih
@[simp] theorem Dev.overlay_im (d : Dev) (l : List SWrite) : (d.overlay l).im = d.im := foldl_keeps (·.im) (fun (a : Dev) (w : SWrite) => a.wr w.ix w.sub w.inst w.value) (fun _ _ => rfl) l d
@[simp] theorem Dev.wrAll_cf (d : Dev) (ix v k : Nat) : (d.wrAll ix v k).cf = d.cf := by induction k with | zero => rfl | succ k ih => simpa [Dev.wrAll] using ih
@[simp] theorem Dev.overlay_cf (d : Dev) (l : List SWrite) : (d.overlay l).cf = d.cf := foldl_keeps (·.cf) (fun (a : Dev) (w : SWrite) => a.wr w.ix w.sub w.inst w.value) (fun _ _ => rfl) l d
@[simp] theorem Dev.wrAll_pwr (d : Dev) (ix v k : Nat) : (d.wrAll ix v k).pwr = d.pwr := by induction k with | zero => rfl | succ k ih => simpa [Dev.wrAll] using ih
@[simp] theorem Dev.overlay_pwr (d : Dev) (l : List SWrite) : (d.overlay l).pwr = d.pwr := foldl_keeps (·.pwr) (fun (a : Dev) (w : SWrite) => a.wr w.ix w.sub w.inst w.value) (fun _ _ => rfl) l d
@[simp] theorem Dev.wrAll_cal (d : Dev) (ix v k : Nat) : (d.wrAll ix v k).cal = d.cal := by induction k with | zero => rfl | succ k ih => simpa [Dev.wrAll] using ih
@[simp] theorem Dev.overlay_cal (d : Dev) (l : List SWrite) : (d.overlay l).cal = d.cal := foldl_keeps (·.cal) (fun (a : Dev) (w : SWrite) => a.wr w.ix w.sub w.inst w.value) (fun _ _ => rfl) l d

/-! ### Parts that `markWrap` leaves within what it changes -/

@[simp] theorem Dev.markWrap_ctr_counts (d : Dev) (k : Option Nat) (v : Int) : (d.markWrap k v).ctr.counts = d.ctr.counts := by unfold Dev.markWrap; split <;> (try split) <;> rfl
@[simp] theorem Dev.markWrap_ctr_clocks (d : Dev) (k : Option Nat) (v : Int) : (d.markWrap k v).ctr.clocks = d.ctr.clocks := by unfold Dev.markWrap; split <;> (try split) <;> rfl
@[simp] theorem Dev.markWrap_ctr_acked (d : Dev) (k : Option Nat) (v : Int) : (d.markWrap k v).ctr.acked = d.ctr.acked := by unfold Dev.markWrap; split <;> (try split) <;> rfl
@[simp] theorem Dev.markWrap_ctr_frozen (d : Dev) (k : Option Nat) (v : Int) : (d.markWrap k v).ctr.frozen = d.ctr.frozen := by unfold Dev.markWrap; split <;> (try split) <;> rfl
@[simp] theorem Dev.markWrap_ctr_freezeAt (d : Dev) (k : Option Nat) (v : Int) : (d.markWrap k v).ctr.freezeAt = d.ctr.freezeAt := by unfold Dev.markWrap; split <;> (try split) <;> rfl
@[simp] theorem Dev.markWrap_ctr_releaseAt (d : Dev) (k : Option Nat) (v : Int) : (d.markWrap k v).ctr.releaseAt = d.ctr.releaseAt := by unfold Dev.markWrap; split <;> (try split) <;> rfl
@[simp] theorem Dev.markWrap_ctr_banks (d : Dev) (k : Option Nat) (v : Int) : (d.markWrap k v).ctr.banks = d.ctr.banks := by unfold Dev.markWrap; split <;> (try split) <;> rfl
@[simp] theorem Dev.markWrap_ctr_snapAt (d : Dev) (k : Option Nat) (v : Int) : (d.markWrap k v).ctr.snapAt = d.ctr.snapAt := by unfold Dev.markWrap; split <;> (try split) <;> rfl
@[simp] theorem Dev.markWrap_ctr_skipRaised (d : Dev) (k : Option Nat) (v : Int) : (d.markWrap k v).ctr.skipRaised = d.ctr.skipRaised := by unfold Dev.markWrap; split <;> (try split) <;> rfl
@[simp] theorem Dev.markWrap_ctr_samplers (d : Dev) (k : Option Nat) (v : Int) : (d.markWrap k v).ctr.samplers = d.ctr.samplers := by unfold Dev.markWrap; split <;> (try split) <;> rfl
@[simp] theorem Dev.markWrap_ctr_slots (d : Dev) (k : Option Nat) (v : Int) : (d.markWrap k v).ctr.slots = d.ctr.slots := by unfold Dev.markWrap; split <;> (try split) <;> rfl
@[simp] theorem Dev.markWrap_ctr_periodAt (d : Dev) (k : Option Nat) (v : Int) : (d.markWrap k v).ctr.periodAt = d.ctr.periodAt := by unfold Dev.markWrap; split <;> (try split) <;> rfl

/-! ### Parts that `inc` leaves within what it changes -/

@[simp] theorem Dev.inc_ctr_counts (d : Dev) (ix sub inst k : Nat) : (d.inc ix sub inst k).ctr.counts = d.ctr.counts := by simp only [Dev.inc, Dev.wr_ctr]; split <;> simp
@[simp] theorem Dev.inc_ctr_clocks (d : Dev) (ix sub inst k : Nat) : (d.inc ix sub inst k).ctr.clocks = d.ctr.clocks := by simp only [Dev.inc, Dev.wr_ctr]; split <;> simp
@[simp] theorem Dev.inc_ctr_acked (d : Dev) (ix sub inst k : Nat) : (d.inc ix sub inst k).ctr.acked = d.ctr.acked := by simp only [Dev.inc, Dev.wr_ctr]; split <;> simp
@[simp] theorem Dev.inc_ctr_frozen (d : Dev) (ix sub inst k : Nat) : (d.inc ix sub inst k).ctr.frozen = d.ctr.frozen := by simp only [Dev.inc, Dev.wr_ctr]; split <;> simp
@[simp] theorem Dev.inc_ctr_freezeAt (d : Dev) (ix sub inst k : Nat) : (d.inc ix sub inst k).ctr.freezeAt = d.ctr.freezeAt := by simp only [Dev.inc, Dev.wr_ctr]; split <;> simp
@[simp] theorem Dev.inc_ctr_releaseAt (d : Dev) (ix sub inst k : Nat) : (d.inc ix sub inst k).ctr.releaseAt = d.ctr.releaseAt := by simp only [Dev.inc, Dev.wr_ctr]; split <;> simp
@[simp] theorem Dev.inc_ctr_banks (d : Dev) (ix sub inst k : Nat) : (d.inc ix sub inst k).ctr.banks = d.ctr.banks := by simp only [Dev.inc, Dev.wr_ctr]; split <;> simp
@[simp] theorem Dev.inc_ctr_snapAt (d : Dev) (ix sub inst k : Nat) : (d.inc ix sub inst k).ctr.snapAt = d.ctr.snapAt := by simp only [Dev.inc, Dev.wr_ctr]; split <;> simp
@[simp] theorem Dev.inc_ctr_skipRaised (d : Dev) (ix sub inst k : Nat) : (d.inc ix sub inst k).ctr.skipRaised = d.ctr.skipRaised := by simp only [Dev.inc, Dev.wr_ctr]; split <;> simp
@[simp] theorem Dev.inc_ctr_samplers (d : Dev) (ix sub inst k : Nat) : (d.inc ix sub inst k).ctr.samplers = d.ctr.samplers := by simp only [Dev.inc, Dev.wr_ctr]; split <;> simp
@[simp] theorem Dev.inc_ctr_slots (d : Dev) (ix sub inst k : Nat) : (d.inc ix sub inst k).ctr.slots = d.ctr.slots := by simp only [Dev.inc, Dev.wr_ctr]; split <;> simp
@[simp] theorem Dev.inc_ctr_periodAt (d : Dev) (ix sub inst k : Nat) : (d.inc ix sub inst k).ctr.periodAt = d.ctr.periodAt := by simp only [Dev.inc, Dev.wr_ctr]; split <;> simp

/-! ### Parts that `emitTo` leaves within what it changes -/

@[simp] theorem Dev.emitTo_ctr_counts (d : Dev) (ring lostIx : Nat) (r : Rec) : (d.emitTo ring lostIx r).ctr.counts = d.ctr.counts := by unfold Dev.emitTo; (repeat' split) <;> simp
@[simp] theorem Dev.emitTo_ctr_clocks (d : Dev) (ring lostIx : Nat) (r : Rec) : (d.emitTo ring lostIx r).ctr.clocks = d.ctr.clocks := by unfold Dev.emitTo; (repeat' split) <;> simp
@[simp] theorem Dev.emitTo_ctr_acked (d : Dev) (ring lostIx : Nat) (r : Rec) : (d.emitTo ring lostIx r).ctr.acked = d.ctr.acked := by unfold Dev.emitTo; (repeat' split) <;> simp
@[simp] theorem Dev.emitTo_ctr_frozen (d : Dev) (ring lostIx : Nat) (r : Rec) : (d.emitTo ring lostIx r).ctr.frozen = d.ctr.frozen := by unfold Dev.emitTo; (repeat' split) <;> simp
@[simp] theorem Dev.emitTo_ctr_freezeAt (d : Dev) (ring lostIx : Nat) (r : Rec) : (d.emitTo ring lostIx r).ctr.freezeAt = d.ctr.freezeAt := by unfold Dev.emitTo; (repeat' split) <;> simp
@[simp] theorem Dev.emitTo_ctr_releaseAt (d : Dev) (ring lostIx : Nat) (r : Rec) : (d.emitTo ring lostIx r).ctr.releaseAt = d.ctr.releaseAt := by unfold Dev.emitTo; (repeat' split) <;> simp
@[simp] theorem Dev.emitTo_ctr_banks (d : Dev) (ring lostIx : Nat) (r : Rec) : (d.emitTo ring lostIx r).ctr.banks = d.ctr.banks := by unfold Dev.emitTo; (repeat' split) <;> simp
@[simp] theorem Dev.emitTo_ctr_snapAt (d : Dev) (ring lostIx : Nat) (r : Rec) : (d.emitTo ring lostIx r).ctr.snapAt = d.ctr.snapAt := by unfold Dev.emitTo; (repeat' split) <;> simp
@[simp] theorem Dev.emitTo_ctr_skipRaised (d : Dev) (ring lostIx : Nat) (r : Rec) : (d.emitTo ring lostIx r).ctr.skipRaised = d.ctr.skipRaised := by unfold Dev.emitTo; (repeat' split) <;> simp
@[simp] theorem Dev.emitTo_ctr_samplers (d : Dev) (ring lostIx : Nat) (r : Rec) : (d.emitTo ring lostIx r).ctr.samplers = d.ctr.samplers := by unfold Dev.emitTo; (repeat' split) <;> simp
@[simp] theorem Dev.emitTo_ctr_slots (d : Dev) (ring lostIx : Nat) (r : Rec) : (d.emitTo ring lostIx r).ctr.slots = d.ctr.slots := by unfold Dev.emitTo; (repeat' split) <;> simp
@[simp] theorem Dev.emitTo_ctr_periodAt (d : Dev) (ring lostIx : Nat) (r : Rec) : (d.emitTo ring lostIx r).ctr.periodAt = d.ctr.periodAt := by unfold Dev.emitTo; (repeat' split) <;> simp
@[simp] theorem Dev.emitTo_out_events (d : Dev) (ring lostIx : Nat) (r : Rec) : (d.emitTo ring lostIx r).out.events = d.out.events := by unfold Dev.emitTo; (repeat' split) <;> simp
@[simp] theorem Dev.emitTo_out_happenings (d : Dev) (ring lostIx : Nat) (r : Rec) : (d.emitTo ring lostIx r).out.happenings = d.out.happenings := by unfold Dev.emitTo; (repeat' split) <;> simp
@[simp] theorem Dev.emitTo_out_gaps (d : Dev) (ring lostIx : Nat) (r : Rec) : (d.emitTo ring lostIx r).out.gaps = d.out.gaps := by unfold Dev.emitTo; (repeat' split) <;> simp
@[simp] theorem Dev.emitTo_out_seqs (d : Dev) (ring lostIx : Nat) (r : Rec) : (d.emitTo ring lostIx r).out.seqs = d.out.seqs := by unfold Dev.emitTo; (repeat' split) <;> simp
@[simp] theorem Dev.emitTo_out_arrived (d : Dev) (ring lostIx : Nat) (r : Rec) : (d.emitTo ring lostIx r).out.arrived = d.out.arrived := by unfold Dev.emitTo; (repeat' split) <;> simp

/-! ### Parts that `emit` leaves within what it changes -/

@[simp] theorem Dev.emit_ctr_counts (d : Dev) (isl : Nat) (r : Rec) : (d.emit isl r).ctr.counts = d.ctr.counts := by simp only [Dev.emit]; split <;> simp
@[simp] theorem Dev.emit_ctr_clocks (d : Dev) (isl : Nat) (r : Rec) : (d.emit isl r).ctr.clocks = d.ctr.clocks := by simp only [Dev.emit]; split <;> simp
@[simp] theorem Dev.emit_ctr_acked (d : Dev) (isl : Nat) (r : Rec) : (d.emit isl r).ctr.acked = d.ctr.acked := by simp only [Dev.emit]; split <;> simp
@[simp] theorem Dev.emit_ctr_frozen (d : Dev) (isl : Nat) (r : Rec) : (d.emit isl r).ctr.frozen = d.ctr.frozen := by simp only [Dev.emit]; split <;> simp
@[simp] theorem Dev.emit_ctr_freezeAt (d : Dev) (isl : Nat) (r : Rec) : (d.emit isl r).ctr.freezeAt = d.ctr.freezeAt := by simp only [Dev.emit]; split <;> simp
@[simp] theorem Dev.emit_ctr_releaseAt (d : Dev) (isl : Nat) (r : Rec) : (d.emit isl r).ctr.releaseAt = d.ctr.releaseAt := by simp only [Dev.emit]; split <;> simp
@[simp] theorem Dev.emit_ctr_banks (d : Dev) (isl : Nat) (r : Rec) : (d.emit isl r).ctr.banks = d.ctr.banks := by simp only [Dev.emit]; split <;> simp
@[simp] theorem Dev.emit_ctr_snapAt (d : Dev) (isl : Nat) (r : Rec) : (d.emit isl r).ctr.snapAt = d.ctr.snapAt := by simp only [Dev.emit]; split <;> simp
@[simp] theorem Dev.emit_ctr_skipRaised (d : Dev) (isl : Nat) (r : Rec) : (d.emit isl r).ctr.skipRaised = d.ctr.skipRaised := by simp only [Dev.emit]; split <;> simp
@[simp] theorem Dev.emit_ctr_samplers (d : Dev) (isl : Nat) (r : Rec) : (d.emit isl r).ctr.samplers = d.ctr.samplers := by simp only [Dev.emit]; split <;> simp
@[simp] theorem Dev.emit_ctr_slots (d : Dev) (isl : Nat) (r : Rec) : (d.emit isl r).ctr.slots = d.ctr.slots := by simp only [Dev.emit]; split <;> simp
@[simp] theorem Dev.emit_ctr_periodAt (d : Dev) (isl : Nat) (r : Rec) : (d.emit isl r).ctr.periodAt = d.ctr.periodAt := by simp only [Dev.emit]; split <;> simp
@[simp] theorem Dev.emit_out_happenings (d : Dev) (isl : Nat) (r : Rec) : (d.emit isl r).out.happenings = d.out.happenings := by simp only [Dev.emit]; split <;> simp
@[simp] theorem Dev.emit_out_gaps (d : Dev) (isl : Nat) (r : Rec) : (d.emit isl r).out.gaps = d.out.gaps := by simp only [Dev.emit]; split <;> simp
@[simp] theorem Dev.emit_out_seqs (d : Dev) (isl : Nat) (r : Rec) : (d.emit isl r).out.seqs = d.out.seqs := by simp only [Dev.emit]; split <;> simp
@[simp] theorem Dev.emit_out_arrived (d : Dev) (isl : Nat) (r : Rec) : (d.emit isl r).out.arrived = d.out.arrived := by simp only [Dev.emit]; split <;> simp

/-! ### Parts that `nextSeq` leaves within what it changes -/

@[simp] theorem Dev.nextSeq_out_outbox (d : Dev) (k : Nat) : ((d.nextSeq k).2).out.outbox = d.out.outbox := rfl
@[simp] theorem Dev.nextSeq_out_events (d : Dev) (k : Nat) : ((d.nextSeq k).2).out.events = d.out.events := rfl
@[simp] theorem Dev.nextSeq_out_happenings (d : Dev) (k : Nat) : ((d.nextSeq k).2).out.happenings = d.out.happenings := rfl
@[simp] theorem Dev.nextSeq_out_gaps (d : Dev) (k : Nat) : ((d.nextSeq k).2).out.gaps = d.out.gaps := rfl

/-! ### Parts that `event` leaves within what it changes -/

@[simp] theorem Dev.event_ctr_counts (d : Dev) (isl tag kind obj time a b : Nat) : (d.event isl tag kind obj time a b).ctr.counts = d.ctr.counts := by simp [Dev.event]
@[simp] theorem Dev.event_ctr_clocks (d : Dev) (isl tag kind obj time a b : Nat) : (d.event isl tag kind obj time a b).ctr.clocks = d.ctr.clocks := by simp [Dev.event]
@[simp] theorem Dev.event_ctr_acked (d : Dev) (isl tag kind obj time a b : Nat) : (d.event isl tag kind obj time a b).ctr.acked = d.ctr.acked := by simp [Dev.event]
@[simp] theorem Dev.event_ctr_frozen (d : Dev) (isl tag kind obj time a b : Nat) : (d.event isl tag kind obj time a b).ctr.frozen = d.ctr.frozen := by simp [Dev.event]
@[simp] theorem Dev.event_ctr_freezeAt (d : Dev) (isl tag kind obj time a b : Nat) : (d.event isl tag kind obj time a b).ctr.freezeAt = d.ctr.freezeAt := by simp [Dev.event]
@[simp] theorem Dev.event_ctr_releaseAt (d : Dev) (isl tag kind obj time a b : Nat) : (d.event isl tag kind obj time a b).ctr.releaseAt = d.ctr.releaseAt := by simp [Dev.event]
@[simp] theorem Dev.event_ctr_banks (d : Dev) (isl tag kind obj time a b : Nat) : (d.event isl tag kind obj time a b).ctr.banks = d.ctr.banks := by simp [Dev.event]
@[simp] theorem Dev.event_ctr_snapAt (d : Dev) (isl tag kind obj time a b : Nat) : (d.event isl tag kind obj time a b).ctr.snapAt = d.ctr.snapAt := by simp [Dev.event]
@[simp] theorem Dev.event_ctr_skipRaised (d : Dev) (isl tag kind obj time a b : Nat) : (d.event isl tag kind obj time a b).ctr.skipRaised = d.ctr.skipRaised := by simp [Dev.event]
@[simp] theorem Dev.event_ctr_samplers (d : Dev) (isl tag kind obj time a b : Nat) : (d.event isl tag kind obj time a b).ctr.samplers = d.ctr.samplers := by simp [Dev.event]
@[simp] theorem Dev.event_ctr_slots (d : Dev) (isl tag kind obj time a b : Nat) : (d.event isl tag kind obj time a b).ctr.slots = d.ctr.slots := by simp [Dev.event]
@[simp] theorem Dev.event_ctr_periodAt (d : Dev) (isl tag kind obj time a b : Nat) : (d.event isl tag kind obj time a b).ctr.periodAt = d.ctr.periodAt := by simp [Dev.event]
@[simp] theorem Dev.event_out_happenings (d : Dev) (isl tag kind obj time a b : Nat) : (d.event isl tag kind obj time a b).out.happenings = d.out.happenings := by simp [Dev.event]
@[simp] theorem Dev.event_out_gaps (d : Dev) (isl tag kind obj time a b : Nat) : (d.event isl tag kind obj time a b).out.gaps = d.out.gaps := by simp [Dev.event]

/-! ### Parts that `happen` leaves within what it changes -/

@[simp] theorem Dev.happen_out_outbox (d : Dev) (h : Happening) : (d.happen h).out.outbox = d.out.outbox := rfl
@[simp] theorem Dev.happen_out_events (d : Dev) (h : Happening) : (d.happen h).out.events = d.out.events := rfl
@[simp] theorem Dev.happen_out_gaps (d : Dev) (h : Happening) : (d.happen h).out.gaps = d.out.gaps := rfl
@[simp] theorem Dev.happen_out_seqs (d : Dev) (h : Happening) : (d.happen h).out.seqs = d.out.seqs := rfl
@[simp] theorem Dev.happen_out_arrived (d : Dev) (h : Happening) : (d.happen h).out.arrived = d.out.arrived := rfl

/-! ### Parts that `gap` leaves within what it changes -/

@[simp] theorem Dev.gap_out_outbox (d : Dev) (g : Gap) : (d.gap g).out.outbox = d.out.outbox := rfl
@[simp] theorem Dev.gap_out_events (d : Dev) (g : Gap) : (d.gap g).out.events = d.out.events := rfl
@[simp] theorem Dev.gap_out_happenings (d : Dev) (g : Gap) : (d.gap g).out.happenings = d.out.happenings := rfl
@[simp] theorem Dev.gap_out_seqs (d : Dev) (g : Gap) : (d.gap g).out.seqs = d.out.seqs := rfl
@[simp] theorem Dev.gap_out_arrived (d : Dev) (g : Gap) : (d.gap g).out.arrived = d.out.arrived := rfl

/-! ### Parts that `queueEmergency` leaves within what it changes -/

@[simp] theorem Dev.queueEmergency_sup_running (d : Dev) (c : Emergency) : (d.queueEmergency c).sup.running = d.sup.running := by unfold Dev.queueEmergency; split <;> simp
@[simp] theorem Dev.queueEmergency_sup_restarting (d : Dev) (c : Emergency) : (d.queueEmergency c).sup.restarting = d.sup.restarting := by unfold Dev.queueEmergency; split <;> simp
@[simp] theorem Dev.queueEmergency_sup_al (d : Dev) (c : Emergency) : (d.queueEmergency c).sup.al = d.sup.al := by unfold Dev.queueEmergency; split <;> simp
@[simp] theorem Dev.queueEmergency_sup_alStatus (d : Dev) (c : Emergency) : (d.queueEmergency c).sup.alStatus = d.sup.alStatus := by unfold Dev.queueEmergency; split <;> simp
@[simp] theorem Dev.queueEmergency_sup_alError (d : Dev) (c : Emergency) : (d.queueEmergency c).sup.alError = d.sup.alError := by unfold Dev.queueEmergency; split <;> simp
@[simp] theorem Dev.queueEmergency_sup_queued (d : Dev) (c : Emergency) : (d.queueEmergency c).sup.queued = d.sup.queued := by unfold Dev.queueEmergency; split <;> simp
@[simp] theorem Dev.queueEmergency_sup_queueLost (d : Dev) (c : Emergency) : (d.queueEmergency c).sup.queueLost = d.sup.queueLost := by unfold Dev.queueEmergency; split <;> simp
@[simp] theorem Dev.queueEmergency_sup_rejected (d : Dev) (c : Emergency) : (d.queueEmergency c).sup.rejected = d.sup.rejected := by unfold Dev.queueEmergency; split <;> simp
@[simp] theorem Dev.queueEmergency_sup_latch (d : Dev) (c : Emergency) : (d.queueEmergency c).sup.latch = d.sup.latch := by unfold Dev.queueEmergency; split <;> simp
@[simp] theorem Dev.queueEmergency_sup_lowHalf (d : Dev) (c : Emergency) : (d.queueEmergency c).sup.lowHalf = d.sup.lowHalf := by unfold Dev.queueEmergency; split <;> simp
@[simp] theorem Dev.queueEmergency_sup_bulk (d : Dev) (c : Emergency) : (d.queueEmergency c).sup.bulk = d.sup.bulk := by unfold Dev.queueEmergency; split <;> simp
@[simp] theorem Dev.queueEmergency_sup_bulkRead (d : Dev) (c : Emergency) : (d.queueEmergency c).sup.bulkRead = d.sup.bulkRead := by unfold Dev.queueEmergency; split <;> simp
@[simp] theorem Dev.queueEmergency_sup_sent (d : Dev) (c : Emergency) : (d.queueEmergency c).sup.sent = d.sup.sent := by unfold Dev.queueEmergency; split <;> simp
@[simp] theorem Dev.queueEmergency_sup_lastSent (d : Dev) (c : Emergency) : (d.queueEmergency c).sup.lastSent = d.sup.lastSent := by unfold Dev.queueEmergency; split <;> simp
@[simp] theorem Dev.queueEmergency_sup_errSince (d : Dev) (c : Emergency) : (d.queueEmergency c).sup.errSince = d.sup.errSince := by unfold Dev.queueEmergency; split <;> simp
@[simp] theorem Dev.queueEmergency_sup_rxLast (d : Dev) (c : Emergency) : (d.queueEmergency c).sup.rxLast = d.sup.rxLast := by unfold Dev.queueEmergency; split <;> simp
@[simp] theorem Dev.queueEmergency_sup_rxAt (d : Dev) (c : Emergency) : (d.queueEmergency c).sup.rxAt = d.sup.rxAt := by unfold Dev.queueEmergency; split <;> simp
@[simp] theorem Dev.queueEmergency_sup_rxMap (d : Dev) (c : Emergency) : (d.queueEmergency c).sup.rxMap = d.sup.rxMap := by unfold Dev.queueEmergency; split <;> simp
@[simp] theorem Dev.queueEmergency_sup_txMap (d : Dev) (c : Emergency) : (d.queueEmergency c).sup.txMap = d.sup.txMap := by unfold Dev.queueEmergency; split <;> simp
@[simp] theorem Dev.queueEmergency_sup_cycle (d : Dev) (c : Emergency) : (d.queueEmergency c).sup.cycle = d.sup.cycle := by unfold Dev.queueEmergency; split <;> simp
@[simp] theorem Dev.queueEmergency_sup_txImage (d : Dev) (c : Emergency) : (d.queueEmergency c).sup.txImage = d.sup.txImage := by unfold Dev.queueEmergency; split <;> simp
@[simp] theorem Dev.queueEmergency_sup_commitFrom (d : Dev) (c : Emergency) : (d.queueEmergency c).sup.commitFrom = d.sup.commitFrom := by unfold Dev.queueEmergency; split <;> simp
@[simp] theorem Dev.queueEmergency_sup_dropped (d : Dev) (c : Emergency) : (d.queueEmergency c).sup.dropped = d.sup.dropped := by unfold Dev.queueEmergency; split <;> simp
@[simp] theorem Dev.queueEmergency_sup_answers (d : Dev) (c : Emergency) : (d.queueEmergency c).sup.answers = d.sup.answers := by unfold Dev.queueEmergency; split <;> simp
@[simp] theorem Dev.queueEmergency_ctr_counts (d : Dev) (c : Emergency) : (d.queueEmergency c).ctr.counts = d.ctr.counts := by unfold Dev.queueEmergency; split <;> simp
@[simp] theorem Dev.queueEmergency_ctr_clocks (d : Dev) (c : Emergency) : (d.queueEmergency c).ctr.clocks = d.ctr.clocks := by unfold Dev.queueEmergency; split <;> simp
@[simp] theorem Dev.queueEmergency_ctr_acked (d : Dev) (c : Emergency) : (d.queueEmergency c).ctr.acked = d.ctr.acked := by unfold Dev.queueEmergency; split <;> simp
@[simp] theorem Dev.queueEmergency_ctr_frozen (d : Dev) (c : Emergency) : (d.queueEmergency c).ctr.frozen = d.ctr.frozen := by unfold Dev.queueEmergency; split <;> simp
@[simp] theorem Dev.queueEmergency_ctr_freezeAt (d : Dev) (c : Emergency) : (d.queueEmergency c).ctr.freezeAt = d.ctr.freezeAt := by unfold Dev.queueEmergency; split <;> simp
@[simp] theorem Dev.queueEmergency_ctr_releaseAt (d : Dev) (c : Emergency) : (d.queueEmergency c).ctr.releaseAt = d.ctr.releaseAt := by unfold Dev.queueEmergency; split <;> simp
@[simp] theorem Dev.queueEmergency_ctr_banks (d : Dev) (c : Emergency) : (d.queueEmergency c).ctr.banks = d.ctr.banks := by unfold Dev.queueEmergency; split <;> simp
@[simp] theorem Dev.queueEmergency_ctr_snapAt (d : Dev) (c : Emergency) : (d.queueEmergency c).ctr.snapAt = d.ctr.snapAt := by unfold Dev.queueEmergency; split <;> simp
@[simp] theorem Dev.queueEmergency_ctr_skipRaised (d : Dev) (c : Emergency) : (d.queueEmergency c).ctr.skipRaised = d.ctr.skipRaised := by unfold Dev.queueEmergency; split <;> simp
@[simp] theorem Dev.queueEmergency_ctr_samplers (d : Dev) (c : Emergency) : (d.queueEmergency c).ctr.samplers = d.ctr.samplers := by unfold Dev.queueEmergency; split <;> simp
@[simp] theorem Dev.queueEmergency_ctr_slots (d : Dev) (c : Emergency) : (d.queueEmergency c).ctr.slots = d.ctr.slots := by unfold Dev.queueEmergency; split <;> simp
@[simp] theorem Dev.queueEmergency_ctr_periodAt (d : Dev) (c : Emergency) : (d.queueEmergency c).ctr.periodAt = d.ctr.periodAt := by unfold Dev.queueEmergency; split <;> simp

/-! ### Parts that `setErrorBit` leaves within what it changes -/

@[simp] theorem Dev.setErrorBit_sup_running (d : Dev) (c : Nat) : (d.setErrorBit c).sup.running = d.sup.running := by unfold Dev.setErrorBit; split <;> simp
@[simp] theorem Dev.setErrorBit_sup_restarting (d : Dev) (c : Nat) : (d.setErrorBit c).sup.restarting = d.sup.restarting := by unfold Dev.setErrorBit; split <;> simp
@[simp] theorem Dev.setErrorBit_sup_al (d : Dev) (c : Nat) : (d.setErrorBit c).sup.al = d.sup.al := by unfold Dev.setErrorBit; split <;> simp
@[simp] theorem Dev.setErrorBit_sup_alStatus (d : Dev) (c : Nat) : (d.setErrorBit c).sup.alStatus = d.sup.alStatus := by unfold Dev.setErrorBit; split <;> simp
@[simp] theorem Dev.setErrorBit_sup_alError (d : Dev) (c : Nat) : (d.setErrorBit c).sup.alError = d.sup.alError := by unfold Dev.setErrorBit; split <;> simp
@[simp] theorem Dev.setErrorBit_sup_queued (d : Dev) (c : Nat) : (d.setErrorBit c).sup.queued = d.sup.queued := by unfold Dev.setErrorBit; split <;> simp
@[simp] theorem Dev.setErrorBit_sup_queueLost (d : Dev) (c : Nat) : (d.setErrorBit c).sup.queueLost = d.sup.queueLost := by unfold Dev.setErrorBit; split <;> simp
@[simp] theorem Dev.setErrorBit_sup_rejected (d : Dev) (c : Nat) : (d.setErrorBit c).sup.rejected = d.sup.rejected := by unfold Dev.setErrorBit; split <;> simp
@[simp] theorem Dev.setErrorBit_sup_latch (d : Dev) (c : Nat) : (d.setErrorBit c).sup.latch = d.sup.latch := by unfold Dev.setErrorBit; split <;> simp
@[simp] theorem Dev.setErrorBit_sup_lowHalf (d : Dev) (c : Nat) : (d.setErrorBit c).sup.lowHalf = d.sup.lowHalf := by unfold Dev.setErrorBit; split <;> simp
@[simp] theorem Dev.setErrorBit_sup_bulk (d : Dev) (c : Nat) : (d.setErrorBit c).sup.bulk = d.sup.bulk := by unfold Dev.setErrorBit; split <;> simp
@[simp] theorem Dev.setErrorBit_sup_bulkRead (d : Dev) (c : Nat) : (d.setErrorBit c).sup.bulkRead = d.sup.bulkRead := by unfold Dev.setErrorBit; split <;> simp
@[simp] theorem Dev.setErrorBit_sup_emergencies (d : Dev) (c : Nat) : (d.setErrorBit c).sup.emergencies = d.sup.emergencies := by unfold Dev.setErrorBit; split <;> simp
@[simp] theorem Dev.setErrorBit_sup_sent (d : Dev) (c : Nat) : (d.setErrorBit c).sup.sent = d.sup.sent := by unfold Dev.setErrorBit; split <;> simp
@[simp] theorem Dev.setErrorBit_sup_lastSent (d : Dev) (c : Nat) : (d.setErrorBit c).sup.lastSent = d.sup.lastSent := by unfold Dev.setErrorBit; split <;> simp
@[simp] theorem Dev.setErrorBit_sup_rxLast (d : Dev) (c : Nat) : (d.setErrorBit c).sup.rxLast = d.sup.rxLast := by unfold Dev.setErrorBit; split <;> simp
@[simp] theorem Dev.setErrorBit_sup_rxAt (d : Dev) (c : Nat) : (d.setErrorBit c).sup.rxAt = d.sup.rxAt := by unfold Dev.setErrorBit; split <;> simp
@[simp] theorem Dev.setErrorBit_sup_rxMap (d : Dev) (c : Nat) : (d.setErrorBit c).sup.rxMap = d.sup.rxMap := by unfold Dev.setErrorBit; split <;> simp
@[simp] theorem Dev.setErrorBit_sup_txMap (d : Dev) (c : Nat) : (d.setErrorBit c).sup.txMap = d.sup.txMap := by unfold Dev.setErrorBit; split <;> simp
@[simp] theorem Dev.setErrorBit_sup_cycle (d : Dev) (c : Nat) : (d.setErrorBit c).sup.cycle = d.sup.cycle := by unfold Dev.setErrorBit; split <;> simp
@[simp] theorem Dev.setErrorBit_sup_txImage (d : Dev) (c : Nat) : (d.setErrorBit c).sup.txImage = d.sup.txImage := by unfold Dev.setErrorBit; split <;> simp
@[simp] theorem Dev.setErrorBit_sup_commitFrom (d : Dev) (c : Nat) : (d.setErrorBit c).sup.commitFrom = d.sup.commitFrom := by unfold Dev.setErrorBit; split <;> simp
@[simp] theorem Dev.setErrorBit_sup_dropped (d : Dev) (c : Nat) : (d.setErrorBit c).sup.dropped = d.sup.dropped := by unfold Dev.setErrorBit; split <;> simp
@[simp] theorem Dev.setErrorBit_sup_answers (d : Dev) (c : Nat) : (d.setErrorBit c).sup.answers = d.sup.answers := by unfold Dev.setErrorBit; split <;> simp

/-! ### Parts that `placeCode` leaves within what it changes -/

@[simp] theorem Dev.placeCode_ctr_counts (d : Dev) (path c : Nat) : (d.placeCode path c).ctr.counts = d.ctr.counts := by simp [Dev.placeCode]
@[simp] theorem Dev.placeCode_ctr_clocks (d : Dev) (path c : Nat) : (d.placeCode path c).ctr.clocks = d.ctr.clocks := by simp [Dev.placeCode]
@[simp] theorem Dev.placeCode_ctr_acked (d : Dev) (path c : Nat) : (d.placeCode path c).ctr.acked = d.ctr.acked := by simp [Dev.placeCode]
@[simp] theorem Dev.placeCode_ctr_frozen (d : Dev) (path c : Nat) : (d.placeCode path c).ctr.frozen = d.ctr.frozen := by simp [Dev.placeCode]
@[simp] theorem Dev.placeCode_ctr_freezeAt (d : Dev) (path c : Nat) : (d.placeCode path c).ctr.freezeAt = d.ctr.freezeAt := by simp [Dev.placeCode]
@[simp] theorem Dev.placeCode_ctr_releaseAt (d : Dev) (path c : Nat) : (d.placeCode path c).ctr.releaseAt = d.ctr.releaseAt := by simp [Dev.placeCode]
@[simp] theorem Dev.placeCode_ctr_banks (d : Dev) (path c : Nat) : (d.placeCode path c).ctr.banks = d.ctr.banks := by simp [Dev.placeCode]
@[simp] theorem Dev.placeCode_ctr_snapAt (d : Dev) (path c : Nat) : (d.placeCode path c).ctr.snapAt = d.ctr.snapAt := by simp [Dev.placeCode]
@[simp] theorem Dev.placeCode_ctr_skipRaised (d : Dev) (path c : Nat) : (d.placeCode path c).ctr.skipRaised = d.ctr.skipRaised := by simp [Dev.placeCode]
@[simp] theorem Dev.placeCode_ctr_samplers (d : Dev) (path c : Nat) : (d.placeCode path c).ctr.samplers = d.ctr.samplers := by simp [Dev.placeCode]
@[simp] theorem Dev.placeCode_ctr_slots (d : Dev) (path c : Nat) : (d.placeCode path c).ctr.slots = d.ctr.slots := by simp [Dev.placeCode]
@[simp] theorem Dev.placeCode_ctr_periodAt (d : Dev) (path c : Nat) : (d.placeCode path c).ctr.periodAt = d.ctr.periodAt := by simp [Dev.placeCode]

/-! ### Parts that `logEntry` leaves within what it changes -/

@[simp] theorem Dev.logEntry_flt_repoint (d : Dev) (c time isl inst cls value i : Nat) : (d.logEntry c time isl inst cls value i).flt.repoint = d.flt.repoint := by simp [Dev.logEntry]
@[simp] theorem Dev.logEntry_flt_standbyFailed (d : Dev) (c time isl inst cls value i : Nat) : (d.logEntry c time isl inst cls value i).flt.standbyFailed = d.flt.standbyFailed := by simp [Dev.logEntry]
@[simp] theorem Dev.logEntry_flt_trial (d : Dev) (c time isl inst cls value i : Nat) : (d.logEntry c time isl inst cls value i).flt.trial = d.flt.trial := by simp [Dev.logEntry]
@[simp] theorem Dev.logEntry_flt_previous (d : Dev) (c time isl inst cls value i : Nat) : (d.logEntry c time isl inst cls value i).flt.previous = d.flt.previous := by simp [Dev.logEntry]
@[simp] theorem Dev.logEntry_flt_round (d : Dev) (c time isl inst cls value i : Nat) : (d.logEntry c time isl inst cls value i).flt.round = d.flt.round := by simp [Dev.logEntry]
@[simp] theorem Dev.logEntry_flt_roundDone (d : Dev) (c time isl inst cls value i : Nat) : (d.logEntry c time isl inst cls value i).flt.roundDone = d.flt.roundDone := by simp [Dev.logEntry]
@[simp] theorem Dev.logEntry_flt_drains (d : Dev) (c time isl inst cls value i : Nat) : (d.logEntry c time isl inst cls value i).flt.drains = d.flt.drains := by simp [Dev.logEntry]
@[simp] theorem Dev.logEntry_flt_selfTests (d : Dev) (c time isl inst cls value i : Nat) : (d.logEntry c time isl inst cls value i).flt.selfTests = d.flt.selfTests := by simp [Dev.logEntry]
@[simp] theorem Dev.logEntry_ctr_counts (d : Dev) (c time isl inst cls value i : Nat) : (d.logEntry c time isl inst cls value i).ctr.counts = d.ctr.counts := by simp [Dev.logEntry]
@[simp] theorem Dev.logEntry_ctr_clocks (d : Dev) (c time isl inst cls value i : Nat) : (d.logEntry c time isl inst cls value i).ctr.clocks = d.ctr.clocks := by simp [Dev.logEntry]
@[simp] theorem Dev.logEntry_ctr_acked (d : Dev) (c time isl inst cls value i : Nat) : (d.logEntry c time isl inst cls value i).ctr.acked = d.ctr.acked := by simp [Dev.logEntry]
@[simp] theorem Dev.logEntry_ctr_frozen (d : Dev) (c time isl inst cls value i : Nat) : (d.logEntry c time isl inst cls value i).ctr.frozen = d.ctr.frozen := by simp [Dev.logEntry]
@[simp] theorem Dev.logEntry_ctr_freezeAt (d : Dev) (c time isl inst cls value i : Nat) : (d.logEntry c time isl inst cls value i).ctr.freezeAt = d.ctr.freezeAt := by simp [Dev.logEntry]
@[simp] theorem Dev.logEntry_ctr_releaseAt (d : Dev) (c time isl inst cls value i : Nat) : (d.logEntry c time isl inst cls value i).ctr.releaseAt = d.ctr.releaseAt := by simp [Dev.logEntry]
@[simp] theorem Dev.logEntry_ctr_banks (d : Dev) (c time isl inst cls value i : Nat) : (d.logEntry c time isl inst cls value i).ctr.banks = d.ctr.banks := by simp [Dev.logEntry]
@[simp] theorem Dev.logEntry_ctr_snapAt (d : Dev) (c time isl inst cls value i : Nat) : (d.logEntry c time isl inst cls value i).ctr.snapAt = d.ctr.snapAt := by simp [Dev.logEntry]
@[simp] theorem Dev.logEntry_ctr_skipRaised (d : Dev) (c time isl inst cls value i : Nat) : (d.logEntry c time isl inst cls value i).ctr.skipRaised = d.ctr.skipRaised := by simp [Dev.logEntry]
@[simp] theorem Dev.logEntry_ctr_samplers (d : Dev) (c time isl inst cls value i : Nat) : (d.logEntry c time isl inst cls value i).ctr.samplers = d.ctr.samplers := by simp [Dev.logEntry]
@[simp] theorem Dev.logEntry_ctr_slots (d : Dev) (c time isl inst cls value i : Nat) : (d.logEntry c time isl inst cls value i).ctr.slots = d.ctr.slots := by simp [Dev.logEntry]
@[simp] theorem Dev.logEntry_ctr_periodAt (d : Dev) (c time isl inst cls value i : Nat) : (d.logEntry c time isl inst cls value i).ctr.periodAt = d.ctr.periodAt := by simp [Dev.logEntry]

/-! ### Parts that `raiseBase` leaves within what it changes -/

@[simp] theorem Dev.raiseBase_sup_running (d : Dev) (path c : Nat) : (d.raiseBase path c).sup.running = d.sup.running := by simp only [Dev.raiseBase]; split <;> split <;> simp
@[simp] theorem Dev.raiseBase_sup_restarting (d : Dev) (path c : Nat) : (d.raiseBase path c).sup.restarting = d.sup.restarting := by simp only [Dev.raiseBase]; split <;> split <;> simp
@[simp] theorem Dev.raiseBase_sup_al (d : Dev) (path c : Nat) : (d.raiseBase path c).sup.al = d.sup.al := by simp only [Dev.raiseBase]; split <;> split <;> simp
@[simp] theorem Dev.raiseBase_sup_alStatus (d : Dev) (path c : Nat) : (d.raiseBase path c).sup.alStatus = d.sup.alStatus := by simp only [Dev.raiseBase]; split <;> split <;> simp
@[simp] theorem Dev.raiseBase_sup_alError (d : Dev) (path c : Nat) : (d.raiseBase path c).sup.alError = d.sup.alError := by simp only [Dev.raiseBase]; split <;> split <;> simp
@[simp] theorem Dev.raiseBase_sup_queued (d : Dev) (path c : Nat) : (d.raiseBase path c).sup.queued = d.sup.queued := by simp only [Dev.raiseBase]; split <;> split <;> simp
@[simp] theorem Dev.raiseBase_sup_queueLost (d : Dev) (path c : Nat) : (d.raiseBase path c).sup.queueLost = d.sup.queueLost := by simp only [Dev.raiseBase]; split <;> split <;> simp
@[simp] theorem Dev.raiseBase_sup_rejected (d : Dev) (path c : Nat) : (d.raiseBase path c).sup.rejected = d.sup.rejected := by simp only [Dev.raiseBase]; split <;> split <;> simp
@[simp] theorem Dev.raiseBase_sup_latch (d : Dev) (path c : Nat) : (d.raiseBase path c).sup.latch = d.sup.latch := by simp only [Dev.raiseBase]; split <;> split <;> simp
@[simp] theorem Dev.raiseBase_sup_lowHalf (d : Dev) (path c : Nat) : (d.raiseBase path c).sup.lowHalf = d.sup.lowHalf := by simp only [Dev.raiseBase]; split <;> split <;> simp
@[simp] theorem Dev.raiseBase_sup_bulk (d : Dev) (path c : Nat) : (d.raiseBase path c).sup.bulk = d.sup.bulk := by simp only [Dev.raiseBase]; split <;> split <;> simp
@[simp] theorem Dev.raiseBase_sup_bulkRead (d : Dev) (path c : Nat) : (d.raiseBase path c).sup.bulkRead = d.sup.bulkRead := by simp only [Dev.raiseBase]; split <;> split <;> simp
@[simp] theorem Dev.raiseBase_sup_sent (d : Dev) (path c : Nat) : (d.raiseBase path c).sup.sent = d.sup.sent := by simp only [Dev.raiseBase]; split <;> split <;> simp
@[simp] theorem Dev.raiseBase_sup_lastSent (d : Dev) (path c : Nat) : (d.raiseBase path c).sup.lastSent = d.sup.lastSent := by simp only [Dev.raiseBase]; split <;> split <;> simp
@[simp] theorem Dev.raiseBase_sup_rxLast (d : Dev) (path c : Nat) : (d.raiseBase path c).sup.rxLast = d.sup.rxLast := by simp only [Dev.raiseBase]; split <;> split <;> simp
@[simp] theorem Dev.raiseBase_sup_rxAt (d : Dev) (path c : Nat) : (d.raiseBase path c).sup.rxAt = d.sup.rxAt := by simp only [Dev.raiseBase]; split <;> split <;> simp
@[simp] theorem Dev.raiseBase_sup_rxMap (d : Dev) (path c : Nat) : (d.raiseBase path c).sup.rxMap = d.sup.rxMap := by simp only [Dev.raiseBase]; split <;> split <;> simp
@[simp] theorem Dev.raiseBase_sup_txMap (d : Dev) (path c : Nat) : (d.raiseBase path c).sup.txMap = d.sup.txMap := by simp only [Dev.raiseBase]; split <;> split <;> simp
@[simp] theorem Dev.raiseBase_sup_cycle (d : Dev) (path c : Nat) : (d.raiseBase path c).sup.cycle = d.sup.cycle := by simp only [Dev.raiseBase]; split <;> split <;> simp
@[simp] theorem Dev.raiseBase_sup_txImage (d : Dev) (path c : Nat) : (d.raiseBase path c).sup.txImage = d.sup.txImage := by simp only [Dev.raiseBase]; split <;> split <;> simp
@[simp] theorem Dev.raiseBase_sup_commitFrom (d : Dev) (path c : Nat) : (d.raiseBase path c).sup.commitFrom = d.sup.commitFrom := by simp only [Dev.raiseBase]; split <;> split <;> simp
@[simp] theorem Dev.raiseBase_sup_dropped (d : Dev) (path c : Nat) : (d.raiseBase path c).sup.dropped = d.sup.dropped := by simp only [Dev.raiseBase]; split <;> split <;> simp
@[simp] theorem Dev.raiseBase_sup_answers (d : Dev) (path c : Nat) : (d.raiseBase path c).sup.answers = d.sup.answers := by simp only [Dev.raiseBase]; split <;> split <;> simp
@[simp] theorem Dev.raiseBase_ctr_counts (d : Dev) (path c : Nat) : (d.raiseBase path c).ctr.counts = d.ctr.counts := by simp only [Dev.raiseBase]; split <;> split <;> simp
@[simp] theorem Dev.raiseBase_ctr_clocks (d : Dev) (path c : Nat) : (d.raiseBase path c).ctr.clocks = d.ctr.clocks := by simp only [Dev.raiseBase]; split <;> split <;> simp
@[simp] theorem Dev.raiseBase_ctr_acked (d : Dev) (path c : Nat) : (d.raiseBase path c).ctr.acked = d.ctr.acked := by simp only [Dev.raiseBase]; split <;> split <;> simp
@[simp] theorem Dev.raiseBase_ctr_frozen (d : Dev) (path c : Nat) : (d.raiseBase path c).ctr.frozen = d.ctr.frozen := by simp only [Dev.raiseBase]; split <;> split <;> simp
@[simp] theorem Dev.raiseBase_ctr_freezeAt (d : Dev) (path c : Nat) : (d.raiseBase path c).ctr.freezeAt = d.ctr.freezeAt := by simp only [Dev.raiseBase]; split <;> split <;> simp
@[simp] theorem Dev.raiseBase_ctr_releaseAt (d : Dev) (path c : Nat) : (d.raiseBase path c).ctr.releaseAt = d.ctr.releaseAt := by simp only [Dev.raiseBase]; split <;> split <;> simp
@[simp] theorem Dev.raiseBase_ctr_banks (d : Dev) (path c : Nat) : (d.raiseBase path c).ctr.banks = d.ctr.banks := by simp only [Dev.raiseBase]; split <;> split <;> simp
@[simp] theorem Dev.raiseBase_ctr_snapAt (d : Dev) (path c : Nat) : (d.raiseBase path c).ctr.snapAt = d.ctr.snapAt := by simp only [Dev.raiseBase]; split <;> split <;> simp
@[simp] theorem Dev.raiseBase_ctr_skipRaised (d : Dev) (path c : Nat) : (d.raiseBase path c).ctr.skipRaised = d.ctr.skipRaised := by simp only [Dev.raiseBase]; split <;> split <;> simp
@[simp] theorem Dev.raiseBase_ctr_samplers (d : Dev) (path c : Nat) : (d.raiseBase path c).ctr.samplers = d.ctr.samplers := by simp only [Dev.raiseBase]; split <;> split <;> simp
@[simp] theorem Dev.raiseBase_ctr_slots (d : Dev) (path c : Nat) : (d.raiseBase path c).ctr.slots = d.ctr.slots := by simp only [Dev.raiseBase]; split <;> split <;> simp
@[simp] theorem Dev.raiseBase_ctr_periodAt (d : Dev) (path c : Nat) : (d.raiseBase path c).ctr.periodAt = d.ctr.periodAt := by simp only [Dev.raiseBase]; split <;> split <;> simp

/-! ### Parts that `raise` leaves within what it changes -/

@[simp] theorem Dev.raise_sup_running (d : Dev) (path c : Nat) : (d.raise path c).sup.running = d.sup.running := by simp only [Dev.raise]; split <;> simp
@[simp] theorem Dev.raise_sup_restarting (d : Dev) (path c : Nat) : (d.raise path c).sup.restarting = d.sup.restarting := by simp only [Dev.raise]; split <;> simp
@[simp] theorem Dev.raise_sup_al (d : Dev) (path c : Nat) : (d.raise path c).sup.al = d.sup.al := by simp only [Dev.raise]; split <;> simp
@[simp] theorem Dev.raise_sup_alStatus (d : Dev) (path c : Nat) : (d.raise path c).sup.alStatus = d.sup.alStatus := by simp only [Dev.raise]; split <;> simp
@[simp] theorem Dev.raise_sup_alError (d : Dev) (path c : Nat) : (d.raise path c).sup.alError = d.sup.alError := by simp only [Dev.raise]; split <;> simp
@[simp] theorem Dev.raise_sup_queued (d : Dev) (path c : Nat) : (d.raise path c).sup.queued = d.sup.queued := by simp only [Dev.raise]; split <;> simp
@[simp] theorem Dev.raise_sup_queueLost (d : Dev) (path c : Nat) : (d.raise path c).sup.queueLost = d.sup.queueLost := by simp only [Dev.raise]; split <;> simp
@[simp] theorem Dev.raise_sup_rejected (d : Dev) (path c : Nat) : (d.raise path c).sup.rejected = d.sup.rejected := by simp only [Dev.raise]; split <;> simp
@[simp] theorem Dev.raise_sup_latch (d : Dev) (path c : Nat) : (d.raise path c).sup.latch = d.sup.latch := by simp only [Dev.raise]; split <;> simp
@[simp] theorem Dev.raise_sup_lowHalf (d : Dev) (path c : Nat) : (d.raise path c).sup.lowHalf = d.sup.lowHalf := by simp only [Dev.raise]; split <;> simp
@[simp] theorem Dev.raise_sup_bulk (d : Dev) (path c : Nat) : (d.raise path c).sup.bulk = d.sup.bulk := by simp only [Dev.raise]; split <;> simp
@[simp] theorem Dev.raise_sup_bulkRead (d : Dev) (path c : Nat) : (d.raise path c).sup.bulkRead = d.sup.bulkRead := by simp only [Dev.raise]; split <;> simp
@[simp] theorem Dev.raise_sup_sent (d : Dev) (path c : Nat) : (d.raise path c).sup.sent = d.sup.sent := by simp only [Dev.raise]; split <;> simp
@[simp] theorem Dev.raise_sup_lastSent (d : Dev) (path c : Nat) : (d.raise path c).sup.lastSent = d.sup.lastSent := by simp only [Dev.raise]; split <;> simp
@[simp] theorem Dev.raise_sup_rxLast (d : Dev) (path c : Nat) : (d.raise path c).sup.rxLast = d.sup.rxLast := by simp only [Dev.raise]; split <;> simp
@[simp] theorem Dev.raise_sup_rxAt (d : Dev) (path c : Nat) : (d.raise path c).sup.rxAt = d.sup.rxAt := by simp only [Dev.raise]; split <;> simp
@[simp] theorem Dev.raise_sup_rxMap (d : Dev) (path c : Nat) : (d.raise path c).sup.rxMap = d.sup.rxMap := by simp only [Dev.raise]; split <;> simp
@[simp] theorem Dev.raise_sup_txMap (d : Dev) (path c : Nat) : (d.raise path c).sup.txMap = d.sup.txMap := by simp only [Dev.raise]; split <;> simp
@[simp] theorem Dev.raise_sup_cycle (d : Dev) (path c : Nat) : (d.raise path c).sup.cycle = d.sup.cycle := by simp only [Dev.raise]; split <;> simp
@[simp] theorem Dev.raise_sup_txImage (d : Dev) (path c : Nat) : (d.raise path c).sup.txImage = d.sup.txImage := by simp only [Dev.raise]; split <;> simp
@[simp] theorem Dev.raise_sup_commitFrom (d : Dev) (path c : Nat) : (d.raise path c).sup.commitFrom = d.sup.commitFrom := by simp only [Dev.raise]; split <;> simp
@[simp] theorem Dev.raise_sup_dropped (d : Dev) (path c : Nat) : (d.raise path c).sup.dropped = d.sup.dropped := by simp only [Dev.raise]; split <;> simp
@[simp] theorem Dev.raise_sup_answers (d : Dev) (path c : Nat) : (d.raise path c).sup.answers = d.sup.answers := by simp only [Dev.raise]; split <;> simp
@[simp] theorem Dev.raise_flt_repoint (d : Dev) (path c : Nat) : (d.raise path c).flt.repoint = d.flt.repoint := by simp only [Dev.raise]; split <;> simp
@[simp] theorem Dev.raise_flt_standbyFailed (d : Dev) (path c : Nat) : (d.raise path c).flt.standbyFailed = d.flt.standbyFailed := by simp only [Dev.raise]; split <;> simp
@[simp] theorem Dev.raise_flt_trial (d : Dev) (path c : Nat) : (d.raise path c).flt.trial = d.flt.trial := by simp only [Dev.raise]; split <;> simp
@[simp] theorem Dev.raise_flt_previous (d : Dev) (path c : Nat) : (d.raise path c).flt.previous = d.flt.previous := by simp only [Dev.raise]; split <;> simp
@[simp] theorem Dev.raise_flt_round (d : Dev) (path c : Nat) : (d.raise path c).flt.round = d.flt.round := by simp only [Dev.raise]; split <;> simp
@[simp] theorem Dev.raise_flt_roundDone (d : Dev) (path c : Nat) : (d.raise path c).flt.roundDone = d.flt.roundDone := by simp only [Dev.raise]; split <;> simp
@[simp] theorem Dev.raise_flt_drains (d : Dev) (path c : Nat) : (d.raise path c).flt.drains = d.flt.drains := by simp only [Dev.raise]; split <;> simp
@[simp] theorem Dev.raise_flt_selfTests (d : Dev) (path c : Nat) : (d.raise path c).flt.selfTests = d.flt.selfTests := by simp only [Dev.raise]; split <;> simp
@[simp] theorem Dev.raise_ctr_counts (d : Dev) (path c : Nat) : (d.raise path c).ctr.counts = d.ctr.counts := by simp only [Dev.raise]; split <;> simp
@[simp] theorem Dev.raise_ctr_clocks (d : Dev) (path c : Nat) : (d.raise path c).ctr.clocks = d.ctr.clocks := by simp only [Dev.raise]; split <;> simp
@[simp] theorem Dev.raise_ctr_acked (d : Dev) (path c : Nat) : (d.raise path c).ctr.acked = d.ctr.acked := by simp only [Dev.raise]; split <;> simp
@[simp] theorem Dev.raise_ctr_frozen (d : Dev) (path c : Nat) : (d.raise path c).ctr.frozen = d.ctr.frozen := by simp only [Dev.raise]; split <;> simp
@[simp] theorem Dev.raise_ctr_freezeAt (d : Dev) (path c : Nat) : (d.raise path c).ctr.freezeAt = d.ctr.freezeAt := by simp only [Dev.raise]; split <;> simp
@[simp] theorem Dev.raise_ctr_releaseAt (d : Dev) (path c : Nat) : (d.raise path c).ctr.releaseAt = d.ctr.releaseAt := by simp only [Dev.raise]; split <;> simp
@[simp] theorem Dev.raise_ctr_banks (d : Dev) (path c : Nat) : (d.raise path c).ctr.banks = d.ctr.banks := by simp only [Dev.raise]; split <;> simp
@[simp] theorem Dev.raise_ctr_snapAt (d : Dev) (path c : Nat) : (d.raise path c).ctr.snapAt = d.ctr.snapAt := by simp only [Dev.raise]; split <;> simp
@[simp] theorem Dev.raise_ctr_skipRaised (d : Dev) (path c : Nat) : (d.raise path c).ctr.skipRaised = d.ctr.skipRaised := by simp only [Dev.raise]; split <;> simp
@[simp] theorem Dev.raise_ctr_samplers (d : Dev) (path c : Nat) : (d.raise path c).ctr.samplers = d.ctr.samplers := by simp only [Dev.raise]; split <;> simp
@[simp] theorem Dev.raise_ctr_slots (d : Dev) (path c : Nat) : (d.raise path c).ctr.slots = d.ctr.slots := by simp only [Dev.raise]; split <;> simp
@[simp] theorem Dev.raise_ctr_periodAt (d : Dev) (path c : Nat) : (d.raise path c).ctr.periodAt = d.ctr.periodAt := by simp only [Dev.raise]; split <;> simp

/-! ### Parts that `reject` leaves within what it changes -/

@[simp] theorem Dev.reject_sup_running (d : Dev) (path c : Nat) : (d.reject path c).sup.running = d.sup.running := by simp [Dev.reject]
@[simp] theorem Dev.reject_sup_restarting (d : Dev) (path c : Nat) : (d.reject path c).sup.restarting = d.sup.restarting := by simp [Dev.reject]
@[simp] theorem Dev.reject_sup_al (d : Dev) (path c : Nat) : (d.reject path c).sup.al = d.sup.al := by simp [Dev.reject]
@[simp] theorem Dev.reject_sup_alStatus (d : Dev) (path c : Nat) : (d.reject path c).sup.alStatus = d.sup.alStatus := by simp [Dev.reject]
@[simp] theorem Dev.reject_sup_alError (d : Dev) (path c : Nat) : (d.reject path c).sup.alError = d.sup.alError := by simp [Dev.reject]
@[simp] theorem Dev.reject_sup_queued (d : Dev) (path c : Nat) : (d.reject path c).sup.queued = d.sup.queued := by simp [Dev.reject]
@[simp] theorem Dev.reject_sup_queueLost (d : Dev) (path c : Nat) : (d.reject path c).sup.queueLost = d.sup.queueLost := by simp [Dev.reject]
@[simp] theorem Dev.reject_sup_rejected (d : Dev) (path c : Nat) : (d.reject path c).sup.rejected = d.sup.rejected := by simp [Dev.reject]
@[simp] theorem Dev.reject_sup_latch (d : Dev) (path c : Nat) : (d.reject path c).sup.latch = d.sup.latch := by simp [Dev.reject]
@[simp] theorem Dev.reject_sup_lowHalf (d : Dev) (path c : Nat) : (d.reject path c).sup.lowHalf = d.sup.lowHalf := by simp [Dev.reject]
@[simp] theorem Dev.reject_sup_bulk (d : Dev) (path c : Nat) : (d.reject path c).sup.bulk = d.sup.bulk := by simp [Dev.reject]
@[simp] theorem Dev.reject_sup_bulkRead (d : Dev) (path c : Nat) : (d.reject path c).sup.bulkRead = d.sup.bulkRead := by simp [Dev.reject]
@[simp] theorem Dev.reject_sup_sent (d : Dev) (path c : Nat) : (d.reject path c).sup.sent = d.sup.sent := by simp [Dev.reject]
@[simp] theorem Dev.reject_sup_lastSent (d : Dev) (path c : Nat) : (d.reject path c).sup.lastSent = d.sup.lastSent := by simp [Dev.reject]
@[simp] theorem Dev.reject_sup_rxLast (d : Dev) (path c : Nat) : (d.reject path c).sup.rxLast = d.sup.rxLast := by simp [Dev.reject]
@[simp] theorem Dev.reject_sup_rxAt (d : Dev) (path c : Nat) : (d.reject path c).sup.rxAt = d.sup.rxAt := by simp [Dev.reject]
@[simp] theorem Dev.reject_sup_rxMap (d : Dev) (path c : Nat) : (d.reject path c).sup.rxMap = d.sup.rxMap := by simp [Dev.reject]
@[simp] theorem Dev.reject_sup_txMap (d : Dev) (path c : Nat) : (d.reject path c).sup.txMap = d.sup.txMap := by simp [Dev.reject]
@[simp] theorem Dev.reject_sup_cycle (d : Dev) (path c : Nat) : (d.reject path c).sup.cycle = d.sup.cycle := by simp [Dev.reject]
@[simp] theorem Dev.reject_sup_txImage (d : Dev) (path c : Nat) : (d.reject path c).sup.txImage = d.sup.txImage := by simp [Dev.reject]
@[simp] theorem Dev.reject_sup_commitFrom (d : Dev) (path c : Nat) : (d.reject path c).sup.commitFrom = d.sup.commitFrom := by simp [Dev.reject]
@[simp] theorem Dev.reject_sup_dropped (d : Dev) (path c : Nat) : (d.reject path c).sup.dropped = d.sup.dropped := by simp [Dev.reject]
@[simp] theorem Dev.reject_sup_answers (d : Dev) (path c : Nat) : (d.reject path c).sup.answers = d.sup.answers := by simp [Dev.reject]
@[simp] theorem Dev.reject_flt_repoint (d : Dev) (path c : Nat) : (d.reject path c).flt.repoint = d.flt.repoint := by simp [Dev.reject]
@[simp] theorem Dev.reject_flt_standbyFailed (d : Dev) (path c : Nat) : (d.reject path c).flt.standbyFailed = d.flt.standbyFailed := by simp [Dev.reject]
@[simp] theorem Dev.reject_flt_trial (d : Dev) (path c : Nat) : (d.reject path c).flt.trial = d.flt.trial := by simp [Dev.reject]
@[simp] theorem Dev.reject_flt_previous (d : Dev) (path c : Nat) : (d.reject path c).flt.previous = d.flt.previous := by simp [Dev.reject]
@[simp] theorem Dev.reject_flt_round (d : Dev) (path c : Nat) : (d.reject path c).flt.round = d.flt.round := by simp [Dev.reject]
@[simp] theorem Dev.reject_flt_roundDone (d : Dev) (path c : Nat) : (d.reject path c).flt.roundDone = d.flt.roundDone := by simp [Dev.reject]
@[simp] theorem Dev.reject_flt_drains (d : Dev) (path c : Nat) : (d.reject path c).flt.drains = d.flt.drains := by simp [Dev.reject]
@[simp] theorem Dev.reject_flt_selfTests (d : Dev) (path c : Nat) : (d.reject path c).flt.selfTests = d.flt.selfTests := by simp [Dev.reject]
@[simp] theorem Dev.reject_ctr_counts (d : Dev) (path c : Nat) : (d.reject path c).ctr.counts = d.ctr.counts := by simp [Dev.reject]
@[simp] theorem Dev.reject_ctr_clocks (d : Dev) (path c : Nat) : (d.reject path c).ctr.clocks = d.ctr.clocks := by simp [Dev.reject]
@[simp] theorem Dev.reject_ctr_acked (d : Dev) (path c : Nat) : (d.reject path c).ctr.acked = d.ctr.acked := by simp [Dev.reject]
@[simp] theorem Dev.reject_ctr_frozen (d : Dev) (path c : Nat) : (d.reject path c).ctr.frozen = d.ctr.frozen := by simp [Dev.reject]
@[simp] theorem Dev.reject_ctr_freezeAt (d : Dev) (path c : Nat) : (d.reject path c).ctr.freezeAt = d.ctr.freezeAt := by simp [Dev.reject]
@[simp] theorem Dev.reject_ctr_releaseAt (d : Dev) (path c : Nat) : (d.reject path c).ctr.releaseAt = d.ctr.releaseAt := by simp [Dev.reject]
@[simp] theorem Dev.reject_ctr_banks (d : Dev) (path c : Nat) : (d.reject path c).ctr.banks = d.ctr.banks := by simp [Dev.reject]
@[simp] theorem Dev.reject_ctr_snapAt (d : Dev) (path c : Nat) : (d.reject path c).ctr.snapAt = d.ctr.snapAt := by simp [Dev.reject]
@[simp] theorem Dev.reject_ctr_skipRaised (d : Dev) (path c : Nat) : (d.reject path c).ctr.skipRaised = d.ctr.skipRaised := by simp [Dev.reject]
@[simp] theorem Dev.reject_ctr_samplers (d : Dev) (path c : Nat) : (d.reject path c).ctr.samplers = d.ctr.samplers := by simp [Dev.reject]
@[simp] theorem Dev.reject_ctr_slots (d : Dev) (path c : Nat) : (d.reject path c).ctr.slots = d.ctr.slots := by simp [Dev.reject]
@[simp] theorem Dev.reject_ctr_periodAt (d : Dev) (path c : Nat) : (d.reject path c).ctr.periodAt = d.ctr.periodAt := by simp [Dev.reject]

/-! ### Parts that `fault` leaves within what it changes -/

@[simp] theorem Dev.fault_sup_running (d : Dev) (cls c isl inst value i : Nat) : (d.fault cls c isl inst value i).sup.running = d.sup.running := by simp only [Dev.fault, Dev.logEntry_sup]; split <;> split <;> simp
@[simp] theorem Dev.fault_sup_restarting (d : Dev) (cls c isl inst value i : Nat) : (d.fault cls c isl inst value i).sup.restarting = d.sup.restarting := by simp only [Dev.fault, Dev.logEntry_sup]; split <;> split <;> simp
@[simp] theorem Dev.fault_sup_al (d : Dev) (cls c isl inst value i : Nat) : (d.fault cls c isl inst value i).sup.al = d.sup.al := by simp only [Dev.fault, Dev.logEntry_sup]; split <;> split <;> simp
@[simp] theorem Dev.fault_sup_alStatus (d : Dev) (cls c isl inst value i : Nat) : (d.fault cls c isl inst value i).sup.alStatus = d.sup.alStatus := by simp only [Dev.fault, Dev.logEntry_sup]; split <;> split <;> simp
@[simp] theorem Dev.fault_sup_alError (d : Dev) (cls c isl inst value i : Nat) : (d.fault cls c isl inst value i).sup.alError = d.sup.alError := by simp only [Dev.fault, Dev.logEntry_sup]; split <;> split <;> simp
@[simp] theorem Dev.fault_sup_queued (d : Dev) (cls c isl inst value i : Nat) : (d.fault cls c isl inst value i).sup.queued = d.sup.queued := by simp only [Dev.fault, Dev.logEntry_sup]; split <;> split <;> simp
@[simp] theorem Dev.fault_sup_queueLost (d : Dev) (cls c isl inst value i : Nat) : (d.fault cls c isl inst value i).sup.queueLost = d.sup.queueLost := by simp only [Dev.fault, Dev.logEntry_sup]; split <;> split <;> simp
@[simp] theorem Dev.fault_sup_rejected (d : Dev) (cls c isl inst value i : Nat) : (d.fault cls c isl inst value i).sup.rejected = d.sup.rejected := by simp only [Dev.fault, Dev.logEntry_sup]; split <;> split <;> simp
@[simp] theorem Dev.fault_sup_latch (d : Dev) (cls c isl inst value i : Nat) : (d.fault cls c isl inst value i).sup.latch = d.sup.latch := by simp only [Dev.fault, Dev.logEntry_sup]; split <;> split <;> simp
@[simp] theorem Dev.fault_sup_lowHalf (d : Dev) (cls c isl inst value i : Nat) : (d.fault cls c isl inst value i).sup.lowHalf = d.sup.lowHalf := by simp only [Dev.fault, Dev.logEntry_sup]; split <;> split <;> simp
@[simp] theorem Dev.fault_sup_bulk (d : Dev) (cls c isl inst value i : Nat) : (d.fault cls c isl inst value i).sup.bulk = d.sup.bulk := by simp only [Dev.fault, Dev.logEntry_sup]; split <;> split <;> simp
@[simp] theorem Dev.fault_sup_bulkRead (d : Dev) (cls c isl inst value i : Nat) : (d.fault cls c isl inst value i).sup.bulkRead = d.sup.bulkRead := by simp only [Dev.fault, Dev.logEntry_sup]; split <;> split <;> simp
@[simp] theorem Dev.fault_sup_sent (d : Dev) (cls c isl inst value i : Nat) : (d.fault cls c isl inst value i).sup.sent = d.sup.sent := by simp only [Dev.fault, Dev.logEntry_sup]; split <;> split <;> simp
@[simp] theorem Dev.fault_sup_lastSent (d : Dev) (cls c isl inst value i : Nat) : (d.fault cls c isl inst value i).sup.lastSent = d.sup.lastSent := by simp only [Dev.fault, Dev.logEntry_sup]; split <;> split <;> simp
@[simp] theorem Dev.fault_sup_rxLast (d : Dev) (cls c isl inst value i : Nat) : (d.fault cls c isl inst value i).sup.rxLast = d.sup.rxLast := by simp only [Dev.fault, Dev.logEntry_sup]; split <;> split <;> simp
@[simp] theorem Dev.fault_sup_rxAt (d : Dev) (cls c isl inst value i : Nat) : (d.fault cls c isl inst value i).sup.rxAt = d.sup.rxAt := by simp only [Dev.fault, Dev.logEntry_sup]; split <;> split <;> simp
@[simp] theorem Dev.fault_sup_rxMap (d : Dev) (cls c isl inst value i : Nat) : (d.fault cls c isl inst value i).sup.rxMap = d.sup.rxMap := by simp only [Dev.fault, Dev.logEntry_sup]; split <;> split <;> simp
@[simp] theorem Dev.fault_sup_txMap (d : Dev) (cls c isl inst value i : Nat) : (d.fault cls c isl inst value i).sup.txMap = d.sup.txMap := by simp only [Dev.fault, Dev.logEntry_sup]; split <;> split <;> simp
@[simp] theorem Dev.fault_sup_cycle (d : Dev) (cls c isl inst value i : Nat) : (d.fault cls c isl inst value i).sup.cycle = d.sup.cycle := by simp only [Dev.fault, Dev.logEntry_sup]; split <;> split <;> simp
@[simp] theorem Dev.fault_sup_txImage (d : Dev) (cls c isl inst value i : Nat) : (d.fault cls c isl inst value i).sup.txImage = d.sup.txImage := by simp only [Dev.fault, Dev.logEntry_sup]; split <;> split <;> simp
@[simp] theorem Dev.fault_sup_commitFrom (d : Dev) (cls c isl inst value i : Nat) : (d.fault cls c isl inst value i).sup.commitFrom = d.sup.commitFrom := by simp only [Dev.fault, Dev.logEntry_sup]; split <;> split <;> simp
@[simp] theorem Dev.fault_sup_dropped (d : Dev) (cls c isl inst value i : Nat) : (d.fault cls c isl inst value i).sup.dropped = d.sup.dropped := by simp only [Dev.fault, Dev.logEntry_sup]; split <;> split <;> simp
@[simp] theorem Dev.fault_sup_answers (d : Dev) (cls c isl inst value i : Nat) : (d.fault cls c isl inst value i).sup.answers = d.sup.answers := by simp only [Dev.fault, Dev.logEntry_sup]; split <;> split <;> simp
@[simp] theorem Dev.fault_flt_repoint (d : Dev) (cls c isl inst value i : Nat) : (d.fault cls c isl inst value i).flt.repoint = d.flt.repoint := by simp only [Dev.fault, Dev.logEntry_flt_repoint]; split <;> split <;> simp
@[simp] theorem Dev.fault_flt_standbyFailed (d : Dev) (cls c isl inst value i : Nat) : (d.fault cls c isl inst value i).flt.standbyFailed = d.flt.standbyFailed := by simp only [Dev.fault, Dev.logEntry_flt_standbyFailed]; split <;> split <;> simp
@[simp] theorem Dev.fault_flt_trial (d : Dev) (cls c isl inst value i : Nat) : (d.fault cls c isl inst value i).flt.trial = d.flt.trial := by simp only [Dev.fault, Dev.logEntry_flt_trial]; split <;> split <;> simp
@[simp] theorem Dev.fault_flt_previous (d : Dev) (cls c isl inst value i : Nat) : (d.fault cls c isl inst value i).flt.previous = d.flt.previous := by simp only [Dev.fault, Dev.logEntry_flt_previous]; split <;> split <;> simp
@[simp] theorem Dev.fault_flt_round (d : Dev) (cls c isl inst value i : Nat) : (d.fault cls c isl inst value i).flt.round = d.flt.round := by simp only [Dev.fault, Dev.logEntry_flt_round]; split <;> split <;> simp
@[simp] theorem Dev.fault_flt_roundDone (d : Dev) (cls c isl inst value i : Nat) : (d.fault cls c isl inst value i).flt.roundDone = d.flt.roundDone := by simp only [Dev.fault, Dev.logEntry_flt_roundDone]; split <;> split <;> simp
@[simp] theorem Dev.fault_flt_drains (d : Dev) (cls c isl inst value i : Nat) : (d.fault cls c isl inst value i).flt.drains = d.flt.drains := by simp only [Dev.fault, Dev.logEntry_flt_drains]; split <;> split <;> simp
@[simp] theorem Dev.fault_flt_selfTests (d : Dev) (cls c isl inst value i : Nat) : (d.fault cls c isl inst value i).flt.selfTests = d.flt.selfTests := by simp only [Dev.fault, Dev.logEntry_flt_selfTests]; split <;> split <;> simp
@[simp] theorem Dev.fault_ctr_counts (d : Dev) (cls c isl inst value i : Nat) : (d.fault cls c isl inst value i).ctr.counts = d.ctr.counts := by simp only [Dev.fault, Dev.logEntry_ctr_counts]; split <;> split <;> simp
@[simp] theorem Dev.fault_ctr_clocks (d : Dev) (cls c isl inst value i : Nat) : (d.fault cls c isl inst value i).ctr.clocks = d.ctr.clocks := by simp only [Dev.fault, Dev.logEntry_ctr_clocks]; split <;> split <;> simp
@[simp] theorem Dev.fault_ctr_acked (d : Dev) (cls c isl inst value i : Nat) : (d.fault cls c isl inst value i).ctr.acked = d.ctr.acked := by simp only [Dev.fault, Dev.logEntry_ctr_acked]; split <;> split <;> simp
@[simp] theorem Dev.fault_ctr_frozen (d : Dev) (cls c isl inst value i : Nat) : (d.fault cls c isl inst value i).ctr.frozen = d.ctr.frozen := by simp only [Dev.fault, Dev.logEntry_ctr_frozen]; split <;> split <;> simp
@[simp] theorem Dev.fault_ctr_freezeAt (d : Dev) (cls c isl inst value i : Nat) : (d.fault cls c isl inst value i).ctr.freezeAt = d.ctr.freezeAt := by simp only [Dev.fault, Dev.logEntry_ctr_freezeAt]; split <;> split <;> simp
@[simp] theorem Dev.fault_ctr_releaseAt (d : Dev) (cls c isl inst value i : Nat) : (d.fault cls c isl inst value i).ctr.releaseAt = d.ctr.releaseAt := by simp only [Dev.fault, Dev.logEntry_ctr_releaseAt]; split <;> split <;> simp
@[simp] theorem Dev.fault_ctr_banks (d : Dev) (cls c isl inst value i : Nat) : (d.fault cls c isl inst value i).ctr.banks = d.ctr.banks := by simp only [Dev.fault, Dev.logEntry_ctr_banks]; split <;> split <;> simp
@[simp] theorem Dev.fault_ctr_snapAt (d : Dev) (cls c isl inst value i : Nat) : (d.fault cls c isl inst value i).ctr.snapAt = d.ctr.snapAt := by simp only [Dev.fault, Dev.logEntry_ctr_snapAt]; split <;> split <;> simp
@[simp] theorem Dev.fault_ctr_skipRaised (d : Dev) (cls c isl inst value i : Nat) : (d.fault cls c isl inst value i).ctr.skipRaised = d.ctr.skipRaised := by simp only [Dev.fault, Dev.logEntry_ctr_skipRaised]; split <;> split <;> simp
@[simp] theorem Dev.fault_ctr_samplers (d : Dev) (cls c isl inst value i : Nat) : (d.fault cls c isl inst value i).ctr.samplers = d.ctr.samplers := by simp only [Dev.fault, Dev.logEntry_ctr_samplers]; split <;> split <;> simp
@[simp] theorem Dev.fault_ctr_slots (d : Dev) (cls c isl inst value i : Nat) : (d.fault cls c isl inst value i).ctr.slots = d.ctr.slots := by simp only [Dev.fault, Dev.logEntry_ctr_slots]; split <;> split <;> simp
@[simp] theorem Dev.fault_ctr_periodAt (d : Dev) (cls c isl inst value i : Nat) : (d.fault cls c isl inst value i).ctr.periodAt = d.ctr.periodAt := by simp only [Dev.fault, Dev.logEntry_ctr_periodAt]; split <;> split <;> simp

/-! ### Parts that `pwrEvent` leaves within what it changes -/

@[simp] theorem Dev.pwrEvent_ctr_counts (d : Dev) (kind obj a b : Nat) : (d.pwrEvent kind obj a b).ctr.counts = d.ctr.counts := by simp [Dev.pwrEvent]
@[simp] theorem Dev.pwrEvent_ctr_clocks (d : Dev) (kind obj a b : Nat) : (d.pwrEvent kind obj a b).ctr.clocks = d.ctr.clocks := by simp [Dev.pwrEvent]
@[simp] theorem Dev.pwrEvent_ctr_acked (d : Dev) (kind obj a b : Nat) : (d.pwrEvent kind obj a b).ctr.acked = d.ctr.acked := by simp [Dev.pwrEvent]
@[simp] theorem Dev.pwrEvent_ctr_frozen (d : Dev) (kind obj a b : Nat) : (d.pwrEvent kind obj a b).ctr.frozen = d.ctr.frozen := by simp [Dev.pwrEvent]
@[simp] theorem Dev.pwrEvent_ctr_freezeAt (d : Dev) (kind obj a b : Nat) : (d.pwrEvent kind obj a b).ctr.freezeAt = d.ctr.freezeAt := by simp [Dev.pwrEvent]
@[simp] theorem Dev.pwrEvent_ctr_releaseAt (d : Dev) (kind obj a b : Nat) : (d.pwrEvent kind obj a b).ctr.releaseAt = d.ctr.releaseAt := by simp [Dev.pwrEvent]
@[simp] theorem Dev.pwrEvent_ctr_banks (d : Dev) (kind obj a b : Nat) : (d.pwrEvent kind obj a b).ctr.banks = d.ctr.banks := by simp [Dev.pwrEvent]
@[simp] theorem Dev.pwrEvent_ctr_snapAt (d : Dev) (kind obj a b : Nat) : (d.pwrEvent kind obj a b).ctr.snapAt = d.ctr.snapAt := by simp [Dev.pwrEvent]
@[simp] theorem Dev.pwrEvent_ctr_skipRaised (d : Dev) (kind obj a b : Nat) : (d.pwrEvent kind obj a b).ctr.skipRaised = d.ctr.skipRaised := by simp [Dev.pwrEvent]
@[simp] theorem Dev.pwrEvent_ctr_samplers (d : Dev) (kind obj a b : Nat) : (d.pwrEvent kind obj a b).ctr.samplers = d.ctr.samplers := by simp [Dev.pwrEvent]
@[simp] theorem Dev.pwrEvent_ctr_slots (d : Dev) (kind obj a b : Nat) : (d.pwrEvent kind obj a b).ctr.slots = d.ctr.slots := by simp [Dev.pwrEvent]
@[simp] theorem Dev.pwrEvent_ctr_periodAt (d : Dev) (kind obj a b : Nat) : (d.pwrEvent kind obj a b).ctr.periodAt = d.ctr.periodAt := by simp [Dev.pwrEvent]
@[simp] theorem Dev.pwrEvent_out_happenings (d : Dev) (kind obj a b : Nat) : (d.pwrEvent kind obj a b).out.happenings = d.out.happenings := by simp [Dev.pwrEvent]
@[simp] theorem Dev.pwrEvent_out_gaps (d : Dev) (kind obj a b : Nat) : (d.pwrEvent kind obj a b).out.gaps = d.out.gaps := by simp [Dev.pwrEvent]

/-! ### Parts that `setIslState` leaves within what it changes -/

@[simp] theorem Dev.setIslState_ctr_counts (d : Dev) (isl st : Nat) : (d.setIslState isl st).ctr.counts = d.ctr.counts := by simp only [Dev.setIslState]; split <;> simp
@[simp] theorem Dev.setIslState_ctr_clocks (d : Dev) (isl st : Nat) : (d.setIslState isl st).ctr.clocks = d.ctr.clocks := by simp only [Dev.setIslState]; split <;> simp
@[simp] theorem Dev.setIslState_ctr_acked (d : Dev) (isl st : Nat) : (d.setIslState isl st).ctr.acked = d.ctr.acked := by simp only [Dev.setIslState]; split <;> simp
@[simp] theorem Dev.setIslState_ctr_frozen (d : Dev) (isl st : Nat) : (d.setIslState isl st).ctr.frozen = d.ctr.frozen := by simp only [Dev.setIslState]; split <;> simp
@[simp] theorem Dev.setIslState_ctr_freezeAt (d : Dev) (isl st : Nat) : (d.setIslState isl st).ctr.freezeAt = d.ctr.freezeAt := by simp only [Dev.setIslState]; split <;> simp
@[simp] theorem Dev.setIslState_ctr_releaseAt (d : Dev) (isl st : Nat) : (d.setIslState isl st).ctr.releaseAt = d.ctr.releaseAt := by simp only [Dev.setIslState]; split <;> simp
@[simp] theorem Dev.setIslState_ctr_banks (d : Dev) (isl st : Nat) : (d.setIslState isl st).ctr.banks = d.ctr.banks := by simp only [Dev.setIslState]; split <;> simp
@[simp] theorem Dev.setIslState_ctr_snapAt (d : Dev) (isl st : Nat) : (d.setIslState isl st).ctr.snapAt = d.ctr.snapAt := by simp only [Dev.setIslState]; split <;> simp
@[simp] theorem Dev.setIslState_ctr_skipRaised (d : Dev) (isl st : Nat) : (d.setIslState isl st).ctr.skipRaised = d.ctr.skipRaised := by simp only [Dev.setIslState]; split <;> simp
@[simp] theorem Dev.setIslState_ctr_samplers (d : Dev) (isl st : Nat) : (d.setIslState isl st).ctr.samplers = d.ctr.samplers := by simp only [Dev.setIslState]; split <;> simp
@[simp] theorem Dev.setIslState_ctr_slots (d : Dev) (isl st : Nat) : (d.setIslState isl st).ctr.slots = d.ctr.slots := by simp only [Dev.setIslState]; split <;> simp
@[simp] theorem Dev.setIslState_ctr_periodAt (d : Dev) (isl st : Nat) : (d.setIslState isl st).ctr.periodAt = d.ctr.periodAt := by simp only [Dev.setIslState]; split <;> simp
@[simp] theorem Dev.setIslState_out_happenings (d : Dev) (isl st : Nat) : (d.setIslState isl st).out.happenings = d.out.happenings := by simp only [Dev.setIslState]; split <;> simp
@[simp] theorem Dev.setIslState_out_gaps (d : Dev) (isl st : Nat) : (d.setIslState isl st).out.gaps = d.out.gaps := by simp only [Dev.setIslState]; split <;> simp

/-! ### Parts that `setDegraded` leaves within what it changes -/

@[simp] theorem Dev.setDegraded_sup_running (d : Dev) (v : Nat) : (d.setDegraded v).sup.running = d.sup.running := by simp only [Dev.setDegraded]; (repeat' split) <;> simp
@[simp] theorem Dev.setDegraded_sup_restarting (d : Dev) (v : Nat) : (d.setDegraded v).sup.restarting = d.sup.restarting := by simp only [Dev.setDegraded]; (repeat' split) <;> simp
@[simp] theorem Dev.setDegraded_sup_al (d : Dev) (v : Nat) : (d.setDegraded v).sup.al = d.sup.al := by simp only [Dev.setDegraded]; (repeat' split) <;> simp
@[simp] theorem Dev.setDegraded_sup_alStatus (d : Dev) (v : Nat) : (d.setDegraded v).sup.alStatus = d.sup.alStatus := by simp only [Dev.setDegraded]; (repeat' split) <;> simp
@[simp] theorem Dev.setDegraded_sup_alError (d : Dev) (v : Nat) : (d.setDegraded v).sup.alError = d.sup.alError := by simp only [Dev.setDegraded]; (repeat' split) <;> simp
@[simp] theorem Dev.setDegraded_sup_queued (d : Dev) (v : Nat) : (d.setDegraded v).sup.queued = d.sup.queued := by simp only [Dev.setDegraded]; (repeat' split) <;> simp
@[simp] theorem Dev.setDegraded_sup_queueLost (d : Dev) (v : Nat) : (d.setDegraded v).sup.queueLost = d.sup.queueLost := by simp only [Dev.setDegraded]; (repeat' split) <;> simp
@[simp] theorem Dev.setDegraded_sup_rejected (d : Dev) (v : Nat) : (d.setDegraded v).sup.rejected = d.sup.rejected := by simp only [Dev.setDegraded]; (repeat' split) <;> simp
@[simp] theorem Dev.setDegraded_sup_latch (d : Dev) (v : Nat) : (d.setDegraded v).sup.latch = d.sup.latch := by simp only [Dev.setDegraded]; (repeat' split) <;> simp
@[simp] theorem Dev.setDegraded_sup_lowHalf (d : Dev) (v : Nat) : (d.setDegraded v).sup.lowHalf = d.sup.lowHalf := by simp only [Dev.setDegraded]; (repeat' split) <;> simp
@[simp] theorem Dev.setDegraded_sup_bulk (d : Dev) (v : Nat) : (d.setDegraded v).sup.bulk = d.sup.bulk := by simp only [Dev.setDegraded]; (repeat' split) <;> simp
@[simp] theorem Dev.setDegraded_sup_bulkRead (d : Dev) (v : Nat) : (d.setDegraded v).sup.bulkRead = d.sup.bulkRead := by simp only [Dev.setDegraded]; (repeat' split) <;> simp
@[simp] theorem Dev.setDegraded_sup_sent (d : Dev) (v : Nat) : (d.setDegraded v).sup.sent = d.sup.sent := by simp only [Dev.setDegraded]; (repeat' split) <;> simp
@[simp] theorem Dev.setDegraded_sup_lastSent (d : Dev) (v : Nat) : (d.setDegraded v).sup.lastSent = d.sup.lastSent := by simp only [Dev.setDegraded]; (repeat' split) <;> simp
@[simp] theorem Dev.setDegraded_sup_rxLast (d : Dev) (v : Nat) : (d.setDegraded v).sup.rxLast = d.sup.rxLast := by simp only [Dev.setDegraded]; (repeat' split) <;> simp
@[simp] theorem Dev.setDegraded_sup_rxAt (d : Dev) (v : Nat) : (d.setDegraded v).sup.rxAt = d.sup.rxAt := by simp only [Dev.setDegraded]; (repeat' split) <;> simp
@[simp] theorem Dev.setDegraded_sup_rxMap (d : Dev) (v : Nat) : (d.setDegraded v).sup.rxMap = d.sup.rxMap := by simp only [Dev.setDegraded]; (repeat' split) <;> simp
@[simp] theorem Dev.setDegraded_sup_txMap (d : Dev) (v : Nat) : (d.setDegraded v).sup.txMap = d.sup.txMap := by simp only [Dev.setDegraded]; (repeat' split) <;> simp
@[simp] theorem Dev.setDegraded_sup_cycle (d : Dev) (v : Nat) : (d.setDegraded v).sup.cycle = d.sup.cycle := by simp only [Dev.setDegraded]; (repeat' split) <;> simp
@[simp] theorem Dev.setDegraded_sup_txImage (d : Dev) (v : Nat) : (d.setDegraded v).sup.txImage = d.sup.txImage := by simp only [Dev.setDegraded]; (repeat' split) <;> simp
@[simp] theorem Dev.setDegraded_sup_commitFrom (d : Dev) (v : Nat) : (d.setDegraded v).sup.commitFrom = d.sup.commitFrom := by simp only [Dev.setDegraded]; (repeat' split) <;> simp
@[simp] theorem Dev.setDegraded_sup_dropped (d : Dev) (v : Nat) : (d.setDegraded v).sup.dropped = d.sup.dropped := by simp only [Dev.setDegraded]; (repeat' split) <;> simp
@[simp] theorem Dev.setDegraded_sup_answers (d : Dev) (v : Nat) : (d.setDegraded v).sup.answers = d.sup.answers := by simp only [Dev.setDegraded]; (repeat' split) <;> simp
@[simp] theorem Dev.setDegraded_flt_repoint (d : Dev) (v : Nat) : (d.setDegraded v).flt.repoint = d.flt.repoint := by simp only [Dev.setDegraded]; (repeat' split) <;> simp
@[simp] theorem Dev.setDegraded_flt_standbyFailed (d : Dev) (v : Nat) : (d.setDegraded v).flt.standbyFailed = d.flt.standbyFailed := by simp only [Dev.setDegraded]; (repeat' split) <;> simp
@[simp] theorem Dev.setDegraded_flt_trial (d : Dev) (v : Nat) : (d.setDegraded v).flt.trial = d.flt.trial := by simp only [Dev.setDegraded]; (repeat' split) <;> simp
@[simp] theorem Dev.setDegraded_flt_previous (d : Dev) (v : Nat) : (d.setDegraded v).flt.previous = d.flt.previous := by simp only [Dev.setDegraded]; (repeat' split) <;> simp
@[simp] theorem Dev.setDegraded_flt_round (d : Dev) (v : Nat) : (d.setDegraded v).flt.round = d.flt.round := by simp only [Dev.setDegraded]; (repeat' split) <;> simp
@[simp] theorem Dev.setDegraded_flt_roundDone (d : Dev) (v : Nat) : (d.setDegraded v).flt.roundDone = d.flt.roundDone := by simp only [Dev.setDegraded]; (repeat' split) <;> simp
@[simp] theorem Dev.setDegraded_flt_drains (d : Dev) (v : Nat) : (d.setDegraded v).flt.drains = d.flt.drains := by simp only [Dev.setDegraded]; (repeat' split) <;> simp
@[simp] theorem Dev.setDegraded_flt_selfTests (d : Dev) (v : Nat) : (d.setDegraded v).flt.selfTests = d.flt.selfTests := by simp only [Dev.setDegraded]; (repeat' split) <;> simp
@[simp] theorem Dev.setDegraded_pwr_entering (d : Dev) (v : Nat) : (d.setDegraded v).pwr.entering = d.pwr.entering := by simp only [Dev.setDegraded]; (repeat' split) <;> simp
@[simp] theorem Dev.setDegraded_pwr_asleep (d : Dev) (v : Nat) : (d.setDegraded v).pwr.asleep = d.pwr.asleep := by simp only [Dev.setDegraded]; (repeat' split) <;> simp
@[simp] theorem Dev.setDegraded_pwr_waking (d : Dev) (v : Nat) : (d.setDegraded v).pwr.waking = d.pwr.waking := by simp only [Dev.setDegraded]; (repeat' split) <;> simp
@[simp] theorem Dev.setDegraded_pwr_before (d : Dev) (v : Nat) : (d.setDegraded v).pwr.before = d.pwr.before := by simp only [Dev.setDegraded]; (repeat' split) <;> simp
@[simp] theorem Dev.setDegraded_pwr_written (d : Dev) (v : Nat) : (d.setDegraded v).pwr.written = d.pwr.written := by simp only [Dev.setDegraded]; (repeat' split) <;> simp
@[simp] theorem Dev.setDegraded_pwr_since (d : Dev) (v : Nat) : (d.setDegraded v).pwr.since = d.pwr.since := by simp only [Dev.setDegraded]; (repeat' split) <;> simp
@[simp] theorem Dev.setDegraded_pwr_steps (d : Dev) (v : Nat) : (d.setDegraded v).pwr.steps = d.pwr.steps := by simp only [Dev.setDegraded]; (repeat' split) <;> simp
@[simp] theorem Dev.setDegraded_pwr_engaged (d : Dev) (v : Nat) : (d.setDegraded v).pwr.engaged = d.pwr.engaged := by simp only [Dev.setDegraded]; (repeat' split) <;> simp
@[simp] theorem Dev.setDegraded_pwr_released (d : Dev) (v : Nat) : (d.setDegraded v).pwr.released = d.pwr.released := by simp only [Dev.setDegraded]; (repeat' split) <;> simp
@[simp] theorem Dev.setDegraded_pwr_want (d : Dev) (v : Nat) : (d.setDegraded v).pwr.want = d.pwr.want := by simp only [Dev.setDegraded]; (repeat' split) <;> simp
@[simp] theorem Dev.setDegraded_pwr_shed (d : Dev) (v : Nat) : (d.setDegraded v).pwr.shed = d.pwr.shed := by simp only [Dev.setDegraded]; (repeat' split) <;> simp
@[simp] theorem Dev.setDegraded_pwr_hot (d : Dev) (v : Nat) : (d.setDegraded v).pwr.hot = d.pwr.hot := by simp only [Dev.setDegraded]; (repeat' split) <;> simp
@[simp] theorem Dev.setDegraded_pwr_returned (d : Dev) (v : Nat) : (d.setDegraded v).pwr.returned = d.pwr.returned := by simp only [Dev.setDegraded]; (repeat' split) <;> simp
@[simp] theorem Dev.setDegraded_ctr_counts (d : Dev) (v : Nat) : (d.setDegraded v).ctr.counts = d.ctr.counts := by simp only [Dev.setDegraded]; (repeat' split) <;> simp
@[simp] theorem Dev.setDegraded_ctr_clocks (d : Dev) (v : Nat) : (d.setDegraded v).ctr.clocks = d.ctr.clocks := by simp only [Dev.setDegraded]; (repeat' split) <;> simp
@[simp] theorem Dev.setDegraded_ctr_acked (d : Dev) (v : Nat) : (d.setDegraded v).ctr.acked = d.ctr.acked := by simp only [Dev.setDegraded]; (repeat' split) <;> simp
@[simp] theorem Dev.setDegraded_ctr_frozen (d : Dev) (v : Nat) : (d.setDegraded v).ctr.frozen = d.ctr.frozen := by simp only [Dev.setDegraded]; (repeat' split) <;> simp
@[simp] theorem Dev.setDegraded_ctr_freezeAt (d : Dev) (v : Nat) : (d.setDegraded v).ctr.freezeAt = d.ctr.freezeAt := by simp only [Dev.setDegraded]; (repeat' split) <;> simp
@[simp] theorem Dev.setDegraded_ctr_releaseAt (d : Dev) (v : Nat) : (d.setDegraded v).ctr.releaseAt = d.ctr.releaseAt := by simp only [Dev.setDegraded]; (repeat' split) <;> simp
@[simp] theorem Dev.setDegraded_ctr_banks (d : Dev) (v : Nat) : (d.setDegraded v).ctr.banks = d.ctr.banks := by simp only [Dev.setDegraded]; (repeat' split) <;> simp
@[simp] theorem Dev.setDegraded_ctr_snapAt (d : Dev) (v : Nat) : (d.setDegraded v).ctr.snapAt = d.ctr.snapAt := by simp only [Dev.setDegraded]; (repeat' split) <;> simp
@[simp] theorem Dev.setDegraded_ctr_skipRaised (d : Dev) (v : Nat) : (d.setDegraded v).ctr.skipRaised = d.ctr.skipRaised := by simp only [Dev.setDegraded]; (repeat' split) <;> simp
@[simp] theorem Dev.setDegraded_ctr_samplers (d : Dev) (v : Nat) : (d.setDegraded v).ctr.samplers = d.ctr.samplers := by simp only [Dev.setDegraded]; (repeat' split) <;> simp
@[simp] theorem Dev.setDegraded_ctr_slots (d : Dev) (v : Nat) : (d.setDegraded v).ctr.slots = d.ctr.slots := by simp only [Dev.setDegraded]; (repeat' split) <;> simp
@[simp] theorem Dev.setDegraded_ctr_periodAt (d : Dev) (v : Nat) : (d.setDegraded v).ctr.periodAt = d.ctr.periodAt := by simp only [Dev.setDegraded]; (repeat' split) <;> simp
@[simp] theorem Dev.setDegraded_out_happenings (d : Dev) (v : Nat) : (d.setDegraded v).out.happenings = d.out.happenings := by simp only [Dev.setDegraded]; (repeat' split) <;> simp
@[simp] theorem Dev.setDegraded_out_gaps (d : Dev) (v : Nat) : (d.setDegraded v).out.gaps = d.out.gaps := by simp only [Dev.setDegraded]; (repeat' split) <;> simp

/-! ### Parts that `degradedBit` leaves within what it changes -/

@[simp] theorem Dev.degradedBit_sup_running (d : Dev) (k : Nat) (on : Bool) : (d.degradedBit k on).sup.running = d.sup.running := by simp [Dev.degradedBit]
@[simp] theorem Dev.degradedBit_sup_restarting (d : Dev) (k : Nat) (on : Bool) : (d.degradedBit k on).sup.restarting = d.sup.restarting := by simp [Dev.degradedBit]
@[simp] theorem Dev.degradedBit_sup_al (d : Dev) (k : Nat) (on : Bool) : (d.degradedBit k on).sup.al = d.sup.al := by simp [Dev.degradedBit]
@[simp] theorem Dev.degradedBit_sup_alStatus (d : Dev) (k : Nat) (on : Bool) : (d.degradedBit k on).sup.alStatus = d.sup.alStatus := by simp [Dev.degradedBit]
@[simp] theorem Dev.degradedBit_sup_alError (d : Dev) (k : Nat) (on : Bool) : (d.degradedBit k on).sup.alError = d.sup.alError := by simp [Dev.degradedBit]
@[simp] theorem Dev.degradedBit_sup_queued (d : Dev) (k : Nat) (on : Bool) : (d.degradedBit k on).sup.queued = d.sup.queued := by simp [Dev.degradedBit]
@[simp] theorem Dev.degradedBit_sup_queueLost (d : Dev) (k : Nat) (on : Bool) : (d.degradedBit k on).sup.queueLost = d.sup.queueLost := by simp [Dev.degradedBit]
@[simp] theorem Dev.degradedBit_sup_rejected (d : Dev) (k : Nat) (on : Bool) : (d.degradedBit k on).sup.rejected = d.sup.rejected := by simp [Dev.degradedBit]
@[simp] theorem Dev.degradedBit_sup_latch (d : Dev) (k : Nat) (on : Bool) : (d.degradedBit k on).sup.latch = d.sup.latch := by simp [Dev.degradedBit]
@[simp] theorem Dev.degradedBit_sup_lowHalf (d : Dev) (k : Nat) (on : Bool) : (d.degradedBit k on).sup.lowHalf = d.sup.lowHalf := by simp [Dev.degradedBit]
@[simp] theorem Dev.degradedBit_sup_bulk (d : Dev) (k : Nat) (on : Bool) : (d.degradedBit k on).sup.bulk = d.sup.bulk := by simp [Dev.degradedBit]
@[simp] theorem Dev.degradedBit_sup_bulkRead (d : Dev) (k : Nat) (on : Bool) : (d.degradedBit k on).sup.bulkRead = d.sup.bulkRead := by simp [Dev.degradedBit]
@[simp] theorem Dev.degradedBit_sup_sent (d : Dev) (k : Nat) (on : Bool) : (d.degradedBit k on).sup.sent = d.sup.sent := by simp [Dev.degradedBit]
@[simp] theorem Dev.degradedBit_sup_lastSent (d : Dev) (k : Nat) (on : Bool) : (d.degradedBit k on).sup.lastSent = d.sup.lastSent := by simp [Dev.degradedBit]
@[simp] theorem Dev.degradedBit_sup_rxLast (d : Dev) (k : Nat) (on : Bool) : (d.degradedBit k on).sup.rxLast = d.sup.rxLast := by simp [Dev.degradedBit]
@[simp] theorem Dev.degradedBit_sup_rxAt (d : Dev) (k : Nat) (on : Bool) : (d.degradedBit k on).sup.rxAt = d.sup.rxAt := by simp [Dev.degradedBit]
@[simp] theorem Dev.degradedBit_sup_rxMap (d : Dev) (k : Nat) (on : Bool) : (d.degradedBit k on).sup.rxMap = d.sup.rxMap := by simp [Dev.degradedBit]
@[simp] theorem Dev.degradedBit_sup_txMap (d : Dev) (k : Nat) (on : Bool) : (d.degradedBit k on).sup.txMap = d.sup.txMap := by simp [Dev.degradedBit]
@[simp] theorem Dev.degradedBit_sup_cycle (d : Dev) (k : Nat) (on : Bool) : (d.degradedBit k on).sup.cycle = d.sup.cycle := by simp [Dev.degradedBit]
@[simp] theorem Dev.degradedBit_sup_txImage (d : Dev) (k : Nat) (on : Bool) : (d.degradedBit k on).sup.txImage = d.sup.txImage := by simp [Dev.degradedBit]
@[simp] theorem Dev.degradedBit_sup_commitFrom (d : Dev) (k : Nat) (on : Bool) : (d.degradedBit k on).sup.commitFrom = d.sup.commitFrom := by simp [Dev.degradedBit]
@[simp] theorem Dev.degradedBit_sup_dropped (d : Dev) (k : Nat) (on : Bool) : (d.degradedBit k on).sup.dropped = d.sup.dropped := by simp [Dev.degradedBit]
@[simp] theorem Dev.degradedBit_sup_answers (d : Dev) (k : Nat) (on : Bool) : (d.degradedBit k on).sup.answers = d.sup.answers := by simp [Dev.degradedBit]
@[simp] theorem Dev.degradedBit_flt_repoint (d : Dev) (k : Nat) (on : Bool) : (d.degradedBit k on).flt.repoint = d.flt.repoint := by simp [Dev.degradedBit]
@[simp] theorem Dev.degradedBit_flt_standbyFailed (d : Dev) (k : Nat) (on : Bool) : (d.degradedBit k on).flt.standbyFailed = d.flt.standbyFailed := by simp [Dev.degradedBit]
@[simp] theorem Dev.degradedBit_flt_trial (d : Dev) (k : Nat) (on : Bool) : (d.degradedBit k on).flt.trial = d.flt.trial := by simp [Dev.degradedBit]
@[simp] theorem Dev.degradedBit_flt_previous (d : Dev) (k : Nat) (on : Bool) : (d.degradedBit k on).flt.previous = d.flt.previous := by simp [Dev.degradedBit]
@[simp] theorem Dev.degradedBit_flt_round (d : Dev) (k : Nat) (on : Bool) : (d.degradedBit k on).flt.round = d.flt.round := by simp [Dev.degradedBit]
@[simp] theorem Dev.degradedBit_flt_roundDone (d : Dev) (k : Nat) (on : Bool) : (d.degradedBit k on).flt.roundDone = d.flt.roundDone := by simp [Dev.degradedBit]
@[simp] theorem Dev.degradedBit_flt_drains (d : Dev) (k : Nat) (on : Bool) : (d.degradedBit k on).flt.drains = d.flt.drains := by simp [Dev.degradedBit]
@[simp] theorem Dev.degradedBit_flt_selfTests (d : Dev) (k : Nat) (on : Bool) : (d.degradedBit k on).flt.selfTests = d.flt.selfTests := by simp [Dev.degradedBit]
@[simp] theorem Dev.degradedBit_pwr_entering (d : Dev) (k : Nat) (on : Bool) : (d.degradedBit k on).pwr.entering = d.pwr.entering := by simp [Dev.degradedBit]
@[simp] theorem Dev.degradedBit_pwr_asleep (d : Dev) (k : Nat) (on : Bool) : (d.degradedBit k on).pwr.asleep = d.pwr.asleep := by simp [Dev.degradedBit]
@[simp] theorem Dev.degradedBit_pwr_waking (d : Dev) (k : Nat) (on : Bool) : (d.degradedBit k on).pwr.waking = d.pwr.waking := by simp [Dev.degradedBit]
@[simp] theorem Dev.degradedBit_pwr_before (d : Dev) (k : Nat) (on : Bool) : (d.degradedBit k on).pwr.before = d.pwr.before := by simp [Dev.degradedBit]
@[simp] theorem Dev.degradedBit_pwr_written (d : Dev) (k : Nat) (on : Bool) : (d.degradedBit k on).pwr.written = d.pwr.written := by simp [Dev.degradedBit]
@[simp] theorem Dev.degradedBit_pwr_since (d : Dev) (k : Nat) (on : Bool) : (d.degradedBit k on).pwr.since = d.pwr.since := by simp [Dev.degradedBit]
@[simp] theorem Dev.degradedBit_pwr_steps (d : Dev) (k : Nat) (on : Bool) : (d.degradedBit k on).pwr.steps = d.pwr.steps := by simp [Dev.degradedBit]
@[simp] theorem Dev.degradedBit_pwr_engaged (d : Dev) (k : Nat) (on : Bool) : (d.degradedBit k on).pwr.engaged = d.pwr.engaged := by simp [Dev.degradedBit]
@[simp] theorem Dev.degradedBit_pwr_released (d : Dev) (k : Nat) (on : Bool) : (d.degradedBit k on).pwr.released = d.pwr.released := by simp [Dev.degradedBit]
@[simp] theorem Dev.degradedBit_pwr_want (d : Dev) (k : Nat) (on : Bool) : (d.degradedBit k on).pwr.want = d.pwr.want := by simp [Dev.degradedBit]
@[simp] theorem Dev.degradedBit_pwr_shed (d : Dev) (k : Nat) (on : Bool) : (d.degradedBit k on).pwr.shed = d.pwr.shed := by simp [Dev.degradedBit]
@[simp] theorem Dev.degradedBit_pwr_hot (d : Dev) (k : Nat) (on : Bool) : (d.degradedBit k on).pwr.hot = d.pwr.hot := by simp [Dev.degradedBit]
@[simp] theorem Dev.degradedBit_pwr_returned (d : Dev) (k : Nat) (on : Bool) : (d.degradedBit k on).pwr.returned = d.pwr.returned := by simp [Dev.degradedBit]
@[simp] theorem Dev.degradedBit_ctr_counts (d : Dev) (k : Nat) (on : Bool) : (d.degradedBit k on).ctr.counts = d.ctr.counts := by simp [Dev.degradedBit]
@[simp] theorem Dev.degradedBit_ctr_clocks (d : Dev) (k : Nat) (on : Bool) : (d.degradedBit k on).ctr.clocks = d.ctr.clocks := by simp [Dev.degradedBit]
@[simp] theorem Dev.degradedBit_ctr_acked (d : Dev) (k : Nat) (on : Bool) : (d.degradedBit k on).ctr.acked = d.ctr.acked := by simp [Dev.degradedBit]
@[simp] theorem Dev.degradedBit_ctr_frozen (d : Dev) (k : Nat) (on : Bool) : (d.degradedBit k on).ctr.frozen = d.ctr.frozen := by simp [Dev.degradedBit]
@[simp] theorem Dev.degradedBit_ctr_freezeAt (d : Dev) (k : Nat) (on : Bool) : (d.degradedBit k on).ctr.freezeAt = d.ctr.freezeAt := by simp [Dev.degradedBit]
@[simp] theorem Dev.degradedBit_ctr_releaseAt (d : Dev) (k : Nat) (on : Bool) : (d.degradedBit k on).ctr.releaseAt = d.ctr.releaseAt := by simp [Dev.degradedBit]
@[simp] theorem Dev.degradedBit_ctr_banks (d : Dev) (k : Nat) (on : Bool) : (d.degradedBit k on).ctr.banks = d.ctr.banks := by simp [Dev.degradedBit]
@[simp] theorem Dev.degradedBit_ctr_snapAt (d : Dev) (k : Nat) (on : Bool) : (d.degradedBit k on).ctr.snapAt = d.ctr.snapAt := by simp [Dev.degradedBit]
@[simp] theorem Dev.degradedBit_ctr_skipRaised (d : Dev) (k : Nat) (on : Bool) : (d.degradedBit k on).ctr.skipRaised = d.ctr.skipRaised := by simp [Dev.degradedBit]
@[simp] theorem Dev.degradedBit_ctr_samplers (d : Dev) (k : Nat) (on : Bool) : (d.degradedBit k on).ctr.samplers = d.ctr.samplers := by simp [Dev.degradedBit]
@[simp] theorem Dev.degradedBit_ctr_slots (d : Dev) (k : Nat) (on : Bool) : (d.degradedBit k on).ctr.slots = d.ctr.slots := by simp [Dev.degradedBit]
@[simp] theorem Dev.degradedBit_ctr_periodAt (d : Dev) (k : Nat) (on : Bool) : (d.degradedBit k on).ctr.periodAt = d.ctr.periodAt := by simp [Dev.degradedBit]
@[simp] theorem Dev.degradedBit_out_happenings (d : Dev) (k : Nat) (on : Bool) : (d.degradedBit k on).out.happenings = d.out.happenings := by simp [Dev.degradedBit]
@[simp] theorem Dev.degradedBit_out_gaps (d : Dev) (k : Nat) (on : Bool) : (d.degradedBit k on).out.gaps = d.out.gaps := by simp [Dev.degradedBit]

/-! ### Parts that `markWrite` leaves within what it changes -/

@[simp] theorem Dev.markWrite_sup_running (d : Dev) (path ix sub : Nat) (ok : Bool) : (d.markWrite path ix sub ok).sup.running = d.sup.running := by unfold Dev.markWrite; split <;> rfl
@[simp] theorem Dev.markWrite_sup_restarting (d : Dev) (path ix sub : Nat) (ok : Bool) : (d.markWrite path ix sub ok).sup.restarting = d.sup.restarting := by unfold Dev.markWrite; split <;> rfl
@[simp] theorem Dev.markWrite_sup_al (d : Dev) (path ix sub : Nat) (ok : Bool) : (d.markWrite path ix sub ok).sup.al = d.sup.al := by unfold Dev.markWrite; split <;> rfl
@[simp] theorem Dev.markWrite_sup_alStatus (d : Dev) (path ix sub : Nat) (ok : Bool) : (d.markWrite path ix sub ok).sup.alStatus = d.sup.alStatus := by unfold Dev.markWrite; split <;> rfl
@[simp] theorem Dev.markWrite_sup_alError (d : Dev) (path ix sub : Nat) (ok : Bool) : (d.markWrite path ix sub ok).sup.alError = d.sup.alError := by unfold Dev.markWrite; split <;> rfl
@[simp] theorem Dev.markWrite_sup_queued (d : Dev) (path ix sub : Nat) (ok : Bool) : (d.markWrite path ix sub ok).sup.queued = d.sup.queued := by unfold Dev.markWrite; split <;> rfl
@[simp] theorem Dev.markWrite_sup_queueLost (d : Dev) (path ix sub : Nat) (ok : Bool) : (d.markWrite path ix sub ok).sup.queueLost = d.sup.queueLost := by unfold Dev.markWrite; split <;> rfl
@[simp] theorem Dev.markWrite_sup_latch (d : Dev) (path ix sub : Nat) (ok : Bool) : (d.markWrite path ix sub ok).sup.latch = d.sup.latch := by unfold Dev.markWrite; split <;> rfl
@[simp] theorem Dev.markWrite_sup_lowHalf (d : Dev) (path ix sub : Nat) (ok : Bool) : (d.markWrite path ix sub ok).sup.lowHalf = d.sup.lowHalf := by unfold Dev.markWrite; split <;> rfl
@[simp] theorem Dev.markWrite_sup_bulk (d : Dev) (path ix sub : Nat) (ok : Bool) : (d.markWrite path ix sub ok).sup.bulk = d.sup.bulk := by unfold Dev.markWrite; split <;> rfl
@[simp] theorem Dev.markWrite_sup_bulkRead (d : Dev) (path ix sub : Nat) (ok : Bool) : (d.markWrite path ix sub ok).sup.bulkRead = d.sup.bulkRead := by unfold Dev.markWrite; split <;> rfl
@[simp] theorem Dev.markWrite_sup_emergencies (d : Dev) (path ix sub : Nat) (ok : Bool) : (d.markWrite path ix sub ok).sup.emergencies = d.sup.emergencies := by unfold Dev.markWrite; split <;> rfl
@[simp] theorem Dev.markWrite_sup_sent (d : Dev) (path ix sub : Nat) (ok : Bool) : (d.markWrite path ix sub ok).sup.sent = d.sup.sent := by unfold Dev.markWrite; split <;> rfl
@[simp] theorem Dev.markWrite_sup_lastSent (d : Dev) (path ix sub : Nat) (ok : Bool) : (d.markWrite path ix sub ok).sup.lastSent = d.sup.lastSent := by unfold Dev.markWrite; split <;> rfl
@[simp] theorem Dev.markWrite_sup_errSince (d : Dev) (path ix sub : Nat) (ok : Bool) : (d.markWrite path ix sub ok).sup.errSince = d.sup.errSince := by unfold Dev.markWrite; split <;> rfl
@[simp] theorem Dev.markWrite_sup_rxLast (d : Dev) (path ix sub : Nat) (ok : Bool) : (d.markWrite path ix sub ok).sup.rxLast = d.sup.rxLast := by unfold Dev.markWrite; split <;> rfl
@[simp] theorem Dev.markWrite_sup_rxAt (d : Dev) (path ix sub : Nat) (ok : Bool) : (d.markWrite path ix sub ok).sup.rxAt = d.sup.rxAt := by unfold Dev.markWrite; split <;> rfl
@[simp] theorem Dev.markWrite_sup_rxMap (d : Dev) (path ix sub : Nat) (ok : Bool) : (d.markWrite path ix sub ok).sup.rxMap = d.sup.rxMap := by unfold Dev.markWrite; split <;> rfl
@[simp] theorem Dev.markWrite_sup_txMap (d : Dev) (path ix sub : Nat) (ok : Bool) : (d.markWrite path ix sub ok).sup.txMap = d.sup.txMap := by unfold Dev.markWrite; split <;> rfl
@[simp] theorem Dev.markWrite_sup_cycle (d : Dev) (path ix sub : Nat) (ok : Bool) : (d.markWrite path ix sub ok).sup.cycle = d.sup.cycle := by unfold Dev.markWrite; split <;> rfl
@[simp] theorem Dev.markWrite_sup_txImage (d : Dev) (path ix sub : Nat) (ok : Bool) : (d.markWrite path ix sub ok).sup.txImage = d.sup.txImage := by unfold Dev.markWrite; split <;> rfl
@[simp] theorem Dev.markWrite_sup_commitFrom (d : Dev) (path ix sub : Nat) (ok : Bool) : (d.markWrite path ix sub ok).sup.commitFrom = d.sup.commitFrom := by unfold Dev.markWrite; split <;> rfl
@[simp] theorem Dev.markWrite_sup_dropped (d : Dev) (path ix sub : Nat) (ok : Bool) : (d.markWrite path ix sub ok).sup.dropped = d.sup.dropped := by unfold Dev.markWrite; split <;> rfl
@[simp] theorem Dev.markWrite_sup_answers (d : Dev) (path ix sub : Nat) (ok : Bool) : (d.markWrite path ix sub ok).sup.answers = d.sup.answers := by unfold Dev.markWrite; split <;> rfl

/-! ### Parts that `refuse` leaves within what it changes -/

@[simp] theorem Dev.refuse_sup_running (d : Dev) (path ix sub c : Nat) : (d.refuse path ix sub c).sup.running = d.sup.running := by simp only [Dev.refuse]; split <;> simp
@[simp] theorem Dev.refuse_sup_restarting (d : Dev) (path ix sub c : Nat) : (d.refuse path ix sub c).sup.restarting = d.sup.restarting := by simp only [Dev.refuse]; split <;> simp
@[simp] theorem Dev.refuse_sup_al (d : Dev) (path ix sub c : Nat) : (d.refuse path ix sub c).sup.al = d.sup.al := by simp only [Dev.refuse]; split <;> simp
@[simp] theorem Dev.refuse_sup_alStatus (d : Dev) (path ix sub c : Nat) : (d.refuse path ix sub c).sup.alStatus = d.sup.alStatus := by simp only [Dev.refuse]; split <;> simp
@[simp] theorem Dev.refuse_sup_alError (d : Dev) (path ix sub c : Nat) : (d.refuse path ix sub c).sup.alError = d.sup.alError := by simp only [Dev.refuse]; split <;> simp
@[simp] theorem Dev.refuse_sup_queued (d : Dev) (path ix sub c : Nat) : (d.refuse path ix sub c).sup.queued = d.sup.queued := by simp only [Dev.refuse]; split <;> simp
@[simp] theorem Dev.refuse_sup_queueLost (d : Dev) (path ix sub c : Nat) : (d.refuse path ix sub c).sup.queueLost = d.sup.queueLost := by simp only [Dev.refuse]; split <;> simp
@[simp] theorem Dev.refuse_sup_latch (d : Dev) (path ix sub c : Nat) : (d.refuse path ix sub c).sup.latch = d.sup.latch := by simp only [Dev.refuse]; split <;> simp
@[simp] theorem Dev.refuse_sup_lowHalf (d : Dev) (path ix sub c : Nat) : (d.refuse path ix sub c).sup.lowHalf = d.sup.lowHalf := by simp only [Dev.refuse]; split <;> simp
@[simp] theorem Dev.refuse_sup_bulk (d : Dev) (path ix sub c : Nat) : (d.refuse path ix sub c).sup.bulk = d.sup.bulk := by simp only [Dev.refuse]; split <;> simp
@[simp] theorem Dev.refuse_sup_bulkRead (d : Dev) (path ix sub c : Nat) : (d.refuse path ix sub c).sup.bulkRead = d.sup.bulkRead := by simp only [Dev.refuse]; split <;> simp
@[simp] theorem Dev.refuse_sup_sent (d : Dev) (path ix sub c : Nat) : (d.refuse path ix sub c).sup.sent = d.sup.sent := by simp only [Dev.refuse]; split <;> simp
@[simp] theorem Dev.refuse_sup_lastSent (d : Dev) (path ix sub c : Nat) : (d.refuse path ix sub c).sup.lastSent = d.sup.lastSent := by simp only [Dev.refuse]; split <;> simp
@[simp] theorem Dev.refuse_sup_rxLast (d : Dev) (path ix sub c : Nat) : (d.refuse path ix sub c).sup.rxLast = d.sup.rxLast := by simp only [Dev.refuse]; split <;> simp
@[simp] theorem Dev.refuse_sup_rxAt (d : Dev) (path ix sub c : Nat) : (d.refuse path ix sub c).sup.rxAt = d.sup.rxAt := by simp only [Dev.refuse]; split <;> simp
@[simp] theorem Dev.refuse_sup_rxMap (d : Dev) (path ix sub c : Nat) : (d.refuse path ix sub c).sup.rxMap = d.sup.rxMap := by simp only [Dev.refuse]; split <;> simp
@[simp] theorem Dev.refuse_sup_txMap (d : Dev) (path ix sub c : Nat) : (d.refuse path ix sub c).sup.txMap = d.sup.txMap := by simp only [Dev.refuse]; split <;> simp
@[simp] theorem Dev.refuse_sup_cycle (d : Dev) (path ix sub c : Nat) : (d.refuse path ix sub c).sup.cycle = d.sup.cycle := by simp only [Dev.refuse]; split <;> simp
@[simp] theorem Dev.refuse_sup_txImage (d : Dev) (path ix sub c : Nat) : (d.refuse path ix sub c).sup.txImage = d.sup.txImage := by simp only [Dev.refuse]; split <;> simp
@[simp] theorem Dev.refuse_sup_commitFrom (d : Dev) (path ix sub c : Nat) : (d.refuse path ix sub c).sup.commitFrom = d.sup.commitFrom := by simp only [Dev.refuse]; split <;> simp
@[simp] theorem Dev.refuse_sup_dropped (d : Dev) (path ix sub c : Nat) : (d.refuse path ix sub c).sup.dropped = d.sup.dropped := by simp only [Dev.refuse]; split <;> simp
@[simp] theorem Dev.refuse_sup_answers (d : Dev) (path ix sub c : Nat) : (d.refuse path ix sub c).sup.answers = d.sup.answers := by simp only [Dev.refuse]; split <;> simp
@[simp] theorem Dev.refuse_flt_repoint (d : Dev) (path ix sub c : Nat) : (d.refuse path ix sub c).flt.repoint = d.flt.repoint := by simp only [Dev.refuse]; split <;> simp
@[simp] theorem Dev.refuse_flt_standbyFailed (d : Dev) (path ix sub c : Nat) : (d.refuse path ix sub c).flt.standbyFailed = d.flt.standbyFailed := by simp only [Dev.refuse]; split <;> simp
@[simp] theorem Dev.refuse_flt_trial (d : Dev) (path ix sub c : Nat) : (d.refuse path ix sub c).flt.trial = d.flt.trial := by simp only [Dev.refuse]; split <;> simp
@[simp] theorem Dev.refuse_flt_previous (d : Dev) (path ix sub c : Nat) : (d.refuse path ix sub c).flt.previous = d.flt.previous := by simp only [Dev.refuse]; split <;> simp
@[simp] theorem Dev.refuse_flt_round (d : Dev) (path ix sub c : Nat) : (d.refuse path ix sub c).flt.round = d.flt.round := by simp only [Dev.refuse]; split <;> simp
@[simp] theorem Dev.refuse_flt_roundDone (d : Dev) (path ix sub c : Nat) : (d.refuse path ix sub c).flt.roundDone = d.flt.roundDone := by simp only [Dev.refuse]; split <;> simp
@[simp] theorem Dev.refuse_flt_drains (d : Dev) (path ix sub c : Nat) : (d.refuse path ix sub c).flt.drains = d.flt.drains := by simp only [Dev.refuse]; split <;> simp
@[simp] theorem Dev.refuse_flt_selfTests (d : Dev) (path ix sub c : Nat) : (d.refuse path ix sub c).flt.selfTests = d.flt.selfTests := by simp only [Dev.refuse]; split <;> simp
@[simp] theorem Dev.refuse_ctr_counts (d : Dev) (path ix sub c : Nat) : (d.refuse path ix sub c).ctr.counts = d.ctr.counts := by simp only [Dev.refuse]; split <;> simp
@[simp] theorem Dev.refuse_ctr_clocks (d : Dev) (path ix sub c : Nat) : (d.refuse path ix sub c).ctr.clocks = d.ctr.clocks := by simp only [Dev.refuse]; split <;> simp
@[simp] theorem Dev.refuse_ctr_acked (d : Dev) (path ix sub c : Nat) : (d.refuse path ix sub c).ctr.acked = d.ctr.acked := by simp only [Dev.refuse]; split <;> simp
@[simp] theorem Dev.refuse_ctr_frozen (d : Dev) (path ix sub c : Nat) : (d.refuse path ix sub c).ctr.frozen = d.ctr.frozen := by simp only [Dev.refuse]; split <;> simp
@[simp] theorem Dev.refuse_ctr_freezeAt (d : Dev) (path ix sub c : Nat) : (d.refuse path ix sub c).ctr.freezeAt = d.ctr.freezeAt := by simp only [Dev.refuse]; split <;> simp
@[simp] theorem Dev.refuse_ctr_releaseAt (d : Dev) (path ix sub c : Nat) : (d.refuse path ix sub c).ctr.releaseAt = d.ctr.releaseAt := by simp only [Dev.refuse]; split <;> simp
@[simp] theorem Dev.refuse_ctr_banks (d : Dev) (path ix sub c : Nat) : (d.refuse path ix sub c).ctr.banks = d.ctr.banks := by simp only [Dev.refuse]; split <;> simp
@[simp] theorem Dev.refuse_ctr_snapAt (d : Dev) (path ix sub c : Nat) : (d.refuse path ix sub c).ctr.snapAt = d.ctr.snapAt := by simp only [Dev.refuse]; split <;> simp
@[simp] theorem Dev.refuse_ctr_skipRaised (d : Dev) (path ix sub c : Nat) : (d.refuse path ix sub c).ctr.skipRaised = d.ctr.skipRaised := by simp only [Dev.refuse]; split <;> simp
@[simp] theorem Dev.refuse_ctr_samplers (d : Dev) (path ix sub c : Nat) : (d.refuse path ix sub c).ctr.samplers = d.ctr.samplers := by simp only [Dev.refuse]; split <;> simp
@[simp] theorem Dev.refuse_ctr_slots (d : Dev) (path ix sub c : Nat) : (d.refuse path ix sub c).ctr.slots = d.ctr.slots := by simp only [Dev.refuse]; split <;> simp
@[simp] theorem Dev.refuse_ctr_periodAt (d : Dev) (path ix sub c : Nat) : (d.refuse path ix sub c).ctr.periodAt = d.ctr.periodAt := by simp only [Dev.refuse]; split <;> simp

/-! ### Parts that `accept` leaves within what it changes -/

@[simp] theorem Dev.accept_sup_running (d : Dev) (path ix sub : Nat) : (d.accept path ix sub).sup.running = d.sup.running := by simp [Dev.accept]
@[simp] theorem Dev.accept_sup_restarting (d : Dev) (path ix sub : Nat) : (d.accept path ix sub).sup.restarting = d.sup.restarting := by simp [Dev.accept]
@[simp] theorem Dev.accept_sup_al (d : Dev) (path ix sub : Nat) : (d.accept path ix sub).sup.al = d.sup.al := by simp [Dev.accept]
@[simp] theorem Dev.accept_sup_alStatus (d : Dev) (path ix sub : Nat) : (d.accept path ix sub).sup.alStatus = d.sup.alStatus := by simp [Dev.accept]
@[simp] theorem Dev.accept_sup_alError (d : Dev) (path ix sub : Nat) : (d.accept path ix sub).sup.alError = d.sup.alError := by simp [Dev.accept]
@[simp] theorem Dev.accept_sup_queued (d : Dev) (path ix sub : Nat) : (d.accept path ix sub).sup.queued = d.sup.queued := by simp [Dev.accept]
@[simp] theorem Dev.accept_sup_queueLost (d : Dev) (path ix sub : Nat) : (d.accept path ix sub).sup.queueLost = d.sup.queueLost := by simp [Dev.accept]
@[simp] theorem Dev.accept_sup_latch (d : Dev) (path ix sub : Nat) : (d.accept path ix sub).sup.latch = d.sup.latch := by simp [Dev.accept]
@[simp] theorem Dev.accept_sup_lowHalf (d : Dev) (path ix sub : Nat) : (d.accept path ix sub).sup.lowHalf = d.sup.lowHalf := by simp [Dev.accept]
@[simp] theorem Dev.accept_sup_bulk (d : Dev) (path ix sub : Nat) : (d.accept path ix sub).sup.bulk = d.sup.bulk := by simp [Dev.accept]
@[simp] theorem Dev.accept_sup_bulkRead (d : Dev) (path ix sub : Nat) : (d.accept path ix sub).sup.bulkRead = d.sup.bulkRead := by simp [Dev.accept]
@[simp] theorem Dev.accept_sup_emergencies (d : Dev) (path ix sub : Nat) : (d.accept path ix sub).sup.emergencies = d.sup.emergencies := by simp [Dev.accept]
@[simp] theorem Dev.accept_sup_sent (d : Dev) (path ix sub : Nat) : (d.accept path ix sub).sup.sent = d.sup.sent := by simp [Dev.accept]
@[simp] theorem Dev.accept_sup_lastSent (d : Dev) (path ix sub : Nat) : (d.accept path ix sub).sup.lastSent = d.sup.lastSent := by simp [Dev.accept]
@[simp] theorem Dev.accept_sup_errSince (d : Dev) (path ix sub : Nat) : (d.accept path ix sub).sup.errSince = d.sup.errSince := by simp [Dev.accept]
@[simp] theorem Dev.accept_sup_rxLast (d : Dev) (path ix sub : Nat) : (d.accept path ix sub).sup.rxLast = d.sup.rxLast := by simp [Dev.accept]
@[simp] theorem Dev.accept_sup_rxAt (d : Dev) (path ix sub : Nat) : (d.accept path ix sub).sup.rxAt = d.sup.rxAt := by simp [Dev.accept]
@[simp] theorem Dev.accept_sup_rxMap (d : Dev) (path ix sub : Nat) : (d.accept path ix sub).sup.rxMap = d.sup.rxMap := by simp [Dev.accept]
@[simp] theorem Dev.accept_sup_txMap (d : Dev) (path ix sub : Nat) : (d.accept path ix sub).sup.txMap = d.sup.txMap := by simp [Dev.accept]
@[simp] theorem Dev.accept_sup_cycle (d : Dev) (path ix sub : Nat) : (d.accept path ix sub).sup.cycle = d.sup.cycle := by simp [Dev.accept]
@[simp] theorem Dev.accept_sup_txImage (d : Dev) (path ix sub : Nat) : (d.accept path ix sub).sup.txImage = d.sup.txImage := by simp [Dev.accept]
@[simp] theorem Dev.accept_sup_commitFrom (d : Dev) (path ix sub : Nat) : (d.accept path ix sub).sup.commitFrom = d.sup.commitFrom := by simp [Dev.accept]
@[simp] theorem Dev.accept_sup_dropped (d : Dev) (path ix sub : Nat) : (d.accept path ix sub).sup.dropped = d.sup.dropped := by simp [Dev.accept]
@[simp] theorem Dev.accept_sup_answers (d : Dev) (path ix sub : Nat) : (d.accept path ix sub).sup.answers = d.sup.answers := by simp [Dev.accept]
@[simp] theorem Dev.accept_pwr_entering (d : Dev) (path ix sub : Nat) : (d.accept path ix sub).pwr.entering = d.pwr.entering := by simp [Dev.accept]
@[simp] theorem Dev.accept_pwr_asleep (d : Dev) (path ix sub : Nat) : (d.accept path ix sub).pwr.asleep = d.pwr.asleep := by simp [Dev.accept]
@[simp] theorem Dev.accept_pwr_waking (d : Dev) (path ix sub : Nat) : (d.accept path ix sub).pwr.waking = d.pwr.waking := by simp [Dev.accept]
@[simp] theorem Dev.accept_pwr_before (d : Dev) (path ix sub : Nat) : (d.accept path ix sub).pwr.before = d.pwr.before := by simp [Dev.accept]
@[simp] theorem Dev.accept_pwr_since (d : Dev) (path ix sub : Nat) : (d.accept path ix sub).pwr.since = d.pwr.since := by simp [Dev.accept]
@[simp] theorem Dev.accept_pwr_degradedAt (d : Dev) (path ix sub : Nat) : (d.accept path ix sub).pwr.degradedAt = d.pwr.degradedAt := by simp [Dev.accept]
@[simp] theorem Dev.accept_pwr_steps (d : Dev) (path ix sub : Nat) : (d.accept path ix sub).pwr.steps = d.pwr.steps := by simp [Dev.accept]
@[simp] theorem Dev.accept_pwr_engaged (d : Dev) (path ix sub : Nat) : (d.accept path ix sub).pwr.engaged = d.pwr.engaged := by simp [Dev.accept]
@[simp] theorem Dev.accept_pwr_released (d : Dev) (path ix sub : Nat) : (d.accept path ix sub).pwr.released = d.pwr.released := by simp [Dev.accept]
@[simp] theorem Dev.accept_pwr_want (d : Dev) (path ix sub : Nat) : (d.accept path ix sub).pwr.want = d.pwr.want := by simp [Dev.accept]
@[simp] theorem Dev.accept_pwr_shed (d : Dev) (path ix sub : Nat) : (d.accept path ix sub).pwr.shed = d.pwr.shed := by simp [Dev.accept]
@[simp] theorem Dev.accept_pwr_hot (d : Dev) (path ix sub : Nat) : (d.accept path ix sub).pwr.hot = d.pwr.hot := by simp [Dev.accept]
@[simp] theorem Dev.accept_pwr_returned (d : Dev) (path ix sub : Nat) : (d.accept path ix sub).pwr.returned = d.pwr.returned := by simp [Dev.accept]

/-! ### Parts that `answer` leaves within what it changes -/

@[simp] theorem Dev.answer_sup_running (d : Dev) (a : Answer) : (d.answer a).sup.running = d.sup.running := rfl
@[simp] theorem Dev.answer_sup_restarting (d : Dev) (a : Answer) : (d.answer a).sup.restarting = d.sup.restarting := rfl
@[simp] theorem Dev.answer_sup_al (d : Dev) (a : Answer) : (d.answer a).sup.al = d.sup.al := rfl
@[simp] theorem Dev.answer_sup_alStatus (d : Dev) (a : Answer) : (d.answer a).sup.alStatus = d.sup.alStatus := rfl
@[simp] theorem Dev.answer_sup_alError (d : Dev) (a : Answer) : (d.answer a).sup.alError = d.sup.alError := rfl
@[simp] theorem Dev.answer_sup_queued (d : Dev) (a : Answer) : (d.answer a).sup.queued = d.sup.queued := rfl
@[simp] theorem Dev.answer_sup_queueLost (d : Dev) (a : Answer) : (d.answer a).sup.queueLost = d.sup.queueLost := rfl
@[simp] theorem Dev.answer_sup_rejected (d : Dev) (a : Answer) : (d.answer a).sup.rejected = d.sup.rejected := rfl
@[simp] theorem Dev.answer_sup_latch (d : Dev) (a : Answer) : (d.answer a).sup.latch = d.sup.latch := rfl
@[simp] theorem Dev.answer_sup_lowHalf (d : Dev) (a : Answer) : (d.answer a).sup.lowHalf = d.sup.lowHalf := rfl
@[simp] theorem Dev.answer_sup_bulk (d : Dev) (a : Answer) : (d.answer a).sup.bulk = d.sup.bulk := rfl
@[simp] theorem Dev.answer_sup_bulkRead (d : Dev) (a : Answer) : (d.answer a).sup.bulkRead = d.sup.bulkRead := rfl
@[simp] theorem Dev.answer_sup_emergencies (d : Dev) (a : Answer) : (d.answer a).sup.emergencies = d.sup.emergencies := rfl
@[simp] theorem Dev.answer_sup_sent (d : Dev) (a : Answer) : (d.answer a).sup.sent = d.sup.sent := rfl
@[simp] theorem Dev.answer_sup_lastSent (d : Dev) (a : Answer) : (d.answer a).sup.lastSent = d.sup.lastSent := rfl
@[simp] theorem Dev.answer_sup_errSince (d : Dev) (a : Answer) : (d.answer a).sup.errSince = d.sup.errSince := rfl
@[simp] theorem Dev.answer_sup_rxLast (d : Dev) (a : Answer) : (d.answer a).sup.rxLast = d.sup.rxLast := rfl
@[simp] theorem Dev.answer_sup_rxAt (d : Dev) (a : Answer) : (d.answer a).sup.rxAt = d.sup.rxAt := rfl
@[simp] theorem Dev.answer_sup_rxMap (d : Dev) (a : Answer) : (d.answer a).sup.rxMap = d.sup.rxMap := rfl
@[simp] theorem Dev.answer_sup_txMap (d : Dev) (a : Answer) : (d.answer a).sup.txMap = d.sup.txMap := rfl
@[simp] theorem Dev.answer_sup_cycle (d : Dev) (a : Answer) : (d.answer a).sup.cycle = d.sup.cycle := rfl
@[simp] theorem Dev.answer_sup_txImage (d : Dev) (a : Answer) : (d.answer a).sup.txImage = d.sup.txImage := rfl
@[simp] theorem Dev.answer_sup_commitFrom (d : Dev) (a : Answer) : (d.answer a).sup.commitFrom = d.sup.commitFrom := rfl
@[simp] theorem Dev.answer_sup_dropped (d : Dev) (a : Answer) : (d.answer a).sup.dropped = d.sup.dropped := rfl

/-! ### Parts that `heatEnds` leaves within what it changes -/

@[simp] theorem Dev.heatEnds_sup_running (d : Dev)  : (d.heatEnds).sup.running = d.sup.running := by unfold Dev.heatEnds; split <;> rfl
@[simp] theorem Dev.heatEnds_sup_restarting (d : Dev)  : (d.heatEnds).sup.restarting = d.sup.restarting := by unfold Dev.heatEnds; split <;> rfl
@[simp] theorem Dev.heatEnds_sup_al (d : Dev)  : (d.heatEnds).sup.al = d.sup.al := by unfold Dev.heatEnds; split <;> rfl
@[simp] theorem Dev.heatEnds_sup_alStatus (d : Dev)  : (d.heatEnds).sup.alStatus = d.sup.alStatus := by unfold Dev.heatEnds; split <;> rfl
@[simp] theorem Dev.heatEnds_sup_alError (d : Dev)  : (d.heatEnds).sup.alError = d.sup.alError := by unfold Dev.heatEnds; split <;> rfl
@[simp] theorem Dev.heatEnds_sup_queued (d : Dev)  : (d.heatEnds).sup.queued = d.sup.queued := by unfold Dev.heatEnds; split <;> rfl
@[simp] theorem Dev.heatEnds_sup_queueLost (d : Dev)  : (d.heatEnds).sup.queueLost = d.sup.queueLost := by unfold Dev.heatEnds; split <;> rfl
@[simp] theorem Dev.heatEnds_sup_rejected (d : Dev)  : (d.heatEnds).sup.rejected = d.sup.rejected := by unfold Dev.heatEnds; split <;> rfl
@[simp] theorem Dev.heatEnds_sup_latch (d : Dev)  : (d.heatEnds).sup.latch = d.sup.latch := by unfold Dev.heatEnds; split <;> rfl
@[simp] theorem Dev.heatEnds_sup_lowHalf (d : Dev)  : (d.heatEnds).sup.lowHalf = d.sup.lowHalf := by unfold Dev.heatEnds; split <;> rfl
@[simp] theorem Dev.heatEnds_sup_bulk (d : Dev)  : (d.heatEnds).sup.bulk = d.sup.bulk := by unfold Dev.heatEnds; split <;> rfl
@[simp] theorem Dev.heatEnds_sup_bulkRead (d : Dev)  : (d.heatEnds).sup.bulkRead = d.sup.bulkRead := by unfold Dev.heatEnds; split <;> rfl
@[simp] theorem Dev.heatEnds_sup_emergencies (d : Dev)  : (d.heatEnds).sup.emergencies = d.sup.emergencies := by unfold Dev.heatEnds; split <;> rfl
@[simp] theorem Dev.heatEnds_sup_sent (d : Dev)  : (d.heatEnds).sup.sent = d.sup.sent := by unfold Dev.heatEnds; split <;> rfl
@[simp] theorem Dev.heatEnds_sup_lastSent (d : Dev)  : (d.heatEnds).sup.lastSent = d.sup.lastSent := by unfold Dev.heatEnds; split <;> rfl
@[simp] theorem Dev.heatEnds_sup_rxLast (d : Dev)  : (d.heatEnds).sup.rxLast = d.sup.rxLast := by unfold Dev.heatEnds; split <;> rfl
@[simp] theorem Dev.heatEnds_sup_rxAt (d : Dev)  : (d.heatEnds).sup.rxAt = d.sup.rxAt := by unfold Dev.heatEnds; split <;> rfl
@[simp] theorem Dev.heatEnds_sup_rxMap (d : Dev)  : (d.heatEnds).sup.rxMap = d.sup.rxMap := by unfold Dev.heatEnds; split <;> rfl
@[simp] theorem Dev.heatEnds_sup_txMap (d : Dev)  : (d.heatEnds).sup.txMap = d.sup.txMap := by unfold Dev.heatEnds; split <;> rfl
@[simp] theorem Dev.heatEnds_sup_cycle (d : Dev)  : (d.heatEnds).sup.cycle = d.sup.cycle := by unfold Dev.heatEnds; split <;> rfl
@[simp] theorem Dev.heatEnds_sup_txImage (d : Dev)  : (d.heatEnds).sup.txImage = d.sup.txImage := by unfold Dev.heatEnds; split <;> rfl
@[simp] theorem Dev.heatEnds_sup_commitFrom (d : Dev)  : (d.heatEnds).sup.commitFrom = d.sup.commitFrom := by unfold Dev.heatEnds; split <;> rfl
@[simp] theorem Dev.heatEnds_sup_dropped (d : Dev)  : (d.heatEnds).sup.dropped = d.sup.dropped := by unfold Dev.heatEnds; split <;> rfl
@[simp] theorem Dev.heatEnds_sup_answers (d : Dev)  : (d.heatEnds).sup.answers = d.sup.answers := by unfold Dev.heatEnds; split <;> rfl

/-! ### Parts that `stage` leaves within what it changes -/

@[simp] theorem Dev.stage_cut_user (d : Dev) (w : SWrite) : (d.stage w).cut.user = d.cut.user := by simp only [Dev.stage]; split <;> simp
@[simp] theorem Dev.stage_cut_engine (d : Dev) (w : SWrite) : (d.stage w).cut.engine = d.cut.engine := by simp only [Dev.stage]; split <;> simp
@[simp] theorem Dev.stage_cut_seqTaken (d : Dev) (w : SWrite) : (d.stage w).cut.seqTaken = d.cut.seqTaken := by simp only [Dev.stage]; split <;> simp
@[simp] theorem Dev.stage_cut_shadow (d : Dev) (w : SWrite) : (d.stage w).cut.shadow = d.cut.shadow := by simp only [Dev.stage]; split <;> simp

/-! ### Parts that `shadow` leaves within what it changes -/

@[simp] theorem Dev.shadow_cut_staged (d : Dev) (w : SWrite) : (d.shadow w).cut.staged = d.cut.staged := rfl
@[simp] theorem Dev.shadow_cut_user (d : Dev) (w : SWrite) : (d.shadow w).cut.user = d.cut.user := rfl
@[simp] theorem Dev.shadow_cut_engine (d : Dev) (w : SWrite) : (d.shadow w).cut.engine = d.cut.engine := rfl
@[simp] theorem Dev.shadow_cut_seqTaken (d : Dev) (w : SWrite) : (d.shadow w).cut.seqTaken = d.cut.seqTaken := rfl

/-! ### Parts that `nextCut` leaves within what it changes -/

@[simp] theorem Dev.nextCut_cut_staged (d : Dev)  : (d.nextCut.2).cut.staged = d.cut.staged := rfl
@[simp] theorem Dev.nextCut_cut_user (d : Dev)  : (d.nextCut.2).cut.user = d.cut.user := rfl
@[simp] theorem Dev.nextCut_cut_engine (d : Dev)  : (d.nextCut.2).cut.engine = d.cut.engine := rfl
@[simp] theorem Dev.nextCut_cut_shadow (d : Dev)  : (d.nextCut.2).cut.shadow = d.cut.shadow := rfl

/-! ### Parts that `engineCut` leaves within what it changes -/

@[simp] theorem Dev.engineCut_cut_staged (d : Dev) (c : Cut) : (d.engineCut c).cut.staged = d.cut.staged := by simp [Dev.engineCut]
@[simp] theorem Dev.engineCut_cut_user (d : Dev) (c : Cut) : (d.engineCut c).cut.user = d.cut.user := by simp [Dev.engineCut]
@[simp] theorem Dev.engineCut_cut_seqTaken (d : Dev) (c : Cut) : (d.engineCut c).cut.seqTaken = d.cut.seqTaken := by simp [Dev.engineCut]
@[simp] theorem Dev.engineCut_cut_shadow (d : Dev) (c : Cut) : (d.engineCut c).cut.shadow = d.cut.shadow := by simp [Dev.engineCut]

/-! ### `served` -/

@[simp] theorem Dev.served_now (d e : Dev) (path : Nat) : (d.served e path).now = e.now := by unfold Dev.served; split <;> simp
@[simp] theorem Dev.served_long (d e : Dev) (path : Nat) : (d.served e path).long = e.long := by unfold Dev.served; split <;> simp
@[simp] theorem Dev.served_drawn (d e : Dev) (path : Nat) : (d.served e path).drawn = e.drawn := by unfold Dev.served; split <;> simp
@[simp] theorem Dev.served_out (d e : Dev) (path : Nat) : (d.served e path).out = e.out := by unfold Dev.served; split <;> simp
@[simp] theorem Dev.served_cut (d e : Dev) (path : Nat) : (d.served e path).cut = e.cut := by unfold Dev.served; split <;> simp
@[simp] theorem Dev.served_hw (d e : Dev) (path : Nat) : (d.served e path).hw = e.hw := by unfold Dev.served; split <;> simp
@[simp] theorem Dev.served_boot (d e : Dev) (path : Nat) : (d.served e path).boot = e.boot := by unfold Dev.served; split <;> simp
@[simp] theorem Dev.served_sup (d e : Dev) (path : Nat) : (d.served e path).sup = e.sup := by unfold Dev.served; split <;> simp
@[simp] theorem Dev.served_flt (d e : Dev) (path : Nat) : (d.served e path).flt = e.flt := by unfold Dev.served; split <;> simp
@[simp] theorem Dev.served_itk (d e : Dev) (path : Nat) : (d.served e path).itk = e.itk := by unfold Dev.served; split <;> simp
@[simp] theorem Dev.served_chn (d e : Dev) (path : Nat) : (d.served e path).chn = e.chn := by unfold Dev.served; split <;> simp
@[simp] theorem Dev.served_spe (d e : Dev) (path : Nat) : (d.served e path).spe = e.spe := by unfold Dev.served; split <;> simp
@[simp] theorem Dev.served_tb (d e : Dev) (path : Nat) : (d.served e path).tb = e.tb := by unfold Dev.served; split <;> simp
@[simp] theorem Dev.served_cap (d e : Dev) (path : Nat) : (d.served e path).cap = e.cap := by unfold Dev.served; split <;> simp
@[simp] theorem Dev.served_trg (d e : Dev) (path : Nat) : (d.served e path).trg = e.trg := by unfold Dev.served; split <;> simp
@[simp] theorem Dev.served_den (d e : Dev) (path : Nat) : (d.served e path).den = e.den := by unfold Dev.served; split <;> simp
@[simp] theorem Dev.served_vp (d e : Dev) (path : Nat) : (d.served e path).vp = e.vp := by unfold Dev.served; split <;> simp
@[simp] theorem Dev.served_str (d e : Dev) (path : Nat) : (d.served e path).str = e.str := by unfold Dev.served; split <;> simp
@[simp] theorem Dev.served_im (d e : Dev) (path : Nat) : (d.served e path).im = e.im := by unfold Dev.served; split <;> simp
@[simp] theorem Dev.served_cf (d e : Dev) (path : Nat) : (d.served e path).cf = e.cf := by unfold Dev.served; split <;> simp
@[simp] theorem Dev.served_pwr (d e : Dev) (path : Nat) : (d.served e path).pwr = e.pwr := by unfold Dev.served; split <;> simp
@[simp] theorem Dev.served_cal (d e : Dev) (path : Nat) : (d.served e path).cal = e.cal := by unfold Dev.served; split <;> simp
@[simp] theorem Dev.served_ctr_counts (d e : Dev) (path : Nat) : (d.served e path).ctr.counts = e.ctr.counts := by unfold Dev.served; split <;> simp
@[simp] theorem Dev.served_ctr_clocks (d e : Dev) (path : Nat) : (d.served e path).ctr.clocks = e.ctr.clocks := by unfold Dev.served; split <;> simp
@[simp] theorem Dev.served_ctr_acked (d e : Dev) (path : Nat) : (d.served e path).ctr.acked = e.ctr.acked := by unfold Dev.served; split <;> simp
@[simp] theorem Dev.served_ctr_frozen (d e : Dev) (path : Nat) : (d.served e path).ctr.frozen = e.ctr.frozen := by unfold Dev.served; split <;> simp
@[simp] theorem Dev.served_ctr_freezeAt (d e : Dev) (path : Nat) : (d.served e path).ctr.freezeAt = e.ctr.freezeAt := by unfold Dev.served; split <;> simp
@[simp] theorem Dev.served_ctr_releaseAt (d e : Dev) (path : Nat) : (d.served e path).ctr.releaseAt = e.ctr.releaseAt := by unfold Dev.served; split <;> simp
@[simp] theorem Dev.served_ctr_banks (d e : Dev) (path : Nat) : (d.served e path).ctr.banks = e.ctr.banks := by unfold Dev.served; split <;> simp
@[simp] theorem Dev.served_ctr_snapAt (d e : Dev) (path : Nat) : (d.served e path).ctr.snapAt = e.ctr.snapAt := by unfold Dev.served; split <;> simp
@[simp] theorem Dev.served_ctr_skipRaised (d e : Dev) (path : Nat) : (d.served e path).ctr.skipRaised = e.ctr.skipRaised := by unfold Dev.served; split <;> simp
@[simp] theorem Dev.served_ctr_samplers (d e : Dev) (path : Nat) : (d.served e path).ctr.samplers = e.ctr.samplers := by unfold Dev.served; split <;> simp
@[simp] theorem Dev.served_ctr_slots (d e : Dev) (path : Nat) : (d.served e path).ctr.slots = e.ctr.slots := by unfold Dev.served; split <;> simp
@[simp] theorem Dev.served_ctr_periodAt (d e : Dev) (path : Nat) : (d.served e path).ctr.periodAt = e.ctr.periodAt := by unfold Dev.served; split <;> simp

/-! ### `faultWithin` -/

@[simp] theorem Dev.faultWithin_now (d : Dev) (cls c isl inst value b : Nat) : (d.faultWithin cls c isl inst value b).now = d.now := by simp [Dev.faultWithin, Dev.within]
@[simp] theorem Dev.faultWithin_long (d : Dev) (cls c isl inst value b : Nat) : (d.faultWithin cls c isl inst value b).long = d.long := by simp [Dev.faultWithin, Dev.within]
@[simp] theorem Dev.faultWithin_out (d : Dev) (cls c isl inst value b : Nat) : (d.faultWithin cls c isl inst value b).out = d.out := by simp [Dev.faultWithin, Dev.within]
@[simp] theorem Dev.faultWithin_cut (d : Dev) (cls c isl inst value b : Nat) : (d.faultWithin cls c isl inst value b).cut = d.cut := by simp [Dev.faultWithin, Dev.within]
@[simp] theorem Dev.faultWithin_hw (d : Dev) (cls c isl inst value b : Nat) : (d.faultWithin cls c isl inst value b).hw = d.hw := by simp [Dev.faultWithin, Dev.within]
@[simp] theorem Dev.faultWithin_boot (d : Dev) (cls c isl inst value b : Nat) : (d.faultWithin cls c isl inst value b).boot = d.boot := by simp [Dev.faultWithin, Dev.within]
@[simp] theorem Dev.faultWithin_itk (d : Dev) (cls c isl inst value b : Nat) : (d.faultWithin cls c isl inst value b).itk = d.itk := by simp [Dev.faultWithin, Dev.within]
@[simp] theorem Dev.faultWithin_chn (d : Dev) (cls c isl inst value b : Nat) : (d.faultWithin cls c isl inst value b).chn = d.chn := by simp [Dev.faultWithin, Dev.within]
@[simp] theorem Dev.faultWithin_spe (d : Dev) (cls c isl inst value b : Nat) : (d.faultWithin cls c isl inst value b).spe = d.spe := by simp [Dev.faultWithin, Dev.within]
@[simp] theorem Dev.faultWithin_tb (d : Dev) (cls c isl inst value b : Nat) : (d.faultWithin cls c isl inst value b).tb = d.tb := by simp [Dev.faultWithin, Dev.within]
@[simp] theorem Dev.faultWithin_cap (d : Dev) (cls c isl inst value b : Nat) : (d.faultWithin cls c isl inst value b).cap = d.cap := by simp [Dev.faultWithin, Dev.within]
@[simp] theorem Dev.faultWithin_trg (d : Dev) (cls c isl inst value b : Nat) : (d.faultWithin cls c isl inst value b).trg = d.trg := by simp [Dev.faultWithin, Dev.within]
@[simp] theorem Dev.faultWithin_den (d : Dev) (cls c isl inst value b : Nat) : (d.faultWithin cls c isl inst value b).den = d.den := by simp [Dev.faultWithin, Dev.within]
@[simp] theorem Dev.faultWithin_vp (d : Dev) (cls c isl inst value b : Nat) : (d.faultWithin cls c isl inst value b).vp = d.vp := by simp [Dev.faultWithin, Dev.within]
@[simp] theorem Dev.faultWithin_str (d : Dev) (cls c isl inst value b : Nat) : (d.faultWithin cls c isl inst value b).str = d.str := by simp [Dev.faultWithin, Dev.within]
@[simp] theorem Dev.faultWithin_im (d : Dev) (cls c isl inst value b : Nat) : (d.faultWithin cls c isl inst value b).im = d.im := by simp [Dev.faultWithin, Dev.within]
@[simp] theorem Dev.faultWithin_cf (d : Dev) (cls c isl inst value b : Nat) : (d.faultWithin cls c isl inst value b).cf = d.cf := by simp [Dev.faultWithin, Dev.within]
@[simp] theorem Dev.faultWithin_pwr (d : Dev) (cls c isl inst value b : Nat) : (d.faultWithin cls c isl inst value b).pwr = d.pwr := by simp [Dev.faultWithin, Dev.within]
@[simp] theorem Dev.faultWithin_cal (d : Dev) (cls c isl inst value b : Nat) : (d.faultWithin cls c isl inst value b).cal = d.cal := by simp [Dev.faultWithin, Dev.within]
@[simp] theorem Dev.faultWithin_sup_running (d : Dev) (cls c isl inst value b : Nat) : (d.faultWithin cls c isl inst value b).sup.running = d.sup.running := by simp [Dev.faultWithin, Dev.within]
@[simp] theorem Dev.faultWithin_sup_restarting (d : Dev) (cls c isl inst value b : Nat) : (d.faultWithin cls c isl inst value b).sup.restarting = d.sup.restarting := by simp [Dev.faultWithin, Dev.within]
@[simp] theorem Dev.faultWithin_sup_al (d : Dev) (cls c isl inst value b : Nat) : (d.faultWithin cls c isl inst value b).sup.al = d.sup.al := by simp [Dev.faultWithin, Dev.within]
@[simp] theorem Dev.faultWithin_sup_alStatus (d : Dev) (cls c isl inst value b : Nat) : (d.faultWithin cls c isl inst value b).sup.alStatus = d.sup.alStatus := by simp [Dev.faultWithin, Dev.within]
@[simp] theorem Dev.faultWithin_sup_alError (d : Dev) (cls c isl inst value b : Nat) : (d.faultWithin cls c isl inst value b).sup.alError = d.sup.alError := by simp [Dev.faultWithin, Dev.within]
@[simp] theorem Dev.faultWithin_sup_queued (d : Dev) (cls c isl inst value b : Nat) : (d.faultWithin cls c isl inst value b).sup.queued = d.sup.queued := by simp [Dev.faultWithin, Dev.within]
@[simp] theorem Dev.faultWithin_sup_queueLost (d : Dev) (cls c isl inst value b : Nat) : (d.faultWithin cls c isl inst value b).sup.queueLost = d.sup.queueLost := by simp [Dev.faultWithin, Dev.within]
@[simp] theorem Dev.faultWithin_sup_rejected (d : Dev) (cls c isl inst value b : Nat) : (d.faultWithin cls c isl inst value b).sup.rejected = d.sup.rejected := by simp [Dev.faultWithin, Dev.within]
@[simp] theorem Dev.faultWithin_sup_latch (d : Dev) (cls c isl inst value b : Nat) : (d.faultWithin cls c isl inst value b).sup.latch = d.sup.latch := by simp [Dev.faultWithin, Dev.within]
@[simp] theorem Dev.faultWithin_sup_lowHalf (d : Dev) (cls c isl inst value b : Nat) : (d.faultWithin cls c isl inst value b).sup.lowHalf = d.sup.lowHalf := by simp [Dev.faultWithin, Dev.within]
@[simp] theorem Dev.faultWithin_sup_bulk (d : Dev) (cls c isl inst value b : Nat) : (d.faultWithin cls c isl inst value b).sup.bulk = d.sup.bulk := by simp [Dev.faultWithin, Dev.within]
@[simp] theorem Dev.faultWithin_sup_bulkRead (d : Dev) (cls c isl inst value b : Nat) : (d.faultWithin cls c isl inst value b).sup.bulkRead = d.sup.bulkRead := by simp [Dev.faultWithin, Dev.within]
@[simp] theorem Dev.faultWithin_sup_sent (d : Dev) (cls c isl inst value b : Nat) : (d.faultWithin cls c isl inst value b).sup.sent = d.sup.sent := by simp [Dev.faultWithin, Dev.within]
@[simp] theorem Dev.faultWithin_sup_lastSent (d : Dev) (cls c isl inst value b : Nat) : (d.faultWithin cls c isl inst value b).sup.lastSent = d.sup.lastSent := by simp [Dev.faultWithin, Dev.within]
@[simp] theorem Dev.faultWithin_sup_rxLast (d : Dev) (cls c isl inst value b : Nat) : (d.faultWithin cls c isl inst value b).sup.rxLast = d.sup.rxLast := by simp [Dev.faultWithin, Dev.within]
@[simp] theorem Dev.faultWithin_sup_rxMap (d : Dev) (cls c isl inst value b : Nat) : (d.faultWithin cls c isl inst value b).sup.rxMap = d.sup.rxMap := by simp [Dev.faultWithin, Dev.within]
@[simp] theorem Dev.faultWithin_sup_txMap (d : Dev) (cls c isl inst value b : Nat) : (d.faultWithin cls c isl inst value b).sup.txMap = d.sup.txMap := by simp [Dev.faultWithin, Dev.within]
@[simp] theorem Dev.faultWithin_sup_cycle (d : Dev) (cls c isl inst value b : Nat) : (d.faultWithin cls c isl inst value b).sup.cycle = d.sup.cycle := by simp [Dev.faultWithin, Dev.within]
@[simp] theorem Dev.faultWithin_sup_txImage (d : Dev) (cls c isl inst value b : Nat) : (d.faultWithin cls c isl inst value b).sup.txImage = d.sup.txImage := by simp [Dev.faultWithin, Dev.within]
@[simp] theorem Dev.faultWithin_sup_commitFrom (d : Dev) (cls c isl inst value b : Nat) : (d.faultWithin cls c isl inst value b).sup.commitFrom = d.sup.commitFrom := by simp [Dev.faultWithin, Dev.within]
@[simp] theorem Dev.faultWithin_sup_dropped (d : Dev) (cls c isl inst value b : Nat) : (d.faultWithin cls c isl inst value b).sup.dropped = d.sup.dropped := by simp [Dev.faultWithin, Dev.within]
@[simp] theorem Dev.faultWithin_sup_answers (d : Dev) (cls c isl inst value b : Nat) : (d.faultWithin cls c isl inst value b).sup.answers = d.sup.answers := by simp [Dev.faultWithin, Dev.within]
@[simp] theorem Dev.faultWithin_flt_repoint (d : Dev) (cls c isl inst value b : Nat) : (d.faultWithin cls c isl inst value b).flt.repoint = d.flt.repoint := by simp [Dev.faultWithin, Dev.within]
@[simp] theorem Dev.faultWithin_flt_standbyFailed (d : Dev) (cls c isl inst value b : Nat) : (d.faultWithin cls c isl inst value b).flt.standbyFailed = d.flt.standbyFailed := by simp [Dev.faultWithin, Dev.within]
@[simp] theorem Dev.faultWithin_flt_trial (d : Dev) (cls c isl inst value b : Nat) : (d.faultWithin cls c isl inst value b).flt.trial = d.flt.trial := by simp [Dev.faultWithin, Dev.within]
@[simp] theorem Dev.faultWithin_flt_previous (d : Dev) (cls c isl inst value b : Nat) : (d.faultWithin cls c isl inst value b).flt.previous = d.flt.previous := by simp [Dev.faultWithin, Dev.within]
@[simp] theorem Dev.faultWithin_flt_round (d : Dev) (cls c isl inst value b : Nat) : (d.faultWithin cls c isl inst value b).flt.round = d.flt.round := by simp [Dev.faultWithin, Dev.within]
@[simp] theorem Dev.faultWithin_flt_roundDone (d : Dev) (cls c isl inst value b : Nat) : (d.faultWithin cls c isl inst value b).flt.roundDone = d.flt.roundDone := by simp [Dev.faultWithin, Dev.within]
@[simp] theorem Dev.faultWithin_flt_drains (d : Dev) (cls c isl inst value b : Nat) : (d.faultWithin cls c isl inst value b).flt.drains = d.flt.drains := by simp [Dev.faultWithin, Dev.within]
@[simp] theorem Dev.faultWithin_flt_selfTests (d : Dev) (cls c isl inst value b : Nat) : (d.faultWithin cls c isl inst value b).flt.selfTests = d.flt.selfTests := by simp [Dev.faultWithin, Dev.within]
@[simp] theorem Dev.faultWithin_ctr_counts (d : Dev) (cls c isl inst value b : Nat) : (d.faultWithin cls c isl inst value b).ctr.counts = d.ctr.counts := by simp [Dev.faultWithin, Dev.within]
@[simp] theorem Dev.faultWithin_ctr_clocks (d : Dev) (cls c isl inst value b : Nat) : (d.faultWithin cls c isl inst value b).ctr.clocks = d.ctr.clocks := by simp [Dev.faultWithin, Dev.within]
@[simp] theorem Dev.faultWithin_ctr_acked (d : Dev) (cls c isl inst value b : Nat) : (d.faultWithin cls c isl inst value b).ctr.acked = d.ctr.acked := by simp [Dev.faultWithin, Dev.within]
@[simp] theorem Dev.faultWithin_ctr_frozen (d : Dev) (cls c isl inst value b : Nat) : (d.faultWithin cls c isl inst value b).ctr.frozen = d.ctr.frozen := by simp [Dev.faultWithin, Dev.within]
@[simp] theorem Dev.faultWithin_ctr_freezeAt (d : Dev) (cls c isl inst value b : Nat) : (d.faultWithin cls c isl inst value b).ctr.freezeAt = d.ctr.freezeAt := by simp [Dev.faultWithin, Dev.within]
@[simp] theorem Dev.faultWithin_ctr_releaseAt (d : Dev) (cls c isl inst value b : Nat) : (d.faultWithin cls c isl inst value b).ctr.releaseAt = d.ctr.releaseAt := by simp [Dev.faultWithin, Dev.within]
@[simp] theorem Dev.faultWithin_ctr_banks (d : Dev) (cls c isl inst value b : Nat) : (d.faultWithin cls c isl inst value b).ctr.banks = d.ctr.banks := by simp [Dev.faultWithin, Dev.within]
@[simp] theorem Dev.faultWithin_ctr_snapAt (d : Dev) (cls c isl inst value b : Nat) : (d.faultWithin cls c isl inst value b).ctr.snapAt = d.ctr.snapAt := by simp [Dev.faultWithin, Dev.within]
@[simp] theorem Dev.faultWithin_ctr_skipRaised (d : Dev) (cls c isl inst value b : Nat) : (d.faultWithin cls c isl inst value b).ctr.skipRaised = d.ctr.skipRaised := by simp [Dev.faultWithin, Dev.within]
@[simp] theorem Dev.faultWithin_ctr_samplers (d : Dev) (cls c isl inst value b : Nat) : (d.faultWithin cls c isl inst value b).ctr.samplers = d.ctr.samplers := by simp [Dev.faultWithin, Dev.within]

end Sys2Proof.Machine
end

