-- ==== Sys2Proof/Laws/Ops.lean ====
section
/-! SUPPORT. What each shared operation can do to the dictionary: the entries it may write, all others reading as before. -/

namespace Sys2Proof.Machine

theorem less_eq (a b : Nat) : less a b = a - b := by unfold less; omega

theorem Dev.rd_emitTo (d : Dev) (ring lostIx : Nat) (r : Rec) (ix sub inst : Nat) (h : lostIx ≠ ix ∨ lostIx = 0) :
    (d.emitTo ring lostIx r).rd ix sub inst = d.rd ix sub inst := by
  unfold Dev.emitTo
  split
  · rfl
  · split
    · rfl
    · split
      · rfl
      · next h0 => simp [h.resolve_right h0]

@[simp] theorem Dev.rd_emit (d : Dev) (isl : Nat) (r : Rec) (ix sub inst : Nat) (h : ix ∉ eventPlaces) :
    (d.emit isl r).rd ix sub inst = d.rd ix sub inst := by
  simp only [eventPlaces, List.mem_cons, not_or] at h
  simp only [Dev.emit]
  split
  · rfl
  · apply Dev.rd_emitTo
    left
    unfold eventRingOf at *
    (repeat' split) <;> exact Ne.symm (by simp_all)

@[simp] theorem Dev.rd_event (d : Dev) (isl tag kind obj time a b ix sub inst : Nat) (h : ix ∉ eventPlaces) :
    (d.event isl tag kind obj time a b).rd ix sub inst = d.rd ix sub inst := by
  simp only [Dev.event]
  rw [Dev.rd_emit _ _ _ _ _ _ h]
  rfl

@[simp] theorem Dev.rd_pwrEvent (d : Dev) (kind obj a b ix sub inst : Nat) (h : ix ∉ eventPlaces) :
    (d.pwrEvent kind obj a b).rd ix sub inst = d.rd ix sub inst := by
  simp [Dev.pwrEvent, Dev.rd_event _ _ _ _ _ _ _ _ _ _ _ h]

theorem Dev.rd_pushHistory (d : Dev) (c ix sub inst : Nat) (h : ix ≠ 0x1003) :
    (d.pushHistory c).rd ix sub inst = d.rd ix sub inst := by
  simp [Dev.pushHistory, List.range, List.range.loop, Ne.symm h]

theorem Dev.rd_placeCode (d : Dev) (path c ix sub inst : Nat) (h : ix ∉ codePlaces) :
    (d.placeCode path c).rd ix sub inst = d.rd ix sub inst := by
  simp [codePlaces] at h
  obtain ⟨-, -, h1, h2, h3, h4, -⟩ := h
  simp [Dev.placeCode, Ne.symm h1, Ne.symm h2, Ne.symm h3, Ne.symm h4]

theorem Dev.rd_setErrorBit (d : Dev) (c ix sub inst : Nat) (h : ix ≠ 0x1001) :
    (d.setErrorBit c).rd ix sub inst = d.rd ix sub inst := by
  unfold Dev.setErrorBit
  split <;> simp [Ne.symm h]

theorem Dev.rd_queueEmergency (d : Dev) (c : Emergency) (ix sub inst : Nat) (h : ix ∉ codePlaces) :
    (d.queueEmergency c).rd ix sub inst = d.rd ix sub inst := by
  simp [codePlaces] at h
  obtain ⟨-, -, h1, h2, h3, h4, h5, -⟩ := h
  unfold Dev.queueEmergency
  split <;> simp [Ne.symm h1, Ne.symm h2, Ne.symm h3, Ne.symm h4, Ne.symm h5]

theorem Dev.rd_logEntry (d : Dev) (c time isl inst cls value i ix sub n : Nat) (h : ix ≠ Ix.fltLogCount) :
    (d.logEntry c time isl inst cls value i).rd ix sub n = d.rd ix sub n := by
  simp at h
  simp [Dev.logEntry, Ne.symm h]

theorem codePlaces_error {ix : Nat} (h : ix ∉ codePlaces) : ix ≠ 0x1001 := by rintro rfl; exact h (by simp [codePlaces])
theorem codePlaces_history {ix : Nat} (h : ix ∉ codePlaces) : ix ≠ 0x1003 := by rintro rfl; exact h (by simp [codePlaces])
theorem codePlaces_log {ix : Nat} (h : ix ∉ codePlaces) : ix ≠ Ix.fltLogCount := by rintro rfl; exact h (by simp [codePlaces])

theorem Dev.rd_raiseBase (d : Dev) (path c ix sub inst : Nat) (h : ix ∉ codePlaces) :
    (d.raiseBase path c).rd ix sub inst = d.rd ix sub inst := by
  have key : (if codeSeverity c = 3 then ((d.placeCode path c).setErrorBit c).pushHistory c else (d.placeCode path c).setErrorBit c).rd ix sub inst
      = d.rd ix sub inst := by
    split
    · rw [Dev.rd_pushHistory _ _ _ _ _ (codePlaces_history h), Dev.rd_setErrorBit _ _ _ _ _ (codePlaces_error h), Dev.rd_placeCode _ _ _ _ _ _ h]
    · rw [Dev.rd_setErrorBit _ _ _ _ _ (codePlaces_error h), Dev.rd_placeCode _ _ _ _ _ _ h]
  simp only [Dev.raiseBase]
  by_cases hw : d.wantsEmergency c
  · simp only [hw, if_true]
    rw [Dev.rd_queueEmergency _ _ _ _ _ h, key]
  · simpa only [hw, Bool.false_eq_true, if_false] using key

/-- Raising a code writes nothing but the code's own places. -/
@[simp] theorem Dev.rd_raise (d : Dev) (path c ix sub inst : Nat) (h : ix ∉ codePlaces) :
    (d.raise path c).rd ix sub inst = d.rd ix sub inst := by
  simp only [Dev.raise]
  split
  · rw [Dev.rd_logEntry _ _ _ _ _ _ _ _ _ _ _ (codePlaces_log h), Dev.rd_raiseBase _ _ _ _ _ _ h]
  · exact Dev.rd_raiseBase _ _ _ _ _ _ h

@[simp] theorem Dev.rd_reject (d : Dev) (path c ix sub inst : Nat) (h : ix ∉ codePlaces) :
    (d.reject path c).rd ix sub inst = d.rd ix sub inst := Dev.rd_raise d path c ix sub inst h

/-- A fault of a class writes nothing but its own places. -/
@[simp] theorem Dev.rd_fault (d : Dev) (cls c isl inst value i ix sub n : Nat) (h : ix ∉ faultPlaces) :
    (d.fault cls c isl inst value i).rd ix sub n = d.rd ix sub n := by
  have hc : ix ∉ codePlaces := fun m => h (List.mem_cons_of_mem _ (List.mem_cons_of_mem _ m))
  simp only [faultPlaces, List.mem_cons, not_or] at h
  obtain ⟨h1, h2, -⟩ := h
  simp at h1 h2
  simp only [Dev.fault]
  rw [Dev.rd_logEntry _ _ _ _ _ _ _ _ _ _ _ (codePlaces_log hc)]
  split <;> split <;> simp [Dev.rd_raiseBase _ _ _ _ _ _ hc, Ne.symm h1, Ne.symm h2]

/-- The same where the interruption is only bounded. -/
@[simp] theorem Dev.rd_faultWithin (d : Dev) (cls c isl inst value b ix sub n : Nat) (h : ix ∉ faultPlaces) :
    (d.faultWithin cls c isl inst value b).rd ix sub n = d.rd ix sub n := by
  simp only [Dev.faultWithin]
  rw [Dev.rd_fault _ _ _ _ _ _ _ _ _ _ h]
  rfl

@[simp] theorem Dev.rd_setIslState (d : Dev) (isl st ix sub inst : Nat) (h : ix ∉ eventPlaces) (h' : Ix.pwrIslState ≠ ix) :
    (d.setIslState isl st).rd ix sub inst = d.rd ix sub inst := by
  simp only [Dev.setIslState]
  split
  · rfl
  · rw [Dev.rd_pwrEvent _ _ _ _ _ _ _ _ h]
    simp at h'
    simp [h']

@[simp] theorem Dev.rd_setDegraded (d : Dev) (v ix sub inst : Nat) (h : ix ∉ eventPlaces) (h' : ix ∉ codePlaces) (h'' : Ix.pwrDegraded ≠ ix) :
    (d.setDegraded v).rd ix sub inst = d.rd ix sub inst := by
  simp only [Dev.setDegraded]
  have key : ((d.w0 Ix.pwrDegraded v).pwrEvent 5 0 v (d.n0 Ix.pwrDegraded)).rd ix sub inst = d.rd ix sub inst := by
    rw [Dev.rd_pwrEvent _ _ _ _ _ _ _ _ h]
    simp at h''
    simp [h'']
  repeat' split
  all_goals first | rfl | exact key | (rw [Dev.rd_raise _ _ _ _ _ _ h', Dev.rd_mk]; exact key)

@[simp] theorem Dev.rd_degradedBit (d : Dev) (k : Nat) (on : Bool) (ix sub inst : Nat) (h : ix ∉ eventPlaces) (h' : ix ∉ codePlaces)
    (h'' : Ix.pwrDegraded ≠ ix) : (d.degradedBit k on).rd ix sub inst = d.rd ix sub inst := Dev.rd_setDegraded d _ ix sub inst h h' h''

@[simp] theorem Dev.rd_markWrite (d : Dev) (path ix sub : Nat) (ok : Bool) (ix' sub' inst' : Nat) :
    (d.markWrite path ix sub ok).rd ix' sub' inst' = d.rd ix' sub' inst' := Dev.rd_congr (d.markWrite_dict ..) ..

@[simp] theorem Dev.rd_accept (d : Dev) (path ix sub ix' sub' inst' : Nat) :
    (d.accept path ix sub).rd ix' sub' inst' = d.rd ix' sub' inst' := by simp [Dev.accept]

@[simp] theorem Dev.rd_served (d e : Dev) (path ix sub inst : Nat) (h : Ix.dictRequests ≠ ix) :
    (d.served e path).rd ix sub inst = e.rd ix sub inst := by
  unfold Dev.served
  split
  · simp at h; simp [h]
  · rfl

/-- Refusing a request writes nothing but the code's places and the count of rejections. -/
@[simp] theorem Dev.rd_refuse (d : Dev) (path ix sub c ix' sub' inst' : Nat) (h : ix' ∉ codePlaces) (h' : Ix.dictRejections ≠ ix') :
    (d.refuse path ix sub c).rd ix' sub' inst' = d.rd ix' sub' inst' := by
  simp only [Dev.refuse]
  split
  · simp only [Dev.incI_eq, Dev.rd_inc]
    simp only [h', false_and, if_false, Dev.rd_markWrite, Dev.rd_reject _ _ _ _ _ _ h]
  · simp only [Dev.rd_markWrite, Dev.rd_reject _ _ _ _ _ _ h]

/-- A command that reaches its island is served. -/
theorem Dev.command_reaches {d : Dev} {path ix : Nat} (h : d.reaches path ix) (sub : Nat) (v : Int) (f : Dev → Dev) :
    d.command path ix sub v f = d.served (f (d.accept path ix sub)) path := by
  obtain ⟨h1, h2, h3⟩ := h
  have : (!d.hw.pwrGood && needsPower ix) = false := by rcases h3 with h | h <;> simp [h]
  simp [Dev.command, h1, h2, this, Dev.serve]

@[simp] theorem Dev.rd_stage (d : Dev) (w : SWrite) (ix sub inst : Nat) (h : Ix.modCutState ≠ ix) :
    (d.stage w).rd ix sub inst = d.rd ix sub inst := by
  simp only [Dev.stage]
  split
  · rfl
  · simp only [Dev.w0_eq, Dev.rd_wr, h, false_and, if_false]; rfl

@[simp] theorem Dev.rd_engineCut (d : Dev) (c : Cut) (ix sub inst : Nat) (h : Ix.modCutState ≠ ix) :
    (d.engineCut c).rd ix sub inst = d.rd ix sub inst := by
  simp only [Dev.engineCut, Dev.w0_eq, Dev.rd_wr, h, false_and, if_false]; rfl

/-- An engine cut joins the end of the engine's queue, observed now, and `mod.cut_state` shows it. -/
@[simp] theorem Dev.engineCut_engine (d : Dev) (c : Cut) : (d.engineCut c).cut.engine = d.cut.engine ++ [{ c with observed := d.now }] := rfl

theorem Dev.engineCut_state (d : Dev) (c : Cut) : (d.engineCut c).rd Ix.modCutState 0 0 = 2 := by
  have : normTy (typeOf 8259 0) 2 = 2 := by decide
  simp [Dev.engineCut, this]

/-! ### Where a raised code is read back -/

theorem typeOf_lastError : typeOf Ix.fltLastError 0 = 7 := by decide

/-- The path that entry `sub` of the per-path errors belongs to has 32-bit codes. -/
theorem typeOf_pathError (path : Nat) (h : 1 ≤ path ∧ path ≤ 4) : typeOf Ix.fltPathError path = 7 := by
  have : ∀ k < 5, 1 ≤ k → typeOf Ix.fltPathError k = 7 := by decide
  exact this path (by omega) h.1

/-- A raised code is the last error and the error of its path, unless an emergency it could not queue came after it (R407, R420). -/
theorem Dev.raise_places (d : Dev) (path c : Nat) (hq : d.sup.emergencies.length < 32) (hc : c < 2 ^ 32) (hp : 1 ≤ path ∧ path ≤ 4) :
    (d.raise path c).rd Ix.fltLastError 0 0 = c ∧ (d.raise path c).rd Ix.fltPathError path 0 = c := by
  have key : ∀ e : Dev, e.rd Ix.fltLastError 0 0 = c ∧ e.rd Ix.fltPathError path 0 = c →
      e.sup.emergencies.length < 32 →
      ∀ x : Emergency, ((e.queueEmergency x).rd Ix.fltLastError 0 0 = c ∧ (e.queueEmergency x).rd Ix.fltPathError path 0 = c) := by
    intro e he hl x
    simpa [Dev.queueEmergency, hl] using he
  have hp1 : path - 1 + 1 = path := by omega
  have h0 : (d.placeCode path c).rd Ix.fltLastError 0 0 = c ∧ (d.placeCode path c).rd Ix.fltPathError path 0 = c := by
    have e1 := normTy_fits (ix := Ix.fltLastError) (sub := 0) (v := c) (n := 3) (by rw [typeOf_lastError]; rfl) (by rw [typeOf_lastError]; rfl) (by omega)
    have e2 := normTy_fits (ix := Ix.fltPathError) (sub := path) (v := c) (n := 3) (by rw [typeOf_pathError path hp]; rfl)
      (by rw [typeOf_pathError path hp]; rfl) (by omega)
    simp only [Ix.fltLastError, Ix.fltPathError] at e1 e2
    simp [Dev.placeCode, hp1, e1, e2]
  have h1 : ((d.placeCode path c).setErrorBit c).rd Ix.fltLastError 0 0 = c ∧ ((d.placeCode path c).setErrorBit c).rd Ix.fltPathError path 0 = c := by
    rwa [Dev.rd_setErrorBit _ _ _ _ _ (by simp), Dev.rd_setErrorBit _ _ _ _ _ (by simp)]
  have s1 : ((d.placeCode path c).setErrorBit c).sup.emergencies = d.sup.emergencies := by
    have : ∀ e : Dev, (e.setErrorBit c).sup.emergencies = e.sup.emergencies := by
      intro e; unfold Dev.setErrorBit; split <;> simp
    rw [this]; simp
  have h2 : (d.raiseBase path c).rd Ix.fltLastError 0 0 = c ∧ (d.raiseBase path c).rd Ix.fltPathError path 0 = c := by
    simp only [Dev.raiseBase]
    by_cases hs : codeSeverity c = 3 <;> by_cases hw : d.wantsEmergency c <;> simp only [hs, hw, if_true, if_false, Bool.false_eq_true]
    · apply key
      · rwa [Dev.rd_pushHistory _ _ _ _ _ (by simp), Dev.rd_pushHistory _ _ _ _ _ (by simp)]
      · simpa [s1] using hq
    · rwa [Dev.rd_pushHistory _ _ _ _ _ (by simp), Dev.rd_pushHistory _ _ _ _ _ (by simp)]
    · exact key _ h1 (by rw [s1]; exact hq) _
    · exact h1
  simp only [Dev.raise]
  split
  · rwa [Dev.rd_logEntry _ _ _ _ _ _ _ _ _ _ _ (by simp), Dev.rd_logEntry _ _ _ _ _ _ _ _ _ _ _ (by simp)]
  · exact h2

/-- A code of severity 2 that heats no register sends no emergency, so it always reads back from its places. -/
theorem Dev.raise_rejection_places (d : Dev) (path c : Nat) (hc : c < 2 ^ 32) (hs : codeSeverity c = 2) (hh : heatsRegister c = false)
    (hp : 1 ≤ path ∧ path ≤ 4) : (d.raise path c).rd Ix.fltLastError 0 0 = c ∧ (d.raise path c).rd Ix.fltPathError path 0 = c := by
  have hp1 : path - 1 + 1 = path := by omega
  have e1 := normTy_fits (ix := Ix.fltLastError) (sub := 0) (v := c) (n := 3) (by rw [typeOf_lastError]; rfl) (by rw [typeOf_lastError]; rfl) (by omega)
  have e2 := normTy_fits (ix := Ix.fltPathError) (sub := path) (v := c) (n := 3) (by rw [typeOf_pathError path hp]; rfl)
      (by rw [typeOf_pathError path hp]; rfl) (by omega)
  simp only [Ix.fltLastError, Ix.fltPathError] at e1 e2
  simp [Dev.raise, Dev.raiseBase, Dev.placeCode, Dev.setErrorBit, Dev.wantsEmergency, hs, hh, hp1, e1, e2]

/-- A refused request reads back its code (R401, R407). -/
theorem Dev.refuse_places (d : Dev) (path i sub c : Nat) (hc : c < 2 ^ 32) (hs : codeSeverity c = 2) (hh : heatsRegister c = false)
    (hp : 1 ≤ path ∧ path ≤ 4) :
    (d.refuse path i sub c).rd Ix.fltLastError 0 0 = c ∧ (d.refuse path i sub c).rd Ix.fltPathError path 0 = c := by
  have h := Dev.raise_rejection_places d path c hc hs hh hp
  simp only [Ix.fltLastError, Ix.fltPathError] at h ⊢
  simp only [Dev.refuse, Dev.reject]
  split <;> simp [h.1, h.2]

end Sys2Proof.Machine
end

