-- ==== Sys2Proof/Laws/Frame.lean ====
section
/-! SUPPORT. Frames compose: what an operation changes, the parts and entries of one after another, and the frame of each shared operation. -/

namespace Sys2Proof.Machine

/-- An operation that does nothing changes nothing. -/
theorem Dev.changesOnly_refl (pl : List Part) (ps : List Nat) (d : Dev) : d.changesOnly pl ps d :=
  ⟨fun p _ _ => by cases p <;> rfl, fun _ _ _ _ => rfl⟩

/-- One operation after another changes what either changes. -/
theorem Dev.changesOnly_trans {pl ql : List Part} {ps qs : List Nat} {a b c : Dev} (h : a.changesOnly pl ps b) (h' : b.changesOnly ql qs c) :
    a.changesOnly (pl ++ ql) (ps ++ qs) c := by
  constructor
  · intro p hp hd
    have h1 := h.1 p (fun m => hp (List.mem_append_left _ m)) hd
    have h2 := h'.1 p (fun m => hp (List.mem_append_right _ m)) hd
    cases p <;> simp only [Part.agrees] at * <;> exact h1.trans h2
  · intro ix sub inst hix
    rw [h'.2 ix sub inst (fun m => hix (List.mem_append_right _ m)), h.2 ix sub inst (fun m => hix (List.mem_append_left _ m))]

/-- A frame may be stated wider than it is. -/
theorem Dev.changesOnly_mono {pl ql : List Part} {ps qs : List Nat} {a b : Dev} (h : a.changesOnly pl ps b) (hp : ∀ p ∈ pl, p ∈ ql)
    (hq : ∀ x ∈ ps, x ∈ qs) : a.changesOnly ql qs b :=
  ⟨fun p m hd => h.1 p (fun k => m (hp p k)) hd, fun ix sub inst m => h.2 ix sub inst (fun k => m (hq ix k))⟩

/-- Two operations within one frame stay within it. -/
theorem Dev.changesOnly_step {pl : List Part} {ps : List Nat} {a b c : Dev} (h : a.changesOnly pl ps b) (h' : b.changesOnly pl ps c) :
    a.changesOnly pl ps c :=
  Dev.changesOnly_mono (Dev.changesOnly_trans h h') (by simp) (by simp)

/-- Each branch of a choice within a frame. -/
theorem Dev.changesOnly_ite {pl : List Part} {ps : List Nat} {a b c : Dev} {p : Prop} [Decidable p] (h : p → a.changesOnly pl ps b)
    (h' : ¬p → a.changesOnly pl ps c) : a.changesOnly pl ps (if p then b else c) := by
  split
  · exact h ‹_›
  · exact h' ‹_›

/-- A run over a list within a frame. -/
theorem Dev.changesOnly_foldl {β : Type} {pl : List Part} {ps : List Nat} (f : Dev → β → Dev) (h : ∀ (a : Dev) (x : β), a.changesOnly pl ps (f a x)) (l : List β) (d : Dev) :
    d.changesOnly pl ps (l.foldl f d) := by
  induction l generalizing d with
  | nil => exact Dev.changesOnly_refl ..
  | cons x r ih => exact Dev.changesOnly_step (h d x) (ih _)

/-! ### Entries -/

theorem Dev.wr_only (d : Dev) (ix sub inst : Nat) (v : Int) : d.changesOnly [] [ix] (d.wr ix sub inst v) := by
  refine ⟨fun p _ h => by cases p <;> first | rfl | exact absurd rfl h, fun ix' sub' inst' h => ?_⟩
  have : ix ≠ ix' := fun e => h (by simp [e])
  simp [this]

theorem Dev.inc_only (d : Dev) (ix sub inst k : Nat) : d.changesOnly [.ctr] [ix] (d.inc ix sub inst k) := by
  refine ⟨fun p hp h => by cases p <;> simp_all [Part.agrees], fun ix' sub' inst' h => ?_⟩
  have : ix ≠ ix' := fun e => h (by simp [e])
  simp [this]

theorem Dev.wTime_only (d : Dev) (ix t : Nat) : d.changesOnly [] [ix] (d.wTime ix t) := by
  rw [Dev.wTime_eq]; exact Dev.changesOnly_step (Dev.wr_only ..) (Dev.wr_only ..)

theorem Dev.wrAll_only (d : Dev) (ix v n : Nat) : d.changesOnly [] [ix] (d.wrAll ix v n) := by
  induction n with
  | zero => exact Dev.changesOnly_refl ..
  | succ n ih => exact Dev.changesOnly_step ih (Dev.wr_only ..)

/-! ### Records, events, gaps -/

theorem Dev.out_only (d : Dev) (o : Outputs) : d.changesOnly [.out] [] { d with out := o } :=
  ⟨fun p hp h => by cases p <;> first | rfl | exact absurd rfl h | simp at hp, fun _ _ _ _ => rfl⟩

theorem Dev.happen_only (d : Dev) (h : Happening) : d.changesOnly [.out] [] (d.happen h) := Dev.out_only ..
theorem Dev.gap_only (d : Dev) (g : Gap) : d.changesOnly [.out] [] (d.gap g) := Dev.out_only ..

theorem Dev.emitTo_only (d : Dev) (ring lostIx : Nat) (r : Rec) : d.changesOnly [.out, .ctr] [lostIx] (d.emitTo ring lostIx r) := by
  unfold Dev.emitTo
  refine Dev.changesOnly_ite (fun _ => Dev.changesOnly_refl ..) fun _ => Dev.changesOnly_ite (fun _ => ?_) fun _ =>
    Dev.changesOnly_ite (fun _ => Dev.changesOnly_refl ..) fun _ => ?_
  · exact Dev.changesOnly_mono (Dev.out_only ..) (by simp) (by simp)
  · exact Dev.changesOnly_mono (Dev.inc_only ..) (by simp) (by simp)

theorem Dev.emit_only (d : Dev) (isl : Nat) (r : Rec) : d.changesOnly [.out, .ctr] eventPlaces (d.emit isl r) := by
  refine ⟨fun p hp h => ?_, fun ix sub inst h => Dev.rd_emit _ _ _ _ _ _ h⟩
  simp only [Dev.emit]
  split
  · exact (Dev.out_only ..).1 p (fun m => hp (by simp at m; simp [m])) h
  · exact (Dev.emitTo_only ..).1 p hp h

theorem Dev.event_only (d : Dev) (isl tag kind obj time a b : Nat) :
    d.changesOnly [.out, .ctr] eventPlaces (d.event isl tag kind obj time a b) := by
  unfold Dev.event
  exact Dev.changesOnly_step (Dev.changesOnly_mono (Dev.out_only ..) (by simp) (by simp)) (Dev.emit_only ..)

theorem Dev.pwrEvent_only (d : Dev) (kind obj a b : Nat) : d.changesOnly [.out, .ctr] eventPlaces (d.pwrEvent kind obj a b) := Dev.event_only ..

/-! ### Codes, requests -/

theorem Dev.raise_only (d : Dev) (path c : Nat) : d.changesOnly codeParts codePlaces (d.raise path c) :=
  ⟨fun p hp h => by cases p <;> first | (simp [Part.agrees]; done) | exact absurd rfl h | exact absurd (by decide) hp,
    fun ix sub inst h => Dev.rd_raise _ _ _ _ _ _ h⟩

theorem Dev.logEntry_only (d : Dev) (c time isl inst cls value i : Nat) :
    d.changesOnly [.flt, .ctr] [Ix.fltLogCount] (d.logEntry c time isl inst cls value i) := by
  exact ⟨fun p hp h => by cases p <;> first | (simp [Part.agrees]; done) | exact absurd rfl h | exact absurd (by decide) hp,
    fun ix sub inst h => Dev.rd_logEntry _ _ _ _ _ _ _ _ _ _ _ (fun e => h (by simp [e]))⟩

theorem Dev.fault_only (d : Dev) (cls c isl inst value i : Nat) : d.changesOnly codeParts faultPlaces (d.fault cls c isl inst value i) :=
  ⟨fun p hp h => by cases p <;> first | (simp [Part.agrees]; done) | exact absurd rfl h | exact absurd (by decide) hp,
    fun ix sub inst h => Dev.rd_fault _ _ _ _ _ _ _ _ _ _ h⟩

theorem Dev.setIslState_only (d : Dev) (isl st : Nat) : d.changesOnly [.out, .ctr] (Ix.pwrIslState :: eventPlaces) (d.setIslState isl st) := by
  unfold Dev.setIslState
  refine Dev.changesOnly_ite (fun _ => Dev.changesOnly_refl ..) fun _ => ?_
  exact Dev.changesOnly_mono (Dev.changesOnly_trans (Dev.wr_only ..) (Dev.pwrEvent_only ..)) (by simp) (by simp)

theorem Dev.setDegraded_only (d : Dev) (v : Nat) :
    d.changesOnly (.pwr :: .out :: codeParts) (Ix.pwrDegraded :: eventPlaces ++ codePlaces) (d.setDegraded v) := by
  refine ⟨fun p hp h => by cases p <;> first | (simp [Part.agrees]; done) | exact absurd rfl h | exact absurd (by decide) hp,
    fun ix sub inst h => Dev.rd_setDegraded _ _ _ _ _ (fun m => h ?_) (fun m => h ?_) (fun e => h ?_)⟩
  · exact List.mem_cons_of_mem _ (List.mem_append_left _ m)
  · exact List.mem_cons_of_mem _ (List.mem_append_right _ m)
  · exact e ▸ List.mem_cons_self

theorem Dev.degradedBit_only (d : Dev) (k : Nat) (on : Bool) :
    d.changesOnly (.pwr :: .out :: codeParts) (Ix.pwrDegraded :: eventPlaces ++ codePlaces) (d.degradedBit k on) := Dev.setDegraded_only ..

theorem Dev.accept_only (d : Dev) (path ix sub : Nat) : d.changesOnly [.pwr, .sup] [] (d.accept path ix sub) :=
  ⟨fun p hp h => by cases p <;> first | (simp [Part.agrees]; done) | exact absurd rfl h | exact absurd (by decide) hp,
    fun _ _ _ _ => Dev.rd_accept ..⟩

theorem Dev.refuse_only (d : Dev) (path i sub c : Nat) : d.changesOnly codeParts (Ix.dictRejections :: codePlaces) (d.refuse path i sub c) :=
  ⟨fun p hp h => by cases p <;> first | (simp [Part.agrees]; done) | exact absurd rfl h | exact absurd (by decide) hp,
    fun ix sub inst h => Dev.rd_refuse _ _ _ _ _ _ _ _ (fun m => h (by simp [m])) (fun e => h (by simp [e]))⟩

theorem Dev.served_only (d e : Dev) (path : Nat) : e.changesOnly [.ctr] [Ix.dictRequests] (d.served e path) := by
  unfold Dev.served
  exact Dev.changesOnly_ite (fun _ => Dev.inc_only ..) fun _ => Dev.changesOnly_refl ..

/-- A command that reaches its island changes what its effect changes, and what taking a request changes. -/
theorem Dev.command_only {d : Dev} {path ix : Nat} (hr : d.reaches path ix) {pl : List Part} {ps : List Nat} (sub : Nat) (v : Int) (f : Dev → Dev)
    (h : (d.accept path ix sub).changesOnly pl ps (f (d.accept path ix sub))) :
    d.changesOnly (pl ++ requestParts) (ps ++ requestPlaces) (d.command path ix sub v f) := by
  rw [Dev.command_reaches hr]
  refine Dev.changesOnly_mono (Dev.changesOnly_trans (Dev.changesOnly_trans (Dev.accept_only d path ix sub) h) (Dev.served_only d _ path)) ?_ ?_
  · intro p hp; simp [requestParts, codeParts] at hp ⊢; tauto
  · intro x hx; simp [requestPlaces] at hx ⊢; tauto

/-! ### Cuts -/

theorem Dev.engineCut_only (d : Dev) (c : Cut) : d.changesOnly [.cut] [Ix.modCutState] (d.engineCut c) :=
  ⟨fun p hp h => by cases p <;> first | rfl | exact absurd rfl h | simp at hp,
    fun ix sub inst h => Dev.rd_engineCut _ _ _ _ _ (fun e => h (by simp [e]))⟩

theorem Dev.stage_only (d : Dev) (w : SWrite) : d.changesOnly [.cut] [Ix.modCutState] (d.stage w) := by
  refine ⟨fun p hp h => ?_, fun ix sub inst h => Dev.rd_stage _ _ _ _ _ (fun e => h (by simp [e]))⟩
  unfold Dev.stage
  dsimp only
  split <;> (cases p <;> first | rfl | exact absurd rfl h | simp at hp)

/-! ### The Supervisor goes away (R40, R424) -/

theorem Dev.sup_only (d : Dev) (x : SupSt) : d.changesOnly [.sup] [] { d with sup := x } :=
  ⟨fun p hp h => by cases p <;> first | rfl | exact absurd rfl h | simp at hp, fun _ _ _ _ => rfl⟩
theorem Dev.cut_only (d : Dev) (x : CutSt) : d.changesOnly [.cut] [] { d with cut := x } :=
  ⟨fun p hp h => by cases p <;> first | rfl | exact absurd rfl h | simp at hp, fun _ _ _ _ => rfl⟩
theorem Dev.flt_only (d : Dev) (x : FltSt) : d.changesOnly [.flt] [] { d with flt := x } :=
  ⟨fun p hp h => by cases p <;> first | rfl | exact absurd rfl h | simp at hp, fun _ _ _ _ => rfl⟩

theorem Dev.alDrop_only (d : Dev) (st : Nat) : d.changesOnly [.sup] [] (d.alDrop st) := by
  unfold Dev.alDrop
  exact Dev.changesOnly_ite (fun _ => Dev.sup_only ..) fun _ => Dev.changesOnly_refl ..

theorem Dev.tally_only (d : Dev) (code inst k : Nat) : d.changesOnly [.ctr] [] (d.tally code inst k) := by
  refine ⟨fun p hp h => ?_, fun ix sub i _ => ?_⟩
  · cases p <;> first | exact absurd rfl h | exact absurd (by decide) hp | (simp [Part.agrees, Dev.tally])
  · exact Dev.rd_markWrap ..

theorem Dev.calAway_only (d : Dev) : d.changesOnly [.cal] [] d.calAway :=
  ⟨fun p hp h => by cases p <;> first | rfl | exact absurd rfl h | simp at hp, fun _ _ _ _ => rfl⟩

theorem Dev.cutsAway_only (d : Dev) : d.changesOnly [.cut, .sup] [Ix.modCutState] d.cutsAway := by
  unfold Dev.cutsAway
  dsimp only
  have h : ∀ (x : SupSt) (y : CutSt), d.changesOnly [.cut, .sup] [Ix.modCutState] { d with sup := x, cut := y } := fun x y =>
    ⟨fun p hp h => by cases p <;> first | rfl | exact absurd rfl h | simp at hp, fun _ _ _ _ => rfl⟩
  refine Dev.changesOnly_ite (fun _ => h _ _) fun _ => ?_
  exact Dev.changesOnly_mono (Dev.changesOnly_trans (h _ _) (Dev.wr_only ..)) (by simp) (by simp)

/-- A run over a list whose members each stay within a frame. -/
theorem Dev.changesOnly_foldl_mem {β : Type} {pl : List Part} {ps : List Nat} (f : Dev → β → Dev) (l : List β)
    (h : ∀ a : Dev, ∀ x ∈ l, a.changesOnly pl ps (f a x)) (d : Dev) : d.changesOnly pl ps (l.foldl f d) := by
  induction l generalizing d with
  | nil => exact Dev.changesOnly_refl ..
  | cons x r ih => exact Dev.changesOnly_step (h d x (by simp)) (ih (fun a y hy => h a y (by simp [hy])) _)

theorem Dev.standbyFree_only (d : Dev) : d.changesOnly [] standbyPlaces d.standbyFree := by
  unfold Dev.standbyFree
  refine Dev.changesOnly_mono (Dev.changesOnly_trans (Dev.changesOnly_trans (Dev.wr_only d Ix.chnStandbyFor 0 0 _) (Dev.changesOnly_foldl_mem
    (pl := []) (ps := ddcEntries ++ [Ix.chnFOut, Ix.chnGroupDelay]) _ _ (fun a x hx => ?_) _)) (Dev.wr_only _ Ix.chnState _ 0 _)) (by simp) ?_
  · exact Dev.changesOnly_mono (Dev.wr_only a x 33 0 _) (by simp) (fun y hy => by rw [List.mem_singleton.mp hy]; exact hx)
  · intro y hy
    simp only [standbyPlaces, List.mem_append, List.mem_cons, List.not_mem_nil, or_false] at hy ⊢
    tauto

theorem Dev.repointLost_only (d : Dev) : d.changesOnly [.flt, .chn] repointPlaces d.repointLost := by
  have hf : ∀ x : FltSt, d.changesOnly [.flt, .chn] repointPlaces { d with flt := x } := fun x => Dev.changesOnly_mono (Dev.flt_only d x) (by simp) (by simp)
  have hw : ∀ (a : Dev) (ix : Nat) (v : Int), ix ∈ repointPlaces → a.changesOnly [.flt, .chn] repointPlaces (a.wr ix 0 0 v) := fun a ix v h =>
    Dev.changesOnly_mono (Dev.wr_only ..) (by simp) (by simpa using h)
  have ht : ∀ (a b : Dev) (ix : Nat) (v : Int), ix ∈ repointPlaces → d.changesOnly [.flt, .chn] repointPlaces a → a.wr ix 0 0 v = b →
      d.changesOnly [.flt, .chn] repointPlaces b := fun a b ix v h h' e => e ▸ Dev.changesOnly_step h' (hw a ix v h)
  unfold Dev.repointLost
  split
  · exact Dev.changesOnly_refl ..
  · next r _ =>
    have hc : ∀ x : FltSt, ∀ y : ChnSt, ∀ a : Dev, d.changesOnly [.flt, .chn] repointPlaces a →
        d.changesOnly [.flt, .chn] repointPlaces { a with flt := x, chn := y } := fun x y a h =>
      Dev.changesOnly_step h ⟨fun p hp h => by cases p <;> first | rfl | exact absurd rfl h | simp at hp, fun _ _ _ _ => rfl⟩
    have hs : ∀ a : Dev, ∀ v : Nat, d.changesOnly [.flt, .chn] repointPlaces a → d.changesOnly [.flt, .chn] repointPlaces
        (if (r.isl = 2 && decide (r.inst < 32)) = true then (a.w0 Ix.fltRepointState v).w0 Ix.chnRepointState v
          else if (r.isl = 3 && decide (r.inst < 32)) = true then (a.w0 Ix.fltRepointState v).w0 Ix.speRepointState v
          else a.w0 Ix.fltRepointState v) := by
      intro a v h
      have h0 : d.changesOnly [.flt, .chn] repointPlaces (a.w0 Ix.fltRepointState v) := ht a _ Ix.fltRepointState v (by simp [repointPlaces]) h rfl
      exact Dev.changesOnly_ite (fun _ => ht _ _ Ix.chnRepointState v (by simp [repointPlaces]) h0 rfl) fun _ =>
        Dev.changesOnly_ite (fun _ => ht _ _ Ix.speRepointState v (by simp [repointPlaces]) h0 rfl) fun _ => h0
    dsimp only
    refine Dev.changesOnly_ite (fun _ => hs _ 3 (hf _)) fun _ => Dev.changesOnly_ite (fun _ => hf _) fun _ => ?_
    have hfree : d.changesOnly [.flt, .chn] repointPlaces (if (r.isl = 2 && decide (r.inst < 32)) = true then d.standbyFree else d) :=
      Dev.changesOnly_ite (fun _ => Dev.changesOnly_mono (Dev.standbyFree_only d) (by simp) (by simp [repointPlaces]; tauto)) fun _ => Dev.changesOnly_refl ..
    exact ht _ _ Ix.fltRepointTarget _ (by simp [repointPlaces]) (hs _ 0 (hc _ _ _ hfree)) rfl

/-- What a restart of the Supervisor changes. -/
theorem Dev.supAway_only (d : Dev) (b : Bool) :
    d.changesOnly (.chn :: .cut :: .cal :: .out :: codeParts) (Ix.modCutState :: Ix.fltRestarts :: Ix.modBringup :: repointPlaces ++ codePlaces) (d.supAway b) := by
  unfold Dev.supAway
  have h := Dev.changesOnly_trans (Dev.changesOnly_trans d.repointLost_only (Dev.cutsAway_only _)) (Dev.calAway_only _)
  generalize d.repointLost.cutsAway.calAway = e at h ⊢
  have h := Dev.changesOnly_trans h (Dev.sup_only e { e.sup with running := false, restarting := true })
  have h := Dev.changesOnly_trans h (Dev.alDrop_only _ 0x8002)
  have h := Dev.changesOnly_trans h (Dev.inc_only _ Ix.fltRestarts 0 0 1)
  have h := Dev.changesOnly_trans h (Dev.tally_only _ 0x0C15 0 1)
  have h := fun v => Dev.changesOnly_trans h (Dev.wr_only _ Ix.modBringup 0 0 v)
  have h := fun v => Dev.changesOnly_trans (h v) (Dev.happen_only _ .restart)
  dsimp only
  refine Dev.changesOnly_ite (fun _ => ?_) fun _ => ?_
  · exact Dev.changesOnly_mono (Dev.changesOnly_trans (h _) (Dev.raise_only _ 4 Code.supervisorFault)) (by decide) (by decide)
  · exact Dev.changesOnly_mono (Dev.changesOnly_trans (h _) (Dev.logEntry_only ..)) (by decide) (by decide)

end Sys2Proof.Machine
end

