-- ==== Sys2Proof/Laws/Memory.lean ====
section
/-! SUPPORT. Capture memory: what a byte reads as after a write, and that every memory operation keeps the canonical form. -/

namespace Sys2Proof.Machine

/-- Nothing is listed at reset. -/
theorem Memory.wf_nil : Memory.wf [] := Tab.wf_nil 0#8

theorem Memory.wf_write {m : Mem} (a : Nat) (b : Byte) (h : Memory.wf m) : Memory.wf (memWrite m a b) := Tab.wf_set a b h

theorem Memory.wf_writes {β : Type} (f : Mem → β → Mem) (hf : ∀ m x, Memory.wf m → Memory.wf (f m x)) (l : List β) {m : Mem}
    (h : Memory.wf m) : Memory.wf (l.foldl f m) := by
  induction l generalizing m with
  | nil => exact h
  | cons x r ih => exact ih (hf m x h)

theorem Memory.wf_writeAt (addrs : Nat → List Nat) (bytes : List Byte) (o : Nat) {m : Mem} (h : Memory.wf m) :
    Memory.wf (memWriteAt addrs bytes o m) := by
  induction bytes generalizing o m with
  | nil => exact h
  | cons b bs ih => exact ih _ (Memory.wf_writes _ (fun _ a hm => Memory.wf_write a b hm) _ h)

theorem Memory.wf_writeAlloc (d : Dev) (a : Alloc) (o : Nat) (bytes : List Byte) {m : Mem} (h : Memory.wf m) :
    Memory.wf (d.writeAlloc a o bytes m) := Memory.wf_writeAt _ _ _ h

theorem Memory.wf_writeRing (d : Dev) (a : Alloc) (skip size o : Nat) (bytes : List Byte) {m : Mem} (h : Memory.wf m) :
    Memory.wf (d.writeRing a skip size o bytes m) := by
  unfold Dev.writeRing
  split
  · exact h
  · exact Memory.wf_writeAt _ _ _ h

theorem Memory.wf_dropChannel (d : Dev) (c : Nat) {m : Mem} (h : Memory.wf m) : Memory.wf (d.dropChannel c m) := Tab.wf_filter _ h

theorem Memory.wf_loseBurst (d : Dev) (c r addr : Nat) {m : Mem} (h : Memory.wf m) : Memory.wf (d.loseBurst c r addr m).1 := Tab.wf_filter _ h

/-- A read after a write to the same address gives the byte written; a write leaves every other address alone. -/
@[simp] theorem memRead_write_same (m : Mem) (a : Nat) (b : Byte) : memRead (memWrite m a b) a = b := Tab.get_set_same 0#8 m a b

theorem memRead_write_other (m : Mem) (a a' : Nat) (b : Byte) (h : a ≠ a') : memRead (memWrite m a b) a' = memRead m a' :=
  Tab.get_set_other 0#8 0#8 m a a' b h

/-- A write of several bytes leaves every address alone that none of them goes to. -/
theorem memRead_writeAt_other (addrs : Nat → List Nat) (bytes : List Byte) (o : Nat) (m : Mem) (x : Nat)
    (h : ∀ k < bytes.length, x ∉ addrs (o + k)) : memRead (memWriteAt addrs bytes o m) x = memRead m x := by
  induction bytes generalizing o m with
  | nil => rfl
  | cons b bs ih =>
    have fold : ∀ (l : List Nat) (m : Mem), x ∉ l → memRead (l.foldl (fun m a => memWrite m a b) m) x = memRead m x := by
      intro l
      induction l with
      | nil => intro m _; rfl
      | cons a r ihl =>
        intro m hx
        rw [List.mem_cons, not_or] at hx
        rw [List.foldl_cons, ihl _ hx.2, memRead_write_other _ _ _ _ (fun e => hx.1 e.symm)]
    rw [memWriteAt, ih (o + 1) _ (fun k hk => by have := h (k + 1) (by simpa using hk); rwa [Nat.add_assoc, Nat.add_comm 1 k])]
    exact fold _ m (h 0 (by simp))

end Sys2Proof.Machine
end

