-- ==== Sys2Proof/Tests/Slice0.lean ====
section
/-! SUPPORT. The model's own tests: ill-formed commands are refused, worked examples of the spec, and for every clause of every obligation a
concrete state with operands that meets its hypotheses together. -/

namespace Sys2Proof.Tests
open Sys2Proof Sys2Proof.Machine

set_option Elab.async false

/-- Entries (index, subindex, instance, value) laid into a device. -/
def dv (l : List (Nat × Nat × Nat × Int)) (d : Dev) : Dev :=
  l.foldl (fun a p => { a with dict := Tab.put a.dict (ekey p.1 p.2.1 p.2.2.1) p.2.2.2 }) d

/-- A device whose Supervisor runs and whose core rails are good. -/
def up : Dev := { sup := { running := true }, hw := { pwrGood := true } }

/-- A state with an empty queue. -/
def at0 (d : Dev) (m : Mem := []) : State := { pending := [], mem := m, dev := d }

/-- The row of an entry. -/
def rowAt (ix sub : Nat) : Entry := (rowOf ix sub).getD ⟨0, 0, 0, 0, .ro, 0, .now, 0, 0, 0, ""⟩


/-- DDC 2 on link 0 with no half-band stage, whose input is silent at index 8; `x` is the rest of the DDC. -/
def silent (x : DdcSt) : Dev :=
  dv [(Ix.chnSrc, 3, 0, 16), (Ix.itkFs, 1, 0, 1000000000000), (Ix.itkMode, 1, 0, 3), (Ix.chnState, 3, 0, 2), (Ix.chnDepth, 3, 0, 0),
      (Ix.itkLinkState, 1, 0, 5), (Ix.chnDetWindow, 3, 0, 4), (Ix.chnSettlePolicy, 3, 0, 0)]
    { up with
      chn := { up.chn with ddcs := [(2, x)], input := [(16, { asked := [(7, { i := 100, q := 5 }), (8, { i := 0, q := 0 }), (9, { i := 10, q := 50 })] })] }
      itk := { up.itk with links := [(0, { checked := true, anchor := some 1000 })] } }

/-- Silence mixed with any phase is silence. -/
theorem mix_zero (p : Nat) : mix p (0, 0) = (0, 0, false) := by
  simp only [mix, Int.zero_mul, Int.add_zero, Int.sub_zero]; decide +kernel

/-- A chain without a stage saturates nothing on silent input, whatever the last bit of the oscillator is. -/
theorem silence_saturates_nothing (e : Dev) (n ne : Nat) (hd : e.nI Ix.chnDepth n = 0 ∧ e.nI Ix.chnDelayInt n = 0 ∧ e.nI Ix.chnFracEn n = 0)
    (hg : e.gDelay n = 0) (hv : (e.inputAt (e.nI Ix.chnSrc n) ne).getD { i := 0, q := 0 } = { i := 0, q := 0 }) :
    (e.ddcFlags n ne (e.ddcValue n ne)).sat = false ∧ (e.ddcValue n ne).sat = false := by
  obtain ⟨h1, h2, h3⟩ := hd
  simp only [Dev.ddcFlags, Dev.ddcValue, h1, h2, h3, hg]
  generalize e.nI Ix.chnSrc n = c at hv
  simp [hv, mix_zero, chain, toCplx24]
  decide

/-- A run of silence just begun. -/
def onGrid : DdcSt := { next := some 8, wIx := some 0, wCount := 3, wPeak := 9, wSum := 20, env := 5 }
/-- Its next output stood at index 5 when the gap began. -/
def behindGap : DdcSt := { next := some 5, wIx := some 0, gapFirst := some (77, 1) }

/-- The first of the two delivers silence. -/
theorem onGrid_silent : (((at0 (silent onGrid)).dev.at 0).ddcFlags 2 8 (((at0 (silent onGrid)).dev.at 0).ddcValue 2 8)).sat = false :=
  (silence_saturates_nothing _ 2 8 (by decide +kernel) (by decide +kernel) (by decide +kernel)).1

/-- So does the second. -/
theorem behindGap_silent : (((at0 (silent behindGap)).dev.at 0).ddcValue 2 8).sat = false :=
  (silence_saturates_nothing _ 2 8 (by decide +kernel) (by decide +kernel) (by decide +kernel)).2

/-- A directory entry without its CRC: reel 5, found open. -/
def entryBody : List Nat :=
  [5 * 2 ^ 32 + 2 * 2 ^ 24, 2 * 2 ^ 40 + 2 ^ 32 + 1024, 1000, 5, 6, 700, 30, 9, 2 ^ 40 + 4, 0x20] ++ List.replicate 6 0 ++ [2 ^ 40 + 3, 9] ++
    List.replicate 493 0

/-- A module in full service with one formatted drive, which holds that entry. -/
def oneReel : Dev :=
  dv [(Ix.strDrvState, 3, 0, 2), (Ix.modService, 0, 0, 3)]
    { up with str := { up.str with drives := [(2, { lbas := 1000000000, label := [0 * 2 ^ 40 + 2 ^ 32, 77, 1024 * 2 ^ 24 + 100, 5000, 3, 11, 0, 0, 0, 0, 0, 0, 0],
                                                    dir := [(5, entryBody ++ [dirCrc entryBody])] })] } }

/-- A volume of one drive whose directory holds one entry with its CRC is found to hold that entry. -/
theorem dirFound_one (e : Dev) (port drv r : Nat) (l : List Nat) (hl : l.length = 511) (hd : (e.drive drv).dir = [(r, l ++ [dirCrc l])]) :
    e.dirFound [(port, drv)] = [l ++ [dirCrc l]] := by
  have hc : dirCrc (l ++ [dirCrc l]) = dirCrc l := by
    simp only [dirCrc, ← hl, List.take_left, List.take_length]
  have hg : (l ++ [dirCrc l]).getD 511 0 = dirCrc l := by simp [← hl]
  have hv : dirValid (l ++ [dirCrc l]) = true := by
    simp only [dirValid, hg, hc, List.length_append, hl]; simp
  simp [Dev.dirFound, hd, Tab.find?, hv, Option.filter]

/-! ### Well-formed and ill-formed commands -/

/-- Each has one operand out of its range, the others in theirs: refused (1). -/
theorem test_wf_refuses_1 :
    (([.entryWrite 0 0 0 0 0 {}, .entryWrite 0 5 0 0 0 {}, .hodWrite 0 16777215, .hodWrite 0 167772160, .hodBlockLeave 0 16777215,
      .hodBlockLeave 0 167772160, .hodStreamResume 0 16777215, .hodStreamResume 0 167772160, .voluntaryStallStart 0 0 8 0,
      .pipelineCrossingOverflow 0 0 31 0 0, .pipelineCrossingOverflow 0 2 32 0 0, .cutCommit 0 5, .cutAbort 0 5, .cutDiscardStaged 0 5,
      .cutApply 0 0 0, .cutApply 0 13 0, .railOutOfRegulation 0 0 0 0, .railOutOfRegulation 0 9 0 0, .modReset 0 5, .hwRestart 0 5,
      .bypassInsert 0 2, .bypassRelease 0 2, .bypassTransitionDone 0 2, .bypassStuck 0 2, .hwBypassForce 0 5 1, .hwBypassForce 0 4 2,
      .fabricPortDark 0 4, .modChangeover 0 5, .laneCalibrationDone 0 64 false, .laneCdrLock 0 16, .laneLock 0 16 [],
      .multiblockLock 0 16 0 [] [], .linkNoLock 0 16 false, .sysrefEdge 0 4 0, .sysrefAbsent 0 16, .multiblockRelease 0 16 0 [] [] [],
      .laneFault 0 64 0, .relinkComplete 0 16, .crcError 0 64 0 0, .ddcOutput 0 33 0 0, .ddcDrainTimeout 0 33, .detectorWindowClose 0 33,
      .ddcFault 0 32, .ddcSelftestDone 0 32 false, .realToComplexParity 0 0x3F 0 0, .realToComplexParity 0 16 0 0,
      .realToComplexParity 0 0x44 0 0, .chnRepoint 0 5 0, .chnRepointAbort 0 5, .ddcRepointHandover 0 32 0, .speFrameDone 0 16 0 32 [] 0 0 0,
      .speFrameDone 0 15 0 33 [] 0 0 0, .traceClose 0 16, .layerStopTimeout 0 16, .layerMemError 0 16 0 0, .coreFault 0 32 15 0 0,
      .coreFault 0 31 16 0 0, .coreSelftestDone 0 32 false, .speRepoint 0 5 0, .speRepointAbort 0 5]
      : List Instr).all fun i => !i.wf) = true := by
  decide +kernel

/-- Each has one operand out of its range, the others in theirs: refused (2). -/
theorem test_wf_refuses_2 :
    (([.coreRepointHandover 0 32 0, .speUserCoef 0 5 0, .condEvent 0 64 0 0 false, .condTimeoutExpiry 0 64, .trgCondSoft 0 5 0,
      .sequencerEvent 0 16, .maskRestart 0 5 63, .maskRestart 0 4 64, .maskClearCounts 0 5 63, .maskClearCounts 0 4 64, .trgBpValue 0 5 0,
      .toutPulse 0 4, .magArm 0 5, .magDisarm 0 5, .magFree 0 5, .magFreeRelease 0 256, .magForceTrigger 0 5, .magClear 0 5,
      .takeComplete 0 256 0, .maskTableReload 0 64, .queueError 0 64, .bankFault 0 5, .planeFrameSettle 0 4 0, .planeExport 0 4,
      .planeMemError 0 4 0, .densityFault 0 4, .vpEnable 0 5 0, .vpCommit 0 5 0, .vpAlloc 0 5, .vpFreeRequest 0 5, .vpCursorPixel 0 5 0,
      .readbackCheck 0 65536 65535 65535, .readbackCheck 0 65535 65536 65535, .readbackCheck 0 65535 65535 65536, .vpUnderrun 0 4 0,
      .subchannelCommand 0 8 1 [] false, .subchannelCommand 0 7 2 [] false, .refreshDue 0 8 4, .refreshDue 0 7 5, .mr4Read 0 8 0 0,
      .rowActivate 0 8 1 4 31 16383, .rowActivate 0 7 2 4 31 16383, .rowActivate 0 7 1 5 31 16383, .rowActivate 0 7 1 4 32 16383,
      .rowActivate 0 7 1 4 31 16384, .neighbourRefresh 0 8 1 4 31 16383, .neighbourRefresh 0 7 2 4 31 16383, .neighbourRefresh 0 7 1 5 31 16383,
      .neighbourRefresh 0 7 1 4 32 16383, .neighbourRefresh 0 7 1 4 31 16384, .uncorrectableBurst 0 (2 ^ 37), .sparingStallEnd 0 8,
      .migrationComplete 0 8, .ceLimitSpare 0 8 4, .ceLimitSpare 0 7 5, .patrolScrub 0 8 4 0 [], .patrolScrub 0 7 5 0 [], .retrainDue 0 8 0,
      .retrainStart 0 8, .retrainDone 0 8 2 4]
      : List Instr).all fun i => !i.wf) = true := by
  decide +kernel

/-- Each has one operand out of its range, the others in theirs: refused (3). -/
theorem test_wf_refuses_3 :
    (([.retrainDone 0 7 3 4, .retrainDone 0 7 2 5, .csStart 0 5 3, .csStart 0 4 4, .csStop 0 5 3, .csStop 0 4 4, .csFree 0 5 3, .csFree 0 4 4,
      .csFreeRelease 0 4, .captureWake 0 24, .ringOpen 0 5, .ringClose 0 5, .ringCloseDrainEnd 0 65536, .ringPause 0 5, .ringResume 0 5,
      .ringRecord 0 65536, .ringSpaceAvailable 0 65536, .ringDoorbell 0 65536 0, .msixMessage 0 65536, .msixUnmask 0 2048,
      .ringContextError 0 65536, .driveInsert 0 8, .driveAttachDone 0 8 0 0 0 0 0 0 0 false [] [], .driveDetach 0 5 0, .driveAttachCmd 0 5 0,
      .nvmeCompletionPoll 0 8 [], .nvmeCommandTimeout 0 8 0, .nvmeHealthPoll 0 8 0, .driveLost 0 8 false, .volFormat 0 5, .volMount 0 5 [],
      .volUnmount 0 5, .reelOpen 0 5, .reelStart 0 5, .reelClose 0 5, .reelDelete 0 5, .reelUnitClose 0 4096 false, .spoolSlotFree 0 4096,
      .pbStart 0 5 3, .pbStart 0 4 4, .pbStop 0 5 3, .pbStop 0 4 4, .pbPass 0 4, .pbRelease 0 4 false (0, 0, 0), .refInvalid 0 2 4 0,
      .refInvalid 0 1 2 0, .refInvalid 0 1 5 0, .refValid 0 2 0 0, .pllHop 0 0 0, .pllHop 0 0x0D 0, .pllHop 0 0x1B 0, .pllHopLock 0 0 0 0 0,
      .pllHopLock 0 0x0D 0 0 0, .pllHopLock 0 0x1B 0 0 0, .pllLossOfLock 0 0 0, .pllLossOfLock 0 0x0D 0, .pllLossOfLock 0 0x1B 0,
      .timeSetAtPps 0 5, .timeSetAtSecond 0 5, .sysrefFire 0 5 3]
      : List Instr).all fun i => !i.wf) = true := by
  decide +kernel

/-- Each has one operand out of its range, the others in theirs: refused (4). -/
theorem test_wf_refuses_4 :
    (([.sysrefFire 0 4 4, .imArm 0 5 9, .imArm 0 4 10, .imAbort 0 5 9, .imAbort 0 4 10, .imClear 0 5 9, .imClear 0 4 10, .imChanDisable 0 5 9,
      .imChanDisable 0 4 10, .imDrainEnd 0 10, .imEdgeStamp 0 0x0F 1 0 0 0 0, .imEdgeStamp 0 0x2F 1 0 0 0 0, .imEdgeStamp 0 0x38 1 0 0 0 0,
      .imEdgeStamp 0 0x37 2 0 0 0 0, .imTimeout 0 10, .imGateEnd 0 7, .imGateEnd 0 10, .imFreqReady 0 7, .imFreqReady 0 10, .helloSend 0 4,
      .helloReceive 0 4 0 0 [], .portDown 0 4 0 0, .linkStateReceive 0 4 0 0 [], .keystoneClaim 0 5 0 0 [] 0, .timingMarker 0 4 1 0 0 0 0 0,
      .timingMarker 0 3 2 0 0 0 0 0, .timeReportReceive 0 4 0 0 [], .stepNoticeReceive 0 4 0 0 [], .cfJoin 0 5, .cfLeave 0 5, .cfPrepareSlot 0 5,
      .cfReleaseSlot 0 5, .bcastOriginate 0 2, .triggerPacketReceive 0 4 0 0 [], .eventPacketReceive 0 4 0 0 [], .rdaRead 0 5, .rdaWrite 0 5,
      .rdaResponse 0 4 0 0 [], .fabricDictRequest 0 4 0 0 [] {}, .fabricDataReceive 0 4 0 0 [] [] 0, .fabricAckReceive 0 4 0 0 [],
      .fabricRetransmit 0 1024, .destinationUnreachable 0 1024, .copyStart 0 5, .copyAbort 0 5, .bulkWordRead 0 5, .bulkWordWrite 0 5 0,
      .bulkLenSubmit 0 5 0, .errorHistoryClear 0 5, .pwrSleep 0 5 0, .islandIdleTimeout 0 0 false, .islandIdleTimeout 0 13 false, .islandWake 0 0,
      .islandWake 0 13, .islandPointChange 0 5, .islandPointChange 0 13, .droopStretch 0 0, .droopStretch 0 13, .calCalibrate 0 5, .calAbort 0 5]
      : List Instr).all fun i => !i.wf) = true := by
  decide +kernel

/-- Each has one operand out of its range, the others in theirs: refused (5). -/
theorem test_wf_refuses_5 :
    (([.calSave 0 5 false, .calRestore 0 5, .calRunDone 0 0x110 0 0 0 [], .calRunDone 0 0xA00 0 0 0 [], .trimLoopStep 0 16 0,
      .calObjectDue 0 0x110 0, .calObjectDue 0 0xA00 0, .ctrFreeze 0 5, .ctrRelease 0 5, .ctrFlagsClear 0 5, .ctrSnapCmd 0 5,
      .samplerCrossing 0 16 0 0 0, .fltRepoint 0 5 0, .fltRepointAbort 0 5, .standbySelftest 0 2 false, .standbySelftest 0 0x18 false,
      .imgAllocateStaging 0 5, .imgInstall 0 5 0 0 false, .imgSwitch 0 5, .imgAbortSwitch 0 5, .fltLogClear 0 5, .hostBar2Read 0 (2 ^ 37) 1,
      .hostBar2Write 0 (2 ^ 37) [0], .portTrained 0 4, .imGateStart 0 7, .imGateStart 0 10, .takeMemoryError 0 256 0 0]
      : List Instr).all fun i => !i.wf) = true := by
  decide +kernel

/-- Every command, its operands at the top of their ranges: well-formed (1). -/
theorem test_wf_admits_1 :
    (([.entryWrite 0 4 0 0 0 {}, .hodWrite 0 150994944, .hodBlockLeave 0 150994944, .hodStreamResume 0 150994944, .voluntaryStallStart 0 0 7 0,
      .pipelineCrossingOverflow 0 2 31 0 0, .cutCommit 0 4, .cutAbort 0 4, .cutDiscardStaged 0 4, .cutCommitPoint 0, .cutApply 0 12 0,
      .supervisorRestart 0 false, .supervisorReturn 0 {}, .epsWindowEnd 0 0 0, .auxEnterRange 0 0 0, .auxQualified 0, .auxLoss 0, .v12Good 0,
      .v12Brownout 0, .v12Overvoltage 0, .railOutOfRegulation 0 8 0 0, .pwrGoodRise 0, .powerLossLogWrite 0, .resetNAssert 0 0,
      .resetNRelease 0 0, .modReset 0 4, .modResetRestart 0 0, .perstNAssert 0, .perstNRelease 0, .hostLinkUp 0 0 0, .thermalThrottle 0 0 [],
      .thermalTrip 0 0, .hwRestart 0 4, .dieCoolStart 0 0, .inletOverGrade 0 0, .bypassInsert 0 1, .bypassRelease 0 1, .bypassTransitionDone 0 1,
      .bypassStuck 0 1, .hwBypassForce 0 4 1, .ecatWatchdogExpiry 0, .relayFault 0, .ecatSlaveReady 0, .bootImageSelect 0 false false,
      .supervisorStart 0, .trialWatchdogExpiry 0 false, .rushesStart 0, .bringupStepDone 0 0 0, .bringupTimeout 0 0 0, .fabricPortDark 0 3,
      .modChangeover 0 4, .changeoverComplete 0 0, .laneCalibrationDone 0 63 false, .laneCdrLock 0 15, .laneLock 0 15 [],
      .multiblockLock 0 15 0 [] [], .linkNoLock 0 15 false, .sysrefEdge 0 3 0, .sysrefAbsent 0 15, .multiblockRelease 0 15 0 [] [] []]
      : List Instr).all fun i => i.wf) = true := by
  decide +kernel

/-- Every command, its operands at the top of their ranges: well-formed (2). -/
theorem test_wf_admits_2 :
    (([.laneFault 0 63 0, .relinkComplete 0 15, .crcError 0 63 0 0, .ddcOutput 0 32 0 0, .ddcDrainTimeout 0 32, .detectorWindowClose 0 32,
      .ddcFault 0 31, .ddcSelftestDone 0 31 false, .ddcStandbyFail 0, .realToComplexParity 0 0x43 0 0, .chnRepoint 0 4 0, .chnRepointAbort 0 4,
      .ddcRepointHandover 0 31 0, .ddcUpdateDone 0 false, .speFrameDone 0 15 0 32 [] 0 0 0, .traceClose 0 15, .layerStopTimeout 0 15,
      .layerMemError 0 15 0 0, .coreFault 0 31 15 0 0, .coreSelftestDone 0 31 false, .coreStandbyFail 0, .speRepoint 0 4 0, .speRepointAbort 0 4,
      .coreRepointHandover 0 31 0, .coreUpdateDone 0 false, .speUserCoef 0 4 0, .condEvent 0 63 0 0 false, .condTimeoutExpiry 0 63,
      .trgCondSoft 0 4 0, .sequencerEvent 0 15, .maskRestart 0 4 63, .maskClearCounts 0 4 63, .trgBpValue 0 4 0, .toutPulse 0 3, .magArm 0 4,
      .magDisarm 0 4, .magFree 0 4, .magFreeRelease 0 255, .magForceTrigger 0 4, .magClear 0 4, .takeComplete 0 255 0, .maskTableReload 0 63,
      .queueError 0 63, .bankFault 0 4, .planeFrameSettle 0 3 0, .planeExport 0 3, .planeMemError 0 3 0, .densityFault 0 3,
      .hpdPlug 0 0 0 0 0 0 [] [], .hpdIrq 0 0 false, .hpdUnplug 0, .dpLinkTrained 0 false, .vpEnable 0 4 0, .vpCommit 0 4 0, .vpLatchPoint 0,
      .vpAlloc 0 4, .vpFreeRequest 0 4, .vpCursorPixel 0 4 0, .readbackCheck 0 65535 65535 65535, .vpUnderrun 0 3 0]
      : List Instr).all fun i => i.wf) = true := by
  decide +kernel

/-- Every command, its operands at the top of their ranges: well-formed (3). -/
theorem test_wf_admits_3 :
    (([.composerFault 0, .regulatorRefill 0, .subchannelCommand 0 7 1 [] false, .refreshDue 0 7 4, .mr4Read 0 7 0 0, .rowActivate 0 7 1 4 31 16383,
      .neighbourRefresh 0 7 1 4 31 16383, .rowTableClear 0, .uncorrectableBurst 0 (2 ^ 37 - 1), .sparingStallEnd 0 7, .migrationComplete 0 7,
      .ceLimitSpare 0 7 4, .patrolScrub 0 7 4 0 [], .retrainDue 0 7 0, .retrainStart 0 7, .retrainDone 0 7 2 4, .csStart 0 4 3, .csStop 0 4 3,
      .csFree 0 4 3, .csFreeRelease 0 3, .captureIdleSleep 0, .captureWake 0 23, .ringOpen 0 4, .ringClose 0 4, .ringCloseDrainEnd 0 65535,
      .ringPause 0 4, .ringResume 0 4, .ringRecord 0 65535, .ringSpaceAvailable 0 65535, .ringDoorbell 0 65535 0, .msixMessage 0 65535,
      .msixUnmask 0 2047, .ringContextError 0 65535, .hostLinkLoss 0, .driveInsert 0 7, .driveAttachDone 0 7 0 0 0 0 0 0 0 false [] [],
      .driveDetach 0 4 0, .driveAttachCmd 0 4 0, .nvmeCompletionPoll 0 7 [], .nvmeCommandTimeout 0 7 0, .nvmeHealthPoll 0 7 0,
      .driveLost 0 7 false, .volFormat 0 4, .volMount 0 4 [], .volUnmount 0 4, .reelOpen 0 4, .reelStart 0 4, .reelClose 0 4, .reelDelete 0 4,
      .reelUnitClose 0 4095 false, .spoolSlotFree 0 4095, .pbStart 0 4 3, .pbStop 0 4 3, .pbPass 0 3, .pbRelease 0 3 false (0, 0, 0),
      .refInvalid 0 1 4 0, .refValid 0 1 0 0, .refSwitchoverDone 0 0, .slewDone 0, .timeStep 0]
      : List Instr).all fun i => i.wf) = true := by
  decide +kernel

/-- Every command, its operands at the top of their ranges: well-formed (4). -/
theorem test_wf_admits_4 :
    (([.pllHop 0 0x1A 0, .pllHopLock 0 0x1A 0 0 0, .pllLossOfLock 0 0x1A 0, .ppsEdge 0, .ppsLost 0, .dcSync0Sample 0 0, .timeSetAtPps 0 4,
      .timeSetAtSecond 0 4, .sysrefFire 0 4 3, .imArm 0 4 9, .imAbort 0 4 9, .imClear 0 4 9, .imChanDisable 0 4 9, .imDrainEnd 0 9,
      .imEdgeStamp 0 0x37 1 0 0 0 0, .imTimeout 0 9, .imGateEnd 0 9, .imFreqReady 0 9, .helloSend 0 3, .helloReceive 0 3 0 0 [],
      .portDown 0 3 0 0, .linkStateFlood 0, .linkStateReceive 0 3 0 0 [], .keystoneClaim 0 4 0 0 [] 0, .timingMarker 0 3 1 0 0 0 0 0,
      .timeReportReceive 0 3 0 0 [], .timeOffsetAverage 0 0, .stepNoticeReceive 0 3 0 0 [], .cfJoin 0 4, .autoJoinStart 0, .joinComplete 0 false,
      .cfLeave 0 4, .cfLeaveRelease 0, .cfPrepareSlot 0 4, .cfReleaseSlot 0 4, .prepareLapse 0 0, .bcastOriginate 0 1,
      .triggerPacketReceive 0 3 0 0 [], .eventPacketReceive 0 3 0 0 [], .rdaRead 0 4, .rdaWrite 0 4, .rdaResponse 0 3 0 0 [], .rdaTimeout 0,
      .fabricDictRequest 0 3 0 0 [] {}, .fabricDataReceive 0 3 0 0 [] [] 0, .fabricAckReceive 0 3 0 0 [], .fabricRetransmit 0 1023,
      .destinationUnreachable 0 1023, .copyStart 0 4, .copyAbort 0 4, .sdoUpload 0 0 0 false, .sdoDownload 0 0 0 false [] {}, .sdoInfo 0 0 0 0,
      .bar0Read 0 0 0, .bar0Write 0 0 0 0 {}, .bulkWordRead 0 4, .bulkWordWrite 0 4 0, .bulkLenSubmit 0 4 0, .ecatStateRequest 0 0 0 0,
      .pdoCycle 0 false false []]
      : List Instr).all fun i => i.wf) = true := by
  decide +kernel

/-- Every command, its operands at the top of their ranges: well-formed (5). -/
theorem test_wf_admits_5 :
    (([.sm2Watchdog 0, .emergencySend 0, .errorHistoryClear 0 4, .foeWriteImage 0 0 0 0 false, .foeRead 0 0, .pwrSleep 0 4 0,
      .moduleIdleTimeout 0 0, .sleepEntryDone 0, .wakeSource 0 0, .wakeTimerExpiry 0, .moduleWakeDone 0, .islandIdleTimeout 0 12 false,
      .islandWake 0 12, .governorPeriod 0 0 0 [] [] 0, .capStepRelease 0, .islandPointChange 0 12, .droopStretch 0 12, .dramCoolReturn 0,
      .calCalibrate 0 4, .calAbort 0 4, .calSave 0 4 false, .calRestore 0 4, .calRunDone 0 0x10F 0 0 0 [], .trimLoopStep 0 15 0,
      .calObjectDue 0 0x10F 0, .ctrFreeze 0 4, .ctrRelease 0 4, .ctrFlagsClear 0 4, .ctrSnapCmd 0 4, .snapPeriodTick 0,
      .samplerCrossing 0 15 0 0 0, .fltRepoint 0 4 0, .fltRepointAbort 0 4, .repointSelftestDone 0 false, .standbySelftest 0 0x17 false,
      .imgAllocateStaging 0 4, .imgInstall 0 4 0 0 false, .imgSwitch 0 4, .imgAbortSwitch 0 4, .updateConfirm 0, .updateRevert 0,
      .disableDrainEnd 0 0 0 0, .fltLogClear 0 4, .hostBar2Read 0 (2 ^ 37) 0, .hostBar2Write 0 (2 ^ 37) [], .timeLoopLock 0, .portTrained 0 3,
      .imGateStart 0 9, .channelRetirementStallEnd 0, .errorRegisterExpiry 0, .takeMemoryError 0 255 0 0, .paletteEccError 0,
      .displayFrameStart 0 0]
      : List Instr).all fun i => i.wf) = true := by
  decide +kernel

/-! ### Worked examples of the spec -/

/-- R7's example: -20 dBFS, full scale, and a power of zero. -/
theorem test_log16_example : log16 703687441777 = -5120 ∧ log16 (2 ^ 46) = 0 ∧ log16 0 = -32768 := by decide +kernel

/-- The example of 10_capture_store.md: A = 0x000123456780 lies in channel 4, bank group 4, bank 1. -/
theorem test_hash_example : up.chanOf 0x000123456780 = 4 ∧ up.bankOf 0x000123456780 = 17 := by decide +kernel

/-- The example of 13_interval_meter.md: start 1,248.125 ns, and the interval to the stop edge. -/
theorem test_stamp_example :
    stampAs 1000 400 1442 921 = 1248125000000 ∧ stampAs 1081 400 1442 608 - stampAs 1000 400 1442 921 = 81 * asClock + 375479846 := by
  decide +kernel

/-- The example of 01_islands_and_flow.md: 21,504,000 µJ over 51.2 × 10^9 samples, of which a window began at 7, read 420,000. -/
theorem test_eps_example :
    (match exec (.epsWindowEnd (2 ^ 62) 21504000 0)
        (at0 (dv [(Ix.pwrAnalysedSamples, 0, 0, 51200000007)] { up with pwr := { up.pwr with epsCount := 7 } })) with
      | .next s => s.dev.n0 Ix.pwrEpsLive
      | _ => 0) = 420000 := by decide +kernel

/-- The example of 14_course_fabric.md: 24 ps between the two directions, over 1,024 superframes, are θ = 12 ps. -/
theorem test_theta_example : ({ up with cf := { up.cf with theta := 1024 * 6755, samples := 1024 } } : Dev).thetaPs = 12 := by decide +kernel

/-- The example of 04_intake.md: 2,048 samples at 25.6 GS/s are 22,517,998 units. -/
theorem test_stamp_advance_example : sampleTime 140737417986584 2048 25600000000 = 140737440504582 := by decide +kernel

/-- The example of 07_triggers_and_takes.md: level 0.25 between 0.20 and 0.45 is crossed at 51/256. -/
theorem test_crossing_example : crossAt 2097152 1677722 3774874 = 51 := by decide +kernel

/-- Table 6.2: layers 1 and 2 of the plan on a wide lane at 12.8 GS/s. -/
theorem test_layer_memory_example :
    let d := dv [(Ix.itkMode, 1, 0, 1), (Ix.itkFs, 1, 0, 25600000000), (Ix.speLayerSrc, 2, 0, 1), (Ix.speLayerLen, 2, 0, 16384),
      (Ix.speHopShift, 2, 0, 2), (Ix.speDetCount, 2, 0, 32), (Ix.speLayerSrc, 3, 0, 1), (Ix.speLayerLen, 3, 0, 262144),
      (Ix.speHopShift, 3, 0, 0), (Ix.speDetCount, 3, 0, 8)] up
    d.layerMem 1 = 729088 ∧ d.layerMem 2 = 4194304 := by decide +kernel

/-- R9: a 48-bit count wraps, a narrower one saturates. -/
theorem test_count_wraps : countUp 0x19 (2 ^ 48 - 1) 1 = 0 ∧ countUp 5 255 1 = 255 ∧ countUp 6 65535 3 = 65535 := by decide +kernel

/-- R5: an exact half goes to the even code, up and down. -/
theorem test_round_even : roundEven 5 2 = 2 ∧ roundEven 7 2 = 4 ∧ roundEven (-5) 2 = -2 ∧ roundEven (-3) 2 = -2 := by decide +kernel

/-- An empty queue idles; a command at the front leaves the queue's rest. -/
theorem test_queue :
    (match step State.reset with | .next s => decide (s = State.reset) | _ => false) = true ∧
    (match step { State.reset with pending := [.auxEnterRange 0 5 0, .auxQualified 7] } with
      | .next s => decide (s.pending = [.auxQualified 7])
      | _ => false) = true := by decide +kernel

/-- A command that names a DDC the module does not have finds nothing to act on: only the clock moves. -/
theorem test_no_such_unit : exec (.ddcFault 5 40) (at0 up) = .next (at0 (up.at 5)) := rfl

/-- R238's example: an 8-bit c becomes (c << 2) | (c >> 6); back at 8 bits it is c again. -/
theorem test_widen_example :
    ((List.range 256).all fun c => widen10 8 c == Nat.lor (c * 4) (c / 64) && toBpc 8 (widen10 8 c) == c) = true := by decide +kernel

/-- R236, R238: a P32 pixel 0x80FF8000 of a buffer at (3, 2), zoomed by 2, over the background 0xFF0000FF, at the last place it covers and the first
it does not: red 128 × 1023 / 255, green 128 × 514 / 255, blue 127 × 1023 / 255. -/
theorem test_composed_pixel :
    let d := dv [(Ix.vpLayerHandle, 2, 0, 0x10000), (Ix.vpLayerX, 2, 0, 3), (Ix.vpLayerY, 2, 0, 2), (Ix.vpLayerZoomX, 2, 0, 2),
        (Ix.vpLayerZoomY, 2, 0, 2), (Ix.vpBackground, 0, 0, 0xFF0000FF)]
      { up with vp := { up.vp with handles := [(0, ⟨0, 4096, 1, 1, 4, 256, 0⟩)], generations := [(0, 1)],
                                   rushPool := [(1, 0x80#8), (2, 0xFF#8), (3, 0x80#8)] } }
    d.composed [] 4 3 = ⟨255, 514, 258, 509⟩ ∧ d.composed [] 5 3 = ⟨255, 0, 0, 1023⟩ := by decide +kernel

/-! ### States and operands that meet the statements' hypotheses -/

/-- `Obligations.StepRunsTheFrontCommand`, its second clause. -/
theorem test_meets_StepRunsTheFrontCommand : ∃ s : State, s.pending = [] := ⟨State.reset, by decide⟩

/-- `Obligations.ResetState`: an entry whose row gives its default. -/
theorem test_meets_ResetState : ∃ ix sub r, specialDefault ix sub = none ∧ rowOf ix sub = some r ∧ r.name ≠ "count" :=
  ⟨Ix.capHodOccupancy, 0, rowAt Ix.capHodOccupancy 0, by decide +kernel⟩

/-- `Obligations.EveryStepKeepsMemoryAndQueue`: a step from a state with memory and a queue. -/
theorem test_meets_EveryStepKeepsMemoryAndQueue :
    ∃ s s', step s = .next s' ∧ Memory.wf s.mem ∧ s.pending ≠ [] ∧ s.mem ≠ [] :=
  ⟨{ at0 up [(71, 3#8)] with pending := [.auxQualified 7] }, _, rfl, by decide +kernel⟩

/-- `Obligations.SamplesConvertToQ1_23`: the top code of a 14-bit converter in mode C1. -/
theorem test_meets_SamplesConvertToQ1_23 :
    ∃ (e : Dev) (q raw : Nat) (r : ModeRow) (n : Nat), modeRow (e.nI Ix.itkMode q) = some r ∧ e.nI Ix.itkN q = n ∧ 8 ≤ n ∧ n ≤ r.nTotal ∧ raw < 2 ^ r.nTotal :=
  ⟨dv [(Ix.itkMode, 16, 0, 1), (Ix.itkN, 16, 0, 14)] up, 15, 2 ^ 16 - 1, ⟨true, 16, 1, 2, 16, 16, 16, 25600000000, 1⟩, 14, by decide +kernel⟩

/-- Every clause of `Obligations.DrainsCrossingsAndFaultLog` has a state and operands that meet its hypotheses together. -/
theorem test_meets_DrainsCrossingsAndFaultLog :
    (∃ (t isl inst : _) (s : State) (e : Dev) (p : _), e = s.dev.at t ∧ (e.flt.drains.find? (fun p => p.1 == isl && p.2.1 == inst) = some p)) ∧
    (∃ (t isl inst left : _) (s : State) (e : Dev) (p : _), e = s.dev.at t ∧ (e.flt.drains.find? (fun p => p.1 == isl && p.2.1 == inst) = some p) ∧
      left ≠ 0 ∧ p.2.2 + us 50 ≤ e.now ∧ e.sup.emergencies.length < 32) ∧
    (∃ (t q : _) (s : State) (e : Dev) (c : _), e = s.dev.at t ∧ c = e.srcClock (0x10 + q) ∧ q < 16 ∧ e.wideTaker (0x10 + q) = none) ∧
    (∃ (t q : _) (s : State) (e : Dev) (c p : _), e = s.dev.at t ∧ c = e.srcClock (0x10 + q) ∧ q < 16 ∧ e.wideTaker (0x10 + q) = some p) ∧
    (∃ (t n : _) (s : State) (e : Dev), e = s.dev.at t ∧ n < 32) ∧
    (∃ (t p : _) (s : State) (e : Dev), e = s.dev.at t ∧ p < 4) ∧
    (∃ (t l : _) (s : State) (e : Dev), e = s.dev.at t ∧ l < 16) ∧
    (∃ (t path : _) (s : State) (e : Dev), e = s.dev.at t ∧ e.reaches path Ix.fltLogClear) :=
  ⟨⟨0, 4, 2, at0 ({ up with flt := { up.flt with drains := [(4, 2, 0)] } }), _, (4, 2, 0), rfl, by decide +kernel⟩,
    ⟨0, 4, 2, 3, at0 ({ up with flt := { up.flt with drains := [(4, 2, 0)] }, now := 2 ^ 50 }), _, (4, 2, 0), rfl, by decide +kernel⟩,
    ⟨0, 15, at0 (up), _, _, rfl, rfl, by decide +kernel⟩,
    ⟨0, 0, at0 (dv [(Ix.chnLaneSrc, 1, 0, 0)] up), _, _, 0, rfl, rfl, by decide +kernel⟩,
    ⟨0, 31, at0 (up), _, rfl, by decide +kernel⟩,
    ⟨0, 3, at0 (up), _, rfl, by decide +kernel⟩,
    ⟨0, 15, at0 (up), _, rfl, by decide +kernel⟩,
    ⟨0, 1, at0 (up), _, rfl, (by delta Dev.reaches; decide +kernel)⟩⟩

/-- Every clause of `Obligations.CutCommandsCommitAbortAndDiscard` has a state and operands that meet its hypotheses together. -/
theorem test_meets_CutCommandsCommitAbortAndDiscard :
    (∃ (t path : _) (s : State) (e : Dev), e = s.dev.at t ∧ e.reaches path Ix.modCutCommit ∧ e.cutWaiting = false ∧ e.cut.staged ≠ []) ∧
    (∃ (t path : _) (s : State) (e : Dev), e = s.dev.at t ∧ e.reaches path Ix.modCutCommit ∧ 1 ≤ path ∧ path ≤ 4 ∧ e.cutWaiting = true) ∧
    (∃ (t path : _) (s : State) (e : Dev), e = s.dev.at t ∧ e.reaches path Ix.modCutCommit ∧ 1 ≤ path ∧ path ≤ 4 ∧ e.cutWaiting = false ∧ e.cut.staged
      = []) ∧
    (∃ (t path : _) (s : State) (e : Dev) (c : Cut), e = s.dev.at t ∧ e.reaches path Ix.modCutCommit ∧ e.cut.user = some c ∧ c.distributed = false) ∧
    (∃ (t path : _) (s : State) (e : Dev), e = s.dev.at t ∧ e.reaches path Ix.modCutCommit ∧ 1 ≤ path ∧ path ≤ 4 ∧ (∀ c, e.cut.user = some c →
      c.distributed = true) ∧ e.sup.emergencies.length < 32) ∧
    (∃ (t path : _) (s : State) (e : Dev), e = s.dev.at t ∧ e.reaches path Ix.modCutCommit) :=
  ⟨⟨0, 1, at0 ({ up with cut := { up.cut with staged := [(⟨Ix.tbMode, 0, 0, 1⟩ : SWrite)] } }), _, rfl, (by delta Dev.reaches; decide +kernel)⟩,
    ⟨0, 1, at0 ({ up with cut := { up.cut with user := some {} } }), _, rfl, (by delta Dev.reaches; decide +kernel)⟩,
    ⟨0, 1, at0 ({ up with cut := { up.cut with staged := [] } }), _, rfl, (by delta Dev.reaches; decide +kernel)⟩,
    ⟨0, 1, at0 ({ up with cut := { up.cut with user := some ({ writes := [(⟨Ix.tbMode, 0, 0, 1⟩ : SWrite)], distributed := false } : Cut) } }), _,
      ({ writes := [(⟨Ix.tbMode, 0, 0, 1⟩ : SWrite)], distributed := false } : Cut), rfl, (by delta Dev.reaches; decide +kernel)⟩,
    ⟨0, 1, at0 (up), _, rfl, (by delta Dev.reaches; decide +kernel)⟩,
    ⟨0, 1, at0 (up), _, rfl, (by delta Dev.reaches; decide +kernel)⟩⟩

/-- Every clause of `Obligations.CutCommitPointAndApplication` has a state and operands that meet its hypotheses together. -/
theorem test_meets_CutCommitPointAndApplication :
    (∃ (t : _) (s : State) (e : Dev) (c : Cut), e = s.dev.at t ∧ e.cut.user = some c ∧ c.distributed = false ∧ e.sup.running = true ∧ c.kind = .user ∧
      c.path = 2 ∧ (c.explicit = false ∨ e.soon ≤ c.due) ∧ e.setCheck c.writes = []) ∧
    (∃ (t : _) (s : State) (e : Dev) (c : Cut), e = s.dev.at t ∧ e.cut.user = some c ∧ c.distributed = false ∧ e.sup.running = true ∧ c.kind = .user ∧
      c.path = 2 ∧ c.explicit = true ∧ c.due < e.soon ∧ e.cut.engine = []) ∧
    (∃ (t : _) (s : State) (e : Dev) (c : Cut), e = s.dev.at t ∧ e.cut.user = some c ∧ c.distributed = false ∧ e.sup.running = true ∧ c.kind = .user ∧
      c.path = 2 ∧ (c.explicit = false ∨ e.soon ≤ c.due) ∧ e.setCheck c.writes ≠ [] ∧ e.cut.engine = []) ∧
    (∃ (t isl first : _) (s : State) (e : Dev) (c : Cut), e = s.dev.at t ∧ 1 ≤ isl ∧ isl ≤ 12 ∧ e.cut.user = some c ∧ c.distributed = true ∧ first <
      c.due) ∧
    (∃ (t first : _) (s : State) (e : Dev) (c : Cut) (w : SWrite), e = s.dev.at t ∧ e.cut.user = some c ∧ c.kind = .user ∧ c.distributed = true ∧
      first = max c.due c.known ∧ c.applied = [] ∧ c.units = [] ∧ c.writes = [w] ∧ writeIsland w = 12 ∧ w.ix ≠ Ix.pwrIslPoint ∧ (w.ix < 0x5030 ∨
      0x5032 < w.ix) ∧ w.ix ≠ Ix.itkSysrefDelay ∧ w.ix ∉ Ix.modCutSeq :: Ix.modCutState :: eventPlaces ∧ e.cut.engine = [] ∧ c.seq < two48) ∧
    (∃ (t first : _) (s : State) (e : Dev) (c : Cut) (w w' : SWrite), e = s.dev.at t ∧ e.cut.user = some c ∧ c.kind = .user ∧ c.distributed = true ∧
      first = max c.due c.known ∧ c.applied = [] ∧ c.units = [] ∧ c.writes = [w, w'] ∧ writeIsland w = 12 ∧ writeIsland w' ≠ 12 ∧ w.ix ≠
      Ix.pwrIslPoint ∧ (w.ix < 0x5030 ∨ 0x5032 < w.ix) ∧ w.ix ∉ eventPlaces) ∧
    (∃ (t first : _) (s : State) (e : Dev) (c : Cut), e = s.dev.at t ∧ e.activeCut = some c ∧ c.distributed = true ∧ first = tickAt (max c.due
      c.known) ∧ c.applied = [] ∧ c.units = [] ∧ c.kind = .repointOut ∧ c.isl = 7 ∧ e.islandOff 7 = false ∧ e.mayStall = false) :=
  ⟨⟨0, at0
      ({ up with cut := { up.cut with user := some ({ writes := [(⟨Ix.tbMode, 0, 0, 1⟩ : SWrite)], due := 100, distributed := false, kind := .user, path := 2, explicit := false } : Cut) }, sup := { up.sup with running := true } }),
      _, ({ writes := [(⟨Ix.tbMode, 0, 0, 1⟩ : SWrite)], due := 100, distributed := false, kind := .user, path := 2, explicit := false } : Cut), rfl,
      by decide +kernel⟩,
    ⟨0, at0
      ({ up with now := 2 ^ 60, cut := { up.cut with user := some ({ writes := [(⟨Ix.tbMode, 0, 0, 1⟩ : SWrite)], due := 100, distributed := false, kind := .user, path := 2, explicit := true } : Cut), engine := [] }, sup := { up.sup with running := true } }),
      _, ({ writes := [(⟨Ix.tbMode, 0, 0, 1⟩ : SWrite)], due := 100, distributed := false, kind := .user, path := 2, explicit := true } : Cut), rfl,
      by decide +kernel⟩,
    ⟨0, at0
      ({ up with sup := { up.sup with cycle := 7000, running := true }, cut := { up.cut with user := some ({ writes := [⟨Ix.tbTimeSrc, 0, 0, 2⟩], distributed := false, kind := .user, path := 2, explicit := false } : Cut), engine := [] } }),
      _, ({ writes := [⟨Ix.tbTimeSrc, 0, 0, 2⟩], distributed := false, kind := .user, path := 2, explicit := false } : Cut), rfl, by decide +kernel⟩,
    ⟨0, 9, 99, at0
      ({ up with cut := { up.cut with user := some ({ writes := [(⟨Ix.tbMode, 0, 0, 1⟩ : SWrite)], due := 100, distributed := true } : Cut) } }), _,
      ({ writes := [(⟨Ix.tbMode, 0, 0, 1⟩ : SWrite)], due := 100, distributed := true } : Cut), rfl, by decide +kernel⟩,
    ⟨0, 100, at0
      ({ up with cut := { up.cut with user := some ({ writes := [(⟨Ix.pwrEventRing, 0, 0, 1⟩ : SWrite)], due := 100, seq := 9, kind := .user, distributed := true, applied := [], units := [] } : Cut), engine := [] } }),
      _, ({ writes := [(⟨Ix.pwrEventRing, 0, 0, 1⟩ : SWrite)], due := 100, seq := 9, kind := .user, distributed := true, applied := [], units := [] }
      : Cut), (⟨Ix.pwrEventRing, 0, 0, 1⟩ : SWrite), rfl, by decide +kernel⟩,
    ⟨0, 100, at0
      ({ up with cut := { up.cut with user := some ({ writes := [(⟨Ix.pwrEventRing, 0, 0, 1⟩ : SWrite), (⟨Ix.chnWidth, 0, 0, 1⟩ : SWrite)], due := 100, seq := 9, kind := .user, distributed := true, applied := [], units := [] } : Cut) } }),
      _,
      ({ writes := [(⟨Ix.pwrEventRing, 0, 0, 1⟩ : SWrite), (⟨Ix.chnWidth, 0, 0, 1⟩ : SWrite)], due := 100, seq := 9, kind := .user, distributed := true, applied := [], units := [] }
      : Cut), (⟨Ix.pwrEventRing, 0, 0, 1⟩ : SWrite), (⟨Ix.chnWidth, 0, 0, 1⟩ : SWrite), rfl, by decide +kernel⟩,
    ⟨0, (tickAt 100), at0 (dv [(Ix.modService, 0, 0, 3)]
      { up with cut := { up.cut with engine := [{ due := 100, isl := 7, kind := .repointOut, distributed := true, seq := 9 }] }, cap := { up.cap with stallUntil := 2 ^ 60 } }),
      _, ({ due := 100, isl := 7, kind := .repointOut, distributed := true, seq := 9 } : Cut), rfl, by decide +kernel⟩⟩

/-- Every clause of `Obligations.SuppliesStartTheCore` has a state and operands that meet its hypotheses together. -/
theorem test_meets_SuppliesStartTheCore :
    (∃ (t : _) (s : State) (e : Dev), e = s.dev.at t ∧ e.hw.auxIn = false ∧ e.hw.v12Early = false) ∧
    (∃ (t : _) (s : State) (e : Dev), e = s.dev.at t ∧ e.hw.auxIn = false ∧ e.hw.v12Early = true ∧ e.sup.emergencies.length < 32) ∧
    (∃ (t : _) (s : State) (e : Dev), e = s.dev.at t ∧ e.hw.auxIn = true ∧ e.hw.auxSince + ms 1 ≤ e.now ∧
      { e with hw := { e.hw with auxQualified := true } }.startClear) ∧
    (∃ (t : _) (s : State) (e : Dev), e = s.dev.at t ∧ e.hw.v12Good = false ∧ { e with hw := { e.hw with v12Good := true } }.startClear) ∧
    (∃ (t : _) (s : State) (e : Dev), e = s.dev.at t ∧ e.hw.v12Good = false ∧ e.hw.auxQualified = false ∧ e.hw.auxIn = true ∧ e.sup.emergencies.length
      < 32) ∧
    (∃ (t : _) (s : State) (e : Dev), e = s.dev.at t ∧ e.hw.regulators = true ∧ e.hw.v12Good = true ∧ e.hw.pwrGood = false ∧ e.hw.railFailed = false ∧
      (e.rd Ix.tbRefState 1 0 = 2 ∨ e.rd Ix.tbRefState 2 0 = 2)) ∧
    (∃ (t : _) (s : State) (e : Dev), e = s.dev.at t ∧ e.hw.regulators = true ∧ e.hw.v12Good = true ∧ e.hw.pwrGood = false ∧ e.hw.railFailed = false ∧
      e.rd Ix.tbRefState 1 0 ≠ 2 ∧ e.rd Ix.tbRefState 2 0 ≠ 2 ∧ e.sup.emergencies.length < 32) ∧
    (∃ (t : _) (s : State) (e : Dev), e = s.dev.at t ∧ e.hw.lossPending = true ∧ e.hw.v12Good = false ∧ (∀ x ∈ e.flt.log.head?, x.time ≠ e.time96)) ∧
    (∃ (t : _) (s : State) (e : Dev), e = s.dev.at t ∧ e.hw.resetLow = true ∧
      { e with hw := { e.hw with resetLow := false, trip := false, railFailed := false } }.startClear) ∧
    (∃ (t : _) (s : State) (e : Dev) (w : _), e = s.dev.at t ∧ e.hw.resetWritten = some w ∧ w + ms 10 ≤ e.now ∧
      { e with hw := { e.hw with resetWritten := none } }.startClear) ∧
    (∃ (t path : _) (s : State) (e : Dev), e = s.dev.at t ∧ e.reaches path Ix.hwRestart ∧ e.hw.trip = true ∧
      { e with hw := { e.hw with trip := false } }.startClear) ∧
    (∃ (t path : _) (s : State) (e : Dev), e = s.dev.at t ∧ e.reaches path Ix.hwRestart ∧ 1 ≤ path ∧ path ≤ 4 ∧ (e.hw.trip = false ∨ 1440 ≤ e.rd
      Ix.hwTemp 2 0)) ∧
    (∃ (t : _) (temp : Int) (s : State) (e : Dev), e = s.dev.at t ∧ e.hw.startHeld = true ∧ temp < 1440 ∧ -1000 ≤ temp ∧ e.hw.throttling = false ∧
      (e.wr Ix.hwTemp 2 0 temp).startClear) :=
  ⟨⟨0, at0 ({ up with hw := { up.hw with auxIn := false, v12Early := false }, sup := { up.sup with running := true } }), _, rfl, by decide +kernel⟩,
    ⟨0, at0 ({ up with hw := { up.hw with auxIn := false, v12Early := true }, sup := { up.sup with running := true } }), _, rfl, by decide +kernel⟩,
    ⟨0, at0 ({ up with hw := { up.hw with auxIn := true, auxQualified := false, v12Good := true, pwrGood := false }, now := 2 ^ 60 }), _, rfl, (by
      delta Dev.startClear; decide +kernel)⟩,
    ⟨0, at0 ({ up with hw := { up.hw with auxIn := true, auxQualified := true, v12Good := false, pwrGood := false } }), _, rfl, (by
      delta Dev.startClear; decide +kernel)⟩,
    ⟨0, at0 ({ up with hw := { up.hw with auxIn := true, auxQualified := false, v12Good := false, pwrGood := false } }), _, rfl, by decide +kernel⟩,
    ⟨0, at0 (dv [(Ix.tbRefState, 1, 0, 2)]
      { up with hw := { up.hw with auxIn := true, auxQualified := true, v12Good := true, pwrGood := false, regulators := true, railFailed := false } }),
      _, rfl, by decide +kernel⟩,
    ⟨0, at0 (dv [(Ix.tbRefState, 1, 0, 0), (Ix.tbRefState, 2, 0, 0)]
      { up with hw := { up.hw with auxIn := true, auxQualified := true, v12Good := true, pwrGood := false, regulators := true, railFailed := false } }),
      _, rfl, by decide +kernel⟩,
    ⟨0, at0 ({ up with hw := { up.hw with v12Good := false, lossPending := true } }), _, rfl, by decide +kernel⟩,
    ⟨0, at0 ({ up with hw := { up.hw with auxIn := true, auxQualified := true, v12Good := true, pwrGood := false, resetLow := true } }), _, rfl, (by
      delta Dev.startClear; decide +kernel)⟩,
    ⟨0, at0
      ({ up with hw := { up.hw with auxIn := true, auxQualified := true, v12Good := true, pwrGood := false, resetWritten := some 0 }, now := 2 ^ 60 }),
      _, 0, rfl, (by delta Dev.startClear; decide +kernel)⟩,
    ⟨0, 1, at0 ({ up with hw := { up.hw with auxIn := true, auxQualified := true, v12Good := true, pwrGood := true, trip := true } }), _, rfl, (by
      delta Dev.reaches Dev.startClear; decide +kernel)⟩,
    ⟨0, 1, at0 ({ up with hw := { up.hw with trip := false } }), _, rfl, (by delta Dev.reaches; decide +kernel)⟩,
    ⟨0, (20 : Int), at0
      ({ up with hw := { up.hw with auxIn := true, auxQualified := true, v12Good := true, pwrGood := false, startHeld := true, throttling := false } }),
      _, rfl, (by delta Dev.startClear; decide +kernel)⟩⟩

/-- Every clause of `Obligations.LossOfTheCoreRails` has a state and operands that meet its hypotheses together. -/
theorem test_meets_LossOfTheCoreRails :
    (∃ (t : _) (s : State) (e : Dev), e = s.dev.at t ∧ e.hw.auxIn = true) ∧
    (∃ (t : _) (s : State) (e : Dev), e = s.dev.at t ∧ e.hw.pwrGood = true) ∧
    (∃ (t : _) (s : State) (e : Dev), e = s.dev.at t ∧ e.hw.pwrGood = false) ∧
    (∃ (t : _) (s : State) (e : Dev), e = s.dev.at t ∧ e.hw.pwrGood = true) ∧
    (∃ (t rail mv : _) (s : State) (e : Dev), e = s.dev.at t ∧ 1 ≤ rail ∧ rail ≤ 8 ∧ (mv < (railWindow rail).1 ∨ (railWindow rail).2 < mv) ∧
      e.hw.pwrGood = true) ∧
    (∃ (t rail mv ca : _) (s : State) (e : Dev), e = s.dev.at t ∧ 1 ≤ rail ∧ rail ≤ 8 ∧ (railWindow rail).1 ≤ mv ∧ mv ≤ (railWindow rail).2 ∧ mv <
      65536 ∧ ca < 65536) ∧
    (∃ (t samples : _) (s : State) (e : Dev), e = s.dev.at t ∧ 12 ≤ samples ∧ e.hw.auxIn = true) ∧
    (∃ (t samples : _) (s : State) (e : Dev), e = s.dev.at t ∧ samples < 12) ∧
    (∃ (t path : _) (s : State) (e : Dev), e = s.dev.at t ∧ e.sup.running = true ∧ e.pathOpen path = true) ∧
    (∃ (t : _) (temp : Int) (s : State) (e : Dev), e = s.dev.at t ∧ e.rd Ix.hwTempTrip 0 0 ≤ temp ∧ e.hw.pwrGood = true) :=
  ⟨⟨0, at0 ({ up with hw := { up.hw with auxIn := true } }), _, rfl, by decide +kernel⟩,
    ⟨0, at0 ({ up with hw := { up.hw with pwrGood := true } }), _, rfl, by decide +kernel⟩,
    ⟨0, at0 ({ up with hw := { up.hw with pwrGood := false } }), _, rfl, by decide +kernel⟩,
    ⟨0, at0 ({ up with hw := { up.hw with pwrGood := true } }), _, rfl, by decide +kernel⟩,
    ⟨0, 3, 1, at0 ({ up with hw := { up.hw with pwrGood := true } }), _, rfl, by decide +kernel⟩,
    ⟨0, 1, (railWindow 1).1, 65535, at0 (up), _, rfl, by decide +kernel⟩,
    ⟨0, 12, at0 ({ up with hw := { up.hw with auxIn := true } }), _, rfl, by decide +kernel⟩,
    ⟨0, 11, at0 (up), _, rfl, by decide +kernel⟩,
    ⟨0, 1, at0 ({ up with sup := { up.sup with running := true } }), _, rfl, by decide +kernel⟩,
    ⟨0, (2000 : Int), at0 ({ up with hw := { up.hw with pwrGood := true } }), _, rfl, by decide +kernel⟩⟩

/-- Every clause of `Obligations.ThermalReportsAndRelays` has a state and operands that meet its hypotheses together. -/
theorem test_meets_ThermalReportsAndRelays :
    (∃ (t : _) (temp : Int) (s : State) (e : Dev), e = s.dev.at t ∧ e.rd Ix.hwTempThrottle 0 0 ≤ temp ∧ -2048 ≤ temp ∧ temp ≤ 2047 ∧ e.hw.throttling =
      false ∧ e.hw.pwrGood = true ∧ e.sup.running = true ∧ e.n0 Ix.pwrDegraded < 256) ∧
    (∃ (t : _) (temp v : Int) (others : List Int) (s : State) (e : Dev), e = s.dev.at t ∧ (temp < e.rd Ix.hwTempThrottle 0 0 ∨ e.hw.throttling = true)
      ∧ -2048 ≤ temp ∧ temp ≤ 2047 ∧ e.rd Ix.hwTempThrottle 0 0 < temp + 48 ∧ -2048 ≤ v ∧ v ≤ 2047 ∧ others = [v]) ∧
    (∃ (t : _) (temp : Int) (s : State) (e : Dev), e = s.dev.at t ∧ temp + 48 ≤ e.rd Ix.hwTempThrottle 0 0 ∧ -2048 ≤ temp ∧ e.hw.throttling = true) ∧
    (∃ (t : _) (temp : Int) (s : State) (e : Dev), e = s.dev.at t ∧ e.inletMax < temp ∧ temp ≤ 2047 ∧ e.hw.inletOver = false ∧
      e.sup.emergencies.length < 32) ∧
    (∃ (t : _) (temp : Int) (s : State) (e : Dev), e = s.dev.at t ∧ e.inletMax < temp ∧ temp ≤ 2047 ∧ e.hw.inletOver = true) ∧
    (∃ (t : _) (s : State) (e : Dev), e = s.dev.at t) ∧
    (∃ (t : _) (s : State) (e : Dev), e = s.dev.at t ∧ e.sup.emergencies.length < 32) ∧
    (∃ (t : _) (s : State) (e : Dev), e = s.dev.at t ∧ e.hw.auxIn = true ∧ e.hw.resetLow = false ∧ e.sup.al = .away) :=
  ⟨⟨0, (2000 : Int), at0 ({ up with hw := { up.hw with throttling := false, pwrGood := true }, sup := { up.sup with running := true } }), _, rfl,
      by decide +kernel⟩,
    ⟨0, (1900 : Int), (7 : Int), ([7] : List Int), at0 (dv [(Ix.hwTempThrottle, 0, 0, 1920)] { up with hw := { up.hw with throttling := true } }), _,
      rfl, by decide +kernel⟩,
    ⟨0, (1800 : Int), at0 (dv [(Ix.hwTempThrottle, 0, 0, 1920)] { up with hw := { up.hw with throttling := true, thermLow := true } }), _, rfl,
      by decide +kernel⟩,
    ⟨0, (2000 : Int), at0 ({ up with hw := { up.hw with inletOver := false } }), _, rfl, by decide +kernel⟩,
    ⟨0, 2047, at0 ({ up with hw := { up.hw with inletOver := true } }), _, rfl, by decide +kernel⟩,
    ⟨0, at0 (up), _, rfl⟩,
    ⟨0, at0 (up), _, rfl, by decide +kernel⟩,
    ⟨0, at0 ({ up with hw := { up.hw with auxIn := true, resetLow := false }, sup := { up.sup with al := .away } }), _, rfl, by decide +kernel⟩⟩

/-- Every clause of `Obligations.BypassArrays` has a state and operands that meet its hypotheses together. -/
theorem test_meets_BypassArrays :
    (∃ (t dim : _) (s : State) (e : Dev), e = s.dev.at t ∧ dim < 2 ∧ e.rd Ix.hwBypassForce (dim + 1) 0 ≠ 1 ∧ e.mayDrive = true ∧ (e.rd
      Ix.hwBypassState (dim + 1) 0 = 0 ∨ e.rd Ix.hwBypassState (dim + 1) 0 = 3)) ∧
    (∃ (t dim : _) (s : State) (e : Dev), e = s.dev.at t ∧ dim < 2 ∧ (e.rd Ix.hwBypassState (dim + 1) 0 = 1 ∨ e.rd Ix.hwBypassState (dim + 1) 0 = 2)) ∧
    (∃ (t dim : _) (s : State) (e : Dev) (w : _), e = s.dev.at t ∧ dim < 2 ∧ e.hw.moving.find? dim = some w) ∧
    (∃ (t dim : _) (s : State) (e : Dev) (w : _), e = s.dev.at t ∧ dim < 2 ∧ e.hw.moving.find? dim = some w ∧ w + ms 10 ≤ e.now ∧ e.rd
      Ix.hwBypassState (dim + 1) 0 ≠ 4) :=
  ⟨⟨0, 1, at0 (dv [(Ix.hwBypassState, 2, 0, 0), (Ix.hwBypassForce, 2, 0, 0)] { up with hw := { up.hw with v12Good := true } }), _, rfl,
      by decide +kernel⟩,
    ⟨0, 1, at0 (dv [(Ix.hwBypassState, 2, 0, 1)] up), _, rfl, by decide +kernel⟩,
    ⟨0, 1, at0 ({ up with hw := { up.hw with moving := [(1, 1)] } }), _, 1, rfl, by decide +kernel⟩,
    ⟨0, 1, at0 (dv [(Ix.hwBypassState, 2, 0, 0)] { up with now := 2 ^ 60, hw := { up.hw with moving := [(1, 0)] } }), _, 0, rfl, by decide +kernel⟩⟩

/-- Every clause of `Obligations.ForcedBypassStaysThrough` has a state and operands that meet its hypotheses together. -/
theorem test_meets_ForcedBypassStaysThrough :
    (∃ (t path dim : _) (s : State) (e : Dev), e = s.dev.at t ∧ e.reaches path Ix.hwBypassForce ∧ dim < 2 ∧ (e.rd Ix.hwBypassState (dim + 1) 0 = 1 ∨
      e.rd Ix.hwBypassState (dim + 1) 0 = 2)) ∧
    (∃ (t path dim : _) (s : State) (e : Dev), e = s.dev.at t ∧ e.reaches path Ix.hwBypassForce ∧ dim < 2 ∧ e.rd Ix.hwBypassState (dim + 1) 0 = 0) ∧
    (∃ (t dim : _) (s : State) (e : Dev), e = s.dev.at t ∧ dim < 2 ∧ e.rd Ix.hwBypassForce (dim + 1) 0 = 1) :=
  ⟨⟨0, 1, 1, at0 (dv [(Ix.hwBypassState, 2, 0, 1)] up), _, rfl, (by delta Dev.reaches; decide +kernel)⟩,
    ⟨0, 1, 1, at0 (dv [(Ix.hwBypassState, 2, 0, 0)] up), _, rfl, (by delta Dev.reaches; decide +kernel)⟩,
    ⟨0, 1, at0 (dv [(Ix.hwBypassForce, 2, 0, 1)] up), _, rfl, by decide +kernel⟩⟩

/-- Every clause of `Obligations.FirmwareImagesAtBoot` has a state and operands that meet its hypotheses together. -/
theorem test_meets_FirmwareImagesAtBoot :
    (∃ (t : _) (n : Nat) (okA okB : _) (s : State) (e : Dev), e = s.dev.at t ∧ e.hw.auxIn = true ∧ e.hw.resetLow = false ∧ e.hw.resetWritten = none ∧
      e.sup.running = false ∧ e.sup.restarting = false ∧ e.n0 Ix.modBootImage = 0 ∧ e.service ≠ 5 ∧ (n = 1 ∨ n = 2) ∧ e.n0 Ix.modBootSelect = n ∧
      e.imageOk okA okB n = true) ∧
    (∃ (t : _) (n : Nat) (okA okB : _) (s : State) (e : Dev), e = s.dev.at t ∧ e.hw.auxIn = true ∧ e.hw.resetLow = false ∧ e.hw.resetWritten = none ∧
      e.sup.running = false ∧ e.sup.restarting = false ∧ e.n0 Ix.modBootImage = 0 ∧ e.service ≠ 5 ∧ (n = 1 ∨ n = 2) ∧ e.n0 Ix.modBootSelect = n ∧
      e.imageOk okA okB n = false ∧ e.imageOk okA okB (3 - n) = true ∧ e.sup.emergencies.length < 32) ∧
    (∃ (t : _) (s : State) (e : Dev), e = s.dev.at t ∧ e.hw.auxIn = true ∧ e.hw.resetLow = false ∧ e.hw.resetWritten = none ∧ e.sup.running = false ∧
      e.sup.restarting = false ∧ e.n0 Ix.modBootImage = 0 ∧ e.service ≠ 5 ∧ e.hw.pwrGood = false ∧ e.sup.emergencies.length < 32) ∧
    (∃ (t : _) (s : State) (e : Dev), e = s.dev.at t ∧ e.hw.auxIn = true ∧ e.hw.resetLow = false ∧ e.sup.running = false ∧ e.sup.restarting = false ∧
      e.n0 Ix.modBootImage ≠ 0 ∧ e.service ≠ 5 ∧ e.hw.lossFound = false ∧ e.cal.saved.writes = []) ∧
    (∃ (t : _) (s : State) (e : Dev), e = s.dev.at t ∧ e.hw.auxIn = true ∧ e.hw.resetLow = false ∧ e.sup.running = false ∧ e.sup.restarting = false ∧
      e.n0 Ix.modBootImage ≠ 0 ∧ e.service ≠ 5 ∧ e.hw.lossFound = true ∧ e.cal.saved.writes = []) ∧
    (∃ (t : _) (s : State) (e : Dev) (w : _) (n : Nat), e = s.dev.at t ∧ e.boot.trialSince = some w ∧ w + sec ≤ e.now ∧ e.n0 Ix.fltUpdateState ≠ 2 ∧
      e.service = 0 ∧ e.sup.running = false ∧ e.n0 Ix.modBootImage = n ∧ (n = 1 ∨ n = 2) ∧ e.imageOk true true (3 - n) = true ∧
      e.sup.emergencies.length < 32) :=
  ⟨⟨0, (2 : Nat), false, true, at0 (dv [(Ix.modImageState, 1, 0, 2), (Ix.modImageState, 2, 0, 2), (Ix.modService, 0, 0, 1), (Ix.modBootSelect, 0, 0,
      2), (Ix.modBootImage, 0, 0, 0)]
      { up with hw := { up.hw with auxIn := true, resetLow := false, resetWritten := none }, sup := { up.sup with running := false, restarting := false } }),
      _, rfl, by decide +kernel⟩,
    ⟨0, (1 : Nat), false, true, at0 (dv [(Ix.modImageState, 1, 0, 2), (Ix.modImageState, 2, 0, 2), (Ix.modService, 0, 0, 1), (Ix.modBootSelect, 0, 0,
      1), (Ix.modBootImage, 0, 0, 0)]
      { up with hw := { up.hw with auxIn := true, resetLow := false, resetWritten := none }, sup := { up.sup with running := false, restarting := false } }),
      _, rfl, by decide +kernel⟩,
    ⟨0, at0 (dv [(Ix.modBootImage, 0, 0, 0), (Ix.modService, 0, 0, 0)]
      { up with hw := { up.hw with auxIn := true, resetLow := false, resetWritten := none, pwrGood := false }, sup := { up.sup with running := false, restarting := false } }),
      _, rfl, by decide +kernel⟩,
    ⟨0, at0 (dv [(Ix.modBootImage, 0, 0, 1), (Ix.modService, 0, 0, 0)]
      { up with hw := { up.hw with auxIn := true, resetLow := false, lossFound := false }, sup := { up.sup with running := false, restarting := false }, cal := { up.cal with saved := { up.cal.saved with writes := [] } } }),
      _, rfl, by decide +kernel⟩,
    ⟨0, at0 (dv [(Ix.modBootImage, 0, 0, 1), (Ix.modService, 0, 0, 0)]
      { up with hw := { up.hw with auxIn := true, resetLow := false, lossFound := true }, sup := { up.sup with running := false, restarting := false }, cal := { up.cal with saved := { up.cal.saved with writes := [] } } }),
      _, rfl, by decide +kernel⟩,
    ⟨0, at0 (dv [(Ix.modImageState, 1, 0, 1), (Ix.modImageState, 2, 0, 2), (Ix.modBootImage, 0, 0, 1), (Ix.modService, 0, 0, 0), (Ix.fltUpdateState,
      0, 0, 0)]
      { up with hw := { up.hw with auxIn := true }, now := 2 ^ 60, boot := { up.boot with trialSince := some 0 }, sup := { up.sup with running := false } }),
      _, 0, (1 : Nat), rfl, by decide +kernel⟩⟩

/-- Every clause of `Obligations.BringUpStepsAndChangeover` has a state and operands that meet its hypotheses together. -/
theorem test_meets_BringUpStepsAndChangeover :
    (∃ (t step : _) (s : State) (e : Dev), e = s.dev.at t ∧ e.stepRuns step = true ∧ (step = 5 ∨ step = 6) ∧ e.n0 Ix.modBringup < 65536) ∧
    (∃ (t : _) (s : State) (e : Dev), e = s.dev.at t ∧ e.stepRuns 4 = true ∧ e.n0 Ix.modBringup < 65536) ∧
    (∃ (t : _) (s : State) (e : Dev), e = s.dev.at t ∧ e.stepRuns 10 = true ∧ e.n0 Ix.modBringup < 65536) ∧
    (∃ (t : _) (s : State) (e : Dev), e = s.dev.at t ∧ e.stepRuns 7 = true ∧ 7 ∉ e.boot.failed) ∧
    (∃ (t : _) (s : State) (e : Dev), e = s.dev.at t ∧ e.stepRuns 13 = true ∧ e.hw.pRise + (if e.boot.memtest = 1 then 60 else 20) * sec ≤ e.now ∧
      e.service = 1 ∧ e.sup.emergencies.length < 32) ∧
    (∃ (t port : _) (s : State) (e : Dev) (w : _), e = s.dev.at t ∧ port < 4 ∧ e.boot.inserted.find? (port / 2) = some w ∧ e.portState port = 1 ∧ w +
      2 * sec ≤ e.now ∧ port ∉ e.boot.dark) ∧
    (∃ (t path : _) (s : State) (e : Dev), e = s.dev.at t ∧ e.reaches path Ix.modChangeover ∧ e.service = 1 ∧ bitOf (e.n0 Ix.modBringup) 13 = true ∧
      (∀ c ∈ e.cut.engine, c.kind ≠ .changeover)) ∧
    (∃ (t path : _) (s : State) (e : Dev), e = s.dev.at t ∧ e.reaches path Ix.modChangeover ∧ 1 ≤ path ∧ path ≤ 4 ∧ (e.service = 0 ∨ e.service = 4 ∨
      e.service = 5 ∨ e.service = 1 ∧ bitOf (e.n0 Ix.modBringup) 13 = false)) :=
  ⟨⟨0, 5, at0 (up), _, rfl, by decide +kernel⟩,
    ⟨0, at0 (up), _, rfl, by decide +kernel⟩,
    ⟨0, at0 ({ up with boot := { up.boot with done := [8] } }), _, rfl, by decide +kernel⟩,
    ⟨0, at0 (up), _, rfl, by decide +kernel⟩,
    ⟨0, at0 (dv [(Ix.modService, 0, 0, 1)] { up with boot := { up.boot with done := [10] }, now := 2 ^ 70 }), _, rfl, by decide +kernel⟩,
    ⟨0, 3, at0 (dv [(Ix.cfPortState, 4, 0, 1)] { up with boot := { up.boot with inserted := [(1, 0)] }, now := 2 ^ 60 }), _, 0, rfl,
      by decide +kernel⟩,
    ⟨0, 1, at0 (dv [(Ix.modBringup, 0, 0, 8192), (Ix.modService, 0, 0, 1)] up), _, rfl, (by delta Dev.reaches; decide +kernel)⟩,
    ⟨0, 1, at0 (dv [(Ix.modService, 0, 0, 0)] up), _, rfl, (by delta Dev.reaches; decide +kernel)⟩⟩

/-- Every clause of `Obligations.RushesServiceStarts` has a state and operands that meet its hypotheses together. -/
theorem test_meets_RushesServiceStarts :
    ∃ (t : _) (s : State) (e : Dev), e = s.dev.at t ∧ e.sup.running = true ∧ e.hw.pwrGood = true ∧ e.service = 0 ∧ e.hw.pRise + ms 400 ≤ e.now ∧
      e.cut.shadow = [] ∧ (∀ p ∈ e.dict, islandOfIx (keyIndex p.1) ∈ [1, 2, 3, 4, 5, 6, 0xA] → ∀ r, rowOf (keyIndex p.1) (keySub p.1) = some r →
      r.effect ≠ .cut) ∧ 7 ∉ e.boot.failed ∧ 13 ∉ e.boot.failed ∧ e.rushesLanes = true :=
  ⟨0, at0 (dv [(Ix.modService, 0, 0, 0)]
    { up with itk := { up.itk with lanes := [(0, { status := 1 }), (1, { status := 1 }), (2, { status := 1 }), (3, { status := 1 }), (16, { status := 1 }), (17, { status := 1 }), (18, { status := 1 }), (19, { status := 1 }), (32, { status := 1 }), (33, { status := 1 }), (34, { status := 1 }), (35, { status := 1 }), (48, { status := 1 }), (49, { status := 1 }), (50, { status := 1 }), (51, { status := 1 })] }, now := 2 ^ 60, sup := { up.sup with running := true }, hw := { up.hw with pwrGood := true }, cut := { up.cut with shadow := [] } }),
    _, rfl, by decide +kernel⟩

/-- Every clause of `Obligations.ChangeoverCompletes` has a state and operands that meet its hypotheses together. -/
theorem test_meets_ChangeoverCompletes :
    ∃ (t first : _) (s : State) (e : Dev), e = s.dev.at t ∧ e.service = 2 ∧ (∀ c ∈ e.cut.engine, c.kind ≠ .changeover) ∧ (∀ p ∈ e.tb.relocking, 12 <
      p.1) ∧ (∀ x ∈ e.boot.gapOpen, x ≤ first) ∧ e.cut.shadow = [] :=
  ⟨0, 1, at0 (dv [(Ix.modService, 0, 0, 2)] { up with cut := { up.cut with shadow := [] } }), _, rfl, by decide +kernel⟩

/-- Every clause of `Obligations.SupervisorRestartReturnAndWakes` has a state and operands that meet its hypotheses together. -/
theorem test_meets_SupervisorRestartReturnAndWakes :
    (∃ (t : _) (s : State) (e : Dev), e = s.dev.at t ∧ e.sup.running = true ∧ e.n0 Ix.fltUpdateState ≠ 3) ∧
    (∃ (t : _) (s : State) (e : Dev), e = s.dev.at t ∧ e.sup.restarting = true ∧ e.hw.auxIn = true ∧ e.hw.resetLow = false ∧ e.sup.queued = [] ∧
      e.sup.dropped = none ∧ e.sup.queueLost = false ∧ e.cal.abandoned = [] ∧ e.flt.repoint = none ∧ e.cut.user = none ∧ e.cut.engine = [] ∧ e.n0
      Ix.fltUpdateState ≠ 2 ∧ e.n0 Ix.fltUpdateState ≠ 3 ∧ e.n0 Ix.fltUpdateState ≠ 5 ∧ e.service ≠ 0 ∧ e.service ≠ 1 ∧ e.pwr.moved = []) ∧
    (∃ (t : _) (s : State) (e : Dev) (w : _), e = s.dev.at t ∧ e.pwr.waking = some w) ∧
    (∃ (t isl : _) (s : State) (e : Dev), e = s.dev.at t ∧ 1 ≤ isl ∧ isl ≤ 12 ∧ e.n0 Ix.pwrState = 3 ∧ 0 < e.rd Ix.pwrIslState isl 0 ∧ e.cut.shadow =
      []) :=
  ⟨⟨0, at0 (dv [(Ix.fltUpdateState, 0, 0, 0)] { up with sup := { up.sup with running := true } }), _, rfl, by decide +kernel⟩,
    ⟨0, at0 (dv [(Ix.modService, 0, 0, 3), (Ix.fltUpdateState, 0, 0, 0)]
      { up with sup := { up.sup with restarting := true, queued := [], dropped := none, queueLost := false }, hw := { up.hw with auxIn := true, resetLow := false }, cal := { up.cal with abandoned := [] }, flt := { up.flt with repoint := none }, cut := { up.cut with user := none, engine := [] }, pwr := { up.pwr with moved := [] } }),
      _, rfl, by decide +kernel⟩,
    ⟨0, at0 ({ up with pwr := { up.pwr with waking := some 1 } }), _, 1, rfl, by decide +kernel⟩,
    ⟨0, 1, at0 (dv [(Ix.pwrState, 0, 0, 3), (Ix.pwrIslState, 1, 0, 1)] { up with cut := { up.cut with shadow := [] } }), _, rfl, by decide +kernel⟩⟩

/-- Every clause of `Obligations.LinksAlign` has a state and operands that meet its hypotheses together. -/
theorem test_meets_LinksAlign :
    (∃ (t n : _) (s : State) (e : Dev), e = s.dev.at t ∧ n < 64) ∧
    (∃ (t n : _) (s : State) (e : Dev) (q : _), e = s.dev.at t ∧ n < 64 ∧ e.linkOfPhys n = some q ∧ e.linkState q = 1) ∧
    (∃ (t q : _) (s : State) (e : Dev), e = s.dev.at t ∧ q < 16 ∧ e.linkState q = 1 ∧ e.calibrated q = true ∧ e.linkHeld q = false) ∧
    (∃ (t q : _) (s : State) (e : Dev), e = s.dev.at t ∧ q < 16 ∧ e.linkState q = 2) ∧
    (∃ (t q : _) (s : State) (e : Dev) (n : _), e = s.dev.at t ∧ q < 16 ∧ e.linkState q = 9 ∧ e.naming (e.phys n) = [n] ∧ n < 64 ∧ n ∈ e.lanesOf q ∧
      e.nI Ix.itkPrbs n ≠ 0) ∧
    (∃ (t q : _) (s : State) (e : Dev) (r : _), e = s.dev.at t ∧ q < 16 ∧ e.linkState q = 3 ∧ modeRow (e.nI Ix.itkMode q) = some r ∧ r.is64 = true ∧
      (e.link q).clock = none) ∧
    (∃ (t q : _) (ilas : List Nat) (s : State) (e : Dev) (r : _), e = s.dev.at t ∧ q < 16 ∧ e.linkState q = 3 ∧ modeRow (e.nI Ix.itkMode q) = some r ∧
      r.is64 = false ∧ ilas ≠ e.ilasWanted q ∧ e.sup.emergencies.length < 32) ∧
    (∃ (t q : _) (s : State) (e : Dev) (x : _), e = s.dev.at t ∧ e.link q = x ∧ q < 16 ∧ e.linkState q = 2 ∧ x.noLockRaised = false ∧ x.entered + ms
      10 ≤ e.now ∧ e.linkHeld q = false ∧ e.sup.emergencies.length < 32) ∧
    (∃ (t q : _) (s : State) (e : Dev) (x : _), e = s.dev.at t ∧ e.link q = x ∧ q < 16 ∧ e.linkState q = 4 ∧ x.absentRaised = false ∧ x.entered + ms
      10 ≤ e.now ∧ e.sup.emergencies.length < 32) ∧
    (∃ (t p : _) (s : State) (e : Dev) (q x : _), e = s.dev.at t ∧ e.link q = x ∧ p < 4 ∧ e.nI Ix.itkSysrefSrc p ≠ 1 ∧ e.portLinks p = [q] ∧ q < 16 ∧
      e.linkState q = 4 ∧ x.lastEdge = none) ∧
    (∃ (t p edge : _) (s : State) (e : Dev) (q x y n : _), e = s.dev.at t ∧ e.link q = x ∧ p < 4 ∧ e.nI Ix.itkSysrefSrc p ≠ 1 ∧ e.portLinks p = [q] ∧
      q < 16 ∧ e.linkState q = 4 ∧ x.lastEdge = some y ∧ n = ceilDiv (2 * edge) 625 ∧ y < n ∧ e.conforms q (n - y) = true) :=
  ⟨⟨0, 2, at0 (dv [(Ix.itkLaneMap, 1, 0, 0), (Ix.itkLaneMap, 2, 0, 1), (Ix.itkLaneMap, 3, 0, 2), (Ix.itkLaneMap, 4, 0, 3), (Ix.itkLaneMap, 5, 0, 4),
      (Ix.itkLaneMap, 6, 0, 5), (Ix.itkLaneMap, 7, 0, 6), (Ix.itkLaneMap, 8, 0, 7), (Ix.itkLaneMap, 9, 0, 8), (Ix.itkLaneMap, 10, 0, 9),
      (Ix.itkLaneMap, 11, 0, 10), (Ix.itkLaneMap, 12, 0, 11), (Ix.itkLaneMap, 13, 0, 12), (Ix.itkLaneMap, 14, 0, 13), (Ix.itkLaneMap, 15, 0, 14),
      (Ix.itkLaneMap, 16, 0, 15), (Ix.itkLinkState, 1, 0, 1), (Ix.itkLayout, 1, 0, 1)] up), _, rfl, by decide +kernel⟩,
    ⟨0, 2, at0 (dv [(Ix.itkLaneMap, 1, 0, 0), (Ix.itkLaneMap, 2, 0, 1), (Ix.itkLaneMap, 3, 0, 2), (Ix.itkLaneMap, 4, 0, 3), (Ix.itkLaneMap, 5, 0, 4),
      (Ix.itkLaneMap, 6, 0, 5), (Ix.itkLaneMap, 7, 0, 6), (Ix.itkLaneMap, 8, 0, 7), (Ix.itkLaneMap, 9, 0, 8), (Ix.itkLaneMap, 10, 0, 9),
      (Ix.itkLaneMap, 11, 0, 10), (Ix.itkLaneMap, 12, 0, 11), (Ix.itkLaneMap, 13, 0, 12), (Ix.itkLaneMap, 14, 0, 13), (Ix.itkLaneMap, 15, 0, 14),
      (Ix.itkLaneMap, 16, 0, 15), (Ix.itkLinkState, 1, 0, 1), (Ix.itkLayout, 1, 0, 1)] up), _, 0, rfl, by decide +kernel⟩,
    ⟨0, 0, at0 (dv [(Ix.itkLaneMap, 1, 0, 0), (Ix.itkLaneMap, 2, 0, 1), (Ix.itkLaneMap, 3, 0, 2), (Ix.itkLaneMap, 4, 0, 3), (Ix.itkLaneMap, 5, 0, 4),
      (Ix.itkLaneMap, 6, 0, 5), (Ix.itkLaneMap, 7, 0, 6), (Ix.itkLaneMap, 8, 0, 7), (Ix.itkLaneMap, 9, 0, 8), (Ix.itkLaneMap, 10, 0, 9),
      (Ix.itkLaneMap, 11, 0, 10), (Ix.itkLaneMap, 12, 0, 11), (Ix.itkLaneMap, 13, 0, 12), (Ix.itkLaneMap, 14, 0, 13), (Ix.itkLaneMap, 15, 0, 14),
      (Ix.itkLaneMap, 16, 0, 15), (Ix.itkLayout, 1, 0, 1), (Ix.itkLinkState, 1, 0, 1)]
      { up with itk := { up.itk with lanes := [(0, { status := 1 }), (1, { status := 1 }), (2, { status := 1 }), (3, { status := 1 }), (4, { status := 1 }), (5, { status := 1 }), (6, { status := 1 }), (7, { status := 1 }), (8, { status := 1 }), (9, { status := 1 }), (10, { status := 1 }), (11, { status := 1 }), (12, { status := 1 }), (13, { status := 1 }), (14, { status := 1 }), (15, { status := 1 })] } }),
      _, rfl, by decide +kernel⟩,
    ⟨0, 0, at0 (dv [(Ix.itkLaneMap, 1, 0, 0), (Ix.itkLaneMap, 2, 0, 1), (Ix.itkLaneMap, 3, 0, 2), (Ix.itkLaneMap, 4, 0, 3), (Ix.itkLaneMap, 5, 0, 4),
      (Ix.itkLaneMap, 6, 0, 5), (Ix.itkLaneMap, 7, 0, 6), (Ix.itkLaneMap, 8, 0, 7), (Ix.itkLaneMap, 9, 0, 8), (Ix.itkLaneMap, 10, 0, 9),
      (Ix.itkLaneMap, 11, 0, 10), (Ix.itkLaneMap, 12, 0, 11), (Ix.itkLaneMap, 13, 0, 12), (Ix.itkLaneMap, 14, 0, 13), (Ix.itkLaneMap, 15, 0, 14),
      (Ix.itkLaneMap, 16, 0, 15), (Ix.itkLayout, 1, 0, 1), (Ix.itkLinkState, 1, 0, 2)] up), _, rfl, by decide +kernel⟩,
    ⟨0, 0, at0 (dv [(Ix.itkLaneMap, 1, 0, 0), (Ix.itkLaneMap, 2, 0, 1), (Ix.itkLaneMap, 3, 0, 2), (Ix.itkLaneMap, 4, 0, 3), (Ix.itkLaneMap, 5, 0, 4),
      (Ix.itkLaneMap, 6, 0, 5), (Ix.itkLaneMap, 7, 0, 6), (Ix.itkLaneMap, 8, 0, 7), (Ix.itkLaneMap, 9, 0, 8), (Ix.itkLaneMap, 10, 0, 9),
      (Ix.itkLaneMap, 11, 0, 10), (Ix.itkLaneMap, 12, 0, 11), (Ix.itkLaneMap, 13, 0, 12), (Ix.itkLaneMap, 14, 0, 13), (Ix.itkLaneMap, 15, 0, 14),
      (Ix.itkLaneMap, 16, 0, 15), (Ix.itkLinkState, 1, 0, 9), (Ix.itkPrbs, 3, 0, 1), (Ix.itkLayout, 1, 0, 1)] up), _, 2, rfl, by decide +kernel⟩,
    ⟨0, 0, at0 (dv [(Ix.itkLaneMap, 1, 0, 0), (Ix.itkLaneMap, 2, 0, 1), (Ix.itkLaneMap, 3, 0, 2), (Ix.itkLaneMap, 4, 0, 3), (Ix.itkLaneMap, 5, 0, 4),
      (Ix.itkLaneMap, 6, 0, 5), (Ix.itkLaneMap, 7, 0, 6), (Ix.itkLaneMap, 8, 0, 7), (Ix.itkLaneMap, 9, 0, 8), (Ix.itkLaneMap, 10, 0, 9),
      (Ix.itkLaneMap, 11, 0, 10), (Ix.itkLaneMap, 12, 0, 11), (Ix.itkLaneMap, 13, 0, 12), (Ix.itkLaneMap, 14, 0, 13), (Ix.itkLaneMap, 15, 0, 14),
      (Ix.itkLaneMap, 16, 0, 15), (Ix.itkMode, 1, 0, 1), (Ix.itkLayout, 1, 0, 1), (Ix.itkLinkState, 1, 0, 3)] up), _, ((modeRow 1).getD ⟨true, 0, 0,
      0, 0, 0, 0, 0, 0⟩), rfl, by decide +kernel⟩,
    ⟨0, 0, ([99] : List Nat), at0 (dv [(Ix.itkLaneMap, 1, 0, 0), (Ix.itkLaneMap, 2, 0, 1), (Ix.itkLaneMap, 3, 0, 2), (Ix.itkLaneMap, 4, 0, 3),
      (Ix.itkLaneMap, 5, 0, 4), (Ix.itkLaneMap, 6, 0, 5), (Ix.itkLaneMap, 7, 0, 6), (Ix.itkLaneMap, 8, 0, 7), (Ix.itkLaneMap, 9, 0, 8),
      (Ix.itkLaneMap, 10, 0, 9), (Ix.itkLaneMap, 11, 0, 10), (Ix.itkLaneMap, 12, 0, 11), (Ix.itkLaneMap, 13, 0, 12), (Ix.itkLaneMap, 14, 0, 13),
      (Ix.itkLaneMap, 15, 0, 14), (Ix.itkLaneMap, 16, 0, 15), (Ix.itkMode, 1, 0, 17), (Ix.itkLayout, 1, 0, 1), (Ix.itkLinkState, 1, 0, 3)] up), _,
      ((modeRow 0x11).getD ⟨true, 0, 0, 0, 0, 0, 0, 0, 0⟩), rfl, by decide +kernel⟩,
    ⟨0, 0, at0 (dv [(Ix.itkLinkState, 1, 0, 2)] { up with now := 2 ^ 50 }), _, _, rfl, rfl, by decide +kernel⟩,
    ⟨0, 0, at0 (dv [(Ix.itkLinkState, 1, 0, 4)] { up with now := 2 ^ 50 }), _, _, rfl, rfl, by decide +kernel⟩,
    ⟨0, 0, at0 (dv [(Ix.itkLinkState, 1, 0, 4), (Ix.itkMode, 1, 0, 1), (Ix.itkLayout, 1, 0, 1), (Ix.itkSysrefSrc, 1, 0, 0)] up), _, 0, _, rfl, rfl,
      by decide +kernel⟩,
    ⟨0, 0, 160000000, at0 (dv [(Ix.itkLinkState, 1, 0, 4), (Ix.itkMode, 1, 0, 1), (Ix.itkFs, 1, 0, 10000000000000), (Ix.itkLayout, 1, 0, 1),
      (Ix.itkSysrefSrc, 1, 0, 0)] { up with itk := { up.itk with links := [(0, { lastEdge := some 0 })] } }), _, 0, _, 0, ceilDiv (2 * 160000000) 625,
      rfl, rfl, by decide +kernel⟩⟩

/-- Every clause of `Obligations.LinksReleaseFaultAndRelink` has a state and operands that meet its hypotheses together. -/
theorem test_meets_LinksReleaseFaultAndRelink :
    (∃ (t q : _) (octets : List (List Nat)) (s : State) (e : Dev) (x a raw : _), e = s.dev.at t ∧ e.link q = x ∧ raw = e.linkWords q (e.linkOctets q
      octets).1 ∧ q < 16 ∧ e.linkState q = 5 ∧ x.checked = true ∧ x.anchor = some a ∧ x.crcDrop = false ∧ x.gapFirst = none ∧ e.linkOver q = false ∧
      e.linkSuspended q = false ∧ e.fullFrom ≤ sampleTime a x.index (e.linkFs q)) ∧
    (∃ (t q : _) (octets : List (List Nat)) (s : State) (e : Dev) (x a raw : _), e = s.dev.at t ∧ e.link q = x ∧ raw = e.linkWords q (e.linkOctets q
      octets).1 ∧ q < 16 ∧ e.linkState q = 5 ∧ x.checked = true ∧ x.anchor = some a ∧ x.crcDrop = true ∧ e.linkOver q = false ∧ e.linkSuspended q =
      false) ∧
    (∃ (t n : _) (s : State) (e : Dev) (q x : _), e = s.dev.at t ∧ e.link q = x ∧ n < 64 ∧ e.linkOfPhys n = some q ∧ q < 16 ∧ e.linkState q = 5 ∧
      x.gapFirst = none) ∧
    (∃ (t q : _) (s : State) (e : Dev) (x a : _) (g : Nat × Nat) (stamp : _), e = s.dev.at t ∧ e.link q = x ∧ stamp = sampleTime a (samplesBetween a
      (e.releaseStamp q) (e.linkFs q)) (e.linkFs q) ∧ q < 16 ∧ e.linkState q = 6 ∧ e.linkSuspended q = false ∧ x.anchor = some a ∧ x.gapFirst = some
      g) ∧
    (∃ (t n mb : _) (s : State) (e : Dev) (q : _), e = s.dev.at t ∧ n < 64 ∧ e.linkOfPhys n = some q ∧ e.linkState q = 5 ∧ e.nI Ix.itkCrcCheck q = 1 ∧
      ((e.lane n).crcAt.filter (fun m => mb < m + 1024)).length < 7) :=
  ⟨⟨0, 0, (List.replicate 16 [1, 2, 3, 4] : List (List Nat)), at0 (dv [(Ix.itkLaneMap, 1, 0, 0), (Ix.itkLaneMap, 2, 0, 1), (Ix.itkLaneMap, 3, 0, 2),
      (Ix.itkLaneMap, 4, 0, 3), (Ix.itkLaneMap, 5, 0, 4), (Ix.itkLaneMap, 6, 0, 5), (Ix.itkLaneMap, 7, 0, 6), (Ix.itkLaneMap, 8, 0, 7),
      (Ix.itkLaneMap, 9, 0, 8), (Ix.itkLaneMap, 10, 0, 9), (Ix.itkLaneMap, 11, 0, 10), (Ix.itkLaneMap, 12, 0, 11), (Ix.itkLaneMap, 13, 0, 12),
      (Ix.itkLaneMap, 14, 0, 13), (Ix.itkLaneMap, 15, 0, 14), (Ix.itkLaneMap, 16, 0, 15), (Ix.itkLinkState, 1, 0, 5), (Ix.itkFs, 1, 0,
      10000000000000), (Ix.itkMode, 1, 0, 1), (Ix.itkN, 1, 0, 14), (Ix.itkLayout, 1, 0, 1)]
      { up with itk := { up.itk with links := [(0, { checked := true, anchor := some 1000 })] } }), _, _, 1000, _, rfl, rfl, rfl, by decide +kernel⟩,
    ⟨0, 0, (List.replicate 16 [1, 2, 3, 4] : List (List Nat)), at0 (dv [(Ix.itkLaneMap, 1, 0, 0), (Ix.itkLaneMap, 2, 0, 1), (Ix.itkLaneMap, 3, 0, 2),
      (Ix.itkLaneMap, 4, 0, 3), (Ix.itkLaneMap, 5, 0, 4), (Ix.itkLaneMap, 6, 0, 5), (Ix.itkLaneMap, 7, 0, 6), (Ix.itkLaneMap, 8, 0, 7),
      (Ix.itkLaneMap, 9, 0, 8), (Ix.itkLaneMap, 10, 0, 9), (Ix.itkLaneMap, 11, 0, 10), (Ix.itkLaneMap, 12, 0, 11), (Ix.itkLaneMap, 13, 0, 12),
      (Ix.itkLaneMap, 14, 0, 13), (Ix.itkLaneMap, 15, 0, 14), (Ix.itkLaneMap, 16, 0, 15), (Ix.itkLinkState, 1, 0, 5), (Ix.itkFs, 1, 0,
      10000000000000), (Ix.itkMode, 1, 0, 1), (Ix.itkN, 1, 0, 14), (Ix.itkLayout, 1, 0, 1)]
      { up with itk := { up.itk with links := [(0, { checked := true, anchor := some 1000, crcDrop := true })] } }), _, _, 1000, _, rfl, rfl, rfl,
      by decide +kernel⟩,
    ⟨0, 2, at0 (dv [(Ix.itkLaneMap, 1, 0, 0), (Ix.itkLaneMap, 2, 0, 1), (Ix.itkLaneMap, 3, 0, 2), (Ix.itkLaneMap, 4, 0, 3), (Ix.itkLaneMap, 5, 0, 4),
      (Ix.itkLaneMap, 6, 0, 5), (Ix.itkLaneMap, 7, 0, 6), (Ix.itkLaneMap, 8, 0, 7), (Ix.itkLaneMap, 9, 0, 8), (Ix.itkLaneMap, 10, 0, 9),
      (Ix.itkLaneMap, 11, 0, 10), (Ix.itkLaneMap, 12, 0, 11), (Ix.itkLaneMap, 13, 0, 12), (Ix.itkLaneMap, 14, 0, 13), (Ix.itkLaneMap, 15, 0, 14),
      (Ix.itkLaneMap, 16, 0, 15), (Ix.itkLayout, 1, 0, 1), (Ix.itkLinkState, 1, 0, 5)]
      { up with itk := { up.itk with links := [(0, { checked := true, anchor := some 1000 })] } }), _, 0, _, rfl, rfl, by decide +kernel⟩,
    ⟨0, 0, at0 (dv [(Ix.itkLaneMap, 1, 0, 0), (Ix.itkLaneMap, 2, 0, 1), (Ix.itkLaneMap, 3, 0, 2), (Ix.itkLaneMap, 4, 0, 3), (Ix.itkLaneMap, 5, 0, 4),
      (Ix.itkLaneMap, 6, 0, 5), (Ix.itkLaneMap, 7, 0, 6), (Ix.itkLaneMap, 8, 0, 7), (Ix.itkLaneMap, 9, 0, 8), (Ix.itkLaneMap, 10, 0, 9),
      (Ix.itkLaneMap, 11, 0, 10), (Ix.itkLaneMap, 12, 0, 11), (Ix.itkLaneMap, 13, 0, 12), (Ix.itkLaneMap, 14, 0, 13), (Ix.itkLaneMap, 15, 0, 14),
      (Ix.itkLaneMap, 16, 0, 15), (Ix.itkLinkState, 1, 0, 6), (Ix.itkFs, 1, 0, 10000000000000), (Ix.itkMode, 1, 0, 1), (Ix.itkLayout, 1, 0, 1)]
      { up with itk := { up.itk with links := [(0, { checked := true, anchor := some 1000, gapFirst := some (9000, 1) })] }, now := 2 ^ 40, tb := { up.tb with running := true } }),
      _, _, 1000, ((9000, 1) : Nat × Nat), _, rfl, rfl, rfl, by decide +kernel⟩,
    ⟨0, 2, 5, at0 (dv [(Ix.itkLaneMap, 1, 0, 0), (Ix.itkLaneMap, 2, 0, 1), (Ix.itkLaneMap, 3, 0, 2), (Ix.itkLaneMap, 4, 0, 3), (Ix.itkLaneMap, 5, 0,
      4), (Ix.itkLaneMap, 6, 0, 5), (Ix.itkLaneMap, 7, 0, 6), (Ix.itkLaneMap, 8, 0, 7), (Ix.itkLaneMap, 9, 0, 8), (Ix.itkLaneMap, 10, 0, 9),
      (Ix.itkLaneMap, 11, 0, 10), (Ix.itkLaneMap, 12, 0, 11), (Ix.itkLaneMap, 13, 0, 12), (Ix.itkLaneMap, 14, 0, 13), (Ix.itkLaneMap, 15, 0, 14),
      (Ix.itkLaneMap, 16, 0, 15), (Ix.itkLinkState, 1, 0, 5), (Ix.itkCrcCheck, 1, 0, 1), (Ix.itkMode, 1, 0, 1), (Ix.itkLayout, 1, 0, 1)] up), _, 0,
      rfl, by decide +kernel⟩⟩

/-- Every clause of `Obligations.ChanneliserOutputsAndWindows` has a state and operands that meet its hypotheses together. -/
theorem test_meets_ChanneliserOutputsAndWindows :
    (∃ (t n ne : _) (s : State) (e : Dev) (code x v p : _), e = s.dev.at t ∧ code = e.nI Ix.chnSrc n ∧ x = e.ddc n ∧ v = e.ddcFlags n ne (e.ddcValue n
      ne) ∧ p = samplePower v ∧ n < 33 ∧ e.fIn n ≠ 0 ∧ ne % 2 ^ e.nI Ix.chnDepth n = 0 ∧ e.ddcActive n = true ∧ e.ddcHeld n = false ∧ e.ddcState n = 2
      ∧ x.drain = none ∧ x.next = some ne ∧ x.runs = [] ∧ x.run = none ∧ x.gapFirst = none ∧ x.wIx = some (e.winOf n ne) ∧ (e.inputAt code ne).isSome
      = true ∧ e.inputKnown code (ne + e.gDelay n) = true ∧ e.reachesGap n ne = false ∧ v.ovr = 0 ∧ v.sat = false) ∧
    (∃ (t n ne : _) (s : State) (e : Dev) (k : _), e = s.dev.at t ∧ n < 33 ∧ e.fIn n ≠ 0 ∧ ne % 2 ^ e.nI Ix.chnDepth n = 0 ∧ e.ddcActive n = true ∧
      (e.ddc n).drain = none ∧ (e.ddc n).next = some k ∧ k ≤ ne ∧ e.inputKnown (e.nI Ix.chnSrc n) (ne + e.gDelay n) = true ∧ (e.ddcHeld n = true ∨
      e.inputAt (e.nI Ix.chnSrc n) ne = none)) ∧
    (∃ (t n ne : _) (s : State) (e : Dev) (code x : _) (g : Nat × Nat) (k : _), e = s.dev.at t ∧ code = e.nI Ix.chnSrc n ∧ x = e.ddc n ∧ n < 33 ∧
      e.fIn n ≠ 0 ∧ ne % 2 ^ e.nI Ix.chnDepth n = 0 ∧ e.ddcActive n = true ∧ e.ddcHeld n = false ∧ x.drain = none ∧ x.next = some k ∧ k < ne ∧
      x.gapFirst = some g ∧ x.gapRun = (5, 0) ∧ x.run = none ∧ x.wIx = some (e.winOf n ne) ∧ (e.inputAt code ne).isSome = true ∧ e.inputKnown code (ne
      + e.gDelay n) = true ∧ e.nI Ix.chnSettlePolicy n = 0 ∧ (e.ddcFlags n ne (e.ddcValue n ne)).ovr = 0 ∧ (e.ddcValue n ne).sat = false) ∧
    (∃ (t n : _) (s : State) (e : Dev) (x w k : _), e = s.dev.at t ∧ x = e.ddc n ∧ n < 33 ∧ x.wIx = some w ∧ x.next = some k ∧ e.winFirst n (w + 1) ≤
      k) ∧
    (∃ (t n : _) (s : State) (e : Dev) (x b : _), e = s.dev.at t ∧ x = e.ddc n ∧ n < 33 ∧ x.drain = some b ∧ b + us 50 ≤ e.time96 ∧ e.nI Ix.chnSrc n ≠
      0 ∧ x.oldRun = none ∧ (∀ k ∈ x.oldNext, (e.overlay x.old).ddcAfter n b ≤ k)) ∧
    (∃ (t n : _) (s : State) (e : Dev) (x o : _) (b : Nat) (k left : _), e = s.dev.at t ∧ x = e.ddc n ∧ o = e.overlay x.old ∧ left = (o.ddcAfter n b -
      k) / 2 ^ o.nI Ix.chnDepth n ∧ n < 33 ∧ x.drain = some b ∧ b + us 50 ≤ e.time96 ∧ e.nI Ix.chnSrc n = 0 ∧ x.oldRun = none ∧ x.run = none ∧
      x.oldNext = some k ∧ left ≠ 0 ∧ e.sup.emergencies.length < 32) :=
  ⟨⟨0, 2, 8, at0 (silent onGrid), _, _, _, _, _, rfl, rfl, rfl, rfl, rfl, by simp only [onGrid_silent]; decide +kernel⟩,
    ⟨0, 2, 8, at0 (dv [(Ix.chnSrc, 3, 0, 16), (Ix.itkFs, 1, 0, 1000000000000), (Ix.itkMode, 1, 0, 3), (Ix.chnState, 3, 0, 2), (Ix.chnDepth, 3, 0, 0),
      (Ix.itkLinkState, 1, 0, 5), (Ix.chnDetWindow, 3, 0, 4)]
      { up with chn := { up.chn with ddcs := [(2, { next := some 8 })], input := [(16, { asked := [(7, { i := 100, q := 5 }), (9, { i := 10, q := 50 })] })] }, itk := { up.itk with links := [(0, { checked := true, anchor := some 1000 })] } }),
      _, 8, rfl, by decide +kernel⟩,
    ⟨0, 2, 8, at0 (silent behindGap), _, _, _, (77, 1), 5, rfl, rfl, rfl, by simp only [behindGap_silent]; decide +kernel⟩,
    ⟨0, 2, at0 (dv [(Ix.chnSrc, 3, 0, 16), (Ix.itkFs, 1, 0, 1000000000000), (Ix.itkMode, 1, 0, 3), (Ix.chnState, 3, 0, 2), (Ix.chnDepth, 3, 0, 0),
      (Ix.itkLinkState, 1, 0, 5), (Ix.chnDetWindow, 3, 0, 4)]
      { up with chn := { up.chn with ddcs := [(2, { next := some 16, wIx := some 0, wCount := 3, wPeak := 9, wSum := 20, env := 5, wPartial := false })], input := [(16, { asked := [(7, { i := 100, q := 5 }), (8, { i := 1000, q := -3 }), (9, { i := 10, q := 50 })] })] }, itk := { up.itk with links := [(0, { checked := true, anchor := some 1000 })] } }),
      _, _, 0, 16, rfl, rfl, by decide +kernel⟩,
    ⟨0, 2, at0 (dv [(Ix.chnSrc, 3, 0, 16), (Ix.itkFs, 1, 0, 1000000000000), (Ix.itkMode, 1, 0, 3), (Ix.chnState, 3, 0, 2), (Ix.chnDepth, 3, 0, 0),
      (Ix.itkLinkState, 1, 0, 5), (Ix.chnDetWindow, 3, 0, 4)]
      { up with chn := { up.chn with ddcs := [(2, { next := some 16, drain := some 100 })], input := [(16, { asked := [(7, { i := 100, q := 5 }), (8, { i := 1000, q := -3 }), (9, { i := 10, q := 50 })] })] }, itk := { up.itk with links := [(0, { checked := true, anchor := some 1000 })] }, now := 2 ^ 50, tb := { up.tb with running := true } }),
      _, _, 100, rfl, rfl, by decide +kernel⟩,
    ⟨0, 2, at0 (dv [(Ix.chnSrc, 3, 0, 0), (Ix.itkFs, 1, 0, 1000000000000), (Ix.itkMode, 1, 0, 3), (Ix.chnState, 3, 0, 2), (Ix.chnDepth, 3, 0, 0),
      (Ix.itkLinkState, 1, 0, 5), (Ix.chnDetWindow, 3, 0, 4)]
      { up with chn := { up.chn with ddcs := [(2, { drain := some (2 ^ 40), oldNext := some 5, old := [⟨Ix.chnSrc, 3, 0, 16⟩] })], input := [(16, { asked := [(7, { i := 100, q := 5 }), (8, { i := 1000, q := -3 }), (9, { i := 10, q := 50 })] })] }, itk := { up.itk with links := [(0, { checked := true, anchor := some 1000 })] }, now := 2 ^ 50, tb := { up.tb with running := true } }),
      _, _, _, (2 ^ 40 : Nat), 5, _, rfl, rfl, rfl, rfl, by decide +kernel⟩⟩

/-- Every clause of `Obligations.ChanneliserFaultsAndRepointing` has a state and operands that meet its hypotheses together. -/
theorem test_meets_ChanneliserFaultsAndRepointing :
    (∃ (t n : _) (s : State) (e : Dev), e = s.dev.at t ∧ n < 32 ∧ (e.ddc n).failed = false ∧ e.nI Ix.chnSrc n ≠ 0 ∧ e.n0 Ix.chnStandbyFor ≠ 0xFF ∧
      e.coversRepoint 2 (e.n0 Ix.chnStandbyFor) = false ∧ (e.ddc n).gapFirst = none) ∧
    (∃ (t n : _) (s : State) (e : Dev), e = s.dev.at t ∧ n < 32 ∧ (e.ddc n).failed = false ∧ e.nI Ix.chnSrc n ≠ 0 ∧ e.n0 Ix.chnStandbyFor = 0xFF ∧ 0 ∉
      e.flt.standbyFailed ∧ e.repointing 2 = false ∧ (e.ddc n).gapFirst = none) ∧
    (∃ (t n : _) (s : State) (e : Dev), e = s.dev.at t ∧ n < 32 ∧ (e.ddc n).failed = true ∧ e.nI Ix.chnSrc n ≠ 0) ∧
    (∃ (t n first : _) (s : State) (e : Dev), e = s.dev.at t ∧ n < 32 ∧ e.ddcTime n (e.ddcBlock n first) = first ∧ e.flt.repoint = none ∧ (e.ddc
      n).rejoin = true ∧ (e.ddc n).stopped = false ∧ e.n0 Ix.chnStandbyFor = n) ∧
    (∃ (t : _) (s : State) (e : Dev) (n : _), e = s.dev.at t ∧ e.n0 Ix.chnStandbyFor = n ∧ n < 32 ∧ e.repointing 2 = false) ∧
    (∃ (t q : _) (s : State) (e : Dev) (x : _), e = s.dev.at t ∧ e.section_ q = x ∧ q < 16 ∧ x.heldDown = false ∧ (x.fails.filter (fun w => e.now < w
      + sec)).length < 2) ∧
    (∃ (t path n : _) (s : State) (e : Dev), e = s.dev.at t ∧ e.reaches path Ix.chnRepoint ∧ n < 32 ∧ e.n0 Ix.chnStandbyFor = 0xFF ∧ e.repointBusy =
      false ∧ e.nI Ix.chnSrc n ≠ 0 ∧ 0 ∉ e.flt.standbyFailed) ∧
    (∃ (t path n : _) (s : State) (e : Dev), e = s.dev.at t ∧ e.reaches path Ix.chnRepoint ∧ n < 32 ∧ e.n0 Ix.chnStandbyFor = 0xFF ∧ e.repointBusy =
      false ∧ e.nI Ix.chnSrc n = 0) ∧
    (∃ (t path n : _) (s : State) (e : Dev), e = s.dev.at t ∧ e.reaches path Ix.chnRepoint ∧ 1 ≤ path ∧ path ≤ 4 ∧ n < 32 ∧ e.n0 Ix.chnStandbyFor ≠
      0xFF ∧ e.repointing 2 = false) ∧
    (∃ (t path n : _) (s : State) (e : Dev) (r : Repoint), e = s.dev.at t ∧ e.reaches path Ix.chnRepoint ∧ 1 ≤ path ∧ path ≤ 4 ∧ n < 32 ∧
      e.flt.repoint = some r ∧ r.isl = 2 ∧ r.inst < 32) ∧
    (∃ (t path : _) (s : State) (e : Dev) (r : Repoint), e = s.dev.at t ∧ e.reaches path Ix.chnRepoint ∧ e.flt.repoint = some r ∧ r.isl = 2 ∧ r.out =
      false ∧ e.n0 Ix.fltUpdateState ≠ 3 ∧ e.n0 Ix.fltUpdateState ≠ 5) ∧
    (∃ (t n first : _) (s : State) (e : Dev) (r : Repoint), e = s.dev.at t ∧ n < 32 ∧ e.flt.repoint = some r ∧ r.isl = 2 ∧ r.inst = n ∧ e.n0
      Ix.chnRepointState = 1 ∧ 0 ∉ e.flt.standbyFailed ∧ e.ddcTime n (e.ddcBlock n first) = first ∧ e.time96At (r.since + e.shadowTime n) ≤ first) ∧
    (∃ (t : _) (s : State) (e : Dev) (r : Repoint), e = s.dev.at t ∧ e.flt.repoint = some r ∧ r.isl = 2 ∧ e.n0 Ix.chnRepointState = 2) ∧
    (∃ (t n first : _) (s : State) (e : Dev) (r : Repoint), e = s.dev.at t ∧ n < 32 ∧ e.flt.repoint = some r ∧ r.isl = 2 ∧ r.inst = n ∧ e.n0
      Ix.chnRepointState = 3 ∧ 0 ∉ e.flt.standbyFailed ∧ e.ddcTime n (e.ddcBlock n first) = first ∧ e.n0 Ix.fltUpdateState ≠ 3 ∧ e.n0
      Ix.fltUpdateState ≠ 5) :=
  ⟨⟨0, 2, at0 (dv [(Ix.chnSrc, 3, 0, 16), (Ix.itkFs, 1, 0, 1000000000000), (Ix.itkMode, 1, 0, 3), (Ix.chnState, 3, 0, 2), (Ix.chnDepth, 3, 0, 0),
      (Ix.itkLinkState, 1, 0, 5), (Ix.chnStandbyFor, 0, 0, 5)]
      { up with itk := { up.itk with links := [(0, { checked := true, anchor := some 1000 })] } }), _, rfl, by decide +kernel⟩,
    ⟨0, 2, at0 (dv [(Ix.chnSrc, 3, 0, 16), (Ix.itkFs, 1, 0, 1000000000000), (Ix.itkMode, 1, 0, 3), (Ix.chnState, 3, 0, 2), (Ix.chnDepth, 3, 0, 0),
      (Ix.itkLinkState, 1, 0, 5), (Ix.chnStandbyFor, 0, 0, 255)]
      { up with itk := { up.itk with links := [(0, { checked := true, anchor := some 1000 })] } }), _, rfl, by decide +kernel⟩,
    ⟨0, 2, at0 (dv [(Ix.chnSrc, 3, 0, 16), (Ix.itkFs, 1, 0, 1000000000000), (Ix.itkMode, 1, 0, 3), (Ix.chnState, 3, 0, 2), (Ix.chnDepth, 3, 0, 0),
      (Ix.itkLinkState, 1, 0, 5)]
      { up with itk := { up.itk with links := [(0, { checked := true, anchor := some 1000 })] }, chn := { up.chn with ddcs := [(2, { failed := true })] } }),
      _, rfl, by decide +kernel⟩,
    ⟨0, 2, (((at0 (dv [(Ix.chnSrc, 3, 0, 16), (Ix.itkFs, 1, 0, 1000000000000), (Ix.itkMode, 1, 0, 3), (Ix.chnState, 3, 0, 2), (Ix.chnDepth, 3, 0, 0),
      (Ix.itkLinkState, 1, 0, 5), (Ix.chnStandbyFor, 0, 0, 2)]
      { up with itk := { up.itk with links := [(0, { checked := true, anchor := some 1000 })] }, chn := { up.chn with ddcs := [(2, { failed := true, rejoin := true })] }, flt := { up.flt with repoint := none } })).dev.at
      0).ddcTime 2 (((at0 (dv [(Ix.chnSrc, 3, 0, 16), (Ix.itkFs, 1, 0, 1000000000000), (Ix.itkMode, 1, 0, 3), (Ix.chnState, 3, 0, 2), (Ix.chnDepth, 3,
      0, 0), (Ix.itkLinkState, 1, 0, 5), (Ix.chnStandbyFor, 0, 0, 2)]
      { up with itk := { up.itk with links := [(0, { checked := true, anchor := some 1000 })] }, chn := { up.chn with ddcs := [(2, { failed := true, rejoin := true })] }, flt := { up.flt with repoint := none } })).dev.at
      0).ddcBlock 2 100000)), at0 (dv [(Ix.chnSrc, 3, 0, 16), (Ix.itkFs, 1, 0, 1000000000000), (Ix.itkMode, 1, 0, 3), (Ix.chnState, 3, 0, 2),
      (Ix.chnDepth, 3, 0, 0), (Ix.itkLinkState, 1, 0, 5), (Ix.chnStandbyFor, 0, 0, 2)]
      { up with itk := { up.itk with links := [(0, { checked := true, anchor := some 1000 })] }, chn := { up.chn with ddcs := [(2, { failed := true, rejoin := true })] }, flt := { up.flt with repoint := none } }),
      _, rfl, by decide +kernel⟩,
    ⟨0, at0 (dv [(Ix.chnSrc, 3, 0, 16), (Ix.itkFs, 1, 0, 1000000000000), (Ix.itkMode, 1, 0, 3), (Ix.chnState, 3, 0, 2), (Ix.chnDepth, 3, 0, 0),
      (Ix.itkLinkState, 1, 0, 5), (Ix.chnStandbyFor, 0, 0, 2)]
      { up with itk := { up.itk with links := [(0, { checked := true, anchor := some 1000 })] } }), _, 2, rfl, by decide +kernel⟩,
    ⟨0, 0, at0 (dv [(Ix.chnSrc, 3, 0, 16), (Ix.itkFs, 1, 0, 1000000000000), (Ix.itkMode, 1, 0, 1), (Ix.chnState, 3, 0, 2), (Ix.chnDepth, 3, 0, 0),
      (Ix.itkLinkState, 1, 0, 5)] { up with itk := { up.itk with links := [(0, { checked := true, anchor := some 1000 })] } }), _, _, rfl, rfl,
      by decide +kernel⟩,
    ⟨0, 1, 2, at0 (dv [(Ix.chnSrc, 3, 0, 16), (Ix.itkFs, 1, 0, 1000000000000), (Ix.itkMode, 1, 0, 3), (Ix.chnState, 3, 0, 2), (Ix.chnDepth, 3, 0, 0),
      (Ix.itkLinkState, 1, 0, 5), (Ix.chnStandbyFor, 0, 0, 255)]
      { up with itk := { up.itk with links := [(0, { checked := true, anchor := some 1000 })] } }), _, rfl, (by delta Dev.reaches; decide +kernel)⟩,
    ⟨0, 1, 5, at0 (dv [(Ix.chnSrc, 3, 0, 16), (Ix.itkFs, 1, 0, 1000000000000), (Ix.itkMode, 1, 0, 3), (Ix.chnState, 3, 0, 2), (Ix.chnDepth, 3, 0, 0),
      (Ix.itkLinkState, 1, 0, 5), (Ix.chnStandbyFor, 0, 0, 255), (Ix.chnSrc, 6, 0, 0)]
      { up with itk := { up.itk with links := [(0, { checked := true, anchor := some 1000 })] } }), _, rfl, (by delta Dev.reaches; decide +kernel)⟩,
    ⟨0, 1, 5, at0 (dv [(Ix.chnSrc, 3, 0, 16), (Ix.itkFs, 1, 0, 1000000000000), (Ix.itkMode, 1, 0, 3), (Ix.chnState, 3, 0, 2), (Ix.chnDepth, 3, 0, 0),
      (Ix.itkLinkState, 1, 0, 5), (Ix.chnStandbyFor, 0, 0, 2)]
      { up with itk := { up.itk with links := [(0, { checked := true, anchor := some 1000 })] } }), _, rfl, (by delta Dev.reaches; decide +kernel)⟩,
    ⟨0, 1, 2, at0 (dv [(Ix.chnSrc, 3, 0, 16), (Ix.itkFs, 1, 0, 1000000000000), (Ix.itkMode, 1, 0, 3), (Ix.chnState, 3, 0, 2), (Ix.chnDepth, 3, 0, 0),
      (Ix.itkLinkState, 1, 0, 5), (Ix.chnRepointState, 0, 0, 1), (Ix.fltRepointState, 0, 0, 1)]
      { up with itk := { up.itk with links := [(0, { checked := true, anchor := some 1000 })] }, flt := { up.flt with repoint := some ({ isl := 2, inst := 2 } : Repoint) }, tb := { up.tb with running := true }, now := 2 ^ 30 }),
      _, ({ isl := 2, inst := 2 } : Repoint), rfl, (by delta Dev.reaches; decide +kernel)⟩,
    ⟨0, 1, at0 (dv [(Ix.chnSrc, 3, 0, 16), (Ix.itkFs, 1, 0, 1000000000000), (Ix.itkMode, 1, 0, 3), (Ix.chnState, 3, 0, 2), (Ix.chnDepth, 3, 0, 0),
      (Ix.itkLinkState, 1, 0, 5), (Ix.chnRepointState, 0, 0, 1), (Ix.fltRepointState, 0, 0, 1), (Ix.fltUpdateState, 0, 0, 0)]
      { up with itk := { up.itk with links := [(0, { checked := true, anchor := some 1000 })] }, flt := { up.flt with repoint := some ({ isl := 2, inst := 2 } : Repoint) }, tb := { up.tb with running := true }, now := 2 ^ 30 }),
      _, ({ isl := 2, inst := 2 } : Repoint), rfl, (by delta Dev.reaches; decide +kernel)⟩,
    ⟨0, 2, (((at0 (dv [(Ix.chnSrc, 3, 0, 16), (Ix.itkFs, 1, 0, 1000000000000), (Ix.itkMode, 1, 0, 3), (Ix.chnState, 3, 0, 2), (Ix.chnDepth, 3, 0, 0),
      (Ix.itkLinkState, 1, 0, 5), (Ix.chnRepointState, 0, 0, 1), (Ix.fltRepointState, 0, 0, 1)]
      { up with itk := { up.itk with links := [(0, { checked := true, anchor := some 1000 })] }, flt := { up.flt with repoint := some ({ isl := 2, inst := 2 } : Repoint) }, tb := { up.tb with running := true }, now := 2 ^ 30 })).dev.at
      0).ddcTime 2 (((at0 (dv [(Ix.chnSrc, 3, 0, 16), (Ix.itkFs, 1, 0, 1000000000000), (Ix.itkMode, 1, 0, 3), (Ix.chnState, 3, 0, 2), (Ix.chnDepth, 3,
      0, 0), (Ix.itkLinkState, 1, 0, 5), (Ix.chnRepointState, 0, 0, 1), (Ix.fltRepointState, 0, 0, 1)]
      { up with itk := { up.itk with links := [(0, { checked := true, anchor := some 1000 })] }, flt := { up.flt with repoint := some ({ isl := 2, inst := 2 } : Repoint) }, tb := { up.tb with running := true }, now := 2 ^ 30 })).dev.at
      0).ddcBlock 2 (((at0 (dv [(Ix.chnSrc, 3, 0, 16), (Ix.itkFs, 1, 0, 1000000000000), (Ix.itkMode, 1, 0, 3), (Ix.chnState, 3, 0, 2), (Ix.chnDepth,
      3, 0, 0), (Ix.itkLinkState, 1, 0, 5), (Ix.chnRepointState, 0, 0, 1), (Ix.fltRepointState, 0, 0, 1)]
      { up with itk := { up.itk with links := [(0, { checked := true, anchor := some 1000 })] }, flt := { up.flt with repoint := some ({ isl := 2, inst := 2 } : Repoint) }, tb := { up.tb with running := true }, now := 2 ^ 30 })).dev.at
      0).time96At (((at0 (dv [(Ix.chnSrc, 3, 0, 16), (Ix.itkFs, 1, 0, 1000000000000), (Ix.itkMode, 1, 0, 3), (Ix.chnState, 3, 0, 2), (Ix.chnDepth, 3,
      0, 0), (Ix.itkLinkState, 1, 0, 5), (Ix.chnRepointState, 0, 0, 1), (Ix.fltRepointState, 0, 0, 1)]
      { up with itk := { up.itk with links := [(0, { checked := true, anchor := some 1000 })] }, flt := { up.flt with repoint := some ({ isl := 2, inst := 2 } : Repoint) }, tb := { up.tb with running := true }, now := 2 ^ 30 })).dev.at
      0).shadowTime 2)))), at0 (dv [(Ix.chnSrc, 3, 0, 16), (Ix.itkFs, 1, 0, 1000000000000), (Ix.itkMode, 1, 0, 3), (Ix.chnState, 3, 0, 2),
      (Ix.chnDepth, 3, 0, 0), (Ix.itkLinkState, 1, 0, 5), (Ix.chnRepointState, 0, 0, 1), (Ix.fltRepointState, 0, 0, 1)]
      { up with itk := { up.itk with links := [(0, { checked := true, anchor := some 1000 })] }, flt := { up.flt with repoint := some ({ isl := 2, inst := 2 } : Repoint) }, tb := { up.tb with running := true }, now := 2 ^ 30 }),
      _, ({ isl := 2, inst := 2 } : Repoint), rfl, by decide +kernel⟩,
    ⟨0, at0 (dv [(Ix.chnSrc, 3, 0, 16), (Ix.itkFs, 1, 0, 1000000000000), (Ix.itkMode, 1, 0, 3), (Ix.chnState, 3, 0, 2), (Ix.chnDepth, 3, 0, 0),
      (Ix.itkLinkState, 1, 0, 5), (Ix.chnRepointState, 0, 0, 2), (Ix.fltRepointState, 0, 0, 2), (Ix.chnStandbyFor, 0, 0, 2)]
      { up with itk := { up.itk with links := [(0, { checked := true, anchor := some 1000 })] }, flt := { up.flt with repoint := some ({ isl := 2, inst := 2, out := true } : Repoint) }, tb := { up.tb with running := true }, now := 2 ^ 30 }),
      _, ({ isl := 2, inst := 2, out := true } : Repoint), rfl, by decide +kernel⟩,
    ⟨0, 2, (((at0 (dv [(Ix.chnSrc, 3, 0, 16), (Ix.itkFs, 1, 0, 1000000000000), (Ix.itkMode, 1, 0, 3), (Ix.chnState, 3, 0, 2), (Ix.chnDepth, 3, 0, 0),
      (Ix.itkLinkState, 1, 0, 5), (Ix.chnRepointState, 0, 0, 3), (Ix.fltRepointState, 0, 0, 3), (Ix.chnStandbyFor, 0, 0, 2), (Ix.fltUpdateState, 0, 0,
      0)]
      { up with itk := { up.itk with links := [(0, { checked := true, anchor := some 1000 })] }, flt := { up.flt with repoint := some ({ isl := 2, inst := 2, out := true, selfTestOk := true } : Repoint) }, tb := { up.tb with running := true }, now := 2 ^ 30 })).dev.at
      0).ddcTime 2 (((at0 (dv [(Ix.chnSrc, 3, 0, 16), (Ix.itkFs, 1, 0, 1000000000000), (Ix.itkMode, 1, 0, 3), (Ix.chnState, 3, 0, 2), (Ix.chnDepth, 3,
      0, 0), (Ix.itkLinkState, 1, 0, 5), (Ix.chnRepointState, 0, 0, 3), (Ix.fltRepointState, 0, 0, 3), (Ix.chnStandbyFor, 0, 0, 2),
      (Ix.fltUpdateState, 0, 0, 0)]
      { up with itk := { up.itk with links := [(0, { checked := true, anchor := some 1000 })] }, flt := { up.flt with repoint := some ({ isl := 2, inst := 2, out := true, selfTestOk := true } : Repoint) }, tb := { up.tb with running := true }, now := 2 ^ 30 })).dev.at
      0).ddcBlock 2 100000)), at0 (dv [(Ix.chnSrc, 3, 0, 16), (Ix.itkFs, 1, 0, 1000000000000), (Ix.itkMode, 1, 0, 3), (Ix.chnState, 3, 0, 2),
      (Ix.chnDepth, 3, 0, 0), (Ix.itkLinkState, 1, 0, 5), (Ix.chnRepointState, 0, 0, 3), (Ix.fltRepointState, 0, 0, 3), (Ix.chnStandbyFor, 0, 0, 2),
      (Ix.fltUpdateState, 0, 0, 0)]
      { up with itk := { up.itk with links := [(0, { checked := true, anchor := some 1000 })] }, flt := { up.flt with repoint := some ({ isl := 2, inst := 2, out := true, selfTestOk := true } : Repoint) }, tb := { up.tb with running := true }, now := 2 ^ 30 }),
      _, ({ isl := 2, inst := 2, out := true, selfTestOk := true } : Repoint), rfl, by decide +kernel⟩⟩

/-- Every clause of `Obligations.SpectralFramesCoresAndRepointing` has a state and operands that meet its hypotheses together. -/
theorem test_meets_SpectralFramesCoresAndRepointing :
    (∃ (t l m core : _) (bins : List (Int × Int)) (s : State) (e : Dev) (x got ps flags : _), e = s.dev.at t ∧ x = e.layer l ∧ (got = (List.range
      (e.layerN l)).map (fun k => e.layerSample l (m * e.layerHop l + k))) ∧ ps = bins.map pwr48 ∧ flags = sampleFlags (got.filterMap id) ∧ l < 16 ∧
      core < 33 ∧ e.nI Ix.speLayerSrc l ≠ 0 ∧ x.drain = none ∧ x.oldUntil = none ∧ x.next = some m ∧ (∀ k < e.layerN l, e.layerKnown l (m * e.layerHop
      l + k) = true) ∧ (∀ g ∈ got, g.isSome = true) ∧ e.shareGone core = false ∧ e.layerMasks l = [] ∧ e.feedsAt l (e.frameTime l m) = false ∧ (∀ b ∈
      ps, b.2 = false) ∧ x.start ≤ m / e.traceLen l * e.traceLen l ∧ (∀ f ∈ x.trace.first, f / e.traceLen l = m / e.traceLen l)) ∧
    (∃ (t l m core : _) (s : State) (e : Dev) (x : _), e = s.dev.at t ∧ x = e.layer l ∧ l < 16 ∧ core < 33 ∧ e.nI Ix.speLayerSrc l ≠ 0 ∧ x.drain =
      none ∧ x.oldUntil = none ∧ x.next = some m ∧ (∀ k < e.layerN l, e.layerKnown l (m * e.layerHop l + k) = true) ∧ (∃ k < e.layerN l, e.layerSample
      l (m * e.layerHop l + k) = none) ∧ e.shareGone core = false ∧ e.nI Ix.speGapPolicy l = 0) ∧
    (∃ (t l m core : _) (s : State) (e : Dev) (x : _), e = s.dev.at t ∧ x = e.layer l ∧ l < 16 ∧ core < 33 ∧ e.nI Ix.speLayerSrc l ≠ 0 ∧ x.drain =
      none ∧ x.oldUntil = none ∧ x.next = some m ∧ (∀ k < e.layerN l, e.layerKnown l (m * e.layerHop l + k) = true) ∧ e.shareGone core = true) ∧
    (∃ (t l : _) (s : State) (e : Dev) (x tr f : _), e = s.dev.at t ∧ x = e.layer l ∧ tr = x.trace ∧ l < 16 ∧ e.nI Ix.speLayerSrc l ≠ 0 ∧ tr.first =
      some f ∧ tr.frames ≠ 0 ∧ tr.format ≠ 0 ∧ tr.ring ≠ noRing ∧ e.ringTakes tr.ring = true ∧ (f / e.traceLen l + 1) * e.traceLen l ≤ x.next.getD 0 ∧
      e.traceConv l tr = [] ∧ (∀ k < 3, e.nI Ix.vpRoll k = 0 ∨ e.nI Ix.vpRollSrc k ≠ l)) ∧
    (∃ (t l : _) (s : State) (e : Dev) (x : _) (b : Nat) (k left : _), e = s.dev.at t ∧ x = e.layer l ∧ k = x.next.getD (e.frameAfter l b) ∧ left =
      e.frameAfter l b - k ∧ l < 16 ∧ x.drain = some b ∧ b + us 50 ≤ e.time96 ∧ left ≠ 0 ∧ e.traceConv l x.trace = [] ∧ e.sup.emergencies.length < 32) ∧
    (∃ (t l : _) (s : State) (e : Dev), e = s.dev.at t ∧ l < 16 ∧ e.sup.emergencies.length < 32) ∧
    (∃ (t core l : _) (s : State) (e : Dev), e = s.dev.at t ∧ core < 32 ∧ l < 16 ∧ core ∉ e.spe.coreFailed ∧ e.repointing 3 = false ∧ e.n0
      Ix.speStandbyFor = 0xFF ∧ 1 ∉ e.flt.standbyFailed ∧ e.coresOut (core / 8) = 0 ∧ 56 * e.clockKHz 3 * 1000000 < e.laneCost (core / 8) ∧
      e.laneLimit (core / 8) (e.laneLayers (core / 8)) = none ∧ e.sup.emergencies.length < 31) ∧
    (∃ (t core l : _) (s : State) (e : Dev), e = s.dev.at t ∧ core < 32 ∧ l < 16 ∧ core ∉ e.spe.coreFailed ∧ e.repointing 3 = false ∧ e.n0
      Ix.speStandbyFor ≠ 0xFF ∧ e.sup.emergencies.length < 31) ∧
    (∃ (t core : _) (s : State) (e : Dev), e = s.dev.at t ∧ core < 32 ∧ core ∈ e.spe.coreFailed) ∧
    (∃ (t core : _) (s : State) (e : Dev), e = s.dev.at t ∧ core < 32 ∧ core ∈ e.spe.coreRejoin ∧ e.flt.repoint = none) ∧
    (∃ (t : _) (s : State) (e : Dev) (c : _), e = s.dev.at t ∧ e.repointing 3 = false ∧ e.n0 Ix.speStandbyFor = c ∧ c < 32 ∧ e.sup.emergencies.length
      < 31) ∧
    (∃ (t path c : _) (s : State) (e : Dev), e = s.dev.at t ∧ e.reaches path Ix.speRepoint ∧ c < 32 ∧ e.repointing 3 = false ∧ e.n0 Ix.speStandbyFor =
      0xFF ∧ e.repointBusy = false) ∧
    (∃ (t path c : _) (s : State) (e : Dev), e = s.dev.at t ∧ e.reaches path Ix.speRepoint ∧ 1 ≤ path ∧ path ≤ 4 ∧ c < 32 ∧ e.repointing 3 = false ∧
      e.n0 Ix.speStandbyFor ≠ 0xFF) ∧
    (∃ (t path : _) (s : State) (e : Dev) (r : Repoint), e = s.dev.at t ∧ e.reaches path Ix.speRepoint ∧ e.flt.repoint = some r ∧ r.isl = 3 ∧ r.out =
      false ∧ e.n0 Ix.fltUpdateState ≠ 3 ∧ e.n0 Ix.fltUpdateState ≠ 5) ∧
    (∃ (t c : _) (s : State) (e : Dev) (r : Repoint), e = s.dev.at t ∧ c < 32 ∧ e.flt.repoint = some r ∧ r.isl = 3 ∧ r.inst = c ∧ e.n0
      Ix.speRepointState = 1 ∧ 1 ∉ e.flt.standbyFailed) ∧
    (∃ (t : _) (s : State) (e : Dev) (r : Repoint), e = s.dev.at t ∧ e.flt.repoint = some r ∧ r.isl = 3 ∧ e.n0 Ix.speRepointState = 2) ∧
    (∃ (t path : _) (s : State) (e : Dev) (l k : _), e = s.dev.at t ∧ l = e.nW Ix.speUserLayer path ∧ k = e.nW Ix.speUserIndex path ∧ e.reaches path
      Ix.speUserCoef ∧ k < 2 ^ 20) :=
  ⟨⟨0, 2, 2, 1, ([(3, 4)] : List (Int × Int)), at0 (dv [(Ix.chnSrc, 3, 0, 16), (Ix.itkFs, 1, 0, 1000000000000), (Ix.itkMode, 1, 0, 3), (Ix.chnState,
      3, 0, 2), (Ix.chnDepth, 3, 0, 0), (Ix.itkLinkState, 1, 0, 5), (Ix.speLayerSrc, 3, 0, 34), (Ix.speLayerLen, 3, 0, 4), (Ix.speDetCount, 3, 0, 8),
      (Ix.speHopShift, 3, 0, 0)]
      { up with chn := { up.chn with ddcs := [(2, {})], output := [(2, { asked := [(8, { i := 100, q := 5 }), (9, { i := 1000, q := -3 }), (10, { i := 10, q := 50 }), (11, { i := 10, q := 50 })] })] }, itk := { up.itk with links := [(0, { checked := true, anchor := some 1000 })] }, spe := { up.spe with layers := [(2, { next := some 2 })] } }),
      _, _, _, _, _, rfl, rfl, rfl, rfl, rfl, by decide +kernel⟩,
    ⟨0, 2, 2, 1, at0 (dv [(Ix.chnSrc, 3, 0, 16), (Ix.itkFs, 1, 0, 1000000000000), (Ix.itkMode, 1, 0, 3), (Ix.chnState, 3, 0, 2), (Ix.chnDepth, 3, 0,
      0), (Ix.itkLinkState, 1, 0, 5), (Ix.speLayerSrc, 3, 0, 34), (Ix.speLayerLen, 3, 0, 4), (Ix.speDetCount, 3, 0, 8), (Ix.speHopShift, 3, 0, 0),
      (Ix.speGapPolicy, 3, 0, 0)]
      { up with chn := { up.chn with ddcs := [(2, {})], output := [(2, { asked := [(8, { i := 100, q := 5 }), (9, { i := 1000, q := -3 }), (11, { i := 10, q := 50 })] })] }, itk := { up.itk with links := [(0, { checked := true, anchor := some 1000 })] }, spe := { up.spe with layers := [(2, { next := some 2 })] } }),
      _, _, rfl, rfl, by decide +kernel⟩,
    ⟨0, 2, 2, 1, at0 (dv [(Ix.chnSrc, 3, 0, 16), (Ix.itkFs, 1, 0, 20000000000000), (Ix.itkMode, 1, 0, 3), (Ix.chnState, 3, 0, 2), (Ix.chnDepth, 3, 0,
      0), (Ix.itkLinkState, 1, 0, 5), (Ix.speLayerSrc, 3, 0, 34), (Ix.speLayerLen, 3, 0, 64), (Ix.speDetCount, 3, 0, 8), (Ix.speHopShift, 3, 0, 5)]
      { up with chn := { up.chn with ddcs := [(2, {})], output := [(2, { asked := [(200, { i := 100, q := 5 })] })] }, itk := { up.itk with links := [(0, { checked := true, anchor := some 1000 })] }, spe := { up.spe with layers := [(2, { next := some 2 })], coreFailed := [1] } }),
      _, _, rfl, rfl, by decide +kernel⟩,
    ⟨0, 2, at0 (dv [(Ix.chnSrc, 3, 0, 16), (Ix.itkFs, 1, 0, 1000000000000), (Ix.itkMode, 1, 0, 3), (Ix.chnState, 3, 0, 2), (Ix.chnDepth, 3, 0, 0),
      (Ix.itkLinkState, 1, 0, 5), (Ix.speLayerSrc, 3, 0, 34), (Ix.speLayerLen, 3, 0, 4), (Ix.speDetCount, 3, 0, 8), (Ix.speHopShift, 3, 0, 0),
      (Ix.strRingState, 0, 7, 1)]
      { up with chn := { up.chn with ddcs := [(2, {})], output := [(2, { asked := [(8, { i := 100, q := 5 }), (9, { i := 1000, q := -3 }), (10, { i := 10, q := 50 }), (11, { i := 10, q := 50 })] })] }, itk := { up.itk with links := [(0, { checked := true, anchor := some 1000 })] }, spe := { up.spe with layers := [(2, { next := some 16, trace := { first := some 2, frames := 2, format := 2, ring := 7, points := [5, 6] } })] } }),
      _, _, _, 2, rfl, rfl, rfl, by decide +kernel⟩,
    ⟨0, 2, at0 (dv [(Ix.chnSrc, 3, 0, 16), (Ix.itkFs, 1, 0, 1000000000000), (Ix.itkMode, 1, 0, 3), (Ix.chnState, 3, 0, 2), (Ix.chnDepth, 3, 0, 0),
      (Ix.itkLinkState, 1, 0, 5), (Ix.speLayerSrc, 3, 0, 34), (Ix.speLayerLen, 3, 0, 4), (Ix.speDetCount, 3, 0, 8), (Ix.speHopShift, 3, 0, 0)]
      { up with chn := { up.chn with ddcs := [(2, {})], output := [(2, { asked := [(8, { i := 100, q := 5 }), (9, { i := 1000, q := -3 }), (10, { i := 10, q := 50 }), (11, { i := 10, q := 50 })] })] }, itk := { up.itk with links := [(0, { checked := true, anchor := some 1000 })] }, spe := { up.spe with layers := [(2, { drain := some (2 ^ 40), next := some 2 })] }, now := 2 ^ 60, tb := { up.tb with running := true } }),
      _, _, (2 ^ 40 : Nat), _, _, rfl, rfl, rfl, rfl, by decide +kernel⟩,
    ⟨0, 2, at0 (dv [(Ix.chnSrc, 3, 0, 16), (Ix.itkFs, 1, 0, 1000000000000), (Ix.itkMode, 1, 0, 3), (Ix.chnState, 3, 0, 2), (Ix.chnDepth, 3, 0, 0),
      (Ix.itkLinkState, 1, 0, 5), (Ix.speLayerSrc, 3, 0, 34), (Ix.speLayerLen, 3, 0, 4), (Ix.speDetCount, 3, 0, 8), (Ix.speHopShift, 3, 0, 0)] up), _,
      rfl, by decide +kernel⟩,
    ⟨0, 1, 2, at0 (dv [(Ix.chnSrc, 3, 0, 16), (Ix.itkFs, 1, 0, 3000000000), (Ix.itkMode, 1, 0, 3), (Ix.chnState, 3, 0, 2), (Ix.chnDepth, 3, 0, 0),
      (Ix.itkLinkState, 1, 0, 5), (Ix.speLayerSrc, 3, 0, 34), (Ix.speLayerLen, 3, 0, 8192), (Ix.speDetCount, 3, 0, 8), (Ix.speHopShift, 3, 0, 5),
      (Ix.tbIslFreq, 3, 0, 1600000), (Ix.speStandbyFor, 0, 0, 255)] up), _, rfl, by decide +kernel⟩,
    ⟨0, 1, 2, at0 (dv [(Ix.chnSrc, 3, 0, 16), (Ix.itkFs, 1, 0, 1000000000000), (Ix.itkMode, 1, 0, 3), (Ix.chnState, 3, 0, 2), (Ix.chnDepth, 3, 0, 0),
      (Ix.itkLinkState, 1, 0, 5), (Ix.speLayerSrc, 3, 0, 34), (Ix.speLayerLen, 3, 0, 4), (Ix.speDetCount, 3, 0, 8), (Ix.speHopShift, 3, 0, 0),
      (Ix.speStandbyFor, 0, 0, 9)] up), _, rfl, by decide +kernel⟩,
    ⟨0, 9, at0 ({ up with spe := { up.spe with coreFailed := [9] } }), _, rfl, by decide +kernel⟩,
    ⟨0, 9, at0 (dv [(Ix.speStandbyFor, 0, 0, 9)]
      { up with spe := { up.spe with coreFailed := [9], coreRejoin := [9] }, flt := { up.flt with repoint := none } }), _, rfl, by decide +kernel⟩,
    ⟨0, at0 (dv [(Ix.speStandbyFor, 0, 0, 9)] up), _, 9, rfl, by decide +kernel⟩,
    ⟨0, 1, 5, at0 (dv [(Ix.speStandbyFor, 0, 0, 255)] up), _, rfl, (by delta Dev.reaches; decide +kernel)⟩,
    ⟨0, 1, 5, at0 (dv [(Ix.speStandbyFor, 0, 0, 9)] up), _, rfl, (by delta Dev.reaches; decide +kernel)⟩,
    ⟨0, 1, at0 (dv [(Ix.speRepointState, 0, 0, 1), (Ix.fltRepointState, 0, 0, 1), (Ix.fltUpdateState, 0, 0, 0)]
      { up with flt := { up.flt with repoint := some ({ isl := 3, inst := 5 } : Repoint) } }), _, ({ isl := 3, inst := 5 } : Repoint), rfl, (by
      delta Dev.reaches; decide +kernel)⟩,
    ⟨0, 5, at0 (dv [(Ix.speRepointState, 0, 0, 1), (Ix.fltRepointState, 0, 0, 1)]
      { up with flt := { up.flt with repoint := some ({ isl := 3, inst := 5 } : Repoint) } }), _, ({ isl := 3, inst := 5 } : Repoint), rfl,
      by decide +kernel⟩,
    ⟨0, at0 (dv [(Ix.speRepointState, 0, 0, 2), (Ix.fltRepointState, 0, 0, 2)]
      { up with flt := { up.flt with repoint := some ({ isl := 3, inst := 5, out := true } : Repoint) } }), _, ({ isl := 3, inst := 5, out := true } :
      Repoint), rfl, by decide +kernel⟩,
    ⟨0, 1, at0 (up), _, _, _, rfl, rfl, rfl, (by delta Dev.reaches; decide +kernel)⟩⟩

/-- Every clause of `Obligations.TimeDomainConditions` has a state and operands that meet its hypotheses together. -/
theorem test_meets_TimeDomainConditions :
    (∃ (t c i : _) (s : State) (e : Dev) (p q s0 s1 x w tm : _), e = s.dev.at t ∧ s0 = e.condQty c p ∧ s1 = e.condQty c q ∧ tm = e.condTime c i
      (crossAt (e.rd Ix.trgCondLevelA (c + 1) 0) s0 s1) ∧ c < 64 ∧ (e.cond c).before = none ∧ e.nI Ix.trgCondType c = 1 ∧ e.condTurn c (i + 1) = true
      ∧ (e.cond c).seen = some i ∧ e.condSample c i = some p ∧ e.condSample c (i + 1) = some q ∧ (x, w) = levelStep (e.cond c) (e.rd Ix.trgCondLevelA
      (c + 1) 0) (e.rd Ix.trgCondLevelB (c + 1) 0) (e.nI Ix.trgCondHyst c) s1 ∧ ((bitOf w 0 = true ∧ watches (e.nI Ix.trgCondPolarity c) true = true)
      ∨ (bitOf w 1 = true ∧ watches (e.nI Ix.trgCondPolarity c) false = true)) ∧ e.mayEmit c tm) ∧
    (∃ (t c i : _) (s : State) (e : Dev) (p q s0 s1 x w l k tm : _), e = s.dev.at t ∧ s0 = e.condQty c p ∧ s1 = e.condQty c q ∧ k = crossAt (e.rd
      Ix.trgCondLevelA (c + 1) 0) s0 s1 ∧ tm = e.condTime c i k ∧ c < 64 ∧ (e.cond c).before = none ∧ e.nI Ix.trgCondType c = 2 ∧ e.nI
      Ix.trgCondPolarity c = 0 ∧ e.condTurn c (i + 1) = true ∧ (e.cond c).seen = some i ∧ e.condSample c i = some p ∧ e.condSample c (i + 1) = some q
      ∧ (x, w) = levelStep (e.cond c) (e.rd Ix.trgCondLevelA (c + 1) 0) (e.rd Ix.trgCondLevelB (c + 1) 0) (e.nI Ix.trgCondHyst c) s1 ∧ bitOf w 1 =
      true ∧ x.ledUp = some l ∧ e.condTest c (256 * i + k - l) = true ∧ e.mayEmit c tm) ∧
    (∃ (t c i : _) (s : State) (e : Dev) (q : _), e = s.dev.at t ∧ c < 64 ∧ (e.cond c).before = none ∧ e.nI Ix.trgCondType c = 6 ∧ e.condTurn c i =
      true ∧ (∀ n ∈ (e.cond c).seen, n + 1 = i) ∧ e.condSample c i = some q ∧ q.ovr ≠ 0 ∧ 16 ≤ (e.cond c).clean ∧ e.mayEmit c (e.condTime c i 0)) ∧
    (∃ (t c i : _) (s : State) (e : Dev) (q : _), e = s.dev.at t ∧ c < 64 ∧ (e.cond c).before = none ∧ e.nI Ix.trgCondType c = 6 ∧ e.condTurn c i =
      true ∧ (∀ n ∈ (e.cond c).seen, n + 1 = i) ∧ e.condSample c i = some q ∧ q.ovr = 0) ∧
    (∃ (t c i : _) (s : State) (e : Dev), e = s.dev.at t ∧ c < 64 ∧ (e.cond c).before = none ∧ 1 ≤ e.nI Ix.trgCondType c ∧ e.nI Ix.trgCondType c ≤ 6 ∧
      e.condTurn c i = true ∧ e.condSample c i = none ∧ (e.cond c).limit = none) ∧
    (∃ (t c : _) (stamp : Nat) (rising : Bool) (s : State) (e : Dev) (tm : _), e = s.dev.at t ∧ tm = ((stamp : Int) - e.rd Ix.trgSkewTin (e.nI
      Ix.trgCondSrc c + 1) 0).toNat ∧ c < 64 ∧ (e.cond c).before = none ∧ e.nI Ix.trgCondType c = 0x20 ∧ (stamp, if rising then 0 else 1) ∈
      ((e.im.sites.find? (0x10 + e.nI Ix.trgCondSrc c)).getD {}).recent ∧ (∀ n ∈ (e.cond c).seen, n < stamp) ∧ watches (e.nI Ix.trgCondPolarity c)
      rising = true ∧ e.mayEmit c tm) ∧
    (∃ (t c : _) (stamp : Nat) (rising : Bool) (s : State) (e : Dev), e = s.dev.at t ∧ c < 64 ∧ (e.cond c).before = none ∧ e.nI Ix.trgCondType c =
      0x21 ∧ (stamp, if rising then 0 else 1) ∈ ((e.im.sites.find? (0x10 + e.nI Ix.trgCondSrc c)).getD {}).recent ∧ (∀ n ∈ (e.cond c).seen, n < stamp)
      ∧ rising = (e.nI Ix.trgCondPolarity c == 0)) ∧
    (∃ (t c : _) (stamp : Nat) (rising : Bool) (s : State) (e : Dev) (g tm : _), e = s.dev.at t ∧ tm = ((stamp : Int) - e.rd Ix.trgSkewTin (e.nI
      Ix.trgCondSrc c + 1) 0).toNat ∧ c < 64 ∧ (e.cond c).before = none ∧ e.nI Ix.trgCondType c = 0x21 ∧ (stamp, if rising then 0 else 1) ∈
      ((e.im.sites.find? (0x10 + e.nI Ix.trgCondSrc c)).getD {}).recent ∧ (∀ n ∈ (e.cond c).seen, n < stamp) ∧ rising ≠ (e.nI Ix.trgCondPolarity c ==
      0) ∧ (e.cond c).edge = some g ∧ e.condTest c (toPs (stamp - g)) = true ∧ e.mayEmit c tm) ∧
    (∃ (t c : _) (s : State) (e : Dev) (l : Nat × Nat) (n : _), e = s.dev.at t ∧ c < 64 ∧ (e.cond c).limit = some l ∧ e.nI Ix.trgCondType c = 4 ∧
      (e.cond c).seen = some n ∧ l.1 ≤ 256 * n ∧ e.mayEmit c l.2) :=
  ⟨⟨0, 3, 5, at0 (dv [(Ix.trgCondSrc, 4, 0, 16), (Ix.itkFs, 1, 0, 1000000000000), (Ix.itkMode, 1, 0, 3), (Ix.itkLinkState, 1, 0, 5),
      (Ix.trgCondLevelA, 4, 0, 100), (Ix.trgCondLevelB, 4, 0, 1000), (Ix.trgCondHyst, 4, 0, 0), (Ix.trgCondType, 4, 0, 1)]
      { up with itk := { up.itk with links := [(0, { checked := true, anchor := some 1000 })] }, chn := { up.chn with input := [(16, { asked := [(5, { i := 0, q := 0 }), (6, { i := 200, q := 0 })] })] }, trg := { up.trg with conds := [(3, { seen := some 5, upA := true })] } }),
      _, (((at0 (dv [(Ix.trgCondSrc, 4, 0, 16), (Ix.itkFs, 1, 0, 1000000000000), (Ix.itkMode, 1, 0, 3), (Ix.itkLinkState, 1, 0, 5), (Ix.trgCondLevelA,
      4, 0, 100), (Ix.trgCondLevelB, 4, 0, 1000), (Ix.trgCondHyst, 4, 0, 0), (Ix.trgCondType, 4, 0, 1)]
      { up with itk := { up.itk with links := [(0, { checked := true, anchor := some 1000 })] }, chn := { up.chn with input := [(16, { asked := [(5, { i := 0, q := 0 }), (6, { i := 200, q := 0 })] })] }, trg := { up.trg with conds := [(3, { seen := some 5, upA := true })] } })).dev.at
      0).condSample 3 5).getD { i := 9, q := 9 }, (((at0 (dv [(Ix.trgCondSrc, 4, 0, 16), (Ix.itkFs, 1, 0, 1000000000000), (Ix.itkMode, 1, 0, 3),
      (Ix.itkLinkState, 1, 0, 5), (Ix.trgCondLevelA, 4, 0, 100), (Ix.trgCondLevelB, 4, 0, 1000), (Ix.trgCondHyst, 4, 0, 0), (Ix.trgCondType, 4, 0, 1)]
      { up with itk := { up.itk with links := [(0, { checked := true, anchor := some 1000 })] }, chn := { up.chn with input := [(16, { asked := [(5, { i := 0, q := 0 }), (6, { i := 200, q := 0 })] })] }, trg := { up.trg with conds := [(3, { seen := some 5, upA := true })] } })).dev.at
      0).condSample 3 6).getD { i := 9, q := 9 }, _, _, (levelStep (((at0 (dv [(Ix.trgCondSrc, 4, 0, 16), (Ix.itkFs, 1, 0, 1000000000000),
      (Ix.itkMode, 1, 0, 3), (Ix.itkLinkState, 1, 0, 5), (Ix.trgCondLevelA, 4, 0, 100), (Ix.trgCondLevelB, 4, 0, 1000), (Ix.trgCondHyst, 4, 0, 0),
      (Ix.trgCondType, 4, 0, 1)]
      { up with itk := { up.itk with links := [(0, { checked := true, anchor := some 1000 })] }, chn := { up.chn with input := [(16, { asked := [(5, { i := 0, q := 0 }), (6, { i := 200, q := 0 })] })] }, trg := { up.trg with conds := [(3, { seen := some 5, upA := true })] } })).dev.at
      0).cond 3) (((at0 (dv [(Ix.trgCondSrc, 4, 0, 16), (Ix.itkFs, 1, 0, 1000000000000), (Ix.itkMode, 1, 0, 3), (Ix.itkLinkState, 1, 0, 5),
      (Ix.trgCondLevelA, 4, 0, 100), (Ix.trgCondLevelB, 4, 0, 1000), (Ix.trgCondHyst, 4, 0, 0), (Ix.trgCondType, 4, 0, 1)]
      { up with itk := { up.itk with links := [(0, { checked := true, anchor := some 1000 })] }, chn := { up.chn with input := [(16, { asked := [(5, { i := 0, q := 0 }), (6, { i := 200, q := 0 })] })] }, trg := { up.trg with conds := [(3, { seen := some 5, upA := true })] } })).dev.at
      0).rd Ix.trgCondLevelA 4 0) (((at0 (dv [(Ix.trgCondSrc, 4, 0, 16), (Ix.itkFs, 1, 0, 1000000000000), (Ix.itkMode, 1, 0, 3), (Ix.itkLinkState, 1,
      0, 5), (Ix.trgCondLevelA, 4, 0, 100), (Ix.trgCondLevelB, 4, 0, 1000), (Ix.trgCondHyst, 4, 0, 0), (Ix.trgCondType, 4, 0, 1)]
      { up with itk := { up.itk with links := [(0, { checked := true, anchor := some 1000 })] }, chn := { up.chn with input := [(16, { asked := [(5, { i := 0, q := 0 }), (6, { i := 200, q := 0 })] })] }, trg := { up.trg with conds := [(3, { seen := some 5, upA := true })] } })).dev.at
      0).rd Ix.trgCondLevelB 4 0) (((at0 (dv [(Ix.trgCondSrc, 4, 0, 16), (Ix.itkFs, 1, 0, 1000000000000), (Ix.itkMode, 1, 0, 3), (Ix.itkLinkState, 1,
      0, 5), (Ix.trgCondLevelA, 4, 0, 100), (Ix.trgCondLevelB, 4, 0, 1000), (Ix.trgCondHyst, 4, 0, 0), (Ix.trgCondType, 4, 0, 1)]
      { up with itk := { up.itk with links := [(0, { checked := true, anchor := some 1000 })] }, chn := { up.chn with input := [(16, { asked := [(5, { i := 0, q := 0 }), (6, { i := 200, q := 0 })] })] }, trg := { up.trg with conds := [(3, { seen := some 5, upA := true })] } })).dev.at
      0).nI Ix.trgCondHyst 3) (((at0 (dv [(Ix.trgCondSrc, 4, 0, 16), (Ix.itkFs, 1, 0, 1000000000000), (Ix.itkMode, 1, 0, 3), (Ix.itkLinkState, 1, 0,
      5), (Ix.trgCondLevelA, 4, 0, 100), (Ix.trgCondLevelB, 4, 0, 1000), (Ix.trgCondHyst, 4, 0, 0), (Ix.trgCondType, 4, 0, 1)]
      { up with itk := { up.itk with links := [(0, { checked := true, anchor := some 1000 })] }, chn := { up.chn with input := [(16, { asked := [(5, { i := 0, q := 0 }), (6, { i := 200, q := 0 })] })] }, trg := { up.trg with conds := [(3, { seen := some 5, upA := true })] } })).dev.at
      0).condQty 3 ((((at0 (dv [(Ix.trgCondSrc, 4, 0, 16), (Ix.itkFs, 1, 0, 1000000000000), (Ix.itkMode, 1, 0, 3), (Ix.itkLinkState, 1, 0, 5),
      (Ix.trgCondLevelA, 4, 0, 100), (Ix.trgCondLevelB, 4, 0, 1000), (Ix.trgCondHyst, 4, 0, 0), (Ix.trgCondType, 4, 0, 1)]
      { up with itk := { up.itk with links := [(0, { checked := true, anchor := some 1000 })] }, chn := { up.chn with input := [(16, { asked := [(5, { i := 0, q := 0 }), (6, { i := 200, q := 0 })] })] }, trg := { up.trg with conds := [(3, { seen := some 5, upA := true })] } })).dev.at
      0).condSample 3 6).getD { i := 9, q := 9 }))).1, (levelStep (((at0 (dv [(Ix.trgCondSrc, 4, 0, 16), (Ix.itkFs, 1, 0, 1000000000000), (Ix.itkMode,
      1, 0, 3), (Ix.itkLinkState, 1, 0, 5), (Ix.trgCondLevelA, 4, 0, 100), (Ix.trgCondLevelB, 4, 0, 1000), (Ix.trgCondHyst, 4, 0, 0), (Ix.trgCondType,
      4, 0, 1)]
      { up with itk := { up.itk with links := [(0, { checked := true, anchor := some 1000 })] }, chn := { up.chn with input := [(16, { asked := [(5, { i := 0, q := 0 }), (6, { i := 200, q := 0 })] })] }, trg := { up.trg with conds := [(3, { seen := some 5, upA := true })] } })).dev.at
      0).cond 3) (((at0 (dv [(Ix.trgCondSrc, 4, 0, 16), (Ix.itkFs, 1, 0, 1000000000000), (Ix.itkMode, 1, 0, 3), (Ix.itkLinkState, 1, 0, 5),
      (Ix.trgCondLevelA, 4, 0, 100), (Ix.trgCondLevelB, 4, 0, 1000), (Ix.trgCondHyst, 4, 0, 0), (Ix.trgCondType, 4, 0, 1)]
      { up with itk := { up.itk with links := [(0, { checked := true, anchor := some 1000 })] }, chn := { up.chn with input := [(16, { asked := [(5, { i := 0, q := 0 }), (6, { i := 200, q := 0 })] })] }, trg := { up.trg with conds := [(3, { seen := some 5, upA := true })] } })).dev.at
      0).rd Ix.trgCondLevelA 4 0) (((at0 (dv [(Ix.trgCondSrc, 4, 0, 16), (Ix.itkFs, 1, 0, 1000000000000), (Ix.itkMode, 1, 0, 3), (Ix.itkLinkState, 1,
      0, 5), (Ix.trgCondLevelA, 4, 0, 100), (Ix.trgCondLevelB, 4, 0, 1000), (Ix.trgCondHyst, 4, 0, 0), (Ix.trgCondType, 4, 0, 1)]
      { up with itk := { up.itk with links := [(0, { checked := true, anchor := some 1000 })] }, chn := { up.chn with input := [(16, { asked := [(5, { i := 0, q := 0 }), (6, { i := 200, q := 0 })] })] }, trg := { up.trg with conds := [(3, { seen := some 5, upA := true })] } })).dev.at
      0).rd Ix.trgCondLevelB 4 0) (((at0 (dv [(Ix.trgCondSrc, 4, 0, 16), (Ix.itkFs, 1, 0, 1000000000000), (Ix.itkMode, 1, 0, 3), (Ix.itkLinkState, 1,
      0, 5), (Ix.trgCondLevelA, 4, 0, 100), (Ix.trgCondLevelB, 4, 0, 1000), (Ix.trgCondHyst, 4, 0, 0), (Ix.trgCondType, 4, 0, 1)]
      { up with itk := { up.itk with links := [(0, { checked := true, anchor := some 1000 })] }, chn := { up.chn with input := [(16, { asked := [(5, { i := 0, q := 0 }), (6, { i := 200, q := 0 })] })] }, trg := { up.trg with conds := [(3, { seen := some 5, upA := true })] } })).dev.at
      0).nI Ix.trgCondHyst 3) (((at0 (dv [(Ix.trgCondSrc, 4, 0, 16), (Ix.itkFs, 1, 0, 1000000000000), (Ix.itkMode, 1, 0, 3), (Ix.itkLinkState, 1, 0,
      5), (Ix.trgCondLevelA, 4, 0, 100), (Ix.trgCondLevelB, 4, 0, 1000), (Ix.trgCondHyst, 4, 0, 0), (Ix.trgCondType, 4, 0, 1)]
      { up with itk := { up.itk with links := [(0, { checked := true, anchor := some 1000 })] }, chn := { up.chn with input := [(16, { asked := [(5, { i := 0, q := 0 }), (6, { i := 200, q := 0 })] })] }, trg := { up.trg with conds := [(3, { seen := some 5, upA := true })] } })).dev.at
      0).condQty 3 ((((at0 (dv [(Ix.trgCondSrc, 4, 0, 16), (Ix.itkFs, 1, 0, 1000000000000), (Ix.itkMode, 1, 0, 3), (Ix.itkLinkState, 1, 0, 5),
      (Ix.trgCondLevelA, 4, 0, 100), (Ix.trgCondLevelB, 4, 0, 1000), (Ix.trgCondHyst, 4, 0, 0), (Ix.trgCondType, 4, 0, 1)]
      { up with itk := { up.itk with links := [(0, { checked := true, anchor := some 1000 })] }, chn := { up.chn with input := [(16, { asked := [(5, { i := 0, q := 0 }), (6, { i := 200, q := 0 })] })] }, trg := { up.trg with conds := [(3, { seen := some 5, upA := true })] } })).dev.at
      0).condSample 3 6).getD { i := 9, q := 9 }))).2, _, rfl, rfl, rfl, rfl, (by delta Dev.mayEmit; decide +kernel)⟩,
    ⟨0, 3, 5, at0 (dv [(Ix.trgCondSrc, 4, 0, 16), (Ix.itkFs, 1, 0, 1000000000000), (Ix.itkMode, 1, 0, 3), (Ix.itkLinkState, 1, 0, 5),
      (Ix.trgCondLevelA, 4, 0, -5), (Ix.trgCondLevelB, 4, 0, 1000), (Ix.trgCondHyst, 4, 0, 0), (Ix.trgCondType, 4, 0, 2), (Ix.trgCondTimeB, 4, 0,
      1099511627776), (Ix.trgCondCompare, 4, 0, 2), (Ix.trgCondPolarity, 4, 0, 0)]
      { up with itk := { up.itk with links := [(0, { checked := true, anchor := some 1000 })] }, chn := { up.chn with input := [(16, { asked := [(5, { i := 0, q := 0 }), (6, { i := -200, q := 0 })] })] }, trg := { up.trg with conds := [(3, { seen := some 5, ledUp := some 1000, dnA := true })] } }),
      _, (((at0 (dv [(Ix.trgCondSrc, 4, 0, 16), (Ix.itkFs, 1, 0, 1000000000000), (Ix.itkMode, 1, 0, 3), (Ix.itkLinkState, 1, 0, 5), (Ix.trgCondLevelA,
      4, 0, -5), (Ix.trgCondLevelB, 4, 0, 1000), (Ix.trgCondHyst, 4, 0, 0), (Ix.trgCondType, 4, 0, 2), (Ix.trgCondTimeB, 4, 0, 1099511627776),
      (Ix.trgCondCompare, 4, 0, 2), (Ix.trgCondPolarity, 4, 0, 0)]
      { up with itk := { up.itk with links := [(0, { checked := true, anchor := some 1000 })] }, chn := { up.chn with input := [(16, { asked := [(5, { i := 0, q := 0 }), (6, { i := -200, q := 0 })] })] }, trg := { up.trg with conds := [(3, { seen := some 5, ledUp := some 1000, dnA := true })] } })).dev.at
      0).condSample 3 5).getD { i := 9, q := 9 }, (((at0 (dv [(Ix.trgCondSrc, 4, 0, 16), (Ix.itkFs, 1, 0, 1000000000000), (Ix.itkMode, 1, 0, 3),
      (Ix.itkLinkState, 1, 0, 5), (Ix.trgCondLevelA, 4, 0, -5), (Ix.trgCondLevelB, 4, 0, 1000), (Ix.trgCondHyst, 4, 0, 0), (Ix.trgCondType, 4, 0, 2),
      (Ix.trgCondTimeB, 4, 0, 1099511627776), (Ix.trgCondCompare, 4, 0, 2), (Ix.trgCondPolarity, 4, 0, 0)]
      { up with itk := { up.itk with links := [(0, { checked := true, anchor := some 1000 })] }, chn := { up.chn with input := [(16, { asked := [(5, { i := 0, q := 0 }), (6, { i := -200, q := 0 })] })] }, trg := { up.trg with conds := [(3, { seen := some 5, ledUp := some 1000, dnA := true })] } })).dev.at
      0).condSample 3 6).getD { i := 9, q := 9 }, _, _, (levelStep (((at0 (dv [(Ix.trgCondSrc, 4, 0, 16), (Ix.itkFs, 1, 0, 1000000000000),
      (Ix.itkMode, 1, 0, 3), (Ix.itkLinkState, 1, 0, 5), (Ix.trgCondLevelA, 4, 0, -5), (Ix.trgCondLevelB, 4, 0, 1000), (Ix.trgCondHyst, 4, 0, 0),
      (Ix.trgCondType, 4, 0, 2), (Ix.trgCondTimeB, 4, 0, 1099511627776), (Ix.trgCondCompare, 4, 0, 2), (Ix.trgCondPolarity, 4, 0, 0)]
      { up with itk := { up.itk with links := [(0, { checked := true, anchor := some 1000 })] }, chn := { up.chn with input := [(16, { asked := [(5, { i := 0, q := 0 }), (6, { i := -200, q := 0 })] })] }, trg := { up.trg with conds := [(3, { seen := some 5, ledUp := some 1000, dnA := true })] } })).dev.at
      0).cond 3) (((at0 (dv [(Ix.trgCondSrc, 4, 0, 16), (Ix.itkFs, 1, 0, 1000000000000), (Ix.itkMode, 1, 0, 3), (Ix.itkLinkState, 1, 0, 5),
      (Ix.trgCondLevelA, 4, 0, -5), (Ix.trgCondLevelB, 4, 0, 1000), (Ix.trgCondHyst, 4, 0, 0), (Ix.trgCondType, 4, 0, 2), (Ix.trgCondTimeB, 4, 0,
      1099511627776), (Ix.trgCondCompare, 4, 0, 2), (Ix.trgCondPolarity, 4, 0, 0)]
      { up with itk := { up.itk with links := [(0, { checked := true, anchor := some 1000 })] }, chn := { up.chn with input := [(16, { asked := [(5, { i := 0, q := 0 }), (6, { i := -200, q := 0 })] })] }, trg := { up.trg with conds := [(3, { seen := some 5, ledUp := some 1000, dnA := true })] } })).dev.at
      0).rd Ix.trgCondLevelA 4 0) (((at0 (dv [(Ix.trgCondSrc, 4, 0, 16), (Ix.itkFs, 1, 0, 1000000000000), (Ix.itkMode, 1, 0, 3), (Ix.itkLinkState, 1,
      0, 5), (Ix.trgCondLevelA, 4, 0, -5), (Ix.trgCondLevelB, 4, 0, 1000), (Ix.trgCondHyst, 4, 0, 0), (Ix.trgCondType, 4, 0, 2), (Ix.trgCondTimeB, 4,
      0, 1099511627776), (Ix.trgCondCompare, 4, 0, 2), (Ix.trgCondPolarity, 4, 0, 0)]
      { up with itk := { up.itk with links := [(0, { checked := true, anchor := some 1000 })] }, chn := { up.chn with input := [(16, { asked := [(5, { i := 0, q := 0 }), (6, { i := -200, q := 0 })] })] }, trg := { up.trg with conds := [(3, { seen := some 5, ledUp := some 1000, dnA := true })] } })).dev.at
      0).rd Ix.trgCondLevelB 4 0) (((at0 (dv [(Ix.trgCondSrc, 4, 0, 16), (Ix.itkFs, 1, 0, 1000000000000), (Ix.itkMode, 1, 0, 3), (Ix.itkLinkState, 1,
      0, 5), (Ix.trgCondLevelA, 4, 0, -5), (Ix.trgCondLevelB, 4, 0, 1000), (Ix.trgCondHyst, 4, 0, 0), (Ix.trgCondType, 4, 0, 2), (Ix.trgCondTimeB, 4,
      0, 1099511627776), (Ix.trgCondCompare, 4, 0, 2), (Ix.trgCondPolarity, 4, 0, 0)]
      { up with itk := { up.itk with links := [(0, { checked := true, anchor := some 1000 })] }, chn := { up.chn with input := [(16, { asked := [(5, { i := 0, q := 0 }), (6, { i := -200, q := 0 })] })] }, trg := { up.trg with conds := [(3, { seen := some 5, ledUp := some 1000, dnA := true })] } })).dev.at
      0).nI Ix.trgCondHyst 3) (((at0 (dv [(Ix.trgCondSrc, 4, 0, 16), (Ix.itkFs, 1, 0, 1000000000000), (Ix.itkMode, 1, 0, 3), (Ix.itkLinkState, 1, 0,
      5), (Ix.trgCondLevelA, 4, 0, -5), (Ix.trgCondLevelB, 4, 0, 1000), (Ix.trgCondHyst, 4, 0, 0), (Ix.trgCondType, 4, 0, 2), (Ix.trgCondTimeB, 4, 0,
      1099511627776), (Ix.trgCondCompare, 4, 0, 2), (Ix.trgCondPolarity, 4, 0, 0)]
      { up with itk := { up.itk with links := [(0, { checked := true, anchor := some 1000 })] }, chn := { up.chn with input := [(16, { asked := [(5, { i := 0, q := 0 }), (6, { i := -200, q := 0 })] })] }, trg := { up.trg with conds := [(3, { seen := some 5, ledUp := some 1000, dnA := true })] } })).dev.at
      0).condQty 3 ((((at0 (dv [(Ix.trgCondSrc, 4, 0, 16), (Ix.itkFs, 1, 0, 1000000000000), (Ix.itkMode, 1, 0, 3), (Ix.itkLinkState, 1, 0, 5),
      (Ix.trgCondLevelA, 4, 0, -5), (Ix.trgCondLevelB, 4, 0, 1000), (Ix.trgCondHyst, 4, 0, 0), (Ix.trgCondType, 4, 0, 2), (Ix.trgCondTimeB, 4, 0,
      1099511627776), (Ix.trgCondCompare, 4, 0, 2), (Ix.trgCondPolarity, 4, 0, 0)]
      { up with itk := { up.itk with links := [(0, { checked := true, anchor := some 1000 })] }, chn := { up.chn with input := [(16, { asked := [(5, { i := 0, q := 0 }), (6, { i := -200, q := 0 })] })] }, trg := { up.trg with conds := [(3, { seen := some 5, ledUp := some 1000, dnA := true })] } })).dev.at
      0).condSample 3 6).getD { i := 9, q := 9 }))).1, (levelStep (((at0 (dv [(Ix.trgCondSrc, 4, 0, 16), (Ix.itkFs, 1, 0, 1000000000000), (Ix.itkMode,
      1, 0, 3), (Ix.itkLinkState, 1, 0, 5), (Ix.trgCondLevelA, 4, 0, -5), (Ix.trgCondLevelB, 4, 0, 1000), (Ix.trgCondHyst, 4, 0, 0), (Ix.trgCondType,
      4, 0, 2), (Ix.trgCondTimeB, 4, 0, 1099511627776), (Ix.trgCondCompare, 4, 0, 2), (Ix.trgCondPolarity, 4, 0, 0)]
      { up with itk := { up.itk with links := [(0, { checked := true, anchor := some 1000 })] }, chn := { up.chn with input := [(16, { asked := [(5, { i := 0, q := 0 }), (6, { i := -200, q := 0 })] })] }, trg := { up.trg with conds := [(3, { seen := some 5, ledUp := some 1000, dnA := true })] } })).dev.at
      0).cond 3) (((at0 (dv [(Ix.trgCondSrc, 4, 0, 16), (Ix.itkFs, 1, 0, 1000000000000), (Ix.itkMode, 1, 0, 3), (Ix.itkLinkState, 1, 0, 5),
      (Ix.trgCondLevelA, 4, 0, -5), (Ix.trgCondLevelB, 4, 0, 1000), (Ix.trgCondHyst, 4, 0, 0), (Ix.trgCondType, 4, 0, 2), (Ix.trgCondTimeB, 4, 0,
      1099511627776), (Ix.trgCondCompare, 4, 0, 2), (Ix.trgCondPolarity, 4, 0, 0)]
      { up with itk := { up.itk with links := [(0, { checked := true, anchor := some 1000 })] }, chn := { up.chn with input := [(16, { asked := [(5, { i := 0, q := 0 }), (6, { i := -200, q := 0 })] })] }, trg := { up.trg with conds := [(3, { seen := some 5, ledUp := some 1000, dnA := true })] } })).dev.at
      0).rd Ix.trgCondLevelA 4 0) (((at0 (dv [(Ix.trgCondSrc, 4, 0, 16), (Ix.itkFs, 1, 0, 1000000000000), (Ix.itkMode, 1, 0, 3), (Ix.itkLinkState, 1,
      0, 5), (Ix.trgCondLevelA, 4, 0, -5), (Ix.trgCondLevelB, 4, 0, 1000), (Ix.trgCondHyst, 4, 0, 0), (Ix.trgCondType, 4, 0, 2), (Ix.trgCondTimeB, 4,
      0, 1099511627776), (Ix.trgCondCompare, 4, 0, 2), (Ix.trgCondPolarity, 4, 0, 0)]
      { up with itk := { up.itk with links := [(0, { checked := true, anchor := some 1000 })] }, chn := { up.chn with input := [(16, { asked := [(5, { i := 0, q := 0 }), (6, { i := -200, q := 0 })] })] }, trg := { up.trg with conds := [(3, { seen := some 5, ledUp := some 1000, dnA := true })] } })).dev.at
      0).rd Ix.trgCondLevelB 4 0) (((at0 (dv [(Ix.trgCondSrc, 4, 0, 16), (Ix.itkFs, 1, 0, 1000000000000), (Ix.itkMode, 1, 0, 3), (Ix.itkLinkState, 1,
      0, 5), (Ix.trgCondLevelA, 4, 0, -5), (Ix.trgCondLevelB, 4, 0, 1000), (Ix.trgCondHyst, 4, 0, 0), (Ix.trgCondType, 4, 0, 2), (Ix.trgCondTimeB, 4,
      0, 1099511627776), (Ix.trgCondCompare, 4, 0, 2), (Ix.trgCondPolarity, 4, 0, 0)]
      { up with itk := { up.itk with links := [(0, { checked := true, anchor := some 1000 })] }, chn := { up.chn with input := [(16, { asked := [(5, { i := 0, q := 0 }), (6, { i := -200, q := 0 })] })] }, trg := { up.trg with conds := [(3, { seen := some 5, ledUp := some 1000, dnA := true })] } })).dev.at
      0).nI Ix.trgCondHyst 3) (((at0 (dv [(Ix.trgCondSrc, 4, 0, 16), (Ix.itkFs, 1, 0, 1000000000000), (Ix.itkMode, 1, 0, 3), (Ix.itkLinkState, 1, 0,
      5), (Ix.trgCondLevelA, 4, 0, -5), (Ix.trgCondLevelB, 4, 0, 1000), (Ix.trgCondHyst, 4, 0, 0), (Ix.trgCondType, 4, 0, 2), (Ix.trgCondTimeB, 4, 0,
      1099511627776), (Ix.trgCondCompare, 4, 0, 2), (Ix.trgCondPolarity, 4, 0, 0)]
      { up with itk := { up.itk with links := [(0, { checked := true, anchor := some 1000 })] }, chn := { up.chn with input := [(16, { asked := [(5, { i := 0, q := 0 }), (6, { i := -200, q := 0 })] })] }, trg := { up.trg with conds := [(3, { seen := some 5, ledUp := some 1000, dnA := true })] } })).dev.at
      0).condQty 3 ((((at0 (dv [(Ix.trgCondSrc, 4, 0, 16), (Ix.itkFs, 1, 0, 1000000000000), (Ix.itkMode, 1, 0, 3), (Ix.itkLinkState, 1, 0, 5),
      (Ix.trgCondLevelA, 4, 0, -5), (Ix.trgCondLevelB, 4, 0, 1000), (Ix.trgCondHyst, 4, 0, 0), (Ix.trgCondType, 4, 0, 2), (Ix.trgCondTimeB, 4, 0,
      1099511627776), (Ix.trgCondCompare, 4, 0, 2), (Ix.trgCondPolarity, 4, 0, 0)]
      { up with itk := { up.itk with links := [(0, { checked := true, anchor := some 1000 })] }, chn := { up.chn with input := [(16, { asked := [(5, { i := 0, q := 0 }), (6, { i := -200, q := 0 })] })] }, trg := { up.trg with conds := [(3, { seen := some 5, ledUp := some 1000, dnA := true })] } })).dev.at
      0).condSample 3 6).getD { i := 9, q := 9 }))).2, 1000, _, _, rfl, rfl, rfl, rfl, rfl, (by delta Dev.mayEmit; decide +kernel)⟩,
    ⟨0, 3, 6, at0 (dv [(Ix.trgCondSrc, 4, 0, 16), (Ix.itkFs, 1, 0, 1000000000000), (Ix.itkMode, 1, 0, 3), (Ix.itkLinkState, 1, 0, 5),
      (Ix.trgCondLevelA, 4, 0, 100), (Ix.trgCondLevelB, 4, 0, 1000), (Ix.trgCondHyst, 4, 0, 0), (Ix.trgCondType, 4, 0, 6)]
      { up with itk := { up.itk with links := [(0, { checked := true, anchor := some 1000 })] }, chn := { up.chn with input := [(16, { asked := [(5, { i := 0, q := 0 }), (6, { i := 200, q := 0, ovr := 1 })] })] }, trg := { up.trg with conds := [(3, { seen := some 5, clean := 16 })] } }),
      _, (((at0 (dv [(Ix.trgCondSrc, 4, 0, 16), (Ix.itkFs, 1, 0, 1000000000000), (Ix.itkMode, 1, 0, 3), (Ix.itkLinkState, 1, 0, 5), (Ix.trgCondLevelA,
      4, 0, 100), (Ix.trgCondLevelB, 4, 0, 1000), (Ix.trgCondHyst, 4, 0, 0), (Ix.trgCondType, 4, 0, 6)]
      { up with itk := { up.itk with links := [(0, { checked := true, anchor := some 1000 })] }, chn := { up.chn with input := [(16, { asked := [(5, { i := 0, q := 0 }), (6, { i := 200, q := 0, ovr := 1 })] })] }, trg := { up.trg with conds := [(3, { seen := some 5, clean := 16 })] } })).dev.at
      0).condSample 3 6).getD { i := 9, q := 9 }, rfl, (by delta Dev.mayEmit; decide +kernel)⟩,
    ⟨0, 3, 6, at0 (dv [(Ix.trgCondSrc, 4, 0, 16), (Ix.itkFs, 1, 0, 1000000000000), (Ix.itkMode, 1, 0, 3), (Ix.itkLinkState, 1, 0, 5),
      (Ix.trgCondLevelA, 4, 0, 100), (Ix.trgCondLevelB, 4, 0, 1000), (Ix.trgCondHyst, 4, 0, 0), (Ix.trgCondType, 4, 0, 6)]
      { up with itk := { up.itk with links := [(0, { checked := true, anchor := some 1000 })] }, chn := { up.chn with input := [(16, { asked := [(5, { i := 0, q := 0 }), (6, { i := 200, q := 0, ovr := 0 })] })] }, trg := { up.trg with conds := [(3, { seen := some 5, clean := 16 })] } }),
      _, (((at0 (dv [(Ix.trgCondSrc, 4, 0, 16), (Ix.itkFs, 1, 0, 1000000000000), (Ix.itkMode, 1, 0, 3), (Ix.itkLinkState, 1, 0, 5), (Ix.trgCondLevelA,
      4, 0, 100), (Ix.trgCondLevelB, 4, 0, 1000), (Ix.trgCondHyst, 4, 0, 0), (Ix.trgCondType, 4, 0, 6)]
      { up with itk := { up.itk with links := [(0, { checked := true, anchor := some 1000 })] }, chn := { up.chn with input := [(16, { asked := [(5, { i := 0, q := 0 }), (6, { i := 200, q := 0, ovr := 0 })] })] }, trg := { up.trg with conds := [(3, { seen := some 5, clean := 16 })] } })).dev.at
      0).condSample 3 6).getD { i := 9, q := 9 }, rfl, by decide +kernel⟩,
    ⟨0, 3, 6, at0 (dv [(Ix.trgCondSrc, 4, 0, 16), (Ix.itkFs, 1, 0, 1000000000000), (Ix.itkMode, 1, 0, 3), (Ix.itkLinkState, 1, 0, 5),
      (Ix.trgCondLevelA, 4, 0, 100), (Ix.trgCondLevelB, 4, 0, 1000), (Ix.trgCondHyst, 4, 0, 0), (Ix.trgCondType, 4, 0, 1)]
      { up with itk := { up.itk with links := [(0, { checked := true, anchor := some 1000 })] }, chn := { up.chn with input := [(16, { asked := [(5, { i := 0, q := 0 }), (7, { i := 200, q := 0, ovr := 0 })] })] }, trg := { up.trg with conds := [(3, { seen := some 5, clean := 16 })] } }),
      _, rfl, by decide +kernel⟩,
    ⟨0, 3, 5000, true, at0 (dv [(Ix.trgCondSrc, 4, 0, 2), (Ix.trgCondType, 4, 0, 32)]
      { up with im := { up.im with sites := [(0x12, { recent := [(5000, 0)] })] }, trg := { up.trg with conds := [(3, {})] } }), _, _, rfl, rfl, (by
      delta Dev.mayEmit; decide +kernel)⟩,
    ⟨0, 3, 5000, true, at0 (dv [(Ix.trgCondSrc, 4, 0, 2), (Ix.trgCondType, 4, 0, 33)]
      { up with im := { up.im with sites := [(0x12, { recent := [(5000, 0)] })] }, trg := { up.trg with conds := [(3, {})] } }), _, rfl,
      by decide +kernel⟩,
    ⟨0, 3, 5000, false, at0 (dv [(Ix.trgCondSrc, 4, 0, 2), (Ix.trgCondType, 4, 0, 33), (Ix.trgCondCompare, 4, 0, 1), (Ix.trgCondTimeA, 4, 0, 0),
      (Ix.trgCondTimeB, 4, 0, 1099511627776)]
      { up with im := { up.im with sites := [(0x12, { recent := [(5000, 1)] })] }, trg := { up.trg with conds := [(3, { edge := some 1000 })] } }), _,
      1000, _, rfl, rfl, (by delta Dev.mayEmit; decide +kernel)⟩,
    ⟨0, 3, at0 (dv [(Ix.trgCondSrc, 4, 0, 16), (Ix.itkFs, 1, 0, 1000000000000), (Ix.itkMode, 1, 0, 3), (Ix.itkLinkState, 1, 0, 5), (Ix.trgCondLevelA,
      4, 0, 100), (Ix.trgCondLevelB, 4, 0, 1000), (Ix.trgCondHyst, 4, 0, 0), (Ix.trgCondType, 4, 0, 4)]
      { up with itk := { up.itk with links := [(0, { checked := true, anchor := some 1000 })] }, chn := { up.chn with input := [(16, { asked := [(5, { i := 0, q := 0 }), (6, { i := 200, q := 0 })] })] }, trg := { up.trg with conds := [(3, { limit := some (700, 9000), seen := some 100 })] } }),
      _, ((700, 9000) : Nat × Nat), 100, rfl, (by delta Dev.mayEmit; decide +kernel)⟩⟩

/-- Every clause of `Obligations.SoftwareConditionEvents` has a state and operands that meet its hypotheses together. -/
theorem test_meets_SoftwareConditionEvents :
    (∃ (t path c : _) (s : State) (e : Dev), e = s.dev.at t ∧ e.reaches path Ix.trgCondSoft ∧ c < 64 ∧ e.nI Ix.trgCondType c = 0x31 ∧ e.mayEmit c
      (e.trgBoundary (e.time96 + 1))) ∧
    (∃ (t path c : _) (s : State) (e : Dev), e = s.dev.at t ∧ e.reaches path Ix.trgCondSoft ∧ 1 ≤ path ∧ path ≤ 4 ∧ (64 ≤ c ∨ e.nI Ix.trgCondType c ≠
      0x31)) :=
  ⟨⟨0, 1, 63, at0 (dv [(Ix.trgCondType, 64, 0, 49)] up), _, rfl, (by delta Dev.reaches Dev.mayEmit; decide +kernel)⟩,
    ⟨0, 1, 64, at0 (up), _, rfl, (by delta Dev.reaches; decide +kernel)⟩⟩

/-- Every clause of `Obligations.MaskCommandsAndReload` has a state and operands that meet its hypotheses together. -/
theorem test_meets_MaskCommandsAndReload :
    (∃ (t path m : _) (s : State) (e : Dev), e = s.dev.at t ∧ e.reaches path Ix.trgMaskCmd ∧ m < 64 ∧ e.nI Ix.trgMaskState m = 2) ∧
    (∃ (t path m : _) (s : State) (e : Dev), e = s.dev.at t ∧ e.reaches path Ix.trgMaskCmd ∧ m < 64 ∧ e.nI Ix.trgMaskState m ≠ 2) ∧
    (∃ (t path m : _) (s : State) (e : Dev), e = s.dev.at t ∧ e.reaches path Ix.trgMaskCmd ∧ m < 64) ∧
    (∃ (t path : _) (s : State) (e : Dev) (m i : _), e = s.dev.at t ∧ m = e.nW Ix.trgBpMask path ∧ i = e.nW Ix.trgBpIndex path ∧ e.reaches path
      Ix.trgBpValue ∧ m < 64 ∧ i < 1024) ∧
    (∃ (t path : _) (s : State) (e : Dev), e = s.dev.at t ∧ e.reaches path Ix.trgBpValue ∧ 1 ≤ path ∧ path ≤ 4 ∧ 1024 ≤ e.nW Ix.trgBpIndex path) ∧
    (∃ (t m : _) (s : State) (e : Dev) (w : _), e = s.dev.at t ∧ w = (e.within 20000).1 ∧ m < 64 ∧ e.nI Ix.trgMaskState m ≠ 0 ∧ e.nI Ix.trgMaskState m
      ≠ 3 ∧ e.sup.emergencies.length < 32) :=
  ⟨⟨0, 1, 63, at0 (dv [(Ix.trgMaskState, 64, 0, 2)] up), _, rfl, (by delta Dev.reaches; decide +kernel)⟩,
    ⟨0, 1, 63, at0 (dv [(Ix.trgMaskState, 64, 0, 0)] up), _, rfl, (by delta Dev.reaches; decide +kernel)⟩,
    ⟨0, 1, 63, at0 (up), _, rfl, (by delta Dev.reaches; decide +kernel)⟩,
    ⟨0, 1, at0 (up), _, _, _, rfl, rfl, rfl, (by delta Dev.reaches; decide +kernel)⟩,
    ⟨0, 1, at0 (dv [(Ix.trgBpIndex, 0, 1, 1024)] up), _, rfl, (by delta Dev.reaches; decide +kernel)⟩,
    ⟨0, 63, at0 (dv [(Ix.trgMaskState, 64, 0, 1)] up), _, _, rfl, rfl, by decide +kernel⟩⟩

/-- Every clause of `Obligations.SequencerStepsFiresAndFaults` has a state and operands that meet its hypotheses together. -/
theorem test_meets_SequencerStepsFiresAndFaults :
    (∃ (t k : _) (s : State) (e : Dev) (x : ChainSt) (q : QEvent) (y : _), e = s.dev.at t ∧ k < 16 ∧ x = e.chain k ∧ x.before = none ∧ e.nI
      Ix.trgChainStages k ≠ 0 ∧ e.chainHeld k = false ∧ nextEvent (e.nI Ix.trgChainOrder k) e.time96 x.queue = some q ∧ e.nI Ix.trgCondType q.cond ≠
      0x10 ∧ chainStep (e.chainCfg k) { x with queue := x.queue.erase q } q.cond q.time = (y, .none)) ∧
    (∃ (t k : _) (s : State) (e : Dev) (x : ChainSt) (q : QEvent) (y : _), e = s.dev.at t ∧ k < 16 ∧ x = e.chain k ∧ x.before = none ∧ e.nI
      Ix.trgChainStages k ≠ 0 ∧ e.chainHeld k = false ∧ nextEvent (e.nI Ix.trgChainOrder k) e.time96 x.queue = some q ∧ e.nI Ix.trgCondType q.cond ≠
      0x10 ∧ chainStep (e.chainCfg k) { x with queue := x.queue.erase q } q.cond q.time = (y, .held)) ∧
    (∃ (t k : _) (s : State) (e : Dev) (x : ChainSt) (q : QEvent) (y : _), e = s.dev.at t ∧ k < 16 ∧ x = e.chain k ∧ x.before = none ∧ e.nI
      Ix.trgChainStages k ≠ 0 ∧ e.chainHeld k = false ∧ nextEvent (e.nI Ix.trgChainOrder k) e.time96 x.queue = some q ∧ e.nI Ix.trgCondType q.cond ≠
      0x10 ∧ chainStep (e.chainCfg k) { x with queue := x.queue.erase q } q.cond q.time = (y, .fire) ∧ (∀ j < 256, e.nW Ix.trgMagChain j ≠ k) ∧ 255 <
      e.nI Ix.trgChainBcast k ∧ e.n0 Ix.ctrSnapChain ≠ k ∧ e.n0 Ix.ctrFreezeSrc ≠ 1) ∧
    (∃ (t n : _) (s : State) (e : Dev) (p : _) (r : List Nat), e = s.dev.at t ∧ n < 4 ∧ (e.trg.touts.get {} n).pulses = p :: r ∧ p ≤ e.time96 ∧ e.nI
      Ix.trgToutSrc n ≠ 0xFF) ∧
    (∃ (t c : _) (s : State) (e : Dev), e = s.dev.at t ∧ c < 64 ∧ e.sup.emergencies.length < 32) ∧
    (∃ (t i : _) (s : State) (e : Dev) (w : _), e = s.dev.at t ∧ w = (e.within 50000).1 ∧ i < 5 ∧ e.sup.emergencies.length < 32) :=
  ⟨⟨0, 5, at0 (dv [(Ix.trgChainStages, 6, 0, 1), (Ix.trgStageSet, 21, 0, 8), (Ix.trgStageMode, 21, 0, 2), (Ix.trgStageN, 21, 0, 2)]
      { up with trg := { up.trg with chains := [(5, { queue := [⟨3, 9000, 100, false⟩] })] }, now := 2 ^ 40, tb := { up.tb with running := true } }),
      _, ({ queue := [⟨3, 9000, 100, false⟩] } : ChainSt), (⟨3, 9000, 100, false⟩ : QEvent), (chainStep (((at0 (dv [(Ix.trgChainStages, 6, 0, 1),
      (Ix.trgStageSet, 21, 0, 8), (Ix.trgStageMode, 21, 0, 2), (Ix.trgStageN, 21, 0, 2)]
      { up with trg := { up.trg with chains := [(5, { queue := [⟨3, 9000, 100, false⟩] })] }, now := 2 ^ 40, tb := { up.tb with running := true } })).dev.at
      0).chainCfg 5)
      { ((at0 (dv [(Ix.trgChainStages, 6, 0, 1), (Ix.trgStageSet, 21, 0, 8), (Ix.trgStageMode, 21, 0, 2), (Ix.trgStageN, 21, 0, 2)] { up with trg := { up.trg with chains := [(5, { queue := [⟨3, 9000, 100, false⟩] })] }, now := 2 ^ 40, tb := { up.tb with running := true } })).dev.at 0).chain 5 with queue := [] }
      3 9000).1, rfl, by decide +kernel⟩,
    ⟨0, 5, at0 (dv [(Ix.trgChainStages, 6, 0, 1), (Ix.trgStageSet, 21, 0, 8)]
      { up with trg := { up.trg with chains := [(5, { queue := [⟨3, 9000, 100, false⟩], holdUntil := 10000 })] }, now := 2 ^ 40, tb := { up.tb with running := true } }),
      _, ({ queue := [⟨3, 9000, 100, false⟩], holdUntil := 10000 } : ChainSt), (⟨3, 9000, 100, false⟩ : QEvent), (chainStep (((at0 (dv
      [(Ix.trgChainStages, 6, 0, 1), (Ix.trgStageSet, 21, 0, 8)]
      { up with trg := { up.trg with chains := [(5, { queue := [⟨3, 9000, 100, false⟩], holdUntil := 10000 })] }, now := 2 ^ 40, tb := { up.tb with running := true } })).dev.at
      0).chainCfg 5)
      { ((at0 (dv [(Ix.trgChainStages, 6, 0, 1), (Ix.trgStageSet, 21, 0, 8)] { up with trg := { up.trg with chains := [(5, { queue := [⟨3, 9000, 100, false⟩], holdUntil := 10000 })] }, now := 2 ^ 40, tb := { up.tb with running := true } })).dev.at 0).chain 5 with queue := [] }
      3 9000).1, rfl, by decide +kernel⟩,
    ⟨0, 5, at0 (dv [(Ix.trgChainStages, 6, 0, 1), (Ix.trgStageSet, 21, 0, 8), (Ix.trgChainBcast, 6, 0, 256), (Ix.ctrSnapChain, 0, 0, 0),
      (Ix.ctrFreezeSrc, 0, 0, 0)]
      { up with trg := { up.trg with chains := [(5, { queue := [⟨3, 9000, 100, false⟩] })] }, now := 2 ^ 40, tb := { up.tb with running := true } }),
      _, ({ queue := [⟨3, 9000, 100, false⟩] } : ChainSt), (⟨3, 9000, 100, false⟩ : QEvent), (chainStep (((at0 (dv [(Ix.trgChainStages, 6, 0, 1),
      (Ix.trgStageSet, 21, 0, 8), (Ix.trgChainBcast, 6, 0, 256), (Ix.ctrSnapChain, 0, 0, 0), (Ix.ctrFreezeSrc, 0, 0, 0)]
      { up with trg := { up.trg with chains := [(5, { queue := [⟨3, 9000, 100, false⟩] })] }, now := 2 ^ 40, tb := { up.tb with running := true } })).dev.at
      0).chainCfg 5)
      { ((at0 (dv [(Ix.trgChainStages, 6, 0, 1), (Ix.trgStageSet, 21, 0, 8), (Ix.trgChainBcast, 6, 0, 256), (Ix.ctrSnapChain, 0, 0, 0), (Ix.ctrFreezeSrc, 0, 0, 0)] { up with trg := { up.trg with chains := [(5, { queue := [⟨3, 9000, 100, false⟩] })] }, now := 2 ^ 40, tb := { up.tb with running := true } })).dev.at 0).chain 5 with queue := [] }
      3 9000).1, rfl, by decide +kernel⟩,
    ⟨0, 1, at0 (dv [(Ix.trgToutSrc, 2, 0, 3), (Ix.trgToutWidth, 2, 0, 100)]
      { up with trg := { up.trg with touts := [(1, { pulses := [5, 9] })] }, now := 2 ^ 40, tb := { up.tb with running := true } }), _, 5, ([9] : List
      Nat), rfl, by decide +kernel⟩,
    ⟨0, 3, at0 (dv [(Ix.trgStageSet, 21, 0, 8), (Ix.trgChainStages, 6, 0, 1)] up), _, rfl, by decide +kernel⟩,
    ⟨0, 2, at0 (dv [(Ix.trgMaskState, 33, 0, 1)] up), _, _, rfl, rfl, by decide +kernel⟩⟩

/-- Every clause of `Obligations.MagazineCommandsAndTakes` has a state and operands that meet its hypotheses together. -/
theorem test_meets_MagazineCommandsAndTakes :
    (∃ (t path : _) (s : State) (e : Dev) (m k b : _), e = s.dev.at t ∧ k = e.nW Ix.trgMagSel path ∧ m = e.setMag k
      { e.mag k with inSlot := e.nW Ix.trgMagHistory k == 1, ahead := if (e.mag k).takes.isEmpty then e.chainSamples k else (e.mag k).ahead } ∧ b =
      e.trgBoundary (e.time96 + 1) ∧ (∃ e', m.magMemory k = some e') ∧ e.reaches path Ix.trgMagCmd ∧ e.inRushes = false ∧ m.armRefusal k = none) ∧
    (∃ (t path : _) (s : State) (e : Dev) (k : _), e = s.dev.at t ∧ k = e.nW Ix.trgMagSel path ∧ e.reaches path Ix.trgMagCmd ∧ 1 ≤ path ∧ path ≤ 4 ∧
      e.magState k ≠ 1) ∧
    (∃ (t path : _) (s : State) (e : Dev) (k : _), e = s.dev.at t ∧ k = e.nW Ix.trgMagSel path ∧ e.reaches path Ix.trgMagCmd ∧ (e.magState k = 2 ∨
      e.magState k = 4) ∧ (e.mag k).open_ = none) ∧
    (∃ (t path : _) (s : State) (e : Dev) (k : _) (tk : Take), e = s.dev.at t ∧ k = e.nW Ix.trgMagSel path ∧ e.reaches path Ix.trgMagCmd ∧ e.magState
      k = 3 ∧ (e.mag k).open_ = some tk ∧ e.trgBoundary (e.time96 + 1) < e.takeLast k tk) ∧
    (∃ (t path : _) (s : State) (e : Dev) (k : _), e = s.dev.at t ∧ k = e.nW Ix.trgMagSel path ∧ e.reaches path Ix.trgMagCmd ∧ (e.magState k = 1 ∨
      e.magState k = 4)) ∧
    (∃ (t path : _) (s : State) (e : Dev) (k : _), e = s.dev.at t ∧ k = e.nW Ix.trgMagSel path ∧ e.reaches path Ix.trgMagCmd ∧ 1 ≤ path ∧ path ≤ 4 ∧
      (e.magState k = 0 ∨ e.magState k = 2 ∨ e.magState k = 3)) ∧
    (∃ (t k : _) (s : State) (e : Dev), e = s.dev.at t ∧ k < 256 ∧ e.magState k = 5) ∧
    (∃ (t path : _) (s : State) (e : Dev) (k x b : _), e = s.dev.at t ∧ k = e.nW Ix.trgMagSel path ∧ x = e.mag k ∧ b = e.trgBoundary (e.time96 + 1) ∧
      e.reaches path Ix.trgMagCmd ∧ e.magState k = 2 ∧ x.open_ = none ∧ x.armed = true ∧ x.armAt ≤ b ∧ (∀ l, x.lastEnd = some l → l + ns 64 ≤ b) ∧
      x.takes.length < e.magK k) ∧
    (∃ (t path : _) (s : State) (e : Dev) (k : _), e = s.dev.at t ∧ k = e.nW Ix.trgMagSel path ∧ e.reaches path Ix.trgMagCmd ∧ 1 ≤ path ∧ path ≤ 4 ∧
      e.magState k ≠ 2 ∧ (e.mag k).open_ = none) ∧
    (∃ (t path : _) (s : State) (e : Dev) (k : _), e = s.dev.at t ∧ k = e.nW Ix.trgMagSel path ∧ e.reaches path Ix.trgMagCmd ∧ (e.magState k = 1 ∨
      e.magState k = 4)) ∧
    (∃ (t k take : _) (s : State) (e : Dev) (tk : Take) (img : _) (lg : Rec × List Rec × Bool), e = s.dev.at t ∧ img =
      { e.takeImage k tk with slate := lg.1, trailer := lg.2.1 } ∧ k < 256 ∧ e.inRushes = false ∧ (e.mag k).disarm = false ∧ (e.mag k).takes.find?
      (fun x => x.index == take && !x.complete && x.logged.isSome) = some tk ∧ tk.logged = some lg ∧ e.magBusy k 3 = false ∧ e.takeLen k tk ≤
      e.takeHeld k tk ∧ e.nW Ix.trgMagRing k ≠ noRing ∧ e.ringTakes (e.nW Ix.trgMagRing k) = true) ∧
    (∃ (t k take : _) (s : State) (e : Dev) (tk : Take), e = s.dev.at t ∧ k < 256 ∧ (e.mag k).takes.find? (fun x => x.index == take && !x.complete &&
      x.logged.isSome) = some tk ∧ e.magBusy k 3 = true) ∧
    (∃ (t k : _) (s : State) (e : Dev), e = s.dev.at t ∧ k < 256 ∧ (e.mag k).armed = true) :=
  ⟨⟨0, 1, at0 (dv [(Ix.trgMagSel, 0, 1, 5), (Ix.trgMagSize, 0, 5, 1), (Ix.trgMagChan, 1, 5, 16), (Ix.itkFs, 1, 0, 1000000000), (Ix.modService, 0, 0,
      3), (Ix.trgMagFormat, 0, 5, 2), (Ix.trgMagPre, 0, 5, 4), (Ix.trgMagPost, 0, 5, 4), (Ix.trgHistoryFree, 0, 0, 1000000000), (Ix.trgMagState, 0, 5,
      1)]
      { up with cap := { up.cap with allocs := [{ kind := 2, num := 5, first := 0, stripes := 1, map := 1, length := 4096 }, { kind := 3, num := 5, first := 4, stripes := 1, map := 1, length := 16384 }] } }),
      _, _, _, _, rfl, rfl, rfl, rfl, Option.isSome_iff_exists.mp (by decide +kernel), (by delta Dev.reaches; decide +kernel)⟩,
    ⟨0, 1, at0 (dv [(Ix.trgMagSel, 0, 1, 5), (Ix.trgMagSize, 0, 5, 1), (Ix.trgMagChan, 1, 5, 16), (Ix.itkFs, 1, 0, 1000000000), (Ix.modService, 0, 0,
      3), (Ix.trgMagFormat, 0, 5, 2), (Ix.trgMagPre, 0, 5, 4), (Ix.trgMagPost, 0, 5, 4), (Ix.trgHistoryFree, 0, 0, 1000000000), (Ix.trgMagState, 0, 5,
      2)]
      { up with cap := { up.cap with allocs := [{ kind := 2, num := 5, first := 0, stripes := 1, map := 1, length := 4096 }, { kind := 3, num := 5, first := 4, stripes := 1, map := 1, length := 16384 }] } }),
      _, _, rfl, rfl, (by delta Dev.reaches; decide +kernel)⟩,
    ⟨0, 1, at0 (dv [(Ix.trgMagSel, 0, 1, 5), (Ix.trgMagSize, 0, 5, 1), (Ix.trgMagChan, 1, 5, 16), (Ix.itkFs, 1, 0, 1000000000), (Ix.modService, 0, 0,
      3), (Ix.trgMagFormat, 0, 5, 2), (Ix.trgMagPre, 0, 5, 4), (Ix.trgMagPost, 0, 5, 4), (Ix.trgHistoryFree, 0, 0, 1000000000), (Ix.trgMagState, 0, 5,
      2)]
      { up with cap := { up.cap with allocs := [{ kind := 2, num := 5, first := 0, stripes := 1, map := 1, length := 4096 }, { kind := 3, num := 5, first := 4, stripes := 1, map := 1, length := 16384 }] } }),
      _, _, rfl, rfl, (by delta Dev.reaches; decide +kernel)⟩,
    ⟨0, 1, at0 (dv [(Ix.trgMagSel, 0, 1, 5), (Ix.trgMagSize, 0, 5, 1), (Ix.trgMagChan, 1, 5, 16), (Ix.itkFs, 1, 0, 1000000000), (Ix.modService, 0, 0,
      3), (Ix.trgMagFormat, 0, 5, 2), (Ix.trgMagPre, 0, 5, 4), (Ix.trgMagPost, 0, 5, 4), (Ix.trgHistoryFree, 0, 0, 1000000000), (Ix.trgMagState, 0, 5,
      3), (Ix.tbIslFreq, 4, 0, 1600000)]
      { up with cap := { up.cap with allocs := [{ kind := 2, num := 5, first := 0, stripes := 1, map := 1, length := 4096 }, { kind := 3, num := 5, first := 4, stripes := 1, map := 1, length := 16384 }] }, trg := { up.trg with mags := [(5, { open_ := some { index := 0, seq := 0, chain := 1, cond := 2, forced := false, time := 0, trig := 1000000, start := 0, pre := 4, valid := 4, post := 200000 } })] }, itk := { up.itk with links := [(0, { checked := true, anchor := some 1000 })] } }),
      _, _,
      ({ index := 0, seq := 0, chain := 1, cond := 2, forced := false, time := 0, trig := 1000000, start := 0, pre := 4, valid := 4, post := 200000 }
      : Take), rfl, rfl, (by delta Dev.reaches; decide +kernel)⟩,
    ⟨0, 1, at0 (dv [(Ix.trgMagSel, 0, 1, 5), (Ix.trgMagSize, 0, 5, 1), (Ix.trgMagChan, 1, 5, 16), (Ix.itkFs, 1, 0, 1000000000), (Ix.modService, 0, 0,
      3), (Ix.trgMagFormat, 0, 5, 2), (Ix.trgMagPre, 0, 5, 4), (Ix.trgMagPost, 0, 5, 4), (Ix.trgHistoryFree, 0, 0, 1000000000), (Ix.trgMagState, 0, 5,
      1)]
      { up with cap := { up.cap with allocs := [{ kind := 2, num := 5, first := 0, stripes := 1, map := 1, length := 4096 }, { kind := 3, num := 5, first := 4, stripes := 1, map := 1, length := 16384 }] } }),
      _, _, rfl, rfl, (by delta Dev.reaches; decide +kernel)⟩,
    ⟨0, 1, at0 (dv [(Ix.trgMagSel, 0, 1, 5), (Ix.trgMagSize, 0, 5, 1), (Ix.trgMagChan, 1, 5, 16), (Ix.itkFs, 1, 0, 1000000000), (Ix.modService, 0, 0,
      3), (Ix.trgMagFormat, 0, 5, 2), (Ix.trgMagPre, 0, 5, 4), (Ix.trgMagPost, 0, 5, 4), (Ix.trgHistoryFree, 0, 0, 1000000000), (Ix.trgMagState, 0, 5,
      0)]
      { up with cap := { up.cap with allocs := [{ kind := 2, num := 5, first := 0, stripes := 1, map := 1, length := 4096 }, { kind := 3, num := 5, first := 4, stripes := 1, map := 1, length := 16384 }] } }),
      _, _, rfl, rfl, (by delta Dev.reaches; decide +kernel)⟩,
    ⟨0, 5, at0 (dv [(Ix.trgMagSel, 0, 1, 5), (Ix.trgMagSize, 0, 5, 1), (Ix.trgMagChan, 1, 5, 16), (Ix.itkFs, 1, 0, 1000000000), (Ix.modService, 0, 0,
      3), (Ix.trgMagFormat, 0, 5, 2), (Ix.trgMagPre, 0, 5, 4), (Ix.trgMagPost, 0, 5, 4), (Ix.trgHistoryFree, 0, 0, 1000000000), (Ix.trgMagState, 0, 5,
      5)]
      { up with cap := { up.cap with allocs := [{ kind := 2, num := 5, first := 0, stripes := 1, map := 1, length := 4096 }, { kind := 3, num := 5, first := 4, stripes := 1, map := 1, length := 16384 }] } }),
      _, rfl, by decide +kernel⟩,
    ⟨0, 1, at0 (dv [(Ix.trgMagSel, 0, 1, 5), (Ix.trgMagSize, 0, 5, 1), (Ix.trgMagChan, 1, 5, 16), (Ix.itkFs, 1, 0, 1000000000), (Ix.modService, 0, 0,
      3), (Ix.trgMagFormat, 0, 5, 2), (Ix.trgMagPre, 0, 5, 4), (Ix.trgMagPost, 0, 5, 4), (Ix.trgHistoryFree, 0, 0, 1000000000), (Ix.trgMagState, 0, 5,
      2)]
      { up with cap := { up.cap with allocs := [{ kind := 2, num := 5, first := 0, stripes := 1, map := 1, length := 4096 }, { kind := 3, num := 5, first := 4, stripes := 1, map := 1, length := 16384 }] }, trg := { up.trg with mags := [(5, { armed := true })] } }),
      _, _, _, _, rfl, rfl, rfl, rfl, (by delta Dev.reaches; decide +kernel)⟩,
    ⟨0, 1, at0 (dv [(Ix.trgMagSel, 0, 1, 5), (Ix.trgMagSize, 0, 5, 1), (Ix.trgMagChan, 1, 5, 16), (Ix.itkFs, 1, 0, 1000000000), (Ix.modService, 0, 0,
      3), (Ix.trgMagFormat, 0, 5, 2), (Ix.trgMagPre, 0, 5, 4), (Ix.trgMagPost, 0, 5, 4), (Ix.trgHistoryFree, 0, 0, 1000000000), (Ix.trgMagState, 0, 5,
      1)]
      { up with cap := { up.cap with allocs := [{ kind := 2, num := 5, first := 0, stripes := 1, map := 1, length := 4096 }, { kind := 3, num := 5, first := 4, stripes := 1, map := 1, length := 16384 }] } }),
      _, _, rfl, rfl, (by delta Dev.reaches; decide +kernel)⟩,
    ⟨0, 1, at0 (dv [(Ix.trgMagSel, 0, 1, 5), (Ix.trgMagSize, 0, 5, 1), (Ix.trgMagChan, 1, 5, 16), (Ix.itkFs, 1, 0, 1000000000), (Ix.modService, 0, 0,
      3), (Ix.trgMagFormat, 0, 5, 2), (Ix.trgMagPre, 0, 5, 4), (Ix.trgMagPost, 0, 5, 4), (Ix.trgHistoryFree, 0, 0, 1000000000), (Ix.trgMagState, 0, 5,
      4)]
      { up with cap := { up.cap with allocs := [{ kind := 2, num := 5, first := 0, stripes := 1, map := 1, length := 4096 }, { kind := 3, num := 5, first := 4, stripes := 1, map := 1, length := 16384 }] } }),
      _, _, rfl, rfl, (by delta Dev.reaches; decide +kernel)⟩,
    ⟨0, 5, 0, at0 (dv [(Ix.trgMagSel, 0, 1, 5), (Ix.trgMagSize, 0, 5, 1), (Ix.trgMagChan, 1, 5, 16), (Ix.itkFs, 1, 0, 1000000000), (Ix.modService, 0,
      0, 3), (Ix.trgMagFormat, 0, 5, 2), (Ix.trgMagPre, 0, 5, 4), (Ix.trgMagPost, 0, 5, 4), (Ix.trgHistoryFree, 0, 0, 1000000000), (Ix.trgMagState, 0,
      5, 2), (Ix.trgMagRing, 0, 5, 7), (Ix.strRingState, 0, 7, 1)]
      { up with cap := { up.cap with allocs := [{ kind := 2, num := 5, first := 0, stripes := 1, map := 1, length := 4096 }, { kind := 3, num := 5, first := 4, stripes := 1, map := 1, length := 16384 }] }, trg := { up.trg with mags := [(5, { armed := true, at_ := 5000, takes := [{ index := 0, seq := 0, chain := 1, cond := 2, forced := false, time := 0, trig := 1000, start := 0, pre := 4, valid := 4, post := 2, logged := some (({ slots := [(0x0800, 5)], payload := [] } : Rec), [], false) }] })] } }),
      _,
      ({ index := 0, seq := 0, chain := 1, cond := 2, forced := false, time := 0, trig := 1000, start := 0, pre := 4, valid := 4, post := 2, logged := some (({ slots := [(0x0800, 5)], payload := [] } : Rec), [], false) }
      : Take), _, ((({ slots := [(0x0800, 5)], payload := [] } : Rec), [], false) : Rec × List Rec × Bool), rfl, rfl, by decide +kernel⟩,
    ⟨0, 5, 0, at0 (dv [(Ix.trgMagSel, 0, 1, 5), (Ix.trgMagSize, 0, 5, 1), (Ix.trgMagChan, 1, 5, 16), (Ix.itkFs, 1, 0, 1000000000), (Ix.modService, 0,
      0, 3), (Ix.trgMagFormat, 0, 5, 2), (Ix.trgMagPre, 0, 5, 4), (Ix.trgMagPost, 0, 5, 4), (Ix.trgHistoryFree, 0, 0, 1000000000), (Ix.trgMagState, 0,
      5, 2), (Ix.trgMagRing, 0, 5, 7), (Ix.strRingState, 0, 7, 1)]
      { up with cap := { up.cap with allocs := [{ kind := 2, num := 5, first := 0, stripes := 1, map := 1, length := 4096 }, { kind := 3, num := 5, first := 4, stripes := 1, map := 1, length := 16384 }], hod := [(50331653, { fill := [⟨.log 5 0, 0, 1, 0, [1]⟩] })] }, trg := { up.trg with mags := [(5, { armed := true, at_ := 5000, takes := [{ index := 0, seq := 0, chain := 1, cond := 2, forced := false, time := 0, trig := 1000, start := 0, pre := 4, valid := 4, post := 2, logged := some (({ slots := [(0x0800, 5)], payload := [] } : Rec), [], false) }] })] } }),
      _,
      ({ index := 0, seq := 0, chain := 1, cond := 2, forced := false, time := 0, trig := 1000, start := 0, pre := 4, valid := 4, post := 2, logged := some (({ slots := [(0x0800, 5)], payload := [] } : Rec), [], false) }
      : Take), rfl, by decide +kernel⟩,
    ⟨0, 5, at0 (dv [(Ix.trgMagSel, 0, 1, 5), (Ix.trgMagSize, 0, 5, 1), (Ix.trgMagChan, 1, 5, 16), (Ix.itkFs, 1, 0, 1000000000), (Ix.modService, 0, 0,
      3), (Ix.trgMagFormat, 0, 5, 2), (Ix.trgMagPre, 0, 5, 4), (Ix.trgMagPost, 0, 5, 4), (Ix.trgHistoryFree, 0, 0, 1000000000), (Ix.trgMagState, 0, 5,
      2)]
      { up with cap := { up.cap with allocs := [{ kind := 2, num := 5, first := 0, stripes := 1, map := 1, length := 4096 }, { kind := 3, num := 5, first := 4, stripes := 1, map := 1, length := 16384 }] }, trg := { up.trg with mags := [(5, { armed := true })] } }),
      _, rfl, by decide +kernel⟩⟩

/-- Every clause of `Obligations.PlanesSettleAndAreExported` has a state and operands that meet its hypotheses together. -/
theorem test_meets_PlanesSettleAndAreExported :
    (∃ (t p : _) (s : State) (e : Dev) (x st b : _), e = s.dev.at t ∧ x = e.plane p ∧ b = planeAfter st (e.nI Ix.denPeriod p) ∧ p < 4 ∧ x.before =
      none ∧ x.start = some st ∧ e.planeReady p b = true) ∧
    (∃ (t p : _) (s : State) (e : Dev), e = s.dev.at t ∧ p < 4 ∧ e.sup.emergencies.length < 32) ∧
    (∃ (t p : _) (s : State) (e : Dev), e = s.dev.at t ∧ p < 4 ∧ e.nI Ix.denState p ≠ 0 ∧ e.sup.emergencies.length < 32) ∧
    (∃ (t p : _) (s : State) (e : Dev), e = s.dev.at t ∧ p < 4 ∧ e.nI Ix.denState p = 0 ∧ e.sup.emergencies.length < 32) ∧
    (∃ (t p : _) (s : State) (e : Dev) (x pay : _), e = s.dev.at t ∧ x = e.plane p ∧ pay = planePayload x.settled (x.setting.getD 0 0 * x.setting.getD
      1 0) 1 (if x.setting.getD 11 0 = 0 then x.closed.getD 8 0 else x.setting.getD 11 0) ∧ p < 4 ∧ x.exportDue = true ∧ x.setting.getD 10 0 = 1 ∧
      e.nI Ix.denRing p ≠ noRing ∧ e.ringTakes (e.nI Ix.denRing p) = true) ∧
    (∃ (t p : _) (s : State) (e : Dev) (x : _), e = s.dev.at t ∧ x = e.plane p ∧ p < 4 ∧ x.exportDue = true ∧ x.setting.getD 10 0 = 1 ∧ e.nI
      Ix.denRing p = noRing) ∧
    (∃ (t p : _) (s : State) (e : Dev) (x : _), e = s.dev.at t ∧ x = e.plane p ∧ p < 4 ∧ x.exportDue = true ∧ x.setting.getD 10 0 ≠ 1 ∧ e.nI
      Ix.denVpLayer p < 3 ∧ e.handleEntry (e.planeHandle p (1 - x.lastHandle)) = none ∧ e.sup.emergencies.length < 32) :=
  ⟨⟨0, 2, at0
      ({ up with den := { up.den with planes := [(2, { start := some 0, active := [(3, 9)], counted := 5 })] }, now := 2 ^ 70, tb := { up.tb with running := true } }),
      _, _, 0, _, rfl, rfl, rfl, by decide +kernel⟩,
    ⟨0, 3, at0 (up), _, rfl, by decide +kernel⟩,
    ⟨0, 3, at0 (dv [(Ix.denState, 4, 0, 1)] up), _, rfl, by decide +kernel⟩,
    ⟨0, 3, at0 (dv [(Ix.denState, 4, 0, 0)] up), _, rfl, by decide +kernel⟩,
    ⟨0, 2, at0 (dv [(Ix.denRing, 3, 0, 7), (Ix.strRingState, 0, 7, 1)]
      { up with den := { up.den with planes := [(2, { exportDue := true, setting := [2, 2, 0, 0, 0, 0, 0, 0, 0, 0, 1, 7, 0], settled := [(1, 3)], closed := [100] })] } }),
      _, _, _, rfl, rfl, rfl, by decide +kernel⟩,
    ⟨0, 2, at0 (dv [(Ix.denRing, 3, 0, 4294967295)]
      { up with den := { up.den with planes := [(2, { exportDue := true, setting := [2, 2, 0, 0, 0, 0, 0, 0, 0, 0, 1, 7, 0], settled := [(1, 3)], closed := [100] })] } }),
      _, _, rfl, rfl, by decide +kernel⟩,
    ⟨0, 2, at0 (dv [(Ix.denVpLayer, 3, 0, 1)]
      { up with den := { up.den with planes := [(2, { exportDue := true, setting := [2, 2, 0, 0, 0, 0, 0, 0, 0, 0, 2, 7, 0], settled := [(1, 3)], closed := [100] })] } }),
      _, _, rfl, rfl, by decide +kernel⟩⟩

/-- Every clause of `Obligations.DisplayLinkAndFrames` has a state and operands that meet its hypotheses together. -/
theorem test_meets_DisplayLinkAndFrames :
    (∃ (t : _) (s : State) (e : Dev), e = s.dev.at t ∧ e.vp.plugged = false ∧ e.n0 Ix.vpEnable = 0 ∧ e.wakesNothing 4) ∧
    (∃ (t rate lanes khz ht vt : _) (s : State) (e : Dev) (f : _), e = s.dev.at t ∧ f =
      { e with vp := { e.vp with sinkRate := rate, sinkLanes := lanes } } ∧ (∃ c, f.pickLink (e.timing (rowNear khz ht vt)).1 10 = some c) ∧
      e.vp.plugged = false ∧ e.n0 Ix.vpEnable = 1 ∧ e.n0 Ix.vpMode = 0 ∧ e.wakesNothing 4 ∧ rowNear khz ht vt ≠ 0 ∧ e.n0 Ix.vpBpc = 10) ∧
    (∃ (t low : _) (s : State) (e : Dev), e = s.dev.at t ∧ e.vp.plugged = true ∧ 250 ≤ low ∧ low ≤ 2000 ∧ e.n0 Ix.vpLinkState ≠ 2) ∧
    (∃ (t low : _) (s : State) (e : Dev), e = s.dev.at t ∧ e.vp.plugged = true ∧ 250 ≤ low ∧ low ≤ 2000 ∧ e.n0 Ix.vpEnable ≠ 0 ∧ e.pickMode = 0 ∧
      e.sup.emergencies.length < 32) ∧
    (∃ (t : _) (s : State) (e : Dev), e = s.dev.at t ∧ e.vp.plugged = true) ∧
    (∃ (t : _) (s : State) (e : Dev) (mode rate lanes bpc : _), e = s.dev.at t ∧ e.vp.attempt = some (mode, rate, lanes, bpc)) ∧
    (∃ (t : _) (s : State) (e : Dev) (mode rate lanes : _), e = s.dev.at t ∧ e.vp.attempt = some (mode, rate, lanes, 6) ∧ e.sup.emergencies.length <
      32) ∧
    (∃ (t path : _) (s : State) (e : Dev), e = s.dev.at t ∧ e.reaches path Ix.vpEnable ∧ e.n0 Ix.vpEnable = 0 ∧ e.vp.plugged = false) ∧
    (∃ (t path : _) (s : State) (e : Dev), e = s.dev.at t ∧ e.reaches path Ix.vpEnable ∧ e.n0 Ix.vpEnable = 1) ∧
    (∃ (t path v : _) (s : State) (e : Dev), e = s.dev.at t ∧ e.reaches path Ix.vpEnable ∧ 1 ≤ path ∧ path ≤ 4 ∧ 1 < v) ∧
    (∃ (t : _) (s : State) (e : Dev), e = s.dev.at t ∧ e.n0 Ix.vpEnable = 1 ∧ e.vp.latched = true ∧ e.vp.composerUntil ≤ e.now) ∧
    (∃ (t r g b : _) (s : State) (e : Dev), e = s.dev.at t ∧ e.vp.formed = some [r, g, b] ∧ r < 2 ^ 16 ∧ g < 2 ^ 16 ∧ b < 2 ^ 16) ∧
    (∃ (t r g b : _) (l : List Nat) (s : State) (e : Dev), e = s.dev.at t ∧ e.vp.formed = some l ∧ l ≠ [r % 2 ^ 16, g % 2 ^ 16, b % 2 ^ 16] ∧ e.n0
      Ix.vpReadbackAction ≠ 1 ∧ e.sup.emergencies.length < 32) ∧
    (∃ (t : _) (s : State) (e : Dev), e = s.dev.at t ∧ e.vp.formed = none) ∧
    (∃ (t layer : _) (s : State) (e : Dev), e = s.dev.at t ∧ layer < 4 ∧ e.n0 Ix.vpEnable = 1 ∧ e.vp.latched = false ∧ e.vp.committed = [] ∧
      e.vp.underrunRaised = none ∧ e.sup.emergencies.length < 32) ∧
    (∃ (t : _) (s : State) (e : Dev), e = s.dev.at t ∧ e.n0 Ix.vpEnable = 0 ∧ e.sup.emergencies.length < 32) ∧
    (∃ (t : _) (s : State) (e : Dev), e = s.dev.at t ∧ e.n0 Ix.vpEnable = 1 ∧ e.vp.latched = false ∧ e.vp.committed = [] ∧ e.sup.emergencies.length <
      31) ∧
    (∃ (t : _) (s : State) (e : Dev), e = s.dev.at t) :=
  ⟨⟨0, at0 (dv [(Ix.vpEnable, 0, 0, 0)] { up with vp := { up.vp with plugged := false } }), _, rfl, (by delta Dev.wakesNothing; decide +kernel)⟩,
    ⟨0, 4, 4, (modeTiming 5).1, (modeTiming 5).2.2.2.1, (modeTiming 5).2.2.2.2, at0 (dv [(Ix.vpBpc, 0, 0, 10), (Ix.vpEnable, 0, 0, 1), (Ix.vpMode, 0,
      0, 0)] { up with vp := { up.vp with plugged := false } }), _, _, rfl, rfl, Option.isSome_iff_exists.mp (by decide +kernel), (by
      delta Dev.wakesNothing; decide +kernel)⟩,
    ⟨0, 250, at0 (dv [(Ix.vpLinkState, 0, 0, 0)] { up with vp := { up.vp with plugged := true } }), _, rfl, by decide +kernel⟩,
    ⟨0, 250, at0 (dv [(Ix.vpEnable, 0, 0, 1)] { up with vp := { up.vp with plugged := true } }), _, rfl, by decide +kernel⟩,
    ⟨0, at0 ({ up with vp := { up.vp with plugged := true } }), _, rfl, by decide +kernel⟩,
    ⟨0, at0 ({ up with vp := { up.vp with attempt := some (1, 1, 1, 1) } }), _, 1, 1, 1, 1, rfl, by decide +kernel⟩,
    ⟨0, at0 ({ up with vp := { up.vp with attempt := some (1, 1, 1, 6) } }), _, 1, 1, 1, rfl, by decide +kernel⟩,
    ⟨0, 1, at0 (dv [(Ix.vpEnable, 0, 0, 0)] { up with vp := { up.vp with plugged := false } }), _, rfl, (by delta Dev.reaches; decide +kernel)⟩,
    ⟨0, 1, at0 (dv [(Ix.vpEnable, 0, 0, 1)] up), _, rfl, (by delta Dev.reaches; decide +kernel)⟩,
    ⟨0, 1, 2, at0 (up), _, rfl, (by delta Dev.reaches; decide +kernel)⟩,
    ⟨0, at0 (dv [(Ix.vpEnable, 0, 0, 1)] { up with now := 2 ^ 60, vp := { up.vp with latched := true } }), _, rfl, by decide +kernel⟩,
    ⟨0, 1, 2, 3, at0 ({ up with vp := { up.vp with formed := some [1, 2, 3] } }), _, rfl, by decide +kernel⟩,
    ⟨0, 1, 2, 3, ([1, 2, 4] : List Nat), at0 (dv [(Ix.vpReadbackAction, 0, 0, 0)] { up with vp := { up.vp with formed := some [1, 2, 4] } }), _, rfl,
      by decide +kernel⟩,
    ⟨0, at0 ({ up with vp := { up.vp with formed := none } }), _, rfl, by decide +kernel⟩,
    ⟨0, 3, at0 (dv [(Ix.vpEnable, 0, 0, 1)] { up with vp := { up.vp with latched := false, committed := [], underrunRaised := none } }), _, rfl,
      by decide +kernel⟩,
    ⟨0, at0 (dv [(Ix.vpEnable, 0, 0, 0)] up), _, rfl, by decide +kernel⟩,
    ⟨0, at0 (dv [(Ix.vpEnable, 0, 0, 1)] { up with vp := { up.vp with latched := false, committed := [] } }), _, rfl, by decide +kernel⟩,
    ⟨0, at0 (up), _, rfl⟩⟩

/-- Every clause of `Obligations.ViewportHandlesCommitsAndRolls` has a state and operands that meet its hypotheses together. -/
theorem test_meets_ViewportHandlesCommitsAndRolls :
    (∃ (t path : _) (s : State) (e : Dev) (w h f n stride size off g : _), e = s.dev.at t ∧ w = e.n0 Ix.vpAllocWidth ∧ h = e.n0 Ix.vpAllocHeight ∧ f =
      e.n0 Ix.vpAllocFormat ∧ off = poolFit size 0 e.poolMap ∧ g = (e.vp.generations.get 0 n + 1) % 65536 ∧ e.reaches path Ix.vpAllocCmd ∧ 1 ≤ w ∧ w ≤
      4096 ∧ 1 ≤ h ∧ h ≤ 4096 ∧ 1 ≤ f ∧ f ≤ 4 ∧ (List.range 64).find? (fun x => (e.vp.handles.find? x).isNone) = some n ∧ stride = ceilDiv (w * f) 256
      * 256 ∧ size = ceilDiv (stride * h) 4096 * 4096 ∧ off + size ≤ e.poolBytes) ∧
    (∃ (t path : _) (s : State) (e : Dev) (n : _), e = s.dev.at t ∧ e.reaches path Ix.vpAllocCmd ∧ e.handleEntry (e.n0 Ix.vpAllocHandle) = some n ∧ n
      ∉ e.vp.freeing) ∧
    (∃ (t path : _) (s : State) (e : Dev), e = s.dev.at t ∧ e.reaches path Ix.vpAllocCmd ∧ 1 ≤ path ∧ path ≤ 4 ∧ e.handleEntry (e.n0 Ix.vpAllocHandle)
      = none) ∧
    (∃ (t path : _) (s : State) (e : Dev) (i : _), e = s.dev.at t ∧ i = e.nW Ix.vpCursorIndex path ∧ e.reaches path Ix.vpCursorPixel ∧ i < 16384) ∧
    (∃ (t path map : _) (s : State) (e : Dev), e = s.dev.at t ∧ e.reaches path Ix.vpCommit ∧ map < 64 ∧ (∀ l < 3, bitOf map l = true → (stagedValue
      e.vp.staged Ix.vpRoll (l + 1) 0).getD (e.rd Ix.vpRoll (l + 1) 0) = 0)) ∧
    (∃ (t : _) (s : State) (e : Dev) (tm : _), e = s.dev.at t ∧ tm = e.timing e.vp.modeNow ∧ e.n0 Ix.vpEnable = 1 ∧ e.vp.latched = false ∧
      e.vp.suspended = false ∧ e.vp.committed = []) ∧
    (∃ (t : _) (s : State) (e : Dev) (p : _) (w : SWrite), e = s.dev.at t ∧ e.n0 Ix.vpEnable = 1 ∧ e.vp.latched = false ∧ e.vp.suspended = false ∧ p <
      4 ∧ e.vp.committed = [(p, [w])] ∧ w.ix ∉ Ix.vpFrame :: Ix.vpCommitSeq :: Ix.vpCommitFrame :: (handlePlaces ++ eventPlaces)) ∧
    (∃ (t k l : _) (s : State) (e : Dev) (x r n : _) (h : HandleSt) (f : _), e = s.dev.at t ∧ x = e.layer k ∧ r = e.vp.rolls.get {} l ∧ k < 16 ∧ l < 3
      ∧ e.nI Ix.speLayerSrc k ≠ 0 ∧ x.trace.first = some f ∧ (f / e.traceLen k + 1) * e.traceLen k ≤ x.next.getD 0 ∧ e.traceConv k x.trace = [] ∧ e.nI
      Ix.vpRoll l ≠ 0 ∧ e.nI Ix.vpRollSrc l = k ∧ (∀ j < 3, j ≠ l → e.nI Ix.vpRoll j = 0) ∧ (r.traces + 1) % max (e.nI Ix.vpRollEvery l) 1 = 0 ∧
      e.handleEntry (e.nI Ix.vpLayerHandle l) = some n ∧ e.vp.handles.find? n = some h ∧ 1 ≤ h.format ∧ h.format ≤ 4) ∧
    (∃ (t l : _) (s : State) (e : Dev) (x : _) (it : HodItem) (len : _) (r : List HodBlock) (line num off : _) (a : Alloc), e = s.dev.at t ∧ x =
      e.hodStream (7 * 2 ^ 24 + l) ∧ l < 3 ∧ x.full = ⟨[it], len⟩ :: r ∧ len ≠ 0 ∧ it.dest = .line l line num off ∧ e.cap.stallUntil ≤ e.now ∧
      e.cap.asleep = false ∧ e.portOpen 4 = true ∧ e.cap.training = none ∧ e.n0 Ix.capState ≠ 4 ∧ (e.handleEntry (e.nI Ix.vpLayerHandle l)).isSome =
      true ∧ e.allocOf 0x10 0 = some a) :=
  ⟨⟨0, 1, at0 (dv [(Ix.vpAllocWidth, 0, 0, 64), (Ix.vpAllocHeight, 0, 0, 32), (Ix.vpAllocFormat, 0, 0, 4)] up), _, _, _, _, 0, 256, 8192, _, _, rfl,
      rfl, rfl, rfl, rfl, rfl, (by delta Dev.reaches; decide +kernel)⟩,
    ⟨0, 1, at0 (dv [(Ix.vpAllocHandle, 0, 0, 131075)]
      { up with vp := { up.vp with handles := [(3, ⟨0, 8192, 64, 32, 4, 256, 0⟩)], generations := [(3, 2)] } }), _, 3, rfl, (by
      delta Dev.reaches; decide +kernel)⟩,
    ⟨0, 1, at0 (up), _, rfl, (by delta Dev.reaches; decide +kernel)⟩,
    ⟨0, 1, at0 (up), _, _, rfl, rfl, (by delta Dev.reaches; decide +kernel)⟩,
    ⟨0, 1, 5, at0 ({ up with vp := { up.vp with staged := [⟨Ix.vpLayerX, 1, 0, 5⟩, ⟨Ix.vpLayerX, 2, 0, 6⟩] } }), _, rfl, (by
      delta Dev.reaches; decide +kernel)⟩,
    ⟨0, at0 (dv [(Ix.vpEnable, 0, 0, 1)] { up with vp := { up.vp with latched := false, suspended := false, committed := [] } }), _, _, rfl, rfl,
      by decide +kernel⟩,
    ⟨0, at0 (dv [(Ix.vpEnable, 0, 0, 1)]
      { up with vp := { up.vp with committed := [(0, [(⟨Ix.vpLayerX, 1, 0, 5⟩ : SWrite)])], latched := false, suspended := false } }), _, 0,
      (⟨Ix.vpLayerX, 1, 0, 5⟩ : SWrite), rfl, by decide +kernel⟩,
    ⟨0, 2, 1, at0 (dv [(Ix.chnSrc, 3, 0, 16), (Ix.itkFs, 1, 0, 1000000000000), (Ix.itkMode, 1, 0, 3), (Ix.chnState, 3, 0, 2), (Ix.chnDepth, 3, 0, 0),
      (Ix.itkLinkState, 1, 0, 5), (Ix.speLayerSrc, 3, 0, 34), (Ix.speLayerLen, 3, 0, 4), (Ix.speDetCount, 3, 0, 8), (Ix.speHopShift, 3, 0, 0),
      (Ix.vpLayerHandle, 2, 0, 131075), (Ix.vpRoll, 2, 0, 1), (Ix.vpRollEvery, 2, 0, 1), (Ix.vpRollSrc, 2, 0, 2), (Ix.capChannels, 0, 0, 255),
      (Ix.capState, 0, 0, 2), (Ix.modService, 0, 0, 3)]
      { up with chn := { up.chn with ddcs := [(2, {})], output := [(2, { asked := [(8, { i := 100, q := 5 }), (9, { i := 1000, q := -3 }), (10, { i := 10, q := 50 }), (11, { i := 10, q := 50 })] })] }, itk := { up.itk with links := [(0, { checked := true, anchor := some 1000 })] }, spe := { up.spe with layers := [(2, { next := some 16, trace := { first := some 2, frames := 2, format := 2, ring := 4294967295, points := [5, 6] } })] }, vp := { up.vp with handles := [(3, ⟨0, 8192, 64, 32, 4, 256, 0⟩)], generations := [(3, 2)] }, cap := { up.cap with allocs := [{ kind := 0x10, num := 0, first := 0, stripes := 1, map := 255, length := 32768 }] } }),
      _, _, _, 3, (⟨0, 8192, 64, 32, 4, 256, 0⟩ : HandleSt), 2, rfl, rfl, rfl, by decide +kernel⟩,
    ⟨0, 1, at0 (dv [(Ix.vpLayerHandle, 2, 0, 131075), (Ix.vpRoll, 2, 0, 1), (Ix.vpRollEvery, 2, 0, 1), (Ix.vpRollSrc, 2, 0, 2), (Ix.capChannels, 0, 0,
      255), (Ix.capState, 0, 0, 2), (Ix.modService, 0, 0, 3)]
      { up with vp := { up.vp with handles := [(3, ⟨0, 8192, 64, 32, 4, 256, 0⟩)], generations := [(3, 2)] }, cap := { up.cap with allocs := [{ kind := 0x10, num := 0, first := 0, stripes := 1, map := 255, length := 32768 }], hod := [(117440513, { full := [⟨[⟨.line 1 5 5 1280, 0, 1, 5, [1, 2, 3]⟩], 3⟩] })], asleep := false, training := none }, now := 2 ^ 60 }),
      _, _, (⟨.line 1 5 5 1280, 0, 1, 5, [1, 2, 3]⟩ : HodItem), 3, ([] : List HodBlock), 5, 5, 1280,
      ({ kind := 0x10, num := 0, first := 0, stripes := 1, map := 255, length := 32768 } : Alloc), rfl, rfl, by decide +kernel⟩⟩

/-- Every clause of `Obligations.HodBufferAndStalls` has a state and operands that meet its hypotheses together. -/
theorem test_meets_HodBufferAndStalls :
    (∃ (t stream : _) (s : State) (e : Dev) (x : _) (p : Nat × Rec) (rest : List (Nat × Rec)), e = s.dev.at t ∧ x = e.hodStream stream ∧ (stream / 2 ^
      24 = 5 ∨ stream / 2 ^ 24 = 9) ∧ takeBound stream e.out.outbox = some (p, rest) ∧ recBytes p.2 ≠ [] ∧ x.discarding = false ∧ x.needs (recBytes
      p.2).length ≤ e.hodCapacity - e.hodBlocks) ∧
    (∃ (t stream : _) (s : State) (e : Dev) (x : _) (it : HodItem) (rest : List (Nat × HodItem)), e = s.dev.at t ∧ x = e.hodStream stream ∧ (stream /
      2 ^ 24 = 4 ∨ stream / 2 ^ 24 = 6 ∨ stream / 2 ^ 24 = 7) ∧ takeBound stream e.out.outbox = none ∧ takeAsked stream e.cap.asked = some (it, rest)
      ∧ it.bytes ≠ [] ∧ x.discarding = false ∧ x.needs it.bytes.length ≤ e.hodCapacity - e.hodBlocks) ∧
    (∃ (t cs : _) (s : State) (e : Dev) (x c sm p : _), e = s.dev.at t ∧ x = e.hodStream (2 ^ 24 + cs) ∧ c = e.csSt cs ∧ sm = sourceOf c.src ∧ p =
      storeSample c.fmt (e.takenAt sm (c.n0 + c.next)) ∧ cs < 2 ^ 24 ∧ c.src ≠ 0 ∧ c.stop = none ∧ c.mode ≠ 1 ∧ e.sampleKnown sm (c.n0 + c.next) =
      true ∧ c.next % 2 ^ 20 ≠ 0 ∧ c.gapRun = none ∧ c.settleRun = none ∧ c.flagRuns = [] ∧ p.1 ≠ [] ∧ p.2.2.2 = 0 ∧ x.discarding = false ∧ x.needs
      p.1.length ≤ e.hodCapacity - e.hodBlocks) ∧
    (∃ (t k : _) (s : State) (e : Dev) (x y n l offs : _), e = s.dev.at t ∧ x = e.hodStream (2 * 2 ^ 24 + k) ∧ y = e.mag k ∧ (l = (e.magChans k).map
      (fun c => storeSample (e.nW Ix.trgMagFormat k) (e.takenAt (sourceOf c) n))) ∧ offs = e.posOffs k n none ∧ k < 2 ^ 24 ∧ y.open_ = none ∧
      e.magNext k = some (n, none) ∧ e.inRushes = false ∧ (∀ c ∈ e.magChans k, e.sampleKnown (sourceOf c) n = true) ∧ offs ≠ [] ∧ (l.map
      (·.1)).flatten ≠ [] ∧ x.discarding = false ∧ x.needs (l.map (·.1)).flatten.length ≤ e.hodCapacity - e.hodBlocks) ∧
    (∃ (t k : _) (s : State) (e : Dev) (y : _) (tk : Take) (img : _), e = s.dev.at t ∧ y = e.mag k ∧ img = e.takeImage k tk ∧ k < 2 ^ 24 ∧ y.open_ =
      none ∧ (y.takes.find? (fun x => !x.complete && x.logged.isNone) = some tk) ∧ tk.stop ≤ max y.at_ (tk.trig - tk.valid) ∧ e.magBusy k 2 = false) ∧
    (∃ (t stream : _) (s : State) (e : Dev) (x : _) (p : Nat × Rec) (rest : List (Nat × Rec)), e = s.dev.at t ∧ x = e.hodStream stream ∧ (stream / 2 ^
      24 = 5 ∨ stream / 2 ^ 24 = 9) ∧ takeBound stream e.out.outbox = some (p, rest) ∧ recBytes p.2 ≠ [] ∧ x.discarding = false ∧ x.fillLen = 0 ∧
      e.hodCapacity ≤ e.hodBlocks ∧ e.sup.emergencies.length < 32) ∧
    (∃ (t stream : _) (s : State) (e : Dev) (x : _) (p : Nat × Rec) (rest : List (Nat × Rec)), e = s.dev.at t ∧ x = e.hodStream stream ∧ (stream / 2 ^
      24 = 5 ∨ stream / 2 ^ 24 = 9) ∧ takeBound stream e.out.outbox = some (p, rest) ∧ recBytes p.2 ≠ [] ∧ x.discarding = true ∧ x.resuming = false) ∧
    (∃ (t stream : _) (s : State) (e : Dev) (x : _) (it : HodItem) (len : _) (l : List HodBlock) (ring : _) (r : Rec), e = s.dev.at t ∧ x =
      e.hodStream stream ∧ 1 ≤ stream / 2 ^ 24 ∧ stream / 2 ^ 24 ≤ 9 ∧ x.full = ⟨[it], len⟩ :: l ∧ len ≠ 0 ∧ it.dest = .record ring r ∧
      e.cap.stallUntil ≤ e.now ∧ e.cap.asleep = false ∧ e.portOpen (e.streamPort stream) = true ∧ e.cap.training = none) ∧
    (∃ (t cs : _) (s : State) (e : Dev) (x : _) (it : HodItem) (len : _) (l : List HodBlock) (j : _) (a : Alloc) (c o : _), e = s.dev.at t ∧ x =
      e.hodStream (2 ^ 24 + cs) ∧ c = e.csSt cs ∧ o = j * formatBytes c.fmt ∧ cs < 2 ^ 24 ∧ x.full = ⟨[it], len⟩ :: l ∧ len ≠ 0 ∧ it.dest = .stream cs
      j ∧ e.cap.stallUntil ≤ e.now ∧ e.cap.asleep = false ∧ e.portOpen (e.streamPort (2 ^ 24 + cs)) = true ∧ e.cap.training = none ∧ e.n0 Ix.capState
      ≠ 4 ∧ e.allocOf 1 cs = some a ∧ a.length ≠ 0 ∧ c.mode ≠ 1) ∧
    (∃ (t stream : _) (s : State) (e : Dev) (x : _) (b : HodBlock) (l : List HodBlock) (c u : _), e = s.dev.at t ∧ x = e.hodStream stream ∧ 1 ≤ stream
      / 2 ^ 24 ∧ stream / 2 ^ 24 ≤ 9 ∧ e.cap.stallUntil ≤ e.now ∧ e.cap.asleep = false ∧ e.portOpen (e.streamPort stream) = true ∧ x.full = b :: l ∧
      e.cap.training = some (c, u) ∧ (∃ it ∈ b.items, e.itemChannel it = some c)) ∧
    (∃ (t stream : _) (s : State) (e : Dev) (x : _), e = s.dev.at t ∧ x = e.hodStream stream ∧ (stream / 2 ^ 24 = 5 ∨ stream / 2 ^ 24 = 9) ∧
      x.discarding = true ∧ e.hodBlocks + 64 ≤ e.hodCapacity ∧ x.boundary e.now = true) ∧
    (∃ (t cs : _) (s : State) (e : Dev) (x : _), e = s.dev.at t ∧ x = e.hodStream (2 ^ 24 + cs) ∧ cs < 2 ^ 24 ∧ x.discarding = true ∧ e.hodBlocks + 64
      ≤ e.hodCapacity ∧ x.boundary e.now = true) ∧
    (∃ (t stream : _) (s : State) (e : Dev) (x : _), e = s.dev.at t ∧ x = e.hodStream stream ∧ 1 ≤ stream / 2 ^ 24 ∧ stream / 2 ^ 24 ≤ 9 ∧
      x.discarding = true ∧ e.hodBlocks + 64 ≤ e.hodCapacity ∧ x.boundary e.now = false) ∧
    (∃ (t chan : _) (s : State) (e : Dev) (w : Nat × Nat × Nat), e = s.dev.at t ∧ chan < 8 ∧ (e.cap.waiting.find? (fun w => w.1 == 1) = some w) ∧
      e.mayStall = true) ∧
    (∃ (t kind chan : _) (s : State) (e : Dev) (w : Nat × Nat × Nat), e = s.dev.at t ∧ chan < 8 ∧ w ∈ e.cap.waiting ∧ w.1 = kind ∧ w.2.1 = chan ∧
      e.mayStall = false) ∧
    (∃ (t chan rank : _) (s : State) (e : Dev) (u : _), e = s.dev.at t ∧ chan < 8 ∧ rank < 5 ∧ e.cap.training = some (chan, u) ∧ (∀ p ∈
      e.cap.deferred, p.1 ≠ chan)) :=
  ⟨⟨0, 150994951, at0 (dv [(Ix.modService, 0, 0, 3)]
      { up with cap := { up.cap with hod := [(150994951, { fillLen := 4090, fill := [] })] }, out := { up.out with outbox := [(7, ({ slots := [(0x1000, 5), (0, 6)], payload := [] } : Rec))] } }),
      _, _, ((7, ({ slots := [(0x1000, 5), (0, 6)], payload := [] } : Rec)) : Nat × Rec), ([] : List (Nat × Rec)), rfl, rfl, by decide +kernel⟩,
    ⟨0, 67108865, at0 (dv [(Ix.modService, 0, 0, 3)]
      { up with cap := { up.cap with hod := [(67108865, { fillLen := 4090 })], asked := [(67108865, (⟨.csLog 1, 5, 6, 0, [1, 2, 3]⟩ : HodItem))] } }),
      _, _, (⟨.csLog 1, 5, 6, 0, [1, 2, 3]⟩ : HodItem), ([] : List (Nat × HodItem)), rfl, rfl, by decide +kernel⟩,
    ⟨0, 1, at0 (dv [(Ix.modService, 0, 0, 3), (Ix.capChannels, 0, 0, 255), (Ix.capState, 0, 0, 2), (Ix.capCsState, 2, 0, 2), (Ix.itkFs, 1, 0,
      1000000000), (Ix.itkMode, 1, 0, 3), (Ix.itkLinkState, 1, 0, 5), (Ix.capCsSize, 2, 0, 1)]
      { up with cap := { up.cap with hod := [(16777217, { fillLen := 4090 })], streams := [(1, { src := 0x10, n0 := 1, next := 5, fmt := 2 })] }, itk := { up.itk with links := [(0, { checked := true, anchor := some 1000 })] }, chn := { up.chn with input := [(16, { asked := [(5, { i := 3, q := 4 }), (6, { i := 200, q := 0 })] })] } }),
      _, _, _, _, _, rfl, rfl, rfl, rfl, rfl, by decide +kernel⟩,
    ⟨0, 5, at0 (dv [(Ix.modService, 0, 0, 3), (Ix.trgMagSel, 0, 1, 5), (Ix.trgMagSize, 0, 5, 1), (Ix.trgMagChan, 1, 5, 16), (Ix.itkFs, 1, 0,
      1000000000), (Ix.trgMagFormat, 0, 5, 2), (Ix.trgMagPre, 0, 5, 4), (Ix.trgMagPost, 0, 5, 4), (Ix.trgHistoryFree, 0, 0, 1000000000),
      (Ix.trgMagState, 0, 5, 2), (Ix.tbIslFreq, 4, 0, 1600000), (Ix.itkMode, 1, 0, 3), (Ix.itkLinkState, 1, 0, 5), (Ix.trgMagHistory, 0, 5, 1),
      (Ix.capChannels, 0, 0, 255), (Ix.capState, 0, 0, 2)]
      { up with cap := { up.cap with hod := [(33554437, { fillLen := 4090 })], allocs := [{ kind := 2, num := 5, first := 0, stripes := 1, map := 1, length := 4096 }, { kind := 3, num := 5, first := 4, stripes := 1, map := 1, length := 16384 }] }, itk := { up.itk with links := [(0, { checked := true, anchor := some 1000 })] }, chn := { up.chn with input := [(16, { asked := [(5, { i := 3, q := 4 }), (6, { i := 200, q := 0 })] })] }, trg := { up.trg with mags := [(5, { armed := true, inSlot := true, slotStart := 5, at_ := 5, next := 0 })] } }),
      _, _, _, 5, _, _, rfl, rfl, rfl, rfl, rfl, by decide +kernel⟩,
    ⟨0, 5, at0 (dv [(Ix.modService, 0, 0, 3), (Ix.trgMagSel, 0, 1, 5), (Ix.trgMagSize, 0, 5, 1), (Ix.trgMagChan, 1, 5, 16), (Ix.itkFs, 1, 0,
      1000000000), (Ix.trgMagFormat, 0, 5, 2), (Ix.trgMagPre, 0, 5, 4), (Ix.trgMagPost, 0, 5, 4), (Ix.trgHistoryFree, 0, 0, 1000000000),
      (Ix.trgMagState, 0, 5, 2), (Ix.tbIslFreq, 4, 0, 1600000), (Ix.itkMode, 1, 0, 3), (Ix.itkLinkState, 1, 0, 5), (Ix.trgMagHistory, 0, 5, 1),
      (Ix.capChannels, 0, 0, 255), (Ix.capState, 0, 0, 2)]
      { up with cap := { up.cap with hod := [(50331653, {})], allocs := [{ kind := 2, num := 5, first := 0, stripes := 1, map := 1, length := 4096 }, { kind := 3, num := 5, first := 4, stripes := 1, map := 1, length := 16384 }] }, trg := { up.trg with mags := [(5, { armed := true, at_ := 5000, takes := [{ index := 0, seq := 0, chain := 1, cond := 2, forced := false, time := 0, trig := 1000, start := 0, pre := 4, valid := 4, post := 2 }] })] } }),
      _, _, ({ index := 0, seq := 0, chain := 1, cond := 2, forced := false, time := 0, trig := 1000, start := 0, pre := 4, valid := 4, post := 2 } :
      Take), _, rfl, rfl, rfl, by decide +kernel⟩,
    ⟨0, 150994951, at0 (dv [(Ix.modService, 0, 0, 3)]
      { up with cap := { up.cap with hod := [(150994951, { full := List.replicate 4096 ⟨[], 1⟩ })] }, out := { up.out with outbox := [(7, ({ slots := [(0x1000, 5), (0, 6)], payload := [] } : Rec))] } }),
      _, _, ((7, ({ slots := [(0x1000, 5), (0, 6)], payload := [] } : Rec)) : Nat × Rec), ([] : List (Nat × Rec)), rfl, rfl, by decide +kernel⟩,
    ⟨0, 150994951, at0 (dv [(Ix.modService, 0, 0, 3)]
      { up with cap := { up.cap with hod := [(150994951, { discarding := true, lostUnits := 4 })] }, out := { up.out with outbox := [(7, ({ slots := [(0x1000, 5), (0, 6)], payload := [] } : Rec))] } }),
      _, _, ((7, ({ slots := [(0x1000, 5), (0, 6)], payload := [] } : Rec)) : Nat × Rec), ([] : List (Nat × Rec)), rfl, rfl, by decide +kernel⟩,
    ⟨0, 150994951, at0 (dv [(Ix.modService, 0, 0, 3), (Ix.capChannels, 0, 0, 255), (Ix.capState, 0, 0, 2)]
      { up with cap := { up.cap with hod := [(150994951, { full := [⟨[(⟨.record 7 ({ slots := [(0x1000, 5), (0, 6)], payload := [] } : Rec), 5, 6, 0, [1, 2, 3]⟩ : HodItem)], 3⟩] })], asleep := false, training := none }, now := 2 ^ 60 }),
      _, _, (⟨.record 7 ({ slots := [(0x1000, 5), (0, 6)], payload := [] } : Rec), 5, 6, 0, [1, 2, 3]⟩ : HodItem), 3, ([] : List HodBlock), 7,
      ({ slots := [(0x1000, 5), (0, 6)], payload := [] } : Rec), rfl, rfl, by decide +kernel⟩,
    ⟨0, 1, at0 (dv [(Ix.modService, 0, 0, 3), (Ix.capChannels, 0, 0, 255), (Ix.capState, 0, 0, 2), (Ix.capCsState, 2, 0, 2)]
      { up with cap := { up.cap with hod := [(16777217, { full := [⟨[(⟨.stream 1 5, 5, 6, 5, [1, 2, 3, 4]⟩ : HodItem)], 4⟩] })], allocs := [{ kind := 1, num := 1, first := 0, stripes := 1, map := 255, length := 32768 }, { kind := 4, num := 1, first := 1, stripes := 1, map := 255, length := 4096, mirrored := true }], streams := [(1, { src := 0x10, fmt := 2 })], asleep := false, training := none }, now := 2 ^ 60 }),
      _, _, (⟨.stream 1 5, 5, 6, 5, [1, 2, 3, 4]⟩ : HodItem), 4, ([] : List HodBlock), 5,
      ({ kind := 1, num := 1, first := 0, stripes := 1, map := 255, length := 32768 } : Alloc), _, _, rfl, rfl, rfl, rfl, by decide +kernel⟩,
    ⟨0, 16777217, at0 (dv [(Ix.modService, 0, 0, 3), (Ix.capChannels, 0, 0, 255), (Ix.capState, 0, 0, 2), (Ix.capCsState, 2, 0, 2)]
      { up with cap := { up.cap with hod := [(16777217, { full := [⟨[(⟨.stream 1 5, 5, 6, 5, [1, 2, 3, 4]⟩ : HodItem)], 4⟩] })], allocs := [{ kind := 1, num := 1, first := 0, stripes := 1, map := 255, length := 32768 }, { kind := 4, num := 1, first := 1, stripes := 1, map := 255, length := 4096, mirrored := true }], streams := [(1, { src := 0x10, fmt := 2 })], training := some (((((dv [(Ix.capChannels, 0, 0, 255)] { up with cap := { up.cap with allocs := [{ kind := 1, num := 1, first := 0, stripes := 1, map := 255, length := 32768 }, { kind := 4, num := 1, first := 1, stripes := 1, map := 255, length := 4096, mirrored := true }], streams := [(1, { src := 0x10, fmt := 2 })] } }).at 0).itemChannel (⟨.stream 1 5, 5, 6, 5, [1, 2, 3, 4]⟩ : HodItem)).getD 9), 0), asleep := false }, now := 2 ^ 60 }),
      _, _, (⟨[(⟨.stream 1 5, 5, 6, 5, [1, 2, 3, 4]⟩ : HodItem)], 4⟩ : HodBlock), ([] : List HodBlock), ((((at0 (dv [(Ix.modService, 0, 0, 3),
      (Ix.capChannels, 0, 0, 255), (Ix.capState, 0, 0, 2), (Ix.capCsState, 2, 0, 2)]
      { up with cap := { up.cap with hod := [(16777217, { full := [⟨[(⟨.stream 1 5, 5, 6, 5, [1, 2, 3, 4]⟩ : HodItem)], 4⟩] })], allocs := [{ kind := 1, num := 1, first := 0, stripes := 1, map := 255, length := 32768 }, { kind := 4, num := 1, first := 1, stripes := 1, map := 255, length := 4096, mirrored := true }], streams := [(1, { src := 0x10, fmt := 2 })], training := some (((((dv [(Ix.capChannels, 0, 0, 255)] { up with cap := { up.cap with allocs := [{ kind := 1, num := 1, first := 0, stripes := 1, map := 255, length := 32768 }, { kind := 4, num := 1, first := 1, stripes := 1, map := 255, length := 4096, mirrored := true }], streams := [(1, { src := 0x10, fmt := 2 })] } }).at 0).itemChannel (⟨.stream 1 5, 5, 6, 5, [1, 2, 3, 4]⟩ : HodItem)).getD 9), 0), asleep := false }, now := 2 ^ 60 })).dev.at
      0).itemChannel (⟨.stream 1 5, 5, 6, 5, [1, 2, 3, 4]⟩ : HodItem)).getD 9), 0, rfl, rfl, by decide +kernel⟩,
    ⟨0, 150994951, at0 (dv [(Ix.modService, 0, 0, 3)]
      { up with cap := { up.cap with hod := [(150994951, { discarding := true, lostUnits := 2, lostFrom := 3, lostTo := 9 })] } }), _, _, rfl, rfl,
      by decide +kernel⟩,
    ⟨0, 1, at0 (dv [(Ix.modService, 0, 0, 3), (Ix.capChannels, 0, 0, 255), (Ix.capState, 0, 0, 2), (Ix.capCsState, 2, 0, 2), (Ix.itkFs, 1, 0,
      1000000000), (Ix.itkMode, 1, 0, 3), (Ix.itkLinkState, 1, 0, 5), (Ix.capCsSize, 2, 0, 1)]
      { up with cap := { up.cap with hod := [(16777217, { discarding := true, lostBytes := 5, lostUnits := 2, lostIndex := 7 })] } }), _, _, rfl, rfl,
      by decide +kernel⟩,
    ⟨0, 150994951, at0 (dv [(Ix.modService, 0, 0, 3)]
      { up with cap := { up.cap with hod := [(150994951, { discarding := true, lostUnits := 2, fillLen := 5 })] }, now := 1000 }), _, _, rfl, rfl,
      by decide +kernel⟩,
    ⟨0, 2, at0 ({ up with cap := { up.cap with waiting := [(1, 2, 3200)] } }), _, ((1, 2, 3200) : Nat × Nat × Nat), rfl, by decide +kernel⟩,
    ⟨0, 1, 2, at0 ({ up with cap := { up.cap with waiting := [(1, 2, 3200)], stallUntil := 2 ^ 50 } }), _, ((1, 2, 3200) : Nat × Nat × Nat), rfl,
      by decide +kernel⟩,
    ⟨0, 2, 1, at0 ({ up with cap := { up.cap with training := some (2, 5) } }), _, 5, rfl, by decide +kernel⟩⟩

/-- Every clause of `Obligations.SchedulingRefreshAndRetraining` has a state and operands that meet its hypotheses together. -/
theorem test_meets_SchedulingRefreshAndRetraining :
    (∃ (t : _) (s : State) (e : Dev) (k : _), e = s.dev.at t ∧ k = e.now * 1000000 / two48) ∧
    (∃ (t chan sub : _) (s : State) (e : Dev) (r : _) (l : List Nat), e = s.dev.at t ∧ chan < 8 ∧ sub < 2 ∧ e.inService chan = true ∧ e.cap.stallUntil
      ≤ e.now ∧ (e.sub chan sub).refreshes = r :: l) ∧
    (∃ (t chan sub : _) (s : State) (e : Dev) (n : Nat × Nat) (l : List (Nat × Nat)), e = s.dev.at t ∧ chan < 8 ∧ sub < 2 ∧ e.inService chan = true ∧
      e.cap.stallUntil ≤ e.now ∧ (e.sub chan sub).refreshes = [] ∧ (e.sub chan sub).neighbours = n :: l) ∧
    (∃ (t chan sub : _) (s : State) (e : Dev) (r : MemReq), e = s.dev.at t ∧ chan < 8 ∧ sub < 2 ∧ e.inService chan = true ∧ e.cap.stallUntil ≤ e.now ∧
      (e.sub chan sub).refreshes = [] ∧ (e.sub chan sub).neighbours = [] ∧ e.pickReq (e.sub chan sub) = some r ∧ e.migration chan = none) ∧
    (∃ (t chan rank : _) (s : State) (e : Dev), e = s.dev.at t ∧ chan < 8 ∧ rank < 5 ∧ e.inService chan = true ∧ e.cap.refreshDue.get 0 (8 * chan +
      rank) ≤ e.now) ∧
    (∃ (t chan field : _) (temp : Nat) (s : State) (e : Dev), e = s.dev.at t ∧ chan < 8 ∧ e.inService chan = true ∧ temp ≤ 85 ∧ bitOf (e.n0
      Ix.capRefreshX2) chan = false ∧ chan ∉ e.cap.over95 ∧ field < 256) ∧
    (∃ (t chan : _) (temp : Nat) (s : State) (e : Dev), e = s.dev.at t ∧ chan < 8 ∧ e.inService chan = true ∧ 95 < temp ∧ bitOf (e.n0 Ix.capRefreshX2)
      chan = false ∧ e.cap.hotRaised = none ∧ e.sup.emergencies.length < 32) ∧
    (∃ (t chan sub rank bank row : _) (s : State) (e : Dev) (k l : _), e = s.dev.at t ∧ k = bankKey chan sub rank bank ∧ l = activateRow row
      (e.cap.rows.get [] k) ∧ chan < 8 ∧ sub < 2 ∧ rank < 5 ∧ bank < 32 ∧ row < 16384 ∧ e.inService chan = true ∧ (∀ p ∈ l, p.1 = row → p.2 < e.n0
      Ix.capRdThreshold)) ∧
    (∃ (t chan sub rank bank row : _) (s : State) (e : Dev) (k l : _), e = s.dev.at t ∧ k = bankKey chan sub rank bank ∧ l = activateRow row
      (e.cap.rows.get [] k) ∧ chan < 8 ∧ sub < 2 ∧ rank < 5 ∧ bank < 32 ∧ row < 16384 ∧ e.inService chan = true ∧ (∃ p ∈ l, p.1 = row ∧ e.n0
      Ix.capRdThreshold ≤ p.2)) ∧
    (∃ (t chan sub rank bank row : _) (s : State) (e : Dev) (k : _), e = s.dev.at t ∧ k = bankKey chan sub rank bank ∧ chan < 8 ∧ sub < 2 ∧ rank < 5 ∧
      bank < 32 ∧ row < 16384 ∧ (k, row) ∈ (e.sub chan sub).neighbours) ∧
    (∃ (t : _) (s : State) (e : Dev), e = s.dev.at t ∧ e.cap.rowsCleared + ms 32 ≤ e.now) ∧
    (∃ (t chan : _) (s : State) (e : Dev), e = s.dev.at t ∧ chan < 8 ∧ e.inService chan = true ∧ chan ∉ e.cap.due ∧ e.cap.trained.get 0 chan + e.n0
      Ix.capRetrainS * sec ≤ e.now) ∧
    (∃ (t chan : _) (s : State) (e : Dev), e = s.dev.at t ∧ chan < 8 ∧ chan ∈ e.cap.due ∧ e.cap.training = none ∧ (∀ c ∈ e.cap.due, chan ≤ c) ∧
      e.migration chan = none ∧ e.mayStall = true ∧ e.sup.running = true) ∧
    (∃ (t chan : _) (s : State) (e : Dev), e = s.dev.at t ∧ chan < 8 ∧ chan ∈ e.cap.due ∧ e.cap.training = none ∧ (∀ c ∈ e.cap.due, chan ≤ c) ∧
      (e.mayStall = false ∨ e.sup.running = false)) :=
  ⟨⟨0, at0 (up), _, _, rfl, rfl⟩,
    ⟨0, 3, 1, at0 (dv [(Ix.capChannels, 0, 0, 255), (Ix.capState, 0, 0, 2), (Ix.modService, 0, 0, 3)]
      { up with cap := { up.cap with subs := [(7, { refreshes := [2, 3] })] }, now := 2 ^ 60 }), _, 2, ([3] : List Nat), rfl, by decide +kernel⟩,
    ⟨0, 3, 1, at0 (dv [(Ix.capChannels, 0, 0, 255), (Ix.capState, 0, 0, 2), (Ix.modService, 0, 0, 3)]
      { up with cap := { up.cap with subs := [(7, { neighbours := [(2, 3)] })] }, now := 2 ^ 60 }), _, ((2, 3) : Nat × Nat), ([] : List (Nat × Nat)),
      rfl, by decide +kernel⟩,
    ⟨0, 3, 1, at0 (dv [(Ix.capChannels, 0, 0, 255), (Ix.capState, 0, 0, 2), (Ix.modService, 0, 0, 3)]
      { up with cap := { up.cap with subs := [(7, { queue := [{ cls := 3, port := 2, addr := 0, rank := 1, bank := 4, row := 77, arrived := 0, urgent := 0 }] })] }, now := 2 ^ 60 }),
      _, ({ cls := 3, port := 2, addr := 0, rank := 1, bank := 4, row := 77, arrived := 0, urgent := 0 } : MemReq), rfl, by decide +kernel⟩,
    ⟨0, 3, 2, at0 (dv [(Ix.capChannels, 0, 0, 255), (Ix.capState, 0, 0, 2), (Ix.modService, 0, 0, 3)] up), _, rfl, by decide +kernel⟩,
    ⟨0, 3, 3, (40 : Nat), at0 (dv [(Ix.capChannels, 0, 0, 255), (Ix.capState, 0, 0, 2), (Ix.modService, 0, 0, 3)] up), _, rfl, by decide +kernel⟩,
    ⟨0, 3, (100 : Nat), at0 (dv [(Ix.capChannels, 0, 0, 255), (Ix.capState, 0, 0, 2), (Ix.modService, 0, 0, 3)]
      { up with cap := { up.cap with hotRaised := none } }), _, rfl, by decide +kernel⟩,
    ⟨0, 3, 1, 2, 5, 77, at0 (dv [(Ix.capChannels, 0, 0, 255), (Ix.capState, 0, 0, 2), (Ix.modService, 0, 0, 3)] up), _, _, _, rfl, rfl, rfl,
      by decide +kernel⟩,
    ⟨0, 3, 1, 2, 5, 77, at0 (dv [(Ix.capChannels, 0, 0, 255), (Ix.capState, 0, 0, 2), (Ix.modService, 0, 0, 3)]
      { up with cap := { up.cap with rows := [(bankKey 3 1 2 5, [(77, 2 ^ 40)])] } }), _, _, _, rfl, rfl, rfl, by decide +kernel⟩,
    ⟨0, 3, 1, 2, 5, 77, at0 (dv [(Ix.capChannels, 0, 0, 255), (Ix.capState, 0, 0, 2), (Ix.modService, 0, 0, 3)]
      { up with cap := { up.cap with subs := [(7, { neighbours := [(bankKey 3 1 2 5, 77)] })] } }), _, _, rfl, rfl, by decide +kernel⟩,
    ⟨0, at0 ({ up with now := 2 ^ 60 }), _, rfl, by decide +kernel⟩,
    ⟨0, 3, at0 (dv [(Ix.capChannels, 0, 0, 255), (Ix.capState, 0, 0, 2), (Ix.modService, 0, 0, 3)] { up with now := 2 ^ 70 }), _, rfl,
      by decide +kernel⟩,
    ⟨0, 3, at0 ({ up with cap := { up.cap with due := [3], training := none }, sup := { up.sup with running := true } }), _, rfl, by decide +kernel⟩,
    ⟨0, 3, at0 ({ up with cap := { up.cap with due := [3], stallUntil := 2 ^ 50, training := none } }), _, rfl, by decide +kernel⟩⟩

/-- Every clause of `Obligations.SparingScrubbingAndRetirement` has a state and operands that meet its hypotheses together. -/
theorem test_meets_SparingScrubbingAndRetirement :
    (∃ (t addr : _) (s : State) (e : Dev) (c r sp : _), e = s.dev.at t ∧ c = e.chanOf addr ∧ r = e.physRank c (addr / 2 ^ 21 % 4) ∧ addr < 2 ^ 37 ∧
      e.inService c = true ∧ e.migration c = none ∧ e.idleSpare c = some sp ∧ e.sup.emergencies.length < 32) ∧
    (∃ (t chan : _) (s : State) (e : Dev) (g : Migration), e = s.dev.at t ∧ chan < 8 ∧ e.migration chan = some g ∧ g.stalled = true) ∧
    (∃ (t chan : _) (s : State) (e : Dev) (g : Migration), e = s.dev.at t ∧ chan < 8 ∧ e.migration chan = some g ∧ g.stalled = false ∧ g.cause ≠ 2 ∧
      g.old ≠ g.spare ∧ e.sup.emergencies.length < 32) ∧
    (∃ (t chan : _) (s : State) (e : Dev) (g : Migration), e = s.dev.at t ∧ chan < 8 ∧ e.migration chan = some g ∧ g.stalled = false ∧ g.cause = 2 ∧
      e.mayStall = false) ∧
    (∃ (t chan rank : _) (s : State) (e : Dev) (sp : _), e = s.dev.at t ∧ chan < 8 ∧ rank < 5 ∧ e.n0 Ix.capCeLimit ≠ 0 ∧ e.n0 Ix.capCeLimit <
      (e.correctedNow chan rank).length ∧ e.inService chan = true ∧ (e.rankState chan rank = 0 ∨ e.rankState chan rank = 3) ∧ e.migration chan = none
      ∧ e.sup.running = true ∧ e.idleSpare chan = some sp) ∧
    (∃ (t chan rank : _) (s : State) (e : Dev), e = s.dev.at t ∧ chan < 8 ∧ rank < 5 ∧ e.inService chan = true) ∧
    (∃ (t chan rank : _) (s : State) (e : Dev), e = s.dev.at t ∧ chan < 8 ∧ rank < 5 ∧ e.inService chan = true ∧ e.rankState chan rank = 1 ∧
      e.sup.emergencies.length < 31) ∧
    (∃ (t chan rank : _) (s : State) (e : Dev) (u : _), e = s.dev.at t ∧ chan < 8 ∧ rank < 5 ∧ e.cap.training = some (chan, u) ∧ e.inService chan =
      true) ∧
    (∃ (t : _) (s : State) (e : Dev), e = s.dev.at t ∧ e.cap.retiring.isSome = true ∧ e.cap.stallBegan < e.now) :=
  ⟨⟨0, 70, at0 (dv [(Ix.capChannels, 0, 0, 255), (Ix.capState, 0, 0, 2), (Ix.modService, 0, 0, 3), (Ix.capRankState, 5, 0, 1), (Ix.capChanState, 1,
      0, 1), (Ix.capRankMap, 1, 0, 1672), (Ix.capRankState, 10, 0, 1), (Ix.capChanState, 2, 0, 1), (Ix.capRankMap, 2, 0, 1672), (Ix.capRankState, 15,
      0, 1), (Ix.capChanState, 3, 0, 1), (Ix.capRankMap, 3, 0, 1672), (Ix.capRankState, 20, 0, 1), (Ix.capChanState, 4, 0, 1), (Ix.capRankMap, 4, 0,
      1672), (Ix.capRankState, 25, 0, 1), (Ix.capChanState, 5, 0, 1), (Ix.capRankMap, 5, 0, 1672), (Ix.capRankState, 30, 0, 1), (Ix.capChanState, 6,
      0, 1), (Ix.capRankMap, 6, 0, 1672), (Ix.capRankState, 35, 0, 1), (Ix.capChanState, 7, 0, 1), (Ix.capRankMap, 7, 0, 1672), (Ix.capRankState, 40,
      0, 1), (Ix.capChanState, 8, 0, 1), (Ix.capRankMap, 8, 0, 1672)] up) [(64, 7#8), (4096 * 3, 5#8)], _, _, _, 4, rfl, rfl, rfl, by decide +kernel⟩,
    ⟨0, 2, at0 (dv [(Ix.capChannels, 0, 0, 255), (Ix.capState, 0, 0, 2), (Ix.modService, 0, 0, 3), (Ix.capRankState, 5, 0, 1), (Ix.capChanState, 1, 0,
      1), (Ix.capRankMap, 1, 0, 1672), (Ix.capRankState, 10, 0, 1), (Ix.capChanState, 2, 0, 1), (Ix.capRankMap, 2, 0, 1672), (Ix.capRankState, 15, 0,
      1), (Ix.capChanState, 3, 0, 1), (Ix.capRankMap, 3, 0, 1672), (Ix.capRankState, 20, 0, 1), (Ix.capChanState, 4, 0, 1), (Ix.capRankMap, 4, 0,
      1672), (Ix.capRankState, 25, 0, 1), (Ix.capChanState, 5, 0, 1), (Ix.capRankMap, 5, 0, 1672), (Ix.capRankState, 30, 0, 1), (Ix.capChanState, 6,
      0, 1), (Ix.capRankMap, 6, 0, 1672), (Ix.capRankState, 35, 0, 1), (Ix.capChanState, 7, 0, 1), (Ix.capRankMap, 7, 0, 1672), (Ix.capRankState, 40,
      0, 1), (Ix.capChanState, 8, 0, 1), (Ix.capRankMap, 8, 0, 1672)]
      { up with cap := { up.cap with migrations := [(2, { old := 1, spare := 4, cause := 1, stalled := true })] } }), _,
      ({ old := 1, spare := 4, cause := 1, stalled := true } : Migration), rfl, by decide +kernel⟩,
    ⟨0, 2, at0 (dv [(Ix.capChannels, 0, 0, 255), (Ix.capState, 0, 0, 2), (Ix.modService, 0, 0, 3), (Ix.capRankState, 5, 0, 1), (Ix.capChanState, 1, 0,
      1), (Ix.capRankMap, 1, 0, 1672), (Ix.capRankState, 10, 0, 1), (Ix.capChanState, 2, 0, 1), (Ix.capRankMap, 2, 0, 1672), (Ix.capRankState, 15, 0,
      1), (Ix.capChanState, 3, 0, 1), (Ix.capRankMap, 3, 0, 1672), (Ix.capRankState, 20, 0, 1), (Ix.capChanState, 4, 0, 1), (Ix.capRankMap, 4, 0,
      1672), (Ix.capRankState, 25, 0, 1), (Ix.capChanState, 5, 0, 1), (Ix.capRankMap, 5, 0, 1672), (Ix.capRankState, 30, 0, 1), (Ix.capChanState, 6,
      0, 1), (Ix.capRankMap, 6, 0, 1672), (Ix.capRankState, 35, 0, 1), (Ix.capChanState, 7, 0, 1), (Ix.capRankMap, 7, 0, 1672), (Ix.capRankState, 40,
      0, 1), (Ix.capChanState, 8, 0, 1), (Ix.capRankMap, 8, 0, 1672)]
      { up with cap := { up.cap with migrations := [(2, { old := 1, spare := 4, cause := 1, stalled := false })] } }), _,
      ({ old := 1, spare := 4, cause := 1, stalled := false } : Migration), rfl, by decide +kernel⟩,
    ⟨0, 2, at0 (dv [(Ix.capChannels, 0, 0, 255), (Ix.capState, 0, 0, 2), (Ix.modService, 0, 0, 3), (Ix.capRankState, 5, 0, 1), (Ix.capChanState, 1, 0,
      1), (Ix.capRankMap, 1, 0, 1672), (Ix.capRankState, 10, 0, 1), (Ix.capChanState, 2, 0, 1), (Ix.capRankMap, 2, 0, 1672), (Ix.capRankState, 15, 0,
      1), (Ix.capChanState, 3, 0, 1), (Ix.capRankMap, 3, 0, 1672), (Ix.capRankState, 20, 0, 1), (Ix.capChanState, 4, 0, 1), (Ix.capRankMap, 4, 0,
      1672), (Ix.capRankState, 25, 0, 1), (Ix.capChanState, 5, 0, 1), (Ix.capRankMap, 5, 0, 1672), (Ix.capRankState, 30, 0, 1), (Ix.capChanState, 6,
      0, 1), (Ix.capRankMap, 6, 0, 1672), (Ix.capRankState, 35, 0, 1), (Ix.capChanState, 7, 0, 1), (Ix.capRankMap, 7, 0, 1672), (Ix.capRankState, 40,
      0, 1), (Ix.capChanState, 8, 0, 1), (Ix.capRankMap, 8, 0, 1672)]
      { up with cap := { up.cap with migrations := [(2, { old := 1, spare := 4, cause := 2, stalled := false })], stallUntil := 2 ^ 50 } }), _,
      ({ old := 1, spare := 4, cause := 2, stalled := false } : Migration), rfl, by decide +kernel⟩,
    ⟨0, 2, 1, at0 (dv [(Ix.capChannels, 0, 0, 255), (Ix.capState, 0, 0, 2), (Ix.modService, 0, 0, 3), (Ix.capRankState, 5, 0, 1), (Ix.capChanState, 1,
      0, 1), (Ix.capRankMap, 1, 0, 1672), (Ix.capRankState, 10, 0, 1), (Ix.capChanState, 2, 0, 1), (Ix.capRankMap, 2, 0, 1672), (Ix.capRankState, 15,
      0, 1), (Ix.capChanState, 3, 0, 1), (Ix.capRankMap, 3, 0, 1672), (Ix.capRankState, 20, 0, 1), (Ix.capChanState, 4, 0, 1), (Ix.capRankMap, 4, 0,
      1672), (Ix.capRankState, 25, 0, 1), (Ix.capChanState, 5, 0, 1), (Ix.capRankMap, 5, 0, 1672), (Ix.capRankState, 30, 0, 1), (Ix.capChanState, 6,
      0, 1), (Ix.capRankMap, 6, 0, 1672), (Ix.capRankState, 35, 0, 1), (Ix.capChanState, 7, 0, 1), (Ix.capRankMap, 7, 0, 1672), (Ix.capRankState, 40,
      0, 1), (Ix.capChanState, 8, 0, 1), (Ix.capRankMap, 8, 0, 1672), (Ix.capCeLimit, 0, 0, 1)]
      { up with cap := { up.cap with corrected := [(17, [0, 0, 0])] }, sup := { up.sup with running := true } }), _, 4, rfl, by decide +kernel⟩,
    ⟨0, 2, 1, at0 (dv [(Ix.capChannels, 0, 0, 255), (Ix.capState, 0, 0, 2), (Ix.modService, 0, 0, 3), (Ix.capRankState, 5, 0, 1), (Ix.capChanState, 1,
      0, 1), (Ix.capRankMap, 1, 0, 1672), (Ix.capRankState, 10, 0, 1), (Ix.capChanState, 2, 0, 1), (Ix.capRankMap, 2, 0, 1672), (Ix.capRankState, 15,
      0, 1), (Ix.capChanState, 3, 0, 1), (Ix.capRankMap, 3, 0, 1672), (Ix.capRankState, 20, 0, 1), (Ix.capChanState, 4, 0, 1), (Ix.capRankMap, 4, 0,
      1672), (Ix.capRankState, 25, 0, 1), (Ix.capChanState, 5, 0, 1), (Ix.capRankMap, 5, 0, 1672), (Ix.capRankState, 30, 0, 1), (Ix.capChanState, 6,
      0, 1), (Ix.capRankMap, 6, 0, 1672), (Ix.capRankState, 35, 0, 1), (Ix.capChanState, 7, 0, 1), (Ix.capRankMap, 7, 0, 1672), (Ix.capRankState, 40,
      0, 1), (Ix.capChanState, 8, 0, 1), (Ix.capRankMap, 8, 0, 1672)] up), _, rfl, by decide +kernel⟩,
    ⟨0, 2, 4, at0 (dv [(Ix.capChannels, 0, 0, 255), (Ix.capState, 0, 0, 2), (Ix.modService, 0, 0, 3), (Ix.capRankState, 5, 0, 1), (Ix.capChanState, 1,
      0, 1), (Ix.capRankMap, 1, 0, 1672), (Ix.capRankState, 10, 0, 1), (Ix.capChanState, 2, 0, 1), (Ix.capRankMap, 2, 0, 1672), (Ix.capRankState, 15,
      0, 1), (Ix.capChanState, 3, 0, 1), (Ix.capRankMap, 3, 0, 1672), (Ix.capRankState, 20, 0, 1), (Ix.capChanState, 4, 0, 1), (Ix.capRankMap, 4, 0,
      1672), (Ix.capRankState, 25, 0, 1), (Ix.capChanState, 5, 0, 1), (Ix.capRankMap, 5, 0, 1672), (Ix.capRankState, 30, 0, 1), (Ix.capChanState, 6,
      0, 1), (Ix.capRankMap, 6, 0, 1672), (Ix.capRankState, 35, 0, 1), (Ix.capChanState, 7, 0, 1), (Ix.capRankMap, 7, 0, 1672), (Ix.capRankState, 40,
      0, 1), (Ix.capChanState, 8, 0, 1), (Ix.capRankMap, 8, 0, 1672)] up) [(64, 7#8), (4096 * 3, 5#8)], _, rfl, by decide +kernel⟩,
    ⟨0, 3, 1, at0 (dv [(Ix.capChannels, 0, 0, 255), (Ix.capState, 0, 0, 2), (Ix.modService, 0, 0, 3), (Ix.capRankState, 5, 0, 1), (Ix.capChanState, 1,
      0, 1), (Ix.capRankMap, 1, 0, 1672), (Ix.capRankState, 10, 0, 1), (Ix.capChanState, 2, 0, 1), (Ix.capRankMap, 2, 0, 1672), (Ix.capRankState, 15,
      0, 1), (Ix.capChanState, 3, 0, 1), (Ix.capRankMap, 3, 0, 1672), (Ix.capRankState, 20, 0, 1), (Ix.capChanState, 4, 0, 1), (Ix.capRankMap, 4, 0,
      1672), (Ix.capRankState, 25, 0, 1), (Ix.capChanState, 5, 0, 1), (Ix.capRankMap, 5, 0, 1672), (Ix.capRankState, 30, 0, 1), (Ix.capChanState, 6,
      0, 1), (Ix.capRankMap, 6, 0, 1672), (Ix.capRankState, 35, 0, 1), (Ix.capChanState, 7, 0, 1), (Ix.capRankMap, 7, 0, 1672), (Ix.capRankState, 40,
      0, 1), (Ix.capChanState, 8, 0, 1), (Ix.capRankMap, 8, 0, 1672)] { up with cap := { up.cap with training := some (3, 0) } }) [(64, 7#8), (4096 *
      3, 5#8)], _, 0, rfl, by decide +kernel⟩,
    ⟨0, at0 ({ up with cap := { up.cap with retiring := some 2 }, now := 2 ^ 40 }), _, rfl, by decide +kernel⟩⟩

/-- Every clause of `Obligations.CaptureStreamsAndSleep` has a state and operands that meet its hypotheses together. -/
theorem test_meets_CaptureStreamsAndSleep :
    (∃ (t path cs : _) (s : State) (e : Dev) (e' a n : _), e = s.dev.at t ∧ a = sourceOf (e.nI Ix.capCsSrc cs) ∧ n = e'.sampleAfter a (tickAt
      (e.time96 + 1)) ∧ cs < 4 ∧ e.reaches path Ix.capCsCmd ∧ e.fullService = true ∧ e.nI Ix.capCsState cs = 1 ∧ e.csMemory cs = some e') ∧
    (∃ (t path cs : _) (s : State) (e : Dev), e = s.dev.at t ∧ cs < 4 ∧ e.reaches path Ix.capCsCmd ∧ 1 ≤ path ∧ path ≤ 4 ∧ e.fullService = true ∧ e.nI
      Ix.capCsState cs = 1 ∧ e.csMemory cs = none) ∧
    (∃ (t path cs : _) (s : State) (e : Dev), e = s.dev.at t ∧ cs < 4 ∧ e.reaches path Ix.capCsCmd ∧ e.fullService = true ∧ e.nI Ix.capCsState cs = 2) ∧
    (∃ (t path cs : _) (s : State) (e : Dev), e = s.dev.at t ∧ cs < 4 ∧ e.reaches path Ix.capCsCmd ∧ 1 ≤ path ∧ path ≤ 4 ∧ e.fullService = true ∧
      (e.nI Ix.capCsState cs = 0 ∨ e.nI Ix.capCsState cs = 1 ∨ e.nI Ix.capCsState cs = 4)) ∧
    (∃ (t path cs : _) (s : State) (e : Dev), e = s.dev.at t ∧ cs < 4 ∧ e.reaches path Ix.capCsCmd ∧ e.fullService = true ∧ (e.nI Ix.capCsState cs = 1
      ∨ e.nI Ix.capCsState cs = 3)) ∧
    (∃ (t path cs : _) (s : State) (e : Dev), e = s.dev.at t ∧ cs < 4 ∧ e.reaches path Ix.capCsCmd ∧ 1 ≤ path ∧ path ≤ 4 ∧ e.fullService = true ∧
      (e.nI Ix.capCsState cs = 0 ∨ e.nI Ix.capCsState cs = 2 ∨ e.nI Ix.capCsState cs = 4)) ∧
    (∃ (t cs : _) (s : State) (e : Dev), e = s.dev.at t ∧ cs < 4 ∧ e.nI Ix.capCsState cs = 4) ∧
    (∃ (t : _) (s : State) (e : Dev), e = s.dev.at t ∧ e.n0 Ix.capIdleSr ≠ 0 ∧ e.cap.idleSince + us (e.n0 Ix.capIdleSr) ≤ e.now ∧ (∀ k < 16,
      (e.cap.subs.get {} k).queue = []) ∧ e.hodBlocks = 0 ∧ e.cap.asleep = false ∧ 2 ≤ e.n0 Ix.capState) ∧
    (∃ (t port : _) (s : State) (e : Dev), e = s.dev.at t ∧ port < 24 ∧ e.cap.asleep = true) :=
  ⟨⟨0, 1, 1, at0 (dv [(Ix.capChannels, 0, 0, 255), (Ix.capState, 0, 0, 2), (Ix.modService, 0, 0, 3), (Ix.capCsState, 2, 0, 1), (Ix.capCsSize, 2, 0,
      1), (Ix.capCsLogSize, 2, 0, 1)]
      { up with cap := { up.cap with allocs := [{ kind := 1, num := 1, first := 0, stripes := 1, map := 255, length := 32768 }, { kind := 4, num := 1, first := 1, stripes := 1, map := 255, length := 4096, mirrored := true }] } }),
      _, ((((at0 (dv [(Ix.capChannels, 0, 0, 255), (Ix.capState, 0, 0, 2), (Ix.modService, 0, 0, 3), (Ix.capCsState, 2, 0, 1), (Ix.capCsSize, 2, 0,
      1), (Ix.capCsLogSize, 2, 0, 1)]
      { up with cap := { up.cap with allocs := [{ kind := 1, num := 1, first := 0, stripes := 1, map := 255, length := 32768 }, { kind := 4, num := 1, first := 1, stripes := 1, map := 255, length := 4096, mirrored := true }] } })).dev.at
      0).csMemory 1).getD {}), _, _, rfl, rfl, rfl, (by delta Dev.reaches; decide +kernel)⟩,
    ⟨0, 1, 3, at0 (dv [(Ix.modService, 0, 0, 3), (Ix.capCsState, 4, 0, 1)] up), _, rfl, (by delta Dev.reaches; decide +kernel)⟩,
    ⟨0, 1, 3, at0 (dv [(Ix.modService, 0, 0, 3), (Ix.capCsState, 4, 0, 2)] up), _, rfl, (by delta Dev.reaches; decide +kernel)⟩,
    ⟨0, 1, 3, at0 (dv [(Ix.modService, 0, 0, 3), (Ix.capCsState, 4, 0, 0)] up), _, rfl, (by delta Dev.reaches; decide +kernel)⟩,
    ⟨0, 1, 3, at0 (dv [(Ix.modService, 0, 0, 3), (Ix.capCsState, 4, 0, 1)] up), _, rfl, (by delta Dev.reaches; decide +kernel)⟩,
    ⟨0, 1, 3, at0 (dv [(Ix.modService, 0, 0, 3), (Ix.capCsState, 4, 0, 0)] up), _, rfl, (by delta Dev.reaches; decide +kernel)⟩,
    ⟨0, 3, at0 (dv [(Ix.capCsState, 4, 0, 4)] up), _, rfl, by decide +kernel⟩,
    ⟨0, at0 (dv [(Ix.capState, 0, 0, 2), (Ix.capIdleSr, 0, 0, 10)] { up with now := 2 ^ 60, cap := { up.cap with asleep := false } }), _, rfl,
      by decide +kernel⟩,
    ⟨0, 23, at0 ({ up with cap := { up.cap with asleep := true } }), _, rfl, by decide +kernel⟩⟩

/-- Every clause of `Obligations.RingCommandsAndFailure` has a state and operands that meet its hypotheses together. -/
theorem test_meets_RingCommandsAndFailure :
    (∃ (t path : _) (s : State) (e : Dev) (r : _), e = s.dev.at t ∧ r = e.nW Ix.strRingSel path ∧ (∃ e', e.ringMemory r = some e') ∧ e.reaches path
      Ix.strRingCmd ∧ e.ringState r = 0 ∧ e.ringRefusal r = none) ∧
    (∃ (t path : _) (s : State) (e : Dev) (r : _), e = s.dev.at t ∧ r = e.nW Ix.strRingSel path ∧ e.reaches path Ix.strRingCmd ∧ 1 ≤ path ∧ path ≤ 4 ∧
      e.ringState r ≠ 0) ∧
    (∃ (t path : _) (s : State) (e : Dev) (r : _), e = s.dev.at t ∧ r = e.nW Ix.strRingSel path ∧ e.reaches path Ix.strRingCmd ∧ (e.ringState r = 1 ∨
      e.ringState r = 2 ∨ e.ringState r = 4 ∨ e.ringState r = 5) ∧ (e.ring r).backlog = []) ∧
    (∃ (t path : _) (s : State) (e : Dev) (r : _), e = s.dev.at t ∧ r = e.nW Ix.strRingSel path ∧ e.reaches path Ix.strRingCmd ∧ (e.ringState r = 1 ∨
      e.ringState r = 2 ∨ e.ringState r = 4) ∧ (e.ring r).backlog ≠ [] ∧ e.str.suspended = true ∧ e.nW Ix.strRingPolicy r = 1) ∧
    (∃ (t path : _) (s : State) (e : Dev) (r : _), e = s.dev.at t ∧ r = e.nW Ix.strRingSel path ∧ e.reaches path Ix.strRingCmd ∧ 1 ≤ path ∧ path ≤ 4 ∧
      e.ringState r = 0) ∧
    (∃ (t r : _) (s : State) (e : Dev), e = s.dev.at t ∧ r < 65536 ∧ e.ringState r = 3 ∧ (e.ring r).backlog = []) ∧
    (∃ (t r : _) (s : State) (e : Dev), e = s.dev.at t ∧ r < 65536 ∧ e.ringState r = 3 ∧ (e.ring r).backlog ≠ [] ∧ e.str.suspended = true ∧ e.nW
      Ix.strRingPolicy r = 1 ∧ (e.ring r).closeAt ≤ e.now) ∧
    (∃ (t path : _) (s : State) (e : Dev) (r : _), e = s.dev.at t ∧ r = e.nW Ix.strRingSel path ∧ e.reaches path Ix.strRingCmd ∧ e.ringState r = 1) ∧
    (∃ (t path : _) (s : State) (e : Dev) (r : _), e = s.dev.at t ∧ r = e.nW Ix.strRingSel path ∧ e.reaches path Ix.strRingCmd ∧ 1 ≤ path ∧ path ≤ 4 ∧
      e.ringState r ≠ 1) ∧
    (∃ (t path : _) (s : State) (e : Dev) (r : _), e = s.dev.at t ∧ r = e.nW Ix.strRingSel path ∧ e.reaches path Ix.strRingCmd ∧ e.ringState r = 2 ∧
      (e.ring r).backlog = []) ∧
    (∃ (t path : _) (s : State) (e : Dev) (r : _), e = s.dev.at t ∧ r = e.nW Ix.strRingSel path ∧ e.reaches path Ix.strRingCmd ∧ 1 ≤ path ∧ path ≤ 4 ∧
      e.ringState r ≠ 2) ∧
    (∃ (t r : _) (s : State) (e : Dev), e = s.dev.at t ∧ r < 65536 ∧ (e.ring r).backlog = [] ∧ e.sup.emergencies.length < 32) :=
  ⟨⟨0, 1, at0 (dv [(Ix.strRingSel, 0, 1, 5), (Ix.strRingSizeLog2, 0, 5, 12), (Ix.strRingBacklog, 0, 5, 64), (Ix.strRingState, 0, 5, 0)] up), _, _,
      rfl, rfl, Option.isSome_iff_exists.mp (by decide +kernel), (by delta Dev.reaches; decide +kernel)⟩,
    ⟨0, 1, at0 (dv [(Ix.strRingState, 0, 0, 1)] up), _, _, rfl, rfl, (by delta Dev.reaches; decide +kernel)⟩,
    ⟨0, 1, at0 (dv [(Ix.strRingState, 0, 0, 1)] up), _, _, rfl, rfl, (by delta Dev.reaches; decide +kernel)⟩,
    ⟨0, 1, at0 (dv [(Ix.strRingSel, 0, 1, 5), (Ix.strRingPolicy, 0, 5, 1), (Ix.strRingState, 0, 5, 1)]
      { up with str := { up.str with rings := [(5, { backlog := [({ slots := [(0x0E80, 5), (0, 6)], payload := [] } : Rec)] })], suspended := true } }),
      _, _, rfl, rfl, (by delta Dev.reaches; decide +kernel)⟩,
    ⟨0, 1, at0 (dv [(Ix.strRingState, 0, 0, 0)] up), _, _, rfl, rfl, (by delta Dev.reaches; decide +kernel)⟩,
    ⟨0, 65535, at0 (dv [(Ix.strRingState, 0, 65535, 3)] up), _, rfl, by decide +kernel⟩,
    ⟨0, 5, at0 (dv [(Ix.strRingSel, 0, 1, 5), (Ix.strRingPolicy, 0, 5, 1), (Ix.strRingState, 0, 5, 3)]
      { up with str := { up.str with rings := [(5, { backlog := [({ slots := [(0x0E80, 5), (0, 6)], payload := [] } : Rec)] })], suspended := true } }),
      _, rfl, by decide +kernel⟩,
    ⟨0, 1, at0 (dv [(Ix.strRingState, 0, 0, 1)] up), _, _, rfl, rfl, (by delta Dev.reaches; decide +kernel)⟩,
    ⟨0, 1, at0 (dv [(Ix.strRingState, 0, 0, 0)] up), _, _, rfl, rfl, (by delta Dev.reaches; decide +kernel)⟩,
    ⟨0, 1, at0 (dv [(Ix.strRingState, 0, 0, 2)] up), _, _, rfl, rfl, (by delta Dev.reaches; decide +kernel)⟩,
    ⟨0, 1, at0 (dv [(Ix.strRingState, 0, 0, 0)] up), _, _, rfl, rfl, (by delta Dev.reaches; decide +kernel)⟩,
    ⟨0, 65535, at0 (up), _, rfl, by decide +kernel⟩⟩

/-- Every clause of `Obligations.RingDeliveryMessagesAndHost` has a state and operands that meet its hypotheses together. -/
theorem test_meets_RingDeliveryMessagesAndHost :
    (∃ (t r : _) (s : State) (e : Dev) (x : Rec) (rest : List (Nat × Rec)) (n : _) (p : Nat) (q : _), e = s.dev.at t ∧ q = e.ringSlots r - (p + 2 ^ 32
      - e.nW Ix.strRingCi r) % 2 ^ 32 ∧ r < 65536 ∧ takeFor r e.out.arrived = some (x, rest) ∧ recTag x = 0x0E80 ∧ n = recSlots x ∧ e.ringState r = 1
      ∧ e.nW Ix.strRingTarget r = 0 ∧ e.str.linkUp = true ∧ e.str.suspended = false ∧ (e.ring r).backlog = [] ∧ (e.ring r).losses = [] ∧ n ≤
      e.ringSlots r / 2 ∧ recBacklog x ≤ (e.ring r).limit ∧ (e.fullService = false ∨ e.n0 Ix.capState ≠ 4) ∧ p = e.nW Ix.strRingPi r ∧ n ≤ q ∧ p %
      e.ringSlots r + n ≤ e.ringSlots r) ∧
    (∃ (t r : _) (s : State) (e : Dev) (x : Rec) (rest : List (Nat × Rec)), e = s.dev.at t ∧ r < 65536 ∧ takeFor r e.out.arrived = some (x, rest) ∧
      e.ringTakes r = true ∧ e.ringState r ≠ 5 ∧ (e.ring r).backlog = [] ∧ e.ringSlots r / 2 < recSlots x) ∧
    (∃ (t r : _) (s : State) (e : Dev) (x : Rec) (n : _) (p : Nat), e = s.dev.at t ∧ r < 65536 ∧ (e.ring r).backlog = [x] ∧ (e.ring r).losses = [] ∧ n
      = recSlots x ∧ e.ringState r = 1 ∧ e.nW Ix.strRingTarget r = 0 ∧ e.str.linkUp = true ∧ e.str.suspended = false ∧ p = e.nW Ix.strRingPi r ∧ n ≤
      e.ringSlots r - (p + 2 ^ 32 - e.nW Ix.strRingCi r) % 2 ^ 32 ∧ p % e.ringSlots r + n ≤ e.ringSlots r) ∧
    (∃ (t r ci : _) (s : State) (e : Dev), e = s.dev.at t ∧ r < 65536 ∧ (ci % 2 ^ 32 + 2 ^ 32 - e.nW Ix.strRingCi r) % 2 ^ 32 ≤ (e.nW Ix.strRingPi r +
      2 ^ 32 - e.nW Ix.strRingCi r) % 2 ^ 32) ∧
    (∃ (t r ci : _) (s : State) (e : Dev), e = s.dev.at t ∧ r < 65536 ∧ e.sup.emergencies.length < 32 ∧ (e.nW Ix.strRingPi r + 2 ^ 32 - e.nW
      Ix.strRingCi r) % 2 ^ 32 < (ci % 2 ^ 32 + 2 ^ 32 - e.nW Ix.strRingCi r) % 2 ^ 32) ∧
    (∃ (t r : _) (s : State) (e : Dev) (v : _), e = s.dev.at t ∧ v = e.nW Ix.strRingVector r ∧ r < 65536 ∧ v < 2048 ∧ (e.ring r).since ≠ 0 ∧ e.nW
      Ix.strRingModCount r ≠ 0 ∧ e.nW Ix.strRingModCount r ≤ (e.ring r).since ∧ (e.ring r).piWb = e.nW Ix.strRingPi r) ∧
    (∃ (t v : _) (s : State) (e : Dev), e = s.dev.at t ∧ v < 2048) ∧
    (∃ (t : _) (s : State) (e : Dev), e = s.dev.at t ∧ e.str.linkUp = true ∧ e.sup.emergencies.length < 32) ∧
    (∃ (t : _) (s : State) (e : Dev), e = s.dev.at t ∧ e.hw.pwrGood = true ∧ e.hw.perstLow = false ∧ e.str.linkUp = false ∧ (∀ r ∈ e.hostRings,
      e.ringState r ≠ 4)) ∧
    (∃ (t : _) (s : State) (e : Dev), e = s.dev.at t ∧ e.hw.perstLow = false ∧ e.hostRings = []) ∧
    (∃ (t : _) (s : State) (e : Dev), e = s.dev.at t ∧ e.hw.pwrGood = true ∧ e.str.linkUp = false) ∧
    (∃ (t addr len : _) (s : State) (e : Dev), e = s.dev.at t ∧ addr + len ≤ 2 ^ 37 ∧ e.str.linkUp = true ∧ e.fullService = true) ∧
    (∃ (t addr : _) (data : List Byte) (s : State) (e : Dev), e = s.dev.at t ∧ addr + data.length ≤ 2 ^ 37 ∧ e.str.linkUp = true ∧ e.fullService =
      true) ∧
    (∃ (t addr : _) (data : List Byte) (s : State) (e : Dev), e = s.dev.at t ∧ addr + data.length ≤ 2 ^ 37 ∧ e.str.linkUp = true ∧ e.wakesNothing 2 ∧
      e.fullService = false) :=
  ⟨⟨0, 5, at0 (dv [(Ix.strRingState, 0, 5, 1), (Ix.strRingSizeLog2, 0, 5, 12), (Ix.strRingBase, 0, 5, 4096), (Ix.strRingTarget, 0, 5, 0)]
      { up with out := { up.out with arrived := [(5, ({ slots := [(0x0E80, 5), (0, 6)], payload := [] } : Rec))] }, str := { up.str with rings := [(5, { limit := 65536 })], linkUp := true, suspended := false } }),
      _, ({ slots := [(0x0E80, 5), (0, 6)], payload := [] } : Rec), ([] : List (Nat × Rec)), 2, (0 : Nat), _, rfl, rfl, by decide +kernel⟩,
    ⟨0, 5, at0 (dv [(Ix.strRingState, 0, 5, 1), (Ix.strRingSizeLog2, 0, 5, 3), (Ix.strRingBase, 0, 5, 4096)]
      { up with out := { up.out with arrived := [(5, ({ slots := [(0x0E80, 5), (0, 6)], payload := [] } : Rec))] } }), _,
      ({ slots := [(0x0E80, 5), (0, 6)], payload := [] } : Rec), ([] : List (Nat × Rec)), rfl, by decide +kernel⟩,
    ⟨0, 5, at0 (dv [(Ix.strRingState, 0, 5, 1), (Ix.strRingSizeLog2, 0, 5, 12), (Ix.strRingBase, 0, 5, 4096), (Ix.strRingTarget, 0, 5, 0)]
      { up with str := { up.str with rings := [(5, { limit := 65536, backlog := [({ slots := [(0x0E80, 5), (0, 6)], payload := [] } : Rec)] })], linkUp := true, suspended := false } }),
      _, ({ slots := [(0x0E80, 5), (0, 6)], payload := [] } : Rec), 2, (0 : Nat), rfl, by decide +kernel⟩,
    ⟨0, 5, 2, at0 (dv [(Ix.strRingPi, 0, 5, 3)] up), _, rfl, by decide +kernel⟩,
    ⟨0, 5, 9, at0 (dv [(Ix.strRingPi, 0, 5, 3)] up), _, rfl, by decide +kernel⟩,
    ⟨0, 5, at0 (dv [(Ix.strRingVector, 0, 5, 7), (Ix.strRingModCount, 0, 5, 1)] { up with str := { up.str with rings := [(5, { since := 2 })] } }), _,
      _, rfl, rfl, by decide +kernel⟩,
    ⟨0, 7, at0 ({ up with str := { up.str with msixPending := [7] } }), _, rfl, by decide +kernel⟩,
    ⟨0, at0 (dv [(Ix.strRingState, 0, 5, 1)] { up with str := { up.str with rings := [(5, {})], linkUp := true } }), _, rfl, by decide +kernel⟩,
    ⟨0, at0 ({ up with hw := { up.hw with pwrGood := true, perstLow := false }, str := { up.str with linkUp := false } }), _, rfl, by decide +kernel⟩,
    ⟨0, at0 ({ up with hw := { up.hw with perstLow := false } }), _, rfl, by decide +kernel⟩,
    ⟨0, at0 ({ up with hw := { up.hw with pwrGood := true }, str := { up.str with linkUp := false } }), _, rfl, by decide +kernel⟩,
    ⟨0, 70, 4, at0 (dv [(Ix.capChannels, 0, 0, 255), (Ix.capState, 0, 0, 2), (Ix.modService, 0, 0, 3)]
      { up with cap := { up.cap with allocs := [{ kind := 1, num := 1, first := 0, stripes := 1, map := 255, length := 32768 }] }, str := { up.str with linkUp := true } })
      [(71, 3#8)], _, rfl, by decide +kernel⟩,
    ⟨0, 70, ([1, 2, 3] : List Byte), at0 (dv [(Ix.capChannels, 0, 0, 255), (Ix.capState, 0, 0, 2), (Ix.modService, 0, 0, 3)]
      { up with cap := { up.cap with allocs := [{ kind := 1, num := 1, first := 0, stripes := 1, map := 255, length := 32768 }] }, str := { up.str with linkUp := true } })
      [(71, 3#8)], _, rfl, by decide +kernel⟩,
    ⟨0, 70, ([1, 2, 3] : List Byte), at0
      ({ up with cap := { up.cap with allocs := [{ kind := 1, num := 1, first := 0, stripes := 1, map := 255, length := 32768 }] }, str := { up.str with linkUp := true } })
      [(71, 3#8)], _, rfl, (by delta Dev.wakesNothing; decide +kernel)⟩⟩

/-- Every clause of `Obligations.DrivesAndTheVolume` has a state and operands that meet its hypotheses together. -/
theorem test_meets_DrivesAndTheVolume :
    (∃ (t n : _) (s : State) (e : Dev), e = s.dev.at t ∧ n < 8 ∧ e.fullService = true ∧ (e.drvState n = 0 ∨ e.drvState n = 5) ∧ e.rootDown n = false) ∧
    (∃ (t n lbas granted : _) (s : State) (e : Dev), e = s.dev.at t ∧ n < 8 ∧ e.drvState n = 1 ∧ e.stoPerstLow n = false ∧ e.driveRefusal 0 lbas
      granted = none ∧ e.str.volume = none) ∧
    (∃ (t n : _) (s : State) (e : Dev), e = s.dev.at t ∧ n < 8 ∧ e.drvState n = 1 ∧ e.stoPerstLow n = false) ∧
    (∃ (t n : _) (s : State) (e : Dev), e = s.dev.at t ∧ n < 8 ∧ e.stoPerstLow n = true) ∧
    (∃ (t path n : _) (s : State) (e : Dev), e = s.dev.at t ∧ e.reaches path Ix.strDriveCmd ∧ n < 8 ∧ e.fullService = true ∧ e.drvState n ≠ 0 ∧
      e.str.volume = none) ∧
    (∃ (t path n : _) (s : State) (e : Dev), e = s.dev.at t ∧ e.reaches path Ix.strDriveCmd ∧ n < 8 ∧ e.fullService = true ∧ (e.drvState n = 0 ∨
      e.drvState n = 4 ∨ e.drvState n = 5) ∧ e.rootDown n = false) ∧
    (∃ (t path n : _) (s : State) (e : Dev), e = s.dev.at t ∧ e.reaches path Ix.strDriveCmd ∧ 1 ≤ path ∧ path ≤ 4 ∧ n < 8 ∧ e.fullService = false) ∧
    (∃ (t n id : _) (s : State) (e : Dev) (c : NvmeCmd), e = s.dev.at t ∧ n < 8 ∧ (e.drive n).cmds.find? (fun c => c.id == id) = some c ∧ c.op = 1 ∧
      (∀ x ∈ (e.drive n).cmds, x.op = 1 → x.slot = c.slot → x.id = id) ∧ e.reelState c.reel ≠ 6) ∧
    (∃ (t n id : _) (s : State) (e : Dev) (c : NvmeCmd) (e' : _), e = s.dev.at t ∧ n < 8 ∧ (e.drive n).cmds.find? (fun c => c.id == id) = some c ∧
      c.op = 0 ∧ e.reelState c.reel = 6 ∧ (e.reel c.reel).closing = true ∧ (e.reel c.reel).flushed = true ∧ (∀ p ∈ e.str.spool, p.2.1 ≠ c.reel) ∧ (e'
      = e.setDrive n { e.drive n with cmds := (e.drive n).cmds.filter (fun x => x.id != id) }) ∧ (∀ p ∈ e'.str.drives, ∀ x ∈ p.2.cmds, x.reel = c.reel
      → x.op ≠ 0)) ∧
    (∃ (t n id : _) (s : State) (e : Dev) (c : NvmeCmd), e = s.dev.at t ∧ n < 8 ∧ (e.drive n).cmds.find? (fun c => c.id == id) = some c ∧ c.retried =
      false) ∧
    (∃ (t n id : _) (s : State) (e : Dev) (c : NvmeCmd), e = s.dev.at t ∧ n < 8 ∧ (e.drive n).cmds.find? (fun c => c.id == id) = some c ∧ c.issued +
      ms (e.n0 Ix.strNvmeTimeout) ≤ e.now ∧ c.aborted = false ∧ e.sup.emergencies.length < 32) ∧
    (∃ (t n : _) (s : State) (e : Dev), e = s.dev.at t ∧ n < 8 ∧ (e.drvState n = 2 ∨ e.drvState n = 3)) ∧
    (∃ (t n : _) (s : State) (e : Dev), e = s.dev.at t ∧ n < 8 ∧ (e.drvState n = 2 ∨ e.drvState n = 3) ∧ e.str.volume = none ∧
      e.sup.emergencies.length < 32) ∧
    (∃ (t n : _) (s : State) (e : Dev), e = s.dev.at t ∧ n < 8 ∧ (e.drvState n = 1 ∨ e.drvState n = 4)) ∧
    (∃ (t path : _) (s : State) (e : Dev), e = s.dev.at t ∧ e.reaches path Ix.strVolCmd ∧ e.fullService = true ∧ e.reelsOpen = false ∧ e.attached ≠
      []) ∧
    (∃ (t path : _) (s : State) (e : Dev), e = s.dev.at t ∧ e.reaches path Ix.strVolCmd ∧ 1 ≤ path ∧ path ≤ 4 ∧ e.fullService = true ∧ e.attached =
      []) ∧
    (∃ (t path : _) (s : State) (e : Dev) (v : _), e = s.dev.at t ∧ e.reaches path Ix.strVolCmd ∧ e.fullService = true ∧ e.reelsOpen = false ∧
      e.labelled = some v ∧ e.dirFound v.ports = []) ∧
    (∃ (t path : _) (s : State) (e : Dev) (v x r : _), e = s.dev.at t ∧ e.reaches path Ix.strVolCmd ∧ e.fullService = true ∧ e.reelsOpen = false ∧
      e.labelled = some v ∧ e.dirFound v.ports = [x] ∧ r = x.getD 0 0 / 2 ^ 32 ∧ x.getD 0 0 / 2 ^ 24 % 256 = 2) ∧
    (∃ (t path : _) (s : State) (e : Dev), e = s.dev.at t ∧ e.reaches path Ix.strVolCmd ∧ 1 ≤ path ∧ path ≤ 4 ∧ e.fullService = true ∧ e.reelsOpen =
      false ∧ e.labelled = none) ∧
    (∃ (t path : _) (s : State) (e : Dev), e = s.dev.at t ∧ e.reaches path Ix.strVolCmd ∧ e.fullService = true ∧ e.reelsOpen = false ∧ e.str.volume ≠
      none) :=
  ⟨⟨0, 2, at0 (dv [(Ix.modService, 0, 0, 3)] { up with now := 2 ^ 60 }), _, rfl, by decide +kernel⟩,
    ⟨0, 2, 1000000000, 8, at0 (dv [(Ix.strDrvState, 3, 0, 1)] { up with now := 2 ^ 60, str := { up.str with volume := none } }), _, rfl,
      by decide +kernel⟩,
    ⟨0, 2, at0 (dv [(Ix.strDrvState, 3, 0, 1)] { up with now := 2 ^ 60 }), _, rfl, by decide +kernel⟩,
    ⟨0, 2, at0 (dv [(Ix.strDrvState, 3, 0, 0)] { up with now := 2 ^ 60 }), _, rfl, by decide +kernel⟩,
    ⟨0, 1, 2, at0 (dv [(Ix.strDrvState, 3, 0, 2), (Ix.modService, 0, 0, 3)] { up with str := { up.str with volume := none } }), _, rfl, (by
      delta Dev.reaches; decide +kernel)⟩,
    ⟨0, 1, 2, at0 (dv [(Ix.strDrvState, 3, 0, 4), (Ix.modService, 0, 0, 3)] up), _, rfl, (by delta Dev.reaches; decide +kernel)⟩,
    ⟨0, 1, 2, at0 (up), _, rfl, (by delta Dev.reaches; decide +kernel)⟩,
    ⟨0, 2, 9, at0 (dv [(Ix.strDrvState, 3, 0, 3)]
      { up with str := { up.str with drives := [(2, { queues := 4, cmds := [{ id := 9, op := 1, reel := 1, unit := 0, slot := 3, bytes := 4096, issued := 0 }] })], spool := [(3, 1, 0)] }, now := 2 ^ 60 }),
      _, ({ id := 9, op := 1, reel := 1, unit := 0, slot := 3, bytes := 4096, issued := 0 } : NvmeCmd), rfl, by decide +kernel⟩,
    ⟨0, 2, 9, at0 (dv [(Ix.strDrvState, 3, 0, 3), (Ix.strReelState, 0, 1, 6)]
      { up with str := { up.str with drives := [(2, { queues := 4, cmds := [{ id := 9, op := 0, reel := 1, unit := 0, slot := 3, bytes := 4096, issued := 0 }] })], spool := [], reels := [(1, { closing := true, flushed := true })] }, now := 2 ^ 60 }),
      _, ({ id := 9, op := 0, reel := 1, unit := 0, slot := 3, bytes := 4096, issued := 0 } : NvmeCmd), (((at0 (dv [(Ix.strDrvState, 3, 0, 3),
      (Ix.strReelState, 0, 1, 6)]
      { up with str := { up.str with drives := [(2, { queues := 4, cmds := [{ id := 9, op := 0, reel := 1, unit := 0, slot := 3, bytes := 4096, issued := 0 }] })], spool := [], reels := [(1, { closing := true, flushed := true })] }, now := 2 ^ 60 })).dev.at
      0).setDrive 2
      { ((at0 (dv [(Ix.strDrvState, 3, 0, 3), (Ix.strReelState, 0, 1, 6)] { up with str := { up.str with drives := [(2, { queues := 4, cmds := [{ id := 9, op := 0, reel := 1, unit := 0, slot := 3, bytes := 4096, issued := 0 }] })], spool := [], reels := [(1, { closing := true, flushed := true })] }, now := 2 ^ 60 })).dev.at 0).drive 2 with cmds := (((at0 (dv [(Ix.strDrvState, 3, 0, 3), (Ix.strReelState, 0, 1, 6)] { up with str := { up.str with drives := [(2, { queues := 4, cmds := [{ id := 9, op := 0, reel := 1, unit := 0, slot := 3, bytes := 4096, issued := 0 }] })], spool := [], reels := [(1, { closing := true, flushed := true })] }, now := 2 ^ 60 })).dev.at 0).drive 2).cmds.filter (fun x => x.id != 9) }),
      rfl, by decide +kernel⟩,
    ⟨0, 2, 9, at0 (dv [(Ix.strDrvState, 3, 0, 3)]
      { up with str := { up.str with drives := [(2, { queues := 4, cmds := [{ id := 9, op := 1, reel := 1, unit := 0, slot := 3, bytes := 4096, issued := 0 }] })], spool := [(3, 1, 0)] }, now := 2 ^ 60 }),
      _, ({ id := 9, op := 1, reel := 1, unit := 0, slot := 3, bytes := 4096, issued := 0 } : NvmeCmd), rfl, by decide +kernel⟩,
    ⟨0, 2, 9, at0 (dv [(Ix.strDrvState, 3, 0, 3)]
      { up with str := { up.str with drives := [(2, { queues := 4, cmds := [{ id := 9, op := 1, reel := 1, unit := 0, slot := 3, bytes := 4096, issued := 0 }] })], spool := [(3, 1, 0)] }, now := 2 ^ 60 }),
      _, ({ id := 9, op := 1, reel := 1, unit := 0, slot := 3, bytes := 4096, issued := 0 } : NvmeCmd), rfl, by decide +kernel⟩,
    ⟨0, 2, at0 (dv [(Ix.strDrvState, 3, 0, 3)] up), _, rfl, by decide +kernel⟩,
    ⟨0, 2, at0 (dv [(Ix.strDrvState, 3, 0, 2)] { up with str := { up.str with volume := none } }), _, rfl, by decide +kernel⟩,
    ⟨0, 2, at0 (dv [(Ix.strDrvState, 3, 0, 4)] up), _, rfl, by decide +kernel⟩,
    ⟨0, 1, at0 (dv [(Ix.strDrvState, 3, 0, 2), (Ix.strDrvState, 5, 0, 2), (Ix.strVolUnitKib, 0, 0, 1024), (Ix.strVolExtent, 0, 0, 100),
      (Ix.modService, 0, 0, 3)] { up with str := { up.str with drives := [(2, { lbas := 1000000000 }), (4, { lbas := 1000000000 })] } }), _, rfl, (by
      delta Dev.reaches; decide +kernel)⟩,
    ⟨0, 1, at0 (dv [(Ix.modService, 0, 0, 3)] up), _, rfl, (by delta Dev.reaches; decide +kernel)⟩,
    ⟨0, 1, at0 (dv [(Ix.strDrvState, 3, 0, 2), (Ix.modService, 0, 0, 3)]
      { up with str := { up.str with drives := [(2, { lbas := 1000000000, label := [0 * 2 ^ 40 + 2 ^ 32, 77, 1024 * 2 ^ 24 + 100, 5000, 3, 11, 0, 0, 0, 0, 0, 0, 0] })] } }),
      _, ((((at0 (dv [(Ix.strDrvState, 3, 0, 2), (Ix.modService, 0, 0, 3)]
      { up with str := { up.str with drives := [(2, { lbas := 1000000000, label := [0 * 2 ^ 40 + 2 ^ 32, 77, 1024 * 2 ^ 24 + 100, 5000, 3, 11, 0, 0, 0, 0, 0, 0, 0] })] } })).dev.at
      0).labelled).getD {}), rfl, (by delta Dev.reaches; decide +kernel)⟩,
    ⟨0, 1, at0 oneReel, _,
      { id := 77, unitKib := 1024, extent := 100, tokens := 11 :: List.replicate 7 0, ports := [(0, 2)], generation := 3, units := [(0, 5000)] },
      entryBody ++ [dirCrc entryBody], 5, rfl, (by delta Dev.reaches; decide +kernel), by decide +kernel, by decide +kernel, by decide +kernel,
      dirFound_one _ 0 2 5 entryBody (by decide +kernel) rfl, by decide +kernel⟩,
    ⟨0, 1, at0 (dv [(Ix.strDrvState, 3, 0, 2), (Ix.modService, 0, 0, 3)] up), _, rfl, (by delta Dev.reaches; decide +kernel)⟩,
    ⟨0, 1, at0 (dv [(Ix.strDrvState, 3, 0, 3), (Ix.modService, 0, 0, 3)]
      { up with str := { up.str with volume := some ({ unitKib := 1024, extent := 100, tokens := [11], ports := [(0, 2)], units := [(0, 5000)] } : VolSt) } }),
      _, rfl, (by delta Dev.reaches; decide +kernel)⟩⟩

/-- Every clause of `Obligations.ReelsAndPlayback` has a state and operands that meet its hypotheses together. -/
theorem test_meets_ReelsAndPlayback :
    (∃ (t path : _) (s : State) (e : Dev) (r x : _), e = s.dev.at t ∧ r = e.nW Ix.strReelSel path ∧ x =
      ({ generation := (e.reel r).generation, rate := e.chanRate ((e.reelSources r).headD 0), sources := e.reelSources r, format := e.nW Ix.strReelFormat r, mode := e.nW Ix.strReelMode r }
      : ReelSt) ∧ (∃ e', ((((e.setReel r x).setReelState r 1).wW Ix.strReelSamples r 0).wW Ix.strReelGapSamples r 0).newExtent r (e.reelMap r) = some
      e') ∧ e.reaches path Ix.strReelCmd ∧ e.fullService = true ∧ e.reelState r = 0 ∧ e.str.volume ≠ none) ∧
    (∃ (t path : _) (s : State) (e : Dev) (r : _), e = s.dev.at t ∧ r = e.nW Ix.strReelSel path ∧ e.reaches path Ix.strReelCmd ∧ 1 ≤ path ∧ path ≤ 4 ∧
      e.fullService = true ∧ e.reelState r ≠ 0) ∧
    (∃ (t path : _) (s : State) (e : Dev) (r : _) (x : ReelSt) (a n0 t0 : _), e = s.dev.at t ∧ r = e.nW Ix.strReelSel path ∧ a = sourceOf
      (x.sources.headD 0) ∧ n0 = e.sampleAfter a (tickAt (e.time96 + 1)) ∧ t0 = e.timeOf a n0 ∧ e.reaches path Ix.strReelCmd ∧ e.fullService = true ∧
      x = e.reel r ∧ e.reelState r = 1 ∧ x.mode = 0 ∧ x.rate ≠ 0 ∧ (∀ c ∈ x.sources, e.chanRate c = x.rate) ∧ e.reelCarried x (match
      x.extents.getLast? with | some a => a.members | none => 0) = true) ∧
    (∃ (t path : _) (s : State) (e : Dev) (r : _) (v : VolSt), e = s.dev.at t ∧ r = e.nW Ix.strReelSel path ∧ e.reaches path Ix.strReelCmd ∧
      e.fullService = true ∧ e.reelState r = 1 ∧ (e.reel r).mode = 0 ∧ (e.reel r).takes = [] ∧ (∀ p ∈ e.str.spool, p.2.1 ≠ r) ∧ e.str.volume = some v
      ∧ (∀ p ∈ v.ports, (e.drive p.2).cache = false) ∧ (∀ p ∈ e.str.drives, ∀ c ∈ p.2.cmds, c.reel = r → c.op ≠ 0)) ∧
    (∃ (t path : _) (s : State) (e : Dev) (r : _), e = s.dev.at t ∧ r = e.nW Ix.strReelSel path ∧ e.reaches path Ix.strReelCmd ∧ e.fullService = true
      ∧ e.reelState r = 2 ∧ (e.reel r).mode = 0) ∧
    (∃ (t path : _) (s : State) (e : Dev) (r : _), e = s.dev.at t ∧ r = e.nW Ix.strReelSel path ∧ e.reaches path Ix.strReelCmd ∧ e.fullService = true
      ∧ e.str.volume ≠ none ∧ (e.reelState r = 3 ∨ e.reelState r = 4 ∨ e.reelState r = 5)) ∧
    (∃ (t r : _) (s : State) (e : Dev) (x : ReelSt) (l : _) (v : VolSt) (a : Extent) (slot u : _) (b : Alloc), e = s.dev.at t ∧ l = e.reelRun r ∧ (u =
      e.reelUnit r x.next (if x.units = 0 then [e.reelSlate r] else []) [] ((List.range x.sources.length).map (fun c => l.map (·.getD c (0, 0, 0))))
      0) ∧ r < 4096 ∧ x = e.reel r ∧ e.reelState r = 2 ∧ x.mode = 0 ∧ x.ended = false ∧ x.stop = none ∧ x.slot = some slot ∧ (∀ h ∈ x.holes, h.1 ≠
      x.next) ∧ l ≠ [] ∧ l.length = e.unitSamples x ∧ e.str.volume = some v ∧ x.extents.getLast? = some a ∧ a.held < v.extent * (mapMembers
      a.members).length ∧ e.allocOf 0x12 0 = some b) ∧
    (∃ (t r : _) (s : State) (e : Dev) (x : ReelSt) (l n : _), e = s.dev.at t ∧ l = e.reelRun r ∧ r < 4096 ∧ x = e.reel r ∧ e.reelState r = 2 ∧ x.mode
      = 0 ∧ x.ended = false ∧ x.slot = none ∧ e.freeSlot = none ∧ x.holes = [] ∧ x.gap = none ∧ x.starving = none ∧ n = l.length ∧ n ≠ 0 ∧ n =
      e.unitSamples x ∧ e.sup.emergencies.length < 32) ∧
    (∃ (t r : _) (s : State) (e : Dev), e = s.dev.at t ∧ r < 4096 ∧ (e.reelState r = 0 ∨ e.reelState r = 3 ∨ e.reelState r = 4 ∨ e.reelState r = 5)) ∧
    (∃ (t r : _) (s : State) (e : Dev) (x : ReelSt) (q : Nat × Nat), e = s.dev.at t ∧ r < 4096 ∧ x = e.reel r ∧ x.starving = some q ∧ e.freeSlot ≠
      none) ∧
    (∃ (t path p : _) (s : State) (e : Dev) (f fmt tc t0 : _), e = s.dev.at t ∧ tc = tickAt (e.time96 + 1) ∧ t0 = gridAfter (tc + us (e.nI
      Ix.strPbLead p)) f ∧ p < 4 ∧ e.reaches path Ix.strPbCmd ∧ e.fullService = true ∧ e.pbSource p = (f, fmt) ∧ e.pbAvailable p = true ∧ f ≠ 0 ∧ f ≤
      e.pbLimit (decide (fmt = 4))) ∧
    (∃ (t path p : _) (s : State) (e : Dev), e = s.dev.at t ∧ p < 4 ∧ e.reaches path Ix.strPbCmd ∧ 1 ≤ path ∧ path ≤ 4 ∧ e.fullService = true ∧
      e.pbAvailable p = false) ∧
    (∃ (t path p : _) (s : State) (e : Dev) (b : _), e = s.dev.at t ∧ b = tickAt (e.time96 + 1) ∧ p < 4 ∧ e.reaches path Ix.strPbCmd ∧ e.fullService =
      true ∧ (e.nI Ix.strPbState p = 1 ∨ e.nI Ix.strPbState p = 2) ∧ (e.pb p).stop = none ∧ (e.pb p).gapFirst = none ∧ b ≤ (e.pb p).t0 + inputTime
      (e.pb p).next (e.pb p).rate) ∧
    (∃ (t path p : _) (s : State) (e : Dev) (b : _), e = s.dev.at t ∧ b = tickAt (e.time96 + 1) ∧ p < 4 ∧ e.reaches path Ix.strPbCmd ∧ e.fullService =
      true ∧ (e.nI Ix.strPbState p = 1 ∨ e.nI Ix.strPbState p = 2) ∧ (e.pb p).stop = none ∧ (e.pb p).t0 + inputTime (e.pb p).next (e.pb p).rate < b) ∧
    (∃ (t p : _) (s : State) (e : Dev), e = s.dev.at t ∧ p < 4 ∧ e.nI Ix.strPbState p = 1 ∧ (e.pb p).stop = none) ∧
    (∃ (t p : _) (s : State) (e : Dev) (x : PbSt), e = s.dev.at t ∧ p < 4 ∧ x = e.pb p ∧ e.nI Ix.strPbState p = 2 ∧ x.stop = none ∧ x.gapFirst = none
      ∧ x.count ≤ x.next ∧ e.nI Ix.strPbLoop p = 1 ∧ e.ddcsOn (0x40 + p) = []) ∧
    (∃ (t p staged : _) (v : Int × Int × Nat) (s : State) (e : Dev) (x : PbSt) (j w : _), e = s.dev.at t ∧ j = e.pbFirst p + x.next ∧ w = e.pbSample p
      j v s.mem ∧ p < 4 ∧ x = e.pb p ∧ e.nI Ix.strPbState p = 2 ∧ x.next + 1 < x.count ∧ e.pbCause p j staged w = 0 ∧ x.gapFirst = none ∧ (∀ b, x.stop
      = some b → x.t0 + inputTime x.next x.rate < b) ∧ e.wideTaker (0x40 + p) = none) ∧
    (∃ (t p staged : _) (v : Int × Int × Nat) (s : State) (e : Dev) (x : PbSt) (j w : _), e = s.dev.at t ∧ j = e.pbFirst p + x.next ∧ w = e.pbSample p
      j v s.mem ∧ p < 4 ∧ x = e.pb p ∧ e.nI Ix.strPbState p = 2 ∧ x.next + 1 < x.count ∧ e.pbCause p j staged w = 12 ∧ x.gapFirst = none ∧ (∀ b,
      x.stop = some b → x.t0 + inputTime x.next x.rate < b) ∧ e.sup.emergencies.length < 32) ∧
    (∃ (t p : _) (s : State) (e : Dev) (x : PbSt) (b : _), e = s.dev.at t ∧ p < 4 ∧ x = e.pb p ∧ e.nI Ix.strPbState p = 2 ∧ x.next < x.count ∧ x.stop
      = some b ∧ b ≤ x.t0 + inputTime x.next x.rate ∧ x.gapFirst = none) :=
  ⟨⟨0, 1, at0 (dv [(Ix.strReelSel, 0, 1, 5), (Ix.strReelSrc, 1, 5, 32), (Ix.chnSrc, 1, 0, 16), (Ix.itkFs, 1, 0, 1000000000), (Ix.itkMode, 1, 0, 3),
      (Ix.itkLinkState, 1, 0, 5), (Ix.strVolUnitKib, 0, 0, 64), (Ix.strDriveRate, 0, 0, 7000), (Ix.strReelFormat, 0, 5, 2), (Ix.modService, 0, 0, 3),
      (Ix.strSpoolMib, 0, 0, 64), (Ix.chnDepth, 1, 0, 0), (Ix.capChannels, 0, 0, 255), (Ix.capState, 0, 0, 2), (Ix.strReelState, 0, 5, 0)]
      { up with str := { up.str with volume := some ({ unitKib := 64, extent := 100, tokens := [11], ports := [(0, 2)], units := [(0, 5000)] } : VolSt) }, now := 2 ^ 60 }),
      _, _, _, rfl, rfl, rfl, Option.isSome_iff_exists.mp (by decide +kernel), (by delta Dev.reaches; decide +kernel)⟩,
    ⟨0, 1, at0 (dv [(Ix.strReelSel, 0, 1, 5), (Ix.strReelSrc, 1, 5, 32), (Ix.chnSrc, 1, 0, 16), (Ix.itkFs, 1, 0, 1000000000), (Ix.itkMode, 1, 0, 3),
      (Ix.itkLinkState, 1, 0, 5), (Ix.strVolUnitKib, 0, 0, 64), (Ix.strDriveRate, 0, 0, 7000), (Ix.strReelFormat, 0, 5, 2), (Ix.modService, 0, 0, 3),
      (Ix.strSpoolMib, 0, 0, 64), (Ix.chnDepth, 1, 0, 0), (Ix.capChannels, 0, 0, 255), (Ix.capState, 0, 0, 2), (Ix.strReelState, 0, 5, 3)]
      { up with str := { up.str with volume := some ({ unitKib := 64, extent := 100, tokens := [11], ports := [(0, 2)], units := [(0, 5000)] } : VolSt), reels := [(5, { rate := 1000000000000, sources := [0x20], format := 2, extents := [⟨1, 0, 0⟩] })], drives := [(2, { lbas := 1000000000, queues := 2 })] }, cap := { up.cap with allocs := [{ kind := 0x12, num := 0, first := 0, stripes := 2048, map := 255, length := 67108864 }] }, itk := { up.itk with links := [(0, { checked := true, anchor := some 1000 })] }, tb := { up.tb with running := true }, now := 2 ^ 60 }),
      _, _, rfl, rfl, (by delta Dev.reaches; decide +kernel)⟩,
    ⟨0, 1, at0 (dv [(Ix.strReelSel, 0, 1, 5), (Ix.strReelSrc, 1, 5, 32), (Ix.chnSrc, 1, 0, 16), (Ix.itkFs, 1, 0, 1000000000), (Ix.itkMode, 1, 0, 3),
      (Ix.itkLinkState, 1, 0, 5), (Ix.strVolUnitKib, 0, 0, 64), (Ix.strDriveRate, 0, 0, 7000), (Ix.strReelFormat, 0, 5, 2), (Ix.modService, 0, 0, 3),
      (Ix.strSpoolMib, 0, 0, 64), (Ix.chnDepth, 1, 0, 0), (Ix.capChannels, 0, 0, 255), (Ix.capState, 0, 0, 2), (Ix.strReelState, 0, 5, 1),
      (Ix.chnState, 1, 0, 2)]
      { up with str := { up.str with volume := some ({ unitKib := 64, extent := 100, tokens := [11], ports := [(0, 2)], units := [(0, 5000)] } : VolSt), reels := [(5, { rate := 1000000000000, sources := [0x20], format := 2, extents := [⟨1, 0, 0⟩] })], drives := [(2, { lbas := 1000000000, queues := 2 })] }, cap := { up.cap with allocs := [{ kind := 0x12, num := 0, first := 0, stripes := 2048, map := 255, length := 67108864 }] }, itk := { up.itk with links := [(0, { checked := true, anchor := some 1000 })] }, tb := { up.tb with running := true }, now := 2 ^ 60 }),
      _, _, ({ rate := 1000000000000, sources := [0x20], format := 2, extents := [⟨1, 0, 0⟩] } : ReelSt), _, _, _, rfl, rfl, rfl, rfl, rfl, (by
      delta Dev.reaches; decide +kernel)⟩,
    ⟨0, 1, at0 (dv [(Ix.strReelSel, 0, 1, 5), (Ix.strReelSrc, 1, 5, 32), (Ix.chnSrc, 1, 0, 16), (Ix.itkFs, 1, 0, 1000000000), (Ix.itkMode, 1, 0, 3),
      (Ix.itkLinkState, 1, 0, 5), (Ix.strVolUnitKib, 0, 0, 64), (Ix.strDriveRate, 0, 0, 7000), (Ix.strReelFormat, 0, 5, 2), (Ix.modService, 0, 0, 3),
      (Ix.strSpoolMib, 0, 0, 64), (Ix.chnDepth, 1, 0, 0), (Ix.capChannels, 0, 0, 255), (Ix.capState, 0, 0, 2), (Ix.strReelState, 0, 5, 1)]
      { up with str := { up.str with volume := some ({ unitKib := 64, extent := 100, tokens := [11], ports := [(0, 2)], units := [(0, 5000)] } : VolSt), reels := [(5, { rate := 1000000000000, sources := [0x20], format := 2, extents := [⟨1, 0, 0⟩] })], drives := [(2, { lbas := 1000000000, queues := 2 })] }, cap := { up.cap with allocs := [{ kind := 0x12, num := 0, first := 0, stripes := 2048, map := 255, length := 67108864 }] }, itk := { up.itk with links := [(0, { checked := true, anchor := some 1000 })] }, tb := { up.tb with running := true }, now := 2 ^ 60 }),
      _, _, ({ unitKib := 64, extent := 100, tokens := [11], ports := [(0, 2)], units := [(0, 5000)] } : VolSt), rfl, rfl, (by
      delta Dev.reaches; decide +kernel)⟩,
    ⟨0, 1, at0 (dv [(Ix.strReelSel, 0, 1, 5), (Ix.strReelSrc, 1, 5, 32), (Ix.chnSrc, 1, 0, 16), (Ix.itkFs, 1, 0, 1000000000), (Ix.itkMode, 1, 0, 3),
      (Ix.itkLinkState, 1, 0, 5), (Ix.strVolUnitKib, 0, 0, 64), (Ix.strDriveRate, 0, 0, 7000), (Ix.strReelFormat, 0, 5, 2), (Ix.modService, 0, 0, 3),
      (Ix.strSpoolMib, 0, 0, 64), (Ix.chnDepth, 1, 0, 0), (Ix.capChannels, 0, 0, 255), (Ix.capState, 0, 0, 2), (Ix.strReelState, 0, 5, 2)]
      { up with str := { up.str with volume := some ({ unitKib := 64, extent := 100, tokens := [11], ports := [(0, 2)], units := [(0, 5000)] } : VolSt), reels := [(5, { rate := 1000000000000, sources := [0x20], format := 2, extents := [⟨1, 0, 0⟩] })], drives := [(2, { lbas := 1000000000, queues := 2 })] }, cap := { up.cap with allocs := [{ kind := 0x12, num := 0, first := 0, stripes := 2048, map := 255, length := 67108864 }] }, itk := { up.itk with links := [(0, { checked := true, anchor := some 1000 })] }, tb := { up.tb with running := true }, now := 2 ^ 60 }),
      _, _, rfl, rfl, (by delta Dev.reaches; decide +kernel)⟩,
    ⟨0, 1, at0 (dv [(Ix.strReelSel, 0, 1, 5), (Ix.strReelSrc, 1, 5, 32), (Ix.chnSrc, 1, 0, 16), (Ix.itkFs, 1, 0, 1000000000), (Ix.itkMode, 1, 0, 3),
      (Ix.itkLinkState, 1, 0, 5), (Ix.strVolUnitKib, 0, 0, 64), (Ix.strDriveRate, 0, 0, 7000), (Ix.strReelFormat, 0, 5, 2), (Ix.modService, 0, 0, 3),
      (Ix.strSpoolMib, 0, 0, 64), (Ix.chnDepth, 1, 0, 0), (Ix.capChannels, 0, 0, 255), (Ix.capState, 0, 0, 2), (Ix.strReelState, 0, 5, 3)]
      { up with str := { up.str with volume := some ({ unitKib := 64, extent := 100, tokens := [11], ports := [(0, 2)], units := [(0, 5000)] } : VolSt), reels := [(5, { rate := 1000000000000, sources := [0x20], format := 2, extents := [⟨1, 0, 0⟩] })], drives := [(2, { lbas := 1000000000, queues := 2 })] }, cap := { up.cap with allocs := [{ kind := 0x12, num := 0, first := 0, stripes := 2048, map := 255, length := 67108864 }] }, itk := { up.itk with links := [(0, { checked := true, anchor := some 1000 })] }, tb := { up.tb with running := true }, now := 2 ^ 60 }),
      _, _, rfl, rfl, (by delta Dev.reaches; decide +kernel)⟩,
    ⟨0, 5, at0 (dv [(Ix.strReelSel, 0, 1, 5), (Ix.strReelSrc, 1, 5, 32), (Ix.chnSrc, 1, 0, 16), (Ix.itkFs, 1, 0, 1000000000), (Ix.itkMode, 1, 0, 3),
      (Ix.itkLinkState, 1, 0, 5), (Ix.strVolUnitKib, 0, 0, 64), (Ix.strDriveRate, 0, 0, 7000), (Ix.strReelFormat, 0, 5, 2), (Ix.modService, 0, 0, 3),
      (Ix.strSpoolMib, 0, 0, 64), (Ix.chnDepth, 1, 0, 0), (Ix.capChannels, 0, 0, 255), (Ix.capState, 0, 0, 2), (Ix.strReelState, 0, 5, 2)]
      { up with str := { up.str with volume := some ({ unitKib := 64, extent := 100, tokens := [11], ports := [(0, 2)], units := [(0, 5000)] } : VolSt), reels := [(5, { rate := 1000000000000, sources := [0x20, 0x21, 0x22, 0x23, 0x24, 0x25, 0x26, 0x27], format := 1, extents := [⟨1, 0, 0⟩], slot := some 0, store := (List.range 1280).map (fun j => (j, List.replicate 8 (1, 2, 0))) })], drives := [(2, { lbas := 1000000000, queues := 2 })] }, cap := { up.cap with allocs := [{ kind := 0x12, num := 0, first := 0, stripes := 2048, map := 255, length := 67108864 }] }, itk := { up.itk with links := [(0, { checked := true, anchor := some 1000 })] }, tb := { up.tb with running := true }, now := 2 ^ 60 }),
      _,
      ({ rate := 1000000000000, sources := [0x20, 0x21, 0x22, 0x23, 0x24, 0x25, 0x26, 0x27], format := 1, extents := [⟨1, 0, 0⟩], slot := some 0, store := (List.range 1280).map (fun j => (j, List.replicate 8 (1, 2, 0))) }
      : ReelSt), _, ({ unitKib := 64, extent := 100, tokens := [11], ports := [(0, 2)], units := [(0, 5000)] } : VolSt), (⟨1, 0, 0⟩ : Extent), 0, _,
      ({ kind := 0x12, num := 0, first := 0, stripes := 2048, map := 255, length := 67108864 } : Alloc), rfl, rfl, rfl, by decide +kernel⟩,
    ⟨0, 5, at0 (dv [(Ix.strReelSel, 0, 1, 5), (Ix.strReelSrc, 1, 5, 32), (Ix.chnSrc, 1, 0, 16), (Ix.itkFs, 1, 0, 1000000000), (Ix.itkMode, 1, 0, 3),
      (Ix.itkLinkState, 1, 0, 5), (Ix.strVolUnitKib, 0, 0, 64), (Ix.strDriveRate, 0, 0, 7000), (Ix.strReelFormat, 0, 5, 2), (Ix.modService, 0, 0, 3),
      (Ix.strSpoolMib, 0, 0, 0), (Ix.chnDepth, 1, 0, 0), (Ix.capChannels, 0, 0, 255), (Ix.capState, 0, 0, 2), (Ix.strReelState, 0, 5, 2)]
      { up with str := { up.str with volume := some ({ unitKib := 64, extent := 100, tokens := [11], ports := [(0, 2)], units := [(0, 5000)] } : VolSt), reels := [(5, { rate := 1000000000000, sources := [0x20, 0x21, 0x22, 0x23, 0x24, 0x25, 0x26, 0x27], format := 1, extents := [⟨1, 0, 0⟩], store := (List.range 1280).map (fun j => (j, List.replicate 8 (1, 2, 0))) })], drives := [(2, { lbas := 1000000000, queues := 2 })] }, cap := { up.cap with allocs := [{ kind := 0x12, num := 0, first := 0, stripes := 2048, map := 255, length := 67108864 }] }, itk := { up.itk with links := [(0, { checked := true, anchor := some 1000 })] }, tb := { up.tb with running := true }, now := 2 ^ 60 }),
      _,
      ({ rate := 1000000000000, sources := [0x20, 0x21, 0x22, 0x23, 0x24, 0x25, 0x26, 0x27], format := 1, extents := [⟨1, 0, 0⟩], store := (List.range 1280).map (fun j => (j, List.replicate 8 (1, 2, 0))) }
      : ReelSt), _, 1280, rfl, rfl, by decide +kernel⟩,
    ⟨0, 5, at0 (dv [(Ix.strReelSel, 0, 1, 5), (Ix.strReelSrc, 1, 5, 32), (Ix.chnSrc, 1, 0, 16), (Ix.itkFs, 1, 0, 1000000000), (Ix.itkMode, 1, 0, 3),
      (Ix.itkLinkState, 1, 0, 5), (Ix.strVolUnitKib, 0, 0, 64), (Ix.strDriveRate, 0, 0, 7000), (Ix.strReelFormat, 0, 5, 2), (Ix.modService, 0, 0, 3),
      (Ix.strSpoolMib, 0, 0, 64), (Ix.chnDepth, 1, 0, 0), (Ix.capChannels, 0, 0, 255), (Ix.capState, 0, 0, 2), (Ix.strReelState, 0, 5, 3)]
      { up with str := { up.str with volume := some ({ unitKib := 64, extent := 100, tokens := [11], ports := [(0, 2)], units := [(0, 5000)] } : VolSt), reels := [(5, { rate := 1000000000000, sources := [0x20], format := 2, extents := [⟨1, 0, 0⟩] })], drives := [(2, { lbas := 1000000000, queues := 2 })] }, cap := { up.cap with allocs := [{ kind := 0x12, num := 0, first := 0, stripes := 2048, map := 255, length := 67108864 }] }, itk := { up.itk with links := [(0, { checked := true, anchor := some 1000 })] }, tb := { up.tb with running := true }, now := 2 ^ 60 }),
      _, rfl, by decide +kernel⟩,
    ⟨0, 5, at0 (dv [(Ix.strReelSel, 0, 1, 5), (Ix.strReelSrc, 1, 5, 32), (Ix.chnSrc, 1, 0, 16), (Ix.itkFs, 1, 0, 1000000000), (Ix.itkMode, 1, 0, 3),
      (Ix.itkLinkState, 1, 0, 5), (Ix.strVolUnitKib, 0, 0, 64), (Ix.strDriveRate, 0, 0, 7000), (Ix.strReelFormat, 0, 5, 2), (Ix.modService, 0, 0, 3),
      (Ix.strSpoolMib, 0, 0, 64), (Ix.chnDepth, 1, 0, 0), (Ix.capChannels, 0, 0, 255), (Ix.capState, 0, 0, 2)]
      { up with str := { up.str with volume := some ({ unitKib := 64, extent := 100, tokens := [11], ports := [(0, 2)], units := [(0, 5000)] } : VolSt), reels := [(5, { rate := 1000000000000, sources := [0x20], format := 2, extents := [⟨1, 0, 0⟩], starving := some (7, 2), next := 9 })], drives := [(2, { lbas := 1000000000, queues := 2 })] }, cap := { up.cap with allocs := [{ kind := 0x12, num := 0, first := 0, stripes := 2048, map := 255, length := 67108864 }] }, itk := { up.itk with links := [(0, { checked := true, anchor := some 1000 })] }, tb := { up.tb with running := true }, now := 2 ^ 60 }),
      _, ({ rate := 1000000000000, sources := [0x20], format := 2, extents := [⟨1, 0, 0⟩], starving := some (7, 2), next := 9 } : ReelSt), ((7, 2) :
      Nat × Nat), rfl, by decide +kernel⟩,
    ⟨0, 1, 2, at0 (dv [(Ix.modService, 0, 0, 3), (Ix.strPbSrc, 3, 0, 1), (Ix.strPbFs, 3, 0, 100000000000), (Ix.strPbFormat, 3, 0, 2), (Ix.strPbCount,
      3, 0, 100), (Ix.tbIslFreq, 2, 0, 1600000)] { up with now := 2 ^ 60 }), _, 100000000000, 2, _, _, rfl, rfl, rfl, (by
      delta Dev.reaches; decide +kernel)⟩,
    ⟨0, 1, 2, at0 (dv [(Ix.modService, 0, 0, 3)] up), _, rfl, (by delta Dev.reaches; decide +kernel)⟩,
    ⟨0, 1, 2, at0 (dv [(Ix.strPbState, 3, 0, 2), (Ix.strPbSrc, 3, 0, 1), (Ix.modService, 0, 0, 3), (Ix.strPbFormat, 3, 0, 2), (Ix.capChannels, 0, 0,
      255), (Ix.capState, 0, 0, 2)]
      { up with str := { up.str with pbs := [(2, { rate := 1000000000, width := 2, next := 3, count := 10, t0 := 2 ^ 61 })] }, cap := { up.cap with allocs := [{ kind := 0x17, num := 0, first := 0, stripes := 1, map := 255, length := 32768 }] }, tb := { up.tb with running := true }, now := 2 ^ 60 }),
      _, _, rfl, rfl, (by delta Dev.reaches; decide +kernel)⟩,
    ⟨0, 1, 2, at0 (dv [(Ix.strPbState, 3, 0, 2), (Ix.strPbSrc, 3, 0, 1), (Ix.modService, 0, 0, 3), (Ix.strPbFormat, 3, 0, 2), (Ix.capChannels, 0, 0,
      255), (Ix.capState, 0, 0, 2)]
      { up with str := { up.str with pbs := [(2, { rate := 1000000000, width := 2, next := 3, count := 10, t0 := 500 })] }, cap := { up.cap with allocs := [{ kind := 0x17, num := 0, first := 0, stripes := 1, map := 255, length := 32768 }] }, tb := { up.tb with running := true }, now := 2 ^ 60 }),
      _, _, rfl, rfl, (by delta Dev.reaches; decide +kernel)⟩,
    ⟨0, 2, at0 (dv [(Ix.strPbState, 3, 0, 1), (Ix.strPbSrc, 3, 0, 1), (Ix.modService, 0, 0, 3), (Ix.strPbFormat, 3, 0, 2), (Ix.capChannels, 0, 0,
      255), (Ix.capState, 0, 0, 2)]
      { up with str := { up.str with pbs := [(2, { rate := 1000000000, width := 2, next := 3, count := 10, t0 := 500 })] }, cap := { up.cap with allocs := [{ kind := 0x17, num := 0, first := 0, stripes := 1, map := 255, length := 32768 }] }, tb := { up.tb with running := true }, now := 2 ^ 60 }),
      _, rfl, by decide +kernel⟩,
    ⟨0, 2, at0 (dv [(Ix.strPbState, 3, 0, 2), (Ix.strPbSrc, 3, 0, 1), (Ix.modService, 0, 0, 3), (Ix.strPbFormat, 3, 0, 2), (Ix.capChannels, 0, 0,
      255), (Ix.capState, 0, 0, 2), (Ix.strPbLoop, 3, 0, 1)]
      { up with str := { up.str with pbs := [(2, { rate := 1000000000, width := 2, next := 10, count := 10, t0 := 500 })] }, cap := { up.cap with allocs := [{ kind := 0x17, num := 0, first := 0, stripes := 1, map := 255, length := 32768 }] }, tb := { up.tb with running := true }, now := 2 ^ 60 }),
      _, ({ rate := 1000000000, width := 2, next := 10, count := 10, t0 := 500 } : PbSt), rfl, by decide +kernel⟩,
    ⟨0, 2, true, ((1, 2, 0) : Int × Int × Nat), at0 (dv [(Ix.strPbState, 3, 0, 2), (Ix.strPbSrc, 3, 0, 1), (Ix.modService, 0, 0, 3), (Ix.strPbFormat,
      3, 0, 2), (Ix.capChannels, 0, 0, 255), (Ix.capState, 0, 0, 2)]
      { up with str := { up.str with pbs := [(2, { rate := 1000000000, width := 2, next := 3, count := 10, t0 := 500 })] }, cap := { up.cap with allocs := [{ kind := 0x17, num := 0, first := 0, stripes := 1, map := 255, length := 32768 }] }, tb := { up.tb with running := true }, now := 2 ^ 60 }),
      _, ({ rate := 1000000000, width := 2, next := 3, count := 10, t0 := 500 } : PbSt), _, _, rfl, rfl, rfl, by decide +kernel⟩,
    ⟨0, 2, false, ((1, 2, 0) : Int × Int × Nat), at0 (dv [(Ix.strPbState, 3, 0, 2), (Ix.strPbSrc, 3, 0, 1), (Ix.modService, 0, 0, 3), (Ix.strPbFormat,
      3, 0, 2), (Ix.capChannels, 0, 0, 255), (Ix.capState, 0, 0, 2)]
      { up with str := { up.str with pbs := [(2, { rate := 1000000000, width := 2, next := 3, count := 10, t0 := 500 })] }, cap := { up.cap with allocs := [{ kind := 0x17, num := 0, first := 0, stripes := 1, map := 255, length := 32768 }] }, tb := { up.tb with running := true }, now := 2 ^ 60 }),
      _, ({ rate := 1000000000, width := 2, next := 3, count := 10, t0 := 500 } : PbSt), _, _, rfl, rfl, rfl, by decide +kernel⟩,
    ⟨0, 2, at0 (dv [(Ix.strPbState, 3, 0, 2), (Ix.strPbSrc, 3, 0, 1), (Ix.modService, 0, 0, 3), (Ix.strPbFormat, 3, 0, 2), (Ix.capChannels, 0, 0,
      255), (Ix.capState, 0, 0, 2)]
      { up with str := { up.str with pbs := [(2, { rate := 1000000000, width := 2, next := 3, count := 10, t0 := 500, stop := some 400 })] }, cap := { up.cap with allocs := [{ kind := 0x17, num := 0, first := 0, stripes := 1, map := 255, length := 32768 }] }, tb := { up.tb with running := true }, now := 2 ^ 60 }),
      _, ({ rate := 1000000000, width := 2, next := 3, count := 10, t0 := 500, stop := some 400 } : PbSt), 400, rfl, by decide +kernel⟩⟩

/-- Every clause of `Obligations.PllHops` has a state and operands that meet its hypotheses together. -/
theorem test_meets_PllHops :
    (∃ (t pll : _) (s : State) (e : Dev), e = s.dev.at t ∧ isPll pll = true ∧ e.tb.held.contains pll = false ∧ e.tb.relocking.find? pll = none) ∧
    (∃ (t pll : _) (s : State) (e : Dev) (h : HopSt), e = s.dev.at t ∧ isPll pll = true ∧ e.tb.held.contains pll = false ∧ e.tb.relocking.find? pll =
      some h) ∧
    (∃ (t pll kHz : _) (s : State) (e : Dev), e = s.dev.at t ∧ isPll pll = true ∧ e.tb.held.contains pll = true ∧ kHz ≠ 400000) ∧
    (∃ (t pll : _) (s : State) (e : Dev) (h : HopSt), e = s.dev.at t ∧ (pll = 6 ∨ (8 ≤ pll ∧ pll ≤ 0x0C)) ∧ e.tb.relocking.find? pll = some h ∧
      h.queued = []) ∧
    (∃ (t pll : _) (s : State) (e : Dev), e = s.dev.at t ∧ isPll pll = true ∧ e.tb.relocking.find? pll = none) ∧
    (∃ (t pll fails : _) (s : State) (e : Dev), e = s.dev.at t ∧ 1 ≤ pll ∧ pll ≤ 0x0C ∧ fails < 3 ∧ e.sup.emergencies.length < 32) ∧
    (∃ (t pll fails : _) (s : State) (e : Dev), e = s.dev.at t ∧ 1 ≤ pll ∧ pll ≤ 0x0C ∧ 4 ≤ fails ∧ e.sup.emergencies.length < 31) :=
  ⟨⟨0, 2, at0 (up), _, rfl, by decide +kernel⟩,
    ⟨0, 6, at0 ({ up with tb := { up.tb with relocking := [(6, ({ target := 800000, began := 0, entry := some 3, requested := true } : HopSt))] } }),
      _, ({ target := 800000, began := 0, entry := some 3, requested := true } : HopSt), rfl, by decide +kernel⟩,
    ⟨0, 5, 1, at0 ({ up with tb := { up.tb with held := [5] } }), _, rfl, by decide +kernel⟩,
    ⟨0, 6, at0 ({ up with tb := { up.tb with relocking := [(6, ({ target := 800000, began := 0, entry := none, requested := false } : HopSt))] } }),
      _, ({ target := 800000, began := 0, entry := none, requested := false } : HopSt), rfl, by decide +kernel⟩,
    ⟨0, 1, at0 (up), _, rfl, by decide +kernel⟩,
    ⟨0, 1, 2, at0 (up), _, rfl, by decide +kernel⟩,
    ⟨0, 1, 4, at0 (up), _, rfl, by decide +kernel⟩⟩

/-- Every clause of `Obligations.ReferencesAndLoop` has a state and operands that meet its hypotheses together. -/
theorem test_meets_ReferencesAndLoop :
    (∃ (t input cause : _) (s : State) (e : Dev), e = s.dev.at t ∧ input < 2 ∧ (cause = 3 ∨ cause = 4) ∧ e.nI Ix.tbRefState input ≠ 3 ∧ e.nI
      Ix.tbRefState input ≠ 4 ∧ e.nI Ix.tbRefEnable input = 1 ∧ e.n0 Ix.tbRefActive ≠ input ∧ e.n0 Ix.tbLoopState ≠ 3 ∧ e.sup.emergencies.length < 32) ∧
    (∃ (t input cause : _) (s : State) (e : Dev), e = s.dev.at t ∧ input < 2 ∧ (cause = 3 ∨ cause = 4) ∧ e.nI Ix.tbRefState input = 2 ∧ e.n0
      Ix.tbRefActive = input ∧ e.nI Ix.tbRefEnable input = 1 ∧ e.n0 Ix.tbLoopState = 2 ∧ e.refOk (1 - input) = false ∧ e.sup.emergencies.length < 31) ∧
    (∃ (t input : _) (s : State) (e : Dev), e = s.dev.at t ∧ input < 2 ∧ e.nI Ix.tbRefEnable input = 1 ∧ e.nI Ix.tbRefState input ≠ 2 ∧ e.n0
      Ix.tbLoopState = 0) ∧
    (∃ (t input : _) (phi : Int) (s : State) (e : Dev), e = s.dev.at t ∧ input < 2 ∧ e.nI Ix.tbRefEnable input = 1 ∧ e.nI Ix.tbRefState input ≠ 2 ∧
      (e.n0 Ix.tbLoopState = 4 ∨ e.n0 Ix.tbLoopState = 5) ∧ phi ≠ 0 ∧ phi.natAbs < e.n0 Ix.tbStepThreshold) ∧
    (∃ (t : _) (s : State) (e : Dev) (new : _), e = s.dev.at t ∧ new = 1 - min (e.n0 Ix.tbRefActive) 1 ∧ e.n0 Ix.tbLoopState = 3 ∧ e.refOk new = true
      ∧ e.sup.emergencies.length < 32) ∧
    (∃ (t : _) (s : State) (e : Dev), e = s.dev.at t ∧ e.n0 Ix.tbLoopState = 1) ∧
    (∃ (t : _) (s : State) (e : Dev) (p : Int) (w : _), e = s.dev.at t ∧ e.tb.slew = some (p, w) ∧ e.slewLeft = 0) :=
  ⟨⟨0, 1, 3, at0 (dv [(Ix.tbRefEnable, 1, 0, 1), (Ix.tbRefEnable, 2, 0, 1), (Ix.tbRefState, 2, 0, 0), (Ix.tbRefActive, 0, 0, 0), (Ix.tbLoopState, 0,
      0, 0)] up), _, rfl, by decide +kernel⟩,
    ⟨0, 1, 3, at0 (dv [(Ix.tbLoopState, 0, 0, 2), (Ix.tbRefState, 2, 0, 2), (Ix.tbRefActive, 0, 0, 1), (Ix.tbRefEnable, 2, 0, 1)] up), _, rfl,
      by decide +kernel⟩,
    ⟨0, 1, at0 (dv [(Ix.tbLoopState, 0, 0, 0), (Ix.tbRefEnable, 2, 0, 1), (Ix.tbRefState, 2, 0, 0)] up), _, rfl, by decide +kernel⟩,
    ⟨0, 1, (-3 : Int), at0 (dv [(Ix.tbStepThreshold, 0, 0, 1000), (Ix.tbLoopState, 0, 0, 4), (Ix.tbRefEnable, 2, 0, 1), (Ix.tbRefState, 2, 0, 0)] up),
      _, rfl, by decide +kernel⟩,
    ⟨0, at0 (dv [(Ix.tbRefEnable, 2, 0, 1), (Ix.tbRefState, 2, 0, 2), (Ix.tbRefActive, 0, 0, 0), (Ix.tbLoopState, 0, 0, 3)] up), _, _, rfl, rfl,
      by decide +kernel⟩,
    ⟨0, at0 (dv [(Ix.tbLoopState, 0, 0, 1)] up), _, rfl, by decide +kernel⟩,
    ⟨0, at0 (dv [(Ix.tbLoopState, 0, 0, 6)] { up with tb := { up.tb with slew := some (5, 0), running := true }, now := 2 ^ 60 }), _, (5 : Int), 0,
      rfl, by decide +kernel⟩⟩

/-- Every clause of `Obligations.TimeCorrections` has a state and operands that meet its hypotheses together. -/
theorem test_meets_TimeCorrections :
    (∃ (t : _) (s : State) (e : Dev) (stamp near phi : _), e = s.dev.at t ∧ stamp = (e.time96 : Int) - psUnits (e.rd Ix.tbPpsDelay 0 0) ∧ near =
      roundEven stamp two48 ∧ phi = unitsPs (stamp - near * (two48 : Int)) ∧ e.tb.running = true ∧ e.tb.setSec = none ∧ e.timeSource ≠ 1) ∧
    (∃ (t : _) (s : State) (e : Dev) (stamp near phi : _), e = s.dev.at t ∧ stamp = (e.time96 : Int) - psUnits (e.rd Ix.tbPpsDelay 0 0) ∧ near =
      roundEven stamp two48 ∧ phi = unitsPs (stamp - near * (two48 : Int)) ∧ e.tb.running = true ∧ e.tb.setSec = none ∧ e.timeSource = 1 ∧
      e.tb.samples + 1 < e.n0 Ix.tbPpsAvg) ∧
    (∃ (t : _) (s : State) (e : Dev) (stamp near phi m : _), e = s.dev.at t ∧ stamp = (e.time96 : Int) - psUnits (e.rd Ix.tbPpsDelay 0 0) ∧ near =
      roundEven stamp two48 ∧ phi = unitsPs (stamp - near * (two48 : Int)) ∧ m = roundEven (e.tb.sum + phi) (e.tb.samples + 1) ∧ e.tb.running = true ∧
      e.tb.setSec = none ∧ e.timeSource = 1 ∧ e.n0 Ix.tbPpsAvg ≤ e.tb.samples + 1 ∧ m ≠ 0 ∧ m.natAbs < e.n0 Ix.tbPpsStep) ∧
    (∃ (t : _) (s : State) (e : Dev) (stamp near v w : _), e = s.dev.at t ∧ stamp = (e.time96 : Int) - psUnits (e.rd Ix.tbPpsDelay 0 0) ∧ near =
      roundEven stamp two48 ∧ e.tb.running = true ∧ e.tb.setSec = some (1, v, w) ∧ e.joined = false) ∧
    (∃ (t : _) (s : State) (e : Dev), e = s.dev.at t ∧ e.timeSource = 1 ∧ e.tb.running = true ∧ e.sup.emergencies.length < 32) ∧
    (∃ (t dcNs : _) (s : State) (e : Dev) (phi : _), e = s.dev.at t ∧ phi = unitsPs ((e.time96 : Int) - (roundEven ((dcNs * two48 : Nat) : Int)
      1000000000 + e.rd Ix.tbDcOffsetSec 0 0 * (two48 : Int))) ∧ e.timeSource = 2 ∧ e.tb.running = true ∧ 1000000000 % e.sup.cycle = 0 ∧ e.tb.samples
      + 1 < e.n0 Ix.tbPpsAvg) ∧
    (∃ (t path : _) (s : State) (e : Dev), e = s.dev.at t ∧ e.reaches path Ix.tbTimeSetCmd) ∧
    (∃ (t path : _) (s : State) (e : Dev), e = s.dev.at t ∧ e.reaches path Ix.tbTimeSetCmd) ∧
    (∃ (t : _) (s : State) (e : Dev) (delta : Int) (cause : _), e = s.dev.at t ∧ e.setDue = none ∧ e.tb.step = some (delta, cause) ∧ e.tb.running =
      true ∧ e.tb.stepDue ≤ e.time96 ∧ e.sup.emergencies.length < 32) ∧
    (∃ (t path port : _) (s : State) (e : Dev), e = s.dev.at t ∧ port < 4 ∧ e.reaches path Ix.tbSysrefFire ∧ e.nI Ix.tbSysrefMode port = 2) ∧
    (∃ (t path port : _) (s : State) (e : Dev), e = s.dev.at t ∧ port < 4 ∧ 1 ≤ path ∧ path ≤ 4 ∧ e.reaches path Ix.tbSysrefFire ∧ e.nI
      Ix.tbSysrefMode port ≠ 2) :=
  ⟨⟨0, at0 ({ up with tb := { up.tb with running := true, setSec := none } }), _, _, _, _, rfl, rfl, rfl, rfl, by decide +kernel⟩,
    ⟨0, at0 (dv [(Ix.tbPpsAvg, 0, 0, 3), (Ix.tbPpsDelay, 0, 0, 5000), (Ix.tbTimeSrc, 0, 0, 1)]
      { up with now := 2 ^ 50, tb := { up.tb with running := true, setSec := none } }), _, _, _, _, rfl, rfl, rfl, rfl, by decide +kernel⟩,
    ⟨0, at0 (dv [(Ix.tbPpsAvg, 0, 0, 1), (Ix.tbPpsDelay, 0, 0, 5000), (Ix.tbPpsStep, 0, 0, 100000), (Ix.tbTimeSrc, 0, 0, 1)]
      { up with now := 2 ^ 50, tb := { up.tb with running := true, setSec := none } }), _, _, _, _, _, rfl, rfl, rfl, rfl, rfl, by decide +kernel⟩,
    ⟨0, at0 ({ up with tb := { up.tb with setSec := some (1, 100, 5), running := true }, now := 2 ^ 50 }), _, _, _, 100, 5, rfl, rfl, rfl,
      by decide +kernel⟩,
    ⟨0, at0 (dv [(Ix.tbTimeSrc, 0, 0, 1)] { up with tb := { up.tb with running := true } }), _, rfl, by decide +kernel⟩,
    ⟨0, 3000000000, at0 (dv [(Ix.tbPpsAvg, 0, 0, 3), (Ix.tbTimeSrc, 0, 0, 2)] { up with now := 2 ^ 50, tb := { up.tb with running := true } }), _, _,
      rfl, rfl, by decide +kernel⟩,
    ⟨0, 1, at0 (up), _, rfl, (by delta Dev.reaches; decide +kernel)⟩,
    ⟨0, 1, at0 (up), _, rfl, (by delta Dev.reaches; decide +kernel)⟩,
    ⟨0, at0 (dv [(Ix.tbLoopState, 0, 0, 6), (Ix.itkLinkState, 3, 0, 5)]
      { up with tb := { up.tb with step := some (7, 5), gated := true, running := true }, now := 2 ^ 50 }), _, (7 : Int), 5, rfl, by decide +kernel⟩,
    ⟨0, 1, 3, at0 (dv [(Ix.tbSysrefMode, 4, 0, 2)] up), _, rfl, (by delta Dev.reaches; decide +kernel)⟩,
    ⟨0, 1, 3, at0 (dv [(Ix.tbSysrefMode, 4, 0, 0)] up), _, rfl, (by delta Dev.reaches; decide +kernel)⟩⟩

/-- Every clause of `Obligations.IntervalCommands` has a state and operands that meet its hypotheses together. -/
theorem test_meets_IntervalCommands :
    (∃ (t path chan : _) (s : State) (e : Dev), e = s.dev.at t ∧ chan < 10 ∧ e.reaches path Ix.imCmd ∧ e.imState chan = 1 ∧ e.im.suspended = false) ∧
    (∃ (t path chan : _) (s : State) (e : Dev), e = s.dev.at t ∧ chan < 10 ∧ e.reaches path Ix.imCmd ∧ e.imState chan = 1 ∧ e.im.suspended = true) ∧
    (∃ (t path chan : _) (s : State) (e : Dev), e = s.dev.at t ∧ chan < 10 ∧ e.reaches path Ix.imCmd ∧ 1 ≤ path ∧ path ≤ 4 ∧ e.imState chan ≠ 1) ∧
    (∃ (t path chan : _) (s : State) (e : Dev), e = s.dev.at t ∧ chan < 10 ∧ e.reaches path Ix.imCmd ∧ e.imBusy chan = true) ∧
    (∃ (t path chan : _) (s : State) (e : Dev), e = s.dev.at t ∧ chan < 10 ∧ e.reaches path Ix.imCmd ∧ 1 ≤ path ∧ path ≤ 4 ∧ e.imState chan = 1 ∧
      e.sup.emergencies.length < 32) ∧
    (∃ (t path chan : _) (s : State) (e : Dev), e = s.dev.at t ∧ chan < 10 ∧ e.reaches path Ix.imCmd ∧ 1 ≤ path ∧ path ≤ 4 ∧ e.imBusy chan = false ∧
      e.imState chan ≠ 1) ∧
    (∃ (t path chan : _) (s : State) (e : Dev), e = s.dev.at t ∧ chan < 10 ∧ e.reaches path Ix.imCmd ∧ e.imState chan = 1) ∧
    (∃ (t path chan : _) (s : State) (e : Dev), e = s.dev.at t ∧ chan < 10 ∧ e.reaches path Ix.imCmd ∧ 1 ≤ path ∧ path ≤ 4 ∧ e.imState chan ≠ 1) ∧
    (∃ (t path chan : _) (s : State) (e : Dev), e = s.dev.at t ∧ chan < 10 ∧ e.reaches path Ix.imChanEnable ∧ e.imBusy chan = true) ∧
    (∃ (t path chan : _) (s : State) (e : Dev), e = s.dev.at t ∧ chan < 10 ∧ e.reaches path Ix.imChanEnable ∧ e.imBusy chan = false ∧ e.imState chan ≠
      6) ∧
    (∃ (t chan : _) (s : State) (e : Dev) (w : _), e = s.dev.at t ∧ chan < 10 ∧ e.imBusy chan = true ∧ (e.imCh chan).drain = some w ∧ w + us 50 ≤
      e.now) :=
  ⟨⟨0, 1, 9, at0 (dv [(Ix.imChanState, 10, 0, 1)] { up with im := { up.im with suspended := false } }), _, rfl, (by
      delta Dev.reaches; decide +kernel)⟩,
    ⟨0, 1, 9, at0 (dv [(Ix.imChanState, 10, 0, 1)] { up with im := { up.im with suspended := true } }), _, rfl, (by
      delta Dev.reaches; decide +kernel)⟩,
    ⟨0, 1, 9, at0 (dv [(Ix.imChanState, 10, 0, 0)] up), _, rfl, (by delta Dev.reaches; decide +kernel)⟩,
    ⟨0, 1, 9, at0 (dv [(Ix.imChanState, 10, 0, 2)] up), _, rfl, (by delta Dev.reaches; decide +kernel)⟩,
    ⟨0, 1, 9, at0 (dv [(Ix.imChanState, 10, 0, 1)] up), _, rfl, (by delta Dev.reaches; decide +kernel)⟩,
    ⟨0, 1, 9, at0 (dv [(Ix.imChanState, 10, 0, 0)] up), _, rfl, (by delta Dev.reaches; decide +kernel)⟩,
    ⟨0, 1, 9, at0 (dv [(Ix.imChanState, 10, 0, 1)] up), _, rfl, (by delta Dev.reaches; decide +kernel)⟩,
    ⟨0, 1, 9, at0 (dv [(Ix.imChanState, 10, 0, 0)] up), _, rfl, (by delta Dev.reaches; decide +kernel)⟩,
    ⟨0, 1, 9, at0 (dv [(Ix.imChanState, 10, 0, 2)] up), _, rfl, (by delta Dev.reaches; decide +kernel)⟩,
    ⟨0, 1, 9, at0 (dv [(Ix.imChanState, 10, 0, 0)] up), _, rfl, (by delta Dev.reaches; decide +kernel)⟩,
    ⟨0, 9, at0 (dv [(Ix.imChanState, 10, 0, 3)] { up with im := { up.im with chans := [(9, { drain := some 5 })] }, now := 2 ^ 48 }), _, 5, rfl,
      by decide +kernel⟩⟩

/-- Every clause of `Obligations.IntervalMeasurements` has a state and operands that meet its hypotheses together. -/
theorem test_meets_IntervalMeasurements :
    (∃ (t site edge k c1 c2 code : _) (s : State) (e : Dev) (x at_ : _), e = s.dev.at t ∧ x = e.imSite site ∧ at_ = stampAs k c1 c2 code ∧ isSite site
      = true ∧ edge < 2 ∧ site ≠ 0x18 ∧ x.outs = [] ∧ c1 + 900 ≤ c2 ∧ c2 ≤ c1 + 1200 ∧ x.last = none ∧ (∀ ch < 10, e.imBusy ch = false)) ∧
    (∃ (t site edge k c1 c2 code : _) (s : State) (e : Dev) (x : _) (w : Int), e = s.dev.at t ∧ x = e.imSite site ∧ isSite site = true ∧ edge < 2 ∧
      x.outs = [] ∧ c1 + 900 ≤ c2 ∧ c2 ≤ c1 + 1200 ∧ x.last = some w ∧ e.siteHoldoff site ≠ 0 ∧ stampAs k c1 c2 code - w ≤ (e.siteHoldoff site : Nat)
      * asNs) ∧
    (∃ (t site edge k c1 c2 code : _) (s : State) (e : Dev) (x at_ ch : _), e = s.dev.at t ∧ x = e.imSite site ∧ at_ = stampAs k c1 c2 code ∧ 0x1A ≤
      site ∧ site ≤ 0x2E ∧ edge < 2 ∧ x.outs = [] ∧ c1 + 900 ≤ c2 ∧ c2 ≤ c1 + 1200 ∧ x.last = none ∧ ch < 10 ∧ (∀ c < 10, c ≠ ch → e.imBusy c = false)
      ∧ e.imState ch = 2 ∧ (e.imCh ch).cfg.startSrc = site ∧ (e.imCh ch).cfg.stopSrc ≠ site ∧ edgeIs (e.imCh ch).cfg.startEdge edge = true ∧ (e.imCh
      ch).cfg.mode ≠ 2 ∧ (e.imCh ch).dead ≤ at_ ∧ (e.imCh ch).stops = []) ∧
    (∃ (t site edge k c1 c2 code : _) (s : State) (e : Dev) (x at_ ch v : _) (w : Int), e = s.dev.at t ∧ x = e.imSite site ∧ at_ = stampAs k c1 c2
      code ∧ v = at_ - w - (e.imCh ch).shift ∧ 0x1A ≤ site ∧ site ≤ 0x2E ∧ edge < 2 ∧ x.outs = [] ∧ c1 + 900 ≤ c2 ∧ c2 ≤ c1 + 1200 ∧ x.last = none ∧
      ch < 10 ∧ (∀ c < 10, c ≠ ch → e.imBusy c = false) ∧ e.imState ch = 3 ∧ (e.imCh ch).cfg.stopSrc = site ∧ edgeIs (e.imCh ch).cfg.stopEdge edge =
      true ∧ (e.imCh ch).cfg.mode = 0 ∧ (e.imCh ch).start = some w ∧ (e.imCh ch).cfg.accepts v = true ∧ 4000000 ≤ v ∧ (e.imCh ch).cfg.ring = noRing ∧
      (e.imCh ch).cfg.again = false ∧ (e.imCh ch).drain = none) ∧
    (∃ (t chan : _) (s : State) (e : Dev) (x : _) (st : Int), e = s.dev.at t ∧ x = e.imCh chan ∧ chan < 10 ∧ x.start = some st ∧ e.imState chan = 3 ∧
      st + x.shift + (x.cfg.winClose : Int) * asClock ≤ e.asNow ∧ x.cfg.mode = 0 ∧ x.cfg.ring = noRing ∧ x.cfg.again = false ∧ x.drain = none) ∧
    (∃ (t chan : _) (s : State) (e : Dev) (x : _) (g : Int), e = s.dev.at t ∧ x = e.imCh chan ∧ (chan = 8 ∨ chan = 9) ∧ e.imState chan = 2 ∧
      x.cfg.mode = 2 ∧ x.gateDue = some g ∧ g ≤ e.asNow) ∧
    (∃ (t chan : _) (s : State) (e : Dev) (x : _) (g : ImGate), e = s.dev.at t ∧ x = e.imCh chan ∧ (chan = 8 ∨ chan = 9) ∧ x.gate = some g ∧ g.g +
      g.shift + (g.ns : Int) * asNs ≤ e.asNow ∧ x.cfg.again = false ∧ x.drain = none) ∧
    (∃ (t chan : _) (s : State) (e : Dev) (x : _) (g : ImGate) (rest : List ImGate), e = s.dev.at t ∧ x = e.imCh chan ∧ (∃ y, g.slope = some y) ∧
      (chan = 8 ∨ chan = 9) ∧ x.gates = g :: rest ∧ x.cfg.ring = noRing) ∧
    (∃ (t chan : _) (s : State) (e : Dev) (x : _) (g : ImGate) (rest : _), e = s.dev.at t ∧ x = e.imCh chan ∧ (chan = 8 ∨ chan = 9) ∧ x.gates = g ::
      rest ∧ g.slope = none ∧ x.cfg.ring = noRing) :=
  ⟨⟨0, 25, 1, 3000, 100, 1100, 600, at0 (up), _, _, _, rfl, rfl, rfl, by decide +kernel⟩,
    ⟨0, 16, 1, 3000, 100, 1100, 600, at0 (dv [(Ix.imInHoldoff, 1, 0, 5)]
      { up with im := { up.im with sites := [(16, { last := some 3748000000000 })] } }), _, _, (3748000000000 : Int), rfl, rfl, by decide +kernel⟩,
    ⟨0, 46, 1, 3000, 100, 1100, 600, at0 (dv [(Ix.imChanState, 10, 0, 2)]
      { up with im := { up.im with chans := [(9, { cfg := { startSrc := 0x2E, startEdge := 1 } })] } }), _, _, _, 9, rfl, rfl, rfl, by decide +kernel⟩,
    ⟨0, 26, 1, 3000, 100, 1100, 600, at0 (dv [(Ix.imChanState, 1, 0, 3)]
      { up with im := { up.im with chans := [(0, { cfg := { stopSrc := 0x1A, stopEdge := 2 }, start := some 3000000000000 })] } }), _, _, _, 0, _,
      (3000000000000 : Int), rfl, rfl, rfl, rfl, by decide +kernel⟩,
    ⟨0, 9, at0 (dv [(Ix.imChanState, 10, 0, 3)]
      { up with im := { up.im with chans := [(9, { cfg := { winClose := 3 }, start := some 0 })] }, now := 2 ^ 48, tb := { up.tb with running := true } }),
      _, _, (0 : Int), rfl, rfl, by decide +kernel⟩,
    ⟨0, 9, at0 (dv [(Ix.imChanState, 10, 0, 2)]
      { up with im := { up.im with chans := [(9, { cfg := { mode := 2 } })] }, now := 2 ^ 48, tb := { up.tb with running := true } }), _, _,
      (1000000000000 : Int), rfl, rfl, by decide +kernel⟩,
    ⟨0, 8, at0 (dv [(Ix.imChanState, 9, 0, 4)]
      { up with im := { up.im with chans := [(8, { gate := some ({ g := 0, ns := 1000, ticks := 4, used := 2, edges := 5, st := 1000, sc := 6, stt := 1000000, stc := 5000, scc := 26 } : ImGate) })] }, now := 2 ^ 48, tb := { up.tb with running := true } }),
      _, _, ({ g := 0, ns := 1000, ticks := 4, used := 2, edges := 5, st := 1000, sc := 6, stt := 1000000, stc := 5000, scc := 26 } : ImGate), rfl,
      rfl, by decide +kernel⟩,
    ⟨0, 8, at0
      ({ up with im := { up.im with chans := [(8, { gates := [({ g := 0, ns := 1000, ticks := 4, used := 2, edges := 5, st := 1000, sc := 6, stt := 1000000, stc := 5000, scc := 26 } : ImGate)] })] } }),
      _, _, ({ g := 0, ns := 1000, ticks := 4, used := 2, edges := 5, st := 1000, sc := 6, stt := 1000000, stc := 5000, scc := 26 } : ImGate), ([] :
      List ImGate), rfl, rfl, Option.isSome_iff_exists.mp (by decide +kernel), by decide +kernel⟩,
    ⟨0, 9, at0
      ({ up with im := { up.im with chans := [(9, { gates := [({ g := 0, ns := 1000, ticks := 4 } : ImGate), ({ g := 0, ns := 1000, ticks := 4, used := 2, edges := 5, st := 1000, sc := 6, stt := 1000000, stc := 5000, scc := 26 } : ImGate)] })] } }),
      _, _, ({ g := 0, ns := 1000, ticks := 4 } : ImGate),
      [({ g := 0, ns := 1000, ticks := 4, used := 2, edges := 5, st := 1000, sc := 6, stt := 1000000, stc := 5000, scc := 26 } : ImGate)], rfl, rfl,
      by decide +kernel⟩⟩

/-- Every clause of `Obligations.FabricPortsAndLinkStates` has a state and operands that meet its hypotheses together. -/
theorem test_meets_FabricPortsAndLinkStates :
    (∃ (t port : _) (s : State) (e : Dev), e = s.dev.at t ∧ port < 4 ∧ (e.portState port = 1 ∨ e.portState port = 5) ∧ e.boot.failed.contains (0x200 +
      port) = false) ∧
    (∃ (t port : _) (s : State) (e : Dev), e = s.dev.at t ∧ port < 4 ∧ (e.portState port = 2 ∨ e.portState port = 3 ∨ e.portState port = 4) ∧
      (e.cfPort port).helloTx = none) ∧
    (∃ (t port : _) (s : State) (e : Dev) (w : _), e = s.dev.at t ∧ port < 4 ∧ (e.cfPort port).helloTx = some w ∧ e.now < w + us 100) ∧
    (∃ (t port w0 w1 body : _) (s : State) (e : Dev) (p : CfPkt), e = s.dev.at t ∧ port < 4 ∧ pktOf w0 w1 body = some p ∧ p.kind = 0x30 ∧ e.portState
      port = 2 ∧ e.cf.suspended = false ∧ e.helloRefusal port p = none ∧ e.fullService = true ∧ bitsOf 23 16 (p.word 1) = 3) ∧
    (∃ (t port w0 w1 body : _) (s : State) (e : Dev) (p : CfPkt) (c : _), e = s.dev.at t ∧ port < 4 ∧ pktOf w0 w1 body = some p ∧ p.kind = 0x30 ∧
      e.portState port = 2 ∧ e.cf.suspended = false ∧ e.helloRefusal port p = some c ∧ e.sup.emergencies.length < 32) ∧
    (∃ (t port : _) (s : State) (e : Dev), e = s.dev.at t ∧ port < 4 ∧ (e.portState port = 2 ∨ e.portState port = 3 ∨ e.portState port = 4) ∧
      e.sup.emergencies.length < 32) ∧
    (∃ (t port n : _) (s : State) (e : Dev), e = s.dev.at t ∧ port < 4 ∧ n ≤ 16) ∧
    (∃ (t : _) (s : State) (e : Dev), e = s.dev.at t ∧ e.n0 Ix.cfState = 4 ∧ e.cf.floodDue = true) ∧
    (∃ (t : _) (s : State) (e : Dev) (w : _), e = s.dev.at t ∧ e.cf.floodDue = false ∧ e.cf.floodAt = some w ∧ e.now < w + ms 10) ∧
    (∃ (t port w0 w1 body : _) (s : State) (e : Dev) (p : CfPkt), e = s.dev.at t ∧ port < 4 ∧ pktOf w0 w1 body = some p ∧ p.kind = 0x31 ∧ e.portState
      port = 3 ∧ p.origin ≠ e.slotIdent ∧ e.cf.suspended = false ∧ (e.cfDist e.slotIdent).find? p.origin = none ∧ (e.cf.nodes.get {} p.origin).seq ≠
      p.word 0 % two48) ∧
    (∃ (t port w0 w1 body : _) (s : State) (e : Dev) (p : CfPkt), e = s.dev.at t ∧ port < 4 ∧ pktOf w0 w1 body = some p ∧ p.kind = 0x31 ∧ e.n0
      Ix.cfState ≠ 2 ∧ ((e.cfDist e.slotIdent).find? p.origin).isSome = true ∧ p.word 0 % two48 < (e.cfNode p.origin).seq) :=
  ⟨⟨0, 3, at0 (dv [(Ix.cfPortState, 4, 0, 1)] up), _, rfl, by decide +kernel⟩,
    ⟨0, 3, at0 (dv [(Ix.cfPortState, 4, 0, 2)] up), _, rfl, by decide +kernel⟩,
    ⟨0, 3, at0 ({ up with cf := { up.cf with ports := [(3, { helloTx := some 5 })] }, now := 6 }), _, 5, rfl, by decide +kernel⟩,
    ⟨0, 3, ({ kind := 0x30, origin := 32, body := wordsBody [99, 1 * 2 ^ 40 + 7 * 2 ^ 32 + 2 * 2 ^ 24 + 3 * 2 ^ 16 + 32, 4] } : CfPkt).word0,
      ({ kind := 0x30, origin := 32, body := wordsBody [99, 1 * 2 ^ 40 + 7 * 2 ^ 32 + 2 * 2 ^ 24 + 3 * 2 ^ 16 + 32, 4] } : CfPkt).word1,
      ({ kind := 0x30, origin := 32, body := wordsBody [99, 1 * 2 ^ 40 + 7 * 2 ^ 32 + 2 * 2 ^ 24 + 3 * 2 ^ 16 + 32, 4] } : CfPkt).body, at0 (dv
      [(Ix.cfPortState, 4, 0, 2), (Ix.modService, 0, 0, 3)] { up with cf := { up.cf with detours := [3], suspended := false } }), _,
      ({ kind := 0x30, origin := 32, body := wordsBody [99, 1 * 2 ^ 40 + 7 * 2 ^ 32 + 2 * 2 ^ 24 + 3 * 2 ^ 16 + 32, 4] } : CfPkt), rfl,
      by decide +kernel⟩,
    ⟨0, 3, ({ kind := 0x30, origin := 32, body := wordsBody [99, 1 * 2 ^ 40 + 33, 4] } : CfPkt).word0,
      ({ kind := 0x30, origin := 32, body := wordsBody [99, 1 * 2 ^ 40 + 33, 4] } : CfPkt).word1,
      ({ kind := 0x30, origin := 32, body := wordsBody [99, 1 * 2 ^ 40 + 33, 4] } : CfPkt).body, at0 (dv [(Ix.cfPortState, 4, 0, 2)]
      { up with cf := { up.cf with suspended := false } }), _, ({ kind := 0x30, origin := 32, body := wordsBody [99, 1 * 2 ^ 40 + 33, 4] } : CfPkt),
      Code.cfCabling, rfl, by decide +kernel⟩,
    ⟨0, 3, at0 (dv [(Ix.cfPortState, 4, 0, 2)] up), _, rfl, by decide +kernel⟩,
    ⟨0, 3, 16, at0 (up), _, rfl, by decide +kernel⟩,
    ⟨0, at0 (dv [(Ix.cfState, 0, 0, 4)] { up with cf := { up.cf with floodDue := true } }), _, rfl, by decide +kernel⟩,
    ⟨0, at0 ({ up with cf := { up.cf with floodAt := some 5, floodDue := false }, now := 6 }), _, 5, rfl, by decide +kernel⟩,
    ⟨0, 3, ({ kind := 0x31, origin := 5, body := wordsBody [4, 0x3020] } : CfPkt).word0, ({ kind := 0x31, origin := 5, body := wordsBody [4, 0x3020] }
      : CfPkt).word1, ({ kind := 0x31, origin := 5, body := wordsBody [4, 0x3020] } : CfPkt).body, at0 (dv [(Ix.cfPortState, 4, 0, 3)]
      { up with cf := { up.cf with suspended := false } }), _, ({ kind := 0x31, origin := 5, body := wordsBody [4, 0x3020] } : CfPkt), rfl,
      by decide +kernel⟩,
    ⟨0, 3, ({ kind := 0x31, origin := 1, body := wordsBody [4, 0x3020] } : CfPkt).word0, ({ kind := 0x31, origin := 1, body := wordsBody [4, 0x3020] }
      : CfPkt).word1, ({ kind := 0x31, origin := 1, body := wordsBody [4, 0x3020] } : CfPkt).body, at0 (dv [(Ix.cfPortState, 1, 0, 3),
      (Ix.cfNeighbour, 1, 0, 1), (Ix.cfPortState, 4, 0, 3), (Ix.cfState, 0, 0, 0)]
      { up with cf := { up.cf with nodes := [(1, { seq := 9, ports := [(3, 0), (3, 0), (1, 0), (1, 0)] })] } }), _,
      ({ kind := 0x31, origin := 1, body := wordsBody [4, 0x3020] } : CfPkt), rfl, by decide +kernel⟩⟩

/-- Every clause of `Obligations.KeystoneAndSystemTime` has a state and operands that meet its hypotheses together. -/
theorem test_meets_KeystoneAndSystemTime :
    (∃ (t : _) (s : State) (e : Dev), e = s.dev.at t ∧ e.joined = true ∧ e.n0 Ix.cfKeystonePrio ≠ 0 ∧ e.slotIdent < 1024 ∧ (∀ k, e.cf.key = some k →
      keyBetter (e.n0 Ix.cfKeystonePrio, e.slotIdent) k = true)) ∧
    (∃ (t port w0 w1 body : _) (s : State) (e : Dev) (p : CfPkt), e = s.dev.at t ∧ port < 4 ∧ pktOf w0 w1 body = some p ∧ p.kind = 0x32 ∧ e.portState
      port = 3 ∧ p.origin ≠ e.slotIdent ∧ e.cf.suspended = false ∧ bitsOf 47 40 (p.word 0) ≠ 0 ∧ (∀ k, e.cf.key = some k → keyBetter (bitsOf 47 40
      (p.word 0), p.word 0 % 1024) k = true)) ∧
    (∃ (t port w0 w1 body : _) (s : State) (e : Dev) (p : CfPkt), e = s.dev.at t ∧ port < 4 ∧ pktOf w0 w1 body = some p ∧ p.kind = 0x32 ∧ e.portState
      port = 3 ∧ p.origin ≠ e.slotIdent ∧ e.cf.suspended = false ∧ bitsOf 47 40 (p.word 0) = 0) ∧
    (∃ (t port : _) (s : State) (e : Dev), e = s.dev.at t ∧ port < 4 ∧ e.portState port = 3 ∧ e.fullService = true ∧ e.cf.suspended = false) ∧
    (∃ (t port : _) (s : State) (e : Dev) (q dep : _) (l : List (Nat × Nat)), e = s.dev.at t ∧ port < 4 ∧ e.portState port = 3 ∧ e.fullService = true
      ∧ e.cf.suspended = false ∧ (e.cfPort port).departed = (q, dep) :: l) ∧
    (∃ (t port dir : _) (s : State) (e : Dev), e = s.dev.at t ∧ port < 4 ∧ dir < 2 ∧ e.portState port ≠ 3) ∧
    (∃ (t port w0 w1 body : _) (s : State) (e : Dev) (p : CfPkt) (seq arr dep : Nat) (l : List (Nat × Nat)), e = s.dev.at t ∧ port < 4 ∧ pktOf w0 w1
      body = some p ∧ p.kind = 0x11 ∧ e.portState port = 3 ∧ p.origin ≠ e.slotIdent ∧ e.cf.suspended = false ∧ (e.cfPort port).arrived = some (seq,
      arr) ∧ (e.cfPort port).departed = (p.seq, dep) :: l ∧ roundEven ((p.timeAt 0 * 1000000 : Nat) : Int) two48 % 2 ^ 24 = (seq : Int)) ∧
    (∃ (t : _) (ppb : Int) (s : State) (e : Dev) (avg : _), e = s.dev.at t ∧ avg = e.thetaPs ∧ e.joined = true ∧ e.n0 Ix.cfTimeParent < 4 ∧ e.n0
      Ix.cfTimeAvg ≤ e.cf.samples ∧ ppb.natAbs ≤ 100 ∧ avg ≠ 0 ∧ avg.natAbs < e.n0 Ix.cfTimeStep) ∧
    (∃ (t : _) (s : State) (e : Dev) (avg : _), e = s.dev.at t ∧ avg = e.thetaPs ∧ e.n0 Ix.cfState = 3 ∧ e.n0 Ix.cfTimeParent < 4 ∧ 16 ≤ e.cf.samples
      ∧ e.cf.joinStep = false) ∧
    (∃ (t port w0 w1 body : _) (s : State) (e : Dev) (p : CfPkt), e = s.dev.at t ∧ port < 4 ∧ pktOf w0 w1 body = some p ∧ p.kind = 0x12 ∧ e.portState
      port = 3 ∧ p.origin ≠ e.slotIdent ∧ e.cf.suspended = false ∧ e.joined = true) :=
  ⟨⟨0, at0 (dv [(Ix.cfKeystonePrio, 0, 0, 9), (Ix.cfPortState, 2, 0, 3), (Ix.cfState, 0, 0, 4), (Ix.modService, 0, 0, 3)] up), _, rfl,
      by decide +kernel⟩,
    ⟨0, 3, ({ kind := 0x32, origin := 5, body := wordsBody [7 * 2 ^ 40 + 5, 2] } : CfPkt).word0,
      ({ kind := 0x32, origin := 5, body := wordsBody [7 * 2 ^ 40 + 5, 2] } : CfPkt).word1,
      ({ kind := 0x32, origin := 5, body := wordsBody [7 * 2 ^ 40 + 5, 2] } : CfPkt).body, at0 (dv [(Ix.cfPortState, 4, 0, 3)]
      { up with cf := { up.cf with suspended := false } }), _, ({ kind := 0x32, origin := 5, body := wordsBody [7 * 2 ^ 40 + 5, 2] } : CfPkt), rfl,
      by decide +kernel⟩,
    ⟨0, 3, ({ kind := 0x32, origin := 5, body := wordsBody [5, 2] } : CfPkt).word0, ({ kind := 0x32, origin := 5, body := wordsBody [5, 2] } :
      CfPkt).word1, ({ kind := 0x32, origin := 5, body := wordsBody [5, 2] } : CfPkt).body, at0 (dv [(Ix.cfPortState, 4, 0, 3)]
      { up with cf := { up.cf with suspended := false } }), _, ({ kind := 0x32, origin := 5, body := wordsBody [5, 2] } : CfPkt), rfl,
      by decide +kernel⟩,
    ⟨0, 3, at0 (dv [(Ix.modService, 0, 0, 3), (Ix.cfPortState, 4, 0, 3)] { up with cf := { up.cf with suspended := false } }), _, rfl,
      by decide +kernel⟩,
    ⟨0, 3, at0 (dv [(Ix.cfPortState, 4, 0, 3), (Ix.modService, 0, 0, 3)]
      { up with cf := { up.cf with ports := [(3, { departed := [(1, 77)] })], suspended := false } }), _, 1, 77, ([] : List (Nat × Nat)), rfl,
      by decide +kernel⟩,
    ⟨0, 3, 1, at0 (dv [(Ix.cfTimeParent, 0, 0, 3), (Ix.cfPortState, 4, 0, 0)]
      { up with cf := { up.cf with ports := [(3, { arrived := some (3000000, 3 * two48 + 500), departed := [(9, 400)] })] } }), _, rfl,
      by decide +kernel⟩,
    ⟨0, 3, ({ kind := 0x11, origin := 5, seq := 9, body := wordsBody [3, 100, 0, 300, 0] } : CfPkt).word0,
      ({ kind := 0x11, origin := 5, seq := 9, body := wordsBody [3, 100, 0, 300, 0] } : CfPkt).word1,
      ({ kind := 0x11, origin := 5, seq := 9, body := wordsBody [3, 100, 0, 300, 0] } : CfPkt).body, at0 (dv [(Ix.cfTimeParent, 0, 0, 3),
      (Ix.cfPortState, 4, 0, 3)]
      { up with cf := { up.cf with ports := [(3, { arrived := some (3000000, 3 * two48 + 500), departed := [(9, 400)] })], suspended := false } }), _,
      ({ kind := 0x11, origin := 5, seq := 9, body := wordsBody [3, 100, 0, 300, 0] } : CfPkt), 3000000, (3 * two48 + 500), 400, ([] : List (Nat ×
      Nat)), rfl, by decide +kernel⟩,
    ⟨0, (-100 : Int), at0 (dv [(Ix.cfTimeParent, 0, 0, 3), (Ix.cfTimeAvg, 0, 0, 2), (Ix.cfState, 0, 0, 4), (Ix.modService, 0, 0, 3), (Ix.cfTimeStep,
      0, 0, 1000000)] { up with cf := { up.cf with theta := 5000, samples := 2 }, now := 2 ^ 60 }), _, _, rfl, rfl, by decide +kernel⟩,
    ⟨0, at0 (dv [(Ix.cfTimeParent, 0, 0, 3), (Ix.cfState, 0, 0, 3)]
      { up with cf := { up.cf with theta := 5000, samples := 16, joinStep := false }, now := 2 ^ 60 }), _, _, rfl, rfl, by decide +kernel⟩,
    ⟨0, 3, ({ kind := 0x12, origin := 5, body := wordsBody [5, 2, 0] } : CfPkt).word0, ({ kind := 0x12, origin := 5, body := wordsBody [5, 2, 0] } :
      CfPkt).word1, ({ kind := 0x12, origin := 5, body := wordsBody [5, 2, 0] } : CfPkt).body, at0 (dv [(Ix.cfState, 0, 0, 4), (Ix.modService, 0, 0,
      3), (Ix.cfPortState, 4, 0, 3)] { up with cf := { up.cf with suspended := false } }), _,
      ({ kind := 0x12, origin := 5, body := wordsBody [5, 2, 0] } : CfPkt), rfl, by decide +kernel⟩⟩

/-- Every clause of `Obligations.JoiningLeavingPreparing` has a state and operands that meet its hypotheses together. -/
theorem test_meets_JoiningLeavingPreparing :
    (∃ (t path : _) (s : State) (e : Dev), e = s.dev.at t ∧ e.reaches path Ix.cfCmd ∧ e.fullService = true ∧ (e.n0 Ix.cfState = 0 ∨ e.n0 Ix.cfState =
      6) ∧ e.n0 Ix.tbTimeSrc = 3 ∧ e.mayDrive = true ∧ (∀ k < 2, e.nI Ix.hwBypassForce k ≠ 1 ∧ (e.nI Ix.hwBypassState k = 0 ∨ e.nI Ix.hwBypassState k
      = 3))) ∧
    (∃ (t path : _) (s : State) (e : Dev), e = s.dev.at t ∧ e.reaches path Ix.cfCmd ∧ 1 ≤ path ∧ path ≤ 4 ∧ e.fullService = true ∧ e.n0 Ix.cfState ≠ 0
      ∧ e.n0 Ix.cfState ≠ 6) ∧
    (∃ (t path : _) (s : State) (e : Dev), e = s.dev.at t ∧ e.reaches path Ix.cfCmd ∧ 1 ≤ path ∧ path ≤ 4 ∧ e.fullService = true ∧ e.n0 Ix.cfState = 0
      ∧ e.n0 Ix.tbTimeSrc ≠ 3) ∧
    (∃ (t : _) (s : State) (e : Dev), e = s.dev.at t ∧ e.n0 Ix.cfState = 0 ∧ e.boot.autoJoin = 1 ∧ e.service ≠ 0 ∧ e.n0 Ix.tbTimeSrc = 3 ∧ e.mayDrive
      = true ∧ e.boot.autoDone = false ∧ e.n0 Ix.pwrState = 3 ∧ e.pwr.entering = none ∧ (∀ k < 2, e.nI Ix.hwBypassForce k ≠ 1 ∧ (e.nI Ix.hwBypassState
      k = 0 ∨ e.nI Ix.hwBypassState k = 3))) ∧
    (∃ (t : _) (s : State) (e : Dev), e = s.dev.at t ∧ e.n0 Ix.cfState = 0 ∧ e.boot.autoJoin = 1 ∧ e.service ≠ 0 ∧ e.n0 Ix.tbTimeSrc ≠ 3 ∧
      e.cf.blocked = false ∧ e.boot.autoDone = false ∧ e.n0 Ix.pwrState = 3 ∧ e.pwr.entering = none ∧ e.sup.emergencies.length < 32) ∧
    (∃ (t : _) (s : State) (e : Dev), e = s.dev.at t ∧ (e.n0 Ix.cfState = 1 ∨ e.n0 Ix.cfState = 2 ∨ e.n0 Ix.cfState = 3)) ∧
    (∃ (t : _) (s : State) (e : Dev), e = s.dev.at t ∧ (e.n0 Ix.cfState = 2 ∨ e.n0 Ix.cfState = 3) ∧ e.cf.key = none ∧ (e.cfDist e.slotIdent).length =
      1 ∧ e.fullService = true) ∧
    (∃ (t path : _) (s : State) (e : Dev), e = s.dev.at t ∧ e.reaches path Ix.cfCmd ∧ e.fullService = true ∧ e.n0 Ix.cfState ≠ 5 ∧ (e.nI
      Ix.hwBypassState 0 = 1 ∨ e.nI Ix.hwBypassState 0 = 2) ∧ e.cf.leaveAt = none) ∧
    (∃ (t path : _) (s : State) (e : Dev), e = s.dev.at t ∧ e.reaches path Ix.cfCmd ∧ 1 ≤ path ∧ path ≤ 4 ∧ e.fullService = true ∧ e.n0 Ix.cfState = 5
      ∧ e.sup.emergencies.length < 32) ∧
    (∃ (t : _) (s : State) (e : Dev) (w : _), e = s.dev.at t ∧ e.cf.leaveAt = some w ∧ w + us 50 ≤ e.now) ∧
    (∃ (t path : _) (s : State) (e : Dev) (slot : _) (n : CfNode), e = s.dev.at t ∧ slot = e.n0 Ix.cfCmdSlot ∧ e.reaches path Ix.cfCmd ∧ e.joined =
      true ∧ slot ≠ e.slotIdent ∧ e.cf.nodes.find? slot = some n ∧ (e.cfDist e.slotIdent).find? slot = none ∧ e.cf.avoided = [] ∧ e.cf.prepared = []) ∧
    (∃ (t path : _) (s : State) (e : Dev) (slot : _), e = s.dev.at t ∧ slot = e.n0 Ix.cfCmdSlot ∧ e.reaches path Ix.cfCmd ∧ 1 ≤ path ∧ path ≤ 4 ∧
      e.joined = true ∧ slot ≠ e.slotIdent ∧ e.cf.nodes.find? slot = none) ∧
    (∃ (t path : _) (s : State) (e : Dev) (slot w : _), e = s.dev.at t ∧ slot = e.n0 Ix.cfCmdSlot ∧ e.reaches path Ix.cfCmd ∧ e.joined = true ∧
      e.cf.prepared = [(slot, w)] ∧ e.cf.avoided = [slot]) ∧
    (∃ (t path : _) (s : State) (e : Dev), e = s.dev.at t ∧ e.reaches path Ix.cfCmd ∧ 1 ≤ path ∧ path ≤ 4 ∧ e.joined = true ∧ e.cf.prepared = []) ∧
    (∃ (t slot : _) (s : State) (e : Dev) (w : _), e = s.dev.at t ∧ e.cf.prepared = [(slot, w)] ∧ e.cf.avoided = [slot] ∧ w + 120 * sec ≤ e.now ∧
      e.sup.emergencies.length < 32) :=
  ⟨⟨0, 1, at0 (dv [(Ix.modService, 0, 0, 3), (Ix.cfState, 0, 0, 0), (Ix.tbTimeSrc, 0, 0, 3)] { up with hw := { up.hw with v12Good := true } }), _,
      rfl, (by delta Dev.reaches; decide +kernel)⟩,
    ⟨0, 1, at0 (dv [(Ix.modService, 0, 0, 3), (Ix.cfState, 0, 0, 1)] up), _, rfl, (by delta Dev.reaches; decide +kernel)⟩,
    ⟨0, 1, at0 (dv [(Ix.modService, 0, 0, 3), (Ix.cfState, 0, 0, 0), (Ix.tbTimeSrc, 0, 0, 0)] up), _, rfl, (by delta Dev.reaches; decide +kernel)⟩,
    ⟨0, at0 (dv [(Ix.pwrState, 0, 0, 3), (Ix.modService, 0, 0, 3), (Ix.tbTimeSrc, 0, 0, 3), (Ix.cfState, 0, 0, 0)]
      { up with hw := { up.hw with v12Good := true, pwrGood := true }, boot := { up.boot with autoJoin := 1, autoDone := false }, pwr := { up.pwr with entering := none } }),
      _, rfl, by decide +kernel⟩,
    ⟨0, at0 (dv [(Ix.pwrState, 0, 0, 3), (Ix.modService, 0, 0, 3), (Ix.tbTimeSrc, 0, 0, 1), (Ix.cfState, 0, 0, 0)]
      { up with boot := { up.boot with autoJoin := 1, autoDone := false }, cf := { up.cf with blocked := false }, pwr := { up.pwr with entering := none } }),
      _, rfl, by decide +kernel⟩,
    ⟨0, at0 (dv [(Ix.cfState, 0, 0, 1)] up), _, rfl, by decide +kernel⟩,
    ⟨0, at0 (dv [(Ix.cfState, 0, 0, 2), (Ix.modService, 0, 0, 3)] { up with cf := { up.cf with key := none } }), _, rfl, by decide +kernel⟩,
    ⟨0, 1, at0 (dv [(Ix.modService, 0, 0, 3), (Ix.hwBypassState, 1, 0, 1), (Ix.cfState, 0, 0, 0)] { up with cf := { up.cf with leaveAt := none } }),
      _, rfl, (by delta Dev.reaches; decide +kernel)⟩,
    ⟨0, 1, at0 (dv [(Ix.modService, 0, 0, 3), (Ix.cfState, 0, 0, 5)] up), _, rfl, (by delta Dev.reaches; decide +kernel)⟩,
    ⟨0, at0 (dv [(Ix.hwBypassState, 1, 0, 2), (Ix.hwBypassState, 2, 0, 2)] { up with now := 2 ^ 48, cf := { up.cf with leaveAt := some 0 } }), _, 0,
      rfl, by decide +kernel⟩,
    ⟨0, 1, at0 (dv [(Ix.cfCmdSlot, 0, 0, 5), (Ix.cfState, 0, 0, 4), (Ix.modService, 0, 0, 3)]
      { up with cf := { up.cf with nodes := [(5, { seq := 3 })], avoided := [], prepared := [] } }), _, _, ({ seq := 3 } : CfNode), rfl, rfl, (by
      delta Dev.reaches; decide +kernel)⟩,
    ⟨0, 1, at0 (dv [(Ix.cfCmdSlot, 0, 0, 5), (Ix.cfState, 0, 0, 4), (Ix.modService, 0, 0, 3)] up), _, _, rfl, rfl, (by
      delta Dev.reaches; decide +kernel)⟩,
    ⟨0, 1, at0 (dv [(Ix.cfCmdSlot, 0, 0, 5), (Ix.cfState, 0, 0, 4), (Ix.modService, 0, 0, 3)]
      { up with cf := { up.cf with prepared := [(5, 0)], avoided := [5] } }), _, _, 0, rfl, rfl, (by delta Dev.reaches; decide +kernel)⟩,
    ⟨0, 1, at0 (dv [(Ix.cfState, 0, 0, 4), (Ix.modService, 0, 0, 3)] { up with cf := { up.cf with prepared := [] } }), _, rfl, (by
      delta Dev.reaches; decide +kernel)⟩,
    ⟨0, 5, at0 ({ up with now := 2 ^ 56, cf := { up.cf with prepared := [(5, 0)], avoided := [5] } }), _, 0, rfl, by decide +kernel⟩⟩

/-- Every clause of `Obligations.BroadcastsAndEventPackets` has a state and operands that meet its hypotheses together. -/
theorem test_meets_BroadcastsAndEventPackets :
    (∃ (t : _) (s : State) (e : Dev) (l : _), e = s.dev.at t ∧ (l = (e.cf.fires.filter (fun f => f.scope == 0)).take 2) ∧ l ≠ [] ∧ e.joined = true ∧
      e.cf.suspended = false ∧ e.cf.courseAt = none) ∧
    (∃ (t : _) (s : State) (e : Dev) (w : _), e = s.dev.at t ∧ e.cf.courseAt = some w ∧ e.now < w + ns 500) ∧
    (∃ (t : _) (s : State) (e : Dev) (l : _), e = s.dev.at t ∧ (l = (e.cf.fires.filter (fun f => f.scope == 1)).take 2) ∧ l ≠ [] ∧ e.joined = true ∧
      e.cf.suspended = false ∧ e.time96 * 1000000 / two48 % 16 = e.slotIdent % 32 % 16) ∧
    (∃ (t port w0 w1 body : _) (s : State) (e : Dev) (p : CfPkt), e = s.dev.at t ∧ port < 4 ∧ pktOf w0 w1 body = some p ∧ p.kind = 0x20 ∧ e.portState
      port = 3 ∧ p.origin ≠ e.slotIdent ∧ e.cf.suspended = false ∧ body.length = 16 ∧ e.cf.heard.find? p.origin = none ∧ p.word 1 / two48 % 65536 = 0
      ∧ (∀ c < 64, e.nI Ix.trgCondType c ≠ 0x30)) ∧
    (∃ (t port w0 w1 body : _) (s : State) (e : Dev) (p : CfPkt) (x : _), e = s.dev.at t ∧ port < 4 ∧ pktOf w0 w1 body = some p ∧ p.kind = 0x20 ∧
      e.portState port = 3 ∧ p.origin ≠ e.slotIdent ∧ e.cf.suspended = false ∧ body.length = 16 ∧ e.cf.heard.find? p.origin = some x ∧ p.word 1 /
      two48 % 65536 = 0 ∧ 0 < (p.seq + 2 ^ 24 - x) % 2 ^ 24 ∧ (p.seq + 2 ^ 24 - x) % 2 ^ 24 < 2 ^ 23 ∧ (∀ c < 64, e.nI Ix.trgCondType c ≠ 0x30)) ∧
    (∃ (t port w0 w1 body : _) (s : State) (e : Dev) (p : CfPkt) (c : _), e = s.dev.at t ∧ port < 4 ∧ pktOf w0 w1 body = some p ∧ p.kind = 0x20 ∧
      e.portState port = 3 ∧ p.origin ≠ e.slotIdent ∧ e.cf.suspended = false ∧ body.length = 16 ∧ e.cf.heard.find? p.origin = none ∧ p.word 1 / two48
      % 65536 = 0 ∧ c < 64 ∧ e.nI Ix.trgCondType c = 0x30 ∧ e.nI Ix.trgCondSrc c = p.word 0 / 2 ^ 56 % 256 ∧ e.nI Ix.trgCondRemoteMod c = 0xFFFF ∧ (∀
      b < 64, b ≠ c → e.nI Ix.trgCondType b ≠ 0x30) ∧ (∀ k < 16, e.nI Ix.trgChainStages k = 0) ∧ e.mayEmit c (p.word 0 % two48 * two48 + p.word 1 %
      two48)) ∧
    (∃ (t port w0 w1 body : _) (s : State) (e : Dev) (p : CfPkt), e = s.dev.at t ∧ port < 4 ∧ pktOf w0 w1 body = some p ∧ p.kind = 0x21 ∧ e.portState
      port = 3 ∧ p.origin ≠ e.slotIdent ∧ e.cf.suspended = false ∧ p.word 0 / 2 ^ 56 % 256 = 0x02) ∧
    (∃ (t port w0 w1 body : _) (s : State) (e : Dev) (p : CfPkt), e = s.dev.at t ∧ port < 4 ∧ pktOf w0 w1 body = some p ∧ p.kind = 0x21 ∧ e.portState
      port = 3 ∧ p.origin ≠ e.slotIdent ∧ e.cf.suspended = false ∧ p.word 0 / 2 ^ 56 % 256 = 0x06) :=
  ⟨⟨0, at0 (dv [(Ix.cfState, 0, 0, 4), (Ix.modService, 0, 0, 3)]
      { up with cf := { up.cf with fires := [({ scope := 0, ident := 7, time := 1000, decided := 900, seq := 0, dropped := 0 } : CfFire), ({ scope := 1, ident := 7, time := 1000, decided := 900, seq := 0, dropped := 0 } : CfFire)], suspended := false, courseAt := none } }),
      _, [({ scope := 0, ident := 7, time := 1000, decided := 900, seq := 0, dropped := 0 } : CfFire)], rfl, by decide +kernel⟩,
    ⟨0, at0 ({ up with cf := { up.cf with courseAt := some 1 } }), _, 1, rfl, by decide +kernel⟩,
    ⟨0, at0 (dv [(Ix.cfState, 0, 0, 4), (Ix.modService, 0, 0, 3)]
      { up with cf := { up.cf with fires := [({ scope := 1, ident := 7, time := 1000, decided := 900, seq := 0, dropped := 0 } : CfFire), ({ scope := 0, ident := 7, time := 1000, decided := 900, seq := 0, dropped := 0 } : CfFire)], suspended := false } }),
      _, [({ scope := 1, ident := 7, time := 1000, decided := 900, seq := 0, dropped := 0 } : CfFire)], rfl, by decide +kernel⟩,
    ⟨0, 3, ({ kind := 0x20, origin := 5, seq := 9, body := wordsBody [7 * 2 ^ 56 + 5, 77] } : CfPkt).word0,
      ({ kind := 0x20, origin := 5, seq := 9, body := wordsBody [7 * 2 ^ 56 + 5, 77] } : CfPkt).word1,
      ({ kind := 0x20, origin := 5, seq := 9, body := wordsBody [7 * 2 ^ 56 + 5, 77] } : CfPkt).body, at0 (dv [(Ix.cfPortState, 4, 0, 3)]
      { up with cf := { up.cf with suspended := false } }), _, ({ kind := 0x20, origin := 5, seq := 9, body := wordsBody [7 * 2 ^ 56 + 5, 77] } :
      CfPkt), rfl, by decide +kernel⟩,
    ⟨0, 3, ({ kind := 0x20, origin := 5, seq := 9, body := wordsBody [7 * 2 ^ 56 + 5, 77] } : CfPkt).word0,
      ({ kind := 0x20, origin := 5, seq := 9, body := wordsBody [7 * 2 ^ 56 + 5, 77] } : CfPkt).word1,
      ({ kind := 0x20, origin := 5, seq := 9, body := wordsBody [7 * 2 ^ 56 + 5, 77] } : CfPkt).body, at0 (dv [(Ix.cfPortState, 4, 0, 3)]
      { up with cf := { up.cf with heard := [(5, 2)], suspended := false } }), _,
      ({ kind := 0x20, origin := 5, seq := 9, body := wordsBody [7 * 2 ^ 56 + 5, 77] } : CfPkt), 2, rfl, by decide +kernel⟩,
    ⟨0, 3, ({ kind := 0x20, origin := 5, seq := 9, body := wordsBody [7 * 2 ^ 56 + 5, 77] } : CfPkt).word0,
      ({ kind := 0x20, origin := 5, seq := 9, body := wordsBody [7 * 2 ^ 56 + 5, 77] } : CfPkt).word1,
      ({ kind := 0x20, origin := 5, seq := 9, body := wordsBody [7 * 2 ^ 56 + 5, 77] } : CfPkt).body, at0 (dv [(Ix.trgCondType, 4, 0, 48),
      (Ix.trgCondSrc, 4, 0, 7), (Ix.trgCondRemoteMod, 4, 0, 65535), (Ix.cfPortState, 4, 0, 3)] { up with cf := { up.cf with suspended := false } }),
      _, ({ kind := 0x20, origin := 5, seq := 9, body := wordsBody [7 * 2 ^ 56 + 5, 77] } : CfPkt), 3, rfl, (by delta Dev.mayEmit; decide +kernel)⟩,
    ⟨0, 3, ({ kind := 0x21, origin := 5, body := wordsBody [2 * 2 ^ 56 + 5] } : CfPkt).word0,
      ({ kind := 0x21, origin := 5, body := wordsBody [2 * 2 ^ 56 + 5] } : CfPkt).word1,
      ({ kind := 0x21, origin := 5, body := wordsBody [2 * 2 ^ 56 + 5] } : CfPkt).body, at0 (dv [(Ix.cfPortState, 4, 0, 3)]
      { up with cf := { up.cf with suspended := false } }), _, ({ kind := 0x21, origin := 5, body := wordsBody [2 * 2 ^ 56 + 5] } : CfPkt), rfl,
      by decide +kernel⟩,
    ⟨0, 3, ({ kind := 0x21, origin := 5, body := wordsBody [6 * 2 ^ 56 + 5] } : CfPkt).word0,
      ({ kind := 0x21, origin := 5, body := wordsBody [6 * 2 ^ 56 + 5] } : CfPkt).word1,
      ({ kind := 0x21, origin := 5, body := wordsBody [6 * 2 ^ 56 + 5] } : CfPkt).body, at0 (dv [(Ix.cfPortState, 4, 0, 3)]
      { up with cf := { up.cf with suspended := false } }), _, ({ kind := 0x21, origin := 5, body := wordsBody [6 * 2 ^ 56 + 5] } : CfPkt), rfl,
      by decide +kernel⟩⟩

/-- Every clause of `Obligations.FabricRequestsAndData` has a state and operands that meet its hypotheses together. -/
theorem test_meets_FabricRequestsAndData :
    (∃ (t path : _) (s : State) (e : Dev) (slot : _), e = s.dev.at t ∧ slot = e.n0 Ix.cfRdaSlot % 1024 ∧ e.reaches path Ix.cfRdaCmd ∧ e.fullService =
      true ∧ e.n0 Ix.cfRdaState ≠ 1) ∧
    (∃ (t path : _) (s : State) (e : Dev) (slot : _), e = s.dev.at t ∧ slot = e.n0 Ix.cfRdaSlot % 1024 ∧ e.reaches path Ix.cfRdaCmd ∧ e.fullService =
      true ∧ e.n0 Ix.cfRdaState ≠ 1) ∧
    (∃ (t path : _) (s : State) (e : Dev), e = s.dev.at t ∧ e.reaches path Ix.cfRdaCmd ∧ 1 ≤ path ∧ path ≤ 4 ∧ e.fullService = true ∧ e.n0
      Ix.cfRdaState = 1) ∧
    (∃ (t port w0 w1 body : _) (s : State) (e : Dev) (p : CfPkt) (slot w c : _), e = s.dev.at t ∧ c = p.word 0 / 2 ^ 32 % 2 ^ 32 ∧ port < 4 ∧ pktOf w0
      w1 body = some p ∧ p.kind = 0x42 ∧ e.portState port = 3 ∧ p.origin ≠ e.slotIdent ∧ e.cf.suspended = false ∧ p.dest = e.slotIdent ∧ e.cf.rda =
      some (slot, p.seq, w) ∧ p.origin = slot) ∧
    (∃ (t : _) (s : State) (e : Dev) (slot n w : _), e = s.dev.at t ∧ e.cf.rda = some (slot, n, w) ∧ w + us (e.n0 Ix.cfRdaTimeout) ≤ e.now ∧
      e.sup.emergencies.length < 32) ∧
    (∃ (t port w0 w1 body : _) (s : State) (e : Dev) (p : CfPkt) (ix sub : _), e = s.dev.at t ∧ ix = bitsOf 31 16 (p.word 0) ∧ sub = bitsOf 15 8
      (p.word 0) ∧ port < 4 ∧ pktOf w0 w1 body = some p ∧ p.kind = 0x40 ∧ e.portState port = 3 ∧ p.origin ≠ e.slotIdent ∧ e.cf.suspended = false ∧
      e.fullService = true ∧ p.dest = e.slotIdent ∧ e.sup.running = true ∧ e.readRefusal ix sub false = none ∧ ix ≠ Ix.dictBulkWord) ∧
    (∃ (t port w0 w1 body : _) (s : State) (e : Dev) (p : CfPkt) (ix sub : _), e = s.dev.at t ∧ ix = bitsOf 31 16 (p.word 0) ∧ sub = bitsOf 15 8
      (p.word 0) ∧ port < 4 ∧ pktOf w0 w1 body = some p ∧ p.kind = 0x40 ∧ e.portState port = 3 ∧ p.origin ≠ e.slotIdent ∧ e.cf.suspended = false ∧
      e.fullService = true ∧ p.dest = e.slotIdent ∧ e.sup.running = true ∧ indexExists ix = false ∧ rowOf ix sub = none) ∧
    (∃ (t port w0 w1 body : _) (s : State) (e : Dev) (p : CfPkt), e = s.dev.at t ∧ port < 4 ∧ pktOf w0 w1 body = some p ∧ p.kind = 0x52 ∧ e.portState
      port = 3 ∧ p.origin ≠ e.slotIdent ∧ e.cf.suspended = false ∧ e.fullService = true ∧ p.dest = e.slotIdent ∧ p.seq ≠ (e.cf.rx.get {}
      p.origin).expect ∧ (e.cf.rx.get {} p.origin).expect ≠ 0) ∧
    (∃ (t port w0 w1 body : _) (s : State) (e : Dev) (p : CfPkt) (dst len data a : _), e = s.dev.at t ∧ data = p.body.drop 8 ∧ a = p.word 0 % two48 ∧
      port < 4 ∧ pktOf w0 w1 body = some p ∧ p.kind = 0x52 ∧ e.portState port = 3 ∧ p.origin ≠ e.slotIdent ∧ e.cf.suspended = false ∧ e.fullService =
      true ∧ p.dest = e.slotIdent ∧ p.seq = (e.cf.rx.get {} p.origin).expect ∧ e.cf.copy = some (p.origin, dst, len) ∧ len ≤ e.n0 Ix.cfCopyDone +
      data.length ∧ e.n0 Ix.cfCopyDone + data.length < two48) ∧
    (∃ (t port w0 w1 body : _) (s : State) (e : Dev) (p : CfPkt) (x : _), e = s.dev.at t ∧ x = e.cf.tx.get {} p.origin ∧ port < 4 ∧ pktOf w0 w1 body =
      some p ∧ p.kind = 0x53 ∧ e.portState port = 3 ∧ e.cf.suspended = false ∧ p.dest = e.slotIdent ∧ (∀ g ∈ x.unacked, g.frees = none)) ∧
    (∃ (t dest : _) (s : State) (e : Dev) (l : List CfSeg), e = s.dev.at t ∧ dest < 1024 ∧ (l = (e.cf.tx.get {} dest).unacked.filter (fun g => decide
      (g.sent + us 20 ≤ e.now))) ∧ l ≠ [] ∧ e.remoteJoined dest = true) ∧
    (∃ (t dest : _) (s : State) (e : Dev), e = s.dev.at t ∧ dest < 1024 ∧ (∀ g ∈ (e.cf.tx.get {} dest).unacked, e.now < g.sent + us 20)) ∧
    (∃ (t dest : _) (s : State) (e : Dev) (x : CfTx) (w c : _), e = s.dev.at t ∧ dest < 1024 ∧ e.remoteJoined dest = false ∧ e.cf.tx.find? dest = some
      x ∧ x.gone = some w ∧ w + us (e.n0 Ix.cfDataTimeout) ≤ e.now ∧ e.cf.copy = some c ∧ c.1 = dest ∧ e.sup.emergencies.length < 32) :=
  ⟨⟨0, 1, at0 (dv [(Ix.cfPortState, 1, 0, 3), (Ix.cfNeighbour, 1, 0, 1), (Ix.cfState, 0, 0, 4), (Ix.modService, 0, 0, 3), (Ix.cfRdaSlot, 0, 0, 1),
      (Ix.cfRdaState, 0, 0, 0)] { up with cf := { up.cf with nodes := [(1, { ports := [(3, 0)] })] } }), _, _, rfl, rfl, (by
      delta Dev.reaches; decide +kernel)⟩,
    ⟨0, 1, at0 (dv [(Ix.cfPortState, 1, 0, 3), (Ix.cfNeighbour, 1, 0, 1), (Ix.cfState, 0, 0, 4), (Ix.modService, 0, 0, 3), (Ix.cfRdaSlot, 0, 0, 1),
      (Ix.cfRdaState, 0, 0, 0)] { up with cf := { up.cf with nodes := [(1, { ports := [(3, 0)] })] } }), _, _, rfl, rfl, (by
      delta Dev.reaches; decide +kernel)⟩,
    ⟨0, 1, at0 (dv [(Ix.modService, 0, 0, 3), (Ix.cfRdaState, 0, 0, 1)] up), _, rfl, (by delta Dev.reaches; decide +kernel)⟩,
    ⟨0, 3, ({ kind := 66, origin := 1, seq := 9, body := wordsBody [0x8000_0002, 7] } : CfPkt).word0,
      ({ kind := 66, origin := 1, seq := 9, body := wordsBody [0x8000_0002, 7] } : CfPkt).word1,
      ({ kind := 66, origin := 1, seq := 9, body := wordsBody [0x8000_0002, 7] } : CfPkt).body, at0 (dv [(Ix.cfPortState, 4, 0, 3)]
      { up with cf := { up.cf with rda := some (1, 9, 0), suspended := false } }), _,
      ({ kind := 66, origin := 1, seq := 9, body := wordsBody [0x8000_0002, 7] } : CfPkt), 1, 0, _, rfl, rfl, by decide +kernel⟩,
    ⟨0, at0 ({ up with cf := { up.cf with rda := some (1, 9, 0) }, now := 2 ^ 60 }), _, 1, 9, 0, rfl, by decide +kernel⟩,
    ⟨0, 3, ({ kind := 64, origin := 1, seq := 9, body := wordsBody [0x1001 * 2 ^ 16] } : CfPkt).word0,
      ({ kind := 64, origin := 1, seq := 9, body := wordsBody [0x1001 * 2 ^ 16] } : CfPkt).word1,
      ({ kind := 64, origin := 1, seq := 9, body := wordsBody [0x1001 * 2 ^ 16] } : CfPkt).body, at0 (dv [(Ix.cfPortState, 1, 0, 3), (Ix.cfNeighbour,
      1, 0, 1), (Ix.cfState, 0, 0, 4), (Ix.modService, 0, 0, 3), (Ix.cfPortState, 4, 0, 3)]
      { up with cf := { up.cf with nodes := [(1, { ports := [(3, 0)] })], suspended := false }, sup := { up.sup with running := true } }), _,
      ({ kind := 64, origin := 1, seq := 9, body := wordsBody [0x1001 * 2 ^ 16] } : CfPkt), _, _, rfl, rfl, rfl, by decide +kernel⟩,
    ⟨0, 3, ({ kind := 64, origin := 1, seq := 9, body := wordsBody [0x0FFF * 2 ^ 16] } : CfPkt).word0,
      ({ kind := 64, origin := 1, seq := 9, body := wordsBody [0x0FFF * 2 ^ 16] } : CfPkt).word1,
      ({ kind := 64, origin := 1, seq := 9, body := wordsBody [0x0FFF * 2 ^ 16] } : CfPkt).body, at0 (dv [(Ix.cfPortState, 1, 0, 3), (Ix.cfNeighbour,
      1, 0, 1), (Ix.cfState, 0, 0, 4), (Ix.modService, 0, 0, 3), (Ix.cfPortState, 4, 0, 3)]
      { up with cf := { up.cf with nodes := [(1, { ports := [(3, 0)] })], suspended := false }, sup := { up.sup with running := true } }), _,
      ({ kind := 64, origin := 1, seq := 9, body := wordsBody [0x0FFF * 2 ^ 16] } : CfPkt), _, _, rfl, rfl, rfl, by decide +kernel⟩,
    ⟨0, 3, ({ kind := 82, origin := 1, seq := 9, body := wordsBody [0] } : CfPkt).word0, ({ kind := 82, origin := 1, seq := 9, body := wordsBody [0] }
      : CfPkt).word1, ({ kind := 82, origin := 1, seq := 9, body := wordsBody [0] } : CfPkt).body, at0 (dv [(Ix.cfPortState, 1, 0, 3),
      (Ix.cfNeighbour, 1, 0, 1), (Ix.cfState, 0, 0, 4), (Ix.modService, 0, 0, 3), (Ix.cfPortState, 4, 0, 3)]
      { up with cf := { up.cf with nodes := [(1, { ports := [(3, 0)] })], rx := [(1, { expect := 5 })], suspended := false } }), _,
      ({ kind := 82, origin := 1, seq := 9, body := wordsBody [0] } : CfPkt), rfl, by decide +kernel⟩,
    ⟨0, 3, ({ kind := 82, origin := 1, seq := 9, body := wordsBody [64, 7, 8] } : CfPkt).word0,
      ({ kind := 82, origin := 1, seq := 9, body := wordsBody [64, 7, 8] } : CfPkt).word1,
      ({ kind := 82, origin := 1, seq := 9, body := wordsBody [64, 7, 8] } : CfPkt).body, at0 (dv [(Ix.cfPortState, 1, 0, 3), (Ix.cfNeighbour, 1, 0,
      1), (Ix.cfState, 0, 0, 4), (Ix.modService, 0, 0, 3), (Ix.cfCopyState, 0, 0, 1), (Ix.cfPortState, 4, 0, 3)]
      { up with cf := { up.cf with nodes := [(1, { ports := [(3, 0)] })], rx := [(1, { expect := 9 })], copy := some (1, 64, 16), suspended := false } }),
      _, ({ kind := 82, origin := 1, seq := 9, body := wordsBody [64, 7, 8] } : CfPkt), 64, 16, _, _, rfl, rfl, rfl, by decide +kernel⟩,
    ⟨0, 3, ({ kind := 83, origin := 1, seq := 9, body := wordsBody [4] } : CfPkt).word0, ({ kind := 83, origin := 1, seq := 9, body := wordsBody [4] }
      : CfPkt).word1, ({ kind := 83, origin := 1, seq := 9, body := wordsBody [4] } : CfPkt).body, at0 (dv [(Ix.cfPortState, 4, 0, 3)]
      { up with cf := { up.cf with tx := [(1, { next := 6, unacked := [({ pkt := { kind := 0x51, origin := 0, dest := 1, seq := 4 }, sent := 0 } : CfSeg), ({ pkt := { kind := 0x51, origin := 0, dest := 1, seq := 5 }, sent := 0 } : CfSeg)] })], suspended := false } }),
      _, ({ kind := 83, origin := 1, seq := 9, body := wordsBody [4] } : CfPkt), _, rfl, rfl, by decide +kernel⟩,
    ⟨0, 1, at0 (dv [(Ix.cfPortState, 1, 0, 3), (Ix.cfNeighbour, 1, 0, 1), (Ix.cfState, 0, 0, 4), (Ix.modService, 0, 0, 3)]
      { up with cf := { up.cf with nodes := [(1, { ports := [(3, 0)] })], tx := [(1, { next := 6, unacked := [({ pkt := { kind := 0x51, origin := 0, dest := 1, seq := 4 }, sent := 0 } : CfSeg), ({ pkt := { kind := 0x51, origin := 0, dest := 1, seq := 5 }, sent := 0 } : CfSeg)] })] }, now := 2 ^ 50 }),
      _, ([({ pkt := { kind := 0x51, origin := 0, dest := 1, seq := 4 }, sent := 0 } : CfSeg),
      ({ pkt := { kind := 0x51, origin := 0, dest := 1, seq := 5 }, sent := 0 } : CfSeg)] : List CfSeg), rfl, by decide +kernel⟩,
    ⟨0, 1023, at0 (up), _, rfl, by decide +kernel⟩,
    ⟨0, 1, at0 (dv [(Ix.cfState, 0, 0, 4), (Ix.modService, 0, 0, 3), (Ix.strRingState, 0, 5, 1), (Ix.strRingTarget, 0, 5, 3), (Ix.strRingBase, 0, 5,
      4294967296)]
      { up with cf := { up.cf with tx := [(1, { gone := some 0 })], copy := some (1, 64, 16) }, now := 2 ^ 60, str := { up.str with rings := [(5, {})] } }),
      _, ({ gone := some 0 } : CfTx), 0, (1, 64, 16), rfl, by decide +kernel⟩⟩

/-- Every clause of `Obligations.RemoteCopies` has a state and operands that meet its hypotheses together. -/
theorem test_meets_RemoteCopies :
    (∃ (t path : _) (s : State) (e : Dev) (slot : _), e = s.dev.at t ∧ slot = e.n0 Ix.cfCopySlot ∧ e.reaches path Ix.cfCopyCmd ∧ e.fullService = true
      ∧ e.n0 Ix.cfCopyState ≠ 1 ∧ e.joined = true ∧ e.n0 Ix.cfCopyLen % 64 = 0 ∧ e.n0 Ix.cfCopyLen ≠ 0 ∧ e.remoteJoined slot = true) ∧
    (∃ (t path : _) (s : State) (e : Dev), e = s.dev.at t ∧ e.reaches path Ix.cfCopyCmd ∧ 1 ≤ path ∧ path ≤ 4 ∧ e.fullService = true ∧ (e.n0
      Ix.cfCopyState = 1 ∨ e.joined = false)) ∧
    (∃ (t path : _) (s : State) (e : Dev), e = s.dev.at t ∧ e.reaches path Ix.cfCopyCmd ∧ 1 ≤ path ∧ path ≤ 4 ∧ e.n0 Ix.cfCopyState ≠ 1 ∧ e.joined =
      true ∧ e.n0 Ix.cfCopyLen % 64 ≠ 0) ∧
    (∃ (t path : _) (s : State) (e : Dev), e = s.dev.at t ∧ e.reaches path Ix.cfCopyCmd ∧ 1 ≤ path ∧ path ≤ 4 ∧ e.n0 Ix.cfCopyState ≠ 1 ∧ e.joined =
      true ∧ e.n0 Ix.cfCopyLen % 64 = 0 ∧ e.remoteJoined (e.n0 Ix.cfCopySlot) = false) ∧
    (∃ (t path : _) (s : State) (e : Dev) (c : _), e = s.dev.at t ∧ e.reaches path Ix.cfCopyCmd ∧ e.cf.copy = some c) ∧
    (∃ (t path : _) (s : State) (e : Dev), e = s.dev.at t ∧ e.reaches path Ix.cfCopyCmd ∧ 1 ≤ path ∧ path ≤ 4 ∧ e.cf.copy = none ∧
      e.sup.emergencies.length < 32) :=
  ⟨⟨0, 1, at0 (dv [(Ix.cfPortState, 1, 0, 3), (Ix.cfNeighbour, 1, 0, 1), (Ix.cfState, 0, 0, 4), (Ix.modService, 0, 0, 3), (Ix.cfCopySlot, 0, 0, 1),
      (Ix.cfCopyLen, 0, 0, 128), (Ix.cfCopyDst, 0, 0, 64), (Ix.cfCopySrc, 0, 0, 192), (Ix.cfCopyState, 0, 0, 0)]
      { up with cf := { up.cf with nodes := [(1, { ports := [(3, 0)] })] } }), _, _, rfl, rfl, (by delta Dev.reaches; decide +kernel)⟩,
    ⟨0, 1, at0 (dv [(Ix.modService, 0, 0, 3), (Ix.cfCopyState, 0, 0, 1)] up), _, rfl, (by delta Dev.reaches; decide +kernel)⟩,
    ⟨0, 1, at0 (dv [(Ix.cfCopyLen, 0, 0, 3), (Ix.cfState, 0, 0, 4), (Ix.modService, 0, 0, 3), (Ix.cfCopyState, 0, 0, 0)] up), _, rfl, (by
      delta Dev.reaches; decide +kernel)⟩,
    ⟨0, 1, at0 (dv [(Ix.cfState, 0, 0, 4), (Ix.modService, 0, 0, 3), (Ix.cfCopyState, 0, 0, 0)] up), _, rfl, (by delta Dev.reaches; decide +kernel)⟩,
    ⟨0, 1, at0 ({ up with cf := { up.cf with copy := some (1, 64, 16) } }), _, (1, 64, 16), rfl, (by delta Dev.reaches; decide +kernel)⟩,
    ⟨0, 1, at0 ({ up with cf := { up.cf with copy := none } }), _, rfl, (by delta Dev.reaches; decide +kernel)⟩⟩

/-- Every clause of `Obligations.EntryWrites` has a state and operands that meet its hypotheses together. -/
theorem test_meets_EntryWrites :
    (∃ (t path ix sub v : _) (o : Outside) (s : State) (e : Dev) (r : _), e = s.dev.at t ∧ e.reaches path ix ∧ rowOf ix sub = some r ∧ r.effect = .cut
      ∧ e.writeRefusal path ix sub v = none ∧ ix ≠ Ix.dictBulkWord ∧ ix ≠ Ix.dictBulkLen ∧ entryCommand t path ix sub v o s = none ∧ (e.fullService =
      true ∨ withheldIx ix = false)) ∧
    (∃ (t path ix sub v : _) (o : Outside) (s : State) (e : Dev) (r : _), e = s.dev.at t ∧ e.reaches path ix ∧ rowOf ix sub = some r ∧ r.effect = .now
      ∧ e.writeRefusal path ix sub v = none ∧ ix ∉ [0x1003, Ix.hwBypassForce, Ix.modChangeoverAuto, Ix.itkRelink, Ix.calTrimCode, Ix.imChanEnable,
      Ix.dictBulkSel, Ix.dictBulkOff, Ix.dictBulkWord, Ix.dictBulkLen, Ix.strRingCi] ∧ entryCommand t path ix sub v o s = none ∧ (e.shadowed ix =
      false ∨ isPathEntry ix = true) ∧ (e.hw.pwrGood = true)) ∧
    (∃ (t path ix sub : _) (s : State) (e : Dev) (r : _), e = s.dev.at t ∧ e.sup.running = true ∧ e.pathOpen path = true ∧ 1 ≤ path ∧ path ≤ 4 ∧ rowOf
      ix sub = some r ∧ r.access = .ro) ∧
    (∃ (t path ix sub : _) (s : State) (e : Dev), e = s.dev.at t ∧ e.sup.running = true ∧ e.pathOpen path = true ∧ 1 ≤ path ∧ path ≤ 4 ∧ rowOf ix sub
      = none ∧ indexExists ix = false) ∧
    (∃ (t path ix sub v : _) (s : State) (e : Dev) (r : _), e = s.dev.at t ∧ e.sup.running = true ∧ e.pathOpen path = true ∧ 1 ≤ path ∧ path ≤ 4 ∧
      rowOf ix sub = some r ∧ r.access = .rw ∧ typeBytes r.ty ≠ 0 ∧ ¬ (0x3000 ≤ ix ∧ ix < 0x3100) ∧ ownRange ix sub v = none ∧ (v < r.min ∨ r.max < v)
      ∧ ix ≠ Ix.dictBulkWord ∧ ix ≠ Ix.dictBulkLen ∧ r.rangeCode < 2 ^ 32 ∧ e.sup.emergencies.length < 32) ∧
    (∃ (t path ix sub v : _) (s : State) (e : Dev) (c a : _), e = s.dev.at t ∧ e.sup.running = true ∧ e.pathOpen path = true ∧ 1 ≤ path ∧ path ≤ 4 ∧
      e.writeRefusal path ix sub v = some (c, a) ∧ ix ≠ Ix.dictBulkWord ∧ ix ≠ Ix.dictBulkLen ∧ c < 2 ^ 32 ∧ e.sup.emergencies.length < 32) ∧
    (∃ (t path ix : _) (s : State) (e : Dev), e = s.dev.at t ∧ e.sup.running = true ∧ e.pathOpen path = false ∧ 1 ≤ path ∧ path ≤ 4 ∧ ix ≠
      Ix.dictBulkWord ∧ ix ≠ Ix.dictBulkLen) ∧
    (∃ (t ix : _) (s : State) (e : Dev), e = s.dev.at t ∧ e.sup.running = false ∧ e.sup.queued.length < 256 ∧ ix ≠ Ix.dictBulkWord ∧ ix ≠
      Ix.dictBulkLen) ∧
    (∃ (t path : _) (s : State) (e : Dev) (off : _), e = s.dev.at t ∧ off = e.nW Ix.dictBulkOff path ∧ e.reaches path Ix.dictBulkWord ∧ off + 8 ≤ 512) ∧
    (∃ (t path : _) (s : State) (e : Dev), e = s.dev.at t ∧ e.reaches path Ix.dictBulkWord ∧ 1 ≤ path ∧ path ≤ 4 ∧ 512 < e.nW Ix.dictBulkOff path + 8) ∧
    (∃ (t path : _) (s : State) (e : Dev) (off : _), e = s.dev.at t ∧ off = e.nW Ix.dictBulkOff path ∧ off + 8 ≤ 512) ∧
    (∃ (t path len : _) (s : State) (e : Dev) (ix sub r : _), e = s.dev.at t ∧ (ix, sub) = e.bulkTarget path ∧ e.reaches path ix ∧ len ≤ 512 ∧ rowOf
      ix sub = some r ∧ typeBytes (typeOf ix sub) = 0 ∧ r.access ≠ .ro) ∧
    (∃ (t path len : _) (s : State) (e : Dev), e = s.dev.at t ∧ e.sup.running = true ∧ e.pathOpen path = true ∧ 1 ≤ path ∧ path ≤ 4 ∧ 512 < len) :=
  ⟨⟨0, 1, Ix.tbMode, 0, 1, ({} : Outside), at0 (dv [(Ix.modService, 0, 0, 3)] up), _, (rowAt (Ix.tbMode) 0), rfl, (by
      delta Dev.reaches; decide +kernel)⟩,
    ⟨0, 1, Ix.tbPpsAvg, 0, 5, ({} : Outside), at0 (up), _, (rowAt (Ix.tbPpsAvg) 0), rfl, (by delta Dev.reaches; decide +kernel)⟩,
    ⟨0, 1, Ix.tbTimeState, 0, at0 ({ up with sup := { up.sup with running := true } }), _, (rowAt (Ix.tbTimeState) 0), rfl, by decide +kernel⟩,
    ⟨0, 1, 4095, 0, at0 ({ up with sup := { up.sup with running := true } }), _, rfl, by decide +kernel⟩,
    ⟨0, 1, Ix.tbPpsAvg, 0, -3, at0 ({ up with sup := { up.sup with running := true } }), _, (rowAt (Ix.tbPpsAvg) 0), rfl, by decide +kernel⟩,
    ⟨0, 1, 4095, 0, 1, at0 ({ up with sup := { up.sup with running := true } }), _, Code.noEntry, (((at0 up).dev.at 0).writeRefusal 1 0x0FFF 0
      1).get!.2, rfl, by decide +kernel⟩,
    ⟨0, 1, Ix.tbPpsAvg, at0 (dv [(Ix.dictWritePaths, 0, 0, 0)] { up with sup := { up.sup with running := true } }), _, rfl, by decide +kernel⟩,
    ⟨0, Ix.tbPpsAvg, at0 ({ up with sup := { up.sup with running := false } }), _, rfl, by decide +kernel⟩,
    ⟨0, 1, at0 (up), _, _, rfl, rfl, (by delta Dev.reaches; decide +kernel)⟩,
    ⟨0, 1, at0 (dv [(Ix.dictBulkOff, 0, 1, 508)] up), _, rfl, (by delta Dev.reaches; decide +kernel)⟩,
    ⟨0, 1, at0 (up), _, _, rfl, rfl, by decide +kernel⟩,
    ⟨0, 1, 512, at0 (dv [(Ix.dictBulkSel, 0, 1, 2229248)] up), _, 8708, 0, (rowAt 8708 0), rfl, (by delta Dev.reaches; decide +kernel)⟩,
    ⟨0, 1, 513, at0 ({ up with sup := { up.sup with running := true } }), _, rfl, by decide +kernel⟩⟩

/-- Every clause of `Obligations.SlaveStatesMailboxAndProcessData` has a state and operands that meet its hypotheses together. -/
theorem test_meets_SlaveStatesMailboxAndProcessData :
    (∃ (t : _) (s : State) (e : Dev), e = s.dev.at t ∧ e.sup.al ≠ .away ∧ e.service ≠ 5) ∧
    (∃ (t : _) (s : State) (e : Dev), e = s.dev.at t ∧ e.sup.al ≠ .away ∧ e.service ≠ 5 ∧ e.sup.running = true) ∧
    (∃ (t : _) (s : State) (e : Dev), e = s.dev.at t ∧ e.sup.al ≠ .away ∧ e.service ≠ 5) ∧
    (∃ (t sm2 sm3 : _) (s : State) (e : Dev), e = s.dev.at t ∧ e.wakesNothing 1 ∧ e.sup.al = .preop ∧ e.service ≠ 5 ∧ e.service ≠ 0 ∧ e.sup.running =
      true ∧ e.safeopRefusal sm2 sm3 = none ∧ e.timeSource ≠ 2) ∧
    (∃ (t sm2 sm3 : _) (s : State) (e : Dev) (c : _), e = s.dev.at t ∧ e.wakesNothing 1 ∧ e.sup.al = .preop ∧ e.service ≠ 5 ∧ e.service ≠ 0 ∧
      e.sup.running = true ∧ e.safeopRefusal sm2 sm3 = some c) ∧
    (∃ (t : _) (s : State) (e : Dev), e = s.dev.at t ∧ e.wakesNothing 1 ∧ e.sup.al = .safeop ∧ e.service ≠ 5 ∧ e.service ≠ 0 ∧ e.sup.running = true) ∧
    (∃ (t ix sub : _) (s : State) (e : Dev), e = s.dev.at t ∧ e.mailbox = true ∧ e.sup.running = true ∧ e.readRefusal ix sub true = none ∧ ix ≠
      Ix.dictBulkWord) ∧
    (∃ (t ix sub : _) (s : State) (e : Dev) (c a : _), e = s.dev.at t ∧ e.mailbox = true ∧ e.sup.running = true ∧ e.readRefusal ix sub true = some (c,
      a) ∧ e.sup.emergencies.length < 32) ∧
    (∃ (t ix sub : _) (data : List Byte) (s : State) (e : Dev) (r : _), e = s.dev.at t ∧ e.mailbox = true ∧ e.wakesNothing 1 ∧ e.sup.running = true ∧
      e.pathOpen 1 = true ∧ rowOf ix sub = some r ∧ r.access = .ro ∧ typeBytes (typeOf ix sub) ≠ 0 ∧ data.length = typeBytes (typeOf ix sub) ∧ e.rd
      Ix.dictRejections 1 0 = 0) ∧
    (∃ (t ix sub data : _) (o : Outside) (s : State) (e : Dev) (r : _), e = s.dev.at t ∧ e.mailbox = true ∧ e.wakesNothing 1 ∧ e.reaches 1 ix ∧ rowOf
      ix sub = some r ∧ r.effect = .cut ∧ typeBytes (typeOf ix sub) ≠ 0 ∧ data.length = typeBytes (typeOf ix sub) ∧ e.writeRefusal 1 ix sub
      (fixedValue (typeOf ix sub) data) = none ∧ ix ≠ Ix.dictBulkWord ∧ ix ≠ Ix.dictBulkLen ∧ ix ≠ Ix.modCutCommit ∧ entryCommand t 1 ix sub
      (fixedValue (typeOf ix sub) data) o { s with dev := e } = none ∧ e.fullService = true) ∧
    (∃ (t : _) (s : State) (e : Dev), e = s.dev.at t ∧ e.mailbox = true ∧ e.sup.running = true) ∧
    (∃ (t ix : _) (s : State) (e : Dev), e = s.dev.at t ∧ e.mailbox = true ∧ e.sup.running = true ∧ indexExists ix = false) ∧
    (∃ (t : _) (s : State) (e : Dev) (w : _), e = s.dev.at t ∧ (e.sup.al = .safeop ∨ e.sup.al = .op) ∧ e.sup.txMap = [w] ∧ w / 65536 ≠ Ix.dictBulkWord
      ∧ e.rd 0x1C32 1 0 ≠ 2) ∧
    (∃ (t : _) (s : State) (e : Dev) (w : _), e = s.dev.at t ∧ e.wakesNothing 1 ∧ e.sup.al = .safeop ∧ e.sup.txMap = [w] ∧ w / 65536 ≠ Ix.dictBulkWord
      ∧ e.rd 0x1C32 1 0 = 2) ∧
    (∃ (t : _) (outputs : List Byte) (s : State) (e : Dev) (w r v : _), e = s.dev.at t ∧ v = fixedValue (typeOf (w / 65536) (w / 256 % 256))
      (outputs.take (w % 256 / 8)) ∧ e.wakesNothing 1 ∧ e.sup.al = .op ∧ e.rd 0x1C32 1 0 ≠ 2 ∧ e.sup.rxMap = [w] ∧ outputs.length = w % 256 / 8 ∧
      rowOf (w / 65536) (w / 256 % 256) = some r ∧ r.effect = .cut ∧ e.sup.rxLast.find? (ekey (w / 65536) (w / 256 % 256) 0) = some v) ∧
    (∃ (t : _) (outputs : List Byte) (s : State) (e : Dev) (w r v ix sub : _), e = s.dev.at t ∧ v = fixedValue (typeOf ix sub) (outputs.take (w % 256
      / 8)) ∧ e.wakesNothing 1 ∧ e.sup.al = .op ∧ e.rd 0x1C32 1 0 ≠ 2 ∧ e.sup.rxMap = [w] ∧ outputs.length = w % 256 / 8 ∧ ix = w / 65536 ∧ sub = w /
      256 % 256 ∧ rowOf ix sub = some r ∧ r.effect = .cut ∧ e.sup.rxLast.find? (ekey ix sub 0) ≠ some v ∧ e.reaches 1 ix ∧ e.writeRefusal 1 ix sub v =
      none ∧ ix ≠ Ix.dictBulkWord ∧ ix ≠ Ix.dictBulkLen ∧ entryCommand t 1 ix sub v {}
      { s with dev := { e with sup := { e.sup with rxLast := e.sup.rxLast.put (ekey ix sub 0) v } } } = none ∧ e.fullService = true) :=
  ⟨⟨0, at0 (dv [(Ix.modService, 0, 0, 0)] { up with sup := { up.sup with al := .op } }), _, rfl, by decide +kernel⟩,
    ⟨0, at0 (dv [(Ix.modService, 0, 0, 0)] { up with sup := { up.sup with al := .op, running := true } }), _, rfl, by decide +kernel⟩,
    ⟨0, at0 (dv [(Ix.modService, 0, 0, 0)] { up with sup := { up.sup with al := .op } }), _, rfl, by decide +kernel⟩,
    ⟨0, (pdoBytes (({ up with sup.al := .preop } : Dev).pdoWords true)), (pdoBytes (({ up with sup.al := .preop } : Dev).pdoWords false)), at0 (dv
      [(Ix.modService, 0, 0, 3)] { up with sup := { up.sup with al := .preop, running := true } }), _, rfl, (by
      delta Dev.wakesNothing; decide +kernel)⟩,
    ⟨0, 99, 1, at0 (dv [(Ix.modService, 0, 0, 3)] { up with sup := { up.sup with al := .preop, running := true } }), _, 29, rfl, (by
      delta Dev.wakesNothing; decide +kernel)⟩,
    ⟨0, at0 (dv [(Ix.modService, 0, 0, 3)] { up with sup := { up.sup with al := .safeop, running := true } }), _, rfl, (by
      delta Dev.wakesNothing; decide +kernel)⟩,
    ⟨0, 4120, 1, at0 ({ up with sup := { up.sup with al := .preop, running := true } }), _, rfl, by decide +kernel⟩,
    ⟨0, 4095, 1, at0 ({ up with sup := { up.sup with al := .preop, running := true } }), _, Code.noEntry, 100794368, rfl, by decide +kernel⟩,
    ⟨0, 4120, 1, ([1, 2, 3, 4] : List Byte), at0 (dv [(Ix.dictRejections, 1, 0, 0)] { up with sup := { up.sup with al := .preop, running := true } }),
      _, (rowAt 4120 1), rfl, (by delta Dev.wakesNothing; decide +kernel)⟩,
    ⟨0, Ix.tbMode, 0, (leBytes (typeBytes (typeOf (Ix.tbMode) 0)) 1), ({} : Outside), at0 (dv [(Ix.modService, 0, 0, 3)]
      { up with sup := { up.sup with al := .preop } }), _, (rowAt (Ix.tbMode) 0), rfl, (by delta Dev.wakesNothing Dev.reaches; decide +kernel)⟩,
    ⟨0, at0 ({ up with sup := { up.sup with al := .preop, running := true } }), _, rfl, by decide +kernel⟩,
    ⟨0, 1, at0 ({ up with sup := { up.sup with al := .preop, running := true } }), _, rfl, by decide +kernel⟩,
    ⟨0, at0 ({ up with sup := { up.sup with txMap := [(Ix.tbMode * 65536 + 8 * typeBytes (typeOf Ix.tbMode 0))], al := .op } }), _, (Ix.tbMode * 65536
      + 8 * typeBytes (typeOf Ix.tbMode 0)), rfl, by decide +kernel⟩,
    ⟨0, at0 (dv [(0x1C32, 1, 0, 2)]
      { up with sup := { up.sup with txMap := [(Ix.tbMode * 65536 + 8 * typeBytes (typeOf Ix.tbMode 0))], al := .safeop } }), _, (Ix.tbMode * 65536 +
      8 * typeBytes (typeOf Ix.tbMode 0)), rfl, (by delta Dev.wakesNothing; decide +kernel)⟩,
    ⟨0, (leBytes (typeBytes (typeOf Ix.tbMode 0)) 1), at0
      ({ up with sup := { up.sup with rxMap := [(Ix.tbMode * 65536 + 8 * typeBytes (typeOf Ix.tbMode 0))], rxLast := [(ekey Ix.tbMode 0 0, 1)], al := .op } }),
      _, (Ix.tbMode * 65536 + 8 * typeBytes (typeOf Ix.tbMode 0)), (rowAt Ix.tbMode 0), _, rfl, rfl, (by delta Dev.wakesNothing; decide +kernel)⟩,
    ⟨0, (leBytes (typeBytes (typeOf Ix.tbMode 0)) 1), at0 (dv [(Ix.modService, 0, 0, 3)]
      { up with sup := { up.sup with rxMap := [(Ix.tbMode * 65536 + 8 * typeBytes (typeOf Ix.tbMode 0))], al := .op } }), _, (Ix.tbMode * 65536 + 8 *
      typeBytes (typeOf Ix.tbMode 0)), (rowAt (Ix.tbMode) 0), _, Ix.tbMode, 0, rfl, rfl, (by delta Dev.wakesNothing Dev.reaches; decide +kernel)⟩⟩

/-- Every clause of `Obligations.ProcessDataWatchdog` has a state and operands that meet its hypotheses together. -/
theorem test_meets_ProcessDataWatchdog :
    (∃ (t : _) (s : State) (e : Dev), e = s.dev.at t ∧ e.sup.al = .op ∧ e.sup.rxAt + ms 100 ≤ e.now) ∧
    (∃ (t : _) (s : State) (e : Dev), e = s.dev.at t ∧ (e.sup.al ≠ .op ∨ e.now < e.sup.rxAt + ms 100)) :=
  ⟨⟨0, at0 ({ up with now := 2 ^ 60, sup := { up.sup with al := .op } }), _, rfl, by decide +kernel⟩,
    ⟨0, at0 (up), _, rfl, by decide +kernel⟩⟩

/-- Every clause of `Obligations.EmergenciesHistoryAndFiles` has a state and operands that meet its hypotheses together. -/
theorem test_meets_EmergenciesHistoryAndFiles :
    (∃ (t : _) (s : State) (e : Dev) (x : Emergency) (rest : List Emergency), e = s.dev.at t ∧ e.sup.emergencies = x :: rest ∧ e.sup.lastSent = none ∧
      e.mailbox = true ∧ e.sup.running = true) ∧
    (∃ (t : _) (s : State) (e : Dev) (w : _), e = s.dev.at t ∧ e.sup.lastSent = some w ∧ e.now < w + ms 1) ∧
    (∃ (t path : _) (s : State) (e : Dev), e = s.dev.at t ∧ e.reaches path 0x1003) ∧
    (∃ (t : _) (s : State) (e : Dev) (was : _), e = s.dev.at t ∧ was = e.n0 0x1001 ∧ was ≠ 0 ∧ was < 256 ∧ (∀ k ∈ [1, 5, 6], bitOf was k = false) ∧ (∀
      k ∈ [2, 3, 4, 7], bitOf was k = true → e.errorOver k = true) ∧ e.sup.emergencies.length < 32) ∧
    (∃ (t : _) (s : State) (e : Dev) (was : _), e = s.dev.at t ∧ was = e.n0 0x1001 ∧ was < 256 ∧ (∀ k ∈ [2, 3, 4, 7], e.errorOver k = false) ∧
      errorReg was ≠ 0) ∧
    (∃ (t length : _) (s : State) (e : Dev), e = s.dev.at t ∧ e.service ≠ 5 ∧ e.mailbox = true ∧ e.sup.running = true ∧ 0 < length ∧ length ≤ 16777216
      ∧ e.switching = false) ∧
    (∃ (t length : _) (s : State) (e : Dev), e = s.dev.at t ∧ e.service ≠ 5 ∧ e.mailbox = true ∧ e.sup.running = true ∧ length ≤ 16777216 ∧
      e.switching = false) ∧
    (∃ (t length : _) (s : State) (e : Dev), e = s.dev.at t ∧ e.mailbox = true ∧ e.sup.running = true ∧ 16777216 < length) ∧
    (∃ (t : _) (s : State) (e : Dev), e = s.dev.at t ∧ e.mailbox = true ∧ e.sup.running = true) :=
  ⟨⟨0, at0 ({ up with sup := { up.sup with emergencies := [⟨1, 2, 3, 4⟩, ⟨1, 2, 3, 4⟩], lastSent := none, al := .preop, running := true } }), _, (⟨1,
      2, 3, 4⟩ : Emergency), ([⟨1, 2, 3, 4⟩] : List Emergency), rfl, by decide +kernel⟩,
    ⟨0, at0 ({ up with sup := { up.sup with lastSent := some 1 } }), _, 1, rfl, by decide +kernel⟩,
    ⟨0, 1, at0 (up), _, rfl, (by delta Dev.reaches; decide +kernel)⟩,
    ⟨0, at0 (dv [(0x1001, 0, 0, 5)] up), _, _, rfl, rfl, by decide +kernel⟩,
    ⟨0, at0 (dv [(0x1001, 0, 0, 34)] up), _, _, rfl, rfl, by decide +kernel⟩,
    ⟨0, 1, at0 (dv [(Ix.modService, 0, 0, 0)] { up with sup := { up.sup with al := .preop, running := true } }), _, rfl, by decide +kernel⟩,
    ⟨0, 16777216, at0 (dv [(Ix.modService, 0, 0, 0)] { up with sup := { up.sup with al := .preop, running := true } }), _, rfl, by decide +kernel⟩,
    ⟨0, 16777217, at0 ({ up with sup := { up.sup with al := .preop, running := true } }), _, rfl, by decide +kernel⟩,
    ⟨0, at0 ({ up with sup := { up.sup with al := .preop, running := true } }), _, rfl, by decide +kernel⟩⟩

/-- Every clause of `Obligations.PcieMirror` has a state and operands that meet its hypotheses together. -/
theorem test_meets_PcieMirror :
    (∃ (t offset : _) (s : State) (e : Dev) (ix sub : _), e = s.dev.at t ∧ ix = offset / 4096 ∧ sub = offset % 4096 / 16 ∧ e.str.linkUp = true ∧
      e.wakesNothing 2 ∧ offset < 0x06000000 ∧ offset % 16 = 0 ∧ e.sup.latch = none ∧ ix ≠ Ix.dictBulkWord) ∧
    (∃ (t offset : _) (s : State) (e : Dev) (ix sub : _), e = s.dev.at t ∧ ix = offset / 4096 ∧ sub = offset % 4096 / 16 ∧ e.str.linkUp = true ∧
      e.wakesNothing 2 ∧ offset < 0x06000000 ∧ offset % 16 = 0 ∧ e.sup.latch = none ∧ ix ≠ Ix.dictBulkWord) ∧
    (∃ (t offset : _) (s : State) (e : Dev) (ix sub w : _), e = s.dev.at t ∧ ix = offset / 4096 ∧ sub = offset % 4096 / 16 ∧ e.str.linkUp = true ∧
      e.wakesNothing 2 ∧ offset < 0x06000000 ∧ offset % 16 = 4 ∧ e.sup.latch = some (offset - 4, w)) ∧
    (∃ (t k : _) (s : State) (e : Dev), e = s.dev.at t ∧ e.str.linkUp = true ∧ e.wakesNothing 2 ∧ k < 8192) ∧
    (∃ (t : _) (s : State) (e : Dev), e = s.dev.at t ∧ e.str.linkUp = false) ∧
    (∃ (t offset width value : _) (s : State) (e : Dev) (ix sub n : _), e = s.dev.at t ∧ ix = offset / 4096 ∧ sub = offset % 4096 / 16 ∧ e.str.linkUp
      = true ∧ e.wakesNothing 2 ∧ offset < 0x06000000 ∧ offset % 16 = 0 ∧ (width = 4 ∨ width = 8) ∧ n = typeBytes (typeOf ix sub) ∧ n ≠ 0 ∧ (n ≤ 4 ∨
      width = 8) ∧ isExtended (typeOf ix sub) width value = true) ∧
    (∃ (t offset : _) (s : State) (e : Dev) (ix sub : _), e = s.dev.at t ∧ ix = offset / 4096 ∧ sub = offset % 4096 / 16 ∧ e.str.linkUp = true ∧
      e.wakesNothing 2 ∧ offset < 0x06000000 ∧ offset % 16 = 0 ∧ 4 < typeBytes (typeOf ix sub)) ∧
    (∃ (t offset width : _) (s : State) (e : Dev) (ix sub : _), e = s.dev.at t ∧ ix = offset / 4096 ∧ sub = offset % 4096 / 16 ∧ e.str.linkUp = true ∧
      e.wakesNothing 2 ∧ offset < 0x06000000 ∧ offset % 16 < 8 ∧ width ≠ 4 ∧ width ≠ 8 ∧ e.reaches 2 ix) ∧
    (∃ (t r value : _) (s : State) (e : Dev), e = s.dev.at t ∧ e.str.linkUp = true ∧ e.wakesNothing 2 ∧ r < 65536 ∧ (value % 2 ^ 32 + 2 ^ 32 - e.nW
      Ix.strRingCi r) % 2 ^ 32 ≤ (e.nW Ix.strRingPi r + 2 ^ 32 - e.nW Ix.strRingCi r) % 2 ^ 32) ∧
    (∃ (t k : _) (s : State) (e : Dev), e = s.dev.at t ∧ e.str.linkUp = true ∧ e.wakesNothing 2 ∧ k < 8192 ∧ k % 4 ≠ 3) :=
  ⟨⟨0, 0x1018010, at0 ({ up with str := { up.str with linkUp := true }, sup := { up.sup with latch := none } }), _, _, _, rfl, rfl, rfl, (by
      delta Dev.wakesNothing; decide +kernel)⟩,
    ⟨0, 0x1018010, at0 ({ up with str := { up.str with linkUp := true }, sup := { up.sup with latch := none } }), _, _, _, rfl, rfl, rfl, (by
      delta Dev.wakesNothing; decide +kernel)⟩,
    ⟨0, 0x1018014, at0 ({ up with sup := { up.sup with latch := some (0x1018010, 9) }, str := { up.str with linkUp := true } }), _, _, _, 9, rfl, rfl,
      rfl, (by delta Dev.wakesNothing; decide +kernel)⟩,
    ⟨0, 8191, at0 ({ up with str := { up.str with linkUp := true } }), _, rfl, (by delta Dev.wakesNothing; decide +kernel)⟩,
    ⟨0, at0 ({ up with str := { up.str with linkUp := false } }), _, rfl, by decide +kernel⟩,
    ⟨0, (Ix.tbMode * 4096), 4, 1, at0 ({ up with str := { up.str with linkUp := true } }), _, _, _, (typeBytes (typeOf Ix.tbMode 0)), rfl, rfl, rfl,
      (by delta Dev.wakesNothing; decide +kernel)⟩,
    ⟨0, (Ix.strRingBase * 4096), at0 ({ up with str := { up.str with linkUp := true } }), _, _, _, rfl, rfl, rfl, (by
      delta Dev.wakesNothing; decide +kernel)⟩,
    ⟨0, (Ix.tbMode * 4096), 2, at0 ({ up with str := { up.str with linkUp := true } }), _, _, _, rfl, rfl, rfl, (by
      delta Dev.wakesNothing Dev.reaches; decide +kernel)⟩,
    ⟨0, 5, 2, at0 (dv [(Ix.strRingCi, 0, 5, 1), (Ix.strRingPi, 0, 5, 3)] { up with str := { up.str with linkUp := true } }), _, rfl, (by
      delta Dev.wakesNothing; decide +kernel)⟩,
    ⟨0, 4, at0 ({ up with str := { up.str with linkUp := true } }), _, rfl, (by delta Dev.wakesNothing; decide +kernel)⟩⟩

/-- Every clause of `Obligations.SleepAndWake` has a state and operands that meet its hypotheses together. -/
theorem test_meets_SleepAndWake :
    (∃ (t path wake : _) (s : State) (e : Dev), e = s.dev.at t ∧ e.reaches path Ix.pwrSleep ∧ e.n0 Ix.pwrState = 3 ∧ e.pwr.entering = none ∧
      e.sleepForbidden = false ∧ wake ≠ 0xFF ∧ e.wakeEnabled wake = false) ∧
    (∃ (t path : _) (s : State) (e : Dev), e = s.dev.at t ∧ e.reaches path Ix.pwrSleep ∧ 1 ≤ path ∧ path ≤ 4 ∧ (e.n0 Ix.pwrState ≠ 3 ∨
      e.pwr.entering.isSome = true ∨ e.sleepForbidden = true)) ∧
    (∃ (t wake : _) (s : State) (e : Dev), e = s.dev.at t ∧ e.n0 Ix.pwrModuleIdleS ≠ 0 ∧ e.pwr.written + e.n0 Ix.pwrModuleIdleS * sec ≤ e.now ∧ e.n0
      Ix.pwrState = 3 ∧ e.pwr.entering = none ∧ e.sleepForbidden = false ∧ wake ≠ 0xFF ∧ e.wakeEnabled wake = false) ∧
    (∃ (t : _) (s : State) (e : Dev) (u : _), e = s.dev.at t ∧ e.pwr.entering = some u) ∧
    (∃ (t source : _) (s : State) (e : Dev), e = s.dev.at t ∧ e.wakeEnabled source = true ∧ e.pwr.entering = none ∧ e.n0 Ix.pwrState = 2 ∧
      e.pwr.waking = none) ∧
    (∃ (t source : _) (s : State) (e : Dev) (u : _), e = s.dev.at t ∧ e.wakeEnabled source = true ∧ e.pwr.entering = some u) ∧
    (∃ (t : _) (s : State) (e : Dev) (u : _), e = s.dev.at t ∧ e.pwr.asleep = some u ∧ e.n0 Ix.pwrWakeTimer ≠ 0 ∧ u + e.n0 Ix.pwrWakeTimer * sec ≤
      e.now ∧ e.wakeEnabled 5 = true ∧ e.pwr.entering = none ∧ e.n0 Ix.pwrState = 2 ∧ e.pwr.waking = none) ∧
    (∃ (t isl : _) (s : State) (e : Dev), e = s.dev.at t ∧ isl ∈ [1, 2, 3, 4, 5, 6, 8, 0xA, 0xB] ∧ e.nI Ix.pwrIslIdleUs (isl - 1) ≠ 0 ∧ e.islandIdle
      isl = true ∧ e.rd Ix.pwrIslState isl 0 = 0 ∧ e.pwr.since.get 0 isl + us (e.nI Ix.pwrIslIdleUs (isl - 1)) ≤ e.now) :=
  ⟨⟨0, 1, 128, at0 (dv [(Ix.modService, 0, 0, 3), (Ix.pwrState, 0, 0, 3)] { up with pwr := { up.pwr with entering := none } }), _, rfl, (by
      delta Dev.reaches; decide +kernel)⟩,
    ⟨0, 1, at0 (dv [(Ix.pwrState, 0, 0, 0)] up), _, rfl, (by delta Dev.reaches; decide +kernel)⟩,
    ⟨0, 128, at0 (dv [(Ix.modService, 0, 0, 3), (Ix.pwrState, 0, 0, 3), (Ix.pwrModuleIdleS, 0, 0, 1)]
      { up with now := 2 ^ 60, pwr := { up.pwr with entering := none } }), _, rfl, by decide +kernel⟩,
    ⟨0, at0 ({ up with pwr := { up.pwr with entering := some 1 } }), _, 1, rfl, by decide +kernel⟩,
    ⟨0, 3, at0 (dv [(Ix.pwrWakeMask, 0, 0, 63), (Ix.pwrState, 0, 0, 2)] { up with pwr := { up.pwr with entering := none, waking := none } }), _, rfl,
      by decide +kernel⟩,
    ⟨0, 3, at0 (dv [(Ix.pwrWakeMask, 0, 0, 63)] { up with pwr := { up.pwr with entering := some 0 } }), _, 0, rfl, by decide +kernel⟩,
    ⟨0, at0 (dv [(Ix.pwrWakeMask, 0, 0, 63), (Ix.pwrWakeTimer, 0, 0, 1), (Ix.pwrState, 0, 0, 2)]
      { up with now := 2 ^ 60, pwr := { up.pwr with asleep := some 0, entering := none, waking := none } }), _, 0, rfl, by decide +kernel⟩,
    ⟨0, 5, at0 (dv [(Ix.pwrIslIdleUs, 5, 0, 10), (Ix.pwrIslState, 5, 0, 0)] { up with now := 2 ^ 60 }), _, rfl, by decide +kernel⟩⟩

/-- Every clause of `Obligations.GovernorAndEnergy` has a state and operands that meet its hypotheses together. -/
theorem test_meets_GovernorAndEnergy :
    (∃ (t : _) (s : State) (e : Dev) (n : _), e = s.dev.at t ∧ n = (e.n0 Ix.pwrAnalysedSamples + two48 - e.pwr.epsCount) % two48 ∧ e.pwr.epsSince + ms
      (if e.pwr.epsWindow = 0 then 1000 else e.pwr.epsWindow) ≤ e.now) ∧
    (∃ (t : _) (s : State) (e : Dev), e = s.dev.at t ∧ e.now < e.pwr.epsSince + ms (if e.pwr.epsWindow = 0 then 1000 else e.pwr.epsWindow)) ∧
    (∃ (t isl : _) (s : State) (e : Dev), e = s.dev.at t ∧ 1 ≤ isl ∧ isl ≤ 12) ∧
    (∃ (t w temp : _) (s : State) (e : Dev), e = s.dev.at t ∧ e.sup.running = true ∧ e.fullService = true ∧ e.n0 Ix.pwrState = 3 ∧ w < 65536 ∧ -2048 ≤
      temp ∧ temp ≤ 2047) ∧
    (∃ (t : _) (s : State) (e : Dev) (rest : List (Nat × Bool)) (k : _), e = s.dev.at t ∧ e.pwr.steps = (k, false) :: rest ∧ e.sup.running = true ∧
      e.hw.throttling = false ∧ 100 * e.n0 Ix.pwrModuleW < 950 * e.n0 Ix.pwrCapW ∧ e.pwr.released + sec ≤ e.now) ∧
    (∃ (t isl : _) (p : Nat) (s : State) (e : Dev), e = s.dev.at t ∧ 6 ≤ isl ∧ isl ≤ 12 ∧ isl ≠ 7 ∧ e.pwr.want.find? isl = some p ∧ p < 256 ∧ e.nI
      Ix.pwrIslPoint (isl - 1) ≠ p ∧ isl ∉ e.tb.held ∧ e.clockKHz isl = pointKHz isl p) ∧
    (∃ (t : _) (s : State) (e : Dev) (u : _), e = s.dev.at t ∧ (∀ c < 8, e.inService c = true → e.cap.cool.get 0 c = 16) ∧ e.cap.hotRaised = some u ∧
      e.pwr.returned + sec ≤ e.now ∧ e.n0 Ix.capDramRate ≠ 6400) :=
  ⟨⟨0, at0 ({ up with now := 2 ^ 60 }), _, _, rfl, rfl, by decide +kernel⟩,
    ⟨0, at0 (up), _, rfl, by decide +kernel⟩,
    ⟨0, 1, at0 (dv [(Ix.pwrCapW, 0, 0, 60)] up), _, rfl, by decide +kernel⟩,
    ⟨0, 700, 400, at0 (dv [(Ix.pwrCapW, 0, 0, 60), (Ix.pwrState, 0, 0, 3), (Ix.modService, 0, 0, 3)]
      { up with sup := { up.sup with running := true } }), _, rfl, by decide +kernel⟩,
    ⟨0, at0 (dv [(Ix.pwrCapW, 0, 0, 60)]
      { up with pwr := { up.pwr with steps := [(3, false)] }, now := 2 ^ 60, sup := { up.sup with running := true }, hw := { up.hw with throttling := false } }),
      _, ([] : List (Nat × Bool)), 3, rfl, by decide +kernel⟩,
    ⟨0, 8, (0 : Nat), at0 (dv [(Ix.tbIslFreq, 8, 0, 1000000), (Ix.pwrIslPoint, 8, 0, 2)] { up with pwr := { up.pwr with want := [(8, 0)] } }), _, rfl,
      by decide +kernel⟩,
    ⟨0, at0 (dv [(Ix.capDramRate, 0, 0, 0)] { up with now := 2 ^ 60, cap := { up.cap with hotRaised := some 1 } }), _, 1, rfl, by decide +kernel⟩⟩

/-- Every clause of `Obligations.CalibrationCommandsAndRuns` has a state and operands that meet its hypotheses together. -/
theorem test_meets_CalibrationCommandsAndRuns :
    (∃ (t path : _) (s : State) (e : Dev) (obj : _), e = s.dev.at t ∧ e.reaches path Ix.calCmd ∧ e.nW Ix.calObjSel path = obj ∧ isCalObj obj = true ∧
      e.calWithheld obj = false ∧ e.cal.runs = [] ∧ calKind obj ≠ 6) ∧
    (∃ (t path : _) (s : State) (e : Dev) (obj : _), e = s.dev.at t ∧ e.reaches path Ix.calCmd ∧ 1 ≤ path ∧ path ≤ 4 ∧ e.nW Ix.calObjSel path = obj ∧
      isCalObj obj = true ∧ e.calWithheld obj = false ∧ e.cal.runs ≠ []) ∧
    (∃ (t path : _) (s : State) (e : Dev) (obj : _), e = s.dev.at t ∧ e.reaches path Ix.calCmd ∧ 1 ≤ path ∧ path ≤ 4 ∧ e.nW Ix.calObjSel path = obj ∧
      isCalObj obj = false) ∧
    (∃ (t path : _) (s : State) (e : Dev) (r : CalRun), e = s.dev.at t ∧ e.reaches path Ix.calCmd ∧ e.cal.runs = [r] ∧ r.phase ≠ 2 ∧ calKind r.obj ≠ 6
      ∧ e.n0 Ix.calEventRing = noRing) ∧
    (∃ (t path : _) (s : State) (e : Dev), e = s.dev.at t ∧ e.reaches path Ix.calCmd ∧ 1 ≤ path ∧ path ≤ 4 ∧ e.cal.runs = [] ∧
      e.sup.emergencies.length < 32) ∧
    (∃ (t obj : _) (raw : Int) (edges spread : _) (margins : List Nat) (s : State) (e : Dev) (r : CalRun) (v f : _), e = s.dev.at t ∧ isCalObj obj =
      true ∧ calKind obj ≠ 6 ∧ e.cal.runs = [r] ∧ r.obj = obj ∧ r.phase = 0 ∧ e.sup.running = true ∧ e.calSignature obj = r.signature ∧ e.calLinkDown
      obj = false ∧ e.calMeasured obj raw edges spread margins = (v, f)) ∧
    (∃ (t k : _) (s : State) (e : Dev) (r : CalRun), e = s.dev.at t ∧ k < 16 ∧ e.cal.runs = [r] ∧ r.obj = 0x0600 + k ∧ r.phase = 0 ∧ r.stage = 0 ∧
      e.sup.running = true ∧ e.nI Ix.calTrimMode k ≠ 0) ∧
    (∃ (t path : _) (s : State) (e : Dev), e = s.dev.at t ∧ e.reaches path Ix.calCmd) ∧
    (∃ (t path : _) (s : State) (e : Dev), e = s.dev.at t ∧ e.reaches path Ix.calCmd ∧ 1 ≤ path ∧ path ≤ 4 ∧ e.sup.emergencies.length < 32) ∧
    (∃ (t path : _) (s : State) (e : Dev), e = s.dev.at t ∧ e.reaches path Ix.calCmd) ∧
    (∃ (t obj converters : _) (s : State) (e : Dev) (e' : _), e = s.dev.at t ∧ isCalObj obj = true ∧ (calKind obj = 1 ∨ calKind obj = 2 ∨ calKind obj
      = 4 ∨ calKind obj = 5) ∧ e.sup.running = true ∧ e.hw.auxIn = true ∧ e' = e.convReads converters ∧ e.cal.seen.get (0, 0) obj ≠ e'.calEvents obj ∧
      e.nW Ix.calObjState obj ≠ 2 ∧ obj ∉ e.cal.dueRaised ∧ e.sup.emergencies.length < 32) ∧
    (∃ (t obj : _) (s : State) (e : Dev), e = s.dev.at t ∧ isCalObj obj = true ∧ calKind obj = 7 ∧ e.hw.auxIn = false ∧ e.sup.running = true ∧ e.nW
      Ix.calObjState obj ≠ 0 ∧ (e.rd Ix.calObjTime 1 obj).toNat * two48 + (e.rd Ix.calObjTime 2 obj).toNat + e.n0 Ix.calRecalHours * 3600 * sec ≤
      e.time96 ∧ e.nW Ix.calObjState obj ≠ 2 ∧ obj ∉ e.cal.dueRaised ∧ e.sup.emergencies.length < 32) :=
  ⟨⟨0, 1, at0 (dv [(Ix.calObjSel, 0, 1, 258)] { up with cal := { up.cal with runs := [] } }), _, 258, rfl, (by delta Dev.reaches; decide +kernel)⟩,
    ⟨0, 1, at0 (dv [(Ix.calObjSel, 0, 1, 258)] { up with cal := { up.cal with runs := [{ obj := 0x0103 }] } }), _, 258, rfl, (by
      delta Dev.reaches; decide +kernel)⟩,
    ⟨0, 1, at0 (dv [(Ix.calObjSel, 0, 1, 3842)] up), _, 3842, rfl, (by delta Dev.reaches; decide +kernel)⟩,
    ⟨0, 1, at0 ({ up with cal := { up.cal with runs := [({ obj := 0x0102, phase := 1 } : CalRun)] } }), _, ({ obj := 0x0102, phase := 1 } : CalRun),
      rfl, (by delta Dev.reaches; decide +kernel)⟩,
    ⟨0, 1, at0 ({ up with cal := { up.cal with runs := [] } }), _, rfl, (by delta Dev.reaches; decide +kernel)⟩,
    ⟨0, 514, (17 : Int), 1000000, 0, ([] : List Nat), at0
      ({ up with cal := { up.cal with runs := [({ obj := 0x0202, phase := 0, signature := (up.at 0).calSignature 0x0202 } : CalRun)] }, sup := { up.sup with running := true } }),
      _, ({ obj := 0x0202, phase := 0, signature := (up.at 0).calSignature 0x0202 } : CalRun), (((at0
      ({ up with cal := { up.cal with runs := [({ obj := 0x0202, phase := 0, signature := (up.at 0).calSignature 0x0202 } : CalRun)] }, sup := { up.sup with running := true } })).dev.at
      0).calMeasured 0x0202 17 1000000 0 []).1, (((at0
      ({ up with cal := { up.cal with runs := [({ obj := 0x0202, phase := 0, signature := (up.at 0).calSignature 0x0202 } : CalRun)] }, sup := { up.sup with running := true } })).dev.at
      0).calMeasured 0x0202 17 1000000 0 []).2, rfl, by decide +kernel⟩,
    ⟨0, 3, at0 (dv [(Ix.calTrimMode, 4, 0, 1)]
      { up with cal := { up.cal with runs := [({ obj := 0x0603, c0 := 2048 } : CalRun)] }, sup := { up.sup with running := true } }), _,
      ({ obj := 0x0603, c0 := 2048 } : CalRun), rfl, by decide +kernel⟩,
    ⟨0, 1, at0 (up), _, rfl, (by delta Dev.reaches; decide +kernel)⟩,
    ⟨0, 1, at0 (up), _, rfl, (by delta Dev.reaches; decide +kernel)⟩,
    ⟨0, 1, at0 (up), _, rfl, (by delta Dev.reaches; decide +kernel)⟩,
    ⟨0, 514, 5, at0 (dv [(Ix.tbSwitchovers, 0, 0, 1), (Ix.calObjState, 0, 514, 0)]
      { up with hw := { up.hw with auxIn := true }, now := 2 ^ 60, sup := { up.sup with running := true } }), _, (((at0 (dv [(Ix.tbSwitchovers, 0, 0,
      1), (Ix.calObjState, 0, 514, 0)] { up with hw := { up.hw with auxIn := true }, now := 2 ^ 60, sup := { up.sup with running := true } })).dev.at
      0).convReads 5), rfl, by decide +kernel⟩,
    ⟨0, 1794, at0 (dv [(Ix.calObjState, 0, 1794, 1)]
      { up with hw := { up.hw with auxIn := false }, now := 2 ^ 70, tb := { up.tb with running := true }, sup := { up.sup with running := true } }),
      _, rfl, by decide +kernel⟩⟩

/-- Every clause of `Obligations.CounterCommands` has a state and operands that meet its hypotheses together. -/
theorem test_meets_CounterCommands :
    (∃ (t path : _) (s : State) (e : Dev), e = s.dev.at t ∧ e.reaches path Ix.ctrFreeze ∧ e.ctr.frozen = none ∧ e.ctr.freezeAt = none) ∧
    (∃ (t path : _) (s : State) (e : Dev), e = s.dev.at t ∧ e.reaches path Ix.ctrFreeze ∧ e.ctr.frozen.isSome = true) ∧
    (∃ (t path : _) (s : State) (e : Dev), e = s.dev.at t ∧ e.reaches path Ix.ctrFreeze ∧ e.ctr.frozen = none) ∧
    (∃ (t path : _) (s : State) (e : Dev) (sel : _), e = s.dev.at t ∧ e.reaches path Ix.ctrFlags ∧ 1 ≤ path ∧ path ≤ 4 ∧ e.nW Ix.ctrEventSel path =
      sel ∧ 5 ≤ selCode sel % 256 ∧ selCode sel ≠ 0x0C10) ∧
    (∃ (t path : _) (s : State) (e : Dev), e = s.dev.at t ∧ e.reaches path Ix.ctrSnapCmd) ∧
    (∃ (t : _) (s : State) (e : Dev) (p k : _), e = s.dev.at t ∧ k = e.time96 * 1000000 / two48 / p ∧ e.n0 Ix.ctrSnapPeriod = p ∧ p ≠ 0 ∧ e.tb.running
      = true ∧ e.time96 < us (k * p) + us 1 ∧ e.ctr.banks.length < 2 ∧ e.n0 Ix.ctrSnapRing = noRing) ∧
    (∃ (t n : _) (s : State) (e : Dev) (x : SamplerSt) (k : _), e = s.dev.at t ∧ k = e.nI Ix.ctrSmpEvent n ∧ n < 16 ∧ e.ctr.samplers.get {} n = x ∧
      x.on = true ∧ (wrap48 (e.counterRaw (selCode k) (selInst k)) + two48 - wrap48 (x.base + x.k * e.nI Ix.ctrSmpPeriod n)) % two48 < 2 ^ 47 ∧
      x.lastRecord = none ∧ e.n0 Ix.ctrSmpRing = noRing) :=
  ⟨⟨0, 1, at0 ({ up with ctr := { up.ctr with frozen := none, freezeAt := none } }), _, rfl, (by delta Dev.reaches; decide +kernel)⟩,
    ⟨0, 1, at0 ({ up with ctr := { up.ctr with frozen := some (0, []) } }), _, rfl, (by delta Dev.reaches; decide +kernel)⟩,
    ⟨0, 1, at0 ({ up with ctr := { up.ctr with frozen := none } }), _, rfl, (by delta Dev.reaches; decide +kernel)⟩,
    ⟨0, 1, at0 (dv [(Ix.ctrEventSel, 0, 1, 131333)] { up with ctr := { up.ctr with wrapped := [256 * selCode 0x020105 + selInst 0x020105] } }), _,
      131333, rfl, (by delta Dev.reaches; decide +kernel)⟩,
    ⟨0, 1, at0 (up), _, rfl, (by delta Dev.reaches; decide +kernel)⟩,
    ⟨0, at0 (dv [(Ix.ctrSnapPeriod, 0, 0, 100)] { up with now := us 250000, tb := { up.tb with running := true } }), _, 100, _, rfl, rfl,
      by decide +kernel⟩,
    ⟨0, 3, at0 (dv [(Ix.ctrSmpEvent, 4, 0, 1), (Ix.ctrSmpRing, 0, 0, 4294967295)]
      { up with ctr := { up.ctr with samplers := [(3, ({ on := true, k := 0 } : SamplerSt))] } }), _, ({ on := true, k := 0 } : SamplerSt), _, rfl,
      rfl, by decide +kernel⟩⟩

/-- Every clause of `Obligations.RepointingCommandsAndSelfTests` has a state and operands that meet its hypotheses together. -/
theorem test_meets_RepointingCommandsAndSelfTests :
    (∃ (t path isl inst : _) (s : State) (e : Dev), e = s.dev.at t ∧ e.reaches path Ix.fltRepoint ∧ inst < 256 ∧ isRepointable isl inst = true ∧ isl ≠
      2 ∧ isl ≠ 3 ∧ (isl = 7 → e.inService inst = true) ∧ e.repointBusy = false) ∧
    (∃ (t path isl inst : _) (s : State) (e : Dev), e = s.dev.at t ∧ e.reaches path Ix.fltRepoint ∧ 1 ≤ path ∧ path ≤ 4 ∧ inst < 256 ∧ isRepointable
      isl inst = true ∧ (isl = 7 → e.inService inst = true) ∧ e.repointBusy = true) ∧
    (∃ (t path isl inst : _) (s : State) (e : Dev), e = s.dev.at t ∧ e.reaches path Ix.fltRepoint ∧ 1 ≤ path ∧ path ≤ 4 ∧ inst < 256 ∧ isRepointable
      isl inst = false) ∧
    (∃ (t path : _) (s : State) (e : Dev) (r : Repoint), e = s.dev.at t ∧ e.reaches path Ix.fltRepoint ∧ e.n0 Ix.fltUpdateState ≠ 3 ∧ e.n0
      Ix.fltUpdateState ≠ 5 ∧ e.flt.repoint = some r ∧ r.isl ≠ 2 ∧ r.isl ≠ 3 ∧ r.out = false ∧ (∀ c ∈ e.cut.engine, c.kind = .repointOut →
      c.distributed = false)) ∧
    (∃ (t : _) (s : State) (e : Dev) (r : Repoint), e = s.dev.at t ∧ e.flt.repoint = some r ∧ r.isl ≠ 2 ∧ r.isl ≠ 3 ∧ e.rd Ix.fltRepointState 0 0 = 2
      ∧ e.sup.running = true) ∧
    (∃ (t : _) (s : State) (e : Dev), e = s.dev.at t ∧ e.rd Ix.chnStandbyFor 0 0 = 0xFF ∧ e.repointing 2 = false ∧ e.sup.running = true ∧ 0 ∉
      e.flt.standbyFailed ∧ e.flt.selfTests.get 0 0 + 10 * sec ≤ e.now) ∧
    (∃ (t unit : _) (s : State) (e : Dev), e = s.dev.at t ∧ (unit < 2 ∨ 0x10 ≤ unit ∧ unit < 0x18) ∧ e.flt.selfTests.get 0 unit + 10 * sec ≤ e.now) ∧
    (∃ (t unit : _) (s : State) (e : Dev), e = s.dev.at t ∧ (unit < 2 ∨ 0x10 ≤ unit ∧ unit < 0x18) ∧ e.now < e.flt.selfTests.get 0 unit + 10 * sec) :=
  ⟨⟨0, 1, 4, 2, at0 (up), _, rfl, (by delta Dev.reaches; decide +kernel)⟩,
    ⟨0, 1, 4, 2, at0 ({ up with flt := { up.flt with repoint := some { isl := 4, inst := 1 } } }), _, rfl, (by delta Dev.reaches; decide +kernel)⟩,
    ⟨0, 1, 4, 77, at0 (up), _, rfl, (by delta Dev.reaches; decide +kernel)⟩,
    ⟨0, 1, at0 (dv [(Ix.fltUpdateState, 0, 0, 0)]
      { up with cut := { up.cut with engine := [{ kind := .repointOut, isl := 4, inst := 2 }] }, flt := { up.flt with repoint := some ({ isl := 4, inst := 2 } : Repoint) } }),
      _, ({ isl := 4, inst := 2 } : Repoint), rfl, (by delta Dev.reaches; decide +kernel)⟩,
    ⟨0, at0 (dv [(Ix.fltRepointState, 0, 0, 2)]
      { up with flt := { up.flt with repoint := some ({ isl := 4, inst := 2, out := true } : Repoint) }, sup := { up.sup with running := true } }), _,
      ({ isl := 4, inst := 2, out := true } : Repoint), rfl, by decide +kernel⟩,
    ⟨0, at0 (dv [(Ix.chnStandbyFor, 0, 0, 255)] { up with now := 2 ^ 60, sup := { up.sup with running := true } }), _, rfl, by decide +kernel⟩,
    ⟨0, 0, at0 ({ up with now := 2 ^ 60 }), _, rfl, by decide +kernel⟩,
    ⟨0, 1, at0 (up), _, rfl, by decide +kernel⟩⟩

/-- Every clause of `Obligations.FirmwareUpdateCommands` has a state and operands that meet its hypotheses together. -/
theorem test_meets_FirmwareUpdateCommands :
    (∃ (t path : _) (s : State) (e : Dev) (a : Alloc), e = s.dev.at t ∧ e.reaches path Ix.fltImgCmd ∧ e.fullService = true ∧ e.switching = false ∧
      e.allocOf 0x20 0 = some a) ∧
    (∃ (t path : _) (s : State) (e : Dev), e = s.dev.at t ∧ (∃ y, e.alloc 0x20 0 16777216 false = some y) ∧ e.reaches path Ix.fltImgCmd ∧
      e.fullService = true ∧ e.switching = false ∧ e.allocOf 0x20 0 = none) ∧
    (∃ (t path requires : _) (s : State) (e : Dev), e = s.dev.at t ∧ e.reaches path Ix.fltImgCmd ∧ e.fullService = true ∧ e.switching = false ∧
      (e.allocOf 0x20 0).isSome ∧ e.n0 Ix.fltImgLen ≠ 0 ∧ e.n0 Ix.fltImgLen ≤ 16777216 ∧ requires < 65536) ∧
    (∃ (t path : _) (s : State) (e : Dev), e = s.dev.at t ∧ e.reaches path Ix.fltImgCmd ∧ 1 ≤ path ∧ path ≤ 4 ∧ e.fullService = true ∧ e.switching =
      false ∧ (e.allocOf 0x20 0).isSome) ∧
    (∃ (t path : _) (s : State) (e : Dev), e = s.dev.at t ∧ e.reaches path Ix.fltImgCmd ∧ 1 ≤ path ∧ path ≤ 4 ∧ (e.fullService = false ∨ e.n0
      Ix.fltUpdateState ≠ 1)) ∧
    (∃ (t path : _) (s : State) (e : Dev), e = s.dev.at t ∧ e.reaches path Ix.fltImgCmd ∧ e.fullService = true ∧ e.n0 Ix.fltUpdateState = 1 ∧
      e.flt.repoint = none ∧ Nat.land (e.n0 Ix.fltUpdateRequired) (e.n0 Ix.fltUpdateMask) = e.n0 Ix.fltUpdateRequired) ∧
    (∃ (t path : _) (s : State) (e : Dev), e = s.dev.at t ∧ e.reaches path Ix.fltImgCmd ∧ e.n0 Ix.fltUpdateState = 3 ∧ e.flt.repoint = none) ∧
    (∃ (t : _) (s : State) (e : Dev), e = s.dev.at t ∧ e.n0 Ix.fltUpdateState = 3 ∧ e.flt.round = [] ∧ e.flt.repoint = none ∧ e.sup.running = true ∧
      e.sup.emergencies.length < 32 ∧ (e.n0 Ix.modBootImage = 1 ∨ e.n0 Ix.modBootImage = 2)) ∧
    (∃ (t : _) (s : State) (e : Dev), e = s.dev.at t ∧ e.n0 Ix.fltUpdateState = 5 ∧ e.flt.round = [] ∧ e.flt.repoint = none ∧ e.sup.running = true ∧
      e.sup.emergencies.length < 32) :=
  ⟨⟨0, 1, at0 (dv [(Ix.modService, 0, 0, 3)]
      { up with cap := { up.cap with allocs := [{ kind := 0x20, num := 0, first := 0, stripes := 512, map := 255, length := 16777216 }] } }), _,
      ({ kind := 0x20, num := 0, first := 0, stripes := 512, map := 255, length := 16777216 } : Alloc), rfl, (by delta Dev.reaches; decide +kernel)⟩,
    ⟨0, 1, at0 (dv [(Ix.capChannels, 0, 0, 255), (Ix.capState, 0, 0, 2), (Ix.modService, 0, 0, 3)] up), _, rfl,
      Option.isSome_iff_exists.mp (by decide +kernel), (by delta Dev.reaches; decide +kernel)⟩,
    ⟨0, 1, 65535, at0 (dv [(Ix.fltImgLen, 0, 0, 4096), (Ix.modService, 0, 0, 3)]
      { up with cap := { up.cap with allocs := [{ kind := 0x20, num := 0, first := 0, stripes := 512, map := 255, length := 16777216 }] } }), _, rfl,
      (by delta Dev.reaches; decide +kernel)⟩,
    ⟨0, 1, at0 (dv [(Ix.fltImgLen, 0, 0, 4096), (Ix.modService, 0, 0, 3)]
      { up with cap := { up.cap with allocs := [{ kind := 0x20, num := 0, first := 0, stripes := 512, map := 255, length := 16777216 }] } }), _, rfl,
      (by delta Dev.reaches; decide +kernel)⟩,
    ⟨0, 1, at0 (up), _, rfl, (by delta Dev.reaches; decide +kernel)⟩,
    ⟨0, 1, at0 (dv [(Ix.modService, 0, 0, 3), (Ix.fltUpdateState, 0, 0, 1)] { up with flt := { up.flt with repoint := none } }), _, rfl, (by
      delta Dev.reaches; decide +kernel)⟩,
    ⟨0, 1, at0 (dv [(Ix.fltUpdateState, 0, 0, 3)] { up with flt := { up.flt with repoint := none } }), _, rfl, (by delta Dev.reaches; decide +kernel)⟩,
    ⟨0, at0 (dv [(Ix.fltUpdateState, 0, 0, 3), (Ix.modBootImage, 0, 0, 1)]
      { up with flt := { up.flt with round := [], repoint := none }, sup := { up.sup with running := true } }), _, rfl, by decide +kernel⟩,
    ⟨0, at0 (dv [(Ix.fltUpdateState, 0, 0, 5)]
      { up with flt := { up.flt with round := [], repoint := none }, sup := { up.sup with running := true } }), _, rfl, by decide +kernel⟩⟩


end Sys2Proof.Tests
end

section
/-! PROOFS. How a command of each shape completes, and what a frame and a count say of one step after another. -/

namespace Sys2Proof.Machine

/-! ### Completion of a command -/

/-- A command that changes the device alone completes as its meaning on the device at its instant says. -/
theorem completes_run {i : Instr} {t : Nat} {s : State} {f : Dev → Dev} {pl : List Part} {ps : List Nat} {post : Dev → Prop}
    (h : exec i s = run t s f) :
    Completes i t s pl ps post ↔ (s.dev.at t).changesOnly pl ps (f (s.dev.at t)) ∧ post (f (s.dev.at t)) := by
  constructor
  · rintro ⟨d, he, hc, hp⟩
    rw [h] at he
    obtain rfl : f (s.dev.at t) = d := by simpa [run] using he
    exact ⟨hc, hp⟩
  · rintro ⟨hc, hp⟩
    exact ⟨_, h, hc, hp⟩

/-- A command that changes capture memory too completes as its meaning on both says. -/
theorem completesMem_runMem {i : Instr} {t : Nat} {s : State} {f : Mem → Dev → Mem × Dev} {pl : List Part} {ps : List Nat} {post : Mem → Dev → Prop}
    (h : exec i s = runMem t s f) (hc : (s.dev.at t).changesOnly pl ps (f s.mem (s.dev.at t)).2)
    (hp : post (f s.mem (s.dev.at t)).1 (f s.mem (s.dev.at t)).2) : CompletesMem i t s pl ps post :=
  ⟨_, _, h, hc, hp⟩

/-! ### Refutation of O56 -/

/-- The Supervisor is away, and island 8 at 1 GHz is to take point 0. -/
def pointChangeWhileAway : State :=
  { State.reset with dev := { ((State.reset.dev.wr Ix.tbIslFreq 8 0 1000000).wr Ix.pwrIslPoint 8 0 2) with pwr := { want := [(8, 0)] } } }

/-- Refutes O56: an island that takes its point while the Supervisor is away also leaves the change in `moved`, so that more of `pwr` changes than
the point wanted. -/
theorem not_governorAndEnergy : ¬ Obligations.GovernorAndEnergy := by
  unfold Obligations.GovernorAndEnergy
  rintro ⟨-, -, -, -, -, h, -⟩
  obtain ⟨-, -, hpwr⟩ := (completes_run rfl).1 (h 0 8 0 pointChangeWhileAway _ rfl (by decide) (by decide) (by decide) (by decide) (by decide)
    (by decide +kernel) (by decide) (by decide +kernel))
  exact absurd (congrArg PwrSt.moved hpwr) (by decide +kernel)

/-! ### Refutation of O4 -/

/-- Mask 0 runs, bound to layer 0. -/
def maskOnLayer0 : State := { State.reset with dev := (State.reset.dev.wr Ix.trgMaskState 1 0 1).wr Ix.trgMaskLayer 1 0 0 }

/-- Refutes O4: a frame that the crossing of a layer loses counts in `trg.mask_lost` of every running mask on that layer (R181), an entry that the
clause says reads as before (it lists `trg.mask_skipped` in its place). -/
theorem not_drainsCrossingsAndFaultLog : ¬ Obligations.DrainsCrossingsAndFaultLog := by
  unfold Obligations.DrainsCrossingsAndFaultLog
  rintro ⟨-, -, -, -, -, -, h, -⟩
  obtain ⟨⟨-, hsame⟩, -⟩ := (completes_run rfl).1 (h 0 0 0 1 maskOnLayer0 _ rfl (by decide))
  exact absurd (hsame Ix.trgMaskLost 1 0 (by decide)) (by decide +kernel)

/-! ### Refutation of O31 -/

/-- Magazine 5 is armed with its history in the slot, and its takes have no samples (P = Q = 0); samples of its one channel, link 0, have come. -/
def magazineOfNoSamples : State :=
  { State.reset with dev := {
      dict := (((((((State.reset.dev.wr Ix.trgMagSize 0 5 1).wr Ix.trgMagChan 1 5 0x10).wr Ix.trgMagPost 0 5 0).wr Ix.trgMagState 0 5 2).wr
        Ix.itkFs 1 0 1000000000).wr Ix.itkMode 1 0 3).wr Ix.itkLinkState 1 0 5).dict
      itk := { links := [(0, { checked := true, anchor := some 1000 })] }
      chn := { input := [(0x10, { asked := [(5, { i := 3, q := 4 }), (6, { i := 200, q := 0 })] })] }
      trg := { mags := [(5, { armed := true, inSlot := true, slotStart := 5, at_ := 5 })] } } }

/-- Refutes O31: with P = Q = L = 0 a magazine's history keeps no position, not even the one just written. The range of
`trg.mag_post` keeps Q ≥ 1 (R192), but the clause is over every state and does not ask it. -/
theorem not_hodBufferAndStalls : ¬ Obligations.HodBufferAndStalls := by
  unfold Obligations.HodBufferAndStalls
  rintro ⟨-, -, -, h, -⟩
  obtain ⟨-, -, hhist, -⟩ := (completes_run rfl).1 (h 0 5 magazineOfNoSamples _ _ _ 5 _ _ rfl (by decide) rfl rfl (by decide +kernel) (by decide +kernel)
    (by decide +kernel) (by decide +kernel) rfl rfl (by decide +kernel) (by decide +kernel) (by decide +kernel) (by decide +kernel))
  exact absurd hhist (by decide +kernel)

end Sys2Proof.Machine
end

section
/-! PROOFS. Commands on a path: how one that reaches its island completes, served or refused; and the commands of the cut entries (R28 to R32). -/

namespace Sys2Proof.Machine

/-! ### Commands that reach their island (R401, R403, R404, R407) -/

section
variable {i : Instr} {t path ix sub ix' sub' c : Nat} {v : Int} {s : State} {f : Dev → Dev} {pl ql : List Part} {ps qs : List Nat} {x : Dev}

/-- A command that reaches its island completes as its effect does there, within the effect's frame and that of taking a request. -/
theorem completes_command {post : Dev → Prop} (h : exec i s = run t s fun d => d.command path ix sub v f) (hr : (s.dev.at t).reaches path ix)
    (hx : f ((s.dev.at t).accept path ix sub) = x) (hf : ((s.dev.at t).accept path ix sub).changesOnly pl ps x)
    (hp : post ((s.dev.at t).served x path)) (hpl : ∀ p ∈ pl ++ requestParts, p ∈ ql := by decide)
    (hps : ∀ y ∈ ps ++ requestPlaces, y ∈ qs := by decide) : Completes i t s ql qs post := by
  subst hx
  rw [completes_run h]
  refine ⟨Dev.changesOnly_mono (Dev.command_only hr sub v f hf) hpl hps, ?_⟩
  rwa [Dev.command_reaches hr]

/-- A command whose island answers with a code on its path completes and reports the code, and nothing but the request's own places changes. -/
theorem completes_answered (h : exec i s = run t s fun d => d.command path ix sub v f) (hr : (s.dev.at t).reaches path ix)
    (hx : f ((s.dev.at t).accept path ix sub) = x) (hf : ((s.dev.at t).accept path ix sub).changesOnly pl ps x) (hc : x.reports path c)
    (hpl : ∀ p ∈ pl ++ requestParts, p ∈ requestParts := by decide) (hps : ∀ y ∈ ps ++ requestPlaces, y ∈ requestPlaces := by decide) :
    Completes i t s requestParts requestPlaces fun d => d.reports path c := by
  obtain ⟨hlast, hpath⟩ := hc
  exact completes_command h hr hx hf ⟨by rwa [Dev.rd_served _ _ _ _ _ _ (by decide)], by rwa [Dev.rd_served _ _ _ _ _ _ (by decide)]⟩ hpl hps

/-- A command that its island refuses with a code of severity 2. -/
theorem completes_refused (h : exec i s = run t s fun d => d.command path ix sub v f) (hr : (s.dev.at t).reaches path ix) (hpath : 1 ≤ path ∧ path ≤ 4)
    (hx : f ((s.dev.at t).accept path ix sub) = ((s.dev.at t).accept path ix sub).refuse path ix' sub' c)
    (hc : c < 2 ^ 32 := by decide) (hs : codeSeverity c = 2 := by decide) (hh : heatsRegister c = false := by decide) :
    Completes i t s requestParts requestPlaces fun d => d.reports path c :=
  completes_answered h hr hx (Dev.refuse_only ..) (Dev.refuse_places _ _ _ _ _ hc hs hh hpath)

/-- A command that finds nothing left to do: ALREADY_DONE, where the queue of emergencies has room (R486). -/
theorem completes_alreadyDone (h : exec i s = run t s fun d => d.command path ix sub v f) (hr : (s.dev.at t).reaches path ix)
    (hpath : 1 ≤ path ∧ path ≤ 4) (hx : f ((s.dev.at t).accept path ix sub) = ((s.dev.at t).accept path ix sub).alreadyDone path)
    (hroom : (s.dev.at t).sup.emergencies.length < 32) :
    Completes i t s requestParts requestPlaces fun d => d.reports path Code.alreadyDone :=
  completes_answered h hr hx (Dev.raise_only ..) (Dev.raise_places _ path Code.alreadyDone (by simpa using hroom) (by decide) hpath)

end

/-! ### The waiting cut -/

theorem typeOf_cutState : typeOf Ix.modCutState 0 = 5 := by decide

/-- `mod.cut_state` reads the state it was given (Table 1.5 has five). -/
theorem Dev.rd_cutState (d : Dev) (v : Nat) (hv : v < 256) : (d.w0 Ix.modCutState v).rd Ix.modCutState 0 0 = v := by
  rw [Dev.w0_eq, Dev.rd_wr, if_pos ⟨rfl, rfl, rfl⟩, typeOf_cutState]
  exact normTy_nat (by decide) (by decide) (by simpa [typeBytes] using hv)

theorem Dev.restage_only (d : Dev) (l : List SWrite) : d.changesOnly [.cut] [] (d.restage l) := Dev.cut_only ..

theorem Dev.promoteCut_only (d : Dev) : d.changesOnly [.cut] [Ix.modCutState] d.promoteCut := by
  unfold Dev.promoteCut
  split
  · exact Dev.changesOnly_refl ..
  · exact Dev.changesOnly_trans (Dev.cut_only ..) (Dev.wr_only ..)

theorem Dev.dropActive_only (d : Dev) (state : Nat) : d.changesOnly [.cut] [Ix.modCutState] (d.dropActive state) := by
  have hcut : ∀ x : CutSt, d.changesOnly [.cut] [Ix.modCutState] { d with cut := x }.promoteCut := fun x =>
    Dev.changesOnly_step (Dev.changesOnly_mono (Dev.cut_only d x) (by simp) (by simp)) (Dev.promoteCut_only _)
  unfold Dev.dropActive
  cases d.cut.user <;>
    exact Dev.changesOnly_ite (fun _ => Dev.changesOnly_step (hcut _) (Dev.changesOnly_mono (Dev.wr_only ..) (by simp) (by simp))) fun _ => hcut _

/-- Promoting touches none of the staged set, your cut, the sequence and the shadow. -/
theorem Dev.promoteCut_cut (d : Dev) : d.promoteCut.cut = { d.cut with engine := d.promoteCut.cut.engine } := by
  unfold Dev.promoteCut
  split <;> rfl

theorem Dev.promoteCut_of_nil {d : Dev} (h : d.cut.engine = []) : d.promoteCut = d := by
  unfold Dev.promoteCut; rw [h]

/-- The engine's cut that becomes the waiting one stays one of as many, and is shown as waiting. -/
theorem Dev.promoteCut_of_cons {d : Dev} (h : d.cut.engine ≠ []) :
    d.promoteCut.cut.engine ≠ [] ∧ d.promoteCut.rd Ix.modCutState 0 0 = 2 := by
  unfold Dev.promoteCut
  split
  · next h' => exact absurd h' h
  · exact ⟨by simp, Dev.rd_cutState _ 2 (by decide)⟩

/-- Your cut is gone and none of the engine's waits: nothing else of the cuts changes, and the state is shown. -/
theorem Dev.dropActive_user {d : Dev} {c : Cut} (hu : d.cut.user = some c) (he : d.cut.engine = []) (state : Nat) :
    d.dropActive state = { d with cut := { d.cut with user := none } }.w0 Ix.modCutState state := by
  simp [Dev.dropActive, hu, he, Dev.promoteCut_of_nil]

/-- Your cut is gone, the staged set stays; an engine cut that waits is shown in its place. -/
theorem Dev.dropActive_aborted {d : Dev} {c : Cut} (hu : d.cut.user = some c) :
    (d.dropActive 1).cut.user = none ∧ (d.dropActive 1).cut.staged = d.cut.staged ∧
      (d.dropActive 1).rd Ix.modCutState 0 0 = (if d.cut.engine = [] then 1 else 2) := by
  by_cases he : d.cut.engine = []
  · rw [Dev.dropActive_user hu he, if_pos he]
    exact ⟨rfl, rfl, Dev.rd_cutState _ 1 (by decide)⟩
  · have hp := Dev.promoteCut_of_cons (d := { d with cut := { d.cut with user := none } }) he
    have hd : d.dropActive 1 = { d with cut := { d.cut with user := none } }.promoteCut := by
      simp [Dev.dropActive, hu, hp.1]
    rw [hd, Dev.promoteCut_cut, if_neg he]
    exact ⟨rfl, rfl, hp.2⟩

/-! ### The commands -/

/-- What a commit takes for T depends on the present sample time and the two entries alone (R28). -/
theorem Dev.cutAt_accept (d : Dev) (path ix sub : Nat) : (d.accept path ix sub).cutAt = d.cutAt := by
  simp [Dev.cutAt, Dev.soon, Dev.time96, Dev.time96At]

theorem Dev.cutWaiting_accept (d : Dev) (path ix sub : Nat) : (d.accept path ix sub).cutWaiting = d.cutWaiting := by
  simp [Dev.cutWaiting]

section
variable {t path : Nat} {s : State} {e : Dev} (he : e = s.dev.at t) (hr : e.reaches path Ix.modCutCommit)
include he hr

theorem cutCommit_closes (hw : e.cutWaiting = false) (hst : e.cut.staged ≠ []) :
    Completes (.cutCommit t path) t s (.cut :: requestParts) (Ix.modCutState :: requestPlaces) fun d =>
      d.cut = { e.cut with staged := [], user := some { writes := e.cut.staged, due := e.cutAt.1, explicit := e.cutAt.2, path := path, observed := e.now } } ∧
      d.rd Ix.modCutState 0 0 = 2 := by
  subst he
  refine completes_command (pl := [.cut]) (ps := [Ix.modCutState]) rfl hr
    ((if_neg (by simp [Dev.cutWaiting_accept, hw])).trans (if_neg (by simpa using hst)))
    (Dev.changesOnly_trans (Dev.cut_only ..) (Dev.wr_only ..)) ⟨by simp [Dev.cutAt_accept], ?_⟩
  rw [Dev.rd_served _ _ _ _ _ _ (by decide)]
  exact Dev.rd_cutState _ 2 (by decide)

theorem cutCommit_busy (hp : 1 ≤ path ∧ path ≤ 4) (hw : e.cutWaiting = true) :
    Completes (.cutCommit t path) t s requestParts requestPlaces fun d => d.reports path Code.cutBusy := by
  subst he
  exact completes_refused rfl hr hp (if_pos (by rwa [Dev.cutWaiting_accept]))

theorem cutCommit_nothingStaged (hp : 1 ≤ path ∧ path ≤ 4) (hw : e.cutWaiting = false) (hst : e.cut.staged = []) :
    Completes (.cutCommit t path) t s requestParts requestPlaces fun d => d.reports path Code.cutNothingStaged := by
  subst he
  exact completes_refused (ix' := Ix.modCutCommit) (sub' := 0) rfl hr hp (by simp [Dev.cutWaiting_accept, hw, hst])

theorem cutAbort_stagesAgain {c : Cut} (hu : e.cut.user = some c) (hd : c.distributed = false) :
    Completes (.cutAbort t path) t s (.cut :: requestParts) (Ix.modCutState :: requestPlaces) fun d =>
      d.cut.user = none ∧ d.cut.staged = e.cut.staged.foldl (fun l w => putWrite w l) c.writes ∧
      d.rd Ix.modCutState 0 0 = (if e.cut.engine = [] then 1 else 2) := by
  subst he
  obtain ⟨hnone, hstaged, hstate⟩ := Dev.dropActive_aborted (d := ((s.dev.at t).accept path Ix.modCutCommit 0).restage c.writes) (c := c)
    (by simpa [Dev.restage] using hu)
  refine completes_command (x := (((s.dev.at t).accept path Ix.modCutCommit 0).restage c.writes).dropActive 1)
    rfl hr (by simp only [Dev.accept_cut, hu, hd, Bool.false_eq_true, if_false])
    (Dev.changesOnly_trans (Dev.restage_only _ c.writes) (Dev.dropActive_only ..)) ?_
  rw [Dev.served_cut, Dev.rd_served _ _ _ _ _ _ (by decide), hnone, hstaged, hstate]
  simp [Dev.restage]

theorem cutAbort_alreadyDone (hp : 1 ≤ path ∧ path ≤ 4) (hu : ∀ c, e.cut.user = some c → c.distributed = true)
    (hq : e.sup.emergencies.length < 32) :
    Completes (.cutAbort t path) t s requestParts requestPlaces fun d => d.reports path Code.alreadyDone := by
  subst he
  refine completes_alreadyDone rfl hr hp ?_ hq
  simp only [Dev.accept_cut]
  split
  · next c h => rw [if_pos (hu c h)]
  · rfl

theorem cutDiscardStaged_empties :
    Completes (.cutDiscardStaged t path) t s (.cut :: requestParts) (Ix.modCutState :: requestPlaces) fun d =>
      d.cut = { e.cut with staged := [] } ∧ d.rd Ix.modCutState 0 0 = (if e.cutWaiting then e.rd Ix.modCutState 0 0 else 0) := by
  subst he
  refine completes_command (pl := [.cut]) (ps := [Ix.modCutState]) rfl hr rfl ?_ ?_
  · exact Dev.changesOnly_ite (fun _ => Dev.changesOnly_mono (Dev.cut_only ..) (by simp) (by simp)) fun _ =>
      Dev.changesOnly_trans (Dev.cut_only ..) (Dev.wr_only ..)
  · have hw : ∀ x, { (s.dev.at t).accept path Ix.modCutCommit 0 with cut := { (s.dev.at t).cut with staged := x } }.cutWaiting
        = (s.dev.at t).cutWaiting := fun _ => rfl
    rw [Dev.served_cut, Dev.rd_served _ _ _ _ _ _ (by decide)]
    simp only [Dev.accept_cut, hw]
    cases (s.dev.at t).cutWaiting with
    | true => exact ⟨rfl, Dev.rd_accept ..⟩
    | false => exact ⟨rfl, Dev.rd_cutState _ 0 (by decide)⟩

end

/-- Settles O5: each command of the cut entries, in each of its cases. -/
theorem cutCommandsCommitAbortAndDiscard : Obligations.CutCommandsCommitAbortAndDiscard :=
  ⟨fun _ _ _ _ he hr hw hst => cutCommit_closes he hr hw hst, fun _ _ _ _ he hr hp hw => cutCommit_busy he hr hp hw,
    fun _ _ _ _ he hr hp hw hst => cutCommit_nothingStaged he hr hp hw hst, fun _ _ _ _ _ he hr hu hd => cutAbort_stagesAgain he hr hu hd,
    fun _ _ _ _ he hr hp hu hq => cutAbort_alreadyDone he hr hp hu hq, fun _ _ _ _ he hr => cutDiscardStaged_empties he hr⟩

end Sys2Proof.Machine
end

section
/-! PROOFS. The commit point of a cut and its application by the islands (R28 to R31). -/

namespace Sys2Proof.Machine

/-! ### Completion, the meaning evaluated -/

/-- A command that changes the device alone completes with what its meaning evaluates to. -/
theorem completes_of_eq {i : Instr} {t : Nat} {s : State} {f : Dev → Dev} {pl : List Part} {ps : List Nat} {post : Dev → Prop} {x : Dev}
    (h : exec i s = run t s f) (hx : f (s.dev.at t) = x) (hc : (s.dev.at t).changesOnly pl ps x) (hp : post x) : Completes i t s pl ps post :=
  (completes_run h).2 ⟨hx ▸ hc, hx ▸ hp⟩

/-- The same for an event that names a unit of the module and may change capture memory. -/
theorem completesMem_of_eq {i : Instr} {ok : Bool} {t : Nat} {s : State} {f : Mem → Dev → Mem × Dev} {pl : List Part} {ps : List Nat}
    {post : Mem → Dev → Prop} {m : Mem} {x : Dev} (h : exec i s = runMemIf ok t s f) (hok : ok = true) (hx : f s.mem (s.dev.at t) = (m, x))
    (hc : (s.dev.at t).changesOnly pl ps x) (hp : post m x) : CompletesMem i t s pl ps post := by
  subst hok
  exact completesMem_runMem (f := fun m d => if true then f m d else (m, d)) h (by rwa [if_pos rfl, hx]) (by rwa [if_pos rfl, hx])

/-- An entry that a frame does not list reads as before. -/
theorem Dev.changesOnly.rd {pl : List Part} {ps : List Nat} {d e : Dev} (h : d.changesOnly pl ps e) {ix : Nat} (sub inst : Nat) (hix : ix ∉ ps) :
    e.rd ix sub inst = d.rd ix sub inst := h.2 ix sub inst hix

/-- The cuts of a device whose frame does not list them are as before. -/
theorem Dev.changesOnly.cut {pl : List Part} {ps : List Nat} {d e : Dev} (h : d.changesOnly pl ps e) (hp : Part.cut ∉ pl) : e.cut = d.cut :=
  (h.1 .cut hp (by decide)).symm

/-! ### The commit point (R29) -/

theorem exec_cutCommitPoint (t : Nat) (s : State) : exec (.cutCommitPoint t) s = execCutCommitPoint t s := rfl
theorem exec_cutApply (t isl first : Nat) (s : State) : exec (.cutApply t isl first) s = execCutApply t isl first s := rfl

/-- A cut is not late where T was not given, or lies far enough ahead. -/
theorem not_late {c : Cut} {n : Nat} (h : c.explicit = false ∨ n ≤ c.due) : (c.explicit && decide (c.due < n)) = false := by
  rcases h with h | h
  · simp [h]
  · simp [Nat.not_lt.2 h]

theorem Dev.activeCut_of_user {d : Dev} {c : Cut} (h : d.cut.user = some c) : d.activeCut = some c := by simp [Dev.activeCut, h]

/-- A set in force and the cuts are two parts of the device. -/
theorem Dev.overlay_withCut (d : Dev) (x : CutSt) (l : List SWrite) : { d with cut := x }.overlay l = { d.overlay l with cut := x } := by
  induction l generalizing d with
  | nil => rfl
  | cons w r ih => exact ih (d.wr w.ix w.sub w.inst w.value)

/-- What calibration adds to a set depends on no cut. -/
theorem Dev.calExtra_withCut (d : Dev) (x : CutSt) (l : List SWrite) : { d with cut := x }.calExtra l = d.calExtra l := by
  simp only [Dev.calExtra, Dev.overlay_withCut]; rfl

theorem Dev.time96_withCut (d : Dev) (x : CutSt) : { d with cut := x }.time96 = d.time96 := rfl

/-- A commit over PCIe is answered by no message. -/
theorem Dev.commitAnswer_pcie (d : Dev) {c : Cut} (h : c.path = 2) (ok : Bool) : d.commitAnswer c ok = d := by simp [Dev.commitAnswer, h]

/-- A set that does not pass, of a commit over PCIe: it is staged again, your cut is gone, and a code says why; the codes of islands follow (R33). -/
def Dev.cutRejected (d : Dev) (l : List SWrite) (why : Nat) (codes : List Nat) : Dev :=
  codes.foldl (fun (a : Dev) k => a.raise 2 k) (((d.restage l).dropActive 4).refuse 2 Ix.modCutCommit 0 why)

/-- The codes of a rejection touch no cut and no entry but the codes' own. -/
theorem Dev.cutRejected_codes_only (d : Dev) (l : List SWrite) (why : Nat) (codes : List Nat) :
    ((d.restage l).dropActive 4).changesOnly (codeParts ++ codeParts) (Ix.dictRejections :: codePlaces ++ codePlaces) (d.cutRejected l why codes) :=
  Dev.changesOnly_trans (Dev.refuse_only ..) (Dev.changesOnly_foldl _ (fun a k => Dev.raise_only a 2 k) codes _)

theorem Dev.cutRejected_only (d : Dev) (l : List SWrite) (why : Nat) (codes : List Nat) :
    d.changesOnly (.cut :: codeParts) (Ix.modCutState :: Ix.dictRejections :: codePlaces) (d.cutRejected l why codes) :=
  Dev.changesOnly_mono (Dev.changesOnly_trans (Dev.changesOnly_trans (Dev.restage_only d l) (Dev.dropActive_only _ 4))
    (Dev.cutRejected_codes_only d l why codes)) (by decide) (by decide)

/-- With no engine cut behind it: the set is staged again under what was observed since, and `mod.cut_state` shows the rejection. -/
theorem Dev.cutRejected_staged {d : Dev} {c : Cut} (hu : d.cut.user = some c) (hen : d.cut.engine = []) (l : List SWrite) (why : Nat) (codes : List Nat) :
    (d.cutRejected l why codes).cut = { d.cut with user := none, staged := d.cut.staged.foldl (fun l w => putWrite w l) l } ∧
      (d.cutRejected l why codes).rd Ix.modCutState 0 0 = 4 := by
  have hdrop := Dev.dropActive_user (d := d.restage l) hu hen 4
  have hcodes := Dev.cutRejected_codes_only d l why codes
  constructor
  · rw [hcodes.cut (by decide), hdrop]; rfl
  · rw [hcodes.rd 0 0 (by decide), hdrop]
    exact Dev.rd_cutState _ 4 (by decide)

/-- A rejection that no island's code follows reports its own. -/
theorem Dev.cutRejected_reports (d : Dev) (l : List SWrite) {why : Nat} (hc : why < 2 ^ 32) (hs : codeSeverity why = 2)
    (hh : heatsRegister why = false) : (d.cutRejected l why []).reports 2 why :=
  Dev.refuse_places _ 2 Ix.modCutCommit 0 why hc hs hh (by decide)

section
variable {t : Nat} {s : State} {e : Dev} {c : Cut} (he : e = s.dev.at t) (hu : e.cut.user = some c) (hd : c.distributed = false)
  (hr : e.sup.running = true) (hk : c.kind = .user) (hp : c.path = 2)
include he hu hd hr hk hp

theorem cutCommitPoint_distributes (ht : c.explicit = false ∨ e.soon ≤ c.due) (hok : e.setCheck c.writes = []) :
    Completes (.cutCommitPoint t) t s [.cut] [] fun d =>
      d.cut = { e.cut with seqTaken := wrap48 (e.cut.seqTaken + 1), user := some { c with
        distributed := true, known := e.time96, seq := wrap48 (e.cut.seqTaken + 1), writes := c.writes ++ e.calExtra c.writes } } := by
  subst he
  refine completes_of_eq (x := { s.dev.at t with cut := { (s.dev.at t).cut with
      seqTaken := wrap48 ((s.dev.at t).cut.seqTaken + 1), user := some { c with
        distributed := true, known := (s.dev.at t).time96, seq := wrap48 ((s.dev.at t).cut.seqTaken + 1),
        writes := c.writes ++ (s.dev.at t).calExtra c.writes } } }) (exec_cutCommitPoint t s) ?_ (Dev.cut_only ..) rfl
  simp [Dev.activeCut_of_user hu, hd, hr, not_late ht, hok, hk, Dev.nextCut, Dev.commitAnswer_pcie _ hp, Dev.setActive, hu, Dev.calExtra_withCut,
    Dev.time96_withCut]

theorem cutCommitPoint_late (hx : c.explicit = true) (hlate : c.due < e.soon) (hen : e.cut.engine = []) :
    Completes (.cutCommitPoint t) t s (.cut :: codeParts) (Ix.modCutState :: Ix.dictRejections :: codePlaces) fun d =>
      d.cut = { e.cut with user := none, staged := e.cut.staged.foldl (fun l w => putWrite w l) c.writes } ∧ d.rd Ix.modCutState 0 0 = 4 ∧
      d.reports 2 Code.cutTimePast := by
  subst he
  obtain ⟨hcut, hstate⟩ := Dev.cutRejected_staged hu hen c.writes Code.cutTimePast []
  refine completes_of_eq (x := (s.dev.at t).cutRejected c.writes Code.cutTimePast []) (exec_cutCommitPoint t s) ?_ (Dev.cutRejected_only ..)
    ⟨hcut, hstate, Dev.cutRejected_reports _ _ (by decide) (by decide) (by decide)⟩
  simp [Dev.activeCut_of_user hu, hd, hr, hx, hlate, hk, hp, Dev.commitAnswer_pcie _ hp, Dev.cutRejected]

theorem cutCommitPoint_rejected (ht : c.explicit = false ∨ e.soon ≤ c.due) (hbad : e.setCheck c.writes ≠ []) (hen : e.cut.engine = []) :
    Completes (.cutCommitPoint t) t s (.cut :: codeParts) (Ix.modCutState :: Ix.dictRejections :: codePlaces) fun d =>
      d.cut = { e.cut with user := none, staged := e.cut.staged.foldl (fun l w => putWrite w l) c.writes } ∧ d.rd Ix.modCutState 0 0 = 4 := by
  subst he
  refine completes_of_eq (x := (s.dev.at t).cutRejected c.writes Code.cutRejectedIsland ((s.dev.at t).setCheck c.writes)) (exec_cutCommitPoint t s) ?_
    (Dev.cutRejected_only ..) (Dev.cutRejected_staged hu hen ..)
  simp [Dev.activeCut_of_user hu, hd, hr, not_late ht, hbad, hk, hp, Dev.commitAnswer_pcie _ hp, Dev.cutRejected]

end

/-! ### Application (R28, R30) -/

/-- Before the boundaries of a cut begin no unit applies it. -/
theorem Dev.unitDue_early (d : Dev) {c : Cut} (isl unit : Nat) {first : Nat} (h : first < c.from_) : d.unitDue c isl first unit = false := by
  simp [Dev.unitDue, Nat.not_le.2 h]

/-- An island as a whole applies a cut at its first block boundary. -/
theorem Dev.unitDue_whole (d : Dev) {c : Cut} {isl first : Nat} (hun : c.units = []) (hf : c.from_ ≤ first) (hb : d.islandBlock isl c.from_ = some first) :
    d.unitDue c isl first 0xFF = true := by
  simp [Dev.unitDue, hun, hf, Dev.unitHere, Dev.unitBlock, hb]

theorem cutApply_early {t isl first : Nat} {s : State} {e : Dev} {c : Cut} (he : e = s.dev.at t) (hi : 1 ≤ isl ∧ isl ≤ 12) (hu : e.cut.user = some c)
    (hearly : first < c.due) : CompletesMem (.cutApply t isl first) t s [] [] fun m d => m = s.mem ∧ d.cut = e.cut := by
  subst he
  have hnone : (c.unitsOf isl).filter ((s.dev.at t).unitDue c isl first) = [] :=
    List.filter_eq_nil_iff.2 fun u _ => by simp [Dev.unitDue_early _ isl u (Nat.lt_of_lt_of_le hearly (Nat.le_max_left c.due c.known))]
  exact completesMem_of_eq (m := s.mem) (x := s.dev.at t) (exec_cutApply t isl first s) (by simp [hi]) (by simp [Dev.activeCut_of_user hu, hnone])
    (Dev.changesOnly_refl ..) ⟨rfl, rfl⟩

/-- A tick lies at or after its instant. -/
theorem le_tickAt (u : Nat) : u ≤ tickAt u := by
  simp only [tickAt, us, ceilDiv, two48]
  omega

theorem cutApply_defersStall {t first : Nat} {s : State} {e : Dev} {c : Cut} (he : e = s.dev.at t) (ha : e.activeCut = some c) (hd : c.distributed = true)
    (hf : first = tickAt (max c.due c.known)) (happ : c.applied = []) (hun : c.units = []) (hk : c.kind = .repointOut) (hi : c.isl = 7)
    (hon : e.islandOff 7 = false) (hst : e.mayStall = false) :
    CompletesMem (.cutApply t 7 first) t s [.ctr] [Ix.capStallDeferrals] fun m d => m = s.mem ∧ e.counted d Ix.capStallDeferrals 0 0 1 := by
  subst he hf
  have hunits : c.unitsOf 7 = [0xFF] := by simp [Cut.unitsOf, hk]
  have hdue : (s.dev.at t).unitDue c 7 (tickAt (max c.due c.known)) 0xFF = true := Dev.unitDue_whole _ hun (le_tickAt _) rfl
  refine completesMem_of_eq (m := s.mem) (x := (s.dev.at t).inc0 Ix.capStallDeferrals) (exec_cutApply t 7 _ s) rfl ?_ (Dev.inc_only ..) ⟨rfl, ?_⟩
  · simp [ha, hd, happ, hunits, hdue, Cut.islands, hk, hi, hon, hst]
  · simp [Dev.counted]

/-! ### A set of yours at the Supervisor's island, which applies it as a whole and at once -/

theorem writeUnit_twelve {w : SWrite} (h : writeIsland w = 12) : writeUnit w = 0xFF := by simp [writeUnit, h]

/-- No sampler restarts where none of its entries is written. -/
theorem Dev.ctrCut_of_others (d : Dev) {l : List SWrite} (h : ∀ w ∈ l, w.ix < 0x5030 ∨ 0x5032 < w.ix) : d.ctrCut l = d := by
  have hany : ∀ n, l.any (fun w => 0x5030 ≤ w.ix && w.ix ≤ 0x5032 && w.sub == n + 1) = false := fun n =>
    List.any_eq_false.2 fun w hw => by have := h w hw; simp; omega
  exact foldl_keeps id _ (fun a n => by simp [hany]) (List.range 16) d

/-- What applying one write at the Supervisor's island leaves: the entry, and the cut record (R30, Table 1.6). -/
def Dev.twelveApplied (d : Dev) (c : Cut) (w : SWrite) (first : Nat) : Dev :=
  (d.wr w.ix w.sub w.inst w.value).cutRecord 12 0xFF c.seq first (d.wr w.ix w.sub w.inst w.value).hash48 0

/-- The cut once that island has applied its part. -/
def Cut.twelveDone (c : Cut) : Cut := { c with units := [(12, 0xFF)], applied := [12] }

/-- The device after that: the cut is complete where no other island is affected. -/
def Dev.afterTwelve (d : Dev) (c : Cut) (w : SWrite) (first : Nat) : Dev :=
  let d := (d.twelveApplied c w first).setActive c.twelveDone
  if c.twelveDone.islands.all c.twelveDone.applied.contains then d.cutComplete c.twelveDone else d

section
variable {t first : Nat} {s : State} {e : Dev} {c : Cut} {w : SWrite} {rest : List SWrite} (he : e = s.dev.at t) (hu : e.cut.user = some c)
  (hk : c.kind = .user) (hd : c.distributed = true) (hf : first = max c.due c.known) (happ : c.applied = []) (hun : c.units = [])
  (hw : c.writes = w :: rest) (h12 : writeIsland w = 12) (hrest : ∀ x ∈ rest, writeIsland x ≠ 12) (hpt : w.ix ≠ Ix.pwrIslPoint)
  (hsm : w.ix < 0x5030 ∨ 0x5032 < w.ix)

include hw h12 hrest in
/-- Its part of the set is the one write. -/
theorem Cut.part_twelve : c.writes.filter (fun x => writeIsland x == 12) = [w] := by
  rw [hw, List.filter_cons_of_pos (by simp [h12]), List.filter_eq_nil_iff.2 (by simpa using hrest)]

include hk hw h12 hrest in
theorem Cut.unitsOf_twelve : c.unitsOf 12 = [0xFF] := by
  simp [Cut.unitsOf, hk, Cut.part_twelve hw h12 hrest, writeUnit_twelve h12]

include hk hw h12 hrest in
theorem Dev.cutPart_twelve (d : Dev) : d.cutPart c 12 [0xFF] = [w] := by
  rw [← Cut.part_twelve hw h12 hrest]
  simp only [Dev.cutPart, hk, if_neg (show CutKind.user ≠ .changeover by decide), List.nil_append]
  refine List.filter_congr fun x _ => ?_
  by_cases h : writeIsland x = 12 <;> simp [h, writeUnit_twelve]

include hk hw h12 hrest hpt hsm in
theorem Dev.applyPartOf_twelve (d : Dev) : d.applyPartOf c 12 first [0xFF] = d.wr w.ix w.sub w.inst w.value := by
  have hctr : (d.wr w.ix w.sub w.inst w.value).ctrCut [w] = d.wr w.ix w.sub w.inst w.value := Dev.ctrCut_of_others _ (by simpa using hsm)
  simp [Dev.applyPartOf, Dev.cutPart_twelve hk hw h12 hrest, hk, Dev.overlay, Dev.islandCut, hpt, hctr]

include he hu hk hd hf happ hun hw h12 hrest hpt hsm in
theorem cutApply_twelve : exec (.cutApply t 12 first) s = .next { s with dev := e.afterTwelve c w first } := by
  have hoff : (s.dev.at t).islandOff 12 = false := by simp [Dev.islandOff]
  have hdue : (s.dev.at t).unitDue c 12 first 0xFF = true := hf ▸ Dev.unitDue_whole _ hun (Nat.le_refl _) rfl
  have hisl : 12 ∈ c.islands := by simp [Cut.islands, hk, hw, h12]
  have hrep : (s.dev.at t).repointCut c first s.mem = (0, s.mem, s.dev.at t) := by
    unfold Dev.repointCut; split <;> simp [hk]
  have hpart := Dev.applyPartOf_twelve (first := first) hk hw h12 hrest hpt hsm (s.dev.at t)
  have hall : ∀ l, { c with units := l }.unitsOf 12 = [0xFF] := fun l => Cut.unitsOf_twelve (c := { c with units := l }) hk hw h12 hrest
  obtain ⟨kind, writes, due, explicit, path, observed, distributed, known, seq, applied, units, isl, inst, suspended⟩ := c
  obtain rfl : kind = .user := hk
  obtain rfl : distributed = true := hd
  obtain rfl : applied = [] := happ
  obtain rfl : units = [] := hun
  subst he
  simp only at hall
  simp [exec_cutApply, execCutApply, runMemIf, runMem, Dev.activeCut_of_user hu, hall, hdue, hisl, hrep, hoff, hpart,
    Dev.afterTwelve, Dev.twelveApplied, Dev.cutRecords, Cut.twelveDone]
  split_ifs with hmore hall12 hall12
  · obtain ⟨x, hx, hne⟩ := hmore
    exact absurd (hall12 x hx) hne
  · exact ⟨rfl, rfl⟩
  · exact ⟨rfl, rfl⟩
  · exact absurd (fun x hx => Classical.byContradiction fun h => hmore ⟨x, hx, h⟩) hall12

end

theorem Dev.twelveApplied_only (d : Dev) (c : Cut) (w : SWrite) (first : Nat) :
    d.changesOnly eventParts (w.ix :: eventPlaces) (d.twelveApplied c w first) :=
  Dev.changesOnly_trans (pl := []) (Dev.wr_only ..) (Dev.emit_only ..)

/-- The written entry reads its value, unless the cut record's count is kept there. -/
theorem Dev.rd_twelveApplied (d : Dev) (c : Cut) {w : SWrite} (first : Nat) (h : w.ix ∉ eventPlaces) :
    (d.twelveApplied c w first).rd w.ix w.sub w.inst = normTy (typeOf w.ix w.sub) w.value := by
  rw [Dev.twelveApplied, Dev.cutRecord, Dev.rd_emit _ _ _ _ _ _ h, Dev.rd_wr, if_pos ⟨rfl, rfl, rfl⟩]

/-- A cut that applies stays your waiting one, as far as it has come. -/
theorem Dev.setActive_user {d : Dev} {c : Cut} (hu : d.cut.user = some c) (c' : Cut) :
    d.setActive c' = { d with cut := { d.cut with user := some c' } } := by
  simp [Dev.setActive, hu]

/-- A SYSREF_IN delay that waits is not in a set that writes none. -/
theorem Dev.sysrefCut_of_others (d : Dev) {l : List SWrite} (h : ∀ w ∈ l, w.ix ≠ Ix.itkSysrefDelay) : d.sysrefCut l = d := by
  have hany : ∀ k, l.any (fun w => w.ix == Ix.itkSysrefDelay && w.sub == k + 1) = false := fun k =>
    List.any_eq_false.2 fun w hw => by simp [h w hw]
  simp [Dev.sysrefCut, hany]

/-- Your cut is complete, with no engine cut behind it: its sequence is shown, and that it applied. -/
theorem Dev.cutComplete_user {d : Dev} {c : Cut} (hk : c.kind = .user) (hu : d.cut.user = some c) (hen : d.cut.engine = [])
    (hsys : ∀ w ∈ c.writes, w.ix ≠ Ix.itkSysrefDelay) :
    d.cutComplete c = { d.w0 Ix.modCutSeq c.seq with cut := { d.cut with user := none } }.w0 Ix.modCutState 3 := by
  have hdrop := Dev.dropActive_user (d := d.w0 Ix.modCutSeq c.seq) hu hen 3
  simp only [Dev.cutComplete, hk, hdrop]
  exact Dev.sysrefCut_of_others _ hsys

section
variable {t first : Nat} {s : State} {e : Dev} {c : Cut} {w : SWrite} (he : e = s.dev.at t) (hu : e.cut.user = some c)
  (hk : c.kind = .user) (hd : c.distributed = true) (hf : first = max c.due c.known) (happ : c.applied = []) (hun : c.units = [])
  (h12 : writeIsland w = 12) (hpt : w.ix ≠ Ix.pwrIslPoint) (hsm : w.ix < 0x5030 ∨ 0x5032 < w.ix)
include he hu hk hd hf happ hun h12 hpt hsm

theorem cutApply_completes (hw : c.writes = [w]) (hsys : w.ix ≠ Ix.itkSysrefDelay) (hix : w.ix ∉ Ix.modCutSeq :: Ix.modCutState :: eventPlaces)
    (hen : e.cut.engine = []) (hseq : c.seq < two48) :
    CompletesMem (.cutApply t 12 first) t s (.cut :: eventParts) (w.ix :: Ix.modCutSeq :: Ix.modCutState :: eventPlaces) fun m d =>
      m = s.mem ∧ d.rd w.ix w.sub w.inst = normTy (typeOf w.ix w.sub) w.value ∧ d.rd Ix.modCutSeq 0 0 = c.seq ∧ d.rd Ix.modCutState 0 0 = 3 ∧
      d.cut = { e.cut with user := none } := by
  have hstep := cutApply_twelve he hu hk hd hf happ hun hw h12 (by simp) hpt hsm
  have hpart := e.twelveApplied_only c w first
  have hcut := hpart.cut (by decide)
  have hafter : e.afterTwelve c w first =
      { ((e.twelveApplied c w first).w0 Ix.modCutSeq c.seq) with cut := { e.cut with user := none } }.w0 Ix.modCutState 3 := by
    have hall : c.twelveDone.islands.all c.twelveDone.applied.contains = true := by simp [Cut.islands, Cut.twelveDone, hk, hw, h12]
    rw [Dev.afterTwelve, if_pos hall, Dev.cutComplete_user (c := c.twelveDone) hk, Dev.setActive_user (hcut ▸ hu), hcut]
    · rfl
    · rw [Dev.setActive_user (hcut ▸ hu)]
    · rw [Dev.setActive_user (hcut ▸ hu)]; exact hcut ▸ hen
    · simpa [Cut.twelveDone, hw] using hsys
  rw [hafter] at hstep
  have hframe := Dev.changesOnly_trans (Dev.changesOnly_trans (Dev.changesOnly_trans hpart (Dev.wr_only _ Ix.modCutSeq 0 0 c.seq))
    (Dev.cut_only _ { e.cut with user := none })) (Dev.wr_only _ Ix.modCutState 0 0 3)
  simp only [List.mem_cons, not_or] at hix
  obtain ⟨hseqix, hstix, hev⟩ := hix
  refine ⟨s.mem, _, hstep, he ▸ Dev.changesOnly_mono hframe (by decide) (by simp; tauto), rfl, ?_, ?_, Dev.rd_cutState _ 3 (by decide), rfl⟩
  · rw [Dev.w0_eq, Dev.rd_wr, if_neg (by tauto), Dev.rd_mk, Dev.w0_eq, Dev.rd_wr, if_neg (by tauto), Dev.rd_twelveApplied e c first hev]
  · rw [Dev.w0_eq, Dev.rd_wr, if_neg (by decide), Dev.rd_mk, Dev.w0_eq, Dev.rd_wr, if_pos ⟨rfl, rfl, rfl⟩]
    exact normTy_fits (n := 5) (by decide) (by decide) hseq

theorem cutApply_waitsForOthers {w' : SWrite} (hw : c.writes = [w, w']) (h' : writeIsland w' ≠ 12) (hix : w.ix ∉ eventPlaces) :
    CompletesMem (.cutApply t 12 first) t s (.cut :: eventParts) (w.ix :: eventPlaces) fun m d =>
      m = s.mem ∧ d.rd w.ix w.sub w.inst = normTy (typeOf w.ix w.sub) w.value ∧ d.cut.user = some { c with applied := [12], units := [(12, 0xFF)] } := by
  have hstep := cutApply_twelve he hu hk hd hf happ hun hw h12 (by simpa using h') hpt hsm
  have hpart := e.twelveApplied_only c w first
  have hafter : e.afterTwelve c w first =
      { e.twelveApplied c w first with cut := { e.cut with user := some c.twelveDone } } := by
    have hall : ¬ c.twelveDone.islands.all c.twelveDone.applied.contains = true := by simp [Cut.islands, Cut.twelveDone, hk, hw, h']
    have hcut := hpart.cut (by decide)
    rw [Dev.afterTwelve, if_neg hall, Dev.setActive_user (hcut ▸ hu), hcut]
  rw [hafter] at hstep
  exact ⟨s.mem, _, hstep, he ▸ Dev.changesOnly_mono (Dev.changesOnly_trans hpart (Dev.cut_only ..)) (by decide) (by simp), rfl,
    Dev.rd_twelveApplied e c first hix, rfl⟩

end

/-- Settles O6: what the commit point makes of a set, and what an island makes of its part of a cut. -/
theorem cutCommitPointAndApplication : Obligations.CutCommitPointAndApplication :=
  ⟨fun _ _ _ _ he hu hd hr hk hp ht hok => cutCommitPoint_distributes he hu hd hr hk hp ht hok,
    fun _ _ _ _ he hu hd hr hk hp hx hlate hen => cutCommitPoint_late he hu hd hr hk hp hx hlate hen,
    fun _ _ _ _ he hu hd hr hk hp ht hbad hen => cutCommitPoint_rejected he hu hd hr hk hp ht hbad hen,
    fun _ _ _ _ _ _ he hi hu _ hearly => cutApply_early he hi hu hearly,
    fun _ _ _ _ _ _ he hu hk hd hf happ hun hw h12 hpt hsm hsys hix hen hseq =>
      cutApply_completes he hu hk hd hf happ hun h12 hpt hsm hw hsys hix hen hseq,
    fun _ _ _ _ _ _ _ he hu hk hd hf happ hun hw h12 h' hpt hsm hix => cutApply_waitsForOthers he hu hk hd hf happ hun h12 hpt hsm hw h' hix,
    fun _ _ _ _ _ he ha hd hf happ hun hk hi hon hst => cutApply_defersStall he ha hd hf happ hun hk hi hon hst⟩

end Sys2Proof.Machine
end

section
/-! PROOFS. A Supervisor restart and its return, the end of a wake, the wake of one island (R40, R412, R424, R431, R434). -/

namespace Sys2Proof.Machine

theorem exec_supervisorRestart (t : Nat) (faulted : Bool) (s : State) :
    exec (.supervisorRestart t faulted) s = execSupervisorRestart t faulted s := rfl
theorem exec_supervisorReturn (t : Nat) (o : Outside) (s : State) : exec (.supervisorReturn t o) s = execSupervisorReturn t o s := rfl
theorem exec_moduleWakeDone (t : Nat) (s : State) : exec (.moduleWakeDone t) s = execModuleWakeDone t s := rfl
theorem exec_islandWake (t isl : Nat) (s : State) : exec (.islandWake t isl) s = execIslandWake t isl s := rfl

/-! ### Parts of the device, each changed alone -/

theorem Dev.boot_only (d : Dev) (x : BootSt) : d.changesOnly [.boot] [] { d with boot := x } :=
  ⟨fun p hp hd => by cases p <;> simp_all [Part.agrees], fun _ _ _ _ => rfl⟩
theorem Dev.cap_only (d : Dev) (x : CapSt) : d.changesOnly [.cap] [] { d with cap := x } :=
  ⟨fun p hp hd => by cases p <;> simp_all [Part.agrees], fun _ _ _ _ => rfl⟩
theorem Dev.pwr_only (d : Dev) (x : PwrSt) : d.changesOnly [.pwr] [] { d with pwr := x } :=
  ⟨fun p hp hd => by cases p <;> simp_all [Part.agrees], fun _ _ _ _ => rfl⟩

/-! ### A restart (R40, R424) -/

/-- The field network drops to PRE-OP from the states above it only (R424). -/
theorem Dev.alDrop_sup (d : Dev) (st : Nat) :
    (d.alDrop st).sup = if d.sup.al = .safeop ∨ d.sup.al = .op then { d.sup with al := .preop, alStatus := st, alError := true } else d.sup := by
  by_cases h : d.sup.al = .safeop ∨ d.sup.al = .op
  · rw [if_pos h, Dev.alDrop, if_pos (by simpa using h)]
  · rw [if_neg h, Dev.alDrop, if_neg (by simpa using h)]

/-- A lost repointing changes no cut and nothing of the Supervisor. -/
theorem Dev.repointLost_cut (d : Dev) : d.repointLost.cut = d.cut := d.repointLost_only.cut (by decide)
theorem Dev.repointLost_sup (d : Dev) : d.repointLost.sup = d.sup := (d.repointLost_only.1 .sup (by decide) (by decide)).symm

/-- The cuts that a restart leaves, your own and the engine's: your own past its commit point, the engine's past theirs or that protect the module. -/
theorem Dev.cutsAway_user (d : Dev) : d.cutsAway.cut.user = d.cut.user.filter (fun c => c.distributed) := by
  unfold Dev.cutsAway
  cases d.cut.user with
  | none => dsimp only; split <;> rfl
  | some c => cases hc : c.distributed <;> simp [hc, Option.filter, apply_ite Dev.cut]

theorem Dev.cutsAway_engine (d : Dev) :
    d.cutsAway.cut.engine = d.cut.engine.filter fun c => c.distributed || c.kind == .degradation || c.kind == .shedding || c.kind == .disable := by
  simp [Dev.cutsAway, apply_ite Dev.cut]

/-- Of the Supervisor, the cuts of a restart mark only whose commit was dropped. -/
theorem Dev.cutsAway_sup (d : Dev) : ∃ x, d.cutsAway.sup = { d.sup with dropped := x } := by
  simp only [Dev.cutsAway, apply_ite Dev.sup, Dev.w0_eq, Dev.wr_sup, ite_self]
  exact ⟨_, rfl⟩

/-- What a restart leaves of the cuts. -/
theorem Dev.supAway_cut (d : Dev) (b : Bool) : (d.supAway b).cut = d.repointLost.cutsAway.cut := by
  unfold Dev.supAway
  cases b <;> simp [Dev.calAway, Dev.tally, (Dev.alDrop_only _ _).cut]

/-- The Supervisor as a restart leaves it: away, what was queued kept, the field network no higher than PRE-OP. -/
theorem Dev.supAway_sup (d : Dev) (b : Bool) :
    (d.supAway b).sup.running = false ∧ (d.supAway b).sup.restarting = true ∧ (d.supAway b).sup.queued = d.sup.queued ∧
      (d.sup.al = .safeop ∨ d.sup.al = .op → (d.supAway b).sup.al = .preop ∧ (d.supAway b).sup.alStatus = 0x8002) := by
  obtain ⟨x, hx⟩ := d.repointLost.cutsAway_sup
  rw [Dev.repointLost_sup] at hx
  by_cases h : d.sup.al = .safeop ∨ d.sup.al = .op <;> cases b <;>
    simp [Dev.supAway, Dev.calAway, Dev.tally, Dev.alDrop_sup, hx, h]

theorem supervisorRestart_completes {t : Nat} {faulted : Bool} {s : State} {e : Dev} (he : e = s.dev.at t) (hr : e.sup.running = true)
    (hu : e.n0 Ix.fltUpdateState ≠ 3) :
    Completes (.supervisorRestart t faulted) t s (.chn :: .cut :: .cal :: .out :: codeParts)
      (Ix.modCutState :: Ix.fltRestarts :: Ix.modBringup :: repointPlaces ++ codePlaces) fun d =>
      d.sup.running = false ∧ d.sup.restarting = true ∧ d.sup.queued = e.sup.queued ∧
      d.cut.user = e.cut.user.filter (fun c => c.distributed) ∧
      (∀ c ∈ d.cut.engine, c ∈ e.cut.engine) ∧ (∀ c ∈ e.cut.engine, c.distributed = true → c ∈ d.cut.engine) ∧
      (e.sup.al = .safeop ∨ e.sup.al = .op → d.sup.al = .preop ∧ d.sup.alStatus = 0x8002) := by
  subst he
  refine completes_of_eq (exec_supervisorRestart t faulted s) (x := (s.dev.at t).supAway faulted) ?_ (Dev.supAway_only ..) ?_
  · rw [if_pos hr, Dev.supRestart, if_neg hu]
  · obtain ⟨hrun, hres, hq, hal⟩ := Dev.supAway_sup (s.dev.at t) faulted
    refine ⟨hrun, hres, hq, ?_, ?_, ?_, hal⟩
    · rw [Dev.supAway_cut, Dev.cutsAway_user, Dev.repointLost_cut]
    · rw [Dev.supAway_cut, Dev.cutsAway_engine, Dev.repointLost_cut]
      exact fun c hc => (List.mem_filter.1 hc).1
    · rw [Dev.supAway_cut, Dev.cutsAway_engine, Dev.repointLost_cut]
      exact fun c hc hd => List.mem_filter.2 ⟨hc, by simp [hd]⟩

/-! ### The return (R40, R412) -/

/-- Where no cut waits, the return decides none afresh. -/
theorem Dev.redecide_of_noCuts {d : Dev} (hen : d.cut.engine = []) : d.redecide = d := by
  have hcut : { d.cut with engine := [] } = d.cut := by rw [← hen]
  simp [Dev.redecide, Dev.engineDrop, hen, hcut]

/-- Out of a firmware switch and of rushes service, a return starts no repointing of a round and no changeover. -/
theorem Dev.roundNext_of_noSwitch {d : Dev} (h3 : d.n0 Ix.fltUpdateState ≠ 3) (h5 : d.n0 Ix.fltUpdateState ≠ 5) : d.roundNext = d :=
  if_pos (by rw [beq_false_of_ne h3, beq_false_of_ne h5]; rfl)

theorem Dev.readyCommit_of_noRushes {d : Dev} (h : d.service ≠ 1) : d.readyCommit = d := by
  simp [Dev.readyCommit, h]

/-- The restart left nothing to take up: no commit or write dropped, no calibration or repointing lost, no cut, no operating point moved; and no
firmware switch is under way, nor rushes service. -/
structure Dev.NothingUnderWay (d : Dev) : Prop where
  noCommitDropped : d.sup.dropped = none
  noWriteLost : d.sup.queueLost = false
  noCalibration : d.cal.abandoned = []
  noRepointing : d.flt.repoint = none
  noUserCut : d.cut.user = none
  noEngineCut : d.cut.engine = []
  noPointMoved : d.pwr.moved = []
  notSwitching : d.n0 Ix.fltUpdateState ≠ 2
  notSwitched : d.n0 Ix.fltUpdateState ≠ 3
  notReverted : d.n0 Ix.fltUpdateState ≠ 5
  notRushes : d.service ≠ 1

/-- A return that finds nothing under way takes nothing up. -/
theorem Dev.NothingUnderWay.takeUp {d : Dev} (h : d.NothingUnderWay) : d.takeUp = d := by
  obtain ⟨hdrop, hlost, hcal, hrep, hu, hen, hmoved, h2, h3, h5, hs⟩ := h
  have hcalEq : { d with cal := { d.cal with abandoned := [] } } = d := by rw [← hcal]
  have hpwrEq : { d with pwr := { d.pwr with moved := [] } } = d := by rw [← hmoved]
  simp only [Dev.takeUp, hdrop, hlost, Bool.false_eq_true, if_false, hcal, List.foldl_nil, hcalEq, hrep, Dev.activeCut, hu, hen, List.head?_nil,
    if_true, Dev.redecide_of_noCuts hen, hmoved, hpwrEq, h2, Dev.roundNext_of_noSwitch h3 h5, Dev.readyCommit_of_noRushes hs]

/-- The Supervisor of a module that runs is back, with nothing queued; it is no trial any more. -/
def Dev.supBack (d : Dev) : Dev :=
  let d := { d with sup := { d.sup with running := true, restarting := false, queued := [] }, boot := { d.boot with trialSince := none } }
  (d.bringBit 0 true).bringBit 1 true

theorem Dev.supBack_only (d : Dev) : d.changesOnly [.sup, .boot] [Ix.modBringup] d.supBack := by
  have h : ∀ x y, d.changesOnly [.sup, .boot] [] { d with sup := x, boot := y } := fun x y =>
    Dev.changesOnly_trans (Dev.sup_only d x) (Dev.boot_only _ y)
  exact Dev.changesOnly_mono (Dev.changesOnly_trans (Dev.changesOnly_trans (h _ _) (Dev.wr_only ..)) (Dev.wr_only ..)) (by simp) (by simp)

theorem Dev.supBack_sup {d : Dev} (hq : d.sup.queued = []) : d.supBack.sup = { d.sup with running := true, restarting := false } := by
  rw [show d.supBack.sup = { d.sup with running := true, restarting := false, queued := [] } from rfl, ← hq]

theorem Dev.rd_supBack (d : Dev) {ix : Nat} (sub inst : Nat) (h : ix ∉ [Ix.modBringup]) : d.supBack.rd ix sub inst = d.rd ix sub inst :=
  d.supBack_only.rd sub inst h

theorem Dev.NothingUnderWay.supBack {d : Dev} (h : d.NothingUnderWay) : d.supBack.NothingUnderWay := by
  have hstate : d.supBack.n0 Ix.fltUpdateState = d.n0 Ix.fltUpdateState := by rw [Dev.n0, Dev.rd_supBack _ _ _ (by decide), Dev.n0]
  have hserv : d.supBack.service = d.service := by rw [Dev.service, Dev.n0, Dev.rd_supBack _ _ _ (by decide), Dev.service, Dev.n0]
  obtain ⟨hdrop, hlost, hcal, hrep, hu, hen, hmoved, h2, h3, h5, hs⟩ := h
  exact ⟨hdrop, hlost, hcal, hrep, hu, hen, hmoved, hstate ▸ h2, hstate ▸ h3, hstate ▸ h5, hserv ▸ hs⟩

theorem supervisorReturn_completes {t : Nat} {o : Outside} {s : State} {e : Dev} (he : e = s.dev.at t) (hres : e.sup.restarting = true)
    (haux : e.hw.auxIn = true) (hlow : e.hw.resetLow = false) (hq : e.sup.queued = []) (hs0 : e.service ≠ 0) (h : e.NothingUnderWay) :
    Completes (.supervisorReturn t o) t s [.sup, .boot] [Ix.modBringup] fun d =>
      d.sup = { e.sup with running := true, restarting := false } ∧ d.boot = { e.boot with trialSince := none } := by
  subst he
  refine ⟨(s.dev.at t).supBack, ?_, Dev.supBack_only _, Dev.supBack_sup hq, rfl⟩
  rw [exec_supervisorReturn, execSupervisorReturn]
  simp only [hres, haux, hlow, Bool.not_true, Bool.or_self, Bool.false_eq_true, if_false, hs0, hq, replay]
  exact congrArg (fun x => Host.Outcome.next { s with dev := x }) h.supBack.takeUp

/-! ### The end of a wake (R431) -/

/-- The islands that slept take the states they had before. -/
def Dev.islandsBack (d : Dev) (before : List Nat) : Dev := sleepers.foldl (fun (a : Dev) i => a.setIslState i (before.getD (i - 1) 0)) d

theorem Dev.islandsBack_only (d : Dev) (before : List Nat) : d.changesOnly [.out, .ctr] (Ix.pwrIslState :: eventPlaces) (d.islandsBack before) :=
  Dev.changesOnly_foldl _ (fun a i => Dev.setIslState_only a i _) sleepers d

theorem Dev.islandsBack_now (d : Dev) (before : List Nat) : (d.islandsBack before).now = d.now :=
  ((d.islandsBack_only before).1 .now (by decide) (by decide)).symm

/-- The module runs again: its sleep is over, and an event says how long the wake took. -/
def Dev.wakeEnds (d : Dev) (before : List Nat) (w : Nat) : Dev :=
  let since := sleepers.foldl (fun (l : Tab Nat) i => l.put i d.now) d.pwr.since
  let d := { d with
    boot := { d.boot with autoDone := false }
    pwr := { d.pwr with asleep := none, waking := none, before := [], written := d.now, since := since }
    cap := { d.cap with asleep := before.getD 6 0 == 2 } }
  (d.w0 Ix.pwrState 3).pwrEvent 0x07 0 (d.n0 Ix.pwrWakeCause) ((d.now - w) * 1000000 / two48)

theorem Dev.wakeEnds_only (d : Dev) (before : List Nat) (w : Nat) :
    d.changesOnly [.boot, .cap, .pwr, .out, .ctr] (Ix.pwrState :: eventPlaces) (d.wakeEnds before w) := by
  have h : ∀ x y z, d.changesOnly [.boot, .cap, .pwr] [] { d with boot := x, cap := y, pwr := z } := fun x y z =>
    Dev.changesOnly_trans (Dev.changesOnly_trans (Dev.boot_only d x) (Dev.cap_only _ y)) (Dev.pwr_only _ z)
  exact Dev.changesOnly_mono (Dev.changesOnly_trans (Dev.changesOnly_trans (h _ _ _) (Dev.wr_only ..)) (Dev.pwrEvent_only ..)) (by decide) (by decide)

theorem Dev.wakeEnds_pwr (d : Dev) (before : List Nat) (w : Nat) :
    (d.wakeEnds before w).pwr = { d.pwr with asleep := none, waking := none, before := [], written := d.now,
                                             since := sleepers.foldl (fun (l : Tab Nat) i => l.put i d.now) d.pwr.since } := by
  simp [Dev.wakeEnds]

theorem Dev.wakeEnds_cap (d : Dev) (before : List Nat) (w : Nat) : (d.wakeEnds before w).cap = { d.cap with asleep := before.getD 6 0 == 2 } := by
  simp [Dev.wakeEnds]

theorem typeOf_pwrState : typeOf Ix.pwrState 0 = 5 := by decide

theorem Dev.rd_wakeEnds_pwrState (d : Dev) (before : List Nat) (w : Nat) : (d.wakeEnds before w).rd Ix.pwrState 0 0 = 3 := by
  rw [Dev.wakeEnds, Dev.rd_pwrEvent _ _ _ _ _ _ _ _ (by decide), Dev.w0_eq, Dev.rd_wr, if_pos ⟨rfl, rfl, rfl⟩, typeOf_pwrState]
  rfl

theorem moduleWakeDone_completes {t w : Nat} {s : State} {e : Dev} (he : e = s.dev.at t) (hw : e.pwr.waking = some w) :
    Completes (.moduleWakeDone t) t s [.pwr, .cap, .out, .ctr, .boot] (Ix.pwrIslState :: Ix.pwrState :: eventPlaces) fun d =>
      d.pwr.waking = none ∧ d.pwr.asleep = none ∧ d.pwr.before = [] ∧ d.pwr.written = e.now ∧ d.cap.asleep = (e.pwr.before.getD 6 0 == 2) ∧
      d.rd Ix.pwrState 0 0 = 3 := by
  subst he
  refine completes_of_eq (exec_moduleWakeDone t s) (x := ((s.dev.at t).islandsBack (s.dev.at t).pwr.before).wakeEnds (s.dev.at t).pwr.before w) ?_
    (Dev.changesOnly_mono (Dev.changesOnly_trans (Dev.islandsBack_only ..) (Dev.wakeEnds_only ..)) (by decide) (by decide)) ?_
  · simp only [hw, Dev.wakeEnds, Dev.islandsBack]
  · rw [Dev.wakeEnds_pwr, Dev.wakeEnds_cap, Dev.islandsBack_now]
    exact ⟨rfl, rfl, rfl, rfl, rfl, Dev.rd_wakeEnds_pwrState ..⟩

/-! ### The wake of one island (R434) -/

/-- An event that names a unit of the module completes as its meaning evaluates. -/
theorem completesIf_of_eq {i : Instr} {ok : Bool} {t : Nat} {s : State} {f : Dev → Dev} {pl : List Part} {ps : List Nat} {post : Dev → Prop} {x : Dev}
    (h : exec i s = runIf ok t s f) (hok : ok = true) (hx : f (s.dev.at t) = x) (hc : (s.dev.at t).changesOnly pl ps x) (hp : post x) :
    Completes i t s pl ps post :=
  completes_of_eq (f := fun d => if ok then f d else d) h ((if_pos hok).trans hx) hc hp

/-- An empty shadow releases nothing. -/
theorem Dev.shadowRelease_of_nil {d : Dev} (h : d.cut.shadow = []) (on : Nat → Bool) (held : SWrite → Bool) : d.shadowRelease on held = d := by
  have hcut : { d with cut := { d.cut with shadow := [] } } = d := by rw [← h]
  simp only [Dev.shadowRelease, h, List.filter_nil, List.foldl_nil, hcut]

/-- The island is awake since now; island 7 takes capture memory out of self-refresh. -/
def Dev.islandUp (d : Dev) (isl : Nat) : Dev :=
  let a := d.setIslState isl 0
  { a with pwr := { a.pwr with since := a.pwr.since.put isl a.now }, cap := { a.cap with asleep := a.cap.asleep && isl != 7 } }

theorem Dev.islandUp_only (d : Dev) (isl : Nat) : d.changesOnly [.pwr, .cap, .out, .ctr] (Ix.pwrIslState :: eventPlaces) (d.islandUp isl) := by
  have h : ∀ (a : Dev) y z, a.changesOnly [.cap, .pwr] [] { a with cap := y, pwr := z } := fun a y z =>
    Dev.changesOnly_trans (Dev.cap_only a y) (Dev.pwr_only _ z)
  exact Dev.changesOnly_mono (Dev.changesOnly_trans (Dev.setIslState_only d isl 0) (h _ _ _)) (by decide) (by decide)

theorem Dev.islandUp_cut (d : Dev) (isl : Nat) : (d.islandUp isl).cut = d.cut := by simp [Dev.islandUp]

theorem Dev.islandUp_pwr (d : Dev) (isl : Nat) : (d.islandUp isl).pwr = { d.pwr with since := d.pwr.since.put isl d.now } := by simp [Dev.islandUp]

theorem Dev.islandUp_cap (d : Dev) (isl : Nat) : (d.islandUp isl).cap = { d.cap with asleep := d.cap.asleep && isl != 7 } := by simp [Dev.islandUp]

/-- An island that is not awake reads awake after it. -/
theorem Dev.rd_islandUp_state {d : Dev} {i : Nat} (h : d.nI Ix.pwrIslState i ≠ 0) : (d.islandUp (i + 1)).rd Ix.pwrIslState (i + 1) 0 = 0 := by
  rw [Dev.islandUp, Dev.rd_mk, Dev.setIslState, Nat.add_sub_cancel, if_neg h, Dev.rd_pwrEvent _ _ _ _ _ _ _ _ (by decide), Dev.wI_eq, Dev.rd_wr,
    if_pos ⟨rfl, rfl, rfl⟩]
  exact normTy_zero _

theorem islandWake_completes {t isl : Nat} {s : State} {e : Dev} (he : e = s.dev.at t) (h1 : 1 ≤ isl) (h12 : isl ≤ 12) (h3 : e.n0 Ix.pwrState = 3)
    (hst : 0 < e.rd Ix.pwrIslState isl 0) (hsh : e.cut.shadow = []) :
    Completes (.islandWake t isl) t s [.pwr, .cap, .out, .ctr] (Ix.pwrIslState :: eventPlaces) fun d =>
      d.rd Ix.pwrIslState isl 0 = 0 ∧ d.pwr = { e.pwr with since := e.pwr.since.put isl e.now } ∧ (isl = 7 → d.cap.asleep = false) := by
  subst he
  obtain ⟨i, rfl⟩ : ∃ i, isl = i + 1 := ⟨isl - 1, by omega⟩
  have hnI : (s.dev.at t).nI Ix.pwrIslState i ≠ 0 := by
    rw [Dev.nI]
    omega
  refine completesIf_of_eq (exec_islandWake t (i + 1) s) (by simp [h12]) (x := (s.dev.at t).islandUp (i + 1)) ?_ (Dev.islandUp_only ..) ?_
  · simp only [Nat.add_sub_cancel, hnI, h3, bne_self_eq_false, Bool.or_false, decide_false, Bool.false_eq_true, if_false]
    exact Dev.shadowRelease_of_nil (d := (s.dev.at t).islandUp (i + 1)) (by rw [Dev.islandUp_cut]; exact hsh) _ _
  · rw [Dev.islandUp_pwr, Dev.islandUp_cap]
    exact ⟨Dev.rd_islandUp_state hnI, rfl, fun h7 => by rw [h7]; exact Bool.and_false _⟩

/-- Settles O16: a restart by what `supAway` does, a return that finds nothing under way, and the wakes by the frame of an island's state. -/
theorem supervisorRestartReturnAndWakes : Obligations.SupervisorRestartReturnAndWakes := by
  unfold Obligations.SupervisorRestartReturnAndWakes
  exact ⟨fun t faulted s e => supervisorRestart_completes, fun t o s e he hres haux hlow hq hdrop hlost hcal hrep hu hen h2 h3 h5 hs0 hs1 hmoved =>
      supervisorReturn_completes he hres haux hlow hq hs0 ⟨hdrop, hlost, hcal, hrep, hu, hen, hmoved, h2, h3, h5, hs1⟩,
    fun t s e w => moduleWakeDone_completes, fun t isl s e => islandWake_completes⟩

end Sys2Proof.Machine
end

section
/-! PROOFS. Throttling as the sensors read (R61): the refutation of O9. -/

namespace Sys2Proof.Machine

theorem exec_thermalThrottle (t : Nat) (temp : Int) (others : List Int) (s : State) :
    exec (.thermalThrottle t temp others) s = execThermalThrottle t temp others s := rfl

/-- The die throttles, and the threshold of `hw.temp_throttle` holds 40,048 sixteenths of a degree, more than an entry of its type can. -/
def throttlingAbove16Bits : State :=
  { State.reset with dev := { State.reset.dev with
      dict := State.reset.dev.dict.put (ekey Ix.hwTempThrottle 0 0) 40048, hw := { State.reset.dev.hw with throttling := true } } }

/-- Refutes O9: 3 K below a threshold of 40,048 a sensor reads 40,000, which the 16-bit entry `hw.temp` keeps as -25,536. The clause on the end of
throttling is over every state and, unlike those before it, puts no upper bound on the reading; thresholds that a write leaves fit their type. -/
theorem not_thermalReportsAndRelays : ¬ Obligations.ThermalReportsAndRelays := by
  unfold Obligations.ThermalReportsAndRelays
  rintro ⟨-, -, h, -⟩
  obtain ⟨-, -, hread⟩ := (completes_run (exec_thermalThrottle ..)).1
    (h 0 40000 throttlingAbove16Bits _ rfl (by decide +kernel) (by decide) rfl)
  exact absurd hread (by decide +kernel)

end Sys2Proof.Machine
end

section
/-! PROOFS. The optical bypass arrays: insertion, release, the end of a transition, a stuck array, a forced one (R62 to R64). -/

namespace Sys2Proof.Machine

theorem exec_bypassInsert (t dim : Nat) (s : State) : exec (.bypassInsert t dim) s = execBypassInsert t dim s := rfl
theorem exec_bypassRelease (t dim : Nat) (s : State) : exec (.bypassRelease t dim) s = execBypassRelease t dim s := rfl
theorem exec_bypassTransitionDone (t dim : Nat) (s : State) : exec (.bypassTransitionDone t dim) s = execBypassTransitionDone t dim s := rfl
theorem exec_bypassStuck (t dim : Nat) (s : State) : exec (.bypassStuck t dim) s = execBypassStuck t dim s := rfl
theorem exec_hwBypassForce (t path dim : Nat) (s : State) : exec (.hwBypassForce t path dim) s = execHwBypassForce t path dim s := rfl

/-! ### The hardware part, and entries written and read -/

theorem Dev.hw_only (d : Dev) (x : HwSt) : d.changesOnly [.hw] [] { d with hw := x } :=
  ⟨fun p hp hd => by cases p <;> simp_all [Part.agrees], fun _ _ _ _ => rfl⟩

/-- The supplies and pins of a device whose frame does not list them are as before. -/
theorem Dev.changesOnly.hw {pl : List Part} {ps : List Nat} {d e : Dev} (h : d.changesOnly pl ps e) (hp : Part.hw ∉ pl) : e.hw = d.hw :=
  (h.1 .hw hp (by decide)).symm

theorem Dev.rd_wr_same (d : Dev) (ix sub inst : Nat) (v : Int) : (d.wr ix sub inst v).rd ix sub inst = normTy (typeOf ix sub) v := by
  rw [Dev.rd_wr, if_pos ⟨rfl, rfl, rfl⟩]

/-- An unsigned entry of n + 1 bytes reads the number written to it. -/
theorem Dev.rd_wr_fits (d : Dev) {ix sub v n : Nat} (inst : Nat) (hn : typeBytes (typeOf ix sub) = n + 1) (hs : typeSigned (typeOf ix sub) = false)
    (hv : v < 2 ^ (8 * (n + 1))) : (d.wr ix sub inst (v : Int)).rd ix sub inst = v := by
  rw [Dev.rd_wr_same, normTy_fits hn hs hv]

/-- An entry that reads a natural number is that number. -/
theorem Dev.nI_of_rd {d : Dev} {ix i n : Nat} (h : d.rd ix (i + 1) 0 = (n : Nat)) : d.nI ix i = n := by rw [Dev.nI, h, Int.toNat_natCast]

/-- An entry is a number other than 0 exactly where it reads it. -/
theorem Dev.nI_eq_iff {d : Dev} {ix i n : Nat} (hn : n ≠ 0) : d.nI ix i = n ↔ d.rd ix (i + 1) 0 = (n : Nat) := by
  rw [Dev.nI]; omega

/-! ### One array -/

/-- Both arrays' states and force entries are bytes. -/
theorem Dev.rd_arrayState (d : Dev) {dim v : Nat} (hd : dim < 2) (hv : v < 256) :
    (d.wI Ix.hwBypassState dim v).rd Ix.hwBypassState (dim + 1) 0 = v := by
  have : ∀ k < 2, typeBytes (typeOf Ix.hwBypassState (k + 1)) = 0 + 1 ∧ typeSigned (typeOf Ix.hwBypassState (k + 1)) = false := by decide
  exact Dev.rd_wr_fits d 0 (this dim hd).1 (this dim hd).2 (by simpa using hv)

theorem Dev.rd_arrayForce (d : Dev) {dim v : Nat} (hd : dim < 2) (hv : v < 256) :
    (d.wI Ix.hwBypassForce dim v).rd Ix.hwBypassForce (dim + 1) 0 = v := by
  have : ∀ k < 2, typeBytes (typeOf Ix.hwBypassForce (k + 1)) = 0 + 1 ∧ typeSigned (typeOf Ix.hwBypassForce (k + 1)) = false := by decide
  exact Dev.rd_wr_fits d 0 (this dim hd).1 (this dim hd).2 (by simpa using hv)

/-- An array of a state and with a drive is in transition since now. -/
def Dev.arrayMoves (d : Dev) (dim state : Nat) (drive : Bool) : Dev :=
  { d.wI Ix.hwBypassState dim state with
    hw := { d.hw with driven := d.hw.driven.set false dim drive, moving := d.hw.moving.put dim d.now } }

theorem Dev.arrayMoves_only (d : Dev) (dim state : Nat) (drive : Bool) : d.changesOnly [.hw] [Ix.hwBypassState] (d.arrayMoves dim state drive) :=
  Dev.changesOnly_trans (pl := []) (Dev.wr_only ..) (Dev.hw_only ..)

theorem Dev.arrayMoves_hw (d : Dev) (dim state : Nat) (drive : Bool) :
    (d.arrayMoves dim state drive).hw = { d.hw with driven := d.hw.driven.set false dim drive, moving := d.hw.moving.put dim d.now } := rfl

theorem Dev.rd_arrayMoves (d : Dev) {dim state : Nat} (drive : Bool) (hd : dim < 2) (hv : state < 256) :
    (d.arrayMoves dim state drive).rd Ix.hwBypassState (dim + 1) 0 = state := Dev.rd_arrayState d hd hv

/-- An array that is inserted or inserting returns; any other only loses its drive (R62, R63). -/
theorem Dev.releaseArray_moves {d : Dev} {dim : Nat} (h : d.rd Ix.hwBypassState (dim + 1) 0 = 1 ∨ d.rd Ix.hwBypassState (dim + 1) 0 = 2) :
    d.releaseArray dim = d.arrayMoves dim 3 false := by
  have hst : (d.nI Ix.hwBypassState dim = 1 || d.nI Ix.hwBypassState dim = 2) = true := by
    rcases h with h | h <;> simp only [Dev.nI, h] <;> rfl
  exact if_pos hst

theorem Dev.releaseArray_stays {d : Dev} {dim : Nat} (h : d.rd Ix.hwBypassState (dim + 1) 0 = 0) :
    d.releaseArray dim = { d with hw := { d.hw with driven := d.hw.driven.set false dim false } } := by
  have hst : d.nI Ix.hwBypassState dim = 0 := Dev.nI_of_rd h
  simp only [Dev.releaseArray, hst]
  rfl

/-! ### R62, R63 -/

section
variable {t dim : Nat} {s : State} {e : Dev} (he : e = s.dev.at t) (hdim : dim < 2)
include he hdim

theorem bypassInsert_inserts (hforce : e.rd Ix.hwBypassForce (dim + 1) 0 ≠ 1) (hdrive : e.mayDrive = true)
    (hst : e.rd Ix.hwBypassState (dim + 1) 0 = 0 ∨ e.rd Ix.hwBypassState (dim + 1) 0 = 3) :
    Completes (.bypassInsert t dim) t s [.hw] [Ix.hwBypassState] fun d =>
      d.hw = { e.hw with driven := e.hw.driven.set false dim true, moving := e.hw.moving.put dim e.now } ∧ d.rd Ix.hwBypassState (dim + 1) 0 = 1 := by
  have hmay : (e.mayDrive && (e.nI Ix.hwBypassState dim = 0 || e.nI Ix.hwBypassState dim = 3)) = true := by
    rcases hst with h | h <;> simp only [hdrive, Dev.nI, h] <;> rfl
  have hfree : e.nI Ix.hwBypassForce dim ≠ 1 := fun h => hforce ((Dev.nI_eq_iff (by decide)).1 h)
  subst he
  exact completesIf_of_eq (exec_bypassInsert t dim s) (by simpa using hdim) (x := (s.dev.at t).arrayMoves dim 1 true)
    ((if_neg hfree).trans (if_pos hmay)) (Dev.arrayMoves_only ..) ⟨rfl, Dev.rd_arrayMoves _ true hdim (by decide)⟩

theorem bypassRelease_returns (hst : e.rd Ix.hwBypassState (dim + 1) 0 = 1 ∨ e.rd Ix.hwBypassState (dim + 1) 0 = 2) :
    Completes (.bypassRelease t dim) t s [.hw] [Ix.hwBypassState] fun d =>
      d.hw = { e.hw with driven := e.hw.driven.set false dim false, moving := e.hw.moving.put dim e.now } ∧ d.rd Ix.hwBypassState (dim + 1) 0 = 3 := by
  subst he
  exact completesIf_of_eq (exec_bypassRelease t dim s) (by simpa using hdim) (Dev.releaseArray_moves hst) (Dev.arrayMoves_only ..)
    ⟨rfl, Dev.rd_arrayMoves _ false hdim (by decide)⟩

end

theorem Dev.foundReport_only (d : Dev) : d.changesOnly [] [Ix.modBringup] d.foundReport := by
  unfold Dev.foundReport
  exact Dev.changesOnly_ite (fun _ => Dev.changesOnly_refl ..) fun _ => Dev.wr_only ..

/-- The ring ports follow an array, and with them bit 11 of `mod.bringup` and `cf.state` (R373, R391). -/
theorem Dev.portsFollow_only (d : Dev) (dim : Nat) :
    d.changesOnly [.boot] [Ix.cfPortState, Ix.modBringup, Ix.cfState] (d.portsFollow dim) := by
  have hports : ∀ (a b : Nat) (x : BootSt), d.changesOnly [.boot] [Ix.cfPortState, Ix.modBringup, Ix.cfState]
      { (d.wI Ix.cfPortState (2 * dim) a).wI Ix.cfPortState (2 * dim + 1) b with boot := x }.foundReport := fun a b x =>
    Dev.changesOnly_mono (Dev.changesOnly_trans (Dev.changesOnly_trans (Dev.changesOnly_trans (Dev.wr_only ..) (Dev.wr_only ..)) (Dev.boot_only _ x))
      (Dev.foundReport_only _)) (by decide) (by decide)
  have hstate : ∀ (a : Dev) (v : Nat), a.changesOnly [.boot] [Ix.cfPortState, Ix.modBringup, Ix.cfState] (a.w0 Ix.cfState v) := fun a v =>
    Dev.changesOnly_mono (Dev.wr_only ..) (by decide) (by decide)
  unfold Dev.portsFollow
  exact Dev.changesOnly_ite (fun _ => Dev.changesOnly_step (hports ..) (hstate ..)) fun _ =>
    Dev.changesOnly_ite (fun _ => Dev.changesOnly_step (hports ..) (hstate ..)) fun _ => hports ..

/-- An array reaches its commanded state, and the change is counted. -/
def Dev.arrayArrives (d : Dev) (dim : Nat) : Dev :=
  ({ d with hw := { d.hw with moving := d.hw.moving.del dim } }.wI Ix.hwBypassState dim (if d.nI Ix.hwBypassState dim = 1 then 2 else 0)).incI
    Ix.hwBypassCycles dim

theorem Dev.arrayArrives_only (d : Dev) (dim : Nat) : d.changesOnly [.hw, .ctr] [Ix.hwBypassState, Ix.hwBypassCycles] (d.arrayArrives dim) :=
  Dev.changesOnly_mono (Dev.changesOnly_trans (Dev.changesOnly_trans (Dev.hw_only ..) (Dev.wr_only ..)) (Dev.inc_only ..)) (by decide) (by decide)

theorem Dev.arrayArrives_hw (d : Dev) (dim : Nat) : (d.arrayArrives dim).hw = { d.hw with moving := d.hw.moving.del dim } := by
  simp [Dev.arrayArrives]

theorem Dev.rd_arrayArrives (d : Dev) {dim : Nat} (hd : dim < 2) :
    (d.arrayArrives dim).rd Ix.hwBypassState (dim + 1) 0 = if d.rd Ix.hwBypassState (dim + 1) 0 = 1 then 2 else 0 := by
  rw [Dev.arrayArrives, Dev.incI, (Dev.inc_only ..).rd _ _ (by decide), Dev.rd_arrayState _ hd (by split <;> decide)]
  simp only [Dev.nI_eq_iff (n := 1) (by decide), Nat.cast_ite, Nat.cast_one]
  rfl

section
variable {t dim w : Nat} {s : State} {e : Dev} (he : e = s.dev.at t) (hdim : dim < 2) (hmov : e.hw.moving.find? dim = some w)
include he hdim hmov

theorem bypassTransitionDone_arrives :
    Completes (.bypassTransitionDone t dim) t s [.hw, .boot, .ctr] [Ix.hwBypassState, Ix.hwBypassCycles, Ix.cfPortState, Ix.modBringup, Ix.cfState] fun d =>
      d.hw = { e.hw with moving := e.hw.moving.del dim } ∧
      d.rd Ix.hwBypassState (dim + 1) 0 = (if e.rd Ix.hwBypassState (dim + 1) 0 = 1 then 2 else 0) := by
  subst he
  have hports := ((s.dev.at t).arrayArrives dim).portsFollow_only dim
  refine completesIf_of_eq (exec_bypassTransitionDone t dim s) (by simpa using hdim) (x := ((s.dev.at t).arrayArrives dim).portsFollow dim)
    (if_pos (by rw [hmov]; rfl)) (Dev.changesOnly_mono (Dev.changesOnly_trans (Dev.arrayArrives_only ..) hports) (by decide) (by decide)) ⟨?_, ?_⟩
  · rw [hports.hw (by decide), Dev.arrayArrives_hw]
  · rw [hports.rd _ _ (by decide), Dev.rd_arrayArrives _ hdim]

theorem bypassStuck_drivesBack (hlate : w + ms 10 ≤ e.now) (hst : e.rd Ix.hwBypassState (dim + 1) 0 ≠ 4) :
    Completes (.bypassStuck t dim) t s (.hw :: codeParts) (Ix.hwBypassState :: faultPlaces) fun d =>
      d.hw = { e.hw with driven := e.hw.driven.set false dim false, moving := e.hw.moving.put dim e.now } ∧ d.rd Ix.hwBypassState (dim + 1) 0 = 4 := by
  subst he
  have hnot : (s.dev.at t).nI Ix.hwBypassState dim ≠ 4 := fun h => hst ((Dev.nI_eq_iff (by decide)).1 h)
  refine completesIf_of_eq (exec_bypassStuck t dim s) (by simpa using hdim)
    (x := ((s.dev.at t).arrayMoves dim 4 false).fault 4 Code.bypassStuck 0xB dim 0 0) ?_
    (Dev.changesOnly_trans (pl := [.hw]) (Dev.arrayMoves_only ..) (Dev.fault_only ..)) ⟨?_, ?_⟩
  · rw [hmov]
    exact if_pos (by simp only [hlate, hnot, decide_true, Bool.true_and, bne_iff_ne, ne_eq, not_false_eq_true])
  · rw [(Dev.fault_only ..).hw (by decide), Dev.arrayMoves_hw]
  · rw [(Dev.fault_only ..).rd _ _ (by decide), Dev.rd_arrayMoves _ false hdim (by decide)]
    rfl

end

/-- Settles O10: an array that is inserted, released or stuck moves, one that was moving arrives. -/
theorem bypassArrays : Obligations.BypassArrays := by
  unfold Obligations.BypassArrays
  exact ⟨fun t dim s e => bypassInsert_inserts, fun t dim s e => bypassRelease_returns, fun t dim s e w => bypassTransitionDone_arrives,
    fun t dim s e w => bypassStuck_drivesBack⟩

/-! ### R64 -/

section
variable {t path dim : Nat} {s : State} {e : Dev} (he : e = s.dev.at t) (hr : e.reaches path Ix.hwBypassForce) (hdim : dim < 2)

theorem exec_hwBypassForce_array (t path : Nat) (s : State) (hdim : dim < 2) :
    exec (.hwBypassForce t path dim) s = run t s fun d => d.command path Ix.hwBypassForce (dim + 1) 1 fun d => d.forceArray dim := by
  rw [exec_hwBypassForce, execHwBypassForce, runEntry]
  simp only [hdim, decide_true, if_true]

/-- Forcing an array leaves the array's own state to its release. -/
theorem Dev.rd_force_arrayState (d : Dev) (dim v sub : Nat) :
    (d.wI Ix.hwBypassForce dim v).rd Ix.hwBypassState sub 0 = d.rd Ix.hwBypassState sub 0 := (Dev.wr_only ..).rd _ _ (by decide)

include he hr hdim in
theorem hwBypassForce_returns (hst : e.rd Ix.hwBypassState (dim + 1) 0 = 1 ∨ e.rd Ix.hwBypassState (dim + 1) 0 = 2) :
    Completes (.hwBypassForce t path dim) t s (.hw :: requestParts) (Ix.hwBypassForce :: Ix.hwBypassState :: requestPlaces) fun d =>
      d.hw = { e.hw with driven := e.hw.driven.set false dim false, moving := e.hw.moving.put dim e.now } ∧
      d.rd Ix.hwBypassForce (dim + 1) 0 = 1 ∧ d.rd Ix.hwBypassState (dim + 1) 0 = 3 := by
  subst he
  refine completes_command (exec_hwBypassForce_array t path s hdim) hr
    (x := (((s.dev.at t).accept path Ix.hwBypassForce (dim + 1)).wI Ix.hwBypassForce dim 1).arrayMoves dim 3 false)
    (Dev.releaseArray_moves (by rwa [Dev.rd_force_arrayState, Dev.rd_accept]))
    (Dev.changesOnly_trans (pl := []) (Dev.wr_only ..) (Dev.arrayMoves_only ..)) ⟨?_, ?_, ?_⟩
  · rw [Dev.served_hw, Dev.arrayMoves_hw]
    simp
  · rw [Dev.rd_served _ _ _ _ _ _ (by decide), (Dev.arrayMoves_only ..).rd _ _ (by decide)]
    exact Dev.rd_arrayForce _ hdim (by decide)
  · rw [Dev.rd_served _ _ _ _ _ _ (by decide)]
    exact Dev.rd_arrayMoves _ false hdim (by decide)

include he hr hdim in
theorem hwBypassForce_holds (hst : e.rd Ix.hwBypassState (dim + 1) 0 = 0) :
    Completes (.hwBypassForce t path dim) t s (.hw :: requestParts) (Ix.hwBypassForce :: requestPlaces) fun d =>
      d.hw = { e.hw with driven := e.hw.driven.set false dim false } ∧ d.rd Ix.hwBypassForce (dim + 1) 0 = 1 := by
  subst he
  refine completes_command (exec_hwBypassForce_array t path s hdim) hr
    (Dev.releaseArray_stays (by rwa [Dev.rd_force_arrayState, Dev.rd_accept]))
    (Dev.changesOnly_trans (pl := []) (Dev.wr_only ..) (Dev.hw_only ..)) ⟨?_, ?_⟩
  · rw [Dev.served_hw]
    simp
  · rw [Dev.rd_served _ _ _ _ _ _ (by decide)]
    exact Dev.rd_arrayForce _ hdim (by decide)

include he hdim in
theorem bypassInsert_forced (hforce : e.rd Ix.hwBypassForce (dim + 1) 0 = 1) :
    Completes (.bypassInsert t dim) t s codeParts codePlaces fun d =>
      d.hw = e.hw ∧ d.rd Ix.hwBypassState (dim + 1) 0 = e.rd Ix.hwBypassState (dim + 1) 0 ∧ d.rd Ix.fltLastError 0 0 = Code.bypassForced ∧
      d.rd Ix.fltPathError 4 0 = Code.bypassForced := by
  subst he
  exact completesIf_of_eq (exec_bypassInsert t dim s) (by simpa using hdim) (if_pos (Dev.nI_of_rd hforce)) (Dev.raise_only ..)
    ⟨Dev.raise_hw .., Dev.rd_raise _ _ _ _ _ _ (by decide), Dev.raise_rejection_places _ 4 _ (by decide) (by decide) (by decide) (by decide)⟩

end

/-- Settles O11: a forced array is released, and its insertion is refused. -/
theorem forcedBypassStaysThrough : Obligations.ForcedBypassStaysThrough := by
  unfold Obligations.ForcedBypassStaysThrough
  exact ⟨fun t path dim s e => hwBypassForce_returns, fun t path dim s e => hwBypassForce_holds, fun t dim s e => bypassInsert_forced⟩

end Sys2Proof.Machine
end

section
/-! PROOFS. The supplies come and the core starts (R51 to R58, R61, R72). -/

namespace Sys2Proof.Machine

theorem exec_auxEnterRange (t straps converters : Nat) (s : State) :
    exec (.auxEnterRange t straps converters) s = execAuxEnterRange t straps converters s := rfl
theorem exec_auxQualified (t : Nat) (s : State) : exec (.auxQualified t) s = execAuxQualified t s := rfl
theorem exec_v12Good (t : Nat) (s : State) : exec (.v12Good t) s = execV12Good t s := rfl
theorem exec_pwrGoodRise (t : Nat) (s : State) : exec (.pwrGoodRise t) s = execPwrGoodRise t s := rfl
theorem exec_powerLossLogWrite (t : Nat) (s : State) : exec (.powerLossLogWrite t) s = execPowerLossLogWrite t s := rfl
theorem exec_resetNRelease (t straps : Nat) (s : State) : exec (.resetNRelease t straps) s = execResetNRelease t straps s := rfl
theorem exec_modResetRestart (t straps : Nat) (s : State) : exec (.modResetRestart t straps) s = execModResetRestart t straps s := rfl
theorem exec_hwRestart (t path : Nat) (s : State) : exec (.hwRestart t path) s = execHwRestart t path s := rfl
theorem exec_dieCoolStart (t : Nat) (temp : Int) (s : State) : exec (.dieCoolStart t temp) s = execDieCoolStart t temp s := rfl

/-! ### The start of the 12 V regulators (R53) -/

/-- The 12 V regulators run, no start is held, and the flag of R55 is set. -/
def Dev.regulatorsOn (d : Dev) : Dev := { d with hw := { d.hw with regulators := true, startHeld := false, lossFlag := true } }

theorem Dev.regulatorsOn_only (d : Dev) : d.changesOnly [.hw] [] d.regulatorsOn := Dev.hw_only ..

/-- With nothing that holds them off the regulators start. -/
theorem Dev.startRegulators_of_clear {d : Dev} (h : d.startClear) : d.startRegulators = d.regulatorsOn := by
  obtain ⟨hq, hv, htrip, hlow, hw, hp, hf, hs, ht⟩ := h
  have hcool : ¬ startTemp ≤ d.dieTemp := Int.not_le.2 ht
  simp [Dev.startRegulators, hq, hv, htrip, hlow, hw, hp, hf, hs, hcool, Dev.regulatorsOn]

/-- Without 12 V they do not. -/
theorem Dev.startRegulators_of_no12V {d : Dev} (h : d.hw.v12Good = false) : d.startRegulators = d := by
  simp [Dev.startRegulators, h]

/-- Whether a start is clear depends on the supplies and pins, the service and the die's temperature alone. -/
theorem Dev.startClear_congr {d e : Dev} (hhw : e.hw = d.hw) (hs : e.rd Ix.modService 0 0 = d.rd Ix.modService 0 0)
    (ht : e.rd Ix.hwTemp 2 0 = d.rd Ix.hwTemp 2 0) (h : d.startClear) : e.startClear := by
  simpa only [Dev.startClear, Dev.service, Dev.n0, hhw, hs, ht] using h

/-- A sample of the straps clears or holds no start. -/
theorem Dev.startClear_straps {d : Dev} (h : d.startClear) (v : Int) : (d.wr Ix.modSlotId 5 0 v).startClear :=
  Dev.startClear_congr (d := d) rfl ((Dev.wr_only ..).rd _ _ (by decide)) ((Dev.wr_only ..).rd _ _ (by decide)) h

/-- The pins change, the straps are sampled, and the regulators start. -/
def Dev.restart (d : Dev) (x : HwSt) (straps : Nat) : Dev := ({ d with hw := x }.wr Ix.modSlotId 5 0 (straps % 1024 : Nat)).regulatorsOn

theorem Dev.restart_only (d : Dev) (x : HwSt) (straps : Nat) : d.changesOnly [.hw] [Ix.modSlotId] (d.restart x straps) :=
  Dev.changesOnly_mono (Dev.changesOnly_trans (Dev.changesOnly_trans (Dev.hw_only d x) (Dev.wr_only ..)) (Dev.regulatorsOn_only _)) (by decide)
    (by decide)

/-- The start that follows a sample of the straps (R58, R72). -/
theorem Dev.restart_of_clear {d : Dev} {x : HwSt} (h : { d with hw := x }.startClear) (straps : Nat) :
    ({ d with hw := x }.wr Ix.modSlotId 5 0 (straps % 1024 : Nat)).startRegulators = d.restart x straps :=
  Dev.startRegulators_of_clear (Dev.startClear_straps h _)

/-- Ten strap bits fit their entry. -/
theorem Dev.rd_straps (d : Dev) (straps : Nat) : (d.wr Ix.modSlotId 5 0 (straps % 1024 : Nat)).rd Ix.modSlotId 5 0 = (straps % 1024 : Nat) :=
  Dev.rd_wr_fits d (n := 1) 0 (by decide) (by decide) (Nat.lt_trans (Nat.mod_lt _ (by decide)) (by decide))

/-! ### AUX enters its range (R51, R53, R58) -/

/-- The always-on domain leaves reset: the flag of R55 is read, trims hold 0 V, straps and converter pins are sampled. -/
def Dev.auxEnters (d : Dev) (straps conv : Nat) : Dev :=
  let d := { d with hw := { d.hw with auxIn := true, auxSince := d.now, auxQualified := false, trimOut := [], lossFound := d.hw.lossFlag } }
  (((d.w0 Ix.modService 0).w0 Ix.pwrState 1).wr Ix.modSlotId 5 0 (straps % 1024 : Nat)).wr Ix.modSlotId 6 0 (conv % 16 : Nat)

theorem Dev.auxEnters_only (d : Dev) (straps conv : Nat) :
    d.changesOnly [.hw] [Ix.modService, Ix.pwrState, Ix.modSlotId] (d.auxEnters straps conv) :=
  Dev.changesOnly_mono (Dev.changesOnly_trans (Dev.changesOnly_trans (Dev.changesOnly_trans (Dev.changesOnly_trans (Dev.hw_only ..) (Dev.wr_only ..))
    (Dev.wr_only ..)) (Dev.wr_only ..)) (Dev.wr_only ..)) (by decide) (by decide)

theorem Dev.auxEnters_hw (d : Dev) (straps conv : Nat) :
    (d.auxEnters straps conv).hw =
      { d.hw with auxIn := true, auxSince := d.now, auxQualified := false, trimOut := [], lossFound := d.hw.lossFlag } := rfl

theorem Dev.rd_auxEnters (d : Dev) (straps conv : Nat) :
    (d.auxEnters straps conv).rd Ix.modService 0 0 = 0 ∧ (d.auxEnters straps conv).rd Ix.pwrState 0 0 = 1 ∧
      (d.auxEnters straps conv).rd Ix.modSlotId 5 0 = (straps % 1024 : Nat) ∧ (d.auxEnters straps conv).rd Ix.modSlotId 6 0 = (conv % 16 : Nat) := by
  refine ⟨?_, ?_, ?_, ?_⟩
  · rw [Dev.auxEnters, (Dev.wr_only ..).rd _ _ (by decide), (Dev.wr_only ..).rd _ _ (by decide), Dev.w0, (Dev.wr_only ..).rd _ _ (by decide), Dev.w0,
      Dev.rd_wr_same]
    exact normTy_zero _
  · rw [Dev.auxEnters, (Dev.wr_only ..).rd _ _ (by decide), (Dev.wr_only ..).rd _ _ (by decide)]
    exact Dev.rd_wr_fits _ (v := 1) (n := 0) 0 (by decide) (by decide) (by decide)
  · rw [Dev.auxEnters, Dev.rd_wr, if_neg (by decide)]
    exact Dev.rd_straps ..
  · exact Dev.rd_wr_fits _ (n := 0) 0 (by decide) (by decide) (Nat.lt_trans (Nat.mod_lt _ (by decide)) (by decide))

section
variable {t straps conv : Nat} {s : State} {e : Dev} (he : e = s.dev.at t) (haux : e.hw.auxIn = false)
include he haux

theorem auxEnterRange_wakes (h12 : e.hw.v12Early = false) :
    Completes (.auxEnterRange t straps conv) t s [.hw] [Ix.modService, Ix.pwrState, Ix.modSlotId] fun d =>
      d.hw = { e.hw with auxIn := true, auxSince := e.now, auxQualified := false, trimOut := [], lossFound := e.hw.lossFlag } ∧
      d.rd Ix.modService 0 0 = 0 ∧ d.rd Ix.pwrState 0 0 = 1 ∧ d.rd Ix.modSlotId 5 0 = (straps % 1024 : Nat) ∧
      d.rd Ix.modSlotId 6 0 = (conv % 16 : Nat) := by
  subst he
  exact completes_of_eq (exec_auxEnterRange t straps conv s) (x := (s.dev.at t).auxEnters straps conv)
    ((if_neg (by simp [haux])).trans (if_neg (by simp [h12]))) (Dev.auxEnters_only ..) ⟨rfl, Dev.rd_auxEnters ..⟩

theorem auxEnterRange_after12V (h12 : e.hw.v12Early = true) (hroom : e.sup.emergencies.length < 32) :
    Completes (.auxEnterRange t straps conv) t s (.hw :: codeParts) ([Ix.modService, Ix.pwrState, Ix.modSlotId] ++ codePlaces) fun d =>
      d.hw = { e.hw with auxIn := true, auxSince := e.now, auxQualified := false, trimOut := [], lossFound := e.hw.lossFlag } ∧
      d.rd Ix.fltPathError 4 0 = Code.auxSequence := by
  subst he
  exact completes_of_eq (exec_auxEnterRange t straps conv s) (x := ((s.dev.at t).auxEnters straps conv).raise 4 Code.auxSequence)
    ((if_neg (by simp [haux])).trans (if_pos (by simpa using h12)))
    (Dev.changesOnly_trans (pl := [.hw]) (Dev.auxEnters_only ..) (Dev.raise_only ..))
    ⟨by rw [Dev.raise_hw, Dev.auxEnters_hw], (Dev.raise_places ((s.dev.at t).auxEnters straps conv) 4 Code.auxSequence hroom (by decide) (by decide)).2⟩

end

/-! ### AUX qualified, 12 V good, in either order (R53) -/

/-- 12 V is good before AUX is qualified: the regulators are held off (R53). -/
def Dev.early12V (d : Dev) : Dev := { d with hw := { d.hw with v12Good := true, lossFlag := true, v12Early := true } }

theorem Dev.early12V_only (d : Dev) : d.changesOnly [.hw] [] d.early12V := Dev.hw_only ..

section
variable {t : Nat} {s : State} {e : Dev} (he : e = s.dev.at t)
include he

theorem auxQualified_starts (haux : e.hw.auxIn = true) (hms : e.hw.auxSince + ms 1 ≤ e.now)
    (hclear : { e with hw := { e.hw with auxQualified := true } }.startClear) :
    Completes (.auxQualified t) t s [.hw] [] fun d =>
      d.hw = { e.hw with auxQualified := true, v12Early := false, regulators := true, startHeld := false, lossFlag := true } := by
  subst he
  refine completes_of_eq (exec_auxQualified t s)
    (x := { s.dev.at t with hw := { (s.dev.at t).hw with auxQualified := true, v12Early := false } }.regulatorsOn) ?_ (Dev.hw_only ..) rfl
  rw [if_pos (by simp [haux, hms]), Dev.startRegulators_of_clear]
  exact hclear

theorem v12Good_starts (h12 : e.hw.v12Good = false) (hclear : { e with hw := { e.hw with v12Good := true } }.startClear) :
    Completes (.v12Good t) t s [.hw] [] fun d =>
      d.hw = { e.hw with v12Good := true, lossFlag := true, regulators := true, startHeld := false } := by
  subst he
  have hq : (s.dev.at t).hw.auxQualified = true := hclear.1
  refine completes_of_eq (exec_v12Good t s)
    (x := { s.dev.at t with hw := { (s.dev.at t).hw with v12Good := true } }.regulatorsOn) ?_ (Dev.hw_only ..) rfl
  rw [if_neg (by simp [h12])]
  dsimp only
  rw [if_pos hq, Dev.startRegulators_of_clear]
  · rfl
  · exact hclear

theorem v12Good_beforeAux (h12 : e.hw.v12Good = false) (hq : e.hw.auxQualified = false) (haux : e.hw.auxIn = true)
    (hroom : e.sup.emergencies.length < 32) :
    Completes (.v12Good t) t s (.hw :: codeParts) codePlaces fun d =>
      d.hw = { e.hw with v12Good := true, lossFlag := true, v12Early := true } ∧ d.rd Ix.fltPathError 4 0 = Code.auxSequence := by
  subst he
  refine completes_of_eq (exec_v12Good t s) (x := (s.dev.at t).early12V.raise 4 Code.auxSequence) ?_
    (Dev.changesOnly_trans (Dev.early12V_only _) (Dev.raise_only ..))
    ⟨by rw [Dev.raise_hw]; rfl, (Dev.raise_places (s.dev.at t).early12V 4 Code.auxSequence hroom (by decide) (by decide)).2⟩
  simp [h12, hq, haux, Dev.early12V]

end

/-! ### The reports of the pipeline (R121, R131, R143 to R155) -/

/-- A write to an entry of a list, within the frame of the list. -/
theorem Dev.wr_in (d : Dev) {ps : List Nat} {ix : Nat} (h : ix ∈ ps) (sub inst : Nat) (v : Int) : d.changesOnly [] ps (d.wr ix sub inst v) :=
  Dev.changesOnly_mono (Dev.wr_only ..) (by simp) (by simpa using h)

theorem Dev.ddcReport_only (d : Dev) (n : Nat) : d.changesOnly [] standbyPlaces (d.ddcReport n) :=
  Dev.changesOnly_step (Dev.wr_in d (ix := Ix.chnFOut) (by decide) ..) (Dev.wr_in _ (ix := Ix.chnGroupDelay) (by decide) ..)

theorem Dev.standbyAs_only (d : Dev) (n state : Nat) : d.changesOnly [] standbyPlaces (d.standbyAs n state) := by
  refine Dev.changesOnly_step (Dev.changesOnly_foldl_mem _ _ (fun a ix hix => Dev.wr_in a ?_ ..) d) (Dev.wr_in _ (ix := Ix.chnState) (by decide) ..)
  exact List.mem_cons_of_mem _ (List.mem_cons_of_mem _ hix)

theorem Dev.ddcReports_only (d : Dev) : d.changesOnly [] standbyPlaces d.ddcReports := by
  have h := Dev.changesOnly_foldl _ Dev.ddcReport_only (List.range 32) d
  unfold Dev.ddcReports
  exact Dev.changesOnly_ite (fun _ => Dev.changesOnly_step h (Dev.standbyAs_only ..)) fun _ => h

theorem Dev.layerReport_only (d : Dev) (l : Nat) : d.changesOnly [] layerPlaces (d.layerReport l) := by
  have h : ∀ (a b : Dev) {ix : Nat} (_ : ix ∈ layerPlaces) (sub : Nat) (v : Int), a.changesOnly [] layerPlaces b →
      a.changesOnly [] layerPlaces (b.wr ix sub 0 v) := fun a b _ hix sub v hab => Dev.changesOnly_step hab (Dev.wr_in b hix sub 0 v)
  exact h _ _ (by decide) _ _ <| h _ _ (by decide) _ _ <| h _ _ (by decide) _ _ <| h _ _ (by decide) _ _ <| h _ _ (by decide) _ _ <|
    h _ _ (by decide) _ _ <| h _ _ (by decide) _ _ <| h _ _ (by decide) _ _ <| Dev.changesOnly_refl ..

theorem Dev.laneReport_only (d : Dev) (p : Nat) : d.changesOnly [] layerPlaces (d.laneReport p) :=
  Dev.changesOnly_step (Dev.changesOnly_step (Dev.changesOnly_step (Dev.wr_in d (ix := Ix.speLaneCost) (by decide) ..)
    (Dev.wr_in _ (ix := Ix.speLaneFrames) (by decide) ..)) (Dev.wr_in _ (ix := Ix.speLaneMem) (by decide) ..))
    (Dev.changesOnly_foldl _ (fun a _ => Dev.changesOnly_ite (fun _ => Dev.wr_in a (ix := Ix.speCoreState) (by decide) ..)
      fun _ => Dev.changesOnly_refl ..) _ _)

theorem Dev.speReports_only (d : Dev) : d.changesOnly [] layerPlaces d.speReports :=
  Dev.changesOnly_step (Dev.changesOnly_foldl _ Dev.layerReport_only _ d) (Dev.changesOnly_foldl _ Dev.laneReport_only _ _)

theorem Dev.pipeReports_only (d : Dev) : d.changesOnly [] pipePlaces d.pipeReports :=
  Dev.changesOnly_trans (pl := []) (Dev.ddcReports_only d) (Dev.speReports_only _)

/-! ### PWR_GOOD rises (Table 3.1, R339) -/

theorem Dev.outputsGate_only (d : Dev) (low : Bool) : d.changesOnly [.tb] [Ix.tbAuxState] (d.outputsGate low) := by
  have htb : d.changesOnly [.tb] [] { d with tb := { d.tb with gated := low } } :=
    ⟨fun p hp hd => by cases p <;> simp_all [Part.agrees], fun _ _ _ _ => rfl⟩
  exact Dev.changesOnly_mono (Dev.changesOnly_trans htb (Dev.changesOnly_foldl (pl := []) (ps := [Ix.tbAuxState]) _
    (fun a n => Dev.wr_only a ..) _ _)) (by decide) (by decide)

theorem Dev.outputsGate_tb (d : Dev) (low : Bool) : (d.outputsGate low).tb = { d.tb with gated := low } :=
  foldl_keeps Dev.tb (fun (a : Dev) n => a.wI Ix.tbAuxState n (a.auxNow n)) (fun _ _ => rfl) _ _

/-- The core rails are up: the islands' PLLs lock at 400 MHz, and the host link trains where PERST_N is high. -/
def Dev.coreUp (d : Dev) : Dev :=
  let d := { d with hw := { d.hw with pwrGood := true, pRise := d.now }, tb := { d.tb with hops := d.tb.hopsFlash, held := [], relocking := [] } }
  let d := ((d.wrAll Ix.tbIslFreq 400000 12).wrAll Ix.tbPllState 2 12).w0 Ix.pwrState 3
  if d.hw.perstLow then d else d.w0 Ix.strLinkState 1

theorem Dev.coreUp_only (d : Dev) : d.changesOnly [.hw, .tb] [Ix.tbIslFreq, Ix.tbPllState, Ix.pwrState, Ix.strLinkState] d.coreUp := by
  have hparts : ∀ x y, d.changesOnly [.hw, .tb] [] { d with hw := x, tb := y } := fun x y =>
    ⟨fun p hp hd => by cases p <;> simp_all [Part.agrees], fun _ _ _ _ => rfl⟩
  have hclocks := fun x y => Dev.changesOnly_trans (Dev.changesOnly_trans (Dev.changesOnly_trans (hparts x y) (Dev.wrAll_only _ Ix.tbIslFreq 400000 12))
    (Dev.wrAll_only _ Ix.tbPllState 2 12)) (Dev.wr_only _ Ix.pwrState 0 0 3)
  unfold Dev.coreUp
  exact Dev.changesOnly_ite (fun _ => Dev.changesOnly_mono (hclocks _ _) (by decide) (by decide)) fun _ =>
    Dev.changesOnly_mono (Dev.changesOnly_trans (hclocks _ _) (Dev.wr_only ..)) (by decide) (by decide)

theorem Dev.coreUp_hw (d : Dev) : d.coreUp.hw = { d.hw with pwrGood := true, pRise := d.now } := by
  simp only [Dev.coreUp, apply_ite Dev.hw]
  simp

theorem typeOf_islandClocks {i : Nat} (h1 : 1 ≤ i) (h12 : i ≤ 12) : typeOf Ix.tbIslFreq i = 7 ∧ typeOf Ix.tbPllState i = 5 := by
  have h : ∀ k < 13, 1 ≤ k → typeOf Ix.tbIslFreq k = 7 ∧ typeOf Ix.tbPllState k = 5 := by decide
  exact h i (by omega) h1

/-- Every island runs locked at 400 MHz. -/
theorem Dev.rd_coreUp_clocks (d : Dev) {i : Nat} (h1 : 1 ≤ i) (h12 : i ≤ 12) :
    d.coreUp.rd Ix.tbIslFreq i 0 = 400000 ∧ d.coreUp.rd Ix.tbPllState i 0 = 2 := by
  obtain ⟨hf, hp⟩ := typeOf_islandClocks h1 h12
  have h400 : normTy 7 400000 = 400000 := by decide
  have h2 : normTy 5 2 = 2 := by decide
  simp only [Dev.coreUp, apply_ite (fun a : Dev => a.rd Ix.tbIslFreq i 0), apply_ite (fun a : Dev => a.rd Ix.tbPllState i 0)]
  simp only [Ix.tbIslFreq, Ix.tbPllState] at hf hp
  simp [h1, h12, hf, hp, h400, h2]

theorem Dev.rd_coreUp_state (d : Dev) :
    d.coreUp.rd Ix.pwrState 0 0 = 3 ∧ d.coreUp.rd Ix.strLinkState 0 0 = if d.hw.perstLow then d.rd Ix.strLinkState 0 0 else 1 := by
  have h3 : normTy (typeOf Ix.pwrState 0) 3 = 3 := by decide
  have h1 : normTy (typeOf Ix.strLinkState 0) 1 = 1 := by decide
  simp only [Ix.pwrState, Ix.strLinkState] at h3 h1
  cases h : d.hw.perstLow <;> simp [Dev.coreUp, h, h3, h1]

/-- The tracker of an input says valid exactly where its entry reads 2 (Table 12.3). -/
theorem Dev.refValid_iff (d : Dev) :
    (d.coreUp.nI Ix.tbRefState 0 = 2 || d.coreUp.nI Ix.tbRefState 1 = 2) = true ↔ d.rd Ix.tbRefState 1 0 = 2 ∨ d.rd Ix.tbRefState 2 0 = 2 := by
  have h : ∀ i, d.coreUp.nI Ix.tbRefState i = 2 ↔ d.rd Ix.tbRefState (i + 1) 0 = 2 := fun i => by
    rw [Dev.nI_eq_iff (by decide), d.coreUp_only.rd _ _ (by decide)]; rfl
  simp [-Dev.nI_eq, h]

/-- What the rise of PWR_GOOD makes of the device, by whether an input is valid. -/
def Dev.coreStarts (d : Dev) (valid : Bool) : Dev :=
  let d := d.coreUp.outputsGate (!valid)
  (if valid then d else d.raise 4 Code.noReferenceAtStart).pipeReports

theorem exec_pwrGoodRise_eq {t : Nat} {s : State} (hreg : (s.dev.at t).hw.regulators = true) (h12 : (s.dev.at t).hw.v12Good = true)
    (hpg : (s.dev.at t).hw.pwrGood = false) (hrail : (s.dev.at t).hw.railFailed = false) :
    exec (.pwrGoodRise t) s = run t s fun d => d.coreStarts (d.coreUp.nI Ix.tbRefState 0 = 2 || d.coreUp.nI Ix.tbRefState 1 = 2) := by
  rw [exec_pwrGoodRise, execPwrGoodRise, run, run, if_pos (by simp [hreg, h12, hpg, hrail])]
  rfl

section
variable {t : Nat} {s : State} {e : Dev} (he : e = s.dev.at t) (hreg : e.hw.regulators = true) (h12 : e.hw.v12Good = true)
  (hpg : e.hw.pwrGood = false) (hrail : e.hw.railFailed = false)
include he hreg h12 hpg hrail

theorem pwrGoodRise_withReference (href : e.rd Ix.tbRefState 1 0 = 2 ∨ e.rd Ix.tbRefState 2 0 = 2) :
    Completes (.pwrGoodRise t) t s [.hw, .tb] ([Ix.tbIslFreq, Ix.tbPllState, Ix.pwrState, Ix.strLinkState, Ix.tbAuxState] ++ pipePlaces) fun d =>
      d.hw = { e.hw with pwrGood := true, pRise := e.now } ∧ d.rd Ix.pwrState 0 0 = 3 ∧ d.tb.gated = false ∧
      d.rd Ix.strLinkState 0 0 = (if e.hw.perstLow then e.rd Ix.strLinkState 0 0 else 1) ∧
      ∀ i, 1 ≤ i → i ≤ 12 → d.rd Ix.tbIslFreq i 0 = 400000 ∧ d.rd Ix.tbPllState i 0 = 2 := by
  subst he
  have hvalid := (Dev.refValid_iff _).2 href
  have htail := Dev.changesOnly_trans ((s.dev.at t).coreUp.outputsGate_only false) (Dev.pipeReports_only _)
  refine completes_of_eq (exec_pwrGoodRise_eq hreg h12 hpg hrail) (x := ((s.dev.at t).coreUp.outputsGate false).pipeReports) (by rw [hvalid]; rfl)
    (Dev.changesOnly_mono (Dev.changesOnly_trans (Dev.coreUp_only _) htail) (by decide) (by decide)) ⟨?_, ?_, ?_, ?_, fun i h1 hi => ?_⟩
  · rw [htail.hw (by decide), Dev.coreUp_hw]
  · rw [htail.rd _ _ (by decide)]
    exact (Dev.rd_coreUp_state _).1
  · rw [← ((Dev.pipeReports_only _).1 .tb (by decide) (by decide)), Dev.outputsGate_tb]
  · rw [htail.rd _ _ (by decide)]
    exact (Dev.rd_coreUp_state _).2
  · rw [htail.rd _ _ (by decide), htail.rd _ _ (by decide)]
    exact Dev.rd_coreUp_clocks _ h1 hi

theorem pwrGoodRise_withoutReference (h0 : e.rd Ix.tbRefState 1 0 ≠ 2) (h1 : e.rd Ix.tbRefState 2 0 ≠ 2) (hroom : e.sup.emergencies.length < 32) :
    Completes (.pwrGoodRise t) t s (.hw :: .tb :: codeParts)
      ([Ix.tbIslFreq, Ix.tbPllState, Ix.pwrState, Ix.strLinkState, Ix.tbAuxState] ++ pipePlaces ++ codePlaces) fun d =>
      d.hw = { e.hw with pwrGood := true, pRise := e.now } ∧ d.tb.gated = true ∧ d.reports 4 Code.noReferenceAtStart := by
  subst he
  have hvalid := Bool.eq_false_iff.2 fun h => ((Dev.refValid_iff (s.dev.at t)).1 h).elim h0 h1
  have hup := Dev.changesOnly_trans (s.dev.at t).coreUp_only (Dev.outputsGate_only _ true)
  have hraise := Dev.raise_only ((s.dev.at t).coreUp.outputsGate true) 4 Code.noReferenceAtStart
  have hpipe := Dev.pipeReports_only (((s.dev.at t).coreUp.outputsGate true).raise 4 Code.noReferenceAtStart)
  have hsup : ((s.dev.at t).coreUp.outputsGate true).sup = (s.dev.at t).sup := (hup.1 .sup (by decide) (by decide)).symm
  obtain ⟨hlast, hpath⟩ := Dev.raise_places ((s.dev.at t).coreUp.outputsGate true) 4 Code.noReferenceAtStart (by rw [hsup]; exact hroom)
    (by decide) (by decide)
  refine completes_of_eq (exec_pwrGoodRise_eq hreg h12 hpg hrail)
    (x := (((s.dev.at t).coreUp.outputsGate true).raise 4 Code.noReferenceAtStart).pipeReports) (by rw [hvalid]; rfl)
    (Dev.changesOnly_mono (Dev.changesOnly_trans (Dev.changesOnly_trans hup hraise) hpipe) (by decide) (by decide)) ⟨?_, ?_, ?_, ?_⟩
  · rw [hpipe.hw (by decide), Dev.raise_hw, (Dev.outputsGate_only ..).hw (by decide), Dev.coreUp_hw]
  · rw [← hpipe.1 .tb (by decide) (by decide), Dev.raise_tb, Dev.outputsGate_tb]
  · rw [hpipe.rd _ _ (by decide), hlast]
  · rw [hpipe.rd _ _ (by decide), hpath]

end

/-! ### The power-loss entry (R55) -/

/-- An entry that shares its instant with none before it becomes the newest of the log. -/
theorem logInsert_head {x : LogEntry} {l : List LogEntry} (h : ∀ y ∈ l.head?, y.time ≠ x.time) : (logInsert x l).head? = some x := by
  cases l with
  | nil => rfl
  | cons y r => rw [logInsert, if_neg fun hy => h y rfl hy.1]; rfl

theorem Dev.logEntry_head {d : Dev} {time : Nat} (h : ∀ y ∈ d.flt.log.head?, y.time ≠ time) (c isl inst cls value i : Nat) :
    (d.logEntry c time isl inst cls value i).flt.log.head? =
      some ⟨c, d.flt.logSeq, time, isl, inst, cls, d.n0 Ix.modBootCount % 2 ^ 24, value, i⟩ := by
  have hhead := logInsert_head (x := ⟨c, d.flt.logSeq, time, isl, inst, cls, d.n0 Ix.modBootCount % 2 ^ 24, value, i⟩) h
  simpa [Dev.logEntry, List.head?_take] using hhead

/-- A reading of the hottest sensor within its range, where the die does not throttle, is a reading and no more (R61). -/
theorem Dev.dieReads_of_noThrottling {d : Dev} (h : d.hw.throttling = false) (temp : Int) : d.dieReads temp = d.wr Ix.hwTemp 2 0 temp :=
  if_neg (by simp [h])

theorem Dev.rd_dieTemp (d : Dev) {temp : Int} (hlo : -32768 ≤ temp) (hhi : temp < 32768) : (d.wr Ix.hwTemp 2 0 temp).rd Ix.hwTemp 2 0 = temp := by
  rw [Dev.rd_wr_same, normTy_signed_fits (n := 1) (by decide) (by decide) (by simpa using hlo) (by simpa using hhi)]

section
variable {t : Nat} {s : State} {e : Dev} (he : e = s.dev.at t)
include he

theorem powerLossLogWrite_writes (hp : e.hw.lossPending = true) (h12 : e.hw.v12Good = false) (htime : ∀ x ∈ e.flt.log.head?, x.time ≠ e.time96) :
    Completes (.powerLossLogWrite t) t s [.hw, .flt, .ctr] [Ix.fltLogCount] fun d =>
      d.hw = { e.hw with lossPending := false, lossFlag := false } ∧
      d.flt.log.head? = some ⟨Code.railFault, e.flt.logSeq, e.time96, 0xC, 0xFF, 5, e.n0 Ix.modBootCount % 2 ^ 24, 0, 0⟩ := by
  subst he
  have hlog := Dev.logEntry_only (s.dev.at t) Code.railFault (s.dev.at t).time96 0xC 0xFF 5 0 0
  refine completes_of_eq (exec_powerLossLogWrite t s)
    (x := { (s.dev.at t).logEntry Code.railFault (s.dev.at t).time96 0xC 0xFF 5 0 0 with
            hw := { (s.dev.at t).hw with lossPending := false, lossFlag := false } })
    ?_ (Dev.changesOnly_mono (Dev.changesOnly_trans hlog (Dev.hw_only ..)) (by decide) (by decide)) ⟨rfl, Dev.logEntry_head htime ..⟩
  rw [if_pos hp, Dev.startRegulators_of_no12V]
  · rw [hlog.hw (by decide)]
  · rw [hlog.hw (by decide)]; exact h12

/-! ### The end of a reset, of a trip, of a held start (R58, R61, R72) -/

theorem resetNRelease_starts {straps : Nat} (hlow : e.hw.resetLow = true)
    (hclear : { e with hw := { e.hw with resetLow := false, trip := false, railFailed := false } }.startClear) :
    Completes (.resetNRelease t straps) t s [.hw] [Ix.modSlotId] fun d =>
      d.hw = { e.hw with resetLow := false, trip := false, railFailed := false, regulators := true, startHeld := false, lossFlag := true } ∧
      d.rd Ix.modSlotId 5 0 = (straps % 1024 : Nat) := by
  subst he
  exact completes_of_eq (exec_resetNRelease t straps s) ((if_pos hlow).trans (Dev.restart_of_clear hclear straps)) (Dev.restart_only ..)
    ⟨rfl, Dev.rd_straps ..⟩

theorem modResetRestart_starts {straps w : Nat} (hw : e.hw.resetWritten = some w) (hms : w + ms 10 ≤ e.now)
    (hclear : { e with hw := { e.hw with resetWritten := none } }.startClear) :
    Completes (.modResetRestart t straps) t s [.hw] [Ix.modSlotId] fun d =>
      d.hw = { e.hw with resetWritten := none, regulators := true, startHeld := false, lossFlag := true } ∧
      d.rd Ix.modSlotId 5 0 = (straps % 1024 : Nat) := by
  subst he
  refine completes_of_eq (exec_modResetRestart t straps s) (x := (s.dev.at t).restart { (s.dev.at t).hw with resetWritten := none } straps) ?_
    (Dev.restart_only ..) ⟨rfl, Dev.rd_straps ..⟩
  simp only [hw]
  exact (if_pos hms).trans (Dev.restart_of_clear hclear straps)

theorem hwRestart_starts {path : Nat} (hr : e.reaches path Ix.hwRestart) (htrip : e.hw.trip = true)
    (hclear : { e with hw := { e.hw with trip := false } }.startClear) :
    Completes (.hwRestart t path) t s (.hw :: requestParts) requestPlaces fun d =>
      d.hw = { e.hw with trip := false, lossFlag := true, regulators := true, startHeld := false } := by
  subst he
  have hcool : ((s.dev.at t).accept path Ix.hwRestart 0).dieTemp < startTemp := by
    obtain ⟨-, -, -, -, -, -, -, -, ht⟩ := hclear
    rw [Dev.dieTemp, Dev.rd_accept]
    exact ht
  refine completes_command (exec_hwRestart t path s) hr (x := { (s.dev.at t).accept path Ix.hwRestart 0 with
      hw := { ((s.dev.at t).accept path Ix.hwRestart 0).hw with trip := false } }.regulatorsOn) ?_ (Dev.hw_only ..) ?_
  · rw [if_pos (by simp [htrip, hcool]), Dev.startRegulators_of_clear]
    exact Dev.startClear_congr (d := { s.dev.at t with hw := { (s.dev.at t).hw with trip := false } }) (by simp) (Dev.rd_accept ..)
      (Dev.rd_accept ..) hclear
  · rw [Dev.served_hw]
    simp [Dev.regulatorsOn]

theorem hwRestart_refused {path : Nat} (hr : e.reaches path Ix.hwRestart) (hp : 1 ≤ path ∧ path ≤ 4)
    (hno : e.hw.trip = false ∨ 1440 ≤ e.rd Ix.hwTemp 2 0) :
    Completes (.hwRestart t path) t s requestParts requestPlaces fun d => d.reports path Code.restartRefused := by
  subst he
  refine completes_refused (exec_hwRestart t path s) hr hp (if_neg ?_)
  rcases hno with h | h
  · simp [h]
  · have hhot : ¬ (s.dev.at t).rd Ix.hwTemp 2 0 < startTemp := Int.not_lt.2 h
    rw [Dev.dieTemp, Dev.rd_accept]
    simp [hhot]

theorem dieCoolStart_starts {temp : Int} (hheld : e.hw.startHeld = true) (hcool : temp < 1440) (hlow : -1000 ≤ temp) (hth : e.hw.throttling = false)
    (hclear : (e.wr Ix.hwTemp 2 0 temp).startClear) :
    Completes (.dieCoolStart t temp) t s [.hw] [Ix.hwTemp] fun d =>
      d.hw = { e.hw with regulators := true, startHeld := false, lossFlag := true } ∧ d.rd Ix.hwTemp 2 0 = temp := by
  subst he
  refine completes_of_eq (exec_dieCoolStart t temp s) (x := ((s.dev.at t).wr Ix.hwTemp 2 0 temp).regulatorsOn) ?_
    (Dev.changesOnly_trans (pl := []) (Dev.wr_only ..) (Dev.regulatorsOn_only _)) ⟨rfl, Dev.rd_dieTemp _ (by omega) (by omega)⟩
  rw [Dev.dieReads_of_noThrottling hth]
  exact (if_pos hheld).trans (Dev.startRegulators_of_clear hclear)

end

/-- Settles O7: each supply and each end of a reset, with the start of the regulators where nothing holds it; PWR_GOOD by the frames of its reports. -/
theorem suppliesStartTheCore : Obligations.SuppliesStartTheCore := by
  unfold Obligations.SuppliesStartTheCore
  exact ⟨fun t straps conv s e => auxEnterRange_wakes, fun t straps conv s e => auxEnterRange_after12V, fun t s e => auxQualified_starts,
    fun t s e => v12Good_starts, fun t s e => v12Good_beforeAux, fun t s e => pwrGoodRise_withReference,
    fun t s e => pwrGoodRise_withoutReference, fun t s e => powerLossLogWrite_writes, fun t straps s e he => resetNRelease_starts he,
    fun t straps s e w he => modResetRestart_starts he, fun t path s e he => hwRestart_starts he,
    fun t path s e he => hwRestart_refused he, fun t temp s e he => dieCoolStart_starts he⟩

end Sys2Proof.Machine
end

section
/-! PROOFS. What takes the core rails away, and what it leaves (R51, R54, R61, R72, Table 2.9). -/

namespace Sys2Proof.Machine

theorem exec_auxLoss (t : Nat) (s : State) : exec (.auxLoss t) s = execAuxLoss t s := rfl
theorem exec_v12Brownout (t : Nat) (s : State) : exec (.v12Brownout t) s = execV12Brownout t s := rfl
theorem exec_v12Overvoltage (t : Nat) (s : State) : exec (.v12Overvoltage t) s = execV12Overvoltage t s := rfl
theorem exec_railOutOfRegulation (t rail mv ca : Nat) (s : State) :
    exec (.railOutOfRegulation t rail mv ca) s = execRailOutOfRegulation t rail mv ca s := rfl
theorem exec_resetNAssert (t samples : Nat) (s : State) : exec (.resetNAssert t samples) s = execResetNAssert t samples s := rfl
theorem exec_modReset (t path : Nat) (s : State) : exec (.modReset t path) s = execModReset t path s := rfl
theorem exec_thermalTrip (t : Nat) (temp : Int) (s : State) : exec (.thermalTrip t temp) s = execThermalTrip t temp s := rfl

/-! ### Completion -/

/-- A command that takes the contents of capture memory completes with what its meaning evaluates to. -/
theorem completesLost_of_eq {i : Instr} {t : Nat} {s : State} {f : Mem → Dev → Mem × Dev} {post : Dev → Prop} {x : Dev} (h : exec i s = runMem t s f)
    (hx : f s.mem (s.dev.at t) = ([], x)) (hp : post x) : CompletesLost i s post :=
  ⟨x, by rw [h, runMem, hx], hp⟩

/-- One that could, but leaves memory as it is. -/
theorem completes_runMem_of_eq {i : Instr} {t : Nat} {s : State} {f : Mem → Dev → Mem × Dev} {pl : List Part} {ps : List Nat} {post : Dev → Prop}
    {x : Dev} (h : exec i s = runMem t s f) (hx : f s.mem (s.dev.at t) = (s.mem, x)) (hc : (s.dev.at t).changesOnly pl ps x) (hp : post x) :
    Completes i t s pl ps post :=
  ⟨x, by rw [h, runMem, hx], hc, hp⟩

theorem Dev.changesOnly.now {pl : List Part} {ps : List Nat} {d e : Dev} (h : d.changesOnly pl ps e) (hp : Part.now ∉ pl) : e.now = d.now :=
  (h.1 .now hp (by decide)).symm
theorem Dev.changesOnly.tb {pl : List Part} {ps : List Nat} {d e : Dev} (h : d.changesOnly pl ps e) (hp : Part.tb ∉ pl) : e.tb = d.tb :=
  (h.1 .tb hp (by decide)).symm
theorem Dev.changesOnly.sup {pl : List Part} {ps : List Nat} {d e : Dev} (h : d.changesOnly pl ps e) (hp : Part.sup ∉ pl) : e.sup = d.sup :=
  (h.1 .sup hp (by decide)).symm

/-! ### The rails are down -/

/-- What touches none of the parts that say so leaves the core down. -/
theorem Dev.coreDown.of_only {pl : List Part} {ps : List Nat} {d e : Dev} (h : d.coreDown) (hc : d.changesOnly pl ps e)
    (hp : ∀ p ∈ [Part.hw, .cut, .itk, .chn, .spe, .trg, .den, .cap, .im, .cf], p ∉ pl := by decide) (hs : Ix.modService ∉ ps := by decide) :
    e.coreDown := by
  obtain ⟨hparts, -⟩ := id hc
  have hhw := hc.hw (hp _ (by decide))
  have hcut := hc.cut (hp _ (by decide))
  have hitk : d.itk = e.itk := hparts .itk (hp _ (by decide)) (by decide)
  have hchn : d.chn = e.chn := hparts .chn (hp _ (by decide)) (by decide)
  have hspe : d.spe = e.spe := hparts .spe (hp _ (by decide)) (by decide)
  have htrg : d.trg = e.trg := hparts .trg (hp _ (by decide)) (by decide)
  have hden : d.den = e.den := hparts .den (hp _ (by decide)) (by decide)
  have hcap : d.cap = e.cap := hparts .cap (hp _ (by decide)) (by decide)
  have him : d.im = e.im := hparts .im (hp _ (by decide)) (by decide)
  have hcf : d.cf = e.cf := hparts .cf (hp _ (by decide)) (by decide)
  rw [Dev.coreDown] at h ⊢
  rwa [hhw, hcut, hc.rd _ _ hs, ← hitk, ← hchn, ← hspe, ← htrg, ← hden, ← hcap, ← him, ← hcf]

/-- Pins and flags beside PWR_GOOD, the regulators and the arrays' drive leave it down too. -/
theorem Dev.coreDown.withHw {d : Dev} (h : d.coreDown) {x : HwSt} (hg : x.pwrGood = d.hw.pwrGood) (hr : x.regulators = d.hw.regulators)
    (hd : x.driven = d.hw.driven) : { d with hw := x }.coreDown := by
  rw [Dev.coreDown] at h ⊢
  rw [← hg, ← hr, ← hd] at h
  exact h

/-! ### The core shuts down (Table 2.9) -/

theorem Dev.heatEnds_only (d : Dev) : d.changesOnly [.sup] [] d.heatEnds :=
  Dev.changesOnly_ite (fun _ => Dev.sup_only ..) fun _ => Dev.changesOnly_refl ..

theorem Dev.releaseArray_only (d : Dev) (dim : Nat) : d.changesOnly [.hw] [Ix.hwBypassState] (d.releaseArray dim) := by
  have hdrive : ∀ x, d.changesOnly [.hw] [Ix.hwBypassState] { d with hw := x } := fun x => Dev.changesOnly_mono (Dev.hw_only d x) (by simp) (by simp)
  exact Dev.changesOnly_ite (fun _ => Dev.changesOnly_step (Dev.changesOnly_step (hdrive _) (Dev.changesOnly_mono (Dev.wr_only ..) (by simp) (by simp)))
    (Dev.changesOnly_mono (Dev.hw_only ..) (by simp) (by simp))) fun _ => hdrive _

/-- A release takes an array's drive, and of the hardware changes nothing but that and since when the array moves. -/
theorem Dev.releaseArray_hw (d : Dev) (dim : Nat) :
    (d.releaseArray dim).hw = { d.hw with driven := d.hw.driven.set false dim false, moving := (d.releaseArray dim).hw.moving } := by
  unfold Dev.releaseArray
  dsimp only
  split <;> rfl

theorem Dev.releaseArrays_only (d : Dev) : d.changesOnly [.hw] [Ix.hwBypassState] d.releaseArrays :=
  Dev.changesOnly_step (Dev.releaseArray_only ..) (Dev.releaseArray_only ..)

theorem Dev.releaseArrays_hw (d : Dev) :
    d.releaseArrays.hw =
      { d.hw with driven := (d.hw.driven.set false 0 false).set false 1 false, moving := d.releaseArrays.hw.moving } := by
  rw [Dev.releaseArrays, Dev.releaseArray_hw _ 1, Dev.releaseArray_hw d 0]

/-- Neither array is driven. -/
theorem driven_released (l : Tab Bool) :
    ((l.set false 0 false).set false 1 false).get false 0 = false ∧ ((l.set false 0 false).set false 1 false).get false 1 = false :=
  ⟨by rw [Tab.get_set_other _ _ _ _ _ _ (by decide), Tab.get_set_same], Tab.get_set_same ..⟩

/-- The rails fall and the arrays are released; of the islands nothing is lost yet. -/
def Dev.railsFall (d : Dev) : Dev :=
  let d := if d.hw.throttling || !d.cap.over95.isEmpty then d.heatEnds else d
  { d with hw := { d.hw with pwrGood := false, regulators := false, startHeld := false, throttling := false, thermLow := false } }.releaseArrays

theorem Dev.railsFall_only (d : Dev) : d.changesOnly [.sup, .hw] [Ix.hwBypassState] d.railsFall := by
  have hheat : d.changesOnly [.sup] [] (if d.hw.throttling || !d.cap.over95.isEmpty then d.heatEnds else d) :=
    Dev.changesOnly_ite (fun _ => Dev.heatEnds_only d) fun _ => Dev.changesOnly_refl ..
  exact Dev.changesOnly_mono (Dev.changesOnly_trans (Dev.changesOnly_trans hheat (Dev.hw_only ..)) (Dev.releaseArrays_only _)) (by decide) (by decide)

theorem Dev.railsFall_hw (d : Dev) :
    d.railsFall.hw = { d.hw with
      pwrGood := false, regulators := false, startHeld := false, throttling := false, thermLow := false
      driven := (d.hw.driven.set false 0 false).set false 1 false, moving := d.railsFall.hw.moving } := by
  rw [Dev.railsFall, Dev.releaseArrays_hw]
  simp only [apply_ite Dev.hw, Dev.heatEnds_hw, ite_self]

/-- The islands are lost, the AUXCLK outputs off, `mod.service` reads 0, and the field network drops. -/
def Dev.serviceEnds (d : Dev) : Dev := ((d.railsFall.islandsLost.wrAll Ix.tbAuxState 0 8).w0 Ix.modService 0).alDrop 0x8001

theorem Dev.serviceEnds_only (d : Dev) : d.railsFall.islandsLost.changesOnly [.sup] [Ix.tbAuxState, Ix.modService] d.serviceEnds :=
  Dev.changesOnly_trans (pl := []) (ps := [Ix.tbAuxState, Ix.modService]) (Dev.changesOnly_trans (pl := []) (ps := [Ix.tbAuxState])
    (Dev.wrAll_only ..) (Dev.wr_only ..)) (Dev.alDrop_only ..)

/-- What is left of the shutdown: two reports, and the cuts that are given up. -/
theorem Dev.coreOff_last (d : Dev) : d.serviceEnds.changesOnly [.cut] [Ix.modBringup, Ix.pwrState, Ix.modCutState] d.coreOff :=
  Dev.changesOnly_mono (Dev.changesOnly_trans (Dev.changesOnly_trans (Dev.changesOnly_trans (Dev.wr_only d.serviceEnds Ix.modBringup 0 0 _)
    (Dev.wr_only _ Ix.pwrState 0 0 1)) (Dev.cut_only ..)) (Dev.wr_only _ Ix.modCutState 0 0 _)) (by decide) (by decide)

theorem Dev.coreOff_tail (d : Dev) :
    d.railsFall.islandsLost.changesOnly [.sup, .cut] [Ix.tbAuxState, Ix.modService, Ix.modBringup, Ix.pwrState, Ix.modCutState] d.coreOff :=
  Dev.changesOnly_trans d.serviceEnds_only d.coreOff_last

theorem Dev.coreOff_hw (d : Dev) :
    d.coreOff.hw = { d.hw with
      pwrGood := false, regulators := false, startHeld := false, throttling := false, thermLow := false
      driven := (d.hw.driven.set false 0 false).set false 1 false, moving := d.railsFall.hw.moving } :=
  (d.coreOff_tail.hw (by decide)).trans d.railsFall_hw

theorem Dev.coreOff_now (d : Dev) : d.coreOff.now = d.now := (d.coreOff_tail.now (by decide)).trans (d.railsFall_only.now (by decide))
theorem Dev.coreOff_tb (d : Dev) : d.coreOff.tb = d.tb := (d.coreOff_tail.tb (by decide)).trans (d.railsFall_only.tb (by decide))

theorem Dev.rd_coreOff_service (d : Dev) : d.coreOff.rd Ix.modService 0 0 = 0 := by
  rw [d.coreOff_last.rd _ _ (by decide), Dev.serviceEnds, (Dev.alDrop_only ..).rd _ _ (by decide), Dev.w0, Dev.rd_wr_same]
  exact normTy_zero _

theorem Dev.coreOff_cut (d : Dev) : d.coreOff.cut.user = none ∧ d.coreOff.cut.engine = [] := ⟨rfl, rfl⟩

theorem Dev.coreOff_down (d : Dev) : d.coreOff.coreDown := by
  have hparts := fun p hp => d.coreOff_tail.1 p hp
  have hitk : _ = d.coreOff.itk := hparts .itk (by decide) (by decide)
  have hchn : _ = d.coreOff.chn := hparts .chn (by decide) (by decide)
  have hspe : _ = d.coreOff.spe := hparts .spe (by decide) (by decide)
  have htrg : _ = d.coreOff.trg := hparts .trg (by decide) (by decide)
  have hden : _ = d.coreOff.den := hparts .den (by decide) (by decide)
  have hcap : _ = d.coreOff.cap := hparts .cap (by decide) (by decide)
  have him : _ = d.coreOff.im := hparts .im (by decide) (by decide)
  have hcf : _ = d.coreOff.cf := hparts .cf (by decide) (by decide)
  obtain ⟨hd0, hd1⟩ := driven_released d.hw.driven
  obtain ⟨huser, hengine⟩ := d.coreOff_cut
  rw [Dev.coreDown, ← hitk, ← hchn, ← hspe, ← htrg, ← hden, ← hcap, ← him, ← hcf, Dev.coreOff_hw, d.rd_coreOff_service, huser, hengine]
  exact ⟨rfl, rfl, hd0, hd1, rfl, rfl, rfl, rfl, rfl, rfl, rfl, rfl, rfl, rfl, rfl⟩

/-! ### A loss of the core's power (R54, R55) -/

theorem Dev.raiseBase_only (d : Dev) (path c : Nat) : d.changesOnly codeParts codePlaces (d.raiseBase path c) :=
  ⟨fun p hp h => by cases p <;> first | (simp [Part.agrees]; done) | exact absurd rfl h | exact absurd (by decide) hp,
    fun ix sub inst h => Dev.rd_raiseBase _ _ _ _ _ _ h⟩

/-- The report of a loss, after the shutdown and the mark that its entry is to be written. -/
theorem Dev.powerLost_only (d : Dev) :
    { d.coreOff with hw := { d.coreOff.hw with lossPending := true } }.changesOnly codeParts faultPlaces d.powerLost :=
  Dev.changesOnly_mono (Dev.changesOnly_trans (Dev.inc_only { d.coreOff with hw := { d.coreOff.hw with lossPending := true } } Ix.fltClassCount 5 0 1)
    (Dev.raiseBase_only _ 4 Code.railFault)) (by decide) (by decide)

theorem Dev.powerLost_down (d : Dev) : d.powerLost.coreDown :=
  (d.coreOff_down.withHw (x := { d.coreOff.hw with lossPending := true }) rfl rfl rfl).of_only d.powerLost_only

theorem Dev.powerLost_hw (d : Dev) : d.powerLost.hw = { d.coreOff.hw with lossPending := true } := d.powerLost_only.hw (by decide)
theorem Dev.powerLost_now (d : Dev) : d.powerLost.now = d.now := (d.powerLost_only.now (by decide)).trans d.coreOff_now

/-- 12 V outside its range, on either side (R51). -/
def Dev.no12V (d : Dev) : Dev := { d with hw := { d.hw with v12Good := false, v12Early := false, regulators := false, startHeld := false } }

section
variable {i : Instr} {t : Nat} {s : State} {e : Dev} (h : exec i s = runMem t s fun m d => d.v12Lost m) (he : e = s.dev.at t)
include h he

theorem v12Lost_stopsCore (hpg : e.hw.pwrGood = true) :
    CompletesLost i s fun d => d.coreDown ∧ d.hw.v12Good = false ∧ d.hw.lossPending = true ∧ d.now = e.now := by
  subst he
  refine completesLost_of_eq h (x := (s.dev.at t).no12V.powerLost) (if_pos hpg) ⟨Dev.powerLost_down _, ?_, ?_, Dev.powerLost_now _⟩
  · rw [Dev.powerLost_hw, Dev.coreOff_hw]; rfl
  · rw [Dev.powerLost_hw]

theorem v12Lost_coreOff (hpg : e.hw.pwrGood = false) :
    Completes i t s [.hw] [] fun d => d.hw = { e.hw with v12Good := false, v12Early := false, regulators := false, startHeld := false } := by
  subst he
  exact completes_runMem_of_eq h (x := (s.dev.at t).no12V) (if_neg (by simp [hpg])) (Dev.hw_only ..) rfl

end

/-! ### A rail (R54, Table 2.15) -/

/-- Voltage and current of a rail are measured. -/
def Dev.railReads (d : Dev) (rail mv ca : Nat) : Dev := (d.wI Ix.hwRailMv (rail - 1) mv).wI Ix.hwRailMa (rail - 1) ca

theorem Dev.railReads_only (d : Dev) (rail mv ca : Nat) : d.changesOnly [] [Ix.hwRailMv, Ix.hwRailMa] (d.railReads rail mv ca) :=
  Dev.changesOnly_trans (pl := []) (ps := [Ix.hwRailMv]) (Dev.wr_only ..) (Dev.wr_only ..)

theorem typeOf_rails {rail : Nat} (h1 : 1 ≤ rail) (h8 : rail ≤ 8) : typeOf Ix.hwRailMv rail = 6 ∧ typeOf Ix.hwRailMa rail = 6 := by
  have h : ∀ k < 9, 1 ≤ k → typeOf Ix.hwRailMv k = 6 ∧ typeOf Ix.hwRailMa k = 6 := by decide
  exact h rail (by omega) h1

theorem Dev.rd_railReads (d : Dev) {rail mv ca : Nat} (h1 : 1 ≤ rail) (h8 : rail ≤ 8) (hmv : mv < 65536) (hca : ca < 65536) :
    (d.railReads rail mv ca).rd Ix.hwRailMv rail 0 = mv ∧ (d.railReads rail mv ca).rd Ix.hwRailMa rail 0 = ca := by
  obtain ⟨tv, ta⟩ := typeOf_rails h1 h8
  rw [Dev.railReads, Dev.wI, Dev.wI, Nat.sub_add_cancel h1]
  constructor
  · rw [(Dev.wr_only ..).rd _ _ (by decide)]
    exact Dev.rd_wr_fits d (n := 1) 0 (by rw [tv]; rfl) (by rw [tv]; rfl) hmv
  · exact Dev.rd_wr_fits _ (n := 1) 0 (by rw [ta]; rfl) (by rw [ta]; rfl) hca

/-- A rail failed to regulate: the regulators are off. -/
def Dev.railFails (d : Dev) : Dev := { d with hw := { d.hw with railFailed := true, regulators := false } }

section
variable {t rail mv ca : Nat} {s : State} (h1 : 1 ≤ rail) (h8 : rail ≤ 8)
include h1 h8

theorem exec_railOutOfRegulation_eq :
    exec (.railOutOfRegulation t rail mv ca) s = runMem t s fun m d =>
      if !(d.hw.regulators || d.hw.pwrGood || (rail = 3 && d.hw.auxIn)) || ((railWindow rail).1 ≤ mv && mv ≤ (railWindow rail).2) then
        (m, d.railReads rail mv ca)
      else if d.hw.pwrGood then ([], ((d.railReads rail mv ca).railFails).powerLost)
      else (m, ((d.railReads rail mv ca).railFails).raise 4 Code.railFault) := by
  rw [exec_railOutOfRegulation, execRailOutOfRegulation, runMemIf]
  simp only [h1, h8, decide_true, Bool.and_self, if_true]
  rfl

theorem railOutOfRegulation_stopsCore {e : Dev} (he : e = s.dev.at t) (hout : mv < (railWindow rail).1 ∨ (railWindow rail).2 < mv) (hpg : e.hw.pwrGood = true) :
    CompletesLost (.railOutOfRegulation t rail mv ca) s fun d => d.coreDown ∧ d.hw.railFailed = true ∧ d.hw.lossPending = true ∧ d.now = e.now := by
  subst he
  have hfail : ¬ ((!((s.dev.at t).hw.regulators || (s.dev.at t).hw.pwrGood || (rail = 3 && (s.dev.at t).hw.auxIn)) ||
      ((railWindow rail).1 ≤ mv && mv ≤ (railWindow rail).2)) = true) := by
    simp only [hpg, Bool.or_true, Bool.true_or, Bool.not_true, Bool.false_or, Bool.and_eq_true, decide_eq_true_eq]
    omega
  refine completesLost_of_eq (exec_railOutOfRegulation_eq h1 h8) ((if_neg hfail).trans (if_pos hpg)) ⟨Dev.powerLost_down _, ?_, ?_, Dev.powerLost_now _⟩
  · rw [Dev.powerLost_hw, Dev.coreOff_hw]; rfl
  · rw [Dev.powerLost_hw]

theorem railOutOfRegulation_inWindow (hlo : (railWindow rail).1 ≤ mv) (hhi : mv ≤ (railWindow rail).2) (hmv : mv < 65536) (hca : ca < 65536) :
    Completes (.railOutOfRegulation t rail mv ca) t s [] [Ix.hwRailMv, Ix.hwRailMa] fun d =>
      d.rd Ix.hwRailMv rail 0 = mv ∧ d.rd Ix.hwRailMa rail 0 = ca :=
  completes_runMem_of_eq (exec_railOutOfRegulation_eq h1 h8) (if_pos (by simp [hlo, hhi])) (Dev.railReads_only ..)
    (Dev.rd_railReads _ h1 h8 hmv hca)

end

/-! ### The always-on domain starts again (R72, Table 2.14) -/

/-- What a restart of the always-on domain keeps beside flash entries: supplies, pins and arrays, images, the time counter's hop table in flash,
the fault log and the stored calibration. -/
def Dev.blank (d : Dev) : Dev :=
  { now := d.now, drawn := d.drawn,
    hw := { d.hw with
      pwrGood := false, regulators := false, startHeld := false, throttling := false, thermLow := false
      railFailed := false, resetWritten := none },
    boot := { images := d.boot.images, preferred := d.boot.preferred }, tb := { hops := d.tb.hopsFlash, hopsFlash := d.tb.hopsFlash }
    flt := { log := d.flt.log, logSeq := d.flt.logSeq }, cal := { saved := d.cal.saved } }

/-- Entries copied are those of the list, and no others. -/
theorem Dev.copyEntries_only (src : Dev) (l : List (Nat × Nat × Nat)) (dst : Dev) :
    dst.changesOnly [] (l.map (·.1)) (src.copyEntries l dst) := by
  refine Dev.changesOnly_foldl_mem _ l (fun a x hx => Dev.changesOnly_foldl _ (fun b k => Dev.wr_in b ?_ ..) _ a) dst
  exact List.mem_map_of_mem hx

theorem Dev.coldStart_only (d : Dev) : d.blank.changesOnly [] (flashEntries.map (·.1)) d.coldStart := Dev.copyEntries_only d flashEntries d.blank

theorem Dev.rd_blank_service (d : Dev) : d.blank.rd Ix.modService 0 0 = 0 := by
  have h : dfltOf Ix.modService 0 = 0 := by decide
  exact h

/-- A restart of a device whose arrays are driven no more starts with the core down. -/
theorem Dev.coldStart_down {d : Dev} (h : d.coreDown) : d.coldStart.coreDown := by
  obtain ⟨-, -, hd0, hd1, -⟩ := h
  have hblank : d.blank.coreDown := ⟨rfl, rfl, hd0, hd1, d.rd_blank_service, rfl, rfl, rfl, rfl, rfl, rfl, rfl, rfl, rfl, rfl⟩
  exact hblank.of_only d.coldStart_only

theorem Dev.coldStart_hw (d : Dev) : d.coldStart.hw = d.blank.hw := d.coldStart_only.hw (by decide)
theorem Dev.coldStart_now (d : Dev) : d.coldStart.now = d.now := d.coldStart_only.now (by decide)
theorem Dev.coldStart_sup (d : Dev) : d.coldStart.sup = {} := d.coldStart_only.sup (by decide)

theorem Dev.relaysRelease_only (d : Dev) : d.changesOnly [.sup] [Ix.hwEcatRelay] d.relaysRelease :=
  Dev.changesOnly_trans (pl := []) (Dev.wr_only ..) (Dev.sup_only ..)

/-- The core is off and the relays have released. -/
def Dev.coreAndRelaysOff (d : Dev) : Dev := d.coreOff.relaysRelease

theorem Dev.coreAndRelaysOff_only (d : Dev) : d.coreOff.changesOnly [.sup] [Ix.hwEcatRelay] d.coreAndRelaysOff := Dev.relaysRelease_only _
theorem Dev.coreAndRelaysOff_down (d : Dev) : d.coreAndRelaysOff.coreDown := d.coreOff_down.of_only d.coreAndRelaysOff_only
theorem Dev.coreAndRelaysOff_now (d : Dev) : d.coreAndRelaysOff.now = d.now := by rw [d.coreAndRelaysOff_only.now (by decide), Dev.coreOff_now]
theorem Dev.coreAndRelaysOff_tb (d : Dev) : d.coreAndRelaysOff.tb = d.tb := by rw [d.coreAndRelaysOff_only.tb (by decide), Dev.coreOff_tb]
theorem Dev.coreAndRelaysOff_hw (d : Dev) : d.coreAndRelaysOff.hw = d.coreOff.hw := d.coreAndRelaysOff_only.hw (by decide)

/-! ### AUX is lost (R51, R61) -/

/-- The supplies and pins once AUX is away. -/
def Dev.noAux (d : Dev) : Dev :=
  { d with hw := { d.hw with
    auxIn := false, auxQualified := false, v12Early := d.hw.v12Good, trip := false, trimOut := [], lossPending := false } }

theorem Dev.noAux_only (d : Dev) : d.changesOnly [.hw] [] d.noAux := Dev.hw_only ..
theorem Dev.noAux_down {d : Dev} (h : d.coreDown) : d.noAux.coreDown := h.withHw rfl rfl rfl

/-- What the loss of AUX leaves of a device whose core is off: of its entries, only where the arrays stand. -/
def Dev.auxGone (d : Dev) : Dev := (d.copyEntries [(Ix.hwBypassState, 1, 2)] d.coldStart.noAux).w0 Ix.pwrState 0

theorem Dev.auxGone_only (d : Dev) : d.coldStart.noAux.changesOnly [] [Ix.hwBypassState, Ix.pwrState] d.auxGone :=
  Dev.changesOnly_trans (Dev.copyEntries_only d [(Ix.hwBypassState, 1, 2)] _) (Dev.wr_only ..)

theorem Dev.auxGone_hw (d : Dev) :
    d.auxGone.hw.auxIn = false ∧ d.auxGone.hw.auxQualified = false ∧ d.auxGone.hw.trip = false ∧ d.auxGone.hw.trimOut = [] := by
  rw [d.auxGone_only.hw (by decide)]
  exact ⟨rfl, rfl, rfl, rfl⟩

theorem Dev.auxGone_sup (d : Dev) : d.auxGone.sup = {} := by
  rw [d.auxGone_only.sup (by decide), (Dev.noAux_only _).sup (by decide), Dev.coldStart_sup]

theorem Dev.auxGone_now (d : Dev) : d.auxGone.now = d.now := by
  rw [d.auxGone_only.now (by decide), (Dev.noAux_only _).now (by decide), Dev.coldStart_now]

theorem Dev.rd_auxGone_state (d : Dev) : d.auxGone.rd Ix.pwrState 0 0 = 0 := by
  rw [Dev.auxGone, Dev.w0, Dev.rd_wr_same]
  exact normTy_zero _

theorem auxLoss_stops {t : Nat} {s : State} {e : Dev} (he : e = s.dev.at t) (haux : e.hw.auxIn = true) :
    CompletesLost (.auxLoss t) s fun d => d.coreDown ∧ d.hw.auxIn = false ∧ d.hw.auxQualified = false ∧ d.hw.trip = false ∧ d.hw.trimOut = [] ∧
      d.sup.al = .away ∧ d.rd Ix.pwrState 0 0 = 0 ∧ d.now = e.now := by
  subst he
  obtain ⟨hin, hq, htrip, htrim⟩ := (s.dev.at t).coreAndRelaysOff.auxGone_hw
  refine completesLost_of_eq (exec_auxLoss t s) (x := (s.dev.at t).coreAndRelaysOff.auxGone) (if_pos haux)
    ⟨(Dev.noAux_down (Dev.coldStart_down (Dev.coreAndRelaysOff_down _))).of_only (Dev.auxGone_only _), hin, hq, htrip, htrim, ?_,
      Dev.rd_auxGone_state _, ?_⟩
  · rw [Dev.auxGone_sup]
  · rw [Dev.auxGone_now, Dev.coreAndRelaysOff_now]

/-! ### A reset of the module (R57, R72) -/

/-- A reset keeps the time counter and is no loss of power. -/
def Dev.resetKeeps (d : Dev) (x : TbSt) : Dev := { d with tb := x, hw := { d.hw with lossFlag := false, lossPending := false } }

theorem Dev.resetKeeps_only (d : Dev) (x : TbSt) : d.changesOnly [.tb, .hw] [] (d.resetKeeps x) :=
  ⟨fun p hp hd => by cases p <;> simp_all [Part.agrees, Dev.resetKeeps], fun _ _ _ _ => rfl⟩

theorem Dev.resetKeeps_down {d : Dev} (h : d.coreDown) (x : TbSt) : (d.resetKeeps x).coreDown := h

/-- The device as a reset leaves it, before the always-on domain's entries are kept and the fault log records it. -/
def Dev.resetState (d : Dev) : Dev := d.coreAndRelaysOff.coldStart.resetKeeps d.coreAndRelaysOff.tb

theorem Dev.moduleReset_only (d : Dev) :
    d.resetState.changesOnly [.flt, .ctr] (alwaysOn.map (·.1) ++ [Ix.fltLogCount]) d.moduleReset :=
  Dev.changesOnly_trans (pl := []) (Dev.copyEntries_only d.coreAndRelaysOff alwaysOn d.resetState) (Dev.logEntry_only ..)

theorem Dev.moduleReset_down (d : Dev) : d.moduleReset.coreDown :=
  (Dev.resetKeeps_down (Dev.coldStart_down d.coreAndRelaysOff_down) _).of_only d.moduleReset_only

theorem Dev.moduleReset_sup (d : Dev) : d.moduleReset.sup = {} := by
  rw [d.moduleReset_only.sup (by decide), Dev.resetState, (Dev.resetKeeps_only ..).sup (by decide), Dev.coldStart_sup]

theorem Dev.moduleReset_now (d : Dev) : d.moduleReset.now = d.now := by
  rw [d.moduleReset_only.now (by decide), Dev.resetState, (Dev.resetKeeps_only ..).now (by decide), Dev.coldStart_now, Dev.coreAndRelaysOff_now]

theorem Dev.moduleReset_tb (d : Dev) : d.moduleReset.tb = d.tb := by
  rw [d.moduleReset_only.tb (by decide), Dev.resetState, Dev.resetKeeps, Dev.coreAndRelaysOff_tb]

/-- A trip and the trims outlast a reset. -/
theorem Dev.moduleReset_hw (d : Dev) : d.moduleReset.hw.trip = d.hw.trip ∧ d.moduleReset.hw.trimOut = d.hw.trimOut := by
  rw [d.moduleReset_only.hw (by decide), Dev.resetState, Dev.resetKeeps]
  simp only [Dev.coldStart_hw, Dev.blank, Dev.coreAndRelaysOff_hw, Dev.coreOff_hw, and_self]

/-- The pin RESET_N is low. -/
def Dev.resetPinLow (d : Dev) : Dev := { d with hw := { d.hw with resetLow := true } }

theorem Dev.resetPinLow_only (d : Dev) : d.changesOnly [.hw] [] d.resetPinLow := Dev.hw_only ..
theorem Dev.resetPinLow_down {d : Dev} (h : d.coreDown) : d.resetPinLow.coreDown := h.withHw rfl rfl rfl
theorem Dev.resetPinLow_hw (d : Dev) : d.resetPinLow.hw = { d.hw with resetLow := true } := rfl

/-- A reset was written now. -/
def Dev.resetWrittenNow (d : Dev) : Dev := { d with hw := { d.hw with resetWritten := some d.now } }

theorem Dev.resetWrittenNow_only (d : Dev) : d.changesOnly [.hw] [] d.resetWrittenNow := Dev.hw_only ..
theorem Dev.resetWrittenNow_down {d : Dev} (h : d.coreDown) : d.resetWrittenNow.coreDown := h.withHw rfl rfl rfl
theorem Dev.resetWrittenNow_hw (d : Dev) : d.resetWrittenNow.hw = { d.hw with resetWritten := some d.now } := rfl

section
variable {t : Nat} {s : State} {e : Dev} (he : e = s.dev.at t)
include he

theorem resetNAssert_resets {samples : Nat} (h12 : 12 ≤ samples) (haux : e.hw.auxIn = true) :
    CompletesLost (.resetNAssert t samples) s fun d => d.coreDown ∧ d.hw.resetLow = true ∧ d.hw.trip = e.hw.trip ∧ d.hw.trimOut = e.hw.trimOut ∧
      d.sup.al = .away ∧ d.tb = e.tb ∧ d.now = e.now := by
  subst he
  have hpin := (s.dev.at t).moduleReset.resetPinLow_only
  obtain ⟨htrip, htrim⟩ := (s.dev.at t).moduleReset_hw
  refine completesLost_of_eq (exec_resetNAssert t samples s) (x := (s.dev.at t).moduleReset.resetPinLow) (if_neg (by simpa [haux] using h12)) ?_
  rw [Dev.resetPinLow_hw, hpin.sup (by decide), hpin.tb (by decide), hpin.now (by decide), Dev.moduleReset_sup]
  dsimp only
  exact ⟨Dev.resetPinLow_down (Dev.moduleReset_down _), rfl, htrip, htrim, rfl, Dev.moduleReset_tb _, Dev.moduleReset_now _⟩

theorem resetNAssert_short {samples : Nat} (h12 : samples < 12) : Completes (.resetNAssert t samples) t s [] [] fun d => d = e := by
  subst he
  exact completes_runMem_of_eq (exec_resetNAssert t samples s) (if_pos (by simp [h12])) (Dev.changesOnly_refl ..) rfl

theorem modReset_resets {path : Nat} (hrun : e.sup.running = true) (hopen : e.pathOpen path = true) :
    CompletesLost (.modReset t path) s fun d => d.coreDown ∧ d.hw.resetWritten = some e.now ∧ d.hw.trimOut = e.hw.trimOut ∧ d.sup.al = .away ∧
      d.sup.running = false ∧ d.now = e.now := by
  subst he
  have hcmd := Dev.command_only (⟨hrun, hopen, .inr (by decide)⟩ : (s.dev.at t).reaches path Ix.modReset) 0 1 id (Dev.changesOnly_refl [] [] _)
  obtain ⟨-, htrim⟩ := ((s.dev.at t).command path Ix.modReset 0 1 id).moduleReset_hw
  have hwritten := ((s.dev.at t).command path Ix.modReset 0 1 id).moduleReset.resetWrittenNow_only
  refine completesLost_of_eq (exec_modReset t path s) (x := ((s.dev.at t).command path Ix.modReset 0 1 id).moduleReset.resetWrittenNow)
    (if_pos (by rw [hrun, hopen]; rfl)) ?_
  rw [hcmd.hw (by decide)] at htrim
  rw [Dev.resetWrittenNow_hw, hwritten.sup (by decide), hwritten.now (by decide), Dev.moduleReset_sup, Dev.moduleReset_now, hcmd.now (by decide)]
  dsimp only
  exact ⟨Dev.resetWrittenNow_down (Dev.moduleReset_down _), rfl, htrim, rfl, rfl, rfl⟩

end

/-! ### A thermal trip (R61) -/

/-- A trip is held in the always-on domain, and is no loss of power. -/
def Dev.tripHeld (d : Dev) : Dev := { d with hw := { d.hw with trip := true, lossFlag := false } }

theorem Dev.tripHeld_only (d : Dev) : d.changesOnly [.hw] [] d.tripHeld := Dev.hw_only ..
theorem Dev.tripHeld_down {d : Dev} (h : d.coreDown) : d.tripHeld.coreDown := h.withHw rfl rfl rfl
theorem Dev.tripHeld_hw (d : Dev) : d.tripHeld.hw = { d.hw with trip := true, lossFlag := false } := rfl

theorem thermalTrip_stopsCore {t : Nat} {temp : Int} {s : State} {e : Dev} (he : e = s.dev.at t) (hhot : e.rd Ix.hwTempTrip 0 0 ≤ temp)
    (hpg : e.hw.pwrGood = true) :
    CompletesLost (.thermalTrip t temp) s fun d => d.coreDown ∧ d.hw.trip = true ∧ d.hw.lossFlag = false ∧ d.now = e.now := by
  subst he
  have hread : ((s.dev.at t).wr Ix.hwTemp 2 0 temp).rd Ix.hwTempTrip 0 0 = (s.dev.at t).rd Ix.hwTempTrip 0 0 := (Dev.wr_only ..).rd _ _ (by decide)
  have hfault := Dev.fault_only ((s.dev.at t).wr Ix.hwTemp 2 0 temp).coreOff 5 Code.thermalTrip 0xC 0xFF 0 0
  refine completesLost_of_eq (exec_thermalTrip t temp s)
    (x := (((s.dev.at t).wr Ix.hwTemp 2 0 temp).coreOff.fault 5 Code.thermalTrip 0xC 0xFF 0 0).tripHeld)
    (if_pos (by simp only [hread, hhot, decide_true, Dev.wr_hw, hpg, Bool.and_self])) ?_
  rw [Dev.tripHeld_hw, (Dev.tripHeld_only _).now (by decide), hfault.now (by decide), Dev.coreOff_now]
  exact ⟨Dev.tripHeld_down ((Dev.coreOff_down _).of_only hfault), rfl, rfl, rfl⟩

/-- Settles O8: each cause by what its shutdown leaves, a power loss, a restart of the always-on domain, or a reset. -/
theorem lossOfTheCoreRails : Obligations.LossOfTheCoreRails := by
  unfold Obligations.LossOfTheCoreRails
  exact ⟨fun t s e => auxLoss_stops, fun t s e => v12Lost_stopsCore (exec_v12Brownout t s), fun t s e => v12Lost_coreOff (exec_v12Brownout t s),
    fun t s e => v12Lost_stopsCore (exec_v12Overvoltage t s), fun t rail mv ca s e he h1 h8 => railOutOfRegulation_stopsCore h1 h8 he,
    fun t rail mv ca s _ _ h1 h8 => railOutOfRegulation_inWindow h1 h8, fun t samples s e he => resetNAssert_resets he,
    fun t samples s e he => resetNAssert_short he, fun t path s e he => modReset_resets he, fun t temp s e he => thermalTrip_stopsCore he⟩

end Sys2Proof.Machine
end

section
/-! PROOFS. The firmware image that boots, the Supervisor's start, a trial image that fails (R55, R59, R73 to R75). -/

namespace Sys2Proof.Machine

theorem exec_bootImageSelect (t : Nat) (okA okB : Bool) (s : State) : exec (.bootImageSelect t okA okB) s = execBootImageSelect t okA okB s := rfl
theorem exec_supervisorStart (t : Nat) (s : State) : exec (.supervisorStart t) s = execSupervisorStart t s := rfl
theorem exec_trialWatchdogExpiry (t : Nat) (ok : Bool) (s : State) : exec (.trialWatchdogExpiry t ok) s = execTrialWatchdogExpiry t ok s := rfl

/-! ### An image is booted -/

/-- Whether an image passes the boot ROM's check depends on its state alone. -/
theorem Dev.changesOnly.imageOk {pl : List Part} {ps : List Nat} {d e : Dev} (h : d.changesOnly pl ps e) (hi : Ix.modImageState ∉ ps)
    (okA okB : Bool) (n : Nat) : e.imageOk okA okB n = d.imageOk okA okB n := by
  simp only [Dev.imageOk, Dev.nI, h.rd _ _ hi]

theorem Dev.imageOk_none (d : Dev) (n : Nat) : d.imageOk false false n = false := by simp [Dev.imageOk]

theorem Dev.imageBoot_only (d : Dev) (n : Nat) : d.changesOnly [.boot] [Ix.modBootImage] (d.imageBoot n) :=
  Dev.changesOnly_trans (pl := []) (Dev.wr_only ..) (Dev.boot_only ..)

/-- `mod.boot_image` is a byte. -/
theorem Dev.rd_bootImage (d : Dev) {n : Nat} (hn : n < 256) : (d.imageBoot n).rd Ix.modBootImage 0 0 = n :=
  Dev.rd_wr_fits d (n := 0) 0 (by decide) (by decide) (by simpa using hn)

/-- A trial image runs under the watchdog from now. -/
theorem Dev.imageBoot_boot (d : Dev) (n : Nat) :
    (d.imageBoot n).boot = { d.boot with trialSince := if d.nI Ix.modImageState (n - 1) = 1 then some d.now else none } := by
  have h : (d.w0 Ix.modBootImage n).nI Ix.modImageState (n - 1) = d.nI Ix.modImageState (n - 1) := by
    rw [Dev.nI, Dev.w0, (Dev.wr_only ..).rd _ _ (by decide), Dev.nI]
  rw [← h]
  rfl

theorem Dev.imageFallback_only (d : Dev) (n : Nat) :
    d.changesOnly (.boot :: codeParts) (Ix.modFallbackCount :: Ix.modBootImage :: codePlaces) (d.imageFallback n) :=
  Dev.changesOnly_mono (Dev.changesOnly_trans (Dev.changesOnly_trans (Dev.inc_only d Ix.modFallbackCount 0 0 1) (Dev.raise_only _ 4 Code.imageFallback))
    (Dev.imageBoot_only _ n)) (by decide) (by decide)

/-- The other image boots, and a code says so. -/
theorem Dev.rd_imageFallback {d : Dev} {n : Nat} (hn : n < 256) (hroom : d.sup.emergencies.length < 32) :
    (d.imageFallback n).rd Ix.modBootImage 0 0 = n ∧ (d.imageFallback n).rd Ix.fltLastError 0 0 = Code.imageFallback := by
  refine ⟨Dev.rd_bootImage _ hn, ?_⟩
  rw [Dev.imageFallback, (Dev.imageBoot_only ..).rd _ _ (by decide)]
  exact (Dev.raise_places _ 4 Code.imageFallback (by simpa using hroom) (by decide) (by decide)).1

/-! ### The boot ROM's choice (R73) -/

/-- What takes effect at a restart is taken, and the boot is counted. -/
def Dev.bootTaken (d : Dev) : Dev :=
  { d with boot := { d.boot with
    memtest := d.n0 Ix.modMemtest, select := d.n0 Ix.modBootSelect, autoJoin := d.n0 Ix.cfAutoJoin } }.inc0 Ix.modBootCount

theorem Dev.bootTaken_only (d : Dev) : d.changesOnly [.boot, .ctr] [Ix.modBootCount] d.bootTaken :=
  Dev.changesOnly_trans (pl := [.boot]) (ps := []) (Dev.boot_only ..) (Dev.inc_only ..)

theorem Dev.bootTaken_boot (d : Dev) :
    d.bootTaken.boot = { d.boot with memtest := d.n0 Ix.modMemtest, select := d.n0 Ix.modBootSelect, autoJoin := d.n0 Ix.cfAutoJoin } := by
  simp [Dev.bootTaken]

/-- The image that boots, of the one picked and the other; neither: recovery. -/
def Dev.bootChoice (d : Dev) (okA okB : Bool) : Dev :=
  if d.imageOk okA okB (d.imagePick okA okB) then d.imageBoot (d.imagePick okA okB)
  else if d.imageOk okA okB (if d.imagePick okA okB = 1 then 2 else 1) then d.imageFallback (if d.imagePick okA okB = 1 then 2 else 1)
  else d.recovery

/-- The image that `mod.boot_select` names is picked. -/
theorem Dev.imagePick_named {d : Dev} {n : Nat} (hs : d.boot.select = n) (hn : n = 1 ∨ n = 2) (okA okB : Bool) : d.imagePick okA okB = n := by
  rcases hn with rfl | rfl <;> simp [Dev.imagePick, hs]

theorem otherImage {n : Nat} (hn : n = 1 ∨ n = 2) : (if n = 1 then 2 else 1) = 3 - n := by
  rcases hn with rfl | rfl <;> rfl

/-- The boot ROM runs: AUX is in, no reset is under way, no image is booted yet, and the engine is not in recovery. -/
structure Dev.Boots (d : Dev) : Prop where
  aux : d.hw.auxIn = true
  noReset : d.hw.resetLow = false
  noWrittenReset : d.hw.resetWritten = none
  notRunning : d.sup.running = false
  notRestarting : d.sup.restarting = false
  noImage : d.n0 Ix.modBootImage = 0
  notRecovery : d.service ≠ 5

theorem bootImageSelect_eq {t : Nat} {okA okB : Bool} {s : State} (h : (s.dev.at t).Boots) :
    exec (.bootImageSelect t okA okB) s = run t s fun d => d.bootTaken.bootChoice okA okB := by
  obtain ⟨haux, hlow, hw, hrun, hres, himg, hserv⟩ := h
  rw [exec_bootImageSelect, execBootImageSelect, run, run, if_neg (by simp [-Dev.n0_eq, haux, hlow, hw, hrun, hres, himg, hserv])]
  rfl

section
variable {t n : Nat} {okA okB : Bool} {s : State} {e : Dev} (he : e = s.dev.at t) (hb : e.Boots) (hn : n = 1 ∨ n = 2)
  (hsel : e.n0 Ix.modBootSelect = n)
include he hb hn hsel

theorem bootImageSelect_boots (hok : e.imageOk okA okB n = true) :
    Completes (.bootImageSelect t okA okB) t s [.boot, .ctr] [Ix.modBootCount, Ix.modBootImage] fun d =>
      d.rd Ix.modBootImage 0 0 = n ∧ d.boot.trialSince = (if e.nI Ix.modImageState (n - 1) = 1 then some e.now else none) ∧
      d.boot.select = n ∧ d.boot.memtest = e.n0 Ix.modMemtest ∧ d.boot.autoJoin = e.n0 Ix.cfAutoJoin := by
  subst he
  have htaken := (s.dev.at t).bootTaken_only
  have hpick := Dev.imagePick_named (d := (s.dev.at t).bootTaken) (by rw [Dev.bootTaken_boot]; exact hsel) hn okA okB
  have hstate : (s.dev.at t).bootTaken.nI Ix.modImageState (n - 1) = (s.dev.at t).nI Ix.modImageState (n - 1) := by
    rw [Dev.nI, htaken.rd _ _ (by decide), Dev.nI]
  refine completes_of_eq (bootImageSelect_eq hb) (x := (s.dev.at t).bootTaken.imageBoot n)
    (by rw [Dev.bootChoice, hpick, if_pos (by rw [htaken.imageOk (by decide), hok])])
    (Dev.changesOnly_mono (Dev.changesOnly_trans htaken (Dev.imageBoot_only ..)) (by decide) (by decide)) ⟨Dev.rd_bootImage _ (by omega), ?_⟩
  rw [Dev.imageBoot_boot, Dev.bootTaken_boot, hstate, htaken.now (by decide)]
  exact ⟨rfl, hsel, rfl, rfl⟩

theorem bootImageSelect_fallsBack (hbad : e.imageOk okA okB n = false) (hok : e.imageOk okA okB (3 - n) = true)
    (hroom : e.sup.emergencies.length < 32) :
    Completes (.bootImageSelect t okA okB) t s (.boot :: codeParts) (Ix.modBootCount :: Ix.modFallbackCount :: Ix.modBootImage :: codePlaces) fun d =>
      d.rd Ix.modBootImage 0 0 = (3 - n : Nat) ∧ d.rd Ix.fltLastError 0 0 = Code.imageFallback := by
  subst he
  have htaken := (s.dev.at t).bootTaken_only
  have hpick := Dev.imagePick_named (d := (s.dev.at t).bootTaken) (by rw [Dev.bootTaken_boot]; exact hsel) hn okA okB
  refine completes_of_eq (bootImageSelect_eq hb) (x := (s.dev.at t).bootTaken.imageFallback (3 - n)) ?_
    (Dev.changesOnly_mono (Dev.changesOnly_trans htaken (Dev.imageFallback_only ..)) (by decide) (by decide))
    (Dev.rd_imageFallback (by omega) (by rw [htaken.sup (by decide)]; exact hroom))
  rw [Dev.bootChoice, hpick, otherImage hn, if_neg (by rw [htaken.imageOk (by decide), hbad]; decide),
    if_pos (by rw [htaken.imageOk (by decide), hok])]

end

/-! ### Recovery (R75) -/

/-- Recovery of a core that is off: arrays released, regulators off, no image, service 5. -/
def Dev.recovers (d : Dev) : Dev :=
  let d := d.releaseArrays
  let d := { d with hw := { d.hw with regulators := false }, boot := { d.boot with trialSince := none }, sup := { d.sup with running := false } }
  ((d.w0 Ix.modBootImage 0).w0 Ix.modService 5).w0 Ix.modBringup 0

theorem Dev.recovers_only (d : Dev) :
    d.changesOnly [.hw, .boot, .sup] [Ix.hwBypassState, Ix.modBootImage, Ix.modService, Ix.modBringup] d.recovers := by
  have hparts : ∀ (a : Dev) x y z, a.changesOnly [.hw, .boot, .sup] [] { a with hw := x, boot := y, sup := z } := fun a x y z =>
    Dev.changesOnly_trans (Dev.changesOnly_trans (Dev.hw_only a x) (Dev.boot_only _ y)) (Dev.sup_only _ z)
  exact Dev.changesOnly_mono (Dev.changesOnly_trans (Dev.changesOnly_trans (Dev.changesOnly_trans (Dev.changesOnly_trans d.releaseArrays_only (hparts ..))
    (Dev.wr_only _ Ix.modBootImage 0 0 0)) (Dev.wr_only _ Ix.modService 0 0 5)) (Dev.wr_only _ Ix.modBringup 0 0 0)) (by decide) (by decide)

theorem Dev.recovery_of_coreOff {d : Dev} (h : d.hw.pwrGood = false) : d.recovery = d.recovers.raise 4 Code.noValidImage := by
  simp only [Dev.recovery, h, Bool.false_eq_true, if_false, Dev.recovers]

theorem Dev.recovers_hw (d : Dev) :
    d.recovers.hw.regulators = false ∧ d.recovers.hw.driven.get false 0 = false ∧ d.recovers.hw.driven.get false 1 = false := by
  have h : d.recovers.hw = { d.releaseArrays.hw with regulators := false } := rfl
  rw [h, Dev.releaseArrays_hw]
  exact ⟨rfl, driven_released _⟩

theorem Dev.rd_recovers (d : Dev) : d.recovers.rd Ix.modService 0 0 = 5 ∧ d.recovers.rd Ix.modBootImage 0 0 = 0 := by
  constructor
  · rw [Dev.recovers, Dev.w0, (Dev.wr_only ..).rd _ _ (by decide)]
    exact Dev.rd_wr_fits _ (v := 5) (n := 0) 0 (by decide) (by decide) (by decide)
  · rw [Dev.recovers, Dev.w0, (Dev.wr_only ..).rd _ _ (by decide), Dev.w0, (Dev.wr_only ..).rd _ _ (by decide), Dev.w0, Dev.rd_wr_same]
    exact normTy_zero _

theorem Dev.recovers_emergencies (d : Dev) : d.recovers.sup.emergencies = d.sup.emergencies := by
  have h : d.recovers.sup = { d.releaseArrays.sup with running := false } := rfl
  rw [h, (Dev.releaseArrays_only d).sup (by decide)]

theorem bootImageSelect_recovers {t : Nat} {s : State} {e : Dev} (he : e = s.dev.at t) (hb : e.Boots) (hpg : e.hw.pwrGood = false)
    (hroom : e.sup.emergencies.length < 32) :
    Completes (.bootImageSelect t false false) t s (.boot :: .hw :: codeParts)
      (Ix.modBootCount :: Ix.modBootImage :: Ix.modService :: Ix.modBringup :: Ix.hwBypassState :: codePlaces) fun d =>
      d.rd Ix.modService 0 0 = 5 ∧ d.rd Ix.modBootImage 0 0 = 0 ∧ d.hw.regulators = false ∧ d.hw.driven.get false 0 = false ∧
      d.hw.driven.get false 1 = false ∧ d.rd Ix.fltLastError 0 0 = Code.noValidImage := by
  subst he
  have htaken := (s.dev.at t).bootTaken_only
  have hraise := Dev.raise_only (s.dev.at t).bootTaken.recovers 4 Code.noValidImage
  obtain ⟨hserv, himg⟩ := (s.dev.at t).bootTaken.rd_recovers
  obtain ⟨hreg, hd0, hd1⟩ := (s.dev.at t).bootTaken.recovers_hw
  refine completes_of_eq (bootImageSelect_eq hb) (x := (s.dev.at t).bootTaken.recovers.raise 4 Code.noValidImage) ?_
    (Dev.changesOnly_mono (Dev.changesOnly_trans (Dev.changesOnly_trans htaken (Dev.recovers_only _)) hraise) (by decide) (by decide)) ?_
  · rw [Dev.bootChoice, if_neg (by rw [Dev.imageOk_none]; decide), if_neg (by rw [Dev.imageOk_none]; decide),
      Dev.recovery_of_coreOff (by rw [htaken.hw (by decide)]; exact hpg)]
  · rw [hraise.rd _ _ (by decide), hraise.rd _ _ (by decide), Dev.raise_hw]
    exact ⟨hserv, himg, hreg, hd0, hd1, (Dev.raise_places _ 4 Code.noValidImage (by rw [Dev.recovers_emergencies, htaken.sup (by decide)]; exact hroom)
      (by decide) (by decide)).1⟩

/-! ### The Supervisor's start (R55, R59, R70) -/

/-- The trim outputs below a number drive what their entries hold. -/
def Dev.trimsDriven (d : Dev) (n : Nat) : Dev := (List.range n).foldl (fun (a : Dev) k => a.driveTrim k (a.nI Ix.calTrimCode k)) d

theorem Dev.trimsDriven_only (d : Dev) (n : Nat) : d.changesOnly [.hw] [] (d.trimsDriven n) := Dev.changesOnly_foldl _ (fun a _ => Dev.hw_only a _) _ d

theorem Dev.trimsDriven_succ (d : Dev) (n : Nat) :
    d.trimsDriven (n + 1) = (d.trimsDriven n).driveTrim n ((d.trimsDriven n).nI Ix.calTrimCode n) := by
  rw [Dev.trimsDriven, List.range_succ, List.foldl_append]
  rfl

theorem Dev.trimsDriven_hw (d : Dev) (n : Nat) : (d.trimsDriven n).hw = { d.hw with trimOut := (d.trimsDriven n).hw.trimOut } := by
  induction n with
  | zero => rfl
  | succ n ih =>
    rw [Dev.trimsDriven_succ, Dev.driveTrim, ih]

theorem Dev.trimsDriven_get (d : Dev) (n : Nat) : ∀ k < n, (d.trimsDriven n).hw.trimOut.get 0 k = (d.rd Ix.calTrimCode (k + 1) 0).toNat := by
  induction n with
  | zero => intro k hk; omega
  | succ n ih =>
    intro k hk
    have hout : (d.trimsDriven (n + 1)).hw.trimOut = (d.trimsDriven n).hw.trimOut.set 0 n (d.rd Ix.calTrimCode (n + 1) 0).toNat := by
      rw [Dev.trimsDriven_succ, Dev.nI, (d.trimsDriven_only n).rd _ _ (by decide)]
      rfl
    rw [hout]
    rcases Nat.lt_succ_iff_lt_or_eq.1 hk with h | rfl
    · rw [Tab.get_set_other _ _ _ _ _ _ (by omega), ih k h]
    · rw [Tab.get_set_same]

/-- The certificate and the lags of the stored calibration. -/
def Dev.calTaken (d : Dev) : Dev :=
  { d with long := d.long.set [] (ekey Ix.calRefCert 0 0) d.cal.saved.cert, cal := { d.cal with lags := d.cal.saved.lags } }

theorem Dev.calTaken_only (d : Dev) : d.changesOnly [.long, .cal] [] d.calTaken :=
  ⟨fun p hp hd => by cases p <;> simp_all [Part.agrees, Dev.calTaken], fun _ _ _ _ => rfl⟩

/-- With no stored entries the stored calibration is its certificate, its lags and what the trims drive. -/
theorem Dev.calLoad_of_nil {d : Dev} (h : d.cal.saved.writes = []) : d.calLoad = d.calTaken.trimsDriven 16 := by
  rw [Dev.calLoad, h]
  rfl

/-- The Supervisor of a module that runs from an image: the dictionary is served, the slave has left INIT. -/
def Dev.supRuns (d : Dev) : Dev := { d with sup := { d.sup with running := true, al := if d.sup.al = AlState.init then .preop else d.sup.al } }

theorem Dev.supRuns_only (d : Dev) : d.changesOnly [.sup] [] d.supRuns := Dev.sup_only ..

/-- That, the stored trims applied, bits 0 and 1 of `mod.bringup`, and every island's microcode. -/
def Dev.supServes (d : Dev) : Dev :=
  let d := d.supRuns.calLoad.w0 Ix.modBringup (setBitTo (setBitTo (d.supRuns.n0 Ix.modBringup) 0 true) 1 true)
  d.wrAll Ix.fltMcodeVer (d.boot.images.get ({} : Image) (d.n0 Ix.modBootImage)).version 12

/-- The reports of the start. -/
theorem Dev.supServes_reports (d : Dev) : d.supRuns.calLoad.changesOnly [] [Ix.modBringup, Ix.fltMcodeVer] d.supServes :=
  Dev.changesOnly_trans (pl := []) (ps := [Ix.modBringup]) (Dev.wr_only ..) (Dev.wrAll_only ..)

section
variable {d : Dev} (h : d.cal.saved.writes = [])
include h

theorem Dev.supRuns_calLoad : d.supRuns.calLoad = d.supRuns.calTaken.trimsDriven 16 := Dev.calLoad_of_nil h

theorem Dev.calLoad_only_of_nil : d.supRuns.changesOnly [.long, .cal, .hw] [] d.supRuns.calLoad := by
  rw [Dev.supRuns_calLoad h]
  exact Dev.changesOnly_trans (Dev.calTaken_only _) (Dev.trimsDriven_only _ 16)

theorem Dev.supServes_only : d.changesOnly [.sup, .long, .cal, .hw] [Ix.modBringup, Ix.fltMcodeVer] d.supServes :=
  Dev.changesOnly_mono (Dev.changesOnly_trans (Dev.changesOnly_trans (Dev.supRuns_only d) (Dev.calLoad_only_of_nil h)) (Dev.supServes_reports d)) (by decide)
    (by decide)

theorem Dev.supServes_sup : d.supServes.sup = d.supRuns.sup := by
  rw [d.supServes_reports.sup (by decide), (Dev.calLoad_only_of_nil h).sup (by decide)]

theorem Dev.supServes_lags : d.supServes.cal.lags = d.cal.saved.lags := by
  rw [← d.supServes_reports.1 .cal (by decide) (by decide), Dev.supRuns_calLoad h, ← (Dev.trimsDriven_only _ 16).1 .cal (by decide) (by decide)]
  rfl

theorem Dev.supServes_hw : d.supServes.hw = { d.hw with trimOut := d.supServes.hw.trimOut } := by
  rw [d.supServes_reports.hw (by decide), Dev.supRuns_calLoad h, Dev.trimsDriven_hw, (Dev.calTaken_only _).hw (by decide), (Dev.supRuns_only d).hw (by decide)]

/-- Each trim output drives its stored code (R59). -/
theorem Dev.supServes_trims : ∀ k < 16, d.supServes.hw.trimOut.get 0 k = (d.rd Ix.calTrimCode (k + 1) 0).toNat := by
  intro k hk
  rw [d.supServes_reports.hw (by decide), Dev.supRuns_calLoad h, Dev.trimsDriven_get _ 16 k hk, (Dev.calTaken_only _).rd _ _ (by decide),
    (Dev.supRuns_only d).rd _ _ (by decide)]

end

/-- The Supervisor may start: AUX is in, no reset, an image is booted, and the engine is not in recovery. -/
structure Dev.SupMayStart (d : Dev) : Prop where
  aux : d.hw.auxIn = true
  noReset : d.hw.resetLow = false
  notRunning : d.sup.running = false
  notRestarting : d.sup.restarting = false
  image : d.n0 Ix.modBootImage ≠ 0
  notRecovery : d.service ≠ 5

/-- A loss of power that was found unlogged is counted and reported (R55). -/
def Dev.lossReported (d : Dev) : Dev := { (d.inc0 Ix.hwUnloggedLoss) with hw := { d.hw with lossFound := false } }.raise 4 Code.unloggedPowerLoss

theorem Dev.SupMayStart.guard {d : Dev} (h : d.SupMayStart) :
    ¬ (!d.hw.auxIn || d.hw.resetLow || d.sup.running || d.sup.restarting || d.n0 Ix.modBootImage = 0 || d.service = 5) = true := by
  obtain ⟨haux, hlow, hrun, hres, himg, hserv⟩ := h
  simp [-Dev.n0_eq, haux, hlow, hrun, hres, himg, hserv]

theorem Dev.lossReported_only (d : Dev) : d.changesOnly (.hw :: codeParts) (Ix.hwUnloggedLoss :: codePlaces) d.lossReported :=
  Dev.changesOnly_mono (Dev.changesOnly_trans (Dev.changesOnly_trans (Dev.inc_only d Ix.hwUnloggedLoss 0 0 1) (Dev.hw_only ..)) (Dev.raise_only ..))
    (by decide) (by decide)

theorem Dev.rd_lossReported (d : Dev) : d.counted d.lossReported Ix.hwUnloggedLoss 0 0 1 := by
  rw [Dev.counted, Dev.lossReported, (Dev.raise_only ..).rd _ _ (by decide), Dev.rd_mk, Dev.inc0, Dev.rd_inc, if_pos ⟨rfl, rfl, rfl⟩]

theorem Dev.lossReported_running (d : Dev) : d.lossReported.sup.running = d.sup.running := by simp [Dev.lossReported]
theorem Dev.lossReported_found (d : Dev) : d.lossReported.hw.lossFound = false := by simp [Dev.lossReported]

section
variable {t : Nat} {s : State} {e : Dev} (he : e = s.dev.at t) (hst : e.SupMayStart) (hsaved : e.cal.saved.writes = [])
include he hst hsaved

theorem supervisorStart_serves (hloss : e.hw.lossFound = false) :
    Completes (.supervisorStart t) t s [.sup, .long, .cal, .hw] [Ix.modBringup, Ix.fltMcodeVer] fun d =>
      d.sup.running = true ∧ d.sup.al = (if e.sup.al = .init then .preop else e.sup.al) ∧ d.cal.lags = e.cal.saved.lags ∧
      ∀ k < 16, d.hw.trimOut.get 0 k = (e.rd Ix.calTrimCode (k + 1) 0).toNat := by
  subst he
  have hfound : ¬ (s.dev.at t).supServes.hw.lossFound = true := by rw [Dev.supServes_hw hsaved]; simp [hloss]
  refine completes_of_eq (exec_supervisorStart t s) (x := (s.dev.at t).supServes)
    ((if_neg hst.guard).trans (if_neg hfound)) (Dev.supServes_only hsaved) ?_
  rw [Dev.supServes_sup hsaved]
  exact ⟨rfl, rfl, Dev.supServes_lags hsaved, Dev.supServes_trims hsaved⟩

theorem supervisorStart_reportsLoss (hloss : e.hw.lossFound = true) :
    Completes (.supervisorStart t) t s (.long :: .cal :: .hw :: codeParts) (Ix.modBringup :: Ix.fltMcodeVer :: Ix.hwUnloggedLoss :: codePlaces) fun d =>
      d.sup.running = true ∧ d.hw.lossFound = false ∧ e.counted d Ix.hwUnloggedLoss 0 0 1 := by
  subst he
  have hserves := Dev.supServes_only hsaved
  have hfound : (s.dev.at t).supServes.hw.lossFound = true := by rw [Dev.supServes_hw hsaved]; exact hloss
  refine completes_of_eq (exec_supervisorStart t s) (x := (s.dev.at t).supServes.lossReported) ((if_neg hst.guard).trans (if_pos hfound))
    (Dev.changesOnly_mono (Dev.changesOnly_trans hserves (Dev.lossReported_only _)) (by decide) (by decide)) ⟨?_, ?_, ?_⟩
  · rw [Dev.lossReported_running, Dev.supServes_sup hsaved]
    rfl
  · exact Dev.lossReported_found _
  · have hcount := (s.dev.at t).supServes.rd_lossReported
    rwa [Dev.counted, hserves.rd _ _ (by decide)] at hcount

end

/-! ### A trial image that the watchdog fails (R74) -/

theorem typeOf_imageState {n : Nat} (hn : n = 1 ∨ n = 2) : typeOf Ix.modImageState n = 5 := by
  rcases hn with rfl | rfl <;> decide

/-- An image is marked failed, the boot is counted, and the Supervisor restarts. -/
def Dev.imageFails (d : Dev) (n : Nat) : Dev :=
  let d := (d.wI Ix.modImageState (n - 1) 3).inc0 Ix.modBootCount
  { d with sup := { d.sup with restarting := false } }

theorem Dev.imageFails_only (d : Dev) (n : Nat) : d.changesOnly [.sup, .ctr] [Ix.modImageState, Ix.modBootCount] (d.imageFails n) :=
  Dev.changesOnly_mono (Dev.changesOnly_trans (Dev.changesOnly_trans (Dev.wr_only ..) (Dev.inc_only ..)) (Dev.sup_only ..)) (by decide) (by decide)

theorem Dev.imageFails_emergencies (d : Dev) (n : Nat) : (d.imageFails n).sup.emergencies = d.sup.emergencies := by
  simp [Dev.imageFails]

/-- The state of an image after one failed: failed, or, of the other, as before. -/
theorem Dev.rd_imageFails (d : Dev) {n : Nat} (hn : n = 1 ∨ n = 2) (sub : Nat) :
    (d.imageFails n).rd Ix.modImageState sub 0 = if n = sub then 3 else d.rd Ix.modImageState sub 0 := by
  have h3 : normTy 5 (3 : Nat) = 3 := by decide
  rw [Dev.imageFails, Dev.rd_mk, Dev.inc0, (Dev.inc_only ..).rd _ _ (by decide), Dev.wI, Nat.sub_add_cancel (by omega), Dev.rd_wr, typeOf_imageState hn, h3]
  simp

theorem Dev.imageOk_imageFails (d : Dev) {n : Nat} (hn : n = 1 ∨ n = 2) :
    (d.imageFails n).imageOk true true (3 - n) = d.imageOk true true (3 - n) := by
  have hrd : (d.imageFails n).rd Ix.modImageState (3 - n - 1 + 1) 0 = d.rd Ix.modImageState (3 - n - 1 + 1) 0 := by
    rw [Dev.rd_imageFails d hn, if_neg (by omega)]
  simp only [Dev.imageOk, Dev.nI, hrd]

theorem trialWatchdogExpiry_fails {t w n : Nat} {s : State} {e : Dev} (he : e = s.dev.at t) (hw : e.boot.trialSince = some w) (hlate : w + sec ≤ e.now)
    (hup : e.n0 Ix.fltUpdateState ≠ 2) (hserv : e.service = 0) (hrun : e.sup.running = false) (himg : e.n0 Ix.modBootImage = n) (hn : n = 1 ∨ n = 2)
    (hok : e.imageOk true true (3 - n) = true) (hroom : e.sup.emergencies.length < 32) :
    Completes (.trialWatchdogExpiry t true) t s (.boot :: codeParts)
      (Ix.modImageState :: Ix.modBootCount :: Ix.modFallbackCount :: Ix.modBootImage :: codePlaces) fun d =>
      d.rd Ix.modImageState n 0 = 3 ∧ d.rd Ix.modBootImage 0 0 = (3 - n : Nat) ∧ d.rd Ix.fltLastError 0 0 = Code.imageFallback := by
  subst he
  have hfb := ((s.dev.at t).imageFails n).imageFallback_only (3 - n)
  refine completes_of_eq (exec_trialWatchdogExpiry t true s) (x := ((s.dev.at t).imageFails n).imageFallback (3 - n)) ?_
    (Dev.changesOnly_mono (Dev.changesOnly_trans (Dev.imageFails_only ..) hfb) (by decide) (by decide))
    ⟨?_, Dev.rd_imageFallback (by omega) (by rw [Dev.imageFails_emergencies]; exact hroom)⟩
  · have hrun' : ¬ (((s.dev.at t).wI Ix.modImageState (n - 1) 3).inc0 Ix.modBootCount).sup.running = true := by simpa using hrun
    have hok' := (Dev.imageOk_imageFails (s.dev.at t) hn).trans hok
    simp only [hw, hserv, himg, otherImage hn, if_neg (Nat.not_lt.2 hlate), if_neg hup, bne_self_eq_false, Bool.false_eq_true, if_false, if_neg hrun']
    exact if_pos hok'
  · rw [hfb.rd _ _ (by decide), Dev.rd_imageFails _ hn, if_pos rfl]

/-- Settles O12: the boot ROM's three ends, the Supervisor's start with and without an unlogged loss, and the watchdog. -/
theorem firmwareImagesAtBoot : Obligations.FirmwareImagesAtBoot := by
  unfold Obligations.FirmwareImagesAtBoot
  exact ⟨fun t n okA okB s e he haux hlow hw hrun hres himg hserv hn hsel => bootImageSelect_boots he ⟨haux, hlow, hw, hrun, hres, himg, hserv⟩ hn hsel,
    fun t n okA okB s e he haux hlow hw hrun hres himg hserv hn hsel => bootImageSelect_fallsBack he ⟨haux, hlow, hw, hrun, hres, himg, hserv⟩ hn hsel,
    fun t s e he haux hlow hw hrun hres himg hserv => bootImageSelect_recovers he ⟨haux, hlow, hw, hrun, hres, himg, hserv⟩,
    fun t s e he haux hlow hrun hres himg hserv hloss hsaved => supervisorStart_serves he ⟨haux, hlow, hrun, hres, himg, hserv⟩ hsaved hloss,
    fun t s e he haux hlow hrun hres himg hserv hloss hsaved => supervisorStart_reportsLoss he ⟨haux, hlow, hrun, hres, himg, hserv⟩ hsaved hloss,
    fun t s e w n => trialWatchdogExpiry_fails⟩

end Sys2Proof.Machine
end

section
/-! PROOFS. The steps of bring-up that complete or time out, a dark ring port, and the commit of the changeover (R80, R81, R84). -/

namespace Sys2Proof.Machine

theorem exec_bringupStepDone (t step bad : Nat) (s : State) : exec (.bringupStepDone t step bad) s = execBringupStepDone t step bad s := rfl
theorem exec_bringupTimeout (t step bad : Nat) (s : State) : exec (.bringupTimeout t step bad) s = execBringupTimeout t step bad s := rfl
theorem exec_fabricPortDark (t port : Nat) (s : State) : exec (.fabricPortDark t port) s = execFabricPortDark t port s := rfl
theorem exec_modChangeover (t path : Nat) (s : State) : exec (.modChangeover t path) s = execModChangeover t path s := rfl

/-- Completion within a frame is completion within a wider one. -/
theorem completes_mono {i : Instr} {t : Nat} {s : State} {pl ql : List Part} {ps qs : List Nat} {post : Dev → Prop} (h : Completes i t s pl ps post)
    (hp : ∀ p ∈ pl, p ∈ ql) (hq : ∀ x ∈ ps, x ∈ qs) : Completes i t s ql qs post := by
  obtain ⟨d, he, hc, hpost⟩ := h
  exact ⟨d, he, Dev.changesOnly_mono hc hp hq, hpost⟩

/-! ### Bits of a number -/

theorem bitOf_eq_testBit (n i : Nat) : bitOf n i = n.testBit i := by
  rw [bitOf, Nat.testBit_eq_decide_div_mod_eq]
  rfl

theorem bitOf_zero (i : Nat) : bitOf 0 i = false := by simp [bitOf]

/-- A bit that is set joins those that were: where bit i of n is clear, n + 2^i carries into none above it. -/
theorem bitOf_setBitTo_true (n i j : Nat) : bitOf (setBitTo n i true) j = (bitOf n j || decide (i = j)) := by
  cases hbit : bitOf n i with
  | true =>
    rw [setBitTo, hbit]
    by_cases hj : i = j
    · subst hj; simp [hbit]
    · simp [hj]
  | false =>
    have hset : setBitTo n i true = 2 ^ i * (n / 2 ^ i + 1) + n % 2 ^ i := by
      have := Nat.div_add_mod n (2 ^ i)
      rw [setBitTo, hbit, Nat.mul_add, Nat.mul_one]
      simp
      omega
    have heven : n / 2 ^ i % 2 = 0 := by simpa [bitOf] using hbit
    have hlow := Nat.mod_lt n (Nat.two_pow_pos i)
    have hn := congrArg (Nat.testBit · j) (Nat.div_add_mod n (2 ^ i))
    simp only [Nat.testBit_two_pow_mul_add _ hlow] at hn
    rw [hset, bitOf_eq_testBit, bitOf_eq_testBit, Nat.testBit_two_pow_mul_add _ hlow, ← hn]
    rcases Nat.lt_trichotomy j i with h | rfl | h
    · simp [h, Nat.ne_of_gt h]
    · simp [Nat.testBit_zero]; omega
    · obtain ⟨m, hm⟩ : ∃ m, j - i = m + 1 := ⟨j - i - 1, by omega⟩
      have hhalf : (n / 2 ^ i + 1) / 2 = n / 2 ^ i / 2 := by omega
      simp [Nat.not_lt.2 (Nat.le_of_lt h), hm, Nat.testBit_add_one, hhalf, Nat.ne_of_lt h]

/-- A number all of whose low bits are set counts every one of them. -/
theorem countBits_of_all {w n : Nat} (h : ∀ i < w, bitOf n i = true) : countBits w n = w := by
  induction w generalizing n with
  | zero => rfl
  | succ w ih =>
    have h0 : n % 2 = 1 := by simpa [bitOf] using h 0 (by omega)
    have hrest : countBits w (n / 2) = w := ih fun i hi => by
      have := h (i + 1) (by omega)
      rwa [bitOf, pow_succ', ← Nat.div_div_eq_div_mul] at this
    rw [countBits, h0, hrest, Nat.add_comm]

/-- The bits of an unsigned entry are those written to it. -/
theorem Dev.bitOf_n0_w0 (d : Dev) {ix n : Nat} (hn : typeBytes (typeOf ix 0) = n + 1) (hs : typeSigned (typeOf ix 0) = false) (v : Nat) {j : Nat}
    (hj : j < 8 * (n + 1)) : bitOf ((d.w0 ix v).n0 ix) j = bitOf v j := by
  have hrd : (d.w0 ix v).n0 ix = v % 2 ^ (8 * (n + 1)) := by
    rw [Dev.n0, Dev.w0, Dev.rd_wr_same, normTy, if_neg (by omega), hs, hn, if_neg (by simp), toTwos]
    norm_cast
  rw [hrd, bitOf_eq_testBit, bitOf_eq_testBit, Nat.testBit_mod_two_pow]
  simp [hj]

/-! ### `mod.bringup` -/

theorem Dev.bringBit_only (d : Dev) (k : Nat) (b : Bool) : d.changesOnly [] [Ix.modBringup] (d.bringBit k b) := Dev.wr_only ..

/-- A bit of `mod.bringup` that is set joins those that were. -/
theorem Dev.bringBit_bit (d : Dev) (k : Nat) {j : Nat} (hj : j < 16) :
    bitOf ((d.bringBit k true).n0 Ix.modBringup) j = (bitOf (d.n0 Ix.modBringup) j || decide (k = j)) := by
  rw [Dev.bringBit, Dev.bitOf_n0_w0 (n := 1) _ (by decide) (by decide) _ (by omega), bitOf_setBitTo_true]

/-! ### Readiness (R81) -/

theorem Dev.readyCommit_only (d : Dev) : d.changesOnly [.cut] [Ix.modCutState] d.readyCommit :=
  Dev.changesOnly_ite (fun _ => Dev.engineCut_only ..) fun _ => Dev.changesOnly_refl ..

theorem Dev.readyCheck_only (d : Dev) : d.changesOnly [.cut] [Ix.modBringup, Ix.capState, Ix.modCutState] d.readyCheck :=
  Dev.changesOnly_ite (fun _ => Dev.changesOnly_mono (Dev.changesOnly_trans (Dev.changesOnly_trans (Dev.bringBit_only d 13 true)
    (Dev.wr_only _ Ix.capState 0 0 _)) (Dev.readyCommit_only _)) (by decide) (by decide)) fun _ => Dev.changesOnly_refl ..

/-- Readiness takes no bit of `mod.bringup` back. -/
theorem Dev.readyCheck_bit (d : Dev) {j : Nat} (hj : j < 16) (h : bitOf (d.n0 Ix.modBringup) j = true) :
    bitOf (d.readyCheck.n0 Ix.modBringup) j = true := by
  unfold Dev.readyCheck
  split
  · rw [Dev.n0, (Dev.readyCommit_only _).rd _ _ (by decide), Dev.w0, (Dev.wr_only ..).rd _ _ (by decide), ← Dev.n0, Dev.bringBit_bit _ _ hj, h]
    rfl
  · exact h

/-! ### The end of a step (R80, Table 3.3) -/

/-- A step is among those completed. -/
def Dev.stepDone (d : Dev) (step : Nat) : Dev := { d with boot := { d.boot with done := step :: d.boot.done } }

theorem Dev.stepDone_only (d : Dev) (step : Nat) : d.changesOnly [.boot] [] (d.stepDone step) := Dev.boot_only ..

/-- The steps whose end sets one bit, with their number for it, and reports nothing besides. -/
theorem Dev.stepEnd_bit (d : Dev) {step : Nat} (h : step = 4 ∨ step = 5 ∨ step = 6 ∨ step = 7) :
    d.stepEnd step false = ((d.stepDone step).bringBit step true).readyCheck := by
  rcases h with rfl | rfl | rfl | rfl <;> rfl

theorem Dev.stepEnd_monitors (d : Dev) : d.stepEnd 10 false = ((d.stepDone 10).monitorsCalibrated.bringBit 10 true).readyCheck := rfl

theorem Dev.bringBit_readyCheck_only (d : Dev) (k : Nat) :
    d.changesOnly [.cut] [Ix.modBringup, Ix.capState, Ix.modCutState] (d.bringBit k true).readyCheck :=
  Dev.changesOnly_mono (Dev.changesOnly_trans (Dev.bringBit_only d k true) (Dev.readyCheck_only _)) (by decide) (by decide)

theorem Dev.bringBit_readyCheck_bit (d : Dev) {k : Nat} (hk : k < 16) : bitOf ((d.bringBit k true).readyCheck.n0 Ix.modBringup) k = true :=
  Dev.readyCheck_bit _ hk (by rw [Dev.bringBit_bit _ _ hk]; simp)

theorem Dev.changesOnly.boot {pl : List Part} {ps : List Nat} {d e : Dev} (h : d.changesOnly pl ps e) (hp : Part.boot ∉ pl) : e.boot = d.boot :=
  (h.1 .boot hp (by decide)).symm

section
variable {t step : Nat} {s : State} {e x : Dev} {pl : List Part} {ps : List Nat} (he : e = s.dev.at t) (hr : e.stepRuns step = true)
include he hr

/-- A step whose end sets one bit completes with what its units' completion gives (`x`): it is among those completed, and its bit is set. -/
theorem bringupStepDone_completes {post : Dev → Prop} (hstep : step = 4 ∨ step = 5 ∨ step = 6 ∨ step = 7) (hx : e.stepFailures step 0 = x)
    (hf : e.changesOnly pl ps x) (hboot : Part.boot ∉ pl)
    (hp : ∀ d, x.changesOnly [.boot, .cut] [Ix.modBringup, Ix.capState, Ix.modCutState] d → d.boot = { e.boot with done := step :: e.boot.done } →
      bitOf (d.n0 Ix.modBringup) step = true → post d) :
    Completes (.bringupStepDone t step 0) t s (pl ++ [.boot, .cut]) (ps ++ [Ix.modBringup, Ix.capState, Ix.modCutState]) post := by
  subst he
  have hend : x.changesOnly [.boot, .cut] [Ix.modBringup, Ix.capState, Ix.modCutState] ((x.stepDone step).bringBit step true).readyCheck :=
    Dev.changesOnly_trans (pl := [.boot]) (ps := []) (x.stepDone_only step) (Dev.bringBit_readyCheck_only _ step)
  refine completes_of_eq (exec_bringupStepDone t step 0 s) (x := ((x.stepDone step).bringBit step true).readyCheck) ?_
    (Dev.changesOnly_trans hf hend) (hp _ hend ?_ (Dev.bringBit_readyCheck_bit _ (by omega)))
  · rw [if_pos hr, hx, Dev.stepEnd_bit _ hstep]
  · rw [(Dev.bringBit_readyCheck_only ..).boot (by decide), ← hf.boot hboot]
    rfl

end

/-- No unit is named by the mask 0. -/
theorem filter_bitOf_zero (n : Nat) : (List.range n).filter (fun k => bitOf 0 k) = [] := List.filter_eq_nil_iff.2 fun k _ => by simp [bitOf_zero]

/-- Root ports and ring ports all complete: nothing fails. -/
theorem Dev.stepFailures_ports (d : Dev) {step : Nat} (h : step = 5 ∨ step = 6) : d.stepFailures step 0 = d := by
  rcases h with rfl | rfl <;> simp only [Dev.stepFailures, filter_bitOf_zero] <;> rfl

theorem bringupStepDone_ports {t step : Nat} {s : State} {e : Dev} (he : e = s.dev.at t) (hr : e.stepRuns step = true) (hstep : step = 5 ∨ step = 6) :
    Completes (.bringupStepDone t step 0) t s [.boot, .cut] [Ix.modBringup, Ix.capState, Ix.modCutState] fun d =>
      d.boot = { e.boot with done := step :: e.boot.done } ∧ bitOf (d.n0 Ix.modBringup) step = true :=
  bringupStepDone_completes he hr (by omega) (Dev.stepFailures_ports e hstep) (Dev.changesOnly_refl [] [] e) (by decide)
    fun _ _ hboot hbit => ⟨hboot, hbit⟩

/-! ### Converter lanes (step 4, R102) -/

theorem Dev.itk_only (d : Dev) (x : ItkSt) : d.changesOnly [.itk] [] { d with itk := x } :=
  ⟨fun p hp hd => by cases p <;> simp_all [Part.agrees], fun _ _ _ _ => rfl⟩

theorem Dev.changesOnly.lane {pl : List Part} {ps : List Nat} {d e : Dev} (h : d.changesOnly pl ps e) (hp : Part.itk ∉ pl) (n : Nat) :
    e.lane n = d.lane n := by
  have hitk : d.itk = e.itk := h.1 .itk hp (by decide)
  rw [Dev.lane, Dev.lane, hitk]

theorem Dev.setStatus_only (d : Dev) (ph v : Nat) : d.changesOnly [.itk] [Ix.itkLaneStatus] (d.setStatus ph v) :=
  Dev.changesOnly_trans (pl := [.itk]) (ps := []) (Dev.itk_only ..)
    (Dev.changesOnly_foldl (pl := []) (fun (a : Dev) n => a.wI Ix.itkLaneStatus n v) (fun a _ => Dev.wr_only a ..) _ _)

/-- The entries that report a lane leave the lanes themselves. -/
theorem Dev.setStatus_itk (d : Dev) (ph v : Nat) : (d.setStatus ph v).itk = (d.setLane ph { d.lane ph with status := v }).itk :=
  foldl_keeps Dev.itk (fun (a : Dev) n => a.wI Ix.itkLaneStatus n v) (fun _ _ => rfl) _ _

theorem Dev.lane_setLane (d : Dev) (n m : Nat) (x : LaneSt) : (d.setLane n x).lane m = if n = m then x else d.lane m := by
  unfold Dev.lane Dev.setLane
  split
  · next h => rw [h, Tab.get_set_same]
  · next h => exact Tab.get_set_other _ _ _ _ _ _ h

theorem Dev.laneCalibrated_only (d : Dev) (n : Nat) : d.changesOnly [.itk] [Ix.itkLaneStatus] (d.laneCalibrated n true) := by
  have hbit : ∀ x, d.changesOnly [.itk] [Ix.itkLaneStatus] ((d.setLane n x).laneBit n 0 true) := fun x =>
    Dev.changesOnly_mono (Dev.changesOnly_trans (Dev.itk_only d _) (Dev.setStatus_only ..)) (by decide) (by decide)
  unfold Dev.laneCalibrated
  dsimp only
  split
  · exact hbit _
  · exact Dev.changesOnly_step (hbit _) (Dev.changesOnly_mono (Dev.itk_only ..) (by decide) (by decide))

/-- A lane that has passed its calibration is not marked failed; every other lane keeps its mark. -/
theorem Dev.laneCalibrated_calFailed (d : Dev) (n m : Nat) :
    ((d.laneCalibrated n true).lane m).calFailed = if n = m then false else (d.lane m).calFailed := by
  have hlanes : ∀ a : Dev, ∀ q x, (a.setLink q x).lane m = a.lane m := fun _ _ _ => rfl
  have hbit : ∀ a : Dev, ((a.laneBit n 0 true).lane m).calFailed = (a.lane m).calFailed := fun a => by
    rw [Dev.lane, Dev.laneBit, Dev.setStatus_itk, ← Dev.lane, Dev.lane_setLane]
    split
    · next h => rw [h]
    · rfl
  have hlane : (((d.setLane n { d.lane n with calFailed := false }).laneBit n 0 true).lane m).calFailed =
      if n = m then false else (d.lane m).calFailed := by
    rw [hbit, Dev.lane_setLane]
    split <;> rfl
  unfold Dev.laneCalibrated
  dsimp only
  split
  · exact hlane
  · exact (congrArg LaneSt.calFailed (hlanes _ _ _)).trans hlane

/-- Lanes below a number have passed their calibration. -/
def Dev.lanesCalibrated (d : Dev) (n : Nat) : Dev := (List.range n).foldl (fun (a : Dev) k => a.laneCalibrated k true) d

theorem Dev.lanesCalibrated_only (d : Dev) (n : Nat) : d.changesOnly [.itk] [Ix.itkLaneStatus] (d.lanesCalibrated n) :=
  Dev.changesOnly_foldl _ Dev.laneCalibrated_only _ d

theorem Dev.lanesCalibrated_calFailed (d : Dev) (n : Nat) : ∀ m < n, ((d.lanesCalibrated n).lane m).calFailed = false := by
  induction n with
  | zero => intro m hm; omega
  | succ n ih =>
    intro m hm
    have hlast : d.lanesCalibrated (n + 1) = (d.lanesCalibrated n).laneCalibrated n true := by
      rw [Dev.lanesCalibrated, List.range_succ, List.foldl_append]; rfl
    rw [hlast, Dev.laneCalibrated_calFailed]
    split
    · rfl
    · exact ih m (by omega)

theorem Dev.stepFailures_lanes (d : Dev) : d.stepFailures 4 0 = d.lanesCalibrated 64 := by
  simp [Dev.stepFailures, bitOf_zero, Dev.lanesCalibrated]

theorem bringupStepDone_lanes {t : Nat} {s : State} {e : Dev} (he : e = s.dev.at t) (hr : e.stepRuns 4 = true) :
    Completes (.bringupStepDone t 4 0) t s [.boot, .cut, .itk] [Ix.modBringup, Ix.capState, Ix.modCutState, Ix.itkLaneStatus] fun d =>
      d.boot = { e.boot with done := 4 :: e.boot.done } ∧ bitOf (d.n0 Ix.modBringup) 4 = true ∧ ∀ n < 64, (d.lane n).calFailed = false := by
  refine completes_mono (bringupStepDone_completes he hr (by decide) e.stepFailures_lanes (e.lanesCalibrated_only 64) (by decide)
    fun d hd hboot hbit => ⟨hboot, hbit, ?_⟩) (by decide) (by decide)
  intro n hn
  rw [hd.lane (by decide)]
  exact e.lanesCalibrated_calFailed 64 n hn

/-! ### The monitors (step 10, R462) -/

theorem Dev.monitorsCalibrated_only (d : Dev) : d.changesOnly [] [Ix.calObjState, Ix.calObjTemp, Ix.calObjTime] d.monitorsCalibrated :=
  Dev.changesOnly_mono (Dev.changesOnly_trans (Dev.changesOnly_trans (Dev.changesOnly_trans (Dev.wr_only d Ix.calObjState 0 0x0900 _)
    (Dev.wr_only _ Ix.calObjTemp 0 0x0900 _)) (Dev.wr_only _ Ix.calObjTime 1 0x0900 _)) (Dev.wr_only _ Ix.calObjTime 2 0x0900 _)) (by decide) (by decide)

/-- Object 0x0900 is valid. -/
theorem Dev.monitorsCalibrated_valid (d : Dev) : d.monitorsCalibrated.nW Ix.calObjState 0x0900 = 1 := by
  rw [Dev.nW, Dev.monitorsCalibrated, (Dev.wr_only ..).rd _ _ (by decide), (Dev.wr_only ..).rd _ _ (by decide), (Dev.wr_only ..).rd _ _ (by decide),
    Dev.wW, Dev.rd_wr_fits _ (n := 0) _ (by decide) (by decide) (by decide)]
  rfl

theorem bringupStepDone_monitors {t : Nat} {s : State} {e : Dev} (he : e = s.dev.at t) (hr : e.stepRuns 10 = true) :
    Completes (.bringupStepDone t 10 0) t s [.boot, .cut]
      [Ix.modBringup, Ix.capState, Ix.modCutState, Ix.calObjState, Ix.calObjTemp, Ix.calObjTime] fun d =>
      d.boot = { e.boot with done := 10 :: e.boot.done } ∧ bitOf (d.n0 Ix.modBringup) 10 = true ∧ d.nW Ix.calObjState 0x0900 = 1 := by
  subst he
  have hmon := ((s.dev.at t).stepDone 10).monitorsCalibrated_only
  have hend := ((s.dev.at t).stepDone 10).monitorsCalibrated.bringBit_readyCheck_only 10
  refine completes_of_eq (exec_bringupStepDone t 10 0 s) (x := (((s.dev.at t).stepDone 10).monitorsCalibrated.bringBit 10 true).readyCheck)
    (if_pos hr) (Dev.changesOnly_mono (Dev.changesOnly_trans (Dev.changesOnly_trans (Dev.stepDone_only _ 10) hmon) hend) (by decide) (by decide))
    ⟨?_, Dev.bringBit_readyCheck_bit _ (by decide), ?_⟩
  · rw [hend.boot (by decide), hmon.boot (by decide)]
    rfl
  · rw [Dev.nW, hend.rd _ _ (by decide), ← Dev.nW, Dev.monitorsCalibrated_valid]

/-! ### DRAM training (step 7, Table 3.5) -/

/-- A channel whose ranks all trained is in service, rank 4 its spare. -/
def Dev.channelTrained (d : Dev) (c : Nat) : Dev :=
  ((d.wI Ix.capChanState c 1).setRankState c 4 1).w0 Ix.capChannels (setBitTo (d.n0 Ix.capChannels) c true)

theorem Dev.channelTrained_only (d : Dev) (c : Nat) : d.changesOnly [] [Ix.capChanState, Ix.capRankState, Ix.capChannels] (d.channelTrained c) :=
  Dev.changesOnly_trans (pl := []) (ps := [Ix.capChanState, Ix.capRankState]) (Dev.changesOnly_trans (pl := []) (ps := [Ix.capChanState])
    (Dev.wr_only ..) (Dev.wr_only ..)) (Dev.wr_only ..)

theorem typeOf_chanState {c : Nat} (hc : c < 8) : typeOf Ix.capChanState (c + 1) = 5 := by
  have h : ∀ k < 8, typeOf Ix.capChanState (k + 1) = 5 := by decide
  exact h c hc

theorem Dev.rd_channelTrained (d : Dev) {c : Nat} (hc : c < 8) (k : Nat) :
    (d.channelTrained c).rd Ix.capChanState (k + 1) 0 = if c = k then 1 else d.rd Ix.capChanState (k + 1) 0 := by
  have h1 : normTy 5 (1 : Nat) = 1 := by decide
  rw [Dev.channelTrained, Dev.w0, (Dev.wr_only ..).rd _ _ (by decide), Dev.setRankState, Dev.wI, (Dev.wr_only ..).rd _ _ (by decide), Dev.wI,
    Dev.rd_wr, typeOf_chanState hc, h1]
  simp

theorem Dev.channelTrained_bit (d : Dev) (c : Nat) {j : Nat} (hj : j < 8) :
    bitOf ((d.channelTrained c).n0 Ix.capChannels) j = (bitOf (d.n0 Ix.capChannels) j || decide (c = j)) := by
  rw [Dev.channelTrained, Dev.bitOf_n0_w0 (n := 0) _ (by decide) (by decide) _ (by omega), bitOf_setBitTo_true]

/-- Channels below a number have trained. -/
def Dev.channelsTrained (d : Dev) (n : Nat) : Dev := (List.range n).foldl Dev.channelTrained d

theorem Dev.channelsTrained_only (d : Dev) (n : Nat) : d.changesOnly [] [Ix.capChanState, Ix.capRankState, Ix.capChannels] (d.channelsTrained n) :=
  Dev.changesOnly_foldl _ Dev.channelTrained_only _ d

/-- They are in service, and `cap.channels` names them. -/
theorem Dev.channelsTrained_service (d : Dev) {n : Nat} (hn : n ≤ 8) :
    ∀ c < n, (d.channelsTrained n).rd Ix.capChanState (c + 1) 0 = 1 ∧ bitOf ((d.channelsTrained n).n0 Ix.capChannels) c = true := by
  induction n with
  | zero => intro c hc; omega
  | succ n ih =>
    intro c hc
    have hlast : d.channelsTrained (n + 1) = (d.channelsTrained n).channelTrained n := by
      rw [Dev.channelsTrained, List.range_succ, List.foldl_append]; rfl
    rw [hlast, Dev.rd_channelTrained _ (by omega), Dev.channelTrained_bit _ _ (by omega)]
    rcases Nat.lt_succ_iff_lt_or_eq.1 hc with h | rfl
    · obtain ⟨hstate, hbit⟩ := ih (by omega) c h
      rw [if_neg (by omega), hbit]
      exact ⟨hstate, rfl⟩
    · simp

/-- Training without a failed rank brings all eight channels into service. -/
theorem Dev.dramTrained_all (d : Dev) : d.dramTrained 0 = d.channelsTrained 8 := by
  unfold Dev.dramTrained Dev.bringRanks
  simp only [filter_bitOf_zero, Nat.zero_div, Nat.zero_mod, Nat.reduceBEq, Bool.false_eq_true, if_false, List.foldl_nil]
  rfl

/-- Capacity and free space of the channels in service are reported. -/
def Dev.capacityReported (d : Dev) : Dev := (d.w0 Ix.capCapacity (mapSize (d.n0 Ix.capChannels) * 2 ^ 34)).freeReport

theorem Dev.freeReport_only (d : Dev) : d.changesOnly [] [Ix.capFree] d.freeReport := Dev.wr_only ..

theorem Dev.capacityReported_only (d : Dev) : d.changesOnly [] [Ix.capCapacity, Ix.capFree] d.capacityReported :=
  Dev.changesOnly_trans (pl := []) (ps := [Ix.capCapacity]) (Dev.wr_only ..) (Dev.freeReport_only _)

/-- Four channels or more hold nothing back. -/
theorem Dev.dramHeld_of_four {d : Dev} (h : 4 ≤ mapSize (d.n0 Ix.capChannels)) : d.dramHeld = d.capacityReported := by
  have hmap : d.capacityReported.n0 Ix.capChannels = d.n0 Ix.capChannels := by
    rw [Dev.n0, d.capacityReported_only.rd _ _ (by decide), Dev.n0]
  exact if_pos (by rw [← Dev.capacityReported, hmap]; simp [-Dev.n0_eq, h])

theorem Dev.stepFailures_training (d : Dev) (bad : Nat) : d.stepFailures 7 bad = (d.dramTrained bad).dramHeld := by
  simp [Dev.stepFailures]

theorem Dev.stepFailures_dram (d : Dev) : d.stepFailures 7 0 = (d.channelsTrained 8).capacityReported := by
  have hall : mapSize ((d.channelsTrained 8).n0 Ix.capChannels) = 8 :=
    countBits_of_all fun c hc => (d.channelsTrained_service (Nat.le_refl 8) c hc).2
  rw [Dev.stepFailures_training, Dev.dramTrained_all, Dev.dramHeld_of_four (by omega)]

theorem bringupStepDone_dram {t : Nat} {s : State} {e : Dev} (he : e = s.dev.at t) (hr : e.stepRuns 7 = true) :
    Completes (.bringupStepDone t 7 0) t s [.boot, .cut]
      [Ix.modBringup, Ix.capState, Ix.modCutState, Ix.capChanState, Ix.capRankState, Ix.capChannels, Ix.capCapacity, Ix.capFree] fun d =>
      d.boot = { e.boot with done := 7 :: e.boot.done } ∧ ∀ c < 8, d.rd Ix.capChanState (c + 1) 0 = 1 := by
  have htrained := Dev.changesOnly_trans (e.channelsTrained_only 8) (e.channelsTrained 8).capacityReported_only
  refine completes_mono (bringupStepDone_completes he hr (by decide) e.stepFailures_dram htrained (by decide) fun d hd hboot _ => ⟨hboot, ?_⟩)
    (by decide) (by decide)
  intro c hc
  rw [hd.rd _ _ (by decide), (Dev.capacityReported_only _).rd _ _ (by decide)]
  exact (e.channelsTrained_service (Nat.le_refl 8) c hc).1

/-! ### The copy times out (step 13, R84) -/

/-- The copy has failed, and rushes service is held (Table 3.5). -/
def Dev.copyFails (d : Dev) : Dev := { d with boot := { d.boot with failed := 13 :: d.boot.failed } }.w0 Ix.modService 4

theorem Dev.service_withBoot (d : Dev) (x : BootSt) : { d with boot := x }.service = d.service := rfl

theorem Dev.copyFails_only (d : Dev) : d.changesOnly [.boot] [Ix.modService] d.copyFails :=
  Dev.changesOnly_trans (pl := [.boot]) (ps := []) (Dev.boot_only ..) (Dev.wr_only ..)

theorem Dev.rd_copyFails (d : Dev) : d.copyFails.rd Ix.modService 0 0 = 4 :=
  Dev.rd_wr_fits _ (v := 4) (n := 0) 0 (by decide) (by decide) (by decide)

theorem bringupTimeout_copy {t bad : Nat} {s : State} {e : Dev} (he : e = s.dev.at t) (hr : e.stepRuns 13 = true)
    (hlate : e.hw.pRise + (if e.boot.memtest = 1 then 60 else 20) * sec ≤ e.now) (hserv : e.service = 1) (hroom : e.sup.emergencies.length < 32) :
    Completes (.bringupTimeout t 13 bad) t s (.boot :: codeParts) (Ix.modService :: codePlaces) fun d =>
      d.boot = { e.boot with failed := 13 :: e.boot.failed } ∧ d.rd Ix.modService 0 0 = 4 ∧ d.rd Ix.fltLastError 0 0 = Code.bringupTimeout := by
  subst he
  have hraise := (s.dev.at t).raise_only 4 Code.bringupTimeout
  have hserv' : ((s.dev.at t).raise 4 Code.bringupTimeout).service = 1 := by
    rw [Dev.service, Dev.n0, hraise.rd _ _ (by decide)]
    exact hserv
  have hguard : ¬ ((!(s.dev.at t).stepRuns 13 ||
      decide ((s.dev.at t).now < (s.dev.at t).hw.pRise + (if (s.dev.at t).boot.memtest = 1 then 60 else 20) * sec)) = true) := by
    rw [hr, decide_eq_false (Nat.not_lt.2 hlate)]
    decide
  refine completes_of_eq (exec_bringupTimeout t 13 bad s) (x := ((s.dev.at t).raise 4 Code.bringupTimeout).copyFails)
    (by simp only [if_neg hguard, if_true, Dev.service_withBoot, hserv', Dev.copyFails])
    (Dev.changesOnly_mono (Dev.changesOnly_trans hraise (Dev.copyFails_only _)) (by decide) (by decide)) ⟨?_, ?_, ?_⟩
  · rw [← hraise.boot (by decide)]
    rfl
  · exact Dev.rd_copyFails _
  · rw [(Dev.copyFails_only _).rd _ _ (by decide)]
    exact (Dev.raise_places _ 4 Code.bringupTimeout hroom (by decide) (by decide)).1

/-! ### A dark ring port (R80) -/

/-- A port is dark for link discovery, and its link is reported down. -/
def Dev.portDarkens (d : Dev) (port : Nat) : Dev := { d with boot := { d.boot with dark := port :: d.boot.dark } }.happen (.linkDown 1 port)

theorem Dev.portDarkens_only (d : Dev) (port : Nat) : d.changesOnly [.boot, .out] [] (d.portDarkens port) :=
  Dev.changesOnly_trans (pl := [.boot]) (ps := []) (Dev.boot_only ..) (Dev.happen_only ..)

theorem Dev.changesOnly.out {pl : List Part} {ps : List Nat} {d e : Dev} (h : d.changesOnly pl ps e) (hp : Part.out ∉ pl) : e.out = d.out :=
  (h.1 .out hp (by decide)).symm

theorem fabricPortDark_darkens {t port w : Nat} {s : State} {e : Dev} (he : e = s.dev.at t) (hport : port < 4)
    (hins : e.boot.inserted.find? (port / 2) = some w) (hst : e.portState port = 1) (hlate : w + 2 * sec ≤ e.now) (hdark : port ∉ e.boot.dark) :
    Completes (.fabricPortDark t port) t s [.boot, .out] [Ix.modBringup] fun d =>
      d.boot = { e.boot with dark := port :: e.boot.dark } ∧ d.out.happenings = e.out.happenings ++ [(e.time96, .linkDown 1 port)] := by
  subst he
  have hfound := ((s.dev.at t).portDarkens port).foundReport_only
  refine completesIf_of_eq (exec_fabricPortDark t port s) (by simpa [isPort] using hport) (x := ((s.dev.at t).portDarkens port).foundReport) ?_
    (Dev.changesOnly_trans (Dev.portDarkens_only ..) hfound) ⟨?_, ?_⟩
  · simp only [hins]
    exact if_pos (by simp [hst, hlate, hdark])
  · rw [hfound.boot (by decide)]
    rfl
  · rw [hfound.out (by decide)]
    rfl

/-! ### The commit of the changeover (R81) -/

theorem Dev.service_accept (d : Dev) (path ix sub : Nat) : (d.accept path ix sub).service = d.service := by
  rw [Dev.service, Dev.n0, Dev.rd_accept, Dev.service, Dev.n0]

section
variable {t path : Nat} {s : State} {e : Dev} (he : e = s.dev.at t) (hr : e.reaches path Ix.modChangeover)
include he hr

theorem modChangeover_commits (hserv : e.service = 1) (hready : bitOf (e.n0 Ix.modBringup) 13 = true) (hnone : ∀ c ∈ e.cut.engine, c.kind ≠ .changeover) :
    Completes (.modChangeover t path) t s (.cut :: requestParts) (Ix.modCutState :: requestPlaces) fun d =>
      d.cut.engine = e.cut.engine ++ [{ kind := .changeover, due := e.cutAt.1, explicit := e.cutAt.2, path := path, observed := e.now }] ∧
      d.rd Ix.modCutState 0 0 = 2 := by
  subst he
  have hfree : (s.dev.at t).cut.engine.any (fun c => c.kind == .changeover) = false := List.any_eq_false.2 fun c hc => by simpa using hnone c hc
  rcases hcut : (s.dev.at t).cutAt with ⟨due, explicit⟩
  refine completes_command (exec_modChangeover t path s) hr (x := ((s.dev.at t).accept path Ix.modChangeover 0).engineCut
      { kind := .changeover, due := due, explicit := explicit, path := path }) ?_ (Dev.engineCut_only ..) ⟨?_, ?_⟩
  · rw [Dev.n0] at hready
    simp [-Dev.n0_eq, Dev.n0, Dev.service_accept, hserv, hready, hfree, Dev.cutAt_accept, hcut]
  · rw [Dev.served_cut, Dev.engineCut_engine, Dev.accept_cut, Dev.accept_now]
  · rw [Dev.rd_served _ _ _ _ _ _ (by decide), Dev.engineCut_state]

theorem modChangeover_notReady (hp : 1 ≤ path ∧ path ≤ 4)
    (hno : e.service = 0 ∨ e.service = 4 ∨ e.service = 5 ∨ e.service = 1 ∧ bitOf (e.n0 Ix.modBringup) 13 = false) :
    Completes (.modChangeover t path) t s requestParts requestPlaces fun d => d.reports path Code.notReady := by
  subst he
  refine completes_refused (ix' := Ix.modChangeover) (sub' := 0) (exec_modChangeover t path s) hr hp ?_
  simp only [Dev.service_accept, Dev.n0, Dev.rd_accept]
  rcases hno with h | h | h | ⟨h, hbit⟩
  · simp [h]
  · simp [h]
  · simp [h]
  · rw [Dev.n0] at hbit
    simp [h, hbit]

end

/-- Settles O13: each step by what its units' completion gives and the bit its end sets; the timeout, the dark port, and the command of the
changeover in its cases. -/
theorem bringUpStepsAndChangeover : Obligations.BringUpStepsAndChangeover := by
  unfold Obligations.BringUpStepsAndChangeover
  exact ⟨fun t step s e he hr hstep _ => bringupStepDone_ports he hr hstep, fun t s e he hr _ => bringupStepDone_lanes he hr,
    fun t s e he hr _ => bringupStepDone_monitors he hr, fun t s e he hr _ => bringupStepDone_dram he hr, fun t bad s e => bringupTimeout_copy,
    fun t port s e w => fabricPortDark_darkens, fun t path s e => modChangeover_commits, fun t path s e => modChangeover_notReady⟩

end Sys2Proof.Machine
end

section
/-! PROOFS. Rushes service begins (R70, R76, R333, R446). -/

namespace Sys2Proof.Machine

theorem exec_rushesStart (t : Nat) (s : State) : exec (.rushesStart t) s = execRushesStart t s := rfl

/-! ### No configuration kept through a loss of the rails -/

/-- The islands that take up at rushes service what the Supervisor kept. -/
def takingIslands : List Nat := [1, 2, 3, 4, 5, 6, 0xA]

/-- An entry is configuration of one of them: it takes effect at a cut. -/
def configEntry (ix sub : Nat) : Bool := takingIslands.contains (islandOfIx ix) && (rowOf ix sub).any (fun r => r.effect == .cut)

/-- The dictionary lists no such entry. -/
def Dev.keepsNone (d : Dev) : Prop := ∀ p ∈ d.dict, configEntry (keyIndex p.1) (keySub p.1) = false

theorem Dev.keepsNone_of_rows {d : Dev} (h : ∀ p ∈ d.dict, islandOfIx (keyIndex p.1) ∈ takingIslands →
    ∀ r, rowOf (keyIndex p.1) (keySub p.1) = some r → r.effect ≠ .cut) : d.keepsNone := by
  intro p hp
  rw [configEntry, Bool.and_eq_false_imp]
  intro hisl
  have hrow := h p hp (List.contains_iff_mem.1 hisl)
  cases hr : rowOf (keyIndex p.1) (keySub p.1) with
  | none => rfl
  | some r => simpa using hrow r hr

theorem Dev.keepsNone_congr {d e : Dev} (h : d.keepsNone) (hd : e.dict = d.dict) : e.keepsNone := by
  rwa [Dev.keepsNone, hd]

/-- A write to any other entry keeps it so. -/
theorem Dev.keepsNone_wr {d : Dev} (h : d.keepsNone) {ix sub : Nat} (hix : configEntry ix sub = false) (inst : Nat) (v : Int) :
    (d.wr ix sub inst v).keepsNone := by
  intro p hp
  have hmem : p = (ekey ix sub inst, normTy (typeOf ix sub) v) ∨ p ∈ d.dict := by
    simp only [Dev.wr, Tab.set] at hp
    split at hp
    · exact .inr (List.mem_filter.1 hp).1
    · exact Tab.mem_put hp
  rcases hmem with rfl | hp
  · simpa [keyIndex, keySub, ekey] using hix
  · exact h p hp

theorem Dev.keepsNone_inc {d : Dev} (h : d.keepsNone) {ix sub : Nat} (hix : configEntry ix sub = false) (inst k : Nat) :
    (d.inc ix sub inst k).keepsNone := by
  refine Dev.keepsNone_wr (Dev.keepsNone_congr h ?_) hix inst _
  split
  · rfl
  · exact Dev.markWrap_dict ..

theorem Dev.keepsNone_wrAll {d : Dev} (h : d.keepsNone) {ix : Nat} (v : Nat) {n : Nat} (hix : ∀ k < n, configEntry ix (k + 1) = false) :
    (d.wrAll ix v n).keepsNone := by
  induction n with
  | zero => exact h
  | succ n ih => exact Dev.keepsNone_wr (ih fun k hk => hix k (by omega)) (hix n (by omega)) 0 _

/-- An event record of the Timebase writes at most the count of those lost. -/
theorem Dev.keepsNone_tbEvent {d : Dev} (h : d.keepsNone) (kind obj a b : Nat) : (d.tbEvent kind obj a b).keepsNone := by
  have hemit : ∀ (e : Dev) (ring : Nat) (r : Rec), e.keepsNone → (e.emitTo ring Ix.tbEventsLost r).keepsNone := fun e ring r he => by
    unfold Dev.emitTo
    split
    · exact he
    split
    · exact Dev.keepsNone_congr he rfl
    split
    · exact he
    · exact Dev.keepsNone_inc he (by decide) 0 1
  exact hemit _ _ _ (Dev.keepsNone_congr h rfl)

/-- Where nothing is kept an island takes nothing up. -/
theorem Dev.configTake_of_none {d : Dev} (h : d.keepsNone) {isl : Nat} (hisl : isl ∈ takingIslands) : d.configTake isl = d := by
  have hkept : d.dict.filter (fun p => islandOfIx (Nat.unpair p.1).1 == isl &&
      (rowOf (Nat.unpair p.1).1 (Nat.unpair (Nat.unpair p.1).2).1).any (fun e => e.effect == .cut)) = [] := by
    refine List.filter_eq_nil_iff.2 fun p hp hmine => ?_
    obtain ⟨hix, hcut⟩ := Bool.and_eq_true_iff.1 hmine
    have hnot := h p hp
    rw [configEntry, keyIndex, keySub, eq_of_beq hix, hcut, List.contains_iff_mem.2 hisl] at hnot
    exact absurd hnot (by decide)
  exact if_pos (by rw [hkept]; rfl)

theorem Dev.configTakes_of_none {d : Dev} (h : d.keepsNone) : takingIslands.foldl Dev.configTake d = d :=
  List.foldlRecOn takingIslands Dev.configTake (motive := (· = d)) rfl fun a ha i hi => by rw [ha, Dev.configTake_of_none h hi]

/-! ### The steps of the start -/

/-- TIME96 runs from now where it did not (R333). -/
def Dev.clockStarts (d : Dev) : Dev := if d.tb.running then d else { d with tb := { d.tb with running := true, offset := -(d.now : Int) } }

theorem Dev.clockStarts_only (d : Dev) : d.changesOnly [.tb] [] d.clockStarts :=
  Dev.changesOnly_ite (fun _ => Dev.changesOnly_refl ..) fun _ => ⟨fun p hp hd => by cases p <;> simp_all [Part.agrees], fun _ _ _ _ => rfl⟩

theorem Dev.clockStarts_running (d : Dev) : d.clockStarts.tb.running = true := by
  unfold Dev.clockStarts
  split
  · next h => exact h
  · rfl

theorem Dev.clockStarts_dict (d : Dev) : d.clockStarts.dict = d.dict := by
  unfold Dev.clockStarts
  split <;> rfl

/-- `tb.time_state` leaves its state at reset. -/
def Dev.timeStarts (d : Dev) : Dev := if d.n0 Ix.tbTimeState = 0 then d.timeState d.timeSource 1 else d

theorem Dev.timeState_only (d : Dev) (src st : Nat) : d.changesOnly eventParts (Ix.tbTimeState :: eventPlaces) (d.timeState src st) :=
  Dev.changesOnly_ite (fun _ => Dev.changesOnly_refl ..) fun _ => Dev.changesOnly_trans (pl := []) (ps := [Ix.tbTimeState]) (Dev.wr_only ..) (Dev.event_only ..)

theorem Dev.timeStarts_only (d : Dev) : d.changesOnly eventParts (Ix.tbTimeState :: eventPlaces) d.timeStarts :=
  Dev.changesOnly_ite (fun _ => Dev.timeState_only ..) fun _ => Dev.changesOnly_refl ..

theorem Dev.keepsNone_timeStarts {d : Dev} (h : d.keepsNone) : d.timeStarts.keepsNone := by
  have hstate : ∀ src st, (d.timeState src st).keepsNone := fun src st => by
    unfold Dev.timeState
    split
    · exact h
    · exact Dev.keepsNone_tbEvent (Dev.keepsNone_wr (ix := Ix.tbTimeState) (sub := 0) h (by decide) 0 _) _ _ _ _
  unfold Dev.timeStarts
  split
  · exact hstate _ _
  · exact h

/-- The state of service it begins in: held where DRAM training or the copy has failed (R84). -/
def Dev.rushesState (d : Dev) : Nat := if d.boot.failed.contains 7 || d.boot.failed.contains 13 then 4 else 1

/-- Rushes service is reported, with the time from P to it; it is no trial any more. -/
def Dev.rushesReports (d : Dev) : Dev :=
  let d := ({ d with boot := { d.boot with trialSince := none } }.w0 Ix.modService d.rushesState).bringBit 3 true
  d.wI Ix.modRushesMs 0 (d.msSinceP d.now)

theorem Dev.rushesReports_only (d : Dev) : d.changesOnly [.boot] [Ix.modService, Ix.modBringup, Ix.modRushesMs] d.rushesReports :=
  Dev.changesOnly_mono (Dev.changesOnly_trans (Dev.changesOnly_trans (Dev.changesOnly_trans (d.boot_only _) (Dev.wr_only ..)) (Dev.bringBit_only ..))
    (Dev.wr_only ..)) (by decide) (by decide)

theorem Dev.rd_rushesReports {d : Dev} (h7 : 7 ∉ d.boot.failed) (h13 : 13 ∉ d.boot.failed) : d.rushesReports.rd Ix.modService 0 0 = 1 := by
  have hstate : d.rushesState = 1 := by simp [Dev.rushesState, h7, h13]
  rw [Dev.rushesReports, hstate, Dev.wI, (Dev.wr_only ..).rd _ _ (by decide), (Dev.bringBit_only ..).rd _ _ (by decide)]
  exact Dev.rd_wr_fits _ (v := 1) (n := 0) 0 (by decide) (by decide) (by decide)

theorem Dev.keepsNone_rushesReports {d : Dev} (h : d.keepsNone) : d.rushesReports.keepsNone :=
  Dev.keepsNone_wr (Dev.keepsNone_wr (Dev.keepsNone_wr (Dev.keepsNone_congr h rfl) (by decide) 0 _) (by decide) 0 _) (by decide) 0 _

/-- Widths of 16 bits, and every island at P3 (R446). -/
def Dev.rushesPoint (d : Dev) : Dev := ((d.wrAll Ix.speWidth 16 4).w0 Ix.chnWidth 16).wrAll Ix.pwrIslPoint 3 12

theorem Dev.rushesPoint_only (d : Dev) : d.changesOnly [] [Ix.speWidth, Ix.chnWidth, Ix.pwrIslPoint] d.rushesPoint :=
  Dev.changesOnly_trans (pl := []) (ps := [Ix.speWidth, Ix.chnWidth]) (Dev.changesOnly_trans (pl := []) (ps := [Ix.speWidth]) (Dev.wrAll_only ..)
    (Dev.wr_only ..)) (Dev.wrAll_only ..)

theorem Dev.keepsNone_rushesPoint {d : Dev} (h : d.keepsNone) : d.rushesPoint.keepsNone :=
  Dev.keepsNone_wrAll (Dev.keepsNone_wr (Dev.keepsNone_wrAll h 16 (by decide)) (by decide) 0 _) 3 (by decide)

theorem typeOf_speWidth {k : Nat} (h1 : 1 ≤ k) (h4 : k ≤ 4) : typeOf Ix.speWidth k = 5 := by
  have h : ∀ i < 5, 1 ≤ i → typeOf Ix.speWidth i = 5 := by decide
  exact h k (by omega) h1

theorem typeOf_islPoint {i : Nat} (h1 : 1 ≤ i) (h12 : i ≤ 12) : typeOf Ix.pwrIslPoint i = 5 := by
  have h : ∀ k < 13, 1 ≤ k → typeOf Ix.pwrIslPoint k = 5 := by decide
  exact h i (by omega) h1

theorem Dev.rd_rushesPoint (d : Dev) :
    d.rushesPoint.rd Ix.chnWidth 0 0 = 16 ∧ (∀ k, 1 ≤ k → k ≤ 4 → d.rushesPoint.rd Ix.speWidth k 0 = 16) ∧
      ∀ i, 1 ≤ i → i ≤ 12 → d.rushesPoint.rd Ix.pwrIslPoint i 0 = 3 := by
  refine ⟨?_, fun k h1 h4 => ?_, fun i h1 h12 => ?_⟩
  · rw [Dev.rushesPoint, (Dev.wrAll_only ..).rd _ _ (by decide)]
    exact Dev.rd_wr_fits _ (v := 16) (n := 0) 0 (by decide) (by decide) (by decide)
  · rw [Dev.rushesPoint, (Dev.wrAll_only ..).rd _ _ (by decide), Dev.w0, (Dev.wr_only ..).rd _ _ (by decide), Dev.rd_wrAll, if_pos ⟨rfl, rfl, h1, h4⟩,
      typeOf_speWidth h1 h4]
    rfl
  · rw [Dev.rushesPoint, Dev.rd_wrAll, if_pos ⟨rfl, rfl, h1, h12⟩, typeOf_islPoint h1 h12]
    rfl

/-- Interval Meter channels that are not enabled are off. -/
def Dev.channelsOff (d : Dev) : Dev :=
  (List.range 10).foldl (fun (a : Dev) ch => if a.nI Ix.imChanEnable ch = 0 then a.setImState ch 0 else a) d

theorem Dev.channelsOff_only (d : Dev) : d.changesOnly [] [Ix.imChanState] d.channelsOff :=
  Dev.changesOnly_foldl _ (fun _ _ => Dev.changesOnly_ite (fun _ => Dev.wr_only ..) fun _ => Dev.changesOnly_refl ..) _ d

theorem Dev.keepsNone_channelsOff {d : Dev} (h : d.keepsNone) : d.channelsOff.keepsNone := by
  have hstate : ∀ k < 10, configEntry Ix.imChanState (k + 1) = false := by decide
  refine List.foldlRecOn _ _ h fun a ha ch hch => ?_
  split
  · exact Dev.keepsNone_wr ha (hstate ch (List.mem_range.1 hch)) 0 _
  · exact ha

/-! ### Rushes service begins -/

/-- The device as rushes service begins, before the reports that follow. -/
def Dev.rushesBegins (d : Dev) : Dev := d.clockStarts.timeStarts.rushesReports.rushesPoint.channelsOff

/-- The reports that follow: the pipeline's, that rushes service is ready, what link discovery and bring-up have reached. -/
def Dev.rushesReady (d : Dev) : Dev := (d.pipeReports.happen .rushesReady).foundReport.readyCheck

theorem Dev.keepsNone_rushesBegins {d : Dev} (h : d.keepsNone) : d.rushesBegins.keepsNone :=
  Dev.keepsNone_channelsOff (Dev.keepsNone_rushesPoint (Dev.keepsNone_rushesReports (Dev.keepsNone_timeStarts
    (Dev.keepsNone_congr h d.clockStarts_dict))))

theorem Dev.rushesBegins_shadow (d : Dev) : d.rushesBegins.cut.shadow = d.cut.shadow := by
  rw [Dev.rushesBegins, (Dev.channelsOff_only _).cut (by decide), (Dev.rushesPoint_only _).cut (by decide), (Dev.rushesReports_only _).cut (by decide),
    (Dev.timeStarts_only _).cut (by decide), (Dev.clockStarts_only _).cut (by decide)]

theorem Dev.rushesReady_only (d : Dev) :
    d.changesOnly [.out, .cut] (Ix.modBringup :: Ix.capState :: Ix.modCutState :: pipePlaces) d.rushesReady :=
  Dev.changesOnly_mono (Dev.changesOnly_trans (Dev.changesOnly_trans (Dev.changesOnly_trans d.pipeReports_only (Dev.happen_only ..))
    (Dev.foundReport_only _)) (Dev.readyCheck_only _)) (by decide) (by decide)

/-- That rushes service is ready is among the happenings. -/
theorem Dev.rushesReady_happens (d : Dev) : ∃ tm, (tm, Happening.rushesReady) ∈ d.rushesReady.out.happenings := by
  refine ⟨d.pipeReports.time96, ?_⟩
  rw [Dev.rushesReady, (Dev.readyCheck_only _).out (by decide), (Dev.foundReport_only _).out (by decide)]
  exact List.mem_append_right _ (List.mem_singleton_self _)

section
variable {t : Nat} {s : State} {e : Dev} (he : e = s.dev.at t) (hrun : e.sup.running = true) (hpg : e.hw.pwrGood = true) (hserv : e.service = 0)
  (hlate : e.hw.pRise + ms 400 ≤ e.now) (hsh : e.cut.shadow = []) (hnone : e.keepsNone)
  (hlanes : e.rushesLanes = true)
include he hrun hpg hserv hlate hsh hnone hlanes

/-- Nothing shadowed comes into force, and no island takes anything up. -/
theorem exec_rushesStart_eq : exec (.rushesStart t) s = .next { s with dev := e.rushesBegins.rushesReady } := by
  subst he
  have hguard : (!(s.dev.at t).sup.running || !(s.dev.at t).hw.pwrGood || (s.dev.at t).service != 0 ||
      decide ((s.dev.at t).now < (s.dev.at t).hw.pRise + ms 400) || !(s.dev.at t).rushesLanes) = false := by
    rw [hrun, hpg, hserv, hlanes, decide_eq_false (Nat.not_lt.2 hlate)]
    rfl
  have hrelease := Dev.shadowRelease_of_nil ((s.dev.at t).rushesBegins_shadow.trans hsh) (fun _ => true) waitsChangeover
  have htake := Dev.configTakes_of_none (Dev.keepsNone_rushesBegins hnone)
  rw [← htake, ← hrelease, exec_rushesStart, execRushesStart, run]
  simp only [hguard, Bool.false_eq_true, if_false]
  rfl

end

/-- Settles O14: the start runs through, with nothing shadowed and nothing kept, and its later steps leave what its earlier ones set. -/
theorem rushesServiceStarts : Obligations.RushesServiceStarts := by
  unfold Obligations.RushesServiceStarts
  intro t s e he hrun hpg hserv hlate hsh hrows h7 h13 hlanes
  have hready := e.rushesBegins.rushesReady_only
  have hboot : e.clockStarts.timeStarts.boot = e.boot := by rw [(Dev.timeStarts_only _).boot (by decide), (Dev.clockStarts_only _).boot (by decide)]
  have hbegins := Dev.changesOnly_trans e.clockStarts.timeStarts.rushesReports.rushesPoint_only (Dev.channelsOff_only _)
  obtain ⟨hchain, hlane, hpoint⟩ := e.clockStarts.timeStarts.rushesReports.rd_rushesPoint
  have hoff := e.clockStarts.timeStarts.rushesReports.rushesPoint.channelsOff_only
  refine ⟨_, exec_rushesStart_eq he hrun hpg hserv hlate hsh (Dev.keepsNone_of_rows hrows) hlanes, ?_, ?_, ?_, fun k h1 h4 => ?_,
    fun i h1 h12 => ?_, Dev.rushesReady_happens _, ?_⟩
  · rw [hready.tb (by decide), Dev.rushesBegins, hbegins.tb (by decide), (Dev.rushesReports_only _).tb (by decide), (Dev.timeStarts_only _).tb (by decide),
      Dev.clockStarts_running]
  · rw [hready.rd _ _ (by decide), Dev.rushesBegins, hbegins.rd _ _ (by decide),
      Dev.rd_rushesReports (hboot ▸ h7) (hboot ▸ h13)]
  · rw [hready.rd _ _ (by decide), Dev.rushesBegins, hoff.rd _ _ (by decide), hchain]
  · rw [hready.rd _ _ (by decide), Dev.rushesBegins, hoff.rd _ _ (by decide), hlane k h1 h4]
  · rw [hready.rd _ _ (by decide), Dev.rushesBegins, hoff.rd _ _ (by decide), hpoint i h1 h12]
  · rw [hready.boot (by decide), Dev.rushesBegins, hbegins.boot (by decide)]
    rfl

end Sys2Proof.Machine
end

section
/-! PROOFS. The end of the changeover: what moves to capture memory, what is reported, and full service begins (R82, R83). -/

namespace Sys2Proof.Machine

theorem exec_changeoverComplete (t first : Nat) (s : State) : exec (.changeoverComplete t first) s = execChangeoverComplete t first s := rfl

/-! ### Frames of steps with memory, and of parts -/

/-- A run over a list whose steps pass memory on and stay, on the device, within a frame. -/
theorem Dev.changesOnly_foldl_snd {β : Type} {pl : List Part} {ps : List Nat} (f : Mem × Dev → β → Mem × Dev)
    (h : ∀ (q : Mem × Dev) (x : β), q.2.changesOnly pl ps (f q x).2) (l : List β) (q : Mem × Dev) : q.2.changesOnly pl ps (l.foldl f q).2 :=
  List.foldlRecOn l f (motive := fun r => q.2.changesOnly pl ps r.2) (Dev.changesOnly_refl ..) fun r hr x _ => Dev.changesOnly_step hr (h r x)

theorem Dev.trg_only (d : Dev) (x : TrgSt) : d.changesOnly [.trg] [] { d with trg := x } :=
  ⟨fun p hp hd => by cases p <;> simp_all [Part.agrees], fun _ _ _ _ => rfl⟩
theorem Dev.vp_only (d : Dev) (x : VpSt) : d.changesOnly [.vp] [] { d with vp := x } :=
  ⟨fun p hp hd => by cases p <;> simp_all [Part.agrees], fun _ _ _ _ => rfl⟩
theorem Dev.str_only (d : Dev) (x : StrSt) : d.changesOnly [.str] [] { d with str := x } :=
  ⟨fun p hp hd => by cases p <;> simp_all [Part.agrees], fun _ _ _ _ => rfl⟩

/-! ### Allocation of capture memory (R260) -/

theorem Dev.alloc_only {d d' : Dev} {a : Alloc} {kind num length : Nat} {mirrored : Bool} (h : d.alloc kind num length mirrored = some (a, d')) :
    d.changesOnly [.cap] [Ix.capFree] d' := by
  unfold Dev.alloc at h
  dsimp only at h
  split at h
  · cases h
  · obtain ⟨g, -, hg⟩ := Option.map_eq_some_iff.1 h
    obtain ⟨-, rfl⟩ := Prod.mk.injEq .. ▸ hg
    exact Dev.changesOnly_trans (pl := [.cap]) (ps := []) (Dev.cap_only ..) (Dev.freeReport_only _)

theorem Dev.release_only (d : Dev) (kind num : Nat) : d.changesOnly [.cap] [Ix.capFree] (d.release kind num) :=
  Dev.changesOnly_trans (pl := [.cap]) (ps := []) (Dev.cap_only ..) (Dev.freeReport_only _)

/-! ### Magazines (R205) -/

theorem Dev.setMag_only (d : Dev) (k : Nat) (x : MagSt) : d.changesOnly [.trg] [] (d.setMag k x) := Dev.trg_only ..

theorem Dev.takeReport_only (d : Dev) (k : Nat) (tk : Take) (state bytes : Nat) : d.changesOnly [] takePlaces (d.takeReport k tk state bytes) := by
  have hw : ∀ (a : Dev) {ix : Nat} (_ : ix ∈ takePlaces) (i v : Nat), d.changesOnly [] takePlaces a → d.changesOnly [] takePlaces (a.wW ix i v) :=
    fun a _ hix i v ha => Dev.changesOnly_step ha (Dev.wr_in a hix 0 i v)
  have hstate := fun i a b c v w => hw _ (ix := Ix.trgTakeDataBytes) (by decide) i w <| hw _ (ix := Ix.trgTakeValidPre) (by decide) i v <|
    hw _ (ix := Ix.trgTakeTrigFrac) (by decide) i c <| hw _ (ix := Ix.trgTakeTrigSec) (by decide) i b <|
    hw _ (ix := Ix.trgTakeState) (by decide) i a (Dev.changesOnly_refl ..)
  unfold Dev.takeReport
  refine Dev.changesOnly_ite (fun _ => hstate ..) fun _ => ?_
  dsimp only
  split <;> split
  · exact hw _ (by decide) _ _ (hw _ (by decide) _ _ (hstate ..))
  · exact hw _ (by decide) _ _ (hstate ..)
  · exact hw _ (by decide) _ _ (hstate ..)
  · exact hstate ..

/-- The parts and entries that a magazine's move changes. -/
def magMoveParts : List Part := .trg :: .cap :: codeParts
def magMovePlaces : List Nat := Ix.trgHistoryFree :: Ix.capFree :: Ix.trgMagBase :: Ix.trgMagLogBase :: (takePlaces ++ codePlaces)

theorem Dev.magMove_only (d : Dev) (k : Nat) (m : Mem) : d.changesOnly magMoveParts magMovePlaces (d.magMove k m).2 := by
  have hout : ∀ v x, d.changesOnly magMoveParts magMovePlaces ((d.w0 Ix.trgHistoryFree v).setMag k x) := fun v x =>
    Dev.changesOnly_mono (Dev.changesOnly_trans (Dev.wr_only d Ix.trgHistoryFree 0 0 _) (Dev.setMag_only ..)) (by decide) (by decide)
  have halloc : ∀ {a b : Dev} {x : Alloc} {kind num length : Nat} {mirrored : Bool}, d.changesOnly magMoveParts magMovePlaces a →
      a.alloc kind num length mirrored = some (x, b) → d.changesOnly magMoveParts magMovePlaces b := fun ha h =>
    Dev.changesOnly_step ha (Dev.changesOnly_mono (Dev.alloc_only h) (by decide) (by decide))
  have hraise : ∀ {a : Dev}, d.changesOnly magMoveParts magMovePlaces a → d.changesOnly magMoveParts magMovePlaces (a.raise 4 Code.magNoMemory) := fun ha =>
    Dev.changesOnly_step ha (Dev.changesOnly_mono (Dev.raise_only ..) (by decide) (by decide))
  unfold Dev.magMove
  dsimp only
  split
  · exact Dev.changesOnly_refl ..
  split
  · exact hraise (hout ..)
  next h2 =>
  split
  · exact hraise (Dev.changesOnly_step (halloc (hout ..) h2) (Dev.changesOnly_mono (Dev.release_only ..) (by decide) (by decide)))
  next h3 =>
  refine Dev.changesOnly_step (halloc (halloc (hout ..) h2) h3) ?_
  refine Dev.changesOnly_mono (Dev.changesOnly_trans (Dev.changesOnly_trans (Dev.changesOnly_trans (Dev.wr_only _ Ix.trgMagBase 0 k _)
    (Dev.wr_only _ Ix.trgMagLogBase 0 k _)) (Dev.setMag_only ..)) (Dev.changesOnly_foldl _ (fun a tk => Dev.takeReport_only a k tk ..) _ _))
    (by decide) (by decide)

theorem Dev.takesMove_only (d : Dev) (m : Mem) : d.changesOnly magMoveParts magMovePlaces (d.takesMove m).2 :=
  Dev.changesOnly_foldl_snd _ (fun q k => Dev.magMove_only q.2 k q.1) _ (m, d)

/-! ### The Viewport's pool (R251) -/

theorem Dev.handleReport_only (d : Dev) (h state : Nat) : d.changesOnly [] handlePlaces (d.handleReport h state) := by
  have hw : ∀ (a : Dev) {ix : Nat} (_ : ix ∈ handlePlaces) (i v : Nat), d.changesOnly [] handlePlaces a → d.changesOnly [] handlePlaces (a.wI ix i v) :=
    fun a _ hix i v ha => Dev.changesOnly_step ha (Dev.wr_in a hix (i + 1) 0 v)
  have hid := fun i a b => hw _ (ix := Ix.vpHandleId) (by decide) i b (hw _ (ix := Ix.vpHandleState) (by decide) i a (Dev.changesOnly_refl ..))
  unfold Dev.handleReport
  split
  · exact hw _ (by decide) _ _ (hw _ (by decide) _ _ (hid ..))
  · exact hw _ (by decide) _ _ (hid ..)

theorem Dev.poolReport_only (d : Dev) : d.changesOnly [] handlePlaces d.poolReport := Dev.wr_in d (ix := Ix.vpPoolFree) (by decide) ..

theorem Dev.poolStart_only (d : Dev) (m : Mem) : d.changesOnly [.cap, .vp] (Ix.capFree :: handlePlaces) (d.poolStart m).2 := by
  unfold Dev.poolStart
  split
  · next h =>
    exact Dev.changesOnly_mono (Dev.changesOnly_trans (Dev.changesOnly_trans (Dev.changesOnly_trans (Dev.alloc_only h) (Dev.vp_only ..))
      (Dev.changesOnly_foldl _ (fun a p => Dev.handleReport_only a ..) _ _)) (Dev.poolReport_only _)) (by decide) (by decide)
  · exact Dev.changesOnly_refl ..

/-! ### Rings (R294, R315) -/

theorem Dev.setRing_only (d : Dev) (r : Nat) (x : RingSt) : d.changesOnly [.str] [] (d.setRing r x) := Dev.str_only ..

theorem Dev.setRingState_only (d : Dev) (r v : Nat) : d.changesOnly [] [Ix.strRingState] (d.setRingState r v) := Dev.wr_only ..

/-- A producer that counts its lost records counts them in an entry of `lossPlaces`. -/
theorem lostOfTag_mem (tag isl : Nat) : lostOfTag tag isl = 0 ∨ lostOfTag tag isl ∈ lossPlaces := by
  have hevent : (eventRingOf isl).2 = 0 ∨ (eventRingOf isl).2 ∈ lossPlaces := by
    unfold eventRingOf
    (repeat' split) <;> decide
  unfold lostOfTag
  dsimp only
  repeat' split
  all_goals first | exact hevent | decide

theorem Dev.producerLost_only (d : Dev) (x : Rec) : d.changesOnly [.ctr] lossPlaces (d.producerLost x) := by
  have hmem := lostOfTag_mem (recTag x) (recValue x 0 / 2 ^ 40)
  unfold Dev.producerLost
  generalize lostOfTag (recTag x) (recValue x 0 / 2 ^ 40) = ix at hmem ⊢
  refine Dev.changesOnly_ite (fun _ => Dev.changesOnly_refl ..) fun h => ?_
  have hix := hmem.resolve_left fun h0 => h (by simp [h0])
  exact Dev.changesOnly_mono (Dev.inc_only ..) (by simp) (by simpa using hix)

theorem Dev.ringLose_only (d : Dev) (r cause : Nat) (x : Rec) : d.changesOnly [.str, .ctr] lossPlaces (d.ringLose r cause x) := by
  have hlost := fun y => Dev.changesOnly_trans (Dev.changesOnly_trans (d.setRing_only r y) (Dev.producerLost_only _ x)) (Dev.tally_only _ 0x0811 0 1)
  unfold Dev.ringLose
  exact Dev.changesOnly_ite (fun _ => Dev.changesOnly_mono (Dev.changesOnly_trans (hlost _) (Dev.inc_only _ Ix.strRingDropped 0 r 1)) (by decide)
    (by decide)) fun _ => Dev.changesOnly_mono (hlost _) (by decide) (by decide)

theorem Dev.ringDiscard_only (d : Dev) (r : Nat) : d.changesOnly [.str, .ctr] lossPlaces (d.ringDiscard r) :=
  Dev.changesOnly_mono (Dev.changesOnly_trans (d.setRing_only r _) (Dev.changesOnly_foldl _ (fun a x => Dev.ringLose_only a r 5 x) _ _))
    (by decide) (by decide)

/-- The parts and entries that the move of the rings' backlogs changes. -/
def ringsMoveParts : List Part := .str :: .cap :: codeParts
def ringsMovePlaces : List Nat := Ix.capFree :: Ix.strRingState :: (lossPlaces ++ codePlaces)

theorem Dev.ringsMove_only (d : Dev) : d.changesOnly ringsMoveParts ringsMovePlaces d.ringsMove := by
  refine Dev.changesOnly_foldl _ (fun a r => ?_) _ d
  have hraise : ∀ {b : Dev}, a.changesOnly ringsMoveParts ringsMovePlaces b → a.changesOnly ringsMoveParts ringsMovePlaces (b.raise 4 Code.ringSpace) :=
    fun hb => Dev.changesOnly_step hb (Dev.changesOnly_mono (Dev.raise_only ..) (by decide) (by decide))
  have hring : ∀ {q : Alloc × Dev} {kind num length : Nat} {mirrored : Bool} (x : RingSt), a.alloc kind num length mirrored = some q →
      a.changesOnly ringsMoveParts ringsMovePlaces (q.2.setRing r x) := fun x h =>
    Dev.changesOnly_mono (Dev.changesOnly_trans (Dev.alloc_only h) (Dev.setRing_only _ r x)) (by decide) (by decide)
  dsimp only
  refine Dev.changesOnly_ite (fun _ => Dev.changesOnly_refl ..) fun _ => ?_
  split
  · next h => exact hring _ h
  split
  · next h => exact hraise (hring _ h)
  · exact hraise (Dev.changesOnly_mono (Dev.changesOnly_trans (Dev.changesOnly_trans (a.setRing_only r _) (Dev.ringDiscard_only _ r))
      (Dev.setRingState_only _ r 5)) (by decide) (by decide))

/-! ### The spool and the drives (R300, R310) -/

theorem Dev.spoolStart_only (d : Dev) : d.changesOnly (.cap :: codeParts) (Ix.capFree :: codePlaces) d.spoolStart := by
  unfold Dev.spoolStart
  split
  · next h => exact Dev.changesOnly_mono (Dev.changesOnly_trans (d.release_only 0x12 0) (Dev.alloc_only h)) (by decide) (by decide)
  · exact Dev.changesOnly_trans (d.release_only 0x12 0) (Dev.raise_only ..)

theorem Dev.attachStart_only (d : Dev) (n : Nat) : d.changesOnly [.str] [Ix.strDrvState] (d.attachStart n) :=
  Dev.changesOnly_trans (pl := [.str]) (ps := []) (Dev.str_only ..) (Dev.wr_only ..)

theorem Dev.drivesStart_only (d : Dev) : d.changesOnly [.str] [Ix.strDrvState] d.drivesStart :=
  Dev.changesOnly_foldl _ (fun a n => Dev.changesOnly_ite (fun _ => Dev.attachStart_only a n) fun _ => Dev.changesOnly_refl ..) _ d

/-! ### A trial image is confirmed (R74) -/

theorem Dev.trialConfirm_only (d : Dev) : d.changesOnly [.boot] [Ix.modImageState] d.trialConfirm :=
  Dev.changesOnly_ite (fun _ => Dev.changesOnly_mono (Dev.changesOnly_trans (Dev.changesOnly_trans (d.boot_only _) (Dev.wr_only ..)) (Dev.boot_only ..))
    (by decide) (by decide)) fun _ => Dev.changesOnly_mono (d.boot_only _) (by decide) (by decide)

theorem Dev.trialConfirm_gap (d : Dev) : d.trialConfirm.boot.gapOpen = d.boot.gapOpen := by
  unfold Dev.trialConfirm
  dsimp only
  split <;> rfl

/-! ### The reports that follow an island's clock (R161, R443) -/

theorem Dev.horizonReport_only (d : Dev) : d.changesOnly [] [Ix.trgCondHorizon, Ix.trgChainHorizon] d.horizonReport :=
  Dev.changesOnly_trans (pl := []) (ps := [Ix.trgCondHorizon]) (Dev.changesOnly_foldl _ (fun a _ => Dev.wr_only a ..) _ d)
    (Dev.changesOnly_foldl _ (fun a _ => Dev.wr_only a ..) _ _)

theorem Dev.shedLane_only (d : Dev) (p : Nat) : d.changesOnly [.cut] [Ix.modCutState] (d.shedLane p) :=
  Dev.changesOnly_ite (fun _ => Dev.changesOnly_refl ..) fun _ => Dev.engineCut_only ..

/-- The reports of an island's clock: the pipeline's for islands 2 and 3. -/
def Dev.clockReads (d : Dev) (isl : Nat) : Dev := if isl = 2 then d.pipeReports else if isl = 3 then d.speReports else d

theorem Dev.clockReads_only (d : Dev) (isl : Nat) : d.changesOnly [] pipePlaces (d.clockReads isl) :=
  Dev.changesOnly_ite (fun _ => d.pipeReports_only) fun _ =>
    Dev.changesOnly_ite (fun _ => Dev.changesOnly_mono d.speReports_only (by decide) (by decide)) fun _ => Dev.changesOnly_refl ..

/-- In full service lanes beyond the limits of island 3's clock shed. -/
def Dev.clockSheds (d : Dev) (isl : Nat) : Dev :=
  if isl = 3 && d.fullService then (List.range 4).foldl (fun (a : Dev) p => a.shedLane p) d else d

theorem Dev.clockSheds_only (d : Dev) (isl : Nat) : d.changesOnly [.cut] [Ix.modCutState] (d.clockSheds isl) :=
  Dev.changesOnly_ite (fun _ => Dev.changesOnly_foldl _ Dev.shedLane_only _ d) fun _ => Dev.changesOnly_refl ..

theorem Dev.clockReport_eq (d : Dev) (isl : Nat) : d.clockReport isl = ((d.clockReads isl).clockSheds isl).horizonReport := rfl

/-- The parts and entries that they change. -/
def clockPlaces : List Nat := Ix.modCutState :: Ix.trgCondHorizon :: Ix.trgChainHorizon :: pipePlaces

theorem Dev.clockReport_only (d : Dev) (isl : Nat) : d.changesOnly [.cut] clockPlaces (d.clockReport isl) :=
  Dev.changesOnly_mono (Dev.changesOnly_trans (Dev.changesOnly_trans (d.clockReads_only isl) (Dev.clockSheds_only _ isl)) (Dev.horizonReport_only _))
    (by decide) (by decide)

theorem Dev.engineCut_shadow (d : Dev) (c : Cut) : (d.engineCut c).cut.shadow = d.cut.shadow := rfl

/-- A lane that sheds leaves what is shadowed. -/
theorem Dev.shedLane_shadow (d : Dev) (p : Nat) : (d.shedLane p).cut.shadow = d.cut.shadow := by
  simp only [Dev.shedLane, apply_ite Dev.cut, apply_ite CutSt.shadow, Dev.engineCut_shadow, ite_self]

theorem Dev.clockSheds_shadow (d : Dev) (isl : Nat) : (d.clockSheds isl).cut.shadow = d.cut.shadow := by
  have hlanes : ((List.range 4).foldl Dev.shedLane d).cut.shadow = d.cut.shadow :=
    foldl_keeps (fun a => a.cut.shadow) Dev.shedLane Dev.shedLane_shadow (List.range 4) d
  rw [Dev.clockSheds]
  simp only [apply_ite Dev.cut, apply_ite CutSt.shadow, hlanes, ite_self]

theorem Dev.clockReport_shadow (d : Dev) (isl : Nat) : (d.clockReport isl).cut.shadow = d.cut.shadow := by
  rw [Dev.clockReport_eq, (Dev.horizonReport_only _).cut (by decide), Dev.clockSheds_shadow, (d.clockReads_only isl).cut (by decide)]

/-- The reports of the pipeline islands. -/
def Dev.pipelineClocks (d : Dev) : Dev := (List.range 5).foldl (fun (a : Dev) i => a.clockReport (i + 1)) d

theorem Dev.pipelineClocks_only (d : Dev) : d.changesOnly [.cut] clockPlaces d.pipelineClocks :=
  Dev.changesOnly_foldl _ (fun a i => Dev.clockReport_only a (i + 1)) _ d

theorem Dev.pipelineClocks_shadow (d : Dev) : d.pipelineClocks.cut.shadow = d.cut.shadow :=
  foldl_keeps (fun a => a.cut.shadow) _ (fun a i => Dev.clockReport_shadow a (i + 1)) _ d

/-! ### Nothing shadowed -/

/-- Nothing that came late takes effect where nothing is shadowed. -/
theorem Dev.shadowRest_of_nil {d : Dev} (h : d.cut.shadow = []) (first : Nat) : d.shadowRest first = d :=
  List.foldl_fixed' (fun i => by simp [h]) _

/-! ### The changeover is complete (R82, R83) -/

/-- The gap closes, and the hop table is kept in flash. -/
def Dev.gapCloses (d : Dev) : Dev := { d with boot := { d.boot with gapOpen := none }, tb := { d.tb with hopsFlash := d.tb.hops } }

/-- When the gap began, in module time. -/
def Dev.gapBegan (d : Dev) : Nat := match d.boot.gapOpen with | some x => d.now - (d.time96 - x) | none => d.now

/-- Full service is reported, with its first sample's time and what rushes service took. -/
def Dev.serviceReports (d : Dev) (first began : Nat) : Dev :=
  ((d.w0 Ix.modService 3).wTime Ix.modChangeoverSec first).wI Ix.modRushesMs 1 (d.msSinceP began)

/-- Full service reads from now on, and the time of its first sample. -/
theorem Dev.rd_serviceReports (d : Dev) (first began : Nat) :
    (d.serviceReports first began).rd Ix.modService 0 0 = 3 ∧ (d.serviceReports first began).rd Ix.modChangeoverSec 1 0 = sec48 first ∧
      (d.serviceReports first began).rd Ix.modChangeoverSec 2 0 = frac48 first := by
  have hsec : sec48 first < 2 ^ (8 * (5 + 1)) := Nat.mod_lt _ (by decide)
  have hfrac : frac48 first < 2 ^ (8 * (5 + 1)) := Nat.mod_lt _ (by decide)
  rw [Dev.serviceReports, Dev.wI]
  refine ⟨?_, ?_, ?_⟩
  · rw [(Dev.wr_only ..).rd _ _ (by decide), (Dev.wTime_only ..).rd _ _ (by decide)]
    exact Dev.rd_wr_fits d (v := 3) (n := 0) 0 (by decide) (by decide) (by decide)
  · rw [(Dev.wr_only ..).rd _ _ (by decide), Dev.wTime, Dev.wI, Dev.wI, Dev.rd_wr, if_neg (by decide)]
    exact Dev.rd_wr_fits _ 0 (by decide) (by decide) hsec
  · rw [(Dev.wr_only ..).rd _ _ (by decide), Dev.wTime, Dev.wI, Dev.wI]
    exact Dev.rd_wr_fits _ 0 (by decide) (by decide) hfrac

/-- The Capture Store runs, and the pool, the magazines, the rings' backlogs, the spool and the drives move to it (R82). -/
def Dev.movesToCapture (d : Dev) (m : Mem) : Mem × Dev :=
  let pool := d.capStart.poolStart m
  let takes := pool.2.takesMove pool.1
  (takes.1, takes.2.ringsMove.spoolStart.drivesStart)

/-- The parts and entries that the move to capture memory changes. -/
def captureParts : List Part := [.cap, .vp, .trg, .str] ++ codeParts
def capturePlaces : List Nat := Ix.capState :: Ix.strDrvState :: (handlePlaces ++ magMovePlaces ++ ringsMovePlaces)

theorem Dev.movesToCapture_only (d : Dev) (m : Mem) : d.changesOnly captureParts capturePlaces (d.movesToCapture m).2 :=
  Dev.changesOnly_mono (Dev.changesOnly_trans (Dev.changesOnly_trans (Dev.changesOnly_trans (Dev.changesOnly_trans (Dev.changesOnly_trans
    (Dev.wr_only d Ix.capState 0 0 _) (Dev.poolStart_only _ m)) (Dev.takesMove_only ..)) (Dev.ringsMove_only _)) (Dev.spoolStart_only _))
    (Dev.drivesStart_only _)) (by decide) (by decide)

/-- Full service begins, and what rushes service kept moves. -/
def Dev.changeoverMoves (d : Dev) (first : Nat) (m : Mem) : Mem × Dev := (d.gapCloses.serviceReports first d.gapBegan).movesToCapture m

/-- The device once everything has moved: a trial image is confirmed, the pipeline's reports follow. -/
def Dev.changeoverMade (d : Dev) (first : Nat) (m : Mem) : Dev := (d.changeoverMoves first m).2.trialConfirm.pipelineClocks

section
variable (d : Dev) (first : Nat) (m : Mem)

/-- What comes after the reports of full service: nothing of them changes, nor the time counter. -/
theorem Dev.changeoverMade_only :
    (d.gapCloses.serviceReports first d.gapBegan).changesOnly (.boot :: .cut :: captureParts) (Ix.modImageState :: (capturePlaces ++ clockPlaces))
      (d.changeoverMade first m) :=
  Dev.changesOnly_mono (Dev.changesOnly_trans (Dev.changesOnly_trans (Dev.movesToCapture_only _ m) (Dev.trialConfirm_only _)) (Dev.pipelineClocks_only _))
    (by decide) (by decide)

theorem Dev.changeoverMade_shadow : (d.changeoverMade first m).cut.shadow = d.cut.shadow := by
  rw [Dev.changeoverMade, Dev.pipelineClocks_shadow, (Dev.trialConfirm_only _).cut (by decide), Dev.changeoverMoves,
    (Dev.movesToCapture_only ..).cut (by decide)]
  rfl

theorem Dev.changeoverMade_gap : (d.changeoverMade first m).boot.gapOpen = none := by
  rw [Dev.changeoverMade, (Dev.pipelineClocks_only _).boot (by decide), Dev.trialConfirm_gap, Dev.changeoverMoves,
    (Dev.movesToCapture_only ..).boot (by decide)]
  rfl

theorem Dev.changeoverMade_tb : (d.changeoverMade first m).tb = { d.tb with hopsFlash := d.tb.hops } := (d.changeoverMade_only first m).tb (by decide)

theorem Dev.changeoverMade_now : (d.changeoverMade first m).now = d.now := (d.changeoverMade_only first m).now (by decide)

/-- TIME96 does not depend on the hop table's copy in flash. -/
theorem Dev.changeoverMade_time96 : (d.changeoverMade first m).time96 = d.time96 := by
  rw [Dev.time96, Dev.time96At, Dev.changeoverMade_tb, Dev.changeoverMade_now]
  rfl

end

/-- The degradations in force are reported, and that the changeover is complete. -/
def Dev.changeoverReported (d : Dev) : Dev := (d.setDegraded d.degradedNow).happen .changeover

theorem Dev.changeoverReported_only (d : Dev) :
    d.changesOnly (.pwr :: .out :: codeParts) (Ix.pwrDegraded :: eventPlaces ++ codePlaces) d.changeoverReported :=
  Dev.changesOnly_mono (Dev.changesOnly_trans (Dev.setDegraded_only d _) (Dev.happen_only ..)) (by decide) (by simp)

/-- The happening carries the present TIME96. -/
theorem Dev.changeoverReported_happens (d : Dev) : (d.time96, Happening.changeover) ∈ d.changeoverReported.out.happenings := by
  have hout : d.changeoverReported.out.happenings =
      (d.setDegraded d.degradedNow).out.happenings ++ [((d.setDegraded d.degradedNow).time96, Happening.changeover)] := rfl
  have htime : (d.setDegraded d.degradedNow).time96 = d.time96 := by
    rw [Dev.time96, Dev.time96At, (Dev.setDegraded_only ..).tb (by decide), (Dev.setDegraded_only ..).now (by decide), Dev.time96, Dev.time96At]
  rw [hout, htime]
  simp

section
variable {t first : Nat} {s : State} {e : Dev} (he : e = s.dev.at t) (hserv : e.service = 2) (hnone : ∀ c ∈ e.cut.engine, c.kind ≠ .changeover)
  (hlock : ∀ p ∈ e.tb.relocking, 12 < p.1) (hgap : ∀ x ∈ e.boot.gapOpen, x ≤ first)
include hserv hnone hlock hgap

/-- In the changeover's state, with its cut applied, every island locked and the gap behind, nothing holds its completion back. -/
theorem Dev.changeover_notHeld : (e.service != 2 || e.cut.engine.any (fun c => c.kind == .changeover) || e.tb.relocking.any (fun p => p.1 ≤ 12) ||
    e.boot.gapOpen.any (first < ·)) = false := by
  have hcuts : e.cut.engine.any (fun c => c.kind == .changeover) = false := List.any_eq_false.2 fun c hc => by simpa using hnone c hc
  have hlocks : e.tb.relocking.any (fun p => p.1 ≤ 12) = false := List.any_eq_false.2 fun p hp => by simpa using hlock p hp
  have hgaps : e.boot.gapOpen.any (first < ·) = false := by
    cases h : e.boot.gapOpen with
    | none => rfl
    | some x => simpa using hgap x h
  rw [hserv, hcuts, hlocks, hgaps]
  rfl

include he

theorem exec_changeoverComplete_eq (hsh : e.cut.shadow = []) : exec (.changeoverComplete t first) s =
    .next { s with mem := (e.changeoverMoves first s.mem).1, dev := (e.changeoverMade first s.mem).changeoverReported } := by
  subst he
  have hrest := Dev.shadowRest_of_nil ((Dev.changeoverMade_shadow (s.dev.at t) first s.mem).trans hsh) first
  rw [Dev.changeoverReported, ← hrest, exec_changeoverComplete, execChangeoverComplete, runMem]
  simp only [Dev.changeover_notHeld hserv hnone hlock hgap, Bool.false_eq_true, if_false]
  rfl

end

/-- Settles O15: nothing holds the completion back, and what follows the reports of full service leaves them, the gap and the time counter. -/
theorem changeoverCompletes : Obligations.ChangeoverCompletes := by
  unfold Obligations.ChangeoverCompletes
  intro t first s e he hserv hnone hlock hgap hsh
  have hmade := e.changeoverMade_only first s.mem
  have hrep := (e.changeoverMade first s.mem).changeoverReported_only
  obtain ⟨hservice, hsec, hfrac⟩ := e.gapCloses.rd_serviceReports first e.gapBegan
  refine ⟨_, _, exec_changeoverComplete_eq he hserv hnone hlock hgap hsh, ?_, ?_, ?_, ?_, ?_, ?_, ?_⟩
  · rw [hrep.rd _ _ (by decide), hmade.rd _ _ (by decide), hservice]
  · rw [hrep.boot (by decide), Dev.changeoverMade_gap]
  · rw [hrep.tb (by decide), Dev.changeoverMade_tb]
  · rw [← e.changeoverMade_time96 first s.mem]
    exact Dev.changeoverReported_happens _
  · rw [hrep.now (by decide), Dev.changeoverMade_now]
  · rw [hrep.rd _ _ (by decide), hmade.rd _ _ (by decide), hsec]
  · rw [hrep.rd _ _ (by decide), hmade.rd _ _ (by decide), hfrac]

end Sys2Proof.Machine
end

section
/-! PROOFS. A BAR2 read while the module enters its sleep (R289, R431): the refutation of O36. -/

namespace Sys2Proof.Machine

theorem exec_hostBar2Read (t addr len : Nat) (s : State) : exec (.hostBar2Read t addr len) s = execHostBar2Read t addr len s := rfl

/-- An event that names a unit of the module and may change capture memory completes exactly as its meaning on memory and device says. -/
theorem completesMem_iff {i : Instr} {ok : Bool} {t : Nat} {s : State} {f : Mem → Dev → Mem × Dev} {pl : List Part} {ps : List Nat}
    {post : Mem → Dev → Prop} (h : exec i s = runMemIf ok t s f) (hok : ok = true) :
    CompletesMem i t s pl ps post ↔
      (s.dev.at t).changesOnly pl ps (f s.mem (s.dev.at t)).2 ∧ post (f s.mem (s.dev.at t)).1 (f s.mem (s.dev.at t)).2 := by
  subst hok
  constructor
  · rintro ⟨m, d, he, hc, hp⟩
    rw [h] at he
    obtain ⟨rfl, rfl⟩ : (f s.mem (s.dev.at t)).1 = m ∧ (f s.mem (s.dev.at t)).2 = d := by simpa [runMemIf, runMem] using he
    exact ⟨hc, hp⟩
  · rintro ⟨hc, hp⟩
    exact completesMem_of_eq h rfl rfl hc hp

/-- Full service with the host link up; the module has been entering its sleep since instant 0, and PCIe access wakes it (source 2, enabled by
default). -/
def sleepEntryWithHost : State :=
  { State.reset with dev := { State.reset.dev.wr Ix.modService 0 0 3 with
      str := { State.reset.dev.str with linkUp := true }, pwr := { State.reset.dev.pwr with entering := some 0 } } }

/-- Refutes O36: a BAR2 read stops a sleep that is being entered (R431, Table 16.10), which changes the part `pwr`. The clause on reads in full
service lists `str`, `cap` and `ctr` alone and, unlike the one on writes in rushes service, does not ask that the access wakes nothing. -/
theorem not_ringDeliveryMessagesAndHost : ¬ Obligations.RingDeliveryMessagesAndHost := by
  unfold Obligations.RingDeliveryMessagesAndHost
  rintro ⟨-, -, -, -, -, -, -, -, -, -, -, hread, -⟩
  obtain ⟨⟨hparts, -⟩, -⟩ := (completesMem_iff (exec_hostBar2Read 0 0 0 sleepEntryWithHost) rfl).1
    (hread 0 0 0 sleepEntryWithHost _ rfl (by decide) rfl (by decide +kernel))
  have hpwr : (sleepEntryWithHost.dev.at 0).pwr = _ := hparts .pwr (by decide) (by decide)
  exact absurd (congrArg PwrSt.entering hpwr) (by decide +kernel)

end Sys2Proof.Machine
end

section
/-! PROOFS. Converter lanes and links: what the operations of Intake on them change, and what is read after them (R88, R104, R106, Tables 4.3
and 4.6). -/

namespace Sys2Proof.Machine

/-! ### What a frame leaves as it was -/

section
variable {pl : List Part} {ps : List Nat} {d e : Dev} (h : d.changesOnly pl ps e)
include h

theorem Dev.changesOnly.nI {ix : Nat} (hix : ix ∉ ps) : e.nI ix = d.nI ix := funext fun _ => congrArg Int.toNat (h.rd _ _ hix)

theorem Dev.changesOnly.itk (hp : Part.itk ∉ pl) : e.itk = d.itk := (h.1 .itk hp (by decide)).symm

theorem Dev.changesOnly.chn (hp : Part.chn ∉ pl) : e.chn = d.chn := (h.1 .chn hp (by decide)).symm

theorem Dev.changesOnly.flt (hp : Part.flt ∉ pl) : e.flt = d.flt := (h.1 .flt hp (by decide)).symm

theorem Dev.changesOnly.link (hp : Part.itk ∉ pl) : e.link = d.link := funext fun q => congrArg (fun x => x.links.get {} q) (h.itk hp)

theorem Dev.changesOnly.time96 (hn : Part.now ∉ pl) (ht : Part.tb ∉ pl) : e.time96 = d.time96 := by
  rw [Dev.time96, Dev.time96, Dev.time96At, Dev.time96At, h.now hn, h.tb ht]

theorem Dev.changesOnly.linkState (hs : Ix.itkLinkState ∉ ps) : e.linkState = d.linkState := h.nI hs

theorem Dev.changesOnly.lanesOf (hl : Ix.itkLayout ∉ ps) : e.lanesOf = d.lanesOf := funext fun q => by
  rw [Dev.lanesOf, Dev.lanesOf, h.nI hl]

theorem Dev.changesOnly.phys (hm : Ix.itkLaneMap ∉ ps) : e.phys = d.phys := funext fun n => by
  rw [Dev.phys, Dev.phys, h.nI hm]

theorem Dev.changesOnly.naming (hm : Ix.itkLaneMap ∉ ps) : e.naming = d.naming := funext fun n => by
  rw [Dev.naming, Dev.naming, h.phys hm]

/-- Which link a physical lane belongs to is a matter of the layouts and the lane map alone. -/
theorem Dev.changesOnly.linkOfPhys (hl : Ix.itkLayout ∉ ps) (hm : Ix.itkLaneMap ∉ ps) : e.linkOfPhys = d.linkOfPhys := by
  have hlink : e.linkOf = d.linkOf := funext fun n => by rw [Dev.linkOf, Dev.linkOf, h.lanesOf hl]
  funext n
  rw [Dev.linkOfPhys, Dev.linkOfPhys, h.naming hm, hlink]

/-- A count made after a frame that does not list it is a count of the device before. -/
theorem Dev.changesOnly.counted {x : Dev} {ix sub inst k : Nat} (hix : ix ∉ ps) (hc : e.counted x ix sub inst k) : d.counted x ix sub inst k := by
  rwa [Dev.counted, h.rd _ _ hix] at hc

/-- A frame that does not list a count leaves it counted. -/
theorem Dev.counted.after {x : Dev} {ix sub inst k : Nat} (hc : x.counted d ix sub inst k) (hix : ix ∉ ps) : x.counted e ix sub inst k := by
  rwa [Dev.counted, h.rd _ _ hix]

end

/-! ### Numbers and counts in entries -/

/-- The bits of an unsigned number are those of what it was written from. -/
theorem bitOf_normTy {ty n : Nat} (hn : typeBytes ty = n + 1) (hs : typeSigned ty = false) (v : Nat) {j : Nat} (hj : j < 8 * (n + 1)) :
    bitOf (normTy ty (v : Int)).toNat j = bitOf v j := by
  have hv : (normTy ty (v : Int)).toNat = v % 2 ^ (8 * (n + 1)) := by
    rw [normTy, if_neg (by omega), hs, hn, if_neg (by simp), toTwos]
    norm_cast
  rw [hv, bitOf_eq_testBit, bitOf_eq_testBit, Nat.testBit_mod_two_pow]
  simp [hj]

theorem typeOf_laneStatus {n : Nat} (hn : n < 64) : typeOf Ix.itkLaneStatus (n + 1) = 6 := by
  have h : ∀ k < 64, typeOf Ix.itkLaneStatus (k + 1) = 6 := by decide +kernel
  exact h n hn

theorem typeOf_linkState {q : Nat} (hq : q < 16) : typeOf Ix.itkLinkState (q + 1) = 5 := by
  have h : ∀ k < 16, typeOf Ix.itkLinkState (k + 1) = 5 := by decide
  exact h q hq

theorem Dev.inc_counted (d : Dev) (ix sub inst k : Nat) : d.counted (d.inc ix sub inst k) ix sub inst k := by
  rw [Dev.counted, Dev.rd_inc, if_pos ⟨rfl, rfl, rfl⟩]

theorem Dev.incI_only (d : Dev) (ix i k : Nat) : d.changesOnly [.ctr] [ix] (d.incI ix i k) := Dev.inc_only ..

/-- Several subentries that take one value: those listed read it. -/
theorem Dev.rd_foldl_wI (ix v : Nat) (l : List Nat) (d : Dev) (k : Nat) :
    (l.foldl (fun (a : Dev) n => a.wI ix n v) d).rd ix (k + 1) 0 = if k ∈ l then normTy (typeOf ix (k + 1)) v else d.rd ix (k + 1) 0 := by
  induction l generalizing d with
  | nil => rfl
  | cons n r ih =>
    rw [List.foldl_cons, ih, Dev.wI, Dev.rd_wr]
    by_cases hr : k ∈ r
    · simp [hr]
    · by_cases hn : n = k
      · simp [hn]
      · simp [hr, hn, Ne.symm hn]

/-- Counting several subentries leaves every other. -/
theorem Dev.rd_foldl_incI_other {l : List Nat} {i : Nat} (hi : i ∉ l) (d : Dev) (ix k : Nat) :
    (l.foldl (fun (a : Dev) n => a.incI ix n k) d).rd ix (i + 1) 0 = d.rd ix (i + 1) 0 := by
  induction l generalizing d with
  | nil => rfl
  | cons n r ih =>
    obtain ⟨hn, hr⟩ := not_or.1 (mt List.mem_cons.2 hi)
    rw [List.foldl_cons, ih hr, Dev.incI, Dev.rd_inc, if_neg (by omega)]

/-- Several subentries that are each counted once. -/
theorem Dev.foldl_incI_counted {l : List Nat} (hl : l.Nodup) (d : Dev) (ix k : Nat) :
    ∀ i ∈ l, d.counted (l.foldl (fun (a : Dev) n => a.incI ix n k) d) ix (i + 1) 0 k := by
  induction l generalizing d with
  | nil => intro i hi; cases hi
  | cons n r ih =>
    obtain ⟨hn, hr⟩ := List.nodup_cons.1 hl
    intro i hi
    rw [List.foldl_cons, Dev.counted]
    rcases List.mem_cons.1 hi with rfl | hi
    · rw [Dev.rd_foldl_incI_other hn]
      exact Dev.inc_counted d ..
    · have hne : n ≠ i := fun heq => hn (heq ▸ hi)
      rw [ih hr _ i hi, Dev.incI, Dev.rd_inc, if_neg (by omega)]

/-- A fault of a class is counted in its class (R482). -/
theorem Dev.fault_counted (d : Dev) (cls c isl inst value i : Nat) :
    d.counted (d.fault cls c isl inst value i) Ix.fltClassCount (cls - 1 + 1) 0 1 := by
  have hinc := Dev.inc_counted d Ix.fltClassCount (cls - 1 + 1) 0 1
  unfold Dev.fault
  dsimp only
  refine Dev.counted.after (Dev.logEntry_only ..) ?_ (by decide)
  have hmax : ∀ a : Dev, d.counted a Ix.fltClassCount (cls - 1 + 1) 0 1 → d.counted
      (if a.n0 Ix.fltInterruptMax < i then a.w0 Ix.fltInterruptMax i else a) Ix.fltClassCount (cls - 1 + 1) 0 1 := fun a ha =>
    Dev.counted.after (Dev.changesOnly_ite (fun _ => Dev.wr_only ..) fun _ => Dev.changesOnly_refl [] [Ix.fltInterruptMax] a) ha (by decide)
  split
  · exact hmax _ hinc
  · exact Dev.counted.after (Dev.raiseBase_only ..) (hmax _ hinc) (by decide)

/-- An event carries the present TIME96. -/
theorem Dev.happen_mem (d : Dev) (x : Happening) : (d.time96, x) ∈ (d.happen x).out.happenings :=
  List.mem_append_right _ (List.mem_singleton_self _)

/-! ### Links -/

theorem Dev.setLink_only (d : Dev) (q : Nat) (x : LinkSt) : d.changesOnly [.itk] [] (d.setLink q x) := Dev.itk_only ..

theorem Dev.link_setLink (d : Dev) (q : Nat) (x : LinkSt) : (d.setLink q x).link q = x := Tab.get_set_same ..

/-- A link's own state as it enters a state of Table 4.3. -/
def LinkSt.enters (x : LinkSt) (now : Nat) : LinkSt :=
  { x with entered := now, noLockRaised := false, absentRaised := false, periodRaised := false, crcFlag := false, crcDrop := false }

section
variable (d : Dev) (q : Nat) {st : Nat} (hs : st ∉ [1, 9])
include hs

/-- A link that does not start again keeps its locks. -/
theorem Dev.linkEnter_eq : d.linkEnter q st = (d.wI Ix.itkLinkState q st).setLink q ((d.link q).enters d.now) := by
  have hno : ¬ (st = 1 ∨ st = 9) := by simpa using hs
  exact if_neg (by simpa using hno)

theorem Dev.linkEnter_only : d.changesOnly [.itk] [Ix.itkLinkState] (d.linkEnter q st) := by
  rw [Dev.linkEnter_eq d q hs]
  exact Dev.changesOnly_trans (pl := []) (ps := [_]) (Dev.wr_only ..) (Dev.setLink_only ..)

theorem Dev.link_linkEnter : (d.linkEnter q st).link q = (d.link q).enters d.now := by
  rw [Dev.linkEnter_eq d q hs, Dev.link_setLink]

theorem Dev.lane_linkEnter : (d.linkEnter q st).lane = d.lane := by
  rw [Dev.linkEnter_eq d q hs]
  rfl

theorem Dev.rd_linkEnter (hq : q < 16) (hv : st < 256) : (d.linkEnter q st).rd Ix.itkLinkState (q + 1) 0 = st := by
  have hty := typeOf_linkState hq
  rw [Dev.linkEnter_eq d q hs, (Dev.setLink_only ..).rd _ _ (by decide), Dev.wI,
    Dev.rd_wr_fits (n := 0) d 0 (by rw [hty]; rfl) (by rw [hty]; rfl) hv]

end

/-- Every link of a lane of the module is one of its sixteen. -/
theorem Dev.linkOfPhys_lt {d : Dev} {n q : Nat} (hn : n < 64) (h : d.linkOfPhys n = some q) : q < 16 := by
  obtain ⟨k, hk, hq⟩ := List.exists_of_findSome?_eq_some h
  simp only [Dev.naming, List.mem_filter, List.mem_map, List.mem_range] at hk
  obtain ⟨⟨i, hi, rfl⟩, -⟩ := hk
  have hmem := List.mem_of_find?_eq_some hq
  simp only [List.mem_map, List.mem_range] at hmem
  obtain ⟨j, hj, rfl⟩ := hmem
  omega

/-! ### Lanes -/

theorem Dev.setLane_only (d : Dev) (n : Nat) (x : LaneSt) : d.changesOnly [.itk] [] (d.setLane n x) := Dev.itk_only ..

theorem Dev.laneBit_only (d : Dev) (n k : Nat) (b : Bool) : d.changesOnly [.itk] [Ix.itkLaneStatus] (d.laneBit n k b) := Dev.setStatus_only ..

theorem Dev.link_laneBit (d : Dev) (n k : Nat) (b : Bool) : (d.laneBit n k b).link = d.link := by
  funext q
  rw [Dev.link, Dev.laneBit, Dev.setStatus_itk]
  rfl

/-- A bit of a lane's status changes that status alone. -/
theorem Dev.lane_laneBit (d : Dev) (n k m : Nat) (b : Bool) :
    (d.laneBit n k b).lane m = if n = m then { d.lane m with status := setBitTo (d.lane m).status k b } else d.lane m := by
  rw [Dev.lane, Dev.laneBit, Dev.setStatus_itk, ← Dev.lane, Dev.lane_setLane]
  split
  · next h => rw [h]
  · rfl

theorem Dev.lane_laneBit_same (d : Dev) (n k : Nat) (b : Bool) :
    (d.laneBit n k b).lane n = { d.lane n with status := setBitTo (d.lane n).status k b } := by rw [Dev.lane_laneBit, if_pos rfl]

/-- The entries of the logical lanes that a physical lane feeds show its status (R106). -/
theorem Dev.laneBit_reported (d : Dev) {n j : Nat} (hn : n < 64) (hj : j < 16) (k : Nat) (b : Bool) :
    ∀ i ∈ d.naming n, bitOf ((d.laneBit n k b).nI Ix.itkLaneStatus i) j = bitOf (setBitTo (d.lane n).status k b) j := by
  intro i hi
  have hi64 : i < 64 := by
    simp only [Dev.naming, List.mem_filter, List.mem_map, List.mem_range] at hi
    obtain ⟨⟨m, hm, rfl⟩, -⟩ := hi
    omega
  have hty := typeOf_laneStatus hi64
  have hi' : i ∈ (d.setLane n { d.lane n with status := setBitTo (d.lane n).status k b }).naming n := by
    rwa [(Dev.setLane_only ..).naming (by decide)]
  rw [Dev.nI, Dev.laneBit, Dev.setStatus, Dev.perLane, Dev.rd_foldl_wI, if_pos hi',
    bitOf_normTy (n := 1) (by rw [hty]; rfl) (by rw [hty]; rfl) _ (by omega)]

theorem bitOf_setBitTo_false (n i : Nat) : bitOf (setBitTo n i false) i = false := by
  cases hbit : bitOf n i with
  | false => rw [setBitTo, hbit]; simpa using hbit
  | true =>
    have hodd : n / 2 ^ i % 2 = 1 := by simpa [bitOf] using hbit
    have hsub : (n - 2 ^ i) / 2 ^ i = n / 2 ^ i - 1 := by simpa using Nat.sub_mul_div n (2 ^ i) 1
    have heven : (n / 2 ^ i - 1) % 2 = 0 := by omega
    rw [setBitTo, hbit, if_neg (by simp), if_neg (by simp), bitOf, hsub, heven]
    rfl

/-- One bit of several logical lanes' physical lanes. -/
def Dev.laneBitAll (d : Dev) (l : List Nat) (k : Nat) (b : Bool) : Dev := l.foldl (fun (a : Dev) n => a.laneBit (a.phys n) k b) d

theorem Dev.laneBitAll_only (d : Dev) (l : List Nat) (k : Nat) (b : Bool) : d.changesOnly [.itk] [Ix.itkLaneStatus] (d.laneBitAll l k b) :=
  Dev.changesOnly_foldl _ (fun a _ => Dev.laneBit_only a ..) _ _

/-- A bit set on several lanes is set where it was and on each of them. -/
theorem Dev.laneBitAll_set (d : Dev) (l : List Nat) (k p : Nat) :
    bitOf ((d.laneBitAll l k true).lane p).status k = (bitOf (d.lane p).status k || decide (p ∈ l.map d.phys)) := by
  induction l generalizing d with
  | nil => simp [Dev.laneBitAll]
  | cons n r ih =>
    have hstep : d.laneBitAll (n :: r) k true = (d.laneBit (d.phys n) k true).laneBitAll r k true := rfl
    rw [hstep, ih, (Dev.laneBit_only ..).phys (by decide), Dev.lane_laneBit]
    by_cases hp : d.phys n = p
    · simp [hp, bitOf_setBitTo_true]
    · simp [hp, Ne.symm hp]

theorem Dev.laneBits_only (d : Dev) (q k : Nat) (b : Bool) : d.changesOnly [.itk] [Ix.itkLaneStatus] (d.laneBits q k b) := Dev.laneBitAll_only ..

theorem Dev.link_laneBits (d : Dev) (q k : Nat) (b : Bool) : (d.laneBits q k b).link = d.link :=
  foldl_keeps Dev.link _ (fun _ _ => Dev.link_laneBit ..) _ _

end Sys2Proof.Machine
end

section
/-! PROOFS. A converter link on its way to alignment (R96 to R102, Table 4.3). -/

namespace Sys2Proof.Machine

theorem exec_laneCalibrationDone (t n : Nat) (ok : Bool) (s : State) :
    exec (.laneCalibrationDone t n ok) s = execLaneCalibrationDone t n ok s := rfl
theorem exec_laneCdrLock (t q : Nat) (s : State) : exec (.laneCdrLock t q) s = execLaneCdrLock t q s := rfl
theorem exec_laneLock (t q : Nat) (prbs : List (Nat × Nat)) (s : State) : exec (.laneLock t q prbs) s = execLaneLock t q prbs s := rfl
theorem exec_multiblockLock (t q measured : Nat) (arrivals ilas : List Nat) (s : State) :
    exec (.multiblockLock t q measured arrivals ilas) s = execMultiblockLock t q measured arrivals ilas s := rfl
theorem exec_linkNoLock (t q : Nat) (b : Bool) (s : State) : exec (.linkNoLock t q b) s = execLinkNoLock t q b s := rfl
theorem exec_sysrefAbsent (t q : Nat) (s : State) : exec (.sysrefAbsent t q) s = execSysrefAbsent t q s := rfl
theorem exec_sysrefEdge (t p edge : Nat) (s : State) : exec (.sysrefEdge t p edge) s = execSysrefEdge t p edge s := rfl

/-! ### A lane's calibration (R102) -/

/-- A lane's calibration has ended, well or not. -/
def Dev.laneMarked (d : Dev) (n : Nat) (ok : Bool) : Dev := (d.setLane n { d.lane n with calFailed := !ok }).laneBit n 0 ok

/-- A fault of a lane is counted in class 3, logged and reported (R102, R103). -/
def Dev.laneFaulted (d : Dev) (n c : Nat) : Dev := (d.fault 3 c 1 n 0 0).happen (.laneFault n)

theorem Dev.laneMarked_only (d : Dev) (n : Nat) (ok : Bool) : d.changesOnly [.itk] [Ix.itkLaneStatus] (d.laneMarked n ok) :=
  Dev.changesOnly_mono (Dev.changesOnly_trans (Dev.setLane_only d n _) (Dev.laneBit_only ..)) (by decide) (by decide)

theorem Dev.lane_laneMarked (d : Dev) (n : Nat) (ok : Bool) :
    (d.laneMarked n ok).lane n = { d.lane n with calFailed := !ok, status := setBitTo (d.lane n).status 0 ok } := by
  rw [Dev.laneMarked, Dev.lane_laneBit_same, Dev.lane_setLane, if_pos rfl]

theorem Dev.laneFaulted_only (d : Dev) (n c : Nat) : d.changesOnly (.out :: codeParts) faultPlaces (d.laneFaulted n c) :=
  Dev.changesOnly_mono (Dev.changesOnly_trans (Dev.fault_only ..) (Dev.happen_only ..)) (by decide) (by simp)

theorem Dev.laneFaulted_counted (d : Dev) (n c : Nat) : d.counted (d.laneFaulted n c) Ix.fltClassCount 3 0 1 :=
  Dev.counted.after (Dev.happen_only ..) (Dev.fault_counted d 3 c 1 n 0 0) (by decide)

theorem Dev.laneFaulted_happens (d : Dev) (n c : Nat) : (d.time96, Happening.laneFault n) ∈ (d.laneFaulted n c).out.happenings := by
  rw [← (Dev.fault_only d 3 c 1 n 0 0).time96 (by decide) (by decide)]
  exact Dev.happen_mem ..

/-- A calibration that has passed changes, beside the lane, at most its link's time of calibration. -/
theorem Dev.laneCalibrated_passed (d : Dev) (n : Nat) :
    (d.laneCalibrated n true).lane = (d.laneMarked n true).lane ∧ (d.laneCalibrated n true).dict = (d.laneMarked n true).dict := by
  unfold Dev.laneCalibrated
  dsimp only
  split <;> exact ⟨rfl, rfl⟩

/-- A lane of a link has failed its calibration; from now the link's 10 ms count (R100). -/
def Dev.laneUncalibrated (d : Dev) (n q : Nat) : Dev := (d.laneMarked n false).setLink q { (d.laneMarked n false).link q with calAt := d.now }

theorem Dev.laneUncalibrated_only (d : Dev) (n q : Nat) : d.changesOnly [.itk] [Ix.itkLaneStatus] (d.laneUncalibrated n q) :=
  Dev.changesOnly_mono (Dev.changesOnly_trans (d.laneMarked_only n false) (Dev.setLink_only ..)) (by decide) (by decide)

theorem Dev.lane_laneUncalibrated (d : Dev) (n q : Nat) : (d.laneUncalibrated n q).lane = (d.laneMarked n false).lane := rfl

/-- A calibration that has failed takes a link in state 1 down. -/
theorem Dev.laneCalibrated_failed {d : Dev} {n q : Nat} (hq : d.linkOfPhys n = some q) (hst : d.linkState q = 1) :
    d.laneCalibrated n false = ((d.laneUncalibrated n q).laneFaulted n Code.laneCalFail).linkEnter q 7 := by
  have hmark := d.laneMarked_only n false
  have hlink : (d.laneMarked n false).linkOfPhys n = some q := by rw [hmark.linkOfPhys (by decide) (by decide), hq]
  have hnow : (d.laneMarked n false).now = d.now := hmark.now (by decide)
  unfold Dev.laneCalibrated
  dsimp only
  rw [← Dev.laneMarked.eq_def d n false, hlink]
  dsimp only
  rw [hnow, if_neg (by simp), ← Dev.laneUncalibrated.eq_def, ← Dev.laneFaulted.eq_def]
  exact if_pos (by rw [(Dev.laneFaulted_only ..).linkState (by decide), (Dev.laneUncalibrated_only ..).linkState (by decide), hst])

section
variable {t n : Nat} {s : State} {e : Dev} (he : e = s.dev.at t) (hn : n < 64)
include he hn

theorem laneCalibrationDone_passed :
    Completes (.laneCalibrationDone t n true) t s [.itk] [Ix.itkLaneStatus] fun d =>
      (d.lane n).calFailed = false ∧ bitOf (d.lane n).status 0 = true ∧ ∀ k ∈ e.naming n, bitOf (d.nI Ix.itkLaneStatus k) 0 = true := by
  subst he
  obtain ⟨hlane, hdict⟩ := (s.dev.at t).laneCalibrated_passed n
  have hset := bitOf_setBitTo_true ((s.dev.at t).lane n).status 0 0
  refine completesIf_of_eq (exec_laneCalibrationDone t n true s) (by simpa using hn) rfl (Dev.laneCalibrated_only ..) ⟨?_, ?_, ?_⟩
  · rw [hlane, Dev.lane_laneMarked]; rfl
  · rw [hlane, Dev.lane_laneMarked, hset]; simp
  · intro k hk
    have hrep := Dev.laneBit_reported ((s.dev.at t).setLane n { (s.dev.at t).lane n with calFailed := false }) hn (j := 0) (by decide) 0 true k
      (by rwa [(Dev.setLane_only ..).naming (by decide)])
    rw [Dev.nI, Dev.rd_congr hdict, ← Dev.nI, Dev.laneMarked]
    rw [Dev.lane_setLane, if_pos rfl, hset] at hrep
    rw [Bool.not_true, hrep]
    simp

theorem laneCalibrationDone_failed {q : Nat} (hq : e.linkOfPhys n = some q) (hst : e.linkState q = 1) :
    Completes (.laneCalibrationDone t n false) t s (.itk :: .out :: codeParts) (Ix.itkLaneStatus :: Ix.itkLinkState :: faultPlaces) fun d =>
      (d.lane n).calFailed = true ∧ bitOf (d.lane n).status 0 = false ∧ d.rd Ix.itkLinkState (q + 1) 0 = 7 ∧ e.counted d Ix.fltClassCount 3 0 1 := by
  have hq16 := Dev.linkOfPhys_lt hn hq
  subst he
  have hlane := (s.dev.at t).laneUncalibrated_only n q
  have hfault := ((s.dev.at t).laneUncalibrated n q).laneFaulted_only n Code.laneCalFail
  have hdown := (((s.dev.at t).laneUncalibrated n q).laneFaulted n Code.laneCalFail).linkEnter_only q (st := 7) (by decide)
  refine completesIf_of_eq (exec_laneCalibrationDone t n false s) (by simpa using hn) (Dev.laneCalibrated_failed hq hst)
    (Dev.changesOnly_mono (Dev.changesOnly_trans (Dev.changesOnly_trans hlane hfault) hdown) (by decide) (by decide)) ⟨?_, ?_, ?_, ?_⟩
  · rw [Dev.lane_linkEnter _ _ (by decide), hfault.lane (by decide), Dev.lane_laneUncalibrated, Dev.lane_laneMarked]
    rfl
  · rw [Dev.lane_linkEnter _ _ (by decide), hfault.lane (by decide), Dev.lane_laneUncalibrated, Dev.lane_laneMarked, bitOf_setBitTo_false]
  · exact Dev.rd_linkEnter _ _ (by decide) hq16 (by decide)
  · exact Dev.counted.after hdown (hlane.counted (by decide) (Dev.laneFaulted_counted ..)) (by decide)

end

/-! ### The locks (Table 4.3) -/

theorem Dev.is64_of_mode {d : Dev} {q : Nat} {r : ModeRow} (h : modeRow (d.nI Ix.itkMode q) = some r) : d.is64 q = r.is64 := by
  rw [Dev.is64, h]

section
variable {t q : Nat} {s : State} {e : Dev} (he : e = s.dev.at t) (hq : q < 16)
include he hq

theorem laneCdrLock_enters (hst : e.linkState q = 1) (hcal : e.calibrated q = true) (hheld : e.linkHeld q = false) :
    Completes (.laneCdrLock t q) t s [.itk] [Ix.itkLaneStatus, Ix.itkLinkState] fun d =>
      d.rd Ix.itkLinkState (q + 1) 0 = 2 ∧ (d.link q).entered = e.now := by
  subst he
  have hbits := Dev.changesOnly_step ((s.dev.at t).laneBits_only q 1 true) (Dev.laneBits_only _ q 2 true)
  refine completesIf_of_eq (exec_laneCdrLock t q s) (by simpa using hq) (if_pos (by rw [hst, hcal, hheld]; rfl))
    (Dev.changesOnly_mono (Dev.changesOnly_trans hbits (Dev.linkEnter_only _ q (by decide))) (by decide) (by decide))
    ⟨Dev.rd_linkEnter _ _ (by decide) hq (by decide), ?_⟩
  rw [Dev.link_linkEnter _ _ (by decide), hbits.now (by decide)]
  rfl

theorem laneLock_enters (prbs : List (Nat × Nat)) (hst : e.linkState q = 2) :
    Completes (.laneLock t q prbs) t s [.itk] [Ix.itkLaneStatus, Ix.itkLinkState] fun d =>
      d.rd Ix.itkLinkState (q + 1) 0 = 3 ∧ (d.link q).entered = e.now := by
  subst he
  have hbits := (s.dev.at t).laneBits_only q 4 true
  refine completesIf_of_eq (exec_laneLock t q prbs s) (by simpa using hq) (if_pos hst)
    (Dev.changesOnly_mono (Dev.changesOnly_trans hbits (Dev.linkEnter_only _ q (by decide))) (by decide) (by decide))
    ⟨Dev.rd_linkEnter _ _ (by decide) hq (by decide), ?_⟩
  rw [Dev.link_linkEnter _ _ (by decide), hbits.now (by decide)]
  rfl

/-- In state 9 the bit errors of a physical lane are counted under the logical lane it feeds (Tables 4.5, 4.6). -/
theorem laneLock_countsPrbs {n : Nat} (k : Nat) (hst : e.linkState q = 9) (hnaming : e.naming (e.phys n) = [n]) (hn : n ∈ e.lanesOf q)
    (hprbs : e.nI Ix.itkPrbs n ≠ 0) :
    Completes (.laneLock t q [(e.phys n, k)]) t s [.itk, .ctr] [Ix.itkLaneStatus, Ix.itkPrbsErrors] fun d =>
      e.counted d Ix.itkPrbsErrors (n + 1) 0 k ∧ bitOf (d.lane (e.phys n)).status 3 = true := by
  subst he
  have hbits := (s.dev.at t).laneBitAll_only (((s.dev.at t).lanesOf q).filter fun m => (s.dev.at t).nI Ix.itkPrbs m != 0) 3 true
  refine completesIf_of_eq (exec_laneLock t q _ s) (by simpa using hq) (x := ((s.dev.at t).laneBitAll _ 3 true).incI Ix.itkPrbsErrors n k) ?_
    (Dev.changesOnly_trans hbits (Dev.incI_only ..)) ⟨hbits.counted (by decide) (Dev.inc_counted ..), ?_⟩
  · rw [if_neg (by rw [hst]; decide), if_pos hst, List.foldl_cons, List.foldl_nil, ← Dev.laneBitAll.eq_def, Dev.perLane,
      hbits.naming (by decide), hnaming, List.foldl_cons, List.foldl_nil]
    exact if_neg (by rwa [hbits.nI (by decide)])
  · rw [(Dev.incI_only ..).lane (by decide), Dev.laneBitAll_set]
    simp only [Bool.or_eq_true, decide_eq_true_eq]
    exact .inr (List.mem_map_of_mem (List.mem_filter.2 ⟨hn, by simpa using hprbs⟩))

/-- Without a multiblock clock a 64B/66B link waits for SYSREF. -/
theorem multiblockLock_waits (measured : Nat) (arrivals ilas : List Nat) {r : ModeRow} (hst : e.linkState q = 3)
    (hmode : modeRow (e.nI Ix.itkMode q) = some r) (h64 : r.is64 = true) (hclock : (e.link q).clock = none) :
    Completes (.multiblockLock t q measured arrivals ilas) t s [.itk] [Ix.itkLaneStatus, Ix.itkLinkState] fun d =>
      d.rd Ix.itkLinkState (q + 1) 0 = 4 ∧ (d.link q).clock = none ∧ (d.link q).entered = e.now := by
  subst he
  have hbits := (s.dev.at t).laneBits_only q 5 true
  have henter := Dev.linkEnter_only ((s.dev.at t).laneBits q 5 true) q (st := 4) (by decide)
  refine completesIf_of_eq (exec_multiblockLock t q measured arrivals ilas s) (by simpa using hq)
    (x := (((s.dev.at t).laneBits q 5 true).linkEnter q 4).setLink q { (((s.dev.at t).laneBits q 5 true).linkEnter q 4).link q with clock := none }) ?_
    (Dev.changesOnly_mono (Dev.changesOnly_trans (Dev.changesOnly_trans hbits henter) (Dev.setLink_only ..)) (by decide) (by decide)) ⟨?_, ?_, ?_⟩
  · rw [if_pos hst, if_neg (by rw [Dev.is64_of_mode hmode, h64]; simp)]
    exact if_neg (by rw [Dev.link_laneBits, hclock]; simp)
  · rw [(Dev.setLink_only ..).rd _ _ (by decide)]
    exact Dev.rd_linkEnter _ _ (by decide) hq (by decide)
  · rw [Dev.link_setLink]
  · rw [Dev.link_setLink, Dev.link_linkEnter _ _ (by decide), hbits.now (by decide)]
    rfl

theorem multiblockLock_mismatch (measured : Nat) (arrivals : List Nat) {ilas : List Nat} {r : ModeRow} (hst : e.linkState q = 3)
    (hmode : modeRow (e.nI Ix.itkMode q) = some r) (h64 : r.is64 = false) (hilas : ilas ≠ e.ilasWanted q) (hroom : e.sup.emergencies.length < 32) :
    Completes (.multiblockLock t q measured arrivals ilas) t s (.itk :: codeParts) (Ix.itkLinkState :: codePlaces) fun d =>
      d.rd Ix.itkLinkState (q + 1) 0 = 8 ∧ d.reports 4 Code.ilasMismatch := by
  subst he
  have henter := Dev.linkEnter_only (s.dev.at t) q (st := 8) (by decide)
  refine completesIf_of_eq (exec_multiblockLock t q measured arrivals ilas s) (by simpa using hq)
    (x := ((s.dev.at t).linkEnter q 8).raise 4 Code.ilasMismatch) ?_ (Dev.changesOnly_trans henter (Dev.raise_only ..)) ⟨?_, ?_⟩
  · rw [if_pos hst]
    exact if_pos (by rw [Dev.is64_of_mode hmode, h64]; simpa using hilas)
  · rw [(Dev.raise_only ..).rd _ _ (by decide)]
    exact Dev.rd_linkEnter _ _ (by decide) hq (by decide)
  · exact Dev.raise_places _ 4 Code.ilasMismatch (by rwa [henter.sup (by decide)]) (by decide) (by decide)

/-! ### What does not come within 10 ms (R100, Table 4.3) -/

theorem linkNoLock_raises (b : Bool) {x : LinkSt} (hx : e.link q = x) (hst : e.linkState q = 2) (honce : x.noLockRaised = false)
    (hlate : x.entered + ms 10 ≤ e.now) (hheld : e.linkHeld q = false) (hroom : e.sup.emergencies.length < 32) :
    Completes (.linkNoLock t q b) t s (.itk :: codeParts) codePlaces fun d =>
      d.link q = { x with noLockRaised := true } ∧ d.reports 4 Code.linkNoLock := by
  subst he hx
  have hset := (s.dev.at t).setLink_only q { (s.dev.at t).link q with noLockRaised := true }
  refine completesIf_of_eq (exec_linkNoLock t q b s) (by simpa using hq)
    (x := ((s.dev.at t).setLink q { (s.dev.at t).link q with noLockRaised := true }).raise 4 Code.linkNoLock) ?_
    (Dev.changesOnly_trans hset (Dev.raise_only ..)) ⟨?_, ?_⟩
  · simp only [hst, honce, hheld]
    exact if_pos (by simpa using hlate)
  · rw [(Dev.raise_only ..).link (by decide), Dev.link_setLink]
  · exact Dev.raise_places _ 4 Code.linkNoLock (by rwa [hset.sup (by decide)]) (by decide) (by decide)

theorem sysrefAbsent_raises {x : LinkSt} (hx : e.link q = x) (hst : e.linkState q = 4) (honce : x.absentRaised = false)
    (hlate : x.entered + ms 10 ≤ e.now) (hroom : e.sup.emergencies.length < 32) :
    Completes (.sysrefAbsent t q) t s (.itk :: codeParts) codePlaces fun d =>
      d.link q = { x with absentRaised := true } ∧ d.reports 4 Code.sysrefAbsent := by
  subst he hx
  have hset := (s.dev.at t).setLink_only q { (s.dev.at t).link q with absentRaised := true }
  refine completesIf_of_eq (exec_sysrefAbsent t q s) (by simpa using hq) (if_pos (by simp [-Dev.nI_eq, hst, honce, hlate]))
    (Dev.changesOnly_trans hset (Dev.raise_only ..)) ⟨?_, ?_⟩
  · rw [(Dev.raise_only ..).link (by decide), Dev.link_setLink]
  · exact Dev.raise_places _ 4 Code.sysrefAbsent (by rwa [hset.sup (by decide)]) (by decide) (by decide)

end

/-! ### SYSREF (R96, R97) -/

/-- The internal copy of SYSREF passes no delay. -/
theorem Dev.sysrefAt_internal {d : Dev} {p : Nat} (h : d.nI Ix.itkSysrefSrc p ≠ 1) (edge : Nat) : d.sysrefAt p edge = 2 * edge := by
  rw [Dev.sysrefAt, if_neg h, Nat.add_zero]

/-- An edge of the internal SYSREF goes to the one link of its port, as it is sampled. -/
theorem exec_sysrefEdge_internal {t p edge q : Nat} {s : State} {e : Dev} (he : e = s.dev.at t) (hp : p < 4) (hsrc : e.nI Ix.itkSysrefSrc p ≠ 1)
    (hport : e.portLinks p = [q]) :
    exec (.sysrefEdge t p edge) s = .next { s with dev := e.linkSysref p (ceilDiv (2 * edge) 625) q } := by
  subst he
  rw [exec_sysrefEdge, execSysrefEdge, runIf, run]
  dsimp only
  rw [if_pos (by simpa using hp), if_neg hsrc, hport, Dev.sysrefAt_internal hsrc, List.foldl_cons, List.foldl_nil]

/-- A link has seen an edge of SYSREF. -/
def Dev.edgeSeen (d : Dev) (q n : Nat) : Dev := d.setLink q { d.link q with lastEdge := some n }

/-- Its multiblock clock is set from that edge, and it is aligned. -/
def Dev.linkAligned (d : Dev) (q n : Nat) : Dev := (((d.edgeSeen q n).setClock q n).laneBits q 7 false).linkEnter q 5

theorem Dev.edgeSeen_only (d : Dev) (q n : Nat) : d.changesOnly [.itk] [] (d.edgeSeen q n) := Dev.setLink_only ..

/-- The first edge that a link in state 4 sees is kept for the next. -/
theorem Dev.linkSysref_first {d : Dev} {p n q : Nat} (hst : d.linkState q = 4) (hlast : (d.link q).lastEdge = none) :
    d.linkSysref p n q = d.edgeSeen q n := by
  unfold Dev.linkSysref
  dsimp only
  rw [if_pos hst, hlast]
  rfl

/-- An edge that closes a conforming spacing on every link of its port sets the multiblock clock, and the link is aligned. -/
theorem Dev.linkSysref_conforming {d : Dev} {p n q y : Nat} (hst : d.linkState q = 4) (hlast : (d.link q).lastEdge = some y) (hy : y < n)
    (hconf : ∀ k ∈ d.portLinks p, d.conforms k (n - y) = true) :
    d.linkSysref p n q = d.linkAligned q n := by
  have hall : ((d.edgeSeen q n).portLinks p).all (fun k => (d.edgeSeen q n).conforms k (n - y)) = true := List.all_eq_true.2 hconf
  unfold Dev.linkSysref
  dsimp only
  rw [if_pos hst, hlast]
  exact if_pos (by rw [← Dev.edgeSeen.eq_def, hall, decide_eq_true hy]; rfl)

theorem Dev.setClock_only (d : Dev) (q n : Nat) : d.changesOnly [.itk] [Ix.itkSysrefSec, Ix.itkSysrefFrac] (d.setClock q n) :=
  Dev.changesOnly_trans (pl := [.itk]) (ql := []) (ps := [_]) (Dev.changesOnly_trans (pl := [.itk]) (ql := []) (ps := []) (Dev.setLink_only ..)
    (Dev.wr_only ..)) (Dev.wr_only ..)

theorem Dev.link_setClock (d : Dev) (q n : Nat) : (d.setClock q n).link q =
    { d.link q with clock := some n, gridMoved := false, checked := false, anchor := none, index := 0 } := Dev.link_setLink ..

theorem typeOf_sysrefTime {q : Nat} (hq : q < 16) : typeOf Ix.itkSysrefSec (q + 1) = 0x19 ∧ typeOf Ix.itkSysrefFrac (q + 1) = 0x19 := by
  have h : ∀ k < 16, typeOf Ix.itkSysrefSec (k + 1) = 0x19 ∧ typeOf Ix.itkSysrefFrac (k + 1) = 0x19 := by decide
  exact h q hq

/-- The clock's edge is kept with its TIME96 (R97). -/
theorem Dev.rd_setClock (d : Dev) {q : Nat} (hq : q < 16) (n : Nat) :
    (d.setClock q n).rd Ix.itkSysrefSec (q + 1) 0 = sec48 d.time96 ∧ (d.setClock q n).rd Ix.itkSysrefFrac (q + 1) 0 = frac48 d.time96 := by
  obtain ⟨hsec, hfrac⟩ := typeOf_sysrefTime hq
  have hs : sec48 d.time96 < 2 ^ 48 := Nat.mod_lt _ (by decide)
  have hf : frac48 d.time96 < 2 ^ 48 := Nat.mod_lt _ (by decide)
  constructor
  · rw [Dev.setClock, Dev.wI, (Dev.wr_only ..).rd _ _ (by decide)]
    exact Dev.rd_wr_fits (n := 5) _ 0 (by rw [hsec]; rfl) (by rw [hsec]; rfl) hs
  · exact Dev.rd_wr_fits (n := 5) _ 0 (by rw [hfrac]; rfl) (by rw [hfrac]; rfl) hf

theorem Dev.linkAligned_only (d : Dev) (q n : Nat) :
    d.changesOnly [.itk] [Ix.itkSysrefSec, Ix.itkSysrefFrac, Ix.itkLaneStatus, Ix.itkLinkState] (d.linkAligned q n) :=
  Dev.changesOnly_mono (Dev.changesOnly_trans (Dev.changesOnly_trans (Dev.changesOnly_trans (d.edgeSeen_only q n) (Dev.setClock_only ..))
    (Dev.laneBits_only ..)) (Dev.linkEnter_only _ q (by decide))) (by decide) (by decide)

theorem Dev.link_linkAligned (d : Dev) (q n : Nat) : ((d.linkAligned q n).link q).clock = some n ∧ ((d.linkAligned q n).link q).anchor = none ∧
    ((d.linkAligned q n).link q).gridMoved = false := by
  rw [Dev.linkAligned, Dev.link_linkEnter _ _ (by decide), Dev.link_laneBits, Dev.link_setClock]
  exact ⟨rfl, rfl, rfl⟩

theorem Dev.rd_linkAligned (d : Dev) {q : Nat} (hq : q < 16) (n : Nat) :
    (d.linkAligned q n).rd Ix.itkLinkState (q + 1) 0 = 5 ∧ (d.linkAligned q n).rd Ix.itkSysrefSec (q + 1) 0 = sec48 d.time96 ∧
    (d.linkAligned q n).rd Ix.itkSysrefFrac (q + 1) 0 = frac48 d.time96 := by
  obtain ⟨hsec, hfrac⟩ := (d.edgeSeen q n).rd_setClock hq n
  have henter := Dev.linkEnter_only (((d.edgeSeen q n).setClock q n).laneBits q 7 false) q (st := 5) (by decide)
  refine ⟨Dev.rd_linkEnter _ _ (by decide) hq (by decide), ?_, ?_⟩
  · rw [Dev.linkAligned, henter.rd _ _ (by decide), (Dev.laneBits_only ..).rd _ _ (by decide), hsec,
      (Dev.edgeSeen_only ..).time96 (by decide) (by decide)]
  · rw [Dev.linkAligned, henter.rd _ _ (by decide), (Dev.laneBits_only ..).rd _ _ (by decide), hfrac,
      (Dev.edgeSeen_only ..).time96 (by decide) (by decide)]

section
variable {t p edge q : Nat} {s : State} {e : Dev} {x : LinkSt} (he : e = s.dev.at t) (hp : p < 4) (hsrc : e.nI Ix.itkSysrefSrc p ≠ 1)
  (hport : e.portLinks p = [q]) (hst : e.linkState q = 4) (hx : e.link q = x)
include he hp hsrc hport hst hx

theorem sysrefEdge_first (hlast : x.lastEdge = none) :
    Completes (.sysrefEdge t p edge) t s [.itk] [] fun d => d.link q = { x with lastEdge := some (ceilDiv (2 * edge) 625) } := by
  subst hx
  have hexec := exec_sysrefEdge_internal (edge := edge) he hp hsrc hport
  rw [Dev.linkSysref_first hst hlast] at hexec
  refine ⟨_, hexec, ?_, Dev.link_setLink ..⟩
  rw [← he]
  exact Dev.edgeSeen_only ..

theorem sysrefEdge_aligns (hq : q < 16) {y n : Nat} (hlast : x.lastEdge = some y) (hn : n = ceilDiv (2 * edge) 625) (hy : y < n)
    (hconf : e.conforms q (n - y) = true) :
    Completes (.sysrefEdge t p edge) t s [.itk] [Ix.itkSysrefSec, Ix.itkSysrefFrac, Ix.itkLaneStatus, Ix.itkLinkState] fun d =>
      d.rd Ix.itkLinkState (q + 1) 0 = 5 ∧ (d.link q).clock = some n ∧ (d.link q).anchor = none ∧ (d.link q).gridMoved = false ∧
      d.rd Ix.itkSysrefSec (q + 1) 0 = sec48 e.time96 ∧ d.rd Ix.itkSysrefFrac (q + 1) 0 = frac48 e.time96 := by
  subst hx hn
  have hall : ∀ k ∈ e.portLinks p, e.conforms k (ceilDiv (2 * edge) 625 - y) = true := fun k hk => by
    rw [hport, List.mem_singleton] at hk
    rw [hk, hconf]
  obtain ⟨hclock, hanchor, hgrid⟩ := e.link_linkAligned q (ceilDiv (2 * edge) 625)
  obtain ⟨hstate, hsec, hfrac⟩ := e.rd_linkAligned hq (ceilDiv (2 * edge) 625)
  have hexec := exec_sysrefEdge_internal (edge := edge) he hp hsrc hport
  rw [Dev.linkSysref_conforming hst hlast hy hall] at hexec
  refine ⟨_, hexec, ?_, hstate, hclock, hanchor, hgrid, hsec, hfrac⟩
  rw [← he]
  exact Dev.linkAligned_only ..

end

/-- Settles O17, clause by clause: the commands on lanes, the locks, what is late, and the edges of SYSREF. -/
theorem linksAlign : Obligations.LinksAlign := by
  unfold Obligations.LinksAlign
  refine ⟨fun t n s e he hn => laneCalibrationDone_passed he hn, fun t n s e q he hn => laneCalibrationDone_failed he hn,
    fun t q s e he hq => laneCdrLock_enters he hq, fun t q prbs s e he hq => laneLock_enters he hq prbs, ?_,
    fun t q measured arrivals ilas s e r he hq => multiblockLock_waits he hq measured arrivals ilas,
    fun t q measured arrivals ilas s e r he hq => multiblockLock_mismatch he hq measured arrivals,
    fun t q b s e x he hq => linkNoLock_raises he hq b, fun t q s e x he hq => sysrefAbsent_raises he hq, ?_, ?_⟩
  · intro t q s e n k he hq hst hnaming _ hn hprbs
    exact laneLock_countsPrbs he hq k hst hnaming hn hprbs
  · intro t p edge s e q x he hp hsrc hport _ hst hx hlast
    exact sysrefEdge_first he hp hsrc hport hst hx hlast
  · intro t p edge s e q x y n he hp hsrc hport hq hst hx hlast hn hy hconf
    exact sysrefEdge_aligns he hp hsrc hport hst hx hq hlast hn hy hconf

end Sys2Proof.Machine
end

section
/-! PROOFS. An aligned link: its releases, a lane's fault, the relink, CRC-12 errors (R93, R98, R99, R103 to R105). -/

namespace Sys2Proof.Machine

theorem exec_laneFault (t n cond : Nat) (s : State) : exec (.laneFault t n cond) s = execLaneFault t n cond s := rfl
theorem exec_relinkComplete (t q : Nat) (s : State) : exec (.relinkComplete t q) s = execRelinkComplete t q s := rfl
theorem exec_crcError (t n mb k : Nat) (s : State) : exec (.crcError t n mb k) s = execCrcError t n mb k s := rfl

/-! ### What frames leave as it was -/

section
variable {pl : List Part} {ps : List Nat} {d e : Dev} (h : d.changesOnly pl ps e)
include h

theorem Dev.changesOnly.linkFs (hf : Ix.itkFs ∉ ps) : e.linkFs = d.linkFs := h.nI hf

theorem Dev.changesOnly.linkOver (hf : Ix.itkFs ∉ ps) (hm : Ix.itkMode ∉ ps) (hi : Ix.tbIslFreq ∉ ps) (hp : Ix.tbPllState ∉ ps) :
    e.linkOver = d.linkOver := funext fun q => by
  rw [Dev.linkOver, Dev.linkOver, h.linkFs hf, h.nI hm, h.nI hi, h.nI hp]

theorem Dev.changesOnly.linkSuspended (hb : Part.boot ∉ pl) (hf : Part.flt ∉ pl) : e.linkSuspended = d.linkSuspended := funext fun q => by
  rw [Dev.linkSuspended, Dev.linkSuspended, h.boot hb, h.flt hf]

end

/-- How a link's words are read and converted is a matter of its entries alone. -/
theorem Dev.linkWords_frame {pl : List Part} {d e : Dev} (h : d.changesOnly pl [] e) : e.linkWords = d.linkWords := by
  funext q l
  unfold Dev.linkWords
  rw [h.nI List.not_mem_nil]

theorem Dev.convert_frame {pl : List Part} {d e : Dev} (h : d.changesOnly pl [] e) : e.convert = d.convert := by
  have hread : ∀ ix, e.nI ix = d.nI ix := fun _ => h.nI List.not_mem_nil
  funext q raw
  simp only [Dev.convert, hread]

theorem Dev.convertSample_frame {pl : List Part} {d e : Dev} (h : d.changesOnly pl [] e) : e.convertSample = d.convertSample := by
  have hread : ∀ ix, e.nI ix = d.nI ix := fun _ => h.nI List.not_mem_nil
  funext q crc w
  simp only [Dev.convertSample, hread, Dev.convert_frame h]

theorem Dev.fullFrom_frame {pl : List Part} {d e : Dev} (h : d.changesOnly pl [] e) : e.fullFrom = d.fullFrom := by
  have hservice : e.service = d.service := congrArg Int.toNat (h.rd _ _ List.not_mem_nil)
  rw [Dev.fullFrom, Dev.fullFrom, Dev.fullService, Dev.fullService, hservice, h.nI List.not_mem_nil]

/-! ### Lanes' octets (R88, R91) -/

/-- Taking octets in changes of the device nothing but what the lanes keep of them. -/
theorem Dev.laneOctets_setLane (d : Dev) (q n : Nat) (l : List Nat) : ∃ p x, (d.laneOctets q n l).2 = d.setLane p x := by
  unfold Dev.laneOctets
  dsimp only
  split <;> exact ⟨_, _, rfl⟩

theorem Dev.linkOctets_keeps (d : Dev) (q : Nat) (octets : List (List Nat)) :
    d.changesOnly [.itk] [] (d.linkOctets q octets).2 ∧ (d.linkOctets q octets).2.link = d.link := by
  unfold Dev.linkOctets
  refine List.foldlRecOn _ _ (motive := fun p : List (List Nat) × Dev => d.changesOnly [.itk] [] p.2 ∧ p.2.link = d.link) ⟨Dev.changesOnly_refl .., rfl⟩ ?_
  intro p ⟨hframe, hlink⟩ n _
  obtain ⟨ph, x, hset⟩ := p.2.laneOctets_setLane q n (octets.getD (p.2.phys n % 16) [])
  dsimp only
  rw [hset]
  exact ⟨Dev.changesOnly_step hframe (Dev.setLane_only ..), hlink⟩

/-! ### A release (R98, R99) -/

/-- The complex samples of a block that a spectral lane takes directly are counted (R36). -/
def Dev.blockAnalysed (d : Dev) (q n : Nat) : Dev :=
  match d.wideOf q with
  | some p => d.analysed p 1 (match modeRow (d.nI Ix.itkMode q) with | some r => n * r.m / 2 | none => n)
  | none => d

/-- A block of converted samples crosses into the Channeliser, its first sample under an index (R17, R95). -/
def Dev.blockCrosses (d : Dev) (q index : Nat) (block : List Sample) : Dev :=
  ((d.incI Ix.itkOvrCount q (block.filter (fun p => p.ovr != 0)).length).crossInto (0x10 + q) index block).blockAnalysed q block.length

/-- It is the link's last, with its stamp (R99). -/
def Dev.blockLeaves (d : Dev) (q index stamp : Nat) (block : List Sample) : Dev :=
  ((d.blockCrosses q index block).setLink q { (d.blockCrosses q index block).link q with stamp := stamp, block := block }).tally 0x0110 q block.length

theorem Dev.chn_only (d : Dev) (x : ChnSt) : d.changesOnly [.chn] [] { d with chn := x } :=
  ⟨fun p hp hd => by cases p <;> simp_all [Part.agrees], fun _ _ _ _ => rfl⟩

theorem Dev.analysed_only (d : Dev) (p src n : Nat) : d.changesOnly [.ctr] [Ix.pwrAnalysedSamples] (d.analysed p src n) :=
  Dev.changesOnly_ite (fun _ => Dev.inc_only ..) fun _ => Dev.changesOnly_refl ..

theorem Dev.blockAnalysed_only (d : Dev) (q n : Nat) : d.changesOnly [.ctr] [Ix.pwrAnalysedSamples] (d.blockAnalysed q n) := by
  unfold Dev.blockAnalysed
  cases d.wideOf q with
  | none => exact Dev.changesOnly_refl ..
  | some p => exact Dev.analysed_only ..

theorem Dev.crossInto_only (d : Dev) (code index : Nat) (l : List Sample) : d.changesOnly [.chn] [] (d.crossInto code index l) := Dev.chn_only ..

section
variable (d : Dev) (q index stamp : Nat) (block : List Sample)

theorem Dev.blockCrosses_only : d.changesOnly [.chn, .ctr] [Ix.itkOvrCount, Ix.pwrAnalysedSamples] (d.blockCrosses q index block) :=
  Dev.changesOnly_mono (Dev.changesOnly_trans (Dev.changesOnly_trans (Dev.incI_only ..) (Dev.crossInto_only ..)) (Dev.blockAnalysed_only ..)) (by decide)
    (by decide)

theorem Dev.blockLeaves_only : d.changesOnly [.itk, .chn, .ctr] [Ix.itkOvrCount, Ix.pwrAnalysedSamples] (d.blockLeaves q index stamp block) :=
  Dev.changesOnly_mono (Dev.changesOnly_trans (Dev.changesOnly_trans (Dev.blockCrosses_only ..) (Dev.setLink_only ..)) (Dev.tally_only ..)) (by decide)
    (by decide)

theorem Dev.link_blockLeaves : (d.blockLeaves q index stamp block).link q = { d.link q with stamp := stamp, block := block } := by
  rw [Dev.blockLeaves, (Dev.tally_only ..).link (by decide), Dev.link_setLink, (Dev.blockCrosses_only ..).link (by decide)]

/-- The words of a crossing whose device's frame does not list the Channeliser are as before. -/
theorem Dev.changesOnly.crossing {pl : List Part} {ps : List Nat} {d e : Dev} (h : d.changesOnly pl ps e) (hp : Part.chn ∉ pl) :
    e.crossing = d.crossing := funext fun code => congrArg (fun x => x.input.get {} code) (h.chn hp)

theorem Dev.crossing_blockLeaves : (d.blockLeaves q index stamp block).crossing (0x10 + q) =
    (d.crossing (0x10 + q)).present (block.zipIdx.map (fun p => (index + p.2, p.1))) := by
  rw [Dev.blockLeaves, (Dev.tally_only ..).crossing (by decide), (Dev.setLink_only ..).crossing (by decide), Dev.blockCrosses,
    (Dev.blockAnalysed_only ..).crossing (by decide),
    ← (Dev.incI_only d Ix.itkOvrCount q (block.filter (fun p => p.ovr != 0)).length).crossing (by decide)]
  exact Tab.get_set_same (α := Crossing) {} _ _ _

end

/-- What a link keeps of a release: its anchor, the index of its next sample, and nothing that waited for it. -/
def LinkSt.releases (x : LinkSt) (a n : Nat) : LinkSt := { x with anchor := some a, index := x.index + n, crcFlag := false, crcDrop := false }

/-- A link without an open gap has none to close. -/
theorem Dev.closeLinkGap_of_none {d : Dev} {q : Nat} (h : (d.link q).gapFirst = none) (stamp : Nat) : d.closeLinkGap q stamp = d := by
  unfold Dev.closeLinkGap
  rw [h]

/-- How many of a block's samples, at a rate, lie before full service, in the changeover's gap (R83). -/
def Dev.skippedSamples (d : Dev) (fs a index n : Nat) : Nat :=
  ((List.range n).takeWhile fun i => sampleTime a (index + i) fs < d.fullFrom).length

/-- A block whose first sample is in full service skips none. -/
theorem Dev.skippedSamples_of_fullService {d : Dev} {fs a index : Nat} (h : d.fullFrom ≤ sampleTime a index fs) (n : Nat) :
    d.skippedSamples fs a index n = 0 := by
  rw [Dev.skippedSamples, List.length_eq_zero_iff, List.takeWhile_eq_nil_iff]
  intro hpos
  simpa using h

/-- A block that a CRC-12 error discards is a gap (R105). -/
def Dev.blockDropped (d : Dev) (q fs a index n : Nat) : Dev :=
  (d.gap ⟨.link q, 1, sampleTime a index fs, sampleTime a (index + n) fs, n, 0, 1⟩).incI Ix.itkGapSamples q n

/-- A block is converted and leaves, from its first sample in full service on. -/
def Dev.blockConverted (d : Dev) (q fs a index : Nat) (crc : Bool) (raw : List (Nat × Nat)) : Dev :=
  let skip := d.skippedSamples fs a index raw.length
  let d := if 0 < skip then d.openLinkGap q (sampleTime a index fs) 9 else d
  let d := if skip = raw.length then d else d.closeLinkGap q (sampleTime a (index + skip) fs)
  d.blockLeaves q (sampleIndex a fs + index + skip) (sampleTime a (index + skip) fs) ((raw.drop skip).map (d.convertSample q crc))

/-- What is at hand of a link is released from an anchor on: held back, discarded or converted. -/
def Dev.blockReleased (d : Dev) (q fs a : Nat) (x : LinkSt) (raw : List (Nat × Nat)) : Dev :=
  let d := d.setLink q (x.releases a raw.length)
  if d.linkOver q || d.linkSuspended q then d.openLinkGap q (sampleTime a x.index fs) 10
  else if x.crcDrop then d.blockDropped q fs a x.index raw.length
  else d.blockConverted q fs a x.index x.crcFlag raw

/-- MULTIBLOCK_RELEASE as its parts: code errors, the check of an alignment not yet checked, the release. -/
def Dev.multiblockReleased (d : Dev) (q measured : Nat) (arrivals : List Nat) (codes : List (Nat × List Nat)) (octets : List (List Nat)) : Dev :=
  let d := codes.foldl (fun (a : Dev) p => a.codeErrors p.1 p.2) d
  if d.linkState q != 5 then d
  else
    let d := if (d.link q).checked then d else d.alignCheck q measured arrivals
    if d.linkState q != 5 then d
    else
      let (lanes, d) := d.linkOctets q octets
      d.blockReleased q (d.linkFs q) (match (d.link q).anchor with | some a => a | none => d.releaseStamp q) (d.link q) (d.linkWords q lanes)

theorem exec_multiblockRelease (t q measured : Nat) (arrivals : List Nat) (codes : List (Nat × List Nat)) (octets : List (List Nat)) (s : State) :
    exec (.multiblockRelease t q measured arrivals codes octets) s =
      runIf (q < 16) t s fun d => d.multiblockReleased q measured arrivals codes octets := by
  refine Eq.trans (b := execMultiblockRelease t q measured arrivals codes octets s) rfl ?_
  unfold execMultiblockRelease
  refine congrArg _ (funext fun d => ?_)
  unfold Dev.multiblockReleased Dev.blockReleased Dev.blockConverted
  rfl

/-- A link has taken in octets that make `n` samples after its anchor. -/
def Dev.takesIn (d : Dev) (q : Nat) (octets : List (List Nat)) (a n : Nat) : Dev :=
  (d.linkOctets q octets).2.setLink q ((d.link q).releases a n)

theorem Dev.takesIn_only (d : Dev) (q : Nat) (octets : List (List Nat)) (a n : Nat) : d.changesOnly [.itk] [] (d.takesIn q octets a n) :=
  Dev.changesOnly_step (Dev.linkOctets_keeps ..).1 (Dev.setLink_only ..)

theorem Dev.link_takesIn (d : Dev) (q : Nat) (octets : List (List Nat)) (a n : Nat) : (d.takesIn q octets a n).link q = (d.link q).releases a n :=
  Dev.link_setLink ..

section
variable {d : Dev} {q a : Nat} {octets : List (List Nat)} {raw : List (Nat × Nat)} (hst : d.linkState q = 5) (hchecked : (d.link q).checked = true)
  (hanchor : (d.link q).anchor = some a) (hover : d.linkOver q = false) (hsusp : d.linkSuspended q = false)
  (hraw : raw = d.linkWords q (d.linkOctets q octets).1) (measured : Nat) (arrivals : List Nat)
include hst hchecked hanchor hover hsusp hraw

/-- A link that is aligned and checked, keeps an anchor and met no code errors releases from that anchor. -/
theorem Dev.multiblockReleased_checked : d.multiblockReleased q measured arrivals [] octets =
    if (d.link q).crcDrop = true then (d.takesIn q octets a raw.length).blockDropped q (d.linkFs q) a (d.link q).index raw.length
    else (d.takesIn q octets a raw.length).blockConverted q (d.linkFs q) a (d.link q).index (d.link q).crcFlag raw := by
  subst hraw
  obtain ⟨hframe, hlink⟩ := d.linkOctets_keeps q octets
  have hset := d.takesIn_only q octets a (d.linkWords q (d.linkOctets q octets).1).length
  unfold Dev.multiblockReleased
  dsimp only
  rw [List.foldl_nil, if_neg (by rw [hst]; decide), if_pos hchecked, if_neg (by rw [hst]; decide), hlink, hanchor, hframe.linkFs (by decide),
    Dev.linkWords_frame hframe, Dev.blockReleased]
  dsimp only
  rw [← Dev.takesIn.eq_def, hset.linkOver (by decide) (by decide) (by decide) (by decide), hset.linkSuspended (by decide) (by decide), hover, hsusp]
  exact if_neg (by simp)

/-- In full service and with no gap open, the whole block is converted and leaves. -/
theorem Dev.multiblockReleased_whole (hdrop : (d.link q).crcDrop = false) (hgap : (d.link q).gapFirst = none)
    (hfull : d.fullFrom ≤ sampleTime a (d.link q).index (d.linkFs q)) :
    d.multiblockReleased q measured arrivals [] octets = (d.takesIn q octets a raw.length).blockLeaves q (sampleIndex a (d.linkFs q) + (d.link q).index)
      (sampleTime a (d.link q).index (d.linkFs q)) (raw.map (d.convertSample q (d.link q).crcFlag)) := by
  have hset := d.takesIn_only q octets a raw.length
  have hskip : (d.takesIn q octets a raw.length).skippedSamples (d.linkFs q) a (d.link q).index raw.length = 0 :=
    Dev.skippedSamples_of_fullService (by rwa [Dev.fullFrom_frame hset]) _
  have hclose : ∀ stamp, (d.takesIn q octets a raw.length).closeLinkGap q stamp = d.takesIn q octets a raw.length :=
    Dev.closeLinkGap_of_none (by rw [Dev.link_takesIn]; exact hgap)
  rw [Dev.multiblockReleased_checked hst hchecked hanchor hover hsusp hraw, if_neg (by simp [hdrop]), Dev.blockConverted,
    hskip, if_neg (Nat.lt_irrefl 0), hclose, ite_self, Dev.convertSample_frame hset]
  rfl

end

section
variable {t q measured a : Nat} {arrivals : List Nat} {octets : List (List Nat)} {s : State} {e : Dev} {x : LinkSt} {raw : List (Nat × Nat)}
  (he : e = s.dev.at t) (hq : q < 16) (hst : e.linkState q = 5) (hx : e.link q = x) (hchecked : x.checked = true) (hanchor : x.anchor = some a)
  (hover : e.linkOver q = false) (hsusp : e.linkSuspended q = false) (hraw : raw = e.linkWords q (e.linkOctets q octets).1)
include he hq hst hx hchecked hanchor hover hsusp hraw

theorem multiblockRelease_releases (hdrop : x.crcDrop = false) (hgap : x.gapFirst = none) (hfull : e.fullFrom ≤ sampleTime a x.index (e.linkFs q)) :
    Completes (.multiblockRelease t q measured arrivals [] octets) t s [.itk, .chn, .ctr] [Ix.itkOvrCount, Ix.pwrAnalysedSamples] fun d =>
      d.link q = { x with index := x.index + raw.length, crcFlag := false, stamp := sampleTime a x.index (e.linkFs q),
                          block := raw.map (e.convertSample q x.crcFlag) } ∧
      d.crossing (0x10 + q) = (e.crossing (0x10 + q)).present
        (((raw.map (e.convertSample q x.crcFlag)).zipIdx).map (fun p => (sampleIndex a (e.linkFs q) + x.index + p.2, p.1))) := by
  subst he hx
  have htaken := (s.dev.at t).takesIn_only q octets a raw.length
  refine completesIf_of_eq (exec_multiblockRelease t q measured arrivals [] octets s) (by simpa using hq)
    (Dev.multiblockReleased_whole hst hchecked hanchor hover hsusp hraw measured arrivals hdrop hgap hfull)
    (Dev.changesOnly_mono (Dev.changesOnly_trans htaken (Dev.blockLeaves_only ..)) (by decide) (by decide)) ⟨?_, ?_⟩
  · rw [Dev.link_blockLeaves, Dev.link_takesIn, LinkSt.releases, ← hanchor, ← hdrop]
  · rw [Dev.crossing_blockLeaves, htaken.crossing (by decide)]

/-- A block that a CRC-12 error discards is recorded as a gap and counted (R104, R105). -/
theorem multiblockRelease_drops (hdrop : x.crcDrop = true) :
    Completes (.multiblockRelease t q measured arrivals [] octets) t s [.itk, .out, .ctr] [Ix.itkGapSamples] fun d =>
      d.out.gaps = addGap ⟨.link q, 1, sampleTime a x.index (e.linkFs q), sampleTime a (x.index + raw.length) (e.linkFs q), raw.length, 0, 1⟩ e.out.gaps ∧
      e.counted d Ix.itkGapSamples (q + 1) 0 raw.length := by
  subst he hx
  have htaken := (s.dev.at t).takesIn_only q octets a raw.length
  have hgap := ((s.dev.at t).takesIn q octets a raw.length).gap_only ⟨.link q, 1, sampleTime a ((s.dev.at t).link q).index ((s.dev.at t).linkFs q),
    sampleTime a (((s.dev.at t).link q).index + raw.length) ((s.dev.at t).linkFs q), raw.length, 0, 1⟩
  refine completesIf_of_eq (exec_multiblockRelease t q measured arrivals [] octets s) (by simpa using hq)
    ((Dev.multiblockReleased_checked hst hchecked hanchor hover hsusp hraw measured arrivals).trans (if_pos hdrop))
    (Dev.changesOnly_trans (Dev.changesOnly_trans htaken hgap) (Dev.incI_only ..)) ⟨?_, ?_⟩
  · rw [Dev.blockDropped, (Dev.incI_only ..).out (by decide), ← htaken.out (by decide)]
    rfl
  · exact htaken.counted (by decide) (hgap.counted (by decide) (Dev.inc_counted ..))

end

/-! ### A lane's fault (R103, R104) -/

/-- What a fault's condition says the receiver has lost, and that the lane has faulted (Table 4.4). -/
def Dev.lockLost (d : Dev) (n cond : Nat) : Dev :=
  let d := if cond = 0 then (d.laneBit n 1 false).laneBit n 2 false else d
  let d := if cond ≤ 1 then d.laneBit n 4 false else d
  if cond ≤ 2 then d.laneBit n 5 false else d

theorem Dev.lockLost_only (d : Dev) (n cond : Nat) : d.changesOnly [.itk] [Ix.itkLaneStatus] (d.lockLost n cond) := by
  unfold Dev.lockLost
  refine Dev.changesOnly_step (Dev.changesOnly_step (Dev.changesOnly_ite (fun _ => ?_) fun _ => Dev.changesOnly_refl ..)
    (Dev.changesOnly_ite (fun _ => Dev.laneBit_only ..) fun _ => Dev.changesOnly_refl ..))
    (Dev.changesOnly_ite (fun _ => Dev.laneBit_only ..) fun _ => Dev.changesOnly_refl ..)
  exact Dev.changesOnly_step (Dev.laneBit_only ..) (Dev.laneBit_only ..)

theorem Dev.link_lockLost (d : Dev) (n cond : Nat) : (d.lockLost n cond).link = d.link := by
  unfold Dev.lockLost
  dsimp only
  split_ifs <;> simp only [Dev.link_laneBit]

/-- The next sample's instant depends on the link's own state, its rate and the time. -/
theorem Dev.nextStamp_frame {pl : List Part} {ps : List Nat} {d e : Dev} {q : Nat} (h : d.changesOnly pl ps e) (hlink : e.link q = d.link q)
    (hf : Ix.itkFs ∉ ps) (hn : Part.now ∉ pl) (ht : Part.tb ∉ pl) : e.nextStamp q = d.nextStamp q := by
  unfold Dev.nextStamp
  rw [hlink, h.linkFs hf, h.time96 hn ht]

/-- A link discards from an instant on and relinks, or goes down. -/
def Dev.linkBreaks (d : Dev) (q first cause : Nat) : Dev :=
  (d.setLink q { d.link q with gapFirst := some (first, cause) }).linkEnter q (if d.nI Ix.itkRelink q = 1 then 6 else 7)

/-- A fault on a lane of an aligned link. -/
theorem Dev.laneFault_aligned {d : Dev} {n q : Nat} (cond : Nat) (hq : d.linkOfPhys n = some q) (hst : d.linkState q = 5)
    (hgap : (d.link q).gapFirst = none) :
    d.laneFault n cond = (((d.lockLost n cond).laneBit n 7 true).linkBreaks q (d.nextStamp q) 1).laneFaulted n Code.laneFault := by
  have hlost := d.lockLost_only n cond
  have hbit := Dev.changesOnly_step hlost (Dev.laneBit_only _ n 7 true)
  have hlink : ((d.lockLost n cond).laneBit n 7 true).link q = d.link q := by rw [Dev.link_laneBit, Dev.link_lockLost]
  unfold Dev.laneFault
  extract_lets _ _ lost
  have heq : lost = d.lockLost n cond := rfl
  clear_value lost
  subst heq
  rw [hlost.linkOfPhys (by decide) (by decide), hq]
  dsimp only
  rw [if_pos (by rw [hbit.linkState (by decide), hst]), Dev.nextStamp_frame hbit hlink (by decide) (by decide) (by decide), Dev.openLinkGap,
    if_neg (by rw [hlink, hgap]; simp)]
  rfl

theorem Dev.linkBreaks_states (d : Dev) (q : Nat) : (if d.nI Ix.itkRelink q = 1 then 6 else 7) ∉ [1, 9] := by
  split <;> decide

theorem Dev.linkBreaks_only (d : Dev) (q first cause : Nat) : d.changesOnly [.itk] [Ix.itkLinkState] (d.linkBreaks q first cause) :=
  Dev.changesOnly_mono (Dev.changesOnly_trans (Dev.setLink_only ..) (Dev.linkEnter_only _ q (d.linkBreaks_states q))) (by decide) (by decide)

theorem Dev.link_linkBreaks (d : Dev) (q first cause : Nat) : ((d.linkBreaks q first cause).link q).gapFirst = some (first, cause) := by
  rw [Dev.linkBreaks, Dev.link_linkEnter _ _ (d.linkBreaks_states q), Dev.link_setLink]
  rfl

theorem Dev.rd_linkBreaks (d : Dev) {q : Nat} (hq : q < 16) (first cause : Nat) :
    (d.linkBreaks q first cause).rd Ix.itkLinkState (q + 1) 0 = if d.nI Ix.itkRelink q = 1 then 6 else 7 := by
  have hsmall : (if d.nI Ix.itkRelink q = 1 then 6 else 7) < 256 := by split <;> decide
  rw [Dev.linkBreaks, Dev.rd_linkEnter _ _ (d.linkBreaks_states q) hq hsmall]
  split <;> rfl

theorem laneFault_breaks {t n cond : Nat} {s : State} {e : Dev} {q : Nat} {x : LinkSt} (he : e = s.dev.at t) (hn : n < 64)
    (hq : e.linkOfPhys n = some q) (hq16 : q < 16) (hst : e.linkState q = 5) (hx : e.link q = x) (hgap : x.gapFirst = none) :
    Completes (.laneFault t n cond) t s (.itk :: .out :: codeParts) (Ix.itkLaneStatus :: Ix.itkLinkState :: faultPlaces) fun d =>
      (d.link q).gapFirst = some (e.nextStamp q, 1) ∧ d.rd Ix.itkLinkState (q + 1) 0 = (if e.nI Ix.itkRelink q = 1 then 6 else 7) ∧
      (e.time96, Happening.laneFault n) ∈ d.out.happenings ∧ e.counted d Ix.fltClassCount 3 0 1 := by
  subst he hx
  have hbit := Dev.changesOnly_step ((s.dev.at t).lockLost_only n cond) (Dev.laneBit_only _ n 7 true)
  have hbreak := Dev.changesOnly_trans hbit (Dev.linkBreaks_only _ q ((s.dev.at t).nextStamp q) 1)
  have hfault := Dev.laneFaulted_only ((((s.dev.at t).lockLost n cond).laneBit n 7 true).linkBreaks q ((s.dev.at t).nextStamp q) 1) n Code.laneFault
  refine completesIf_of_eq (exec_laneFault t n cond s) (by simpa using hn) (Dev.laneFault_aligned cond hq hst hgap)
    (Dev.changesOnly_mono (Dev.changesOnly_trans hbreak hfault) (by decide) (by decide)) ⟨?_, ?_, ?_, ?_⟩
  · rw [hfault.link (by decide), Dev.link_linkBreaks]
  · rw [hfault.rd _ _ (by decide), Dev.rd_linkBreaks _ hq16, hbit.nI (by decide)]
  · rw [← hbreak.time96 (by decide) (by decide)]
    exact Dev.laneFaulted_happens ..
  · exact hbreak.counted (by decide) (Dev.laneFaulted_counted ..)

/-! ### The relink (R98, R104) -/

/-- A link releases again on the same time base, its release checked anew. -/
def Dev.linkResumes (d : Dev) (q a : Nat) : Dev :=
  d.setLink q { d.link q with anchor := some a, index := samplesBetween a (d.releaseStamp q) (d.linkFs q), checked := false }

/-- The gap of a link is recorded with its length and counted, and is open no more. -/
def Dev.linkGapEnds (d : Dev) (q stamp : Nat) (g : Nat × Nat) : Dev :=
  let n := samplesBetween g.1 stamp (d.linkFs q)
  ((d.setLink q { d.link q with gapFirst := none }).gap ⟨.link q, 1, g.1, stamp, n, 0, g.2⟩).incI Ix.itkGapSamples q n

/-- Every lane of a link has its locks again, and no fault. -/
def Dev.lanesRelock (d : Dev) (q : Nat) : Dev := ([1, 2, 4, 5].foldl (fun (a : Dev) k => a.laneBits q k true) d).laneBits q 7 false

theorem Dev.linkResumes_only (d : Dev) (q a : Nat) : d.changesOnly [.itk] [] (d.linkResumes q a) := Dev.setLink_only ..

theorem Dev.linkGapEnds_only (d : Dev) (q stamp : Nat) (g : Nat × Nat) :
    d.changesOnly [.itk, .out, .ctr] [Ix.itkGapSamples] (d.linkGapEnds q stamp g) :=
  Dev.changesOnly_trans (pl := [.itk, .out]) (ps := []) (Dev.changesOnly_trans (Dev.setLink_only ..) (Dev.gap_only ..)) (Dev.incI_only ..)

theorem Dev.link_linkGapEnds (d : Dev) (q stamp : Nat) (g : Nat × Nat) : (d.linkGapEnds q stamp g).link q = { d.link q with gapFirst := none } := by
  rw [Dev.linkGapEnds, (Dev.incI_only ..).link (by decide), (Dev.gap_only ..).link (by decide), Dev.link_setLink]

theorem Dev.linkGapEnds_counted (d : Dev) (q stamp : Nat) (g : Nat × Nat) :
    d.counted (d.linkGapEnds q stamp g) Ix.itkGapSamples (q + 1) 0 (samplesBetween g.1 stamp (d.linkFs q)) :=
  (Dev.setLink_only ..).counted (by decide) ((Dev.gap_only ..).counted (by decide) (Dev.inc_counted ..))

theorem Dev.linkGapEnds_gaps (d : Dev) (q stamp : Nat) (g : Nat × Nat) : (d.linkGapEnds q stamp g).out.gaps =
    addGap ⟨.link q, 1, g.1, stamp, samplesBetween g.1 stamp (d.linkFs q), 0, g.2⟩ d.out.gaps := by
  rw [Dev.linkGapEnds, (Dev.incI_only ..).out (by decide)]
  rfl

theorem Dev.closeLinkGap_of_some {d : Dev} {q : Nat} {g : Nat × Nat} (h : (d.link q).gapFirst = some g) (stamp : Nat) :
    d.closeLinkGap q stamp = d.linkGapEnds q stamp g := by
  unfold Dev.closeLinkGap
  rw [h]
  rfl

theorem Dev.lanesRelock_only (d : Dev) (q : Nat) : d.changesOnly [.itk] [Ix.itkLaneStatus] (d.lanesRelock q) :=
  Dev.changesOnly_step (Dev.changesOnly_foldl _ (fun a _ => Dev.laneBits_only a ..) _ _) (Dev.laneBits_only ..)

theorem Dev.link_lanesRelock (d : Dev) (q : Nat) : (d.lanesRelock q).link = d.link := by
  rw [Dev.lanesRelock, Dev.link_laneBits]
  exact foldl_keeps Dev.link _ (fun _ _ => Dev.link_laneBits ..) _ _

/-- A link whose gap ends at a stamp is aligned again. -/
def Dev.linkRelinked (d : Dev) (q a stamp : Nat) (g : Nat × Nat) : Dev :=
  ((((d.linkResumes q a).linkGapEnds q stamp g).incI Ix.itkRelinks q).lanesRelock q).linkEnter q 5

section
variable {t q a stamp : Nat} {s : State} {e : Dev} {x : LinkSt} {g : Nat × Nat} (he : e = s.dev.at t) (hq : q < 16) (hst : e.linkState q = 6)
  (hsusp : e.linkSuspended q = false) (hx : e.link q = x) (hanchor : x.anchor = some a) (hgap : x.gapFirst = some g)
  (hstamp : stamp = sampleTime a (samplesBetween a (e.releaseStamp q) (e.linkFs q)) (e.linkFs q))
include he hq hst hsusp hx hanchor hgap hstamp

theorem exec_relinkComplete_aligns : exec (.relinkComplete t q) s = .next { s with dev := e.linkRelinked q a stamp g } := by
  subst he hx hstamp
  have hnext : ((s.dev.at t).linkResumes q a).nextStamp q = sampleTime a (samplesBetween a ((s.dev.at t).releaseStamp q) ((s.dev.at t).linkFs q))
      ((s.dev.at t).linkFs q) := by
    rw [Dev.nextStamp, Dev.linkResumes, Dev.link_setLink, (Dev.setLink_only ..).linkFs (by decide)]
  have hopen : (((s.dev.at t).linkResumes q a).link q).gapFirst = some g := by rw [Dev.linkResumes, Dev.link_setLink, hgap]
  rw [exec_relinkComplete, execRelinkComplete, runIf, run]
  dsimp only
  rw [if_pos (by simpa using hq), if_pos (by rw [hst, hsusp]; rfl), hanchor, Dev.linkRelinked, ← hnext, ← Dev.closeLinkGap_of_some hopen]
  rfl

theorem relinkComplete_aligns :
    Completes (.relinkComplete t q) t s [.itk, .out, .ctr] [Ix.itkGapSamples, Ix.itkRelinks, Ix.itkLaneStatus, Ix.itkLinkState] fun d =>
      d.rd Ix.itkLinkState (q + 1) 0 = 5 ∧ (d.link q).gapFirst = none ∧ (d.link q).checked = false ∧ e.counted d Ix.itkRelinks (q + 1) 0 1 ∧
      e.counted d Ix.itkGapSamples (q + 1) 0 (samplesBetween g.1 stamp (e.linkFs q)) ∧
      d.out.gaps = addGap ⟨.link q, 1, g.1, stamp, samplesBetween g.1 stamp (e.linkFs q), 0, g.2⟩ e.out.gaps := by
  have hexec := exec_relinkComplete_aligns he hq hst hsusp hx hanchor hgap hstamp
  have hresume := e.linkResumes_only q a
  have hends := (e.linkResumes q a).linkGapEnds_only q stamp g
  have hcount := Dev.incI_only ((e.linkResumes q a).linkGapEnds q stamp g) Ix.itkRelinks q 1
  have hlock := (((e.linkResumes q a).linkGapEnds q stamp g).incI Ix.itkRelinks q).lanesRelock_only q
  have henter := Dev.linkEnter_only ((((e.linkResumes q a).linkGapEnds q stamp g).incI Ix.itkRelinks q).lanesRelock q) q (st := 5) (by decide)
  have hfs : (e.linkResumes q a).linkFs q = e.linkFs q := by rw [hresume.linkFs (by decide)]
  have hlink : ((e.linkRelinked q a stamp g).link q).gapFirst = none ∧ ((e.linkRelinked q a stamp g).link q).checked = false := by
    rw [Dev.linkRelinked, Dev.link_linkEnter _ _ (by decide), Dev.link_lanesRelock, hcount.link (by decide), Dev.link_linkGapEnds, Dev.linkResumes,
      Dev.link_setLink]
    exact ⟨rfl, rfl⟩
  have htail := Dev.changesOnly_trans hlock henter
  refine ⟨_, hexec, he ▸ Dev.changesOnly_mono (Dev.changesOnly_trans (Dev.changesOnly_trans (Dev.changesOnly_trans hresume hends) hcount) htail)
    (by decide) (by decide), Dev.rd_linkEnter _ _ (by decide) hq (by decide), hlink.1, hlink.2, ?_, ?_, ?_⟩
  · exact Dev.counted.after htail (hresume.counted (by decide) (hends.counted (by decide) (Dev.inc_counted ..))) (by decide)
  · rw [← hfs]
    exact Dev.counted.after htail (Dev.counted.after hcount (hresume.counted (by decide) (Dev.linkGapEnds_counted ..)) (by decide)) (by decide)
  · rw [Dev.linkRelinked, htail.out (by decide), hcount.out (by decide), Dev.linkGapEnds_gaps, hfs, hresume.out (by decide)]

end

/-! ### CRC-12 errors (R105) -/

theorem Dev.naming_nodup (d : Dev) (n : Nat) : (d.naming n).Nodup :=
  (List.nodup_range.map fun _ _ h => Nat.add_left_cancel h).filter _

/-- A CRC-12 error is counted under every logical lane that names its lane. -/
def Dev.crcCounted (d : Dev) (n : Nat) : Dev := d.perLane n fun a i => a.incI Ix.itkCrcErrors i

theorem Dev.crcCounted_only (d : Dev) (n : Nat) : d.changesOnly [.ctr] [Ix.itkCrcErrors] (d.crcCounted n) :=
  Dev.changesOnly_foldl _ (fun a _ => Dev.incI_only a ..) _ _

theorem Dev.crcCounted_counted (d : Dev) (n : Nat) : ∀ i ∈ d.naming n, d.counted (d.crcCounted n) Ix.itkCrcErrors (i + 1) 0 1 :=
  Dev.foldl_incI_counted (d.naming_nodup n) d Ix.itkCrcErrors 1

/-- Its multiblock joins those of the last errors, and its link's next release is flagged. -/
def Dev.crcFlagged (d : Dev) (n mb q : Nat) : Dev :=
  let e := d.setLane n { d.lane n with crcAt := mb :: ((d.lane n).crcAt.filter fun m => mb < m + 1024).take 7 }
  e.setLink q { e.link q with crcFlag := true }

theorem Dev.crcFlagged_only (d : Dev) (n mb q : Nat) : d.changesOnly [.itk] [] (d.crcFlagged n mb q) :=
  Dev.changesOnly_step (Dev.setLane_only ..) (Dev.setLink_only ..)

theorem Dev.lane_crcFlagged (d : Dev) (n mb q : Nat) :
    ((d.crcFlagged n mb q).lane n).crcAt = mb :: ((d.lane n).crcAt.filter fun m => mb < m + 1024).take 7 :=
  congrArg LaneSt.crcAt (Tab.get_set_same (α := LaneSt) {} _ _ _)

section
variable {t n mb q : Nat} (k : Nat) {s : State} {e : Dev} (he : e = s.dev.at t) (hn : n < 64) (hq : e.linkOfPhys n = some q) (hst : e.linkState q = 5)
  (hcheck : e.nI Ix.itkCrcCheck q = 1) (hfew : ((e.lane n).crcAt.filter (fun m => mb < m + 1024)).length < 7)
include he hn hq hst hcheck hfew

/-- Fewer than eight errors in reach fault no lane; where errors flag the samples the next release is flagged. -/
theorem exec_crcError_flags : exec (.crcError t n mb k) s = .next { s with dev := (e.crcCounted n).crcFlagged n mb q } := by
  subst he
  have hcount := (s.dev.at t).crcCounted_only n
  rw [exec_crcError, execCrcError, runIf, run]
  refine congrArg (fun d => Host.Outcome.next { s with dev := d }) ((if_pos (decide_eq_true hn)).trans ?_)
  extract_lets counted near _ noted
  have hcounted : counted = (s.dev.at t).crcCounted n := rfl
  clear_value counted
  subst hcounted
  rw [hcount.linkOfPhys (by decide) (by decide), hq]
  dsimp -zeta only
  extract_lets check
  have hcheck1 : check = 1 := (congrFun (hcount.nI (by decide)) q).trans hcheck
  have hnear : near.length < 7 := by
    have hlane : near = (((s.dev.at t).lane n).crcAt.filter fun m => mb < m + 1024).take 7 := by rw [← hcount.lane (by decide)]
    rw [hlane]
    exact Nat.lt_of_le_of_lt (List.length_take_le' _ _) hfew
  have hnoted : noted.linkState q = 5 := (congrFun (hcount.linkState (by decide)) q).trans hst
  refine (if_neg (by simp [Nat.ne_of_lt hnear])).trans ?_
  exact (if_neg (by rw [hnoted]; decide)).trans (if_pos hcheck1)

theorem crcError_flags :
    Completes (.crcError t n mb k) t s [.itk, .ctr] [Ix.itkCrcErrors] fun d =>
      (∀ i ∈ e.naming n, e.counted d Ix.itkCrcErrors (i + 1) 0 1) ∧ (d.link q).crcFlag = true ∧
      (d.lane n).crcAt = mb :: (e.lane n).crcAt.filter (fun m => mb < m + 1024) := by
  have hexec := exec_crcError_flags k he hn hq hst hcheck hfew
  have hcount := e.crcCounted_only n
  have hflag := (e.crcCounted n).crcFlagged_only n mb q
  refine ⟨_, hexec, he ▸ Dev.changesOnly_mono (Dev.changesOnly_trans hcount hflag) (by decide) (by decide), fun i hi => ?_, ?_, ?_⟩
  · exact Dev.counted.after hflag (e.crcCounted_counted n i hi) List.not_mem_nil
  · rw [Dev.crcFlagged, Dev.link_setLink]
  · rw [Dev.lane_crcFlagged, hcount.lane (by decide), List.take_of_length_le (Nat.le_of_lt hfew)]

end

/-- Settles O18, clause by clause: a block released, a block discarded, a lane's fault, the relink, a CRC-12 error. -/
theorem linksReleaseFaultAndRelink : Obligations.LinksReleaseFaultAndRelink := by
  unfold Obligations.LinksReleaseFaultAndRelink
  refine ⟨?_, ?_, ?_, ?_, ?_⟩
  · intro t q measured arrivals octets s e x a raw he hq hst hx hchecked hanchor hdrop hgap hover hsusp hfull hraw
    exact multiblockRelease_releases he hq hst hx hchecked hanchor hover hsusp hraw hdrop hgap hfull
  · intro t q measured arrivals octets s e x a raw he hq hst hx hchecked hanchor hdrop hover hsusp hraw
    exact multiblockRelease_drops he hq hst hx hchecked hanchor hover hsusp hraw hdrop
  · intro t n cond s e q x he hn hq hq16 hst hx hgap
    exact laneFault_breaks he hn hq hq16 hst hx hgap
  · intro t q s e x a g stamp he hq hst hsusp hx hanchor hgap hstamp
    exact relinkComplete_aligns he hq hst hsusp hx hanchor hgap hstamp
  · intro t n mb k s e q he hn hq hst hcheck hfew
    exact crcError_flags k he hn hq hst hcheck hfew

end Sys2Proof.Machine
end

section
/-! PROOFS. The samples of a converter link (R93). -/

namespace Sys2Proof.Machine

/-- Every mode of Table 4.2 has words of at most 16 bits. -/
theorem modeRow_nTotal_le {code : Nat} {r : ModeRow} (h : modeRow code = some r) : r.nTotal ≤ 16 := by
  have hlow : ∀ c < 0x15, (modeRow c).all (fun r => decide (r.nTotal ≤ 16)) = true := by decide
  by_cases hcode : code < 0x15
  · simpa [h] using hlow code hcode
  · have hnone : modeRow code = none := by
      unfold modeRow
      repeat rw [if_neg (by omega)]
    rw [hnone] at h
    cases h

/-- The top n bits of a number of `total` bits. -/
theorem bitsOf_top {total n raw : Nat} (hn : 1 ≤ n) (hle : n ≤ total) (hraw : raw < 2 ^ total) :
    bitsOf (total - 1) (total - n) raw = raw / 2 ^ (total - n) ∧ raw / 2 ^ (total - n) < 2 ^ n := by
  have hlt : raw / 2 ^ (total - n) < 2 ^ n := by
    rw [Nat.div_lt_iff_lt_mul (Nat.two_pow_pos _), ← pow_add]
    rwa [Nat.add_sub_cancel' hle]
  have hwidth : total - 1 + 1 - (total - n) = n := by omega
  exact ⟨by rw [bitsOf, hwidth, Nat.mod_eq_of_lt hlt], hlt⟩

/-- A two's-complement number of n bits lies in its range. -/
theorem ofTwos_bounds {n : Nat} (hn : 1 ≤ n) (v : Nat) :
    -((2 ^ (n - 1) : Nat) : Int) ≤ ofTwos n v ∧ ofTwos n v ≤ ((2 ^ (n - 1) : Nat) : Int) - 1 := by
  have hlt : v % 2 ^ n < 2 ^ n := Nat.mod_lt _ (Nat.two_pow_pos n)
  have hpow : 2 ^ n = 2 * 2 ^ (n - 1) := by rw [← pow_succ', Nat.sub_add_cancel hn]
  unfold ofTwos
  generalize v % 2 ^ n = m at *
  generalize 2 ^ (n - 1) = p at *
  split <;> omega

/-- A converter word as Q1.23: the number that its top bits stand for, shifted left. -/
theorem Dev.convert_fst {d : Dev} {q raw n : Nat} {r : ModeRow} (hmode : modeRow (d.nI Ix.itkMode q) = some r) (hN : d.nI Ix.itkN q = n)
    (hn : 1 ≤ n) (hle : n ≤ r.nTotal) (hraw : raw < 2 ^ r.nTotal) :
    (d.convert q raw).1 = ofTwos n (raw / 2 ^ (r.nTotal - n)) * ((2 ^ (24 - n) : Nat) : Int) := by
  rw [← (bitsOf_top hn hle hraw).1]
  simp only [Dev.convert, hmode, hN]

/-- A two's-complement number of n bits, shifted left to 24 bits, lies in Q1.23. -/
theorem ofTwos_shifted_bounds {n : Nat} (hn : 1 ≤ n) (hle : n ≤ 24) (v : Nat) :
    -(2 ^ 23 : Int) ≤ ofTwos n v * ((2 ^ (24 - n) : Nat) : Int) ∧ ofTwos n v * ((2 ^ (24 - n) : Nat) : Int) ≤ 2 ^ 23 - 1 := by
  obtain ⟨hlo, hhi⟩ := ofTwos_bounds hn v
  have hpos : (1 : Int) ≤ 2 ^ (24 - n) := one_le_pow₀ (by norm_num)
  have hpow : (2 : Int) ^ (n - 1) * 2 ^ (24 - n) = 2 ^ 23 := by rw [← pow_add]; congr 1; omega
  push_cast at *
  constructor <;> nlinarith only [hlo, hhi, hpos, hpow]

/-- Settles O19: the top N bits of a converter word are its sample, and a mode's words are narrower than Q1.23. -/
theorem samplesConvertToQ1_23 : Obligations.SamplesConvertToQ1_23 := by
  unfold Obligations.SamplesConvertToQ1_23
  intro e q raw r n hmode hN hn hle hraw
  have hle24 : n ≤ 24 := by have := modeRow_nTotal_le hmode; omega
  obtain ⟨hlo, hhi⟩ := ofTwos_shifted_bounds (n := n) (by omega) hle24 (raw / 2 ^ (r.nTotal - n))
  rw [Dev.convert_fst hmode hN (by omega) hle hraw]
  refine ⟨?_, hlo, fun _ => hhi⟩
  rw [ofTwos, Nat.mod_eq_of_lt (bitsOf_top (by omega) hle hraw).2]

end Sys2Proof.Machine
end

section
/-! PROOFS. The output of a DDC: what it is formed from, a gap that ends before it, its delivery (R17, R114 to R128). -/

namespace Sys2Proof.Machine

theorem exec_ddcOutput (t n ne ecc : Nat) (s : State) : exec (.ddcOutput t n ne ecc) s = execDdcOutput t n ne ecc s := rfl

/-! ### What a DDC keeps, and what has crossed to it -/

theorem Dev.setDdc_only (d : Dev) (n : Nat) (x : DdcSt) : d.changesOnly [.chn] [] (d.setDdc n x) := Dev.chn_only ..

theorem Dev.ddc_setDdc (d : Dev) (n : Nat) (x : DdcSt) : (d.setDdc n x).ddc n = x := Tab.get_set_same ..

theorem Dev.crossing_setDdc (d : Dev) (n : Nat) (x : DdcSt) : (d.setDdc n x).crossing = d.crossing := rfl

theorem Dev.output_setDdc (d : Dev) (n : Nat) (x : DdcSt) : (d.setDdc n x).chn.output = d.chn.output := rfl

/-- What a DDC keeps is as before where a frame does not list the Channeliser. -/
theorem Dev.changesOnly.ddc {pl : List Part} {ps : List Nat} {d e : Dev} (h : d.changesOnly pl ps e) (hp : Part.chn ∉ pl) : e.ddc = d.ddc :=
  funext fun n => congrArg (fun x => x.ddcs.get {} n) (h.chn hp)

/-- Words acknowledged stay as they are when nothing new has been presented. -/
theorem Crossing.accept_accept (c : Crossing) : c.accept.accept = c.accept := by
  have hdrop : ∀ l : List (Nat × Sample), (l.drop (l.length - reach)).length - reach = 0 := fun l => by rw [List.length_drop]; omega
  simp only [Crossing.accept, List.append_nil, hdrop, List.drop_zero]

theorem Dev.setCrossing_only (d : Dev) (code : Nat) (c : Crossing) : d.changesOnly [.chn] [] (d.setCrossing code c) := Dev.chn_only ..

theorem Dev.ddc_setCrossing (d : Dev) (code : Nat) (c : Crossing) : (d.setCrossing code c).ddc = d.ddc := rfl

theorem Dev.output_setCrossing (d : Dev) (code : Nat) (c : Crossing) : (d.setCrossing code c).chn.output = d.chn.output := rfl

theorem Dev.crossing_setCrossing (d : Dev) (code : Nat) (c : Crossing) : (d.setCrossing code c).crossing code = c := Tab.get_set_same ..

/-- What has crossed from a DDC's source is acknowledged (R17). -/
def Dev.acknowledges (d : Dev) (n : Nat) : Dev := d.setCrossing (d.nI Ix.chnSrc n) (d.crossing (d.nI Ix.chnSrc n)).accept

theorem Dev.acknowledges_only (d : Dev) (n : Nat) : d.changesOnly [.chn] [] (d.acknowledges n) := Dev.setCrossing_only ..

theorem Dev.ddc_acknowledges (d : Dev) (n : Nat) : (d.acknowledges n).ddc = d.ddc := Dev.ddc_setCrossing ..

theorem Dev.output_acknowledges (d : Dev) (n : Nat) : (d.acknowledges n).chn.output = d.chn.output := Dev.output_setCrossing ..

theorem Dev.crossing_acknowledges (d : Dev) (n : Nat) : (d.acknowledges n).crossing (d.nI Ix.chnSrc n) = (d.crossing (d.nI Ix.chnSrc n)).accept :=
  Dev.crossing_setCrossing ..

/-! ### What an output is formed from -/

/-- Two devices give a DDC's outputs the same words, settings and clocks: they differ at most in what a DDC keeps, in the reports of gaps and of
its state, and in words that wait to be acknowledged. -/
structure Dev.FeedsAs (d e : Dev) : Prop where
  frame : d.changesOnly [.chn, .out, .ctr] [Ix.chnGapSamples, Ix.chnState] e
  words : ∀ code, (e.crossing code).accept = (d.crossing code).accept
  pbRate : e.chn.pbRate = d.chn.pbRate
  pbReal : e.chn.pbReal = d.chn.pbReal

theorem Dev.FeedsAs.trans {d e f : Dev} (h : d.FeedsAs e) (h' : e.FeedsAs f) : d.FeedsAs f :=
  ⟨Dev.changesOnly_step h.frame h'.frame, fun code => (h'.words code).trans (h.words code), h'.pbRate.trans h.pbRate, h'.pbReal.trans h.pbReal⟩

/-- A frame without the Channeliser gives the same words. -/
theorem Dev.FeedsAs.of_only {pl : List Part} {ps : List Nat} {d e : Dev} (h : d.changesOnly pl ps e) (hchn : Part.chn ∉ pl)
    (hpl : ∀ p ∈ pl, p ∈ [Part.chn, .out, .ctr]) (hps : ∀ x ∈ ps, x ∈ [Ix.chnGapSamples, Ix.chnState]) : d.FeedsAs e :=
  ⟨Dev.changesOnly_mono h hpl hps, fun code => by rw [h.crossing hchn], by rw [h.chn hchn], by rw [h.chn hchn]⟩

theorem Dev.setDdc_feedsAs (d : Dev) (n : Nat) (x : DdcSt) : d.FeedsAs (d.setDdc n x) :=
  ⟨Dev.changesOnly_mono (d.setDdc_only n x) (by decide) (by decide), fun _ => rfl, rfl, rfl⟩

/-- A crossing may be replaced by one that gives the same words. -/
theorem Dev.setCrossing_feedsAs (d : Dev) (code : Nat) {c : Crossing} (hc : c.accept = (d.crossing code).accept) : d.FeedsAs (d.setCrossing code c) := by
  refine ⟨Dev.changesOnly_mono (d.setCrossing_only code c) (by decide) (by decide), fun k => ?_, rfl, rfl⟩
  by_cases h : code = k
  · rw [← h, Dev.crossing_setCrossing, hc]
  · exact congrArg Crossing.accept (Tab.get_set_other _ _ _ _ _ _ h)

theorem Dev.acknowledges_feedsAs (d : Dev) (n : Nat) : d.FeedsAs (d.acknowledges n) :=
  d.setCrossing_feedsAs _ (Crossing.accept_accept _)

section
variable {d e : Dev} (h : d.FeedsAs e)
include h

theorem Dev.FeedsAs.linkReal : e.linkReal = d.linkReal := funext fun q => by rw [Dev.linkReal, Dev.linkReal, h.frame.nI (by decide)]

theorem Dev.FeedsAs.rawPer : e.rawPer = d.rawPer := funext fun code => by rw [Dev.rawPer, Dev.rawPer, h.linkReal, h.pbReal]

theorem Dev.FeedsAs.srcClock : e.srcClock = d.srcClock := funext fun code => by
  rw [Dev.srcClock, Dev.srcClock, h.frame.linkFs (by decide), h.frame.link (by decide), h.pbRate, ← h.frame.1 .str (by decide) (by decide)]

/-- Sample instants are the same (R20, R120). -/
theorem Dev.FeedsAs.ddcTime : e.ddcTime = d.ddcTime := funext fun n => funext fun ne => by
  rw [Dev.ddcTime, Dev.ddcTime, Dev.srcTime, Dev.srcTime, h.srcClock, h.rawPer, h.frame.nI (by decide)]

theorem Dev.FeedsAs.gDelay : e.gDelay = d.gDelay := funext fun n => by
  rw [Dev.gDelay, Dev.gDelay, h.frame.nI (by decide), h.frame.nI (by decide)]

theorem Dev.FeedsAs.winOf : e.winOf = d.winOf := funext fun n => funext fun ne => by
  rw [Dev.winOf, Dev.winOf, h.frame.nI (by decide), h.frame.nI (by decide)]

/-- Input samples are the same. -/
theorem Dev.FeedsAs.inputAt : e.inputAt = d.inputAt := funext fun code => funext fun ne => by
  rw [Dev.inputAt, Dev.inputAt, h.words, h.rawPer, Dev.flips, Dev.flips, h.frame.nI (by decide)]

theorem Dev.FeedsAs.reachesGap : e.reachesGap = d.reachesGap := funext fun n => funext fun ne => by
  rw [Dev.reachesGap, Dev.reachesGap, h.gDelay, h.inputAt, h.frame.nI (by decide)]

theorem Dev.FeedsAs.ddcFlags : e.ddcFlags = d.ddcFlags := funext fun n => funext fun ne => funext fun v => by
  rw [Dev.ddcFlags, Dev.ddcFlags, h.inputAt, h.frame.nI (by decide), h.frame.nI (by decide)]

theorem Dev.FeedsAs.ddcWidth : e.ddcWidth = d.ddcWidth := funext fun n => by
  have hwidth : e.n0 Ix.chnWidth = d.n0 Ix.chnWidth := congrArg Int.toNat (h.frame.rd _ _ (by decide))
  rw [Dev.ddcWidth, Dev.ddcWidth, hwidth, h.frame.nI (by decide), h.frame.nI (by decide)]

end

/-- What a DDC keeps of its oscillator and of its chain's start (R115, R122). -/
def DdcSt.chainState (x : DdcSt) : Nat × Nat × Nat × Nat × Int × Nat := (x.phaseIx, x.phase, x.mixFrom, x.mixPhase, x.mixFtw, x.startIx)

/-- An output's value is a matter of what feeds it, and of what the DDC keeps of its oscillator and its chain's start (R114 to R118). -/
theorem Dev.FeedsAs.ddcValue {d e : Dev} (h : d.FeedsAs e) {n : Nat} (hx : (e.ddc n).chainState = (d.ddc n).chainState) :
    e.ddcValue n = d.ddcValue n := by
  simp only [DdcSt.chainState, Prod.mk.injEq] at hx
  obtain ⟨hphaseIx, hphase, hmixFrom, hmixPhase, hmixFtw, hstartIx⟩ := hx
  have hphaseAt : e.phaseAt n = d.phaseAt n := funext fun ne => by
    rw [Dev.phaseAt, Dev.phaseAt, hphaseIx, hphase, hmixFrom, hmixPhase, hmixFtw, h.frame.rd _ _ (by decide), h.frame.nI (by decide),
      h.frame.nI (by decide)]
  funext ne
  simp only [Dev.ddcValue, hphaseAt, hstartIx, h.inputAt, h.gDelay, h.ddcWidth, h.frame.nI (ix := Ix.chnSrc) (by decide),
    h.frame.nI (ix := Ix.chnDepth) (by decide), h.frame.nI (ix := Ix.chnFracEn) (by decide), h.frame.nI (ix := Ix.chnGainShift) (by decide),
    h.frame.nI (ix := Ix.chnDelayInt) (by decide), h.frame.nI (ix := Ix.chnFilterSet) (by decide), h.frame.nI (ix := Ix.chnDelayFrac) (by decide)]

/-! ### A gap that ends (R122, R132) -/

/-- A DDC whose output has no gap open. -/
def DdcSt.resumes (x : DdcSt) : DdcSt := { x with gapFirst := none, gapRun := (5, 0) }

/-- No gap of a DDC's output is open. -/
def Dev.gapEnds (d : Dev) (n : Nat) : Dev := d.setDdc n (d.ddc n).resumes

theorem Dev.gapEnds_only (d : Dev) (n : Nat) : d.changesOnly [.chn] [] (d.gapEnds n) := Dev.setDdc_only ..
theorem Dev.ddc_gapEnds (d : Dev) (n : Nat) : (d.gapEnds n).ddc n = (d.ddc n).resumes := Dev.ddc_setDdc ..

theorem Dev.gapEnds_feedsAs (d : Dev) (n : Nat) : d.FeedsAs (d.gapEnds n) := Dev.setDdc_feedsAs ..

/-- An output that comes in its turn ends no gap. -/
theorem Dev.ddcResume_inTurn {d : Dev} {n ne : Nat} (hnext : (d.ddc n).next = some ne) : d.ddcResume n ne = d.gapEnds n := by
  simp only [Dev.ddcResume, Dev.gapEnds, DdcSt.resumes, hnext, Nat.lt_irrefl, if_false]

theorem Dev.ddcGap_only (d : Dev) (n first until_ count cause : Nat) :
    d.changesOnly [.chn, .out, .ctr] [Ix.chnGapSamples] (d.ddcGap n first until_ count cause) :=
  Dev.changesOnly_trans (Dev.changesOnly_trans (Dev.setDdc_only ..) (Dev.gap_only ..)) (Dev.incI_only ..)

theorem Dev.ddc_ddcGap (d : Dev) (n first until_ count cause : Nat) :
    (d.ddcGap n first until_ count cause).ddc n = { d.ddc n with wGap := true } := by
  rw [Dev.ddcGap, (Dev.incI_only ..).ddc (by decide), (Dev.gap_only ..).ddc (by decide), Dev.ddc_setDdc]

theorem Dev.ddcGap_gaps (d : Dev) (n first until_ count cause : Nat) :
    (d.ddcGap n first until_ count cause).out.gaps = addGap ⟨.ddc n, 1, first, until_, count, 0, cause⟩ d.out.gaps := by
  rw [Dev.ddcGap, (Dev.incI_only ..).out (by decide)]
  rfl

theorem Dev.ddcGap_counted (d : Dev) (n first until_ count cause : Nat) :
    d.counted (d.ddcGap n first until_ count cause) Ix.chnGapSamples (n + 1) 0 count :=
  (Dev.setDdc_only ..).counted (by decide) ((Dev.gap_only ..).counted (by decide) (Dev.inc_counted ..))

theorem Dev.ddcGap_feedsAs (d : Dev) (n first until_ count cause : Nat) : d.FeedsAs (d.ddcGap n first until_ count cause) :=
  ((d.setDdc_feedsAs n _).trans (.of_only (Dev.gap_only ..) (by decide) (by decide) (by decide))).trans
    (.of_only (Dev.incI_only ..) (by decide) (by decide) (by decide))

/-- A DDC is to be flagged from one instant to another: its state may show it, and nothing else changes but its runs (R122). -/
theorem Dev.unsettle_keeps (d : Dev) (n cause first until_ : Nat) :
    d.FeedsAs (d.unsettle n cause first until_) ∧ d.changesOnly [.chn] [Ix.chnState] (d.unsettle n cause first until_) ∧
      ∃ runs, (d.unsettle n cause first until_).ddc n = { d.ddc n with runs := runs } := by
  unfold Dev.unsettle
  dsimp only
  have hset := d.setDdc_feedsAs n { d.ddc n with runs := (d.ddc n).runs ++ [{ cause := cause, from_ := first, until_ := until_ }] }
  have honly := d.setDdc_only n { d.ddc n with runs := (d.ddc n).runs ++ [{ cause := cause, from_ := first, until_ := until_ }] }
  have hddc := d.ddc_setDdc n { d.ddc n with runs := (d.ddc n).runs ++ [{ cause := cause, from_ := first, until_ := until_ }] }
  split
  · exact ⟨.of_only (Dev.changesOnly_refl [] [] d) (by decide) (by decide) (by decide), Dev.changesOnly_refl .., _, rfl⟩
  · split
    · exact ⟨hset.trans (.of_only (Dev.wr_only ..) (by decide) (by decide) (by decide)), Dev.changesOnly_trans honly (Dev.wr_only ..), _,
        (congrFun ((Dev.wr_only ..).ddc (by decide)) n).trans hddc⟩
    · exact ⟨hset, Dev.changesOnly_mono honly (by decide) (by decide), _, hddc⟩

/-- An output that comes after others of an open gap ends it: the gap is recorded with its exact length, and what follows is to be flagged. -/
theorem Dev.ddcResume_behind {d : Dev} {n ne k : Nat} {g : Nat × Nat} (hnext : (d.ddc n).next = some k) (hk : k < ne)
    (hgap : (d.ddc n).gapFirst = some g) (hrun : (d.ddc n).gapRun = (5, 0)) : ∃ first until_, d.ddcResume n ne =
      ((d.ddcGap n g.1 (d.ddcTime n ne) ((ne - k) / 2 ^ d.nI Ix.chnDepth n) g.2).gapEnds n).unsettle n 5 first until_ := by
  simp only [Dev.ddcResume, Dev.gapEnds, DdcSt.resumes, Dev.ddc_ddcGap, hnext, hk, hgap, hrun, if_true, Option.getD_some,
    Nat.reduceEqDiff, decide_false, Bool.false_and, Bool.or_false, Bool.false_eq_true, if_false]
  exact ⟨_, _, rfl⟩

/-! ### Runs of flagged outputs (R122, R123) -/

/-- Nothing flags an output that no change reaches and whose input has all come. -/
theorem Dev.unsettledBy_none {d : Dev} {n ne : Nat} (hruns : (d.ddc n).runs = []) (hgap : d.reachesGap n ne = false) : d.unsettledBy n ne = none := by
  simp only [Dev.unsettledBy, hruns, List.find?_nil, hgap, Bool.false_eq_true, if_false]

/-- Where no run is open, an output that is not flagged leaves things as they are. -/
theorem Dev.runStep_unflagged {d : Dev} {n : Nat} (h : (d.ddc n).run = none) (stamp : Nat) : d.runStep n stamp none = d := by
  simp only [Dev.runStep, Dev.endRun, h]

/-- Where no run is open, an output at most opens one. -/
theorem Dev.runStep_keeps {d : Dev} {n : Nat} (h : (d.ddc n).run = none) (stamp : Nat) (cause : Option Nat) :
    d.changesOnly [.chn] [] (d.runStep n stamp cause) ∧ ∃ run, (d.runStep n stamp cause).ddc n = { d.ddc n with run := run } := by
  cases cause with
  | none => rw [Dev.runStep_unflagged h]; exact ⟨Dev.changesOnly_refl .., _, rfl⟩
  | some c =>
    simp only [Dev.runStep, h, Option.any_none, Bool.false_eq_true, if_false]
    exact ⟨Dev.setDdc_only .., _, Dev.ddc_setDdc ..⟩

/-- A DDC whose next output is at an index, and which is flagged by what reaches beyond an instant. -/
def DdcSt.goesOn (x : DdcSt) (next stamp : Nat) : DdcSt := { x with next := some next, runs := x.runs.filter (fun r => stamp < r.until_) }

/-- An output of an index is taken up: its run, the next index, what still flags after it; it is counted where it is flagged, and the DDC runs
settled where it is not (R122, R123). -/
def Dev.outputTurns (d : Dev) (n next stamp : Nat) (cause : Option Nat) : Dev :=
  let a := d.runStep n stamp cause
  let a := a.setDdc n { a.ddc n with next := some next, runs := (d.ddc n).runs.filter (fun r => stamp < r.until_) }
  if cause.isSome then a.incI Ix.chnUnsettled n else if a.ddcState n = 1 then a.wI Ix.chnState n 2 else a

theorem Dev.outputTurns_unflagged {d : Dev} {n : Nat} (hrun : (d.ddc n).run = none) (hst : d.ddcState n ≠ 1) (next stamp : Nat) :
    d.outputTurns n next stamp none = d.setDdc n ((d.ddc n).goesOn next stamp) := by
  rw [Dev.outputTurns, Dev.runStep_unflagged hrun]
  exact (if_neg Bool.false_ne_true).trans (if_neg hst)

theorem Dev.outputTurns_keeps {d : Dev} {n : Nat} (hrun : (d.ddc n).run = none) (next stamp : Nat) (cause : Option Nat) :
    d.changesOnly [.chn, .ctr] [Ix.chnUnsettled, Ix.chnState] (d.outputTurns n next stamp cause) ∧
      ∃ run runs, (d.outputTurns n next stamp cause).ddc n = { d.ddc n with run := run, next := some next, runs := runs } := by
  obtain ⟨hstep, run, hddc⟩ := Dev.runStep_keeps hrun stamp cause
  unfold Dev.outputTurns
  dsimp only
  rw [hddc]
  have hset := Dev.changesOnly_step hstep ((d.runStep n stamp cause).setDdc_only n
    { d.ddc n with run := run, next := some next, runs := (d.ddc n).runs.filter (fun r => stamp < r.until_) })
  split
  · exact ⟨Dev.changesOnly_mono (Dev.changesOnly_trans hset (Dev.incI_only ..)) (by decide) (by decide), run, _,
      (congrFun ((Dev.incI_only ..).ddc (by decide)) n).trans (Dev.ddc_setDdc ..)⟩
  · split
    · exact ⟨Dev.changesOnly_mono (Dev.changesOnly_trans hset (Dev.wr_only ..)) (by decide) (by decide), run, _,
        (congrFun ((Dev.wr_only ..).ddc (by decide)) n).trans (Dev.ddc_setDdc ..)⟩
    · exact ⟨Dev.changesOnly_mono hset (by decide) (by decide), run, _, Dev.ddc_setDdc ..⟩

/-! ### Delivery (R118 to R123, R126, R127) -/

/-- A detector window with one output more, under the exponents of attack and release (R126, R127). -/
def DdcSt.joins (x : DdcSt) (attack release : Nat) (v : Sample) : DdcSt :=
  { x with
    wCount := x.wCount + 1, wPeak := max x.wPeak (samplePower v), wSum := x.wSum + samplePower v
    wOvr := x.wOvr + (if v.ovr != 0 then 1 else 0), wSat := x.wSat + (if v.sat then 1 else 0)
    wFlagged := x.wFlagged || v.unsettled || v.truncated
    env := envStep attack release x.env (sqrtRound (samplePower v * 2 ^ 46)) }

/-- An output of the window that is open joins it. -/
theorem Dev.detect_open {d : Dev} {n ne : Nat} (hw : (d.ddc n).wIx = some (d.winOf n ne)) (v : Sample) :
    d.detect n ne v = d.setDdc n ((d.ddc n).joins (d.nI Ix.chnEnvAttack n) (d.nI Ix.chnEnvRelease n) v) := by
  simp only [Dev.detect, DdcSt.joins, hw, Nat.lt_irrefl, if_false]

/-- An output leaves its DDC: for its lane, into the crossing, as the output released last (R17, R120). -/
def Dev.outputLeaves (d : Dev) (n ne stamp : Nat) (v : Sample) : Dev :=
  let a := (d.analysed (n / 8) (0x20 + n) 1).outputCross n ne { v with env := (d.ddc n).env }
  (a.setDdc n { a.ddc n with stamp := stamp, out := v }).tally 0x0210 n 1

/-- An output joins the window that is open and leaves. -/
def Dev.outputJoins (d : Dev) (n ne stamp : Nat) (v : Sample) : Dev :=
  (d.setDdc n ((d.ddc n).joins (d.nI Ix.chnEnvAttack n) (d.nI Ix.chnEnvRelease n) v)).outputLeaves n ne stamp v

/-- An output of the window that is open, without over-range or saturation, counts nothing else. -/
theorem Dev.ddcDeliver_open {d : Dev} {n ne : Nat} {v : Sample} (hovr : v.ovr = 0) (hsat : v.sat = false)
    (hw : (d.ddc n).wIx = some (d.winOf n ne)) (stamp : Nat) : d.ddcDeliver n ne stamp v = d.outputJoins n ne stamp v := by
  rw [Dev.outputJoins, ← Dev.detect_open hw]
  simp only [Dev.ddcDeliver, Dev.outputLeaves, hovr, hsat, bne_self_eq_false, Bool.false_eq_true, if_false]

theorem Dev.outputCross_only (d : Dev) (n ne : Nat) (v : Sample) : d.changesOnly [.chn] [] (d.outputCross n ne v) := Dev.chn_only ..

theorem Dev.output_outputCross (d : Dev) (n ne : Nat) (v : Sample) :
    (d.outputCross n ne v).chn.output.get {} n = (d.chn.output.get {} n).accept.present [(ne, v)] := by
  rw [Dev.outputCross, Tab.get_set_same]

section
variable (d : Dev) (n ne stamp : Nat) (v : Sample)

theorem Dev.outputLeaves_only : d.changesOnly [.chn, .ctr] [Ix.pwrAnalysedSamples] (d.outputLeaves n ne stamp v) :=
  Dev.changesOnly_mono (Dev.changesOnly_trans (Dev.changesOnly_trans (Dev.changesOnly_trans (Dev.analysed_only ..) (Dev.outputCross_only ..))
    (Dev.setDdc_only ..)) (Dev.tally_only ..)) (by decide) (by decide)

theorem Dev.ddc_outputLeaves : (d.outputLeaves n ne stamp v).ddc n = { d.ddc n with stamp := stamp, out := v } := by
  rw [Dev.outputLeaves, (Dev.tally_only ..).ddc (by decide), Dev.ddc_setDdc, ← (d.analysed_only (n / 8) (0x20 + n) 1).ddc (by decide)]
  rfl

theorem Dev.crossing_outputLeaves : (d.outputLeaves n ne stamp v).crossing = d.crossing := by
  rw [Dev.outputLeaves, (Dev.tally_only ..).crossing (by decide), ← (d.analysed_only (n / 8) (0x20 + n) 1).crossing (by decide)]
  rfl

/-- The output stands in the DDC's crossing under its index, with its envelope (R17, R127). -/
theorem Dev.output_outputLeaves : (d.outputLeaves n ne stamp v).chn.output.get {} n =
    (d.chn.output.get {} n).accept.present [(ne, { v with env := (d.ddc n).env })] := by
  rw [Dev.outputLeaves, (Dev.tally_only ..).chn (by decide), ← (d.analysed_only (n / 8) (0x20 + n) 1).chn (by decide)]
  exact Dev.output_outputCross ..

theorem Dev.outputJoins_only : d.changesOnly [.chn, .ctr] [Ix.pwrAnalysedSamples] (d.outputJoins n ne stamp v) :=
  Dev.changesOnly_mono (Dev.changesOnly_trans (Dev.setDdc_only ..) (Dev.outputLeaves_only ..)) (by decide) (by decide)

theorem Dev.ddc_outputJoins : (d.outputJoins n ne stamp v).ddc n =
    { (d.ddc n).joins (d.nI Ix.chnEnvAttack n) (d.nI Ix.chnEnvRelease n) v with stamp := stamp, out := v } := by
  rw [Dev.outputJoins, Dev.ddc_outputLeaves, Dev.ddc_setDdc]

theorem Dev.crossing_outputJoins : (d.outputJoins n ne stamp v).crossing = d.crossing := Dev.crossing_outputLeaves ..

theorem Dev.output_outputJoins : (d.outputJoins n ne stamp v).chn.output.get {} n =
    (d.chn.output.get {} n).accept.present [(ne, { v with env := ((d.outputJoins n ne stamp v).ddc n).env })] := by
  rw [Dev.ddc_outputJoins, Dev.outputJoins, Dev.output_outputLeaves, Dev.ddc_setDdc]
  rfl

end

/-! ### An output that comes (R118 to R123) -/

/-- An output can be released: its DDC delivers outputs on the grid of its depth and is not past it, and what it reaches of
the input is known. -/
structure Dev.Releases (d : Dev) (n ne : Nat) : Prop where
  active : d.ddcActive n = true
  rate : d.fIn n ≠ 0
  grid : ne % 2 ^ d.nI Ix.chnDepth n = 0
  turn : ∀ k ∈ (d.ddc n).next, k ≤ ne
  known : d.inputKnown (d.nI Ix.chnSrc n) (ne + d.gDelay n) = true

/-- Nothing keeps an output from being judged. -/
theorem Dev.Releases.guard {d : Dev} {n ne : Nat} (h : d.Releases n ne) : ¬ (!d.ddcActive n || d.fIn n = 0 || ne % 2 ^ d.nI Ix.chnDepth n != 0 ||
    (d.ddc n).next.any (ne < ·) || !d.inputKnown (d.nI Ix.chnSrc n) (ne + d.gDelay n)) = true := by
  have hturn : (d.ddc n).next.any (ne < ·) = false := by
    cases hk : (d.ddc n).next with
    | none => rfl
    | some k => simpa using h.turn k hk
  simp [-Dev.nI_eq, h.active, h.rate, h.grid, hturn, h.known]

/-- An output value with its flags (R119, R122). -/
def Dev.outputOf (d : Dev) (n ne : Nat) (cause : Option Nat) : Sample :=
  { d.ddcFlags n ne (d.ddcValue n ne) with unsettled := cause.isSome, settle := cause.getD 0 }

/-- An output whose input has come is delivered after what was before it, unless it is flagged and to be discarded. -/
theorem Dev.ddcOutput_delivers {d r a : Dev} {n ne : Nat} {cause : Option Nat} (h : d.Releases n ne) (hheld : d.ddcHeld n = false)
    (hcome : (d.inputAt (d.nI Ix.chnSrc n) ne).isSome = true) (hr : (d.acknowledges n).ddcResume n ne = r) (hcause : r.unsettledBy n ne = cause)
    (ha : r.outputTurns n (ne + 2 ^ d.nI Ix.chnDepth n) (d.ddcTime n ne) cause = a) (hkept : cause = none ∨ a.nI Ix.chnSettlePolicy n = 0) :
    d.ddcOutput n ne = a.ddcDeliver n ne (d.ddcTime n ne) (r.outputOf n ne cause) := by
  have hcomes : ¬ (d.ddcHeld n || (d.inputAt (d.nI Ix.chnSrc n) ne).isNone) = true := by
    simp [-Dev.nI_eq, hheld, Option.isSome_iff_ne_none.1 hcome]
  have hkeeps : ¬ ((r.outputOf n ne cause).unsettled && a.nI Ix.chnSettlePolicy n = 1 && cause != some 6) = true := by
    rcases hkept with rfl | hpolicy
    · exact Bool.false_ne_true
    · simp [-Dev.nI_eq, hpolicy]
  subst hr hcause ha
  exact (if_neg h.guard).trans ((if_neg hcomes).trans (if_neg hkeeps))

theorem Dev.FeedsAs.outputOf {d e : Dev} (h : d.FeedsAs e) {n : Nat} (hchain : (e.ddc n).chainState = (d.ddc n).chainState) :
    e.outputOf n = d.outputOf n := funext fun ne => funext fun cause => by
  rw [Dev.outputOf, Dev.outputOf, h.ddcFlags, h.ddcValue hchain]

/-- An output without over-range or saturation, of the window that is open, joins it after what was before it. -/
theorem Dev.ddcOutput_joins {d r : Dev} {n ne : Nat} {cause : Option Nat} (h : d.Releases n ne) (hheld : d.ddcHeld n = false)
    (hcome : (d.inputAt (d.nI Ix.chnSrc n) ne).isSome = true) (hr : (d.acknowledges n).ddcResume n ne = r) (hfeeds : d.FeedsAs r)
    (hchain : (r.ddc n).chainState = (d.ddc n).chainState) (hrun : (r.ddc n).run = none) (hw : (r.ddc n).wIx = some (d.winOf n ne))
    (hcause : r.unsettledBy n ne = cause) (hkept : cause = none ∨ d.nI Ix.chnSettlePolicy n = 0)
    (hovr : (d.outputOf n ne cause).ovr = 0) (hsat : (d.outputOf n ne cause).sat = false) :
    d.ddcOutput n ne = (r.outputTurns n (ne + 2 ^ d.nI Ix.chnDepth n) (d.ddcTime n ne) cause).outputJoins n ne (d.ddcTime n ne)
      (d.outputOf n ne cause) := by
  obtain ⟨hturns, run, runs, hddc⟩ := Dev.outputTurns_keeps hrun (ne + 2 ^ d.nI Ix.chnDepth n) (d.ddcTime n ne) cause
  have hpolicy : cause = none ∨ (r.outputTurns n (ne + 2 ^ d.nI Ix.chnDepth n) (d.ddcTime n ne) cause).nI Ix.chnSettlePolicy n = 0 := by
    rwa [hturns.nI (by decide), hfeeds.frame.nI (by decide)]
  have hwin : (r.outputTurns n (ne + 2 ^ d.nI Ix.chnDepth n) (d.ddcTime n ne) cause).winOf n ne = d.winOf n ne := by
    rw [Dev.winOf, hturns.nI (by decide), hturns.nI (by decide), ← Dev.winOf, hfeeds.winOf]
  rw [Dev.ddcOutput_delivers h hheld hcome hr hcause rfl hpolicy, hfeeds.outputOf hchain]
  exact Dev.ddcDeliver_open hovr hsat (by rw [hwin, hddc]; exact hw) _

/-- An output in its turn that nothing flags: what has crossed is acknowledged, and the output joins and leaves. -/
theorem Dev.ddcOutput_inTurn {d : Dev} {n ne : Nat} (h : d.Releases n ne) (hheld : d.ddcHeld n = false)
    (hcome : (d.inputAt (d.nI Ix.chnSrc n) ne).isSome = true) (hst : d.ddcState n = 2) (hnext : (d.ddc n).next = some ne)
    (hruns : (d.ddc n).runs = []) (hrun : (d.ddc n).run = none) (hw : (d.ddc n).wIx = some (d.winOf n ne)) (hreach : d.reachesGap n ne = false)
    (hovr : (d.outputOf n ne none).ovr = 0) (hsat : (d.outputOf n ne none).sat = false) :
    ∃ a : Dev, d.ddcOutput n ne = a.outputJoins n ne (d.ddcTime n ne) (d.outputOf n ne none) ∧ d.changesOnly [.chn] [] a ∧
      a.ddc n = (d.ddc n).resumes.goesOn (ne + 2 ^ d.nI Ix.chnDepth n) (d.ddcTime n ne) ∧
      a.crossing (d.nI Ix.chnSrc n) = (d.crossing (d.nI Ix.chnSrc n)).accept ∧ a.chn.output = d.chn.output := by
  have hack : (d.acknowledges n).ddc n = d.ddc n := congrFun (d.ddc_acknowledges n) n
  have hresume : (d.acknowledges n).ddcResume n ne = (d.acknowledges n).gapEnds n := Dev.ddcResume_inTurn (by rwa [hack])
  have hfeeds := (d.acknowledges_feedsAs n).trans ((d.acknowledges n).gapEnds_feedsAs n)
  have hframe := Dev.changesOnly_step (d.acknowledges_only n) ((d.acknowledges n).gapEnds_only n)
  have hddc : ((d.acknowledges n).gapEnds n).ddc n = (d.ddc n).resumes := by rw [Dev.ddc_gapEnds, hack]
  have hcause : ((d.acknowledges n).gapEnds n).unsettledBy n ne = none :=
    Dev.unsettledBy_none (by rw [hddc]; exact hruns) (by rwa [hfeeds.reachesGap])
  have hstate : ((d.acknowledges n).gapEnds n).ddcState n ≠ 1 := by rw [Dev.ddcState, hframe.nI (by decide), ← Dev.ddcState, hst]; decide
  have hrun' : (((d.acknowledges n).gapEnds n).ddc n).run = none := by rw [hddc]; exact hrun
  refine ⟨_, Dev.ddcOutput_joins h hheld hcome hresume hfeeds (by rw [hddc]; rfl) hrun' (by rw [hddc]; exact hw) hcause (.inl rfl) hovr hsat, ?_⟩
  rw [Dev.outputTurns_unflagged hrun' hstate, hddc, Dev.crossing_setDdc, Dev.output_setDdc]
  exact ⟨Dev.changesOnly_step hframe (Dev.setDdc_only ..), Dev.ddc_setDdc .., by rw [Dev.gapEnds, Dev.crossing_setDdc, Dev.crossing_acknowledges],
    by rw [Dev.gapEnds, Dev.output_setDdc, Dev.output_acknowledges]⟩

/-- An output that ends a gap: the gap is recorded and counted with its exact length, and the output joins and leaves (R122, R132). -/
theorem Dev.ddcOutput_behind {d : Dev} {n ne k : Nat} {g : Nat × Nat} (h : d.Releases n ne) (hheld : d.ddcHeld n = false)
    (hcome : (d.inputAt (d.nI Ix.chnSrc n) ne).isSome = true) (hnext : (d.ddc n).next = some k) (hk : k < ne) (hgap : (d.ddc n).gapFirst = some g)
    (hgapRun : (d.ddc n).gapRun = (5, 0)) (hrun : (d.ddc n).run = none) (hw : (d.ddc n).wIx = some (d.winOf n ne))
    (hpolicy : d.nI Ix.chnSettlePolicy n = 0) (hovr : ∀ cause, (d.outputOf n ne cause).ovr = 0) (hsat : ∀ cause, (d.outputOf n ne cause).sat = false) :
    ∃ (a : Dev) (v : Sample), d.ddcOutput n ne = a.outputJoins n ne (d.ddcTime n ne) v ∧
      d.changesOnly [.chn, .out, .ctr] [Ix.chnGapSamples, Ix.chnState, Ix.chnUnsettled] a ∧
      a.out.gaps = addGap ⟨.ddc n, 1, g.1, d.ddcTime n ne, (ne - k) / 2 ^ d.nI Ix.chnDepth n, 0, g.2⟩ d.out.gaps ∧
      d.counted a Ix.chnGapSamples (n + 1) 0 ((ne - k) / 2 ^ d.nI Ix.chnDepth n) ∧ (a.ddc n).gapFirst = none ∧ (a.ddc n).wGap = true ∧
      (a.ddc n).next = some (ne + 2 ^ d.nI Ix.chnDepth n) := by
  have hack : (d.acknowledges n).ddc n = d.ddc n := congrFun (d.ddc_acknowledges n) n
  have hframe := d.acknowledges_only n
  obtain ⟨first, until_, hresume⟩ := Dev.ddcResume_behind (by rwa [hack]) hk (by rwa [hack]) (by rwa [hack])
  rw [(d.acknowledges_feedsAs n).ddcTime, hframe.nI List.not_mem_nil] at hresume
  have hrecorded := (d.acknowledges n).ddcGap_gaps n g.1 (d.ddcTime n ne) ((ne - k) / 2 ^ d.nI Ix.chnDepth n) g.2
  have hcounted := (d.acknowledges n).ddcGap_counted n g.1 (d.ddcTime n ne) ((ne - k) / 2 ^ d.nI Ix.chnDepth n) g.2
  have hgapped := (d.acknowledges n).ddc_ddcGap n g.1 (d.ddcTime n ne) ((ne - k) / 2 ^ d.nI Ix.chnDepth n) g.2
  have hgaps := (d.acknowledges n).ddcGap_only n g.1 (d.ddcTime n ne) ((ne - k) / 2 ^ d.nI Ix.chnDepth n) g.2
  have hfeeds := (d.acknowledges_feedsAs n).trans ((d.acknowledges n).ddcGap_feedsAs n g.1 (d.ddcTime n ne) ((ne - k) / 2 ^ d.nI Ix.chnDepth n) g.2)
  generalize (d.acknowledges n).ddcGap n g.1 (d.ddcTime n ne) ((ne - k) / 2 ^ d.nI Ix.chnDepth n) g.2 = b at *
  obtain ⟨hflags, hunsettled, runs, hddc⟩ := (b.gapEnds n).unsettle_keeps n 5 first until_
  rw [Dev.ddc_gapEnds, hgapped, hack] at hddc
  have hends := Dev.changesOnly_trans (b.gapEnds_only n) hunsettled
  generalize (b.gapEnds n).unsettle n 5 first until_ = r at *
  obtain ⟨hturns, run, runs', hturned⟩ := Dev.outputTurns_keeps (by rw [hddc]; exact hrun) (ne + 2 ^ d.nI Ix.chnDepth n) (d.ddcTime n ne)
    (r.unsettledBy n ne)
  have hafter := Dev.changesOnly_trans hends hturns
  refine ⟨_, _, Dev.ddcOutput_joins h hheld hcome hresume ((hfeeds.trans (b.gapEnds_feedsAs n)).trans hflags) (by rw [hddc]; rfl)
    (by rw [hddc]; exact hrun) (by rw [hddc]; exact hw) rfl (.inr hpolicy) (hovr _) (hsat _), ?_, ?_, ?_, ?_⟩
  · exact Dev.changesOnly_mono (Dev.changesOnly_trans (Dev.changesOnly_trans hframe hgaps) hafter) (by decide) (by decide)
  · rw [hafter.out (by decide), hrecorded, hframe.out (by decide)]
  · exact (hframe.counted (by decide) hcounted).after hafter (by decide)
  · rw [hturned, hddc]
    exact ⟨rfl, rfl, rfl⟩

/-- An output whose input does not come opens a gap, at the first output not delivered, or leaves it open (R122). -/
theorem Dev.ddcOutput_misses {d : Dev} {n ne k : Nat} (h : d.Releases n ne) (hnext : (d.ddc n).next = some k)
    (hmiss : d.ddcHeld n = true ∨ d.inputAt (d.nI Ix.chnSrc n) ne = none) : d.ddcOutput n ne =
      if (d.ddc n).gapFirst.isSome then d
      else d.setDdc n { d.ddc n with gapFirst := some (d.ddcTime n k, if d.ddcHeld n then 10 else 1) } := by
  have hmisses : (d.ddcHeld n || (d.inputAt (d.nI Ix.chnSrc n) ne).isNone) = true := by
    rcases hmiss with hheld | hnone
    · rw [hheld, Bool.true_or]
    · rw [hnone, Option.isNone_none, Bool.or_true]
  have hk : (d.ddc n).next.getD ne = k := by rw [hnext]; rfl
  rw [← hk]
  exact (if_neg h.guard).trans (if_pos hmisses)

/-- A DDC without a drain releases the output of the chain in force. -/
theorem completes_ddcOutput {t n ne : Nat} {s : State} {e x : Dev} {pl : List Part} {ps : List Nat} {post : Dev → Prop} (he : e = s.dev.at t) (hn : n < 33)
    (hdrain : (e.ddc n).drain = none) (hx : e.ddcOutput n ne = x) (hc : e.changesOnly pl ps x) (hp : post x) :
    Completes (.ddcOutput t n ne 0) t s pl ps post := by
  subst he
  exact completesIf_of_eq (exec_ddcOutput t n ne 0 s) (by simpa using hn) (by simp only [if_true, hdrain]; exact hx) hc hp

section
variable {t n ne : Nat} {s : State} {e : Dev} (he : e = s.dev.at t) (hn : n < 33) (hdrain : (e.ddc n).drain = none) (hrel : e.Releases n ne)
include he hn hdrain hrel

/-- An output in its turn, whose input has come and which nothing flags, is delivered. -/
theorem ddcOutput_delivers (hheld : e.ddcHeld n = false) (hcome : (e.inputAt (e.nI Ix.chnSrc n) ne).isSome = true) (hst : e.ddcState n = 2)
    (hnext : (e.ddc n).next = some ne) (hruns : (e.ddc n).runs = []) (hrun : (e.ddc n).run = none)
    (hw : (e.ddc n).wIx = some (e.winOf n ne)) (hreach : e.reachesGap n ne = false) {v : Sample} (hv : v = e.ddcFlags n ne (e.ddcValue n ne))
    (hovr : v.ovr = 0) (hsat : v.sat = false) :
    Completes (.ddcOutput t n ne 0) t s [.chn, .ctr] [Ix.pwrAnalysedSamples] fun d =>
      (d.ddc n).out = { v with unsettled := false, settle := 0 } ∧ (d.ddc n).stamp = e.ddcTime n ne ∧
      (d.ddc n).next = some (ne + 2 ^ e.nI Ix.chnDepth n) ∧ (d.ddc n).wCount = (e.ddc n).wCount + 1 ∧
      (d.ddc n).wPeak = max (e.ddc n).wPeak (samplePower v) ∧ (d.ddc n).wSum = (e.ddc n).wSum + samplePower v ∧
      (d.ddc n).env = envStep (e.nI Ix.chnEnvAttack n) (e.nI Ix.chnEnvRelease n) (e.ddc n).env (sqrtRound (samplePower v * 2 ^ 46)) ∧
      d.crossing (e.nI Ix.chnSrc n) = (e.crossing (e.nI Ix.chnSrc n)).accept ∧
      d.chn.output.get {} n = (e.chn.output.get {} n).accept.present [(ne, { v with unsettled := false, settle := 0, env := (d.ddc n).env })] := by
  subst hv
  obtain ⟨a, hout, hframe, hddc, hcross, hcrossed⟩ := Dev.ddcOutput_inTurn hrel hheld hcome hst hnext hruns hrun hw hreach hovr hsat
  refine completes_ddcOutput he hn hdrain hout (Dev.changesOnly_mono (Dev.changesOnly_trans hframe (Dev.outputJoins_only ..)) (by decide) (by decide)) ?_
  rw [Dev.output_outputJoins, hcrossed, Dev.ddc_outputJoins, Dev.crossing_outputJoins, hframe.nI List.not_mem_nil, hframe.nI List.not_mem_nil, hddc]
  exact ⟨rfl, rfl, rfl, rfl, rfl, rfl, rfl, hcross, rfl⟩

/-- An output whose input does not come, or that is held, leaves the gap open or opens one at the first output not delivered. -/
theorem ddcOutput_opensGap {k : Nat} (hnext : (e.ddc n).next = some k)
    (hmiss : e.ddcHeld n = true ∨ e.inputAt (e.nI Ix.chnSrc n) ne = none) :
    Completes (.ddcOutput t n ne 0) t s [.chn] [] fun d =>
      d.ddc n = { e.ddc n with gapFirst := some ((e.ddc n).gapFirst.getD (e.ddcTime n k, if e.ddcHeld n then 10 else 1)) } := by
  have hout := Dev.ddcOutput_misses hrel hnext hmiss
  cases hgap : (e.ddc n).gapFirst with
  | none =>
    rw [hgap] at hout
    exact completes_ddcOutput he hn hdrain hout (Dev.setDdc_only ..) (Dev.ddc_setDdc ..)
  | some g =>
    rw [hgap] at hout
    refine completes_ddcOutput he hn hdrain (hout.trans (if_pos rfl)) (Dev.changesOnly_refl ..) ?_
    rw [Option.getD_some, ← hgap]

/-- An output that comes after others of an open gap ends the gap with its exact length. -/
theorem ddcOutput_endsGap {k : Nat} {g : Nat × Nat} (hheld : e.ddcHeld n = false) (hcome : (e.inputAt (e.nI Ix.chnSrc n) ne).isSome = true)
    (hnext : (e.ddc n).next = some k) (hk : k < ne) (hgap : (e.ddc n).gapFirst = some g) (hgapRun : (e.ddc n).gapRun = (5, 0))
    (hrun : (e.ddc n).run = none) (hw : (e.ddc n).wIx = some (e.winOf n ne)) (hpolicy : e.nI Ix.chnSettlePolicy n = 0)
    (hovr : (e.ddcFlags n ne (e.ddcValue n ne)).ovr = 0) (hsat : (e.ddcValue n ne).sat = false) :
    Completes (.ddcOutput t n ne 0) t s [.chn, .out, .ctr] [Ix.chnGapSamples, Ix.chnState, Ix.chnUnsettled, Ix.pwrAnalysedSamples] fun d =>
      d.out.gaps = addGap ⟨.ddc n, 1, g.1, e.ddcTime n ne, (ne - k) / 2 ^ e.nI Ix.chnDepth n, 0, g.2⟩ e.out.gaps ∧
      e.counted d Ix.chnGapSamples (n + 1) 0 ((ne - k) / 2 ^ e.nI Ix.chnDepth n) ∧ (d.ddc n).gapFirst = none ∧ (d.ddc n).wGap = true ∧
      (d.ddc n).next = some (ne + 2 ^ e.nI Ix.chnDepth n) := by
  obtain ⟨a, v, hout, hframe, hgaps, hcounted, hgapFirst, hwGap, hnext'⟩ := Dev.ddcOutput_behind hrel hheld hcome hnext hk hgap hgapRun hrun hw hpolicy
    (fun _ => hovr) (fun _ => hsat)
  have hjoins := a.outputJoins_only n ne (e.ddcTime n ne) v
  refine completes_ddcOutput he hn hdrain hout (Dev.changesOnly_mono (Dev.changesOnly_trans hframe hjoins) (by decide) (by decide))
    ⟨?_, hcounted.after hjoins (by decide), ?_⟩
  · rw [hjoins.out (by decide), hgaps]
  · rw [Dev.ddc_outputJoins]
    exact ⟨hgapFirst, hwGap, hnext'⟩

end

end Sys2Proof.Machine
end

section
/-! PROOFS. The detector window's close, the end of a drain, and what settles O20 (R122, R126 to R128). -/

namespace Sys2Proof.Machine

theorem exec_detectorWindowClose (t n : Nat) (s : State) : exec (.detectorWindowClose t n) s = execDetectorWindowClose t n s := rfl

theorem exec_ddcDrainTimeout (t n : Nat) (s : State) : exec (.ddcDrainTimeout t n) s = execDdcDrainTimeout t n s := rfl

/-! ### The detector window (R126 to R128) -/

/-- A record whose losses no entry counts leaves every entry. -/
theorem Dev.emitTo_uncounted_only (d : Dev) (ring : Nat) (r : Rec) : d.changesOnly [.out] [] (d.emitTo ring 0 r) := by
  unfold Dev.emitTo
  exact Dev.changesOnly_ite (fun _ => Dev.changesOnly_refl ..) fun _ => Dev.changesOnly_ite (fun _ => Dev.out_only ..) fun _ => Dev.changesOnly_refl ..

/-- The mean power of the open window, 0 of an empty one. -/
def DdcSt.windowMean (x : DdcSt) : Nat := if x.wCount = 0 then 0 else (roundEven (x.wSum : Int) x.wCount).toNat

theorem DdcSt.windowMean_cast (x : DdcSt) :
    (x.windowMean : Int) = if x.wCount = 0 then 0 else ((roundEven (x.wSum : Int) x.wCount).toNat : Int) :=
  Nat.cast_ite ..

/-- A DDC whose window has closed and none is open. -/
def DdcSt.windowCloses (x : DdcSt) : DdcSt :=
  { x with wIx := none, wCount := 0, wPeak := 0, wSum := 0, wOvr := 0, wSat := 0, wFlagged := false, wGap := false, wPartial := false,
           wSeq := wrap48 (x.wSeq + 1) }

/-- The entries a closed window fills. -/
def Dev.windowEntries (d : Dev) (n : Nat) : Dev :=
  ((d.wI Ix.chnDetPeak n (d.ddc n).wPeak).wI Ix.chnDetMean n (d.ddc n).windowMean).wI Ix.chnDetEnv n (d.ddc n).env

theorem Dev.windowEntries_only (d : Dev) (n : Nat) : d.changesOnly [] [Ix.chnDetPeak, Ix.chnDetMean, Ix.chnDetEnv] (d.windowEntries n) :=
  Dev.changesOnly_trans (Dev.changesOnly_trans (Dev.wr_only ..) (Dev.wr_only ..)) (Dev.wr_only ..)

theorem Dev.windowEntries_rd (d : Dev) (n : Nat) :
    (d.windowEntries n).rd Ix.chnDetPeak (n + 1) 0 = normTy (typeOf Ix.chnDetPeak (n + 1)) (d.ddc n).wPeak ∧
    (d.windowEntries n).rd Ix.chnDetMean (n + 1) 0 = normTy (typeOf Ix.chnDetMean (n + 1)) (d.ddc n).windowMean ∧
    (d.windowEntries n).rd Ix.chnDetEnv (n + 1) 0 = normTy (typeOf Ix.chnDetEnv (n + 1)) (d.ddc n).env := by
  refine ⟨?_, ?_, Dev.rd_wr_same ..⟩
  · exact ((Dev.wr_only ..).rd _ _ (by decide)).trans (((Dev.wr_only ..).rd _ _ (by decide)).trans (Dev.rd_wr_same ..))
  · exact ((Dev.wr_only ..).rd _ _ (by decide)).trans (Dev.rd_wr_same ..)

/-- A window closes into its entries and its record. -/
theorem Dev.closeWindow_eq (d : Dev) (n : Nat) :
    ∃ ring r, d.closeWindow n = ((d.windowEntries n).emitTo ring 0 r).setDdc n (d.ddc n).windowCloses := ⟨_, _, rfl⟩

/-- The open window closes into its entries when its last output has been delivered. -/
theorem detectorWindowClose_closes {t n w k : Nat} {s : State} {e : Dev} (he : e = s.dev.at t) (hn : n < 33) (hw : (e.ddc n).wIx = some w)
    (hnext : (e.ddc n).next = some k) (hk : e.winFirst n (w + 1) ≤ k) :
    Completes (.detectorWindowClose t n) t s [.chn, .out] [Ix.chnDetPeak, Ix.chnDetMean, Ix.chnDetEnv] fun d =>
      d.ddc n = (e.ddc n).windowCloses ∧ d.rd Ix.chnDetPeak (n + 1) 0 = normTy (typeOf Ix.chnDetPeak (n + 1)) (e.ddc n).wPeak ∧
      d.rd Ix.chnDetMean (n + 1) 0 = normTy (typeOf Ix.chnDetMean (n + 1)) (e.ddc n).windowMean ∧
      d.rd Ix.chnDetEnv (n + 1) 0 = normTy (typeOf Ix.chnDetEnv (n + 1)) (e.ddc n).env := by
  subst he
  obtain ⟨ring, r, hclose⟩ := (s.dev.at t).closeWindow_eq n
  have hentries := (s.dev.at t).windowEntries_only n
  have hafter := Dev.changesOnly_trans (((s.dev.at t).windowEntries n).emitTo_uncounted_only ring r) (Dev.setDdc_only _ n ((s.dev.at t).ddc n).windowCloses)
  refine completesIf_of_eq (exec_detectorWindowClose t n s) (by simpa using hn) ?_
    (Dev.changesOnly_mono (Dev.changesOnly_trans hentries hafter) (by decide) (by decide)) ?_
  · simp only [hw, hnext, Option.any_some, decide_eq_true hk, if_true, hclose]
  · rw [hafter.rd _ _ List.not_mem_nil, hafter.rd _ _ List.not_mem_nil, hafter.rd _ _ List.not_mem_nil]
    exact ⟨Dev.ddc_setDdc .., Dev.windowEntries_rd ..⟩

/-! ### The end of a drain (R122, R487) -/

/-- A gap that counts something changes the list it joins, also where it merges. -/
theorem addGap_ne {g : Gap} (l : List Gap) (hg : g.count ≠ 0) : addGap g l ≠ l := by
  have hcons : g :: l ≠ l := List.cons_ne_self g l
  unfold addGap
  split
  next h hfind =>
    split
    · intro heq
      have hmem : h ∈ l := List.mem_of_find?_eq_some hfind
      have hfixed := List.map_eq_map_iff.1 (heq.trans l.map_id.symm) h hmem
      have hcount : h.count + g.count = h.count := by simpa using congrArg Gap.count hfixed
      omega
    · exact hcons
  · exact hcons

/-- A DDC that no longer drains. -/
def DdcSt.drained (x : DdcSt) : DdcSt := { x with drain := none }

/-- How many outputs of the chain before are still to be released before the boundary `b`. -/
def Dev.drainLeft (d : Dev) (n b : Nat) : Nat :=
  match (d.ddc n).oldNext with
  | some k => ((d.overlay (d.ddc n).old).ddcAfter n b - k) / 2 ^ (d.overlay (d.ddc n).old).nI Ix.chnDepth n
  | none => 0

theorem Dev.drainLeft_zero {d : Dev} {n b : Nat} (h : ∀ k ∈ (d.ddc n).oldNext, (d.overlay (d.ddc n).old).ddcAfter n b ≤ k) : d.drainLeft n b = 0 := by
  unfold Dev.drainLeft
  split
  next k hk => rw [Nat.sub_eq_zero_of_le (h k hk), Nat.zero_div]
  · rfl

/-- A drain cut short, with no run of the old chain open. -/
theorem Dev.drainCut_eq {d : Dev} {n b : Nat} (hdrain : (d.ddc n).drain = some b) (hrun : (d.ddc n).oldRun = none) :
    d.drainCut n = if d.drainLeft n b = 0 then d.setDdc n (d.ddc n).drained
      else (d.setDdc n (d.ddc n).drained).ddcGap n ((d.overlay (d.ddc n).old).ddcTime n ((d.ddc n).oldNext.getD 0)) b (d.drainLeft n b) 10 := by
  have hold : d.endOldRun n = d := by rw [Dev.endOldRun, hrun]
  rw [Dev.drainCut, hdrain]
  simp only [hold]
  rfl

/-- What a drain's timeout does once the drain has been cut short. -/
def Dev.drainEnds (d : Dev) (n : Nat) (e : Dev) : Dev :=
  let e := if e.out.gaps = d.out.gaps then e else e.raise 4 Code.drainForced
  if e.nI Ix.chnSrc n = 0 then e.ddcOff n else e

/-- 50 µs after its boundary a drain is cut short. -/
theorem completes_ddcDrainTimeout {t n b : Nat} {s : State} {e x : Dev} {pl : List Part} {ps : List Nat} {post : Dev → Prop} (he : e = s.dev.at t)
    (hn : n < 33) (hdrain : (e.ddc n).drain = some b) (hb : b + us 50 ≤ e.time96) (hx : e.drainEnds n (e.drainCut n) = x)
    (hc : e.changesOnly pl ps x) (hp : post x) : Completes (.ddcDrainTimeout t n) t s pl ps post := by
  subst he
  refine completesIf_of_eq (exec_ddcDrainTimeout t n s) (by simpa using hn) ?_ hc hp
  rw [hdrain]
  exact (if_pos hb).trans hx

/-- A drain with nothing left to release ends. -/
theorem ddcDrainTimeout_ends {t n b : Nat} {s : State} {e : Dev} (he : e = s.dev.at t) (hn : n < 33) (hdrain : (e.ddc n).drain = some b)
    (hb : b + us 50 ≤ e.time96) (hsrc : e.nI Ix.chnSrc n ≠ 0) (hrun : (e.ddc n).oldRun = none)
    (hdone : ∀ k ∈ (e.ddc n).oldNext, (e.overlay (e.ddc n).old).ddcAfter n b ≤ k) :
    Completes (.ddcDrainTimeout t n) t s [.chn] [] fun d => d.ddc n = (e.ddc n).drained := by
  have hframe := e.setDdc_only n (e.ddc n).drained
  refine completes_ddcDrainTimeout he hn hdrain hb ?_ hframe (Dev.ddc_setDdc ..)
  rw [Dev.drainCut_eq hdrain hrun, if_pos (Dev.drainLeft_zero hdone), Dev.drainEnds, hframe.out (by decide), if_pos rfl, hframe.nI List.not_mem_nil,
    if_neg hsrc]

/-- A DDC that is off: no output is due, and no drain is in force. -/
def DdcSt.isOff (x : DdcSt) : DdcSt := { x with next := none, runs := [], drain := none, gapFirst := none }

/-- A DDC goes off. -/
def Dev.goesOff (d : Dev) (n : Nat) : Dev := (d.setDdc n (d.ddc n).isOff).wI Ix.chnState n 0

theorem Dev.goesOff_only (d : Dev) (n : Nat) : d.changesOnly [.chn] [Ix.chnState] (d.goesOff n) :=
  Dev.changesOnly_trans (Dev.setDdc_only ..) (Dev.wr_only ..)

theorem Dev.ddc_goesOff (d : Dev) (n : Nat) : (d.goesOff n).ddc n = (d.ddc n).isOff :=
  (congrFun ((Dev.wr_only ..).ddc List.not_mem_nil) n).trans (Dev.ddc_setDdc ..)

theorem Dev.chnState_goesOff (d : Dev) (n : Nat) : (d.goesOff n).rd Ix.chnState (n + 1) 0 = 0 := (Dev.rd_wr_same ..).trans (normTy_zero _)

/-- A DDC with no run of flagged outputs goes off and records none. -/
theorem Dev.ddcOff_eq {d : Dev} {n : Nat} (hrun : (d.ddc n).run = none) (hold : (d.ddc n).oldRun = none) : d.ddcOff n = d.goesOff n := by
  have hend : d.endRun n = d := by rw [Dev.endRun, hrun]
  have hendOld : d.endOldRun n = d := by rw [Dev.endOldRun, hold]
  rw [Dev.ddcOff, hend, hendOld]
  rfl

/-- The outputs a drain has not released are discarded as a gap, and the DDC without a source goes off. -/
theorem ddcDrainTimeout_cuts {t n b k : Nat} {s : State} {e : Dev} (he : e = s.dev.at t) (hn : n < 33) (hdrain : (e.ddc n).drain = some b)
    (hb : b + us 50 ≤ e.time96) (hsrc : e.nI Ix.chnSrc n = 0) (hold : (e.ddc n).oldRun = none) (hrun : (e.ddc n).run = none)
    (hnext : (e.ddc n).oldNext = some k) (hleft : e.drainLeft n b ≠ 0) (hq : e.sup.emergencies.length < 32) :
    Completes (.ddcDrainTimeout t n) t s (.chn :: .out :: codeParts) (Ix.chnGapSamples :: Ix.chnState :: codePlaces) fun d =>
      (d.ddc n).drain = none ∧ (d.ddc n).next = none ∧ d.rd Ix.chnState (n + 1) 0 = 0 ∧ d.reports 4 Code.drainForced ∧
      e.counted d Ix.chnGapSamples (n + 1) 0 (e.drainLeft n b) ∧
      d.out.gaps = addGap ⟨.ddc n, 1, (e.overlay (e.ddc n).old).ddcTime n k, b, e.drainLeft n b, 0, 10⟩ e.out.gaps := by
  have hdrained := e.setDdc_only n (e.ddc n).drained
  have hcut := Dev.drainCut_eq hdrain hold
  rw [if_neg hleft, hnext, Option.getD_some] at hcut
  generalize (e.overlay (e.ddc n).old).ddcTime n k = first at *
  generalize e.drainLeft n b = left at *
  have hgap := (e.setDdc n (e.ddc n).drained).ddcGap_only n first b left 10
  have hcounted := (e.setDdc n (e.ddc n).drained).ddcGap_counted n first b left 10
  have hgaps := (e.setDdc n (e.ddc n).drained).ddcGap_gaps n first b left 10
  have hddc := (e.setDdc n (e.ddc n).drained).ddc_ddcGap n first b left 10
  rw [← hcut] at hgap hcounted hgaps hddc
  rw [hdrained.out (by decide)] at hgaps
  rw [Dev.ddc_setDdc] at hddc
  have hcuts := Dev.changesOnly_trans hdrained hgap
  generalize hc : e.drainCut n = c at hcounted hgaps hddc hcuts
  have hraise := c.raise_only 4 Code.drainForced
  have hddc' := (congrFun (hraise.ddc (by decide)) n).trans hddc
  have hnew : ¬ c.out.gaps = e.out.gaps := hgaps ▸ addGap_ne _ hleft
  have hends : e.drainEnds n c = (c.raise 4 Code.drainForced).goesOff n := by
    rw [Dev.drainEnds, if_neg hnew, hraise.nI (by decide), hcuts.nI (by decide), if_pos hsrc]
    exact Dev.ddcOff_eq (by rw [hddc']; exact hrun) (by rw [hddc']; exact hold)
  obtain ⟨hlast, hpath⟩ := c.raise_places 4 Code.drainForced (by rw [hcuts.sup (by decide)]; exact hq) (by decide) (by decide)
  have hoff := (c.raise 4 Code.drainForced).goesOff_only n
  have hafter := Dev.changesOnly_trans hraise hoff
  refine completes_ddcDrainTimeout he hn hdrain hb ((congrArg (e.drainEnds n) hc).trans hends)
    (Dev.changesOnly_mono (Dev.changesOnly_trans hcuts hafter) (by decide) (by decide)) ⟨?_, ?_, Dev.chnState_goesOff .., ?_, ?_, ?_⟩
  · rw [Dev.ddc_goesOff, hddc']
    rfl
  · rw [Dev.ddc_goesOff]
    rfl
  · exact ⟨(hoff.rd _ _ (by decide)).trans hlast, (hoff.rd _ _ (by decide)).trans hpath⟩
  · exact (hdrained.counted (by decide) hcounted).after hafter (by decide)
  · rw [hafter.out (by decide), hgaps]

/-- Settles O20, clause by clause: an output delivered, a gap opened, a gap ended, the detector window, a drain that ends and one cut short. -/
theorem channeliserOutputsAndWindows : Obligations.ChanneliserOutputsAndWindows := by
  unfold Obligations.ChanneliserOutputsAndWindows
  refine ⟨?_, ?_, ?_, ?_, ?_, ?_⟩
  · intro t n ne s e code x v p he hn hcode hrate hgrid hactive hheld hst hx hdrain hnext hruns hrun hgap hw hcome hknown hreach hv hovr hsat hp
    subst hcode hx hp
    exact ddcOutput_delivers he hn hdrain ⟨hactive, hrate, hgrid, by simp [hnext], hknown⟩ hheld hcome hst hnext hruns hrun hw hreach hv hovr hsat
  · intro t n ne s e k he hn hrate hgrid hactive hdrain hnext hk hknown hmiss
    exact ddcOutput_opensGap he hn hdrain ⟨hactive, hrate, hgrid, by simpa [hnext] using hk, hknown⟩ hnext hmiss
  · intro t n ne s e code x g k he hn hcode hrate hgrid hactive hheld hx hdrain hnext hk hgap hgapRun hrun hw hcome hknown hpolicy hovr hsat
    subst hcode hx
    exact ddcOutput_endsGap he hn hdrain ⟨hactive, hrate, hgrid, by simpa [hnext] using Nat.le_of_lt hk, hknown⟩ hheld hcome hnext hk hgap hgapRun hrun hw
      hpolicy hovr hsat
  · intro t n s e x w k he hn hx hw hnext hk
    subst hx
    rw [← DdcSt.windowMean_cast]
    exact detectorWindowClose_closes he hn hw hnext hk
  · intro t n s e x b he hn hx hdrain hb hsrc hold hdone
    subst hx
    exact ddcDrainTimeout_ends he hn hdrain hb hsrc hold hdone
  · intro t n s e x o b k left he hn hx hdrain hb hsrc hold hrun hnext ho hleft hne hq
    have hdrainLeft : left = e.drainLeft n b := by rw [hleft, ho, Dev.drainLeft, ← hx, hnext]
    subst hx ho
    rw [hdrainLeft] at hne ⊢
    exact ddcDrainTimeout_cuts he hn hdrain hb hsrc hold hrun hnext hne hq

end Sys2Proof.Machine
end

section
/-! PROOFS. The update of a DDC that is off (R135): the refutation of O21. -/

namespace Sys2Proof.Machine

theorem exec_ddcUpdateDone (t : Nat) (ok : Bool) (s : State) : exec (.ddcUpdateDone t ok) s = execDdcUpdateDone t ok s := rfl

/-- DDC 0, whose source is none, is being updated as a write to `chn.repoint` leaves it: in state 2, with no handover that has taken it out. -/
def updateOfIdleDdc : State :=
  { State.reset with dev := { State.reset.dev.wr Ix.chnRepointState 0 0 2 with flt := { repoint := some { isl := 2, inst := 0 } } } }

/-- Refutes O21: a DDC whose source is none is updated with no standby and no cut (R135), so that its repointing ends with the update. The
clause on DDC_UPDATE_DONE says of every repointing of a DDC that it goes on in state 3, and does not ask that a handover has taken the DDC out. -/
theorem not_channeliserFaultsAndRepointing : ¬ Obligations.ChanneliserFaultsAndRepointing := by
  unfold Obligations.ChanneliserFaultsAndRepointing
  rintro ⟨-, -, -, -, -, -, -, -, -, -, -, -, hupdate, -⟩
  obtain ⟨-, hgoesOn, -⟩ := (completes_run (exec_ddcUpdateDone 0 true updateOfIdleDdc)).1
    (hupdate 0 updateOfIdleDdc _ _ rfl rfl rfl (by decide +kernel))
  exact absurd hgoesOn (by decide +kernel)

end Sys2Proof.Machine
end

section
/-! PROOFS. What a frame leaves of the Spectral Engine's layers, what a layer's rate, cost and memory are read from, and the codes of faults (R140
to R143, R149, R407, R482). -/

namespace Sys2Proof.Machine

/-! ### The engine's own state -/

theorem Dev.spe_only (d : Dev) (x : SpeSt) : d.changesOnly [.spe] [] { d with spe := x } :=
  ⟨fun p hp h => by cases p <;> first | rfl | exact absurd rfl h | simp at hp, fun _ _ _ _ => rfl⟩

theorem Dev.den_only (d : Dev) (x : DenSt) : d.changesOnly [.den] [] { d with den := x } :=
  ⟨fun p hp h => by cases p <;> first | rfl | exact absurd rfl h | simp at hp, fun _ _ _ _ => rfl⟩

theorem Dev.setLayer_only (d : Dev) (l : Nat) (x : LayerSt) : d.changesOnly [.spe] [] (d.setLayer l x) := Dev.spe_only ..

theorem Dev.layer_setLayer (d : Dev) (l : Nat) (x : LayerSt) : (d.setLayer l x).layer l = x := Tab.get_set_same ..

/-- The entries that a layer's rate, cost, memory and points, and a lane's limits, are read from (Table 6.1, R140 to R143, R149, R152). -/
def layerInputs : List Nat :=
  [Ix.speLayerSrc, Ix.speLayerLen, Ix.speHopShift, Ix.speDet, Ix.speDetBins, Ix.speDetCount, Ix.speWindow, Ix.chnSrc, Ix.chnDepth, Ix.chnFilterSet,
    Ix.chnLaneSrc, Ix.itkFs, Ix.itkMode, Ix.tbIslFreq, Ix.tbSscMode, Ix.tbSscDepth, Ix.trgMaskLayer, Ix.denLayer]

section
variable {pl : List Part} {ps : List Nat} {d e : Dev} (h : d.changesOnly pl ps e)
include h

theorem Dev.changesOnly.n0 {ix : Nat} (hix : ix ∉ ps) : e.n0 ix = d.n0 ix := congrArg Int.toNat (h.rd _ _ hix)

theorem Dev.changesOnly.spe (hp : Part.spe ∉ pl) : e.spe = d.spe := (h.1 .spe hp (by decide)).symm

theorem Dev.changesOnly.den (hp : Part.den ∉ pl) : e.den = d.den := (h.1 .den hp (by decide)).symm

theorem Dev.changesOnly.layer (hp : Part.spe ∉ pl) : e.layer = d.layer := funext fun l => congrArg (fun x => x.layers.get {} l) (h.spe hp)

/-- A set in force on both leaves the same frame between them. -/
theorem Dev.changesOnly.overlay (l : List SWrite) : (d.overlay l).changesOnly pl ps (e.overlay l) := by
  induction l generalizing d e with
  | nil => exact h
  | cons w r ih =>
    refine ih ⟨fun p hp hd => ?_, fun ix sub inst hix => ?_⟩
    · have hagree := h.1 p hp hd
      cases p <;> first | exact hagree | exact absurd rfl hd
    · rw [Dev.rd_wr, Dev.rd_wr, h.rd _ _ hix]

theorem Dev.changesOnly.feedsDensity (hix : Ix.denLayer ∉ ps) : e.feedsDensity = d.feedsDensity := funext fun l => by
  rw [Dev.feedsDensity, Dev.feedsDensity, h.nI hix]

theorem Dev.changesOnly.feedsMask (hix : Ix.trgMaskLayer ∉ ps) : e.feedsMask = d.feedsMask := funext fun l => by
  rw [Dev.feedsMask, Dev.feedsMask, h.nI hix]

theorem Dev.changesOnly.layerMasks (hix : Ix.trgMaskLayer ∉ ps) : e.layerMasks = d.layerMasks := funext fun l => by
  rw [Dev.layerMasks, Dev.layerMasks, h.nI hix]

/-- Whether a layer feeds its lane's plane at an instant is a matter of the planes and of the entry alone (R225). -/
theorem Dev.changesOnly.feedsAt (hden : Part.den ∉ pl) (hix : Ix.denLayer ∉ ps) : e.feedsAt = d.feedsAt := funext fun l => funext fun time => by
  rw [Dev.feedsAt, Dev.feedsAt, h.den hden, h.feedsDensity hix]
  split
  · rw [(h.overlay _).feedsDensity hix]
  · rfl

/-! A frame that lists neither the Channeliser's state nor an entry that layers are read from. -/

variable (hin : ∀ ix ∈ layerInputs, ix ∉ ps)
include hin

theorem Dev.changesOnly.layerDdc : e.layerDdc = d.layerDdc := funext fun l => by
  rw [Dev.layerDdc, Dev.layerDdc, h.nI (hin Ix.speLayerSrc (by decide))]

theorem Dev.changesOnly.layerN : e.layerN = d.layerN := h.nI (hin Ix.speLayerLen (by decide))

theorem Dev.changesOnly.layerHop : e.layerHop = d.layerHop := funext fun l => by
  rw [Dev.layerHop, Dev.layerHop, h.layerN hin, h.nI (hin Ix.speHopShift (by decide))]

theorem Dev.changesOnly.laneLayers : e.laneLayers = d.laneLayers := funext fun p => by
  rw [Dev.laneLayers, Dev.laneLayers, h.nI (hin Ix.speLayerSrc (by decide))]

theorem Dev.changesOnly.wideCode : e.wideCode = d.wideCode := funext fun p => by
  rw [Dev.wideCode, Dev.wideCode, h.nI (hin Ix.chnLaneSrc (by decide))]

theorem Dev.changesOnly.linkReal : e.linkReal = d.linkReal := funext fun q => by
  rw [Dev.linkReal, Dev.linkReal, h.nI (hin Ix.itkMode (by decide))]

theorem Dev.changesOnly.clockKHz : e.clockKHz = d.clockKHz := funext fun isl => by
  rw [Dev.clockKHz, Dev.clockKHz, h.nI (hin Ix.tbIslFreq (by decide))]

theorem Dev.changesOnly.checkKHz : e.checkKHz = d.checkKHz := funext fun isl => by
  rw [Dev.checkKHz, Dev.checkKHz, h.clockKHz hin, h.nI (hin Ix.tbSscMode (by decide)), h.nI (hin Ix.tbSscDepth (by decide))]

variable (hchn : Part.chn ∉ pl)
include hchn

theorem Dev.changesOnly.rawPer : e.rawPer = d.rawPer := funext fun code => by
  rw [Dev.rawPer, Dev.rawPer, h.linkReal hin, h.chn hchn]

theorem Dev.changesOnly.srcRate : e.srcRate = d.srcRate := funext fun code => by
  rw [Dev.srcRate, Dev.srcRate, h.linkReal hin, h.linkFs (hin Ix.itkFs (by decide)), h.chn hchn]

theorem Dev.changesOnly.fOut : e.fOut = d.fOut := funext fun n => by
  rw [Dev.fOut, Dev.fOut, Dev.fIn, Dev.fIn, h.srcRate hin hchn, h.nI (hin Ix.chnSrc (by decide)), h.nI (hin Ix.chnDepth (by decide))]

theorem Dev.changesOnly.layerRate : e.layerRate = d.layerRate := funext fun l => by
  rw [Dev.layerRate, Dev.layerRate, h.layerDdc hin, h.fOut hin hchn, h.srcRate hin hchn, h.wideCode hin, h.nI (hin Ix.speLayerSrc (by decide))]

theorem Dev.changesOnly.layerCost : e.layerCost = d.layerCost := funext fun l => by
  rw [Dev.layerCost, Dev.layerCost, h.layerRate hin hchn, h.nI (hin Ix.speHopShift (by decide))]

theorem Dev.changesOnly.layerMem : e.layerMem = d.layerMem := funext fun l => by
  rw [Dev.layerMem, Dev.layerMem, h.layerN hin, h.layerHop hin, h.layerCost hin hchn, h.nI (hin Ix.speDetCount (by decide)),
    h.nI (hin Ix.speDetBins (by decide)), h.nI (hin Ix.speWindow (by decide))]

theorem Dev.changesOnly.laneCost : e.laneCost = d.laneCost := funext fun p => by
  rw [Dev.laneCost, Dev.laneCost, h.laneLayers hin, h.layerCost hin hchn]

/-- A lane's limits are the same where it can count on as many cores (Table 6.1). -/
theorem Dev.changesOnly.laneLimit {p : Nat} (hcores : e.laneCores p = d.laneCores p) : e.laneLimit p = d.laneLimit p := funext fun ls => by
  rw [Dev.laneLimit, Dev.laneLimit, hcores, h.checkKHz hin, h.layerCost hin hchn, h.layerRate hin hchn, h.layerHop hin, h.layerMem hin hchn,
    h.layerDdc hin, h.fOut hin hchn, h.feedsMask (hin Ix.trgMaskLayer (by decide)), h.feedsDensity (hin Ix.denLayer (by decide))]

theorem Dev.changesOnly.usablePoints : e.usablePoints = d.usablePoints := funext fun l => by
  have husable : e.usable64 l = d.usable64 l := by
    rw [Dev.usable64, Dev.usable64, h.rawPer hin hchn, h.layerDdc hin, h.wideCode hin, h.nI (hin Ix.chnDepth (by decide)),
      h.nI (hin Ix.chnSrc (by decide)), h.nI (hin Ix.chnFilterSet (by decide))]
  rw [Dev.usablePoints, Dev.usablePoints, husable, h.layerN hin, h.nI (hin Ix.speDetBins (by decide))]

/-- Which recorded points of a trace saturate is the same (R5, R147). -/
theorem Dev.changesOnly.traceConv : e.traceConv = d.traceConv := funext fun l => funext fun x => by
  have hpowers : e.tracePowers l x = d.tracePowers l x := by
    rw [Dev.tracePowers, Dev.tracePowers, h.nI (hin Ix.speDet (by decide)), h.nI (hin Ix.speDetBins (by decide))]
  rw [Dev.traceConv, Dev.traceConv, Dev.traceRange, Dev.traceRange, h.usablePoints hin hchn, hpowers]

end

/-! ### Codes of faults (R407, R420, R482) -/

/-- A raised code's places are its base's: the fault log is elsewhere. -/
theorem Dev.raiseBase_places (d : Dev) {c : Nat} (hq : d.sup.emergencies.length < 32) (hc : c < 2 ^ 32) : (d.raiseBase 4 c).reports 4 c := by
  have hraise : ∀ ix sub, ix ≠ Ix.fltLogCount → (d.raise 4 c).rd ix sub 0 = (d.raiseBase 4 c).rd ix sub 0 := fun ix sub hix => by
    simp only [Dev.raise]
    split
    · exact Dev.rd_logEntry _ _ _ _ _ _ _ _ _ _ _ hix
    · rfl
  obtain ⟨hlast, hpath⟩ := d.raise_places 4 c hq hc (by decide)
  exact ⟨(hraise _ _ (by decide)).symm.trans hlast, (hraise _ _ (by decide)).symm.trans hpath⟩

theorem Dev.changesOnly.reports {pl : List Part} {ps : List Nat} {d e : Dev} (h : d.changesOnly pl ps e) {path c : Nat}
    (hr : d.reports path c) (hl : Ix.fltLastError ∉ ps := by decide) (hp : Ix.fltPathError ∉ ps := by decide) : e.reports path c :=
  ⟨(h.rd _ _ hl).trans hr.1, (h.rd _ _ hp).trans hr.2⟩

/-- A fault without an interruption: its class counted, its code raised, an entry of the log. -/
theorem Dev.fault_eq (d : Dev) (cls isl inst value : Nat) {c : Nat} (hc : c ≠ 0) : d.fault cls c isl inst value 0 =
    ((d.incI Ix.fltClassCount (cls - 1)).raiseBase 4 c).logEntry c
      ((d.incI Ix.fltClassCount (cls - 1)).raiseBase 4 c).time96 isl inst cls value 0 := by
  simp only [Dev.fault, Nat.not_lt_zero, hc, if_false]

/-- A fault's code is the last error (R407, R482). -/
theorem Dev.fault_reports (d : Dev) (cls isl inst value : Nat) {c : Nat} (hq : d.sup.emergencies.length < 32) (hc0 : c ≠ 0 := by decide)
    (hc : c < 2 ^ 32 := by decide) : (d.fault cls c isl inst value 0).reports 4 c := by
  rw [Dev.fault_eq _ _ _ _ _ hc0]
  exact (Dev.logEntry_only ..).reports (Dev.raiseBase_places _ (by rw [(Dev.incI_only ..).sup (by decide)]; exact hq) hc)

/-- A code sends at most one emergency. -/
theorem Dev.raiseBase_room (d : Dev) (path c : Nat) : (d.raiseBase path c).sup.emergencies.length ≤ d.sup.emergencies.length + 1 := by
  have hbit : ∀ e : Dev, (e.setErrorBit c).sup.emergencies = e.sup.emergencies := fun e => Dev.setErrorBit_sup_emergencies ..
  have hplaced : ((d.placeCode path c).setErrorBit c).sup.emergencies = d.sup.emergencies := by
    rw [hbit, Dev.placeCode_sup]
  have hpushed : ∀ e : Dev, (if codeSeverity c = 3 then e.pushHistory c else e).sup.emergencies = e.sup.emergencies := fun e => by
    split
    · rw [Dev.pushHistory_sup]
    · rfl
  have hqueued : ∀ (e : Dev) (x : Emergency), (e.queueEmergency x).sup.emergencies.length ≤ e.sup.emergencies.length + 1 := fun e x => by
    unfold Dev.queueEmergency
    split <;> simp
  simp only [Dev.raiseBase]
  split
  · exact (hqueued ..).trans (by rw [hpushed, hplaced])
  · rw [hpushed, hplaced]; omega

theorem Dev.fault_room (d : Dev) (cls isl inst value : Nat) {c : Nat} (hc : c ≠ 0 := by decide) :
    (d.fault cls c isl inst value 0).sup.emergencies.length ≤ d.sup.emergencies.length + 1 := by
  rw [Dev.fault_eq _ _ _ _ _ hc, (Dev.logEntry_only ..).sup (by decide)]
  exact (Dev.raiseBase_room ..).trans (by rw [(Dev.incI_only ..).sup (by decide)])

end Sys2Proof.Machine
end

section
/-! PROOFS. Frames, traces and the stop of a layer (R141, R153 to R159, R162, R163). -/

namespace Sys2Proof.Machine

theorem exec_speFrameDone (t l m core : Nat) (bins : List (Int × Int)) (exponent eccCore eccPool : Nat) (s : State) :
    exec (.speFrameDone t l m core bins exponent eccCore eccPool) s = execSpeFrameDone t l m core bins exponent eccCore eccPool s := rfl

theorem exec_traceClose (t l : Nat) (s : State) : exec (.traceClose t l) s = execTraceClose t l s := rfl

theorem exec_layerStopTimeout (t l : Nat) (s : State) : exec (.layerStopTimeout t l) s = execLayerStopTimeout t l s := rfl

theorem exec_layerMemError (t l m lost : Nat) (s : State) : exec (.layerMemError t l m lost) s = execLayerMemError t l m lost s := rfl

/-! ### Lost frames (R154, R181, R214) -/

theorem Dev.masksLost_only (d : Dev) (l count : Nat) : d.changesOnly [.ctr] [Ix.trgMaskLost] (d.masksLost l count) :=
  Dev.changesOnly_foldl _ (fun a _ => Dev.changesOnly_ite (fun _ => a.incI_only ..) fun _ => Dev.changesOnly_refl ..) _ d

theorem Dev.planeLost_only (d : Dev) (l count time : Nat) : d.changesOnly [.den, .ctr] [Ix.denFramesLost] (d.planeLost l count time) :=
  Dev.changesOnly_ite (fun _ => Dev.changesOnly_trans (Dev.den_only ..) (Dev.incI_only ..)) fun _ => Dev.changesOnly_refl ..

/-- A layer whose next frame is at or after an index. -/
def LayerSt.goesOn (x : LayerSt) (next : Nat) : LayerSt := { x with next := some (max (x.next.getD 0) next) }

/-- Lost frames counted and recorded as a gap of their layer. -/
def Dev.framesLost (d : Dev) (l m count cause : Nat) : Dev :=
  (d.gap ⟨.layer l, 2, d.frameTime l m, d.frameTime l (m + count), count, 0, cause⟩).incI Ix.speFramesLost l count

theorem Dev.framesLost_only (d : Dev) (l m count cause : Nat) : d.changesOnly [.out, .ctr] [Ix.speFramesLost] (d.framesLost l m count cause) :=
  Dev.changesOnly_trans (Dev.gap_only ..) (Dev.incI_only ..)

/-- A gap of a layer: its frames are lost, the layer goes on behind them, and its masks and its plane count them too. -/
theorem Dev.layerGap_eq (d : Dev) (l m count cause : Nat) : d.layerGap l m count cause =
    (((d.framesLost l m count cause).setLayer l (((d.framesLost l m count cause).layer l).goesOn (m + count))).masksLost l count).planeLost l count
      (d.frameTime l m) := rfl

/-- What follows the count and the record of lost frames. -/
theorem Dev.layerGap_behind (d : Dev) (l m count cause : Nat) :
    (d.framesLost l m count cause).changesOnly [.spe, .ctr, .den] [Ix.trgMaskLost, Ix.denFramesLost] (d.layerGap l m count cause) :=
  Dev.changesOnly_mono (Dev.changesOnly_trans (Dev.changesOnly_trans (Dev.setLayer_only ..) (Dev.masksLost_only ..)) (Dev.planeLost_only ..))
    (by decide) (by decide)

theorem Dev.layerGap_only (d : Dev) (l m count cause : Nat) :
    d.changesOnly [.spe, .den, .out, .ctr] [Ix.speFramesLost, Ix.trgMaskLost, Ix.denFramesLost] (d.layerGap l m count cause) :=
  Dev.changesOnly_mono (Dev.changesOnly_trans (d.framesLost_only l m count cause) (d.layerGap_behind ..)) (by decide) (by decide)

theorem Dev.layer_layerGap (d : Dev) (l m count cause : Nat) : (d.layerGap l m count cause).layer l = (d.layer l).goesOn (m + count) := by
  rw [Dev.layerGap_eq, (Dev.planeLost_only ..).layer (by decide), (Dev.masksLost_only ..).layer (by decide), Dev.layer_setLayer,
    (Dev.framesLost_only ..).layer (by decide)]

theorem Dev.layerGap_counted (d : Dev) (l m count cause : Nat) :
    d.counted (d.layerGap l m count cause) Ix.speFramesLost (l + 1) 0 count :=
  ((Dev.gap_only ..).counted (by decide) (Dev.inc_counted ..)).after (d.layerGap_behind ..) (by decide)

theorem Dev.layerGap_gaps (d : Dev) (l m count cause : Nat) : (d.layerGap l m count cause).out.gaps =
    addGap ⟨.layer l, 2, d.frameTime l m, d.frameTime l (m + count), count, 0, cause⟩ d.out.gaps := by
  rw [(d.layerGap_behind ..).out (by decide), Dev.framesLost, (Dev.incI_only ..).out (by decide)]
  rfl

/-! ### A frame completes (R141, R147, R153 to R155) -/

/-- Frame m of a layer is the one expected, under the setting in force, and every sample of it has come or will not come. -/
structure Dev.FrameDue (d : Dev) (l m : Nat) : Prop where
  src : d.nI Ix.speLayerSrc l ≠ 0
  drain : (d.layer l).drain = none
  old : (d.layer l).oldUntil = none
  next : (d.layer l).next = some m
  known : ∀ k < d.layerN l, d.layerKnown l (m * d.layerHop l + k) = true

/-- The samples of frame m of a layer. -/
def Dev.frameSamples (d : Dev) (l m : Nat) : List (Option Sample) := (List.range (d.layerN l)).map (fun k => d.layerSample l (m * d.layerHop l + k))

section
variable {d : Dev} {l m core : Nat} (h : d.FrameDue l m) (bins : List (Int × Int)) (exponent : Nat)
include h

/-- The expected frame is lost with its core's share, or with its samples where the policy fills nothing, and computed otherwise. -/
theorem Dev.FrameDue.frameDone_eq : d.frameDone d l m core bins exponent false =
    if d.shareGone core then d.layerGap l m 1 10
    else if (d.frameSamples l m).any (·.isNone) && d.nI Ix.speGapPolicy l = 0 then d.layerGap l m 1 (d.layerCause l m)
    else (d.setLayer l { d.layer l with next := some (m + 1) }).frameComputed d l m bins
      (sampleFlags ((d.frameSamples l m).filterMap id) + (if (d.frameSamples l m).any (·.isNone) then 8 else 0)) exponent false := by
  have hknown : (!(List.range (d.layerN l)).all fun k => d.layerKnown l (m * d.layerHop l + k)) = false := by
    simpa using h.known
  simp only [Dev.frameDone, hknown, h.next, Bool.false_eq_true, if_false, Option.getD_some, Nat.lt_irrefl, Bool.and_false, Bool.false_and,
    Bool.not_false, Bool.and_true]
  rfl

theorem Dev.FrameDue.frameDone_shareGone (hgone : d.shareGone core = true) : d.frameDone d l m core bins exponent false = d.layerGap l m 1 10 := by
  rw [h.frameDone_eq, if_pos hgone]

theorem Dev.FrameDue.frameDone_gap (hshare : d.shareGone core = false)
    (hmiss : ∃ k < d.layerN l, d.layerSample l (m * d.layerHop l + k) = none) (hpolicy : d.nI Ix.speGapPolicy l = 0) :
    d.frameDone d l m core bins exponent false = d.layerGap l m 1 (d.layerCause l m) := by
  have hany : (d.frameSamples l m).any (·.isNone) = true := by simpa [Dev.frameSamples] using hmiss
  rw [h.frameDone_eq, if_neg (by simp [hshare]), if_pos (by rw [hany, hpolicy]; decide)]

theorem Dev.FrameDue.frameDone_whole (hshare : d.shareGone core = false) (hcome : ∀ g ∈ d.frameSamples l m, g.isSome = true) :
    d.frameDone d l m core bins exponent false = (d.setLayer l { d.layer l with next := some (m + 1) }).frameComputed d l m bins
      (sampleFlags ((d.frameSamples l m).filterMap id)) exponent false := by
  have hany : (d.frameSamples l m).any (·.isNone) = false := by
    simpa [List.any_eq_false, Option.isSome_iff_ne_none] using hcome
  rw [h.frameDone_eq, if_neg (by simp [hshare]), if_neg (by simp [hany]), hany]
  rfl

end

/-- A trace with a frame more: one that has a first frame keeps it (R153). -/
theorem Dev.joinTrace_counts (d : Dev) (l m : Nat) (x : TraceSt) (ps : List (Nat × Bool)) (bins : List (Int × Int)) (flags exponent : Nat) :
    (d.joinTrace l m x ps bins flags exponent).frames = x.frames + 1 ∧
    (d.joinTrace l m x ps bins flags exponent).first = some (x.first.getD m) ∧
    (d.joinTrace l m x ps bins flags exponent).exp = max x.exp exponent := by
  simp only [Dev.joinTrace]
  split <;> exact ⟨rfl, rfl, rfl⟩

/-- Bins that do not saturate, on a layer with no mask and no plane, join the layer's open trace and nothing else (R152, R153). -/
theorem Dev.frameComputed_joins {d cfg : Dev} {l m : Nat} {bins : List (Int × Int)} (hsat : ∀ b ∈ bins.map pwr48, b.2 = false)
    (hmasks : d.layerMasks l = []) (hfeeds : d.feedsAt l (cfg.frameTime l m) = false)
    (hstart : (d.layer l).start ≤ m / cfg.traceLen l * cfg.traceLen l)
    (hopen : ∀ f ∈ (d.layer l).trace.first, f / cfg.traceLen l = m / cfg.traceLen l) (flags exponent : Nat) :
    d.frameComputed cfg l m bins flags exponent false = (d.incI Ix.speFrames l).setLayer l
      { d.layer l with trace := cfg.joinTrace l m (d.layer l).trace (bins.map pwr48) bins flags exponent } := by
  have hinc := d.incI_only Ix.speFrames l 1
  have hnone : ((bins.map pwr48).filter (·.2)).length = 0 := by
    rw [List.filter_eq_nil_iff.2 fun b hb => by simp [hsat b hb]]; rfl
  have hsame : (d.layer l).trace.first.any (fun f => f / cfg.traceLen l != m / cfg.traceLen l) = false := by
    cases hf : (d.layer l).trace.first with
    | none => rfl
    | some f => simp [hopen f hf]
  simp only [Dev.frameComputed, hnone, Dev.binsSaturated, if_true, hinc.layerMasks (by decide), hmasks, List.foldl_nil,
    hinc.feedsAt (by decide) (by decide), hfeeds, Bool.false_eq_true, if_false, hinc.layer (by decide), if_neg (Nat.not_lt.2 hstart), hsame]

/-- The expected frame completes on a core as `frameDone` says, where its layer does not drain. -/
theorem completes_speFrameDone {t l m core exponent : Nat} {bins : List (Int × Int)} {s : State} {e x : Dev} {pl : List Part} {ps : List Nat}
    {post : Dev → Prop} (he : e = s.dev.at t) (hl : l < 16) (hcore : core < 33) (hdue : e.FrameDue l m)
    (hx : e.frameDone e l m core bins exponent false = x) (hdrain : (x.layer l).drain = none) (hc : e.changesOnly pl ps x) (hp : post x) :
    Completes (.speFrameDone t l m core bins exponent 0 0) t s pl ps post := by
  subst he
  refine completesIf_of_eq (exec_speFrameDone t l m core bins exponent 0 0 s) (by simp [hl, hcore]) ?_ hc hp
  have hnew : (s.dev.at t).oldFrame l m = false := by simp only [Dev.oldFrame, hdue.old]
  simp only [if_true, hnew, hdue.next, hdue.drain, hdue.src, Option.any_some, Option.any_none, Nat.lt_irrefl, decide_false, Bool.or_false, hx, hdrain,
    Bool.false_eq_true, if_false]

section
variable {t l m core : Nat} {s : State} {e : Dev} (he : e = s.dev.at t) (hl : l < 16) (hcore : core < 33) (hdue : e.FrameDue l m)
  (bins : List (Int × Int)) (exponent : Nat)
include he hl hcore hdue

/-- A whole frame joins its layer's open trace and is counted. -/
theorem speFrameDone_joins (hcome : ∀ g ∈ e.frameSamples l m, g.isSome = true) (hshare : e.shareGone core = false) (hmasks : e.layerMasks l = [])
    (hfeeds : e.feedsAt l (e.frameTime l m) = false) (hsat : ∀ b ∈ bins.map pwr48, b.2 = false)
    (hstart : (e.layer l).start ≤ m / e.traceLen l * e.traceLen l)
    (hopen : ∀ f ∈ (e.layer l).trace.first, f / e.traceLen l = m / e.traceLen l) :
    Completes (.speFrameDone t l m core bins exponent 0 0) t s [.spe, .ctr] [Ix.speFrames] fun d =>
      e.counted d Ix.speFrames (l + 1) 0 1 ∧
      d.layer l = { e.layer l with
        next := some (m + 1)
        trace := e.joinTrace l m (e.layer l).trace (bins.map pwr48) bins (sampleFlags ((e.frameSamples l m).filterMap id)) exponent } := by
  have hset := e.setLayer_only l { e.layer l with next := some (m + 1) }
  have hlayer := e.layer_setLayer l { e.layer l with next := some (m + 1) }
  have hjoins := Dev.frameComputed_joins (d := e.setLayer l { e.layer l with next := some (m + 1) }) (cfg := e) (m := m) hsat
    ((congrFun (hset.layerMasks List.not_mem_nil) l).trans hmasks) ((congrFun₂ (hset.feedsAt (by decide) List.not_mem_nil) _ _).trans hfeeds)
    (by rw [hlayer]; exact hstart) (by rw [hlayer]; exact hopen) (sampleFlags ((e.frameSamples l m).filterMap id)) exponent
  rw [hlayer] at hjoins
  have hcount := Dev.changesOnly_trans hset (Dev.incI_only _ Ix.speFrames l 1)
  have hafter := ((e.setLayer l { e.layer l with next := some (m + 1) }).incI Ix.speFrames l).setLayer_only l
    { e.layer l with
      next := some (m + 1)
      trace := e.joinTrace l m (e.layer l).trace (bins.map pwr48) bins (sampleFlags ((e.frameSamples l m).filterMap id)) exponent }
  exact completes_speFrameDone he hl hcore hdue ((hdue.frameDone_whole bins exponent hshare hcome).trans hjoins)
    (by rw [Dev.layer_setLayer]; exact hdue.drain) (Dev.changesOnly_mono (Dev.changesOnly_trans hcount hafter) (by decide) (by decide))
    ⟨(hset.counted List.not_mem_nil (Dev.inc_counted ..)).after hafter List.not_mem_nil, Dev.layer_setLayer ..⟩

/-- A frame that is lost for a cause is a gap of its layer, whose trace goes on without it. -/
theorem speFrameDone_loses {cause : Nat} (hx : e.frameDone e l m core bins exponent false = e.layerGap l m 1 cause) :
    Completes (.speFrameDone t l m core bins exponent 0 0) t s [.spe, .den, .out, .ctr] [Ix.speFramesLost, Ix.trgMaskLost, Ix.denFramesLost] fun d =>
      e.counted d Ix.speFramesLost (l + 1) 0 1 ∧ (d.layer l).next = some (m + 1) ∧ (d.layer l).trace = (e.layer l).trace ∧
      d.out.gaps = addGap ⟨.layer l, 2, e.frameTime l m, e.frameTime l (m + 1), 1, 0, cause⟩ e.out.gaps := by
  have hlayer := e.layer_layerGap l m 1 cause
  have hnext : ((e.layer l).goesOn (m + 1)).next = some (m + 1) := by simp [LayerSt.goesOn, hdue.next]
  exact completes_speFrameDone he hl hcore hdue hx (by rw [hlayer]; exact hdue.drain) (e.layerGap_only ..)
    ⟨e.layerGap_counted .., by rw [hlayer, hnext], by rw [hlayer]; rfl, e.layerGap_gaps ..⟩

end

/-! ### Traces (R153, R156) -/

/-- Where no point saturates in its conversion, a trace is at most recorded and counted. -/
theorem Dev.traceEmit_only {d cfg : Dev} {l : Nat} {x : TraceSt} (hconv : cfg.traceConv l x = []) (partial_ : Bool) :
    d.changesOnly [.out, .ctr] [Ix.speTraces] (d.traceEmit cfg l x partial_) := by
  unfold Dev.traceEmit
  rw [hconv]
  exact Dev.changesOnly_ite (fun _ => Dev.changesOnly_refl ..) fun _ => Dev.changesOnly_trans (pl := [.out]) (ps := [])
    (Dev.changesOnly_ite (fun _ => Dev.changesOnly_refl ..) fun _ => Dev.emitTo_uncounted_only ..) (Dev.incI_only ..)

/-- A record of a trace leaves every gap. -/
theorem Dev.traceEmit_gaps {d cfg : Dev} {l : Nat} {x : TraceSt} (hconv : cfg.traceConv l x = []) (partial_ : Bool) :
    (d.traceEmit cfg l x partial_).out.gaps = d.out.gaps := by
  unfold Dev.traceEmit
  rw [hconv]
  dsimp only
  split
  · rfl
  · rw [(Dev.incI_only ..).out (by decide)]
    split
    · rfl
    · exact Dev.emitTo_out_gaps ..

/-- A trace that holds a frame goes to a ring that takes records. -/
theorem Dev.traceEmit_recorded {d cfg : Dev} {l : Nat} {x : TraceSt} (hconv : cfg.traceConv l x = []) (hframes : x.frames ≠ 0)
    (hformat : x.format ≠ 0) (hring : x.ring ≠ noRing) (htakes : d.ringTakes x.ring = true) (partial_ : Bool) :
    d.traceEmit cfg l x partial_ =
      { d with out := { d.out with outbox := d.out.outbox ++ [(x.ring, cfg.spectrumRecord l x partial_)] } }.incI Ix.speTraces l := by
  simp only [Dev.traceEmit, hconv, hframes, hformat, if_false, List.length_nil, Dev.binsSaturated, if_true, Dev.emitTo, hring, htakes]

/-- A trace that no roll layer takes gives no line. -/
theorem Dev.rollTrace_unused {d : Dev} {src : Nat} (hroll : ∀ k < 3, d.nI Ix.vpRoll k = 0 ∨ d.nI Ix.vpRollSrc k ≠ src) (time : Nat)
    (pts : List Int) : d.rollTrace src time pts = d := by
  have hskip : ∀ k < 3, (d.nI Ix.vpRoll k != 0 && d.nI Ix.vpRollSrc k == src) = false := fun k hk => by
    rcases hroll k hk with h | h
    · rw [h]; rfl
    · rw [beq_false_of_ne h, Bool.and_false]
  simp only [Dev.rollTrace, List.range, List.range.loop, List.foldl, hskip 0 (by decide), hskip 1 (by decide), hskip 2 (by decide),
    Bool.false_eq_true, if_false]

/-- A full trace closes: it is counted, recorded, and a new one begins. -/
theorem traceClose_closes {t l f : Nat} {s : State} {e : Dev} {x : LayerSt} (he : e = s.dev.at t) (hl : l < 16) (hx : x = e.layer l)
    (hsrc : e.nI Ix.speLayerSrc l ≠ 0) (hfirst : x.trace.first = some f) (hframes : x.trace.frames ≠ 0) (hformat : x.trace.format ≠ 0)
    (hring : x.trace.ring ≠ noRing) (htakes : e.ringTakes x.trace.ring = true) (hfull : (f / e.traceLen l + 1) * e.traceLen l ≤ x.next.getD 0)
    (hconv : e.traceConv l x.trace = []) (hroll : ∀ k < 3, e.nI Ix.vpRoll k = 0 ∨ e.nI Ix.vpRollSrc k ≠ l) :
    CompletesMem (.traceClose t l) t s [.spe, .out, .ctr] [Ix.speTraces] fun m d =>
      m = s.mem ∧ e.counted d Ix.speTraces (l + 1) 0 1 ∧ d.layer l = { x with trace := {} } ∧
      d.out.outbox = e.out.outbox ++ [(x.trace.ring, e.spectrumRecord l x.trace false)] := by
  subst hx
  have hemit := e.traceEmit_only hconv false (d := e)
  have hrec := Dev.traceEmit_recorded (d := e) hconv hframes hformat hring htakes false
  generalize hy : e.traceEmit e l (e.layer l).trace false = y at hemit hrec
  have hset := y.setLayer_only l { e.layer l with trace := {} }
  have hall := Dev.changesOnly_trans hemit hset
  have hline : ∀ time pts, (y.setLayer l { y.layer l with trace := {} }).rollTrace l time pts = y.setLayer l { e.layer l with trace := {} } := by
    rw [hemit.layer (by decide)]
    exact Dev.rollTrace_unused (by rwa [hall.nI (by decide), hall.nI (by decide)])
  have hcount : e.counted y Ix.speTraces (l + 1) 0 1 := by
    rw [hrec]; exact (Dev.out_only ..).counted (by decide) (Dev.inc_counted ..)
  have hbox : y.out.outbox = e.out.outbox ++ [((e.layer l).trace.ring, e.spectrumRecord l (e.layer l).trace false)] := by
    rw [hrec, (Dev.incI_only ..).out (by decide)]
  subst he
  have hrun : exec (.traceClose t l) s = .next { s with dev := y.setLayer l { (s.dev.at t).layer l with trace := {} } } := by
    simp only [exec_traceClose, execTraceClose, runIf, run, decide_eq_true hl, if_true, hsrc, hfirst, Nat.not_lt.2 hfull, hy, if_false]
    rw [hline]
  exact ⟨s.mem, _, hrun, Dev.changesOnly_mono hall (by decide) (by decide), rfl, hcount.after hset List.not_mem_nil, Dev.layer_setLayer ..,
    by rw [hset.out (by decide), hbox]⟩

/-! ### A memory error, a stop (R159, R162) -/

/-- An uncorrectable word of the layer pools loses the frames that read it. -/
theorem layerMemError_loses {t l lost : Nat} {s : State} {e : Dev} (he : e = s.dev.at t) (hl : l < 16) (m : Nat)
    (hq : e.sup.emergencies.length < 32) :
    Completes (.layerMemError t l m lost) t s (.spe :: .den :: .out :: codeParts)
      (Ix.speFramesLost :: Ix.trgMaskLost :: Ix.denFramesLost :: faultPlaces) fun d =>
      e.counted d Ix.speFramesLost (l + 1) 0 lost ∧ (d.layer l).next = some (max ((e.layer l).next.getD 0) (m + lost)) ∧
      d.reports 4 Code.layerMemError := by
  subst he
  have hgap := (s.dev.at t).layerGap_only l m lost 10
  have hfault := ((s.dev.at t).layerGap l m lost 10).fault_only 2 Code.layerMemError 3 l 0 0
  refine completesIf_of_eq (exec_layerMemError t l m lost s) (by simpa using hl) rfl
    (Dev.changesOnly_mono (Dev.changesOnly_trans hgap hfault) (by decide) (by decide)) ⟨?_, ?_, ?_⟩
  · exact ((s.dev.at t).layerGap_counted l m lost 10).after hfault (by decide)
  · rw [hfault.layer (by decide), Dev.layer_layerGap]
    rfl
  · exact Dev.fault_reports _ 2 3 l 0 (by rw [hgap.sup (by decide)]; exact hq)

/-- A layer that has stopped: no frame is due, no trace is open. -/
def LayerSt.stopped (x : LayerSt) : LayerSt := { x with drain := none, next := none, trace := {} }

/-- A stopped layer goes off: its source reads none, and the reports of the layer and its lane follow. -/
def Dev.layerOff (d : Dev) (l : Nat) : Dev :=
  (((d.setLayer l (d.layer l).stopped).wI Ix.speLayerSrc l 0).layerReport l).laneReport (l / 4)

theorem Dev.layerStopped_eq (d : Dev) (l : Nat) : d.layerStopped l = (d.traceEmit d l (d.layer l).trace true).layerOff l := rfl

theorem Dev.layerOff_reports_only (d : Dev) (l : Nat) :
    ((d.setLayer l (d.layer l).stopped).wI Ix.speLayerSrc l 0).changesOnly [] layerPlaces (d.layerOff l) :=
  Dev.changesOnly_step (Dev.layerReport_only ..) (Dev.laneReport_only ..)

theorem Dev.layerOff_only (d : Dev) (l : Nat) : d.changesOnly [.spe] (Ix.speLayerSrc :: layerPlaces) (d.layerOff l) :=
  Dev.changesOnly_mono (Dev.changesOnly_trans (Dev.changesOnly_trans (Dev.setLayer_only ..) (Dev.wr_only ..)) (d.layerOff_reports_only l))
    (by decide) (by decide)

theorem Dev.layer_layerOff (d : Dev) (l : Nat) : (d.layerOff l).layer l = (d.layer l).stopped := by
  rw [(d.layerOff_reports_only l).layer List.not_mem_nil]
  exact (congrFun ((Dev.wr_only ..).layer List.not_mem_nil) l).trans (Dev.layer_setLayer ..)

theorem Dev.layerSrc_layerOff (d : Dev) (l : Nat) : (d.layerOff l).rd Ix.speLayerSrc (l + 1) 0 = 0 :=
  ((d.layerOff_reports_only l).rd _ _ (by decide)).trans ((Dev.rd_wr_same ..).trans (normTy_zero _))

/-- Frames begun before the T of a stop and not complete 50 µs after it are discarded into a gap, and the layer stops. -/
theorem layerStopTimeout_cuts {t l b k left : Nat} {s : State} {e : Dev} (he : e = s.dev.at t) (hl : l < 16)
    (hdrain : (e.layer l).drain = some b) (hb : b + us 50 ≤ e.time96) (hk : k = (e.layer l).next.getD (e.frameAfter l b))
    (hleft : left = e.frameAfter l b - k) (hne : left ≠ 0) (hconv : e.traceConv l (e.layer l).trace = []) (hq : e.sup.emergencies.length < 32) :
    Completes (.layerStopTimeout t l) t s (.spe :: .den :: .out :: codeParts)
      (Ix.speFramesLost :: Ix.trgMaskLost :: Ix.denFramesLost :: Ix.speTraces :: Ix.speLayerSrc :: (layerPlaces ++ codePlaces)) fun d =>
      (d.layer l).drain = none ∧ (d.layer l).next = none ∧ (d.layer l).trace = {} ∧ d.rd Ix.speLayerSrc (l + 1) 0 = 0 ∧
      e.counted d Ix.speFramesLost (l + 1) 0 left ∧ d.reports 4 Code.drainForced ∧
      d.out.gaps = addGap ⟨.layer l, 2, e.frameTime l k, e.frameTime l (k + left), left, 0, 10⟩ e.out.gaps := by
  have hgap := e.layerGap_only l k left 10
  have hraise := (e.layerGap l k left 10).raise_only 4 Code.drainForced
  have hcut := Dev.changesOnly_trans hgap hraise
  have hlayer : ((e.layerGap l k left 10).raise 4 Code.drainForced).layer l = (e.layer l).goesOn (k + left) :=
    (congrFun (hraise.layer (by decide)) l).trans (e.layer_layerGap l k left 10)
  have hreports : ((e.layerGap l k left 10).raise 4 Code.drainForced).reports 4 Code.drainForced :=
    Dev.raise_places _ 4 Code.drainForced (by rw [hgap.sup (by decide)]; exact hq) (by decide) (by decide)
  have hcounted := (e.layerGap_counted l k left 10).after hraise (by decide)
  have hgaps : ((e.layerGap l k left 10).raise 4 Code.drainForced).out.gaps = _ :=
    (congrArg Outputs.gaps (hraise.out (by decide))).trans (e.layerGap_gaps l k left 10)
  have hrun : exec (.layerStopTimeout t l) s =
      .next { s with dev := ((e.layerGap l k left 10).raise 4 Code.drainForced).layerStopped l } := by
    subst he
    simp only [exec_layerStopTimeout, execLayerStopTimeout, runIf, run, decide_eq_true hl, if_true, hdrain, hb, ← hk, ← hleft, hne, if_false]
  generalize (e.layerGap l k left 10).raise 4 Code.drainForced = c at hcut hlayer hreports hcounted hgaps hrun
  have hconvc : c.traceConv l (c.layer l).trace = [] := by rw [hlayer, hcut.traceConv (by decide) (by decide)]; exact hconv
  have hemit := Dev.traceEmit_only (d := c) hconvc true
  have hoff := (c.traceEmit c l (c.layer l).trace true).layerOff_only l
  have hafter := Dev.changesOnly_trans hemit hoff
  have hstopped : (c.layerStopped l).layer l = ((e.layer l).goesOn (k + left)).stopped := by
    rw [Dev.layerStopped_eq, Dev.layer_layerOff, hemit.layer (by decide), hlayer]
  rw [← Dev.layerStopped_eq] at hafter
  refine ⟨_, hrun, he ▸ Dev.changesOnly_mono (Dev.changesOnly_trans hcut hafter) (by decide) (by decide), ?_, ?_, ?_, Dev.layerSrc_layerOff ..,
    hcounted.after hafter (by decide), hafter.reports hreports, ?_⟩
  · rw [hstopped]; rfl
  · rw [hstopped]; rfl
  · rw [hstopped]; rfl
  · rw [Dev.layerStopped_eq, hoff.out (by decide), Dev.traceEmit_gaps hconvc, hgaps]

end Sys2Proof.Machine
end

section
/-! PROOFS. Cores of the Spectral Engine: a fault, the standby, a core's return (R34, R163, R164). -/

namespace Sys2Proof.Machine

theorem exec_coreFault (t core l m lost : Nat) (s : State) : exec (.coreFault t core l m lost) s = execCoreFault t core l m lost s := rfl

theorem exec_coreSelftestDone (t core : Nat) (ok : Bool) (s : State) : exec (.coreSelftestDone t core ok) s = execCoreSelftestDone t core ok s := rfl

theorem exec_coreRepointHandover (t core first : Nat) (s : State) :
    exec (.coreRepointHandover t core first) s = execCoreRepointHandover t core first s := rfl

theorem exec_coreStandbyFail (t : Nat) (s : State) : exec (.coreStandbyFail t) s = execCoreStandbyFail t s := rfl

/-! ### The entries of the cores -/

theorem typeOf_coreState {k : Nat} (hk : k < 33) : typeOf Ix.speCoreState (k + 1) = 5 := by
  have h : ∀ k < 33, typeOf Ix.speCoreState (k + 1) = 5 := by decide +kernel
  exact h k hk

theorem Dev.rd_coreState (d : Dev) {k v : Nat} (hk : k < 33) (hv : v < 256) : (d.wI Ix.speCoreState k v).rd Ix.speCoreState (k + 1) 0 = v :=
  Dev.rd_wr_fits (n := 0) d 0 (by rw [typeOf_coreState hk]; rfl) (by rw [typeOf_coreState hk]; rfl) (by simpa using hv)

theorem Dev.rd_coreState_other (d : Dev) {k j : Nat} (v : Nat) (h : k ≠ j) :
    (d.wI Ix.speCoreState k v).rd Ix.speCoreState (j + 1) 0 = d.rd Ix.speCoreState (j + 1) 0 := by
  rw [Dev.wI, Dev.rd_wr, if_neg (by omega)]

theorem Dev.rd_standbyFor (d : Dev) {v : Nat} (hv : v < 256) : (d.w0 Ix.speStandbyFor v).rd Ix.speStandbyFor 0 0 = v :=
  Dev.rd_wr_fits (n := 0) d 0 (by decide) (by decide) (by simpa using hv)

/-! ### With no core repointed -/

/-- Without a repointing of an island nothing of it is repointed. -/
theorem Dev.repoint_any_of_not_repointing {d : Dev} {isl : Nat} (h : d.repointing isl = false) (p : Repoint → Bool) :
    d.flt.repoint.any (fun r => r.isl == isl && p r) = false := by
  unfold Dev.repointing at h
  cases hr : d.flt.repoint with
  | none => rfl
  | some r =>
    have hisl : (r.isl == isl) = false := by simpa only [hr] using h
    rw [Option.any_some, hisl, Bool.false_and]

theorem Dev.coversRepoint_of_not_repointing {d : Dev} {isl : Nat} (h : d.repointing isl = false) (n : Nat) : d.coversRepoint isl n = false := by
  unfold Dev.repointing at h
  unfold Dev.coversRepoint
  cases hr : d.flt.repoint with
  | none => rfl
  | some r =>
    have hisl : (r.isl == isl) = false := by simpa only [hr] using h
    simp only [hisl, Bool.false_and]

theorem Dev.repointing_congr {d e : Dev} (h : e.flt.repoint = d.flt.repoint) : e.repointing = d.repointing := funext fun isl => by
  rw [Dev.repointing, Dev.repointing, h]

/-- The standby that covers no repointing is free where it has not failed and covers no core. -/
theorem Dev.coreStandbyFree_iff {d : Dev} (h : d.repointing 3 = false) :
    d.coreStandbyFree = true ↔ 1 ∉ d.flt.standbyFailed ∧ d.n0 Ix.speStandbyFor = 0xFF := by
  simp [-Dev.n0_eq, Dev.coreStandbyFree, Dev.coversRepoint_of_not_repointing h]

/-! ### A core fails (R163, R164) -/

/-- A core that fails is out, and one of the failed. -/
def Dev.coreFails (d : Dev) (core : Nat) : Dev :=
  let a := (d.fault 1 Code.coreFault 3 core 0 0).wI Ix.speCoreState core 4
  { a with spe := { a.spe with coreFailed := core :: a.spe.coreFailed } }

theorem Dev.coreFails_only (d : Dev) (core : Nat) : d.changesOnly (.spe :: codeParts) (Ix.speCoreState :: faultPlaces) (d.coreFails core) :=
  Dev.changesOnly_mono (Dev.changesOnly_trans (Dev.changesOnly_trans (Dev.fault_only ..) (Dev.wr_only ..)) (Dev.spe_only ..)) (by decide) (by decide)

theorem Dev.coreFailed_coreFails (d : Dev) (core : Nat) : (d.coreFails core).spe.coreFailed = core :: d.spe.coreFailed := by
  simp [Dev.coreFails]

theorem Dev.repoint_coreFails (d : Dev) (core : Nat) : (d.coreFails core).flt.repoint = d.flt.repoint := by simp [Dev.coreFails]

theorem Dev.standbyFailed_coreFails (d : Dev) (core : Nat) : (d.coreFails core).flt.standbyFailed = d.flt.standbyFailed := by simp [Dev.coreFails]

theorem Dev.coreFails_room (d : Dev) (core : Nat) : (d.coreFails core).sup.emergencies.length ≤ d.sup.emergencies.length + 1 := by
  have hsup : (d.coreFails core).sup = (d.fault 1 Code.coreFault 3 core 0 0).sup := by simp [Dev.coreFails]
  rw [hsup]
  exact d.fault_room 1 3 core 0

/-- What becomes of a lane whose core has failed: the standby is engaged where it is free and the lane needs it, the core stays out otherwise. -/
def Dev.coreFailureMet (d : Dev) (core : Nat) : Dev :=
  if !d.coreStandbyFree then d.coreAlone core
  else if ((d.coreNeed (core / 8)).laneLimit (core / 8) ((d.coreNeed (core / 8)).laneLayers (core / 8))).isSome then
    (d.coreNeed (core / 8)).shedLane (core / 8)
  else d.coreNeed (core / 8)

/-- A fault of a core that loses no frame in flight, with no core repointed. -/
theorem completes_coreFault {t core l m : Nat} {s : State} {e x : Dev} {pl : List Part} {ps : List Nat} {post : Dev → Prop} (he : e = s.dev.at t)
    (hcore : core < 32) (hl : l < 16) (hwell : core ∉ e.spe.coreFailed) (hrep : e.repointing 3 = false)
    (hx : (e.coreFails core).coreFailureMet core = x) (hc : e.changesOnly pl ps x) (hp : post x) :
    Completes (.coreFault t core l m 0) t s pl ps post := by
  subst he
  have hnone := Dev.repoint_any_of_not_repointing (d := (s.dev.at t).coreFails core)
    (by rw [Dev.repointing_congr (Dev.repoint_coreFails ..)]; exact hrep) (fun r => r.inst == core)
  refine completesIf_of_eq (exec_coreFault t core l m 0 s) (by simp [hcore, hl]) ((if_neg (by simpa using hwell)).trans ?_) hc hp
  have hkept : (if ((s.dev.at t).coreFails core).flt.repoint.any (fun r => r.isl == 3 && r.inst == core) then
      ((s.dev.at t).coreFails core).repointAbandon.wI Ix.speCoreState core 4 else (s.dev.at t).coreFails core) = (s.dev.at t).coreFails core :=
    if_neg (by rw [hnone]; exact Bool.false_ne_true)
  exact (congrArg (fun d : Dev => d.coreFailureMet core) hkept).trans hx

/-- A core that nothing covers: it is out, and its lane sheds what its other cores do not carry. -/
theorem Dev.coreAlone_eq (d : Dev) (core : Nat) : ∃ w, d.coreAlone core =
    (((d.wI Ix.speCoreState core 4).fault 3 Code.coreNoStandby 3 core 0 0).happen w).shedLane (core / 8) := by
  unfold Dev.coreAlone
  exact ⟨_, rfl⟩

theorem Dev.coreAlone_behind (d : Dev) (core : Nat) :
    ((d.wI Ix.speCoreState core 4).fault 3 Code.coreNoStandby 3 core 0 0).changesOnly [.out, .cut] [Ix.modCutState] (d.coreAlone core) := by
  obtain ⟨w, h⟩ := d.coreAlone_eq core
  rw [h]
  exact Dev.changesOnly_trans (Dev.happen_only ..) (Dev.shedLane_only ..)

theorem Dev.coreAlone_only (d : Dev) (core : Nat) :
    d.changesOnly (.out :: .cut :: codeParts) (Ix.speCoreState :: Ix.modCutState :: faultPlaces) (d.coreAlone core) :=
  Dev.changesOnly_mono (Dev.changesOnly_trans (Dev.changesOnly_trans (Dev.wr_only ..) (Dev.fault_only ..)) (d.coreAlone_behind core))
    (by decide) (by decide)

theorem Dev.rd_coreAlone (d : Dev) {core k : Nat} (hcore : core < 32) :
    (d.coreAlone core).rd Ix.speCoreState (k + 1) 0 = if core = k then 4 else d.rd Ix.speCoreState (k + 1) 0 := by
  rw [(d.coreAlone_behind core).rd _ _ (by decide), (Dev.fault_only ..).rd _ _ (by decide)]
  split
  next h => exact h ▸ Dev.rd_coreState d (by omega) (by decide)
  next h => exact Dev.rd_coreState_other d 4 h

theorem Dev.coreAlone_reports (d : Dev) (core : Nat) (hq : d.sup.emergencies.length < 32) : (d.coreAlone core).reports 4 Code.coreNoStandby :=
  (d.coreAlone_behind core).reports (Dev.fault_reports _ 3 3 core 0 hq)

/-- A core that fails while the standby covers another stays out. -/
theorem coreFault_staysOut {t core l : Nat} {s : State} {e : Dev} (he : e = s.dev.at t) (hcore : core < 32) (hl : l < 16) (m : Nat)
    (hwell : core ∉ e.spe.coreFailed) (hrep : e.repointing 3 = false) (hbusy : e.n0 Ix.speStandbyFor ≠ 0xFF)
    (hq : e.sup.emergencies.length < 31) :
    Completes (.coreFault t core l m 0) t s (.spe :: .out :: .cut :: codeParts) (Ix.speCoreState :: Ix.modCutState :: faultPlaces) fun d =>
      d.rd Ix.speCoreState (core + 1) 0 = 4 ∧ core ∈ d.spe.coreFailed ∧ d.reports 4 Code.coreNoStandby := by
  have hfails := e.coreFails_only core
  have halone := (e.coreFails core).coreAlone_only core
  have hfree : ¬ (e.coreFails core).coreStandbyFree = true := by
    rw [Dev.coreStandbyFree_iff (by rw [Dev.repointing_congr (Dev.repoint_coreFails ..)]; exact hrep), hfails.n0 (by decide)]
    exact fun h => hbusy h.2
  have hroom := e.coreFails_room core
  refine completes_coreFault he hcore hl hwell hrep (if_pos (by simpa using hfree))
    (Dev.changesOnly_mono (Dev.changesOnly_trans hfails halone) (by decide) (by decide)) ⟨?_, ?_, Dev.coreAlone_reports _ core (by omega)⟩
  · rw [Dev.rd_coreAlone _ hcore, if_pos rfl]
  · rw [halone.spe (by decide), Dev.coreFailed_coreFails]
    exact List.mem_cons_self

/-! ### The standby engages (R163) -/

/-- The standby takes a core's share, which is lost until then. -/
def Dev.coreCovered (d : Dev) (core : Nat) : Dev :=
  ((({ d with spe := { d.spe with shareLost := d.spe.shareLost.put core (d.now + us 30) } }.w0 Ix.speStandbyFor core).wI Ix.speCoreState core 2).wI
    Ix.speCoreState 32 1)

theorem Dev.coreEngage_eq {d : Dev} (h : d.repointing 3 = false) (core : Nat) :
    d.coreEngage core = ((d.coreCovered core).raise 4 Code.coreStandbyEngaged).happen (.standby 3 core true) := by
  rw [Dev.coreEngage, if_neg (by rw [Dev.coversRepoint_of_not_repointing h]; exact Bool.false_ne_true)]
  rfl

theorem Dev.coreCovered_only (d : Dev) (core : Nat) : d.changesOnly [.spe] [Ix.speStandbyFor, Ix.speCoreState] (d.coreCovered core) :=
  Dev.changesOnly_mono (Dev.changesOnly_trans (Dev.changesOnly_trans (Dev.changesOnly_trans (Dev.spe_only ..) (Dev.wr_only ..)) (Dev.wr_only ..))
    (Dev.wr_only ..)) (by decide) (by decide)

/-- What the engagement says and reports. -/
theorem Dev.coreEngage_behind {d : Dev} (h : d.repointing 3 = false) (core : Nat) :
    (d.coreCovered core).changesOnly (.out :: codeParts) codePlaces (d.coreEngage core) := by
  rw [Dev.coreEngage_eq h]
  exact Dev.changesOnly_mono (Dev.changesOnly_trans (Dev.raise_only ..) (Dev.happen_only ..)) (by decide) (by decide)

theorem Dev.rd_coreCovered (d : Dev) {core : Nat} (hcore : core < 32) : (d.coreCovered core).rd Ix.speStandbyFor 0 0 = core ∧
    (d.coreCovered core).rd Ix.speCoreState (core + 1) 0 = 2 ∧ (d.coreCovered core).rd Ix.speCoreState 33 0 = 1 := by
  refine ⟨?_, ?_, Dev.rd_coreState _ (by decide) (by decide)⟩
  · exact ((Dev.wr_only ..).rd _ _ (by decide)).trans (((Dev.wr_only ..).rd _ _ (by decide)).trans (Dev.rd_standbyFor _ (by omega)))
  · exact (Dev.rd_coreState_other _ 1 (by omega)).trans (Dev.rd_coreState _ (by omega) (by decide))

/-- With no core out before, the failed core is the one that the standby is asked for, where the seven others do not carry the lane. -/
theorem Dev.coreNeed_engages {d : Dev} {core : Nat} (hrest : d.coresOut (core / 8) = 0) (hfree : d.n0 Ix.speStandbyFor = 0xFF) (hcore : core < 32)
    (hwhole : 1 ∉ d.flt.standbyFailed) (hrep : d.repointing 3 = false) (hneed : 56 * d.clockKHz 3 * 1000000 < d.laneCost (core / 8)) :
    (d.coreFails core).coreNeed (core / 8) = (d.coreFails core).coreEngage core := by
  have hfails := d.coreFails_only core
  have hfor : (d.coreFails core).n0 Ix.speStandbyFor = 0xFF := (hfails.n0 (by decide)).trans hfree
  have hne : (0xFF != core) = true := bne_iff_ne.2 (by omega)
  have hone : (d.coreFails core).coresOut (core / 8) = 1 := by
    rw [Dev.coresOut, hfor, Dev.coreFailed_coreFails, List.filter_cons_of_pos (by simp [hne])]
    rw [Dev.coresOut, hfree] at hrest
    rw [List.length_cons, hrest]
  have hfind : (d.coreFails core).spe.coreFailed.find? (fun c => c / 8 == core / 8 && (d.coreFails core).n0 Ix.speStandbyFor != c) = some core := by
    rw [Dev.coreFailed_coreFails, hfor, List.find?_cons_of_pos (by simp [hne])]
  have hcarry : (d.coreFails core).coresCarry (core / 8) < (d.coreFails core).laneCost (core / 8) := by
    rw [Dev.coresCarry, hone, hfails.clockKHz (by decide), hfails.laneCost (by decide) (by decide)]
    exact hneed
  have hfreeFails : (d.coreFails core).coreStandbyFree = true :=
    (Dev.coreStandbyFree_iff (by rw [Dev.repointing_congr (Dev.repoint_coreFails ..)]; exact hrep)).2
      ⟨by rw [Dev.standbyFailed_coreFails]; exact hwhole, hfor⟩
  simp only [Dev.coreNeed, hfind, hcarry, hfreeFails, decide_true, Bool.and_true, if_true]

/-- With its one failed core covered, a lane counts on as many cores as before. -/
theorem Dev.laneCores_covered {d x : Dev} {core : Nat} (hcore : core < 32) (hrest : d.coresOut (core / 8) = 0) (hfree : d.n0 Ix.speStandbyFor = 0xFF)
    (hfailed : x.spe.coreFailed = core :: d.spe.coreFailed) (hfor : x.n0 Ix.speStandbyFor = core) :
    x.laneCores (core / 8) = d.laneCores (core / 8) := by
  have hnone : x.coresOut (core / 8) = 0 := by
    rw [Dev.coresOut, hfailed, hfor, List.filter_cons_of_neg (by simp), List.length_eq_zero_iff, List.filter_eq_nil_iff]
    rw [Dev.coresOut, hfree, List.length_eq_zero_iff, List.filter_eq_nil_iff] at hrest
    intro c hc hin
    have hlisted : c / 8 = core / 8 → 0xFF = c := by simpa using hrest c hc
    obtain ⟨hlane, -⟩ := Bool.and_eq_true_iff.1 hin
    have := hlisted (beq_iff_eq.1 hlane)
    have := beq_iff_eq.1 hlane
    omega
  rw [Dev.laneCores, Dev.laneCores, hnone, hrest, Nat.zero_sub, Nat.zero_sub]

/-- Whether and what the standby covers now. -/
theorem Dev.spe_coreEngage {d : Dev} (h : d.repointing 3 = false) (core : Nat) :
    (d.coreEngage core).spe = { d.spe with shareLost := d.spe.shareLost.put core (d.now + us 30) } :=
  (Dev.coreEngage_behind h core).spe (by decide)

/-- The standby takes the share of a core that fails, where the seven others do not carry the lane. -/
theorem coreFault_engages {t core l : Nat} {s : State} {e : Dev} (he : e = s.dev.at t) (hcore : core < 32) (hl : l < 16) (m : Nat)
    (hwell : core ∉ e.spe.coreFailed) (hrep : e.repointing 3 = false) (hfor : e.n0 Ix.speStandbyFor = 0xFF) (hwhole : 1 ∉ e.flt.standbyFailed)
    (hrest : e.coresOut (core / 8) = 0) (hneed : 56 * e.clockKHz 3 * 1000000 < e.laneCost (core / 8))
    (hlimit : e.laneLimit (core / 8) (e.laneLayers (core / 8)) = none) (hq : e.sup.emergencies.length < 31) :
    Completes (.coreFault t core l m 0) t s (.spe :: .out :: codeParts) (Ix.speCoreState :: Ix.speStandbyFor :: faultPlaces) fun d =>
      d.rd Ix.speStandbyFor 0 0 = core ∧ d.rd Ix.speCoreState (core + 1) 0 = 2 ∧ d.rd Ix.speCoreState 33 0 = 1 ∧ core ∈ d.spe.coreFailed ∧
      d.spe.shareLost.find? core = some (e.now + us 30) ∧ d.reports 4 Code.coreStandbyEngaged ∧
      (e.time96, Happening.standby 3 core true) ∈ d.out.happenings := by
  have hneeds := Dev.coreNeed_engages hrest hfor hcore hwhole hrep hneed
  have hfails := e.coreFails_only core
  have hroom := e.coreFails_room core
  have hrep' : (e.coreFails core).repointing 3 = false := by rw [Dev.repointing_congr (Dev.repoint_coreFails ..)]; exact hrep
  have hfree : (e.coreFails core).coreStandbyFree = true :=
    (Dev.coreStandbyFree_iff hrep').2 ⟨by rw [Dev.standbyFailed_coreFails]; exact hwhole, (hfails.n0 (by decide)).trans hfor⟩
  have hcovered := Dev.changesOnly_trans hfails ((e.coreFails core).coreCovered_only core)
  have hbehind := Dev.coreEngage_behind hrep' core
  have hall := Dev.changesOnly_trans hcovered hbehind
  have hspe := Dev.spe_coreEngage hrep' core
  obtain ⟨hstandby, hstate, hspare⟩ := (e.coreFails core).rd_coreCovered hcore
  have hengaged := (hbehind.rd 0 0 (by decide)).trans hstandby
  have hlimit' : ((e.coreFails core).coreEngage core).laneLimit (core / 8) (((e.coreFails core).coreEngage core).laneLayers (core / 8)) = none := by
    rw [hall.laneLayers (by decide), hall.laneLimit (by decide) (by decide)]
    · exact hlimit
    · exact Dev.laneCores_covered hcore hrest hfor (by rw [hspe, Dev.coreFailed_coreFails]) (by rw [Dev.n0, hengaged, Int.toNat_natCast])
  have hreports : ((e.coreFails core).coreEngage core).reports 4 Code.coreStandbyEngaged := by
    rw [Dev.coreEngage_eq hrep']
    exact (Dev.happen_only ..).reports (Dev.raise_places _ 4 Code.coreStandbyEngaged
      (by rw [(Dev.coreCovered_only ..).sup (by decide)]; omega) (by decide) (by decide))
  have hhappens : (e.time96, Happening.standby 3 core true) ∈ ((e.coreFails core).coreEngage core).out.happenings := by
    rw [← hcovered.time96 (by decide) (by decide), ← (Dev.raise_only _ 4 Code.coreStandbyEngaged).time96 (by decide) (by decide),
      Dev.coreEngage_eq hrep']
    exact Dev.happen_mem ..
  have hmet : (e.coreFails core).coreFailureMet core = (e.coreFails core).coreEngage core := by
    rw [Dev.coreFailureMet, if_neg (by simp [hfree]), hneeds, hlimit']
    rfl
  refine completes_coreFault he hcore hl hwell hrep hmet (Dev.changesOnly_mono hall (by decide) (by decide))
    ⟨hengaged, (hbehind.rd _ _ (by decide)).trans hstate, (hbehind.rd _ _ (by decide)).trans hspare, ?_, ?_, hreports, hhappens⟩
  · rw [hspe, Dev.coreFailed_coreFails]
    exact List.mem_cons_self
  · rw [hspe, hfails.now (by decide)]
    exact Tab.find?_put_same ..

/-! ### The standby fails (R34, R164) -/

/-- The standby core has failed. -/
def Dev.coreStandbyFails (d : Dev) : Dev :=
  ({ d with flt := { d.flt with standbyFailed := 1 :: d.flt.standbyFailed } }.wI Ix.speCoreState 32 4).fault 3 Code.standbyFailed 3 32 0 0

theorem Dev.coreStandbyFails_only (d : Dev) : d.changesOnly codeParts (Ix.speCoreState :: faultPlaces) d.coreStandbyFails :=
  Dev.changesOnly_mono (Dev.changesOnly_trans (Dev.changesOnly_trans (Dev.flt_only ..) (Dev.wr_only ..)) (Dev.fault_only ..)) (by decide) (by decide)

theorem Dev.coreStandbyFails_room (d : Dev) : d.coreStandbyFails.sup.emergencies.length ≤ d.sup.emergencies.length + 1 :=
  Dev.fault_room _ 3 3 32 0

theorem Dev.rd_coreStandbyFails (d : Dev) : d.coreStandbyFails.rd Ix.speCoreState 33 0 = 4 :=
  ((Dev.fault_only ..).rd _ _ (by decide)).trans (Dev.rd_coreState _ (by decide) (by decide))

theorem Dev.standbyFailed_coreStandbyFails (d : Dev) : 1 ∈ d.coreStandbyFails.flt.standbyFailed := by simp [Dev.coreStandbyFails]

theorem Dev.standbyFailed_coreAlone (d : Dev) (core : Nat) : (d.coreAlone core).flt.standbyFailed = d.flt.standbyFailed := by
  rw [(d.coreAlone_behind core).flt (by decide), Dev.fault_flt_standbyFailed, Dev.wI_eq, Dev.wr_flt]

/-- The core that a failed standby covered stays out. -/
theorem coreStandbyFail_uncovers {t c : Nat} {s : State} {e : Dev} (he : e = s.dev.at t) (hrep : e.repointing 3 = false)
    (hfor : e.n0 Ix.speStandbyFor = c) (hc : c < 32) (hq : e.sup.emergencies.length < 31) :
    Completes (.coreStandbyFail t) t s (.out :: .cut :: codeParts) (Ix.speStandbyFor :: Ix.speCoreState :: Ix.modCutState :: faultPlaces) fun d =>
      1 ∈ d.flt.standbyFailed ∧ d.rd Ix.speStandbyFor 0 0 = 0xFF ∧ d.rd Ix.speCoreState (c + 1) 0 = 4 ∧ d.rd Ix.speCoreState 33 0 = 4 ∧
      d.reports 4 Code.coreNoStandby := by
  subst he
  have hfails := (s.dev.at t).coreStandbyFails_only
  have hroom := (s.dev.at t).coreStandbyFails_room
  have hfreed : (s.dev.at t).coreStandbyFails.changesOnly [] [Ix.speStandbyFor] ((s.dev.at t).coreStandbyFails.w0 Ix.speStandbyFor 0xFF) :=
    Dev.wr_only ..
  have halone := ((s.dev.at t).coreStandbyFails.w0 Ix.speStandbyFor 0xFF).coreAlone_only c
  have hcovers : ((s.dev.at t).n0 Ix.speStandbyFor != 0xFF && !(s.dev.at t).coversRepoint 3 ((s.dev.at t).n0 Ix.speStandbyFor)) = true := by
    rw [Dev.coversRepoint_of_not_repointing hrep, hfor, Bool.not_false, Bool.and_true]
    exact bne_iff_ne.2 (by omega)
  refine completes_of_eq (x := ((s.dev.at t).coreStandbyFails.w0 Ix.speStandbyFor 0xFF).coreAlone c) (exec_coreStandbyFail t s)
    ((if_pos hcovers).trans (by rw [hfor]; rfl))
    (Dev.changesOnly_mono (Dev.changesOnly_trans (Dev.changesOnly_trans hfails hfreed) halone) (by decide) (by decide)) ⟨?_, ?_, ?_, ?_, ?_⟩
  · rw [Dev.standbyFailed_coreAlone, hfreed.flt (by decide)]
    exact Dev.standbyFailed_coreStandbyFails _
  · exact (halone.rd _ _ (by decide)).trans (Dev.rd_standbyFor _ (by decide))
  · rw [Dev.rd_coreAlone _ hc, if_pos rfl]
  · rw [Dev.rd_coreAlone _ hc, if_neg (by omega)]
    exact (hfreed.rd _ _ (by decide)).trans (Dev.rd_coreStandbyFails _)
  · exact Dev.coreAlone_reports _ c (by rw [hfreed.sup (by decide)]; omega)

/-! ### A core comes back (R163) -/

/-- A failed core that passes its test is to rejoin. -/
theorem coreSelftestDone_rejoins {t core : Nat} {s : State} {e : Dev} (he : e = s.dev.at t) (hcore : core < 32)
    (hfailed : core ∈ e.spe.coreFailed) :
    Completes (.coreSelftestDone t core true) t s [.spe] [] fun d =>
      d.spe = { e.spe with coreRejoin := core :: e.spe.coreRejoin.filter (fun c => c != core) } := by
  subst he
  exact completesIf_of_eq (exec_coreSelftestDone t core true s) (by simpa using hcore) (if_pos (by simpa using hfailed)) (Dev.spe_only ..) rfl

theorem Dev.handoverRecord_only (d : Dev) (isl inst first suspended : Nat) :
    d.changesOnly [.cut, .out, .ctr] (Ix.modCutSeq :: eventPlaces) (d.handoverRecord isl inst first suspended) :=
  Dev.changesOnly_mono (Dev.changesOnly_trans (Dev.changesOnly_trans (Dev.cut_only d { d.cut with seqTaken := wrap48 (d.cut.seqTaken + 1) })
    (Dev.emit_only ..)) (Dev.wr_only ..)) (by decide) (by decide)

/-- A handover takes the next number of the cuts. -/
theorem Dev.handoverRecord_seq (d : Dev) (isl inst first suspended : Nat) :
    (d.handoverRecord isl inst first suspended).cut.seqTaken = wrap48 (d.cut.seqTaken + 1) ∧
    (d.handoverRecord isl inst first suspended).rd Ix.modCutSeq 0 0 = (wrap48 (d.cut.seqTaken + 1) : Nat) := by
  constructor
  · exact congrArg CutSt.seqTaken (((Dev.wr_only ..).cut (by decide)).trans ((Dev.emit_only ..).cut (by decide)))
  · exact Dev.rd_wr_fits (n := 5) _ 0 (by decide) (by decide) (Nat.mod_lt _ (by decide))

/-- A core that is to rejoin is no longer one of the failed. -/
def Dev.coreRejoins (d : Dev) (core : Nat) : Dev :=
  { d with spe := { d.spe with
      coreFailed := d.spe.coreFailed.filter (fun c => c != core), coreRejoin := d.spe.coreRejoin.filter (fun c => c != core)
      shareLost := d.spe.shareLost.del core } }

/-- The standby that covers a core is freed. -/
def Dev.standbyLeaves (d : Dev) (core : Nat) : Dev :=
  if d.n0 Ix.speStandbyFor = core then (d.w0 Ix.speStandbyFor 0xFF).wI Ix.speCoreState 32 0 else d

theorem Dev.standbyLeaves_only (d : Dev) (core : Nat) : d.changesOnly [] [Ix.speStandbyFor, Ix.speCoreState] (d.standbyLeaves core) :=
  Dev.changesOnly_ite (fun _ => Dev.changesOnly_trans (pl := []) (ps := [Ix.speStandbyFor]) (Dev.wr_only ..) (Dev.wr_only ..)) fun _ =>
    Dev.changesOnly_refl ..

theorem Dev.rd_standbyLeaves {d : Dev} {core : Nat} (h : d.n0 Ix.speStandbyFor = core) : (d.standbyLeaves core).rd Ix.speStandbyFor 0 0 = 0xFF := by
  rw [Dev.standbyLeaves, if_pos h]
  exact ((Dev.wr_only ..).rd _ _ (by decide)).trans (Dev.rd_standbyFor _ (by decide))

theorem Dev.coreBack_eq {d : Dev} {core : Nat} (h : core ∈ d.spe.coreRejoin) (first : Nat) :
    d.coreBack core first = (((d.coreRejoins core).standbyLeaves core).wI Ix.speCoreState core 1).handoverRecord 3 core first 0 := by
  rw [Dev.coreBack, if_neg (by simpa using h)]
  rfl

/-- A core that passed its test takes its share back at a frame boundary, and the standby that covered it is freed. -/
theorem coreRepointHandover_back {t core : Nat} {s : State} {e : Dev} (he : e = s.dev.at t) (hcore : core < 32) (first : Nat)
    (hrejoin : core ∈ e.spe.coreRejoin) (hrep : e.flt.repoint = none) :
    Completes (.coreRepointHandover t core first) t s [.spe, .cut, .out, .ctr]
      (Ix.speCoreState :: Ix.speStandbyFor :: Ix.modCutSeq :: eventPlaces) fun d =>
      core ∉ d.spe.coreFailed ∧ d.rd Ix.speCoreState (core + 1) 0 = 1 ∧ (e.n0 Ix.speStandbyFor = core → d.rd Ix.speStandbyFor 0 0 = 0xFF) ∧
      d.rd Ix.modCutSeq 0 0 = (wrap48 (e.cut.seqTaken + 1) : Nat) := by
  have hleaves := (e.coreRejoins core).standbyLeaves_only core
  have hstate : ((e.coreRejoins core).standbyLeaves core).changesOnly [] [Ix.speCoreState]
      (((e.coreRejoins core).standbyLeaves core).wI Ix.speCoreState core 1) := Dev.wr_only ..
  have hback := Dev.changesOnly_trans (Dev.changesOnly_trans (Dev.spe_only ..) hleaves) hstate
  have hrecord := (((e.coreRejoins core).standbyLeaves core).wI Ix.speCoreState core 1).handoverRecord_only 3 core first 0
  have hseq := ((((e.coreRejoins core).standbyLeaves core).wI Ix.speCoreState core 1).handoverRecord_seq 3 core first 0).2
  rw [hback.cut (by decide)] at hseq
  subst he
  refine completesIf_of_eq (exec_coreRepointHandover t core first s) (by simpa using hcore) (by simp only [hrep]; exact Dev.coreBack_eq hrejoin first)
    (Dev.changesOnly_mono (Dev.changesOnly_trans hback hrecord) (by decide) (by decide)) ⟨?_, ?_, ?_, hseq⟩
  · rw [hrecord.spe (by decide), hstate.spe (by decide), hleaves.spe (by decide)]
    simp [Dev.coreRejoins]
  · exact (hrecord.rd _ _ (by decide)).trans (Dev.rd_coreState _ (by omega) (by decide))
  · exact fun h => (hrecord.rd _ _ (by decide)).trans ((hstate.rd _ _ (by decide)).trans (Dev.rd_standbyLeaves h))

end Sys2Proof.Machine
end

section
/-! PROOFS. The repointing of a core, a layer's user table, and what settles O22 (R146, R165, R166, Table 6.8). -/

namespace Sys2Proof.Machine

theorem exec_coreUpdateDone (t : Nat) (ok : Bool) (s : State) : exec (.coreUpdateDone t ok) s = execCoreUpdateDone t ok s := rfl

/-! ### The commands (R166, R486) -/

/-- With no core repointed a repointing is refused for what the standby covers, or for what else is repointed or updated. -/
theorem Dev.speRepointRefusal_of_not_repointing {d : Dev} (h : d.repointing 3 = false) : d.speRepointRefusal =
    if d.n0 Ix.speStandbyFor != 0xFF then some Code.speStandbyBusy else if d.repointBusy then some Code.repointBusy else none := by
  rw [Dev.speRepointRefusal, Dev.repoint_any_of_not_repointing h]
  rfl

/-- The repointing of a core starts. -/
def Dev.coreRepointStarts (d : Dev) (c : Nat) : Dev :=
  (({ d with flt := { d.flt with repoint := some { isl := 3, inst := c, src := 0, since := d.now } }, chn := { d.chn with shadow := false } }.w0
    Ix.fltRepointTarget (768 + c)).w0 Ix.fltRepointState 1).w0 Ix.speRepointState 1

theorem Dev.repointStart_core (d : Dev) {c : Nat} (hc : c < 32) : d.repointStart 3 c 0 = d.coreRepointStarts c := by
  simp only [Dev.repointStart, Dev.coreRepointStarts, hc, decide_true, Bool.and_true, if_true, Nat.reduceEqDiff, decide_false, Bool.false_eq_true,
    if_false, Nat.reduceMul]

theorem Dev.fltChn_only (d : Dev) (x : FltSt) (y : ChnSt) : d.changesOnly [.flt, .chn] [] { d with flt := x, chn := y } :=
  Dev.changesOnly_trans (Dev.flt_only d x) (Dev.chn_only _ y)

theorem Dev.coreRepointStarts_only (d : Dev) (c : Nat) :
    d.changesOnly [.flt, .chn] [Ix.fltRepointTarget, Ix.fltRepointState, Ix.speRepointState] (d.coreRepointStarts c) :=
  Dev.changesOnly_trans (Dev.changesOnly_trans (Dev.changesOnly_trans (Dev.fltChn_only ..) (Dev.wr_only ..)) (Dev.wr_only ..)) (Dev.wr_only ..)

theorem Dev.rd_coreRepointStarts (d : Dev) {c : Nat} (hc : c < 32) :
    (d.coreRepointStarts c).rd Ix.speRepointState 0 0 = 1 ∧ (d.coreRepointStarts c).rd Ix.fltRepointState 0 0 = 1 ∧
    (d.coreRepointStarts c).rd Ix.fltRepointTarget 0 0 = (768 + c : Nat) := by
  refine ⟨Dev.rd_wr_same .., ?_, ?_⟩
  · exact ((Dev.wr_only ..).rd _ _ (by decide)).trans (Dev.rd_wr_same ..)
  · exact ((Dev.wr_only ..).rd _ _ (by decide)).trans (((Dev.wr_only ..).rd _ _ (by decide)).trans
      (Dev.rd_wr_fits (n := 1) _ 0 (by decide) (by decide) (by norm_num; omega)))

section
variable {t path c : Nat} {s : State} {e : Dev} (he : e = s.dev.at t) (hr : e.reaches path Ix.speRepoint) (hc : c < 32)
  (hrep : e.repointing 3 = false)
include he hr hc hrep

/-- The number of a core, written while nothing is repointed or updated and the standby is free, starts the core's repointing. -/
theorem speRepoint_starts (hfree : e.n0 Ix.speStandbyFor = 0xFF) (hidle : e.repointBusy = false) :
    Completes (.speRepoint t path c) t s (.flt :: .chn :: requestParts)
      (Ix.fltRepointTarget :: Ix.fltRepointState :: Ix.speRepointState :: requestPlaces) fun d =>
      d.flt.repoint = some { isl := 3, inst := c, src := 0, since := e.now } ∧ d.rd Ix.speRepointState 0 0 = 1 ∧ d.rd Ix.fltRepointState 0 0 = 1 ∧
      d.rd Ix.fltRepointTarget 0 0 = (768 + c : Nat) := by
  subst he
  have haccept := (s.dev.at t).accept_only path Ix.speRepoint 0
  have hflt := haccept.flt (by decide)
  have hidle' : ((s.dev.at t).accept path Ix.speRepoint 0).repointBusy = false := by
    simpa only [Dev.repointBusy, hflt, haccept.n0 List.not_mem_nil] using hidle
  have hnone : ((s.dev.at t).accept path Ix.speRepoint 0).speRepointRefusal = none := by
    rw [Dev.speRepointRefusal_of_not_repointing (by rw [Dev.repointing, hflt]; exact hrep), haccept.n0 List.not_mem_nil, hfree, hidle']
    rfl
  obtain ⟨hspe, hstate, htarget⟩ := ((s.dev.at t).accept path Ix.speRepoint 0).rd_coreRepointStarts hc
  refine completes_command (x := ((s.dev.at t).accept path Ix.speRepoint 0).coreRepointStarts c) rfl hr ?_ (Dev.coreRepointStarts_only _ c) ?_
  · rw [Dev.speRepoint, if_neg (by omega), hnone]
    exact Dev.repointStart_core _ hc
  · rw [Dev.served_flt, Dev.rd_served _ _ _ _ _ _ (by decide), Dev.rd_served _ _ _ _ _ _ (by decide), Dev.rd_served _ _ _ _ _ _ (by decide)]
    refine ⟨?_, hspe, hstate, htarget⟩
    rw [← haccept.now (by decide)]
    rfl

/-- While the standby covers a core, no repointing starts. -/
theorem speRepoint_standbyBusy (hp : 1 ≤ path ∧ path ≤ 4) (hbusy : e.n0 Ix.speStandbyFor ≠ 0xFF) :
    Completes (.speRepoint t path c) t s requestParts requestPlaces fun d =>
      d.reports path Code.speStandbyBusy ∧ d.flt.repoint = e.flt.repoint := by
  subst he
  have haccept := (s.dev.at t).accept_only path Ix.speRepoint 0
  have hflt := haccept.flt (by decide)
  have hwhy : ((s.dev.at t).accept path Ix.speRepoint 0).speRepointRefusal = some Code.speStandbyBusy := by
    rw [Dev.speRepointRefusal_of_not_repointing (by rw [Dev.repointing, hflt]; exact hrep), haccept.n0 List.not_mem_nil]
    exact if_pos (by simpa only [bne_iff_ne] using hbusy)
  refine completes_command (x := ((s.dev.at t).accept path Ix.speRepoint 0).refuse path Ix.speRepoint 0 Code.speStandbyBusy) rfl hr ?_
    (Dev.refuse_only ..) ⟨(Dev.served_only ..).reports (Dev.refuse_places _ path _ _ _ (by decide) (by decide) (by decide) hp), ?_⟩
  · rw [Dev.speRepoint, if_neg (by omega), hwhy]
  · rw [Dev.served_flt, Dev.refuse_flt_repoint, hflt]

end

/-- A core's repointing that no handover has begun ends. -/
def Dev.coreRepointEnds (d : Dev) : Dev :=
  (({ d with flt := { d.flt with repoint := none }, chn := { d.chn with shadow := false } }.w0 Ix.speRepointState 0).w0 Ix.fltRepointState 0).w0
    Ix.fltRepointTarget 0xFFFF

theorem Dev.coreRepointEnds_only (d : Dev) :
    d.changesOnly [.flt, .chn] [Ix.speRepointState, Ix.fltRepointState, Ix.fltRepointTarget] d.coreRepointEnds :=
  Dev.changesOnly_trans (Dev.changesOnly_trans (Dev.changesOnly_trans (Dev.fltChn_only ..) (Dev.wr_only ..)) (Dev.wr_only ..)) (Dev.wr_only ..)

theorem Dev.rd_coreRepointEnds (d : Dev) : d.coreRepointEnds.rd Ix.speRepointState 0 0 = 0 ∧ d.coreRepointEnds.rd Ix.fltRepointState 0 0 = 0 ∧
    d.coreRepointEnds.rd Ix.fltRepointTarget 0 0 = 0xFFFF := by
  refine ⟨?_, ?_, Dev.rd_wr_same ..⟩
  · exact ((Dev.wr_only ..).rd _ _ (by decide)).trans (((Dev.wr_only ..).rd _ _ (by decide)).trans (Dev.rd_wr_same ..))
  · exact ((Dev.wr_only ..).rd _ _ (by decide)).trans (Dev.rd_wr_same ..)

/-- Outside a switch of firmware, an abort before the first handover ends a core's repointing. -/
theorem speRepointAbort_ends {t path : Nat} {s : State} {e : Dev} {r : Repoint} (he : e = s.dev.at t) (hr : e.reaches path Ix.speRepoint)
    (hrep : e.flt.repoint = some r) (hisl : r.isl = 3) (hout : r.out = false) (h3 : e.n0 Ix.fltUpdateState ≠ 3)
    (h5 : e.n0 Ix.fltUpdateState ≠ 5) :
    Completes (.speRepointAbort t path) t s (.flt :: .chn :: requestParts)
      (Ix.speRepointState :: Ix.fltRepointState :: Ix.fltRepointTarget :: requestPlaces) fun d =>
      d.flt.repoint = none ∧ d.rd Ix.speRepointState 0 0 = 0 ∧ d.rd Ix.fltRepointState 0 0 = 0 ∧ d.rd Ix.fltRepointTarget 0 0 = 0xFFFF := by
  subst he
  have haccept := (s.dev.at t).accept_only path Ix.speRepoint 0
  have hrep' : ((s.dev.at t).accept path Ix.speRepoint 0).flt.repoint = some r := (congrArg FltSt.repoint (haccept.flt (by decide))).trans hrep
  have hmay : ¬ (r.isl != 3 || ((s.dev.at t).accept path Ix.speRepoint 0).n0 Ix.fltUpdateState = 3 ||
      ((s.dev.at t).accept path Ix.speRepoint 0).n0 Ix.fltUpdateState = 5) = true := by
    simp only [haccept.n0 List.not_mem_nil, hisl, h3, h5]
    decide
  have hin : ¬ r.out = true := by rw [hout]; exact Bool.false_ne_true
  refine completes_command (x := ((s.dev.at t).accept path Ix.speRepoint 0).coreRepointEnds) rfl hr ?_ (Dev.coreRepointEnds_only _) ?_
  · simp only [Dev.repointAbort, hrep', if_neg hmay, if_neg hin]
    rfl
  · rw [Dev.served_flt, Dev.rd_served _ _ _ _ _ _ (by decide), Dev.rd_served _ _ _ _ _ _ (by decide), Dev.rd_served _ _ _ _ _ _ (by decide)]
    exact ⟨rfl, Dev.rd_coreRepointEnds _⟩

/-! ### The first handover, the update (Table 6.8, R488) -/

/-- A core that is repointed goes out, and the standby takes its share. -/
def Dev.coreGoesOut (d : Dev) (r : Repoint) (c first : Nat) : Dev :=
  (((({ d with flt := { d.flt with repoint := some { r with out := true, since := first } } }.w0 Ix.speStandbyFor c).wI Ix.speCoreState 32 1).wI
    Ix.speCoreState c 3).w0 Ix.speRepointState 2).w0 Ix.fltRepointState 2

theorem Dev.coreGoesOut_only (d : Dev) (r : Repoint) (c first : Nat) :
    d.changesOnly [.flt] [Ix.speStandbyFor, Ix.speCoreState, Ix.speRepointState, Ix.fltRepointState] (d.coreGoesOut r c first) :=
  Dev.changesOnly_mono (Dev.changesOnly_trans (Dev.changesOnly_trans (Dev.changesOnly_trans (Dev.changesOnly_trans (Dev.changesOnly_trans
    (Dev.flt_only ..) (Dev.wr_only ..)) (Dev.wr_only ..)) (Dev.wr_only ..)) (Dev.wr_only ..)) (Dev.wr_only ..)) (by decide) (by decide)

theorem Dev.rd_coreGoesOut (d : Dev) (r : Repoint) {c : Nat} (hc : c < 32) (first : Nat) : (d.coreGoesOut r c first).rd Ix.speStandbyFor 0 0 = c ∧
    (d.coreGoesOut r c first).rd Ix.speCoreState (c + 1) 0 = 3 ∧ (d.coreGoesOut r c first).rd Ix.speRepointState 0 0 = 2 := by
  have hstates : ∀ a : Dev, a.changesOnly [] [Ix.speRepointState, Ix.fltRepointState] ((a.w0 Ix.speRepointState 2).w0 Ix.fltRepointState 2) :=
    fun a => Dev.changesOnly_trans (pl := []) (ps := [Ix.speRepointState]) (Dev.wr_only ..) (Dev.wr_only ..)
  refine ⟨?_, ?_, ?_⟩
  · exact ((hstates _).rd _ _ (by decide)).trans (((Dev.wr_only ..).rd _ _ (by decide)).trans (((Dev.wr_only ..).rd _ _ (by decide)).trans
      (Dev.rd_standbyFor _ (by omega))))
  · exact ((hstates _).rd _ _ (by decide)).trans (Dev.rd_coreState _ (by omega) (by decide))
  · exact ((Dev.wr_only ..).rd _ _ (by decide)).trans (Dev.rd_wr_same ..)

/-- At the first handover of its repointing a core goes out, and the standby that has not failed takes its share. -/
theorem coreRepointHandover_out {t c : Nat} {s : State} {e : Dev} {r : Repoint} (he : e = s.dev.at t) (hc : c < 32) (first : Nat)
    (hrep : e.flt.repoint = some r) (hisl : r.isl = 3) (hinst : r.inst = c) (hst : e.n0 Ix.speRepointState = 1) (hwhole : 1 ∉ e.flt.standbyFailed) :
    Completes (.coreRepointHandover t c first) t s [.flt, .cut, .out, .ctr]
      (Ix.speStandbyFor :: Ix.speCoreState :: Ix.speRepointState :: Ix.fltRepointState :: Ix.modCutSeq :: eventPlaces) fun d =>
      d.flt.repoint = some { r with out := true, since := first } ∧ d.rd Ix.speStandbyFor 0 0 = c ∧ d.rd Ix.speCoreState (c + 1) 0 = 3 ∧
      d.rd Ix.speRepointState 0 0 = 2 ∧ d.cut.seqTaken = wrap48 (e.cut.seqTaken + 1) ∧
      d.rd Ix.modCutSeq 0 0 = (wrap48 (e.cut.seqTaken + 1) : Nat) := by
  have hout := e.coreGoesOut_only r c first
  have hrecord := (e.coreGoesOut r c first).handoverRecord_only 3 c first 0
  obtain ⟨hstandby, hcore, hstate⟩ := e.rd_coreGoesOut r hc first
  obtain ⟨hseq, hshown⟩ := (e.coreGoesOut r c first).handoverRecord_seq 3 c first 0
  rw [hout.cut (by decide)] at hseq hshown
  have hothers : ¬ (r.isl != 3 || r.inst != c) = true := by simp [hisl, hinst]
  have hwell : ¬ e.flt.standbyFailed.contains 1 = true := by simpa using hwhole
  subst he
  refine completesIf_of_eq (x := ((s.dev.at t).coreGoesOut r c first).handoverRecord 3 c first 0) (exec_coreRepointHandover t c first s)
    (by simpa using hc) ?_ (Dev.changesOnly_mono (Dev.changesOnly_trans hout hrecord) (by decide) (by decide))
    ⟨by rw [hrecord.flt (by decide)]; rfl, (hrecord.rd _ _ (by decide)).trans hstandby, (hrecord.rd _ _ (by decide)).trans hcore,
      (hrecord.rd _ _ (by decide)).trans hstate, hseq, hshown⟩
  simp only [hrep, if_neg hothers, hst, if_true, if_neg hwell]
  rfl

/-- A core's update that has been loaded and has passed its test. -/
def Dev.coreUpdated (d : Dev) (r : Repoint) : Dev :=
  ({ d with flt := { d.flt with repoint := some { r with selfTestOk := true } } }.w0 Ix.speRepointState 3).w0 Ix.fltRepointState 3

/-- The update of a core that has passed its test goes on to the second handover. -/
theorem coreUpdateDone_goesOn {t : Nat} {s : State} {e : Dev} {r : Repoint} (he : e = s.dev.at t) (hrep : e.flt.repoint = some r) (hisl : r.isl = 3)
    (hst : e.n0 Ix.speRepointState = 2) :
    Completes (.coreUpdateDone t true) t s [.flt] [Ix.speRepointState, Ix.fltRepointState] fun d =>
      d.flt.repoint = some { r with selfTestOk := true } ∧ d.rd Ix.speRepointState 0 0 = 3 ∧ d.rd Ix.fltRepointState 0 0 = 3 := by
  subst he
  refine completes_of_eq (x := (s.dev.at t).coreUpdated r) (exec_coreUpdateDone t true s) ?_
    (Dev.changesOnly_trans (Dev.changesOnly_trans (Dev.flt_only ..) (Dev.wr_only ..)) (Dev.wr_only ..))
    ⟨rfl, ((Dev.wr_only ..).rd _ _ (by decide)).trans (Dev.rd_wr_same ..), Dev.rd_wr_same ..⟩
  have hgoes : (r.isl = 3 && (s.dev.at t).n0 Ix.speRepointState = 2) = true := by rw [hisl, hst]; rfl
  simp only [hrep, hgoes, if_true]
  rfl

/-! ### A layer's user table (R146) -/

/-- A write that changes no layer's N joins the staged set and discards nothing of it. -/
theorem Dev.stage_cut (d : Dev) {w : SWrite} (h : w.ix ≠ Ix.speLayerLen) : (d.stage w).cut = { d.cut with staged := putWrite w d.cut.staged } := by
  have hkeeps : d.dropTable w d.cut.staged = d.cut.staged := if_neg (by simp [h])
  rw [Dev.stage, hkeeps]
  dsimp only
  split <;> rfl

/-- A coefficient joins the staged set, and the index advances. -/
theorem speUserCoef_stages {t path l k : Nat} {v : Int} {s : State} {e : Dev} (he : e = s.dev.at t) (hr : e.reaches path Ix.speUserCoef)
    (hl : l = e.nW Ix.speUserLayer path) (hk : k = e.nW Ix.speUserIndex path) (hlt : k < 2 ^ 20) :
    Completes (.speUserCoef t path v) t s (.cut :: requestParts) (Ix.modCutState :: Ix.speUserIndex :: requestPlaces) fun d =>
      d.cut = { e.cut with staged := putWrite ⟨Ix.speUserCoef, 0, l * 2 ^ 20 + k, v⟩ e.cut.staged } ∧
      d.rd Ix.speUserIndex 0 path = (k + 1 : Nat) := by
  subst he
  have haccept := (s.dev.at t).accept_only path Ix.speUserCoef 0
  have hlayer : ((s.dev.at t).accept path Ix.speUserCoef 0).nW Ix.speUserLayer path = l :=
    hl ▸ congrArg Int.toNat (haccept.rd 0 path List.not_mem_nil)
  have hindex : ((s.dev.at t).accept path Ix.speUserCoef 0).nW Ix.speUserIndex path = k :=
    hk ▸ congrArg Int.toNat (haccept.rd 0 path List.not_mem_nil)
  have hother : Ix.speUserCoef ≠ Ix.speLayerLen := by decide
  refine completes_command (x := (((s.dev.at t).accept path Ix.speUserCoef 0).stage ⟨Ix.speUserCoef, 0, l * 2 ^ 20 + k, v⟩).wW Ix.speUserIndex path
    (k + 1)) rfl hr ?_ (Dev.changesOnly_trans (Dev.stage_only ..) (Dev.wr_only ..)) ⟨?_, ?_⟩
  · simp only [Dev.userCoefWrite, hlayer, hindex, if_neg (Nat.not_le.2 hlt)]
  · rw [Dev.served_cut, Dev.wW, Dev.wr_cut, Dev.stage_cut _ hother, Dev.accept_cut]
  · rw [Dev.rd_served _ _ _ _ _ _ (by decide)]
    exact Dev.rd_wr_fits (n := 3) _ path (by decide) (by decide) (by norm_num; omega)

/-! ### The obligation -/

/-- Settles O22, clause by clause: a frame that joins its trace and one that is lost, a trace, a stop, a memory error; a core's fault, its test and
return, the standby's failure; a repointing that starts, is refused, aborted, handed over and updated; a user coefficient. -/
theorem spectralFramesCoresAndRepointing : Obligations.SpectralFramesCoresAndRepointing := by
  unfold Obligations.SpectralFramesCoresAndRepointing
  refine ⟨?_, ?_, ?_, ?_, ?_, ?_, ?_, ?_, ?_, ?_, ?_, ?_, ?_, ?_, ?_, ?_, ?_⟩
  · intro t l m core bins exponent s e x got ps flags he hl hcore hsrc hx hdrain hold hnext hknown hgot hcome hshare hmasks hfeeds hps hsat hstart
      hopen hflags
    subst hx hgot hps hflags
    obtain ⟨d, hrun, hframe, hcount, hlayer⟩ :=
      speFrameDone_joins he hl hcore ⟨hsrc, hdrain, hold, hnext, hknown⟩ bins exponent hcome hshare hmasks hfeeds hsat hstart hopen
    refine ⟨d, hrun, hframe, hcount, hlayer, ?_⟩
    rw [hlayer]
    exact e.joinTrace_counts ..
  · intro t l m core bins exponent s e x he hl hcore hsrc hx hdrain hold hnext hknown hmiss hshare hpolicy
    subst hx
    have hdue : e.FrameDue l m := ⟨hsrc, hdrain, hold, hnext, hknown⟩
    exact speFrameDone_loses he hl hcore hdue bins exponent (hdue.frameDone_gap bins exponent hshare hmiss hpolicy)
  · intro t l m core bins exponent s e x he hl hcore hsrc hx hdrain hold hnext hknown hgone
    subst hx
    have hdue : e.FrameDue l m := ⟨hsrc, hdrain, hold, hnext, hknown⟩
    obtain ⟨d, hrun, hframe, hcount, hnext, -, hgaps⟩ :=
      speFrameDone_loses he hl hcore hdue bins exponent (hdue.frameDone_shareGone bins exponent hgone)
    exact ⟨d, hrun, hframe, hcount, hnext, hgaps⟩
  · intro t l s e x tr f he hl hx htr hsrc hfirst hframes hformat hring htakes hfull hconv hroll
    subst htr
    exact traceClose_closes he hl hx hsrc hfirst hframes hformat hring htakes hfull hconv hroll
  · intro t l s e x b k left he hl hx hdrain hb hk hleft hne hconv hq
    subst hx
    exact layerStopTimeout_cuts he hl hdrain hb hk hleft hne hconv hq
  · intro t l m lost s e he hl hq
    exact layerMemError_loses he hl m hq
  · intro t core l m s e he hcore hl hwell hrep hfor hwhole hrest hneed hlimit hq
    exact coreFault_engages he hcore hl m hwell hrep hfor hwhole hrest hneed hlimit hq
  · intro t core l m s e he hcore hl hwell hrep hbusy hq
    exact coreFault_staysOut he hcore hl m hwell hrep hbusy hq
  · intro t core s e he hcore hfailed
    exact coreSelftestDone_rejoins he hcore hfailed
  · intro t core first s e he hcore hrejoin hrep
    exact coreRepointHandover_back he hcore first hrejoin hrep
  · intro t s e c he hrep hfor hc hq
    exact coreStandbyFail_uncovers he hrep hfor hc hq
  · intro t path c s e he hr hc hrep hfree hidle
    exact speRepoint_starts he hr hc hrep hfree hidle
  · intro t path c s e he hr hp hc hrep hbusy
    exact speRepoint_standbyBusy he hr hc hrep hp hbusy
  · intro t path s e r he hr hrep hisl hout h3 h5
    exact speRepointAbort_ends he hr hrep hisl hout h3 h5
  · intro t c first s e r he hc hrep hisl hinst hst hwhole
    exact coreRepointHandover_out he hc first hrep hisl hinst hst hwhole
  · intro t s e r he hrep hisl hst
    exact coreUpdateDone_goesOn he hrep hisl hst
  · intro t path v s e l k he hr hl hk hlt
    exact speUserCoef_stages he hr hl hk hlt

end Sys2Proof.Machine
end

section
/-! PROOFS. The event of a condition: what a frame leaves of horizons and settings, an event that is noted, and its way into the queues of the
chains that name the condition (R174, R184 to R187, R207). -/

namespace Sys2Proof.Machine

/-! ### Conditions and chains, each set alone -/

theorem Dev.setCond_only (d : Dev) (c : Nat) (x : CondSt) : d.changesOnly [.trg] [] (d.setCond c x) := Dev.trg_only ..
theorem Dev.setChain_only (d : Dev) (k : Nat) (x : ChainSt) : d.changesOnly [.trg] [] (d.setChain k x) := Dev.trg_only ..

@[simp] theorem Dev.cond_setCond (d : Dev) (c : Nat) (x : CondSt) : (d.setCond c x).cond c = x := Tab.get_set_same ..
@[simp] theorem Dev.chain_setCond (d : Dev) (c : Nat) (x : CondSt) : (d.setCond c x).chain = d.chain := rfl
@[simp] theorem Dev.cond_setChain (d : Dev) (k : Nat) (x : ChainSt) : (d.setChain k x).cond = d.cond := rfl
@[simp] theorem Dev.chain_setChain (d : Dev) (k : Nat) (x : ChainSt) : (d.setChain k x).chain k = x := Tab.get_set_same ..
theorem Dev.chain_setChain_other (d : Dev) {k j : Nat} (h : j ≠ k) (x : ChainSt) : (d.setChain k x).chain j = d.chain j :=
  Tab.get_set_other _ _ _ _ _ _ h.symm

/-! ### What a frame leaves of horizons (R184, R185) -/

/-- The entries that the horizons of conditions and chains, and the settings of chains, are read from. -/
def horizonInputs : List Nat :=
  layerInputs ++ [Ix.itkLinkLatency, Ix.chnGroupDelay, Ix.trgCondType, Ix.trgCondSrc, Ix.trgRemoteHorizon, Ix.trgChainStages, Ix.trgChainOrder,
    Ix.trgChainHoldoff, Ix.trgChainReset, Ix.trgStageSet, Ix.trgStageMode, Ix.trgStageN, Ix.trgStageWindow, Ix.trgStageNext]

section
variable {pl : List Part} {ps : List Nat} {d e : Dev} (h : d.changesOnly pl ps e)
include h

theorem Dev.changesOnly.trg (hp : Part.trg ∉ pl) : e.trg = d.trg := (h.1 .trg hp (by decide)).symm
theorem Dev.changesOnly.cond (hp : Part.trg ∉ pl) : e.cond = d.cond := funext fun c => congrArg (fun x => x.conds.get {} c) (h.trg hp)
theorem Dev.changesOnly.chain (hp : Part.trg ∉ pl) : e.chain = d.chain := funext fun k => congrArg (fun x => x.chains.get {} k) (h.trg hp)

/-- The setting a condition's event is judged by keeps the frame, where no cut changes it between. -/
theorem Dev.changesOnly.condAt {c : Nat} (hb : (e.cond c).before = (d.cond c).before) (time : Nat) :
    (d.condAt c time).changesOnly pl ps (e.condAt c time) := by
  rw [Dev.condAt, Dev.condAt, hb]
  split
  · split
    · exact h.overlay _
    · exact h
  · exact h

variable (hin : ∀ ix ∈ horizonInputs, ix ∉ ps)
include hin

theorem Dev.changesOnly.scaledPs : e.scaledPs = d.scaledPs := funext fun isl => funext fun figure => by
  rw [Dev.scaledPs, Dev.scaledPs, h.clockKHz fun ix hix => hin ix (List.mem_append_left _ hix)]

theorem Dev.changesOnly.chainCfg : e.chainCfg = d.chainCfg := funext fun k => by
  simp only [Dev.chainCfg, h.nI (hin Ix.trgChainOrder (by decide)), h.nI (hin Ix.trgChainHoldoff (by decide)), h.nI (hin Ix.trgChainReset (by decide)),
    h.nI (hin Ix.trgChainStages (by decide)), h.nI (hin Ix.trgStageSet (by decide)), h.nI (hin Ix.trgStageMode (by decide)),
    h.nI (hin Ix.trgStageN (by decide)), h.nI (hin Ix.trgStageWindow (by decide)), h.nI (hin Ix.trgStageNext (by decide))]

theorem Dev.changesOnly.chainAt {k : Nat} (hk : e.chain k = d.chain k) (time : Nat) : e.chainAt k time = d.chainAt k time := by
  rw [Dev.chainAt, Dev.chainAt, hk, h.chainCfg hin]

theorem Dev.changesOnly.condInst : e.condInst = d.condInst := funext fun c => by
  rw [Dev.condInst, Dev.condInst, h.nI (hin Ix.trgCondType (by decide)), h.nI (hin Ix.trgCondSrc (by decide))]

variable (hchn : Part.chn ∉ pl)
include hchn

theorem Dev.changesOnly.condPs : e.condPs = d.condPs := by
  have hlayer : ∀ ix ∈ layerInputs, ix ∉ ps := fun ix hix => hin ix (List.mem_append_left _ hix)
  have hsource : e.sourcePs = d.sourcePs := funext fun code => funext fun real => by
    rw [Dev.sourcePs, Dev.sourcePs, h.scaledPs hin, h.nI (hin Ix.itkLinkLatency (by decide)), h.linkReal hlayer]
  have hddc : e.ddcPs = d.ddcPs := funext fun n => by
    rw [Dev.ddcPs, Dev.ddcPs, hsource, h.nI (hin Ix.chnSrc (by decide)), h.nI (hin Ix.chnGroupDelay (by decide))]
  have hlayers : e.layerPs = d.layerPs := funext fun l => by
    rw [Dev.layerPs, Dev.layerPs, h.layerDdc hlayer, hddc, hsource, h.wideCode hlayer, h.layerRate hlayer hchn, h.layerN hlayer, h.clockKHz hlayer]
  have hplane : e.planeLayer = d.planeLayer := funext fun p => by rw [Dev.planeLayer, Dev.planeLayer, h.nI (hin Ix.denLayer (by decide))]
  funext c
  rw [Dev.condPs, Dev.condPs, hsource, hddc, hlayers, hplane, h.scaledPs hin, h.nI (hin Ix.trgCondType (by decide)),
    h.nI (hin Ix.trgCondSrc (by decide)), h.nI (hin Ix.trgMaskLayer (by decide)), h.n0 (hin Ix.trgRemoteHorizon (by decide))]

theorem Dev.changesOnly.chainPs : e.chainPs = d.chainPs := funext fun k => by
  rw [Dev.chainPs, Dev.chainPs, h.chainCfg hin, h.condPs hin hchn, h.scaledPs hin]

end

/-! ### A chain is given an event (R185 to R187) -/

/-- An event of a condition as it waits at a chain. -/
def Dev.waiting (d : Dev) (c time k : Nat) : QEvent :=
  { cond := c, time := time, due := if (d.chainAt k time).order = 0 then time + ps (d.chainPs k)
                                    else max (time + ps (d.condPs c + d.scaledPs 4 40)) d.time96 }

theorem Dev.enqueue_eq (d : Dev) (c time k : Nat) :
    d.enqueue k c time = if ((d.chain k).queue.filter (fun q => q.cond == c)).length < 4096 then
      d.setChain k { d.chain k with queue := (d.chain k).queue ++ [d.waiting c time k] } else d := rfl

/-- A chain is given an event if it is in use and names the condition. -/
def Dev.offer (d : Dev) (c time k : Nat) : Dev :=
  if !(d.chainAt k time).stages.isEmpty && bitOf (d.chainAt k time).names c then d.enqueue k c time else d

/-- The chain after it: the event waits, unless 4,096 of its condition do. -/
def Dev.offered (d : Dev) (c time k : Nat) : ChainSt :=
  if (d.chainAt k time).stages ≠ [] ∧ bitOf (d.chainAt k time).names c = true ∧ ((d.chain k).queue.filter (fun q => q.cond == c)).length < 4096 then
    { d.chain k with queue := (d.chain k).queue ++ [d.waiting c time k] }
  else d.chain k

theorem Dev.offer_cases (d : Dev) (c time k : Nat) :
    (d.offer c time k = d ∧ d.offered c time k = d.chain k) ∨ d.offer c time k = d.setChain k (d.offered c time k) := by
  unfold Dev.offer Dev.offered
  rw [Dev.enqueue_eq]
  split
  · next hnamed =>
    obtain ⟨hstages, hname⟩ : (d.chainAt k time).stages ≠ [] ∧ bitOf (d.chainAt k time).names c = true := by simpa using hnamed
    split
    · next hroom => exact .inr (by rw [if_pos ⟨hstages, hname, hroom⟩])
    · next hfull => exact .inl ⟨rfl, if_neg fun hall => hfull hall.2.2⟩
  · next hnamed => exact .inl ⟨rfl, if_neg fun hall => hnamed (by simpa using ⟨hall.1, hall.2.1⟩)⟩

theorem Dev.offer_only (d : Dev) (c time k : Nat) : d.changesOnly [.trg] [] (d.offer c time k) := by
  rcases d.offer_cases c time k with ⟨h, -⟩ | h <;> rw [h]
  · exact Dev.changesOnly_refl ..
  · exact Dev.setChain_only ..

theorem Dev.cond_offer (d : Dev) (c time k : Nat) : (d.offer c time k).cond = d.cond := by
  rcases d.offer_cases c time k with ⟨h, -⟩ | h <;> rw [h]
  exact Dev.cond_setChain ..

theorem Dev.chain_offer (d : Dev) (c time k : Nat) : (d.offer c time k).chain k = d.offered c time k := by
  rcases d.offer_cases c time k with ⟨h, hk⟩ | h <;> rw [h]
  · exact hk.symm
  · exact Dev.chain_setChain ..

theorem Dev.chain_offer_other (d : Dev) (c time : Nat) {k j : Nat} (hj : j ≠ k) : (d.offer c time k).chain j = d.chain j := by
  rcases d.offer_cases c time k with ⟨h, -⟩ | h <;> rw [h]
  exact Dev.chain_setChain_other _ hj _

/-- What a chain makes of an event is a matter of the settings and of its own queue. -/
theorem Dev.changesOnly.offered {pl : List Part} {ps : List Nat} {d e : Dev} (h : d.changesOnly pl ps e) (hin : ∀ ix ∈ horizonInputs, ix ∉ ps)
    (hchn : Part.chn ∉ pl) (hnow : Part.now ∉ pl) (htb : Part.tb ∉ pl) {k : Nat} (hk : e.chain k = d.chain k) (c time : Nat) :
    e.offered c time k = d.offered c time k := by
  rw [Dev.offered, Dev.offered, Dev.waiting, Dev.waiting, h.chainAt hin hk, h.chainPs hin hchn, h.condPs hin hchn, h.scaledPs hin,
    h.time96 hnow htb, hk]

/-- Every chain of a list is given an event. -/
def Dev.offers (d : Dev) (c time : Nat) (l : List Nat) : Dev := l.foldl (fun (a : Dev) k => a.offer c time k) d

theorem Dev.offers_only (d : Dev) (c time : Nat) (l : List Nat) : d.changesOnly [.trg] [] (d.offers c time l) :=
  Dev.changesOnly_foldl _ (fun a k => a.offer_only c time k) l d

theorem Dev.cond_offers (d : Dev) (c time : Nat) (l : List Nat) : (d.offers c time l).cond = d.cond :=
  foldl_keeps Dev.cond _ (fun a k => a.cond_offer c time k) l d

theorem Dev.chain_offers_other {l : List Nat} {k : Nat} (hk : k ∉ l) (d : Dev) (c time : Nat) : (d.offers c time l).chain k = d.chain k := by
  induction l generalizing d with
  | nil => rfl
  | cons n r ih =>
    obtain ⟨hn, hr⟩ := not_or.1 (mt List.mem_cons.2 hk)
    exact (ih hr _).trans (d.chain_offer_other c time hn)

theorem Dev.chain_offers {l : List Nat} (hl : l.Nodup) {k : Nat} (hk : k ∈ l) (d : Dev) (c time : Nat) :
    (d.offers c time l).chain k = d.offered c time k := by
  induction l generalizing d with
  | nil => cases hk
  | cons n r ih =>
    obtain ⟨hn, hr⟩ := List.nodup_cons.1 hl
    rcases List.mem_cons.1 hk with rfl | hkr
    · exact (Dev.chain_offers_other hn _ c time).trans (d.chain_offer c time k)
    · have hne : k ≠ n := fun heq => hn (heq ▸ hkr)
      exact (ih hr hkr _).trans ((d.offer_only c time n).offered (by simp) (by decide) (by decide) (by decide) (d.chain_offer_other c time hne) c time)

/-! ### A condition's event (R174) -/

/-- The island clock of an event. -/
def Dev.eventClock (d : Dev) (time : Nat) : Nat := time * (d.clockKHz 4 * 1000) / two48

/-- The event is noted at its condition: its island clock, the count, a record where the setting asks for one. -/
def Dev.noted (d : Dev) (c time value : Nat) : Dev :=
  let a := (d.setCond c { d.cond c with clock := some (d.eventClock time) }).incI Ix.trgCondEvents c
  if (d.condAt c time).nI Ix.trgCondLog c = 1 then a.trgEvent 0x07 c time value 0 else a

theorem Dev.noted_only (d : Dev) (c time value : Nat) :
    d.changesOnly [.trg, .out, .ctr] (Ix.trgCondEvents :: eventPlaces) (d.noted c time value) := by
  have hcount := Dev.changesOnly_trans (d.setCond_only c { d.cond c with clock := some (d.eventClock time) }) (Dev.incI_only _ Ix.trgCondEvents c 1)
  unfold Dev.noted
  dsimp only
  split
  · exact Dev.changesOnly_mono (Dev.changesOnly_trans hcount (Dev.event_only ..)) (by decide) (by decide)
  · exact Dev.changesOnly_mono hcount (by decide) (by decide)

theorem Dev.noted_trg (d : Dev) (c time value : Nat) :
    (d.noted c time value).trg = (d.setCond c { d.cond c with clock := some (d.eventClock time) }).trg := by
  unfold Dev.noted
  dsimp only
  split
  · rw [Dev.trgEvent, (Dev.event_only ..).trg (by decide), (Dev.incI_only ..).trg (by decide)]
  · exact (Dev.incI_only ..).trg (by decide)

theorem Dev.cond_noted (d : Dev) (c time value : Nat) : (d.noted c time value).cond c = { d.cond c with clock := some (d.eventClock time) } := by
  rw [Dev.cond, Dev.noted_trg]
  exact Dev.cond_setCond ..

theorem Dev.chain_noted (d : Dev) (c time value : Nat) : (d.noted c time value).chain = d.chain := by
  funext k
  rw [Dev.chain, Dev.noted_trg]
  rfl

theorem Dev.noted_counted (d : Dev) (c time value : Nat) : d.counted (d.noted c time value) Ix.trgCondEvents (c + 1) 0 1 := by
  have hcount := (d.setCond_only c { d.cond c with clock := some (d.eventClock time) }).counted (by simp)
    (Dev.inc_counted _ Ix.trgCondEvents (c + 1) 0 1)
  unfold Dev.noted
  dsimp only
  split
  · exact hcount.after (Dev.event_only ..) (by decide)
  · exact hcount

/-- A condition that may emit notes its event, and the sixteen chains are given it. -/
theorem Dev.emitCond_eq {d : Dev} {c time : Nat} (h : d.mayEmit c time) (value : Nat) :
    d.emitCond c time value = (d.noted c time value).offers c time (List.range 16) := by
  obtain ⟨htype, hruns, hclock⟩ := h
  unfold Dev.emitCond
  dsimp only
  rw [hruns, if_neg (by simpa using htype), if_neg hclock]
  rfl

section
variable {d : Dev} {c time : Nat} (h : d.mayEmit c time) (value : Nat)
include h

theorem Dev.emitCond_only : d.changesOnly [.trg, .out, .ctr] (Ix.trgCondEvents :: eventPlaces) (d.emitCond c time value) := by
  rw [Dev.emitCond_eq h]
  exact Dev.changesOnly_step (d.noted_only c time value) (Dev.changesOnly_mono (Dev.offers_only ..) (by decide) (by decide))

theorem Dev.cond_emitCond : (d.emitCond c time value).cond c = { d.cond c with clock := some (d.eventClock time) } := by
  rw [Dev.emitCond_eq h, Dev.cond_offers, Dev.cond_noted]

theorem Dev.chain_emitCond {k : Nat} (hk : k < 16) : (d.emitCond c time value).chain k = d.offered c time k := by
  rw [Dev.emitCond_eq h, Dev.chain_offers List.nodup_range (List.mem_range.2 hk)]
  exact (d.noted_only c time value).offered (by decide) (by decide) (by decide) (by decide) (congrFun (d.chain_noted ..) k) c time

/-- The event occurs. -/
theorem Dev.emitCond_occurs : d.occurs (d.emitCond c time value) c time := by
  refine ⟨?_, ?_, fun k hk hstages hname hroom => ?_⟩
  · rw [Dev.emitCond_eq h]
    exact (d.noted_counted c time value).after (Dev.offers_only ..) (by simp)
  · rw [Dev.cond_emitCond h]
    rfl
  · rw [Dev.chain_emitCond h value hk, Dev.offered, if_pos ⟨hstages, hname, hroom⟩]
    rfl

end

/-! ### An event before and after other steps -/

/-- A condition that may emit still may, where its own state, its instance and its setting are as they were. -/
theorem Dev.mayEmit.before {pl : List Part} {ps : List Nat} {d e : Dev} {c time : Nat} (h : d.mayEmit c time) (hf : d.changesOnly pl ps e)
    (hin : ∀ ix ∈ horizonInputs, ix ∉ ps) (hnow : Part.now ∉ pl) (hb : (e.cond c).before = (d.cond c).before)
    (hc : (e.cond c).clock = (d.cond c).clock) (hs : e.trg.suspended = d.trg.suspended) : e.mayEmit c time := by
  have hat := hf.condAt hb time
  have hsusp : e.instSuspended = d.instSuspended := funext fun i => by rw [Dev.instSuspended, Dev.instSuspended, hs, hf.now hnow]
  rw [Dev.mayEmit, hat.nI (hin Ix.trgCondType (by decide)), hat.condInst hin, hsusp, hc,
    hf.clockKHz fun ix hix => hin ix (List.mem_append_left _ hix)]
  exact h

/-- An event occurs from before a step that leaves the chains and what horizons are read from. -/
theorem Dev.occurs.since {pl : List Part} {ps : List Nat} {d e x : Dev} {c time : Nat} (h : e.occurs x c time) (hf : d.changesOnly pl ps e)
    (hin : ∀ ix ∈ horizonInputs, ix ∉ ps) (hcount : Ix.trgCondEvents ∉ ps) (hchn : Part.chn ∉ pl) (hnow : Part.now ∉ pl) (htb : Part.tb ∉ pl)
    (hk : e.chain = d.chain) : d.occurs x c time := by
  obtain ⟨hcounted, hclock, hqueue⟩ := h
  refine ⟨hf.counted hcount hcounted, ?_, fun k hlt => ?_⟩
  · rwa [hf.clockKHz fun ix hix => hin ix (List.mem_append_left _ hix)] at hclock
  · have := hqueue k hlt
    rwa [hf.chainAt hin (congrFun hk k), hf.chainPs hin hchn, hf.condPs hin hchn, hf.scaledPs hin, hf.time96 hnow htb, hk] at this

/-- An event has occurred after a step that leaves the condition's clock and the chains. -/
theorem Dev.occurs.after {pl : List Part} {ps : List Nat} {d e x : Dev} {c time : Nat} (h : d.occurs e c time) (hf : e.changesOnly pl ps x)
    (hcount : Ix.trgCondEvents ∉ ps) (hc : (x.cond c).clock = (e.cond c).clock) (hk : x.chain = e.chain) : d.occurs x c time := by
  obtain ⟨hcounted, hclock, hqueue⟩ := h
  exact ⟨hcounted.after hf hcount, hc.trans hclock, fun k hlt hst hn hr => (congrArg ChainSt.queue (congrFun hk k)).trans (hqueue k hlt hst hn hr)⟩

end Sys2Proof.Machine
end

section
/-! PROOFS. A software condition's event, and what settles O24 (R177). -/

namespace Sys2Proof.Machine

theorem exec_trgCondSoft (t path c : Nat) (s : State) : exec (.trgCondSoft t path c) s = execTrgCondSoft t path c s := rfl

/-- A command whose frame does not list the Trigger Unit leaves it as it was. -/
theorem Completes.trg {i : Instr} {t : Nat} {s : State} {pl : List Part} {ps : List Nat} {post : Dev → Prop} (h : Completes i t s pl ps post)
    (hp : Part.trg ∉ pl) : Completes i t s pl ps fun d => post d ∧ d.trg = (s.dev.at t).trg := by
  obtain ⟨d, hrun, hframe, hpost⟩ := h
  exact ⟨d, hrun, hframe, hpost, hframe.trg hp⟩

theorem Dev.changesOnly.trgBoundary {pl : List Part} {ps : List Nat} {d e : Dev} (h : d.changesOnly pl ps e) (hin : Ix.tbIslFreq ∉ ps) :
    e.trgBoundary = d.trgBoundary := funext fun time => by
  rw [Dev.trgBoundary, Dev.trgBoundary, Dev.clockKHz, Dev.clockKHz, h.nI hin]

/-- The first block boundary after now is the same where time and the island's clock are. -/
theorem Dev.changesOnly.nextBoundary {pl : List Part} {ps : List Nat} {d e : Dev} (h : d.changesOnly pl ps e) (hn : Part.now ∉ pl) (ht : Part.tb ∉ pl)
    (hin : Ix.tbIslFreq ∉ ps) : e.trgBoundary (e.time96 + 1) = d.trgBoundary (d.time96 + 1) := by
  rw [h.trgBoundary hin, h.time96 hn ht]

section
variable {t path c : Nat} {s : State} {e : Dev} (he : e = s.dev.at t) (hr : e.reaches path Ix.trgCondSoft)
include he hr

/-- A condition of type 0x31 emits at the next block boundary. -/
theorem trgCondSoft_emits (hc : c < 64) (htype : e.nI Ix.trgCondType c = 0x31) (hmay : e.mayEmit c (e.trgBoundary (e.time96 + 1))) :
    Completes (.trgCondSoft t path c) t s (.trg :: .out :: requestParts) (Ix.trgCondEvents :: (eventPlaces ++ requestPlaces)) fun d =>
      e.occurs d c (e.trgBoundary (e.time96 + 1)) := by
  subst he
  have haccept := (s.dev.at t).accept_only path Ix.trgCondSoft 0
  have hmay' := hmay.before haccept (by simp) (by decide) (by rw [haccept.cond (by decide)]) (by rw [haccept.cond (by decide)])
    (by rw [haccept.trg (by decide)])
  refine completes_command (x := ((s.dev.at t).accept path Ix.trgCondSoft 0).emitCond c ((s.dev.at t).trgBoundary ((s.dev.at t).time96 + 1)) 0)
    (exec_trgCondSoft ..) hr ?_ (Dev.emitCond_only hmay' 0) ?_
  · rw [haccept.nextBoundary (by decide) (by decide) (by simp), haccept.nI (by simp), htype]
    exact if_neg (by simpa using hc)
  · have hserved := fun x : Dev => (s.dev.at t).served_only x path
    exact ((Dev.emitCond_occurs hmay' 0).since haccept (by simp) (by simp) (by decide) (by decide) (by decide) (haccept.chain (by decide))).after
      (hserved _) (by decide) (by rw [(hserved _).cond (by decide)]) ((hserved _).chain (by decide))

/-- A number of another condition is rejected, and the Trigger Unit is as before. -/
theorem trgCondSoft_refuses (hpath : 1 ≤ path ∧ path ≤ 4) (hc : 64 ≤ c ∨ e.nI Ix.trgCondType c ≠ 0x31) :
    Completes (.trgCondSoft t path c) t s requestParts requestPlaces fun d => d.reports path Code.condType ∧ d.trg = e.trg := by
  subst he
  refine (completes_refused (exec_trgCondSoft ..) hr hpath (if_pos ?_)).trg (by decide)
  rw [((s.dev.at t).accept_only ..).nI (by simp)]
  simpa using hc

end

/-- Settles O24: a condition of type 0x31 emits at the block boundary, a number of another is rejected. -/
theorem softwareConditionEvents : Obligations.SoftwareConditionEvents := by
  unfold Obligations.SoftwareConditionEvents
  constructor
  · intro t path c s e he hr hc htype hmay
    exact trgCondSoft_emits he hr hc htype hmay
  · intro t path c s e he hr hpath hc
    exact trgCondSoft_refuses he hr hpath hc

end Sys2Proof.Machine
end

section
/-! PROOFS. Conditions in the time domain and on pins (R170 to R175). -/

namespace Sys2Proof.Machine

/-! ### Two samples in succession (R171, R172) -/

section
variable {d : Dev} {c i w : Nat} {s0 s1 : Int} {x : CondSt}
  (hstep : (x, w) = levelStep (d.cond c) (d.rd Ix.trgCondLevelA (c + 1) 0) (d.rd Ix.trgCondLevelB (c + 1) 0) (d.nI Ix.trgCondHyst c) s1)
include hstep

/-- A level condition emits at a crossing that its polarity watches. -/
theorem Dev.levelCond_crossing (htype : d.nI Ix.trgCondType c = 1)
    (hcross : (bitOf w 0 = true ∧ watches (d.nI Ix.trgCondPolarity c) true = true) ∨
      (bitOf w 1 = true ∧ watches (d.nI Ix.trgCondPolarity c) false = true)) :
    ∃ v y, d.levelCond c i s0 s1 = (d.emitCond c (d.condTime c i (crossAt (d.rd Ix.trgCondLevelA (c + 1) 0) s0 s1)) v).setCond c y ∧
      y.clock = ((d.emitCond c (d.condTime c i (crossAt (d.rd Ix.trgCondLevelA (c + 1) 0) s0 s1)) v).cond c).clock := by
  have hwatched : ((bitOf w 0 && watches (d.nI Ix.trgCondPolarity c) true) || (bitOf w 1 && watches (d.nI Ix.trgCondPolarity c) false)) = true := by
    simpa using hcross
  unfold Dev.levelCond
  dsimp only
  rw [← hstep]
  dsimp only
  rw [htype]
  simp only [hwatched, if_true, Nat.reduceEqDiff, if_false]
  exact ⟨_, _, rfl, rfl⟩

/-- A pulse between an upward crossing and this downward one, of a length that meets the test, makes its condition emit. -/
theorem Dev.levelCond_pulse (htype : d.nI Ix.trgCondType c = 2) (hpol : d.nI Ix.trgCondPolarity c = 0) (hdown : bitOf w 1 = true) {l : Nat}
    (hled : x.ledUp = some l) (htest : d.condTest c (256 * i + crossAt (d.rd Ix.trgCondLevelA (c + 1) 0) s0 s1 - l) = true) :
    ∃ v y, d.levelCond c i s0 s1 = (d.emitCond c (d.condTime c i (crossAt (d.rd Ix.trgCondLevelA (c + 1) 0) s0 s1)) v).setCond c y ∧
      y.clock = ((d.emitCond c (d.condTime c i (crossAt (d.rd Ix.trgCondLevelA (c + 1) 0) s0 s1)) v).cond c).clock ∧ y.ledUp = none := by
  unfold Dev.levelCond
  dsimp only
  rw [← hstep]
  dsimp only
  rw [htype, hpol]
  simp only [hled, hdown, htest, Option.isSome_some, Bool.and_self, if_true, Nat.reduceEqDiff, if_false]
  exact ⟨_, _, rfl, rfl, rfl⟩

end

/-! ### A sample is examined (R170 to R173) -/

/-- Sample i is the last that a condition has examined. -/
def Dev.examined (d : Dev) (c i : Nat) : Dev := d.setCond c { d.cond c with seen := some i }

theorem Dev.examined_only (d : Dev) (c i : Nat) : d.changesOnly [.trg] [] (d.examined c i) := Dev.setCond_only ..
theorem Dev.cond_examined (d : Dev) (c i : Nat) : (d.examined c i).cond c = { d.cond c with seen := some i } := Dev.cond_setCond ..

theorem Dev.timeoutDue_other {d : Dev} {c : Nat} (h : d.nI Ix.trgCondType c ≠ 4) : d.timeoutDue c = d := by
  unfold Dev.timeoutDue
  dsimp only
  split
  · exact if_neg (by simp only [h, decide_false, Bool.false_and, Bool.false_eq_true, not_false_eq_true])
  · rfl

theorem Dev.timeoutDue_none {d : Dev} {c : Nat} (h : (d.cond c).limit = none) : d.timeoutDue c = d := by
  unfold Dev.timeoutDue
  dsimp only
  rw [h]

section
variable {d : Dev} {c i : Nat}

/-- A sample after one that was present: the levels meet both. -/
theorem Dev.condExamine_pair {p q : Sample} (hdue : d.timeoutDue c = d) (hseen : (d.cond c).seen = some i) (hp : d.condSample c i = some p)
    (hq : d.condSample c (i + 1) = some q) (htype : d.nI Ix.trgCondType c ≠ 6) :
    d.condExamine c (i + 1) = (d.levelCond c i (d.condQty c p) (d.condQty c q)).examined c (i + 1) := by
  unfold Dev.condExamine
  rw [hdue]
  dsimp only
  simp only [hq, hseen, Option.any_some, Nat.lt_irrefl, decide_false, Bool.false_eq_true, if_false, beq_self_eq_true, if_true, Nat.add_sub_cancel, hp,
    htype]
  rfl

/-- A sample of an over-range condition, in its turn. -/
theorem Dev.condExamine_over {q : Sample} (htype : d.nI Ix.trgCondType c = 6) (hseen : ∀ n ∈ (d.cond c).seen, n + 1 = i)
    (hq : d.condSample c i = some q) : d.condExamine c i = (d.overCond c i q).examined c i := by
  have hnone : (d.cond c).seen.any (fun n => decide (n + 1 < i)) = false := by
    cases h : (d.cond c).seen with
    | none => rfl
    | some n => simp [hseen n (by simp [h])]
  unfold Dev.condExamine
  rw [Dev.timeoutDue_other (by omega)]
  dsimp only
  rw [hq, hnone]
  dsimp only
  simp only [Bool.false_eq_true, if_false, htype, if_true]
  split <;> rfl

/-- A sample that is missing. -/
theorem Dev.condExamine_missing (hlimit : (d.cond c).limit = none) (hq : d.condSample c i = none) :
    d.condExamine c i = (d.setCond c (condClear (d.cond c))).examined c i := by
  unfold Dev.condExamine
  rw [Dev.timeoutDue_none hlimit]
  dsimp only
  rw [hq]
  rfl

theorem Dev.overCond_fires {q : Sample} (hovr : q.ovr ≠ 0) (hclean : 16 ≤ (d.cond c).clean) : ∃ v, d.overCond c i q =
    (d.emitCond c (d.condTime c i 0) v).setCond c { (d.emitCond c (d.condTime c i 0) v).cond c with clean := 0 } := by
  unfold Dev.overCond
  dsimp only
  rw [if_pos (by simpa using hovr), if_pos hclean]
  exact ⟨_, rfl⟩

theorem Dev.overCond_clean {q : Sample} (hovr : q.ovr = 0) :
    d.overCond c i q = d.setCond c { d.cond c with clean := min 16 ((d.cond c).clean + 1) } := by
  unfold Dev.overCond
  dsimp only
  exact if_neg (by simp [hovr])

end

/-! ### The command (R170 to R175) -/

theorem exec_condEvent (t c index ecc : Nat) (rising : Bool) (s : State) :
    exec (.condEvent t c index ecc rising) s = execCondEvent t c index ecc rising s := rfl
theorem exec_condTimeoutExpiry (t c : Nat) (s : State) : exec (.condTimeoutExpiry t c) s = execCondTimeoutExpiry t c s := rfl

/-- An event that names a unit of the module completes with what its meaning evaluates to. -/
theorem completes_of_runIf {i : Instr} {ok : Bool} {t : Nat} {s : State} {f : Dev → Dev} {pl : List Part} {ps : List Nat} {post : Dev → Prop} {x : Dev}
    (h : exec i s = runIf ok t s f) (hok : ok = true) (hx : f (s.dev.at t) = x) (hc : (s.dev.at t).changesOnly pl ps x) (hp : post x) :
    Completes i t s pl ps post :=
  completes_of_eq h ((if_pos hok).trans hx) hc hp

section
variable {t c index : Nat} {rising : Bool} {s : State} {e : Dev} (he : e = s.dev.at t) (hc : c < 64) (hb : (e.cond c).before = none)
include he hc hb

/-- No cut waits at a condition: it takes its next sample or edge. -/
theorem completes_condEvent {x : Dev} {pl : List Part} {ps : List Nat} {post : Dev → Prop} (hx : e.condNext c index rising = x)
    (hframe : e.changesOnly pl ps x) (hpost : post x) : Completes (.condEvent t c index 0 rising) t s pl ps post := by
  subst he
  refine completes_of_runIf (exec_condEvent ..) (by simpa using hc) ?_ hframe hpost
  dsimp only
  rw [if_pos rfl, hb]
  exact hx

/-- A sample in its turn is examined. -/
theorem completes_condEvent_sample {x : Dev} {pl : List Part} {ps : List Nat} {post : Dev → Prop} (h1 : 1 ≤ e.nI Ix.trgCondType c)
    (h6 : e.nI Ix.trgCondType c ≤ 6) (hturn : e.condTurn c index = true) (hx : e.condExamine c index = x) (hframe : e.changesOnly pl ps x)
    (hpost : post x) : Completes (.condEvent t c index 0 rising) t s pl ps post := by
  refine completes_condEvent he hc hb ?_ hframe hpost
  unfold Dev.condNext
  dsimp only
  rw [if_pos (by simp only [h1, h6, decide_true, Bool.and_self]), if_pos hturn, hx]

/-- An edge that the Interval Meter has stamped, after the last. -/
theorem completes_condEvent_edge {x : Dev} {pl : List Part} {ps : List Nat} {post : Dev → Prop}
    (htype : e.nI Ix.trgCondType c = 0x20 ∨ e.nI Ix.trgCondType c = 0x21)
    (hstamp : (index, if rising then 0 else 1) ∈ ((e.im.sites.find? (0x10 + e.nI Ix.trgCondSrc c)).getD {}).recent)
    (hlast : ∀ n ∈ (e.cond c).seen, n < index) (hx : (e.examined c index).pinCond c index rising = x) (hframe : e.changesOnly pl ps x)
    (hpost : post x) : Completes (.condEvent t c index 0 rising) t s pl ps post := by
  refine completes_condEvent he hc hb ?_ hframe hpost
  have hall : (e.cond c).seen.all (· < index) = true := by
    rw [Option.all_eq_true]
    exact fun n hn => by simpa using hlast n hn
  unfold Dev.condNext
  dsimp only
  have hrange : ¬ (1 ≤ e.nI Ix.trgCondType c ∧ e.nI Ix.trgCondType c ≤ 6) := by omega
  rw [if_neg (by simpa only [Bool.and_eq_true, decide_eq_true_eq] using hrange),
    if_pos (by simpa only [Bool.or_eq_true, decide_eq_true_eq] using htype), if_pos]
  · exact hx
  · rw [hall, Bool.and_true]
    simpa using hstamp

end

/-! ### What an event leaves to do at its condition -/

section
variable {d : Dev} {c time : Nat} (h : d.mayEmit c time) (value : Nat)
include h

/-- An event after which its condition takes a state of its own, the clock of the event kept. -/
theorem Dev.emitCond_then {y : CondSt} (hy : y.clock = ((d.emitCond c time value).cond c).clock) :
    d.changesOnly [.trg, .out, .ctr] (Ix.trgCondEvents :: eventPlaces) ((d.emitCond c time value).setCond c y) ∧
      d.occurs ((d.emitCond c time value).setCond c y) c time :=
  ⟨Dev.changesOnly_step (Dev.emitCond_only h value) (Dev.changesOnly_mono (Dev.setCond_only ..) (by decide) (by decide)),
    (Dev.emitCond_occurs h value).after (Dev.setCond_only ..) (by decide) (by rw [Dev.cond_setCond, hy]) rfl⟩

/-- The same, and the sample is the last examined. -/
theorem Dev.emitCond_examined {y : CondSt} (hy : y.clock = ((d.emitCond c time value).cond c).clock) (i : Nat) :
    d.changesOnly [.trg, .out, .ctr] (Ix.trgCondEvents :: eventPlaces) (((d.emitCond c time value).setCond c y).examined c i) ∧
      d.occurs (((d.emitCond c time value).setCond c y).examined c i) c time ∧
      (((d.emitCond c time value).setCond c y).examined c i).cond c = { y with seen := some i } := by
  obtain ⟨hframe, hoccurs⟩ := Dev.emitCond_then h value hy
  refine ⟨Dev.changesOnly_step hframe (Dev.changesOnly_mono (Dev.examined_only ..) (by decide) (by decide)),
    hoccurs.after (Dev.examined_only ..) (by decide) (by rw [Dev.cond_examined]) rfl, ?_⟩
  rw [Dev.cond_examined, Dev.cond_setCond]

end

/-- An event that follows a change of its condition's state, the clock of the last event kept. -/
theorem Dev.setCond_emitCond {d : Dev} {c time : Nat} (h : d.mayEmit c time) {y : CondSt} (hclock : y.clock = (d.cond c).clock)
    (hbefore : y.before = (d.cond c).before) (value : Nat) :
    d.changesOnly [.trg, .out, .ctr] (Ix.trgCondEvents :: eventPlaces) ((d.setCond c y).emitCond c time value) ∧
      d.occurs ((d.setCond c y).emitCond c time value) c time ∧
      ((d.setCond c y).emitCond c time value).cond c = { y with clock := some (d.eventClock time) } := by
  have hset := d.setCond_only c y
  have hmay := h.before hset (by simp) (by decide) (by rw [Dev.cond_setCond, hbefore]) (by rw [Dev.cond_setCond, hclock]) rfl
  refine ⟨Dev.changesOnly_step (Dev.changesOnly_mono hset (by decide) (by decide)) (Dev.emitCond_only hmay value),
    (Dev.emitCond_occurs hmay value).since hset (by simp) (by simp) (by decide) (by decide) (by decide) (Dev.chain_setCond ..), ?_⟩
  rw [Dev.cond_emitCond hmay, Dev.cond_setCond]
  rfl

/-! ### Pins (R175) -/

section
variable {d : Dev} {c stamp : Nat} {rising : Bool}

/-- The time of an edge on a condition's pin: its stamp less the pin's skew. -/
def Dev.edgeTime (d : Dev) (c stamp : Nat) : Nat := ((stamp : Int) - d.rd Ix.trgSkewTin (d.nI Ix.trgCondSrc c + 1) 0).toNat

theorem Dev.pinCond_edge (htype : d.nI Ix.trgCondType c = 0x20) (hwatch : watches (d.nI Ix.trgCondPolarity c) rising = true) :
    d.pinCond c stamp rising = d.emitCond c (d.edgeTime c stamp) 0 := by
  unfold Dev.pinCond
  dsimp only
  rw [if_pos htype, if_pos hwatch]
  rfl

theorem Dev.pinCond_leads (htype : d.nI Ix.trgCondType c = 0x21) (hlead : rising = (d.nI Ix.trgCondPolarity c == 0)) :
    d.pinCond c stamp rising = d.setCond c { d.cond c with edge := some stamp } := by
  unfold Dev.pinCond
  dsimp only
  rw [if_neg (by omega), if_pos hlead]

theorem Dev.pinCond_pulse (htype : d.nI Ix.trgCondType c = 0x21) (hlead : rising ≠ (d.nI Ix.trgCondPolarity c == 0)) {g : Nat}
    (hedge : (d.cond c).edge = some g) (htest : d.condTest c (toPs (stamp - g)) = true) :
    d.pinCond c stamp rising = (d.setCond c { d.cond c with edge := none }).emitCond c (d.edgeTime c stamp) (toPs (stamp - g)) := by
  unfold Dev.pinCond
  dsimp only
  rw [if_neg (by omega), if_neg hlead, hedge]
  exact if_pos htest

end

/-! ### The clauses of O23 -/

section
variable {t c : Nat} {s : State} {e : Dev} (he : e = s.dev.at t) (hc : c < 64) (hb : (e.cond c).before = none)
include he hc hb

section
variable {i w l : Nat} {p q : Sample} {x : CondSt} (hturn : e.condTurn c (i + 1) = true) (hseen : (e.cond c).seen = some i)
  (hp : e.condSample c i = some p) (hq : e.condSample c (i + 1) = some q)
  (hstep : (x, w) = levelStep (e.cond c) (e.rd Ix.trgCondLevelA (c + 1) 0) (e.rd Ix.trgCondLevelB (c + 1) 0) (e.nI Ix.trgCondHyst c) (e.condQty c q))
include hturn hseen hp hq hstep

theorem condEvent_crossing (htype : e.nI Ix.trgCondType c = 1)
    (hcross : (bitOf w 0 = true ∧ watches (e.nI Ix.trgCondPolarity c) true = true) ∨
      (bitOf w 1 = true ∧ watches (e.nI Ix.trgCondPolarity c) false = true))
    (hmay : e.mayEmit c (e.condTime c i (crossAt (e.rd Ix.trgCondLevelA (c + 1) 0) (e.condQty c p) (e.condQty c q)))) (rising : Bool) :
    Completes (.condEvent t c (i + 1) 0 rising) t s [.trg, .out, .ctr] (Ix.trgCondEvents :: eventPlaces) fun d =>
      e.occurs d c (e.condTime c i (crossAt (e.rd Ix.trgCondLevelA (c + 1) 0) (e.condQty c p) (e.condQty c q))) ∧
        (d.cond c).seen = some (i + 1) := by
  obtain ⟨v, y, hlevel, hclock⟩ := Dev.levelCond_crossing (s0 := e.condQty c p) hstep htype hcross
  obtain ⟨hframe, hoccurs, hcond⟩ := Dev.emitCond_examined hmay v hclock (i + 1)
  refine completes_condEvent_sample he hc hb (by omega) (by omega) hturn ?_ hframe ⟨hoccurs, by rw [hcond]⟩
  rw [Dev.condExamine_pair (Dev.timeoutDue_other (by omega)) hseen hp hq (by omega), hlevel]

theorem condEvent_pulse (htype : e.nI Ix.trgCondType c = 2) (hpol : e.nI Ix.trgCondPolarity c = 0) (hdown : bitOf w 1 = true)
    (hled : x.ledUp = some l)
    (htest : e.condTest c (256 * i + crossAt (e.rd Ix.trgCondLevelA (c + 1) 0) (e.condQty c p) (e.condQty c q) - l) = true)
    (hmay : e.mayEmit c (e.condTime c i (crossAt (e.rd Ix.trgCondLevelA (c + 1) 0) (e.condQty c p) (e.condQty c q)))) (rising : Bool) :
    Completes (.condEvent t c (i + 1) 0 rising) t s [.trg, .out, .ctr] (Ix.trgCondEvents :: eventPlaces) fun d =>
      e.occurs d c (e.condTime c i (crossAt (e.rd Ix.trgCondLevelA (c + 1) 0) (e.condQty c p) (e.condQty c q))) ∧ (d.cond c).ledUp = none := by
  obtain ⟨v, y, hlevel, hclock, hended⟩ := Dev.levelCond_pulse (s0 := e.condQty c p) hstep htype hpol hdown hled htest
  obtain ⟨hframe, hoccurs, hcond⟩ := Dev.emitCond_examined hmay v hclock (i + 1)
  refine completes_condEvent_sample he hc hb (by omega) (by omega) hturn ?_ hframe ⟨hoccurs, by rw [hcond]; exact hended⟩
  rw [Dev.condExamine_pair (Dev.timeoutDue_other (by omega)) hseen hp hq (by omega), hlevel]

end

section
variable {i : Nat} (hturn : e.condTurn c i = true)
include hturn

section
variable {q : Sample} (htype : e.nI Ix.trgCondType c = 6) (hlast : ∀ n ∈ (e.cond c).seen, n + 1 = i) (hq : e.condSample c i = some q)
include htype hlast hq

theorem condEvent_overRange (hovr : q.ovr ≠ 0) (hclean : 16 ≤ (e.cond c).clean) (hmay : e.mayEmit c (e.condTime c i 0)) (rising : Bool) :
    Completes (.condEvent t c i 0 rising) t s [.trg, .out, .ctr] (Ix.trgCondEvents :: eventPlaces) fun d =>
      e.occurs d c (e.condTime c i 0) ∧ (d.cond c).clean = 0 := by
  obtain ⟨v, hover⟩ := Dev.overCond_fires hovr hclean (i := i)
  obtain ⟨hframe, hoccurs, hcond⟩ := Dev.emitCond_examined hmay v (y := { (e.emitCond c (e.condTime c i 0) v).cond c with clean := 0 }) rfl i
  refine completes_condEvent_sample he hc hb (by omega) (by omega) hturn ?_ hframe ⟨hoccurs, by rw [hcond]⟩
  rw [Dev.condExamine_over htype hlast hq, hover]

theorem condEvent_inRange (hovr : q.ovr = 0) (rising : Bool) :
    Completes (.condEvent t c i 0 rising) t s [.trg] [] fun d =>
      d.cond c = { e.cond c with clean := min 16 ((e.cond c).clean + 1), seen := some i } := by
  refine completes_condEvent_sample he hc hb (by omega) (by omega) hturn ?_
    (Dev.changesOnly_step (e.setCond_only c { e.cond c with clean := min 16 ((e.cond c).clean + 1) }) (Dev.setCond_only ..)) (Dev.cond_setCond ..)
  rw [Dev.condExamine_over htype hlast hq, Dev.overCond_clean hovr, Dev.examined, Dev.cond_setCond]

end

theorem condEvent_missing (h1 : 1 ≤ e.nI Ix.trgCondType c) (h6 : e.nI Ix.trgCondType c ≤ 6) (hq : e.condSample c i = none)
    (hlimit : (e.cond c).limit = none) (rising : Bool) :
    Completes (.condEvent t c i 0 rising) t s [.trg] [] fun d =>
      d.cond c = { clock := (e.cond c).clock, again := (e.cond c).again, seen := some i } := by
  refine completes_condEvent_sample he hc hb h1 h6 hturn (Dev.condExamine_missing hlimit hq)
    (Dev.changesOnly_step (e.setCond_only c (condClear (e.cond c))) (Dev.examined_only ..)) ?_
  rw [Dev.cond_examined, Dev.cond_setCond, condClear, hb, hlimit]
  rfl

end

section
variable {stamp : Nat} {rising : Bool}
  (hstamp : (stamp, if rising then 0 else 1) ∈ ((e.im.sites.find? (0x10 + e.nI Ix.trgCondSrc c)).getD {}).recent)
  (hlast : ∀ n ∈ (e.cond c).seen, n < stamp)
include hstamp hlast

theorem condEvent_edge (htype : e.nI Ix.trgCondType c = 0x20) (hwatch : watches (e.nI Ix.trgCondPolarity c) rising = true)
    (hmay : e.mayEmit c (e.edgeTime c stamp)) :
    Completes (.condEvent t c stamp 0 rising) t s [.trg, .out, .ctr] (Ix.trgCondEvents :: eventPlaces) fun d =>
      e.occurs d c (e.edgeTime c stamp) := by
  obtain ⟨hframe, hoccurs, -⟩ := Dev.setCond_emitCond hmay (y := { e.cond c with seen := some stamp }) rfl rfl 0
  exact completes_condEvent_edge he hc hb (.inl htype) hstamp hlast (Dev.pinCond_edge htype hwatch) hframe hoccurs

theorem condEvent_edgeLeads (htype : e.nI Ix.trgCondType c = 0x21) (hlead : rising = (e.nI Ix.trgCondPolarity c == 0)) :
    Completes (.condEvent t c stamp 0 rising) t s [.trg] [] fun d => d.cond c = { e.cond c with edge := some stamp, seen := some stamp } := by
  refine completes_condEvent_edge he hc hb (.inr htype) hstamp hlast (Dev.pinCond_leads htype hlead)
    (Dev.changesOnly_step (e.examined_only c stamp) (Dev.setCond_only ..)) ?_
  rw [Dev.cond_setCond, Dev.cond_examined]

theorem condEvent_pinPulse (htype : e.nI Ix.trgCondType c = 0x21) (hlead : rising ≠ (e.nI Ix.trgCondPolarity c == 0)) {g : Nat}
    (hedge : (e.cond c).edge = some g) (htest : e.condTest c (toPs (stamp - g)) = true) (hmay : e.mayEmit c (e.edgeTime c stamp)) :
    Completes (.condEvent t c stamp 0 rising) t s [.trg, .out, .ctr] (Ix.trgCondEvents :: eventPlaces) fun d =>
      e.occurs d c (e.edgeTime c stamp) ∧ (d.cond c).edge = none := by
  have hset := e.examined_only c stamp
  have hcond := e.cond_examined c stamp
  have hmay' := hmay.before hset (by simp) (by decide) (by rw [hcond]) (by rw [hcond]) rfl
  obtain ⟨hframe, hoccurs, hend⟩ := Dev.setCond_emitCond hmay' (y := { (e.examined c stamp).cond c with edge := none }) rfl rfl (toPs (stamp - g))
  refine completes_condEvent_edge he hc hb (.inr htype) hstamp hlast
    (Dev.pinCond_pulse (d := e.examined c stamp) htype hlead (by rw [hcond]; exact hedge) htest) ?_ ⟨?_, congrArg CondSt.edge hend⟩
  · exact Dev.changesOnly_step (Dev.changesOnly_mono hset (by decide) (by decide)) hframe
  · exact hoccurs.since hset (by simp) (by simp) (by decide) (by decide) (by decide) (Dev.chain_setCond ..)

end

end

theorem condTimeoutExpiry_fires {t c n : Nat} {s : State} {e : Dev} {l : Nat × Nat} (he : e = s.dev.at t) (hc : c < 64)
    (hlimit : (e.cond c).limit = some l) (htype : e.nI Ix.trgCondType c = 4) (hseen : (e.cond c).seen = some n) (hpast : l.1 ≤ 256 * n)
    (hmay : e.mayEmit c l.2) :
    Completes (.condTimeoutExpiry t c) t s [.trg, .out, .ctr] (Ix.trgCondEvents :: eventPlaces) fun d =>
      e.occurs d c l.2 ∧ (d.cond c).limit = none := by
  subst he
  have hdue : ∃ v, (s.dev.at t).timeoutDue c = ((s.dev.at t).setCond c { (s.dev.at t).cond c with limit := none }).emitCond c l.2 v := by
    unfold Dev.timeoutDue
    dsimp only
    rw [hlimit]
    dsimp only
    rw [if_pos (by simp only [htype, hseen, Option.any_some, hpast, decide_true, Bool.and_self])]
    exact ⟨_, rfl⟩
  obtain ⟨v, hdue⟩ := hdue
  obtain ⟨hframe, hoccurs, hcond⟩ := Dev.setCond_emitCond hmay (y := { (s.dev.at t).cond c with limit := none }) rfl rfl v
  exact completes_of_runIf (exec_condTimeoutExpiry ..) (by simpa using hc) hdue hframe ⟨hoccurs, congrArg CondSt.limit hcond⟩

/-- Settles O23, clause by clause: a crossing, a pulse, an over-range sample and one in range, a missing sample; an edge on a pin, an edge that leads
a pulse and one that ends it; an expired timeout. -/
theorem timeDomainConditions : Obligations.TimeDomainConditions := by
  unfold Obligations.TimeDomainConditions
  refine ⟨?_, ?_, ?_, ?_, ?_, ?_, ?_, ?_, ?_⟩
  · intro t c i s e p q s0 s1 x w tm rising he hc hb htype hturn hseen hp hq hs0 hs1 hstep hcross htm hmay
    subst hs0 hs1 htm
    exact condEvent_crossing he hc hb hturn hseen hp hq hstep htype hcross hmay rising
  · intro t c i s e p q s0 s1 x w l k tm rising he hc hb htype hpol hturn hseen hp hq hs0 hs1 hstep hdown hled hk htest htm hmay
    subst hs0 hs1 hk htm
    exact condEvent_pulse he hc hb hturn hseen hp hq hstep htype hpol hdown hled htest hmay rising
  · intro t c i s e q rising he hc hb htype hturn hlast hq hovr hclean hmay
    exact condEvent_overRange he hc hb hturn htype hlast hq hovr hclean hmay rising
  · intro t c i s e q rising he hc hb htype hturn hlast hq hovr
    exact condEvent_inRange he hc hb hturn htype hlast hq hovr rising
  · intro t c i s e rising he hc hb h1 h6 hturn hq hlimit
    exact condEvent_missing he hc hb hturn h1 h6 hq hlimit rising
  · intro t c stamp rising s e tm he hc hb htype hstamp hlast hwatch htm hmay
    subst htm
    exact condEvent_edge he hc hb hstamp hlast htype hwatch hmay
  · intro t c stamp rising s e he hc hb htype hstamp hlast hlead
    exact condEvent_edgeLeads he hc hb hstamp hlast htype hlead
  · intro t c stamp rising s e g tm he hc hb htype hstamp hlast hlead hedge htest htm hmay
    subst htm
    exact condEvent_pinPulse he hc hb hstamp hlast htype hlead hedge htest hmay
  · intro t c s e l n he hc hlimit htype hseen hpast hmay
    exact condTimeoutExpiry_fires he hc hlimit htype hseen hpast hmay

end Sys2Proof.Machine
end

section
/-! PROOFS. A marked event at a chain (R182, R188): the refutation of O26. -/

namespace Sys2Proof.Machine

/-- Chain 0 counts two events of condition 0, which is off; one that a mask's stop has marked is due, and magazine 0 is armed on the chain. -/
def markedEventOfNoMask : State :=
  { State.reset with dev := {
      dict := ((((((State.reset.dev.wr Ix.trgChainStages 1 0 1).wr Ix.trgStageSet 1 0 1).wr Ix.trgStageMode 1 0 2).wr Ix.trgStageN 1 0 2).wr
        Ix.trgMagChain 0 0 0).wr Ix.trgMagState 0 0 2).dict
      trg := { chains := [(0, { queue := [{ cond := 0, time := 0, due := 0, disarms := true }] })], mags := [(0, { armed := true })] } } }

/-- Refutes O26: an event that a mask's stop has marked (R182) disarms the magazines of the chain whatever type its condition has by now, so that
`trg.mag_state` changes, which the clause on a chain that steps says reads as before. -/
theorem not_sequencerStepsFiresAndFaults : ¬ Obligations.SequencerStepsFiresAndFaults := by
  unfold Obligations.SequencerStepsFiresAndFaults
  rintro ⟨h, -⟩
  obtain ⟨⟨-, hsame⟩, -⟩ := (completes_run rfl).1 (h 0 0 markedEventOfNoMask _ _ { cond := 0, time := 0, due := 0, disarms := true }
    { times := [0] } rfl (by decide) rfl rfl (by decide +kernel) (by decide +kernel) (by decide +kernel) (by decide +kernel) (by decide +kernel))
  exact absurd (hsame Ix.trgMagState 0 0 (by decide)) (by decide +kernel)

end Sys2Proof.Machine
end

section
/-! PROOFS. Magazines: what their operations change and leave, and how a command reaches the magazine its path selects (R191 to R198). -/

namespace Sys2Proof.Machine

/-! ### What frames leave of magazines -/

section
variable {pl : List Part} {ps : List Nat} {d e : Dev} (h : d.changesOnly pl ps e)
include h

theorem Dev.changesOnly.nW {ix : Nat} (hix : ix ∉ ps) : e.nW ix = d.nW ix := funext fun _ => congrArg Int.toNat (h.rd _ _ hix)
theorem Dev.changesOnly.magState (hix : Ix.trgMagState ∉ ps) : e.magState = d.magState := h.nW hix
theorem Dev.changesOnly.mag (hp : Part.trg ∉ pl) : e.mag = d.mag := funext fun k => congrArg (fun x => x.mags.get {} k) (h.trg hp)
theorem Dev.changesOnly.cap (hp : Part.cap ∉ pl) : e.cap = d.cap := (h.1 .cap hp (by decide)).symm
theorem Dev.changesOnly.str (hp : Part.str ∉ pl) : e.str = d.str := (h.1 .str hp (by decide)).symm
theorem Dev.changesOnly.allocOf (hp : Part.cap ∉ pl) : e.allocOf = d.allocOf := funext fun kind => funext fun num => by
  rw [Dev.allocOf, Dev.allocOf, h.cap hp]
theorem Dev.changesOnly.inRushes (hix : Ix.modService ∉ ps) : e.inRushes = d.inRushes := by
  rw [Dev.inRushes, Dev.inRushes, Dev.service, Dev.service, h.n0 hix]
theorem Dev.changesOnly.magChans (hix : Ix.trgMagChan ∉ ps) : e.magChans = d.magChans := funext fun k => by
  simp only [Dev.magChans, h.rd _ _ hix]

/-- The first position of a magazine at or after an instant is a matter of its channels and of their sources' clocks (R20, R194). -/
theorem Dev.changesOnly.magAfter (hin : ∀ ix ∈ layerInputs, ix ∉ ps) (hchan : Ix.trgMagChan ∉ ps) (hitk : Part.itk ∉ pl) (hchn : Part.chn ∉ pl)
    (hstr : Part.str ∉ pl) : e.magAfter = d.magAfter := by
  have hclock : e.srcClock = d.srcClock := funext fun code => by
    rw [Dev.srcClock, Dev.srcClock, h.linkFs (hin Ix.itkFs (by decide)), h.link hitk, h.chn hchn, h.str hstr]
  have hafter : e.srcAfter = d.srcAfter := funext fun code => funext fun multiple => funext fun time => by
    rw [Dev.srcAfter, Dev.srcAfter, hclock, h.rawPer hin hchn]
  have hddc : e.ddcAfter = d.ddcAfter := funext fun n => funext fun time => by
    rw [Dev.ddcAfter, Dev.ddcAfter, hafter, h.nI (hin Ix.chnSrc (by decide)), h.nI (hin Ix.chnDepth (by decide))]
  have hsample : e.sampleAfter = d.sampleAfter := funext fun src => funext fun time => by
    simp only [Dev.sampleAfter, hclock, hddc, hafter, h.wideCode hin, h.nI (hin Ix.chnDepth (by decide))]
  funext k time
  rw [Dev.magAfter, Dev.magAfter, Dev.magSource, Dev.magSource, hsample, h.magChans hchan]

end

/-! ### A magazine, its state, its next slot -/

theorem Dev.mag_setMag (d : Dev) (k : Nat) (x : MagSt) : (d.setMag k x).mag k = x := Tab.get_set_same ..

theorem Dev.wW_only (d : Dev) (ix i v : Nat) : d.changesOnly [] [ix] (d.wW ix i v) := Dev.wr_only ..

theorem Dev.rd_wW_zero (d : Dev) (ix i : Nat) : (d.wW ix i 0).rd ix 0 i = 0 := by
  rw [Dev.wW, Dev.rd_wr, if_pos ⟨rfl, rfl, rfl⟩]
  exact normTy_zero _

theorem Dev.setMagState_only (d : Dev) (k v : Nat) : d.changesOnly [] [Ix.trgMagState] (d.setMagState k v) := Dev.wr_only ..

/-- A state of Table 7.10 is read back. -/
theorem Dev.rd_setMagState (d : Dev) (k : Nat) {v : Nat} (hv : v < 256) : (d.setMagState k v).rd Ix.trgMagState 0 k = v := by
  have htype : typeOf Ix.trgMagState 0 = 5 := by decide
  rw [Dev.setMagState, Dev.wW, Dev.rd_wr, if_pos ⟨rfl, rfl, rfl⟩, htype]
  exact normTy_nat (by decide) (by decide) (by simpa [typeBytes] using hv)

theorem Dev.nextSlot_only (d : Dev) (k : Nat) : d.changesOnly [] [Ix.trgTakeState] (d.nextSlot k) :=
  Dev.changesOnly_ite (fun _ => Dev.wr_only ..) fun _ => Dev.changesOnly_ite (fun _ => Dev.wr_only ..) fun _ => Dev.changesOnly_refl ..

/-! ### A magazine stops (R198) -/

/-- An on-die history is given back; in rushes service the magazine keeps its take memory. -/
def Dev.historyBack (d : Dev) (k : Nat) : Dev := if d.inRushes then d else d.w0 Ix.trgHistoryFree (d.n0 Ix.trgHistoryFree + (d.mag k).history)

theorem Dev.historyBack_only (d : Dev) (k : Nat) : d.changesOnly [] [Ix.trgHistoryFree] (d.historyBack k) :=
  Dev.changesOnly_ite (fun _ => Dev.changesOnly_refl ..) fun _ => Dev.wr_only ..

/-- A magazine that has stopped, with the take memory it keeps. -/
def MagSt.stops (x : MagSt) (kept : Nat) : MagSt := { x with armed := false, disarm := false, history := kept }

theorem Dev.magStop_eq (d : Dev) (k : Nat) :
    ∃ kept, d.magStop k = (((d.historyBack k).setMag k ((d.mag k).stops kept)).setMagState k 1).nextSlot k := by
  have heq : d.magStop k = (((d.historyBack k).setMag k (((d.historyBack k).mag k).stops
    (if (d.historyBack k).inRushes then (d.mag k).history else 0))).setMagState k 1).nextSlot k := rfl
  rw [(d.historyBack_only k).mag (by decide)] at heq
  exact ⟨_, heq⟩

theorem Dev.magStop_only (d : Dev) (k : Nat) : d.changesOnly [.trg] [Ix.trgHistoryFree, Ix.trgMagState, Ix.trgTakeState] (d.magStop k) := by
  obtain ⟨kept, heq⟩ := d.magStop_eq k
  rw [heq]
  exact Dev.changesOnly_mono (Dev.changesOnly_trans (Dev.changesOnly_trans (Dev.changesOnly_trans (d.historyBack_only k) (Dev.setMag_only ..))
    (Dev.setMagState_only ..)) (Dev.nextSlot_only ..)) (by decide) (by decide)

theorem Dev.mag_magStop (d : Dev) (k : Nat) : ∃ kept, (d.magStop k).mag k = (d.mag k).stops kept := by
  obtain ⟨kept, heq⟩ := d.magStop_eq k
  exact ⟨kept, by rw [heq, (Dev.nextSlot_only ..).mag (by decide), (Dev.setMagState_only ..).mag (by decide), Dev.mag_setMag]⟩

theorem Dev.rd_magStop (d : Dev) (k : Nat) : (d.magStop k).rd Ix.trgMagState 0 k = 1 := by
  obtain ⟨kept, heq⟩ := d.magStop_eq k
  rw [heq, (Dev.nextSlot_only ..).rd _ _ (by decide)]
  exact Dev.rd_setMagState _ _ (by decide)

/-! ### An open take leaves its post-trigger phase (R194 to R196) -/

/-- What closing a take may change besides the magazine. -/
def closeParts : List Part := .out :: codeParts
def closePlaces : List Nat := Ix.trgMagState :: Ix.trgTakeState :: (eventPlaces ++ codePlaces)

theorem Dev.magFull_only (d : Dev) (k time : Nat) : d.changesOnly closeParts closePlaces (d.magFull k time) := by
  unfold Dev.magFull
  refine Dev.changesOnly_ite (fun _ => ?_) fun _ => Dev.changesOnly_refl ..
  exact Dev.changesOnly_mono (Dev.changesOnly_trans (Dev.changesOnly_trans (d.setMagState_only k 4) (Dev.event_only ..)) (Dev.raise_only ..))
    (by decide) (by decide)

/-- A magazine that has closed a take: the take is its newest, and its next slot begins after it. -/
def MagSt.closes (x : MagSt) (tk : Take) (last : Nat) : MagSt :=
  { x with open_ := none, takes := x.takes ++ [tk], lastEnd := some last, slotStart := tk.stop, at_ := min x.at_ tk.stop }

section
variable {d : Dev} {k : Nat} {tk : Take} (h : (d.mag k).open_ = some tk)
include h

theorem Dev.closeOpen_rest :
    (d.setMag k ((d.mag k).closes tk (d.takeLast k tk))).changesOnly closeParts closePlaces (d.closeOpen k) := by
  unfold Dev.closeOpen
  dsimp only
  rw [h]
  refine Dev.changesOnly_step (Dev.changesOnly_step ?_ (Dev.magFull_only ..)) (Dev.changesOnly_mono (Dev.nextSlot_only ..) (by decide) (by decide))
  exact Dev.changesOnly_ite (fun _ => Dev.changesOnly_mono (Dev.setMagState_only ..) (by decide) (by decide)) fun _ => Dev.changesOnly_refl ..

theorem Dev.closeOpen_only : d.changesOnly (.trg :: closeParts) closePlaces (d.closeOpen k) :=
  Dev.changesOnly_mono (Dev.changesOnly_trans (Dev.setMag_only ..) (Dev.closeOpen_rest h)) (by decide) (by decide)

theorem Dev.mag_closeOpen : (d.closeOpen k).mag k = (d.mag k).closes tk (d.takeLast k tk) := by
  rw [(Dev.closeOpen_rest h).mag (by decide), Dev.mag_setMag]

end

/-! ### Takes are deleted, memory is released (R198, R260) -/

theorem Dev.magClearTakes_only (d : Dev) (k : Nat) : d.changesOnly [.trg] (Ix.trgMagTakes :: Ix.trgMagSeq :: takePlaces) (d.magClearTakes k) :=
  Dev.changesOnly_mono (Dev.changesOnly_trans (Dev.changesOnly_trans (Dev.changesOnly_trans
    (Dev.changesOnly_foldl (fun (a : Dev) tk => a.takeReport k tk 0 0) (fun a tk => Dev.takeReport_only a k tk 0 0) _ d) (Dev.setMag_only ..))
    (Dev.wr_only _ Ix.trgMagTakes 0 k 0)) (Dev.wr_only _ Ix.trgMagSeq 0 k 0)) (by decide) (by decide)

theorem Dev.magClearTakes_cleared (d : Dev) (k : Nat) : ((d.magClearTakes k).mag k).takes = [] ∧ (d.magClearTakes k).rd Ix.trgMagTakes 0 k = 0 ∧
    (d.magClearTakes k).rd Ix.trgMagSeq 0 k = 0 := by
  unfold Dev.magClearTakes
  dsimp only
  refine ⟨?_, ?_, Dev.rd_wW_zero ..⟩
  · rw [(Dev.wW_only ..).mag (by decide), (Dev.wW_only ..).mag (by decide), Dev.mag_setMag]
  · rw [(Dev.wW_only ..).rd _ _ (by decide), Dev.rd_wW_zero]

theorem Dev.release_allocs (d : Dev) (kind num : Nat) :
    (d.release kind num).cap.allocs = d.cap.allocs.filter (fun a => !(a.kind == kind && a.num == num)) := rfl

/-- A released owner holds nothing. -/
theorem Dev.allocOf_release (d : Dev) (kind num : Nat) : (d.release kind num).allocOf kind num = none := by
  rw [Dev.allocOf, Dev.release_allocs, List.find?_eq_none]
  intro a ha
  simpa only [Bool.not_eq_true', Bool.not_eq_true] using (List.mem_filter.1 ha).2

/-- A release gives nothing to an owner that holds nothing. -/
theorem Dev.allocOf_release_none {d : Dev} {kind num : Nat} (h : d.allocOf kind num = none) (kind' num' : Nat) :
    (d.release kind' num').allocOf kind num = none := by
  rw [Dev.allocOf, Dev.release_allocs, List.find?_eq_none]
  exact fun a ha => List.find?_eq_none.1 h a (List.mem_filter.1 ha).1

end Sys2Proof.Machine
end

section
/-! PROOFS. The magazine commands: arm, disarm, free, forced trigger, clear, the release of a magazine's memory (R192 to R198). -/

namespace Sys2Proof.Machine

theorem exec_magArm (t path : Nat) (s : State) : exec (.magArm t path) s = execMagArm t path s := rfl
theorem exec_magDisarm (t path : Nat) (s : State) : exec (.magDisarm t path) s = execMagDisarm t path s := rfl
theorem exec_magFree (t path : Nat) (s : State) : exec (.magFree t path) s = execMagFree t path s := rfl
theorem exec_magFreeRelease (t k : Nat) (s : State) : exec (.magFreeRelease t k) s = execMagFreeRelease t k s := rfl
theorem exec_magForceTrigger (t path : Nat) (s : State) : exec (.magForceTrigger t path) s = execMagForceTrigger t path s := rfl
theorem exec_magClear (t path : Nat) (s : State) : exec (.magClear t path) s = execMagClear t path s := rfl

/-! ### What taking a request leaves of magazines -/

/-- Taking a request changes the Supervisor's part and the idle time alone. -/
theorem Dev.accept_eq (d : Dev) (path ix sub : Nat) :
    d.accept path ix sub = { d with sup := (d.accept path ix sub).sup, pwr := (d.accept path ix sub).pwr } := by
  unfold Dev.accept Dev.markWrite
  split <;> rfl

section
variable (d : Dev) (path ix sub k : Nat)

theorem Dev.mag_accept : (d.accept path ix sub).mag = d.mag := (d.accept_only ..).mag (by decide)
theorem Dev.magState_accept : (d.accept path ix sub).magState = d.magState := (d.accept_only ..).magState (by simp)
theorem Dev.takeLast_accept : (d.accept path ix sub).takeLast = d.takeLast := by rw [Dev.accept_eq]; rfl
theorem Dev.magAfter_accept : (d.accept path ix sub).magAfter = d.magAfter := by rw [Dev.accept_eq]; rfl
theorem Dev.magK_accept : (d.accept path ix sub).magK = d.magK := by rw [Dev.accept_eq]; rfl
theorem Dev.nextBoundary_accept :
    (d.accept path ix sub).trgBoundary ((d.accept path ix sub).time96 + 1) = d.trgBoundary (d.time96 + 1) :=
  (d.accept_only ..).nextBoundary (by decide) (by decide) (by simp)

end

/-! ### A command on a path (R198) -/

section
variable {t path k : Nat} {s : State} {e : Dev} (he : e = s.dev.at t) (hr : e.reaches path Ix.trgMagCmd) (hk : k = e.nW Ix.trgMagSel path)
include he hr hk

/-- A magazine command completes as its effect on the magazine that its path selects. -/
theorem completes_magCommand {i : Instr} {v : Nat} {f : Dev → Nat → Dev} {x : Dev} {pl ql : List Part} {ps qs : List Nat} {post : Dev → Prop}
    (h : exec i s = run t s fun d => d.magCommand path v f) (hx : f (e.accept path Ix.trgMagCmd 0) k = x)
    (hf : (e.accept path Ix.trgMagCmd 0).changesOnly pl ps x) (hp : ∀ d, x.changesOnly [.ctr] [Ix.dictRequests] d → post d)
    (hpl : ∀ p ∈ pl ++ requestParts, p ∈ ql := by decide) (hps : ∀ y ∈ ps ++ requestPlaces, y ∈ qs := by decide) : Completes i t s ql qs post := by
  subst he
  refine completes_command (f := fun d => f d (d.nW Ix.trgMagSel path)) h hr ?_ hf (hp _ (Dev.served_only ..)) hpl hps
  rw [((s.dev.at t).accept_only path Ix.trgMagCmd 0).nW (by simp), ← hk, hx]

/-- A magazine command in a wrong state is refused. -/
theorem completes_magRefused {i : Instr} {v : Nat} {f : Dev → Nat → Dev} (h : exec i s = run t s fun d => d.magCommand path v f)
    (hpath : 1 ≤ path ∧ path ≤ 4)
    (hx : f (e.accept path Ix.trgMagCmd 0) k = (e.accept path Ix.trgMagCmd 0).refuse path Ix.trgMagCmd 0 Code.magState) :
    Completes i t s requestParts requestPlaces fun d => d.reports path Code.magState ∧ d.trg = e.trg := by
  subst he
  refine (completes_refused (ix' := Ix.trgMagCmd) (sub' := 0) (f := fun d => f d (d.nW Ix.trgMagSel path)) h hr hpath ?_).trg (by decide)
  rw [((s.dev.at t).accept_only path Ix.trgMagCmd 0).nW (by simp), ← hk, hx]

/-! ### Disarm -/

theorem magDisarm_stops (hst : e.magState k = 2 ∨ e.magState k = 4) (hopen : (e.mag k).open_ = none) :
    Completes (.magDisarm t path) t s (.trg :: requestParts) (Ix.trgHistoryFree :: Ix.trgMagState :: Ix.trgTakeState :: requestPlaces) fun d =>
      d.rd Ix.trgMagState 0 k = 1 ∧ (d.mag k).armed = false ∧ (d.mag k).takes = (e.mag k).takes := by
  refine completes_magCommand he hr hk (exec_magDisarm ..) (x := (e.accept path Ix.trgMagCmd 0).magStop k) ?_ (Dev.magStop_only ..) fun d hd => ?_
  · dsimp only
    rw [Dev.magState_accept, Dev.mag_accept, hopen]
    exact if_pos (by rcases hst with h | h <;> rw [h] <;> rfl)
  · obtain ⟨kept, hstop⟩ := (e.accept path Ix.trgMagCmd 0).mag_magStop k
    rw [hd.rd _ _ (by decide), hd.mag (by decide), hstop, Dev.mag_accept]
    exact ⟨Dev.rd_magStop .., rfl, rfl⟩

/-- A take that closes at a boundary ends with the last position before it, though no earlier than its first. -/
def Dev.takeCut (d : Dev) (k : Nat) (tk : Take) : Take :=
  { tk with cutAt := some (max (d.magAfter k (d.trgBoundary (d.time96 + 1))) (tk.trig - tk.valid)) }

theorem magDisarm_closes {tk : Take} (hst : e.magState k = 3) (hopen : (e.mag k).open_ = some tk)
    (hlast : e.trgBoundary (e.time96 + 1) < e.takeLast k tk) :
    Completes (.magDisarm t path) t s (.trg :: .out :: requestParts)
      (Ix.trgHistoryFree :: Ix.trgMagState :: Ix.trgTakeState :: (eventPlaces ++ requestPlaces)) fun d =>
      d.rd Ix.trgMagState 0 k = 1 ∧ (d.mag k).armed = false ∧ (d.mag k).open_ = none ∧ (d.mag k).takes = (e.mag k).takes ++ [e.takeCut k tk] := by
  have hset := (e.accept path Ix.trgMagCmd 0).setMag_only k { e.mag k with open_ := some (e.takeCut k tk) }
  have hcut := Dev.mag_setMag (e.accept path Ix.trgMagCmd 0) k { e.mag k with open_ := some (e.takeCut k tk) }
  have hopened := congrArg MagSt.open_ hcut
  refine completes_magCommand he hr hk (exec_magDisarm ..)
    (x := (((e.accept path Ix.trgMagCmd 0).setMag k { e.mag k with open_ := some (e.takeCut k tk) }).closeOpen k).magStop k) ?_
    (Dev.changesOnly_trans (Dev.changesOnly_trans hset (Dev.closeOpen_only hopened)) (Dev.magStop_only ..)) fun d hd => ?_
  · dsimp only
    rw [Dev.magState_accept, Dev.mag_accept, hopen, hst]
    dsimp only
    rw [Dev.nextBoundary_accept, Dev.takeLast_accept, Dev.magAfter_accept]
    exact (if_pos rfl).trans (if_neg (by omega))
  · obtain ⟨kept, hstop⟩ := Dev.mag_magStop (((e.accept path Ix.trgMagCmd 0).setMag k { e.mag k with open_ := some (e.takeCut k tk) }).closeOpen k) k
    rw [hd.rd _ _ (by decide), hd.mag (by decide), hstop, Dev.mag_closeOpen hopened, hcut]
    exact ⟨Dev.rd_magStop .., rfl, rfl, rfl⟩

/-! ### Free -/

theorem magFree_frees (hst : e.magState k = 1 ∨ e.magState k = 4) :
    Completes (.magFree t path) t s (.trg :: requestParts) (Ix.trgHistoryFree :: Ix.trgMagState :: Ix.trgTakeState :: requestPlaces) fun d =>
      d.rd Ix.trgMagState 0 k = 5 ∧ (d.mag k).takes = (e.mag k).takes := by
  refine completes_magCommand he hr hk (exec_magFree ..) (x := ((e.accept path Ix.trgMagCmd 0).magStop k).setMagState k 5) ?_
    (Dev.changesOnly_trans (Dev.magStop_only ..) (Dev.setMagState_only ..)) fun d hd => ?_
  · rw [Dev.magState_accept]
    exact if_pos (by rcases hst with h | h <;> rw [h] <;> rfl)
  · obtain ⟨kept, hstop⟩ := (e.accept path Ix.trgMagCmd 0).mag_magStop k
    rw [hd.rd _ _ (by decide), hd.mag (by decide), (Dev.setMagState_only ..).mag (by decide), hstop, Dev.mag_accept]
    exact ⟨Dev.rd_setMagState _ _ (by decide), rfl⟩

theorem magFree_refused (hpath : 1 ≤ path ∧ path ≤ 4) (hst : e.magState k = 0 ∨ e.magState k = 2 ∨ e.magState k = 3) :
    Completes (.magFree t path) t s requestParts requestPlaces fun d => d.reports path Code.magState ∧ d.trg = e.trg := by
  refine completes_magRefused he hr hk (exec_magFree ..) hpath ?_
  rw [Dev.magState_accept]
  exact if_neg (by rcases hst with h | h | h <;> rw [h] <;> decide)

/-! ### Clear -/

theorem magClear_clears (hst : e.magState k = 1 ∨ e.magState k = 4) :
    Completes (.magClear t path) t s (.trg :: requestParts)
      (Ix.trgMagTakes :: Ix.trgMagSeq :: Ix.trgMagState :: (takePlaces ++ requestPlaces)) fun d =>
      (d.mag k).takes = [] ∧ d.rd Ix.trgMagTakes 0 k = 0 ∧ d.rd Ix.trgMagSeq 0 k = 0 ∧ d.nW Ix.trgMagState k = (if e.magState k = 4 then 2 else 1) := by
  obtain ⟨htakes, hcount, hseq⟩ := (e.accept path Ix.trgMagCmd 0).magClearTakes_cleared k
  rcases hst with hst | hst
  · have hclear := (e.accept path Ix.trgMagCmd 0).magClearTakes_only k
    refine completes_magCommand he hr hk (exec_magClear ..) ?_ hclear fun d hd => ?_
    · rw [Dev.magState_accept]
      exact if_pos hst
    · rw [hd.mag (by decide), hd.rd _ _ (by decide), hd.rd _ _ (by decide), hd.nW (by decide), hclear.nW (by decide), if_neg (by omega)]
      exact ⟨htakes, hcount, hseq, (congrFun (Dev.magState_accept ..) k).trans hst⟩
  · have hslot := (((e.accept path Ix.trgMagCmd 0).magClearTakes k).setMagState k 2).nextSlot_only k
    have hset := ((e.accept path Ix.trgMagCmd 0).magClearTakes k).setMagState_only k 2
    refine completes_magCommand he hr hk (exec_magClear ..) ?_
      (Dev.changesOnly_trans (Dev.changesOnly_trans (Dev.magClearTakes_only ..) hset) hslot) fun d hd => ?_
    · rw [Dev.magState_accept, if_neg (by omega)]
      exact if_pos hst
    · rw [hd.mag (by decide), hslot.mag (by decide), hset.mag (by decide), hd.rd _ _ (by decide), hslot.rd _ _ (by decide), hset.rd _ _ (by decide),
        hd.rd _ _ (by decide), hslot.rd _ _ (by decide), hset.rd _ _ (by decide), hd.nW (by decide), hslot.nW (by decide), if_pos hst]
      exact ⟨htakes, hcount, hseq, congrArg Int.toNat (Dev.rd_setMagState _ _ (by decide))⟩

/-! ### Forced trigger -/

theorem magForceTrigger_refused (hpath : 1 ≤ path ∧ path ≤ 4) (hst : e.magState k ≠ 2) (hopen : (e.mag k).open_ = none) :
    Completes (.magForceTrigger t path) t s requestParts requestPlaces fun d => d.reports path Code.magState ∧ d.trg = e.trg := by
  refine completes_magRefused he hr hk (exec_magForceTrigger ..) hpath ?_
  dsimp only
  rw [Dev.mag_accept, hopen]
  dsimp only
  rw [Dev.magState_accept]
  exact if_neg hst

end

section
variable {d : Dev} {k chain time cond : Nat} {forced : Bool}

/-- A fire at an armed magazine that neither has a take open nor has closed one within 64 ns opens a take. -/
theorem Dev.fireMag_opens (hopen : (d.mag k).open_ = none) (harmed : (d.mag k).armed = true) (hat : (d.mag k).armAt ≤ time) (hst : d.magState k ≠ 4)
    (hlast : ∀ l, (d.mag k).lastEnd = some l → l + ns 64 ≤ time) : d.fireMag k chain time cond forced = d.openTake k chain time cond forced := by
  have hearly : ¬ ((!(d.mag k).armed || decide (time < (d.mag k).armAt)) = true) := by simp [harmed, hat]
  unfold Dev.fireMag
  dsimp only
  rw [if_neg hearly, hopen]
  dsimp only
  rw [hopen, if_neg (by simp), if_neg hst, if_neg]
  cases h : (d.mag k).lastEnd with
  | none => simp
  | some l => simpa using hlast l h

/-- The take that a fire opens. -/
def Dev.newTake (d : Dev) (k chain time cond : Nat) (forced : Bool) : Take :=
  { index := (d.mag k).next, seq := d.nW Ix.trgMagSeq k, chain := chain, cond := cond, forced := forced, time := time, trig := d.magAfter k time,
    start := (d.mag k).slotStart, pre := d.magP k, valid := min (d.magP k) (d.magAfter k time - (d.mag k).slotStart), post := d.magQ k }

/-- A magazine with a take open: its own state, the sequence counted, and the take reported in its post-trigger phase. -/
def Dev.inTake (d : Dev) (k : Nat) (x : MagSt) (tk : Take) : Dev := (((d.setMag k x).incW Ix.trgMagSeq k).setMagState k 3).takeReport k tk 2 0

theorem Dev.inTake_rest (d : Dev) (k : Nat) (x : MagSt) (tk : Take) :
    (d.setMag k x).changesOnly [.ctr] (Ix.trgMagSeq :: Ix.trgMagState :: takePlaces) (d.inTake k x tk) :=
  Dev.changesOnly_trans (Dev.changesOnly_trans (Dev.inc_only ..) (Dev.setMagState_only ..)) (Dev.takeReport_only ..)

theorem Dev.inTake_only (d : Dev) (k : Nat) (x : MagSt) (tk : Take) :
    d.changesOnly [.trg, .ctr] (Ix.trgMagSeq :: Ix.trgMagState :: takePlaces) (d.inTake k x tk) :=
  Dev.changesOnly_trans (d.setMag_only k x) (d.inTake_rest k x tk)

theorem Dev.mag_inTake (d : Dev) (k : Nat) (x : MagSt) (tk : Take) : (d.inTake k x tk).mag k = x := by
  rw [(d.inTake_rest k x tk).mag (by decide), Dev.mag_setMag]

theorem Dev.rd_inTake (d : Dev) (k : Nat) (x : MagSt) (tk : Take) : (d.inTake k x tk).rd Ix.trgMagState 0 k = 3 := by
  rw [Dev.inTake, (Dev.takeReport_only ..).rd _ _ (by decide)]
  exact Dev.rd_setMagState _ _ (by decide)

theorem Dev.inTake_counted (d : Dev) (k : Nat) (x : MagSt) (tk : Take) : d.counted (d.inTake k x tk) Ix.trgMagSeq 0 k 1 :=
  (((d.setMag_only k x).counted (by simp) (Dev.inc_counted ..)).after (Dev.setMagState_only ..) (by decide)).after (Dev.takeReport_only ..) (by decide)

/-- With a slot free, a take opens beside those the magazine holds. -/
theorem Dev.openTake_eq (hroom : (d.mag k).takes.length < d.magK k) : ∃ next, d.openTake k chain time cond forced =
    d.inTake k { d.mag k with open_ := some (d.newTake k chain time cond forced), next := next } (d.newTake k chain time cond forced) := by
  have hfull : ¬ d.magK k ≤ (d.mag k).takes.length := by omega
  unfold Dev.openTake
  dsimp only
  simp only [hfull, decide_false, Bool.false_and, Bool.false_eq_true, if_false]
  exact ⟨_, rfl⟩

end

theorem magForceTrigger_opens {t path k : Nat} {s : State} {e : Dev} (he : e = s.dev.at t) (hr : e.reaches path Ix.trgMagCmd)
    (hk : k = e.nW Ix.trgMagSel path) (hst : e.magState k = 2) (hopen : (e.mag k).open_ = none) (harmed : (e.mag k).armed = true)
    (hat : (e.mag k).armAt ≤ e.trgBoundary (e.time96 + 1))
    (hlast : ∀ l, (e.mag k).lastEnd = some l → l + ns 64 ≤ e.trgBoundary (e.time96 + 1)) (hroom : (e.mag k).takes.length < e.magK k) :
    Completes (.magForceTrigger t path) t s (.trg :: requestParts) (Ix.trgMagSeq :: Ix.trgMagState :: (takePlaces ++ requestPlaces)) fun d =>
      d.rd Ix.trgMagState 0 k = 3 ∧ e.counted d Ix.trgMagSeq 0 k 1 ∧
        (d.mag k).open_ = some (e.newTake k (e.nW Ix.trgMagChain k) (e.trgBoundary (e.time96 + 1)) 0xFF true) := by
  have haccept := e.accept_only path Ix.trgMagCmd 0
  have hnew : (e.accept path Ix.trgMagCmd 0).newTake = e.newTake := by rw [Dev.accept_eq]; rfl
  obtain ⟨next, hopened⟩ := Dev.openTake_eq (d := e.accept path Ix.trgMagCmd 0) (chain := e.nW Ix.trgMagChain k)
    (time := e.trgBoundary (e.time96 + 1)) (cond := 0xFF) (forced := true) (by rwa [Dev.mag_accept, Dev.magK_accept])
  refine completes_magCommand he hr hk (exec_magForceTrigger ..) (Eq.trans ?_ hopened) (Dev.inTake_only ..) fun d hd => ⟨?_, ?_, ?_⟩
  · dsimp only
    rw [Dev.nextBoundary_accept, Dev.mag_accept, hopen]
    dsimp only
    rw [Dev.magState_accept, if_pos hst, haccept.nW (by simp)]
    exact Dev.fireMag_opens (by rwa [Dev.mag_accept]) (by rwa [Dev.mag_accept]) (by rwa [Dev.mag_accept]) (by rw [Dev.magState_accept]; omega)
      (by rwa [Dev.mag_accept])
  · exact (hd.rd _ _ (by decide)).trans (Dev.rd_inTake ..)
  · exact (haccept.counted (by simp) (Dev.inTake_counted ..)).after hd (by decide)
  · rw [hd.mag (by decide), Dev.mag_inTake, hnew]

/-! ### The release of a freed magazine (R198, R260) -/

/-- A magazine's takes are deleted and its capture memory released. -/
def Dev.magReleased (d : Dev) (k : Nat) : Dev := ((d.magClearTakes k).release 2 k).release 3 k

/-- What it had of the history's memory is given back too. -/
def Dev.magVacated (d : Dev) (k : Nat) : Dev :=
  (d.magReleased k).w0 Ix.trgHistoryFree ((d.magReleased k).n0 Ix.trgHistoryFree + ((d.magReleased k).mag k).history)

theorem Dev.magReleased_only (d : Dev) (k : Nat) :
    d.changesOnly [.trg, .cap] (Ix.trgMagTakes :: Ix.trgMagSeq :: Ix.capFree :: takePlaces) (d.magReleased k) :=
  Dev.changesOnly_mono (Dev.changesOnly_trans (Dev.changesOnly_trans (Dev.magClearTakes_only ..) (Dev.release_only ..)) (Dev.release_only ..))
    (by decide) (by decide)

theorem Dev.magVacated_back (d : Dev) (k : Nat) : (d.magReleased k).changesOnly [] [Ix.trgHistoryFree] (d.magVacated k) := Dev.wr_only ..

theorem Dev.magVacated_only (d : Dev) (k : Nat) :
    d.changesOnly [.trg, .cap] (Ix.trgMagTakes :: Ix.trgMagSeq :: Ix.capFree :: Ix.trgHistoryFree :: takePlaces) (d.magVacated k) :=
  Dev.changesOnly_mono (Dev.changesOnly_trans (d.magReleased_only k) (d.magVacated_back k)) (by decide) (by decide)

theorem Dev.magVacated_vacant (d : Dev) (k : Nat) : (d.magVacated k).allocOf 2 k = none ∧ (d.magVacated k).allocOf 3 k = none ∧
    (d.magVacated k).rd Ix.trgMagTakes 0 k = 0 := by
  have hback := d.magVacated_back k
  rw [hback.allocOf (by decide), hback.rd _ _ (by decide)]
  refine ⟨Dev.allocOf_release_none (Dev.allocOf_release ..) 3 k, Dev.allocOf_release .., ?_⟩
  rw [Dev.magReleased, (Dev.release_only ..).rd _ _ (by decide), (Dev.release_only ..).rd _ _ (by decide)]
  exact (d.magClearTakes_cleared k).2.1

/-- A magazine that holds nothing any more: its entries of memory read 0, and it is idle, or free without a channel. -/
def Dev.magForgotten (d : Dev) (k : Nat) : Dev :=
  let a := (((((d.setMag k {}).wW Ix.trgMagBase k 0).wW Ix.trgMagLogBase k 0).wW Ix.trgMagCapacity k 0).wW Ix.trgMagSlotBytes k 0).wW
    Ix.trgMagHistoryBytes k 0
  a.setMagState k (if (a.magChans k).isEmpty then 0 else 1)

def forgottenPlaces : List Nat :=
  [Ix.trgMagBase, Ix.trgMagLogBase, Ix.trgMagCapacity, Ix.trgMagSlotBytes, Ix.trgMagHistoryBytes]

theorem Dev.magForgotten_eq (d : Dev) (k : Nat) : ∃ a : Dev, (d.setMag k {}).changesOnly [] forgottenPlaces a ∧
    d.magForgotten k = a.setMagState k (if (a.magChans k).isEmpty then 0 else 1) :=
  ⟨_, Dev.changesOnly_trans (Dev.changesOnly_trans (Dev.changesOnly_trans (Dev.changesOnly_trans (Dev.wW_only _ Ix.trgMagBase k 0)
    (Dev.wW_only _ Ix.trgMagLogBase k 0)) (Dev.wW_only _ Ix.trgMagCapacity k 0)) (Dev.wW_only _ Ix.trgMagSlotBytes k 0))
    (Dev.wW_only _ Ix.trgMagHistoryBytes k 0), rfl⟩

theorem Dev.magForgotten_only (d : Dev) (k : Nat) : d.changesOnly [.trg] (Ix.trgMagState :: forgottenPlaces) (d.magForgotten k) := by
  obtain ⟨a, ha, heq⟩ := d.magForgotten_eq k
  rw [heq]
  exact Dev.changesOnly_mono (Dev.changesOnly_trans (Dev.changesOnly_trans (d.setMag_only k {}) ha) (Dev.setMagState_only ..)) (by decide) (by decide)

theorem Dev.mag_magForgotten (d : Dev) (k : Nat) : (d.magForgotten k).mag k = {} := by
  obtain ⟨a, ha, heq⟩ := d.magForgotten_eq k
  rw [heq, (Dev.setMagState_only ..).mag (by decide), ha.mag (by decide), Dev.mag_setMag]

theorem Dev.rd_magForgotten (d : Dev) (k : Nat) : (d.magForgotten k).rd Ix.trgMagState 0 k = if d.magChans k = [] then 0 else 1 := by
  obtain ⟨a, ha, heq⟩ := d.magForgotten_eq k
  have hchans : a.magChans k = d.magChans k := congrFun (ha.magChans (by decide)) k
  rw [heq, hchans]
  by_cases h : d.magChans k = []
  · rw [if_pos h, if_pos (by rw [h]; rfl)]
    exact Dev.rd_setMagState _ _ (by decide)
  · rw [if_neg h, if_neg (by simpa using h)]
    exact Dev.rd_setMagState _ _ (by decide)

theorem magFreeRelease_releases {t k : Nat} {s : State} {e : Dev} (he : e = s.dev.at t) (hk : k < 256) (hst : e.magState k = 5) :
    Completes (.magFreeRelease t k) t s [.trg, .cap] (Ix.trgMagTakes :: Ix.trgMagSeq :: Ix.capFree :: Ix.trgHistoryFree :: Ix.trgMagBase ::
      Ix.trgMagLogBase :: Ix.trgMagCapacity :: Ix.trgMagSlotBytes :: Ix.trgMagHistoryBytes :: Ix.trgMagState :: takePlaces) fun d =>
      d.allocOf 2 k = none ∧ d.allocOf 3 k = none ∧ d.mag k = {} ∧ d.rd Ix.trgMagTakes 0 k = 0 ∧
        d.rd Ix.trgMagState 0 k = (if e.magChans k = [] then 0 else 1) := by
  subst he
  have hvacated := (s.dev.at t).magVacated_only k
  have hforgotten := ((s.dev.at t).magVacated k).magForgotten_only k
  obtain ⟨hdata, hlog, htakes⟩ := (s.dev.at t).magVacated_vacant k
  refine completes_of_runIf (x := ((s.dev.at t).magVacated k).magForgotten k) (exec_magFreeRelease ..) (by simpa using hk) (if_pos hst)
    (Dev.changesOnly_mono (Dev.changesOnly_trans hvacated hforgotten) (by decide) (by decide)) ⟨?_, ?_, Dev.mag_magForgotten .., ?_, ?_⟩
  · rw [hforgotten.allocOf (by decide), hdata]
  · rw [hforgotten.allocOf (by decide), hlog]
  · rw [hforgotten.rd _ _ (by decide), htakes]
  · rw [Dev.rd_magForgotten, hvacated.magChans (by decide)]

end Sys2Proof.Machine
end

section
/-! PROOFS. A take that is complete: what it writes to capture memory, what it reports, and its record on the way to its ring; an uncorrectable word of
a history (R194, R199 to R202, R206). -/

namespace Sys2Proof.Machine

theorem exec_takeComplete (t k take : Nat) (s : State) : exec (.takeComplete t k take) s = execTakeComplete t k take s := rfl
theorem exec_takeMemoryError (t k first count : Nat) (s : State) :
    exec (.takeMemoryError t k first count) s = execTakeMemoryError t k first count s := rfl

/-! ### Capture memory within an owner's allocation -/

theorem Mem.sameOutside_refl (inside : Nat → Prop) (m : Mem) : Mem.sameOutside inside m m := fun _ _ => rfl

theorem Mem.sameOutside_trans {inside : Nat → Prop} {m m' m'' : Mem} (h : Mem.sameOutside inside m m') (h' : Mem.sameOutside inside m' m'') :
    Mem.sameOutside inside m m'' := fun a ha => (h' a ha).trans (h a ha)

/-- A run of writes that each stay inside stays inside. -/
theorem Mem.sameOutside_foldl {β : Type} {inside : Nat → Prop} (f : Mem → β → Mem) (h : ∀ m x, Mem.sameOutside inside m (f m x)) (l : List β) (m : Mem) :
    Mem.sameOutside inside m (l.foldl f m) :=
  List.foldlRecOn l f (motive := fun r => Mem.sameOutside inside m r) (Mem.sameOutside_refl _ _) fun r hr x _ => Mem.sameOutside_trans hr (h r x)

/-- What is written into an owner's allocation leaves every byte that is not the owner's. -/
theorem Dev.writeAlloc_sameOutside {d : Dev} {kind num : Nat} {a : Alloc} (h : d.allocOf kind num = some a) (o : Nat) (bytes : List Byte) (m : Mem) :
    Mem.sameOutside (d.owns kind num) m (d.writeAlloc a o bytes m) := fun _ hx =>
  memRead_writeAt_other _ _ _ _ _ fun j _ hmem => hx ⟨a, h, o + j, hmem⟩

theorem Dev.takeZeros_sameOutside (d : Dev) (k : Nat) (tk : Take) (m : Mem) : Mem.sameOutside (d.owns 2 k) m (d.takeZeros k tk m) := by
  unfold Dev.takeZeros
  split
  · exact Mem.sameOutside_refl _ _
  · next a ha =>
    refine Mem.sameOutside_foldl _ (fun m p => Mem.sameOutside_foldl _ (fun m s => ?_) _ m) _ m
    split
    · exact Dev.writeAlloc_sameOutside ha _ _ _
    · exact Mem.sameOutside_refl _ _

/-! ### What a complete take reports (Table 7.10, R199) -/

theorem Dev.event_arrived (d : Dev) (isl tag kind obj time a b : Nat) : (d.event isl tag kind obj time a b).out.arrived = d.out.arrived := by
  rw [Dev.event, Dev.emit_out_arrived]
  rfl

/-- A take's state is read back in its window. -/
theorem Dev.rd_takeReport (d : Dev) (k : Nat) (tk : Take) {state : Nat} (hs : state < 256) (bytes : Nat) :
    (d.takeReport k tk state bytes).rd Ix.trgTakeState 0 (k * 2 ^ 20 + tk.index) = state := by
  have hstate : ∀ a : Dev, (a.wW Ix.trgTakeState (k * 2 ^ 20 + tk.index) state).rd Ix.trgTakeState 0 (k * 2 ^ 20 + tk.index) = state := fun a => by
    have htype : typeOf Ix.trgTakeState 0 = 5 := by decide
    rw [Dev.wW, Dev.rd_wr, if_pos ⟨rfl, rfl, rfl⟩, htype]
    exact normTy_nat (by decide) (by decide) (by simpa [typeBytes] using hs)
  have hother : ∀ (a : Dev) {ix : Nat} (i v : Nat), Ix.trgTakeState ∉ [ix] → (a.wW ix i v).rd Ix.trgTakeState 0 (k * 2 ^ 20 + tk.index) =
      a.rd Ix.trgTakeState 0 (k * 2 ^ 20 + tk.index) := fun a _ i v h => (a.wW_only _ i v).rd _ _ h
  have hbase : ∀ sec frac valid, (((((d.wW Ix.trgTakeState (k * 2 ^ 20 + tk.index) state).wW Ix.trgTakeTrigSec (k * 2 ^ 20 + tk.index) sec).wW
      Ix.trgTakeTrigFrac (k * 2 ^ 20 + tk.index) frac).wW Ix.trgTakeValidPre (k * 2 ^ 20 + tk.index) valid).wW Ix.trgTakeDataBytes
      (k * 2 ^ 20 + tk.index) bytes).rd Ix.trgTakeState 0 (k * 2 ^ 20 + tk.index) = state := fun sec frac valid => by
    rw [hother _ _ _ (by decide), hother _ _ _ (by decide), hother _ _ _ (by decide), hother _ _ _ (by decide), hstate]
  unfold Dev.takeReport
  dsimp only
  split
  · exact hbase ..
  · split <;> split
    · rw [hother _ _ _ (by decide), hother _ _ _ (by decide)]
      exact hbase ..
    · rw [hother _ _ _ (by decide)]
      exact hbase ..
    · rw [hother _ _ _ (by decide)]
      exact hbase ..
    · exact hbase ..

/-- A take that lies in capture memory, complete. -/
def Take.committed (tk : Take) : Take := { tk with complete := true, chunks := [], log := [] }

/-- Nothing of a take that its magazine holds whole goes to a reel (R197). -/
theorem Dev.takeSpill_none {d : Dev} {k : Nat} {tk : Take} (h : d.takeLen k tk ≤ d.takeHeld k tk) (img : TakeImage) : d.takeSpill k tk img = d :=
  if_pos h

/-- A magazine one of whose takes has changed: the take in its place, the history kept for those that want it, the takes counted. -/
def Dev.takeChanged (d : Dev) (k : Nat) (tk done : Take) : Dev :=
  let a := d.setMag k { d.mag k with takes := (d.mag k).takes.map (fun y => if y == tk then done else y) }
  let a := a.setMag k { a.mag k with hist := a.histKept k }
  a.wW Ix.trgMagTakes k (min (2 ^ 32 - 1) ((a.mag k).takes.filter (fun y => y.complete && !y.spilled)).length)

theorem Dev.takeChanged_only (d : Dev) (k : Nat) (tk done : Take) : d.changesOnly [.trg] [Ix.trgMagTakes] (d.takeChanged k tk done) :=
  Dev.changesOnly_trans (Dev.changesOnly_step (d.setMag_only k _) (Dev.setMag_only ..)) (Dev.wW_only _ Ix.trgMagTakes k _)

theorem Dev.mag_takeChanged (d : Dev) (k : Nat) (tk done : Take) : ∃ hist, (d.takeChanged k tk done).mag k =
    { d.mag k with takes := (d.mag k).takes.map (fun y => if y == tk then done else y), hist := hist } := by
  unfold Dev.takeChanged
  dsimp only
  rw [(Dev.wW_only ..).mag (by decide), Dev.mag_setMag, Dev.mag_setMag]
  exact ⟨_, rfl⟩

/-- A take is told of: its window and its event record. -/
def Dev.takeTold (d : Dev) (k : Nat) (tk : Take) (state bytes : Nat) : Dev :=
  (d.takeReport k tk state bytes).trgEvent 0x03 k tk.time tk.index bytes

theorem Dev.takeTold_only (d : Dev) (k : Nat) (tk : Take) (state bytes : Nat) :
    d.changesOnly eventParts (takePlaces ++ eventPlaces) (d.takeTold k tk state bytes) :=
  Dev.changesOnly_trans (pl := []) (d.takeReport_only k tk state bytes) (Dev.event_only ..)

theorem Dev.takeTold_arrived (d : Dev) (k : Nat) (tk : Take) (state bytes : Nat) : (d.takeTold k tk state bytes).out.arrived = d.out.arrived := by
  rw [Dev.takeTold, Dev.trgEvent, Dev.event_arrived, (d.takeReport_only ..).out (by decide)]

theorem Dev.rd_takeTold (d : Dev) (k : Nat) (tk : Take) {state : Nat} (hs : state < 256) (bytes : Nat) :
    (d.takeTold k tk state bytes).rd Ix.trgTakeState 0 (k * 2 ^ 20 + tk.index) = state := by
  rw [Dev.takeTold, Dev.trgEvent, (Dev.event_only ..).rd _ _ (by decide), Dev.rd_takeReport d k tk hs]

/-- A take is complete: its magazine, then its report and its record. -/
def Dev.takeDone (d : Dev) (k : Nat) (tk : Take) (state bytes : Nat) : Dev :=
  (d.takeChanged k tk tk.committed).takeTold k tk.committed state bytes

section
variable (d : Dev) (k : Nat) (tk : Take) (state bytes : Nat)

theorem Dev.takeDone_only : d.changesOnly (.trg :: eventParts) (Ix.trgMagTakes :: (takePlaces ++ eventPlaces)) (d.takeDone k tk state bytes) :=
  Dev.changesOnly_trans (d.takeChanged_only k tk tk.committed) (Dev.takeTold_only ..)

theorem Dev.mag_takeDone : ∃ hist, (d.takeDone k tk state bytes).mag k =
    { d.mag k with takes := (d.mag k).takes.map (fun y => if y == tk then tk.committed else y), hist := hist } := by
  rw [Dev.takeDone, (Dev.takeTold_only ..).mag (by decide)]
  exact d.mag_takeChanged k tk tk.committed

theorem Dev.takeDone_arrived : (d.takeDone k tk state bytes).out.arrived = d.out.arrived := by
  rw [Dev.takeDone, Dev.takeTold_arrived, (d.takeChanged_only k tk tk.committed).out (by decide)]

theorem Dev.rd_takeDone (hs : state < 256) : (d.takeDone k tk state bytes).rd Ix.trgTakeState 0 (k * 2 ^ 20 + tk.index) = state :=
  Dev.rd_takeTold _ k tk.committed hs bytes

end

/-- A magazine that no mask's stop disarms stays armed. -/
theorem Dev.magDisarmDue_stays {d : Dev} {k : Nat} (h : (d.mag k).disarm = false) : d.magDisarmDue k = d := by
  unfold Dev.magDisarmDue
  dsimp only
  exact if_neg (by simp only [h, Bool.false_and, Bool.false_eq_true, not_false_eq_true])

theorem Dev.takeDeliver_only (d : Dev) (k : Nat) (img : TakeImage) : d.changesOnly [.out] [] (d.takeDeliver k img) :=
  Dev.changesOnly_ite (fun _ => Dev.changesOnly_refl ..) fun _ => Dev.out_only ..

theorem Dev.changesOnly.ringTakes {pl : List Part} {ps : List Nat} {d e : Dev} (h : d.changesOnly pl ps e) (hix : Ix.strRingState ∉ ps) :
    e.ringTakes = d.ringTakes := funext fun r => by rw [Dev.ringTakes, Dev.ringTakes, h.nW hix]

/-- The record of a take with an open ring arrives there. -/
theorem Dev.takeDeliver_arrived {d : Dev} {k : Nat} (hring : d.nW Ix.trgMagRing k ≠ noRing) (hopen : d.ringTakes (d.nW Ix.trgMagRing k) = true)
    (img : TakeImage) : (d.takeDeliver k img).out.arrived = d.out.arrived ++ [(d.nW Ix.trgMagRing k, takeRecord img)] := by
  unfold Dev.takeDeliver
  dsimp only
  rw [if_neg (by simp only [hring, hopen, decide_false, Bool.not_true, Bool.or_self, Bool.false_eq_true, not_false_eq_true])]

/-! ### The command (R199) -/

section
variable {t k take : Nat} {s : State} {e : Dev} {tk : Take} (he : e = s.dev.at t) (hk : k < 256)
  (hfind : (e.mag k).takes.find? (fun x => x.index == take && !x.complete && x.logged.isSome) = some tk)
include he hk hfind

/-- A take whose log entry is still on its way is not complete. -/
theorem takeComplete_waits (hbusy : e.magBusy k 3 = true) :
    CompletesMem (.takeComplete t k take) t s [] [] fun m d => m = s.mem ∧ d.trg = e.trg := by
  subst he
  refine completesMem_of_eq (x := s.dev.at t) (exec_takeComplete ..) (by simpa using hk) ?_ (Dev.changesOnly_refl ..) ⟨rfl, rfl⟩
  dsimp only
  rw [hfind]
  exact if_pos hbusy

theorem takeComplete_completes {lg : Rec × List Rec × Bool} {img : TakeImage} (hfull : e.inRushes = false) (hstay : (e.mag k).disarm = false)
    (hlog : tk.logged = some lg) (hdone : e.magBusy k 3 = false) (hheld : e.takeLen k tk ≤ e.takeHeld k tk)
    (himg : img = { e.takeImage k tk with slate := lg.1, trailer := lg.2.1 }) (hring : e.nW Ix.trgMagRing k ≠ noRing)
    (hopen : e.ringTakes (e.nW Ix.trgMagRing k) = true) :
    CompletesMem (.takeComplete t k take) t s (.trg :: eventParts) (Ix.trgMagTakes :: (takePlaces ++ eventPlaces)) fun m d =>
      s.mem.sameOutside (fun a => e.owns 2 k a) m ∧ { tk with complete := true, chunks := [], log := [] } ∈ (d.mag k).takes ∧
        d.rd Ix.trgTakeState 0 (k * 2 ^ 20 + tk.index) = (if lg.2.2 then 4 else 3) ∧
        d.out.arrived = e.out.arrived ++ [(e.nW Ix.trgMagRing k, takeRecord img)] := by
  subst he himg
  have hlogged : tk.logged.getD ({ slots := [] }, [], false) = lg := by rw [hlog, Option.getD_some]
  have hdoneOnly := (s.dev.at t).takeDone_only k tk (if lg.2.2 then 4 else 3) ((s.dev.at t).takeImage k tk).data.length
  obtain ⟨hist, hmag⟩ := (s.dev.at t).mag_takeDone k tk (if lg.2.2 then 4 else 3) ((s.dev.at t).takeImage k tk).data.length
  have hdeliver := (((s.dev.at t).takeDone k tk (if lg.2.2 then 4 else 3) ((s.dev.at t).takeImage k tk).data.length).takeDeliver_only k
    { (s.dev.at t).takeImage k tk with slate := lg.1, trailer := lg.2.1 })
  have hstays := Dev.magDisarmDue_stays (k := k) (congrArg MagSt.disarm ((congrFun (hdeliver.mag (by decide)) k).trans hmag) |>.trans hstay)
  refine completesMem_of_eq (m := (s.dev.at t).takeZeros k tk s.mem) (exec_takeComplete ..) (by simpa using hk) ?_
    (Dev.changesOnly_mono (Dev.changesOnly_trans hdoneOnly hdeliver) (by decide) (by decide)) ⟨Dev.takeZeros_sameOutside _ _ _ _, ?_, ?_, ?_⟩
  · dsimp only
    rw [hfind]
    dsimp only
    rw [hdone, hlogged, hfull, Dev.takeSpill_none hheld]
    exact congrArg (Prod.mk _) hstays
  · rw [hdeliver.mag (by decide), hmag]
    exact List.mem_map.2 ⟨tk, List.mem_of_find?_eq_some hfind, if_pos (beq_self_eq_true tk)⟩
  · rw [hdeliver.rd _ _ (by decide), Dev.rd_takeDone _ _ _ _ _ (by split <;> decide)]
    split <;> rfl
  · rw [Dev.takeDeliver_arrived, Dev.takeDone_arrived, hdoneOnly.nW (by decide)]
    · rwa [hdoneOnly.nW (by decide)]
    · rwa [hdoneOnly.nW (by decide), hdoneOnly.ringTakes (by decide)]

end

/-- An uncorrectable word of an armed magazine's history is noted as lost. -/
theorem takeMemoryError_noted {t k first count : Nat} {s : State} {e : Dev} (he : e = s.dev.at t) (hk : k < 256) (harmed : (e.mag k).armed = true) :
    Completes (.takeMemoryError t k first count) t s [.trg] [] fun d => d.mag k = { e.mag k with bad := (first, count) :: (e.mag k).bad } := by
  subst he
  exact completes_of_runIf (exec_takeMemoryError ..) (by simpa using hk) (if_pos (by rw [harmed, Bool.true_or])) (Dev.setMag_only ..) (Dev.mag_setMag ..)

end Sys2Proof.Machine
end

section
/-! PROOFS. The arm of a magazine, and what settles O27 (R192, R193, R198). -/

namespace Sys2Proof.Machine

/-! ### Its memory (R192, R260) -/

/-- A device with other states of the Supervisor and of idle times, as a request leaves it. -/
def Dev.withRequest (d : Dev) (x : SupSt) (y : PwrSt) : Dev := { d with sup := x, pwr := y }

theorem Dev.alloc_withRequest (d : Dev) (x : SupSt) (y : PwrSt) (kind num length : Nat) (mirrored : Bool) :
    (d.withRequest x y).alloc kind num length mirrored = (d.alloc kind num length mirrored).map fun p => (p.1, p.2.withRequest x y) := by
  have hcap : (d.withRequest x y).cap = d.cap := rfl
  have hn0 : (d.withRequest x y).n0 = d.n0 := rfl
  unfold Dev.alloc
  dsimp only
  rw [hcap, hn0]
  split
  · rfl
  · rw [Option.map_map]
    rfl

/-- The memory of a magazine is found the same whatever the request's bookkeeping. -/
theorem Dev.magMemory_withRequest (d : Dev) (x : SupSt) (y : PwrSt) (k : Nat) :
    (d.withRequest x y).magMemory k = (d.magMemory k).map fun e => e.withRequest x y := by
  have hrush : (d.withRequest x y).inRushes = d.inRushes := rfl
  have hmag : (d.withRequest x y).mag = d.mag := rfl
  have halloc : (d.withRequest x y).allocOf = d.allocOf := rfl
  have hnW : (d.withRequest x y).nW = d.nW := rfl
  unfold Dev.magMemory
  dsimp only
  rw [hrush, hmag, halloc, hnW, Dev.alloc_withRequest]
  split
  · split <;> rfl
  split
  · rfl
  cases hdata : d.alloc 2 k (4096 * d.nW Ix.trgMagSize k) false with
  | none => rfl
  | some p =>
    have hK : (p.2.withRequest x y).magK = p.2.magK := rfl
    dsimp only [Option.map_some]
    rw [hK, Dev.alloc_withRequest]
    cases p.2.alloc 3 k (16384 * max (p.2.magK k) 1) true with
    | none => rfl
    | some q => rfl

theorem Dev.armRefusal_withRequest (d : Dev) (x : SupSt) (y : PwrSt) (k : Nat) : (d.withRequest x y).armRefusal k = d.armRefusal k := rfl

/-- In full service a magazine's memory is capture memory, and its entries say where. -/
theorem Dev.magMemory_only {d d' : Dev} {k : Nat} (hfull : d.inRushes = false) (h : d.magMemory k = some d') :
    d.changesOnly [.cap] [Ix.capFree, Ix.trgMagBase, Ix.trgMagLogBase] d' := by
  unfold Dev.magMemory at h
  rw [hfull, if_neg Bool.false_ne_true] at h
  split at h
  · cases h
    exact Dev.changesOnly_refl ..
  split at h
  · next a d1 hdata =>
    split at h
    · next b d2 hlog =>
      cases h
      exact Dev.changesOnly_mono (Dev.changesOnly_trans (Dev.changesOnly_trans (Dev.changesOnly_trans (Dev.alloc_only hdata) (Dev.alloc_only hlog))
        (Dev.wW_only _ Ix.trgMagBase k _)) (Dev.wW_only _ Ix.trgMagLogBase k _)) (by decide) (by decide)
    · cases h
  · cases h

/-! ### Its history, and the beginning (R193, R198) -/

/-- An on-die history takes its bytes; in rushes service the magazine has its take memory already. -/
def Dev.historyTaken (d : Dev) (k : Nat) : Dev :=
  if d.inRushes then d
  else (d.w0 Ix.trgHistoryFree (d.n0 Ix.trgHistoryFree - d.magHistory k)).setMag k { d.mag k with history := d.magHistory k }

theorem Dev.historyTaken_only (d : Dev) (k : Nat) : d.changesOnly [.trg] [Ix.trgHistoryFree] (d.historyTaken k) :=
  Dev.changesOnly_ite (fun _ => Dev.changesOnly_refl ..) fun _ =>
    Dev.changesOnly_trans (pl := []) (ps := [Ix.trgHistoryFree]) (Dev.wr_only ..) (Dev.setMag_only ..)

theorem Dev.mag_historyTaken (d : Dev) (k : Nat) : ∃ bytes, (d.historyTaken k).mag k = { d.mag k with history := bytes } := by
  unfold Dev.historyTaken
  split
  · exact ⟨_, rfl⟩
  · exact ⟨_, Dev.mag_setMag ..⟩

/-- A magazine that is armed from a boundary on, its first slot at a position. -/
def MagSt.begins (x : MagSt) (from_ first : Nat) : MagSt :=
  { x with armAt := from_, slotStart := first, at_ := first, armed := true, open_ := none, lastEnd := none, disarm := false }

/-- An armed magazine and its reports. -/
def Dev.magBegins (d : Dev) (k from_ history : Nat) : Dev :=
  let d := d.setMag k ((d.mag k).begins from_ (d.magAfter k from_))
  let d := ((d.setMagState k 2).wW Ix.trgMagCapacity k (d.magK k)).wW Ix.trgMagSlotBytes k (d.magS k)
  (d.wW Ix.trgMagHistoryBytes k (if d.magInSlot k then d.magS k else history)).nextSlot k

def beginPlaces : List Nat := [Ix.trgMagState, Ix.trgMagCapacity, Ix.trgMagSlotBytes, Ix.trgMagHistoryBytes, Ix.trgTakeState]

section
variable (d : Dev) (k from_ history : Nat)

theorem Dev.magBegins_reports : ((d.setMag k ((d.mag k).begins from_ (d.magAfter k from_))).setMagState k 2).changesOnly []
    [Ix.trgMagCapacity, Ix.trgMagSlotBytes, Ix.trgMagHistoryBytes, Ix.trgTakeState] (d.magBegins k from_ history) :=
  Dev.changesOnly_trans (Dev.changesOnly_trans (Dev.changesOnly_trans (Dev.wW_only _ Ix.trgMagCapacity k _) (Dev.wW_only _ Ix.trgMagSlotBytes k _))
    (Dev.wW_only _ Ix.trgMagHistoryBytes k _)) (Dev.nextSlot_only ..)

theorem Dev.magBegins_only : d.changesOnly [.trg] beginPlaces (d.magBegins k from_ history) :=
  Dev.changesOnly_trans (Dev.changesOnly_trans (d.setMag_only k _) (Dev.setMagState_only _ k 2)) (d.magBegins_reports k from_ history)

theorem Dev.mag_magBegins : (d.magBegins k from_ history).mag k = (d.mag k).begins from_ (d.magAfter k from_) := by
  rw [(d.magBegins_reports k from_ history).mag (by decide), (Dev.setMagState_only ..).mag (by decide), Dev.mag_setMag]

theorem Dev.rd_magBegins : (d.magBegins k from_ history).rd Ix.trgMagState 0 k = 2 := by
  rw [(d.magBegins_reports k from_ history).rd _ _ (by decide)]
  exact Dev.rd_setMagState _ _ (by decide)

end

/-! ### The command (R198) -/

/-- An arm takes the history's place and the chain's horizon anew. -/
def Dev.armPrepared (d : Dev) (k : Nat) : Dev :=
  d.setMag k { d.mag k with
    inSlot := d.nW Ix.trgMagHistory k == 1 || d.inRushes, ahead := if (d.mag k).takes.isEmpty then d.chainSamples k else (d.mag k).ahead }

theorem Dev.armPrepared_accept (d : Dev) (path ix sub k : Nat) : (d.accept path ix sub).armPrepared k =
    (d.armPrepared k).withRequest (d.accept path ix sub).sup (d.accept path ix sub).pwr := by
  conv_lhs => rw [Dev.accept_eq]
  rfl

theorem Dev.armPrepared_only (d : Dev) (k : Nat) : d.changesOnly [.trg] [] (d.armPrepared k) := Dev.setMag_only ..

theorem Dev.takes_armPrepared (d : Dev) (k : Nat) : ((d.armPrepared k).mag k).takes = (d.mag k).takes := by
  rw [Dev.armPrepared, Dev.mag_setMag]

/-- A magazine with its memory takes its history and begins at the next boundary. -/
def Dev.armBegun (d : Dev) (k : Nat) : Dev := (d.historyTaken k).magBegins k (d.trgBoundary (d.time96 + 1)) (d.magHistory k)

/-- What an arm does: it is refused, or it finds memory and the magazine begins. -/
def Dev.armEffect (d : Dev) (path k : Nat) : Dev :=
  match (d.armPrepared k).armRefusal k with
  | some c => d.refuse path Ix.trgMagCmd 0 c
  | none => match (d.armPrepared k).magMemory k with
    | none => d.refuse path Ix.trgMagCmd 0 Code.magNoMemory
    | some x => x.armBegun k

theorem execMagArm_eq (t path : Nat) (s : State) :
    execMagArm t path s = run t s fun d => d.magCommand path 1 fun d k => d.armEffect path k := rfl

theorem Dev.armEffect_of_refusal {d : Dev} {path k c : Nat} (h : (d.armPrepared k).armRefusal k = some c) :
    d.armEffect path k = d.refuse path Ix.trgMagCmd 0 c := by rw [Dev.armEffect, h]

theorem Dev.armEffect_of_memory {d x : Dev} {path k : Nat} (h : (d.armPrepared k).armRefusal k = none)
    (hmemory : (d.armPrepared k).magMemory k = some x) : d.armEffect path k = x.armBegun k := by
  rw [Dev.armEffect, h]
  dsimp only
  rw [hmemory]

/-- A magazine that is not idle is not armed. -/
theorem Dev.armRefusal_of_state {d : Dev} {k : Nat} (h : d.magState k ≠ 1) : d.armRefusal k = some Code.magState := by
  unfold Dev.armRefusal
  exact if_pos (by simpa using h)

theorem Dev.armBegun_only (d : Dev) (k : Nat) : d.changesOnly [.trg] (Ix.trgHistoryFree :: beginPlaces) (d.armBegun k) :=
  Dev.changesOnly_mono (Dev.changesOnly_trans (d.historyTaken_only k) (Dev.magBegins_only ..)) (by decide) (by decide)

theorem Dev.rd_armBegun (d : Dev) (k : Nat) : (d.armBegun k).rd Ix.trgMagState 0 k = 2 := Dev.rd_magBegins ..

/-- A magazine that begins has no take open and keeps those it holds. -/
theorem MagSt.begins_fields (x : MagSt) (from_ first bytes : Nat) : ∀ y, y = { x.begins from_ first with history := bytes } →
    y.armed = true ∧ y.armAt = from_ ∧ y.open_ = none ∧ y.takes = x.takes ∧ y.slotStart = first ∧ y.at_ = first := by
  rintro y rfl
  exact ⟨rfl, rfl, rfl, rfl, rfl, rfl⟩

theorem Dev.mag_armBegun (d : Dev) (k : Nat) : ∃ bytes, (d.armBegun k).mag k =
    { (d.mag k).begins (d.trgBoundary (d.time96 + 1)) (d.magAfter k (d.trgBoundary (d.time96 + 1))) with history := bytes } := by
  obtain ⟨bytes, hhistory⟩ := d.mag_historyTaken k
  rw [Dev.armBegun, Dev.mag_magBegins, hhistory,
    (d.historyTaken_only k).magAfter (by decide) (by decide) (by decide) (by decide) (by decide)]
  exact ⟨bytes, rfl⟩

section
variable {t path k : Nat} {s : State} {e : Dev} (he : e = s.dev.at t) (hr : e.reaches path Ix.trgMagCmd) (hk : k = e.nW Ix.trgMagSel path)
include he hr hk

theorem magArm_refused (hpath : 1 ≤ path ∧ path ≤ 4) (hst : e.magState k ≠ 1) :
    Completes (.magArm t path) t s requestParts requestPlaces fun d => d.reports path Code.magState ∧ d.trg = e.trg := by
  refine completes_magRefused he hr hk ((exec_magArm ..).trans (execMagArm_eq ..)) hpath (Dev.armEffect_of_refusal (Dev.armRefusal_of_state ?_))
  rwa [((e.accept path Ix.trgMagCmd 0).armPrepared_only k).magState (by simp), Dev.magState_accept]

theorem magArm_arms {e' : Dev} (hfull : e.inRushes = false) (harm : (e.armPrepared k).armRefusal k = none)
    (hmemory : (e.armPrepared k).magMemory k = some e') :
    Completes (.magArm t path) t s (.trg :: .cap :: requestParts)
      (Ix.trgHistoryFree :: Ix.trgMagBase :: Ix.trgMagLogBase :: Ix.trgMagState :: Ix.trgMagCapacity :: Ix.trgMagSlotBytes :: Ix.trgMagHistoryBytes ::
        Ix.trgTakeState :: Ix.capFree :: requestPlaces) fun d =>
      d.rd Ix.trgMagState 0 k = 2 ∧ (d.mag k).armed = true ∧ (d.mag k).armAt = e.trgBoundary (e.time96 + 1) ∧ (d.mag k).open_ = none ∧
        (d.mag k).takes = (e.mag k).takes ∧ (d.mag k).slotStart = e.magAfter k (e.trgBoundary (e.time96 + 1)) ∧
        (d.mag k).at_ = e.magAfter k (e.trgBoundary (e.time96 + 1)) ∧ d.cap.allocs = e'.cap.allocs := by
  have haccept := e.accept_only path Ix.trgMagCmd 0
  have hprepared := (e.accept path Ix.trgMagCmd 0).armPrepared_only k
  have hrush : ((e.accept path Ix.trgMagCmd 0).armPrepared k).inRushes = false := by
    rw [hprepared.inRushes (by simp), haccept.inRushes (by simp), hfull]
  obtain ⟨x, hx, hcap⟩ : ∃ x : Dev, ((e.accept path Ix.trgMagCmd 0).armPrepared k).magMemory k = some x ∧ x.cap = e'.cap := by
    rw [Dev.armPrepared_accept, Dev.magMemory_withRequest, hmemory]
    exact ⟨_, rfl, rfl⟩
  have harm' : ((e.accept path Ix.trgMagCmd 0).armPrepared k).armRefusal k = none := by
    rw [Dev.armPrepared_accept, Dev.armRefusal_withRequest, harm]
  have hfound := Dev.magMemory_only hrush hx
  have hmag : (x.mag k).takes = (e.mag k).takes := by rw [hfound.mag (by decide), Dev.takes_armPrepared, Dev.mag_accept]
  have hboundary : x.trgBoundary (x.time96 + 1) = e.trgBoundary (e.time96 + 1) := by
    rw [hfound.nextBoundary (by decide) (by decide) (by decide), hprepared.nextBoundary (by decide) (by decide) (by simp), Dev.nextBoundary_accept]
  have hafter : x.magAfter = e.magAfter := by
    rw [hfound.magAfter (by decide) (by decide) (by decide) (by decide) (by decide),
      hprepared.magAfter (by simp) (by simp) (by decide) (by decide) (by decide), Dev.magAfter_accept]
  refine completes_magCommand he hr hk ((exec_magArm ..).trans (execMagArm_eq ..)) (Dev.armEffect_of_memory harm' hx)
    (Dev.changesOnly_trans (Dev.changesOnly_trans hprepared hfound) (x.armBegun_only k)) fun d hd => ?_
  obtain ⟨bytes, hbegun⟩ := x.mag_armBegun k
  obtain ⟨harmed, hat, hopen, htakes, hstart, hfirst⟩ := MagSt.begins_fields _ _ _ _ _ hbegun
  rw [hd.rd _ _ (by decide), hd.mag (by decide), hd.cap (by decide), (x.armBegun_only k).cap (by decide), hcap, hat, htakes, hstart, hfirst,
    hboundary, hafter, hmag]
  exact ⟨Dev.rd_armBegun .., harmed, rfl, hopen, rfl, rfl, rfl, rfl⟩

end

/-- Settles O27: each command and each take is a lemma above, of the operation on the magazine that its path selects. -/
theorem magazineCommandsAndTakes : Obligations.MagazineCommandsAndTakes := by
  unfold Obligations.MagazineCommandsAndTakes
  refine ⟨?_, ?_, ?_, ?_, ?_, ?_, ?_, ?_, ?_, ?_, ?_, ?_, ?_⟩
  · rintro t path s e m e' k b he hr hk hfull rfl harm hmemory rfl
    have hprepared : e.armPrepared k = e.setMag k { e.mag k with
        inSlot := e.nW Ix.trgMagHistory k == 1, ahead := if (e.mag k).takes.isEmpty then e.chainSamples k else (e.mag k).ahead } := by
      rw [Dev.armPrepared, hfull, Bool.or_false]
    rw [← hprepared] at harm hmemory
    exact magArm_arms he hr hk hfull harm hmemory
  · exact fun t path s e k he hr hpath hk hst => magArm_refused he hr hk hpath hst
  · exact fun t path s e k he hr hk hst hopen => magDisarm_stops he hr hk hst hopen
  · exact fun t path s e k tk he hr hk hst hopen hlast => magDisarm_closes he hr hk hst hopen hlast
  · exact fun t path s e k he hr hk hst => magFree_frees he hr hk hst
  · exact fun t path s e k he hr hpath hk hst => magFree_refused he hr hk hpath hst
  · exact fun t k s e he hk hst => magFreeRelease_releases he hk hst
  · rintro t path s e k x b he hr hk rfl rfl hst hopen harmed hat hlast hroom
    exact magForceTrigger_opens he hr hk hst hopen harmed hat hlast hroom
  · exact fun t path s e k he hr hpath hk hst hopen => magForceTrigger_refused he hr hk hpath hst hopen
  · exact fun t path s e k he hr hk hst => magClear_clears he hr hk hst
  · exact fun t k take s e tk img lg he hk hfull hstay hfind hlog hdone hheld himg hring hopen =>
      takeComplete_completes he hk hfind hfull hstay hlog hdone hheld himg hring hopen
  · exact fun t k take s e tk he hk hfind hbusy => takeComplete_waits he hk hfind hbusy
  · exact fun t k first count s e he hk harmed => takeMemoryError_noted he hk harmed

end Sys2Proof.Machine
end

section
/-! PROOFS. Density planes: the settling of a plane frame, errors and faults of a plane, its exports, and what settles O28 (R217 to R222, R227). -/

namespace Sys2Proof.Machine

theorem exec_planeFrameSettle (t p ecc : Nat) (s : State) : exec (.planeFrameSettle t p ecc) s = execPlaneFrameSettle t p ecc s := rfl
theorem exec_planeMemError (t p word : Nat) (s : State) : exec (.planeMemError t p word) s = execPlaneMemError t p word s := rfl
theorem exec_densityFault (t p : Nat) (s : State) : exec (.densityFault t p) s = execDensityFault t p s := rfl
theorem exec_planeExport (t p : Nat) (s : State) : exec (.planeExport t p) s = execPlaneExport t p s := rfl

/-! ### A plane's own state -/

theorem Dev.setPlane_only (d : Dev) (p : Nat) (x : PlaneSt) : d.changesOnly [.den] [] (d.setPlane p x) := Dev.den_only ..

theorem Dev.plane_setPlane (d : Dev) (p : Nat) (x : PlaneSt) : (d.setPlane p x).plane p = x := Tab.get_set_same ..

theorem Dev.changesOnly.plane {pl : List Part} {ps : List Nat} {d e : Dev} (h : d.changesOnly pl ps e) (hp : Part.den ∉ pl) : e.plane = d.plane :=
  funext fun p => congrArg (fun x => x.planes.get {} p) (h.den hp)

theorem Dev.wI_only (d : Dev) (ix i v : Nat) : d.changesOnly [] [ix] (d.wI ix i v) := Dev.wr_only ..

/-! ### A plane frame settles (R217 to R219, R223) -/

theorem Dev.setThr_only (d : Dev) (t : Nat) (x : ThrSt) : d.changesOnly [.den] [] (d.setThr t x) := Dev.den_only ..

/-- The closing values of a plane's thresholds go to `den.thr_count`. -/
theorem Dev.thrClose_only (d : Dev) (p : Nat) : d.changesOnly [.den] [Ix.denThrCount] (d.thrClose p) :=
  Dev.changesOnly_foldl _ (fun a _ => Dev.changesOnly_ite (fun _ => Dev.changesOnly_mono (a.setThr_only ..) (by decide) (by decide)) fun _ =>
    Dev.changesOnly_mono (Dev.changesOnly_trans (a.wI_only ..) (Dev.setThr_only ..)) (by decide) (by decide)) _ d

/-- Thresholds that close leave the planes. -/
theorem Dev.plane_thrClose (d : Dev) (p : Nat) : (d.thrClose p).plane = d.plane :=
  foldl_keeps Dev.plane _ (fun a i => by
    dsimp only
    split <;> rfl) _ d

/-- What a plane keeps of a plane frame that began at `st` and settles at `b` under the decay `k`: its counts stand, the next frame begins with
them decayed, and its closing values are noted. -/
def PlaneSt.settlesTo (x : PlaneSt) (k st b : Nat) (y : PlaneSt) : Prop :=
  y.settled = x.active ∧ y.start = some b ∧ y.counted = 0 ∧
  y.active = x.active.filterMap (fun c => if decayed k c.2 = 0 then none else some (c.1, decayed k c.2)) ∧
  y.closed.take 7 = [st, x.counted, x.skipped, x.lost, x.hits, x.clipped, x.satCells.length]

/-- Settling: the thresholds close, the plane turns to its next frame, the frame is counted, its largest count and its saturated cells reported. -/
theorem Dev.settlePlane_eq {d : Dev} {p st : Nat} (hst : (d.plane p).start = some st) (b extra : Nat) :
    ∃ y biggest, (d.plane p).settlesTo (d.nI Ix.denDecay p) st b y ∧ d.settlePlane p b extra =
      (((((d.thrClose p).setPlane p y).incI Ix.denPlaneFrames p).wI Ix.denMaxCell p biggest).incI Ix.denSatCells p (d.plane p).satCells.length) := by
  unfold Dev.settlePlane
  dsimp only
  rw [hst]
  exact ⟨_, _, ⟨rfl, rfl, rfl, rfl, rfl⟩, rfl⟩

theorem Dev.settlePlane_settles {d : Dev} {p st : Nat} (hst : (d.plane p).start = some st) (b extra : Nat) :
    d.changesOnly [.den, .ctr] [Ix.denThrCount, Ix.denPlaneFrames, Ix.denMaxCell, Ix.denSatCells] (d.settlePlane p b extra) ∧
    (d.plane p).settlesTo (d.nI Ix.denDecay p) st b ((d.settlePlane p b extra).plane p) ∧
    d.counted (d.settlePlane p b extra) Ix.denPlaneFrames (p + 1) 0 1 := by
  obtain ⟨y, biggest, hy, heq⟩ := Dev.settlePlane_eq hst b extra
  rw [heq]
  have hturned := Dev.changesOnly_trans (d.thrClose_only p) ((d.thrClose p).setPlane_only p y)
  have hcounted := hturned.counted (by decide) (Dev.inc_counted _ Ix.denPlaneFrames (p + 1) 0 1)
  have hreported := Dev.changesOnly_trans ((((d.thrClose p).setPlane p y).incI Ix.denPlaneFrames p).wI_only Ix.denMaxCell p biggest)
    (Dev.incI_only _ Ix.denSatCells p (d.plane p).satCells.length)
  refine ⟨Dev.changesOnly_mono (Dev.changesOnly_trans (Dev.changesOnly_trans hturned (Dev.incI_only ..)) hreported) (by decide) (by decide), ?_,
    hcounted.after hreported (by decide)⟩
  rwa [hreported.plane (by decide), (Dev.incI_only ..).plane (by decide), Dev.plane_setPlane]

/-- The end of a plane's frame with no cut waiting: the frame settles. -/
theorem Dev.planeStep_settles {d : Dev} {p st : Nat} (hcut : (d.plane p).before = none) (hst : (d.plane p).start = some st) :
    ∃ extra, d.planeStep p (planeAfter st (d.nI Ix.denPeriod p)) = d.settlePlane p (planeAfter st (d.nI Ix.denPeriod p)) extra := by
  unfold Dev.planeStep
  dsimp only
  rw [hcut, hst]
  exact ⟨_, if_pos le_rfl⟩

theorem planeFrameSettle_settles {t p st b : Nat} {s : State} {e : Dev} (he : e = s.dev.at t) (hp : p < 4) (hcut : (e.plane p).before = none)
    (hst : (e.plane p).start = some st) (hb : b = planeAfter st (e.nI Ix.denPeriod p)) (hready : e.planeReady p b = true) :
    Completes (.planeFrameSettle t p 0) t s [.den, .ctr] [Ix.denThrCount, Ix.denPlaneFrames, Ix.denMaxCell, Ix.denSatCells] fun d =>
      (e.plane p).settlesTo (e.nI Ix.denDecay p) st b (d.plane p) ∧ e.counted d Ix.denPlaneFrames (p + 1) 0 1 := by
  subst he hb
  obtain ⟨extra, hstep⟩ := Dev.planeStep_settles hcut hst
  obtain ⟨honly, hsettled, hcounted⟩ := Dev.settlePlane_settles hst (planeAfter st ((s.dev.at t).nI Ix.denPeriod p)) extra
  refine completes_of_runIf (exec_planeFrameSettle ..) (by simpa using hp) ?_ honly ⟨hsettled, hcounted⟩
  simp only [if_true, hcut, hst, hready, hstep]

/-! ### An uncorrectable error (R227) -/

/-- A table without the two keys of a word reads 0 there and as before elsewhere. -/
theorem get_del_word (l : Tab Nat) (word c : Nat) : ((l.del (2 * word)).del (2 * word + 1)).get 0 c = if c / 2 = word then 0 else l.get 0 c := by
  unfold Tab.get
  split
  · next hc =>
    obtain rfl | rfl : c = 2 * word ∨ c = 2 * word + 1 := by omega
    · rw [Tab.find?_del_other _ _ _ (by omega), Tab.find?_del_same, Option.getD_none]
    · rw [Tab.find?_del_same, Option.getD_none]
  · rw [Tab.find?_del_other _ _ _ (by omega), Tab.find?_del_other _ _ _ (by omega)]

theorem planeMemError_zeroes {t p word : Nat} {s : State} {e : Dev} (he : e = s.dev.at t) (hp : p < 4) (hroom : e.sup.emergencies.length < 32) :
    Completes (.planeMemError t p word) t s (.den :: codeParts) codePlaces fun d =>
      (∀ c, (d.plane p).active.get 0 c = if c / 2 = word then 0 else (e.plane p).active.get 0 c) ∧
      (∀ c, (d.plane p).settled.get 0 c = if c / 2 = word then 0 else (e.plane p).settled.get 0 c) ∧ d.reports 4 Code.planeMemError := by
  subst he
  refine completes_of_runIf (exec_planeMemError ..) (by simpa using hp) rfl (Dev.changesOnly_trans (Dev.setPlane_only ..) (Dev.raise_only ..)) ?_
  rw [(Dev.raise_only ..).plane (by decide), Dev.plane_setPlane]
  exact ⟨fun c => get_del_word .., fun c => get_del_word .., Dev.raise_places _ 4 Code.planeMemError hroom (by decide) (by decide)⟩

/-! ### A fault of a plane's increment logic (R227) -/

/-- A fault's code is the last error, whatever it interrupts (R407, R482). -/
theorem Dev.fault_interrupting_reports (d : Dev) (cls isl inst value i : Nat) {c : Nat} (hq : d.sup.emergencies.length < 32)
    (hc0 : c ≠ 0 := by decide) (hc : c < 2 ^ 32 := by decide) : (d.fault cls c isl inst value i).reports 4 c := by
  unfold Dev.fault
  dsimp only
  rw [if_neg hc0]
  refine (Dev.logEntry_only ..).reports (Dev.raiseBase_places _ ?_ hc)
  have hmax : (d.incI Ix.fltClassCount (cls - 1)).changesOnly [] [Ix.fltInterruptMax] (if (d.incI Ix.fltClassCount (cls - 1)).n0 Ix.fltInterruptMax < i
      then (d.incI Ix.fltClassCount (cls - 1)).w0 Ix.fltInterruptMax i else d.incI Ix.fltClassCount (cls - 1)) :=
    Dev.changesOnly_ite (fun _ => Dev.wr_only ..) fun _ => Dev.changesOnly_refl ..
  rwa [hmax.sup (by decide), (Dev.incI_only ..).sup (by decide)]

theorem Dev.within_le (d : Dev) (bound : Nat) : (d.within bound).1 ≤ bound := Nat.le_of_lt_succ (Nat.mod_lt _ (Nat.succ_pos _))

theorem Dev.within_only (d : Dev) (bound : Nat) : d.changesOnly [.drawn] [] (d.within bound).2 :=
  ⟨fun p hp h => by cases p <;> first | rfl | exact absurd rfl h | simp at hp, fun _ _ _ _ => rfl⟩

/-- A duration in nanoseconds is no longer than one of as many microseconds. -/
theorem ns_le_us {w n : Nat} (h : w ≤ 1000 * n) : ns w ≤ us n := by
  unfold ns us ceilDiv two48
  omega

/-- A plane that is reset until an instant: both buffers are clear, and its frame is marked INCOMPLETE. -/
def PlaneSt.resets (x : PlaneSt) (until_ : Nat) : PlaneSt :=
  { x with active := [], settled := [], resetUntil := until_, flags := Nat.lor x.flags 128, cleared := true }

theorem typeOf_denState {p : Nat} (hp : p < 4) : typeOf Ix.denState (p + 1) = 5 := by
  have h : ∀ k < 4, typeOf Ix.denState (k + 1) = 5 := by decide
  exact h p hp

/-- A plane in its reset, with the fault that began it not yet raised. -/
def Dev.planeResets (d : Dev) (p until_ : Nat) : Dev := (d.setPlane p ((d.plane p).resets until_)).wI Ix.denState p 3

theorem Dev.planeResets_only (d : Dev) (p until_ : Nat) : d.changesOnly [.den] [Ix.denState] (d.planeResets p until_) :=
  Dev.changesOnly_trans (Dev.setPlane_only ..) (Dev.wI_only ..)

theorem Dev.plane_planeResets (d : Dev) (p until_ : Nat) : (d.planeResets p until_).plane p = (d.plane p).resets until_ := Dev.plane_setPlane ..

theorem densityFault_resets {t p : Nat} {s : State} {e : Dev} (he : e = s.dev.at t) (hp : p < 4) (hon : e.nI Ix.denState p ≠ 0)
    (hroom : e.sup.emergencies.length < 32) :
    Completes (.densityFault t p) t s (.drawn :: .den :: codeParts) (Ix.denState :: faultPlaces) fun d =>
      (d.plane p).active = [] ∧ (d.plane p).settled = [] ∧ e.now ≤ (d.plane p).resetUntil ∧ (d.plane p).resetUntil ≤ e.now + us 50 ∧
      d.rd Ix.denState (p + 1) 0 = 3 ∧ d.reports 4 Code.densityFault ∧ e.counted d Ix.fltClassCount 2 0 1 := by
  subst he
  have hdrawn := (s.dev.at t).within_only 50000
  have hbound : ns ((s.dev.at t).within 50000).1 ≤ us 50 := ns_le_us (Dev.within_le ..)
  generalize hw : ((s.dev.at t).within 50000).1 = w at hbound
  generalize hd : ((s.dev.at t).within 50000).2 = d at hdrawn
  have hreset := d.planeResets_only p ((s.dev.at t).now + ns w)
  have hfault := Dev.fault_only (d.planeResets p ((s.dev.at t).now + ns w)) 2 Code.densityFault 5 p 0 w
  have hcounted := Dev.fault_counted (d.planeResets p ((s.dev.at t).now + ns w)) 2 Code.densityFault 5 p 0 w
  refine completes_of_runIf (exec_densityFault ..) (by simpa using hp) ?_
    (Dev.changesOnly_mono (Dev.changesOnly_trans hdrawn (Dev.changesOnly_trans hreset hfault)) (by decide) (by decide)) ?_
  · dsimp only
    rw [hw, hd, hdrawn.nI (by decide), if_neg hon, hdrawn.now (by decide)]
    rfl
  · rw [hfault.plane (by decide), Dev.plane_planeResets, hfault.rd _ _ (by decide)]
    refine ⟨rfl, rfl, Nat.le_add_right .., Nat.add_le_add_left hbound _, ?_, Dev.fault_interrupting_reports _ _ _ _ _ _ ?_,
      (Dev.changesOnly_trans hdrawn hreset).counted (by decide) hcounted⟩
    · exact Dev.rd_wr_fits (n := 0) _ 0 (by rw [typeOf_denState hp]; rfl) (by rw [typeOf_denState hp]; rfl) (by decide)
    · rwa [hreset.sup (by decide), hdrawn.sup (by decide)]

theorem densityFault_off {t p : Nat} {s : State} {e : Dev} (he : e = s.dev.at t) (hp : p < 4) (hoff : e.nI Ix.denState p = 0)
    (hroom : e.sup.emergencies.length < 32) :
    Completes (.densityFault t p) t s (.drawn :: codeParts) faultPlaces fun d => d.den = e.den ∧ d.reports 4 Code.densityFault := by
  subst he
  have hdrawn := (s.dev.at t).within_only 50000
  have honly := Dev.changesOnly_trans hdrawn (Dev.fault_only _ 2 Code.densityFault 5 p 0 ((s.dev.at t).within 50000).1)
  exact completes_of_runIf (exec_densityFault ..) (by simpa using hp) (if_pos ((congrFun (hdrawn.nI (by decide)) p).trans hoff)) honly
    ⟨honly.den (by decide), Dev.fault_interrupting_reports _ _ _ _ _ _ hroom⟩

/-! ### Exports (R219 to R222) -/

/-- An export of a plane sets out for its ring and is counted. -/
def Dev.planeSetsOut (d : Dev) (p : Nat) (pay : List Byte) : Dev :=
  ((d.setPlane p { d.plane p with exportDue := false }).emitTo (d.nI Ix.denRing p) 0 (d.planeRecord p pay)).incI Ix.denExports p

/-- A plane's record does not say whether an export is due. -/
theorem Dev.planeRecord_setPlane_exportDue (d : Dev) (p : Nat) (due : Bool) (pay : List Byte) :
    (d.setPlane p { d.plane p with exportDue := due }).planeRecord p pay = d.planeRecord p pay := by
  unfold Dev.planeRecord
  rw [Dev.plane_setPlane]
  rfl

/-- The payload of a plane's export in its format, of the buffer and the setting that were settled. -/
def PlaneSt.payload (x : PlaneSt) : List Byte :=
  planePayload x.settled (x.setting.getD 0 0 * x.setting.getD 1 0) (x.setting.getD 10 0)
    (if x.setting.getD 11 0 = 0 then x.closed.getD 8 0 else x.setting.getD 11 0)

section
variable (d : Dev) (p : Nat) (pay : List Byte)

theorem Dev.planeSetsOut_before : d.changesOnly [.den, .out] []
    ((d.setPlane p { d.plane p with exportDue := false }).emitTo (d.nI Ix.denRing p) 0 (d.planeRecord p pay)) :=
  Dev.changesOnly_trans (Dev.setPlane_only ..) (Dev.emitTo_uncounted_only ..)

theorem Dev.planeSetsOut_only : d.changesOnly [.den, .out, .ctr] [Ix.denExports] (d.planeSetsOut p pay) :=
  Dev.changesOnly_trans (d.planeSetsOut_before p pay) (Dev.incI_only ..)

theorem Dev.planeSetsOut_counted : d.counted (d.planeSetsOut p pay) Ix.denExports (p + 1) 0 1 :=
  (d.planeSetsOut_before p pay).counted (by decide) (Dev.inc_counted ..)

theorem Dev.plane_planeSetsOut : (d.planeSetsOut p pay).plane p = { d.plane p with exportDue := false } := by
  rw [Dev.planeSetsOut, (Dev.incI_only ..).plane (by decide), (Dev.emitTo_uncounted_only ..).plane (by decide), Dev.plane_setPlane]

/-- The record of an export is on its way to the plane's ring. -/
theorem Dev.planeSetsOut_outbox (hring : d.nI Ix.denRing p ≠ noRing) (hopen : d.ringTakes (d.nI Ix.denRing p) = true) :
    (d.planeSetsOut p pay).out.outbox = d.out.outbox ++ [(d.nI Ix.denRing p, d.planeRecord p pay)] := by
  rw [Dev.planeSetsOut, (Dev.incI_only ..).out (by decide), Dev.emitTo, if_neg hring, (Dev.setPlane_only ..).ringTakes (by decide), if_pos hopen]
  rfl

/-- A plane that names no ring sends nothing. -/
theorem Dev.planeSetsOut_noRing_only (hring : d.nI Ix.denRing p = noRing) :
    d.changesOnly [.den, .ctr] [Ix.denExports] (d.planeSetsOut p pay) := by
  rw [Dev.planeSetsOut, Dev.emitTo, if_pos hring]
  exact Dev.changesOnly_trans (Dev.setPlane_only ..) (Dev.incI_only ..)

end

section
variable {t p : Nat} {s : State} {e : Dev} (he : e = s.dev.at t) (hp : p < 4) (hdue : (e.plane p).exportDue = true)
include he hp hdue

/-- An export of counts goes to the ring alone. -/
theorem completes_planeExport_counts (hformat : (e.plane p).setting.getD 10 0 = 1) {pl : List Part} {ps : List Nat} {post : Dev → Prop}
    (honly : e.changesOnly pl ps (e.planeSetsOut p (e.plane p).payload)) (hpost : post (e.planeSetsOut p (e.plane p).payload)) :
    Completes (.planeExport t p) t s pl ps post := by
  subst he
  refine completes_of_runIf (exec_planeExport ..) (by simpa using hp) ?_ honly hpost
  simp only [hdue, Bool.not_true, Bool.false_eq_true, if_false, Dev.planeRecord_setPlane_exportDue]
  exact if_pos hformat

/-- An export of indices goes on to the Viewport. -/
theorem completes_planeExport_indices (hformat : (e.plane p).setting.getD 10 0 ≠ 1) {pl : List Part} {ps : List Nat} {post : Dev → Prop} {x : Dev}
    (hx : (e.planeSetsOut p (e.plane p).payload).planeToViewport p ((e.plane p).setting.getD 0 0) ((e.plane p).setting.getD 1 0)
      ((e.plane p).closed.getD 0 0) (e.plane p).payload = x)
    (honly : e.changesOnly pl ps x) (hpost : post x) : Completes (.planeExport t p) t s pl ps post := by
  subst he
  refine completes_of_runIf (exec_planeExport ..) (by simpa using hp) ?_ honly hpost
  simp only [hdue, Bool.not_true, Bool.false_eq_true, if_false, Dev.planeRecord_setPlane_exportDue]
  exact (if_neg hformat).trans hx

theorem planeExport_records (hformat : (e.plane p).setting.getD 10 0 = 1) (hring : e.nI Ix.denRing p ≠ noRing)
    (hopen : e.ringTakes (e.nI Ix.denRing p) = true) :
    Completes (.planeExport t p) t s [.den, .out, .ctr] [Ix.denExports] fun d =>
      d.plane p = { e.plane p with exportDue := false } ∧ e.counted d Ix.denExports (p + 1) 0 1 ∧
      d.out.outbox = e.out.outbox ++ [(e.nI Ix.denRing p, e.planeRecord p (e.plane p).payload)] :=
  completes_planeExport_counts he hp hdue hformat (e.planeSetsOut_only ..)
    ⟨e.plane_planeSetsOut .., e.planeSetsOut_counted .., e.planeSetsOut_outbox _ _ hring hopen⟩

theorem planeExport_noRing (hformat : (e.plane p).setting.getD 10 0 = 1) (hring : e.nI Ix.denRing p = noRing) :
    Completes (.planeExport t p) t s [.den, .ctr] [Ix.denExports] fun d =>
      d.plane p = { e.plane p with exportDue := false } ∧ e.counted d Ix.denExports (p + 1) 0 1 :=
  completes_planeExport_counts he hp hdue hformat (e.planeSetsOut_noRing_only _ _ hring) ⟨e.plane_planeSetsOut .., e.planeSetsOut_counted ..⟩

end

/-! ### An export that the Viewport does not take (R222) -/

/-- An export that is not written to the Viewport is counted as skipped, and said so. -/
def Dev.exportSkips (d : Dev) (p : Nat) : Dev := (d.incI Ix.denExportsSkipped p).raise 4 Code.exportSkipped

theorem Dev.exportSkips_only (d : Dev) (p : Nat) : d.changesOnly codeParts (Ix.denExportsSkipped :: codePlaces) (d.exportSkips p) :=
  Dev.changesOnly_mono (Dev.changesOnly_trans (Dev.incI_only ..) (Dev.raise_only ..)) (by decide) (by decide)

/-- The handle whose turn it is names no buffer: the export is skipped. -/
theorem Dev.planeToViewport_skips {d : Dev} {p : Nat} (hlayer : d.nI Ix.denVpLayer p < 3)
    (hhandle : d.handleEntry (d.planeHandle p (1 - (d.plane p).lastHandle)) = none) (w rows time : Nat) (pay : List Byte) :
    d.planeToViewport p w rows time pay = d.exportSkips p := by
  unfold Dev.planeToViewport
  dsimp only
  rw [if_neg (by omega), hhandle]
  rfl

theorem Dev.changesOnly.vp {pl : List Part} {ps : List Nat} {d e : Dev} (h : d.changesOnly pl ps e) (hp : Part.vp ∉ pl) : e.vp = d.vp :=
  (h.1 .vp hp (by decide)).symm

theorem Dev.changesOnly.handleEntry {pl : List Part} {ps : List Nat} {d e : Dev} (h : d.changesOnly pl ps e) (hp : Part.vp ∉ pl) :
    e.handleEntry = d.handleEntry := funext fun x => by rw [Dev.handleEntry, Dev.handleEntry, h.vp hp]

theorem Dev.changesOnly.planeHandle {pl : List Part} {ps : List Nat} {d e : Dev} (h : d.changesOnly pl ps e) (ha : Ix.denVpHandleA ∉ ps)
    (hb : Ix.denVpHandleB ∉ ps) : e.planeHandle = d.planeHandle := funext fun p => funext fun which => by
  rw [Dev.planeHandle, Dev.planeHandle, h.nI ha, h.nI hb]

theorem planeExport_skips {t p : Nat} {s : State} {e : Dev} (he : e = s.dev.at t) (hp : p < 4) (hdue : (e.plane p).exportDue = true)
    (hformat : (e.plane p).setting.getD 10 0 ≠ 1) (hlayer : e.nI Ix.denVpLayer p < 3)
    (hhandle : e.handleEntry (e.planeHandle p (1 - (e.plane p).lastHandle)) = none) (hroom : e.sup.emergencies.length < 32) :
    Completes (.planeExport t p) t s (.den :: .out :: codeParts) (Ix.denExports :: Ix.denExportsSkipped :: codePlaces) fun d =>
      e.counted d Ix.denExportsSkipped (p + 1) 0 1 ∧ d.reports 4 Code.exportSkipped := by
  have hout := e.planeSetsOut_only p (e.plane p).payload
  refine completes_planeExport_indices he hp hdue hformat (Dev.planeToViewport_skips ?_ ?_ ..)
    (Dev.changesOnly_mono (Dev.changesOnly_trans hout (Dev.exportSkips_only ..)) (by decide) (by decide)) ⟨?_, ?_⟩
  · rwa [hout.nI (by decide)]
  · rwa [Dev.plane_planeSetsOut, hout.planeHandle (by decide) (by decide), hout.handleEntry (by decide)]
  · exact hout.counted (by decide) ((Dev.inc_counted ..).after (Dev.raise_only ..) (by decide))
  · refine Dev.raise_places _ 4 Code.exportSkipped ?_ (by decide) (by decide)
    rwa [(Dev.incI_only ..).sup (by decide), hout.sup (by decide)]

/-- Settles O28, clause by clause: a plane frame that settles, a memory error, a fault of a plane that runs and of one that is off, an export to a
ring, one with no ring, one that the Viewport does not take. -/
theorem planesSettleAndAreExported : Obligations.PlanesSettleAndAreExported := by
  unfold Obligations.PlanesSettleAndAreExported
  refine ⟨?_, ?_, ?_, ?_, ?_, ?_, ?_⟩
  · rintro t p s e x st b he hp rfl hcut hst hb hready
    obtain ⟨d, hexec, honly, ⟨hsettled, hstart, hfresh, hdecayed, hclosed⟩, hcounted⟩ := planeFrameSettle_settles he hp hcut hst hb hready
    exact ⟨d, hexec, honly, hsettled, hstart, hfresh, hdecayed, hclosed, hcounted⟩
  · exact fun t p word s e he hp hroom => planeMemError_zeroes he hp hroom
  · exact fun t p s e he hp hon hroom => densityFault_resets he hp hon hroom
  · exact fun t p s e he hp hoff hroom => densityFault_off he hp hoff hroom
  · rintro t p s e x pay he hp rfl hdue hformat hpay hring hopen
    obtain rfl : pay = (e.plane p).payload := by rw [hpay, PlaneSt.payload, hformat]
    exact planeExport_records he hp hdue hformat hring hopen
  · rintro t p s e x he hp rfl hdue hformat hring
    exact planeExport_noRing he hp hdue hformat hring
  · rintro t p s e x he hp rfl hdue hformat hlayer hhandle hroom
    exact planeExport_skips he hp hdue hformat hlayer hhandle hroom

end Sys2Proof.Machine
end

section
/-! PROOFS. The Viewport's entries, records, training and latch point: what its operations change, and what is read after them (R232 to R235, R242,
R244, R249). -/

namespace Sys2Proof.Machine

/-! ### Entries, records, parts -/

theorem Dev.vpEvent_only (d : Dev) (kind obj a b : Nat) : d.changesOnly [.out, .ctr] eventPlaces (d.vpEvent kind obj a b) := Dev.event_only ..

theorem Dev.w0_only (d : Dev) (ix v : Nat) : d.changesOnly [] [ix] (d.w0 ix v) := Dev.wr_only ..
theorem Dev.inc0_only (d : Dev) (ix k : Nat) : d.changesOnly [.ctr] [ix] (d.inc0 ix k) := Dev.inc_only ..
theorem Dev.inc0_counted (d : Dev) (ix k : Nat) : d.counted (d.inc0 ix k) ix 0 0 k := Dev.inc_counted ..

/-- An entry of one byte reads the number written to it. -/
theorem Dev.rd_w0_byte (d : Dev) {ix v : Nat} (hty : typeOf ix 0 = 5) (hv : v < 256) : (d.w0 ix v).rd ix 0 0 = v :=
  Dev.rd_wr_fits (n := 0) d 0 (by rw [hty]; rfl) (by rw [hty]; rfl) (by simpa using hv)

theorem typeOf_vpLinkState : typeOf Ix.vpLinkState 0 = 5 := by decide
theorem typeOf_vpEnable : typeOf Ix.vpEnable 0 = 5 := by decide

theorem Dev.rd_linkState (d : Dev) {v : Nat} (hv : v < 256) : (d.w0 Ix.vpLinkState v).rd Ix.vpLinkState 0 0 = v :=
  d.rd_w0_byte typeOf_vpLinkState hv

/-- An event takes the next number of its island's sequence. -/
theorem Dev.event_seq (d : Dev) (isl tag kind obj time a b : Nat) :
    (d.event isl tag kind obj time a b).out.seqs.get 0 isl = wrap48 (d.out.seqs.get 0 isl + 1) := by
  rw [Dev.event, Dev.emit_out_seqs]
  exact Tab.get_set_same ..

theorem Dev.changesOnly.long {pl : List Part} {ps : List Nat} {d e : Dev} (h : d.changesOnly pl ps e) (hp : Part.long ∉ pl) : e.long = d.long :=
  (h.1 .long hp (by decide)).symm

/-- A wake source that wakes nothing changes nothing. -/
theorem Dev.wake_of_nothing {d : Dev} {k : Nat} (h : d.wakesNothing k) : d.wake k = d := by
  unfold Dev.wake
  rcases h with hmask | ⟨hentering, hawake⟩
  · rw [hmask]; rfl
  · rw [hentering]
    split
    · rfl
    · refine (if_neg Bool.false_ne_true).trans (if_neg ?_)
      rcases hawake with hstate | hwaking
      · rw [decide_eq_false hstate]
        exact Bool.false_ne_true
      · rw [← Option.not_isSome, hwaking, Bool.not_true, Bool.and_false]
        exact Bool.false_ne_true

/-! ### Training (R233) -/

/-- No bits per component carry the mode, or there is no mode: the link is dark, and a code says so. -/
def Dev.linkDark (d : Dev) : Dev := ({ d with vp := { d.vp with attempt := none } }.w0 Ix.vpLinkState 4).raise 4 Code.modeUnsupported

/-- An attempt is under way: a mode at a rate, with lanes, at some bits per component. -/
def Dev.linkTries (d : Dev) (mode : Nat) (c : Nat × Nat) (bpc : Nat) : Dev :=
  { d with vp := { d.vp with attempt := some (mode, c.1, c.2, bpc) } }.w0 Ix.vpLinkState 2

/-- The timing generator takes the mode that is selected. -/
def Dev.takesMode (d : Dev) : Dev := { d with vp := { d.vp with modeNow := d.pickMode } }

section
variable (d : Dev)

theorem Dev.linkDark_before : d.changesOnly [.vp] [Ix.vpLinkState] ({ d with vp := { d.vp with attempt := none } }.w0 Ix.vpLinkState 4) :=
  Dev.changesOnly_trans (pl := [.vp]) (ps := []) (Dev.vp_only ..) (Dev.w0_only ..)

theorem Dev.linkDark_only : d.changesOnly (.vp :: codeParts) (Ix.vpLinkState :: codePlaces) d.linkDark :=
  Dev.changesOnly_trans d.linkDark_before (Dev.raise_only ..)

theorem Dev.linkDark_vp : d.linkDark.vp = { d.vp with attempt := none } := (Dev.raise_only ..).vp (by decide)

theorem Dev.rd_linkDark : d.linkDark.rd Ix.vpLinkState 0 0 = 4 := by
  rw [Dev.linkDark, (Dev.raise_only ..).rd _ _ (by decide)]
  exact Dev.rd_linkState _ (by decide)

theorem Dev.linkDark_reports (hroom : d.sup.emergencies.length < 32) : d.linkDark.reports 4 Code.modeUnsupported :=
  Dev.raise_places _ 4 Code.modeUnsupported (by rwa [d.linkDark_before.sup (by decide)]) (by decide) (by decide)

theorem Dev.linkTries_only (mode : Nat) (c : Nat × Nat) (bpc : Nat) : d.changesOnly [.vp] [Ix.vpLinkState] (d.linkTries mode c bpc) :=
  Dev.changesOnly_trans (pl := [.vp]) (ps := []) (Dev.vp_only ..) (Dev.w0_only ..)

theorem Dev.rd_linkTries (mode : Nat) (c : Nat × Nat) (bpc : Nat) : (d.linkTries mode c bpc).rd Ix.vpLinkState 0 0 = 2 :=
  Dev.rd_linkState _ (by decide)

theorem Dev.takesMode_only : d.changesOnly [.vp] [] d.takesMode := Dev.vp_only ..

end

theorem Dev.tryLink_nil (d : Dev) (mode : Nat) : d.tryLink mode [] = d.linkDark := rfl

theorem Dev.tryLink_carried {d : Dev} {mode b : Nat} {c : Nat × Nat} (h : d.pickLink (d.timing mode).1 b = some c) (r : List Nat) :
    d.tryLink mode (b :: r) = d.linkTries mode c b := by
  rw [Dev.tryLink, h]
  rfl

/-- Off, or without a sink, the timing generator only takes the mode. -/
theorem Dev.train_idle {d : Dev} (h : d.n0 Ix.vpEnable = 0 ∨ d.vp.plugged = false) : d.train = d.takesMode := by
  refine if_pos ?_
  rcases h with h | h
  · simp only [Dev.n0] at h ⊢
    simp [h]
  · simp [h]

section
variable {d : Dev} (hon : d.n0 Ix.vpEnable ≠ 0) (hplug : d.vp.plugged = true)
include hon hplug

/-- On, with a sink, a link is sought for the mode that the timing generator has taken, if there is one. -/
theorem Dev.train_on : d.train = if d.pickMode = 0 then d.takesMode.linkDark else d.takesMode.tryLink d.pickMode (bpcBelow (d.n0 Ix.vpBpc)) := by
  refine if_neg ?_
  simp only [Dev.n0] at hon ⊢
  simp [hon, hplug]

theorem Dev.train_noMode (hmode : d.pickMode = 0) : d.train = d.takesMode.linkDark := by
  rw [Dev.train_on hon hplug, if_pos hmode]

theorem Dev.train_tries {c : Nat × Nat} (hmode : d.pickMode ≠ 0) (hbpc : d.n0 Ix.vpBpc = 10)
    (hpick : d.pickLink (d.timing d.pickMode).1 10 = some c) : d.train = d.takesMode.linkTries d.pickMode c 10 := by
  rw [Dev.train_on hon hplug, if_neg hmode, hbpc]
  exact Dev.tryLink_carried (d := d.takesMode) hpick [8, 6]

end

/-! ### Handles at a latch point (R242) -/

/-- A device whose Viewport's handles have turned: their reports and records, what is allocated and what is to be freed, and nothing else. -/
def Dev.handlesTurn (d a : Dev) : Prop :=
  d.changesOnly [.vp, .out, .ctr] (handlePlaces ++ eventPlaces) a ∧
    a.vp = { d.vp with handles := a.vp.handles, freeing := a.vp.freeing }

theorem Dev.handlesTurn.trans {a b c : Dev} (h : a.handlesTurn b) (h' : b.handlesTurn c) : a.handlesTurn c := by
  obtain ⟨hframe, hvp⟩ := h
  obtain ⟨hframe', hvp'⟩ := h'
  refine ⟨Dev.changesOnly_step hframe hframe', ?_⟩
  rw [hvp] at hvp'
  exact hvp'

/-- Reports and records of handles. -/
theorem Dev.handlesTurn.of_only {d a : Dev} (h : d.changesOnly [.out, .ctr] (handlePlaces ++ eventPlaces) a) : d.handlesTurn a :=
  ⟨Dev.changesOnly_mono h (by decide) (by decide), by rw [h.vp (by decide)]⟩

/-- A handle's buffer is described anew, and its entry is free again. -/
def Dev.handlePut (d : Dev) (k : Nat) (h : HandleSt) : Dev := { d with vp := { d.vp with handles := d.vp.handles.put k h } }
def Dev.handleDrop (d : Dev) (k : Nat) : Dev :=
  { d with vp := { d.vp with handles := d.vp.handles.del k, freeing := d.vp.freeing.filter (fun x => x != k) } }

theorem Dev.handlesTurn_put (d : Dev) (k : Nat) (h : HandleSt) : d.handlesTurn (d.handlePut k h) :=
  ⟨Dev.changesOnly_mono (Dev.vp_only ..) (by decide) (by decide), rfl⟩

theorem Dev.handlesTurn_drop (d : Dev) (k : Nat) : d.handlesTurn (d.handleDrop k) :=
  ⟨Dev.changesOnly_mono (Dev.vp_only ..) (by decide) (by decide), rfl⟩

theorem Dev.handlesTurn_state (d : Dev) (i v : Nat) : d.handlesTurn (d.wI Ix.vpHandleState i v) :=
  .of_only (Dev.changesOnly_mono (Dev.wI_only ..) (by decide) (by decide))

theorem Dev.handlesTurn_event (d : Dev) (kind obj a b : Nat) : d.handlesTurn (d.vpEvent kind obj a b) :=
  .of_only (Dev.changesOnly_mono (Dev.vpEvent_only ..) (by decide) (by decide))

/-- A handle that is free again is reported, its release recorded. -/
theorem Dev.handlesTurn_released (d : Dev) (k id last : Nat) :
    d.handlesTurn ((((d.handleDrop k).handleReport k 0).vpEvent 0x02 k id last).poolReport) :=
  (d.handlesTurn_drop k).trans (.trans (.of_only (Dev.changesOnly_mono (Dev.handleReport_only ..) (by decide) (by decide)))
    ((Dev.handlesTurn_event ..).trans (.of_only (Dev.changesOnly_mono (Dev.poolReport_only _) (by decide) (by decide)))))

/-- The last frame that showed a buffer is one that ends with it in scan. -/
def HandleSt.scanned (h : HandleSt) (shown : Bool) (frame : Nat) : HandleSt := if shown then { h with lastScan := frame } else h

/-- At a latch point handles enter and leave scan, and are released. -/
theorem Dev.releaseHandles_turn (d : Dev) (before : List Nat) : d.handlesTurn (d.releaseHandles before) := by
  refine List.foldlRecOn (motive := d.handlesTurn) _ _ (.of_only (Dev.changesOnly_refl ..)) fun a ha k _ => ?_
  dsimp only
  split
  · exact ha
  · next h _ =>
    refine ha.trans (.trans (a.handlesTurn_put k (h.scanned (before.contains (a.vp.generations.get 0 k * 65536 + k)) (d.n0 Ix.vpFrame))) ?_)
    split
    · split
      · exact .of_only (Dev.changesOnly_refl ..)
      · exact Dev.handlesTurn_released ..
    · split
      · exact Dev.handlesTurn_state ..
      · split
        · exact (Dev.handlesTurn_state ..).trans (Dev.handlesTurn_event ..)
        · exact .of_only (Dev.changesOnly_refl ..)

/-! ### The latch point (R244, R245) -/

/-- Each roll ring's head is the newest line that is written. -/
def VpSt.headsFixed (x : VpSt) : Tab RollSt := x.rolls.map fun r => (r.1, { r.2 with head := r.2.done })

/-- The Viewport at a latch point, its commits taken to be applied. -/
def Dev.latches (d : Dev) : Dev := { d with vp := { d.vp with latched := true, committed := [] } }

/-- The heads of the roll rings are fixed. -/
def Dev.headsFix (d : Dev) : Dev := { d with vp := { d.vp with rolls := d.vp.headsFixed } }

theorem Dev.latch_applies {d : Dev} (h : d.vp.suspended = false) :
    d.latch = (d.vp.committed.foldl (fun (a : Dev) c => a.applyPart c) d.latches).headsFix.releaseHandles d.shownHandles := by
  unfold Dev.latch
  exact if_neg (by rw [h]; exact Bool.false_ne_true)

/-- With nothing committed a latch point fixes heads and turns handles. -/
theorem Dev.latch_ofNone {d : Dev} (hs : d.vp.suspended = false) (hc : d.vp.committed = []) :
    d.latch = d.latches.headsFix.releaseHandles d.shownHandles := by
  rw [Dev.latch_applies hs, hc]
  rfl

theorem Dev.latch_suspended {d : Dev} (h : d.vp.suspended = true) : d.latch = { d with vp := { d.vp with latched := true } } := by
  unfold Dev.latch
  dsimp only
  rw [if_pos h]

/-- A latch point with nothing committed: its frame, and what of the Viewport it leaves. -/
theorem Dev.latch_only {d : Dev} (hc : d.vp.committed = []) : d.changesOnly [.vp, .out, .ctr] (handlePlaces ++ eventPlaces) d.latch ∧
    ∃ handles freeing rolls, d.latch.vp = { d.vp with latched := true, handles := handles, freeing := freeing, rolls := rolls } := by
  cases hs : d.vp.suspended with
  | true =>
    rw [Dev.latch_suspended hs]
    exact ⟨Dev.changesOnly_mono (Dev.vp_only ..) (by decide) (by decide), _, _, _, rfl⟩
  | false =>
    obtain ⟨hframe, hvp⟩ := Dev.releaseHandles_turn d.latches.headsFix d.shownHandles
    rw [Dev.latch_ofNone hs hc]
    generalize d.latches.headsFix.releaseHandles d.shownHandles = a at hframe hvp
    have hfixed : d.latches.headsFix.vp = { d.vp with latched := true, rolls := d.vp.headsFixed } :=
      congrArg (fun c => { d.vp with latched := true, committed := c, rolls := d.vp.headsFixed }) hc.symm
    rw [hfixed] at hvp
    exact ⟨Dev.changesOnly_step (Dev.changesOnly_mono (Dev.changesOnly_trans (pl := [.vp]) (ps := []) (Dev.vp_only ..) (Dev.vp_only ..))
      (by decide) (by decide)) hframe, a.vp.handles, a.vp.freeing, d.vp.headsFixed, hvp⟩

end Sys2Proof.Machine
end

section
/-! PROOFS. The display link and its frames: the sink, training, the timing generator, aborted frames, the read-back, faults, and what settles O29
(R232 to R235, R248 to R250). -/

namespace Sys2Proof.Machine

theorem exec_hpdPlug (t rate lanes kHz htotal vtotal : Nat) (listed : List Nat) (edid : List Byte) (s : State) :
    exec (.hpdPlug t rate lanes kHz htotal vtotal listed edid) s = execHpdPlug t rate lanes kHz htotal vtotal listed edid s := rfl
theorem exec_hpdIrq (t low : Nat) (lost : Bool) (s : State) : exec (.hpdIrq t low lost) s = execHpdIrq t low lost s := rfl
theorem exec_hpdUnplug (t : Nat) (s : State) : exec (.hpdUnplug t) s = execHpdUnplug t s := rfl
theorem exec_dpLinkTrained (t : Nat) (ok : Bool) (s : State) : exec (.dpLinkTrained t ok) s = execDpLinkTrained t ok s := rfl
theorem exec_vpEnable (t path v : Nat) (s : State) : exec (.vpEnable t path v) s = execVpEnable t path v s := rfl
theorem exec_displayFrameStart (t ecc : Nat) (s : State) : exec (.displayFrameStart t ecc) s = execDisplayFrameStart t ecc s := rfl
theorem exec_readbackCheck (t r g b : Nat) (s : State) : exec (.readbackCheck t r g b) s = execReadbackCheck t r g b s := rfl
theorem exec_vpUnderrun (t layer line : Nat) (s : State) : exec (.vpUnderrun t layer line) s = execVpUnderrun t layer line s := rfl
theorem exec_composerFault (t : Nat) (s : State) : exec (.composerFault t) s = execComposerFault t s := rfl
theorem exec_paletteEccError (t : Nat) (s : State) : exec (.paletteEccError t) s = execPaletteEccError t s := rfl

/-! ### The sink is plugged, interrupts, is unplugged (R233, R234) -/

/-- A sink is there, with its rates, lanes and preferred row, the rows it lists, and its EDID. -/
def Dev.sinkFound (d : Dev) (rate lanes row : Nat) (listed : List Nat) (edid : List Byte) : Dev :=
  { d with
    vp := { d.vp with plugged := true, sinkRate := rate, sinkLanes := lanes, preferred := row, listed := listed }
    long := d.long.set [] (ekey Ix.vpEdid 0 0) (edid.take 512) }

theorem Dev.sinkFound_only (d : Dev) (rate lanes row : Nat) (listed : List Nat) (edid : List Byte) :
    d.changesOnly [.vp, .long] [] (d.sinkFound rate lanes row listed edid) :=
  ⟨fun p hp h => by cases p <;> first | rfl | exact absurd rfl h | simp at hp, fun _ _ _ _ => rfl⟩

/-- The event of a plugged, interrupting or unplugged sink: what happened, and the link's state after it. -/
def Dev.hpdTold (d : Dev) (what : Nat) : Dev := d.vpEvent 0x06 0 what (d.n0 Ix.vpLinkState)

theorem Dev.hpdTold_only (d : Dev) (what : Nat) : d.changesOnly [.out, .ctr] eventPlaces (d.hpdTold what) := Dev.vpEvent_only ..

/-- The sink is away, and its training with it. -/
def Dev.sinkGone (d : Dev) : Dev := { d with vp := { d.vp with plugged := false, attempt := none } }

theorem Dev.sinkGone_only (d : Dev) : d.changesOnly [.vp] [] d.sinkGone := Dev.vp_only ..

/-- The lanes of a timing generator that runs are idle. -/
def Dev.lanesIdle (d : Dev) : Dev := if d.n0 Ix.vpEnable = 1 then d.w0 Ix.vpLinkState 1 else d

theorem Dev.lanesIdle_only (d : Dev) : d.changesOnly [] [Ix.vpLinkState] d.lanesIdle :=
  Dev.changesOnly_ite (fun _ => Dev.w0_only ..) fun _ => Dev.changesOnly_refl ..

section
variable {t rate lanes khz ht vt : Nat} {listed : List Nat} {edid : List Byte} {s : State} {e : Dev} (he : e = s.dev.at t)
  (hplug : e.vp.plugged = false) (hwake : e.wakesNothing 4)
include he hplug hwake

/-- A sink is plugged while nothing is to be woken: it is found, and its link trained. -/
theorem completes_hpdPlug {x : Dev} {pl : List Part} {ps : List Nat} {post : Dev → Prop}
    (hx : (e.sinkFound rate lanes (rowNear khz ht vt) listed edid).train = x)
    (honly : (e.sinkFound rate lanes (rowNear khz ht vt) listed edid).changesOnly pl ps x) (hpost : post (x.hpdTold 1))
    {ql : List Part} {qs : List Nat} (hpl : ∀ p ∈ [.vp, .long] ++ (pl ++ [.out, .ctr]), p ∈ ql := by decide)
    (hps : ∀ y ∈ ps ++ eventPlaces, y ∈ qs := by decide) :
    Completes (.hpdPlug t rate lanes khz ht vt listed edid) t s ql qs post := by
  subst he hx
  refine completes_of_eq (exec_hpdPlug ..) ((if_neg (by rw [hplug]; exact Bool.false_ne_true)).trans ?_)
    (Dev.changesOnly_mono (Dev.changesOnly_trans (Dev.sinkFound_only ..) (Dev.changesOnly_trans honly (Dev.hpdTold_only _ 1))) hpl hps) hpost
  rw [Dev.wake_of_nothing hwake]
  rfl

theorem hpdPlug_found (hoff : e.n0 Ix.vpEnable = 0) :
    Completes (.hpdPlug t rate lanes khz ht vt listed edid) t s [.vp, .long, .out, .ctr] eventPlaces fun d =>
      d.vp.plugged = true ∧ d.vp.sinkRate = rate ∧ d.vp.sinkLanes = lanes ∧ d.vp.preferred = rowNear khz ht vt ∧ d.vp.listed = listed ∧
      d.long.get [] (ekey Ix.vpEdid 0 0) = edid.take 512 := by
  refine completes_hpdPlug he hplug hwake (Dev.train_idle (.inl hoff)) (Dev.takesMode_only _) ?_
  rw [(Dev.hpdTold_only ..).vp (by decide), (Dev.hpdTold_only ..).long (by decide)]
  exact ⟨rfl, rfl, rfl, rfl, rfl, Tab.get_set_same ..⟩

theorem hpdPlug_tries {c : Nat × Nat} (hon : e.n0 Ix.vpEnable = 1) (hmode : e.n0 Ix.vpMode = 0) (hrow : rowNear khz ht vt ≠ 0)
    (hbpc : e.n0 Ix.vpBpc = 10)
    (hpick : { e with vp := { e.vp with sinkRate := rate, sinkLanes := lanes } }.pickLink (e.timing (rowNear khz ht vt)).1 10 = some c) :
    Completes (.hpdPlug t rate lanes khz ht vt listed edid) t s [.vp, .long, .out, .ctr] (Ix.vpLinkState :: eventPlaces) fun d =>
      d.rd Ix.vpLinkState 0 0 = 2 ∧ d.vp.attempt = some (rowNear khz ht vt, c.1, c.2, 10) ∧ d.vp.modeNow = rowNear khz ht vt := by
  have hfound := e.sinkFound_only rate lanes (rowNear khz ht vt) listed edid
  have hpicked : (e.sinkFound rate lanes (rowNear khz ht vt) listed edid).pickMode = rowNear khz ht vt := by
    rw [Dev.pickMode, hfound.n0 (by decide), hmode]
    exact if_pos (bne_iff_ne.2 hrow)
  have htrain := Dev.train_tries (c := c) (by rw [hfound.n0 (by decide), hon]; exact one_ne_zero) rfl (by rwa [hpicked])
    (by rw [hfound.n0 (by decide), hbpc]) (by rwa [hpicked])
  refine completes_hpdPlug he hplug hwake htrain (Dev.changesOnly_trans (Dev.takesMode_only _) (Dev.linkTries_only ..)) ?_
  rw [(Dev.hpdTold_only ..).rd _ _ (by decide), (Dev.hpdTold_only ..).vp (by decide), Dev.rd_linkTries, hpicked]
  exact ⟨rfl, rfl, hpicked⟩

end

section
variable {t low : Nat} {s : State} {e : Dev} (he : e = s.dev.at t) (hplug : e.vp.plugged = true)
include he hplug

/-- A pulse of the sink that is an interrupt. -/
theorem exec_hpdIrq_pulse (h250 : 250 ≤ low) (h2000 : low ≤ 2000) (lost : Bool) :
    exec (.hpdIrq t low lost) s = .next { s with dev := (if lost || e.n0 Ix.vpLinkState = 2 then e.train else e).hpdTold 2 } := by
  subst he
  rw [exec_hpdIrq, execHpdIrq, run, if_pos (by rw [hplug, decide_eq_true h250, decide_eq_true h2000]; rfl)]
  rfl

theorem hpdIrq_told (h250 : 250 ≤ low) (h2000 : low ≤ 2000) (hst : e.n0 Ix.vpLinkState ≠ 2) :
    Completes (.hpdIrq t low false) t s [.out, .ctr] eventPlaces fun d => d.out.seqs.get 0 6 = wrap48 (e.out.seqs.get 0 6 + 1) := by
  have hexec := exec_hpdIrq_pulse he hplug h250 h2000 false
  rw [if_neg (by rw [decide_eq_false hst]; exact Bool.false_ne_true)] at hexec
  exact ⟨_, hexec, he ▸ e.hpdTold_only 2, Dev.event_seq ..⟩

theorem hpdIrq_noMode (h250 : 250 ≤ low) (h2000 : low ≤ 2000) (hon : e.n0 Ix.vpEnable ≠ 0) (hmode : e.pickMode = 0)
    (hroom : e.sup.emergencies.length < 32) :
    Completes (.hpdIrq t low true) t s (.vp :: .out :: codeParts) (Ix.vpLinkState :: (eventPlaces ++ codePlaces)) fun d =>
      d.rd Ix.vpLinkState 0 0 = 4 ∧ d.vp.attempt = none ∧ d.reports 4 Code.modeUnsupported := by
  have hexec := exec_hpdIrq_pulse he hplug h250 h2000 true
  rw [Bool.true_or, if_pos rfl, Dev.train_noMode hon hplug hmode] at hexec
  have htold := e.takesMode.linkDark.hpdTold_only 2
  refine ⟨_, hexec, he ▸ Dev.changesOnly_mono (Dev.changesOnly_trans e.takesMode_only (Dev.changesOnly_trans (Dev.linkDark_only _) htold))
    (by decide) (by decide), ?_, ?_, htold.reports (Dev.linkDark_reports _ hroom)⟩
  · rw [htold.rd _ _ (by decide), Dev.rd_linkDark]
  · rw [htold.vp (by decide), Dev.linkDark_vp]

theorem hpdUnplug_idles :
    Completes (.hpdUnplug t) t s [.vp, .out, .ctr] (Ix.vpLinkState :: eventPlaces) fun d =>
      d.vp = { e.vp with plugged := false, attempt := none } ∧ (e.n0 Ix.vpEnable = 1 → d.rd Ix.vpLinkState 0 0 = 1) := by
  have hgone := e.sinkGone_only
  have hidle := e.sinkGone.lanesIdle_only
  subst he
  refine completes_of_eq (exec_hpdUnplug ..) (x := (s.dev.at t).sinkGone.lanesIdle.hpdTold 0) (if_pos hplug)
    (Dev.changesOnly_mono (Dev.changesOnly_trans hgone (Dev.changesOnly_trans hidle (Dev.hpdTold_only _ 0))) (by decide) (by decide)) ⟨?_, fun hon => ?_⟩
  · rw [(Dev.hpdTold_only ..).vp (by decide), hidle.vp (by decide)]
    rfl
  · rw [(Dev.hpdTold_only ..).rd _ _ (by decide), Dev.lanesIdle, if_pos ((hgone.n0 (by decide)).trans hon)]
    exact Dev.rd_linkState _ (by decide)

end

/-! ### A training attempt ends (R233) -/

/-- The link is active. -/
def Dev.linkTrained (d : Dev) (mode rate lanes : Nat) : Dev :=
  ({ d with vp := { d.vp with attempt := none, mismatches := 0 } }.w0 Ix.vpLinkState 3).w0 Ix.vpLinkConfig (mode * 256 + rate * 16 + lanes)

theorem Dev.linkTrained_only (d : Dev) (mode rate lanes : Nat) :
    d.changesOnly [.vp] [Ix.vpLinkState, Ix.vpLinkConfig] (d.linkTrained mode rate lanes) :=
  Dev.changesOnly_trans (pl := [.vp]) (ps := [Ix.vpLinkState]) (Dev.changesOnly_trans (pl := [.vp]) (ps := []) (Dev.vp_only ..) (Dev.w0_only ..))
    (Dev.w0_only ..)

section
variable {t mode rate lanes bpc : Nat} {s : State} {e : Dev} (he : e = s.dev.at t) (htry : e.vp.attempt = some (mode, rate, lanes, bpc))
include he htry

theorem dpLinkTrained_active :
    Completes (.dpLinkTrained t true) t s [.vp, .out, .ctr] (Ix.vpLinkState :: Ix.vpLinkConfig :: eventPlaces) fun d =>
      d.vp = { e.vp with attempt := none, mismatches := 0 } ∧ d.rd Ix.vpLinkState 0 0 = 3 ∧
      d.rd Ix.vpLinkConfig 0 0 = normTy (typeOf Ix.vpLinkConfig 0) (mode * 256 + rate * 16 + lanes : Nat) := by
  subst he
  have htold := ((s.dev.at t).linkTrained mode rate lanes).vpEvent_only 0x07 0 mode (bpc * 256 + rate * 16 + lanes)
  refine completes_of_eq (exec_dpLinkTrained ..) (by rw [htry]; rfl) (Dev.changesOnly_trans (Dev.linkTrained_only ..) htold) ?_
  rw [htold.vp (by decide), htold.rd _ _ (by decide), htold.rd _ _ (by decide)]
  refine ⟨rfl, ?_, Dev.rd_wr_same ..⟩
  rw [Dev.linkTrained, (Dev.w0_only ..).rd _ _ (by decide)]
  exact Dev.rd_linkState _ (by decide)

/-- An attempt at the fewest bits per component fails: none is left. -/
theorem dpLinkTrained_dark (hbpc : bpc = 6) (hroom : e.sup.emergencies.length < 32) :
    Completes (.dpLinkTrained t false) t s (.vp :: codeParts) (Ix.vpLinkState :: codePlaces) fun d =>
      d.vp.attempt = none ∧ d.rd Ix.vpLinkState 0 0 = 4 ∧ d.reports 4 Code.modeUnsupported := by
  subst he hbpc
  refine completes_of_eq (exec_dpLinkTrained ..) (x := (s.dev.at t).linkDark) (by rw [htry]; rfl) (Dev.linkDark_only _)
    ⟨?_, Dev.rd_linkDark _, Dev.linkDark_reports _ hroom⟩
  rw [Dev.linkDark_vp]

end

/-! ### The timing generator (R235) -/

/-- The generator is switched: its entry, the state of the link, the state of its island, and what of the Viewport is as it is then. -/
def Dev.timingSet (d : Dev) (v link island : Nat) (x : VpSt) : Dev :=
  ({ d.w0 Ix.vpEnable v with vp := x }.w0 Ix.vpLinkState link).setIslState 6 island

theorem Dev.rd_setIslState_viewport (d : Dev) {v : Nat} (hv : v < 256) : (d.setIslState 6 v).nI Ix.pwrIslState 5 = v := by
  unfold Dev.setIslState
  dsimp only
  split
  · assumption
  · refine Dev.nI_of_rd ?_
    rw [(Dev.pwrEvent_only ..).rd _ _ (by decide)]
    exact Dev.rd_wr_fits (n := 0) _ 0 (by decide) (by decide) (by simpa using hv)

section
variable (d : Dev) (v link island : Nat) (x : VpSt)

theorem Dev.timingSet_before : d.changesOnly [.vp] [Ix.vpEnable, Ix.vpLinkState] ({ d.w0 Ix.vpEnable v with vp := x }.w0 Ix.vpLinkState link) :=
  Dev.changesOnly_trans (pl := [.vp]) (ps := [Ix.vpEnable]) (Dev.changesOnly_trans (pl := []) (Dev.w0_only ..) (Dev.vp_only ..)) (Dev.w0_only ..)

theorem Dev.timingSet_only :
    d.changesOnly [.vp, .out, .ctr] (Ix.vpEnable :: Ix.vpLinkState :: Ix.pwrIslState :: eventPlaces) (d.timingSet v link island x) :=
  Dev.changesOnly_trans (d.timingSet_before v link x) (Dev.setIslState_only ..)

theorem Dev.timingSet_vp : (d.timingSet v link island x).vp = x := (Dev.setIslState_only ..).vp (by decide)

theorem Dev.rd_timingSet (hv : v < 256) (hl : link < 256) (hi : island < 256) : (d.timingSet v link island x).rd Ix.vpEnable 0 0 = v ∧
    (d.timingSet v link island x).rd Ix.vpLinkState 0 0 = link ∧ (d.timingSet v link island x).nI Ix.pwrIslState 5 = island := by
  refine ⟨?_, ?_, Dev.rd_setIslState_viewport _ hi⟩
  · rw [Dev.timingSet, (Dev.setIslState_only ..).rd _ _ (by decide), (Dev.w0_only ..).rd _ _ (by decide)]
    exact d.rd_w0_byte typeOf_vpEnable hv
  · rw [Dev.timingSet, (Dev.setIslState_only ..).rd _ _ (by decide)]
    exact Dev.rd_linkState _ hl

end

/-- Switched on without a sink: the first frame is yet to begin, and the lanes are idle. -/
theorem Dev.vpEnable_on {d : Dev} (hoff : d.n0 Ix.vpEnable = 0) (hplug : d.vp.plugged = false) :
    d.vpEnable 1 = (d.timingSet 1 1 0 { d.vp with latched := true }).takesMode := by
  unfold Dev.vpEnable
  dsimp only
  rw [if_pos (by rw [hoff]; rfl)]
  exact Dev.train_idle (.inr ((congrArg VpSt.plugged (d.timingSet_vp 1 1 0 _)).trans hplug))

theorem Dev.vpEnable_off {d : Dev} (hon : d.n0 Ix.vpEnable = 1) : d.vpEnable 0 = d.timingSet 0 0 2 { d.vp with attempt := none } := by
  unfold Dev.vpEnable
  dsimp only
  rw [if_neg (fun h => absurd (Bool.and_eq_true_iff.1 h).1 (by decide)), if_pos (by rw [hon]; rfl)]
  rfl

section
variable {t path : Nat} {s : State} {e : Dev} (he : e = s.dev.at t) (hr : e.reaches path Ix.vpEnable)
include he hr

theorem vpEnable_switchesOn (hoff : e.n0 Ix.vpEnable = 0) (hplug : e.vp.plugged = false) :
    Completes (.vpEnable t path 1) t s (.vp :: .out :: requestParts)
      (Ix.vpEnable :: Ix.vpLinkState :: Ix.pwrIslState :: (eventPlaces ++ requestPlaces)) fun d =>
      d.rd Ix.vpEnable 0 0 = 1 ∧ d.rd Ix.vpLinkState 0 0 = 1 ∧ d.nI Ix.pwrIslState 5 = 0 ∧ d.vp.latched = true := by
  subst he
  have hacc := (s.dev.at t).accept_only path Ix.vpEnable 0
  have hset := ((s.dev.at t).accept path Ix.vpEnable 0).timingSet_only 1 1 0 { ((s.dev.at t).accept path Ix.vpEnable 0).vp with latched := true }
  have hmode := Dev.takesMode_only (((s.dev.at t).accept path Ix.vpEnable 0).timingSet 1 1 0
    { ((s.dev.at t).accept path Ix.vpEnable 0).vp with latched := true })
  refine completes_command (exec_vpEnable ..) hr ((if_neg (by decide)).trans (Dev.vpEnable_on ((hacc.n0 (by decide)).trans hoff)
    ((congrArg VpSt.plugged (hacc.vp (by decide))).trans hplug))) (Dev.changesOnly_trans hset hmode) ?_
  obtain ⟨hen, hlink, hisl⟩ := ((s.dev.at t).accept path Ix.vpEnable 0).rd_timingSet 1 1 0
    { ((s.dev.at t).accept path Ix.vpEnable 0).vp with latched := true } (by decide) (by decide) (by decide)
  rw [(Dev.served_only ..).rd _ _ (by decide), (Dev.served_only ..).rd _ _ (by decide), (Dev.served_only ..).nI (by decide), Dev.served_vp,
    hmode.rd _ _ (by decide), hmode.rd _ _ (by decide), hmode.nI (by decide)]
  exact ⟨hen, hlink, hisl, congrArg VpSt.latched (Dev.timingSet_vp ..)⟩

theorem vpEnable_switchesOff (hon : e.n0 Ix.vpEnable = 1) :
    Completes (.vpEnable t path 0) t s (.vp :: .out :: requestParts)
      (Ix.vpEnable :: Ix.vpLinkState :: Ix.pwrIslState :: (eventPlaces ++ requestPlaces)) fun d =>
      d.rd Ix.vpEnable 0 0 = 0 ∧ d.rd Ix.vpLinkState 0 0 = 0 ∧ d.nI Ix.pwrIslState 5 = 2 ∧ d.vp.attempt = none := by
  subst he
  have hacc := (s.dev.at t).accept_only path Ix.vpEnable 0
  refine completes_command (exec_vpEnable ..) hr ((if_neg (by decide)).trans (Dev.vpEnable_off ((hacc.n0 (by decide)).trans hon)))
    (Dev.timingSet_only ..) ?_
  obtain ⟨hen, hlink, hisl⟩ := ((s.dev.at t).accept path Ix.vpEnable 0).rd_timingSet 0 0 2
    { ((s.dev.at t).accept path Ix.vpEnable 0).vp with attempt := none } (by decide) (by decide) (by decide)
  rw [(Dev.served_only ..).rd _ _ (by decide), (Dev.served_only ..).rd _ _ (by decide), (Dev.served_only ..).nI (by decide), Dev.served_vp]
  exact ⟨hen, hlink, hisl, congrArg VpSt.attempt (Dev.timingSet_vp ..)⟩

theorem vpEnable_refused {v : Nat} (hpath : 1 ≤ path ∧ path ≤ 4) (hv : 1 < v) :
    Completes (.vpEnable t path v) t s requestParts requestPlaces fun d => d.reports path Code.valueRange ∧ d.vp = e.vp := by
  subst he
  obtain ⟨d, hexec, hframe, hrep⟩ := completes_refused (exec_vpEnable t path v s) hr hpath (if_pos hv)
  exact ⟨d, hexec, hframe, hrep, hframe.vp (by decide)⟩

end

/-! ### Frames, and frames that are aborted (R249, R250) -/

/-- An aborted frame is counted, and its event posted. -/
def Dev.abortCounted (d : Dev) (layer line : Nat) : Dev := (d.inc0 Ix.vpUnderruns).vpEvent 0x04 layer (d.n0 Ix.vpFrame) line

/-- UNDERRUN is raised at most once per second. -/
def Dev.underrunDue (d : Dev) : Bool := match d.vp.underrunRaised with | some r => decide (r + sec ≤ d.now) | none => true

/-- An aborted frame is not checked, and its code raised if it is due. -/
def Dev.abortNoted (d : Dev) : Dev :=
  { d with vp := { d.vp with formed := none, underrunRaised := if d.underrunDue then some d.now else d.vp.underrunRaised } }
def Dev.abortRaised (d : Dev) : Dev := if d.underrunDue then d.abortNoted.raise 4 Code.underrun else d.abortNoted

theorem Dev.abortFrame_eq (d : Dev) (layer line : Nat) : d.abortFrame layer line = (d.abortCounted layer line).abortRaised.latch := rfl

section
variable (d : Dev) (layer line : Nat)

theorem Dev.abortCounted_only : d.changesOnly [.out, .ctr] (Ix.vpUnderruns :: eventPlaces) (d.abortCounted layer line) :=
  Dev.changesOnly_mono (Dev.changesOnly_trans (Dev.inc0_only ..) (Dev.vpEvent_only ..)) (by decide) (by decide)

theorem Dev.abortCounted_counted : d.counted (d.abortCounted layer line) Ix.vpUnderruns 0 0 1 :=
  (Dev.inc0_counted ..).after (Dev.vpEvent_only ..) (by decide)

theorem Dev.abortRaised_only : d.changesOnly (.vp :: codeParts) codePlaces d.abortRaised :=
  Dev.changesOnly_ite (fun _ => Dev.changesOnly_trans (pl := [.vp]) (ps := []) (Dev.vp_only ..) (Dev.raise_only ..)) fun _ =>
    Dev.changesOnly_mono (Dev.vp_only ..) (by decide) (by decide)

theorem Dev.abortRaised_vp : d.abortRaised.vp = d.abortNoted.vp := by
  unfold Dev.abortRaised
  split
  · exact (Dev.raise_only ..).vp (by decide)
  · rfl

/-- What an aborted frame, its latch point with no commits, leaves of the Viewport, and what it changes. -/
theorem Dev.abortFrame_only (hc : d.vp.committed = []) :
    d.changesOnly (.vp :: .out :: codeParts) (Ix.vpUnderruns :: (handlePlaces ++ eventPlaces ++ codePlaces)) (d.abortFrame layer line) ∧
    (∃ handles freeing rolls, (d.abortFrame layer line).vp = { (d.abortCounted layer line).abortNoted.vp with
      latched := true, handles := handles, freeing := freeing, rolls := rolls }) ∧
    d.counted (d.abortFrame layer line) Ix.vpUnderruns 0 0 1 := by
  have hcount := d.abortCounted_only layer line
  have hraise := (d.abortCounted layer line).abortRaised_only
  obtain ⟨hlatch, hvp⟩ := Dev.latch_only (d := (d.abortCounted layer line).abortRaised)
    (by rw [Dev.abortRaised_vp, Dev.abortNoted, hcount.vp (by decide)]; exact hc)
  rw [Dev.abortRaised_vp] at hvp
  rw [Dev.abortFrame_eq]
  exact ⟨Dev.changesOnly_mono (Dev.changesOnly_trans hcount (Dev.changesOnly_trans hraise hlatch)) (by decide) (by decide), hvp,
    ((d.abortCounted_counted layer line).after hraise (by decide)).after hlatch (by decide)⟩

/-- The first underrun raises its code. -/
theorem Dev.abortFrame_raises (hc : d.vp.committed = []) (hfirst : d.vp.underrunRaised = none) (hroom : d.sup.emergencies.length < 32) :
    (d.abortFrame layer line).vp.underrunRaised = some d.now ∧ (d.abortFrame layer line).reports 4 Code.underrun := by
  have hcount := d.abortCounted_only layer line
  have hdue : (d.abortCounted layer line).underrunDue = true := by rw [Dev.underrunDue, hcount.vp (by decide), hfirst]
  obtain ⟨-, ⟨_, _, _, hvp⟩, -⟩ := d.abortFrame_only layer line hc
  obtain ⟨hlatch, -⟩ := Dev.latch_only (d := (d.abortCounted layer line).abortRaised)
    (by rw [Dev.abortRaised_vp, Dev.abortNoted, hcount.vp (by decide)]; exact hc)
  constructor
  · rw [hvp, Dev.abortNoted, hdue, hcount.now (by decide)]
    rfl
  · rw [Dev.abortFrame_eq]
    refine hlatch.reports ?_
    rw [Dev.abortRaised, if_pos hdue]
    exact Dev.raise_places _ 4 Code.underrun ((congrArg (fun x => x.emergencies.length) (hcount.sup (by decide))).trans_lt hroom) (by decide) (by decide)

end

theorem vpUnderrun_aborts {t layer line : Nat} {s : State} {e : Dev} (he : e = s.dev.at t) (hlayer : layer < 4) (hon : e.n0 Ix.vpEnable = 1)
    (hscan : e.vp.latched = false) (hc : e.vp.committed = []) (hfirst : e.vp.underrunRaised = none) (hroom : e.sup.emergencies.length < 32) :
    Completes (.vpUnderrun t layer line) t s (.vp :: .out :: codeParts) (Ix.vpUnderruns :: (handlePlaces ++ eventPlaces ++ codePlaces)) fun d =>
      e.counted d Ix.vpUnderruns 0 0 1 ∧ d.vp.latched = true ∧ d.vp.underrunRaised = some e.now ∧ d.reports 4 Code.underrun := by
  subst he
  obtain ⟨hframe, ⟨_, _, _, hvp⟩, hcounted⟩ := (s.dev.at t).abortFrame_only layer line hc
  obtain ⟨hraised, hrep⟩ := (s.dev.at t).abortFrame_raises layer line hc hfirst hroom
  exact completes_of_runIf (exec_vpUnderrun ..) (by simpa using hlayer) (if_pos (by rw [hon, hscan]; rfl)) hframe
    ⟨hcounted, congrArg VpSt.latched hvp, hraised, hrep⟩

/-- A frame begins while the composer runs. -/
theorem displayFrameStart_starts {t : Nat} {s : State} {e : Dev} (he : e = s.dev.at t) (hon : e.n0 Ix.vpEnable = 1) (hlatched : e.vp.latched = true)
    (hcomposer : e.vp.composerUntil ≤ e.now) :
    Completes (.displayFrameStart t 0) t s [.vp, .ctr] [Ix.vpFrame] fun d => d.vp = { e.vp with latched := false } ∧ e.counted d Ix.vpFrame 0 0 1 := by
  subst he
  have hbegun := (s.dev.at t).vp_only { (s.dev.at t).vp with latched := false }
  have hcount := Dev.inc0_only { s.dev.at t with vp := { (s.dev.at t).vp with latched := false } } Ix.vpFrame 1
  refine completes_of_eq (exec_displayFrameStart ..) ?_ (Dev.changesOnly_trans hbegun hcount)
    ⟨hcount.vp (by decide), hbegun.counted (by decide) (Dev.inc0_counted ..)⟩
  refine (if_pos (by rw [if_pos rfl, hon, hlatched]; rfl)).trans (if_neg ?_)
  rw [if_pos rfl, hcount.now (by decide), hcount.vp (by decide)]
  exact Nat.not_lt.2 hcomposer

/-! ### The read-back (R248) -/

/-- The CRCs received of the last frame are reported, and the frame is checked. -/
def Dev.crcsReceived (d : Dev) (l : List Nat) : Dev :=
  (List.range 3).foldl (fun (a : Dev) i => a.wI Ix.vpReadbackCrc i (l.getD i 0)) { d with vp := { d.vp with formed := none } }

theorem Dev.crcsReceived_reports (d : Dev) (l : List Nat) :
    { d with vp := { d.vp with formed := none } }.changesOnly [] [Ix.vpReadbackCrc] (d.crcsReceived l) :=
  Dev.changesOnly_foldl _ (fun _ _ => Dev.wI_only ..) _ _

theorem Dev.crcsReceived_only (d : Dev) (l : List Nat) : d.changesOnly [.vp] [Ix.vpReadbackCrc] (d.crcsReceived l) :=
  Dev.changesOnly_trans (pl := [.vp]) (ps := []) (Dev.vp_only ..) (d.crcsReceived_reports l)

theorem Dev.crcsReceived_vp (d : Dev) (l : List Nat) : (d.crcsReceived l).vp = { d.vp with formed := none } := (d.crcsReceived_reports l).vp (by decide)

theorem Dev.rd_crcsReceived (d : Dev) {r g b : Nat} (hr : r < 2 ^ 16) (hg : g < 2 ^ 16) (hb : b < 2 ^ 16) :
    (d.crcsReceived [r, g, b]).rd Ix.vpReadbackCrc 1 0 = r ∧ (d.crcsReceived [r, g, b]).rd Ix.vpReadbackCrc 2 0 = g ∧
      (d.crcsReceived [r, g, b]).rd Ix.vpReadbackCrc 3 0 = b := by
  have hread : ∀ k < 3, ∀ v < 2 ^ 16, normTy (typeOf Ix.vpReadbackCrc (k + 1)) (v : Nat) = v := fun k hk v hv => by
    have hty : ∀ k < 3, typeOf Ix.vpReadbackCrc (k + 1) = 6 := by decide
    exact normTy_fits (n := 1) (by rw [hty k hk]; rfl) (by rw [hty k hk]; rfl) hv
  simp only [Dev.crcsReceived, List.range, List.range.loop, List.foldl, List.getD_cons_zero, List.getD_cons_succ, Dev.wI, Dev.rd_wr]
  exact ⟨hread 0 (by decide) r hr, hread 1 (by decide) g hg, hread 2 (by decide) b hb⟩

/-- The CRCs agree: no mismatch has followed another. -/
def Dev.crcsAgree (d : Dev) (l : List Nat) : Dev := { d.crcsReceived l with vp := { (d.crcsReceived l).vp with mismatches := 0 } }

/-- They do not: the mismatch is one more in succession. -/
def Dev.crcsDiffer (d : Dev) (l : List Nat) : Dev :=
  { d.crcsReceived l with vp := { (d.crcsReceived l).vp with mismatches := (d.crcsReceived l).vp.mismatches + 1 } }

theorem Dev.crcsDiffer_only (d : Dev) (l : List Nat) : d.changesOnly [.vp] [Ix.vpReadbackCrc] (d.crcsDiffer l) :=
  Dev.changesOnly_step (d.crcsReceived_only l) (Dev.changesOnly_mono (Dev.vp_only ..) (by decide) (by decide))

theorem Dev.crcsDiffer_vp (d : Dev) (l : List Nat) : (d.crcsDiffer l).vp = { d.vp with mismatches := d.vp.mismatches + 1, formed := none } := by
  rw [Dev.crcsDiffer, Dev.crcsReceived_vp]

/-- A mismatch is counted, its event posted. -/
def Dev.mismatchTold (d : Dev) : Dev := (d.inc0 Ix.vpReadbackErrors).vpEvent 0x05 0 (d.n0 Ix.vpFrame) d.vp.mismatches

theorem Dev.mismatchTold_only (d : Dev) : d.changesOnly [.out, .ctr] (Ix.vpReadbackErrors :: eventPlaces) d.mismatchTold :=
  Dev.changesOnly_mono (Dev.changesOnly_trans (Dev.inc0_only ..) (Dev.vpEvent_only ..)) (by decide) (by decide)

theorem Dev.mismatchTold_counted (d : Dev) : d.counted d.mismatchTold Ix.vpReadbackErrors 0 0 1 :=
  (Dev.inc0_counted ..).after (Dev.vpEvent_only ..) (by decide)

theorem readbackCheck_agrees {t r g b : Nat} {s : State} {e : Dev} (he : e = s.dev.at t) (hformed : e.vp.formed = some [r, g, b])
    (hr : r < 2 ^ 16) (hg : g < 2 ^ 16) (hb : b < 2 ^ 16) :
    Completes (.readbackCheck t r g b) t s [.vp] [Ix.vpReadbackCrc] fun d =>
      d.vp = { e.vp with mismatches := 0, formed := none } ∧ d.rd Ix.vpReadbackCrc 1 0 = r ∧ d.rd Ix.vpReadbackCrc 2 0 = g ∧
      d.rd Ix.vpReadbackCrc 3 0 = b := by
  subst he
  refine completes_of_eq (exec_readbackCheck ..) (x := (s.dev.at t).crcsAgree [r, g, b]) ?_
    (Dev.changesOnly_step ((s.dev.at t).crcsReceived_only _) (Dev.changesOnly_mono (Dev.vp_only ..) (by decide) (by decide)))
    ⟨?_, (s.dev.at t).rd_crcsReceived hr hg hb⟩
  · rw [hformed]
    dsimp only
    rw [Nat.mod_eq_of_lt hr, Nat.mod_eq_of_lt hg, Nat.mod_eq_of_lt hb, if_pos rfl]
    rfl
  · rw [Dev.crcsAgree, Dev.crcsReceived_vp]

theorem readbackCheck_differs {t r g b : Nat} {l : List Nat} {s : State} {e : Dev} (he : e = s.dev.at t) (hformed : e.vp.formed = some l)
    (hl : l ≠ [r % 2 ^ 16, g % 2 ^ 16, b % 2 ^ 16]) (hact : e.n0 Ix.vpReadbackAction ≠ 1) (hroom : e.sup.emergencies.length < 32) :
    Completes (.readbackCheck t r g b) t s (.vp :: .out :: codeParts) (Ix.vpReadbackCrc :: Ix.vpReadbackErrors :: (eventPlaces ++ codePlaces)) fun d =>
      d.vp = { e.vp with mismatches := e.vp.mismatches + 1, formed := none } ∧ e.counted d Ix.vpReadbackErrors 0 0 1 ∧
      d.reports 4 Code.readbackMismatch := by
  subst he
  generalize hgot : [r % 2 ^ 16, g % 2 ^ 16, b % 2 ^ 16] = got at hl
  have hdiffer := (s.dev.at t).crcsDiffer_only got
  have htold := ((s.dev.at t).crcsDiffer got).mismatchTold_only
  have hraise := ((s.dev.at t).crcsDiffer got).mismatchTold.raise_only 4 Code.readbackMismatch
  refine completes_of_eq (exec_readbackCheck ..) (x := ((s.dev.at t).crcsDiffer got).mismatchTold.raise 4 Code.readbackMismatch) ?_
    (Dev.changesOnly_mono (Dev.changesOnly_trans hdiffer (Dev.changesOnly_trans htold hraise)) (by decide) (by decide))
    ⟨?_, (hdiffer.counted (by decide) (Dev.mismatchTold_counted _)).after hraise (by decide),
      Dev.raise_places _ 4 Code.readbackMismatch ?_ (by decide) (by decide)⟩
  · rw [hformed]
    dsimp only
    rw [hgot, if_neg (Ne.symm hl)]
    refine if_neg fun h => hact ?_
    rw [← hdiffer.n0 (by decide), ← htold.n0 (by decide), ← hraise.n0 (by decide)]
    exact of_decide_eq_true (Bool.and_eq_true_iff.1 h).1
  · rw [hraise.vp (by decide), htold.vp (by decide), Dev.crcsDiffer_vp]
  · rwa [htold.sup (by decide), hdiffer.sup (by decide)]

/-- A frame that formed no CRCs is not checked. -/
theorem readbackCheck_unformed {t r g b : Nat} {s : State} {e : Dev} (he : e = s.dev.at t) (hformed : e.vp.formed = none) :
    Completes (.readbackCheck t r g b) t s [] [] fun d => d.vp = e.vp := by
  subst he
  exact completes_of_eq (exec_readbackCheck ..) (by rw [hformed]) (Dev.changesOnly_refl ..) rfl

/-! ### Faults (R250) -/

/-- The composer is reset for a free time within 50 µs, its fault yet to be raised. -/
def Dev.composerStops (d : Dev) : Dev :=
  { (d.within 50000).2 with vp := { d.vp with composerUntil := d.now + ns (d.within 50000).1 } }

def Dev.composerFails (d : Dev) : Dev := d.composerStops.fault 2 Code.composerFault 6 0 0 (d.within 50000).1

theorem exec_composerFault_eq (t : Nat) (s : State) : exec (.composerFault t) s = run t s fun d =>
    if d.composerFails.n0 Ix.vpEnable = 1 && !d.composerFails.vp.latched then d.composerFails.abortFrame 0 0 else d.composerFails := by
  rw [exec_composerFault, execComposerFault]
  rfl

section
variable (d : Dev)

theorem Dev.composerStops_only : d.changesOnly [.drawn, .vp] [] d.composerStops :=
  Dev.changesOnly_trans (d.within_only 50000) (Dev.vp_only ..)

theorem Dev.composerFails_only : d.changesOnly (.drawn :: .vp :: codeParts) faultPlaces d.composerFails :=
  Dev.changesOnly_trans d.composerStops_only (Dev.fault_only ..)

theorem Dev.composerFails_vp : d.composerFails.vp = { d.vp with composerUntil := d.now + ns (d.within 50000).1 } := (Dev.fault_only ..).vp (by decide)

theorem Dev.composerFails_until : d.now + ns (d.within 50000).1 ≤ d.now + us 50 := by
  have hbound : ns (d.within 50000).1 ≤ us 50 := ns_le_us (d.within_le 50000)
  exact Nat.add_le_add_left hbound _

theorem Dev.composerFails_counted : d.counted d.composerFails Ix.fltClassCount 2 0 1 :=
  d.composerStops_only.counted (by decide) (Dev.fault_counted ..)

end

section
variable {t : Nat} {s : State} {e : Dev} (he : e = s.dev.at t)
include he

theorem composerFault_off (hoff : e.n0 Ix.vpEnable = 0) (hroom : e.sup.emergencies.length < 32) :
    Completes (.composerFault t) t s (.drawn :: .vp :: codeParts) faultPlaces fun d =>
      d.vp = { e.vp with composerUntil := d.vp.composerUntil } ∧ e.now ≤ d.vp.composerUntil ∧ d.vp.composerUntil ≤ e.now + us 50 ∧
      d.reports 4 Code.composerFault := by
  have hframe := e.composerFails_only
  have hvp := e.composerFails_vp
  have huntil := e.composerFails_until
  have hrep : e.composerFails.reports 4 Code.composerFault := Dev.fault_interrupting_reports e.composerStops 2 6 0 0 _ hroom
  have hidle : ¬(e.composerFails.n0 Ix.vpEnable = 1 && !e.composerFails.vp.latched) = true := by
    rw [hframe.n0 (by decide), hoff]
    exact Bool.false_ne_true
  subst he
  refine completes_of_eq (exec_composerFault_eq ..) (if_neg hidle) hframe ⟨?_, ?_, ?_, hrep⟩
  all_goals rw [hvp]
  · exact Nat.le_add_right ..
  · exact huntil

theorem composerFault_aborts (hon : e.n0 Ix.vpEnable = 1) (hscan : e.vp.latched = false) (hc : e.vp.committed = []) :
    Completes (.composerFault t) t s (.drawn :: .vp :: .out :: codeParts) (Ix.vpUnderruns :: (handlePlaces ++ eventPlaces ++ faultPlaces)) fun d =>
      e.counted d Ix.vpUnderruns 0 0 1 ∧ d.vp.latched = true ∧ d.vp.formed = none ∧ d.vp.composerUntil ≤ e.now + us 50 ∧
      e.counted d Ix.fltClassCount 2 0 1 := by
  have hframe := e.composerFails_only
  have hcounted := e.composerFails_counted
  have huntil := e.composerFails_until
  have hvp := e.composerFails_vp
  obtain ⟨habort, ⟨_, _, _, hleft⟩, hunderrun⟩ := e.composerFails.abortFrame_only 0 0 (by rw [hvp]; exact hc)
  have hscanned : (e.composerFails.n0 Ix.vpEnable = 1 && !e.composerFails.vp.latched) = true := by
    rw [hframe.n0 (by decide), hon, hvp, hscan]
    rfl
  subst he
  refine completes_of_eq (exec_composerFault_eq ..) (if_pos hscanned)
    (Dev.changesOnly_mono (Dev.changesOnly_trans hframe habort) (by decide) (by decide))
    ⟨hframe.counted (by decide) hunderrun, congrArg VpSt.latched hleft, congrArg VpSt.formed hleft, ?_, hcounted.after habort (by decide)⟩
  rw [congrArg VpSt.composerUntil hleft, Dev.abortNoted, (Dev.abortCounted_only ..).vp (by decide), hvp]
  exact huntil

end

/-- An entry of the fault log is counted, and takes the next number. -/
theorem Dev.logEntry_logged (d : Dev) (c time isl inst cls value i : Nat) :
    d.counted (d.logEntry c time isl inst cls value i) Ix.fltLogCount 0 0 1 ∧
      (d.logEntry c time isl inst cls value i).flt.logSeq = wrap48 (d.flt.logSeq + 1) :=
  ⟨Dev.changesOnly.counted (pl := [.flt]) (ps := []) (Dev.flt_only ..) (by decide) (Dev.inc0_counted ..),
    congrArg FltSt.logSeq ((Dev.inc0_only ..).flt (by decide))⟩

/-- A fault without a code: its class counted, its interruption kept if it is the longest, an entry of the log. -/
theorem Dev.fault_silent (d : Dev) (cls isl inst value i : Nat) :
    d.changesOnly [.flt, .ctr] [Ix.fltClassCount, Ix.fltInterruptMax, Ix.fltLogCount] (d.fault cls 0 isl inst value i) ∧
      d.counted (d.fault cls 0 isl inst value i) Ix.fltLogCount 0 0 1 ∧ (d.fault cls 0 isl inst value i).flt.logSeq = wrap48 (d.flt.logSeq + 1) := by
  have hcount := d.incI_only Ix.fltClassCount (cls - 1) 1
  have hmax : (d.incI Ix.fltClassCount (cls - 1)).changesOnly [] [Ix.fltInterruptMax] (if (d.incI Ix.fltClassCount (cls - 1)).n0 Ix.fltInterruptMax < i
      then (d.incI Ix.fltClassCount (cls - 1)).w0 Ix.fltInterruptMax i else d.incI Ix.fltClassCount (cls - 1)) :=
    Dev.changesOnly_ite (fun _ => Dev.w0_only ..) fun _ => Dev.changesOnly_refl ..
  unfold Dev.fault
  dsimp only
  rw [if_pos rfl]
  generalize (if (d.incI Ix.fltClassCount (cls - 1)).n0 Ix.fltInterruptMax < i then (d.incI Ix.fltClassCount (cls - 1)).w0 Ix.fltInterruptMax i
    else d.incI Ix.fltClassCount (cls - 1)) = x at hmax
  have hx := Dev.changesOnly_trans hcount hmax
  obtain ⟨hlogged, hseq⟩ := x.logEntry_logged 0 x.time96 isl inst cls value i
  exact ⟨Dev.changesOnly_mono (Dev.changesOnly_trans hx (Dev.logEntry_only ..)) (by decide) (by decide), hx.counted (by decide) hlogged,
    hseq.trans (by rw [hx.flt (by decide)])⟩

theorem paletteEccError_logged {t : Nat} {s : State} {e : Dev} (he : e = s.dev.at t) :
    Completes (.paletteEccError t) t s [.drawn, .flt, .ctr] [Ix.fltClassCount, Ix.fltInterruptMax, Ix.fltLogCount] fun d =>
      e.counted d Ix.fltClassCount 2 0 1 ∧ e.counted d Ix.fltLogCount 0 0 1 ∧ d.flt.logSeq = wrap48 (e.flt.logSeq + 1) := by
  subst he
  have hdrawn := (s.dev.at t).within_only 20000
  obtain ⟨hframe, hlogged, hseq⟩ := ((s.dev.at t).within 20000).2.fault_silent 2 6 0 0 ((s.dev.at t).within 20000).1
  exact completes_of_eq (exec_paletteEccError ..) rfl (Dev.changesOnly_trans hdrawn hframe)
    ⟨hdrawn.counted (by decide) (Dev.fault_counted _ 2 0 6 0 0 _), hdrawn.counted (by decide) hlogged, hseq⟩

/-- Settles O29, clause by clause: a sink plugged while the generator is off and while it is on, its interrupts, its removal, an attempt that succeeds
and one that fails with no bits left, the generator switched on, off and to no value of its own, a frame's start, a read-back that agrees, one that does
not, one of no frame, an underrun, a composer fault between frames and within one, an error of the palettes. -/
theorem displayLinkAndFrames : Obligations.DisplayLinkAndFrames := by
  unfold Obligations.DisplayLinkAndFrames
  refine ⟨?_, ?_, ?_, ?_, ?_, ?_, ?_, ?_, ?_, ?_, ?_, ?_, ?_, ?_, ?_, ?_, ?_, ?_⟩
  · exact fun t rate lanes khz ht vt listed edid s e he hplug hoff hwake => hpdPlug_found he hplug hwake hoff
  · rintro t rate lanes khz ht vt listed edid s e f c he hplug hon hmode hwake hrow hbpc rfl hpick
    exact hpdPlug_tries he hplug hwake hon hmode hrow hbpc hpick
  · exact fun t low s e he hplug h250 h2000 hst => hpdIrq_told he hplug h250 h2000 hst
  · exact fun t low s e he hplug h250 h2000 hon hmode hroom => hpdIrq_noMode he hplug h250 h2000 hon hmode hroom
  · exact fun t s e he hplug => hpdUnplug_idles he hplug
  · exact fun t s e mode rate lanes bpc he htry => dpLinkTrained_active he htry
  · exact fun t s e mode rate lanes he htry hroom => dpLinkTrained_dark he htry rfl hroom
  · exact fun t path s e he hr hoff hplug => vpEnable_switchesOn he hr hoff hplug
  · exact fun t path s e he hr hon => vpEnable_switchesOff he hr hon
  · exact fun t path v s e he hr hpath hv => vpEnable_refused he hr hpath hv
  · exact fun t s e he hon hlatched hcomposer => displayFrameStart_starts he hon hlatched hcomposer
  · exact fun t r g b s e he hformed hr hg hb => readbackCheck_agrees he hformed hr hg hb
  · exact fun t r g b l s e he hformed hl hact hroom => readbackCheck_differs he hformed hl hact hroom
  · exact fun t r g b s e he hformed => readbackCheck_unformed he hformed
  · exact fun t layer line s e he hlayer hon hscan hc hfirst hroom => vpUnderrun_aborts he hlayer hon hscan hc hfirst hroom
  · exact fun t s e he hoff hroom => composerFault_off he hoff hroom
  · exact fun t s e he hon hscan hc _ => composerFault_aborts he hon hscan hc
  · exact fun t s e he => paletteEccError_logged he

end Sys2Proof.Machine
end

section
/-! PROOFS. Handles of the Viewport's pool, its staged set and its commits: what settles O30's clauses on commands (R239 to R244). -/

namespace Sys2Proof.Machine

theorem exec_vpAlloc (t path : Nat) (s : State) : exec (.vpAlloc t path) s = execVpAlloc t path s := rfl
theorem exec_vpFreeRequest (t path : Nat) (s : State) : exec (.vpFreeRequest t path) s = execVpFreeRequest t path s := rfl
theorem exec_vpCursorPixel (t path v : Nat) (s : State) : exec (.vpCursorPixel t path v) s = execVpCursorPixel t path v s := rfl
theorem exec_vpCommit (t path map : Nat) (s : State) : exec (.vpCommit t path map) s = execVpCommit t path map s := rfl

theorem typeOf_vpHandleState {n : Nat} (hn : n < 64) : typeOf Ix.vpHandleState (n + 1) = 5 := by
  have h : ∀ k < 64, typeOf Ix.vpHandleState (k + 1) = 5 := by decide
  exact h n hn

theorem typeOf_vpAllocHandle : typeOf Ix.vpAllocHandle 0 = 7 := by decide
theorem typeOf_vpCursorIndex : typeOf Ix.vpCursorIndex 0 = 6 := by decide

/-- The state of a handle reads what is written to it. -/
theorem Dev.rd_handleState (d : Dev) {n v : Nat} (hn : n < 64) (hv : v < 256) :
    (d.wI Ix.vpHandleState n v).rd Ix.vpHandleState (n + 1) 0 = v :=
  Dev.rd_wr_fits (n := 0) d 0 (by rw [typeOf_vpHandleState hn]; rfl) (by rw [typeOf_vpHandleState hn]; rfl) (by simpa using hv)

/-! ### A buffer is taken from the pool (R240, R241) -/

theorem Dev.rd_handleReport_state {d : Dev} {n v : Nat} {h : HandleSt} (hfind : d.vp.handles.find? n = some h) (hn : n < 64) (hv : v < 256) :
    (d.handleReport n v).rd Ix.vpHandleState (n + 1) 0 = v := by
  unfold Dev.handleReport
  simp only [hfind]
  rw [(Dev.wI_only ..).rd _ _ (by decide), (Dev.wI_only ..).rd _ _ (by decide), (Dev.wI_only ..).rd _ _ (by decide)]
  exact Dev.rd_handleState _ hn hv

/-- A buffer of the pool has an entry, of a generation. -/
def Dev.bufferTaken (d : Dev) (n : Nat) (h : HandleSt) (g : Nat) : Dev :=
  { d with vp := { d.vp with handles := d.vp.handles.put n h, generations := d.vp.generations.set 0 n g } }

/-- The buffer's entry is reported, its handle given, and what is left of the pool. -/
def Dev.bufferGiven (d : Dev) (n : Nat) (h : HandleSt) (g : Nat) : Dev :=
  (((d.bufferTaken n h g).handleReport n 1).w0 Ix.vpAllocHandle (g * 65536 + n)).poolReport

theorem Dev.bufferGiven_reports (d : Dev) (n : Nat) (h : HandleSt) (g : Nat) :
    (d.bufferTaken n h g).changesOnly [] (Ix.vpAllocHandle :: handlePlaces) (d.bufferGiven n h g) :=
  Dev.changesOnly_mono (Dev.changesOnly_trans (Dev.handleReport_only ..) (Dev.changesOnly_trans (Dev.w0_only ..) (Dev.poolReport_only _)))
    (by decide) (by decide)

theorem Dev.bufferGiven_only (d : Dev) (n : Nat) (h : HandleSt) (g : Nat) :
    d.changesOnly [.vp] (Ix.vpAllocHandle :: handlePlaces) (d.bufferGiven n h g) :=
  Dev.changesOnly_trans (pl := [.vp]) (ps := []) (Dev.vp_only ..) (d.bufferGiven_reports n h g)

theorem Dev.bufferGiven_vp (d : Dev) (n : Nat) (h : HandleSt) (g : Nat) : (d.bufferGiven n h g).vp = (d.bufferTaken n h g).vp :=
  (d.bufferGiven_reports n h g).vp (by decide)

theorem Dev.rd_bufferGiven_handle (d : Dev) {n g : Nat} (h : HandleSt) (hn : n < 64) (hg : g < 65536) :
    (d.bufferGiven n h g).rd Ix.vpAllocHandle 0 0 = (g * 65536 + n : Nat) := by
  rw [Dev.bufferGiven, (Dev.poolReport_only _).rd _ _ (by decide)]
  exact Dev.rd_wr_fits (n := 3) _ 0 (by rw [typeOf_vpAllocHandle]; rfl) (by rw [typeOf_vpAllocHandle]; rfl) (by omega)

theorem Dev.rd_bufferGiven_state (d : Dev) {n : Nat} (h : HandleSt) (g : Nat) (hn : n < 64) :
    (d.bufferGiven n h g).rd Ix.vpHandleState (n + 1) 0 = 1 := by
  have hpool : ∀ x : Dev, x.poolReport.rd Ix.vpHandleState (n + 1) 0 = x.rd Ix.vpHandleState (n + 1) 0 := fun x => (Dev.w0_only ..).rd _ _ (by decide)
  rw [Dev.bufferGiven, hpool, (Dev.w0_only ..).rd _ _ (by decide)]
  exact Dev.rd_handleReport_state (Tab.find?_put_same ..) hn (by decide)

/-- The free of a handle waits. -/
def Dev.freeWaits (d : Dev) (n : Nat) : Dev := { d with vp := { d.vp with freeing := d.vp.freeing ++ [n] } }.wI Ix.vpHandleState n 3

theorem Dev.freeWaits_only (d : Dev) (n : Nat) : d.changesOnly [.vp] [Ix.vpHandleState] (d.freeWaits n) :=
  Dev.changesOnly_trans (pl := [.vp]) (ps := []) (Dev.vp_only ..) (Dev.wI_only ..)

/-- A handle names one of 64 entries. -/
theorem Dev.handleEntry_lt {d : Dev} {h n : Nat} (hentry : d.handleEntry h = some n) : n < 64 := by
  simp only [Dev.handleEntry, Bool.and_eq_true, decide_eq_true_eq, Option.ite_none_right_eq_some, Option.some.injEq] at hentry
  omega

section
variable {t path : Nat} {s : State} {e : Dev} (he : e = s.dev.at t) (hr : e.reaches path Ix.vpAllocCmd)
include he hr

theorem vpAlloc_gives {w h f n stride size off g : Nat} (hw : w = e.n0 Ix.vpAllocWidth) (hh : h = e.n0 Ix.vpAllocHeight)
    (hf : f = e.n0 Ix.vpAllocFormat) (hwr : 1 ≤ w ∧ w ≤ 4096) (hhr : 1 ≤ h ∧ h ≤ 4096) (hfr : 1 ≤ f ∧ f ≤ 4)
    (hfree : (List.range 64).find? (fun x => (e.vp.handles.find? x).isNone) = some n) (hstride : stride = ceilDiv (w * f) 256 * 256)
    (hsize : size = ceilDiv (stride * h) 4096 * 4096) (hoff : off = poolFit size 0 e.poolMap) (hfits : off + size ≤ e.poolBytes)
    (hg : g = (e.vp.generations.get 0 n + 1) % 65536) :
    Completes (.vpAlloc t path) t s (.vp :: requestParts) (Ix.vpAllocHandle :: (handlePlaces ++ requestPlaces)) fun d =>
      d.vp.handles.find? n = some ⟨off, size, w, h, f, stride, 0⟩ ∧ d.vp.generations.get 0 n = g ∧ d.rd Ix.vpAllocHandle 0 0 = (g * 65536 + n : Nat) ∧
      d.rd Ix.vpHandleState (n + 1) 0 = 1 := by
  have hn : n < 64 := List.mem_range.1 (List.mem_of_find?_eq_some hfree)
  have hg' : g < 65536 := hg ▸ Nat.mod_lt _ (by decide)
  subst he
  obtain ⟨b, hb⟩ : ∃ b : HandleSt, b = ⟨off, size, w, h, f, stride, 0⟩ := ⟨_, rfl⟩
  have hserved := Dev.served_only (s.dev.at t) (((s.dev.at t).accept path Ix.vpAllocCmd 0).bufferGiven n b g) path
  have hvp := (hserved.vp (by decide)).trans (Dev.bufferGiven_vp ..)
  refine completes_command (exec_vpAlloc ..) hr (x := ((s.dev.at t).accept path Ix.vpAllocCmd 0).bufferGiven n b g) ?_ (Dev.bufferGiven_only ..)
    ⟨?_, ?_, ?_, ?_⟩
  · have hin := fun ix => ((s.dev.at t).accept_only path Ix.vpAllocCmd 0).n0 (ix := ix) List.not_mem_nil
    refine (if_neg ?_).trans ?_
    · rw [hin, hin, hin, ← hw, ← hh, ← hf]
      simp only [Bool.or_eq_true, decide_eq_true_eq]
      omega
    · rw [hin, hin, hin, ← hw, ← hh, ← hf, Dev.accept_eq]
      simp only [hfree]
      subst hg hb hoff hsize hstride
      exact if_neg (Nat.not_lt.2 hfits)
  · rw [hvp, ← hb]
    exact Tab.find?_put_same ..
  · rw [hvp]
    exact Tab.get_set_same ..
  · rw [hserved.rd _ _ (by decide)]
    exact Dev.rd_bufferGiven_handle _ b hn hg'
  · rw [hserved.rd _ _ (by decide)]
    exact Dev.rd_bufferGiven_state _ b g hn

/-! ### A free is requested (R242) -/

theorem vpFreeRequest_waits {n : Nat} (hentry : e.handleEntry (e.n0 Ix.vpAllocHandle) = some n) (hnew : n ∉ e.vp.freeing) :
    Completes (.vpFreeRequest t path) t s (.vp :: requestParts) (Ix.vpHandleState :: requestPlaces) fun d =>
      d.vp = { e.vp with freeing := e.vp.freeing ++ [n] } ∧ d.rd Ix.vpHandleState (n + 1) 0 = 3 := by
  subst he
  have hserved := Dev.served_only (s.dev.at t) (((s.dev.at t).accept path Ix.vpAllocCmd 0).freeWaits n) path
  refine completes_command (exec_vpFreeRequest ..) hr (x := ((s.dev.at t).accept path Ix.vpAllocCmd 0).freeWaits n) ?_ (Dev.freeWaits_only ..) ⟨?_, ?_⟩
  · have haccept := (s.dev.at t).accept_only path Ix.vpAllocCmd 0
    rw [haccept.n0 List.not_mem_nil, haccept.handleEntry (by decide), hentry, Dev.accept_eq]
    exact if_neg fun h => hnew (List.contains_iff_mem.1 h)
  · rw [hserved.vp (by decide), Dev.accept_eq]
    rfl
  · rw [hserved.rd _ _ (by decide)]
    exact Dev.rd_handleState _ (Dev.handleEntry_lt hentry) (by decide)

theorem vpFreeRequest_refused (hpath : 1 ≤ path ∧ path ≤ 4) (hentry : e.handleEntry (e.n0 Ix.vpAllocHandle) = none) :
    Completes (.vpFreeRequest t path) t s requestParts requestPlaces fun d => d.reports path Code.handleInvalid ∧ d.vp = e.vp := by
  subst he
  have haccept := (s.dev.at t).accept_only path Ix.vpAllocCmd 0
  obtain ⟨d, hexec, hframe, hrep⟩ := completes_refused (ix' := Ix.vpAllocCmd) (sub' := 0) (c := Code.handleInvalid) (exec_vpFreeRequest ..) hr hpath
    (by rw [haccept.n0 List.not_mem_nil, haccept.handleEntry (by decide), hentry])
  exact ⟨d, hexec, hframe, hrep, hframe.vp (by decide)⟩

end

/-! ### A cursor pixel is staged (R239) -/

/-- A cursor pixel joins the staged set at a path's index, which goes on to the next. -/
def Dev.cursorStaged (d : Dev) (path i v : Nat) : Dev := (d.vpStage ⟨Ix.vpCursorPixel, 0, i, v⟩).wW Ix.vpCursorIndex path (i + 1)

theorem Dev.cursorStaged_only (d : Dev) (path i v : Nat) : d.changesOnly [.vp] [Ix.vpCursorIndex] (d.cursorStaged path i v) :=
  Dev.changesOnly_trans (pl := [.vp]) (ps := []) (Dev.vp_only ..) (Dev.wr_only ..)

theorem vpCursorPixel_stages {t path v i : Nat} {s : State} {e : Dev} (he : e = s.dev.at t) (hr : e.reaches path Ix.vpCursorPixel)
    (hindex : i = e.nW Ix.vpCursorIndex path) (hi : i < 16384) :
    Completes (.vpCursorPixel t path v) t s (.vp :: requestParts) (Ix.vpCursorIndex :: requestPlaces) fun d =>
      d.vp = { e.vp with staged := putWrite ⟨Ix.vpCursorPixel, 0, i, v⟩ e.vp.staged } ∧ d.rd Ix.vpCursorIndex 0 path = (i + 1 : Nat) := by
  subst he
  have hserved := Dev.served_only (s.dev.at t) (((s.dev.at t).accept path Ix.vpCursorPixel 0).cursorStaged path i v) path
  refine completes_command (exec_vpCursorPixel ..) hr (x := ((s.dev.at t).accept path Ix.vpCursorPixel 0).cursorStaged path i v) ?_
    (Dev.cursorStaged_only ..) ⟨?_, ?_⟩
  · rw [((s.dev.at t).accept_only path Ix.vpCursorPixel 0).nW List.not_mem_nil, ← hindex]
    exact if_neg (Nat.not_le.2 hi)
  · rw [hserved.vp (by decide), Dev.accept_eq]
    rfl
  · rw [hserved.rd _ _ (by decide)]
    exact Dev.rd_wr_fits (n := 1) _ path (by rw [typeOf_vpCursorIndex]; rfl) (by rw [typeOf_vpCursorIndex]; rfl) (by omega)

/-! ### Parts are committed (R243, R244) -/

/-- The writes committed for a part, if any are. -/
def Dev.committedOf (d : Dev) (p : Nat) : Option (List SWrite) := (d.vp.committed.find? (fun c => c.1 == p)).map (·.2)

/-- The writes staged for a part join those committed for it. -/
def Dev.partJoins (d : Dev) (p : Nat) : List SWrite :=
  (d.vp.staged.filter (fun w => vpPart w == p)).foldl (fun l w => putWrite w l) ((d.committedOf p).getD [])

theorem Dev.partJoins_eq (d : Dev) (p : Nat) : d.partJoins p = (d.vp.staged.filter (fun w => vpPart w == p)).foldl (fun l w => putWrite w l)
    (match d.vp.committed.find? (fun c => c.1 == p) with | some c => c.2 | none => []) := by
  rw [Dev.partJoins, Dev.committedOf]
  cases d.vp.committed.find? (fun c => c.1 == p) <;> rfl

/-- A part of a map is committed, one outside it left. -/
def Dev.commitOf (map : Nat) (d : Dev) (p : Nat) : Dev := if bitOf map p then d.commitPart p (d.vp.staged.filter (fun w => vpPart w == p)) else d

/-- The parts of a map are committed and leave the staged set. -/
def Dev.partsCommit (d : Dev) (map : Nat) : Dev :=
  let x := (List.range 6).foldl (Dev.commitOf map) d
  { x with vp := { x.vp with staged := x.vp.staged.filter (fun w => !bitOf map (vpPart w)) } }

theorem Dev.commitPart_committed (d : Dev) (p : Nat) (ws : List SWrite) : (d.commitPart p ws).vp.committed =
    d.vp.committed.filter (fun c => c.1 != p) ++ [(p, ws.foldl (fun l w => putWrite w l) ((d.committedOf p).getD []))] := by
  rw [Dev.commitPart, Dev.committedOf]
  cases d.vp.committed.find? (fun c => c.1 == p) <;> rfl

theorem Dev.committedOf_commitPart_same (d : Dev) (p : Nat) (ws : List SWrite) :
    (d.commitPart p ws).committedOf p = some (ws.foldl (fun l w => putWrite w l) ((d.committedOf p).getD [])) := by
  rw [Dev.committedOf, Dev.commitPart_committed, List.find?_append, List.find?_eq_none.2 (by simp), Option.none_or, List.find?_singleton, beq_self_eq_true,
    if_pos rfl]
  rfl

theorem Dev.committedOf_commitPart_other (d : Dev) {p q : Nat} (h : q ≠ p) (ws : List SWrite) : (d.commitPart q ws).committedOf p = d.committedOf p := by
  have hkept : (fun c : Nat × List SWrite => decide ((c.1 != q) = true ∧ (c.1 == p) = true)) = fun c => c.1 == p := by
    funext c
    rw [Bool.eq_iff_iff, decide_eq_true_eq, bne_iff_ne, beq_iff_eq]
    exact ⟨fun hc => hc.2, fun hc => ⟨hc ▸ h.symm, hc⟩⟩
  rw [Dev.committedOf, Dev.commitPart_committed, List.find?_append, List.find?_filter, hkept, List.find?_singleton, if_neg (by simpa using h), Option.or_none]
  rfl

theorem Dev.commitOf_only (map : Nat) (d : Dev) (p : Nat) : d.changesOnly [.vp] [] (Dev.commitOf map d p) :=
  Dev.changesOnly_ite (fun _ => Dev.vp_only ..) fun _ => Dev.changesOnly_refl ..

theorem Dev.commitOf_staged (map : Nat) (d : Dev) (p : Nat) : (Dev.commitOf map d p).vp.staged = d.vp.staged := by
  unfold Dev.commitOf
  split <;> rfl

theorem Dev.commitOf_other (map : Nat) (d : Dev) {p q : Nat} (h : q ≠ p) : (Dev.commitOf map d q).committedOf p = d.committedOf p := by
  unfold Dev.commitOf
  split
  · exact Dev.committedOf_commitPart_other d h _
  · rfl

theorem Dev.commitOf_same {map p : Nat} (d : Dev) (h : bitOf map p = true) : (Dev.commitOf map d p).committedOf p = some (d.partJoins p) := by
  rw [Dev.commitOf, if_pos h]
  exact Dev.committedOf_commitPart_same ..

theorem Dev.foldl_commitOf_staged (map : Nat) (l : List Nat) (d : Dev) : (l.foldl (Dev.commitOf map) d).vp.staged = d.vp.staged :=
  List.foldlRecOn (motive := fun x => x.vp.staged = d.vp.staged) l _ rfl fun x hx p _ => (Dev.commitOf_staged map x p).trans hx

theorem Dev.foldl_commitOf_other (map : Nat) {p : Nat} {l : List Nat} (h : p ∉ l) (d : Dev) :
    (l.foldl (Dev.commitOf map) d).committedOf p = d.committedOf p :=
  List.foldlRecOn (motive := fun x => x.committedOf p = d.committedOf p) l _ rfl fun x hx _ hq =>
    (Dev.commitOf_other map x (ne_of_mem_of_not_mem hq h)).trans hx

/-- Each part of a map, committed once, has what was staged for it joined to what was committed for it. -/
theorem Dev.foldl_commitOf_mem {map p : Nat} (hbit : bitOf map p = true) (l : List Nat) (hl : l.Nodup) (hp : p ∈ l) (d : Dev) :
    (l.foldl (Dev.commitOf map) d).committedOf p = some (d.partJoins p) := by
  induction l generalizing d with
  | nil => exact absurd hp List.not_mem_nil
  | cons q l ih =>
    obtain ⟨hq, hl⟩ := List.nodup_cons.1 hl
    rw [List.foldl_cons]
    rcases eq_or_ne q p with rfl | hne
    · rw [Dev.foldl_commitOf_other map hq, Dev.commitOf_same d hbit]
    · rw [ih hl ((List.mem_cons.1 hp).resolve_left hne.symm), Dev.partJoins, Dev.partJoins, Dev.commitOf_staged, Dev.commitOf_other map d hne]

theorem Dev.partsCommit_only (d : Dev) (map : Nat) : d.changesOnly [.vp] [] (d.partsCommit map) :=
  Dev.changesOnly_step (Dev.changesOnly_foldl _ (Dev.commitOf_only map) _ d) (Dev.vp_only ..)

theorem Dev.partsCommit_staged (d : Dev) (map : Nat) : (d.partsCommit map).vp.staged = d.vp.staged.filter (fun w => !bitOf map (vpPart w)) :=
  congrArg (List.filter fun w => !bitOf map (vpPart w)) (Dev.foldl_commitOf_staged map _ d)

theorem Dev.partsCommit_committedOf (d : Dev) {map p : Nat} (hp : p < 6) (hbit : bitOf map p = true) :
    (d.partsCommit map).committedOf p = some (d.partJoins p) :=
  Dev.foldl_commitOf_mem hbit _ List.nodup_range (List.mem_range.2 hp) d

theorem vpCommit_commits {t path map : Nat} {s : State} {e : Dev} (he : e = s.dev.at t) (hr : e.reaches path Ix.vpCommit) (hmap : map < 64)
    (hroll : ∀ l < 3, bitOf map l = true → (stagedValue e.vp.staged Ix.vpRoll (l + 1) 0).getD (e.rd Ix.vpRoll (l + 1) 0) = 0) :
    Completes (.vpCommit t path map) t s (.vp :: requestParts) requestPlaces fun d =>
      d.vp.staged = e.vp.staged.filter (fun w => !bitOf map (vpPart w)) ∧
      ∀ p < 6, bitOf map p = true → d.committedOf p = some (e.partJoins p) := by
  subst he
  have hserved := Dev.served_only (s.dev.at t) (((s.dev.at t).accept path Ix.vpCommit 0).partsCommit map) path
  have hvp := hserved.vp (by decide)
  have haccept := (s.dev.at t).accept_only path Ix.vpCommit 0
  refine completes_command (exec_vpCommit ..) hr (x := ((s.dev.at t).accept path Ix.vpCommit 0).partsCommit map) ?_ (Dev.partsCommit_only ..)
    ⟨?_, fun p hp hbit => ?_⟩
  · refine (if_neg (Nat.not_le.2 hmap)).trans (if_neg ?_)
    rw [List.any_eq_true]
    rintro ⟨l, hl, hany⟩
    obtain ⟨hbit, hrest⟩ := Bool.and_eq_true_iff.1 hany
    have hzero := hroll l (List.mem_range.1 hl) hbit
    rw [← haccept.vp (by decide), ← haccept.rd _ _ List.not_mem_nil] at hzero
    obtain ⟨hmode, -⟩ := Bool.and_eq_true_iff.1 hrest
    obtain ⟨hon, -⟩ := Bool.and_eq_true_iff.1 hmode
    refine bne_iff_ne.1 hon (Eq.trans ?_ hzero)
    beta_reduce
    cases stagedValue ((s.dev.at t).accept path Ix.vpCommit 0).vp.staged Ix.vpRoll (l + 1) 0 <;> rfl
  · rw [hvp, Dev.partsCommit_staged, haccept.vp (by decide)]
  · rw [Dev.committedOf, hvp]
    refine (Dev.partsCommit_committedOf _ hp hbit).trans ?_
    rw [Dev.accept_eq]
    rfl

end Sys2Proof.Machine
end

section
/-! PROOFS. The Viewport's latch point: what was committed applies, roll heads are fixed: what settles O30's clauses on it (R244, R245, R248). -/

namespace Sys2Proof.Machine

theorem exec_vpLatchPoint (t : Nat) (s : State) : exec (.vpLatchPoint t) s = execVpLatchPoint t s := rfl

/-- A frame has been sent: its CRCs are formed, where the link is active. -/
def Dev.frameFormed (d : Dev) (m : Mem) : Dev :=
  { d with vp := { d.vp with
      formed := if d.n0 Ix.vpLinkState = 3 then some (d.frameCrcs m (d.timing d.vp.modeNow).2.1 (d.timing d.vp.modeNow).2.2.1) else none } }

theorem Dev.frameFormed_only (d : Dev) (m : Mem) : d.changesOnly [.vp] [] (d.frameFormed m) := Dev.vp_only ..

/-- A committed write applies, and the part's commit is counted at the frame from which it shows. -/
def Dev.writeApplied (d : Dev) (p : Nat) (w : SWrite) : Dev :=
  ((d.wr w.ix w.sub w.inst w.value).incI Ix.vpCommitSeq p).wI Ix.vpCommitFrame p (d.n0 Ix.vpFrame + 1)

theorem Dev.applyPart_layer (d : Dev) {p : Nat} (hp : p < 4) (w : SWrite) :
    d.applyPart (p, [w]) = (d.writeApplied p w).vpEvent 0x03 p ((d.writeApplied p w).nI Ix.vpCommitSeq p) (d.n0 Ix.vpFrame + 1) := by
  unfold Dev.applyPart
  exact if_pos hp

section
variable (d : Dev) (p : Nat) (w : SWrite)

theorem Dev.writeApplied_only : d.changesOnly [.ctr] [w.ix, Ix.vpCommitSeq, Ix.vpCommitFrame] (d.writeApplied p w) :=
  Dev.changesOnly_trans (pl := []) (ps := [w.ix]) (Dev.wr_only ..) (Dev.changesOnly_trans (Dev.incI_only ..) (Dev.wI_only ..))

theorem Dev.writeApplied_counted (hw : w.ix ≠ Ix.vpCommitSeq) : d.counted (d.writeApplied p w) Ix.vpCommitSeq (p + 1) 0 1 :=
  ((Dev.wr_only d w.ix w.sub w.inst w.value).counted (by simpa using hw.symm) (Dev.inc_counted ..)).after (Dev.wI_only ..) (by decide)

theorem Dev.rd_writeApplied (hseq : w.ix ≠ Ix.vpCommitSeq) (hframe : w.ix ≠ Ix.vpCommitFrame) :
    (d.writeApplied p w).rd w.ix w.sub w.inst = normTy (typeOf w.ix w.sub) w.value := by
  rw [Dev.writeApplied, (Dev.wI_only ..).rd _ _ (by simpa using hframe), (Dev.incI_only ..).rd _ _ (by simpa using hseq), Dev.rd_wr_same]

end

/-- At a latch point the parts committed have been applied, and the heads of the rolls are fixed. -/
def Dev.commitsApplied (d : Dev) : Dev := (d.vp.committed.foldl (fun (a : Dev) c => a.applyPart c) d.latches).headsFix

section
variable {t : Nat} {s : State} {e : Dev} (he : e = s.dev.at t) (hon : e.n0 Ix.vpEnable = 1) (hscan : e.vp.latched = false)
  (hsusp : e.vp.suspended = false)
include he hon hscan hsusp

/-- The latch point of a frame in scan completes as its commits and its handles do. -/
theorem completes_vpLatchPoint {ps qs : List Nat} {post : Dev → Prop}
    (honly : (e.frameFormed s.mem).changesOnly [.vp, .out, .ctr] ps (e.frameFormed s.mem).commitsApplied)
    (hps : ∀ y ∈ ps ++ (handlePlaces ++ eventPlaces), y ∈ qs) (hpost : ∀ d, (e.frameFormed s.mem).commitsApplied.handlesTurn d → post d) :
    Completes (.vpLatchPoint t) t s [.vp, .out, .ctr] qs post := by
  subst he
  have hturn := ((s.dev.at t).frameFormed s.mem).commitsApplied.releaseHandles_turn ((s.dev.at t).frameFormed s.mem).shownHandles
  have hlatch : ((s.dev.at t).frameFormed s.mem).latch = _ := Dev.latch_applies hsusp
  refine completes_runMem_of_eq (exec_vpLatchPoint ..) (x := ((s.dev.at t).frameFormed s.mem).latch) ?_ ?_ ?_
  · exact if_pos (by rw [hon, hscan]; rfl)
  · rw [hlatch]
    exact Dev.changesOnly_mono (Dev.changesOnly_trans (Dev.frameFormed_only ..) (Dev.changesOnly_trans honly hturn.1)) (by decide) hps
  · rw [hlatch]
    exact hpost _ hturn

theorem vpLatchPoint_ofNone (hc : e.vp.committed = []) :
    Completes (.vpLatchPoint t) t s [.vp, .out, .ctr] (handlePlaces ++ eventPlaces) fun d =>
      d.vp.latched = true ∧ d.vp.rolls = e.vp.headsFixed ∧ d.vp.formed = (e.frameFormed s.mem).vp.formed := by
  have happlied : (e.frameFormed s.mem).commitsApplied = (e.frameFormed s.mem).latches.headsFix := by
    rw [Dev.commitsApplied, Dev.frameFormed, hc]
    rfl
  refine completes_vpLatchPoint he hon hscan hsusp (ps := []) ?_ (fun y hy => hy) fun d hd => ?_
  · rw [happlied]
    exact Dev.changesOnly_mono (Dev.changesOnly_trans (pl := [.vp]) (ps := []) (Dev.vp_only ..) (Dev.vp_only ..)) (by decide) (by decide)
  · obtain ⟨-, hvp⟩ := hd
    rw [happlied] at hvp
    rw [hvp]
    exact ⟨rfl, rfl, rfl⟩

theorem vpLatchPoint_applies {p : Nat} {w : SWrite} (hp : p < 4) (hc : e.vp.committed = [(p, [w])])
    (hw : w.ix ∉ Ix.vpFrame :: Ix.vpCommitSeq :: Ix.vpCommitFrame :: (handlePlaces ++ eventPlaces)) :
    Completes (.vpLatchPoint t) t s [.vp, .out, .ctr] (w.ix :: Ix.vpCommitSeq :: Ix.vpCommitFrame :: (handlePlaces ++ eventPlaces)) fun d =>
      d.vp.latched = true ∧ d.vp.committed = [] ∧ d.rd w.ix w.sub w.inst = normTy (typeOf w.ix w.sub) w.value ∧
      e.counted d Ix.vpCommitSeq (p + 1) 0 1 := by
  simp only [List.mem_cons, not_or] at hw
  obtain ⟨-, hseq, hframe, hplaces⟩ := hw
  have hevent : w.ix ∉ eventPlaces := fun h => hplaces (List.mem_append_right _ h)
  generalize hx : e.frameFormed s.mem = x at *
  have hxe : e.changesOnly [.vp] [] x := hx ▸ e.frameFormed_only s.mem
  have hxc : x.vp.committed = [(p, [w])] := by rw [← hx]; exact hc
  have hstart : x.changesOnly [.vp] [] x.latches := Dev.vp_only ..
  have hwrite := x.latches.writeApplied_only p w
  have htold := (x.latches.writeApplied p w).vpEvent_only 0x03 p ((x.latches.writeApplied p w).nI Ix.vpCommitSeq p) (x.latches.n0 Ix.vpFrame + 1)
  have happlied : x.commitsApplied = (x.latches.applyPart (p, [w])).headsFix := by
    rw [Dev.commitsApplied, hxc]
    rfl
  rw [← Dev.applyPart_layer _ hp] at htold
  have hfix : (x.latches.applyPart (p, [w])).changesOnly [.vp] [] x.commitsApplied := happlied ▸ Dev.vp_only ..
  refine completes_vpLatchPoint he hon hscan hsusp (ps := [w.ix, Ix.vpCommitSeq, Ix.vpCommitFrame] ++ eventPlaces) ?_ (fun y hy => ?_) fun d hd => ?_
  · rw [hx]
    exact Dev.changesOnly_mono (Dev.changesOnly_trans hstart (Dev.changesOnly_trans hwrite (Dev.changesOnly_trans htold hfix))) (by decide) (by simp)
  · simp only [List.mem_append, List.mem_cons, List.not_mem_nil] at hy ⊢
    tauto
  · rw [hx] at hd
    obtain ⟨hturn, hvp⟩ := hd
    have hleft : x.commitsApplied.vp = { x.latches.vp with rolls := x.commitsApplied.vp.rolls } := by
      rw [happlied, Dev.headsFix, htold.vp (by decide), hwrite.vp (by decide)]
    rw [hleft] at hvp
    rw [hvp]
    refine ⟨rfl, rfl, ?_, ?_⟩
    · rw [hturn.rd _ _ hplaces, hfix.rd _ _ List.not_mem_nil, htold.rd _ _ hevent, Dev.rd_writeApplied _ _ _ hseq hframe]
    · exact (((Dev.changesOnly_trans hxe hstart).counted (by decide) (x.latches.writeApplied_counted p w hseq)).after
        (Dev.changesOnly_trans htold hfix) (by decide)).after hturn (by decide)

end

end Sys2Proof.Machine
end

section
/-! PROOFS. A trace that a layer in roll mode renders as a line of its buffer: what settles O30's clause on a trace's close (R245 to R247). -/

namespace Sys2Proof.Machine

/-! ### The bytes of a line (R246) -/

theorem length_leBytes (n v : Nat) : (leBytes n v).length = n := by
  induction n generalizing v with
  | zero => rfl
  | succ n ih => rw [leBytes, List.length_cons, ih]

/-- Lists of one length, one after another. -/
theorem length_flatten_map_of_length {α β : Type} {f : α → List β} {n : Nat} (h : ∀ a, (f a).length = n) (l : List α) :
    (l.map f).flatten.length = l.length * n := by
  simp [List.length_flatten, Function.comp_def, h]

/-- A pixel has as many bytes as its format's number. -/
theorem Dev.length_rollPixel (d : Dev) (pal i : Nat) {fmt : Nat} (hf : 1 ≤ fmt ∧ fmt ≤ 4) : (d.rollPixel pal fmt i).length = fmt := by
  unfold Dev.rollPixel
  dsimp only
  split_ifs <;> rw [length_leBytes] <;> omega

/-- The indices of a line: those of its points, each as often as the layer scales it, then 0 to the buffer's width. -/
def Dev.lineIndices (d : Dev) (l width : Nat) (pts : List Int) : List Nat :=
  let idx := (((pts.drop (d.nI Ix.vpRollFirst l)).take (width / max (d.nI Ix.vpRollXscale l) 1)).map fun v =>
    List.replicate (max (d.nI Ix.vpRollXscale l) 1) (rollIndex (d.rd Ix.vpRollTop (l + 1) 0) (d.nI Ix.vpRollStep l) v)).flatten
  idx ++ List.replicate (width - idx.length) 0

theorem Dev.length_lineIndices (d : Dev) (l width : Nat) (pts : List Int) : (d.lineIndices l width pts).length = width := by
  unfold Dev.lineIndices
  generalize max (d.nI Ix.vpRollXscale l) 1 = sc
  dsimp only
  rw [List.length_append, List.length_replicate, length_flatten_map_of_length fun _ => List.length_replicate]
  have hfits : ((pts.drop (d.nI Ix.vpRollFirst l)).take (width / sc)).length * sc ≤ width :=
    (Nat.mul_le_mul_right sc (List.length_take_le ..)).trans (Nat.div_mul_le_self ..)
  omega

/-- The bytes of a line in the format of its buffer. -/
def Dev.lineBytes (d : Dev) (l : Nat) (h : HandleSt) (pts : List Int) : List Byte :=
  ((d.lineIndices l h.width pts).map (d.rollPixel (d.nI Ix.vpRollPalette l) h.format)).flatten

theorem Dev.length_lineBytes (d : Dev) (l : Nat) {h : HandleSt} (hf : 1 ≤ h.format ∧ h.format ≤ 4) (pts : List Int) :
    (d.lineBytes l h pts).length = h.width * h.format := by
  rw [Dev.lineBytes, length_flatten_map_of_length fun i => d.length_rollPixel _ i hf, Dev.length_lineIndices]

/-! ### A line is rendered (R246, R247) -/

/-- A line's number, and its place in the buffer: what sets out for the hod buffer. -/
def Dev.lineItem (d : Dev) (l : Nat) (h : HandleSt) (number time : Nat) (pts : List Int) : HodItem :=
  ⟨.line l (number % h.height) number (h.offset + number % h.height * h.stride), time, time, number, d.lineBytes l h pts⟩

/-- A roll ring takes a trace as its next line, which is invalid until its write commits. -/
def RollSt.advanced (x : RollSt) (height : Nat) : RollSt :=
  { x with traces := x.traces + 1, newest := x.newest + 1, valid := x.valid.filter (fun k => k != (x.newest + 1) % height) }

theorem RollSt.advanced_invalid (x : RollSt) (height : Nat) : (x.newest + 1) % height ∉ (x.advanced height).valid := fun h =>
  bne_iff_ne.1 (List.mem_filter.1 h).2 rfl

/-- The roll ring of a layer. -/
def Dev.roll (d : Dev) (l : Nat) : RollSt := d.vp.rolls.get {} l

/-- The rendering of a line: the ring goes on, and the line sets out. -/
def Dev.lineRendered (d : Dev) (l : Nat) (h : HandleSt) (time : Nat) (pts : List Int) : Dev :=
  { d with vp := { d.vp with rolls := d.vp.rolls.put l ((d.roll l).advanced h.height) } }.ask (7 * 2 ^ 24 + l)
    (d.lineItem l h ((d.roll l).newest + 1) time pts)

theorem Dev.lineRendered_only (d : Dev) (l : Nat) (h : HandleSt) (time : Nat) (pts : List Int) :
    d.changesOnly [.vp, .cap] [] (d.lineRendered l h time pts) :=
  Dev.changesOnly_trans (pl := [.vp]) (ps := []) (Dev.vp_only ..) (Dev.cap_only ..)

theorem Dev.rollLine_renders {d : Dev} {l n : Nat} {h : HandleSt}
    (hdue : ((d.roll l).traces + 1) % max (d.nI Ix.vpRollEvery l) 1 = 0) (hentry : d.handleEntry (d.nI Ix.vpLayerHandle l) = some n)
    (hfind : d.vp.handles.find? n = some h) (time : Nat) (pts : List Int) : d.rollLine l time pts = d.lineRendered l h time pts := by
  unfold Dev.rollLine
  refine (if_neg ?_).trans ?_
  · rw [bne_iff_ne, not_not]
    exact hdue
  · simp only [hentry, hfind]
    rfl

/-- A trace at one of the layers. -/
def Dev.rollStep (src time : Nat) (pts : List Int) (d : Dev) (l : Nat) : Dev :=
  if d.nI Ix.vpRoll l != 0 && d.nI Ix.vpRollSrc l == src then d.rollLine l time pts else d

/-- Layers that are not in roll mode render nothing. -/
theorem Dev.foldl_rollStep_off {src time : Nat} {pts : List Int} {d : Dev} {ls : List Nat} (h : ∀ l ∈ ls, d.nI Ix.vpRoll l = 0) :
    ls.foldl (Dev.rollStep src time pts) d = d := by
  induction ls with
  | nil => rfl
  | cons l ls ih =>
    have hskip : Dev.rollStep src time pts d l = d := if_neg (by rw [h l List.mem_cons_self]; exact Bool.false_ne_true)
    rw [List.foldl_cons, hskip, ih fun k hk => h k (List.mem_cons_of_mem l hk)]

/-- A trace meets the one layer that is in roll mode. -/
theorem Dev.rollTrace_one {d x : Dev} {src l time : Nat} {pts : List Int} (hl : l < 3) (hon : d.nI Ix.vpRoll l ≠ 0) (hsrc : d.nI Ix.vpRollSrc l = src)
    (hoff : ∀ j < 3, j ≠ l → d.nI Ix.vpRoll j = 0) (hx : d.rollLine l time pts = x) (hsame : x.nI Ix.vpRoll = d.nI Ix.vpRoll) :
    d.rollTrace src time pts = x := by
  obtain ⟨before, after, hsplit⟩ := List.append_of_mem (List.mem_range.2 hl)
  have hnodup : (before ++ l :: after).Nodup := hsplit ▸ List.nodup_range
  have hlt : ∀ j ∈ before ++ l :: after, j < 3 := fun j hj => List.mem_range.1 (hsplit ▸ hj)
  rw [List.nodup_middle, List.nodup_cons, List.mem_append, not_or] at hnodup
  obtain ⟨⟨hbefore, hafter⟩, -⟩ := hnodup
  have hstep : Dev.rollStep src time pts d l = x := (if_pos (Bool.and_eq_true_iff.2 ⟨bne_iff_ne.2 hon, beq_iff_eq.2 hsrc⟩)).trans hx
  show (List.range 3).foldl (Dev.rollStep src time pts) d = x
  rw [hsplit, List.foldl_append, List.foldl_cons,
    Dev.foldl_rollStep_off fun j hj => hoff j (hlt j (by simp [hj])) (ne_of_mem_of_not_mem hj hbefore), hstep]
  exact Dev.foldl_rollStep_off fun j hj => hsame ▸ hoff j (hlt j (by simp [hj])) (ne_of_mem_of_not_mem hj hafter)

theorem Dev.roll_lineRendered (d : Dev) (l : Nat) (h : HandleSt) (time : Nat) (pts : List Int) :
    (d.lineRendered l h time pts).roll l = (d.roll l).advanced h.height := Tab.get_put_same ..

/-- A full trace has closed: it is emitted, and a new one begins. -/
def Dev.traceClosed (d : Dev) (k : Nat) : Dev :=
  (d.traceEmit d k (d.layer k).trace false).setLayer k { (d.traceEmit d k (d.layer k).trace false).layer k with trace := {} }

theorem Dev.traceClosed_only {d : Dev} {k : Nat} (hconv : d.traceConv k (d.layer k).trace = []) :
    d.changesOnly [.out, .ctr, .spe] [Ix.speTraces] (d.traceClosed k) :=
  Dev.changesOnly_trans (Dev.traceEmit_only hconv false) (Dev.setLayer_only ..)

/-- The instant of a closed trace's frame, and its points. -/
def Dev.closedTime (d : Dev) (k f : Nat) : Nat := (d.traceEmit d k (d.layer k).trace false).frameTime k f
def Dev.closedPoints (d : Dev) (k : Nat) : List Int := d.traceLogs k (d.layer k).trace

/-- A trace whose frames are complete closes, and meets the rolls. -/
theorem completes_traceClose_full {t k f : Nat} {s : State} {e x : Dev} {pl : List Part} {ps : List Nat} {post : Dev → Prop} (he : e = s.dev.at t)
    (hk : k < 16) (hsrc : e.nI Ix.speLayerSrc k ≠ 0) (hfirst : (e.layer k).trace.first = some f)
    (hfull : (f / e.traceLen k + 1) * e.traceLen k ≤ (e.layer k).next.getD 0)
    (hx : (e.traceClosed k).rollTrace k (e.closedTime k f) (e.closedPoints k) = x) (honly : e.changesOnly pl ps x) (hpost : post x) :
    Completes (.traceClose t k) t s pl ps post := by
  subst he
  refine completes_of_runIf (exec_traceClose ..) (decide_eq_true hk) ((if_neg hsrc).trans ?_) honly hpost
  rw [hfirst]
  exact (if_neg (Nat.not_lt.2 hfull)).trans hx

theorem traceClose_rolls {t k l n f : Nat} {h : HandleSt} {s : State} {e : Dev} (he : e = s.dev.at t) (hk : k < 16) (hl : l < 3)
    (hsrc : e.nI Ix.speLayerSrc k ≠ 0) (hfirst : (e.layer k).trace.first = some f)
    (hfull : (f / e.traceLen k + 1) * e.traceLen k ≤ (e.layer k).next.getD 0) (hconv : e.traceConv k (e.layer k).trace = [])
    (hon : e.nI Ix.vpRoll l ≠ 0) (hfed : e.nI Ix.vpRollSrc l = k) (hoff : ∀ j < 3, j ≠ l → e.nI Ix.vpRoll j = 0)
    (hdue : ((e.roll l).traces + 1) % max (e.nI Ix.vpRollEvery l) 1 = 0) (hentry : e.handleEntry (e.nI Ix.vpLayerHandle l) = some n)
    (hfind : e.vp.handles.find? n = some h) :
    Completes (.traceClose t k) t s [.spe, .vp, .cap, .out, .ctr] [Ix.speTraces] fun d =>
      d.roll l = (e.roll l).advanced h.height ∧
      d.cap.asked = e.cap.asked ++
        [(7 * 2 ^ 24 + l, (e.traceClosed k).lineItem l h ((e.roll l).newest + 1) (e.closedTime k f) (e.closedPoints k))] := by
  have hclosed := Dev.traceClosed_only hconv
  have hvp := hclosed.vp (by decide)
  have hroll : (e.traceClosed k).roll l = e.roll l := congrArg (fun x => x.rolls.get {} l) hvp
  have hline := Dev.rollLine_renders (d := e.traceClosed k) (by rwa [hroll, hclosed.nI (by decide)])
    (by rwa [hclosed.handleEntry (by decide), hclosed.nI (by decide)]) (by rwa [hvp]) (e.closedTime k f) (e.closedPoints k)
  have hrendered := (e.traceClosed k).lineRendered_only l h (e.closedTime k f) (e.closedPoints k)
  have htrace := Dev.rollTrace_one (d := e.traceClosed k) (src := k) hl (by rwa [hclosed.nI (by decide)]) (by rwa [hclosed.nI (by decide)])
    (by rwa [hclosed.nI (by decide)]) hline (hrendered.nI List.not_mem_nil)
  refine completes_traceClose_full he hk hsrc hfirst hfull htrace
    (Dev.changesOnly_mono (Dev.changesOnly_trans hclosed hrendered) (by decide) (by decide)) ⟨?_, ?_⟩
  · rw [Dev.roll_lineRendered, hroll]
  · rw [← hroll, ← hclosed.cap (by decide)]
    rfl

end Sys2Proof.Machine
end

section
/-! PROOFS. The line of a layer in roll mode leaves the hod buffer for its buffer in the pool: what settles O30's clause on a block that leaves, and
O30 (R24, R245, R247). -/

namespace Sys2Proof.Machine

theorem exec_hodBlockLeave (t stream : Nat) (s : State) : exec (.hodBlockLeave t stream) s = execHodBlockLeave t stream s := rfl

/-! ### The hod buffer's streams and ports (R24, R267) -/

theorem Dev.setHod_only (d : Dev) (n : Nat) (x : HodStream) : d.changesOnly [.cap] [] (d.setHod n x) := Dev.cap_only ..

theorem Dev.portServe_only (d : Dev) (p n : Nat) : d.changesOnly [.cap, .ctr] [Ix.capPortBytes] (d.portServe p n) :=
  Dev.changesOnly_trans (pl := [.cap]) (ps := []) (Dev.cap_only ..) (Dev.incI_only ..)

theorem Dev.rewrote_only (d : Dev) (a : Alloc) (o n : Nat) : d.changesOnly [.cap] [] (d.rewrote a o n) :=
  Dev.changesOnly_ite (fun _ => Dev.changesOnly_refl ..) fun _ => Dev.cap_only ..

theorem Dev.hodReport_only (d : Dev) : d.changesOnly [.cap] [Ix.capHodOccupancy, Ix.capHodHighWater] d.hodReport :=
  Dev.changesOnly_trans (pl := []) (ps := [Ix.capHodOccupancy]) (Dev.w0_only ..) (Dev.changesOnly_trans (pl := [.cap]) (ps := [])
    (Dev.changesOnly_ite (fun _ => Dev.cap_only ..) fun _ => Dev.changesOnly_refl ..)
    (Dev.changesOnly_ite (pl := []) (ps := [Ix.capHodHighWater]) (fun _ => Dev.w0_only ..) fun _ => Dev.changesOnly_refl ..))

theorem Dev.allocOf_setHod (d : Dev) (n : Nat) (x : HodStream) : (d.setHod n x).allocOf = d.allocOf := rfl

theorem Dev.allocOf_portServe (d : Dev) (p n : Nat) : (d.portServe p n).allocOf = d.allocOf := (Dev.incI_only ..).allocOf (by decide)

/-- Lines of roll layers use port 4. -/
theorem Dev.streamPort_line (d : Dev) {l : Nat} (hl : l < 3) : d.streamPort (7 * 2 ^ 24 + l) = 4 := by
  have hkind : (7 * 2 ^ 24 + l) / 2 ^ 24 = 7 := by omega
  unfold Dev.streamPort
  rw [hkind]
  rfl

/-- A stream with these full blocks left to it. -/
def HodStream.withFull (x : HodStream) (r : List HodBlock) : HodStream := { x with full := r }

/-- A full block leaves first. -/
theorem HodStream.leaves_full {x : HodStream} {b : HodBlock} {r : List HodBlock} (h : x.full = b :: r) (now : Nat) :
    x.leaves now = some (b, x.withFull r) := by
  rw [HodStream.leaves, h]
  rfl

/-- While the channels are in service a block of one item serves its port and commits the item. -/
theorem Dev.commitBlock_one {d : Dev} {stream len : Nat} (hlen : len ≠ 0) (hstate : d.n0 Ix.capState ≠ 4) (it : HodItem) (m : Mem) :
    d.commitBlock stream ⟨[it], len⟩ m = (d.portServe (d.streamPort stream) len).commitItem it m := by
  have hgone : ((d.portServe (d.streamPort stream) len).fullService && (d.portServe (d.streamPort stream) len).n0 Ix.capState = 4) = false := by
    rw [(Dev.portServe_only ..).n0 (by decide), decide_eq_false hstate, Bool.and_false]
  unfold Dev.commitBlock
  dsimp only
  rw [if_neg hlen, hgone, if_neg Bool.false_ne_true, if_neg Bool.false_ne_true]
  rfl

/-! ### Addresses (R257 to R259, R280) -/

/-- Where the bytes of an allocation stand follows from the hash and the channels in service alone. -/
theorem Dev.changesOnly.liveAddrs {pl : List Part} {ps : List Nat} {d e : Dev} (h : d.changesOnly pl ps e) (hhash : Ix.capHashCh ∉ ps)
    (hchan : Ix.capChannels ∉ ps) : e.liveAddrs = d.liveAddrs := by
  have hofs : e.hashOf = d.hashOf := funext fun g => by rw [Dev.hashOf, Dev.hashOf, h.nI hhash]
  have hpos : e.servicePositions = d.servicePositions := funext fun map => funext fun g => by rw [Dev.servicePositions, Dev.servicePositions, hofs]
  have haddrs : e.allocAddrs = d.allocAddrs := funext fun a => funext fun o => by rw [Dev.allocAddrs, Dev.allocAddrs, hpos]
  have hof : e.chanOf = d.chanOf := funext fun a => by rw [Dev.chanOf, Dev.chanOf, hofs]
  have hin : e.inService = d.inService := funext fun c => by rw [Dev.inService, Dev.inService, h.n0 hchan]
  funext a o
  rw [Dev.liveAddrs, Dev.liveAddrs, haddrs, hof, hin]

/-- Bytes written into an allocation leave every other address as it is. -/
theorem Dev.writeAlloc_outside (d : Dev) (a : Alloc) (off : Nat) (bytes : List Byte) (m : Mem) :
    m.sameOutside (fun b => ∃ o < bytes.length, b ∈ d.liveAddrs a (off + o)) (d.writeAlloc a off bytes m) := fun _ hb =>
  memRead_writeAt_other _ _ _ _ _ fun k hk hmem => hb ⟨k, hk, hmem⟩

/-! ### A line is written (R245, R247) -/

theorem Dev.rollCommit_only (d : Dev) (l line number : Nat) : d.changesOnly [.vp, .ctr] [Ix.vpRollLines] (d.rollCommit l line number) :=
  Dev.changesOnly_trans (pl := [.vp]) (ps := []) (Dev.vp_only ..) (Dev.incI_only ..)

theorem Dev.rollCommit_counted (d : Dev) (l line number : Nat) : d.counted (d.rollCommit l line number) Ix.vpRollLines (l + 1) 0 1 :=
  Dev.changesOnly.counted (pl := [.vp]) (ps := []) (Dev.vp_only ..) (by decide) (Dev.inc_counted ..)

theorem Dev.rollCommit_done (d : Dev) (l line number : Nat) : ((d.rollCommit l line number).roll l).done = max (d.roll l).done number := by
  rw [Dev.roll, Dev.rollCommit, (Dev.incI_only ..).vp (by decide)]
  exact congrArg RollSt.done (Tab.get_put_same ..)

/-- A line that reaches its buffer. -/
theorem Dev.commitItem_line {d : Dev} {it : HodItem} {l line number off : Nat} {a : Alloc} (hdest : it.dest = .line l line number off)
    (hentry : (d.handleEntry (d.nI Ix.vpLayerHandle l)).isSome = true) (halloc : d.allocOf 0x10 0 = some a) (m : Mem) :
    d.commitItem it m = (d.writeAlloc a off it.bytes m, (d.rewrote a off it.bytes.length).rollCommit l line number) := by
  have hput : d.putPixels off (d.nI Ix.vpLayerHandle l) it.bytes m = (d.writeAlloc a off it.bytes m, d.rewrote a off it.bytes.length) := by
    rw [Dev.putPixels, if_pos hentry, Dev.poolWrite, halloc]
  rw [Dev.commitItem, hdest]
  dsimp only
  rw [hput]

/-- A line's block has left its stream, its port been served. -/
def Dev.lineLeaves (d : Dev) (stream : Nat) (y : HodStream) (len : Nat) : Dev := (d.setHod stream y).portServe 4 len

theorem Dev.lineLeaves_only (d : Dev) (stream : Nat) (y : HodStream) (len : Nat) :
    d.changesOnly [.cap, .ctr] [Ix.capPortBytes] (d.lineLeaves stream y len) :=
  Dev.changesOnly_mono (Dev.changesOnly_trans (d.setHod_only stream y) (Dev.portServe_only ..)) (by decide) (by decide)

/-- The block's line is committed: what it rewrites is lost no longer, and its ring takes it. -/
def Dev.lineCommitted (d : Dev) (stream : Nat) (y : HodStream) (len : Nat) (a : Alloc) (off n l line number : Nat) : Dev :=
  ((d.lineLeaves stream y len).rewrote a off n).rollCommit l line number

theorem Dev.lineCommitted_before (d : Dev) (stream : Nat) (y : HodStream) (len : Nat) (a : Alloc) (off n : Nat) :
    d.changesOnly [.cap, .ctr] [Ix.capPortBytes] ((d.lineLeaves stream y len).rewrote a off n) :=
  Dev.changesOnly_mono (Dev.changesOnly_trans (d.lineLeaves_only stream y len) (Dev.rewrote_only ..)) (by decide) (by decide)

section
variable (d : Dev) (stream : Nat) (y : HodStream) (len : Nat) (a : Alloc) (off n l line number : Nat)

theorem Dev.lineCommitted_only :
    d.changesOnly [.vp, .cap, .ctr] [Ix.vpRollLines, Ix.capPortBytes] (d.lineCommitted stream y len a off n l line number) :=
  Dev.changesOnly_mono (Dev.changesOnly_trans (d.lineCommitted_before stream y len a off n) (Dev.rollCommit_only ..)) (by decide) (by decide)

theorem Dev.lineCommitted_counted : d.counted (d.lineCommitted stream y len a off n l line number) Ix.vpRollLines (l + 1) 0 1 :=
  (d.lineCommitted_before stream y len a off n).counted (by decide) (Dev.rollCommit_counted ..)

theorem Dev.lineCommitted_done : ((d.lineCommitted stream y len a off n l line number).roll l).done = max (d.roll l).done number := by
  rw [Dev.lineCommitted, Dev.rollCommit_done, Dev.roll, (d.lineCommitted_before stream y len a off n).vp (by decide)]
  rfl

end

section
variable {t l line num off len : Nat} {s : State} {e : Dev} {it : HodItem} {a : Alloc} (hl : l < 3) (hlen : len ≠ 0)
  (hdest : it.dest = .line l line num off) (hstate : e.n0 Ix.capState ≠ 4) (hentry : (e.handleEntry (e.nI Ix.vpLayerHandle l)).isSome = true)
  (halloc : e.allocOf 0x10 0 = some a)
include hl hlen hdest hstate hentry halloc

theorem Dev.commitBlock_line (y : HodStream) (m : Mem) : (e.setHod (7 * 2 ^ 24 + l) y).commitBlock (7 * 2 ^ 24 + l) ⟨[it], len⟩ m =
    (e.writeAlloc a off it.bytes m, e.lineCommitted (7 * 2 ^ 24 + l) y len a off it.bytes.length l line num) := by
  have hleft := e.lineLeaves_only (7 * 2 ^ 24 + l) y len
  rw [Dev.commitBlock_one hlen (by rwa [(e.setHod_only ..).n0 List.not_mem_nil]), Dev.streamPort_line _ hl]
  refine (Dev.commitItem_line (d := e.lineLeaves (7 * 2 ^ 24 + l) y len) (a := a) hdest ?_ ?_ m).trans ?_
  · rwa [hleft.handleEntry (by decide), hleft.nI (by decide)]
  · rwa [Dev.lineLeaves, Dev.allocOf_portServe, Dev.allocOf_setHod]
  · rw [Dev.writeAlloc, hleft.liveAddrs (by decide) (by decide)]
    rfl

theorem hodBlockLeave_line {r : List HodBlock} (he : e = s.dev.at t) (hfull : (e.hodStream (7 * 2 ^ 24 + l)).full = ⟨[it], len⟩ :: r)
    (hstall : e.cap.stallUntil ≤ e.now) (hawake : e.cap.asleep = false) (hport : e.portOpen 4 = true) (htrain : e.cap.training = none) :
    CompletesMem (.hodBlockLeave t (7 * 2 ^ 24 + l)) t s [.vp, .cap, .ctr]
      [Ix.vpRollLines, Ix.capPortBytes, Ix.capHodOccupancy, Ix.capHodHighWater] fun m d =>
      m = e.writeAlloc a off it.bytes s.mem ∧ s.mem.sameOutside (fun b => ∃ o < it.bytes.length, b ∈ e.liveAddrs a (off + o)) m ∧
      e.counted d Ix.vpRollLines (l + 1) 0 1 ∧ (d.roll l).done = max (e.roll l).done num := by
  have hblock := Dev.commitBlock_line hl hlen hdest hstate hentry halloc ((e.hodStream (7 * 2 ^ 24 + l)).withFull r) s.mem
  have honly := e.lineCommitted_only (7 * 2 ^ 24 + l) ((e.hodStream (7 * 2 ^ 24 + l)).withFull r) len a off it.bytes.length l line num
  have hcounted := e.lineCommitted_counted (7 * 2 ^ 24 + l) ((e.hodStream (7 * 2 ^ 24 + l)).withFull r) len a off it.bytes.length l line num
  have hdone := e.lineCommitted_done (7 * 2 ^ 24 + l) ((e.hodStream (7 * 2 ^ 24 + l)).withFull r) len a off it.bytes.length l line num
  generalize e.lineCommitted (7 * 2 ^ 24 + l) ((e.hodStream (7 * 2 ^ 24 + l)).withFull r) len a off it.bytes.length l line num = x at *
  have hkind : (7 * 2 ^ 24 + l) / 2 ^ 24 = 7 := by omega
  subst he
  refine completesMem_of_eq (exec_hodBlockLeave ..) (by rw [hkind]; rfl) (m := (s.dev.at t).writeAlloc a off it.bytes s.mem) (x := x.hodReport) ?_
    (Dev.changesOnly_mono (Dev.changesOnly_trans honly x.hodReport_only) (by decide) (by decide))
    ⟨rfl, Dev.writeAlloc_outside _ _ _ _ _, hcounted.after x.hodReport_only (by decide), ?_⟩
  · refine (if_neg ?_).trans ?_
    · rw [Dev.streamPort_line _ hl, hport, hawake, decide_eq_false (Nat.not_lt.2 hstall)]
      exact Bool.false_ne_true
    · have htrained : ((s.dev.at t).setHod (7 * 2 ^ 24 + l) (((s.dev.at t).hodStream (7 * 2 ^ 24 + l)).withFull r)).cap.training = none := htrain
      rw [HodStream.leaves_full hfull]
      dsimp only
      rw [htrained, Option.map_none]
      dsimp only
      rw [hblock]
  · rw [Dev.roll, x.hodReport_only.vp (by decide)]
    exact hdone

end

/-- Settles O30, clause by clause: a buffer and its handle, a free that waits, one of no handle, a cursor pixel, a commit, a latch point with nothing
committed and one with a part committed, a trace that gives a line, a line's block that leaves. -/
theorem viewportHandlesCommitsAndRolls : Obligations.ViewportHandlesCommitsAndRolls := by
  unfold Obligations.ViewportHandlesCommitsAndRolls
  refine ⟨?_, ?_, ?_, ?_, ?_, ?_, ?_, ?_, ?_⟩
  · exact fun t path s e w h f n stride size off g he hr hw hh hf hwr hhr hfr hfree hstride hsize hoff hfits hg =>
      vpAlloc_gives he hr hw hh hf hwr hhr hfr hfree hstride hsize hoff hfits hg
  · exact fun t path s e n he hr hentry hnew => vpFreeRequest_waits he hr hentry hnew
  · exact fun t path s e he hr hpath hentry => vpFreeRequest_refused he hr hpath hentry
  · exact fun t path v s e i he hr hindex hi => vpCursorPixel_stages he hr hindex hi
  · intro t path map s e he hr hmap hroll
    obtain ⟨d, hexec, honly, hstaged, hcommitted⟩ := vpCommit_commits he hr hmap hroll
    exact ⟨d, hexec, honly, hstaged, fun p hp hbit => (hcommitted p hp hbit).trans (congrArg some (e.partJoins_eq p))⟩
  · rintro t s e tm he hon hscan hsusp hc rfl
    exact vpLatchPoint_ofNone he hon hscan hsusp hc
  · exact fun t s e p w he hon hscan hsusp hp hc hw => vpLatchPoint_applies he hon hscan hsusp hp hc hw
  · rintro t k l s e x r n h f he hk hl rfl hsrc hfirst hfull hconv hon hfed hoff rfl hdue hentry hfind hformat
    obtain ⟨d, hexec, honly, hroll, hasked⟩ := traceClose_rolls he hk hl hsrc hfirst hfull hconv hon hfed hoff hdue hentry hfind
    refine ⟨d, hexec, honly, congrArg RollSt.newest hroll, congrArg RollSt.traces hroll, ?_, ?_⟩
    · exact congrArg RollSt.valid hroll ▸ RollSt.advanced_invalid _ _
    · rw [hasked, List.drop_left, ← Dev.length_lineBytes (e.traceClosed k) l hformat (e.closedPoints k)]
      rfl
  · rintro t l s e x it len r line num off a he hl rfl hfull hlen hdest hstall hawake hport htrain hstate hentry halloc
    exact hodBlockLeave_line hl hlen hdest hstate hentry halloc he hfull hstall hawake hport htrain

end Sys2Proof.Machine
end

section
/-! PROOFS. Every operation on capture memory keeps its canonical form, and so does every command that reaches it. -/

namespace Sys2Proof.Machine

/-! ### How a meaning ends -/

/-- A meaning ends in a next state that differs from `s` in capture memory and the device alone, and keeps the memory's canonical form. -/
def EndsFrom (s : State) (r : Res) : Prop :=
  ∃ m d, r = .next { s with mem := m, dev := d } ∧ (Memory.wf s.mem → Memory.wf m)

theorem endsFrom_next (s : State) (d : Dev) : EndsFrom s (.next { s with dev := d }) := ⟨s.mem, d, rfl, id⟩

theorem endsFrom_run (t : Nat) (s : State) (f : Dev → Dev) : EndsFrom s (run t s f) := endsFrom_next s _

theorem endsFrom_runMem (t : Nat) (s : State) {f : Mem → Dev → Mem × Dev} (h : ∀ m d, Memory.wf m → Memory.wf (f m d).1) :
    EndsFrom s (runMem t s f) := ⟨_, _, rfl, h _ _⟩

theorem endsFrom_runMemIf (ok : Bool) (t : Nat) (s : State) {f : Mem → Dev → Mem × Dev} (h : ∀ m d, Memory.wf m → Memory.wf (f m d).1) :
    EndsFrom s (runMemIf ok t s f) := by
  refine endsFrom_runMem t s fun m d hm => ?_
  split
  · exact h m d hm
  · exact hm

/-- A meaning that starts from another device of the same state. -/
theorem EndsFrom.of_dev {s : State} {d : Dev} {r : Res} (h : EndsFrom { s with dev := d } r) : EndsFrom s r := h

theorem EndsFrom.ite {s : State} {c : Prop} [Decidable c] {a b : Res} (ha : EndsFrom s a) (hb : EndsFrom s b) :
    EndsFrom s (if c then a else b) := by
  split
  · exact ha
  · exact hb

/-- One meaning after another. -/
theorem EndsFrom.andThen {s : State} {r : Res} {f : State → Res} (h : EndsFrom s r) (hf : ∀ e, EndsFrom e (f e)) : EndsFrom s (andThen r f) := by
  obtain ⟨m, d, rfl, hm⟩ := h
  obtain ⟨m', d', he, hm'⟩ := hf { s with mem := m, dev := d }
  exact ⟨m', d', he, fun hs => hm' (hm hs)⟩

/-! ### Operations on capture memory keep its form -/

theorem Memory.wf_foldl_fst {β : Type} (f : Mem × Dev → β → Mem × Dev) (hf : ∀ p x, Memory.wf p.1 → Memory.wf (f p x).1) (l : List β)
    {p : Mem × Dev} (h : Memory.wf p.1) : Memory.wf (l.foldl f p).1 := by
  induction l generalizing p with
  | nil => exact h
  | cons x r ih => exact ih (hf p x h)

theorem Memory.wf_of_eq {p : Mem × Dev} {m : Mem} {d : Dev} (e : p = (m, d)) (h : Memory.wf p.1) : Memory.wf m := by rwa [e] at h

/-- Bytes written where the device allows it. -/
theorem Memory.wf_writesWhere (ok : Nat → Bool) (l : List (Nat × Byte)) {m : Mem} (h : Memory.wf m) :
    Memory.wf (l.foldl (fun (m : Mem) p => if ok p.1 then memWrite m p.1 p.2 else m) m) := by
  refine Memory.wf_writes _ (fun m p hm => ?_) l h
  split
  · exact Memory.wf_write _ _ hm
  · exact hm

/-! #### Losses, sparing and retirement -/

theorem Memory.wf_retireChannel (d : Dev) (c : Nat) {m : Mem} (h : Memory.wf m) : Memory.wf (d.retireChannel c m).1 := by
  unfold Dev.retireChannel
  split
  · exact h
  · exact Memory.wf_dropChannel d c h

theorem Memory.wf_spareRank (d : Dev) (c r cause : Nat) {m : Mem} (h : Memory.wf m) : Memory.wf (d.spareRank c r cause m).1 := by
  unfold Dev.spareRank
  split
  · exact h
  · exact Memory.wf_retireChannel d c h

theorem endsFrom_uncorrectableBurst (t addr : Nat) (s : State) : EndsFrom s (execUncorrectableBurst t addr s) := by
  refine endsFrom_runMemIf _ t s fun m d hm => ?_
  have hl : ∀ {c r m' d'}, d.loseBurst c r addr m = (m', d') → Memory.wf m' := fun {c r _ _} e => Memory.wf_of_eq e (Memory.wf_loseBurst d c r addr hm)
  extract_lets
  split
  · exact hm
  · split
    · split
      · split
        next e => exact Memory.wf_retireChannel _ _ (hl e)
      · split
        · split
          next e => exact hl e
        · split
          next e => exact Memory.wf_retireChannel _ _ (hl e)
    · split
      next e => exact Memory.wf_spareRank _ _ _ _ (hl e)

theorem endsFrom_ceLimitSpare (t chan rank : Nat) (s : State) : EndsFrom s (execCeLimitSpare t chan rank s) := by
  refine endsFrom_runMemIf _ t s fun m d hm => ?_
  extract_lets
  split
  · exact Memory.wf_spareRank d chan rank 2 hm
  · exact hm

theorem endsFrom_patrolScrub (t chan rank corrected : Nat) (lost : List Nat) (s : State) :
    EndsFrom s (execPatrolScrub t chan rank corrected lost s) := by
  refine endsFrom_runMemIf _ t s fun m d hm => ?_
  extract_lets
  split
  · exact hm
  · split
    · exact hm
    · split
      next m' d' e =>
        have hm' : Memory.wf m' := Memory.wf_of_eq e (Memory.wf_foldl_fst _ (fun p a h => Memory.wf_loseBurst p.2 chan rank a h) lost hm)
        split
        · exact hm'
        · split
          · exact hm'
          · exact Memory.wf_spareRank _ _ _ _ hm'

/-! #### The supplies: the memory is lost or left -/

theorem endsFrom_auxLoss (t : Nat) (s : State) : EndsFrom s (execAuxLoss t s) := by
  refine endsFrom_runMem t s fun m d hm => ?_
  split
  · exact Memory.wf_nil
  · exact hm

theorem Memory.wf_v12Lost (d : Dev) {m : Mem} (h : Memory.wf m) : Memory.wf (d.v12Lost m).1 := by
  unfold Dev.v12Lost
  extract_lets
  split
  · exact Memory.wf_nil
  · exact h

theorem endsFrom_railOutOfRegulation (t rail milliVolt centiAmp : Nat) (s : State) :
    EndsFrom s (execRailOutOfRegulation t rail milliVolt centiAmp s) := by
  refine endsFrom_runMemIf _ t s fun m d hm => ?_
  extract_lets
  split
  · exact hm
  · split
    · exact Memory.wf_nil
    · exact hm

theorem endsFrom_resetNAssert (t samples : Nat) (s : State) : EndsFrom s (execResetNAssert t samples s) := by
  refine endsFrom_runMem t s fun m d hm => ?_
  split
  · exact hm
  · exact Memory.wf_nil

theorem endsFrom_modReset (t path : Nat) (s : State) : EndsFrom s (execModReset t path s) := by
  refine endsFrom_runMem t s fun m d hm => ?_
  split
  · exact Memory.wf_nil
  · exact hm

theorem endsFrom_thermalTrip (t : Nat) (temp : Int) (s : State) : EndsFrom s (execThermalTrip t temp s) := by
  refine endsFrom_runMem t s fun m d hm => ?_
  extract_lets
  split
  · exact Memory.wf_nil
  · exact hm

/-! #### Rings -/

theorem Memory.wf_ringStore (d : Dev) (r pi : Nat) (x : Rec) {m : Mem} (h : Memory.wf m) : Memory.wf (d.ringStore r pi x m).1 := by
  unfold Dev.ringStore
  extract_lets
  split
  · exact h
  · split
    · split
      · exact Memory.wf_writeAlloc _ _ _ _ h
      · exact h
    · exact h

theorem Memory.wf_ringPut {d : Dev} {r : Nat} {x : Rec} {m : Mem} {q : Mem × Dev} (h : Memory.wf m) (hq : d.ringPut r x m = some q) :
    Memory.wf q.1 := by
  unfold Dev.ringPut at hq
  extract_lets s pi free n pos pad at hq
  split at hq
  · cases hq
  · obtain rfl := Option.some.inj hq
    refine Memory.wf_ringStore _ _ _ _ (?_ : Memory.wf (if pad = 0 then (m, d) else d.ringStore r pi (padRec pad) m).1)
    split
    · exact h
    · exact Memory.wf_ringStore _ _ _ _ h

theorem Memory.wf_ringMarkers {r : Nat} {l : List Loss} {m : Mem} {d : Dev} {q : Mem × Dev} (h : Memory.wf m)
    (hq : Dev.ringMarkers r l m d = some q) : Memory.wf q.1 := by
  induction l generalizing m d with
  | nil =>
    obtain rfl := Option.some.inj hq
    exact h
  | cons x ls ih =>
    obtain ⟨p, hp, hq⟩ := Option.bind_eq_some_iff.mp hq
    exact ih (Memory.wf_ringPut h hp) hq

theorem Memory.wf_ringDrain (r k : Nat) {m : Mem} {d : Dev} (h : Memory.wf m) : Memory.wf (Dev.ringDrain r k m d).1 := by
  induction k generalizing m d with
  | zero => exact h
  | succ k ih =>
    unfold Dev.ringDrain
    split
    · exact h
    · extract_lets x pop put
      have hput : ∀ q, put = some q → Memory.wf q.1 := by
        intro q hq
        simp only [put] at hq
        split at hq
        · split at hq
          · next p hp => exact Memory.wf_ringPut (Memory.wf_ringMarkers h hp) hq
          · cases hq
        · cases hq
      clear_value put
      cases put with
      | some q => exact ih (hput q rfl)
      | none =>
        dsimp only
        split
        · exact h
        · exact ih h

theorem Memory.wf_ringDeliver (d : Dev) (r : Nat) {m : Mem} (h : Memory.wf m) : Memory.wf (d.ringDeliver r m).1 := Memory.wf_ringDrain r _ h

theorem Memory.wf_ringCommand (d : Dev) (path v : Nat) {m : Mem} {f : Dev → Nat → Mem × Dev} (h : Memory.wf m)
    (hf : ∀ d r, Memory.wf (f d r).1) : Memory.wf (d.ringCommand path v m f).1 := by
  unfold Dev.ringCommand
  split
  · exact hf _ _
  · exact h

theorem Memory.wf_ringShut (d : Dev) (path r : Nat) {m : Mem} (h : Memory.wf m) : Memory.wf (d.ringShut path r m).1 := by
  unfold Dev.ringShut
  extract_lets
  split
  · exact h
  · split
    · exact h
    · split
      · exact h
      · exact Memory.wf_ringDeliver _ r h

theorem endsFrom_ringRecord (t ring : Nat) (s : State) : EndsFrom s (execRingRecord t ring s) := by
  refine endsFrom_runMemIf _ t s fun m d hm => ?_
  split
  · exact hm
  · exact Memory.wf_ringDeliver _ ring hm

theorem endsFrom_ringSpaceAvailable (t ring : Nat) (s : State) : EndsFrom s (execRingSpaceAvailable t ring s) :=
  endsFrom_runMemIf _ t s fun _ d hm => Memory.wf_ringDeliver d ring hm

theorem endsFrom_ringClose (t path : Nat) (s : State) : EndsFrom s (execRingClose t path s) :=
  endsFrom_runMem t s fun _ d hm => Memory.wf_ringCommand d path 2 hm fun e r => Memory.wf_ringShut e path r hm

theorem endsFrom_ringCloseDrainEnd (t ring : Nat) (s : State) : EndsFrom s (execRingCloseDrainEnd t ring s) := by
  refine endsFrom_runMemIf _ t s fun m d hm => ?_
  split
  · exact hm
  · exact Memory.wf_ringDeliver d ring hm

theorem endsFrom_ringResume (t path : Nat) (s : State) : EndsFrom s (execRingResume t path s) := by
  refine endsFrom_runMem t s fun m d hm => Memory.wf_ringCommand d path 4 hm fun e r => ?_
  split
  · exact Memory.wf_ringDeliver _ r hm
  · exact hm

theorem endsFrom_hostLinkUp (t gen width : Nat) (s : State) : EndsFrom s (execHostLinkUp t gen width s) := by
  refine endsFrom_runMem t s fun m d hm => ?_
  split
  · exact hm
  · refine Memory.wf_foldl_fst _ (fun q r hq => ?_) _ hm
    split
    · exact Memory.wf_ringDeliver _ r hq
    · exact hq

/-! #### The host's window, playback and copies -/

theorem endsFrom_hostBar2Read (t addr len : Nat) (s : State) : EndsFrom s (execHostBar2Read t addr len s) := by
  refine endsFrom_runMemIf _ t s fun m d hm => ?_
  extract_lets
  split
  · exact hm
  · split <;> exact hm

theorem endsFrom_hostBar2Write (t addr : Nat) (data : List Byte) (s : State) : EndsFrom s (execHostBar2Write t addr data s) := by
  refine endsFrom_runMemIf _ t s fun m d hm => ?_
  extract_lets
  split
  · exact hm
  · split
    · exact hm
    · exact Memory.wf_writesWhere _ _ hm

theorem endsFrom_pbRelease (t pb : Nat) (staged : Bool) (v : Int × Int × Nat) (s : State) : EndsFrom s (execPbRelease t pb staged v s) := by
  refine endsFrom_runMemIf _ t s fun m d hm => ?_
  extract_lets
  split
  · exact hm
  · split <;> exact hm

theorem Memory.wf_takeRing (d : Dev) (p : CfPkt) (lens : List Nat) {m : Mem} (h : Memory.wf m) : Memory.wf (d.takeRing p lens m).1 :=
  Memory.wf_ringDeliver _ _ h

theorem Memory.wf_takeCopy (d : Dev) (p : CfPkt) (lost : Nat) {m : Mem} (h : Memory.wf m) : Memory.wf (d.takeCopy p lost m).1 := by
  unfold Dev.takeCopy
  split
  · split
    · exact h
    · extract_lets data a ok
      exact Memory.wf_writesWhere _ _ h
  · exact h

theorem endsFrom_fabricDataReceive (t port w0 w1 : Nat) (body : List Byte) (lens : List Nat) (lost : Nat) (s : State) :
    EndsFrom s (execFabricDataReceive t port w0 w1 body lens lost s) := by
  refine endsFrom_runMemIf _ t s fun m d hm => ?_
  split
  · exact hm
  · next p _ =>
    extract_lets d' x inOrder _ d'' q e
    have hq : Memory.wf q.1 := by
      simp only [q]
      split
      · exact hm
      · split
        · exact Memory.wf_takeRing _ _ _ hm
        · split
          · exact hm
          · exact Memory.wf_takeCopy _ _ _ hm
    clear_value q
    split
    · exact hm
    · split
      · exact hm
      · split
        · exact hm
        · split <;> exact hq

theorem endsFrom_fabricAckReceive (t port w0 w1 : Nat) (body : List Byte) (s : State) :
    EndsFrom s (execFabricAckReceive t port w0 w1 body s) := by
  refine endsFrom_runMemIf _ t s fun m d hm => ?_
  split
  · exact hm
  · extract_lets
    split
    · exact hm
    · split
      · exact hm
      · exact Memory.wf_foldl_fst _ (fun q f hq => Memory.wf_ringDeliver _ f.1 hq) _ hm

/-! #### Reels -/

theorem Memory.wf_storeUnit (d : Dev) (r slot : Nat) (bytes : List Byte) {m : Mem} (h : Memory.wf m) :
    Memory.wf (d.storeUnit r slot bytes m).1 := by
  unfold Dev.storeUnit
  cases d.allocOf 0x12 0 with
  | some a => exact Memory.wf_writeAlloc _ a _ bytes h
  | none => exact h

theorem Memory.wf_closeSampleUnit (d : Dev) (r : Nat) {m : Mem} (h : Memory.wf m) : Memory.wf (d.closeSampleUnit r m).1 := by
  unfold Dev.closeSampleUnit
  extract_lets
  split
  · exact h
  · split
    · exact h
    · split
      · exact h
      · split
        · exact h
        · dsimp only
          exact Memory.wf_storeUnit _ _ _ _ h

theorem Memory.wf_closeAnnexUnit (d : Dev) (r : Nat) {m : Mem} (h : Memory.wf m) : Memory.wf (d.closeAnnexUnit r m).1 := by
  unfold Dev.closeAnnexUnit
  split
  · split
    · exact h
    · exact Memory.wf_ringDeliver _ _ (Memory.wf_storeUnit _ _ _ _ h)
  · exact h

theorem endsFrom_reelUnitClose (t reel : Nat) (annex : Bool) (s : State) : EndsFrom s (execReelUnitClose t reel annex s) := by
  refine endsFrom_runMemIf _ t s fun m d hm => ?_
  extract_lets
  split
  · exact hm
  · split
    · exact Memory.wf_closeAnnexUnit d reel hm
    · split
      · exact hm
      · exact Memory.wf_closeSampleUnit d reel hm

/-! #### The hod buffer -/

theorem Memory.wf_csLog (d : Dev) (cs : Nat) (bytes : List Byte) {m : Mem} (h : Memory.wf m) : Memory.wf (d.csLog cs bytes m).1 := by
  unfold Dev.csLog
  split
  · extract_lets
    split
    · exact h
    · dsimp only
      exact Memory.wf_writeRing _ _ _ _ _ _ h
  · exact h

theorem Memory.wf_csStore (d : Dev) (cs j : Nat) (bytes : List Byte) {m : Mem} (h : Memory.wf m) : Memory.wf (d.csStore cs j bytes m).1 := by
  unfold Dev.csStore
  split
  · exact Memory.wf_writeRing _ _ _ _ _ _ h
  · exact h

theorem Memory.wf_putAlloc (d : Dev) (kind num off : Nat) (bytes : List Byte) {m : Mem} (h : Memory.wf m) :
    Memory.wf (d.putAlloc kind num off bytes m).1 := by
  unfold Dev.putAlloc
  split
  · exact Memory.wf_writeAlloc _ _ _ _ h
  · exact h

theorem Memory.wf_poolWrite (d : Dev) (off : Nat) (bytes : List Byte) {m : Mem} (h : Memory.wf m) : Memory.wf (d.poolWrite off bytes m).1 := by
  unfold Dev.poolWrite
  split
  · exact Memory.wf_writeAlloc _ _ _ _ h
  · exact h

theorem Memory.wf_putPixels (d : Dev) (off id : Nat) (bytes : List Byte) {m : Mem} (h : Memory.wf m) :
    Memory.wf (d.putPixels off id bytes m).1 := by
  unfold Dev.putPixels
  split
  · exact Memory.wf_poolWrite _ _ _ h
  · exact h

theorem Memory.wf_commitItem (d : Dev) (it : HodItem) {m : Mem} (h : Memory.wf m) : Memory.wf (d.commitItem it m).1 := by
  unfold Dev.commitItem
  cases it.dest with
  | stream cs j => exact Memory.wf_csStore _ _ _ _ h
  | slot mag _ offs => exact Memory.wf_foldl_fst _ (fun p _ hp => Memory.wf_putAlloc p.2 _ _ _ _ hp) _ h
  | log mag off => exact Memory.wf_putAlloc _ _ _ _ _ h
  | csSlate cs => exact Memory.wf_putAlloc _ _ _ _ _ h
  | csLog cs => exact Memory.wf_csLog _ _ _ h
  | record ring r => exact h
  | loss ring r => exact h
  | row p off which id last => exact Memory.wf_putPixels _ _ _ _ h
  | line l number off => exact Memory.wf_putPixels _ _ _ _ h
  | reel r j samples => exact h

theorem Memory.wf_commitBlock (d : Dev) (stream : Nat) (b : HodBlock) {m : Mem} (h : Memory.wf m) : Memory.wf (d.commitBlock stream b m).1 :=
  Memory.wf_foldl_fst _ (fun p it hp => Memory.wf_commitItem p.2 it hp) _ h

theorem Memory.wf_issueDeferred (d : Dev) (c : Nat) {m : Mem} (h : Memory.wf m) : Memory.wf (d.issueDeferred c m).1 :=
  Memory.wf_foldl_fst _ (fun p b hp => Memory.wf_commitBlock p.2 b.1 b.2 hp) _ h

theorem endsFrom_hodBlockLeave (t stream : Nat) (s : State) : EndsFrom s (execHodBlockLeave t stream s) := by
  refine endsFrom_runMemIf _ t s fun m d hm => ?_
  split
  · exact hm
  · split
    · exact hm
    · extract_lets
      split
      · split
        · exact hm
        · exact Memory.wf_commitBlock _ _ _ hm
      · exact Memory.wf_commitBlock _ _ _ hm

theorem endsFrom_retrainDone (t chan result rank : Nat) (s : State) : EndsFrom s (execRetrainDone t chan result rank s) := by
  refine endsFrom_runMemIf _ t s fun m d hm => ?_
  split
  · split
    · exact hm
    · extract_lets
      split
      · exact Memory.wf_issueDeferred _ _ hm
      · split
        · split
          next e => exact Memory.wf_spareRank _ _ _ _ (Memory.wf_of_eq e (Memory.wf_issueDeferred _ _ hm))
        · exact Memory.wf_retireChannel _ _ hm
  · exact hm

/-! #### Takes, the Viewport's pool, cuts and the changeover -/

theorem Memory.wf_takeZeros (d : Dev) (k : Nat) (tk : Take) {m : Mem} (h : Memory.wf m) : Memory.wf (d.takeZeros k tk m) := by
  unfold Dev.takeZeros
  split
  · exact h
  · refine Memory.wf_writes _ (fun m p hm => Memory.wf_writes _ (fun m x hx => ?_) _ hm) _ h
    split
    · exact Memory.wf_writeAlloc _ _ _ _ hx
    · exact hx

theorem endsFrom_takeComplete (t mag take : Nat) (s : State) : EndsFrom s (execTakeComplete t mag take s) := by
  refine endsFrom_runMemIf _ t s fun m d hm => ?_
  split
  · exact hm
  · split
    · exact hm
    · extract_lets log _ img rush
      show Memory.wf (if rush then m else d.takeZeros mag _ m)
      split
      · exact hm
      · exact Memory.wf_takeZeros _ _ _ hm

theorem Memory.wf_magMove (d : Dev) (k : Nat) {m : Mem} (h : Memory.wf m) : Memory.wf (d.magMove k m).1 := by
  unfold Dev.magMove
  extract_lets
  split
  · exact h
  · split
    · exact h
    · split
      · exact h
      · refine Memory.wf_writes _ (fun m tk hm => Memory.wf_writeAlloc _ _ _ _ hm) _ ?_
        refine Memory.wf_writes _ (fun m p hm => Memory.wf_writes _ (fun m c hc => Memory.wf_writeAlloc _ _ _ _ hc) _ hm) _ ?_
        refine Memory.wf_writes _ (fun m tk hm => Memory.wf_writeAlloc _ _ _ _ hm) _ ?_
        exact Memory.wf_writes _ (fun m tk hm => Memory.wf_writes _ (fun m c hc => Memory.wf_writeAlloc _ _ _ _ hc) _ hm) _ h

theorem Memory.wf_takesMove (d : Dev) {m : Mem} (h : Memory.wf m) : Memory.wf (d.takesMove m).1 :=
  Memory.wf_foldl_fst _ (fun p k hp => Memory.wf_magMove p.2 k hp) _ h

theorem Memory.wf_poolStart (d : Dev) {m : Mem} (h : Memory.wf m) : Memory.wf (d.poolStart m).1 := by
  unfold Dev.poolStart
  split
  · exact Memory.wf_writes _ (fun m b hm => Memory.wf_writeAlloc _ _ _ _ hm) _ h
  · exact h

theorem endsFrom_changeoverComplete (t first : Nat) (s : State) : EndsFrom s (execChangeoverComplete t first s) := by
  refine endsFrom_runMem t s fun m d hm => ?_
  split
  · exact hm
  · extract_lets
    split
    next e =>
      split
      next e' => exact Memory.wf_of_eq e' (Memory.wf_takesMove _ (Memory.wf_of_eq e (Memory.wf_poolStart _ hm)))

theorem Memory.wf_resumeInst (d : Dev) (r : Repoint) (first : Nat) {m : Mem} (h : Memory.wf m) : Memory.wf (d.resumeInst r first m).2.1 := by
  have hd : ∀ e : Dev, Memory.wf (e.issueDeferred r.inst m).1 := fun e => Memory.wf_issueDeferred e _ h
  unfold Dev.resumeInst
  extract_lets
  split_ifs
  any_goals with_reducible exact h
  exact hd _

theorem Memory.wf_repointCut (d : Dev) (c : Cut) (first : Nat) {m : Mem} (h : Memory.wf m) : Memory.wf (d.repointCut c first m).2.1 := by
  unfold Dev.repointCut
  split
  · exact h
  · split
    · exact h
    · split
      · exact Memory.wf_resumeInst _ _ _ h
      · exact h

theorem endsFrom_cutApply (t isl first : Nat) (s : State) : EndsFrom s (execCutApply t isl first s) := by
  refine endsFrom_runMemIf _ t s fun m d hm => ?_
  split
  · exact hm
  · next c _ =>
    extract_lets
    split
    · exact hm
    · split
      · exact hm
      · split
        next n m' d' e =>
          have hm' : Memory.wf m' := by
            have hr := Memory.wf_repointCut d c first hm
            rwa [e] at hr
          extract_lets
          split <;> exact hm'

theorem endsFrom_vpLatchPoint (t : Nat) (s : State) : EndsFrom s (execVpLatchPoint t s) := by
  refine endsFrom_runMem t s fun m d hm => ?_
  split <;> exact hm

end Sys2Proof.Machine
end

section
/-! PROOFS. Every write and every command ends in a next state with the queue as it was; what a step does to queue and memory (R255, log entries 1 and 7). -/

namespace Sys2Proof.Machine

/-! ### Writes of entries, and the commands that make several -/

/-- What a write does ends so, where the entry is a command. -/
def CommandEnds (s : State) (o : Option Res) : Prop := ∀ r, o = some r → EndsFrom s r

theorem CommandEnds.none (s : State) : CommandEnds s .none := by
  intro r h
  cases h

theorem CommandEnds.some {s : State} {r : Res} (h : EndsFrom s r) : CommandEnds s (some r) := fun _ e => Option.some.inj e ▸ h

theorem CommandEnds.ite {s : State} {c : Prop} [Decidable c] {a b : Option Res} (ha : CommandEnds s a) (hb : CommandEnds s b) :
    CommandEnds s (if c then a else b) := by
  split
  · exact ha
  · exact hb

/-- Of the command entries, a reset and a ring's close and resume reach capture memory; every other changes the device alone. -/
theorem commandEnds_entryCommand (t path ix sub : Nat) (v : Int) (o : Outside) (s : State) :
    CommandEnds s (entryCommand t path ix sub v o s) := by
  unfold entryCommand
  extract_lets n k
  repeat' refine CommandEnds.ite ?_ ?_
  any_goals with_reducible exact CommandEnds.none s
  all_goals
    refine CommandEnds.some ?_
    repeat' refine EndsFrom.ite ?_ ?_
  any_goals with_reducible exact endsFrom_modReset ..
  any_goals with_reducible exact endsFrom_ringClose ..
  any_goals with_reducible exact endsFrom_ringResume ..
  all_goals exact endsFrom_next s _

theorem endsFrom_plainWrite (t path ix sub : Nat) (v : Int) (o : Outside) (s : State) : EndsFrom s (plainWrite t path ix sub v o s) := by
  unfold plainWrite
  extract_lets
  split
  · exact endsFrom_run ..
  · split
    · exact endsFrom_run ..
    · split
      · next r hr =>
        split at hr
        · cases hr
        · exact commandEnds_entryCommand _ _ _ _ _ _ _ r hr
      · exact endsFrom_run ..

theorem endsFrom_plainBytes (t path ix sub : Nat) (bytes : List Byte) (o : Outside) (s : State) :
    EndsFrom s (plainBytes t path ix sub bytes o s) := by
  unfold plainBytes
  extract_lets
  split
  · exact endsFrom_run ..
  · split
    · exact endsFrom_run ..
    · exact endsFrom_plainWrite ..

theorem endsFrom_bulkSubmit (t path n : Nat) (o : Outside) (s : State) : EndsFrom s (bulkSubmit t path n o s) := by
  unfold bulkSubmit
  extract_lets
  split
  · exact endsFrom_run ..
  · split
    · exact endsFrom_run ..
    · exact endsFrom_plainBytes ..

theorem endsFrom_writeAny (t path ix sub : Nat) (v : Int) (o : Outside) (s : State) : EndsFrom s (writeAny t path ix sub v o s) := by
  unfold writeAny
  split
  · exact endsFrom_run ..
  · split
    · exact endsFrom_bulkSubmit ..
    · exact endsFrom_plainWrite ..

theorem endsFrom_writeBytes (t path ix sub : Nat) (bytes : List Byte) (o : Outside) (s : State) :
    EndsFrom s (writeBytes t path ix sub bytes o s) := by
  unfold writeBytes
  split
  · exact endsFrom_writeAny ..
  · exact endsFrom_plainBytes ..

theorem endsFrom_sdoWrites (t ix : Nat) (o : Outside) (ks : List Nat) (l : List Byte) (s : State) : EndsFrom s (sdoWrites t ix o ks l s) := by
  induction ks generalizing l s with
  | nil => exact endsFrom_next ..
  | cons k ks ih =>
    refine (endsFrom_writeBytes ..).andThen fun e => ?_
    split
    · exact ih _ e
    · exact endsFrom_next ..

theorem endsFrom_pdoApply (t : Nat) (ws : List Nat) (l : List Byte) (s : State) : EndsFrom s (pdoApply t ws l s) := by
  induction ws generalizing l s with
  | nil => exact endsFrom_next s s.dev
  | cons w ws ih =>
    unfold pdoApply
    extract_lets
    split
    · exact (ih _ _).of_dev
    · exact ((endsFrom_writeAny ..).andThen (ih _)).of_dev

theorem endsFrom_replay (t : Nat) (o : Outside) (ws : List QueuedWrite) (s : State) : EndsFrom s (replay t o ws s) := by
  induction ws generalizing s with
  | nil => exact endsFrom_next s s.dev
  | cons w ws ih => exact (endsFrom_writeAny ..).andThen ih

theorem endsFrom_sdoDownload (t ix sub : Nat) (complete : Bool) (data : List Byte) (o : Outside) (s : State) :
    EndsFrom s (execSdoDownload t ix sub complete data o s) := by
  unfold execSdoDownload
  extract_lets
  split
  · exact endsFrom_run ..
  · split
    · exact (endsFrom_sdoWrites ..).of_dev
    · exact ((endsFrom_writeBytes ..).andThen fun e => endsFrom_next e _).of_dev

theorem endsFrom_pdoCycle (t : Nat) (rx tx : Bool) (outputs : List Byte) (s : State) : EndsFrom s (execPdoCycle t rx tx outputs s) := by
  unfold execPdoCycle
  extract_lets
  split
  · exact (endsFrom_pdoApply ..).of_dev
  · exact endsFrom_next ..

theorem endsFrom_bar0Write (t offset width value : Nat) (o : Outside) (s : State) : EndsFrom s (execBar0Write t offset width value o s) := by
  unfold execBar0Write
  extract_lets d d' s1 _ _ ix sub low ty n key send reject
  have hsend : ∀ v, EndsFrom s (send v) := fun v => (endsFrom_writeAny ..).of_dev
  have hreject : ∀ c, EndsFrom s (reject c) := fun c => endsFrom_next s _
  clear_value send reject
  split
  · exact endsFrom_run ..
  split
  · exact endsFrom_next s _
  split
  · exact endsFrom_next s _
  split
  · split
    · split
      · extract_lets
        split
        · exact (endsFrom_writeAny ..).of_dev
        · exact endsFrom_next s _
      · exact hreject _
    · exact hreject _
  split
  · exact hreject _
  split
  · exact (endsFrom_writeAny ..).of_dev
  split
  · split
    · exact hsend _
    · exact hreject _
  · exact endsFrom_next s _

theorem endsFrom_fabricDictRequest (t port w0 w1 : Nat) (body : List Byte) (o : Outside) (s : State) :
    EndsFrom s (execFabricDictRequest t port w0 w1 body o s) := by
  unfold execFabricDictRequest
  extract_lets
  split
  · exact endsFrom_run ..
  · split
    · exact endsFrom_run ..
    · split
      · exact endsFrom_run ..
      · split
        · exact endsFrom_run ..
        · split
          · exact endsFrom_run ..
          · refine ((endsFrom_writeBytes ..).andThen fun e => ?_).of_dev
            extract_lets
            split
            · exact endsFrom_next ..
            · exact endsFrom_next ..

theorem endsFrom_supervisorReturn (t : Nat) (o : Outside) (s : State) : EndsFrom s (execSupervisorReturn t o s) := by
  unfold execSupervisorReturn
  extract_lets
  split
  · exact endsFrom_run ..
  · exact (endsFrom_replay ..).of_dev

/-! ### The dispatcher and the step -/

/-- Every command, for all its operands: most change the device alone; the others are those of the lemmas above. -/
theorem endsFrom_exec (i : Instr) (s : State) : EndsFrom s (exec i s) := by
  cases i with
  | entryWrite => exact endsFrom_writeAny ..
  | hodBlockLeave => exact endsFrom_hodBlockLeave ..
  | cutApply => exact endsFrom_cutApply ..
  | supervisorReturn => exact endsFrom_supervisorReturn ..
  | auxLoss => exact endsFrom_auxLoss ..
  | v12Brownout t => exact endsFrom_runMem t s fun _ d hm => Memory.wf_v12Lost d hm
  | v12Overvoltage t => exact endsFrom_runMem t s fun _ d hm => Memory.wf_v12Lost d hm
  | railOutOfRegulation => exact endsFrom_railOutOfRegulation ..
  | resetNAssert => exact endsFrom_resetNAssert ..
  | modReset => exact endsFrom_modReset ..
  | hostLinkUp => exact endsFrom_hostLinkUp ..
  | thermalTrip => exact endsFrom_thermalTrip ..
  | changeoverComplete => exact endsFrom_changeoverComplete ..
  | takeComplete => exact endsFrom_takeComplete ..
  | vpLatchPoint => exact endsFrom_vpLatchPoint ..
  | uncorrectableBurst => exact endsFrom_uncorrectableBurst ..
  | ceLimitSpare => exact endsFrom_ceLimitSpare ..
  | patrolScrub => exact endsFrom_patrolScrub ..
  | retrainDone => exact endsFrom_retrainDone ..
  | ringClose => exact endsFrom_ringClose ..
  | ringCloseDrainEnd => exact endsFrom_ringCloseDrainEnd ..
  | ringResume => exact endsFrom_ringResume ..
  | ringRecord => exact endsFrom_ringRecord ..
  | ringSpaceAvailable => exact endsFrom_ringSpaceAvailable ..
  | reelUnitClose => exact endsFrom_reelUnitClose ..
  | pbRelease => exact endsFrom_pbRelease ..
  | fabricDataReceive => exact endsFrom_fabricDataReceive ..
  | fabricAckReceive => exact endsFrom_fabricAckReceive ..
  | fabricDictRequest => exact endsFrom_fabricDictRequest ..
  | sdoDownload => exact endsFrom_sdoDownload ..
  | pdoCycle => exact endsFrom_pdoCycle ..
  | bar0Write => exact endsFrom_bar0Write ..
  | bulkLenSubmit => exact endsFrom_bulkSubmit ..
  | hostBar2Read => exact endsFrom_hostBar2Read ..
  | hostBar2Write => exact endsFrom_hostBar2Write ..
  | _ => exact ⟨_, _, rfl, id⟩

theorem step_nil {s : State} (h : s.pending = []) : step s = .next s := by rw [step, h]

theorem step_cons {s : State} {c : Instr} {rest : List Instr} (h : s.pending = c :: rest) : step s = exec c { s with pending := rest } := by
  rw [step, h]

/-- A step takes the front of the queue away, and keeps capture memory's form; on an empty queue it changes nothing. -/
theorem step_next (s : State) : ∃ s', step s = .next s' ∧ s'.pending = s.pending.tail ∧ (Memory.wf s.mem → Memory.wf s'.mem) := by
  cases hq : s.pending with
  | nil => exact ⟨s, step_nil hq, hq, id⟩
  | cons c rest =>
    obtain ⟨m, d, he, hm⟩ := endsFrom_exec c { s with pending := rest }
    exact ⟨_, (step_cons hq).trans he, rfl, hm⟩

/-- Settles O3: every command ends in a next state (`endsFrom_exec`), so a step is never refused and never faults. -/
theorem everyStepKeepsMemoryAndQueue : Obligations.EveryStepKeepsMemoryAndQueue := by
  unfold Obligations.EveryStepKeepsMemoryAndQueue
  refine ⟨fun i s => ?_, fun s => ?_⟩
  · obtain ⟨m, d, he, -⟩ := endsFrom_exec i s
    exact ⟨m, d, he⟩
  · obtain ⟨s', he, hp, hm⟩ := step_next s
    rw [he]
    refine ⟨nofun, nofun, fun s'' h => ?_⟩
    obtain rfl := Host.Outcome.next.inj h
    exact ⟨hp, hm⟩

end Sys2Proof.Machine
end

section
/-! PROOFS. Capture streams: their memory, start, stop, free and release; sleep and wake of the Capture Store (R262 to R265, R282). -/

namespace Sys2Proof.Machine

theorem exec_csStart (t path cs : Nat) (s : State) : exec (.csStart t path cs) s = execCsStart t path cs s := rfl
theorem exec_csStop (t path cs : Nat) (s : State) : exec (.csStop t path cs) s = execCsStop t path cs s := rfl
theorem exec_csFree (t path cs : Nat) (s : State) : exec (.csFree t path cs) s = execCsFree t path cs s := rfl
theorem exec_csFreeRelease (t cs : Nat) (s : State) : exec (.csFreeRelease t cs) s = execCsFreeRelease t cs s := rfl
theorem exec_captureIdleSleep (t : Nat) (s : State) : exec (.captureIdleSleep t) s = execCaptureIdleSleep t s := rfl
theorem exec_captureWake (t port : Nat) (s : State) : exec (.captureWake t port) s = execCaptureWake t port s := rfl

/-! ### A stream's entries -/

/-- A state of a stream is read back. -/
theorem Dev.rd_csState (d : Dev) {cs v : Nat} (hcs : cs < 4) (hv : v < 256) : (d.wI Ix.capCsState cs v).rd Ix.capCsState (cs + 1) 0 = v := by
  have htype : ∀ k < 4, typeOf Ix.capCsState (k + 1) = 5 := by decide
  exact Dev.rd_wr_fits (n := 0) d 0 (by rw [htype cs hcs]; rfl) (by rw [htype cs hcs]; rfl) (by simpa using hv)

theorem Dev.rd_wI_zero (d : Dev) (ix i : Nat) : (d.wI ix i 0).rd ix (i + 1) 0 = 0 := (Dev.rd_wr_same ..).trans (normTy_zero _)

/-! ### A command on a path -/

section
variable {t path cs v : Nat} {s : State} {e : Dev} {i : Instr} {f : Dev → Dev} (he : e = s.dev.at t) (hcs : cs < 4)
  (hr : e.reaches path Ix.capCsCmd) (hfull : e.fullService = true)
  (h : exec i s = runEntry (decide (cs < 4)) path Ix.capCsCmd (cs + 1) v t s fun d => d.csCommand path cs v f)
include he hcs hr hfull h

/-- A stream's command completes in full service as its effect on the stream, whatever the request's bookkeeping. -/
theorem completes_csCommand {r : SupSt → PwrSt → Dev} {pl ql : List Part} {ps qs : List Nat} {post : Dev → Prop}
    (hx : ∀ x y, f (e.withRequest x y) = r x y) (hf : ∀ x y, (e.withRequest x y).changesOnly pl ps (r x y))
    (hp : ∀ x y d, (r x y).changesOnly [.ctr] [Ix.dictRequests] d → post d)
    (hpl : ∀ p ∈ pl ++ requestParts, p ∈ ql := by decide) (hps : ∀ y ∈ ps ++ requestPlaces, y ∈ qs := by decide) : Completes i t s ql qs post := by
  subst he
  have hreq := (s.dev.at t).accept_eq path Ix.capCsCmd (cs + 1)
  have hservice : ((s.dev.at t).accept path Ix.capCsCmd (cs + 1)).fullService = true := by
    rw [hreq]
    exact hfull
  have heffect := (congrArg f hreq).trans (hx ..)
  rw [runEntry, decide_eq_true hcs] at h
  exact completes_command (f := fun d => if !d.fullService then d.refuse path Ix.capCsCmd (cs + 1) Code.rushesUnavailable else f d) h hr
    ((if_neg (by simp [hservice])).trans heffect) (hreq.symm ▸ hf ..) (hp _ _ _ (Dev.served_only ..)) hpl hps

/-- A stream's command that its effect refuses. -/
theorem completes_csRefused {c : Nat} (hpath : 1 ≤ path ∧ path ≤ 4)
    (hx : ∀ x y, f (e.withRequest x y) = (e.withRequest x y).refuse path Ix.capCsCmd (cs + 1) c)
    (hc : c < 2 ^ 32 := by decide) (hs : codeSeverity c = 2 := by decide) (hh : heatsRegister c = false := by decide) :
    Completes i t s requestParts requestPlaces fun d => d.reports path c :=
  completes_csCommand he hcs hr hfull h hx (fun _ _ => Dev.refuse_only ..)
    (fun _ _ _ hd => hd.reports (hr := Dev.refuse_places _ _ _ _ _ hc hs hh hpath)) (by decide) (by decide)

end

/-! ### The memory of a stream (R260, R265) -/

theorem Dev.csMemory_withRequest (d : Dev) (x : SupSt) (y : PwrSt) (cs : Nat) :
    (d.withRequest x y).csMemory cs = (d.csMemory cs).map fun e => e.withRequest x y := by
  have halloc : (d.withRequest x y).allocOf = d.allocOf := rfl
  have hnI : (d.withRequest x y).nI = d.nI := rfl
  unfold Dev.csMemory
  rw [halloc, hnI, Dev.alloc_withRequest]
  split
  · rfl
  cases d.alloc 1 cs (12288 * d.nI Ix.capCsSize cs) false with
  | none => rfl
  | some p =>
    have hlog : (p.2.withRequest x y).nI = p.2.nI := rfl
    dsimp only [Option.map_some]
    rw [hlog, Dev.alloc_withRequest]
    cases p.2.alloc 4 cs (4096 * p.2.nI Ix.capCsLogSize cs) true with
    | none => rfl
    | some q => rfl

theorem Dev.csMemory_only {d d' : Dev} {cs : Nat} (h : d.csMemory cs = some d') :
    d.changesOnly [.cap] [Ix.capFree, Ix.capCsBase, Ix.capCsLogBase] d' := by
  unfold Dev.csMemory at h
  split at h
  · cases h
    exact Dev.changesOnly_refl ..
  split at h
  · next a d1 hdata =>
    split at h
    · next b d2 hlog =>
      cases h
      exact Dev.changesOnly_mono (Dev.changesOnly_trans (Dev.changesOnly_trans (Dev.changesOnly_trans (Dev.alloc_only hdata) (Dev.alloc_only hlog))
        (Dev.wI_only _ Ix.capCsBase cs _)) (Dev.wI_only _ Ix.capCsLogBase cs _)) (by decide) (by decide)
    · cases h
  · cases h

/-! ### The beginning of a stream (R264, R265) -/

/-- The 1 µs boundary at which a command given now takes effect. -/
def Dev.csTick (d : Dev) : Nat := tickAt (d.time96 + 1)

/-- A stream that begins at the next boundary. -/
def Dev.csBegins (d : Dev) (cs : Nat) : CsSt :=
  let a := sourceOf (d.nI Ix.capCsSrc cs)
  let n := d.sampleAfter a d.csTick
  { t0 := d.timeOf a n, rate := d.rateOf a, fmt := d.nI Ix.capCsFormat cs, src := d.nI Ix.capCsSrc cs, mode := d.nI Ix.capCsMode cs, n0 := n }

/-- A stream takes a state of its own. -/
def Dev.setStream (d : Dev) (cs : Nat) (c : CsSt) : Dev := { d with cap := { d.cap with streams := d.cap.streams.put cs c } }

/-- A stream runs from its first sample on. -/
def Dev.csRuns (d : Dev) (cs : Nat) : Dev := ((d.setStream cs (d.csBegins cs)).wI Ix.capCsState cs 2).wI Ix.capCsWritten cs 0

/-- A running stream whose slate is on its way to its log. -/
def Dev.csStarts (d : Dev) (cs : Nat) : Dev :=
  (d.csRuns cs).ask (4 * 2 ^ 24 + cs) ⟨.csSlate cs, d.csTick, d.csTick, 0, recBytes ((d.csRuns cs).csSlate cs d.csTick)⟩

theorem Dev.setStream_only (d : Dev) (cs : Nat) (c : CsSt) : d.changesOnly [.cap] [] (d.setStream cs c) := Dev.cap_only ..

theorem Dev.ask_only (d : Dev) (stream : Nat) (it : HodItem) : d.changesOnly [.cap] [] (d.ask stream it) := Dev.cap_only ..

theorem Dev.csStarts_only (d : Dev) (cs : Nat) : d.changesOnly [.cap] [Ix.capCsState, Ix.capCsWritten] (d.csStarts cs) :=
  Dev.changesOnly_mono (Dev.changesOnly_trans (Dev.changesOnly_trans (Dev.changesOnly_trans (Dev.setStream_only d cs _)
    (Dev.wI_only _ Ix.capCsState cs 2)) (Dev.wI_only _ Ix.capCsWritten cs 0)) (Dev.ask_only ..)) (by decide) (by decide)

theorem Dev.rd_csStarts_state (d : Dev) {cs : Nat} (hcs : cs < 4) : (d.csStarts cs).rd Ix.capCsState (cs + 1) 0 = 2 := by
  rw [Dev.csStarts, (Dev.ask_only ..).rd _ _ (by simp), Dev.csRuns, (Dev.wI_only ..).rd _ _ (by decide)]
  exact Dev.rd_csState _ hcs (by decide)

theorem Dev.rd_csStarts_written (d : Dev) (cs : Nat) : (d.csStarts cs).rd Ix.capCsWritten (cs + 1) 0 = 0 := by
  rw [Dev.csStarts, (Dev.ask_only ..).rd _ _ (by simp)]
  exact Dev.rd_wI_zero ..

theorem Dev.csStarts_stream (d : Dev) (cs : Nat) : (d.csStarts cs).cap.streams.get {} cs = d.csBegins cs := Tab.get_put_same ..

/-- A stream begins as the settings say that stood before it took its memory. -/
theorem Dev.csBegins_after {d d' : Dev} {cs : Nat} (h : d.csMemory cs = some d') :
    d'.csBegins cs =
      { t0 := d'.timeOf (sourceOf (d.nI Ix.capCsSrc cs)) (d'.sampleAfter (sourceOf (d.nI Ix.capCsSrc cs)) d.csTick)
        rate := d'.rateOf (sourceOf (d.nI Ix.capCsSrc cs)), fmt := d.nI Ix.capCsFormat cs, src := d.nI Ix.capCsSrc cs
        mode := d.nI Ix.capCsMode cs, n0 := d'.sampleAfter (sourceOf (d.nI Ix.capCsSrc cs)) d.csTick } := by
  have honly := Dev.csMemory_only h
  rw [Dev.csBegins, Dev.csTick, honly.time96 (by decide) (by decide), honly.nI (by decide), honly.nI (by decide), honly.nI (by decide)]
  rfl

section
variable {t path cs : Nat} {s : State} {e : Dev} (he : e = s.dev.at t) (hcs : cs < 4) (hr : e.reaches path Ix.capCsCmd)
  (hfull : e.fullService = true)
include he hcs hr hfull

theorem csStart_starts {e' : Dev} (hst : e.nI Ix.capCsState cs = 1) (hmem : e.csMemory cs = some e') :
    Completes (.csStart t path cs) t s (.cap :: requestParts)
      (Ix.capFree :: Ix.capCsBase :: Ix.capCsLogBase :: Ix.capCsState :: Ix.capCsWritten :: requestPlaces) fun d =>
      d.cap.allocs = e'.cap.allocs ∧ d.rd Ix.capCsState (cs + 1) 0 = 2 ∧ d.rd Ix.capCsWritten (cs + 1) 0 = 0 ∧
      d.cap.streams.get {} cs = e'.csBegins cs ∧
      ∃ it, d.cap.asked = e'.cap.asked ++ [(4 * 2 ^ 24 + cs, it)] ∧ it.dest = .csSlate cs := by
  have hmem' : ∀ x y, (e.withRequest x y).csMemory cs = some (e'.withRequest x y) := fun x y => by rw [Dev.csMemory_withRequest, hmem]; rfl
  refine completes_csCommand he hcs hr hfull (exec_csStart ..) (r := fun x y => (e'.withRequest x y).csStarts cs) (fun x y => ?_)
    (fun x y => Dev.changesOnly_trans (Dev.csMemory_only (hmem' x y)) (Dev.csStarts_only ..)) fun x y d hd => ?_
  · rw [hmem']
    exact if_neg fun hne => bne_iff_ne.1 hne hst
  · rw [hd.cap (by decide), hd.rd _ _ (by decide), hd.rd _ _ (by decide), Dev.rd_csStarts_state _ hcs, Dev.rd_csStarts_written, Dev.csStarts_stream]
    exact ⟨rfl, rfl, rfl, rfl, _, rfl, rfl⟩

theorem csStart_noMemory (hpath : 1 ≤ path ∧ path ≤ 4) (hst : e.nI Ix.capCsState cs = 1) (hmem : e.csMemory cs = none) :
    Completes (.csStart t path cs) t s requestParts requestPlaces fun d => d.reports path Code.csNoMemory := by
  refine completes_csRefused he hcs hr hfull (exec_csStart ..) hpath fun x y => ?_
  rw [Dev.csMemory_withRequest, hmem]
  exact if_neg fun hne => bne_iff_ne.1 hne hst

/-! ### Stop and free (R265) -/

theorem csStop_stops (hst : e.nI Ix.capCsState cs = 2) :
    Completes (.csStop t path cs) t s (.cap :: requestParts) (Ix.capCsState :: requestPlaces) fun d => d.rd Ix.capCsState (cs + 1) 0 = 1 ∧
      d.cap.streams.get {} cs = { e.cap.streams.get {} cs with stop := some e.csTick } := by
  refine completes_csCommand he hcs hr hfull (exec_csStop ..)
    (r := fun x y => ((e.withRequest x y).setStream cs { e.cap.streams.get {} cs with stop := some e.csTick }).wI Ix.capCsState cs 1)
    (fun x y => (if_pos hst).trans rfl) (fun x y => Dev.changesOnly_trans (Dev.setStream_only ..) (Dev.wI_only ..)) fun x y d hd => ?_
  rw [hd.rd _ _ (by decide), hd.cap (by decide), Dev.rd_csState _ hcs (by decide)]
  exact ⟨rfl, Tab.get_put_same ..⟩

theorem csStop_refused (hpath : 1 ≤ path ∧ path ≤ 4) (hst : e.nI Ix.capCsState cs = 0 ∨ e.nI Ix.capCsState cs = 1 ∨ e.nI Ix.capCsState cs = 4) :
    Completes (.csStop t path cs) t s requestParts requestPlaces fun d => d.reports path Code.csState := by
  have h2 : e.nI Ix.capCsState cs ≠ 2 := by omega
  have h3 : e.nI Ix.capCsState cs ≠ 3 := by omega
  exact completes_csRefused he hcs hr hfull (exec_csStop ..) hpath fun x y => (if_neg h2).trans (if_neg h3)

theorem csFree_frees (hst : e.nI Ix.capCsState cs = 1 ∨ e.nI Ix.capCsState cs = 3) :
    Completes (.csFree t path cs) t s requestParts (Ix.capCsState :: requestPlaces) fun d => d.rd Ix.capCsState (cs + 1) 0 = 4 := by
  have hst' : (e.nI Ix.capCsState cs = 1 || e.nI Ix.capCsState cs = 3) = true := by
    rwa [Bool.or_eq_true, decide_eq_true_iff, decide_eq_true_iff]
  refine completes_csCommand he hcs hr hfull (exec_csFree ..) (fun x y => if_pos hst') (fun x y => Dev.wI_only ..) fun x y d hd => ?_
  rw [hd.rd _ _ (by decide)]
  exact Dev.rd_csState _ hcs (by decide)

theorem csFree_refused (hpath : 1 ≤ path ∧ path ≤ 4) (hst : e.nI Ix.capCsState cs = 0 ∨ e.nI Ix.capCsState cs = 2 ∨ e.nI Ix.capCsState cs = 4) :
    Completes (.csFree t path cs) t s requestParts requestPlaces fun d => d.reports path Code.csState := by
  have hst' : ¬ (e.nI Ix.capCsState cs = 1 || e.nI Ix.capCsState cs = 3) = true := by
    rw [Bool.or_eq_true, decide_eq_true_iff, decide_eq_true_iff]
    omega
  exact completes_csRefused he hcs hr hfull (exec_csFree ..) hpath fun x y => if_neg hst'

end

/-! ### The release of a freed stream -/

/-- A stream that is idle: without a source, or with one. -/
def Dev.csIdles (d : Dev) (cs : Nat) : Dev :=
  ((((d.release 1 cs).release 4 cs).wI Ix.capCsState cs (if d.nI Ix.capCsSrc cs = 0 then 0 else 1)).wI Ix.capCsBase cs 0).wI Ix.capCsLogBase cs 0

theorem Dev.csIdles_releases (d : Dev) (cs : Nat) :
    ((d.release 1 cs).release 4 cs).changesOnly [] [Ix.capCsState, Ix.capCsBase, Ix.capCsLogBase] (d.csIdles cs) :=
  Dev.changesOnly_trans (Dev.changesOnly_trans (Dev.wI_only _ Ix.capCsState cs _) (Dev.wI_only _ Ix.capCsBase cs 0)) (Dev.wI_only _ Ix.capCsLogBase cs 0)

theorem csFreeRelease_releases {t cs : Nat} {s : State} {e : Dev} (he : e = s.dev.at t) (hcs : cs < 4) (hst : e.nI Ix.capCsState cs = 4) :
    Completes (.csFreeRelease t cs) t s [.cap] [Ix.capFree, Ix.capCsState, Ix.capCsBase, Ix.capCsLogBase] fun d =>
      d.allocOf 1 cs = none ∧ d.allocOf 4 cs = none ∧ d.rd Ix.capCsState (cs + 1) 0 = (if e.nI Ix.capCsSrc cs = 0 then 0 else 1) ∧
      d.rd Ix.capCsBase (cs + 1) 0 = 0 ∧ d.rd Ix.capCsLogBase (cs + 1) 0 = 0 := by
  subst he
  have hidle := (s.dev.at t).csIdles_releases cs
  refine completes_of_runIf (exec_csFreeRelease ..) (decide_eq_true hcs) (x := (s.dev.at t).csIdles cs) (if_pos hst)
    (Dev.changesOnly_mono (Dev.changesOnly_trans (Dev.changesOnly_trans (Dev.release_only ..) (Dev.release_only ..)) hidle) (by decide) (by decide))
    ⟨?_, ?_, ?_, ?_, Dev.rd_wI_zero ..⟩
  · rw [hidle.allocOf (by decide)]
    exact Dev.allocOf_release_none (Dev.allocOf_release ..) 4 cs
  · rw [hidle.allocOf (by decide)]
    exact Dev.allocOf_release ..
  · rw [Dev.csIdles, (Dev.wI_only ..).rd _ _ (by decide), (Dev.wI_only ..).rd _ _ (by decide)]
    split
    · exact Dev.rd_csState _ hcs (by decide)
    · exact Dev.rd_csState _ hcs (by decide)
  · rw [Dev.csIdles, (Dev.wI_only ..).rd _ _ (by decide)]
    exact Dev.rd_wI_zero ..

/-! ### Sleep and wake (R282) -/

theorem Dev.rd_setIslState_capture (d : Dev) {v : Nat} (hv : v < 256) : (d.setIslState 7 v).nI Ix.pwrIslState 6 = v := by
  unfold Dev.setIslState
  dsimp only
  split
  · assumption
  · refine Dev.nI_of_rd ?_
    rw [(Dev.pwrEvent_only ..).rd _ _ (by decide)]
    exact Dev.rd_wr_fits (n := 0) _ 0 (by decide) (by decide) (by simpa using hv)

/-- The Capture Store goes to sleep or wakes: its own part and the state of its island. -/
theorem completes_captureIsland {t v : Nat} {s : State} {i : Instr} {f : Dev → Dev} {c : CapSt} {post : Dev → Prop} (h : exec i s = run t s f)
    (hv : v < 256) (hf : f (s.dev.at t) = { s.dev.at t with cap := c }.setIslState 7 v)
    (hp : ∀ d : Dev, d.cap = c → d.nI Ix.pwrIslState 6 = v → post d) :
    Completes i t s (.cap :: eventParts) (Ix.pwrIslState :: eventPlaces) post :=
  completes_of_eq h hf (Dev.changesOnly_trans (pl := [.cap]) (ps := []) (Dev.cap_only ..) (Dev.setIslState_only ..))
    (hp _ (Dev.setIslState_cap ..) (Dev.rd_setIslState_capture _ hv))

theorem captureIdleSleep_sleeps {t : Nat} {s : State} {e : Dev} (he : e = s.dev.at t) (hset : e.n0 Ix.capIdleSr ≠ 0)
    (hidle : e.cap.idleSince + us (e.n0 Ix.capIdleSr) ≤ e.now) (hqueues : ∀ k < 16, (e.cap.subs.get {} k).queue = []) (hhod : e.hodBlocks = 0)
    (hawake : e.cap.asleep = false) (hst : 2 ≤ e.n0 Ix.capState) :
    Completes (.captureIdleSleep t) t s (.cap :: eventParts) (Ix.pwrIslState :: eventPlaces) fun d =>
      d.cap = { e.cap with asleep := true } ∧ d.nI Ix.pwrIslState 6 = 2 := by
  subst he
  have hquiet : ((List.range 16).any fun k => !((s.dev.at t).cap.subs.get {} k).queue.isEmpty) = false := by
    simpa using hqueues
  refine completes_captureIsland (exec_captureIdleSleep ..) (by decide) (if_pos ?_) fun d hc hi => ⟨hc, hi⟩
  rw [hquiet, hhod, hawake, decide_eq_true hidle, decide_eq_true hst, bne_iff_ne.2 hset]
  rfl

theorem captureWake_wakes {t port : Nat} {s : State} {e : Dev} (he : e = s.dev.at t) (hport : port < 24) (hasleep : e.cap.asleep = true) :
    Completes (.captureWake t port) t s (.cap :: eventParts) (Ix.pwrIslState :: eventPlaces) fun d =>
      d.cap = { e.cap with asleep := false, idleSince := e.now, stallUntil := max e.cap.stallUntil (e.now + us 3) } ∧ d.nI Ix.pwrIslState 6 = 0 := by
  subst he
  exact completes_captureIsland (exec_captureWake ..) (by decide) ((if_pos (decide_eq_true hport)).trans (if_pos hasleep)) fun d hc hi => ⟨hc, hi⟩

/-- Settles O34, clause by clause: a stream's start with and without memory for it, stop and free with their refusals, its release; sleep and wake. -/
theorem captureStreamsAndSleep : Obligations.CaptureStreamsAndSleep := by
  unfold Obligations.CaptureStreamsAndSleep
  refine ⟨?_, ?_, ?_, ?_, ?_, ?_, ?_, ?_, ?_⟩
  · intro t path cs s e e' a n he hcs hr hfull hst hmem ha hn
    subst ha hn
    have hstart := csStart_starts he hcs hr hfull hst hmem
    rwa [Dev.csBegins_after hmem] at hstart
  · intro t path cs s e he hcs hr hpath hfull hst hmem
    obtain ⟨d, hrun, honly, hreports⟩ := csStart_noMemory he hcs hr hfull hpath hst hmem
    exact ⟨s.mem, d, hrun, honly, rfl, hreports⟩
  · intro t path cs s e he hcs hr hfull hst
    exact csStop_stops he hcs hr hfull hst
  · intro t path cs s e he hcs hr hpath hfull hst
    exact csStop_refused he hcs hr hfull hpath hst
  · intro t path cs s e he hcs hr hfull hst
    exact csFree_frees he hcs hr hfull hst
  · intro t path cs s e he hcs hr hpath hfull hst
    exact csFree_refused he hcs hr hfull hpath hst
  · intro t cs s e he hcs hst
    exact csFreeRelease_releases he hcs hst
  · intro t s e he hset hidle hqueues hhod hawake hst
    exact captureIdleSleep_sleeps he hset hidle hqueues hhod hawake hst
  · intro t port s e he hport hasleep
    exact captureWake_wakes he hport hasleep

end Sys2Proof.Machine
end

section
/-! PROOFS. The DRAM controller: token buckets, the commands of a sub-channel, refresh, temperature, row disturbance and retraining (R267 to R272, R278). -/

namespace Sys2Proof.Machine

theorem exec_subchannelCommand (t chan sub : Nat) (arrivals : List (List Nat)) (corrected : Bool) (s : State) :
    exec (.subchannelCommand t chan sub arrivals corrected) s = execSubchannelCommand t chan sub arrivals corrected s := rfl
theorem exec_refreshDue (t chan rank : Nat) (s : State) : exec (.refreshDue t chan rank) s = execRefreshDue t chan rank s := rfl
theorem exec_mr4Read (t chan field : Nat) (temp : Int) (s : State) : exec (.mr4Read t chan field temp) s = execMr4Read t chan field temp s := rfl
theorem exec_rowActivate (t chan sub rank bank row : Nat) (s : State) :
    exec (.rowActivate t chan sub rank bank row) s = execRowActivate t chan sub rank bank row s := rfl
theorem exec_neighbourRefresh (t chan sub rank bank row : Nat) (s : State) :
    exec (.neighbourRefresh t chan sub rank bank row) s = execNeighbourRefresh t chan sub rank bank row s := rfl
theorem exec_rowTableClear (t : Nat) (s : State) : exec (.rowTableClear t) s = execRowTableClear t s := rfl
theorem exec_retrainDue (t chan : Nat) (temp : Int) (s : State) : exec (.retrainDue t chan temp) s = execRetrainDue t chan temp s := rfl
theorem exec_retrainStart (t chan : Nat) (s : State) : exec (.retrainStart t chan) s = execRetrainStart t chan s := rfl

/-! ### Token buckets (R267) -/

/-- The depth of a port's bucket, and what it gains over some microseconds. -/
def Dev.bucketDepth (d : Dev) (p : Nat) : Int := (d.nI Ix.capRegBurst p * 1024 : Nat)
def Dev.bucketGain (d : Dev) (p n : Nat) : Int := (d.nI Ix.capRegRate p * n : Nat)

/-- One bucket gains, up to its depth. -/
def Dev.refill (d : Dev) (n : Nat) (l : Tab Int) (p : Nat) : Tab Int :=
  l.set (d.bucketDepth p) p (min (d.bucketDepth p) (l.get (d.bucketDepth p) p + d.bucketGain p n))

/-- Refilling the buckets below a number fills each of them once, and no other. -/
theorem Dev.get_refills (d : Dev) (n k p : Nat) (l : Tab Int) :
    ((List.range k).foldl (d.refill n) l).get (d.bucketDepth p) p =
      if p < k then min (d.bucketDepth p) (l.get (d.bucketDepth p) p + d.bucketGain p n) else l.get (d.bucketDepth p) p := by
  induction k with
  | zero => rfl
  | succ k ih =>
    rw [List.range_succ, List.foldl_append, List.foldl_cons, List.foldl_nil, Dev.refill]
    by_cases hp : k = p
    · subst hp
      rw [Tab.get_set_same, ih, if_neg (Nat.lt_irrefl k), if_pos (Nat.lt_succ_self k)]
    · rw [Tab.get_set_other _ _ _ _ _ _ hp, ih]
      exact if_congr (by omega) rfl rfl

/-- The buckets of all ports, each refilled for some microseconds. -/
def Dev.bucketsRefilled (d : Dev) (n : Nat) : Tab Int := (List.range 24).foldl (d.refill n) d.cap.tokens

theorem Dev.get_bucketsRefilled (d : Dev) (n : Nat) {p : Nat} (hp : p < 24) :
    (d.bucketsRefilled n).get (d.bucketDepth p) p = min (d.bucketDepth p) (d.cap.tokens.get (d.bucketDepth p) p + d.bucketGain p n) := by
  rw [Dev.bucketsRefilled, Dev.get_refills, if_pos hp]

theorem exec_regulatorRefill_eq (t : Nat) (s : State) : exec (.regulatorRefill t) s = run t s fun d =>
    { d with cap := { d.cap with
      tokens := d.bucketsRefilled (d.now * 1000000 / two48 - d.cap.refilled), refilled := d.now * 1000000 / two48 } } := rfl

theorem regulatorRefill_refills {t k : Nat} {s : State} {e : Dev} (he : e = s.dev.at t) (hk : k = e.now * 1000000 / two48) :
    Completes (.regulatorRefill t) t s [.cap] [] fun d =>
      d.cap = { e.cap with tokens := d.cap.tokens, refilled := k } ∧ ∀ p < 24,
        d.cap.tokens.get (e.bucketDepth p) p =
          min (e.bucketDepth p) (e.cap.tokens.get (e.bucketDepth p) p + e.bucketGain p (k - e.cap.refilled)) := by
  subst he
  rw [completes_run (exec_regulatorRefill_eq t s), ← hk]
  exact ⟨Dev.cap_only .., by dsimp only, fun p hp => by dsimp only; rw [Dev.get_bucketsRefilled _ _ hp]⟩

/-! ### Sub-channels (R269, R270) -/

theorem Dev.sub_setSub (d : Dev) (c k : Nat) (x : SubSt) : (d.setSub c k x).sub c k = x := Tab.get_set_same ..

theorem Dev.sub_setSub_other (d : Dev) {c k j : Nat} (x : SubSt) (h : j ≠ k) : (d.setSub c j x).sub c k = d.sub c k :=
  Tab.get_set_other _ _ _ _ _ _ (by omega)

theorem Dev.setSub_only (d : Dev) (c k : Nat) (x : SubSt) : d.changesOnly [.cap] [] (d.setSub c k x) := Dev.cap_only ..

theorem Dev.changesOnly.sub {pl : List Part} {ps : List Nat} {d e : Dev} (h : d.changesOnly pl ps e) (hp : Part.cap ∉ pl) : e.sub = d.sub :=
  funext fun c => funext fun k => by rw [Dev.sub, Dev.sub, h.cap hp]

/-- The neighbours of a row are refreshed: the table of the row's bank, then the count. -/
theorem Dev.neighboursRefreshed_eq (d : Dev) (c k : Nat) (n : Nat × Nat) : ∃ x : CapSt,
    x.subs = (d.setSub c k { d.sub c k with neighbours := (d.sub c k).neighbours.erase n }).cap.subs ∧
    x.rows.get [] n.1 = (d.cap.rows.get [] n.1).map (fun p => if p.1 = n.2 then (n.2, 0) else p) ∧
    d.neighboursRefreshed c k n = { d with cap := x }.incI Ix.capRdRefreshes c :=
  ⟨{ (d.setSub c k { d.sub c k with neighbours := (d.sub c k).neighbours.erase n }).cap with
      rows := d.cap.rows.set [] n.1 ((d.cap.rows.get [] n.1).map (fun p => if p.1 = n.2 then (n.2, 0) else p)) }, rfl, Tab.get_set_same .., rfl⟩

theorem Dev.neighboursRefreshed_only (d : Dev) (c k : Nat) (n : Nat × Nat) :
    d.changesOnly [.cap, .ctr] [Ix.capRdRefreshes] (d.neighboursRefreshed c k n) := by
  obtain ⟨x, -, -, heq⟩ := d.neighboursRefreshed_eq c k n
  exact heq ▸ Dev.changesOnly_trans (pl := [.cap]) (ps := []) (Dev.cap_only ..) (Dev.incI_only ..)

/-- A queued refresh of neighbours leaves the queue, its row counts from 0, and it is counted. -/
theorem Dev.neighboursRefreshed_done (d : Dev) (c k : Nat) (n : Nat × Nat) :
    (d.neighboursRefreshed c k n).sub c k = { d.sub c k with neighbours := (d.sub c k).neighbours.erase n } ∧
    (d.neighboursRefreshed c k n).cap.rows.get [] n.1 = (d.cap.rows.get [] n.1).map (fun p => if p.1 = n.2 then (n.2, 0) else p) ∧
    d.counted (d.neighboursRefreshed c k n) Ix.capRdRefreshes (c + 1) 0 1 := by
  obtain ⟨x, hsubs, hrows, heq⟩ := d.neighboursRefreshed_eq c k n
  have hinc := Dev.incI_only { d with cap := x } Ix.capRdRefreshes c 1
  rw [heq, hinc.sub (by decide), hinc.cap (by decide)]
  refine ⟨?_, hrows, (Dev.cap_only d x).counted (by simp) (Dev.inc_counted ..)⟩
  rw [← Dev.sub_setSub d c k { d.sub c k with neighbours := (d.sub c k).neighbours.erase n }, Dev.sub, Dev.sub, ← hsubs]

/-- A sub-channel that issues a request: it leaves the queue, its row is open, and of writes the picker's place is kept (R270). -/
def SubSt.issues (x : SubSt) (r : MemReq) : SubSt :=
  let key := 32 * r.rank + r.bank
  let write := r.cls == 2 || r.cls == 4
  { x with
    queue := x.queue.erase r, openRow := x.openRow.put key r.row, issued := some r
    pickBank := if write then key else x.pickBank
    burst := if write && key == x.pickBank && rowHit x r then x.burst + 1 else if write then 1 else x.burst }

/-- A request is issued, and its port is served a burst. -/
def Dev.commandIssued (d : Dev) (c k : Nat) (r : MemReq) : Dev := (d.setSub c k ((d.sub c k).issues r)).portServe r.port 64

section
variable (d : Dev) (c k : Nat) (r : MemReq)

theorem Dev.commandIssued_only : d.changesOnly [.cap, .ctr] [Ix.capPortBytes] (d.commandIssued c k r) :=
  Dev.changesOnly_mono (Dev.changesOnly_trans (Dev.setSub_only ..) (Dev.portServe_only ..)) (by decide) (by decide)

theorem Dev.sub_portServe (p n : Nat) : (d.portServe p n).sub = d.sub := (Dev.incI_only ..).sub (by decide)

theorem Dev.portServe_counted (p n : Nat) : d.counted (d.portServe p n) Ix.capPortBytes (p + 1) 0 n :=
  (Dev.cap_only d _).counted (by simp) (Dev.inc_counted ..)

theorem Dev.sub_commandIssued : (d.commandIssued c k r).sub c k = (d.sub c k).issues r := by
  rw [Dev.commandIssued, Dev.sub_portServe, Dev.sub_setSub]

theorem Dev.commandIssued_counted : d.counted (d.commandIssued c k r) Ix.capPortBytes (r.port + 1) 0 64 :=
  (d.setSub_only c k _).counted (by simp) (Dev.portServe_counted ..)

theorem Dev.migration_commandIssued : (d.commandIssued c k r).migration = d.migration := funext fun c' => by
  rw [Dev.migration, Dev.migration, Dev.commandIssued, Dev.portServe, (Dev.incI_only ..).cap (by decide)]
  rfl

end

/-- Without arrivals a queue stays. -/
theorem withArrivals_nil (x : SubSt) : { x with queue := x.queue ++ [] } = x := by rw [List.append_nil]

section
variable {t chan sub : Nat} {s : State} {e : Dev} (he : e = s.dev.at t) (hchan : chan < 8) (hsub : sub < 2)
include he hchan hsub

section
variable (hin : e.inService chan = true) (hstall : e.cap.stallUntil ≤ e.now)
include hin hstall

theorem subchannelCommand_refreshes {r : Nat} {l : List Nat} (hdue : (e.sub chan sub).refreshes = r :: l) :
    Completes (.subchannelCommand t chan sub [] false) t s [.cap] [] fun d =>
      d.sub chan sub = { e.sub chan sub with refreshes := l, issued := none } := by
  subst he
  refine completes_of_runIf (exec_subchannelCommand ..) (by simp [hchan, hsub])
    (x := (s.dev.at t).setSub chan sub { (s.dev.at t).sub chan sub with refreshes := l, issued := none })
    ((if_neg (by simp [hin, hstall])).trans ?_) (Dev.setSub_only ..) (Dev.sub_setSub ..)
  extract_lets new d x y
  have hy : y = (s.dev.at t).sub chan sub := withArrivals_nil x
  clear_value y
  subst hy
  rw [hdue]
  rfl

theorem subchannelCommand_neighbours {n : Nat × Nat} {l : List (Nat × Nat)} (hdue : (e.sub chan sub).refreshes = [])
    (hnext : (e.sub chan sub).neighbours = n :: l) :
    Completes (.subchannelCommand t chan sub [] false) t s [.cap, .ctr] [Ix.capRdRefreshes] fun d =>
      d.sub chan sub = { e.sub chan sub with neighbours := l, issued := none } ∧ e.counted d Ix.capRdRefreshes (chan + 1) 0 1 := by
  subst he
  have hset := (s.dev.at t).setSub_only chan sub { (s.dev.at t).sub chan sub with issued := none }
  obtain ⟨hdone, -, hcount⟩ := ((s.dev.at t).setSub chan sub { (s.dev.at t).sub chan sub with issued := none }).neighboursRefreshed_done chan sub n
  refine completes_of_runIf (exec_subchannelCommand ..) (by simp [hchan, hsub])
    (x := ((s.dev.at t).setSub chan sub { (s.dev.at t).sub chan sub with issued := none }).neighboursRefreshed chan sub n)
    ((if_neg (by simp [hin, hstall])).trans ?_) (Dev.changesOnly_mono (Dev.changesOnly_trans hset (Dev.neighboursRefreshed_only ..)) (by decide) (by decide))
    ⟨?_, hset.counted (by simp) hcount⟩
  · extract_lets new d x y
    have hy : y = (s.dev.at t).sub chan sub := withArrivals_nil x
    clear_value y
    subst hy
    rw [hdue, hnext]
    rfl
  · rw [hdone, Dev.sub_setSub, hnext, List.erase_cons_head]

theorem subchannelCommand_issues {r : MemReq} (hdue : (e.sub chan sub).refreshes = []) (hnext : (e.sub chan sub).neighbours = [])
    (hpick : e.pickReq (e.sub chan sub) = some r) (hmig : e.migration chan = none) :
    Completes (.subchannelCommand t chan sub [] false) t s [.cap, .ctr] [Ix.capPortBytes] fun d =>
      (d.sub chan sub).issued = some r ∧ (d.sub chan sub).queue = (e.sub chan sub).queue.erase r ∧
      (d.sub chan sub).openRow.find? (32 * r.rank + r.bank) = some r.row ∧ e.counted d Ix.capPortBytes (r.port + 1) 0 64 := by
  subst he
  have hissued := (s.dev.at t).commandIssued_only chan sub r
  refine completes_of_runIf (exec_subchannelCommand ..) (by simp [hchan, hsub]) (x := (s.dev.at t).commandIssued chan sub r)
    ((if_neg (by simp [hin, hstall])).trans ?_) hissued ?_
  · extract_lets new d x y
    have hy : y = (s.dev.at t).sub chan sub := withArrivals_nil x
    clear_value y
    subst hy
    have hd : d = s.dev.at t := rfl
    clear_value d
    subst hd
    rw [hdue, hnext]
    dsimp -zeta only
    rw [hpick]
    dsimp -zeta only
    extract_lets key write same z d1 d2
    have hz : z = ((s.dev.at t).sub chan sub).issues r := by
      unfold SubSt.issues
      rw [hdue, hnext]
    have hissue : d2 = (s.dev.at t).commandIssued chan sub r := by
      rw [Dev.commandIssued, ← hz]
      exact if_neg (by simp)
    clear_value d2
    subst hissue
    rw [Dev.migration_commandIssued, hmig]
  · rw [Dev.sub_commandIssued]
    exact ⟨rfl, rfl, Tab.find?_put_same .., Dev.commandIssued_counted ..⟩

end

end

/-! ### Refresh (R271) -/

/-- A rank's refresh joins the queue of a sub-channel. -/
def Dev.queueRefresh (d : Dev) (c k rank : Nat) : Dev := d.setSub c k { d.sub c k with refreshes := (d.sub c k).refreshes ++ [rank] }

/-- The next refresh of a rank falls due a quarter of the interval later, at the next bank index. -/
def Dev.refreshAgain (d : Dev) (c rank : Nat) : Dev :=
  { d with cap := { d.cap with
    refreshDue := d.cap.refreshDue.set 0 (8 * c + rank) (d.now + d.refi c / 4)
    refreshBank := d.cap.refreshBank.set 0 (8 * c + rank) ((d.cap.refreshBank.get 0 (8 * c + rank) + 1) % 4) } }

theorem Dev.sub_queueRefresh (d : Dev) (c k rank : Nat) :
    (d.queueRefresh c k rank).sub c k = { d.sub c k with refreshes := (d.sub c k).refreshes ++ [rank] } := Dev.sub_setSub ..

theorem Dev.sub_queueRefresh_other (d : Dev) {c j k : Nat} (rank : Nat) (h : j ≠ k) : (d.queueRefresh c j rank).sub c k = d.sub c k :=
  Dev.sub_setSub_other _ _ h

theorem Dev.sub_refreshAgain (d : Dev) (c rank : Nat) : (d.refreshAgain c rank).sub = d.sub := rfl

theorem refreshDue_refreshes {t chan rank : Nat} {s : State} {e : Dev} (he : e = s.dev.at t) (hchan : chan < 8) (hrank : rank < 5)
    (hin : e.inService chan = true) (hdue : e.cap.refreshDue.get 0 (8 * chan + rank) ≤ e.now) :
    Completes (.refreshDue t chan rank) t s [.cap] [] fun d =>
      (d.sub chan 0).refreshes = (e.sub chan 0).refreshes ++ [rank] ∧ (d.sub chan 1).refreshes = (e.sub chan 1).refreshes ++ [rank] ∧
      d.cap.refreshDue.get 0 (8 * chan + rank) = e.now + e.refi chan / 4 ∧
      d.cap.refreshBank.get 0 (8 * chan + rank) = (e.cap.refreshBank.get 0 (8 * chan + rank) + 1) % 4 := by
  subst he
  refine completes_of_runIf (exec_refreshDue ..) (by simp [hchan, hrank])
    (x := (((s.dev.at t).queueRefresh chan 0 rank).queueRefresh chan 1 rank).refreshAgain chan rank) (if_pos (by simp [hin, hdue]))
    (Dev.changesOnly_step (Dev.changesOnly_step (Dev.setSub_only ..) (Dev.setSub_only ..)) (Dev.cap_only ..))
    ⟨?_, ?_, Tab.get_set_same .., Tab.get_set_same ..⟩
  · rw [Dev.sub_refreshAgain, Dev.sub_queueRefresh_other _ _ (by decide), Dev.sub_queueRefresh]
  · rw [Dev.sub_refreshAgain, Dev.sub_queueRefresh, Dev.sub_queueRefresh_other _ _ (by decide)]

/-! ### Temperature (R271, Table 10.6) -/

/-- A channel's count of cool reads. -/
def Dev.setCool (d : Dev) (c n : Nat) : Dev := { d with cap := { d.cap with cool := d.cap.cool.set 0 c n } }

/-- The rate of refresh follows a read of the temperature. -/
def Dev.rateFollows (d : Dev) (c field : Nat) (temp : Int) : Dev :=
  let x2 := bitOf (d.n0 Ix.capRefreshX2) c
  if 85 < temp then
    let a := d.setCool c 0
    if x2 then a else (a.w0 Ix.capRefreshX2 (setBitTo (a.n0 Ix.capRefreshX2) c true)).capEvent 0x06 c 1 field
  else
    let n := d.cap.cool.get 0 c + 1
    let a := d.setCool c (min n 16)
    if x2 && 16 ≤ n then (a.w0 Ix.capRefreshX2 (setBitTo (a.n0 Ix.capRefreshX2) c false)).capEvent 0x06 c 0 field else a

/-- A channel stands above 95 °C, or does not. -/
def Dev.setOver95 (d : Dev) (l : List Nat) : Dev := { d with cap := { d.cap with over95 := l } }

/-- The heat of a channel follows a read of its temperature; DRAM_HOT is raised at most once a second. -/
def Dev.heatFollows (d : Dev) (c : Nat) (temp : Int) : Dev :=
  let others := d.cap.over95.filter (fun k => k != c)
  let a := if temp ≤ 95 && d.cap.over95.contains c && others.isEmpty then d.heatEnds else d
  let a := a.setOver95 (if 95 < temp then c :: others else others)
  let a : Dev := if 95 < temp then { a with pwr := { a.pwr with hot := true } } else a
  let again : Bool := match a.cap.hotRaised with | some r => decide (r + sec ≤ a.now) | none => true
  if 95 < temp && again then { a with cap := { a.cap with hotRaised := some a.now } }.raise 4 Code.dramHot else a

theorem exec_mr4Read_eq (t chan field : Nat) (temp : Int) (s : State) : exec (.mr4Read t chan field temp) s = runIf (chan < 8) t s fun d =>
    if !d.inService chan then d else ((d.wI Ix.capDramMr4 chan (field % 256)).rateFollows chan field temp).heatFollows chan temp := by
  rfl

theorem Dev.setCool_only (d : Dev) (c n : Nat) : d.changesOnly [.cap] [] (d.setCool c n) := Dev.cap_only ..
theorem Dev.setOver95_only (d : Dev) (l : List Nat) : d.changesOnly [.cap] [] (d.setOver95 l) := Dev.cap_only ..

theorem Dev.capEvent_only (d : Dev) (kind c a b : Nat) : d.changesOnly [.out, .ctr] eventPlaces (d.capEvent kind c a b) := Dev.event_only ..

theorem typeOf_dramMr4 {c : Nat} (hc : c < 8) : typeOf Ix.capDramMr4 (c + 1) = 5 := by
  have h : ∀ k < 8, typeOf Ix.capDramMr4 (k + 1) = 5 := by decide
  exact h c hc

/-- The refresh of a channel doubles, and the change is an event. -/
def Dev.rateDoubles (d : Dev) (c field : Nat) : Dev :=
  ((d.setCool c 0).w0 Ix.capRefreshX2 (setBitTo ((d.setCool c 0).n0 Ix.capRefreshX2) c true)).capEvent 0x06 c 1 field

section
variable {d : Dev} {c field : Nat} {temp : Int}

theorem Dev.rateFollows_cool (htemp : temp ≤ 85) (hx2 : bitOf (d.n0 Ix.capRefreshX2) c = false) :
    d.rateFollows c field temp = d.setCool c (min (d.cap.cool.get 0 c + 1) 16) := by
  have hcold : ¬ 85 < temp := by omega
  rw [Dev.rateFollows, hx2, if_neg hcold]
  exact if_neg (by simp)

theorem Dev.rateFollows_hot (htemp : 85 < temp) (hx2 : bitOf (d.n0 Ix.capRefreshX2) c = false) :
    d.rateFollows c field temp = d.rateDoubles c field := by
  rw [Dev.rateFollows, hx2, if_pos htemp]
  rfl

theorem Dev.heatFollows_cool (htemp : temp ≤ 95) (hc : c ∉ d.cap.over95) :
    d.heatFollows c temp = d.setOver95 (d.cap.over95.filter fun k => k != c) := by
  have hcold : ¬ 95 < temp := by omega
  have hnone : ¬ (temp ≤ 95 && d.cap.over95.contains c && (d.cap.over95.filter fun k => k != c).isEmpty) = true := by simp [hc]
  unfold Dev.heatFollows
  extract_lets others a1 a2 p a3 again
  have h1 : a1 = d := if_neg hnone
  have h3 : a3 = a2 := if_neg hcold
  rw [if_neg (by simp [hcold]), h3]
  simp only [a2, h1, if_neg hcold, others]

/-- A channel above 95 °C: the module is hot since now. -/
def Dev.runsHot (d : Dev) (c : Nat) : Dev :=
  { d with
    cap := { d.cap with over95 := c :: d.cap.over95.filter (fun k => k != c), hotRaised := some d.now }
    pwr := { d.pwr with hot := true } }

theorem Dev.heatFollows_hot (htemp : 95 < temp) (hraised : d.cap.hotRaised = none) :
    d.heatFollows c temp = (d.runsHot c).raise 4 Code.dramHot := by
  have hwarm : ¬ temp ≤ 95 := by omega
  unfold Dev.heatFollows
  extract_lets others a1 a2 p a3 again
  have h1 : a1 = d := if_neg (by simp [hwarm])
  have h2 : a2 = d.setOver95 (c :: others) := by simp only [a2, h1, if_pos htemp]
  have h3 : a3 = { a2 with pwr := { a2.pwr with hot := true } } := if_pos htemp
  have hnone : a3.cap.hotRaised = none := by
    rw [h3, h2]
    exact hraised
  have hagain : again = true := by simp only [again, hnone]
  have hhot : { a3 with cap := { a3.cap with hotRaised := some a3.now } } = d.runsHot c := by
    rw [h3, h2]
    rfl
  clear_value again a3
  rw [if_pos (by simp [htemp, hagain]), ← hhot]

theorem Dev.rateDoubles_only (d : Dev) (c field : Nat) :
    d.changesOnly [.cap, .out, .ctr] (Ix.capRefreshX2 :: eventPlaces) (d.rateDoubles c field) :=
  Dev.changesOnly_trans (Dev.changesOnly_trans (Dev.setCool_only ..) (Dev.w0_only ..)) (Dev.capEvent_only ..)

theorem Dev.rd_rateDoubles (d : Dev) (c field : Nat) : (d.rateDoubles c field).rd Ix.capRefreshX2 0 0 =
    normTy (typeOf Ix.capRefreshX2 0) (setBitTo (d.n0 Ix.capRefreshX2) c true) := by
  rw [Dev.rateDoubles, (Dev.capEvent_only ..).rd _ _ (by decide)]
  exact Dev.rd_wr_same ..

theorem Dev.cap_rateDoubles (d : Dev) (c field : Nat) : (d.rateDoubles c field).cap = (d.setCool c 0).cap :=
  (Dev.capEvent_only ..).cap (by decide)

theorem Dev.runsHot_only (d : Dev) (c : Nat) : d.changesOnly [.cap, .pwr] [] (d.runsHot c) :=
  Dev.changesOnly_trans (pl := [.cap]) (ps := []) (b := { d with cap := (d.runsHot c).cap }) (Dev.cap_only ..) (Dev.pwr_only ..)

end

section
variable {t chan field : Nat} {temp : Int} {s : State} {e : Dev} (he : e = s.dev.at t) (hchan : chan < 8) (hin : e.inService chan = true)
  (hx2 : bitOf (e.n0 Ix.capRefreshX2) chan = false)
include he hchan hin hx2

theorem mr4Read_cool (htemp : temp ≤ 85) (hover : chan ∉ e.cap.over95) (hfield : field < 256) :
    Completes (.mr4Read t chan field temp) t s [.cap] [Ix.capDramMr4] fun d =>
      d.rd Ix.capDramMr4 (chan + 1) 0 = (field : Nat) ∧ d.cap.cool.get 0 chan = min (e.cap.cool.get 0 chan + 1) 16 := by
  subst he
  have hmr4 := (s.dev.at t).wI_only Ix.capDramMr4 chan (field % 256)
  have hcap := hmr4.cap (by decide)
  have hn0 := hmr4.n0 (ix := Ix.capRefreshX2) (by decide)
  have hcool := ((s.dev.at t).wI Ix.capDramMr4 chan (field % 256)).setCool_only chan (min ((s.dev.at t).cap.cool.get 0 chan + 1) 16)
  have hover' := (((s.dev.at t).wI Ix.capDramMr4 chan (field % 256)).setCool chan (min ((s.dev.at t).cap.cool.get 0 chan + 1) 16)).setOver95_only
    ((s.dev.at t).cap.over95.filter fun k => k != chan)
  refine completes_of_runIf (exec_mr4Read_eq ..) (by simpa using hchan) (Eq.trans (if_neg (by simp [hin])) ?_)
    (Dev.changesOnly_mono (Dev.changesOnly_trans (Dev.changesOnly_trans hmr4 hcool) hover') (by decide) (by decide)) ⟨?_, Tab.get_set_same ..⟩
  · rw [Dev.rateFollows_cool htemp (by rwa [hn0]), hcap]
    exact Dev.heatFollows_cool (by omega) hover
  · have htype := typeOf_dramMr4 hchan
    rw [hover'.rd _ _ (by simp), hcool.rd _ _ (by simp), Nat.mod_eq_of_lt hfield]
    exact Dev.rd_wr_fits (n := 0) _ 0 (by rw [htype]; rfl) (by rw [htype]; rfl) (by simpa using hfield)

theorem mr4Read_hot (htemp : 95 < temp) (hraised : e.cap.hotRaised = none) (hroom : e.sup.emergencies.length < 32) :
    Completes (.mr4Read t chan field temp) t s (.cap :: .out :: .pwr :: codeParts)
      (Ix.capDramMr4 :: Ix.capRefreshX2 :: (eventPlaces ++ codePlaces)) fun d =>
      d.rd Ix.capRefreshX2 0 0 = normTy (typeOf Ix.capRefreshX2 0) (setBitTo (e.n0 Ix.capRefreshX2) chan true) ∧ d.pwr.hot = true ∧
      chan ∈ d.cap.over95 ∧ d.cap.hotRaised = some e.now ∧ d.reports 4 Code.dramHot := by
  subst he
  have hmr4 := (s.dev.at t).wI_only Ix.capDramMr4 chan (field % 256)
  have hrate := ((s.dev.at t).wI Ix.capDramMr4 chan (field % 256)).rateDoubles_only chan field
  have hhot := (((s.dev.at t).wI Ix.capDramMr4 chan (field % 256)).rateDoubles chan field).runsHot_only chan
  have hcap := ((s.dev.at t).wI Ix.capDramMr4 chan (field % 256)).cap_rateDoubles chan field
  have hn0 := hmr4.n0 (ix := Ix.capRefreshX2) (by decide)
  have hall := Dev.changesOnly_trans (Dev.changesOnly_trans hmr4 hrate) hhot
  have hraise := ((((s.dev.at t).wI Ix.capDramMr4 chan (field % 256)).rateDoubles chan field).runsHot chan).raise_only 4 Code.dramHot
  refine completes_of_runIf (exec_mr4Read_eq ..) (by simpa using hchan)
    (x := ((((s.dev.at t).wI Ix.capDramMr4 chan (field % 256)).rateDoubles chan field).runsHot chan).raise 4 Code.dramHot)
    (Eq.trans (if_neg (by simp [hin])) ?_) (Dev.changesOnly_mono (Dev.changesOnly_trans hall hraise) (by decide) (by decide)) ⟨?_, ?_, ?_, ?_, ?_⟩
  · rw [Dev.rateFollows_hot (by omega) (by rwa [hn0]), Dev.heatFollows_hot htemp (by rw [hcap]; exact hraised)]
  · rw [hraise.rd _ _ (by decide), hhot.rd _ _ (by decide), Dev.rd_rateDoubles, hn0]
  · rw [Dev.raise_pwr]
    rfl
  · rw [hraise.cap (by decide)]
    exact List.mem_cons_self
  · rw [hraise.cap (by decide)]
    exact congrArg some ((Dev.changesOnly_trans hmr4 hrate).now (by decide))
  · exact Dev.raise_places _ 4 Code.dramHot (by rw [hall.sup (by decide)]; exact hroom) (by decide) (by decide)

end

/-! ### Row disturbance (R272) -/

/-- The table of a bank. -/
def Dev.setRows (d : Dev) (k : Nat) (l : List (Nat × Nat)) : Dev := { d with cap := { d.cap with rows := d.cap.rows.set [] k l } }

/-- An activate is counted in its bank's table; at the threshold the row counts from 0, and its neighbours are to be refreshed. -/
def Dev.rowCounted (d : Dev) (c sub k row : Nat) (l : List (Nat × Nat)) (hit : Bool) : Dev :=
  let a := d.setRows k (if hit then l.map (fun p => if p.1 = row then (row, 0) else p) else l)
  if hit then a.setSub c sub { a.sub c sub with neighbours := (a.sub c sub).neighbours ++ [(k, row)] } else a

theorem Dev.setRows_only (d : Dev) (k : Nat) (l : List (Nat × Nat)) : d.changesOnly [.cap] [] (d.setRows k l) := Dev.cap_only ..

section
variable {t chan sub rank bank row : Nat} {s : State} {e : Dev} (he : e = s.dev.at t) (hchan : chan < 8) (hsub : sub < 2) (hrank : rank < 5)
  (hbank : bank < 32) (hrow : row < 16384) {k : Nat} (hk : k = bankKey chan sub rank bank)
include he hchan hsub hrank hbank hrow hk

section
variable (hin : e.inService chan = true) {l : List (Nat × Nat)} (hl : l = activateRow row (e.cap.rows.get [] k))
include hin hl

/-- An activate completes as its bank's table counts it. -/
theorem completes_rowActivate {hit : Bool} {post : Dev → Prop} (hhit : (l.any fun p => p.1 == row && e.n0 Ix.capRdThreshold ≤ p.2) = hit)
    (hp : post (e.rowCounted chan sub k row l hit)) : Completes (.rowActivate t chan sub rank bank row) t s [.cap] [] post := by
  subst he hk hl hhit
  refine completes_of_runIf (exec_rowActivate ..) (by simp [hchan, hsub, hrank, hbank, hrow]) (if_neg (by simp [hin])) ?_ hp
  exact Dev.changesOnly_step (Dev.setRows_only ..) (Dev.changesOnly_ite (fun _ => Dev.setSub_only ..) fun _ => Dev.changesOnly_refl ..)

theorem rowActivate_counts (hbelow : ∀ p ∈ l, p.1 = row → p.2 < e.n0 Ix.capRdThreshold) :
    Completes (.rowActivate t chan sub rank bank row) t s [.cap] [] fun d =>
      d.cap = { e.cap with rows := d.cap.rows } ∧ d.cap.rows.get [] k = l ∧ ∀ k', k' ≠ k → d.cap.rows.get [] k' = e.cap.rows.get [] k' := by
  have hhit : (l.any fun p => p.1 == row && e.n0 Ix.capRdThreshold ≤ p.2) = false := by
    simpa using fun a b hab hr => hbelow (a, b) hab hr
  exact completes_rowActivate he hchan hsub hrank hbank hrow hk hin hl hhit
    ⟨rfl, Tab.get_set_same .., fun k' hk' => Tab.get_set_other _ _ _ _ _ _ (Ne.symm hk')⟩

theorem rowActivate_disturbs (hreached : ∃ p ∈ l, p.1 = row ∧ e.n0 Ix.capRdThreshold ≤ p.2) :
    Completes (.rowActivate t chan sub rank bank row) t s [.cap] [] fun d =>
      d.cap.rows.get [] k = l.map (fun p => if p.1 = row then (row, 0) else p) ∧
      d.sub chan sub = { e.sub chan sub with neighbours := (e.sub chan sub).neighbours ++ [(k, row)] } := by
  have hhit : (l.any fun p => p.1 == row && e.n0 Ix.capRdThreshold ≤ p.2) = true := by
    obtain ⟨p, hp, hr, hc⟩ := hreached
    exact List.any_eq_true.2 ⟨p, hp, Bool.and_eq_true_iff.2 ⟨beq_iff_eq.2 hr, decide_eq_true hc⟩⟩
  exact completes_rowActivate he hchan hsub hrank hbank hrow hk hin hl hhit ⟨Tab.get_set_same .., Dev.sub_setSub ..⟩

end

theorem neighbourRefresh_refreshes (hqueued : (k, row) ∈ (e.sub chan sub).neighbours) :
    Completes (.neighbourRefresh t chan sub rank bank row) t s [.cap, .ctr] [Ix.capRdRefreshes] fun d =>
      d.sub chan sub = { e.sub chan sub with neighbours := (e.sub chan sub).neighbours.erase (k, row) } ∧
      d.cap.rows.get [] k = (e.cap.rows.get [] k).map (fun p => if p.1 = row then (row, 0) else p) ∧
      e.counted d Ix.capRdRefreshes (chan + 1) 0 1 := by
  subst he hk
  exact completes_of_runIf (exec_neighbourRefresh ..) (by simp [hchan, hsub, hrank, hbank, hrow]) (if_pos (List.contains_iff_mem.2 hqueued))
    (Dev.neighboursRefreshed_only ..) (Dev.neighboursRefreshed_done ..)

end

theorem rowTableClear_clears {t : Nat} {s : State} {e : Dev} (he : e = s.dev.at t) (hdue : e.cap.rowsCleared + ms 32 ≤ e.now) :
    Completes (.rowTableClear t) t s [.cap] [] fun d => d.cap = { e.cap with rows := [], rowsCleared := e.now } := by
  subst he
  exact completes_of_eq (exec_rowTableClear ..) (if_pos hdue) (Dev.cap_only ..) rfl

/-! ### Retraining (R27, R278) -/

/-- A channel's retraining is due, at a temperature. -/
def Dev.retrainFalls (d : Dev) (c : Nat) (temp : Int) : Dev :=
  { d with cap := { d.cap with due := d.cap.due ++ [c], trainedAt := d.cap.trainedAt.set 0 c temp } }

/-- A stall that R27 does not allow now is put off, which is counted. -/
def Dev.stallDeferred (d : Dev) : Dev := if d.mayStall then d else d.inc0 Ix.capStallDeferrals

theorem Dev.stallDeferred_only (d : Dev) : d.changesOnly [.ctr] [Ix.capStallDeferrals] d.stallDeferred :=
  Dev.changesOnly_ite (fun _ => Dev.changesOnly_refl ..) fun _ => Dev.inc_only ..

theorem Dev.stallDeferred_counted {d : Dev} (h : d.mayStall = false) : d.counted d.stallDeferred Ix.capStallDeferrals 0 0 1 := by
  rw [Dev.stallDeferred, h]
  exact Dev.inc_counted ..

theorem retrainDue_falls {t chan : Nat} {temp : Int} {s : State} {e : Dev} (he : e = s.dev.at t) (hchan : chan < 8) (hin : e.inService chan = true)
    (hnew : chan ∉ e.cap.due) (hperiod : e.cap.trained.get 0 chan + e.n0 Ix.capRetrainS * sec ≤ e.now) :
    Completes (.retrainDue t chan temp) t s [.cap, .ctr] [Ix.capStallDeferrals] fun d =>
      d.cap.due = e.cap.due ++ [chan] ∧ d.cap.trainedAt.get 0 chan = temp ∧
      (e.mayStall = false → e.counted d Ix.capStallDeferrals 0 0 1) := by
  subst he
  have hfalls : (s.dev.at t).changesOnly [.cap] [] ((s.dev.at t).retrainFalls chan temp) := Dev.cap_only ..
  refine completes_of_runIf (exec_retrainDue ..) (by simpa using hchan) (x := ((s.dev.at t).retrainFalls chan temp).stallDeferred)
    (if_pos (by rw [hin, decide_eq_true hperiod]; simp [hnew]))
    (Dev.changesOnly_mono (Dev.changesOnly_trans hfalls (Dev.stallDeferred_only _)) (by decide) (by decide))
    ⟨?_, ?_, fun h => hfalls.counted (by simp) (Dev.stallDeferred_counted h)⟩
  · rw [(Dev.stallDeferred_only _).cap (by decide)]
    rfl
  · rw [(Dev.stallDeferred_only _).cap (by decide)]
    exact Tab.get_set_same ..

/-- A channel leaves service to train: its stall is measured from the hod buffer's present occupancy. -/
def Dev.trainingBegins (d : Dev) (c : Nat) : Dev :=
  { d with cap := { d.cap with
    due := d.cap.due.filter (fun k => k != c), training := some (c, d.now), stallBase := some (d.cap.stallBase.getD (d.n0 Ix.capHodOccupancy)) } }

section
variable {t chan : Nat} {s : State} {e : Dev} (he : e = s.dev.at t) (hchan : chan < 8) (hdue : chan ∈ e.cap.due) (hnone : e.cap.training = none)
  (hleast : ∀ c ∈ e.cap.due, chan ≤ c)
include he hchan hdue hnone hleast

/-- It is the turn of the lowest channel that is due. -/
theorem completes_retrainStart {x : Dev} {pl : List Part} {ps : List Nat} {post : Dev → Prop}
    (hx : (if (e.migration chan).isSome || !e.mayStall || !e.sup.running then e.inc0 Ix.capStallDeferrals
      else (e.trainingBegins chan).wI Ix.capChanState chan 2) = x) (hf : e.changesOnly pl ps x) (hp : post x) :
    Completes (.retrainStart t chan) t s pl ps post := by
  subst he
  have hturn : ((s.dev.at t).cap.due.any fun c => decide (c < chan)) = false := by simpa using hleast
  exact completes_of_runIf (exec_retrainStart ..) (by simpa using hchan) ((if_neg (by simp [hdue, hnone, hturn])).trans hx) hf hp

theorem retrainStart_starts (hmig : e.migration chan = none) (hstall : e.mayStall = true) (hrun : e.sup.running = true) :
    Completes (.retrainStart t chan) t s [.cap] [Ix.capChanState] fun d =>
      d.cap.training = some (chan, e.now) ∧ chan ∉ d.cap.due ∧ d.rd Ix.capChanState (chan + 1) 0 = 2 := by
  have htype := typeOf_chanState hchan
  refine completes_retrainStart he hchan hdue hnone hleast (if_neg (by simp [hmig, hstall, hrun]))
    (Dev.changesOnly_trans (pl := [.cap]) (ps := []) (Dev.cap_only ..) (Dev.wI_only ..)) ⟨rfl, ?_, ?_⟩
  · exact fun hmem => by simpa using (List.mem_filter.1 hmem).2
  · exact Dev.rd_wr_fits (n := 0) _ 0 (by rw [htype]; rfl) (by rw [htype]; rfl) (by decide)

theorem retrainStart_waits (hheld : e.mayStall = false ∨ e.sup.running = false) :
    Completes (.retrainStart t chan) t s [.ctr] [Ix.capStallDeferrals] fun d => e.counted d Ix.capStallDeferrals 0 0 1 :=
  completes_retrainStart he hchan hdue hnone hleast (if_pos (by rcases hheld with h | h <;> simp [h])) (Dev.inc_only ..) (Dev.inc_counted ..)

end

/-- Settles O32, clause by clause: the buckets; a sub-channel's refreshes, neighbour refreshes and requests; refresh, a cool and a hot read of the
temperature; an activate below and at the threshold, the refresh of its neighbours, the tables cleared; retraining due, begun, put off. -/
theorem schedulingRefreshAndRetraining : Obligations.SchedulingRefreshAndRetraining := by
  unfold Obligations.SchedulingRefreshAndRetraining
  refine ⟨?_, ?_, ?_, ?_, ?_, ?_, ?_, ?_, ?_, ?_, ?_, ?_, ?_, ?_⟩
  · intro t s e k he hk
    exact regulatorRefill_refills he hk
  · intro t chan sub s e r l he hchan hsub hin hstall hdue
    exact subchannelCommand_refreshes he hchan hsub hin hstall hdue
  · intro t chan sub s e n l he hchan hsub hin hstall hdue hnext
    exact subchannelCommand_neighbours he hchan hsub hin hstall hdue hnext
  · intro t chan sub s e r he hchan hsub hin hstall hdue hnext hpick hmig
    exact subchannelCommand_issues he hchan hsub hin hstall hdue hnext hpick hmig
  · intro t chan rank s e he hchan hrank hin hdue
    exact refreshDue_refreshes he hchan hrank hin hdue
  · intro t chan field temp s e he hchan hin htemp hx2 hover hfield
    exact mr4Read_cool he hchan hin hx2 htemp hover hfield
  · intro t chan field temp s e he hchan hin htemp hx2 hraised hroom
    exact mr4Read_hot he hchan hin hx2 htemp hraised hroom
  · intro t chan sub rank bank row s e k l he hchan hsub hrank hbank hrow hin hk hl hbelow
    exact rowActivate_counts he hchan hsub hrank hbank hrow hk hin hl hbelow
  · intro t chan sub rank bank row s e k l he hchan hsub hrank hbank hrow hin hk hl hreached
    exact rowActivate_disturbs he hchan hsub hrank hbank hrow hk hin hl hreached
  · intro t chan sub rank bank row s e k he hchan hsub hrank hbank hrow hk hqueued
    exact neighbourRefresh_refreshes he hchan hsub hrank hbank hrow hk hqueued
  · intro t s e he hdue
    exact rowTableClear_clears he hdue
  · intro t chan temp s e he hchan hin hnew hperiod
    exact retrainDue_falls he hchan hin hnew hperiod
  · intro t chan s e he hchan hdue hnone hleast hmig hstall hrun
    exact retrainStart_starts he hchan hdue hnone hleast hmig hstall hrun
  · intro t chan s e he hchan hdue hnone hleast hheld
    exact retrainStart_waits he hchan hdue hnone hleast hheld

end Sys2Proof.Machine
end
